-- ==== Sys2Proof/Word.lean ====
section
/-! DEFINITION. The word types: a register word is 32 bits (R17, R30), a memory cell is a byte. -/

namespace Sys2Proof

/-- One 32-bit register word. -/
abbrev Word := BitVec 32

/-- One byte of an addressed memory. -/
abbrev Byte := BitVec 8

/-- A register field: the page offset of its register (of the first word, for a register of several words) and its
bit range, `hi` above `lo`; a field of a multi-word register counts its bits on through the words (R17). -/
structure Fld where
  off : Nat
  hi : Nat
  lo : Nat
deriving DecidableEq, Repr

end Sys2Proof
end

