-- ==== Sys2Proof/Syntax.lean ====
section
/-! DEFINITION. The commands: one constructor of Instr per row of spec/opcode_table.json, with the row's operands; and
the records that some rows carry as operands. -/

namespace Sys2Proof

/-- A writing path of R17: one BAR0 window, one SPI WINDOW, the I2C port, one ring, the remote root, Kalwin
firmware, or a scheduler queue. -/
inductive Path where
  | bar0 (w : Nat)
  | spi (w : Nat)
  | i2c
  | ring (r : Nat)
  | remote
  | kalwin
  /-- A REG_WRITE32 action of a queue, inside the T48 (R139). -/
  | queue (q : Nat)
deriving DecidableEq, Repr

/-- One edge measured by a calibration TDC in a visit (R68, R72): its sense, its vernier code and its measured error
(measured minus intended) in SU. -/
structure CalEdge where
  rising : Bool
  code : Nat
  err : Int
deriving DecidableEq, Repr

/-- What a visit of a calibration TDC measured (R68): the target (0 to 4 engine return paths, 8 to 11 lane pads, 15 a slice of a sweep),
the edges measured, and the number of edges that returned from the target. -/
structure CalVisit where
  target : Nat
  edges : List CalEdge
  returned : Nat
deriving DecidableEq, Repr

/-- What a sweep measured (R70): for each of the 16 phases the delays of the raw codes from 0 on, in SU from the start of the TCLK period,
and the rms jitter in fs. -/
structure SweepResult where
  delays : List (List Int)
  jitterFs : Nat
deriving DecidableEq, Repr

/-- What the calibration TDC measured between the spare and the old engine of a swap (R76): edge pairs, the mean
difference in fs, and whether a spare edge was missing. -/
structure SwapCheck where
  pairs : Nat
  diffFs : Int
  missing : Bool
deriving DecidableEq, Repr

/-- A factory term that follows a setting (R83, R97, R166): LANE_TERM of a channel's lane by FORMAT, LOOP_TERM of a channel by FORMAT,
or INPUT_TERM of an input by INPUT_MODE and TERM. -/
inductive FormKey where
  | lane (c format : Nat)
  | loop (c format : Nat)
  | input (i mode term : Nat)
deriving DecidableEq, Repr

/-- The rising and falling value of a term under a setting, in SU. -/
structure FormTerm where
  key : FormKey
  rise : Int
  fall : Int
deriving DecidableEq, Repr

/-- The source of a trigger-line event, in the order of the KIND values of R101. -/
inductive LineSource where
  | timingInput (i : Nat) (rising : Bool)
  | ridge (num : Nat)
  | scheduler (q line : Nat)
  | tick (n : Nat)
  | marker (q : Nat)
  | tracker (t : Nat)
  | host (line : Nat)
deriving DecidableEq, Repr

/-- An event on its way to the trigger lines (R100, R101): its source, its instant in SU since the epoch and its
bound. -/
structure LineEvent where
  src : LineSource
  t : Nat
  teb : Nat
deriving DecidableEq, Repr


/-- A threshold crossing at the ball of a timing input (R160): its sense, and its raw position in SU from TCLK count
zero. -/
structure Crossing where
  rising : Bool
  pos : Nat
deriving DecidableEq, Repr

/-- What a core converted (R165): TCLK period, phase bin and code. -/
structure Conversion where
  n : Nat
  bin : Nat
  code : Nat
deriving DecidableEq, Repr

/-- What goes with a complete back table set (R169): the first and last code of the nominal span, and the INPUT_TERM values that Kalwin
firmware gives it (R166); of a core of SYNC_IN, a Ridge or an Ethernet port also the largest pulse error and the pulse rms with the new set,
in fs. -/
structure TableResult where
  lo : Nat
  hi : Nat
  termRise : Int
  termFall : Int
  maxErrFs : Nat
  rmsFs : Nat
deriving DecidableEq, Repr

/-- What is measured at a renewal (R206): the oven temperature in units of 2^-8 degrees, the heater power in mW, and the die
temperature in units of 0.125 degrees (R83). -/
structure XoMeasure where
  temp : Int
  heater : Nat
  die : Int
deriving DecidableEq, Repr

/-- The source voltages of the Eave's monitors in one sampling window (R284): AIN_0, AIN_1, VBAT, VDD_HV and VDD_IO in microvolts, and the
junction temperature as its sensor reads it, with the ±3 °C of R284 in it, in thousandths of a degree. -/
structure SourceLevels where
  ain0 : Nat := 0
  ain1 : Nat := 0
  vbat : Nat := 0
  vddHv : Nat := 0
  vddIo : Nat := 0
  tj : Int := 0
deriving DecidableEq, Repr

/-- What the collector makes of the pair of a source (R296): 00 or 11 for two cycles in succession, or, where that had come, a valid
reading again. -/
structure PairReading where
  source : Nat
  bad : Bool
deriving DecidableEq, Repr

/-- A fit of the ageing model by Kalwin firmware (R207): its origin, a, b, c in the units of the XO page, and the standard
error of the fitted rate in 10^-18 per second. -/
structure AgeFit where
  t0 : Nat
  a : Int
  b : Nat
  c : Int
  stdErr : Nat
deriving DecidableEq, Repr
/-- Header and body fields of a TIME cell (R255, R261) as they arrive: instants in SU since the epoch, the raw position of the internal
stamp of its delimiter, in SU from TCLK count zero, and the deserializer's bit position (R262). -/
structure TimeCell where
  scope : Nat
  upward : Bool
  domain : Nat
  src : Nat
  txSeq : Nat
  prevDep : Nat
  rxSeq : Nat
  rxArr : Nat
  prevDepTeb : Nat
  basis : Nat
  root : Bool
  rxValid : Bool
  depValid : Bool
  upstream : Bool
  stepSeq : Nat
  utcOffset : Nat
  leapPending : Nat
  leapDay : Nat
  pos : Nat
  bitPos : Nat := 0
deriving DecidableEq, Repr

/-- Header and body fields of a TRIG cell (R255, R265); EXEC_AT in SU since the epoch. -/
structure TrigCell where
  scope : Nat
  upward : Bool
  hops : Nat
  domain : Nat
  src : Nat
  dst : Nat
  num : Nat
  seq : Nat
  execAt : Nat
deriving DecidableEq, Repr

/-- Header and body fields of a MGMT cell (R255, R266), with its TAG. -/
structure MgmtCell where
  scope : Nat
  upward : Bool
  hops : Nat
  domain : Nat
  src : Nat
  dst : Nat
  counter : Nat
  op : Nat
  keyId : Nat
  result : Nat
  page : Nat
  offset : Nat
  data : Nat
  tag : Nat
deriving DecidableEq, Repr

/-- What a port reads for the next element of its TX ring (R270): the element's request fields, the frame without FCS,
and for a frame that is sent the raw position of its internal departure stamp (SU from TCLK count zero) and its bit position
term in SU. -/
structure TxFrame where
  addr : Nat
  length : Nat
  tsReq : Bool
  oneStep : Bool
  bytes : List Nat
  pos : Nat
  bitpos : Int
deriving DecidableEq, Repr

/-- A frame that arrives (R270): its bytes without FCS, whether the FCS is good, the raw position of its internal arrival
stamp and its bit position term, and the host address of the buffer that the next RX element names. -/
structure RxFrame where
  bytes : List Nat
  fcsOk : Bool
  pos : Nat
  bitpos : Int
  addr : Nat
deriving DecidableEq, Repr

/-- What a configuration request, or another access to the endpoint's own registers, asks for (R29): the identity, D3hot or D0, the mask of
an MSI-X vector, or anything else. -/
inductive ConfigKind where
  | other
  | identity
  | power (d3hot : Bool)
  | vector (v : Nat) (masked : Bool)
deriving DecidableEq, Repr

/-- A request that reaches the PCIe endpoint: its tag (10 bits, R29) and what it asks for. -/
structure ConfigReq where
  tag : Nat
  kind : ConfigKind
deriving DecidableEq, Repr

/-- The straps sampled at V (R312). -/
structure Straps where
  faultMode : Bool
  hostSel : Bool
  bootRec : Bool
deriving DecidableEq, Repr

/-- The header of an image in flash, as far as the T48 acts on it (R327): compatibility entries as their 32-bit words,
PAYLOAD_HASH as a number, and the SHA-384 hash of the owner key under which its OWNER_SIG verifies, 0 where it verifies under none (R328). -/
structure ImageHdr where
  component : Nat
  ownerSigned : Bool
  keyIndex : Nat
  secVer : Nat
  version : Nat
  schema : Nat
  payload : Nat
  provides : List Nat
  requires : List Nat
  hash : Nat
  owner : Nat := 0
deriving DecidableEq, Repr

/-- What the resident loader and the LOADER find at a start (R316, R317, R335): whether a LOADER and a MAIN image verify,
whether CALDATA verifies, the components that had to be started from their other slot, the images that the flash held when
the device was made (component, slot, header), the register words that CALDATA and OTP give (page, offset, word), and the terms of
CALDATA that follow a setting; whether the last write of the boot table, or of the settings store, was cut short (R326, R345); and whether
the MAIN that starts can migrate the settings store where it must (R344). -/
structure BootData where
  images : Bool
  calOk : Bool
  fallen : List Nat
  made : List (Nat × Nat × ImageHdr)
  terms : List (Nat × Nat × Nat)
  forms : List FormTerm
  torn : Bool := false
  storeTorn : Bool := false
  migrates : Bool := true
deriving DecidableEq, Repr

/-- What the cryptographic part of R328 finds for the container in STAGING, and what the decrypted container brings: whether
signatures, hash and tag verify; the payload words of a MANIFEST or a key, lowest first; OVEN_SETPOINT and the factory terms
(page, offset, word) of a CALDATA image; whether a MAIN image reads or migrates the settings store (R344) and finds
the handover area whole (R336); the Yaditas keys that a MAIN image instructs Kalwin firmware to revoke; and the hash of the owner key
under which OWNER_SIG verifies, 0 where it verifies under none (R328). -/
structure VerifyResult where
  ok : Bool
  words : List Nat
  oven : Int
  terms : List (Nat × Nat × Nat)
  forms : List FormTerm
  migrates : Bool
  handover : Bool
  revoke : Nat := 0
  owner : Nat := 0
deriving DecidableEq, Repr

/-- What has two microcode banks (R338): the Eave, and the protocol engine of each Ridge and each Ethernet port. -/
inductive BankUnit where
  | eave
  | ridge (p : Nat)
  | eth (p : Nat)
deriving DecidableEq, Repr

/-- The commands and events of the table, one constructor per row; the docstrings quote the rule that governs the row. -/
inductive Instr where
  /-- REGISTER_WRITE (R39). -/
  | registerWrite (path : Path) (page : Nat) (off : Nat) (v : Nat)
  /-- STAGED_WORD_WRITE (R17). -/
  | stagedWordWrite (path : Path) (page : Nat) (off : Nat) (v : Nat)
  /-- LATCHING_READ (R17). -/
  | latchingRead (path : Path) (page : Nat) (off : Nat)
  /-- BAD_ACCESS (R30). -/
  | badAccess (addr : Nat) (size : Nat) (isRead : Bool)
  /-- BAR2_WRITE (R48). -/
  | bar2Write (off : Nat) (bytes : List Nat)
  /-- SPI_TRANSACTION (R32). -/
  | spiTransaction (cmd : Nat) (addr : Nat) (data : List Nat) (nread : Nat)
  /-- I2C_TRANSACTION (R292). -/
  | i2cTransaction (off : Nat) (data : List Nat) (nread : Nat)
  /-- GO (R372). -/
  | go (path : Path) (page : Nat) (lane : Nat) (v : Nat)
  /-- COMMIT_ABORT (R24). -/
  | commitAbort (path : Path) (page : Nat) (lane : Nat) (v : Nat)
  /-- COMMIT_MODE_CHANGE (R372). -/
  | commitModeChange (path : Path) (page : Nat) (lane : Nat) (v : Nat)
  /-- SHADOW_COMMIT (R24). -/
  | shadowCommit (page : Nat) (lane : Nat)
  /-- CG_ARM (R26). -/
  | cgArm (path : Path) (v : Nat)
  /-- CG_DISARM (R25). -/
  | cgDisarm (path : Path) (v : Nat)
  /-- CG_FIRE (R26). -/
  | cgFire (g : Nat)
  /-- WINDOW_BIND (R35). -/
  | windowBind (path : Path) (off : Nat) (v : Nat)
  /-- OWNER_WRITE (R43). -/
  | ownerWrite (path : Path) (page : Nat) (v : Nat)
  /-- CLAIM (R43). -/
  | claim (path : Path) (res : Nat)
  /-- RELEASE (R43). -/
  | release (path : Path) (res : Nat)
  /-- QUERY (R45). -/
  | query (path : Path) (res : Nat) (agent : Nat)
  /-- FORCE_RELEASE (R44). -/
  | forceRelease (path : Path) (res : Nat) (agent : Nat)
  /-- LEASE_PERIOD_WRITE (R46). -/
  | leasePeriodWrite (path : Path) (w : Nat) (v : Nat)
  /-- KICK (R46). -/
  | kick (path : Path) (w : Nat) (v : Nat)
  /-- LEASE_EXPIRY (R46). -/
  | leaseExpiry (w : Nat)
  /-- RING_ENABLE (R49). -/
  | ringEnable (path : Path) (r : Nat) (v : Nat)
  /-- RING_DISABLE (R53). -/
  | ringDisable (path : Path) (r : Nat) (v : Nat)
  /-- RING_CFG_WRITE (R50). -/
  | ringCfgWrite (path : Path) (r : Nat) (v : Nat)
  /-- DOORBELL (R51). -/
  | doorbell (path : Path) (r : Nat) (v : Nat)
  /-- RING_DMA_ERROR (R53). -/
  | ringDmaError (r : Nat)
  /-- COMMAND_WRITE32 (R52). -/
  | commandWrite32 (r : Nat) (tag : Nat) (page : Nat) (off : Nat) (v : Nat)
  /-- COMMAND_READ32 (R52). -/
  | commandRead32 (r : Nat) (tag : Nat) (page : Nat) (off : Nat)
  /-- COMMAND_WRITE128 (R52). -/
  | commandWrite128 (r : Nat) (tag : Nat) (page : Nat) (off : Nat) (v : Nat)
  /-- COMMAND_READ128 (R52). -/
  | commandRead128 (r : Nat) (tag : Nat) (page : Nat) (off : Nat)
  /-- FENCE (R52). -/
  | fence (r : Nat) (tag : Nat)
  /-- LEASE_KICK (R46). -/
  | leaseKick (r : Nat) (tag : Nat)
  /-- COMMAND_NOP (R52). -/
  | commandNop (r : Nat) (tag : Nat)
  /-- MOD_TIME_EXPIRY (R55). -/
  | modTimeExpiry (r : Nat)
  /-- FREEZE (R56). -/
  | freeze (path : Path)
  /-- SNAPSHOT_RELEASE (R56). -/
  | snapshotRelease (path : Path)
  /-- EDGE_ISSUE (R370). -/
  | edgeIssue (c : Nat)
  /-- EDGE_LAUNCH (R62). -/
  | edgeLaunch (c : Nat)
  /-- CAL_VISIT_END (R69). -/
  | calVisitEnd (q : Nat) (v : CalVisit)
  /-- SWEEP_START (R71). -/
  | sweepStart (q : Nat) (e : Nat)
  /-- SWEEP_DONE (R70). -/
  | sweepDone (q : Nat) (r : SweepResult)
  /-- TABLE_SET_EXCHANGE (R71). -/
  | tableSetExchange (q : Nat) (e : Nat)
  /-- SWAP_ARM (R74). -/
  | swapArm (q : Nat) (lane : Nat) (reason : Nat)
  /-- SWAP_VERIFY (R76). -/
  | swapVerify (q : Nat) (m : SwapCheck)
  /-- SWAP_SWITCH (R75). -/
  | swapSwitch (q : Nat)
  /-- SWAP_DONE (R75). -/
  | swapDone (q : Nat)
  /-- FAILED_LANE_REMAP (R77). -/
  | failedLaneRemap (q : Nat)
  /-- SWAP_LANE (R74). -/
  | swapLane (path : Path) (q : Nat) (lane : Nat)
  /-- RESWEEP_SPARE (R78). -/
  | resweepSpare (path : Path) (q : Nat)
  /-- RETEST (R78). -/
  | retest (path : Path) (q : Nat) (e : Nat)
  /-- RETEST_DONE (R78). -/
  | retestDone (q : Nat) (r : SweepResult)
  /-- TDC_FAULT (R73). -/
  | tdcFault (q : Nat)
  /-- ENGINE_TABLE_ECC (R72). -/
  | engineTableEcc (q : Nat) (e : Nat) (uncorrectable : Bool)
  /-- DRIVER_FAULT (R99). -/
  | driverFault (page : Nat) (bit : Nat)
  /-- LOOP_ENABLE (R82). -/
  | loopEnable (path : Path) (v : Nat)
  /-- CHANNEL_FLUSH (R91). -/
  | channelFlush (path : Path) (c : Nat)
  /-- CHANNEL_SAFE_EXIT (R98). -/
  | channelSafeExit (path : Path) (c : Nat)
  /-- TRIGGER_LINE_EVENT (R100). -/
  | triggerLineEvent (e : LineEvent)
  /-- TL_SRC_WRITE (R101). -/
  | tlSrcWrite (path : Path) (n : Nat) (v : Nat)
  /-- TL_SHAPE_WRITE (R100). -/
  | tlShapeWrite (path : Path) (n : Nat) (v : Nat)
  /-- FIRE_NOW (R102). -/
  | fireNow (path : Path) (n : Nat)
  /-- FIRE_AT (R102). -/
  | fireAt (path : Path) (n : Nat)
  /-- START (R127). -/
  | start (path : Path) (q : Nat)
  /-- STOP_AT_END (R128). -/
  | stopAtEnd (path : Path) (q : Nat)
  /-- STOP_NOW (R128). -/
  | stopNow (path : Path) (q : Nat)
  /-- JUMP (R117). -/
  | jump (path : Path) (q : Nat)
  /-- CLEAR_REQUEST (R117). -/
  | clearRequest (path : Path) (q : Nat)
  /-- DISARM (R127). -/
  | disarm (path : Path) (q : Nat)
  /-- SEQ_DECISION (R115). -/
  | seqDecision (q : Nat)
  /-- SEQ_OCCURRENCE_START (R111). -/
  | seqOccurrenceStart (q : Nat)
  /-- SEQ_CUT (R119). -/
  | seqCut (q : Nat)
  /-- SEQ_PARK_RESUME (R125). -/
  | seqParkResume (q : Nat)
  /-- SEQ_STOP (R128). -/
  | seqStop (q : Nat)
  /-- EDGE_HI (R110). -/
  | edgeHi (q : Nat)
  /-- EDGE_LO (R110). -/
  | edgeLo (q : Nat)
  /-- TOGGLE (R110). -/
  | toggle (q : Nat)
  /-- MARK (R110). -/
  | mark (q : Nat)
  /-- RECORD_NOP (R110). -/
  | recordNop (q : Nat)
  /-- RECORD_END (R110). -/
  | recordEnd (q : Nat)
  /-- BANK_ECC (R108). -/
  | bankEcc (q : Nat) (granule : Nat) (uncorrectable : Bool)
  /-- COURSE_TABLE_ECC (R114). -/
  | courseTableEcc (c : Nat) (uncorrectable : Bool)
  /-- REFILL_SUBMIT (R123). -/
  | refillSubmit (path : Path) (q : Nat)
  /-- REFILL_FLUSH (R133). -/
  | refillFlush (path : Path) (q : Nat)
  /-- REFILL_DONE (R123). -/
  | refillDone (q : Nat) (bytes : List Nat)
  /-- REFILL_DMA_ERROR (R123). -/
  | refillDmaError (q : Nat)
  /-- READY_SET (R121). -/
  | readySet (path : Path)
  /-- READY_CLEAR (R121). -/
  | readyClear (path : Path)
  /-- VALIDATE (R114). -/
  | validate (path : Path)
  /-- SYNC_IN_EVENT (R131): a crossing at the ball at `t`. `growth` is what the term of the SYNC_IN interpolator stands above the settled
  values of R172 then, in ps: the spec gives that interpolator no calibration registers (log 97). -/
  | syncInEvent (t : Nat) (rising : Bool) (growth : Nat)
  /-- SYNC_OUT_PULSE (R131). -/
  | syncOutPulse (t : Nat)
  /-- PPS_PULSE (R131). -/
  | ppsPulse (sec : Nat)
  /-- ACTION_ACCEPT (R137). -/
  | actionAccept (r : Nat) (a : Nat)
  /-- SUBMIT (R137). -/
  | submit (path : Path) (q : Nat)
  /-- FLUSH (R146). -/
  | flush (path : Path) (q : Nat)
  /-- QUEUE_SAFE_EXIT (R143). -/
  | queueSafeExit (path : Path)
  /-- QUEUE_ECC (R146). -/
  | queueEcc (q : Nat) (uncorrectable : Bool)
  /-- TICK_ENABLE (R149). -/
  | tickEnable (path : Path) (n : Nat) (v : Nat)
  /-- TICK_DELIVERY (R149). -/
  | tickDelivery (n : Nat)
  /-- PHASE_ENABLE (R150). -/
  | phaseEnable (path : Path) (t : Nat) (v : Nat)
  /-- RESTART (R151). -/
  | restart (path : Path) (t : Nat)
  /-- PHASE_SOURCE_LOST (R151). -/
  | phaseSourceLost (t : Nat)
  /-- PHASE_CONVERT (R152). -/
  | phaseConvert (t : Nat)
  /-- INPUT_CROSSING (R160). -/
  | inputCrossing (i : Nat) (x : Crossing)
  /-- INPUT_RESOLVED (R161). -/
  | inputResolved (i : Nat) (high : Bool)
  /-- STAMP_READY (R166). -/
  | stampReady (i : Nat) (c : Conversion)
  /-- FIFO_HANDOUT (R164). -/
  | fifoHandout (i : Nat)
  /-- INJECTED_EVENT (R168). -/
  | injectedEvent (i : Nat) (core : Nat) (pulse : Bool) (code : Nat)
  /-- INPUT_TABLE_DONE (R169). -/
  | inputTableDone (i : Nat) (core : Nat) (r : TableResult)
  /-- CAL_STALE (R170). -/
  | calStale (i : Nat) (core : Nat)
  /-- RECAL (R170). -/
  | recal (path : Path) (i : Nat)
  /-- INPUT_TABLE_ECC (R170). -/
  | inputTableEcc (i : Nat) (core : Nat) (uncorrectable : Bool)
  /-- SESSION_ENABLE (R178). -/
  | sessionEnable (path : Path) (k : Nat) (v : Nat)
  /-- GATE_ENABLE (R188). -/
  | gateEnable (path : Path) (g : Nat) (v : Nat)
  /-- ARM (R179). -/
  | arm (path : Path) (k : Nat)
  /-- SESSION_ABORT (R182): the session, or the gate 16 to 23. -/
  | sessionAbort (path : Path) (k : Nat)
  /-- GATE_START (R188). -/
  | gateStart (path : Path) (g : Nat)
  /-- INTAKE_DRAIN (R184). -/
  | intakeDrain (i : Nat)
  /-- SESSION_TIMEOUT (R182). -/
  | sessionTimeout (k : Nat)
  /-- GATE_END (R188). -/
  | gateEnd (g : Nat)
  /-- TDC_ENGINE_ECC (R184). -/
  | tdcEngineEcc (sessions : Nat) (gates : Nat)
  /-- STREAM_PERIODIC_BASE (R195). -/
  | streamPeriodicBase (k : Nat)
  /-- STREAM_BATCH_WRITE (R197). -/
  | streamBatchWrite (k : Nat)
  /-- STREAM_RESUME (R196). -/
  | streamResume (k : Nat)
  /-- APLL_LOCK_WINDOW (R202). -/
  | apllLockWindow (a : Bool) (count : Nat)
  /-- XO_UPDATE (R206). -/
  | xoUpdate (m : XoMeasure)
  /-- AGEING_FIT (R207). -/
  | ageingFit (f : AgeFit)
  /-- REF_ENABLE (R208). -/
  | refEnable (path : Path) (k : Nat) (v : Nat)
  /-- REF_OBSERVATION (R211). -/
  | refObservation (k : Nat)
  /-- REF_PRESENCE_FAIL (R211). -/
  | refPresenceFail (k : Nat)
  /-- PUSH (R210). -/
  | push (path : Path) (k : Nat)
  /-- ACCEPT_SLEW (R213). -/
  | acceptSlew (path : Path) (k : Nat)
  /-- ACCEPT_STEP (R213). -/
  | acceptStep (path : Path) (k : Nat)
  /-- REJECT (R213). -/
  | reject (path : Path) (k : Nat)
  /-- CLEAR_SUSPECT (R211). -/
  | clearSuspect (path : Path) (k : Nat)
  /-- REQUALIFY (R231). -/
  | requalify (path : Path) (k : Nat)
  /-- SERVO_MODE_WRITE (R214). -/
  | servoModeWrite (path : Path) (v : Nat)
  /-- STEP (R218). -/
  | step (path : Path)
  /-- STEP_PROPOSED (R216). -/
  | stepProposed (path : Path)
  /-- SLEW_PROPOSED (R216). -/
  | slewProposed (path : Path)
  /-- APLL_A_ENABLE (R222). -/
  | apllAEnable (path : Path) (v : Nat)
  /-- FREQ_CMD_SET (R223). -/
  | freqCmdSet (path : Path)
  /-- RUN_PROFILE (R225). -/
  | runProfile (path : Path)
  /-- ABORT_RAMP (R223). -/
  | abortRamp (path : Path)
  /-- RELOCK (R224). -/
  | relock (path : Path)
  /-- AUX_ENABLE (R228). -/
  | auxEnable (path : Path) (n : Nat) (v : Nat)
  /-- AUX_PERIOD_END (R228). -/
  | auxPeriodEnd (n : Nat)
  /-- AUX_SAFE_EXIT (R228). -/
  | auxSafeExit (path : Path) (n : Nat)
  /-- SWITCH (R247). -/
  | switch (path : Path)
  /-- PATH_ACCEPT (R249). -/
  | pathAccept (path : Path)
  /-- PATH_CLEAR (R249). -/
  | pathClear (path : Path)
  /-- RIDGE_SLOT_TX (R256). -/
  | ridgeSlotTx (p : Nat)
  /-- RIDGE_BLOCK_LOCK (R257). -/
  | ridgeBlockLock (p : Nat)
  /-- TIME_CELL_RX (R263). -/
  | timeCellRx (p : Nat) (c : TimeCell)
  /-- TRIG_CELL_RX (R265). -/
  | trigCellRx (p : Nat) (c : TrigCell)
  /-- MGMT_REQUEST_RX (R266). -/
  | mgmtRequestRx (p : Nat) (c : MgmtCell)
  /-- MGMT_RESPONSE_RX (R266). -/
  | mgmtResponseRx (p : Nat) (c : MgmtCell)
  /-- FILL_CELL_RX (R255). -/
  | fillCellRx (p : Nat)
  /-- RIDGE_LINK_LOST (R257). -/
  | ridgeLinkLost (p : Nat)
  /-- RIDGE_OBS_INTERVAL (R263). -/
  | ridgeObsInterval (p : Nat)
  /-- ISSUE (R265). -/
  | issue (path : Path) (p : Nat)
  /-- MGMT_READ32 (R266). -/
  | mgmtRead32 (path : Path) (p : Nat)
  /-- MGMT_WRITE32 (R266). -/
  | mgmtWrite32 (path : Path) (p : Nat)
  /-- MGMT_READ128 (R266). -/
  | mgmtRead128 (path : Path) (p : Nat)
  /-- MGMT_WRITE128 (R266). -/
  | mgmtWrite128 (path : Path) (p : Nat)
  /-- ETH_DOORBELL (R270). -/
  | ethDoorbell (path : Path) (p : Nat) (rx : Bool) (v : Nat)
  /-- ETH_FRAME_TX (R270). -/
  | ethFrameTx (p : Nat) (f : TxFrame)
  /-- ETH_FRAME_RX (R270). -/
  | ethFrameRx (p : Nat) (f : RxFrame)
  /-- ETH_TX_STAMP (R272). -/
  | ethTxStamp (p : Nat) (t : Nat)
  /-- ETH_LINK_CHANGE (R273). -/
  | ethLinkChange (p : Nat) (up : Bool)
  /-- EAVE_SWITCHOVER (R275). -/
  | eaveSwitchover (toVbat : Bool)
  /-- CAL_CMD_SET (R280). -/
  | calCmdSet (path : Path)
  /-- SYNC_NOW (R281). -/
  | syncNow (path : Path)
  /-- INVALIDATE (R280). -/
  | invalidate (path : Path)
  /-- TRIM_RENEW (R281). -/
  | trimRenew (trim : Nat)
  /-- MONITOR_TICK (R283). -/
  | monitorTick (samples : List SourceLevels)
  /-- PWR_ON (R288). -/
  | pwrOn (path : Path)
  /-- PWR_OFF (R288). -/
  | pwrOff (path : Path)
  /-- ALERT_SET (R290). -/
  | alertSet (path : Path)
  /-- ALERT_CLR (R290). -/
  | alertClr (path : Path)
  /-- WAKE_EDGE (R289). -/
  | wakeEdge (rising : Bool)
  /-- LOG_CLEAR (R291). -/
  | logClear (path : Path)
  /-- LINE_FAULT (R296). -/
  | lineFault (p : PairReading)
  /-- ERR_INJECT (R304). -/
  | errInject (path : Path) (page : Nat) (v : Nat)
  /-- INJECT (R304). -/
  | inject (path : Path) (k : Nat) (line : Bool)
  /-- CLEAR_PAIR (R307). -/
  | clearPair (path : Path)
  /-- ENTER_SAFE (R301). -/
  | enterSafe (path : Path)
  /-- REINIT (R305). -/
  | reinit (path : Path)
  /-- DEVICE_SAFE_EXIT (R301). -/
  | deviceSafeExit (path : Path)
  /-- FIRST_FAULT_CLEAR (R302). -/
  | firstFaultClear (path : Path)
  /-- GUTTER_STORAGE_ECC (R305). -/
  | gutterStorageEcc (uncorrectable : Bool)
  /-- SUPPLIES_GOOD (R311). -/
  | suppliesGood (straps : Straps)
  /-- SUPPLY_BELOW_THRESHOLD (R311). -/
  | supplyBelowThreshold (rail : Nat)
  /-- SUPPLY_OUT_OF_RANGE (R311). -/
  | supplyOutOfRange (rail : Nat)
  /-- DEVICE_RESET (R324). -/
  | deviceReset (path : Path)
  /-- STAGE1_ENTRY (R316). -/
  | stage1Entry (b : BootData)
  /-- BEGIN (R330). -/
  | begin (path : Path)
  /-- WRITE_WINDOW (R330). -/
  | writeWindow (path : Path)
  /-- DMA_WRITE (R330). -/
  | dmaWrite (path : Path) (bytes : List Nat)
  /-- FINISH (R330). -/
  | finish (path : Path) (v : VerifyResult)
  /-- ACTIVATE (R331). -/
  | activate (path : Path)
  /-- ACTIVATE_AT_RESET (R332). -/
  | activateAtReset (path : Path)
  /-- CONFIRM (R341). -/
  | confirm (path : Path)
  /-- REVERT (R342). -/
  | revert (path : Path)
  /-- FL_ABORT (R330). -/
  | flAbort (path : Path)
  /-- LOAD_MANIFEST (R333). -/
  | loadManifest (path : Path)
  /-- CLEAR_MANIFEST (R333). -/
  | clearManifest (path : Path)
  /-- READ_LOG (R346). -/
  | readLog (path : Path)
  /-- INSTALL_KEY (R349). -/
  | installKey (path : Path)
  /-- OWNER_ENROLL (R348). -/
  | ownerEnroll (path : Path)
  /-- COPY_BLOCK_DONE (R337). -/
  | copyBlockDone (ok : Bool)
  /-- COPY_DONE (R337). -/
  | copyDone (ok : Bool)
  /-- MICROCODE_BANK_SWAP (R338). -/
  | microcodeBankSwap (u : BankUnit)
  /-- CELL_DROP (R255). -/
  | cellDrop (p : Nat) (crc : Bool)
  /-- CONFIGURATION_REQUEST (R316). -/
  | configurationRequest (tag : ConfigReq)
  /-- BOUNDARY_SCAN (R364). -/
  | boundaryScan (ir : Nat)
  /-- PERST_N_ASSERT (R31). -/
  | perstNAssert
  /-- D3HOT_ENTRY (R31). -/
  | d3hotEntry
  /-- Y_TAKES_EFFECT (R10). -/
  | yTakesEffect
  /-- TIMESCALE_STEP (R11). -/
  | timescaleStep
  /-- LEAP_APPLY (R19). -/
  | leapApply
  /-- SNAPSHOT_TIMEOUT (R56). -/
  | snapshotTimeout
  /-- BUS_ECC (R102). -/
  | busEcc
  /-- ACTION_DISPATCH (R140). -/
  | actionDispatch
  /-- ACTION_NOP (R139). -/
  | actionNop
  /-- CHAN_HI (R139). -/
  | chanHi
  /-- CHAN_LO (R139). -/
  | chanLo
  /-- CHAN_TOGGLE (R139). -/
  | chanToggle
  /-- CHAN_PULSE (R139). -/
  | chanPulse
  /-- FIRE_LINE (R139). -/
  | fireLine
  /-- SEQ_START (R139). -/
  | seqStart
  /-- SEQ_JUMP (R139). -/
  | seqJump
  /-- SEQ_STOP_AT_END (R139). -/
  | seqStopAtEnd
  /-- SEQ_STOP_NOW (R139). -/
  | seqStopNow
  /-- MEAS_ARM (R179). -/
  | measArm
  /-- REG_WRITE32 (R139). -/
  | regWrite32
  /-- NOTIFY (R139). -/
  | notify
  /-- TIMESCALE_SEED (R282). -/
  | timescaleSeed
  /-- OVEN_STABLE (R205). -/
  | ovenStable
  /-- OVEN_FAULT (R205). -/
  | ovenFault
  /-- XTAL_FAULT (R205). -/
  | xtalFault
  /-- SLEW_END (R217). -/
  | slewEnd
  /-- RAMP_END (R223). -/
  | rampEnd
  /-- PROFILE_DONE (R225). -/
  | profileDone
  /-- SSC_CHANGE (R226). -/
  | sscChange
  /-- THRESH_CROSSING (R242). -/
  | threshCrossing
  /-- TEB_REPORT (R243). -/
  | tebReport
  /-- TRACE_EXPIRY (R250). -/
  | traceExpiry
  /-- MGMT_TIMEOUT (R266). -/
  | mgmtTimeout
  /-- EAVE_POR (R276). -/
  | eavePor
  /-- XT32_FAULT (R278). -/
  | xt32Fault
  /-- EAVE_LEAP (R279). -/
  | eaveLeap
  /-- CALENDAR_SYNC (R281). -/
  | calendarSync
  /-- TEST (R286). -/
  | test
  /-- AND (R286). -/
  | and
  /-- OR (R286). -/
  | or
  /-- SETF (R286). -/
  | setf
  /-- JMP (R286). -/
  | jmp
  /-- CNT (R286). -/
  | cnt
  /-- CMP (R286). -/
  | cmp
  /-- OUT_PWR_ON (R288). -/
  | outPwrOn
  /-- OUT_PWR_OFF (R288). -/
  | outPwrOff
  /-- OUT_ALERT_SET (R290). -/
  | outAlertSet
  /-- OUT_ALERT_CLR (R290). -/
  | outAlertClr
  /-- LOG (R286). -/
  | log
  /-- CLRL (R286). -/
  | clrl
  /-- PROG_END (R286). -/
  | progEnd
  /-- PROGRAM_MEMORY_ECC (R285). -/
  | programMemoryEcc
  /-- PWR_DOWN_DELAY_EXPIRY (R288). -/
  | pwrDownDelayExpiry
  /-- ALARM (R289). -/
  | alarm
  /-- FAULT_COLLECT (R299). -/
  | faultCollect
  /-- INJECTION_HOLD_END (R304). -/
  | injectionHoldEnd
  /-- PAIR_SENSE_FAULT (R306). -/
  | pairSenseFault
  /-- RESET_N_LOW (R312). -/
  | resetNLow
  /-- DIE_HOT (R297). -/
  | dieHot
  /-- DIE_CRITICAL (R297). -/
  | dieCritical
  /-- SCLK_MONITOR (R297). -/
  | sclkMonitor
  /-- MGMT_WATCHDOG_MISS (R297). -/
  | mgmtWatchdogMiss
  /-- STAGE2_ENTRY (R316). -/
  | stage2Entry
  /-- STAGE3_ENTRY (R316). -/
  | stage3Entry
  /-- PCIE_LINK_TRAINING (R316). -/
  | pcieLinkTraining
  /-- FLASH_DMA_ERROR (R330). -/
  | flashDmaError
  /-- MGMT_RESTART_DONE (R334). -/
  | mgmtRestartDone
  /-- RESTART_TIMEOUT (R334). -/
  | restartTimeout
  /-- TRIAL_HEALTHY (R339). -/
  | trialHealthy
  /-- TRIAL_WINDOW_EXPIRY (R340). -/
  | trialWindowExpiry
  /-- SRAM_UNCORR (R297). -/
  | sramUncorr
deriving DecidableEq, Repr

end Sys2Proof
end

