-- ==== Sys2Proof/WellFormed.lean ====
section
/-! DEFINITION. Which operands a row of the table can carry: indices inside the ranges of R1, R36 and R42, words of 32
bits, aligned page offsets (R30), and records whose fields fit the widths the spec gives them. -/

namespace Sys2Proof

/-- A path by which a command can come exists: 16 windows on each bus, 32 rings (R17, R33, R50). The scheduler's own
writes are no commands from outside. -/
def Path.wf : Path → Bool
  | .bar0 w => decide (w < 16)
  | .spi w => decide (w < 16)
  | .i2c => true
  | .ring r => decide (r < 32)
  | .remote => true
  | .kalwin => true
  | .queue _ => false

/-- Whether a list of integers rises strictly. -/
def risingInts : List Int → Bool
  | a :: b :: l => decide (a < b) && risingInts (b :: l)
  | _ => true

/-- A visit measures an engine path or a lane pad, at most 4 096 edges with vernier codes of R66, or is a slice of a sweep (R68, R70,
R79). -/
def CalVisit.wf (v : CalVisit) : Bool :=
  (decide (v.target < 5) || (decide (8 ≤ v.target) && decide (v.target < 12)) || v.target == 15) && decide (v.edges.length ≤ 4096) && v.edges.all (fun e => decide (e.code < 320))

/-- A sweep measures raw codes of 12 bits in each of 16 phases (R66, R70); a line's delay rises with its code (log 100). -/
def SweepResult.wf (r : SweepResult) : Bool :=
  r.delays.length == 16 && r.delays.all (fun l => decide (l.length ≤ 4096) && risingInts l)

/-- Every comparison is a comparison. -/
def SwapCheck.wf (m : SwapCheck) : Bool := decide (m.pairs < 2 ^ 16)

/-- A source of R101 exists. -/
def LineSource.wf : LineSource → Bool
  | .timingInput i _ => decide (i < 16)
  | .ridge n => decide (n < 256)
  | .scheduler q l => decide (q < 16) && decide (l < 64)
  | .tick n => decide (n < 8)
  | .marker q => decide (q < 4)
  | .tracker t => decide (t < 4)
  | .host n => decide (n < 64)

/-- The event of an existing source, with a bound of R16. -/
def LineEvent.wf (e : LineEvent) : Bool := e.src.wf && decide (e.teb < 2 ^ 32)

/-- A conversion has a bin of 16 and a 10-bit code (R165). -/
def Conversion.wf (c : Conversion) : Bool := decide (c.bin < 16) && decide (c.code < 1024)

/-- A table result has a span inside the codes (R165, R169). -/
def TableResult.wf (r : TableResult) : Bool := decide (r.lo ≤ r.hi) && decide (r.hi < 1024)

/-- A measurement fits its registers (R234). -/
def XoMeasure.wf (m : XoMeasure) : Bool := decide (-(2 ^ 31 : Int) ≤ m.temp) && decide (m.temp < 2 ^ 31) && decide (m.heater < 65536) &&
  decide (-(2 ^ 15 : Int) ≤ m.die) && decide (m.die < 2 ^ 15)

/-- The levels fit their numbers (R284). -/
def SourceLevels.wf (x : SourceLevels) : Bool :=
  decide (x.ain0 < 2 ^ 32) && decide (x.ain1 < 2 ^ 32) && decide (x.vbat < 2 ^ 32) && decide (x.vddHv < 2 ^ 32) && decide (x.vddIo < 2 ^ 32) &&
    decide (-(2 ^ 31 : Int) ≤ x.tj) && decide (x.tj < 2 ^ 31)

/-- The coefficients of a fit fit their registers (R207, R234). -/
def AgeFit.wf (f : AgeFit) : Bool :=
  decide (f.t0 < 2 ^ 64 * 65536000000000) && decide (-(2 ^ 63 : Int) ≤ f.a) && decide (f.a < 2 ^ 63) && decide (f.b < 2 ^ 32) &&
    decide (-(2 ^ 31 : Int) ≤ f.c) && decide (f.c < 2 ^ 31) && decide (f.stdErr < 2 ^ 30)


/-- The fields of a TIME cell have the widths of R261, and its instants are valid. -/
def TimeCell.wf (c : TimeCell) : Bool :=
  decide (c.scope < 4) && decide (c.domain < 256) && decide (c.src < 65536) && decide (c.txSeq < 2 ^ 32) &&
    decide (c.prevDep < 2 ^ 64 * 65536000000000) && decide (c.rxSeq < 2 ^ 32) && decide (c.rxArr < 2 ^ 64 * 65536000000000) &&
    decide (c.prevDepTeb < 2 ^ 32) && decide (c.basis < 16) && decide (c.stepSeq < 256) && decide (c.utcOffset < 65536) &&
    decide (c.leapPending < 4) && decide (c.leapDay < 2 ^ 30) && decide (c.bitPos < 66)

/-- The fields of a TRIG cell have the widths of R265. -/
def TrigCell.wf (c : TrigCell) : Bool :=
  decide (c.scope < 4) && decide (c.hops < 256) && decide (c.domain < 256) && decide (c.src < 65536) && decide (c.dst < 65536) &&
    decide (c.num < 256) && decide (c.seq < 2 ^ 32) && decide (c.execAt < 2 ^ 64 * 65536000000000)

/-- The fields of a MGMT cell have the widths of R266. -/
def MgmtCell.wf (c : MgmtCell) : Bool :=
  decide (c.scope < 4) && decide (c.hops < 256) && decide (c.domain < 256) && decide (c.src < 65536) && decide (c.dst < 65536) &&
    decide (c.counter < 2 ^ 64) && decide (c.op < 256) && decide (c.keyId < 256) && decide (c.result < 16) && decide (c.page < 4096) &&
    decide (c.offset < 4096) && decide (c.data < 2 ^ 128) && decide (c.tag < 2 ^ 96)

/-- A unit with microcode banks is one of R338. -/
def BankUnit.wf (u : BankUnit) : Bool :=
  match u with
  | .eave => true
  | .ridge p => decide (p < 6)
  | .eth p => decide (p < 2)

/-- A frame to send: its element's fields have the widths of R270, and the frame is as long as the element says. -/
def TxFrame.wf (f : TxFrame) : Bool :=
  decide (f.addr < 2 ^ 64) && decide (f.length < 2 ^ 14) && f.bytes.length == f.length && f.bytes.all (fun b => decide (b < 256))

/-- A frame that arrives has at most the bytes of R268. -/
def RxFrame.wf (f : RxFrame) : Bool :=
  decide (f.addr < 2 ^ 64) && decide (60 ≤ f.bytes.length) && decide (f.bytes.length ≤ 9216) && f.bytes.all (fun b => decide (b < 256))

/-- Straps have no other reading. -/
def Straps.wf (_ : Straps) : Bool := true

/-- An image header lies in the ranges of R327. -/
def ImageHdr.wf (h : ImageHdr) : Bool :=
  decide (1 ≤ h.component) && decide (h.component ≤ 7) && decide (h.keyIndex < 4) && decide (h.secVer ≤ 64) && decide (h.version < 2 ^ 32) &&
    decide (h.schema < 65536) && decide (h.payload < 2 ^ 32) && decide (h.provides.length ≤ 32) && decide (h.requires.length ≤ 32) &&
    decide (h.hash < 2 ^ 384) && decide (h.owner < 2 ^ 384)

/-- A term fits its register of 32 bits (R79, R83, R176). -/
def FormTerm.wf (t : FormTerm) : Bool :=
  decide (-(2 ^ 31 : Int) ≤ t.rise) && decide (t.rise < 2 ^ 31) && decide (-(2 ^ 31 : Int) ≤ t.fall) && decide (t.fall < 2 ^ 31) &&
    (match t.key with
     | .lane c f => decide (c < 48) && decide (f < 4)
     | .loop c f => decide (c < 48) && decide (f < 4)
     | .input i m t => decide (i < 16) && decide (m < 2) && decide (t < 3))

/-- Words that a boot or an image puts into registers. -/
def termsWf (l : List (Nat × Nat × Nat)) : Bool := l.all (fun t => decide (t.1 < 256) && decide (t.2.1 < 4096) && decide (t.2.2 < 2 ^ 32))

/-- A boot names components 1 to 5 and slots 0 and 1 (R326). -/
def BootData.wf (b : BootData) : Bool :=
  b.fallen.all (fun c => decide (1 ≤ c) && decide (c ≤ 5)) &&
    b.made.all (fun m => decide (1 ≤ m.1) && decide (m.1 ≤ 5) && decide (m.2.1 < 2) && m.2.2.wf) && termsWf b.terms && b.forms.all FormTerm.wf

/-- A verification yields words of 32 bits. -/
def VerifyResult.wf (v : VerifyResult) : Bool := decide (v.revoke < 16) && decide (v.owner < 2 ^ 384) && v.words.all (fun w => decide (w < 2 ^ 32)) && termsWf v.terms && v.forms.all FormTerm.wf

/-- A commit context exists: one on every page, and one for each lane on a QUAD page (R24). -/
def laneOk (page lane : Nat) : Bool := decide (lane < 4) && (lane == 0 || (decide (16 ≤ page) && decide (page < 28)))

/-- Whether the operands of a command lie in the ranges the spec gives its row. -/
def Instr.wf : Instr → Bool
  | .registerWrite path page off v => path.wf && decide (page < 256) && decide (off < 4096) && decide (off % 4 = 0) && decide (v < 2 ^ 32)
  | .stagedWordWrite path page off v => path.wf && decide (page < 256) && decide (off < 4096) && decide (off % 4 = 0) && decide (v < 2 ^ 32)
  | .latchingRead path page off => path.wf && decide (page < 256) && decide (off < 4096) && decide (off % 4 = 0)
  | .badAccess addr size _ => decide (addr < 2 ^ 24) && decide (size < 4097)
  | .bar2Write off bytes => decide (off < 2 ^ 26) && decide (1 ≤ bytes.length) && decide (bytes.length ≤ 512) && decide (off + bytes.length ≤ 2 ^ 26) && bytes.all (fun b => decide (b < 256))
  | .spiTransaction cmd addr data nread => decide (cmd < 256) && decide (addr < 2 ^ 32) && decide (nread < 2 ^ 24) && data.all (fun w => decide (w < 2 ^ 32))
  | .i2cTransaction off data nread => decide (off < 4096) && decide (nread < 4096) && data.all (fun b => decide (b < 256))
  | .go path page lane v => path.wf && decide (page < 256) && laneOk page lane && decide (v < 2 ^ 32)
  | .commitAbort path page lane v => path.wf && decide (page < 256) && laneOk page lane && decide (v < 2 ^ 32)
  | .commitModeChange path page lane v => path.wf && decide (page < 256) && laneOk page lane && decide (v < 2 ^ 32)
  | .shadowCommit page lane => decide (page < 256) && laneOk page lane
  | .cgArm path v => path.wf && decide (v < 2 ^ 32)
  | .cgDisarm path v => path.wf && decide (v < 2 ^ 32)
  | .cgFire g => decide (g < 16)
  | .windowBind path off v => path.wf && decide (off < 4096) && decide (off % 4 = 0) && decide (v < 2 ^ 32) && decide (0x40 ≤ off) && decide (off ≤ 0x84)
  | .ownerWrite path page v => path.wf && decide (page < 256) && decide (v < 2 ^ 32)
  | .claim path res => path.wf && decide (res < 256)
  | .release path res => path.wf && decide (res < 256)
  | .query path res agent => path.wf && decide (res < 256) && decide (agent < 65536)
  | .forceRelease path res agent => path.wf && decide (res < 256) && decide (agent < 65536)
  | .leasePeriodWrite path w v => path.wf && decide (w < 16) && decide (v < 2 ^ 32)
  | .kick path w v => path.wf && decide (w < 16) && decide (v < 2 ^ 32)
  | .leaseExpiry w => decide (w < 16)
  | .ringEnable path r v => path.wf && decide (r < 32) && decide (v < 2 ^ 32)
  | .ringDisable path r v => path.wf && decide (r < 32) && decide (v < 2 ^ 32)
  | .ringCfgWrite path r v => path.wf && decide (r < 32) && decide (v < 2 ^ 32)
  | .doorbell path r v => path.wf && decide (r < 32) && decide (v < 2 ^ 32)
  | .ringDmaError r => decide (r < 36)
  | .commandWrite32 r tag page off v => decide (r < 32) && decide (tag < 65536) && decide (page < 4096) && decide (off < 4096) && decide (v < 2 ^ 32)
  | .commandRead32 r tag page off => decide (r < 32) && decide (tag < 65536) && decide (page < 4096) && decide (off < 4096)
  | .commandWrite128 r tag page off v => decide (r < 32) && decide (tag < 65536) && decide (page < 4096) && decide (off < 4096) && decide (v < 2 ^ 128)
  | .commandRead128 r tag page off => decide (r < 32) && decide (tag < 65536) && decide (page < 4096) && decide (off < 4096)
  | .fence r tag => decide (r < 32) && decide (tag < 65536)
  | .leaseKick r tag => decide (r < 32) && decide (tag < 65536)
  | .commandNop r tag => decide (r < 32) && decide (tag < 65536)
  | .modTimeExpiry r => decide (r < 32)
  | .freeze path => path.wf
  | .snapshotRelease path => path.wf
  | .edgeIssue c => decide (c < 48)
  | .edgeLaunch c => decide (c < 48)
  | .calVisitEnd q v => decide (q < 12) && v.wf
  | .sweepStart q e => decide (q < 12) && decide (e < 5)
  | .sweepDone q r => decide (q < 12) && r.wf
  | .tableSetExchange q e => decide (q < 12) && decide (e < 5)
  | .swapArm q lane reason => decide (q < 12) && decide (lane < 4) && decide (reason < 4)
  | .swapVerify q m => decide (q < 12) && m.wf
  | .swapSwitch q => decide (q < 12)
  | .swapDone q => decide (q < 12)
  | .failedLaneRemap q => decide (q < 12)
  | .swapLane path q lane => path.wf && decide (q < 12) && decide (lane < 4)
  | .resweepSpare path q => path.wf && decide (q < 12)
  | .retest path q e => path.wf && decide (q < 12) && decide (e < 5)
  | .retestDone q r => decide (q < 12) && r.wf
  | .tdcFault q => decide (q < 12)
  | .engineTableEcc q e _ => decide (q < 12) && decide (e < 5)
  | .driverFault page bit => decide (page < 256) && decide (bit < 2)
  | .loopEnable path v => path.wf && decide (v < 2 ^ 32)
  | .channelFlush path c => path.wf && decide (c < 48)
  | .channelSafeExit path c => path.wf && decide (c < 48)
  | .triggerLineEvent e => e.wf
  | .tlSrcWrite path n v => path.wf && decide (n < 64) && decide (v < 2 ^ 32)
  | .tlShapeWrite path n v => path.wf && decide (n < 64) && decide (v < 2 ^ 32)
  | .fireNow path n => path.wf && decide (n < 64)
  | .fireAt path n => path.wf && decide (n < 64)
  | .start path q => path.wf && decide (q < 4)
  | .stopAtEnd path q => path.wf && decide (q < 4)
  | .stopNow path q => path.wf && decide (q < 4)
  | .jump path q => path.wf && decide (q < 4)
  | .clearRequest path q => path.wf && decide (q < 4)
  | .disarm path q => path.wf && decide (q < 4)
  | .seqDecision q => decide (q < 4)
  | .seqOccurrenceStart q => decide (q < 4)
  | .seqCut q => decide (q < 4)
  | .seqParkResume q => decide (q < 4)
  | .seqStop q => decide (q < 4)
  | .edgeHi q => decide (q < 4)
  | .edgeLo q => decide (q < 4)
  | .toggle q => decide (q < 4)
  | .mark q => decide (q < 4)
  | .recordNop q => decide (q < 4)
  | .recordEnd q => decide (q < 4)
  | .bankEcc q granule _ => decide (q < 12) && decide (granule < 2 ^ 17)
  | .courseTableEcc c _ => decide (c < 4096)
  | .refillSubmit path q => path.wf && decide (q < 4)
  | .refillFlush path q => path.wf && decide (q < 4)
  | .refillDone q bytes => decide (q < 4) && bytes.all (fun b => decide (b < 256))
  | .refillDmaError q => decide (q < 4)
  | .readySet path => path.wf
  | .readyClear path => path.wf
  | .validate path => path.wf
  | .syncInEvent _ _ _ => true
  | .syncOutPulse _ => true
  | .ppsPulse sec => decide (sec < 2 ^ 64)
  | .actionAccept r a => decide (r < 32) && decide (a < 2 ^ 256)
  | .submit path q => path.wf && decide (q < 16)
  | .flush path q => path.wf && decide (q < 16)
  | .queueSafeExit path => path.wf
  | .queueEcc q _ => decide (q < 16)
  | .tickEnable path n v => path.wf && decide (n < 8) && decide (v < 2 ^ 32)
  | .tickDelivery n => decide (n < 8)
  | .phaseEnable path t v => path.wf && decide (t < 4) && decide (v < 2 ^ 32)
  | .restart path t => path.wf && decide (t < 4)
  | .phaseSourceLost t => decide (t < 4)
  | .phaseConvert t => decide (t < 4)
  | .inputCrossing i _ => decide (i < 16)
  | .inputResolved i _ => decide (i < 16)
  | .stampReady i c => decide (i < 16) && c.wf
  | .fifoHandout i => decide (i < 16)
  | .injectedEvent i core _ code => decide (i < 16) && decide (core < 2) && decide (code < 1024)
  | .inputTableDone i core r => decide (i < 25) && decide (core < 2) && r.wf
  | .calStale i core => decide (i < 16) && decide (core < 2)
  | .recal path i => path.wf && decide (i < 16)
  | .inputTableEcc i core _ => decide (i < 16) && decide (core < 2)
  | .sessionEnable path k v => path.wf && decide (k < 16) && decide (v < 2 ^ 32)
  | .gateEnable path g v => path.wf && decide (g < 8) && decide (v < 2 ^ 32)
  | .arm path k => path.wf && decide (k < 16)
  | .sessionAbort path k => path.wf && decide (k < 24)
  | .gateStart path g => path.wf && decide (g < 8)
  | .intakeDrain i => decide (i < 16)
  | .sessionTimeout k => decide (k < 16)
  | .gateEnd g => decide (g < 8)
  | .tdcEngineEcc sessions gates => decide (sessions < 65536) && decide (gates < 256)
  | .streamPeriodicBase k => decide (k < 4)
  | .streamBatchWrite k => decide (k < 4)
  | .streamResume k => decide (k < 4)
  | .apllLockWindow _ count => decide (count < 2 ^ 32)
  | .xoUpdate m => m.wf
  | .ageingFit f => f.wf
  | .refEnable path k v => path.wf && decide (k < 8) && decide (v < 2 ^ 32)
  | .refObservation k => decide (k < 8)
  | .refPresenceFail k => decide (k < 8)
  | .push path k => path.wf && decide (k < 8)
  | .acceptSlew path k => path.wf && decide (k < 8)
  | .acceptStep path k => path.wf && decide (k < 8)
  | .reject path k => path.wf && decide (k < 8)
  | .clearSuspect path k => path.wf && decide (k < 8)
  | .requalify path k => path.wf && decide (k < 8)
  | .servoModeWrite path v => path.wf && decide (v < 2 ^ 32)
  | .step path => path.wf
  | .stepProposed path => path.wf
  | .slewProposed path => path.wf
  | .apllAEnable path v => path.wf && decide (v < 2 ^ 32)
  | .freqCmdSet path => path.wf
  | .runProfile path => path.wf
  | .abortRamp path => path.wf
  | .relock path => path.wf
  | .auxEnable path n v => path.wf && decide (n < 8) && decide (v < 2 ^ 32)
  | .auxPeriodEnd n => decide (n < 8)
  | .auxSafeExit path n => path.wf && decide (n < 8)
  | .switch path => path.wf
  | .pathAccept path => path.wf
  | .pathClear path => path.wf
  | .ridgeSlotTx p => decide (p < 6)
  | .ridgeBlockLock p => decide (p < 6)
  | .timeCellRx p c => decide (p < 6) && c.wf
  | .trigCellRx p c => decide (p < 6) && c.wf
  | .mgmtRequestRx p c => decide (p < 6) && c.wf
  | .mgmtResponseRx p c => decide (p < 6) && c.wf
  | .fillCellRx p => decide (p < 6)
  | .ridgeLinkLost p => decide (p < 6)
  | .ridgeObsInterval p => decide (p < 6)
  | .issue path p => path.wf && decide (p < 6)
  | .mgmtRead32 path p => path.wf && decide (p < 6)
  | .mgmtWrite32 path p => path.wf && decide (p < 6)
  | .mgmtRead128 path p => path.wf && decide (p < 6)
  | .mgmtWrite128 path p => path.wf && decide (p < 6)
  | .ethDoorbell path p _ v => path.wf && decide (p < 2) && decide (v < 2 ^ 32)
  | .ethFrameTx p f => decide (p < 2) && f.wf
  | .ethFrameRx p f => decide (p < 2) && f.wf
  | .ethTxStamp p _ => decide (p < 2)
  | .ethLinkChange p _ => decide (p < 2)
  | .eaveSwitchover _ => true
  | .calCmdSet path => path.wf
  | .syncNow path => path.wf
  | .invalidate path => path.wf
  | .trimRenew trim => decide (trim < 512)
  | .monitorTick samples => samples.length == 9 && samples.all SourceLevels.wf
  | .pwrOn path => path.wf
  | .pwrOff path => path.wf
  | .alertSet path => path.wf
  | .alertClr path => path.wf
  | .wakeEdge _ => true
  | .logClear path => path.wf
  | .lineFault p => decide (p.source < 128)
  | .errInject path page v => path.wf && decide (page < 256) && decide (v < 2 ^ 32)
  | .inject path k _ => path.wf && decide (k < 128)
  | .clearPair path => path.wf
  | .enterSafe path => path.wf
  | .reinit path => path.wf
  | .deviceSafeExit path => path.wf
  | .firstFaultClear path => path.wf
  | .gutterStorageEcc _ => true
  | .suppliesGood straps => straps.wf
  | .supplyBelowThreshold rail => decide (rail < 6)
  | .supplyOutOfRange rail => decide (rail < 6)
  | .deviceReset path => path.wf
  | .stage1Entry b => b.wf
  | .begin path => path.wf
  | .writeWindow path => path.wf
  | .dmaWrite path bytes => path.wf && bytes.all (fun b => decide (b < 256))
  | .finish path v => path.wf && v.wf
  | .activate path => path.wf
  | .activateAtReset path => path.wf
  | .confirm path => path.wf
  | .revert path => path.wf
  | .flAbort path => path.wf
  | .loadManifest path => path.wf
  | .clearManifest path => path.wf
  | .readLog path => path.wf
  | .installKey path => path.wf
  | .ownerEnroll path => path.wf
  | .copyBlockDone _ => true
  | .copyDone _ => true
  | .microcodeBankSwap u => u.wf
  | .cellDrop p _ => decide (p < 6)
  | .configurationRequest tag => decide (tag.tag < 1024) && (match tag.kind with | .vector v _ => decide (v < 64) | _ => true)
  | .boundaryScan ir => decide (ir < 256)
  | .perstNAssert => true
  | .d3hotEntry => true
  | .yTakesEffect => true
  | .timescaleStep => true
  | .leapApply => true
  | .snapshotTimeout => true
  | .busEcc => true
  | .actionDispatch => true
  | .actionNop => true
  | .chanHi => true
  | .chanLo => true
  | .chanToggle => true
  | .chanPulse => true
  | .fireLine => true
  | .seqStart => true
  | .seqJump => true
  | .seqStopAtEnd => true
  | .seqStopNow => true
  | .measArm => true
  | .regWrite32 => true
  | .notify => true
  | .timescaleSeed => true
  | .ovenStable => true
  | .ovenFault => true
  | .xtalFault => true
  | .slewEnd => true
  | .rampEnd => true
  | .profileDone => true
  | .sscChange => true
  | .threshCrossing => true
  | .tebReport => true
  | .traceExpiry => true
  | .mgmtTimeout => true
  | .eavePor => true
  | .xt32Fault => true
  | .eaveLeap => true
  | .calendarSync => true
  | .test => true
  | .and => true
  | .or => true
  | .setf => true
  | .jmp => true
  | .cnt => true
  | .cmp => true
  | .outPwrOn => true
  | .outPwrOff => true
  | .outAlertSet => true
  | .outAlertClr => true
  | .log => true
  | .clrl => true
  | .progEnd => true
  | .programMemoryEcc => true
  | .pwrDownDelayExpiry => true
  | .alarm => true
  | .faultCollect => true
  | .injectionHoldEnd => true
  | .pairSenseFault => true
  | .resetNLow => true
  | .dieHot => true
  | .dieCritical => true
  | .sclkMonitor => true
  | .mgmtWatchdogMiss => true
  | .stage2Entry => true
  | .stage3Entry => true
  | .pcieLinkTraining => true
  | .flashDmaError => true
  | .mgmtRestartDone => true
  | .restartTimeout => true
  | .trialHealthy => true
  | .trialWindowExpiry => true
  | .sramUncorr => true

end Sys2Proof
end

