-- ==== Sys2Proof/Decode.lean ====
section
/-! DEFINITION. The words of commands. The table of this hardware gives no row any bits: its rows are accesses and events,
so no word spells a command. -/

namespace Sys2Proof

/-- The command that `nbits` bits of a word spell by the table: none, as the table gives no row bits. -/
def decodeTableWord (_nbits _w : Nat) : Option Instr := none

end Sys2Proof
end

