-- ==== Sys2Proof/Config.lean ====
section
/-! DEFINITION. The free values of the model: constants without a body, one for each kind of value the spec leaves
open. No proof can see what they are. -/

namespace Sys2Proof

/-- The bits of a value that the spec leaves open: the number in State counts the uses (log 5). -/
opaque Config.freeNat : Nat → Nat

/-- The vendor ID of the PCIe endpoint, which the spec names and does not give (R29, log 104). -/
opaque Config.vendorId : Nat

end Sys2Proof
end

