-- ==== Sys2Proof/Machine/Bits.lean ====
section
/-! DEFINITION. Bit fields, two's complement and the roundings of R21, on natural numbers and integers. -/

namespace Sys2Proof.Machine

/-- Bits `hi` down to `lo` of a number. -/
def bitsOf (n hi lo : Nat) : Nat := (n / 2 ^ lo) % 2 ^ (hi + 1 - lo)

/-- A number with its bits `hi` down to `lo` replaced by the low bits of `v`. -/
def putBits (n hi lo v : Nat) : Nat :=
  n % 2 ^ lo + 2 ^ lo * (v % 2 ^ (hi + 1 - lo)) + 2 ^ (hi + 1) * (n / 2 ^ (hi + 1))

/-- One bit of a number. -/
def bitOf (n k : Nat) : Bool := n / 2 ^ k % 2 == 1

/-- A Bool as the bit it stands for. -/
def b2n (b : Bool) : Nat := if b then 1 else 0

/-- A number whose bit `k` is set. -/
def setBit (n k : Nat) : Nat := if bitOf n k then n else n + 2 ^ k

/-- A number whose bit `k` is clear. -/
def clrBit (n k : Nat) : Nat := if bitOf n k then n - 2 ^ k else n

/-- The bits of `n` below position `w` that are set. -/
def bitList (w n : Nat) : List Nat := (List.range w).filter (fun k => bitOf n k)

/-- Bitwise and, below bit `w`. -/
def andN (a b : Nat) : Nat := Nat.land a b

/-- The bits of `a` that `b` does not have (the effect of a write of `b` to RW1C bits holding `a`, R38). -/
def clearBits (a b : Nat) : Nat := a - Nat.land a b

/-- The two's complement reading of a `w`-bit number. -/
def toSigned (w n : Nat) : Int := if n % 2 ^ w < 2 ^ (w - 1) then ((n % 2 ^ w : Nat) : Int) else ((n % 2 ^ w : Nat) : Int) - 2 ^ w

/-- The `w`-bit two's complement encoding of an integer. -/
def ofSigned (w : Nat) (i : Int) : Nat := (i % (2 ^ w : Int)).toNat

/-- `num / den` to the nearest integer, ties to even (R21); `den` positive. -/
def roundEven (num : Int) (den : Nat) : Int :=
  let q := num / (den : Int)
  let r := num % (den : Int)
  if 2 * r < den then q
  else if 2 * r > den then q + 1
  else if q % 2 = 0 then q else q + 1

/-- `n / d` rounded up, for error-bound terms (R16). -/
def ceilDiv (n d : Nat) : Nat := (n + d - 1) / d

/-- Addition that saturates at `2^w - 1`. -/
def satAdd (w a b : Nat) : Nat := min (a + b) (2 ^ w - 1)

/-- Addition that wraps at `2^w`. -/
def wrapAdd (w a b : Nat) : Nat := (a + b) % 2 ^ w

/-- The largest natural number whose square is at most `n` (by bisection on `fuel` bits). -/
def isqrtGo : Nat → Nat → Nat → Nat
  | 0, _, acc => acc
  | k + 1, n, acc => if (acc + 2 ^ k) * (acc + 2 ^ k) ≤ n then isqrtGo k n (acc + 2 ^ k) else isqrtGo k n acc

/-- Integer square root, rounded down. -/
def isqrt (n : Nat) : Nat := isqrtGo 128 n 0

/-- Integer square root, rounded up. -/
def isqrtUp (n : Nat) : Nat := if isqrt n * isqrt n = n then isqrt n else isqrt n + 1

/-- The little-endian number of a list of bytes or digits below `2^w` (R4). -/
def leNat (w : Nat) : List Nat → Nat
  | [] => 0
  | x :: xs => x % 2 ^ w + 2 ^ w * leNat w xs

/-- The `k` little-endian digits, each `w` bits wide, of a number. -/
def leDigits (w : Nat) : Nat → Nat → List Nat
  | 0, _ => []
  | k + 1, n => n % 2 ^ w :: leDigits w k (n / 2 ^ w)

/-- Replace element `k` of a list. -/
def setNth {α : Type} (l : List α) (k : Nat) (x : α) : List α := l.set k x

/-- CRC-32 of IEEE 802.3 over bytes, the least significant bit of each first. -/
def fcsBits : Nat → Nat → Nat
  | 0, c => c
  | n + 1, c => fcsBits n (if c % 2 = 1 then Nat.xor (c / 2) 0xEDB88320 else c / 2)
def fcs (bytes : List Nat) : Nat := Nat.xor (bytes.foldl (fun c b => fcsBits 8 (Nat.xor c (b % 256))) 0xFFFFFFFF) 0xFFFFFFFF

end Sys2Proof.Machine
end

