-- ==== Sys2Proof/Machine/RegMap.lean ====
section
/-! DEFINITION. The register map: the page map of R36, the common header of R37 and the body of every page as the
register tables of the spec give them, with access type and reset value of every field. Fields not listed are reserved
and read zero. A reset value that the spec draws from CALDATA, OTP, a strap, the Eave or the settings store stands as
zero here (log 1). -/

namespace Sys2Proof.Machine

/-- The access types of R38. -/
inductive Acc where
  | ro | rw | w1c | w1s | cmd | rwl | shd
deriving DecidableEq, Repr

/-- One field of a register: its bits, its access type and its reset value. -/
structure FieldDesc where
  hi : Nat
  lo : Nat
  acc : Acc
  reset : Nat
deriving DecidableEq, Repr

/-- One register, or an array of `count` registers `stride` bytes apart, each of `words` words. -/
structure RegDesc where
  base : Nat
  stride : Nat
  count : Nat
  words : Nat
  fields : List FieldDesc
deriving DecidableEq, Repr

/-- The blocks of the page map (R36). -/
inductive Kind where
  | dev | dir | refsel | servo | apllm | aplla | tsc | domain | xo | eave | gutter | flash | hostq | own | cal | quad | chan | aux | tin | tdc | phase | seq | course | sched | trig | rdg | eth | sync
deriving DecidableEq, Repr

/-- Page index of DEV (R36). -/
abbrev pDEV : Nat := 0x0
/-- Page index of DIR (R36). -/
abbrev pDIR : Nat := 0x1
/-- Page index of REFSEL (R36). -/
abbrev pREFSEL : Nat := 0x2
/-- Page index of SERVO (R36). -/
abbrev pSERVO : Nat := 0x3
/-- Page index of APLL_M (R36). -/
abbrev pAPLL_M : Nat := 0x4
/-- Page index of APLL_A (R36). -/
abbrev pAPLL_A : Nat := 0x5
/-- Page index of TSC (R36). -/
abbrev pTSC : Nat := 0x6
/-- Page index of DOMAIN (R36). -/
abbrev pDOMAIN : Nat := 0x7
/-- Page index of XO (R36). -/
abbrev pXO : Nat := 0x8
/-- Page index of EAVE (R36). -/
abbrev pEAVE : Nat := 0xa
/-- Page index of GUTTER (R36). -/
abbrev pGUTTER : Nat := 0xb
/-- Page index of FLASH (R36). -/
abbrev pFLASH : Nat := 0xc
/-- Page index of HOSTQ (R36). -/
abbrev pHOSTQ : Nat := 0xd
/-- Page index of OWN (R36). -/
abbrev pOWN : Nat := 0xe
/-- Page index of CAL (R36). -/
abbrev pCAL : Nat := 0xf
/-- Page index of QUAD_i (R36). -/
abbrev pQUAD (i : Nat) : Nat := 0x10 + i
/-- Page index of CHAN_i (R36). -/
abbrev pCHAN (i : Nat) : Nat := 0x20 + i
/-- Page index of AUX_i (R36). -/
abbrev pAUX (i : Nat) : Nat := 0x50 + i
/-- Page index of TIN_i (R36). -/
abbrev pTIN (i : Nat) : Nat := 0x60 + i
/-- Page index of TDC (R36). -/
abbrev pTDC : Nat := 0x70
/-- Page index of PHASE_i (R36). -/
abbrev pPHASE (i : Nat) : Nat := 0x71 + i
/-- Page index of SEQ_i (R36). -/
abbrev pSEQ (i : Nat) : Nat := 0x78 + i
/-- Page index of COURSE (R36). -/
abbrev pCOURSE : Nat := 0x7c
/-- Page index of SCHED (R36). -/
abbrev pSCHED : Nat := 0x80
/-- Page index of TRIG (R36). -/
abbrev pTRIG : Nat := 0x81
/-- Page index of RDG_i (R36). -/
abbrev pRDG (i : Nat) : Nat := 0x88 + i
/-- Page index of ETH_i (R36). -/
abbrev pETH (i : Nat) : Nat := 0x8e + i
/-- Page index of SYNC (R36). -/
abbrev pSYNC : Nat := 0x90

/-- The block at a page index and its instance number (R36); none where the page has no block. -/
def pageBlock (p : Nat) : Option (Kind × Nat) :=
  if p = 0x0 then some (.dev, 0) else
  if p = 0x1 then some (.dir, 0) else
  if p = 0x2 then some (.refsel, 0) else
  if p = 0x3 then some (.servo, 0) else
  if p = 0x4 then some (.apllm, 0) else
  if p = 0x5 then some (.aplla, 0) else
  if p = 0x6 then some (.tsc, 0) else
  if p = 0x7 then some (.domain, 0) else
  if p = 0x8 then some (.xo, 0) else
  if p = 0xa then some (.eave, 0) else
  if p = 0xb then some (.gutter, 0) else
  if p = 0xc then some (.flash, 0) else
  if p = 0xd then some (.hostq, 0) else
  if p = 0xe then some (.own, 0) else
  if p = 0xf then some (.cal, 0) else
  if 0x10 ≤ p ∧ p < 0x1c then some (.quad, p - 0x10) else
  if 0x20 ≤ p ∧ p < 0x50 then some (.chan, p - 0x20) else
  if 0x50 ≤ p ∧ p < 0x58 then some (.aux, p - 0x50) else
  if 0x60 ≤ p ∧ p < 0x70 then some (.tin, p - 0x60) else
  if p = 0x70 then some (.tdc, 0) else
  if 0x71 ≤ p ∧ p < 0x75 then some (.phase, p - 0x71) else
  if 0x78 ≤ p ∧ p < 0x7c then some (.seq, p - 0x78) else
  if p = 0x7c then some (.course, 0) else
  if p = 0x80 then some (.sched, 0) else
  if p = 0x81 then some (.trig, 0) else
  if 0x88 ≤ p ∧ p < 0x8e then some (.rdg, p - 0x88) else
  if 0x8e ≤ p ∧ p < 0x90 then some (.eth, p - 0x8e) else
  if p = 0x90 then some (.sync, 0) else
  none

/-- The TYPE value each block reports (R36). -/
def kindType : Kind → Nat
  | .dev => 0x0100
  | .dir => 0x0101
  | .refsel => 0x0200
  | .servo => 0x0201
  | .apllm => 0x0202
  | .aplla => 0x0203
  | .tsc => 0x0204
  | .domain => 0x0205
  | .xo => 0x0206
  | .eave => 0x0300
  | .gutter => 0x0301
  | .flash => 0x0302
  | .hostq => 0x0303
  | .own => 0x0304
  | .cal => 0x0305
  | .quad => 0x0400
  | .chan => 0x0401
  | .aux => 0x0402
  | .tin => 0x0500
  | .tdc => 0x0501
  | .phase => 0x0502
  | .seq => 0x0600
  | .course => 0x0601
  | .sched => 0x0602
  | .trig => 0x0603
  | .rdg => 0x0700
  | .eth => 0x0701
  | .sync => 0x0702

/-- Whether CONTROL.ENABLE of the block is a real enable; blocks without one read 1 and ignore writes (R37). -/
def hasEnable : Kind → Bool
  | .dev => false
  | .dir => false
  | .refsel => false
  | .servo => false
  | .apllm => false
  | .aplla => true
  | .tsc => false
  | .domain => true
  | .xo => false
  | .eave => false
  | .gutter => false
  | .flash => false
  | .hostq => false
  | .own => false
  | .cal => false
  | .quad => false
  | .chan => true
  | .aux => true
  | .tin => true
  | .tdc => false
  | .phase => true
  | .seq => true
  | .course => false
  | .sched => false
  | .trig => false
  | .rdg => true
  | .eth => true
  | .sync => false

/-- CAPS as the chapters state it; zero where no chapter states a value (log 2). -/
def kindCaps (i : Nat) : Kind → Nat
  | .dev => 0
  | .dir => 0
  | .refsel => 8
  | .servo => 0
  | .apllm => 0
  | .aplla => 0x20
  | .tsc => 0
  | .domain => 8
  | .xo => 0
  | .eave => 0x00404008
  | .gutter => 0x80
  | .flash => 7
  | .hostq => 0
  | .own => 0
  | .cal => 0x00000001
  | .quad => 0x00005410
  | .chan => if i < 40 then 0x1FF else 0x3FF
  | .aux => 7
  | .tin => if i < 4 then 0x04000001 else 0x04000000
  | .tdc => 0x00100810
  | .phase => 0x04000002
  | .seq => 0x00100010
  | .course => 0x1000
  | .sched => 0x02000810
  | .trig => 0x40
  | .rdg => if i = 0 then 1 else 0
  | .eth => 7
  | .sync => 7

/-! ### Field names, PAGE.REGISTER.FIELD as the spec writes them; an array register takes its index. -/

abbrev DEV.CG_INSTANT.off (i : Nat) : Nat := 0x400 + 0x10 * i
abbrev DEV.CG_INSTANT.INSTANT (i : Nat) : Fld := ⟨0x400 + 0x10 * i, 127, 0⟩
abbrev DEV.CG_ARM.off : Nat := 0x500
abbrev DEV.CG_ARM.ARMED : Fld := ⟨0x500, 15, 0⟩
abbrev DEV.CG_DISARM.off : Nat := 0x504
abbrev DEV.CG_DISARM.DISARM : Fld := ⟨0x504, 15, 0⟩
abbrev DEV.CG_FIRED.off : Nat := 0x508
abbrev DEV.CG_FIRED.FIRED : Fld := ⟨0x508, 15, 0⟩
abbrev DEV.CG_LATE.off : Nat := 0x50C
abbrev DEV.CG_LATE.LATE : Fld := ⟨0x50C, 15, 0⟩
abbrev DEV.CG_PENDING.off : Nat := 0x510
abbrev DEV.CG_PENDING.WAITING : Fld := ⟨0x510, 15, 0⟩
abbrev DEV.SNAP_CTL.off : Nat := 0x80
abbrev DEV.SNAP_CTL.HOLDER : Fld := ⟨0x80, 31, 16⟩
abbrev DEV.SNAP_CTL.TIMED_OUT : Fld := ⟨0x80, 9, 9⟩
abbrev DEV.SNAP_CTL.FROZEN : Fld := ⟨0x80, 8, 8⟩
abbrev DEV.SNAP_CTL.RELEASE : Fld := ⟨0x80, 1, 1⟩
abbrev DEV.SNAP_CTL.FREEZE : Fld := ⟨0x80, 0, 0⟩
abbrev DEV.SNAP_TIMEOUT.off : Nat := 0x84
abbrev DEV.SNAP_TIMEOUT.TIMEOUT_MS : Fld := ⟨0x84, 23, 0⟩
abbrev DEV.SNAP_SLOT.off : Nat := 0x88
abbrev DEV.SNAP_SLOT.SLOT : Fld := ⟨0x88, 63, 0⟩
abbrev DEV.SNAP_SEQ.off : Nat := 0x90
abbrev DEV.SNAP_SEQ.SEQ : Fld := ⟨0x90, 15, 0⟩
abbrev DEV.STAGE_CFG.off : Nat := 0xC0
abbrev DEV.STAGE_CFG.HOLD_AT_2 : Fld := ⟨0xC0, 0, 0⟩
abbrev DEV.STAGE_HOLD.off : Nat := 0xC4
abbrev DEV.STAGE_HOLD.ABOVE_THRESH : Fld := ⟨0xC4, 8, 8⟩
abbrev DEV.STAGE_HOLD.NOT_LOCKED : Fld := ⟨0xC4, 7, 7⟩
abbrev DEV.STAGE_HOLD.PORT_CAL : Fld := ⟨0xC4, 6, 6⟩
abbrev DEV.STAGE_HOLD.TIN_CAL : Fld := ⟨0xC4, 5, 5⟩
abbrev DEV.STAGE_HOLD.QUAD_SWEEP : Fld := ⟨0xC4, 4, 4⟩
abbrev DEV.STAGE_HOLD.HOLD_AT_2 : Fld := ⟨0xC4, 3, 3⟩
abbrev DEV.STAGE_HOLD.BOOT_REC : Fld := ⟨0xC4, 2, 2⟩
abbrev DEV.STAGE_HOLD.CALDATA : Fld := ⟨0xC4, 1, 1⟩
abbrev DEV.STAGE_HOLD.APLL_M : Fld := ⟨0xC4, 0, 0⟩
abbrev DEV.RESET_CAUSE.off : Nat := 0xC8
abbrev DEV.RESET_CAUSE.EAVE_POR : Fld := ⟨0xC8, 3, 3⟩
abbrev DEV.RESET_CAUSE.COMMAND : Fld := ⟨0xC8, 2, 2⟩
abbrev DEV.RESET_CAUSE.RESET_PIN : Fld := ⟨0xC8, 1, 1⟩
abbrev DEV.RESET_CAUSE.SUPPLY : Fld := ⟨0xC8, 0, 0⟩
abbrev DEV.RESET_CMD.off : Nat := 0xCC
abbrev DEV.RESET_CMD.CODE : Fld := ⟨0xCC, 7, 0⟩
abbrev DEV.STAGE_AT.off (i : Nat) : Nat := 0xD0 + 0x4 * i
abbrev DEV.STAGE_AT.MS (i : Nat) : Fld := ⟨0xD0 + 0x4 * i, 31, 0⟩
abbrev DEV.IRQ_SUMMARY.off : Nat := 0xA0
abbrev DEV.IRQ_SUMMARY.PAGES : Fld := ⟨0xA0, 255, 0⟩
abbrev DEV.BLOCK_ID.off : Nat := 0x0
abbrev DEV.BLOCK_ID.TYPE : Fld := ⟨0x0, 31, 16⟩
abbrev DEV.BLOCK_ID.INSTANCE : Fld := ⟨0x0, 15, 8⟩
abbrev DEV.BLOCK_ID.HDR_VER : Fld := ⟨0x0, 7, 0⟩
abbrev DEV.BLOCK_VER.off : Nat := 0x4
abbrev DEV.BLOCK_VER.MAJOR : Fld := ⟨0x4, 23, 16⟩
abbrev DEV.BLOCK_VER.MINOR : Fld := ⟨0x4, 15, 8⟩
abbrev DEV.BLOCK_VER.PATCH : Fld := ⟨0x4, 7, 0⟩
abbrev DEV.CAPS.off : Nat := 0x8
abbrev DEV.CAPS.CAPS : Fld := ⟨0x8, 31, 0⟩
abbrev DEV.OWNER.off : Nat := 0xC
abbrev DEV.OWNER.OWNER_ID : Fld := ⟨0xC, 31, 16⟩
abbrev DEV.STATUS.off : Nat := 0x10
abbrev DEV.STATUS.SAFE : Fld := ⟨0x10, 31, 31⟩
abbrev DEV.STATUS.ERR : Fld := ⟨0x10, 30, 30⟩
abbrev DEV.STATUS.FROZEN_VIEW : Fld := ⟨0x10, 29, 29⟩
abbrev DEV.STATUS.BOOT_REC : Fld := ⟨0x10, 10, 10⟩
abbrev DEV.STATUS.FAULT_MODE : Fld := ⟨0x10, 9, 9⟩
abbrev DEV.STATUS.HOST_SEL : Fld := ⟨0x10, 8, 8⟩
abbrev DEV.STATUS.STAGE : Fld := ⟨0x10, 2, 0⟩
abbrev DEV.CONTROL.off : Nat := 0x14
abbrev DEV.CONTROL.ENABLE : Fld := ⟨0x14, 31, 31⟩
abbrev DEV.CONTROL.SAFE_EXIT : Fld := ⟨0x14, 30, 30⟩
abbrev DEV.IRQ_STATUS.off : Nat := 0x18
abbrev DEV.IRQ_STATUS.STAGE_DOWN : Fld := ⟨0x18, 1, 1⟩
abbrev DEV.IRQ_STATUS.STAGE_UP : Fld := ⟨0x18, 0, 0⟩
abbrev DEV.IRQ_ENABLE.off : Nat := 0x1C
abbrev DEV.IRQ_ENABLE.W : Fld := ⟨0x1C, 31, 0⟩
abbrev DEV.IRQ_VECTOR.off : Nat := 0x20
abbrev DEV.IRQ_VECTOR.VECTOR : Fld := ⟨0x20, 5, 0⟩
abbrev DEV.ERR_STATUS.off : Nat := 0x24
abbrev DEV.ERR_STATUS.VDD_CORE : Fld := ⟨0x24, 0, 0⟩
abbrev DEV.ERR_STATUS.VDD_ANA : Fld := ⟨0x24, 1, 1⟩
abbrev DEV.ERR_STATUS.VDD_PLL : Fld := ⟨0x24, 2, 2⟩
abbrev DEV.ERR_STATUS.VDD_IO : Fld := ⟨0x24, 3, 3⟩
abbrev DEV.ERR_STATUS.VDD_HV : Fld := ⟨0x24, 4, 4⟩
abbrev DEV.ERR_STATUS.DIE_HOT : Fld := ⟨0x24, 5, 5⟩
abbrev DEV.ERR_STATUS.DIE_CRITICAL : Fld := ⟨0x24, 6, 6⟩
abbrev DEV.ERR_STATUS.SCLK_MONITOR : Fld := ⟨0x24, 7, 7⟩
abbrev DEV.ERR_STATUS.SRAM_UNCORR : Fld := ⟨0x24, 8, 8⟩
abbrev DEV.ERR_STATUS.MGMT_WATCHDOG : Fld := ⟨0x24, 9, 9⟩
abbrev DEV.ERR_INJECT.off : Nat := 0x28
abbrev DEV.ERR_INJECT.W : Fld := ⟨0x28, 31, 0⟩
abbrev DEV.LAST_CMD.off : Nat := 0x2C
abbrev DEV.LAST_CMD.DETAIL : Fld := ⟨0x2C, 31, 16⟩
abbrev DEV.LAST_CMD.RESULT : Fld := ⟨0x2C, 15, 12⟩
abbrev DEV.LAST_CMD.SEQ : Fld := ⟨0x2C, 11, 8⟩
abbrev DEV.LAST_CMD.CODE : Fld := ⟨0x2C, 7, 0⟩
abbrev DEV.COMMIT_CTL.off : Nat := 0x30
abbrev DEV.COMMIT_CTL.SHADOW_DIRTY : Fld := ⟨0x30, 9, 9⟩
abbrev DEV.COMMIT_CTL.PENDING : Fld := ⟨0x30, 8, 8⟩
abbrev DEV.COMMIT_CTL.ABORT : Fld := ⟨0x30, 5, 5⟩
abbrev DEV.COMMIT_CTL.GO : Fld := ⟨0x30, 4, 4⟩
abbrev DEV.COMMIT_CTL.MODE : Fld := ⟨0x30, 1, 0⟩
abbrev DEV.COMMIT_GROUP.off : Nat := 0x34
abbrev DEV.COMMIT_GROUP.GROUP : Fld := ⟨0x34, 3, 0⟩
abbrev DEV.WRITE_SEQ.off : Nat := 0x38
abbrev DEV.WRITE_SEQ.SHADOW_WRITES : Fld := ⟨0x38, 31, 16⟩
abbrev DEV.WRITE_SEQ.COMMIT_SEQ : Fld := ⟨0x38, 15, 0⟩
abbrev DIR.ENTRY.off (i : Nat) : Nat := 0x40 + 0x4 * i
abbrev DIR.ENTRY.TYPE (i : Nat) : Fld := ⟨0x40 + 0x4 * i, 31, 16⟩
abbrev DIR.ENTRY.INSTANCE (i : Nat) : Fld := ⟨0x40 + 0x4 * i, 15, 8⟩
abbrev DIR.ENTRY.PRESENT (i : Nat) : Fld := ⟨0x40 + 0x4 * i, 0, 0⟩
abbrev DIR.COUNT.off : Nat := 0x440
abbrev DIR.COUNT.COUNT : Fld := ⟨0x440, 31, 0⟩
abbrev DIR.BLOCK_ID.off : Nat := 0x0
abbrev DIR.BLOCK_ID.TYPE : Fld := ⟨0x0, 31, 16⟩
abbrev DIR.BLOCK_ID.INSTANCE : Fld := ⟨0x0, 15, 8⟩
abbrev DIR.BLOCK_ID.HDR_VER : Fld := ⟨0x0, 7, 0⟩
abbrev DIR.BLOCK_VER.off : Nat := 0x4
abbrev DIR.BLOCK_VER.MAJOR : Fld := ⟨0x4, 23, 16⟩
abbrev DIR.BLOCK_VER.MINOR : Fld := ⟨0x4, 15, 8⟩
abbrev DIR.BLOCK_VER.PATCH : Fld := ⟨0x4, 7, 0⟩
abbrev DIR.CAPS.off : Nat := 0x8
abbrev DIR.CAPS.CAPS : Fld := ⟨0x8, 31, 0⟩
abbrev DIR.OWNER.off : Nat := 0xC
abbrev DIR.OWNER.OWNER_ID : Fld := ⟨0xC, 31, 16⟩
abbrev DIR.STATUS.off : Nat := 0x10
abbrev DIR.STATUS.SAFE : Fld := ⟨0x10, 31, 31⟩
abbrev DIR.STATUS.ERR : Fld := ⟨0x10, 30, 30⟩
abbrev DIR.STATUS.FROZEN_VIEW : Fld := ⟨0x10, 29, 29⟩
abbrev DIR.CONTROL.off : Nat := 0x14
abbrev DIR.CONTROL.ENABLE : Fld := ⟨0x14, 31, 31⟩
abbrev DIR.CONTROL.SAFE_EXIT : Fld := ⟨0x14, 30, 30⟩
abbrev DIR.IRQ_STATUS.off : Nat := 0x18
abbrev DIR.IRQ_ENABLE.off : Nat := 0x1C
abbrev DIR.IRQ_ENABLE.W : Fld := ⟨0x1C, 31, 0⟩
abbrev DIR.IRQ_VECTOR.off : Nat := 0x20
abbrev DIR.IRQ_VECTOR.VECTOR : Fld := ⟨0x20, 5, 0⟩
abbrev DIR.ERR_STATUS.off : Nat := 0x24
abbrev DIR.ERR_INJECT.off : Nat := 0x28
abbrev DIR.ERR_INJECT.W : Fld := ⟨0x28, 31, 0⟩
abbrev DIR.LAST_CMD.off : Nat := 0x2C
abbrev DIR.LAST_CMD.DETAIL : Fld := ⟨0x2C, 31, 16⟩
abbrev DIR.LAST_CMD.RESULT : Fld := ⟨0x2C, 15, 12⟩
abbrev DIR.LAST_CMD.SEQ : Fld := ⟨0x2C, 11, 8⟩
abbrev DIR.LAST_CMD.CODE : Fld := ⟨0x2C, 7, 0⟩
abbrev DIR.COMMIT_CTL.off : Nat := 0x30
abbrev DIR.COMMIT_CTL.SHADOW_DIRTY : Fld := ⟨0x30, 9, 9⟩
abbrev DIR.COMMIT_CTL.PENDING : Fld := ⟨0x30, 8, 8⟩
abbrev DIR.COMMIT_CTL.ABORT : Fld := ⟨0x30, 5, 5⟩
abbrev DIR.COMMIT_CTL.GO : Fld := ⟨0x30, 4, 4⟩
abbrev DIR.COMMIT_CTL.MODE : Fld := ⟨0x30, 1, 0⟩
abbrev DIR.COMMIT_GROUP.off : Nat := 0x34
abbrev DIR.COMMIT_GROUP.GROUP : Fld := ⟨0x34, 3, 0⟩
abbrev DIR.WRITE_SEQ.off : Nat := 0x38
abbrev DIR.WRITE_SEQ.SHADOW_WRITES : Fld := ⟨0x38, 31, 16⟩
abbrev DIR.WRITE_SEQ.COMMIT_SEQ : Fld := ⟨0x38, 15, 0⟩
abbrev REFSEL.SEL_CFG.off : Nat := 0x40
abbrev REFSEL.SEL_CFG.REVERTIVE : Fld := ⟨0x40, 12, 12⟩
abbrev REFSEL.SEL_CFG.FORCE : Fld := ⟨0x40, 11, 11⟩
abbrev REFSEL.SEL_CFG.FORCE_REF : Fld := ⟨0x40, 10, 8⟩
abbrev REFSEL.SEL_CFG.OBS_INTERVAL : Fld := ⟨0x40, 5, 4⟩
abbrev REFSEL.SEL_CFG.REF_RETURN_POLICY : Fld := ⟨0x40, 1, 0⟩
abbrev REFSEL.SEL_CMD.off : Nat := 0x44
abbrev REFSEL.SEL_CMD.REF : Fld := ⟨0x44, 10, 8⟩
abbrev REFSEL.SEL_CMD.CODE : Fld := ⟨0x44, 7, 0⟩
abbrev REFSEL.CONFLICT_INFO.off : Nat := 0x48
abbrev REFSEL.CONFLICT_INFO.ACTIVE : Fld := ⟨0x48, 31, 31⟩
abbrev REFSEL.CONFLICT_INFO.STEP_BLOCKED : Fld := ⟨0x48, 30, 30⟩
abbrev REFSEL.CONFLICT_INFO.REF : Fld := ⟨0x48, 2, 0⟩
abbrev REFSEL.CONFLICT_OFFSET.off : Nat := 0x50
abbrev REFSEL.CONFLICT_OFFSET.SPAN : Fld := ⟨0x50, 95, 0⟩
abbrev REFSEL.PTP_OBS_AT.off : Nat := 0x60
abbrev REFSEL.PTP_OBS_AT.INSTANT : Fld := ⟨0x60, 127, 0⟩
abbrev REFSEL.PTP_OBS_OFFSET.off : Nat := 0x70
abbrev REFSEL.PTP_OBS_OFFSET.SPAN : Fld := ⟨0x70, 95, 0⟩
abbrev REFSEL.PTP_OBS_TEB.off : Nat := 0x7C
abbrev REFSEL.PTP_OBS_TEB.TEB_PS : Fld := ⟨0x7C, 31, 0⟩
abbrev REFSEL.PTP_OBS_PATH.off : Nat := 0x80
abbrev REFSEL.PTP_OBS_PATH.SPAN : Fld := ⟨0x80, 95, 0⟩
abbrev REFSEL.PTP_OBS_CMD.off : Nat := 0x8C
abbrev REFSEL.PTP_OBS_CMD.REF : Fld := ⟨0x8C, 10, 8⟩
abbrev REFSEL.PTP_OBS_CMD.CODE : Fld := ⟨0x8C, 7, 0⟩
abbrev REFSEL.REF_CFG.off (i : Nat) : Nat := 0x100 + 0x40 * i
abbrev REFSEL.REF_CFG.ENABLE (i : Nat) : Fld := ⟨0x100 + 0x40 * i, 31, 31⟩
abbrev REFSEL.REF_CFG.PRIORITY (i : Nat) : Fld := ⟨0x100 + 0x40 * i, 27, 24⟩
abbrev REFSEL.REF_CFG.KIND (i : Nat) : Fld := ⟨0x100 + 0x40 * i, 19, 16⟩
abbrev REFSEL.REF_CFG.INDEX (i : Nat) : Fld := ⟨0x100 + 0x40 * i, 7, 0⟩
abbrev REFSEL.REF_QUAL.off (i : Nat) : Nat := 0x104 + 0x40 * i
abbrev REFSEL.REF_QUAL.DWELL_S (i : Nat) : Fld := ⟨0x104 + 0x40 * i, 25, 16⟩
abbrev REFSEL.REF_QUAL.FREQ_WINDOW_PPB (i : Nat) : Fld := ⟨0x104 + 0x40 * i, 15, 0⟩
abbrev REFSEL.REF_JUMP.off (i : Nat) : Nat := 0x108 + 0x40 * i
abbrev REFSEL.REF_JUMP.PHASE_JUMP_NS (i : Nat) : Fld := ⟨0x108 + 0x40 * i, 31, 0⟩
abbrev REFSEL.REF_NOMINAL.off (i : Nat) : Nat := 0x10C + 0x40 * i
abbrev REFSEL.REF_NOMINAL.NOMINAL_HZ (i : Nat) : Fld := ⟨0x10C + 0x40 * i, 31, 0⟩
abbrev REFSEL.REF_DELAY.off (i : Nat) : Nat := 0x110 + 0x40 * i
abbrev REFSEL.REF_DELAY.SPAN (i : Nat) : Fld := ⟨0x110 + 0x40 * i, 95, 0⟩
abbrev REFSEL.REF_UNC.off (i : Nat) : Nat := 0x11C + 0x40 * i
abbrev REFSEL.REF_UNC.UNC_PS (i : Nat) : Fld := ⟨0x11C + 0x40 * i, 31, 0⟩
abbrev REFSEL.REF_STATE.off (i : Nat) : Nat := 0x120 + 0x40 * i
abbrev REFSEL.REF_STATE.LAST_FAIL (i : Nat) : Fld := ⟨0x120 + 0x40 * i, 15, 12⟩
abbrev REFSEL.REF_STATE.FROZEN (i : Nat) : Fld := ⟨0x120 + 0x40 * i, 11, 11⟩
abbrev REFSEL.REF_STATE.CONFLICT (i : Nat) : Fld := ⟨0x120 + 0x40 * i, 10, 10⟩
abbrev REFSEL.REF_STATE.TIME_CLASS (i : Nat) : Fld := ⟨0x120 + 0x40 * i, 9, 9⟩
abbrev REFSEL.REF_STATE.SELECTED (i : Nat) : Fld := ⟨0x120 + 0x40 * i, 8, 8⟩
abbrev REFSEL.REF_STATE.STATE (i : Nat) : Fld := ⟨0x120 + 0x40 * i, 2, 0⟩
abbrev REFSEL.REF_DWELL_LEFT.off (i : Nat) : Nat := 0x124 + 0x40 * i
abbrev REFSEL.REF_DWELL_LEFT.S (i : Nat) : Fld := ⟨0x124 + 0x40 * i, 31, 0⟩
abbrev REFSEL.REF_FREQ_UNC.off (i : Nat) : Nat := 0x128 + 0x40 * i
abbrev REFSEL.REF_FREQ_UNC.FREQ_UNC (i : Nat) : Fld := ⟨0x128 + 0x40 * i, 31, 0⟩
abbrev REFSEL.REF_FREQ_ERR.off (i : Nat) : Nat := 0x12C + 0x40 * i
abbrev REFSEL.REF_FREQ_ERR.ERR (i : Nat) : Fld := ⟨0x12C + 0x40 * i, 31, 0⟩
abbrev REFSEL.REF_OFFSET.off (i : Nat) : Nat := 0x130 + 0x40 * i
abbrev REFSEL.REF_OFFSET.SPAN (i : Nat) : Fld := ⟨0x130 + 0x40 * i, 95, 0⟩
abbrev REFSEL.REF_OFFSET_TEB.off (i : Nat) : Nat := 0x13C + 0x40 * i
abbrev REFSEL.REF_OFFSET_TEB.TEB_PS (i : Nat) : Fld := ⟨0x13C + 0x40 * i, 31, 0⟩
abbrev REFSEL.BLOCK_ID.off : Nat := 0x0
abbrev REFSEL.BLOCK_ID.TYPE : Fld := ⟨0x0, 31, 16⟩
abbrev REFSEL.BLOCK_ID.INSTANCE : Fld := ⟨0x0, 15, 8⟩
abbrev REFSEL.BLOCK_ID.HDR_VER : Fld := ⟨0x0, 7, 0⟩
abbrev REFSEL.BLOCK_VER.off : Nat := 0x4
abbrev REFSEL.BLOCK_VER.MAJOR : Fld := ⟨0x4, 23, 16⟩
abbrev REFSEL.BLOCK_VER.MINOR : Fld := ⟨0x4, 15, 8⟩
abbrev REFSEL.BLOCK_VER.PATCH : Fld := ⟨0x4, 7, 0⟩
abbrev REFSEL.CAPS.off : Nat := 0x8
abbrev REFSEL.CAPS.CAPS : Fld := ⟨0x8, 31, 0⟩
abbrev REFSEL.OWNER.off : Nat := 0xC
abbrev REFSEL.OWNER.OWNER_ID : Fld := ⟨0xC, 31, 16⟩
abbrev REFSEL.STATUS.off : Nat := 0x10
abbrev REFSEL.STATUS.SAFE : Fld := ⟨0x10, 31, 31⟩
abbrev REFSEL.STATUS.ERR : Fld := ⟨0x10, 30, 30⟩
abbrev REFSEL.STATUS.FROZEN_VIEW : Fld := ⟨0x10, 29, 29⟩
abbrev REFSEL.STATUS.QUALIFIED : Fld := ⟨0x10, 23, 16⟩
abbrev REFSEL.STATUS.SUSPECT : Fld := ⟨0x10, 15, 8⟩
abbrev REFSEL.STATUS.VALID : Fld := ⟨0x10, 3, 3⟩
abbrev REFSEL.STATUS.SELECTED : Fld := ⟨0x10, 2, 0⟩
abbrev REFSEL.CONTROL.off : Nat := 0x14
abbrev REFSEL.CONTROL.ENABLE : Fld := ⟨0x14, 31, 31⟩
abbrev REFSEL.CONTROL.SAFE_EXIT : Fld := ⟨0x14, 30, 30⟩
abbrev REFSEL.IRQ_STATUS.off : Nat := 0x18
abbrev REFSEL.IRQ_STATUS.SUSPECT : Fld := ⟨0x18, 3, 3⟩
abbrev REFSEL.IRQ_STATUS.CONFLICT : Fld := ⟨0x18, 2, 2⟩
abbrev REFSEL.IRQ_STATUS.QUAL_CHANGE : Fld := ⟨0x18, 1, 1⟩
abbrev REFSEL.IRQ_STATUS.SELECT_CHANGE : Fld := ⟨0x18, 0, 0⟩
abbrev REFSEL.IRQ_ENABLE.off : Nat := 0x1C
abbrev REFSEL.IRQ_ENABLE.W : Fld := ⟨0x1C, 31, 0⟩
abbrev REFSEL.IRQ_VECTOR.off : Nat := 0x20
abbrev REFSEL.IRQ_VECTOR.VECTOR : Fld := ⟨0x20, 5, 0⟩
abbrev REFSEL.ERR_STATUS.off : Nat := 0x24
abbrev REFSEL.ERR_STATUS.REF_PHASE_CONFLICT : Fld := ⟨0x24, 1, 1⟩
abbrev REFSEL.ERR_STATUS.NO_REFERENCE : Fld := ⟨0x24, 0, 0⟩
abbrev REFSEL.ERR_INJECT.off : Nat := 0x28
abbrev REFSEL.ERR_INJECT.W : Fld := ⟨0x28, 31, 0⟩
abbrev REFSEL.LAST_CMD.off : Nat := 0x2C
abbrev REFSEL.LAST_CMD.DETAIL : Fld := ⟨0x2C, 31, 16⟩
abbrev REFSEL.LAST_CMD.RESULT : Fld := ⟨0x2C, 15, 12⟩
abbrev REFSEL.LAST_CMD.SEQ : Fld := ⟨0x2C, 11, 8⟩
abbrev REFSEL.LAST_CMD.CODE : Fld := ⟨0x2C, 7, 0⟩
abbrev REFSEL.COMMIT_CTL.off : Nat := 0x30
abbrev REFSEL.COMMIT_CTL.SHADOW_DIRTY : Fld := ⟨0x30, 9, 9⟩
abbrev REFSEL.COMMIT_CTL.PENDING : Fld := ⟨0x30, 8, 8⟩
abbrev REFSEL.COMMIT_CTL.ABORT : Fld := ⟨0x30, 5, 5⟩
abbrev REFSEL.COMMIT_CTL.GO : Fld := ⟨0x30, 4, 4⟩
abbrev REFSEL.COMMIT_CTL.MODE : Fld := ⟨0x30, 1, 0⟩
abbrev REFSEL.COMMIT_GROUP.off : Nat := 0x34
abbrev REFSEL.COMMIT_GROUP.GROUP : Fld := ⟨0x34, 3, 0⟩
abbrev REFSEL.WRITE_SEQ.off : Nat := 0x38
abbrev REFSEL.WRITE_SEQ.SHADOW_WRITES : Fld := ⟨0x38, 31, 16⟩
abbrev REFSEL.WRITE_SEQ.COMMIT_SEQ : Fld := ⟨0x38, 15, 0⟩
abbrev SERVO.SERVO_CFG.off : Nat := 0x40
abbrev SERVO.SERVO_CFG.DAMPING : Fld := ⟨0x40, 15, 8⟩
abbrev SERVO.SERVO_CFG.MODE : Fld := ⟨0x40, 1, 0⟩
abbrev SERVO.BW.off : Nat := 0x44
abbrev SERVO.BW.BW_MHZ : Fld := ⟨0x44, 31, 0⟩
abbrev SERVO.SLEW_MAX.off : Nat := 0x48
abbrev SERVO.SLEW_MAX.PPB : Fld := ⟨0x48, 31, 0⟩
abbrev SERVO.STEP_CTL.off : Nat := 0x4C
abbrev SERVO.STEP_CTL.STEP_ENABLE : Fld := ⟨0x4C, 0, 0⟩
abbrev SERVO.ACQ_SLEW_LIMIT.off : Nat := 0x50
abbrev SERVO.ACQ_SLEW_LIMIT.NS : Fld := ⟨0x50, 31, 0⟩
abbrev SERVO.LOCK_THRESH.off : Nat := 0x54
abbrev SERVO.LOCK_THRESH.PS : Fld := ⟨0x54, 31, 0⟩
abbrev SERVO.HOLD_AVG.off : Nat := 0x58
abbrev SERVO.HOLD_AVG.S : Fld := ⟨0x58, 31, 0⟩
abbrev SERVO.Y.off : Nat := 0x60
abbrev SERVO.Y.Y : Fld := ⟨0x60, 63, 0⟩
abbrev SERVO.Y_XO.off : Nat := 0x68
abbrev SERVO.Y_XO.Y : Fld := ⟨0x68, 63, 0⟩
abbrev SERVO.Y_SRV.off : Nat := 0x70
abbrev SERVO.Y_SRV.Y : Fld := ⟨0x70, 63, 0⟩
abbrev SERVO.Y_SLEW.off : Nat := 0x78
abbrev SERVO.Y_SLEW.Y : Fld := ⟨0x78, 63, 0⟩
abbrev SERVO.STEP_SPAN.off : Nat := 0x80
abbrev SERVO.STEP_SPAN.SPAN : Fld := ⟨0x80, 95, 0⟩
abbrev SERVO.STEP_CMD.off : Nat := 0x8C
abbrev SERVO.STEP_CMD.CODE : Fld := ⟨0x8C, 7, 0⟩
abbrev SERVO.PROPOSED.off : Nat := 0x90
abbrev SERVO.PROPOSED.SPAN : Fld := ⟨0x90, 95, 0⟩
abbrev SERVO.PHASE_ERR.off : Nat := 0xA0
abbrev SERVO.PHASE_ERR.SPAN : Fld := ⟨0xA0, 95, 0⟩
abbrev SERVO.PHASE_RMS.off : Nat := 0xAC
abbrev SERVO.PHASE_RMS.PS : Fld := ⟨0xAC, 31, 0⟩
abbrev SERVO.SLEW_LEFT.off : Nat := 0xB0
abbrev SERVO.SLEW_LEFT.SPAN : Fld := ⟨0xB0, 95, 0⟩
abbrev SERVO.HOLD_ENTRY.off : Nat := 0xC0
abbrev SERVO.HOLD_ENTRY.INSTANT : Fld := ⟨0xC0, 127, 0⟩
abbrev SERVO.HOLD_U_Y.off : Nat := 0xD0
abbrev SERVO.HOLD_U_Y.U_Y : Fld := ⟨0xD0, 31, 0⟩
abbrev SERVO.HOLD_TERM.off : Nat := 0xD4
abbrev SERVO.HOLD_TERM.PS : Fld := ⟨0xD4, 31, 0⟩
abbrev SERVO.HOLD_TEB0.off : Nat := 0xD8
abbrev SERVO.HOLD_TEB0.PS : Fld := ⟨0xD8, 31, 0⟩
abbrev SERVO.BLOCK_ID.off : Nat := 0x0
abbrev SERVO.BLOCK_ID.TYPE : Fld := ⟨0x0, 31, 16⟩
abbrev SERVO.BLOCK_ID.INSTANCE : Fld := ⟨0x0, 15, 8⟩
abbrev SERVO.BLOCK_ID.HDR_VER : Fld := ⟨0x0, 7, 0⟩
abbrev SERVO.BLOCK_VER.off : Nat := 0x4
abbrev SERVO.BLOCK_VER.MAJOR : Fld := ⟨0x4, 23, 16⟩
abbrev SERVO.BLOCK_VER.MINOR : Fld := ⟨0x4, 15, 8⟩
abbrev SERVO.BLOCK_VER.PATCH : Fld := ⟨0x4, 7, 0⟩
abbrev SERVO.CAPS.off : Nat := 0x8
abbrev SERVO.CAPS.CAPS : Fld := ⟨0x8, 31, 0⟩
abbrev SERVO.OWNER.off : Nat := 0xC
abbrev SERVO.OWNER.OWNER_ID : Fld := ⟨0xC, 31, 16⟩
abbrev SERVO.STATUS.off : Nat := 0x10
abbrev SERVO.STATUS.SAFE : Fld := ⟨0x10, 31, 31⟩
abbrev SERVO.STATUS.ERR : Fld := ⟨0x10, 30, 30⟩
abbrev SERVO.STATUS.FROZEN_VIEW : Fld := ⟨0x10, 29, 29⟩
abbrev SERVO.STATUS.BW_CLAMPED : Fld := ⟨0x10, 7, 7⟩
abbrev SERVO.STATUS.FREQ_ONLY : Fld := ⟨0x10, 6, 6⟩
abbrev SERVO.STATUS.Y_CLAMPED : Fld := ⟨0x10, 5, 5⟩
abbrev SERVO.STATUS.STEP_PROPOSED : Fld := ⟨0x10, 4, 4⟩
abbrev SERVO.STATUS.SLEWING : Fld := ⟨0x10, 3, 3⟩
abbrev SERVO.STATUS.STATE : Fld := ⟨0x10, 2, 0⟩
abbrev SERVO.CONTROL.off : Nat := 0x14
abbrev SERVO.CONTROL.ENABLE : Fld := ⟨0x14, 31, 31⟩
abbrev SERVO.CONTROL.SAFE_EXIT : Fld := ⟨0x14, 30, 30⟩
abbrev SERVO.IRQ_STATUS.off : Nat := 0x18
abbrev SERVO.IRQ_STATUS.STEP_DONE : Fld := ⟨0x18, 3, 3⟩
abbrev SERVO.IRQ_STATUS.SLEW_DONE : Fld := ⟨0x18, 2, 2⟩
abbrev SERVO.IRQ_STATUS.STEP_PROPOSED : Fld := ⟨0x18, 1, 1⟩
abbrev SERVO.IRQ_STATUS.STATE_CHANGE : Fld := ⟨0x18, 0, 0⟩
abbrev SERVO.IRQ_ENABLE.off : Nat := 0x1C
abbrev SERVO.IRQ_ENABLE.W : Fld := ⟨0x1C, 31, 0⟩
abbrev SERVO.IRQ_VECTOR.off : Nat := 0x20
abbrev SERVO.IRQ_VECTOR.VECTOR : Fld := ⟨0x20, 5, 0⟩
abbrev SERVO.ERR_STATUS.off : Nat := 0x24
abbrev SERVO.ERR_STATUS.Y_CLAMPED : Fld := ⟨0x24, 1, 1⟩
abbrev SERVO.ERR_STATUS.HOLDOVER_ENTERED : Fld := ⟨0x24, 0, 0⟩
abbrev SERVO.ERR_INJECT.off : Nat := 0x28
abbrev SERVO.ERR_INJECT.W : Fld := ⟨0x28, 31, 0⟩
abbrev SERVO.LAST_CMD.off : Nat := 0x2C
abbrev SERVO.LAST_CMD.DETAIL : Fld := ⟨0x2C, 31, 16⟩
abbrev SERVO.LAST_CMD.RESULT : Fld := ⟨0x2C, 15, 12⟩
abbrev SERVO.LAST_CMD.SEQ : Fld := ⟨0x2C, 11, 8⟩
abbrev SERVO.LAST_CMD.CODE : Fld := ⟨0x2C, 7, 0⟩
abbrev SERVO.COMMIT_CTL.off : Nat := 0x30
abbrev SERVO.COMMIT_CTL.SHADOW_DIRTY : Fld := ⟨0x30, 9, 9⟩
abbrev SERVO.COMMIT_CTL.PENDING : Fld := ⟨0x30, 8, 8⟩
abbrev SERVO.COMMIT_CTL.ABORT : Fld := ⟨0x30, 5, 5⟩
abbrev SERVO.COMMIT_CTL.GO : Fld := ⟨0x30, 4, 4⟩
abbrev SERVO.COMMIT_CTL.MODE : Fld := ⟨0x30, 1, 0⟩
abbrev SERVO.COMMIT_GROUP.off : Nat := 0x34
abbrev SERVO.COMMIT_GROUP.GROUP : Fld := ⟨0x34, 3, 0⟩
abbrev SERVO.WRITE_SEQ.off : Nat := 0x38
abbrev SERVO.WRITE_SEQ.SHADOW_WRITES : Fld := ⟨0x38, 31, 16⟩
abbrev SERVO.WRITE_SEQ.COMMIT_SEQ : Fld := ⟨0x38, 15, 0⟩
abbrev APLL_M.LOCK_CFG.off : Nat := 0x40
abbrev APLL_M.LOCK_CFG.WINDOW_LOG2 : Fld := ⟨0x40, 23, 16⟩
abbrev APLL_M.LOCK_CFG.TOLERANCE : Fld := ⟨0x40, 15, 8⟩
abbrev APLL_M.LOCK_CFG.WINDOWS : Fld := ⟨0x40, 7, 0⟩
abbrev APLL_M.LAST_COUNT.off : Nat := 0x44
abbrev APLL_M.LAST_COUNT.COUNT : Fld := ⟨0x44, 31, 0⟩
abbrev APLL_M.LOSSES.off : Nat := 0x48
abbrev APLL_M.LOSSES.COUNT : Fld := ⟨0x48, 31, 0⟩
abbrev APLL_M.TCLK_COUNT.off : Nat := 0x50
abbrev APLL_M.TCLK_COUNT.COUNT : Fld := ⟨0x50, 63, 0⟩
abbrev APLL_M.BLOCK_ID.off : Nat := 0x0
abbrev APLL_M.BLOCK_ID.TYPE : Fld := ⟨0x0, 31, 16⟩
abbrev APLL_M.BLOCK_ID.INSTANCE : Fld := ⟨0x0, 15, 8⟩
abbrev APLL_M.BLOCK_ID.HDR_VER : Fld := ⟨0x0, 7, 0⟩
abbrev APLL_M.BLOCK_VER.off : Nat := 0x4
abbrev APLL_M.BLOCK_VER.MAJOR : Fld := ⟨0x4, 23, 16⟩
abbrev APLL_M.BLOCK_VER.MINOR : Fld := ⟨0x4, 15, 8⟩
abbrev APLL_M.BLOCK_VER.PATCH : Fld := ⟨0x4, 7, 0⟩
abbrev APLL_M.CAPS.off : Nat := 0x8
abbrev APLL_M.CAPS.CAPS : Fld := ⟨0x8, 31, 0⟩
abbrev APLL_M.OWNER.off : Nat := 0xC
abbrev APLL_M.OWNER.OWNER_ID : Fld := ⟨0xC, 31, 16⟩
abbrev APLL_M.STATUS.off : Nat := 0x10
abbrev APLL_M.STATUS.SAFE : Fld := ⟨0x10, 31, 31⟩
abbrev APLL_M.STATUS.ERR : Fld := ⟨0x10, 30, 30⟩
abbrev APLL_M.STATUS.FROZEN_VIEW : Fld := ⟨0x10, 29, 29⟩
abbrev APLL_M.STATUS.LOCKED : Fld := ⟨0x10, 0, 0⟩
abbrev APLL_M.CONTROL.off : Nat := 0x14
abbrev APLL_M.CONTROL.ENABLE : Fld := ⟨0x14, 31, 31⟩
abbrev APLL_M.CONTROL.SAFE_EXIT : Fld := ⟨0x14, 30, 30⟩
abbrev APLL_M.IRQ_STATUS.off : Nat := 0x18
abbrev APLL_M.IRQ_STATUS.LOCK_LOST : Fld := ⟨0x18, 0, 0⟩
abbrev APLL_M.IRQ_ENABLE.off : Nat := 0x1C
abbrev APLL_M.IRQ_ENABLE.W : Fld := ⟨0x1C, 31, 0⟩
abbrev APLL_M.IRQ_VECTOR.off : Nat := 0x20
abbrev APLL_M.IRQ_VECTOR.VECTOR : Fld := ⟨0x20, 5, 0⟩
abbrev APLL_M.ERR_STATUS.off : Nat := 0x24
abbrev APLL_M.ERR_STATUS.UNLOCK : Fld := ⟨0x24, 0, 0⟩
abbrev APLL_M.ERR_INJECT.off : Nat := 0x28
abbrev APLL_M.ERR_INJECT.W : Fld := ⟨0x28, 31, 0⟩
abbrev APLL_M.LAST_CMD.off : Nat := 0x2C
abbrev APLL_M.LAST_CMD.DETAIL : Fld := ⟨0x2C, 31, 16⟩
abbrev APLL_M.LAST_CMD.RESULT : Fld := ⟨0x2C, 15, 12⟩
abbrev APLL_M.LAST_CMD.SEQ : Fld := ⟨0x2C, 11, 8⟩
abbrev APLL_M.LAST_CMD.CODE : Fld := ⟨0x2C, 7, 0⟩
abbrev APLL_M.COMMIT_CTL.off : Nat := 0x30
abbrev APLL_M.COMMIT_CTL.SHADOW_DIRTY : Fld := ⟨0x30, 9, 9⟩
abbrev APLL_M.COMMIT_CTL.PENDING : Fld := ⟨0x30, 8, 8⟩
abbrev APLL_M.COMMIT_CTL.ABORT : Fld := ⟨0x30, 5, 5⟩
abbrev APLL_M.COMMIT_CTL.GO : Fld := ⟨0x30, 4, 4⟩
abbrev APLL_M.COMMIT_CTL.MODE : Fld := ⟨0x30, 1, 0⟩
abbrev APLL_M.COMMIT_GROUP.off : Nat := 0x34
abbrev APLL_M.COMMIT_GROUP.GROUP : Fld := ⟨0x34, 3, 0⟩
abbrev APLL_M.WRITE_SEQ.off : Nat := 0x38
abbrev APLL_M.WRITE_SEQ.SHADOW_WRITES : Fld := ⟨0x38, 31, 16⟩
abbrev APLL_M.WRITE_SEQ.COMMIT_SEQ : Fld := ⟨0x38, 15, 0⟩
abbrev APLL_A.REF_CFG.off : Nat := 0x40
abbrev APLL_A.REF_CFG.PRE_DIV : Fld := ⟨0x40, 23, 16⟩
abbrev APLL_A.REF_CFG.REF_CHAN : Fld := ⟨0x40, 13, 8⟩
abbrev APLL_A.REF_CFG.REF_SRC : Fld := ⟨0x40, 0, 0⟩
abbrev APLL_A.LOCK_CFG.off : Nat := 0x44
abbrev APLL_A.LOCK_CFG.WINDOW_LOG2 : Fld := ⟨0x44, 20, 16⟩
abbrev APLL_A.LOCK_CFG.TOLERANCE : Fld := ⟨0x44, 11, 8⟩
abbrev APLL_A.LOCK_CFG.WINDOWS : Fld := ⟨0x44, 3, 0⟩
abbrev APLL_A.TARGET_INT.off : Nat := 0x48
abbrev APLL_A.TARGET_INT.N_INT : Fld := ⟨0x48, 9, 0⟩
abbrev APLL_A.TARGET_FRAC.off : Nat := 0x4C
abbrev APLL_A.TARGET_FRAC.N_FRAC : Fld := ⟨0x4C, 31, 0⟩
abbrev APLL_A.RAMP_US.off : Nat := 0x50
abbrev APLL_A.RAMP_US.US : Fld := ⟨0x50, 31, 0⟩
abbrev APLL_A.FREQ_CMD.off : Nat := 0x54
abbrev APLL_A.FREQ_CMD.CODE : Fld := ⟨0x54, 7, 0⟩
abbrev APLL_A.N_INT_NOW.off : Nat := 0x58
abbrev APLL_A.N_INT_NOW.N_INT : Fld := ⟨0x58, 9, 0⟩
abbrev APLL_A.N_FRAC_NOW.off : Nat := 0x5C
abbrev APLL_A.N_FRAC_NOW.N_FRAC : Fld := ⟨0x5C, 31, 0⟩
abbrev APLL_A.VCO_FREQ.off : Nat := 0x60
abbrev APLL_A.VCO_FREQ.FREQ : Fld := ⟨0x60, 63, 0⟩
abbrev APLL_A.SSC_CFG.off : Nat := 0x68
abbrev APLL_A.SSC_CFG.SSC_EN : Fld := ⟨0x68, 31, 31⟩
abbrev APLL_A.SSC_CFG.SSC_MODE : Fld := ⟨0x68, 17, 16⟩
abbrev APLL_A.SSC_CFG.DEPTH : Fld := ⟨0x68, 6, 0⟩
abbrev APLL_A.SSC_RATE.off : Nat := 0x6C
abbrev APLL_A.SSC_RATE.HZ : Fld := ⟨0x6C, 31, 0⟩
abbrev APLL_A.PROFILE_CTL.off : Nat := 0x70
abbrev APLL_A.PROFILE_CTL.LOOPS : Fld := ⟨0x70, 31, 16⟩
abbrev APLL_A.PROFILE_CTL.LEN : Fld := ⟨0x70, 5, 0⟩
abbrev APLL_A.PROFILE_POS.off : Nat := 0x74
abbrev APLL_A.PROFILE_POS.LOOP : Fld := ⟨0x74, 31, 16⟩
abbrev APLL_A.PROFILE_POS.POINT : Fld := ⟨0x74, 5, 0⟩
abbrev APLL_A.PROFILE_INT.off (i : Nat) : Nat := 0x200 + 0x10 * i
abbrev APLL_A.PROFILE_INT.N_INT (i : Nat) : Fld := ⟨0x200 + 0x10 * i, 9, 0⟩
abbrev APLL_A.PROFILE_FRAC.off (i : Nat) : Nat := 0x204 + 0x10 * i
abbrev APLL_A.PROFILE_FRAC.N_FRAC (i : Nat) : Fld := ⟨0x204 + 0x10 * i, 31, 0⟩
abbrev APLL_A.PROFILE_US.off (i : Nat) : Nat := 0x208 + 0x10 * i
abbrev APLL_A.PROFILE_US.US (i : Nat) : Fld := ⟨0x208 + 0x10 * i, 31, 0⟩
abbrev APLL_A.BLOCK_ID.off : Nat := 0x0
abbrev APLL_A.BLOCK_ID.TYPE : Fld := ⟨0x0, 31, 16⟩
abbrev APLL_A.BLOCK_ID.INSTANCE : Fld := ⟨0x0, 15, 8⟩
abbrev APLL_A.BLOCK_ID.HDR_VER : Fld := ⟨0x0, 7, 0⟩
abbrev APLL_A.BLOCK_VER.off : Nat := 0x4
abbrev APLL_A.BLOCK_VER.MAJOR : Fld := ⟨0x4, 23, 16⟩
abbrev APLL_A.BLOCK_VER.MINOR : Fld := ⟨0x4, 15, 8⟩
abbrev APLL_A.BLOCK_VER.PATCH : Fld := ⟨0x4, 7, 0⟩
abbrev APLL_A.CAPS.off : Nat := 0x8
abbrev APLL_A.CAPS.CAPS : Fld := ⟨0x8, 31, 0⟩
abbrev APLL_A.OWNER.off : Nat := 0xC
abbrev APLL_A.OWNER.OWNER_ID : Fld := ⟨0xC, 31, 16⟩
abbrev APLL_A.STATUS.off : Nat := 0x10
abbrev APLL_A.STATUS.SAFE : Fld := ⟨0x10, 31, 31⟩
abbrev APLL_A.STATUS.ERR : Fld := ⟨0x10, 30, 30⟩
abbrev APLL_A.STATUS.FROZEN_VIEW : Fld := ⟨0x10, 29, 29⟩
abbrev APLL_A.STATUS.SSC_ACTIVE : Fld := ⟨0x10, 3, 3⟩
abbrev APLL_A.STATUS.STATE : Fld := ⟨0x10, 2, 0⟩
abbrev APLL_A.CONTROL.off : Nat := 0x14
abbrev APLL_A.CONTROL.ENABLE : Fld := ⟨0x14, 31, 31⟩
abbrev APLL_A.CONTROL.SAFE_EXIT : Fld := ⟨0x14, 30, 30⟩
abbrev APLL_A.IRQ_STATUS.off : Nat := 0x18
abbrev APLL_A.IRQ_STATUS.PROFILE_DONE : Fld := ⟨0x18, 3, 3⟩
abbrev APLL_A.IRQ_STATUS.RAMP_DONE : Fld := ⟨0x18, 2, 2⟩
abbrev APLL_A.IRQ_STATUS.LOCK_LOST : Fld := ⟨0x18, 1, 1⟩
abbrev APLL_A.IRQ_STATUS.LOCKED : Fld := ⟨0x18, 0, 0⟩
abbrev APLL_A.IRQ_ENABLE.off : Nat := 0x1C
abbrev APLL_A.IRQ_ENABLE.W : Fld := ⟨0x1C, 31, 0⟩
abbrev APLL_A.IRQ_VECTOR.off : Nat := 0x20
abbrev APLL_A.IRQ_VECTOR.VECTOR : Fld := ⟨0x20, 5, 0⟩
abbrev APLL_A.ERR_STATUS.off : Nat := 0x24
abbrev APLL_A.ERR_STATUS.REF_LOST : Fld := ⟨0x24, 1, 1⟩
abbrev APLL_A.ERR_STATUS.UNLOCK : Fld := ⟨0x24, 0, 0⟩
abbrev APLL_A.ERR_INJECT.off : Nat := 0x28
abbrev APLL_A.ERR_INJECT.W : Fld := ⟨0x28, 31, 0⟩
abbrev APLL_A.LAST_CMD.off : Nat := 0x2C
abbrev APLL_A.LAST_CMD.DETAIL : Fld := ⟨0x2C, 31, 16⟩
abbrev APLL_A.LAST_CMD.RESULT : Fld := ⟨0x2C, 15, 12⟩
abbrev APLL_A.LAST_CMD.SEQ : Fld := ⟨0x2C, 11, 8⟩
abbrev APLL_A.LAST_CMD.CODE : Fld := ⟨0x2C, 7, 0⟩
abbrev APLL_A.COMMIT_CTL.off : Nat := 0x30
abbrev APLL_A.COMMIT_CTL.SHADOW_DIRTY : Fld := ⟨0x30, 9, 9⟩
abbrev APLL_A.COMMIT_CTL.PENDING : Fld := ⟨0x30, 8, 8⟩
abbrev APLL_A.COMMIT_CTL.ABORT : Fld := ⟨0x30, 5, 5⟩
abbrev APLL_A.COMMIT_CTL.GO : Fld := ⟨0x30, 4, 4⟩
abbrev APLL_A.COMMIT_CTL.MODE : Fld := ⟨0x30, 1, 0⟩
abbrev APLL_A.COMMIT_GROUP.off : Nat := 0x34
abbrev APLL_A.COMMIT_GROUP.GROUP : Fld := ⟨0x34, 3, 0⟩
abbrev APLL_A.WRITE_SEQ.off : Nat := 0x38
abbrev APLL_A.WRITE_SEQ.SHADOW_WRITES : Fld := ⟨0x38, 31, 16⟩
abbrev APLL_A.WRITE_SEQ.COMMIT_SEQ : Fld := ⟨0x38, 15, 0⟩
abbrev TSC.ANCHOR_N.off : Nat := 0x40
abbrev TSC.ANCHOR_N.COUNT : Fld := ⟨0x40, 63, 0⟩
abbrev TSC.ANCHOR_FRAC.off : Nat := 0x48
abbrev TSC.ANCHOR_FRAC.FRAC : Fld := ⟨0x48, 31, 0⟩
abbrev TSC.ANCHOR_T.off : Nat := 0x50
abbrev TSC.ANCHOR_T.INSTANT : Fld := ⟨0x50, 127, 0⟩
abbrev TSC.UTC_OFFSET.off : Nat := 0x60
abbrev TSC.UTC_OFFSET.OFFSET : Fld := ⟨0x60, 15, 0⟩
abbrev TSC.LEAP_CFG.off : Nat := 0x64
abbrev TSC.LEAP_CFG.LEAP_PENDING : Fld := ⟨0x64, 1, 0⟩
abbrev TSC.LEAP_INSTANT.off : Nat := 0x68
abbrev TSC.LEAP_INSTANT.SECONDS : Fld := ⟨0x68, 63, 0⟩
abbrev TSC.TEB_NOW.off : Nat := 0x70
abbrev TSC.TEB_NOW.TEB_PS : Fld := ⟨0x70, 31, 0⟩
abbrev TSC.REF_TERM.off : Nat := 0x74
abbrev TSC.REF_TERM.PS : Fld := ⟨0x74, 31, 0⟩
abbrev TSC.SERVO_TERM.off : Nat := 0x78
abbrev TSC.SERVO_TERM.PS : Fld := ⟨0x78, 31, 0⟩
abbrev TSC.AGE_TERM.off : Nat := 0x7C
abbrev TSC.AGE_TERM.PS : Fld := ⟨0x7C, 31, 0⟩
abbrev TSC.PATH_TERM.off : Nat := 0x80
abbrev TSC.PATH_TERM.PS : Fld := ⟨0x80, 31, 0⟩
abbrev TSC.U_Y.off : Nat := 0x84
abbrev TSC.U_Y.U : Fld := ⟨0x84, 31, 0⟩
abbrev TSC.U_Y_FLOOR.off : Nat := 0x88
abbrev TSC.U_Y_FLOOR.U : Fld := ⟨0x88, 31, 0⟩
abbrev TSC.TRACE_THRESH.off : Nat := 0x8C
abbrev TSC.TRACE_THRESH.PS : Fld := ⟨0x8C, 31, 0⟩
abbrev TSC.REPORT_CFG.off : Nat := 0x90
abbrev TSC.REPORT_CFG.REPORT_EN : Fld := ⟨0x90, 31, 31⟩
abbrev TSC.REPORT_CFG.REPORT_MS : Fld := ⟨0x90, 15, 0⟩
abbrev TSC.SEED_TEB.off : Nat := 0x94
abbrev TSC.SEED_TEB.PS : Fld := ⟨0x94, 31, 0⟩
abbrev TSC.SEED_BOUND.off : Nat := 0x98
abbrev TSC.SEED_BOUND.PS : Fld := ⟨0x98, 31, 0⟩
abbrev TSC.LAST_STEP.off : Nat := 0xA0
abbrev TSC.LAST_STEP.SPAN : Fld := ⟨0xA0, 95, 0⟩
abbrev TSC.STEP_COUNT.off : Nat := 0xAC
abbrev TSC.STEP_COUNT.COUNT : Fld := ⟨0xAC, 31, 0⟩
abbrev TSC.LAST_STEP_SLOT.off : Nat := 0xB0
abbrev TSC.LAST_STEP_SLOT.SLOT : Fld := ⟨0xB0, 63, 0⟩
abbrev TSC.BLOCK_ID.off : Nat := 0x0
abbrev TSC.BLOCK_ID.TYPE : Fld := ⟨0x0, 31, 16⟩
abbrev TSC.BLOCK_ID.INSTANCE : Fld := ⟨0x0, 15, 8⟩
abbrev TSC.BLOCK_ID.HDR_VER : Fld := ⟨0x0, 7, 0⟩
abbrev TSC.BLOCK_VER.off : Nat := 0x4
abbrev TSC.BLOCK_VER.MAJOR : Fld := ⟨0x4, 23, 16⟩
abbrev TSC.BLOCK_VER.MINOR : Fld := ⟨0x4, 15, 8⟩
abbrev TSC.BLOCK_VER.PATCH : Fld := ⟨0x4, 7, 0⟩
abbrev TSC.CAPS.off : Nat := 0x8
abbrev TSC.CAPS.CAPS : Fld := ⟨0x8, 31, 0⟩
abbrev TSC.OWNER.off : Nat := 0xC
abbrev TSC.OWNER.OWNER_ID : Fld := ⟨0xC, 31, 16⟩
abbrev TSC.STATUS.off : Nat := 0x10
abbrev TSC.STATUS.SAFE : Fld := ⟨0x10, 31, 31⟩
abbrev TSC.STATUS.ERR : Fld := ⟨0x10, 30, 30⟩
abbrev TSC.STATUS.FROZEN_VIEW : Fld := ⟨0x10, 29, 29⟩
abbrev TSC.STATUS.BELOW_THRESH : Fld := ⟨0x10, 4, 4⟩
abbrev TSC.STATUS.BASIS : Fld := ⟨0x10, 3, 0⟩
abbrev TSC.CONTROL.off : Nat := 0x14
abbrev TSC.CONTROL.ENABLE : Fld := ⟨0x14, 31, 31⟩
abbrev TSC.CONTROL.SAFE_EXIT : Fld := ⟨0x14, 30, 30⟩
abbrev TSC.IRQ_STATUS.off : Nat := 0x18
abbrev TSC.IRQ_STATUS.BASIS_CHANGE : Fld := ⟨0x18, 3, 3⟩
abbrev TSC.IRQ_STATUS.THRESH : Fld := ⟨0x18, 2, 2⟩
abbrev TSC.IRQ_STATUS.STEP : Fld := ⟨0x18, 1, 1⟩
abbrev TSC.IRQ_STATUS.LEAP : Fld := ⟨0x18, 0, 0⟩
abbrev TSC.IRQ_ENABLE.off : Nat := 0x1C
abbrev TSC.IRQ_ENABLE.W : Fld := ⟨0x1C, 31, 0⟩
abbrev TSC.IRQ_VECTOR.off : Nat := 0x20
abbrev TSC.IRQ_VECTOR.VECTOR : Fld := ⟨0x20, 5, 0⟩
abbrev TSC.ERR_STATUS.off : Nat := 0x24
abbrev TSC.ERR_STATUS.TEB_LOST : Fld := ⟨0x24, 0, 0⟩
abbrev TSC.ERR_INJECT.off : Nat := 0x28
abbrev TSC.ERR_INJECT.W : Fld := ⟨0x28, 31, 0⟩
abbrev TSC.LAST_CMD.off : Nat := 0x2C
abbrev TSC.LAST_CMD.DETAIL : Fld := ⟨0x2C, 31, 16⟩
abbrev TSC.LAST_CMD.RESULT : Fld := ⟨0x2C, 15, 12⟩
abbrev TSC.LAST_CMD.SEQ : Fld := ⟨0x2C, 11, 8⟩
abbrev TSC.LAST_CMD.CODE : Fld := ⟨0x2C, 7, 0⟩
abbrev TSC.COMMIT_CTL.off : Nat := 0x30
abbrev TSC.COMMIT_CTL.SHADOW_DIRTY : Fld := ⟨0x30, 9, 9⟩
abbrev TSC.COMMIT_CTL.PENDING : Fld := ⟨0x30, 8, 8⟩
abbrev TSC.COMMIT_CTL.ABORT : Fld := ⟨0x30, 5, 5⟩
abbrev TSC.COMMIT_CTL.GO : Fld := ⟨0x30, 4, 4⟩
abbrev TSC.COMMIT_CTL.MODE : Fld := ⟨0x30, 1, 0⟩
abbrev TSC.COMMIT_GROUP.off : Nat := 0x34
abbrev TSC.COMMIT_GROUP.GROUP : Fld := ⟨0x34, 3, 0⟩
abbrev TSC.WRITE_SEQ.off : Nat := 0x38
abbrev TSC.WRITE_SEQ.SHADOW_WRITES : Fld := ⟨0x38, 31, 16⟩
abbrev TSC.WRITE_SEQ.COMMIT_SEQ : Fld := ⟨0x38, 15, 0⟩
abbrev DOMAIN.DOM_CFG.off : Nat := 0x40
abbrev DOMAIN.DOM_CFG.DISAGREE_COUNT : Fld := ⟨0x40, 23, 16⟩
abbrev DOMAIN.DOM_CFG.SWITCH_MODE : Fld := ⟨0x40, 8, 8⟩
abbrev DOMAIN.DOM_CFG.SEC_REF : Fld := ⟨0x40, 2, 0⟩
abbrev DOMAIN.DISAGREE_MARGIN.off : Nat := 0x44
abbrev DOMAIN.DISAGREE_MARGIN.PS : Fld := ⟨0x44, 31, 0⟩
abbrev DOMAIN.PATH_STEP_THRESHOLD.off : Nat := 0x48
abbrev DOMAIN.PATH_STEP_THRESHOLD.PS : Fld := ⟨0x48, 31, 0⟩
abbrev DOMAIN.DOM_CMD.off : Nat := 0x4C
abbrev DOMAIN.DOM_CMD.CODE : Fld := ⟨0x4C, 7, 0⟩
abbrev DOMAIN.PRI_OFFSET.off : Nat := 0x50
abbrev DOMAIN.PRI_OFFSET.SPAN : Fld := ⟨0x50, 95, 0⟩
abbrev DOMAIN.PRI_TEB.off : Nat := 0x5C
abbrev DOMAIN.PRI_TEB.PS : Fld := ⟨0x5C, 31, 0⟩
abbrev DOMAIN.SEC_OFFSET.off : Nat := 0x60
abbrev DOMAIN.SEC_OFFSET.SPAN : Fld := ⟨0x60, 95, 0⟩
abbrev DOMAIN.SEC_TEB.off : Nat := 0x6C
abbrev DOMAIN.SEC_TEB.PS : Fld := ⟨0x6C, 31, 0⟩
abbrev DOMAIN.DIFF.off : Nat := 0x70
abbrev DOMAIN.DIFF.SPAN : Fld := ⟨0x70, 95, 0⟩
abbrev DOMAIN.DIFF_BOUND.off : Nat := 0x7C
abbrev DOMAIN.DIFF_BOUND.PS : Fld := ⟨0x7C, 31, 0⟩
abbrev DOMAIN.PATH_EVENT.off : Nat := 0x80
abbrev DOMAIN.PATH_EVENT.OPEN : Fld := ⟨0x80, 31, 31⟩
abbrev DOMAIN.PATH_EVENT.VERDICT : Fld := ⟨0x80, 27, 24⟩
abbrev DOMAIN.PATH_EVENT.REFS : Fld := ⟨0x80, 7, 0⟩
abbrev DOMAIN.PATH_STEP.off : Nat := 0x90
abbrev DOMAIN.PATH_STEP.SPAN : Fld := ⟨0x90, 95, 0⟩
abbrev DOMAIN.PATH_WIDEN.off : Nat := 0x9C
abbrev DOMAIN.PATH_WIDEN.PS : Fld := ⟨0x9C, 31, 0⟩
abbrev DOMAIN.PATH_BASE.off : Nat := 0xA0
abbrev DOMAIN.PATH_BASE.SPAN : Fld := ⟨0xA0, 95, 0⟩
abbrev DOMAIN.SWITCHES.off : Nat := 0xB0
abbrev DOMAIN.SWITCHES.COUNT : Fld := ⟨0xB0, 31, 0⟩
abbrev DOMAIN.DISAGREES.off : Nat := 0xB4
abbrev DOMAIN.DISAGREES.COUNT : Fld := ⟨0xB4, 31, 0⟩
abbrev DOMAIN.TRACE.off : Nat := 0x400
abbrev DOMAIN.TRACE.RECORD : Fld := ⟨0x400, 3199, 0⟩
abbrev DOMAIN.BLOCK_ID.off : Nat := 0x0
abbrev DOMAIN.BLOCK_ID.TYPE : Fld := ⟨0x0, 31, 16⟩
abbrev DOMAIN.BLOCK_ID.INSTANCE : Fld := ⟨0x0, 15, 8⟩
abbrev DOMAIN.BLOCK_ID.HDR_VER : Fld := ⟨0x0, 7, 0⟩
abbrev DOMAIN.BLOCK_VER.off : Nat := 0x4
abbrev DOMAIN.BLOCK_VER.MAJOR : Fld := ⟨0x4, 23, 16⟩
abbrev DOMAIN.BLOCK_VER.MINOR : Fld := ⟨0x4, 15, 8⟩
abbrev DOMAIN.BLOCK_VER.PATCH : Fld := ⟨0x4, 7, 0⟩
abbrev DOMAIN.CAPS.off : Nat := 0x8
abbrev DOMAIN.CAPS.CAPS : Fld := ⟨0x8, 31, 0⟩
abbrev DOMAIN.OWNER.off : Nat := 0xC
abbrev DOMAIN.OWNER.OWNER_ID : Fld := ⟨0xC, 31, 16⟩
abbrev DOMAIN.STATUS.off : Nat := 0x10
abbrev DOMAIN.STATUS.SAFE : Fld := ⟨0x10, 31, 31⟩
abbrev DOMAIN.STATUS.ERR : Fld := ⟨0x10, 30, 30⟩
abbrev DOMAIN.STATUS.FROZEN_VIEW : Fld := ⟨0x10, 29, 29⟩
abbrev DOMAIN.STATUS.DISAGREE : Fld := ⟨0x10, 7, 7⟩
abbrev DOMAIN.STATUS.PATH_CHANGE : Fld := ⟨0x10, 6, 6⟩
abbrev DOMAIN.STATUS.SEC_VALID : Fld := ⟨0x10, 5, 5⟩
abbrev DOMAIN.STATUS.TRACE_EXPIRED : Fld := ⟨0x10, 4, 4⟩
abbrev DOMAIN.STATUS.PRIMARY : Fld := ⟨0x10, 2, 0⟩
abbrev DOMAIN.CONTROL.off : Nat := 0x14
abbrev DOMAIN.CONTROL.ENABLE : Fld := ⟨0x14, 31, 31⟩
abbrev DOMAIN.CONTROL.SAFE_EXIT : Fld := ⟨0x14, 30, 30⟩
abbrev DOMAIN.IRQ_STATUS.off : Nat := 0x18
abbrev DOMAIN.IRQ_STATUS.TRACE : Fld := ⟨0x18, 4, 4⟩
abbrev DOMAIN.IRQ_STATUS.PATH_RESOLVED : Fld := ⟨0x18, 3, 3⟩
abbrev DOMAIN.IRQ_STATUS.SWITCHED : Fld := ⟨0x18, 2, 2⟩
abbrev DOMAIN.IRQ_STATUS.PATH_CHANGE : Fld := ⟨0x18, 1, 1⟩
abbrev DOMAIN.IRQ_STATUS.DISAGREE : Fld := ⟨0x18, 0, 0⟩
abbrev DOMAIN.IRQ_ENABLE.off : Nat := 0x1C
abbrev DOMAIN.IRQ_ENABLE.W : Fld := ⟨0x1C, 31, 0⟩
abbrev DOMAIN.IRQ_VECTOR.off : Nat := 0x20
abbrev DOMAIN.IRQ_VECTOR.VECTOR : Fld := ⟨0x20, 5, 0⟩
abbrev DOMAIN.ERR_STATUS.off : Nat := 0x24
abbrev DOMAIN.ERR_STATUS.PATH_CHANGE : Fld := ⟨0x24, 1, 1⟩
abbrev DOMAIN.ERR_STATUS.DOMAIN_DISAGREE : Fld := ⟨0x24, 0, 0⟩
abbrev DOMAIN.ERR_INJECT.off : Nat := 0x28
abbrev DOMAIN.ERR_INJECT.W : Fld := ⟨0x28, 31, 0⟩
abbrev DOMAIN.LAST_CMD.off : Nat := 0x2C
abbrev DOMAIN.LAST_CMD.DETAIL : Fld := ⟨0x2C, 31, 16⟩
abbrev DOMAIN.LAST_CMD.RESULT : Fld := ⟨0x2C, 15, 12⟩
abbrev DOMAIN.LAST_CMD.SEQ : Fld := ⟨0x2C, 11, 8⟩
abbrev DOMAIN.LAST_CMD.CODE : Fld := ⟨0x2C, 7, 0⟩
abbrev DOMAIN.COMMIT_CTL.off : Nat := 0x30
abbrev DOMAIN.COMMIT_CTL.SHADOW_DIRTY : Fld := ⟨0x30, 9, 9⟩
abbrev DOMAIN.COMMIT_CTL.PENDING : Fld := ⟨0x30, 8, 8⟩
abbrev DOMAIN.COMMIT_CTL.ABORT : Fld := ⟨0x30, 5, 5⟩
abbrev DOMAIN.COMMIT_CTL.GO : Fld := ⟨0x30, 4, 4⟩
abbrev DOMAIN.COMMIT_CTL.MODE : Fld := ⟨0x30, 1, 0⟩
abbrev DOMAIN.COMMIT_GROUP.off : Nat := 0x34
abbrev DOMAIN.COMMIT_GROUP.GROUP : Fld := ⟨0x34, 3, 0⟩
abbrev DOMAIN.WRITE_SEQ.off : Nat := 0x38
abbrev DOMAIN.WRITE_SEQ.SHADOW_WRITES : Fld := ⟨0x38, 31, 16⟩
abbrev DOMAIN.WRITE_SEQ.COMMIT_SEQ : Fld := ⟨0x38, 15, 0⟩
abbrev XO.OVEN_SETPOINT.off : Nat := 0x40
abbrev XO.OVEN_SETPOINT.TEMP : Fld := ⟨0x40, 15, 0⟩
abbrev XO.OVEN_TEMP.off : Nat := 0x44
abbrev XO.OVEN_TEMP.TEMP : Fld := ⟨0x44, 31, 0⟩
abbrev XO.HEATER.off : Nat := 0x48
abbrev XO.HEATER.MW : Fld := ⟨0x48, 15, 0⟩
abbrev XO.WARM_S.off : Nat := 0x4C
abbrev XO.WARM_S.S : Fld := ⟨0x4C, 31, 0⟩
abbrev XO.TC_K1.off : Nat := 0x50
abbrev XO.TC_K1.K : Fld := ⟨0x50, 31, 0⟩
abbrev XO.TC_K2.off : Nat := 0x54
abbrev XO.TC_K2.K : Fld := ⟨0x54, 31, 0⟩
abbrev XO.TC_K3.off : Nat := 0x58
abbrev XO.TC_K3.K : Fld := ⟨0x58, 31, 0⟩
abbrev XO.AGE_T0.off : Nat := 0x60
abbrev XO.AGE_T0.INSTANT : Fld := ⟨0x60, 127, 0⟩
abbrev XO.AGE_A.off : Nat := 0x70
abbrev XO.AGE_A.A : Fld := ⟨0x70, 63, 0⟩
abbrev XO.AGE_B.off : Nat := 0x78
abbrev XO.AGE_B.B : Fld := ⟨0x78, 31, 0⟩
abbrev XO.AGE_C.off : Nat := 0x7C
abbrev XO.AGE_C.C : Fld := ⟨0x7C, 31, 0⟩
abbrev XO.U_A.off : Nat := 0x80
abbrev XO.U_A.U : Fld := ⟨0x80, 31, 0⟩
abbrev XO.U_TC.off : Nat := 0x84
abbrev XO.U_TC.U : Fld := ⟨0x84, 31, 0⟩
abbrev XO.LOCK_DAYS.off : Nat := 0x88
abbrev XO.LOCK_DAYS.DAYS : Fld := ⟨0x88, 31, 0⟩
abbrev XO.Y_TC.off : Nat := 0x90
abbrev XO.Y_TC.Y : Fld := ⟨0x90, 63, 0⟩
abbrev XO.Y_AGE.off : Nat := 0x98
abbrev XO.Y_AGE.Y : Fld := ⟨0x98, 63, 0⟩
abbrev XO.FIT_CTL.off : Nat := 0xA0
abbrev XO.FIT_CTL.FIT_RESET : Fld := ⟨0xA0, 1, 1⟩
abbrev XO.FIT_CTL.FIT_ENABLE : Fld := ⟨0xA0, 0, 0⟩
abbrev XO.BLOCK_ID.off : Nat := 0x0
abbrev XO.BLOCK_ID.TYPE : Fld := ⟨0x0, 31, 16⟩
abbrev XO.BLOCK_ID.INSTANCE : Fld := ⟨0x0, 15, 8⟩
abbrev XO.BLOCK_ID.HDR_VER : Fld := ⟨0x0, 7, 0⟩
abbrev XO.BLOCK_VER.off : Nat := 0x4
abbrev XO.BLOCK_VER.MAJOR : Fld := ⟨0x4, 23, 16⟩
abbrev XO.BLOCK_VER.MINOR : Fld := ⟨0x4, 15, 8⟩
abbrev XO.BLOCK_VER.PATCH : Fld := ⟨0x4, 7, 0⟩
abbrev XO.CAPS.off : Nat := 0x8
abbrev XO.CAPS.CAPS : Fld := ⟨0x8, 31, 0⟩
abbrev XO.OWNER.off : Nat := 0xC
abbrev XO.OWNER.OWNER_ID : Fld := ⟨0xC, 31, 16⟩
abbrev XO.STATUS.off : Nat := 0x10
abbrev XO.STATUS.SAFE : Fld := ⟨0x10, 31, 31⟩
abbrev XO.STATUS.ERR : Fld := ⟨0x10, 30, 30⟩
abbrev XO.STATUS.FROZEN_VIEW : Fld := ⟨0x10, 29, 29⟩
abbrev XO.STATUS.MODEL_VALID : Fld := ⟨0x10, 2, 2⟩
abbrev XO.STATUS.OVEN : Fld := ⟨0x10, 1, 0⟩
abbrev XO.CONTROL.off : Nat := 0x14
abbrev XO.CONTROL.ENABLE : Fld := ⟨0x14, 31, 31⟩
abbrev XO.CONTROL.SAFE_EXIT : Fld := ⟨0x14, 30, 30⟩
abbrev XO.IRQ_STATUS.off : Nat := 0x18
abbrev XO.IRQ_STATUS.FIT_UPDATED : Fld := ⟨0x18, 1, 1⟩
abbrev XO.IRQ_STATUS.OVEN_STABLE : Fld := ⟨0x18, 0, 0⟩
abbrev XO.IRQ_ENABLE.off : Nat := 0x1C
abbrev XO.IRQ_ENABLE.W : Fld := ⟨0x1C, 31, 0⟩
abbrev XO.IRQ_VECTOR.off : Nat := 0x20
abbrev XO.IRQ_VECTOR.VECTOR : Fld := ⟨0x20, 5, 0⟩
abbrev XO.ERR_STATUS.off : Nat := 0x24
abbrev XO.ERR_STATUS.XTAL_FAULT : Fld := ⟨0x24, 1, 1⟩
abbrev XO.ERR_STATUS.OVEN_FAULT : Fld := ⟨0x24, 0, 0⟩
abbrev XO.ERR_INJECT.off : Nat := 0x28
abbrev XO.ERR_INJECT.W : Fld := ⟨0x28, 31, 0⟩
abbrev XO.LAST_CMD.off : Nat := 0x2C
abbrev XO.LAST_CMD.DETAIL : Fld := ⟨0x2C, 31, 16⟩
abbrev XO.LAST_CMD.RESULT : Fld := ⟨0x2C, 15, 12⟩
abbrev XO.LAST_CMD.SEQ : Fld := ⟨0x2C, 11, 8⟩
abbrev XO.LAST_CMD.CODE : Fld := ⟨0x2C, 7, 0⟩
abbrev XO.COMMIT_CTL.off : Nat := 0x30
abbrev XO.COMMIT_CTL.SHADOW_DIRTY : Fld := ⟨0x30, 9, 9⟩
abbrev XO.COMMIT_CTL.PENDING : Fld := ⟨0x30, 8, 8⟩
abbrev XO.COMMIT_CTL.ABORT : Fld := ⟨0x30, 5, 5⟩
abbrev XO.COMMIT_CTL.GO : Fld := ⟨0x30, 4, 4⟩
abbrev XO.COMMIT_CTL.MODE : Fld := ⟨0x30, 1, 0⟩
abbrev XO.COMMIT_GROUP.off : Nat := 0x34
abbrev XO.COMMIT_GROUP.GROUP : Fld := ⟨0x34, 3, 0⟩
abbrev XO.WRITE_SEQ.off : Nat := 0x38
abbrev XO.WRITE_SEQ.SHADOW_WRITES : Fld := ⟨0x38, 31, 16⟩
abbrev XO.WRITE_SEQ.COMMIT_SEQ : Fld := ⟨0x38, 15, 0⟩
abbrev EAVE.CAL_NOW.off : Nat := 0x40
abbrev EAVE.CAL_NOW.SECONDS : Fld := ⟨0x40, 62, 15⟩
abbrev EAVE.CAL_NOW.SUBSEC : Fld := ⟨0x40, 14, 0⟩
abbrev EAVE.CAL_FRAC.off : Nat := 0x48
abbrev EAVE.CAL_FRAC.FRAC : Fld := ⟨0x48, 15, 0⟩
abbrev EAVE.CAL_UNC.off : Nat := 0x50
abbrev EAVE.CAL_UNC.NS : Fld := ⟨0x50, 63, 0⟩
abbrev EAVE.CAL_SET.off : Nat := 0x58
abbrev EAVE.CAL_SET.VALUE : Fld := ⟨0x58, 63, 0⟩
abbrev EAVE.CAL_SET_UNC.off : Nat := 0x60
abbrev EAVE.CAL_SET_UNC.NS : Fld := ⟨0x60, 63, 0⟩
abbrev EAVE.CAL_CMD.off : Nat := 0x68
abbrev EAVE.CAL_CMD.CODE : Fld := ⟨0x68, 7, 0⟩
abbrev EAVE.CAL_CFG.off : Nat := 0x6C
abbrev EAVE.CAL_CFG.AUTO_SYNC : Fld := ⟨0x6C, 31, 31⟩
abbrev EAVE.CAL_CFG.TRIM : Fld := ⟨0x6C, 8, 0⟩
abbrev EAVE.DRIFT_PPB.off : Nat := 0x70
abbrev EAVE.DRIFT_PPB.PPB : Fld := ⟨0x70, 31, 0⟩
abbrev EAVE.CAL_ERR.off : Nat := 0x74
abbrev EAVE.CAL_ERR.NS : Fld := ⟨0x74, 31, 0⟩
abbrev EAVE.LAST_SYNC.off : Nat := 0x78
abbrev EAVE.LAST_SYNC.SECONDS : Fld := ⟨0x78, 63, 0⟩
abbrev EAVE.UTC_OFFSET.off : Nat := 0x80
abbrev EAVE.UTC_OFFSET.OFFSET : Fld := ⟨0x80, 15, 0⟩
abbrev EAVE.LEAP_CFG.off : Nat := 0x84
abbrev EAVE.LEAP_CFG.LEAP_PENDING : Fld := ⟨0x84, 1, 0⟩
abbrev EAVE.LEAP_INSTANT.off : Nat := 0x88
abbrev EAVE.LEAP_INSTANT.SECONDS : Fld := ⟨0x88, 63, 0⟩
abbrev EAVE.UTC_DATE.off : Nat := 0x90
abbrev EAVE.UTC_DATE.YEAR : Fld := ⟨0x90, 31, 16⟩
abbrev EAVE.UTC_DATE.WEEKDAY : Fld := ⟨0x90, 14, 12⟩
abbrev EAVE.UTC_DATE.MONTH : Fld := ⟨0x90, 11, 8⟩
abbrev EAVE.UTC_DATE.DAY : Fld := ⟨0x90, 4, 0⟩
abbrev EAVE.UTC_TIME.off : Nat := 0x94
abbrev EAVE.UTC_TIME.HOUR : Fld := ⟨0x94, 20, 16⟩
abbrev EAVE.UTC_TIME.MINUTE : Fld := ⟨0x94, 13, 8⟩
abbrev EAVE.UTC_TIME.SECOND : Fld := ⟨0x94, 5, 0⟩
abbrev EAVE.ALARM_AT.off : Nat := 0x98
abbrev EAVE.ALARM_AT.SECONDS : Fld := ⟨0x98, 63, 0⟩
abbrev EAVE.MON_TICK.off : Nat := 0xA0
abbrev EAVE.MON_TICK.TICK_SEL : Fld := ⟨0xA0, 3, 0⟩
abbrev EAVE.LATCH.off : Nat := 0xA4
abbrev EAVE.LATCH.LATCH : Fld := ⟨0xA4, 7, 0⟩
abbrev EAVE.LAST_SAMPLE.off : Nat := 0xA8
abbrev EAVE.LAST_SAMPLE.OUTSIDE : Fld := ⟨0xA8, 7, 0⟩
abbrev EAVE.MON_CFG.off (i : Nat) : Nat := 0xC0 + 0x8 * i
abbrev EAVE.MON_CFG.ENABLE (i : Nat) : Fld := ⟨0xC0 + 0x8 * i, 31, 31⟩
abbrev EAVE.MON_CFG.CLEAR_MODE (i : Nat) : Fld := ⟨0xC0 + 0x8 * i, 30, 30⟩
abbrev EAVE.MON_CFG.LOG_ON_LATCH (i : Nat) : Fld := ⟨0xC0 + 0x8 * i, 29, 29⟩
abbrev EAVE.MON_CFG.SOURCE (i : Nat) : Fld := ⟨0xC0 + 0x8 * i, 26, 24⟩
abbrev EAVE.MON_CFG.HI (i : Nat) : Fld := ⟨0xC0 + 0x8 * i, 19, 10⟩
abbrev EAVE.MON_CFG.LO (i : Nat) : Fld := ⟨0xC0 + 0x8 * i, 9, 0⟩
abbrev EAVE.MON_STATE.off (i : Nat) : Nat := 0xC4 + 0x8 * i
abbrev EAVE.MON_STATE.ABOVE (i : Nat) : Fld := ⟨0xC4 + 0x8 * i, 1, 1⟩
abbrev EAVE.MON_STATE.BELOW (i : Nat) : Fld := ⟨0xC4 + 0x8 * i, 0, 0⟩
abbrev EAVE.PWR_CFG.off : Nat := 0x100
abbrev EAVE.PWR_CFG.WAKE_AUTO : Fld := ⟨0x100, 31, 31⟩
abbrev EAVE.PWR_CFG.WAKE_SENSE : Fld := ⟨0x100, 25, 24⟩
abbrev EAVE.PWR_CFG.DOWN_DELAY_MS : Fld := ⟨0x100, 15, 0⟩
abbrev EAVE.PWR_CMD.off : Nat := 0x104
abbrev EAVE.PWR_CMD.CODE : Fld := ⟨0x104, 7, 0⟩
abbrev EAVE.PWR_STATE.off : Nat := 0x108
abbrev EAVE.PWR_STATE.CAUSE : Fld := ⟨0x108, 7, 4⟩
abbrev EAVE.PWR_STATE.DOWN_PENDING : Fld := ⟨0x108, 1, 1⟩
abbrev EAVE.PWR_STATE.PWR_EN : Fld := ⟨0x108, 0, 0⟩
abbrev EAVE.PROG_CTL.off : Nat := 0x110
abbrev EAVE.PROG_CTL.RUN : Fld := ⟨0x110, 0, 0⟩
abbrev EAVE.PROG_STATE.off : Nat := 0x114
abbrev EAVE.PROG_STATE.FLAGS : Fld := ⟨0x114, 31, 24⟩
abbrev EAVE.PROG_STATE.FAULT : Fld := ⟨0x114, 8, 8⟩
abbrev EAVE.PROG_STATE.LAST_PC : Fld := ⟨0x114, 5, 0⟩
abbrev EAVE.PROG_CNT.off : Nat := 0x118
abbrev EAVE.PROG_CNT.COUNTERS : Fld := ⟨0x118, 31, 0⟩
abbrev EAVE.I2C_CFG.off : Nat := 0x120
abbrev EAVE.I2C_CFG.I2C_AGENT : Fld := ⟨0x120, 31, 16⟩
abbrev EAVE.I2C_CFG.I2C_LOCK : Fld := ⟨0x120, 0, 0⟩
abbrev EAVE.LOG_STATE.off : Nat := 0x130
abbrev EAVE.LOG_STATE.SEQ_NEXT : Fld := ⟨0x130, 31, 8⟩
abbrev EAVE.LOG_STATE.WRAPPED : Fld := ⟨0x130, 7, 7⟩
abbrev EAVE.LOG_STATE.HEAD : Fld := ⟨0x130, 5, 0⟩
abbrev EAVE.LOG_CMD.off : Nat := 0x134
abbrev EAVE.LOG_CMD.CODE : Fld := ⟨0x134, 7, 0⟩
abbrev EAVE.PROG.off (i : Nat) : Nat := 0x300 + 0x4 * i
abbrev EAVE.PROG.INSTR_HI (i : Nat) : Fld := ⟨0x300 + 0x4 * i, 31, 16⟩
abbrev EAVE.PROG.INSTR_LO (i : Nat) : Fld := ⟨0x300 + 0x4 * i, 15, 0⟩
abbrev EAVE.LOG.off (i : Nat) : Nat := 0x400 + 0x10 * i
abbrev EAVE.LOG.ENTRY (i : Nat) : Fld := ⟨0x400 + 0x10 * i, 127, 0⟩
abbrev EAVE.BLOCK_ID.off : Nat := 0x0
abbrev EAVE.BLOCK_ID.TYPE : Fld := ⟨0x0, 31, 16⟩
abbrev EAVE.BLOCK_ID.INSTANCE : Fld := ⟨0x0, 15, 8⟩
abbrev EAVE.BLOCK_ID.HDR_VER : Fld := ⟨0x0, 7, 0⟩
abbrev EAVE.BLOCK_VER.off : Nat := 0x4
abbrev EAVE.BLOCK_VER.MAJOR : Fld := ⟨0x4, 23, 16⟩
abbrev EAVE.BLOCK_VER.MINOR : Fld := ⟨0x4, 15, 8⟩
abbrev EAVE.BLOCK_VER.PATCH : Fld := ⟨0x4, 7, 0⟩
abbrev EAVE.CAPS.off : Nat := 0x8
abbrev EAVE.CAPS.CAPS : Fld := ⟨0x8, 31, 0⟩
abbrev EAVE.OWNER.off : Nat := 0xC
abbrev EAVE.OWNER.OWNER_ID : Fld := ⟨0xC, 31, 16⟩
abbrev EAVE.STATUS.off : Nat := 0x10
abbrev EAVE.STATUS.SAFE : Fld := ⟨0x10, 31, 31⟩
abbrev EAVE.STATUS.ERR : Fld := ⟨0x10, 30, 30⟩
abbrev EAVE.STATUS.FROZEN_VIEW : Fld := ⟨0x10, 29, 29⟩
abbrev EAVE.STATUS.LATCHED : Fld := ⟨0x10, 23, 16⟩
abbrev EAVE.STATUS.ALERT : Fld := ⟨0x10, 8, 8⟩
abbrev EAVE.STATUS.PROG_RUN : Fld := ⟨0x10, 7, 7⟩
abbrev EAVE.STATUS.PWR_EN : Fld := ⟨0x10, 6, 6⟩
abbrev EAVE.STATUS.VBAT_LOW : Fld := ⟨0x10, 5, 5⟩
abbrev EAVE.STATUS.ON_VBAT : Fld := ⟨0x10, 4, 4⟩
abbrev EAVE.STATUS.MAIN_ON : Fld := ⟨0x10, 3, 3⟩
abbrev EAVE.STATUS.CAL_VALID : Fld := ⟨0x10, 2, 2⟩
abbrev EAVE.CONTROL.off : Nat := 0x14
abbrev EAVE.CONTROL.ENABLE : Fld := ⟨0x14, 31, 31⟩
abbrev EAVE.CONTROL.SAFE_EXIT : Fld := ⟨0x14, 30, 30⟩
abbrev EAVE.IRQ_STATUS.off : Nat := 0x18
abbrev EAVE.IRQ_STATUS.POWER_DOWN : Fld := ⟨0x18, 5, 5⟩
abbrev EAVE.IRQ_STATUS.WAKE : Fld := ⟨0x18, 4, 4⟩
abbrev EAVE.IRQ_STATUS.ALARM : Fld := ⟨0x18, 3, 3⟩
abbrev EAVE.IRQ_STATUS.SWITCHOVER : Fld := ⟨0x18, 2, 2⟩
abbrev EAVE.IRQ_STATUS.LOG_WRAP : Fld := ⟨0x18, 1, 1⟩
abbrev EAVE.IRQ_STATUS.LATCH : Fld := ⟨0x18, 0, 0⟩
abbrev EAVE.IRQ_ENABLE.off : Nat := 0x1C
abbrev EAVE.IRQ_ENABLE.W : Fld := ⟨0x1C, 31, 0⟩
abbrev EAVE.IRQ_VECTOR.off : Nat := 0x20
abbrev EAVE.IRQ_VECTOR.VECTOR : Fld := ⟨0x20, 5, 0⟩
abbrev EAVE.ERR_STATUS.off : Nat := 0x24
abbrev EAVE.ERR_STATUS.XT32_FAULT : Fld := ⟨0x24, 3, 3⟩
abbrev EAVE.ERR_STATUS.VBAT_LOW : Fld := ⟨0x24, 2, 2⟩
abbrev EAVE.ERR_STATUS.SRAM_ECC : Fld := ⟨0x24, 1, 1⟩
abbrev EAVE.ERR_STATUS.CAL_LOST : Fld := ⟨0x24, 0, 0⟩
abbrev EAVE.ERR_INJECT.off : Nat := 0x28
abbrev EAVE.ERR_INJECT.W : Fld := ⟨0x28, 31, 0⟩
abbrev EAVE.LAST_CMD.off : Nat := 0x2C
abbrev EAVE.LAST_CMD.DETAIL : Fld := ⟨0x2C, 31, 16⟩
abbrev EAVE.LAST_CMD.RESULT : Fld := ⟨0x2C, 15, 12⟩
abbrev EAVE.LAST_CMD.SEQ : Fld := ⟨0x2C, 11, 8⟩
abbrev EAVE.LAST_CMD.CODE : Fld := ⟨0x2C, 7, 0⟩
abbrev EAVE.COMMIT_CTL.off : Nat := 0x30
abbrev EAVE.COMMIT_CTL.SHADOW_DIRTY : Fld := ⟨0x30, 9, 9⟩
abbrev EAVE.COMMIT_CTL.PENDING : Fld := ⟨0x30, 8, 8⟩
abbrev EAVE.COMMIT_CTL.ABORT : Fld := ⟨0x30, 5, 5⟩
abbrev EAVE.COMMIT_CTL.GO : Fld := ⟨0x30, 4, 4⟩
abbrev EAVE.COMMIT_CTL.MODE : Fld := ⟨0x30, 1, 0⟩
abbrev EAVE.COMMIT_GROUP.off : Nat := 0x34
abbrev EAVE.COMMIT_GROUP.GROUP : Fld := ⟨0x34, 3, 0⟩
abbrev EAVE.WRITE_SEQ.off : Nat := 0x38
abbrev EAVE.WRITE_SEQ.SHADOW_WRITES : Fld := ⟨0x38, 31, 16⟩
abbrev EAVE.WRITE_SEQ.COMMIT_SEQ : Fld := ⟨0x38, 15, 0⟩
abbrev GUTTER.GUT_CFG.off : Nat := 0x40
abbrev GUTTER.GUT_CFG.INJ_ENABLE : Fld := ⟨0x40, 31, 31⟩
abbrev GUTTER.GUT_CFG.INJ_QUIET : Fld := ⟨0x40, 30, 30⟩
abbrev GUTTER.GUT_CFG.INJ_HOLD : Fld := ⟨0x40, 7, 0⟩
abbrev GUTTER.GUTTER_CMD.off : Nat := 0x44
abbrev GUTTER.GUTTER_CMD.LINE : Fld := ⟨0x44, 30, 30⟩
abbrev GUTTER.GUTTER_CMD.SOURCE : Fld := ⟨0x44, 22, 16⟩
abbrev GUTTER.GUTTER_CMD.CODE : Fld := ⟨0x44, 7, 0⟩
abbrev GUTTER.FF_INFO.off : Nat := 0x50
abbrev GUTTER.FF_INFO.VALID : Fld := ⟨0x50, 31, 31⟩
abbrev GUTTER.FF_INFO.INJECTED : Fld := ⟨0x50, 30, 30⟩
abbrev GUTTER.FF_INFO.REAL : Fld := ⟨0x50, 29, 29⟩
abbrev GUTTER.FF_INFO.LINE : Fld := ⟨0x50, 28, 28⟩
abbrev GUTTER.FF_INFO.SEVERITY : Fld := ⟨0x50, 25, 24⟩
abbrev GUTTER.FF_INFO.SOURCE : Fld := ⟨0x50, 22, 16⟩
abbrev GUTTER.FF_INFO.PAGE : Fld := ⟨0x50, 15, 8⟩
abbrev GUTTER.FF_INFO.BIT : Fld := ⟨0x50, 4, 0⟩
abbrev GUTTER.FF_REACT.off : Nat := 0x54
abbrev GUTTER.FF_REACT.REACT : Fld := ⟨0x54, 4, 0⟩
abbrev GUTTER.FF_SLOT.off : Nat := 0x58
abbrev GUTTER.FF_SLOT.SLOT : Fld := ⟨0x58, 63, 0⟩
abbrev GUTTER.FF_INSTANT.off : Nat := 0x60
abbrev GUTTER.FF_INSTANT.INSTANT : Fld := ⟨0x60, 127, 0⟩
abbrev GUTTER.FF_SIMUL.off : Nat := 0x70
abbrev GUTTER.FF_SIMUL.SOURCES : Fld := ⟨0x70, 127, 0⟩
abbrev GUTTER.FF_LATER.off : Nat := 0x80
abbrev GUTTER.FF_LATER.COUNT : Fld := ⟨0x80, 31, 0⟩
abbrev GUTTER.FAULT_EVENTS.off : Nat := 0x84
abbrev GUTTER.FAULT_EVENTS.COUNT : Fld := ⟨0x84, 31, 0⟩
abbrev GUTTER.SAFE_CAUSE.off : Nat := 0x88
abbrev GUTTER.SAFE_CAUSE.VALID : Fld := ⟨0x88, 31, 31⟩
abbrev GUTTER.SAFE_CAUSE.SELF : Fld := ⟨0x88, 30, 30⟩
abbrev GUTTER.SAFE_CAUSE.COMMAND : Fld := ⟨0x88, 29, 29⟩
abbrev GUTTER.SAFE_CAUSE.SOURCE : Fld := ⟨0x88, 6, 0⟩
abbrev GUTTER.LINE_FAULT_MAP.off : Nat := 0x90
abbrev GUTTER.LINE_FAULT_MAP.SOURCES : Fld := ⟨0x90, 127, 0⟩
abbrev GUTTER.ACTIVE.off : Nat := 0xA0
abbrev GUTTER.ACTIVE.SOURCES : Fld := ⟨0xA0, 127, 0⟩
abbrev GUTTER.SRC_CFG.off (i : Nat) : Nat := 0x200 + 0x4 * i
abbrev GUTTER.SRC_CFG.MIN_SEV (i : Nat) : Fld := ⟨0x200 + 0x4 * i, 25, 24⟩
abbrev GUTTER.SRC_CFG.SEVERITY (i : Nat) : Fld := ⟨0x200 + 0x4 * i, 17, 16⟩
abbrev GUTTER.SRC_CFG.REACT (i : Nat) : Fld := ⟨0x200 + 0x4 * i, 4, 0⟩
abbrev GUTTER.SOURCE_COUNT.off (i : Nat) : Nat := 0x400 + 0x4 * i
abbrev GUTTER.SOURCE_COUNT.COUNT (i : Nat) : Fld := ⟨0x400 + 0x4 * i, 31, 0⟩
abbrev GUTTER.BLOCK_ID.off : Nat := 0x0
abbrev GUTTER.BLOCK_ID.TYPE : Fld := ⟨0x0, 31, 16⟩
abbrev GUTTER.BLOCK_ID.INSTANCE : Fld := ⟨0x0, 15, 8⟩
abbrev GUTTER.BLOCK_ID.HDR_VER : Fld := ⟨0x0, 7, 0⟩
abbrev GUTTER.BLOCK_VER.off : Nat := 0x4
abbrev GUTTER.BLOCK_VER.MAJOR : Fld := ⟨0x4, 23, 16⟩
abbrev GUTTER.BLOCK_VER.MINOR : Fld := ⟨0x4, 15, 8⟩
abbrev GUTTER.BLOCK_VER.PATCH : Fld := ⟨0x4, 7, 0⟩
abbrev GUTTER.CAPS.off : Nat := 0x8
abbrev GUTTER.CAPS.CAPS : Fld := ⟨0x8, 31, 0⟩
abbrev GUTTER.OWNER.off : Nat := 0xC
abbrev GUTTER.OWNER.OWNER_ID : Fld := ⟨0xC, 31, 16⟩
abbrev GUTTER.STATUS.off : Nat := 0x10
abbrev GUTTER.STATUS.SAFE : Fld := ⟨0x10, 31, 31⟩
abbrev GUTTER.STATUS.ERR : Fld := ⟨0x10, 30, 30⟩
abbrev GUTTER.STATUS.FROZEN_VIEW : Fld := ⟨0x10, 29, 29⟩
abbrev GUTTER.STATUS.SELF_FAULT : Fld := ⟨0x10, 5, 5⟩
abbrev GUTTER.STATUS.PAIR_FAULT : Fld := ⟨0x10, 4, 4⟩
abbrev GUTTER.STATUS.OTP_COLLECTED : Fld := ⟨0x10, 3, 3⟩
abbrev GUTTER.STATUS.MODE : Fld := ⟨0x10, 2, 2⟩
abbrev GUTTER.STATUS.FF_VALID : Fld := ⟨0x10, 1, 1⟩
abbrev GUTTER.STATUS.ANY_ACTIVE : Fld := ⟨0x10, 0, 0⟩
abbrev GUTTER.CONTROL.off : Nat := 0x14
abbrev GUTTER.CONTROL.ENABLE : Fld := ⟨0x14, 31, 31⟩
abbrev GUTTER.CONTROL.SAFE_EXIT : Fld := ⟨0x14, 30, 30⟩
abbrev GUTTER.IRQ_STATUS.off : Nat := 0x18
abbrev GUTTER.IRQ_STATUS.SELF_FAULT : Fld := ⟨0x18, 3, 3⟩
abbrev GUTTER.IRQ_STATUS.LINE_FAULT : Fld := ⟨0x18, 2, 2⟩
abbrev GUTTER.IRQ_STATUS.FIRST_FAULT : Fld := ⟨0x18, 1, 1⟩
abbrev GUTTER.IRQ_STATUS.FAULT : Fld := ⟨0x18, 0, 0⟩
abbrev GUTTER.IRQ_ENABLE.off : Nat := 0x1C
abbrev GUTTER.IRQ_ENABLE.W : Fld := ⟨0x1C, 31, 0⟩
abbrev GUTTER.IRQ_VECTOR.off : Nat := 0x20
abbrev GUTTER.IRQ_VECTOR.VECTOR : Fld := ⟨0x20, 5, 0⟩
abbrev GUTTER.ERR_STATUS.off : Nat := 0x24
abbrev GUTTER.ERR_STATUS.PAIR_SENSE : Fld := ⟨0x24, 1, 1⟩
abbrev GUTTER.ERR_STATUS.ECC_CORR : Fld := ⟨0x24, 0, 0⟩
abbrev GUTTER.ERR_INJECT.off : Nat := 0x28
abbrev GUTTER.ERR_INJECT.W : Fld := ⟨0x28, 31, 0⟩
abbrev GUTTER.LAST_CMD.off : Nat := 0x2C
abbrev GUTTER.LAST_CMD.DETAIL : Fld := ⟨0x2C, 31, 16⟩
abbrev GUTTER.LAST_CMD.RESULT : Fld := ⟨0x2C, 15, 12⟩
abbrev GUTTER.LAST_CMD.SEQ : Fld := ⟨0x2C, 11, 8⟩
abbrev GUTTER.LAST_CMD.CODE : Fld := ⟨0x2C, 7, 0⟩
abbrev GUTTER.COMMIT_CTL.off : Nat := 0x30
abbrev GUTTER.COMMIT_CTL.SHADOW_DIRTY : Fld := ⟨0x30, 9, 9⟩
abbrev GUTTER.COMMIT_CTL.PENDING : Fld := ⟨0x30, 8, 8⟩
abbrev GUTTER.COMMIT_CTL.ABORT : Fld := ⟨0x30, 5, 5⟩
abbrev GUTTER.COMMIT_CTL.GO : Fld := ⟨0x30, 4, 4⟩
abbrev GUTTER.COMMIT_CTL.MODE : Fld := ⟨0x30, 1, 0⟩
abbrev GUTTER.COMMIT_GROUP.off : Nat := 0x34
abbrev GUTTER.COMMIT_GROUP.GROUP : Fld := ⟨0x34, 3, 0⟩
abbrev GUTTER.WRITE_SEQ.off : Nat := 0x38
abbrev GUTTER.WRITE_SEQ.SHADOW_WRITES : Fld := ⟨0x38, 31, 16⟩
abbrev GUTTER.WRITE_SEQ.COMMIT_SEQ : Fld := ⟨0x38, 15, 0⟩
abbrev FLASH.FL_CMD.off : Nat := 0x40
abbrev FLASH.FL_CMD.CODE : Fld := ⟨0x40, 7, 0⟩
abbrev FLASH.FL_OFFSET.off : Nat := 0x44
abbrev FLASH.FL_OFFSET.OFFSET : Fld := ⟨0x44, 31, 0⟩
abbrev FLASH.FL_LENGTH.off : Nat := 0x48
abbrev FLASH.FL_LENGTH.BYTES : Fld := ⟨0x48, 31, 0⟩
abbrev FLASH.FL_HOST_ADDR.off : Nat := 0x50
abbrev FLASH.FL_HOST_ADDR.ADDR : Fld := ⟨0x50, 63, 0⟩
abbrev FLASH.FL_ARG.off : Nat := 0x58
abbrev FLASH.FL_ARG.COMPONENT : Fld := ⟨0x58, 10, 8⟩
abbrev FLASH.FL_ARG.SLOT : Fld := ⟨0x58, 0, 0⟩
abbrev FLASH.FL_CONFIG.off : Nat := 0x60
abbrev FLASH.FL_CONFIG.CONFIRM_WINDOW_S : Fld := ⟨0x60, 31, 16⟩
abbrev FLASH.FL_CONFIG.CONFIRM_POLICY : Fld := ⟨0x60, 0, 0⟩
abbrev FLASH.TRIAL_STATE.off : Nat := 0x64
abbrev FLASH.TRIAL_STATE.WINDOW_LEFT_S : Fld := ⟨0x64, 31, 16⟩
abbrev FLASH.TRIAL_STATE.HEALTHY : Fld := ⟨0x64, 10, 10⟩
abbrev FLASH.TRIAL_STATE.BOOTS_LEFT : Fld := ⟨0x64, 9, 8⟩
abbrev FLASH.TRIAL_STATE.COMPONENT : Fld := ⟨0x64, 2, 0⟩
abbrev FLASH.LAST_OUTCOME.off : Nat := 0x68
abbrev FLASH.LAST_OUTCOME.REASON : Fld := ⟨0x68, 15, 12⟩
abbrev FLASH.LAST_OUTCOME.COMPONENT : Fld := ⟨0x68, 2, 0⟩
abbrev FLASH.COPY_STATE.off : Nat := 0x6C
abbrev FLASH.COPY_STATE.BLOCKS_DONE : Fld := ⟨0x6C, 31, 16⟩
abbrev FLASH.COPY_STATE.BLOCKS_TOTAL : Fld := ⟨0x6C, 15, 0⟩
abbrev FLASH.DOWNLOAD_COUNT.off : Nat := 0x70
abbrev FLASH.DOWNLOAD_COUNT.BYTES : Fld := ⟨0x70, 31, 0⟩
abbrev FLASH.CHECK_IFACE.off : Nat := 0x74
abbrev FLASH.CHECK_IFACE.IFACE : Fld := ⟨0x74, 31, 16⟩
abbrev FLASH.CHECK_IFACE.REQUIRER : Fld := ⟨0x74, 10, 8⟩
abbrev FLASH.CHECK_IFACE.PROVIDER : Fld := ⟨0x74, 2, 0⟩
abbrev FLASH.CHECK_VERSIONS.off : Nat := 0x78
abbrev FLASH.CHECK_VERSIONS.REQ_MAJOR : Fld := ⟨0x78, 31, 24⟩
abbrev FLASH.CHECK_VERSIONS.REQ_MINOR : Fld := ⟨0x78, 23, 16⟩
abbrev FLASH.CHECK_VERSIONS.PROV_MAJOR : Fld := ⟨0x78, 15, 8⟩
abbrev FLASH.CHECK_VERSIONS.PROV_MINOR : Fld := ⟨0x78, 7, 0⟩
abbrev FLASH.VERSION.off (i : Nat) : Nat := 0x80 + 0x10 * i
abbrev FLASH.VERSION.VERSION (i : Nat) : Fld := ⟨0x80 + 0x10 * i, 31, 0⟩
abbrev FLASH.SLOT.off (i : Nat) : Nat := 0x84 + 0x10 * i
abbrev FLASH.SLOT.OTP_SEC_VER (i : Nat) : Fld := ⟨0x84 + 0x10 * i, 31, 24⟩
abbrev FLASH.SLOT.IMAGE_SEC_VER (i : Nat) : Fld := ⟨0x84 + 0x10 * i, 23, 16⟩
abbrev FLASH.SLOT.OTHER_VALID (i : Nat) : Fld := ⟨0x84 + 0x10 * i, 8, 8⟩
abbrev FLASH.SLOT.ACTIVE (i : Nat) : Fld := ⟨0x84 + 0x10 * i, 0, 0⟩
abbrev FLASH.OTHER_VERSION.off (i : Nat) : Nat := 0x88 + 0x10 * i
abbrev FLASH.OTHER_VERSION.VERSION (i : Nat) : Fld := ⟨0x88 + 0x10 * i, 31, 0⟩
abbrev FLASH.SCHEMA.off : Nat := 0xD0
abbrev FLASH.SCHEMA.IN_USE : Fld := ⟨0xD0, 31, 16⟩
abbrev FLASH.SCHEMA.OTHER : Fld := ⟨0xD0, 15, 0⟩
abbrev FLASH.MANIFEST_STATE.off : Nat := 0xE0
abbrev FLASH.MANIFEST_STATE.NEXT_INDEX : Fld := ⟨0xE0, 11, 8⟩
abbrev FLASH.MANIFEST_STATE.ENTRIES : Fld := ⟨0xE0, 3, 0⟩
abbrev FLASH.OTP_INFO.off : Nat := 0xF0
abbrev FLASH.OTP_INFO.OWNER_ENROLLED : Fld := ⟨0xF0, 31, 31⟩
abbrev FLASH.OTP_INFO.KEY_REVOKED : Fld := ⟨0xF0, 3, 0⟩
abbrev FLASH.DEVICE_UID.off : Nat := 0xF8
abbrev FLASH.DEVICE_UID.UID : Fld := ⟨0xF8, 63, 0⟩
abbrev FLASH.HANDOVER_INFO.off : Nat := 0x100
abbrev FLASH.HANDOVER_INFO.MAJOR : Fld := ⟨0x100, 15, 8⟩
abbrev FLASH.HANDOVER_INFO.MINOR : Fld := ⟨0x100, 7, 0⟩
abbrev FLASH.RESTARTS.off : Nat := 0x104
abbrev FLASH.RESTARTS.COUNT : Fld := ⟨0x104, 31, 0⟩
abbrev FLASH.LAST_RESTART.off : Nat := 0x108
abbrev FLASH.LAST_RESTART.MS : Fld := ⟨0x108, 31, 0⟩
abbrev FLASH.DATA_WINDOW.off (i : Nat) : Nat := 0x400 + 0x4 * i
abbrev FLASH.DATA_WINDOW.WORD (i : Nat) : Fld := ⟨0x400 + 0x4 * i, 31, 0⟩
abbrev FLASH.BLOCK_ID.off : Nat := 0x0
abbrev FLASH.BLOCK_ID.TYPE : Fld := ⟨0x0, 31, 16⟩
abbrev FLASH.BLOCK_ID.INSTANCE : Fld := ⟨0x0, 15, 8⟩
abbrev FLASH.BLOCK_ID.HDR_VER : Fld := ⟨0x0, 7, 0⟩
abbrev FLASH.BLOCK_VER.off : Nat := 0x4
abbrev FLASH.BLOCK_VER.MAJOR : Fld := ⟨0x4, 23, 16⟩
abbrev FLASH.BLOCK_VER.MINOR : Fld := ⟨0x4, 15, 8⟩
abbrev FLASH.BLOCK_VER.PATCH : Fld := ⟨0x4, 7, 0⟩
abbrev FLASH.CAPS.off : Nat := 0x8
abbrev FLASH.CAPS.CAPS : Fld := ⟨0x8, 31, 0⟩
abbrev FLASH.OWNER.off : Nat := 0xC
abbrev FLASH.OWNER.OWNER_ID : Fld := ⟨0xC, 31, 16⟩
abbrev FLASH.STATUS.off : Nat := 0x10
abbrev FLASH.STATUS.SAFE : Fld := ⟨0x10, 31, 31⟩
abbrev FLASH.STATUS.ERR : Fld := ⟨0x10, 30, 30⟩
abbrev FLASH.STATUS.FROZEN_VIEW : Fld := ⟨0x10, 29, 29⟩
abbrev FLASH.STATUS.REDUCED : Fld := ⟨0x10, 9, 9⟩
abbrev FLASH.STATUS.RECOVERY : Fld := ⟨0x10, 8, 8⟩
abbrev FLASH.STATUS.RESTARTING : Fld := ⟨0x10, 7, 7⟩
abbrev FLASH.STATUS.COPYING : Fld := ⟨0x10, 6, 6⟩
abbrev FLASH.STATUS.TRIAL : Fld := ⟨0x10, 5, 5⟩
abbrev FLASH.STATUS.MANIFEST_ACTIVE : Fld := ⟨0x10, 4, 4⟩
abbrev FLASH.STATUS.STAGING_STATE : Fld := ⟨0x10, 3, 0⟩
abbrev FLASH.CONTROL.off : Nat := 0x14
abbrev FLASH.CONTROL.ENABLE : Fld := ⟨0x14, 31, 31⟩
abbrev FLASH.CONTROL.SAFE_EXIT : Fld := ⟨0x14, 30, 30⟩
abbrev FLASH.IRQ_STATUS.off : Nat := 0x18
abbrev FLASH.IRQ_STATUS.DMA_ERROR : Fld := ⟨0x18, 5, 5⟩
abbrev FLASH.IRQ_STATUS.FALLBACK : Fld := ⟨0x18, 4, 4⟩
abbrev FLASH.IRQ_STATUS.CONFIRMED : Fld := ⟨0x18, 3, 3⟩
abbrev FLASH.IRQ_STATUS.COPY_DONE : Fld := ⟨0x18, 2, 2⟩
abbrev FLASH.IRQ_STATUS.RESTARTED : Fld := ⟨0x18, 1, 1⟩
abbrev FLASH.IRQ_STATUS.DOWNLOAD_DONE : Fld := ⟨0x18, 0, 0⟩
abbrev FLASH.IRQ_ENABLE.off : Nat := 0x1C
abbrev FLASH.IRQ_ENABLE.W : Fld := ⟨0x1C, 31, 0⟩
abbrev FLASH.IRQ_VECTOR.off : Nat := 0x20
abbrev FLASH.IRQ_VECTOR.VECTOR : Fld := ⟨0x20, 5, 0⟩
abbrev FLASH.ERR_STATUS.off : Nat := 0x24
abbrev FLASH.ERR_STATUS.FALLBACK : Fld := ⟨0x24, 2, 2⟩
abbrev FLASH.ERR_STATUS.FLASH_IO : Fld := ⟨0x24, 1, 1⟩
abbrev FLASH.ERR_STATUS.VERIFY_FAIL : Fld := ⟨0x24, 0, 0⟩
abbrev FLASH.ERR_INJECT.off : Nat := 0x28
abbrev FLASH.ERR_INJECT.W : Fld := ⟨0x28, 31, 0⟩
abbrev FLASH.LAST_CMD.off : Nat := 0x2C
abbrev FLASH.LAST_CMD.DETAIL : Fld := ⟨0x2C, 31, 16⟩
abbrev FLASH.LAST_CMD.RESULT : Fld := ⟨0x2C, 15, 12⟩
abbrev FLASH.LAST_CMD.SEQ : Fld := ⟨0x2C, 11, 8⟩
abbrev FLASH.LAST_CMD.CODE : Fld := ⟨0x2C, 7, 0⟩
abbrev FLASH.COMMIT_CTL.off : Nat := 0x30
abbrev FLASH.COMMIT_CTL.SHADOW_DIRTY : Fld := ⟨0x30, 9, 9⟩
abbrev FLASH.COMMIT_CTL.PENDING : Fld := ⟨0x30, 8, 8⟩
abbrev FLASH.COMMIT_CTL.ABORT : Fld := ⟨0x30, 5, 5⟩
abbrev FLASH.COMMIT_CTL.GO : Fld := ⟨0x30, 4, 4⟩
abbrev FLASH.COMMIT_CTL.MODE : Fld := ⟨0x30, 1, 0⟩
abbrev FLASH.COMMIT_GROUP.off : Nat := 0x34
abbrev FLASH.COMMIT_GROUP.GROUP : Fld := ⟨0x34, 3, 0⟩
abbrev FLASH.WRITE_SEQ.off : Nat := 0x38
abbrev FLASH.WRITE_SEQ.SHADOW_WRITES : Fld := ⟨0x38, 31, 16⟩
abbrev FLASH.WRITE_SEQ.COMMIT_SEQ : Fld := ⟨0x38, 15, 0⟩
abbrev HOSTQ.RING_BASE.off (i : Nat) : Nat := 0x40 + 0x20 * i
abbrev HOSTQ.RING_BASE.BASE (i : Nat) : Fld := ⟨0x40 + 0x20 * i, 63, 0⟩
abbrev HOSTQ.RING_WB.off (i : Nat) : Nat := 0x48 + 0x20 * i
abbrev HOSTQ.RING_WB.WB (i : Nat) : Fld := ⟨0x48 + 0x20 * i, 63, 0⟩
abbrev HOSTQ.RING_CFG.off (i : Nat) : Nat := 0x50 + 0x20 * i
abbrev HOSTQ.RING_CFG.KIND (i : Nat) : Fld := ⟨0x50 + 0x20 * i, 31, 28⟩
abbrev HOSTQ.RING_CFG.BIND (i : Nat) : Fld := ⟨0x50 + 0x20 * i, 27, 20⟩
abbrev HOSTQ.RING_CFG.ELEM (i : Nat) : Fld := ⟨0x50 + 0x20 * i, 19, 18⟩
abbrev HOSTQ.RING_CFG.VECTOR (i : Nat) : Fld := ⟨0x50 + 0x20 * i, 15, 10⟩
abbrev HOSTQ.RING_CFG.LOG2_ENTRIES (i : Nat) : Fld := ⟨0x50 + 0x20 * i, 4, 0⟩
abbrev HOSTQ.RING_CTRL.off (i : Nat) : Nat := 0x54 + 0x20 * i
abbrev HOSTQ.RING_CTRL.ENABLE (i : Nat) : Fld := ⟨0x54 + 0x20 * i, 31, 31⟩
abbrev HOSTQ.RING_CTRL.STOPPED (i : Nat) : Fld := ⟨0x54 + 0x20 * i, 30, 30⟩
abbrev HOSTQ.RING_CTRL.MOD_COUNT (i : Nat) : Fld := ⟨0x54 + 0x20 * i, 23, 16⟩
abbrev HOSTQ.RING_CTRL.MOD_TIME (i : Nat) : Fld := ⟨0x54 + 0x20 * i, 15, 0⟩
abbrev HOSTQ.DOORBELL.off (i : Nat) : Nat := 0x58 + 0x20 * i
abbrev HOSTQ.DOORBELL.HOST_IDX (i : Nat) : Fld := ⟨0x58 + 0x20 * i, 31, 0⟩
abbrev HOSTQ.DEV_IDX.off (i : Nat) : Nat := 0x5C + 0x20 * i
abbrev HOSTQ.DEV_IDX.DEV_IDX (i : Nat) : Fld := ⟨0x5C + 0x20 * i, 31, 0⟩
abbrev HOSTQ.RING_LOST.off (i : Nat) : Nat := 0x440 + 0x4 * i
abbrev HOSTQ.RING_LOST.LOST (i : Nat) : Fld := ⟨0x440 + 0x4 * i, 31, 0⟩
abbrev HOSTQ.BAD_ACCESS_COUNT.off : Nat := 0x4C0
abbrev HOSTQ.BAD_ACCESS_COUNT.COUNT : Fld := ⟨0x4C0, 31, 0⟩
abbrev HOSTQ.BAR2_DROP_COUNT.off : Nat := 0x4C4
abbrev HOSTQ.BAR2_DROP_COUNT.COUNT : Fld := ⟨0x4C4, 31, 0⟩
abbrev HOSTQ.BLOCK_ID.off : Nat := 0x0
abbrev HOSTQ.BLOCK_ID.TYPE : Fld := ⟨0x0, 31, 16⟩
abbrev HOSTQ.BLOCK_ID.INSTANCE : Fld := ⟨0x0, 15, 8⟩
abbrev HOSTQ.BLOCK_ID.HDR_VER : Fld := ⟨0x0, 7, 0⟩
abbrev HOSTQ.BLOCK_VER.off : Nat := 0x4
abbrev HOSTQ.BLOCK_VER.MAJOR : Fld := ⟨0x4, 23, 16⟩
abbrev HOSTQ.BLOCK_VER.MINOR : Fld := ⟨0x4, 15, 8⟩
abbrev HOSTQ.BLOCK_VER.PATCH : Fld := ⟨0x4, 7, 0⟩
abbrev HOSTQ.CAPS.off : Nat := 0x8
abbrev HOSTQ.CAPS.CAPS : Fld := ⟨0x8, 31, 0⟩
abbrev HOSTQ.OWNER.off : Nat := 0xC
abbrev HOSTQ.OWNER.OWNER_ID : Fld := ⟨0xC, 31, 16⟩
abbrev HOSTQ.STATUS.off : Nat := 0x10
abbrev HOSTQ.STATUS.SAFE : Fld := ⟨0x10, 31, 31⟩
abbrev HOSTQ.STATUS.ERR : Fld := ⟨0x10, 30, 30⟩
abbrev HOSTQ.STATUS.FROZEN_VIEW : Fld := ⟨0x10, 29, 29⟩
abbrev HOSTQ.CONTROL.off : Nat := 0x14
abbrev HOSTQ.CONTROL.ENABLE : Fld := ⟨0x14, 31, 31⟩
abbrev HOSTQ.CONTROL.SAFE_EXIT : Fld := ⟨0x14, 30, 30⟩
abbrev HOSTQ.IRQ_STATUS.off : Nat := 0x18
abbrev HOSTQ.IRQ_ENABLE.off : Nat := 0x1C
abbrev HOSTQ.IRQ_ENABLE.W : Fld := ⟨0x1C, 31, 0⟩
abbrev HOSTQ.IRQ_VECTOR.off : Nat := 0x20
abbrev HOSTQ.IRQ_VECTOR.VECTOR : Fld := ⟨0x20, 5, 0⟩
abbrev HOSTQ.ERR_STATUS.off : Nat := 0x24
abbrev HOSTQ.ERR_STATUS.BAD_ACCESS : Fld := ⟨0x24, 0, 0⟩
abbrev HOSTQ.ERR_STATUS.BAR2_DROP : Fld := ⟨0x24, 1, 1⟩
abbrev HOSTQ.ERR_STATUS.RING_DMA : Fld := ⟨0x24, 2, 2⟩
abbrev HOSTQ.ERR_INJECT.off : Nat := 0x28
abbrev HOSTQ.ERR_INJECT.W : Fld := ⟨0x28, 31, 0⟩
abbrev HOSTQ.LAST_CMD.off : Nat := 0x2C
abbrev HOSTQ.LAST_CMD.DETAIL : Fld := ⟨0x2C, 31, 16⟩
abbrev HOSTQ.LAST_CMD.RESULT : Fld := ⟨0x2C, 15, 12⟩
abbrev HOSTQ.LAST_CMD.SEQ : Fld := ⟨0x2C, 11, 8⟩
abbrev HOSTQ.LAST_CMD.CODE : Fld := ⟨0x2C, 7, 0⟩
abbrev HOSTQ.COMMIT_CTL.off : Nat := 0x30
abbrev HOSTQ.COMMIT_CTL.SHADOW_DIRTY : Fld := ⟨0x30, 9, 9⟩
abbrev HOSTQ.COMMIT_CTL.PENDING : Fld := ⟨0x30, 8, 8⟩
abbrev HOSTQ.COMMIT_CTL.ABORT : Fld := ⟨0x30, 5, 5⟩
abbrev HOSTQ.COMMIT_CTL.GO : Fld := ⟨0x30, 4, 4⟩
abbrev HOSTQ.COMMIT_CTL.MODE : Fld := ⟨0x30, 1, 0⟩
abbrev HOSTQ.COMMIT_GROUP.off : Nat := 0x34
abbrev HOSTQ.COMMIT_GROUP.GROUP : Fld := ⟨0x34, 3, 0⟩
abbrev HOSTQ.WRITE_SEQ.off : Nat := 0x38
abbrev HOSTQ.WRITE_SEQ.SHADOW_WRITES : Fld := ⟨0x38, 31, 16⟩
abbrev HOSTQ.WRITE_SEQ.COMMIT_SEQ : Fld := ⟨0x38, 15, 0⟩
abbrev OWN.WINDOW.off (i : Nat) : Nat := 0x40 + 0x4 * i
abbrev OWN.WINDOW.AGENT (i : Nat) : Fld := ⟨0x40 + 0x4 * i, 31, 16⟩
abbrev OWN.WINDOW.READ_ONLY (i : Nat) : Fld := ⟨0x40 + 0x4 * i, 1, 1⟩
abbrev OWN.WINDOW.ADMIN (i : Nat) : Fld := ⟨0x40 + 0x4 * i, 0, 0⟩
abbrev OWN.BAR2_AGENT.off : Nat := 0x80
abbrev OWN.BAR2_AGENT.AGENT : Fld := ⟨0x80, 31, 16⟩
abbrev OWN.REMOTE_CTL.off : Nat := 0x84
abbrev OWN.REMOTE_CTL.REMOTE_ENABLE : Fld := ⟨0x84, 1, 1⟩
abbrev OWN.REMOTE_CTL.REMOTE_ADMIN : Fld := ⟨0x84, 0, 0⟩
abbrev OWN.CLAIM_ARG.off : Nat := 0x90
abbrev OWN.CLAIM_ARG.COUNT : Fld := ⟨0x90, 31, 16⟩
abbrev OWN.CLAIM_ARG.FIRST : Fld := ⟨0x90, 15, 0⟩
abbrev OWN.CLAIM_CMD.off : Nat := 0x94
abbrev OWN.CLAIM_CMD.AGENT : Fld := ⟨0x94, 31, 16⟩
abbrev OWN.CLAIM_CMD.RES_TYPE : Fld := ⟨0x94, 15, 8⟩
abbrev OWN.CLAIM_CMD.CODE : Fld := ⟨0x94, 7, 0⟩
abbrev OWN.LEASE_PERIOD.off (i : Nat) : Nat := 0x100 + 0x10 * i
abbrev OWN.LEASE_PERIOD.PERIOD_US (i : Nat) : Fld := ⟨0x100 + 0x10 * i, 31, 0⟩
abbrev OWN.LEASE_CTL.off (i : Nat) : Nat := 0x104 + 0x10 * i
abbrev OWN.LEASE_CTL.ARMED (i : Nat) : Fld := ⟨0x104 + 0x10 * i, 17, 17⟩
abbrev OWN.LEASE_CTL.EXPIRED (i : Nat) : Fld := ⟨0x104 + 0x10 * i, 16, 16⟩
abbrev OWN.LEASE_CTL.KICK (i : Nat) : Fld := ⟨0x104 + 0x10 * i, 8, 8⟩
abbrev OWN.LEASE_CTL.ORPHAN (i : Nat) : Fld := ⟨0x104 + 0x10 * i, 0, 0⟩
abbrev OWN.LEASE_LEFT.off (i : Nat) : Nat := 0x108 + 0x10 * i
abbrev OWN.LEASE_LEFT.LEFT_US (i : Nat) : Fld := ⟨0x108 + 0x10 * i, 31, 0⟩
abbrev OWN.CONFLICT_COUNT.off : Nat := 0x200
abbrev OWN.CONFLICT_COUNT.COUNT : Fld := ⟨0x200, 31, 0⟩
abbrev OWN.CONFLICT_WHO.off : Nat := 0x204
abbrev OWN.CONFLICT_WHO.REQUESTER : Fld := ⟨0x204, 31, 16⟩
abbrev OWN.CONFLICT_WHO.HOLDER : Fld := ⟨0x204, 15, 0⟩
abbrev OWN.CONFLICT_WHERE.off : Nat := 0x208
abbrev OWN.CONFLICT_WHERE.PAGE : Fld := ⟨0x208, 27, 16⟩
abbrev OWN.CONFLICT_WHERE.OFFSET : Fld := ⟨0x208, 11, 0⟩
abbrev OWN.BLOCK_ID.off : Nat := 0x0
abbrev OWN.BLOCK_ID.TYPE : Fld := ⟨0x0, 31, 16⟩
abbrev OWN.BLOCK_ID.INSTANCE : Fld := ⟨0x0, 15, 8⟩
abbrev OWN.BLOCK_ID.HDR_VER : Fld := ⟨0x0, 7, 0⟩
abbrev OWN.BLOCK_VER.off : Nat := 0x4
abbrev OWN.BLOCK_VER.MAJOR : Fld := ⟨0x4, 23, 16⟩
abbrev OWN.BLOCK_VER.MINOR : Fld := ⟨0x4, 15, 8⟩
abbrev OWN.BLOCK_VER.PATCH : Fld := ⟨0x4, 7, 0⟩
abbrev OWN.CAPS.off : Nat := 0x8
abbrev OWN.CAPS.CAPS : Fld := ⟨0x8, 31, 0⟩
abbrev OWN.OWNER.off : Nat := 0xC
abbrev OWN.OWNER.OWNER_ID : Fld := ⟨0xC, 31, 16⟩
abbrev OWN.STATUS.off : Nat := 0x10
abbrev OWN.STATUS.SAFE : Fld := ⟨0x10, 31, 31⟩
abbrev OWN.STATUS.ERR : Fld := ⟨0x10, 30, 30⟩
abbrev OWN.STATUS.FROZEN_VIEW : Fld := ⟨0x10, 29, 29⟩
abbrev OWN.CONTROL.off : Nat := 0x14
abbrev OWN.CONTROL.ENABLE : Fld := ⟨0x14, 31, 31⟩
abbrev OWN.CONTROL.SAFE_EXIT : Fld := ⟨0x14, 30, 30⟩
abbrev OWN.IRQ_STATUS.off : Nat := 0x18
abbrev OWN.IRQ_ENABLE.off : Nat := 0x1C
abbrev OWN.IRQ_ENABLE.W : Fld := ⟨0x1C, 31, 0⟩
abbrev OWN.IRQ_VECTOR.off : Nat := 0x20
abbrev OWN.IRQ_VECTOR.VECTOR : Fld := ⟨0x20, 5, 0⟩
abbrev OWN.ERR_STATUS.off : Nat := 0x24
abbrev OWN.ERR_STATUS.LEASE_EXPIRED : Fld := ⟨0x24, 0, 0⟩
abbrev OWN.ERR_INJECT.off : Nat := 0x28
abbrev OWN.ERR_INJECT.W : Fld := ⟨0x28, 31, 0⟩
abbrev OWN.LAST_CMD.off : Nat := 0x2C
abbrev OWN.LAST_CMD.DETAIL : Fld := ⟨0x2C, 31, 16⟩
abbrev OWN.LAST_CMD.RESULT : Fld := ⟨0x2C, 15, 12⟩
abbrev OWN.LAST_CMD.SEQ : Fld := ⟨0x2C, 11, 8⟩
abbrev OWN.LAST_CMD.CODE : Fld := ⟨0x2C, 7, 0⟩
abbrev OWN.COMMIT_CTL.off : Nat := 0x30
abbrev OWN.COMMIT_CTL.SHADOW_DIRTY : Fld := ⟨0x30, 9, 9⟩
abbrev OWN.COMMIT_CTL.PENDING : Fld := ⟨0x30, 8, 8⟩
abbrev OWN.COMMIT_CTL.ABORT : Fld := ⟨0x30, 5, 5⟩
abbrev OWN.COMMIT_CTL.GO : Fld := ⟨0x30, 4, 4⟩
abbrev OWN.COMMIT_CTL.MODE : Fld := ⟨0x30, 1, 0⟩
abbrev OWN.COMMIT_GROUP.off : Nat := 0x34
abbrev OWN.COMMIT_GROUP.GROUP : Fld := ⟨0x34, 3, 0⟩
abbrev OWN.WRITE_SEQ.off : Nat := 0x38
abbrev OWN.WRITE_SEQ.SHADOW_WRITES : Fld := ⟨0x38, 31, 16⟩
abbrev OWN.WRITE_SEQ.COMMIT_SEQ : Fld := ⟨0x38, 15, 0⟩
abbrev CAL.LOOP_CFG.off : Nat := 0x40
abbrev CAL.LOOP_CFG.ENABLE : Fld := ⟨0x40, 31, 31⟩
abbrev CAL.LOOP_CFG.LOOP_CHAN : Fld := ⟨0x40, 21, 16⟩
abbrev CAL.LOOP_CFG.LOOP_TIN : Fld := ⟨0x40, 3, 0⟩
abbrev CAL.LOOP_TERM_RISE.off : Nat := 0x44
abbrev CAL.LOOP_TERM_RISE.TERM_SU : Fld := ⟨0x44, 31, 0⟩
abbrev CAL.LOOP_TERM_FALL.off : Nat := 0x48
abbrev CAL.LOOP_TERM_FALL.TERM_SU : Fld := ⟨0x48, 31, 0⟩
abbrev CAL.LOOP_BOUND.off : Nat := 0x4C
abbrev CAL.LOOP_BOUND.BOUND_PS : Fld := ⟨0x4C, 31, 0⟩
abbrev CAL.LOOP_COUNT.off : Nat := 0x50
abbrev CAL.LOOP_COUNT.COUNT : Fld := ⟨0x50, 31, 0⟩
abbrev CAL.QUAD_SETTLED.off : Nat := 0x60
abbrev CAL.QUAD_SETTLED.QUADS : Fld := ⟨0x60, 11, 0⟩
abbrev CAL.TIN_SETTLED.off : Nat := 0x64
abbrev CAL.TIN_SETTLED.INPUTS : Fld := ⟨0x64, 15, 0⟩
abbrev CAL.DIE_TEMP.off : Nat := 0x68
abbrev CAL.DIE_TEMP.TEMP : Fld := ⟨0x68, 15, 0⟩
abbrev CAL.CALDATA_CRC.off : Nat := 0x6C
abbrev CAL.CALDATA_CRC.CRC : Fld := ⟨0x6C, 31, 0⟩
abbrev CAL.BLOCK_ID.off : Nat := 0x0
abbrev CAL.BLOCK_ID.TYPE : Fld := ⟨0x0, 31, 16⟩
abbrev CAL.BLOCK_ID.INSTANCE : Fld := ⟨0x0, 15, 8⟩
abbrev CAL.BLOCK_ID.HDR_VER : Fld := ⟨0x0, 7, 0⟩
abbrev CAL.BLOCK_VER.off : Nat := 0x4
abbrev CAL.BLOCK_VER.MAJOR : Fld := ⟨0x4, 23, 16⟩
abbrev CAL.BLOCK_VER.MINOR : Fld := ⟨0x4, 15, 8⟩
abbrev CAL.BLOCK_VER.PATCH : Fld := ⟨0x4, 7, 0⟩
abbrev CAL.CAPS.off : Nat := 0x8
abbrev CAL.CAPS.CAPS : Fld := ⟨0x8, 31, 0⟩
abbrev CAL.OWNER.off : Nat := 0xC
abbrev CAL.OWNER.OWNER_ID : Fld := ⟨0xC, 31, 16⟩
abbrev CAL.STATUS.off : Nat := 0x10
abbrev CAL.STATUS.SAFE : Fld := ⟨0x10, 31, 31⟩
abbrev CAL.STATUS.ERR : Fld := ⟨0x10, 30, 30⟩
abbrev CAL.STATUS.FROZEN_VIEW : Fld := ⟨0x10, 29, 29⟩
abbrev CAL.STATUS.ALL_SETTLED : Fld := ⟨0x10, 1, 1⟩
abbrev CAL.STATUS.LOOP_ACTIVE : Fld := ⟨0x10, 0, 0⟩
abbrev CAL.CONTROL.off : Nat := 0x14
abbrev CAL.CONTROL.ENABLE : Fld := ⟨0x14, 31, 31⟩
abbrev CAL.CONTROL.SAFE_EXIT : Fld := ⟨0x14, 30, 30⟩
abbrev CAL.IRQ_STATUS.off : Nat := 0x18
abbrev CAL.IRQ_STATUS.LOOP_STAMP : Fld := ⟨0x18, 0, 0⟩
abbrev CAL.IRQ_ENABLE.off : Nat := 0x1C
abbrev CAL.IRQ_ENABLE.W : Fld := ⟨0x1C, 31, 0⟩
abbrev CAL.IRQ_VECTOR.off : Nat := 0x20
abbrev CAL.IRQ_VECTOR.VECTOR : Fld := ⟨0x20, 5, 0⟩
abbrev CAL.ERR_STATUS.off : Nat := 0x24
abbrev CAL.ERR_INJECT.off : Nat := 0x28
abbrev CAL.ERR_INJECT.W : Fld := ⟨0x28, 31, 0⟩
abbrev CAL.LAST_CMD.off : Nat := 0x2C
abbrev CAL.LAST_CMD.DETAIL : Fld := ⟨0x2C, 31, 16⟩
abbrev CAL.LAST_CMD.RESULT : Fld := ⟨0x2C, 15, 12⟩
abbrev CAL.LAST_CMD.SEQ : Fld := ⟨0x2C, 11, 8⟩
abbrev CAL.LAST_CMD.CODE : Fld := ⟨0x2C, 7, 0⟩
abbrev CAL.COMMIT_CTL.off : Nat := 0x30
abbrev CAL.COMMIT_CTL.SHADOW_DIRTY : Fld := ⟨0x30, 9, 9⟩
abbrev CAL.COMMIT_CTL.PENDING : Fld := ⟨0x30, 8, 8⟩
abbrev CAL.COMMIT_CTL.ABORT : Fld := ⟨0x30, 5, 5⟩
abbrev CAL.COMMIT_CTL.GO : Fld := ⟨0x30, 4, 4⟩
abbrev CAL.COMMIT_CTL.MODE : Fld := ⟨0x30, 1, 0⟩
abbrev CAL.COMMIT_GROUP.off : Nat := 0x34
abbrev CAL.COMMIT_GROUP.GROUP : Fld := ⟨0x34, 3, 0⟩
abbrev CAL.WRITE_SEQ.off : Nat := 0x38
abbrev CAL.WRITE_SEQ.SHADOW_WRITES : Fld := ⟨0x38, 31, 16⟩
abbrev CAL.WRITE_SEQ.COMMIT_SEQ : Fld := ⟨0x38, 15, 0⟩
abbrev QUAD.ENGINE_MAP.off : Nat := 0x40
abbrev QUAD.ENGINE_MAP.SPARE : Fld := ⟨0x40, 18, 16⟩
abbrev QUAD.ENGINE_MAP.LANE_ENGINE : Fld := ⟨0x40, 15, 0⟩
abbrev QUAD.ENGINE_STATE.off : Nat := 0x44
abbrev QUAD.ENGINE_STATE.STATE : Fld := ⟨0x44, 19, 0⟩
abbrev QUAD.CAL_CTL.off : Nat := 0x48
abbrev QUAD.CAL_CTL.SWAP_THRESHOLD_PS : Fld := ⟨0x48, 23, 16⟩
abbrev QUAD.CAL_CTL.SWEEP_PERIOD_S : Fld := ⟨0x48, 15, 8⟩
abbrev QUAD.CAL_CTL.DRIFT_SWAP_ENABLE : Fld := ⟨0x48, 1, 1⟩
abbrev QUAD.CAL_CTL.TRACK_ENABLE : Fld := ⟨0x48, 0, 0⟩
abbrev QUAD.SWAP_CMD.off : Nat := 0x4C
abbrev QUAD.SWAP_CMD.ARG : Fld := ⟨0x4C, 11, 8⟩
abbrev QUAD.SWAP_CMD.CODE : Fld := ⟨0x4C, 7, 0⟩
abbrev QUAD.SWAP_COUNT.off : Nat := 0x50
abbrev QUAD.SWAP_COUNT.FAIL_SWAPS : Fld := ⟨0x50, 31, 16⟩
abbrev QUAD.SWAP_COUNT.OTHER_SWAPS : Fld := ⟨0x50, 15, 0⟩
abbrev QUAD.LAST_SWAP.off : Nat := 0x54
abbrev QUAD.LAST_SWAP.OUTCOME : Fld := ⟨0x54, 15, 14⟩
abbrev QUAD.LAST_SWAP.REASON : Fld := ⟨0x54, 13, 12⟩
abbrev QUAD.LAST_SWAP.NEW_ENGINE : Fld := ⟨0x54, 10, 8⟩
abbrev QUAD.LAST_SWAP.OLD_ENGINE : Fld := ⟨0x54, 6, 4⟩
abbrev QUAD.LAST_SWAP.LANE : Fld := ⟨0x54, 1, 0⟩
abbrev QUAD.LAST_SWAP_SLOT.off : Nat := 0x58
abbrev QUAD.LAST_SWAP_SLOT.SLOT : Fld := ⟨0x58, 63, 0⟩
abbrev QUAD.CAL_STATE.off : Nat := 0x60
abbrev QUAD.CAL_STATE.SWEEP_ENGINE : Fld := ⟨0x60, 20, 18⟩
abbrev QUAD.CAL_STATE.SWEEPING : Fld := ⟨0x60, 17, 17⟩
abbrev QUAD.CAL_STATE.TDC_OK : Fld := ⟨0x60, 16, 16⟩
abbrev QUAD.CAL_STATE.CYCLE : Fld := ⟨0x60, 15, 8⟩
abbrev QUAD.CAL_STATE.TARGET : Fld := ⟨0x60, 3, 0⟩
abbrev QUAD.SWEEP_INFO.off : Nat := 0x64
abbrev QUAD.SWEEP_INFO.SWEEP_AGE_S : Fld := ⟨0x64, 31, 16⟩
abbrev QUAD.SWEEP_INFO.SWEEP_TEMP : Fld := ⟨0x64, 15, 0⟩
abbrev QUAD.ENGINE_TERM.off (i : Nat) : Nat := 0x80 + 0x8 * i
abbrev QUAD.ENGINE_TERM.RISE_SU (i : Nat) : Fld := ⟨0x80 + 0x8 * i, 31, 0⟩
abbrev QUAD.ENGINE_TERM_2.off (i : Nat) : Nat := 0x84 + 0x8 * i
abbrev QUAD.ENGINE_TERM_2.FALL_SU (i : Nat) : Fld := ⟨0x84 + 0x8 * i, 31, 0⟩
abbrev QUAD.LANE_TERM.off (i : Nat) : Nat := 0xC0 + 0x8 * i
abbrev QUAD.LANE_TERM.RISE_SU (i : Nat) : Fld := ⟨0xC0 + 0x8 * i, 31, 0⟩
abbrev QUAD.LANE_TERM_2.off (i : Nat) : Nat := 0xC4 + 0x8 * i
abbrev QUAD.LANE_TERM_2.FALL_SU (i : Nat) : Fld := ⟨0xC4 + 0x8 * i, 31, 0⟩
abbrev QUAD.LANE_BOUND.off (i : Nat) : Nat := 0xE0 + 0x4 * i
abbrev QUAD.LANE_BOUND.BOUND_PS (i : Nat) : Fld := ⟨0xE0 + 0x4 * i, 31, 0⟩
abbrev QUAD.SPACING_DROPS.off (i : Nat) : Nat := 0xF0 + 0x4 * i
abbrev QUAD.SPACING_DROPS.COUNT (i : Nat) : Fld := ⟨0xF0 + 0x4 * i, 31, 0⟩
abbrev QUAD.BOARD_DELAY.off (i : Nat) : Nat := 0x100 + 0x10 * i
abbrev QUAD.BOARD_DELAY.SPAN (i : Nat) : Fld := ⟨0x100 + 0x10 * i, 95, 0⟩
abbrev QUAD.BOARD_UNC.off (i : Nat) : Nat := 0x10C + 0x10 * i
abbrev QUAD.BOARD_UNC.UNC_PS (i : Nat) : Fld := ⟨0x10C + 0x10 * i, 15, 0⟩
abbrev QUAD.VCT_SEL.off : Nat := 0x140
abbrev QUAD.VCT_SEL.ENGINE : Fld := ⟨0x140, 2, 0⟩
abbrev QUAD.ENGINE_RESID.off (i : Nat) : Nat := 0x160 + 0x4 * i
abbrev QUAD.ENGINE_RESID.RMS (i : Nat) : Fld := ⟨0x160 + 0x4 * i, 31, 16⟩
abbrev QUAD.ENGINE_RESID.MEAN (i : Nat) : Fld := ⟨0x160 + 0x4 * i, 15, 0⟩
abbrev QUAD.LANE_COMMIT_CTL.off (i : Nat) : Nat := 0x180 + 0x10 * i
abbrev QUAD.LANE_COMMIT_CTL.SHADOW_DIRTY (i : Nat) : Fld := ⟨0x180 + 0x10 * i, 9, 9⟩
abbrev QUAD.LANE_COMMIT_CTL.PENDING (i : Nat) : Fld := ⟨0x180 + 0x10 * i, 8, 8⟩
abbrev QUAD.LANE_COMMIT_CTL.ABORT (i : Nat) : Fld := ⟨0x180 + 0x10 * i, 5, 5⟩
abbrev QUAD.LANE_COMMIT_CTL.GO (i : Nat) : Fld := ⟨0x180 + 0x10 * i, 4, 4⟩
abbrev QUAD.LANE_COMMIT_CTL.MODE (i : Nat) : Fld := ⟨0x180 + 0x10 * i, 1, 0⟩
abbrev QUAD.LANE_COMMIT_GROUP.off (i : Nat) : Nat := 0x184 + 0x10 * i
abbrev QUAD.LANE_COMMIT_GROUP.GROUP (i : Nat) : Fld := ⟨0x184 + 0x10 * i, 3, 0⟩
abbrev QUAD.LANE_WRITE_SEQ.off (i : Nat) : Nat := 0x188 + 0x10 * i
abbrev QUAD.LANE_WRITE_SEQ.SHADOW_WRITES (i : Nat) : Fld := ⟨0x188 + 0x10 * i, 31, 16⟩
abbrev QUAD.LANE_WRITE_SEQ.COMMIT_SEQ (i : Nat) : Fld := ⟨0x188 + 0x10 * i, 15, 0⟩
abbrev QUAD.VCT_DATA.off (i : Nat) : Nat := 0x400 + 0x4 * i
abbrev QUAD.VCT_DATA.ENTRY_HI (i : Nat) : Fld := ⟨0x400 + 0x4 * i, 27, 16⟩
abbrev QUAD.VCT_DATA.ENTRY_LO (i : Nat) : Fld := ⟨0x400 + 0x4 * i, 11, 0⟩
abbrev QUAD.PHASE_TRIM_DATA.off (i : Nat) : Nat := 0x680 + 0x4 * i
abbrev QUAD.PHASE_TRIM_DATA.TRIM_HI (i : Nat) : Fld := ⟨0x680 + 0x4 * i, 25, 16⟩
abbrev QUAD.PHASE_TRIM_DATA.TRIM_LO (i : Nat) : Fld := ⟨0x680 + 0x4 * i, 9, 0⟩
abbrev QUAD.BLOCK_ID.off : Nat := 0x0
abbrev QUAD.BLOCK_ID.TYPE : Fld := ⟨0x0, 31, 16⟩
abbrev QUAD.BLOCK_ID.INSTANCE : Fld := ⟨0x0, 15, 8⟩
abbrev QUAD.BLOCK_ID.HDR_VER : Fld := ⟨0x0, 7, 0⟩
abbrev QUAD.BLOCK_VER.off : Nat := 0x4
abbrev QUAD.BLOCK_VER.MAJOR : Fld := ⟨0x4, 23, 16⟩
abbrev QUAD.BLOCK_VER.MINOR : Fld := ⟨0x4, 15, 8⟩
abbrev QUAD.BLOCK_VER.PATCH : Fld := ⟨0x4, 7, 0⟩
abbrev QUAD.CAPS.off : Nat := 0x8
abbrev QUAD.CAPS.CAPS : Fld := ⟨0x8, 31, 0⟩
abbrev QUAD.OWNER.off : Nat := 0xC
abbrev QUAD.OWNER.OWNER_ID : Fld := ⟨0xC, 31, 16⟩
abbrev QUAD.STATUS.off : Nat := 0x10
abbrev QUAD.STATUS.SAFE : Fld := ⟨0x10, 31, 31⟩
abbrev QUAD.STATUS.ERR : Fld := ⟨0x10, 30, 30⟩
abbrev QUAD.STATUS.FROZEN_VIEW : Fld := ⟨0x10, 29, 29⟩
abbrev QUAD.STATUS.LANE_DEGRADED : Fld := ⟨0x10, 7, 4⟩
abbrev QUAD.STATUS.SWAP_DEFERRED : Fld := ⟨0x10, 3, 3⟩
abbrev QUAD.STATUS.SWAP_IN_PROGRESS : Fld := ⟨0x10, 2, 2⟩
abbrev QUAD.STATUS.SPARE_READY : Fld := ⟨0x10, 1, 1⟩
abbrev QUAD.STATUS.COARSE : Fld := ⟨0x10, 0, 0⟩
abbrev QUAD.CONTROL.off : Nat := 0x14
abbrev QUAD.CONTROL.ENABLE : Fld := ⟨0x14, 31, 31⟩
abbrev QUAD.CONTROL.SAFE_EXIT : Fld := ⟨0x14, 30, 30⟩
abbrev QUAD.IRQ_STATUS.off : Nat := 0x18
abbrev QUAD.IRQ_STATUS.SPACING_DROP : Fld := ⟨0x18, 4, 4⟩
abbrev QUAD.IRQ_STATUS.DEGRADED_CHANGE : Fld := ⟨0x18, 3, 3⟩
abbrev QUAD.IRQ_STATUS.SWEEP_DONE : Fld := ⟨0x18, 2, 2⟩
abbrev QUAD.IRQ_STATUS.SWAP_ABANDONED : Fld := ⟨0x18, 1, 1⟩
abbrev QUAD.IRQ_STATUS.SWAP_DONE : Fld := ⟨0x18, 0, 0⟩
abbrev QUAD.IRQ_ENABLE.off : Nat := 0x1C
abbrev QUAD.IRQ_ENABLE.W : Fld := ⟨0x1C, 31, 0⟩
abbrev QUAD.IRQ_VECTOR.off : Nat := 0x20
abbrev QUAD.IRQ_VECTOR.VECTOR : Fld := ⟨0x20, 5, 0⟩
abbrev QUAD.ERR_STATUS.off : Nat := 0x24
abbrev QUAD.ERR_STATUS.TABLE_ECC : Fld := ⟨0x24, 4, 4⟩
abbrev QUAD.ERR_STATUS.TDC_FAULT : Fld := ⟨0x24, 3, 3⟩
abbrev QUAD.ERR_STATUS.SPARE_UNAVAILABLE : Fld := ⟨0x24, 2, 2⟩
abbrev QUAD.ERR_STATUS.LANE_DEGRADED : Fld := ⟨0x24, 1, 1⟩
abbrev QUAD.ERR_STATUS.ENGINE_FAILED : Fld := ⟨0x24, 0, 0⟩
abbrev QUAD.ERR_INJECT.off : Nat := 0x28
abbrev QUAD.ERR_INJECT.W : Fld := ⟨0x28, 31, 0⟩
abbrev QUAD.LAST_CMD.off : Nat := 0x2C
abbrev QUAD.LAST_CMD.DETAIL : Fld := ⟨0x2C, 31, 16⟩
abbrev QUAD.LAST_CMD.RESULT : Fld := ⟨0x2C, 15, 12⟩
abbrev QUAD.LAST_CMD.SEQ : Fld := ⟨0x2C, 11, 8⟩
abbrev QUAD.LAST_CMD.CODE : Fld := ⟨0x2C, 7, 0⟩
abbrev CHAN.MODE_CFG.off : Nat := 0x40
abbrev CHAN.MODE_CFG.TRIG_LINE : Fld := ⟨0x40, 29, 24⟩
abbrev CHAN.MODE_CFG.MIRROR_SRC : Fld := ⟨0x40, 21, 16⟩
abbrev CHAN.MODE_CFG.DITHER : Fld := ⟨0x40, 7, 7⟩
abbrev CHAN.MODE_CFG.RETRIG : Fld := ⟨0x40, 5, 4⟩
abbrev CHAN.MODE_CFG.MODE : Fld := ⟨0x40, 3, 0⟩
abbrev CHAN.LEVEL_CFG.off : Nat := 0x44
abbrev CHAN.LEVEL_CFG.OFF_STATE : Fld := ⟨0x44, 4, 4⟩
abbrev CHAN.LEVEL_CFG.SAFE_LEVEL : Fld := ⟨0x44, 3, 2⟩
abbrev CHAN.LEVEL_CFG.IDLE_LEVEL : Fld := ⟨0x44, 1, 1⟩
abbrev CHAN.LEVEL_CFG.LEVEL : Fld := ⟨0x44, 0, 0⟩
abbrev CHAN.OUT_CFG.off : Nat := 0x48
abbrev CHAN.OUT_CFG.LEG_N : Fld := ⟨0x48, 5, 4⟩
abbrev CHAN.OUT_CFG.POLARITY : Fld := ⟨0x48, 3, 3⟩
abbrev CHAN.OUT_CFG.FORMAT : Fld := ⟨0x48, 2, 0⟩
abbrev CHAN.DELAY.off : Nat := 0x50
abbrev CHAN.DELAY.SPAN : Fld := ⟨0x50, 95, 0⟩
abbrev CHAN.WIDTH.off : Nat := 0x60
abbrev CHAN.WIDTH.SPAN : Fld := ⟨0x60, 95, 0⟩
abbrev CHAN.PERIOD.off : Nat := 0x70
abbrev CHAN.PERIOD.SPAN : Fld := ⟨0x70, 95, 0⟩
abbrev CHAN.PERIOD_FRAC.off : Nat := 0x7C
abbrev CHAN.PERIOD_FRAC.FRAC : Fld := ⟨0x7C, 31, 0⟩
abbrev CHAN.HIGH_TIME.off : Nat := 0x80
abbrev CHAN.HIGH_TIME.SPAN : Fld := ⟨0x80, 95, 0⟩
abbrev CHAN.ORIGIN.off : Nat := 0x90
abbrev CHAN.ORIGIN.INSTANT : Fld := ⟨0x90, 127, 0⟩
abbrev CHAN.COUNT.off : Nat := 0xA0
abbrev CHAN.COUNT.COUNT : Fld := ⟨0xA0, 31, 0⟩
abbrev CHAN.OFFSET.off : Nat := 0xB0
abbrev CHAN.OFFSET.SPAN : Fld := ⟨0xB0, 95, 0⟩
abbrev CHAN.RESPONSES.off : Nat := 0xC0
abbrev CHAN.RESPONSES.COUNT : Fld := ⟨0xC0, 31, 0⟩
abbrev CHAN.RETRIG_IGNORED.off : Nat := 0xC4
abbrev CHAN.RETRIG_IGNORED.COUNT : Fld := ⟨0xC4, 31, 0⟩
abbrev CHAN.RETRIG_OVERLAP.off : Nat := 0xC8
abbrev CHAN.RETRIG_OVERLAP.COUNT : Fld := ⟨0xC8, 31, 0⟩
abbrev CHAN.QUEUE_FULL.off : Nat := 0xCC
abbrev CHAN.QUEUE_FULL.COUNT : Fld := ⟨0xCC, 31, 0⟩
abbrev CHAN.WIDTH_CLAMPS.off : Nat := 0xD0
abbrev CHAN.WIDTH_CLAMPS.COUNT : Fld := ⟨0xD0, 31, 0⟩
abbrev CHAN.MIRROR_DROPS.off : Nat := 0xD4
abbrev CHAN.MIRROR_DROPS.COUNT : Fld := ⟨0xD4, 31, 0⟩
abbrev CHAN.LATE_EDGES.off : Nat := 0xD8
abbrev CHAN.LATE_EDGES.COUNT : Fld := ⟨0xD8, 31, 0⟩
abbrev CHAN.LAST_EDGE.off : Nat := 0xE0
abbrev CHAN.LAST_EDGE.INSTANT : Fld := ⟨0xE0, 127, 0⟩
abbrev CHAN.LAST_EDGE_TEB.off : Nat := 0xF0
abbrev CHAN.LAST_EDGE_TEB.TEB_PS : Fld := ⟨0xF0, 31, 0⟩
abbrev CHAN.EDGE_COUNT.off : Nat := 0xF8
abbrev CHAN.EDGE_COUNT.COUNT : Fld := ⟨0xF8, 63, 0⟩
abbrev CHAN.BLOCK_ID.off : Nat := 0x0
abbrev CHAN.BLOCK_ID.TYPE : Fld := ⟨0x0, 31, 16⟩
abbrev CHAN.BLOCK_ID.INSTANCE : Fld := ⟨0x0, 15, 8⟩
abbrev CHAN.BLOCK_ID.HDR_VER : Fld := ⟨0x0, 7, 0⟩
abbrev CHAN.BLOCK_VER.off : Nat := 0x4
abbrev CHAN.BLOCK_VER.MAJOR : Fld := ⟨0x4, 23, 16⟩
abbrev CHAN.BLOCK_VER.MINOR : Fld := ⟨0x4, 15, 8⟩
abbrev CHAN.BLOCK_VER.PATCH : Fld := ⟨0x4, 7, 0⟩
abbrev CHAN.CAPS.off : Nat := 0x8
abbrev CHAN.CAPS.CAPS : Fld := ⟨0x8, 31, 0⟩
abbrev CHAN.OWNER.off : Nat := 0xC
abbrev CHAN.OWNER.OWNER_ID : Fld := ⟨0xC, 31, 16⟩
abbrev CHAN.STATUS.off : Nat := 0x10
abbrev CHAN.STATUS.SAFE : Fld := ⟨0x10, 31, 31⟩
abbrev CHAN.STATUS.ERR : Fld := ⟨0x10, 30, 30⟩
abbrev CHAN.STATUS.FROZEN_VIEW : Fld := ⟨0x10, 29, 29⟩
abbrev CHAN.STATUS.PENDING_RESP : Fld := ⟨0x10, 12, 8⟩
abbrev CHAN.STATUS.DEGRADED : Fld := ⟨0x10, 4, 4⟩
abbrev CHAN.STATUS.BUSY : Fld := ⟨0x10, 3, 3⟩
abbrev CHAN.STATUS.PIN_LEVEL : Fld := ⟨0x10, 2, 2⟩
abbrev CHAN.STATUS.DRIVEN : Fld := ⟨0x10, 1, 1⟩
abbrev CHAN.STATUS.ENTRY_PENDING : Fld := ⟨0x10, 0, 0⟩
abbrev CHAN.CONTROL.off : Nat := 0x14
abbrev CHAN.CONTROL.ENABLE : Fld := ⟨0x14, 31, 31⟩
abbrev CHAN.CONTROL.SAFE_EXIT : Fld := ⟨0x14, 30, 30⟩
abbrev CHAN.CONTROL.FLUSH : Fld := ⟨0x14, 0, 0⟩
abbrev CHAN.IRQ_STATUS.off : Nat := 0x18
abbrev CHAN.IRQ_STATUS.LATE_EDGE : Fld := ⟨0x18, 4, 4⟩
abbrev CHAN.IRQ_STATUS.MIRROR_DESYNC : Fld := ⟨0x18, 3, 3⟩
abbrev CHAN.IRQ_STATUS.WIDTH_CLAMP : Fld := ⟨0x18, 2, 2⟩
abbrev CHAN.IRQ_STATUS.RETRIG_DROP : Fld := ⟨0x18, 1, 1⟩
abbrev CHAN.IRQ_STATUS.SAFE_ENTERED : Fld := ⟨0x18, 0, 0⟩
abbrev CHAN.IRQ_ENABLE.off : Nat := 0x1C
abbrev CHAN.IRQ_ENABLE.W : Fld := ⟨0x1C, 31, 0⟩
abbrev CHAN.IRQ_VECTOR.off : Nat := 0x20
abbrev CHAN.IRQ_VECTOR.VECTOR : Fld := ⟨0x20, 5, 0⟩
abbrev CHAN.ERR_STATUS.off : Nat := 0x24
abbrev CHAN.ERR_STATUS.DRIVER_FAULT : Fld := ⟨0x24, 1, 1⟩
abbrev CHAN.ERR_STATUS.NO_ENGINE : Fld := ⟨0x24, 0, 0⟩
abbrev CHAN.ERR_INJECT.off : Nat := 0x28
abbrev CHAN.ERR_INJECT.W : Fld := ⟨0x28, 31, 0⟩
abbrev CHAN.LAST_CMD.off : Nat := 0x2C
abbrev CHAN.LAST_CMD.DETAIL : Fld := ⟨0x2C, 31, 16⟩
abbrev CHAN.LAST_CMD.RESULT : Fld := ⟨0x2C, 15, 12⟩
abbrev CHAN.LAST_CMD.SEQ : Fld := ⟨0x2C, 11, 8⟩
abbrev CHAN.LAST_CMD.CODE : Fld := ⟨0x2C, 7, 0⟩
abbrev CHAN.COMMIT_CTL.off : Nat := 0x30
abbrev CHAN.COMMIT_CTL.SHADOW_DIRTY : Fld := ⟨0x30, 9, 9⟩
abbrev CHAN.COMMIT_CTL.PENDING : Fld := ⟨0x30, 8, 8⟩
abbrev CHAN.COMMIT_CTL.ABORT : Fld := ⟨0x30, 5, 5⟩
abbrev CHAN.COMMIT_CTL.GO : Fld := ⟨0x30, 4, 4⟩
abbrev CHAN.COMMIT_CTL.MODE : Fld := ⟨0x30, 1, 0⟩
abbrev CHAN.COMMIT_GROUP.off : Nat := 0x34
abbrev CHAN.COMMIT_GROUP.GROUP : Fld := ⟨0x34, 3, 0⟩
abbrev CHAN.WRITE_SEQ.off : Nat := 0x38
abbrev CHAN.WRITE_SEQ.SHADOW_WRITES : Fld := ⟨0x38, 31, 16⟩
abbrev CHAN.WRITE_SEQ.COMMIT_SEQ : Fld := ⟨0x38, 15, 0⟩
abbrev AUX.DIV.off : Nat := 0x40
abbrev AUX.DIV.DIV : Fld := ⟨0x40, 15, 0⟩
abbrev AUX.DELAY.off : Nat := 0x44
abbrev AUX.DELAY.DELAY_CYC : Fld := ⟨0x44, 15, 0⟩
abbrev AUX.OUT_CFG.off : Nat := 0x48
abbrev AUX.OUT_CFG.POLARITY : Fld := ⟨0x48, 3, 3⟩
abbrev AUX.OUT_CFG.FORMAT : Fld := ⟨0x48, 2, 0⟩
abbrev AUX.F_CEIL.off : Nat := 0x4C
abbrev AUX.F_CEIL.KHZ : Fld := ⟨0x4C, 31, 0⟩
abbrev AUX.BYPASS_CFG.off : Nat := 0x50
abbrev AUX.BYPASS_CFG.BYPASS : Fld := ⟨0x50, 8, 8⟩
abbrev AUX.BYPASS_CFG.BYPASS_DIV : Fld := ⟨0x50, 7, 0⟩
abbrev AUX.MARK_CFG.off : Nat := 0x54
abbrev AUX.MARK_CFG.MARK_MODE : Fld := ⟨0x54, 17, 16⟩
abbrev AUX.MARK_CFG.MARK_SEQ : Fld := ⟨0x54, 9, 8⟩
abbrev AUX.MARK_PERIODS.off : Nat := 0x58
abbrev AUX.MARK_PERIODS.COUNT : Fld := ⟨0x58, 31, 0⟩
abbrev AUX.FREQ.off : Nat := 0x60
abbrev AUX.FREQ.FREQ : Fld := ⟨0x60, 63, 0⟩
abbrev AUX.MARKS.off : Nat := 0x68
abbrev AUX.MARKS.COUNT : Fld := ⟨0x68, 31, 0⟩
abbrev AUX.MARK_DROPS.off : Nat := 0x6C
abbrev AUX.MARK_DROPS.COUNT : Fld := ⟨0x6C, 31, 0⟩
abbrev AUX.BLOCK_ID.off : Nat := 0x0
abbrev AUX.BLOCK_ID.TYPE : Fld := ⟨0x0, 31, 16⟩
abbrev AUX.BLOCK_ID.INSTANCE : Fld := ⟨0x0, 15, 8⟩
abbrev AUX.BLOCK_ID.HDR_VER : Fld := ⟨0x0, 7, 0⟩
abbrev AUX.BLOCK_VER.off : Nat := 0x4
abbrev AUX.BLOCK_VER.MAJOR : Fld := ⟨0x4, 23, 16⟩
abbrev AUX.BLOCK_VER.MINOR : Fld := ⟨0x4, 15, 8⟩
abbrev AUX.BLOCK_VER.PATCH : Fld := ⟨0x4, 7, 0⟩
abbrev AUX.CAPS.off : Nat := 0x8
abbrev AUX.CAPS.CAPS : Fld := ⟨0x8, 31, 0⟩
abbrev AUX.OWNER.off : Nat := 0xC
abbrev AUX.OWNER.OWNER_ID : Fld := ⟨0xC, 31, 16⟩
abbrev AUX.STATUS.off : Nat := 0x10
abbrev AUX.STATUS.SAFE : Fld := ⟨0x10, 31, 31⟩
abbrev AUX.STATUS.ERR : Fld := ⟨0x10, 30, 30⟩
abbrev AUX.STATUS.FROZEN_VIEW : Fld := ⟨0x10, 29, 29⟩
abbrev AUX.STATUS.GATED : Fld := ⟨0x10, 3, 3⟩
abbrev AUX.STATUS.BYPASSED : Fld := ⟨0x10, 2, 2⟩
abbrev AUX.STATUS.HELD : Fld := ⟨0x10, 1, 1⟩
abbrev AUX.STATUS.RUNNING : Fld := ⟨0x10, 0, 0⟩
abbrev AUX.CONTROL.off : Nat := 0x14
abbrev AUX.CONTROL.ENABLE : Fld := ⟨0x14, 31, 31⟩
abbrev AUX.CONTROL.SAFE_EXIT : Fld := ⟨0x14, 30, 30⟩
abbrev AUX.IRQ_STATUS.off : Nat := 0x18
abbrev AUX.IRQ_STATUS.MARK_DROP : Fld := ⟨0x18, 1, 1⟩
abbrev AUX.IRQ_STATUS.MARK : Fld := ⟨0x18, 0, 0⟩
abbrev AUX.IRQ_ENABLE.off : Nat := 0x1C
abbrev AUX.IRQ_ENABLE.W : Fld := ⟨0x1C, 31, 0⟩
abbrev AUX.IRQ_VECTOR.off : Nat := 0x20
abbrev AUX.IRQ_VECTOR.VECTOR : Fld := ⟨0x20, 5, 0⟩
abbrev AUX.ERR_STATUS.off : Nat := 0x24
abbrev AUX.ERR_STATUS.DRIVER_FAULT : Fld := ⟨0x24, 0, 0⟩
abbrev AUX.ERR_INJECT.off : Nat := 0x28
abbrev AUX.ERR_INJECT.W : Fld := ⟨0x28, 31, 0⟩
abbrev AUX.LAST_CMD.off : Nat := 0x2C
abbrev AUX.LAST_CMD.DETAIL : Fld := ⟨0x2C, 31, 16⟩
abbrev AUX.LAST_CMD.RESULT : Fld := ⟨0x2C, 15, 12⟩
abbrev AUX.LAST_CMD.SEQ : Fld := ⟨0x2C, 11, 8⟩
abbrev AUX.LAST_CMD.CODE : Fld := ⟨0x2C, 7, 0⟩
abbrev AUX.COMMIT_CTL.off : Nat := 0x30
abbrev AUX.COMMIT_CTL.SHADOW_DIRTY : Fld := ⟨0x30, 9, 9⟩
abbrev AUX.COMMIT_CTL.PENDING : Fld := ⟨0x30, 8, 8⟩
abbrev AUX.COMMIT_CTL.ABORT : Fld := ⟨0x30, 5, 5⟩
abbrev AUX.COMMIT_CTL.GO : Fld := ⟨0x30, 4, 4⟩
abbrev AUX.COMMIT_CTL.MODE : Fld := ⟨0x30, 1, 0⟩
abbrev AUX.COMMIT_GROUP.off : Nat := 0x34
abbrev AUX.COMMIT_GROUP.GROUP : Fld := ⟨0x34, 3, 0⟩
abbrev AUX.WRITE_SEQ.off : Nat := 0x38
abbrev AUX.WRITE_SEQ.SHADOW_WRITES : Fld := ⟨0x38, 31, 16⟩
abbrev AUX.WRITE_SEQ.COMMIT_SEQ : Fld := ⟨0x38, 15, 0⟩
abbrev TIN.CMP_CFG.off : Nat := 0x40
abbrev TIN.CMP_CFG.HYST : Fld := ⟨0x40, 19, 16⟩
abbrev TIN.CMP_CFG.THRESHOLD : Fld := ⟨0x40, 11, 0⟩
abbrev TIN.IN_CFG.off : Nat := 0x44
abbrev TIN.IN_CFG.PRESCALE : Fld := ⟨0x44, 31, 16⟩
abbrev TIN.IN_CFG.SLOPE : Fld := ⟨0x44, 9, 8⟩
abbrev TIN.IN_CFG.TERM : Fld := ⟨0x44, 5, 4⟩
abbrev TIN.IN_CFG.INPUT_MODE : Fld := ⟨0x44, 0, 0⟩
abbrev TIN.CAL_CFG.off : Nat := 0x48
abbrev TIN.CAL_CFG.INJECT_RATE : Fld := ⟨0x48, 15, 8⟩
abbrev TIN.CAL_CFG.CAL_LIVE : Fld := ⟨0x48, 0, 0⟩
abbrev TIN.CAL_STATE.off : Nat := 0x4C
abbrev TIN.CAL_STATE.TABLE_AGE_S : Fld := ⟨0x4C, 31, 16⟩
abbrev TIN.CAL_STATE.FILL : Fld := ⟨0x4C, 15, 8⟩
abbrev TIN.CAL_STATE.BUILD_CORE : Fld := ⟨0x4C, 0, 0⟩
abbrev TIN.CAL_TEMP.off : Nat := 0x50
abbrev TIN.CAL_TEMP.TEMP : Fld := ⟨0x50, 15, 0⟩
abbrev TIN.INPUT_TERM_RISE.off : Nat := 0x60
abbrev TIN.INPUT_TERM_RISE.TERM_SU : Fld := ⟨0x60, 31, 0⟩
abbrev TIN.INPUT_TERM_FALL.off : Nat := 0x64
abbrev TIN.INPUT_TERM_FALL.TERM_SU : Fld := ⟨0x64, 31, 0⟩
abbrev TIN.INPUT_BOUND.off : Nat := 0x68
abbrev TIN.INPUT_BOUND.BOUND_PS : Fld := ⟨0x68, 31, 0⟩
abbrev TIN.CORE_OFFSET.off (i : Nat) : Nat := 0x70 + 0x4 * i
abbrev TIN.CORE_OFFSET.OFFSET (i : Nat) : Fld := ⟨0x70 + 0x4 * i, 23, 0⟩
abbrev TIN.STAMPS.off : Nat := 0x80
abbrev TIN.STAMPS.COUNT : Fld := ⟨0x80, 31, 0⟩
abbrev TIN.DOUBLE_PULSE_LOST.off : Nat := 0x84
abbrev TIN.DOUBLE_PULSE_LOST.COUNT : Fld := ⟨0x84, 31, 0⟩
abbrev TIN.BURST_LOST.off : Nat := 0x88
abbrev TIN.BURST_LOST.COUNT : Fld := ⟨0x88, 31, 0⟩
abbrev TIN.CAL_COLLISIONS.off : Nat := 0x8C
abbrev TIN.CAL_COLLISIONS.COUNT : Fld := ⟨0x8C, 31, 0⟩
abbrev TIN.RANGE_ERRORS.off : Nat := 0x90
abbrev TIN.RANGE_ERRORS.COUNT : Fld := ⟨0x90, 31, 0⟩
abbrev TIN.FIFO_STATE.off : Nat := 0x94
abbrev TIN.FIFO_STATE.DEPTH : Fld := ⟨0x94, 10, 0⟩
abbrev TIN.SUB_INFO.off (i : Nat) : Nat := 0xA0 + 0x8 * i
abbrev TIN.SUB_INFO.VALID (i : Nat) : Fld := ⟨0xA0 + 0x8 * i, 31, 31⟩
abbrev TIN.SUB_INFO.KIND (i : Nat) : Fld := ⟨0xA0 + 0x8 * i, 19, 16⟩
abbrev TIN.SUB_INFO.INDEX (i : Nat) : Fld := ⟨0xA0 + 0x8 * i, 7, 0⟩
abbrev TIN.SUB_AGENT.off (i : Nat) : Nat := 0xA4 + 0x8 * i
abbrev TIN.SUB_AGENT.AGENT (i : Nat) : Fld := ⟨0xA4 + 0x8 * i, 31, 16⟩
abbrev TIN.LAST_STAMP.off : Nat := 0xC0
abbrev TIN.LAST_STAMP.INSTANT : Fld := ⟨0xC0, 127, 0⟩
abbrev TIN.LAST_STAMP_TEB.off : Nat := 0xD0
abbrev TIN.LAST_STAMP_TEB.TEB_PS : Fld := ⟨0xD0, 31, 0⟩
abbrev TIN.LAST_STAMP_INFO.off : Nat := 0xD4
abbrev TIN.LAST_STAMP_INFO.SENSE : Fld := ⟨0xD4, 1, 0⟩
abbrev TIN.CDT_SEL.off : Nat := 0x100
abbrev TIN.CDT_SEL.CORE : Fld := ⟨0x100, 16, 16⟩
abbrev TIN.CDT_SEL.BASE : Fld := ⟨0x100, 9, 0⟩
abbrev TIN.CDT_DATA.off (i : Nat) : Nat := 0x400 + 0x4 * i
abbrev TIN.CDT_DATA.TAU (i : Nat) : Fld := ⟨0x400 + 0x4 * i, 23, 0⟩
abbrev TIN.PHASE_SKEW0.off (i : Nat) : Nat := 0x500 + 0x4 * i
abbrev TIN.PHASE_SKEW0.SKEW (i : Nat) : Fld := ⟨0x500 + 0x4 * i, 23, 0⟩
abbrev TIN.PHASE_SKEW1.off (i : Nat) : Nat := 0x540 + 0x4 * i
abbrev TIN.PHASE_SKEW1.SKEW (i : Nat) : Fld := ⟨0x540 + 0x4 * i, 23, 0⟩
abbrev TIN.BLOCK_ID.off : Nat := 0x0
abbrev TIN.BLOCK_ID.TYPE : Fld := ⟨0x0, 31, 16⟩
abbrev TIN.BLOCK_ID.INSTANCE : Fld := ⟨0x0, 15, 8⟩
abbrev TIN.BLOCK_ID.HDR_VER : Fld := ⟨0x0, 7, 0⟩
abbrev TIN.BLOCK_VER.off : Nat := 0x4
abbrev TIN.BLOCK_VER.MAJOR : Fld := ⟨0x4, 23, 16⟩
abbrev TIN.BLOCK_VER.MINOR : Fld := ⟨0x4, 15, 8⟩
abbrev TIN.BLOCK_VER.PATCH : Fld := ⟨0x4, 7, 0⟩
abbrev TIN.CAPS.off : Nat := 0x8
abbrev TIN.CAPS.CAPS : Fld := ⟨0x8, 31, 0⟩
abbrev TIN.OWNER.off : Nat := 0xC
abbrev TIN.OWNER.OWNER_ID : Fld := ⟨0xC, 31, 16⟩
abbrev TIN.STATUS.off : Nat := 0x10
abbrev TIN.STATUS.SAFE : Fld := ⟨0x10, 31, 31⟩
abbrev TIN.STATUS.ERR : Fld := ⟨0x10, 30, 30⟩
abbrev TIN.STATUS.FROZEN_VIEW : Fld := ⟨0x10, 29, 29⟩
abbrev TIN.STATUS.SUBSCRIBERS : Fld := ⟨0x10, 10, 8⟩
abbrev TIN.STATUS.CORE_DEGRADED : Fld := ⟨0x10, 4, 4⟩
abbrev TIN.STATUS.CAL_VALID : Fld := ⟨0x10, 3, 3⟩
abbrev TIN.STATUS.COARSE : Fld := ⟨0x10, 2, 2⟩
abbrev TIN.STATUS.LEVEL : Fld := ⟨0x10, 1, 1⟩
abbrev TIN.STATUS.LEVEL_UNRESOLVED : Fld := ⟨0x10, 0, 0⟩
abbrev TIN.CONTROL.off : Nat := 0x14
abbrev TIN.CONTROL.ENABLE : Fld := ⟨0x14, 31, 31⟩
abbrev TIN.CONTROL.SAFE_EXIT : Fld := ⟨0x14, 30, 30⟩
abbrev TIN.CONTROL.RECAL : Fld := ⟨0x14, 0, 0⟩
abbrev TIN.IRQ_STATUS.off : Nat := 0x18
abbrev TIN.IRQ_STATUS.RANGE_ERROR : Fld := ⟨0x18, 5, 5⟩
abbrev TIN.IRQ_STATUS.CAL_COLLISION : Fld := ⟨0x18, 4, 4⟩
abbrev TIN.IRQ_STATUS.TABLE_DONE : Fld := ⟨0x18, 3, 3⟩
abbrev TIN.IRQ_STATUS.BURST_LOST : Fld := ⟨0x18, 2, 2⟩
abbrev TIN.IRQ_STATUS.DOUBLE_PULSE : Fld := ⟨0x18, 1, 1⟩
abbrev TIN.IRQ_STATUS.RESOLVED : Fld := ⟨0x18, 0, 0⟩
abbrev TIN.IRQ_ENABLE.off : Nat := 0x1C
abbrev TIN.IRQ_ENABLE.W : Fld := ⟨0x1C, 31, 0⟩
abbrev TIN.IRQ_VECTOR.off : Nat := 0x20
abbrev TIN.IRQ_VECTOR.VECTOR : Fld := ⟨0x20, 5, 0⟩
abbrev TIN.ERR_STATUS.off : Nat := 0x24
abbrev TIN.ERR_STATUS.CAL_STALE : Fld := ⟨0x24, 3, 3⟩
abbrev TIN.ERR_STATUS.TABLE_ECC : Fld := ⟨0x24, 2, 2⟩
abbrev TIN.ERR_STATUS.CORE_FAULT : Fld := ⟨0x24, 1, 1⟩
abbrev TIN.ERR_STATUS.INPUT_FAULT : Fld := ⟨0x24, 0, 0⟩
abbrev TIN.ERR_INJECT.off : Nat := 0x28
abbrev TIN.ERR_INJECT.W : Fld := ⟨0x28, 31, 0⟩
abbrev TIN.LAST_CMD.off : Nat := 0x2C
abbrev TIN.LAST_CMD.DETAIL : Fld := ⟨0x2C, 31, 16⟩
abbrev TIN.LAST_CMD.RESULT : Fld := ⟨0x2C, 15, 12⟩
abbrev TIN.LAST_CMD.SEQ : Fld := ⟨0x2C, 11, 8⟩
abbrev TIN.LAST_CMD.CODE : Fld := ⟨0x2C, 7, 0⟩
abbrev TIN.COMMIT_CTL.off : Nat := 0x30
abbrev TIN.COMMIT_CTL.SHADOW_DIRTY : Fld := ⟨0x30, 9, 9⟩
abbrev TIN.COMMIT_CTL.PENDING : Fld := ⟨0x30, 8, 8⟩
abbrev TIN.COMMIT_CTL.ABORT : Fld := ⟨0x30, 5, 5⟩
abbrev TIN.COMMIT_CTL.GO : Fld := ⟨0x30, 4, 4⟩
abbrev TIN.COMMIT_CTL.MODE : Fld := ⟨0x30, 1, 0⟩
abbrev TIN.COMMIT_GROUP.off : Nat := 0x34
abbrev TIN.COMMIT_GROUP.GROUP : Fld := ⟨0x34, 3, 0⟩
abbrev TIN.WRITE_SEQ.off : Nat := 0x38
abbrev TIN.WRITE_SEQ.SHADOW_WRITES : Fld := ⟨0x38, 31, 16⟩
abbrev TIN.WRITE_SEQ.COMMIT_SEQ : Fld := ⟨0x38, 15, 0⟩
abbrev TDC.SESSION_CMD.off : Nat := 0x40
abbrev TDC.SESSION_CMD.INDEX : Fld := ⟨0x40, 12, 8⟩
abbrev TDC.SESSION_CMD.CODE : Fld := ⟨0x40, 7, 0⟩
abbrev TDC.RESULT_SEL.off : Nat := 0x44
abbrev TDC.RESULT_SEL.INDEX : Fld := ⟨0x44, 4, 0⟩
abbrev TDC.RESULT_INFO.off : Nat := 0x48
abbrev TDC.RESULT_INFO.VALID : Fld := ⟨0x48, 31, 31⟩
abbrev TDC.RESULT_INFO.SEQ : Fld := ⟨0x48, 15, 0⟩
abbrev TDC.INTAKE_LOST.off (i : Nat) : Nat := 0x50 + 0x4 * i
abbrev TDC.INTAKE_LOST.COUNT (i : Nat) : Fld := ⟨0x50 + 0x4 * i, 31, 0⟩
abbrev TDC.MS_CFG.off (i : Nat) : Nat := 0x100 + 0x40 * i
abbrev TDC.MS_CFG.ENABLE (i : Nat) : Fld := ⟨0x100 + 0x40 * i, 31, 31⟩
abbrev TDC.MS_CFG.START_KIND (i : Nat) : Fld := ⟨0x100 + 0x40 * i, 29, 28⟩
abbrev TDC.MS_CFG.START_SENSE (i : Nat) : Fld := ⟨0x100 + 0x40 * i, 27, 26⟩
abbrev TDC.MS_CFG.STOP_SENSE (i : Nat) : Fld := ⟨0x100 + 0x40 * i, 25, 24⟩
abbrev TDC.MS_CFG.STOP_COUNT (i : Nat) : Fld := ⟨0x100 + 0x40 * i, 20, 16⟩
abbrev TDC.MS_CFG.ARM_KIND (i : Nat) : Fld := ⟨0x100 + 0x40 * i, 15, 14⟩
abbrev TDC.MS_CFG.ARM_INDEX (i : Nat) : Fld := ⟨0x100 + 0x40 * i, 13, 8⟩
abbrev TDC.MS_CFG.START_INDEX (i : Nat) : Fld := ⟨0x100 + 0x40 * i, 5, 0⟩
abbrev TDC.MS_STOPS.off (i : Nat) : Nat := 0x104 + 0x40 * i
abbrev TDC.MS_STOPS.STOP_MASK (i : Nat) : Fld := ⟨0x104 + 0x40 * i, 15, 0⟩
abbrev TDC.MS_PRE.off (i : Nat) : Nat := 0x108 + 0x40 * i
abbrev TDC.MS_PRE.PRE_WINDOW_NS (i : Nat) : Fld := ⟨0x108 + 0x40 * i, 31, 0⟩
abbrev TDC.MS_TIMEOUT.off (i : Nat) : Nat := 0x110 + 0x40 * i
abbrev TDC.MS_TIMEOUT.TIMEOUT_NS (i : Nat) : Fld := ⟨0x110 + 0x40 * i, 63, 0⟩
abbrev TDC.MS_STATE.off (i : Nat) : Nat := 0x118 + 0x40 * i
abbrev TDC.MS_STATE.STOPS (i : Nat) : Fld := ⟨0x118 + 0x40 * i, 20, 16⟩
abbrev TDC.MS_STATE.STATE (i : Nat) : Fld := ⟨0x118 + 0x40 * i, 2, 0⟩
abbrev TDC.MS_RESULTS.off (i : Nat) : Nat := 0x11C + 0x40 * i
abbrev TDC.MS_RESULTS.COUNT (i : Nat) : Fld := ⟨0x11C + 0x40 * i, 31, 0⟩
abbrev TDC.MS_EARLY.off (i : Nat) : Nat := 0x120 + 0x40 * i
abbrev TDC.MS_EARLY.COUNT (i : Nat) : Fld := ⟨0x120 + 0x40 * i, 31, 0⟩
abbrev TDC.MS_ARM_IGNORED.off (i : Nat) : Nat := 0x124 + 0x40 * i
abbrev TDC.MS_ARM_IGNORED.COUNT (i : Nat) : Fld := ⟨0x124 + 0x40 * i, 31, 0⟩
abbrev TDC.MS_ARM_AT.off (i : Nat) : Nat := 0x130 + 0x40 * i
abbrev TDC.MS_ARM_AT.INSTANT (i : Nat) : Fld := ⟨0x130 + 0x40 * i, 127, 0⟩
abbrev TDC.FG_CFG.off (i : Nat) : Nat := 0x500 + 0x20 * i
abbrev TDC.FG_CFG.ENABLE (i : Nat) : Fld := ⟨0x500 + 0x20 * i, 31, 31⟩
abbrev TDC.FG_CFG.GATE_KIND (i : Nat) : Fld := ⟨0x500 + 0x20 * i, 29, 28⟩
abbrev TDC.FG_CFG.SENSE (i : Nat) : Fld := ⟨0x500 + 0x20 * i, 27, 26⟩
abbrev TDC.FG_CFG.GATE_INDEX (i : Nat) : Fld := ⟨0x500 + 0x20 * i, 13, 8⟩
abbrev TDC.FG_CFG.SRC_TIN (i : Nat) : Fld := ⟨0x500 + 0x20 * i, 3, 0⟩
abbrev TDC.FG_NOMINAL.off (i : Nat) : Nat := 0x504 + 0x20 * i
abbrev TDC.FG_NOMINAL.NOMINAL_HZ (i : Nat) : Fld := ⟨0x504 + 0x20 * i, 31, 0⟩
abbrev TDC.FG_GATE.off (i : Nat) : Nat := 0x508 + 0x20 * i
abbrev TDC.FG_GATE.GATE_NS (i : Nat) : Fld := ⟨0x508 + 0x20 * i, 63, 0⟩
abbrev TDC.FG_STATE.off (i : Nat) : Nat := 0x510 + 0x20 * i
abbrev TDC.FG_STATE.STATE (i : Nat) : Fld := ⟨0x510 + 0x20 * i, 1, 0⟩
abbrev TDC.FG_RESULTS.off (i : Nat) : Nat := 0x514 + 0x20 * i
abbrev TDC.FG_RESULTS.COUNT (i : Nat) : Fld := ⟨0x514 + 0x20 * i, 31, 0⟩
abbrev TDC.FG_FLAGGED.off (i : Nat) : Nat := 0x518 + 0x20 * i
abbrev TDC.FG_FLAGGED.COUNT (i : Nat) : Fld := ⟨0x518 + 0x20 * i, 31, 0⟩
abbrev TDC.ST_STATE.off (i : Nat) : Nat := 0x600 + 0x20 * i
abbrev TDC.ST_STATE.BOUND (i : Nat) : Fld := ⟨0x600 + 0x20 * i, 31, 31⟩
abbrev TDC.ST_STATE.SUSPENDED (i : Nat) : Fld := ⟨0x600 + 0x20 * i, 30, 30⟩
abbrev TDC.ST_STATE.RING (i : Nat) : Fld := ⟨0x600 + 0x20 * i, 4, 0⟩
abbrev TDC.ST_STAMPS.off (i : Nat) : Nat := 0x608 + 0x20 * i
abbrev TDC.ST_STAMPS.COUNT (i : Nat) : Fld := ⟨0x608 + 0x20 * i, 63, 0⟩
abbrev TDC.ST_LOST.off (i : Nat) : Nat := 0x610 + 0x20 * i
abbrev TDC.ST_LOST.COUNT (i : Nat) : Fld := ⟨0x610 + 0x20 * i, 63, 0⟩
abbrev TDC.ST_GAPS.off (i : Nat) : Nat := 0x618 + 0x20 * i
abbrev TDC.ST_GAPS.COUNT (i : Nat) : Fld := ⟨0x618 + 0x20 * i, 31, 0⟩
abbrev TDC.RESULT_DATA.off (i : Nat) : Nat := 0x6A0 + 0x4 * i
abbrev TDC.RESULT_DATA.WORD (i : Nat) : Fld := ⟨0x6A0 + 0x4 * i, 31, 0⟩
abbrev TDC.BLOCK_ID.off : Nat := 0x0
abbrev TDC.BLOCK_ID.TYPE : Fld := ⟨0x0, 31, 16⟩
abbrev TDC.BLOCK_ID.INSTANCE : Fld := ⟨0x0, 15, 8⟩
abbrev TDC.BLOCK_ID.HDR_VER : Fld := ⟨0x0, 7, 0⟩
abbrev TDC.BLOCK_VER.off : Nat := 0x4
abbrev TDC.BLOCK_VER.MAJOR : Fld := ⟨0x4, 23, 16⟩
abbrev TDC.BLOCK_VER.MINOR : Fld := ⟨0x4, 15, 8⟩
abbrev TDC.BLOCK_VER.PATCH : Fld := ⟨0x4, 7, 0⟩
abbrev TDC.CAPS.off : Nat := 0x8
abbrev TDC.CAPS.CAPS : Fld := ⟨0x8, 31, 0⟩
abbrev TDC.OWNER.off : Nat := 0xC
abbrev TDC.OWNER.OWNER_ID : Fld := ⟨0xC, 31, 16⟩
abbrev TDC.STATUS.off : Nat := 0x10
abbrev TDC.STATUS.SAFE : Fld := ⟨0x10, 31, 31⟩
abbrev TDC.STATUS.ERR : Fld := ⟨0x10, 30, 30⟩
abbrev TDC.STATUS.FROZEN_VIEW : Fld := ⟨0x10, 29, 29⟩
abbrev TDC.STATUS.GATE_BUSY : Fld := ⟨0x10, 23, 16⟩
abbrev TDC.STATUS.SESSION_BUSY : Fld := ⟨0x10, 15, 0⟩
abbrev TDC.CONTROL.off : Nat := 0x14
abbrev TDC.CONTROL.ENABLE : Fld := ⟨0x14, 31, 31⟩
abbrev TDC.CONTROL.SAFE_EXIT : Fld := ⟨0x14, 30, 30⟩
abbrev TDC.IRQ_STATUS.off : Nat := 0x18
abbrev TDC.IRQ_STATUS.SUSPEND : Fld := ⟨0x18, 5, 5⟩
abbrev TDC.IRQ_STATUS.INTAKE_LOST : Fld := ⟨0x18, 4, 4⟩
abbrev TDC.IRQ_STATUS.FLAGGED : Fld := ⟨0x18, 3, 3⟩
abbrev TDC.IRQ_STATUS.GATE_DONE : Fld := ⟨0x18, 2, 2⟩
abbrev TDC.IRQ_STATUS.EARLY_STOP : Fld := ⟨0x18, 1, 1⟩
abbrev TDC.IRQ_STATUS.RESULT : Fld := ⟨0x18, 0, 0⟩
abbrev TDC.IRQ_ENABLE.off : Nat := 0x1C
abbrev TDC.IRQ_ENABLE.W : Fld := ⟨0x1C, 31, 0⟩
abbrev TDC.IRQ_VECTOR.off : Nat := 0x20
abbrev TDC.IRQ_VECTOR.VECTOR : Fld := ⟨0x20, 5, 0⟩
abbrev TDC.ERR_STATUS.off : Nat := 0x24
abbrev TDC.ERR_STATUS.ACC_SATURATED : Fld := ⟨0x24, 1, 1⟩
abbrev TDC.ERR_STATUS.ENGINE_ECC : Fld := ⟨0x24, 0, 0⟩
abbrev TDC.ERR_INJECT.off : Nat := 0x28
abbrev TDC.ERR_INJECT.W : Fld := ⟨0x28, 31, 0⟩
abbrev TDC.LAST_CMD.off : Nat := 0x2C
abbrev TDC.LAST_CMD.DETAIL : Fld := ⟨0x2C, 31, 16⟩
abbrev TDC.LAST_CMD.RESULT : Fld := ⟨0x2C, 15, 12⟩
abbrev TDC.LAST_CMD.SEQ : Fld := ⟨0x2C, 11, 8⟩
abbrev TDC.LAST_CMD.CODE : Fld := ⟨0x2C, 7, 0⟩
abbrev TDC.COMMIT_CTL.off : Nat := 0x30
abbrev TDC.COMMIT_CTL.SHADOW_DIRTY : Fld := ⟨0x30, 9, 9⟩
abbrev TDC.COMMIT_CTL.PENDING : Fld := ⟨0x30, 8, 8⟩
abbrev TDC.COMMIT_CTL.ABORT : Fld := ⟨0x30, 5, 5⟩
abbrev TDC.COMMIT_CTL.GO : Fld := ⟨0x30, 4, 4⟩
abbrev TDC.COMMIT_CTL.MODE : Fld := ⟨0x30, 1, 0⟩
abbrev TDC.COMMIT_GROUP.off : Nat := 0x34
abbrev TDC.COMMIT_GROUP.GROUP : Fld := ⟨0x34, 3, 0⟩
abbrev TDC.WRITE_SEQ.off : Nat := 0x38
abbrev TDC.WRITE_SEQ.SHADOW_WRITES : Fld := ⟨0x38, 31, 16⟩
abbrev TDC.WRITE_SEQ.COMMIT_SEQ : Fld := ⟨0x38, 15, 0⟩
abbrev PHASE.SRC_CFG.off : Nat := 0x40
abbrev PHASE.SRC_CFG.SENSE : Fld := ⟨0x40, 17, 16⟩
abbrev PHASE.SRC_CFG.SRC_TIN : Fld := ⟨0x40, 3, 0⟩
abbrev PHASE.FIT_CFG.off : Nat := 0x44
abbrev PHASE.FIT_CFG.N : Fld := ⟨0x44, 26, 16⟩
abbrev PHASE.FIT_CFG.ORDER : Fld := ⟨0x44, 9, 8⟩
abbrev PHASE.FIT_CFG.BOUND_K : Fld := ⟨0x44, 7, 0⟩
abbrev PHASE.PULSES.off : Nat := 0x48
abbrev PHASE.PULSES.PULSES_PER_TURN : Fld := ⟨0x48, 15, 0⟩
abbrev PHASE.SLIP_CFG.off : Nat := 0x4C
abbrev PHASE.SLIP_CFG.SLIP_MULT : Fld := ⟨0x4C, 31, 24⟩
abbrev PHASE.SLIP_CFG.COAST_MAX : Fld := ⟨0x4C, 23, 16⟩
abbrev PHASE.SLIP_CFG.LOSS_PERIODS : Fld := ⟨0x4C, 15, 8⟩
abbrev PHASE.SLIP_CFG.SLIP_ACTION : Fld := ⟨0x4C, 0, 0⟩
abbrev PHASE.EVENT_CFG.off : Nat := 0x50
abbrev PHASE.EVENT_CFG.EVENT_EVERY : Fld := ⟨0x50, 31, 16⟩
abbrev PHASE.EVENT_PHASE.off : Nat := 0x54
abbrev PHASE.EVENT_PHASE.FRACTION : Fld := ⟨0x54, 31, 0⟩
abbrev PHASE.CONV_LEAD.off : Nat := 0x58
abbrev PHASE.CONV_LEAD.LEAD_NS : Fld := ⟨0x58, 31, 0⟩
abbrev PHASE.FIT_REF_INSTANT.off : Nat := 0x60
abbrev PHASE.FIT_REF_INSTANT.INSTANT : Fld := ⟨0x60, 127, 0⟩
abbrev PHASE.FIT_REF_INDEX.off : Nat := 0x70
abbrev PHASE.FIT_REF_INDEX.INDEX : Fld := ⟨0x70, 63, 0⟩
abbrev PHASE.FIT_RMS.off : Nat := 0x78
abbrev PHASE.FIT_RMS.RMS_PS : Fld := ⟨0x78, 31, 0⟩
abbrev PHASE.BOUND_NEXT.off : Nat := 0x7C
abbrev PHASE.BOUND_NEXT.BOUND_PS : Fld := ⟨0x7C, 31, 0⟩
abbrev PHASE.FIT_PERIOD.off : Nat := 0x80
abbrev PHASE.FIT_PERIOD.SPAN : Fld := ⟨0x80, 95, 0⟩
abbrev PHASE.FIT_PERIOD_FRAC.off : Nat := 0x8C
abbrev PHASE.FIT_PERIOD_FRAC.FRAC : Fld := ⟨0x8C, 31, 0⟩
abbrev PHASE.FIT_ACCEL.off : Nat := 0x90
abbrev PHASE.FIT_ACCEL.C : Fld := ⟨0x90, 63, 0⟩
abbrev PHASE.CURRENT_PHASE.off : Nat := 0x98
abbrev PHASE.CURRENT_PHASE.PHASE : Fld := ⟨0x98, 63, 0⟩
abbrev PHASE.STAMPS.off : Nat := 0xA0
abbrev PHASE.STAMPS.COUNT : Fld := ⟨0xA0, 31, 0⟩
abbrev PHASE.SLIPS.off : Nat := 0xA4
abbrev PHASE.SLIPS.COUNT : Fld := ⟨0xA4, 31, 0⟩
abbrev PHASE.MISSED.off : Nat := 0xA8
abbrev PHASE.MISSED.COUNT : Fld := ⟨0xA8, 31, 0⟩
abbrev PHASE.SPURIOUS.off : Nat := 0xAC
abbrev PHASE.SPURIOUS.COUNT : Fld := ⟨0xAC, 31, 0⟩
abbrev PHASE.LAST_SLIP_ERR.off : Nat := 0xB0
abbrev PHASE.LAST_SLIP_ERR.ERR_PS : Fld := ⟨0xB0, 31, 0⟩
abbrev PHASE.LAST_SLIP_INSTANT.off : Nat := 0xC0
abbrev PHASE.LAST_SLIP_INSTANT.INSTANT : Fld := ⟨0xC0, 127, 0⟩
abbrev PHASE.BLOCK_ID.off : Nat := 0x0
abbrev PHASE.BLOCK_ID.TYPE : Fld := ⟨0x0, 31, 16⟩
abbrev PHASE.BLOCK_ID.INSTANCE : Fld := ⟨0x0, 15, 8⟩
abbrev PHASE.BLOCK_ID.HDR_VER : Fld := ⟨0x0, 7, 0⟩
abbrev PHASE.BLOCK_VER.off : Nat := 0x4
abbrev PHASE.BLOCK_VER.MAJOR : Fld := ⟨0x4, 23, 16⟩
abbrev PHASE.BLOCK_VER.MINOR : Fld := ⟨0x4, 15, 8⟩
abbrev PHASE.BLOCK_VER.PATCH : Fld := ⟨0x4, 7, 0⟩
abbrev PHASE.CAPS.off : Nat := 0x8
abbrev PHASE.CAPS.CAPS : Fld := ⟨0x8, 31, 0⟩
abbrev PHASE.OWNER.off : Nat := 0xC
abbrev PHASE.OWNER.OWNER_ID : Fld := ⟨0xC, 31, 16⟩
abbrev PHASE.STATUS.off : Nat := 0x10
abbrev PHASE.STATUS.SAFE : Fld := ⟨0x10, 31, 31⟩
abbrev PHASE.STATUS.ERR : Fld := ⟨0x10, 30, 30⟩
abbrev PHASE.STATUS.FROZEN_VIEW : Fld := ⟨0x10, 29, 29⟩
abbrev PHASE.STATUS.STATE : Fld := ⟨0x10, 2, 0⟩
abbrev PHASE.CONTROL.off : Nat := 0x14
abbrev PHASE.CONTROL.ENABLE : Fld := ⟨0x14, 31, 31⟩
abbrev PHASE.CONTROL.SAFE_EXIT : Fld := ⟨0x14, 30, 30⟩
abbrev PHASE.CONTROL.RESTART : Fld := ⟨0x14, 0, 0⟩
abbrev PHASE.IRQ_STATUS.off : Nat := 0x18
abbrev PHASE.IRQ_STATUS.LOST : Fld := ⟨0x18, 4, 4⟩
abbrev PHASE.IRQ_STATUS.SPURIOUS : Fld := ⟨0x18, 3, 3⟩
abbrev PHASE.IRQ_STATUS.MISSED : Fld := ⟨0x18, 2, 2⟩
abbrev PHASE.IRQ_STATUS.SLIP : Fld := ⟨0x18, 1, 1⟩
abbrev PHASE.IRQ_STATUS.LOCKED : Fld := ⟨0x18, 0, 0⟩
abbrev PHASE.IRQ_ENABLE.off : Nat := 0x1C
abbrev PHASE.IRQ_ENABLE.W : Fld := ⟨0x1C, 31, 0⟩
abbrev PHASE.IRQ_VECTOR.off : Nat := 0x20
abbrev PHASE.IRQ_VECTOR.VECTOR : Fld := ⟨0x20, 5, 0⟩
abbrev PHASE.ERR_STATUS.off : Nat := 0x24
abbrev PHASE.ERR_STATUS.SOURCE_LOST : Fld := ⟨0x24, 0, 0⟩
abbrev PHASE.ERR_INJECT.off : Nat := 0x28
abbrev PHASE.ERR_INJECT.W : Fld := ⟨0x28, 31, 0⟩
abbrev PHASE.LAST_CMD.off : Nat := 0x2C
abbrev PHASE.LAST_CMD.DETAIL : Fld := ⟨0x2C, 31, 16⟩
abbrev PHASE.LAST_CMD.RESULT : Fld := ⟨0x2C, 15, 12⟩
abbrev PHASE.LAST_CMD.SEQ : Fld := ⟨0x2C, 11, 8⟩
abbrev PHASE.LAST_CMD.CODE : Fld := ⟨0x2C, 7, 0⟩
abbrev PHASE.COMMIT_CTL.off : Nat := 0x30
abbrev PHASE.COMMIT_CTL.SHADOW_DIRTY : Fld := ⟨0x30, 9, 9⟩
abbrev PHASE.COMMIT_CTL.PENDING : Fld := ⟨0x30, 8, 8⟩
abbrev PHASE.COMMIT_CTL.ABORT : Fld := ⟨0x30, 5, 5⟩
abbrev PHASE.COMMIT_CTL.GO : Fld := ⟨0x30, 4, 4⟩
abbrev PHASE.COMMIT_CTL.MODE : Fld := ⟨0x30, 1, 0⟩
abbrev PHASE.COMMIT_GROUP.off : Nat := 0x34
abbrev PHASE.COMMIT_GROUP.GROUP : Fld := ⟨0x34, 3, 0⟩
abbrev PHASE.WRITE_SEQ.off : Nat := 0x38
abbrev PHASE.WRITE_SEQ.SHADOW_WRITES : Fld := ⟨0x38, 31, 16⟩
abbrev PHASE.WRITE_SEQ.COMMIT_SEQ : Fld := ⟨0x38, 15, 0⟩
abbrev SEQ.QUAD_MASK.off : Nat := 0x40
abbrev SEQ.QUAD_MASK.QUADS : Fld := ⟨0x40, 11, 0⟩
abbrev SEQ.START_CFG.off : Nat := 0x44
abbrev SEQ.START_CFG.JUMP_LINE_EN : Fld := ⟨0x44, 22, 22⟩
abbrev SEQ.START_CFG.JUMP_LINE : Fld := ⟨0x44, 21, 16⟩
abbrev SEQ.START_CFG.START_LINE : Fld := ⟨0x44, 13, 8⟩
abbrev SEQ.START_CFG.START_MODE : Fld := ⟨0x44, 1, 0⟩
abbrev SEQ.START_COURSE.off : Nat := 0x48
abbrev SEQ.START_COURSE.COURSE : Fld := ⟨0x48, 11, 0⟩
abbrev SEQ.CMD.off : Nat := 0x4C
abbrev SEQ.CMD.CODE : Fld := ⟨0x4C, 7, 0⟩
abbrev SEQ.START_AT.off : Nat := 0x50
abbrev SEQ.START_AT.INSTANT : Fld := ⟨0x50, 127, 0⟩
abbrev SEQ.START_DELAY.off : Nat := 0x60
abbrev SEQ.START_DELAY.SPAN : Fld := ⟨0x60, 95, 0⟩
abbrev SEQ.EVENT_MASK.off : Nat := 0x6C
abbrev SEQ.EVENT_MASK.KINDS : Fld := ⟨0x6C, 5, 0⟩
abbrev SEQ.CURRENT.off : Nat := 0x70
abbrev SEQ.CURRENT.SUCCESSOR : Fld := ⟨0x70, 27, 16⟩
abbrev SEQ.CURRENT.SUCC_VALID : Fld := ⟨0x70, 12, 12⟩
abbrev SEQ.CURRENT.COURSE : Fld := ⟨0x70, 11, 0⟩
abbrev SEQ.OCCURRENCE.off : Nat := 0x74
abbrev SEQ.OCCURRENCE.COUNT : Fld := ⟨0x74, 31, 0⟩
abbrev SEQ.STOP_INFO.off : Nat := 0x78
abbrev SEQ.STOP_INFO.REASON : Fld := ⟨0x78, 27, 24⟩
abbrev SEQ.STOP_INFO.COURSE : Fld := ⟨0x78, 11, 0⟩
abbrev SEQ.SEG_START.off : Nat := 0x80
abbrev SEQ.SEG_START.INSTANT : Fld := ⟨0x80, 127, 0⟩
abbrev SEQ.STOP_INSTANT.off : Nat := 0x90
abbrev SEQ.STOP_INSTANT.INSTANT : Fld := ⟨0x90, 127, 0⟩
abbrev SEQ.UNDERRUN_COUNT.off : Nat := 0xA0
abbrev SEQ.UNDERRUN_COUNT.COUNT : Fld := ⟨0xA0, 31, 0⟩
abbrev SEQ.FIRST_UNDERRUN.off : Nat := 0xA4
abbrev SEQ.FIRST_UNDERRUN.VALID : Fld := ⟨0xA4, 31, 31⟩
abbrev SEQ.FIRST_UNDERRUN.FROM_COURSE : Fld := ⟨0xA4, 27, 16⟩
abbrev SEQ.FIRST_UNDERRUN.COURSE : Fld := ⟨0xA4, 11, 0⟩
abbrev SEQ.ACTIVE_WRITE_DROPS.off : Nat := 0xA8
abbrev SEQ.ACTIVE_WRITE_DROPS.COUNT : Fld := ⟨0xA8, 31, 0⟩
abbrev SEQ.FIRST_DROP_ADDR.off : Nat := 0xAC
abbrev SEQ.FIRST_DROP_ADDR.VALID : Fld := ⟨0xAC, 31, 31⟩
abbrev SEQ.FIRST_DROP_ADDR.OFFSET : Fld := ⟨0xAC, 25, 0⟩
abbrev SEQ.LATE_RECORDS.off : Nat := 0xB0
abbrev SEQ.LATE_RECORDS.COUNT : Fld := ⟨0xB0, 31, 0⟩
abbrev SEQ.RECORD_ERRORS.off : Nat := 0xB4
abbrev SEQ.RECORD_ERRORS.COUNT : Fld := ⟨0xB4, 31, 0⟩
abbrev SEQ.REQUESTS_DISCARDED.off : Nat := 0xB8
abbrev SEQ.REQUESTS_DISCARDED.COUNT : Fld := ⟨0xB8, 31, 0⟩
abbrev SEQ.JUMPS_TAKEN.off : Nat := 0xBC
abbrev SEQ.JUMPS_TAKEN.COUNT : Fld := ⟨0xBC, 31, 0⟩
abbrev SEQ.REFILL_ADDR.off : Nat := 0xC0
abbrev SEQ.REFILL_ADDR.ADDR : Fld := ⟨0xC0, 63, 0⟩
abbrev SEQ.REFILL_ARG.off : Nat := 0xC8
abbrev SEQ.REFILL_ARG.SET_READY : Fld := ⟨0xC8, 31, 31⟩
abbrev SEQ.REFILL_ARG.QUAD : Fld := ⟨0xC8, 19, 16⟩
abbrev SEQ.REFILL_ARG.COURSE : Fld := ⟨0xC8, 11, 0⟩
abbrev SEQ.REFILL_CMD.off : Nat := 0xCC
abbrev SEQ.REFILL_CMD.CODE : Fld := ⟨0xCC, 7, 0⟩
abbrev SEQ.REFILL_STATE.off : Nat := 0xD0
abbrev SEQ.REFILL_STATE.DONE : Fld := ⟨0xD0, 31, 16⟩
abbrev SEQ.REFILL_STATE.QUEUED : Fld := ⟨0xD0, 4, 0⟩
abbrev SEQ.LOOP_COURSE.off (i : Nat) : Nat := 0x100 + 0x8 * i
abbrev SEQ.LOOP_COURSE.VALID (i : Nat) : Fld := ⟨0x100 + 0x8 * i, 31, 31⟩
abbrev SEQ.LOOP_COURSE.COURSE (i : Nat) : Fld := ⟨0x100 + 0x8 * i, 11, 0⟩
abbrev SEQ.LOOP_COUNT.off (i : Nat) : Nat := 0x104 + 0x8 * i
abbrev SEQ.LOOP_COUNT.COUNT (i : Nat) : Fld := ⟨0x104 + 0x8 * i, 31, 0⟩
abbrev SEQ.BLOCK_ID.off : Nat := 0x0
abbrev SEQ.BLOCK_ID.TYPE : Fld := ⟨0x0, 31, 16⟩
abbrev SEQ.BLOCK_ID.INSTANCE : Fld := ⟨0x0, 15, 8⟩
abbrev SEQ.BLOCK_ID.HDR_VER : Fld := ⟨0x0, 7, 0⟩
abbrev SEQ.BLOCK_VER.off : Nat := 0x4
abbrev SEQ.BLOCK_VER.MAJOR : Fld := ⟨0x4, 23, 16⟩
abbrev SEQ.BLOCK_VER.MINOR : Fld := ⟨0x4, 15, 8⟩
abbrev SEQ.BLOCK_VER.PATCH : Fld := ⟨0x4, 7, 0⟩
abbrev SEQ.CAPS.off : Nat := 0x8
abbrev SEQ.CAPS.CAPS : Fld := ⟨0x8, 31, 0⟩
abbrev SEQ.OWNER.off : Nat := 0xC
abbrev SEQ.OWNER.OWNER_ID : Fld := ⟨0xC, 31, 16⟩
abbrev SEQ.STATUS.off : Nat := 0x10
abbrev SEQ.STATUS.SAFE : Fld := ⟨0x10, 31, 31⟩
abbrev SEQ.STATUS.ERR : Fld := ⟨0x10, 30, 30⟩
abbrev SEQ.STATUS.FROZEN_VIEW : Fld := ⟨0x10, 29, 29⟩
abbrev SEQ.STATUS.JUMP_WAITING : Fld := ⟨0x10, 5, 5⟩
abbrev SEQ.STATUS.JUMP_DEFERRED : Fld := ⟨0x10, 4, 4⟩
abbrev SEQ.STATUS.REQUEST_PENDING : Fld := ⟨0x10, 3, 3⟩
abbrev SEQ.STATUS.STATE : Fld := ⟨0x10, 2, 0⟩
abbrev SEQ.CONTROL.off : Nat := 0x14
abbrev SEQ.CONTROL.ENABLE : Fld := ⟨0x14, 31, 31⟩
abbrev SEQ.CONTROL.SAFE_EXIT : Fld := ⟨0x14, 30, 30⟩
abbrev SEQ.IRQ_STATUS.off : Nat := 0x18
abbrev SEQ.IRQ_STATUS.PARKED : Fld := ⟨0x18, 9, 9⟩
abbrev SEQ.IRQ_STATUS.RECORD_ERROR : Fld := ⟨0x18, 8, 8⟩
abbrev SEQ.IRQ_STATUS.LATE_RECORD : Fld := ⟨0x18, 7, 7⟩
abbrev SEQ.IRQ_STATUS.ACTIVE_WRITE_DROP : Fld := ⟨0x18, 6, 6⟩
abbrev SEQ.IRQ_STATUS.REFILL_DONE : Fld := ⟨0x18, 5, 5⟩
abbrev SEQ.IRQ_STATUS.JUMP_DEFERRED : Fld := ⟨0x18, 4, 4⟩
abbrev SEQ.IRQ_STATUS.JUMP_TAKEN : Fld := ⟨0x18, 3, 3⟩
abbrev SEQ.IRQ_STATUS.UNDERRUN : Fld := ⟨0x18, 2, 2⟩
abbrev SEQ.IRQ_STATUS.STOPPED : Fld := ⟨0x18, 1, 1⟩
abbrev SEQ.IRQ_STATUS.STARTED : Fld := ⟨0x18, 0, 0⟩
abbrev SEQ.IRQ_ENABLE.off : Nat := 0x1C
abbrev SEQ.IRQ_ENABLE.W : Fld := ⟨0x1C, 31, 0⟩
abbrev SEQ.IRQ_VECTOR.off : Nat := 0x20
abbrev SEQ.IRQ_VECTOR.VECTOR : Fld := ⟨0x20, 5, 0⟩
abbrev SEQ.ERR_STATUS.off : Nat := 0x24
abbrev SEQ.ERR_STATUS.BANK_ECC_CORR : Fld := ⟨0x24, 3, 3⟩
abbrev SEQ.ERR_STATUS.BANK_ECC_UNCORR : Fld := ⟨0x24, 2, 2⟩
abbrev SEQ.ERR_STATUS.REFILL_DMA : Fld := ⟨0x24, 1, 1⟩
abbrev SEQ.ERR_STATUS.BAD_COURSE : Fld := ⟨0x24, 0, 0⟩
abbrev SEQ.ERR_INJECT.off : Nat := 0x28
abbrev SEQ.ERR_INJECT.W : Fld := ⟨0x28, 31, 0⟩
abbrev SEQ.LAST_CMD.off : Nat := 0x2C
abbrev SEQ.LAST_CMD.DETAIL : Fld := ⟨0x2C, 31, 16⟩
abbrev SEQ.LAST_CMD.RESULT : Fld := ⟨0x2C, 15, 12⟩
abbrev SEQ.LAST_CMD.SEQ : Fld := ⟨0x2C, 11, 8⟩
abbrev SEQ.LAST_CMD.CODE : Fld := ⟨0x2C, 7, 0⟩
abbrev SEQ.COMMIT_CTL.off : Nat := 0x30
abbrev SEQ.COMMIT_CTL.SHADOW_DIRTY : Fld := ⟨0x30, 9, 9⟩
abbrev SEQ.COMMIT_CTL.PENDING : Fld := ⟨0x30, 8, 8⟩
abbrev SEQ.COMMIT_CTL.ABORT : Fld := ⟨0x30, 5, 5⟩
abbrev SEQ.COMMIT_CTL.GO : Fld := ⟨0x30, 4, 4⟩
abbrev SEQ.COMMIT_CTL.MODE : Fld := ⟨0x30, 1, 0⟩
abbrev SEQ.COMMIT_GROUP.off : Nat := 0x34
abbrev SEQ.COMMIT_GROUP.GROUP : Fld := ⟨0x34, 3, 0⟩
abbrev SEQ.WRITE_SEQ.off : Nat := 0x38
abbrev SEQ.WRITE_SEQ.SHADOW_WRITES : Fld := ⟨0x38, 31, 16⟩
abbrev SEQ.WRITE_SEQ.COMMIT_SEQ : Fld := ⟨0x38, 15, 0⟩
abbrev COURSE.READY.off (i : Nat) : Nat := 0x40 + 0x4 * i
abbrev COURSE.READY.READY (i : Nat) : Fld := ⟨0x40 + 0x4 * i, 31, 0⟩
abbrev COURSE.READY_ARG.off : Nat := 0x240
abbrev COURSE.READY_ARG.COUNT : Fld := ⟨0x240, 28, 16⟩
abbrev COURSE.READY_ARG.FIRST : Fld := ⟨0x240, 11, 0⟩
abbrev COURSE.READY_CMD.off : Nat := 0x244
abbrev COURSE.READY_CMD.CODE : Fld := ⟨0x244, 7, 0⟩
abbrev COURSE.VALIDATE_RESULT.off : Nat := 0x248
abbrev COURSE.VALIDATE_RESULT.FAIL : Fld := ⟨0x248, 31, 31⟩
abbrev COURSE.VALIDATE_RESULT.CHECK : Fld := ⟨0x248, 27, 24⟩
abbrev COURSE.VALIDATE_RESULT.COURSE : Fld := ⟨0x248, 11, 0⟩
abbrev COURSE.COURSE_WRITE_DROPS.off : Nat := 0x24C
abbrev COURSE.COURSE_WRITE_DROPS.COUNT : Fld := ⟨0x24C, 31, 0⟩
abbrev COURSE.FIRST_COURSE_DROP.off : Nat := 0x250
abbrev COURSE.FIRST_COURSE_DROP.VALID : Fld := ⟨0x250, 31, 31⟩
abbrev COURSE.FIRST_COURSE_DROP.COURSE : Fld := ⟨0x250, 11, 0⟩
abbrev COURSE.BLOCK_ID.off : Nat := 0x0
abbrev COURSE.BLOCK_ID.TYPE : Fld := ⟨0x0, 31, 16⟩
abbrev COURSE.BLOCK_ID.INSTANCE : Fld := ⟨0x0, 15, 8⟩
abbrev COURSE.BLOCK_ID.HDR_VER : Fld := ⟨0x0, 7, 0⟩
abbrev COURSE.BLOCK_VER.off : Nat := 0x4
abbrev COURSE.BLOCK_VER.MAJOR : Fld := ⟨0x4, 23, 16⟩
abbrev COURSE.BLOCK_VER.MINOR : Fld := ⟨0x4, 15, 8⟩
abbrev COURSE.BLOCK_VER.PATCH : Fld := ⟨0x4, 7, 0⟩
abbrev COURSE.CAPS.off : Nat := 0x8
abbrev COURSE.CAPS.CAPS : Fld := ⟨0x8, 31, 0⟩
abbrev COURSE.OWNER.off : Nat := 0xC
abbrev COURSE.OWNER.OWNER_ID : Fld := ⟨0xC, 31, 16⟩
abbrev COURSE.STATUS.off : Nat := 0x10
abbrev COURSE.STATUS.SAFE : Fld := ⟨0x10, 31, 31⟩
abbrev COURSE.STATUS.ERR : Fld := ⟨0x10, 30, 30⟩
abbrev COURSE.STATUS.FROZEN_VIEW : Fld := ⟨0x10, 29, 29⟩
abbrev COURSE.CONTROL.off : Nat := 0x14
abbrev COURSE.CONTROL.ENABLE : Fld := ⟨0x14, 31, 31⟩
abbrev COURSE.CONTROL.SAFE_EXIT : Fld := ⟨0x14, 30, 30⟩
abbrev COURSE.IRQ_STATUS.off : Nat := 0x18
abbrev COURSE.IRQ_STATUS.COURSE_WRITE_DROP : Fld := ⟨0x18, 0, 0⟩
abbrev COURSE.IRQ_ENABLE.off : Nat := 0x1C
abbrev COURSE.IRQ_ENABLE.W : Fld := ⟨0x1C, 31, 0⟩
abbrev COURSE.IRQ_VECTOR.off : Nat := 0x20
abbrev COURSE.IRQ_VECTOR.VECTOR : Fld := ⟨0x20, 5, 0⟩
abbrev COURSE.ERR_STATUS.off : Nat := 0x24
abbrev COURSE.ERR_STATUS.TABLE_ECC_UNCORR : Fld := ⟨0x24, 0, 0⟩
abbrev COURSE.ERR_STATUS.TABLE_ECC_CORR : Fld := ⟨0x24, 1, 1⟩
abbrev COURSE.ERR_INJECT.off : Nat := 0x28
abbrev COURSE.ERR_INJECT.W : Fld := ⟨0x28, 31, 0⟩
abbrev COURSE.LAST_CMD.off : Nat := 0x2C
abbrev COURSE.LAST_CMD.DETAIL : Fld := ⟨0x2C, 31, 16⟩
abbrev COURSE.LAST_CMD.RESULT : Fld := ⟨0x2C, 15, 12⟩
abbrev COURSE.LAST_CMD.SEQ : Fld := ⟨0x2C, 11, 8⟩
abbrev COURSE.LAST_CMD.CODE : Fld := ⟨0x2C, 7, 0⟩
abbrev COURSE.COMMIT_CTL.off : Nat := 0x30
abbrev COURSE.COMMIT_CTL.SHADOW_DIRTY : Fld := ⟨0x30, 9, 9⟩
abbrev COURSE.COMMIT_CTL.PENDING : Fld := ⟨0x30, 8, 8⟩
abbrev COURSE.COMMIT_CTL.ABORT : Fld := ⟨0x30, 5, 5⟩
abbrev COURSE.COMMIT_CTL.GO : Fld := ⟨0x30, 4, 4⟩
abbrev COURSE.COMMIT_CTL.MODE : Fld := ⟨0x30, 1, 0⟩
abbrev COURSE.COMMIT_GROUP.off : Nat := 0x34
abbrev COURSE.COMMIT_GROUP.GROUP : Fld := ⟨0x34, 3, 0⟩
abbrev COURSE.WRITE_SEQ.off : Nat := 0x38
abbrev COURSE.WRITE_SEQ.SHADOW_WRITES : Fld := ⟨0x38, 31, 16⟩
abbrev COURSE.WRITE_SEQ.COMMIT_SEQ : Fld := ⟨0x38, 15, 0⟩
abbrev SCHED.Q_CFG.off (i : Nat) : Nat := 0x40 + 0x20 * i
abbrev SCHED.Q_CFG.ENABLE (i : Nat) : Fld := ⟨0x40 + 0x20 * i, 31, 31⟩
abbrev SCHED.Q_CFG.HOLD (i : Nat) : Fld := ⟨0x40 + 0x20 * i, 30, 30⟩
abbrev SCHED.Q_CFG.BASE_INDEX (i : Nat) : Fld := ⟨0x40 + 0x20 * i, 19, 16⟩
abbrev SCHED.Q_CFG.BASE (i : Nat) : Fld := ⟨0x40 + 0x20 * i, 15, 14⟩
abbrev SCHED.Q_STATE.off (i : Nat) : Nat := 0x44 + 0x20 * i
abbrev SCHED.Q_STATE.DEPTH (i : Nat) : Fld := ⟨0x44 + 0x20 * i, 25, 16⟩
abbrev SCHED.Q_STATE.HELD_SAFE (i : Nat) : Fld := ⟨0x44 + 0x20 * i, 15, 15⟩
abbrev SCHED.Q_STATE.HELD_PHASE (i : Nat) : Fld := ⟨0x44 + 0x20 * i, 14, 14⟩
abbrev SCHED.Q_ACCEPTED.off (i : Nat) : Nat := 0x48 + 0x20 * i
abbrev SCHED.Q_ACCEPTED.COUNT (i : Nat) : Fld := ⟨0x48 + 0x20 * i, 31, 0⟩
abbrev SCHED.Q_LATE.off (i : Nat) : Nat := 0x4C + 0x20 * i
abbrev SCHED.Q_LATE.COUNT (i : Nat) : Fld := ⟨0x4C + 0x20 * i, 31, 0⟩
abbrev SCHED.Q_ORDER_REF.off (i : Nat) : Nat := 0x50 + 0x20 * i
abbrev SCHED.Q_ORDER_REF.WHEN (i : Nat) : Fld := ⟨0x50 + 0x20 * i, 127, 0⟩
abbrev SCHED.REFUSED_COUNT.off : Nat := 0x240
abbrev SCHED.REFUSED_COUNT.COUNT : Fld := ⟨0x240, 31, 0⟩
abbrev SCHED.BOUND_FAIL_COUNT.off : Nat := 0x244
abbrev SCHED.BOUND_FAIL_COUNT.COUNT : Fld := ⟨0x244, 31, 0⟩
abbrev SCHED.TARGET_STATE_COUNT.off : Nat := 0x248
abbrev SCHED.TARGET_STATE_COUNT.COUNT : Fld := ⟨0x248, 31, 0⟩
abbrev SCHED.DISCARDED_COUNT.off : Nat := 0x24C
abbrev SCHED.DISCARDED_COUNT.COUNT : Fld := ⟨0x24C, 31, 0⟩
abbrev SCHED.LAST_LATE_REQ.off : Nat := 0x250
abbrev SCHED.LAST_LATE_REQ.INSTANT : Fld := ⟨0x250, 127, 0⟩
abbrev SCHED.LAST_LATE_ACT.off : Nat := 0x260
abbrev SCHED.LAST_LATE_ACT.INSTANT : Fld := ⟨0x260, 127, 0⟩
abbrev SCHED.LAST_LATE_INFO.off : Nat := 0x270
abbrev SCHED.LAST_LATE_INFO.TAG : Fld := ⟨0x270, 31, 16⟩
abbrev SCHED.LAST_LATE_INFO.QUEUE : Fld := ⟨0x270, 15, 12⟩
abbrev SCHED.LAST_LATE_INFO.OUTCOME : Fld := ⟨0x270, 11, 8⟩
abbrev SCHED.LAST_LATE_INFO.OPCODE : Fld := ⟨0x270, 7, 0⟩
abbrev SCHED.LOG_CFG.off : Nat := 0x274
abbrev SCHED.LOG_CFG.LOG_ALL : Fld := ⟨0x274, 0, 0⟩
abbrev SCHED.SUBMIT_BUF.off : Nat := 0x280
abbrev SCHED.SUBMIT_BUF.ACTION : Fld := ⟨0x280, 255, 0⟩
abbrev SCHED.SUBMIT_CMD.off : Nat := 0x2A0
abbrev SCHED.SUBMIT_CMD.QUEUE : Fld := ⟨0x2A0, 11, 8⟩
abbrev SCHED.SUBMIT_CMD.CODE : Fld := ⟨0x2A0, 7, 0⟩
abbrev SCHED.TICK_CFG.off (i : Nat) : Nat := 0x400 + 0x40 * i
abbrev SCHED.TICK_CFG.ENABLE (i : Nat) : Fld := ⟨0x400 + 0x40 * i, 31, 31⟩
abbrev SCHED.TICK_CFG.IRQ_DIVIDE (i : Nat) : Fld := ⟨0x400 + 0x40 * i, 15, 0⟩
abbrev SCHED.TICK_COUNT.off (i : Nat) : Nat := 0x404 + 0x40 * i
abbrev SCHED.TICK_COUNT.COUNT (i : Nat) : Fld := ⟨0x404 + 0x40 * i, 31, 0⟩
abbrev SCHED.TICK_ORIGIN.off (i : Nat) : Nat := 0x410 + 0x40 * i
abbrev SCHED.TICK_ORIGIN.INSTANT (i : Nat) : Fld := ⟨0x410 + 0x40 * i, 127, 0⟩
abbrev SCHED.TICK_PERIOD.off (i : Nat) : Nat := 0x420 + 0x40 * i
abbrev SCHED.TICK_PERIOD.SPAN (i : Nat) : Fld := ⟨0x420 + 0x40 * i, 95, 0⟩
abbrev SCHED.TICK_NEXT.off (i : Nat) : Nat := 0x430 + 0x40 * i
abbrev SCHED.TICK_NEXT.INDEX (i : Nat) : Fld := ⟨0x430 + 0x40 * i, 63, 0⟩
abbrev SCHED.TICK_FIRED.off (i : Nat) : Nat := 0x438 + 0x40 * i
abbrev SCHED.TICK_FIRED.COUNT (i : Nat) : Fld := ⟨0x438 + 0x40 * i, 31, 0⟩
abbrev SCHED.BLOCK_ID.off : Nat := 0x0
abbrev SCHED.BLOCK_ID.TYPE : Fld := ⟨0x0, 31, 16⟩
abbrev SCHED.BLOCK_ID.INSTANCE : Fld := ⟨0x0, 15, 8⟩
abbrev SCHED.BLOCK_ID.HDR_VER : Fld := ⟨0x0, 7, 0⟩
abbrev SCHED.BLOCK_VER.off : Nat := 0x4
abbrev SCHED.BLOCK_VER.MAJOR : Fld := ⟨0x4, 23, 16⟩
abbrev SCHED.BLOCK_VER.MINOR : Fld := ⟨0x4, 15, 8⟩
abbrev SCHED.BLOCK_VER.PATCH : Fld := ⟨0x4, 7, 0⟩
abbrev SCHED.CAPS.off : Nat := 0x8
abbrev SCHED.CAPS.CAPS : Fld := ⟨0x8, 31, 0⟩
abbrev SCHED.OWNER.off : Nat := 0xC
abbrev SCHED.OWNER.OWNER_ID : Fld := ⟨0xC, 31, 16⟩
abbrev SCHED.STATUS.off : Nat := 0x10
abbrev SCHED.STATUS.SAFE : Fld := ⟨0x10, 31, 31⟩
abbrev SCHED.STATUS.ERR : Fld := ⟨0x10, 30, 30⟩
abbrev SCHED.STATUS.FROZEN_VIEW : Fld := ⟨0x10, 29, 29⟩
abbrev SCHED.STATUS.TICK_RUN : Fld := ⟨0x10, 23, 16⟩
abbrev SCHED.STATUS.Q_NONEMPTY : Fld := ⟨0x10, 15, 0⟩
abbrev SCHED.CONTROL.off : Nat := 0x14
abbrev SCHED.CONTROL.ENABLE : Fld := ⟨0x14, 31, 31⟩
abbrev SCHED.CONTROL.SAFE_EXIT : Fld := ⟨0x14, 30, 30⟩
abbrev SCHED.IRQ_STATUS.off : Nat := 0x18
abbrev SCHED.IRQ_STATUS.TICK : Fld := ⟨0x18, 15, 8⟩
abbrev SCHED.IRQ_STATUS.TARGET_STATE : Fld := ⟨0x18, 3, 3⟩
abbrev SCHED.IRQ_STATUS.REFUSED : Fld := ⟨0x18, 2, 2⟩
abbrev SCHED.IRQ_STATUS.BOUND_FAIL : Fld := ⟨0x18, 1, 1⟩
abbrev SCHED.IRQ_STATUS.LATE : Fld := ⟨0x18, 0, 0⟩
abbrev SCHED.IRQ_ENABLE.off : Nat := 0x1C
abbrev SCHED.IRQ_ENABLE.W : Fld := ⟨0x1C, 31, 0⟩
abbrev SCHED.IRQ_VECTOR.off : Nat := 0x20
abbrev SCHED.IRQ_VECTOR.VECTOR : Fld := ⟨0x20, 5, 0⟩
abbrev SCHED.ERR_STATUS.off : Nat := 0x24
abbrev SCHED.ERR_STATUS.QUEUE_ECC_CORR : Fld := ⟨0x24, 1, 1⟩
abbrev SCHED.ERR_STATUS.QUEUE_ECC_UNCORR : Fld := ⟨0x24, 0, 0⟩
abbrev SCHED.ERR_INJECT.off : Nat := 0x28
abbrev SCHED.ERR_INJECT.W : Fld := ⟨0x28, 31, 0⟩
abbrev SCHED.LAST_CMD.off : Nat := 0x2C
abbrev SCHED.LAST_CMD.DETAIL : Fld := ⟨0x2C, 31, 16⟩
abbrev SCHED.LAST_CMD.RESULT : Fld := ⟨0x2C, 15, 12⟩
abbrev SCHED.LAST_CMD.SEQ : Fld := ⟨0x2C, 11, 8⟩
abbrev SCHED.LAST_CMD.CODE : Fld := ⟨0x2C, 7, 0⟩
abbrev SCHED.COMMIT_CTL.off : Nat := 0x30
abbrev SCHED.COMMIT_CTL.SHADOW_DIRTY : Fld := ⟨0x30, 9, 9⟩
abbrev SCHED.COMMIT_CTL.PENDING : Fld := ⟨0x30, 8, 8⟩
abbrev SCHED.COMMIT_CTL.ABORT : Fld := ⟨0x30, 5, 5⟩
abbrev SCHED.COMMIT_CTL.GO : Fld := ⟨0x30, 4, 4⟩
abbrev SCHED.COMMIT_CTL.MODE : Fld := ⟨0x30, 1, 0⟩
abbrev SCHED.COMMIT_GROUP.off : Nat := 0x34
abbrev SCHED.COMMIT_GROUP.GROUP : Fld := ⟨0x34, 3, 0⟩
abbrev SCHED.WRITE_SEQ.off : Nat := 0x38
abbrev SCHED.WRITE_SEQ.SHADOW_WRITES : Fld := ⟨0x38, 31, 16⟩
abbrev SCHED.WRITE_SEQ.COMMIT_SEQ : Fld := ⟨0x38, 15, 0⟩
abbrev TRIG.HOST_FIRE_AT.off : Nat := 0x40
abbrev TRIG.HOST_FIRE_AT.INSTANT : Fld := ⟨0x40, 127, 0⟩
abbrev TRIG.HOST_FIRE.off : Nat := 0x50
abbrev TRIG.HOST_FIRE.LINE : Fld := ⟨0x50, 13, 8⟩
abbrev TRIG.HOST_FIRE.CODE : Fld := ⟨0x50, 7, 0⟩
abbrev TRIG.LAST_SEL.off : Nat := 0x60
abbrev TRIG.LAST_SEL.LINE : Fld := ⟨0x60, 5, 0⟩
abbrev TRIG.LAST_INSTANT.off : Nat := 0x70
abbrev TRIG.LAST_INSTANT.INSTANT : Fld := ⟨0x70, 127, 0⟩
abbrev TRIG.LAST_TEB.off : Nat := 0x80
abbrev TRIG.LAST_TEB.TEB_PS : Fld := ⟨0x80, 31, 0⟩
abbrev TRIG.CAPTURE_EN.off : Nat := 0x90
abbrev TRIG.CAPTURE_EN.LINES : Fld := ⟨0x90, 63, 0⟩
abbrev TRIG.TL_SRC.off (i : Nat) : Nat := 0x100 + 0x8 * i
abbrev TRIG.TL_SRC.ENABLE (i : Nat) : Fld := ⟨0x100 + 0x8 * i, 31, 31⟩
abbrev TRIG.TL_SRC.SENSE (i : Nat) : Fld := ⟨0x100 + 0x8 * i, 17, 16⟩
abbrev TRIG.TL_SRC.INDEX (i : Nat) : Fld := ⟨0x100 + 0x8 * i, 15, 8⟩
abbrev TRIG.TL_SRC.KIND (i : Nat) : Fld := ⟨0x100 + 0x8 * i, 3, 0⟩
abbrev TRIG.TL_SHAPE.off (i : Nat) : Nat := 0x104 + 0x8 * i
abbrev TRIG.TL_SHAPE.DIVIDE (i : Nat) : Fld := ⟨0x104 + 0x8 * i, 31, 16⟩
abbrev TRIG.TL_SHAPE.HOLDOFF (i : Nat) : Fld := ⟨0x104 + 0x8 * i, 15, 0⟩
abbrev TRIG.TL_COUNT.off (i : Nat) : Nat := 0x300 + 0x4 * i
abbrev TRIG.TL_COUNT.COUNT (i : Nat) : Fld := ⟨0x300 + 0x4 * i, 31, 0⟩
abbrev TRIG.TL_DROPS.off (i : Nat) : Nat := 0x400 + 0x4 * i
abbrev TRIG.TL_DROPS.COUNT (i : Nat) : Fld := ⟨0x400 + 0x4 * i, 31, 0⟩
abbrev TRIG.BLOCK_ID.off : Nat := 0x0
abbrev TRIG.BLOCK_ID.TYPE : Fld := ⟨0x0, 31, 16⟩
abbrev TRIG.BLOCK_ID.INSTANCE : Fld := ⟨0x0, 15, 8⟩
abbrev TRIG.BLOCK_ID.HDR_VER : Fld := ⟨0x0, 7, 0⟩
abbrev TRIG.BLOCK_VER.off : Nat := 0x4
abbrev TRIG.BLOCK_VER.MAJOR : Fld := ⟨0x4, 23, 16⟩
abbrev TRIG.BLOCK_VER.MINOR : Fld := ⟨0x4, 15, 8⟩
abbrev TRIG.BLOCK_VER.PATCH : Fld := ⟨0x4, 7, 0⟩
abbrev TRIG.CAPS.off : Nat := 0x8
abbrev TRIG.CAPS.CAPS : Fld := ⟨0x8, 31, 0⟩
abbrev TRIG.OWNER.off : Nat := 0xC
abbrev TRIG.OWNER.OWNER_ID : Fld := ⟨0xC, 31, 16⟩
abbrev TRIG.STATUS.off : Nat := 0x10
abbrev TRIG.STATUS.SAFE : Fld := ⟨0x10, 31, 31⟩
abbrev TRIG.STATUS.ERR : Fld := ⟨0x10, 30, 30⟩
abbrev TRIG.STATUS.FROZEN_VIEW : Fld := ⟨0x10, 29, 29⟩
abbrev TRIG.CONTROL.off : Nat := 0x14
abbrev TRIG.CONTROL.ENABLE : Fld := ⟨0x14, 31, 31⟩
abbrev TRIG.CONTROL.SAFE_EXIT : Fld := ⟨0x14, 30, 30⟩
abbrev TRIG.IRQ_STATUS.off : Nat := 0x18
abbrev TRIG.IRQ_STATUS.LINE_DROP : Fld := ⟨0x18, 0, 0⟩
abbrev TRIG.IRQ_ENABLE.off : Nat := 0x1C
abbrev TRIG.IRQ_ENABLE.W : Fld := ⟨0x1C, 31, 0⟩
abbrev TRIG.IRQ_VECTOR.off : Nat := 0x20
abbrev TRIG.IRQ_VECTOR.VECTOR : Fld := ⟨0x20, 5, 0⟩
abbrev TRIG.ERR_STATUS.off : Nat := 0x24
abbrev TRIG.ERR_STATUS.BUS_ECC : Fld := ⟨0x24, 0, 0⟩
abbrev TRIG.ERR_INJECT.off : Nat := 0x28
abbrev TRIG.ERR_INJECT.W : Fld := ⟨0x28, 31, 0⟩
abbrev TRIG.LAST_CMD.off : Nat := 0x2C
abbrev TRIG.LAST_CMD.DETAIL : Fld := ⟨0x2C, 31, 16⟩
abbrev TRIG.LAST_CMD.RESULT : Fld := ⟨0x2C, 15, 12⟩
abbrev TRIG.LAST_CMD.SEQ : Fld := ⟨0x2C, 11, 8⟩
abbrev TRIG.LAST_CMD.CODE : Fld := ⟨0x2C, 7, 0⟩
abbrev TRIG.COMMIT_CTL.off : Nat := 0x30
abbrev TRIG.COMMIT_CTL.SHADOW_DIRTY : Fld := ⟨0x30, 9, 9⟩
abbrev TRIG.COMMIT_CTL.PENDING : Fld := ⟨0x30, 8, 8⟩
abbrev TRIG.COMMIT_CTL.ABORT : Fld := ⟨0x30, 5, 5⟩
abbrev TRIG.COMMIT_CTL.GO : Fld := ⟨0x30, 4, 4⟩
abbrev TRIG.COMMIT_CTL.MODE : Fld := ⟨0x30, 1, 0⟩
abbrev TRIG.COMMIT_GROUP.off : Nat := 0x34
abbrev TRIG.COMMIT_GROUP.GROUP : Fld := ⟨0x34, 3, 0⟩
abbrev TRIG.WRITE_SEQ.off : Nat := 0x38
abbrev TRIG.WRITE_SEQ.SHADOW_WRITES : Fld := ⟨0x38, 31, 16⟩
abbrev TRIG.WRITE_SEQ.COMMIT_SEQ : Fld := ⟨0x38, 15, 0⟩
abbrev RDG.PORT_CFG.off : Nat := 0x40
abbrev RDG.PORT_CFG.ROLE : Fld := ⟨0x40, 17, 16⟩
abbrev RDG.PORT_CFG.TIME_PERIOD : Fld := ⟨0x40, 8, 8⟩
abbrev RDG.PORT_CFG.PROMOTE : Fld := ⟨0x40, 0, 0⟩
abbrev RDG.PEER.off : Nat := 0x44
abbrev RDG.PEER.PEER_ID : Fld := ⟨0x44, 31, 16⟩
abbrev RDG.PEER.PEER_DOMAIN : Fld := ⟨0x44, 15, 8⟩
abbrev RDG.PEER.PEER_ROOT : Fld := ⟨0x44, 0, 0⟩
abbrev RDG.ASYM.off : Nat := 0x50
abbrev RDG.ASYM.SPAN : Fld := ⟨0x50, 95, 0⟩
abbrev RDG.ASYM_UNC.off : Nat := 0x5C
abbrev RDG.ASYM_UNC.UNC_PS : Fld := ⟨0x5C, 15, 0⟩
abbrev RDG.THETA.off : Nat := 0x60
abbrev RDG.THETA.SPAN : Fld := ⟨0x60, 95, 0⟩
abbrev RDG.PATH_DELAY.off : Nat := 0x70
abbrev RDG.PATH_DELAY.SPAN : Fld := ⟨0x70, 95, 0⟩
abbrev RDG.HOP_TERM.off : Nat := 0x7C
abbrev RDG.HOP_TERM.PS : Fld := ⟨0x7C, 31, 0⟩
abbrev RDG.OBS_TEB.off : Nat := 0x80
abbrev RDG.OBS_TEB.PS : Fld := ⟨0x80, 31, 0⟩
abbrev RDG.TX_TERM.off : Nat := 0x84
abbrev RDG.TX_TERM.TERM_SU : Fld := ⟨0x84, 31, 0⟩
abbrev RDG.RX_TERM.off : Nat := 0x88
abbrev RDG.RX_TERM.TERM_SU : Fld := ⟨0x88, 31, 0⟩
abbrev RDG.STAMP_BOUND.off : Nat := 0x8C
abbrev RDG.STAMP_BOUND.PS : Fld := ⟨0x8C, 31, 0⟩
abbrev RDG.CELLS_RX.off : Nat := 0x90
abbrev RDG.CELLS_RX.COUNT : Fld := ⟨0x90, 31, 0⟩
abbrev RDG.CRC_ERRORS.off : Nat := 0x94
abbrev RDG.CRC_ERRORS.COUNT : Fld := ⟨0x94, 31, 0⟩
abbrev RDG.CELL_DROPS.off : Nat := 0x98
abbrev RDG.CELL_DROPS.COUNT : Fld := ⟨0x98, 31, 0⟩
abbrev RDG.LINK_LOSSES.off : Nat := 0x9C
abbrev RDG.LINK_LOSSES.COUNT : Fld := ⟨0x9C, 31, 0⟩
abbrev RDG.TRIG_LATE.off : Nat := 0xA0
abbrev RDG.TRIG_LATE.COUNT : Fld := ⟨0xA0, 31, 0⟩
abbrev RDG.DUPLICATES.off : Nat := 0xA4
abbrev RDG.DUPLICATES.COUNT : Fld := ⟨0xA4, 31, 0⟩
abbrev RDG.AUTH_FAILS.off : Nat := 0xA8
abbrev RDG.AUTH_FAILS.COUNT : Fld := ⟨0xA8, 31, 0⟩
abbrev RDG.LOSS_AT.off : Nat := 0xB0
abbrev RDG.LOSS_AT.INSTANT : Fld := ⟨0xB0, 127, 0⟩
abbrev RDG.NODE_CFG.off : Nat := 0x400
abbrev RDG.NODE_CFG.NODE_ID : Fld := ⟨0x400, 31, 16⟩
abbrev RDG.NODE_CFG.DOMAIN_NUM : Fld := ⟨0x400, 15, 8⟩
abbrev RDG.NODE_CFG.UTC_FOLLOW : Fld := ⟨0x400, 2, 2⟩
abbrev RDG.NODE_CFG.ROOT : Fld := ⟨0x400, 1, 1⟩
abbrev RDG.NODE_CFG.ID_VALID : Fld := ⟨0x400, 0, 0⟩
abbrev RDG.TRIG_LEAD.off : Nat := 0x404
abbrev RDG.TRIG_LEAD.NS : Fld := ⟨0x404, 31, 0⟩
abbrev RDG.TRIG_ISSUE_AT.off : Nat := 0x410
abbrev RDG.TRIG_ISSUE_AT.INSTANT : Fld := ⟨0x410, 127, 0⟩
abbrev RDG.TRIG_ISSUE_ARG.off : Nat := 0x420
abbrev RDG.TRIG_ISSUE_ARG.DST : Fld := ⟨0x420, 31, 16⟩
abbrev RDG.TRIG_ISSUE_ARG.SCOPE : Fld := ⟨0x420, 9, 8⟩
abbrev RDG.TRIG_ISSUE_ARG.TRIG_NUM : Fld := ⟨0x420, 7, 0⟩
abbrev RDG.TRIG_CMD.off : Nat := 0x424
abbrev RDG.TRIG_CMD.CODE : Fld := ⟨0x424, 7, 0⟩
abbrev RDG.TRIG_SEQ_NEXT.off : Nat := 0x428
abbrev RDG.TRIG_SEQ_NEXT.SEQ : Fld := ⟨0x428, 31, 0⟩
abbrev RDG.KEY_STATE.off : Nat := 0x430
abbrev RDG.KEY_STATE.KEY_ID_A : Fld := ⟨0x430, 31, 24⟩
abbrev RDG.KEY_STATE.KEY_ID_B : Fld := ⟨0x430, 23, 16⟩
abbrev RDG.KEY_STATE.B_VALID : Fld := ⟨0x430, 1, 1⟩
abbrev RDG.KEY_STATE.A_VALID : Fld := ⟨0x430, 0, 0⟩
abbrev RDG.COUNTER.off : Nat := 0x438
abbrev RDG.COUNTER.COUNTER : Fld := ⟨0x438, 63, 0⟩
abbrev RDG.MGMT_DST.off : Nat := 0x440
abbrev RDG.MGMT_DST.DST : Fld := ⟨0x440, 31, 16⟩
abbrev RDG.MGMT_DST.KEY_SEL : Fld := ⟨0x440, 0, 0⟩
abbrev RDG.MGMT_ADDR.off : Nat := 0x444
abbrev RDG.MGMT_ADDR.PAGE : Fld := ⟨0x444, 27, 16⟩
abbrev RDG.MGMT_ADDR.OFFSET : Fld := ⟨0x444, 11, 0⟩
abbrev RDG.MGMT_DATA.off : Nat := 0x450
abbrev RDG.MGMT_DATA.DATA : Fld := ⟨0x450, 127, 0⟩
abbrev RDG.MGMT_CMD.off : Nat := 0x460
abbrev RDG.MGMT_CMD.CODE : Fld := ⟨0x460, 7, 0⟩
abbrev RDG.MGMT_RESP.off : Nat := 0x464
abbrev RDG.MGMT_RESP.DONE : Fld := ⟨0x464, 31, 31⟩
abbrev RDG.MGMT_RESP.TIMEOUT : Fld := ⟨0x464, 30, 30⟩
abbrev RDG.MGMT_RESP.RESULT : Fld := ⟨0x464, 15, 12⟩
abbrev RDG.MGMT_RESP.OP : Fld := ⟨0x464, 7, 0⟩
abbrev RDG.MGMT_RESP_DATA.off : Nat := 0x470
abbrev RDG.MGMT_RESP_DATA.DATA : Fld := ⟨0x470, 127, 0⟩
abbrev RDG.BLOCK_ID.off : Nat := 0x0
abbrev RDG.BLOCK_ID.TYPE : Fld := ⟨0x0, 31, 16⟩
abbrev RDG.BLOCK_ID.INSTANCE : Fld := ⟨0x0, 15, 8⟩
abbrev RDG.BLOCK_ID.HDR_VER : Fld := ⟨0x0, 7, 0⟩
abbrev RDG.BLOCK_VER.off : Nat := 0x4
abbrev RDG.BLOCK_VER.MAJOR : Fld := ⟨0x4, 23, 16⟩
abbrev RDG.BLOCK_VER.MINOR : Fld := ⟨0x4, 15, 8⟩
abbrev RDG.BLOCK_VER.PATCH : Fld := ⟨0x4, 7, 0⟩
abbrev RDG.CAPS.off : Nat := 0x8
abbrev RDG.CAPS.CAPS : Fld := ⟨0x8, 31, 0⟩
abbrev RDG.OWNER.off : Nat := 0xC
abbrev RDG.OWNER.OWNER_ID : Fld := ⟨0xC, 31, 16⟩
abbrev RDG.STATUS.off : Nat := 0x10
abbrev RDG.STATUS.SAFE : Fld := ⟨0x10, 31, 31⟩
abbrev RDG.STATUS.ERR : Fld := ⟨0x10, 30, 30⟩
abbrev RDG.STATUS.FROZEN_VIEW : Fld := ⟨0x10, 29, 29⟩
abbrev RDG.STATUS.PEER_VALID : Fld := ⟨0x10, 7, 7⟩
abbrev RDG.STATUS.PROMOTED : Fld := ⟨0x10, 6, 6⟩
abbrev RDG.STATUS.ROLE_CLASH : Fld := ⟨0x10, 5, 5⟩
abbrev RDG.STATUS.LINK : Fld := ⟨0x10, 2, 0⟩
abbrev RDG.CONTROL.off : Nat := 0x14
abbrev RDG.CONTROL.ENABLE : Fld := ⟨0x14, 31, 31⟩
abbrev RDG.CONTROL.SAFE_EXIT : Fld := ⟨0x14, 30, 30⟩
abbrev RDG.IRQ_STATUS.off : Nat := 0x18
abbrev RDG.IRQ_STATUS.MGMT_DONE : Fld := ⟨0x18, 4, 4⟩
abbrev RDG.IRQ_STATUS.TRIG_LATE : Fld := ⟨0x18, 3, 3⟩
abbrev RDG.IRQ_STATUS.PROMOTED : Fld := ⟨0x18, 2, 2⟩
abbrev RDG.IRQ_STATUS.LINK_UP : Fld := ⟨0x18, 1, 1⟩
abbrev RDG.IRQ_STATUS.LINK_LOST : Fld := ⟨0x18, 0, 0⟩
abbrev RDG.IRQ_ENABLE.off : Nat := 0x1C
abbrev RDG.IRQ_ENABLE.W : Fld := ⟨0x1C, 31, 0⟩
abbrev RDG.IRQ_VECTOR.off : Nat := 0x20
abbrev RDG.IRQ_VECTOR.VECTOR : Fld := ⟨0x20, 5, 0⟩
abbrev RDG.ERR_STATUS.off : Nat := 0x24
abbrev RDG.ERR_STATUS.LOOP : Fld := ⟨0x24, 2, 2⟩
abbrev RDG.ERR_STATUS.AUTH_FAIL : Fld := ⟨0x24, 1, 1⟩
abbrev RDG.ERR_STATUS.LINK_LOST : Fld := ⟨0x24, 0, 0⟩
abbrev RDG.ERR_INJECT.off : Nat := 0x28
abbrev RDG.ERR_INJECT.W : Fld := ⟨0x28, 31, 0⟩
abbrev RDG.LAST_CMD.off : Nat := 0x2C
abbrev RDG.LAST_CMD.DETAIL : Fld := ⟨0x2C, 31, 16⟩
abbrev RDG.LAST_CMD.RESULT : Fld := ⟨0x2C, 15, 12⟩
abbrev RDG.LAST_CMD.SEQ : Fld := ⟨0x2C, 11, 8⟩
abbrev RDG.LAST_CMD.CODE : Fld := ⟨0x2C, 7, 0⟩
abbrev RDG.COMMIT_CTL.off : Nat := 0x30
abbrev RDG.COMMIT_CTL.SHADOW_DIRTY : Fld := ⟨0x30, 9, 9⟩
abbrev RDG.COMMIT_CTL.PENDING : Fld := ⟨0x30, 8, 8⟩
abbrev RDG.COMMIT_CTL.ABORT : Fld := ⟨0x30, 5, 5⟩
abbrev RDG.COMMIT_CTL.GO : Fld := ⟨0x30, 4, 4⟩
abbrev RDG.COMMIT_CTL.MODE : Fld := ⟨0x30, 1, 0⟩
abbrev RDG.COMMIT_GROUP.off : Nat := 0x34
abbrev RDG.COMMIT_GROUP.GROUP : Fld := ⟨0x34, 3, 0⟩
abbrev RDG.WRITE_SEQ.off : Nat := 0x38
abbrev RDG.WRITE_SEQ.SHADOW_WRITES : Fld := ⟨0x38, 31, 16⟩
abbrev RDG.WRITE_SEQ.COMMIT_SEQ : Fld := ⟨0x38, 15, 0⟩
abbrev ETH.ETH_CFG.off : Nat := 0x40
abbrev ETH.ETH_CFG.PROMISC : Fld := ⟨0x40, 8, 8⟩
abbrev ETH.ETH_CFG.MODE : Fld := ⟨0x40, 1, 0⟩
abbrev ETH.MAC_ADDR.off : Nat := 0x48
abbrev ETH.MAC_ADDR.ADDR : Fld := ⟨0x48, 47, 0⟩
abbrev ETH.TX_CONST.off : Nat := 0x50
abbrev ETH.TX_CONST.CONST_SU : Fld := ⟨0x50, 31, 0⟩
abbrev ETH.RX_CONST.off : Nat := 0x54
abbrev ETH.RX_CONST.CONST_SU : Fld := ⟨0x54, 31, 0⟩
abbrev ETH.OPTICS_TX.off : Nat := 0x60
abbrev ETH.OPTICS_TX.SPAN : Fld := ⟨0x60, 95, 0⟩
abbrev ETH.OPTICS_RX.off : Nat := 0x70
abbrev ETH.OPTICS_RX.SPAN : Fld := ⟨0x70, 95, 0⟩
abbrev ETH.OPTICS_UNC.off : Nat := 0x7C
abbrev ETH.OPTICS_UNC.UNC_PS : Fld := ⟨0x7C, 15, 0⟩
abbrev ETH.ETH_BOUND.off : Nat := 0x80
abbrev ETH.ETH_BOUND.PS : Fld := ⟨0x80, 31, 0⟩
abbrev ETH.TXR_BASE.off : Nat := 0x100
abbrev ETH.TXR_BASE.BASE : Fld := ⟨0x100, 63, 0⟩
abbrev ETH.TXR_CFG.off : Nat := 0x108
abbrev ETH.TXR_CFG.LOG2_ENTRIES : Fld := ⟨0x108, 4, 0⟩
abbrev ETH.TXR_CTRL.off : Nat := 0x10C
abbrev ETH.TXR_CTRL.ENABLE : Fld := ⟨0x10C, 31, 31⟩
abbrev ETH.TXR_CTRL.STOPPED : Fld := ⟨0x10C, 30, 30⟩
abbrev ETH.TXR_DOORBELL.off : Nat := 0x110
abbrev ETH.TXR_DOORBELL.HOST_IDX : Fld := ⟨0x110, 31, 0⟩
abbrev ETH.TXR_DEV_IDX.off : Nat := 0x114
abbrev ETH.TXR_DEV_IDX.DEV_IDX : Fld := ⟨0x114, 31, 0⟩
abbrev ETH.RXR_BASE.off : Nat := 0x120
abbrev ETH.RXR_BASE.BASE : Fld := ⟨0x120, 63, 0⟩
abbrev ETH.RXR_CFG.off : Nat := 0x128
abbrev ETH.RXR_CFG.BUF_SIZE : Fld := ⟨0x128, 31, 16⟩
abbrev ETH.RXR_CFG.LOG2_ENTRIES : Fld := ⟨0x128, 4, 0⟩
abbrev ETH.RXR_CTRL.off : Nat := 0x12C
abbrev ETH.RXR_CTRL.ENABLE : Fld := ⟨0x12C, 31, 31⟩
abbrev ETH.RXR_CTRL.STOPPED : Fld := ⟨0x12C, 30, 30⟩
abbrev ETH.RXR_DOORBELL.off : Nat := 0x130
abbrev ETH.RXR_DOORBELL.HOST_IDX : Fld := ⟨0x130, 31, 0⟩
abbrev ETH.RXR_DEV_IDX.off : Nat := 0x134
abbrev ETH.RXR_DEV_IDX.DEV_IDX : Fld := ⟨0x134, 31, 0⟩
abbrev ETH.TX_FRAMES.off : Nat := 0x140
abbrev ETH.TX_FRAMES.COUNT : Fld := ⟨0x140, 63, 0⟩
abbrev ETH.RX_FRAMES.off : Nat := 0x148
abbrev ETH.RX_FRAMES.COUNT : Fld := ⟨0x148, 63, 0⟩
abbrev ETH.RX_FCS_ERRORS.off : Nat := 0x150
abbrev ETH.RX_FCS_ERRORS.COUNT : Fld := ⟨0x150, 31, 0⟩
abbrev ETH.RX_DROPS.off : Nat := 0x154
abbrev ETH.RX_DROPS.COUNT : Fld := ⟨0x154, 31, 0⟩
abbrev ETH.ONE_STEP_REFUSED.off : Nat := 0x158
abbrev ETH.ONE_STEP_REFUSED.COUNT : Fld := ⟨0x158, 31, 0⟩
abbrev ETH.TS_FIFO.off : Nat := 0x15C
abbrev ETH.TS_FIFO.DEPTH : Fld := ⟨0x15C, 16, 0⟩
abbrev ETH.TX_DISCARDED.off : Nat := 0x160
abbrev ETH.TX_DISCARDED.COUNT : Fld := ⟨0x160, 31, 0⟩
abbrev ETH.BLOCK_ID.off : Nat := 0x0
abbrev ETH.BLOCK_ID.TYPE : Fld := ⟨0x0, 31, 16⟩
abbrev ETH.BLOCK_ID.INSTANCE : Fld := ⟨0x0, 15, 8⟩
abbrev ETH.BLOCK_ID.HDR_VER : Fld := ⟨0x0, 7, 0⟩
abbrev ETH.BLOCK_VER.off : Nat := 0x4
abbrev ETH.BLOCK_VER.MAJOR : Fld := ⟨0x4, 23, 16⟩
abbrev ETH.BLOCK_VER.MINOR : Fld := ⟨0x4, 15, 8⟩
abbrev ETH.BLOCK_VER.PATCH : Fld := ⟨0x4, 7, 0⟩
abbrev ETH.CAPS.off : Nat := 0x8
abbrev ETH.CAPS.CAPS : Fld := ⟨0x8, 31, 0⟩
abbrev ETH.OWNER.off : Nat := 0xC
abbrev ETH.OWNER.OWNER_ID : Fld := ⟨0xC, 31, 16⟩
abbrev ETH.STATUS.off : Nat := 0x10
abbrev ETH.STATUS.SAFE : Fld := ⟨0x10, 31, 31⟩
abbrev ETH.STATUS.ERR : Fld := ⟨0x10, 30, 30⟩
abbrev ETH.STATUS.FROZEN_VIEW : Fld := ⟨0x10, 29, 29⟩
abbrev ETH.STATUS.FEC_LOCK : Fld := ⟨0x10, 2, 2⟩
abbrev ETH.STATUS.BLOCK_LOCK : Fld := ⟨0x10, 1, 1⟩
abbrev ETH.STATUS.LINK_UP : Fld := ⟨0x10, 0, 0⟩
abbrev ETH.CONTROL.off : Nat := 0x14
abbrev ETH.CONTROL.ENABLE : Fld := ⟨0x14, 31, 31⟩
abbrev ETH.CONTROL.SAFE_EXIT : Fld := ⟨0x14, 30, 30⟩
abbrev ETH.IRQ_STATUS.off : Nat := 0x18
abbrev ETH.IRQ_STATUS.TX_DONE : Fld := ⟨0x18, 2, 2⟩
abbrev ETH.IRQ_STATUS.RX_FRAME : Fld := ⟨0x18, 1, 1⟩
abbrev ETH.IRQ_STATUS.LINK_CHANGE : Fld := ⟨0x18, 0, 0⟩
abbrev ETH.IRQ_ENABLE.off : Nat := 0x1C
abbrev ETH.IRQ_ENABLE.W : Fld := ⟨0x1C, 31, 0⟩
abbrev ETH.IRQ_VECTOR.off : Nat := 0x20
abbrev ETH.IRQ_VECTOR.VECTOR : Fld := ⟨0x20, 5, 0⟩
abbrev ETH.ERR_STATUS.off : Nat := 0x24
abbrev ETH.ERR_STATUS.DMA_ERROR : Fld := ⟨0x24, 1, 1⟩
abbrev ETH.ERR_STATUS.LINK_DOWN : Fld := ⟨0x24, 0, 0⟩
abbrev ETH.ERR_INJECT.off : Nat := 0x28
abbrev ETH.ERR_INJECT.W : Fld := ⟨0x28, 31, 0⟩
abbrev ETH.LAST_CMD.off : Nat := 0x2C
abbrev ETH.LAST_CMD.DETAIL : Fld := ⟨0x2C, 31, 16⟩
abbrev ETH.LAST_CMD.RESULT : Fld := ⟨0x2C, 15, 12⟩
abbrev ETH.LAST_CMD.SEQ : Fld := ⟨0x2C, 11, 8⟩
abbrev ETH.LAST_CMD.CODE : Fld := ⟨0x2C, 7, 0⟩
abbrev ETH.COMMIT_CTL.off : Nat := 0x30
abbrev ETH.COMMIT_CTL.SHADOW_DIRTY : Fld := ⟨0x30, 9, 9⟩
abbrev ETH.COMMIT_CTL.PENDING : Fld := ⟨0x30, 8, 8⟩
abbrev ETH.COMMIT_CTL.ABORT : Fld := ⟨0x30, 5, 5⟩
abbrev ETH.COMMIT_CTL.GO : Fld := ⟨0x30, 4, 4⟩
abbrev ETH.COMMIT_CTL.MODE : Fld := ⟨0x30, 1, 0⟩
abbrev ETH.COMMIT_GROUP.off : Nat := 0x34
abbrev ETH.COMMIT_GROUP.GROUP : Fld := ⟨0x34, 3, 0⟩
abbrev ETH.WRITE_SEQ.off : Nat := 0x38
abbrev ETH.WRITE_SEQ.SHADOW_WRITES : Fld := ⟨0x38, 31, 16⟩
abbrev ETH.WRITE_SEQ.COMMIT_SEQ : Fld := ⟨0x38, 15, 0⟩
abbrev SYNC.SYNC_IN_CFG.off : Nat := 0x40
abbrev SYNC.SYNC_IN_CFG.ENABLE : Fld := ⟨0x40, 31, 31⟩
abbrev SYNC.SYNC_IN_CFG.SENSE : Fld := ⟨0x40, 1, 0⟩
abbrev SYNC.IN_SKEW.off : Nat := 0x50
abbrev SYNC.IN_SKEW.SPAN : Fld := ⟨0x50, 95, 0⟩
abbrev SYNC.IN_SKEW_UNC.off : Nat := 0x5C
abbrev SYNC.IN_SKEW_UNC.UNC_PS : Fld := ⟨0x5C, 15, 0⟩
abbrev SYNC.LAST_IN.off : Nat := 0x60
abbrev SYNC.LAST_IN.INSTANT : Fld := ⟨0x60, 127, 0⟩
abbrev SYNC.LAST_IN_TEB.off : Nat := 0x70
abbrev SYNC.LAST_IN_TEB.TEB_PS : Fld := ⟨0x70, 31, 0⟩
abbrev SYNC.IN_COUNT.off : Nat := 0x74
abbrev SYNC.IN_COUNT.COUNT : Fld := ⟨0x74, 31, 0⟩
abbrev SYNC.SYNC_OUT_CFG.off : Nat := 0x80
abbrev SYNC.SYNC_OUT_CFG.ENABLE : Fld := ⟨0x80, 31, 31⟩
abbrev SYNC.SYNC_OUT_CFG.SEQ : Fld := ⟨0x80, 9, 8⟩
abbrev SYNC.SYNC_OUT_CFG.SOURCE : Fld := ⟨0x80, 1, 0⟩
abbrev SYNC.SYNC_OUT_WIDTH.off : Nat := 0x84
abbrev SYNC.SYNC_OUT_WIDTH.WIDTH_NS : Fld := ⟨0x84, 31, 0⟩
abbrev SYNC.OUT_COUNT.off : Nat := 0x88
abbrev SYNC.OUT_COUNT.COUNT : Fld := ⟨0x88, 31, 0⟩
abbrev SYNC.OUT_DROPS.off : Nat := 0x8C
abbrev SYNC.OUT_DROPS.COUNT : Fld := ⟨0x8C, 31, 0⟩
abbrev SYNC.PPS_CFG.off : Nat := 0x90
abbrev SYNC.PPS_CFG.ENABLE : Fld := ⟨0x90, 31, 31⟩
abbrev SYNC.PPS_CFG.WIDTH_US : Fld := ⟨0x90, 23, 0⟩
abbrev SYNC.BLOCK_ID.off : Nat := 0x0
abbrev SYNC.BLOCK_ID.TYPE : Fld := ⟨0x0, 31, 16⟩
abbrev SYNC.BLOCK_ID.INSTANCE : Fld := ⟨0x0, 15, 8⟩
abbrev SYNC.BLOCK_ID.HDR_VER : Fld := ⟨0x0, 7, 0⟩
abbrev SYNC.BLOCK_VER.off : Nat := 0x4
abbrev SYNC.BLOCK_VER.MAJOR : Fld := ⟨0x4, 23, 16⟩
abbrev SYNC.BLOCK_VER.MINOR : Fld := ⟨0x4, 15, 8⟩
abbrev SYNC.BLOCK_VER.PATCH : Fld := ⟨0x4, 7, 0⟩
abbrev SYNC.CAPS.off : Nat := 0x8
abbrev SYNC.CAPS.CAPS : Fld := ⟨0x8, 31, 0⟩
abbrev SYNC.OWNER.off : Nat := 0xC
abbrev SYNC.OWNER.OWNER_ID : Fld := ⟨0xC, 31, 16⟩
abbrev SYNC.STATUS.off : Nat := 0x10
abbrev SYNC.STATUS.SAFE : Fld := ⟨0x10, 31, 31⟩
abbrev SYNC.STATUS.ERR : Fld := ⟨0x10, 30, 30⟩
abbrev SYNC.STATUS.FROZEN_VIEW : Fld := ⟨0x10, 29, 29⟩
abbrev SYNC.STATUS.PPS_HIGH : Fld := ⟨0x10, 2, 2⟩
abbrev SYNC.STATUS.OUT_HIGH : Fld := ⟨0x10, 1, 1⟩
abbrev SYNC.STATUS.IN_UNRESOLVED : Fld := ⟨0x10, 0, 0⟩
abbrev SYNC.CONTROL.off : Nat := 0x14
abbrev SYNC.CONTROL.ENABLE : Fld := ⟨0x14, 31, 31⟩
abbrev SYNC.CONTROL.SAFE_EXIT : Fld := ⟨0x14, 30, 30⟩
abbrev SYNC.IRQ_STATUS.off : Nat := 0x18
abbrev SYNC.IRQ_STATUS.OUT_DROP : Fld := ⟨0x18, 1, 1⟩
abbrev SYNC.IRQ_STATUS.SYNC_IN_EVENT : Fld := ⟨0x18, 0, 0⟩
abbrev SYNC.IRQ_ENABLE.off : Nat := 0x1C
abbrev SYNC.IRQ_ENABLE.W : Fld := ⟨0x1C, 31, 0⟩
abbrev SYNC.IRQ_VECTOR.off : Nat := 0x20
abbrev SYNC.IRQ_VECTOR.VECTOR : Fld := ⟨0x20, 5, 0⟩
abbrev SYNC.ERR_STATUS.off : Nat := 0x24
abbrev SYNC.ERR_STATUS.PPS_DRIVER_FAULT : Fld := ⟨0x24, 1, 1⟩
abbrev SYNC.ERR_STATUS.OUT_DRIVER_FAULT : Fld := ⟨0x24, 0, 0⟩
abbrev SYNC.ERR_INJECT.off : Nat := 0x28
abbrev SYNC.ERR_INJECT.W : Fld := ⟨0x28, 31, 0⟩
abbrev SYNC.LAST_CMD.off : Nat := 0x2C
abbrev SYNC.LAST_CMD.DETAIL : Fld := ⟨0x2C, 31, 16⟩
abbrev SYNC.LAST_CMD.RESULT : Fld := ⟨0x2C, 15, 12⟩
abbrev SYNC.LAST_CMD.SEQ : Fld := ⟨0x2C, 11, 8⟩
abbrev SYNC.LAST_CMD.CODE : Fld := ⟨0x2C, 7, 0⟩
abbrev SYNC.COMMIT_CTL.off : Nat := 0x30
abbrev SYNC.COMMIT_CTL.SHADOW_DIRTY : Fld := ⟨0x30, 9, 9⟩
abbrev SYNC.COMMIT_CTL.PENDING : Fld := ⟨0x30, 8, 8⟩
abbrev SYNC.COMMIT_CTL.ABORT : Fld := ⟨0x30, 5, 5⟩
abbrev SYNC.COMMIT_CTL.GO : Fld := ⟨0x30, 4, 4⟩
abbrev SYNC.COMMIT_CTL.MODE : Fld := ⟨0x30, 1, 0⟩
abbrev SYNC.COMMIT_GROUP.off : Nat := 0x34
abbrev SYNC.COMMIT_GROUP.GROUP : Fld := ⟨0x34, 3, 0⟩
abbrev SYNC.WRITE_SEQ.off : Nat := 0x38
abbrev SYNC.WRITE_SEQ.SHADOW_WRITES : Fld := ⟨0x38, 31, 16⟩
abbrev SYNC.WRITE_SEQ.COMMIT_SEQ : Fld := ⟨0x38, 15, 0⟩

/-- Registers of a DEV page. -/
def devRegs : List RegDesc := [
  ⟨0x400, 0x10, 16, 4, [⟨127, 0, .rw, 0⟩]⟩,
  ⟨0x500, 0x0, 1, 1, [⟨15, 0, .w1s, 0⟩]⟩,
  ⟨0x504, 0x0, 1, 1, [⟨15, 0, .w1s, 0⟩]⟩,
  ⟨0x508, 0x0, 1, 1, [⟨15, 0, .w1c, 0⟩]⟩,
  ⟨0x50C, 0x0, 1, 1, [⟨15, 0, .w1c, 0⟩]⟩,
  ⟨0x510, 0x0, 1, 1, [⟨15, 0, .ro, 0⟩]⟩,
  ⟨0x80, 0x0, 1, 1, [⟨31, 16, .ro, 0⟩, ⟨9, 9, .w1c, 0⟩, ⟨8, 8, .ro, 0⟩, ⟨1, 1, .w1s, 0⟩, ⟨0, 0, .w1s, 0⟩]⟩,
  ⟨0x84, 0x0, 1, 1, [⟨23, 0, .rw, 100⟩]⟩,
  ⟨0x88, 0x0, 1, 2, [⟨63, 0, .ro, 0⟩]⟩,
  ⟨0x90, 0x0, 1, 1, [⟨15, 0, .ro, 0⟩]⟩,
  ⟨0xC0, 0x0, 1, 1, [⟨0, 0, .rw, 0⟩]⟩,
  ⟨0xC4, 0x0, 1, 1, [⟨8, 8, .ro, 0⟩, ⟨7, 7, .ro, 0⟩, ⟨6, 6, .ro, 0⟩, ⟨5, 5, .ro, 0⟩, ⟨4, 4, .ro, 0⟩, ⟨3, 3, .ro, 0⟩, ⟨2, 2, .ro, 0⟩, ⟨1, 1, .ro, 0⟩, ⟨0, 0, .ro, 1⟩]⟩,
  ⟨0xC8, 0x0, 1, 1, [⟨3, 3, .w1c, 0⟩, ⟨2, 2, .w1c, 0⟩, ⟨1, 1, .w1c, 0⟩, ⟨0, 0, .w1c, 0⟩]⟩,
  ⟨0xCC, 0x0, 1, 1, [⟨7, 0, .cmd, 0⟩]⟩,
  ⟨0xD0, 0x4, 4, 1, [⟨31, 0, .ro, 0⟩]⟩,
  ⟨0xA0, 0x0, 1, 8, [⟨255, 0, .ro, 0⟩]⟩,
  ⟨0x0, 0x0, 1, 1, [⟨31, 16, .ro, 0⟩, ⟨15, 8, .ro, 0⟩, ⟨7, 0, .ro, 1⟩]⟩,
  ⟨0x4, 0x0, 1, 1, [⟨23, 16, .ro, 0⟩, ⟨15, 8, .ro, 0⟩, ⟨7, 0, .ro, 0⟩]⟩,
  ⟨0x8, 0x0, 1, 1, [⟨31, 0, .ro, 0⟩]⟩,
  ⟨0xC, 0x0, 1, 1, [⟨31, 16, .rw, 0⟩]⟩,
  ⟨0x10, 0x0, 1, 1, [⟨31, 31, .ro, 0⟩, ⟨30, 30, .ro, 0⟩, ⟨29, 29, .ro, 0⟩, ⟨10, 10, .ro, 0⟩, ⟨9, 9, .ro, 0⟩, ⟨8, 8, .ro, 0⟩, ⟨2, 0, .ro, 0⟩]⟩,
  ⟨0x14, 0x0, 1, 1, [⟨31, 31, .rw, 1⟩, ⟨30, 30, .w1s, 0⟩]⟩,
  ⟨0x18, 0x0, 1, 1, [⟨1, 1, .w1c, 0⟩, ⟨0, 0, .w1c, 0⟩]⟩,
  ⟨0x1C, 0x0, 1, 1, [⟨31, 0, .rw, 0⟩]⟩,
  ⟨0x20, 0x0, 1, 1, [⟨5, 0, .rw, 1⟩]⟩,
  ⟨0x24, 0x0, 1, 1, [⟨0, 0, .w1c, 0⟩, ⟨1, 1, .w1c, 0⟩, ⟨2, 2, .w1c, 0⟩, ⟨3, 3, .w1c, 0⟩, ⟨4, 4, .w1c, 0⟩, ⟨5, 5, .w1c, 0⟩, ⟨6, 6, .w1c, 0⟩, ⟨7, 7, .w1c, 0⟩, ⟨8, 8, .w1c, 0⟩, ⟨9, 9, .w1c, 0⟩]⟩,
  ⟨0x28, 0x0, 1, 1, [⟨31, 0, .w1s, 0⟩]⟩,
  ⟨0x2C, 0x0, 1, 1, [⟨31, 16, .cmd, 0⟩, ⟨15, 12, .cmd, 0⟩, ⟨11, 8, .cmd, 0⟩, ⟨7, 0, .cmd, 0⟩]⟩,
  ⟨0x30, 0x0, 1, 1, [⟨9, 9, .ro, 0⟩, ⟨8, 8, .ro, 0⟩, ⟨5, 5, .w1s, 0⟩, ⟨4, 4, .w1s, 0⟩, ⟨1, 0, .rw, 0⟩]⟩,
  ⟨0x34, 0x0, 1, 1, [⟨3, 0, .rw, 0⟩]⟩,
  ⟨0x38, 0x0, 1, 1, [⟨31, 16, .ro, 0⟩, ⟨15, 0, .ro, 0⟩]⟩]


/-- Registers of a DIR page. -/
def dirRegs : List RegDesc := [
  ⟨0x40, 0x4, 256, 1, [⟨31, 16, .ro, 0⟩, ⟨15, 8, .ro, 0⟩, ⟨0, 0, .ro, 0⟩]⟩,
  ⟨0x440, 0x0, 1, 1, [⟨31, 0, .ro, 120⟩]⟩,
  ⟨0x0, 0x0, 1, 1, [⟨31, 16, .ro, 0⟩, ⟨15, 8, .ro, 0⟩, ⟨7, 0, .ro, 1⟩]⟩,
  ⟨0x4, 0x0, 1, 1, [⟨23, 16, .ro, 0⟩, ⟨15, 8, .ro, 0⟩, ⟨7, 0, .ro, 0⟩]⟩,
  ⟨0x8, 0x0, 1, 1, [⟨31, 0, .ro, 0⟩]⟩,
  ⟨0xC, 0x0, 1, 1, [⟨31, 16, .rw, 0⟩]⟩,
  ⟨0x10, 0x0, 1, 1, [⟨31, 31, .ro, 0⟩, ⟨30, 30, .ro, 0⟩, ⟨29, 29, .ro, 0⟩]⟩,
  ⟨0x14, 0x0, 1, 1, [⟨31, 31, .rw, 1⟩, ⟨30, 30, .w1s, 0⟩]⟩,
  ⟨0x18, 0x0, 1, 1, []⟩,
  ⟨0x1C, 0x0, 1, 1, [⟨31, 0, .rw, 0⟩]⟩,
  ⟨0x20, 0x0, 1, 1, [⟨5, 0, .rw, 1⟩]⟩,
  ⟨0x24, 0x0, 1, 1, []⟩,
  ⟨0x28, 0x0, 1, 1, [⟨31, 0, .w1s, 0⟩]⟩,
  ⟨0x2C, 0x0, 1, 1, [⟨31, 16, .cmd, 0⟩, ⟨15, 12, .cmd, 0⟩, ⟨11, 8, .cmd, 0⟩, ⟨7, 0, .cmd, 0⟩]⟩,
  ⟨0x30, 0x0, 1, 1, [⟨9, 9, .ro, 0⟩, ⟨8, 8, .ro, 0⟩, ⟨5, 5, .w1s, 0⟩, ⟨4, 4, .w1s, 0⟩, ⟨1, 0, .rw, 0⟩]⟩,
  ⟨0x34, 0x0, 1, 1, [⟨3, 0, .rw, 0⟩]⟩,
  ⟨0x38, 0x0, 1, 1, [⟨31, 16, .ro, 0⟩, ⟨15, 0, .ro, 0⟩]⟩]


/-- Registers of a REFSEL page. -/
def refselRegs : List RegDesc := [
  ⟨0x40, 0x0, 1, 1, [⟨12, 12, .rw, 1⟩, ⟨11, 11, .rw, 0⟩, ⟨10, 8, .rw, 0⟩, ⟨5, 4, .rw, 3⟩, ⟨1, 0, .rw, 0⟩]⟩,
  ⟨0x44, 0x0, 1, 1, [⟨10, 8, .cmd, 0⟩, ⟨7, 0, .cmd, 0⟩]⟩,
  ⟨0x48, 0x0, 1, 1, [⟨31, 31, .ro, 0⟩, ⟨30, 30, .ro, 0⟩, ⟨2, 0, .ro, 0⟩]⟩,
  ⟨0x50, 0x0, 1, 3, [⟨95, 0, .ro, 0⟩]⟩,
  ⟨0x60, 0x0, 1, 4, [⟨127, 0, .rw, 0⟩]⟩,
  ⟨0x70, 0x0, 1, 3, [⟨95, 0, .rw, 0⟩]⟩,
  ⟨0x7C, 0x0, 1, 1, [⟨31, 0, .rw, 4294967295⟩]⟩,
  ⟨0x80, 0x0, 1, 3, [⟨95, 0, .rw, 0⟩]⟩,
  ⟨0x8C, 0x0, 1, 1, [⟨10, 8, .cmd, 0⟩, ⟨7, 0, .cmd, 0⟩]⟩,
  ⟨0x100, 0x40, 8, 1, [⟨31, 31, .rw, 0⟩, ⟨27, 24, .rw, 0⟩, ⟨19, 16, .rw, 0⟩, ⟨7, 0, .rw, 0⟩]⟩,
  ⟨0x104, 0x40, 8, 1, [⟨25, 16, .rw, 60⟩, ⟨15, 0, .rw, 100⟩]⟩,
  ⟨0x108, 0x40, 8, 1, [⟨31, 0, .rw, 100⟩]⟩,
  ⟨0x10C, 0x40, 8, 1, [⟨31, 0, .rw, 10000000⟩]⟩,
  ⟨0x110, 0x40, 8, 3, [⟨95, 0, .rw, 0⟩]⟩,
  ⟨0x11C, 0x40, 8, 1, [⟨31, 0, .rw, 4294967295⟩]⟩,
  ⟨0x120, 0x40, 8, 1, [⟨15, 12, .ro, 0⟩, ⟨11, 11, .ro, 0⟩, ⟨10, 10, .ro, 0⟩, ⟨9, 9, .ro, 0⟩, ⟨8, 8, .ro, 0⟩, ⟨2, 0, .ro, 0⟩]⟩,
  ⟨0x124, 0x40, 8, 1, [⟨31, 0, .ro, 0⟩]⟩,
  ⟨0x128, 0x40, 8, 1, [⟨31, 0, .rw, 4294967295⟩]⟩,
  ⟨0x12C, 0x40, 8, 1, [⟨31, 0, .ro, 0⟩]⟩,
  ⟨0x130, 0x40, 8, 3, [⟨95, 0, .ro, 0⟩]⟩,
  ⟨0x13C, 0x40, 8, 1, [⟨31, 0, .ro, 4294967295⟩]⟩,
  ⟨0x0, 0x0, 1, 1, [⟨31, 16, .ro, 0⟩, ⟨15, 8, .ro, 0⟩, ⟨7, 0, .ro, 1⟩]⟩,
  ⟨0x4, 0x0, 1, 1, [⟨23, 16, .ro, 0⟩, ⟨15, 8, .ro, 0⟩, ⟨7, 0, .ro, 0⟩]⟩,
  ⟨0x8, 0x0, 1, 1, [⟨31, 0, .ro, 0⟩]⟩,
  ⟨0xC, 0x0, 1, 1, [⟨31, 16, .rw, 0⟩]⟩,
  ⟨0x10, 0x0, 1, 1, [⟨31, 31, .ro, 0⟩, ⟨30, 30, .ro, 0⟩, ⟨29, 29, .ro, 0⟩, ⟨23, 16, .ro, 0⟩, ⟨15, 8, .ro, 0⟩, ⟨3, 3, .ro, 0⟩, ⟨2, 0, .ro, 0⟩]⟩,
  ⟨0x14, 0x0, 1, 1, [⟨31, 31, .rw, 1⟩, ⟨30, 30, .w1s, 0⟩]⟩,
  ⟨0x18, 0x0, 1, 1, [⟨3, 3, .w1c, 0⟩, ⟨2, 2, .w1c, 0⟩, ⟨1, 1, .w1c, 0⟩, ⟨0, 0, .w1c, 0⟩]⟩,
  ⟨0x1C, 0x0, 1, 1, [⟨31, 0, .rw, 0⟩]⟩,
  ⟨0x20, 0x0, 1, 1, [⟨5, 0, .rw, 1⟩]⟩,
  ⟨0x24, 0x0, 1, 1, [⟨1, 1, .w1c, 0⟩, ⟨0, 0, .w1c, 0⟩]⟩,
  ⟨0x28, 0x0, 1, 1, [⟨31, 0, .w1s, 0⟩]⟩,
  ⟨0x2C, 0x0, 1, 1, [⟨31, 16, .cmd, 0⟩, ⟨15, 12, .cmd, 0⟩, ⟨11, 8, .cmd, 0⟩, ⟨7, 0, .cmd, 0⟩]⟩,
  ⟨0x30, 0x0, 1, 1, [⟨9, 9, .ro, 0⟩, ⟨8, 8, .ro, 0⟩, ⟨5, 5, .w1s, 0⟩, ⟨4, 4, .w1s, 0⟩, ⟨1, 0, .rw, 0⟩]⟩,
  ⟨0x34, 0x0, 1, 1, [⟨3, 0, .rw, 0⟩]⟩,
  ⟨0x38, 0x0, 1, 1, [⟨31, 16, .ro, 0⟩, ⟨15, 0, .ro, 0⟩]⟩]


/-- Registers of a SERVO page. -/
def servoRegs : List RegDesc := [
  ⟨0x40, 0x0, 1, 1, [⟨15, 8, .rw, 45⟩, ⟨1, 0, .rw, 0⟩]⟩,
  ⟨0x44, 0x0, 1, 1, [⟨31, 0, .rw, 10⟩]⟩,
  ⟨0x48, 0x0, 1, 1, [⟨31, 0, .rw, 1000⟩]⟩,
  ⟨0x4C, 0x0, 1, 1, [⟨0, 0, .rw, 0⟩]⟩,
  ⟨0x50, 0x0, 1, 1, [⟨31, 0, .rw, 1000⟩]⟩,
  ⟨0x54, 0x0, 1, 1, [⟨31, 0, .rw, 1000⟩]⟩,
  ⟨0x58, 0x0, 1, 1, [⟨31, 0, .rw, 600⟩]⟩,
  ⟨0x60, 0x0, 1, 2, [⟨63, 0, .rw, 0⟩]⟩,
  ⟨0x68, 0x0, 1, 2, [⟨63, 0, .ro, 0⟩]⟩,
  ⟨0x70, 0x0, 1, 2, [⟨63, 0, .ro, 0⟩]⟩,
  ⟨0x78, 0x0, 1, 2, [⟨63, 0, .ro, 0⟩]⟩,
  ⟨0x80, 0x0, 1, 3, [⟨95, 0, .rw, 0⟩]⟩,
  ⟨0x8C, 0x0, 1, 1, [⟨7, 0, .cmd, 0⟩]⟩,
  ⟨0x90, 0x0, 1, 3, [⟨95, 0, .ro, 0⟩]⟩,
  ⟨0xA0, 0x0, 1, 3, [⟨95, 0, .ro, 0⟩]⟩,
  ⟨0xAC, 0x0, 1, 1, [⟨31, 0, .ro, 4294967295⟩]⟩,
  ⟨0xB0, 0x0, 1, 3, [⟨95, 0, .ro, 0⟩]⟩,
  ⟨0xC0, 0x0, 1, 4, [⟨127, 0, .ro, 0⟩]⟩,
  ⟨0xD0, 0x0, 1, 1, [⟨31, 0, .ro, 4294967295⟩]⟩,
  ⟨0xD4, 0x0, 1, 1, [⟨31, 0, .ro, 0⟩]⟩,
  ⟨0xD8, 0x0, 1, 1, [⟨31, 0, .ro, 4294967295⟩]⟩,
  ⟨0x0, 0x0, 1, 1, [⟨31, 16, .ro, 0⟩, ⟨15, 8, .ro, 0⟩, ⟨7, 0, .ro, 1⟩]⟩,
  ⟨0x4, 0x0, 1, 1, [⟨23, 16, .ro, 0⟩, ⟨15, 8, .ro, 0⟩, ⟨7, 0, .ro, 0⟩]⟩,
  ⟨0x8, 0x0, 1, 1, [⟨31, 0, .ro, 0⟩]⟩,
  ⟨0xC, 0x0, 1, 1, [⟨31, 16, .rw, 0⟩]⟩,
  ⟨0x10, 0x0, 1, 1, [⟨31, 31, .ro, 0⟩, ⟨30, 30, .ro, 0⟩, ⟨29, 29, .ro, 0⟩, ⟨7, 7, .ro, 0⟩, ⟨6, 6, .ro, 0⟩, ⟨5, 5, .ro, 0⟩, ⟨4, 4, .ro, 0⟩, ⟨3, 3, .ro, 0⟩, ⟨2, 0, .ro, 0⟩]⟩,
  ⟨0x14, 0x0, 1, 1, [⟨31, 31, .rw, 1⟩, ⟨30, 30, .w1s, 0⟩]⟩,
  ⟨0x18, 0x0, 1, 1, [⟨3, 3, .w1c, 0⟩, ⟨2, 2, .w1c, 0⟩, ⟨1, 1, .w1c, 0⟩, ⟨0, 0, .w1c, 0⟩]⟩,
  ⟨0x1C, 0x0, 1, 1, [⟨31, 0, .rw, 0⟩]⟩,
  ⟨0x20, 0x0, 1, 1, [⟨5, 0, .rw, 1⟩]⟩,
  ⟨0x24, 0x0, 1, 1, [⟨1, 1, .w1c, 0⟩, ⟨0, 0, .w1c, 0⟩]⟩,
  ⟨0x28, 0x0, 1, 1, [⟨31, 0, .w1s, 0⟩]⟩,
  ⟨0x2C, 0x0, 1, 1, [⟨31, 16, .cmd, 0⟩, ⟨15, 12, .cmd, 0⟩, ⟨11, 8, .cmd, 0⟩, ⟨7, 0, .cmd, 0⟩]⟩,
  ⟨0x30, 0x0, 1, 1, [⟨9, 9, .ro, 0⟩, ⟨8, 8, .ro, 0⟩, ⟨5, 5, .w1s, 0⟩, ⟨4, 4, .w1s, 0⟩, ⟨1, 0, .rw, 0⟩]⟩,
  ⟨0x34, 0x0, 1, 1, [⟨3, 0, .rw, 0⟩]⟩,
  ⟨0x38, 0x0, 1, 1, [⟨31, 16, .ro, 0⟩, ⟨15, 0, .ro, 0⟩]⟩]


/-- Registers of a APLL_M page. -/
def apllmRegs : List RegDesc := [
  ⟨0x40, 0x0, 1, 1, [⟨23, 16, .ro, 16⟩, ⟨15, 8, .ro, 2⟩, ⟨7, 0, .ro, 4⟩]⟩,
  ⟨0x44, 0x0, 1, 1, [⟨31, 0, .ro, 0⟩]⟩,
  ⟨0x48, 0x0, 1, 1, [⟨31, 0, .ro, 0⟩]⟩,
  ⟨0x50, 0x0, 1, 2, [⟨63, 0, .ro, 0⟩]⟩,
  ⟨0x0, 0x0, 1, 1, [⟨31, 16, .ro, 0⟩, ⟨15, 8, .ro, 0⟩, ⟨7, 0, .ro, 1⟩]⟩,
  ⟨0x4, 0x0, 1, 1, [⟨23, 16, .ro, 0⟩, ⟨15, 8, .ro, 0⟩, ⟨7, 0, .ro, 0⟩]⟩,
  ⟨0x8, 0x0, 1, 1, [⟨31, 0, .ro, 0⟩]⟩,
  ⟨0xC, 0x0, 1, 1, [⟨31, 16, .rw, 0⟩]⟩,
  ⟨0x10, 0x0, 1, 1, [⟨31, 31, .ro, 0⟩, ⟨30, 30, .ro, 0⟩, ⟨29, 29, .ro, 0⟩, ⟨0, 0, .ro, 0⟩]⟩,
  ⟨0x14, 0x0, 1, 1, [⟨31, 31, .rw, 1⟩, ⟨30, 30, .w1s, 0⟩]⟩,
  ⟨0x18, 0x0, 1, 1, [⟨0, 0, .w1c, 0⟩]⟩,
  ⟨0x1C, 0x0, 1, 1, [⟨31, 0, .rw, 0⟩]⟩,
  ⟨0x20, 0x0, 1, 1, [⟨5, 0, .rw, 1⟩]⟩,
  ⟨0x24, 0x0, 1, 1, [⟨0, 0, .w1c, 0⟩]⟩,
  ⟨0x28, 0x0, 1, 1, [⟨31, 0, .w1s, 0⟩]⟩,
  ⟨0x2C, 0x0, 1, 1, [⟨31, 16, .cmd, 0⟩, ⟨15, 12, .cmd, 0⟩, ⟨11, 8, .cmd, 0⟩, ⟨7, 0, .cmd, 0⟩]⟩,
  ⟨0x30, 0x0, 1, 1, [⟨9, 9, .ro, 0⟩, ⟨8, 8, .ro, 0⟩, ⟨5, 5, .w1s, 0⟩, ⟨4, 4, .w1s, 0⟩, ⟨1, 0, .rw, 0⟩]⟩,
  ⟨0x34, 0x0, 1, 1, [⟨3, 0, .rw, 0⟩]⟩,
  ⟨0x38, 0x0, 1, 1, [⟨31, 16, .ro, 0⟩, ⟨15, 0, .ro, 0⟩]⟩]


/-- Registers of a APLL_A page. -/
def apllaRegs : List RegDesc := [
  ⟨0x40, 0x0, 1, 1, [⟨23, 16, .rwl, 1⟩, ⟨13, 8, .rwl, 0⟩, ⟨0, 0, .rwl, 0⟩]⟩,
  ⟨0x44, 0x0, 1, 1, [⟨20, 16, .rwl, 16⟩, ⟨11, 8, .rwl, 2⟩, ⟨3, 0, .rwl, 4⟩]⟩,
  ⟨0x48, 0x0, 1, 1, [⟨9, 0, .rw, 150⟩]⟩,
  ⟨0x4C, 0x0, 1, 1, [⟨31, 0, .rw, 0⟩]⟩,
  ⟨0x50, 0x0, 1, 1, [⟨31, 0, .rw, 1000⟩]⟩,
  ⟨0x54, 0x0, 1, 1, [⟨7, 0, .cmd, 0⟩]⟩,
  ⟨0x58, 0x0, 1, 1, [⟨9, 0, .ro, 0⟩]⟩,
  ⟨0x5C, 0x0, 1, 1, [⟨31, 0, .ro, 0⟩]⟩,
  ⟨0x60, 0x0, 1, 2, [⟨63, 0, .ro, 0⟩]⟩,
  ⟨0x68, 0x0, 1, 1, [⟨31, 31, .rw, 0⟩, ⟨17, 16, .rw, 0⟩, ⟨6, 0, .rw, 0⟩]⟩,
  ⟨0x6C, 0x0, 1, 1, [⟨31, 0, .rw, 31500⟩]⟩,
  ⟨0x70, 0x0, 1, 1, [⟨31, 16, .rw, 1⟩, ⟨5, 0, .rw, 1⟩]⟩,
  ⟨0x74, 0x0, 1, 1, [⟨31, 16, .ro, 0⟩, ⟨5, 0, .ro, 0⟩]⟩,
  ⟨0x200, 0x10, 32, 1, [⟨9, 0, .rw, 0⟩]⟩,
  ⟨0x204, 0x10, 32, 1, [⟨31, 0, .rw, 0⟩]⟩,
  ⟨0x208, 0x10, 32, 1, [⟨31, 0, .rw, 1⟩]⟩,
  ⟨0x0, 0x0, 1, 1, [⟨31, 16, .ro, 0⟩, ⟨15, 8, .ro, 0⟩, ⟨7, 0, .ro, 1⟩]⟩,
  ⟨0x4, 0x0, 1, 1, [⟨23, 16, .ro, 0⟩, ⟨15, 8, .ro, 0⟩, ⟨7, 0, .ro, 0⟩]⟩,
  ⟨0x8, 0x0, 1, 1, [⟨31, 0, .ro, 0⟩]⟩,
  ⟨0xC, 0x0, 1, 1, [⟨31, 16, .rw, 0⟩]⟩,
  ⟨0x10, 0x0, 1, 1, [⟨31, 31, .ro, 0⟩, ⟨30, 30, .ro, 0⟩, ⟨29, 29, .ro, 0⟩, ⟨3, 3, .ro, 0⟩, ⟨2, 0, .ro, 0⟩]⟩,
  ⟨0x14, 0x0, 1, 1, [⟨31, 31, .rw, 0⟩, ⟨30, 30, .w1s, 0⟩]⟩,
  ⟨0x18, 0x0, 1, 1, [⟨3, 3, .w1c, 0⟩, ⟨2, 2, .w1c, 0⟩, ⟨1, 1, .w1c, 0⟩, ⟨0, 0, .w1c, 0⟩]⟩,
  ⟨0x1C, 0x0, 1, 1, [⟨31, 0, .rw, 0⟩]⟩,
  ⟨0x20, 0x0, 1, 1, [⟨5, 0, .rw, 1⟩]⟩,
  ⟨0x24, 0x0, 1, 1, [⟨1, 1, .w1c, 0⟩, ⟨0, 0, .w1c, 0⟩]⟩,
  ⟨0x28, 0x0, 1, 1, [⟨31, 0, .w1s, 0⟩]⟩,
  ⟨0x2C, 0x0, 1, 1, [⟨31, 16, .cmd, 0⟩, ⟨15, 12, .cmd, 0⟩, ⟨11, 8, .cmd, 0⟩, ⟨7, 0, .cmd, 0⟩]⟩,
  ⟨0x30, 0x0, 1, 1, [⟨9, 9, .ro, 0⟩, ⟨8, 8, .ro, 0⟩, ⟨5, 5, .w1s, 0⟩, ⟨4, 4, .w1s, 0⟩, ⟨1, 0, .rw, 0⟩]⟩,
  ⟨0x34, 0x0, 1, 1, [⟨3, 0, .rw, 0⟩]⟩,
  ⟨0x38, 0x0, 1, 1, [⟨31, 16, .ro, 0⟩, ⟨15, 0, .ro, 0⟩]⟩]


/-- Registers of a TSC page. -/
def tscRegs : List RegDesc := [
  ⟨0x40, 0x0, 1, 2, [⟨63, 0, .ro, 0⟩]⟩,
  ⟨0x48, 0x0, 1, 1, [⟨31, 0, .ro, 0⟩]⟩,
  ⟨0x50, 0x0, 1, 4, [⟨127, 0, .ro, 0⟩]⟩,
  ⟨0x60, 0x0, 1, 1, [⟨15, 0, .rw, 0⟩]⟩,
  ⟨0x64, 0x0, 1, 1, [⟨1, 0, .rw, 0⟩]⟩,
  ⟨0x68, 0x0, 1, 2, [⟨63, 0, .rw, 0⟩]⟩,
  ⟨0x70, 0x0, 1, 1, [⟨31, 0, .ro, 4294967295⟩]⟩,
  ⟨0x74, 0x0, 1, 1, [⟨31, 0, .ro, 4294967295⟩]⟩,
  ⟨0x78, 0x0, 1, 1, [⟨31, 0, .ro, 4294967295⟩]⟩,
  ⟨0x7C, 0x0, 1, 1, [⟨31, 0, .ro, 0⟩]⟩,
  ⟨0x80, 0x0, 1, 1, [⟨31, 0, .ro, 0⟩]⟩,
  ⟨0x84, 0x0, 1, 1, [⟨31, 0, .ro, 4294967295⟩]⟩,
  ⟨0x88, 0x0, 1, 1, [⟨31, 0, .rw, 1000⟩]⟩,
  ⟨0x8C, 0x0, 1, 1, [⟨31, 0, .rw, 1000000⟩]⟩,
  ⟨0x90, 0x0, 1, 1, [⟨31, 31, .rw, 0⟩, ⟨15, 0, .rw, 1000⟩]⟩,
  ⟨0x94, 0x0, 1, 1, [⟨31, 0, .ro, 4294967295⟩]⟩,
  ⟨0x98, 0x0, 1, 1, [⟨31, 0, .rw, 4294967295⟩]⟩,
  ⟨0xA0, 0x0, 1, 3, [⟨95, 0, .ro, 0⟩]⟩,
  ⟨0xAC, 0x0, 1, 1, [⟨31, 0, .ro, 0⟩]⟩,
  ⟨0xB0, 0x0, 1, 2, [⟨63, 0, .ro, 0⟩]⟩,
  ⟨0x0, 0x0, 1, 1, [⟨31, 16, .ro, 0⟩, ⟨15, 8, .ro, 0⟩, ⟨7, 0, .ro, 1⟩]⟩,
  ⟨0x4, 0x0, 1, 1, [⟨23, 16, .ro, 0⟩, ⟨15, 8, .ro, 0⟩, ⟨7, 0, .ro, 0⟩]⟩,
  ⟨0x8, 0x0, 1, 1, [⟨31, 0, .ro, 0⟩]⟩,
  ⟨0xC, 0x0, 1, 1, [⟨31, 16, .rw, 0⟩]⟩,
  ⟨0x10, 0x0, 1, 1, [⟨31, 31, .ro, 0⟩, ⟨30, 30, .ro, 0⟩, ⟨29, 29, .ro, 0⟩, ⟨4, 4, .ro, 0⟩, ⟨3, 0, .ro, 0⟩]⟩,
  ⟨0x14, 0x0, 1, 1, [⟨31, 31, .rw, 1⟩, ⟨30, 30, .w1s, 0⟩]⟩,
  ⟨0x18, 0x0, 1, 1, [⟨3, 3, .w1c, 0⟩, ⟨2, 2, .w1c, 0⟩, ⟨1, 1, .w1c, 0⟩, ⟨0, 0, .w1c, 0⟩]⟩,
  ⟨0x1C, 0x0, 1, 1, [⟨31, 0, .rw, 0⟩]⟩,
  ⟨0x20, 0x0, 1, 1, [⟨5, 0, .rw, 1⟩]⟩,
  ⟨0x24, 0x0, 1, 1, [⟨0, 0, .w1c, 0⟩]⟩,
  ⟨0x28, 0x0, 1, 1, [⟨31, 0, .w1s, 0⟩]⟩,
  ⟨0x2C, 0x0, 1, 1, [⟨31, 16, .cmd, 0⟩, ⟨15, 12, .cmd, 0⟩, ⟨11, 8, .cmd, 0⟩, ⟨7, 0, .cmd, 0⟩]⟩,
  ⟨0x30, 0x0, 1, 1, [⟨9, 9, .ro, 0⟩, ⟨8, 8, .ro, 0⟩, ⟨5, 5, .w1s, 0⟩, ⟨4, 4, .w1s, 0⟩, ⟨1, 0, .rw, 0⟩]⟩,
  ⟨0x34, 0x0, 1, 1, [⟨3, 0, .rw, 0⟩]⟩,
  ⟨0x38, 0x0, 1, 1, [⟨31, 16, .ro, 0⟩, ⟨15, 0, .ro, 0⟩]⟩]


/-- Registers of a DOMAIN page. -/
def domainRegs : List RegDesc := [
  ⟨0x40, 0x0, 1, 1, [⟨23, 16, .rw, 4⟩, ⟨8, 8, .rw, 0⟩, ⟨2, 0, .rw, 0⟩]⟩,
  ⟨0x44, 0x0, 1, 1, [⟨31, 0, .rw, 0⟩]⟩,
  ⟨0x48, 0x0, 1, 1, [⟨31, 0, .rw, 20000⟩]⟩,
  ⟨0x4C, 0x0, 1, 1, [⟨7, 0, .cmd, 0⟩]⟩,
  ⟨0x50, 0x0, 1, 3, [⟨95, 0, .ro, 0⟩]⟩,
  ⟨0x5C, 0x0, 1, 1, [⟨31, 0, .ro, 4294967295⟩]⟩,
  ⟨0x60, 0x0, 1, 3, [⟨95, 0, .ro, 0⟩]⟩,
  ⟨0x6C, 0x0, 1, 1, [⟨31, 0, .ro, 4294967295⟩]⟩,
  ⟨0x70, 0x0, 1, 3, [⟨95, 0, .ro, 0⟩]⟩,
  ⟨0x7C, 0x0, 1, 1, [⟨31, 0, .ro, 4294967295⟩]⟩,
  ⟨0x80, 0x0, 1, 1, [⟨31, 31, .ro, 0⟩, ⟨27, 24, .ro, 0⟩, ⟨7, 0, .ro, 0⟩]⟩,
  ⟨0x90, 0x0, 1, 3, [⟨95, 0, .ro, 0⟩]⟩,
  ⟨0x9C, 0x0, 1, 1, [⟨31, 0, .ro, 0⟩]⟩,
  ⟨0xA0, 0x0, 1, 3, [⟨95, 0, .ro, 0⟩]⟩,
  ⟨0xB0, 0x0, 1, 1, [⟨31, 0, .ro, 0⟩]⟩,
  ⟨0xB4, 0x0, 1, 1, [⟨31, 0, .w1c, 0⟩]⟩,
  ⟨0x400, 0x0, 1, 100, [⟨3199, 0, .shd, 0⟩]⟩,
  ⟨0x0, 0x0, 1, 1, [⟨31, 16, .ro, 0⟩, ⟨15, 8, .ro, 0⟩, ⟨7, 0, .ro, 1⟩]⟩,
  ⟨0x4, 0x0, 1, 1, [⟨23, 16, .ro, 0⟩, ⟨15, 8, .ro, 0⟩, ⟨7, 0, .ro, 0⟩]⟩,
  ⟨0x8, 0x0, 1, 1, [⟨31, 0, .ro, 0⟩]⟩,
  ⟨0xC, 0x0, 1, 1, [⟨31, 16, .rw, 0⟩]⟩,
  ⟨0x10, 0x0, 1, 1, [⟨31, 31, .ro, 0⟩, ⟨30, 30, .ro, 0⟩, ⟨29, 29, .ro, 0⟩, ⟨7, 7, .ro, 0⟩, ⟨6, 6, .ro, 0⟩, ⟨5, 5, .ro, 0⟩, ⟨4, 4, .ro, 0⟩, ⟨2, 0, .ro, 0⟩]⟩,
  ⟨0x14, 0x0, 1, 1, [⟨31, 31, .rw, 0⟩, ⟨30, 30, .w1s, 0⟩]⟩,
  ⟨0x18, 0x0, 1, 1, [⟨4, 4, .w1c, 0⟩, ⟨3, 3, .w1c, 0⟩, ⟨2, 2, .w1c, 0⟩, ⟨1, 1, .w1c, 0⟩, ⟨0, 0, .w1c, 0⟩]⟩,
  ⟨0x1C, 0x0, 1, 1, [⟨31, 0, .rw, 0⟩]⟩,
  ⟨0x20, 0x0, 1, 1, [⟨5, 0, .rw, 1⟩]⟩,
  ⟨0x24, 0x0, 1, 1, [⟨1, 1, .w1c, 0⟩, ⟨0, 0, .w1c, 0⟩]⟩,
  ⟨0x28, 0x0, 1, 1, [⟨31, 0, .w1s, 0⟩]⟩,
  ⟨0x2C, 0x0, 1, 1, [⟨31, 16, .cmd, 0⟩, ⟨15, 12, .cmd, 0⟩, ⟨11, 8, .cmd, 0⟩, ⟨7, 0, .cmd, 0⟩]⟩,
  ⟨0x30, 0x0, 1, 1, [⟨9, 9, .ro, 0⟩, ⟨8, 8, .ro, 0⟩, ⟨5, 5, .w1s, 0⟩, ⟨4, 4, .w1s, 0⟩, ⟨1, 0, .rw, 0⟩]⟩,
  ⟨0x34, 0x0, 1, 1, [⟨3, 0, .rw, 0⟩]⟩,
  ⟨0x38, 0x0, 1, 1, [⟨31, 16, .ro, 0⟩, ⟨15, 0, .ro, 0⟩]⟩]


/-- Registers of a XO page. -/
def xoRegs : List RegDesc := [
  ⟨0x40, 0x0, 1, 1, [⟨15, 0, .ro, 0⟩]⟩,
  ⟨0x44, 0x0, 1, 1, [⟨31, 0, .ro, 0⟩]⟩,
  ⟨0x48, 0x0, 1, 1, [⟨15, 0, .ro, 0⟩]⟩,
  ⟨0x4C, 0x0, 1, 1, [⟨31, 0, .ro, 0⟩]⟩,
  ⟨0x50, 0x0, 1, 1, [⟨31, 0, .ro, 0⟩]⟩,
  ⟨0x54, 0x0, 1, 1, [⟨31, 0, .ro, 0⟩]⟩,
  ⟨0x58, 0x0, 1, 1, [⟨31, 0, .ro, 0⟩]⟩,
  ⟨0x60, 0x0, 1, 4, [⟨127, 0, .rw, 0⟩]⟩,
  ⟨0x70, 0x0, 1, 2, [⟨63, 0, .rw, 0⟩]⟩,
  ⟨0x78, 0x0, 1, 1, [⟨31, 0, .rw, 0⟩]⟩,
  ⟨0x7C, 0x0, 1, 1, [⟨31, 0, .rw, 0⟩]⟩,
  ⟨0x80, 0x0, 1, 1, [⟨31, 0, .rw, 104160⟩]⟩,
  ⟨0x84, 0x0, 1, 1, [⟨31, 0, .ro, 0⟩]⟩,
  ⟨0x88, 0x0, 1, 1, [⟨31, 0, .ro, 0⟩]⟩,
  ⟨0x90, 0x0, 1, 2, [⟨63, 0, .ro, 0⟩]⟩,
  ⟨0x98, 0x0, 1, 2, [⟨63, 0, .ro, 0⟩]⟩,
  ⟨0xA0, 0x0, 1, 1, [⟨1, 1, .w1s, 0⟩, ⟨0, 0, .rw, 1⟩]⟩,
  ⟨0x0, 0x0, 1, 1, [⟨31, 16, .ro, 0⟩, ⟨15, 8, .ro, 0⟩, ⟨7, 0, .ro, 1⟩]⟩,
  ⟨0x4, 0x0, 1, 1, [⟨23, 16, .ro, 0⟩, ⟨15, 8, .ro, 0⟩, ⟨7, 0, .ro, 0⟩]⟩,
  ⟨0x8, 0x0, 1, 1, [⟨31, 0, .ro, 0⟩]⟩,
  ⟨0xC, 0x0, 1, 1, [⟨31, 16, .rw, 65534⟩]⟩,
  ⟨0x10, 0x0, 1, 1, [⟨31, 31, .ro, 0⟩, ⟨30, 30, .ro, 0⟩, ⟨29, 29, .ro, 0⟩, ⟨2, 2, .ro, 0⟩, ⟨1, 0, .ro, 0⟩]⟩,
  ⟨0x14, 0x0, 1, 1, [⟨31, 31, .rw, 1⟩, ⟨30, 30, .w1s, 0⟩]⟩,
  ⟨0x18, 0x0, 1, 1, [⟨1, 1, .w1c, 0⟩, ⟨0, 0, .w1c, 0⟩]⟩,
  ⟨0x1C, 0x0, 1, 1, [⟨31, 0, .rw, 0⟩]⟩,
  ⟨0x20, 0x0, 1, 1, [⟨5, 0, .rw, 1⟩]⟩,
  ⟨0x24, 0x0, 1, 1, [⟨1, 1, .w1c, 0⟩, ⟨0, 0, .w1c, 0⟩]⟩,
  ⟨0x28, 0x0, 1, 1, [⟨31, 0, .w1s, 0⟩]⟩,
  ⟨0x2C, 0x0, 1, 1, [⟨31, 16, .cmd, 0⟩, ⟨15, 12, .cmd, 0⟩, ⟨11, 8, .cmd, 0⟩, ⟨7, 0, .cmd, 0⟩]⟩,
  ⟨0x30, 0x0, 1, 1, [⟨9, 9, .ro, 0⟩, ⟨8, 8, .ro, 0⟩, ⟨5, 5, .w1s, 0⟩, ⟨4, 4, .w1s, 0⟩, ⟨1, 0, .rw, 0⟩]⟩,
  ⟨0x34, 0x0, 1, 1, [⟨3, 0, .rw, 0⟩]⟩,
  ⟨0x38, 0x0, 1, 1, [⟨31, 16, .ro, 0⟩, ⟨15, 0, .ro, 0⟩]⟩]


/-- Registers of a EAVE page. -/
def eaveRegs : List RegDesc := [
  ⟨0x40, 0x0, 1, 2, [⟨62, 15, .ro, 0⟩, ⟨14, 0, .ro, 0⟩]⟩,
  ⟨0x48, 0x0, 1, 1, [⟨15, 0, .ro, 0⟩]⟩,
  ⟨0x50, 0x0, 1, 2, [⟨63, 0, .ro, 18446744073709551615⟩]⟩,
  ⟨0x58, 0x0, 1, 2, [⟨63, 0, .rw, 0⟩]⟩,
  ⟨0x60, 0x0, 1, 2, [⟨63, 0, .rw, 18446744073709551615⟩]⟩,
  ⟨0x68, 0x0, 1, 1, [⟨7, 0, .cmd, 0⟩]⟩,
  ⟨0x6C, 0x0, 1, 1, [⟨31, 31, .rw, 1⟩, ⟨8, 0, .rw, 0⟩]⟩,
  ⟨0x70, 0x0, 1, 1, [⟨31, 0, .rw, 50000⟩]⟩,
  ⟨0x74, 0x0, 1, 1, [⟨31, 0, .ro, 0⟩]⟩,
  ⟨0x78, 0x0, 1, 2, [⟨63, 0, .ro, 0⟩]⟩,
  ⟨0x80, 0x0, 1, 1, [⟨15, 0, .rw, 0⟩]⟩,
  ⟨0x84, 0x0, 1, 1, [⟨1, 0, .rw, 0⟩]⟩,
  ⟨0x88, 0x0, 1, 2, [⟨63, 0, .rw, 0⟩]⟩,
  ⟨0x90, 0x0, 1, 1, [⟨31, 16, .ro, 1970⟩, ⟨14, 12, .ro, 4⟩, ⟨11, 8, .ro, 1⟩, ⟨4, 0, .ro, 1⟩]⟩,
  ⟨0x94, 0x0, 1, 1, [⟨20, 16, .ro, 0⟩, ⟨13, 8, .ro, 0⟩, ⟨5, 0, .ro, 0⟩]⟩,
  ⟨0x98, 0x0, 1, 2, [⟨63, 0, .rw, 0⟩]⟩,
  ⟨0xA0, 0x0, 1, 1, [⟨3, 0, .rw, 4⟩]⟩,
  ⟨0xA4, 0x0, 1, 1, [⟨7, 0, .w1c, 0⟩]⟩,
  ⟨0xA8, 0x0, 1, 1, [⟨7, 0, .ro, 0⟩]⟩,
  ⟨0xC0, 0x8, 8, 1, [⟨31, 31, .rw, 0⟩, ⟨30, 30, .rw, 0⟩, ⟨29, 29, .rw, 0⟩, ⟨26, 24, .rw, 0⟩, ⟨19, 10, .rw, 1023⟩, ⟨9, 0, .rw, 0⟩]⟩,
  ⟨0xC4, 0x8, 8, 1, [⟨1, 1, .ro, 0⟩, ⟨0, 0, .ro, 0⟩]⟩,
  ⟨0x100, 0x0, 1, 1, [⟨31, 31, .rw, 0⟩, ⟨25, 24, .rw, 2⟩, ⟨15, 0, .rw, 100⟩]⟩,
  ⟨0x104, 0x0, 1, 1, [⟨7, 0, .cmd, 0⟩]⟩,
  ⟨0x108, 0x0, 1, 1, [⟨7, 4, .ro, 0⟩, ⟨1, 1, .ro, 0⟩, ⟨0, 0, .ro, 1⟩]⟩,
  ⟨0x110, 0x0, 1, 1, [⟨0, 0, .rw, 0⟩]⟩,
  ⟨0x114, 0x0, 1, 1, [⟨31, 24, .ro, 0⟩, ⟨8, 8, .ro, 0⟩, ⟨5, 0, .ro, 0⟩]⟩,
  ⟨0x118, 0x0, 1, 1, [⟨31, 0, .ro, 0⟩]⟩,
  ⟨0x120, 0x0, 1, 1, [⟨31, 16, .rw, 1⟩, ⟨0, 0, .rw, 0⟩]⟩,
  ⟨0x130, 0x0, 1, 1, [⟨31, 8, .ro, 0⟩, ⟨7, 7, .ro, 0⟩, ⟨5, 0, .ro, 0⟩]⟩,
  ⟨0x134, 0x0, 1, 1, [⟨7, 0, .cmd, 0⟩]⟩,
  ⟨0x300, 0x4, 32, 1, [⟨31, 16, .rw, 0⟩, ⟨15, 0, .rw, 0⟩]⟩,
  ⟨0x400, 0x10, 64, 4, [⟨127, 0, .ro, 0⟩]⟩,
  ⟨0x0, 0x0, 1, 1, [⟨31, 16, .ro, 0⟩, ⟨15, 8, .ro, 0⟩, ⟨7, 0, .ro, 1⟩]⟩,
  ⟨0x4, 0x0, 1, 1, [⟨23, 16, .ro, 0⟩, ⟨15, 8, .ro, 0⟩, ⟨7, 0, .ro, 0⟩]⟩,
  ⟨0x8, 0x0, 1, 1, [⟨31, 0, .ro, 0⟩]⟩,
  ⟨0xC, 0x0, 1, 1, [⟨31, 16, .rw, 0⟩]⟩,
  ⟨0x10, 0x0, 1, 1, [⟨31, 31, .ro, 0⟩, ⟨30, 30, .ro, 0⟩, ⟨29, 29, .ro, 0⟩, ⟨23, 16, .ro, 0⟩, ⟨8, 8, .ro, 0⟩, ⟨7, 7, .ro, 0⟩, ⟨6, 6, .ro, 1⟩, ⟨5, 5, .ro, 0⟩, ⟨4, 4, .ro, 0⟩, ⟨3, 3, .ro, 0⟩, ⟨2, 2, .ro, 0⟩]⟩,
  ⟨0x14, 0x0, 1, 1, [⟨31, 31, .rw, 1⟩, ⟨30, 30, .w1s, 0⟩]⟩,
  ⟨0x18, 0x0, 1, 1, [⟨5, 5, .w1c, 0⟩, ⟨4, 4, .w1c, 0⟩, ⟨3, 3, .w1c, 0⟩, ⟨2, 2, .w1c, 0⟩, ⟨1, 1, .w1c, 0⟩, ⟨0, 0, .w1c, 0⟩]⟩,
  ⟨0x1C, 0x0, 1, 1, [⟨31, 0, .rw, 0⟩]⟩,
  ⟨0x20, 0x0, 1, 1, [⟨5, 0, .rw, 1⟩]⟩,
  ⟨0x24, 0x0, 1, 1, [⟨3, 3, .w1c, 0⟩, ⟨2, 2, .w1c, 0⟩, ⟨1, 1, .w1c, 0⟩, ⟨0, 0, .w1c, 0⟩]⟩,
  ⟨0x28, 0x0, 1, 1, [⟨31, 0, .w1s, 0⟩]⟩,
  ⟨0x2C, 0x0, 1, 1, [⟨31, 16, .cmd, 0⟩, ⟨15, 12, .cmd, 0⟩, ⟨11, 8, .cmd, 0⟩, ⟨7, 0, .cmd, 0⟩]⟩,
  ⟨0x30, 0x0, 1, 1, [⟨9, 9, .ro, 0⟩, ⟨8, 8, .ro, 0⟩, ⟨5, 5, .w1s, 0⟩, ⟨4, 4, .w1s, 0⟩, ⟨1, 0, .rw, 0⟩]⟩,
  ⟨0x34, 0x0, 1, 1, [⟨3, 0, .rw, 0⟩]⟩,
  ⟨0x38, 0x0, 1, 1, [⟨31, 16, .ro, 0⟩, ⟨15, 0, .ro, 0⟩]⟩]


/-- Registers of a GUTTER page. -/
def gutterRegs : List RegDesc := [
  ⟨0x40, 0x0, 1, 1, [⟨31, 31, .rw, 0⟩, ⟨30, 30, .rw, 0⟩, ⟨7, 0, .rw, 1⟩]⟩,
  ⟨0x44, 0x0, 1, 1, [⟨30, 30, .cmd, 0⟩, ⟨22, 16, .cmd, 0⟩, ⟨7, 0, .cmd, 0⟩]⟩,
  ⟨0x50, 0x0, 1, 1, [⟨31, 31, .w1c, 0⟩, ⟨30, 30, .ro, 0⟩, ⟨29, 29, .ro, 0⟩, ⟨28, 28, .ro, 0⟩, ⟨25, 24, .ro, 0⟩, ⟨22, 16, .ro, 0⟩, ⟨15, 8, .ro, 0⟩, ⟨4, 0, .ro, 0⟩]⟩,
  ⟨0x54, 0x0, 1, 1, [⟨4, 0, .ro, 0⟩]⟩,
  ⟨0x58, 0x0, 1, 2, [⟨63, 0, .ro, 0⟩]⟩,
  ⟨0x60, 0x0, 1, 4, [⟨127, 0, .ro, 0⟩]⟩,
  ⟨0x70, 0x0, 1, 4, [⟨127, 0, .ro, 0⟩]⟩,
  ⟨0x80, 0x0, 1, 1, [⟨31, 0, .ro, 0⟩]⟩,
  ⟨0x84, 0x0, 1, 1, [⟨31, 0, .ro, 0⟩]⟩,
  ⟨0x88, 0x0, 1, 1, [⟨31, 31, .ro, 0⟩, ⟨30, 30, .ro, 0⟩, ⟨29, 29, .ro, 0⟩, ⟨6, 0, .ro, 0⟩]⟩,
  ⟨0x90, 0x0, 1, 4, [⟨127, 0, .w1c, 0⟩]⟩,
  ⟨0xA0, 0x0, 1, 4, [⟨127, 0, .ro, 0⟩]⟩,
  ⟨0x200, 0x4, 128, 1, [⟨25, 24, .ro, 0⟩, ⟨17, 16, .rw, 0⟩, ⟨4, 0, .rw, 0⟩]⟩,
  ⟨0x400, 0x4, 128, 1, [⟨31, 0, .w1c, 0⟩]⟩,
  ⟨0x0, 0x0, 1, 1, [⟨31, 16, .ro, 0⟩, ⟨15, 8, .ro, 0⟩, ⟨7, 0, .ro, 1⟩]⟩,
  ⟨0x4, 0x0, 1, 1, [⟨23, 16, .ro, 0⟩, ⟨15, 8, .ro, 0⟩, ⟨7, 0, .ro, 0⟩]⟩,
  ⟨0x8, 0x0, 1, 1, [⟨31, 0, .ro, 0⟩]⟩,
  ⟨0xC, 0x0, 1, 1, [⟨31, 16, .rw, 0⟩]⟩,
  ⟨0x10, 0x0, 1, 1, [⟨31, 31, .ro, 0⟩, ⟨30, 30, .ro, 0⟩, ⟨29, 29, .ro, 0⟩, ⟨5, 5, .ro, 0⟩, ⟨4, 4, .ro, 0⟩, ⟨3, 3, .ro, 0⟩, ⟨2, 2, .ro, 0⟩, ⟨1, 1, .ro, 0⟩, ⟨0, 0, .ro, 0⟩]⟩,
  ⟨0x14, 0x0, 1, 1, [⟨31, 31, .rw, 1⟩, ⟨30, 30, .w1s, 0⟩]⟩,
  ⟨0x18, 0x0, 1, 1, [⟨3, 3, .w1c, 0⟩, ⟨2, 2, .w1c, 0⟩, ⟨1, 1, .w1c, 0⟩, ⟨0, 0, .w1c, 0⟩]⟩,
  ⟨0x1C, 0x0, 1, 1, [⟨31, 0, .rw, 0⟩]⟩,
  ⟨0x20, 0x0, 1, 1, [⟨5, 0, .rw, 0⟩]⟩,
  ⟨0x24, 0x0, 1, 1, [⟨1, 1, .w1c, 0⟩, ⟨0, 0, .w1c, 0⟩]⟩,
  ⟨0x28, 0x0, 1, 1, [⟨31, 0, .w1s, 0⟩]⟩,
  ⟨0x2C, 0x0, 1, 1, [⟨31, 16, .cmd, 0⟩, ⟨15, 12, .cmd, 0⟩, ⟨11, 8, .cmd, 0⟩, ⟨7, 0, .cmd, 0⟩]⟩,
  ⟨0x30, 0x0, 1, 1, [⟨9, 9, .ro, 0⟩, ⟨8, 8, .ro, 0⟩, ⟨5, 5, .w1s, 0⟩, ⟨4, 4, .w1s, 0⟩, ⟨1, 0, .rw, 0⟩]⟩,
  ⟨0x34, 0x0, 1, 1, [⟨3, 0, .rw, 0⟩]⟩,
  ⟨0x38, 0x0, 1, 1, [⟨31, 16, .ro, 0⟩, ⟨15, 0, .ro, 0⟩]⟩]


/-- Registers of a FLASH page. -/
def flashRegs : List RegDesc := [
  ⟨0x40, 0x0, 1, 1, [⟨7, 0, .cmd, 0⟩]⟩,
  ⟨0x44, 0x0, 1, 1, [⟨31, 0, .rw, 0⟩]⟩,
  ⟨0x48, 0x0, 1, 1, [⟨31, 0, .rw, 0⟩]⟩,
  ⟨0x50, 0x0, 1, 2, [⟨63, 0, .rw, 0⟩]⟩,
  ⟨0x58, 0x0, 1, 1, [⟨10, 8, .rw, 0⟩, ⟨0, 0, .rw, 0⟩]⟩,
  ⟨0x60, 0x0, 1, 1, [⟨31, 16, .rw, 600⟩, ⟨0, 0, .rw, 0⟩]⟩,
  ⟨0x64, 0x0, 1, 1, [⟨31, 16, .ro, 0⟩, ⟨10, 10, .ro, 0⟩, ⟨9, 8, .ro, 0⟩, ⟨2, 0, .ro, 0⟩]⟩,
  ⟨0x68, 0x0, 1, 1, [⟨15, 12, .ro, 0⟩, ⟨2, 0, .ro, 0⟩]⟩,
  ⟨0x6C, 0x0, 1, 1, [⟨31, 16, .ro, 0⟩, ⟨15, 0, .ro, 0⟩]⟩,
  ⟨0x70, 0x0, 1, 1, [⟨31, 0, .ro, 0⟩]⟩,
  ⟨0x74, 0x0, 1, 1, [⟨31, 16, .ro, 0⟩, ⟨10, 8, .ro, 0⟩, ⟨2, 0, .ro, 0⟩]⟩,
  ⟨0x78, 0x0, 1, 1, [⟨31, 24, .ro, 0⟩, ⟨23, 16, .ro, 0⟩, ⟨15, 8, .ro, 0⟩, ⟨7, 0, .ro, 0⟩]⟩,
  ⟨0x80, 0x10, 5, 1, [⟨31, 0, .ro, 0⟩]⟩,
  ⟨0x84, 0x10, 5, 1, [⟨31, 24, .ro, 0⟩, ⟨23, 16, .ro, 0⟩, ⟨8, 8, .ro, 0⟩, ⟨0, 0, .ro, 0⟩]⟩,
  ⟨0x88, 0x10, 5, 1, [⟨31, 0, .ro, 0⟩]⟩,
  ⟨0xD0, 0x0, 1, 1, [⟨31, 16, .ro, 0⟩, ⟨15, 0, .ro, 0⟩]⟩,
  ⟨0xE0, 0x0, 1, 1, [⟨11, 8, .ro, 0⟩, ⟨3, 0, .ro, 0⟩]⟩,
  ⟨0xF0, 0x0, 1, 1, [⟨31, 31, .ro, 0⟩, ⟨3, 0, .ro, 0⟩]⟩,
  ⟨0xF8, 0x0, 1, 2, [⟨63, 0, .ro, 0⟩]⟩,
  ⟨0x100, 0x0, 1, 1, [⟨15, 8, .ro, 0⟩, ⟨7, 0, .ro, 0⟩]⟩,
  ⟨0x104, 0x0, 1, 1, [⟨31, 0, .ro, 0⟩]⟩,
  ⟨0x108, 0x0, 1, 1, [⟨31, 0, .ro, 0⟩]⟩,
  ⟨0x400, 0x4, 128, 1, [⟨31, 0, .rw, 0⟩]⟩,
  ⟨0x0, 0x0, 1, 1, [⟨31, 16, .ro, 0⟩, ⟨15, 8, .ro, 0⟩, ⟨7, 0, .ro, 1⟩]⟩,
  ⟨0x4, 0x0, 1, 1, [⟨23, 16, .ro, 0⟩, ⟨15, 8, .ro, 0⟩, ⟨7, 0, .ro, 0⟩]⟩,
  ⟨0x8, 0x0, 1, 1, [⟨31, 0, .ro, 0⟩]⟩,
  ⟨0xC, 0x0, 1, 1, [⟨31, 16, .rw, 0⟩]⟩,
  ⟨0x10, 0x0, 1, 1, [⟨31, 31, .ro, 0⟩, ⟨30, 30, .ro, 0⟩, ⟨29, 29, .ro, 0⟩, ⟨9, 9, .ro, 0⟩, ⟨8, 8, .ro, 0⟩, ⟨7, 7, .ro, 0⟩, ⟨6, 6, .ro, 0⟩, ⟨5, 5, .ro, 0⟩, ⟨4, 4, .ro, 0⟩, ⟨3, 0, .ro, 0⟩]⟩,
  ⟨0x14, 0x0, 1, 1, [⟨31, 31, .rw, 1⟩, ⟨30, 30, .w1s, 0⟩]⟩,
  ⟨0x18, 0x0, 1, 1, [⟨5, 5, .w1c, 0⟩, ⟨4, 4, .w1c, 0⟩, ⟨3, 3, .w1c, 0⟩, ⟨2, 2, .w1c, 0⟩, ⟨1, 1, .w1c, 0⟩, ⟨0, 0, .w1c, 0⟩]⟩,
  ⟨0x1C, 0x0, 1, 1, [⟨31, 0, .rw, 0⟩]⟩,
  ⟨0x20, 0x0, 1, 1, [⟨5, 0, .rw, 1⟩]⟩,
  ⟨0x24, 0x0, 1, 1, [⟨2, 2, .w1c, 0⟩, ⟨1, 1, .w1c, 0⟩, ⟨0, 0, .w1c, 0⟩]⟩,
  ⟨0x28, 0x0, 1, 1, [⟨31, 0, .w1s, 0⟩]⟩,
  ⟨0x2C, 0x0, 1, 1, [⟨31, 16, .cmd, 0⟩, ⟨15, 12, .cmd, 0⟩, ⟨11, 8, .cmd, 0⟩, ⟨7, 0, .cmd, 0⟩]⟩,
  ⟨0x30, 0x0, 1, 1, [⟨9, 9, .ro, 0⟩, ⟨8, 8, .ro, 0⟩, ⟨5, 5, .w1s, 0⟩, ⟨4, 4, .w1s, 0⟩, ⟨1, 0, .rw, 0⟩]⟩,
  ⟨0x34, 0x0, 1, 1, [⟨3, 0, .rw, 0⟩]⟩,
  ⟨0x38, 0x0, 1, 1, [⟨31, 16, .ro, 0⟩, ⟨15, 0, .ro, 0⟩]⟩]


/-- Registers of a HOSTQ page. -/
def hostqRegs : List RegDesc := [
  ⟨0x40, 0x20, 32, 2, [⟨63, 0, .rwl, 0⟩]⟩,
  ⟨0x48, 0x20, 32, 2, [⟨63, 0, .rwl, 0⟩]⟩,
  ⟨0x50, 0x20, 32, 1, [⟨31, 28, .rwl, 0⟩, ⟨27, 20, .rwl, 0⟩, ⟨19, 18, .rwl, 0⟩, ⟨15, 10, .rw, 0⟩, ⟨4, 0, .rwl, 6⟩]⟩,
  ⟨0x54, 0x20, 32, 1, [⟨31, 31, .rw, 0⟩, ⟨30, 30, .ro, 0⟩, ⟨23, 16, .rw, 0⟩, ⟨15, 0, .rw, 0⟩]⟩,
  ⟨0x58, 0x20, 32, 1, [⟨31, 0, .rw, 0⟩]⟩,
  ⟨0x5C, 0x20, 32, 1, [⟨31, 0, .ro, 0⟩]⟩,
  ⟨0x440, 0x4, 32, 1, [⟨31, 0, .ro, 0⟩]⟩,
  ⟨0x4C0, 0x0, 1, 1, [⟨31, 0, .w1c, 0⟩]⟩,
  ⟨0x4C4, 0x0, 1, 1, [⟨31, 0, .w1c, 0⟩]⟩,
  ⟨0x0, 0x0, 1, 1, [⟨31, 16, .ro, 0⟩, ⟨15, 8, .ro, 0⟩, ⟨7, 0, .ro, 1⟩]⟩,
  ⟨0x4, 0x0, 1, 1, [⟨23, 16, .ro, 0⟩, ⟨15, 8, .ro, 0⟩, ⟨7, 0, .ro, 0⟩]⟩,
  ⟨0x8, 0x0, 1, 1, [⟨31, 0, .ro, 0⟩]⟩,
  ⟨0xC, 0x0, 1, 1, [⟨31, 16, .rw, 0⟩]⟩,
  ⟨0x10, 0x0, 1, 1, [⟨31, 31, .ro, 0⟩, ⟨30, 30, .ro, 0⟩, ⟨29, 29, .ro, 0⟩]⟩,
  ⟨0x14, 0x0, 1, 1, [⟨31, 31, .rw, 1⟩, ⟨30, 30, .w1s, 0⟩]⟩,
  ⟨0x18, 0x0, 1, 1, []⟩,
  ⟨0x1C, 0x0, 1, 1, [⟨31, 0, .rw, 0⟩]⟩,
  ⟨0x20, 0x0, 1, 1, [⟨5, 0, .rw, 1⟩]⟩,
  ⟨0x24, 0x0, 1, 1, [⟨0, 0, .w1c, 0⟩, ⟨1, 1, .w1c, 0⟩, ⟨2, 2, .w1c, 0⟩]⟩,
  ⟨0x28, 0x0, 1, 1, [⟨31, 0, .w1s, 0⟩]⟩,
  ⟨0x2C, 0x0, 1, 1, [⟨31, 16, .cmd, 0⟩, ⟨15, 12, .cmd, 0⟩, ⟨11, 8, .cmd, 0⟩, ⟨7, 0, .cmd, 0⟩]⟩,
  ⟨0x30, 0x0, 1, 1, [⟨9, 9, .ro, 0⟩, ⟨8, 8, .ro, 0⟩, ⟨5, 5, .w1s, 0⟩, ⟨4, 4, .w1s, 0⟩, ⟨1, 0, .rw, 0⟩]⟩,
  ⟨0x34, 0x0, 1, 1, [⟨3, 0, .rw, 0⟩]⟩,
  ⟨0x38, 0x0, 1, 1, [⟨31, 16, .ro, 0⟩, ⟨15, 0, .ro, 0⟩]⟩]


/-- Registers of a OWN page. -/
def ownRegs : List RegDesc := [
  ⟨0x40, 0x4, 16, 1, [⟨31, 16, .rw, 0⟩, ⟨1, 1, .rw, 0⟩, ⟨0, 0, .rw, 0⟩]⟩,
  ⟨0x80, 0x0, 1, 1, [⟨31, 16, .rw, 1⟩]⟩,
  ⟨0x84, 0x0, 1, 1, [⟨1, 1, .rw, 1⟩, ⟨0, 0, .rw, 1⟩]⟩,
  ⟨0x90, 0x0, 1, 1, [⟨31, 16, .rw, 0⟩, ⟨15, 0, .rw, 0⟩]⟩,
  ⟨0x94, 0x0, 1, 1, [⟨31, 16, .cmd, 0⟩, ⟨15, 8, .cmd, 0⟩, ⟨7, 0, .cmd, 0⟩]⟩,
  ⟨0x100, 0x10, 16, 1, [⟨31, 0, .rw, 0⟩]⟩,
  ⟨0x104, 0x10, 16, 1, [⟨17, 17, .ro, 0⟩, ⟨16, 16, .w1c, 0⟩, ⟨8, 8, .w1s, 0⟩, ⟨0, 0, .rw, 0⟩]⟩,
  ⟨0x108, 0x10, 16, 1, [⟨31, 0, .ro, 0⟩]⟩,
  ⟨0x200, 0x0, 1, 1, [⟨31, 0, .w1c, 0⟩]⟩,
  ⟨0x204, 0x0, 1, 1, [⟨31, 16, .ro, 0⟩, ⟨15, 0, .ro, 0⟩]⟩,
  ⟨0x208, 0x0, 1, 1, [⟨27, 16, .ro, 0⟩, ⟨11, 0, .ro, 0⟩]⟩,
  ⟨0x0, 0x0, 1, 1, [⟨31, 16, .ro, 0⟩, ⟨15, 8, .ro, 0⟩, ⟨7, 0, .ro, 1⟩]⟩,
  ⟨0x4, 0x0, 1, 1, [⟨23, 16, .ro, 0⟩, ⟨15, 8, .ro, 0⟩, ⟨7, 0, .ro, 0⟩]⟩,
  ⟨0x8, 0x0, 1, 1, [⟨31, 0, .ro, 0⟩]⟩,
  ⟨0xC, 0x0, 1, 1, [⟨31, 16, .rw, 0⟩]⟩,
  ⟨0x10, 0x0, 1, 1, [⟨31, 31, .ro, 0⟩, ⟨30, 30, .ro, 0⟩, ⟨29, 29, .ro, 0⟩]⟩,
  ⟨0x14, 0x0, 1, 1, [⟨31, 31, .rw, 1⟩, ⟨30, 30, .w1s, 0⟩]⟩,
  ⟨0x18, 0x0, 1, 1, []⟩,
  ⟨0x1C, 0x0, 1, 1, [⟨31, 0, .rw, 0⟩]⟩,
  ⟨0x20, 0x0, 1, 1, [⟨5, 0, .rw, 1⟩]⟩,
  ⟨0x24, 0x0, 1, 1, [⟨0, 0, .w1c, 0⟩]⟩,
  ⟨0x28, 0x0, 1, 1, [⟨31, 0, .w1s, 0⟩]⟩,
  ⟨0x2C, 0x0, 1, 1, [⟨31, 16, .cmd, 0⟩, ⟨15, 12, .cmd, 0⟩, ⟨11, 8, .cmd, 0⟩, ⟨7, 0, .cmd, 0⟩]⟩,
  ⟨0x30, 0x0, 1, 1, [⟨9, 9, .ro, 0⟩, ⟨8, 8, .ro, 0⟩, ⟨5, 5, .w1s, 0⟩, ⟨4, 4, .w1s, 0⟩, ⟨1, 0, .rw, 0⟩]⟩,
  ⟨0x34, 0x0, 1, 1, [⟨3, 0, .rw, 0⟩]⟩,
  ⟨0x38, 0x0, 1, 1, [⟨31, 16, .ro, 0⟩, ⟨15, 0, .ro, 0⟩]⟩]


/-- Registers of a CAL page. -/
def calRegs : List RegDesc := [
  ⟨0x40, 0x0, 1, 1, [⟨31, 31, .rw, 0⟩, ⟨21, 16, .rw, 0⟩, ⟨3, 0, .rw, 0⟩]⟩,
  ⟨0x44, 0x0, 1, 1, [⟨31, 0, .ro, 0⟩]⟩,
  ⟨0x48, 0x0, 1, 1, [⟨31, 0, .ro, 0⟩]⟩,
  ⟨0x4C, 0x0, 1, 1, [⟨31, 0, .ro, 4294967295⟩]⟩,
  ⟨0x50, 0x0, 1, 1, [⟨31, 0, .ro, 0⟩]⟩,
  ⟨0x60, 0x0, 1, 1, [⟨11, 0, .ro, 0⟩]⟩,
  ⟨0x64, 0x0, 1, 1, [⟨15, 0, .ro, 0⟩]⟩,
  ⟨0x68, 0x0, 1, 1, [⟨15, 0, .ro, 0⟩]⟩,
  ⟨0x6C, 0x0, 1, 1, [⟨31, 0, .ro, 0⟩]⟩,
  ⟨0x0, 0x0, 1, 1, [⟨31, 16, .ro, 0⟩, ⟨15, 8, .ro, 0⟩, ⟨7, 0, .ro, 1⟩]⟩,
  ⟨0x4, 0x0, 1, 1, [⟨23, 16, .ro, 0⟩, ⟨15, 8, .ro, 0⟩, ⟨7, 0, .ro, 0⟩]⟩,
  ⟨0x8, 0x0, 1, 1, [⟨31, 0, .ro, 0⟩]⟩,
  ⟨0xC, 0x0, 1, 1, [⟨31, 16, .rw, 0⟩]⟩,
  ⟨0x10, 0x0, 1, 1, [⟨31, 31, .ro, 0⟩, ⟨30, 30, .ro, 0⟩, ⟨29, 29, .ro, 0⟩, ⟨1, 1, .ro, 0⟩, ⟨0, 0, .ro, 0⟩]⟩,
  ⟨0x14, 0x0, 1, 1, [⟨31, 31, .rw, 1⟩, ⟨30, 30, .w1s, 0⟩]⟩,
  ⟨0x18, 0x0, 1, 1, [⟨0, 0, .w1c, 0⟩]⟩,
  ⟨0x1C, 0x0, 1, 1, [⟨31, 0, .rw, 0⟩]⟩,
  ⟨0x20, 0x0, 1, 1, [⟨5, 0, .rw, 1⟩]⟩,
  ⟨0x24, 0x0, 1, 1, []⟩,
  ⟨0x28, 0x0, 1, 1, [⟨31, 0, .w1s, 0⟩]⟩,
  ⟨0x2C, 0x0, 1, 1, [⟨31, 16, .cmd, 0⟩, ⟨15, 12, .cmd, 0⟩, ⟨11, 8, .cmd, 0⟩, ⟨7, 0, .cmd, 0⟩]⟩,
  ⟨0x30, 0x0, 1, 1, [⟨9, 9, .ro, 0⟩, ⟨8, 8, .ro, 0⟩, ⟨5, 5, .w1s, 0⟩, ⟨4, 4, .w1s, 0⟩, ⟨1, 0, .rw, 0⟩]⟩,
  ⟨0x34, 0x0, 1, 1, [⟨3, 0, .rw, 0⟩]⟩,
  ⟨0x38, 0x0, 1, 1, [⟨31, 16, .ro, 0⟩, ⟨15, 0, .ro, 0⟩]⟩]


/-- Registers of a QUAD page. -/
def quadRegs : List RegDesc := [
  ⟨0x40, 0x0, 1, 1, [⟨18, 16, .ro, 4⟩, ⟨15, 0, .ro, 12816⟩]⟩,
  ⟨0x44, 0x0, 1, 1, [⟨19, 0, .ro, 0⟩]⟩,
  ⟨0x48, 0x0, 1, 1, [⟨23, 16, .rw, 4⟩, ⟨15, 8, .rw, 60⟩, ⟨1, 1, .rw, 1⟩, ⟨0, 0, .rw, 1⟩]⟩,
  ⟨0x4C, 0x0, 1, 1, [⟨11, 8, .cmd, 0⟩, ⟨7, 0, .cmd, 0⟩]⟩,
  ⟨0x50, 0x0, 1, 1, [⟨31, 16, .ro, 0⟩, ⟨15, 0, .ro, 0⟩]⟩,
  ⟨0x54, 0x0, 1, 1, [⟨15, 14, .ro, 0⟩, ⟨13, 12, .ro, 0⟩, ⟨10, 8, .ro, 0⟩, ⟨6, 4, .ro, 0⟩, ⟨1, 0, .ro, 0⟩]⟩,
  ⟨0x58, 0x0, 1, 2, [⟨63, 0, .ro, 0⟩]⟩,
  ⟨0x60, 0x0, 1, 1, [⟨20, 18, .ro, 0⟩, ⟨17, 17, .ro, 0⟩, ⟨16, 16, .ro, 0⟩, ⟨15, 8, .ro, 0⟩, ⟨3, 0, .ro, 0⟩]⟩,
  ⟨0x64, 0x0, 1, 1, [⟨31, 16, .ro, 0⟩, ⟨15, 0, .ro, 0⟩]⟩,
  ⟨0x80, 0x8, 5, 1, [⟨31, 0, .ro, 0⟩]⟩,
  ⟨0x84, 0x8, 5, 1, [⟨31, 0, .ro, 0⟩]⟩,
  ⟨0xC0, 0x8, 4, 1, [⟨31, 0, .ro, 0⟩]⟩,
  ⟨0xC4, 0x8, 4, 1, [⟨31, 0, .ro, 0⟩]⟩,
  ⟨0xE0, 0x4, 4, 1, [⟨31, 0, .ro, 4294967295⟩]⟩,
  ⟨0xF0, 0x4, 4, 1, [⟨31, 0, .w1c, 0⟩]⟩,
  ⟨0x100, 0x10, 4, 3, [⟨95, 0, .shd, 0⟩]⟩,
  ⟨0x10C, 0x10, 4, 1, [⟨15, 0, .shd, 0⟩]⟩,
  ⟨0x140, 0x0, 1, 1, [⟨2, 0, .rw, 0⟩]⟩,
  ⟨0x160, 0x4, 5, 1, [⟨31, 16, .ro, 0⟩, ⟨15, 0, .ro, 0⟩]⟩,
  ⟨0x180, 0x10, 4, 1, [⟨9, 9, .ro, 0⟩, ⟨8, 8, .ro, 0⟩, ⟨5, 5, .w1s, 0⟩, ⟨4, 4, .w1s, 0⟩, ⟨1, 0, .rw, 0⟩]⟩,
  ⟨0x184, 0x10, 4, 1, [⟨3, 0, .rw, 0⟩]⟩,
  ⟨0x188, 0x10, 4, 1, [⟨31, 16, .ro, 0⟩, ⟨15, 0, .ro, 0⟩]⟩,
  ⟨0x400, 0x4, 160, 1, [⟨27, 16, .ro, 0⟩, ⟨11, 0, .ro, 0⟩]⟩,
  ⟨0x680, 0x4, 8, 1, [⟨25, 16, .ro, 0⟩, ⟨9, 0, .ro, 0⟩]⟩,
  ⟨0x0, 0x0, 1, 1, [⟨31, 16, .ro, 0⟩, ⟨15, 8, .ro, 0⟩, ⟨7, 0, .ro, 1⟩]⟩,
  ⟨0x4, 0x0, 1, 1, [⟨23, 16, .ro, 0⟩, ⟨15, 8, .ro, 0⟩, ⟨7, 0, .ro, 0⟩]⟩,
  ⟨0x8, 0x0, 1, 1, [⟨31, 0, .ro, 0⟩]⟩,
  ⟨0xC, 0x0, 1, 1, [⟨31, 16, .rw, 0⟩]⟩,
  ⟨0x10, 0x0, 1, 1, [⟨31, 31, .ro, 0⟩, ⟨30, 30, .ro, 0⟩, ⟨29, 29, .ro, 0⟩, ⟨7, 4, .ro, 0⟩, ⟨3, 3, .ro, 0⟩, ⟨2, 2, .ro, 0⟩, ⟨1, 1, .ro, 0⟩, ⟨0, 0, .ro, 1⟩]⟩,
  ⟨0x14, 0x0, 1, 1, [⟨31, 31, .rw, 1⟩, ⟨30, 30, .w1s, 0⟩]⟩,
  ⟨0x18, 0x0, 1, 1, [⟨4, 4, .w1c, 0⟩, ⟨3, 3, .w1c, 0⟩, ⟨2, 2, .w1c, 0⟩, ⟨1, 1, .w1c, 0⟩, ⟨0, 0, .w1c, 0⟩]⟩,
  ⟨0x1C, 0x0, 1, 1, [⟨31, 0, .rw, 0⟩]⟩,
  ⟨0x20, 0x0, 1, 1, [⟨5, 0, .rw, 1⟩]⟩,
  ⟨0x24, 0x0, 1, 1, [⟨4, 4, .w1c, 0⟩, ⟨3, 3, .w1c, 0⟩, ⟨2, 2, .w1c, 0⟩, ⟨1, 1, .w1c, 0⟩, ⟨0, 0, .w1c, 0⟩]⟩,
  ⟨0x28, 0x0, 1, 1, [⟨31, 0, .w1s, 0⟩]⟩,
  ⟨0x2C, 0x0, 1, 1, [⟨31, 16, .cmd, 0⟩, ⟨15, 12, .cmd, 0⟩, ⟨11, 8, .cmd, 0⟩, ⟨7, 0, .cmd, 0⟩]⟩]


/-- Registers of a CHAN page. -/
def chanRegs : List RegDesc := [
  ⟨0x40, 0x0, 1, 1, [⟨29, 24, .shd, 0⟩, ⟨21, 16, .shd, 0⟩, ⟨7, 7, .shd, 1⟩, ⟨5, 4, .shd, 0⟩, ⟨3, 0, .shd, 0⟩]⟩,
  ⟨0x44, 0x0, 1, 1, [⟨4, 4, .shd, 0⟩, ⟨3, 2, .shd, 2⟩, ⟨1, 1, .shd, 0⟩, ⟨0, 0, .shd, 0⟩]⟩,
  ⟨0x48, 0x0, 1, 1, [⟨5, 4, .rwl, 0⟩, ⟨3, 3, .rwl, 0⟩, ⟨2, 0, .rwl, 0⟩]⟩,
  ⟨0x50, 0x0, 1, 3, [⟨95, 0, .shd, 0⟩]⟩,
  ⟨0x60, 0x0, 1, 3, [⟨95, 0, .shd, 0⟩]⟩,
  ⟨0x70, 0x0, 1, 3, [⟨95, 0, .shd, 0⟩]⟩,
  ⟨0x7C, 0x0, 1, 1, [⟨31, 0, .shd, 0⟩]⟩,
  ⟨0x80, 0x0, 1, 3, [⟨95, 0, .shd, 0⟩]⟩,
  ⟨0x90, 0x0, 1, 4, [⟨127, 0, .shd, 0⟩]⟩,
  ⟨0xA0, 0x0, 1, 1, [⟨31, 0, .shd, 1⟩]⟩,
  ⟨0xB0, 0x0, 1, 3, [⟨95, 0, .shd, 0⟩]⟩,
  ⟨0xC0, 0x0, 1, 1, [⟨31, 0, .ro, 0⟩]⟩,
  ⟨0xC4, 0x0, 1, 1, [⟨31, 0, .w1c, 0⟩]⟩,
  ⟨0xC8, 0x0, 1, 1, [⟨31, 0, .w1c, 0⟩]⟩,
  ⟨0xCC, 0x0, 1, 1, [⟨31, 0, .w1c, 0⟩]⟩,
  ⟨0xD0, 0x0, 1, 1, [⟨31, 0, .w1c, 0⟩]⟩,
  ⟨0xD4, 0x0, 1, 1, [⟨31, 0, .w1c, 0⟩]⟩,
  ⟨0xD8, 0x0, 1, 1, [⟨31, 0, .w1c, 0⟩]⟩,
  ⟨0xE0, 0x0, 1, 4, [⟨127, 0, .ro, 0⟩]⟩,
  ⟨0xF0, 0x0, 1, 1, [⟨31, 0, .ro, 4294967295⟩]⟩,
  ⟨0xF8, 0x0, 1, 2, [⟨63, 0, .ro, 0⟩]⟩,
  ⟨0x0, 0x0, 1, 1, [⟨31, 16, .ro, 0⟩, ⟨15, 8, .ro, 0⟩, ⟨7, 0, .ro, 1⟩]⟩,
  ⟨0x4, 0x0, 1, 1, [⟨23, 16, .ro, 0⟩, ⟨15, 8, .ro, 0⟩, ⟨7, 0, .ro, 0⟩]⟩,
  ⟨0x8, 0x0, 1, 1, [⟨31, 0, .ro, 0⟩]⟩,
  ⟨0xC, 0x0, 1, 1, [⟨31, 16, .rw, 0⟩]⟩,
  ⟨0x10, 0x0, 1, 1, [⟨31, 31, .ro, 0⟩, ⟨30, 30, .ro, 0⟩, ⟨29, 29, .ro, 0⟩, ⟨12, 8, .ro, 0⟩, ⟨4, 4, .ro, 0⟩, ⟨3, 3, .ro, 0⟩, ⟨2, 2, .ro, 0⟩, ⟨1, 1, .ro, 0⟩, ⟨0, 0, .ro, 0⟩]⟩,
  ⟨0x14, 0x0, 1, 1, [⟨31, 31, .rw, 0⟩, ⟨30, 30, .w1s, 0⟩, ⟨0, 0, .w1s, 0⟩]⟩,
  ⟨0x18, 0x0, 1, 1, [⟨4, 4, .w1c, 0⟩, ⟨3, 3, .w1c, 0⟩, ⟨2, 2, .w1c, 0⟩, ⟨1, 1, .w1c, 0⟩, ⟨0, 0, .w1c, 0⟩]⟩,
  ⟨0x1C, 0x0, 1, 1, [⟨31, 0, .rw, 0⟩]⟩,
  ⟨0x20, 0x0, 1, 1, [⟨5, 0, .rw, 1⟩]⟩,
  ⟨0x24, 0x0, 1, 1, [⟨1, 1, .w1c, 0⟩, ⟨0, 0, .w1c, 0⟩]⟩,
  ⟨0x28, 0x0, 1, 1, [⟨31, 0, .w1s, 0⟩]⟩,
  ⟨0x2C, 0x0, 1, 1, [⟨31, 16, .cmd, 0⟩, ⟨15, 12, .cmd, 0⟩, ⟨11, 8, .cmd, 0⟩, ⟨7, 0, .cmd, 0⟩]⟩,
  ⟨0x30, 0x0, 1, 1, [⟨9, 9, .ro, 0⟩, ⟨8, 8, .ro, 0⟩, ⟨5, 5, .w1s, 0⟩, ⟨4, 4, .w1s, 0⟩, ⟨1, 0, .rw, 0⟩]⟩,
  ⟨0x34, 0x0, 1, 1, [⟨3, 0, .rw, 0⟩]⟩,
  ⟨0x38, 0x0, 1, 1, [⟨31, 16, .ro, 0⟩, ⟨15, 0, .ro, 0⟩]⟩]


/-- Registers of a AUX page. -/
def auxRegs : List RegDesc := [
  ⟨0x40, 0x0, 1, 1, [⟨15, 0, .rw, 60⟩]⟩,
  ⟨0x44, 0x0, 1, 1, [⟨15, 0, .rw, 0⟩]⟩,
  ⟨0x48, 0x0, 1, 1, [⟨3, 3, .rwl, 0⟩, ⟨2, 0, .rwl, 0⟩]⟩,
  ⟨0x4C, 0x0, 1, 1, [⟨31, 0, .rw, 6400000⟩]⟩,
  ⟨0x50, 0x0, 1, 1, [⟨8, 8, .rw, 0⟩, ⟨7, 0, .rw, 1⟩]⟩,
  ⟨0x54, 0x0, 1, 1, [⟨17, 16, .rw, 0⟩, ⟨9, 8, .rw, 0⟩]⟩,
  ⟨0x58, 0x0, 1, 1, [⟨31, 0, .rw, 1⟩]⟩,
  ⟨0x60, 0x0, 1, 2, [⟨63, 0, .ro, 0⟩]⟩,
  ⟨0x68, 0x0, 1, 1, [⟨31, 0, .ro, 0⟩]⟩,
  ⟨0x6C, 0x0, 1, 1, [⟨31, 0, .w1c, 0⟩]⟩,
  ⟨0x0, 0x0, 1, 1, [⟨31, 16, .ro, 0⟩, ⟨15, 8, .ro, 0⟩, ⟨7, 0, .ro, 1⟩]⟩,
  ⟨0x4, 0x0, 1, 1, [⟨23, 16, .ro, 0⟩, ⟨15, 8, .ro, 0⟩, ⟨7, 0, .ro, 0⟩]⟩,
  ⟨0x8, 0x0, 1, 1, [⟨31, 0, .ro, 0⟩]⟩,
  ⟨0xC, 0x0, 1, 1, [⟨31, 16, .rw, 0⟩]⟩,
  ⟨0x10, 0x0, 1, 1, [⟨31, 31, .ro, 0⟩, ⟨30, 30, .ro, 0⟩, ⟨29, 29, .ro, 0⟩, ⟨3, 3, .ro, 0⟩, ⟨2, 2, .ro, 0⟩, ⟨1, 1, .ro, 0⟩, ⟨0, 0, .ro, 0⟩]⟩,
  ⟨0x14, 0x0, 1, 1, [⟨31, 31, .rw, 0⟩, ⟨30, 30, .w1s, 0⟩]⟩,
  ⟨0x18, 0x0, 1, 1, [⟨1, 1, .w1c, 0⟩, ⟨0, 0, .w1c, 0⟩]⟩,
  ⟨0x1C, 0x0, 1, 1, [⟨31, 0, .rw, 0⟩]⟩,
  ⟨0x20, 0x0, 1, 1, [⟨5, 0, .rw, 1⟩]⟩,
  ⟨0x24, 0x0, 1, 1, [⟨0, 0, .w1c, 0⟩]⟩,
  ⟨0x28, 0x0, 1, 1, [⟨31, 0, .w1s, 0⟩]⟩,
  ⟨0x2C, 0x0, 1, 1, [⟨31, 16, .cmd, 0⟩, ⟨15, 12, .cmd, 0⟩, ⟨11, 8, .cmd, 0⟩, ⟨7, 0, .cmd, 0⟩]⟩,
  ⟨0x30, 0x0, 1, 1, [⟨9, 9, .ro, 0⟩, ⟨8, 8, .ro, 0⟩, ⟨5, 5, .w1s, 0⟩, ⟨4, 4, .w1s, 0⟩, ⟨1, 0, .rw, 0⟩]⟩,
  ⟨0x34, 0x0, 1, 1, [⟨3, 0, .rw, 0⟩]⟩,
  ⟨0x38, 0x0, 1, 1, [⟨31, 16, .ro, 0⟩, ⟨15, 0, .ro, 0⟩]⟩]


/-- Registers of a TIN page. -/
def tinRegs : List RegDesc := [
  ⟨0x40, 0x0, 1, 1, [⟨19, 16, .shd, 4⟩, ⟨11, 0, .shd, 2048⟩]⟩,
  ⟨0x44, 0x0, 1, 1, [⟨31, 16, .shd, 1⟩, ⟨9, 8, .shd, 1⟩, ⟨5, 4, .shd, 0⟩, ⟨0, 0, .shd, 0⟩]⟩,
  ⟨0x48, 0x0, 1, 1, [⟨15, 8, .rw, 100⟩, ⟨0, 0, .rw, 0⟩]⟩,
  ⟨0x4C, 0x0, 1, 1, [⟨31, 16, .ro, 0⟩, ⟨15, 8, .ro, 0⟩, ⟨0, 0, .ro, 0⟩]⟩,
  ⟨0x50, 0x0, 1, 1, [⟨15, 0, .ro, 0⟩]⟩,
  ⟨0x60, 0x0, 1, 1, [⟨31, 0, .ro, 0⟩]⟩,
  ⟨0x64, 0x0, 1, 1, [⟨31, 0, .ro, 0⟩]⟩,
  ⟨0x68, 0x0, 1, 1, [⟨31, 0, .ro, 4294967295⟩]⟩,
  ⟨0x70, 0x4, 2, 1, [⟨23, 0, .ro, 0⟩]⟩,
  ⟨0x80, 0x0, 1, 1, [⟨31, 0, .ro, 0⟩]⟩,
  ⟨0x84, 0x0, 1, 1, [⟨31, 0, .w1c, 0⟩]⟩,
  ⟨0x88, 0x0, 1, 1, [⟨31, 0, .w1c, 0⟩]⟩,
  ⟨0x8C, 0x0, 1, 1, [⟨31, 0, .w1c, 0⟩]⟩,
  ⟨0x90, 0x0, 1, 1, [⟨31, 0, .w1c, 0⟩]⟩,
  ⟨0x94, 0x0, 1, 1, [⟨10, 0, .ro, 0⟩]⟩,
  ⟨0xA0, 0x8, 4, 1, [⟨31, 31, .ro, 0⟩, ⟨19, 16, .ro, 0⟩, ⟨7, 0, .ro, 0⟩]⟩,
  ⟨0xA4, 0x8, 4, 1, [⟨31, 16, .ro, 0⟩]⟩,
  ⟨0xC0, 0x0, 1, 4, [⟨127, 0, .ro, 0⟩]⟩,
  ⟨0xD0, 0x0, 1, 1, [⟨31, 0, .ro, 4294967295⟩]⟩,
  ⟨0xD4, 0x0, 1, 1, [⟨1, 0, .ro, 0⟩]⟩,
  ⟨0x100, 0x0, 1, 1, [⟨16, 16, .rw, 0⟩, ⟨9, 0, .rw, 0⟩]⟩,
  ⟨0x400, 0x4, 64, 1, [⟨23, 0, .ro, 0⟩]⟩,
  ⟨0x500, 0x4, 16, 1, [⟨23, 0, .ro, 0⟩]⟩,
  ⟨0x540, 0x4, 16, 1, [⟨23, 0, .ro, 0⟩]⟩,
  ⟨0x0, 0x0, 1, 1, [⟨31, 16, .ro, 0⟩, ⟨15, 8, .ro, 0⟩, ⟨7, 0, .ro, 1⟩]⟩,
  ⟨0x4, 0x0, 1, 1, [⟨23, 16, .ro, 0⟩, ⟨15, 8, .ro, 0⟩, ⟨7, 0, .ro, 0⟩]⟩,
  ⟨0x8, 0x0, 1, 1, [⟨31, 0, .ro, 0⟩]⟩,
  ⟨0xC, 0x0, 1, 1, [⟨31, 16, .rw, 0⟩]⟩,
  ⟨0x10, 0x0, 1, 1, [⟨31, 31, .ro, 0⟩, ⟨30, 30, .ro, 0⟩, ⟨29, 29, .ro, 0⟩, ⟨10, 8, .ro, 0⟩, ⟨4, 4, .ro, 0⟩, ⟨3, 3, .ro, 0⟩, ⟨2, 2, .ro, 1⟩, ⟨1, 1, .ro, 0⟩, ⟨0, 0, .ro, 1⟩]⟩,
  ⟨0x14, 0x0, 1, 1, [⟨31, 31, .rw, 0⟩, ⟨30, 30, .w1s, 0⟩, ⟨0, 0, .w1s, 0⟩]⟩,
  ⟨0x18, 0x0, 1, 1, [⟨5, 5, .w1c, 0⟩, ⟨4, 4, .w1c, 0⟩, ⟨3, 3, .w1c, 0⟩, ⟨2, 2, .w1c, 0⟩, ⟨1, 1, .w1c, 0⟩, ⟨0, 0, .w1c, 0⟩]⟩,
  ⟨0x1C, 0x0, 1, 1, [⟨31, 0, .rw, 0⟩]⟩,
  ⟨0x20, 0x0, 1, 1, [⟨5, 0, .rw, 1⟩]⟩,
  ⟨0x24, 0x0, 1, 1, [⟨3, 3, .w1c, 0⟩, ⟨2, 2, .w1c, 0⟩, ⟨1, 1, .w1c, 0⟩, ⟨0, 0, .w1c, 0⟩]⟩,
  ⟨0x28, 0x0, 1, 1, [⟨31, 0, .w1s, 0⟩]⟩,
  ⟨0x2C, 0x0, 1, 1, [⟨31, 16, .cmd, 0⟩, ⟨15, 12, .cmd, 0⟩, ⟨11, 8, .cmd, 0⟩, ⟨7, 0, .cmd, 0⟩]⟩,
  ⟨0x30, 0x0, 1, 1, [⟨9, 9, .ro, 0⟩, ⟨8, 8, .ro, 0⟩, ⟨5, 5, .w1s, 0⟩, ⟨4, 4, .w1s, 0⟩, ⟨1, 0, .rw, 0⟩]⟩,
  ⟨0x34, 0x0, 1, 1, [⟨3, 0, .rw, 0⟩]⟩,
  ⟨0x38, 0x0, 1, 1, [⟨31, 16, .ro, 0⟩, ⟨15, 0, .ro, 0⟩]⟩]


/-- Registers of a TDC page. -/
def tdcRegs : List RegDesc := [
  ⟨0x40, 0x0, 1, 1, [⟨12, 8, .cmd, 0⟩, ⟨7, 0, .cmd, 0⟩]⟩,
  ⟨0x44, 0x0, 1, 1, [⟨4, 0, .rw, 0⟩]⟩,
  ⟨0x48, 0x0, 1, 1, [⟨31, 31, .ro, 0⟩, ⟨15, 0, .ro, 0⟩]⟩,
  ⟨0x50, 0x4, 16, 1, [⟨31, 0, .w1c, 0⟩]⟩,
  ⟨0x100, 0x40, 16, 1, [⟨31, 31, .rw, 0⟩, ⟨29, 28, .rwl, 0⟩, ⟨27, 26, .rwl, 1⟩, ⟨25, 24, .rwl, 3⟩, ⟨20, 16, .rwl, 1⟩, ⟨15, 14, .rwl, 0⟩, ⟨13, 8, .rwl, 0⟩, ⟨5, 0, .rwl, 0⟩]⟩,
  ⟨0x104, 0x40, 16, 1, [⟨15, 0, .rwl, 0⟩]⟩,
  ⟨0x108, 0x40, 16, 1, [⟨31, 0, .rwl, 0⟩]⟩,
  ⟨0x110, 0x40, 16, 2, [⟨63, 0, .rwl, 1000000⟩]⟩,
  ⟨0x118, 0x40, 16, 1, [⟨20, 16, .ro, 0⟩, ⟨2, 0, .ro, 0⟩]⟩,
  ⟨0x11C, 0x40, 16, 1, [⟨31, 0, .ro, 0⟩]⟩,
  ⟨0x120, 0x40, 16, 1, [⟨31, 0, .w1c, 0⟩]⟩,
  ⟨0x124, 0x40, 16, 1, [⟨31, 0, .w1c, 0⟩]⟩,
  ⟨0x130, 0x40, 16, 4, [⟨127, 0, .ro, 0⟩]⟩,
  ⟨0x500, 0x20, 8, 1, [⟨31, 31, .rw, 0⟩, ⟨29, 28, .rwl, 0⟩, ⟨27, 26, .rwl, 1⟩, ⟨13, 8, .rwl, 0⟩, ⟨3, 0, .rwl, 0⟩]⟩,
  ⟨0x504, 0x20, 8, 1, [⟨31, 0, .rwl, 0⟩]⟩,
  ⟨0x508, 0x20, 8, 2, [⟨63, 0, .rwl, 1000000000⟩]⟩,
  ⟨0x510, 0x20, 8, 1, [⟨1, 0, .ro, 0⟩]⟩,
  ⟨0x514, 0x20, 8, 1, [⟨31, 0, .ro, 0⟩]⟩,
  ⟨0x518, 0x20, 8, 1, [⟨31, 0, .w1c, 0⟩]⟩,
  ⟨0x600, 0x20, 4, 1, [⟨31, 31, .ro, 0⟩, ⟨30, 30, .ro, 0⟩, ⟨4, 0, .ro, 0⟩]⟩,
  ⟨0x608, 0x20, 4, 2, [⟨63, 0, .ro, 0⟩]⟩,
  ⟨0x610, 0x20, 4, 2, [⟨63, 0, .ro, 0⟩]⟩,
  ⟨0x618, 0x20, 4, 1, [⟨31, 0, .ro, 0⟩]⟩,
  ⟨0x6A0, 0x0, 1, 72, [⟨2303, 0, .ro, 0⟩]⟩,
  ⟨0x0, 0x0, 1, 1, [⟨31, 16, .ro, 0⟩, ⟨15, 8, .ro, 0⟩, ⟨7, 0, .ro, 1⟩]⟩,
  ⟨0x4, 0x0, 1, 1, [⟨23, 16, .ro, 0⟩, ⟨15, 8, .ro, 0⟩, ⟨7, 0, .ro, 0⟩]⟩,
  ⟨0x8, 0x0, 1, 1, [⟨31, 0, .ro, 0⟩]⟩,
  ⟨0xC, 0x0, 1, 1, [⟨31, 16, .rw, 0⟩]⟩,
  ⟨0x10, 0x0, 1, 1, [⟨31, 31, .ro, 0⟩, ⟨30, 30, .ro, 0⟩, ⟨29, 29, .ro, 0⟩, ⟨23, 16, .ro, 0⟩, ⟨15, 0, .ro, 0⟩]⟩,
  ⟨0x14, 0x0, 1, 1, [⟨31, 31, .rw, 1⟩, ⟨30, 30, .w1s, 0⟩]⟩,
  ⟨0x18, 0x0, 1, 1, [⟨5, 5, .w1c, 0⟩, ⟨4, 4, .w1c, 0⟩, ⟨3, 3, .w1c, 0⟩, ⟨2, 2, .w1c, 0⟩, ⟨1, 1, .w1c, 0⟩, ⟨0, 0, .w1c, 0⟩]⟩,
  ⟨0x1C, 0x0, 1, 1, [⟨31, 0, .rw, 0⟩]⟩,
  ⟨0x20, 0x0, 1, 1, [⟨5, 0, .rw, 1⟩]⟩,
  ⟨0x24, 0x0, 1, 1, [⟨1, 1, .w1c, 0⟩, ⟨0, 0, .w1c, 0⟩]⟩,
  ⟨0x28, 0x0, 1, 1, [⟨31, 0, .w1s, 0⟩]⟩,
  ⟨0x2C, 0x0, 1, 1, [⟨31, 16, .cmd, 0⟩, ⟨15, 12, .cmd, 0⟩, ⟨11, 8, .cmd, 0⟩, ⟨7, 0, .cmd, 0⟩]⟩,
  ⟨0x30, 0x0, 1, 1, [⟨9, 9, .ro, 0⟩, ⟨8, 8, .ro, 0⟩, ⟨5, 5, .w1s, 0⟩, ⟨4, 4, .w1s, 0⟩, ⟨1, 0, .rw, 0⟩]⟩,
  ⟨0x34, 0x0, 1, 1, [⟨3, 0, .rw, 0⟩]⟩,
  ⟨0x38, 0x0, 1, 1, [⟨31, 16, .ro, 0⟩, ⟨15, 0, .ro, 0⟩]⟩]


/-- Registers of a PHASE page. -/
def phaseRegs : List RegDesc := [
  ⟨0x40, 0x0, 1, 1, [⟨17, 16, .rwl, 1⟩, ⟨3, 0, .rwl, 0⟩]⟩,
  ⟨0x44, 0x0, 1, 1, [⟨26, 16, .rwl, 64⟩, ⟨9, 8, .rwl, 1⟩, ⟨7, 0, .rw, 32⟩]⟩,
  ⟨0x48, 0x0, 1, 1, [⟨15, 0, .rwl, 1⟩]⟩,
  ⟨0x4C, 0x0, 1, 1, [⟨31, 24, .rw, 16⟩, ⟨23, 16, .rw, 8⟩, ⟨15, 8, .rw, 4⟩, ⟨0, 0, .rw, 0⟩]⟩,
  ⟨0x50, 0x0, 1, 1, [⟨31, 16, .rw, 1⟩]⟩,
  ⟨0x54, 0x0, 1, 1, [⟨31, 0, .rw, 0⟩]⟩,
  ⟨0x58, 0x0, 1, 1, [⟨31, 0, .rw, 20000⟩]⟩,
  ⟨0x60, 0x0, 1, 4, [⟨127, 0, .ro, 0⟩]⟩,
  ⟨0x70, 0x0, 1, 2, [⟨63, 0, .ro, 0⟩]⟩,
  ⟨0x78, 0x0, 1, 1, [⟨31, 0, .ro, 0⟩]⟩,
  ⟨0x7C, 0x0, 1, 1, [⟨31, 0, .ro, 4294967295⟩]⟩,
  ⟨0x80, 0x0, 1, 3, [⟨95, 0, .ro, 0⟩]⟩,
  ⟨0x8C, 0x0, 1, 1, [⟨31, 0, .ro, 0⟩]⟩,
  ⟨0x90, 0x0, 1, 2, [⟨63, 0, .ro, 0⟩]⟩,
  ⟨0x98, 0x0, 1, 2, [⟨63, 0, .ro, 0⟩]⟩,
  ⟨0xA0, 0x0, 1, 1, [⟨31, 0, .ro, 0⟩]⟩,
  ⟨0xA4, 0x0, 1, 1, [⟨31, 0, .w1c, 0⟩]⟩,
  ⟨0xA8, 0x0, 1, 1, [⟨31, 0, .w1c, 0⟩]⟩,
  ⟨0xAC, 0x0, 1, 1, [⟨31, 0, .w1c, 0⟩]⟩,
  ⟨0xB0, 0x0, 1, 1, [⟨31, 0, .ro, 0⟩]⟩,
  ⟨0xC0, 0x0, 1, 4, [⟨127, 0, .ro, 0⟩]⟩,
  ⟨0x0, 0x0, 1, 1, [⟨31, 16, .ro, 0⟩, ⟨15, 8, .ro, 0⟩, ⟨7, 0, .ro, 1⟩]⟩,
  ⟨0x4, 0x0, 1, 1, [⟨23, 16, .ro, 0⟩, ⟨15, 8, .ro, 0⟩, ⟨7, 0, .ro, 0⟩]⟩,
  ⟨0x8, 0x0, 1, 1, [⟨31, 0, .ro, 0⟩]⟩,
  ⟨0xC, 0x0, 1, 1, [⟨31, 16, .rw, 0⟩]⟩,
  ⟨0x10, 0x0, 1, 1, [⟨31, 31, .ro, 0⟩, ⟨30, 30, .ro, 0⟩, ⟨29, 29, .ro, 0⟩, ⟨2, 0, .ro, 0⟩]⟩,
  ⟨0x14, 0x0, 1, 1, [⟨31, 31, .rw, 0⟩, ⟨30, 30, .w1s, 0⟩, ⟨0, 0, .w1s, 0⟩]⟩,
  ⟨0x18, 0x0, 1, 1, [⟨4, 4, .w1c, 0⟩, ⟨3, 3, .w1c, 0⟩, ⟨2, 2, .w1c, 0⟩, ⟨1, 1, .w1c, 0⟩, ⟨0, 0, .w1c, 0⟩]⟩,
  ⟨0x1C, 0x0, 1, 1, [⟨31, 0, .rw, 0⟩]⟩,
  ⟨0x20, 0x0, 1, 1, [⟨5, 0, .rw, 1⟩]⟩,
  ⟨0x24, 0x0, 1, 1, [⟨0, 0, .w1c, 0⟩]⟩,
  ⟨0x28, 0x0, 1, 1, [⟨31, 0, .w1s, 0⟩]⟩,
  ⟨0x2C, 0x0, 1, 1, [⟨31, 16, .cmd, 0⟩, ⟨15, 12, .cmd, 0⟩, ⟨11, 8, .cmd, 0⟩, ⟨7, 0, .cmd, 0⟩]⟩,
  ⟨0x30, 0x0, 1, 1, [⟨9, 9, .ro, 0⟩, ⟨8, 8, .ro, 0⟩, ⟨5, 5, .w1s, 0⟩, ⟨4, 4, .w1s, 0⟩, ⟨1, 0, .rw, 0⟩]⟩,
  ⟨0x34, 0x0, 1, 1, [⟨3, 0, .rw, 0⟩]⟩,
  ⟨0x38, 0x0, 1, 1, [⟨31, 16, .ro, 0⟩, ⟨15, 0, .ro, 0⟩]⟩]


/-- Registers of a SEQ page. -/
def seqRegs : List RegDesc := [
  ⟨0x40, 0x0, 1, 1, [⟨11, 0, .rwl, 0⟩]⟩,
  ⟨0x44, 0x0, 1, 1, [⟨22, 22, .rw, 0⟩, ⟨21, 16, .rw, 0⟩, ⟨13, 8, .rw, 0⟩, ⟨1, 0, .rw, 0⟩]⟩,
  ⟨0x48, 0x0, 1, 1, [⟨11, 0, .rw, 0⟩]⟩,
  ⟨0x4C, 0x0, 1, 1, [⟨7, 0, .cmd, 0⟩]⟩,
  ⟨0x50, 0x0, 1, 4, [⟨127, 0, .rw, 0⟩]⟩,
  ⟨0x60, 0x0, 1, 3, [⟨95, 0, .rw, 0⟩]⟩,
  ⟨0x6C, 0x0, 1, 1, [⟨5, 0, .rw, 0⟩]⟩,
  ⟨0x70, 0x0, 1, 1, [⟨27, 16, .ro, 0⟩, ⟨12, 12, .ro, 0⟩, ⟨11, 0, .ro, 0⟩]⟩,
  ⟨0x74, 0x0, 1, 1, [⟨31, 0, .ro, 0⟩]⟩,
  ⟨0x78, 0x0, 1, 1, [⟨27, 24, .ro, 0⟩, ⟨11, 0, .ro, 0⟩]⟩,
  ⟨0x80, 0x0, 1, 4, [⟨127, 0, .ro, 0⟩]⟩,
  ⟨0x90, 0x0, 1, 4, [⟨127, 0, .ro, 0⟩]⟩,
  ⟨0xA0, 0x0, 1, 1, [⟨31, 0, .w1c, 0⟩]⟩,
  ⟨0xA4, 0x0, 1, 1, [⟨31, 31, .ro, 0⟩, ⟨27, 16, .ro, 0⟩, ⟨11, 0, .ro, 0⟩]⟩,
  ⟨0xA8, 0x0, 1, 1, [⟨31, 0, .w1c, 0⟩]⟩,
  ⟨0xAC, 0x0, 1, 1, [⟨31, 31, .ro, 0⟩, ⟨25, 0, .ro, 0⟩]⟩,
  ⟨0xB0, 0x0, 1, 1, [⟨31, 0, .w1c, 0⟩]⟩,
  ⟨0xB4, 0x0, 1, 1, [⟨31, 0, .w1c, 0⟩]⟩,
  ⟨0xB8, 0x0, 1, 1, [⟨31, 0, .w1c, 0⟩]⟩,
  ⟨0xBC, 0x0, 1, 1, [⟨31, 0, .ro, 0⟩]⟩,
  ⟨0xC0, 0x0, 1, 2, [⟨63, 0, .rw, 0⟩]⟩,
  ⟨0xC8, 0x0, 1, 1, [⟨31, 31, .rw, 0⟩, ⟨19, 16, .rw, 0⟩, ⟨11, 0, .rw, 0⟩]⟩,
  ⟨0xCC, 0x0, 1, 1, [⟨7, 0, .cmd, 0⟩]⟩,
  ⟨0xD0, 0x0, 1, 1, [⟨31, 16, .ro, 0⟩, ⟨4, 0, .ro, 0⟩]⟩,
  ⟨0x100, 0x8, 16, 1, [⟨31, 31, .ro, 0⟩, ⟨11, 0, .ro, 0⟩]⟩,
  ⟨0x104, 0x8, 16, 1, [⟨31, 0, .ro, 0⟩]⟩,
  ⟨0x0, 0x0, 1, 1, [⟨31, 16, .ro, 0⟩, ⟨15, 8, .ro, 0⟩, ⟨7, 0, .ro, 1⟩]⟩,
  ⟨0x4, 0x0, 1, 1, [⟨23, 16, .ro, 0⟩, ⟨15, 8, .ro, 0⟩, ⟨7, 0, .ro, 0⟩]⟩,
  ⟨0x8, 0x0, 1, 1, [⟨31, 0, .ro, 0⟩]⟩,
  ⟨0xC, 0x0, 1, 1, [⟨31, 16, .rw, 0⟩]⟩,
  ⟨0x10, 0x0, 1, 1, [⟨31, 31, .ro, 0⟩, ⟨30, 30, .ro, 0⟩, ⟨29, 29, .ro, 0⟩, ⟨5, 5, .ro, 0⟩, ⟨4, 4, .ro, 0⟩, ⟨3, 3, .ro, 0⟩, ⟨2, 0, .ro, 0⟩]⟩,
  ⟨0x14, 0x0, 1, 1, [⟨31, 31, .rw, 0⟩, ⟨30, 30, .w1s, 0⟩]⟩,
  ⟨0x18, 0x0, 1, 1, [⟨9, 9, .w1c, 0⟩, ⟨8, 8, .w1c, 0⟩, ⟨7, 7, .w1c, 0⟩, ⟨6, 6, .w1c, 0⟩, ⟨5, 5, .w1c, 0⟩, ⟨4, 4, .w1c, 0⟩, ⟨3, 3, .w1c, 0⟩, ⟨2, 2, .w1c, 0⟩, ⟨1, 1, .w1c, 0⟩, ⟨0, 0, .w1c, 0⟩]⟩,
  ⟨0x1C, 0x0, 1, 1, [⟨31, 0, .rw, 0⟩]⟩,
  ⟨0x20, 0x0, 1, 1, [⟨5, 0, .rw, 1⟩]⟩,
  ⟨0x24, 0x0, 1, 1, [⟨3, 3, .w1c, 0⟩, ⟨2, 2, .w1c, 0⟩, ⟨1, 1, .w1c, 0⟩, ⟨0, 0, .w1c, 0⟩]⟩,
  ⟨0x28, 0x0, 1, 1, [⟨31, 0, .w1s, 0⟩]⟩,
  ⟨0x2C, 0x0, 1, 1, [⟨31, 16, .cmd, 0⟩, ⟨15, 12, .cmd, 0⟩, ⟨11, 8, .cmd, 0⟩, ⟨7, 0, .cmd, 0⟩]⟩,
  ⟨0x30, 0x0, 1, 1, [⟨9, 9, .ro, 0⟩, ⟨8, 8, .ro, 0⟩, ⟨5, 5, .w1s, 0⟩, ⟨4, 4, .w1s, 0⟩, ⟨1, 0, .rw, 0⟩]⟩,
  ⟨0x34, 0x0, 1, 1, [⟨3, 0, .rw, 0⟩]⟩,
  ⟨0x38, 0x0, 1, 1, [⟨31, 16, .ro, 0⟩, ⟨15, 0, .ro, 0⟩]⟩]


/-- Registers of a COURSE page. -/
def courseRegs : List RegDesc := [
  ⟨0x40, 0x4, 128, 1, [⟨31, 0, .ro, 0⟩]⟩,
  ⟨0x240, 0x0, 1, 1, [⟨28, 16, .rw, 1⟩, ⟨11, 0, .rw, 0⟩]⟩,
  ⟨0x244, 0x0, 1, 1, [⟨7, 0, .cmd, 0⟩]⟩,
  ⟨0x248, 0x0, 1, 1, [⟨31, 31, .ro, 0⟩, ⟨27, 24, .ro, 0⟩, ⟨11, 0, .ro, 0⟩]⟩,
  ⟨0x24C, 0x0, 1, 1, [⟨31, 0, .w1c, 0⟩]⟩,
  ⟨0x250, 0x0, 1, 1, [⟨31, 31, .ro, 0⟩, ⟨11, 0, .ro, 0⟩]⟩,
  ⟨0x0, 0x0, 1, 1, [⟨31, 16, .ro, 0⟩, ⟨15, 8, .ro, 0⟩, ⟨7, 0, .ro, 1⟩]⟩,
  ⟨0x4, 0x0, 1, 1, [⟨23, 16, .ro, 0⟩, ⟨15, 8, .ro, 0⟩, ⟨7, 0, .ro, 0⟩]⟩,
  ⟨0x8, 0x0, 1, 1, [⟨31, 0, .ro, 0⟩]⟩,
  ⟨0xC, 0x0, 1, 1, [⟨31, 16, .rw, 0⟩]⟩,
  ⟨0x10, 0x0, 1, 1, [⟨31, 31, .ro, 0⟩, ⟨30, 30, .ro, 0⟩, ⟨29, 29, .ro, 0⟩]⟩,
  ⟨0x14, 0x0, 1, 1, [⟨31, 31, .rw, 1⟩, ⟨30, 30, .w1s, 0⟩]⟩,
  ⟨0x18, 0x0, 1, 1, [⟨0, 0, .w1c, 0⟩]⟩,
  ⟨0x1C, 0x0, 1, 1, [⟨31, 0, .rw, 0⟩]⟩,
  ⟨0x20, 0x0, 1, 1, [⟨5, 0, .rw, 1⟩]⟩,
  ⟨0x24, 0x0, 1, 1, [⟨0, 0, .w1c, 0⟩, ⟨1, 1, .w1c, 0⟩]⟩,
  ⟨0x28, 0x0, 1, 1, [⟨31, 0, .w1s, 0⟩]⟩,
  ⟨0x2C, 0x0, 1, 1, [⟨31, 16, .cmd, 0⟩, ⟨15, 12, .cmd, 0⟩, ⟨11, 8, .cmd, 0⟩, ⟨7, 0, .cmd, 0⟩]⟩,
  ⟨0x30, 0x0, 1, 1, [⟨9, 9, .ro, 0⟩, ⟨8, 8, .ro, 0⟩, ⟨5, 5, .w1s, 0⟩, ⟨4, 4, .w1s, 0⟩, ⟨1, 0, .rw, 0⟩]⟩,
  ⟨0x34, 0x0, 1, 1, [⟨3, 0, .rw, 0⟩]⟩,
  ⟨0x38, 0x0, 1, 1, [⟨31, 16, .ro, 0⟩, ⟨15, 0, .ro, 0⟩]⟩]


/-- Registers of a SCHED page. -/
def schedRegs : List RegDesc := [
  ⟨0x40, 0x20, 16, 1, [⟨31, 31, .rw, 0⟩, ⟨30, 30, .rw, 0⟩, ⟨19, 16, .rw, 0⟩, ⟨15, 14, .rw, 0⟩]⟩,
  ⟨0x44, 0x20, 16, 1, [⟨25, 16, .ro, 0⟩, ⟨15, 15, .ro, 0⟩, ⟨14, 14, .ro, 0⟩]⟩,
  ⟨0x48, 0x20, 16, 1, [⟨31, 0, .ro, 0⟩]⟩,
  ⟨0x4C, 0x20, 16, 1, [⟨31, 0, .w1c, 0⟩]⟩,
  ⟨0x50, 0x20, 16, 4, [⟨127, 0, .ro, 0⟩]⟩,
  ⟨0x240, 0x0, 1, 1, [⟨31, 0, .w1c, 0⟩]⟩,
  ⟨0x244, 0x0, 1, 1, [⟨31, 0, .w1c, 0⟩]⟩,
  ⟨0x248, 0x0, 1, 1, [⟨31, 0, .w1c, 0⟩]⟩,
  ⟨0x24C, 0x0, 1, 1, [⟨31, 0, .w1c, 0⟩]⟩,
  ⟨0x250, 0x0, 1, 4, [⟨127, 0, .ro, 0⟩]⟩,
  ⟨0x260, 0x0, 1, 4, [⟨127, 0, .ro, 0⟩]⟩,
  ⟨0x270, 0x0, 1, 1, [⟨31, 16, .ro, 0⟩, ⟨15, 12, .ro, 0⟩, ⟨11, 8, .ro, 0⟩, ⟨7, 0, .ro, 0⟩]⟩,
  ⟨0x274, 0x0, 1, 1, [⟨0, 0, .rw, 0⟩]⟩,
  ⟨0x280, 0x0, 1, 8, [⟨255, 0, .rw, 0⟩]⟩,
  ⟨0x2A0, 0x0, 1, 1, [⟨11, 8, .cmd, 0⟩, ⟨7, 0, .cmd, 0⟩]⟩,
  ⟨0x400, 0x40, 8, 1, [⟨31, 31, .rw, 0⟩, ⟨15, 0, .rw, 0⟩]⟩,
  ⟨0x404, 0x40, 8, 1, [⟨31, 0, .rw, 0⟩]⟩,
  ⟨0x410, 0x40, 8, 4, [⟨127, 0, .rw, 0⟩]⟩,
  ⟨0x420, 0x40, 8, 3, [⟨95, 0, .rw, 0⟩]⟩,
  ⟨0x430, 0x40, 8, 2, [⟨63, 0, .ro, 0⟩]⟩,
  ⟨0x438, 0x40, 8, 1, [⟨31, 0, .ro, 0⟩]⟩,
  ⟨0x0, 0x0, 1, 1, [⟨31, 16, .ro, 0⟩, ⟨15, 8, .ro, 0⟩, ⟨7, 0, .ro, 1⟩]⟩,
  ⟨0x4, 0x0, 1, 1, [⟨23, 16, .ro, 0⟩, ⟨15, 8, .ro, 0⟩, ⟨7, 0, .ro, 0⟩]⟩,
  ⟨0x8, 0x0, 1, 1, [⟨31, 0, .ro, 0⟩]⟩,
  ⟨0xC, 0x0, 1, 1, [⟨31, 16, .rw, 0⟩]⟩,
  ⟨0x10, 0x0, 1, 1, [⟨31, 31, .ro, 0⟩, ⟨30, 30, .ro, 0⟩, ⟨29, 29, .ro, 0⟩, ⟨23, 16, .ro, 0⟩, ⟨15, 0, .ro, 0⟩]⟩,
  ⟨0x14, 0x0, 1, 1, [⟨31, 31, .rw, 1⟩, ⟨30, 30, .w1s, 0⟩]⟩,
  ⟨0x18, 0x0, 1, 1, [⟨15, 8, .w1c, 0⟩, ⟨3, 3, .w1c, 0⟩, ⟨2, 2, .w1c, 0⟩, ⟨1, 1, .w1c, 0⟩, ⟨0, 0, .w1c, 0⟩]⟩,
  ⟨0x1C, 0x0, 1, 1, [⟨31, 0, .rw, 0⟩]⟩,
  ⟨0x20, 0x0, 1, 1, [⟨5, 0, .rw, 1⟩]⟩,
  ⟨0x24, 0x0, 1, 1, [⟨1, 1, .w1c, 0⟩, ⟨0, 0, .w1c, 0⟩]⟩,
  ⟨0x28, 0x0, 1, 1, [⟨31, 0, .w1s, 0⟩]⟩,
  ⟨0x2C, 0x0, 1, 1, [⟨31, 16, .cmd, 0⟩, ⟨15, 12, .cmd, 0⟩, ⟨11, 8, .cmd, 0⟩, ⟨7, 0, .cmd, 0⟩]⟩,
  ⟨0x30, 0x0, 1, 1, [⟨9, 9, .ro, 0⟩, ⟨8, 8, .ro, 0⟩, ⟨5, 5, .w1s, 0⟩, ⟨4, 4, .w1s, 0⟩, ⟨1, 0, .rw, 0⟩]⟩,
  ⟨0x34, 0x0, 1, 1, [⟨3, 0, .rw, 0⟩]⟩,
  ⟨0x38, 0x0, 1, 1, [⟨31, 16, .ro, 0⟩, ⟨15, 0, .ro, 0⟩]⟩]


/-- Registers of a TRIG page. -/
def trigRegs : List RegDesc := [
  ⟨0x40, 0x0, 1, 4, [⟨127, 0, .rw, 0⟩]⟩,
  ⟨0x50, 0x0, 1, 1, [⟨13, 8, .cmd, 0⟩, ⟨7, 0, .cmd, 0⟩]⟩,
  ⟨0x60, 0x0, 1, 1, [⟨5, 0, .rw, 0⟩]⟩,
  ⟨0x70, 0x0, 1, 4, [⟨127, 0, .ro, 0⟩]⟩,
  ⟨0x80, 0x0, 1, 1, [⟨31, 0, .ro, 4294967295⟩]⟩,
  ⟨0x90, 0x0, 1, 2, [⟨63, 0, .rw, 0⟩]⟩,
  ⟨0x100, 0x8, 64, 1, [⟨31, 31, .rw, 0⟩, ⟨17, 16, .rw, 3⟩, ⟨15, 8, .rw, 0⟩, ⟨3, 0, .rw, 0⟩]⟩,
  ⟨0x104, 0x8, 64, 1, [⟨31, 16, .rw, 1⟩, ⟨15, 0, .rw, 0⟩]⟩,
  ⟨0x300, 0x4, 64, 1, [⟨31, 0, .ro, 0⟩]⟩,
  ⟨0x400, 0x4, 64, 1, [⟨31, 0, .w1c, 0⟩]⟩,
  ⟨0x0, 0x0, 1, 1, [⟨31, 16, .ro, 0⟩, ⟨15, 8, .ro, 0⟩, ⟨7, 0, .ro, 1⟩]⟩,
  ⟨0x4, 0x0, 1, 1, [⟨23, 16, .ro, 0⟩, ⟨15, 8, .ro, 0⟩, ⟨7, 0, .ro, 0⟩]⟩,
  ⟨0x8, 0x0, 1, 1, [⟨31, 0, .ro, 0⟩]⟩,
  ⟨0xC, 0x0, 1, 1, [⟨31, 16, .rw, 0⟩]⟩,
  ⟨0x10, 0x0, 1, 1, [⟨31, 31, .ro, 0⟩, ⟨30, 30, .ro, 0⟩, ⟨29, 29, .ro, 0⟩]⟩,
  ⟨0x14, 0x0, 1, 1, [⟨31, 31, .rw, 1⟩, ⟨30, 30, .w1s, 0⟩]⟩,
  ⟨0x18, 0x0, 1, 1, [⟨0, 0, .w1c, 0⟩]⟩,
  ⟨0x1C, 0x0, 1, 1, [⟨31, 0, .rw, 0⟩]⟩,
  ⟨0x20, 0x0, 1, 1, [⟨5, 0, .rw, 1⟩]⟩,
  ⟨0x24, 0x0, 1, 1, [⟨0, 0, .w1c, 0⟩]⟩,
  ⟨0x28, 0x0, 1, 1, [⟨31, 0, .w1s, 0⟩]⟩,
  ⟨0x2C, 0x0, 1, 1, [⟨31, 16, .cmd, 0⟩, ⟨15, 12, .cmd, 0⟩, ⟨11, 8, .cmd, 0⟩, ⟨7, 0, .cmd, 0⟩]⟩,
  ⟨0x30, 0x0, 1, 1, [⟨9, 9, .ro, 0⟩, ⟨8, 8, .ro, 0⟩, ⟨5, 5, .w1s, 0⟩, ⟨4, 4, .w1s, 0⟩, ⟨1, 0, .rw, 0⟩]⟩,
  ⟨0x34, 0x0, 1, 1, [⟨3, 0, .rw, 0⟩]⟩,
  ⟨0x38, 0x0, 1, 1, [⟨31, 16, .ro, 0⟩, ⟨15, 0, .ro, 0⟩]⟩]


/-- Registers of a RDG page. -/
def rdgRegs : List RegDesc := [
  ⟨0x40, 0x0, 1, 1, [⟨17, 16, .rwl, 0⟩, ⟨8, 8, .rwl, 1⟩, ⟨0, 0, .rw, 0⟩]⟩,
  ⟨0x44, 0x0, 1, 1, [⟨31, 16, .ro, 0⟩, ⟨15, 8, .ro, 0⟩, ⟨0, 0, .ro, 0⟩]⟩,
  ⟨0x50, 0x0, 1, 3, [⟨95, 0, .shd, 0⟩]⟩,
  ⟨0x5C, 0x0, 1, 1, [⟨15, 0, .shd, 0⟩]⟩,
  ⟨0x60, 0x0, 1, 3, [⟨95, 0, .ro, 0⟩]⟩,
  ⟨0x70, 0x0, 1, 3, [⟨95, 0, .ro, 0⟩]⟩,
  ⟨0x7C, 0x0, 1, 1, [⟨31, 0, .ro, 4294967295⟩]⟩,
  ⟨0x80, 0x0, 1, 1, [⟨31, 0, .ro, 4294967295⟩]⟩,
  ⟨0x84, 0x0, 1, 1, [⟨31, 0, .ro, 0⟩]⟩,
  ⟨0x88, 0x0, 1, 1, [⟨31, 0, .ro, 0⟩]⟩,
  ⟨0x8C, 0x0, 1, 1, [⟨31, 0, .ro, 4294967295⟩]⟩,
  ⟨0x90, 0x0, 1, 1, [⟨31, 0, .ro, 0⟩]⟩,
  ⟨0x94, 0x0, 1, 1, [⟨31, 0, .w1c, 0⟩]⟩,
  ⟨0x98, 0x0, 1, 1, [⟨31, 0, .w1c, 0⟩]⟩,
  ⟨0x9C, 0x0, 1, 1, [⟨31, 0, .ro, 0⟩]⟩,
  ⟨0xA0, 0x0, 1, 1, [⟨31, 0, .w1c, 0⟩]⟩,
  ⟨0xA4, 0x0, 1, 1, [⟨31, 0, .w1c, 0⟩]⟩,
  ⟨0xA8, 0x0, 1, 1, [⟨31, 0, .w1c, 0⟩]⟩,
  ⟨0xB0, 0x0, 1, 4, [⟨127, 0, .ro, 0⟩]⟩,
  ⟨0x400, 0x0, 1, 1, [⟨31, 16, .rw, 0⟩, ⟨15, 8, .rw, 0⟩, ⟨2, 2, .rw, 0⟩, ⟨1, 1, .rw, 0⟩, ⟨0, 0, .rw, 0⟩]⟩,
  ⟨0x404, 0x0, 1, 1, [⟨31, 0, .rw, 16000⟩]⟩,
  ⟨0x410, 0x0, 1, 4, [⟨127, 0, .rw, 0⟩]⟩,
  ⟨0x420, 0x0, 1, 1, [⟨31, 16, .rw, 0⟩, ⟨9, 8, .rw, 2⟩, ⟨7, 0, .rw, 0⟩]⟩,
  ⟨0x424, 0x0, 1, 1, [⟨7, 0, .cmd, 0⟩]⟩,
  ⟨0x428, 0x0, 1, 1, [⟨31, 0, .ro, 0⟩]⟩,
  ⟨0x430, 0x0, 1, 1, [⟨31, 24, .ro, 0⟩, ⟨23, 16, .ro, 0⟩, ⟨1, 1, .ro, 0⟩, ⟨0, 0, .ro, 0⟩]⟩,
  ⟨0x438, 0x0, 1, 2, [⟨63, 0, .ro, 0⟩]⟩,
  ⟨0x440, 0x0, 1, 1, [⟨31, 16, .rw, 0⟩, ⟨0, 0, .rw, 0⟩]⟩,
  ⟨0x444, 0x0, 1, 1, [⟨27, 16, .rw, 0⟩, ⟨11, 0, .rw, 0⟩]⟩,
  ⟨0x450, 0x0, 1, 4, [⟨127, 0, .rw, 0⟩]⟩,
  ⟨0x460, 0x0, 1, 1, [⟨7, 0, .cmd, 0⟩]⟩,
  ⟨0x464, 0x0, 1, 1, [⟨31, 31, .ro, 0⟩, ⟨30, 30, .ro, 0⟩, ⟨15, 12, .ro, 0⟩, ⟨7, 0, .ro, 0⟩]⟩,
  ⟨0x470, 0x0, 1, 4, [⟨127, 0, .ro, 0⟩]⟩,
  ⟨0x0, 0x0, 1, 1, [⟨31, 16, .ro, 0⟩, ⟨15, 8, .ro, 0⟩, ⟨7, 0, .ro, 1⟩]⟩,
  ⟨0x4, 0x0, 1, 1, [⟨23, 16, .ro, 0⟩, ⟨15, 8, .ro, 0⟩, ⟨7, 0, .ro, 0⟩]⟩,
  ⟨0x8, 0x0, 1, 1, [⟨31, 0, .ro, 0⟩]⟩,
  ⟨0xC, 0x0, 1, 1, [⟨31, 16, .rw, 0⟩]⟩,
  ⟨0x10, 0x0, 1, 1, [⟨31, 31, .ro, 0⟩, ⟨30, 30, .ro, 0⟩, ⟨29, 29, .ro, 0⟩, ⟨7, 7, .ro, 0⟩, ⟨6, 6, .ro, 0⟩, ⟨5, 5, .ro, 0⟩, ⟨2, 0, .ro, 0⟩]⟩,
  ⟨0x14, 0x0, 1, 1, [⟨31, 31, .rw, 0⟩, ⟨30, 30, .w1s, 0⟩]⟩,
  ⟨0x18, 0x0, 1, 1, [⟨4, 4, .w1c, 0⟩, ⟨3, 3, .w1c, 0⟩, ⟨2, 2, .w1c, 0⟩, ⟨1, 1, .w1c, 0⟩, ⟨0, 0, .w1c, 0⟩]⟩,
  ⟨0x1C, 0x0, 1, 1, [⟨31, 0, .rw, 0⟩]⟩,
  ⟨0x20, 0x0, 1, 1, [⟨5, 0, .rw, 1⟩]⟩,
  ⟨0x24, 0x0, 1, 1, [⟨2, 2, .w1c, 0⟩, ⟨1, 1, .w1c, 0⟩, ⟨0, 0, .w1c, 0⟩]⟩,
  ⟨0x28, 0x0, 1, 1, [⟨31, 0, .w1s, 0⟩]⟩,
  ⟨0x2C, 0x0, 1, 1, [⟨31, 16, .cmd, 0⟩, ⟨15, 12, .cmd, 0⟩, ⟨11, 8, .cmd, 0⟩, ⟨7, 0, .cmd, 0⟩]⟩,
  ⟨0x30, 0x0, 1, 1, [⟨9, 9, .ro, 0⟩, ⟨8, 8, .ro, 0⟩, ⟨5, 5, .w1s, 0⟩, ⟨4, 4, .w1s, 0⟩, ⟨1, 0, .rw, 0⟩]⟩,
  ⟨0x34, 0x0, 1, 1, [⟨3, 0, .rw, 0⟩]⟩,
  ⟨0x38, 0x0, 1, 1, [⟨31, 16, .ro, 0⟩, ⟨15, 0, .ro, 0⟩]⟩]


/-- Registers of a ETH page. -/
def ethRegs : List RegDesc := [
  ⟨0x40, 0x0, 1, 1, [⟨8, 8, .rw, 0⟩, ⟨1, 0, .rwl, 0⟩]⟩,
  ⟨0x48, 0x0, 1, 2, [⟨47, 0, .rw, 0⟩]⟩,
  ⟨0x50, 0x0, 1, 1, [⟨31, 0, .ro, 0⟩]⟩,
  ⟨0x54, 0x0, 1, 1, [⟨31, 0, .ro, 0⟩]⟩,
  ⟨0x60, 0x0, 1, 3, [⟨95, 0, .shd, 0⟩]⟩,
  ⟨0x70, 0x0, 1, 3, [⟨95, 0, .shd, 0⟩]⟩,
  ⟨0x7C, 0x0, 1, 1, [⟨15, 0, .shd, 0⟩]⟩,
  ⟨0x80, 0x0, 1, 1, [⟨31, 0, .ro, 4294967295⟩]⟩,
  ⟨0x100, 0x0, 1, 2, [⟨63, 0, .rwl, 0⟩]⟩,
  ⟨0x108, 0x0, 1, 1, [⟨4, 0, .rwl, 10⟩]⟩,
  ⟨0x10C, 0x0, 1, 1, [⟨31, 31, .rw, 0⟩, ⟨30, 30, .ro, 0⟩]⟩,
  ⟨0x110, 0x0, 1, 1, [⟨31, 0, .rw, 0⟩]⟩,
  ⟨0x114, 0x0, 1, 1, [⟨31, 0, .ro, 0⟩]⟩,
  ⟨0x120, 0x0, 1, 2, [⟨63, 0, .rwl, 0⟩]⟩,
  ⟨0x128, 0x0, 1, 1, [⟨31, 16, .rwl, 2048⟩, ⟨4, 0, .rwl, 10⟩]⟩,
  ⟨0x12C, 0x0, 1, 1, [⟨31, 31, .rw, 0⟩, ⟨30, 30, .ro, 0⟩]⟩,
  ⟨0x130, 0x0, 1, 1, [⟨31, 0, .rw, 0⟩]⟩,
  ⟨0x134, 0x0, 1, 1, [⟨31, 0, .ro, 0⟩]⟩,
  ⟨0x140, 0x0, 1, 2, [⟨63, 0, .ro, 0⟩]⟩,
  ⟨0x148, 0x0, 1, 2, [⟨63, 0, .ro, 0⟩]⟩,
  ⟨0x150, 0x0, 1, 1, [⟨31, 0, .w1c, 0⟩]⟩,
  ⟨0x154, 0x0, 1, 1, [⟨31, 0, .w1c, 0⟩]⟩,
  ⟨0x158, 0x0, 1, 1, [⟨31, 0, .w1c, 0⟩]⟩,
  ⟨0x15C, 0x0, 1, 1, [⟨16, 0, .ro, 0⟩]⟩,
  ⟨0x160, 0x0, 1, 1, [⟨31, 0, .w1c, 0⟩]⟩,
  ⟨0x0, 0x0, 1, 1, [⟨31, 16, .ro, 0⟩, ⟨15, 8, .ro, 0⟩, ⟨7, 0, .ro, 1⟩]⟩,
  ⟨0x4, 0x0, 1, 1, [⟨23, 16, .ro, 0⟩, ⟨15, 8, .ro, 0⟩, ⟨7, 0, .ro, 0⟩]⟩,
  ⟨0x8, 0x0, 1, 1, [⟨31, 0, .ro, 0⟩]⟩,
  ⟨0xC, 0x0, 1, 1, [⟨31, 16, .rw, 0⟩]⟩,
  ⟨0x10, 0x0, 1, 1, [⟨31, 31, .ro, 0⟩, ⟨30, 30, .ro, 0⟩, ⟨29, 29, .ro, 0⟩, ⟨2, 2, .ro, 0⟩, ⟨1, 1, .ro, 0⟩, ⟨0, 0, .ro, 0⟩]⟩,
  ⟨0x14, 0x0, 1, 1, [⟨31, 31, .rw, 0⟩, ⟨30, 30, .w1s, 0⟩]⟩,
  ⟨0x18, 0x0, 1, 1, [⟨2, 2, .w1c, 0⟩, ⟨1, 1, .w1c, 0⟩, ⟨0, 0, .w1c, 0⟩]⟩,
  ⟨0x1C, 0x0, 1, 1, [⟨31, 0, .rw, 0⟩]⟩,
  ⟨0x20, 0x0, 1, 1, [⟨5, 0, .rw, 1⟩]⟩,
  ⟨0x24, 0x0, 1, 1, [⟨1, 1, .w1c, 0⟩, ⟨0, 0, .w1c, 0⟩]⟩,
  ⟨0x28, 0x0, 1, 1, [⟨31, 0, .w1s, 0⟩]⟩,
  ⟨0x2C, 0x0, 1, 1, [⟨31, 16, .cmd, 0⟩, ⟨15, 12, .cmd, 0⟩, ⟨11, 8, .cmd, 0⟩, ⟨7, 0, .cmd, 0⟩]⟩,
  ⟨0x30, 0x0, 1, 1, [⟨9, 9, .ro, 0⟩, ⟨8, 8, .ro, 0⟩, ⟨5, 5, .w1s, 0⟩, ⟨4, 4, .w1s, 0⟩, ⟨1, 0, .rw, 0⟩]⟩,
  ⟨0x34, 0x0, 1, 1, [⟨3, 0, .rw, 0⟩]⟩,
  ⟨0x38, 0x0, 1, 1, [⟨31, 16, .ro, 0⟩, ⟨15, 0, .ro, 0⟩]⟩]


/-- Registers of a SYNC page. -/
def syncRegs : List RegDesc := [
  ⟨0x40, 0x0, 1, 1, [⟨31, 31, .rw, 0⟩, ⟨1, 0, .rw, 1⟩]⟩,
  ⟨0x50, 0x0, 1, 3, [⟨95, 0, .shd, 0⟩]⟩,
  ⟨0x5C, 0x0, 1, 1, [⟨15, 0, .shd, 0⟩]⟩,
  ⟨0x60, 0x0, 1, 4, [⟨127, 0, .ro, 0⟩]⟩,
  ⟨0x70, 0x0, 1, 1, [⟨31, 0, .ro, 4294967295⟩]⟩,
  ⟨0x74, 0x0, 1, 1, [⟨31, 0, .ro, 0⟩]⟩,
  ⟨0x80, 0x0, 1, 1, [⟨31, 31, .rw, 0⟩, ⟨9, 8, .rw, 0⟩, ⟨1, 0, .rw, 0⟩]⟩,
  ⟨0x84, 0x0, 1, 1, [⟨31, 0, .rw, 100⟩]⟩,
  ⟨0x88, 0x0, 1, 1, [⟨31, 0, .ro, 0⟩]⟩,
  ⟨0x8C, 0x0, 1, 1, [⟨31, 0, .w1c, 0⟩]⟩,
  ⟨0x90, 0x0, 1, 1, [⟨31, 31, .rw, 0⟩, ⟨23, 0, .rw, 100000⟩]⟩,
  ⟨0x0, 0x0, 1, 1, [⟨31, 16, .ro, 0⟩, ⟨15, 8, .ro, 0⟩, ⟨7, 0, .ro, 1⟩]⟩,
  ⟨0x4, 0x0, 1, 1, [⟨23, 16, .ro, 0⟩, ⟨15, 8, .ro, 0⟩, ⟨7, 0, .ro, 0⟩]⟩,
  ⟨0x8, 0x0, 1, 1, [⟨31, 0, .ro, 0⟩]⟩,
  ⟨0xC, 0x0, 1, 1, [⟨31, 16, .rw, 0⟩]⟩,
  ⟨0x10, 0x0, 1, 1, [⟨31, 31, .ro, 0⟩, ⟨30, 30, .ro, 0⟩, ⟨29, 29, .ro, 0⟩, ⟨2, 2, .ro, 0⟩, ⟨1, 1, .ro, 0⟩, ⟨0, 0, .ro, 1⟩]⟩,
  ⟨0x14, 0x0, 1, 1, [⟨31, 31, .rw, 1⟩, ⟨30, 30, .w1s, 0⟩]⟩,
  ⟨0x18, 0x0, 1, 1, [⟨1, 1, .w1c, 0⟩, ⟨0, 0, .w1c, 0⟩]⟩,
  ⟨0x1C, 0x0, 1, 1, [⟨31, 0, .rw, 0⟩]⟩,
  ⟨0x20, 0x0, 1, 1, [⟨5, 0, .rw, 1⟩]⟩,
  ⟨0x24, 0x0, 1, 1, [⟨1, 1, .w1c, 0⟩, ⟨0, 0, .w1c, 0⟩]⟩,
  ⟨0x28, 0x0, 1, 1, [⟨31, 0, .w1s, 0⟩]⟩,
  ⟨0x2C, 0x0, 1, 1, [⟨31, 16, .cmd, 0⟩, ⟨15, 12, .cmd, 0⟩, ⟨11, 8, .cmd, 0⟩, ⟨7, 0, .cmd, 0⟩]⟩,
  ⟨0x30, 0x0, 1, 1, [⟨9, 9, .ro, 0⟩, ⟨8, 8, .ro, 0⟩, ⟨5, 5, .w1s, 0⟩, ⟨4, 4, .w1s, 0⟩, ⟨1, 0, .rw, 0⟩]⟩,
  ⟨0x34, 0x0, 1, 1, [⟨3, 0, .rw, 0⟩]⟩,
  ⟨0x38, 0x0, 1, 1, [⟨31, 16, .ro, 0⟩, ⟨15, 0, .ro, 0⟩]⟩]

/-- The registers of a block. -/
def kindRegs : Kind → List RegDesc
  | .dev => devRegs
  | .dir => dirRegs
  | .refsel => refselRegs
  | .servo => servoRegs
  | .apllm => apllmRegs
  | .aplla => apllaRegs
  | .tsc => tscRegs
  | .domain => domainRegs
  | .xo => xoRegs
  | .eave => eaveRegs
  | .gutter => gutterRegs
  | .flash => flashRegs
  | .hostq => hostqRegs
  | .own => ownRegs
  | .cal => calRegs
  | .quad => quadRegs
  | .chan => chanRegs
  | .aux => auxRegs
  | .tin => tinRegs
  | .tdc => tdcRegs
  | .phase => phaseRegs
  | .seq => seqRegs
  | .course => courseRegs
  | .sched => schedRegs
  | .trig => trigRegs
  | .rdg => rdgRegs
  | .eth => ethRegs
  | .sync => syncRegs

/-- The fault sources of R297: index, the block and ERR_STATUS bit it covers, default and minimum severity. -/
def faultSources : List (Nat × Kind × Nat × Nat × Nat) := [
  (0, .apllm, 0, 3, 3),
  (1, .xo, 1, 3, 3),
  (2, .xo, 0, 1, 0),
  (3, .servo, 1, 1, 0),
  (4, .servo, 0, 0, 0),
  (5, .refsel, 0, 1, 0),
  (6, .refsel, 1, 1, 0),
  (7, .tsc, 0, 2, 1),
  (8, .domain, 0, 1, 0),
  (9, .domain, 1, 0, 0),
  (10, .aplla, 0, 1, 0),
  (11, .aplla, 1, 1, 0),
  (12, .aux, 0, 1, 0),
  (13, .sync, 0, 1, 0),
  (14, .sync, 1, 1, 0),
  (16, .quad, 0, 0, 0),
  (17, .quad, 2, 2, 1),
  (18, .quad, 1, 1, 0),
  (19, .quad, 3, 2, 1),
  (20, .quad, 4, 0, 0),
  (21, .chan, 0, 2, 2),
  (22, .chan, 1, 2, 1),
  (23, .trig, 0, 2, 2),
  (32, .seq, 3, 0, 0),
  (33, .seq, 2, 1, 0),
  (34, .seq, 1, 1, 0),
  (35, .seq, 0, 1, 0),
  (36, .course, 1, 0, 0),
  (37, .course, 0, 1, 0),
  (38, .sched, 1, 0, 0),
  (39, .sched, 0, 1, 0),
  (40, .phase, 0, 1, 0),
  (48, .tin, 3, 0, 0),
  (49, .tin, 2, 0, 0),
  (50, .tin, 1, 1, 0),
  (51, .tin, 0, 2, 1),
  (52, .tdc, 1, 0, 0),
  (53, .tdc, 0, 1, 0),
  (64, .rdg, 0, 1, 0),
  (65, .rdg, 1, 1, 0),
  (66, .rdg, 2, 2, 1),
  (67, .eth, 0, 1, 0),
  (68, .eth, 1, 1, 0),
  (80, .hostq, 0, 0, 0),
  (81, .hostq, 1, 0, 0),
  (82, .hostq, 2, 1, 0),
  (83, .own, 0, 1, 1),
  (84, .flash, 0, 1, 0),
  (85, .flash, 1, 1, 0),
  (86, .flash, 2, 1, 0),
  (87, .dev, 9, 1, 1),
  (88, .eave, 0, 0, 0),
  (89, .eave, 1, 0, 0),
  (90, .eave, 2, 0, 0),
  (91, .eave, 3, 1, 0),
  (96, .dev, 0, 3, 3),
  (97, .dev, 1, 3, 3),
  (98, .dev, 2, 3, 3),
  (99, .dev, 3, 2, 2),
  (100, .dev, 4, 2, 2),
  (101, .dev, 5, 2, 2),
  (102, .dev, 6, 3, 3),
  (103, .dev, 7, 3, 3),
  (104, .dev, 8, 2, 1),
  (112, .gutter, 0, 0, 0),
  (113, .gutter, 1, 2, 2)]

/-- The fault source that covers an ERR_STATUS bit of a block (R297). -/
def sourceOf (k : Kind) (bit : Nat) : Option Nat :=
  (faultSources.find? (fun e => e.2.1 = k && e.2.2.1 = bit)).map (·.1)

/-- Default and minimum severity of a listed source (R297). -/
def sourceSev (j : Nat) : Option (Nat × Nat) :=
  (faultSources.find? (fun e => e.1 = j)).map (fun e => (e.2.2.2.1, e.2.2.2.2))

/-- The minimum reaction mask of a severity (R298). -/
def minReact (sev : Nat) : Nat := if sev = 0 then 0x01 else if sev = 1 then 0x03 else if sev = 2 then 0x0B else 0x1B

/-- Whether offset `o` lies in a register of the description: the index within the array and the word. -/
def RegDesc.hit (d : RegDesc) (o : Nat) : Option (Nat × Nat) :=
  if o < d.base then none
  else if d.stride = 0 then
    if (o - d.base) / 4 < d.words then some (0, (o - d.base) / 4) else none
  else if (o - d.base) / d.stride < d.count ∧ (o - d.base) % d.stride / 4 < d.words then
    some ((o - d.base) / d.stride, (o - d.base) % d.stride / 4)
  else none

/-- Look an offset up in a list of registers. -/
def findReg : List RegDesc → Nat → Option (RegDesc × Nat × Nat)
  | [], _ => none
  | d :: ds, o => match d.hit o with
    | some (i, w) => some (d, i, w)
    | none => findReg ds o

/-- The reset value of the fields of a register, as one number. -/
def RegDesc.resetNat (d : RegDesc) : Nat := d.fields.foldl (fun n f => putBits n f.hi f.lo f.reset) 0

/-- Reset words that the tables give by index rather than by one value: header identity (R36, R37), window 0 (R35),
ring vectors (R49) and the Gutter's source configuration (R297, R298). -/
def resetByIndex (k : Kind) (inst o : Nat) : Option Nat :=
  if o = 0x000 then some (kindType k * 0x10000 + inst * 0x100 + 1)
  else if o = 0x008 then some (kindCaps inst k)
  else match k with
  | .own => if o = 0x040 then some 0x00010001 else none
  | .dir =>
    if 0x040 ≤ o ∧ o < 0x440 ∧ o % 4 = 0 then
      match pageBlock ((o - 0x040) / 4) with
      | some (b, j) => some (kindType b * 0x10000 + j * 0x100 + 1)
      | none => some 0
    else none
  | .hostq =>
    if 0x040 ≤ o ∧ o < 0x440 ∧ (o - 0x040) % 0x20 = 0x10 then some ((32 + (o - 0x040) / 0x20 % 32) * 0x400 + 6) else none
  | .gutter =>
    if 0x200 ≤ o ∧ o < 0x400 ∧ o % 4 = 0 then
      match sourceSev ((o - 0x200) / 4) with
      | some (d, m) => some (m * 0x1000000 + d * 0x10000 + minReact d)
      | none => some 0
    else none
  | _ => none

/-- What a register word reads as when nothing has changed it since reset (key: page times 4096 plus offset). -/
def regReset (key : Nat) : Word :=
  match pageBlock (key / 4096) with
  | none => 0
  | some (k, inst) =>
    match resetByIndex k inst (key % 4096) with
    | some n => BitVec.ofNat 32 n
    | none =>
      match findReg (kindRegs k) (key % 4096) with
      | none => 0
      | some (d, _, w) => BitVec.ofNat 32 (d.resetNat / 2 ^ (32 * w))

end Sys2Proof.Machine
end

