-- ==== Sys2Proof/Machine/Sparse.lean ====
section
/-! DEFINITION. Sparse memories in one canonical form: keys strictly rising and no entry equal to what its key reads
as when it is not listed, so that equal memories are equal lists. -/

namespace Sys2Proof.Machine

/-- The value at key `k`: the first entry of that key, or the default `d k`. -/
def sparseGet {α : Type} (d : Nat → α) : List (Nat × α) → Nat → α
  | [], k => d k
  | e :: m, k => if e.1 = k then e.2 else sparseGet d m k

/-- Insert an entry before the first larger key. -/
def sparseInsert {α : Type} (k : Nat) (v : α) : List (Nat × α) → List (Nat × α)
  | [] => [(k, v)]
  | e :: m => if k < e.1 then (k, v) :: e :: m else e :: sparseInsert k v m

/-- Write `v` at key `k`: the old entry goes, and a new one stands only where it differs from the default. -/
def sparseSet {α : Type} [DecidableEq α] (d : Nat → α) (m : List (Nat × α)) (k : Nat) (v : α) : List (Nat × α) :=
  if v = d k then m.filter (fun e => e.1 ≠ k) else sparseInsert k v (m.filter (fun e => e.1 ≠ k))

/-- The canonical form: keys strictly rising, no entry equal to the default of its key. -/
def sparseWf {α : Type} [DecidableEq α] (d : Nat → α) (m : List (Nat × α)) : Bool :=
  decide (m.Pairwise (fun a b => a.1 < b.1)) && m.all (fun e => !decide (e.2 = d e.1))

end Sys2Proof.Machine
end

