-- ==== Sys2Proof/Machine/State.lean ====
section
/-! DEFINITION. The state of the block as plain data, and the state right after power-on. Every register of the page
tables is a word of `regs`; the rest is the state of the engines, queues, links and memories the chapters describe.
Times are counted in slots (5 ns, R5) from V; instants are in SU since the epoch, and fine instants and targets, named
with a trailing 32, in 2^-32 SU (R8). -/

namespace Sys2Proof.Machine

/-- Why the machine stops with a fault. -/
inductive Fault where
  /-- Raised only by the clock tick when TCLK_COUNT would pass 2^64, which R7 says it never does in service. Safe: the
  machine stops where the spec gives no behaviour. -/
  | tclkWrap
deriving DecidableEq, Repr

/-- Why the machine has no answer to a command. -/
inductive Refusal where
  /-- Raised by a row of the table that has no meaning yet. Safe. -/
  | notModelled (mnemonic : String)
deriving DecidableEq, Repr

/-- What the block shows the outside world: writes to host memory, messages, edges at pins, cells and frames. -/
inductive Out where
  /-- An element of ring `r` written to host memory: its address and its bytes, the least significant first (R4, R51). -/
  | ringElem (r addr : Nat) (bytes : List Nat)
  /-- The index writeback of ring `r`: the address of RING_WB, and DEV_IDX with the writeback counter as 8 bytes, the least significant
  first (R4, R51). -/
  | ringWb (r addr : Nat) (bytes : List Nat)
  /-- The message of an MSI-X vector (R55). -/
  | msix (vector : Nat)
  /-- The word a read returned to its path (R17, R38). -/
  | readData (path : Path) (page off : Nat) (v : Nat)
  /-- A read or write that completed as Unsupported Request (R30). -/
  | unsupported
  /-- A PCIe configuration request completed, with retry status or normally (R316). -/
  | config (tag : Nat) (retry : Bool)
  /-- The vendor, device and revision ID that a configuration request reads (R29). -/
  | identity (tag vendor device revision : Nat)
  /-- Words shifted out on HSPI_MISO (R32) or on EAVE_SDA (R292). -/
  | serial (words : List Nat)
  /-- A transition of channel `c` at raw position `pos` SU on the grid of TCLK counts (R22), with the engine that
  launched it and its delay-line code (R66). -/
  | edge (c engine : Nat) (pos : Int) (high : Bool) (raw : Int)
  /-- The driver of channel `c` put at a level or off without placement (R86, R98). -/
  | drive (c : Nat) (level : Option Bool)
  /-- A pulse of SYNC_OUT (false) or PPS_OUT (true) beginning at an instant, with its bound (R131, R240). -/
  | pulse (pps : Bool) (t : Nat) (teb : Nat)
  /-- An aux output starts or stops (R228), and the level its pin then takes: high for a high phase, low where it is driven low, or the
  inverse under POLARITY (R236). -/
  | aux (n : Nat) (running level : Bool)
  /-- A Ridge cell sent by port `p` after the delimiter block of LINK_SEQ `seq`, and the 594 bits of the cell slot as they stand on the
  lane, the first the most significant (R254, R255). -/
  | cell (p seq bits line : Nat)
  /-- An Ethernet frame sent by port `p` (R270). -/
  | frame (p : Nat) (bytes : List Nat)
  /-- Bytes written to host memory at an address (R270). -/
  | hostMem (addr : Nat) (bytes : List Nat)
  /-- The FAULT_A and FAULT_B pins change (R306). -/
  | faultPins (a b : Bool)
  /-- PWR_EN of the Eave changes (R288). -/
  | pwrEn (high : Bool)
  /-- EAVE_ALERT of the Eave changes (R290). -/
  | alert (asserted : Bool)
  /-- Every pin outside the Eave is released to high impedance (R311). -/
  | pinsReleased
  /-- What the JTAG port shifts out (R364). -/
  | jtag (word : Nat)
  /-- Boundary scan of the signal balls, with or without driving them (R364). -/
  | scan (driven : Bool)
deriving DecidableEq, Repr

/-! ### Time (chapter 1) -/

/-- A step accepted and waiting for its slot boundary (R11, R218): slot of acceptance, size in SU, and the reference that it
adopts, none for an explicit step. -/
structure StepReq where
  slot : Nat
  d : Int
  adopts : Option Nat
deriving DecidableEq, Repr

/-- A mapping of R8 that was in force until the boundary at a TCLK count: its anchor pair, y and the sum of the steps by then (R166). -/
structure Mapping where
  until_ : Nat
  anchorN : Nat
  anchorT32 : Int
  y : Int
  stepSum : Int
  /-- Steps of the timescale before it, their number (R195). -/
  gen : Nat
deriving DecidableEq, Repr

/-- The clock and the mapping of R8: SCLK edges since V, the TCLK count (running after the first lock of APLL_M), the
anchor pair with t_a in 2^-32 SU, y in force in units of 2^-60, and what waits for a slot boundary. -/
structure ClockSt where
  slot : Nat := 0
  running : Bool := false
  tclk : Nat := 0
  anchorN : Nat := 0
  anchorT32 : Int := 0
  y : Int := 0
  /-- A new y (R10) and a step (R11) that wait for the next slot boundary, with the slot of their acceptance. -/
  yNext : Option (Nat × Int) := none
  stepNext : Option StepReq := none
  seeded : Bool := false
  lastStep : Option Nat := none
  /-- Sum of the steps applied so far, in 2^-32 SU. -/
  stepSum : Int := 0
  /-- Number of the steps applied so far. -/
  gen : Nat := 0
  /-- The fine instant of the SCLK edge before this one, under the mapping then in force (R25, R27), which a step moves (R230). -/
  prev32 : Int := 0
  /-- The mappings replaced in the last 20 us, oldest first: a conversion uses the one of its raw position's slot (R166). -/
  past : List Mapping := []
deriving DecidableEq, Repr

/-! ### Host paths, commits, ownership, leases and rings (chapters 1 and 2) -/

/-- One ring of HOSTQ beside its registers: the records held (newest last), the records pending for its vector and the
slot of the first of them, and the writeback counter. -/
structure RingSt where
  held : List (List Nat) := []
  pend : Nat := 0
  pendSince : Nat := 0
  wbCount : Nat := 0
deriving DecidableEq, Repr

/-- The lease of a window: the slot of its last renewal (R46). -/
structure LeaseSt where
  renewed : Nat := 0
deriving DecidableEq, Repr

/-- A word accepted in IMMEDIATE mode and not yet effective (R24, R372): slot of acceptance, register key and word; whether a GO made it
so, which ABORT still discards; and whether it is the last word of its commit. -/
structure Immed where
  slot : Nat
  key : Nat
  word : Word
  go : Bool
  last : Bool
deriving DecidableEq, Repr

/-- The host interface beside its registers. -/
structure HostSt where
  /-- SHD words written and not yet committed, by register key (R24). -/
  shadow : List (Nat × Word) := []
  /-- IMMEDIATE writes, and shadows that a GO in IMMEDIATE mode commits, accepted and not yet effective, in the order of their
  acceptance (R372). -/
  immed : List Immed := []
  /-- Commit contexts (page, lane) with an accepted NEXT_SLOT GO, and the slot of the GO. -/
  goNext : List (Nat × Nat × Nat) := []
  /-- Commit contexts (page, lane) pending on a group (R26). -/
  goGroup : List (Nat × Nat × Nat) := []
  /-- LAST_CMD as each window reads it: (page, window), word (R40). -/
  winLast : List ((Nat × Nat) × Word) := []
  /-- The last word written to each CMD register through each window: (register key, window), word (R38). -/
  winCmd : List ((Nat × Nat) × Word) := []
  /-- Registers held separately for each window (CLAIM_ARG, VCT_SEL, LAST_SEL, CDT_SEL, RESULT_SEL, SUBMIT_BUF). -/
  winReg : List ((Path × Nat) × Word) := []
  /-- Read latches of R17: path and register key of the lowest word, with the words latched. -/
  latches : List ((Path × Nat) × List Word) := []
  /-- Staged lower words of R17: path and register key of the word. -/
  staged : List ((Path × Nat) × Word) := []
  /-- Owners of the resources that have no page: (code, index), agent (R42). -/
  owners : List ((Nat × Nat) × Nat) := []
  /-- Course-table ranges owned: first, count, agent (R42). -/
  ranges : List (Nat × Nat × Nat) := []
  leases : List LeaseSt := List.replicate 16 {}
  /-- Agents whose orphan action SAFE holds until their lease is renewed (R47). -/
  orphaned : List Nat := []
  rings : List RingSt := List.replicate 32 {}
  /-- PCIe endpoint: PERST_N asserted, in D3hot, link training begun (R31, R316). -/
  perst : Bool := false
  d3hot : Bool := false
  linkUp : Bool := false
  /-- The slot from which the 20 ms before link training are counted at the earliest: V, or the last assertion of PERST_N (R316, log 104). -/
  perstReleased : Nat := 0
  /-- MSI-X vectors that are masked, and those of them whose message waits in the pending-bit array (R29). -/
  vecMasked : List Nat := []
  vecPending : List Nat := []
  /-- The mirror halves at the freeze edge, while a snapshot is held, and the slot of the freeze (R56). -/
  frozen : Option (List (Nat × Word)) := none
  frozenSlot : Nat := 0
  /-- A FREEZE accepted and waiting for its SCLK edge: holder and slot of acceptance. -/
  freezeNext : Option (Nat × Nat) := none
deriving DecidableEq, Repr

/-! ### Edge engines and channels (chapters 3 and 4) -/

/-- A table set of an engine: vernier entries, phase trims, the slot and the die temperature of its sweep (R70). -/
structure TableSet where
  vct : List Nat := []
  trim : List Int := []
  sweptAt : Nat := 0
  temp : Int := 0
deriving DecidableEq, Repr

/-- One engine: its front set, and a back set accepted and waiting for the exchange at a slot boundary (R71). -/
structure EngineSt where
  front : Option TableSet := none
  back : Option TableSet := none
  /-- Consecutive visits with a clamped step, rising and falling (R72). -/
  clampRise : Nat := 0
  clampFall : Nat := 0
  /-- Die temperature at the last update of ENGINE_TERM, rising and falling, in units of 0.125 degrees: CALDATA gives the
  terms for 25 degrees (R67, R73). -/
  termTemp : Int × Int := (200, 200)
  /-- Whether the engine must be swept anew before it may be SPARE_READY: after a swap took it off a lane, or failed to
  verify it (R75, R76). -/
  resweep : Bool := false
deriving DecidableEq, Repr

/-- A swap in progress: lane, old and new engine, reason (1 drift, 2 failed, 3 host), slots of A and B, whether R76 verified
the spare before B, and the slot of the switch point. -/
structure SwapSt where
  lane : Nat
  old : Nat
  new : Nat
  reason : Nat
  a : Nat
  b : Nat
  verified : Bool
  switched : Option Nat
deriving DecidableEq, Repr

/-- A quad beside its registers. -/
structure QuadSt where
  engines : List EngineSt := List.replicate 5 {}
  swap : Option SwapSt := none
  /-- Causes that wait for a ready spare: lane and reason (R77, R78). -/
  deferred : List (Nat × Nat) := []
  /-- A swap that waits for its boundary A: lane, reason and the slot of its cause (R74). -/
  armNext : Option (Nat × Nat × Nat) := none
  /-- Slot at which the spare last became SPARE_READY (R77). -/
  readyAt : Nat := 0
  /-- M of R81 for each lane, in ps, while degraded, and which quantity it is: 0 slope, 1 residual, 2 clamped mean. -/
  degradeM : List (Nat × Nat) := List.replicate 4 (0, 0)
  /-- Lanes that wait for a spare after a failure (R77). -/
  failedLanes : List Nat := []
  /-- Die temperature at the last update of LANE_TERM of each lane, rising and falling (R73). -/
  laneTemp : List (Int × Int) := List.replicate 4 (200, 200)
  /-- The calibration TDC has failed its self-check, and the host has not cleared TDC_FAULT since (R73). -/
  tdcFailed : Bool := false
  /-- Slot at which the present visit began, and the edges launched since by engines 0 to 4 and emitted by lanes 0 to 3 (R68). -/
  visitAt : Nat := 0
  launched : List Nat := List.replicate 9 0
  /-- Engines being swept, the first of them now, the others waiting for the TDC, each marked if it is a retest (R70, R78); the slot at
  which the first began, and the 2 ms slices it has had. -/
  sweeps : List (Nat × Bool) := []
  sweepAt : Nat := 0
  slices : Nat := 0
  /-- Slot at which a lane that left CAL mode returns to its own engine and the spare is free again (R96). -/
  calUntil : Option Nat := none
deriving DecidableEq, Repr

/-- What an edge does: set or toggle the logical level, turn the driver off, or turn it on at the level it has. -/
inductive EdgeKind where
  | set (high : Bool)
  | toggle
  | hiz
  | on
deriving DecidableEq, Repr

/-- How an edge's bound is composed (R240): from the timescale at its instant, from an event (its bound and instant), or
from the edge a mirror copies (that edge's bound less its lane's term, and the offset). -/
inductive EdgeBasis where
  | own
  | event (b : Nat) (at_ : Int)
  | mirror (b : Nat) (offset : Nat)
deriving DecidableEq, Repr

/-- What produced an edge. -/
inductive EdgeOrigin where
  | rest
  | response (id : Nat)
  | clock
  | seq
  | sched
  /-- Copied from the source of a mirror, or formed by the accumulator of a mirror whose source is in CLOCK mode (R95). -/
  | mirror
  | mirClk
  | cal
deriving DecidableEq, Repr

/-- Part of a pulse, or a single edge (R87). -/
inductive EdgeRole where
  | single
  | lead (pulse : Nat) (width32 : Int)
  | trail (pulse : Nat)
deriving DecidableEq, Repr

/-- An edge whose target is known: reference-plane target in 2^-32 SU. A trailing edge whose codes were computed together with its
leading edge waits with them: the engine and the placed raw position (R87). -/
structure Edge where
  t32 : Int
  kind : EdgeKind
  role : EdgeRole
  origin : EdgeOrigin
  basis : EdgeBasis
  codes : Option (Nat × Int)
deriving DecidableEq, Repr

/-- An edge whose codes are issued to its engine (R22, R66): placed raw position in SU from TCLK count zero, the delay-line code, the
level it makes, its bound, its reference-plane target as programmed, and during a swap the codes that went to the spare as
well: engine, position and delay-line code (R74). -/
structure Issued where
  edge : Edge
  engine : Nat
  pos : Int
  raw : Int
  high : Option Bool
  teb : Nat
  target : Int
  alt : Option (Nat × Int × Int)
deriving DecidableEq, Repr

/-- The settings a trigger event is answered with (R86). -/
structure ChanSettings where
  mode : Nat
  trigLine : Nat
  retrig : Nat
  delay : Int
  width : Int
  period : Int
  count : Nat
deriving DecidableEq, Repr

/-- A pending response (R91): its event, its settings, the next pulse to place and the edges of it not yet emitted. -/
structure Resp where
  id : Nat
  at32 : Int
  teb : Nat
  set : ChanSettings
  next : Nat
  live : Nat
deriving DecidableEq, Repr

/-- Why a channel is in channel safe state (R98): no engine, orphan action, forced release, a CHAN_SAFE reaction of a
source raised by a page, or device safe state. -/
inductive SafeCause where
  | noEngine
  | orphan (agent : Nat)
  | forced
  | chanSafe (source page : Nat)
  | device
deriving DecidableEq, Repr

/-- A fetched record waiting in a lane's buffer (R112): fine target, what it does to the level, and the sequencer. -/
structure SeqRec where
  t32 : Int
  kind : EdgeKind
  q : Nat
  basis : EdgeBasis
deriving DecidableEq, Repr

/-- A channel beside its registers. -/
structure ChanSt where
  level : Bool := false
  driven : Bool := false
  /-- The level after every edge issued so far, and whether the driver is on then. -/
  nextLevel : Bool := false
  nextDriven : Bool := false
  wait : List Edge := []
  issued : List Issued := []
  responses : List Resp := []
  /-- Earlier settings: the fine instant of each commit and the settings in force before it. -/
  history : List (Int × ChanSettings) := []
  ids : Nat := 0
  dither : Int := 0
  /-- Slot at which ENTRY_PENDING ends, and the fine instant C + 1 024 ns of the last entry. -/
  entrySlot : Nat := 0
  entry32 : Int := 0
  /-- Placed raw position of the last emitted edge, and the edges emitted in its slot (R61). -/
  lastPos : Option Int := none
  slotEdges : Nat := 0
  /-- Fine target of the last emitted edge (R91). -/
  lastT32 : Option Int := none
  /-- Raw positions at which edges launched in this slot or just before it reach the output multiplexer (R75). -/
  muxed : List Int := []
  /-- CLOCK and CAL accumulators: next leading edge, period and high time in 2^-32 SU, and a change waiting (R94). -/
  clk32 : Option Int := none
  clkP32 : Int := 0
  clkH32 : Int := 0
  clkNext : Option (Int × Int × Int) := none
  /-- First leading edge of the present grid. -/
  clkFrom32 : Int := 0
  safe : List SafeCause := []
  /-- The lane's buffer of fetched sequencer records (R112). -/
  seqBuf : List SeqRec := []
deriving DecidableEq, Repr

/-- A trigger line beside its registers (R100): the instant of the last event that passed the hold-off, the divider
count, the slot of the last delivery, and the last event delivered. -/
structure LineSt where
  lastPass : Option Nat := none
  divCount : Nat := 0
  lastSlot : Option Nat := none
  lastAt : Nat := 0
  lastTeb : Nat := 0xFFFFFFFF
  /-- The instants of delivered events are counted by TL_COUNT; a HOST event waits here for its delivery. -/
  fireAt : List Nat := []
deriving DecidableEq, Repr


/-! ### Sequencers (chapter 5) -/

/-- The fields of a Course entry (the table of R113) as they stood when it was chosen (R114). -/
structure Course where
  id : Nat
  duration : Nat
  base : Nat
  len : Nat
  last : Bool
  underrun : Nat
  jumpCut : Bool
  consume : Bool
  jumpCond : Nat
  next : Nat
  repeats : Nat
  jumpCount : Nat
  jumpTarget : Nat
  markTl : Bool
  markSync : Bool
  markAux : Nat
deriving DecidableEq, Repr

/-- What made an occurrence follow the one before it (R115). `again` with its flag set repeats under REPEAT_CURRENT and
leaves the counters (R125). -/
inductive SeqVia where
  | start
  | again (underrun : Bool)
  | next
  | request (deferred : Bool)
  | count
  | cut (deferred : Bool)
deriving DecidableEq, Repr

/-- Where the fetch of an occurrence stands in one bank: the next record (8 per granule), whether END was reached, and
the offset of the last record of opcode 0 to 3 of each lane (R110). -/
structure SeqBank where
  pos : Nat := 0
  ended : Bool := false
  lanes : List Nat := [0, 0, 0, 0]
deriving DecidableEq, Repr

/-- An occurrence of a course: its start instant in SU, what led to it, the instant that truncates it (R119), and the
fetch in each of the 12 banks. -/
structure SeqOcc where
  course : Course
  start : Int
  via : SeqVia
  trunc : Option Int := none
  banks : List SeqBank := List.replicate 12 {}
deriving DecidableEq, Repr

/-- A refill of the queue (R123); `tainted` once an earlier one did not complete. -/
structure Refill where
  course : Nat
  base : Nat
  len : Nat
  quad : Nat
  addr : Nat
  setReady : Bool
  tainted : Bool := false
deriving DecidableEq, Repr

/-- How an ARMED sequencer will start: at S0, on a SYNC_IN event, or on an event of a line (R127). -/
inductive SeqArm where
  | at_ (s0 : Int)
  | onSync
  | onTrig (line : Nat)
deriving DecidableEq, Repr

/-- A sequencer beside its registers. -/
structure SeqSt where
  arm : Option SeqArm := none
  /-- The occurrence playing, or fetched and about to start after START. -/
  cur : Option SeqOcc := none
  started : Bool := false
  /-- The fetch of the first occurrence, or of the one after a park, has begun. -/
  fetched : Bool := false
  /-- What is chosen to follow, in playing order; no decision is left to make for `cur` once `decided`. -/
  chain : List SeqOcc := []
  decided : Bool := false
  /-- Stop instant in SU and REASON of a stop at the end of an occurrence (R128). -/
  stop : Option (Int × Nat) := none
  /-- Stop instant of STOP_NOW in SU (R128). -/
  halt : Option Int := none
  /-- Slot at which STOP_AT_END was accepted, and an orphan action SAFE (R128). -/
  stopAtEnd : Option Nat := none
  safeStop : Option Nat := none
  /-- The request instant of the pending request, in 2^-32 SU (R117). -/
  request : Option Int := none
  /-- While PARKED or about to park: the slot at which the successor starts, once its READY is set (R125). -/
  park : Bool := false
  resumeSlot : Option Nat := none
  /-- Bound and instant of the start event (R127, R240). -/
  basis : EdgeBasis := .own
  /-- Targets before this are late: acceptance of AT_INSTANT + 1 024 ns (R127). -/
  lateBefore : Int := 0
  /-- Slot of the last granule each bank delivered, plus one (R108, R112). -/
  granule : List Nat := List.replicate 12 0
  /-- MARK records on their way to their target: target in SU, quad, lane, course (R110). -/
  marks : List (Int × Nat × Nat × Nat) := []
  refills : List Refill := []
deriving DecidableEq, Repr

/-- The SYNC block beside its registers: pulses due, the end of the last pulse of each output, and the whole second
last seen (R131). -/
structure SyncSt where
  outStart : Int := 0
  outEnd : Int := 0
  ppsStart : Int := 0
  ppsEnd : Int := 0
  second : Nat := 0
  marks : List Int := []
  /-- Of SYNC_IN: the slot since which it is UNRESOLVED and its signal has not changed side, its level once known, and the last captured
  crossing (R131, R161, R163). -/
  inSince : Nat := 0
  inLevel : Option Bool := none
  inLast : Option Int := none
deriving DecidableEq, Repr

/-- Pattern memory, the Course table and their ECC state (R108, R113). -/
structure EccSt where
  granules : List (Nat × Nat) := []
  courses : List Nat := []
  /-- The slot in which READY bits were last set, and the courses whose bit was set there: a decision in that slot does not see them
  (R115, R132). -/
  readySlot : Nat := 0
  readyNew : List Nat := []
deriving DecidableEq, Repr

/-- Markers on their way to the aux outputs: output, sequencer, instant in SU (R129). -/
structure AuxMark where
  n : Nat
  q : Nat
  t : Int
deriving DecidableEq, Repr

/-! ### Scheduler, ticks and trackers (chapter 6) -/

/-- An action in a queue (R138): its fields, where it came from, its instant once known, and what NEXT did to it. -/
structure Action where
  queue : Nat
  when_ : Nat
  param : Nat
  tebLimit : Nat
  tag : Nat
  regOff : Nat
  target : Nat
  boundPolicy : Nat
  latePolicy : Nat
  baseIndex : Nat
  base : Nat
  op : Nat
  /-- Index of the element in its ring, 0xFFFFFFFF for the submit window. -/
  acceptIdx : Nat
  /-- Instant requested and present instant in SU; none while a PHASE action is not converted. -/
  requested : Option Int := none
  at_ : Option Int := none
  /-- PERIOD in SU as it stood at acceptance (R149), and the phase as it stands after NEXT. -/
  period : Int := 0
  phase : Nat := 0
  advances : Nat := 0
  boundAdvances : Nat := 0
  /-- Gate value of the conversion (R144, PHASE base). -/
  gate : Option Nat := none
  /-- The action was late at a dispatch moment (R141). -/
  late : Bool := false
deriving DecidableEq, Repr

/-- A dispatched action on its way to its target (R140): actual instant, outcome so far, and gate value. -/
structure Disp where
  action : Action
  t : Int
  outcome : Nat
  gate : Option Nat
  /-- A channel action whose edges the channel holds, its codes not issued yet (R155). -/
  handed : Bool := false
  /-- The channel lost those edges before their codes were issued (R145, R155). -/
  lost : Bool := false
deriving DecidableEq, Repr

/-- A queue beside its registers: the actions held, head first, and the order reference (R137). -/
structure QueueSt where
  actions : List Action := []
  orderRef : Option Nat := none
deriving DecidableEq, Repr

/-- The scheduler beside its registers. -/
structure SchedSt where
  queues : List QueueSt := List.replicate 16 {}
  dispatched : List Disp := []
  /-- Slot of the last dispatch (R140). -/
  lastSlot : Option Nat := none
  /-- Ticks that each generator has delivered since its enable: TICK_FIRED without the wrap (R149). -/
  ticks : List Nat := List.replicate 8 0
  /-- Agents whose queues the orphan SAFE state holds (R143). -/
  held : List Nat := []
deriving DecidableEq, Repr

/-- The fit of a tracker (R150): u = (a + b x + c x^2) / d around the newest stamp, the sum of squared residuals over
d^2, the number of stamps and the order, and the adjugate of the normal matrix, whose determinant is d. -/
structure PhaseFit where
  jRef : Int
  tRef : Int
  a : Int
  b : Int
  c : Int
  d : Int
  sse : Int
  n : Nat
  order : Nat
  adj : List Int
deriving DecidableEq, Repr

/-- A phase tracker beside its registers: the stamps accepted, newest first, the next index, the previous spacing, the
last fit, the instant of the last stamp, consecutive slips, and the last turn of a line event. -/
structure PhaseSt where
  stamps : List (Int × Int) := []
  nextJ : Int := 0
  spacing : Option Int := none
  fit : Option PhaseFit := none
  lastStamp : Option Int := none
  slips : Nat := 0
  lastTurn : Option Int := none
deriving DecidableEq, Repr

/-! ### Timing inputs (chapter 7) and measurement (chapter 8) -/

/-- A table set of a core (R165): tau of the 1 024 codes, the 16 skews and the offset, in 2^-8 SU. -/
structure CoreTable where
  tau : List Int
  skew : List Int
  offset : Int
deriving DecidableEq, Repr

/-- An interpolator core: front set, the set before it and the slot number of the exchange, the slot of acceptance, and its
calibration. -/
structure CoreSt where
  front : Option CoreTable := none
  prev : Option CoreTable := none
  exchanged : Nat := 0
  accepted : Nat := 0
  temp : Int := 0
  events : Nat := 0
  fails : Nat := 0
  badPulses : Nat := 0
  failed : Bool := false
  /-- RECAL was given: the next accepted set returns a failed core to service (R170). -/
  retry : Bool := false
  stale : Bool := false
  /-- Raw position of the last event injected into the core, and the events injected into it so far (R168). -/
  injected : Option Nat := none
  injCount : Nat := 0
  /-- Asynchronous events of the back set by code, and its phase pulses by stop phase and code, with their number (R169); none listed means
  none counted. -/
  hist : List Nat := []
  pulses : List (Nat × Nat × Nat) := []
deriving DecidableEq, Repr

/-- A captured crossing on its way through a core: core, sense, raw position, and the crossing count of its sense
(R189). -/
structure Capture where
  core : Nat
  rising : Bool
  pos : Nat
  index : Nat
  /-- The crossing came over the loopback pair (R82). -/
  looped : Bool
deriving DecidableEq, Repr

/-- A stamp in a FIFO (R164): instant, sense, bound, whether it was out of range, its crossing count, the sum of the
timescale's steps before it, and the stamps lost to the FIFO just before it. -/
structure Stamp where
  t : Int
  rising : Bool
  teb : Nat
  outOfRange : Bool
  index : Nat
  steps : Int
  lostBefore : Nat
  /-- Number of the steps of the timescale before its anchor (R195). -/
  gen : Nat
deriving DecidableEq, Repr

/-- A timing input beside its registers. -/
structure TinSt where
  /-- Slot from which the input is UNRESOLVED (R161). -/
  unresolvedAt : Nat := 0
  prescale : Nat := 0
  lastCore : Nat := 1
  lastPos : Option Nat := none
  captures : List Capture := []
  fifo : List Stamp := []
  lostBefore : Nat := 0
  handoutSlot : Option Nat := none
  riseCount : Nat := 0
  fallCount : Nat := 0
  cores : List CoreSt := [{}, {}]
  /-- INPUT_TERM values replaced lately, oldest first, each with the slot number up to which it held (R166). -/
  pastTerms : List (Nat × Int × Int) := []
  /-- Slot number from which the input is no longer COARSE (R167, R175). -/
  fineFrom : Nat := 0
  /-- Injected events so far, the slot at which the next is due, and the remainder of the division that set it (R168). -/
  injCount : Nat := 0
  injAt : Nat := 0
  injRem : Nat := 0
  /-- CAL_STALE or INPUT_FAULT raised by the input's own condition and not yet cleared by the host (R170, R172, R304). -/
  staleErr : Bool := false
  faultErr : Bool := false
  /-- Transitions of the looped lane on their way to the cores (R82). -/
  loopIn : List Crossing := []
deriving DecidableEq, Repr

/-- A stop of a session: instant before any step of the timescale, input, sense and whether it was out of range. -/
structure Stop where
  t : Int
  input : Nat
  rising : Bool
  unknown : Bool
deriving DecidableEq, Repr

/-- What reaches a session (R179 to R181, R184): an arm, a crossing lost to it, a start on its line with its bound and calibration term, or
a stamp. An arm or a start that is fixed keeps its instant at a step of the timescale (R11). -/
inductive SessWhat where
  | arm (fixed : Bool)
  | lost
  | start (teb cal : Nat) (fixed : Bool)
  | stamp (input : Nat) (rising unknown : Bool) (teb cal : Nat)
deriving DecidableEq, Repr

/-- An event on its way to a session. Sessions and gates keep their instants with all steps of the timescale taken out, so that they lie
on one timescale (R199). -/
structure SessEvent where
  at_ : Int
  what : SessWhat
deriving DecidableEq, Repr

/-- A measurement session beside its registers (R178 to R186): A, S, the sum of steps at A, the stops, and the events on their way to it in
the order of their instants. -/
structure SessionSt where
  a : Int := 0
  s : Int := 0
  startTeb : Nat := 0
  calStart : Nat := 0
  steps : Int := 0
  waiting : List Stop := []
  kept : List Stop := []
  early : Nat := 0
  lost : Bool := false
  /-- The first step of the timescale since A, with the steps taken out. -/
  stepped : Option Int := none
  queue : List SessEvent := []
deriving DecidableEq, Repr

/-- A gate that is open or about to open (R188): its span, the sum of steps at G, whether G keeps its instant at a step, its stamps
(crossing count, instant), its flags, and the moment its input became UNRESOLVED (R190). -/
structure GateWin where
  g : Int
  l : Int
  steps : Int
  fixed : Bool
  stamps : List (Nat × Int) := []
  lost : Bool := false
  /-- The first step of the timescale since G. -/
  stepped : Option Int := none
  closedAt : Option Int := none
deriving DecidableEq, Repr

/-- A word of a stream that is formed and not yet written: whether it is a STAMP, the slot in which it was formed (R197), and whether it is
the second word of a BASE, which makes one record with the first (R53, R194). -/
structure StreamWord where
  word : Nat
  stamp : Bool
  slot : Nat
  second : Bool
deriving DecidableEq, Repr

/-- A stamp stream beside its registers (R193 to R197): the last BASE and the sum of steps at it, the steps that a BASE has reported, the
words not yet written, and the stamps lost while suspended. -/
structure StreamSt where
  base : Int := 0
  baseSteps : Int := 0
  /-- Number of the steps before the last anchor that a BASE reported (R195). -/
  gen : Nat := 0
  batch : List StreamWord := []
  lost : Nat := 0
  live : Bool := false
deriving DecidableEq, Repr

/-- What an input handed out or lost a few slots ago, for an arm or a gate whose line event is still on its way (R179, R188): a stamp handed
out by the FIFO, and whether it entered the intake; or a crossing lost, and whether it was lost to the FIFO. -/
inductive RecentWhat where
  | out (entered : Bool)
  | lost (fifo : Bool)
deriving DecidableEq, Repr

structure Recent where
  slot : Nat
  st : Stamp
  what : RecentWhat
deriving DecidableEq, Repr

/-- The measurement engine: sessions, gates, intake buffers, streams, and the last result of each number with the count
it carried; what each input handed out or lost of late; and the last steps of the timescale, newest first: the instant of each with the
steps taken out, and the sum of the steps before it (R199). -/
structure MeasSt where
  sessions : List SessionSt := List.replicate 16 {}
  gates : List (List GateWin) := List.replicate 8 []
  intake : List (List Stamp) := List.replicate 16 []
  drainSlot : List Nat := List.replicate 16 0
  streams : List StreamSt := List.replicate 4 {}
  results : List (Option (List Nat × Nat)) := List.replicate 24 none
  recent : List (List Recent) := List.replicate 16 []
  steps : List (Int × Int) := []
deriving DecidableEq, Repr

/-! ### References, servo, crystal, synthesizers (chapter 9) and domains (chapter 10) -/

/-- An observation of a reference (R209): instant, offset, bound, path delay where the kind has one (R248), and the sum of
the slews the timescale had made before it, in SU. -/
structure Obs where
  at_ : Int
  theta : Int
  teb : Nat
  path : Option Int
  slew : Int
deriving DecidableEq, Repr

/-- The temperature integral of R219: the oven temperature at its start, the renewals of the XO since, and the sum over whole seconds of
u_tc |T - T_entry|, at most 3 ppb, in units of 10^-15 s / 256. -/
structure TempSum where
  start : Int := 0
  ticks : Nat := 0
  sum : Nat := 0
deriving DecidableEq, Repr

/-- A reference beside its registers: observations not yet tested, those tested since the last failed check (newest first),
the dwell, the origin of a FREQUENCY reference (instant, crossing count, sense), and what R248 and R249 keep. -/
structure RefSt where
  inbox : List Obs := []
  hist : List Obs := []
  /-- The last 16 observations, held and failed ones too, for the means of DOMAIN (R245). -/
  seen : List Obs := []
  passes : Nat := 0
  dwellSlot : Nat := 0
  lastSlot : Nat := 0
  origin : Option (Int × Nat × Bool) := none
  /-- The next stamp becomes the origin s_0: the reference has been adopted (R209). -/
  newOrigin : Bool := false
  boundary : Int := 0
  paths : List Int := []
  held : List Obs := []
  /-- Mean offsets of the references when the first held observation came. -/
  snap : List Int := []
  /-- Mean offset and bound before the step, and the mean of the held observations, once frozen. -/
  before : Int := 0
  after : Int := 0
  bound : Nat := 0
  /-- The temperature integral since its last observation that may be used (R219). -/
  drift : TempSum := {}
deriving DecidableEq, Repr

/-- The servo beside its registers: the integrator in units of 2^-92, the slew in force in 2^-60 with the remainder in
2^-32 SU at a slot, the sum of slews made, errors since the adoption (newest first), and the values of y_srv kept for the
mean of R219 by slot. -/
structure ServoSt where
  integ : Int := 0
  adopted : Option Nat := none
  slewLeft32 : Int := 0
  slewEff : Int := 0
  slewSlot : Nat := 0
  slewSum32 : Int := 0
  errs : List Int := []
  maxErr : Nat := 0
  lastUsed : Option Int := none
  lastBound : Nat := 0xFFFFFFFF
  srvHist : List (Nat × Int) := []
  /-- Offset at which frequency steering began while a step is proposed (R216). -/
  freqBase : Option Int := none
  /-- The temperature integral since the last observation used (R219). -/
  drift : TempSum := {}
  timeSeen : Bool := false
deriving DecidableEq, Repr

/-- The crystal beside its registers: slot since which the oven lies in its band, 100 ms updates in LOCKED in all and since
the fit history began, and the update of the last fit (R205, R207). -/
structure XoSt where
  bandSince : Option Nat := none
  lockTicks : Nat := 0
  fitTicks : Nat := 0
  lastFit : Nat := 0
  /-- The sum of y_age + y_srv over the renewals of the hour under way, and the hourly means, newest first (R207). -/
  hour : Int := 0
  means : List Int := []
deriving DecidableEq, Repr

/-- A ramp of APLL_A between two N words (units of 2^-32), from a slot, over a number of microseconds (R223). -/
structure Ramp where
  start : Nat
  target : Nat
  slot : Nat
  us : Nat
deriving DecidableEq, Repr

/-- APLL_A beside its registers (R221 to R227): passing windows, N at rest, the ramp, whether a profile plays with its points (N word and
time) and loops, the spread in force with its rate and the slot it began, and whether the reference channel is lost. -/
structure ApllaSt where
  passes : Nat := 0
  n : Nat := 0
  /-- N at which outputs complete their periods during a relock (R224). -/
  nOld : Nat := 0
  ramp : Option Ramp := none
  profile : Bool := false
  profileDone : Bool := false
  points : List (Nat × Nat) := []
  loops : Nat := 0
  ssc : Nat := 0
  sscRate : Nat := 0
  sscSlot : Nat := 0
  refLost : Bool := false
  /-- VCO cycles since the last lock, to which the dividers are aligned (R228), in units of 2^-64, and what the last slot added. -/
  phase : Nat := 0
  step : Nat := 0
deriving DecidableEq, Repr

/-- An aux output beside its registers (R224, R228, R229): whether it drives periods, whether they are of the crystal bypass and its low phase
is not yet over, the VCO cycle at which it starts, the VCO cycle (the slot, on the bypass) at which the present period ends, DIV and
DELAY_CYC in force, periods left in a gate, whether the present period is suppressed, and the causes of its safe state. -/
structure AuxSt where
  running : Bool := false
  bypass : Bool := false
  low : Bool := false
  startAt : Option Nat := none
  endAt : Nat := 0
  div : Nat := 60
  delay : Nat := 0
  gate : Nat := 0
  suppressed : Bool := false
  safe : List SafeCause := []
  /-- Lock was declared within the present period: at its end the output restarts on the new grid (R224). -/
  restart : Bool := false
deriving DecidableEq, Repr

/-- DOMAIN beside its registers (R245 to R249): consecutive disagreeing and agreeing observations, the primary a switch
made, and whether the open path event has had its verdict from a judge. -/
structure DomainSt where
  disagree : Nat := 0
  agree : Nat := 0
  keep : Option Nat := none
  /-- The reference that a switch made the secondary (R249). -/
  made : Option Nat := none
  judged : Bool := false
deriving DecidableEq, Repr
/-! ### Ridge and Ethernet ports (chapter 11) -/

/-- The last TIME cell received (R263): TX_SEQ, arrival stamp (none if its bound was unknown), STEP_SEQ, and the sum of
the own timescale's steps. -/
structure RxTime where
  seq : Nat
  arr : Option Int
  stepSeq : Nat
  steps : Int
deriving DecidableEq, Repr

/-- A departure of an own TIME cell (R261): sequence, stamp (none if its bound was unknown), TEB_ts, sum of steps. -/
structure Departure where
  seq : Nat
  t : Option Int
  teb : Nat
  steps : Int
deriving DecidableEq, Repr

/-- One transfer of R263: twice theta and twice the delay in SU, b, and t2. -/
structure Transfer where
  theta2 : Int
  delay2 : Int
  b : Nat
  hop : Nat
  t2 : Int
deriving DecidableEq, Repr

/-- A Ridge port beside its registers: the raw position at which its next cell slot begins, in fifths of an SU, and the
slot count; when the next TIME cell is due; the last departures, newest first; cells waiting to leave; the last TIME cell
received; transfers of the interval and the slot of its end; cells that passed since block lock, and the slot of the last. -/
structure RdgSt where
  cell5 : Nat := 0
  slots : Nat := 0
  timeDue : Nat := 0
  txSeq : Nat := 0
  deps : List Departure := []
  trigs : List TrigCell := []
  mgmts : List MgmtCell := []
  mgmtSlot : Option Nat := none
  rx : Option RxTime := none
  xfers : List Transfer := []
  obsSlot : Nat := 0
  good : Nat := 0
  lastGood : Nat := 0
  /-- The last 58 bits of the scrambler, the newest the least significant (R254; log 107). -/
  scrambler : Nat := 0
  /-- Whether the receiver has a signal (R257; log 107). -/
  signal : Bool := true
deriving DecidableEq, Repr

/-- What the Ridge ports share: the last 32 triggers, newest first (R259), the slot of the last ISSUE (R265), the request
outstanding at the root (counter, OP, slot) and the highest COUNTER accepted since the start (R266). -/
structure RidgeSt where
  ports : List RdgSt := List.replicate 6 {}
  seen : List (Nat × Nat) := []
  lastIssue : Option Nat := none
  request : Option (Nat × Nat × Nat) := none
  highest : Option Nat := none
  /-- UTC_OFFSET, LEAP_PENDING and LEAP_INSTANT of the upstream peer, which take effect at the next slot boundary (R264). -/
  utc : Option (Nat × Nat × Nat) := none
deriving DecidableEq, Repr

/-- A TX element sent or discarded and not yet written back (R270): its host address and length, the written-back bits
[14:11], and its stamp once known (bound with it); `wants` until a TS_REQ frame has its stamp. -/
structure TxElem where
  addr : Nat
  length : Nat
  bits : Nat
  stamp : Option (Int × Nat)
  wants : Bool
deriving DecidableEq, Repr

/-- An Ethernet port beside its registers: elements of the TX ring consumed since ENABLE, and those not yet written back,
oldest first; buffers of the RX ring consumed. -/
structure EthSt where
  taken : Nat := 0
  sent : List TxElem := []
deriving DecidableEq, Repr

/-! ### The Eave (chapter 12) -/

/-- What waits for the next count edge (R280, R288): a SET with its origin, or a change of PWR_EN with its cause. -/
inductive EaveCmd where
  | set (origin : Nat)
  | pwrOn (cause : Nat)
  | pwrOff (cause : Nat)
deriving DecidableEq, Repr

/-- The Eave beside its page: ticks of the model's clock and count edges since its power-on reset, the time since the last
edge in 1/64 slot, whether the crystal stands still, the trim accumulator, what CAL_UNC was last set to and its growth since in 2^-15 ns,
commands that wait, a PWR_OFF that waits (tick, cause), a sync that waits, the program, and the sources that a run clears. -/
structure EaveSt where
  ticks : Nat := 0
  phase : Nat := 0
  edges : Nat := 0
  stopped : Bool := false
  trimAcc : Nat := 0
  uncBase : Nat := 18446744073709551615
  uncGrowth : Nat := 0
  cmds : List EaveCmd := []
  downAt : Option (Nat × Nat) := none
  /-- SYNC_NOW given; the whole second last seen; a sync at second S with its bound waiting for E, then for E'. -/
  syncNow : Bool := false
  second : Int := 0
  syncAt : Option (Nat × Nat) := none
  syncEdge : Nat := 0
  syncLoad : Bool := false
  synced : Bool := false
  pc : Option Nat := none
  c : Bool := false
  progEdge : Nat := 0
  /-- Count edge of the last monitor tick (R283). -/
  tickEdge : Nat := 0
  /-- The last count edge found the calendar at or after ALARM_AT (R289). -/
  alarmHit : Bool := false
  wakeLevel : Bool := false
  wakeSeen : Bool := false
  alarmSeen : Bool := false
  logCount : Nat := 0
  /-- Log entries whose ECC fails (R291). -/
  logBad : List Nat := []
deriving DecidableEq, Repr

/-! ### Supplies and start (chapter 14) -/

/-- A core of the interpolator of SYNC_IN, a Ridge port or an Ethernet port (R131, R262, R316): whether it holds an accepted set, its
failures in a row, and whether it has failed. -/
structure PortCore where
  set : Bool := false
  fails : Nat := 0
  failed : Bool := false
deriving DecidableEq, Repr

/-- The core's supplies and start: supplies good since V with slot 0 at V, whether a supply has been below its reset threshold since, the
slot of an accepted DEVICE_RESET, CALDATA verified, and whether the stage is held by a recovery start. -/
structure PowerSt where
  good : Bool := false
  low : Bool := true
  resetAt : Option Nat := none
  calOk : Bool := false
  recovery : Bool := false
  /-- The factory terms of the CALDATA image in force: register words (page, offset, word), and the terms that follow a setting (R67,
  R83, R97, R166, R167). -/
  factory : List (Nat × Nat × Nat) := []
  forms : List FormTerm := []
  /-- The two cores of SYNC_IN, of RDG_0 to RDG_5 and of ETH_0 and ETH_1, in that order (R316). -/
  ports : List PortCore := List.replicate 18 {}
deriving DecidableEq, Repr

/-! ### Flash (chapter 15) -/

/-- Why the management processor restarts (R334, R339, R342). -/
inductive RestartWhy where
  | activate
  | loaderTrial
  | fallback (reason : Nat)
  | watchdog
deriving DecidableEq, Repr

/-- A component on trial (R339 to R342): the slot active before, whether its copy is done, its banks swapped or MAIN started by
it, the slot at which the window began and at which MAIN started, a monitor tick since the swap, the ports that were UP before their swap
with the cells that passed since, whether MAIN has the settings, for CALDATA the register words that its
factory terms replaced and the terms of the image before, and the word of SCHEMA before. -/
structure Trial where
  component : Nat
  prev : Nat
  copied : Bool
  swapped : Bool
  start : Nat
  mainStart : Nat
  ticked : Bool
  cells : List (Nat × Nat)
  migrated : Bool
  oldTerms : List (Nat × Nat × Nat)
  oldFactory : List (Nat × Nat × Nat)
  oldForms : List FormTerm
  schemaWas : Word
  /-- The units that run from the bank of the candidate (R338). -/
  units : List BankUnit
  /-- Whether the image is the entry of the manifest that comes next (R333). -/
  listed : Bool
deriving DecidableEq, Repr

/-- What the settings store keeps (R343): the traceability record, STAGE_CFG, FL_CONFIG, keys A and B as (KEY_ID, key),
the upper half of the last MGMT counter (R266), and the hourly ageing means (R207). -/
structure Settings where
  trace : List Nat := []
  stageCfg : Nat := 0
  flConfig : Nat := 600 * 65536
  keyA : Option (Nat × Nat) := none
  keyB : Option (Nat × Nat) := none
  counterHi : Nat := 0
  means : List Int := []
deriving DecidableEq, Repr

/-- A copy of the settings store (R343): whether its header and CRC-32 are valid, its SCHEMA and sequence number, and what it stores. -/
structure SettingsCopy where
  valid : Bool := false
  schema : Nat := 0
  seq : Nat := 0
  body : Settings := {}
deriving DecidableEq, Repr

/-- An entry of a manifest (R333): component, version, SEC_VER, payload hash. -/
structure ManEntry where
  component : Nat
  version : Nat
  secVer : Nat
  hash : Nat
deriving DecidableEq, Repr

/-- The handover area as the running MAIN wrote it (R334): the hourly means with the hour under way, settings-store writes not yet in flash,
the Ridge MGMT counters, the request under way among firmware-served commands, and the trial with its boots left. -/
structure Handover where
  means : List Int
  hour : Int
  settings : Option Settings
  highest : Option Nat
  counter : Nat
  request : Option (Nat × Nat × Nat)
  trial : Option Trial
  boots : Nat
deriving DecidableEq, Repr

/-- A copy of the boot table (R326): its sequence number, whether its CRC-32 is valid, and for components 1 to 5 the active slots and whether
the other slot holds an image that passed verification; the trial with its boots left; the states of STAGING and of the copy; and the
manifest's progress. -/
structure BootTable where
  seq : Nat := 0
  valid : Bool := true
  active : List Nat := List.replicate 5 0
  otherOk : List Bool := List.replicate 5 false
  trial : Option Trial := none
  boots : Nat := 0
  staging : Nat := 0
  marked : Bool := false
  copying : Option Nat := none
  manifest : List ManEntry := []
  next : Nat := 0
deriving DecidableEq, Repr

/-- The flash and the management processor beside the FLASH page: the bytes of STAGING, or of the area a recovery writes,
that are not 0xFF, what verification finds for them, the images of components 1 to 5 in their two slots, the active slots and the valid others,
a trial, a copy (component, blocks, retried), a restart (slot, why), a candidate marked for the next reset, manifest
entries, the hash of the owner key, the slot until which the flash is busy and the slot and DOWNLOAD_COUNT at which a DMA_WRITE began, the settings in use, and those before a trial with the copies then,
persistent log entries by index and their count, and the recovery target. -/
structure FlashSt where
  staging : List (Nat × Nat) := []
  checked : VerifyResult := ⟨false, [], 0, [], [], false, false, 0, 0⟩
  slots : List (Option ImageHdr × Option ImageHdr) := List.replicate 5 (none, none)
  active : List Nat := List.replicate 5 0
  otherOk : List Bool := List.replicate 5 false
  trial : Option Trial := none
  copy : Option (Nat × Nat × Bool) := none
  restart : Option (Nat × RestartWhy) := none
  marked : Bool := false
  manifest : List ManEntry := []
  ownerKey : Option Nat := none
  busyUntil : Nat := 0
  dma : Option (Nat × Nat) := none
  settings : Settings := {}
  saved : Settings := {}
  savedCopies : SettingsCopy × SettingsCopy := ({}, {})
  log : List (Nat × Nat) := []
  logNext : Nat := 0
  target : Option (Nat × Nat) := none
  /-- SETTINGS_0 and SETTINGS_1 (R343); a write of the store reaches them when the flash is free (log 108). -/
  copies : SettingsCopy × SettingsCopy := ({}, {})
  /-- The handover area, empty after a reset of the core (R334). -/
  handover : Option Handover := none
  /-- What the LOADER found of the candidate in the restart under way (R334, R335). -/
  verified : Option Bool := none
  /-- Journal records of the copy, oldest first: block index and CRC-32 (R337); and how a copy ended that was done before the restart was. -/
  journal : List (Nat × Nat) := []
  copyEnd : Option Bool := none
  /-- The bank that each unit runs from: the Eave, RDG_0 to RDG_5, ETH_0 and ETH_1; and units that are to swap (R338). -/
  banks : List Nat := List.replicate 9 0
  swaps : List BankUnit := []
  /-- Components marked as started from the other slot (R335). -/
  fell : List Nat := []
  /-- BOOT_TABLE_0 and BOOT_TABLE_1 (R326). -/
  boot : BootTable × BootTable := ({ seq := 1 }, {})
  /-- Source 87 was raised for the restart under way (R334). -/
  late : Bool := false
deriving DecidableEq, Repr


/-- What chapter 10 remembers beside the registers: whether the oven has been STABLE, the temperature term accumulated in
holdover in 10^-15 s, u_y of REF, the basis before the present one, the instants t_seed, t_obs and t_time, b_k, and the
size of the last explicit STEP. -/
structure TebSt where
  /-- The instant at which the oven was first STABLE (R238). -/
  stableAt : Option Int := none
  /-- SEED_TEB and HOLD_TEB0 before saturation, none if unknown: the class of a TIN_PPS reference compares with 400 ms (R208). -/
  seed : Option Nat := none
  hold0 : Option Nat := none
  /-- The temperature integral of the holdover whose rule is in force (R219). -/
  holdTemp : TempSum := {}
  /-- The FREQUENCY reference of FREQ_ONLY (R220), and its FREQ_UNC there: no write lowers the bound (R239). -/
  freqRef : Nat := 0
  freqUnc : Nat := 0
  /-- What slews that another adoption cut short left to the bound: their remainders with their b_k (R239). -/
  floor : Nat := 0
  /-- PATH_WIDEN of an event that ended ACCEPTED while a conflict of R213 was pending (R252). -/
  pathHeld : Nat := 0
  uyRef : Nat := 0xFFFFFFFF
  prevBasis : Nat := 0
  tSeed : Int := 0
  tObs : Int := 0
  tTime : Int := 0
  bK : Nat := 0
  stepAdd : Nat := 0
  /-- The multiple of REPORT_MS last reported (R243). -/
  lastReport : Int := 0
deriving DecidableEq, Repr

/-! ### The Gutter (chapter 13) -/

/-- A fault event on its way to the collector (R296): the raising page and bit, whether it was injected, whether it is a line
fault, the source, and the slot at which it was raised. -/
structure FaultEvent where
  page : Nat
  bit : Nat
  injected : Bool
  line : Bool
  source : Nat
  slot : Nat
deriving DecidableEq, Repr

/-- An injection that lasts (R304): source, page and the slot at which it ends. -/
structure Injection where
  source : Nat
  page : Nat
  line : Bool
  until_ : Nat
deriving DecidableEq, Repr

/-- The Gutter beside its page: device safe state, and injections that last. The pair latch is STATUS.PAIR_FAULT. -/
structure GutterSt where
  safe : Bool := false
  /-- Words of SRC_CFG before a write in this or the last slot: source, slot of the write, word (R309). -/
  oldCfg : List (Nat × Nat × Word) := []
  injections : List Injection := []
  /-- Sources whose pair reads 00 or 11 and has done so for two cycles (R296, R307). -/
  badPairs : List Nat := []
deriving DecidableEq, Repr

structure State where
  regs : List (Nat × Word)
  clk : ClockSt
  host : HostSt
  quads : List QuadSt
  chans : List ChanSt
  lines : List LineSt
  seqs : List SeqSt
  sync : SyncSt
  ecc : EccSt
  auxMarks : List AuxMark
  sched : SchedSt
  phases : List PhaseSt
  tins : List TinSt
  meas : MeasSt
  refs : List RefSt
  servo : ServoSt
  xo : XoSt
  apllmPasses : Nat
  aplla : ApllaSt
  auxs : List AuxSt
  domain : DomainSt
  teb : TebSt
  gutter : GutterSt
  ridge : RidgeSt
  eths : List EthSt
  eave : EaveSt
  power : PowerSt
  flash : FlashSt
  out : List Out
  faultEvents : List FaultEvent
  lineEvents : List LineEvent
  msixOwed : List Nat
  freeUses : Nat
  bar2 : List Host.Cell
  pending : List Instr
deriving DecidableEq, Repr

/-- The machine right after the first power-on reset of the Eave, the core held in reset by its supplies (R276, R311, R313):
every register at the reset value of its table, RESET_CAUSE EAVE_POR and SUPPLY, the log's first entry EAVE_POR and CAL_LOST set; no
memory listed and no command waiting. -/
def State.reset : State where
  regs := [(0x0C8, 9), (0xA024, 1), (0xA130, 0x101), (0xA404, 0x100)]
  clk := {}
  host := {}
  quads := List.replicate 12 {}
  chans := List.replicate 48 {}
  lines := List.replicate 64 {}
  seqs := List.replicate 4 {}
  sync := {}
  ecc := {}
  auxMarks := []
  sched := {}
  phases := List.replicate 4 {}
  tins := List.replicate 16 {}
  meas := {}
  refs := List.replicate 8 {}
  servo := {}
  xo := {}
  apllmPasses := 0
  aplla := {}
  auxs := List.replicate 8 {}
  domain := {}
  teb := {}
  gutter := {}
  ridge := {}
  eths := List.replicate 2 {}
  eave := { logCount := 1 }
  power := {}
  flash := {}
  out := []
  faultEvents := []
  lineEvents := []
  msixOwed := []
  freeUses := 0
  bar2 := []
  pending := []

end Sys2Proof.Machine
end

