-- ==== Sys2Proof/Machine/Ops.lean ====
section
/-! DEFINITION. The named operations over the register file, the clock and the engine records that every block uses. -/

namespace Sys2Proof.Machine

/-- A meaning: the command has its effect. Operands outside the ranges of WellFormed are carried by no access, element, cell or event that
the spec gives the block, and leave it as it is (log 99). -/
def guarded (i : Instr) (s : State) (k : State → State) : Host.Outcome State Fault Refusal :=
  .next (if i.wf then k s else s)

/-! ### Registers -/

/-- The key of a register word in the register file. -/
def regKey (p o : Nat) : Nat := p * 4096 + o

/-- The live value of a register word. -/
def State.rd (s : State) (p o : Nat) : Word := sparseGet regReset s.regs (regKey p o)

/-- Put a register word. -/
def State.wr (s : State) (p o : Nat) (v : Word) : State :=
  { s with regs := sparseSet regReset s.regs (regKey p o) v }

/-- The value of a register of `n` words from offset `o`, lowest word first (R17). -/
def State.rdN (s : State) (p o : Nat) : Nat → Nat
  | 0 => 0
  | n + 1 => (s.rd p o).toNat + 2 ^ 32 * s.rdN p (o + 4) n

/-- Put a register of `n` words from offset `o`. -/
def State.wrN (s : State) (p o : Nat) : Nat → Nat → State
  | 0, _ => s
  | n + 1, v => (s.wr p o (BitVec.ofNat 32 v)).wrN p (o + 4) n (v / 2 ^ 32)

/-- The value of a field of page `p`. -/
def State.get (s : State) (p : Nat) (f : Fld) : Nat :=
  if f.hi < 32 then bitsOf (s.rd p f.off).toNat f.hi f.lo
  else bitsOf (s.rdN p f.off (f.hi / 32 + 1)) f.hi f.lo

/-- Put a field of page `p`. -/
def State.put (s : State) (p : Nat) (f : Fld) (v : Nat) : State :=
  if f.hi < 32 then s.wr p f.off (BitVec.ofNat 32 (putBits (s.rd p f.off).toNat f.hi f.lo v))
  else s.wrN p f.off (f.hi / 32 + 1) (putBits (s.rdN p f.off (f.hi / 32 + 1)) f.hi f.lo v)

/-- A one-bit field as a Bool. -/
def State.flag (s : State) (p : Nat) (f : Fld) : Bool := s.get p f != 0

/-- Put a one-bit field. -/
def State.putFlag (s : State) (p : Nat) (f : Fld) (b : Bool) : State := s.put p f (b2n b)

/-- A field read as a two's complement number of its own width. -/
def State.getI (s : State) (p : Nat) (f : Fld) : Int := toSigned (f.hi + 1 - f.lo) (s.get p f)

/-- Put a field to a two's complement number of its own width. -/
def State.putI (s : State) (p : Nat) (f : Fld) (v : Int) : State := s.put p f (ofSigned (f.hi + 1 - f.lo) v)

/-- Advance a counter field that saturates. -/
def State.incSat (s : State) (p : Nat) (f : Fld) (n : Nat := 1) : State :=
  s.put p f (satAdd (f.hi + 1 - f.lo) (s.get p f) n)

/-- Advance a counter field that wraps. -/
def State.incWrap (s : State) (p : Nat) (f : Fld) (n : Nat := 1) : State :=
  s.put p f (wrapAdd (f.hi + 1 - f.lo) (s.get p f) n)

/-- Add one output to the trace. -/
def State.emit (s : State) (o : Out) : State := { s with out := o :: s.out }

/-- Apply an update to the state for each element of a list, in order. -/
def State.forEach {α : Type} (s : State) (l : List α) (f : α → State → State) : State :=
  l.foldl (fun s a => f a s) s

/-- Apply an update if a condition holds. -/
def State.onlyIf (s : State) (c : Bool) (f : State → State) : State := if c then f s else s

/-- Draw a free value: a number that the spec leaves open (log 5). -/
def State.free (s : State) : Nat × State := (Config.freeNat s.freeUses, { s with freeUses := s.freeUses + 1 })

/-! ### Engine records -/

def State.quad (s : State) (q : Nat) : QuadSt := s.quads.getD q {}
def State.setQuad (s : State) (q : Nat) (x : QuadSt) : State := { s with quads := s.quads.set q x }
def State.chan (s : State) (c : Nat) : ChanSt := s.chans.getD c {}
def State.setChan (s : State) (c : Nat) (x : ChanSt) : State := { s with chans := s.chans.set c x }
def State.line (s : State) (n : Nat) : LineSt := s.lines.getD n {}
def State.setLine (s : State) (n : Nat) (x : LineSt) : State := { s with lines := s.lines.set n x }
def State.ring (s : State) (r : Nat) : RingSt := s.host.rings.getD r {}
def State.setRing (s : State) (r : Nat) (x : RingSt) : State :=
  { s with host := { s.host with rings := s.host.rings.set r x } }

/-! ### Time -/

/-- SU in one nanosecond (R5). -/
abbrev suNs : Nat := 65536

/-- SU in one slot (R5). -/
abbrev suSlot : Nat := 327680

/-- SU in one second. -/
abbrev suSec : Nat := 65536000000000

/-- 2^-32 SU in one SU. -/
abbrev fine : Int := 4294967296

/-- The span of 1 024 ns, the placement horizon of R12, in 2^-32 SU. -/
abbrev horizon32 : Int := 67108864 * fine

/-- The Device Timescale at raw distance `r` SU from the anchor, in 2^-32 SU (R8): the exact product with y, rounded to
the internal resolution. Before seeding the timescale reads zero (R282). -/
def tsAfter32 (c : ClockSt) (r : Int) : Int :=
  if c.seeded then c.anchorT32 + roundEven (r * 2 ^ 32 * (2 ^ 60 + c.y)) (2 ^ 60) else 0

/-- The Device Timescale at a raw position in SU from TCLK count zero, in 2^-32 SU. -/
def tsAtRaw32 (c : ClockSt) (pos : Int) : Int := tsAfter32 c (pos - 40960 * c.anchorN)

/-- The Device Timescale at TCLK count `n`, in 2^-32 SU (R8). -/
def tsAtCount32 (c : ClockSt) (n : Nat) : Int := tsAtRaw32 c (40960 * n)

/-- The Device Timescale now, at the present SCLK edge, in 2^-32 SU. -/
def State.now32 (s : State) : Int := tsAtCount32 s.clk s.clk.tclk

/-- The Device Timescale at the SCLK edge after the present one, where a write accepted now takes effect (R59). -/
def State.next32 (s : State) : Int := tsAtCount32 s.clk (s.clk.tclk + 8)

/-- The Device Timescale now as an instant in SU, rounded to nearest, ties to even (R21). -/
def State.now (s : State) : Int := roundEven s.now32 (2 ^ 32)

/-- The instant of a raw position as a timestamp, rounded to 1 SU (R21). -/
def State.stampOf (s : State) (pos : Int) : Int := roundEven (tsAtRaw32 s.clk pos) (2 ^ 32)

/-- Slot number: TCLK_COUNT div 8 (R7). -/
def State.slotNo (s : State) : Nat := s.clk.tclk / 8

/-- Whether an instant in SU lies at least `ns` nanoseconds after now (the LATE tests of R26, R41). -/
def State.atLeastNs (s : State) (inst : Int) (ns : Nat) : Bool := decide (s.now32 + (ns * suNs : Nat) * fine ≤ inst * fine)

/-- Whether the timescale has reached an instant in SU. -/
def State.reached (s : State) (inst : Int) : Bool := decide (inst * fine ≤ s.now32)

/-- SCLK edges in a number of nanoseconds, rounded up. -/
def slotsOfNs (ns : Nat) : Nat := ceilDiv ns 5

/-- Bring-up stage (R314). -/
def State.stage (s : State) : Nat := s.get pDEV DEV.STATUS.STAGE

/-- Whether an SCLK edge of R24, R40 and R46 falls in the present slot: below Stage 2 one of the 40 MHz crystal, every fifth (R315). -/
def State.sclkEdge (s : State) : Bool := decide (2 ≤ s.stage) || s.clk.slot % 5 == 0

/-- An event inside the core: without its supplies the core is held in reset and nothing happens there (R311). -/
def State.inCore (s : State) (f : State → State) : State := s.onlyIf s.power.good f

/-- Whether the device is held at Stage 2: no sweep and no input calibration runs (R317). -/
def State.heldAt2 (s : State) : Bool := s.stage == 2 && s.flag pDEV DEV.STAGE_CFG.HOLD_AT_2

/-- A core of a port's interpolator: 0 and 1 of SYNC_IN, then those of the Ridge and of the Ethernet ports. -/
def State.portCore (s : State) (n : Nat) : PortCore := s.power.ports.getD n {}

/-- Whether the interpolators of SYNC_IN, the Ridge ports and the Ethernet ports are settled (R316). -/
def State.portsSettled (s : State) : Bool := s.power.ports.all (fun c => c.set || c.failed)

/-- Whether both cores of the interpolator of a port have failed: 0 SYNC_IN, 1 to 6 Ridge, 7 and 8 Ethernet. -/
def State.portFaulty (s : State) (k : Nat) : Bool := (s.portCore (2 * k)).failed && (s.portCore (2 * k + 1)).failed

/-! ### Events between blocks -/

/-- Post an event for the trigger lines; TRIGGER_LINE_EVENT delivers it (R100). -/
def State.post (s : State) (e : LineEvent) : State := { s with lineEvents := s.lineEvents ++ [e] }

end Sys2Proof.Machine
end

