-- ==== Sys2Proof/Machine/Operands.lean ====
section
/-! DEFINITION. The shared formats of chapter 1: Instant, Span, Phase and TEB, between register bits and numbers. -/

namespace Sys2Proof.Machine

/-- Instants below this number of SU fit the 64-bit seconds of the format (R13). -/
abbrev instantLimit : Nat := 18446744073709551616 * suSec

/-- The 128 bits of an Instant in SU since the epoch (the table of *Instant*). -/
def instantBits (t : Nat) : Nat := t / suSec * 2 ^ 64 + t % suSec / suNs * 2 ^ 32 + t % suNs * 2 ^ 16

/-- Whether 128 bits are a valid Instant (R13). -/
def instantOk (v : Nat) : Bool := decide (bitsOf v 63 32 ≤ 999999999) && decide (bitsOf v 15 0 = 0)

/-- The SU since the epoch that the bits of an Instant name. -/
def instantOf (v : Nat) : Nat := bitsOf v 127 64 * suSec + bitsOf v 63 32 * suNs + bitsOf v 31 16

/-- Whether 96 bits are a valid Span: SIGN_EXT copies bit 79 (R14). -/
def spanOk (v : Nat) : Bool := decide (bitsOf v 95 80 = if bitOf v 79 then 0xFFFF else 0)

/-- The SU that a Span names: bits [79:0] as one signed number (R14). -/
def spanOf (v : Nat) : Int := toSigned 80 v

/-- The 96 bits of a Span of `i` SU (R14). -/
def spanBits (i : Int) : Nat := ofSigned 96 (toSigned 80 (ofSigned 80 i))

/-- Whether `i` SU fit a Span. -/
def spanFits (i : Int) : Bool := decide (-(2 ^ 79 : Int) ≤ i) && decide (i < (2 ^ 79 : Int))

/-- An Instant register as SU since the epoch. -/
def State.getInst (s : State) (p : Nat) (f : Fld) : Nat := instantOf (s.get p f)

/-- Put an Instant register. -/
def State.putInst (s : State) (p : Nat) (f : Fld) (t : Int) : State := s.put p f (instantBits t.toNat)

/-- A Span register in SU. -/
def State.getSpan (s : State) (p : Nat) (f : Fld) : Int := spanOf (s.get p f)

/-- Put a Span register. -/
def State.putSpan (s : State) (p : Nat) (f : Fld) (i : Int) : State := s.put p f (spanBits i)

/-- Unknown bound, also the saturation value (R16). -/
abbrev tebUnknown : Nat := 0xFFFFFFFF

/-- Sum of bound terms: saturating, unknown if any term is (R16). -/
def tebAdd (a b : Nat) : Nat := if tebUnknown ≤ a ∨ tebUnknown ≤ b then tebUnknown else min (a + b) tebUnknown

/-- The picoseconds, rounded up, in a number of SU (R16). -/
def psOfSu (su : Nat) : Nat := ceilDiv (su * 1000) suNs

/-- A frequency bound of `u` times 10^-15 over `dt` SU, in ps rounded up (R16). -/
def psOfFreq (u dt : Nat) : Nat := ceilDiv (u * dt) (suNs * 10 ^ 12)

/-- The result codes of R41. -/
inductive Res where
  | ok | conflict | range | state | late | order | denied | busy | incompatible
deriving DecidableEq, Repr

/-- The code of a result (R41). -/
def Res.code : Res → Nat
  | .ok => 0 | .conflict => 1 | .range => 2 | .state => 3 | .late => 4 | .order => 5 | .denied => 6 | .busy => 7
  | .incompatible => 8

/-- What a write came to: its result, and the DETAIL it reports in place of the register's offset (R40). -/
structure Verdict where
  res : Res
  detail : Option Nat := none
deriving DecidableEq, Repr

/-- One evaluated write: the path it came by, the agent it carries and whether that writer has ADMIN rights, the page,
the offset of the register and the offset of the word written, and the value built (R17). -/
structure WCtx where
  path : Path
  agent : Nat
  admin : Bool
  page : Nat
  inst : Nat
  off : Nat
  v : Nat
deriving DecidableEq, Repr

/-- Whether a path is a host window: BAR0 from PCIe, or a WINDOW over SPI (R34). -/
def windowPath (p : Path) : Bool := match p with | .bar0 _ => true | .spi _ => true | _ => false

/-- Accept with a new state, or refuse with the state as it was (R41). -/
def accept (s : State) : State × Verdict := (s, ⟨.ok, none⟩)
def refuse (s : State) (r : Res) : State × Verdict := (s, ⟨r, none⟩)

/-- The page whose OWNER_ID holds the owner of a resource; none for resources without a page (R42). -/
def pageOfRes (code idx : Nat) : Option Nat :=
  match code with
  | 1 => some (pCHAN idx)
  | 3 => some (pTIN idx)
  | 7 => some (pAUX idx)
  | 9 => some pCAL
  | 10 => some (pSEQ idx)
  | 12 => some (pPHASE idx)
  | 15 => some idx
  | _ => none

/-- Number of indices of a resource code (R42). -/
def resCount (code : Nat) : Nat :=
  match code with
  | 1 => 48 | 3 => 16 | 4 => 64 | 5 => 16 | 6 => 32 | 7 => 8 | 8 => 4096 | 9 => 1 | 10 => 4 | 11 => 8 | 12 => 4 | _ => 0

/-- OWNER_ID of a page (R37). -/
def State.pageOwner (s : State) (p : Nat) : Nat := bitsOf (s.rd p 0x00C).toNat 31 16

/-- Owner of a resource, 0 if free (R42). -/
def State.resOwner (s : State) (code idx : Nat) : Nat :=
  match pageOfRes code idx with
  | some p => s.pageOwner p
  | none => match s.host.owners.find? (fun o => o.1 == (code, idx)) with | some o => o.2 | none => 0

/-- Put the owner of a resource. -/
def State.setOwner (s : State) (code idx agent : Nat) : State :=
  match pageOfRes code idx with
  | some p => s.wr p 0x00C (BitVec.ofNat 32 (agent * 65536))
  | none =>
    let rest := s.host.owners.filter (fun o => o.1 ≠ (code, idx))
    { s with host := { s.host with owners := if agent = 0 then rest else ((code, idx), agent) :: rest } }

/-- The lane and quad of a channel (R84). -/
def chanQuad (c : Nat) : Nat := c / 4
def chanLane (c : Nat) : Nat := c % 4

end Sys2Proof.Machine
end

