-- ==== Sys2Proof/Machine/Flags.lean ====
section
/-! DEFINITION. Status bits that report: interrupt causes and MSI-X messages (R55), ERR_STATUS bits and the fault events
they raise (R296), and records on the device-to-host rings (R50 to R54). -/

namespace Sys2Proof.Machine

/-- Whether a page has a pending interrupt cause on vector `v` (R55), or in DISTRIBUTED mode a nonzero ERR_STATUS (R308): only
pages with a listed IRQ_STATUS or ERR_STATUS can have one. -/
def State.pagesPending (s : State) (v : Nat) : Bool :=
  s.regs.any (fun e =>
    ((e.1 % 4096 == 0x018 && andN e.2.toNat (s.rd (e.1 / 4096) 0x01C).toNat != 0) ||
      (e.1 % 4096 == 0x024 && s.flag pGUTTER GUTTER.STATUS.MODE)) && bitsOf (s.rd (e.1 / 4096) 0x020).toNat 5 0 == v)

/-- Whether ring `r` is on vector `v` with records pending (R55). -/
def State.ringPending (s : State) (r v : Nat) : Bool :=
  (s.ring r).pend != 0 && s.get pHOSTQ (HOSTQ.RING_CFG.VECTOR r) == v

/-- Whether the union of the pending sets on a vector is non-empty (R55). -/
def State.vectorPending (s : State) (v : Nat) : Bool :=
  s.pagesPending v || (List.range 32).any (fun r => s.ringPending r v)

/-- Whether the endpoint can send a message: present, linked, out of PERST_N and D3hot (R28, R31). -/
def State.pcieUp (s : State) : Bool :=
  !s.flag pDEV DEV.STATUS.HOST_SEL && s.host.linkUp && !s.host.perst && !s.host.d3hot

/-- Send the message of a vector: every ring on it empties its pending set (R55). The message of a masked vector waits in its pending bit
(R29; DESIGN CHOICE, log 104). -/
def State.sendMsix (s : State) (v : Nat) : State :=
  if s.pcieUp then
    { s with
      out := if s.host.vecMasked.contains v then s.out else .msix v :: s.out
      host := { s.host with
        vecPending := if s.host.vecMasked.contains v then v :: s.host.vecPending.filter (· ≠ v) else s.host.vecPending
        rings := (s.host.rings.zipIdx).map (fun (r, i) =>
        if s.get pHOSTQ (HOSTQ.RING_CFG.VECTOR i) == v then { r with pend := 0 } else r) }
      msixOwed := s.msixOwed.filter (· ≠ v) }
  else s

/-- Whether ring `r` has met its moderation (R55): no hold, or MOD_COUNT records (1 when it is 0). -/
def State.modMet (s : State) (r : Nat) : Bool :=
  s.get pHOSTQ (HOSTQ.RING_CTRL.MOD_TIME r) == 0 ||
    decide (max 1 (s.get pHOSTQ (HOSTQ.RING_CTRL.MOD_COUNT r)) ≤ (s.ring r).pend)

/-- After a write that clears or enables causes: if the union of the vector is still non-empty the message is sent
again, subject to the moderation of rings (R55). -/
def State.resend (s : State) (v : Nat) : State :=
  if s.pagesPending v || (List.range 32).any (fun r => s.ringPending r v && s.modMet r) then s.sendMsix v
  else if (List.range 32).any (fun r => s.ringPending r v) then { s with msixOwed := v :: s.msixOwed.filter (· ≠ v) }
  else { s with msixOwed := s.msixOwed.filter (· ≠ v) }

/-- Set interrupt cause `bit` of a page; the message goes when the union changes from empty to non-empty (R37, R55). -/
def State.irq (s : State) (p bit : Nat) : State :=
  let v := bitsOf (s.rd p 0x020).toNat 5 0
  let s1 := s.wr p 0x018 (BitVec.ofNat 32 (setBit (s.rd p 0x018).toNat bit))
  if !s.vectorPending v && s1.vectorPending v then s1.sendMsix v else s1

/-- Set ERR_STATUS `bit` of a page; a fault event goes to the Gutter's collector (R37, R296), or in DISTRIBUTED mode to
the page's vector (R308). -/
def State.err (s : State) (p bit : Nat) : State :=
  let v := bitsOf (s.rd p 0x020).toNat 5 0
  let s1 := s.wr p 0x024 (BitVec.ofNat 32 (setBit (s.rd p 0x024).toNat bit))
  let s2 := match (pageBlock p).bind (fun b => sourceOf b.1 bit) with
    | some k => { s1 with faultEvents := s1.faultEvents ++ [⟨p, bit, false, false, k, s.clk.slot⟩] }
    | none => s1
  if s2.flag pGUTTER GUTTER.STATUS.MODE && !s.vectorPending v && s2.vectorPending v then s2.sendMsix v else s2

/-- Whether an ERR_STATUS bit is set. -/
def State.errSet (s : State) (p bit : Nat) : Bool := bitOf (s.rd p 0x024).toNat bit

/-! ### Rings -/

/-- The enabled ring that binds an input, queue or class (R50). -/
def State.ringFor (s : State) (kind bind : Nat) : Option Nat :=
  (List.range 32).find? (fun r => s.flag pHOSTQ (HOSTQ.RING_CTRL.ENABLE r) &&
    s.get pHOSTQ (HOSTQ.RING_CFG.KIND r) == kind && s.get pHOSTQ (HOSTQ.RING_CFG.BIND r) == bind)

/-- Elements of ring `r` that the device may still write (R51). -/
def State.ringRoom (s : State) (r : Nat) : Nat :=
  2 ^ s.get pHOSTQ (HOSTQ.RING_CFG.LOG2_ENTRIES r) -
    (s.get pHOSTQ (HOSTQ.DEV_IDX.DEV_IDX r) + 2 ^ 32 - s.get pHOSTQ (HOSTQ.DOORBELL.HOST_IDX r)) % 2 ^ 32

/-- Bytes of an element, by ELEM (R49). -/
def elemBytes (elem : Nat) : Nat := match elem with | 0 => 8 | 1 => 32 | _ => 64

/-- Host address of element `i` of ring `r`: BASE + (i mod 2^n) x ELEM (R51). -/
def State.elemAddr (s : State) (r i : Nat) : Nat :=
  s.get pHOSTQ (HOSTQ.RING_BASE.BASE r) + i % 2 ^ s.get pHOSTQ (HOSTQ.RING_CFG.LOG2_ENTRIES r) * elemBytes (s.get pHOSTQ (HOSTQ.RING_CFG.ELEM r))

/-- Element `i` of ring `r` as it goes to host memory, little-endian (R4, R51). -/
def State.elemOut (s : State) (r i elem : Nat) : Out :=
  .ringElem r (s.elemAddr r i) (leDigits 8 (elemBytes (s.get pHOSTQ (HOSTQ.RING_CFG.ELEM r))) elem)

/-- Write one element at DEV_IDX and advance it (R51). -/
def State.ringPut (s : State) (r elem : Nat) : State :=
  (s.emit (s.elemOut r (s.get pHOSTQ (HOSTQ.DEV_IDX.DEV_IDX r)) elem)).incWrap pHOSTQ (HOSTQ.DEV_IDX.DEV_IDX r)

/-- The index writeback that follows the elements it covers, where the ring has one: DEV_IDX in [31:0] and the writeback counter in
[63:32], little-endian (R4, R51). DESIGN CHOICE (log 94): the counter starts at 0 at reset and runs on when the ring is enabled again. -/
def State.ringWriteback (s : State) (r : Nat) : State :=
  if s.get pHOSTQ (HOSTQ.RING_WB.WB r) = 0 then s
  else
    let x := s.ring r
    (s.emit (.ringWb r (s.get pHOSTQ (HOSTQ.RING_WB.WB r)) (leDigits 8 8 (s.get pHOSTQ (HOSTQ.DEV_IDX.DEV_IDX r) + 2 ^ 32 * x.wbCount)))).setRing r
      { x with wbCount := wrapAdd 32 x.wbCount 1 }

/-- Count `n` more records pending on ring `r` and send or hold the vector's message (R55). -/
def State.ringNotify (s : State) (r : Nat) : State :=
  let v := s.get pHOSTQ (HOSTQ.RING_CFG.VECTOR r)
  let was := s.vectorPending v
  let x := s.ring r
  let s1 := s.setRing r { x with pend := x.pend + 1, pendSince := if x.pend = 0 then s.clk.slot else x.pendSince }
  if was then
    if s1.msixOwed.contains v && s1.modMet r then s1.sendMsix v else s1
  else if s1.modMet r then s1.sendMsix v
  else { s1 with msixOwed := v :: s1.msixOwed.filter (· ≠ v) }

/-- Whether ring `r` takes no writes now: stopped, or the endpoint cannot reach host memory (R53). -/
def State.ringStopped (s : State) (r : Nat) : Bool := s.flag pHOSTQ (HOSTQ.RING_CTRL.STOPPED r)

/-- Write one record, of one or more elements, to ring `r`: held while the ring is stopped or full, up to 64 records,
and counted in RING_LOST beyond (R53, R54). -/
def State.ringRecord (s : State) (r : Nat) (rec : List Nat) : State :=
  let x := s.ring r
  if s.ringStopped r || !x.held.isEmpty || decide (s.ringRoom r < rec.length) then
    if x.held.length < 64 then s.setRing r { x with held := x.held ++ [rec] }
    else s.incSat pHOSTQ (HOSTQ.RING_LOST.LOST r)
  else ((s.forEach rec (fun e s => s.ringPut r e)).ringWriteback r).ringNotify r

/-- Write the held records of a running ring while they fit (R54). -/
def State.ringDrain : Nat → Nat → State → State
  | 0, _, s => s
  | k + 1, r, s =>
    match (s.ring r).held with
    | [] => s
    | rec :: rest =>
      if s.ringStopped r || decide (s.ringRoom r < rec.length) then s
      else State.ringDrain k r
        ((((s.setRing r { s.ring r with held := rest }).forEach rec (fun e s => s.ringPut r e)).ringWriteback r).ringNotify r)

/-- Write an event record to the EVENT ring of a class; with no ring enabled for the class it is dropped (R50, R53). -/
def State.event (s : State) (cls : Nat) (rec : List Nat) : State :=
  match s.ringFor 5 cls with
  | some r => s.ringRecord r rec
  | none => s

/-- Put fields into a record: (low bit, width, value). -/
def packRec (fs : List (Nat × Nat × Nat)) : Nat := fs.foldl (fun a f => a + 2 ^ f.1 * (f.2.2 % 2 ^ f.2.1)) 0

end Sys2Proof.Machine
end

