-- ==== Sys2Proof/Machine/Gov.lean ====
section
/-! DEFINITION. Which register an offset names, and whose leave a write of it needs (R36, R42, R43, R45). -/

namespace Sys2Proof.Machine

/-- The register at an offset of the lower half of a page: block, instance, description, index and word. -/
def regAt (p o : Nat) : Option (Kind × Nat × RegDesc × Nat × Nat) :=
  match pageBlock p with
  | none => none
  | some b => match findReg (kindRegs b.1) (o - o % 4) with
    | none => none
    | some r => some (b.1, b.2, r.1, r.2.1, r.2.2)

/-- What governs a write: nothing; a resource that only its owner writes, and no one while it is free; a page that only its
owner writes while it has one; the owners of several resources; or a right the writer has or lacks. -/
inductive Gov where
  | open_
  | held (o : Nat)
  | page (o : Nat)
  | all (os : List Nat)
  | right (ok : Bool)
deriving DecidableEq, Repr

/-- The refusal that a writer meets under a rule, with the owner in DETAIL. -/
def Gov.refusal (g : Gov) (agent : Nat) : Option Verdict :=
  match g with
  | .open_ => none
  | .held o => if o = agent ∧ o ≠ 0 then none else some ⟨.denied, some o⟩
  | .page o => if o = agent ∨ o = 0 then none else some ⟨.denied, some o⟩
  | .all os => (os.find? (fun o => o != agent)).map (fun o => ⟨.denied, some o⟩)
  | .right ok => if ok then none else some ⟨.denied, some 0⟩

/-- The owner of what a write under a rule writes, with the page's owner where the rule names none (R40). -/
def Gov.owner (g : Gov) (agent page : Nat) : Nat :=
  match g with
  | .open_ => page
  | .held o => o
  | .page o => o
  | .all os => (os.find? (fun o => o != agent)).getD (os.headD page)
  | .right _ => 0

/-- The lines of TRIG whose CAPTURE_EN bit a write changes. -/
def changedLines (old new : Nat) : List Nat := (List.range 64).filter (fun n => bitOf old n != bitOf new n)

/-- What governs a write of value `v` to the register at `base`, index `j`, of a page (R43, R45 and the chapters of the
blocks). DESIGN CHOICE (log 22): CONTROL.SAFE_EXIT of the SCHED page, which R143 gives to the agent of the held queues, is refused with DENIED
(R43) while another agent owns that page. -/
def State.governs (s : State) (c : WCtx) (k : Kind) (base j : Nat) : Gov :=
  let owner := s.pageOwner c.page
  if base = 0x00C then .open_
  else match k with
  | .chan => .held owner
  | .aux => .held owner
  | .cal => .held owner
  | .seq => .held owner
  | .phase => .held owner
  | .tin => if base = TIN.CDT_SEL.off then .open_ else .held owner
  | .quad =>
    if base = QUAD.VCT_SEL.off then .open_
    else if base = QUAD.BOARD_DELAY.off 0 ∨ base = QUAD.BOARD_UNC.off 0 ∨ (0x180 ≤ base ∧ base < 0x1C0) then
      .held (s.resOwner 1 (4 * c.inst + j))
    else if base = QUAD.SPACING_DROPS.off 0 ∧ s.resOwner 1 (4 * c.inst + j) = c.agent then .open_
    else .page owner
  | .own =>
    if base = OWN.WINDOW.off 0 ∨ base = OWN.BAR2_AGENT.off ∨ base = OWN.REMOTE_CTL.off then .right c.admin
    else if base = OWN.LEASE_PERIOD.off 0 ∨ base = OWN.LEASE_CTL.off 0 then
      if c.admin then .open_ else .held (s.get pOWN (OWN.WINDOW.AGENT j))
    else .open_
  | .trig =>
    if base = TRIG.LAST_SEL.off then .open_
    else if base = TRIG.TL_SRC.off 0 ∨ base = TRIG.TL_SHAPE.off 0 then .held (s.resOwner 4 j)
    else if base = TRIG.HOST_FIRE.off then .held (s.resOwner 4 (bitsOf c.v 13 8))
    else if base = TRIG.CAPTURE_EN.off then .all ((changedLines (s.get pTRIG TRIG.CAPTURE_EN.LINES) c.v).map (fun n => s.resOwner 4 n))
    else .page owner
  | .sched =>
    if base = SCHED.SUBMIT_BUF.off then .open_
    else if base = SCHED.SUBMIT_CMD.off then .held (s.resOwner 5 (bitsOf c.v 11 8))
    else if 0x400 ≤ base then .held (s.resOwner 11 j)
    else if 0x040 ≤ base ∧ base < 0x240 then .held (s.resOwner 5 j)
    else .page owner
  | .hostq => if 0x040 ≤ base ∧ base < 0x440 then .held (s.resOwner 6 j) else .page owner
  | .tdc => if base = TDC.RESULT_SEL.off then .open_ else .page owner
  | .xo => if base = XO.FIT_CTL.off ∧ c.admin then .open_ else .page owner
  | .gutter =>
    -- OWNER_ID does not govern ENTER_SAFE, which host software may issue at any time (R301, R310).
    if base = GUTTER.GUTTER_CMD.off ∧ bitsOf c.v 7 0 = 2 then .open_ else .page owner
  | _ => .page owner

end Sys2Proof.Machine
end

