-- ==== Sys2Proof/Machine/Teb.lean ====
section
/-! DEFINITION. The bound of the timescale and of what the T48 produces (chapter 10, R237 to R240). Every term is
rounded up and sums saturate (R16). -/

namespace Sys2Proof.Machine

/-- u_free in units of 10^-15 (R238): 10^-6 until the oven is first STABLE, 10^-7 after. -/
def State.uFree (s : State) : Nat := if s.teb.stableAt.isSome then 10 ^ 8 else 10 ^ 9

/-- Time from `a` to `b` in SU, not negative. -/
def since (a b : Int) : Nat := (b - a).toNat

/-- The growth of the bound under SEED (R237): u_free over the time since the seed, its part before the oven was first STABLE at 10^-6, so
that nothing is lowered there (R239). -/
def State.seedGrowth (s : State) (t : Int) : Nat :=
  match s.teb.stableAt with
  | none => psOfFreq (10 ^ 9) (since s.teb.tSeed t)
  | some c => psOfFreq (10 ^ 9) (min (since s.teb.tSeed t) (since s.teb.tSeed c)) + psOfFreq (10 ^ 8) (since (max c s.teb.tSeed) t)

/-- A bound before saturation, none if it is unknown (R16), and its register format. -/
def knownTeb (r : Nat) : Option Nat := if r = tebUnknown then none else some r
def satTeb (b : Option Nat) : Nat := min (b.getD tebUnknown) tebUnknown

/-- A sum of terms; any unknown term makes it unknown (R16). -/
def sumTeb : List (Option Nat) → Option Nat
  | [] => some 0
  | none :: _ => none
  | some a :: l => (sumTeb l).map (a + ·)

/-- The holdover term of R219 at `tau` SU after HOLD_ENTRY, in ps; unknown while the oven is in FAULT. -/
def State.holdTerm (s : State) (tau : Nat) : Option Nat :=
  if s.get pXO XO.STATUS.OVEN = 3 then none
  else (knownTeb (s.get pSERVO SERVO.HOLD_U_Y.U_Y)).map (fun u => psOfFreq u tau +
    ceilDiv (s.get pXO XO.U_A.U * tau * tau) (2 * 10 ^ 6 * (suNs * suNs) * 10 ^ 18) + ceilDiv s.teb.holdTemp.sum 256000)

/-- FREQ_UNC of the reference of FREQ_ONLY as at its entry, and the holdover term with it (R220, R239). -/
def State.freqUnc (s : State) : Nat := s.teb.freqUnc
def State.freqTerm (s : State) (t : Int) : Option Nat := (knownTeb s.freqUnc).map (fun u => psOfFreq u (since s.teb.tTime t))

/-- PATH_TERM: PATH_WIDEN while a path event is open (R238). -/
def State.pathTerm (s : State) : Nat :=
  if s.flag pDOMAIN DOMAIN.PATH_EVENT.OPEN then s.get pDOMAIN DOMAIN.PATH_WIDEN.PS else 0

/-- slew_left at the present slot, in SU: what remains of the slew at its last change of rate less what it has made since
(R217). -/
def State.slewLeft (s : State) : Int :=
  roundEven (s.servo.slewLeft32 - roundEven (s.servo.slewEff * ((s.clk.slot : Int) - s.servo.slewSlot) * suSlot) (2 ^ 28)) (2 ^ 32)

/-- The selected reference. -/
def State.selected (s : State) : Nat := s.get pREFSEL REFSEL.STATUS.SELECTED

/-- u_y of the timescale under a rule of R237 at instant `t`, in units of 10^-15; 0xFFFFFFFF unknown (R238). -/
def State.uyRule (s : State) (basis : Nat) (t : Int) : Nat :=
  match basis with
  | 1 => s.uFree
  | 2 => s.teb.uyRef
  | 4 => s.get pSERVO SERVO.HOLD_U_Y.U_Y +
      ceilDiv (s.get pXO XO.U_A.U * since (s.getInst pSERVO SERVO.HOLD_ENTRY.INSTANT) t) (1000 * suSec)
  | 5 => s.freqUnc
  | _ => 0xFFFFFFFF

/-- While SLEWING the rule in force before the adoption continues (R237). -/
def State.uyBasis (s : State) (basis : Nat) (t : Int) : Nat := s.uyRule (if basis = 3 then s.teb.prevBasis else basis) t

/-- The basis of the timescale's bound (TSC.STATUS.BASIS). -/
def State.basis (s : State) : Nat := s.get pTSC TSC.STATUS.BASIS

/-- u_y of the timescale at `t` (R238), saturated to its register. -/
def State.uy (s : State) (t : Int) : Nat := min (s.uyBasis s.basis t) 0xFFFFFFFF

/-- The rule of one basis, at instant `t` in SU (the table of R237), without PATH_TERM and before saturation. -/
def State.tebRule (s : State) (basis : Nat) (t : Int) : Option Nat :=
  match basis with
  | 1 => sumTeb [s.teb.seed, some (s.seedGrowth t)]
  | 2 => sumTeb [knownTeb (s.get pTSC TSC.REF_TERM.PS), knownTeb (s.get pTSC TSC.SERVO_TERM.PS),
      (knownTeb s.teb.uyRef).map (fun u => psOfFreq u (t - s.teb.tObs).natAbs)]
  | 4 => sumTeb [s.teb.hold0, s.holdTerm (since (s.getInst pSERVO SERVO.HOLD_ENTRY.INSTANT) t)]
  | 5 => sumTeb [s.teb.hold0, s.freqTerm t]
  | _ => none

/-- Whether PATH_TERM enters the rule of a basis: while a reference is frozen it does whatever the timescale rests on (R237, R249). -/
def hasPath (basis : Nat) : Bool := basis == 1 || basis == 2 || basis == 4 || basis == 5

/-- TEB_ts(t) before saturation, with `path` for the path term (R237): while SLEWING the rule in force before adoption, never less than
|slew_left| + b_k, nor than what an earlier slew that was cut short had left; an explicit STEP outside FREERUN adds its size until the next observation used (R239). -/
def State.tebWith (s : State) (path : Nat) (t : Int) : Option Nat :=
  let rule (b : Nat) := sumTeb [s.tebRule b t, some (if hasPath b then path else 0)]
  let base := if s.basis = 3 then
      (rule s.teb.prevBasis).bind (fun a => (knownTeb s.teb.bK).map (fun b => max (max a (psOfSu s.slewLeft.natAbs + b)) s.teb.floor))
    else rule s.basis
  sumTeb [base, some s.teb.stepAdd]

/-- TEB_ts(t) before saturation, and without the path term, for the verdicts of R249. -/
def State.tebWide (s : State) (t : Int) : Option Nat := s.tebWith (s.pathTerm + s.teb.pathHeld) t
def State.tebBare (s : State) (t : Int) : Nat := satTeb (s.tebWith 0 t)

/-- TEB_ts(t) (R237). -/
def State.tebTs (s : State) (t : Int) : Nat := satTeb (s.tebWide t)

/-- Bound of an event of bound `b` at `e` carried to instant `t`, with u_y as it is now, when the codes are computed (R240, second
row). -/
def State.tebFrom (s : State) (b : Nat) (e t : Int) : Nat :=
  if s.uy s.now = 0xFFFFFFFF then tebUnknown else tebAdd b (psOfFreq (s.uy s.now) (t - e).natAbs)

/-- LANE_BOUND_l of a channel's lane (R81). -/
def State.laneBound (s : State) (c : Nat) : Nat := s.get (pQUAD (chanQuad c)) (QUAD.LANE_BOUND.BOUND_PS (chanLane c))

/-- The bound of an edge at target `t` on channel `c` (R240). -/
def State.edgeTeb (s : State) (c : Nat) (basis : EdgeBasis) (t : Int) : Nat :=
  match basis with
  | .own => tebAdd (s.tebTs t) (s.laneBound c)
  | .event b e => tebAdd (s.tebFrom b e t) (s.laneBound c)
  | .mirror b off =>
    if s.uy s.now = 0xFFFFFFFF then tebUnknown else tebAdd (tebAdd b (psOfFreq (s.uy s.now) off)) (s.laneBound c)

end Sys2Proof.Machine
end

