-- ==== Sys2Proof/Machine/Place.lean ====
section
/-! DEFINITION. Placement arithmetic: from a target instant to the raw grid and the engine's codes (R22, R23, R62, R66,
R67). -/

namespace Sys2Proof.Machine

/-- The smallest spacing of edges on a lane, 300 ps rounded up to 1 SU (R61). -/
abbrev minSpacing : Int := 19661

/-- The raw grid position of a placement target, in SU from the anchor: round_even(d / (1 + y)) (R22). -/
def rawGrid (c : ClockSt) (t32 : Int) : Int :=
  roundEven ((t32 - c.anchorT32) * 2 ^ 28) (2 ^ 60 + c.y).toNat

/-- Remainder within the TCLK period to PQ, with the error term carried (R22, R23); in Stage 2 whole phase steps and no
dither (R67). Answers the placed remainder in SU, carries included, and the new error term. -/
def placeRemainder (coarse dither : Bool) (e f : Int) : Int × Int :=
  if coarse then (2560 * roundEven f 2560, 0)
  else if dither then (8 * roundEven (f + e) 8, f + e - 8 * roundEven (f + e) 8)
  else (8 * roundEven f 8, e)

/-- The placed raw position of a target, in SU from TCLK count zero, and the error term after it (R22, R23). The carry
chain of R22 is the carry of this number: TCLK count = position div 40 960, PQ = position mod 40 960 div 8. -/
def place (c : ClockSt) (coarse dither : Bool) (e : Int) (t32 : Int) : Int × Int :=
  let r := rawGrid c t32
  let p := placeRemainder coarse dither e (r % 40960)
  (40960 * (c.anchorN + r / 40960) + p.1, p.2)

/-- TCLK count, phase and vernier code of a placed position (R22). -/
def codeCount (pos : Int) : Int := pos / 40960
def codePhase (pos : Int) : Nat := (pos % 40960 / 8 / 320).toNat
def codeVernier (pos : Int) : Nat := (pos % 40960 / 8 % 320).toNat

/-- The slot a placed position falls in (R22). -/
def posSlot (pos : Int) : Int := pos / (8 * 40960)

/-- The first position the engine can place at or after `p`: the first PQ, or the first whole phase step in Stage 2
(R87). -/
def nextPlaceable (coarse : Bool) (p : Int) : Int := if coarse then (p + 2559) / 2560 * 2560 else (p + 7) / 8 * 8

/-- The delay-line code of a placed position in an engine with a table set (R66); the vernier is off without one. -/
def rawCode (t : Option TableSet) (pos : Int) : Int :=
  match t with
  | some s => (s.vct.getD (codeVernier pos) 0 : Nat) + s.trim.getD (codePhase pos) 0
  | none => 0

/-- Engine that drives a lane of a quad (R60). -/
def State.laneEngine (s : State) (q l : Nat) : Nat := bitsOf (s.get (pQUAD q) QUAD.ENGINE_MAP.LANE_ENGINE) (4 * l + 2) (4 * l)

/-- The delay terms of an edge on a channel: BOARD_DELAY + ENGINE_TERM + LANE_TERM for its sense, in SU (R62). -/
def State.delayTerms (s : State) (c e : Nat) (rising : Bool) : Int :=
  let q := chanQuad c
  let l := chanLane c
  s.getSpan (pQUAD q) (QUAD.BOARD_DELAY.SPAN l) +
    (if rising then s.getI (pQUAD q) (QUAD.ENGINE_TERM.RISE_SU e) + s.getI (pQUAD q) (QUAD.LANE_TERM.RISE_SU l)
     else s.getI (pQUAD q) (QUAD.ENGINE_TERM_2.FALL_SU e) + s.getI (pQUAD q) (QUAD.LANE_TERM_2.FALL_SU l))

/-- The placement target of an edge, in 2^-32 SU (R62). -/
def State.placementTarget (s : State) (c e : Nat) (rising : Bool) (t32 : Int) : Int :=
  t32 - s.delayTerms c e rising * fine

/-- Whether the engines of a quad place in whole phase steps (R67). -/
def State.coarse (s : State) (q : Nat) : Bool := s.flag (pQUAD q) QUAD.STATUS.COARSE

/-! ### Factory terms of CALDATA (R67, R79, R83, R97, R166, R167) -/

/-- Put words into the registers that hold them. -/
def State.putTerms (s : State) (l : List (Nat × Nat × Nat)) : State := s.forEach l (fun t s => s.wr t.1 t.2.1 (BitVec.ofNat 32 t.2.2))

/-- Whether a register word comes from CALDATA (the reset column of R79, R83, R176, R234, R267). -/
def factoryWord (p o : Nat) : Bool :=
  match pageBlock p with
  | some (.quad, _) => decide (0x080 ≤ o ∧ o < 0x0A8) || decide (0x0C0 ≤ o ∧ o < 0x0E0)
  | some (.cal, _) => o == 0x044 || o == 0x048 || o == 0x06C
  | some (.tin, _) => o == 0x060 || o == 0x064 || o == 0x070 || o == 0x074 || decide (0x500 ≤ o ∧ o < 0x580)
  | some (.xo, _) => o == 0x040 || o == 0x050 || o == 0x054 || o == 0x058 || o == 0x084
  | some (.rdg, _) => o == 0x084 || o == 0x088
  | _ => false

/-- The CALDATA value of a register word; zero where the image in force names none. -/
def State.factoryAt (s : State) (p o : Nat) : Nat :=
  match s.power.factory.find? (fun t => t.1 == p && t.2.1 == o) with
  | some t => t.2.2
  | none => 0

/-- The term of CALDATA under a setting, if the image in force has one. -/
def State.formTerm (s : State) (k : FormKey) : Option FormTerm := s.power.forms.find? (fun t => t.key == k)

/-- Put a pair of terms for rising and falling edges, if there is one. -/
def State.putForm (s : State) (p : Nat) (rise fall : Fld) (t : Option FormTerm) : State :=
  match t with
  | some t => (s.putI p rise t.rise).putI p fall t.fall
  | none => s

/-- LANE_TERM of a channel's lane for its selected format (R97). -/
def State.laneForm (s : State) (c : Nat) : State :=
  s.putForm (pQUAD (chanQuad c)) (QUAD.LANE_TERM.RISE_SU (chanLane c)) (QUAD.LANE_TERM_2.FALL_SU (chanLane c))
    (s.formTerm (.lane c (s.get (pCHAN c) CHAN.OUT_CFG.FORMAT)))

/-- LOOP_TERM for the lane and format of LOOP_CHAN (R83). -/
def State.loopForm (s : State) : State :=
  s.putForm pCAL CAL.LOOP_TERM_RISE.TERM_SU CAL.LOOP_TERM_FALL.TERM_SU
    (s.formTerm (.loop (s.get pCAL CAL.LOOP_CFG.LOOP_CHAN) (s.get (pCHAN (s.get pCAL CAL.LOOP_CFG.LOOP_CHAN)) CHAN.OUT_CFG.FORMAT)))

/-- INPUT_TERM of an input for its INPUT_MODE and TERM (R166). -/
def State.inputForm (s : State) (i : Nat) : State :=
  s.putForm (pTIN i) TIN.INPUT_TERM_RISE.TERM_SU TIN.INPUT_TERM_FALL.TERM_SU
    (s.formTerm (.input i (s.get (pTIN i) TIN.IN_CFG.INPUT_MODE) (s.get (pTIN i) TIN.IN_CFG.TERM)))

/-- Every term of CALDATA that follows a setting, for the settings as they stand. -/
def State.putForms (s : State) : State :=
  ((s.forEach (List.range 48) (fun c s => s.laneForm c)).loopForm).forEach (List.range 16) (fun i s => s.inputForm i)

end Sys2Proof.Machine
end

