-- ==== Sys2Proof/Machine/Apll.lean ====
section
/-! DEFINITION. APLL_A: frequency, ramps and the loss of its reference (chapter 9, R221 to R223). Frequencies are nominal:
the crystal counts 40 MHz, a reference channel its effective period. -/

namespace Sys2Proof.Machine

/-- STATE of APLL_A: 0 OFF, 1 LOCKING, 2 LOCKED, 3 RAMPING, 4 RELOCKING (R235). -/
def State.apllaState (s : State) : Nat := s.get pAPLL_A APLL_A.STATUS.STATE

/-- The reference frequency in Hz as a fraction (R221). -/
def State.refFreq (s : State) : Nat × Nat :=
  if s.flag pAPLL_A APLL_A.REF_CFG.REF_SRC then
    let c := s.get pAPLL_A APLL_A.REF_CFG.REF_CHAN
    (suSec * 2 ^ 32, max 1 ((s.getSpan (pCHAN c) CHAN.PERIOD.SPAN * fine + s.get (pCHAN c) CHAN.PERIOD_FRAC.FRAC).toNat))
  else (40000000, 1)

/-- N at present, in units of 2^-32: at rest, or along the ramp (R223). -/
def State.nNow (s : State) : Nat :=
  match s.aplla.ramp with
  | none => s.aplla.n
  | some r =>
    let el := s.clk.slot - r.slot
    if r.us * 200 ≤ el then r.target
    else (((r.start : Int) + ((r.target : Int) - r.start) * el / (r.us * 200 : Nat))).toNat

/-- The VCO frequency of an N word in Hz, as a fraction (R221). -/
def State.vco (s : State) (n : Nat) : Nat × Nat :=
  (s.refFreq.1 * n, s.refFreq.2 * max 1 (s.get pAPLL_A APLL_A.REF_CFG.PRE_DIV) * 2 ^ 32)

/-- Whether f_pfd lies between 10 and 100 MHz (R221). -/
def State.pfdOk (s : State) : Bool :=
  let d := s.refFreq.2 * s.get pAPLL_A APLL_A.REF_CFG.PRE_DIV
  decide (10 * 10 ^ 6 * d ≤ s.refFreq.1) && decide (s.refFreq.1 ≤ 100 * 10 ^ 6 * d)

/-- Whether f_vco of an N word lies between 5.0 and 6.4 GHz (R221). -/
def State.vcoOk (s : State) (n : Nat) : Bool :=
  decide (5 * 10 ^ 9 * (s.vco n).2 ≤ (s.vco n).1) && decide ((s.vco n).1 ≤ 64 * 10 ^ 8 * (s.vco n).2)

/-- Whether APLL_A carries its outputs (R224). -/
def State.apllaLocked (s : State) : Bool := s.apllaState == 2 || s.apllaState == 3

/-- The triangular spread in force in the present slot, as a fraction (R226): DOWN from f to f (1 - d) and back, CENTRE about f. -/
def State.spread (s : State) : Nat × Nat :=
  let p := 200000000
  let x := (s.clk.slot - s.aplla.sscSlot) * s.aplla.sscRate % p
  let depth := bitsOf s.aplla.ssc 6 0
  if !bitOf s.aplla.ssc 31 then (1, 1)
  else if bitsOf s.aplla.ssc 17 16 = 0 then (10000 * p - depth * 2 * min x (p - x), 10000 * p)
  else ((((10000 * p : Nat) : Int) + depth * (if 4 * x < p then 4 * (x : Int) else if 4 * x < 3 * p then 2 * (p : Int) - 4 * x else 4 * (x : Int) - 4 * p)).toNat, 10000 * p)

/-- The VCO cycles of the present slot in units of 2^-64 (R221): the crystal counts raw time, a reference channel the timescale, which runs
faster by y. A relock is reached from the frequency before it. -/
def State.vcoStep (s : State) : Nat :=
  let v := s.vco (if s.apllaLocked then s.nNow else s.aplla.nOld)
  let y : Int := if s.flag pAPLL_A APLL_A.REF_CFG.REF_SRC then s.clk.y else 0
  (roundEven ((v.1 * 2 ^ 64 * s.spread.1 : Nat) * (2 ^ 60 + y)) (max 1 (v.2 * 200000000 * s.spread.2 * 2 ^ 60))).toNat

/-- APLL_A over one slot, while it runs or an output completes its period. -/
def State.apllaSlot (s : State) : State :=
  if s.apllaState = 0 ∧ s.auxs.all (fun x => !x.running) then s
  else { s with aplla := { s.aplla with phase := s.aplla.phase + s.vcoStep, step := s.vcoStep } }

/-- TARGET_INT and TARGET_FRAC as one word. -/
def State.targetN (s : State) : Nat := s.get pAPLL_A APLL_A.TARGET_INT.N_INT * 2 ^ 32 + s.get pAPLL_A APLL_A.TARGET_FRAC.N_FRAC

/-- APLL_A loses lock (R202, R224, R230): a ramp or profile ends where it is, and a relock starts by itself. -/
def State.apllaUnlock (s : State) : State :=
  let s1 := { s.put pAPLL_A APLL_A.STATUS.STATE 4 with aplla := { s.aplla with n := s.nNow, nOld := s.nNow, ramp := none, profile := false, profileDone := false, passes := 0 } }
  if s.apllaState = 2 ∨ s.apllaState = 3 then (s1.err pAPLL_A 0).irq pAPLL_A 1 else s1

/-- The reference channel has entered safe state (R222). -/
def State.apllaRefGone (s : State) (c : Nat) : State :=
  if s.apllaState ≠ 0 ∧ s.flag pAPLL_A APLL_A.REF_CFG.REF_SRC ∧ s.get pAPLL_A APLL_A.REF_CFG.REF_CHAN = c ∧ !s.aplla.refLost then
    let s1 := s.apllaUnlock.err pAPLL_A 1
    { s1 with aplla := { s1.aplla with refLost := true } }
  else s

end Sys2Proof.Machine
end

