-- ==== Sys2Proof/Machine/Chan.lean ====
section
/-! DEFINITION. Channels: modes, entries, pulses, responses, the issue and launch of edges and channel safe state
(chapter 4, R84 to R105; R61 and R370 of chapter 3). -/

namespace Sys2Proof.Machine

/-- The mode in effect: OFF while the channel is disabled (R86). -/
def State.chanMode (s : State) (c : Nat) : Nat :=
  if s.flag (pCHAN c) CHAN.CONTROL.ENABLE then s.get (pCHAN c) CHAN.MODE_CFG.MODE else 0

/-- The settings with which an event is answered now (R86). -/
def State.chanSettings (s : State) (c : Nat) : ChanSettings :=
  ⟨s.chanMode c, s.get (pCHAN c) CHAN.MODE_CFG.TRIG_LINE, s.get (pCHAN c) CHAN.MODE_CFG.RETRIG,
   s.getSpan (pCHAN c) CHAN.DELAY.SPAN, s.getSpan (pCHAN c) CHAN.WIDTH.SPAN, s.getSpan (pCHAN c) CHAN.PERIOD.SPAN,
   s.get (pCHAN c) CHAN.COUNT.COUNT⟩

/-- The settings effective at an event instant: those before the first commit that lies after it (R86). -/
def settingsAt (h : List (Int × ChanSettings)) (now : ChanSettings) (t32 : Int) : ChanSettings :=
  match h with
  | [] => now
  | (c, old) :: rest => if t32 < c then old else settingsAt rest now t32

/-- IDLE_LEVEL as a Bool. -/
def State.idle (s : State) (c : Nat) : Bool := s.flag (pCHAN c) CHAN.LEVEL_CFG.IDLE_LEVEL

/-- P and H of CLOCK mode in 2^-32 SU (R93). -/
def State.clockPH (s : State) (c : Nat) : Int × Int :=
  let p := s.getSpan (pCHAN c) CHAN.PERIOD.SPAN * fine + s.get (pCHAN c) CHAN.PERIOD_FRAC.FRAC
  let h := s.getSpan (pCHAN c) CHAN.HIGH_TIME.SPAN
  (p, if h = 0 then roundEven p 2 else h * fine)

/-- Whether a trailing edge belongs to a leading edge still waiting to be issued. -/
def leadWaiting (w : List Edge) (e : Edge) : Bool :=
  match e.role with
  | .trail k => w.any (fun x => match x.role with | .lead k' _ => k' == k | _ => false)
  | _ => false

/-- Whether an edge is a trailing edge whose leading edge has been issued: it is kept when others are cancelled (R86). -/
def keptTrail (w : List Edge) (e : Edge) : Bool :=
  match e.role with
  | .trail _ => !leadWaiting w e
  | _ => false

/-- The level after a list of edges. -/
def levelAfter (l : Bool) (w : List Edge) : Bool :=
  w.foldl (fun l e => match e.kind with | .set b => b | .toggle => !l | _ => l) l

/-- Insert an edge by target, after those of the same target. -/
def insertEdge (e : Edge) : List Edge → List Edge
  | [] => [e]
  | x :: xs => if e.t32 < x.t32 then e :: x :: xs else x :: insertEdge e xs

/-- Queue an edge of one channel. -/
def State.queueEdge (s : State) (c : Nat) (e : Edge) : State :=
  s.setChan c { s.chan c with wait := insertEdge e (s.chan c).wait }

/-- Whether an edge is a mirror's copy (R95). -/
def Edge.isMirror (e : Edge) : Bool := e.origin == .mirror || e.origin == .mirClk

/-- A mirror's copy is dropped: MIRROR_DESYNC (R95). -/
def State.desync (s : State) (c : Nat) (e : Edge) : State := s.onlyIf e.isMirror (fun s => s.irq (pCHAN c) 3)

/-- The mirrors of a channel: MIRROR-mode channels that name it and are not in safe state (R95). -/
def State.mirrorsOf (s : State) (c : Nat) : List Nat :=
  (List.range 48).filter (fun m => s.chanMode m == 7 && s.get (pCHAN m) CHAN.MODE_CFG.MIRROR_SRC == c &&
    (s.chan m).safe.isEmpty && m != c)

/-- The part of a pulse that a mirror's copy plays: the pulses a mirror copies are numbered apart from its own, so that a pulse keeps its
width over a step (R104). -/
def EdgeRole.copied (r : EdgeRole) (src : Nat) : EdgeRole :=
  match r with
  | .single => .single
  | .lead k w => .lead (k + 1 + src) w
  | .trail k => .trail (k + 1 + src)

/-- The bound of a source's edge at `t32` less its LANE_BOUND (R240). -/
def State.sourceTeb (s : State) (t32 : Int) : EdgeBasis → Nat
  | .own => s.tebTs (roundEven t32 (2 ^ 32))
  | .event b e => s.tebFrom b e (roundEven t32 (2 ^ 32))
  | .mirror b o => if s.uy s.now = 0xFFFFFFFF then tebUnknown else tebAdd b (psOfFreq (s.uy s.now) o)

/-- Copy an edge of a source to its mirrors: the level the source programmed, OFFSET later, and none before a mirror's own entry allows
one (R86, R95). -/
def State.copyToMirrors (s : State) (c : Nat) (e : Edge) (high : Bool) : State :=
  s.forEach (s.mirrorsOf c) (fun m s =>
    let off := s.getSpan (pCHAN m) CHAN.OFFSET.SPAN
    let copy : Edge := ⟨e.t32 + off * fine, .set high, e.role.copied c, .mirror, .mirror (s.sourceTeb e.t32 e.basis) off.natAbs, none⟩
    if copy.t32 < (s.chan m).entry32 then s
    else if 4096 ≤ ((s.chan m).wait.filter (fun e => e.origin == .mirror)).length then
      (s.incSat (pCHAN m) CHAN.MIRROR_DROPS.COUNT).desync m copy
    else s.queueEdge m copy)

/-- An edge whose target becomes known: queued for issue and copied to the channel's mirrors; those of CLOCK mode are copied by the
mirror's own accumulator (R95). -/
def State.pushEdge (s : State) (c : Nat) (e : Edge) : State :=
  let before := levelAfter (s.chan c).nextLevel (s.chan c).wait
  let s1 := s.queueEdge c e
  if e.origin = .clock then s1
  else match e.kind with
    | .set b => s1.copyToMirrors c e b
    | .toggle => s1.copyToMirrors c e (!before)
    | _ => s1

/-- A pulse from a level and back, with the bases of its two edges (R87). -/
def State.pushPulseFrom (s : State) (c : Nat) (i : Bool) (t32 width32 : Int) (origin : EdgeOrigin) (lead trail : EdgeBasis) : State :=
  let ch := s.chan c
  let k := 64 * ch.ids
  let s1 := s.setChan c { ch with ids := ch.ids + 1 }
  (s1.pushEdge c ⟨t32, .set (!i), .lead k width32, origin, lead, none⟩).pushEdge c ⟨t32 + width32, .set i, .trail k, origin, trail, none⟩

/-- A pulse from IDLE_LEVEL and back (R87). -/
def State.pushPulse (s : State) (c : Nat) (t32 width32 : Int) (origin : EdgeOrigin) (basis : EdgeBasis) : State :=
  s.pushPulseFrom c (s.idle c) t32 width32 origin basis basis

/-! ### Accumulators (R93 to R96) -/

/-- First grid instant at or after `lim` of the grid through `o` with period `p`, all in 2^-32 SU (R94). -/
def firstGrid (o p lim : Int) : Int := if p ≤ 0 then lim else o + (lim - o + p - 1) / p * p

/-- A commit of PERIOD, WIDTH or ORIGIN within CAL mode: its pulses lie at ORIGIN + k PERIOD with the values last committed from
C + 1 024 ns on (R96). DESIGN CHOICE (log 89): the spec does not say when a new ORIGIN takes effect within CAL mode. -/
def State.calTurn (s : State) (c : Nat) : State :=
  match (s.chan c).clk32, (s.chan c).clkNext with
  | some a, some (lim, p, h) =>
    if s.chanMode c = 8 ∧ lim ≤ a then
      let g := firstGrid ((s.getInst (pCHAN c) CHAN.ORIGIN.INSTANT : Int) * fine) p lim
      s.setChan c { s.chan c with clk32 := some g, clkFrom32 := g, clkP32 := p, clkH32 := h, clkNext := none }
    else s
  | _, _ => s

/-- Form the next pulse of the accumulator of CLOCK, CAL or a mirrored clock (R93 to R96); each copied edge has the bound of its own source
edge (R240). -/
def State.nextClock (s : State) (c : Nat) : State :=
  let ch := s.chan c
  match ch.clk32 with
  | none => s
  | some a =>
    let ph : Int × Int := match ch.clkNext with
      | some (lim, p, h) => if lim ≤ a then (p, h) else (ch.clkP32, ch.clkH32)
      | none => (ch.clkP32, ch.clkH32)
    let turns := match ch.clkNext with | some (lim, _, _) => decide (lim ≤ a) | none => false
    let s1 := s.setChan c { ch with
      clk32 := some (a + ph.1), clkP32 := ph.1, clkH32 := ph.2
      clkNext := if turns then none else ch.clkNext
      clkFrom32 := if turns then a else ch.clkFrom32 }
    if s.chanMode c = 7 then
      let off := s.getSpan (pCHAN c) CHAN.OFFSET.SPAN
      let from_ (t32 : Int) : EdgeBasis := .mirror (s.tebTs (roundEven (t32 - off * fine) (2 ^ 32))) off.natAbs
      s1.pushPulseFrom c (s.idle (s.get (pCHAN c) CHAN.MODE_CFG.MIRROR_SRC)) a ph.2 .mirClk (from_ a) (from_ (a + ph.2))
    else (s1.pushPulse c a ph.2 (if s.chanMode c = 8 then .cal else .clock) .own).calTurn c

/-- The leading edge that the accumulator of a channel has not yet brought to its engine. -/
def ChanSt.nextLead (ch : ChanSt) (a : Int) : Int :=
  match ch.wait.find? (fun e => match e.role with | .lead _ _ => e.origin == .clock || e.origin == .mirClk | _ => false) with
  | some e => e.t32
  | none => a

/-- The accumulator of a mirror starts, or starts anew, on the grid of its source's accumulator, OFFSET later, at the first leading edge
at or after `lim` (R95). -/
def State.mirrorGrid (s : State) (m : Nat) (lim : Int) : State :=
  let src := s.get (pCHAN m) CHAN.MODE_CFG.MIRROR_SRC
  let x := s.chan src
  let off := s.getSpan (pCHAN m) CHAN.OFFSET.SPAN * fine
  match (if s.chanMode src = 4 ∧ x.safe.isEmpty then x.clk32 else none) with
  | some a => s.setChan m { s.chan m with
      clk32 := some (firstGrid (a + off) x.clkP32 (max lim (x.clkFrom32 + off))), clkP32 := x.clkP32, clkH32 := x.clkH32
      clkFrom32 := x.clkFrom32 + off, clkNext := x.clkNext.map (fun n => (n.1 + off, n.2)) }
  | none => s.setChan m { s.chan m with clk32 := none, clkNext := none }

/-- The accumulator of a mirror stops: it still copies the pulses whose leading edge the source has brought to its engine, which end
before `end32` (R95). -/
def State.mirrorStop (s : State) (m : Nat) (end32 : Int) : State :=
  match (s.chan m).clk32 with
  | none => s
  | some a =>
    let s1 := s.forEach (List.range ((end32 - a) / (81920 * fine) + 1).toNat) (fun _ s =>
      match (s.chan m).clk32 with
      | some a => if a < end32 then s.nextClock m else s
      | none => s)
    let late (e : Edge) : Bool := e.origin == .mirClk && (match e.role with
      | .lead _ _ => decide (end32 ≤ e.t32)
      | .trail k => (s1.chan m).wait.any (fun x => decide (end32 ≤ x.t32) && (match x.role with | .lead k' _ => k' == k | _ => false))
      | .single => false)
    s1.setChan m { s1.chan m with wait := (s1.chan m).wait.filter (fun e => !late e), clk32 := none, clkNext := none }

/-- The accumulators that copy a channel stop with it (R95, R105). -/
def State.mirrorsStop (s : State) (c : Nat) : State :=
  match (s.chan c).clk32 with
  | none => s
  | some a => s.forEach (s.mirrorsOf c) (fun m t => t.mirrorStop m ((s.chan c).nextLead a + t.getSpan (pCHAN m) CHAN.OFFSET.SPAN * fine))

/-- The accumulators that copy a channel start with it (R95). -/
def State.mirrorsStart (s : State) (c : Nat) : State :=
  if s.chanMode c = 4 then s.forEach (s.mirrorsOf c) (fun m s => s.mirrorGrid m (s.chan m).entry32) else s

/-! ### Entries (R86) -/

/-- Start the accumulator of a mode that has one, for an entry whose earliest edge is `lim` (R94, R95, R96). -/
def State.startGrid (s : State) (c : Nat) (lim : Int) : State :=
  let ch := s.chan c
  let o := (s.getInst (pCHAN c) CHAN.ORIGIN.INSTANT : Int) * fine
  match s.chanMode c with
  | 4 =>
    let ph := s.clockPH c
    let a := firstGrid o ph.1 (lim + (ph.1 - ph.2))
    s.setChan c { ch with clk32 := some a, clkFrom32 := a, clkP32 := ph.1, clkH32 := ph.2, clkNext := none }
  | 8 =>
    let p := s.getSpan (pCHAN c) CHAN.PERIOD.SPAN * fine
    let a := firstGrid o p lim
    s.setChan c { ch with clk32 := some a, clkFrom32 := a, clkP32 := p, clkH32 := s.getSpan (pCHAN c) CHAN.WIDTH.SPAN * fine, clkNext := none }
  | 7 => s.mirrorGrid c (lim + ((s.chan (s.get (pCHAN c) CHAN.MODE_CFG.MIRROR_SRC)).clkP32 - (s.chan (s.get (pCHAN c) CHAN.MODE_CFG.MIRROR_SRC)).clkH32))
  | _ => s.setChan c { ch with clk32 := none, clkNext := none }

/-- The resting-level edge of an entry (R86): placed if the level after the kept edges differs, or to turn the driver on
or off. -/
def State.restEdge (s : State) (c : Nat) (t32 : Int) : State :=
  let ch := s.chan c
  let lvl := levelAfter ch.nextLevel ch.wait
  let put (k : EdgeKind) (s : State) : State :=
    if s.chanMode c = 0 then s.queueEdge c ⟨t32, k, .single, .rest, .own, none⟩ else s.pushEdge c ⟨t32, k, .single, .rest, .own, none⟩
  match s.chanMode c with
  | 0 =>
    if s.flag (pCHAN c) CHAN.LEVEL_CFG.OFF_STATE then
      if lvl != s.idle c then put (.set (s.idle c)) s else if ch.nextDriven then s else put .on s
    else if ch.nextDriven then put .hiz s else s
  | 1 =>
    let l := s.flag (pCHAN c) CHAN.LEVEL_CFG.LEVEL
    if lvl != l then put (.set l) s else if ch.nextDriven then s else put .on s
  | _ => if lvl != s.idle c then put (.set (s.idle c)) s else if ch.nextDriven then s else put .on s

/-- Whether an edge is one that an action of SCHED mode places at `t32`, its pulse's leading edge (R139). -/
def schedEdge (t32 : Int) (e : Edge) : Bool :=
  e.origin == .sched && e.t32 == t32 && (match e.role with | .trail _ => false | _ => true)

/-- Whether a channel holds the edge of a dispatched action, its codes not issued (R155). -/
def State.schedWaits (s : State) (c : Nat) (t : Int) : Bool := (s.chan c).wait.any (schedEdge (t * fine))

/-- The edges of actions that a channel holds are lost with its leaving SCHED mode or with safe state (R145, R155). -/
def State.schedLost (s : State) (c : Nat) : State :=
  { s with sched := { s.sched with dispatched := s.sched.dispatched.map (fun d =>
      if d.handed && d.action.target == c && s.schedWaits c d.t then { d with lost := true } else d) } }

/-- The edges of a dispatched action that a channel holds move by `d32`, those of a pulse together (R147). -/
def State.schedMove (s : State) (c : Nat) (t32 d32 : Int) : State :=
  let w := (s.chan c).wait
  let moves (e : Edge) : Bool := schedEdge t32 e || (match e.role with
    | .trail k => w.any (fun x => schedEdge t32 x && (match x.role with | .lead k' _ => k' == k | _ => false))
    | _ => false)
  s.setChan c { s.chan c with wait := w.map (fun e => if moves e then { e with t32 := e.t32 + d32 } else e) }

/-- An entry at the SCLK edge C, `ahead` edges from the present one (R59, R86). -/
def State.chanEntry (s0 : State) (c ahead : Nat) : State :=
  let s := (s0.mirrorsStop c).schedLost c
  let ch := s.chan c
  let lim := tsAtCount32 s.clk (s.clk.tclk + 8 * ahead) + horizon32
  let s1 := s.setChan c { ch with
    wait := ch.wait.filter (keptTrail ch.wait)
    responses := []
    history := []
    dither := 0
    clk32 := none
    clkNext := none
    entrySlot := s.clk.slot + ahead + 205
    entry32 := lim }
  ((s1.restEdge c lim).startGrid c lim).mirrorsStart c

/-- A commit of a channel page that is not an entry, effective now: earlier events keep the old settings, and a
response to a later one that has placed no pulse takes the new; a new LEVEL places its edge, unless the channel is in safe state, which
holds SAFE_LEVEL; a new clock period waits for a leading edge, in the mirrors too; a new OFFSET of a mirrored clock takes its grid; the
grid of CAL mode turns (R86, R94 to R96, R98). DESIGN CHOICE (log 89): a new OFF_STATE in OFF leaves the driver as it is until the next entry. -/
def State.chanSettle (s : State) (c : Nat) (old : State) : State :=
  let ch := s.chan c
  let lim := s.now32 + horizon32
  let turn : Bool := s.chanMode c == 4 && s.clockPH c != old.clockPH c && ch.clk32.isSome
  let cal (s : State) : Nat × Int × Int :=
    (s.getInst (pCHAN c) CHAN.ORIGIN.INSTANT, s.getSpan (pCHAN c) CHAN.PERIOD.SPAN, s.getSpan (pCHAN c) CHAN.WIDTH.SPAN)
  let s1 := s.setChan c { ch with
    history := ch.history ++ [(s.now32, old.chanSettings c)]
    responses := ch.responses.map (fun r => if s.now32 ≤ r.at32 ∧ r.next = 0 then { r with set := s.chanSettings c } else r)
    clkNext := if turn then some (lim, (s.clockPH c).1, (s.clockPH c).2)
      else if s.chanMode c = 8 ∧ cal s ≠ cal old ∧ ch.clk32.isSome then some (lim, (cal s).2.1 * fine, (cal s).2.2 * fine) else ch.clkNext }
  let s2 := s1.onlyIf turn (fun s => s.forEach (s.mirrorsOf c) (fun m s => s.setChan m { s.chan m with
    clkNext := (s.chan m).clk32.map (fun _ => (lim + s.getSpan (pCHAN m) CHAN.OFFSET.SPAN * fine, (s.clockPH c).1, (s.clockPH c).2)) }))
  if !ch.safe.isEmpty then s2
  else if s.chanMode c = 1 ∧ s.flag (pCHAN c) CHAN.LEVEL_CFG.LEVEL ≠ old.flag (pCHAN c) CHAN.LEVEL_CFG.LEVEL then s2.restEdge c lim
  else if s.chanMode c = 7 ∧ ch.clk32.isSome ∧ s.getSpan (pCHAN c) CHAN.OFFSET.SPAN ≠ old.getSpan (pCHAN c) CHAN.OFFSET.SPAN then
    (s2.mirrorStop c lim).mirrorGrid c lim
  else s2.calTurn c

/-- What a commit of a CHAN page does once its registers are effective: `modeWritten` if the commit wrote MODE_CFG (R86).
It takes effect `ahead` SCLK edges from the present one. DESIGN CHOICE (log 89): in safe state such a commit changes the registers
alone; the entry is made by SAFE_EXIT. -/
def State.chanCommit (s : State) (c : Nat) (old : State) (modeWritten : Bool) (ahead : Nat) : State :=
  if modeWritten ∨ s.idle c ≠ old.idle c then
    if s.chan c |>.safe.isEmpty then s.chanEntry c ahead else s
  else s.chanSettle c old

/-! ### The pin (R62, R63, R75, R82) -/

/-- Sense of a transition to a logical level: the direction at the pin after POLARITY (R63). -/
def State.rising (s : State) (c : Nat) (high : Bool) : Bool := high != s.flag (pCHAN c) CHAN.OUT_CFG.POLARITY

/-- The raw position at which an edge of an engine reaches the output multiplexer: its launch plus ENGINE_TERM of its sense (R75). -/
def State.muxPos (s : State) (c engine : Nat) (rising : Bool) (pos : Int) : Int :=
  pos + (if rising then s.getI (pQUAD (chanQuad c)) (QUAD.ENGINE_TERM.RISE_SU engine)
    else s.getI (pQUAD (chanQuad c)) (QUAD.ENGINE_TERM_2.FALL_SU engine))

/-- The raw position at which an edge of a lane crosses the output ball (R62). -/
def State.ballPos (s : State) (c engine : Nat) (rising : Bool) (pos : Int) : Int :=
  s.muxPos c engine rising pos + (if rising then s.getI (pQUAD (chanQuad c)) (QUAD.LANE_TERM.RISE_SU (chanLane c))
    else s.getI (pQUAD (chanQuad c)) (QUAD.LANE_TERM_2.FALL_SU (chanLane c)))

/-- A transition of the looped lane goes to the cores of LOOP_TIN, LOOP_TERM after it crosses the ball at a raw position (R82). -/
def State.loopBack (s : State) (c : Nat) (rising : Bool) (pos : Int) : State :=
  if s.flag pCAL CAL.LOOP_CFG.ENABLE ∧ s.get pCAL CAL.LOOP_CFG.LOOP_CHAN = c then
    let i := s.get pCAL CAL.LOOP_CFG.LOOP_TIN
    let term := s.getI pCAL (if rising then CAL.LOOP_TERM_RISE.TERM_SU else CAL.LOOP_TERM_FALL.TERM_SU)
    let t := s.tins.getD i {}
    { s with tins := s.tins.set i { t with loopIn := t.loopIn ++ [⟨rising, (pos + term).toNat⟩] } }
  else s

/-! ### Safe state (R98) -/

/-- Enter channel safe state for a cause: every edge is cancelled and SAFE_LEVEL is driven without placement (R98). Where that is a
transition of the looped lane it crosses the ball at the slot boundary (R82; DESIGN CHOICE, log 89). -/
def State.chanSafe (s0 : State) (c : Nat) (cause : SafeCause) : State :=
  let s := s0.onlyIf (s0.chan c).safe.isEmpty (fun s => (s.mirrorsStop c).schedLost c)
  let ch := s.chan c
  let lvl := s.get (pCHAN c) CHAN.LEVEL_CFG.SAFE_LEVEL
  let ch1 := { ch with
    wait := [], issued := [], responses := [], history := [], clk32 := none, clkNext := none
    safe := if ch.safe.contains cause then ch.safe else ch.safe ++ [cause]
    level := if lvl = 2 then ch.level else lvl == 1
    driven := lvl != 2
    nextLevel := if lvl = 2 then ch.level else lvl == 1
    nextDriven := lvl != 2 }
  if ch.safe.isEmpty then
    let s1 := (s.setChan c ch1).onlyIf (ch1.level != ch.level) (fun s => s.loopBack c (s.rising c ch1.level) (40960 * s.clk.tclk))
    ((s1.emit (.drive c (if lvl = 2 then none else some (lvl == 1)))).irq (pCHAN c) 0).apllaRefGone c
  else s.setChan c { ch with safe := ch1.safe }

/-- Whether a cause of safe state has cleared (R98, R300, R301). -/
def State.causeCleared (s : State) (c : Nat) : SafeCause → Bool
  | .noEngine => !(s.quad (chanQuad c)).failedLanes.contains (chanLane c)
  | .orphan a => !s.host.orphaned.contains a
  | .forced => true
  | .chanSafe src page =>
    match pageBlock page with
    | some (k, _) => faultSources.all (fun e => !(e.1 == src && e.2.1 == k && s.errSet page e.2.2.1))
    | none => true
  | .device => !s.gutter.safe

/-- Leave safe state: an entry into the effective mode, SAFE_LEVEL held until the resting-level edge (R98). -/
def State.chanSafeExit (s : State) (c : Nat) : State :=
  (s.setChan c { s.chan c with safe := [] }).chanEntry c 1

/-! ### Answering a trigger (R88 to R92) -/

/-- Count an event that is not answered. -/
def State.ignoreEvent (s : State) (c : Nat) : State := (s.incSat (pCHAN c) CHAN.RETRIG_IGNORED.COUNT).irq (pCHAN c) 1

/-- Insert a response by the instant of its event (R91). -/
def insertResp (r : Resp) : List Resp → List Resp
  | [] => [r]
  | x :: xs => if r.at32 < x.at32 then r :: x :: xs else x :: insertResp r xs

/-- Accept an event as a response (R91). -/
def State.acceptEvent (s : State) (c : Nat) (t : Nat) (teb : Nat) (set : ChanSettings) : State :=
  let ch := s.chan c
  (s.setChan c { ch with
    ids := ch.ids + 1
    responses := insertResp ⟨ch.ids, (t : Int) * fine, teb, set, 0, 0⟩ ch.responses }).incWrap (pCHAN c) CHAN.RESPONSES.COUNT

/-- Cancel the edges of pending responses that are not issued, except a trailing edge kept (R91 RESTART). -/
def State.cancelResponses (s : State) (c : Nat) : State :=
  let ch := s.chan c
  let w := ch.wait.filter (fun e => match e.origin with | .response _ => keptTrail ch.wait e | _ => true)
  s.setChan c { ch with wait := w, responses := [] }

/-- A delivered event at a channel that may listen (R86, R89, R91). -/
def State.answer (s : State) (c n t teb : Nat) : State :=
  let ch := s.chan c
  let set := settingsAt ch.history (s.chanSettings c) ((t : Int) * fine)
  if (set.mode ≠ 2 ∧ set.mode ≠ 3) ∨ set.trigLine ≠ n then s
  else if !ch.safe.isEmpty then s.incSat (pCHAN c) CHAN.RETRIG_IGNORED.COUNT
  else if (t : Int) * fine < ch.entry32 then s.incSat (pCHAN c) CHAN.RETRIG_IGNORED.COUNT
  else if ch.responses.isEmpty then s.acceptEvent c t teb set
  else match set.retrig with
    | 0 => s.ignoreEvent c
    | 1 => if ch.responses.length < 16 then s.acceptEvent c t teb set
           else (s.incSat (pCHAN c) CHAN.QUEUE_FULL.COUNT).irq (pCHAN c) 1
    | _ => (s.cancelResponses c).acceptEvent c t teb set

/-- Pulses or edges in a response (R89, R92). -/
def respTotal (r : Resp) : Nat := if r.set.mode = 3 then r.set.count else 1

/-- The target of the next leading edge of a response (R89, R92). -/
def respLead (r : Resp) : Int := r.at32 + (r.set.delay + r.next * (if r.set.mode = 3 then r.set.period else 0)) * fine

/-- The response whose next pulse comes first; the earlier event wins a tie (R91). -/
def firstResp : List Resp → Option Resp
  | [] => none
  | r :: rs =>
    match firstResp rs with
    | none => if r.next < respTotal r then some r else none
    | some x => if r.next < respTotal r ∧ respLead r ≤ respLead x then some r else some x

/-- Replace a response. -/
def State.setResp (s : State) (c : Nat) (r : Resp) : State :=
  s.setChan c { s.chan c with responses := (s.chan c).responses.map (fun x => if x.id = r.id then r else x) }

/-- Drop the responses that have no pulse to place and no edge to emit (R91). -/
def State.settleResponses (s : State) (c : Nat) : State :=
  s.setChan c { s.chan c with responses := (s.chan c).responses.filter (fun r => r.next < respTotal r || r.live != 0) }

/-- The fine target of the last edge emitted or kept: issued, or waiting to be (R91). -/
def lastKept (ch : ChanSt) : Option Int :=
  (ch.wait.map (fun e => e.t32) ++ ch.issued.map (fun i => i.edge.t32)).foldl
    (fun a t => match a with | some x => some (max x t) | none => some t) ch.lastT32

/-- Whether a pulse from `t` begins before the previous emitted or kept edge plus 300 ps (R91). -/
def overlaps (ch : ChanSt) (t : Int) : Bool := match lastKept ch with | some x => decide (t < x + minSpacing * fine) | none => false

/-- Whether the next pulse of the pending responses is dropped whole by R91: nothing is left to wait for. -/
def State.overlapDue (s : State) (c : Nat) : Bool :=
  let ch := s.chan c
  ch.clk32.isNone && !ch.wait.any (fun e => match e.origin with | .response _ => true | _ => false) &&
    (match firstResp ch.responses with | some r => overlaps ch (respLead r) | none => false)

/-- Form the next pulse of the pending responses (R89, R91, R92). -/
def State.nextPulse (s : State) (c : Nat) : State :=
  match firstResp (s.chan c).responses with
  | none => s
  | some r =>
    let t := respLead r
    if overlaps (s.chan c) t then
      (((s.setResp c { r with next := r.next + 1 }).incSat (pCHAN c) CHAN.RETRIG_OVERLAP.COUNT).irq (pCHAN c) 1).settleResponses c
    else if r.set.width = 0 then
      (s.setResp c { r with next := r.next + 1, live := r.live + 1 }).pushEdge c
        ⟨t, .toggle, .single, .response r.id, .event r.teb (roundEven r.at32 (2 ^ 32)), none⟩
    else
      (s.setResp c { r with next := r.next + 1, live := r.live + 2 }).pushPulse c t (r.set.width * fine) (.response r.id)
        (.event r.teb (roundEven r.at32 (2 ^ 32)))

/-- The earlier of the two placement targets an edge at `t32` can have on a channel, by its sense (R62). -/
def State.earliestTarget (s : State) (c : Nat) (t32 : Int) : Int :=
  min (s.placementTarget c (s.laneEngine (chanQuad c) (chanLane c)) true t32)
    (s.placementTarget c (s.laneEngine (chanQuad c) (chanLane c)) false t32)

/-- Take the records of the lane's buffer whose placement has come: played while the channel is in SEQ mode, out of
safe state and past its entry, else discarded (R107, R128, R132). -/
def State.seqPromote (s : State) (c : Nat) : State :=
  let ch := s.chan c
  let due := ch.seqBuf.filter (fun r => decide (s.earliestTarget c r.t32 ≤ s.now32 + horizon32))
  let s1 := s.setChan c { ch with seqBuf := ch.seqBuf.filter (fun r => !decide (s.earliestTarget c r.t32 ≤ s.now32 + horizon32)) }
  s1.forEach due (fun r s =>
    if s.chanMode c = 5 ∧ (s.chan c).safe.isEmpty ∧ (s.chan c).entry32 ≤ r.t32 then s.pushEdge c ⟨r.t32, r.kind, .single, .seq, r.basis, none⟩
    else s)

/-! ### Issue (R22, R23, R62, R87, R370) -/

/-- The engine an edge of a channel goes to: the spare in CAL mode and for what is left of it before the lane's return, the new engine once
a swap has switched, else the lane's engine (R60, R75, R96). -/
def State.edgeEngine (s : State) (c : Nat) (e : Edge) : Nat :=
  if e.origin = .cal ∧ (s.chanMode c = 8 ∨ e.t32 < (s.chan c).entry32) then s.get (pQUAD (chanQuad c)) QUAD.ENGINE_MAP.SPARE
  else match (s.quad (chanQuad c)).swap with
    | some w => if w.lane = chanLane c ∧ w.switched.isSome then w.new else s.laneEngine (chanQuad c) (chanLane c)
    | none => s.laneEngine (chanQuad c) (chanLane c)

/-- Whether the next leading edge of an accumulator may be issued now (R12): its pulse is formed no sooner, so that a commit before it
still turns it (R94, R95). -/
def State.clockDue (s : State) (c : Nat) : Bool :=
  match (s.chan c).clk32 with
  | none => false
  | some a =>
    let high := !(s.idle (if s.chanMode c = 7 then s.get (pCHAN c) CHAN.MODE_CFG.MIRROR_SRC else c))
    let e : Edge := ⟨a, .set high, .single, if s.chanMode c = 8 then .cal else .clock, .own, none⟩
    decide (s.placementTarget c (s.edgeEngine c e) (s.rising c high) a ≤ s.now32 + horizon32)

/-- Form the next edges of a channel when none of its generator waits to be issued. DESIGN CHOICE (log 89): the spec does not say when a
source's target counts as computed (R95). It does so here, and is copied to the mirrors, when its pulse is formed for issue, not when the
event of a response is accepted: what is cancelled before that is not emitted by a mirror. -/
def State.chanExpand (s : State) (c : Nat) : State :=
  let w := (s.chan c).wait
  if (s.chan c).clk32.isSome then
    if w.any (fun e => e.origin == .clock || e.origin == .cal || e.origin == .mirClk) then s else s.onlyIf (s.clockDue c) (fun s => s.nextClock c)
  else if w.any (fun e => match e.origin with | .response _ => true | _ => false) then s
  else s.nextPulse c

/-- Whether what is issued is an edge: a driver turned on or off is none (R61). -/
def Issued.isEdge (i : Issued) : Bool := i.high.isSome && i.edge.kind != .on

/-- Whether a placed position meets R61 against what the lane has issued or emitted. -/
def spacingOk (ch : ChanSt) (clock : Bool) (pos : Int) : Bool :=
  let edges := ch.issued.filter (·.isEdge)
  let last := match edges.getLast? with | some i => some i.pos | none => ch.lastPos
  let inSlot := (edges.filter (fun i => posSlot i.pos == posSlot pos)).length +
    (match ch.lastPos with | some p => if posSlot p == posSlot pos then ch.slotEdges else 0 | none => 0)
  (match last with | some p => decide (p + minSpacing ≤ pos) | none => true) && (clock || decide (inSlot < 2))

/-- Count edges dropped by R61 on a channel's lane. -/
def State.spacingDrop (s : State) (c n : Nat) : State :=
  (s.incSat (pQUAD (chanQuad c)) (QUAD.SPACING_DROPS.COUNT (chanLane c)) n).irq (pQUAD (chanQuad c)) 4

/-- An edge of a response is gone without being emitted, or is emitted. -/
def State.respEdgeDone (s : State) (c : Nat) (o : EdgeOrigin) : State :=
  match o with
  | .response id =>
    (s.setChan c { s.chan c with responses := (s.chan c).responses.map (fun r =>
      if r.id = id then { r with live := r.live - 1 } else r) }).settleResponses c
  | _ => s

/-- Remove an edge from the waiting list. -/
def State.unwait (s : State) (c : Nat) (e : Edge) : State :=
  s.respEdgeDone c e.origin |>.setChan c { (s.respEdgeDone c e.origin).chan c with wait := (s.chan c).wait.erase e }

/-- The trailing edge of a pulse among the waiting edges. -/
def trailOf (w : List Edge) (k : Nat) : Option Edge := w.find? (fun e => e.role == .trail k)

/-- Drop an edge, and the trailing edge of its pulse with it (R87, R370); a mirror's copy is dropped alone (R95). -/
def State.dropWithTrail (s : State) (c : Nat) (e : Edge) : State :=
  let s1 := (s.unwait c e).desync c e
  match (if e.isMirror then EdgeRole.single else e.role) with
  | .lead k _ => match trailOf (s1.chan c).wait k with
    | some t => s1.unwait c t
    | none => s1
  | _ => s1

/-- Compute the codes of an edge for an engine: position and new error term (R22, R23, R62). -/
def State.codes (s : State) (c : Nat) (e : Edge) (high : Bool) (engine : Nat) (dither : Int) : Int × Int :=
  place s.clk (s.coarse (chanQuad c)) (s.flag (pCHAN c) CHAN.MODE_CFG.DITHER && e.origin != .clock) dither
    (s.placementTarget c engine (s.rising c high) e.t32)

/-- The delay-line code of a position in an engine of a channel's quad (R66). -/
def State.lineCode (s : State) (c engine : Nat) (pos : Int) : Int :=
  rawCode (((s.quad (chanQuad c)).engines.getD engine {}).front) pos

/-- The spare that shadows the lane's engine, from A to the switch point (R74). -/
def State.shadowEngine (s : State) (c : Nat) (o : EdgeOrigin) : Option Nat :=
  match (s.quad (chanQuad c)).swap with
  | some w => if w.lane = chanLane c ∧ w.switched.isNone ∧ o ≠ .cal then some w.new else none
  | none => none

/-- A position of one engine moved to another by the difference of their delay terms (R62). -/
def State.movePos (s : State) (c src dst : Nat) (high : Bool) (pos : Int) : Int :=
  nextPlaceable (s.coarse (chanQuad c)) (pos + s.delayTerms c src (s.rising c high) - s.delayTerms c dst (s.rising c high))

/-- Hand an edge's codes to its engine, and during a swap to the spare as well: its own codes for the same error term, or the
position moved by the difference of the terms where the position is no rounding of the target (R74). -/
def State.issueAt (s : State) (c : Nat) (e : Edge) (high : Option Bool) (engine : Nat) (pos : Int) (dither : Option Int) : State :=
  let ch := s.chan c
  let alt := (s.shadowEngine c e.origin).map (fun n =>
    let p := match dither with
      | some d => (s.codes c e (high.getD ch.nextLevel) n d).1
      | none => s.movePos c engine n (high.getD ch.nextLevel) pos
    (n, p, s.lineCode c n p))
  s.setChan c { ch with
    wait := ch.wait.erase e
    issued := ch.issued ++ [⟨e, engine, pos, s.lineCode c engine pos, high, s.edgeTeb c e.basis (roundEven e.t32 (2 ^ 32)),
      roundEven e.t32 (2 ^ 32), alt⟩]
    nextLevel := high.getD ch.nextLevel
    nextDriven := high.isSome }

/-- Issue the leading edge of a pulse shorter than the horizon, with the codes of its trailing edge computed too, or drop the pulse
whole (R87). The trailing edge waits with its codes until it may be issued (R12). -/
def State.issuePulse (s : State) (c : Nat) (e t : Edge) (high : Bool) (engine : Nat) : State :=
  let ch := s.chan c
  let clock := e.origin == .clock || e.origin == .cal
  let p1 := s.codes c e high engine ch.dither
  let p2 := s.codes c t (!high) engine p1.2
  let clamp := decide (p2.1 - p1.1 < minSpacing)
  let pos2 := if clamp then nextPlaceable (s.coarse (chanQuad c)) (p1.1 + minSpacing) else p2.1
  let s1 := (s.setChan c { ch with dither := p2.2 }).onlyIf clamp
    (fun s => (s.incSat (pCHAN c) CHAN.WIDTH_CLAMPS.COUNT).irq (pCHAN c) 2)
  let ch1 := { s1.chan c with issued := (s1.chan c).issued ++ [⟨e, engine, p1.1, 0, some high, 0, 0, none⟩] }
  if spacingOk ch clock p1.1 && spacingOk ch1 clock pos2 then
    let s2 := s1.issueAt c e (some high) engine p1.1 (some ch.dither)
    s2.setChan c { s2.chan c with wait := (s2.chan c).wait.map (fun x => if x = t then { t with codes := some (engine, pos2) } else x) }
  else (s1.dropWithTrail c e).spacingDrop c 2

/-- Issue one edge, or drop it by R61 (a leading edge with its pulse). -/
def State.issueSingle (s : State) (c : Nat) (e : Edge) (high : Bool) (engine : Nat) : State :=
  let ch := s.chan c
  let p := s.codes c e high engine ch.dither
  let s1 := s.setChan c { ch with dither := p.2 }
  if spacingOk ch (e.origin == .clock || e.origin == .cal) p.1 then s1.issueAt c e (some high) engine p.1 (some ch.dither)
  else (s1.dropWithTrail c e).spacingDrop c 1

/-- The position of a trailing edge whose codes were computed with its leading edge: on another engine than then, it moves by the
difference of the terms. -/
def State.codedPos (s : State) (c : Nat) (e : Edge) (high : Bool) (k : Nat × Int) : Int :=
  if k.1 = s.edgeEngine c e then k.2 else s.movePos c k.1 (s.edgeEngine c e) high k.2

/-- Issue a trailing edge whose codes were computed with its leading edge. -/
def State.issueCodes (s : State) (c : Nat) (e : Edge) (high : Bool) (k : Nat × Int) : State :=
  s.issueAt c e (some high) (s.edgeEngine c e) (s.codedPos c e high k) none

/-- The level an edge takes the pin to, given the level before it. -/
def edgeLevel (e : Edge) (before : Bool) : Option Bool :=
  match e.kind with
  | .set b => some b
  | .toggle => some (!before)
  | .hiz => none
  | .on => some before

/-- The raw position 3.5 ns from now, by which an engine must hold the codes of an edge (R370). -/
def State.engineLead (s : State) : Int := 40960 * s.clk.anchorN + rawGrid s.clk (s.now32 + 229376 * fine) + 1

/-- An edge that cannot reach its engine 3.5 ns before its launch (R370): a late trailing edge of an emitted leading edge is launched as
early as the engine can, any other is dropped, a leading edge with its pulse. Records of SEQ follow R112. -/
def State.lateEdge (s : State) (c : Nat) (e : Edge) (high : Bool) (engine : Nat) : State :=
  match e.role with
  | .trail _ =>
    let ch := s.chan c
    let p := nextPlaceable (s.coarse (chanQuad c)) s.engineLead
    let pos := max p (match ch.issued.getLast? with
      | some i => nextPlaceable (s.coarse (chanQuad c)) (i.pos + minSpacing)
      | none => match ch.lastPos with | some l => nextPlaceable (s.coarse (chanQuad c)) (l + minSpacing) | none => p)
    (s.issueAt c e (some high) engine pos none).incSat (pCHAN c) CHAN.LATE_EDGES.COUNT
  | _ => ((s.dropWithTrail c e).incSat (pCHAN c) CHAN.LATE_EDGES.COUNT).irq (pCHAN c) 4

/-- The error term once the codes of a late edge are computed: its update stands, and that of the trailing edge computed with it (R23,
R87). -/
def State.lateDither (s : State) (c : Nat) (e : Edge) (rest : List Edge) (high : Bool) (engine : Nat) : Int :=
  let p := s.codes c e high engine (s.chan c).dither
  match e.role with
  | .lead k w => if w < horizon32 ∧ !e.isMirror then
      match trailOf rest k with | some t => (s.codes c t (!high) engine p.2).2 | none => p.2
    else p.2
  | _ => p.2

/-- Whether an edge may be issued now: its launch lies at most 1 024 ns ahead (R12, R370). -/
def State.inHorizon (s : State) (c : Nat) (e : Edge) (high : Bool) : Bool :=
  match e.codes with
  | some k => decide (tsAtRaw32 s.clk (s.codedPos c e high k) ≤ s.now32 + horizon32)
  | none => decide (s.placementTarget c (s.edgeEngine c e) (s.rising c high) e.t32 ≤ s.now32 + horizon32)

/-- Whether the next edge of a channel may be issued now (R12, R370). -/
def State.issueDue (s : State) (c : Nat) : Bool :=
  s.overlapDue c ||
  match (s.chanExpand c).chan c |>.wait with
  | [] => false
  | e :: _ => (s.chanExpand c).inHorizon c e ((edgeLevel e (s.chan c).nextLevel).getD false)

/-- Issue the next edge of a channel (R370): computed codes, or late, or no transition to make. -/
def State.issueNext (s0 : State) (c : Nat) : State :=
  let s := s0.chanExpand c
  if s0.overlapDue c then s
  else match (s.chan c).wait with
  | [] => s
  | e :: rest =>
    let ch := s.chan c
    let engine := s.edgeEngine c e
    if e.kind = .on then s.issueAt c e (some ch.nextLevel) engine (place s.clk true false 0 e.t32).1 none
    else match edgeLevel e ch.nextLevel with
    | none => s.issueAt c e none engine (place s.clk true false 0 e.t32).1 none
    | some high =>
      let t32 := s.placementTarget c engine (s.rising c high) e.t32
      if high = ch.nextLevel ∧ ch.nextDriven then (s.unwait c e).desync c e
      else if t32 < s.now32 + 229376 * fine then
        (s.setChan c { ch with dither := if e.codes.isSome then ch.dither else s.lateDither c e rest high engine }).lateEdge c e high engine
      else match e.codes with
        | some k => s.issueCodes c e high k
        | none => match e.role with
          | .lead k w =>
            if w < horizon32 ∧ !e.isMirror then
              match trailOf rest k with
              | some t => s.issuePulse c e t high engine
              | none => s.issueSingle c e high engine
            else s.issueSingle c e high engine
          | _ => s.issueSingle c e high engine

/-- Whether a record of the lane's buffer has come to its placement. -/
def State.seqBufDue (s : State) (c : Nat) : Bool :=
  (s.chan c).seqBuf.any (fun r => decide (s.earliestTarget c r.t32 ≤ s.now32 + horizon32))

/-- EDGE_ISSUE (R370): the records of the lane's buffer whose placement has come are taken, or the next edge is issued. -/
def execEdgeIssue (c : Nat) (s : State) : Host.Outcome State Fault Refusal :=
  guarded (.edgeIssue c) s (fun s =>
    if s.seqBufDue c then s.seqPromote c else if s.issueDue c then s.issueNext c else s)

/-! ### Launch (R61, R62) -/

/-- Whether the first issued edge of a channel is launched in the present slot. -/
def State.launchDue (s : State) (c : Nat) : Bool :=
  match (s.chan c).issued with
  | [] => false
  | i :: _ => decide (i.pos < 40960 * ((s.clk.tclk : Int) + 8))

/-- The calibration TDC sees an edge on the return path of its engine, on that of the spare that shadows it, and on the lane's pad (R68). -/
def State.countLaunch (s : State) (c : Nat) (i : Issued) : State :=
  let x := s.quad (chanQuad c)
  let add (l : List Nat) (k : Nat) : List Nat := l.set k (l.getD k 0 + 1)
  s.setQuad (chanQuad c) { x with
    launched := (i.alt.map (·.1)).toList.foldl add (add (add x.launched i.engine) (5 + chanLane c)) }

/-- An issued edge is emitted: the pin changes, and LAST_EDGE, its bound and the count show it (R62, R99). -/
def State.emitEdge (s : State) (c : Nat) (i : Issued) (h sameSlot : Bool) : State :=
  let ch := s.chan c
  let mux := s.muxPos c i.engine (s.rising c h) i.pos
  let s1 := s.setChan c { ch with
    level := h, driven := true, lastPos := some i.pos, lastT32 := some i.edge.t32
    slotEdges := if sameSlot then ch.slotEdges + 1 else 1
    muxed := ch.muxed.filter (fun p => decide (40960 * (s.clk.tclk : Int) - 327680 ≤ p)) ++ [mux] }
  let s2 := (s1.emit (.edge c i.engine i.pos (s.rising c h) i.raw)).loopBack c (s.rising c h) (s.ballPos c i.engine (s.rising c h) i.pos)
  (((s2.countLaunch c i).putInst (pCHAN c) CHAN.LAST_EDGE.INSTANT i.target).put (pCHAN c) CHAN.LAST_EDGE_TEB.TEB_PS i.teb).incWrap (pCHAN c) CHAN.EDGE_COUNT.COUNT

/-- Launch the first issued edge of a channel, subject to the spacing test against the last edge emitted (R61, R62). DESIGN CHOICE (log
89): a trailing edge kept past the turn-off of OFF with OFF_STATE at HIZ turns the driver on again. -/
def State.launch (s : State) (c : Nat) : State :=
  let ch := s.chan c
  match ch.issued with
  | [] => s
  | i :: rest =>
    let clock := i.edge.origin == .clock || i.edge.origin == .cal
    let sameSlot := match ch.lastPos with | some p => posSlot p == posSlot i.pos | none => false
    let ok := (match ch.lastPos with | some p => decide (p + minSpacing ≤ i.pos) | none => true) &&
      (clock || decide ((if sameSlot then ch.slotEdges else 0) < 2))
    let s0 := s.setChan c { ch with issued := rest }
    match i.high with
    | none =>
      ((s0.setChan c { ch with issued := rest, driven := false }).emit (.drive c none)).respEdgeDone c i.edge.origin
    | some h =>
      if i.edge.kind = .on then
        ((s0.setChan c { ch with issued := rest, driven := true }).emit (.drive c (some ch.level))).respEdgeDone c i.edge.origin
      else if ok then (s0.emitEdge c i h sameSlot).respEdgeDone c i.edge.origin
      else ((s0.spacingDrop c 1).desync c i.edge).respEdgeDone c i.edge.origin

/-- EDGE_LAUNCH (R62). -/
def execEdgeLaunch (c : Nat) (s : State) : Host.Outcome State Fault Refusal :=
  guarded (.edgeLaunch c) s (fun s => if s.launchDue c then s.launch c else s)

/-! ### Steps of the timescale (R104) -/

/-- The basis of an edge whose event moves with it. -/
def EdgeBasis.shift (b : EdgeBasis) (d32 : Int) : EdgeBasis :=
  match b with
  | .event b e => .event b (e + roundEven d32 (2 ^ 32))
  | b => b

/-- Move a channel's edges when the timescale steps by `d32` (R104): responses to events before the step and trailing edges of issued
leading edges keep their physical delay; CLOCK and CAL grids stay on their instants, which are those of ORIGIN, on the new
timescale. -/
def State.chanStep (s : State) (d32 : Int) (c : Nat) : State :=
  let ch := s.chan c
  let earlier (r : Resp) : Bool := decide (r.at32 < s.now32 - d32)
  let moves (e : Edge) : Bool := (match e.origin with
    | .response id => ch.responses.any (fun r => r.id == id && earlier r)
    | _ => false) || keptTrail ch.wait e
  let grid (e : Edge) : Bool := e.origin == .clock || e.origin == .cal || e.origin == .mirClk
  let w := ch.wait.filterMap (fun e =>
    if moves e then some { e with t32 := e.t32 + d32, basis := e.basis.shift d32 }
    else if grid e then none else some e)
  let s1 := s.setChan c { ch with
    wait := w
    issued := ch.issued.map (fun i => { i with edge := { i.edge with t32 := i.edge.t32 + d32 } })
    responses := ch.responses.map (fun r => if earlier r then { r with at32 := r.at32 + d32 } else r)
    history := ch.history.map (fun h => (h.1 + d32, h.2))
    entry32 := ch.entry32 + d32
    clkNext := ch.clkNext.map (fun n => (n.1 + d32, n.2))
    lastT32 := ch.lastT32.map (· + d32) }
  match ch.clk32 with
  | none => s1
  | some a =>
    let low := ch.clkP32 - ch.clkH32
    let last := lastKept (s1.chan c)
    let lim := max (s.now32 + horizon32) ((last.map (· + low)).getD (s.now32 + horizon32))
    s1.setChan c { s1.chan c with clk32 := some (firstGrid a ch.clkP32 lim), clkFrom32 := firstGrid a ch.clkP32 lim }

/-- Move the sequencer's records of a channel that have no codes yet by `d32`, with the event they refer to by `e32` (R132). -/
def State.chanSeqMove (s : State) (d32 e32 : Int) (c : Nat) : State :=
  let ch := s.chan c
  s.setChan c { ch with
    wait := ch.wait.map (fun e => if e.origin == .seq then { e with t32 := e.t32 + d32, basis := e.basis.shift e32 } else e)
    seqBuf := ch.seqBuf.map (fun r => { r with t32 := r.t32 + d32, basis := r.basis.shift e32 }) }

/-- FLUSH of a channel: discard every pending response whose leading edge is not yet issued; the others go on (R91). -/
def State.chanFlush (s : State) (c : Nat) : State :=
  let ch := s.chan c
  let of (r : Resp) (e : Edge) : Bool := e.origin == .response r.id
  let leads (e : Edge) : Bool := match e.role with | .trail _ => false | _ => true
  let started (r : Resp) : Bool := decide (1 < r.next) || (decide (r.next = 1) && !ch.wait.any (fun e => of r e && leads e))
  s.setChan c { ch with
    wait := ch.wait.filter (fun e => !ch.responses.any (fun r => of r e && !started r))
    responses := ch.responses.filter started }

/-- STATUS bits [12:0] of a channel, from its live state (R99). -/
def State.chanStatus (s : State) (c : Nat) : Nat :=
  let ch := s.chan c
  ch.responses.length % 32 * 256 +
    16 * bitsOf (s.get (pQUAD (chanQuad c)) QUAD.STATUS.LANE_DEGRADED) (chanLane c) (chanLane c) +
    8 * b2n (!ch.responses.isEmpty) + 4 * b2n ch.level + 2 * b2n ch.driven + b2n (decide (s.clk.slot < ch.entrySlot) && decide (ch.entrySlot ≤ s.clk.slot + 205))

end Sys2Proof.Machine
end

