-- ==== Sys2Proof/Machine/Quad.lean ====
section
/-! DEFINITION. Quads: calibration visits, sweeps, drift and failure, swaps and their commands (chapter 3, R68 to
R83). -/

namespace Sys2Proof.Machine

/-! ### Engine states and bounds -/

/-- ENGINE_STATE of engine `e`: 0 COARSE, 1 ACTIVE, 2 SPARE_SWEEP, 3 SPARE_READY, 4 SHADOW, 5 FAILED, 6 CAL (R79). -/
def State.engState (s : State) (q e : Nat) : Nat := bitsOf (s.get (pQUAD q) QUAD.ENGINE_STATE.STATE) (4 * e + 3) (4 * e)

/-- Put an engine's state. -/
def State.setEngState (s : State) (q e v : Nat) : State :=
  s.put (pQUAD q) QUAD.ENGINE_STATE.STATE (putBits (s.get (pQUAD q) QUAD.ENGINE_STATE.STATE) (4 * e + 3) (4 * e) v)

/-- The spare engine, 7 if none (R79). -/
def State.spare (s : State) (q : Nat) : Nat := s.get (pQUAD q) QUAD.ENGINE_MAP.SPARE

/-- Map a lane to an engine (R60). -/
def State.mapLane (s : State) (q l e : Nat) : State :=
  s.put (pQUAD q) QUAD.ENGINE_MAP.LANE_ENGINE (putBits (s.get (pQUAD q) QUAD.ENGINE_MAP.LANE_ENGINE) (4 * l + 3) (4 * l) e)

/-- One engine record of a quad. -/
def State.engine (s : State) (q e : Nat) : EngineSt := (s.quad q).engines.getD e {}
def State.setEngine (s : State) (q e : Nat) (x : EngineSt) : State :=
  s.setQuad q { s.quad q with engines := (s.quad q).engines.set e x }

/-- The lane an engine drives. -/
def State.engineLane (s : State) (q e : Nat) : Option Nat := (List.range 4).find? (fun l => s.laneEngine q l == e)

/-- Die temperature in units of 0.125 degrees (R83). -/
def State.dieTemp (s : State) : Int := s.getI pCAL CAL.DIE_TEMP.TEMP

/-- Whether a table set is fresh: swept within 2 x SWEEP_PERIOD_S and within 2 degrees of the die (R71). -/
def State.setFresh (s : State) (q : Nat) (t : TableSet) : Bool :=
  decide (s.clk.slot ≤ t.sweptAt + 2 * s.get (pQUAD q) QUAD.CAL_CTL.SWEEP_PERIOD_S * 200000000) &&
    decide ((s.dieTemp - t.temp).natAbs ≤ 16)

/-- Whether the spare is SPARE_READY (R71): free, with a fresh accepted set. -/
def State.spareReady (s : State) (q : Nat) : Bool :=
  decide (s.spare q < 5) && s.engState q (s.spare q) == 3 &&
    (match (s.engine q (s.spare q)).front with | some t => s.setFresh q t | none => false)

/-- Whether a channel of the quad is in CAL mode. -/
def State.calMode (s : State) (q : Nat) : Bool := (List.range 4).any (fun l => s.chanMode (4 * q + l) == 8)

/-- Whether a channel of the quad in CAL mode holds the spare, or its lane has yet to return from it (R78, R96). -/
def State.calHeld (s : State) (q : Nat) : Bool :=
  s.calMode q || (s.quad q).calUntil.isSome

/-- Whether tracking is stopped: TRACK_ENABLE at 0, or a calibration TDC that has not passed its self-check since it failed (R73). DESIGN
CHOICE (log 90): the spec does not say whether tracking resumes when the host clears TDC_FAULT; the TDC stays out of use until the next
entry to Stage 2 checks it, its terms frozen and their bounds growing. -/
def State.trackStopped (s : State) (q : Nat) : Bool :=
  !s.flag (pQUAD q) QUAD.CAL_CTL.TRACK_ENABLE || !s.flag (pQUAD q) QUAD.CAL_STATE.TDC_OK

/-- LANE_DEGRADED of lane `l` (R77). -/
def State.degraded (s : State) (q l : Nat) : Bool := bitOf (s.get (pQUAD q) QUAD.STATUS.LANE_DEGRADED) l

/-- Whole degrees between two temperatures in units of 0.125 degrees. -/
def wholeDegrees (a b : Int) : Nat := (a - b).natAbs / 8

/-- How far the die has moved, in whole degrees, since the last update of the terms of a lane's edges; of the four terms the one that
grows the bound most counts (R73; DESIGN CHOICE, log 90). -/
def State.termDrift (s : State) (q l : Nat) : Nat :=
  let e := (s.engine q (s.laneEngine q l)).termTemp
  let t := (s.quad q).laneTemp.getD l (200, 200)
  max (max (wholeDegrees s.dieTemp e.1) (wholeDegrees s.dieTemp e.2)) (max (wholeDegrees s.dieTemp t.1) (wholeDegrees s.dieTemp t.2))

/-- LANE_BOUND_l by its rule (R81, R73). -/
def State.laneBoundRule (s : State) (q l : Nat) : Nat :=
  let unc := s.get (pQUAD q) (QUAD.BOARD_UNC.UNC_PS l)
  if (s.chan (4 * q + l)).safe.contains .noEngine then tebUnknown
  else if s.stage < 2 then tebUnknown
  else
    let base := if s.coarse q then 200 + unc
      else 8 + unc + (if s.degraded q l then ((s.quad q).degradeM.getD l (0, 0)).1 else 0)
    min (base + (if s.trackStopped q then s.termDrift q l else 0)) tebUnknown

/-- Renew the four LANE_BOUND_l of a quad. -/
def State.refreshBounds (s : State) (q : Nat) : State :=
  s.forEach (List.range 4) (fun l s => s.put (pQUAD q) (QUAD.LANE_BOUND.BOUND_PS l) (s.laneBoundRule q l))

/-- Renew the state of the spare between SPARE_SWEEP and SPARE_READY, its STATUS bit, and SWEEP_INFO (R71, R79). -/
def State.refreshSpare (s : State) (q : Nat) : State :=
  let e := s.spare q
  if 5 ≤ e then s.putFlag (pQUAD q) QUAD.STATUS.SPARE_READY false
  else
    let st := s.engState q e
    let fresh := match (s.engine q e).front with | some t => s.setFresh q t | none => false
    let ready := fresh && !(s.engine q e).resweep && decide (3 ≤ s.stage)
    let s0 := s.onlyIf (st == 2 && ready) (fun s => s.setQuad q { s.quad q with readyAt := s.clk.slot })
    let s1 := if st = 2 ∨ st = 3 then s0.setEngState q e (if ready then 3 else 2) else s
    let s2 := match (s.engine q e).front with
      | some t => (s1.put (pQUAD q) QUAD.SWEEP_INFO.SWEEP_AGE_S (min ((s.clk.slot - t.sweptAt) / 200000000) 0xFFFF)).putI
          (pQUAD q) QUAD.SWEEP_INFO.SWEEP_TEMP t.temp
      | none => s1
    s2.putFlag (pQUAD q) QUAD.STATUS.SPARE_READY (s2.engState q e == 3)

/-- Whether the spare's state has become another by its age or the die temperature alone (R71). -/
def State.spareChanged (s : State) (q : Nat) : Bool :=
  match (s.engine q (s.spare q)).front with
  | some t => s.engState q (s.spare q) == 3 && !s.setFresh q t
  | none => false

/-- An engine must be swept before it may be SPARE_READY (R75, R76). -/
def State.needSweep (s : State) (q e : Nat) : State := (s.setEngine q e { s.engine q e with resweep := true }).refreshSpare q

/-- SWAP_DEFERRED shows whether a cause waits (R79). -/
def State.refreshDeferred (s : State) (q : Nat) : State :=
  s.putFlag (pQUAD q) QUAD.STATUS.SWAP_DEFERRED (!(s.quad q).deferred.isEmpty)

/-- Whether every engine of a quad holds an accepted set or is failed (R83). -/
def State.quadSettled (s : State) (q : Nat) : Bool :=
  (List.range 5).all (fun e => (s.engine q e).front.isSome || s.engState q e == 5)

/-- Renew QUAD_SETTLED and ALL_SETTLED of the CAL page (R83). -/
def State.refreshSettled (s : State) : State :=
  let s1 := s.put pCAL CAL.QUAD_SETTLED.QUADS ((List.range 12).foldl (fun n q => n + 2 ^ q * b2n (s.quadSettled q)) 0)
  s1.putFlag pCAL CAL.STATUS.ALL_SETTLED
    (s1.get pCAL CAL.QUAD_SETTLED.QUADS == 0xFFF && s1.get pCAL CAL.TIN_SETTLED.INPUTS == 0xFFFF)

/-! ### Causes of a swap (R72 to R78) -/

/-- Hold a cause back (R77, R78). -/
def State.defer (s : State) (q l reason : Nat) : State :=
  (s.setQuad q { s.quad q with
    deferred := if (s.quad q).deferred.contains (l, reason) then (s.quad q).deferred else (s.quad q).deferred ++ [(l, reason)]
    }).refreshDeferred q

/-- Let a swap be armed at the next slot boundary (R74). -/
def State.armSwap (s : State) (q l reason : Nat) : State :=
  s.setQuad q { s.quad q with armNext := some (l, reason, s.clk.slot), deferred := (s.quad q).deferred.filter (· ≠ (l, reason)) }
    |>.refreshDeferred q

/-- Set or clear LANE_DEGRADED of a lane with its interrupt (R77, R79). -/
def State.setDegraded (s : State) (q l : Nat) (b : Bool) : State :=
  if s.degraded q l = b then s
  else
    let s1 := s.put (pQUAD q) QUAD.STATUS.LANE_DEGRADED (putBits (s.get (pQUAD q) QUAD.STATUS.LANE_DEGRADED) l l (b2n b))
    (s1.irq (pQUAD q) 3).onlyIf b (fun s => s.err (pQUAD q) 1)

/-- Record the outcome of a swap (R75, R76). -/
def State.recordSwap (s : State) (q outcome reason new old lane : Nat) : State :=
  ((((s.put (pQUAD q) QUAD.LAST_SWAP.OUTCOME outcome).put (pQUAD q) QUAD.LAST_SWAP.REASON reason).put (pQUAD q)
    QUAD.LAST_SWAP.NEW_ENGINE new).put (pQUAD q) QUAD.LAST_SWAP.OLD_ENGINE old).put (pQUAD q) QUAD.LAST_SWAP.LANE lane

/-- Abandon the swap in progress (R76, R78); the spare takes the state given. -/
def State.abandonSwap (s : State) (q spareState : Nat) : State :=
  match (s.quad q).swap with
  | none => s
  | some w =>
    ((((s.setQuad q { s.quad q with swap := none }).putFlag (pQUAD q) QUAD.STATUS.SWAP_IN_PROGRESS false).setEngState q w.new
      spareState).recordSwap q 2 w.reason w.old w.old w.lane).irq (pQUAD q) 1

/-- A drift declared on the engine of a lane, with the quantity of R72 beyond its limit (R74, R77, R78). -/
def State.driftCause (s : State) (q l : Nat) (m : Nat × Nat) : State :=
  if s.stage < 3 ∨ !s.flag (pQUAD q) QUAD.CAL_CTL.DRIFT_SWAP_ENABLE then s
  else if (s.quad q).swap.isSome ∨ (s.quad q).armNext.isSome ∨ s.calHeld q then s.defer q l 1
  else if s.spareReady q then s.armSwap q l 1
  else
    let s1 := s.setQuad q { s.quad q with degradeM := (s.quad q).degradeM.set l m }
    ((s1.setDegraded q l true).defer q l 1).refreshBounds q

/-- A failure with no spare ready: the lane's channel is made safe and the lane waits for a spare (R77). -/
def State.failNoSpare (s : State) (q l : Nat) : State :=
  let s1 := s.setQuad q { s.quad q with failedLanes := if (s.quad q).failedLanes.contains l then (s.quad q).failedLanes else l :: (s.quad q).failedLanes }
  (((((s1.defer q l 2).err (pQUAD q) 2).chanSafe (4 * q + l) .noEngine).err (pCHAN (4 * q + l)) 0)).refreshBounds q

/-- A swap that waited for its boundary loses the spare to a failure: a drift waits, and a host swap that was accepted is recorded as
ABANDONED (R78; DESIGN CHOICE, log 90). -/
def State.yieldArmed (s : State) (q l reason : Nat) : State :=
  if reason = 1 then s.defer q l 1 else (s.recordSwap q 2 3 (s.laneEngine q l) (s.laneEngine q l) l).irq (pQUAD q) 1

/-- The engine that drives a lane has failed (R74, R77, R78). DESIGN CHOICE (log 90): a failure of the old engine of a drift or host swap
abandons that swap as a failure on another lane does, one of the old engine of a failure swap changes nothing, and a swap that waits for
its boundary gives way to a failure as one in progress does. -/
def State.laneFailed (s : State) (q l : Nat) (ready : Bool) : State :=
  match (s.quad q).swap, (s.quad q).armNext with
  | some w, _ =>
    if w.reason = 2 then (if w.lane = l then s else s.failNoSpare q l)
    else ((s.abandonSwap q 3).refreshSpare q).armSwap q l 2
  | none, some (m, reason, _) =>
    if reason = 2 then (if m = l then s else s.failNoSpare q l)
    else if ready then (if m = l then s else s.yieldArmed q m reason).armSwap q l 2
    else s.failNoSpare q l
  | none, none => if ready then s.armSwap q l 2 else s.failNoSpare q l

/-- The swap in progress, or about to begin, has lost its spare: a failed lane is made safe and waits (R77); a drift waits. The spare takes
the state given. -/
def State.loseSwap (s : State) (q spareState : Nat) : State :=
  let lost : List (Nat × Nat) := ((s.quad q).swap.map (fun w => (w.lane, w.reason))).toList ++ ((s.quad q).armNext.map (fun a => (a.1, a.2.1))).toList
  let s1 := s.abandonSwap q spareState
  (s1.setQuad q { s1.quad q with armNext := none, calUntil := none }).forEach lost
    (fun w s => if w.2 = 2 then s.failNoSpare q w.1 else if w.2 = 1 then s.defer q w.1 1 else s)

/-- The spare has failed: no spare is left (R77, R78). -/
def State.spareFailed (s : State) (q : Nat) : State := ((s.put (pQUAD q) QUAD.ENGINE_MAP.SPARE 7).loseSwap q 5).refreshSpare q

/-- An engine declared failed (R72, R74, R77, R78). -/
def State.engineFailed (s : State) (q e : Nat) : State :=
  let s1 := (s.setEngState q e 5).err (pQUAD q) 0
  (match s.engineLane q e with
  | none => if s.spare q = e then s1.spareFailed q else s1
  | some l => s1.laneFailed q l (decide (3 ≤ s.stage) && s.spareReady q && !s.calHeld q)).refreshSettled

/-! ### Visits (R68, R69, R72) -/

/-- Sum of an integer over a list. -/
def sumI {α : Type} (l : List α) (f : α → Int) : Int := l.foldl (fun a x => a + f x) 0

/-- The step of a term after a visit: round_even(m / 8) clamped to ±16, and whether it was clamped (R69). -/
def termStep (errs : List CalEdge) : Int × Bool :=
  let st := roundEven (sumI errs (·.err)) (8 * errs.length)
  (max (-16) (min 16 st), decide (16 < st.natAbs))

/-- Move a term field by the step of the visit's edges of its sense, if there are at least 64 (R69). -/
def State.trackTerm (s : State) (q : Nat) (f : Fld) (errs : List CalEdge) : State :=
  if errs.length < 64 then s else s.putI (pQUAD q) f (s.getI (pQUAD q) f + (termStep errs).1)

/-- The die temperature at the last update of a pair of terms, after a visit (R73). -/
def State.tempAfter (s : State) (t : Int × Int) (rise fall : List CalEdge) : Int × Int :=
  (if rise.length < 64 then t.1 else s.dieTemp, if fall.length < 64 then t.2 else s.dieTemp)

/-- The line fit of a visit's errors against vernier code (R72): n, and the numerators of slope and residual over the
common denominator. -/
structure VisitFit where
  n : Int
  d : Int
  slopeN : Int
  residN : Int
deriving DecidableEq, Repr

def fitVisit (es : List CalEdge) : VisitFit :=
  let n : Int := es.length
  let sx := sumI es (fun e => e.code)
  let sy := sumI es (·.err)
  let sxx := sumI es (fun e => (e.code : Int) * e.code)
  let sxy := sumI es (fun e => (e.code : Int) * e.err)
  let syy := sumI es (fun e => e.err * e.err)
  let d := n * sxx - sx * sx
  let k := n * sxy - sx * sy
  ⟨n, d, k, (n * syy - sy * sy) * d - k * k⟩

/-- The quantities of R72 in whole ps, rounded up: the slope over the 320 codes, and the rms residual after the fit. Where every edge
has one vernier code there is no slope, and the residual is that about the mean. -/
def driftQuantities (es : List CalEdge) : Nat × Nat :=
  let f := fitVisit es
  if f.n ≤ 0 then (0, 0)
  else if f.d ≤ 0 then
    (0, isqrtUp (ceilDiv ((f.n * sumI es (fun e => e.err * e.err) - sumI es (·.err) * sumI es (·.err)).toNat * 1000000)
      (65536 * 65536 * f.n.toNat * f.n.toNat)))
  else (ceilDiv (f.slopeN.natAbs * 320000) (65536 * f.d.toNat),
    isqrtUp (ceilDiv (f.residN.toNat * 1000000) (65536 * 65536 * f.n.toNat * f.n.toNat * f.d.toNat)))

/-- Which quantity lies beyond its limit for a threshold in ps: 0 the slope beyond it, 1 the residual beyond its half (R72). -/
def driftBeyond (es : List CalEdge) (thr : Nat) : Option Nat :=
  let f := fitVisit es
  let slope := decide (0 < f.d) && decide ((thr : Int) * 65536 * f.d < (f.slopeN.natAbs : Int) * 320000)
  let resid := if f.n ≤ 0 then false
    else if f.d ≤ 0 then decide ((thr : Int) * thr * 65536 * 65536 * f.n * f.n <
      (f.n * sumI es (fun e => e.err * e.err) - sumI es (·.err) * sumI es (·.err)) * 4000000)
    else decide ((thr : Int) * thr * 65536 * 65536 * f.n * f.n * f.d < f.residN * 4000000)
  if slope then some 0 else if resid then some 1 else none

/-- The larger mean error of the two senses of a visit in whole ps, rounded up: M of R81 where the steps of R69 were clamped (DESIGN
CHOICE, log 90). -/
def clampedMean (rise fall : List CalEdge) : Nat :=
  let mean (l : List CalEdge) : Nat := ceilDiv ((sumI l (·.err)).natAbs * 1000) (65536 * max 1 l.length)
  max (mean rise) (mean fall)

/-- M of R81 by its kind, from a visit (R72, R81). -/
def driftM (kind : Nat) (es rise fall : List CalEdge) : Nat :=
  match kind with
  | 0 => (driftQuantities es).1
  | 1 => (driftQuantities es).2
  | _ => clampedMean rise fall

/-- ENGINE_RESID_e: mean error in SU and rms in units of 10 fs (R69, R79), over the edges of both senses together (DESIGN CHOICE, log
90). -/
def State.putResid (s : State) (q e : Nat) (es : List CalEdge) : State :=
  if es.isEmpty then s
  else
    let n := es.length
    let m := roundEven (sumI es (·.err)) n
    let r := isqrt ((sumI es (fun e => e.err * e.err)).toNat * 10 ^ 10 / (n * 65536 * 65536))
    (s.put (pQUAD q) (QUAD.ENGINE_RESID.MEAN e) (ofSigned 16 m)).put (pQUAD q) (QUAD.ENGINE_RESID.RMS e) (min r 0xFFFF)

/-- The next target of the calibration cycle (R68, R70, R79): engines 0 to 4, lanes as 8 to 11, and after a cycle a slice of a sweep, as
15, if one is in progress. -/
def nextTarget (sweeping : Bool) (t : Nat) : Nat :=
  if t < 4 then t + 1 else if t = 4 then 8 else if t < 11 then t + 1 else if t = 11 ∧ sweeping then 15 else 0

/-- The edges that a target issued during its visit: those its engine launched, or 2 000 internal ones, 1 MHz for 2 ms, where the lane
carried none; those a lane emitted (R68). -/
def State.visitIssued (s : State) (q target : Nat) : Nat :=
  let n := (s.quad q).launched.getD (if target < 5 then target else target - 3) 0
  if target < 5 ∧ n = 0 then 2000 else n

/-- The edges measured in a visit: no more than were issued (R68). -/
def State.visitEdges (s : State) (q : Nat) (v : CalVisit) : List CalEdge := v.edges.take (s.visitIssued q v.target)

/-- The visit of an engine: terms, residual, drift and failure (R69, R72, R81). -/
def State.visitEngine (s : State) (q : Nat) (v : CalVisit) : State :=
  let e := v.target
  let es := s.visitEdges q v
  let rise := es.filter (·.rising)
  let fall := es.filter (fun x => !x.rising)
  let s1 := ((s.trackTerm q (QUAD.ENGINE_TERM.RISE_SU e) rise).trackTerm q (QUAD.ENGINE_TERM_2.FALL_SU e) fall).putResid q e es
  let g := s.engine q e
  let run (n : Nat) (l : List CalEdge) := if l.length < 64 then n else if (termStep l).2 then n + 1 else 0
  let g1 := { g with clampRise := run g.clampRise rise, clampFall := run g.clampFall fall, termTemp := s.tempAfter g.termTemp rise fall }
  let s2 := s1.setEngine q e g1
  if v.returned ≠ s.visitIssued q e ∨ 3 ≤ (es.filter (fun x => decide (25 * 65536 < x.err.natAbs * 1000))).length then s2.engineFailed q e
  else match s.engineLane q e with
    | none => s2
    | some l =>
      let kind := match driftBeyond es (s.get (pQUAD q) QUAD.CAL_CTL.SWAP_THRESHOLD_PS) with
        | some k => some k
        | none => if 8 ≤ g1.clampRise ∨ 8 ≤ g1.clampFall then some 2 else none
      if s.degraded q l then
        let k := kind.getD ((s.quad q).degradeM.getD l (0, 0)).2
        let s3 := (s2.setQuad q { s2.quad q with degradeM := (s2.quad q).degradeM.set l (driftM k es rise fall, k) }).refreshBounds q
        let waits : Bool := (s.quad q).deferred.contains (l, 1) || ((s.quad q).swap.any (fun w => w.lane == l)) ||
          ((s.quad q).armNext.any (fun a => a.1 == l))
        s3.onlyIf (kind.isSome && !waits) (fun s => s.driftCause q l (driftM k es rise fall, k))
      else match kind with
        | some k => s2.driftCause q l (driftM k es rise fall, k)
        | none => s2

/-- The visit of a lane's pad (R69): a lane that carried no edges is not updated (R68). -/
def State.visitLane (s : State) (q l : Nat) (v : CalVisit) : State :=
  let rise := (s.visitEdges q v).filter (·.rising)
  let fall := (s.visitEdges q v).filter (fun x => !x.rising)
  let s1 := (s.trackTerm q (QUAD.LANE_TERM.RISE_SU l) rise).trackTerm q (QUAD.LANE_TERM_2.FALL_SU l) fall
  s1.setQuad q { s1.quad q with laneTemp := (s1.quad q).laneTemp.set l (s.tempAfter ((s.quad q).laneTemp.getD l (200, 200)) rise fall) }

/-- Whether the visit in progress of a quad's TDC can end: it is to the target named, and 2 ms have passed (R68). -/
def State.visitOver (s : State) (q target : Nat) : Bool :=
  decide (3 ≤ s.stage) && s.flag (pQUAD q) QUAD.CAL_STATE.TDC_OK && s.get (pQUAD q) QUAD.CAL_STATE.TARGET == target &&
    decide ((s.quad q).visitAt + 400000 ≤ s.clk.slot)

/-- The end of a visit, or of a slice of a sweep (R68, R69, R70, R72, R73). -/
def State.calVisit (s : State) (q : Nat) (v : CalVisit) : State :=
  if !s.visitOver q v.target then s
  else
    let s1 := if v.target = 15 then s.setQuad q { s.quad q with slices := (s.quad q).slices + 1 }
      else if s.trackStopped q then s
      else if v.target < 5 then s.visitEngine q v
      else s.visitLane q (v.target - 8) v
    let s2 := (s1.put (pQUAD q) QUAD.CAL_STATE.TARGET (nextTarget (!(s1.quad q).sweeps.isEmpty) v.target)).onlyIf (v.target == 11)
      (fun s => s.incWrap (pQUAD q) QUAD.CAL_STATE.CYCLE)
    ((s2.setQuad q { s2.quad q with visitAt := s.clk.slot, launched := List.replicate 9 0 }).refreshSpare q).refreshBounds q

/-- CAL_VISIT_END (R69). -/
def execCalVisitEnd (q : Nat) (v : CalVisit) (s : State) : Host.Outcome State Fault Refusal :=
  guarded (.calVisitEnd q v) s (fun s => s.calVisit q v)

/-! ### Sweeps (R66, R70, R71, R78) -/

/-- Whether a list is strictly increasing. -/
def increasing : List Nat → Bool
  | a :: b :: l => decide (a < b) && increasing (b :: l)
  | _ => true

/-- The ideal delays of a phase in SU (R70). -/
def idealDelays (p : Nat) : List Int := (List.range 320).map (fun v => ((p * 2560 + v * 8 : Nat) : Int))

/-- The raw codes whose measured delays, from code `c` on, lie nearest to rising ideals: the lower of two as near. A line's delay rises with
its code, so the search goes on from the code of the ideal before (R70; log 100). `n` bounds the walk. -/
def nearestCodes : Nat → Nat → List Int → List Int → List Nat
  | n + 1, c, d :: e :: ds, t :: ts =>
    if (e - t).natAbs < (d - t).natAbs then nearestCodes n (c + 1) (e :: ds) (t :: ts) else c :: nearestCodes n c (d :: e :: ds) ts
  | n + 1, c, [d], _ :: ts => c :: nearestCodes n c [d] ts
  | _, _, _, _ => []

/-- The entries of a list at rising places, the first of the list being place `c`; `n` bounds the walk. -/
def entriesAt : Nat → Int → List Int → List Int → List Int
  | n + 1, c, d :: ds, k :: ks => if c < k then entriesAt n (c + 1) ds (k :: ks) else if c = k then d :: entriesAt n c (d :: ds) ks else []
  | _, _, _, _ => []

/-- VCT_e and PHASE_TRIM_e from what a sweep measured (R66, R70). DESIGN CHOICE (log 100): how the codes found are split is open: VCT is
their mean over the phases, a trim the mean of what its phase needs beside it. -/
def sweepTables (r : SweepResult) : List Nat × List Int :=
  let codes := r.delays.mapIdx (fun p ds => nearestCodes (ds.length + 320) 0 ds (idealDelays p))
  let vct := (codes.foldl (List.zipWith (· + ·)) (List.replicate 320 0)).map (fun n => (roundEven (n : Nat) 16).toNat)
  (vct, codes.map (fun l => roundEven ((l.foldl (· + ·) 0 : Nat) - (vct.foldl (· + ·) 0 : Nat) : Int) 320))

/-- Whether every code of a phase, corrected by its trim, lies within 1.5 ps of its ideal: 98 304 in thousandths of an SU (R70). -/
def residualOk (vct : List Nat) (p : Nat) (ds : List Int) (trim : Int) : Bool :=
  let got := entriesAt (ds.length + 320) 0 ds (vct.map (fun (v : Nat) => (v : Int) + trim))
  got.length == 320 && (got.zip (idealDelays p)).all (fun d => decide ((d.1 - d.2).natAbs * 1000 ≤ 98304))

/-- The tests of a table set (R66, R70). -/
def sweepAccepted (r : SweepResult) : Bool :=
  let t := sweepTables r
  t.1.length == 320 && t.2.length == 16 && increasing t.1 &&
    t.2.all (fun x => decide (x.natAbs ≤ 511)) && decide (512 ≤ t.1.getD 0 0) &&
    t.2.all (fun x => decide (0 ≤ (t.1.getD 0 0 : Int) + x) && decide ((t.1.getD 319 0 : Int) + x ≤ 4095)) &&
    (r.delays.zipIdx.zip t.2).all (fun x => residualOk t.1 x.1.2 x.1.1 x.2) && decide (r.jitterFs ≤ 500)

/-- Whether an engine is being swept or waits to be. -/
def State.inSweep (s : State) (q e : Nat) : Bool := (s.quad q).sweeps.any (fun w => w.1 == e)

/-- Whether a sweep of an engine is due (R70, R71): in Stage 2 every engine without a set, one after another; later the
spare, or the engine of a lane in OFF or LEVEL, on the period or after a move of more than 2 degrees. -/
def State.sweepDue (s : State) (q e : Nat) : Bool :=
  (s.quad q).sweeps.isEmpty && s.engState q e != 5 && s.flag (pQUAD q) QUAD.CAL_STATE.TDC_OK && (s.engine q e).back.isNone &&
  match (s.engine q e).front with
  | none => decide (2 ≤ s.stage) && !s.heldAt2
  | some t =>
    decide (3 ≤ s.stage) &&
    (e == s.spare q && s.engState q e != 4 && s.engState q e != 6 ||
      (match s.engineLane q e with
       | some l => decide (s.chanMode (4 * q + l) < 2) || s.chanMode (4 * q + l) == 8
       | none => false)) &&
    ((s.engine q e).resweep || decide (t.sweptAt + s.get (pQUAD q) QUAD.CAL_CTL.SWEEP_PERIOD_S * 200000000 ≤ s.clk.slot) ||
      decide (16 < (s.dieTemp - t.temp).natAbs))

/-- CAL_STATE shows the sweep that has the TDC (R79). -/
def State.showSweep (s : State) (q : Nat) : State :=
  match (s.quad q).sweeps with
  | [] => s.putFlag (pQUAD q) QUAD.CAL_STATE.SWEEPING false
  | w :: _ => (s.putFlag (pQUAD q) QUAD.CAL_STATE.SWEEPING true).put (pQUAD q) QUAD.CAL_STATE.SWEEP_ENGINE w.1

/-- Begin a sweep of an engine; behind another it waits for the TDC (R70, R71, R78). -/
def State.beginSweep (s : State) (q e : Nat) (retest : Bool) : State :=
  let x := s.quad q
  (s.setQuad q { x with
    sweeps := x.sweeps ++ [(e, retest)]
    sweepAt := if x.sweeps.isEmpty then s.clk.slot else x.sweepAt
    slices := if x.sweeps.isEmpty then 0 else x.slices }).showSweep q

/-- The sweeps of a quad end without a result: the device is held at Stage 2, and they start again when it is released (R70, R317). -/
def State.dropSweeps (s : State) (q : Nat) : State := (s.setQuad q { s.quad q with sweeps := [], slices := 0 }).showSweep q

/-- SWEEP_START (R71). -/
def execSweepStart (q e : Nat) (s : State) : Host.Outcome State Fault Refusal :=
  guarded (.sweepStart q e) s (fun s => if s.sweepDue q e then s.beginSweep q e false else s)

/-- The sweep in progress, if it has had the TDC for 300 ms: without interruption below Stage 3, in slices of 2 ms later (R70); held at
Stage 2 none runs (R317). A retest counts as its own kind (R78). -/
def State.sweepOver (s : State) (q : Nat) (retest : Bool) : Option Nat :=
  match (s.quad q).sweeps with
  | [] => none
  | w :: _ =>
    if w.2 = retest ∧ !s.heldAt2 ∧ (if s.stage < 3 then (s.quad q).sweepAt + 60000000 ≤ s.clk.slot else 150 ≤ (s.quad q).slices) then some w.1 else none

/-- The sweep in progress ends: the next one that waits begins, and IRQ SWEEP_DONE is raised (R78, R79). -/
def State.endSweep (s : State) (q : Nat) : State :=
  ((s.setQuad q { s.quad q with sweeps := (s.quad q).sweeps.drop 1, sweepAt := s.clk.slot, slices := 0 }).showSweep q).irq (pQUAD q) 2

/-- What a ready spare does for causes that waited: a drift is armed; a failed lane is mapped by its own event (R77). -/
def State.serveDeferred (s : State) (q : Nat) : State :=
  if s.spareReady q ∧ (s.quad q).swap.isNone ∧ (s.quad q).armNext.isNone ∧ !s.calHeld q then
    match (s.quad q).deferred with
    | (l, 1) :: _ => s.armSwap q l 1
    | _ => s
  else s

/-- The set a sweep built, with the slot and temperature of the sweep. -/
def State.tableOf (s : State) (r : SweepResult) : TableSet := ⟨(sweepTables r).1, (sweepTables r).2, s.clk.slot, s.dieTemp⟩

/-- The end of a sweep that is no retest (R70, R71). -/
def State.sweepEnd (s : State) (q : Nat) (r : SweepResult) : State :=
  match s.sweepOver q false with
  | none => s
  | some e =>
    let s1 := s.endSweep q
    if sweepAccepted r then
      let g1 := s1.engine q e
      let s2 := if g1.front.isNone then s1.setEngine q e { g1 with front := some (s.tableOf r), resweep := false }
        else s1.setEngine q e { g1 with back := some (s.tableOf r) }
      ((s2.refreshSpare q).serveDeferred q).refreshSettled
    else s1.engineFailed q e

/-- SWEEP_DONE (R70). -/
def execSweepDone (q : Nat) (r : SweepResult) (s : State) : Host.Outcome State Fault Refusal :=
  guarded (.sweepDone q r) s (fun s => s.sweepEnd q r)

/-- Exchange the sets of an engine at a slot boundary (R71). -/
def State.exchangeSets (s : State) (q e : Nat) : State :=
  match (s.engine q e).back with
  | none => s
  | some t => ((s.setEngine q e { s.engine q e with front := some t, back := none, resweep := false }).refreshSpare q).serveDeferred q

/-- TABLE_SET_EXCHANGE (R71). -/
def execTableSetExchange (q e : Nat) (s : State) : Host.Outcome State Fault Refusal :=
  guarded (.tableSetExchange q e) s (fun s => s.exchangeSets q e)

/-- The end of a retest (R78). -/
def State.retestEnd (s : State) (q : Nat) (r : SweepResult) : State :=
  match s.sweepOver q true with
  | none => s
  | some e =>
    let s1 := s.endSweep q
    (if sweepAccepted r then
      ((((s1.setEngine q e { s1.engine q e with front := some (s.tableOf r), back := none, resweep := false }).put (pQUAD q) QUAD.ENGINE_MAP.SPARE
        e).setEngState q e 2).refreshSpare q).serveDeferred q
    else ((s1.setEngState q e 5).err (pQUAD q) 0).put (pQUAD q) QUAD.ENGINE_MAP.SPARE 7).refreshSettled

/-- RETEST_DONE (R78). -/
def execRetestDone (q : Nat) (r : SweepResult) (s : State) : Host.Outcome State Fault Refusal :=
  guarded (.retestDone q r) s (fun s => s.retestEnd q r)

/-! ### Swaps (R74 to R78) -/

/-- Arm a swap at slot boundary A (R74). -/
def State.swapBegin (s : State) (q l reason : Nat) : State :=
  let w : SwapSt := ⟨l, s.laneEngine q l, s.spare q, reason, s.clk.slot,
    s.clk.slot + (if reason = 2 then 206 else 4000), false, none⟩
  ((s.setQuad q { s.quad q with swap := some w, armNext := none }).putFlag (pQUAD q) QUAD.STATUS.SWAP_IN_PROGRESS true).setEngState q
    (s.spare q) 4 |>.putFlag (pQUAD q) QUAD.STATUS.SPARE_READY false

/-- The swap that is armed at this slot boundary: the first after its cause, in Stage 3 or later (R74). The spare that was ready then takes
part in it. -/
def State.armDue (s : State) (q : Nat) : Option (Nat × Nat) :=
  match (s.quad q).armNext with
  | some (l, reason, slot) => if slot < s.clk.slot ∧ 3 ≤ s.stage ∧ (s.quad q).swap.isNone ∧ s.spare q < 5 then some (l, reason) else none
  | none => none

/-- SWAP_ARM (R74). -/
def execSwapArm (q lane reason : Nat) (s : State) : Host.Outcome State Fault Refusal :=
  guarded (.swapArm q lane reason) s (fun s =>
    if s.armDue q = some (lane, reason) then s.swapBegin q lane reason else s)

/-- SWAP_VERIFY (R76): before B, if at least 16 pairs were measured; with fewer the swap relies on SPARE_READY. -/
def State.swapCheck (s : State) (q : Nat) (m : SwapCheck) : State :=
  match (s.quad q).swap with
  | none => s
  | some w =>
    if w.reason = 2 ∨ w.b ≤ s.clk.slot ∨ m.pairs < 16 then s
    else if m.diffFs.natAbs ≤ 2000 ∧ !m.missing then s.setQuad q { s.quad q with swap := some { w with verified := true } }
    else (s.abandonSwap q 2).needSweep q w.new

def execSwapVerify (q : Nat) (m : SwapCheck) (s : State) : Host.Outcome State Fault Refusal :=
  guarded (.swapVerify q m) s (fun s => s.swapCheck q m)

/-- The switch point: the first of the 128 phase points of the slot at least 120 ps from every edge of the lane at the
multiplexer input, whether it is still to be launched or on its way there (R75). -/
def State.switchPoint (s : State) (q l : Nat) : Int :=
  let c := 4 * q + l
  let base : Int := 40960 * s.clk.tclk
  let edges := (s.chan c).issued.map (fun i => s.muxPos c i.engine (s.rising c (i.high.getD false)) i.pos) ++ (s.chan c).muxed
  match (List.range 128).find? (fun (k : Nat) => edges.all (fun p => decide (7865 ≤ (base + 2560 * k - p).natAbs))) with
  | some k => base + 2560 * k
  | none => base

/-- SWAP_SWITCH (R75): in the slot that begins at B the multiplexer connects the lane to the spare; the edges that reach it from the
switch point on are the spare's. -/
def State.swapOver (s : State) (q : Nat) : State :=
  match (s.quad q).swap with
  | none => s
  | some w =>
    if w.switched.isSome ∨ s.clk.slot < w.b then s
    else
      let c := 4 * q + w.lane
      let pt := s.switchPoint q w.lane
      let s1 := s.setChan c { s.chan c with issued := (s.chan c).issued.map (fun i =>
        match i.alt with
        | some n => if pt ≤ s.muxPos c i.engine (s.rising c (i.high.getD false)) i.pos then { i with engine := n.1, pos := n.2.1, raw := n.2.2, alt := none } else i
        | none => i) }
      s1.setQuad q { s1.quad q with swap := some { w with switched := some s.slotNo } }

def execSwapSwitch (q : Nat) (s : State) : Host.Outcome State Fault Refusal :=
  guarded (.swapSwitch q) s (fun s => s.swapOver q)

/-- SWAP_DONE (R75): at B + 5 ns the map, the log and the counters change and the old engine goes to SPARE_SWEEP; an
engine that failed stays FAILED and no spare is left. -/
def State.swapFinish (s : State) (q : Nat) : State :=
  match (s.quad q).swap with
  | none => s
  | some w =>
    match w.switched with
    | none => s
    | some sl =>
      if s.clk.slot < w.b + 1 then s
      else
        let failed := w.reason == 2 || s.engState q w.old == 5
        let s1 := ((s.mapLane q w.lane w.new).put (pQUAD q) QUAD.ENGINE_MAP.SPARE (if failed then 7 else w.old)).setEngState q w.new 1
        let s2 := s1.setEngState q w.old (if failed then 5 else 2)
        let s3 := (s2.recordSwap q 1 w.reason w.new w.old w.lane).put (pQUAD q) QUAD.LAST_SWAP_SLOT.SLOT sl
        let s4 := s3.incSat (pQUAD q) (if w.reason = 2 then QUAD.SWAP_COUNT.FAIL_SWAPS else QUAD.SWAP_COUNT.OTHER_SWAPS)
        let s5 := ((s4.setQuad q { s4.quad q with swap := none, deferred := (s4.quad q).deferred.filter (fun d => d.1 != w.lane) }).putFlag (pQUAD q)
          QUAD.STATUS.SWAP_IN_PROGRESS false).irq (pQUAD q) 0
        (((s5.setDegraded q w.lane false).refreshDeferred q).needSweep q w.old).refreshBounds q

def execSwapDone (q : Nat) (s : State) : Host.Outcome State Fault Refusal :=
  guarded (.swapDone q) s (fun s => s.swapFinish q)

/-- Whether a failed lane is mapped at this slot boundary: the first after the spare became ready, which no channel in CAL mode holds and
no swap takes (R77, R78). -/
def State.remapDue (s : State) (q : Nat) : Bool :=
  !(s.quad q).failedLanes.isEmpty && decide (3 ≤ s.stage) && s.spareReady q && decide ((s.quad q).readyAt < s.clk.slot) && !s.calHeld q &&
    (s.quad q).swap.isNone && (s.quad q).armNext.isNone

/-- FAILED_LANE_REMAP (R77): the first lane that waits is mapped to the ready spare without a shadow. -/
def State.remapLane (s : State) (q : Nat) : State :=
  match (s.quad q).failedLanes.reverse with
  | [] => s
  | l :: _ =>
    if !s.remapDue q then s
    else
      let e := s.spare q
      let old := s.laneEngine q l
      let s1 := ((s.mapLane q l e).put (pQUAD q) QUAD.ENGINE_MAP.SPARE 7).setEngState q e 1
      let s2 := s1.setQuad q { s1.quad q with
        failedLanes := (s1.quad q).failedLanes.filter (· ≠ l)
        deferred := (s1.quad q).deferred.filter (fun d => d.1 ≠ l) }
      let s3 := (((s2.refreshDeferred q).setDegraded q l false).recordSwap q 1 2 e old l).put (pQUAD q) QUAD.LAST_SWAP_SLOT.SLOT s.slotNo
      (((s3.incSat (pQUAD q) QUAD.SWAP_COUNT.FAIL_SWAPS).irq (pQUAD q) 0).refreshSpare q).refreshBounds q

def execFailedLaneRemap (q : Nat) (s : State) : Host.Outcome State Fault Refusal :=
  guarded (.failedLaneRemap q) s (fun s => s.remapLane q)

/-! ### Commands of SWAP_CMD (R74, R77, R78) -/

/-- SWAP_LANE: arms a host swap, refused unless Stage 3 or later with the spare ready and no swap in progress. -/
def State.cmdSwapLane (s : State) (q lane : Nat) : State × Verdict :=
  if 4 ≤ lane then refuse s .range
  else if s.stage < 3 ∨ (s.quad q).swap.isSome ∨ (s.quad q).armNext.isSome ∨ !s.spareReady q ∨ s.calHeld q then refuse s .state
  else accept (s.armSwap q lane 3)

/-- RESWEEP_SPARE: starts a refresh sweep of the spare at once (R78). -/
def State.cmdResweep (s : State) (q : Nat) : State × Verdict :=
  let e := s.spare q
  if s.stage < 3 ∨ 5 ≤ e ∨ (s.quad q).swap.isSome ∨ s.engState q e = 4 ∨ s.calHeld q ∨ s.inSweep q e then refuse s .state
  else accept (s.beginSweep q e false)

/-- RETEST: self-tests and sweeps a FAILED engine when the map names no spare (R78). DESIGN CHOICE (log 90): R78 does not speak of a second
FAILED engine while a RETEST runs; the map names no spare then either, so it is accepted and swept behind the first, and of two whose sets
are accepted the later is the spare and the other stays unmapped. -/
def State.cmdRetest (s : State) (q e : Nat) : State × Verdict :=
  if 5 ≤ e then refuse s .range
  else if s.stage < 3 ∨ s.spare q ≠ 7 ∨ s.engState q e ≠ 5 ∨ (s.quad q).swap.isSome then refuse s .state
  else accept ((s.setEngState q e 2).beginSweep q e true)

/-- A write of SWAP_CMD (R79). -/
def State.swapCmd (s : State) (q v : Nat) : State × Verdict :=
  match bitsOf v 7 0 with
  | 1 => s.cmdSwapLane q (bitsOf v 11 8)
  | 2 => s.cmdResweep q
  | 3 => s.cmdRetest q (bitsOf v 11 8)
  | _ => refuse s .range

/-! ### Faults (R72, R73, R99) -/

/-- TDC_FAULT (R73): tracking stops and bounds grow with temperature. -/
def execTdcFault (q : Nat) (s : State) : Host.Outcome State Fault Refusal :=
  guarded (.tdcFault q) s (fun s => s.inCore (fun s =>
    (((s.setQuad q { s.quad q with tdcFailed := true }).putFlag (pQUAD q) QUAD.CAL_STATE.TDC_OK false).err (pQUAD q) 3).refreshBounds q))

/-- ENGINE_TABLE_ECC (R72): corrected and counted, or the engine has failed, which is not declared while tracking is stopped (R73). -/
def execEngineTableEcc (q e : Nat) (uncorrectable : Bool) (s : State) : Host.Outcome State Fault Refusal :=
  guarded (.engineTableEcc q e uncorrectable) s (fun s => s.inCore (fun s =>
    if !uncorrectable then s.err (pQUAD q) 4
    else if s.trackStopped q then s
    else s.engineFailed q e))

/-- DRIVER_FAULT (R99, R130, R236): pad sense disagrees with the driven level for more than 20 ns. -/
def execDriverFault (page bit : Nat) (s : State) : Host.Outcome State Fault Refusal :=
  guarded (.driverFault page bit) s (fun s => s.inCore (fun s =>
    match pageBlock page with
    | some (.chan, _) => s.err page 1
    | some (.aux, _) => s.err page 0
    | some (.sync, _) => s.err page bit
    | _ => s))

/-! ### Limits of the QUAD and CHAN pages checked at a commit (R64, R88, R92, R93, R95, R96) -/

/-- 42.0 ns in SU (R88). -/
abbrev minTriggerDelay : Int := 2752512

/-- 1 000 s in SU. -/
abbrev kiloSec : Int := 1000 * suSec

/-- Whether a channel's settings, with an effective or pending board delay `bd`, meet R88. -/
def State.delayOk (s : State) (c : Nat) (bd : Int) : Bool :=
  let m := s.get (pCHAN c) CHAN.MODE_CFG.MODE
  (m != 2 && m != 3) || decide (minTriggerDelay ≤ s.getSpan (pCHAN c) CHAN.DELAY.SPAN - bd)

/-- The limits that join fields of a CHAN page, on a state that holds the values the commit would make effective; `bds`
are the board delays to test against (R88, R92, R93, R96, R99). -/
def State.chanLimits (s : State) (c : Nat) (bds : List Int) : Bool :=
  let m := s.get (pCHAN c) CHAN.MODE_CFG.MODE
  let w := s.getSpan (pCHAN c) CHAN.WIDTH.SPAN
  let p := s.getSpan (pCHAN c) CHAN.PERIOD.SPAN
  let ph := s.clockPH c
  bds.all (fun b => s.delayOk c b) &&
  (m == 4 || s.get (pCHAN c) CHAN.PERIOD_FRAC.FRAC == 0) &&
  (match m with
   | 3 => decide (1 ≤ s.get (pCHAN c) CHAN.COUNT.COUNT) && decide (w ≠ 0) && decide (minSpacing ≤ p - w) && decide (327746 ≤ p)
   | 4 => decide (81920 * fine ≤ ph.1) && decide (ph.1 ≤ kiloSec * fine) && decide (minSpacing * fine ≤ ph.2) &&
       decide (ph.2 ≤ ph.1 - minSpacing * fine) &&
       (s.get (pCHAN c) CHAN.OUT_CFG.FORMAT != 3 ||
         (decide (4 * suNs * fine ≤ ph.1) && decide (suNs * fine ≤ ph.2) && decide (suNs * fine ≤ ph.1 - ph.2)))
   | 8 => decide (1000 * (suNs : Int) ≤ p) && decide (p ≤ (suSec : Int))
   | _ => true)

/-- The modes that place edges: an entry into one is refused in device safe state (R301). -/
def placesEdges (m : Nat) : Bool := m != 0

end Sys2Proof.Machine
end

