-- ==== Sys2Proof/Machine/Trig.lean ====
section
/-! DEFINITION. Trigger lines: sources, the four stages of R100, capture and the HOST source (chapter 4, R100 to R103). -/

namespace Sys2Proof.Machine

/-- KIND and INDEX of a source (R101). -/
def lineKind : LineSource → Nat
  | .timingInput _ _ => 1 | .ridge _ => 2 | .scheduler _ _ => 3 | .tick _ => 4 | .marker _ => 5 | .tracker _ => 6 | .host _ => 7
def lineIndex : LineSource → Nat
  | .timingInput i _ => i | .ridge n => n | .scheduler q _ => q | .tick n => n | .marker q => q | .tracker t => t | .host _ => 0

/-- Indices a KIND allows (R101). -/
def kindIndexOk (kind idx : Nat) : Bool :=
  match kind with
  | 0 => idx == 0
  | 1 => decide (idx < 16)
  | 2 => decide (idx < 256)
  | 3 => decide (idx < 16)
  | 4 => decide (idx < 8)
  | 5 => decide (idx < 4)
  | 6 => decide (idx < 4)
  | 7 => idx == 0
  | _ => false

/-- Whether a line takes events of a source: enabled, its KIND and INDEX name the source, and its sense filter passes
the edge (R100 stage 1, R101). A HOST event and a FIRE_LINE action name their own line. -/
def State.lineTakes (s : State) (n : Nat) (src : LineSource) : Bool :=
  s.flag pTRIG (TRIG.TL_SRC.ENABLE n) && s.get pTRIG (TRIG.TL_SRC.KIND n) == lineKind src &&
  s.get pTRIG (TRIG.TL_SRC.INDEX n) == lineIndex src &&
  (match src with
   | .timingInput _ r => bitOf (s.get pTRIG (TRIG.TL_SRC.SENSE n)) (if r then 0 else 1)
   | .host m => m == n
   | .scheduler _ m => m == n
   | _ => true)

/-- The hold-off of a line in SU (R100, R102). -/
def State.holdoff (s : State) (n : Nat) : Nat := s.get pTRIG (TRIG.TL_SHAPE.HOLDOFF n) * 256 * suNs

/-- The capture record of a delivered event (R103). -/
def State.captureRec (s : State) (n : Nat) (e : LineEvent) : Nat :=
  packRec [(128, 128, instantBits e.t), (96, 32, e.teb), (64, 32, s.get pTRIG (TRIG.TL_COUNT.COUNT n)), (32, 32, s.slotNo),
    (28, 4, 1), (24, 4, 5), (16, 8, lineIndex e.src), (12, 4, lineKind e.src), (0, 6, n)]

/-- Hold-off, divider and capacity limit of a line for one event it takes (R100): the state after, and whether the event
is delivered. -/
def State.lineStages (s : State) (n : Nat) (e : LineEvent) : State × Bool :=
  let l := s.line n
  let early := decide (s.holdoff n ≠ 0) && (match l.lastPass with | some p => decide ((e.t : Int) < p + s.holdoff n) | none => false)
  if early then (s, false)
  else
    let d := s.get pTRIG (TRIG.TL_SHAPE.DIVIDE n)
    let s1 := s.setLine n { l with lastPass := some e.t, divCount := (l.divCount + 1) % max 1 d }
    if l.divCount ≠ 0 then (s1, false)
    else if l.lastSlot = some s.clk.slot then ((s1.incSat pTRIG (TRIG.TL_DROPS.COUNT n)).irq pTRIG 0, false)
    else
      let s2 := (s1.setLine n { s1.line n with lastSlot := some s.clk.slot, lastAt := e.t, lastTeb := e.teb }).incWrap pTRIG (TRIG.TL_COUNT.COUNT n)
      (s2.onlyIf (bitOf (s2.get pTRIG TRIG.CAPTURE_EN.LINES) n) (fun s => s.event 5 [s.captureRec n e]), true)

/-- Restart the divider of a line (R100). -/
def State.restartDivider (s : State) (n : Nat) : State := s.setLine n { s.line n with divCount := 0 }

/-- FIRE_NOW, whose event stands at the SCLK edge after acceptance, and FIRE_AT of HOST_FIRE (R101, R102). -/
def State.hostFire (s : State) (v : Nat) : State × Verdict :=
  let n := bitsOf v 13 8
  let code := bitsOf v 7 0
  if code ≠ 1 ∧ code ≠ 2 then refuse s .range
  else if s.stage < 2 ∨ s.get pTRIG (TRIG.TL_SRC.KIND n) ≠ 7 then refuse s .state
  else if code = 1 then accept (s.setLine n { s.line n with fireAt := (s.line n).fireAt ++ [(roundEven s.next32 (2 ^ 32)).toNat] })
  else
    let t := s.getInst pTRIG TRIG.HOST_FIRE_AT.INSTANT
    if !s.atLeastNs t 256 then refuse s .late
    else accept (s.setLine n { s.line n with fireAt := (s.line n).fireAt ++ [t] })

/-- HOST events whose delivery point has come: 1 024 ns before the instant, or the edge after acceptance (R102). -/
def State.hostFiresDue (s : State) : State :=
  s.forEach (List.range 64) (fun n s =>
    let due : List Nat := (s.line n).fireAt.filter (fun t => decide ((t : Int) * fine ≤ s.now32 + horizon32))
    if due.isEmpty then s
    else
      let s1 := s.setLine n { s.line n with fireAt := (s.line n).fireAt.filter (fun t => !decide ((t : Int) * fine ≤ s.now32 + horizon32)) }
      s1.forEach due (fun (t : Nat) s => s.post ⟨.host n, t, s.tebTs t⟩))

/-- BUS_ECC (R102). -/
def execBusEcc (s : State) : Host.Outcome State Fault Refusal := guarded .busEcc s (fun s => s.err pTRIG 0)

end Sys2Proof.Machine
end

