-- ==== Sys2Proof/Machine/Bar2.lean ====
section
/-! DEFINITION. BAR2: pattern memory and the Course table (R48, R108, R113) as a sparse list of bytes. What no write has
touched reads zero (log 3). -/

namespace Sys2Proof.Machine

/-- What an unlisted byte of BAR2 reads (log 3). -/
def memDefault (_ : Nat) : Byte := 0

/-- The canonical form of BAR2's bytes, inside its 64 MiB (R29). -/
def Memory.wf (m : List Host.Cell) : Bool := sparseWf memDefault m && m.all (fun e => decide (e.1 < 67108864))

/-- One byte of BAR2. -/
def State.memByte (s : State) (a : Nat) : Nat := (sparseGet memDefault s.bar2 a).toNat

/-- Store one byte of BAR2; an address outside the 64 MiB does not exist. -/
def State.memPut (s : State) (a b : Nat) : State :=
  if a < 67108864 then { s with bar2 := sparseSet memDefault s.bar2 a (BitVec.ofNat 8 b) } else s

/-- The `n` bytes from address `a` as a little-endian number (R4). -/
def State.memNum (s : State) (a n : Nat) : Nat := leNat 8 ((List.range n).map (fun k => s.memByte (a + k)))

/-- Store a list of bytes from address `a` up. -/
def State.memStore (s : State) (a : Nat) : List Nat → State
  | [] => s
  | b :: bs => (s.memPut a b).memStore (a + 1) bs

/-- Bytes of one bank (R108). -/
abbrev bankBytes : Nat := 0x400000

/-- BAR2 offset of the Course table (R113). -/
abbrev courseBase : Nat := 0x3000000

/-- Record `i` of granule `g` of bank `d`, as its 64 bits (R108). -/
def State.recordAt (s : State) (d g i : Nat) : Nat :=
  if s.ecc.granules.contains (d, g) then 4 * 2 ^ 61 else s.memNum (d * bankBytes + 64 * g + 8 * i) 8

/-- The 256 bits of a Course entry (R113). -/
def State.courseBits (s : State) (c : Nat) : Nat := s.memNum (courseBase + 32 * c) 32

/-- The fields of a Course entry (R113). -/
def courseOf (id v : Nat) : Course where
  id := id
  duration := bitsOf v 51 0
  base := bitsOf v 79 64
  len := bitsOf v 96 80
  last := bitOf v 99
  underrun := bitsOf v 101 100
  jumpCut := bitOf v 102
  consume := bitOf v 103
  jumpCond := bitsOf v 107 104
  next := bitsOf v 119 108
  repeats := bitsOf v 159 128
  jumpCount := bitsOf v 191 160
  jumpTarget := bitsOf v 203 192
  markTl := bitOf v 208
  markSync := bitOf v 209
  markAux := bitsOf v 223 216

/-- The course as its entry reads now. -/
def State.course (s : State) (c : Nat) : Course := courseOf c (s.courseBits c)

/-- Whether a course lies in a Course-table range owned by an agent (R42). -/
def State.inRanges (s : State) (agent c : Nat) : Bool :=
  agent != 0 && s.host.ranges.any (fun r => r.2.2 == agent && decide (r.1 ≤ c) && decide (c < r.1 + r.2.1))

/-- The first failed check of a course for an owner, 0 if it passes (R114). -/
def State.courseCheck (s : State) (owner c : Nat) : Nat :=
  let v := s.courseBits c
  let k := courseOf c v
  if k.duration < 0x1000000 then 1
  else if k.len < 4 ∨ 65536 < k.len then 2
  else if 65536 < k.base + k.len then 3
  else if 2 < k.jumpCond ∨ k.underrun = 3 then 4
  else if bitsOf v 255 224 ≠ 0 ∨ bitsOf v 215 210 ≠ 0 ∨ bitsOf v 207 204 ≠ 0 ∨ bitsOf v 127 120 ≠ 0 ∨ bitsOf v 98 97 ≠ 0 ∨ bitsOf v 63 52 ≠ 0 then 5
  else if !s.inRanges owner c || !s.inRanges owner k.next || (k.jumpCond != 0 && !s.inRanges owner k.jumpTarget) then 6
  else if s.ecc.courses.contains c then 7
  else 0

/-- READY of a course (R121). -/
def State.ready (s : State) (c : Nat) : Bool := bitOf (s.get pCOURSE (COURSE.READY.READY (c / 32))) (c % 32)

/-- Put the READY bit of a course. -/
def State.putReady (s : State) (c : Nat) (b : Bool) : State :=
  s.put pCOURSE (COURSE.READY.READY (c / 32))
    (putBits (s.get pCOURSE (COURSE.READY.READY (c / 32))) (c % 32) (c % 32) (b2n b))

end Sys2Proof.Machine
end

