-- ==== Sys2Proof/Machine/Seq.lean ====
section
/-! DEFINITION. Sequencers: records, courses, decisions, jumps, readiness, refill, starting and stopping (chapter 5, R106
to R129, R132 to R135). -/

namespace Sys2Proof.Machine

def State.seq (s : State) (q : Nat) : SeqSt := s.seqs.getD q {}
def State.setSeq (s : State) (q : Nat) (x : SeqSt) : State := { s with seqs := s.seqs.set q x }

/-- STATE of a sequencer: 0 IDLE, 1 ARMED, 2 RUNNING, 3 PARKED, 4 STOPPED (R133). -/
def State.seqState (s : State) (q : Nat) : Nat := s.get (pSEQ q) SEQ.STATUS.STATE

/-- The quads a sequencer plays (R106). -/
def State.seqQuads (s : State) (q : Nat) : List Nat := bitList 12 (s.get (pSEQ q) SEQ.QUAD_MASK.QUADS)

/-- The channels of a sequencer's quads. -/
def State.seqChans (s : State) (q : Nat) : List Nat := (s.seqQuads q).flatMap (fun d => [4 * d, 4 * d + 1, 4 * d + 2, 4 * d + 3])

/-- Whether a channel plays records: it is in SEQ mode and not in safe state (R107, R128). -/
def State.seqPlays (s : State) (c : Nat) : Bool := s.chanMode c == 5 && (s.chan c).safe.isEmpty

/-- The channels of a sequencer that play records. -/
def State.seqLanes (s : State) (q : Nat) : List Nat := (s.seqChans q).filter s.seqPlays

/-- Owner of a sequencer. -/
def State.seqOwner (s : State) (q : Nat) : Nat := s.get (pSEQ q) SEQ.OWNER.OWNER_ID

/-- End of an occurrence: its truncation, or start + 8 x DURATION (R111, R119). -/
def SeqOcc.stop (o : SeqOcc) : Int := match o.trunc with | some x => x | none => o.start + 8 * o.course.duration

/-- Where playback ends, and why: at the earlier of a stop at the end of an occurrence and STOP_NOW's (R128). -/
def SeqSt.ends (x : SeqSt) : Option (Int × Nat) :=
  match x.stop, x.halt with
  | some (u, k), some h => if u ≤ h then some (u, k) else some (h, 1)
  | some p, none => some p
  | none, some h => some (h, 1)
  | none, none => none

/-- Whether playback ends at or before an instant (R128). -/
def SeqSt.endsBy (x : SeqSt) (t : Int) : Bool := match x.ends with | some (u, _) => decide (u ≤ t) | none => false

/-- The bound of an instant of a sequencer's playback (R127, R240). -/
def State.seqTeb (s : State) (q : Nat) (t : Int) : Nat :=
  match (s.seq q).basis with
  | .event b e => s.tebFrom b e t
  | _ => s.tebTs t

/-- A sequencer event record, if its kind is enabled (R135). -/
def State.seqRecord (s : State) (q kind : Nat) (t : Int) (data other course : Nat) : State :=
  if bitOf (s.get (pSEQ q) SEQ.EVENT_MASK.KINDS) (kind - 1) then
    s.event 6 [packRec [(128, 128, instantBits t.toNat), (96, 32, s.seqTeb q t), (64, 32, data), (52, 12, other),
      (36, 12, course), (28, 4, 1), (24, 4, 6), (8, 8, kind), (0, 2, q)]]
  else s

/-- Change STATE and produce the STATE record (R133, R135). -/
def State.seqPutState (s : State) (q st reason : Nat) (t : Int) : State :=
  if s.seqState q = st then s
  else (s.put (pSEQ q) SEQ.STATUS.STATE st).seqRecord q 6 t (16 * reason + st) 0 (s.get (pSEQ q) SEQ.CURRENT.COURSE)

/-! ### Lanes -/

/-- Insert a record into a lane's buffer by target, after those of the same target. -/
def insertRec (r : SeqRec) : List SeqRec → List SeqRec
  | [] => [r]
  | x :: xs => if r.t32 < x.t32 then r :: x :: xs else x :: insertRec r xs

/-- Put a record into a lane's buffer. -/
def State.bufferRec (s : State) (c : Nat) (r : SeqRec) : State :=
  s.setChan c { s.chan c with seqBuf := insertRec r (s.chan c).seqBuf }

/-- Every SEQ-mode lane gets an edge to IDLE_LEVEL with target `t`; none is placed where the level is that (R125, R128). -/
def State.seqIdle (s : State) (q : Nat) (t : Int) : State :=
  s.forEach (s.seqLanes q) (fun c s => s.bufferRec c ⟨t * fine, .set (s.idle c), q, (s.seq q).basis⟩)

/-- Records with targets at or after `t` are not played: those fetched are taken out of the lanes (R119, R128). -/
def State.seqDropFrom (s : State) (q : Nat) (t : Int) : State :=
  let s1 := s.forEach (s.seqChans q) (fun c s =>
    let ch := s.chan c
    let gone (e : Edge) : Bool := e.origin == .seq && decide (t * fine ≤ e.t32)
    let iss := ch.issued.filter (fun i => !gone i.edge)
    let s2 := s.setChan c { ch with
      seqBuf := ch.seqBuf.filter (fun r => r.q != q || decide (r.t32 < t * fine))
      wait := ch.wait.filter (fun e => !gone e)
      issued := iss
      nextLevel := iss.foldl (fun l i => i.high.getD l) ch.level
      nextDriven := iss.foldl (fun _ i => i.high.isSome) ch.driven }
    s2.forEach (s2.mirrorsOf c) (fun m s =>
      let off := s.getSpan (pCHAN m) CHAN.OFFSET.SPAN
      s.setChan m { s.chan m with wait := (s.chan m).wait.filter (fun e => !(e.origin == .mirror && decide ((t + off) * fine ≤ e.t32))) }))
  s1.setSeq q { s1.seq q with marks := (s1.seq q).marks.filter (fun m => decide (m.1 < t)) }

/-! ### Loop counters (R116) -/

/-- The counter assigned to a course. -/
def State.loopOf (s : State) (q c : Nat) : Option Nat :=
  (List.range 16).find? (fun k => s.flag (pSEQ q) (SEQ.LOOP_COURSE.VALID k) && s.get (pSEQ q) (SEQ.LOOP_COURSE.COURSE k) == c)

/-- A counter assigned to no course. -/
def State.loopFree (s : State) (q : Nat) : Option Nat :=
  (List.range 16).find? (fun k => !s.flag (pSEQ q) (SEQ.LOOP_COURSE.VALID k))

/-- loop(c), 0 while no counter is assigned. -/
def State.loopCount (s : State) (q c : Nat) : Nat :=
  match s.loopOf q c with | some k => s.get (pSEQ q) (SEQ.LOOP_COUNT.COUNT k) | none => 0

/-- Advance loop(c), assigning a counter at the first jump. -/
def State.loopBump (s : State) (q c : Nat) : State :=
  match s.loopOf q c with
  | some k => s.put (pSEQ q) (SEQ.LOOP_COUNT.COUNT k) (s.get (pSEQ q) (SEQ.LOOP_COUNT.COUNT k) + 1)
  | none =>
    match s.loopFree q with
    | some k => ((s.put (pSEQ q) (SEQ.LOOP_COURSE.COURSE k) c).putFlag (pSEQ q) (SEQ.LOOP_COURSE.VALID k) true).put (pSEQ q) (SEQ.LOOP_COUNT.COUNT k) 1
    | none => s

/-- Free one counter. -/
def State.loopClear (s : State) (q k : Nat) : State :=
  (s.wr (pSEQ q) (SEQ.LOOP_COURSE.off k) 0).wr (pSEQ q) (SEQ.LOOP_COUNT.off k) 0

/-- Free the counter of a course. -/
def State.loopDrop (s : State) (q c : Nat) : State := match s.loopOf q c with | some k => s.loopClear q k | none => s

/-- Free every counter. -/
def State.loopDropAll (s : State) (q : Nat) : State := s.forEach (List.range 16) (fun k s => s.loopClear q k)

/-! ### Markers, stops and requests -/

/-- The trigger-line marker of an occurrence whose fetch begins (R129). -/
def State.seqMarkTl (s : State) (q : Nat) (o : SeqOcc) : State :=
  if o.course.markTl then s.post ⟨.marker q, o.start.toNat, s.seqTeb q o.start⟩ else s

/-- Show the chosen successor (R133). -/
def State.showSuccessor (s : State) (q : Nat) : State :=
  match (s.seq q).chain with
  | o :: _ => (s.put (pSEQ q) SEQ.CURRENT.SUCCESSOR o.course.id).putFlag (pSEQ q) SEQ.CURRENT.SUCC_VALID true
  | [] => (s.put (pSEQ q) SEQ.CURRENT.SUCCESSOR 0).putFlag (pSEQ q) SEQ.CURRENT.SUCC_VALID false

/-- Clear the pending request and what STATUS shows of it (R117, R118). -/
def State.clearRequest (s : State) (q : Nat) : State :=
  (((s.setSeq q { s.seq q with request := none }).putFlag (pSEQ q) SEQ.STATUS.REQUEST_PENDING false).putFlag (pSEQ q)
    SEQ.STATUS.JUMP_DEFERRED false).putFlag (pSEQ q) SEQ.STATUS.JUMP_WAITING false

/-- Playback will stop at instant `t` for a reason; no successor stays chosen (R115, R128). -/
def State.seqStopAt (s : State) (q : Nat) (t : Int) (reason : Nat) : State :=
  let s1 := s.setSeq q { s.seq q with stop := some (t, reason), chain := [], decided := true, park := false, resumeSlot := none }
  ((s1.seqDropFrom q t).seqIdle q t).showSuccessor q

/-- The stop itself (R128). -/
def State.seqStop (s : State) (q : Nat) (t : Int) (reason : Nat) : State :=
  let s1 := (s.clearRequest q).loopDropAll q
  let s2 := s1.setSeq q { s1.seq q with
    arm := none, cur := none, started := false, fetched := false, chain := [], decided := false, stop := none, halt := none,
    stopAtEnd := none, safeStop := none, park := false, resumeSlot := none }
  let s3 := ((((s2.showSuccessor q).put (pSEQ q) SEQ.STOP_INFO.REASON reason).put (pSEQ q) SEQ.STOP_INFO.COURSE
    (s.get (pSEQ q) SEQ.CURRENT.COURSE)).putInst (pSEQ q) SEQ.STOP_INSTANT.INSTANT t)
  (s3.seqPutState q 4 reason t).irq (pSEQ q) 1

/-- A successor that fails its check stops playback at `t` (R114). -/
def State.seqBadCourse (s : State) (q : Nat) (t : Int) : State := (s.err (pSEQ q) 0).seqStopAt q t 4

/-! ### Cuts (R119) -/

/-- Opcode, lane and offset of a record, and whether a reserved bit is set (the table of R109). -/
def recOp (v : Nat) : Nat := bitsOf v 63 61
def recLane (v : Nat) : Nat := bitsOf v 59 58
def recOffset (v : Nat) : Nat := bitsOf v 51 0
def recReserved (v : Nat) : Bool := bitOf v 60 || bitsOf v 57 52 != 0

/-- Whether a record is a valid END. -/
def recIsEnd (v : Nat) : Bool := recOp v == 5 && !recReserved v

/-- Smallest offset among the records of opcode 0 to 3. -/
def minOffset (vs : List Nat) : Option Nat :=
  (vs.filter (fun v => decide (recOp v < 4))).foldl (fun a v => match a with | some x => some (min x (recOffset v)) | none => some (recOffset v)) none

/-- Candidate points of one bank: the smallest offset of each granule up to the END record (R119). -/
def State.bankPoints (s : State) (d : Nat) : Nat → Nat → List Nat
  | 0, _ => []
  | k + 1, g =>
    let vs := (List.range 8).map (fun i => s.recordAt d g i)
    let before := vs.takeWhile (fun v => !recIsEnd v)
    (match minOffset before with | some x => [x] | none => []) ++
      (if before.length < 8 then [] else s.bankPoints d k (g + 1))

/-- The points at which an occurrence may be cut: its candidate points before its end, and its end (R119). -/
def State.cutPoints (s : State) (q : Nat) (o : SeqOcc) : List Int :=
  ((s.seqQuads q).flatMap (fun d => (s.bankPoints d o.course.len o.course.base).map (fun (x : Nat) => o.start + 8 * (x : Int)))).filter
    (fun t => decide (t < o.stop)) ++ [o.stop]

/-- The earliest of some instants at or after a fine instant. -/
def earliest (l : List Int) (lim32 : Int) : Option Int :=
  (l.filter (fun t => decide (lim32 ≤ t * fine))).foldl (fun a t => match a with | some x => some (min x t) | none => some t) none

/-- The cut instant of a request at `r32`: the instant, and whether it truncates the chosen successor (R119). -/
def State.cutInstant (s : State) (q : Nat) (r32 : Int) : Option (Int × Bool) :=
  let x := s.seq q
  match x.cur with
  | none => none
  | some o =>
    match earliest (s.cutPoints q o) (r32 + horizon32) with
    | some t => some (t, false)
    | none =>
      if x.park then none
      else match x.chain with
        | n :: _ => (earliest (s.cutPoints q n) (r32 + horizon32)).map (fun t => (t, true))
        | [] => none

/-- Slots from a READY bit to the start of a parked successor: 2 048 ns to the next slot boundary (R125). -/
abbrev parkSlots : Nat := 410

/-- Set READY of a course, and note the slot (R115). -/
def State.markReady (s : State) (c : Nat) : State :=
  if s.ready c then s
  else
    let s1 := s.putReady c true
    { s1 with ecc := { s1.ecc with
      readySlot := s.clk.slot
      readyNew := if s.ecc.readySlot = s.clk.slot then c :: s.ecc.readyNew else [c] } }

/-- READY of a course as a decision of this slot sees it: a bit set at the SCLK edge of the decision instant counts as set after it
(R115, R132). -/
def State.readyBefore (s : State) (c : Nat) : Bool := s.ready c && !(s.ecc.readySlot == s.clk.slot && s.ecc.readyNew.contains c)

/-! ### Decisions (R115, R125) -/

/-- The choice at a decision instant, in the order of R115. -/
inductive SeqChoice where
  | stop (reason : Nat)
  | go (c : Nat) (via : SeqVia)
deriving DecidableEq, Repr

/-- The choice of R115 for the occurrence playing. -/
def State.seqChoose (s : State) (q : Nat) (o : SeqOcc) : SeqChoice :=
  let x := s.seq q
  let c := o.course
  let before (a : Option Nat) : Bool := match a with | some k => decide (k < s.clk.slot) | none => false
  let loop := s.loopCount q c.id
  if before x.stopAtEnd then .stop 1
  else if before x.safeStop then .stop 6
  else if c.jumpCond == 2 && !c.jumpCut && (match x.request with | some r => decide (r < o.stop * fine - horizon32) | none => false) then
    .go c.jumpTarget (.request (s.flag (pSEQ q) SEQ.STATUS.JUMP_DEFERRED))
  else if c.repeats = 0 ∨ s.get (pSEQ q) SEQ.OCCURRENCE.COUNT + 1 < c.repeats then .go c.id (.again false)
  else if c.jumpCond = 1 ∧ (c.jumpCount = 0 ∨ loop < c.jumpCount) then
    if (s.loopOf q c.id).isNone ∧ (s.loopFree q).isNone then .stop 5 else .go c.jumpTarget .count
  else if c.last then .stop 2
  else .go c.next .next

/-- The underrun policy of the course playing (R125). Under PARK a READY bit set at the very edge of D starts the successor as one set later
does (R132). -/
def State.seqUnderrun (s : State) (q : Nat) (o : SeqOcc) (succ : Nat) (via : SeqVia) : State :=
  let b := o.stop
  let s1 := (s.incSat (pSEQ q) SEQ.UNDERRUN_COUNT.COUNT).onlyIf (!s.flag (pSEQ q) SEQ.FIRST_UNDERRUN.VALID) (fun s =>
    ((s.put (pSEQ q) SEQ.FIRST_UNDERRUN.FROM_COURSE o.course.id).put (pSEQ q) SEQ.FIRST_UNDERRUN.COURSE succ).putFlag (pSEQ q)
      SEQ.FIRST_UNDERRUN.VALID true)
  let s2 := (s1.irq (pSEQ q) 2).seqRecord q 4 b o.course.underrun o.course.id succ
  match o.course.underrun with
  | 0 =>
    let n : SeqOcc := { course := o.course, start := b, via := .again true }
    ((s2.setSeq q { s2.seq q with chain := [n], decided := true }).showSuccessor q).seqMarkTl q n
  | 1 =>
    let s3 := match via with | .request _ => s2.clearRequest q | _ => s2
    ((s3.setSeq q { s3.seq q with
      chain := [{ course := s.course succ, start := b, via := via }], decided := true, park := true, resumeSlot := if s3.ready succ then some (s3.clk.slot + parkSlots) else none,
      fetched := false }).seqIdle q b).showSuccessor q
  | _ => s2.seqStopAt q b 3

/-- The decision at D (R115). -/
def State.seqDecide (s : State) (q : Nat) : State :=
  match (s.seq q).cur with
  | none => s
  | some o =>
    match s.seqChoose q o with
    | .stop reason => s.seqStopAt q o.stop reason
    | .go c via =>
      if s.courseCheck (s.seqOwner q) c ≠ 0 then s.seqBadCourse q o.stop
      else if c ≠ o.course.id ∧ !s.readyBefore c then s.seqUnderrun q o c via
      else
        let n : SeqOcc := { course := s.course c, start := o.stop, via := via }
        let s1 := match via with | .request _ => s.clearRequest q | _ => s
        ((s1.setSeq q { s1.seq q with chain := [n], decided := true }).showSuccessor q).seqMarkTl q n

/-- Whether the decision instant of the occurrence playing has come (R115). An occurrence that STOP_NOW ends has no end to decide for (log 98). -/
def State.decideDue (s : State) (q : Nat) : Bool :=
  let x := s.seq q
  x.started && !x.decided && (match x.cur with
    | some o => decide (o.stop * fine - horizon32 ≤ s.now32) && !(match x.halt with | some h => decide (h ≤ o.stop) | none => false)
    | none => false)

/-- The decision of the occurrence playing, where its instant lies at or before `r32` and it is still to be made: what comes at `r32`
comes after it (R115, R118, R119, R132). -/
def State.decideBy (s : State) (q : Nat) (r32 : Int) : State :=
  s.onlyIf (s.decideDue q && (match (s.seq q).cur with | some o => decide (o.stop * fine - horizon32 ≤ r32) | none => false))
    (fun s => s.seqDecide q)

/-! ### Jump requests (R117 to R120) -/

/-- Note that the occurrence playing cannot take the request (R118). -/
def State.deferRequest (s : State) (q : Nat) : State :=
  (s.putFlag (pSEQ q) SEQ.STATUS.JUMP_DEFERRED true).irq (pSEQ q) 4

/-- A CUT course takes the pending request as of `r32`: its target starts at X (R119). The occurrence cannot take it when
a cut is already taken or playback stops before X. A target that fails its check leaves the records after X in place and stops playback at
the end of the occurrence (R114). The stop of STOP_NOW stands (R132), and a request that truncates the chosen successor counts as deferred. -/
def State.takeCut (s : State) (q : Nat) (r32 : Int) : State :=
  let x := s.seq q
  match x.cur, s.cutInstant q r32 with
  | some o, some (t, second) =>
    let taken := o.trunc.isSome || x.chain.any (fun n => match n.via with | .cut _ => true | _ => false)
    if taken || x.endsBy t then s.deferRequest q
    else
      let k := s.course o.course.jumpTarget
      let deferred := s.flag (pSEQ q) SEQ.STATUS.JUMP_DEFERRED || second
      let s0 := (if second then s.irq (pSEQ q) 4 else s).clearRequest q
      if s0.courseCheck (s0.seqOwner q) k.id ≠ 0 then s0.seqBadCourse q o.stop
      else
        let s1 := s0.seqDropFrom q t
        let s2 := match x.halt with | some h => s1.seqIdle q h | none => s1
        let n : SeqOcc := { course := k, start := t, via := .cut deferred }
        let chain := if second then (match x.chain with
            | m :: _ => [if t < m.stop then { m with trunc := some t } else m, n]
            | [] => [n]) else [n]
        let o1 := if second ∨ t = o.stop then o else { o with trunc := some t }
        ((s2.setSeq q { s2.seq q with cur := some o1, chain := chain, decided := true, park := false, resumeSlot := none, stop := none
          }).showSuccessor q).seqMarkTl q n
  | _, _ => s.deferRequest q

/-- What the occurrence playing at `r32` does with the pending request (R118, R120). -/
def State.considerRequest (s : State) (q : Nat) (r32 : Int) : State :=
  match (s.seq q).cur with
  | none => s
  | some o =>
    if o.course.jumpCond = 2 ∧ o.course.jumpCut then
      if s.ready o.course.jumpTarget then s.takeCut q r32 else s.putFlag (pSEQ q) SEQ.STATUS.JUMP_WAITING true
    else if o.course.jumpCond = 2 ∧ !(s.seq q).decided ∧ r32 < (o.stop * fine - horizon32) then s
    else s.deferRequest q

/-- A jump request with its request instant (R117). -/
def State.seqRequest (s : State) (q : Nat) (r32 : Int) : State :=
  let st := s.seqState q
  if (st ≠ 2 ∧ st ≠ 3) ∨ (s.seq q).request.isSome then s.incSat (pSEQ q) SEQ.REQUESTS_DISCARDED.COUNT
  else
    let s1 := (s.setSeq q { s.seq q with request := some r32 }).putFlag (pSEQ q) SEQ.STATUS.REQUEST_PENDING true
    if st = 3 then s1 else (s1.decideBy q r32).considerRequest q r32

/-! ### READY set (R120, R121, R125) -/

/-- Set READY of a course; a park that waits for it gets its start, and a CUT request that waits for it is taken as
though its instant were now (R120, R121, R125). -/
def State.setReady (s : State) (c : Nat) : State :=
  (s.markReady c).forEach (List.range 4) (fun q s =>
    let x := s.seq q
    let s1 := match x.park, x.resumeSlot, x.chain with
      | true, none, n :: _ => if n.course.id = c then s.setSeq q { x with resumeSlot := some (s.clk.slot + parkSlots) } else s
      | _, _, _ => s
    match x.request, x.cur with
    | some _, some o =>
      if s1.flag (pSEQ q) SEQ.STATUS.JUMP_WAITING ∧ s1.seqState q = 2 ∧ o.course.jumpCond = 2 ∧ o.course.jumpCut ∧ o.course.jumpTarget = c then
        ((s1.putFlag (pSEQ q) SEQ.STATUS.JUMP_WAITING false).decideBy q s1.now32).takeCut q s1.now32
      else s1
    | _, _ => s1)

/-- The raw position of the slot boundary `slot`, as an instant. -/
def State.instantOfSlot (s : State) (slot : Nat) : Int := s.stampOf (40960 * (s.clk.tclk + 8 * ((slot : Int) - s.clk.slot)))

/-- Whether the first occurrence after START may begin its fetch: 1 024 ns before S0 (R127). -/
def State.firstFetchDue (s : State) (q : Nat) : Bool :=
  let x := s.seq q
  !x.fetched && !x.started && (match x.arm, x.cur with
    | some (.at_ _), some o => decide (o.start * fine ≤ s.now32 + horizon32)
    | none, some o => decide (o.start * fine ≤ s.now32 + horizon32)
    | _, _ => false)

/-- Whether a parked successor may begin its fetch: 1 024 ns before its start (R125). -/
def State.parkFetchDue (s : State) (q : Nat) : Bool :=
  let x := s.seq q
  x.park && !x.fetched && (match x.resumeSlot with | some k => decide (k ≤ s.clk.slot + 205) | none => false)

/-- Begin the fetch of the first occurrence (R127). -/
def State.seqFirstFetch (s : State) (q : Nat) : State :=
  match (s.seq q).cur with
  | some o => (s.setSeq q { s.seq q with fetched := true }).seqMarkTl q o
  | none => s

/-- Fix the start of a parked successor and begin its fetch (R125). -/
def State.seqParkFetch (s : State) (q : Nat) : State :=
  let x := s.seq q
  match x.chain, x.resumeSlot with
  | n :: _, some k =>
    let n1 := { n with start := s.instantOfSlot k }
    (s.setSeq q { x with chain := [n1], fetched := true }).seqMarkTl q n1
  | _, _ => s

/-- SEQ_DECISION (R115): a decision, or the fetch of an occurrence that no decision began (R125, R127). -/
def execSeqDecision (q : Nat) (s : State) : Host.Outcome State Fault Refusal :=
  guarded (.seqDecision q) s (fun s =>
    if s.decideDue q then s.seqDecide q
    else if s.firstFetchDue q then s.seqFirstFetch q
    else if s.parkFetchDue q then s.seqParkFetch q
    else s)

/-! ### Starts of occurrences (R111, R116, R121, R129) -/

/-- A jump takes effect (R133, R135). -/
def State.jumpTaken (s : State) (q : Nat) (t : Int) (data course target : Nat) : State :=
  ((s.incWrap (pSEQ q) SEQ.JUMPS_TAKEN.COUNT).irq (pSEQ q) 3).seqRecord q 3 t data target course

/-- Counters that change when an occurrence starts after course `c` (R115, R116, R125). -/
def State.seqCounters (s : State) (q : Nat) (c : Nat) (n : SeqOcc) : State :=
  let occ0 (s : State) := s.put (pSEQ q) SEQ.OCCURRENCE.COUNT 0
  match n.via with
  | .start => (occ0 s).irq (pSEQ q) 0
  | .again true => s
  | .again false => s.incWrap (pSEQ q) SEQ.OCCURRENCE.COUNT
  | .next => (occ0 s).loopDrop q c
  | .request d => (occ0 s).jumpTaken q n.start (2 * b2n d) c n.course.id
  | .count => ((occ0 s).loopBump q c).jumpTaken q n.start 0 c n.course.id
  | .cut d => (occ0 s).jumpTaken q n.start (2 * b2n d + 1) c n.course.id

/-- SYNC_OUT and aux markers at the start of an occurrence (R129, R130). -/
def State.seqMarkers (s : State) (q : Nat) (o : SeqOcc) : State :=
  let s1 := if o.course.markSync ∧ s.get pSYNC SYNC.SYNC_OUT_CFG.SOURCE = 0 ∧ s.get pSYNC SYNC.SYNC_OUT_CFG.SEQ = q then
      { s with sync := { s.sync with marks := s.sync.marks ++ [o.start] } } else s
  { s1 with auxMarks := s1.auxMarks ++ (bitList 8 o.course.markAux).map (fun n => ⟨n, q, o.start⟩) }

/-- An occurrence of a course ends and another course follows: CONSUME clears READY (R121). -/
def State.consumeReady (s : State) (p : Course) (next : Nat) : State := if p.consume ∧ p.id ≠ next then s.putReady p.id false else s

/-- An occurrence starts (R111): counters, READY, CURRENT, OCCURRENCE, SEG_START, markers and records. -/
def State.seqBegin (s : State) (q : Nat) (n : SeqOcc) (rest : List SeqOcc) : State :=
  let x := s.seq q
  let prev := x.cur.map (·.course)
  let c := match n.via with | .start => 0 | _ => (prev.map (·.id)).getD 0
  let s1 := s.seqCounters q c n
  let s2 := match n.via, prev with
    | .start, _ => s1
    | _, some p => if s.seqState q = 3 then s1 else s1.consumeReady p n.course.id
    | _, none => s1
  let s3 := s2.setSeq q { s2.seq q with
    arm := none, cur := some n, started := true, fetched := true, chain := rest, decided := !rest.isEmpty || x.stop.isSome,
    park := false, resumeSlot := none }
  let s4 := (((s3.put (pSEQ q) SEQ.CURRENT.COURSE n.course.id).showSuccessor q).putInst (pSEQ q) SEQ.SEG_START.INSTANT n.start)
  let s5 := (s4.seqPutState q 2 0 n.start).seqRecord q 1 n.start (s4.get (pSEQ q) SEQ.OCCURRENCE.COUNT) c n.course.id
  let s6 := s5.seqMarkers q n
  match (s6.seq q).request with
  | some _ =>
    if n.course.jumpCond = 2 ∧ n.course.jumpCut then s6.considerRequest q (n.start * fine) else s6
  | none => s6

/-- PARKED at B: the occurrence ends there, and the successor stays chosen (R121, R125). -/
def State.seqPark (s : State) (q : Nat) (b : Int) : State :=
  let s1 := match (s.seq q).cur, (s.seq q).chain with
    | some o, n :: _ => s.consumeReady o.course n.course.id
    | _, _ => s
  (s1.seqPutState q 3 0 b).irq (pSEQ q) 9

/-- Whether the next occurrence starts now, by a cut or not (R111, R119). -/
def State.startDue (s : State) (q : Nat) (cut : Bool) : Bool :=
  let x := s.seq q
  if !x.started then !cut && (match x.cur with | some o => x.fetched && s.reached o.start | none => false)
  else match x.chain with
    | n :: _ => !x.park && s.reached n.start && (cut == (match n.via with | .cut _ => true | _ => false))
    | [] => false

/-- Whether a park begins now. -/
def State.parkDue (s : State) (q : Nat) : Bool :=
  let x := s.seq q
  x.started && x.park && s.seqState q == 2 && (match x.cur with | some o => s.reached o.stop | none => false)

/-- Start the first occurrence, or the next of the chain. -/
def State.seqAdvance (s : State) (q : Nat) : State :=
  let x := s.seq q
  if !x.started then match x.cur with | some o => s.seqBegin q o x.chain | none => s
  else match x.chain with
    | n :: rest => s.seqBegin q n rest
    | [] => s

/-- SEQ_OCCURRENCE_START (R111): the successor starts, or the sequencer parks at B (R125). -/
def execSeqOccurrenceStart (q : Nat) (s : State) : Host.Outcome State Fault Refusal :=
  guarded (.seqOccurrenceStart q) s (fun s =>
    if s.parkDue q then s.seqPark q (((s.seq q).cur.map SeqOcc.stop).getD 0)
    else if s.startDue q false then s.seqAdvance q else s)

/-- SEQ_CUT (R119): at X the jump target starts. -/
def execSeqCut (q : Nat) (s : State) : Host.Outcome State Fault Refusal :=
  guarded (.seqCut q) s (fun s => if s.startDue q true then s.seqAdvance q else s)

/-- Whether a parked successor starts now (R125). -/
def State.resumeDue (s : State) (q : Nat) : Bool :=
  let x := s.seq q
  s.seqState q == 3 && x.fetched && (match x.resumeSlot with | some k => decide (k ≤ s.clk.slot) | none => false)

/-- SEQ_PARK_RESUME (R125). -/
def execSeqParkResume (q : Nat) (s : State) : Host.Outcome State Fault Refusal :=
  guarded (.seqParkResume q) s (fun s => if s.resumeDue q then s.seqAdvance q else s)

/-- Whether an occurrence starts before an instant that has come too. -/
def State.startsBefore (s : State) (q : Nat) (t : Int) : Bool :=
  (s.startDue q false || s.startDue q true) &&
    (match (s.seq q).started, (s.seq q).cur, (s.seq q).chain with
      | false, some o, _ => decide (o.start < t)
      | true, _, n :: _ => decide (n.start < t)
      | _, _, _ => false)

/-- Whether the stop instant has come (R128). -/
def State.stopDue (s : State) (q : Nat) : Bool :=
  match (s.seq q).ends with | some (t, _) => s.reached t && !s.startsBefore q t | none => false

/-- SEQ_STOP (R128). -/
def execSeqStop (q : Nat) (s : State) : Host.Outcome State Fault Refusal :=
  guarded (.seqStop q) s (fun s =>
    match (s.seq q).ends with
    | some (t, reason) => if s.stopDue q then s.seqStop q t reason else s
    | none => s)

/-! ### Records (R109 to R112) -/

/-- The occurrences whose records are being fetched, in playing order. -/
def State.seqFetching (s : State) (q : Nat) : List SeqOcc :=
  let x := s.seq q
  (match x.cur with | some o => if x.fetched || x.started then [o] else [] | none => []) ++
    (if x.park && !(x.fetched && s.seqState q == 3) then [] else x.chain)

/-- The records a lane holds: its edges and its MARKs on their way (R112). -/
def State.laneHeld (s : State) (q c : Nat) : Nat :=
  (s.chan c).seqBuf.length + (s.seq q).marks.countP (fun m => 4 * m.2.1 + m.2.2.1 == c)

/-- The earliest launch among the records from position `pos` on that bank `d` still has to deliver of an occurrence and that play: those of
opcode 0 to 3 on lanes that play, with a target before the end of the occurrence or its cut (R110, R112, R119). -/
def State.bankNeed (s : State) (q d : Nat) (o : SeqOcc) : Nat → Nat → Option Int → Option Int
  | 0, _, best => best
  | k + 1, pos, best =>
    let v := s.recordAt d (o.course.base + pos / 8) (pos % 8)
    let t : Int := o.start + 8 * (recOffset v : Int)
    let l := t - s.getSpan (pQUAD d) (QUAD.BOARD_DELAY.SPAN (recLane v))
    if recIsEnd v then best
    else if recOp v < 4 && !recReserved v && decide (t < o.stop) && !(s.seq q).endsBy t && s.seqPlays (4 * d + recLane v) then
      s.bankNeed q d o k (pos + 1) (some (match best with | some x => min x l | none => l))
    else s.bankNeed q d o k (pos + 1) best

/-- What bank `d` still has to deliver of an occurrence by when; none where nothing of it plays any more. -/
def State.occNeed (s : State) (q d : Nat) (o : SeqOcc) : Option Int :=
  let b := o.banks.getD d {}
  if b.ended then none else s.bankNeed q d o (8 * o.course.len - b.pos) b.pos none

/-- The next record of bank `d` of an occurrence, if the bank has one left and its lane has room: a bank delivers one granule per slot
(R108), a lane in SEQ mode holds 512 records (R112). -/
def State.bankOffer (s : State) (q d : Nat) (o : SeqOcc) : Option Nat :=
  let b := o.banks.getD d {}
  if b.ended ∨ 8 * o.course.len ≤ b.pos then none
  else
    let v := s.recordAt d (o.course.base + b.pos / 8) (b.pos % 8)
    let c := 4 * d + recLane v
    if b.pos % 8 = 0 ∧ s.clk.slot < (s.seq q).granule.getD d 0 then none
    else if recOp v < 4 ∧ s.seqPlays c ∧ 512 ≤ s.laneHeld q c then none
    else some v

/-- Put an occurrence among those that a bank serves: the sooner needed first, one of which nothing plays any more last. -/
def insertNeed (n : Option Int) (o : SeqOcc × Nat) : List (Option Int × SeqOcc × Nat) → List (Option Int × SeqOcc × Nat)
  | [] => [(n, o)]
  | x :: xs =>
    let sooner : Bool := match n, x.1 with
      | some a, some b => decide (a < b)
      | some _, none => true
      | none, _ => false
    if sooner then (n, o) :: x :: xs else x :: insertNeed n o xs

/-- The order in which a bank serves the occurrences being fetched: a granule begun is finished; then the occurrence first whose remaining
records are needed first, so that no granule of padding holds back a record of another occurrence (R112, R119; log 98). -/
def State.bankOrder (s : State) (q d : Nat) (os : List (SeqOcc × Nat)) : List (SeqOcc × Nat) :=
  match os with
  | [] => []
  | [o] => [o]
  | _ =>
    let begun (o : SeqOcc × Nat) : Bool := (o.1.banks.getD d {}).pos % 8 != 0 && !(o.1.banks.getD d {}).ended
    os.filter begun ++
      ((os.filter (fun o => !begun o)).foldl (fun l o => insertNeed (s.occNeed q d o.1) o l) []).map (·.2)

/-- The next record of bank `d`: which occurrence of `seqFetching` it belongs to, and the record. -/
def State.bankNext (s : State) (q d : Nat) : Option (Nat × SeqOcc × Nat) :=
  (s.bankOrder q d (s.seqFetching q).zipIdx).findSome? (fun oi => (s.bankOffer q d oi.1).map (fun v => (oi.2, oi.1, v)))

/-- Put the fetch state of bank `d` of occurrence `i`. -/
def State.putBank (s : State) (q d i : Nat) (b : SeqBank) : State :=
  let x := s.seq q
  let upd (o : SeqOcc) : SeqOcc := { o with banks := o.banks.set d b }
  let hasCur := match x.cur with | some _ => x.fetched || x.started | none => false
  if hasCur then
    if i = 0 then s.setSeq q { x with cur := x.cur.map upd }
    else s.setSeq q { x with chain := x.chain.mapIdx (fun j o => if j + 1 = i then upd o else o) }
  else s.setSeq q { x with chain := x.chain.mapIdx (fun j o => if j = i then upd o else o) }

/-- A faulty record (R110). -/
def State.recordError (s : State) (q : Nat) : State := (s.incSat (pSEQ q) SEQ.RECORD_ERRORS.COUNT).irq (pSEQ q) 8

/-- A record of opcode 0 to 3 with a good offset, at its target instant `t` (R110, R112, R119, R127, R128). -/
def State.playRecord (s : State) (q d v : Nat) (o : SeqOcc) : State :=
  let t : Int := o.start + 8 * (recOffset v : Int)
  let c := 4 * d + recLane v
  let x := s.seq q
  let late := (s.incSat (pSEQ q) SEQ.LATE_RECORDS.COUNT).irq (pSEQ q) 7
  if o.stop ≤ t ∨ x.endsBy t then s
  else if t * fine < x.lateBefore then late
  else if recOp v = 3 then s.setSeq q { x with marks := x.marks ++ [(t, d, recLane v, o.course.id)] }
  else
    let ch := s.chan c
    let lvl := (ch.seqBuf.filter (fun r => decide (r.t32 ≤ t * fine))).foldl
      (fun l r => match r.kind with | .set b => b | .toggle => !l | _ => l) (levelAfter ch.nextLevel ch.wait)
    let kind : EdgeKind := if recOp v = 0 then .set true else if recOp v = 1 then .set false else .toggle
    let high := match kind with | .set b => b | _ => !lvl
    let p32 := s.placementTarget c (s.laneEngine d (recLane v)) (s.rising c high) (t * fine)
    if p32 < s.now32 + 40 * suNs * fine then late else s.bufferRec c ⟨t * fine, kind, q, x.basis⟩

/-- The next record of bank `d` is read and acts by its opcode (R110). A record of opcode 0 to 3 of a lane that is not in SEQ mode when it is
read is discarded without effect (R107; log 98). DESIGN CHOICE (log 98): a record of opcode 6 or 7, and one of opcode 4 to 7 with a reserved
bit, counts in RECORD_ERRORS (R110) whatever the mode of the lane it names. A record that a reserved bit keeps from being played is no
previous record of its lane (log 98). -/
def State.consumeRecord (s : State) (q d i : Nat) (o : SeqOcc) (v : Nat) : State :=
  let b := o.banks.getD d {}
  let s1 := if b.pos % 8 = 0 then s.setSeq q { s.seq q with granule := (s.seq q).granule.set d (s.clk.slot + 1) } else s
  let next := { b with pos := b.pos + 1 }
  if recOp v < 4 ∧ !s.seqPlays (4 * d + recLane v) then s1.putBank q d i next
  else if recReserved v ∨ 5 < recOp v then (s1.putBank q d i next).recordError q
  else if recOp v = 4 then s1.putBank q d i next
  else if recOp v = 5 then s1.putBank q d i { next with ended := true }
  else
    let s2 := s1.putBank q d i { next with lanes := b.lanes.set (recLane v) (recOffset v) }
    if recOffset v < b.lanes.getD (recLane v) 0 ∨ o.course.duration ≤ recOffset v then s2.recordError q
    else s2.playRecord q d v o

/-- The opcode row a record is played by: an error of opcode 6 or 7 acts as NOP does, but is counted (R110). -/
def rowOp (v : Nat) : Nat := if 5 < recOp v then 4 else recOp v

/-- Opcode of the first record that some bank can deliver now. -/
def State.recordDue (s : State) (q : Nat) : Option Nat :=
  (s.seqQuads q).findSome? (fun d => (s.bankNext q d).map (fun r => rowOp r.2.2))

/-- Read the first record of an opcode that some bank of the sequencer can deliver now. -/
def State.playOp (s : State) (q op : Nat) : State :=
  match (s.seqQuads q).findSome? (fun d => match s.bankNext q d with
    | some r => if rowOp r.2.2 = op then some (d, r) else none
    | none => none) with
  | some (d, i, o, v) => s.consumeRecord q d i o v
  | none => s

/-- EDGE_HI (R110). -/
def execEdgeHi (q : Nat) (s : State) : Host.Outcome State Fault Refusal := guarded (.edgeHi q) s (fun s => s.playOp q 0)

/-- EDGE_LO (R110). -/
def execEdgeLo (q : Nat) (s : State) : Host.Outcome State Fault Refusal := guarded (.edgeLo q) s (fun s => s.playOp q 1)

/-- TOGGLE (R110). -/
def execToggle (q : Nat) (s : State) : Host.Outcome State Fault Refusal := guarded (.toggle q) s (fun s => s.playOp q 2)

/-- A MARK whose target instant has come. -/
def State.markDue (s : State) (q : Nat) : Option (Int × Nat × Nat × Nat) := (s.seq q).marks.find? (fun m => s.reached m.1)

/-- MARK (R110): at the target instant of a fetched MARK its event record, else the next MARK is read. -/
def execMark (q : Nat) (s : State) : Host.Outcome State Fault Refusal :=
  guarded (.mark q) s (fun s =>
    match s.markDue q with
    | some m =>
      let s1 := s.setSeq q { s.seq q with marks := (s.seq q).marks.erase m }
      if s1.seqPlays (4 * m.2.1 + m.2.2.1) then s1.seqRecord q 2 m.1 (4 * m.2.1 + m.2.2.1) 0 m.2.2.2 else s1
    | none => s.playOp q 3)

/-- RECORD_NOP (R110). -/
def execRecordNop (q : Nat) (s : State) : Host.Outcome State Fault Refusal := guarded (.recordNop q) s (fun s => s.playOp q 4)

/-- RECORD_END (R110). -/
def execRecordEnd (q : Nat) (s : State) : Host.Outcome State Fault Refusal := guarded (.recordEnd q) s (fun s => s.playOp q 5)

/-! ### Memory errors (R108, R114) -/

/-- The sequencer that holds a quad (R106). -/
def State.seqOfQuad (s : State) (d : Nat) : Option Nat := (List.range 4).find? (fun q => (s.seqQuads q).contains d)

/-- BANK_ECC (R108): counted in the page of the sequencer that holds the quad. -/
def execBankEcc (q granule : Nat) (uncorrectable : Bool) (s : State) : Host.Outcome State Fault Refusal :=
  guarded (.bankEcc q granule uncorrectable) s (fun s => s.inCore (fun s =>
    let s1 := if uncorrectable ∧ !s.ecc.granules.contains (q, granule) then
        { s with ecc := { s.ecc with granules := (q, granule) :: s.ecc.granules } } else s
    match s1.seqOfQuad q with
    | some n => s1.err (pSEQ n) (if uncorrectable then 2 else 3)
    | none => s1))

/-- COURSE_TABLE_ECC (R114, R134). -/
def execCourseTableEcc (c : Nat) (uncorrectable : Bool) (s : State) : Host.Outcome State Fault Refusal :=
  guarded (.courseTableEcc c uncorrectable) s (fun s => s.inCore (fun s =>
    let s1 := if uncorrectable ∧ !s.ecc.courses.contains c then { s with ecc := { s.ecc with courses := c :: s.ecc.courses } } else s
    s1.err pCOURSE (if uncorrectable then 0 else 1)))

/-! ### Active ranges and writes to BAR2 (R48, R122) -/

/-- The courses of a sequencer that are playing, chosen as successor, or the target of a taken cut (R122): the first occurrence plays from S0
on. -/
def State.activeCourses (s : State) (q : Nat) : List Course :=
  let x := s.seq q
  (match x.cur with | some o => if x.started ∧ s.seqState q ≠ 3 then [o.course] else [] | none => []) ++ x.chain.map (·.course)

/-- Whether a range of granules meets an active range of a sequencer (R122). -/
def State.rangeActive (s : State) (q base len : Nat) : Bool :=
  (s.activeCourses q).any (fun c => decide (base < c.base + c.len) && decide (c.base < base + len))

/-- Whether a course is the current one or a chosen successor (R122). -/
def State.courseActive (s : State) (c : Nat) : Bool := (List.range 4).any (fun q => (s.activeCourses q).any (fun k => k.id == c))

/-- A dropped write into an active range (R122). -/
def State.activeDrop (s : State) (q a : Nat) : State :=
  (((s.onlyIf (!s.flag (pSEQ q) SEQ.FIRST_DROP_ADDR.VALID) (fun s =>
    (s.put (pSEQ q) SEQ.FIRST_DROP_ADDR.OFFSET a).putFlag (pSEQ q) SEQ.FIRST_DROP_ADDR.VALID true))).incSat (pSEQ q)
      SEQ.ACTIVE_WRITE_DROPS.COUNT).irq (pSEQ q) 6

/-- A dropped write to the entry of an active course (R122). -/
def State.courseDrop (s : State) (c : Nat) : State :=
  (((s.onlyIf (!s.flag pCOURSE COURSE.FIRST_COURSE_DROP.VALID) (fun s =>
    (s.put pCOURSE COURSE.FIRST_COURSE_DROP.COURSE c).putFlag pCOURSE COURSE.FIRST_COURSE_DROP.VALID true))).incSat pCOURSE
      COURSE.COURSE_WRITE_DROPS.COUNT).irq pCOURSE 0

/-- A BAR2 write dropped for its address or its agent (R48). -/
def State.bar2Drop (s : State) : State := (s.err pHOSTQ 1).incSat pHOSTQ HOSTQ.BAR2_DROP_COUNT.COUNT

/-- What becomes of a part of a BAR2 write (R48, R122). -/
inductive Bar2Fate where
  | stored
  | dropped
  /-- In an active range of a sequencer. -/
  | active (q : Nat)
  /-- In the entry of an active course. -/
  | entry (c : Nat)
deriving DecidableEq, Repr

/-- What becomes of a byte written at a BAR2 offset (R48, R122). -/
def State.bar2Fate (s : State) (a : Nat) : Bar2Fate :=
  let agent := s.get pOWN OWN.BAR2_AGENT.AGENT
  if a < courseBase then
    match s.seqOfQuad (a / bankBytes) with
    | none => .dropped
    | some q =>
      if agent = 0 ∨ s.seqOwner q ≠ agent then .dropped
      else if s.rangeActive q (a % bankBytes / 64) 1 then .active q
      else .stored
  else if a < courseBase + 0x20000 then
    let c := (a - courseBase) / 32
    if !s.inRanges agent c then .dropped else if s.courseActive c then .entry c else .stored
  else .dropped

/-- A stored part of a BAR2 write: its bytes, with new ECC for its granule or entry. -/
def State.bar2Store (s : State) (a : Nat) (bytes : List Nat) : State :=
  let s1 := s.memStore a bytes
  if a < courseBase then { s1 with ecc := { s1.ecc with granules := s1.ecc.granules.filter (· ≠ (a / bankBytes, a % bankBytes / 64)) } }
  else { s1 with ecc := { s1.ecc with courses := s1.ecc.courses.filter (· ≠ (a - courseBase) / 32) } }

/-- The parts of a write in the naturally aligned 32-byte units it meets, half granules and Course entries: offset and bytes. -/
def bar2Parts (a : Nat) (bytes : List Nat) : List (Nat × List Nat) :=
  (List.range (bytes.length / 32 + 2)).filterMap (fun k =>
    let lo := max a (32 * (a / 32 + k))
    let hi := min (a + bytes.length) (32 * (a / 32 + k + 1))
    if lo < hi then some (lo, (bytes.drop (lo - a)).take (hi - lo)) else none)

/-- A BAR2 write (R48, R122). Each granule or Course entry that it meets takes its part or drops it; what the write loses for one reason
counts once (log 98). -/
def State.bar2Write (s : State) (a : Nat) (bytes : List Nat) : State :=
  let parts := bar2Parts a bytes
  let s1 := s.forEach parts (fun p s' => if s.bar2Fate p.1 = .stored then s'.bar2Store p.1 p.2 else s')
  let s2 := s1.onlyIf (parts.any (fun p => s.bar2Fate p.1 == .dropped)) State.bar2Drop
  let s3 := s2.forEach (List.range 4) (fun q s' =>
    match parts.find? (fun p => s.bar2Fate p.1 == .active q) with | some p => s'.activeDrop q p.1 | none => s')
  match parts.findSome? (fun p => match s.bar2Fate p.1 with | .entry c => some c | _ => none) with
  | some c => s3.courseDrop c
  | none => s3

/-! ### Refill (R123) -/

/-- Renew QUEUED (R133). -/
def State.refillShow (s : State) (q : Nat) : State := s.put (pSEQ q) SEQ.REFILL_STATE.QUEUED (s.seq q).refills.length

/-- One refill ends (R123). -/
def State.refillEnded (s : State) (q : Nat) (r : Refill) (failed set : Bool) : State :=
  ((s.incWrap (pSEQ q) SEQ.REFILL_STATE.DONE).irq (pSEQ q) 5).seqRecord q 5 s.now (32 * b2n failed + 16 * b2n set + r.quad) 0 r.course

/-- Whether the host path is SPI (R28). -/
def State.hostSpi (s : State) : Bool := s.flag pDEV DEV.STATUS.HOST_SEL

/-- SUBMIT of a refill by an agent that owns the sequencer (R123). -/
def State.refillSubmit (s : State) (agent q : Nat) : State × Verdict :=
  let c := s.get (pSEQ q) SEQ.REFILL_ARG.COURSE
  let d := s.get (pSEQ q) SEQ.REFILL_ARG.QUAD
  let a := s.get (pSEQ q) SEQ.REFILL_ADDR.ADDR
  let k := s.course c
  if !s.inRanges agent c then refuse s .denied
  else if !(s.seqQuads q).contains d || s.courseCheck (s.seqOwner q) c != 0 || a % 64 != 0 then refuse s .range
  else if s.hostSpi || s.rangeActive q k.base k.len then refuse s .state
  else if 16 ≤ (s.seq q).refills.length then refuse s .busy
  else
    let s1 := s.putReady c false
    let r : Refill := ⟨c, k.base, k.len, d, a, s.flag (pSEQ q) SEQ.REFILL_ARG.SET_READY, false⟩
    accept ((s1.setSeq q { s1.seq q with refills := (s1.seq q).refills ++ [r] }).refillShow q)

/-- FLUSH of refills: those not yet started are discarded (R133). -/
def State.refillFlush (s : State) (q : Nat) : State × Verdict :=
  accept ((s.setSeq q { s.seq q with refills := (s.seq q).refills.take 1 }).refillShow q)

/-- The first refill ends with the granules it read (R123): a write into an active range is dropped and ends it. -/
def State.refillFinish (s : State) (q : Nat) (bytes : List Nat) : State :=
  match (s.seq q).refills with
  | [] => s
  | r :: rest =>
    if bytes.length ≠ 64 * r.len then s
    else
      let a := r.quad * bankBytes + 64 * r.base
      if s.rangeActive q r.base r.len then
        let s1 := s.setSeq q { s.seq q with refills := rest.map (fun x => { x with tainted := true }) }
        ((s1.activeDrop q a).refillShow q).refillEnded q r true false
      else
        let s1 := s.memStore a bytes
        let bad := s1.ecc.granules.filter (fun g => !(g.1 == r.quad && decide (r.base ≤ g.2) && decide (g.2 < r.base + r.len)))
        let s2 := { s1 with ecc := { s1.ecc with granules := bad } }
        let set := r.setReady && !r.tainted
        let s3 := ((s2.setSeq q { s2.seq q with refills := rest }).refillShow q).refillEnded q r false set
        if set then s3.setReady r.course else s3

/-- A DMA error abandons the refill and every queued refill (R123). -/
def State.refillError (s : State) (q : Nat) : State :=
  let rs := (s.seq q).refills
  if rs.isEmpty then s
  else ((((s.setSeq q { s.seq q with refills := [] }).refillShow q).err (pSEQ q) 1)).forEach rs (fun r s => s.refillEnded q r true false)

/-- REFILL_DONE (R123): with the endpoint down there is no DMA to complete. -/
def execRefillDone (q : Nat) (bytes : List Nat) (s : State) : Host.Outcome State Fault Refusal :=
  guarded (.refillDone q bytes) s (fun s => if s.pcieUp then s.refillFinish q bytes else s)

/-- Whether a refill waits for a DMA that the endpoint, being down, cannot make (R123). -/
def State.refillStuck (s : State) (q : Nat) : Bool := !(s.seq q).refills.isEmpty && !s.pcieUp

/-- REFILL_DMA_ERROR (R123). -/
def execRefillDmaError (q : Nat) (s : State) : Host.Outcome State Fault Refusal :=
  guarded (.refillDmaError q) s (fun s => s.refillError q)

/-! ### Commands of SEQ_n.CMD (R117, R127, R128, R133) -/

/-- START in a mode, with a first course and an instant for AT_INSTANT (R127); none is taken in device safe state (R301). -/
def State.seqStartAt (s : State) (q mode c : Nat) (s0 : Int) : State × Verdict :=
  let p := pSEQ q
  let st := s.seqState q
  let delay := s.getSpan p SEQ.START_DELAY.SPAN
  if !s.flag p SEQ.CONTROL.ENABLE ∨ (st ≠ 0 ∧ st ≠ 4) ∨ s.get p SEQ.QUAD_MASK.QUADS = 0 ∨ s.stage < 2 ∨ s.gutter.safe then refuse s .state
  else if s.courseCheck (s.seqOwner q) c ≠ 0 then refuse s .range
  else if mode ≠ 0 ∧ (delay < 1100 * (suNs : Int) ∨ 1000 * (suSec : Int) < delay) then refuse s .range
  else if mode = 0 ∧ !s.atLeastNs s0 256 then refuse s .late
  else
    let arm : SeqArm := match mode with | 0 => .at_ s0 | 1 => .onSync | _ => .onTrig (s.get p SEQ.START_CFG.START_LINE)
    let s1 := (s.clearRequest q).loopDropAll q
    let s2 := s1.setSeq q { (s1.seq q) with
      arm := some arm, cur := some { course := s.course c, start := if mode = 0 then s0 else 0, via := .start },
      started := false, fetched := false, chain := [], decided := false, stop := none, halt := none, stopAtEnd := none, safeStop := none, park := false,
      resumeSlot := none, basis := .own, lateBefore := if mode = 0 then s.now32 + horizon32 else 0, granule := List.replicate 12 0, marks := [] }
    let s3 := s2.seqPutState q 1 0 s.now
    accept (if s3.firstFetchDue q then s3.seqFirstFetch q else s3)

/-- START (R127). -/
def State.seqStart (s : State) (q : Nat) : State × Verdict :=
  s.seqStartAt q (s.get (pSEQ q) SEQ.START_CFG.START_MODE) (s.get (pSEQ q) SEQ.START_COURSE.COURSE) (s.getInst (pSEQ q) SEQ.START_AT.INSTANT)

/-- The event that an ARMED sequencer waits for: RUNNING from here, S0 = its instant + START_DELAY as the register stands at the event (R127;
log 98). -/
def State.seqTriggered (s : State) (q t teb : Nat) : State :=
  let x := s.seq q
  match x.cur with
  | none => s
  | some o =>
    let s0 : Int := t + s.getSpan (pSEQ q) SEQ.START_DELAY.SPAN
    let s1 := (s.setSeq q { x with arm := none, cur := some { o with start := s0 }, basis := .event teb t }).seqPutState q 2 0 s.now
    if s1.firstFetchDue q then s1.seqFirstFetch q else s1

/-- STOP_AT_END (R128). -/
def State.seqStopEnd (s : State) (q : Nat) : State × Verdict :=
  if s.seqState q = 0 ∨ s.seqState q = 4 then refuse s .state
  else accept (s.setSeq q { s.seq q with stopAtEnd := some ((s.seq q).stopAtEnd.getD s.clk.slot) })

/-- The stop of STOP_NOW: what is chosen and starts before it still starts (R132). -/
def State.seqHaltFrom (s : State) (q : Nat) (t : Int) : State :=
  let x := s.seq q
  let s1 := (s.seqDropFrom q t).seqIdle q t
  s1.setSeq q { s1.seq q with halt := some t, chain := x.chain.filter (fun n => decide (n.start < t)) }

/-- A PARKED sequencer stops at once (R128): what was fetched of its successor is not played. -/
def State.seqStopParked (s : State) (q reason : Nat) : State := ((s.seqDropFrom q s.now).seqIdle q s.now).seqStop q s.now reason

/-- STOP_NOW (R128): at the first slot boundary at least 1 024 ns later, at once if PARKED; an earlier stop stands. -/
def State.seqStopNow (s : State) (q : Nat) : State × Verdict :=
  let t := s.instantOfSlot (s.clk.slot + 205)
  match s.seqState q with
  | 0 => refuse s .state
  | 4 => refuse s .state
  | 3 => accept (s.seqStopParked q 1)
  | _ => accept (if (s.seq q).endsBy t then s else s.seqHaltFrom q t)

/-- JUMP (R117). -/
def State.seqJump (s : State) (q : Nat) : State × Verdict :=
  if s.seqState q ≠ 2 ∧ s.seqState q ≠ 3 then refuse s .state else accept (s.seqRequest q s.now32)

/-- CLEAR_REQUEST (R117). -/
def State.seqClear (s : State) (q : Nat) : State × Verdict := accept (s.clearRequest q)

/-- DISARM (R127). -/
def State.seqDisarm (s : State) (q : Nat) : State × Verdict :=
  if s.seqState q ≠ 1 then refuse s .state
  else
    let s1 := s.setSeq q { s.seq q with
      arm := none, cur := none, fetched := false, chain := [], stop := none, halt := none, stopAtEnd := none, safeStop := none }
    accept ((s1.seqDropFrom q 0).seqPutState q 0 0 s.now)

/-- A write of SEQ_n.CMD (R133). -/
def State.seqCmd (s : State) (q v : Nat) : State × Verdict :=
  match bitsOf v 7 0 with
  | 1 => s.seqStart q
  | 2 => s.seqStopEnd q
  | 3 => s.seqStopNow q
  | 4 => s.seqJump q
  | 5 => s.seqClear q
  | 6 => s.seqDisarm q
  | _ => refuse s .range

/-- A write of REFILL_CMD (R133). -/
def State.refillCmd (s : State) (agent q v : Nat) : State × Verdict :=
  match bitsOf v 7 0 with
  | 1 => s.refillSubmit agent q
  | 2 => s.refillFlush q
  | _ => refuse s .range

/-- Orphan action SAFE (R47, R128): the occurrence playing ends at its end, also where its decision has passed; an ARMED sequencer, or one
whose first occurrence is still to start, at the end of what it starts; a parked one stops at once. A stop already to come no later stands. -/
def State.seqOrphan (s : State) (q : Nat) : State :=
  let x := s.seq q
  let next := s.setSeq q { x with safeStop := some s.clk.slot }
  match s.seqState q with
  | 1 => next
  | 2 => match x.cur with
    | some o =>
      if x.started && decide (o.stop * fine - horizon32 ≤ s.now32) then (if x.endsBy o.stop then s else s.seqStopAt q o.stop 6) else next
    | none => next
  | 3 => s.seqStopParked q 6
  | _ => s

/-- Device safe state: playback stops at once and lanes follow R98 (R128, R301). -/
def State.seqDeviceSafe (s : State) (q : Nat) : State :=
  if s.seqState q = 0 ∨ s.seqState q = 4 then s else (s.seqDropFrom q 0).seqStop q s.now 6

/-- A step of the timescale by `d` SU (R132): the pattern stays physically continuous; START_AT keeps its value, and with S0 move the records
already fetched. -/
def State.seqStep (s : State) (q : Nat) (d : Int) : State :=
  let x := s.seq q
  let mv (e : Int) (o : SeqOcc) : SeqOcc := { o with start := o.start + e, trunc := o.trunc.map (· + e) }
  let held (x : SeqSt) : SeqSt := { x with
    stop := x.stop.map (fun u => (u.1 + d, u.2)), halt := x.halt.map (· + d), lateBefore := x.lateBefore + d * fine }
  match x.arm with
  | some (.at_ s0) =>
    let t := if s.atLeastNs s0 1024 then s0 else s.instantOfSlot (s.clk.slot + 205)
    (s.setSeq q { held x with
      arm := some (.at_ t), cur := x.cur.map (fun o => { o with start := t }), marks := x.marks.map (fun m => (m.1 + (t - s0), m.2))
      }).forEach (s.seqChans q) (fun c s => s.chanSeqMove ((t - s0) * fine) 0 c)
  | some _ => s.setSeq q (held x)
  | none =>
    let s1 := s.setSeq q { held x with
      cur := x.cur.map (mv d), chain := x.chain.map (mv d), request := x.request.map (· + d * fine), basis := x.basis.shift (d * fine),
      marks := x.marks.map (fun m => (m.1 + d, m.2)) }
    let s2 := s1.forEach (s.seqChans q) (fun c s => s.chanSeqMove (d * fine) (d * fine) c)
    match (s2.seq q).cur with
    | some o => if x.started ∧ s.seqState q = 2 then s2.putInst (pSEQ q) SEQ.SEG_START.INSTANT o.start else s2
    | none => s2

/-! ### READY_CMD (R114, R121, R134) -/

/-- The courses named by READY_ARG. -/
def State.namedCourses (s : State) : List Nat :=
  (List.range (s.get pCOURSE COURSE.READY_ARG.COUNT)).map (fun k => s.get pCOURSE COURSE.READY_ARG.FIRST + k)

/-- SET (R121): refused with STATE for a course with a queued refill (R134). -/
def State.readySetCmd (s : State) : State × Verdict :=
  if s.namedCourses.any (fun c => (List.range 4).any (fun q => (s.seq q).refills.any (fun r => r.course == c))) then refuse s .state
  else accept (s.forEach s.namedCourses (fun c s => s.setReady c))

/-- CLEAR (R121). -/
def State.readyClearCmd (s : State) : State × Verdict := accept (s.forEach s.namedCourses (fun c s => s.putReady c false))

/-- VALIDATE (R114): the first failing course is recorded, and a failure reports RANGE (R134). -/
def State.validateCmd (s : State) (agent : Nat) : State × Verdict :=
  match s.namedCourses.find? (fun c => s.courseCheck agent c != 0) with
  | some c => (((s.put pCOURSE COURSE.VALIDATE_RESULT.COURSE c).put pCOURSE COURSE.VALIDATE_RESULT.CHECK (s.courseCheck agent c)).putFlag
      pCOURSE COURSE.VALIDATE_RESULT.FAIL true, ⟨.range, none⟩)
  | none => accept (s.wr pCOURSE COURSE.VALIDATE_RESULT.off 0)

/-- A write of READY_CMD by an agent (R134). -/
def State.readyCmd (s : State) (agent v : Nat) : State × Verdict :=
  let first := s.get pCOURSE COURSE.READY_ARG.FIRST
  let count := s.get pCOURSE COURSE.READY_ARG.COUNT
  let code := bitsOf v 7 0
  if code = 0 ∨ 3 < code then refuse s .range
  else if 4096 < first + count then refuse s .range
  else if agent = 0 ∨ !s.host.ranges.any (fun r => r.2.2 == agent && decide (r.1 ≤ first) && decide (first + count ≤ r.1 + r.2.1)) then refuse s .denied
  else match code with
    | 1 => s.readySetCmd
    | 2 => s.readyClearCmd
    | _ => s.validateCmd agent

end Sys2Proof.Machine
end

