-- ==== Sys2Proof/Machine/Sync.lean ====
section
/-! DEFINITION. The SYNC block: SYNC_IN, SYNC_OUT and PPS_OUT (R130, R131). -/

namespace Sys2Proof.Machine

/-- Whether SYNC_IN_CFG lets an edge of SYNC_IN deliver an event (R130). -/
def State.syncTakes (s : State) (rising : Bool) : Bool :=
  s.flag pSYNC SYNC.SYNC_IN_CFG.ENABLE && bitOf (s.get pSYNC SYNC.SYNC_IN_CFG.SENSE) (if rising then 0 else 1)

/-- SYNC_IN becomes UNRESOLVED: from the setting of ENABLE, and while it is clear (R131, R161). -/
def State.syncUnresolve (s : State) : State :=
  { s.putFlag pSYNC SYNC.STATUS.IN_UNRESOLVED true with sync := { s.sync with inSince := s.clk.slot, inLevel := none, inLast := none } }

/-- SYNC_IN resolves four SCLK edges after it became UNRESOLVED or last changed side (R161): a signal without a crossing is taken to be
steady (log 97). -/
def State.syncSlot (s : State) : State :=
  s.onlyIf (s.flag pSYNC SYNC.STATUS.IN_UNRESOLVED && s.flag pSYNC SYNC.SYNC_IN_CFG.ENABLE && decide (s.sync.inSince + 4 ≤ s.clk.slot))
    (fun s => s.putFlag pSYNC SYNC.STATUS.IN_UNRESOLVED false)

/-- The term that a SYNC_IN event adds to the bound of the timescale: the values of R172 (R240), of which the crossing brings the growth
while the set of this interpolator is stale, or its fault (log 97). -/
def State.syncTerm (s : State) (growth : Nat) : Nat :=
  tebAdd (if s.stage < 2 then tebUnknown else if s.stage = 2 then 200 else 10) growth

/-- Deliver a SYNC_IN event: LAST_IN, the count, the cause, and the sequencers that wait for it (R127, R131). -/
def State.syncIn (s : State) (t growth : Nat) : State :=
  let e := ((t : Int) - s.getSpan pSYNC SYNC.IN_SKEW.SPAN).toNat
  let b := tebAdd (tebAdd (s.tebTs e) (s.syncTerm growth)) (s.get pSYNC SYNC.IN_SKEW_UNC.UNC_PS)
  let s1 := (((s.putInst pSYNC SYNC.LAST_IN.INSTANT e).put pSYNC SYNC.LAST_IN_TEB.TEB_PS b).incWrap pSYNC SYNC.IN_COUNT.COUNT).irq pSYNC 0
  s1.forEach (List.range 4) (fun q s =>
    if s.seqState q = 1 ∧ (s.seq q).arm = some .onSync then s.seqTriggered q e b else s)

/-- The shortest spacing at which SYNC_IN captures two crossings: 1.25 ns with both cores of its interpolator in service, 2.5 ns with one
(R131, R171). -/
def State.syncSpacing (s : State) : Int := if (s.portCore 0).failed || (s.portCore 1).failed then 163840 else 81920

/-- A crossing of SYNC_IN at the ball (R131): none is reported while UNRESOLVED, nor one to the side the signal is on, nor one of the other
sense, nor one too close to the last captured; with both cores of the interpolator failed none is captured, and the level is still
tracked (R170). -/
def State.syncCross (s : State) (t : Nat) (rising : Bool) (growth : Nat) : State :=
  if !s.flag pSYNC SYNC.SYNC_IN_CFG.ENABLE || s.stage < 2 then s
  else if s.flag pSYNC SYNC.STATUS.IN_UNRESOLVED then { s with sync := { s.sync with inSince := s.clk.slot } }
  else if s.sync.inLevel = some rising then s
  else
    let s1 := { s with sync := { s.sync with inLevel := some rising } }
    let close := match s.sync.inLast with | some p => decide ((t : Int) < p + s.syncSpacing) | none => false
    if !s.syncTakes rising || close || s.portFaulty 0 then s1 else { s1 with sync := { s1.sync with inLast := some t } }.syncIn t growth

/-- SYNC_IN_EVENT (R131): a crossing at the ball at `t`, with the growth of its term. -/
def execSyncInEvent (t : Nat) (rising : Bool) (growth : Nat) (s : State) : Host.Outcome State Fault Refusal :=
  guarded (.syncInEvent t rising growth) s (fun s => s.syncCross t rising growth)

/-- A SYNC_OUT pulse that begins at `t`, or its drop within 300 ps of the end of the last (R131). -/
def State.syncOut (s : State) (t : Int) : State :=
  if t < s.sync.outEnd + minSpacing ∧ s.sync.outEnd ≠ 0 then (s.incSat pSYNC SYNC.OUT_DROPS.COUNT).irq pSYNC 1
  else
    let w := s.get pSYNC SYNC.SYNC_OUT_WIDTH.WIDTH_NS * suNs
    (({ s with sync := { s.sync with outStart := t, outEnd := t + w } }).emit (.pulse false t.toNat (tebAdd (s.tebTs t) 25))).incWrap pSYNC SYNC.OUT_COUNT.COUNT

/-- The whole second the timescale is in. -/
def State.nowSecond (s : State) : Nat := (s.now32 / (suSec * fine)).toNat

/-- SYNC_OUT_PULSE (R131): at a sequencer marker that is due, or at a whole second when that is the source; in device safe
state the pins stay low (R301). -/
def execSyncOutPulse (t : Nat) (s : State) : Host.Outcome State Fault Refusal :=
  guarded (.syncOutPulse t) s (fun s =>
    let on := s.flag pSYNC SYNC.SYNC_OUT_CFG.ENABLE && !s.gutter.safe
    if s.sync.marks.contains (t : Int) then
      let s1 := { s with sync := { s.sync with marks := s.sync.marks.erase t } }
      if on then s1.syncOut t else s1
    else if on ∧ s.get pSYNC SYNC.SYNC_OUT_CFG.SOURCE = 1 ∧ t % suSec = 0 ∧ t / suSec = s.nowSecond ∧ s.sync.outStart ≠ t ∧ s.clk.seeded then
      s.syncOut t
    else s)

/-- PPS_PULSE (R131): PPS_OUT begins a pulse at the whole second the timescale has come to. -/
def execPpsPulse (sec : Nat) (s : State) : Host.Outcome State Fault Refusal :=
  guarded (.ppsPulse sec) s (fun s =>
    if s.clk.seeded ∧ sec = s.nowSecond ∧ s.sync.second ≠ sec then
      let s1 := { s with sync := { s.sync with second := sec } }
      if s.flag pSYNC SYNC.PPS_CFG.ENABLE && !s.gutter.safe then
        let t : Int := sec * suSec
        ({ s1 with sync := { s1.sync with ppsStart := t, ppsEnd := t + s.get pSYNC SYNC.PPS_CFG.WIDTH_US * 1000 * suNs } }).emit
          (.pulse true t.toNat (tebAdd (s.tebTs t) 100))
      else s1
    else s)

/-- A step of the timescale (R104, R131): pulses that wait move with their sequencer, and a second passed over by the
step begins no pulse. -/
def State.syncStep (s : State) (d : Int) : State :=
  { s with sync := { s.sync with
      second := ((s.now32 + d * fine) / (suSec * fine)).toNat
      inLast := s.sync.inLast.map (· + d)
      marks := s.sync.marks.map (· + d) } }

end Sys2Proof.Machine
end

