-- ==== Sys2Proof/Machine/Phase.lean ====
section
/-! DEFINITION. Phase trackers: fit, prediction, bound, lock, slips and loss (chapter 6, R150, R151, R154). The fit is
solved exactly over a common denominator; only what a register or an instant holds is rounded (R21). -/

namespace Sys2Proof.Machine

def State.phase (s : State) (t : Nat) : PhaseSt := s.phases.getD t {}
def State.setPhase (s : State) (t : Nat) (x : PhaseSt) : State := { s with phases := s.phases.set t x }

/-- STATE of a tracker: 0 IDLE, 1 ACQUIRING, 2 LOCKED, 3 COASTING (R154). -/
def State.phaseState (s : State) (t : Nat) : Nat := s.get (pPHASE t) PHASE.STATUS.STATE

/-- P, at least 1. -/
def State.pulses (s : State) (t : Nat) : Nat := max 1 (s.get (pPHASE t) PHASE.PULSES.PULSES_PER_TURN)

/-- Determinant of a 3 x 3 matrix given by rows. -/
def det3 (a b c d e f g h i : Int) : Int := a * (e * i - f * h) - b * (d * i - f * g) + c * (d * h - e * g)

/-- The least-squares fit of R150 over some (index, instant) pairs, newest first. -/
def fitStamps (order : Nat) (ss : List (Int × Int)) : Option PhaseFit :=
  match ss with
  | [] => none
  | (jr, tr) :: _ =>
    let xs := ss.map (fun p => (p.1 - jr, p.2 - tr))
    let n : Int := xs.length
    let s1 := sumI xs (fun p => p.1)
    let s2 := sumI xs (fun p => p.1 * p.1)
    let s3 := sumI xs (fun p => p.1 * p.1 * p.1)
    let s4 := sumI xs (fun p => p.1 * p.1 * p.1 * p.1)
    let u := sumI xs (fun p => p.2)
    let u1 := sumI xs (fun p => p.1 * p.2)
    let u2 := sumI xs (fun p => p.1 * p.1 * p.2)
    let r : Int × Int × Int × Int × List Int :=
      if order = 2 then
        (det3 n s1 s2 s1 s2 s3 s2 s3 s4, det3 u s1 s2 u1 s2 s3 u2 s3 s4, det3 n u s2 s1 u1 s3 s2 u2 s4, det3 n s1 u s1 s2 u1 s2 s3 u2,
          [s2 * s4 - s3 * s3, s2 * s3 - s1 * s4, s1 * s3 - s2 * s2, n * s4 - s2 * s2, s1 * s2 - n * s3, n * s2 - s1 * s1])
      else (n * s2 - s1 * s1, u * s2 - s1 * u1, n * u1 - s1 * u, 0, [s2, -s1, 0, n, 0, 0])
    if r.1 ≤ 0 ∨ xs.length < order + 2 then none
    else
      let sse := sumI xs (fun p => (p.2 * r.1 - r.2.1 - r.2.2.1 * p.1 - r.2.2.2.1 * p.1 * p.1) ^ 2)
      some ⟨jr, tr, r.2.1, r.2.2.1, r.2.2.2.1, r.1, sse, xs.length, order, r.2.2.2.2⟩

/-- Numerator of the fitted offset at x = `xn / q`, over d q^2. -/
def PhaseFit.num (f : PhaseFit) (xn q : Int) : Int := f.a * q * q + f.b * xn * q + f.c * xn * xn

/-- predict at x = `xn / q`, rounded to 1 SU (R150, R21). -/
def PhaseFit.predict (f : PhaseFit) (xn : Int) (q : Nat) : Int := f.tRef + roundEven (f.num xn q) (f.d.toNat * q * q)

/-- x of a turn and fraction, in units of 2^-32 stamps (R150). -/
def PhaseFit.xOf (f : PhaseFit) (p : Nat) (turn : Int) (frac : Nat) : Int := turn * p * 2 ^ 32 + frac * p - f.jRef * 2 ^ 32

/-- h(x) at x = `xn / q`: numerator over d q^4 (R150). -/
def PhaseFit.leverage (f : PhaseFit) (xn q : Int) : Int :=
  let m (i : Nat) : Int := f.adj.getD i 0
  m 0 * q ^ 4 + 2 * m 1 * xn * q ^ 3 + (2 * m 2 + m 3) * xn ^ 2 * q ^ 2 + 2 * m 4 * xn ^ 3 * q + m 5 * xn ^ 4

/-- ceil(K s sqrt(1 + h(x))) in ps at x = `xn / q`, with K in units of 0.125 (R150). -/
def PhaseFit.bound (f : PhaseFit) (k : Nat) (xn : Int) (q : Nat) : Nat :=
  let dof := f.n - f.order - 1
  if dof = 0 ∨ f.d ≤ 0 then tebUnknown
  else
    let d := f.d.toNat
    let h := (f.leverage xn q).toNat
    let num := k * k * f.sse.toNat * 1000000 * (d * q ^ 4 + h)
    let den := 64 * d * d * dof * 65536 * 65536 * (d * q ^ 4)
    min (isqrtUp (ceilDiv num den)) tebUnknown

/-- s in ps, rounded up (R150). -/
def PhaseFit.rms (f : PhaseFit) : Nat :=
  let dof := f.n - f.order - 1
  if dof = 0 ∨ f.d ≤ 0 then tebUnknown
  else min (isqrtUp (ceilDiv (f.sse.toNat * 1000000) (f.d.toNat * f.d.toNat * dof * 65536 * 65536))) tebUnknown

/-- BOUND_K. -/
def State.boundK (s : State) (t : Nat) : Nat := s.get (pPHASE t) PHASE.FIT_CFG.BOUND_K

/-- How far a Phase lies ahead of the newest stamp, in units of 2^-32 stamps: the shorter way round modulo 2^32 turns, and ahead where
both ways are 2^31 turns long (R15). -/
def State.phaseAhead (s : State) (t : Nat) (f : PhaseFit) (phase : Nat) : Int :=
  let p : Int := s.pulses t
  let d := (phase * p - f.jRef * 2 ^ 32) % (2 ^ 64 * p)
  if 2 ^ 63 * p < d then d - 2 ^ 64 * p else d

/-- Predicted instant and bound of a Phase (R150). -/
def State.predictPhase (s : State) (t : Nat) (phase : Nat) : Option (Int × Nat) :=
  (s.phase t).fit.map (fun f =>
    let x := s.phaseAhead t f phase
    (f.predict x (2 ^ 32), f.bound (s.boundK t) x (2 ^ 32)))

/-- Whether the tracker converts phases and delivers line events (R151). -/
def State.phaseLive (s : State) (t : Nat) : Bool := s.phaseState t == 2 || s.phaseState t == 3

/-- The Phase of stamp index `j` (chapter 6): TURN = j div P, FRACTION = (j mod P) 2^32 / P rounded. -/
def phaseOf (p : Nat) (j : Int) : Nat := ofSigned 64 (j / p * 2 ^ 32 + roundEven (j % p * 2 ^ 32) p)

/-- Show the fit in the page (R150, R154). -/
def State.showFit (s : State) (t : Nat) (f : PhaseFit) : State :=
  let p := pPHASE t
  let b32 := roundEven (f.b * 2 ^ 32) f.d.toNat
  ((((((s.putInst p PHASE.FIT_REF_INSTANT.INSTANT (f.predict 0 1)).put p PHASE.FIT_REF_INDEX.INDEX (ofSigned 64 f.jRef)).put p
    PHASE.FIT_RMS.RMS_PS f.rms).put p PHASE.BOUND_NEXT.BOUND_PS (f.bound (s.boundK t) 1 1)).putSpan p PHASE.FIT_PERIOD.SPAN
    (b32 / 2 ^ 32)).put p PHASE.FIT_PERIOD_FRAC.FRAC (b32 % 2 ^ 32).toNat).put p PHASE.FIT_ACCEL.C (ofSigned 64 (roundEven (f.c * 2 ^ 32) f.d.toNat))

/-- Show the fit again after a step or a new BOUND_K (R147, R150). -/
def State.refreshFit (s : State) (t : Nat) : State := match (s.phase t).fit with | some f => s.showFit t f | none => s

/-- Accept a stamp with index `j` into the last N and renew the fit (R150). -/
def State.phaseAccept (s : State) (t : Nat) (j at_ : Int) : State :=
  let p := pPHASE t
  let x := s.phase t
  let ss := ((j, at_) :: x.stamps).take (s.get p PHASE.FIT_CFG.N)
  let fit := match fitStamps (s.get p PHASE.FIT_CFG.ORDER) ss with | some f => some f | none => x.fit
  let s1 := s.setPhase t { x with
    stamps := ss, nextJ := j + 1, fit := fit
    spacing := match x.stamps with | (_, u) :: _ => some (at_ - u) | [] => none }
  let s2 := (s1.incWrap p PHASE.STAMPS.COUNT).put p PHASE.CURRENT_PHASE.PHASE (phaseOf (s.pulses t) j)
  match fitStamps (s.get p PHASE.FIT_CFG.ORDER) ss with | some f => s2.showFit t f | none => s2

/-- Change STATE; leaving LOCKED or COASTING for another state sets LOST, entering LOCKED sets LOCKED (R151, R154). -/
def State.putPhaseState (s : State) (t st : Nat) : State :=
  let old := s.phaseState t
  let s1 := s.put (pPHASE t) PHASE.STATUS.STATE st
  if st = 2 ∧ old ≠ 2 then s1.irq (pPHASE t) 0
  else if (old = 2 ∨ old = 3) ∧ st < 2 then s1.irq (pPHASE t) 4
  else s1

/-- Clear the fit history and acquire again, numbering from `j` (R151). -/
def State.reacquire (s : State) (t : Nat) (j : Int) : State :=
  (s.setPhase t { s.phase t with stamps := [], spacing := none, nextJ := j, slips := 0 }).putPhaseState t 1

/-- A stamp while ACQUIRING (R151): a spacing more than 12.5 % off the one before, or outside 1 us to 1 000 s, restarts
acquisition with this stamp. -/
def State.phaseAcquire (s : State) (t : Nat) (at_ : Int) : State :=
  let x := s.phase t
  let bad := match x.stamps with
    | (_, u) :: _ =>
      let d := at_ - u
      decide (d < 1000 * suNs) || decide (1000 * (suSec : Int) < d) ||
        (match x.spacing with | some e => decide (e < 8 * ((d - e).natAbs : Int)) | none => false)
    | [] => false
  let s1 := if bad then s.setPhase t { x with stamps := [], spacing := none } else s
  let s2 := s1.phaseAccept t (s1.phase t).nextJ at_
  if s.get (pPHASE t) PHASE.FIT_CFG.N ≤ (s2.phase t).stamps.length ∧ (s2.phase t).fit.isSome then s2.putPhaseState t 2 else s2

/-- Move an index until predict(j - 1/2) ≤ stamp < predict(j + 1/2) (R151). -/
def PhaseFit.locate (f : PhaseFit) (u : Int) : Nat → Int → Int
  | 0, j => j
  | k + 1, j =>
    let x := j - f.jRef
    if 4 * f.d * u ≥ f.num (2 * x + 1) 2 then f.locate u k (j + 1)
    else if 4 * f.d * u < f.num (2 * x - 1) 2 then f.locate u k (j - 1)
    else j

/-- j* = round(x) with predict(x) = stamp (R151). -/
def PhaseFit.indexOf (f : PhaseFit) (at_ : Int) : Int :=
  let u := at_ - f.tRef
  if f.b ≤ 0 then f.jRef else f.locate u 1024 (f.jRef + roundEven (u * f.d - f.a) f.b.toNat)

/-- A slip (R151). -/
def State.phaseSlip (s : State) (t : Nat) (j e at_ : Int) : State :=
  let p := pPHASE t
  let ps := max (-(2 ^ 31 : Int)) (min (2 ^ 31 - 1) (roundEven (e * 1000) suNs))
  let s1 := (((s.incSat p PHASE.SLIPS.COUNT).put p PHASE.LAST_SLIP_ERR.ERR_PS (ofSigned 32 ps)).putInst p
    PHASE.LAST_SLIP_INSTANT.INSTANT at_).irq p 1
  let x := s1.phase t
  if s.flag p PHASE.SLIP_CFG.SLIP_ACTION ∧ x.slips + 1 < s.get p PHASE.SLIP_CFG.COAST_MAX then
    (s1.setPhase t { x with slips := x.slips + 1 }).putPhaseState t 3
  else (s1.reacquire t j).phaseAccept t j at_

/-- A stamp while LOCKED or COASTING: the slip test (R151). -/
def State.phaseTrack (s : State) (t : Nat) (at_ : Int) : State :=
  let p := pPHASE t
  match (s.phase t).fit with
  | none => s
  | some f =>
    let j := f.indexOf at_
    if j ≤ f.jRef then (s.incSat p PHASE.SPURIOUS.COUNT).irq p 3
    else
      let e := at_ - f.predict (j - f.jRef) 1
      if e.natAbs * 8000 ≤ s.get p PHASE.SLIP_CFG.SLIP_MULT * f.bound (s.boundK t) (j - f.jRef) 1 * 65536 then
        let missed := (j - f.jRef - 1).toNat
        let s1 := if missed = 0 then s else (s.incSat p PHASE.MISSED.COUNT missed).irq p 2
        let s2 := s1.phaseAccept t j at_
        ((s2.setPhase t { s2.phase t with slips := 0 })).putPhaseState t 2
      else s.phaseSlip t j e at_

/-- A stamp of the tracked input and sense reaches the tracker (R150, R151). -/
def State.phaseStamp (s : State) (t : Nat) (at_ : Int) : State :=
  let s1 := s.setPhase t { s.phase t with lastStamp := some at_ }
  match s.phaseState t with
  | 0 => s
  | 1 => s1.phaseAcquire t at_
  | _ => s1.phaseTrack t at_

/-- Whether no stamp came for LOSS_PERIODS fitted periods (R151). -/
def State.phaseLost (s : State) (t : Nat) : Bool :=
  s.phaseLive t && (match (s.phase t).lastStamp, (s.phase t).fit with
    | some u, some f => decide ((u * f.d + s.get (pPHASE t) PHASE.SLIP_CFG.LOSS_PERIODS * f.b) * fine < s.now32 * f.d)
    | _, _ => false)

/-- PHASE_SOURCE_LOST (R151). -/
def execPhaseSourceLost (t : Nat) (s : State) : Host.Outcome State Fault Refusal :=
  guarded (.phaseSourceLost t) s (fun s =>
    if s.phaseLost t then (s.err (pPHASE t) 0).reacquire t (s.phase t).nextJ else s)

/-- RESTART (R151): as a loss, without the error; nothing while the tracker is IDLE. -/
def State.phaseRestart (s : State) (t : Nat) : State := if s.phaseState t = 0 then s else s.reacquire t (s.phase t).nextJ

/-- ENABLE set: acquisition from j = 0 (R150, R151); ENABLE cleared: IDLE. -/
def State.phaseStart (s : State) (t : Nat) : State := (s.setPhase t {}).putPhaseState t 1
def State.phaseStop (s : State) (t : Nat) : State := (s.setPhase t {}).putPhaseState t 0

/-- A step of the timescale by `d` SU moves the stored stamps (R147). -/
def State.phaseStep (s : State) (t : Nat) (d : Int) : State :=
  let x := s.phase t
  (s.setPhase t { x with
    stamps := x.stamps.map (fun p => (p.1, p.2 + d))
    fit := x.fit.map (fun f => { f with tRef := f.tRef + d })
    lastStamp := x.lastStamp.map (· + d) }).refreshFit t

/-! ### Line events (R152) -/

/-- The first turn at or after `turn`, a multiple of EVENT_EVERY, whose event phase lies after now. -/
def State.eventTurnFrom (s : State) (t : Nat) (f : PhaseFit) (every : Nat) : Nat → Int → Int
  | 0, turn => turn
  | k + 1, turn =>
    if s.reached (f.predict (f.xOf (s.pulses t) turn (s.get (pPHASE t) PHASE.EVENT_PHASE.FRACTION)) (2 ^ 32)) then
      s.eventTurnFrom t f every k (turn + every)
    else turn

/-- The line event whose predicted crossing is 1 024 ns ahead or less: its turn and instant (R152). -/
def State.phaseEventDue (s : State) (t : Nat) : Option (Int × Int) :=
  if !s.phaseLive t then none
  else match (s.phase t).fit with
    | none => none
    | some f =>
      let every := max 1 (s.get (pPHASE t) PHASE.EVENT_CFG.EVENT_EVERY)
      let lo := match (s.phase t).lastTurn with | some u => max (u + 1) (f.jRef / s.pulses t) | none => f.jRef / s.pulses t
      let turn := s.eventTurnFrom t f every 8 ((lo + every - 1) / every * every)
      let at_ := f.predict (f.xOf (s.pulses t) turn (s.get (pPHASE t) PHASE.EVENT_PHASE.FRACTION)) (2 ^ 32)
      if at_ * fine ≤ s.now32 + horizon32 ∧ !s.reached at_ then some (turn, at_) else none

/-- Convert the line event that is due and send it to the trigger lines (R152). -/
def State.phaseEvent (s : State) (t : Nat) : State :=
  match s.phaseEventDue t with
  | some (turn, at_) => (s.setPhase t { s.phase t with lastTurn := some turn }).post ⟨.tracker t, at_.toNat, s.tebTs at_⟩
  | none => s

end Sys2Proof.Machine
end

