-- ==== Sys2Proof/Machine/Sched.lean ====
section
/-! DEFINITION. The action scheduler and the cycle ticks: acceptance, merging, lateness, gates, outcomes and the log
(chapter 6, R136 to R149, R152, R153). -/

namespace Sys2Proof.Machine

def State.queue (s : State) (q : Nat) : QueueSt := s.sched.queues.getD q {}
def State.setQueue (s : State) (q : Nat) (x : QueueSt) : State :=
  { s with sched := { s.sched with queues := s.sched.queues.set q x } }

/-- Owner of a scheduler queue (R42). -/
def State.queueOwner (s : State) (q : Nat) : Nat := s.resOwner 5 q

/-! ### Ticks (R149) -/

/-- ORIGIN and PERIOD of a generator in SU. -/
def State.tickOrigin (s : State) (n : Nat) : Int := s.getInst pSCHED (SCHED.TICK_ORIGIN.INSTANT n)
def State.tickPeriod (s : State) (n : Nat) : Int := s.getSpan pSCHED (SCHED.TICK_PERIOD.SPAN n)

/-- The instant of tick `k` (R149). -/
def State.tickAt (s : State) (n k : Nat) : Int := s.tickOrigin n + k * s.tickPeriod n

/-- Smallest k ≥ 0 whose instant lies at or after a fine instant. -/
def State.tickIndexFrom (s : State) (n : Nat) (lim32 : Int) : Nat :=
  let p := s.tickPeriod n * fine
  if p ≤ 0 then 0 else ((lim32 - s.tickOrigin n * fine + p - 1) / p).toNat

/-- Start a generator: the first tick lies at or after C + 1 024 ns, C being the SCLK edge after the write (R59, R149). -/
def State.tickStart (s : State) (n : Nat) : State :=
  let s1 := (s.put pSCHED (SCHED.TICK_NEXT.INDEX n) (s.tickIndexFrom n (s.next32 + horizon32))).wr pSCHED (SCHED.TICK_FIRED.off n) 0
  { s1 with sched := { s1.sched with ticks := s1.sched.ticks.set n 0 } }

/-- Whether the next tick of a generator is delivered now: 1 024 ns before its instant (R149). -/
def State.tickDue (s : State) (n : Nat) : Bool :=
  s.flag pSCHED (SCHED.TICK_CFG.ENABLE n) &&
    decide (s.tickAt n (s.get pSCHED (SCHED.TICK_NEXT.INDEX n)) * fine ≤ s.now32 + horizon32)

/-- Deliver a tick to lines, gates and interrupts; COUNT may disable the generator (R149). -/
def State.tickDeliver (s : State) (n : Nat) : State :=
  let k := s.get pSCHED (SCHED.TICK_NEXT.INDEX n)
  let at_ := s.tickAt n k
  let fired := s.sched.ticks.getD n 0 + 1
  let div := s.get pSCHED (SCHED.TICK_CFG.IRQ_DIVIDE n)
  let count := s.get pSCHED (SCHED.TICK_COUNT.COUNT n)
  let last := decide (count ≠ 0) && decide (fired = count)
  let s0 : State := { s with sched := { s.sched with ticks := s.sched.ticks.set n fired } }
  let s1 := ((s0.put pSCHED (SCHED.TICK_NEXT.INDEX n) (k + 1)).incWrap pSCHED (SCHED.TICK_FIRED.COUNT n)).post
    ⟨.tick n, at_.toNat, s.tebTs at_⟩
  let s2 := if last || (decide (div ≠ 0) && decide (fired % div = 0)) then s1.irq pSCHED (8 + n) else s1
  if last then s2.putFlag pSCHED (SCHED.TICK_CFG.ENABLE n) false else s2

/-- TICK_DELIVERY (R149). -/
def execTickDelivery (n : Nat) (s : State) : Host.Outcome State Fault Refusal :=
  guarded (.tickDelivery n) s (fun s => if s.tickDue n then s.tickDeliver n else s)

/-- A forward step of the timescale passes over the ticks that lie before it; none is delivered twice (R147, R149). -/
def State.tickStep (s : State) (n : Nat) (now32 : Int) : State :=
  if s.flag pSCHED (SCHED.TICK_CFG.ENABLE n) then
    s.put pSCHED (SCHED.TICK_NEXT.INDEX n) (max (s.get pSCHED (SCHED.TICK_NEXT.INDEX n)) (s.tickIndexFrom n now32))
  else s

/-! ### Log (R148) -/

/-- One scheduler log record of an action, if its outcome is logged (R148). -/
def State.schedLog (s : State) (a : Action) (actual : Int) (outcome result gate : Nat) : State :=
  if outcome = 0 ∧ !s.flag pSCHED SCHED.LOG_CFG.LOG_ALL ∧ a.op ≠ 0x50 then s
  else
    let lo := packRec [(224, 32, gate), (192, 32, a.tebLimit), (128, 64, a.when_), (112, 16, a.advances + a.boundAdvances), (64, 32, a.acceptIdx),
      (48, 16, a.tag), (40, 8, a.op), (36, 4, outcome), (32, 4, result), (28, 4, 2), (24, 4, 2), (20, 4, a.queue), (8, 8, a.target)]
    let hi := packRec [(128, 128, instantBits (a.requested.getD 0).toNat), (0, 128, instantBits actual.toNat)]
    s.event 2 [lo, hi]

/-- GATE_VALUE of a record: the gate value, else the bound of the actual instant; an action that is neither gated nor
executed has none, and the field is open (log 5). -/
def State.gateValue (s : State) (gate : Option Nat) (actual : Int) (executed : Bool) : Nat × State :=
  match gate with
  | some g => (g, s)
  | none => if executed then (s.tebTs actual, s) else s.free

/-- Log an action that is not executed. -/
def State.logDropped (s : State) (a : Action) (outcome result : Nat) : State :=
  let g := s.gateValue a.gate 0 false
  g.2.schedLog a 0 outcome result (g.1 % 2 ^ 32)

/-! ### Acceptance (R136 to R138) -/

/-- The fields of an action element (R138). -/
def actionOf (q idx v : Nat) : Action where
  queue := q
  when_ := bitsOf v 191 128
  param := bitsOf v 127 96
  tebLimit := bitsOf v 95 64
  tag := bitsOf v 63 48
  regOff := bitsOf v 47 36
  target := bitsOf v 35 28
  boundPolicy := bitsOf v 27 26
  latePolicy := bitsOf v 25 24
  baseIndex := bitsOf v 19 16
  base := bitsOf v 15 14
  op := bitsOf v 7 0
  acceptIdx := idx
  phase := bitsOf v 191 128

/-- Range of TARGET, PARAM and REG_OFFSET of an opcode; false for an undefined opcode (R139, R179). -/
def opcodeOk (a : Action) : Bool :=
  let chan := decide (a.target < 48) && a.param == 0 && a.regOff == 0
  let seq := decide (a.target < 4) && a.regOff == 0
  match a.op with
  | 0x00 => a.target == 0 && a.param == 0 && a.regOff == 0
  | 0x01 => chan
  | 0x02 => chan
  | 0x03 => chan
  | 0x04 => decide (a.target < 48) && decide (2458 ≤ a.param) && a.regOff == 0
  | 0x10 => decide (a.target < 64) && a.param == 0 && a.regOff == 0
  | 0x20 => seq && decide (a.param < 4096)
  | 0x21 => seq && a.param == 0
  | 0x22 => seq && a.param == 0
  | 0x23 => seq && a.param == 0
  | 0x30 => decide (a.target < 24) && a.param == 0 && a.regOff == 0
  | 0x40 => a.regOff % 4 == 0
  | 0x50 => a.target == 0 && a.regOff == 0
  | _ => false

/-- Owner of an action's target, none where it has no one owner to test (R137, R145). -/
def State.targetOwner (s : State) (a : Action) : Option Nat :=
  match a.op with
  | 0x01 => some (s.resOwner 1 a.target)
  | 0x02 => some (s.resOwner 1 a.target)
  | 0x03 => some (s.resOwner 1 a.target)
  | 0x04 => some (s.resOwner 1 a.target)
  | 0x10 => some (s.resOwner 4 a.target)
  | 0x20 => some (s.resOwner 10 a.target)
  | 0x21 => some (s.resOwner 10 a.target)
  | 0x22 => some (s.resOwner 10 a.target)
  | 0x23 => some (s.resOwner 10 a.target)
  | 0x30 => some (s.pageOwner pTDC)
  | _ => none

/-- Pages that no REG_WRITE32 may name (R139). -/
def forbiddenPage (p : Nat) : Bool := p == pOWN || p == pFLASH || p == pHOSTQ || p == pGUTTER || p == pSCHED

/-- The owner that an action's target has in the place of its queue's owner, if it has (R137): the queue's owner must own what a REG_WRITE32
writes, the register's own resource where it has one and else its page. -/
def State.targetDenied (s : State) (q : Nat) (a : Action) : Option Nat :=
  let owner := s.queueOwner q
  let other (o : Nat) : Option Nat := if o = owner then none else some o
  if a.op = 0x40 then
    if forbiddenPage a.target then some (s.pageOwner a.target)
    else match regAt a.target a.regOff with
      | some (k, i, d, j, w) =>
        let base := a.regOff - 4 * w
        let v := putBits (s.rdN a.target base d.words) (32 * w + 31) (32 * w) a.param
        let g := s.governs ⟨.queue q, owner, false, a.target, i, base, v⟩ k d.base j
        if k = .quad ∧ d.base = QUAD.SPACING_DROPS.off 0 ∧ g = .open_ then none else other (g.owner owner (s.pageOwner a.target))
      | none => if (pageBlock a.target).isSome then other (s.pageOwner a.target) else none
  else match s.targetOwner a with
    | some o => if o = owner then none else some o
    | none => none

/-- Whether WHEN `w` comes before the order reference `r` on a base (R137, R15). -/
def comesBefore (base w r : Nat) : Bool :=
  match base with
  | 0 => decide (instantOf w < instantOf r)
  | 1 => decide (2 ^ 63 < (w + 2 ^ 64 - r % 2 ^ 64) % 2 ^ 64)
  | _ => decide (w < r)

/-- The instant and period an action gets at acceptance: an Instant, or a tick index (R149); a Phase later (R152). -/
def State.actionInstant (s : State) (a : Action) (v : Nat) : Option Int × Int :=
  match a.base with
  | 0 => (some (instantOf (bitsOf v 255 128) : Nat), 0)
  | 2 => (some (s.tickAt a.baseIndex a.when_), s.tickPeriod a.baseIndex)
  | _ => (none, 0)

/-- The checks of R137, in the order of its table. -/
def State.actionCheck (s : State) (q v : Nat) : Res :=
  let a := actionOf q 0 v
  let w := bitsOf v 255 128
  let t := s.actionInstant a v
  let rangeBad := bitsOf v 23 20 != 0 || bitsOf v 13 8 != 0 || a.boundPolicy == 3 || a.latePolicy == 3 ||
    a.base != s.get pSCHED (SCHED.Q_CFG.BASE q) || (a.base != 0 && a.baseIndex != s.get pSCHED (SCHED.Q_CFG.BASE_INDEX q)) ||
    (a.base == 0 && (!instantOk w || a.baseIndex != s.get pSCHED (SCHED.Q_CFG.BASE_INDEX q) || a.boundPolicy == 2 || a.latePolicy == 2)) ||
    (a.base != 0 && bitsOf v 255 192 != 0) || (a.base == 1 && !decide (a.baseIndex < 4)) || (a.base == 2 && !decide (a.baseIndex < 8)) ||
    !opcodeOk a || (match t.1 with | some i => !(decide (0 ≤ i) && decide (i < instantLimit)) | none => false)
  let order := match (s.queue q).orderRef with | some r => comesBefore a.base (if a.base = 0 then w else a.when_) r | none => false
  if rangeBad then .range
  else if (s.targetDenied q a).isSome then .denied
  else if order then .order
  else if a.base == 2 && !s.flag pSCHED (SCHED.TICK_CFG.ENABLE a.baseIndex) then .state
  else .ok

/-- Offer an action element to a queue: accept it, or refuse, count and log it (R137). -/
def State.offer (s : State) (q idx v : Nat) : State × Res :=
  let a := actionOf q idx v
  match s.actionCheck q v with
  | .ok =>
    let t := s.actionInstant a v
    let w := if a.base = 0 then bitsOf v 255 128 else a.when_
    let x := s.queue q
    (((s.setQueue q { x with actions := x.actions ++ [{ a with requested := t.1, at_ := t.1, period := t.2 }], orderRef := some w }).incWrap
      pSCHED (SCHED.Q_ACCEPTED.COUNT q)).put pSCHED (SCHED.Q_ORDER_REF.WHEN q) w, .ok)
  | r =>
    let t := (s.actionInstant a v).1
    ((((s.incSat pSCHED SCHED.REFUSED_COUNT.COUNT).irq pSCHED 2)).logDropped { a with requested := t } 6 r.code, r)

/-- ACTION_ACCEPT (R137): the next element `a` of an enabled ACTION ring whose queue has space. A refused element is
consumed too. -/
def execActionAccept (r a : Nat) (s : State) : Host.Outcome State Fault Refusal :=
  guarded (.actionAccept r a) s (fun s =>
    let q := s.get pHOSTQ (HOSTQ.RING_CFG.BIND r)
    let idx := s.get pHOSTQ (HOSTQ.DEV_IDX.DEV_IDX r)
    if s.flag pHOSTQ (HOSTQ.RING_CTRL.ENABLE r) && !s.ringStopped r && s.get pHOSTQ (HOSTQ.RING_CFG.KIND r) == 1 && !s.hostSpi &&
        idx != s.get pHOSTQ (HOSTQ.DOORBELL.HOST_IDX r) && s.flag pSCHED (SCHED.Q_CFG.ENABLE q) &&
        decide ((s.queue q).actions.length < 512) then
      ((s.offer q idx a).1.incWrap pHOSTQ (HOSTQ.DEV_IDX.DEV_IDX r)).ringWriteback r
    else s)

/-- SUBMIT of the action built in SUBMIT_BUF (R137, R153). -/
def State.submit (s : State) (q action : Nat) : State × Verdict :=
  if s.queueOwner q = 0 then (s, ⟨.denied, some 0⟩)
  else if (s.ringFor 1 q).isSome || !s.flag pSCHED (SCHED.Q_CFG.ENABLE q) then refuse s .state
  else if 512 ≤ (s.queue q).actions.length then refuse s .busy
  else
    let r := s.offer q 0xFFFFFFFF action
    let a := actionOf q 0xFFFFFFFF action
    (r.1, ⟨r.2, if r.2 = .denied then s.targetDenied q a else none⟩)

/-- Discard the actions of a queue that are not dispatched: one record each, and DISCARDED_COUNT (R146). -/
def State.discardAll (s : State) (q : Nat) : State :=
  let x := s.queue q
  (s.setQueue q { x with actions := [], orderRef := none }).forEach x.actions
    (fun a s => (s.incSat pSCHED SCHED.DISCARDED_COUNT.COUNT).logDropped a 7 0)

/-- QUEUE_ECC (R146): the action concerned is the head. -/
def execQueueEcc (q : Nat) (uncorrectable : Bool) (s : State) : Host.Outcome State Fault Refusal :=
  guarded (.queueEcc q uncorrectable) s (fun s => s.inCore (fun s =>
    if uncorrectable then
      match (s.queue q).actions with
      | a :: rest => ((s.err pSCHED 0).setQueue q { s.queue q with actions := rest }).incSat pSCHED SCHED.DISCARDED_COUNT.COUNT |>.logDropped a 7 0
      | [] => s.err pSCHED 0
    else s.err pSCHED 1))

/-! ### Holding, conversion and merging (R140, R143, R152) -/

/-- Whether a queue is held by the orphan SAFE state of its owner or by device safe state (R143). -/
def State.heldSafe (s : State) (q : Nat) : Bool := s.gutter.safe || s.sched.held.contains (s.queueOwner q)

/-- Whether the head of a queue is a PHASE action whose tracker cannot convert it (R143). -/
def State.heldPhase (s : State) (q : Nat) : Bool :=
  match (s.queue q).actions with
  | a :: _ => a.base == 1 && a.at_.isNone && !s.phaseLive a.baseIndex
  | [] => false

/-- Whether a queue dispatches (R140, R143). -/
def State.queueRuns (s : State) (q : Nat) : Bool :=
  s.flag pSCHED (SCHED.Q_CFG.ENABLE q) && !s.flag pSCHED (SCHED.Q_CFG.HOLD q) && !s.heldSafe q

/-- Replace the head of a queue. -/
def State.setHead (s : State) (q : Nat) (a : Action) : State :=
  s.setQueue q { s.queue q with actions := a :: (s.queue q).actions.drop 1 }

/-- Take the head of a queue away. -/
def State.popHead (s : State) (q : Nat) : State := s.setQueue q { s.queue q with actions := (s.queue q).actions.drop 1 }

/-- A failed gate: counted, and the interrupt (R144). -/
def State.boundFail (s : State) : State := (s.incSat pSCHED SCHED.BOUND_FAIL_COUNT.COUNT).irq pSCHED 1

/-- Advance an action by `k` periods or turns: the next instant is known for a tick, and is converted again for a phase. -/
def advance (a : Action) (k : Nat) : Action :=
  if a.base = 2 then { a with at_ := a.at_.map (· + k * a.period) }
  else { a with phase := (a.phase + k * 2 ^ 32) % 2 ^ 64, at_ := none, gate := none }

/-- What a gate decides: pass, execute although it failed, drop, or advance (R144). -/
inductive Gate where
  | pass | fire | drop | next
deriving DecidableEq, Repr

/-- The gate of R144 for a gate value. -/
def gateOf (a : Action) (v : Nat) : Gate :=
  if a.tebLimit = 0xFFFFFFFF then .pass
  else if v ≠ tebUnknown ∧ v ≤ a.tebLimit then .pass
  else match a.boundPolicy with
    | 0 => .drop
    | 1 => .fire
    | _ => if a.boundAdvances < 255 then .next else .drop

/-- A gate that failed under NEXT: the BOUND_ADVANCED record, and the action advanced by one (R144). -/
def State.boundNext (s : State) (q : Nat) (a : Action) (v : Nat) : State :=
  let b := { a with boundAdvances := a.boundAdvances + 1 }
  (s.boundFail.schedLog b 0 9 0 v).setHead q { (advance b 1) with gate := none }

/-- The head of a queue that is a PHASE action ready for conversion: tracker live, predicted instant CONV_LEAD ahead or
less (R152). A hold of the queue defers its dispatch, not its conversion (R143). -/
def State.convertDue (s : State) (q : Nat) : Bool :=
  match (s.queue q).actions with
  | a :: _ => a.base == 1 && a.at_.isNone && s.phaseLive a.baseIndex &&
      (match s.predictPhase a.baseIndex a.phase with
       | some (t, _) => decide (t * fine ≤ s.now32 + s.get (pPHASE a.baseIndex) PHASE.CONV_LEAD.LEAD_NS * suNs * fine)
       | none => false)
  | [] => false

/-- Convert the head of a queue: its instant is frozen and the gate is applied (R144, R152). -/
def State.convertHead (s : State) (q : Nat) : State :=
  match (s.queue q).actions with
  | [] => s
  | a :: _ =>
    match s.predictPhase a.baseIndex a.phase with
    | none => s
    | some (t, b) =>
      let gate := if a.tebLimit = 0xFFFFFFFF then none else some b
      let a1 := { a with at_ := some t, requested := some (a.requested.getD t), gate := gate }
      match gateOf a1 b with
      | .pass => s.setHead q a1
      | .fire => s.boundFail.setHead q a1
      | .drop => (s.boundFail.popHead q).schedLog a1 0 4 0 b
      | .next => s.boundNext q a1 b

/-- PHASE_CONVERT (R152): the head of a queue of tracker `t`, or the tracker's line event. -/
def execPhaseConvert (t : Nat) (s : State) : Host.Outcome State Fault Refusal :=
  guarded (.phaseConvert t) s (fun s =>
    match (List.range 16).find? (fun q => s.convertDue q && s.get pSCHED (SCHED.Q_CFG.BASE_INDEX q) == t) with
    | some q => s.convertHead q
    | none => s.phaseEvent t)

/-- The heads that may be dispatched in the present slot: 1 024 ns before their instants has come before the slot's end
(R140). DESIGN CHOICE (log 105): R142's figures, 154 actions on time and a 155th late, fit an instant T on a slot boundary. For another T the
action is dispatched in the slot that holds T - 1 024 ns, up to 5 ns earlier, so that a 155th can be dispatched before T - 256 ns and be on
time. -/
def State.readyHeads (s : State) : List (Nat × Action × Int) :=
  (List.range 16).filterMap (fun q =>
    if s.queueRuns q then
      match (s.queue q).actions with
      | a :: _ => match a.at_ with
        | some t => if t * fine < s.next32 + horizon32 then some (q, a, t) else none
        | none => none
      | [] => none
    else none)

/-- The earliest of the ready heads, the lower queue first (R140, R155). -/
def earliestHead : List (Nat × Action × Int) → Option (Nat × Action × Int)
  | [] => none
  | h :: l => match earliestHead l with
    | some g => if g.2.2 < h.2.2 then some g else some h
    | none => some h

/-- Whether the merger dispatches now: at most one action per slot (R140). -/
def State.dispatchDue (s : State) : Bool := s.sched.lastSlot != some s.clk.slot && !s.readyHeads.isEmpty

/-- LAST_LATE shows an action that was late, with its actual instant, zero where it has none, and its outcome (R141, R153). -/
def State.lastLate (s : State) (q : Nat) (a : Action) (actual : Int) (outcome : Nat) : State :=
  (((((s.putInst pSCHED SCHED.LAST_LATE_REQ.INSTANT (a.requested.getD 0)).putInst pSCHED
    SCHED.LAST_LATE_ACT.INSTANT actual).put pSCHED SCHED.LAST_LATE_INFO.TAG a.tag).put pSCHED SCHED.LAST_LATE_INFO.QUEUE q).put pSCHED
    SCHED.LAST_LATE_INFO.OUTCOME outcome).put pSCHED SCHED.LAST_LATE_INFO.OPCODE a.op

/-- Count an action found late and show it; an action that is late again is counted once (R141). -/
def State.lateAction (s : State) (q : Nat) (a : Action) (actual : Int) (outcome : Nat) : State :=
  (s.onlyIf (!a.late) (fun s => (s.incSat pSCHED (SCHED.Q_LATE.COUNT q)).irq pSCHED 0)).lastLate q a actual outcome

/-- Gate value of an action at instant `t` (R144). -/
def State.gateAt (s : State) (a : Action) (t : Int) : Nat :=
  if a.base = 1 then a.gate.getD tebUnknown
  else if 1 ≤ a.op ∧ a.op ≤ 4 then tebAdd (s.tebTs t) (s.laneBound a.target) else s.tebTs t

/-- Hand an action to its target (R140); LAST_LATE shows what became of a late one (R141). -/
def State.handOver (s : State) (q : Nat) (a : Action) (t : Int) (outcome : Nat) : State :=
  let gated := a.tebLimit ≠ 0xFFFFFFFF
  let v := s.gateAt a t
  let late (actual : Int) (o : Nat) (s : State) : State := s.onlyIf a.late (fun s => s.lastLate q a actual o)
  let out (o : Nat) : State :=
    let s1 := late t o (s.popHead q)
    { s1 with sched := { s1.sched with dispatched := s1.sched.dispatched ++ [{ action := a, t := t, outcome := o, gate := if gated then some v else none }] } }
  if a.base = 1 then
    if gated ∧ (v = tebUnknown ∨ a.tebLimit < v) then out 5 else out outcome
  else match gateOf a v with
    | .pass => out outcome
    | .fire => (out 5).boundFail
    | .drop => late 0 4 ((s.boundFail.popHead q).schedLog a 0 4 0 v)
    | .next => late 0 9 (s.boundNext q a v)

/-- Whether a late action advanced by `k` periods or turns lies at or after `lim32` (R141). -/
def State.advancedTo (s : State) (a : Action) (t lim32 : Int) (k : Nat) : Bool :=
  if a.base = 2 then decide (lim32 ≤ (t + k * a.period) * fine)
  else match s.predictPhase a.baseIndex ((a.phase + k * 2 ^ 32) % 2 ^ 64) with
    | some (u, _) => decide (lim32 ≤ u * fine)
    | none => true

/-- The least number of a rising property between `lo`, which lacks it, and `lo + 2^n`. -/
def leastWith (p : Nat → Bool) : Nat → Nat → Nat
  | 0, lo => lo + 1
  | n + 1, lo => if p (lo + 2 ^ n) then leastWith p n lo else leastWith p n (lo + 2 ^ n)

/-- Periods or turns to advance a late action until its instant reaches `lim32`: the least number, at least one (R141). -/
def State.lateSteps (s : State) (a : Action) (t lim32 : Int) : Nat :=
  match (List.range 64).find? (fun n => s.advancedTo a t lim32 (2 ^ n)) with
  | some n => if n = 0 then 1 else leastWith (s.advancedTo a t lim32) (n - 1) (2 ^ (n - 1))
  | none => 1

/-- Dispatch one head, by its late policy if it is late and by its gate (R140, R141, R144, R155). DESIGN CHOICE (log 105): an action that was
late, then advanced by a gate under NEXT, and is on time at its new dispatch ends EXECUTED_NEXT (2); one that a gate alone advanced ends
EXECUTED (0). -/
def State.dispatch (s0 : State) : State :=
  match earliestHead s0.readyHeads with
  | none => s0
  | some (q, a, t) =>
    let s := { s0 with sched := { s0.sched with lastSlot := some s0.clk.slot } }
    let lim := s.now32 + 256 * suNs * fine
    if lim ≤ t * fine then s.handOver q a t (if a.late then 2 else 0)
    else match a.latePolicy with
      | 0 => ((s.popHead q).lateAction q a 0 3).logDropped a 3 0
      | 1 =>
        let u := s.instantOfSlot (s.clk.slot + 52)
        (s.lateAction q a u 1).handOver q { a with late := true } u 1
      | _ =>
        let k := s.lateSteps a t lim
        let b := { (advance a k) with advances := a.advances + k, late := true }
        let u := match b.at_ with | some u => u | none => ((s.predictPhase b.baseIndex b.phase).map (·.1)).getD t
        ({ (s.lateAction q a u 2) with sched := { s.sched with lastSlot := s0.sched.lastSlot } }).setHead q b

/-- FLUSH (R137, R146): the order reference clears. An action of the queue that is dispatched in the same slot executes (R155). -/
def State.flushQueue (s : State) (q : Nat) : State :=
  let s1 := s.onlyIf (s.dispatchDue && (match earliestHead s.readyHeads with | some h => h.1 == q | none => false)) State.dispatch
  (s1.discardAll q).put pSCHED (SCHED.Q_ORDER_REF.WHEN q) 0

/-- ACTION_DISPATCH (R140). -/
def execActionDispatch (s : State) : Host.Outcome State Fault Refusal :=
  guarded .actionDispatch s (fun s => if s.dispatchDue then s.dispatch else s)

/-! ### Outcomes at the target (R139, R145) -/

/-- The opcodes that take effect at the SCLK edge of their instant, not at their dispatch (R139). -/
def actsAtInstant (op : Nat) : Bool := op == 0x00 || op == 0x21 || op == 0x22 || op == 0x23 || op == 0x40 || op == 0x50

/-- Whether an action is one of a channel (R139). -/
def Disp.channel (d : Disp) : Bool := decide (1 ≤ d.action.op) && decide (d.action.op ≤ 4)

/-- Whether an edge at `t32` of a channel in SCHED mode comes to its placement, or that of a copy in a mirror, within the horizon: then the
channel takes it, and copies it (R95). -/
def State.chanDue (s : State) (c : Nat) (t32 : Int) : Bool :=
  decide (s.chanMode c ≠ 6) || !(s.chan c).safe.isEmpty || decide (s.earliestTarget c t32 ≤ s.now32 + horizon32) ||
    (s.mirrorsOf c).any (fun m => decide (s.earliestTarget m (t32 + s.getSpan (pCHAN m) CHAN.OFFSET.SPAN * fine) ≤ s.now32 + horizon32))

/-- Whether the effect of a dispatched action is due (R139, R155). -/
def State.effectDue (s : State) (d : Disp) : Bool :=
  if actsAtInstant d.action.op then s.reached d.t
  else if d.action.op = 0x30 then decide (d.t * fine < s.next32)
  else if d.channel then
    (if d.handed then d.lost || !s.schedWaits d.action.target d.t else s.chanDue d.action.target (d.t * fine))
  else true

/-- The first dispatched action of an opcode whose effect is due. -/
def State.dispatchedOf (s : State) (op : Nat) : Option Disp := s.sched.dispatched.find? (fun d => d.action.op == op && s.effectDue d)

/-- Take a dispatched action away. -/
def State.dropDispatched (s : State) (d : Disp) : State :=
  { s with sched := { s.sched with dispatched := s.sched.dispatched.erase d } }

/-- An action was executed (R148). A register write takes effect at the first SCLK edge at or after its instant (R139). -/
def State.executed (s : State) (d : Disp) : State :=
  let t := if d.action.op = 0x40 then s.now else d.t
  let g := s.gateValue d.gate t true
  g.2.schedLog d.action t d.outcome 0 g.1

/-- An action whose target could not take it (R145). -/
def State.targetState (s : State) (d : Disp) (result : Nat) : State :=
  let shown := d.action.late && s.getInst pSCHED SCHED.LAST_LATE_REQ.INSTANT == (d.action.requested.getD 0).toNat &&
    s.get pSCHED SCHED.LAST_LATE_INFO.TAG == d.action.tag && s.get pSCHED SCHED.LAST_LATE_INFO.QUEUE == d.action.queue
  let s1 := ((s.incSat pSCHED SCHED.TARGET_STATE_COUNT.COUNT).irq pSCHED 3).onlyIf shown (fun s => s.lastLate d.action.queue d.action 0 8)
  let g := s1.gateValue d.gate d.t false
  g.2.schedLog d.action 0 8 result (g.1 % 2 ^ 32)

/-- A channel has taken the edges of an action, whose outcome waits for their codes (R155). -/
def State.keepHanded (s : State) (d : Disp) : State :=
  { s with sched := { s.sched with dispatched := s.sched.dispatched ++ [{ d with handed := true }] } }

/-- Run the effect of the next dispatched action of an opcode, with the owner of its target tested anew (R145): `f` answers the new state, or
the result of its refusal. An action of a channel is executed once its codes are issued, and has lost its target where the channel drops its
edges before (R155). -/
def State.runAction (s : State) (op : Nat) (f : Disp → State → State × Verdict) : State :=
  match s.dispatchedOf op with
  | none => s
  | some d =>
    let s1 := s.dropDispatched d
    if d.handed then (if d.lost then s1.targetState d Res.state.code else s1.executed d)
    else if (s1.targetDenied d.action.queue d.action).isNone then
      match f d s1 with
      | (s2, ⟨.ok, _⟩) => if d.channel then s2.keepHanded d else s2.executed d
      | (s2, ⟨r, _⟩) => s2.targetState d r.code
    else s1.targetState d Res.denied.code

/-- An edge or pulse of a channel in SCHED mode (R87, R139, R145). -/
def State.chanAction (d : Disp) (k : Option EdgeKind) (s : State) : State × Verdict :=
  let c := d.action.target
  if s.chanMode c ≠ 6 ∨ !(s.chan c).safe.isEmpty ∨ d.t * fine < (s.chan c).entry32 then refuse s .state
  else match k with
    | some kind => accept (s.pushEdge c ⟨d.t * fine, kind, .single, .sched, .own, none⟩)
    | none => accept (s.pushPulse c (d.t * fine) (8 * d.action.param * fine) .sched .own)

/-- ACTION_NOP (R139). -/
def execActionNop (s : State) : Host.Outcome State Fault Refusal := guarded .actionNop s (fun s => s.runAction 0x00 (fun _ s => accept s))

/-- CHAN_HI (R139). -/
def execChanHi (s : State) : Host.Outcome State Fault Refusal :=
  guarded .chanHi s (fun s => s.runAction 0x01 (fun d s => s.chanAction d (some (.set true))))

/-- CHAN_LO (R139). -/
def execChanLo (s : State) : Host.Outcome State Fault Refusal :=
  guarded .chanLo s (fun s => s.runAction 0x02 (fun d s => s.chanAction d (some (.set false))))

/-- CHAN_TOGGLE (R139). -/
def execChanToggle (s : State) : Host.Outcome State Fault Refusal :=
  guarded .chanToggle s (fun s => s.runAction 0x03 (fun d s => s.chanAction d (some .toggle)))

/-- CHAN_PULSE (R87, R139). -/
def execChanPulse (s : State) : Host.Outcome State Fault Refusal :=
  guarded .chanPulse s (fun s => s.runAction 0x04 (fun d s => s.chanAction d none))

/-- FIRE_LINE (R101, R139). -/
def execFireLine (s : State) : Host.Outcome State Fault Refusal :=
  guarded .fireLine s (fun s => s.runAction 0x10 (fun d s =>
    if s.get pTRIG (TRIG.TL_SRC.KIND d.action.target) = 3 ∧ s.get pTRIG (TRIG.TL_SRC.INDEX d.action.target) = d.action.queue then
      accept (s.post ⟨.scheduler d.action.queue d.action.target, d.t.toNat, s.tebTs d.t⟩)
    else refuse s .state))

/-- SEQ_START (R139): START AT_INSTANT with S0 = T and START_COURSE = PARAM, the page's own settings left as they are. -/
def execSeqStart (s : State) : Host.Outcome State Fault Refusal :=
  guarded .seqStart s (fun s => s.runAction 0x20 (fun d s => s.seqStartAt d.action.target 0 d.action.param d.t))

/-- SEQ_JUMP (R117, R139). DESIGN CHOICE (log 105): a request that R117 discards because another is pending is no refusal of R145 and ends
EXECUTED; one discarded because the sequencer is neither RUNNING nor PARKED ends TARGET_STATE. -/
def execSeqJump (s : State) : Host.Outcome State Fault Refusal :=
  guarded .seqJump s (fun s => s.runAction 0x21 (fun d s =>
    if s.seqState d.action.target ≠ 2 ∧ s.seqState d.action.target ≠ 3 then
      ((s.seqRequest d.action.target (d.t * fine)), ⟨.state, none⟩)
    else accept (s.seqRequest d.action.target (d.t * fine))))

/-- SEQ_STOP_AT_END (R128, R139). -/
def execSeqStopAtEnd (s : State) : Host.Outcome State Fault Refusal :=
  guarded .seqStopAtEnd s (fun s => s.runAction 0x22 (fun d s => s.seqStopEnd d.action.target))

/-- SEQ_STOP_NOW (R128, R139). -/
def execSeqStopNow (s : State) : Host.Outcome State Fault Refusal :=
  guarded .seqStopNow s (fun s => s.runAction 0x23 (fun d s => s.seqStopNow d.action.target))

/-- NOTIFY (R139): its record is written whatever LOG_ALL is, and the record raises its ring's interrupt. -/
def execNotify (s : State) : Host.Outcome State Fault Refusal := guarded .notify s (fun s => s.runAction 0x50 (fun _ s => accept s))

/-- SAFE_EXIT of the SCHED page: releases the writer's queues once its lease is renewed (R143). -/
def State.schedSafeExit (s : State) (agent : Nat) : State × Verdict :=
  if !s.sched.held.contains agent then accept s
  else if s.host.orphaned.contains agent then refuse s .state
  else accept { s with sched := { s.sched with held := s.sched.held.filter (· ≠ agent) } }

/-- A step of the timescale by `d` SU (R147): converted PHASE instants move, those of the other bases stay. -/
def State.schedStep (s : State) (d : Int) : State :=
  let mv (a : Action) : Action := if a.base = 1 then { a with at_ := a.at_.map (· + d), requested := a.requested.map (· + d) } else a
  let s1 := s.forEach (s.sched.dispatched.filter (fun x => x.handed && !x.lost && x.action.base == 1))
    (fun x s => s.schedMove x.action.target (x.t * fine) (d * fine))
  { s1 with sched := { s.sched with
      queues := s.sched.queues.map (fun x => { x with actions := x.actions.map mv })
      dispatched := s.sched.dispatched.map (fun x => if x.action.base = 1 then { x with t := x.t + d, action := mv x.action } else x) } }

end Sys2Proof.Machine
end

