-- ==== Sys2Proof/Machine/Tin.lean ====
section
/-! DEFINITION. Timing inputs: levels, capture, conversion, the FIFO, calibration and subscribers (chapter 7, R156 to
R176). -/

namespace Sys2Proof.Machine

def State.tin (s : State) (i : Nat) : TinSt := s.tins.getD i {}
def State.setTin (s : State) (i : Nat) (x : TinSt) : State := { s with tins := s.tins.set i x }
def State.core (s : State) (i k : Nat) : CoreSt := (s.tin i).cores.getD k {}
def State.setCore (s : State) (i k : Nat) (x : CoreSt) : State :=
  s.setTin i { s.tin i with cores := (s.tin i).cores.set k x }

/-- Whether an input is UNRESOLVED (R161). -/
def State.unresolved (s : State) (i : Nat) : Bool := s.flag (pTIN i) TIN.STATUS.LEVEL_UNRESOLVED

/-! ### Subscriber places (R173) -/

/-- KIND and INDEX of a place, none if it is free. -/
def State.place (s : State) (i k : Nat) : Option (Nat × Nat) :=
  if s.flag (pTIN i) (TIN.SUB_INFO.VALID k) then some (s.get (pTIN i) (TIN.SUB_INFO.KIND k), s.get (pTIN i) (TIN.SUB_INFO.INDEX k)) else none

/-- The subscribers of an input. -/
def State.subscribers (s : State) (i : Nat) : List (Nat × Nat) := (List.range 4).filterMap (fun k => s.place i k)

/-- Show the number of places taken. -/
def State.showSubs (s : State) (i : Nat) : State := s.put (pTIN i) TIN.STATUS.SUBSCRIBERS (s.subscribers i).length

/-- Take a place, none if four are taken. -/
def State.takePlace (s : State) (i kind idx : Nat) : Option State :=
  match (List.range 4).find? (fun k => (s.place i k).isNone) with
  | none => none
  | some k => some ((((s.put (pTIN i) (TIN.SUB_INFO.KIND k) kind).put (pTIN i) (TIN.SUB_INFO.INDEX k) idx).putFlag (pTIN i)
      (TIN.SUB_INFO.VALID k) true).showSubs i)

/-- Free the place of a subscriber. -/
def State.freePlace (s : State) (i kind idx : Nat) : State :=
  match (List.range 4).find? (fun k => s.place i k == some (kind, idx)) with
  | none => s
  | some k => (s.wr (pTIN i) (TIN.SUB_INFO.off k) 0).showSubs i

/-- Take a place on each of some inputs, or the first input that has none free. -/
def State.takePlaces (s : State) (kind idx : Nat) : List Nat → Except Nat State
  | [] => .ok s
  | i :: is => match s.takePlace i kind idx with
    | some s1 => s1.takePlaces kind idx is
    | none => .error i

/-- Free the places of a subscriber on some inputs. -/
def State.freePlaces (s : State) (kind idx : Nat) (is : List Nat) : State := s.forEach is (fun i s => s.freePlace i kind idx)

/-! ### Bounds (R170, R172) -/

/-- Cores of an input in service. -/
def State.goodCores (s : State) (i : Nat) : List Nat := (List.range 2).filter (fun k => !(s.core i k).failed)

/-- Whether both cores hold accepted sets that are not stale. -/
def State.inputCalValid (s : State) (i : Nat) : Bool :=
  (List.range 2).all (fun k => (s.core i k).front.isSome && !(s.core i k).stale && !(s.core i k).failed)

/-- Whether INPUT_BOUND grows: CAL_STALE is set, or has been cleared while a front set is still stale (R170); an injected CAL_STALE changes
nothing here (R304). -/
def State.inputStale (s : State) (i : Nat) : Bool := (s.tin i).staleErr || (s.goodCores i).any (fun k => (s.core i k).stale)

/-- Whether an input is in INPUT_FAULT: both cores have failed, or did and the host has not cleared the bit (R170, R172, R304). -/
def State.inputFault (s : State) (i : Nat) : Bool := (s.tin i).faultErr || (s.goodCores i).isEmpty

/-- The growth of INPUT_BOUND while a set is stale: 1 ps for each whole degree since the set was accepted (R73, R170). -/
def State.staleGrowth (s : State) (i : Nat) : Nat :=
  if s.inputStale i then ((s.goodCores i).map (fun k => wholeDegrees s.dieTemp (s.core i k).temp)).foldl max 0 else 0

/-- Renew INPUT_BOUND and the STATUS bits that follow the cores (R163, R170, R172). From Stage 3 the spec states no bound for an input
that lacks CAL_VALID and is not stale: it is open (log 5). -/
def State.refreshInput (s : State) (i : Nat) : State :=
  let p := pTIN i
  let s1 := (s.putFlag p TIN.STATUS.CORE_DEGRADED ((s.goodCores i).length == 1)).putFlag p TIN.STATUS.CAL_VALID (s.inputCalValid i)
  if s1.stage < 2 ∨ s1.inputFault i then s1.put p TIN.INPUT_BOUND.BOUND_PS tebUnknown
  else if s1.stage = 2 then s1.put p TIN.INPUT_BOUND.BOUND_PS 200
  else if s1.inputCalValid i ∨ (s1.inputStale i ∧ (s.goodCores i).length = 2) then
    s1.put p TIN.INPUT_BOUND.BOUND_PS (min (10 + s1.staleGrowth i) tebUnknown)
  else s1.free.2.put p TIN.INPUT_BOUND.BOUND_PS (s1.free.1 % 2 ^ 32)

/-! ### The loopback pair (R82) -/

/-- Whether the cores of an input take the pad-sense of LOOP_CHAN in place of its receiver. Its crossings are then the
lane's transitions, each at the raw position at which it crosses the output ball. -/
def State.looped (s : State) (i : Nat) : Bool := s.flag pCAL CAL.LOOP_CFG.ENABLE && s.get pCAL CAL.LOOP_CFG.LOOP_TIN == i

/-- LOOP_BOUND: 6 ps from Stage 3, 200 ps in Stage 2, unknown while the input is in INPUT_FAULT. -/
def State.loopBound (s : State) : Nat :=
  if s.stage < 2 ∨ s.inputFault (s.get pCAL CAL.LOOP_CFG.LOOP_TIN) then tebUnknown else if s.stage = 2 then 200 else 6

/-- The bound that an input adds to its stamps: INPUT_BOUND, or LOOP_BOUND in its place. -/
def State.inBound (s : State) (i : Nat) : Nat :=
  if s.looped i then s.loopBound else s.get (pTIN i) TIN.INPUT_BOUND.BOUND_PS

/-- LOOP_TERM of a sense. -/
def State.loopTerm (s : State) (rising : Bool) : Int :=
  s.getI pCAL (if rising then CAL.LOOP_TERM_RISE.TERM_SU else CAL.LOOP_TERM_FALL.TERM_SU)

/-- Count a loopback stamp. -/
def State.loopStamp (s : State) : State := (s.incWrap pCAL CAL.LOOP_COUNT.COUNT).irq pCAL 0

/-! ### Levels (R160, R161) -/

/-- Instant now with all steps of the timescale taken out, and that of the next SCLK edge, in 2^-32 SU (R199). -/
def State.flat32 (s : State) : Int := s.now32 - s.clk.stepSum
def State.flatNext32 (s : State) : Int := s.next32 - s.clk.stepSum

/-- An instant of the timescale with the steps up to now taken out. -/
def State.flat (s : State) (t : Int) : Int := t - s.clk.stepSum / 2 ^ 32

/-- A stamp's instant with the steps before it taken out (R199). -/
def Stamp.flat (st : Stamp) : Int := st.t - st.steps / 2 ^ 32

/-- Make an input UNRESOLVED from the SCLK edge C, `ahead` edges from the present one (R59, R161); a frequency gate on it that is under way
at C is fitted over the stamps before C, if the input was not UNRESOLVED before (R190). -/
def State.unresolve (s : State) (i ahead : Nat) : State :=
  let s1 := ((s.putFlag (pTIN i) TIN.STATUS.LEVEL_UNRESOLVED true).putFlag (pTIN i) TIN.STATUS.LEVEL false).setTin i
    { s.tin i with unresolvedAt := s.clk.slot + ahead }
  let c := s.flat (roundEven (tsAtCount32 s.clk (s.clk.tclk + 8 * ahead)) (2 ^ 32))
  { s1 with meas := { s1.meas with gates := s1.meas.gates.mapIdx (fun g ws =>
      if s1.get pTDC (TDC.FG_CFG.SRC_TIN g) = i ∧ !s.unresolved i then
        ws.map (fun w => if w.g ≤ c ∧ c < w.g + w.l ∧ w.closedAt.isNone then { w with lost := true, closedAt := some c } else w)
      else ws) } }

/-- The level at the pin of LOOP_CHAN, after its polarity (R63, R82). -/
def State.loopLevel (s : State) : Bool :=
  (s.chan (s.get pCAL CAL.LOOP_CFG.LOOP_CHAN)).level != s.flag (pCHAN (s.get pCAL CAL.LOOP_CFG.LOOP_CHAN)) CHAN.OUT_CFG.POLARITY

/-- INPUT_RESOLVED (R161): four SCLK edges after the input became UNRESOLVED, at the earliest; a looped input resolves to the level that
the lane drives (R82). -/
def execInputResolved (i : Nat) (high : Bool) (s : State) : Host.Outcome State Fault Refusal :=
  guarded (.inputResolved i high) s (fun s =>
    if s.flag (pTIN i) TIN.CONTROL.ENABLE ∧ s.unresolved i ∧ (s.tin i).unresolvedAt + 4 ≤ s.clk.slot ∧ (!s.looped i || high == s.loopLevel) then
      (((s.putFlag (pTIN i) TIN.STATUS.LEVEL_UNRESOLVED false).putFlag (pTIN i) TIN.STATUS.LEVEL high).setTin i
        { s.tin i with prescale := 0 }).irq (pTIN i) 0
    else s)

/-! ### Capture (R162, R163, R168) -/

/-- Spacing below which a crossing is lost: 1.25 ns, or 2.5 ns with one core (R163), in SU. -/
def State.captureSpacing (s : State) (i : Nat) : Nat := if (s.goodCores i).length = 1 then 163840 else 81920

/-- Whether a core holds an injected event at a raw position: 2.5 ns from its injection (R168). -/
def CoreSt.holdsInjected (c : CoreSt) (pos : Nat) : Bool :=
  match c.injected with | some p => decide (pos < p + 163840) && decide (p ≤ pos) | none => false

/-- The core that takes a capture at a raw position: the one not used last, or the one in service (R163). DESIGN CHOICE (log 101): where
an event injected in a quiet time holds that core and the other is free, it is the other, so that an input whose crossings are never closer
than 2.5 ns meets no collision (R168). -/
def State.nextCore (s : State) (i pos : Nat) : Nat :=
  let last := (s.tin i).lastCore
  let free := match (s.tin i).lastPos with | some p => decide (p + 163840 ≤ pos) | none => true
  if !(s.goodCores i).contains (1 - last) then last
  else if (s.core i (1 - last)).holdsInjected pos && free && (s.goodCores i).contains last && !(s.core i last).holdsInjected pos then last
  else 1 - last

/-- Sessions that name an input with a sense as start or stop (R178, R184). -/
def State.sessionNames (s : State) (k i : Nat) (rising : Bool) : Bool :=
  let bit := if rising then 0 else 1
  (s.get pTDC (TDC.MS_CFG.START_KIND k) == 0 && s.get pTDC (TDC.MS_CFG.START_INDEX k) == i &&
      bitOf (s.get pTDC (TDC.MS_CFG.START_SENSE k)) bit) ||
    (bitOf (s.get pTDC (TDC.MS_STOPS.STOP_MASK k)) i && bitOf (s.get pTDC (TDC.MS_CFG.STOP_SENSE k)) bit)

/-- STATE of a session: 0 IDLE, 1 WAIT_ARM, 2 ARMED, 3 MEASURING (R200). -/
def State.sessState (s : State) (k : Nat) : Nat := s.get pTDC (TDC.MS_STATE.STATE k)

/-- Order of events at one instant: an arm comes first, a start before the stamps, stamps by input (R186, R199). -/
def SessWhat.rank : SessWhat → Nat
  | .arm _ => 0
  | .lost => 1
  | .start _ _ _ => 2
  | .stamp i _ _ _ _ => 3 + i

/-- Insert an event in the order of instants. -/
def insertEvent (e : SessEvent) : List SessEvent → List SessEvent
  | [] => [e]
  | x :: xs => if e.at_ < x.at_ ∨ (e.at_ = x.at_ ∧ e.what.rank < x.what.rank) then e :: x :: xs else x :: insertEvent e xs

/-- Queue an event for a session, unless it is a stamp or a loss that neither the session nor an arm on its way waits for. -/
def SessionSt.enqueue (x : SessionSt) (waits : Bool) (e : SessEvent) : SessionSt :=
  if waits ∨ !x.queue.isEmpty then { x with queue := insertEvent e x.queue } else x

/-- Note what an input handed out or lost. A line event reaches its listeners 26 ns after its instant (R100): what is older than 16 slots
matters no more. -/
def State.noteRecent (s : State) (i : Nat) (st : Stamp) (w : RecentWhat) : State :=
  let l := (s.meas.recent.getD i []).filter (fun r => decide (s.clk.slot ≤ r.slot + 16)) ++ [⟨s.clk.slot, st, w⟩]
  { s with meas := { s.meas with recent := s.meas.recent.set i l } }

/-- A crossing or stamp at instant `u` lost to the sessions that name it (R184), and, when lost to the FIFO, to the gates under way at it
(R190). -/
def State.measLost (s0 : State) (i : Nat) (rising fifo : Bool) (u : Int) : State :=
  let s := s0.noteRecent i ⟨u, rising, 0, false, 0, 0, 0, 0⟩ (.lost fifo)
  { s with meas := { s.meas with
      sessions := s.meas.sessions.mapIdx (fun k x => if s.sessionNames k i rising then x.enqueue (decide (2 ≤ s.sessState k)) ⟨u, .lost⟩ else x)
      gates := s.meas.gates.mapIdx (fun g ws =>
        if fifo ∧ s.get pTDC (TDC.FG_CFG.SRC_TIN g) = i ∧ bitOf (s.get pTDC (TDC.FG_CFG.SENSE g)) (if rising then 0 else 1) then
          ws.map (fun w => if w.g ≤ u ∧ u < w.g + w.l ∧ w.closedAt.isNone then { w with lost := true } else w) else ws) } }

/-- A crossing selected by slope and prescaler: captured by a core, or lost (R163, R168). -/
def State.captureCrossing (s : State) (i : Nat) (x : Crossing) : State :=
  let t := s.tin i
  let k := s.nextCore i x.pos
  let tooClose := match t.lastPos with | some p => decide (x.pos < p + s.captureSpacing i) | none => false
  let collides := (s.core i k).holdsInjected x.pos
  let u := s.flat (s.stampOf x.pos - (if s.looped i then s.loopTerm x.rising
    else s.getI (pTIN i) (if x.rising then TIN.INPUT_TERM_RISE.TERM_SU else TIN.INPUT_TERM_FALL.TERM_SU)))
  if tooClose then ((s.incSat (pTIN i) TIN.DOUBLE_PULSE_LOST.COUNT).irq (pTIN i) 1).measLost i x.rising false u
  else if collides then ((s.incSat (pTIN i) TIN.CAL_COLLISIONS.COUNT).irq (pTIN i) 4).measLost i x.rising false u
  else s.setTin i { t with
    lastCore := k, lastPos := some x.pos
    captures := t.captures ++ [⟨k, x.rising, x.pos, if x.rising then t.riseCount else t.fallCount, s.looped i⟩] }

/-- A threshold crossing (R160 to R163). DESIGN CHOICE (log 101): a commit of PRESCALE alone leaves the count under way as it is, taken modulo
the new PRESCALE (R162 names no new start but that of resolving). -/
def State.crossing (s : State) (i : Nat) (x : Crossing) : State :=
  let p := pTIN i
  if !s.flag p TIN.CONTROL.ENABLE || s.unresolved i || s.flag p TIN.STATUS.LEVEL == x.rising then s
  else
    let t := s.tin i
    let s1 := (s.putFlag p TIN.STATUS.LEVEL x.rising).setTin i
      (if x.rising then { t with riseCount := t.riseCount + 1 } else { t with fallCount := t.fallCount + 1 })
    if !bitOf (s.get p TIN.IN_CFG.SLOPE) (if x.rising then 0 else 1) then s1
    else
      let n := t.prescale
      let s2 := s1.setTin i { s1.tin i with prescale := (n + 1) % max 1 (s.get p TIN.IN_CFG.PRESCALE) }
      if n ≠ 0 ∨ (s.goodCores i).isEmpty then s2 else s2.captureCrossing i x

/-- INPUT_CROSSING (R160). The receiver of a looped input is set aside: its crossings are the transitions of the lane, in their order
(R82). -/
def execInputCrossing (i : Nat) (x : Crossing) (s : State) : Host.Outcome State Fault Refusal :=
  guarded (.inputCrossing i x) s (fun s =>
    if s.looped i then
      if (s.tin i).loopIn.head? = some x then (s.setTin i { s.tin i with loopIn := (s.tin i).loopIn.drop 1 }).crossing i x else s
    else s.crossing i x)

/-- Whether the next transition of the looped lane reaches the cores of an input in the present slot. -/
def State.loopDue (s : State) (i : Nat) : Bool :=
  s.looped i && (match (s.tin i).loopIn with | x :: _ => decide (x.pos < 40960 * (s.clk.tclk + 8)) | [] => false)

/-! ### Conversion (R165 to R167) -/

/-- The mapping in force in a slot, given by its number (R166). -/
def ClockSt.mappingAt (c : ClockSt) (slot : Int) : Mapping :=
  (c.past.find? (fun m => decide (8 * slot < (m.until_ : Int)))).getD ⟨c.tclk, c.anchorN, c.anchorT32, c.y, c.stepSum, c.gen⟩

/-- The coarse map of R167: 1 282.5 + 5 c SU, in 2^-8 SU. -/
def coarseTau (c : Nat) : Int := 328320 + 1280 * c

/-- Skew of a phase and offset of a core in CALDATA, in 2^-8 SU (R167). -/
def State.factorySkew (s : State) (i k p : Nat) : Int := toSigned 24 (s.factoryAt (pTIN i) (if k = 0 then 0x500 + 4 * p else 0x540 + 4 * p))
def State.factoryOffset (s : State) (i k : Nat) : Int := toSigned 24 (s.factoryAt (pTIN i) (TIN.CORE_OFFSET.off k))

/-- tau + skew + offset of a code at stop boundary `b` under a table set, in 2^-8 SU; without one those of the coarse map (R165, R167). -/
def State.fineTerm (s : State) (i k b code : Nat) (set : Option CoreTable) : Int :=
  match set with
  | some t => t.tau.getD code 0 + t.skew.getD (b % 16) 0 + t.offset
  | none => coarseTau code + s.factorySkew i k (b % 16) + s.factoryOffset i k

/-- The sets of a core, latest first, each with the number of the slot from which it is in force (R167, R169). -/
def State.setsOf (s : State) (i k : Nat) : List (Nat × Option CoreTable) :=
  let c := s.core i k
  let fine_ := (s.tin i).fineFrom
  if s.flag (pTIN i) TIN.STATUS.COARSE then []
  else (max c.exchanged fine_, c.front) :: (if c.prev.isSome then [(fine_, c.prev)] else [])

/-- INPUT_TERM of a sense for a raw position of a slot (R166). -/
def State.inputTerm (s : State) (i : Nat) (slot : Int) (rising : Bool) : Int :=
  match (s.tin i).pastTerms.find? (fun t => decide (slot < (t.1 : Int))) with
  | some t => if rising then t.2.1 else t.2.2
  | none => s.getI (pTIN i) (if rising then TIN.INPUT_TERM_RISE.TERM_SU else TIN.INPUT_TERM_FALL.TERM_SU)

/-- The present terms have held up to this slot: others come in force (R166). -/
def State.keepTerms (s : State) (i : Nat) : State :=
  let p := pTIN i
  s.setTin i { s.tin i with pastTerms := (s.tin i).pastTerms.filter (fun t => decide (s.slotNo ≤ t.1 + 64)) ++
    [(s.slotNo, s.getI p TIN.INPUT_TERM_RISE.TERM_SU, s.getI p TIN.INPUT_TERM_FALL.TERM_SU)] }

/-- The slot of a raw position in 2^-8 SU. -/
def rawSlot (raw : Int) : Int := raw / (327680 * 256)

/-- The raw position of a conversion, in 2^-8 SU, under the set in force at it (R165, R175). -/
def State.rawPosition (s : State) (i : Nat) (a : Capture) (c : Conversion) : Int :=
  let under (set : Option CoreTable) : Int :=
    ((c.n : Int) * 40960 + (c.bin + 2 : Nat) * 2560) * 256 - s.fineTerm i a.core (c.bin + 2) c.code set
  match (s.setsOf i a.core).find? (fun t => decide ((t.1 : Int) ≤ rawSlot (under t.2))) with
  | some t => under t.2
  | none => under none

/-- The stamp of a conversion, with the anchor of its raw position's slot, and the steps before it (R165, R166). -/
def State.stampInstant (s : State) (i : Nat) (a : Capture) (c : Conversion) : Int × Int :=
  let raw := s.rawPosition i a c
  let m := s.clk.mappingAt (rawSlot raw)
  let d := raw - (m.anchorN : Int) * 40960 * 256
  let t32 := m.anchorT32 + roundEven (d * 2 ^ 24 * (2 ^ 60 + m.y)) (2 ^ 60)
  (roundEven t32 (2 ^ 32) - (if a.looped then s.loopTerm a.rising else s.inputTerm i (rawSlot raw) a.rising), m.stepSum)

/-- The number of the steps before the anchor of a conversion (R195). -/
def State.stampGen (s : State) (i : Nat) (a : Capture) (c : Conversion) : Nat := (s.clk.mappingAt (rawSlot (s.rawPosition i a c))).gen

/-- Enter a stamp into the FIFO, or lose it (R164). -/
def State.fifoEnter (s : State) (i : Nat) (st : Stamp) : State :=
  let t := s.tin i
  if t.fifo.length < 1024 then s.setTin i { t with fifo := t.fifo ++ [{ st with lostBefore := t.lostBefore }], lostBefore := 0 }
  else (((s.setTin i { t with lostBefore := t.lostBefore + 1 }).incSat (pTIN i) TIN.BURST_LOST.COUNT).irq (pTIN i) 2).measLost i st.rising true st.flat

/-- Thousands of events injected per second: none below Stage 2 or while the device is held there, 10 000 in the initial calibration, then
INJECT_RATE (R167, R168, R317). -/
def State.injRate (s : State) (i : Nat) : Nat :=
  if s.stage < 2 then 0
  else if s.stage = 2 then (if s.heldAt2 then 0 else 10000)
  else s.get (pTIN i) TIN.CAL_CFG.INJECT_RATE

/-- An event with a code enters the back set of a core, until the set has its 2^20 (R169). -/
def State.countEvent (s : State) (i k code : Nat) : State :=
  let c := s.core i k
  if 1048576 ≤ c.events then s
  else
    let h := if c.hist.isEmpty then List.replicate 1024 0 else c.hist
    ((s.setCore i k { c with events := c.events + 1, hist := h.set code (h.getD code 0 + 1) }).put (pTIN i) TIN.CAL_STATE.FILL
      ((c.events + 1) * 100 / 1048576)).put (pTIN i) TIN.CAL_STATE.BUILD_CORE k

/-- A conversion completes (R164 to R166): counters, LAST_STAMP, the FIFO and the direct path. -/
def State.stampReady (s : State) (i : Nat) (c : Conversion) : State :=
  match (s.tin i).captures with
  | [] => s
  | a :: rest =>
    let p := pTIN i
    let ts := s.stampInstant i a c
    let t := ts.1
    let bad := c.code == 0 || c.code == 1023
    let teb := if bad then tebUnknown else tebAdd (s.tebTs t) (if a.looped then s.loopBound else s.get p TIN.INPUT_BOUND.BOUND_PS)
    let s1 := ((((s.setTin i { s.tin i with captures := rest }).incWrap p TIN.STAMPS.COUNT).putInst p TIN.LAST_STAMP.INSTANT t).put p
      TIN.LAST_STAMP_TEB.TEB_PS teb).put p TIN.LAST_STAMP_INFO.SENSE (if a.rising then 1 else 2)
    let s2 := (if bad then (s1.incSat p TIN.RANGE_ERRORS.COUNT).irq p 5 else s1).onlyIf a.looped State.loopStamp
    let live := s.flag p TIN.CAL_CFG.CAL_LIVE && decide (2 ≤ s.stage) && !s.heldAt2 && !bad
    let s3 := (s2.onlyIf live (fun s => s.countEvent i a.core c.code)).fifoEnter i ⟨t, a.rising, teb, bad, a.index, ts.2, 0, s.stampGen i a c⟩
    s3.post ⟨.timingInput i a.rising, t.toNat, teb⟩

/-- STAMP_READY (R166). -/
def execStampReady (i : Nat) (c : Conversion) (s : State) : Host.Outcome State Fault Refusal :=
  guarded (.stampReady i c) s (fun s => s.stampReady i c)

/-! ### Calibration (R167 to R170) -/

/-- A core fails (R170). -/
def State.coreFail (s : State) (i k : Nat) : State :=
  let s1 := (s.setCore i k { s.core i k with failed := true, retry := false }).err (pTIN i) 1
  (s1.onlyIf (s1.goodCores i).isEmpty (fun s => (s.setTin i { s.tin i with faultErr := true }).err (pTIN i) 0)).refreshInput i

/-- The core of the next injected event: the cores in turn, but while the input is captured only the one that the last capture used (R168).
DESIGN CHOICE (log 101): an input without a capture in the time of one injection, one that captures nothing, and a failed core, which takes
no capture, leave the turn as it is; else a quiet input, or a core on trial, could never complete its sets (R167, R170). -/
def State.injCore (s : State) (i : Nat) : Nat :=
  let t := s.tin i
  let k := t.injCount % 2
  let quiet : Bool := match t.lastPos with
    | some p => decide (p + 327680 * (200000 / max 1 (s.injRate i)) ≤ 40960 * s.clk.tclk)
    | none => true
  if k = t.lastCore ∨ quiet ∨ (s.core i k).failed ∨ s.unresolved i ∨ !s.flag (pTIN i) TIN.CONTROL.ENABLE then k else t.lastCore

/-- Whether the next injected event of an input is due: at its rate, and 2.5 ns after the last capture (R168). -/
def State.injDue (s : State) (i : Nat) : Bool :=
  s.injRate i != 0 && decide ((s.tin i).injAt ≤ s.clk.slot) &&
    (match (s.tin i).lastPos with | some p => decide (p + 163840 ≤ 40960 * s.clk.tclk) | none => true)

/-- Count a pulse of a stop phase and code. -/
def bumpPulse (p code : Nat) : List (Nat × Nat × Nat) → List (Nat × Nat × Nat)
  | [] => [(p, code, 1)]
  | x :: l => if x.1 = p ∧ x.2.1 = code then (p, code, x.2.2 + 1) :: l else x :: bumpPulse p code l

/-- INJECTED_EVENT (R168): every eighth event of a core is a phase pulse (the figures that follow R169 count so), and its pulses visit the 16
phases in turn; an asynchronous event fills the back set, a pulse its mean errors, and 16 phase pulses in a row out of range fail the core
(R169, R170). The charge that a pulse launched at phase p begins ends at boundary p + 2, as that of a crossing in bin p does (R165; log
102). -/
def State.injectInto (s : State) (i k : Nat) (pulse : Bool) (code : Nat) : State :=
  let t := s.tin i
  let n := (s.core i k).injCount
  if !s.injDue i ∨ k ≠ s.injCore i ∨ pulse ≠ decide (n % 8 = 7) then s
  else
    let r := s.injRate i
    let s0 := s.setTin i { t with
      injCount := t.injCount + 1
      injAt := max s.clk.slot (t.injAt + (200000 + t.injRem) / r)
      injRem := (200000 + t.injRem) % r }
    let c := s0.core i k
    let bad := code == 0 || code == 1023
    let s1 := s0.setCore i k { c with
      injected := some (40960 * s.clk.tclk)
      injCount := n + 1
      pulses := if pulse ∧ !bad then bumpPulse ((n / 8 % 16 + 2) % 16) code c.pulses else c.pulses
      badPulses := if pulse then (if bad then c.badPulses + 1 else 0) else c.badPulses }
    let s2 := s1.onlyIf (!pulse) (fun s => s.countEvent i k code)
    if 16 ≤ (s2.core i k).badPulses ∧ !c.failed then s2.coreFail i k else s2

def execInjectedEvent (i core : Nat) (pulse : Bool) (code : Nat) (s : State) : Host.Outcome State Fault Refusal :=
  guarded (.injectedEvent i core pulse code) s (fun s => s.injectInto i core pulse code)

/-- tau of the codes of the nominal span, in 2^-8 SU: 2560 + 2560 (sum below + half its own) / sum (R169). -/
def tauInside (total below : Nat) : List Nat → List Int
  | [] => []
  | x :: xs => (2560 * 256 + roundEven ((2560 * 128 * (2 * below + x) : Nat) : Int) total) :: tauInside total (below + x) xs

/-- tau of every code: the nominal span by its density, the codes outside extended by the end slopes (R169). -/
def tauTable (h : List Nat) (lo hi : Nat) : List Int :=
  let span := (h.drop lo).take (hi + 1 - lo)
  let t := tauInside (span.foldl (· + ·) 0) 0 span
  let at_ (c : Nat) : Int := t.getD (c - lo) 0
  let before := (List.range lo).map (fun c => at_ lo - (lo - c : Nat) * (at_ (lo + 1) - at_ lo))
  let after := (List.range (1023 - hi)).map (fun c => at_ hi + (c + 1 : Nat) * (at_ hi - at_ (hi - 1)))
  before ++ t ++ after

/-- Offset and skews from the mean pulse errors, so that the skews sum to zero (R169); what does not divide by 16 goes to
the first phases (log 12). -/
def splitErrors (e : List Int) : Int × List Int :=
  let total := sumI e (fun x => x)
  let off := total / 16
  let r := (total % 16).toNat
  (off, e.mapIdx (fun k x => x - off - (if k < r then 1 else 0)))

/-- The error of a pulse without skew and offset, in 2^-8 SU: its charge spans two phases, 5 120 SU, so the raw position of R165 less that of
its launch (R169; log 102). -/
def pulseError (tau : List Int) (code : Nat) : Int := 5120 * 256 - tau.getD code 0

/-- The mean pulse error at each phase, in 2^-8 SU; a phase that no pulse came to counts as without error (log 102). -/
def meanErrors (tau : List Int) (pulses : List (Nat × Nat × Nat)) : List Int :=
  (List.range 16).map (fun p =>
    let l := pulses.filter (fun x => x.1 == p)
    roundEven (sumI l (fun x => x.2.2 * pulseError tau x.2.1)) (max 1 (l.foldl (fun n x => n + x.2.2) 0)))

/-- The table set that the events of a core, by code, and its pulses build (R169). -/
def tableOfResult (c : CoreSt) (r : TableResult) : CoreTable :=
  let tau := tauTable c.hist r.lo r.hi
  let o := splitErrors (meanErrors tau c.pulses)
  ⟨tau, o.2, o.1⟩

/-- The acceptance tests of R169: of the pulse errors recomputed with the new set, each lies within 2 ps, 33 554 432 in thousandths of
2^-8 SU, and their rms within 1.2 ps, 201 326 592 in ten thousandths. -/
def tableAccepted (c : CoreSt) (r : TableResult) : Bool :=
  let t := tableOfResult c r
  let err (x : Nat × Nat × Nat) : Int := pulseError t.tau x.2.1 - t.skew.getD x.1 0 - t.offset
  decide (r.lo < r.hi) && risingInts t.tau &&
    (List.range (r.hi + 1 - r.lo)).all (fun k => c.hist.getD (r.lo + k) 0 != 0) &&
    c.pulses.all (fun x => decide ((err x).natAbs * 1000 ≤ 33554432)) &&
    decide (sumI c.pulses (fun x => x.2.2 * (err x * err x)) * 100000000 ≤ sumI c.pulses (fun x => x.2.2) * 40532396646334464)

/-- Whether both cores of an input hold an accepted set or are failed (R83). -/
def State.tinSettled (s : State) (i : Nat) : Bool := (List.range 2).all (fun k => (s.core i k).front.isSome || (s.core i k).failed)

/-- Renew TIN_SETTLED and ALL_SETTLED (R83). -/
def State.refreshTinSettled (s : State) : State :=
  (s.put pCAL CAL.TIN_SETTLED.INPUTS ((List.range 16).foldl (fun n i => n + 2 ^ i * b2n (s.tinSettled i)) 0)).refreshSettled

/-- An accepted set goes in front at a slot boundary, with the terms that Kalwin firmware renews (R166, R167, R169, R170). -/
def State.acceptTable (s : State) (i k : Nat) (r : TableResult) : State :=
  let p := pTIN i
  let c := s.core i k
  let t := tableOfResult c r
  let s1 := s.setCore i k { c with
    front := some t, prev := c.front, exchanged := s.slotNo, accepted := s.clk.slot, temp := s.dieTemp, events := 0, hist := [], pulses := []
    fails := 0
    failed := c.failed && !c.retry, retry := false, stale := false, badPulses := 0 }
  let s2 := (s1.keepTerms i).putI p TIN.INPUT_TERM_RISE.TERM_SU r.termRise
  let s3 := ((s2.putI p TIN.INPUT_TERM_FALL.TERM_SU r.termFall).putI p (TIN.CORE_OFFSET.OFFSET k) t.offset).forEach (List.range 16)
    (fun q s => s.putI p (if k = 0 then TIN.PHASE_SKEW0.SKEW q else TIN.PHASE_SKEW1.SKEW q) (t.skew.getD q 0))
  let s4 := ((s3.putI p TIN.CAL_TEMP.TEMP s.dieTemp).put p TIN.CAL_STATE.FILL 0).irq p 3
  let s5 := if s4.flag p TIN.STATUS.COARSE ∧ (List.range 2).all (fun k => (s4.core i k).front.isSome) then
      (s4.putFlag p TIN.STATUS.COARSE false).setTin i { s4.tin i with fineFrom := s.slotNo } else s4
  (s5.refreshInput i).refreshTinSettled

/-- A back set is complete: accepted, or discarded; three failures in a row fail the core, and a failed core on trial returns with its
next set or not at all (R169, R170). -/
def State.tableDone (s : State) (i k : Nat) (r : TableResult) : State :=
  let c := s.core i k
  if s.stage < 2 ∨ c.events < 1048576 ∨ (c.failed ∧ !c.retry) then s
  else if tableAccepted c r then s.acceptTable i k r
  else
    let s1 := (s.setCore i k { c with events := 0, hist := [], pulses := [], fails := c.fails + 1, retry := false }).put (pTIN i) TIN.CAL_STATE.FILL 0
    if 3 ≤ c.fails + 1 ∧ !c.failed then (s1.coreFail i k).refreshTinSettled else s1

/-- Whether a core's front set has become stale: older than 120 s, or the die more than 2 degrees off (R170). -/
def State.staleDue (s : State) (i k : Nat) : Bool :=
  let c := s.core i k
  c.front.isSome && !c.stale && (decide (c.accepted + 120 * 200000000 < s.clk.slot) || decide (16 < (s.dieTemp - c.temp).natAbs))

/-- CAL_STALE (R170). -/
def execCalStale (i core : Nat) (s : State) : Host.Outcome State Fault Refusal :=
  guarded (.calStale i core) s (fun s =>
    if s.staleDue i core then
      let s1 := s.setCore i core { s.core i core with stale := true }
      ((s1.setTin i { s1.tin i with staleErr := true }).err (pTIN i) 3).refreshInput i
    else s)

/-- RECAL (R170): both back sets start again, and a failed core may return with its next set. -/
def State.recal (s : State) (i : Nat) : State :=
  (s.setTin i { s.tin i with cores := (s.tin i).cores.map (fun c => { c with events := 0, hist := [], pulses := [], fails := 0, retry := c.failed, badPulses := 0 }) }).put
    (pTIN i) TIN.CAL_STATE.FILL 0

/-- INPUT_TABLE_ECC (R170). -/
def execInputTableEcc (i core : Nat) (uncorrectable : Bool) (s : State) : Host.Outcome State Fault Refusal :=
  guarded (.inputTableEcc i core uncorrectable) s (fun s => s.inCore (fun s =>
    if uncorrectable then (s.coreFail i core).refreshTinSettled else s.err (pTIN i) 2))

/-! ### Settings (R158, R159, R162) -/

/-- The limits of the comparator settings, on a state that holds the values the commit would make effective (R158, R159,
R162). Voltages are in units of 5 V / 8192. -/
def State.tinLimits (s : State) (i : Nat) : Bool :=
  let p := pTIN i
  let th : Int := s.get p TIN.CMP_CFG.THRESHOLD
  let hyst : Int := s.get p TIN.CMP_CFG.HYST
  let diff := s.flag p TIN.IN_CFG.INPUT_MODE
  let term := s.get p TIN.IN_CFG.TERM
  decide (hyst * 2 * 4096 ≤ th * 5000) && decide (th * 5000 + hyst * 2 * 4096 ≤ 4095 * 5000) &&
    (!diff || (decide (820 ≤ th) && decide (th ≤ 2457))) &&
    (term != 2 || diff) && term != 3 && s.get p TIN.IN_CFG.SLOPE != 0 && s.get p TIN.IN_CFG.PRESCALE != 0

/-- The settings that INPUT_TERM follows (R166). -/
def State.termSetting (s : State) (i : Nat) : Nat × Nat := (s.get (pTIN i) TIN.IN_CFG.TERM, s.get (pTIN i) TIN.IN_CFG.INPUT_MODE)

/-- What a commit of a TIN page does: a change of threshold, hysteresis, termination or mode unresolves the input, and INPUT_TERM follows
termination and mode (R161, R166). -/
def State.tinCommit (s : State) (i : Nat) (old : State) : State :=
  let key (s : State) := (s.get (pTIN i) TIN.CMP_CFG.THRESHOLD, s.get (pTIN i) TIN.CMP_CFG.HYST, s.termSetting i)
  let s1 := s.onlyIf (s.termSetting i != old.termSetting i) (fun s => (s.keepTerms i).inputForm i)
  if key s ≠ key old then s1.unresolve i 0 else s1

end Sys2Proof.Machine
end

