-- ==== Sys2Proof/Machine/Meas.lean ====
section
/-! DEFINITION. Measurement sessions, frequency gates and stamp streams (chapter 8, R177 to R200). -/

namespace Sys2Proof.Machine

def State.sess (s : State) (k : Nat) : SessionSt := s.meas.sessions.getD k {}
def State.setSess (s : State) (k : Nat) (x : SessionSt) : State := { s with meas := { s.meas with sessions := s.meas.sessions.set k x } }
def State.gate (s : State) (g : Nat) : List GateWin := s.meas.gates.getD g []
def State.setGate (s : State) (g : Nat) (x : List GateWin) : State := { s with meas := { s.meas with gates := s.meas.gates.set g x } }
def State.stream (s : State) (k : Nat) : StreamSt := s.meas.streams.getD k {}
def State.setStream (s : State) (k : Nat) (x : StreamSt) : State := { s with meas := { s.meas with streams := s.meas.streams.set k x } }

/-- Put STATE of a session. -/
def State.putSessState (s : State) (k st : Nat) : State := s.put pTDC (TDC.MS_STATE.STATE k) st

/-- Sense of a stamp as bit 0 rising, bit 1 falling. -/
def senseBit (rising : Bool) : Nat := if rising then 0 else 1

/-- Keep a result for RESULT_SEL and send it to the class 0x01 ring (R186, R187, R191). -/
def State.putResult (s : State) (n seq : Nat) (elems : List Nat) : State :=
  ({ s with meas := { s.meas with results := s.meas.results.set n (some (elems, seq % 65536)) } }).event 1 elems

/-! ### Sessions (R178 to R186) -/

/-- Start input of a session, 16 if it does not start on an input. -/
def State.startInput (s : State) (k : Nat) : Nat :=
  if s.get pTDC (TDC.MS_CFG.START_KIND k) = 0 then s.get pTDC (TDC.MS_CFG.START_INDEX k) else 16

/-- The distinct inputs a session names (R178). -/
def State.sessionInputs (s : State) (k : Nat) : List Nat :=
  (List.range 16).filter (fun i => s.startInput k == i || bitOf (s.get pTDC (TDC.MS_STOPS.STOP_MASK k)) i)

/-- Stops discarded under R181. -/
def State.earlyStops (s : State) (k n : Nat) : State :=
  if n = 0 then s
  else ((s.setSess k { s.sess k with early := min 255 ((s.sess k).early + n) }).incSat pTDC (TDC.MS_EARLY.COUNT k) n).irq pTDC 1

/-- Insert a stop by instant; ties go to the lower input (R186). -/
def insertStop (x : Stop) : List Stop → List Stop
  | [] => [x]
  | y :: ys => if x.t < y.t ∨ (x.t = y.t ∧ x.input < y.input) then x :: y :: ys else y :: insertStop x ys

/-- The bound of a stop (R183). -/
def State.stopBound (s : State) (k : Nat) (x : Stop) : Nat :=
  let d := (x.t - (s.sess k).s).natAbs
  let uy := s.uy (x.t + s.clk.stepSum / 2 ^ 32)
  if x.unknown ∨ uy = 0xFFFFFFFF then tebUnknown
  else tebAdd (tebAdd (s.sess k).calStart (s.inBound x.input)) (psOfFreq uy d)

/-- A stop entry (R186). -/
def State.stopEntry (s : State) (k : Nat) (x : Stop) : Nat :=
  let d := x.t - (s.sess k).s
  packRec [(48, 80, ofSigned 80 d), (16, 32, s.stopBound k x), (12, 4, x.input), (10, 2, if x.rising then 1 else 2), (9, 1, b2n (decide (d < 0))),
    (8, 1, b2n (decide (d.natAbs ≤ 262))), (7, 1, b2n x.unknown)]

/-- Two entries to an element, the unused half zero. -/
def pairUp : List Nat → List Nat
  | [] => []
  | [a] => [a]
  | a :: b :: l => (a + 2 ^ 128 * b) :: pairUp l

/-- The elements of the result of a session that ends at `endAt` (R186, R199). -/
def State.sessionElems (s : State) (k : Nat) (timeout aborted : Bool) (endAt : Int) : List Nat :=
  let x := s.sess k
  packRec [(128, 128, instantBits (x.s + x.steps / 2 ^ 32).toNat), (96, 32, x.startTeb), (64, 32, s.get pTDC (TDC.MS_RESULTS.COUNT k)), (56, 8, x.early),
    (48, 5, x.kept.length), (47, 1, b2n timeout), (46, 1, b2n x.lost), (45, 1, b2n (x.stepped.any (fun u => decide (u ≤ endAt)))), (44, 1, b2n aborted), (32, 8, k),
    (28, 4, 1 + (x.kept.length + 1) / 2), (24, 4, 1), (20, 4, 1)] :: pairUp (x.kept.map (fun y => s.stopEntry k y))

/-- The sum of the steps before an instant, and the first step after it (R199). -/
def State.stepsAt (s : State) (u : Int) : Int :=
  ((s.meas.steps.filter (fun e => decide (u < e.1))).getLast?.map (·.2)).getD s.clk.stepSum

def State.stepAfter? (s : State) (u : Int) : Option Int := (s.meas.steps.filter (fun e => decide (u < e.1))).getLast?.map (·.1)

/-- Arm a session at A, on the timescale in force at A (R199); in any other state than WAIT_ARM the arm is discarded and counted (R179). -/
def State.armOnly (s : State) (k : Nat) (a : Int) : State :=
  if s.sessState k ≠ 1 then s.incSat pTDC (TDC.MS_ARM_IGNORED.COUNT k)
  else (((s.setSess k { a := a, steps := s.stepsAt a, stepped := s.stepAfter? a, queue := (s.sess k).queue }).putSessState k 2).putInst pTDC
    (TDC.MS_ARM_AT.INSTANT k) (a + s.stepsAt a / 2 ^ 32)).put pTDC (TDC.MS_STATE.STOPS k) 0

/-- Write a session's result and return to WAIT_ARM while enabled (R182, R186). -/
def State.endSession (s : State) (k : Nat) (timeout aborted : Bool) (endAt : Int) : State :=
  let s1 := s.incWrap pTDC (TDC.MS_RESULTS.COUNT k)
  let elems := s1.sessionElems k timeout aborted endAt
  let s2 := ((s1.putResult k (s1.get pTDC (TDC.MS_RESULTS.COUNT k)) elems).irq pTDC 0).put pTDC (TDC.MS_STATE.STOPS k) 0
  (s2.setSess k { queue := (s.sess k).queue }).putSessState k 1

/-- S + TIMEOUT_NS of a session (R182). -/
def State.sessDeadline (s : State) (k : Nat) : Int := (s.sess k).s + s.get pTDC (TDC.MS_TIMEOUT.TIMEOUT_NS k) * suNs

/-- Whether a session arms itself again (R179). -/
def State.isAuto (s : State) (k : Nat) : Bool :=
  s.flag pTDC (TDC.MS_CFG.ENABLE k) && s.get pTDC (TDC.MS_CFG.ARM_KIND k) == 3 && s.sessState k == 1

/-- The stops that waited before S, at the start (R181): the most recent of those in the window are kept, the others count as early. -/
def State.takeWaiting (s : State) (k : Nat) (at_ : Int) (teb cal : Nat) : State :=
  let x := s.sess k
  let w := at_ - s.get pTDC (TDC.MS_PRE.PRE_WINDOW_NS k) * suNs
  let before := x.waiting.filter (fun y => decide (y.t < at_))
  let good := before.filter (fun y => decide (w ≤ y.t) && y.input != s.startInput k)
  let kept := good.drop (good.length - s.get pTDC (TDC.MS_CFG.STOP_COUNT k))
  (((s.setSess k { x with s := at_, startTeb := teb, calStart := cal, waiting := [], kept := kept }).putSessState k 3).put pTDC
    (TDC.MS_STATE.STOPS k) kept.length).earlyStops k (before.length - kept.length)

/-- Arm a session, and start it at A when START_KIND is ARM (R179, R180). -/
def State.armSession (s : State) (k : Nat) (a : Int) : State :=
  let ready := s.sessState k == 1
  let s1 := s.armOnly k a
  if ready ∧ s.get pTDC (TDC.MS_CFG.START_KIND k) = 2 then s1.takeWaiting k a (s1.tebTs (a + s.stepsAt a / 2 ^ 32)) 0 else s1

/-- The end of a session by its count or its timeout; an AUTO session is armed again 1 SU later (R179, R182). -/
def State.closeSession (s : State) (k : Nat) (timeout : Bool) (endAt : Int) : State :=
  (s.endSession k timeout false endAt).onlyIf ((s.endSession k timeout false endAt).isAuto k) (fun s => s.armSession k (endAt + 1))

/-- A stop at a measuring session: kept, or discarded as early; the one that completes the count ends it (R181, R182). -/
def State.takeStop (s : State) (k : Nat) (x : Stop) : State :=
  let y := s.sess k
  let n := s.get pTDC (TDC.MS_CFG.STOP_COUNT k)
  if s.sessState k ≠ 3 ∨ x.t < y.a ∨ s.sessDeadline k ≤ x.t then s
  else if x.t < y.s ∧ (x.input = s.startInput k ∨ x.t < y.s - s.get pTDC (TDC.MS_PRE.PRE_WINDOW_NS k) * suNs) then s.earlyStops k 1
  else
    let s1 := (s.setSess k { y with kept := insertStop x y.kept }).put pTDC (TDC.MS_STATE.STOPS k) (y.kept.length + 1)
    if n ≤ y.kept.length + 1 then s1.closeSession k false (max x.t y.s) else s1

/-- The start of an ARMED session at S (R180 to R182): a full pre-start window ends it there. -/
def State.startSession (s : State) (k : Nat) (at_ : Int) (teb cal : Nat) : State :=
  let s1 := s.takeWaiting k at_ teb cal
  if s.get pTDC (TDC.MS_CFG.STOP_COUNT k) ≤ (s1.sess k).kept.length then s1.closeSession k false at_
  else s1.forEach ((s.sess k).waiting.filter (fun y => decide (at_ ≤ y.t))) (fun y s => s.takeStop k y)

/-- A stamp reaches a session: its start, a stop, or nothing (R180, R181). -/
def State.sessionStamp (s : State) (k : Nat) (y : Stop) (teb cal : Nat) : State :=
  let x := s.sess k
  let stops := bitOf (s.get pTDC (TDC.MS_STOPS.STOP_MASK k)) y.input && bitOf (s.get pTDC (TDC.MS_CFG.STOP_SENSE k)) (senseBit y.rising)
  let starts := s.startInput k == y.input && bitOf (s.get pTDC (TDC.MS_CFG.START_SENSE k)) (senseBit y.rising)
  if y.t < x.a then s
  else if s.sessState k = 2 ∧ starts then s.startSession k y.t teb cal
  else if stops then
    if s.sessState k = 2 then s.setSess k { x with waiting := insertStop y x.waiting } else s.takeStop k y
  else s

/-- An event reaches its session (R179 to R181, R184). -/
def State.sessEvent (s : State) (k : Nat) (e : SessEvent) : State :=
  match e.what with
  | .arm _ => s.armSession k e.at_
  | .lost => if 2 ≤ s.sessState k ∧ (s.sess k).a ≤ e.at_ then s.setSess k { s.sess k with lost := true } else s
  | .start teb cal _ => if s.sessState k = 2 ∧ (s.sess k).a ≤ e.at_ then s.startSession k e.at_ teb cal else s
  | .stamp i rising unknown teb cal => if 2 ≤ s.sessState k then s.sessionStamp k ⟨e.at_, i, rising, unknown⟩ teb cal else s

/-- Whether every stamp of an input from before an instant has left the FIFO and the intake. A crossing is in the FIFO after 20 ns (R164). -/
def State.inputClear (s : State) (i : Nat) (u : Int) : Bool :=
  decide ((u + 40 * suNs) * fine ≤ s.flat32) && (s.tin i).fifo.all (fun st => decide (u ≤ st.flat)) &&
    (s.meas.intake.getD i []).all (fun st => decide (u ≤ st.flat))

/-- Whether no stamp from before an instant can still reach a session. -/
def State.sessClear (s : State) (k : Nat) (u : Int) : Bool := (s.sessionInputs k).all (fun i => s.inputClear i u)

/-- Whether an event is taken now: its instant has come, and for a session that is ARMED or MEASURING no earlier stamp is on its way (log
91). A timeout comes first. -/
def State.sessReady (s : State) (k : Nat) (e : SessEvent) : Bool :=
  decide (e.at_ * fine < s.flatNext32) && (decide (s.sessState k < 2) || s.sessClear k e.at_) &&
    !(s.sessState k == 3 && decide (s.sessDeadline k ≤ e.at_))

/-- A session takes the events that wait for it, in the order of their instants. -/
def State.sessTake (s : State) (k : Nat) : Nat → State
  | 0 => s
  | n + 1 => match (s.sess k).queue with
    | [] => s
    | e :: rest => if s.sessReady k e then ((s.setSess k { s.sess k with queue := rest }).sessEvent k e).sessTake k n else s

def State.sessRun (s : State) (k : Nat) : State := s.sessTake k (s.sess k).queue.length

/-- Every session takes what is ready for it, once in a slot. -/
def State.measSlot (s : State) : State := s.forEach ((List.range 16).filter (fun k => !(s.sess k).queue.isEmpty)) (fun k s => s.sessRun k)

/-- Queue an arm or a start of a session. -/
def State.toSession (s : State) (k : Nat) (e : SessEvent) : State := (s.setSess k ((s.sess k).enqueue true e)).sessRun k

/-- Sessions that take stamps of an input. -/
def State.sessionsOn (s : State) (i : Nat) : List Nat :=
  (s.subscribers i).filterMap (fun e => if e.1 = 4 ∧ e.2 < 16 then some e.2 else none)

/-- INTAKE_DRAIN (R184): one stamp of an input's buffer every 40 ns. -/
def State.drain (s : State) (i : Nat) : State :=
  match s.meas.intake.getD i [] with
  | [] => s
  | st :: rest =>
    if s.clk.slot < s.meas.drainSlot.getD i 0 then s
    else
      let s1 := { s with meas := { s.meas with intake := s.meas.intake.set i rest, drainSlot := s.meas.drainSlot.set i (s.clk.slot + 8) } }
      let e : SessEvent := ⟨st.flat, .stamp i st.rising st.outOfRange (if st.outOfRange then tebUnknown else st.teb) (s.inBound i)⟩
      s1.forEach (s1.sessionsOn i) (fun k s => (s.setSess k ((s.sess k).enqueue (decide (2 ≤ s.sessState k)) e)).sessRun k)

def execIntakeDrain (i : Nat) (s : State) : Host.Outcome State Fault Refusal := guarded (.intakeDrain i) s (fun s => s.drain i)

/-- A stamp enters the intake of its input, or is lost (R184). -/
def State.intakePut (s : State) (i : Nat) (st : Stamp) : State :=
  let b := s.meas.intake.getD i []
  if b.length < 64 then { s with meas := { s.meas with intake := s.meas.intake.set i (b ++ [st]) } }
  else ((s.incSat pTDC (TDC.INTAKE_LOST.COUNT i)).irq pTDC 4).measLost i st.rising false st.flat

/-- A stamp handed out by the FIFO enters the intake while a session on the input is ARMED or MEASURING (R184). -/
def State.intakeEnter (s : State) (i : Nat) (st : Stamp) : State :=
  let enters := (s.sessionsOn i).any (fun k => decide (2 ≤ s.sessState k))
  (s.noteRecent i st (.out enters)).onlyIf enters (fun s => s.intakePut i st)

/-- A stamp or a loss of an input from before the arm at `a` of session `k` was delivered, and at or after it, reaches the session too
(R179). -/
def State.replayOne (s : State) (k i : Nat) (r : Recent) : State :=
  let st := r.st
  let here := (s.meas.intake.getD i []).contains st
  match r.what with
  | .lost _ => if s.sessionNames k i st.rising then s.setSess k ((s.sess k).enqueue true ⟨st.flat, .lost⟩) else s
  | .out true => if here then s else s.setSess k ((s.sess k).enqueue true
      ⟨st.flat, .stamp i st.rising st.outOfRange (if st.outOfRange then tebUnknown else st.teb) (s.inBound i)⟩)
  | .out false =>
    let l := (s.meas.recent.getD i []).map (fun x => if x = r then { x with what := .out true } else x)
    { s with meas := { s.meas with recent := s.meas.recent.set i l } }.intakePut i st

/-- What the inputs of a session handed out or lost from the instant of an arm on, before the arm was delivered (R179). -/
def State.replay (s : State) (k : Nat) (a : Int) : State :=
  if s.sessState k ≠ 1 then s
  else s.forEach (s.sessionInputs k) (fun i s =>
    s.forEach ((s.meas.recent.getD i []).filter (fun r => decide (a ≤ r.st.flat))) (fun r s => s.replayOne k i r))

/-- Whether a session times out now: no event from before S + TIMEOUT_NS can still reach it (R182). -/
def State.timeoutDue (s : State) (k : Nat) : Bool :=
  s.sessState k == 3 && s.sessClear k (s.sessDeadline k) && (s.sess k).queue.all (fun e => decide (s.sessDeadline k ≤ e.at_)) &&
    decide (s.sessDeadline k * fine ≤ s.flat32)

/-- SESSION_TIMEOUT (R182). -/
def execSessionTimeout (k : Nat) (s : State) : Host.Outcome State Fault Refusal :=
  guarded (.sessionTimeout k) s (fun s => if s.timeoutDue k then (s.closeSession k true (s.sessDeadline k)).sessRun k else s)

/-- Setting ENABLE of a session whose new settings are in `s` (R178). -/
def State.enableSession (s : State) (k : Nat) : State × Verdict :=
  let mask := s.get pTDC (TDC.MS_STOPS.STOP_MASK k)
  let sk := s.get pTDC (TDC.MS_CFG.START_KIND k)
  let ak := s.get pTDC (TDC.MS_CFG.ARM_KIND k)
  if s.stage < 2 then refuse s .state
  else if mask = 0 ∨ (s.get pTDC (TDC.MS_PRE.PRE_WINDOW_NS k) ≠ 0 ∧ sk = 2) ∨ (sk = 0 ∧ 16 ≤ s.get pTDC (TDC.MS_CFG.START_INDEX k)) ∨
      (ak = 2 ∧ 8 ≤ s.get pTDC (TDC.MS_CFG.ARM_INDEX k)) then refuse s .range
  else match s.takePlaces 4 k (s.sessionInputs k) with
    | .error i => (s, ⟨.conflict, some (s.resOwner 3 i)⟩)
    | .ok s1 =>
      let s2 := (s1.setSess k {}).putSessState k 1
      accept (if ak = 3 then s2.armSession k (s2.flat s2.now) else s2)

/-- Abort a session at once: with a result while MEASURING, without one while ARMED (R182). Arms from before that moment found it busy. -/
def State.abortSession (s : State) (k : Nat) : State :=
  let old := (s.sess k).queue.filter (fun e => decide (e.at_ * fine < s.flat32))
  let arms := old.filter (fun e => e.what.rank == 0)
  let rest := (s.sess k).queue.filter (fun e => !decide (e.at_ * fine < s.flat32))
  let s1 := (if s.sessState k = 3 then s.endSession k false true (s.flat s.now) else (s.putSessState k 1).put pTDC (TDC.MS_STATE.STOPS k) 0)
  if 2 ≤ s.sessState k then (s1.incSat pTDC (TDC.MS_ARM_IGNORED.COUNT k) arms.length).setSess k { queue := rest } else s

/-- Clearing ENABLE of a session (R178, R182). -/
def State.disableSession (s : State) (k : Nat) : State :=
  (((s.abortSession k).setSess k {}).putSessState k 0).freePlaces 4 k (s.sessionInputs k)

/-! ### Gates (R188 to R192) -/

/-- Open a gate at G for L (R188), on the timescale in force at G (R199). What its input handed out or lost from G on, before the line
event that opens it was delivered, belongs to it. -/
def State.openGate (s : State) (g : Nat) (at_ l : Int) (fixed : Bool) : State :=
  let own := (s.meas.recent.getD (s.get pTDC (TDC.FG_CFG.SRC_TIN g)) []).filter (fun r =>
    decide (at_ ≤ r.st.flat) && decide (r.st.flat < at_ + l) && bitOf (s.get pTDC (TDC.FG_CFG.SENSE g)) (senseBit r.st.rising))
  s.setGate g (s.gate g ++ [{
    g := at_, l := l, steps := s.stepsAt at_, fixed := fixed, stepped := s.stepAfter? at_
    stamps := (own.filterMap (fun r => match r.what with | .out _ => some (r.st.index, r.st.flat) | .lost _ => none)).reverse
    lost := own.any (fun r => r.what == .lost true) }])

/-- Length of a HOST or LINE gate in SU. -/
def State.gateNs (s : State) (g : Nat) : Int := s.get pTDC (TDC.FG_GATE.GATE_NS g) * suNs

/-- Whether a gate is measuring at an instant: the instant lies in one of its spans (R188). -/
def State.gateBusy (s : State) (g : Nat) (u : Int) : Bool := (s.gate g).any (fun w => decide (w.g ≤ u) && decide (u < w.g + w.l))

/-- A stamp reaches a gate (R188): it belongs to the window whose span holds it, before the input became UNRESOLVED (R190). -/
def State.gateStamp (s : State) (st : Stamp) (g : Nat) : State :=
  if bitOf (s.get pTDC (TDC.FG_CFG.SENSE g)) (senseBit st.rising) then
    s.setGate g ((s.gate g).map (fun w =>
      let before := match w.closedAt with | some c => decide (st.flat < c) | none => true
      if before && decide (w.g ≤ st.flat) && decide (st.flat < w.g + w.l) then { w with stamps := (st.index, st.flat) :: w.stamps } else w))
  else s

/-- What the fit of a gate gives (R189): period, deviation, uncertainty and rms, or why there is none. -/
structure GateFit where
  period : Nat := 0
  dev : Int := 0
  sigma : Nat := 0
  bound : Nat := 0xFFFFFFFF
  rms : Nat := 0
  few : Bool := false
  saturated : Bool := false
deriving DecidableEq, Repr

/-- The fit of R189 and the quantities of R190, from stamps in order of time, the nominal frequency and u_y. -/
def gateFit (stamps : List (Nat × Int)) (nominal uy : Nat) : GateFit :=
  match stamps with
  | [] => { few := true }
  | (x0, t0) :: _ =>
    if stamps.length < 3 then { few := true }
    else
      let ss : List (Int × Int) := stamps.map (fun p => (((p.1 : Int) - x0), p.2 - t0))
      let k := ss.getD (min 1024 (ss.length - 1)) (1, 0)
      let p0 := roundEven (k.2 * 2 ^ 32) (max 1 k.1.toNat)
      let xr := ss.map (fun p => (p.1, roundEven (p.2 * 2 ^ 32 - p.1 * p0) (2 ^ 32)))
      let n : Int := xr.length
      let sx := sumI xr (fun p => p.1)
      let sxx := sumI xr (fun p => p.1 * p.1)
      let sr := sumI xr (fun p => p.2)
      let sxr := sumI xr (fun p => p.1 * p.2)
      let srr := sumI xr (fun p => p.2 * p.2)
      let lim : Int := 2 ^ 127
      if [sx, sxx, sr, sxr, srr].any (fun v => decide (lim ≤ v) || decide (v < -lim)) then { saturated := true, bound := 0 }
      else
        let d := n * sxx - sx * sx
        let c := n * sxr - sx * sr
        let bN := p0 * d + c * 2 ^ 32
        if d ≤ 0 ∨ bN ≤ 0 then { saturated := true, bound := 0 }
        else
          let sN := srr * n * d - (sr * d - c * sx) * sr - n * c * sxr
          let sD := n * d * (n - 2)
          let yN := sN.toNat * n.toNat * d.toNat * 2 ^ 64
          let yD := sD.toNat * bN.toNat * bN.toNat
          { period := (roundEven bN d.toNat).toNat
            dev := if nominal = 0 then 0 else roundEven (10 ^ 9 * 65536 * d * 2 ^ 32 * 2 ^ 60 - nominal * bN * 2 ^ 60) (nominal * bN.toNat)
            sigma := min (isqrtUp (ceilDiv (yN * 10 ^ 36) yD)) 0xFFFFFFFF
            bound := if uy = 0xFFFFFFFF then 0xFFFFFFFF else min (uy + isqrtUp (ceilDiv (9 * yN * 10 ^ 30) yD)) 0xFFFFFFFF
            rms := min (isqrtUp (ceilDiv (sN.toNat * 1000000) (sD.toNat * 65536 * 65536))) 0xFFFFFFFF }

/-- Insert a stamp by its crossing count. -/
def insertIdx (p : Nat × Int) : List (Nat × Int) → List (Nat × Int)
  | [] => [p]
  | x :: xs => if p.1 < x.1 then p :: x :: xs else x :: insertIdx p xs

/-- The result of a gate (R189 to R191). -/
def State.finishGate (s : State) (g : Nat) (w : GateWin) : State :=
  let stamps := w.stamps.foldl (fun l p => insertIdx p l) []
  let f := gateFit stamps (s.get pTDC (TDC.FG_NOMINAL.NOMINAL_HZ g)) (s.uy (w.g + w.l + s.clk.stepSum / 2 ^ 32))
  let s1 := s.incWrap pTDC (TDC.FG_RESULTS.COUNT g)
  let lo := packRec [(128, 128, instantBits (w.g + w.steps / 2 ^ 32).toNat), (64, 64, stamps.length), (47, 1, b2n f.saturated), (46, 1, b2n w.lost), (45, 1, b2n (w.stepped.any (fun u => decide (u < w.g + w.l)))),
    (44, 1, b2n f.few), (32, 8, 16 + g), (28, 4, 2), (24, 4, 1), (20, 4, 2)]
  let hi := packRec [(192, 64, f.period), (128, 64, ofSigned 64 f.dev), (96, 32, f.sigma), (64, 32, f.bound), (32, 32, f.rms)]
  let s2 := (s1.putResult (16 + g) (s1.get pTDC (TDC.FG_RESULTS.COUNT g)) [lo, hi]).irq pTDC 2
  let s3 := if f.saturated then s2.err pTDC 1 else s2
  if f.saturated || w.lost || f.few then (s3.incSat pTDC (TDC.FG_FLAGGED.COUNT g)).irq pTDC 3 else s3

/-- The window of a gate whose span has passed, with every stamp in it (R188, R191). -/
def State.gateEnded (s : State) (g : Nat) : Option GateWin :=
  let i := s.get pTDC (TDC.FG_CFG.SRC_TIN g)
  (s.gate g).find? (fun w => decide ((w.g + w.l + 40 * suNs) * fine ≤ s.flat32) && (s.tin i).fifo.all (fun st => decide (w.g + w.l ≤ st.flat)))

def State.gateEndDue (s : State) (g : Nat) : Bool := (s.gateEnded g).isSome

/-- GATE_END (R188, R191). -/
def execGateEnd (g : Nat) (s : State) : Host.Outcome State Fault Refusal :=
  guarded (.gateEnd g) s (fun s =>
    match s.gateEnded g with
    | some w => (s.setGate g ((s.gate g).erase w)).finishGate g w
    | none => s)

/-- Setting ENABLE of a gate whose new settings are in `s` (R188). -/
def State.enableGate (s : State) (g : Nat) : State × Verdict :=
  let kind := s.get pTDC (TDC.FG_CFG.GATE_KIND g)
  let idx := s.get pTDC (TDC.FG_CFG.GATE_INDEX g)
  if s.stage < 2 then refuse s .state
  else if kind = 1 ∧ (8 ≤ idx ∨ 1000 * (suSec : Int) < s.tickPeriod idx) then refuse s .range
  else match s.takePlace (s.get pTDC (TDC.FG_CFG.SRC_TIN g)) 4 (16 + g) with
    | some s1 => accept (s1.setGate g [])
    | none => (s, ⟨.conflict, some (s.resOwner 3 (s.get pTDC (TDC.FG_CFG.SRC_TIN g)))⟩)

/-- Clearing ENABLE of a gate (R188). -/
def State.disableGate (s : State) (g : Nat) : State :=
  (s.setGate g []).freePlace (s.get pTDC (TDC.FG_CFG.SRC_TIN g)) 4 (16 + g)

/-! ### Commands (R179, R182, R188, R200) -/

/-- ARM (R179). -/
def State.cmdArm (s : State) (k : Nat) : State × Verdict :=
  if 16 ≤ k ∨ s.get pTDC (TDC.MS_CFG.ARM_KIND k) ≠ 0 ∨ s.sessState k ≠ 1 then refuse s .state else accept (s.armSession k (s.flat s.now))

/-- ABORT (R182): an AUTO session with a result is armed again; a measuring gate ends without result. -/
def State.cmdAbort (s : State) (k : Nat) : State × Verdict :=
  if k < 16 then
    let s1 := s.abortSession k
    accept (s1.onlyIf (s.sessState k == 3 && s1.isAuto k) (fun s => s.armSession k (s.flat s.now + 1)))
  else accept (s.setGate (k - 16) ((s.gate (k - 16)).filter (fun w => !(decide (w.g ≤ s.flat s.now) && decide (s.flat s.now < w.g + w.l)))))

/-- GATE_START (R188). -/
def State.cmdGateStart (s : State) (k : Nat) : State × Verdict :=
  if k < 16 ∨ !s.flag pTDC (TDC.FG_CFG.ENABLE (k - 16)) ∨ s.get pTDC (TDC.FG_CFG.GATE_KIND (k - 16)) ≠ 0 ∨ s.gateBusy (k - 16) (s.flat s.now) then
    refuse s .state
  else accept (s.openGate (k - 16) (s.flat s.now) (s.gateNs (k - 16)) false)

/-- A write of SESSION_CMD (R200). -/
def State.sessionCmd (s : State) (v : Nat) : State × Verdict :=
  let k := bitsOf v 12 8
  if 23 < k then refuse s .range
  else match bitsOf v 7 0 with
    | 1 => s.cmdArm k
    | 2 => s.cmdAbort k
    | 3 => s.cmdGateStart k
    | _ => refuse s .range

/-- MEAS_ARM (R139, R179, R188), in the slot in which T falls. -/
def execMeasArm (s : State) : Host.Outcome State Fault Refusal :=
  guarded .measArm s (fun s => s.runAction 0x30 (fun d s =>
    let k := d.action.target
    if k < 16 then
      if s.get pTDC (TDC.MS_CFG.ARM_KIND k) = 0 ∧ s.sessState k = 1 then accept (s.armSession k (s.flat d.t)) else refuse s .state
    else if s.flag pTDC (TDC.FG_CFG.ENABLE (k - 16)) ∧ s.get pTDC (TDC.FG_CFG.GATE_KIND (k - 16)) = 0 ∧ !s.gateBusy (k - 16) (s.flat d.t) then
      accept (s.openGate (k - 16) (s.flat d.t) (s.gateNs (k - 16)) true)
    else refuse s .state))

/-- TDC_ENGINE_ECC (R184, R190): the sessions and gates of the masks are marked LOST. -/
def execTdcEngineEcc (sessions gates : Nat) (s : State) : Host.Outcome State Fault Refusal :=
  guarded (.tdcEngineEcc sessions gates) s (fun s => s.inCore (fun s =>
    let s1 := s.err pTDC 0
    { s1 with meas := { s1.meas with
        sessions := s1.meas.sessions.mapIdx (fun k x => if bitOf sessions k ∧ 2 ≤ s.sessState k then { x with lost := true } else x)
        gates := s1.meas.gates.mapIdx (fun g ws => if bitOf gates g then
          ws.map (fun w => if w.g * fine ≤ s.flat32 then { w with lost := true } else w) else ws) } }))

/-- The sum of steps before the anchor with which an event's instant was found: that of its stamp for a timing input, which lies in the FIFO
or was handed out of late, else the present one (R166, R199). -/
def State.eventSteps (s : State) (e : LineEvent) : Int :=
  match e.src with
  | .timingInput i r =>
    (((s.tin i).fifo ++ ((s.meas.recent.getD i []).filter (fun x => match x.what with | .out _ => true | .lost _ => false)).map (·.st)).find?
      (fun st => st.t == (e.t : Int) && st.rising == r)).elim s.clk.stepSum (·.steps)
  | _ => s.clk.stepSum

/-- Whether an event keeps its instant at a step of the timescale: that of a scheduler action, a tick or a Ridge trigger (R11, R274). -/
def sourceFixed : LineSource → Bool
  | .scheduler _ _ => true
  | .ridge _ => true
  | .tick _ => true
  | _ => false

/-- A trigger-line event reaches the sessions and gates that listen to line `n` (R179, R180, R188). -/
def State.lineToMeas (s : State) (n : Nat) (e : LineEvent) : State :=
  let u : Int := e.t - s.eventSteps e / 2 ^ 32
  let cal := match e.src with | .timingInput i _ => s.inBound i | _ => 0
  let s1 := s.forEach ((List.range 16).filter (fun k => s.flag pTDC (TDC.MS_CFG.ENABLE k))) (fun k s =>
    let arms := s.get pTDC (TDC.MS_CFG.ARM_KIND k) == 1 && s.get pTDC (TDC.MS_CFG.ARM_INDEX k) == n
    let starts := s.get pTDC (TDC.MS_CFG.START_KIND k) == 1 && s.get pTDC (TDC.MS_CFG.START_INDEX k) == n
    let s1 := s.onlyIf starts (fun s => s.setSess k ((s.sess k).enqueue true ⟨u, .start e.teb cal (sourceFixed e.src)⟩))
    (s1.onlyIf arms (fun s => (s.setSess k ((s.sess k).enqueue true ⟨u, .arm (sourceFixed e.src)⟩)).replay k u)).sessRun k)
  s1.forEach (List.range 8) (fun g s =>
    if s.flag pTDC (TDC.FG_CFG.ENABLE g) ∧ s.get pTDC (TDC.FG_CFG.GATE_KIND g) = 2 ∧ s.get pTDC (TDC.FG_CFG.GATE_INDEX g) = n ∧ !s.gateBusy g u then
      s.openGate g u (s.gateNs g) (sourceFixed e.src)
    else s)

/-- A tick reaches the sessions and gates that use its generator (R179, R188). -/
def State.tickToMeas (s : State) (n : Nat) (t : Nat) : State :=
  let u := s.flat t
  let s1 := s.forEach (List.range 16) (fun k s =>
    if s.flag pTDC (TDC.MS_CFG.ENABLE k) ∧ s.get pTDC (TDC.MS_CFG.ARM_KIND k) = 2 ∧ s.get pTDC (TDC.MS_CFG.ARM_INDEX k) = n then
      s.toSession k ⟨u, .arm true⟩
    else s)
  s1.forEach (List.range 8) (fun g s =>
    if s.flag pTDC (TDC.FG_CFG.ENABLE g) ∧ s.get pTDC (TDC.FG_CFG.GATE_KIND g) = 1 ∧ s.get pTDC (TDC.FG_CFG.GATE_INDEX g) = n then
      s.openGate g u (s.tickPeriod n) true
    else s)

/-- A fixed event that lies ahead of the timescale, when the timescale steps by `d` SU. -/
def SessEvent.step (e : SessEvent) (flat32 d : Int) : SessEvent :=
  match e.what with
  | .arm true => if flat32 < e.at_ * fine then { e with at_ := e.at_ - d } else e
  | .start _ _ true => if flat32 < e.at_ * fine then { e with at_ := e.at_ - d } else e
  | _ => e

/-- A step of the timescale by `d` SU (R199), already in the sum of steps: it is noted for the sessions and gates under way, which carry
STEPPED if it comes no later than their end; a gate or arm not yet begun, at an instant of the timescale, keeps it. -/
def State.measStep (s : State) (d : Int) : State :=
  let u := s.flat32 / 2 ^ 32
  { s with meas := { s.meas with
      steps := (u, s.clk.stepSum - d * fine) :: s.meas.steps.take 15
      sessions := s.meas.sessions.mapIdx (fun k x => { x with
        stepped := if 2 ≤ s.sessState k then some (x.stepped.getD u) else x.stepped
        queue := (x.queue.map (fun e => e.step s.flat32 d)).foldl (fun l e => insertEvent e l) [] })
      gates := s.meas.gates.map (fun ws => ws.map (fun w =>
        if w.g * fine ≤ s.flat32 then { w with stepped := some (w.stepped.getD u) }
        else { w with g := if w.fixed then w.g - d else w.g, steps := s.clk.stepSum })) } }

/-! ### Streams (R193 to R197) -/

/-- Instant of a BASE written now: the whole nanosecond at or before now − 8 192 ns (R195). -/
def State.baseInstant (s : State) : Int := (s.now32 / (suNs * fine) - 8192) * suNs

/-- First word of a stream record (R194). -/
def streamWord (kind input sense low : Nat) : Nat := packRec [(60, 4, kind), (56, 4, input), (54, 2, sense), (0, 54, low)]

/-- Append a word to a stream's batch. -/
def State.streamAppend (s : State) (k w : Nat) (stamp : Bool) (second : Bool := false) : State :=
  s.setStream k { s.stream k with batch := (s.stream k).batch ++ [⟨w, stamp, s.clk.slot, second⟩] }

/-- The records that words of a stream make: a BASE is one of two words (R194). -/
def streamRecords (l : List StreamWord) : Nat := l.countP (fun w => !w.second)

/-- Elements of the stream's ring that stay free behind what is formed. -/
def State.streamRoom (s : State) (k r : Nat) : Nat := s.ringRoom r - (s.stream k).batch.length

/-- Form a BASE with a reason (R195), which reports the anchors up to the number `gen`. -/
def State.streamBase (s : State) (k reason gen : Nat) : State :=
  let b := s.baseInstant
  let s1 := s.setStream k { s.stream k with base := b, baseSteps := s.clk.stepSum, gen := gen }
  (s1.streamAppend k (streamWord 2 k reason (b.toNat % suSec / suNs * 65536)) false).streamAppend k (b.toNat / suSec) false true

/-- A stream begins with its ring (R195): what its input lost before is not the new stream's to report (R196). -/
def State.streamStart (s : State) (k : Nat) : State :=
  let t := s.tin k
  (((s.setStream k { live := true }).setTin k { t with lostBefore := 0, fifo := t.fifo.map (fun st => { st with lostBefore := 0 }) }).putFlag
    pTDC (TDC.ST_STATE.SUSPENDED k) false).streamBase k 0 s.clk.gen

/-- Count stamps a stream lost (R196). -/
def State.streamLose (s : State) (k n : Nat) : State := s.incSat pTDC (TDC.ST_LOST.COUNT k) n

/-- Suspend a stream (R196). -/
def State.streamSuspend (s : State) (k : Nat) : State := (s.putFlag pTDC (TDC.ST_STATE.SUSPENDED k) true).irq pTDC 5

/-- Write a record other than GAP and BASE, if at least 3 elements stay free after it; else suspend (R196). -/
def State.streamRecord (s : State) (k r w : Nat) (stamp : Bool) : State × Bool :=
  if 4 ≤ s.streamRoom k r then (s.streamAppend k w stamp, true) else (s.streamSuspend k, false)

/-- Form a BASE in a ring that has room for its two elements; a stream without room is suspended rather than overwrite what the host has not
consumed (R54, R198). -/
def State.streamBaseIn (s : State) (k r reason gen : Nat) : State × Bool :=
  if 2 ≤ s.streamRoom k r then (s.streamBase k reason gen, true) else (s.streamSuspend k, false)

/-- OFFSET of a stamp: from the last BASE, on the timescale of that BASE (R194). -/
def State.streamOffset (s : State) (k : Nat) (st : Stamp) : Int := st.flat + (s.stream k).baseSteps / 2 ^ 32 - (s.stream k).base

/-- The records of one stamp while a ring is stopped: up to 64 are held (R53, R196). -/
def State.streamHold (s : State) (k r : Nat) (st : Stamp) : State :=
  let hold (s : State) (w n : Nat) (stamp : Bool) : State :=
    if streamRecords (s.stream k).batch < 64 then (if stamp then s.streamAppend k w true else (s.streamAppend k w false).streamLose k n)
    else (s.incSat pHOSTQ (HOSTQ.RING_LOST.LOST r)).streamLose k n
  let s1 := if st.lostBefore = 0 then s else hold s (streamWord 3 k 0 (min st.lostBefore (2 ^ 54 - 1))) st.lostBefore false
  hold s1 (streamWord 1 k (if st.rising then 1 else 2) (ofSigned 54 (s.streamOffset k st))) 1 true

/-- A stamp handed to a stream (R194 to R196). -/
def State.streamStamp (s : State) (k r : Nat) (st : Stamp) : State :=
  let x := s.stream k
  let lost := st.lostBefore + 1
  if s.flag pTDC (TDC.ST_STATE.SUSPENDED k) then (s.setStream k { x with lost := x.lost + lost }).streamLose k lost
  else if s.ringStopped r then s.streamHold k r st
  else
    let s1 := if x.gen < st.gen then s.streamBaseIn k r 3 st.gen else (s, true)
    let a := if !s1.2 ∨ st.lostBefore = 0 then s1 else
      let b := s1.1.streamRecord k r (streamWord 3 k 0 (min st.lostBefore (2 ^ 54 - 1))) false
      (if b.2 then b.1.streamLose k st.lostBefore else b.1, b.2)
    let b := if a.2 then a.1.streamRecord k r (streamWord 1 k (if st.rising then 1 else 2) (ofSigned 54 (a.1.streamOffset k st))) true else a
    if b.2 then b.1
    else
      let n := if a.2 then 1 else lost
      (b.1.setStream k { b.1.stream k with lost := (b.1.stream k).lost + n }).streamLose k n

/-- Whether the next PERIODIC BASE is due: at the next SCLK edge its instant would lie more than 2^30 ns after the last
(R195). -/
def State.periodicDue (s : State) (k : Nat) : Bool :=
  match s.ringFor 4 k with
  | some r => (s.stream k).live && !s.ringStopped r && !s.flag pTDC (TDC.ST_STATE.SUSPENDED k) &&
      decide ((s.stream k).base + 2 ^ 30 * suNs < s.baseInstant + suSlot)
  | none => false

/-- STREAM_PERIODIC_BASE (R195). -/
def execStreamPeriodicBase (k : Nat) (s : State) : Host.Outcome State Fault Refusal :=
  guarded (.streamPeriodicBase k) s (fun s => match s.ringFor 4 k with
    | some r => if s.periodicDue k then (s.streamBaseIn k r 1 (s.stream k).gen).1 else s
    | none => s)

/-- Write a batch, up to the next 512-byte boundary of the ring, followed by one writeback (R197). -/
def State.streamWrite (s : State) (k r : Nat) : State :=
  let x := s.stream k
  let n := min x.batch.length (64 - s.get pHOSTQ (HOSTQ.DEV_IDX.DEV_IDX r) % 64)
  let ws := x.batch.take n
  let s1 := s.setStream k { x with batch := x.batch.drop n }
  let s2 := (s1.forEach ws (fun w s => s.ringPut r w.word)).ringWriteback r
  let s3 := s2.incWrap pTDC (TDC.ST_STAMPS.COUNT k) (ws.filter (·.stamp)).length
  let y := s3.ring r
  (s3.setRing r { y with pend := y.pend + (n - 1), pendSince := if y.pend = 0 then s.clk.slot else y.pendSince }).ringNotify r

/-- STREAM_BATCH_WRITE (R197). -/
def execStreamBatchWrite (k : Nat) (s : State) : Host.Outcome State Fault Refusal :=
  guarded (.streamBatchWrite k) s (fun s =>
    match s.ringFor 4 k with
    | some r => if s.ringStopped r || (s.stream k).batch.isEmpty then s else s.streamWrite k r
    | none => s)

/-- Whether a suspended stream may resume: max(16, 2^n / 8) elements are free (R196). -/
def State.resumeStreamDue (s : State) (k : Nat) : Bool :=
  match s.ringFor 4 k with
  | some r => s.flag pTDC (TDC.ST_STATE.SUSPENDED k) && !s.ringStopped r &&
      decide (max 16 (2 ^ s.get pHOSTQ (HOSTQ.RING_CFG.LOG2_ENTRIES r) / 8) ≤ s.streamRoom k r)
  | none => false

/-- STREAM_RESUME (R196): a GAP with the count, and a BASE AFTER_GAP. -/
def execStreamResume (k : Nat) (s : State) : Host.Outcome State Fault Refusal :=
  guarded (.streamResume k) s (fun s =>
    if s.resumeStreamDue k then
      let x := s.stream k
      let s1 := ((s.setStream k { x with lost := 0 }).putFlag pTDC (TDC.ST_STATE.SUSPENDED k) false).incWrap pTDC (TDC.ST_GAPS.COUNT k)
      (s1.streamAppend k (streamWord 4 k 0 (min x.lost (2 ^ 54 - 1))) false).streamBase k 2 x.gen
    else s)

end Sys2Proof.Machine
end

