-- ==== Sys2Proof/Machine/Servo.lean ====
section
/-! DEFINITION. The crystal, the composition of y, the basis of the bound, and the servo: loop, slews, holdover and
adoption (chapter 9, R205 to R220; chapter 10, R237 to R243). Where a sum is not a whole unit of 2^-60 its last unit is
open (log 5). -/

namespace Sys2Proof.Machine

/-- `num / den` as a whole number whose last unit is open when it does not divide (log 5); `den` positive. -/
def State.openUnit (s : State) (num : Int) (den : Nat) : Int × State :=
  if num % den = 0 then (num / den, s) else (num / den + (s.free.1 % 2 : Nat), s.free.2)

/-- pi as a fraction of 10^39. -/
def piNum : Int := 3141592653589793238462643383279502884197
def piDen : Nat := 10 ^ 39

/-- `k` binary digits of the logarithm to base 2 of a mantissa `m` / 2^128 between 1 and 2. -/
def log2Digits : Nat → Nat → Nat
  | 0, _ => 0
  | k + 1, m =>
    let q := m * m / 2 ^ 128
    if 2 ^ 129 ≤ q then 2 ^ k + log2Digits k (q / 2) else log2Digits k q

/-- ln(num / den) in units of 2^-96, for a number not below 1. -/
def lnUp (num den : Nat) : Nat :=
  let k := Nat.log2 (num / den)
  let m := num * 2 ^ 128 / (den * 2 ^ k)
  (k * 2 ^ 96 + log2Digits 96 m) * 6931471805599453094172321214581765680755 / 10 ^ 40

/-- ln(num / den) in units of 2^-96. -/
def lnFix (num den : Nat) : Int := if den ≤ num then (lnUp num den : Int) else -(lnUp den num : Int)

/-! ### Events of the timescale (R237, R242, R243) -/

/-- A record of the timescale's class 0x04 (R243). -/
def State.tscRecord (s : State) (kind : Nat) (t : Int) (data elements : Nat) : Nat :=
  packRec [(128, 128, instantBits t.toNat), (96, 32, s.tebTs t), (64, 32, data), (32, 32, s.uy t), (28, 4, elements), (24, 4, 4), (16, 8, kind)]

/-- Write a one-element record at the present slot. -/
def State.tscEvent (s : State) (kind data : Nat) : State := s.event 4 [s.tscRecord kind s.now data 1]

/-- The class of a reference: TIME, or FREQUENCY (the table of R208). -/
def State.timeClass (s : State) (k : Nat) : Bool :=
  match s.get pREFSEL (REFSEL.REF_CFG.KIND k) with
  | 1 => match s.tebWide s.now with | some b => decide (b < 400 * 10 ^ 9) | none => false
  | 3 => true
  | 4 => true
  | _ => false

/-- Whether the conditions of Stage 4 hold (R242). -/
def State.stage4 (s : State) : Bool :=
  s.get pSERVO SERVO.STATUS.STATE == 2 && s.basis == 2 && s.flag pTSC TSC.STATUS.BELOW_THRESH &&
    s.flag pREFSEL REFSEL.STATUS.VALID && s.timeClass s.selected

/-- Enter a stage (R316, R318, R324): the interrupt names the direction, STAGE_AT_k holds milliseconds after V. -/
def State.enterStage (s : State) (k : Nat) : State :=
  if s.stage = k then s
  else
    let s1 := s.put pDEV DEV.STATUS.STAGE k
    let s2 := if k = 0 then s1 else s1.put pDEV (DEV.STAGE_AT.MS (k - 1)) (min (s.clk.slot / 200000) 0xFFFFFFFF)
    s2.irq pDEV (if s.stage < k then 0 else 1)

/-- Move between Stage 3 and Stage 4 (R242). -/
def State.refreshStage (s : State) : State :=
  if s.stage < 3 then s
  else s.enterStage (if s.stage4 then 4 else 3)

/-- Change BASIS: the basis before a slew is remembered, the interrupt, the record and TEB_LOST (R237, R243, R244). -/
def State.setBasis (s : State) (b : Nat) : State :=
  if s.basis = b then s
  else
    let s1 := if b = 3 then { s with teb := { s.teb with prevBasis := s.basis } } else s
    let s2 := (s1.put pTSC TSC.STATUS.BASIS b).irq pTSC 3
    let s3 := if b = 0 ∧ 3 ≤ s.stage then s2.err pTSC 0 else s2
    (s3.tscEvent 2 b).refreshStage

/-! ### The composition of y (R206, R214) -/

/-- Form y from its four terms; it takes effect at the next slot boundary (R10). In MANUAL no term is added. -/
def State.formY (s : State) : State :=
  if s.get pSERVO SERVO.SERVO_CFG.MODE = 1 then s
  else
    let sum := s.getI pSERVO SERVO.Y_XO.Y + s.getI pSERVO SERVO.Y_SRV.Y + s.getI pSERVO SERVO.Y_SLEW.Y
    let y := max (-(2 ^ 47 : Int)) (min (2 ^ 47) sum)
    let s1 := s.putFlag pSERVO SERVO.STATUS.Y_CLAMPED (decide (sum ≠ y))
    let s2 := if sum ≠ y then s1.err pSERVO 1 else s1
    { s2 with clk := { s2.clk with yNext := some (s.clk.slot, y) } }

/-- Renew y_age of the model (R206); before the model is valid it is 0 (R207). -/
def State.yAge (s : State) : Int × State :=
  if !s.flag pXO XO.STATUS.MODEL_VALID then (0, s)
  else
    let t : Int := s.now - s.getInst pXO XO.AGE_T0.INSTANT
    let one : Int := 65536 * 10 ^ 21
    let x := one + (s.get pXO XO.AGE_B.B : Int) * t
    if x ≤ 0 then (toSigned 48 s.free.1, s.free.2)
    else s.openUnit (s.getI pXO XO.AGE_A.A * lnFix x.toNat one.toNat * 10 ^ 6 * suSec + s.getI pXO XO.AGE_C.C * t * 2 ^ 96) (2 ^ 36 * 10 ^ 21 * suSec)

/-- y_tc at an oven temperature in units of 2^-8 degrees (R206). -/
def State.yTc (s : State) (temp : Int) : Int × State :=
  let d := temp - 32 * s.getI pXO XO.OVEN_SETPOINT.TEMP
  s.openUnit ((s.getI pXO XO.TC_K1.K * d * 65536 * 10 ^ 6 + s.getI pXO XO.TC_K2.K * d * d * 256 * 10 ^ 3 + s.getI pXO XO.TC_K3.K * d * d * d) * 2 ^ 36)
    (10 ^ 21)

/-- Put y_tc and y_age in the XO and SERVO pages. -/
def State.putXo (s : State) (tc age : Int) : State :=
  ((s.putI pXO XO.Y_TC.Y tc).putI pXO XO.Y_AGE.Y age).putI pSERVO SERVO.Y_XO.Y (tc + age)

/-- The oven sensor's band for STABLE: within 0.05 degrees of the setpoint (R205). -/
def State.ovenInBand (s : State) (temp : Int) : Bool := decide ((temp - 32 * s.getI pXO XO.OVEN_SETPOINT.TEMP).natAbs * 100 ≤ 5 * 256)

/-- One renewal of a temperature integral: a whole second adds its term (R219). -/
def TempSum.tick (x : TempSum) (uTc : Nat) (temp : Int) : TempSum :=
  { x with ticks := x.ticks + 1, sum := if (x.ticks + 1) % 10 = 0 then x.sum + min (uTc * (temp - x.start).natAbs) 768000000 else x.sum }

/-- What follows the die temperature: the spares, the lane bounds and the input bounds (R71, R73, R83, R170). -/
def State.dieMoved (s : State) : State :=
  (s.forEach (List.range 12) (fun q s => (s.refreshSpare q).refreshBounds q)).forEach (List.range 16) (fun i s => s.refreshInput i)

/-- One renewal while LOCKED: the hour under way, whose mean is kept at its end and written into the settings store (R207, R336). -/
def State.fitTick (s : State) : State :=
  let x := s.xo
  let sum := x.hour + s.getI pXO XO.Y_AGE.Y + s.getI pSERVO SERVO.Y_SRV.Y
  let n := x.fitTicks + 1
  if n % 36000 ≠ 0 then { s with xo := { x with lockTicks := x.lockTicks + 1, fitTicks := n, hour := sum } }
  else
    let means := roundEven sum 36000 :: x.means
    let k := s.flash.settings
    { s with
      xo := { x with lockTicks := x.lockTicks + 1, fitTicks := n, hour := 0, means := means }
      flash := { s.flash with settings := if s.flag pFLASH FLASH.STATUS.REDUCED then k else { k with means := means } } }

/-- The hourly means in the settings store come back; what the hour under way had is lost (R336, R343). -/
def State.readMeans (s : State) : State :=
  let l := s.flash.settings.means
  { s with xo := { s.xo with means := l, hour := 0, fitTicks := 36000 * l.length, lastFit := min s.xo.lastFit (36000 * l.length) } }

/-- The renewal of the XO every 100 ms (R206), with the count of the time in LOCKED (R207), the temperature integrals of holdover,
integrated per second (R219), and the die temperature. -/
def State.xoUpdate (s : State) (m : XoMeasure) : State :=
  let s0 := ((s.putI pXO XO.OVEN_TEMP.TEMP m.temp).put pXO XO.HEATER.MW m.heater).put pXO XO.WARM_S.S (min (s.clk.slot / 200000000) 0xFFFFFFFF)
  let tc := s0.yTc m.temp
  let age := tc.2.yAge
  let s1 := age.2.putXo tc.1 age.1
  let st := s.get pSERVO SERVO.STATUS.STATE
  let x := s1.xo
  let since := if s.ovenInBand m.temp then some (x.bandSince.getD s.clk.slot) else none
  let s2 := { s1 with xo := { x with bandSince := since } }.onlyIf (st == 2) State.fitTick
  let s3 := s2.put pXO XO.LOCK_DAYS.DAYS (s2.xo.lockTicks / 864000)
  let u := s3.get pXO XO.U_TC.U
  let s4 : State := { s3 with
    servo := { s3.servo with drift := s3.servo.drift.tick u m.temp }
    refs := s3.refs.map (fun r => { r with drift := r.drift.tick u m.temp })
    teb := { s3.teb with holdTemp := s3.teb.holdTemp.tick u m.temp } }
  (s4.onlyIf (s4.dieTemp != m.die) (fun s => (s.putI pCAL CAL.DIE_TEMP.TEMP m.die).dieMoved)).formY

/-- XO_UPDATE (R206). -/
def execXoUpdate (m : XoMeasure) (s : State) : Host.Outcome State Fault Refusal :=
  guarded (.xoUpdate m) s (fun s => s.inCore (fun s => s.xoUpdate m))

/-- OVEN_STABLE (R205): 60 s in the band while warming. -/
def State.ovenStableDue (s : State) : Bool :=
  s.get pXO XO.STATUS.OVEN == 1 && (match s.xo.bandSince with | some b => decide (b + 12000000000 ≤ s.clk.slot) | none => false)

def execOvenStable (s : State) : Host.Outcome State Fault Refusal :=
  guarded .ovenStable s (fun s =>
    if s.ovenStableDue then
      let s1 := s.put pXO XO.STATUS.OVEN 2
      { s1 with teb := { s1.teb with stableAt := some (s1.teb.stableAt.getD s.now) } }.irq pXO 0
    else s)

/-- Whether the oven has not become STABLE within 15 min (R205). -/
def State.ovenLate (s : State) : Bool := decide (s.get pXO XO.STATUS.OVEN < 2) && decide (180000000000 ≤ s.clk.slot)

/-- OVEN_FAULT (R205): not STABLE within 15 min, or the sensor fails; while in HOLDOVER the bound becomes unknown (R237). -/
def execOvenFault (s : State) : Host.Outcome State Fault Refusal :=
  guarded .ovenFault s (fun s => s.inCore (fun s =>
    let s1 := (s.put pXO XO.STATUS.OVEN 3).err pXO 0
    if s.basis = 4 then s1.setBasis 0 else s1))

/-- The ageing fit takes effect (R207): only while LOCKED with FIT_ENABLE, once an hour, over at least 24 h of means; the
integrator changes by the opposite of the change of y_age. -/
def State.fitDue (s : State) : Bool :=
  s.get pSERVO SERVO.STATUS.STATE == 2 && s.flag pXO XO.FIT_CTL.FIT_ENABLE && decide (864000 ≤ s.xo.fitTicks) &&
    decide (s.xo.lastFit + 36000 ≤ s.xo.fitTicks)

def State.ageingFit (s : State) (f : AgeFit) : State :=
  let old := s.getI pXO XO.Y_AGE.Y
  let d := max 1 (s.get pXO XO.LOCK_DAYS.DAYS)
  let floor := if 30 ≤ s.get pXO XO.LOCK_DAYS.DAYS then 3472 else ceilDiv (3472 * 30) d
  let s1 := ((((s.putInst pXO XO.AGE_T0.INSTANT f.t0).putI pXO XO.AGE_A.A f.a).put pXO XO.AGE_B.B f.b).putI pXO XO.AGE_C.C f.c).put pXO XO.U_A.U
    (max (3 * f.stdErr) floor)
  let s2 := (s1.putFlag pXO XO.STATUS.MODEL_VALID true).irq pXO 1
  let age := s2.yAge
  let s3 := age.2.putXo (s.getI pXO XO.Y_TC.Y) age.1
  let s4 := { s3 with
    xo := { s3.xo with lastFit := s3.xo.fitTicks }
    servo := { s3.servo with integ := s3.servo.integ - (age.1 - old) * 2 ^ 32 } }
  (s4.putI pSERVO SERVO.Y_SRV.Y (s4.getI pSERVO SERVO.Y_SRV.Y - (age.1 - old))).formY

/-- AGEING_FIT (R207). -/
def execAgeingFit (f : AgeFit) (s : State) : Host.Outcome State Fault Refusal :=
  guarded (.ageingFit f) s (fun s => if s.fitDue then s.ageingFit f else s)

/-- FIT_RESET (R234): the fit history and the model go. -/
def State.fitReset (s : State) : State :=
  let s1 := (((s.putFlag pXO XO.STATUS.MODEL_VALID false).putI pXO XO.AGE_A.A 0).put pXO XO.AGE_B.B 0).putI pXO XO.AGE_C.C 0
  { (s1.put pXO XO.U_A.U 104160) with
    xo := { s1.xo with fitTicks := 0, lastFit := 0, hour := 0, means := [] }
    flash := { s1.flash with settings := { s1.flash.settings with means := [] } } }

/-! ### Servo states and slews (R214, R217) -/

def State.servoState (s : State) : Nat := s.get pSERVO SERVO.STATUS.STATE

/-- Change STATE with its interrupt (R232). -/
def State.setServoState (s : State) (st : Nat) : State :=
  if s.servoState = st then s else ((s.put pSERVO SERVO.STATUS.STATE st).irq pSERVO 0).refreshStage

/-- The slews made up to the present slot, in SU. -/
def State.slewMade (s : State) : Int :=
  roundEven (s.servo.slewSum32 + roundEven (s.servo.slewEff * ((s.clk.slot : Int) - s.servo.slewSlot) * suSlot) (2 ^ 28)) (2 ^ 32)

/-- Stop a slew without its interrupt: a step, holdover or a mode cancels it (R217, R230). -/
def State.cancelSlew (s : State) : State :=
  { (s.putFlag pSERVO SERVO.STATUS.SLEWING false).putI pSERVO SERVO.Y_SLEW.Y 0 with servo := { s.servo with slewLeft32 := 0 } }

/-- Start a slew of `th` SU at SLEW_MAX (R217). -/
def State.startSlew (s : State) (th : Int) : State :=
  let u := s.openUnit ((s.get pSERVO SERVO.SLEW_MAX.PPB : Int) * 2 ^ 60) (10 ^ 9)
  let s1 := (u.2.putFlag pSERVO SERVO.STATUS.SLEWING true).putI pSERVO SERVO.Y_SLEW.Y (th.sign * u.1)
  { s1 with servo := { s1.servo with slewLeft32 := th * fine, slewSlot := s.clk.slot, slewEff := 0,
                                     slewSum32 := s.slewMade * fine } }

/-! ### Terms of the bound under REFERENCE (R238) -/

/-- The least-squares line of some points: number, D, and the numerators of slope (over D) and of n times the squared
residuals (over D). -/
def lineFit (ps : List (Int × Int)) : VisitFit :=
  let n : Int := ps.length
  let sx := sumI ps (·.1)
  let sy := sumI ps (·.2)
  let d := n * sumI ps (fun p => p.1 * p.1) - sx * sx
  let k := n * sumI ps (fun p => p.1 * p.2) - sx * sy
  ⟨n, d, k, (n * sumI ps (fun p => p.2 * p.2) - sy * sy) * d - k * k⟩

/-- Three times the standard error of a fitted slope, in 10^-15, rounded up; unknown below three points. -/
def slopeError (f : VisitFit) : Nat :=
  if f.n ≤ 2 ∨ f.d ≤ 0 then tebUnknown
  else min (isqrtUp (ceilDiv (9 * 10 ^ 30 * f.residN.toNat) (f.d.toNat * f.d.toNat * (f.n - 2).toNat))) tebUnknown

def State.ref (s : State) (k : Nat) : RefSt := s.refs.getD k {}
def State.setRef (s : State) (k : Nat) (x : RefSt) : State := { s with refs := s.refs.set k x }

/-- The observations of the last HOLD_AVG_S seconds, at least 16 of them (R238). -/
def State.recentObs (s : State) (k : Nat) : List Obs :=
  match (s.ref k).hist with
  | [] => []
  | o :: rest =>
    let w := (o :: rest).filter (fun x => decide (o.at_ - s.get pSERVO SERVO.HOLD_AVG.S * suSec ≤ x.at_))
    if w.length < 16 then (o :: rest).take 16 else w

/-- u_y of BASIS REFERENCE (R238). -/
def State.uyOfRef (s : State) (k : Nat) : Nat :=
  let w := s.recentObs k
  if w.length < 16 then tebUnknown
  else max (s.get pTSC TSC.U_Y_FLOOR.U) (slopeError (lineFit (w.map (fun o => (o.at_, o.theta)))))

/-- PHASE_RMS of 16 errors in ps, rounded up. -/
def rmsPs (es : List Int) : Nat :=
  min (isqrtUp (ceilDiv ((sumI es (fun e => e * e)).toNat * 10 ^ 6) (max 1 es.length * 65536 * 65536))) tebUnknown

/-- SERVO_TERM (R238). -/
def State.servoTerm (s : State) : Nat :=
  let es := s.servo.errs
  if es.length < 16 then min (psOfSu (3 * s.servo.maxErr)) tebUnknown
  else tebAdd (ceilDiv ((sumI es (fun e => e)).natAbs * 1000) (es.length * suNs)) (min (3 * rmsPs es) tebUnknown)

/-- Compose the bound from the reference used (R237, R239): BASIS REFERENCE, with u_free until 16 observations have been
used since adoption (R319). -/
def State.composeRef (s : State) (k : Nat) : State :=
  let t := s.servo.lastUsed.getD s.now
  let u := if s.servo.errs.length < 16 then s.uFree else s.uyOfRef k
  let s1 := (s.put pTSC TSC.REF_TERM.PS s.servo.lastBound).put pTSC TSC.SERVO_TERM.PS s.servoTerm
  ({ s1 with
    teb := { s1.teb with uyRef := u, tObs := t, tTime := t, stepAdd := 0 }
    servo := { s1.servo with timeSeen := true } }.put pTSC TSC.U_Y.U (min u tebUnknown)).setBasis 2

/-! ### Holdover (R219) -/

/-- Three times the standard error of the mean of some values of y_srv, in 10^-15 rounded up; below two values it is open
(log 5). -/
def State.meanError (s : State) (vs : List Int) : Nat × State :=
  let n := vs.length
  if n < 2 then (s.free.1 % 2 ^ 32, s.free.2)
  else
    let sum := sumI vs (fun v => v)
    let v := (n * sumI vs (fun v => v * v) - sum * sum).toNat
    (min (isqrtUp (ceilDiv (9 * 10 ^ 30 * v) (n * n * (n - 1) * 2 ^ 120))) tebUnknown, s)

/-- Put HOLD_TEB0 (R219, R220, R239): a bound taken over at an instant, without the path term, which stays a term of its own, and with what a
STEP had added. -/
def State.putHold0 (s : State) (b : Option Nat) : State :=
  { s.put pSERVO SERVO.HOLD_TEB0.PS (satTeb b) with teb := { s.teb with hold0 := b, stepAdd := 0 } }

/-- Enter HOLDOVER (R219, R217, R239); `byMode` where MODE = HOLD forces it. With no observation used yet HOLD_ENTRY is the present instant, and
the temperature counts from there (log 94). -/
def State.enterHoldover (s : State) (byMode : Bool) : State :=
  let entry := s.servo.lastUsed.getD s.now
  let vs := (s.servo.srvHist.filter (fun v => decide (s.clk.slot ≤ v.1 + s.get pSERVO SERVO.HOLD_AVG.S * 200000000))).map (·.2)
  let rest := if s.flag pSERVO SERVO.STATUS.SLEWING then psOfSu s.slewLeft.natAbs else 0
  let m := if vs.isEmpty then (s.getI pSERVO SERVO.Y_SRV.Y, s) else s.openUnit (sumI vs (fun v => v)) vs.length
  let e := m.2.meanError vs
  let s1 := ((((e.2.cancelSlew.putInst pSERVO SERVO.HOLD_ENTRY.INSTANT entry).put pSERVO SERVO.HOLD_U_Y.U_Y (tebAdd (s.uy entry) e.1)).putHold0
    ((s.tebWith 0 entry).map (· + rest))).putI pSERVO SERVO.Y_SRV.Y m.1).putFlag pSERVO SERVO.STATUS.FREQ_ONLY false
  let s2 := { s1.putFlag pSERVO SERVO.STATUS.STEP_PROPOSED false with
    servo := { s1.servo with integ := m.1 * 2 ^ 32, adopted := none, freqBase := none }
    teb := { s1.teb with holdTemp := if s.servo.lastUsed.isNone then { start := s.getI pXO XO.OVEN_TEMP.TEMP } else s.servo.drift } }
  let s3 := (s2.setServoState 3).onlyIf (!byMode) (fun s => s.err pSERVO 0)
  (s3.setBasis (if s.get pXO XO.STATUS.OVEN = 3 then 0 else 4)).formY

/-! ### Adoption (R213, R216, R217, R220) -/

/-- A reference is adopted: the error statistics start again and the servo acquires (R214, R238). -/
def State.adoptBase (s : State) (k : Nat) (o : Option Obs) : State :=
  let s1 := { (s.putFlag pSERVO SERVO.STATUS.STEP_PROPOSED false).putFlag pSERVO SERVO.STATUS.FREQ_ONLY false with
    servo := { s.servo with
      adopted := some k, errs := [], maxErr := 0, freqBase := none
      lastUsed := match o with | some o => some o.at_ | none => s.servo.lastUsed
      lastBound := match o with | some o => o.teb | none => s.servo.lastBound
      drift := if o.isSome then (s.ref k).drift else s.servo.drift } }
  (s1.put pSERVO SERVO.PHASE_RMS.PS tebUnknown).setServoState 1

/-- An adoption during a slew leaves the bound what the slew had left to go, with its b_k: an adoption lowers nothing (R239). -/
def State.keepFloor (s : State) : State :=
  let b := if s.basis = 3 then max s.teb.floor (psOfSu s.slewLeft.natAbs + s.teb.bK) else 0
  { s with teb := { s.teb with floor := b } }

/-- Adopt a TIME reference and slew its offset away (R213, R216): BASIS SLEWING until the slew ends. -/
def State.adoptSlew (s : State) (k : Nat) (th : Int) (b : Nat) : State :=
  let s1 := (s.keepFloor.cancelSlew.adoptBase k (s.ref k).hist.head?).startSlew th
  ({ s1 with teb := { s1.teb with bK := b } }.setBasis 3).formY

/-- Adopt a FREQUENCY reference (R209, R216, R220): a TIN_FREQ one with origin s_0 at its next stamp; of a TIN_PPS one only changes of
its offset from here on count. -/
def State.adoptFreq (s : State) (k : Nat) : State :=
  let s1 := s.keepFloor.cancelSlew.adoptBase k none
  let base := if s.get pREFSEL (REFSEL.REF_CFG.KIND k) = 1 then (s.ref k).hist.head?.map (·.theta) else none
  let s2 := s1.setRef k { s1.ref k with newOrigin := true }
  { s2 with servo := { s2.servo with freqBase := base } }.formY

/-- Whether the adopted reference gives time: TIME class, and not adopted for its frequency alone (R209). -/
def State.givesTime (s : State) (k : Nat) : Bool := s.timeClass k && s.servo.freqBase.isNone

/-- Adopt a reference after the step that removes its offset (R213): the bound is composed from its observation (R239). -/
def State.adoptStepped (s : State) (k : Nat) : State := ((s.adoptBase k (s.ref k).hist.head?).composeRef k).formY

/-- Ask for a step at the next slot boundary (R11, R218). -/
def State.askStep (s : State) (d : Int) (adopts : Option Nat) : State :=
  { s with clk := { s.clk with stepNext := some ⟨s.clk.slot, d, adopts⟩ } }

/-- LOCKED once the slew is done and the rms over 16 observations is small (R214); on a FREQUENCY reference time holds over
from the last TIME observation (R220, R239). -/
def State.lockCheck (s : State) (k : Nat) : State :=
  if s.servoState = 1 ∧ !s.flag pSERVO SERVO.STATUS.SLEWING ∧ 16 ≤ s.servo.errs.length ∧
      rmsPs s.servo.errs ≤ s.get pSERVO SERVO.LOCK_THRESH.PS then
    if s.givesTime k then s.setServoState 2
    else
      let t := if s.servo.timeSeen then s.teb.tTime else s.now
      let s1 := (s.putHold0 (s.tebWith 0 t)).putFlag pSERVO SERVO.STATUS.FREQ_ONLY true
      ({ s1 with teb := { s1.teb with
        tTime := t, freqRef := k, freqUnc := s.get pREFSEL (REFSEL.REF_FREQ_UNC.FREQ_UNC k) } }.setServoState 2).setBasis 5
  else s

/-- Nominal observation period of a reference in SU (the table of R208; 3 s for PTP, R211). -/
def State.obsPeriod (s : State) (k : Nat) : Nat :=
  match s.get pREFSEL (REFSEL.REF_CFG.KIND k) with
  | 1 => suSec
  | 4 => 3 * suSec
  | _ => suSec / 1000 * 10 ^ s.get pREFSEL REFSEL.SEL_CFG.OBS_INTERVAL

/-- The loop of R215 for an error `e` taken `dt` SU after the one before: integrator (2^-92) and y_srv (2^-60). -/
def State.loop (s : State) (e : Int) (dt : Nat) : State :=
  let bw := s.get pSERVO SERVO.BW.BW_MHZ
  let clamped := decide (1000 * suSec < bw * 20 * dt)
  let bn : Int := if clamped then suSec else bw
  let bd : Nat := if clamped then 20 * dt else 1000
  let damp : Int := s.get pSERVO SERVO.SERVO_CFG.DAMPING
  let integ := s.servo.integ + 4 * piNum * piNum * bn * bn * e * dt * 2 ^ 92 / ((piDen * piDen * bd * bd * suSec * suSec : Nat) : Int)
  let y := s.openUnit (integ * (64 * piDen * bd * suSec : Nat) + 4 * damp * piNum * bn * e * 2 ^ 92) (64 * piDen * bd * suSec * 2 ^ 32)
  let s1 := { y.2 with servo := { y.2.servo with integ := integ } }
  (s1.putFlag pSERVO SERVO.STATUS.BW_CLAMPED clamped).putI pSERVO SERVO.Y_SRV.Y y.1

/-- An offset of a TIN_PPS reference modulo whole seconds, any other as it is (R209). -/
def State.wrapTheta (s : State) (k : Nat) (th : Int) : Int :=
  if s.get pREFSEL (REFSEL.REF_CFG.KIND k) = 1 then th - roundEven th suSec * suSec else th

/-- Use an observation of the adopted reference, or steer frequency while a step is proposed (R215, R216, R237). -/
def State.useObs (s : State) (k : Nat) (o : Obs) : State :=
  let time := s.givesTime k
  let proposed := s.flag pSERVO SERVO.STATUS.STEP_PROPOSED
  let e := match s.servo.freqBase with
    | some b => s.wrapTheta k (o.theta - b)
    | none => o.theta - (if time then s.slewLeft else 0)
  let dt := match s.servo.lastUsed with
    | some u => if u < o.at_ then (o.at_ - u).toNat else s.obsPeriod k
    | none => s.obsPeriod k
  let s1 := s.loop e dt
  let x := s1.servo
  let y := s1.getI pSERVO SERVO.Y_SRV.Y
  let st := s.servoState
  let s2 := { s1 with servo := { x with
    errs := (e :: x.errs).take 16, maxErr := max x.maxErr e.natAbs, lastUsed := some o.at_, lastBound := o.teb
    drift := { start := s.getI pXO XO.OVEN_TEMP.TEMP }
    srvHist := if st = 1 ∨ st = 2 then
        ((s.clk.slot, y) :: x.srvHist).filter (fun v => decide (s.clk.slot ≤ v.1 + s.get pSERVO SERVO.HOLD_AVG.S * 200000000))
      else x.srvHist } }
  let s3 := (s2.putSpan pSERVO SERVO.PHASE_ERR.SPAN e).put pSERVO SERVO.PHASE_RMS.PS
    (if s2.servo.errs.length < 16 then tebUnknown else rmsPs s2.servo.errs)
  let s4 := if proposed then s3.putSpan pSERVO SERVO.PROPOSED.SPAN o.theta
    else if time ∧ !s3.flag pSERVO SERVO.STATUS.SLEWING then s3.composeRef k else s3
  (s4.onlyIf (!proposed) (fun s => s.lockCheck k)).formY

/-- Whether the slew has come to its end (R217). -/
def State.slewEndDue (s : State) : Bool :=
  s.flag pSERVO SERVO.STATUS.SLEWING &&
    (s.slewLeft == 0 || decide (s.slewLeft.sign ≠ s.servo.slewLeft32.sign) || s.servo.slewLeft32 == 0)

/-- SLEW_END (R217): the bound is composed from the reference slewed to (R239). -/
def execSlewEnd (s : State) : Host.Outcome State Fault Refusal :=
  guarded .slewEnd s (fun s =>
    if s.slewEndDue then
      let s1 := (s.cancelSlew.irq pSERVO 2).formY
      match s.servo.adopted with
      | some k => (s1.composeRef k).lockCheck k
      | none => s1
    else s)

/-! ### Commands of SERVO (R214, R218) -/

/-- STEP with STEP_SPAN (R218). -/
def State.cmdStep (s : State) : State × Verdict :=
  let d := s.getSpan pSERVO SERVO.STEP_SPAN.SPAN
  if !s.flag pSERVO SERVO.STEP_CTL.STEP_ENABLE then refuse s .state
  else if d = 0 then refuse s .range
  else if s.now + d < 0 ∨ (instantLimit : Int) ≤ s.now + d then refuse s .range
  else if s.clk.stepNext.isSome then refuse s .busy
  else accept (s.askStep d none)

/-- STEP_PROPOSED (R216, R218): the timescale steps by PROPOSED, and the reference is adopted at the step. -/
def State.cmdStepProposed (s : State) : State × Verdict :=
  let d := s.getSpan pSERVO SERVO.PROPOSED.SPAN
  if !s.flag pSERVO SERVO.STEP_CTL.STEP_ENABLE ∨ !s.flag pSERVO SERVO.STATUS.STEP_PROPOSED then refuse s .state
  else if d = 0 ∨ s.now + d < 0 ∨ (instantLimit : Int) ≤ s.now + d then refuse s .range
  else if s.clk.stepNext.isSome then refuse s .busy
  else accept (s.askStep d (some s.selected))

/-- SLEW_PROPOSED (R216, R218). -/
def State.cmdSlewProposed (s : State) : State × Verdict :=
  if !s.flag pSERVO SERVO.STATUS.STEP_PROPOSED then refuse s .state
  else accept (s.adoptSlew s.selected (s.getSpan pSERVO SERVO.PROPOSED.SPAN) ((s.ref s.selected).hist.head?.map (·.teb) |>.getD tebUnknown))

/-- A write of STEP_CMD (R232). -/
def State.stepCmd (s : State) (v : Nat) : State × Verdict :=
  match bitsOf v 7 0 with
  | 1 => s.cmdStep
  | 2 => s.cmdStepProposed
  | 3 => s.cmdSlewProposed
  | _ => refuse s .range

/-- FREERUN: y_srv and the integrator are 0, and no reference is adopted (R203, R214). -/
def State.freerun (s : State) : State :=
  let s1 := ((s.cancelSlew.putI pSERVO SERVO.Y_SRV.Y 0).putFlag pSERVO SERVO.STATUS.STEP_PROPOSED false).putFlag pSERVO SERVO.STATUS.FREQ_ONLY false
  ({ s1 with servo := { s1.servo with integ := 0, adopted := none, errs := [], maxErr := 0, freqBase := none } }.setServoState 0).formY

/-- MANUAL: no term is added and the bound is unknown (R214, R237). -/
def State.enterManual (s : State) : State :=
  let s1 := (s.cancelSlew.putFlag pSERVO SERVO.STATUS.STEP_PROPOSED false).putFlag pSERVO SERVO.STATUS.FREQ_ONLY false
  ({ s1 with servo := { s1.servo with adopted := none } }.setServoState 4).setBasis 0

/-- A write of SERVO.Y (R9, R214). -/
def State.writeY (s : State) (v : Nat) : State × Verdict :=
  let y := toSigned 64 v
  if s.get pSERVO SERVO.SERVO_CFG.MODE ≠ 1 then refuse s .state
  else if 2 ^ 47 < y.natAbs then refuse s .range
  else accept ({ s with clk := { s.clk with yNext := some (s.clk.slot, y) } }.putI pSERVO SERVO.Y.Y y)

end Sys2Proof.Machine
end

