-- ==== Sys2Proof/Machine/Refsel.lean ====
section
/-! DEFINITION. References and domains: observations, qualification, selection, the adoption test, the secondary source and
path steps (chapter 9, R208 to R213; chapter 10, R245 to R249). -/

namespace Sys2Proof.Machine

/-! ### References (R208, R211) -/

def State.refKind (s : State) (k : Nat) : Nat := s.get pREFSEL (REFSEL.REF_CFG.KIND k)
def State.refIndex (s : State) (k : Nat) : Nat := s.get pREFSEL (REFSEL.REF_CFG.INDEX k)
def State.refEnabled (s : State) (k : Nat) : Bool := s.flag pREFSEL (REFSEL.REF_CFG.ENABLE k)

/-- STATE of a reference: 0 DISABLED, 1 NO_SIGNAL, 2 QUALIFYING, 3 QUALIFIED, 4 SUSPECT_PHASE (R211). -/
def State.refState (s : State) (k : Nat) : Nat := s.get pREFSEL (REFSEL.REF_STATE.STATE k)

/-- Change a reference's state with its interrupt (R231). -/
def State.putRefState (s : State) (k st : Nat) : State :=
  if s.refState k = st then s else (s.put pREFSEL (REFSEL.REF_STATE.STATE k) st).irq pREFSEL 1

/-- FROZEN of a reference (R211, R248). -/
def State.refFrozen (s : State) (k : Nat) : Bool := s.flag pREFSEL (REFSEL.REF_STATE.FROZEN k)

/-- Whether a reference may be selected (R212). -/
def State.selectable (s : State) (k : Nat) : Bool :=
  s.refEnabled k && s.refState k == 3 && !s.refFrozen k && s.get pREFSEL (REFSEL.REF_CFG.PRIORITY k) != 0 &&
    (!s.flag pREFSEL REFSEL.SEL_CFG.FORCE || s.get pREFSEL REFSEL.SEL_CFG.FORCE_REF == k)

/-- The mean offset of some observations, rounded to 1 SU (R213, R245), and their largest bound. -/
def meanOf (w : List Obs) : Int := if w.isEmpty then 0 else roundEven (sumI w (·.theta)) w.length
def boundOf (w : List Obs) : Nat := w.foldl (fun a o => max a o.teb) 0

/-- The last 16 observations of a reference. -/
def State.last16 (s : State) (k : Nat) : List Obs := (s.ref k).hist.take 16

/-- The means of DOMAIN, over the last 16 observations of whatever fate, and the largest bound among them (R245). -/
def State.seenTheta (s : State) (k : Nat) : Int := meanOf (s.ref k).seen
def State.seenBound (s : State) (k : Nat) : Nat := if (s.ref k).seen.isEmpty then tebUnknown else boundOf (s.ref k).seen

/-- theta_k and b_k of R213. -/
def State.meanTheta (s : State) (k : Nat) : Int := meanOf (s.last16 k)
def State.meanBound (s : State) (k : Nat) : Nat := if (s.last16 k).isEmpty then tebUnknown else boundOf (s.last16 k)

/-- Whether an offset in SU lies within a bound in ps; no bound is known to be exceeded by an unknown one. -/
def within (th : Int) (b : Nat) : Bool := b == tebUnknown || decide (th.natAbs * 1000 ≤ b * suNs)

/-- Whether a reference is selected. -/
def State.isSelected (s : State) (k : Nat) : Bool := s.flag pREFSEL REFSEL.STATUS.VALID && s.selected == k

/-- Show a selection (R231). -/
def State.putSelected (s : State) (k : Nat) : State :=
  if s.isSelected k then s else ((s.putFlag pREFSEL REFSEL.STATUS.VALID true).put pREFSEL REFSEL.STATUS.SELECTED k).irq pREFSEL 0

/-- The reference named by a pending conflict (R213). -/
def State.conflictRef (s : State) : Option Nat :=
  if s.flag pREFSEL REFSEL.CONFLICT_INFO.ACTIVE then some (s.get pREFSEL REFSEL.CONFLICT_INFO.REF) else none

/-- End a conflict (R213, R252). -/
def State.clearConflict (s : State) : State :=
  { s.wr pREFSEL REFSEL.CONFLICT_INFO.off 0 with teb := { s.teb with pathHeld := 0 } }

/-- Make a reference SUSPECT_PHASE (R213). -/
def State.makeSuspect (s : State) (k : Nat) : State := (s.putRefState k 4).irq pREFSEL 3

/-! ### Selection (R212, R247) -/

/-- Order of R212: TIME class first, then PRIORITY, then index. -/
def State.rank (s : State) (k : Nat) : Nat := (if s.timeClass k then 0 else 128) + 8 * s.get pREFSEL (REFSEL.REF_CFG.PRIORITY k) + k

/-- The best of some references. -/
def State.best (s : State) (ks : List Nat) : Option Nat :=
  ks.foldl (fun a k => match a with | none => some k | some j => if s.rank k < s.rank j then some k else some j) none

/-- The primary and the secondary of DOMAIN (R245). -/
def State.secRef (s : State) : Nat := s.get pDOMAIN DOMAIN.DOM_CFG.SEC_REF
def State.secValid (s : State) : Bool :=
  s.flag pDOMAIN DOMAIN.CONTROL.ENABLE && s.refState s.secRef == 3 && !s.refFrozen s.secRef && !s.isSelected s.secRef

/-- Whether a selected reference keeps its selection: it is selectable, or a switch made it the primary and it stays QUALIFIED, whatever its
PRIORITY (R212, R247). -/
def State.stays (s : State) (k : Nat) : Bool :=
  s.selectable k || (s.domain.keep == some k && s.refEnabled k && s.refState k == 3 && !s.refFrozen k &&
    (!s.flag pREFSEL REFSEL.SEL_CFG.FORCE || s.get pREFSEL REFSEL.SEL_CFG.FORCE_REF == k))

/-- Whether the loss of the primary switches to the secondary (R247). -/
def State.autoSwitch (s : State) : Bool :=
  s.flag pDOMAIN DOMAIN.DOM_CFG.SWITCH_MODE && s.flag pREFSEL REFSEL.STATUS.VALID && !s.stays s.selected && s.secValid

/-- The reference that should be used next (R212, R230, R247): the one kept by a switch or by REVERTIVE at 0, the secondary
on an automatic switch, else the best; the reference of a pending conflict waits for its resolution, and those in `skip` have been
tested. -/
def State.candidate (s : State) (skip : List Nat) : Option Nat :=
  let free := (List.range 8).filter (fun k => s.selectable k && s.conflictRef != some k && !skip.contains k)
  let stay := s.flag pREFSEL REFSEL.STATUS.VALID && s.stays s.selected &&
    (s.domain.keep == some s.selected || !s.flag pREFSEL REFSEL.SEL_CFG.REVERTIVE)
  if stay then some s.selected
  else if s.autoSwitch then some s.secRef
  else s.best free

/-! ### Adoption (R213, R216) -/

/-- The outcomes of R213: agreement with the timescale, a slew where it is the outlier or by policy, a step, or no adoption. -/
inductive Adoption where
  | agrees | slew | step | suspect | hold
deriving DecidableEq, Repr

/-- Whether another TIME reference that is QUALIFIED agrees with the timescale, for a bound B (R213). -/
def State.othersAgree (s : State) (k B : Nat) : Bool :=
  (List.range 8).any (fun j => j != k && s.refState j == 3 && s.timeClass j && within (s.meanTheta j) (tebAdd B (s.meanBound j)))

/-- Whether another one agrees with `k`. -/
def State.othersAgreeWith (s : State) (k : Nat) : Bool :=
  (List.range 8).any (fun j => j != k && s.refState j == 3 && s.timeClass j &&
    within (s.meanTheta j - s.meanTheta k) (tebAdd (s.meanBound j) (s.meanBound k)))

/-- The test of R213 for a TIME reference; an automatic switch slews where it would step (R247). -/
def State.adoptionTest (s : State) (k B : Nat) (auto : Bool) : Adoption :=
  let policy := s.get pREFSEL REFSEL.SEL_CFG.REF_RETURN_POLICY
  let steps := s.flag pSERVO SERVO.STEP_CTL.STEP_ENABLE
  if within (s.meanTheta k) (tebAdd B (s.meanBound k)) then .agrees
  else if s.othersAgree k B then .suspect
  else if s.othersAgreeWith k then if policy = 2 ∧ steps ∧ !auto then .step else .slew
  else match policy with
    | 0 => .hold
    | 1 => .slew
    | _ => if auto then .slew else if steps then .step else .hold

/-- Acquire a TIME reference in FREERUN: slew, or propose a step (R216). -/
def State.acquire (s : State) (k : Nat) : State :=
  match (s.ref k).hist with
  | [] => s
  | o :: _ =>
    if o.theta.natAbs ≤ s.get pSERVO SERVO.ACQ_SLEW_LIMIT.NS * suNs then s.adoptSlew k o.theta o.teb
    else
      let s1 := ((s.putFlag pSERVO SERVO.STATUS.STEP_PROPOSED true).putSpan pSERVO SERVO.PROPOSED.SPAN o.theta).irq pSERVO 1
      { s1 with servo := { s1.servo with freqBase := some o.theta } }

/-- Record a conflict under HOLD (R213). -/
def State.raiseConflict (s : State) (k : Nat) : State :=
  let s1 := ((s.putFlag pREFSEL REFSEL.CONFLICT_INFO.ACTIVE true).put pREFSEL REFSEL.CONFLICT_INFO.REF k).putFlag pREFSEL
    REFSEL.CONFLICT_INFO.STEP_BLOCKED (s.get pREFSEL REFSEL.SEL_CFG.REF_RETURN_POLICY == 2)
  ((s1.putSpan pREFSEL REFSEL.CONFLICT_OFFSET.SPAN (s.meanTheta k)).err pREFSEL 1).irq pREFSEL 2

/-- Nothing is selected: NO_REFERENCE; ACQUIRING and LOCKED hold over (R212, R214). -/
def State.deselect (s : State) : State :=
  if !s.flag pREFSEL REFSEL.STATUS.VALID then s
  else
    let s1 := ((s.putFlag pREFSEL REFSEL.STATUS.VALID false).irq pREFSEL 0).err pREFSEL 0
    let s2 := { s1 with domain := { s1.domain with keep := none } }
    match s2.servoState with
    | 1 => s2.enterHoldover false
    | 2 => s2.enterHoldover false
    | 0 => if s2.flag pSERVO SERVO.STATUS.STEP_PROPOSED then s2.freerun else s2
    | _ => s2

/-- Exchange the primary and the secondary (R247). -/
def State.exchange (s : State) (old new : Nat) : State :=
  let s1 := ((s.put pDOMAIN DOMAIN.DOM_CFG.SEC_REF old).incWrap pDOMAIN DOMAIN.SWITCHES.COUNT).irq pDOMAIN 2
  { s1 with domain := { s1.domain with keep := some new, made := some old, disagree := 0, agree := 0 } }.tscEvent 8 (16 * old + new)

/-- Carry out an outcome of R213. -/
def State.adopt (s : State) (k : Nat) (a : Adoption) : State :=
  match a with
  | .agrees => (s.putSelected k).adoptSlew k (s.meanTheta k) (s.meanBound k)
  | .slew => (s.putSelected k).adoptSlew k (s.meanTheta k) (s.meanBound k)
  | .step => ((s.putSelected k).cancelSlew).askStep (s.meanTheta k) (some k)
  | .suspect => s.makeSuspect k
  | .hold => s.raiseConflict k

/-- Whether the selected reference can stay in use. -/
def State.canStay (s : State) : Bool := s.stays s.selected && s.flag pREFSEL REFSEL.STATUS.VALID

/-- Bring selection and servo in line with the references (R212 to R216, R230), after `n` rounds at most. While a conflict is pending the
further candidates are tested in turn: one that agrees with the timescale is adopted and the conflicting reference becomes
SUSPECT_PHASE; one adopted on other grounds ends the conflict without that; one that would conflict as well is passed over (log 95). -/
def State.reselectWith (B : State → Nat) : Nat → List Nat → State → State
  | 0, _, s => s
  | n + 1, skip, s =>
    match s.candidate skip with
    | none => if s.canStay then s else s.deselect
    | some k =>
      let auto := s.autoSwitch
      let old := s.selected
      let switched (t : State) : State := t.onlyIf (auto && t.isSelected k && old != k) (fun t => t.exchange old k)
      if s.isSelected k && s.servo.adopted == some k && (s.servo.freqBase.isNone || !s.timeClass k) then s
      else if s.get pSERVO SERVO.SERVO_CFG.MODE ≠ 0 ∨ !s.flag pAPLL_M APLL_M.STATUS.LOCKED then switched (s.putSelected k)
      else if s.servoState = 0 then
        if s.isSelected k && s.flag pSERVO SERVO.STATUS.STEP_PROPOSED then s
        else if s.timeClass k then switched ((s.putSelected k).acquire k)
        else switched ((s.putSelected k).adoptFreq k)
      else if s.clk.stepNext.isSome then s
      else if !s.timeClass k then (if s.conflictRef.isSome ∧ s.servoState = 3 then s else switched ((s.putSelected k).adoptFreq k))
      else match s.adoptionTest k (B s) auto with
        | .suspect => State.reselectWith B n skip (s.makeSuspect k)
        | .hold =>
          if s.conflictRef.isSome then State.reselectWith B n (k :: skip) s
          else if s.isSelected old && s.stays old && old != k then s.raiseConflict k
          else (s.raiseConflict k).deselect
        | .agrees =>
          let s1 := match s.conflictRef with | some c => (s.makeSuspect c).clearConflict | none => s
          switched (s1.adopt k .agrees)
        | a => switched (s.clearConflict.adopt k a)

/-- Renew the selection, with TEB_ts as the bound of the timescale. -/
def State.reselect (s : State) : State := if s.stage < 3 then s else State.reselectWith (fun s => s.tebTs s.now) 17 [] s

/-! ### DOMAIN (R245, R246) -/

/-- Show DOMAIN's view of the two references (R245). -/
def State.refreshDomain (s : State) : State :=
  let p := s.selected
  let q := s.secRef
  let s1 := (s.put pDOMAIN DOMAIN.STATUS.PRIMARY p).putFlag pDOMAIN DOMAIN.STATUS.SEC_VALID s.secValid
  if !s.flag pDOMAIN DOMAIN.CONTROL.ENABLE then s1
  else
    let s2 := ((s1.putSpan pDOMAIN DOMAIN.PRI_OFFSET.SPAN (s.seenTheta p)).put pDOMAIN DOMAIN.PRI_TEB.PS (s.seenBound p)).putSpan pDOMAIN
      DOMAIN.SEC_OFFSET.SPAN (s.seenTheta q)
    ((s2.put pDOMAIN DOMAIN.SEC_TEB.PS (s.seenBound q)).putSpan pDOMAIN DOMAIN.DIFF.SPAN (s.seenTheta q - s.seenTheta p)).put pDOMAIN
      DOMAIN.DIFF_BOUND.PS (tebAdd (tebAdd (s.seenBound p) (s.seenBound q)) (s.get pDOMAIN DOMAIN.DISAGREE_MARGIN.PS))

/-- A secondary observation counts towards a disagreement or against it (R246). -/
def State.judgeDiff (s : State) : State :=
  if !s.secValid ∨ !s.flag pREFSEL REFSEL.STATUS.VALID then s
  else
    let bad := !within (s.getSpan pDOMAIN DOMAIN.DIFF.SPAN) (s.get pDOMAIN DOMAIN.DIFF_BOUND.PS)
    let d := s.domain
    let s1 := { s with domain := { d with disagree := if bad then d.disagree + 1 else 0, agree := if bad then 0 else d.agree + 1 } }
    let on := s.flag pDOMAIN DOMAIN.STATUS.DISAGREE
    if !on ∧ s.get pDOMAIN DOMAIN.DOM_CFG.DISAGREE_COUNT ≤ s1.domain.disagree then
      ((((s1.putFlag pDOMAIN DOMAIN.STATUS.DISAGREE true).err pDOMAIN 0).irq pDOMAIN 0).incSat pDOMAIN DOMAIN.DISAGREES.COUNT).tscEvent 7 1
    else if on ∧ 16 ≤ s1.domain.agree then (s1.putFlag pDOMAIN DOMAIN.STATUS.DISAGREE false).tscEvent 7 0
    else s1

/-! ### Path steps (R248, R249) -/

/-- The baseline of the path delay of a reference (R248). -/
def State.pathBase (s : State) (k : Nat) : Int :=
  let w := (s.ref k).paths
  if w.isEmpty then 0 else roundEven (sumI w (fun x => x)) w.length

/-- References frozen by the open path event. -/
def State.frozenRefs (s : State) : List Nat := bitList 8 (s.get pDOMAIN DOMAIN.PATH_EVENT.REFS)

/-- Verdicts: 0 PENDING, 1 ACCEPTED, 2 HELD, 3 CLEARED (R251). -/
def State.putVerdict (s : State) (v : Nat) : State :=
  (s.put pDOMAIN DOMAIN.PATH_EVENT.VERDICT v).forEach s.frozenRefs (fun k s => s.tscEvent 6 (16 * v + k))

/-- Four held observations declare a path step (R248). -/
def State.declarePath (s : State) (k : Nat) : State :=
  let x := s.ref k
  let delta := roundEven (sumI x.held (fun o => o.path.getD 0)) 4 - s.pathBase k
  let s1 := (s.setRef k { x with before := meanOf (x.hist.take 16), after := meanOf x.held, bound := s.meanBound k }).putFlag pREFSEL
    (REFSEL.REF_STATE.FROZEN k) true
  let s2 := ((s1.putSpan pDOMAIN DOMAIN.PATH_STEP.SPAN delta).putSpan pDOMAIN DOMAIN.PATH_BASE.SPAN (s.pathBase k)).put pDOMAIN
    DOMAIN.PATH_WIDEN.PS (tebAdd (s.get pDOMAIN DOMAIN.PATH_WIDEN.PS) (psOfSu delta.natAbs))
  let s3 := (((s2.put pDOMAIN DOMAIN.PATH_EVENT.REFS (setBit (s.get pDOMAIN DOMAIN.PATH_EVENT.REFS) k)).putFlag pDOMAIN
    DOMAIN.PATH_EVENT.OPEN true).put pDOMAIN DOMAIN.PATH_EVENT.VERDICT 0).putFlag pDOMAIN DOMAIN.STATUS.PATH_CHANGE true
  let s4 := { ((s3.err pDOMAIN 1).irq pDOMAIN 1).tscEvent 6 k with domain := { s3.domain with judged := false } }
  if s4.isSelected k then s4.reselect else s4

/-- Hold or pass an observation with a path delay (R248): whether it is held, and the state after. -/
def State.pathWatch (s : State) (k : Nat) (o : Obs) : State × Bool :=
  match o.path with
  | none => (s, false)
  | some p =>
    let x := s.ref k
    if x.paths.isEmpty ∨ psOfSu (p - s.pathBase k).natAbs ≤ s.get pDOMAIN DOMAIN.PATH_STEP_THRESHOLD.PS then
      (s.setRef k { x with held := [] }, false)
    else
      let s1 := s.setRef k { x with
        held := x.held ++ [o]
        snap := if x.held.isEmpty then (List.range 8).map (fun j => s.meanTheta j) else x.snap }
      (if x.held.length + 1 < 4 then s1 else s1.declarePath k, true)

/-- The judge of an open path event (R249): the secondary, or the primary where a switch made the frozen reference the secondary. -/
def State.judge (s : State) : Option Nat :=
  if s.secValid then some s.secRef
  else if s.flag pDOMAIN DOMAIN.CONTROL.ENABLE && s.domain.made == some s.secRef && s.domain.keep == some s.selected &&
      s.refFrozen s.secRef && s.flag pREFSEL REFSEL.STATUS.VALID && s.refState s.selected == 3 && !s.refFrozen s.selected then
    some s.selected
  else none

/-- Unfreeze a reference, with a new baseline from its held observations, or none (R249). -/
def State.unfreeze (s : State) (k : Nat) (keep : Bool) : State :=
  let x := s.ref k
  let s1 := s.putFlag pREFSEL (REFSEL.REF_STATE.FROZEN k) false
  if keep then s1.setRef k { x with
      paths := x.held.filterMap (·.path), hist := x.held.reverse ++ x.hist, held := [], drift := { start := s.getI pXO XO.OVEN_TEMP.TEMP } }
  else s1.setRef k { x with paths := [], held := [] }

/-- Close the path event (R249): PATH_CLEAR returns an enabled reference to QUALIFYING from any state; PATH_WIDEN goes, but a pending conflict keeps the bound up after a verdict ACCEPTED (R252); an adoption is
tested against the bound without it. -/
def State.closePath (s : State) (v : Nat) : State :=
  let refs := s.frozenRefs
  let B := s.tebBare s.now
  let s1 := (s.putVerdict v).forEach refs (fun k s => s.unfreeze k (v == 1))
  let s2 := s1.forEach refs (fun k s => if v = 3 then
      (s.setRef k { s.ref k with passes := 0, dwellSlot := s.clk.slot }).onlyIf (decide (1 ≤ s.refState k)) (fun s => s.putRefState k 2)
    else s)
  let s3 := ((((s2.putFlag pDOMAIN DOMAIN.PATH_EVENT.OPEN false).put pDOMAIN DOMAIN.PATH_EVENT.REFS 0).put pDOMAIN DOMAIN.PATH_WIDEN.PS
    0).putFlag pDOMAIN DOMAIN.STATUS.PATH_CHANGE false).irq pDOMAIN 3
  let s4 := if v = 1 ∧ s.conflictRef.isSome then { s3 with teb := { s3.teb with pathHeld := s.teb.pathHeld + s.pathTerm } } else s3
  if s4.stage < 3 then s4 else State.reselectWith (fun _ => B) 17 [] s4

/-- The verdict at an observation of the judge (R249). -/
def State.pathVerdict (s : State) (j : Nat) : State :=
  if !s.flag pDOMAIN DOMAIN.PATH_EVENT.OPEN ∨ s.domain.judged ∨ s.judge ≠ some j then s
  else
    let B := s.tebBare s.now
    let s1 := { s with domain := { s.domain with judged := true } }
    let same := s.frozenRefs.all (fun k =>
      let x := s.ref k
      within ((s.meanTheta j - x.snap.getD j 0) - (x.after - x.before)) (tebAdd x.bound (s.meanBound j)))
    if same then s1.closePath 1
    else if within (s.meanTheta j) (tebAdd B (s.meanBound j)) then s1.putVerdict 2
    else s1

/-! ### Observations (R209 to R211) -/

/-- Offset of a stamp from the whole second of a TIN_PPS reference (R209). -/
def State.ppsTheta (s : State) (k : Nat) (t : Int) : Int :=
  let d := s.getSpan pREFSEL (REFSEL.REF_DELAY.SPAN k)
  roundEven (t - d) suSec * suSec + d - t

/-- p_nom of a TIN_FREQ reference in 2^-32 SU (R209). -/
def State.pNom32 (s : State) (k : Nat) : Int := roundEven ((suSec : Int) * fine) (max 1 (s.get pREFSEL (REFSEL.REF_NOMINAL.NOMINAL_HZ k)))

/-- Put an observation before the tests. -/
def State.queueObs (s : State) (k : Nat) (o : Obs) : State := s.setRef k { s.ref k with inbox := (s.ref k).inbox ++ [o] }

/-- A stamp reaches a reference of a TIN kind (R208, R209): the first of its sense after an adoption is the new origin s_0, at an observation
boundary or not; from an unresolved input, or with an unknown bound, it counts as
absent (R211). -/
def State.refStamp (s : State) (k i : Nat) (st : Stamp) : State :=
  let x := s.ref k
  let t := st.flat + s.clk.stepSum / 2 ^ 32
  let b := tebAdd (s.get pREFSEL (REFSEL.REF_UNC.UNC_PS k)) (s.inBound i)
  if s.stage < 3 ∨ !s.refEnabled k ∨ s.unresolved i ∨ s.inputFault i ∨ st.teb = tebUnknown then s
  else match s.refKind k with
    | 1 => if s.get (pTIN i) TIN.IN_CFG.PRESCALE = 1 ∧ s.get (pTIN i) TIN.IN_CFG.SLOPE ≠ 3 then s.queueObs k ⟨t, s.ppsTheta k t, b, none, s.slewMade⟩ else s
    | 2 =>
      match x.origin with
      | none => s.setRef k { x with origin := some (t, st.index, st.rising), newOrigin := false, boundary := t }
      | some (t0, i0, sense) =>
        if sense ≠ st.rising ∨ (t < x.boundary ∧ !x.newOrigin) then s
        else
          let m : Int := (st.index : Int) - i0
          let th := roundEven ((t0 - t) * fine + m * s.pNom32 k) (2 ^ 32)
          let p := s.obsPeriod k
          let next := t / p * p + p
          if x.newOrigin then
            let s1 := s.setRef k { x with
              origin := some (t, st.index, st.rising), newOrigin := false, boundary := if t < x.boundary then x.boundary else next
              hist := x.hist.map (fun o => { o with theta := o.theta - th }), seen := x.seen.map (fun o => { o with theta := o.theta - th }) }
            s1.onlyIf (decide (x.boundary ≤ t)) (fun s => s.queueObs k ⟨t, 0, b, none, s.slewMade⟩)
          else (s.setRef k { x with boundary := next }).queueObs k ⟨t, th, b, none, s.slewMade⟩
    | _ => s

/-- The frequency check: the slope over the last 16 observations, this one among them, the timescale's own slews put back
(R211). -/
def State.slopeOf (w : List Obs) : VisitFit := lineFit (w.map (fun o => (o.at_ - (w.head?.map (·.at_)).getD 0, o.theta + o.slew)))

def State.freqOk (s : State) (k : Nat) (w : List Obs) : Bool :=
  let f := State.slopeOf w
  w.length < 16 || decide (f.d ≤ 0) || decide (f.slopeN.natAbs * 10 ^ 9 ≤ s.get pREFSEL (REFSEL.REF_QUAL.FREQ_WINDOW_PPB k) * f.d.natAbs)

/-- The phase check: the offset against the extrapolation of the fit over the 16 observations before it (R211). -/
def State.phaseOk (s : State) (k : Nat) (w : List Obs) (o : Obs) : Bool :=
  let ps := w.map (fun x => (x.at_ - o.at_, x.theta + x.slew))
  let f := lineFit ps
  w.length < 16 || decide (f.d ≤ 0) ||
    decide (((o.theta + o.slew) * f.n * f.d - (sumI ps (·.2) * f.d - f.slopeN * sumI ps (·.1))).natAbs ≤
      s.get pREFSEL (REFSEL.REF_JUMP.PHASE_JUMP_NS k) * suNs * (f.n * f.d).natAbs)

/-- Show the fitted slope (R231): signed, in 10^-13, saturating. -/
def State.showSlope (s : State) (k : Nat) (w : List Obs) : State :=
  let f := State.slopeOf w
  if f.d ≤ 0 then s
  else s.putI pREFSEL (REFSEL.REF_FREQ_ERR.ERR k) (max (-(2 ^ 31 : Int)) (min (2 ^ 31 - 1) (roundEven (f.slopeN * 10 ^ 13) f.d.toNat)))

/-- Start the dwell again from QUALIFYING (R211). -/
def State.restartDwell (s : State) (k : Nat) : State := s.setRef k { s.ref k with passes := 0, dwellSlot := s.clk.slot }

/-- A failed check (R211): the history and the dwell start again at this observation. -/
def State.failObs (s : State) (k : Nat) (o : Obs) (check : Nat) : State :=
  let s1 := ((s.put pREFSEL (REFSEL.REF_STATE.LAST_FAIL k) check).restartDwell k)
  let s2 := s1.setRef k { s1.ref k with hist := [o], drift := { start := s.getI pXO XO.OVEN_TEMP.TEMP } }
  if s.refState k = 3 then (s2.putRefState k 2).reselect else s2

/-- An observation that passes: the dwell, the baseline, and its use by the servo (R211, R215, R248). -/
def State.passObs (s : State) (k : Nat) (o : Obs) : State :=
  let x := s.ref k
  let s1 := (s.setRef k { x with
      hist := (o :: x.hist).zipIdx.filterMap (fun p => if p.2 < 16 ∨ o.at_ - s.get pSERVO SERVO.HOLD_AVG.S * suSec ≤ p.1.at_ then some p.1 else none)
      passes := x.passes + 1
      drift := { start := s.getI pXO XO.OVEN_TEMP.TEMP }
      paths := match o.path with | some p => (p :: x.paths).take 16 | none => x.paths }).showSlope k ((o :: x.hist).take 16)
  if s1.refState k = 2 ∧ 16 ≤ x.passes + 1 ∧ x.dwellSlot + s.get pREFSEL (REFSEL.REF_QUAL.DWELL_S k) * 200000000 ≤ s.clk.slot then
    (s1.putRefState k 3).reselect
  else if s1.isSelected k ∧ (s1.servo.adopted = some k ∨ s1.flag pSERVO SERVO.STATUS.STEP_PROPOSED) ∧ s1.clk.stepNext.isNone ∧
      (s1.servoState = 1 ∨ s1.servoState = 2 ∨ s1.flag pSERVO SERVO.STATUS.STEP_PROPOSED) ∧ !s1.refFrozen k then s1.useObs k o
  else s1

/-- An observation comes: it is shown, and unless the reference's offset updates are frozen (R211) it enters the means of DOMAIN (R245); one
of the secondary counts towards a disagreement or against it, before any path step it declares (R246, R252). -/
def State.seeObs (s : State) (k : Nat) (o : Obs) : State :=
  let x := s.ref k
  let s1 := ((s.setRef k { x with lastSlot := s.clk.slot, seen := if s.refFrozen k then x.seen else (o :: x.seen).take 16 }).putSpan pREFSEL
    (REFSEL.REF_OFFSET.SPAN k) o.theta).put pREFSEL (REFSEL.REF_OFFSET_TEB.TEB_PS k) o.teb
  s1.refreshDomain.onlyIf (k == s.secRef && s.flag pDOMAIN DOMAIN.CONTROL.ENABLE) State.judgeDiff

/-- Test an observation of an enabled reference (R211). -/
def State.testObs (s : State) (k : Nat) (o : Obs) : State :=
  if s.refFrozen k then s
  else
    let h := s.pathWatch k o
    if h.2 then h.1
    else
      let s1 := if s.refState k = 1 then (h.1.restartDwell k).putRefState k 2 else h.1
      let w := (s1.ref k).hist.take 16
      if !s1.phaseOk k w o then s1.failObs k o 3
      else if !s1.freqOk k ((o :: w).take 16) then s1.failObs k o 2
      else s1.passObs k o

/-- What follows an observation in DOMAIN: the offsets, and the verdict of an open event (R245, R248, R249). -/
def State.domainObs (s : State) (k : Nat) : State := (s.refreshDomain.pathVerdict k).refreshDomain

/-- REF_OBSERVATION (R211): the next observation of an enabled reference is tested, from Stage 3 (R214). -/
def execRefObservation (k : Nat) (s : State) : Host.Outcome State Fault Refusal :=
  guarded (.refObservation k) s (fun s =>
    match (s.ref k).inbox with
    | [] => s
    | o :: rest =>
      let s1 := s.setRef k { s.ref k with inbox := rest }
      if s1.refEnabled k ∧ 3 ≤ s1.stage then ((s1.seeObs k o).testObs k o).domainObs k else s1)

/-- Whether a reference has had no observation in three periods (R211), at whatever stage: none comes before Stage 3 (R214). -/
def State.presenceFailed (s : State) (k : Nat) : Bool :=
  s.refEnabled k && decide (2 ≤ s.refState k) &&
    decide ((s.ref k).lastSlot * suSlot + 3 * s.obsPeriod k < s.clk.slot * suSlot)

/-- A reference without observations (R211). -/
def State.loseRef (s : State) (k : Nat) : State :=
  let s1 := ((s.put pREFSEL (REFSEL.REF_STATE.LAST_FAIL k) 1).setRef k { s.ref k with hist := [], seen := [], passes := 0, held := [] }).putRefState k 1
  s1.reselect.refreshDomain

/-- REF_PRESENCE_FAIL (R211). -/
def execRefPresenceFail (k : Nat) (s : State) : Host.Outcome State Fault Refusal :=
  guarded (.refPresenceFail k) s (fun s => if s.presenceFailed k then s.loseRef k else s)

/-! ### Commands (R208, R210, R213, R231, R247, R249) -/

/-- Whether KIND and INDEX go together (R208). -/
def refIndexOk (kind idx : Nat) : Bool :=
  match kind with
  | 0 => true
  | 1 => decide (idx < 16)
  | 2 => decide (idx < 16)
  | 3 => decide (idx < 6)
  | 4 => decide (idx < 2)
  | _ => false

/-- Forget a reference's observations (R211). -/
def State.resetRef (s : State) (k st : Nat) : State :=
  (s.setRef k { (({} : RefSt)) with lastSlot := s.clk.slot }).putRefState k st

/-- ENABLE of a reference is set: a TIN kind takes its place on the input (R208). The new fields stand in the page. -/
def State.enableRef (s : State) (k : Nat) (upstream : Bool) : State × Verdict :=
  let kind := s.refKind k
  if s.get pREFSEL (REFSEL.REF_UNC.UNC_PS k) = tebUnknown ∨ kind = 0 ∨
      (kind = 2 ∧ s.get pREFSEL (REFSEL.REF_FREQ_UNC.FREQ_UNC k) = tebUnknown) then refuse s .range
  else if kind = 3 ∧ !upstream then refuse s .state
  else if kind = 1 ∨ kind = 2 then
    match s.takePlace (s.refIndex k) 5 k with
    | none => (s, ⟨.conflict, some (s.resOwner 3 (s.refIndex k))⟩)
    | some s1 => accept (s1.resetRef k 1)
  else accept (s.resetRef k 1)

/-- ENABLE of a reference is cleared (R211). -/
def State.disableRef (s : State) (k : Nat) : State :=
  let s1 := if s.refKind k = 1 ∨ s.refKind k = 2 then s.freePlace (s.refIndex k) 5 k else s
  let s2 := (s1.resetRef k 0).putFlag pREFSEL (REFSEL.REF_STATE.FROZEN k) false
  let s3 := if s2.conflictRef = some k then s2.clearConflict else s2
  s3.reselect.refreshDomain

/-- A change of REF_DELAY, UNC_PS or FREQ_UNC returns a QUALIFIED reference to QUALIFYING (R211). -/
def State.refChanged (s : State) (k : Nat) : State :=
  if s.refState k = 3 then ((s.restartDwell k).putRefState k 2).reselect.refreshDomain else s

/-- Whether the servo runs, and can adopt a reference: from Stage 3, with APLL_M locked (R203, R214). -/
def State.servoRuns (s : State) : Bool := decide (3 ≤ s.stage) && s.flag pAPLL_M APLL_M.STATUS.LOCKED

/-- ACCEPT_SLEW and ACCEPT_STEP (R213, R230). DESIGN CHOICE (log 95): while the servo does not run (R214) there is nothing to adopt with, and
the command answers STATE. -/
def State.cmdAccept (s : State) (k : Nat) (step : Bool) : State × Verdict :=
  if s.conflictRef ≠ some k ∨ s.refState k ≠ 3 ∨ (step ∧ !s.flag pSERVO SERVO.STEP_CTL.STEP_ENABLE) then refuse s .state
  else if s.get pSERVO SERVO.SERVO_CFG.MODE ≠ 0 ∨ !s.servoRuns then refuse s .state
  else if step ∧ s.clk.stepNext.isSome then refuse s .busy
  else if step ∧ (s.now + s.meanTheta k < 0 ∨ (instantLimit : Int) ≤ s.now + s.meanTheta k) then refuse s .range
  else accept ((s.clearConflict.adopt k (if step then .step else .slew)).refreshDomain)

/-- REJECT (R213). -/
def State.cmdReject (s : State) (k : Nat) : State × Verdict :=
  if s.conflictRef ≠ some k then refuse s .state else accept ((s.clearConflict.makeSuspect k).reselect.refreshDomain)

/-- CLEAR_SUSPECT (R211). -/
def State.cmdClearSuspect (s : State) (k : Nat) : State × Verdict :=
  if s.refState k ≠ 4 then refuse s .state else accept ((s.restartDwell k).putRefState k 2)

/-- REQUALIFY restarts the dwell (R231). -/
def State.cmdRequalify (s : State) (k : Nat) : State × Verdict :=
  if s.refState k ≠ 2 ∧ s.refState k ≠ 3 then refuse s .state
  else accept (((s.restartDwell k).putRefState k 2).reselect.refreshDomain)

/-- A write of SEL_CMD (R231). -/
def State.selCmd (s : State) (v : Nat) : State × Verdict :=
  let k := bitsOf v 10 8
  match bitsOf v 7 0 with
  | 1 => s.cmdAccept k false
  | 2 => s.cmdAccept k true
  | 3 => s.cmdReject k
  | 4 => s.cmdClearSuspect k
  | 5 => s.cmdRequalify k
  | _ => refuse s .range

/-- PUSH of a PTP observation (R210). -/
def State.cmdPush (s : State) (v : Nat) : State × Verdict :=
  let k := bitsOf v 10 8
  let t : Int := s.getInst pREFSEL REFSEL.PTP_OBS_AT.INSTANT
  if bitsOf v 7 0 ≠ 1 then refuse s .range
  else if s.refKind k ≠ 4 ∨ !s.refEnabled k ∨ s.now < t ∨ t + suSec < s.now ∨ s.get pREFSEL REFSEL.PTP_OBS_TEB.TEB_PS = tebUnknown then refuse s .range
  else if s.stage < 3 then refuse s .state
  else accept (s.queueObs k ⟨t, s.getSpan pREFSEL REFSEL.PTP_OBS_OFFSET.SPAN, s.get pREFSEL REFSEL.PTP_OBS_TEB.TEB_PS,
    some (s.getSpan pREFSEL REFSEL.PTP_OBS_PATH.SPAN), s.slewMade⟩)

/-- A write that changes MODE (R214, R230). -/
def State.servoMode (s : State) : State :=
  let st := s.servoState
  if s.stage < 3 then s
  else match s.get pSERVO SERVO.SERVO_CFG.MODE with
    | 1 => if st = 4 then s else s.enterManual
    | 2 => if st = 3 then { s with servo := { s.servo with adopted := none } } else s.enterHoldover true
    | _ =>
      if st = 4 then s.freerun.reselect
      else if st = 3 then { s with servo := { s.servo with adopted := none } }.reselect
      else s

/-- SWITCH (R247): adopted under ACCEPT_SLEW without the test of R213. A conflict that names the new primary is resolved by it. While the servo
does not run the two change places without an adoption (R214; log 95). -/
def State.cmdSwitch (s : State) : State × Verdict :=
  if !s.secValid then refuse s .state
  else
    let old := s.selected
    let new := s.secRef
    let s0 := if s.conflictRef = some new then s.clearConflict else s
    let s1 := if s.get pSERVO SERVO.SERVO_CFG.MODE ≠ 0 ∨ !s.servoRuns then s0.putSelected new
      else if s.timeClass new then (s0.putSelected new).adoptSlew new (s.meanTheta new) (s.meanBound new)
      else (s0.putSelected new).adoptFreq new
    accept ((s1.exchange old new).refreshDomain)

/-- A write of DOM_CMD (R251). -/
def State.domCmd (s : State) (v : Nat) : State × Verdict :=
  match bitsOf v 7 0 with
  | 1 => s.cmdSwitch
  | 2 => if !s.flag pDOMAIN DOMAIN.PATH_EVENT.OPEN then refuse s .state else accept ((s.closePath 1).refreshDomain)
  | 3 => if !s.flag pDOMAIN DOMAIN.PATH_EVENT.OPEN then refuse s .state else accept ((s.closePath 3).refreshDomain)
  | _ => refuse s .range

/-- Whether a reference may be the secondary (R245). -/
def State.secOk (s : State) (k : Nat) : Bool := s.refEnabled k && (s.refKind k == 1 || s.refKind k == 3 || s.refKind k == 4)

/-! ### Steps of the timescale (R230, R252) -/

/-- An offset after a step of the timescale by `d`: one that is measured against TAI moves by it, one that counts cycles from s_0 does not
(R209, R230). -/
def State.stepTheta (s : State) (k : Nat) (d th : Int) : Int := if s.refKind k = 2 then th else s.wrapTheta k (th - d)

/-- Offsets and baselines move by a step, and FREQUENCY references keep their origin (R230, R252). -/
def State.refStep (s : State) (d : Int) (k : Nat) : State :=
  let x := s.ref k
  let mv (l : List Obs) := l.map (fun o => { o with at_ := o.at_ + d, theta := s.stepTheta k d o.theta })
  s.setRef k { x with
    inbox := mv x.inbox
    hist := mv x.hist
    seen := mv x.seen
    held := mv x.held
    origin := x.origin.map (fun o => (o.1 + d, o.2.1, o.2.2))
    boundary := x.boundary + d
    snap := x.snap.map (· - d)
    before := x.before - d
    after := x.after - d }

end Sys2Proof.Machine
end

