-- ==== Sys2Proof/Machine/AuxOut.lean ====
section
/-! DEFINITION. APLL_A's commands and lock windows, spread spectrum, and the aux outputs (chapter 9, R202, R221 to R229). -/

namespace Sys2Proof.Machine

def State.aux (s : State) (n : Nat) : AuxSt := s.auxs.getD n {}
def State.setAux (s : State) (n : Nat) (x : AuxSt) : State := { s with auxs := s.auxs.set n x }

/-- Whether an output is enabled. -/
def State.auxOn (s : State) (n : Nat) : Bool := s.flag (pAUX n) AUX.CONTROL.ENABLE

/-- Whether an agent other than the owner of APLL_A owns an output; no agent owns a free one (R43). -/
def State.auxApart (s : State) (n : Nat) : Bool :=
  s.pageOwner (pAUX n) != 0 && s.pageOwner (pAUX n) != s.pageOwner pAPLL_A

/-- An enabled output owned by another agent than APLL_A (R223): its owner. -/
def State.auxForeign (s : State) : Option Nat :=
  ((List.range 8).find? (fun n => s.auxOn n && s.auxApart n)).map (fun n => s.pageOwner (pAUX n))

/-- The pin of an output takes a level, inverted under POLARITY (R228, R236). -/
def State.auxPin (s : State) (n : Nat) (running : Bool) : State := s.emit (.aux n running (running != s.flag (pAUX n) AUX.OUT_CFG.POLARITY))

/-! ### Ceilings (R226, R227) -/

/-- Upper spread of a SSC_CFG word, in units of 10^-4 (R226). -/
def sscUpper (w : Nat) : Nat := if bitOf w 31 && bitsOf w 17 16 == 1 then bitsOf w 6 0 else 0

/-- The highest frequency of an aux output format in kHz: LVDS, CML, HCSL (R358). -/
def auxFormatKHz (format : Nat) : Nat := if format = 0 then 1600000 else if format = 1 then 3200000 else 400000

/-- Whether an output stays at or below its ceiling and its format's limit at N up to `n`, with the ramp margin or not,
under a spread (R227, R358). -/
def State.ceilOk (s : State) (out n : Nat) (margin : Bool) (ssc : Nat) : Bool :=
  let v := s.vco n
  let f := min (s.get (pAUX out) AUX.F_CEIL.KHZ) (auxFormatKHz (s.get (pAUX out) AUX.OUT_CFG.FORMAT))
  decide (v.1 * (if margin then 1001 else 1000) * (10000 + sscUpper ssc) ≤
      f * 1000 * s.get (pAUX out) AUX.DIV.DIV * v.2 * 1000 * 10000) &&
    (!s.flag (pAUX out) AUX.BYPASS_CFG.BYPASS || decide (40000 ≤ f * s.get (pAUX out) AUX.BYPASS_CFG.BYPASS_DIV))

/-- The highest N that APLL_A may reach from here: the present one, the ramp's end, and the points of a profile that plays; and whether a
ramp runs. While it is off it drives nothing. -/
def State.highN (s : State) : Nat × Bool :=
  if s.apllaState = 0 then (0, false)
  else match s.aplla.ramp with
    | none => (s.aplla.n, false)
    | some r => ((s.aplla.points.map (·.1)).foldl max (max r.start r.target), true)

/-- SSC_CFG as written or as still in force, whichever reaches higher (R226, R227). -/
def State.highSsc (s : State) : Nat :=
  let w := (s.rd pAPLL_A APLL_A.SSC_CFG.off).toNat
  if sscUpper w < sscUpper s.aplla.ssc then s.aplla.ssc else w

/-- Whether every enabled output, and output `extra`, meets its ceiling as the registers stand (R227). -/
def State.ceilings (s : State) (extra : List Nat) : Bool :=
  ((List.range 8).filter (fun n => s.auxOn n || extra.contains n)).all (fun n => s.ceilOk n s.highN.1 s.highN.2 s.highSsc)

/-- Whether every enabled output meets its ceiling up to `n`. -/
def State.ceilUpTo (s : State) (n : Nat) (margin : Bool) : Bool :=
  ((List.range 8).filter (fun k => s.auxOn k)).all (fun k => s.ceilOk k n margin s.highSsc)

/-! ### Ramps and profiles (R223 to R225) -/

/-- Whether a move lies within 2 %. -/
def within2 (a b : Nat) : Bool := decide (50 * ((b : Int) - a).natAbs ≤ a)

/-- Whether a segment is no steeper than 2 % per ms. -/
def steepOk (a b us : Nat) : Bool := decide (50000 * ((b : Int) - a).natAbs ≤ a * us)

/-- Run a ramp from the present frequency. -/
def State.startRamp (s : State) (target us : Nat) : State :=
  { s.put pAPLL_A APLL_A.STATUS.STATE 3 with aplla := { s.aplla with n := s.nNow, ramp := some ⟨s.nNow, target, s.clk.slot, us⟩ } }

/-- Relock at an N word: outputs complete their periods and are held or bypassed (R224). -/
def State.startRelock (s : State) (n : Nat) : State :=
  { s.put pAPLL_A APLL_A.STATUS.STATE 4 with
    aplla := { s.aplla with n := n, nOld := s.nNow, ramp := none, profile := false, profileDone := false, points := [], passes := 0 } }

/-- Whether the bypass of an output would emit a period shorter than its old and new ones (R224). -/
def State.bypassShort (s : State) (old new : Nat) : Bool :=
  (List.range 8).any (fun k => s.auxOn k && s.flag (pAUX k) AUX.BYPASS_CFG.BYPASS &&
    (let shorter (n : Nat) : Bool := decide (s.get (pAUX k) AUX.BYPASS_CFG.BYPASS_DIV * 25 * (s.vco n).1 <
        s.get (pAUX k) AUX.DIV.DIV * (s.vco n).2 * 10 ^ 9)
     shorter old && shorter new))

/-- What SET, RUN_PROFILE and RELOCK share: APLL_A runs, no relock is under way, and no output of another agent is
enabled (R223, R230). -/
def State.apllaReady (s : State) : Option Verdict :=
  if s.apllaState = 0 then some ⟨.state, none⟩
  else if s.apllaState = 1 ∨ s.apllaState = 4 then some ⟨.busy, none⟩
  else s.auxForeign.map (fun a => ⟨.conflict, some a⟩)

/-- SET (R223). -/
def State.cmdSet (s : State) : State × Verdict :=
  let n := s.nNow
  let t := s.targetN
  let us := s.get pAPLL_A APLL_A.RAMP_US.US
  match s.apllaReady with
  | some v => (s, v)
  | none =>
    if s.flag pAPLL_A APLL_A.SSC_CFG.SSC_EN then refuse s .state
    else if !s.vcoOk t then refuse s .range
    else if within2 n t then
      if !steepOk n t us ∨ !s.ceilUpTo (max n t) true then refuse s .range
      else accept ({ s with aplla := { s.aplla with profile := false, profileDone := false, points := [] } }.startRamp t us)
    else if !s.ceilUpTo (max n t) false ∨ s.bypassShort n t then refuse s .range
    else accept (s.startRelock t)

/-- Point `k` of the profile: N word and time. -/
def State.point (s : State) (k : Nat) : Nat × Nat :=
  (s.get pAPLL_A (APLL_A.PROFILE_INT.N_INT k) * 2 ^ 32 + s.get pAPLL_A (APLL_A.PROFILE_FRAC.N_FRAC k), s.get pAPLL_A (APLL_A.PROFILE_US.US k))

/-- Whether a list of points can be reached one after another. -/
def segmentsOk (n : Nat) : List (Nat × Nat) → Bool
  | [] => true
  | p :: ps => steepOk n p.1 p.2 && segmentsOk p.1 ps

/-- RUN_PROFILE (R225): the profile that was checked is the one that plays. -/
def State.cmdRunProfile (s : State) : State × Verdict :=
  let n := s.nNow
  let len := s.get pAPLL_A APLL_A.PROFILE_CTL.LEN
  let pts := (List.range len).map (fun k => s.point k)
  let wrap := if s.get pAPLL_A APLL_A.PROFILE_CTL.LOOPS = 1 then [] else pts.take 1
  match s.apllaReady with
  | some v => (s, v)
  | none =>
    if s.flag pAPLL_A APLL_A.SSC_CFG.SSC_EN then refuse s .state
    else if !(pts.all (fun p => within2 n p.1 && s.vcoOk p.1)) ∨ !segmentsOk n (pts ++ wrap) ∨ !s.ceilUpTo (pts.foldl (fun a p => max a p.1) n) true then
      refuse s .range
    else
      let s1 := ((s.put pAPLL_A APLL_A.PROFILE_POS.LOOP 0).put pAPLL_A APLL_A.PROFILE_POS.POINT 0).startRamp (s.point 0).1 (s.point 0).2
      accept { s1 with aplla := { s1.aplla with profile := true, profileDone := false, points := pts, loops := s.get pAPLL_A APLL_A.PROFILE_CTL.LOOPS } }

/-- ABORT_RAMP holds the frequency reached (R223). -/
def State.cmdAbortRamp (s : State) : State × Verdict :=
  if s.aplla.ramp.isNone then refuse s .state
  else accept (({ s with aplla := { s.aplla with n := s.nNow, ramp := none, profile := false, profileDone := false, points := [] } }.put pAPLL_A APLL_A.STATUS.STATE 2).irq
    pAPLL_A 2)

/-- RELOCK at the present frequency (R224). -/
def State.cmdRelock (s : State) : State × Verdict :=
  match s.apllaReady with
  | some v => (s, v)
  | none => accept (s.startRelock s.nNow)

/-- A write of FREQ_CMD (R235). -/
def State.freqCmd (s : State) (v : Nat) : State × Verdict :=
  match bitsOf v 7 0 with
  | 1 => s.cmdSet
  | 2 => s.cmdRunProfile
  | 3 => s.cmdAbortRamp
  | 4 => s.cmdRelock
  | _ => refuse s .range

/-- Whether the ramp has reached its end. -/
def State.rampEndDue (s : State) : Bool := match s.aplla.ramp with | some r => decide (r.slot + r.us * 200 ≤ s.clk.slot) | none => false

/-- Approach point `k` of the profile that plays. -/
def State.toPoint (s : State) (k : Nat) : State :=
  let p := s.aplla.points.getD k (s.nNow, 1)
  (s.put pAPLL_A APLL_A.PROFILE_POS.POINT k).startRamp p.1 p.2

/-- The end of a ramp or of a segment (R223, R225). -/
def State.rampEnd (s : State) : State :=
  let s1 := { s with aplla := { s.aplla with n := s.nNow, ramp := none } }.irq pAPLL_A 2
  let k := s.get pAPLL_A APLL_A.PROFILE_POS.POINT + 1
  let n := s.get pAPLL_A APLL_A.PROFILE_POS.LOOP + 1
  if !s.aplla.profile then s1.put pAPLL_A APLL_A.STATUS.STATE 2
  else if k < s.aplla.points.length then s1.toPoint k
  else
    let s2 := s1.put pAPLL_A APLL_A.PROFILE_POS.LOOP (n % 65536)
    if s.aplla.loops ≠ 0 ∧ s.aplla.loops ≤ n then { s2 with aplla := { s2.aplla with profileDone := true } } else s2.toPoint 0

/-- RAMP_END (R223). -/
def execRampEnd (s : State) : Host.Outcome State Fault Refusal :=
  guarded .rampEnd s (fun s => if s.rampEndDue then s.rampEnd else s)

/-- PROFILE_DONE (R225). -/
def execProfileDone (s : State) : Host.Outcome State Fault Refusal :=
  guarded .profileDone s (fun s =>
    if s.aplla.profileDone then
      ({ s with aplla := { s.aplla with profile := false, profileDone := false, points := [] } }.put pAPLL_A APLL_A.STATUS.STATE 2).irq pAPLL_A 3
    else s)

/-- Zero crossings of the modulation up to a slot: one each period in DOWN, two in CENTRE (R226). -/
def State.zeroCrossings (s : State) (slot : Nat) : Nat :=
  (slot - s.aplla.sscSlot) * s.aplla.sscRate * (if bitsOf s.aplla.ssc 17 16 = 0 then 1 else 2) / 200000000

/-- Whether SSC_CFG or SSC_RATE takes effect: at a zero crossing of the modulation in force (R226). -/
def State.sscDue (s : State) : Bool :=
  let on := bitOf s.aplla.ssc 31
  s.apllaLocked && ((s.rd pAPLL_A APLL_A.SSC_CFG.off).toNat != s.aplla.ssc || (on && s.get pAPLL_A APLL_A.SSC_RATE.HZ != s.aplla.sscRate)) &&
    (!on || (decide (s.aplla.sscSlot < s.clk.slot) && s.zeroCrossings s.clk.slot != s.zeroCrossings (s.clk.slot - 1)))

/-- SSC_CHANGE (R226). -/
def execSscChange (s : State) : Host.Outcome State Fault Refusal :=
  guarded .sscChange s (fun s =>
    if s.sscDue then
      let w := (s.rd pAPLL_A APLL_A.SSC_CFG.off).toNat
      { s.putFlag pAPLL_A APLL_A.STATUS.SSC_ACTIVE (bitOf w 31) with
        aplla := { s.aplla with ssc := w, sscRate := s.get pAPLL_A APLL_A.SSC_RATE.HZ, sscSlot := s.clk.slot } }
    else s)

/-! ### Aux outputs (R228, R229) -/

/-- The VCO cycle at which an output that waits can start: its first full period, on the grid aligned at the lock (R228). -/
def State.auxStartAt (s : State) (n : Nat) : Nat :=
  let t := max 1 (s.get (pAUX n) AUX.DIV.DIV)
  let o := s.get (pAUX n) AUX.DELAY.DELAY_CYC
  o + ceilDiv (ceilDiv s.aplla.phase (2 ^ 64) - o) t * t

/-- Let an output start at its next full period, where APLL_A is locked. -/
def State.auxArm (s : State) (n : Nat) : State :=
  if s.apllaLocked ∧ s.auxOn n ∧ (s.aux n).safe.isEmpty ∧ !(s.aux n).running then s.setAux n { s.aux n with startAt := some (s.auxStartAt n) } else s

/-- Markers of an output whose instant has come (R229), or lies at or before an instant in 2^-32 SU. -/
def State.marksBy (s : State) (n : Nat) (t32 : Int) : List AuxMark := s.auxMarks.filter (fun m => m.n == n && decide (m.t * fine ≤ t32))

/-- Whether an output takes the markers of a sequencer. -/
def State.takesMark (s : State) (n q : Nat) : Bool :=
  s.get (pAUX n) AUX.MARK_CFG.MARK_MODE != 0 && s.get (pAUX n) AUX.MARK_CFG.MARK_SEQ == q

/-- Remove the markers of an output up to an instant. -/
def State.dropMarks (s : State) (n : Nat) (t32 : Int) : State :=
  { s with auxMarks := s.auxMarks.filter (fun m => !(m.n == n && decide (m.t * fine ≤ t32))) }

/-- Markers that meet a relock, a safe state or a disabled output (R229). -/
def State.loseMarks (s : State) (n : Nat) : State :=
  let k := ((s.marksBy n s.now32).filter (fun m => s.takesMark n m.q)).length
  (s.dropMarks n s.now32).onlyIf (decide (0 < k)) (fun s => (s.incSat (pAUX n) AUX.MARK_DROPS.COUNT k).irq (pAUX n) 1)

/-- Lock is declared for output `n`: the markers up to now met the relock; an output in its present period, of APLL_A whose cycles are
counted anew from `phase`, or of the bypass, first completes it, any other restarts (R224, R228, R229). -/
def State.auxLocked (s : State) (n phase : Nat) : State :=
  let s1 := s.loseMarks n
  let x := s1.aux n
  if x.running then
    if x.bypass then s1 else s1.setAux n { x with restart := true, endAt := ceilDiv (x.endAt * 2 ^ 64 - phase) (2 ^ 64) }
  else (s1.putFlag (pAUX n) AUX.STATUS.HELD false).auxArm n

/-- Lock is declared: dividers are aligned, and every enabled output restarts, after its present period if one is under way (R224, R228). -/
def State.apllaLockDeclared (s : State) : State :=
  let s1 := { (s.put pAPLL_A APLL_A.STATUS.STATE 2).irq pAPLL_A 0 with aplla := { s.aplla with phase := 0, step := 0 } }
  s1.forEach (List.range 8) (fun n s1 => s1.auxLocked n s.aplla.phase)

/-- A lock window of APLL_A ends (R202, R222). -/
def State.apllaWindow (s : State) (count : Nat) : State :=
  let w := 2 ^ s.get pAPLL_A APLL_A.LOCK_CFG.WINDOW_LOG2
  let pass := decide (((count : Int) - w).natAbs ≤ s.get pAPLL_A APLL_A.LOCK_CFG.TOLERANCE)
  let c := s.get pAPLL_A APLL_A.REF_CFG.REF_CHAN
  let back := !s.aplla.refLost || (s.chanMode c == 4 && (s.chan c).safe.isEmpty)
  if s.apllaState = 0 then s
  else if !back then { s with aplla := { s.aplla with passes := 0 } }
  else
    let s1 := { s with aplla := { s.aplla with refLost := false, passes := if pass then s.aplla.passes + 1 else 0 } }
    if s.apllaLocked then if pass then s1 else s1.apllaUnlock
    else if s.get pAPLL_A APLL_A.LOCK_CFG.WINDOWS ≤ s1.aplla.passes then s1.apllaLockDeclared
    else s1

/-- The instant on the timescale, in 2^-32 SU, of a VCO cycle of the last slot. -/
def State.cycle32 (s : State) (c : Nat) : Int :=
  s.now32 - roundEven ((s.aplla.phase - c * 2 ^ 64 : Nat) * (s.now32 - s.clk.prev32)) (max 1 s.aplla.step)

/-- The period that begins at a VCO cycle takes the markers at or before it (R229). -/
def State.takeMarks (s : State) (n c : Nat) : State :=
  let t32 := s.cycle32 c
  let k := ((s.marksBy n t32).filter (fun m => s.takesMark n m.q)).length
  let mode := s.get (pAUX n) AUX.MARK_CFG.MARK_MODE
  let x := s.aux n
  let gate := if k ≠ 0 ∧ mode = 1 then s.get (pAUX n) AUX.MARK_PERIODS.COUNT else x.gate - 1
  let s1 := ((s.dropMarks n t32).setAux n { x with gate := gate, suppressed := k != 0 && mode == 2 }).putFlag (pAUX n) AUX.STATUS.GATED
    (mode == 1 && gate == 0)
  s1.onlyIf (decide (0 < k)) (fun s => (s.incWrap (pAUX n) AUX.MARKS.COUNT k).irq (pAUX n) 0)

/-- An output stops at the end of its period and is driven low (R228). -/
def State.auxStop (s : State) (n : Nat) : State :=
  ((((s.setAux n { s.aux n with running := false, bypass := false, restart := false, startAt := none, gate := 0, suppressed := false }).putFlag
    (pAUX n) AUX.STATUS.RUNNING false).putFlag (pAUX n) AUX.STATUS.GATED false).putFlag (pAUX n) AUX.STATUS.BYPASSED false).auxPin n false

/-- Whether an output is to drive periods at all. -/
def State.auxWanted (s : State) (n : Nat) : Bool := s.auxOn n && s.apllaState != 0 && (s.aux n).safe.isEmpty

/-- Slots of a bypass period: 25 ns for each crystal cycle (R224). -/
def State.bypassSlots (s : State) (n : Nat) : Nat := 5 * max 1 (s.get (pAUX n) AUX.BYPASS_CFG.BYPASS_DIV)

/-- A running output comes to the end of a period without lock: it is held low, or goes on from the crystal after a low phase of one bypass
period (R224; log 96). -/
def State.auxUnlocked (s : State) (n : Nat) : State :=
  if s.flag (pAUX n) AUX.BYPASS_CFG.BYPASS then
    ((s.auxStop n).putFlag (pAUX n) AUX.STATUS.BYPASSED true).setAux n
      { s.aux n with bypass := true, low := true, restart := false, endAt := s.clk.slot + s.bypassSlots n, gate := 0, suppressed := false }
  else (s.auxStop n).putFlag (pAUX n) AUX.STATUS.HELD true

/-- The end of a period of a running output (R224, R228, R229): where lock was declared within it, the output restarts on the aligned grid.
A new DELAY_CYC lengthens one period. -/
def State.auxPeriod (s : State) (n : Nat) : State :=
  let x := s.aux n
  if !s.auxWanted n then s.auxStop n
  else if !s.apllaLocked then s.auxUnlocked n
  else if x.restart then (s.auxStop n).auxArm n
  else
    let div := max 1 (s.get (pAUX n) AUX.DIV.DIV)
    let delay := s.get (pAUX n) AUX.DELAY.DELAY_CYC
    let shift := (((delay : Int) - x.delay) % (div : Nat)).toNat
    (s.setAux n { x with div := div, delay := delay, endAt := x.endAt + div + shift }).takeMarks n x.endAt

/-- The end of a period on the crystal bypass (R224): a lock found meanwhile lets the output restart. -/
def State.bypassPeriod (s : State) (n : Nat) : State :=
  let x := s.aux n
  if !s.auxWanted n then s.auxStop n
  else if s.apllaLocked then (s.auxStop n).auxArm n
  else if !s.flag (pAUX n) AUX.BYPASS_CFG.BYPASS then (s.auxStop n).putFlag (pAUX n) AUX.STATUS.HELD true
  else ((s.setAux n { x with low := false, endAt := x.endAt + s.bypassSlots n }).putFlag (pAUX n) AUX.STATUS.RUNNING true).onlyIf x.low
    (fun s => s.auxPin n true)

/-- The first period of an output begins at a VCO cycle. -/
def State.auxBegin (s : State) (n c : Nat) : State :=
  let div := max 1 (s.get (pAUX n) AUX.DIV.DIV)
  (((s.setAux n { s.aux n with
      running := true, bypass := false, startAt := none, endAt := c + div, div := div, delay := s.get (pAUX n) AUX.DELAY.DELAY_CYC }).putFlag
    (pAUX n) AUX.STATUS.RUNNING true).auxPin n true).takeMarks n c

/-- Whether an output is held low for a relock that no longer concerns it. -/
def State.heldOver (s : State) (n : Nat) : Bool := s.flag (pAUX n) AUX.STATUS.HELD && !s.auxWanted n

/-- Whether an enabled output waits, with lock, for its first full period: markers that fall meanwhile act there (R229). -/
def State.auxWaits (s : State) (n : Nat) : Bool :=
  s.apllaLocked && s.auxWanted n && ((s.aux n).startAt.isSome || ((s.aux n).running && (s.aux n).bypass))

/-- Whether a marker has come that no period of the output takes. -/
def State.marksLost (s : State) (n : Nat) : Bool := !s.auxWaits n && !(s.marksBy n s.now32).isEmpty

/-- Whether something happens at an output now: a period ends, it starts, or a marker meets no period. -/
def State.auxDue (s : State) (n : Nat) : Bool :=
  let x := s.aux n
  if x.running && !x.bypass then decide (x.endAt * 2 ^ 64 ≤ s.aplla.phase)
  else (x.running && decide (x.endAt ≤ s.clk.slot)) || s.heldOver n || s.marksLost n ||
    (match x.startAt with | some c => decide (c * 2 ^ 64 ≤ s.aplla.phase) | none => false)

/-- What happens at an output that drives no periods of APLL_A. -/
def State.auxIdle (s : State) (n : Nat) : State :=
  let s1 := (s.onlyIf (s.marksLost n) (fun s => s.loseMarks n)).onlyIf (s.heldOver n) (fun s => s.putFlag (pAUX n) AUX.STATUS.HELD false)
  let x := s1.aux n
  if x.running then (if x.endAt ≤ s.clk.slot then s1.bypassPeriod n else s1)
  else match x.startAt with
    | some c =>
      if s.aplla.phase < c * 2 ^ 64 then s1
      else if s.apllaLocked ∧ s.auxWanted n then s1.auxBegin n c
      else s1.setAux n { x with startAt := none }
    | none => s1

/-- AUX_PERIOD_END (R228). -/
def execAuxPeriodEnd (n : Nat) (s : State) : Host.Outcome State Fault Refusal :=
  guarded (.auxPeriodEnd n) s (fun s =>
    if !s.auxDue n then s
    else if (s.aux n).running && !(s.aux n).bypass then s.auxPeriod n
    else s.auxIdle n)

/-- Safe state of an output: it completes its period and drives low (R228). -/
def State.auxSafe (s : State) (n : Nat) (cause : SafeCause) : State :=
  let x := s.aux n
  s.setAux n { x with safe := if x.safe.contains cause then x.safe else x.safe ++ [cause], startAt := none }

/-- Leave safe state, restarting as at ENABLE (R228). -/
def State.auxSafeLeave (s : State) (n : Nat) : State := (s.setAux n { s.aux n with safe := [] }).auxArm n

/-- Setting ENABLE of APLL_A, whose new CONTROL stands in `s` (R221, R222). -/
def State.apllaStart (s : State) : State × Verdict :=
  let c := s.get pAPLL_A APLL_A.REF_CFG.REF_CHAN
  let src := s.flag pAPLL_A APLL_A.REF_CFG.REF_SRC
  let p := (s.clockPH c).1
  if src ∧ 48 ≤ c then refuse s .range
  else if src ∧ s.pageOwner (pCHAN c) ≠ s.pageOwner pAPLL_A then (s, ⟨.denied, some (s.pageOwner (pCHAN c))⟩)
  else if src ∧ (s.chanMode c ≠ 4 ∨ p < 81920 * fine ∨ 6553600 * fine < p) then refuse s .state
  else if !s.pfdOk ∨ !s.vcoOk s.targetN ∨ !s.ceilUpTo s.targetN false then refuse s .range
  else accept { s.put pAPLL_A APLL_A.STATUS.STATE 1 with aplla := { (({} : ApllaSt)) with n := s.targetN, nOld := s.targetN, phase := s.aplla.phase } }

/-- ENABLE of APLL_A is cleared: every output stops at the end of its period (R228, R235). -/
def State.apllaStop (s : State) : State :=
  { (s.put pAPLL_A APLL_A.STATUS.STATE 0).putFlag pAPLL_A APLL_A.STATUS.SSC_ACTIVE false with
    aplla := { s.aplla with n := s.nNow, nOld := s.nNow, ramp := none, profile := false, profileDone := false, points := [], passes := 0, ssc := 0,
                            refLost := false } }

/-- Setting ENABLE of an output (R227, R228). -/
def State.auxStart (s : State) (n : Nat) : State × Verdict :=
  if !s.ceilings [n] then refuse s .range else accept (s.auxArm n)

/-- The reference channel of an enabled APLL_A keeps CLOCK mode, PERIOD, PERIOD_FRAC and ORIGIN (R222). -/
def State.refChanHeld (s : State) (c : Nat) : Bool :=
  s.apllaState != 0 && s.flag pAPLL_A APLL_A.REF_CFG.REF_SRC && s.get pAPLL_A APLL_A.REF_CFG.REF_CHAN == c

end Sys2Proof.Machine
end

