-- ==== Sys2Proof/Machine/Eave.lean ====
section
/-! DEFINITION. The Eave: calendar clock, sync and seed bound, monitors, decision program, power and alert pins, wake and
alarm, and the event log (chapter 12). The 32.768 kHz crystal of the model is nominal: a count edge every 390 625/64
slots (log 20). -/

namespace Sys2Proof.Machine

/-- MAIN_ON: the core is at Stage 1 or later (R279). -/
def State.mainOn (s : State) : Bool := s.flag pEAVE EAVE.STATUS.MAIN_ON

/-! ### The log (R291) -/

/-- The calendar as one count of 2^-15 s (R278). -/
def State.calCount (s : State) : Nat := s.rdN pEAVE EAVE.CAL_NOW.off 2

/-- Write a log entry (R291); an overwritten one sets WRAPPED and LOG_WRAP. -/
def State.eaveLog (s : State) (code data : Nat) : State :=
  let h := s.get pEAVE EAVE.LOG_STATE.HEAD
  let n := s.calCount
  let q := s.get pEAVE EAVE.LOG_STATE.SEQ_NEXT
  let rec_ := packRec [(80, 48, n / 32768), (79, 1, s.get pEAVE EAVE.STATUS.CAL_VALID), (64, 15, n), (48, 16, data), (40, 8, code), (8, 24, q)]
  let s1 := ((s.put pEAVE (EAVE.LOG.ENTRY h) rec_).put pEAVE EAVE.LOG_STATE.HEAD (h + 1)).put pEAVE EAVE.LOG_STATE.SEQ_NEXT (q + 1)
  let s1 : State := { s1 with eave := { s1.eave with logBad := s1.eave.logBad.filter (· ≠ h), logCount := min 64 (s1.eave.logCount + 1) } }
  if s.eave.logCount < 64 then s1
  else (s1.putFlag pEAVE EAVE.LOG_STATE.WRAPPED true).irq pEAVE 1

/-- CLEAR of LOG_CMD empties the log and keeps SEQ_NEXT (R291). -/
def State.eaveLogClear (s : State) : State :=
  let s1 := ((s.put pEAVE EAVE.LOG_STATE.HEAD 0).putFlag pEAVE EAVE.LOG_STATE.WRAPPED false).forEach (List.range 64) (fun e s =>
    s.put pEAVE (EAVE.LOG.ENTRY e) 0)
  { s1 with eave := { s1.eave with logCount := 0, logBad := [] } }

/-- A log entry as it reads: one whose ECC fails reads with CODE 0xFF (R291). -/
def State.logEntry (s : State) (e : Nat) : Nat :=
  if s.eave.logBad.contains e then putBits (s.get pEAVE (EAVE.LOG.ENTRY e)) 47 40 0xFF else s.get pEAVE (EAVE.LOG.ENTRY e)

/-! ### Pins (R288, R290) -/

/-- Drive PWR_EN; every change is logged with its cause (R288). -/
def State.setPwr (s : State) (high : Bool) (cause : Nat) : State :=
  if s.flag pEAVE EAVE.PWR_STATE.PWR_EN = high then s
  else
    let s1 := ((s.putFlag pEAVE EAVE.PWR_STATE.PWR_EN high).putFlag pEAVE EAVE.STATUS.PWR_EN high).put pEAVE EAVE.PWR_STATE.CAUSE cause
    (s1.eaveLog (if high then 4 else 5) cause).emit (.pwrEn high)

/-- A pending PWR_OFF goes (R288). -/
def State.cancelDown (s : State) : State :=
  { s.putFlag pEAVE EAVE.PWR_STATE.DOWN_PENDING false with eave := { s.eave with downAt := none } }

/-- PWR_ON takes effect: it cancels a pending PWR_OFF and drives PWR_EN high (R288). -/
def State.pwrOnNow (s : State) (cause : Nat) : State := s.cancelDown.setPwr true cause

/-- PWR_OFF with MAIN_ON: POWER_DOWN, and the pin goes low DOWN_DELAY_MS later; one that waits already stands (R288). -/
def State.pwrOffDelayed (s : State) (cause : Nat) : State :=
  if s.eave.downAt.isSome then s
  else
    let s1 := (s.irq pEAVE 5).putFlag pEAVE EAVE.PWR_STATE.DOWN_PENDING true
    { s1 with eave := { s1.eave with downAt := some (s.eave.ticks + s.get pEAVE EAVE.PWR_CFG.DOWN_DELAY_MS * 200000, cause) } }

/-- PWR_OFF as it takes effect at a count edge (R288). -/
def State.pwrOffNow (s : State) (cause : Nat) : State := if s.mainOn then s.pwrOffDelayed cause else s.setPwr false cause

/-- Assert or release EAVE_ALERT (R290). -/
def State.setAlert (s : State) (on : Bool) : State :=
  if s.flag pEAVE EAVE.STATUS.ALERT = on then s else (s.putFlag pEAVE EAVE.STATUS.ALERT on).emit (.alert on)

/-- Put a command in line for the next count edge. -/
def State.eaveWait (s : State) (c : EaveCmd) : State := { s with eave := { s.eave with cmds := s.eave.cmds ++ [c] } }

/-- PWR_DOWN_DELAY_EXPIRY (R288). -/
def State.downDue (s : State) : Bool := match s.eave.downAt with | some d => decide (d.1 ≤ s.eave.ticks) | none => false

def execPwrDownDelayExpiry (s : State) : Host.Outcome State Fault Refusal :=
  guarded .pwrDownDelayExpiry s (fun s =>
    match s.eave.downAt with
    | some d => if d.1 ≤ s.eave.ticks then s.cancelDown.setPwr false d.2 else s
    | none => s)

/-! ### The calendar (R278, R280) -/

/-- Set CAL_UNC, from where it grows (R280). -/
def State.setCalUnc (s : State) (ns : Nat) : State :=
  { s.put pEAVE EAVE.CAL_UNC.NS (min ns 18446744073709551615) with
    eave := { s.eave with uncBase := min ns 18446744073709551615, uncGrowth := 0 } }

/-- The calendar in 2^-32 SU (R278). -/
def State.calFine (s : State) : Nat := s.calCount * 2000000000 * 2 ^ 32 + s.get pEAVE EAVE.CAL_FRAC.FRAC * 131072000000000

/-- Load the calendar from a timescale value in 2^-32 SU, in units of 2^-31 s. -/
def State.loadCal (s : State) (t32 : Int) : State :=
  let u := (roundEven t32 131072000000000).toNat
  (s.wrN pEAVE EAVE.CAL_NOW.off 2 (u / 65536 % 2 ^ 63)).put pEAVE EAVE.CAL_FRAC.FRAC u

/-- The raw position of the last count edge, in SU from TCLK count zero. -/
def State.edgePos (s : State) : Int := 40960 * (s.clk.tclk : Int) - 5120 * (s.eave.phase : Int)

/-- What a command does at its count edge (R280, R288). -/
def State.eaveCmd (s : State) (c : EaveCmd) : State :=
  match c with
  | .set origin =>
    let s1 := (s.wrN pEAVE EAVE.CAL_NOW.off 2 (s.get pEAVE EAVE.CAL_SET.VALUE % 2 ^ 63)).put pEAVE EAVE.CAL_FRAC.FRAC 0
    ((s1.setCalUnc (s.get pEAVE EAVE.CAL_SET_UNC.NS)).putFlag pEAVE EAVE.STATUS.CAL_VALID true).eaveLog 9 origin
  | .pwrOn cause => s.setPwr true cause
  | .pwrOff cause => s.pwrOffNow cause

/-- Whether the calendar lies at or after a nonzero ALARM_AT (R289). -/
def State.alarmReached (s : State) : Bool :=
  s.get pEAVE EAVE.ALARM_AT.SECONDS != 0 && decide (s.get pEAVE EAVE.ALARM_AT.SECONDS ≤ s.calCount / 32768)

/-- One count edge (R278, R280, R281, R289): the trimmed count, the growth of CAL_UNC, the load of a sync, the commands that wait, and
the comparison with ALARM_AT. -/
def State.countEdge (s : State) : State :=
  let trim := s.getI pEAVE EAVE.CAL_CFG.TRIM
  let acc := s.eave.trimAcc + trim.natAbs
  let extra := decide (2 ^ 20 ≤ acc)
  let n := if !extra then 1 else if 0 < trim then 2 else 0
  let growth := s.eave.uncGrowth + n * s.get pEAVE EAVE.DRIFT_PPB.PPB
  let s1 := { s.wrN pEAVE EAVE.CAL_NOW.off 2 ((s.calCount + n) % 2 ^ 63) with
    eave := { s.eave with edges := s.eave.edges + 1, trimAcc := if extra then acc - 2 ^ 20 else acc, uncGrowth := growth, cmds := [] } }
  let s2 := s1.put pEAVE EAVE.CAL_UNC.NS (min (s.eave.uncBase + ceilDiv growth 32768) 18446744073709551615)
  let s3 := if s2.eave.syncLoad then
      { s2.loadCal (tsAtRaw32 s2.clk s2.edgePos) with eave := { s2.eave with syncLoad := false } }
    else s2
  let s4 := s3.forEach s.eave.cmds (fun c s => s.eaveCmd c)
  { s4 with eave := { s4.eave with alarmHit := s4.alarmReached } }

/-- One tick of the model's clock in the Eave: a count edge when its time has come. -/
def State.eaveTick (s : State) : State :=
  let e := s.eave
  let s1 := { s with eave := { e with ticks := e.ticks + 1 } }
  if e.stopped then s1
  else if e.phase + 64 < 390625 then { s1 with eave := { s1.eave with phase := e.phase + 64 } }
  else { s1 with eave := { s1.eave with phase := e.phase + 64 - 390625 } }.countEdge

/-! ### UTC and leap seconds (R18, R19, R279) -/

/-- The offset after a pending leap: one more for an insertion, one less for a deletion (R19). -/
def leapOffset (offset pending : Nat) : Nat := ofSigned 16 (toSigned 16 offset + (if pending = 1 then 1 else -1))

/-- Whether LEAP_INSTANT passes the day test for an announcement (R19). -/
def leapDayOk (offset pending inst : Nat) : Bool := ((inst : Int) - toSigned 16 (leapOffset offset pending)) % 86400 == 0

/-- The refusal of an announcement (R19): the day test, then 1 s of notice on the timescale, or on the Eave's calendar before
seeding, below Stage 2 (R315) and while the core is down. -/
def State.leapRefusal (s : State) (offset pending inst : Nat) (byCal : Bool) : Option Res :=
  if pending = 0 then none
  else if !leapDayOk offset pending inst then some .range
  else if byCal then if inst * (suSec * fine) < s.calFine + suSec * fine then some .late else none
  else if (inst * suSec : Nat) * fine < s.now32 + (suSec : Int) * fine then some .late
  else none

/-- Copy the three fields from TSC to the Eave (R279). -/
def State.copyLeap (s : State) : State :=
  ((s.put pEAVE EAVE.UTC_OFFSET.OFFSET (s.get pTSC TSC.UTC_OFFSET.OFFSET)).put pEAVE EAVE.LEAP_CFG.LEAP_PENDING (s.get pTSC
    TSC.LEAP_CFG.LEAP_PENDING)).put pEAVE EAVE.LEAP_INSTANT.SECONDS (s.get pTSC TSC.LEAP_INSTANT.SECONDS)

/-- Load the three fields of TSC from the Eave at Stage 1 (R279). -/
def State.loadLeap (s : State) : State :=
  ((s.put pTSC TSC.UTC_OFFSET.OFFSET (s.get pEAVE EAVE.UTC_OFFSET.OFFSET)).put pTSC TSC.LEAP_CFG.LEAP_PENDING (s.get pEAVE
    EAVE.LEAP_CFG.LEAP_PENDING)).put pTSC TSC.LEAP_INSTANT.SECONDS (s.get pEAVE EAVE.LEAP_INSTANT.SECONDS)

/-- Calendar seconds. -/
def State.calSeconds (s : State) : Nat := s.calCount / 32768

/-- EAVE_LEAP is due: the core does not run and the calendar has reached LEAP_INSTANT (R279). -/
def State.eaveLeapDue (s : State) : Bool :=
  !s.mainOn && s.get pEAVE EAVE.LEAP_CFG.LEAP_PENDING != 0 && decide (s.get pEAVE EAVE.LEAP_INSTANT.SECONDS ≤ s.calSeconds)

/-- EAVE_LEAP (R279). -/
def execEaveLeap (s : State) : Host.Outcome State Fault Refusal :=
  guarded .eaveLeap s (fun s =>
    if s.eaveLeapDue then
      let o := leapOffset (s.get pEAVE EAVE.UTC_OFFSET.OFFSET) (s.get pEAVE EAVE.LEAP_CFG.LEAP_PENDING)
      ((s.put pEAVE EAVE.UTC_OFFSET.OFFSET o).put pEAVE EAVE.LEAP_CFG.LEAP_PENDING 0).eaveLog 0x0B o
    else s)

/-- Days since 1970-01-01 as year, month, day of the proleptic Gregorian calendar. -/
def civil (days : Int) : Int × Nat × Nat :=
  let z := days + 719468
  let era := z / 146097
  let doe := (z % 146097).toNat
  let yoe := (doe - doe / 1460 + doe / 36524 - doe / 146096) / 365
  let doy := doe - (365 * yoe + yoe / 4 - yoe / 100)
  let mp := (5 * doy + 2) / 153
  let m := if mp < 10 then mp + 3 else mp - 9
  (era * 400 + yoe + (if m ≤ 2 then 1 else 0), m, doy - (153 * mp + 2) / 5 + 1)

/-- UTC_DATE and UTC_TIME of the calendar (R279): SECONDS - UTC_OFFSET, the inserted leap second read as second 60. -/
def State.utcWords (s : State) : Nat × Nat :=
  let t : Int := s.calSeconds
  let leap := s.get pEAVE EAVE.LEAP_CFG.LEAP_PENDING = 1 ∧ t + 1 = s.get pEAVE EAVE.LEAP_INSTANT.SECONDS
  let u := t - s.getI pEAVE EAVE.UTC_OFFSET.OFFSET - (if leap then 1 else 0)
  let d := u / 86400
  let r := (u % 86400).toNat
  let c := civil d
  (packRec [(16, 16, ofSigned 16 c.1), (12, 3, ((d + 3) % 7).toNat + 1), (8, 4, c.2.1), (0, 5, c.2.2)],
    packRec [(16, 5, r / 3600), (8, 6, r % 3600 / 60), (0, 6, r % 60 + (if leap then 1 else 0))])

/-! ### Sync (R281) -/

/-- At a whole second of the timescale a sync is taken up where R281 asks for one. -/
def State.eaveSecond (s : State) : State :=
  let sec := s.now32 / (suSec * fine)
  if !s.clk.seeded ∨ sec ≤ s.eave.second then s
  else
    let teb := s.tebTs (sec * suSec)
    let want := decide (2 ≤ s.stage) && (s.eave.syncNow || (s.flag pEAVE EAVE.CAL_CFG.AUTO_SYNC && teb != tebUnknown &&
      decide (teb + 1000 < s.get pEAVE EAVE.CAL_UNC.NS * 1000)))
    { s with eave := { s.eave with
        second := sec
        syncNow := s.eave.syncNow && !want
        syncAt := if want then some (sec.toNat, teb) else s.eave.syncAt
        -- E is the first count edge after S: one of this slot may be it.
        syncEdge := if want then (if sec * (suSec * fine) < tsAtRaw32 s.clk s.edgePos then s.eave.edges - 1 else s.eave.edges) else s.eave.syncEdge } }

/-- CALENDAR_SYNC is due: the first count edge after the second has come. -/
def State.syncDue (s : State) : Bool := s.eave.syncAt.isSome && decide (s.eave.syncEdge < s.eave.edges)

/-- The sync (R281): CAL_ERR, LAST_SYNC and CAL_UNC now, the calendar at the next count edge. -/
def State.calendarSync (s : State) : State :=
  match s.eave.syncAt with
  | none => s
  | some (sec, teb) =>
    let err := roundEven ((s.calFine : Int) - tsAtRaw32 s.clk s.edgePos) (65536 * 2 ^ 32)
    let sat (w : Nat) (x : Int) : Int := max (-(2 ^ (w - 1) : Int)) (min (2 ^ (w - 1) - 1) x)
    let s1 := ((s.putI pEAVE EAVE.CAL_ERR.NS (sat 32 err)).put pEAVE EAVE.LAST_SYNC.SECONDS sec).putFlag pEAVE EAVE.STATUS.CAL_VALID true
    let s2 := s1.setCalUnc (if teb = tebUnknown then 18446744073709551615 else ceilDiv (teb + 1000) 1000)
    let s3 := if s.eave.synced then s2 else s2.eaveLog 0x0A (ofSigned 16 (sat 16 (roundEven err 1000)))
    { s3 with eave := { s3.eave with syncAt := none, syncLoad := true, synced := true } }

/-- CALENDAR_SYNC (R281). -/
def execCalendarSync (s : State) : Host.Outcome State Fault Refusal :=
  guarded .calendarSync s (fun s => if s.syncDue then s.calendarSync else s)

/-- TRIM_RENEW (R281): Kalwin firmware writes TRIM once an hour while AUTO_SYNC is set. -/
def execTrimRenew (trim : Nat) (s : State) : Host.Outcome State Fault Refusal :=
  guarded (.trimRenew trim) s (fun s =>
    if s.flag pEAVE EAVE.CAL_CFG.AUTO_SYNC ∧ 2 ≤ s.stage ∧ trim ≠ 256 then s.put pEAVE EAVE.CAL_CFG.TRIM trim else s)

/-! ### Supply and crystal (R275, R276, R278) -/

/-- EAVE_SWITCHOVER (R275). -/
def execEaveSwitchover (toVbat : Bool) (s : State) : Host.Outcome State Fault Refusal :=
  guarded (.eaveSwitchover toVbat) s (fun s =>
    if s.flag pEAVE EAVE.STATUS.ON_VBAT = toVbat then s
    else ((s.putFlag pEAVE EAVE.STATUS.ON_VBAT toVbat).irq pEAVE 2).eaveLog (if toVbat then 2 else 3) 0)

/-- Words of the EAVE page header that belong to the core's side: ownership, interrupt routing and LAST_CMD. -/
def eaveCoreWord (o : Nat) : Bool := o == 0x00C || o == 0x01C || o == 0x020 || o == 0x02C

/-- The Eave's power-on reset (R276, R313). What the core keeps of the calendar's sync (the whole second last seen, SYNC_NOW, the first sync
of this start) and the level of WAKE_IN are not the Eave's to lose; RESET_CAUSE names SUPPLY as well while the core's supplies are below
their thresholds (R313). -/
def State.eavePor (s : State) : State :=
  let on := s.mainOn
  let s1 := { s with
    regs := s.regs.filter (fun e => !(e.1 / 4096 == pEAVE && !eaveCoreWord (e.1 % 4096)))
    eave := { second := s.eave.second, syncNow := s.eave.syncNow, synced := s.eave.synced, wakeLevel := s.eave.wakeLevel } }
  let s2 := (if s.flag pEAVE EAVE.PWR_STATE.PWR_EN then s1 else s1.emit (.pwrEn true)).put pDEV ⟨DEV.RESET_CAUSE.off, 3, 0⟩
    (if s.power.low then 9 else 8)
  let s3 := (s2.putFlag pEAVE EAVE.STATUS.MAIN_ON on).onlyIf on State.copyLeap
  (s3.eaveLog 1 0).err pEAVE 0

/-- EAVE_POR (R276). -/
def execEavePor (s : State) : Host.Outcome State Fault Refusal := guarded .eavePor s State.eavePor

/-- XT32_FAULT (R278): the crystal has stood still for 1 ms, and the calendar keeps its value. -/
def execXt32Fault (s : State) : Host.Outcome State Fault Refusal :=
  guarded .xt32Fault s (fun s => { s with eave := { s.eave with stopped := true } }.err pEAVE 3)

/-! ### Monitors (R283, R284) -/

/-- Twice the voltage in microvolts that a SOURCE compares (R284): the pins, half of VBAT, VDD_HV and VDD_IO, and
0.600 V + 2.000 mV/°C x (Tj - 25 °C). -/
def sourceTwice (x : SourceLevels) (source : Nat) : Int :=
  match source with
  | 0 => 2 * x.ain0
  | 1 => 2 * x.ain1
  | 2 => x.vbat
  | 3 => x.vddHv
  | 4 => x.vddIo
  | _ => 2 * (600000 + 2 * (x.tj - 25000))

/-- Sample monitor `k` in its window (R283): its source against LO and HI, in steps of 1.757 812 5 mV (R284). -/
def State.monitorSample (s : State) (k : Nat) (x : SourceLevels) : State :=
  if !s.flag pEAVE (EAVE.MON_CFG.ENABLE k) then s
  else
    let u := sourceTwice x (s.get pEAVE (EAVE.MON_CFG.SOURCE k))
    let below := decide (8 * u < 28125 * s.get pEAVE (EAVE.MON_CFG.LO k))
    let above := decide (28125 * (s.get pEAVE (EAVE.MON_CFG.HI k) : Int) < 8 * u)
    let out := below || above
    let s1 := ((s.putFlag pEAVE (EAVE.MON_STATE.ABOVE k) above).putFlag pEAVE (EAVE.MON_STATE.BELOW k) below).put pEAVE ⟨EAVE.LAST_SAMPLE.off, k, k⟩
      (b2n out)
    let set := s.flag pEAVE ⟨EAVE.LATCH.off, k, k⟩
    if out then
      if set then s1
      else ((s1.put pEAVE ⟨EAVE.LATCH.off, k, k⟩ 1).irq pEAVE 0).onlyIf (s.flag pEAVE (EAVE.MON_CFG.LOG_ON_LATCH k)) (fun s => s.eaveLog 6 k)
    else if s.flag pEAVE (EAVE.MON_CFG.CLEAR_MODE k) then s1.put pEAVE ⟨EAVE.LATCH.off, k, k⟩ 0
    else s1

/-- The period of the monitor tick in count edges: 2^(TICK_SEL - 4) s (R283). -/
def State.tickEdges (s : State) : Nat := 2 ^ (s.get pEAVE EAVE.MON_TICK.TICK_SEL + 11)

/-- Whether a monitor tick has come: a period after the one before it (R283). DESIGN CHOICE (log 20): ticks fall on count edges, and the
first comes a period after the Eave's power-on reset; after a write of TICK_SEL the next comes one new period after the last. -/
def State.monitorDue (s : State) : Bool := decide (s.eave.tickEdge + s.tickEdges ≤ s.eave.edges)

/-- A monitor tick (R283, R275): what monitors 0 to 7 find in their windows, then VBAT; the program starts after them. -/
def State.monitorTick (s : State) (samples : List SourceLevels) : State :=
  let s0 : State := { s with eave := { s.eave with tickEdge := s.eave.edges - (s.eave.edges - s.eave.tickEdge) % s.tickEdges } }
  let s1 := s0.forEach (List.range 8) (fun k s => s.monitorSample k (samples.getD k {}))
  let low := decide ((samples.getD 8 {}).vbat < 2000000)
  let s2 := s1.putFlag pEAVE EAVE.STATUS.VBAT_LOW low
  let fresh := low && !s.flag pEAVE EAVE.STATUS.VBAT_LOW
  let s3 := (s2.onlyIf (fresh || low && !s2.errSet pEAVE 2) (fun s => s.err pEAVE 2)).onlyIf fresh (fun s => s.eaveLog 0x0C 0)
  let s4 := { s3 with flash := { s3.flash with trial := s3.flash.trial.map (fun (t : Trial) => { t with ticked := true }) } }
  if s4.flag pEAVE EAVE.PROG_CTL.RUN then { s4 with eave := { s4.eave with pc := some 0, c := false, progEdge := s4.eave.edges } } else s4

/-- MONITOR_TICK (R283). -/
def execMonitorTick (samples : List SourceLevels) (s : State) : Host.Outcome State Fault Refusal :=
  guarded (.monitorTick samples) s (fun s => if s.monitorDue then s.monitorTick samples else s)

/-! ### The decision program (R285 to R287) -/

/-- The instruction at an address. -/
def State.progWord (s : State) (a : Nat) : Nat :=
  if a % 2 = 0 then s.get pEAVE (EAVE.PROG.INSTR_LO (a / 2)) else s.get pEAVE (EAVE.PROG.INSTR_HI (a / 2))

/-- Whether a source number is defined (R287). -/
def srcOk (n : Nat) : Bool := decide (n ≤ 0x15) || (decide (0x18 ≤ n) && decide (n ≤ 0x23))

/-- Whether an instruction at an address passes the check of RUN (R285, R286). -/
def progOk (a w : Nat) : Bool :=
  match bitsOf w 15 12 with
  | 0 => w == 0
  | 1 => bitsOf w 10 6 == 0 && srcOk (bitsOf w 5 0)
  | 2 => bitsOf w 10 6 == 0 && srcOk (bitsOf w 5 0)
  | 3 => bitsOf w 10 6 == 0 && srcOk (bitsOf w 5 0)
  | 4 => bitsOf w 11 3 == 0
  | 5 => bitsOf w 10 6 == 0 && decide (a < bitsOf w 5 0)
  | 6 => bitsOf w 11 2 == 0
  | 7 => bitsOf w 11 10 == 0
  | 8 => bitsOf w 11 3 == 0 && decide (bitsOf w 2 0 ≤ 3)
  | 9 => bitsOf w 11 7 == 0
  | 10 => bitsOf w 11 8 == 0
  | _ => false

/-- Whether the whole program passes. -/
def State.progAllOk (s : State) : Bool := (List.range 64).all (fun a => progOk a (s.progWord a))

/-- A source of TEST, AND and OR (R287). -/
def State.progSrc (s : State) (n : Nat) : Bool :=
  if n < 0x08 then bitOf (s.get pEAVE EAVE.LATCH.LATCH) n
  else if n < 0x10 then bitOf (s.get pEAVE EAVE.LAST_SAMPLE.OUTSIDE) (n - 8) && s.flag pEAVE (EAVE.MON_CFG.ENABLE (n - 8))
  else if n = 0x10 then s.eave.wakeLevel
  else if n = 0x11 then s.eave.wakeSeen
  else if n = 0x12 then s.mainOn
  else if n = 0x13 then s.flag pEAVE EAVE.STATUS.ON_VBAT
  else if n = 0x14 then s.eave.alarmSeen
  else if n = 0x15 then s.flag pEAVE EAVE.PWR_STATE.PWR_EN
  else if n < 0x20 then bitOf (s.get pEAVE EAVE.PROG_STATE.FLAGS) (n - 0x18)
  else bitsOf (s.get pEAVE EAVE.PROG_CNT.COUNTERS) (8 * (n - 0x20) + 7) (8 * (n - 0x20)) == 0

/-- The instruction that runs at this count edge: its address and word. -/
def State.progDue (s : State) : Option (Nat × Nat) :=
  match s.eave.pc with
  | some a => if s.eave.progEdge < s.eave.edges then some (a, s.progWord a) else none
  | none => none

/-- The end of a run at address `a` (R285, R287). -/
def State.progEnd (s : State) (a : Nat) : State :=
  { s.put pEAVE EAVE.PROG_STATE.LAST_PC a with eave := { s.eave with pc := none, wakeSeen := false, alarmSeen := false } }

/-- Go on at address `b` at the next count edge; the run stops after address 63. -/
def State.progGoto (s : State) (a b : Nat) : State :=
  if 64 ≤ b then s.progEnd a else { s with eave := { s.eave with pc := some b, progEdge := s.eave.edges } }

/-- Run the instruction due, if it is one of opcode `op`. -/
def State.progRun (s : State) (op : Nat) (f : Nat → State → State) : State :=
  match s.progDue with
  | some (a, w) => if bitsOf w 15 12 = op then (f w s).progGoto a (a + 1) else s
  | none => s

/-- Put C. -/
def State.putC (s : State) (b : Bool) : State := { s with eave := { s.eave with c := b } }

/-- The operand of TEST, AND and OR: source XOR INV. -/
def State.progOperand (s : State) (w : Nat) : Bool := s.progSrc (bitsOf w 5 0) != bitOf w 11

/-- TEST (R286). -/
def execTest (s : State) : Host.Outcome State Fault Refusal :=
  guarded .test s (fun s => s.progRun 1 (fun w s => s.putC (s.progOperand w)))

/-- AND (R286). -/
def execAnd (s : State) : Host.Outcome State Fault Refusal :=
  guarded .and s (fun s => s.progRun 2 (fun w s => s.putC (s.eave.c && s.progOperand w)))

/-- OR (R286). -/
def execOr (s : State) : Host.Outcome State Fault Refusal :=
  guarded .or s (fun s => s.progRun 3 (fun w s => s.putC (s.eave.c || s.progOperand w)))

/-- SETF (R286). -/
def execSetf (s : State) : Host.Outcome State Fault Refusal :=
  guarded .setf s (fun s => s.progRun 4 (fun w s => s.put pEAVE ⟨EAVE.PROG_STATE.off, 24 + bitsOf w 2 0, 24 + bitsOf w 2 0⟩ (b2n s.eave.c)))

/-- JMP (R286). -/
def execJmp (s : State) : Host.Outcome State Fault Refusal :=
  guarded .jmp s (fun s =>
    match s.progDue with
    | some (a, w) =>
      if bitsOf w 15 12 ≠ 5 then s
      else s.progGoto a (if bitOf w 11 || s.eave.c then bitsOf w 5 0 else a + 1)
    | none => s)

/-- A counter of the program. -/
def cntFld (k : Nat) : Fld := ⟨EAVE.PROG_CNT.off, 8 * k + 7, 8 * k⟩

/-- CNT (R286). -/
def execCnt (s : State) : Host.Outcome State Fault Refusal :=
  guarded .cnt s (fun s => s.progRun 6 (fun w s =>
    s.put pEAVE (cntFld (bitsOf w 1 0)) (if s.eave.c then min (s.get pEAVE (cntFld (bitsOf w 1 0)) + 1) 255 else 0)))

/-- CMP (R286). -/
def execCmp (s : State) : Host.Outcome State Fault Refusal :=
  guarded .cmp s (fun s => s.progRun 7 (fun w s => s.putC (decide (bitsOf w 7 0 ≤ s.get pEAVE (cntFld (bitsOf w 9 8))))))

/-- An OUT instruction of one action, where C is set (R286). -/
def State.progOut (s : State) (action : Nat) (f : State → State) : State :=
  match s.progDue with
  | some (_, w) => if bitsOf w 2 0 = action then s.progRun 8 (fun _ s => if s.eave.c then f s else s) else s
  | none => s

/-- OUT PWR_ON (R288). -/
def execOutPwrOn (s : State) : Host.Outcome State Fault Refusal :=
  guarded .outPwrOn s (fun s => s.progOut 0 (fun s => s.pwrOnNow 3))

/-- OUT PWR_OFF (R288). -/
def execOutPwrOff (s : State) : Host.Outcome State Fault Refusal :=
  guarded .outPwrOff s (fun s => s.progOut 1 (fun s => s.pwrOffNow 3))

/-- OUT ALERT_SET (R290). -/
def execOutAlertSet (s : State) : Host.Outcome State Fault Refusal :=
  guarded .outAlertSet s (fun s => s.progOut 2 (fun s => s.setAlert true))

/-- OUT ALERT_CLR (R290). -/
def execOutAlertClr (s : State) : Host.Outcome State Fault Refusal :=
  guarded .outAlertClr s (fun s => s.progOut 3 (fun s => s.setAlert false))

/-- LOG (R286). -/
def execLog (s : State) : Host.Outcome State Fault Refusal :=
  guarded .log s (fun s => s.progRun 9 (fun w s =>
    if s.eave.c then s.eaveLog (0x80 + bitsOf w 6 0) (s.get pEAVE EAVE.PROG_STATE.FLAGS * 256 + s.get pEAVE EAVE.LATCH.LATCH) else s))

/-- CLRL (R286). -/
def execClrl (s : State) : Host.Outcome State Fault Refusal :=
  guarded .clrl s (fun s => s.progRun 10 (fun w s =>
    if s.eave.c then s.put pEAVE EAVE.LATCH.LATCH (clearBits (s.get pEAVE EAVE.LATCH.LATCH) (bitsOf w 7 0)) else s))

/-- END (R286). -/
def execProgEnd (s : State) : Host.Outcome State Fault Refusal :=
  guarded .progEnd s (fun s =>
    match s.progDue with
    | some (a, w) => if bitsOf w 15 12 = 0 then s.progEnd a else s
    | none => s)

/-- The row that runs an instruction word. -/
def progRow (w : Nat) : Option Instr :=
  match bitsOf w 15 12 with
  | 0 => some .progEnd
  | 1 => some .test
  | 2 => some .and
  | 3 => some .or
  | 4 => some .setf
  | 5 => some .jmp
  | 6 => some .cnt
  | 7 => some .cmp
  | 8 => if bitsOf w 2 0 = 0 then some .outPwrOn else if bitsOf w 2 0 = 1 then some .outPwrOff else if bitsOf w 2 0 = 2 then some .outAlertSet
      else if bitsOf w 2 0 = 3 then some .outAlertClr else none
  | 9 => some .log
  | 10 => some .clrl
  | _ => none

/-- PROGRAM_MEMORY_ECC (R285). -/
def execProgramMemoryEcc (s : State) : Host.Outcome State Fault Refusal :=
  guarded .programMemoryEcc s (fun s =>
    let s1 := ((s.putFlag pEAVE EAVE.PROG_CTL.RUN false).putFlag pEAVE EAVE.PROG_STATE.FAULT true).err pEAVE 1
    { s1 with eave := { s1.eave with pc := none } }.setAlert true)

/-! ### Wake and alarm (R289) -/

/-- WAKE_EDGE (R289, R288): an edge of WAKE_IN moves the level; one of WAKE_SENSE is an event. -/
def execWakeEdge (rising : Bool) (s : State) : Host.Outcome State Fault Refusal :=
  guarded (.wakeEdge rising) s (fun s =>
    let s1 := { s with eave := { s.eave with wakeLevel := rising } }
    if !bitOf (s.get pEAVE EAVE.PWR_CFG.WAKE_SENSE) (if rising then 0 else 1) then s1
    else
      let s2 := ({ s1 with eave := { s1.eave with wakeSeen := true } }.irq pEAVE 4).eaveLog 7 0
      if s.flag pEAVE EAVE.PWR_CFG.WAKE_AUTO then s2.cancelDown.eaveWait (.pwrOn 4) else s2)

/-- The alarm is due: the last count edge found the calendar at or after ALARM_AT (R289). -/
def State.alarmDue (s : State) : Bool := s.eave.alarmHit && s.alarmReached

/-- ALARM (R289). -/
def execAlarm (s : State) : Host.Outcome State Fault Refusal :=
  guarded .alarm s (fun s =>
    if s.alarmDue then
      (({ s with eave := { s.eave with alarmSeen := true } }.irq pEAVE 3).eaveLog 8 0).put pEAVE EAVE.ALARM_AT.SECONDS 0
    else s)

/-! ### Commands of the page (R280, R281, R288, R291) -/

/-- Origin of a command: 2 for I2C, else 1 (R288, R291). -/
def eaveOrigin (p : Path) : Nat := match p with | .i2c => 2 | _ => 1

/-- SET (R280); refused while a sync stamps or loads the calendar at the count edge that it waits for (R293). -/
def State.calSet (s : State) (p : Path) : State × Verdict :=
  if (s.mainOn ∧ s.flag pEAVE EAVE.CAL_CFG.AUTO_SYNC) ∨ s.eave.syncAt.isSome ∨ s.eave.syncLoad then refuse s .state else accept (s.eaveWait (.set (eaveOrigin p)))

/-- SYNC_NOW (R281). -/
def State.calSyncNow (s : State) : State × Verdict :=
  if s.stage < 2 ∨ s.tebTs s.now = tebUnknown then refuse s .state else accept { s with eave := { s.eave with syncNow := true } }

/-- INVALIDATE (R280). -/
def State.calInvalidate (s : State) : State × Verdict :=
  accept ((s.putFlag pEAVE EAVE.STATUS.CAL_VALID false).setCalUnc 18446744073709551615)

/-- A write of CAL_CMD (R294). -/
def State.calCmd (s : State) (p : Path) (v : Nat) : State × Verdict :=
  match bitsOf v 7 0 with
  | 1 => s.calSet p
  | 2 => s.calSyncNow
  | 3 => s.calInvalidate
  | _ => refuse s .range

/-- PWR_ON from a host path (R288): a PWR_OFF that waits goes at once, the pin follows at the next count edge. -/
def State.cmdPwrOn (s : State) (p : Path) : State × Verdict := accept (s.cancelDown.eaveWait (.pwrOn (eaveOrigin p)))

/-- PWR_OFF from a host path (R288). -/
def State.cmdPwrOff (s : State) (p : Path) : State × Verdict :=
  if s.mainOn then accept (s.pwrOffDelayed (eaveOrigin p)) else accept (s.eaveWait (.pwrOff (eaveOrigin p)))

/-- A write of PWR_CMD (R294). -/
def State.pwrCmd (s : State) (p : Path) (v : Nat) : State × Verdict :=
  match bitsOf v 7 0 with
  | 1 => s.cmdPwrOn p
  | 2 => s.cmdPwrOff p
  | 3 => accept (s.setAlert true)
  | 4 => accept (s.setAlert false)
  | _ => refuse s .range

/-- A write of LOG_CMD (R294). -/
def State.eaveLogCmd (s : State) (v : Nat) : State × Verdict := if bitsOf v 7 0 = 1 then accept s.eaveLogClear else refuse s .range

/-- A write of PROG_CTL (R285): clearing RUN stops a run that is under way. -/
def State.progCtl (s : State) (v : Nat) : State × Verdict :=
  if bitOf v 0 then
    if s.flag pEAVE EAVE.PROG_CTL.RUN then accept s
    else if !s.progAllOk then refuse s .range
    else accept ((s.putFlag pEAVE EAVE.PROG_CTL.RUN true).putFlag pEAVE EAVE.PROG_STATE.FAULT false)
  else accept { s.putFlag pEAVE EAVE.PROG_CTL.RUN false with eave := { s.eave with pc := none } }

end Sys2Proof.Machine
end

