-- ==== Sys2Proof/Machine/Clock.lean ====
section
/-! DEFINITION. Events of the clock and the timescale: lock of APLL_M, seeding, changes of y, steps, leap seconds, the
threshold of Stage 4, reports and the expiry of the traceability record (R7 to R19, R202, R203, R237 to R243, R250,
R282, R318). -/

namespace Sys2Proof.Machine

/-- Show the anchor pair in the TSC page (R8). -/
def State.showAnchor (s : State) : State :=
  ((s.put pTSC TSC.ANCHOR_N.COUNT s.clk.anchorN).put pTSC TSC.ANCHOR_FRAC.FRAC (s.clk.anchorT32 % fine).toNat).putInst pTSC
    TSC.ANCHOR_T.INSTANT (s.clk.anchorT32 / fine)

/-- The present mapping has held up to this boundary: another comes in force (R166). -/
def ClockSt.keepMapping (c : ClockSt) : ClockSt :=
  { c with past := c.past.filter (fun m => decide (c.tclk ≤ m.until_ + 32768)) ++ [⟨c.tclk, c.anchorN, c.anchorT32, c.y, c.stepSum, c.gen⟩] }

/-! ### A new y (R10) -/

/-- Whether a new y waits for this slot boundary. -/
def State.yDue (s : State) : Bool := match s.clk.yNext with | some n => decide (n.1 < s.clk.slot) | none => false

/-- The new y takes effect: the anchor moves to this boundary under the old y, and the slew goes on at its new rate. -/
def State.yEffect (s : State) (y : Int) : State :=
  let made := roundEven (s.servo.slewEff * ((s.clk.slot : Int) - s.servo.slewSlot) * suSlot) (2 ^ 28)
  let slewing := s.flag pSERVO SERVO.STATUS.SLEWING
  let s1 := { s with
    clk := { s.clk.keepMapping with anchorT32 := s.now32, anchorN := s.clk.tclk, y := y, yNext := none }
    servo := { s.servo with
      slewSum32 := s.servo.slewSum32 + made
      slewLeft32 := if slewing then s.servo.slewLeft32 - made else s.servo.slewLeft32
      slewSlot := s.clk.slot
      slewEff := if slewing then y - s.getI pSERVO SERVO.Y_XO.Y - s.getI pSERVO SERVO.Y_SRV.Y else 0 } }
  (s1.putI pSERVO SERVO.Y.Y y).showAnchor

/-- Y_TAKES_EFFECT (R10). -/
def execYTakesEffect (s : State) : Host.Outcome State Fault Refusal :=
  guarded .yTakesEffect s (fun s =>
    match s.clk.yNext with
    | some n => if n.1 < s.clk.slot then s.yEffect n.2 else s
    | none => s)

/-! ### Steps (R11, R104, R132, R147, R199, R230, R237, R239, R252) -/

/-- Log a step of `d` SU (R11, R243). -/
def State.logStep (s : State) (d : Int) : State :=
  let s1 := ((s.putSpan pTSC TSC.LAST_STEP.SPAN d).incWrap pTSC TSC.STEP_COUNT.COUNT).put pTSC TSC.LAST_STEP_SLOT.SLOT s.slotNo
  (s1.irq pTSC 1).event 4 [s1.tscRecord 3 s1.now 0 2, packRec [(96, 64, s.slotNo), (0, 96, spanBits d)]]

/-- The multiple of REPORT_MS at or before now, in SU (R243). -/
def State.reportMark (s : State) : Int :=
  let p : Int := max 1 (s.get pTSC TSC.REPORT_CFG.REPORT_MS) * 65536000000
  s.now / p * p

/-- Reports go on from the present instant. -/
def State.reportRestart (s : State) : State := { s with teb := { s.teb with lastReport := s.reportMark } }

/-- Instants of chapter 9 and 10 that a step moves. -/
def State.moveMarks (s : State) (d : Int) : State :=
  let s1 := s.putInst pSERVO SERVO.HOLD_ENTRY.INSTANT (if s.servoState = 3 then s.getInst pSERVO SERVO.HOLD_ENTRY.INSTANT + d
    else s.getInst pSERVO SERVO.HOLD_ENTRY.INSTANT)
  { s1 with
    auxMarks := s.auxMarks.map (fun m => { m with t := m.t + d })
    lines := s.lines.map (fun l => { l with lastPass := l.lastPass.map (fun t => ((t : Int) + d).toNat) })
    servo := { s1.servo with lastUsed := s.servo.lastUsed.map (· + d) }
    teb := { s1.teb with tSeed := s.teb.tSeed + d, stableAt := s.teb.stableAt.map (· + d), tObs := s.teb.tObs + d, tTime := s.teb.tTime + d } }

/-- The bound after a step that adopts no reference (R237, R239): SEED in FREERUN; else nothing is lowered. -/
def State.stepBound (s : State) (d : Int) (rest : Nat) : State :=
  let size := psOfSu d.natAbs
  if s.servoState = 0 then
    let s1 := s.put pTSC TSC.SEED_TEB.PS (s.get pTSC TSC.SEED_BOUND.PS)
    { s1 with teb := { s1.teb with tSeed := s.now, stepAdd := 0, seed := knownTeb (s.get pTSC TSC.SEED_BOUND.PS) } }.setBasis 1
  else if s.basis = 4 ∨ s.basis = 5 then s.putHold0 (s.teb.hold0.map (· + size))
  else { s with teb := { s.teb with stepAdd := s.teb.stepAdd + size + rest } }

/-- The bound and the servo after a step (R213, R216, R239): under ACCEPT_STEP the reference is adopted with its bound; after
STEP_PROPOSED in FREERUN it is adopted with the bound of the seed; after another step in FREERUN the selected reference is acquired. The
record of the step carries the bound that it leaves (R243). -/
def State.stepAfter (s : State) (d : Int) (rest : Nat) (adopts : Option Nat) : State :=
  match adopts with
  | some k =>
    if s.servoState = 0 then ((((s.stepBound d rest).irq pSERVO 3).logStep d).adoptBase k (s.ref k).hist.head?).formY
    else (s.adoptStepped k).logStep d
  | none =>
    let base := s.servo.adopted.bind (fun k => s.servo.freqBase.map (s.stepTheta k d))
    let s1 : State := { s with servo := { s.servo with freqBase := base } }
    ((((s1.stepBound d rest).irq pSERVO 3).logStep d).formY).onlyIf (s.servoState == 0) State.reselect

/-- The step of the timescale and everything that follows it at the boundary. -/
def State.stepNow (s : State) (d : Int) (adopts : Option Nat) : State :=
  let d32 := d * fine
  let rest := if s.flag pSERVO SERVO.STATUS.SLEWING then psOfSu s.slewLeft.natAbs else 0
  let s1 := (s.forEach (List.range 8) (fun k s => s.refStep d k)).syncStep d
  let s2 := { s1 with clk := { s1.clk.keepMapping with
    anchorT32 := s1.now32 + d32, anchorN := s1.clk.tclk, stepNext := none, lastStep := some s1.clk.slot, prev32 := s1.clk.prev32 + d32,
    stepSum := s1.clk.stepSum + d32,
    gen := s1.clk.gen + 1 } }.showAnchor
  let s3 := s2.forEach (List.range 48) (fun c s => s.chanStep d32 c)
  let s4 := s3.forEach (List.range 4) (fun q s => s.seqStep q d)
  let s5 := (s4.forEach (List.range 4) (fun t s => s.phaseStep t d)).schedStep d
  let s6 := (s5.forEach (List.range 8) (fun n s => s.tickStep n s.now32)).measStep d
  let s7 := (s6.moveMarks d).reportRestart
  let s8 := { s7 with eave := { s7.eave with second := s7.now32 / (suSec * fine), syncAt := none } }
  (s8.cancelSlew.putFlag pSERVO SERVO.STATUS.STEP_PROPOSED false).stepAfter d rest adopts

/-- Whether a step waits for this slot boundary. -/
def State.stepDue (s : State) : Bool := match s.clk.stepNext with | some r => decide (r.slot < s.clk.slot) | none => false

/-- TIMESCALE_STEP (R11). -/
def execTimescaleStep (s : State) : Host.Outcome State Fault Refusal :=
  guarded .timescaleStep s (fun s =>
    match s.clk.stepNext with
    | some r => if r.slot < s.clk.slot then (s.stepNow r.d r.adopts).refreshDomain else s
    | none => s)

/-! ### Leap seconds (R19) -/

/-- Whether a pending leap is to be applied: the timescale lies at or after LEAP_INSTANT. -/
def State.leapDue (s : State) : Bool :=
  s.clk.seeded && s.get pTSC TSC.LEAP_CFG.LEAP_PENDING != 0 && s.reached (s.get pTSC TSC.LEAP_INSTANT.SECONDS * suSec : Nat)

/-- LEAP_APPLY (R19, R279). -/
def execLeapApply (s : State) : Host.Outcome State Fault Refusal :=
  guarded .leapApply s (fun s =>
    if s.leapDue then
      let o := leapOffset (s.get pTSC TSC.UTC_OFFSET.OFFSET) (s.get pTSC TSC.LEAP_CFG.LEAP_PENDING)
      (((s.put pTSC TSC.UTC_OFFSET.OFFSET o).put pTSC TSC.LEAP_CFG.LEAP_PENDING 0).copyLeap.irq pTSC 0).tscEvent 4
        (ofSigned 32 (toSigned 16 o))
    else s)

/-! ### Lock of APLL_M (R202, R203, R318) -/

/-- The registers of an engine's quad, or of an input, whose values CALDATA gives for 25 degrees (R67, R167). -/
def trackedWord (p o : Nat) : Bool :=
  match pageBlock p with
  | some (.quad, _) => factoryWord p o
  | some (.tin, _) => factoryWord p o
  | _ => false

/-- Calibration starts again as at the first entry to Stage 2 (R318): engines and cores hold no set, and every term stands at its
value of CALDATA (R67, R167); what has failed stays so. A swap under way loses its spare; lanes and drifts that wait for a spare still do
(R77, R78; log 90). -/
def State.restartCalibration (s : State) : State :=
  let s0 := (s.putTerms (s.power.factory.filter (fun t => trackedWord t.1 t.2.1))).putForms
  let s1 := s0.forEach (List.range 12) (fun q s =>
    let s2 := ((s.loseSwap q 0).putFlag (pQUAD q) QUAD.STATUS.COARSE true).putFlag (pQUAD q) QUAD.CAL_STATE.SWEEPING false
    let s3 := s2.forEach (List.range 5) (fun e s => if s.engState q e = 5 then s else (s.setEngine q e {}).setEngState q e 0)
    let s4 := s3.setQuad q { s3.quad q with
      sweeps := [], slices := 0, laneTemp := List.replicate 4 (200, 200), launched := List.replicate 9 0 }
    (s4.refreshSpare q).refreshBounds q)
  let s5 := s1.forEach (List.range 16) (fun i s =>
    ((s.setTin i { s.tin i with
      cores := (s.tin i).cores.map (fun c => { c with front := none, prev := none, events := 0, hist := [], pulses := [], fails := 0 }) }).putFlag (pTIN i)
      TIN.STATUS.COARSE true).refreshInput i)
  let cleared := s5.power.ports.map (fun (c : PortCore) => { c with set := false, fails := 0 })
  { s5 with power := { s5.power with ports := cleared } }.refreshTinSettled

/-- APLL_M loses lock (R203, R318): the stage becomes 1 at once; the count and the anchor go on. -/
def State.apllmLost (s : State) : State :=
  if !s.flag pAPLL_M APLL_M.STATUS.LOCKED then { s with apllmPasses := 0 }
  else
    let s1 := ((s.putFlag pAPLL_M APLL_M.STATUS.LOCKED false).incSat pAPLL_M APLL_M.LOSSES.COUNT).err pAPLL_M 0
    let s2 := (({ s1 with apllmPasses := 0 }.irq pAPLL_M 0).setBasis 0).freerun
    if 2 ≤ s2.stage then (s2.enterStage 1).restartCalibration else s2

/-- APLL_M declares lock (R7, R202): at the first one TCLK_COUNT starts at zero. -/
def State.apllmLocked (s : State) : State :=
  { s.putFlag pAPLL_M APLL_M.STATUS.LOCKED true with clk := { s.clk with running := true } }

/-- A lock window of APLL_M ends: 2^16 cycles, tolerance 2, four windows (R202). It runs from Stage 1, but not in a recovery
start (R316, R317). -/
def State.apllmWindow (s : State) (count : Nat) : State :=
  if s.stage = 0 ∨ s.power.recovery then s
  else
    let s1 := s.put pAPLL_M APLL_M.LAST_COUNT.COUNT count
    if 2 < ((count : Int) - 65536).natAbs then s1.apllmLost
    else
      let s2 := { s1 with apllmPasses := min 4 (s1.apllmPasses + 1) }
      if 4 ≤ s2.apllmPasses ∧ !s2.flag pAPLL_M APLL_M.STATUS.LOCKED then s2.apllmLocked else s2

/-- APLL_LOCK_WINDOW (R202): of APLL_A where `a` is set, else of APLL_M. -/
def execApllLockWindow (a : Bool) (count : Nat) (s : State) : Host.Outcome State Fault Refusal :=
  guarded (.apllLockWindow a count) s (fun s => if a then s.apllaWindow count else s.apllmWindow count)

/-- XTAL_FAULT (R205): the crystal stops, and APLL_M loses lock. -/
def execXtalFault (s : State) : Host.Outcome State Fault Refusal :=
  guarded .xtalFault s (fun s => s.inCore (fun s => (s.err pXO 1).apllmLost))

/-! ### Seeding (R282) -/

/-- Whether a count edge has come since the first lock, with its TCLK count passed; none comes while the crystal stands still. -/
def State.seedDue (s : State) : Bool :=
  s.clk.running && !s.clk.seeded && s.flag pAPLL_M APLL_M.STATUS.LOCKED && !s.eave.stopped && s.eave.edges != 0 && decide (s.eave.phase ≤ 8 * s.clk.tclk)

/-- Seed the timescale at the first TCLK count at or after the last count edge E. -/
def State.seed (s : State) : State :=
  let y := s.getI pSERVO SERVO.Y_XO.Y
  let na := s.clk.tclk - s.eave.phase / 8
  let ta : Int := s.calFine + roundEven (5120 * ((s.eave.phase % 8 : Nat) : Int) * 2 ^ 32 * (2 ^ 60 + y)) (2 ^ 60)
  let wide := if s.flag pEAVE EAVE.STATUS.CAL_VALID then some (s.get pEAVE EAVE.CAL_UNC.NS * 1000 + 2000) else none
  let seedTeb := satTeb wide
  let s1 := { s with clk := { s.clk with anchorN := na, anchorT32 := ta, y := y, yNext := none, seeded := true, lastStep := some s.clk.slot } }
  let s2 := ((s1.putI pSERVO SERVO.Y.Y y).showAnchor.put pTSC TSC.SEED_TEB.PS seedTeb)
  let s3 := { s2 with
    teb := { s2.teb with tSeed := s2.now, stepAdd := 0, seed := wide }
    eave := { s2.eave with second := s2.now32 / (suSec * fine) }
    sync := { s2.sync with second := s2.nowSecond } }.setBasis 1
  ((s3.logStep s3.now).reportRestart).eaveLog 0x0D (if seedTeb = tebUnknown then 0xFFFF else ceilDiv seedTeb 1000000)

/-- TIMESCALE_SEED (R282). -/
def execTimescaleSeed (s : State) : Host.Outcome State Fault Refusal :=
  guarded .timescaleSeed s (fun s => if s.seedDue then s.seed else s)

/-! ### Threshold, reports and the record's expiry (R242, R243, R250) -/

/-- Whether TEB_ts now is known and lies at or below TRACE_THRESH. -/
def State.below (s : State) : Bool := s.tebTs s.now != tebUnknown && decide (s.tebTs s.now ≤ s.get pTSC TSC.TRACE_THRESH.PS)

/-- THRESH_CROSSING (R242). -/
def execThreshCrossing (s : State) : Host.Outcome State Fault Refusal :=
  guarded .threshCrossing s (fun s =>
    if s.below = s.flag pTSC TSC.STATUS.BELOW_THRESH then s
    else (((s.putFlag pTSC TSC.STATUS.BELOW_THRESH s.below).irq pTSC 2).tscEvent 5 (b2n s.below)).refreshStage)

/-- Whether a report is due. -/
def State.reportDue (s : State) : Bool :=
  s.clk.seeded && s.flag pTSC TSC.REPORT_CFG.REPORT_EN && decide (s.teb.lastReport < s.reportMark)

/-- TEB_REPORT (R243). -/
def execTebReport (s : State) : Host.Outcome State Fault Refusal :=
  guarded .tebReport s (fun s =>
    if s.reportDue then
      let m := s.reportMark
      let p : Int := s.get pTSC TSC.REPORT_CFG.REPORT_MS * 65536000000
      s.reportRestart.event 4 [s.tscRecord 1 m (max (s.tebTs m) (s.tebTs (m + p))) 1]
    else s)

/-- Whether a used link of the traceability record has expired (R250). -/
def State.traceLate (s : State) : Bool :=
  (List.range (min 8 (bitsOf (s.rd pDOMAIN 0x400).toNat 15 8))).any (fun k =>
    let d := (s.rd pDOMAIN (0x418 + 48 * k)).toNat
    d != 0 && bitsOf (s.rd pDOMAIN (0x410 + 48 * k)).toNat 7 0 != 0 && decide ((d : Int) < s.now / (86400 * suSec)))

/-- Whether TRACE_EXPIRY is due. -/
def State.traceDue (s : State) : Bool := s.clk.seeded && !s.flag pDOMAIN DOMAIN.STATUS.TRACE_EXPIRED && s.traceLate

/-- TRACE_EXPIRY (R250). -/
def execTraceExpiry (s : State) : Host.Outcome State Fault Refusal :=
  guarded .traceExpiry s (fun s => if s.traceDue then (s.putFlag pDOMAIN DOMAIN.STATUS.TRACE_EXPIRED true).irq pDOMAIN 4 else s)

end Sys2Proof.Machine
end

