-- ==== Sys2Proof/Machine/Gutter.lean ====
section
/-! DEFINITION. The Gutter: fault sources, severities and reactions, device safe state, the first-fault record, injection,
self-fault and the fault pair (chapter 13). -/

namespace Sys2Proof.Machine

/-- Whether the fault mode is DISTRIBUTED (R295). -/
def State.distributed (s : State) : Bool := s.flag pGUTTER GUTTER.STATUS.MODE

/-- Severity in force of a source (R298). -/
def State.severity (s : State) (k : Nat) : Nat := s.get pGUTTER (GUTTER.SRC_CFG.SEVERITY k)

/-- SRC_CFG as an event of a slot takes it: a write in the slot of the event comes after (R309). -/
def State.cfgAt (s : State) (k slot : Nat) : Nat :=
  match s.gutter.oldCfg.find? (fun e => e.1 == k && e.2.1 == slot) with
  | some e => e.2.2.toNat
  | none => (s.rd pGUTTER (GUTTER.SRC_CFG.off k)).toNat

/-- Remember SRC_CFG of a source before its first write in a slot (R309). -/
def State.keepCfg (s : State) (k : Nat) : State :=
  let old := s.gutter.oldCfg.filter (fun e => e.2.1 == s.clk.slot)
  if old.any (fun e => e.1 == k) then s
  else { s with gutter := { s.gutter with oldCfg := old ++ [(k, s.clk.slot, s.rd pGUTTER (GUTTER.SRC_CFG.off k))] } }

/-- Reactions taken: REACT or the minimum mask of the severity (R298). -/
def reactions (cfg sev : Nat) : Nat := Nat.lor (bitsOf cfg 4 0) (minReact sev)

/-- Whether a source is ACTIVE: one of its bits is set in some instance (R307). Only listed ERR_STATUS words can be nonzero. -/
def State.sourceActive (s : State) (k : Nat) : Bool :=
  s.regs.any (fun e => e.1 % 4096 == 0x024 && (match pageBlock (e.1 / 4096) with
    | some b => faultSources.any (fun f => f.1 == k && f.2.1 == b.1 && bitOf e.2.toNat f.2.2.1)
    | none => false))

/-- Listed sources that are ACTIVE. -/
def State.activeSources (s : State) : List Nat := (faultSources.map (·.1)).filter (fun k => s.sourceActive k)

/-! ### The pair (R306) -/

/-- Levels of FAULT_A and FAULT_B; none while they are high impedance. -/
def State.pair (s : State) : Option (Bool × Bool) :=
  if s.stage = 0 then none
  else if s.gutter.safe || (s.flag pGUTTER GUTTER.STATUS.PAIR_FAULT && !s.distributed) then some (false, true)
  else some (true, false)

/-- Show a change of the pair. -/
def State.showPair (s old : State) : State :=
  match s.pair with
  | some p => if old.pair = some p then s else s.emit (.faultPins p.1 p.2)
  | none => s

/-! ### Reactions (R299 to R301) -/

/-- CHAN_SAFE on the outputs of the raising instance (R300). -/
def State.reactSafe (s : State) (k page : Nat) : State :=
  match pageBlock page with
  | some (.chan, c) => s.chanSafe c (.chanSafe k page)
  | some (.quad, q) => s.forEach (List.range 4) (fun l s => s.chanSafe (4 * q + l) (.chanSafe k page))
  | some (.seq, n) =>
    s.forEach ((List.range 48).filter (fun c => bitOf (s.get (pSEQ n) SEQ.QUAD_MASK.QUADS) (chanQuad c) && s.chanMode c == 5)) (fun c s =>
      s.chanSafe c (.chanSafe k page))
  | some (.aux, n) => s.auxSafe n (.chanSafe k page)
  | _ => s

/-- Enter device safe state; `cause` is the word of SAFE_CAUSE (R301). A device already in it keeps its cause (R309). -/
def State.deviceSafe (s : State) (cause : Nat) : State :=
  if s.gutter.safe then s
  else
    let s1 := { s with gutter := { s.gutter with safe := true } }.wr pGUTTER GUTTER.SAFE_CAUSE.off (BitVec.ofNat 32 cause)
    let s2 := s1.forEach (List.range 48) (fun c s => s.chanSafe c .device)
    let s3 := s2.forEach (List.range 8) (fun n s => s.auxSafe n .device)
    let s4 := s3.forEach (List.range 4) (fun q s => s.seqDeviceSafe q)
    { s4 with sync := { s4.sync with outEnd := min s4.sync.outEnd s4.now, ppsEnd := min s4.sync.ppsEnd s4.now } }.showPair s

/-! ### Collection (R296, R302, R303) -/

/-- What one source reports in one cycle (R303, R304): source, lowest raising page and its bit, injected, real, line. -/
structure Report where
  source : Nat
  page : Nat
  bit : Nat
  injected : Bool
  real : Bool
  line : Bool
  sev : Nat
  react : Nat
deriving DecidableEq, Repr

/-- The report of a source from the events of a cycle. -/
def State.report (s : State) (evs : List FaultEvent) (k : Nat) : Report :=
  let es := evs.filter (fun e => e.source == k)
  let page := es.foldl (fun a e => min a e.page) 256
  let slot := es.foldl (fun a e => max a e.slot) 0
  let injected := es.any (·.injected) || s.gutter.injections.any (fun i => i.source == k && decide (slot < i.until_))
  let real := es.any (fun e => !e.injected)
  let line := es.any (·.line)
  let cfg := s.cfgAt k slot
  let sev := if line then max 2 (bitsOf cfg 17 16) else bitsOf cfg 17 16
  ⟨k, page, match es.find? (fun e => e.page == page) with | some e => if e.line then 0 else e.bit | none => 0, injected, real, line, sev,
    if injected && !real && s.flag pGUTTER GUTTER.GUT_CFG.INJ_QUIET then 1 else reactions cfg sev⟩

/-- The report of highest severity, ties to the lower source (R302). -/
def worst (rs : List Report) : Option Report :=
  rs.foldl (fun a r => match a with
    | none => some r
    | some b => if b.sev < r.sev ∨ (b.sev = r.sev ∧ r.source < b.source) then some r else some b) none

/-- Log one report (R299, R303). -/
def State.logReport (s : State) (first : Option Nat) (r : Report) : State :=
  let s1 := (s.incSat pGUTTER (GUTTER.SOURCE_COUNT.COUNT r.source)).incWrap pGUTTER GUTTER.FAULT_EVENTS.COUNT
  s1.event 3 [packRec [(128, 128, instantBits s.now.toNat), (64, 64, s.slotNo), (59, 5, r.react), (58, 1, b2n r.injected), (57, 1, b2n r.real),
    (56, 1, b2n r.line), (54, 2, r.sev), (47, 7, r.source), (39, 8, r.page), (34, 5, r.bit), (28, 4, 1), (24, 4, 3),
    (8, 16, s1.get pGUTTER GUTTER.FAULT_EVENTS.COUNT), (0, 1, b2n (first == some r.source))]]

/-- Fill the first-fault record from the worst report of a cycle (R302). -/
def State.fillFirst (s : State) (rs : List Report) (w : Report) : State :=
  let info := packRec [(31, 1, 1), (30, 1, b2n w.injected), (29, 1, b2n w.real), (28, 1, b2n w.line), (24, 2, w.sev), (16, 7, w.source), (8, 8, w.page),
    (0, 5, w.bit)]
  let s1 := (s.wr pGUTTER GUTTER.FF_INFO.off (BitVec.ofNat 32 info)).put pGUTTER GUTTER.FF_REACT.REACT w.react
  let s2 := ((s1.put pGUTTER GUTTER.FF_SLOT.SLOT s.slotNo).putInst pGUTTER GUTTER.FF_INSTANT.INSTANT s.now).put pGUTTER GUTTER.FF_SIMUL.SOURCES
    (rs.foldl (fun n r => if r.source = w.source then n else setBit n r.source) 0)
  s2.irq pGUTTER 1

/-- Record line faults in LINE_FAULT_MAP, with the interrupt (R296). -/
def State.mapLines (s : State) (ks : List Nat) : State :=
  s.forEach ks (fun k s => (s.put pGUTTER GUTTER.LINE_FAULT_MAP.SOURCES (setBit (s.get pGUTTER GUTTER.LINE_FAULT_MAP.SOURCES) k)).irq pGUTTER 2)

/-- One cycle of the collector in COLLECTED mode. -/
def State.collect (s : State) (evs : List FaultEvent) : State :=
  let ks := (List.range 128).filter (fun k => evs.any (fun e => e.source == k))
  let rs := ks.map (fun k => s.report evs k)
  let fill := !s.flag pGUTTER GUTTER.FF_INFO.VALID
  let w := worst rs
  let first := if fill then w.map (·.source) else none
  let s1 := s.forEach rs (fun r s => s.logReport first r)
  let s2 := match w with
    | some w => if fill then s1.fillFirst rs w else s1.incSat pGUTTER GUTTER.FF_LATER.COUNT rs.length
    | none => s1
  let s3 := s2.mapLines ((rs.filter (·.line)).map (·.source))
  let s4 := s3.onlyIf (rs.any (fun r => bitOf r.react 1)) (fun s => s.irq pGUTTER 0)
  let s5 := s4.forEach (rs.filter (fun r => bitOf r.react 2)) (fun r s =>
    s.forEach ((evs.filter (fun e => e.source == r.source)).map (·.page)).eraseDups (fun p s => s.reactSafe r.source p))
  let s6 := s5.onlyIf (rs.any (fun r => bitOf r.react 3)) (fun s => s.putFlag pGUTTER GUTTER.STATUS.PAIR_FAULT true)
  match worst (rs.filter (fun r => bitOf r.react 4)) with
  | some r => (s6.showPair s).deviceSafe (2 ^ 31 + r.source)
  | none => s6.showPair s

/-- A cycle in DISTRIBUTED mode: sources of minimum severity FATAL enter device safe state by their own path (R308). -/
def State.collectOwn (s : State) (evs : List FaultEvent) : State :=
  match evs.find? (fun e => !e.injected && (match sourceSev e.source with | some v => v.2 == 3 | none => false)) with
  | some e => s.deviceSafe (2 ^ 31 + e.source)
  | none => s

/-- Events of slots before this one, which the collector samples now; none below Stage 1. -/
def State.sampled (s : State) : List FaultEvent := if s.stage = 0 then [] else s.faultEvents.filter (fun e => decide (e.slot < s.clk.slot))

/-- FAULT_COLLECT (R299). After a self-fault no reaction of the table is taken (R305); a line fault is recorded all the same (R296). -/
def execFaultCollect (s : State) : Host.Outcome State Fault Refusal :=
  guarded .faultCollect s (fun s =>
    let evs := s.sampled
    let s1 := { s with faultEvents := s.faultEvents.filter (fun e => !evs.contains e) }
    if evs.isEmpty then s1
    else if s.distributed then s1.onlyIf (!s.flag pGUTTER GUTTER.STATUS.SELF_FAULT) (fun s => s.collectOwn evs)
    else if s.flag pGUTTER GUTTER.STATUS.SELF_FAULT then s1.mapLines ((evs.filter (·.line)).map (·.source))
    else s1.collect evs)

/-- LINE_FAULT (R296, R307): the pair of a source has read 00 or 11 for two cycles, an event that lasts until the pair reads as it should
again; reserved pairs read 01. -/
def execLineFault (p : PairReading) (s : State) : Host.Outcome State Fault Refusal :=
  guarded (.lineFault p) s (fun s => s.inCore (fun s =>
    if s.distributed ∨ (sourceSev p.source).isNone then s
    else
      let others := s.gutter.badPairs.filter (fun k => k != p.source)
      if !p.bad then { s with gutter := { s.gutter with badPairs := others } }
      else if s.gutter.badPairs.contains p.source then s
      else { s with
        gutter := { s.gutter with badPairs := others ++ [p.source] }
        faultEvents := s.faultEvents ++ [⟨pGUTTER, 0, false, true, p.source, s.clk.slot⟩] }))

/-- Sources whose line fault persists, injected or real (R304, R307). -/
def State.badLines (s : State) : List Nat := (s.gutter.injections.filter (·.line)).map (·.source) ++ s.gutter.badPairs

/-! ### Injection (R304, R308) -/

/-- ERR_INJECT of a page: the bits are set; in COLLECTED mode each raises an injected event that lasts INJ_HOLD cycles. -/
def State.errInject (s : State) (page v : Nat) : State × Verdict :=
  if !s.distributed ∧ !s.flag pGUTTER GUTTER.GUT_CFG.INJ_ENABLE then refuse s .state
  else
    let s1 := s.wr page 0x024 (BitVec.ofNat 32 (Nat.lor (s.rd page 0x024).toNat v))
    let ks := (bitList 32 v).filterMap (fun b => ((pageBlock page).bind (fun x => sourceOf x.1 b)).map (fun k => (b, k)))
    if s.distributed then
      let n := bitsOf (s.rd page 0x020).toNat 5 0
      accept (if !s.vectorPending n && s1.vectorPending n then s1.sendMsix n else s1)
    else
      let until_ := s.clk.slot + s.get pGUTTER GUTTER.GUT_CFG.INJ_HOLD
      accept { s1 with
        faultEvents := s1.faultEvents ++ ks.map (fun x => ⟨page, x.1, true, false, x.2, s.clk.slot⟩)
        gutter := { s1.gutter with injections := s1.gutter.injections ++ ks.map (fun x => ⟨x.2, page, false, until_⟩) } }

/-- INJECT (R304). -/
def State.inject (s : State) (k : Nat) (line : Bool) : State × Verdict :=
  if !s.flag pGUTTER GUTTER.GUT_CFG.INJ_ENABLE then refuse s .state
  else if (sourceSev k).isNone then refuse s .range
  else
    let hold := s.get pGUTTER GUTTER.GUT_CFG.INJ_HOLD
    accept { s with
      faultEvents := s.faultEvents ++ [⟨pGUTTER, 0, true, line, k, if line then s.clk.slot + 1 else s.clk.slot⟩]
      gutter := { s.gutter with injections := s.gutter.injections ++ [⟨k, pGUTTER, line, s.clk.slot + (if line then max hold 2 else hold)⟩] } }

/-- Whether an injection has lasted its cycles. -/
def State.injectionDue (s : State) : Bool := s.gutter.injections.any (fun i => decide (i.until_ < s.clk.slot))

/-- INJECTION_HOLD_END (R304). -/
def execInjectionHoldEnd (s : State) : Host.Outcome State Fault Refusal :=
  guarded .injectionHoldEnd s (fun s =>
    { s with gutter := { s.gutter with injections := s.gutter.injections.filter (fun i => !decide (i.until_ < s.clk.slot)) } })

/-! ### Commands (R301, R302, R305, R307) -/

/-- CLEAR_PAIR (R307). -/
def State.clearPair (s : State) : State × Verdict :=
  if s.gutter.safe ∨ s.activeSources.any (fun k => decide (2 ≤ s.severity k)) then refuse s .state
  else accept ((s.putFlag pGUTTER GUTTER.STATUS.PAIR_FAULT false).showPair s)

/-- ENTER_SAFE (R301). -/
def State.enterSafe (s : State) : State × Verdict := accept (s.deviceSafe (2 ^ 31 + 2 ^ 29))

/-- Empty the first-fault record (R302). -/
def State.clearFirst (s : State) : State :=
  let s1 := (s.wr pGUTTER GUTTER.FF_INFO.off 0).wr pGUTTER GUTTER.FF_REACT.off 0
  ((((s1.put pGUTTER GUTTER.FF_SLOT.SLOT 0).put pGUTTER GUTTER.FF_INSTANT.INSTANT 0).put pGUTTER GUTTER.FF_SIMUL.SOURCES 0).put pGUTTER
    GUTTER.FF_LATER.COUNT 0)

/-- REINIT (R305): defaults, counters, SELF_FAULT and the first-fault record; safe state and the pair latch stay. -/
def State.reinit (s : State) : State × Verdict :=
  let s1 := { s with regs := s.regs.filter (fun e => !(e.1 / 4096 == pGUTTER && decide (0x200 ≤ e.1 % 4096) && decide (e.1 % 4096 < 0x600))) }
  accept (((s1.put pGUTTER GUTTER.FAULT_EVENTS.COUNT 0).putFlag pGUTTER GUTTER.STATUS.SELF_FAULT false).clearFirst)

/-- A write of GUTTER_CMD (R310); in DISTRIBUTED mode only ENTER_SAFE is there (R308). -/
def State.gutterCmd (s : State) (v : Nat) : State × Verdict :=
  match bitsOf v 7 0 with
  | 2 => s.enterSafe
  | 1 => if s.distributed then refuse s .state else s.clearPair
  | 3 => if s.distributed then refuse s .state else s.reinit
  | 4 => if s.distributed then refuse s .state else s.inject (bitsOf v 22 16) (bitOf v 30)
  | _ => refuse s .range

/-- SAFE_EXIT of the GUTTER page (R301). -/
def State.deviceSafeExit (s : State) : State × Verdict :=
  let cause := (s.rd pGUTTER GUTTER.SAFE_CAUSE.off).toNat
  if !s.gutter.safe then accept s
  else if (!bitOf cause 30 && !bitOf cause 29 && s.sourceActive (bitsOf cause 6 0)) || s.flag pGUTTER GUTTER.STATUS.SELF_FAULT ||
      s.activeSources.any (fun k => s.severity k == 3) then refuse s .state
  else accept ({ s with gutter := { s.gutter with safe := false } }.showPair s)

/-- A write of SRC_CFG_k (R297, R298, R300), or the refusal it meets. -/
def State.srcCfgOk (_s : State) (k v : Nat) : Bool :=
  match sourceSev k with
  | none => false
  | some sv =>
    decide (sv.2 ≤ bitsOf v 17 16) &&
      (!bitOf v 2 || faultSources.any (fun f => f.1 == k && (f.2.1 == .chan || f.2.1 == .quad || f.2.1 == .seq || f.2.1 == .aux)))

/-- GUTTER_STORAGE_ECC (R305). -/
def execGutterStorageEcc (uncorrectable : Bool) (s : State) : Host.Outcome State Fault Refusal :=
  guarded (.gutterStorageEcc uncorrectable) s (fun s => s.inCore (fun s =>
    if !uncorrectable then s.err pGUTTER 0
    else
      let s1 := ((s.putFlag pGUTTER GUTTER.STATUS.PAIR_FAULT true).putFlag pGUTTER GUTTER.STATUS.SELF_FAULT true).irq pGUTTER 3
      (s1.showPair s).deviceSafe (2 ^ 31 + 2 ^ 30)))

/-- PAIR_SENSE_FAULT (R306): while the pair is driven. -/
def execPairSenseFault (s : State) : Host.Outcome State Fault Refusal :=
  guarded .pairSenseFault s (fun s => if s.stage = 0 then s else s.err pGUTTER 1)

end Sys2Proof.Machine
end

