-- ==== Sys2Proof/Machine/Gmac.lean ====
section
/-! DEFINITION. The TAG of a MGMT cell (R266): AES with a 256-bit key, and the GMAC of the Galois/Counter mode over it, with a 96-bit IV.
PRESUMED from the two standards the rule names (log 106). -/

namespace Sys2Proof.Machine

/-! ### AES with a 256-bit key -/

/-- The substitution table of AES, entry `a` in bits [8a+7:8a], 32 entries a line. -/
def aesTable : Nat :=
  0xc072a49cafa2d4adf04759fa7dc982ca76abd7fe2b670130c56f6bf27b777c63 +
  0x75b227ebe28012079a059618c323c7041531d871f1e5a534ccf73f362693fdb7 * 2 ^ 256 +
  0xcf584c4a39becb6a5bb1fc20ed00d153842fe329b3d63b52a05a6e1b1a2c8309 * 2 ^ 512 +
  0xd2f3ff1021dab6bcf5389d928f40a351a89f3c507f02f94585334d43fbaaefd0 * 2 ^ 768 +
  0xdb0b5ede14b8ee4688902a22dc4f816073195d643d7ea7c41744975fec130ccd * 2 ^ 1024 +
  0x08ae7a65eaf4566ca94ed58d6d37c8e779e4959162acd3c25c2406490a3a32e0 * 2 ^ 1280 +
  0x9e1dc186b95735610ef6034866b53e708a8bbd4b1f74dde8c6b4a61c2e2578ba * 2 ^ 1536 +
  0x16bb54b00f2d99416842e6bf0d89a18cdf2855cee9871e9b948ed9691198f8e1 * 2 ^ 1792

def aesSub (a : Nat) : Nat := bitsOf aesTable (8 * a + 7) (8 * a)

/-- Multiplication by x among bytes. -/
def aesDouble (a : Nat) : Nat := if a < 128 then 2 * a else Nat.xor (2 * a) 0x11B

/-- The bytes of a number, most significant first. -/
def beBytes (n v : Nat) : List Nat := (leDigits 8 n v).reverse

/-- A number of its bytes, most significant first. -/
def beNat (l : List Nat) : Nat := l.foldl (fun v b => v * 256 + b) 0

def aesSubWord (w : Nat) : Nat := beNat ((beBytes 4 w).map aesSub)

/-- The word of the key schedule after `ws`, newest first: eight words of key, then every eighth turned and given its constant. -/
def aesNextWord (ws : List Nat) : Nat :=
  let i := ws.length
  let t := ws.headD 0
  let mixed :=
    if i % 8 = 0 then Nat.xor (aesSubWord (t % 2 ^ 24 * 256 + t / 2 ^ 24)) (2 ^ (i / 8 - 1) * 2 ^ 24)
    else if i % 8 = 4 then aesSubWord t
    else t
  Nat.xor (ws.getD 7 0) mixed

/-- `n` further words of the schedule. -/
def aesSchedule : Nat → List Nat → List Nat
  | 0, ws => ws
  | n + 1, ws => aesSchedule n (aesNextWord ws :: ws)

/-- Round key `k`, 16 bytes. -/
def aesRoundKey (words : List Nat) (k : Nat) : List Nat := ((words.drop (4 * k)).take 4).flatMap (beBytes 4)

def xorBytes (a b : List Nat) : List Nat := List.zipWith Nat.xor a b

/-- Row `r` of the state turns left by `r` columns. -/
def aesShiftRows (b : List Nat) : List Nat := (List.range 16).map (fun i => b.getD ((i + 4 * (i % 4)) % 16) 0)

/-- Byte `i` of the state after its column is mixed: twice itself, thrice the next, and the two others. -/
def aesMixColumns (b : List Nat) : List Nat :=
  (List.range 16).map (fun i =>
    let at_ (k : Nat) := b.getD (i / 4 * 4 + (i + k) % 4) 0
    Nat.xor (aesDouble (Nat.xor (at_ 0) (at_ 1))) (Nat.xor (at_ 1) (Nat.xor (at_ 2) (at_ 3))))

/-- `n` rounds that mix columns, up to round 13. -/
def aesRounds (words : List Nat) : Nat → List Nat → List Nat
  | 0, b => b
  | n + 1, b => aesRounds words n (xorBytes (aesMixColumns (aesShiftRows (b.map aesSub))) (aesRoundKey words (13 - n)))

/-- AES of one block under the 32 bytes of a key. -/
def aes256 (key block : List Nat) : List Nat :=
  let first := (List.range 8).map (fun k => beNat ((key.drop (4 * k)).take 4))
  let words := (aesSchedule 52 first.reverse).reverse
  let b := aesRounds words 13 (xorBytes block (aesRoundKey words 0))
  xorBytes (aesShiftRows (b.map aesSub)) (aesRoundKey words 14)

/-! ### GMAC -/

/-- The product of two blocks in the field of 2^128 elements, whose first bit is the most significant: the `n` low bits of `x` from the
top, `z` the sum so far and `v` the other factor times x as often. -/
def ghashMul (x : Nat) : Nat → Nat → Nat → Nat
  | 0, z, _ => z
  | n + 1, z, v =>
    ghashMul x n (if bitOf x n then Nat.xor z v else z) (if v % 2 = 1 then Nat.xor (v / 2) (0xE1 * 2 ^ 120) else v / 2)

/-- The hash of blocks under H. -/
def ghash (h : Nat) (blocks : List Nat) : Nat := blocks.foldl (fun y b => ghashMul (Nat.xor y b) 128 0 h) 0

/-- The 128-bit tag of `n` blocks of data that is not encrypted, under a key's bytes and a 96-bit IV. -/
def gmac (key : List Nat) (iv n data : Nat) : Nat :=
  let h := beNat (aes256 key (List.replicate 16 0))
  let blocks := (List.range n).map (fun k => data / 2 ^ (128 * (n - 1 - k)) % 2 ^ 128)
  Nat.xor (ghash h (blocks ++ [128 * n * 2 ^ 64])) (beNat (aes256 key (beBytes 16 (iv * 2 ^ 32 + 1))))

end Sys2Proof.Machine
end

