-- ==== Sys2Proof/Machine/Ridge.lean ====
section
/-! DEFINITION. Ridge ports (chapter 11, R253 to R267): cell slots and cells, link states, routing, time transfer, broadcast
triggers, and the root's side of remote page access. The node's side executes page accesses and stands in Remote.lean. -/

namespace Sys2Proof.Machine

def State.rdg (s : State) (p : Nat) : RdgSt := s.ridge.ports.getD p {}
def State.setRdg (s : State) (p : Nat) (x : RdgSt) : State := { s with ridge := { s.ridge with ports := s.ridge.ports.set p x } }

/-! ### Ports, roles and links (R253, R257, R258) -/

def State.rdgRole (s : State) (p : Nat) : Nat := s.get (pRDG p) RDG.PORT_CFG.ROLE
def State.rdgOn (s : State) (p : Nat) : Bool := s.flag (pRDG p) RDG.CONTROL.ENABLE
def State.link (s : State) (p : Nat) : Nat := s.get (pRDG p) RDG.STATUS.LINK
def State.linkIsUp (s : State) (p : Nat) : Bool := s.link p == 3
def State.rdgUpstream (s : State) (p : Nat) : Bool := s.rdgRole p == 1 || s.rdgRole p == 2

/-- NODE_CFG (R258). -/
def State.nodeId (s : State) : Nat := s.get (pRDG 0) RDG.NODE_CFG.NODE_ID
def State.domainNum (s : State) : Nat := s.get (pRDG 0) RDG.NODE_CFG.DOMAIN_NUM
def State.isRoot (s : State) : Bool := s.flag (pRDG 0) RDG.NODE_CFG.ROOT

/-- DOWNSTREAM ports whose link is UP, and the UPSTREAM port. -/
def State.downPorts (s : State) : List Nat := (List.range 6).filter (fun p => s.rdgOn p && s.rdgRole p == 0 && s.linkIsUp p)
def State.upPort (s : State) : Option Nat := (List.range 6).find? (fun p => s.rdgOn p && s.rdgRole p == 1)

/-- STAMP_BOUND (R262). -/
def State.rdgBound (s : State) (p : Nat) : Nat := if s.portFaulty (1 + p) then tebUnknown else if 3 ≤ s.stage then 6 else if s.stage = 2 then 200 else tebUnknown

/-- A port that starts anew keeps its TX_SEQ, its scrambler and its signal. -/
def RdgSt.fresh (x : RdgSt) : RdgSt := { txSeq := x.txSeq, scrambler := x.scrambler, signal := x.signal }

/-- CONTROL.ENABLE of a port (R253, R257): the first cell slot begins at once, and the port trains if it has a signal; disabled, the link is
DOWN. The scrambler runs on (log 107). -/
def State.rdgEnable (s : State) (p : Nat) (on : Bool) : State × Verdict :=
  if on && !s.rdgOn p then
    if s.stage < 2 ∨ !s.flag (pRDG 0) RDG.NODE_CFG.ID_VALID then refuse s .state
    else
      let s1 := (s.putFlag (pRDG p) RDG.CONTROL.ENABLE true).put (pRDG p) RDG.STATUS.LINK (b2n (s.rdg p).signal)
      accept (s1.setRdg p { (s.rdg p).fresh with cell5 := 5 * 40960 * s.clk.tclk })
  else if !on && s.rdgOn p then
    let s1 := ((s.putFlag (pRDG p) RDG.CONTROL.ENABLE false).put (pRDG p) RDG.STATUS.LINK 0).putFlag (pRDG p) RDG.STATUS.PEER_VALID false
    accept ((s1.putFlag (pRDG p) RDG.STATUS.ROLE_CLASH false).setRdg p (s.rdg p).fresh)
  else accept s

/-- A write of PORT_CFG (R253): one port in each upstream role, none on the root. -/
def State.portCfg (s : State) (p v : Nat) : State × Verdict :=
  let role := bitsOf v 17 16
  if role = 3 then refuse s .range
  else if role ≠ 0 ∧ s.isRoot then refuse s .state
  else match (List.range 6).find? (fun q => decide (q ≠ p) && role != 0 && s.rdgRole q == role) with
    | some q => (s, ⟨.conflict, some (s.pageOwner (pRDG q))⟩)
    | none =>
      let s1 := ((s.put (pRDG p) RDG.PORT_CFG.ROLE role).put (pRDG p) RDG.PORT_CFG.TIME_PERIOD (bitsOf v 8 8)).put (pRDG p) RDG.PORT_CFG.PROMOTE (bitsOf v 0 0)
      accept (if s.rdgRole p = role then s1 else s1.putFlag (pRDG p) RDG.STATUS.PROMOTED false)

/-- COUNTER as the root begins with it (R266): the upper half one above the one stored. -/
def State.rootStart (s : State) : State :=
  let k := wrapAdd 32 s.flash.settings.counterHi 1
  { s.put (pRDG 0) RDG.COUNTER.COUNTER (k * 2 ^ 32) with flash := { s.flash with settings := { s.flash.settings with counterHi := k } } }

/-- A write of NODE_CFG (R258): only UTC_FOLLOW while a port is enabled. -/
def State.nodeCfg (s : State) (v : Nat) : State × Verdict :=
  let w := (s.rd (pRDG 0) RDG.NODE_CFG.off).toNat
  if (List.range 6).any (fun p => s.rdgOn p) && clrBit v 2 != clrBit w 2 then refuse s .state
  else
    let s1 := s.wr (pRDG 0) RDG.NODE_CFG.off (BitVec.ofNat 32 v)
    accept (if bitOf v 1 && !bitOf w 1 then s1.rootStart
      else if bitOf w 1 && !bitOf v 1 then s1.put (pRDG 0) RDG.COUNTER.COUNTER (s.ridge.highest.getD 0)
      else s1)

/-! ### Cells on the wire (R255) -/

/-- CRC-32 of IEEE 802.3 over the low `n` bits of `v`, most significant first. -/
def crcGo (v : Nat) : Nat → Nat → Nat
  | 0, c => c
  | n + 1, c =>
    let top := bitOf c 31 != bitOf v n
    crcGo v n (if top then Nat.xor (c * 2 % 2 ^ 32) 0x04C11DB7 else c * 2 % 2 ^ 32)

/-- The CRC of a cell: bits [511:32] in the order of the wire. -/
def cellCrc (cell : Nat) : Nat := Nat.xor (crcGo (cell / 2 ^ 32) 480 0xFFFFFFFF) 0xFFFFFFFF

/-- A cell with its header, body fields and CRC. -/
def cellBits (kind scope : Nat) (upward : Bool) (hops domain src dst : Nat) (body : List (Nat × Nat × Nat)) : Nat :=
  let c := packRec ([(508, 4, kind), (504, 4, 1), (502, 2, scope), (501, 1, b2n upward), (488, 8, hops), (480, 8, domain), (464, 16, src), (448, 16, dst)] ++ body)
  c + cellCrc c

/-- FILL, TRIG and MGMT cells (R255, R265, R266). -/
def fillBits (domain src : Nat) : Nat := cellBits 0 3 false 0 domain src 0 []
def trigBits (c : TrigCell) : Nat :=
  cellBits 2 c.scope c.upward c.hops c.domain c.src c.dst [(440, 8, c.num), (384, 32, c.seq), (256, 128, instantBits c.execAt)]
def mgmtBits (c : MgmtCell) : Nat :=
  cellBits 3 c.scope c.upward c.hops c.domain c.src c.dst [(384, 64, c.counter), (376, 8, c.op), (368, 8, c.keyId), (364, 4, c.result), (352, 12, c.page),
    (340, 12, c.offset), (208, 128, c.data), (32, 96, c.tag)]

/-- A TIME cell (R261). -/
def timeBits (c : TimeCell) (dst : Nat) : Nat :=
  cellBits 1 3 false 0 c.domain c.src dst [(416, 32, c.txSeq), (288, 128, instantBits c.prevDep), (256, 32, c.rxSeq), (128, 128, instantBits c.rxArr),
    (96, 32, c.prevDepTeb), (92, 4, c.basis), (91, 1, b2n c.root), (90, 1, b2n c.rxValid), (89, 1, b2n c.depValid), (88, 1, b2n c.upstream),
    (80, 8, c.stepSeq), (64, 16, c.utcOffset), (62, 2, c.leapPending), (32, 30, c.leapDay)]

/-! ### Line coding (R254) -/

/-- The scrambler 1 + x^39 + x^58 over the low `n` bits of `v`, most significant first: its state after them, and what it sent. -/
def scramble (v : Nat) : Nat → Nat × Nat → Nat × Nat
  | 0, r => r
  | n + 1, (x, sent) =>
    let b := b2n ((bitOf v n != bitOf x 38) != bitOf x 57)
    scramble v n (x * 2 % 2 ^ 58 + b, sent * 2 + b)

/-- Blocks of a sync header and 64 bits, of which the latter are scrambled, on the lane one after another. -/
def lineBlocks (blocks : List (Nat × Nat)) (x : Nat) : Nat × Nat :=
  blocks.foldl (fun r b => scramble b.2 64 (r.1, r.2 * 4 + b.1)) (x, 0)

/-- The nine blocks of a cell slot: the delimiter with its type and LINK_SEQ, then the cell. -/
def slotBlocks (seq cell : Nat) : List (Nat × Nat) :=
  (2, 0x5A * 2 ^ 56 + seq * 2 ^ 32) :: (List.range 8).map (fun k => (1, cell / 2 ^ (64 * (7 - k)) % 2 ^ 64))

/-! ### Transmission (R254, R256, R261) -/

/-- Length of a cell slot, 57.6 ns, in fifths of an SU. -/
abbrev cellSlot5 : Nat := 18874368

/-- Slots of TIME_PERIOD. -/
def State.timePeriod (s : State) (p : Nat) : Nat := if s.flag (pRDG p) RDG.PORT_CFG.TIME_PERIOD then 200000 else 20000

/-- A cell slot of a port begins now. -/
def State.cellDue (s : State) (p : Nat) : Bool := s.rdgOn p && s.clk.running && decide ((s.rdg p).cell5 ≤ 5 * 40960 * s.clk.tclk)

/-- The offset that LEAP_DAY goes with: the new one, or with no leap pending the one in force (R261; log 107). -/
def dayOffset (offset pending : Nat) : Nat := if pending = 0 then offset else leapOffset offset pending

/-- The TIME cell that leaves now (R261). -/
def State.timeCell (s : State) (p : Nat) : TimeCell :=
  let x := s.rdg p
  let dep : Option (Nat × Nat) := match x.deps with
    | d :: _ => if d.steps = s.clk.stepSum then d.t.map (fun t => (t.toNat, d.teb)) else none
    | [] => none
  let arr : Option (Nat × Nat) := match x.rx with
    | some r => if r.steps = s.clk.stepSum then r.arr.map (fun t => (t.toNat, r.seq)) else none
    | none => none
  let leap := s.get pTSC TSC.LEAP_CFG.LEAP_PENDING
  let offset := s.get pTSC TSC.UTC_OFFSET.OFFSET
  { scope := 3, upward := false, domain := s.domainNum, src := s.nodeId, txSeq := x.txSeq, prevDep := dep.elim 0 (·.1), rxSeq := arr.elim 0 (·.2)
    rxArr := arr.elim 0 (·.1), prevDepTeb := dep.elim tebUnknown (·.2), basis := s.basis, root := s.isRoot, rxValid := arr.isSome
    depValid := dep.isSome, upstream := s.rdgUpstream p, stepSeq := s.get pTSC TSC.STEP_COUNT.COUNT % 256, utcOffset := offset, leapPending := leap
    leapDay := (((s.get pTSC TSC.LEAP_INSTANT.SECONDS : Int) - toSigned 16 (dayOffset offset leap)) / 86400).toNat % 2 ^ 30
    pos := 0 }

/-- LINK_SEQ, the slot count modulo 2^24 (R254). -/
def State.linkSeq (s : State) (p : Nat) : Nat := (s.rdg p).slots % 2 ^ 24

/-- The scrambler after a cell slot, and the 594 bits of the slot. -/
def State.lineOf (s : State) (p bits : Nat) : Nat × Nat := lineBlocks (slotBlocks (s.linkSeq p) bits) (s.rdg p).scrambler

/-- What a port puts on the wire in a cell slot (R254). -/
def State.onWire (s : State) (p bits : Nat) : State :=
  let l := s.lineOf p bits
  (s.setRdg p { s.rdg p with scrambler := l.1 }).emit (.cell p (s.linkSeq p) bits l.2)

/-- Bits of the deserializer's position in SU: each a 594th of a cell slot (R262). -/
def bitSu (n : Nat) : Int := roundEven (18874368 * n) (5 * 594)

/-- Departure and arrival at the ball of an internal stamp at a raw position, of an arrival with the deserializer's bit position taken off
(R262; log 107). -/
def State.rdgTx (s : State) (p : Nat) (pos : Int) : Int := s.stampOf pos + s.getI (pRDG p) RDG.TX_TERM.TERM_SU
def State.rdgRx (s : State) (p : Nat) (pos : Int) (bitPos : Nat) : Int := s.stampOf (pos - bitSu bitPos) - s.getI (pRDG p) RDG.RX_TERM.TERM_SU

/-- Send one cell: the first available of TRIG, a TIME cell that is due, MGMT, FILL (R256). -/
def State.sendCell (s : State) (p : Nat) : State :=
  let x := s.rdg p
  match x.trigs with
  | c :: rest => (s.setRdg p { x with trigs := rest }).onWire p (trigBits c)
  | [] =>
    if s.linkIsUp p ∧ x.timeDue ≤ s.clk.slot then
      let t := s.rdgTx p (roundEven x.cell5 5)
      let d : Departure := ⟨x.txSeq, if s.rdgBound p = tebUnknown ∨ !s.clk.seeded then none else some t, s.tebTs t, s.clk.stepSum⟩
      (s.setRdg p { x with timeDue := x.timeDue + s.timePeriod p, txSeq := wrapAdd 32 x.txSeq 1, deps := (d :: x.deps).take 64 }).onWire p
        (timeBits (s.timeCell p) (s.get (pRDG p) RDG.PEER.PEER_ID))
    else match x.mgmts with
      | c :: rest =>
        if x.mgmtSlot.all (fun k => decide (k + 8 ≤ x.slots)) then
          (s.setRdg p { x with mgmts := rest, mgmtSlot := some x.slots }).onWire p (mgmtBits c)
        else s.onWire p (fillBits s.domainNum s.nodeId)
      | [] => s.onWire p (fillBits s.domainNum s.nodeId)

/-- RIDGE_SLOT_TX (R254, R256). A port that was LOST trains again from its next cell slot (R257; log 107). -/
def execRidgeSlotTx (p : Nat) (s : State) : Host.Outcome State Fault Refusal :=
  guarded (.ridgeSlotTx p) s (fun s =>
    if s.cellDue p then
      let s1 := s.sendCell p
      let x := s1.rdg p
      (s1.onlyIf (s1.link p == 4) (fun s => s.put (pRDG p) RDG.STATUS.LINK 1)).setRdg p { x with cell5 := x.cell5 + cellSlot5, slots := x.slots + 1 }
    else s)

/-! ### Link states (R257, R260) -/

/-- RIDGE_BLOCK_LOCK (R257): from TRAINING, from LOST as the port trains again, or from DOWN as a signal returns with it. -/
def execRidgeBlockLock (p : Nat) (s : State) : Host.Outcome State Fault Refusal :=
  guarded (.ridgeBlockLock p) s (fun s =>
    if s.rdgOn p ∧ (s.link p = 0 ∨ s.link p = 1 ∨ s.link p = 4) then
      (s.put (pRDG p) RDG.STATUS.LINK 2).setRdg p { s.rdg p with good := 0, lastGood := s.clk.slot, signal := true }
    else s)

/-- The standby with PROMOTE takes the place of the port lost (R260). -/
def State.promote (s : State) (p : Nat) : State :=
  if s.rdgRole p ≠ 1 then s
  else match (List.range 6).find? (fun q => s.rdgOn q && s.rdgRole q == 2 && s.flag (pRDG q) RDG.PORT_CFG.PROMOTE) with
    | none => s
    | some q =>
      let s1 := (s.put (pRDG p) RDG.PORT_CFG.ROLE 2).put (pRDG q) RDG.PORT_CFG.ROLE 1
      (s1.putFlag (pRDG q) RDG.STATUS.PROMOTED true).irq (pRDG q) 2

/-- The LOST declaration (R257): what waits to leave goes, and the references on the port fail presence at once. -/
def State.linkLost (s : State) (p : Nat) : State :=
  let g := pRDG p
  let s1 := ((s.put g RDG.STATUS.LINK 4).putInst g RDG.LOSS_AT.INSTANT s.now).incSat g RDG.LINK_LOSSES.COUNT
  let s2 := (s1.setRdg p { s1.rdg p with trigs := [], mgmts := [], rx := none, xfers := [], good := 0 }).promote p
  let s3 := (s2.err g 0).irq g 0
  s3.forEach (List.range 8) (fun k s => if s.refKind k = 3 ∧ s.refIndex k = p ∧ s.refEnabled k ∧ 2 ≤ s.refState k then s.loseRef k else s)

/-- 32 consecutive slots, 1 843.2 ns, without a cell that passed (R257). -/
def State.linkSilent (s : State) (p : Nat) : Bool := s.linkIsUp p && decide ((s.rdg p).lastGood + 369 ≤ s.clk.slot)

/-- RIDGE_LINK_LOST (R257): block lock has failed, or 32 slots brought nothing; a port that was not yet UP trains again, and one that had
no block lock has lost its signal and is DOWN (log 107). -/
def execRidgeLinkLost (p : Nat) (s : State) : Host.Outcome State Fault Refusal :=
  guarded (.ridgeLinkLost p) s (fun s =>
    if s.linkIsUp p then s.linkLost p
    else if s.link p = 2 then s.put (pRDG p) RDG.STATUS.LINK 1
    else if s.link p = 1 ∨ s.link p = 4 then (s.put (pRDG p) RDG.STATUS.LINK 0).setRdg p { s.rdg p with signal := false }
    else s)

/-- A cell that passed R255: counted; UP after 8 delimiters and 64 cells; cells of a LINK candidate's check (R339). -/
def State.cellPassed (s : State) (p : Nat) : State :=
  let x := s.rdg p
  let s1 := (s.incWrap (pRDG p) RDG.CELLS_RX.COUNT).setRdg p { x with good := x.good + 1, lastGood := s.clk.slot }
  let s2 := { s1 with flash := { s1.flash with trial := s1.flash.trial.map (fun (t : Trial) =>
    { t with cells := t.cells.map (fun c => if c.1 = p then (c.1, c.2 + 1) else c) }) } }
  if s2.link p = 2 ∧ 72 ≤ x.good + 1 then
    ((s2.put (pRDG p) RDG.STATUS.LINK 3).setRdg p { s2.rdg p with rx := none, xfers := [], timeDue := s.clk.slot, obsSlot := s.clk.slot }).irq (pRDG p) 1
  else s2

/-- A cell that failed R255, counted in CRC_ERRORS or CELL_DROPS. While ALIGNING its delimiter counts among the eight, and the 64 cells begin
again. A TIME cell among those dropped shows by the gap in TX_SEQ (R263). -/
def State.cellFailed (s : State) (p : Nat) (crc : Bool) : State :=
  let x := s.rdg p
  (s.incSat (pRDG p) (if crc then RDG.CRC_ERRORS.COUNT else RDG.CELL_DROPS.COUNT)).setRdg p
    { x with good := if s.link p = 2 then min (x.good + 1) 8 else 0 }

/-- A port whose receiver has cells. -/
def State.hears (s : State) (p : Nat) : Bool := s.rdgOn p && (s.link p == 2 || s.link p == 3)

/-- CELL_DROP (R255). -/
def execCellDrop (p : Nat) (crc : Bool) (s : State) : Host.Outcome State Fault Refusal :=
  guarded (.cellDrop p crc) s (fun s => if s.hears p then s.cellFailed p crc else s)

/-- FILL_CELL_RX (R255). -/
def execFillCellRx (p : Nat) (s : State) : Host.Outcome State Fault Refusal :=
  guarded (.fillCellRx p) s (fun s => if s.hears p then s.cellPassed p else s)

/-- A received cell of any kind, checked against the domain and, for TRIG and MGMT cells, the role (R253, R255); `f` where it
passes on a link that is UP. -/
def State.receive (s : State) (p domain : Nat) (roleOk : Bool) (f : State → State) : State :=
  if !s.hears p then s
  else if domain ≠ s.domainNum ∨ !roleOk then s.cellFailed p false
  else
    let s1 := s.cellPassed p
    if s.linkIsUp p then f s1 else s1

/-- Whether a port's role accepts a TRIG or MGMT cell (R253). -/
def State.roleAccepts (s : State) (p : Nat) (upward : Bool) : Bool := if upward then s.rdgRole p == 0 else s.rdgRole p == 1

/-! ### Time transfer (R261 to R264) -/

/-- The transfer that a TIME cell completes, with its hop term (R263). The bound of t1 is PREV_DEP_TEB. -/
def State.transfer (s : State) (p : Nat) (c : TimeCell) : Option Transfer :=
  let x := s.rdg p
  match x.rx, x.deps.find? (fun d => d.seq == c.rxSeq) with
  | some r, some d =>
    match r.arr, d.t with
    | some t2, some t3 =>
      if c.depValid ∧ c.rxValid ∧ c.prevDepTeb ≠ tebUnknown ∧ wrapAdd 32 r.seq 1 = c.txSeq ∧ r.stepSeq = c.stepSeq ∧ r.steps = s.clk.stepSum ∧ d.steps = s.clk.stepSum then
        let fwd := t2 - c.prevDep
        let rev := (c.rxArr : Int) - t3
        let hop := tebAdd (2 * s.rdgBound p) (s.get (pRDG p) RDG.ASYM_UNC.UNC_PS)
        some ⟨rev - fwd + 2 * s.getSpan (pRDG p) RDG.ASYM.SPAN, fwd + rev, tebAdd c.prevDepTeb hop, hop, t2⟩
      else none
    | _, _ => none
  | _, _ => none

/-- UTC_FOLLOW (R264): the three fields of the upstream peer, under the tests of R19, wait for the next slot boundary. -/
def State.followUtc (s : State) (p : Nat) (c : TimeCell) : State :=
  let inst := ((c.leapDay : Int) * 86400 + toSigned 16 (dayOffset c.utcOffset c.leapPending)).toNat
  let same := s.get pTSC TSC.UTC_OFFSET.OFFSET == c.utcOffset && s.get pTSC TSC.LEAP_CFG.LEAP_PENDING == c.leapPending &&
    s.get pTSC TSC.LEAP_INSTANT.SECONDS == inst
  if s.rdgRole p ≠ 1 ∨ !s.flag (pRDG 0) RDG.NODE_CFG.UTC_FOLLOW ∨ s.isRoot ∨ same ∨ c.leapPending = 3 ∨
    (s.leapRefusal c.utcOffset c.leapPending inst (!s.clk.seeded)).isSome then s
  else { s with ridge := { s.ridge with utc := some (c.utcOffset, c.leapPending, inst) } }

/-- The slot boundary at which the fields of the upstream peer take effect (R264). -/
def State.utcSlot (s : State) : State :=
  match s.ridge.utc with
  | none => s
  | some (offset, pending, inst) =>
    let s1 := ((s.put pTSC TSC.UTC_OFFSET.OFFSET offset).put pTSC TSC.LEAP_CFG.LEAP_PENDING pending).put pTSC TSC.LEAP_INSTANT.SECONDS inst
    { s1 with ridge := { s1.ridge with utc := none } }.copyLeap

/-- A TIME cell on a link that is UP. -/
def State.timeRx (s : State) (p : Nat) (c : TimeCell) : State :=
  let g := pRDG p
  let s1 := (((s.put g RDG.PEER.PEER_ID c.src).put g RDG.PEER.PEER_DOMAIN c.domain).putFlag g RDG.PEER.PEER_ROOT c.root).putFlag g RDG.STATUS.PEER_VALID true
  let s2 := s1.putFlag g RDG.STATUS.ROLE_CLASH (c.upstream && s.rdgUpstream p)
  let x := s2.rdg p
  let arr := if s.rdgBound p = tebUnknown ∨ !s.clk.seeded then none else some (s.rdgRx p c.pos c.bitPos)
  let s3 := s2.setRdg p { x with rx := some ⟨c.txSeq, arr, c.stepSeq, s.clk.stepSum⟩, xfers := x.xfers ++ (s2.transfer p c).toList }
  s3.followUtc p c

/-- TIME_CELL_RX (R261 to R264). -/
def execTimeCellRx (p : Nat) (c : TimeCell) (s : State) : Host.Outcome State Fault Refusal :=
  guarded (.timeCellRx p c) s (fun s => s.receive p c.domain true (fun s => s.timeRx p c))

/-- The end of OBS_INTERVAL of a port that is UP. -/
def State.rdgObsDue (s : State) (p : Nat) : Bool :=
  s.linkIsUp p && decide ((s.rdg p).obsSlot + 200000 * 10 ^ s.get pREFSEL REFSEL.SEL_CFG.OBS_INTERVAL ≤ s.clk.slot)

/-- What a port shows and hands over at the end of an interval (R263). -/
def State.rdgObs (s : State) (p : Nat) : State :=
  let g := pRDG p
  let x := s.rdg p
  let s1 := s.setRdg p { x with xfers := [], obsSlot := x.obsSlot + 200000 * 10 ^ s.get pREFSEL REFSEL.SEL_CFG.OBS_INTERVAL }
  match x.xfers.getLast? with
  | none => s1
  | some last =>
    let n := 2 * x.xfers.length
    let theta := roundEven (sumI x.xfers (·.theta2)) n
    let delay := roundEven (sumI x.xfers (·.delay2)) n
    let worst := x.xfers.foldl (fun a t => if a.b < t.b then t else a) last
    let s2 := (s1.putSpan g RDG.THETA.SPAN theta).putSpan g RDG.PATH_DELAY.SPAN delay
    if !s.rdgUpstream p ∨ s.flag g RDG.STATUS.ROLE_CLASH then s2
    else
      let s3 := (s2.put g RDG.HOP_TERM.PS worst.hop).put g RDG.OBS_TEB.PS worst.b
      s3.forEach (List.range 8) (fun k s =>
        if s.refKind k = 3 ∧ s.refIndex k = p ∧ s.refEnabled k ∧ 3 ≤ s.stage then s.queueObs k ⟨last.t2, theta, worst.b, some delay, s.slewMade⟩ else s)

/-- RIDGE_OBS_INTERVAL (R263). -/
def execRidgeObsInterval (p : Nat) (s : State) : Host.Outcome State Fault Refusal :=
  guarded (.ridgeObsInterval p) s (fun s => if s.rdgObsDue p then s.rdgObs p else s)

/-! ### Broadcast triggers (R259, R265) -/

/-- Whether a downward cell is for this device (R259). -/
def State.forMe (s : State) (scope dst : Nat) : Bool :=
  match scope with
  | 0 => dst == s.nodeId
  | 1 => dst / 256 == s.nodeId / 256
  | 2 => true
  | _ => false

/-- Queue a TRIG cell on a port. -/
def State.queueTrig (s : State) (p : Nat) (c : TrigCell) : State := s.setRdg p { s.rdg p with trigs := (s.rdg p).trigs ++ [c] }

/-- Queue a MGMT cell on a port. -/
def State.queueMgmt (s : State) (p : Nat) (c : MgmtCell) : State := s.setRdg p { s.rdg p with mgmts := (s.rdg p).mgmts ++ [c] }

/-- A drop by the loop protection (R259). -/
def State.ridgeLoop (s : State) (p : Nat) : State := (s.incSat (pRDG p) RDG.CELL_DROPS.COUNT).err (pRDG p) 2

/-- The ports on which a cell that arrived on `p` goes on (R259). -/
def State.onward (s : State) (upward : Bool) : List Nat := if upward then (s.upPort.filter (fun q => s.linkIsUp q)).toList else s.downPorts

/-- Remember a trigger delivered or forwarded (R259). -/
def State.remember (s : State) (src seq : Nat) : State := { s with ridge := { s.ridge with seen := ((src, seq) :: s.ridge.seen).take 32 } }

/-- Deliver a trigger to the lines of its number, if it comes in time (R265). -/
def State.deliverTrig (s : State) (p : Nat) (c : TrigCell) : State :=
  if s.atLeastNs c.execAt 1024 then s.post ⟨.ridge c.num, c.execAt, s.tebTs c.execAt⟩
  else (s.incSat (pRDG p) RDG.TRIG_LATE.COUNT).irq (pRDG p) 3

/-- A TRIG cell on a link that is UP (R259, R265): it is remembered if it is delivered in time or goes on. -/
def State.trigRx (s : State) (p : Nat) (c : TrigCell) : State :=
  let mine := !c.upward && s.forMe c.scope c.dst
  let onto := if c.upward && s.isRoot then [] else s.onward c.upward
  let goes := !onto.isEmpty && decide (c.hops < 63)
  if !c.upward ∧ c.src = s.nodeId then s.ridgeLoop p
  else if s.ridge.seen.contains (c.src, c.seq) then s.incSat (pRDG p) RDG.DUPLICATES.COUNT
  else
    let s1 := (s.onlyIf (goes || (mine && s.atLeastNs c.execAt 1024)) (fun s => s.remember c.src c.seq)).onlyIf mine (fun s => s.deliverTrig p c)
    if onto.isEmpty then s1
    else if goes then s1.forEach onto (fun q s => s.queueTrig q { c with hops := c.hops + 1 })
    else s1.ridgeLoop p

/-- TRIG_CELL_RX (R259, R265). -/
def execTrigCellRx (p : Nat) (c : TrigCell) (s : State) : Host.Outcome State Fault Refusal :=
  guarded (.trigCellRx p c) s (fun s => s.receive p c.domain (s.roleAccepts p c.upward) (fun s => s.trigRx p c))

/-- ISSUE of TRIG_CMD (R265). -/
def State.issueTrig (s : State) : State × Verdict :=
  let t := s.getInst (pRDG 0) RDG.TRIG_ISSUE_AT.INSTANT
  let scope := s.get (pRDG 0) RDG.TRIG_ISSUE_ARG.SCOPE
  let dst := s.get (pRDG 0) RDG.TRIG_ISSUE_ARG.DST
  if !s.atLeastNs t (s.get (pRDG 0) RDG.TRIG_LEAD.NS) then refuse s .late
  else if s.ridge.lastIssue.any (fun k => decide (s.clk.slot < k + 200)) then refuse s .busy
  else if !(List.range 6).any (fun p => s.rdgOn p) then refuse s .state
  else
    let c : TrigCell := ⟨scope, false, 0, s.domainNum, s.nodeId, dst, s.get (pRDG 0) RDG.TRIG_ISSUE_ARG.TRIG_NUM, s.get (pRDG 0) RDG.TRIG_SEQ_NEXT.SEQ, t⟩
    let s1 := s.forEach s.downPorts (fun q s => s.queueTrig q c)
    let s2 := if s.forMe scope dst then (s1.remember c.src c.seq).post ⟨.ridge c.num, t, s.tebTs t⟩ else s1
    accept { s2.incWrap (pRDG 0) RDG.TRIG_SEQ_NEXT.SEQ with ridge := { s2.ridge with lastIssue := some s.clk.slot } }

/-- A write of TRIG_CMD (R267). -/
def State.trigCmd (s : State) (v : Nat) : State × Verdict := if bitsOf v 7 0 = 1 then s.issueTrig else refuse s .range

/-! ### Remote page access: the root (R266) -/

/-- The key in slot A (false) or B, if it is valid: its KEY_ID and the key. -/
def State.ridgeKey (s : State) (b : Bool) : Option (Nat × Nat) := if b then s.flash.settings.keyB else s.flash.settings.keyA

/-- The TAG of a cell under a key: the GMAC of its bits [511:128], HOPS taken as zero, under the IV of DST, SRC and COUNTER, cut to 96 bits.
The first byte of the key is the lowest of the container's (log 107). -/
def tagUnder (c : MgmtCell) (key : Nat) : Nat :=
  gmac (leDigits 8 32 key) (c.dst * 2 ^ 80 + c.src * 2 ^ 64 + c.counter) 3 (mgmtBits { c with hops := 0 } / 2 ^ 128) / 2 ^ 32

/-- A cell with its TAG under a key. -/
def tagCell (c : MgmtCell) (key : Nat) : MgmtCell := { c with tag := tagUnder c key }

/-- The valid key that carries the KEY_ID of a cell and under which its TAG verifies. -/
def State.tagKey (s : State) (c : MgmtCell) : Option Nat :=
  (((s.ridgeKey false).toList ++ (s.ridgeKey true).toList).find? (fun k => k.1 == c.keyId && tagUnder c k.2 == c.tag)).map (·.2)

/-- A write of MGMT_CMD on the root. -/
def State.mgmtCmd (s : State) (v : Nat) : State × Verdict :=
  let op := bitsOf v 7 0
  let g := pRDG 0
  if op = 0 ∨ 4 < op then refuse s .range
  else match (if s.isRoot then s.ridgeKey (s.flag g RDG.MGMT_DST.KEY_SEL) else none) with
    | none => refuse s .state
    | some (id, key) =>
      if s.ridge.request.isSome then refuse s .busy
      else
        let n := s.get g RDG.COUNTER.COUNTER
        let c : MgmtCell := ⟨0, false, 0, s.domainNum, s.nodeId, s.get g RDG.MGMT_DST.DST, n, op, id, 0, s.get g RDG.MGMT_ADDR.PAGE, s.get g RDG.MGMT_ADDR.OFFSET,
          if op % 2 = 0 then s.get g RDG.MGMT_DATA.DATA else 0, 0⟩
        let s1 := (s.forEach s.downPorts (fun q s => s.queueMgmt q (tagCell c key))).put g RDG.COUNTER.COUNTER (n / 2 ^ 32 * 2 ^ 32 + wrapAdd 32 (n % 2 ^ 32) 1)
        let s2 := s1.wr g RDG.MGMT_RESP.off 0
        accept { s2 with ridge := { s2.ridge with request := some (n, op, s.clk.slot) } }

/-- A MGMT cell that fails authentication or its counter (R266). -/
def State.authFail (s : State) (p : Nat) (bad : Bool) : State :=
  let s1 := s.incSat (pRDG p) RDG.AUTH_FAILS.COUNT
  if bad then s1.err (pRDG p) 1 else s1

/-- Forward a MGMT cell (R259). -/
def State.forwardMgmt (s : State) (p : Nat) (c : MgmtCell) : State :=
  let out := s.onward c.upward
  if out.isEmpty then s
  else if 63 ≤ c.hops then s.ridgeLoop p
  else s.forEach out (fun q s => s.queueMgmt q { c with hops := c.hops + 1 })

/-- A response at the root (R266). -/
def State.mgmtAnswer (s : State) (p : Nat) (c : MgmtCell) : State :=
  let g := pRDG 0
  if (s.tagKey c).isNone then s.authFail p true
  else match s.ridge.request with
    | none => s
    | some (n, op, _) =>
      if c.counter ≠ n ∨ c.op ≠ op + 128 then s
      else
        let s1 := ((s.put g RDG.MGMT_RESP.OP c.op).put g RDG.MGMT_RESP.RESULT c.result).putFlag g RDG.MGMT_RESP.DONE true
        let s2 := if op % 2 = 1 then s1.put g RDG.MGMT_RESP_DATA.DATA c.data else s1
        { s2 with ridge := { s2.ridge with request := none } }.irq g 4

/-- MGMT_RESPONSE_RX (R259, R266): an upward cell goes on upstream, and ends at the root. -/
def execMgmtResponseRx (p : Nat) (c : MgmtCell) (s : State) : Host.Outcome State Fault Refusal :=
  guarded (.mgmtResponseRx p c) s (fun s =>
    s.receive p c.domain (s.rdgRole p == 0) (fun s =>
      let u := { c with upward := true }
      if s.isRoot then s.mgmtAnswer p u else s.forwardMgmt p u))

/-- A request has been unanswered for 10 ms. -/
def State.mgmtLate (s : State) : Bool := s.ridge.request.any (fun r => decide (r.2.2 + 2000000 ≤ s.clk.slot))

/-- MGMT_TIMEOUT (R266). -/
def execMgmtTimeout (s : State) : Host.Outcome State Fault Refusal :=
  guarded .mgmtTimeout s (fun s =>
    if s.mgmtLate then
      let s1 := (s.putFlag (pRDG 0) RDG.MGMT_RESP.TIMEOUT true).put (pRDG 0) RDG.MGMT_RESP.RESULT Res.busy.code
      { s1 with ridge := { s1.ridge with request := none } }
    else s)

end Sys2Proof.Machine
end

