-- ==== Sys2Proof/Machine/Flash.lean ====
section
/-! DEFINITION. Firmware updates (chapter 15): the container in STAGING, activation and its checks, the management restart, the
copy, trial, confirmation and fallback, settings, keys, the persistent log, and recovery. What cryptography finds for a
container (R328) and what its ciphertext holds come with FINISH (log 30). -/

namespace Sys2Proof.Machine

/-! ### The container (R327) -/

/-- A byte of STAGING, or of the area that a recovery writes: erased flash reads 0xFF. -/
def State.stagedByte (s : State) (a : Nat) : Nat := sparseGet (fun _ => 255) s.flash.staging a

/-- `n` bytes from `a` as a little-endian number. -/
def State.stagedNat (s : State) (a n : Nat) : Nat := leNat 8 ((List.range n).map (fun k => s.stagedByte (a + k)))

/-- Whether `n` bytes from `a` are zero: each is listed, since erased flash reads 0xFF, and holds zero. -/
def State.stagedZero (s : State) (a n : Nat) : Bool :=
  s.flash.staging.filter (fun e => decide (a ≤ e.1) && decide (e.1 < a + n)) == (List.range' a n).map (fun k => (k, 0))

/-- Put bytes from `a`. -/
def State.stageBytes (s : State) (a : Nat) (bytes : List Nat) : State :=
  { s with flash := { s.flash with
      staging := (bytes.zipIdx).foldl (fun m b => sparseSet (fun _ => 255) m (a + b.2) b.1) s.flash.staging } }

/-- One of the 64 compatibility entries of the header. -/
def State.stagedCompat (s : State) (k : Nat) : Nat := s.stagedNat (128 + 4 * k) 4

/-- The header in STAGING, as far as the T48 acts on it. -/
def State.stagedHdr (s : State) : ImageHdr where
  component := s.stagedByte 8
  ownerSigned := bitOf (s.stagedByte 9) 0
  keyIndex := s.stagedByte 10
  secVer := s.stagedNat 12 4
  version := s.stagedNat 16 4
  schema := s.stagedNat 20 4
  payload := s.stagedNat 28 4
  provides := (List.range (s.stagedByte 112)).map s.stagedCompat
  requires := (List.range (s.stagedByte 113)).map (fun k => s.stagedCompat (s.stagedByte 112 + k))
  hash := s.stagedNat 384 48
  owner := s.flash.checked.owner

/-- Bytes of a component's area (R325). A MANIFEST or a key has no area but STAGING. -/
def areaSize (c : Nat) : Nat :=
  match c with
  | 1 => 0x600000
  | 2 => 0x40000
  | 3 => 0x100000
  | 4 => 0xC0000
  | 5 => 0x100000
  | _ => 0x800000

/-- Whether the header fields lie within the ranges of R327. -/
def State.hdrOk (s : State) : Bool :=
  let h := s.stagedHdr
  let np := s.stagedByte 112
  let nr := s.stagedByte 113
  s.stagedNat 0 4 == 0x31434659 && s.stagedNat 4 2 == 1 && s.stagedNat 6 2 == 0x400 &&
    decide (1 ≤ h.component) && decide (h.component ≤ 7) && decide (s.stagedByte 9 ≤ 1) && decide (h.keyIndex ≤ 3) &&
    s.stagedZero 11 1 && decide (h.secVer ≤ 64) && (h.component == 1 || h.schema == 0) &&
    (h.component == 4 || h.component == 7 || s.stagedZero 32 8) && s.stagedZero 52 4 && decide (np ≤ 32) && decide (nr ≤ 32) &&
    s.stagedZero 114 14 && s.stagedZero (128 + 4 * (np + nr)) (256 - 4 * (np + nr)) && (h.ownerSigned || s.stagedZero 528 96) &&
    s.stagedZero 624 400

/-- What FINISH checks without signatures (R330): the header, the area of the component (R325), and the length. -/
def State.finishOk (s : State) : Bool :=
  s.hdrOk && decide (1024 + s.stagedHdr.payload ≤ areaSize s.stagedHdr.component) &&
    s.get pFLASH FLASH.DOWNLOAD_COUNT.BYTES == 1024 + s.stagedHdr.payload

/-- Rollback counter of a component (R329). -/
def State.otpSecVer (s : State) (c : Nat) : Nat := s.get pFLASH (FLASH.SLOT.OTP_SEC_VER (c - 1))

/-- Whether an owner key is enrolled (R348). -/
def State.enrolled (s : State) : Bool := s.flag pFLASH FLASH.OTP_INFO.OWNER_ENROLLED

/-- Whether an image carries an OWNER_SIG that verifies under the enrolled key (R328). Where OTP brought the enrolment, the hash there is
not among what the model reads: the signature then verifies under some key (log 31). -/
def State.ownerOk (s : State) (h : ImageHdr) : Bool :=
  h.ownerSigned && match s.flash.ownerKey with | some k => h.owner == k | none => h.owner != 0

/-- Whether the container in STAGING passes R328, its signatures, hash and tag as they were found. -/
def State.stagedVerify (s : State) : Bool :=
  let h := s.stagedHdr
  s.flash.checked.ok && s.hdrOk && (List.range 4).any (fun k => s.stagedByte (24 + k) == 0xB1) &&
    (h.component == 7 || !bitOf (s.get pFLASH FLASH.OTP_INFO.KEY_REVOKED) h.keyIndex) && (!s.enrolled || s.ownerOk h) &&
    (decide (5 < h.component) || decide (s.otpSecVer h.component ≤ h.secVer)) &&
    ((h.component != 4 && h.component != 7) || s.stagedNat 32 8 == s.get pFLASH FLASH.DEVICE_UID.UID)

/-! ### Slots -/

/-- The image of a component in a slot. -/
def State.image (s : State) (c slot : Nat) : Option ImageHdr :=
  let p := s.flash.slots.getD (c - 1) (none, none)
  if slot = 0 then p.1 else p.2

/-- Put or erase the image of a component in a slot. -/
def State.setImage (s : State) (c slot : Nat) (h : Option ImageHdr) : State :=
  let p := s.flash.slots.getD (c - 1) (none, none)
  { s with flash := { s.flash with slots := s.flash.slots.set (c - 1) (if slot = 0 then (h, p.2) else (p.1, h)) } }

/-- Active slot, or active copy, of a component. -/
def State.activeSlot (s : State) (c : Nat) : Nat := s.flash.active.getD (c - 1) 0

/-- The active image of a component. -/
def State.activeImage (s : State) (c : Nat) : Option ImageHdr := s.image c (s.activeSlot c)

/-- The image that runs: of a component on trial its candidate, else the active image. -/
def State.runningMain (s : State) : Option ImageHdr :=
  match s.flash.trial with
  | some t => if t.component = 1 ∧ !t.copied then some s.stagedHdr else s.activeImage 1
  | none => s.activeImage 1

/-- Name a slot active. -/
def State.setActive (s : State) (c slot : Nat) : State := { s with flash := { s.flash with active := s.flash.active.set (c - 1) slot } }

/-- Put whether the other slot of a component holds an image that passed verification (R326). -/
def State.setOther (s : State) (c : Nat) (ok : Bool) : State := { s with flash := { s.flash with otherOk := s.flash.otherOk.set (c - 1) ok } }

/-- The HANDOVER entries of a list. -/
def handoverOf (l : List Nat) : List Nat := l.filter (fun e => bitsOf e 15 0 == 0x0201)

/-- The registers that show the slots and the running MAIN. -/
def State.showImages (s : State) : State :=
  let s1 := s.forEach (List.range 5) (fun i s =>
    let a := s.activeImage (i + 1)
    let o := s.image (i + 1) (1 - s.activeSlot (i + 1))
    ((((s.put pFLASH (FLASH.VERSION.VERSION i) (a.elim 0 (·.version))).put pFLASH (FLASH.SLOT.IMAGE_SEC_VER i) (a.elim 0 (·.secVer))).putFlag
      pFLASH (FLASH.SLOT.OTHER_VALID i) (s.flash.otherOk.getD i false)).put pFLASH (FLASH.SLOT.ACTIVE i) (s.activeSlot (i + 1))).put
      pFLASH (FLASH.OTHER_VERSION.VERSION i) (o.elim 0 (·.version)))
  let e := (handoverOf (s.runningMain.elim [] (·.provides))).headD 0
  (s1.put pFLASH FLASH.HANDOVER_INFO.MAJOR (bitsOf e 31 24)).put pFLASH FLASH.HANDOVER_INFO.MINOR (bitsOf e 23 16)

/-! ### Compatibility (R332) -/

/-- Whether a provided entry meets a required one. -/
def meets (req prov : Nat) : Bool :=
  bitsOf req 15 0 == bitsOf prov 15 0 && bitsOf req 31 24 == bitsOf prov 31 24 && decide (bitsOf req 23 16 ≤ bitsOf prov 23 16)

/-- A requirement that fails: its entry, who requires it, and who provides its interface with which entry. -/
structure Unmet where
  req : Nat
  requirer : Nat
  provider : Option (Nat × Nat)
deriving DecidableEq, Repr

/-- The set that a candidate forms with the active images of the other four components. -/
def State.candidateSet (s : State) (h : ImageHdr) : List (Nat × ImageHdr) :=
  (List.range 5).filterMap (fun i =>
    if i + 1 = h.component then some (i + 1, h) else (s.activeImage (i + 1)).map (fun (x : ImageHdr) => (i + 1, x)))

/-- The first provider of an interface among members. -/
def provider (set : List (Nat × ImageHdr)) (iface : Nat) : Option (Nat × Nat) :=
  (set.flatMap (fun m => m.2.provides.map (fun e => (m.1, e)))).find? (fun e => bitsOf e.2 15 0 == iface)

/-- The requirements of members that no member meets, in the order of the components. -/
def unmet (set : List (Nat × ImageHdr)) : List Unmet :=
  set.flatMap (fun m => (m.2.requires.filter (fun r => !set.any (fun x => x.2.provides.any (meets r)))).map (fun r =>
    ⟨r, m.1, provider set (bitsOf r 15 0)⟩))

/-- The HANDOVER requirements that fail between a MAIN candidate and the running MAIN, in both directions. -/
def State.handoverUnmet (s : State) (h : ImageHdr) : List Unmet :=
  match s.runningMain with
  | none => []
  | some m =>
    let one (a b : ImageHdr) := ((handoverOf a.requires).filter (fun r => !b.provides.any (meets r))).map (fun r =>
      (⟨r, 1, provider [(1, b)] 0x0201⟩ : Unmet))
    if h.component = 1 then one h m ++ one m h else []

/-- All that fails for a candidate; at a reset HANDOVER does not count. -/
def State.failsFor (s : State) (h : ImageHdr) (atReset : Bool) : List Unmet :=
  let u := unmet (s.candidateSet h) ++ s.handoverUnmet h
  if atReset then u.filter (fun x => bitsOf x.req 15 0 != 0x0201) else u

/-- CHECK_IFACE and CHECK_VERSIONS name the first failing requirement (R331). -/
def State.showUnmet (s : State) (u : Unmet) : State :=
  let p := u.provider.getD (0, 0xFFFF0000)
  (s.wr pFLASH FLASH.CHECK_IFACE.off (BitVec.ofNat 32 (packRec [(16, 16, bitsOf u.req 15 0), (8, 3, u.requirer), (0, 3, p.1)]))).wr
    pFLASH FLASH.CHECK_VERSIONS.off (BitVec.ofNat 32 (packRec [(16, 16, bitsOf u.req 31 16), (0, 16, bitsOf p.2 31 16)]))

/-! ### The persistent log (R346) -/

/-- Write an entry: code, component, version, data. -/
def State.flashLog (s : State) (code c version data : Nat) : State :=
  let e := packRec [(224, 32, s.flash.logNext), (192, 32, data), (160, 32, version), (144, 8, c), (128, 16, code),
    (0, 128, if 2 ≤ s.stage then instantBits s.now.toNat else 0)]
  let k := s.flash.logNext % 24576
  { s with flash := { s.flash with
      log := sparseSet (fun _ => 2 ^ 256 - 1) s.flash.log k e
      logNext := s.flash.logNext + 1 } }

/-! ### Pieces of the page -/

/-- STAGING_STATE. -/
def State.stagingState (s : State) : Nat := s.get pFLASH FLASH.STATUS.STAGING_STATE

/-- STAGING returns to EMPTY. -/
def State.emptyStaging (s : State) : State :=
  { s.put pFLASH FLASH.STATUS.STAGING_STATE 0 with flash := { s.flash with staging := [], marked := false } }

/-! ### The boot table (R326) -/

/-- BOOTS_LEFT and NEXT_INDEX stand in their registers; the rest of the boot table beside them. -/
def State.bootNow (s : State) : BootTable where
  active := s.flash.active
  otherOk := s.flash.otherOk
  trial := s.flash.trial
  boots := s.get pFLASH FLASH.TRIAL_STATE.BOOTS_LEFT
  staging := s.stagingState
  marked := s.flash.marked
  copying := s.flash.copy.map (·.1)
  manifest := s.flash.manifest
  next := s.get pFLASH FLASH.MANIFEST_STATE.NEXT_INDEX

/-- Whether BOOT_TABLE_1 governs: the copy with the higher sequence number and a valid CRC. -/
def State.bootOne (s : State) : Bool := s.flash.boot.2.valid && (!s.flash.boot.1.valid || decide (s.flash.boot.1.seq < s.flash.boot.2.seq))

/-- The copy that governs. -/
def State.bootTable (s : State) : BootTable := if s.bootOne then s.flash.boot.2 else s.flash.boot.1

/-- A change of what the boot table holds is written to the other copy, with the next sequence number. -/
def State.writeBoot (s : State) : State :=
  let g := s.bootTable
  let new := { s.bootNow with seq := g.seq + 1 }
  if { new with seq := g.seq } = g then s
  else { s with flash := { s.flash with boot := if s.bootOne then (new, s.flash.boot.2) else (s.flash.boot.1, new) } }

/-- A start whose last boot-table write was cut short: the older copy governs (R345), and what it holds is as it was. -/
def State.olderBoot (s : State) : State :=
  let b := s.flash.boot
  let s1 := { s with flash := { s.flash with boot := if s.bootOne then (b.1, { b.2 with valid := false }) else ({ b.1 with valid := false }, b.2) } }
  let g := s1.bootTable
  let s2 := ((((s1.put pFLASH FLASH.TRIAL_STATE.BOOTS_LEFT g.boots).put pFLASH FLASH.STATUS.STAGING_STATE g.staging).put pFLASH
    FLASH.MANIFEST_STATE.NEXT_INDEX g.next).putFlag pFLASH FLASH.STATUS.TRIAL g.trial.isSome).putFlag pFLASH FLASH.STATUS.COPYING g.copying.isSome
  { s2 with flash := { s2.flash with
      active := g.active, otherOk := g.otherOk, trial := g.trial, marked := g.marked, manifest := g.manifest
      copy := g.copying.map (fun c => (c, s2.flash.journal.length, false)) } }

/-- Whether a management restart is in progress. -/
def State.restarting (s : State) : Bool := s.flash.restart.isSome

/-- Whether the FLASH page takes the recovery commands (R347): recovery, or CALDATA alone. -/
def State.flRecovery (s : State) : Bool := s.power.recovery || !s.power.calOk

/-- LAST_OUTCOME. -/
def State.outcome (s : State) (c reason : Nat) : State := (s.put pFLASH FLASH.LAST_OUTCOME.COMPONENT c).put pFLASH FLASH.LAST_OUTCOME.REASON reason

/-- Slots that writing `n` bytes takes at 256 KiB/s (R330). -/
def flashTime (n : Nat) : Nat := ceilDiv (n * 200000000) 262144

/-- Raise the rollback counter of a component (R329): an image in the other slot below it loses OTHER_VALID. -/
def State.raiseCounter (s : State) (h : ImageHdr) : State :=
  let c := h.component
  let s1 := if s.otpSecVer c < h.secVer then (s.put pFLASH (FLASH.SLOT.OTP_SEC_VER (c - 1)) h.secVer).flashLog 12 c h.version h.secVer else s
  match s1.image c (1 - s1.activeSlot c) with
  | some o => if o.secVer < s1.otpSecVer c then s1.setOther c false else s1
  | none => s1

/-- The words whose terms follow a setting: LANE_TERM, LOOP_TERM and INPUT_TERM. -/
def formWords : List (Nat × Nat) :=
  (List.range 12).flatMap (fun q => (List.range 4).flatMap (fun l => [(pQUAD q, QUAD.LANE_TERM.off l), (pQUAD q, QUAD.LANE_TERM_2.off l)])) ++
    [(pCAL, CAL.LOOP_TERM_RISE.off), (pCAL, CAL.LOOP_TERM_FALL.off)] ++
    (List.range 16).flatMap (fun i => [(pTIN i, TIN.INPUT_TERM_RISE.off), (pTIN i, TIN.INPUT_TERM_FALL.off)])

/-- The terms of a CALDATA image come in force at a slot boundary (R338): words are put, and terms that follow a setting stand for the
present settings. Stamps of crossings captured before keep the INPUT_TERM before (R166). -/
def State.useFactory (s : State) (words terms : List (Nat × Nat × Nat)) (forms : List FormTerm) : State :=
  let s1 := s.forEach (List.range 16) (fun i s => s.keepTerms i)
  { s1 with power := { s1.power with factory := terms, forms := forms } }.putTerms words

/-- Factory terms take effect (R316, R338): the words they replace, and the new state. -/
def State.loadFactory (s : State) (terms : List (Nat × Nat × Nat)) (forms : List FormTerm) : List (Nat × Nat × Nat) × State :=
  let l := terms.filter (fun t => factoryWord t.1 t.2.1)
  let old := (l.map (fun t => (t.1, t.2.1)) ++ formWords).map (fun w => (w.1, w.2, (s.rd w.1 w.2).toNat))
  (old, (s.useFactory l l forms).putForms)

/-! ### The settings store (R343, R344) -/

/-- SETTINGS_1 where `one` is set, else SETTINGS_0. -/
def State.storeCopy (s : State) (one : Bool) : SettingsCopy := if one then s.flash.copies.2 else s.flash.copies.1

/-- Put a copy of the settings store. -/
def State.putCopy (s : State) (one : Bool) (c : SettingsCopy) : State :=
  { s with flash := { s.flash with copies := if one then (s.flash.copies.1, c) else (c, s.flash.copies.2) } }

/-- Whether SETTINGS_1 is the copy written last. -/
def State.lastCopy (s : State) : Bool :=
  let c := s.flash.copies
  c.2.valid && (!c.1.valid || decide (c.1.seq < c.2.seq))

/-- The valid copy of a schema with the higher sequence number (R343). -/
def State.storeOf (s : State) (schema : Nat) : Option Bool :=
  let holds (one : Bool) : Bool := (s.storeCopy one).valid && (s.storeCopy one).schema == schema
  if holds s.lastCopy then some s.lastCopy else if holds (!s.lastCopy) then some (!s.lastCopy) else none

/-- The copy in use. -/
def State.copyInUse (s : State) : Bool := (s.storeOf (s.get pFLASH FLASH.SCHEMA.IN_USE)).getD s.lastCopy

/-- The settings that are in flash. -/
def State.stored (s : State) : Settings := (s.storeCopy s.copyInUse).body

/-- Write a copy, with the next sequence number. -/
def State.writeCopy (s : State) (one : Bool) (schema : Nat) (k : Settings) : State :=
  s.putCopy one ⟨true, schema, max s.flash.copies.1.seq s.flash.copies.2.seq + 1, k⟩

/-- The settings in use reach the flash (R343): where the other copy holds the schema too, or nothing, they go there, so that copies are
written in turn; one of another schema stays as it is (log 110). -/
def State.writeStore (s : State) : State :=
  let schema := s.get pFLASH FLASH.SCHEMA.IN_USE
  match s.storeOf schema with
  | none => s
  | some k =>
    let o := s.storeCopy (!k)
    if s.stored = s.flash.settings then s else s.writeCopy (if !o.valid || o.schema == schema then !k else k) schema s.flash.settings

/-- A start finds that the last write of the store was cut short (R345): that copy is not valid. -/
def State.tearStore (s : State) : State := s.putCopy s.lastCopy { s.storeCopy s.lastCopy with valid := false }

/-- SCHEMA names the copy in use and the other. -/
def State.showSchema (s : State) (schema : Nat) : State :=
  let o := s.storeCopy (!((s.storeOf schema).getD s.lastCopy))
  s.wr pFLASH FLASH.SCHEMA.off (BitVec.ofNat 32 (packRec [(16, 16, schema), (0, 16, if o.valid then o.schema else 0)]))

/-- KEY_STATE of the keys in the store (R267). -/
def State.showKeys (s : State) : State :=
  let k := s.flash.settings
  s.wr (pRDG 0) RDG.KEY_STATE.off (BitVec.ofNat 32 (packRec [(24, 8, k.keyA.elim 0 (·.1)), (16, 8, k.keyB.elim 0 (·.1)),
    (1, 1, b2n k.keyB.isSome), (0, 1, b2n k.keyA.isSome)]))

/-- The registers that the settings stand in: the traceability record, STAGE_CFG, FL_CONFIG and KEY_STATE (R313, R343). -/
def State.showSettings (s : State) : State :=
  let k := s.flash.settings
  let s1 := s.forEach (List.range 100) (fun w s =>
    s.wr pDOMAIN (DOMAIN.TRACE.off + 4 * w) ((k.trace[w]?).elim (regReset (regKey pDOMAIN (DOMAIN.TRACE.off + 4 * w))) (BitVec.ofNat 32)))
  ((s1.wr pDEV DEV.STAGE_CFG.off (BitVec.ofNat 32 k.stageCfg)).wr pFLASH FLASH.FL_CONFIG.off (BitVec.ofNat 32 k.flConfig)).showKeys

/-- The settings in force where migration fails (R344): what the handover area carries stays, and all else takes its default. -/
def State.carried (s : State) : Settings :=
  match s.flash.handover with
  | none => {}
  | some h =>
    let old := s.stored
    let p := h.settings.getD old
    { trace := if p.trace = old.trace then [] else p.trace
      stageCfg := if p.stageCfg = old.stageCfg then 0 else p.stageCfg
      flConfig := if p.flConfig = old.flConfig then 600 * 65536 else p.flConfig
      keyA := if p.keyA = old.keyA then none else p.keyA
      keyB := if p.keyB = old.keyB then none else p.keyB
      counterHi := s.flash.settings.counterHi
      means := h.means }

/-- A MAIN image reads the copy of its own schema (R343), where it goes on with the writes that the handover area carries; or it migrates
the copy in use into the other; or it runs in reduced service (R344). -/
def State.mainReads (s : State) (h : ImageHdr) (migrates : Bool) : State :=
  let go (s : State) (k : Settings) : State :=
    { (s.showSchema h.schema).putFlag pFLASH FLASH.STATUS.REDUCED false with flash := { s.flash with settings := k } }
  let live := s.flash.handover.isSome
  match s.storeOf h.schema with
  | some k => go s (if live ∧ s.get pFLASH FLASH.SCHEMA.IN_USE = h.schema then s.flash.settings else (s.storeCopy k).body)
  | none =>
    if migrates then
      let k := if live then s.flash.settings else s.stored
      go (s.writeCopy (!s.copyInUse) h.schema k) k
    else { (s.putFlag pFLASH FLASH.STATUS.REDUCED true).flashLog 7 1 h.version 0 with
      flash := { (s.flashLog 7 1 h.version 0).flash with settings := s.carried } }

/-- MAIN has read the store: its settings stand in their registers, and a MAIN on trial has them or not (R339, R344). -/
def State.mainHasStore (s : State) (h : ImageHdr) (migrates : Bool) : State :=
  let s1 := (s.mainReads h migrates).showSettings
  let ok := !s1.flag pFLASH FLASH.STATUS.REDUCED
  { s1 with flash := { s1.flash with trial := s1.flash.trial.map (fun (t : Trial) => { t with migrated := ok }) } }

/-- What Kalwin firmware restores at a start (R313, R343). -/
def State.restoreSettings (s : State) (migrates : Bool) : State :=
  match s.runningMain with
  | some h => (s.mainHasStore h migrates).readMeans
  | none => s

/-! ### The management restart (R334) -/

/-- The handover area as MAIN writes it now. -/
def State.handoverNow (s : State) : Handover where
  means := s.xo.means
  hour := s.xo.hour
  settings := if s.stored = s.flash.settings then none else some s.flash.settings
  highest := s.ridge.highest
  counter := s.get (pRDG 0) RDG.COUNTER.COUNTER
  request := s.ridge.request
  trial := s.flash.trial
  boots := s.get pFLASH FLASH.TRIAL_STATE.BOOTS_LEFT

/-- Begin a management restart: the running MAIN writes the handover area. -/
def State.beginRestart (s : State) (why : RestartWhy) : State :=
  { (s.putFlag pFLASH FLASH.STATUS.RESTARTING true).incWrap pFLASH FLASH.RESTARTS.COUNT with
    flash := { s.flash with restart := some (s.clk.slot, why), late := false, verified := none, handover := some s.handoverNow } }

/-- The new MAIN finds the handover CRC bad (R336): its state is what the settings store holds, writes of the store not yet in flash are
lost, a request under way completes with BUSY, and counters begin as at a start (R266; log 108). -/
def State.handoverLost (s : State) : State :=
  let s1 := { s with flash := { s.flash with settings := s.stored, handover := none } }.readMeans
  let busy := s1.ridge.request.isSome
  let s2 := { s1 with ridge := { s1.ridge with highest := none, request := none } }.onlyIf busy (fun s =>
    ((s.put (pRDG 0) RDG.MGMT_RESP.RESULT Res.busy.code).putFlag (pRDG 0) RDG.MGMT_RESP.DONE true).irq (pRDG 0) 4)
  let s3 := if s2.isRoot then s2.rootStart else s2
  (s3.flashLog 8 1 (s3.runningMain.elim 0 (·.version)) 0).err pFLASH 0

/-! ### Microcode banks (R338) -/

/-- The units that run the microcode of a component. -/
def unitsOf (c : Nat) : List BankUnit :=
  match c with
  | 2 => [.eave]
  | 3 => (List.range 6).map .ridge ++ (List.range 2).map .eth
  | _ => []

/-- The place of a unit among the banks. -/
def bankIndex (u : BankUnit) : Nat :=
  match u with
  | .eave => 0
  | .ridge p => 1 + p
  | .eth p => 7 + p

/-- Units are to swap; those that waited to swap the other way stay as they are. -/
def State.queueSwaps (s : State) (us : List BankUnit) : State := { s with flash := { s.flash with swaps := us } }

/-- Whether a unit stands at a boundary at which it may swap: the Eave at a count edge with no program running (no I2C transaction outlasts a
step), a Ridge port at its next cell slot, or while it sends none, an Ethernet port between frames (log 108). -/
def State.bankReady (s : State) (u : BankUnit) : Bool :=
  match u with
  | .eave => s.eave.pc.isNone && !s.eave.stopped && decide (s.eave.phase < 64)
  | .ridge p => !s.rdgOn p || s.cellDue p
  | .eth _ => true

/-! ### Confirmation and fallback (R341, R342) -/

/-- The trial ends: TRIAL and TRIAL_STATE clear. -/
def State.trialOver (s : State) : State :=
  { (s.putFlag pFLASH FLASH.STATUS.TRIAL false).wr pFLASH FLASH.TRIAL_STATE.off 0 with flash := { s.flash with trial := none } }

/-- Confirmation (R341): under a manifest, that of its next entry advances it (R333). -/
def State.confirmTrial (s : State) (t : Trial) : State :=
  match s.activeImage t.component with
  | none => s
  | some h =>
    let s1 := (((s.trialOver.raiseCounter h).irq pFLASH 3).flashLog 5 h.component h.version 0).outcome h.component 1
    let n := s1.get pFLASH FLASH.MANIFEST_STATE.NEXT_INDEX + 1
    let s2 := if s1.flash.manifest.isEmpty ∨ !t.listed then s1
      else if s1.flash.manifest.length ≤ n then
        { (s1.wr pFLASH FLASH.MANIFEST_STATE.off 0).putFlag pFLASH FLASH.STATUS.MANIFEST_ACTIVE false with flash := { s1.flash with manifest := [] } }
      else s1.put pFLASH FLASH.MANIFEST_STATE.NEXT_INDEX n
    s2.showImages

/-- Fallback begins: a copy stops, its area stays invalid, and the previous slot comes back through a management restart
(R342, R350). -/
def State.beginFallback (s : State) (reason : Nat) : State :=
  match s.flash.trial with
  | none => s
  | some _ =>
    let s1 := { s.putFlag pFLASH FLASH.STATUS.COPYING false with flash := { s.flash with copy := none } }
    s1.beginRestart (.fallback reason)

/-- What the fallback comes to once MAIN runs again (R342): the previous slot active, microcode banks that had swapped to swap back, CALDATA
terms back, the settings as they were before the trial. -/
def State.endFallback (s : State) (t : Trial) (reason : Nat) : State :=
  let c := t.component
  let version := if t.copied then (s.activeImage c).elim 0 (·.version) else s.stagedHdr.version
  let s1 := if t.copied then (s.setActive c t.prev).setOther c true else (s.emptyStaging.setImage c (1 - t.prev) none).setOther c false
  let s2 := if c = 4 then s1.useFactory t.oldTerms t.oldFactory t.oldForms else s1.queueSwaps t.units
  let was := bitsOf t.schemaWas.toNat 31 16
  let s3 : State := { s2.putFlag pFLASH FLASH.STATUS.REDUCED false with flash := { s2.flash with
    settings := s2.flash.saved, journal := [], copyEnd := none
    copies := if s2.get pFLASH FLASH.SCHEMA.IN_USE = was then s2.flash.savedCopies else s2.flash.copies } }
  (((((s3.showSchema was).showSettings.trialOver.err pFLASH 2).irq pFLASH 4).outcome c reason).flashLog 6 c version reason).showImages

/-! ### Settings (R343) -/

/-- Store settings, unless MAIN runs in reduced service (R344). -/
def State.store (s : State) (f : Settings → Settings) : Option State :=
  if s.flag pFLASH FLASH.STATUS.REDUCED then none else some { s with flash := { s.flash with settings := f s.flash.settings } }

/-! ### Trial and copy (R334, R337, R339) -/

/-- 64 KiB blocks of a container. -/
def blocksOf (h : ImageHdr) : Nat := ceilDiv (1024 + h.payload) 65536

/-- A MAIN candidate starts: it reads or migrates the settings store (R344), and revokes the keys that it instructs to (R328; log 108). -/
def State.startMain (s : State) (h : ImageHdr) : State :=
  (s.put pFLASH FLASH.OTP_INFO.KEY_REVOKED (Nat.lor (s.get pFLASH FLASH.OTP_INFO.KEY_REVOKED) s.flash.checked.revoke)).mainHasStore h s.flash.checked.migrates

/-- Whether the container matches the entry of the manifest that comes next (R333). -/
def State.matchesManifest (s : State) : Bool :=
  let h := s.stagedHdr
  match s.flash.manifest[s.get pFLASH FLASH.MANIFEST_STATE.NEXT_INDEX]? with
  | some e => e.component == h.component && e.version == h.version && e.secVer == h.secVer && e.hash == h.hash
  | none => s.flash.manifest.isEmpty

/-- The LOADER has verified the candidate: its component is COPYING, and the copy engine starts (R334, R337). -/
def State.beginCopy (s : State) : State :=
  let h := s.stagedHdr
  let c := h.component
  let s1 := { s with flash := { s.flash with copy := some (c, 0, false), journal := [], copyEnd := none } }
  let s2 := (s1.putFlag pFLASH FLASH.STATUS.COPYING true).wr pFLASH FLASH.COPY_STATE.off (BitVec.ofNat 32 (blocksOf h))
  ((s2.setImage c (1 - s2.activeSlot c) none).setOther c false).showImages

/-- The LOADER verifies STAGING (R334): once in a restart. -/
def State.loaderVerifies (s : State) (atReset : Bool) : State :=
  let ok := s.stagedVerify && (s.failsFor s.stagedHdr atReset).isEmpty
  { s.onlyIf ok State.beginCopy with flash := { (s.onlyIf ok State.beginCopy).flash with verified := some ok } }

/-- The copy has verified: the active slot switches to it, in TRIAL, and STAGING returns to EMPTY (R337). Microcode that a start of the core
did not load from the copy swaps now. -/
def State.copyVerified (s : State) (c : Nat) : State :=
  let h := s.stagedHdr
  let was := s.activeSlot c
  let s1 := (((s.setImage c (1 - was) (some h)).setActive c (1 - was)).setOther c (s.image c was).isSome).putFlag pFLASH FLASH.STATUS.COPYING false
  let s2 := { s1 with flash := { s1.flash with
      copy := none, journal := [], copyEnd := none, trial := s1.flash.trial.map (fun (t : Trial) => { t with copied := true }) } }
  let wait := s2.flash.trial.any (fun t => !t.swapped && t.units.isEmpty) && s2.flash.swaps.isEmpty
  ((((s2.onlyIf wait (fun s => s.queueSwaps (unitsOf c))).irq pFLASH 2).flashLog 4 c h.version 0).emptyStaging).showImages

/-- The candidate in STAGING goes on trial (R334, R340); a copy that has ended meanwhile takes its effect (R337). -/
def State.beginTrial (s : State) : State :=
  let h := s.stagedHdr
  let c := h.component
  let f := if c = 4 then s.loadFactory s.flash.checked.terms s.flash.checked.forms else ([], s)
  let s1 := f.2
  let t : Trial := { component := c, prev := s1.activeSlot c, copied := false, swapped := c = 4, start := s1.clk.slot, mainStart := s1.clk.slot,
                     ticked := false, cells := [], migrated := true, oldTerms := f.1,
                     oldFactory := s.power.factory, oldForms := s.power.forms, schemaWas := s.rd pFLASH FLASH.SCHEMA.off, units := [],
                     listed := s1.matchesManifest && !s1.flash.manifest.isEmpty }
  let s2 := { s1 with flash := { s1.flash with trial := some t, marked := false, verified := none, saved := s1.flash.settings, savedCopies := s1.flash.copies } }
  let s3 := ((s2.putFlag pFLASH FLASH.STATUS.TRIAL true).wr pFLASH FLASH.TRIAL_STATE.off
    (BitVec.ofNat 32 (packRec [(8, 2, 3), (0, 3, c)]))).queueSwaps (unitsOf c)
  let s4 := (if c = 1 then s3.startMain h else s3).showImages
  match s.flash.copyEnd with
  | some true => s4.copyVerified c
  | some false => s4.beginFallback 6
  | none => s4

/-- The candidate fails verification at the restart (R335). -/
def State.verifyFailed (s : State) : State :=
  let h := s.stagedHdr
  ((({ s with flash := { s.flash with verified := none } }.emptyStaging.err pFLASH 0).outcome h.component 6).flashLog 3 h.component h.version 0).showImages

/-- The candidate starts, or not (R334, R335), as the LOADER found it. -/
def State.startCandidate (s : State) (atReset : Bool) : State :=
  let s1 := if s.flash.verified.isNone then s.loaderVerifies atReset else s
  if s1.flash.verified = some true then s1.beginTrial else s1.verifyFailed

/-- A start of MAIN while a component is on trial counts one trial boot, before the boot; with none left it becomes a fallback (R340, R342). -/
def State.restartOnTrial (s : State) (why : RestartWhy) : State :=
  let n := s.get pFLASH FLASH.TRIAL_STATE.BOOTS_LEFT
  if s.flash.trial.isNone then s.beginRestart why
  else if n = 0 then s.beginFallback 3
  else (s.put pFLASH FLASH.TRIAL_STATE.BOOTS_LEFT (n - 1)).beginRestart why

/-- A start of the core with a component on trial (R340, R345). -/
def State.trialBoot (s : State) : State :=
  match s.flash.trial with
  | none => s
  | some t =>
    let n := s.get pFLASH FLASH.TRIAL_STATE.BOOTS_LEFT
    if n = 0 then s.endFallback t 3 else s.put pFLASH FLASH.TRIAL_STATE.BOOTS_LEFT (n - 1)

/-- MAIN runs again with a component on trial (R339): the 30 s of its service begin, and a LOADER on trial has started it. -/
def State.mainStarted (s : State) (byLoader : Bool) : State :=
  { s with flash := { s.flash with trial := s.flash.trial.map (fun (t : Trial) => { t with swapped := t.swapped || byLoader, mainStart := s.clk.slot }) } }

/-- MGMT_RESTART_DONE (R334): RESTARTING clears, RESTARTED, and what the restart was for. MAIN reads the handover area, which a restart for a
candidate may find bad (R336). -/
def State.restartDone (s : State) : State :=
  match s.flash.restart with
  | none => s
  | some (since, why) =>
    let s1 := { (s.putFlag pFLASH FLASH.STATUS.RESTARTING false).put pFLASH FLASH.LAST_RESTART.MS ((s.clk.slot - since) / 200000) with
      flash := { s.flash with restart := none } }
    let s2 := match why with
      | .activate => (s1.onlyIf (!s1.flash.checked.handover) State.handoverLost).startCandidate false
      | .loaderTrial => s1.mainStarted true
      | .fallback r => match s1.flash.trial with | some t => s1.endFallback t r | none => s1
      | .watchdog => s1.mainStarted false
    (s2.irq pFLASH 1).writeBoot

def execMgmtRestartDone (s : State) : Host.Outcome State Fault Refusal := guarded .mgmtRestartDone s State.restartDone

/-- The flash in one slot: settings-store writes reach it while neither a download, a copy nor a restart holds it; and the LOADER has
verified the candidate 500 ms after ACTIVATE (R334; log 108). -/
def State.flashSlot (s : State) : State :=
  let idle := decide (s.flash.busyUntil ≤ s.clk.slot) && s.flash.copy.isNone && !s.restarting
  let s1 := s.onlyIf (idle && !s.flag pFLASH FLASH.STATUS.REDUCED) State.writeStore
  match s1.flash.restart with
  | some (since, .activate) => s1.onlyIf (s1.flash.verified.isNone && decide (since + 100000000 ≤ s1.clk.slot)) (fun s => (s.loaderVerifies false).writeBoot)
  | _ => s1

/-- RESTARTING has stayed set for more than 5 s (R334). -/
def State.restartLate (s : State) : Bool :=
  match s.flash.restart with
  | some r => decide (r.1 + 1000000000 < s.clk.slot) && !s.flash.late
  | none => false

/-- RESTART_TIMEOUT (R334): source 87. -/
def execRestartTimeout (s : State) : Host.Outcome State Fault Refusal :=
  guarded .restartTimeout s (fun s =>
    if s.restartLate then { s with flash := { s.flash with late := true } }.err pDEV 9 else s)

/-- MGMT_WATCHDOG_MISS (R297, R334, R350): source 87, suppressed during a restart; the management processor restarts. -/
def execMgmtWatchdogMiss (s : State) : Host.Outcome State Fault Refusal :=
  guarded .mgmtWatchdogMiss s (fun s =>
    if s.restarting ∨ s.stage = 0 then s else ((s.err pDEV 9).restartOnTrial .watchdog).writeBoot)

/-- The bytes of a block of the container. -/
def State.blockBytes (s : State) (k : Nat) : List Nat :=
  let n := min 65536 (1024 + s.stagedHdr.payload - 65536 * k)
  let l := s.flash.staging.filter (fun e => decide (65536 * k ≤ e.1) && decide (e.1 < 65536 * (k + 1)))
  (List.range' (65536 * k) n).map (fun a => sparseGet (fun _ => 255) l a)

/-- A copy fails (R337, R342): fallback, at the end of the restart where the candidate is not yet on trial. -/
def State.copyFails (s : State) : State :=
  if s.flash.trial.isSome then s.beginFallback 6
  else { s.putFlag pFLASH FLASH.STATUS.COPYING false with flash := { s.flash with copyEnd := some false, copy := none } }

/-- COPY_BLOCK_DONE (R337): a block is journaled; a read-back mismatch is retried once, then FLASH_IO and fallback. -/
def execCopyBlockDone (ok : Bool) (s : State) : Host.Outcome State Fault Refusal :=
  guarded (.copyBlockDone ok) s (fun s =>
    match s.flash.copy with
    | none => s
    | some (c, done, retried) =>
      if s.get pFLASH FLASH.COPY_STATE.BLOCKS_TOTAL ≤ done then s
      else if ok then
        { s.put pFLASH FLASH.COPY_STATE.BLOCKS_DONE (done + 1) with
          flash := { s.flash with copy := some (c, done + 1, false), journal := s.flash.journal ++ [(done, fcs (s.blockBytes done))] } }
      else if retried then ((s.err pFLASH 1).copyFails).writeBoot
      else { s with flash := { s.flash with copy := some (c, done, true) } })

/-- The copy's end with the candidate on trial; a LOADER is then started by one more restart (R337, R339). -/
def State.copyEnds (s : State) (c : Nat) : State :=
  let s1 := s.copyVerified c
  if c = 5 then s1.restartOnTrial .loaderTrial else s1

/-- COPY_DONE (R337): the loader verifies the whole copy against PAYLOAD_HASH. -/
def execCopyDone (ok : Bool) (s : State) : Host.Outcome State Fault Refusal :=
  guarded (.copyDone ok) s (fun s =>
    match s.flash.copy with
    | none => s
    | some (c, done, _) =>
      if done < s.get pFLASH FLASH.COPY_STATE.BLOCKS_TOTAL then s
      else if !ok then s.copyFails.writeBoot
      else if s.flash.trial.isSome then (s.copyEnds c).writeBoot
      else { s with flash := { s.flash with copyEnd := some true } })

/-- Whether a swap is due. -/
def State.bankDue (s : State) : Option BankUnit := s.flash.swaps.find? s.bankReady

/-- A unit of the component on trial has swapped: it runs from the candidate's bank, and its check begins (R339). -/
def State.unitSwapped (s : State) (u : BankUnit) (t : Trial) : Trial :=
  let up := match u with | .ridge p => if s.linkIsUp p then [(p, 0)] else [] | _ => []
  { t with units := t.units ++ [u], cells := t.cells ++ up, ticked := false, swapped := t.units.length + 1 == (unitsOf t.component).length }

/-- A unit swaps its bank: towards the candidate's, or back after a fallback. -/
def State.bankSwap (s : State) (u : BankUnit) : State :=
  let i := bankIndex u
  { s with flash := { s.flash with
      banks := s.flash.banks.set i (1 - s.flash.banks.getD i 0)
      swaps := s.flash.swaps.filter (fun v => v != u)
      trial := s.flash.trial.map (fun (t : Trial) => if (unitsOf t.component).contains u then s.unitSwapped u t else t) } }

/-- MICROCODE_BANK_SWAP (R338): a unit that is to swap does so at its boundary. -/
def execMicrocodeBankSwap (u : BankUnit) (s : State) : Host.Outcome State Fault Refusal :=
  guarded (.microcodeBankSwap u) s (fun s => if s.flash.swaps.contains u ∧ s.bankReady u then s.bankSwap u else s)

/-- Whether the component on trial passes its check (R339). -/
def State.healthyNow (s : State) (t : Trial) : Bool :=
  t.copied && !s.restarting &&
    match t.component with
    | 1 => decide (t.mainStart + 6000000000 ≤ s.clk.slot) && t.migrated
    | 2 => t.swapped && t.ticked
    | 3 => t.swapped && t.cells.all (fun x => decide (64 ≤ x.2))
    | _ => t.swapped

/-- TRIAL_HEALTHY is due. -/
def State.healthDue (s : State) : Bool :=
  match s.flash.trial with
  | some t => s.healthyNow t && !(s.flag pFLASH FLASH.TRIAL_STATE.HEALTHY && s.flag pFLASH FLASH.FL_CONFIG.CONFIRM_POLICY)
  | none => false

/-- TRIAL_HEALTHY (R339, R341): with policy SELF Kalwin firmware confirms. -/
def execTrialHealthy (s : State) : Host.Outcome State Fault Refusal :=
  guarded .trialHealthy s (fun s =>
    match s.flash.trial with
    | none => s
    | some t =>
      if !s.healthyNow t then s
      else if s.flag pFLASH FLASH.FL_CONFIG.CONFIRM_POLICY then s.putFlag pFLASH FLASH.TRIAL_STATE.HEALTHY true
      else (s.confirmTrial t).writeBoot)

/-- The slot at which the window of the trial ends (R340). -/
def State.windowEnd (s : State) (t : Trial) : Nat := t.start + s.get pFLASH FLASH.FL_CONFIG.CONFIRM_WINDOW_S * 200000000

/-- Whether the restart under way ends the trial in fallback. -/
def State.fallingBack (s : State) : Bool := match s.flash.restart with | some (_, .fallback _) => true | _ => false

/-- TRIAL_WINDOW_EXPIRY is due (R340): restarts do not disturb the window. -/
def State.windowDue (s : State) : Bool :=
  match s.flash.trial with
  | some t => !s.fallingBack && decide (1 ≤ s.stage) && decide (s.windowEnd t ≤ s.clk.slot)
  | none => false

/-- Why the trial ends in fallback at the end of its window (R342): migration has failed, or the window has run out. -/
def Trial.lateReason (t : Trial) : Nat := if t.component = 1 ∧ !t.migrated then 4 else 2

/-- TRIAL_WINDOW_EXPIRY (R340, R342, R344). -/
def execTrialWindowExpiry (s : State) : Host.Outcome State Fault Refusal :=
  guarded .trialWindowExpiry s (fun s => if s.windowDue then (s.beginFallback (s.flash.trial.elim 2 Trial.lateReason)).writeBoot else s)

/-- WINDOW_LEFT_S as TRIAL_STATE reads it. -/
def State.windowLeft (s : State) : Nat :=
  match s.flash.trial with
  | some t => ceilDiv (s.windowEnd t - s.clk.slot) 200000000
  | none => 0

/-! ### The commands of FL_CMD (R330 to R333, R341, R346 to R349) -/

/-- BEGIN (R330, R347). -/
def State.flBegin (s : State) : State × Verdict :=
  let c := s.get pFLASH FLASH.FL_ARG.COMPONENT
  let slot := s.get pFLASH FLASH.FL_ARG.SLOT
  let start (s : State) := ({ s with flash := { s.flash with staging := [], marked := false, dma := none } }.put pFLASH FLASH.STATUS.STAGING_STATE 1).put
    pFLASH FLASH.DOWNLOAD_COUNT.BYTES 0
  if s.stagingState = 3 ∨ s.flash.copy.isSome then refuse s .busy
  else if !s.flRecovery then accept (start s)
  else if c = 0 ∨ 5 < c then refuse s .range
  else if !s.power.recovery ∧ c ≠ 4 then refuse s .state
  else
    let s1 := s.setImage c slot none
    let s2 := if slot = s1.activeSlot c then s1 else s1.setOther c false
    accept { start s2.showImages with flash := { (start s2.showImages).flash with target := some (c, slot) } }

/-- Write bytes at FL_OFFSET, where the download stands. -/
def State.flWrite (s : State) (bytes : List Nat) (dma : Bool) : State × Verdict :=
  let o := s.get pFLASH FLASH.FL_OFFSET.OFFSET
  let n := s.get pFLASH FLASH.DOWNLOAD_COUNT.BYTES
  let top := if s.flRecovery then (s.flash.target.elim 0x800000 (fun t => areaSize t.1)) else 0x800000
  if s.stagingState ≠ 1 then refuse s .state
  else if s.clk.slot < s.flash.busyUntil then refuse s .busy
  else if o ≠ n then refuse s .order
  else if top < o + bytes.length then refuse s .range
  else
    let s1 := (s.stageBytes o bytes).put pFLASH FLASH.DOWNLOAD_COUNT.BYTES (n + bytes.length)
    accept { s1 with flash := { s1.flash with busyUntil := s.clk.slot + flashTime bytes.length, dma := if dma then some (s.clk.slot, n) else none } }

/-- WRITE_WINDOW (R330). -/
def State.flWriteWindow (s : State) : State × Verdict :=
  let l := s.get pFLASH FLASH.FL_LENGTH.BYTES
  if l < 4 ∨ 512 < l ∨ l % 4 ≠ 0 then refuse s .range
  else s.flWrite ((List.range l).map (fun k => bitsOf (s.get pFLASH (FLASH.DATA_WINDOW.WORD (k / 4))) (8 * (k % 4) + 7) (8 * (k % 4)))) false

/-- DMA_WRITE (R330) of what host memory holds at FL_HOST_ADDR; bytes beyond those given read zero. -/
def State.flDmaWrite (s : State) (bytes : List Nat) : State × Verdict :=
  let l := s.get pFLASH FLASH.FL_LENGTH.BYTES
  if s.flag pDEV DEV.STATUS.HOST_SEL then refuse s .state
  else if l = 0 ∨ l % 64 ≠ 0 ∨ s.get pFLASH FLASH.FL_HOST_ADDR.ADDR % 64 ≠ 0 ∨ 0x800000 < l then refuse s .range
  else s.flWrite ((List.range l).map (fun k => bytes.getD k 0 % 256)) true

/-- A DMA error ends a DMA_WRITE that is under way (R330): DOWNLOAD_COUNT stands at the last whole 64 KiB block written by then, at the rate
of R330. -/
def State.flashDmaFails (s : State) : State :=
  match s.flash.dma with
  | none => s
  | some (since, from_) =>
    if s.flash.busyUntil ≤ s.clk.slot then s
    else
      let n := (from_ + (s.clk.slot - since) * 262144 / 200000000) / 65536 * 65536
      let s1 := (s.put pFLASH FLASH.DOWNLOAD_COUNT.BYTES n).irq pFLASH 5
      { s1 with flash := { s1.flash with staging := s.flash.staging.filter (fun b => decide (b.1 < n)), busyUntil := s.clk.slot, dma := none } }

/-- FLASH_DMA_ERROR (R330). -/
def execFlashDmaError (s : State) : Host.Outcome State Fault Refusal := guarded .flashDmaError s State.flashDmaFails

/-- FINISH in recovery (R347): the image is verified, named active and confirmed. -/
def State.flRecover (s : State) (c slot : Nat) : State × Verdict :=
  let h := s.stagedHdr
  let fail (r : Res) (s : State) : State × Verdict := (s.emptyStaging, ⟨r, none⟩)
  if !s.finishOk ∨ h.component ≠ c then fail .range s
  else if !s.stagedVerify then fail .denied s
  else match s.failsFor h true with
    | u :: _ => fail .incompatible (s.showUnmet u)
    | [] =>
      let old := s.activeSlot c
      let s1 := (s.setImage c slot (some h)).setActive c slot
      let s2 := if slot = old then s1 else s1.setOther c (s.image c old).isSome
      let s3 := ((s2.raiseCounter h).flashLog 9 c h.version 0).emptyStaging
      let s4 := if c = 4 then
          let s5 := ((s3.putFlag pDEV DEV.STAGE_HOLD.CALDATA false).loadFactory s.flash.checked.terms s.flash.checked.forms).2
          { s5 with power := { s5.power with calOk := true } }
        else s3
      accept s4.showImages

/-- FINISH (R330). -/
def State.flFinish (s : State) (v : VerifyResult) : State × Verdict :=
  if s.stagingState ≠ 1 then refuse s .state
  else if s.clk.slot < s.flash.busyUntil then refuse s .busy
  else
    let s0 := { s with flash := { s.flash with checked := v } }
    match (if s.flRecovery then s.flash.target else none) with
    | some t => s0.flRecover t.1 t.2
    | none =>
      if !s.finishOk then refuse s .range
      else
        let h := s.stagedHdr
        accept (((s0.put pFLASH FLASH.STATUS.STAGING_STATE 2).irq pFLASH 0).flashLog 1 h.component h.version 0)

/-- The refusals of R331 and R338: BUSY first, since a copy leaves STAGING ACTIVATING (R350), then in their order; at a reset HANDOVER and
OVEN_SETPOINT do not count. -/
def State.activation (s : State) (atReset : Bool) : Option (Res × State) :=
  let h := s.stagedHdr
  if s.flRecovery then some (.state, s)
  else if s.flash.trial.isSome ∨ s.flash.copy.isSome ∨ s.restarting then some (.busy, s)
  else if s.stagingState ≠ 2 ∨ 5 < h.component then some (.state, s)
  else if !atReset ∧ h.component = 4 ∧ s.flash.checked.oven ≠ s.getI pXO XO.OVEN_SETPOINT.TEMP then some (.state, s)
  else if h.secVer < s.otpSecVer h.component then some (.denied, s)
  else if !s.matchesManifest then some (.order, s)
  else match s.failsFor h atReset with
    | u :: _ => some (.incompatible, s.showUnmet u)
    | [] => none

/-- ACTIVATE (R331, R334). -/
def State.flActivate (s : State) : State × Verdict :=
  match s.activation false with
  | some (r, s1) => (s1, ⟨r, none⟩)
  | none =>
    let h := s.stagedHdr
    accept (((s.put pFLASH FLASH.STATUS.STAGING_STATE 3).flashLog 2 h.component h.version 0).beginRestart .activate)

/-- ACTIVATE_AT_RESET (R332): the candidate is marked for the next reset of the core. -/
def State.flActivateAtReset (s : State) : State × Verdict :=
  match s.activation true with
  | some (r, s1) => (s1, ⟨r, none⟩)
  | none => accept ({ s with flash := { s.flash with marked := true } }.flashLog 2 s.stagedHdr.component s.stagedHdr.version 0)

/-- CONFIRM (R341). -/
def State.flConfirm (s : State) : State × Verdict :=
  match s.flash.trial with
  | some t => if s.flag pFLASH FLASH.TRIAL_STATE.HEALTHY ∧ !s.flRecovery then accept (s.confirmTrial t) else refuse s .state
  | none => refuse s .state

/-- REVERT (R342, R351). -/
def State.flRevert (s : State) : State × Verdict := if s.flash.trial.isSome then accept (s.beginFallback 5) else refuse s .state

/-- ABORT (R330). -/
def State.flAbort (s : State) : State × Verdict :=
  if s.stagingState = 3 ∨ s.flash.copy.isSome then refuse s .busy
  else accept (s.emptyStaging.put pFLASH FLASH.DOWNLOAD_COUNT.BYTES 0)

/-- The entries of a manifest payload, or none where it breaks the layout of R333. -/
def manifestOf (w : List Nat) : Option (List ManEntry) :=
  let count := w.getD 0 0
  if count = 0 ∨ 8 < count ∨ w.getD 1 0 ≠ 0 then none
  else
    let entry (k : Nat) := (w.drop (2 + 16 * k)).take 16
    if (List.range count).all (fun k => decide ((entry k).getD 0 0 < 256) && (entry k).getD 3 0 == 0) then
      some ((List.range count).map (fun k => ⟨(entry k).getD 0 0, (entry k).getD 1 0, (entry k).getD 2 0, leNat 32 ((entry k).drop 4)⟩))
    else none

/-- A manifest that comes or goes has no entry for the component on trial (R333). -/
def State.unlist (s : State) : State :=
  { s with flash := { s.flash with trial := s.flash.trial.map (fun (t : Trial) => { t with listed := false }) } }

/-- LOAD_MANIFEST (R333). -/
def State.flLoadManifest (s : State) : State × Verdict :=
  if s.flRecovery ∨ s.stagingState ≠ 2 ∨ s.stagedHdr.component ≠ 6 then refuse s .state
  else if !s.stagedVerify then refuse s .denied
  else match manifestOf s.flash.checked.words with
    | none => refuse s .range
    | some l =>
      let s1 := (s.wr pFLASH FLASH.MANIFEST_STATE.off (BitVec.ofNat 32 l.length)).putFlag pFLASH FLASH.STATUS.MANIFEST_ACTIVE true
      accept { s1 with flash := { s1.flash with manifest := l } }.unlist.emptyStaging

/-- CLEAR_MANIFEST (R333). -/
def State.flClearManifest (s : State) : State × Verdict :=
  let s1 := (s.wr pFLASH FLASH.MANIFEST_STATE.off 0).putFlag pFLASH FLASH.STATUS.MANIFEST_ACTIVE false
  accept { s1 with flash := { s1.flash with manifest := [] } }.unlist

/-- READ_LOG (R346): 16 entries from FL_OFFSET, in the circle of 24 576. -/
def State.flReadLog (s : State) : State × Verdict :=
  let o := s.get pFLASH FLASH.FL_OFFSET.OFFSET
  if 24576 ≤ o then refuse s .range
  else accept (s.forEach (List.range 128) (fun k s =>
    s.put pFLASH (FLASH.DATA_WINDOW.WORD k) (bitsOf (sparseGet (fun _ => 2 ^ 256 - 1) s.flash.log ((o + k / 8) % 24576)) (32 * (k % 8) + 31) (32 * (k % 8)))))

/-- INSTALL_KEY (R349). -/
def State.flInstallKey (s : State) : State × Verdict :=
  let w := s.flash.checked.words
  let id := bitsOf (w.getD 0 0) 7 0
  let key := if id = 0 then none else some (id, leNat 32 ((w.drop 1).take 8))
  if s.flRecovery ∨ s.stagingState ≠ 2 ∨ s.stagedHdr.component ≠ 7 ∨ !s.enrolled then refuse s .state
  else if !s.stagedVerify then refuse s .denied
  else match s.store (fun k => if bitOf (w.getD 0 0) 8 then { k with keyB := key } else { k with keyA := key }) with
    | none => refuse s .state
    | some s1 => accept (s1.showKeys.flashLog 10 7 s.stagedHdr.version 0).emptyStaging

/-- OWNER_ENROLL (R348): every active image must carry an OWNER_SIG that verifies under the key; the others that lack it are no longer valid. -/
def State.flOwnerEnroll (s : State) (admin : Bool) : State × Verdict :=
  if !admin then refuse s .denied
  else
    let hash := leNat 32 ((List.range 12).map (fun k => s.get pFLASH (FLASH.DATA_WINDOW.WORD k)))
    let signed (h : ImageHdr) : Bool := h.ownerSigned && h.owner == hash
    if s.enrolled ∨ s.flash.trial.isSome ∨ !(List.range 5).all (fun i => (s.activeImage (i + 1)).elim true signed) then refuse s .state
    else
      let s1 := { s.putFlag pFLASH FLASH.OTP_INFO.OWNER_ENROLLED true with flash := { s.flash with ownerKey := some hash } }
      let s2 := s1.forEach (List.range 5) (fun i s =>
        match s.image (i + 1) (1 - s.activeSlot (i + 1)) with
        | some h => if signed h then s else s.setOther (i + 1) false
        | none => s)
      accept (s2.flashLog 11 0 0 0).showImages

/-- What a command of FL_CMD does. `bytes` and `v` are what DMA_WRITE and FINISH find. -/
def State.flDo (s : State) (admin : Bool) (code : Nat) (bytes : List Nat) (v : VerifyResult) : State × Verdict :=
  match code with
    | 1 => s.flBegin
    | 2 => s.flWriteWindow
    | 3 => s.flDmaWrite bytes
    | 4 => s.flFinish v
    | 5 => s.flActivate
    | 6 => s.flActivateAtReset
    | 7 => s.flConfirm
    | 8 => s.flRevert
    | 9 => s.flAbort
    | 10 => s.flLoadManifest
    | 11 => s.flClearManifest
    | 12 => s.flReadLog
    | 13 => s.flInstallKey
    | _ => s.flOwnerEnroll admin

/-- A write of FL_CMD: every command answers BUSY while the management processor restarts (R334). What it changes of the boot table is
written there (R326). -/
def State.flCmd (s : State) (admin : Bool) (code : Nat) (bytes : List Nat) (v : VerifyResult) : State × Verdict :=
  if code = 0 ∨ 14 < code then refuse s .range
  else if s.restarting then refuse s .busy
  else
    let r := s.flDo admin code bytes v
    (r.1.writeBoot, r.2)

/-! ### The start of the device (R335, R345) -/

/-- Whether the device has never started: its flash is not yet read. -/
def State.neverStarted (s : State) : Bool := s.flash.slots.all (fun x => x.1.isNone && x.2.isNone)

/-- The images that the flash held when the device was made, at the first start (R345). -/
def State.firstImages (s : State) (made : List (Nat × Nat × ImageHdr)) : State :=
  if s.neverStarted then
    let s1 := s.forEach made (fun m s => s.setImage m.1 m.2.1 (some m.2.2))
    let s2 := s1.forEach (List.range 5) (fun i s =>
      let s' := if (s.image (i + 1) 0).isNone ∧ (s.image (i + 1) 1).isSome then s.setActive (i + 1) 1 else s
      s'.setOther (i + 1) (s'.image (i + 1) (1 - s'.activeSlot (i + 1))).isSome)
    let schema := (s2.activeImage 1).elim 0 (·.schema)
    (s2.writeCopy false schema {}).showSchema schema
  else s

/-- A component whose active image fails verification starts from its other slot, if that slot verifies (R335): it is marked. -/
def State.fallenBack (s : State) (c : Nat) : State :=
  let was := s.activeSlot c
  if (s.image c (1 - was)).isNone ∨ !s.flash.otherOk.getD (c - 1) false then s
  else
    let s1 := ((s.setActive c (1 - was)).setOther c false).flashLog 6 c ((s.image c was).elim 0 (·.version)) 6
    let s2 := (((s1.outcome c 6).err pFLASH 0).err pFLASH 2)
    let s3 := { s2 with flash := { s2.flash with fell := if s2.flash.fell.contains c then s2.flash.fell else s2.flash.fell ++ [c] } }
    if s3.flash.trial.any (fun t => t.component == c) then s3.trialOver else s3

/-- A start of the core while a component is on trial (R339, R340, R345): its window restarts. The core's engines load the image in force at
the start: the candidate's once it is copied, and no port was UP before; the Eave's banks stay as they are. -/
def State.trialAtStart (s : State) (t : Trial) : State :=
  let s1 := if t.component = 3 then s.queueSwaps [] else s
  let t1 := { t with start := s.clk.slot, mainStart := s.clk.slot, ticked := if t.component = 2 then t.ticked else false, cells := [] }
  let t2 : Trial := match t.component with
    | 2 => t1
    | 3 => { t1 with swapped := t.copied, units := if t.copied then unitsOf 3 else [] }
    | _ => { t1 with swapped := t.swapped || t.copied }
  { s1 with flash := { s1.flash with trial := some t2 } }.trialBoot

/-- What the flash makes of a start of the core (R345): a download is lost; a verification begins again; a copy resumes and a
trial counts a boot and restarts its window; a fallback that had begun is completed. -/
def State.flashStart (s : State) (b : BootData) : State :=
  let s0 := (s.onlyIf b.torn State.olderBoot).onlyIf b.storeTorn State.tearStore
  let s1 : State := s0.forEach b.fallen (fun c s => s.fallenBack c)
  let r := s1.flash.restart
  let s2 : State := { s1.putFlag pFLASH FLASH.STATUS.RESTARTING false with flash := { s1.flash with
      restart := none, busyUntil := 0, dma := none, handover := none, verified := none, copyEnd := none } }.onlyIf (!s1.power.recovery)
      (fun s => s.restoreSettings b.migrates)
  let s3 := if s2.stagingState = 1 then s2.emptyStaging.put pFLASH FLASH.DOWNLOAD_COUNT.BYTES 0 else s2
  let s4 :=
    if s3.power.recovery then s3
    else match s3.flash.trial with
      | none =>
        if s3.stagingState = 3 then if s3.flash.copy.isSome then s3.beginTrial.trialBoot else s3.startCandidate false
        else if s3.flash.marked ∧ s3.stagingState = 2 then (s3.put pFLASH FLASH.STATUS.STAGING_STATE 3).startCandidate true
        else s3
      | some t =>
        match r with
        | some (_, .fallback k) => s3.endFallback t k
        | _ => s3.trialAtStart t
  s4.showImages.writeBoot

end Sys2Proof.Machine
end

