-- ==== Sys2Proof/Machine/Bringup.lean ====
section
/-! DEFINITION. Supplies, resets and the climb through the stages (chapter 14), the die and supply faults of R297, and the
JTAG port (R364). -/

namespace Sys2Proof.Machine

/-! ### Resets (R311 to R313) -/

/-- Words of the FLASH page that show what the flash and OTP hold, which a reset of the core leaves (R313, R326). -/
def flashWord (o : Nat) : Bool :=
  o == 0x010 || o == 0x064 || o == 0x06C || o == 0x070 || (decide (0x080 ≤ o) && decide (o < 0x0D0)) || o == 0x0D0 || o == 0x0E0 ||
    o == 0x0F0 || o == 0x0F8 || o == 0x0FC

/-- Words that survive a reset of the core (R313): the Eave's side of its page, RESET_CAUSE, and what flash and OTP hold. -/
def survives (p o : Nat) : Bool :=
  (p == pEAVE && !eaveCoreWord o) || (p == pDEV && o == DEV.RESET_CAUSE.off) || (p == pFLASH && flashWord o)

/-- A reset of everything outside the Eave (R311, R313), with the bit of its cause in RESET_CAUSE. The model keeps its own
queue of commands, the outputs so far and the count of free values. -/
def State.coreReset (s : State) (cause : Nat) : State :=
  let e := s.eave
  let s1 : State := { State.reset with
    regs := s.regs.filter (fun w => survives (w.1 / 4096) (w.1 % 4096))
    eave := { e with syncNow := false, second := 0, syncAt := none, syncEdge := 0, syncLoad := false, synced := false }
    flash := { s.flash with handover := none }
    host := { ({} : HostSt) with perst := s.host.perst }
    power := { ({} : PowerSt) with low := decide (cause = 0) || s.power.low }
    out := .pinsReleased :: s.out
    freeUses := s.freeUses
    pending := s.pending }
  ((s1.putFlag pGUTTER GUTTER.STATUS.OTP_COLLECTED (s.flag pGUTTER GUTTER.STATUS.OTP_COLLECTED)).putFlag pEAVE EAVE.STATUS.MAIN_ON false).put
    pDEV ⟨DEV.RESET_CAUSE.off, cause, cause⟩ 1

/-- SUPPLY_BELOW_THRESHOLD (R311, R313). -/
def execSupplyBelowThreshold (rail : Nat) (s : State) : Host.Outcome State Fault Refusal :=
  guarded (.supplyBelowThreshold rail) s (fun s => s.coreReset 0)

/-- RESET_N_LOW (R311 to R313). -/
def execResetNLow (s : State) : Host.Outcome State Fault Refusal := guarded .resetNLow s (fun s => s.coreReset 1)

/-- SUPPLIES_GOOD (R311 to R313): the instant V. The straps are sampled once; OTP can force COLLECTED; the oven warms. After a supply below
its threshold RESET_CAUSE reads SUPPLY, also where the Eave had its power-on reset meanwhile. -/
def execSuppliesGood (straps : Straps) (s : State) : Host.Outcome State Fault Refusal :=
  guarded (.suppliesGood straps) s (fun s =>
    if s.power.good then s
    else
      let s0 := s.onlyIf s.power.low (fun s => s.putFlag pDEV DEV.RESET_CAUSE.SUPPLY true)
      let s1 := { s0 with clk := {}, power := { ({} : PowerSt) with good := true, low := false, recovery := straps.bootRec } }
      let s2 := ((s1.putFlag pDEV DEV.STATUS.BOOT_REC straps.bootRec).putFlag pDEV DEV.STATUS.FAULT_MODE straps.faultMode).putFlag
        pDEV DEV.STATUS.HOST_SEL straps.hostSel
      ((s2.putFlag pDEV DEV.STAGE_HOLD.BOOT_REC straps.bootRec).putFlag pGUTTER GUTTER.STATUS.MODE
        (straps.faultMode && !s2.flag pGUTTER GUTTER.STATUS.OTP_COLLECTED)).put pXO XO.STATUS.OVEN 1)

/-- A fault bit of the DEV page, raised while the core runs (R297). -/
def State.devFault (s : State) (bit : Nat) : State := s.inCore (fun s => s.err pDEV bit)

/-- SUPPLY_OUT_OF_RANGE (R311): sources 96 to 100. -/
def execSupplyOutOfRange (rail : Nat) (s : State) : Host.Outcome State Fault Refusal :=
  guarded (.supplyOutOfRange rail) s (fun s => s.devFault rail)

/-- DIE_HOT (R297): source 101. -/
def execDieHot (s : State) : Host.Outcome State Fault Refusal := guarded .dieHot s (fun s => s.devFault 5)

/-- DIE_CRITICAL (R297): source 102. -/
def execDieCritical (s : State) : Host.Outcome State Fault Refusal := guarded .dieCritical s (fun s => s.devFault 6)

/-- SCLK_MONITOR (R297): source 103. -/
def execSclkMonitor (s : State) : Host.Outcome State Fault Refusal := guarded .sclkMonitor s (fun s => s.devFault 7)

/-- SRAM_UNCORR (R297): source 104. -/
def execSramUncorr (s : State) : Host.Outcome State Fault Refusal := guarded .sramUncorr s (fun s => s.devFault 8)

/-! ### The command (R324) -/

/-- DEVICE_RESET: from an ADMIN window, Kalwin firmware, or the remote root with REMOTE_ADMIN; it acts 1 µs later. -/
def State.deviceResetCmd (s : State) (allowed : Bool) (v : Nat) : State × Verdict :=
  if bitsOf v 7 0 ≠ 1 then refuse s .range
  else if !allowed then refuse s .denied
  else accept { s with power := { s.power with resetAt := some (s.power.resetAt.getD (s.clk.slot + 200)) } }

/-- The accepted DEVICE_RESET acts (R313, R324). -/
def State.resetDue (s : State) : Bool := match s.power.resetAt with | some t => decide (t ≤ s.clk.slot) | none => false

/-! ### The stages (R314 to R318) -/

/-- Whether a register word comes from OTP (R310, R351). -/
def otpWord (p o : Nat) : Bool :=
  (p == pGUTTER && o == GUTTER.STATUS.off) ||
    (p == pFLASH && ((decide (0x084 ≤ o) && decide (o < 0x0D0) && o % 16 == 4) || o == 0x0F0 || o == 0x0F8 || o == 0x0FC))

/-- Take a word of OTP as the device was made; from then on only confirmation, enrollment and a verified MAIN change it (R328, R329, R348).
A rollback counter counts to 64. -/
def State.takeOtp (s : State) (t : Nat × Nat × Nat) : State :=
  if t.1 = pGUTTER then
    if bitOf t.2.2 3 then (s.putFlag pGUTTER GUTTER.STATUS.OTP_COLLECTED true).putFlag pGUTTER GUTTER.STATUS.MODE false else s
  else if t.2.1 < 0x0D0 then s.put t.1 ⟨t.2.1, 31, 24⟩ (min 64 (bitsOf t.2.2 31 24))
  else if t.2.1 = 0x0F0 then s.wr t.1 t.2.1 (BitVec.ofNat 32 (Nat.lor (s.rd t.1 t.2.1).toNat (Nat.land t.2.2 0x8000000F)))
  else if s.rd t.1 t.2.1 = 0 then s.wr t.1 t.2.1 (BitVec.ofNat 32 t.2.2)
  else s

/-- Stage 1 is due: 180 ms after V (R316). -/
def State.stage1Due (s : State) : Bool := s.power.good && s.stage == 0 && decide (36000000 ≤ s.clk.slot)

/-- Entry to Stage 1 (R313, R316, R317, R335, R345). -/
def State.stage1 (s : State) (b : BootData) : State :=
  let s1 := s.onlyIf s.neverStarted (fun s => s.forEach (b.terms.filter (fun t => otpWord t.1 t.2.1)) (fun t s => s.takeOtp t))
  let s2 := if b.calOk then (s1.loadFactory b.terms b.forms).2 else s1
  let rec_ := s2.power.recovery || !b.images
  let s3 : State := { s2.putFlag pFLASH FLASH.STATUS.RECOVERY rec_ with power := { s2.power with recovery := rec_, calOk := b.calOk } }
  let s5 := (((s3.firstImages b.made).enterStage 1).putFlag pEAVE EAVE.STATUS.MAIN_ON true).loadLeap.flashStart b
  let s6 := if b.calOk then s5 else (s5.putFlag pDEV DEV.STAGE_HOLD.CALDATA true).err pFLASH 0
  s6.showPair s

/-- STAGE1_ENTRY (R316). -/
def execStage1Entry (b : BootData) (s : State) : Host.Outcome State Fault Refusal :=
  guarded (.stage1Entry b) s (fun s => if s.stage1Due then s.stage1 b else s)

/-- Whether the T48 stands at a slot boundary. -/
def State.atSlot (s : State) : Bool := s.clk.tclk % 8 == 0

/-- Stage 2 is due (R316, R317). -/
def State.stage2Due (s : State) : Bool :=
  s.stage == 1 && s.flag pAPLL_M APLL_M.STATUS.LOCKED && s.clk.seeded && !s.power.recovery && s.power.calOk && s.atSlot

/-- Entry to Stage 2 (R314, R316): every place COARSE; a calibration TDC that has not failed passes its self-check. -/
def State.stage2 (s : State) : State :=
  let s1 := s.enterStage 2
  let s2 := s1.forEach (List.range 12) (fun q s =>
    ((s.putFlag (pQUAD q) QUAD.STATUS.COARSE true).putFlag (pQUAD q) QUAD.CAL_STATE.TDC_OK (!(s.quad q).tdcFailed)).refreshBounds q)
  s2.forEach (List.range 16) (fun i s =>
    ((s.setTin i { s.tin i with injAt := s.clk.slot }).putFlag (pTIN i) TIN.STATUS.COARSE true).refreshInput i)

/-- STAGE2_ENTRY (R316). -/
def execStage2Entry (s : State) : Host.Outcome State Fault Refusal :=
  guarded .stage2Entry s (fun s => if s.stage2Due then s.stage2 else s)

/-- A set of a core of SYNC_IN (`i` 16), RDG_0 to RDG_5 (17 to 22) or ETH_0 and ETH_1 (23 and 24) is complete: it is accepted by the tests
of R169, and three failures in a row fail the core (R131, R262, R316; DESIGN CHOICE, log 103). -/
def State.portTable (s : State) (i k : Nat) (r : TableResult) : State :=
  let n := 2 * (i - 16) + k
  let c := s.portCore n
  let put (x : PortCore) : State := { s with power := { s.power with ports := s.power.ports.set n x } }
  if s.stage < 2 ∨ s.heldAt2 ∨ c.failed then s
  else if r.maxErrFs ≤ 2000 ∧ r.rmsFs ≤ 1200 then put { c with set := true, fails := 0 }
  else put { c with fails := c.fails + 1, failed := decide (3 ≤ c.fails + 1) }

/-- INPUT_TABLE_DONE (R169): of a timing input, or of another interpolator of the kind. -/
def execInputTableDone (i core : Nat) (r : TableResult) (s : State) : Host.Outcome State Fault Refusal :=
  guarded (.inputTableDone i core r) s (fun s => if i < 16 then s.tableDone i core r else s.portTable i core r)

/-- Whether a quad does not hold Stage 3 back: its engines are settled, or its calibration TDC has failed (R316). -/
def State.quadReady (s : State) (q : Nat) : Bool := s.quadSettled q || !s.flag (pQUAD q) QUAD.CAL_STATE.TDC_OK

/-- Stage 3 is due (R316, R317). -/
def State.stage3Due (s : State) : Bool :=
  s.stage == 2 && !s.heldAt2 && (List.range 12).all (fun q => s.quadReady q) &&
    (List.range 16).all (fun i => s.tinSettled i) && s.portsSettled && s.atSlot

/-- Entry to Stage 3 (R78, R314, R316): settled quads leave COARSE, engines are ACTIVE on their lanes or spare; a spare that a channel in CAL
mode holds stays with it. -/
def State.stage3 (s : State) : State :=
  let s1 := s.enterStage 3
  let s2 := s1.forEach (List.range 12) (fun q s =>
    let s' := (s.putFlag (pQUAD q) QUAD.STATUS.COARSE (!s.quadSettled q)).forEach (List.range 5) (fun e s =>
      if s.engState q e = 5 then s
      else if s.spare q = e then s.setEngState q e (if s.calHeld q then 6 else 2)
      else if (s.engineLane q e).isSome then s.setEngState q e 1
      else s)
    let s4 := (s'.setQuad q { s'.quad q with visitAt := s.clk.slot }).put (pQUAD q) QUAD.CAL_STATE.TARGET 0
    (s4.refreshSpare q).refreshBounds q)
  ((s2.forEach (List.range 16) (fun i s => s.refreshInput i)).servoMode.reselect).refreshStage

/-- STAGE3_ENTRY (R316). -/
def execStage3Entry (s : State) : Host.Outcome State Fault Refusal :=
  guarded .stage3Entry s (fun s => if s.stage3Due then s.stage3 else s)

/-! ### The endpoint (R316) -/

/-- Link training can begin: 20 ms after the later of V and the release of PERST_N. The table has no row for the release: the 20 ms are
counted from the assertion, and that the partner trains the link at all shows the release (log 104). -/
def State.linkDue (s : State) : Bool :=
  s.power.good && !s.flag pDEV DEV.STATUS.HOST_SEL && !s.host.linkUp && decide (s.host.perstReleased + 4000000 ≤ s.clk.slot)

/-- PCIE_LINK_TRAINING (R316): it shows that PERST_N is high. -/
def execPcieLinkTraining (s : State) : Host.Outcome State Fault Refusal :=
  guarded .pcieLinkTraining s (fun s =>
    if s.linkDue then { s with host := { s.host with linkUp := true, perst := false } } else s)

/-! ### JTAG (R364) -/

/-- BOUNDARY_SCAN (R364): the codes of the instructions are open (log 32): the model's operand 1 is IDCODE, and any other is boundary
scan, which drives pins only while the device is held at Stage 1 with BOOT_REC high. What it captures is at the pins, outside
the model, so the word shifted out is a free value. TDO is high-impedance in reset and below Stage 1, and nothing is shifted out
(R321). -/
def execBoundaryScan (ir : Nat) (s : State) : Host.Outcome State Fault Refusal :=
  guarded (.boundaryScan ir) s (fun s =>
    if s.stage = 0 then s
    else if ir = 1 then s.emit (.jtag 0xB0748F3B)
    else
      let f := s.free
      (f.2.emit (.scan (s.stage == 1 && s.flag pDEV DEV.STATUS.BOOT_REC))).emit (.jtag (f.1 % 2 ^ 32)))

end Sys2Proof.Machine
end

