-- ==== Sys2Proof/Machine/Eth.lean ====
section
/-! DEFINITION. Ethernet ports (chapter 11, R268 to R273): stamps and their constants, the TX and RX rings, one-step Sync, the
address filter and the link. -/

namespace Sys2Proof.Machine

def State.eth (s : State) (p : Nat) : EthSt := s.eths.getD p {}
def State.setEth (s : State) (p : Nat) (x : EthSt) : State := { s with eths := s.eths.set p x }

/-! ### Stamps (R269) -/

/-- TX_CONST and RX_CONST of a MODE in picoseconds (the table of R269). -/
def ethConstPs (mode : Nat) : Nat × Nat :=
  match mode with
  | 0 => (48550, 61325)
  | 1 => (22880, 29460)
  | _ => (40720, 221845)

/-- TX_CONST and RX_CONST as the registers read, in SU. -/
def State.ethConst (s : State) (p : Nat) : Int × Int :=
  let c := ethConstPs (s.get (pETH p) ETH.ETH_CFG.MODE)
  (roundEven (c.1 * suNs) 1000, roundEven (c.2 * suNs) 1000)

/-- ETH_BOUND (R269). -/
def State.ethBound (s : State) (p : Nat) : Nat :=
  let u := s.get (pETH p) ETH.OPTICS_UNC.UNC_PS
  if 3 ≤ s.stage then 250 + u else if s.stage = 2 then 450 + u else tebUnknown

/-- tx_stamp and rx_stamp of an internal stamp at a raw position, with its bit position term (R269). -/
def State.txStamp (s : State) (p : Nat) (pos : Int) (bitpos : Int) : Int :=
  s.stampOf pos + (s.ethConst p).1 + bitpos + s.getSpan (pETH p) ETH.OPTICS_TX.SPAN
def State.rxStamp (s : State) (p : Nat) (pos : Int) (bitpos : Int) : Int :=
  s.stampOf pos - (s.ethConst p).2 - bitpos - s.getSpan (pETH p) ETH.OPTICS_RX.SPAN

/-- The bound of a stamp at `t` (R269). -/
def State.ethTeb (s : State) (p : Nat) (t : Int) : Nat := tebAdd (s.tebTs t) (s.ethBound p)

/-! ### Bytes and PTP transports (R268) -/

/-- `n` bytes from `a` of a frame as a big-endian number, and the frame with such a number put there. -/
def beAt (f : List Nat) (a n : Nat) : Nat := (List.range n).foldl (fun v k => v * 256 + f.getD (a + k) 0) 0
def putBe (f : List Nat) (a n v : Nat) : List Nat := (List.range n).foldl (fun f k => f.set (a + k) (v / 256 ^ (n - 1 - k) % 256)) f

/-- The offset of the EtherType after up to two VLAN tags. -/
def typeAt (f : List Nat) : Nat :=
  let tag (o : Nat) := beAt f o 2 == 0x8100 || beAt f o 2 == 0x88A8
  if tag 12 then (if tag 16 then 20 else 16) else 12

/-- Where the PTP message of a frame begins, and the offsets of its IP and UDP headers where it has them (Annexes C, D, E). -/
def ptpAt (f : List Nat) : Option (Nat × Option (Nat × Nat)) :=
  let o := typeAt f
  let ip := o + 2
  let port (u : Nat) := beAt f (u + 2) 2 == 319 || beAt f (u + 2) 2 == 320
  let ty := beAt f o 2
  if ty == 0x88F7 then some (ip, none)
  else if ty == 0x0800 then
    let u := ip + 4 * (f.getD ip 0 % 16)
    if f.getD ip 0 / 16 = 4 ∧ f.getD (ip + 9) 0 = 17 ∧ beAt f (ip + 6) 2 % 0x4000 = 0 ∧ port u then some (u + 8, some (ip, u)) else none
  else if ty == 0x86DD then
    let u := ip + 40
    if f.getD ip 0 / 16 = 6 ∧ f.getD (ip + 6) 0 = 17 ∧ port u then some (u + 8, some (ip, u)) else none
  else none

/-- Whether TLVs from `a` up to `stop` hold an AUTHENTICATION TLV, type 0x8009 (log 33), after `fuel` TLVs at most. -/
def hasAuth (f : List Nat) (stop : Nat) : Nat → Nat → Bool
  | 0, _ => false
  | n + 1, a => decide (a + 4 ≤ stop) && (beAt f a 2 == 0x8009 || hasAuth f stop n (a + 4 + beAt f (a + 2) 2))

/-- Whether the message at `m` is a Sync that one-step serves (R268). -/
def oneStepOk (f : List Nat) (m : Nat) : Bool :=
  let len := beAt f (m + 2) 2
  f.getD m 0 % 16 == 0 && f.getD (m + 1) 0 % 16 == 2 && !bitOf (f.getD (m + 6) 0) 1 && decide (44 ≤ len) && decide (m + len ≤ f.length) &&
    !hasAuth f (m + len) 2304 (m + 44)

/-- The ones' complement sum of 16-bit words of `n` bytes from `a`. -/
def sumWords (f : List Nat) (a n : Nat) : Nat :=
  (List.range ((n + 1) / 2)).foldl (fun v k => v + f.getD (a + 2 * k) 0 * 256 + (if 2 * k + 1 < n then f.getD (a + 2 * k + 1) 0 else 0)) 0

/-- Fold a sum to 16 bits. -/
def fold16 : Nat → Nat → Nat
  | 0, v => v % 65536
  | n + 1, v => fold16 n (v % 65536 + v / 65536)

/-- The frame with its UDP checksum renewed, over the pseudo-header of IPv4 or IPv6 (R271). -/
def udpSum (f : List Nat) (ip udp : Nat) : List Nat :=
  let f0 := putBe f (udp + 6) 2 0
  let n := beAt f (udp + 4) 2
  let addrs := if f.getD ip 0 / 16 = 4 then sumWords f (ip + 12) 8 else sumWords f (ip + 8) 32
  let c := 65535 - fold16 4 (addrs + 17 + n + sumWords f0 udp n)
  putBe f (udp + 6) 2 (if c = 0 then 65535 else c)

/-- One-step insertion of a departure instant (R271). -/
def oneStep (f : List Nat) (m : Nat) (hdr : Option (Nat × Nat)) (t : Nat) : List Nat :=
  let f1 := putBe (putBe f (m + 34) 6 (t / suSec % 2 ^ 48)) (m + 40) 4 (t % suSec / suNs)
  let f2 := putBe f1 (m + 8) 8 ((beAt f (m + 8) 8 + t % suNs) % 2 ^ 64)
  match hdr with
  | some h => udpSum f2 h.1 h.2
  | none => f2

/-! ### Rings (R270, R272, R273) -/

/-- Whether the TX ring runs, and whether it has an element that was not taken yet. -/
def State.txRuns (s : State) (p : Nat) : Bool :=
  s.flag (pETH p) ETH.CONTROL.ENABLE && s.flag (pETH p) ETH.TXR_CTRL.ENABLE && !s.flag (pETH p) ETH.TXR_CTRL.STOPPED
def State.txReady (s : State) (p : Nat) : Bool := s.txRuns p && (s.eth p).taken != s.get (pETH p) ETH.TXR_DOORBELL.HOST_IDX

/-- Whether the RX ring runs. -/
def State.rxRuns (s : State) (p : Nat) : Bool := s.flag (pETH p) ETH.RXR_CTRL.ENABLE && !s.flag (pETH p) ETH.RXR_CTRL.STOPPED

/-- The numbers of an ETH port's rings in the model's outputs, after the 32 of HOSTQ. -/
def ethTxRing (p : Nat) : Nat := 32 + 2 * p
def ethRxRing (p : Nat) : Nat := 33 + 2 * p

/-- Element `i` of a port's TX or RX ring as it goes to host memory: 32 bytes, little-endian, at BASE + 32 x (i mod 2^n) (R4, R51, R270). -/
def State.ethElemOut (s : State) (p : Nat) (rx : Bool) (i elem : Nat) : Out :=
  let base := s.get (pETH p) (if rx then ETH.RXR_BASE.BASE else ETH.TXR_BASE.BASE)
  let n := s.get (pETH p) (if rx then ETH.RXR_CFG.LOG2_ENTRIES else ETH.TXR_CFG.LOG2_ENTRIES)
  .ringElem (if rx then ethRxRing p else ethTxRing p) (base + 32 * (i % 2 ^ n)) (leDigits 8 32 elem)

/-- A TX element as it is written back. -/
def txElemBits (e : TxElem) : Nat :=
  packRec [(128, 128, e.stamp.elim 0 (fun x => instantBits x.1.toNat)), (96, 32, e.stamp.elim 0 (·.2)), (32, 64, e.addr), (18, 14, e.length), (15, 1, 1),
    (0, 15, e.bits)]

/-- Write back elements in ring order while the oldest is complete (R272), `n` at most. -/
def State.txWriteBack : Nat → Nat → State → State
  | 0, _, s => s
  | n + 1, p, s =>
    match (s.eth p).sent with
    | [] => s
    | e :: rest =>
      if e.wants || !s.txRuns p then s
      else
        let i := s.get (pETH p) ETH.TXR_DEV_IDX.DEV_IDX
        let s1 := ((s.setEth p { s.eth p with sent := rest }).emit (s.ethElemOut p false i (txElemBits e))).put (pETH p) ETH.TXR_DEV_IDX.DEV_IDX (wrapAdd 32 i 1)
        State.txWriteBack n p (s1.irq (pETH p) 2)

/-- Entries of the TX timestamp FIFO (R272). -/
def State.fifoDepth (s : State) (p : Nat) : Nat := ((s.eth p).sent.filter (fun e => e.stamp.isSome)).length

/-- Take the next element of the TX ring. -/
def State.txTake (s : State) (p : Nat) (e : TxElem) : State :=
  let s1 := s.setEth p { s.eth p with taken := wrapAdd 32 (s.eth p).taken 1, sent := (s.eth p).sent ++ [e] }
  s1.txWriteBack ((s1.eth p).sent.length + 1) p

/-- Send a frame, with one-step insertion if its element asks for it (R270, R271). -/
def State.txSend (s : State) (p : Nat) (f : TxFrame) : State :=
  let req := 2 * b2n f.oneStep + b2n f.tsReq
  let t := (s.txStamp p f.pos f.bitpos).toNat
  let edit : Option (List Nat) := match ptpAt f.bytes with
    | some (m, h) => if oneStepOk f.bytes m then some (oneStep f.bytes m h t) else none
    | none => none
  let bytes := if f.oneStep then edit.getD f.bytes else f.bytes
  let bits := if !f.oneStep then 0 else if edit.isSome then 2 ^ 13 else 2 ^ 12
  let s1 := if f.oneStep ∧ edit.isNone then s.incSat (pETH p) ETH.ONE_STEP_REFUSED.COUNT else s
  let s2 := (s1.incWrap (pETH p) ETH.TX_FRAMES.COUNT).emit (.frame p (bytes ++ leDigits 8 4 (fcs bytes)))
  s2.txTake p ⟨f.addr, f.length, bits + req, none, f.tsReq⟩

/-- ETH_FRAME_TX (R270 to R272): the next element is sent, or written back DISCARDED; with the FIFO full a TS_REQ frame waits. -/
def execEthFrameTx (p : Nat) (f : TxFrame) (s : State) : Host.Outcome State Fault Refusal :=
  guarded (.ethFrameTx p f) s (fun s =>
    let req := 2 * b2n f.oneStep + b2n f.tsReq
    let gone : TxElem := ⟨f.addr, f.length, 2 ^ 11 + req, none, false⟩
    if !s.txReady p then s
    else if !s.flag (pETH p) ETH.STATUS.LINK_UP then (s.incSat (pETH p) ETH.TX_DISCARDED.COUNT).txTake p gone
    else if f.length < 60 ∨ 9216 < f.length then s.txTake p gone
    else if f.tsReq ∧ 65536 ≤ s.fifoDepth p then s
    else s.txSend p f)

/-- Give the oldest element that waits for a stamp its own. -/
def stampFirst (st : Int × Nat) : List TxElem → List TxElem
  | [] => []
  | e :: l => if e.wants then { e with wants := false, stamp := some st, bits := setBit e.bits 14 } :: l else e :: stampFirst st l

/-- ETH_TX_STAMP (R269, R272): the departure of the oldest TS_REQ frame without its stamp, as the raw position of its internal
stamp with the bit position term. -/
def execEthTxStamp (p t : Nat) (s : State) : Host.Outcome State Fault Refusal :=
  guarded (.ethTxStamp p t) s (fun s =>
    let st := s.txStamp p t 0
    let l := stampFirst (st, s.ethTeb p st) (s.eth p).sent
    (s.setEth p { s.eth p with sent := l }).txWriteBack (l.length + 1) p)

/-! ### Reception (R268, R270) -/

/-- The multicast addresses that every port takes, and broadcast (R268). -/
def ethGroups : List Nat := [0xFFFFFFFFFFFF, 0x011B19000000, 0x0180C200000E, 0x01005E000181, 0x01005E00006B, 0x333300000181, 0x33330000006B]

/-- Whether the filter passes a frame. -/
def State.ethPasses (s : State) (p : Nat) (f : List Nat) : Bool :=
  s.flag (pETH p) ETH.ETH_CFG.PROMISC || beAt f 0 6 == s.get (pETH p) ETH.MAC_ADDR.ADDR || ethGroups.contains (beAt f 0 6)

/-- The next RX element as it is written back, with the frame in its buffer. -/
def State.rxWrite (s : State) (p : Nat) (f : RxFrame) : State :=
  let t := s.rxStamp p f.pos f.bitpos
  let i := s.get (pETH p) ETH.RXR_DEV_IDX.DEV_IDX
  let e := packRec [(128, 128, instantBits t.toNat), (96, 32, s.ethTeb p t), (32, 64, f.addr), (18, 14, f.bytes.length), (15, 1, 1),
    (14, 1, b2n (ptpAt f.bytes).isSome)]
  ((((s.emit (.hostMem f.addr f.bytes)).emit (s.ethElemOut p true i e)).put (pETH p) ETH.RXR_DEV_IDX.DEV_IDX (wrapAdd 32 i 1)).incWrap
    (pETH p) ETH.RX_FRAMES.COUNT).irq (pETH p) 1

/-- ETH_FRAME_RX (R268, R270). -/
def execEthFrameRx (p : Nat) (f : RxFrame) (s : State) : Host.Outcome State Fault Refusal :=
  guarded (.ethFrameRx p f) s (fun s =>
    let g := pETH p
    if !s.flag g ETH.CONTROL.ENABLE ∨ !s.flag g ETH.STATUS.LINK_UP then s
    else if !f.fcsOk then s.incSat g ETH.RX_FCS_ERRORS.COUNT
    else if !s.ethPasses p f.bytes then s
    else if !s.rxRuns p ∨ s.get g ETH.RXR_CFG.BUF_SIZE < f.bytes.length ∨ s.get g ETH.RXR_DEV_IDX.DEV_IDX = s.get g ETH.RXR_DOORBELL.HOST_IDX then
      s.incSat g ETH.RX_DROPS.COUNT
    else s.rxWrite p f)

/-! ### Link, enable and ring control (R270, R273) -/

/-- LINK_UP and the locks change (R273). -/
def State.ethLink (s : State) (p : Nat) (up : Bool) : State :=
  let g := pETH p
  if s.flag g ETH.STATUS.LINK_UP = up then s
  else
    let s1 := ((s.putFlag g ETH.STATUS.LINK_UP up).putFlag g ETH.STATUS.BLOCK_LOCK up).putFlag g ETH.STATUS.FEC_LOCK (up && s.get g ETH.ETH_CFG.MODE == 2)
    (s1.irq g 0).onlyIf (!up && s.flag g ETH.CONTROL.ENABLE) (fun s => s.err g 0)

/-- ETH_LINK_CHANGE (R273). -/
def execEthLinkChange (p : Nat) (up : Bool) (s : State) : Host.Outcome State Fault Refusal :=
  guarded (.ethLinkChange p up) s (fun s => if s.flag (pETH p) ETH.CONTROL.ENABLE then s.ethLink p up else s)

/-- CONTROL.ENABLE of an ETH page (R273). -/
def State.ethEnable (s : State) (p : Nat) (on : Bool) : State × Verdict :=
  if on && !s.flag (pETH p) ETH.CONTROL.ENABLE && decide (s.stage < 2) then refuse s .state
  else
    let s1 := s.putFlag (pETH p) ETH.CONTROL.ENABLE on
    accept (if on then s1 else s1.ethLink p false)

/-- ENABLE of a TX or RX ring (R28, R53, R270): the rising edge zeroes the indices and what was held goes; cleared, the ring stops. -/
def State.ethRingCtrl (s : State) (p : Nat) (rx on : Bool) : State × Verdict :=
  let g := pETH p
  let en := if rx then ETH.RXR_CTRL.ENABLE else ETH.TXR_CTRL.ENABLE
  let st := if rx then ETH.RXR_CTRL.STOPPED else ETH.TXR_CTRL.STOPPED
  if on && !s.flag g en then
    if s.flag pDEV DEV.STATUS.HOST_SEL then refuse s .state
    else
      let s1 := (s.putFlag g en true).putFlag g st (s.host.perst || s.host.d3hot)
      if rx then accept ((s1.put g ETH.RXR_DOORBELL.HOST_IDX 0).put g ETH.RXR_DEV_IDX.DEV_IDX 0)
      else accept (((s1.put g ETH.TXR_DOORBELL.HOST_IDX 0).put g ETH.TXR_DEV_IDX.DEV_IDX 0).setEth p {})
  else if !on && s.flag g en then accept ((s.putFlag g en false).putFlag g st true)
  else accept s

/-- A ring of an ETH page stops for any other cause (R53, R274). -/
def State.ethStop (s : State) (p : Nat) (rx : Bool) : State :=
  let en := if rx then ETH.RXR_CTRL.ENABLE else ETH.TXR_CTRL.ENABLE
  let st := if rx then ETH.RXR_CTRL.STOPPED else ETH.TXR_CTRL.STOPPED
  if s.flag (pETH p) en then s.putFlag (pETH p) st true else s

/-- A doorbell (R51, R270): not past DEV_IDX + 2^n. -/
def State.ethBell (s : State) (p : Nat) (rx : Bool) (v : Nat) : State × Verdict :=
  let g := pETH p
  let dev := s.get g (if rx then ETH.RXR_DEV_IDX.DEV_IDX else ETH.TXR_DEV_IDX.DEV_IDX)
  let n := s.get g (if rx then ETH.RXR_CFG.LOG2_ENTRIES else ETH.TXR_CFG.LOG2_ENTRIES)
  if 2 ^ n < (v + 2 ^ 32 - dev) % 2 ^ 32 then refuse s .range
  else accept (s.put g (if rx then ETH.RXR_DOORBELL.HOST_IDX else ETH.TXR_DOORBELL.HOST_IDX) v)

end Sys2Proof.Machine
end

