-- ==== Sys2Proof/Machine/View.lean ====
section
/-! DEFINITION. What the two halves of a page read (R17, R24, R36 to R40, R56): fields computed from the live state, the
shadows of SHD registers, registers held separately for each window, the read latches, and the snapshot. -/

namespace Sys2Proof.Machine

/-- Offset of the lowest word of a register of an array. -/
def RegDesc.at_ (d : RegDesc) (i : Nat) : Nat := d.base + d.stride * i

/-- Whether a register holds SHD fields. -/
def RegDesc.shd (d : RegDesc) : Bool := d.fields.any (fun f => f.acc == .shd)

/-- Whether a register is RO as a whole (R38). -/
def RegDesc.readOnly (d : RegDesc) : Bool := d.fields.all (fun f => f.acc == .ro)

/-- The words of a number, lowest first. -/
def wordsOf (n v : Nat) : List Nat := (List.range n).map (fun k => v / 2 ^ (32 * k) % 2 ^ 32)

/-! ### Commit contexts (R24, R79) -/

/-- Offset of COMMIT_CTL of a commit context: the header's, or the lane's in a QUAD page. -/
def ctxOff (p lane : Nat) : Nat :=
  match pageBlock p with | some (.quad, _) => 0x180 + 0x10 * lane | _ => 0x030

/-- The lane whose context holds an SHD register: the lane of a QUAD register, else 0. -/
def ctxLane (p o : Nat) : Nat :=
  match pageBlock p with | some (.quad, _) => (o - 0x100) / 0x10 % 4 | _ => 0

/-- Whether a key lies in a commit context. -/
def inCtx (p lane key : Nat) : Bool := key / 4096 == p && ctxLane p (key % 4096) == lane

/-- SHADOW_DIRTY of a context (R24). -/
def State.dirty (s : State) (p lane : Nat) : Bool := s.host.shadow.any (fun e => inCtx p lane e.1) || s.host.immed.any (fun e => inCtx p lane e.key && e.go)

/-- PENDING of a context (R24). -/
def State.pendingCtx (s : State) (p lane : Nat) : Bool := bitOf (s.rd p (ctxOff p lane)).toNat 8

/-- GROUP of a context. -/
def State.ctxGroup (s : State) (p lane : Nat) : Nat := bitsOf (s.rd p (ctxOff p lane + 4)).toNat 3 0

/-- MODE of a context. -/
def State.ctxMode (s : State) (p lane : Nat) : Nat := bitsOf (s.rd p (ctxOff p lane)).toNat 1 0

/-- CG_PENDING.WAITING (R25). -/
def State.groupsWaiting (s : State) : Nat := s.host.goGroup.foldl (fun n c => setBit n (s.ctxGroup c.1 c.2.1)) 0

/-! ### Registers held for each window (R40, R45, R79) -/

/-- The window a path writes through: an SPI WINDOW and the BAR0 window of its number are one. -/
def winPath : Path → Path
  | .spi w => .bar0 w
  | p => p

/-- A number for the window of a path, to key LAST_CMD (R40): paths that are no window have one of their own. -/
def winNum : Path → Nat
  | .bar0 w => w
  | .spi w => w
  | .i2c => 16
  | .remote => 17
  | .kalwin => 18
  | .ring r => 32 + r
  | .queue q => 64 + q

/-- Registers held separately for each window: CLAIM_ARG, VCT_SEL, LAST_SEL, CDT_SEL, RESULT_SEL and SUBMIT_BUF. -/
def perWindow (k : Kind) (base : Nat) : Bool :=
  match k with
  | .own => base == OWN.CLAIM_ARG.off
  | .quad => base == QUAD.VCT_SEL.off
  | .trig => base == TRIG.LAST_SEL.off
  | .tin => base == TIN.CDT_SEL.off
  | .tdc => base == TDC.RESULT_SEL.off
  | .sched => base == SCHED.SUBMIT_BUF.off
  | _ => false

/-- A word of such a register as a path has written it. -/
def State.winWord (s : State) (path : Path) (p o : Nat) : Word :=
  match s.host.winReg.find? (fun e => e.1 == (winPath path, regKey p o)) with
  | some e => e.2
  | none => regReset (regKey p o)

/-- The words of such a register as one number. -/
def State.winNat (s : State) (path : Path) (p o n : Nat) : Nat :=
  (List.range n).foldl (fun a k => a + 2 ^ (32 * k) * (s.winWord path p (o + 4 * k)).toNat) 0

/-- What selects for a reader: the path's own register, or for the mirror the value last written. -/
def State.selWord (s : State) (path : Option Path) (p o : Nat) : Word :=
  match path with | some x => s.winWord x p o | none => s.rd p o

/-- Put such a register for a path; the mirror shows the value last written. -/
def State.putWin (s : State) (path : Path) (p o n v : Nat) : State :=
  let keys := (List.range n).map (fun k => (winPath path, regKey p (o + 4 * k)))
  let words := (wordsOf n v).map (BitVec.ofNat 32)
  { s.wrN p o n v with host := { s.host with
      winReg := keys.zip words ++ s.host.winReg.filter (fun e => !keys.contains e.1) } }

/-! ### Fields computed from the live state -/

/-- Units of 2^-16 Hz of a frequency given as a fraction in Hz. -/
def freq16 (f : Nat × Nat) : Nat := (roundEven (f.1 * 65536 : Nat) (max 1 f.2)).toNat

/-- FREQ of an aux output (R236): the bypass, or the VCO divided by the DIV in force, spread excluded; 0 while APLL_A is off. -/
def State.auxFreq (s : State) (n : Nat) : Nat :=
  if s.flag (pAUX n) AUX.STATUS.BYPASSED then freq16 (40000000, max 1 (s.get (pAUX n) AUX.BYPASS_CFG.BYPASS_DIV))
  else if s.apllaState = 0 then 0
  else freq16 ((s.vco s.nNow).1, (s.vco s.nNow).2 * max 1 (s.aux n).div)

/-- STAGE_HOLD (R324). -/
def State.stageHold (s : State) : Nat :=
  let early := s.stage < 3
  packRec [(8, 1, b2n (!s.below)), (7, 1, b2n !(s.servoState == 2 && s.timeClass s.selected)), (6, 1, b2n (early && !s.portsSettled)),
    (5, 1, b2n (early && !(List.range 16).all (fun i => s.tinSettled i))), (4, 1, b2n (early && !(List.range 12).all (fun q => s.quadSettled q))),
    (3, 1, b2n s.heldAt2), (1, 2, bitsOf (s.rd pDEV DEV.STAGE_HOLD.off).toNat 2 1), (0, 1, b2n !(s.flag pAPLL_M APLL_M.STATUS.LOCKED))]

/-- The age of the older front set of an input, in s (R176). -/
def State.tableAge (s : State) (i : Nat) : Nat :=
  min ((List.range 2).foldl (fun a k => if (s.core i k).front.isSome then max a ((s.clk.slot - (s.core i k).accepted) / 200000000) else a) 0) 0xFFFF

/-- A window of two table entries. -/
def pairWord (lo hi w : Nat) : Nat := lo % 2 ^ w + 2 ^ 16 * (hi % 2 ^ w)

/-- STATE of a gate: 0 IDLE, 1 WAITING, 2 MEASURING (R200). -/
def State.gateState (s : State) (g : Nat) : Nat :=
  if !s.flag pTDC (TDC.FG_CFG.ENABLE g) then 0
  else if s.gateBusy g (s.flat s.now) then 2 else 1

/-- STATUS bits [23:0] of a block, where they are not as stored (R37). -/
def State.statusOf (s : State) (k : Kind) (i : Nat) (stored : Nat) : Nat :=
  match k with
  | .chan => s.chanStatus i
  | .cal => putBits stored 0 0 (b2n (s.flag pCAL CAL.LOOP_CFG.ENABLE))
  | .sync => putBits (putBits stored 1 1 (b2n (s.reached s.sync.outStart && !s.reached s.sync.outEnd))) 2 2
      (b2n (s.reached s.sync.ppsStart && !s.reached s.sync.ppsEnd))
  | .sched => ((List.range 8).filter (fun n => s.flag pSCHED (SCHED.TICK_CFG.ENABLE n))).foldl (fun a n => setBit a (16 + n)) 0 +
      ((List.range 16).filter (fun q => !(s.queue q).actions.isEmpty)).foldl setBit 0
  | .tdc => ((List.range 8).filter (fun g => s.gateState g == 2)).foldl (fun a g => setBit a (16 + g)) 0 +
      ((List.range 16).filter (fun k => decide (2 ≤ s.sessState k))).foldl setBit 0
  | .refsel => putBits (putBits stored 23 16 (((List.range 8).filter (fun k => s.refState k == 3)).foldl setBit 0)) 15 8
      (((List.range 8).filter (fun k => s.refState k == 4)).foldl setBit 0)
  | .eave => putBits (putBits stored 23 16 (s.get pEAVE EAVE.LATCH.LATCH)) 7 7 (b2n s.eave.pc.isSome)
  | .gutter => putBits (putBits stored 0 0 (b2n (!s.activeSources.isEmpty))) 1 1 (b2n (s.flag pGUTTER GUTTER.FF_INFO.VALID))
  | _ => stored

/-- Whether a block is in its safe state (STATUS.SAFE). -/
def State.blockSafe (s : State) (k : Kind) (i : Nat) : Bool :=
  match k with
  | .chan => !(s.chan i).safe.isEmpty
  | .aux => !(s.aux i).safe.isEmpty
  | .gutter => s.gutter.safe
  | _ => false

/-- STATUS of a page (R37). -/
def State.status (s : State) (p : Nat) (k : Kind) (i : Nat) : Nat :=
  packRec [(31, 1, b2n (s.blockSafe k i)), (30, 1, b2n (s.rd p 0x024 != 0)), (29, 1, b2n s.host.frozen.isSome),
    (0, 24, s.statusOf k i (s.rd p 0x010).toNat)]

/-- DEV.IRQ_SUMMARY (R55, R308). -/
def State.irqSummary (s : State) : Nat :=
  (s.regs.filter (fun e => e.1 % 4096 == 0x018 && andN e.2.toNat (s.rd (e.1 / 4096) 0x01C).toNat != 0 || e.1 % 4096 == 0x024 && s.distributed)).foldl (fun a e => setBit a (e.1 / 4096)) 0

/-- LEASE_LEFT in µs (R46). -/
def State.leaseLeft (s : State) (w : Nat) : Nat :=
  if s.flag pOWN (OWN.LEASE_CTL.ARMED w) then
    ceilDiv ((s.host.leases.getD w {}).renewed + s.get pOWN (OWN.LEASE_PERIOD.PERIOD_US w) * 200 - s.clk.slot) 200
  else 0

/-- REF_STATE (R231). -/
def State.refStateWord (s : State) (k : Nat) : Nat :=
  let stored := (s.rd pREFSEL (REFSEL.REF_STATE.off k)).toNat
  putBits (putBits (putBits stored 8 8 (b2n (s.isSelected k))) 9 9 (b2n (s.timeClass k))) 10 10 (b2n (s.conflictRef == some k))

/-- TSC.AGE_TERM: the growth in the rule of the present basis (R244). -/
def State.ageTerm (s : State) : Nat :=
  match (if s.basis = 3 then s.teb.prevBasis else s.basis) with
  | 1 => min (s.seedGrowth s.now) tebUnknown
  | 2 => if s.teb.uyRef = 0xFFFFFFFF then tebUnknown else min (psOfFreq s.teb.uyRef (s.now - s.teb.tObs).natAbs) tebUnknown
  | 4 => satTeb (s.holdTerm (since (s.getInst pSERVO SERVO.HOLD_ENTRY.INSTANT) s.now))
  | 5 => satTeb (s.freqTerm s.now)
  | _ => 0

/-- VCT_DATA and PHASE_TRIM_DATA of the engine that a path selected (R79). -/
def State.engineTable (s : State) (path : Option Path) (q : Nat) : TableSet :=
  ((s.engine q ((s.selWord path (pQUAD q) QUAD.VCT_SEL.off).toNat)).front).getD {}

/-- CDT_DATA of the core and base that a path selected: the front set in use, or the coarse map (R176). DESIGN CHOICE (log 101): while the
input is COARSE, which R167 lets it leave within Stage 2; R176 names Stage 2. -/
def State.cdtData (s : State) (path : Option Path) (i k : Nat) : Nat :=
  let sel := (s.selWord path (pTIN i) TIN.CDT_SEL.off).toNat
  match (if s.flag (pTIN i) TIN.STATUS.COARSE then none else (s.core i (bitsOf sel 16 16)).front) with
  | some t => ofSigned 24 (t.tau.getD (bitsOf sel 9 0 + k) 0)
  | none => ofSigned 24 (coarseTau (bitsOf sel 9 0 + k))

/-- The last result of the session or gate that a path selected (R187). -/
def State.selectedResult (s : State) (path : Option Path) : Option (List Nat × Nat) :=
  s.meas.results.getD (s.selWord path pTDC TDC.RESULT_SEL.off).toNat none

/-- The value of a register whose fields are computed from the live state, by its block, instance, base and index; none
where the register reads as stored. -/
def State.computed (s : State) (path : Option Path) (k : Kind) (i base j : Nat) : Option Nat :=
  match k with
  | .dev =>
    if base == DEV.CG_DISARM.off then some (s.rd pDEV DEV.CG_ARM.off).toNat
    else if base == DEV.CG_PENDING.off then some s.groupsWaiting
    else if base == DEV.IRQ_SUMMARY.off then some s.irqSummary
    else if base == DEV.STAGE_HOLD.off then some s.stageHold
    else none
  | .own => if base == OWN.LEASE_LEFT.off 0 then some (s.leaseLeft j) else none
  | .quad =>
    if base == QUAD.VCT_DATA.off 0 then
      some (pairWord ((s.engineTable path i).vct.getD (2 * j) 0) ((s.engineTable path i).vct.getD (2 * j + 1) 0) 12)
    else if base == QUAD.PHASE_TRIM_DATA.off 0 then
      some (pairWord (ofSigned 10 ((s.engineTable path i).trim.getD (2 * j) 0)) (ofSigned 10 ((s.engineTable path i).trim.getD (2 * j + 1) 0)) 10)
    else if base == QUAD.SWEEP_INFO.off then
      match (s.engine i (s.spare i)).front with
      | some t => some (putBits (s.rd (pQUAD i) base).toNat 31 16 (min ((s.clk.slot - t.sweptAt) / 200000000) 0xFFFF))
      | none => none
    else none
  | .cal => if base == CAL.LOOP_BOUND.off then some s.loopBound else none
  | .trig =>
    let n := (s.selWord path pTRIG TRIG.LAST_SEL.off).toNat
    if base == TRIG.LAST_INSTANT.off then some (instantBits (s.line n).lastAt)
    else if base == TRIG.LAST_TEB.off then some (s.line n).lastTeb
    else none
  | .sched =>
    if base == SCHED.Q_STATE.off 0 then
      some (packRec [(16, 10, (s.queue j).actions.length), (15, 1, b2n (s.heldSafe j)), (14, 1, b2n (s.heldPhase j))])
    else none
  | .tin =>
    if base == TIN.CAL_STATE.off then some (putBits (s.rd (pTIN i) base).toNat 31 16 (s.tableAge i))
    else if base == TIN.FIFO_STATE.off then some (s.tin i).fifo.length
    else if base == TIN.SUB_AGENT.off 0 then
      match s.place i j with
      | some (1, n) => some (2 ^ 16 * s.resOwner 4 n)
      | some (2, n) => some (2 ^ 16 * s.resOwner 6 n)
      | some (3, n) => some (2 ^ 16 * s.resOwner 12 n)
      | some (4, _) => some (2 ^ 16 * s.pageOwner pTDC)
      | some (5, _) => some (2 ^ 16 * s.pageOwner pREFSEL)
      | _ => some 0
    else if base == TIN.CDT_DATA.off 0 then some (s.cdtData path i j)
    else none
  | .tdc =>
    if base == TDC.RESULT_INFO.off then
      match s.selectedResult path with | some r => some (2 ^ 31 + r.2 % 2 ^ 16) | none => some 0
    else if base == TDC.RESULT_DATA.off 0 then
      match s.selectedResult path with | some r => some (r.1.zipIdx.foldl (fun a e => a + e.1 * 2 ^ (256 * e.2)) 0) | none => some 0
    else if base == TDC.FG_STATE.off 0 then some (s.gateState j)
    else if base == TDC.ST_STATE.off 0 then
      match s.ringFor 4 j with
      | some r => some (putBits (putBits (s.rd pTDC (TDC.ST_STATE.off j)).toNat 31 31 1) 4 0 r)
      | none => none
    else none
  | .refsel =>
    if base == REFSEL.REF_STATE.off 0 then some (s.refStateWord j)
    else if base == REFSEL.REF_DWELL_LEFT.off 0 then
      if s.refState j = 2 then
        some (ceilDiv ((s.refs.getD j {}).dwellSlot + s.get pREFSEL (REFSEL.REF_QUAL.DWELL_S j) * 200000000 - s.clk.slot) 200000000)
      else some 0
    else none
  | .servo =>
    if base == SERVO.SLEW_LEFT.off then some (if s.flag pSERVO SERVO.STATUS.SLEWING then spanBits s.slewLeft else 0)
    else if base == SERVO.HOLD_TERM.off then
      some (if s.servoState = 3 then satTeb (s.holdTerm (since (s.getInst pSERVO SERVO.HOLD_ENTRY.INSTANT) s.now))
        else if s.basis = 5 then satTeb (s.freqTerm s.now) else 0)
    else none
  | .apllm => if base == APLL_M.TCLK_COUNT.off then some s.clk.tclk else none
  | .aplla =>
    if s.apllaState = 0 then none
    else if base == APLL_A.N_INT_NOW.off then some (s.nNow / 2 ^ 32)
    else if base == APLL_A.N_FRAC_NOW.off then some (s.nNow % 2 ^ 32)
    else if base == APLL_A.VCO_FREQ.off then some (freq16 (s.vco s.nNow))
    else none
  | .aux => if base == AUX.FREQ.off then some (s.auxFreq i) else none
  | .tsc =>
    if base == TSC.TEB_NOW.off then some (s.tebTs s.now)
    else if base == TSC.AGE_TERM.off then some s.ageTerm
    else if base == TSC.PATH_TERM.off then some s.pathTerm
    else if base == TSC.U_Y.off then some (s.uy s.now)
    else none
  | .eave =>
    if base == EAVE.UTC_DATE.off then some s.utcWords.1
    else if base == EAVE.UTC_TIME.off then some s.utcWords.2
    else if base == EAVE.LOG.off 0 then some (s.logEntry j)
    else none
  | .gutter =>
    if base == GUTTER.ACTIVE.off then some (s.activeSources.foldl setBit 0)
    else if base == GUTTER.SRC_CFG.off 0 ∧ path.isNone then
      let v := (s.rd pGUTTER (GUTTER.SRC_CFG.off j)).toNat
      if (sourceSev j).isNone then none else some (Nat.lor v (minReact (bitsOf v 17 16)))
    else none
  | .flash =>
    if base == FLASH.TRIAL_STATE.off then some (putBits (s.rd pFLASH base).toNat 31 16 (min s.windowLeft 0xFFFF)) else none
  | .rdg => if base == RDG.STAMP_BOUND.off then some (s.rdgBound i) else none
  | .eth =>
    if base == ETH.TX_CONST.off then some (ofSigned 32 (s.ethConst i).1)
    else if base == ETH.RX_CONST.off then some (ofSigned 32 (s.ethConst i).2)
    else if base == ETH.ETH_BOUND.off then some (s.ethBound i)
    else if base == ETH.TS_FIFO.off then some (s.fifoDepth i)
    else none
  | _ => none

/-- Offsets that read zero whatever is stored: the Gutter's body in DISTRIBUTED mode (R308), and the device-wide registers in
the pages RDG_1 to RDG_5 (R267). -/
def State.readsZero (s : State) (k : Kind) (i base : Nat) : Bool :=
  match k with
  | .gutter => s.distributed && decide (0x040 ≤ base)
  | .rdg => decide (1 ≤ i) && decide (0x400 ≤ base)
  | _ => false

/-- The effective value of a register for a path: as the mirror shows it. -/
def State.effective (s : State) (path : Option Path) (p : Nat) (k : Kind) (i : Nat) (d : RegDesc) (j : Nat) : Nat :=
  if s.readsZero k i d.base then 0
  else if d.base == 0x010 then s.status p k i
  else match s.computed path k i d.base j with
    | some v => v
    | none => s.rdN p (d.at_ j) d.words

/-- COMMIT_CTL of the contexts shows SHADOW_DIRTY (R24). -/
def State.commitCtl (s : State) (p lane stored : Nat) : Nat := putBits stored 9 9 (b2n (s.dirty p lane))

/-- The commit context whose COMMIT_CTL lies at an offset. -/
def ctxAt (p o : Nat) : Option Nat :=
  match pageBlock p with
  | some (.quad, _) => if decide (0x180 ≤ o) && decide (o < 0x1C0) && o % 16 == 0 then some ((o - 0x180) / 16) else none
  | some _ => if o == 0x030 then some 0 else none
  | none => none

/-- The shadow of a word that stands before its effective value: a shadow not yet committed, or an IMMEDIATE write on its
way to its SCLK edge. -/
def State.shadowOf (s : State) (key : Nat) : Option Word :=
  match s.host.shadow.find? (fun e => e.1 == key) with
  | some e => some e.2
  | none => (s.host.immed.reverse.find? (fun e => e.key == key)).map (·.word)

/-- Whether a register starts commands (R38). -/
def RegDesc.isCmd (d : RegDesc) : Bool := d.fields.any (fun f => f.acc == .cmd)

/-- The word that a CMD register shows through the window of a path (R38). -/
def State.shownCmd (s : State) (path : Path) (p off : Nat) : Nat :=
  match s.host.winCmd.find? (fun e => e.1 == (regKey p off, winNum path)) with | some e => e.2.toNat | none => 0

/-- The value of a register in the lower half for a path (R38). -/
def State.lower (s : State) (path : Path) (p : Nat) (k : Kind) (i : Nat) (d : RegDesc) (j : Nat) : Nat :=
  let o := d.at_ j
  if perWindow k d.base then s.winNat path p o d.words
  else if d.base == 0x02C then
    match s.host.winLast.find? (fun e => e.1 == (p, winNum path)) with | some e => e.2.toNat | none => 0
  else if d.isCmd then s.shownCmd path p o
  else
    let v := s.effective (some path) p k i d j
    match ctxAt p o with
    | some lane => s.commitCtl p lane v
    | none =>
      if d.shd then
        (List.range d.words).foldl (fun a w => match s.shadowOf (regKey p (o + 4 * w)) with
          | some x => putBits a (32 * w + 31) (32 * w) x.toNat
          | none => a) v
      else v

/-- The value of a register in the mirror half (R38). -/
def State.mirror (s : State) (p : Nat) (k : Kind) (i : Nat) (d : RegDesc) (j : Nat) : Nat :=
  match ctxAt p (d.at_ j) with
  | some lane => s.commitCtl p lane (s.effective none p k i d j)
  | none => s.effective none p k i d j

/-- The register words of a page's mirror that do not read as at reset. -/
def State.mirrorPage (s : State) (p : Nat) : List (Nat × Word) :=
  match pageBlock p with
  | none => []
  | some b => (kindRegs b.1).flatMap (fun d => (List.range (max 1 d.count)).flatMap (fun j =>
      (((wordsOf d.words (s.mirror p b.1 b.2 d j)).zipIdx.map (fun e => (regKey p (d.at_ j + 4 * e.2), BitVec.ofNat 32 e.1))).filter
        (fun e => e.2 != regReset e.1))))

/-- Every mirror half, for a snapshot (R56). -/
def State.mirrorAll (s : State) : List (Nat × Word) := (List.range 0x91).flatMap (fun p => s.mirrorPage p)

/-! ### Reads (R17, R36, R39, R56) -/

/-- The words of the register at an offset, as a path reads them now, with the offset of its lowest word and the word
meant; none at an offset without a register. -/
def State.readReg (s : State) (path : Path) (p off : Nat) : Option (List Nat × Nat × Nat) :=
  let half := if 0x800 ≤ off then 0x800 else 0
  match regAt p (off % 0x800) with
  | none => none
  | some (k, i, d, j, w) =>
    let v := if half = 0 then wordsOf d.words (s.lower path p k i d j)
      else match s.host.frozen with
        | some fr => (List.range d.words).map (fun n => match fr.find? (fun e => e.1 == regKey p (d.at_ j + 4 * n)) with
            | some e => e.2.toNat
            | none => (regReset (regKey p (d.at_ j + 4 * n))).toNat)
        | none => wordsOf d.words (s.mirror p k i d j)
    some (v, d.at_ j + half, w)

/-- Latch words for a path under the key of their lowest word. -/
def State.latch (s : State) (path : Path) (key : Nat) (words : List Nat) : State :=
  { s with host := { s.host with
      latches := ((path, key), words.map (BitVec.ofNat 32)) :: s.host.latches.filter (fun e => e.1 != (path, key)) } }

/-- Latched words of a path. -/
def State.latched (s : State) (path : Path) (key : Nat) : Option (List Word) :=
  (s.host.latches.find? (fun e => e.1 == (path, key))).map (fun e => e.2)

/-- A read of a log entry whose ECC fails sets SRAM_ECC (R291). -/
def State.readLog (s : State) (p off : Nat) : State :=
  s.onlyIf (p == pEAVE && s.eave.logBad.any (fun e => EAVE.LOG.off e == off % 0x800 / 16 * 16)) (fun s => s.err pEAVE 1)

/-- The word that a register of one word shows: the joint latch of CAL_NOW in the same half for the calendar's date and time (R17, R294). -/
def State.readSingle (s : State) (path : Path) (p base : Nat) (now : Nat) : Nat :=
  if p = pEAVE ∧ (base % 0x800 = EAVE.UTC_DATE.off ∨ base % 0x800 = EAVE.UTC_TIME.off) then
    match s.latched path (regKey p base) with | some l => (l.getD 0 0).toNat | none => now
  else now

/-- Latch a single word of a path as its half shows it now. -/
def State.latchSingle (s : State) (path : Path) (p off : Nat) : State :=
  match s.readReg path p off with | some (words, base, _) => s.latch path (regKey p base) words | none => s

/-- Read one word by a path (R17): the lowest word of a multi-word register latches all its words; CAL_NOW latches the
calendar's date and time of its half with it (R278, R294). -/
def State.readWord (s : State) (path : Path) (p off : Nat) : Nat × State :=
  match s.readReg path p off with
  | none => (0, s)
  | some (words, base, w) =>
    let key := regKey p base
    if words.length = 1 then (s.readSingle path p base (words.getD 0 0), s)
    else if w = 0 then
      let s1 := (s.readLog p off).latch path key words
      (words.getD 0 0, if p = pEAVE ∧ base % 0x800 = EAVE.CAL_NOW.off then
          (s1.latchSingle path p (base - EAVE.CAL_NOW.off + EAVE.UTC_DATE.off)).latchSingle path p (base - EAVE.CAL_NOW.off + EAVE.UTC_TIME.off)
        else s1)
    else match s.latched path key with
      | some l => ((l.getD w 0).toNat, s.readLog p off)
      | none => (words.getD w 0, s.readLog p off)

end Sys2Proof.Machine
end

