-- ==== Sys2Proof/Machine/Access.lean ====
section
/-! DEFINITION. Who makes an access, what may stand in its way, and how its result is reported (R17, R33 to R43, R45). -/

namespace Sys2Proof.Machine

/-- The agent that an access by a path carries (R33, R34, R52, R139, R292). -/
def State.agentOf (s : State) : Path → Nat
  | .bar0 w => s.get pOWN (OWN.WINDOW.AGENT w)
  | .spi w => s.get pOWN (OWN.WINDOW.AGENT w)
  | .i2c => s.get pEAVE EAVE.I2C_CFG.I2C_AGENT
  | .ring r => s.resOwner 6 r
  | .remote => 0xFFFD
  | .kalwin => 0xFFFE
  | .queue q => s.queueOwner q

/-- Whether a path has ADMIN rights: an ADMIN window, Kalwin firmware, or the remote root while REMOTE_ADMIN is set (R35). -/
def State.adminOf (s : State) : Path → Bool
  | .bar0 w => s.flag pOWN (OWN.WINDOW.ADMIN w)
  | .spi w => s.flag pOWN (OWN.WINDOW.ADMIN w)
  | .kalwin => true
  | .remote => s.flag pOWN OWN.REMOTE_CTL.REMOTE_ADMIN
  | _ => false

/-- Whether an access by a path reaches a page at all: I2C reaches only the EAVE page, always (R33); every other path needs
the core, and a BAR0 window the endpoint (R28, R31, R314). -/
def State.reaches (s : State) (path : Path) (p : Nat) : Bool :=
  match path with
  | .i2c => p == pEAVE
  | .bar0 _ => s.stage != 0 && s.pcieUp
  | _ => s.stage != 0

/-- Whether writes by a path are turned away whatever they name: a window bound to agent 0 or READ_ONLY (R34), I2C under
I2C_LOCK or without an agent while the core runs (R292), and the remote root without REMOTE_ENABLE (R45). -/
def State.barred (s : State) : Path → Bool
  | .bar0 w => s.get pOWN (OWN.WINDOW.AGENT w) == 0 || s.flag pOWN (OWN.WINDOW.READ_ONLY w)
  | .spi w => s.get pOWN (OWN.WINDOW.AGENT w) == 0 || s.flag pOWN (OWN.WINDOW.READ_ONLY w)
  | .i2c => s.mainOn && (s.flag pEAVE EAVE.I2C_CFG.I2C_LOCK || s.get pEAVE EAVE.I2C_CFG.I2C_AGENT == 0)
  | .remote => !s.flag pOWN OWN.REMOTE_CTL.REMOTE_ENABLE
  | _ => false

/-! ### Ownership (R42, R43, R45) -/

/-- The refusal for want of ownership, if any; I2C is checked against no owner while the core is off (R292). -/
def State.denies (s : State) (c : WCtx) (k : Kind) (base j : Nat) : Option Verdict :=
  if c.path = .i2c ∧ !s.mainOn then none else (s.governs c k base j).refusal c.agent

/-! ### Locks (R38) -/

/-- Fields that a block's chapter locks beside its RWL fields (R38). -/
def alsoLocked (k : Kind) (base hi : Nat) : Bool :=
  match k with
  | .trig => base == TRIG.TL_SRC.off 0 && decide (hi < 31)
  | .refsel => (base == REFSEL.REF_CFG.off 0 && (hi == 19 || hi == 7)) || base == REFSEL.REF_NOMINAL.off 0
  | .sched => (base == SCHED.Q_CFG.off 0 && (hi == 19 || hi == 15)) || base == SCHED.TICK_COUNT.off 0 ||
      base == SCHED.TICK_ORIGIN.off 0 || base == SCHED.TICK_PERIOD.off 0
  | .cal => base == CAL.LOOP_CFG.off && decide (hi < 31)
  | .eave => base == EAVE.PROG.off 0
  | _ => false

/-- Whether the enable that governs a lock is 1 (R38, R49, R178, R188, R273). -/
def State.lockedBy (s : State) (p : Nat) (k : Kind) (base j : Nat) : Bool :=
  match k with
  | .trig => s.flag pTRIG (TRIG.TL_SRC.ENABLE j)
  | .refsel => s.flag pREFSEL (REFSEL.REF_CFG.ENABLE j)
  | .sched => if base < 0x240 then s.flag pSCHED (SCHED.Q_CFG.ENABLE j) else s.flag pSCHED (SCHED.TICK_CFG.ENABLE j)
  | .cal => s.flag pCAL CAL.LOOP_CFG.ENABLE
  | .eave => s.flag pEAVE EAVE.PROG_CTL.RUN
  | .hostq => s.flag pHOSTQ (HOSTQ.RING_CTRL.ENABLE j)
  | .tdc => if base < 0x500 then s.flag pTDC (TDC.MS_CFG.ENABLE j) else s.flag pTDC (TDC.FG_CFG.ENABLE j)
  | .eth =>
    if base < 0x100 then bitOf (s.rd p 0x014).toNat 31
    else if base < 0x120 then s.flag p ETH.TXR_CTRL.ENABLE else s.flag p ETH.RXR_CTRL.ENABLE
  | _ => bitOf (s.rd p 0x014).toNat 31

/-- Whether a write meets a lock: the enable is 1 and a locked field would change (R38). -/
def State.locked (s : State) (p : Nat) (k : Kind) (d : RegDesc) (j old new : Nat) : Bool :=
  d.fields.any (fun f => (f.acc == .rwl || alsoLocked k d.base f.hi) && bitsOf old f.hi f.lo != bitsOf new f.hi f.lo) &&
    s.lockedBy p k d.base j

/-- Whether a write meets a pending commit (R27): an SHD register, MODE or COMMIT_GROUP of a context whose PENDING is set;
ABORT is always accepted. -/
def State.busyPending (s : State) (p : Nat) (d : RegDesc) (off v : Nat) : Bool :=
  match ctxAt p off with
  | some lane => s.pendingCtx p lane && !bitOf v 5
  | none =>
    if d.shd then s.pendingCtx p (ctxLane p off)
    else match ctxAt p (off - 4) with
      | some lane => decide (4 ≤ off) && s.pendingCtx p lane
      | none => false

/-! ### The value (R13, R14, R17, R39) -/

/-- A staged lower word of a path. -/
def State.stagedWord (s : State) (path : Path) (key : Nat) : Option Word :=
  (s.host.staged.find? (fun e => e.1 == (path, key))).map (fun e => e.2)

/-- Stage a lower word (R17). -/
def State.stage_ (s : State) (path : Path) (key v : Nat) : State :=
  { s with host := { s.host with staged := ((path, key), BitVec.ofNat 32 v) :: s.host.staged.filter (fun e => e.1 != (path, key)) } }

/-- Drop the words a path has staged for a register. -/
def State.unstage (s : State) (path : Path) (p base n : Nat) : State :=
  let keys := (List.range n).map (fun w => (path, regKey p (base + 4 * w)))
  { s with host := { s.host with staged := s.host.staged.filter (fun e => !keys.contains e.1) } }

/-- The value that a write of the highest word builds (R17): staged words, or the words the lower half shows. -/
def State.build (s : State) (path : Path) (p base n lower top : Nat) : Nat :=
  (List.range (n - 1)).foldl (fun a w => match s.stagedWord path (regKey p (base + 4 * w)) with
    | some x => putBits a (32 * w + 31) (32 * w) x.toNat
    | none => a) (putBits lower (32 * n - 1) (32 * (n - 1)) top)

/-- Whether a value has a bit outside the register's fields (R39). -/
def RegDesc.reserved (d : RegDesc) (v : Nat) : Bool := d.fields.foldl (fun n f => putBits n f.hi f.lo 0) v != 0

/-- Whether the Instant and Span fields of a value are valid (R13, R14). MGMT_DATA and the
source maps of GUTTER are no Instants. -/
def formatOk (k : Kind) (d : RegDesc) (v : Nat) : Bool :=
  d.fields.all (fun f =>
    (if f.hi = 127 ∧ f.lo = 0 ∧ k ≠ .rdg ∧ k ≠ .gutter ∨ k = .rdg ∧ d.base = RDG.TRIG_ISSUE_AT.off then instantOk v else true) &&
    (if f.hi = 95 ∧ f.lo = 0 then spanOk v else true))

/-- A register with a value written to its fields by their access types; reserved bits are zero (R38). -/
def RegDesc.merge (d : RegDesc) (old v : Nat) : Nat :=
  d.fields.foldl (fun n f =>
    let x := bitsOf v f.hi f.lo
    let was := bitsOf old f.hi f.lo
    putBits n f.hi f.lo (match f.acc with
      | .ro => was
      | .w1s => was
      | .w1c => clearBits was x
      | _ => x)) 0

/-- The live value of the register a write names. -/
def State.present (s : State) (c : WCtx) (d : RegDesc) : Nat := s.rdN c.page c.off d.words

/-- The state with a write applied to the fields of its register. -/
def State.put_ (s : State) (c : WCtx) (d : RegDesc) : State := s.wrN c.page c.off d.words (d.merge (s.present c d) c.v)

/-- Accept a write as its fields take it. -/
def State.plain (s : State) (c : WCtx) (d : RegDesc) : State × Verdict := accept (s.put_ c d)

/-- Accept a write if its value is in range. -/
def State.ranged (s : State) (c : WCtx) (d : RegDesc) (ok : Bool) : State × Verdict :=
  if ok then s.plain c d else refuse s .range

/-- Accept a write and let something follow from it. -/
def State.after (s : State) (c : WCtx) (d : RegDesc) (f : State → State) : State × Verdict := accept (f (s.put_ c d))

/-! ### Results (R40, R41, R45) -/

/-- DETAIL of a result (R40). -/
def Verdict.detailOf (v : Verdict) (off : Nat) : Nat :=
  match v.res with
  | .conflict => v.detail.getD 0
  | .denied => v.detail.getD 0
  | _ => v.detail.getD off

/-- Report a result in LAST_CMD, for the path's window and for the mirror (R40); count CONFLICT and DENIED in OWN
(R45), while the core is up. -/
def State.lastCmd (s : State) (path : Path) (p off agent code : Nat) (v : Verdict) : State :=
  let key := (p, winNum path)
  let old := match s.host.winLast.find? (fun e => e.1 == key) with | some e => e.2.toNat | none => 0
  let w := packRec [(16, 16, v.detailOf off), (12, 4, v.res.code), (8, 4, (bitsOf old 11 8 + 1) % 16), (0, 8, code)]
  let s1 : State := { s.wr p 0x02C (BitVec.ofNat 32 w) with host := { s.host with
    winLast := (key, BitVec.ofNat 32 w) :: s.host.winLast.filter (fun e => e.1 != key) } }
  if (v.res = .conflict ∨ v.res = .denied) ∧ s.stage ≠ 0 then
    ((s1.incSat pOWN OWN.CONFLICT_COUNT.COUNT).wr pOWN OWN.CONFLICT_WHO.off (BitVec.ofNat 32 (agent * 65536 + v.detail.getD 0))).wr pOWN
      OWN.CONFLICT_WHERE.off (BitVec.ofNat 32 (p * 65536 + off))
  else s1

/-- Note the last command written to a CMD register: the mirror shows the one of all windows, the lower half that of the reading window,
with its result in LAST_CMD (R38). DESIGN CHOICE (log 99): a command that is refused is noted too. -/
def State.noteCmd (s : State) (path : Path) (p off v : Nat) : State :=
  let key := (regKey p off, winNum path)
  { s.wr p off (BitVec.ofNat 32 v) with host := { s.host with
    winCmd := (key, BitVec.ofNat 32 v) :: s.host.winCmd.filter (fun e => e.1 != key) } }

/-- CODE of LAST_CMD: the command code written to a CMD register (R40). -/
def RegDesc.codeOf (d : RegDesc) (v : Nat) : Nat := if d.isCmd then bitsOf v 7 0 else 0

end Sys2Proof.Machine
end

