-- ==== Sys2Proof/Machine/Commit.lean ====
section
/-! DEFINITION. Commits: SHD registers, the commit registers of a page, the commit groups of DEV, and what each page checks
and does when shadows become effective (R24 to R27, R79, R86, R250, R371, R372). -/

namespace Sys2Proof.Machine

/-- Put register words. -/
def State.putWords (s : State) (l : List (Nat × Word)) : State := s.forEach l (fun e s => s.wr (e.1 / 4096) (e.1 % 4096) e.2)

/-! ### What a commit is checked for (R371) -/

/-- The effective BOARD_DELAY of a channel's lane, and its shadow where one is pending (R88). -/
def State.boardDelays (s : State) (c : Nat) : List Int :=
  let p := pQUAD (chanQuad c)
  let o := QUAD.BOARD_DELAY.off (chanLane c)
  let eff := s.rdN p o 3
  let sh := (List.range 3).foldl (fun a w => match s.shadowOf (regKey p (o + 4 * w)) with
    | some x => putBits a (32 * w + 31) (32 * w) x.toNat
    | none => a) eff
  if sh = eff then [spanOf eff] else [spanOf eff, spanOf sh]

/-- The CHAN settings that APLL_A holds on to while it runs from a channel (R222). -/
def State.clockKey (s : State) (c : Nat) : Nat × Nat × Nat × Nat :=
  (s.chanMode c, s.get (pCHAN c) CHAN.PERIOD.SPAN, s.get (pCHAN c) CHAN.PERIOD_FRAC.FRAC, s.get (pCHAN c) CHAN.ORIGIN.INSTANT)

/-- MODE_CFG.MODE of a channel, whether or not it is enabled. -/
def State.modeField (s : State) (c : Nat) : Nat := s.get (pCHAN c) CHAN.MODE_CFG.MODE

/-- The refusal of SEQ mode (R85, R107): no sequencer holds the quad, or another agent's does, or the board delay is above
900 ns. -/
def State.seqModeRefusal (s : State) (agent c : Nat) : Option Verdict :=
  match s.seqOfQuad (chanQuad c) with
  | none => some ⟨.state, none⟩
  | some n =>
    if s.seqOwner n ≠ agent then some ⟨.conflict, some (s.seqOwner n)⟩
    else if (s.boardDelays c).any (fun b => decide (b > 900 * (suNs : Int))) then some ⟨.range, none⟩ else none

/-- The refusal of an entry into CAL mode (R78, R96). DESIGN CHOICE (log 89): CONFLICT, for another CAL channel of the quad, comes before
STATE, for its spare, which that channel holds. -/
def State.calModeRefusal (s : State) (c : Nat) : Option Verdict :=
  let q := chanQuad c
  match (List.range 4).find? (fun l => 4 * q + l != c && s.chanMode (4 * q + l) == 8) with
  | some l => some ⟨.conflict, some (s.resOwner 1 (4 * q + l))⟩
  | none => if (s.quad q).swap.isSome ∨ !s.spareReady q then some ⟨.state, none⟩ else none

/-- The refusal of a commit or entry of channel `c` whose registers would stand as in `new` (R85, R88, R91 to R98, R107, R222,
R301). -/
def State.chanRefusal (s new : State) (agent c : Nat) (modeWritten : Bool) : Option Verdict :=
  let p := pCHAN c
  let m := new.modeField c
  let src := new.get p CHAN.MODE_CFG.MIRROR_SRC
  if 9 ≤ m ∨ new.get p CHAN.MODE_CFG.RETRIG = 3 ∨ new.get p CHAN.LEVEL_CFG.SAFE_LEVEL = 3 ∨ 48 ≤ src then some ⟨.range, none⟩
  else if m = 7 ∧ (src = c ∨ s.modeField src = 7 ∨ s.modeField src = 8) then some ⟨.range, none⟩
  else if (m = 7 ∨ m = 8) ∧ (List.range 48).any (fun x => x != c && s.modeField x == 7 && s.get (pCHAN x) CHAN.MODE_CFG.MIRROR_SRC == c) then
    some ⟨.range, none⟩
  else if !new.chanLimits c (s.boardDelays c) then some ⟨.range, none⟩
  else if s.gutter.safe ∧ (modeWritten ∨ new.idle c ≠ s.idle c) ∧ placesEdges (new.chanMode c) then some ⟨.state, none⟩
  else if s.refChanHeld c ∧ new.clockKey c ≠ s.clockKey c then some ⟨.state, none⟩
  else if m = 5 ∧ modeWritten then s.seqModeRefusal agent c
  else if new.chanMode c = 8 ∧ s.chanMode c ≠ 8 then s.calModeRefusal c
  else none

/-- The refusal of a commit of a traceability record (R250): FORMAT, LINKS, a reserved bit, or a store in reduced service. -/
def State.traceRefusal (s new : State) : Option Verdict :=
  let w (o : Nat) : Nat := (new.rd pDOMAIN (0x400 + o)).toNat
  if bitsOf (w 0) 7 0 ≠ 1 ∨ 8 < bitsOf (w 0) 15 8 ∨ w 4 ≠ 0 ∨
      (List.range 8).any (fun k => bitsOf (w (16 + 48 * k)) 31 24 != 0 || bitsOf (w (16 + 48 * k)) 15 8 != 0) then some ⟨.range, none⟩
  else if s.flag pFLASH FLASH.STATUS.REDUCED then some ⟨.state, none⟩
  else none

/-- The refusal of a commit that makes `words` of a context effective. -/
def State.commitRefusal (s : State) (agent p lane : Nat) (words : List (Nat × Word)) : Option Verdict :=
  let new := s.putWords words
  match pageBlock p with
  | some (.chan, c) => s.chanRefusal new agent c (words.any (fun e => e.1 == regKey p CHAN.MODE_CFG.off))
  | some (.tin, i) => if new.tinLimits i then none else some ⟨.range, none⟩
  | some (.quad, q) =>
    let c := 4 * q + lane
    let bd := new.getSpan p (QUAD.BOARD_DELAY.SPAN lane)
    if !new.delayOk c bd ∨ (new.modeField c = 5 ∧ bd > 900 * (suNs : Int)) then some ⟨.range, none⟩ else none
  | some (.domain, _) => if words.isEmpty then none else s.traceRefusal new
  | _ => none

/-! ### What a commit does -/

/-- The spare of a quad enters CAL with the quad's CAL channel; when that leaves CAL mode, the lane returns to its own engine at the
resting-level edge, 1 024 ns later (R78, R86, R96). -/
def State.calHook (s old : State) (q : Nat) : State :=
  let e := s.spare q
  if s.calMode q = old.calMode q ∨ 5 ≤ e then s
  else if s.calMode q then
    ((s.setEngState q e 6).putFlag (pQUAD q) QUAD.STATUS.SPARE_READY false).setQuad q
      { ((s.setEngState q e 6).putFlag (pQUAD q) QUAD.STATUS.SPARE_READY false).quad q with calUntil := none }
  else s.setQuad q { s.quad q with calUntil := some (s.clk.slot + 205) }

/-- What follows when words of a context have become effective; `old` is the state before. -/
def State.committed (s old : State) (p : Nat) (words : List (Nat × Word)) : State :=
  match pageBlock p with
  | some (.chan, c) => (s.chanCommit c old (words.any (fun e => e.1 == regKey p CHAN.MODE_CFG.off)) 0).calHook old (chanQuad c)
  | some (.tin, i) => s.tinCommit i old
  | some (.quad, q) => s.refreshBounds q
  | some (.domain, _) =>
    if words.isEmpty then s
    else
      let rec_ := (List.range 100).map (fun k => (s.rd pDOMAIN (DOMAIN.TRACE.off + 4 * k)).toNat)
      ((s.store (fun t => { t with trace := rec_ })).getD s).putFlag pDOMAIN DOMAIN.STATUS.TRACE_EXPIRED false
  | _ => s

/-- COMMIT_SEQ of a context advances (R24). -/
def State.bumpCommit (s : State) (p lane n : Nat) : State := s.incWrap p ⟨ctxOff p lane + 8, 15, 0⟩ n

/-- Shadow words of a context. -/
def State.shadowWords (s : State) (p lane : Nat) : List (Nat × Word) := s.host.shadow.filter (fun e => inCtx p lane e.1)

/-- Drop the shadows of a context with its pending commits; PENDING and SHADOW_WRITES clear (R24). -/
def State.dropShadows (s : State) (p lane : Nat) : State :=
  let here (e : Nat × Nat × Nat) : Bool := e.1 == p && e.2.1 == lane
  let s1 : State := { s with host := { s.host with
    shadow := s.host.shadow.filter (fun e => !inCtx p lane e.1)
    goNext := s.host.goNext.filter (fun e => !here e)
    goGroup := s.host.goGroup.filter (fun e => !here e) } }
  (s1.put p ⟨ctxOff p lane, 8, 8⟩ 0).put p ⟨ctxOff p lane + 8, 31, 16⟩ 0

/-- ABORT: the shadows that are not committed yet go, those of a GO in IMMEDIATE mode among them; IMMEDIATE writes stand (R24, R372). -/
def State.abortShadows (s : State) (p lane : Nat) : State :=
  let s1 := s.dropShadows p lane
  { s1 with host := { s1.host with immed := s1.host.immed.filter (fun e => !(inCtx p lane e.key && e.go)) } }

/-- Whether IMMEDIATE writes or a GO of a context are due at this SCLK edge (R24, R315, R372). -/
def State.commitDue (s : State) (p lane : Nat) : Bool :=
  s.sclkEdge && (s.host.immed.any (fun e => inCtx p lane e.key && decide (e.slot < s.clk.slot)) ||
    s.host.goNext.any (fun e => e.1 == p && e.2.1 == lane && decide (e.2.2 < s.clk.slot)))

/-- The commit of a context at an SCLK edge (R24, R372): the IMMEDIATE writes and the shadows of GOs in IMMEDIATE mode accepted before it,
and the shadows of a NEXT_SLOT GO, whose page takes no further shadow (R27). A shadow written after a GO in IMMEDIATE mode stays. -/
def State.shadowCommit (s : State) (p lane : Nat) : State :=
  let due := s.host.immed.filter (fun e => inCtx p lane e.key && decide (e.slot < s.clk.slot))
  let go := s.host.goNext.any (fun e => e.1 == p && e.2.1 == lane && decide (e.2.2 < s.clk.slot))
  let words := due.map (fun e => (e.key, e.word)) ++ (if go then s.shadowWords p lane else [])
  let s1 : State := { s.putWords words with host := { s.host with immed := s.host.immed.filter (fun e => !due.contains e) } }
  let s2 := if go then s1.dropShadows p lane
    else if due.any (·.go) then s1.put p ⟨ctxOff p lane + 8, 31, 16⟩ 0 else s1
  (s2.committed s p words).bumpCommit p lane ((due.filter (·.last)).length + b2n go)

/-- SHADOW_COMMIT (R24, R372). -/
def execShadowCommit (page lane : Nat) (s : State) : Host.Outcome State Fault Refusal :=
  guarded (.shadowCommit page lane) s (fun s => if s.commitDue page lane then s.shadowCommit page lane else s)

/-! ### Writes of SHD registers and of the commit registers -/

/-- The words of a written register with their keys. -/
def keyedWords (p base n v : Nat) : List (Nat × Word) :=
  (wordsOf n v).zipIdx.map (fun e => (regKey p (base + 4 * e.2), BitVec.ofNat 32 e.1))

/-- Words accepted in IMMEDIATE mode now, the last of them marked. -/
def State.immedWords (s : State) (words : List (Nat × Word)) (go : Bool) : List Immed :=
  words.zipIdx.map (fun e => ⟨s.clk.slot, e.1.1, e.1.2, go, e.2 + 1 == words.length⟩)

/-- A whole SHD register is written (R17, R24): in IMMEDIATE mode it takes effect by itself at the next SCLK edge, else it
stands in the shadow. -/
def State.writeShd (s : State) (c : WCtx) (d : RegDesc) : State × Verdict :=
  let lane := ctxLane c.page c.off
  let words := keyedWords c.page c.off d.words c.v
  let rest := s.host.shadow.filter (fun e => !words.any (fun w => w.1 == e.1))
  if s.ctxMode c.page lane = 0 then
    match s.commitRefusal c.agent c.page lane words with
    | some v => (s, v)
    | none => accept { s with host := { s.host with
        shadow := rest
        immed := s.host.immed ++ s.immedWords words false } }
  else
    let s1 : State := { s with host := { s.host with shadow := words ++ rest } }
    accept (s1.incSat c.page ⟨ctxOff c.page lane + 8, 31, 16⟩)

/-- The firing instant of a commit group (R25). -/
def State.cgInstant (s : State) (g : Nat) : Int := s.getInst pDEV (DEV.CG_INSTANT.INSTANT g)

/-- Whether a commit group is armed. -/
def State.cgArmed (s : State) (g : Nat) : Bool := bitOf (s.get pDEV DEV.CG_ARM.ARMED) g

/-- A GO under a MODE (R24, R27, R315, R371, R372). In IMMEDIATE mode it takes the shadows of that moment with it; under NEXT_SLOT and
GROUP the page stays PENDING and takes no further shadow (R27). -/
def State.commitGo (s : State) (agent p lane mode : Nat) : State × Verdict :=
  let words := s.shadowWords p lane
  let g := s.ctxGroup p lane
  if mode ≠ 0 ∧ s.stage < 2 then refuse s .state
  else if mode = 0 ∧ words.isEmpty then accept s
  else match s.commitRefusal agent p lane words with
    | some v => (s, v)
    | none =>
      if mode = 0 then accept { s with host := { s.host with
        shadow := s.host.shadow.filter (fun e => !inCtx p lane e.1)
        immed := s.host.immed ++ s.immedWords words true } }
      else if mode = 1 then
        accept ({ s with host := { s.host with goNext := s.host.goNext ++ [(p, lane, s.clk.slot)] } }.put p ⟨ctxOff p lane, 8, 8⟩ 1)
      else if s.cgArmed g ∧ !s.atLeastNs (s.cgInstant g) 256 then refuse s .late
      else accept ({ s with host := { s.host with goGroup := s.host.goGroup ++ [(p, lane, s.clk.slot)] } }.put p ⟨ctxOff p lane, 8, 8⟩ 1)

/-- A write of COMMIT_CTL (R24, R372): MODE first, then ABORT or GO. -/
def State.writeCommitCtl (s : State) (c : WCtx) (lane : Nat) : State × Verdict :=
  let mode := bitsOf c.v 1 0
  let put (s : State) : State := s.put c.page ⟨ctxOff c.page lane, 1, 0⟩ mode
  if mode = 3 ∨ (bitOf c.v 4 ∧ bitOf c.v 5) then refuse s .range
  else if bitOf c.v 5 then accept (put (s.abortShadows c.page lane))
  else if bitOf c.v 4 then
    let r := (put s).commitGo c.agent c.page lane mode
    if r.2.res = .ok then r else (s, r.2)
  else accept (put s)

/-! ### Commit groups (R25 to R27) -/

/-- A write of CG_ARM: every disarmed group it names must lie 256 ns ahead, or none is armed (R26, R315). -/
def State.writeCgArm (s : State) (v : Nat) : State × Verdict :=
  let fresh := (bitList 16 v).filter (fun g => !s.cgArmed g)
  if s.stage < 2 ∧ bitsOf v 15 0 ≠ 0 then refuse s .state
  else if fresh.any (fun g => !s.atLeastNs (s.cgInstant g) 256) then refuse s .late
  else accept (s.put pDEV DEV.CG_ARM.ARMED (Nat.lor (s.get pDEV DEV.CG_ARM.ARMED) v))

/-- A write of CG_DISARM: the groups are disarmed and their pages stay pending (R25, R27). -/
def State.writeCgDisarm (s : State) (v : Nat) : State × Verdict :=
  accept (s.put pDEV DEV.CG_ARM.ARMED (clearBits (s.get pDEV DEV.CG_ARM.ARMED) (bitsOf v 15 0)))

/-- Whether an armed group fires at this SCLK edge (R26); at the slot boundary of a step it waits for the next (R27). -/
def State.cgDue (s : State) (g : Nat) : Bool :=
  s.sclkEdge && s.cgArmed g && s.reached (s.cgInstant g) && s.clk.lastStep != some s.clk.slot

/-- Whether the instant of a group had passed at the SCLK edge before this one, by the timescale as it then was (R25, R27). -/
def State.cgLate (s : State) (g : Nat) : Bool := decide (s.cgInstant g * fine ≤ s.clk.prev32)

/-- Every group due at this edge fires, and every context pending on one of them commits, at once (R26, R27). -/
def State.cgFire (s : State) : State :=
  let due := (List.range 16).filter (fun g => s.cgDue g)
  let ctxs := s.host.goGroup.filter (fun e => due.contains (s.ctxGroup e.1 e.2.1))
  let words := ctxs.flatMap (fun e => s.shadowWords e.1 e.2.1)
  let mask := due.foldl setBit 0
  let s1 := ((s.put pDEV DEV.CG_ARM.ARMED (clearBits (s.get pDEV DEV.CG_ARM.ARMED) mask)).put pDEV DEV.CG_FIRED.FIRED
    (Nat.lor (s.get pDEV DEV.CG_FIRED.FIRED) mask)).put pDEV DEV.CG_LATE.LATE
    (Nat.lor (s.get pDEV DEV.CG_LATE.LATE) ((due.filter (fun g => s.cgLate g)).foldl setBit 0))
  let s2 := s1.putWords words
  let s3 := s2.forEach ctxs (fun e s => (s.dropShadows e.1 e.2.1).bumpCommit e.1 e.2.1 1)
  s3.forEach ctxs (fun e t => t.committed s e.1 (s.shadowWords e.1 e.2.1))

/-- CG_FIRE (R26, R27). -/
def execCgFire (g : Nat) (s : State) : Host.Outcome State Fault Refusal :=
  guarded (.cgFire g) s (fun s => if s.cgDue g then s.cgFire else s)

end Sys2Proof.Machine
end

