-- ==== Sys2Proof/Machine/Own.lean ====
section
/-! DEFINITION. Ownership, windows, leases and orphan actions (R35, R42 to R47, R82, R173). -/

namespace Sys2Proof.Machine

/-! ### Resources (R42) -/

/-- The resource whose owner the OWNER register of a page names. -/
def resOfPage (p : Nat) : Nat × Nat :=
  match pageBlock p with
  | some (.chan, i) => (1, i)
  | some (.tin, i) => (3, i)
  | some (.aux, i) => (7, i)
  | some (.cal, _) => (9, 0)
  | some (.seq, i) => (10, i)
  | some (.phase, i) => (12, i)
  | _ => (15, p)

/-- Whether a resource code and index name a resource (R42): code 0x0F any present page without a code of its own, but not
OWN, which nobody owns (R45). -/
def resExists (code idx : Nat) : Bool :=
  if code = 15 then (pageBlock idx).isSome && resOfPage idx == (15, idx) && idx != pOWN else decide (idx < resCount code)

/-- The loopback pair is taken apart: the input goes back to its receiver, UNRESOLVED (R82). -/
def State.loopOff (s : State) : State :=
  let i := s.get pCAL CAL.LOOP_CFG.LOOP_TIN
  if s.flag pCAL CAL.LOOP_CFG.ENABLE then
    let s1 := (s.putFlag pCAL CAL.LOOP_CFG.ENABLE false).setTin i { s.tin i with loopIn := [] }
    if s.flag (pTIN i) TIN.CONTROL.ENABLE then s1.unresolve i 1 else s1
  else s

/-- Free every place of a kind of subscriber (R173). -/
def State.dropKind (s : State) (kind : Nat) : State :=
  s.forEach (List.range 16) (fun i s => s.forEach (s.subscribers i) (fun e s => if e.1 = kind then s.freePlace i e.1 e.2 else s))

/-- What ends with the release of a resource: its place on an input (R173), and a loopback pair it takes part in (R82). -/
def State.freed (s : State) (code idx : Nat) : State :=
  let s1 :=
    if code = 4 ∧ s.get pTRIG (TRIG.TL_SRC.KIND idx) = 1 then s.freePlace (s.get pTRIG (TRIG.TL_SRC.INDEX idx)) 1 idx
    else if code = 6 ∧ s.get pHOSTQ (HOSTQ.RING_CFG.KIND idx) = 4 then s.freePlace (s.get pHOSTQ (HOSTQ.RING_CFG.BIND idx)) 2 idx
    else if code = 12 then s.freePlace (s.get (pPHASE idx) PHASE.SRC_CFG.SRC_TIN) 3 idx
    else if code = 15 ∧ idx = pTDC then s.dropKind 4
    else if code = 15 ∧ idx = pREFSEL then s.dropKind 5
    else s
  if code = 9 ∨ (code = 1 ∧ s.get pCAL CAL.LOOP_CFG.LOOP_CHAN = idx) ∨ (code = 3 ∧ s.get pCAL CAL.LOOP_CFG.LOOP_TIN = idx) then s1.loopOff
  else s1

/-- Release one resource: it is free (R43). -/
def State.releaseRes (s : State) (code idx : Nat) : State := (s.freed code idx).setOwner code idx 0

/-- A write of OWNER_ID (R43, R45): `p` the page, `a` the agent written. -/
def State.writeOwner (s : State) (c : WCtx) : State × Verdict :=
  let a := bitsOf c.v 31 16
  let r := resOfPage c.page
  let cur := s.pageOwner c.page
  if c.page = pOWN ∨ a = 0xFFFF then refuse s .range
  else if (a = 0xFFFD ∨ a = 0xFFFE) ∧ a ≠ c.agent ∧ !c.admin then refuse s .range
  else if c.path = .i2c ∧ !s.mainOn then accept (s.setOwner r.1 r.2 a)
  else if cur = 0 then
    if a = 0 then accept s
    else if a = c.agent ∨ c.admin then accept (s.setOwner r.1 r.2 a)
    else (s, ⟨.denied, some 0⟩)
  else if cur = c.agent then
    if a = 0 then accept (s.releaseRes r.1 r.2) else accept (s.setOwner r.1 r.2 a)
  else if a = c.agent then (s, ⟨.conflict, some cur⟩)
  else (s, ⟨.denied, some cur⟩)

/-! ### Course-table ranges -/

/-- Ranges with the courses `first` to `first + count - 1` of an agent taken out. -/
def cutRanges (agent first count : Nat) (l : List (Nat × Nat × Nat)) : List (Nat × Nat × Nat) :=
  l.flatMap (fun r =>
    if r.2.2 ≠ agent then [r]
    else [(r.1, min (r.1 + r.2.1) first - r.1, agent),
        (max r.1 (first + count), r.1 + r.2.1 - max r.1 (first + count), agent)].filter (fun x => x.2.1 != 0))

/-- The owner of a course, 0 if free. -/
def State.courseOwner (s : State) (k : Nat) : Nat :=
  match s.host.ranges.find? (fun r => decide (r.1 ≤ k) && decide (k < r.1 + r.2.1)) with | some r => r.2.2 | none => 0

/-- The first owner other than `agent` among courses. -/
def State.foreignCourse (s : State) (agent first count : Nat) : Option Nat :=
  ((List.range count).map (fun k => s.courseOwner (first + k))).find? (fun o => o != agent)

def State.setRanges (s : State) (l : List (Nat × Nat × Nat)) : State := { s with host := { s.host with ranges := l } }

/-! ### CLAIM_CMD (R43 to R45) -/

/-- FIRST and COUNT of the path's CLAIM_ARG. -/
def State.claimArg (s : State) (path : Path) : Nat × Nat :=
  let w := (s.winWord path pOWN OWN.CLAIM_ARG.off).toNat
  (bitsOf w 15 0, bitsOf w 31 16)

/-- Whether CLAIM_CMD names a resource: COUNT courses, or one resource with COUNT 0. -/
def claimNames (code first count : Nat) : Bool :=
  if code = 8 then decide (1 ≤ count) && decide (first + count ≤ 4096) else count == 0 && resExists code first

/-- CLAIM (R43). DESIGN CHOICE (log 22): a page of code 0x0F is claimed by CLAIM too, as any free resource of R43, though R42's table names
only its OWNER. -/
def State.cmdClaim (s : State) (agent code : Nat) (arg : Nat × Nat) : State × Verdict :=
  if !claimNames code arg.1 arg.2 then refuse s .range
  else if code = 8 then
    match s.host.ranges.find? (fun r => r.2.2 != agent && decide (r.1 < arg.1 + arg.2) && decide (arg.1 < r.1 + r.2.1)) with
    | some r => (s, ⟨.conflict, some r.2.2⟩)
    | none => accept (s.setRanges ((arg.1, arg.2, agent) :: cutRanges agent arg.1 arg.2 s.host.ranges))
  else
    let cur := s.resOwner code arg.1
    if cur = 0 then accept (s.setOwner code arg.1 agent)
    else if cur = agent then accept s
    else (s, ⟨.conflict, some cur⟩)

/-- RELEASE (R43). -/
def State.cmdRelease (s : State) (agent code : Nat) (arg : Nat × Nat) : State × Verdict :=
  if !claimNames code arg.1 arg.2 then refuse s .range
  else if code = 8 then
    match s.foreignCourse agent arg.1 arg.2 with
    | some o => (s, ⟨.denied, some o⟩)
    | none => accept (s.setRanges (cutRanges agent arg.1 arg.2 s.host.ranges))
  else
    let cur := s.resOwner code arg.1
    if cur = agent then accept (s.releaseRes code arg.1) else (s, ⟨.denied, some cur⟩)

/-- QUERY: the owner comes in DETAIL (R45). -/
def State.cmdQuery (s : State) (code : Nat) (arg : Nat × Nat) : State × Verdict :=
  if code = 8 then
    if arg.1 < 4096 then (s, ⟨.ok, some (s.courseOwner arg.1)⟩) else refuse s .range
  else if !resExists code arg.1 then refuse s .range
  else (s, ⟨.ok, some (s.resOwner code arg.1)⟩)

/-! ### Windows (R35) -/

/-- Whether an agent may stand in a binding (R35). -/
def bindable (a : Nat) : Bool := decide (a < 0xFFFD)

/-- The window other than `w` that an agent is bound to. -/
def State.boundElsewhere (s : State) (a w : Nat) : Bool :=
  a != 0 && (List.range 16).any (fun x => x != w && s.get pOWN (OWN.WINDOW.AGENT x) == a)

/-- A write of WINDOW_w (R35). -/
def State.writeWindow (s : State) (c : WCtx) (d : RegDesc) (w : Nat) : State × Verdict :=
  let a := bitsOf c.v 31 16
  if !bindable a then refuse s .range
  else if s.boundElsewhere a w then (s, ⟨.conflict, some a⟩)
  else s.plain c d

/-! ### Leases (R46, R47) -/

/-- Renew the lease of a window: it arms if PERIOD_US is nonzero, and its agent leaves the orphan state (R46, R47). -/
def State.kickLease (s : State) (w : Nat) : State :=
  let a := s.get pOWN (OWN.WINDOW.AGENT w)
  let s1 : State := { s with host := { s.host with
    leases := s.host.leases.set w { renewed := s.clk.slot }
    orphaned := s.host.orphaned.filter (fun x => x != a) } }
  if s.get pOWN (OWN.LEASE_PERIOD.PERIOD_US w) = 0 then s1 else s1.putFlag pOWN (OWN.LEASE_CTL.ARMED w) true

/-- A write of LEASE_CTL_w. -/
def State.writeLease (s : State) (c : WCtx) (d : RegDesc) (w : Nat) : State × Verdict :=
  s.after c d (fun s => s.onlyIf (bitOf c.v 8) (fun s => s.kickLease w))

/-- A write of LEASE_PERIOD_w (R46): 0 disarms. -/
def State.writePeriod (s : State) (c : WCtx) (d : RegDesc) (w : Nat) : State × Verdict :=
  if c.v = 0 then s.after c d (fun s => s.putFlag pOWN (OWN.LEASE_CTL.ARMED w) false)
  else s.ranged c d (decide (1000 ≤ c.v) && decide (c.v ≤ 60000000))

/-- LEASE_KICK in a ring: renews the armed lease of the window bound to the ring's owner (R46). -/
def State.leaseRenew (s : State) (agent : Nat) : State :=
  s.forEach ((List.range 16).filter (fun w => agent != 0 && s.get pOWN (OWN.WINDOW.AGENT w) == agent &&
    s.flag pOWN (OWN.LEASE_CTL.ARMED w))) (fun w s => s.kickLease w)

/-- The rings of an agent. -/
def State.ringsOf (s : State) (a : Nat) : List Nat := (List.range 32).filter (fun r => s.resOwner 6 r == a)

/-- A ring stops (R53). -/
def State.ringStop (s : State) (r : Nat) : State := s.putFlag pHOSTQ (HOSTQ.RING_CTRL.STOPPED r) true

/-- Stop the running rings among some (R53). -/
def State.ringsStop (s : State) (rs : List Nat) : State :=
  s.forEach (rs.filter (fun r => s.flag pHOSTQ (HOSTQ.RING_CTRL.ENABLE r))) (fun r s => s.ringStop r)

/-- The orphan action SAFE of an agent (R47). -/
def State.orphanSafe (s : State) (a : Nat) : State :=
  let chans := (List.range 48).filter (fun c => s.resOwner 1 c == a)
  let auxs := (List.range 8).filter (fun n => s.resOwner 7 n == a)
  let seqs := (List.range 4).filter (fun q => s.resOwner 10 q == a)
  let s1 : State := { s with
    host := { s.host with orphaned := a :: s.host.orphaned.filter (fun x => x != a) }
    sched := { s.sched with held := a :: s.sched.held.filter (fun x => x != a) } }
  let s2 := s1.forEach chans (fun c s => s.chanSafe c (.orphan a))
  let s3 := s2.forEach auxs (fun n s => s.auxSafe n (.orphan a))
  (s3.forEach seqs (fun q s => s.seqOrphan q)).ringsStop (s.ringsOf a)

/-- Whether the lease of a window has run out (R46), at an SCLK edge (R315). -/
def State.leaseDue (s : State) (w : Nat) : Bool :=
  s.sclkEdge && s.flag pOWN (OWN.LEASE_CTL.ARMED w) &&
    decide ((s.host.leases.getD w {}).renewed + s.get pOWN (OWN.LEASE_PERIOD.PERIOD_US w) * 200 ≤ s.clk.slot)

/-- A lease expires: EXPIRED is set, ARMED clears, the Gutter source is raised and the orphan action taken (R46, R47). -/
def State.leaseExpire (s : State) (w : Nat) : State :=
  let a := s.get pOWN (OWN.WINDOW.AGENT w)
  let s1 := ((s.putFlag pOWN (OWN.LEASE_CTL.EXPIRED w) true).putFlag pOWN (OWN.LEASE_CTL.ARMED w) false).err pOWN 0
  s1.onlyIf (s.flag pOWN (OWN.LEASE_CTL.ORPHAN w) && a != 0) (fun s => s.orphanSafe a)

/-- LEASE_EXPIRY (R46, R47). -/
def execLeaseExpiry (w : Nat) (s : State) : Host.Outcome State Fault Refusal :=
  guarded (.leaseExpiry w) s (fun s => if s.leaseDue w then s.leaseExpire w else s)

end Sys2Proof.Machine
end

