-- ==== Sys2Proof/Machine/Rings.lean ====
section
/-! DEFINITION. The rings of HOSTQ: configuration, enabling, doorbells, moderation, errors, and what PERST_N and D3hot stop
(R28, R31, R49 to R55, R193). -/

namespace Sys2Proof.Machine

def State.ringKind (s : State) (r : Nat) : Nat := s.get pHOSTQ (HOSTQ.RING_CFG.KIND r)
def State.ringBind (s : State) (r : Nat) : Nat := s.get pHOSTQ (HOSTQ.RING_CFG.BIND r)
def State.ringOn (s : State) (r : Nat) : Bool := s.flag pHOSTQ (HOSTQ.RING_CTRL.ENABLE r)

/-- Whether BIND lies in the range of a KIND (R50). -/
def bindOk (kind b : Nat) : Bool :=
  match kind with
  | 0 => true
  | 1 => decide (b < 16)
  | 2 => decide (b < 32)
  | 3 => b == 0
  | 4 => decide (b < 4)
  | 5 => decide (1 ≤ b) && decide (b ≤ 6)
  | _ => false

/-- Whether a value of RING_CFG is in range (R49, R50): KIND, BIND, the ELEM its KIND requires, and LOG2_ENTRIES. -/
def ringCfgOk (v : Nat) : Bool :=
  let kind := bitsOf v 31 28
  let elem := bitsOf v 19 18
  bindOk kind (bitsOf v 27 20) && elem != 3 && (kind == 0 || elem == (if kind = 4 then 0 else 1)) &&
    decide (6 ≤ bitsOf v 4 0) && decide (bitsOf v 4 0 ≤ 20)

/-- Another enabled ring that binds the same queue, input or class (R50). -/
def State.bindRival (s : State) (r kind b : Nat) : Option Nat :=
  if kind = 1 ∨ kind = 4 ∨ kind = 5 then
    (List.range 32).find? (fun x => x != r && s.ringOn x && s.ringKind x == kind && s.ringBind x == b)
  else none

/-- A write of RING_CFG (R50, R193): a stream ring takes its place on the input here, and frees it when KIND changes. -/
def State.writeRingCfg (s : State) (c : WCtx) (d : RegDesc) (r : Nat) : State × Verdict :=
  let kind := bitsOf c.v 31 28
  let b := bitsOf c.v 27 20
  let held := s.ringKind r == 4 && kind == 4 && s.ringBind r == b && (s.subscribers b).contains (2, r)
  if !ringCfgOk c.v then refuse s .range
  else match s.bindRival r kind b with
    | some x => (s, ⟨.conflict, some (s.resOwner 6 x)⟩)
    | none =>
      if held then s.plain c d
      else
      let s1 := if s.ringKind r = 4 then s.freePlace (s.ringBind r) 2 r else s
      if kind = 4 then
        match s1.takePlace b 2 r with
        | some s2 => s2.plain c d
        | none => (s, ⟨.conflict, some (s.pageOwner (pTIN b))⟩)
      else s1.plain c d

/-- ENABLE of a ring rises (R49, R53): the indices start at 0, records held are discarded and counted in RING_LOST, and a
stream begins (R195). -/
def State.ringStart (s : State) (r : Nat) : State :=
  let stream := s.ringKind r == 4
  let batch := if stream then (s.stream (s.ringBind r)).batch else []
  let lost := (s.ring r).held.length + streamRecords batch
  let s1 := ((((s.setRing r { s.ring r with held := [], pend := 0 }).put pHOSTQ (HOSTQ.DOORBELL.HOST_IDX r) 0).put pHOSTQ
    (HOSTQ.DEV_IDX.DEV_IDX r) 0).put pHOSTQ (HOSTQ.RING_LOST.LOST r) lost).putFlag pHOSTQ (HOSTQ.RING_CTRL.STOPPED r) (s.host.perst || s.host.d3hot)
  if stream then (s1.streamLose (s.ringBind r) (batch.filter (·.stamp)).length).streamStart (s.ringBind r) else s1

/-- Send the message of a vector that a ring's moderation no longer holds (R55). -/
def State.ringRelease (s : State) (r : Nat) : State :=
  let v := s.get pHOSTQ (HOSTQ.RING_CFG.VECTOR r)
  if s.msixOwed.contains v && (s.ring r).pend != 0 && s.modMet r then s.sendMsix v else s

/-- A write of RING_CTRL (R28, R49, R50, R53). -/
def State.writeRingCtrl (s : State) (c : WCtx) (d : RegDesc) (r : Nat) : State × Verdict :=
  let on := bitOf c.v 31
  if on ∧ !s.ringOn r then
    if s.flag pDEV DEV.STATUS.HOST_SEL then refuse s .state
    else match s.bindRival r (s.ringKind r) (s.ringBind r) with
      | some x => (s, ⟨.conflict, some (s.resOwner 6 x)⟩)
      | none => s.after c d (fun s => s.ringStart r)
  else if !on ∧ s.ringOn r then s.after c d (fun s => s.ringStop r)
  else s.after c d (fun s => s.ringRelease r)

/-- Whether a doorbell keeps the indices in order (R51). -/
def State.bellOk (s : State) (r v : Nat) : Bool :=
  let dev := s.get pHOSTQ (HOSTQ.DEV_IDX.DEV_IDX r)
  let n := 2 ^ s.get pHOSTQ (HOSTQ.RING_CFG.LOG2_ENTRIES r)
  match s.ringKind r with
  | 0 => true
  | 1 => decide ((v + 2 ^ 32 - dev) % 2 ^ 32 ≤ n)
  | 2 => decide ((v + 2 ^ 32 - dev) % 2 ^ 32 ≤ n)
  | _ => decide ((dev + 2 ^ 32 - v) % 2 ^ 32 ≤ n)

/-- A write of DOORBELL (R51, R54, R55): on a device-to-host ring the pending set empties, held records follow into the
space, and the vector's message is sent again if causes remain. DESIGN CHOICE (log 94): HOST_IDX takes the value also while the ring is STOPPED,
where R53 halts both indices and names no result for such a write; nothing is consumed or written by it. -/
def State.writeBell (s : State) (c : WCtx) (d : RegDesc) (r : Nat) : State × Verdict :=
  if !s.bellOk r c.v then refuse s .range
  else if s.ringKind r = 1 ∨ s.ringKind r = 2 ∨ s.ringKind r = 0 then s.plain c d
  else s.after c d (fun s =>
    ((s.setRing r { s.ring r with pend := 0 }).ringDrain 64 r).resend (s.get pHOSTQ (HOSTQ.RING_CFG.VECTOR r)))

/-- A failed access to a ring of an Ethernet port stops it (R53, R270). -/
def State.ethDmaFails (s : State) (p : Nat) (rx : Bool) : State :=
  let runs := if rx then s.rxRuns p else s.flag (pETH p) ETH.TXR_CTRL.ENABLE && !s.flag (pETH p) ETH.TXR_CTRL.STOPPED
  if runs then (s.ethStop p rx).err (pETH p) 1 else s

/-- RING_DMA_ERROR (R53): rings 0 to 31 are those of HOSTQ, then come TX and RX of each Ethernet port. -/
def execRingDmaError (r : Nat) (s : State) : Host.Outcome State Fault Refusal :=
  guarded (.ringDmaError r) s (fun s =>
    if 32 ≤ r then s.ethDmaFails ((r - 32) / 2) (r % 2 == 1)
    else if s.ringOn r ∧ !s.ringStopped r then (s.ringStop r).err pHOSTQ 2 else s)

/-- Whether MOD_TIME has run out since the first record pending on a ring (R55). -/
def State.modExpired (s : State) (r : Nat) : Bool :=
  s.msixOwed.contains (s.get pHOSTQ (HOSTQ.RING_CFG.VECTOR r)) && (s.ring r).pend != 0 &&
    decide ((s.ring r).pendSince + slotsOfNs (64 * s.get pHOSTQ (HOSTQ.RING_CTRL.MOD_TIME r)) ≤ s.clk.slot)

/-- MOD_TIME_EXPIRY (R55). -/
def execModTimeExpiry (r : Nat) (s : State) : Host.Outcome State Fault Refusal :=
  guarded (.modTimeExpiry r) s (fun s => if s.modExpired r then s.sendMsix (s.get pHOSTQ (HOSTQ.RING_CFG.VECTOR r)) else s)

/-- The endpoint goes down: every ring of HOSTQ and of the Ethernet ports stops, and a flash transfer and the refills end (R31, R53,
R123, R273, R330). -/
def State.endpointDown (s : State) : State :=
  (((s.ringsStop (List.range 32)).forEach [0, 1] (fun p s => (s.ethStop p false).ethStop p true)).flashDmaFails).forEach (List.range 4)
    (fun q s => s.refillError q)

/-- PERST_N_ASSERT (R31). -/
def execPerstNAssert (s : State) : Host.Outcome State Fault Refusal :=
  guarded .perstNAssert s (fun s =>
    { s.endpointDown with host := { s.endpointDown.host with
      perst := true, linkUp := false, d3hot := false, perstReleased := s.clk.slot, vecMasked := [], vecPending := [] } })

/-- The mask bit of an MSI-X vector: a message that waited goes when the mask is taken off (R29; DESIGN CHOICE, log 104). -/
def State.maskVector (s : State) (v : Nat) (masked : Bool) : State :=
  let h := s.host
  if masked then { s with host := { h with vecMasked := v :: h.vecMasked.filter (· ≠ v) } }
  else
    { s with
      out := if h.vecPending.contains v ∧ s.pcieUp then .msix v :: s.out else s.out
      host := { h with
        vecMasked := h.vecMasked.filter (· ≠ v), vecPending := if s.pcieUp then h.vecPending.filter (· ≠ v) else h.vecPending } }

/-- The endpoint goes to D3hot, or back to D0 (R29, R31). -/
def State.endpointPower (s : State) (d3hot : Bool) : State :=
  if d3hot then { s.endpointDown with host := { s.endpointDown.host with d3hot := true } } else { s with host := { s.host with d3hot := false } }

/-- D3HOT_ENTRY (R31): without a link nothing asks for it. -/
def execD3hotEntry (s : State) : Host.Outcome State Fault Refusal :=
  guarded .d3hotEntry s (fun s => if s.host.linkUp ∧ !s.host.perst then s.endpointPower true else s)

/-- What a configuration request asks for, from Stage 1 on (R29). -/
def State.configure (s : State) (r : ConfigReq) : State :=
  match r.kind with
  | .other => s
  | .identity => s.emit (.identity r.tag Config.vendorId 0x0748 0xB1)
  | .power d3hot => s.endpointPower d3hot
  | .vector v masked => s.maskVector v masked

/-- CONFIGURATION_REQUEST (R29, R316): retry status below Stage 1. Without a link nothing reaches the endpoint. -/
def execConfigurationRequest (tag : ConfigReq) (s : State) : Host.Outcome State Fault Refusal :=
  guarded (.configurationRequest tag) s (fun s =>
    if s.host.linkUp ∧ !s.host.perst then
      (s.onlyIf (decide (1 ≤ s.stage)) (fun s => s.configure tag)).emit (.config tag.tag (decide (s.stage < 1)))
    else s)

end Sys2Proof.Machine
end

