-- ==== Sys2Proof/Machine/Ranges.lean ====
section
/-! DEFINITION. The ranges that the register tables state for single fields, checked at the write of the highest word (R17,
R39). Ranges that join fields, or that depend on the state, stand with the writes themselves. -/

namespace Sys2Proof.Machine

/-- Whether `x` lies from `lo` to `hi`. -/
def inRange (lo hi x : Nat) : Bool := decide (lo ≤ x) && decide (x ≤ hi)

/-- Whether a Span value lies between two bounds in SU. -/
def spanIn (lo hi : Int) (v : Nat) : Bool := decide (lo ≤ spanOf v) && decide (spanOf v ≤ hi)

/-- QUAD (R64, R79). -/
def quadRange (base v : Nat) : Bool :=
  if base == QUAD.CAL_CTL.off then inRange 2 20 (bitsOf v 23 16) && inRange 10 255 (bitsOf v 15 8)
  else if base == QUAD.VCT_SEL.off then decide (bitsOf v 2 0 ≤ 4)
  else if base == QUAD.BOARD_DELAY.off 0 then spanIn (-(1000 * (suNs : Int))) (1000000 * (suNs : Int)) v
  else true

/-- CHAN (R85 to R99): MODE 9 to 15, RETRIG 3, SAFE_LEVEL 3, MIRROR_SRC, FORMAT by channel, WIDTH and OFFSET. -/
def chanRange (inst base v : Nat) : Bool :=
  if base == CHAN.MODE_CFG.off then decide (bitsOf v 3 0 ≤ 8) && decide (bitsOf v 5 4 ≤ 2) && decide (bitsOf v 21 16 ≤ 47)
  else if base == CHAN.LEVEL_CFG.off then decide (bitsOf v 3 2 ≤ 2)
  else if base == CHAN.OUT_CFG.off then decide (bitsOf v 2 0 ≤ (if 40 ≤ inst then 3 else 2))
  else if base == CHAN.WIDTH.off then spanOf v == 0 || spanIn minSpacing (1000 * (suSec : Int)) v
  else if base == CHAN.OFFSET.off then spanIn 0 (10000 * (suNs : Int)) v
  else true

/-- SYNC (R130). -/
def syncRange (base v : Nat) : Bool :=
  if base == SYNC.SYNC_IN_CFG.off then bitsOf v 1 0 != 0
  else if base == SYNC.IN_SKEW.off then spanIn (-(1000 * (suNs : Int))) (1000000 * (suNs : Int)) v
  else if base == SYNC.SYNC_OUT_CFG.off then decide (bitsOf v 1 0 ≤ 1)
  else if base == SYNC.SYNC_OUT_WIDTH.off then inRange 2 1000000 v
  else if base == SYNC.PPS_CFG.off then inRange 1 999999 (bitsOf v 23 0)
  else true

/-- PHASE (R154). -/
def phaseRange (base v : Nat) : Bool :=
  if base == PHASE.SRC_CFG.off then inRange 1 2 (bitsOf v 17 16)
  else if base == PHASE.FIT_CFG.off then inRange 4 1024 (bitsOf v 26 16) && inRange 1 2 (bitsOf v 9 8) && inRange 8 255 (bitsOf v 7 0)
  else if base == PHASE.PULSES.off then bitsOf v 15 0 != 0
  else if base == PHASE.SLIP_CFG.off then inRange 8 255 (bitsOf v 31 24) && bitsOf v 23 16 != 0 && bitsOf v 15 8 != 0
  else if base == PHASE.EVENT_CFG.off then bitsOf v 31 16 != 0
  else if base == PHASE.CONV_LEAD.off then inRange 2000 10000000 v
  else true

/-- TIN (R159, R162, R168, R176). -/
def tinRange (base v : Nat) : Bool :=
  if base == TIN.CAL_CFG.off then decide (bitsOf v 15 8 ≤ 200)
  else if base == TIN.CDT_SEL.off then bitsOf v 9 0 % 64 == 0
  else if base == TIN.IN_CFG.off then bitsOf v 31 16 != 0 && bitsOf v 9 8 != 0 && decide (bitsOf v 5 4 ≤ 2)
  else true

/-- TDC (R178, R188, R200). -/
def tdcRange (base v : Nat) : Bool :=
  if base == TDC.RESULT_SEL.off then decide (v ≤ 23)
  else if base == TDC.MS_CFG.off 0 then
    decide (bitsOf v 29 28 ≤ 2) && inRange 1 2 (bitsOf v 27 26) && bitsOf v 25 24 != 0 && inRange 1 16 (bitsOf v 20 16)
  else if base == TDC.MS_PRE.off 0 then decide (v ≤ 1000000000)
  else if base == TDC.MS_TIMEOUT.off 0 then inRange 10 (2 ^ 40) v
  else if base == TDC.FG_CFG.off 0 then decide (bitsOf v 29 28 ≤ 2) && inRange 1 2 (bitsOf v 27 26)
  else if base == TDC.FG_NOMINAL.off 0 then v == 0 || inRange 1000 800000000 v
  else if base == TDC.FG_GATE.off 0 then inRange 1000 (10 ^ 12) v
  else true

/-- REFSEL (R208, R231). -/
def refselRange (base v : Nat) : Bool :=
  if base == REFSEL.SEL_CFG.off then decide (bitsOf v 1 0 ≤ 2)
  else if base == REFSEL.REF_CFG.off 0 then refIndexOk (bitsOf v 19 16) (bitsOf v 7 0)
  else if base == REFSEL.REF_QUAL.off 0 then inRange 1 600 (bitsOf v 25 16) && bitsOf v 15 0 != 0
  else if base == REFSEL.REF_JUMP.off 0 then inRange 1 1000000000 v
  else if base == REFSEL.REF_NOMINAL.off 0 then inRange 1000 800000000 v
  else true

/-- SERVO (R232). -/
def servoRange (base v : Nat) : Bool :=
  if base == SERVO.SERVO_CFG.off then inRange 16 255 (bitsOf v 15 8) && decide (bitsOf v 1 0 ≤ 2)
  else if base == SERVO.BW.off then inRange 1 10000 v
  else if base == SERVO.SLEW_MAX.off then inRange 1 100000 v
  else if base == SERVO.ACQ_SLEW_LIMIT.off then decide (v ≤ 1000000000)
  else if base == SERVO.LOCK_THRESH.off then inRange 1 1000000000 v
  else if base == SERVO.HOLD_AVG.off then inRange 10 86400 v
  else true

/-- APLL_A (R235). -/
def apllaRange (base v : Nat) : Bool :=
  if base == APLL_A.REF_CFG.off then bitsOf v 23 16 != 0 && decide (bitsOf v 13 8 ≤ 47)
  else if base == APLL_A.LOCK_CFG.off then inRange 10 20 (bitsOf v 20 16) && bitsOf v 11 8 != 0 && bitsOf v 3 0 != 0
  else if base == APLL_A.RAMP_US.off then inRange 1 1000000 v
  else if base == APLL_A.SSC_RATE.off then inRange 30000 33000 v
  else if base == APLL_A.SSC_CFG.off then
    decide (bitsOf v 17 16 ≤ 1) && decide (bitsOf v 6 0 ≤ (if bitsOf v 17 16 = 1 then 50 else 100))
  else if base == APLL_A.PROFILE_CTL.off then inRange 1 32 (bitsOf v 5 0)
  else if base == APLL_A.PROFILE_US.off 0 then inRange 1 1000000 v
  else true

/-- AUX (R236). -/
def auxRange (base v : Nat) : Bool :=
  if base == AUX.DIV.off then v != 0
  else if base == AUX.OUT_CFG.off then decide (bitsOf v 2 0 ≤ 2)
  else if base == AUX.BYPASS_CFG.off then bitsOf v 7 0 != 0
  else if base == AUX.MARK_CFG.off then decide (bitsOf v 17 16 ≤ 2)
  else if base == AUX.MARK_PERIODS.off then v != 0
  else true

/-- TSC (R244): LEAP_PENDING 3, U_Y_FLOOR and REPORT_MS. -/
def tscRange (base v : Nat) : Bool :=
  if base == TSC.LEAP_CFG.off then decide (bitsOf v 1 0 ≤ 2)
  else if base == TSC.U_Y_FLOOR.off then inRange 1 1000000 v
  else if base == TSC.REPORT_CFG.off then
    inRange 1 60000 (bitsOf v 15 0) && (1000 % bitsOf v 15 0 == 0 || bitsOf v 15 0 % 1000 == 0)
  else true

/-- DOMAIN (R251). -/
def domainRange (base v : Nat) : Bool :=
  if base == DOMAIN.DOM_CFG.off then bitsOf v 23 16 != 0
  else if base == DOMAIN.PATH_STEP_THRESHOLD.off then inRange 100 1000000000 v
  else true

/-- RDG (R267). -/
def rdgRange (base v : Nat) : Bool :=
  if base == RDG.ASYM.off then spanIn (-(10000 * (suNs : Int))) (10000 * (suNs : Int)) v
  else if base == RDG.TRIG_LEAD.off then inRange 2048 1000000 v
  else if base == RDG.TRIG_ISSUE_ARG.off then decide (bitsOf v 9 8 ≤ 2)
  else if base == RDG.MGMT_ADDR.off then bitsOf v 11 0 % 4 == 0
  else true

/-- ETH (R268, R272, R273). -/
def ethRange (base v : Nat) : Bool :=
  if base == ETH.ETH_CFG.off then decide (bitsOf v 1 0 ≤ 2)
  else if base == ETH.OPTICS_TX.off ∨ base == ETH.OPTICS_RX.off then spanIn (-(100 * (suNs : Int))) (100 * (suNs : Int)) v
  else if base == ETH.TXR_BASE.off ∨ base == ETH.RXR_BASE.off then v % 64 == 0
  else if base == ETH.TXR_CFG.off then inRange 6 16 (bitsOf v 4 0)
  else if base == ETH.RXR_CFG.off then inRange 6 16 (bitsOf v 4 0) && inRange 256 9216 (bitsOf v 31 16)
  else true

/-- EAVE (R283, R294). -/
def eaveRange (base v : Nat) : Bool :=
  if base == EAVE.CAL_CFG.off then bitsOf v 8 0 != 256
  else if base == EAVE.DRIFT_PPB.off then inRange 1 1000000 v
  else if base == EAVE.LEAP_CFG.off then decide (bitsOf v 1 0 ≤ 2)
  else if base == EAVE.MON_TICK.off then decide (bitsOf v 3 0 ≤ 10)
  else if base == EAVE.MON_CFG.off 0 then decide (bitsOf v 9 0 ≤ bitsOf v 19 10) && decide (bitsOf v 26 24 ≤ 5)
  else if base == EAVE.PWR_CFG.off then bitsOf v 25 24 != 0 && decide (bitsOf v 15 0 ≤ 10000)
  else if base == EAVE.I2C_CFG.off then bindable (bitsOf v 31 16)
  else true

/-- Whether a value is in range by itself. -/
def rangeOk (k : Kind) (inst base v : Nat) : Bool :=
  match k with
  | .dev => if base == DEV.SNAP_TIMEOUT.off then inRange 1 10000 (bitsOf v 23 0) else true
  | .quad => quadRange base v
  | .cal => if base == CAL.LOOP_CFG.off then decide (bitsOf v 21 16 ≤ 47) else true
  | .chan => chanRange inst base v
  | .trig =>
    if base == TRIG.TL_SRC.off 0 then kindIndexOk (bitsOf v 3 0) (bitsOf v 15 8) && bitsOf v 17 16 != 0
    else if base == TRIG.TL_SHAPE.off 0 then bitsOf v 31 16 != 0
    else true
  | .sync => syncRange base v
  | .seq => if base == SEQ.START_CFG.off then decide (bitsOf v 1 0 ≤ 2) else true
  | .course => if base == COURSE.READY_ARG.off then inRange 1 4096 (bitsOf v 28 16) else true
  | .sched =>
    if base == SCHED.Q_CFG.off 0 then decide (bitsOf v 15 14 ≤ 2) && decide (bitsOf v 19 16 ≤ (if bitsOf v 15 14 = 1 then 3 else if bitsOf v 15 14 = 2 then 7 else 15))
    else if base == SCHED.TICK_PERIOD.off 0 then spanIn (1000 * (suNs : Int)) (1000000 * (suSec : Int)) v
    else true
  | .phase => phaseRange base v
  | .tin => tinRange base v
  | .tdc => tdcRange base v
  | .refsel => refselRange base v
  | .servo => servoRange base v
  | .aplla => apllaRange base v
  | .aux => auxRange base v
  | .tsc => tscRange base v
  | .domain => domainRange base v
  | .rdg => rdgRange base v
  | .eth => ethRange base v
  | .eave => eaveRange base v
  | .gutter =>
    if base == GUTTER.GUT_CFG.off then bitsOf v 7 0 != 0 else true
  | .flash => if base == FLASH.FL_CONFIG.off then decide (60 ≤ bitsOf v 31 16) else true
  | .hostq =>
    if base == HOSTQ.RING_BASE.off 0 then v % 64 == 0
    else if base == HOSTQ.RING_WB.off 0 then v % 8 == 0
    else true
  | _ => true

end Sys2Proof.Machine
end

