-- ==== Sys2Proof/Machine/Pages.lean ====
section
/-! DEFINITION. What a write of the header of a page does: interrupts, errors, CONTROL and the commit registers (R24, R37,
R55, R98, R156, R228, R235, R245, R253, R273, R301). -/

namespace Sys2Proof.Machine

/-- Keep the state of an accepted step; refused, the state is as it was (R41). -/
def State.keep (s : State) (r : State × Verdict) : State × Verdict := if r.2.res = .ok then r else (s, r.2)

/-- Two parts of one write: refused as a whole if either is. -/
def State.both (s : State) (r : State × Verdict) (f : State → State × Verdict) : State × Verdict :=
  if r.2.res = .ok then s.keep (f r.1) else (s, r.2)

/-- A part of a write that a bit asks for. -/
def State.asked (s : State) (b : Bool) (f : State → State × Verdict) : State × Verdict := if b then f s else accept s

/-! ### Interrupts and errors (R37, R55, R308) -/

/-- The vector of a page. -/
def State.pageVector (s : State) (p : Nat) : Nat := bitsOf (s.rd p 0x020).toNat 5 0

/-- Send the message of a vector whose union has become non-empty. -/
def State.sendNew (s old : State) (v : Nat) : State := if !old.vectorPending v && s.vectorPending v then s.sendMsix v else s

/-- A write of ERR_STATUS (R37): what the cleared bits held back goes on. -/
def State.errCleared (s old : State) (p : Nat) (v : Nat) : State :=
  let s1 := (if s.distributed then s.resend (s.pageVector p) else s).showPair old
  match pageBlock p with
  | some (.tin, i) =>
    let t := s1.tin i
    (s1.setTin i { t with staleErr := t.staleErr && !bitOf v 3, faultErr := t.faultErr && !bitOf v 0 }).refreshInput i
  | some (.quad, q) => s1.onlyIf (bitOf v 3) (fun s => s.setQuad q { s.quad q with tdcFailed := false })
  | some (.eave, _) => if bitOf v 3 then { s1 with eave := { s1.eave with stopped := false } } else s1
  | _ => s1

/-- The bits that a page's ERR_STATUS defines. -/
def errMask (k : Kind) : Nat :=
  match findReg (kindRegs k) 0x024 with
  | some r => r.1.fields.foldl (fun n f => putBits n f.hi f.lo (2 ^ (f.hi + 1 - f.lo) - 1)) 0
  | none => 0

/-! ### CONTROL (R37) -/

/-- ENABLE of a channel changes (R86, R315): an entry is judged as a commit of MODE is. -/
def State.chanEnable (s : State) (agent c : Nat) (on : Bool) : State × Verdict :=
  let s1 := s.putFlag (pCHAN c) ⟨0x014, 31, 31⟩ on
  let go := accept ((s1.chanCommit c s true 1).calHook s (chanQuad c))
  if on then
    if s.stage < 2 then refuse s .state
    else match s.chanRefusal s1 agent c true with
      | some v => (s, v)
      | none => go
  else if s.refChanHeld c ∧ s1.clockKey c ≠ s.clockKey c then refuse s .state
  else go

/-- ENABLE of a tracker changes (R150). -/
def State.phaseEnable (s : State) (t : Nat) (on : Bool) : State × Verdict :=
  let s1 := s.putFlag (pPHASE t) ⟨0x014, 31, 31⟩ on
  let i := s.get (pPHASE t) PHASE.SRC_CFG.SRC_TIN
  if !on then accept ((s1.freePlace i 3 t).phaseStop t)
  else if s.stage < 2 then refuse s .state
  else match s1.takePlace i 3 t with
    | some s2 => accept (s2.phaseStart t)
    | none => (s, ⟨.conflict, some (s.resOwner 3 i)⟩)

/-- ENABLE of a page changes (R37, R315). -/
def State.setEnable (s : State) (c : WCtx) (k : Kind) (on : Bool) : State × Verdict :=
  let s1 := s.putFlag c.page ⟨0x014, 31, 31⟩ on
  match k with
  | .chan => s.chanEnable c.agent c.inst on
  | .aux => if !on then accept s1 else if s.stage < 2 then refuse s .state else s.keep (s1.auxStart c.inst)
  | .tin => if on ∧ s.stage < 2 then refuse s .state else accept (s1.unresolve c.inst 1)
  | .phase => s.phaseEnable c.inst on
  | .seq => if !on ∧ s.seqState c.inst ≠ 0 ∧ s.seqState c.inst ≠ 4 then refuse s .state else accept s1
  | .aplla => if !on then accept s1.apllaStop else if s.stage < 2 then refuse s .state else s.keep (s1.apllaStart)
  | .domain => if on ∧ !s.secOk s.secRef then refuse s .state else accept s1.refreshDomain
  | .rdg => s.keep (s.rdgEnable c.inst on)
  | .eth => s.keep (s.ethEnable c.inst on)
  | _ => accept s1

/-- SAFE_EXIT (R98, R143, R228, R301); in a block not in its safe state it has no effect (R37). -/
def State.safeExit (s : State) (c : WCtx) (k : Kind) : State × Verdict :=
  let clear (l : List SafeCause) (n : Nat) : Bool := l.all (fun x => s.causeCleared n x)
  match k with
  | .chan =>
    if (s.chan c.inst).safe.isEmpty then accept s
    else if clear (s.chan c.inst).safe c.inst then accept ((s.chanSafeExit c.inst).refreshBounds (chanQuad c.inst)) else refuse s .state
  | .aux =>
    if (s.aux c.inst).safe.isEmpty then accept s
    else if clear (s.aux c.inst).safe 0 then accept (s.auxSafeLeave c.inst) else refuse s .state
  | .gutter => s.keep s.deviceSafeExit
  | .sched => s.keep (s.schedSafeExit c.agent)
  | _ => accept s

/-- The block-specific bit 0 of CONTROL: FLUSH of a channel, RESTART of a tracker, RECAL of an input. -/
def State.controlBit (s : State) (c : WCtx) (k : Kind) : State × Verdict :=
  match k with
  | .chan => accept (s.chanFlush c.inst)
  | .phase => accept (s.phaseRestart c.inst)
  | .tin => accept (s.recal c.inst)
  | _ => accept s

/-- A write of CONTROL: ENABLE, then SAFE_EXIT, then the block's own bit. -/
def State.writeControl (s : State) (c : WCtx) (k : Kind) : State × Verdict :=
  let on := bitOf c.v 31
  let now := s.flag c.page ⟨0x014, 31, 31⟩
  s.both (s.asked (hasEnable k && on != now) (fun s => s.setEnable c k on)) (fun s1 =>
    s1.both (s1.asked (bitOf c.v 30) (fun s => s.safeExit c k)) (fun s2 => s2.asked (bitOf c.v 0) (fun s => s.controlBit c k)))

/-! ### The header -/

/-- A write of a register of the header. -/
def State.writeHeader (s : State) (c : WCtx) (k : Kind) (d : RegDesc) : State × Verdict :=
  let p := c.page
  if d.base = 0x00C then s.writeOwner c
  else if d.base = 0x014 then s.writeControl c k
  else if d.base = 0x018 ∨ d.base = 0x01C then s.after c d (fun s => s.resend (s.pageVector p))
  else if d.base = 0x020 then s.after c d (fun x => x.sendNew s (bitsOf c.v 5 0))
  else if d.base = 0x024 then s.after c d (fun x => x.errCleared s p c.v)
  else if d.base = 0x028 then s.keep (s.errInject p (Nat.land c.v (errMask k)))
  else if d.base = 0x030 then s.writeCommitCtl c 0
  else s.plain c d

end Sys2Proof.Machine
end

