-- ==== Sys2Proof/Machine/Bodies.lean ====
section
/-! DEFINITION. What a write of the body of a page does, block by block: the registers that more follows from than their own
new value. Every value has passed `rangeOk`. -/

namespace Sys2Proof.Machine

/-! ### DEV and OWN -/

/-- End the snapshot (R56). -/
def State.thaw (s : State) : State :=
  let s1 : State := { s with host := { s.host with frozen := none } }
  (s1.putFlag pDEV DEV.SNAP_CTL.FROZEN false).put pDEV DEV.SNAP_CTL.HOLDER 0

/-- A write of SNAP_CTL (R56): the freeze itself follows at the next SCLK edge. -/
def State.writeSnap (s : State) (c : WCtx) (d : RegDesc) : State × Verdict :=
  let holder := s.get pDEV DEV.SNAP_CTL.HOLDER
  if bitOf c.v 0 ∧ (s.host.frozen.isSome ∨ s.host.freezeNext.isSome) then refuse s .busy
  else if bitOf c.v 1 ∧ holder ≠ c.agent ∧ !(c.admin ∧ windowPath c.path) then (s, ⟨.denied, some holder⟩)
  else
    let s1 := (s.put_ c d).onlyIf (bitOf c.v 1) State.thaw
    accept (if bitOf c.v 0 then { s1 with host := { s1.host with freezeNext := some (c.agent, s.clk.slot) } } else s1)

/-- Writes of DEV. -/
def State.writeDev (s : State) (c : WCtx) (d : RegDesc) : State × Verdict :=
  if d.base == DEV.CG_INSTANT.off 0 then if s.cgArmed ((c.off - 0x400) / 16) then refuse s .busy else s.plain c d
  else if d.base == DEV.CG_ARM.off then s.keep (s.writeCgArm c.v)
  else if d.base == DEV.CG_DISARM.off then s.writeCgDisarm c.v
  else if d.base == DEV.SNAP_CTL.off then s.writeSnap c d
  else if d.base == DEV.STAGE_CFG.off then
    match s.store (fun t => { t with stageCfg := c.v }) with
    | some s1 => s1.after c d (fun s => s.onlyIf s.heldAt2 (fun s => s.forEach (List.range 12) (fun q s => s.dropSweeps q)))
    | none => refuse s .state
  else if d.base == DEV.RESET_CMD.off then s.deviceResetCmd c.admin c.v
  else s.plain c d

/-- CLAIM_CMD (R43 to R45); FORCE_RELEASE is given as `force`, and the remote root needs no ADMIN right for it (R44). -/
def State.claimCmd (s : State) (c : WCtx) (force : State → Nat → State) : State × Verdict :=
  let res := bitsOf c.v 15 8
  let a := bitsOf c.v 31 16
  match bitsOf c.v 7 0 with
  | 1 => s.cmdClaim c.agent res (s.claimArg c.path)
  | 2 => s.cmdRelease c.agent res (s.claimArg c.path)
  | 3 => s.cmdQuery res (s.claimArg c.path)
  | 4 => if !c.admin ∧ c.path ≠ .remote then (s, ⟨.denied, some 0⟩) else if a = 0 ∨ a = 0xFFFF then refuse s .range else accept (force s a)
  | _ => refuse s .range

/-- Writes of OWN. -/
def State.writeOwn (s : State) (c : WCtx) (d : RegDesc) (j : Nat) (force : State → Nat → State) : State × Verdict :=
  if d.base == OWN.WINDOW.off 0 then s.writeWindow c d j
  else if d.base == OWN.BAR2_AGENT.off then if bindable (bitsOf c.v 31 16) then s.plain c d else refuse s .range
  else if d.base == OWN.CLAIM_CMD.off then s.claimCmd c force
  else if d.base == OWN.LEASE_PERIOD.off 0 then s.writePeriod c d j
  else if d.base == OWN.LEASE_CTL.off 0 then s.writeLease c d j
  else s.plain c d

/-! ### Edges and triggers -/

/-- Writes of CAL (R82): LOOP_CFG. -/
def State.writeCal (s : State) (c : WCtx) (d : RegDesc) : State × Verdict :=
  if d.base == CAL.LOOP_CFG.off then
    let i := bitsOf c.v 3 0
    let n := bitsOf c.v 21 16
    let on := s.flag pCAL CAL.LOOP_CFG.ENABLE
    if bitOf c.v 31 ∧ !on then
      if s.stage < 2 ∨ !s.flag (pTIN i) TIN.CONTROL.ENABLE then refuse s .state
      else if s.resOwner 1 n ≠ c.agent then (s, ⟨.denied, some (s.resOwner 1 n)⟩)
      else if s.resOwner 3 i ≠ c.agent then (s, ⟨.denied, some (s.resOwner 3 i)⟩)
      else s.after c d (fun s => (s.loopForm.setTin i { s.tin i with loopIn := [] }).unresolve i 1)
    else if !bitOf c.v 31 ∧ on then s.loopOff.plain c d
    else s.after c d State.loopForm
  else s.plain c d

/-- Writes of CHAN: LANE_TERM, and LOOP_TERM of the loopback pair, follow the selected format (R83, R97). -/
def State.writeChan (s : State) (c : WCtx) (d : RegDesc) : State × Verdict :=
  if d.base == CHAN.OUT_CFG.off && bitsOf c.v 2 0 != s.get c.page CHAN.OUT_CFG.FORMAT then s.after c d (fun s => (s.laneForm c.inst).loopForm)
  else s.plain c d

/-- Writes of PHASE: BOUND_NEXT follows BOUND_K (R150, R154). -/
def State.writePhase (s : State) (c : WCtx) (d : RegDesc) : State × Verdict :=
  if d.base == PHASE.FIT_CFG.off then s.after c d (fun s => s.refreshFit c.inst) else s.plain c d

/-- A write of TL_SRC_n (R100, R102, R173): a timing input's place is taken and left with ENABLE. -/
def State.writeSrc (s : State) (c : WCtx) (d : RegDesc) (n : Nat) : State × Verdict :=
  let on := s.flag pTRIG (TRIG.TL_SRC.ENABLE n)
  let i := bitsOf c.v 15 8
  if bitOf c.v 31 ∧ !on then
    if bitsOf c.v 3 0 = 1 then
      match s.takePlace i 1 n with
      | some s1 => s1.after c d (fun s => s.restartDivider n)
      | none => (s, ⟨.conflict, some (s.resOwner 3 i)⟩)
    else s.after c d (fun s => s.restartDivider n)
  else if !bitOf c.v 31 ∧ on ∧ s.get pTRIG (TRIG.TL_SRC.KIND n) = 1 then (s.freePlace (s.get pTRIG (TRIG.TL_SRC.INDEX n)) 1 n).plain c d
  else s.plain c d

/-- Writes of TRIG. -/
def State.writeTrig (s : State) (c : WCtx) (d : RegDesc) (j : Nat) : State × Verdict :=
  if d.base == TRIG.TL_SRC.off 0 then s.writeSrc c d j
  else if d.base == TRIG.TL_SHAPE.off 0 then s.after c d (fun s => s.restartDivider j)
  else if d.base == TRIG.HOST_FIRE.off then s.hostFire c.v
  else s.plain c d

/-- Writes of SYNC (R130, R315). -/
def State.writeSync (s : State) (c : WCtx) (d : RegDesc) : State × Verdict :=
  let enable := d.base == SYNC.SYNC_IN_CFG.off || d.base == SYNC.SYNC_OUT_CFG.off || d.base == SYNC.PPS_CFG.off
  let rises := enable && bitOf c.v 31 && !bitOf (s.present c d) 31
  if rises ∧ s.stage < 2 then refuse s .state
  else if d.base = SYNC.SYNC_IN_CFG.off then s.after c d (fun x => x.onlyIf (rises || !bitOf c.v 31) State.syncUnresolve)
  else s.plain c d

/-! ### Sequencers and courses -/

/-- Another sequencer that holds one of the quads. -/
def State.quadRival (s : State) (q v : Nat) : Option Nat :=
  (List.range 4).find? (fun x => x != q && Nat.land (s.get (pSEQ x) SEQ.QUAD_MASK.QUADS) v != 0)

/-- A write of QUAD_MASK (R106). -/
def State.writeMask (s : State) (c : WCtx) (d : RegDesc) : State × Verdict :=
  let gone := clearBits (s.get c.page SEQ.QUAD_MASK.QUADS) c.v
  match s.quadRival c.inst c.v with
  | some x => (s, ⟨.conflict, some (s.seqOwner x)⟩)
  | none =>
    if (List.range 48).any (fun n => bitOf gone (chanQuad n) && s.chanMode n == 5) then refuse s .state else s.plain c d

/-- Writes of SEQ_q. -/
def State.writeSeq (s : State) (c : WCtx) (d : RegDesc) : State × Verdict :=
  if d.base == SEQ.QUAD_MASK.off then s.writeMask c d
  else if d.base == SEQ.CMD.off then s.seqCmd c.inst c.v
  else if d.base == SEQ.REFILL_CMD.off then s.refillCmd c.agent c.inst c.v
  else if d.base == SEQ.UNDERRUN_COUNT.off then
    s.after c d (fun s => s.onlyIf (s.rd c.page SEQ.UNDERRUN_COUNT.off == 0) (fun s => s.wr c.page SEQ.FIRST_UNDERRUN.off 0))
  else if d.base == SEQ.ACTIVE_WRITE_DROPS.off then
    s.after c d (fun s => s.onlyIf (s.rd c.page SEQ.ACTIVE_WRITE_DROPS.off == 0) (fun s => s.wr c.page SEQ.FIRST_DROP_ADDR.off 0))
  else s.plain c d

/-- Writes of COURSE. -/
def State.writeCourse (s : State) (c : WCtx) (d : RegDesc) : State × Verdict :=
  if d.base == COURSE.READY_CMD.off then s.readyCmd c.agent c.v
  else if d.base == COURSE.COURSE_WRITE_DROPS.off then
    s.after c d (fun s => s.onlyIf (s.rd pCOURSE COURSE.COURSE_WRITE_DROPS.off == 0) (fun s => s.wr pCOURSE COURSE.FIRST_COURSE_DROP.off 0))
  else s.plain c d

/-! ### Scheduler -/

/-- A write of Q_CFG_q (R137, R146, R315). -/
def State.writeQueue (s : State) (c : WCtx) (d : RegDesc) (q : Nat) : State × Verdict :=
  let on := s.flag pSCHED (SCHED.Q_CFG.ENABLE q)
  if bitOf c.v 31 ∧ !on then
    if s.stage < 2 then refuse s .state
    else s.after c d (fun s => (s.setQueue q { s.queue q with orderRef := none }).put pSCHED (SCHED.Q_ORDER_REF.WHEN q) 0)
  else if !bitOf c.v 31 ∧ on ∧ !(s.queue q).actions.isEmpty then refuse s .state
  else s.plain c d

/-- A write of TICK_CFG_n (R149, R315). -/
def State.writeTick (s : State) (c : WCtx) (d : RegDesc) (n : Nat) : State × Verdict :=
  if bitOf c.v 31 ∧ !s.flag pSCHED (SCHED.TICK_CFG.ENABLE n) then
    if s.stage < 2 then refuse s .state
    else if s.tickPeriod n = 0 then refuse s .range
    else s.after c d (fun s => s.tickStart n)
  else s.plain c d

/-- A write of SUBMIT_CMD (R137, R146). -/
def State.submitCmd (s : State) (c : WCtx) : State × Verdict :=
  let q := bitsOf c.v 11 8
  match bitsOf c.v 7 0 with
  | 1 => s.submit q (s.winNat c.path pSCHED SCHED.SUBMIT_BUF.off 8)
  | 2 => accept (s.flushQueue q)
  | _ => refuse s .range

/-- Writes of SCHED. -/
def State.writeSched (s : State) (c : WCtx) (d : RegDesc) (j : Nat) : State × Verdict :=
  if d.base == SCHED.Q_CFG.off 0 then s.writeQueue c d j
  else if d.base == SCHED.TICK_CFG.off 0 then s.writeTick c d j
  else if d.base == SCHED.SUBMIT_CMD.off then s.submitCmd c
  else s.plain c d

/-! ### Measurements and references -/

/-- Writes of TDC (R178, R188, R200). -/
def State.writeTdc (s : State) (c : WCtx) (d : RegDesc) (j : Nat) : State × Verdict :=
  let was := bitOf (s.present c d) 31
  let on := bitOf c.v 31
  if d.base == TDC.SESSION_CMD.off then s.sessionCmd c.v
  else if d.base == TDC.MS_CFG.off 0 then
    if on ∧ !was then s.keep ((s.put_ c d).enableSession j)
    else if was ∧ !on then (s.disableSession j).plain c d
    else s.plain c d
  else if d.base == TDC.FG_CFG.off 0 then
    if on ∧ !was then s.keep ((s.put_ c d).enableGate j)
    else if was ∧ !on then (s.disableGate j).plain c d
    else s.plain c d
  else s.plain c d

/-- A write of REF_CFG_k (R208, R211). -/
def State.writeRef (s : State) (c : WCtx) (d : RegDesc) (k : Nat) : State × Verdict :=
  let was := s.refEnabled k
  if bitOf c.v 31 ∧ !was then s.keep ((s.put_ c d).enableRef k (decide (bitsOf c.v 7 0 < 6) && s.rdgUpstream (bitsOf c.v 7 0)))
  else if was ∧ !bitOf c.v 31 then s.after c d (fun s => s.disableRef k)
  else s.after c d (fun s => s.reselect.refreshDomain)

/-- Writes of REFSEL (R208 to R213, R231). -/
def State.writeRefsel (s : State) (c : WCtx) (d : RegDesc) (j : Nat) : State × Verdict :=
  if d.base == REFSEL.REF_CFG.off 0 then s.writeRef c d j
  else if d.base == REFSEL.SEL_CFG.off then s.after c d (fun s => s.reselect.refreshDomain)
  else if d.base == REFSEL.SEL_CMD.off then s.selCmd c.v
  else if d.base == REFSEL.PTP_OBS_CMD.off then s.cmdPush c.v
  else if d.base == REFSEL.REF_DELAY.off 0 ∨ d.base == REFSEL.REF_UNC.off 0 ∨ d.base == REFSEL.REF_FREQ_UNC.off 0 then
    if d.base == REFSEL.REF_DELAY.off 0 && decide ((1000000 * suNs : Nat) < (spanOf c.v).natAbs) then refuse s .range
    else s.after c d (fun s => s.refChanged j)
  else s.plain c d

/-- Writes of SERVO (R9, R214, R230). -/
def State.writeServo (s : State) (c : WCtx) (d : RegDesc) : State × Verdict :=
  if d.base == SERVO.SERVO_CFG.off then
    if bitsOf c.v 1 0 = s.get pSERVO SERVO.SERVO_CFG.MODE then s.plain c d else s.after c d (fun s => s.servoMode.refreshDomain)
  else if d.base == SERVO.Y.off then s.keep (s.writeY c.v)
  else if d.base == SERVO.STEP_CMD.off then s.stepCmd c.v
  else s.plain c d

/-! ### Frequency synthesis -/

/-- Writes of APLL_A (R223 to R227). -/
def State.writeApllA (s : State) (c : WCtx) (d : RegDesc) : State × Verdict :=
  if d.base == APLL_A.FREQ_CMD.off then s.freqCmd c.v
  else if d.base == APLL_A.SSC_CFG.off then
    if bitOf c.v 31 ∧ s.aplla.ramp.isSome then refuse s .state
    else if !(s.put_ c d).ceilings [] then refuse s .range
    else s.plain c d
  else s.plain c d

/-- Writes of AUX (R227, R236). -/
def State.writeAux (s : State) (c : WCtx) (d : RegDesc) : State × Verdict :=
  let n := c.page - pAUX 0
  if (d.base == AUX.DIV.off ∨ d.base == AUX.F_CEIL.off ∨ d.base == AUX.BYPASS_CFG.off) ∧ !(s.put_ c d).ceilings [] then refuse s .range
  else if d.base == AUX.OUT_CFG.off then s.after c d (fun t => t.onlyIf (!(s.aux n).running) (fun t => t.auxPin n false))
  else s.plain c d

/-! ### Time -/

/-- Writes of TSC (R19, R241, R244, R264, R279). -/
def State.writeTsc (s : State) (c : WCtx) (d : RegDesc) : State × Verdict :=
  let pend := s.get pTSC TSC.LEAP_CFG.LEAP_PENDING
  let leap := d.base == TSC.UTC_OFFSET.off || d.base == TSC.LEAP_CFG.off || d.base == TSC.LEAP_INSTANT.off
  if leap then
    if s.flag (pRDG 0) RDG.NODE_CFG.UTC_FOLLOW then refuse s .state
    else if d.base == TSC.LEAP_CFG.off then
      match s.leapRefusal (s.get pTSC TSC.UTC_OFFSET.OFFSET) (bitsOf c.v 1 0) (s.get pTSC TSC.LEAP_INSTANT.SECONDS) (!s.clk.seeded || decide (s.stage < 2)) with
      | some r => refuse s r
      | none => s.after c d State.copyLeap
    else if pend ≠ 0 then refuse s .state
    else s.after c d State.copyLeap
  else if d.base == TSC.REPORT_CFG.off then s.after c d State.reportRestart
  else s.plain c d

/-- Writes of DOMAIN (R245, R251). -/
def State.writeDomain (s : State) (c : WCtx) (d : RegDesc) : State × Verdict :=
  if d.base == DOMAIN.DOM_CMD.off then s.domCmd c.v
  else if d.base == DOMAIN.DOM_CFG.off then
    if s.flag pDOMAIN DOMAIN.CONTROL.ENABLE ∧ !s.secOk (bitsOf c.v 2 0) then refuse s .state
    else s.after c d State.refreshDomain
  else if d.base == DOMAIN.DISAGREE_MARGIN.off then s.after c d State.refreshDomain
  else s.plain c d

/-- Writes of EAVE (R279 to R291, R294). -/
def State.writeEave (s : State) (c : WCtx) (d : RegDesc) : State × Verdict :=
  let pend := s.get pEAVE EAVE.LEAP_CFG.LEAP_PENDING
  if d.base == EAVE.CAL_CMD.off then s.calCmd c.path c.v
  else if d.base == EAVE.PWR_CMD.off then s.pwrCmd c.path c.v
  else if d.base == EAVE.LOG_CMD.off then s.eaveLogCmd c.v
  else if d.base == EAVE.PROG_CTL.off then s.keep (s.progCtl c.v)
  else if d.base == EAVE.I2C_CFG.off ∧ !windowPath c.path then (s, ⟨.denied, some (s.pageOwner pEAVE)⟩)
  else if d.base == EAVE.UTC_OFFSET.off ∨ d.base == EAVE.LEAP_CFG.off ∨ d.base == EAVE.LEAP_INSTANT.off then
    if s.mainOn then refuse s .state
    else if d.base == EAVE.LEAP_CFG.off then
      match s.leapRefusal (s.get pEAVE EAVE.UTC_OFFSET.OFFSET) (bitsOf c.v 1 0) (s.get pEAVE EAVE.LEAP_INSTANT.SECONDS) true with
      | some r => refuse s r
      | none => s.plain c d
    else if pend ≠ 0 ∧ d.base = EAVE.LEAP_INSTANT.off then refuse s .state
    else s.plain c d
  else s.plain c d

/-! ### Faults and flash -/

/-- Writes of GUTTER (R297 to R304, R307, R310): a line fault that lasts sets its bit again at once. -/
def State.writeGutter (s : State) (c : WCtx) (d : RegDesc) (j : Nat) : State × Verdict :=
  if d.base == GUTTER.GUTTER_CMD.off then s.gutterCmd c.v
  else if d.base == GUTTER.SRC_CFG.off 0 then if s.srcCfgOk j c.v then (s.keepCfg j).after c d (fun x => x.showPair s) else refuse s .range
  else if d.base == GUTTER.FF_INFO.off then if bitOf c.v 31 then accept s.clearFirst else accept s
  else if d.base == GUTTER.LINE_FAULT_MAP.off then
    s.after c d (fun x => x.put pGUTTER GUTTER.LINE_FAULT_MAP.SOURCES (s.badLines.foldl setBit (x.get pGUTTER GUTTER.LINE_FAULT_MAP.SOURCES)))
  else s.after c d (fun x => x.showPair s)

/-- A number of values that the spec leaves open. -/
def State.freeList (s : State) (n : Nat) : List Nat × State :=
  ((List.range n).map (fun k => Config.freeNat (s.freeUses + k)), { s with freeUses := s.freeUses + n })

/-- Writes of FLASH (R330 to R348, R351). A FINISH or a DMA_WRITE written as a plain register finds what is left open: the rows
FINISH and DMA_WRITE carry it as operands. -/
def State.writeFlash (s : State) (c : WCtx) (d : RegDesc) (bytes : Option (List Nat)) (v : Option VerifyResult) : State × Verdict :=
  if d.base == FLASH.FL_CMD.off then
    let code := bitsOf c.v 7 0
    let m := s.freeList (if code = 3 ∧ bytes.isNone then s.get pFLASH FLASH.FL_LENGTH.BYTES else 0)
    let f := m.2.freeList (if code = 4 ∧ v.isNone then 134 else 0)
    let open_ : VerifyResult := ⟨bitOf (f.1.getD 0 0) 0, (f.1.drop 6).map (· % 2 ^ 32), f.1.getD 1 0, [], [], bitOf (f.1.getD 2 0) 0, bitOf (f.1.getD 3 0) 0,
      f.1.getD 4 0 % 16, f.1.getD 5 0 % 2 ^ 384⟩
    f.2.flCmd (c.admin && windowPath c.path) code (bytes.getD m.1) (v.getD open_)
  else if d.base == FLASH.FL_CONFIG.off then
    match s.store (fun t => { t with flConfig := c.v }) with
    | some s1 => s1.plain c d
    | none => refuse s .state
  else s.plain c d

/-! ### Rings and ports -/

/-- Writes of HOSTQ (R49 to R55). -/
def State.writeHostq (s : State) (c : WCtx) (d : RegDesc) (r : Nat) : State × Verdict :=
  if d.base == HOSTQ.RING_CFG.off 0 then
    let a := s.writeRingCfg c d r
    if a.2.res = .ok then accept (a.1.sendNew s (bitsOf c.v 15 10)) else (s, a.2)
  else if d.base == HOSTQ.RING_CTRL.off 0 then s.keep (s.writeRingCtrl c d r)
  else if d.base == HOSTQ.DOORBELL.off 0 then s.keep (s.writeBell c d r)
  else s.plain c d

/-- Writes of RDG_p (R253, R265 to R267). -/
def State.writeRdg (s : State) (c : WCtx) (d : RegDesc) : State × Verdict :=
  if d.base == RDG.PORT_CFG.off then s.keep (s.portCfg c.inst c.v)
  else if d.base == RDG.NODE_CFG.off then s.keep (s.nodeCfg c.v)
  else if d.base == RDG.TRIG_CMD.off then s.trigCmd c.v
  else if d.base == RDG.MGMT_CMD.off then s.mgmtCmd c.v
  else s.plain c d

/-- Writes of ETH_p (R270, R273). -/
def State.writeEth (s : State) (c : WCtx) (d : RegDesc) : State × Verdict :=
  if d.base == ETH.TXR_CTRL.off then s.keep (s.ethRingCtrl c.inst false (bitOf c.v 31))
  else if d.base == ETH.RXR_CTRL.off then s.keep (s.ethRingCtrl c.inst true (bitOf c.v 31))
  else if d.base == ETH.TXR_DOORBELL.off then s.keep (s.ethBell c.inst false c.v)
  else if d.base == ETH.RXR_DOORBELL.off then s.keep (s.ethBell c.inst true c.v)
  else s.plain c d

/-- XO.FIT_CTL (R207, R234). -/
def State.writeXo (s : State) (c : WCtx) (d : RegDesc) : State × Verdict :=
  if d.base == XO.FIT_CTL.off then s.after c d (fun s => s.onlyIf (bitOf c.v 1) State.fitReset) else s.plain c d

/-- BOARD_DELAY of the lane of a channel in SEQ mode stays at 900 ns or less (R107), checked at the write. -/
def State.seqDelayOk (s : State) (c : WCtx) (k : Kind) (d : RegDesc) (j : Nat) : Bool :=
  !(k == .quad && d.base == QUAD.BOARD_DELAY.off 0 && s.modeField (4 * c.inst + j) == 5 && decide (spanOf c.v > 900 * (suNs : Int)))

/-- What a write brings beside itself: FORCE_RELEASE, and what a DMA_WRITE or a FINISH finds. -/
structure Extra where
  force : State → Nat → State
  bytes : Option (List Nat) := none
  verify : Option VerifyResult := none

/-- A write of a register of a page's body. -/
def State.writeBody (s : State) (c : WCtx) (k : Kind) (d : RegDesc) (j : Nat) (x : Extra) : State × Verdict :=
  if perWindow k d.base then accept (s.putWin c.path c.page c.off d.words c.v)
  else if d.shd then if s.seqDelayOk c k d j then s.writeShd c d else refuse s .range
  else match k with
  | .dev => s.writeDev c d
  | .own => s.writeOwn c d j x.force
  | .quad =>
    if d.base == QUAD.LANE_COMMIT_CTL.off 0 then s.writeCommitCtl c j
    else if d.base == QUAD.SWAP_CMD.off then s.swapCmd c.inst c.v
    -- The growth of R73 begins and ends with TRACK_ENABLE.
    else if d.base == QUAD.CAL_CTL.off then s.after c d (fun s => s.refreshBounds c.inst)
    else s.plain c d
  | .chan => s.writeChan c d
  | .phase => s.writePhase c d
  | .cal => s.writeCal c d
  | .trig => s.writeTrig c d j
  | .sync => s.writeSync c d
  | .seq => s.writeSeq c d
  | .course => s.writeCourse c d
  | .sched => s.writeSched c d j
  | .tdc => s.writeTdc c d j
  | .refsel => s.writeRefsel c d j
  | .servo => s.writeServo c d
  | .aplla => s.writeApllA c d
  | .aux => s.writeAux c d
  | .tsc => s.writeTsc c d
  | .domain => s.writeDomain c d
  | .eave => s.writeEave c d
  | .gutter => s.writeGutter c d j
  | .flash => s.writeFlash c d x.bytes x.verify
  | .hostq => s.writeHostq c d j
  | .rdg => s.writeRdg c d
  | .eth => s.writeEth c d
  | .xo => s.writeXo c d
  | _ => s.plain c d

/-- A write of a register, whose access has passed (R39). -/
def State.writeReg (s : State) (c : WCtx) (k : Kind) (d : RegDesc) (j : Nat) (x : Extra) : State × Verdict :=
  if d.reserved c.v ∨ !formatOk k d c.v then refuse s .range
  else if d.base < 0x040 then s.writeHeader c k d
  else if !rangeOk k c.inst d.base c.v then refuse s .range
  else s.writeBody c k d j x

end Sys2Proof.Machine
end

