-- ==== Sys2Proof/Machine/Release.lean ====
section
/-! DEFINITION. FORCE_RELEASE (R44): what becomes of every resource of the agent named. -/

namespace Sys2Proof.Machine

/-! ### Reset values -/

/-- The reset value of a register (R44). -/
def regResetN (p o n : Nat) : Nat := (List.range n).foldl (fun a w => a + 2 ^ (32 * w) * (regReset (regKey p (o + 4 * w))).toNat) 0

/-- Registers that a page's reset leaves alone: those of resources with owners of their own (R44), OWNER, and those whose
values come from the Eave, CALDATA, OTP, a strap or the settings store. -/
def keeps (k : Kind) (base : Nat) : Bool :=
  base == 0x00C || match k with
  -- Copies of the fields of TSC (R279).
  | .eave => base == EAVE.UTC_OFFSET.off || base == EAVE.LEAP_CFG.off || base == EAVE.LEAP_INSTANT.off
  | .tsc => base == TSC.UTC_OFFSET.off || base == TSC.LEAP_CFG.off || base == TSC.LEAP_INSTANT.off
  | .dev => base == DEV.STAGE_CFG.off
  -- y stays what R206 forms outside MANUAL.
  | .servo => base == SERVO.Y.off
  | .flash => base == FLASH.FL_CONFIG.off
  -- TRACE is restored from the settings store (R250).
  | .domain => base == DOMAIN.TRACE.off
  | .quad => decide (0x100 ≤ base) && decide (base < 0x140) || decide (0x180 ≤ base) && decide (base < 0x1C0)
  | .trig => base == TRIG.TL_SRC.off 0 || base == TRIG.TL_SHAPE.off 0 || base == TRIG.CAPTURE_EN.off
  | .sched => decide (0x040 ≤ base) && decide (base < 0x240) || decide (0x400 ≤ base)
  | .hostq => decide (0x040 ≤ base) && decide (base < 0x440)
  | _ => false

/-- The written fields of one register go back to their reset values: RW, RWL and SHD. -/
def State.resetReg (s : State) (p : Nat) (d : RegDesc) (j : Nat) : State :=
  let o := d.at_ j
  let r := regResetN p o d.words
  let v := d.fields.foldl (fun n f => if f.acc == .rw || f.acc == .rwl || f.acc == .shd then putBits n f.hi f.lo (bitsOf r f.hi f.lo) else n)
    (s.rdN p o d.words)
  s.wrN p o d.words v

/-- The registers of a page that a selection names, each by its base and index. -/
def State.resetRegs (s : State) (p : Nat) (sel : Nat → Nat → Bool) : State :=
  match pageBlock p with
  | none => s
  | some b => s.forEach (kindRegs b.1) (fun d s => s.forEach ((List.range (max 1 d.count)).filter (fun j => sel d.base j)) (fun j s => s.resetReg p d j))

/-! ### What stops -/

/-- A sequencer stops at once and is IDLE. -/
def State.seqForced (s : State) (q : Nat) : State :=
  let s1 := s.seqDeviceSafe q
  (s1.seqPutState q 0 0 s1.now).setSeq q {}

/-- Sessions and gates end without results; their places are free. -/
def State.measForced (s : State) : State :=
  let s1 := s.forEach ((List.range 16).filter (fun k => s.flag pTDC (TDC.MS_CFG.ENABLE k))) (fun k s =>
    (((s.setSess k {}).putSessState k 0).put pTDC (TDC.MS_STATE.STOPS k) 0).freePlaces 4 k (s.sessionInputs k))
  s1.forEach ((List.range 8).filter (fun g => s.flag pTDC (TDC.FG_CFG.ENABLE g))) (fun g s => s.disableGate g)

/-- What runs in a page stops before its registers go back to reset. -/
def State.pageForced (s : State) (agent p : Nat) : State :=
  match pageBlock p with
  | none => s
  | some (k, i) =>
    let c : WCtx := ⟨.kalwin, agent, true, p, i, 0x014, 0⟩
    let s1 := if k = .seq then s.seqForced i else s
    let s2 := if hasEnable k ∧ s1.flag p ⟨0x014, 31, 31⟩ then (s1.setEnable c k false).1 else s1
    match k with
    | .tdc => s2.measForced
    | .refsel => s2.forEach ((List.range 8).filter (fun n => s2.refEnabled n)) (fun n s => (s.putFlag pREFSEL (REFSEL.REF_CFG.ENABLE n) false).disableRef n)
    | .cal => s2.loopOff
    | .servo => if s2.get pSERVO SERVO.SERVO_CFG.MODE = 0 then s2 else (s2.put pSERVO SERVO.SERVO_CFG.MODE 0).servoMode
    | .eth => ((s2.ethRingCtrl i false false).1.ethRingCtrl i true false).1
    | .dev => s2.put pDEV DEV.CG_ARM.ARMED 0
    | .eave => (s2.progCtl 0).1
    | _ => s2

/-- Drop the writes on their way to a commit context: its shadows, pending commits and IMMEDIATE writes. -/
def State.dropWrites (s : State) (p lane : Nat) : State :=
  let s1 := s.dropShadows p lane
  { s1 with host := { s1.host with immed := s1.host.immed.filter (fun e => !inCtx p lane e.key) } }

/-- A page returns to its reset configuration: its shadows go too, and INPUT_TERM follows the settings of a timing input (R166). -/
def State.pageReset (s : State) (agent p : Nat) : State :=
  let s1 := (s.pageForced agent p).resetRegs p (fun base _ => match pageBlock p with | some b => !keeps b.1 base | none => false)
  match pageBlock p with
  | some (.quad, _) => s1
  | some (.tin, i) => ((s1.dropWrites p 0).onlyIf (s.termSetting i != s1.termSetting i) (fun s => (s.keepTerms i).inputForm i)).refreshInput i
  | some (.cal, _) => (s1.dropWrites p 0).loopForm
  | _ => s1.dropWrites p 0

/-- A trigger line returns to reset. -/
def State.lineReset (s : State) (n : Nat) : State :=
  let s1 := if s.flag pTRIG (TRIG.TL_SRC.ENABLE n) ∧ s.get pTRIG (TRIG.TL_SRC.KIND n) = 1 then
      s.freePlace (s.get pTRIG (TRIG.TL_SRC.INDEX n)) 1 n else s
  ((s1.resetRegs pTRIG (fun base j => (base == TRIG.TL_SRC.off 0 || base == TRIG.TL_SHAPE.off 0) && j == n)).put pTRIG
    ⟨TRIG.CAPTURE_EN.off, n, n⟩ 0).setLine n {}

/-- A tick generator returns to reset. -/
def State.tickReset (s : State) (n : Nat) : State := s.resetRegs pSCHED (fun base j => decide (0x400 ≤ base) && j == n)

/-! ### The order of R44 -/

/-- The registers of a channel go back to reset: those of its page and those of its lane in the QUAD page, which its owner governs
(R44, R64); LANE_TERM and LOOP_TERM follow the format (R83, R97). -/
def State.chanReset (s : State) (c : Nat) : State :=
  let q := chanQuad c
  let s1 := (s.dropWrites (pCHAN c) 0).dropWrites (pQUAD q) (chanLane c)
  let s2 := (s1.resetRegs (pCHAN c) (fun base _ => !keeps .chan base)).resetRegs (pQUAD q) (fun base j =>
    (decide (0x100 ≤ base) && decide (base < 0x140) || decide (0x180 ≤ base) && decide (base < 0x1C0)) && j == chanLane c)
  s2.onlyIf (s.get (pCHAN c) CHAN.OUT_CFG.FORMAT != 0) (fun s => (s.laneForm c).loopForm)

/-- A released channel passes through its safe state to mode OFF, and its registers go back to reset. -/
def State.chanForced (s : State) (c : Nat) : State :=
  let s1 := (s.chanSafe c .forced).chanReset c
  let s2 := s1.setChan c { s1.chan c with safe := (s1.chan c).safe.filter (fun x => x != .forced) }
  let s3 := if (s2.chan c).safe.isEmpty then s2.chanEntry c 1 else s2
  (s3.calHook s (chanQuad c)).refreshBounds (chanQuad c)

/-- A released ring: it frees the place its stream held, and its registers go back to reset. -/
def State.ringReset (s : State) (r : Nat) : State :=
  let s1 := s.freed 6 r
  (s1.setRing r { s1.ring r with pend := 0 }).resetRegs pHOSTQ (fun base j => decide (0x040 ≤ base) && decide (base < 0x440) && j == r)

/-- A released scheduler queue: its actions are discarded, and its registers go back to reset. -/
def State.queueReset (s : State) (q : Nat) : State :=
  (s.flushQueue q).resetRegs pSCHED (fun base j => decide (0x040 ≤ base) && decide (base < 0x240) && j == q)

/-- Indices of a resource code that an agent owns. -/
def State.ownedBy (s : State) (code agent : Nat) : List Nat := (List.range (resCount code)).filter (fun i => s.resOwner code i == agent)

/-- Pages that are resources of code 0x0F and that an agent owns. -/
def State.pagesOf (s : State) (agent : Nat) : List Nat :=
  (List.range 0x91).filter (fun p => resExists 15 p && s.pageOwner p == agent)

/-- FORCE_RELEASE of an agent (R44). -/
def State.forceRelease (s : State) (a : Nat) : State :=
  let rings := s.ringsOf a
  let chans := s.ownedBy 1 a
  let queues := s.ownedBy 5 a
  let lines := s.ownedBy 4 a
  let ticks := s.ownedBy 11 a
  let coded := (s.ownedBy 3 a).map pTIN ++ (s.ownedBy 7 a).map pAUX ++ (s.ownedBy 9 a).map (fun _ => pCAL) ++ (s.ownedBy 10 a).map pSEQ ++
    (s.ownedBy 12 a).map pPHASE
  let pages := s.pagesOf a
  let s1 := s.ringsStop rings
  let s2 := s1.forEach chans (fun c s => s.chanForced c)
  let s3 := (s2.forEach queues (fun q s => s.queueReset q)).forEach rings (fun r s => s.ringReset r)
  let s4 := s3.forEach (coded ++ pages) (fun p s => s.pageReset a p)
  let s5 := (s4.forEach lines (fun n s => s.lineReset n)).forEach ticks (fun n s => s.tickReset n)
  let s6 := s5.setRanges (s5.host.ranges.filter (fun r => r.2.2 != a))
  let codes := [1, 3, 4, 5, 6, 7, 9, 10, 11, 12].flatMap (fun code => (s.ownedBy code a).map (fun i => (code, i)))
  s6.forEach (codes ++ pages.map (fun p => (15, p))) (fun r s => s.releaseRes r.1 r.2)

end Sys2Proof.Machine
end

