-- ==== Sys2Proof/Machine/Host.lean ====
section
/-! DEFINITION. Accesses of the host paths: the order in which a write is judged and its result reported (R34 to R41), the
transactions of PCIe, SPI and I2C (R28 to R34, R292), and the COMMAND rings (R52). -/

namespace Sys2Proof.Machine

/-! ### One write -/

/-- Registers that read as RO, or read zero, and refuse every write with RANGE: RO registers (R38), the device-wide registers
in RDG_1 to RDG_5 (R267), and the UTC fields of EAVE but from I2C (R279). -/
def refusesWrites (path : Path) (k : Kind) (i : Nat) (d : RegDesc) : Bool :=
  d.readOnly || (k == .rdg && decide (1 ≤ i) && decide (0x400 ≤ d.base)) ||
    (k == .eave && path != .i2c && (d.base == EAVE.UTC_OFFSET.off || d.base == EAVE.LEAP_CFG.off || d.base == EAVE.LEAP_INSTANT.off))

/-- In DISTRIBUTED mode the body of GUTTER is inert but for ENTER_SAFE (R308). -/
def State.inert (s : State) (k : Kind) (d : RegDesc) (v : Nat) : Bool :=
  k == .gutter && s.distributed && decide (0x040 ≤ d.base) && !(d.base == GUTTER.GUTTER_CMD.off && bitsOf v 7 0 == 2)

/-- A write of word `w` of a register that is there: ownership, locks and pending commits are judged for every word; a lower
word is then staged, and the highest word builds the value and writes it (R17, R27, R38, R43). -/
def State.writeWord (s : State) (path : Path) (page off v : Nat) (k : Kind) (i : Nat) (d : RegDesc) (j w : Nat) (x : Extra) :
    State × Verdict :=
  let base := d.at_ j
  let top := w + 1 == d.words
  let lower := s.lower path page k i d j
  let new := if d.words = 1 then v else if top then s.build path page base d.words lower v else putBits lower (32 * w + 31) (32 * w) v
  let c : WCtx := ⟨path, s.agentOf path, s.adminOf path, page, i, base, new⟩
  if s.inert k d new then refuse s .state
  else match s.denies c k d.base j with
    | some r => (s, r)
    | none =>
      if s.locked page k d j (s.present c d) new then refuse s .state
      else if s.busyPending page d base new then refuse s .busy
      else if !top then accept (s.stage_ path (regKey page off) v)
      else
        let r := s.writeReg c k d j x
        if r.2.res = .ok then (r.1.unstage path page base d.words, r.2) else r

/-- The owner of the resource that a write names: the register's own resource where it has one, else its page (R40, R42). -/
def State.ownerNamed (s : State) (path : Path) (page off v : Nat) : Nat :=
  match (if off < 0x800 then regAt page off else none) with
  | none => s.pageOwner page
  | some (k, i, d, j, w) =>
    let new := putBits (s.rdN page (d.at_ j) d.words) (32 * w + 31) (32 * w) v
    (s.governs ⟨path, s.agentOf path, s.adminOf path, page, i, d.at_ j, new⟩ k d.base j).owner (s.agentOf path) (s.pageOwner page)

/-- A write to a page that is there: the window, the half and the offset come first (R34, R39). -/
def State.judge_ (s : State) (path : Path) (page off v : Nat) (x : Extra) : State × Verdict :=
  if s.barred path then (s, ⟨.denied, some (s.ownerNamed path page off v)⟩)
  else if 0x800 ≤ off ∨ off % 4 ≠ 0 then refuse s .range
  else match regAt page off with
    | none => refuse s .range
    | some (k, i, d, j, w) => if refusesWrites path k i d then refuse s .range else s.writeWord path page off v k i d j w x

/-- The command code that LAST_CMD reports for an offset (R40). -/
def codeAt (page off v : Nat) : Nat :=
  match regAt page off with | some r => if off < 0x800 then r.2.2.1.codeOf v else 0 | none => 0

/-- Note a write to a CMD register: its CMD fields (R38). -/
def State.noteAt (s : State) (path : Path) (page off v : Nat) : State :=
  match regAt page off with
  | some r => if off < 0x800 ∧ r.2.2.1.isCmd then s.noteCmd path page off (r.2.2.1.merge 0 v) else s
  | none => s

/-- A write of the word at an offset of a page by a path: none where it has no result, because the path does not reach the
page, no block is there, or the word is LAST_CMD (R31, R36, R40). -/
def State.hostWrite_ (s : State) (path : Path) (page off v : Nat) (x : Extra) : State × Option Verdict :=
  if !s.reaches path page then (s, none)
  else if (pageBlock page).isNone ∨ off = 0x02C then (s, none)
  else
    let r := s.judge_ path page off v x
    (((r.1.noteAt path page off v).lastCmd path page off (s.agentOf path) (codeAt page off v) r.2), some r.2)

/-- A plain write. -/
def State.hostWrite (s : State) (path : Path) (page off v : Nat) : State × Option Verdict :=
  s.hostWrite_ path page off v { force := fun s a => s.forceRelease a }

/-- The state after a write. -/
def State.wrote (s : State) (path : Path) (page off v : Nat) : State := (s.hostWrite path page off v).1

/-- CONTROL of a page as it stands, with a bit set: the value that a write of that bit alone carries. -/
def State.controlWith (s : State) (page bit : Nat) : Nat := putBits (if s.flag page ⟨0x014, 31, 31⟩ then 2 ^ 31 else 0) bit bit 1

/-! ### Reads -/

/-- A read of one word by a path; SPI reads ones before Stage 1 (R28, R316). -/
def State.hostRead (s : State) (path : Path) (page off : Nat) : Option Nat × State :=
  if s.reaches path page then
    let r := s.readWord path page off
    (some r.1, r.2)
  else match path with
    | .spi _ => (some 0xFFFFFFFF, s)
    | _ => (none, s)

/-- Reads of words one after another. -/
def State.readWords (s : State) (path : Path) (page : Nat) : List Nat → List Nat × State
  | [] => ([], s)
  | o :: os =>
    let r := s.hostRead path page o
    let t := r.2.readWords path page os
    (r.1.getD 0 :: t.1, t.2)

/-- Writes of words one after another, up to the first that is refused. -/
def State.writeWords (s : State) (path : Path) (page : Nat) : List (Nat × Nat) → State × Option Verdict
  | [] => (s, none)
  | e :: es =>
    let r := s.hostWrite path page e.1 e.2
    match r.2 with
    | some ⟨.ok, d⟩ =>
      match es with
      | [] => (r.1, some ⟨.ok, d⟩)
      | _ => r.1.writeWords path page es
    | some v => (r.1, some v)
    | none => r.1.writeWords path page es

/-- The four words of a 128-bit access. -/
def quadWords (off v : Nat) : List (Nat × Nat) := (List.range 4).map (fun k => (off + 4 * k, v / 2 ^ (32 * k) % 2 ^ 32))

/-- Words put together, the first lowest. -/
def joinWords (l : List Nat) : Nat := leNat 32 l

/-! ### PCIe (R29, R30, R48) -/

/-- BAD_ACCESS (R30): sizes other than 4 and 8 bytes, or unaligned. -/
def State.badAccess (s : State) (addr size : Nat) (isRead : Bool) : State :=
  if !s.pcieUp ∨ s.stage = 0 ∨ ((size = 4 ∨ size = 8) ∧ addr % size = 0) then s
  else
    let s1 := (s.err pHOSTQ 0).incSat pHOSTQ HOSTQ.BAD_ACCESS_COUNT.COUNT
    if isRead then s1.emit .unsupported else s1

/-! ### SPI (R32) -/

/-- Whether the address of an SPI frame has zeros where it must. -/
def spiAddrOk (addr : Nat) : Bool := !bitOf addr 26 && (bitOf addr 27 || bitsOf addr 25 20 == 0)

/-- Words written by an SPI frame. -/
def State.spiWrite (s : State) (addr : Nat) (data : List Nat) : State :=
  let w := bitsOf addr 31 28
  let o := bitsOf addr 25 0
  s.forEach data.zipIdx (fun e s =>
    let a := o + 4 * e.2
    if bitOf addr 27 then
      if a - a % 4 < 2 ^ 26 then s.bar2Write (a - a % 4) (leDigits 8 4 e.1) else s
    else if a < 2 ^ 20 then s.wrote (.spi w) (a / 4096) (a % 4096) e.1 else s)

/-- A read of BAR2 (R48): banks and Course table as they stand, zero above; little-endian (R4). The table has no row for such a read from
PCIe; SPI makes them. -/
def State.bar2Read (s : State) (a n : Nat) : Nat := if courseBase + 0x20000 ≤ a then 0 else s.memNum a n

/-- Words read by an SPI frame. -/
def State.spiRead (s : State) (addr n : Nat) : List Nat × State :=
  let w := bitsOf addr 31 28
  let o := bitsOf addr 25 0
  (List.range n).foldl (fun acc k =>
    let a := o + 4 * k
    if bitOf addr 27 then (acc.1 ++ [acc.2.bar2Read (a - a % 4) 4], acc.2)
    else if a < 2 ^ 20 then
      let r := acc.2.hostRead (.spi w) (a / 4096) (a % 4096)
      (acc.1 ++ [r.1.getD 0], r.2)
    else (acc.1 ++ [0], acc.2)) ([], s)

/-- One SPI transaction: whole words of data written, or words read (R32, R316). -/
def State.spi (s : State) (cmd addr : Nat) (data : List Nat) (nread : Nat) : State :=
  if !s.power.good then s
  else if cmd = 2 then if s.stage = 0 ∨ !spiAddrOk addr then s else s.spiWrite addr data
  else if cmd = 0x0B then
    if s.stage = 0 then s.emit (.serial (List.replicate nread 0xFFFFFFFF))
    else if !spiAddrOk addr then s
    else
      let r := s.spiRead addr nread
      r.2.emit (.serial r.1)
  else s

/-! ### I2C (R292) -/

/-- One I2C frame to the Eave: whole words of data bytes written from an offset, or bytes read. -/
def State.i2c (s : State) (off : Nat) (data : List Nat) (nread : Nat) : State :=
  if 0xFFF < off ∨ off % 4 ≠ 0 then s
  else
    let n := data.length / 4
    let s1 := s.forEach ((List.range n).filter (fun k => decide (off + 4 * k < 4096))) (fun k s =>
      s.wrote .i2c pEAVE (off + 4 * k) (leNat 8 ((data.drop (4 * k)).take 4)))
    if nread = 0 then s1
    else
      let r := s1.readWords .i2c pEAVE (((List.range ((nread + 3) / 4)).map (fun k => off + 4 * k)).filter (fun o => decide (o < 4096)))
      r.2.emit (.serial ((r.1.flatMap (fun w => leDigits 8 4 w)).take nread))

/-! ### COMMAND rings (R52) -/

/-- Whether the next element of a COMMAND ring executes now: the ring runs and holds one, and its COMPLETION ring takes the
answer. -/
def State.commandReady (s : State) (r : Nat) : Bool :=
  let q := s.ringBind r
  s.ringKind r == 2 && s.ringOn r && !s.ringStopped r &&
    s.get pHOSTQ (HOSTQ.DOORBELL.HOST_IDX r) != s.get pHOSTQ (HOSTQ.DEV_IDX.DEV_IDX r) &&
    s.ringKind q == 3 && s.ringOn q && (s.ringStopped q || ((s.ring q).held.isEmpty && s.ringRoom q != 0))

/-- The element is consumed, and its completion written. -/
def State.complete (s : State) (r tag op off data : Nat) (v : Verdict) : State :=
  let s1 := (s.incWrap pHOSTQ (HOSTQ.DEV_IDX.DEV_IDX r)).ringWriteback r
  s1.ringRecord (s.ringBind r) [packRec [(192, 64, s.slotNo), (64, 128, data), (32, 16, v.detailOf off), (16, 16, tag), (8, 4, v.res.code), (0, 8, op)]]

/-- A COMMAND element whose effect is `f`: a new state, the data read, and a result. -/
def State.commandRun (s : State) (r tag op off : Nat) (f : State → State × Nat × Verdict) : State :=
  if s.commandReady r then
    let x := f s
    x.1.complete r tag op off x.2.1 x.2.2
  else s

end Sys2Proof.Machine
end

