-- ==== Sys2Proof/Machine/Rows.lean ====
section
/-! DEFINITION. The commands that a host path sends: each is the write of a register, or a read, a ring's element or a
transaction of a bus, judged and reported as the pipeline of Host.lean says. -/

namespace Sys2Proof.Machine

/-! ### Accesses (R17, R30, R32, R39, R48, R292) -/

/-- REGISTER_WRITE (R39). -/
def execRegisterWrite (path : Path) (page : Nat) (off : Nat) (v : Nat) (s : State) : Host.Outcome State Fault Refusal :=
  guarded (.registerWrite path page off v) s (fun s => s.wrote path page off v)

/-- STAGED_WORD_WRITE (R17: a lower word is staged). -/
def execStagedWordWrite (path : Path) (page : Nat) (off : Nat) (v : Nat) (s : State) : Host.Outcome State Fault Refusal :=
  guarded (.stagedWordWrite path page off v) s (fun s => s.wrote path page off v)

/-- LATCHING_READ (R17): the read's word is returned to its path. -/
def execLatchingRead (path : Path) (page off : Nat) (s : State) : Host.Outcome State Fault Refusal :=
  guarded (.latchingRead path page off) s (fun s =>
    let r := s.hostRead path page off
    match r.1 with
    | some v => r.2.emit (.readData path page off v)
    | none => r.2)

/-- BAD_ACCESS (R30). -/
def execBadAccess (addr size : Nat) (isRead : Bool) (s : State) : Host.Outcome State Fault Refusal :=
  guarded (.badAccess addr size isRead) s (fun s => s.badAccess addr size isRead)

/-- BAR2_WRITE (R48). -/
def execBar2Write (off : Nat) (bytes : List Nat) (s : State) : Host.Outcome State Fault Refusal :=
  guarded (.bar2Write off bytes) s (fun s => if s.pcieUp ∧ s.stage ≠ 0 then s.bar2Write off bytes else s)

/-- SPI_TRANSACTION (R32). -/
def execSpiTransaction (cmd addr : Nat) (data : List Nat) (nread : Nat) (s : State) : Host.Outcome State Fault Refusal :=
  guarded (.spiTransaction cmd addr data nread) s (fun s => s.spi cmd addr data nread)

/-- I2C_TRANSACTION (R292). -/
def execI2cTransaction (off : Nat) (data : List Nat) (nread : Nat) (s : State) : Host.Outcome State Fault Refusal :=
  guarded (.i2cTransaction off data nread) s (fun s => s.i2c off data nread)

/-! ### COMMAND elements (R17, R46, R52) -/

/-- COMMAND_WRITE32 (R52). -/
def execCommandWrite32 (r tag page off v : Nat) (s : State) : Host.Outcome State Fault Refusal :=
  guarded (.commandWrite32 r tag page off v) s (fun s => s.commandRun r tag 1 off (fun s =>
    let w := s.hostWrite (.ring r) page off v
    (w.1, 0, w.2.getD ⟨.ok, none⟩)))

/-- COMMAND_READ32 (R52). -/
def execCommandRead32 (r tag page off : Nat) (s : State) : Host.Outcome State Fault Refusal :=
  guarded (.commandRead32 r tag page off) s (fun s => s.commandRun r tag 2 off (fun s =>
    let w := s.hostRead (.ring r) page off
    (w.2, w.1.getD 0, ⟨.ok, none⟩)))

/-- COMMAND_WRITE128 (R17, R52): four words in ascending order. -/
def execCommandWrite128 (r tag page off v : Nat) (s : State) : Host.Outcome State Fault Refusal :=
  guarded (.commandWrite128 r tag page off v) s (fun s => s.commandRun r tag 3 off (fun s =>
    let w := s.writeWords (.ring r) page (quadWords off v)
    (w.1, 0, w.2.getD ⟨.ok, none⟩)))

/-- COMMAND_READ128 (R17, R52): four words in ascending order. -/
def execCommandRead128 (r tag page off : Nat) (s : State) : Host.Outcome State Fault Refusal :=
  guarded (.commandRead128 r tag page off) s (fun s => s.commandRun r tag 4 off (fun s =>
    let w := s.readWords (.ring r) page ((quadWords off 0).map (·.1))
    (w.2, joinWords w.1, ⟨.ok, none⟩)))

/-- FENCE (R52): every earlier command of the ring is complete when it is reached. -/
def execFence (r tag : Nat) (s : State) : Host.Outcome State Fault Refusal :=
  guarded (.fence r tag) s (fun s => s.commandRun r tag 5 0 (fun s => (s, 0, ⟨.ok, none⟩)))

/-- LEASE_KICK (R46, R52). -/
def execLeaseKick (r tag : Nat) (s : State) : Host.Outcome State Fault Refusal :=
  guarded (.leaseKick r tag) s (fun s => s.commandRun r tag 6 0 (fun s => (s.leaseRenew (s.resOwner 6 r), 0, ⟨.ok, none⟩)))

/-- COMMAND_NOP (R52). -/
def execCommandNop (r tag : Nat) (s : State) : Host.Outcome State Fault Refusal :=
  guarded (.commandNop r tag) s (fun s => s.commandRun r tag 7 0 (fun s => (s, 0, ⟨.ok, none⟩)))

/-! ### Writes of one register -/

/-- GO (R24, R372: COMMIT_CTL with GO set). -/
def execGo (path : Path) (page : Nat) (lane : Nat) (v : Nat) (s : State) : Host.Outcome State Fault Refusal :=
  guarded (.go path page lane v) s (fun s => s.wrote path page (ctxOff page lane) (setBit v 4))

/-- COMMIT_ABORT (R24, R372: COMMIT_CTL with ABORT set). -/
def execCommitAbort (path : Path) (page : Nat) (lane : Nat) (v : Nat) (s : State) : Host.Outcome State Fault Refusal :=
  guarded (.commitAbort path page lane v) s (fun s => s.wrote path page (ctxOff page lane) (setBit v 5))

/-- COMMIT_MODE_CHANGE (R24, R372: COMMIT_CTL with a MODE). -/
def execCommitModeChange (path : Path) (page : Nat) (lane : Nat) (v : Nat) (s : State) : Host.Outcome State Fault Refusal :=
  guarded (.commitModeChange path page lane v) s (fun s => s.wrote path page (ctxOff page lane) v)

/-- CG_ARM (R25, R26). -/
def execCgArm (path : Path) (v : Nat) (s : State) : Host.Outcome State Fault Refusal :=
  guarded (.cgArm path v) s (fun s => s.wrote path pDEV DEV.CG_ARM.off v)

/-- CG_DISARM (R25, R27). -/
def execCgDisarm (path : Path) (v : Nat) (s : State) : Host.Outcome State Fault Refusal :=
  guarded (.cgDisarm path v) s (fun s => s.wrote path pDEV DEV.CG_DISARM.off v)

/-- WINDOW_BIND (R35). -/
def execWindowBind (path : Path) (off : Nat) (v : Nat) (s : State) : Host.Outcome State Fault Refusal :=
  guarded (.windowBind path off v) s (fun s => s.wrote path pOWN off v)

/-- OWNER_WRITE (R43). -/
def execOwnerWrite (path : Path) (page : Nat) (v : Nat) (s : State) : Host.Outcome State Fault Refusal :=
  guarded (.ownerWrite path page v) s (fun s => s.wrote path page 0x00C v)

/-- CLAIM (R43: what CLAIM_ARG of the path names). -/
def execClaim (path : Path) (res : Nat) (s : State) : Host.Outcome State Fault Refusal :=
  guarded (.claim path res) s (fun s => s.wrote path pOWN OWN.CLAIM_CMD.off (packRec [(8, 8, res), (0, 8, 1)]))

/-- RELEASE (R43). -/
def execRelease (path : Path) (res : Nat) (s : State) : Host.Outcome State Fault Refusal :=
  guarded (.release path res) s (fun s => s.wrote path pOWN OWN.CLAIM_CMD.off (packRec [(8, 8, res), (0, 8, 2)]))

/-- QUERY (R45). -/
def execQuery (path : Path) (res : Nat) (agent : Nat) (s : State) : Host.Outcome State Fault Refusal :=
  guarded (.query path res agent) s (fun s => s.wrote path pOWN OWN.CLAIM_CMD.off (packRec [(16, 16, agent), (8, 8, res), (0, 8, 3)]))

/-- FORCE_RELEASE (R44). -/
def execForceRelease (path : Path) (res : Nat) (agent : Nat) (s : State) : Host.Outcome State Fault Refusal :=
  guarded (.forceRelease path res agent) s (fun s => s.wrote path pOWN OWN.CLAIM_CMD.off (packRec [(16, 16, agent), (8, 8, res), (0, 8, 4)]))

/-- LEASE_PERIOD_WRITE (R45, R46). -/
def execLeasePeriodWrite (path : Path) (w : Nat) (v : Nat) (s : State) : Host.Outcome State Fault Refusal :=
  guarded (.leasePeriodWrite path w v) s (fun s => s.wrote path pOWN (OWN.LEASE_PERIOD.off w) v)

/-- KICK (R46: LEASE_CTL with KICK set). -/
def execKick (path : Path) (w : Nat) (v : Nat) (s : State) : Host.Outcome State Fault Refusal :=
  guarded (.kick path w v) s (fun s => s.wrote path pOWN (OWN.LEASE_CTL.off w) (setBit v 8))

/-- RING_ENABLE (R49, R53: RING_CTRL with ENABLE set). -/
def execRingEnable (path : Path) (r : Nat) (v : Nat) (s : State) : Host.Outcome State Fault Refusal :=
  guarded (.ringEnable path r v) s (fun s => s.wrote path pHOSTQ (HOSTQ.RING_CTRL.off r) (setBit v 31))

/-- RING_DISABLE (R53: RING_CTRL with ENABLE clear). -/
def execRingDisable (path : Path) (r : Nat) (v : Nat) (s : State) : Host.Outcome State Fault Refusal :=
  guarded (.ringDisable path r v) s (fun s => s.wrote path pHOSTQ (HOSTQ.RING_CTRL.off r) (clrBit v 31))

/-- RING_CFG_WRITE (R49, R50). -/
def execRingCfgWrite (path : Path) (r : Nat) (v : Nat) (s : State) : Host.Outcome State Fault Refusal :=
  guarded (.ringCfgWrite path r v) s (fun s => s.wrote path pHOSTQ (HOSTQ.RING_CFG.off r) v)

/-- DOORBELL (R51). -/
def execDoorbell (path : Path) (r : Nat) (v : Nat) (s : State) : Host.Outcome State Fault Refusal :=
  guarded (.doorbell path r v) s (fun s => s.wrote path pHOSTQ (HOSTQ.DOORBELL.off r) v)

/-- FREEZE (R56). -/
def execFreeze (path : Path) (s : State) : Host.Outcome State Fault Refusal :=
  guarded (.freeze path) s (fun s => s.wrote path pDEV DEV.SNAP_CTL.off 1)

/-- SNAPSHOT_RELEASE (R56). -/
def execSnapshotRelease (path : Path) (s : State) : Host.Outcome State Fault Refusal :=
  guarded (.snapshotRelease path) s (fun s => s.wrote path pDEV DEV.SNAP_CTL.off 2)

/-- SWAP_LANE (R74, R79). -/
def execSwapLane (path : Path) (q : Nat) (lane : Nat) (s : State) : Host.Outcome State Fault Refusal :=
  guarded (.swapLane path q lane) s (fun s => s.wrote path (pQUAD q) QUAD.SWAP_CMD.off (packRec [(8, 4, lane), (0, 8, 1)]))

/-- RESWEEP_SPARE (R78, R79). -/
def execResweepSpare (path : Path) (q : Nat) (s : State) : Host.Outcome State Fault Refusal :=
  guarded (.resweepSpare path q) s (fun s => s.wrote path (pQUAD q) QUAD.SWAP_CMD.off 2)

/-- RETEST (R78, R79). -/
def execRetest (path : Path) (q : Nat) (e : Nat) (s : State) : Host.Outcome State Fault Refusal :=
  guarded (.retest path q e) s (fun s => s.wrote path (pQUAD q) QUAD.SWAP_CMD.off (packRec [(8, 4, e), (0, 8, 3)]))

/-- LOOP_ENABLE (R82). -/
def execLoopEnable (path : Path) (v : Nat) (s : State) : Host.Outcome State Fault Refusal :=
  guarded (.loopEnable path v) s (fun s => s.wrote path pCAL CAL.LOOP_CFG.off v)

/-- CHANNEL_FLUSH (R91: CONTROL with FLUSH set). -/
def execChannelFlush (path : Path) (c : Nat) (s : State) : Host.Outcome State Fault Refusal :=
  guarded (.channelFlush path c) s (fun s => s.wrote path (pCHAN c) 0x014 (s.controlWith (pCHAN c) 0))

/-- CHANNEL_SAFE_EXIT (R98: CONTROL with SAFE_EXIT set). -/
def execChannelSafeExit (path : Path) (c : Nat) (s : State) : Host.Outcome State Fault Refusal :=
  guarded (.channelSafeExit path c) s (fun s => s.wrote path (pCHAN c) 0x014 (s.controlWith (pCHAN c) 30))

/-- TL_SRC_WRITE (R101, R102). -/
def execTlSrcWrite (path : Path) (n : Nat) (v : Nat) (s : State) : Host.Outcome State Fault Refusal :=
  guarded (.tlSrcWrite path n v) s (fun s => s.wrote path pTRIG (TRIG.TL_SRC.off n) v)

/-- TL_SHAPE_WRITE (R100). -/
def execTlShapeWrite (path : Path) (n : Nat) (v : Nat) (s : State) : Host.Outcome State Fault Refusal :=
  guarded (.tlShapeWrite path n v) s (fun s => s.wrote path pTRIG (TRIG.TL_SHAPE.off n) v)

/-- FIRE_NOW (R102). -/
def execFireNow (path : Path) (n : Nat) (s : State) : Host.Outcome State Fault Refusal :=
  guarded (.fireNow path n) s (fun s => s.wrote path pTRIG TRIG.HOST_FIRE.off (packRec [(8, 6, n), (0, 8, 1)]))

/-- FIRE_AT (R102). -/
def execFireAt (path : Path) (n : Nat) (s : State) : Host.Outcome State Fault Refusal :=
  guarded (.fireAt path n) s (fun s => s.wrote path pTRIG TRIG.HOST_FIRE.off (packRec [(8, 6, n), (0, 8, 2)]))

/-- START (R127). -/
def execStart (path : Path) (q : Nat) (s : State) : Host.Outcome State Fault Refusal :=
  guarded (.start path q) s (fun s => s.wrote path (pSEQ q) SEQ.CMD.off 1)

/-- STOP_AT_END (R128). -/
def execStopAtEnd (path : Path) (q : Nat) (s : State) : Host.Outcome State Fault Refusal :=
  guarded (.stopAtEnd path q) s (fun s => s.wrote path (pSEQ q) SEQ.CMD.off 2)

/-- STOP_NOW (R128). -/
def execStopNow (path : Path) (q : Nat) (s : State) : Host.Outcome State Fault Refusal :=
  guarded (.stopNow path q) s (fun s => s.wrote path (pSEQ q) SEQ.CMD.off 3)

/-- JUMP (R117). -/
def execJump (path : Path) (q : Nat) (s : State) : Host.Outcome State Fault Refusal :=
  guarded (.jump path q) s (fun s => s.wrote path (pSEQ q) SEQ.CMD.off 4)

/-- CLEAR_REQUEST (R117). -/
def execClearRequest (path : Path) (q : Nat) (s : State) : Host.Outcome State Fault Refusal :=
  guarded (.clearRequest path q) s (fun s => s.wrote path (pSEQ q) SEQ.CMD.off 5)

/-- DISARM (R127, R128). -/
def execDisarm (path : Path) (q : Nat) (s : State) : Host.Outcome State Fault Refusal :=
  guarded (.disarm path q) s (fun s => s.wrote path (pSEQ q) SEQ.CMD.off 6)

/-- REFILL_SUBMIT (R123). -/
def execRefillSubmit (path : Path) (q : Nat) (s : State) : Host.Outcome State Fault Refusal :=
  guarded (.refillSubmit path q) s (fun s => s.wrote path (pSEQ q) SEQ.REFILL_CMD.off 1)

/-- REFILL_FLUSH (R123, R133). -/
def execRefillFlush (path : Path) (q : Nat) (s : State) : Host.Outcome State Fault Refusal :=
  guarded (.refillFlush path q) s (fun s => s.wrote path (pSEQ q) SEQ.REFILL_CMD.off 2)

/-- READY_SET (R121, R134). -/
def execReadySet (path : Path) (s : State) : Host.Outcome State Fault Refusal :=
  guarded (.readySet path) s (fun s => s.wrote path pCOURSE COURSE.READY_CMD.off 1)

/-- READY_CLEAR (R121, R134). -/
def execReadyClear (path : Path) (s : State) : Host.Outcome State Fault Refusal :=
  guarded (.readyClear path) s (fun s => s.wrote path pCOURSE COURSE.READY_CMD.off 2)

/-- VALIDATE (R114, R134). -/
def execValidate (path : Path) (s : State) : Host.Outcome State Fault Refusal :=
  guarded (.validate path) s (fun s => s.wrote path pCOURSE COURSE.READY_CMD.off 3)

/-- SUBMIT (R137). -/
def execSubmit (path : Path) (q : Nat) (s : State) : Host.Outcome State Fault Refusal :=
  guarded (.submit path q) s (fun s => s.wrote path pSCHED SCHED.SUBMIT_CMD.off (packRec [(8, 4, q), (0, 8, 1)]))

/-- FLUSH (R146). -/
def execFlush (path : Path) (q : Nat) (s : State) : Host.Outcome State Fault Refusal :=
  guarded (.flush path q) s (fun s => s.wrote path pSCHED SCHED.SUBMIT_CMD.off (packRec [(8, 4, q), (0, 8, 2)]))

/-- QUEUE_SAFE_EXIT (R143). -/
def execQueueSafeExit (path : Path) (s : State) : Host.Outcome State Fault Refusal :=
  guarded (.queueSafeExit path) s (fun s => s.wrote path pSCHED 0x014 (s.controlWith pSCHED 30))

/-- TICK_ENABLE (R149). -/
def execTickEnable (path : Path) (n : Nat) (v : Nat) (s : State) : Host.Outcome State Fault Refusal :=
  guarded (.tickEnable path n v) s (fun s => s.wrote path pSCHED (SCHED.TICK_CFG.off n) v)

/-- PHASE_ENABLE (R150, R151). -/
def execPhaseEnable (path : Path) (t : Nat) (v : Nat) (s : State) : Host.Outcome State Fault Refusal :=
  guarded (.phaseEnable path t v) s (fun s => s.wrote path (pPHASE t) 0x014 v)

/-- RESTART (R151: CONTROL with RESTART set). -/
def execRestart (path : Path) (t : Nat) (s : State) : Host.Outcome State Fault Refusal :=
  guarded (.restart path t) s (fun s => s.wrote path (pPHASE t) 0x014 (s.controlWith (pPHASE t) 0))

/-- RECAL (R170: CONTROL with RECAL set). -/
def execRecal (path : Path) (i : Nat) (s : State) : Host.Outcome State Fault Refusal :=
  guarded (.recal path i) s (fun s => s.wrote path (pTIN i) 0x014 (s.controlWith (pTIN i) 0))

/-- SESSION_ENABLE (R178). -/
def execSessionEnable (path : Path) (k : Nat) (v : Nat) (s : State) : Host.Outcome State Fault Refusal :=
  guarded (.sessionEnable path k v) s (fun s => s.wrote path pTDC (TDC.MS_CFG.off k) v)

/-- GATE_ENABLE (R188). -/
def execGateEnable (path : Path) (g : Nat) (v : Nat) (s : State) : Host.Outcome State Fault Refusal :=
  guarded (.gateEnable path g v) s (fun s => s.wrote path pTDC (TDC.FG_CFG.off g) v)

/-- ARM (R179). -/
def execArm (path : Path) (k : Nat) (s : State) : Host.Outcome State Fault Refusal :=
  guarded (.arm path k) s (fun s => s.wrote path pTDC TDC.SESSION_CMD.off (packRec [(8, 5, k), (0, 8, 1)]))

/-- SESSION_ABORT (R182). -/
def execSessionAbort (path : Path) (k : Nat) (s : State) : Host.Outcome State Fault Refusal :=
  guarded (.sessionAbort path k) s (fun s => s.wrote path pTDC TDC.SESSION_CMD.off (packRec [(8, 5, k), (0, 8, 2)]))

/-- GATE_START (R188). -/
def execGateStart (path : Path) (g : Nat) (s : State) : Host.Outcome State Fault Refusal :=
  guarded (.gateStart path g) s (fun s => s.wrote path pTDC TDC.SESSION_CMD.off (packRec [(8, 5, 16 + g), (0, 8, 3)]))

/-- REF_ENABLE (R208, R211). -/
def execRefEnable (path : Path) (k : Nat) (v : Nat) (s : State) : Host.Outcome State Fault Refusal :=
  guarded (.refEnable path k v) s (fun s => s.wrote path pREFSEL (REFSEL.REF_CFG.off k) v)

/-- PUSH (R210). -/
def execPush (path : Path) (k : Nat) (s : State) : Host.Outcome State Fault Refusal :=
  guarded (.push path k) s (fun s => s.wrote path pREFSEL REFSEL.PTP_OBS_CMD.off (packRec [(8, 3, k), (0, 8, 1)]))

/-- ACCEPT_SLEW (R213). -/
def execAcceptSlew (path : Path) (k : Nat) (s : State) : Host.Outcome State Fault Refusal :=
  guarded (.acceptSlew path k) s (fun s => s.wrote path pREFSEL REFSEL.SEL_CMD.off (packRec [(8, 3, k), (0, 8, 1)]))

/-- ACCEPT_STEP (R213, R230). -/
def execAcceptStep (path : Path) (k : Nat) (s : State) : Host.Outcome State Fault Refusal :=
  guarded (.acceptStep path k) s (fun s => s.wrote path pREFSEL REFSEL.SEL_CMD.off (packRec [(8, 3, k), (0, 8, 2)]))

/-- REJECT (R213). -/
def execReject (path : Path) (k : Nat) (s : State) : Host.Outcome State Fault Refusal :=
  guarded (.reject path k) s (fun s => s.wrote path pREFSEL REFSEL.SEL_CMD.off (packRec [(8, 3, k), (0, 8, 3)]))

/-- CLEAR_SUSPECT (R211, R216). -/
def execClearSuspect (path : Path) (k : Nat) (s : State) : Host.Outcome State Fault Refusal :=
  guarded (.clearSuspect path k) s (fun s => s.wrote path pREFSEL REFSEL.SEL_CMD.off (packRec [(8, 3, k), (0, 8, 4)]))

/-- REQUALIFY (R211, R231). -/
def execRequalify (path : Path) (k : Nat) (s : State) : Host.Outcome State Fault Refusal :=
  guarded (.requalify path k) s (fun s => s.wrote path pREFSEL REFSEL.SEL_CMD.off (packRec [(8, 3, k), (0, 8, 5)]))

/-- SERVO_MODE_WRITE (R214). -/
def execServoModeWrite (path : Path) (v : Nat) (s : State) : Host.Outcome State Fault Refusal :=
  guarded (.servoModeWrite path v) s (fun s => s.wrote path pSERVO SERVO.SERVO_CFG.off v)

/-- STEP (R218). -/
def execStep (path : Path) (s : State) : Host.Outcome State Fault Refusal :=
  guarded (.step path) s (fun s => s.wrote path pSERVO SERVO.STEP_CMD.off 1)

/-- STEP_PROPOSED (R216, R218). -/
def execStepProposed (path : Path) (s : State) : Host.Outcome State Fault Refusal :=
  guarded (.stepProposed path) s (fun s => s.wrote path pSERVO SERVO.STEP_CMD.off 2)

/-- SLEW_PROPOSED (R216, R218). -/
def execSlewProposed (path : Path) (s : State) : Host.Outcome State Fault Refusal :=
  guarded (.slewProposed path) s (fun s => s.wrote path pSERVO SERVO.STEP_CMD.off 3)

/-- APLL_A_ENABLE (R221, R222, R235). -/
def execApllAEnable (path : Path) (v : Nat) (s : State) : Host.Outcome State Fault Refusal :=
  guarded (.apllAEnable path v) s (fun s => s.wrote path pAPLL_A 0x014 v)

/-- FREQ_CMD_SET (R223). -/
def execFreqCmdSet (path : Path) (s : State) : Host.Outcome State Fault Refusal :=
  guarded (.freqCmdSet path) s (fun s => s.wrote path pAPLL_A APLL_A.FREQ_CMD.off 1)

/-- RUN_PROFILE (R225). -/
def execRunProfile (path : Path) (s : State) : Host.Outcome State Fault Refusal :=
  guarded (.runProfile path) s (fun s => s.wrote path pAPLL_A APLL_A.FREQ_CMD.off 2)

/-- ABORT_RAMP (R223). -/
def execAbortRamp (path : Path) (s : State) : Host.Outcome State Fault Refusal :=
  guarded (.abortRamp path) s (fun s => s.wrote path pAPLL_A APLL_A.FREQ_CMD.off 3)

/-- RELOCK (R224). -/
def execRelock (path : Path) (s : State) : Host.Outcome State Fault Refusal :=
  guarded (.relock path) s (fun s => s.wrote path pAPLL_A APLL_A.FREQ_CMD.off 4)

/-- AUX_ENABLE (R228). -/
def execAuxEnable (path : Path) (n : Nat) (v : Nat) (s : State) : Host.Outcome State Fault Refusal :=
  guarded (.auxEnable path n v) s (fun s => s.wrote path (pAUX n) 0x014 v)

/-- AUX_SAFE_EXIT (R228). -/
def execAuxSafeExit (path : Path) (n : Nat) (s : State) : Host.Outcome State Fault Refusal :=
  guarded (.auxSafeExit path n) s (fun s => s.wrote path (pAUX n) 0x014 (s.controlWith (pAUX n) 30))

/-- SWITCH (R247). -/
def execSwitch (path : Path) (s : State) : Host.Outcome State Fault Refusal :=
  guarded (.switch path) s (fun s => s.wrote path pDOMAIN DOMAIN.DOM_CMD.off 1)

/-- PATH_ACCEPT (R248, R249). -/
def execPathAccept (path : Path) (s : State) : Host.Outcome State Fault Refusal :=
  guarded (.pathAccept path) s (fun s => s.wrote path pDOMAIN DOMAIN.DOM_CMD.off 2)

/-- PATH_CLEAR (R248, R249). -/
def execPathClear (path : Path) (s : State) : Host.Outcome State Fault Refusal :=
  guarded (.pathClear path) s (fun s => s.wrote path pDOMAIN DOMAIN.DOM_CMD.off 3)

/-- ISSUE (R265). -/
def execIssue (path : Path) (p : Nat) (s : State) : Host.Outcome State Fault Refusal :=
  guarded (.issue path p) s (fun s => s.wrote path (pRDG p) RDG.TRIG_CMD.off 1)

/-- MGMT_READ32 (R266). -/
def execMgmtRead32 (path : Path) (p : Nat) (s : State) : Host.Outcome State Fault Refusal :=
  guarded (.mgmtRead32 path p) s (fun s => s.wrote path (pRDG p) RDG.MGMT_CMD.off 1)

/-- MGMT_WRITE32 (R266). -/
def execMgmtWrite32 (path : Path) (p : Nat) (s : State) : Host.Outcome State Fault Refusal :=
  guarded (.mgmtWrite32 path p) s (fun s => s.wrote path (pRDG p) RDG.MGMT_CMD.off 2)

/-- MGMT_READ128 (R266). -/
def execMgmtRead128 (path : Path) (p : Nat) (s : State) : Host.Outcome State Fault Refusal :=
  guarded (.mgmtRead128 path p) s (fun s => s.wrote path (pRDG p) RDG.MGMT_CMD.off 3)

/-- MGMT_WRITE128 (R266). -/
def execMgmtWrite128 (path : Path) (p : Nat) (s : State) : Host.Outcome State Fault Refusal :=
  guarded (.mgmtWrite128 path p) s (fun s => s.wrote path (pRDG p) RDG.MGMT_CMD.off 4)

/-- ETH_DOORBELL (R51, R270). -/
def execEthDoorbell (path : Path) (p : Nat) (rx : Bool) (v : Nat) (s : State) : Host.Outcome State Fault Refusal :=
  guarded (.ethDoorbell path p rx v) s (fun s => s.wrote path (pETH p) (if rx then ETH.RXR_DOORBELL.off else ETH.TXR_DOORBELL.off) v)

/-- CAL_CMD_SET (R280). -/
def execCalCmdSet (path : Path) (s : State) : Host.Outcome State Fault Refusal :=
  guarded (.calCmdSet path) s (fun s => s.wrote path pEAVE EAVE.CAL_CMD.off 1)

/-- SYNC_NOW (R281). -/
def execSyncNow (path : Path) (s : State) : Host.Outcome State Fault Refusal :=
  guarded (.syncNow path) s (fun s => s.wrote path pEAVE EAVE.CAL_CMD.off 2)

/-- INVALIDATE (R280). -/
def execInvalidate (path : Path) (s : State) : Host.Outcome State Fault Refusal :=
  guarded (.invalidate path) s (fun s => s.wrote path pEAVE EAVE.CAL_CMD.off 3)

/-- PWR_ON (R288). -/
def execPwrOn (path : Path) (s : State) : Host.Outcome State Fault Refusal :=
  guarded (.pwrOn path) s (fun s => s.wrote path pEAVE EAVE.PWR_CMD.off 1)

/-- PWR_OFF (R288). -/
def execPwrOff (path : Path) (s : State) : Host.Outcome State Fault Refusal :=
  guarded (.pwrOff path) s (fun s => s.wrote path pEAVE EAVE.PWR_CMD.off 2)

/-- ALERT_SET (R290). -/
def execAlertSet (path : Path) (s : State) : Host.Outcome State Fault Refusal :=
  guarded (.alertSet path) s (fun s => s.wrote path pEAVE EAVE.PWR_CMD.off 3)

/-- ALERT_CLR (R290). -/
def execAlertClr (path : Path) (s : State) : Host.Outcome State Fault Refusal :=
  guarded (.alertClr path) s (fun s => s.wrote path pEAVE EAVE.PWR_CMD.off 4)

/-- LOG_CLEAR (R291). -/
def execLogClear (path : Path) (s : State) : Host.Outcome State Fault Refusal :=
  guarded (.logClear path) s (fun s => s.wrote path pEAVE EAVE.LOG_CMD.off 1)

/-- ERR_INJECT (R304). -/
def execErrInject (path : Path) (page : Nat) (v : Nat) (s : State) : Host.Outcome State Fault Refusal :=
  guarded (.errInject path page v) s (fun s => s.wrote path page 0x028 v)

/-- INJECT (R304). -/
def execInject (path : Path) (k : Nat) (line : Bool) (s : State) : Host.Outcome State Fault Refusal :=
  guarded (.inject path k line) s (fun s => s.wrote path pGUTTER GUTTER.GUTTER_CMD.off (packRec [(30, 1, b2n line), (16, 7, k), (0, 8, 4)]))

/-- CLEAR_PAIR (R306, R307). -/
def execClearPair (path : Path) (s : State) : Host.Outcome State Fault Refusal :=
  guarded (.clearPair path) s (fun s => s.wrote path pGUTTER GUTTER.GUTTER_CMD.off 1)

/-- ENTER_SAFE (R301). -/
def execEnterSafe (path : Path) (s : State) : Host.Outcome State Fault Refusal :=
  guarded (.enterSafe path) s (fun s => s.wrote path pGUTTER GUTTER.GUTTER_CMD.off 2)

/-- REINIT (R305). -/
def execReinit (path : Path) (s : State) : Host.Outcome State Fault Refusal :=
  guarded (.reinit path) s (fun s => s.wrote path pGUTTER GUTTER.GUTTER_CMD.off 3)

/-- DEVICE_SAFE_EXIT (R301). -/
def execDeviceSafeExit (path : Path) (s : State) : Host.Outcome State Fault Refusal :=
  guarded (.deviceSafeExit path) s (fun s => s.wrote path pGUTTER 0x014 (s.controlWith pGUTTER 30))

/-- FIRST_FAULT_CLEAR (R302). -/
def execFirstFaultClear (path : Path) (s : State) : Host.Outcome State Fault Refusal :=
  guarded (.firstFaultClear path) s (fun s => s.wrote path pGUTTER GUTTER.FF_INFO.off (2 ^ 31))

/-- DEVICE_RESET (R324). -/
def execDeviceReset (path : Path) (s : State) : Host.Outcome State Fault Refusal :=
  guarded (.deviceReset path) s (fun s => s.wrote path pDEV DEV.RESET_CMD.off 1)

/-- BEGIN (R330). -/
def execBegin (path : Path) (s : State) : Host.Outcome State Fault Refusal :=
  guarded (.begin path) s (fun s => s.wrote path pFLASH FLASH.FL_CMD.off 1)

/-- WRITE_WINDOW (R330). -/
def execWriteWindow (path : Path) (s : State) : Host.Outcome State Fault Refusal :=
  guarded (.writeWindow path) s (fun s => s.wrote path pFLASH FLASH.FL_CMD.off 2)

/-- ACTIVATE (R331). -/
def execActivate (path : Path) (s : State) : Host.Outcome State Fault Refusal :=
  guarded (.activate path) s (fun s => s.wrote path pFLASH FLASH.FL_CMD.off 5)

/-- ACTIVATE_AT_RESET (R331, R332). -/
def execActivateAtReset (path : Path) (s : State) : Host.Outcome State Fault Refusal :=
  guarded (.activateAtReset path) s (fun s => s.wrote path pFLASH FLASH.FL_CMD.off 6)

/-- CONFIRM (R341). -/
def execConfirm (path : Path) (s : State) : Host.Outcome State Fault Refusal :=
  guarded (.confirm path) s (fun s => s.wrote path pFLASH FLASH.FL_CMD.off 7)

/-- REVERT (R341, R342). -/
def execRevert (path : Path) (s : State) : Host.Outcome State Fault Refusal :=
  guarded (.revert path) s (fun s => s.wrote path pFLASH FLASH.FL_CMD.off 8)

/-- FL_ABORT (R330). -/
def execFlAbort (path : Path) (s : State) : Host.Outcome State Fault Refusal :=
  guarded (.flAbort path) s (fun s => s.wrote path pFLASH FLASH.FL_CMD.off 9)

/-- LOAD_MANIFEST (R333). -/
def execLoadManifest (path : Path) (s : State) : Host.Outcome State Fault Refusal :=
  guarded (.loadManifest path) s (fun s => s.wrote path pFLASH FLASH.FL_CMD.off 10)

/-- CLEAR_MANIFEST (R333). -/
def execClearManifest (path : Path) (s : State) : Host.Outcome State Fault Refusal :=
  guarded (.clearManifest path) s (fun s => s.wrote path pFLASH FLASH.FL_CMD.off 11)

/-- READ_LOG (R346, R350). -/
def execReadLog (path : Path) (s : State) : Host.Outcome State Fault Refusal :=
  guarded (.readLog path) s (fun s => s.wrote path pFLASH FLASH.FL_CMD.off 12)

/-- INSTALL_KEY (R347, R349). -/
def execInstallKey (path : Path) (s : State) : Host.Outcome State Fault Refusal :=
  guarded (.installKey path) s (fun s => s.wrote path pFLASH FLASH.FL_CMD.off 13)

/-- OWNER_ENROLL (R348). -/
def execOwnerEnroll (path : Path) (s : State) : Host.Outcome State Fault Refusal :=
  guarded (.ownerEnroll path) s (fun s => s.wrote path pFLASH FLASH.FL_CMD.off 14)

/-- A write of FL_CMD with what a DMA_WRITE or a FINISH finds. -/
def State.flashWrote (s : State) (path : Path) (code : Nat) (bytes : Option (List Nat)) (v : Option VerifyResult) : State :=
  (s.hostWrite_ path pFLASH FLASH.FL_CMD.off code { force := fun s a => s.forceRelease a, bytes := bytes, verify := v }).1

/-- DMA_WRITE (R330): `bytes` stand in host memory at FL_HOST_ADDR. -/
def execDmaWrite (path : Path) (bytes : List Nat) (s : State) : Host.Outcome State Fault Refusal :=
  guarded (.dmaWrite path bytes) s (fun s => s.flashWrote path 3 (some bytes) none)

/-- FINISH (R328, R330): `v` is what verification finds. -/
def execFinish (path : Path) (v : VerifyResult) (s : State) : Host.Outcome State Fault Refusal :=
  guarded (.finish path v) s (fun s => s.flashWrote path 4 none (some v))

end Sys2Proof.Machine
end

