-- ==== Sys2Proof/Machine/Remote.lean ====
section
/-! DEFINITION. Remote page access at a node: a MGMT request arrives, is checked, carried out as agent 0xFFFD and answered
(R259, R266). -/

namespace Sys2Proof.Machine

/-- The page access that a request asks for: the result and, for a read, the data. -/
def State.mgmtAccess (s : State) (c : MgmtCell) : State × Verdict × Nat :=
  if !s.flag pOWN OWN.REMOTE_CTL.REMOTE_ENABLE then (s, ⟨.denied, some 0⟩, 0)
  else if c.op = 1 then
    let r := s.hostRead .remote c.page c.offset
    (r.2, ⟨.ok, none⟩, r.1.getD 0)
  else if c.op = 2 then
    let r := s.hostWrite .remote c.page c.offset (c.data % 2 ^ 32)
    (r.1, r.2.getD ⟨.ok, none⟩, 0)
  else if c.op = 3 then
    let r := s.readWords .remote c.page ((quadWords c.offset 0).map (·.1))
    (r.2, ⟨.ok, none⟩, joinWords r.1)
  else if c.op = 4 then
    let r := s.writeWords .remote c.page (quadWords c.offset c.data)
    (r.1, r.2.getD ⟨.ok, none⟩, 0)
  else (s, ⟨.range, none⟩, 0)

/-- The COUNTER of an accepted request is kept, and its upper half stored when it changes. -/
def State.keepCounter (s : State) (n : Nat) : State :=
  let s1 := s.put (pRDG 0) RDG.COUNTER.COUNTER n
  { s1 with
    ridge := { s1.ridge with highest := some n }
    flash := { s1.flash with settings := { s1.flash.settings with counterHi := n / 2 ^ 32 } } }

/-- The answer to a request. -/
def State.replyTo (s : State) (c : MgmtCell) (v : Verdict) (data : Nat) : MgmtCell :=
  { c with scope := 0, upward := true, hops := 0, src := s.nodeId, dst := c.src, op := c.op % 128 + 128, result := v.res.code, data := data, tag := 0 }

/-- Answer a request upstream, under the same key and COUNTER. -/
def State.mgmtReply (s : State) (c : MgmtCell) (key : Nat) (v : Verdict) (data : Nat) : State :=
  match s.upPort with
  | none => s
  | some q => s.queueMgmt q (tagCell (s.replyTo c v data) key)

/-- A request addressed to this node: the key and the tag, then the counter, then the access. -/
def State.mgmtServe (s : State) (p : Nat) (c : MgmtCell) : State :=
  match s.tagKey c with
  | none => s.authFail p true
  | some key =>
    if s.ridge.highest.any (fun h => decide (c.counter ≤ h)) ∨ c.counter / 2 ^ 32 < s.flash.settings.counterHi then s.authFail p false
    else
      let r := (s.keepCounter c.counter).mgmtAccess c
      r.1.mgmtReply c key r.2.1 r.2.2

/-- A downward MGMT cell: one of this node's own has come round a loop; others go on downstream, and one for this node is
served. -/
def State.mgmtRx (s : State) (p : Nat) (c : MgmtCell) : State :=
  if c.src = s.nodeId then s.ridgeLoop p
  else
    let down := { c with upward := false }
    let s1 := s.forwardMgmt p down
    if c.scope = 0 ∧ c.dst = s.nodeId then s1.mgmtServe p down else s1

/-- MGMT_REQUEST_RX (R259, R266). -/
def execMgmtRequestRx (p : Nat) (c : MgmtCell) (s : State) : Host.Outcome State Fault Refusal :=
  guarded (.mgmtRequestRx p c) s (fun s => s.receive p c.domain (s.roleAccepts p false) (fun s => s.mgmtRx p c))

end Sys2Proof.Machine
end

