-- ==== Sys2Proof/Machine/Deliver.lean ====
section
/-! DEFINITION. Deliveries between the blocks: events of the trigger lines (R100), stamps of the FIFOs (R164, R173), register
writes of the scheduler (R139), and the end of a snapshot (R56). -/

namespace Sys2Proof.Machine

/-! ### Trigger lines (R100) -/

/-- A delivered event reaches the sequencers that wait for its line (R117, R127). -/
def State.lineToSeq (s : State) (n t teb q : Nat) : State :=
  if s.seqState q = 1 ∧ (s.seq q).arm = some (.onTrig n) then s.seqTriggered q t teb
  else if s.flag (pSEQ q) SEQ.START_CFG.JUMP_LINE_EN ∧ s.get (pSEQ q) SEQ.START_CFG.JUMP_LINE = n then s.seqRequest q s.now32
  else s

/-- An event of line `n`'s source passes the stages of the line, and one delivered reaches every listener. -/
def State.lineEvent (s : State) (e : LineEvent) (n : Nat) : State :=
  if s.lineTakes n e.src then
    let r := s.lineStages n e
    if r.2 then
      let s1 := r.1.forEach (List.range 48) (fun c s => s.answer c n e.t e.teb)
      let s2 := s1.forEach (List.range 4) (fun q s => s.lineToSeq n e.t e.teb q)
      s2.lineToMeas n e
    else r.1
  else s

/-- An event that waits on the event bus goes to the lines its source names; a tick goes to its sessions and gates as well. -/
def State.deliverEvent (s : State) (e : LineEvent) : State :=
  if s.lineEvents.contains e then
    let s1 : State := { s with lineEvents := s.lineEvents.erase e }
    let s2 := s1.forEach (List.range 64) (fun n s => s.lineEvent e n)
    match e.src with
    | .tick g => s2.tickToMeas g e.t
    | _ => s2
  else s

/-- TRIGGER_LINE_EVENT (R100). -/
def execTriggerLineEvent (e : LineEvent) (s : State) : Host.Outcome State Fault Refusal :=
  guarded (.triggerLineEvent e) s (fun s => s.deliverEvent e)

/-! ### The FIFO of an input (R164, R173) -/

/-- One subscriber takes a stamp of input `i`. Sessions share the intake of the input (R184). -/
def State.subscriberStamp (s : State) (i : Nat) (st : Stamp) (sub : Nat × Nat) : State :=
  match sub.1 with
  | 2 => if s.ringFor 4 i = some sub.2 then s.streamStamp i sub.2 st else s
  | 3 => if bitOf (s.get (pPHASE sub.2) PHASE.SRC_CFG.SENSE) (senseBit st.rising) then s.phaseStamp sub.2 st.t else s
  | 4 => if 16 ≤ sub.2 then s.gateStamp st (sub.2 - 16) else s
  | 5 => s.refStamp sub.2 i st
  | _ => s

/-- Whether the FIFO hands a stamp out in this slot. -/
def State.handoutDue (s : State) (i : Nat) : Bool :=
  !(s.tin i).fifo.isEmpty && (s.tin i).handoutSlot != some s.clk.slot

/-- The FIFO hands its oldest stamp to every subscriber together. -/
def State.handout (s : State) (i : Nat) : State :=
  match (s.tin i).fifo with
  | [] => s
  | st :: rest =>
    let s1 := s.setTin i { s.tin i with fifo := rest, handoutSlot := some s.clk.slot }
    (s1.intakeEnter i st).forEach (s.subscribers i) (fun sub s => s.subscriberStamp i st sub)

/-- FIFO_HANDOUT (R164): once per slot. -/
def execFifoHandout (i : Nat) (s : State) : Host.Outcome State Fault Refusal :=
  guarded (.fifoHandout i) s (fun s => if s.handoutDue i then s.handout i else s)

/-! ### Register writes of the scheduler (R139) -/

/-- The write of a REG_WRITE32 action, with the result of its page. -/
def State.queueWrite (s : State) (d : Disp) : State × Verdict :=
  let r := s.hostWrite (.queue d.action.queue) d.action.target d.action.regOff d.action.param
  (r.1, r.2.getD ⟨.range, none⟩)

/-- REG_WRITE32 (R139). -/
def execRegWrite32 (s : State) : Host.Outcome State Fault Refusal :=
  guarded .regWrite32 s (fun s => s.runAction 0x40 (fun d s => s.queueWrite d))

/-! ### Snapshots (R56) -/

/-- Whether a snapshot has been held for TIMEOUT_MS. -/
def State.snapshotLate (s : State) : Bool :=
  s.host.frozen.isSome && decide (s.host.frozenSlot + s.get pDEV DEV.SNAP_TIMEOUT.TIMEOUT_MS * 200000 ≤ s.clk.slot)

/-- SNAPSHOT_TIMEOUT (R56). -/
def execSnapshotTimeout (s : State) : Host.Outcome State Fault Refusal :=
  guarded .snapshotTimeout s (fun s => if s.snapshotLate then s.thaw.putFlag pDEV DEV.SNAP_CTL.TIMED_OUT true else s)

end Sys2Proof.Machine
end

