-- ==== Sys2Proof/Machine/Dispatch.lean ====
section
/-! DEFINITION. What each command does: one arm per constructor of Instr, one direct call of its meaning. -/

namespace Sys2Proof.Machine

/-- The effect of one command on everything but the queue of waiting commands. -/
def exec (i : Instr) (s : State) : Host.Outcome State Fault Refusal :=
  match i with
  | .registerWrite path page off v => Sys2Proof.Machine.execRegisterWrite path page off v s
  | .stagedWordWrite path page off v => Sys2Proof.Machine.execStagedWordWrite path page off v s
  | .latchingRead path page off => Sys2Proof.Machine.execLatchingRead path page off s
  | .badAccess addr size isRead => Sys2Proof.Machine.execBadAccess addr size isRead s
  | .bar2Write off bytes => Sys2Proof.Machine.execBar2Write off bytes s
  | .spiTransaction cmd addr data nread => Sys2Proof.Machine.execSpiTransaction cmd addr data nread s
  | .i2cTransaction off data nread => Sys2Proof.Machine.execI2cTransaction off data nread s
  | .go path page lane v => Sys2Proof.Machine.execGo path page lane v s
  | .commitAbort path page lane v => Sys2Proof.Machine.execCommitAbort path page lane v s
  | .commitModeChange path page lane v => Sys2Proof.Machine.execCommitModeChange path page lane v s
  | .shadowCommit page lane => Sys2Proof.Machine.execShadowCommit page lane s
  | .cgArm path v => Sys2Proof.Machine.execCgArm path v s
  | .cgDisarm path v => Sys2Proof.Machine.execCgDisarm path v s
  | .cgFire g => Sys2Proof.Machine.execCgFire g s
  | .windowBind path off v => Sys2Proof.Machine.execWindowBind path off v s
  | .ownerWrite path page v => Sys2Proof.Machine.execOwnerWrite path page v s
  | .claim path res => Sys2Proof.Machine.execClaim path res s
  | .release path res => Sys2Proof.Machine.execRelease path res s
  | .query path res agent => Sys2Proof.Machine.execQuery path res agent s
  | .forceRelease path res agent => Sys2Proof.Machine.execForceRelease path res agent s
  | .leasePeriodWrite path w v => Sys2Proof.Machine.execLeasePeriodWrite path w v s
  | .kick path w v => Sys2Proof.Machine.execKick path w v s
  | .leaseExpiry w => Sys2Proof.Machine.execLeaseExpiry w s
  | .ringEnable path r v => Sys2Proof.Machine.execRingEnable path r v s
  | .ringDisable path r v => Sys2Proof.Machine.execRingDisable path r v s
  | .ringCfgWrite path r v => Sys2Proof.Machine.execRingCfgWrite path r v s
  | .doorbell path r v => Sys2Proof.Machine.execDoorbell path r v s
  | .ringDmaError r => Sys2Proof.Machine.execRingDmaError r s
  | .commandWrite32 r tag page off v => Sys2Proof.Machine.execCommandWrite32 r tag page off v s
  | .commandRead32 r tag page off => Sys2Proof.Machine.execCommandRead32 r tag page off s
  | .commandWrite128 r tag page off v => Sys2Proof.Machine.execCommandWrite128 r tag page off v s
  | .commandRead128 r tag page off => Sys2Proof.Machine.execCommandRead128 r tag page off s
  | .fence r tag => Sys2Proof.Machine.execFence r tag s
  | .leaseKick r tag => Sys2Proof.Machine.execLeaseKick r tag s
  | .commandNop r tag => Sys2Proof.Machine.execCommandNop r tag s
  | .modTimeExpiry r => Sys2Proof.Machine.execModTimeExpiry r s
  | .freeze path => Sys2Proof.Machine.execFreeze path s
  | .snapshotRelease path => Sys2Proof.Machine.execSnapshotRelease path s
  | .edgeIssue c => Sys2Proof.Machine.execEdgeIssue c s
  | .edgeLaunch c => Sys2Proof.Machine.execEdgeLaunch c s
  | .calVisitEnd q v => Sys2Proof.Machine.execCalVisitEnd q v s
  | .sweepStart q e => Sys2Proof.Machine.execSweepStart q e s
  | .sweepDone q r => Sys2Proof.Machine.execSweepDone q r s
  | .tableSetExchange q e => Sys2Proof.Machine.execTableSetExchange q e s
  | .swapArm q lane reason => Sys2Proof.Machine.execSwapArm q lane reason s
  | .swapVerify q m => Sys2Proof.Machine.execSwapVerify q m s
  | .swapSwitch q => Sys2Proof.Machine.execSwapSwitch q s
  | .swapDone q => Sys2Proof.Machine.execSwapDone q s
  | .failedLaneRemap q => Sys2Proof.Machine.execFailedLaneRemap q s
  | .swapLane path q lane => Sys2Proof.Machine.execSwapLane path q lane s
  | .resweepSpare path q => Sys2Proof.Machine.execResweepSpare path q s
  | .retest path q e => Sys2Proof.Machine.execRetest path q e s
  | .retestDone q r => Sys2Proof.Machine.execRetestDone q r s
  | .tdcFault q => Sys2Proof.Machine.execTdcFault q s
  | .engineTableEcc q e uncorrectable => Sys2Proof.Machine.execEngineTableEcc q e uncorrectable s
  | .driverFault page bit => Sys2Proof.Machine.execDriverFault page bit s
  | .loopEnable path v => Sys2Proof.Machine.execLoopEnable path v s
  | .channelFlush path c => Sys2Proof.Machine.execChannelFlush path c s
  | .channelSafeExit path c => Sys2Proof.Machine.execChannelSafeExit path c s
  | .triggerLineEvent e => Sys2Proof.Machine.execTriggerLineEvent e s
  | .tlSrcWrite path n v => Sys2Proof.Machine.execTlSrcWrite path n v s
  | .tlShapeWrite path n v => Sys2Proof.Machine.execTlShapeWrite path n v s
  | .fireNow path n => Sys2Proof.Machine.execFireNow path n s
  | .fireAt path n => Sys2Proof.Machine.execFireAt path n s
  | .start path q => Sys2Proof.Machine.execStart path q s
  | .stopAtEnd path q => Sys2Proof.Machine.execStopAtEnd path q s
  | .stopNow path q => Sys2Proof.Machine.execStopNow path q s
  | .jump path q => Sys2Proof.Machine.execJump path q s
  | .clearRequest path q => Sys2Proof.Machine.execClearRequest path q s
  | .disarm path q => Sys2Proof.Machine.execDisarm path q s
  | .seqDecision q => Sys2Proof.Machine.execSeqDecision q s
  | .seqOccurrenceStart q => Sys2Proof.Machine.execSeqOccurrenceStart q s
  | .seqCut q => Sys2Proof.Machine.execSeqCut q s
  | .seqParkResume q => Sys2Proof.Machine.execSeqParkResume q s
  | .seqStop q => Sys2Proof.Machine.execSeqStop q s
  | .edgeHi q => Sys2Proof.Machine.execEdgeHi q s
  | .edgeLo q => Sys2Proof.Machine.execEdgeLo q s
  | .toggle q => Sys2Proof.Machine.execToggle q s
  | .mark q => Sys2Proof.Machine.execMark q s
  | .recordNop q => Sys2Proof.Machine.execRecordNop q s
  | .recordEnd q => Sys2Proof.Machine.execRecordEnd q s
  | .bankEcc q granule uncorrectable => Sys2Proof.Machine.execBankEcc q granule uncorrectable s
  | .courseTableEcc c uncorrectable => Sys2Proof.Machine.execCourseTableEcc c uncorrectable s
  | .refillSubmit path q => Sys2Proof.Machine.execRefillSubmit path q s
  | .refillFlush path q => Sys2Proof.Machine.execRefillFlush path q s
  | .refillDone q bytes => Sys2Proof.Machine.execRefillDone q bytes s
  | .refillDmaError q => Sys2Proof.Machine.execRefillDmaError q s
  | .readySet path => Sys2Proof.Machine.execReadySet path s
  | .readyClear path => Sys2Proof.Machine.execReadyClear path s
  | .validate path => Sys2Proof.Machine.execValidate path s
  | .syncInEvent t rising growth => Sys2Proof.Machine.execSyncInEvent t rising growth s
  | .syncOutPulse t => Sys2Proof.Machine.execSyncOutPulse t s
  | .ppsPulse sec => Sys2Proof.Machine.execPpsPulse sec s
  | .actionAccept r a => Sys2Proof.Machine.execActionAccept r a s
  | .submit path q => Sys2Proof.Machine.execSubmit path q s
  | .flush path q => Sys2Proof.Machine.execFlush path q s
  | .queueSafeExit path => Sys2Proof.Machine.execQueueSafeExit path s
  | .queueEcc q uncorrectable => Sys2Proof.Machine.execQueueEcc q uncorrectable s
  | .tickEnable path n v => Sys2Proof.Machine.execTickEnable path n v s
  | .tickDelivery n => Sys2Proof.Machine.execTickDelivery n s
  | .phaseEnable path t v => Sys2Proof.Machine.execPhaseEnable path t v s
  | .restart path t => Sys2Proof.Machine.execRestart path t s
  | .phaseSourceLost t => Sys2Proof.Machine.execPhaseSourceLost t s
  | .phaseConvert t => Sys2Proof.Machine.execPhaseConvert t s
  | .inputCrossing n x => Sys2Proof.Machine.execInputCrossing n x s
  | .inputResolved n high => Sys2Proof.Machine.execInputResolved n high s
  | .stampReady n c => Sys2Proof.Machine.execStampReady n c s
  | .fifoHandout n => Sys2Proof.Machine.execFifoHandout n s
  | .injectedEvent n core pulse code => Sys2Proof.Machine.execInjectedEvent n core pulse code s
  | .inputTableDone n core r => Sys2Proof.Machine.execInputTableDone n core r s
  | .calStale n core => Sys2Proof.Machine.execCalStale n core s
  | .recal path n => Sys2Proof.Machine.execRecal path n s
  | .inputTableEcc n core uncorrectable => Sys2Proof.Machine.execInputTableEcc n core uncorrectable s
  | .sessionEnable path k v => Sys2Proof.Machine.execSessionEnable path k v s
  | .gateEnable path g v => Sys2Proof.Machine.execGateEnable path g v s
  | .arm path k => Sys2Proof.Machine.execArm path k s
  | .sessionAbort path k => Sys2Proof.Machine.execSessionAbort path k s
  | .gateStart path g => Sys2Proof.Machine.execGateStart path g s
  | .intakeDrain n => Sys2Proof.Machine.execIntakeDrain n s
  | .sessionTimeout k => Sys2Proof.Machine.execSessionTimeout k s
  | .gateEnd g => Sys2Proof.Machine.execGateEnd g s
  | .tdcEngineEcc sessions gates => Sys2Proof.Machine.execTdcEngineEcc sessions gates s
  | .streamPeriodicBase k => Sys2Proof.Machine.execStreamPeriodicBase k s
  | .streamBatchWrite k => Sys2Proof.Machine.execStreamBatchWrite k s
  | .streamResume k => Sys2Proof.Machine.execStreamResume k s
  | .apllLockWindow a count => Sys2Proof.Machine.execApllLockWindow a count s
  | .xoUpdate m => Sys2Proof.Machine.execXoUpdate m s
  | .ageingFit f => Sys2Proof.Machine.execAgeingFit f s
  | .refEnable path k v => Sys2Proof.Machine.execRefEnable path k v s
  | .refObservation k => Sys2Proof.Machine.execRefObservation k s
  | .refPresenceFail k => Sys2Proof.Machine.execRefPresenceFail k s
  | .push path k => Sys2Proof.Machine.execPush path k s
  | .acceptSlew path k => Sys2Proof.Machine.execAcceptSlew path k s
  | .acceptStep path k => Sys2Proof.Machine.execAcceptStep path k s
  | .reject path k => Sys2Proof.Machine.execReject path k s
  | .clearSuspect path k => Sys2Proof.Machine.execClearSuspect path k s
  | .requalify path k => Sys2Proof.Machine.execRequalify path k s
  | .servoModeWrite path v => Sys2Proof.Machine.execServoModeWrite path v s
  | .step path => Sys2Proof.Machine.execStep path s
  | .stepProposed path => Sys2Proof.Machine.execStepProposed path s
  | .slewProposed path => Sys2Proof.Machine.execSlewProposed path s
  | .apllAEnable path v => Sys2Proof.Machine.execApllAEnable path v s
  | .freqCmdSet path => Sys2Proof.Machine.execFreqCmdSet path s
  | .runProfile path => Sys2Proof.Machine.execRunProfile path s
  | .abortRamp path => Sys2Proof.Machine.execAbortRamp path s
  | .relock path => Sys2Proof.Machine.execRelock path s
  | .auxEnable path n v => Sys2Proof.Machine.execAuxEnable path n v s
  | .auxPeriodEnd n => Sys2Proof.Machine.execAuxPeriodEnd n s
  | .auxSafeExit path n => Sys2Proof.Machine.execAuxSafeExit path n s
  | .switch path => Sys2Proof.Machine.execSwitch path s
  | .pathAccept path => Sys2Proof.Machine.execPathAccept path s
  | .pathClear path => Sys2Proof.Machine.execPathClear path s
  | .ridgeSlotTx p => Sys2Proof.Machine.execRidgeSlotTx p s
  | .ridgeBlockLock p => Sys2Proof.Machine.execRidgeBlockLock p s
  | .timeCellRx p c => Sys2Proof.Machine.execTimeCellRx p c s
  | .trigCellRx p c => Sys2Proof.Machine.execTrigCellRx p c s
  | .mgmtRequestRx p c => Sys2Proof.Machine.execMgmtRequestRx p c s
  | .mgmtResponseRx p c => Sys2Proof.Machine.execMgmtResponseRx p c s
  | .fillCellRx p => Sys2Proof.Machine.execFillCellRx p s
  | .ridgeLinkLost p => Sys2Proof.Machine.execRidgeLinkLost p s
  | .ridgeObsInterval p => Sys2Proof.Machine.execRidgeObsInterval p s
  | .issue path p => Sys2Proof.Machine.execIssue path p s
  | .mgmtRead32 path p => Sys2Proof.Machine.execMgmtRead32 path p s
  | .mgmtWrite32 path p => Sys2Proof.Machine.execMgmtWrite32 path p s
  | .mgmtRead128 path p => Sys2Proof.Machine.execMgmtRead128 path p s
  | .mgmtWrite128 path p => Sys2Proof.Machine.execMgmtWrite128 path p s
  | .ethDoorbell path p rx v => Sys2Proof.Machine.execEthDoorbell path p rx v s
  | .ethFrameTx p f => Sys2Proof.Machine.execEthFrameTx p f s
  | .ethFrameRx p f => Sys2Proof.Machine.execEthFrameRx p f s
  | .ethTxStamp p t => Sys2Proof.Machine.execEthTxStamp p t s
  | .ethLinkChange p up => Sys2Proof.Machine.execEthLinkChange p up s
  | .eaveSwitchover toVbat => Sys2Proof.Machine.execEaveSwitchover toVbat s
  | .calCmdSet path => Sys2Proof.Machine.execCalCmdSet path s
  | .syncNow path => Sys2Proof.Machine.execSyncNow path s
  | .invalidate path => Sys2Proof.Machine.execInvalidate path s
  | .trimRenew trim => Sys2Proof.Machine.execTrimRenew trim s
  | .monitorTick samples => Sys2Proof.Machine.execMonitorTick samples s
  | .pwrOn path => Sys2Proof.Machine.execPwrOn path s
  | .pwrOff path => Sys2Proof.Machine.execPwrOff path s
  | .alertSet path => Sys2Proof.Machine.execAlertSet path s
  | .alertClr path => Sys2Proof.Machine.execAlertClr path s
  | .wakeEdge rising => Sys2Proof.Machine.execWakeEdge rising s
  | .logClear path => Sys2Proof.Machine.execLogClear path s
  | .lineFault p => Sys2Proof.Machine.execLineFault p s
  | .errInject path page v => Sys2Proof.Machine.execErrInject path page v s
  | .inject path k line => Sys2Proof.Machine.execInject path k line s
  | .clearPair path => Sys2Proof.Machine.execClearPair path s
  | .enterSafe path => Sys2Proof.Machine.execEnterSafe path s
  | .reinit path => Sys2Proof.Machine.execReinit path s
  | .deviceSafeExit path => Sys2Proof.Machine.execDeviceSafeExit path s
  | .firstFaultClear path => Sys2Proof.Machine.execFirstFaultClear path s
  | .gutterStorageEcc uncorrectable => Sys2Proof.Machine.execGutterStorageEcc uncorrectable s
  | .suppliesGood straps => Sys2Proof.Machine.execSuppliesGood straps s
  | .supplyBelowThreshold rail => Sys2Proof.Machine.execSupplyBelowThreshold rail s
  | .supplyOutOfRange rail => Sys2Proof.Machine.execSupplyOutOfRange rail s
  | .deviceReset path => Sys2Proof.Machine.execDeviceReset path s
  | .stage1Entry b => Sys2Proof.Machine.execStage1Entry b s
  | .begin path => Sys2Proof.Machine.execBegin path s
  | .writeWindow path => Sys2Proof.Machine.execWriteWindow path s
  | .dmaWrite path bytes => Sys2Proof.Machine.execDmaWrite path bytes s
  | .finish path v => Sys2Proof.Machine.execFinish path v s
  | .activate path => Sys2Proof.Machine.execActivate path s
  | .activateAtReset path => Sys2Proof.Machine.execActivateAtReset path s
  | .confirm path => Sys2Proof.Machine.execConfirm path s
  | .revert path => Sys2Proof.Machine.execRevert path s
  | .flAbort path => Sys2Proof.Machine.execFlAbort path s
  | .loadManifest path => Sys2Proof.Machine.execLoadManifest path s
  | .clearManifest path => Sys2Proof.Machine.execClearManifest path s
  | .readLog path => Sys2Proof.Machine.execReadLog path s
  | .installKey path => Sys2Proof.Machine.execInstallKey path s
  | .ownerEnroll path => Sys2Proof.Machine.execOwnerEnroll path s
  | .copyBlockDone ok => Sys2Proof.Machine.execCopyBlockDone ok s
  | .copyDone ok => Sys2Proof.Machine.execCopyDone ok s
  | .microcodeBankSwap u => Sys2Proof.Machine.execMicrocodeBankSwap u s
  | .cellDrop p crc => Sys2Proof.Machine.execCellDrop p crc s
  | .configurationRequest tag => Sys2Proof.Machine.execConfigurationRequest tag s
  | .boundaryScan ir => Sys2Proof.Machine.execBoundaryScan ir s
  | .perstNAssert => Sys2Proof.Machine.execPerstNAssert s
  | .d3hotEntry => Sys2Proof.Machine.execD3hotEntry s
  | .yTakesEffect => Sys2Proof.Machine.execYTakesEffect s
  | .timescaleStep => Sys2Proof.Machine.execTimescaleStep s
  | .leapApply => Sys2Proof.Machine.execLeapApply s
  | .snapshotTimeout => Sys2Proof.Machine.execSnapshotTimeout s
  | .busEcc => Sys2Proof.Machine.execBusEcc s
  | .actionDispatch => Sys2Proof.Machine.execActionDispatch s
  | .actionNop => Sys2Proof.Machine.execActionNop s
  | .chanHi => Sys2Proof.Machine.execChanHi s
  | .chanLo => Sys2Proof.Machine.execChanLo s
  | .chanToggle => Sys2Proof.Machine.execChanToggle s
  | .chanPulse => Sys2Proof.Machine.execChanPulse s
  | .fireLine => Sys2Proof.Machine.execFireLine s
  | .seqStart => Sys2Proof.Machine.execSeqStart s
  | .seqJump => Sys2Proof.Machine.execSeqJump s
  | .seqStopAtEnd => Sys2Proof.Machine.execSeqStopAtEnd s
  | .seqStopNow => Sys2Proof.Machine.execSeqStopNow s
  | .measArm => Sys2Proof.Machine.execMeasArm s
  | .regWrite32 => Sys2Proof.Machine.execRegWrite32 s
  | .notify => Sys2Proof.Machine.execNotify s
  | .timescaleSeed => Sys2Proof.Machine.execTimescaleSeed s
  | .ovenStable => Sys2Proof.Machine.execOvenStable s
  | .ovenFault => Sys2Proof.Machine.execOvenFault s
  | .xtalFault => Sys2Proof.Machine.execXtalFault s
  | .slewEnd => Sys2Proof.Machine.execSlewEnd s
  | .rampEnd => Sys2Proof.Machine.execRampEnd s
  | .profileDone => Sys2Proof.Machine.execProfileDone s
  | .sscChange => Sys2Proof.Machine.execSscChange s
  | .threshCrossing => Sys2Proof.Machine.execThreshCrossing s
  | .tebReport => Sys2Proof.Machine.execTebReport s
  | .traceExpiry => Sys2Proof.Machine.execTraceExpiry s
  | .mgmtTimeout => Sys2Proof.Machine.execMgmtTimeout s
  | .eavePor => Sys2Proof.Machine.execEavePor s
  | .xt32Fault => Sys2Proof.Machine.execXt32Fault s
  | .eaveLeap => Sys2Proof.Machine.execEaveLeap s
  | .calendarSync => Sys2Proof.Machine.execCalendarSync s
  | .test => Sys2Proof.Machine.execTest s
  | .and => Sys2Proof.Machine.execAnd s
  | .or => Sys2Proof.Machine.execOr s
  | .setf => Sys2Proof.Machine.execSetf s
  | .jmp => Sys2Proof.Machine.execJmp s
  | .cnt => Sys2Proof.Machine.execCnt s
  | .cmp => Sys2Proof.Machine.execCmp s
  | .outPwrOn => Sys2Proof.Machine.execOutPwrOn s
  | .outPwrOff => Sys2Proof.Machine.execOutPwrOff s
  | .outAlertSet => Sys2Proof.Machine.execOutAlertSet s
  | .outAlertClr => Sys2Proof.Machine.execOutAlertClr s
  | .log => Sys2Proof.Machine.execLog s
  | .clrl => Sys2Proof.Machine.execClrl s
  | .progEnd => Sys2Proof.Machine.execProgEnd s
  | .programMemoryEcc => Sys2Proof.Machine.execProgramMemoryEcc s
  | .pwrDownDelayExpiry => Sys2Proof.Machine.execPwrDownDelayExpiry s
  | .alarm => Sys2Proof.Machine.execAlarm s
  | .faultCollect => Sys2Proof.Machine.execFaultCollect s
  | .injectionHoldEnd => Sys2Proof.Machine.execInjectionHoldEnd s
  | .pairSenseFault => Sys2Proof.Machine.execPairSenseFault s
  | .resetNLow => Sys2Proof.Machine.execResetNLow s
  | .dieHot => Sys2Proof.Machine.execDieHot s
  | .dieCritical => Sys2Proof.Machine.execDieCritical s
  | .sclkMonitor => Sys2Proof.Machine.execSclkMonitor s
  | .mgmtWatchdogMiss => Sys2Proof.Machine.execMgmtWatchdogMiss s
  | .stage2Entry => Sys2Proof.Machine.execStage2Entry s
  | .stage3Entry => Sys2Proof.Machine.execStage3Entry s
  | .pcieLinkTraining => Sys2Proof.Machine.execPcieLinkTraining s
  | .flashDmaError => Sys2Proof.Machine.execFlashDmaError s
  | .mgmtRestartDone => Sys2Proof.Machine.execMgmtRestartDone s
  | .restartTimeout => Sys2Proof.Machine.execRestartTimeout s
  | .trialHealthy => Sys2Proof.Machine.execTrialHealthy s
  | .trialWindowExpiry => Sys2Proof.Machine.execTrialWindowExpiry s
  | .sramUncorr => Sys2Proof.Machine.execSramUncorr s

end Sys2Proof.Machine
end

