-- ==== Sys2Proof/Machine/Due.lean ====
section
/-! DEFINITION. What time brings: the events that are due in the present slot, and the passing of one slot. The table has no
row for the clock; an empty queue lets it run (log 4). Events whose operands only the outside or a measurement can give are
commands that are sent. -/

namespace Sys2Proof.Machine

/-- The rows of `f` over a range of indices. -/
def dueOver (n : Nat) (p : Nat → Bool) (f : Nat → Instr) : List Instr := ((List.range n).find? p).toList.map f

/-- One row, if it is due. -/
def dueIf (b : Bool) (i : Instr) : List Instr := if b then [i] else []

/-- The first group that has a row due. -/
def firstDue : List (Unit → List Instr) → List Instr
  | [] => []
  | f :: fs => match f () with | [] => firstDue fs | l => l

/-! ### Groups -/

/-- The Eave (chapter 12). -/
def State.dueEave (s : State) : List (Unit → List Instr) :=
  [fun _ => dueIf s.syncDue .calendarSync, fun _ => dueIf s.downDue .pwrDownDelayExpiry, fun _ => dueIf s.eaveLeapDue .eaveLeap,
    fun _ => dueIf s.alarmDue .alarm, fun _ => (s.progDue.bind (fun a => progRow a.2)).toList]

/-- The timescale (chapters 1, 9 and 10). -/
def State.dueTime (s : State) : List (Unit → List Instr) :=
  [fun _ => dueIf s.yDue .yTakesEffect, fun _ => dueIf s.stepDue .timescaleStep, fun _ => dueIf s.seedDue .timescaleSeed,
    fun _ => dueIf s.leapDue .leapApply, fun _ => dueIf s.slewEndDue .slewEnd,
    fun _ => dueOver 8 (fun k => !(s.ref k).inbox.isEmpty) .refObservation, fun _ => dueOver 8 s.presenceFailed .refPresenceFail,
    fun _ => dueIf s.ovenStableDue .ovenStable, fun _ => dueIf s.ovenLate .ovenFault,
    fun _ => dueIf (s.below != s.flag pTSC TSC.STATUS.BELOW_THRESH) .threshCrossing, fun _ => dueIf s.reportDue .tebReport,
    fun _ => dueIf s.traceDue .traceExpiry]

/-- Supplies, stages, flash and the Gutter (chapters 13 to 15). -/
def State.dueDevice (s : State) : List (Unit → List Instr) :=
  [fun _ => dueIf (!s.sampled.isEmpty) .faultCollect, fun _ => dueIf s.injectionDue .injectionHoldEnd,
    fun _ => dueIf s.stage2Due .stage2Entry, fun _ => dueIf s.stage3Due .stage3Entry, fun _ => dueIf (s.linkDue && !s.host.perst) .pcieLinkTraining,
    fun _ => dueIf s.restartLate .restartTimeout, fun _ => dueIf s.healthDue .trialHealthy, fun _ => dueIf s.windowDue .trialWindowExpiry,
    fun _ => (s.bankDue.map .microcodeBankSwap).toList]

/-- A commit that is due: the page and lane. -/
def State.commitRow (s : State) : List Instr :=
  let at_ (p o : Nat) : List Instr := dueIf (s.commitDue p (ctxLane p o)) (.shadowCommit p (ctxLane p o))
  firstDue (s.host.immed.map (fun e _ => at_ (e.key / 4096) (e.key % 4096)) ++
    s.host.goNext.map (fun e _ => dueIf (s.commitDue e.1 e.2.1) (.shadowCommit e.1 e.2.1)))

/-- The host interface (chapters 1 and 2). -/
def State.dueHost (s : State) : List (Unit → List Instr) :=
  [fun _ => dueOver 16 s.cgDue .cgFire, fun _ => s.commitRow, fun _ => dueOver 16 s.leaseDue .leaseExpiry,
    fun _ => dueOver 32 (fun r => s.pcieUp && s.modExpired r) .modTimeExpiry, fun _ => dueIf s.snapshotLate .snapshotTimeout]

/-- Whether a swap of a quad is armed, switches or is done. -/
def State.swapRow (s : State) (q : Nat) : List Instr :=
  match (s.quad q).swap with
  | some w => dueIf (w.switched.isNone && decide (w.b ≤ s.clk.slot)) (.swapSwitch q) ++
      dueIf (w.switched.isSome && decide (w.b + 1 ≤ s.clk.slot)) (.swapDone q)
  | none => dueIf (s.remapDue q) (.failedLaneRemap q) ++ ((s.armDue q).map (fun a => Instr.swapArm q a.1 a.2)).toList

/-- The engines of a quad. -/
def State.quadRow (s : State) (q : Nat) : List Instr :=
  firstDue [fun _ => dueOver 5 (fun e => (s.engine q e).back.isSome) (.tableSetExchange q), fun _ => dueOver 5 (s.sweepDue q) (.sweepStart q)]

/-- Trigger events, edges and engines (chapters 3 and 4). -/
def State.dueEdges (s : State) : List (Unit → List Instr) :=
  [fun _ => (s.lineEvents.take 1).map .triggerLineEvent, fun _ => dueOver 48 (fun c => s.seqBufDue c || s.issueDue c) .edgeIssue,
    fun _ => firstDue ((List.range 12).map (fun q _ => (s.swapRow q).take 1)), fun _ => dueOver 48 s.launchDue .edgeLaunch,
    fun _ => ((List.range 16).find? s.loopDue).toList.flatMap (fun i => ((s.tin i).loopIn.head?.map (fun x => Instr.inputCrossing i x)).toList), fun _ => firstDue ((List.range 12).map (fun q _ => s.quadRow q))]

/-- The row that plays a record. -/
def recordRow (q op : Nat) : Instr :=
  match op with
  | 0 => .edgeHi q | 1 => .edgeLo q | 2 => .toggle q | 3 => .mark q | 4 => .recordNop q | _ => .recordEnd q

/-- One sequencer (chapter 5). -/
def State.seqRow (s : State) (q : Nat) : List Instr :=
  firstDue [fun _ => dueIf (s.refillStuck q) (.refillDmaError q), fun _ => dueIf (s.stopDue q) (.seqStop q), fun _ => dueIf (s.parkDue q || s.startDue q false) (.seqOccurrenceStart q),
    fun _ => dueIf (s.startDue q true) (.seqCut q), fun _ => dueIf (s.resumeDue q) (.seqParkResume q),
    fun _ => dueIf (s.decideDue q || s.firstFetchDue q || s.parkFetchDue q) (.seqDecision q), fun _ => dueIf (s.markDue q).isSome (.mark q),
    fun _ => ((s.recordDue q).map (recordRow q)).toList]

/-- Pulses of SYNC_OUT and PPS_OUT: the whole second that has come, and the markers whose instant has. -/
def State.syncRow (s : State) : List Instr :=
  if s.clk.seeded ∧ s.sync.second ≠ s.nowSecond then
    dueIf (s.get pSYNC SYNC.SYNC_OUT_CFG.SOURCE == 1) (.syncOutPulse (s.nowSecond * suSec)) ++ [.ppsPulse s.nowSecond]
  else ((s.sync.marks.find? s.reached).map (fun t => Instr.syncOutPulse t.toNat)).toList

/-- The row of a dispatched action. -/
def actionRow (op : Nat) : Instr :=
  match op with
  | 0x01 => .chanHi | 0x02 => .chanLo | 0x03 => .chanToggle | 0x04 => .chanPulse | 0x10 => .fireLine | 0x20 => .seqStart | 0x21 => .seqJump
  | 0x22 => .seqStopAtEnd | 0x23 => .seqStopNow | 0x30 => .measArm | 0x40 => .regWrite32 | 0x50 => .notify | _ => .actionNop

/-- The scheduler, ticks and trackers (chapter 6). -/
def State.dueSched (s : State) : List (Unit → List Instr) :=
  [fun _ => ((s.sched.dispatched.find? s.effectDue).map (fun d => actionRow d.action.op)).toList,
    fun _ => dueOver 8 s.tickDue .tickDelivery, fun _ => dueOver 4 s.phaseLost .phaseSourceLost,
    fun _ => dueOver 4 (fun t => (List.range 16).any (fun q => s.convertDue q && s.get pSCHED (SCHED.Q_CFG.BASE_INDEX q) == t) ||
      (s.phaseEventDue t).isSome) .phaseConvert,
    fun _ => dueIf s.dispatchDue .actionDispatch]

/-- Whether a batch of a stream is written now: it is full, or its first record is 500 ns old (R197). -/
def State.batchDue (s : State) (k : Nat) : Bool :=
  match s.ringFor 4 k with
  | some r => !s.ringStopped r && !(s.stream k).batch.isEmpty &&
      (decide (64 ≤ (s.stream k).batch.length) || decide (((s.stream k).batch.head?.map (·.slot)).getD s.clk.slot + 100 ≤ s.clk.slot))
  | none => false

/-- Timing inputs, measurements and streams (chapters 7 and 8). -/
def State.dueInputs (s : State) : List (Unit → List Instr) :=
  [fun _ => dueOver 16 (fun i => s.looped i && s.unresolved i && decide ((s.tin i).unresolvedAt + 4 ≤ s.clk.slot)) (fun i => .inputResolved i s.loopLevel),
    fun _ => dueOver 16 s.handoutDue .fifoHandout,
    fun _ => dueOver 16 (fun i => !(s.meas.intake.getD i []).isEmpty && decide (s.meas.drainSlot.getD i 0 ≤ s.clk.slot)) .intakeDrain,
    fun _ => dueOver 16 s.timeoutDue .sessionTimeout,
    fun _ => dueOver 8 s.gateEndDue .gateEnd, fun _ => dueOver 4 s.resumeStreamDue .streamResume, fun _ => dueOver 4 s.periodicDue .streamPeriodicBase,
    fun _ => dueOver 4 s.batchDue .streamBatchWrite,
    fun _ => firstDue ((List.range 16).map (fun i _ => dueOver 2 (s.staleDue i) (.calStale i)))]

/-- APLL_A, the aux outputs and the links (chapters 9 and 11). -/
def State.duePorts (s : State) : List (Unit → List Instr) :=
  [fun _ => dueIf s.rampEndDue .rampEnd, fun _ => dueIf s.aplla.profileDone .profileDone, fun _ => dueIf s.sscDue .sscChange,
    fun _ => dueOver 8 s.auxDue .auxPeriodEnd, fun _ => dueOver 6 s.linkSilent .ridgeLinkLost, fun _ => dueOver 6 s.rdgObsDue .ridgeObsInterval,
    fun _ => dueOver 6 s.cellDue .ridgeSlotTx, fun _ => dueIf s.mgmtLate .mgmtTimeout]

/-- The rows that are due now: those of the first group that has any. Without its supplies only the Eave runs; below Stage 1
the core only trains its link. -/
def State.due (s : State) : List Instr :=
  firstDue (s.dueEave ++
    (if !s.power.good then []
     else if s.stage = 0 then [fun _ => dueIf s.ovenLate .ovenFault, fun _ => dueIf (s.linkDue && !s.host.perst) .pcieLinkTraining]
     else s.dueTime ++ s.dueHost ++ s.dueDevice ++ s.dueEdges ++ [fun _ => firstDue ((List.range 4).map (fun q _ => s.seqRow q))] ++
       [fun _ => s.syncRow] ++ s.dueSched ++ s.dueInputs ++ s.duePorts))

/-! ### One slot -/

/-- The freeze of R56, at the first SCLK edge after its acceptance. -/
def State.freezeEdge (s : State) : State :=
  match s.host.freezeNext with
  | some (agent, slot) =>
    if slot < s.clk.slot ∧ s.sclkEdge then
      let s1 := (((s.put pDEV DEV.SNAP_CTL.HOLDER agent).putFlag pDEV DEV.SNAP_CTL.FROZEN true).put pDEV DEV.SNAP_SLOT.SLOT s.slotNo).incWrap pDEV
        DEV.SNAP_SEQ.SEQ
      -- FROZEN_VIEW stands in the frozen view as FROZEN does (R37).
      { s1 with host := { s1.host with
          frozen := some { s1 with host := { s1.host with frozen := some [] } }.mirrorAll, frozenSlot := s.clk.slot, freezeNext := none } }
    else s
  | none => s

/-- The count of SCLK edges and of TCLK advances by one slot (R5, R7). -/
def State.clockEdge (s : State) : State :=
  { s with clk := { s.clk with slot := s.clk.slot + 1, prev32 := s.now32, tclk := if s.clk.running then s.clk.tclk + 8 else s.clk.tclk } }

/-- A quad at an SCLK edge: a lane that left CAL mode has returned to its own engine, and the spare is free again (R96); a spare whose
set has aged out, or from which the die has moved, is SPARE_READY no longer (R71). -/
def State.quadSlot (s : State) (q : Nat) : State :=
  match (s.quad q).calUntil with
  | some t =>
    if t ≤ s.clk.slot then
      let s1 := s.setQuad q { s.quad q with calUntil := none }
      ((s1.onlyIf (s1.engState q (s1.spare q) == 6 && !s1.calMode q) (fun s => s.setEngState q (s.spare q) 2)).refreshSpare q).serveDeferred q
    else s
  | none => s.onlyIf (s.spareChanged q) (fun s => s.refreshSpare q)

/-- One slot of the core and the Eave: the count of R7 before the Eave's, so that a count edge in the slot is stamped under the count that
goes with it; an accepted reset, a freeze, a whole second, and host events on their way to the lines. -/
def State.coreSlot (s : State) : State :=
  let s1 := s.apllaSlot.clockEdge.eaveTick
  if s1.resetDue then s1.coreReset 2 else ((s1.freezeEdge.eaveSecond).hostFiresDue.measSlot.syncSlot.utcSlot.flashSlot).forEach (List.range 12) (fun q s => s.quadSlot q)

/-- One slot passes (R5). TCLK_COUNT does not wrap in service (R7). -/
def State.passSlot (s : State) : Host.Outcome State Fault Refusal :=
  if s.clk.running ∧ 2 ^ 64 ≤ s.clk.tclk + 8 then .fault .tclkWrap
  else .next (if s.power.good then s.coreSlot else s.eaveTick)

/-- What an empty queue answers: the rows that are due enter it; when none is, one slot passes. -/
def State.emptyQueue (s : State) : Host.Outcome State Fault Refusal :=
  match s.due with
  | [] => s.passSlot
  | l => .next { s with pending := l }

end Sys2Proof.Machine
end

