-- ==== Sys2Proof/Safety.lean ====
section
/-! DEFINITION. What claims say of a state: the operands that waiting commands carry exist, the memories keep the canonical
form that their type does not say by itself, and every lane, line, ring and port has its record. -/

namespace Sys2Proof.Machine

/-- The canonical form of the register file. -/
def RegFile.wf (m : List (Nat × Word)) : Bool := sparseWf regReset m

/-- The memories of the block keep their canonical form: the register file and BAR2. -/
def State.formOk (s : State) : Bool := RegFile.wf s.regs && Memory.wf s.bar2

/-- Every unit that R1, R36 and R42 number has its record: 12 quads, 48 channels, 64 lines, 4 sequencers, 4 trackers, 16 timing
inputs, 8 references, 8 aux outputs, 2 Ethernet ports, 32 rings, 16 leases, 16 queues, 16 sessions, 8 gates, 4 streams and 6 ports. -/
def State.unitsOk (s : State) : Bool :=
  decide (s.quads.length = 12 ∧ s.chans.length = 48 ∧ s.lines.length = 64 ∧ s.seqs.length = 4 ∧ s.phases.length = 4 ∧
    s.tins.length = 16 ∧ s.refs.length = 8 ∧ s.auxs.length = 8 ∧ s.eths.length = 2) &&
  decide (s.host.rings.length = 32 ∧ s.host.leases.length = 16 ∧ s.sched.queues.length = 16 ∧ s.meas.sessions.length = 16 ∧
    s.meas.gates.length = 8 ∧ s.meas.intake.length = 16 ∧ s.meas.drainSlot.length = 16 ∧ s.meas.streams.length = 4 ∧
    s.meas.results.length = 24 ∧ s.ridge.ports.length = 6)

/-- A state that a run can reach has this form: both memories canonical, every unit there. -/
def State.sound (s : State) : Bool := s.formOk && s.unitsOk

/-! ### Accepted writes -/

/-- The write of a word passes what is judged before its value: the path reaches the page and is not barred, the word is there
and takes writes, the writer owns what it names, and no lock and no pending commit stands in the way (R27, R34 to R40). -/
def State.passes (s : State) (path : Path) (page off v : Nat) : Bool :=
  s.reaches path page && (pageBlock page).isSome && !s.barred path && decide (off < 0x800 ∧ off % 4 = 0 ∧ off ≠ 0x02C) &&
    match regAt page off with
    | none => false
    | some (k, i, d, j, w) =>
      let lower := s.lower path page k i d j
      let new := if d.words = 1 then v else if w + 1 = d.words then s.build path page (d.at_ j) d.words lower v else
        putBits lower (32 * w + 31) (32 * w) v
      let c : WCtx := ⟨path, s.agentOf path, s.adminOf path, page, i, d.at_ j, new⟩
      !refusesWrites path k i d && !s.inert k d new && (s.denies c k d.base j).isNone && !s.locked page k d j (s.present c d) new &&
        !s.busyPending page d (d.at_ j) new

/-- The value of a register of one word is valid: no reserved bit, and every field in its range (R13, R14, R39). -/
def valueOk (page off v : Nat) : Bool :=
  match regAt page off with
  | some (k, i, d, _, _) => d.words == 1 && !d.reserved v && formatOk k d v && (decide (d.base < 0x040) || rangeOk k i d.base v)
  | none => false

/-- Whether a word is a lower word of a register of several words (R17). -/
def lowerWord (page off : Nat) : Bool :=
  match regAt page off with
  | some (_, _, d, _, w) => d.words != 1 && w + 1 != d.words
  | none => false

/-- Whether a word belongs to a register that takes writes from a path (R38). -/
def takesWrites (path : Path) (page off : Nat) : Bool :=
  match regAt page off with
  | some (k, i, d, _, _) => !refusesWrites path k i d
  | none => false

/-- The registers of a block from whose writes more follows than the value of their fields, by the offset of the first. -/
def followed : Kind → List Nat
  | .dev => [DEV.CG_INSTANT.off 0, DEV.CG_ARM.off, DEV.CG_DISARM.off, DEV.SNAP_CTL.off, DEV.STAGE_CFG.off, DEV.RESET_CMD.off]
  | .own => [OWN.WINDOW.off 0, OWN.BAR2_AGENT.off, OWN.CLAIM_CMD.off, OWN.LEASE_PERIOD.off 0, OWN.LEASE_CTL.off 0]
  | .quad => [QUAD.LANE_COMMIT_CTL.off 0, QUAD.SWAP_CMD.off, QUAD.CAL_CTL.off]
  | .chan => [CHAN.OUT_CFG.off]
  | .phase => [PHASE.FIT_CFG.off]
  | .cal => [CAL.LOOP_CFG.off]
  | .trig => [TRIG.TL_SRC.off 0, TRIG.TL_SHAPE.off 0, TRIG.HOST_FIRE.off]
  | .sync => [SYNC.SYNC_IN_CFG.off, SYNC.SYNC_OUT_CFG.off, SYNC.PPS_CFG.off]
  | .seq => [SEQ.QUAD_MASK.off, SEQ.CMD.off, SEQ.REFILL_CMD.off, SEQ.UNDERRUN_COUNT.off, SEQ.ACTIVE_WRITE_DROPS.off]
  | .course => [COURSE.READY_CMD.off, COURSE.COURSE_WRITE_DROPS.off]
  | .sched => [SCHED.Q_CFG.off 0, SCHED.TICK_CFG.off 0, SCHED.SUBMIT_CMD.off]
  | .tdc => [TDC.SESSION_CMD.off, TDC.MS_CFG.off 0, TDC.FG_CFG.off 0]
  | .refsel => [REFSEL.REF_CFG.off 0, REFSEL.SEL_CFG.off, REFSEL.SEL_CMD.off, REFSEL.PTP_OBS_CMD.off, REFSEL.REF_DELAY.off 0,
      REFSEL.REF_UNC.off 0, REFSEL.REF_FREQ_UNC.off 0]
  | .servo => [SERVO.SERVO_CFG.off, SERVO.Y.off, SERVO.STEP_CMD.off]
  | .aplla => [APLL_A.FREQ_CMD.off, APLL_A.SSC_CFG.off]
  | .aux => [AUX.DIV.off, AUX.F_CEIL.off, AUX.BYPASS_CFG.off, AUX.OUT_CFG.off]
  | .tsc => [TSC.UTC_OFFSET.off, TSC.LEAP_CFG.off, TSC.LEAP_INSTANT.off, TSC.REPORT_CFG.off]
  | .domain => [DOMAIN.DOM_CMD.off, DOMAIN.DOM_CFG.off, DOMAIN.DISAGREE_MARGIN.off]
  | .eave => [EAVE.CAL_CMD.off, EAVE.PWR_CMD.off, EAVE.LOG_CMD.off, EAVE.PROG_CTL.off, EAVE.I2C_CFG.off, EAVE.UTC_OFFSET.off,
      EAVE.LEAP_CFG.off, EAVE.LEAP_INSTANT.off]
  | .flash => [FLASH.FL_CMD.off, FLASH.FL_CONFIG.off]
  | .hostq => [HOSTQ.RING_CFG.off 0, HOSTQ.RING_CTRL.off 0, HOSTQ.DOORBELL.off 0]
  | .rdg => [RDG.PORT_CFG.off, RDG.NODE_CFG.off, RDG.TRIG_CMD.off, RDG.MGMT_CMD.off]
  | .eth => [ETH.TXR_CTRL.off, ETH.RXR_CTRL.off, ETH.TXR_DOORBELL.off, ETH.RXR_DOORBELL.off]
  | .xo => [XO.FIT_CTL.off]
  | .gutter => []
  | .tin => []
  | .apllm => []
  | .dir => []

/-- Whether a write of a register puts its fields and does nothing else (R38). In GUTTER an active source may follow any write. -/
def plainReg (k : Kind) (d : RegDesc) : Bool :=
  decide (0x040 ≤ d.base) && k != .gutter && !perWindow k d.base && !(followed k).contains d.base &&
    d.fields.all (fun f => f.acc == .rw || f.acc == .rwl || f.acc == .ro)

/-- RESULT of LAST_CMD of a page (R40): 0 is OK. -/
def State.result (s : State) (page : Nat) : Nat := bitsOf (s.rd page 0x02C).toNat 15 12

/-- DETAIL of LAST_CMD of a page (R40). -/
def State.detail (s : State) (page : Nat) : Nat := bitsOf (s.rd page 0x02C).toNat 31 16

/-- Every command that waits has operands inside their ranges. -/
def State.queueOk (s : State) : Bool := s.pending.all Instr.wf

/-! ### The words of the statements -/

/-- Whether an interrupt cause of a page is pending (R37). -/
def State.irqSet (s : State) (p bit : Nat) : Bool := bitOf (s.rd p 0x018).toNat bit

/-- A command answers a next state that has a property. -/
def Completes (c : Instr) (s : State) (P : State → Prop) : Prop := ∃ t, exec c s = .next t ∧ P t

/-- With its operands inside their ranges, a command answers a next state that has a property. -/
def Runs (c : Instr) (s : State) (P : State → Prop) : Prop := c.wf = true → Completes c s P

/-- What is said of a host command that writes the word `v` at `off` of a page: once the write passes and its value is valid, the
command answers a next state in which LAST_CMD of the page reports OK (R40), and which has a property. -/
def Accepts (c : Instr) (s : State) (path : Path) (page off v : Nat) (P : State → Prop) : Prop :=
  c.wf = true → s.passes path page off v = true → valueOk page off v = true → Completes c s (fun t => t.result page = 0 ∧ P t)

/-- Every register word but those listed (page, offset) stands. -/
def KeepsRegs (s t : State) (l : List (Nat × Nat)) : Prop := ∀ p o, o < 4096 → (p, o) ∉ l → t.rd p o = s.rd p o

/-- Every register word outside the pages listed stands. -/
def KeepsPages (s t : State) (l : List Nat) : Prop := ∀ p o, o < 4096 → p ∉ l → t.rd p o = s.rd p o

/-- Every byte of BAR2 reads as before. -/
def KeepsMemory (s t : State) : Prop := ∀ a, t.memByte a = s.memByte a

/-- What is said of a host command at `off` of a page that runs but is turned away with a result (R41): no register changes but LAST_CMD
of the page and what the CMD register shows (R38, log 99), and no byte of BAR2. -/
def Refuses (c : Instr) (s : State) (page off res : Nat) : Prop :=
  Completes c s (fun t => t.result page = res ∧ KeepsRegs s t [(page, off), (page, 0x02C)] ∧ KeepsMemory s t)

/-- What has followed when an element of COMMAND ring `r` has executed (R52): the element is consumed, and a COMPLETION ring that is not
stopped holds a record with the slot, the data, the result and its detail, the tag and the operation. -/
def Completed (s t : State) (r tag op data res detail : Nat) : Prop :=
  t.get pHOSTQ (HOSTQ.DEV_IDX.DEV_IDX r) = (s.get pHOSTQ (HOSTQ.DEV_IDX.DEV_IDX r) + 1) % 2 ^ 32 ∧
    (s.ringStopped (s.ringBind r) = false →
      s.elemOut (s.ringBind r) (s.get pHOSTQ (HOSTQ.DEV_IDX.DEV_IDX (s.ringBind r))) (packRec [(192, 64, s.slotNo), (64, 128, data),
        (32, 16, detail), (16, 16, tag), (8, 4, res), (0, 8, op)]) ∈ t.out)

/-- What has followed when a trial of the image `h` is confirmed (R341): the trial is over, the rollback counter is at least the image's
SEC_VER, CONFIRMED is raised and logged, and a manifest whose next entry the image is advances NEXT_INDEX while more entries follow. -/
def Confirmed (s t : State) (h : ImageHdr) : Prop :=
  t.flash.trial = none ∧ t.flag pFLASH FLASH.STATUS.TRIAL = false ∧ t.otpSecVer h.component = max (s.otpSecVer h.component) h.secVer ∧
    t.irqSet pFLASH 3 = true ∧
    (∃ k, k < 24576 ∧ bitsOf (sparseGet (fun _ => 2 ^ 256 - 1) t.flash.log k) 143 128 = 5 ∧
      bitsOf (sparseGet (fun _ => 2 ^ 256 - 1) t.flash.log k) 151 144 = h.component) ∧
    (∀ x, s.flash.trial = some x →
      (x.listed = true → s.get pFLASH FLASH.MANIFEST_STATE.NEXT_INDEX + 1 < s.flash.manifest.length →
        t.get pFLASH FLASH.MANIFEST_STATE.NEXT_INDEX = s.get pFLASH FLASH.MANIFEST_STATE.NEXT_INDEX + 1) ∧
      (x.listed = false → t.get pFLASH FLASH.MANIFEST_STATE.NEXT_INDEX = s.get pFLASH FLASH.MANIFEST_STATE.NEXT_INDEX)) ∧ KeepsPages s t [pFLASH] ∧ KeepsMemory s t

/-- The commands that can change BAR2: its own writes, an SPI write to it, a finished refill, and what resets the core. -/
def mayStore : Instr → Bool
  | .bar2Write _ _ => true
  | .spiTransaction _ _ _ _ => true
  | .refillDone _ _ => true
  | .supplyBelowThreshold _ => true
  | .resetNLow => true
  | _ => false

/-- The cell slot that a port sent last: its count, the cell, and the bits that the scrambler left on the lane. -/
def State.sentCell (s t : State) (p bits : Nat) : Prop :=
  t.out = .cell p ((s.rdg p).slots % 2 ^ 24) bits (lineBlocks (slotBlocks ((s.rdg p).slots % 2 ^ 24) bits) (s.rdg p).scrambler).2 :: s.out ∧
    (t.rdg p).scrambler = (lineBlocks (slotBlocks ((s.rdg p).slots % 2 ^ 24) bits) (s.rdg p).scrambler).1

end Sys2Proof.Machine
end

