-- ==== Sys2Proof/Certificates/Slice0/Obligations.lean ====
section
/-! DEFINITION. The statements for the provers. Each cites the rules of spec/ it rests on in OBLIGATIONS.json; a clause that rests
on a choice of the model names the entry of the log. -/

open Sys2Proof Sys2Proof.Machine

/-! ### The step, the state, the memory -/

/-- One step takes the command at the front of the queue and runs it with the queue's rest. -/
def Obligations.StepRunsTheFrontCommand : Prop :=
  ∀ (s : State) (c : Instr) (rest : List Instr), s.pending = c :: rest → step s = exec c { s with pending := rest }

/-- On an empty queue the rows that are due enter it; when none is due one slot passes: one SCLK edge, eight TCLK counts once TCLK runs (the
model's choice, log 4). Where the spec leaves a point open the model's choice is that of log 4 and 13. -/
def Obligations.EmptyQueueBringsWhatIsDue : Prop :=
  ∀ s : State, s.pending = [] →
    (s.due ≠ [] → step s = .next { s with pending := s.due }) ∧
    (s.due = [] → s.clk.running = true → 2 ^ 64 ≤ s.clk.tclk + 8 → step s = .fault .tclkWrap) ∧
    (s.due = [] → s.power.good = true → s.eaveTick.apllaSlot.clockEdge.resetDue = false → s.clk.tclk + 8 < 2 ^ 64 →
      ∃ t, step s = .next t ∧ t.clk.slot = s.clk.slot + 1 ∧ t.clk.tclk = (if s.clk.running then s.clk.tclk + 8 else s.clk.tclk) ∧ t.pending = [])

/-- The state after the first power-on reset of the Eave: RESET_CAUSE shows EAVE_POR and SUPPLY, the log holds its first entry and CAL_LOST is
set; every other word reads as its table says; no byte of BAR2 is listed and no command waits. Where the spec leaves a point open the
model's choice is that of log 1, 3 and 6. -/
def Obligations.ResetState : Prop :=
  State.reset.sound = true ∧ State.reset.pending = [] ∧ State.reset.stage = 0 ∧ State.reset.flag pDEV DEV.RESET_CAUSE.EAVE_POR = true ∧
  State.reset.flag pDEV DEV.RESET_CAUSE.SUPPLY = true ∧
  State.reset.errSet pEAVE 0 = true ∧ State.reset.bar2 = [] ∧
  ∀ p o, o < 4096 → regKey p o ∉ State.reset.regs.map (·.1) → State.reset.rd p o = regReset (regKey p o)

/-- The form of a state is an invariant: from every state whose memories are canonical and whose units all have their records, every step that
answers a next state answers such a state. -/
def Obligations.EveryStepKeepsTheForm : Prop :=
  ∀ s t : State, s.sound = true → step s = .next t → t.sound = true

/-- Every command of the table runs to its end: from every state and for all its operands exec answers a next state (an operand outside its
range changes nothing: log 99), and no command touches the queue of waiting commands: the step alone takes from it and fills it. -/
def Obligations.CommandsLeaveTheQueue : Prop :=
  ∀ (c : Instr) (s : State), ∃ t, exec c s = .next t ∧ t.pending = s.pending

/-- Every other command of the table leaves every byte of BAR2 as it is. -/
def Obligations.OtherCommandsLeaveBar2 : Prop :=
  ∀ (c : Instr) (s t : State), mayStore c = false → exec c s = .next t → KeepsMemory s t

/-- A write into BAR2 (R30, R48, R108, R113, R122), of any alignment and up to 512 bytes, is judged byte by byte: a byte of the pattern memory
of a quad is stored when the agent of BAR2 owns the sequencer of the quad and no course in play covers its granule, a byte of the Course
table when that agent owns the course and it is not in play; a stored byte reads back, and every other byte and, if nothing is dropped,
every register stands. A byte for a quad without a sequencer, of another agent, or above the Course table is dropped and counted; one into a
granule or an entry in play is dropped and counted by the sequencer, or by COURSE. Where the spec leaves a point open the model's choice is
that of log 3, 29 and 99. Rows for which it says that exec answers a next state: BAR2_WRITE. -/
def Obligations.Bar2WriteStoresItsBytes : Prop :=
  ∀ (s : State) (off : Nat) (bytes : List Nat), (Instr.bar2Write off bytes).wf = true → s.pcieUp = true → s.stage ≠ 0 →
    ∀ agent, agent = s.get pOWN OWN.BAR2_AGENT.AGENT →
    ((∀ k, k < bytes.length →
        (off + k < courseBase ∧ ∃ q, s.seqOfQuad ((off + k) / bankBytes) = some q ∧ agent ≠ 0 ∧ s.seqOwner q = agent ∧
          s.rangeActive q ((off + k) % bankBytes / 64) 1 = false) ∨
        (courseBase ≤ off + k ∧ off + k < courseBase + 0x20000 ∧ s.inRanges agent ((off + k - courseBase) / 32) = true ∧
          s.courseActive ((off + k - courseBase) / 32) = false)) →
      Completes (.bar2Write off bytes) s (fun t => (∀ k, k < bytes.length → t.memByte (off + k) = bytes.getD k 0) ∧
        (∀ a, a < off ∨ off + bytes.length ≤ a → t.memByte a = s.memByte a) ∧ KeepsRegs s t [])) ∧
    Completes (.bar2Write off bytes) s (fun t =>
      (∀ k, k < bytes.length → s.bar2Fate (off + k) = .stored → t.memByte (off + k) = bytes.getD k 0) ∧
      (∀ a, a < off ∨ off + bytes.length ≤ a ∨ s.bar2Fate a ≠ .stored → t.memByte a = s.memByte a) ∧
      ((∃ k, k < bytes.length ∧ s.bar2Fate (off + k) = .dropped) → t.errSet pHOSTQ 1 = true ∧
        t.get pHOSTQ HOSTQ.BAR2_DROP_COUNT.COUNT = min (s.get pHOSTQ HOSTQ.BAR2_DROP_COUNT.COUNT + 1) (2 ^ 32 - 1)) ∧
      (∀ q, q < 4 → (∃ k, k < bytes.length ∧ s.bar2Fate (off + k) = .active q) → t.irqSet (pSEQ q) 6 = true ∧
        t.get (pSEQ q) SEQ.ACTIVE_WRITE_DROPS.COUNT = min (s.get (pSEQ q) SEQ.ACTIVE_WRITE_DROPS.COUNT + 1) (2 ^ 32 - 1)) ∧
      ((∃ k c, k < bytes.length ∧ s.bar2Fate (off + k) = .entry c) → t.irqSet pCOURSE 0 = true ∧
        t.get pCOURSE COURSE.COURSE_WRITE_DROPS.COUNT = min (s.get pCOURSE COURSE.COURSE_WRITE_DROPS.COUNT + 1) (2 ^ 32 - 1))) ∧
    (off + bytes.length ≤ courseBase → (∀ k, k < bytes.length → s.seqOfQuad ((off + k) / bankBytes) = none ∨ agent = 0 ∨
      (∃ q, s.seqOfQuad ((off + k) / bankBytes) = some q ∧ s.seqOwner q ≠ agent)) →
      Completes (.bar2Write off bytes) s (fun t => KeepsMemory s t))

/-! ### Accesses (chapter 2) -/

/-- Writes of registers (R17, R28, R34, R38 to R40): by a path that reaches the page a word is judged; where it passes, a lower word of a
register of several words is staged, the highest word (or the only one) puts the value built into every field that takes writes and keeps
the rest, a word of an SHD register goes to its shadow, and a register held for each window takes it for that window; a value that does not
fit is refused with RANGE, a word that no register holds with RANGE, and a barred window's with DENIED. Reads of registers (R17, R31, R36 to
R39, R56): a word read answers the path with the value its half shows, at an offset without a register zero; the lowest word of a register
of several words latches all of them for the path, and a higher word then answers from the latch; no register changes. Frames of the serial
ports (R28, R32, R33, R292, R316): a word written over SPI is a write by the window of the frame, further words go to the words above it,
and SPI reads answer the words one after another; before Stage 1 a frame writes nothing and reads ones. A word written over I2C is a write
of EAVE by the path I2C, and what is read there comes in bytes, the lowest first. A PCIe access of another size, or unaligned, raises ERR
BAD_ACCESS of HOSTQ and is counted; a read completes as Unsupported Request (R30). Where the spec leaves a point open the model's choice is
that of log 15, 28, 99 and 104. Rows for which it says that exec answers a next state: REGISTER_WRITE, STAGED_WORD_WRITE, LATCHING_READ,
SPI_TRANSACTION, I2C_TRANSACTION, BAD_ACCESS. -/
def Obligations.RegisterAccesses : Prop :=
  (∀ (s : State) (path : Path) (page off v : Nat),
    Accepts (.registerWrite path page 0x01C v) s path page 0x01C v (fun t => t.rd page 0x01C = BitVec.ofNat 32 v ∧
      KeepsRegs s t [(page, 0x01C), (page, 0x02C)] ∧ KeepsMemory s t) ∧
    (lowerWord page off = true → s.passes path page off v = true →
      Runs (.registerWrite path page off v) s (fun t => t.result page = 0 ∧
        t.stagedWord path (regKey page off) = some (BitVec.ofNat 32 v) ∧ KeepsRegs s t [(page, 0x02C)] ∧ KeepsMemory s t) ∧
      Runs (.stagedWordWrite path page off v) s (fun t => t.result page = 0 ∧
        t.stagedWord path (regKey page off) = some (BitVec.ofNat 32 v) ∧ KeepsRegs s t [(page, 0x02C)] ∧ KeepsMemory s t)) ∧
    (∀ k i d j w, regAt page off = some (k, i, d, j, w) → w + 1 = d.words → s.passes path page off v = true →
      ∀ x, x = (if d.words = 1 then v else s.build path page (d.at_ j) d.words (s.lower path page k i d j) v) →
      (plainReg k d = true → d.reserved x = false → formatOk k d x = true → rangeOk k i d.base x = true →
        Runs (.registerWrite path page off v) s (fun t => t.result page = 0 ∧
          (∀ f ∈ d.fields, bitsOf (t.rdN page (d.at_ j) d.words) f.hi f.lo =
            if f.acc = .ro then bitsOf (s.rdN page (d.at_ j) d.words) f.hi f.lo else bitsOf x f.hi f.lo) ∧
          KeepsRegs s t ((page, 0x02C) :: (List.range d.words).map (fun n => (page, d.at_ j + 4 * n))) ∧ KeepsMemory s t)) ∧
      (d.isCmd = false → d.reserved x = true ∨ formatOk k d x = false ∨ (0x040 ≤ d.base ∧ rangeOk k i d.base x = false) →
        Runs (.registerWrite path page off v) s (fun t => t.result page = 2 ∧ KeepsRegs s t [(page, 0x02C)] ∧ KeepsMemory s t))) ∧
    (∀ k i d j, regAt page off = some (k, i, d, j, 0) → d.words = 1 → d.fields.all (fun f => f.acc == .shd) = true →
      (s.ctxMode page (ctxLane page off) = 0 →
        s.commitRefusal (s.agentOf path) page (ctxLane page off) [(regKey page off, BitVec.ofNat 32 v)] = none) →
      Accepts (.registerWrite path page off v) s path page off v (fun t => t.shadowOf (regKey page off) = some (BitVec.ofNat 32 v) ∧
        KeepsRegs s t [(page, ctxOff page (ctxLane page off) + 8), (page, 0x02C)] ∧ KeepsMemory s t)) ∧
    (∀ k i d j, regAt page off = some (k, i, d, j, 0) → d.words = 1 → perWindow k d.base = true →
      Accepts (.registerWrite path page off v) s path page off v (fun t => t.winWord path page off = BitVec.ofNat 32 v ∧
        KeepsRegs s t [(page, off), (page, 0x02C)] ∧ KeepsMemory s t)) ∧
    (s.reaches path page = true → (pageBlock page).isSome = true → off ≠ 0x02C →
      (s.barred path = false → 0x800 ≤ off ∨ regAt page off = none →
        Runs (.registerWrite path page off v) s (fun t => t.result page = 2 ∧ KeepsRegs s t [(page, 0x02C)] ∧ KeepsMemory s t)) ∧
      (s.barred path = true → Runs (.registerWrite path page off v) s (fun t => t.result page = 6 ∧
        KeepsRegs s t [(page, off), (page, 0x02C), (pOWN, 0x200), (pOWN, 0x204), (pOWN, 0x208)] ∧ KeepsMemory s t))) ∧
    (s.reaches path page = false ∨ (pageBlock page).isNone = true ∨ off = 0x02C →
      Runs (.registerWrite path page off v) s (fun t => t = s))) ∧
  (∀ (s : State) (path : Path) (page off : Nat), s.reaches path page = true →
    Runs (.latchingRead path page off) s (fun t => (∃ x, t.out = .readData path page off x :: s.out) ∧ KeepsRegs s t [] ∧ KeepsMemory s t) ∧
    ((pageBlock page).isSome = true → off = 0x00C ∨ off = 0x01C → Runs (.latchingRead path page off) s (fun t =>
      t.out = .readData path page off (s.rd page off).toNat :: s.out)) ∧
    (regAt page (off % 0x800) = none → Runs (.latchingRead path page off) s (fun t => t.out = .readData path page off 0 :: s.out)) ∧
    (∀ k i d j w, regAt page (off % 0x800) = some (k, i, d, j, w) → ¬(page = pEAVE ∧ (d.base = EAVE.UTC_DATE.off ∨ d.base = EAVE.UTC_TIME.off)) →
      (d.words = 1 → off < 0x800 → Runs (.latchingRead path page off) s (fun t =>
        t.out = .readData path page off (s.lower path page k i d j % 2 ^ 32) :: s.out)) ∧
      (d.words = 1 → 0x800 ≤ off → s.host.frozen = none → Runs (.latchingRead path page off) s (fun t =>
        t.out = .readData path page off (s.mirror page k i d j % 2 ^ 32) :: s.out)) ∧
      (1 < d.words → w = 0 → off < 0x800 → Runs (.latchingRead path page off) s (fun t =>
        t.out = .readData path page off (s.lower path page k i d j % 2 ^ 32) :: s.out ∧
        t.latched path (regKey page off) = some ((wordsOf d.words (s.lower path page k i d j)).map (BitVec.ofNat 32)))) ∧
      (∀ l, 1 < d.words → w ≠ 0 → s.latched path (regKey page (off - 4 * w)) = some l → Runs (.latchingRead path page off) s (fun t =>
        t.out = .readData path page off (l.getD w 0).toNat :: s.out)))) ∧
  (∀ (s : State) (w page off v : Nat),
    (∀ addr, (Instr.spiTransaction 2 addr [v] 0).wf = true → s.power.good = true → s.stage ≠ 0 → page < 256 → off < 4096 → off % 4 = 0 →
      w < 16 → addr = w * 2 ^ 28 + page * 4096 + off →
      Completes (.spiTransaction 2 addr [v] 0) s (fun t => exec (.registerWrite (.spi w) page off v) s = .next t) ∧
      (off = 0x01C → s.passes (.spi w) page 0x01C v = true → valueOk page 0x01C v = true →
        Completes (.spiTransaction 2 addr [v] 0) s (fun t => t.result page = 0 ∧ t.rd page 0x01C = BitVec.ofNat 32 v)) ∧
      (∀ x, x < 2 ^ 32 → page * 4096 + off + 4 < 2 ^ 20 → Completes (.spiTransaction 2 addr [v, x] 0) s (fun t =>
        ∃ u, exec (.registerWrite (.spi w) page off v) s = .next u ∧
          exec (.registerWrite (.spi w) ((page * 4096 + off + 4) / 4096) ((page * 4096 + off + 4) % 4096) x) u = .next t))) ∧
    (∀ addr n, (Instr.spiTransaction 0x0B addr [] n).wf = true → s.power.good = true →
      (s.stage = 0 → Completes (.spiTransaction 0x0B addr [] n) s (fun t => t.out = .serial (List.replicate n 0xFFFFFFFF) :: s.out ∧
        KeepsRegs s t [] ∧ KeepsMemory s t)) ∧
      (s.stage ≠ 0 → spiAddrOk addr = true → Completes (.spiTransaction 0x0B addr [] n) s (fun t =>
        (∃ ws, ws.length = n ∧ t.out = .serial ws :: s.out) ∧ KeepsRegs s t [] ∧ KeepsMemory s t)) ∧
      (s.stage ≠ 0 → n = 1 → page < 256 → off < 4096 → off % 4 = 0 → w < 16 → addr = w * 2 ^ 28 + page * 4096 + off →
        Completes (.spiTransaction 0x0B addr [] n) s (fun t => ∃ x, t.out = .serial [x] :: s.out ∧
          Completes (.latchingRead (.spi w) page off) s (fun u => u.out = .readData (.spi w) page off x :: s.out))) ∧
      (∀ a, s.stage ≠ 0 → n = 1 → a < 2 ^ 26 → a % 4 = 0 → w < 16 → addr = w * 2 ^ 28 + 2 ^ 27 + a →
        Completes (.spiTransaction 0x0B addr [] n) s (fun t =>
          t.out = .serial [if courseBase + 0x20000 ≤ a then 0 else s.memNum a 4] :: s.out))) ∧
    (∀ addr data n, (Instr.spiTransaction 2 addr data n).wf = true → s.stage = 0 → Completes (.spiTransaction 2 addr data n) s (fun t => t = s)) ∧
    ((Instr.i2cTransaction off (leDigits 8 4 v) 0).wf = true → v < 2 ^ 32 → off % 4 = 0 →
      Completes (.i2cTransaction off (leDigits 8 4 v) 0) s (fun t => exec (.registerWrite .i2c pEAVE off v) s = .next t) ∧
      (off = 0x01C → s.passes .i2c pEAVE 0x01C v = true → valueOk pEAVE 0x01C v = true →
        Completes (.i2cTransaction off (leDigits 8 4 v) 0) s (fun t => t.result pEAVE = 0 ∧ t.rd pEAVE 0x01C = BitVec.ofNat 32 v))) ∧
    ((Instr.i2cTransaction off [] 4).wf = true → off % 4 = 0 →
      Completes (.i2cTransaction off [] 4) s (fun t => ∃ x, t.out = .serial (leDigits 8 4 x) :: s.out ∧
        Completes (.latchingRead .i2c pEAVE off) s (fun u => u.out = .readData .i2c pEAVE off x :: s.out)))) ∧
  (∀ (s : State) (addr size : Nat) (isRead : Bool), (Instr.badAccess addr size isRead).wf = true → s.pcieUp = true → s.stage ≠ 0 →
    ¬((size = 4 ∨ size = 8) ∧ addr % size = 0) →
    Completes (.badAccess addr size isRead) s (fun t => t.errSet pHOSTQ 0 = true ∧
      t.get pHOSTQ HOSTQ.BAD_ACCESS_COUNT.COUNT = min (s.get pHOSTQ HOSTQ.BAD_ACCESS_COUNT.COUNT + 1) (2 ^ 32 - 1) ∧
      (isRead = true → t.out.head? = some .unsupported) ∧ KeepsMemory s t))

/-- A write to a page owned by another agent is refused with DENIED and the owner in DETAIL, and changes no register but LAST_CMD of the page,
the conflict registers of OWN (R43, R45) and, written to a CMD register, what that one shows (log 99); a page that its owner alone writes
denies every other agent, free or not. It is stated of the blocks that one owner holds whole. Where the spec leaves a point open the model's
choice is that of log 83. Rows for which it says that exec answers a next state: REGISTER_WRITE. -/
def Obligations.ForeignWritesAreDenied : Prop :=
  ∀ (s : State) (path : Path) (page off v : Nat) (k : Kind) (i : Nat) (d : RegDesc) (j w : Nat), regAt page off = some (k, i, d, j, w) →
    (k ∈ [.dev, .dir, .refsel, .servo, .apllm, .aplla, .tsc, .domain, .flash, .course, .rdg, .eth, .sync] ∧ s.pageOwner page ≠ 0 ∨
      k ∈ [.chan, .aux, .cal, .seq, .phase]) → s.pageOwner page ≠ s.agentOf path ∨ s.pageOwner page = 0 →
    (Instr.registerWrite path page off v).wf = true → s.reaches path page = true → s.barred path = false → s.stage ≠ 0 →
    0x040 ≤ off → off < 0x800 → takesWrites path page off = true → path ≠ .i2c →
    Completes (.registerWrite path page off v) s (fun t => t.result page = 6 ∧ t.detail page = s.pageOwner page ∧
      KeepsRegs s t [(page, off), (page, 0x02C), (pOWN, 0x200), (pOWN, 0x204), (pOWN, 0x208)] ∧ (d.isCmd = false → t.rd page off = s.rd page off) ∧
      KeepsMemory s t)

/-! ### Commits (R24 to R27) -/

/-- COMMIT_CTL of a context: GO under MODE NEXT sets PENDING and queues the commit, ABORT drops the shadows and PENDING, and a write without
either sets MODE. The commit of a lane's context in a QUAD page: at the SCLK edge after its GO the shadow words become effective, the
context is no longer dirty or pending, and COMMIT_SEQ advances; what depends on the lane's terms is renewed. Commit groups: arming sets the
bits of every group named whose instant lies 256 ns ahead, disarming clears them, and a due group fires: it is no longer armed, and shows as
fired. Where the spec leaves a point open the model's choice is that of log 41. Rows for which it says that exec answers a next state: GO,
COMMIT_ABORT, COMMIT_MODE_CHANGE, SHADOW_COMMIT, CG_ARM, CG_DISARM, CG_FIRE. -/
def Obligations.Commits : Prop :=
  (∀ (s : State) (path : Path) (page lane v : Nat),
    (bitsOf v 1 0 = 1 → bitOf v 5 = false → 2 ≤ s.stage →
      (s.put page ⟨ctxOff page lane, 1, 0⟩ 1).commitRefusal (s.agentOf path) page lane (s.shadowWords page lane) = none →
      Accepts (.go path page lane v) s path page (ctxOff page lane) (setBit v 4) (fun t => t.pendingCtx page lane = true ∧
        (page, lane, s.clk.slot) ∈ t.host.goNext ∧ t.host.shadow = s.host.shadow ∧
        KeepsRegs s t [(page, ctxOff page lane), (page, 0x02C)] ∧ KeepsMemory s t)) ∧
    (bitsOf v 1 0 ≠ 3 → bitOf v 4 = false →
      Accepts (.commitAbort path page lane v) s path page (ctxOff page lane) (setBit v 5) (fun t => t.pendingCtx page lane = false ∧
        t.shadowWords page lane = [] ∧ t.get page ⟨ctxOff page lane + 8, 31, 16⟩ = 0 ∧
        KeepsRegs s t [(page, ctxOff page lane), (page, ctxOff page lane + 8), (page, 0x02C)] ∧ KeepsMemory s t)) ∧
    (bitsOf v 1 0 ≠ 3 → bitOf v 4 = false → bitOf v 5 = false →
      Accepts (.commitModeChange path page lane v) s path page (ctxOff page lane) v (fun t => t.ctxMode page lane = bitsOf v 1 0 ∧
        t.host.shadow = s.host.shadow ∧ KeepsRegs s t [(page, ctxOff page lane), (page, 0x02C)] ∧ KeepsMemory s t))) ∧
  (∀ (s : State) (q : Nat), q < 12 → ∀ lane : Nat, lane < 4 → s.commitDue (pQUAD q) lane = true → s.host.immed = [] →
    (∀ e ∈ s.host.shadow, ∃ p k i d j w, regAt p (e.1 % 4096) = some (k, i, d, j, w) ∧ e.1 = regKey p (e.1 % 4096) ∧ d.shd = true) →
    Completes (.shadowCommit (pQUAD q) lane) s (fun t => t.pendingCtx (pQUAD q) lane = false ∧ t.shadowWords (pQUAD q) lane = [] ∧
      (((s.shadowWords (pQUAD q) lane).map (·.1)).Nodup → ∀ e ∈ s.shadowWords (pQUAD q) lane, t.rd (pQUAD q) (e.1 % 4096) = e.2) ∧
      t.get (pQUAD q) ⟨ctxOff (pQUAD q) lane + 8, 15, 0⟩ = (s.get (pQUAD q) ⟨ctxOff (pQUAD q) lane + 8, 15, 0⟩ + 1) % 65536 ∧
      t.get (pQUAD q) ⟨ctxOff (pQUAD q) lane + 8, 31, 16⟩ = 0 ∧ KeepsMemory s t)) ∧
  (∀ (s : State) (path : Path) (v : Nat),
    (2 ≤ s.stage → (∀ g, g < 16 → bitOf v g = true → s.cgArmed g = false → s.atLeastNs (s.cgInstant g) 256 = true) →
      Accepts (.cgArm path v) s path pDEV DEV.CG_ARM.off v (fun t =>
        (∀ g, g < 16 → t.cgArmed g = (s.cgArmed g || bitOf v g)) ∧ KeepsRegs s t [(pDEV, DEV.CG_ARM.off), (pDEV, 0x02C)] ∧ KeepsMemory s t)) ∧
    Accepts (.cgDisarm path v) s path pDEV DEV.CG_DISARM.off v (fun t =>
        (∀ g, g < 16 → t.cgArmed g = (s.cgArmed g && !bitOf v g)) ∧ t.host.goGroup = s.host.goGroup ∧
        KeepsRegs s t [(pDEV, DEV.CG_ARM.off), (pDEV, DEV.CG_DISARM.off), (pDEV, 0x02C)] ∧ KeepsMemory s t) ∧
    (∀ g, g < 16 → s.cgDue g = true → s.host.goGroup = [] →
      Completes (.cgFire g) s (fun t => t.cgArmed g = false ∧ bitOf (t.get pDEV DEV.CG_FIRED.FIRED) g = true ∧
        KeepsRegs s t [(pDEV, DEV.CG_ARM.off), (pDEV, DEV.CG_FIRED.off), (pDEV, DEV.CG_LATE.off)] ∧ KeepsMemory s t)))

/-! ### Ownership, windows, leases (R35, R42 to R47) -/

/-- OWNER_ID of a free page takes the writer; CLAIM takes a free resource, RELEASE frees one's own, QUERY reports the owner in DETAIL, and
FORCE_RELEASE by an ADMIN writer leaves an agent no resource, no page and no range of courses. Where the spec leaves a point open the
model's choice is that of log 22. Rows for which it says that exec answers a next state: OWNER_WRITE, CLAIM, RELEASE, QUERY, FORCE_RELEASE. -/
def Obligations.OwnershipCommands : Prop :=
  ∀ (s : State) (path : Path) (res : Nat), s.agentOf path ≠ 0 → s.agentOf path < 0xFFFF →
    (∀ page, page ≠ pOWN → s.pageOwner page = 0 →
      Accepts (.ownerWrite path page (s.agentOf path * 65536)) s path page 0x00C (s.agentOf path * 65536) (fun t =>
        t.pageOwner page = s.agentOf path ∧ KeepsRegs s t [(page, 0x00C), (page, 0x02C)] ∧ KeepsMemory s t)) ∧
    (res ≠ 8 → claimNames res (s.claimArg path).1 (s.claimArg path).2 = true → s.resOwner res (s.claimArg path).1 = 0 →
      Accepts (.claim path res) s path pOWN OWN.CLAIM_CMD.off (packRec [(8, 8, res), (0, 8, 1)]) (fun t =>
        t.resOwner res (s.claimArg path).1 = s.agentOf path ∧ KeepsMemory s t)) ∧
    (res ≠ 8 → claimNames res (s.claimArg path).1 (s.claimArg path).2 = true → s.resOwner res (s.claimArg path).1 = s.agentOf path →
      Accepts (.release path res) s path pOWN OWN.CLAIM_CMD.off (packRec [(8, 8, res), (0, 8, 2)]) (fun t =>
        t.resOwner res (s.claimArg path).1 = 0 ∧ KeepsMemory s t)) ∧
    (∀ agent, res ≠ 8 → resExists res (s.claimArg path).1 = true → s.resOwner res (s.claimArg path).1 < 65536 →
      Accepts (.query path res agent) s path pOWN OWN.CLAIM_CMD.off (packRec [(16, 16, agent), (8, 8, res), (0, 8, 3)]) (fun t =>
        t.detail pOWN = s.resOwner res (s.claimArg path).1 ∧ KeepsRegs s t [(pOWN, OWN.CLAIM_CMD.off), (pOWN, 0x02C)] ∧ KeepsMemory s t)) ∧
    (∀ agent, s.adminOf path = true → agent ≠ 0 → agent < 0xFFFF →
      Accepts (.forceRelease path res agent) s path pOWN OWN.CLAIM_CMD.off (packRec [(16, 16, agent), (8, 8, res), (0, 8, 4)]) (fun t =>
        (∀ r ∈ t.host.ranges, r.2.2 ≠ agent) ∧
        (∀ code i, code ≠ 8 → resExists code i = true → t.resOwner code i ≠ agent) ∧ KeepsMemory s t))

/-- Windows and leases: a binding takes its agent and rights, a period is set, KICK renews and arms a lease whose period is not zero, and an
expired lease shows EXPIRED, is no longer armed and raises its error. The orphan action SAFE of an expired lease: its agent is an orphan,
and the same marks stand (R46, R47). Where the spec leaves a point open the model's choice is that of log 26. Rows for which it says that
exec answers a next state: WINDOW_BIND, LEASE_PERIOD_WRITE, KICK, LEASE_EXPIRY. -/
def Obligations.WindowsAndLeases : Prop :=
  (∀ (s : State) (path : Path) (w : Nat), w < 16 → ∀ v : Nat,
    (bindable (bitsOf v 31 16) = true → s.boundElsewhere (bitsOf v 31 16) w = false →
      Accepts (.windowBind path (0x040 + 4 * w) v) s path pOWN (0x040 + 4 * w) v (fun t =>
        t.get pOWN (OWN.WINDOW.AGENT w) = bitsOf v 31 16 ∧ t.flag pOWN (OWN.WINDOW.READ_ONLY w) = bitOf v 1 ∧
        t.flag pOWN (OWN.WINDOW.ADMIN w) = bitOf v 0 ∧ KeepsRegs s t [(pOWN, 0x040 + 4 * w), (pOWN, 0x02C)] ∧ KeepsMemory s t)) ∧
    (bindable (bitsOf v 31 16) = true →
      Accepts (.windowBind path 0x080 v) s path pOWN 0x080 v (fun t => t.get pOWN OWN.BAR2_AGENT.AGENT = bitsOf v 31 16 ∧
        KeepsRegs s t [(pOWN, 0x080), (pOWN, 0x02C)] ∧ KeepsMemory s t)) ∧
    Accepts (.windowBind path 0x084 v) s path pOWN 0x084 v (fun t => t.flag pOWN OWN.REMOTE_CTL.REMOTE_ENABLE = bitOf v 1 ∧
      t.flag pOWN OWN.REMOTE_CTL.REMOTE_ADMIN = bitOf v 0 ∧ KeepsRegs s t [(pOWN, 0x084), (pOWN, 0x02C)] ∧ KeepsMemory s t) ∧
    (1000 ≤ v → v ≤ 60000000 →
      Accepts (.leasePeriodWrite path w v) s path pOWN (OWN.LEASE_PERIOD.off w) v (fun t => t.get pOWN (OWN.LEASE_PERIOD.PERIOD_US w) = v ∧
        KeepsRegs s t [(pOWN, OWN.LEASE_PERIOD.off w), (pOWN, 0x02C)] ∧ KeepsMemory s t)) ∧
    Accepts (.leasePeriodWrite path w 0) s path pOWN (OWN.LEASE_PERIOD.off w) 0 (fun t => t.get pOWN (OWN.LEASE_PERIOD.PERIOD_US w) = 0 ∧
        t.flag pOWN (OWN.LEASE_CTL.ARMED w) = false ∧
        KeepsRegs s t [(pOWN, OWN.LEASE_PERIOD.off w), (pOWN, OWN.LEASE_CTL.off w), (pOWN, 0x02C)] ∧ KeepsMemory s t) ∧
    (s.sound = true → s.get pOWN (OWN.LEASE_PERIOD.PERIOD_US w) ≠ 0 →
      Accepts (.kick path w v) s path pOWN (OWN.LEASE_CTL.off w) (setBit v 8) (fun t => t.flag pOWN (OWN.LEASE_CTL.ARMED w) = true ∧
        (t.host.leases.getD w {}).renewed = s.clk.slot ∧ KeepsRegs s t [(pOWN, OWN.LEASE_CTL.off w), (pOWN, 0x02C)] ∧ KeepsMemory s t)) ∧
    (s.leaseDue w = true → s.flag pOWN (OWN.LEASE_CTL.ORPHAN w) = false →
      Completes (.leaseExpiry w) s (fun t => t.flag pOWN (OWN.LEASE_CTL.EXPIRED w) = true ∧ t.flag pOWN (OWN.LEASE_CTL.ARMED w) = false ∧
        t.errSet pOWN 0 = true ∧ KeepsRegs s t [(pOWN, OWN.LEASE_CTL.off w), (pOWN, 0x024)] ∧ KeepsMemory s t))) ∧
  (∀ (s : State) (w : Nat), w < 16 → s.leaseDue w = true → s.flag pOWN (OWN.LEASE_CTL.ORPHAN w) = true → s.get pOWN (OWN.WINDOW.AGENT w) ≠ 0 →
    Completes (.leaseExpiry w) s (fun t => s.get pOWN (OWN.WINDOW.AGENT w) ∈ t.host.orphaned ∧ KeepsMemory s t))

/-! ### Rings and snapshots (R49 to R56) -/

/-- Rings: enabling starts both indices at zero with nothing held, disabling stops the ring, a configuration takes its kind and binding, and a
doorbell in order moves HOST_IDX. What stops a ring and what moderation brings: a failed access stops a running ring and raises its error,
of HOSTQ or of the Ethernet port whose ring it is; the message of a vector goes when MOD_TIME has run out, or waits in the pending bits
while the vector is masked; PERST_N and D3hot end the endpoint; and a configuration request is answered with retry status before Stage 1,
and after it reads the identity, moves between D0 and D3hot, or masks a vector (what the request asks for is its operand: log 104). Where
the spec leaves a point open the model's choice is that of log 23, 24, 80, 94 and 104. Rows for which it says that exec answers a next
state: RING_ENABLE, RING_DISABLE, RING_CFG_WRITE, DOORBELL, RING_DMA_ERROR, MOD_TIME_EXPIRY, PERST_N_ASSERT, D3HOT_ENTRY,
CONFIGURATION_REQUEST. -/
def Obligations.Rings : Prop :=
  (∀ s : State, s.sound = true → ∀ (path : Path) (r : Nat), r < 32 → ∀ v : Nat,
    (s.ringOn r = false → s.flag pDEV DEV.STATUS.HOST_SEL = false → s.bindRival r (s.ringKind r) (s.ringBind r) = none →
      Accepts (.ringEnable path r v) s path pHOSTQ (HOSTQ.RING_CTRL.off r) (setBit v 31) (fun t => t.ringOn r = true ∧
        t.get pHOSTQ (HOSTQ.DOORBELL.HOST_IDX r) = 0 ∧
        (s.ringKind r ≠ 4 → t.get pHOSTQ (HOSTQ.DEV_IDX.DEV_IDX r) = 0 ∧ (t.ring r).held = []) ∧ KeepsMemory s t)) ∧
    (s.ringOn r = true →
      Accepts (.ringDisable path r v) s path pHOSTQ (HOSTQ.RING_CTRL.off r) (clrBit v 31) (fun t => t.ringOn r = false ∧
        t.ringStopped r = true ∧ KeepsRegs s t [(pHOSTQ, HOSTQ.RING_CTRL.off r), (pHOSTQ, 0x02C)] ∧ KeepsMemory s t)) ∧
    (ringCfgOk v = true → s.ringKind r ≠ 4 → bitsOf v 31 28 ≠ 4 → s.bindRival r (bitsOf v 31 28) (bitsOf v 27 20) = none →
      Accepts (.ringCfgWrite path r v) s path pHOSTQ (HOSTQ.RING_CFG.off r) v (fun t => t.ringKind r = bitsOf v 31 28 ∧
        t.ringBind r = bitsOf v 27 20 ∧ KeepsRegs s t [(pHOSTQ, HOSTQ.RING_CFG.off r), (pHOSTQ, 0x02C)] ∧ KeepsMemory s t)) ∧
    (s.bellOk r v = true → s.ringKind r ≤ 2 →
      Accepts (.doorbell path r v) s path pHOSTQ (HOSTQ.DOORBELL.off r) v (fun t => t.get pHOSTQ (HOSTQ.DOORBELL.HOST_IDX r) = v ∧
        KeepsRegs s t [(pHOSTQ, HOSTQ.DOORBELL.off r), (pHOSTQ, 0x02C)] ∧ KeepsMemory s t)) ∧
    (s.bellOk r v = true → 3 ≤ s.ringKind r →
      Accepts (.doorbell path r v) s path pHOSTQ (HOSTQ.DOORBELL.off r) v (fun t => t.get pHOSTQ (HOSTQ.DOORBELL.HOST_IDX r) = v ∧
        KeepsPages s t [pHOSTQ] ∧ KeepsMemory s t))) ∧
  (∀ (s : State) (r : Nat),
    (r < 32 → s.ringOn r = true → s.ringStopped r = false →
      Completes (.ringDmaError r) s (fun t => t.ringStopped r = true ∧ t.errSet pHOSTQ 2 = true ∧
        KeepsRegs s t [(pHOSTQ, HOSTQ.RING_CTRL.off r), (pHOSTQ, 0x024)] ∧ KeepsMemory s t)) ∧
    (∀ p, p < 2 → s.flag (pETH p) ETH.TXR_CTRL.ENABLE = true → s.flag (pETH p) ETH.TXR_CTRL.STOPPED = false →
      Completes (.ringDmaError (32 + 2 * p)) s (fun t => t.flag (pETH p) ETH.TXR_CTRL.STOPPED = true ∧ t.errSet (pETH p) 1 = true ∧
        KeepsPages s t [pETH p] ∧ KeepsMemory s t)) ∧
    (∀ p, p < 2 → s.rxRuns p = true →
      Completes (.ringDmaError (33 + 2 * p)) s (fun t => t.flag (pETH p) ETH.RXR_CTRL.STOPPED = true ∧ t.errSet (pETH p) 1 = true ∧
        KeepsPages s t [pETH p] ∧ KeepsMemory s t)) ∧
    (∀ v, v = s.get pHOSTQ (HOSTQ.RING_CFG.VECTOR r) → r < 32 → s.pcieUp = true → s.modExpired r = true →
      Completes (.modTimeExpiry r) s (fun t =>
        (if v ∈ s.host.vecMasked then t.out = s.out ∧ v ∈ t.host.vecPending else t.out = .msix v :: s.out) ∧
        v ∉ t.msixOwed ∧ KeepsRegs s t [] ∧ KeepsMemory s t)) ∧
    Completes .perstNAssert s (fun t => t.host.perst = true ∧ t.host.linkUp = false ∧ t.host.d3hot = false ∧ KeepsMemory s t) ∧
    (s.host.linkUp = true → s.host.perst = false →
      Completes .d3hotEntry s (fun t => t.host.d3hot = true ∧ t.pcieUp = false ∧ KeepsMemory s t)) ∧
    (∀ req : ConfigReq, (Instr.configurationRequest req).wf = true → s.host.linkUp = true → s.host.perst = false →
      (s.stage = 0 → Completes (.configurationRequest req) s (fun t =>
        t = { s with out := .config req.tag true :: s.out })) ∧
      (s.stage ≠ 0 → req.kind = .other → Completes (.configurationRequest req) s (fun t =>
        t = { s with out := .config req.tag false :: s.out })) ∧
      (s.stage ≠ 0 → req.kind = .identity → Completes (.configurationRequest req) s (fun t =>
        t = { s with out := .config req.tag false :: .identity req.tag Config.vendorId 0x0748 0xB1 :: s.out })) ∧
      (s.stage ≠ 0 → req.kind = .power true → Completes (.configurationRequest req) s (fun t => t.host.d3hot = true ∧ t.pcieUp = false)) ∧
      (s.stage ≠ 0 → req.kind = .power false → Completes (.configurationRequest req) s (fun t => t.host.d3hot = false ∧
        t.out = .config req.tag false :: s.out ∧ KeepsRegs s t [] ∧ KeepsMemory s t)) ∧
      (∀ v m, s.stage ≠ 0 → req.kind = .vector v m → Completes (.configurationRequest req) s (fun t =>
        (v ∈ t.host.vecMasked ↔ m = true) ∧ (m = false → v ∈ s.host.vecPending → s.pcieUp = true →
          t.out = .config req.tag false :: .msix v :: s.out ∧ v ∉ t.host.vecPending) ∧ KeepsRegs s t [] ∧ KeepsMemory s t))))

/-- An element of a COMMAND ring that executes is consumed, and its completion carries its tag, its operation and its result: a write or a read
by the ring's path (of four words in ascending order, R17, for the 128-bit forms), a fence, a renewal of the owner's leases, or nothing at
all. The frame of the 128-bit forms is stated of the AUX pages. Where the spec leaves a point open the model's choice is that of log 25.
Rows for which it says that exec answers a next state: COMMAND_WRITE32, COMMAND_READ32, COMMAND_WRITE128, COMMAND_READ128, FENCE,
LEASE_KICK, COMMAND_NOP. -/
def Obligations.CommandElements : Prop :=
  ∀ s : State, s.sound = true → ∀ r : Nat, r < 32 → s.commandReady r = true → s.ringBind r < 32 → ∀ tag page off v : Nat, page ≠ pHOSTQ →
    (s.passes (.ring r) page 0x01C v = true → valueOk page 0x01C v = true →
      Runs (.commandWrite32 r tag page 0x01C v) s (fun t => t.rd page 0x01C = BitVec.ofNat 32 v ∧ t.result page = 0 ∧
        Completed s t r tag 1 0 0 0x01C ∧ KeepsMemory s t)) ∧
    (page < 256 → off % 4 = 0 → Runs (.commandWrite32 r tag page off v) s (fun t => ∃ u, exec (.registerWrite (.ring r) page off v) s = .next u ∧
      ∀ p o, o < 4096 → p ≠ pHOSTQ → t.rd p o = u.rd p o)) ∧
    Runs (.commandRead32 r tag page off) s (fun t => Completed s t r tag 2 ((s.hostRead (.ring r) page off).1.getD 0) 0 off ∧
      KeepsPages s t [pHOSTQ] ∧ KeepsMemory s t) ∧
    (∀ n, pageBlock page = some (.aux, n) → Runs (.commandWrite128 r tag page off v) s (fun t =>
      Completed s t r tag 3 0 ((s.writeWords (.ring r) page (quadWords off v)).2.getD ⟨.ok, none⟩).res.code
        (((s.writeWords (.ring r) page (quadWords off v)).2.getD ⟨.ok, none⟩).detailOf off) ∧ KeepsMemory s t)) ∧
    (∀ n, pageBlock page = some (.aux, n) → Runs (.commandRead128 r tag page off) s (fun t =>
      Completed s t r tag 4 (joinWords (s.readWords (.ring r) page [off, off + 4, off + 8, off + 12]).1) 0 off ∧
      KeepsPages s t [pHOSTQ] ∧ KeepsMemory s t)) ∧
    Runs (.fence r tag) s (fun t => Completed s t r tag 5 0 0 0 ∧ KeepsPages s t [pHOSTQ] ∧ KeepsMemory s t) ∧
    Runs (.leaseKick r tag) s (fun t => Completed s t r tag 6 0 0 0 ∧ (∀ w, w < 16 → s.get pOWN (OWN.WINDOW.AGENT w) = s.resOwner 6 r →
      s.resOwner 6 r ≠ 0 → s.flag pOWN (OWN.LEASE_CTL.ARMED w) = true → (t.host.leases.getD w {}).renewed = s.clk.slot) ∧
      KeepsPages s t [pHOSTQ] ∧ KeepsMemory s t) ∧
    Runs (.commandNop r tag) s (fun t => Completed s t r tag 7 0 0 0 ∧ KeepsPages s t [pHOSTQ] ∧ KeepsMemory s t)

/-- Snapshots: FREEZE is taken when none is held or on its way, and the snapshot stands from the next SCLK edge; its holder ends it; and it ends
by itself after TIMEOUT_MS, which TIMED_OUT shows. Where the spec leaves a point open the model's choice is that of log 42. Rows for which
it says that exec answers a next state: FREEZE, SNAPSHOT_RELEASE, SNAPSHOT_TIMEOUT. -/
def Obligations.Snapshots : Prop :=
  ∀ (s : State) (path : Path),
    (s.host.frozen = none → s.host.freezeNext = none →
      Accepts (.freeze path) s path pDEV DEV.SNAP_CTL.off 1 (fun t => t.host.freezeNext = some (s.agentOf path, s.clk.slot) ∧
        KeepsRegs s t [(pDEV, DEV.SNAP_CTL.off), (pDEV, 0x02C)] ∧ KeepsMemory s t)) ∧
    (s.get pDEV DEV.SNAP_CTL.HOLDER = s.agentOf path →
      Accepts (.snapshotRelease path) s path pDEV DEV.SNAP_CTL.off 2 (fun t => t.host.frozen = none ∧
        t.flag pDEV DEV.SNAP_CTL.FROZEN = false ∧ t.get pDEV DEV.SNAP_CTL.HOLDER = 0 ∧
        KeepsRegs s t [(pDEV, DEV.SNAP_CTL.off), (pDEV, 0x02C)] ∧ KeepsMemory s t)) ∧
    (s.snapshotLate = true →
      Completes .snapshotTimeout s (fun t => t.host.frozen = none ∧ t.flag pDEV DEV.SNAP_CTL.FROZEN = false ∧
        t.flag pDEV DEV.SNAP_CTL.TIMED_OUT = true ∧ KeepsRegs s t [(pDEV, DEV.SNAP_CTL.off)] ∧ KeepsMemory s t))

/-! ### Engines and channels (chapters 3 and 4) -/

/-- Swaps asked for by the host, and what makes a spare usable again: SWAP_LANE arms a host swap, RESWEEP_SPARE sweeps the spare at once, RETEST
sweeps a failed engine when the quad has no spare, and LOOP_ENABLE starts the loopback. Rows for which it says that exec answers a next
state: SWAP_LANE, RESWEEP_SPARE, RETEST, LOOP_ENABLE. -/
def Obligations.QuadCommands : Prop :=
  ∀ s : State, s.sound = true → 3 ≤ s.stage → ∀ (path : Path) (q : Nat), q < 12 → (s.quad q).swap = none → s.calHeld q = false →
    (∀ lane, (s.quad q).armNext = none → s.spareReady q = true →
      Accepts (.swapLane path q lane) s path (pQUAD q) QUAD.SWAP_CMD.off (packRec [(8, 4, lane), (0, 8, 1)]) (fun t =>
        (t.quad q).armNext = some (lane, 3, s.clk.slot) ∧
        KeepsRegs s t [(pQUAD q, QUAD.SWAP_CMD.off), (pQUAD q, 0x010), (pQUAD q, 0x02C)] ∧ KeepsMemory s t)) ∧
    (s.spare q < 5 → s.engState q (s.spare q) ≠ 4 → s.inSweep q (s.spare q) = false →
      Accepts (.resweepSpare path q) s path (pQUAD q) QUAD.SWAP_CMD.off 2 (fun t => t.flag (pQUAD q) QUAD.CAL_STATE.SWEEPING = true ∧
        (t.quad q).sweeps = (s.quad q).sweeps ++ [(s.spare q, false)] ∧
        ((s.quad q).sweeps = [] → t.get (pQUAD q) QUAD.CAL_STATE.SWEEP_ENGINE = s.spare q) ∧
        KeepsRegs s t [(pQUAD q, QUAD.SWAP_CMD.off), (pQUAD q, QUAD.CAL_STATE.off), (pQUAD q, 0x02C)] ∧ KeepsMemory s t)) ∧
    (∀ e, e < 5 → s.spare q = 7 → s.engState q e = 5 →
      Accepts (.retest path q e) s path (pQUAD q) QUAD.SWAP_CMD.off (packRec [(8, 4, e), (0, 8, 3)]) (fun t =>
        t.flag (pQUAD q) QUAD.CAL_STATE.SWEEPING = true ∧ (t.quad q).sweeps = (s.quad q).sweeps ++ [(e, true)] ∧
        ((s.quad q).sweeps = [] → t.get (pQUAD q) QUAD.CAL_STATE.SWEEP_ENGINE = e) ∧ t.engState q e = 2 ∧
        KeepsRegs s t [(pQUAD q, QUAD.SWAP_CMD.off), (pQUAD q, QUAD.CAL_STATE.off), (pQUAD q, QUAD.ENGINE_STATE.off), (pQUAD q, 0x02C)] ∧
        KeepsMemory s t)) ∧
    (∀ v, bitOf v 31 = true → s.flag pCAL CAL.LOOP_CFG.ENABLE = false → s.flag (pTIN (bitsOf v 3 0)) TIN.CONTROL.ENABLE = true →
      s.resOwner 1 (bitsOf v 21 16) = s.agentOf path → s.resOwner 3 (bitsOf v 3 0) = s.agentOf path →
      Accepts (.loopEnable path v) s path pCAL CAL.LOOP_CFG.off v (fun t => t.rd pCAL CAL.LOOP_CFG.off = BitVec.ofNat 32 v ∧
        KeepsPages s t [pCAL, pTIN (bitsOf v 3 0)] ∧ KeepsMemory s t))

/-- A calibration visit (R68, R69, R73), which ends 2 ms after the one before and only in its turn: each term of an engine's path or of a lane
that has 64 edges of its sense, among those launched since its last visit, moves by an eighth of the mean error, clamped to 16 SU; while
tracking is stopped no term moves; a slice of a sweep is counted; the cycle goes on to its next target, and CYCLE counts after the last
lane. Where the spec leaves a point open the model's choice is that of log 8 and 90. Rows for which it says that exec answers a next state:
CAL_VISIT_END. -/
def Obligations.CalibrationVisit : Prop :=
  ∀ s : State, s.sound = true → ∀ (q : Nat), q < 12 → ∀ v : CalVisit, s.visitOver q v.target = true →
    Runs (.calVisitEnd q v) s (fun t => t.get (pQUAD q) QUAD.CAL_STATE.TARGET = nextTarget (!(s.quad q).sweeps.isEmpty) v.target ∧
      t.get (pQUAD q) QUAD.CAL_STATE.CYCLE = (s.get (pQUAD q) QUAD.CAL_STATE.CYCLE + (if v.target = 11 then 1 else 0)) % 256 ∧
      (t.quad q).visitAt = s.clk.slot ∧
      (∀ l, l < 4 → v.target = 8 + l → s.trackStopped q = false →
        (64 ≤ ((s.visitEdges q v).filter (·.rising)).length → t.getI (pQUAD q) (QUAD.LANE_TERM.RISE_SU l) =
          toSigned 32 (ofSigned 32 (s.getI (pQUAD q) (QUAD.LANE_TERM.RISE_SU l) + (termStep ((s.visitEdges q v).filter (·.rising))).1))) ∧
        (((s.visitEdges q v).filter (·.rising)).length < 64 → t.rd (pQUAD q) (QUAD.LANE_TERM.off l) = s.rd (pQUAD q) (QUAD.LANE_TERM.off l)) ∧
        (64 ≤ ((s.visitEdges q v).filter (!·.rising)).length → t.getI (pQUAD q) (QUAD.LANE_TERM_2.FALL_SU l) =
          toSigned 32 (ofSigned 32 (s.getI (pQUAD q) (QUAD.LANE_TERM_2.FALL_SU l) + (termStep ((s.visitEdges q v).filter (!·.rising))).1))) ∧
        KeepsPages s t [pQUAD q]) ∧
      (v.target < 5 → s.trackStopped q = false → 64 ≤ ((s.visitEdges q v).filter (·.rising)).length →
        t.getI (pQUAD q) (QUAD.ENGINE_TERM.RISE_SU v.target) =
          toSigned 32 (ofSigned 32 (s.getI (pQUAD q) (QUAD.ENGINE_TERM.RISE_SU v.target) + (termStep ((s.visitEdges q v).filter (·.rising))).1))) ∧
      (s.trackStopped q = true ∨ v.target = 15 → KeepsRegs s t ([QUAD.CAL_STATE.off, 0x010, QUAD.ENGINE_STATE.off, QUAD.SWEEP_INFO.off,
        QUAD.LANE_BOUND.off 0, QUAD.LANE_BOUND.off 1, QUAD.LANE_BOUND.off 2, QUAD.LANE_BOUND.off 3].map (fun o => (pQUAD q, o)))) ∧
      (v.target = 15 → (t.quad q).slices = (s.quad q).slices + 1) ∧ KeepsMemory s t)

/-- A sweep (R70, R71, R78): it is begun when due; once it has had the TDC for 300 ms it ends and the next that waits begins; an accepted set,
searched in the delays measured, becomes the first set of its engine or waits for the next slot boundary, where it is exchanged; a set that
fails its tests makes the engine FAILED; a retest that passes makes its engine the spare, and one that fails leaves no spare. Where the spec
leaves a point open the model's choice is that of log 36, 90 and 100. Rows for which it says that exec answers a next state: SWEEP_START,
SWEEP_DONE, TABLE_SET_EXCHANGE, RETEST_DONE. -/
def Obligations.Sweeps : Prop :=
  ∀ (s : State), s.sound = true → ∀ q : Nat, q < 12 →
    (∀ e, e < 5 → s.sweepDue q e = true → Runs (.sweepStart q e) s (fun t => t.flag (pQUAD q) QUAD.CAL_STATE.SWEEPING = true ∧
      t.get (pQUAD q) QUAD.CAL_STATE.SWEEP_ENGINE = e ∧ (t.quad q).sweeps = [(e, false)] ∧ (t.quad q).sweepAt = s.clk.slot ∧
      KeepsRegs s t [(pQUAD q, QUAD.CAL_STATE.off)] ∧ KeepsMemory s t)) ∧
    (∀ r e, s.sweepOver q false = some e → e < (s.quad q).engines.length →
      (sweepAccepted r = true → Runs (.sweepDone q r) s (fun t => (t.quad q).sweeps = (s.quad q).sweeps.drop 1 ∧
        t.flag (pQUAD q) QUAD.CAL_STATE.SWEEPING = !((s.quad q).sweeps.drop 1).isEmpty ∧ t.irqSet (pQUAD q) 2 = true ∧
        (if (s.engine q e).front = none then (t.engine q e).front = some ⟨(sweepTables r).1, (sweepTables r).2, s.clk.slot, s.dieTemp⟩
         else (t.engine q e).front = (s.engine q e).front ∧ (t.engine q e).back = some ⟨(sweepTables r).1, (sweepTables r).2, s.clk.slot, s.dieTemp⟩) ∧
        KeepsPages s t [pQUAD q, pCAL] ∧ KeepsMemory s t)) ∧
      (sweepAccepted r = false → Runs (.sweepDone q r) s (fun t => t.flag (pQUAD q) QUAD.CAL_STATE.SWEEPING = !((s.quad q).sweeps.drop 1).isEmpty ∧
        t.irqSet (pQUAD q) 2 = true ∧ t.errSet (pQUAD q) 0 = true ∧ KeepsMemory s t))) ∧
    (∀ e, e < 5 → ∀ x, (s.engine q e).back = some x → Runs (.tableSetExchange q e) s (fun t => (t.engine q e).front = some x ∧
      (t.engine q e).back = none ∧ KeepsPages s t [pQUAD q] ∧ KeepsMemory s t)) ∧
    (∀ r e, s.sweepOver q true = some e → e < 5 → e < (s.quad q).engines.length →
      (sweepAccepted r = true → Runs (.retestDone q r) s (fun t => t.spare q = e ∧ t.irqSet (pQUAD q) 2 = true ∧
        (t.engine q e).front = some ⟨(sweepTables r).1, (sweepTables r).2, s.clk.slot, s.dieTemp⟩ ∧ KeepsPages s t [pQUAD q, pCAL] ∧ KeepsMemory s t)) ∧
      (sweepAccepted r = false → Runs (.retestDone q r) s (fun t => t.spare q = 7 ∧ t.engState q e = 5 ∧ t.errSet (pQUAD q) 0 = true ∧
        KeepsPages s t [pQUAD q, pCAL] ∧ KeepsMemory s t)))

/-- A swap (R74 to R77): armed at a slot boundary with the spare in SHADOW; before B at least 16 pairs verify or abandon it, and fewer leave it
to SPARE_READY; at B the lane is switched, and the edges that reach the multiplexer from the switch point on are the spare's, with its own
codes; it is done at B + 5 ns with the map and the log changed; a lane that failed without a spare is mapped to the first that becomes
ready. Where the spec leaves a point open the model's choice is that of log 35 and 90. Rows for which it says that exec answers a next
state: SWAP_ARM, SWAP_VERIFY, SWAP_SWITCH, SWAP_DONE, FAILED_LANE_REMAP. -/
def Obligations.Swaps : Prop :=
  ∀ (s : State) (q : Nat), q < 12 →
    (∀ lane reason, s.armDue q = some (lane, reason) →
      Runs (.swapArm q lane reason) s (fun t => (t.quad q).armNext = none ∧ t.engState q (s.spare q) = 4 ∧
        t.flag (pQUAD q) QUAD.STATUS.SWAP_IN_PROGRESS = true ∧
        (∃ w, (t.quad q).swap = some w ∧ w.lane = lane ∧ w.old = s.laneEngine q lane ∧ w.new = s.spare q ∧ w.reason = reason ∧
          w.a = s.clk.slot ∧ w.b = s.clk.slot + (if reason = 2 then 206 else 4000) ∧ w.switched = none) ∧
        KeepsRegs s t [(pQUAD q, 0x010), (pQUAD q, QUAD.ENGINE_STATE.off)] ∧ KeepsMemory s t)) ∧
    (∀ w m, (s.quad q).swap = some w → w.reason ≠ 2 →
      (m.pairs < 16 ∨ w.b ≤ s.clk.slot → Runs (.swapVerify q m) s (fun t => (t.quad q).swap = some w ∧ KeepsRegs s t [] ∧ KeepsMemory s t)) ∧
      (16 ≤ m.pairs → s.clk.slot < w.b → m.diffFs.natAbs ≤ 2000 → m.missing = false →
        Runs (.swapVerify q m) s (fun t => (t.quad q).swap = some { w with verified := true } ∧ KeepsRegs s t [] ∧ KeepsMemory s t)) ∧
      (16 ≤ m.pairs → s.clk.slot < w.b → (2000 < m.diffFs.natAbs ∨ m.missing = true) →
        Runs (.swapVerify q m) s (fun t => (t.quad q).swap = none ∧ t.get (pQUAD q) QUAD.LAST_SWAP.OUTCOME = 2 ∧
          t.irqSet (pQUAD q) 1 = true ∧ KeepsPages s t [pQUAD q] ∧ KeepsMemory s t))) ∧
    (∀ w, (s.quad q).swap = some w → w.switched = none → w.b ≤ s.clk.slot →
      Runs (.swapSwitch q) s (fun t => (t.quad q).swap = some { w with switched := some s.slotNo } ∧
        (∀ i ∈ (s.chan (4 * q + w.lane)).issued, ∀ n, i.alt = some n →
          s.switchPoint q w.lane ≤ s.muxPos (4 * q + w.lane) i.engine (s.rising (4 * q + w.lane) (i.high.getD false)) i.pos →
          { i with engine := n.1, pos := n.2.1, raw := n.2.2, alt := none } ∈ (t.chan (4 * q + w.lane)).issued) ∧
        KeepsRegs s t [] ∧ KeepsMemory s t)) ∧
    (∀ w sl, (s.quad q).swap = some w → w.switched = some sl → w.b + 1 ≤ s.clk.slot → w.reason ≠ 2 → s.engState q w.old ≠ 5 →
      w.lane < 4 → w.new < 5 → w.old < 5 → w.new ≠ w.old →
      Runs (.swapDone q) s (fun t => (t.quad q).swap = none ∧ t.laneEngine q w.lane = w.new ∧ t.spare q = w.old ∧
        t.engState q w.new = 1 ∧ t.get (pQUAD q) QUAD.LAST_SWAP.OUTCOME = 1 ∧ t.get (pQUAD q) QUAD.LAST_SWAP.NEW_ENGINE = w.new ∧
        t.get (pQUAD q) QUAD.LAST_SWAP.OLD_ENGINE = w.old ∧ t.get (pQUAD q) QUAD.LAST_SWAP.LANE = w.lane ∧
        t.flag (pQUAD q) QUAD.STATUS.SWAP_IN_PROGRESS = false ∧ t.irqSet (pQUAD q) 0 = true ∧
        t.get (pQUAD q) QUAD.SWAP_COUNT.OTHER_SWAPS = min (s.get (pQUAD q) QUAD.SWAP_COUNT.OTHER_SWAPS + 1) 65535 ∧
        KeepsPages s t [pQUAD q] ∧ KeepsMemory s t)) ∧
    (∀ l rest, (s.quad q).failedLanes.reverse = l :: rest → l < 4 → s.remapDue q = true →
      Runs (.failedLaneRemap q) s (fun t => t.laneEngine q l = s.spare q ∧ t.spare q = 7 ∧ l ∉ (t.quad q).failedLanes ∧
        t.degraded q l = false ∧ t.irqSet (pQUAD q) 0 = true ∧ KeepsPages s t [pQUAD q] ∧ KeepsMemory s t))

/-- Faults of the engines and pads: TDC_FAULT ends tracking, a corrected table error is counted by its bit, an uncorrectable one makes the
engine FAILED unless tracking is stopped, and a driver fault sets the bit of its page (R72, R73, R99, R130, R236). Rows for which it says
that exec answers a next state: TDC_FAULT, ENGINE_TABLE_ECC, DRIVER_FAULT. -/
def Obligations.EngineFaults : Prop :=
  ∀ s : State, s.sound = true → s.power.good = true → ∀ q : Nat, q < 12 →
    Runs (.tdcFault q) s (fun t => t.flag (pQUAD q) QUAD.CAL_STATE.TDC_OK = false ∧ t.errSet (pQUAD q) 3 = true ∧
      t.trackStopped q = true ∧ KeepsPages s t [pQUAD q] ∧ KeepsMemory s t) ∧
    (∀ e, Runs (.engineTableEcc q e false) s (fun t => t.errSet (pQUAD q) 4 = true ∧ KeepsRegs s t [(pQUAD q, 0x024)] ∧ KeepsMemory s t)) ∧
    (∀ e, (s.trackStopped q = false → Runs (.engineTableEcc q e true) s (fun t => t.errSet (pQUAD q) 0 = true ∧ KeepsMemory s t)) ∧
      (s.trackStopped q = true → Runs (.engineTableEcc q e true) s (fun t => KeepsRegs s t [] ∧ t.quads = s.quads ∧ KeepsMemory s t))) ∧
    (∀ page bit c, pageBlock page = some (.chan, c) →
      Runs (.driverFault page bit) s (fun t => t.errSet page 1 = true ∧ KeepsRegs s t [(page, 0x024)] ∧ KeepsMemory s t)) ∧
    (∀ page bit n, pageBlock page = some (.aux, n) →
      Runs (.driverFault page bit) s (fun t => t.errSet page 0 = true ∧ KeepsRegs s t [(page, 0x024)] ∧ KeepsMemory s t)) ∧
    (∀ bit, Runs (.driverFault pSYNC bit) s (fun t => t.errSet pSYNC bit = true ∧ KeepsRegs s t [(pSYNC, 0x024)] ∧ KeepsMemory s t))

/-- An edge whose placement has come is issued to the engine of its lane at the position its codes give, and nothing shows yet (R62, R370). An
issued edge is launched in its slot (R61, R62): the pin takes its level, EDGE_COUNT advances, and LAST_EDGE_TEB shows its bound; an edge
closer than 300 ps to the last one is dropped, and counted. Where the spec leaves a point open the model's choice is that of log 38 and 89.
Rows for which it says that exec answers a next state: EDGE_ISSUE, EDGE_LAUNCH. -/
def Obligations.EdgesOfALane : Prop :=
  (∀ (s : State) (c : Nat), c < 48 → ∀ (e : Edge) (rest : List Edge) (high : Bool), (s.chan c).wait = e :: rest → (s.chan c).clk32 = none →
    (s.chan c).responses = [] → (s.chan c).seqBuf = [] → s.overlapDue c = false → e.role = .single → e.codes = none → e.kind ≠ .on → edgeLevel e (s.chan c).nextLevel = some high →
    ¬(high = (s.chan c).nextLevel ∧ (s.chan c).nextDriven = true) →
    s.now32 + 229376 * fine ≤ s.placementTarget c (s.edgeEngine c e) (s.rising c high) e.t32 →
    s.placementTarget c (s.edgeEngine c e) (s.rising c high) e.t32 ≤ s.now32 + horizon32 →
    spacingOk (s.chan c) (e.origin == .clock || e.origin == .cal) (s.codes c e high (s.edgeEngine c e) (s.chan c).dither).1 = true →
    Runs (.edgeIssue c) s (fun t => (t.chan c).wait = rest ∧ (t.chan c).nextLevel = high ∧
      (∃ i, (t.chan c).issued = (s.chan c).issued ++ [i] ∧ i.edge = e ∧ i.high = some high ∧ i.engine = s.edgeEngine c e ∧
        i.pos = (s.codes c e high (s.edgeEngine c e) (s.chan c).dither).1 ∧ i.raw = s.lineCode c i.engine i.pos) ∧
      (t.chan c).dither = (s.codes c e high (s.edgeEngine c e) (s.chan c).dither).2 ∧ KeepsRegs s t [] ∧ KeepsMemory s t)) ∧
  (∀ (s : State) (c : Nat), c < 48 → ∀ (i : Issued) (rest : List Issued) (h : Bool), (s.chan c).issued = i :: rest → i.high = some h →
    i.edge.kind ≠ .on → s.launchDue c = true →
    ((∀ p, (s.chan c).lastPos = some p → p + minSpacing ≤ i.pos ∧ posSlot p ≠ posSlot i.pos) → i.teb < 2 ^ 32 →
      Runs (.edgeLaunch c) s (fun t => (t.chan c).level = h ∧ (t.chan c).driven = true ∧ (t.chan c).lastPos = some i.pos ∧
        (t.chan c).issued = rest ∧ t.get (pCHAN c) CHAN.EDGE_COUNT.COUNT = (s.get (pCHAN c) CHAN.EDGE_COUNT.COUNT + 1) % 2 ^ 64 ∧
        t.get (pCHAN c) CHAN.LAST_EDGE_TEB.TEB_PS = i.teb ∧ .edge c i.engine i.pos (s.rising c h) i.raw ∈ t.out ∧
        KeepsPages s t [pCHAN c] ∧ KeepsMemory s t)) ∧
    (∀ p, (s.chan c).lastPos = some p → i.pos < p + minSpacing →
      Runs (.edgeLaunch c) s (fun t => (t.chan c).level = (s.chan c).level ∧ (t.chan c).issued = rest ∧
        t.get (pQUAD (chanQuad c)) (QUAD.SPACING_DROPS.COUNT (chanLane c)) =
          min (s.get (pQUAD (chanQuad c)) (QUAD.SPACING_DROPS.COUNT (chanLane c)) + 1) (2 ^ 32 - 1) ∧
        KeepsPages s t [pQUAD (chanQuad c), pCHAN c] ∧ (i.edge.isMirror = false → KeepsPages s t [pQUAD (chanQuad c)]) ∧ KeepsMemory s t)))

/-- FLUSH of a channel drops the pending responses whose first leading edge is not issued, with their edges, and no others; SAFE_EXIT with every
cause gone ends channel safe state (R91, R98). Trigger lines (R100 to R102): a line takes its source and its shape from the host, FIRE_NOW
and FIRE_AT give a line in HOST kind an event, and an event on the bus is taken off it when it is delivered. Delivery of a trigger event
(R100): the event leaves the bus; a line that takes its source, with no hold-off, a divider at its first count and no event in this slot,
counts it and keeps its instant; a line that does not take its source is left as it was. Rows for which it says that exec answers a next
state: CHANNEL_FLUSH, CHANNEL_SAFE_EXIT, TL_SRC_WRITE, TL_SHAPE_WRITE, FIRE_NOW, FIRE_AT, TRIGGER_LINE_EVENT. -/
def Obligations.ChannelsAndLines : Prop :=
  (∀ s : State, s.sound = true → ∀ (path : Path) (c : Nat), c < 48 →
    Accepts (.channelFlush path c) s path (pCHAN c) 0x014 (s.controlWith (pCHAN c) 0) (fun t =>
      (∀ r, r ∈ (t.chan c).responses ↔ r ∈ (s.chan c).responses ∧ 0 < r.next ∧
        (r.next = 1 → ∀ e ∈ (s.chan c).wait, e.origin = .response r.id → ∃ k, e.role = .trail k)) ∧
      (∀ e ∈ (s.chan c).wait, e ∈ (t.chan c).wait ∨ ∃ r ∈ (s.chan c).responses, r ∉ (t.chan c).responses ∧ e.origin = .response r.id) ∧
      (t.chan c).issued = (s.chan c).issued ∧ KeepsRegs s t [(pCHAN c, 0x02C)] ∧ KeepsMemory s t) ∧
    ((s.chan c).safe.all (fun x => s.causeCleared c x) = true →
      Accepts (.channelSafeExit path c) s path (pCHAN c) 0x014 (s.controlWith (pCHAN c) 30) (fun t => (t.chan c).safe = [] ∧
        (t.chan c).level = (s.chan c).level ∧ t.flag (pCHAN c) CHAN.CONTROL.ENABLE = s.flag (pCHAN c) CHAN.CONTROL.ENABLE ∧ KeepsMemory s t))) ∧
  (∀ s : State, s.sound = true → ∀ (path : Path) (n : Nat), n < 64 → ∀ v : Nat,
    (bitOf v 31 = false → s.flag pTRIG (TRIG.TL_SRC.ENABLE n) = false →
      Accepts (.tlSrcWrite path n v) s path pTRIG (TRIG.TL_SRC.off n) v (fun t => t.rd pTRIG (TRIG.TL_SRC.off n) = BitVec.ofNat 32 v ∧
        KeepsRegs s t [(pTRIG, TRIG.TL_SRC.off n), (pTRIG, 0x02C)] ∧ KeepsMemory s t)) ∧
    (bitOf v 31 = true → s.flag pTRIG (TRIG.TL_SRC.ENABLE n) = false → bitsOf v 3 0 ≠ 1 →
      Accepts (.tlSrcWrite path n v) s path pTRIG (TRIG.TL_SRC.off n) v (fun t => t.flag pTRIG (TRIG.TL_SRC.ENABLE n) = true ∧
        (t.line n).divCount = 0 ∧ KeepsRegs s t [(pTRIG, TRIG.TL_SRC.off n), (pTRIG, 0x02C)] ∧ KeepsMemory s t)) ∧
    Accepts (.tlShapeWrite path n v) s path pTRIG (TRIG.TL_SHAPE.off n) v (fun t => t.rd pTRIG (TRIG.TL_SHAPE.off n) = BitVec.ofNat 32 v ∧
        (t.line n).divCount = 0 ∧ KeepsRegs s t [(pTRIG, TRIG.TL_SHAPE.off n), (pTRIG, 0x02C)] ∧ KeepsMemory s t) ∧
    (2 ≤ s.stage → s.get pTRIG (TRIG.TL_SRC.KIND n) = 7 →
      Accepts (.fireNow path n) s path pTRIG TRIG.HOST_FIRE.off (packRec [(8, 6, n), (0, 8, 1)]) (fun t =>
        (t.line n).fireAt = (s.line n).fireAt ++ [(roundEven s.next32 (2 ^ 32)).toNat] ∧
        KeepsRegs s t [(pTRIG, TRIG.HOST_FIRE.off), (pTRIG, 0x02C)] ∧ KeepsMemory s t)) ∧
    (2 ≤ s.stage → s.get pTRIG (TRIG.TL_SRC.KIND n) = 7 → s.atLeastNs (s.getInst pTRIG TRIG.HOST_FIRE_AT.INSTANT) 256 = true →
      Accepts (.fireAt path n) s path pTRIG TRIG.HOST_FIRE.off (packRec [(8, 6, n), (0, 8, 2)]) (fun t =>
        (t.line n).fireAt = (s.line n).fireAt ++ [s.getInst pTRIG TRIG.HOST_FIRE_AT.INSTANT] ∧
        KeepsRegs s t [(pTRIG, TRIG.HOST_FIRE.off), (pTRIG, 0x02C)] ∧ KeepsMemory s t))) ∧
  (∀ s : State, s.sound = true → ∀ e : LineEvent, e ∈ s.lineEvents →
    Runs (.triggerLineEvent e) s (fun t => (∀ n, n < 64 → s.lineTakes n e.src = false → t.line n = s.line n) ∧
      (∀ n, n < 64 → s.lineTakes n e.src = true → s.holdoff n = 0 → (s.line n).divCount = 0 → (s.line n).lastSlot ≠ some s.clk.slot →
        (t.line n).lastAt = e.t ∧ (t.line n).lastSlot = some s.clk.slot ∧
        t.get pTRIG (TRIG.TL_COUNT.COUNT n) = (s.get pTRIG (TRIG.TL_COUNT.COUNT n) + 1) % 2 ^ 32) ∧ KeepsMemory s t))

/-! ### Sequencers (chapter 5) -/

/-- The commands of a sequencer (R117, R127, R128): START arms it for its mode, STOP_AT_END and STOP_NOW place a stop, JUMP makes a request,
CLEAR_REQUEST drops it and DISARM makes an ARMED sequencer IDLE. Where the spec leaves a point open the model's choice is that of log 43, 44
and 98. Rows for which it says that exec answers a next state: START, STOP_AT_END, STOP_NOW, JUMP, CLEAR_REQUEST, DISARM. -/
def Obligations.SequencerCommands : Prop :=
  ∀ s : State, s.sound = true → ∀ (path : Path) (q : Nat), q < 4 →
    (s.flag (pSEQ q) SEQ.CONTROL.ENABLE = true → (s.seqState q = 0 ∨ s.seqState q = 4) → s.get (pSEQ q) SEQ.QUAD_MASK.QUADS ≠ 0 → 2 ≤ s.stage →
      s.courseCheck (s.seqOwner q) (s.get (pSEQ q) SEQ.START_COURSE.COURSE) = 0 →
      (s.get (pSEQ q) SEQ.START_CFG.START_MODE ≠ 0 → 1100 * (suNs : Int) ≤ s.getSpan (pSEQ q) SEQ.START_DELAY.SPAN ∧
        s.getSpan (pSEQ q) SEQ.START_DELAY.SPAN ≤ 1000 * (suSec : Int)) →
      (s.get (pSEQ q) SEQ.START_CFG.START_MODE = 0 → s.atLeastNs (s.getInst (pSEQ q) SEQ.START_AT.INSTANT) 256 = true) →
      Accepts (.start path q) s path (pSEQ q) SEQ.CMD.off 1 (fun t => t.seqState q = 1 ∧ (t.seq q).request = none ∧
        (t.seq q).cur.map (·.course) = some (s.course (s.get (pSEQ q) SEQ.START_COURSE.COURSE)) ∧
        (s.get (pSEQ q) SEQ.START_CFG.START_MODE = 0 → (t.seq q).arm = some (.at_ (s.getInst (pSEQ q) SEQ.START_AT.INSTANT))) ∧
        (s.get (pSEQ q) SEQ.START_CFG.START_MODE = 1 → (t.seq q).arm = some .onSync) ∧
        (s.get (pSEQ q) SEQ.START_CFG.START_MODE = 2 → (t.seq q).arm = some (.onTrig (s.get (pSEQ q) SEQ.START_CFG.START_LINE))) ∧
        KeepsPages s t [pSEQ q, pHOSTQ] ∧ KeepsMemory s t)) ∧
    (s.seqState q ≠ 0 → s.seqState q ≠ 4 →
      Accepts (.stopAtEnd path q) s path (pSEQ q) SEQ.CMD.off 2 (fun t => (t.seq q).stopAtEnd = some ((s.seq q).stopAtEnd.getD s.clk.slot) ∧
        KeepsRegs s t [(pSEQ q, SEQ.CMD.off), (pSEQ q, 0x02C)] ∧ KeepsMemory s t)) ∧
    (s.seqState q = 3 →
      Accepts (.stopNow path q) s path (pSEQ q) SEQ.CMD.off 3 (fun t => t.seqState q = 4 ∧ t.get (pSEQ q) SEQ.STOP_INFO.REASON = 1 ∧
        KeepsPages s t [pSEQ q, pHOSTQ] ∧ KeepsMemory s t)) ∧
    ((s.seqState q = 1 ∨ s.seqState q = 2) → (s.seq q).endsBy (s.instantOfSlot (s.clk.slot + 205)) = false →
      Accepts (.stopNow path q) s path (pSEQ q) SEQ.CMD.off 3 (fun t => (t.seq q).halt = some (s.instantOfSlot (s.clk.slot + 205)) ∧
        (t.seq q).ends = some (s.instantOfSlot (s.clk.slot + 205), 1) ∧
        KeepsRegs s t [(pSEQ q, SEQ.CMD.off), (pSEQ q, 0x02C)] ∧ KeepsMemory s t)) ∧
    (s.seqState q = 3 → (s.seq q).request = none →
      Accepts (.jump path q) s path (pSEQ q) SEQ.CMD.off 4 (fun t => (t.seq q).request = some s.now32 ∧
        t.flag (pSEQ q) SEQ.STATUS.REQUEST_PENDING = true ∧ KeepsRegs s t [(pSEQ q, 0x010), (pSEQ q, SEQ.CMD.off), (pSEQ q, 0x02C)] ∧
        KeepsMemory s t)) ∧
    (∀ o, s.seqState q = 2 → (s.seq q).request = none → (s.seq q).cur = some o → o.course.jumpCond ≠ 2 →
      Accepts (.jump path q) s path (pSEQ q) SEQ.CMD.off 4 (fun t => (t.seq q).request = some s.now32 ∧
        t.flag (pSEQ q) SEQ.STATUS.REQUEST_PENDING = true ∧ t.flag (pSEQ q) SEQ.STATUS.JUMP_DEFERRED = true ∧ t.irqSet (pSEQ q) 4 = true ∧
        KeepsPages s t [pSEQ q] ∧ KeepsMemory s t)) ∧
    Accepts (.clearRequest path q) s path (pSEQ q) SEQ.CMD.off 5 (fun t => (t.seq q).request = none ∧
      t.flag (pSEQ q) SEQ.STATUS.REQUEST_PENDING = false ∧ t.flag (pSEQ q) SEQ.STATUS.JUMP_DEFERRED = false ∧
      KeepsRegs s t [(pSEQ q, 0x010), (pSEQ q, SEQ.CMD.off), (pSEQ q, 0x02C)] ∧ KeepsMemory s t) ∧
    (s.seqState q = 1 →
      Accepts (.disarm path q) s path (pSEQ q) SEQ.CMD.off 6 (fun t => t.seqState q = 0 ∧ (t.seq q).arm = none ∧ (t.seq q).cur = none ∧
        KeepsPages s t [pSEQ q, pHOSTQ] ∧ KeepsMemory s t))

/-- Refill and readiness (R114, R121, R123, R134): SUBMIT queues a refill and clears READY of its course, FLUSH keeps only the refill that is
being read, SET and CLEAR change READY of every course named, and VALIDATE reports the first course that fails. The end of a refill (R123):
the granules read stand in the bank and the queue goes on; a DMA error ends every refill of the sequencer. Where the spec leaves a point
open the model's choice is that of log 45 and 47. Rows for which it says that exec answers a next state: REFILL_SUBMIT, REFILL_FLUSH,
READY_SET, READY_CLEAR, VALIDATE, REFILL_DONE, REFILL_DMA_ERROR. -/
def Obligations.Refills : Prop :=
  (∀ s : State, s.sound = true → ∀ path : Path,
    (∀ q, q < 4 → s.inRanges (s.agentOf path) (s.get (pSEQ q) SEQ.REFILL_ARG.COURSE) = true →
      s.get (pSEQ q) SEQ.REFILL_ARG.QUAD ∈ s.seqQuads q → s.courseCheck (s.seqOwner q) (s.get (pSEQ q) SEQ.REFILL_ARG.COURSE) = 0 →
      s.get (pSEQ q) SEQ.REFILL_ADDR.ADDR % 64 = 0 → s.hostSpi = false →
      s.rangeActive q (s.course (s.get (pSEQ q) SEQ.REFILL_ARG.COURSE)).base (s.course (s.get (pSEQ q) SEQ.REFILL_ARG.COURSE)).len = false →
      (s.seq q).refills.length < 16 →
      Accepts (.refillSubmit path q) s path (pSEQ q) SEQ.REFILL_CMD.off 1 (fun t =>
        (t.seq q).refills.length = (s.seq q).refills.length + 1 ∧ t.ready (s.get (pSEQ q) SEQ.REFILL_ARG.COURSE) = false ∧
        t.get (pSEQ q) SEQ.REFILL_STATE.QUEUED = (s.seq q).refills.length + 1 ∧ KeepsPages s t [pSEQ q, pCOURSE] ∧ KeepsMemory s t)) ∧
    (∀ q, q < 4 → Accepts (.refillFlush path q) s path (pSEQ q) SEQ.REFILL_CMD.off 2 (fun t =>
        (t.seq q).refills = (s.seq q).refills.take 1 ∧
        KeepsRegs s t [(pSEQ q, SEQ.REFILL_CMD.off), (pSEQ q, SEQ.REFILL_STATE.off), (pSEQ q, 0x02C)] ∧ KeepsMemory s t)) ∧
    (s.get pCOURSE COURSE.READY_ARG.FIRST + s.get pCOURSE COURSE.READY_ARG.COUNT ≤ 4096 → s.agentOf path ≠ 0 →
      (∃ r ∈ s.host.ranges, r.2.2 = s.agentOf path ∧ r.1 ≤ s.get pCOURSE COURSE.READY_ARG.FIRST ∧
        s.get pCOURSE COURSE.READY_ARG.FIRST + s.get pCOURSE COURSE.READY_ARG.COUNT ≤ r.1 + r.2.1) →
      ((∀ c ∈ s.namedCourses, ∀ q, q < 4 → ∀ r ∈ (s.seq q).refills, r.course ≠ c) →
        Accepts (.readySet path) s path pCOURSE COURSE.READY_CMD.off 1 (fun t => (∀ c ∈ s.namedCourses, t.ready c = true) ∧ KeepsMemory s t)) ∧
      Accepts (.readyClear path) s path pCOURSE COURSE.READY_CMD.off 2 (fun t => (∀ c ∈ s.namedCourses, t.ready c = false) ∧
        KeepsPages s t [pCOURSE] ∧ KeepsMemory s t) ∧
      ((∀ c ∈ s.namedCourses, s.courseCheck (s.agentOf path) c = 0) →
        Accepts (.validate path) s path pCOURSE COURSE.READY_CMD.off 3 (fun t => t.rd pCOURSE COURSE.VALIDATE_RESULT.off = 0 ∧
          KeepsRegs s t [(pCOURSE, COURSE.VALIDATE_RESULT.off), (pCOURSE, COURSE.READY_CMD.off), (pCOURSE, 0x02C)] ∧ KeepsMemory s t)) ∧
      (∀ c, s.namedCourses.find? (fun k => s.courseCheck (s.agentOf path) k != 0) = some c →
        s.passes path pCOURSE COURSE.READY_CMD.off 3 = true →
        Runs (.validate path) s (fun t => t.result pCOURSE = 2 ∧ t.flag pCOURSE COURSE.VALIDATE_RESULT.FAIL = true ∧
          t.get pCOURSE COURSE.VALIDATE_RESULT.COURSE = c ∧ KeepsPages s t [pCOURSE] ∧ KeepsMemory s t)))) ∧
  (∀ s : State, s.sound = true → ∀ q, q < 4 → ∀ (r : Refill) (rest : List Refill), (s.seq q).refills = r :: rest →
    (∀ bytes, s.pcieUp = true → bytes.length = 64 * r.len → r.quad < 12 → r.base + r.len ≤ 65536 → s.rangeActive q r.base r.len = false →
      Runs (.refillDone q bytes) s (fun t => (t.seq q).refills = rest ∧
        (∀ k, k < bytes.length → t.memByte (r.quad * bankBytes + 64 * r.base + k) = bytes.getD k 0) ∧
        (∀ a, a < r.quad * bankBytes + 64 * r.base ∨ r.quad * bankBytes + 64 * r.base + bytes.length ≤ a → t.memByte a = s.memByte a) ∧
        t.irqSet (pSEQ q) 5 = true)) ∧
    Runs (.refillDmaError q) s (fun t => (t.seq q).refills = [] ∧ t.errSet (pSEQ q) 1 = true ∧ KeepsPages s t [pSEQ q, pHOSTQ] ∧ KeepsMemory s t))

/-- Playback (R111, R115, R119, R125, R128): a decision stops playback or chooses the successor, the successor starts at its instant, by a cut
or not, a parked one when it is resumed, and a stop that has come leaves the sequencer STOPPED with its reason. Where the spec leaves a
point open the model's choice is that of log 44 and 98. Rows for which it says that exec answers a next state: SEQ_DECISION,
SEQ_OCCURRENCE_START, SEQ_CUT, SEQ_PARK_RESUME, SEQ_STOP. -/
def Obligations.Playback : Prop :=
  ∀ s : State, s.sound = true → ∀ q, q < 4 →
    (∀ o reason, s.decideDue q = true → (s.seq q).cur = some o → s.seqChoose q o = .stop reason →
      Runs (.seqDecision q) s (fun t => (t.seq q).stop = some (o.stop, reason) ∧ (t.seq q).chain = [] ∧ KeepsPages s t [pSEQ q] ∧
        KeepsMemory s t)) ∧
    (∀ o c via, s.decideDue q = true → (s.seq q).cur = some o → s.seqChoose q o = .go c via → s.courseCheck (s.seqOwner q) c = 0 →
      (c = o.course.id ∨ s.readyBefore c = true) →
      Runs (.seqDecision q) s (fun t => (∃ n, (t.seq q).chain = [n] ∧ n.course = s.course c ∧ n.start = o.stop) ∧ (t.seq q).decided = true ∧
        t.get (pSEQ q) SEQ.CURRENT.SUCCESSOR = (s.course c).id % 4096 ∧ KeepsPages s t [pSEQ q] ∧ KeepsMemory s t)) ∧
    (∀ n rest, s.parkDue q = false → s.startDue q false = true → (s.seq q).started = true → (s.seq q).chain = n :: rest →
      (s.seq q).request = none →
      Runs (.seqOccurrenceStart q) s (fun t => (t.seq q).cur = some n ∧ (t.seq q).chain = rest ∧ t.seqState q = 2 ∧
        t.get (pSEQ q) SEQ.CURRENT.COURSE = n.course.id % 4096 ∧ KeepsMemory s t)) ∧
    (∀ o, s.parkDue q = true → (s.seq q).cur = some o →
      Runs (.seqOccurrenceStart q) s (fun t => t.seqState q = 3 ∧ t.irqSet (pSEQ q) 9 = true ∧ (t.seq q).chain = (s.seq q).chain ∧
        KeepsPages s t [pSEQ q, pHOSTQ, pCOURSE] ∧ KeepsMemory s t)) ∧
    (∀ n rest, s.startDue q true = true → (s.seq q).chain = n :: rest → (s.seq q).request = none →
      Runs (.seqCut q) s (fun t => (t.seq q).cur = some n ∧ (t.seq q).chain = rest ∧ t.seqState q = 2 ∧
        t.get (pSEQ q) SEQ.CURRENT.COURSE = n.course.id % 4096 ∧ KeepsMemory s t)) ∧
    (∀ n rest, s.resumeDue q = true → (s.seq q).started = true → (s.seq q).chain = n :: rest → (s.seq q).request = none →
      Runs (.seqParkResume q) s (fun t => (t.seq q).cur = some n ∧ (t.seq q).chain = rest ∧ t.seqState q = 2 ∧ KeepsMemory s t)) ∧
    (∀ u reason, (s.seq q).ends = some (u, reason) → s.stopDue q = true →
      Runs (.seqStop q) s (fun t => t.seqState q = 4 ∧ t.get (pSEQ q) SEQ.STOP_INFO.REASON = reason % 16 ∧ (t.seq q).cur = none ∧
        (t.seq q).stop = none ∧ (t.seq q).halt = none ∧ t.irqSet (pSEQ q) 1 = true ∧ KeepsPages s t [pSEQ q, pHOSTQ] ∧ KeepsMemory s t))

/-- The records of a bank (R107, R109, R110, R112, R127): the next record of the one quad of a sequencer is read by the row of its opcode. An
edge record in its course and in time goes to the buffer of its lane with its target, a MARK waits for its target, one whose target lies
before the sequencer took its start is counted as late, END ends the bank, NOP does nothing else, a record with a reserved bit or opcode is
counted, and a record of a lane that is not in SEQ mode has no effect. Memory errors of the pattern memory and the Course table set the bit
of the page they belong to (R108, R114). Where the spec leaves a point open the model's choice is that of log 98. Rows for which it says
that exec answers a next state: EDGE_HI, EDGE_LO, TOGGLE, MARK, RECORD_NOP, RECORD_END, BANK_ECC, COURSE_TABLE_ECC. -/
def Obligations.Records : Prop :=
  (∀ s : State, s.sound = true → ∀ q, q < 4 → ∀ (d i v : Nat) (o : SeqOcc), s.seqQuads q = [d] → s.bankNext q d = some (i, o, v) →
    d < o.banks.length → (o.banks.getD d {}).lanes.length = 4 →
    (recReserved v = false → recOffset v < o.course.duration → (o.banks.getD d {}).lanes.getD (recLane v) 0 ≤ recOffset v →
      o.start + 8 * (recOffset v : Int) < o.stop → (s.seq q).endsBy (o.start + 8 * (recOffset v : Int)) = false →
      s.seqPlays (4 * d + recLane v) = true →
      ((s.seq q).lateBefore ≤ (o.start + 8 * (recOffset v : Int)) * fine →
        (∀ h, s.now32 + 40 * suNs * fine ≤ s.placementTarget (4 * d + recLane v) (s.laneEngine d (recLane v))
            (s.rising (4 * d + recLane v) h) ((o.start + 8 * (recOffset v : Int)) * fine)) →
        (recOp v = 0 → Runs (.edgeHi q) s (fun t => ⟨(o.start + 8 * (recOffset v : Int)) * fine, .set true, q, (s.seq q).basis⟩ ∈
          (t.chan (4 * d + recLane v)).seqBuf ∧ KeepsRegs s t [] ∧ KeepsMemory s t)) ∧
        (recOp v = 1 → Runs (.edgeLo q) s (fun t => ⟨(o.start + 8 * (recOffset v : Int)) * fine, .set false, q, (s.seq q).basis⟩ ∈
          (t.chan (4 * d + recLane v)).seqBuf ∧ KeepsRegs s t [] ∧ KeepsMemory s t)) ∧
        (recOp v = 2 → Runs (.toggle q) s (fun t => ⟨(o.start + 8 * (recOffset v : Int)) * fine, .toggle, q, (s.seq q).basis⟩ ∈
          (t.chan (4 * d + recLane v)).seqBuf ∧ KeepsRegs s t [] ∧ KeepsMemory s t))) ∧
      ((s.seq q).lateBefore ≤ (o.start + 8 * (recOffset v : Int)) * fine → recOp v = 3 → s.markDue q = none → Runs (.mark q) s (fun t =>
        (t.seq q).marks = (s.seq q).marks ++ [(o.start + 8 * (recOffset v : Int), d, recLane v, o.course.id)] ∧ KeepsRegs s t [] ∧
        KeepsMemory s t)) ∧
      ((o.start + 8 * (recOffset v : Int)) * fine < (s.seq q).lateBefore → ∀ c : Instr,
        (recOp v = 0 ∧ c = .edgeHi q) ∨ (recOp v = 1 ∧ c = .edgeLo q) ∨ (recOp v = 2 ∧ c = .toggle q) ∨
          (recOp v = 3 ∧ s.markDue q = none ∧ c = .mark q) → Runs c s (fun t =>
          t.get (pSEQ q) SEQ.LATE_RECORDS.COUNT = min (s.get (pSEQ q) SEQ.LATE_RECORDS.COUNT + 1) (2 ^ 32 - 1) ∧ t.irqSet (pSEQ q) 7 = true ∧
          t.chans = s.chans ∧ (t.seq q).marks = (s.seq q).marks ∧ KeepsPages s t [pSEQ q] ∧ KeepsMemory s t))) ∧
    (s.seqPlays (4 * d + recLane v) = false → ∀ c : Instr,
      (recOp v = 0 ∧ c = .edgeHi q) ∨ (recOp v = 1 ∧ c = .edgeLo q) ∨ (recOp v = 2 ∧ c = .toggle q) ∨
        (recOp v = 3 ∧ s.markDue q = none ∧ c = .mark q) → Runs c s (fun t => t.chans = s.chans ∧ (t.seq q).marks = (s.seq q).marks ∧
          KeepsRegs s t [] ∧ KeepsMemory s t)) ∧
    (recOp v = 4 → recReserved v = false → Runs (.recordNop q) s (fun t => KeepsRegs s t [] ∧ KeepsMemory s t ∧
      ∃ o', (t.seqFetching q)[i]? = some o' ∧ (o'.banks.getD d {}).pos = (o.banks.getD d {}).pos + 1)) ∧
    (recOp v = 5 → recReserved v = false → Runs (.recordEnd q) s (fun t => KeepsRegs s t [] ∧ KeepsMemory s t ∧
      ∃ o', (t.seqFetching q)[i]? = some o' ∧ (o'.banks.getD d {}).ended = true)) ∧
    (∀ c : Instr, (recReserved v = true ∧ recOp v = 0 ∧ s.seqPlays (4 * d + recLane v) = true ∧ c = .edgeHi q) ∨
        (5 < recOp v ∧ c = .recordNop q) → Runs c s (fun t =>
      t.get (pSEQ q) SEQ.RECORD_ERRORS.COUNT = min (s.get (pSEQ q) SEQ.RECORD_ERRORS.COUNT + 1) (2 ^ 32 - 1) ∧ t.irqSet (pSEQ q) 8 = true ∧
      t.chans = s.chans ∧ KeepsPages s t [pSEQ q] ∧ KeepsMemory s t))) ∧
  (∀ (s : State) (bad : Bool),
    (∀ d g q, s.seqOfQuad d = some q → Runs (.bankEcc d g bad) s (fun t => t.errSet (pSEQ q) (if bad then 2 else 3) = true ∧
      (bad = true → (d, g) ∈ t.ecc.granules) ∧ KeepsRegs s t [(pSEQ q, 0x024)] ∧ KeepsMemory s t)) ∧
    (∀ c, Runs (.courseTableEcc c bad) s (fun t => t.errSet pCOURSE (if bad then 0 else 1) = true ∧ (bad = true → c ∈ t.ecc.courses) ∧
      KeepsRegs s t [(pCOURSE, 0x024)] ∧ KeepsMemory s t)))

/-- SYNC (R130, R131, R240): a crossing that SYNC_IN_CFG takes, on a resolved input, is counted with its instant less IN_SKEW and its bound; one
while the input is UNRESOLVED, or to the side it is on, is not reported. A marker whose pulse is free begins it, and PPS_OUT begins one at
each whole second; each pulse carries its bound. Where the spec leaves a point open the model's choice is that of log 97. Rows for which it
says that exec answers a next state: SYNC_IN_EVENT, SYNC_OUT_PULSE, PPS_PULSE. -/
def Obligations.SyncPins : Prop :=
  ∀ s : State,
    (∀ (u : Nat) rising growth, s.syncTakes rising = true → 2 ≤ s.stage → s.flag pSYNC SYNC.STATUS.IN_UNRESOLVED = false → s.sync.inLevel ≠ some rising →
      (∀ p, s.sync.inLast = some p → p + 81920 ≤ (u : Int)) → Runs (.syncInEvent u rising growth) s (fun t =>
      t.get pSYNC SYNC.IN_COUNT.COUNT = (s.get pSYNC SYNC.IN_COUNT.COUNT + 1) % 2 ^ 32 ∧ t.irqSet pSYNC 0 = true ∧
      (((u : Int) - s.getSpan pSYNC SYNC.IN_SKEW.SPAN).toNat < instantLimit →
        t.getInst pSYNC SYNC.LAST_IN.INSTANT = ((u : Int) - s.getSpan pSYNC SYNC.IN_SKEW.SPAN).toNat) ∧
      t.get pSYNC SYNC.LAST_IN_TEB.TEB_PS = tebAdd (tebAdd (s.tebTs ((u : Int) - s.getSpan pSYNC SYNC.IN_SKEW.SPAN).toNat)
        (tebAdd (if s.stage = 2 then 200 else 10) growth)) (s.get pSYNC SYNC.IN_SKEW_UNC.UNC_PS) ∧
      t.sync.inLast = some (u : Int) ∧ t.sync.inLevel = some rising ∧ KeepsMemory s t)) ∧
    (∀ (u : Nat) rising growth, s.flag pSYNC SYNC.STATUS.IN_UNRESOLVED = true ∨ s.sync.inLevel = some rising →
      Runs (.syncInEvent u rising growth) s (fun t => KeepsRegs s t [] ∧ t.seqs = s.seqs ∧ KeepsMemory s t)) ∧
    (∀ u : Nat, (u : Int) ∈ s.sync.marks → s.flag pSYNC SYNC.SYNC_OUT_CFG.ENABLE = true → s.gutter.safe = false →
      ((u : Int) ≥ s.sync.outEnd + minSpacing ∨ s.sync.outEnd = 0) → Runs (.syncOutPulse u) s (fun t =>
        t.out = .pulse false u (tebAdd (s.tebTs u) 25) :: s.out ∧ t.sync.outStart = u ∧
        t.sync.outEnd = u + s.get pSYNC SYNC.SYNC_OUT_WIDTH.WIDTH_NS * suNs ∧
        t.get pSYNC SYNC.OUT_COUNT.COUNT = (s.get pSYNC SYNC.OUT_COUNT.COUNT + 1) % 2 ^ 32 ∧
        KeepsRegs s t [(pSYNC, SYNC.OUT_COUNT.off)] ∧ KeepsMemory s t)) ∧
    (∀ sec : Nat, s.clk.seeded = true → sec = s.nowSecond → s.sync.second ≠ sec → s.flag pSYNC SYNC.PPS_CFG.ENABLE = true → s.gutter.safe = false →
      Runs (.ppsPulse sec) s (fun t => t.sync.second = sec ∧ t.out = .pulse true (sec * suSec) (tebAdd (s.tebTs (sec * suSec : Nat)) 100) :: s.out ∧
        KeepsRegs s t [] ∧ KeepsMemory s t))

/-! ### Scheduler, ticks and trackers (chapter 6) -/

/-- The commands of the scheduler (R137, R143, R146, R149): SUBMIT appends an accepted action, FLUSH empties the queue, SAFE_EXIT releases the
writer's queues, and a tick generator starts at its first tick 1 024 ns ahead. Where the spec leaves a point open the model's choice is that
of log 7, 49 and 50. Rows for which it says that exec answers a next state: SUBMIT, FLUSH, QUEUE_SAFE_EXIT, TICK_ENABLE. -/
def Obligations.SchedulerCommands : Prop :=
  ∀ s : State, s.sound = true → ∀ (path : Path) (q : Nat), q < 16 →
    (s.queueOwner q ≠ 0 → s.ringFor 1 q = none → s.flag pSCHED (SCHED.Q_CFG.ENABLE q) = true → (s.queue q).actions.length < 512 →
      s.actionCheck q (s.winNat path pSCHED SCHED.SUBMIT_BUF.off 8) = .ok →
      Accepts (.submit path q) s path pSCHED SCHED.SUBMIT_CMD.off (packRec [(8, 4, q), (0, 8, 1)]) (fun t =>
        (∃ a, (t.queue q).actions = (s.queue q).actions ++ [a] ∧ a.op = bitsOf (s.winNat path pSCHED SCHED.SUBMIT_BUF.off 8) 7 0 ∧
          a.target = bitsOf (s.winNat path pSCHED SCHED.SUBMIT_BUF.off 8) 35 28 ∧ a.queue = q) ∧
        t.get pSCHED (SCHED.Q_ACCEPTED.COUNT q) = (s.get pSCHED (SCHED.Q_ACCEPTED.COUNT q) + 1) % 2 ^ 32 ∧ KeepsPages s t [pSCHED] ∧
        KeepsMemory s t)) ∧
    Accepts (.flush path q) s path pSCHED SCHED.SUBMIT_CMD.off (packRec [(8, 4, q), (0, 8, 2)]) (fun t => (t.queue q).actions = [] ∧
      t.get pSCHED (SCHED.Q_ORDER_REF.WHEN q) = 0 ∧ KeepsPages s t [pSCHED, pHOSTQ] ∧ KeepsMemory s t) ∧
    (s.agentOf path ∉ s.host.orphaned →
      Accepts (.queueSafeExit path) s path pSCHED 0x014 (s.controlWith pSCHED 30) (fun t => s.agentOf path ∉ t.sched.held ∧
        KeepsRegs s t [(pSCHED, 0x02C)] ∧ KeepsMemory s t)) ∧
    (∀ n v, n < 8 → bitOf v 31 = true → s.flag pSCHED (SCHED.TICK_CFG.ENABLE n) = false → 2 ≤ s.stage → s.tickPeriod n ≠ 0 →
      Accepts (.tickEnable path n v) s path pSCHED (SCHED.TICK_CFG.off n) v (fun t => t.flag pSCHED (SCHED.TICK_CFG.ENABLE n) = true ∧
        t.get pSCHED (SCHED.TICK_FIRED.COUNT n) = 0 ∧
        t.get pSCHED (SCHED.TICK_NEXT.INDEX n) = s.tickIndexFrom n (s.next32 + horizon32) % 2 ^ 64 ∧ KeepsPages s t [pSCHED] ∧ KeepsMemory s t))

/-- What happens in the scheduler by itself (R137, R140, R146, R149): an action of an ACTION ring is accepted, the earliest action that is in
time is handed over, a tick is delivered 1 024 ns before its instant, and an error in a queue's memory discards its head. Rows for which it
says that exec answers a next state: ACTION_ACCEPT, ACTION_DISPATCH, TICK_DELIVERY, QUEUE_ECC. -/
def Obligations.SchedulerEvents : Prop :=
  ∀ s : State, s.sound = true →
    (∀ r a q, r < 32 → q = s.get pHOSTQ (HOSTQ.RING_CFG.BIND r) → q < 16 → s.ringOn r = true → s.ringStopped r = false → s.ringKind r = 1 →
      s.hostSpi = false → s.get pHOSTQ (HOSTQ.DEV_IDX.DEV_IDX r) ≠ s.get pHOSTQ (HOSTQ.DOORBELL.HOST_IDX r) →
      s.flag pSCHED (SCHED.Q_CFG.ENABLE q) = true → (s.queue q).actions.length < 512 → s.actionCheck q a = .ok →
      Runs (.actionAccept r a) s (fun t => (∃ x, (t.queue q).actions = (s.queue q).actions ++ [x] ∧ x.op = bitsOf a 7 0 ∧
          x.acceptIdx = s.get pHOSTQ (HOSTQ.DEV_IDX.DEV_IDX r)) ∧
        t.get pHOSTQ (HOSTQ.DEV_IDX.DEV_IDX r) = (s.get pHOSTQ (HOSTQ.DEV_IDX.DEV_IDX r) + 1) % 2 ^ 32 ∧
        KeepsPages s t [pSCHED, pHOSTQ] ∧ KeepsMemory s t)) ∧
    (∀ q a u, earliestHead s.readyHeads = some (q, a, u) → s.sched.lastSlot ≠ some s.clk.slot → s.atLeastNs u 256 = true →
      a.tebLimit = 0xFFFFFFFF → Runs .actionDispatch s (fun t => (t.queue q).actions = (s.queue q).actions.drop 1 ∧
        (∃ x, t.sched.dispatched = s.sched.dispatched ++ [x] ∧ x.action = a ∧ x.t = u) ∧ t.sched.lastSlot = some s.clk.slot ∧
        (a.late = false → KeepsRegs s t []) ∧ KeepsPages s t [pSCHED] ∧ KeepsMemory s t)) ∧
    (∀ n, n < 8 → s.tickDue n = true → Runs (.tickDelivery n) s (fun t =>
      t.get pSCHED (SCHED.TICK_NEXT.INDEX n) = (s.get pSCHED (SCHED.TICK_NEXT.INDEX n) + 1) % 2 ^ 64 ∧
      t.get pSCHED (SCHED.TICK_FIRED.COUNT n) = (s.get pSCHED (SCHED.TICK_FIRED.COUNT n) + 1) % 2 ^ 32 ∧
      (∃ e, t.lineEvents = s.lineEvents ++ [e] ∧ e.src = .tick n ∧ e.t = (s.tickAt n (s.get pSCHED (SCHED.TICK_NEXT.INDEX n))).toNat) ∧
      KeepsPages s t [pSCHED] ∧ KeepsMemory s t)) ∧
    (∀ q, q < 16 → Runs (.queueEcc q false) s (fun t => t.errSet pSCHED 1 = true ∧ KeepsRegs s t [(pSCHED, 0x024)] ∧ KeepsMemory s t)) ∧
    (∀ q, q < 16 → Runs (.queueEcc q true) s (fun t => t.errSet pSCHED 0 = true ∧ (t.queue q).actions = (s.queue q).actions.drop 1 ∧
      KeepsPages s t [pSCHED, pHOSTQ] ∧ KeepsMemory s t))

/-- Edges of channels in SCHED mode by actions (R87, R139): an action whose effect is due and whose queue still owns its channel gives the
channel its edges and stays with it until their codes are issued, when it is executed, or until the channel lost them, when it ends
TARGET_STATE. The other actions of the scheduler (R139): a line in SCHEDULER kind gets its event; a sequencer is armed at the action's
instant, is asked to jump, or gets its stop; a session is armed; a register is written as its page's owner may write it; NOTIFY and NOP are
executed. Where the spec leaves a point open the model's choice is that of log 49 and 105. Rows for which it says that exec answers a next
state: CHAN_HI, CHAN_LO, CHAN_TOGGLE, CHAN_PULSE, FIRE_LINE, SEQ_START, SEQ_JUMP, SEQ_STOP_AT_END, SEQ_STOP_NOW, MEAS_ARM, REG_WRITE32,
NOTIFY, ACTION_NOP. -/
def Obligations.ActionsTakeEffect : Prop :=
  (∀ s : State, s.sound = true → ∀ d : Disp, d.action.target < 48 →
    (d.handed = false → s.resOwner 1 d.action.target = s.queueOwner d.action.queue →
      s.chanMode d.action.target = 6 → (s.chan d.action.target).safe = [] → (s.chan d.action.target).entry32 ≤ d.t * fine →
    (s.dispatchedOf 0x01 = some d → Runs .chanHi s (fun t => ⟨d.t * fine, .set true, .single, .sched, .own, none⟩ ∈ (t.chan d.action.target).wait ∧
      t.sched.dispatched = s.sched.dispatched.erase d ++ [{ d with handed := true }] ∧
      KeepsPages s t ((s.mirrorsOf d.action.target).map pCHAN) ∧ KeepsMemory s t)) ∧
    (s.dispatchedOf 0x02 = some d → Runs .chanLo s (fun t => ⟨d.t * fine, .set false, .single, .sched, .own, none⟩ ∈ (t.chan d.action.target).wait ∧
      t.sched.dispatched = s.sched.dispatched.erase d ++ [{ d with handed := true }] ∧
      KeepsPages s t ((s.mirrorsOf d.action.target).map pCHAN) ∧ KeepsMemory s t)) ∧
    (s.dispatchedOf 0x03 = some d → Runs .chanToggle s (fun t => ⟨d.t * fine, .toggle, .single, .sched, .own, none⟩ ∈ (t.chan d.action.target).wait ∧
      t.sched.dispatched = s.sched.dispatched.erase d ++ [{ d with handed := true }] ∧
      KeepsPages s t ((s.mirrorsOf d.action.target).map pCHAN) ∧ KeepsMemory s t)) ∧
    (s.dispatchedOf 0x04 = some d → Runs .chanPulse s (fun t =>
      (∃ e ∈ (t.chan d.action.target).wait, e.t32 = d.t * fine ∧ e.kind = .set (!s.idle d.action.target)) ∧
      (∃ e ∈ (t.chan d.action.target).wait, e.t32 = d.t * fine + 8 * d.action.param * fine ∧ e.kind = .set (s.idle d.action.target)) ∧
      t.sched.dispatched = s.sched.dispatched.erase d ++ [{ d with handed := true }] ∧
      KeepsPages s t ((s.mirrorsOf d.action.target).map pCHAN) ∧ KeepsMemory s t))) ∧
    (∀ c op, (c, op) ∈ [(Instr.chanHi, 1), (.chanLo, 2), (.chanToggle, 3), (.chanPulse, 4)] → s.dispatchedOf op = some d → d.handed = true →
      Runs c s (fun t => t.sched.dispatched = s.sched.dispatched.erase d ∧ t.chans = s.chans ∧ t.get pSCHED SCHED.TARGET_STATE_COUNT.COUNT =
        min (s.get pSCHED SCHED.TARGET_STATE_COUNT.COUNT + b2n d.lost) (2 ^ 32 - 1) ∧ (d.lost = true → t.irqSet pSCHED 3 = true) ∧
        KeepsPages s t [pSCHED, pHOSTQ] ∧ KeepsMemory s t))) ∧
  (∀ s : State, s.sound = true → ∀ d : Disp, d.handed = false →
    (d.action.target < 64 → s.dispatchedOf 0x10 = some d → s.resOwner 4 d.action.target = s.queueOwner d.action.queue →
      s.get pTRIG (TRIG.TL_SRC.KIND d.action.target) = 3 → s.get pTRIG (TRIG.TL_SRC.INDEX d.action.target) = d.action.queue →
      Runs .fireLine s (fun t => (∃ e, t.lineEvents = s.lineEvents ++ [e] ∧ e.src = .scheduler d.action.queue d.action.target ∧
        e.t = d.t.toNat) ∧ t.sched.dispatched = s.sched.dispatched.erase d ∧ KeepsPages s t [pHOSTQ] ∧ KeepsMemory s t)) ∧
    (d.action.target < 4 → s.resOwner 10 d.action.target = s.queueOwner d.action.queue →
      (s.dispatchedOf 0x20 = some d → s.flag (pSEQ d.action.target) SEQ.CONTROL.ENABLE = true →
        (s.seqState d.action.target = 0 ∨ s.seqState d.action.target = 4) → s.get (pSEQ d.action.target) SEQ.QUAD_MASK.QUADS ≠ 0 →
        2 ≤ s.stage → s.courseCheck (s.seqOwner d.action.target) d.action.param = 0 → s.atLeastNs d.t 256 = true →
        Runs .seqStart s (fun t => t.seqState d.action.target = 1 ∧ (t.seq d.action.target).arm = some (.at_ d.t) ∧
          (t.seq d.action.target).cur.map (·.course) = some (s.course d.action.param) ∧
          KeepsPages s t [pSEQ d.action.target, pHOSTQ] ∧ KeepsMemory s t)) ∧
      (s.dispatchedOf 0x21 = some d → s.seqState d.action.target = 3 → (s.seq d.action.target).request = none →
        Runs .seqJump s (fun t => (t.seq d.action.target).request = some (d.t * fine) ∧
          t.flag (pSEQ d.action.target) SEQ.STATUS.REQUEST_PENDING = true ∧ KeepsPages s t [pSEQ d.action.target, pHOSTQ] ∧ KeepsMemory s t)) ∧
      (s.dispatchedOf 0x22 = some d → s.seqState d.action.target ≠ 0 → s.seqState d.action.target ≠ 4 →
        Runs .seqStopAtEnd s (fun t => (t.seq d.action.target).stopAtEnd = some ((s.seq d.action.target).stopAtEnd.getD s.clk.slot) ∧
          KeepsPages s t [pHOSTQ] ∧ KeepsMemory s t)) ∧
      (s.dispatchedOf 0x23 = some d → s.seqState d.action.target = 2 →
        (s.seq d.action.target).endsBy (s.instantOfSlot (s.clk.slot + 205)) = false →
        Runs .seqStopNow s (fun t => (t.seq d.action.target).halt = some (s.instantOfSlot (s.clk.slot + 205)) ∧
          (t.seq d.action.target).ends = some (s.instantOfSlot (s.clk.slot + 205), 1) ∧
          KeepsPages s t [pHOSTQ] ∧ KeepsMemory s t))) ∧
    (d.action.target < 16 → s.dispatchedOf 0x30 = some d → s.pageOwner pTDC = s.queueOwner d.action.queue →
      s.get pTDC (TDC.MS_CFG.ARM_KIND d.action.target) = 0 → s.get pTDC (TDC.MS_CFG.START_KIND d.action.target) ≠ 2 → s.sessState d.action.target = 1 →
      Runs .measArm s (fun t => t.sessState d.action.target = 2 ∧ t.sched.dispatched = s.sched.dispatched.erase d ∧
        KeepsPages s t [pTDC, pHOSTQ] ∧ KeepsMemory s t)) ∧
    (s.dispatchedOf 0x40 = some d → d.action.regOff = 0x01C → d.action.target ≠ pHOSTQ → d.action.target < 256 → d.action.param < 2 ^ 32 →
      s.targetDenied d.action.queue d.action = none → s.passes (.queue d.action.queue) d.action.target 0x01C d.action.param = true → valueOk d.action.target 0x01C d.action.param = true →
      Runs .regWrite32 s (fun t => t.rd d.action.target 0x01C = BitVec.ofNat 32 d.action.param ∧ t.result d.action.target = 0 ∧
        t.sched.dispatched = s.sched.dispatched.erase d ∧ KeepsPages s t [d.action.target, pHOSTQ] ∧ KeepsMemory s t)) ∧
    (s.dispatchedOf 0x50 = some d → Runs .notify s (fun t => t.sched.dispatched = s.sched.dispatched.erase d ∧
      (∀ r, s.ringFor 5 2 = some r → s.ringStopped r = false → (s.ring r).held = [] → 2 ≤ s.ringRoom r →
        ∃ x, s.elemOut r (s.get pHOSTQ (HOSTQ.DEV_IDX.DEV_IDX r)) x ∈ t.out) ∧ KeepsPages s t [pHOSTQ] ∧ KeepsMemory s t)) ∧
    (s.dispatchedOf 0x00 = some d → Runs .actionNop s (fun t => t.sched.dispatched = s.sched.dispatched.erase d ∧
      KeepsPages s t [pHOSTQ] ∧ KeepsMemory s t)))

/-- Phase trackers (R150 to R152): ENABLE begins acquisition with an empty history, RESTART and a lost source begin it again, and a head of a
queue that waits for a phase gets its instant, or the tracker's line event is posted. Where the spec leaves a point open the model's choice
is that of log 51. Rows for which it says that exec answers a next state: PHASE_ENABLE, RESTART, PHASE_SOURCE_LOST, PHASE_CONVERT. -/
def Obligations.PhaseTrackers : Prop :=
  ∀ s : State, s.sound = true → ∀ (path : Path) (k : Nat), k < 4 →
    (∀ v, bitOf v 31 = true → bitOf v 30 = false → bitOf v 0 = false → s.flag (pPHASE k) PHASE.CONTROL.ENABLE = false → 2 ≤ s.stage →
      (s.takePlace (s.get (pPHASE k) PHASE.SRC_CFG.SRC_TIN) 3 k).isSome = true →
      Accepts (.phaseEnable path k v) s path (pPHASE k) 0x014 v (fun t => t.phaseState k = 1 ∧ (t.phase k).stamps = [] ∧
        t.flag (pPHASE k) PHASE.CONTROL.ENABLE = true ∧ KeepsPages s t [pPHASE k, pTIN (s.get (pPHASE k) PHASE.SRC_CFG.SRC_TIN)] ∧
        KeepsMemory s t)) ∧
    (s.phaseState k ≠ 0 → Accepts (.restart path k) s path (pPHASE k) 0x014 (s.controlWith (pPHASE k) 0) (fun t => t.phaseState k = 1 ∧
      (t.phase k).stamps = [] ∧ KeepsPages s t [pPHASE k] ∧ KeepsMemory s t)) ∧
    (s.phaseLost k = true → Runs (.phaseSourceLost k) s (fun t => t.errSet (pPHASE k) 0 = true ∧ t.phaseState k = 1 ∧ (t.phase k).stamps = [] ∧
      KeepsPages s t [pPHASE k] ∧ KeepsMemory s t)) ∧
    (∀ q a rest u b, (List.range 16).find? (fun q => s.convertDue q && s.get pSCHED (SCHED.Q_CFG.BASE_INDEX q) == k) = some q →
      (s.queue q).actions = a :: rest → s.predictPhase a.baseIndex a.phase = some (u, b) → a.tebLimit = 0xFFFFFFFF →
      Runs (.phaseConvert k) s (fun t => (∃ a', (t.queue q).actions = a' :: rest ∧ a'.at_ = some u ∧ a'.op = a.op) ∧ KeepsRegs s t [] ∧
        KeepsMemory s t)) ∧
    (∀ turn u, (List.range 16).find? (fun q => s.convertDue q && s.get pSCHED (SCHED.Q_CFG.BASE_INDEX q) == k) = none →
      s.phaseEventDue k = some (turn, u) →
      Runs (.phaseConvert k) s (fun t => (t.phase k).lastTurn = some turn ∧
        (∃ e, t.lineEvents = s.lineEvents ++ [e] ∧ e.src = .tracker k ∧ e.t = u.toNat) ∧ KeepsRegs s t [] ∧ KeepsMemory s t))

/-! ### Timing inputs (chapter 7) -/

/-- Levels and crossings (R160 to R163): an UNRESOLVED input resolves to the level found; a crossing that SLOPE and the prescaler take is
captured by the core whose turn it is, unless it lies too close to the last one: then it is lost, counted, and raises DOUBLE_PULSE. Stamps
(R164 to R166, R188): a conversion turns the oldest capture into a stamp, which LAST_STAMP shows, the FIFO takes and the lines are offered;
the FIFO hands its oldest stamp out, and a gate on the input takes it into the window that holds it. Where the spec leaves a point open the
model's choice is that of log 8, 52 and 101. Rows for which it says that exec answers a next state: INPUT_RESOLVED, INPUT_CROSSING,
STAMP_READY, FIFO_HANDOUT. -/
def Obligations.InputsAndStamps : Prop :=
  (∀ s : State, s.sound = true → ∀ i : Nat, i < 16 → s.flag (pTIN i) TIN.CONTROL.ENABLE = true →
    (∀ high, s.unresolved i = true → (s.tin i).unresolvedAt + 4 ≤ s.clk.slot →
      (s.looped i = true → high = s.loopLevel) →
      Runs (.inputResolved i high) s (fun t => t.unresolved i = false ∧ t.flag (pTIN i) TIN.STATUS.LEVEL = high ∧ t.irqSet (pTIN i) 0 = true ∧
        (t.tin i).prescale = 0 ∧ KeepsRegs s t [(pTIN i, 0x010), (pTIN i, 0x018)] ∧ KeepsMemory s t)) ∧
    (∀ x : Crossing, (s.looped i = true → (s.tin i).loopIn.head? = some x) → s.unresolved i = false → s.flag (pTIN i) TIN.STATUS.LEVEL = (!x.rising) →
      bitOf (s.get (pTIN i) TIN.IN_CFG.SLOPE) (if x.rising then 0 else 1) = true → (s.tin i).prescale = 0 → (s.goodCores i).isEmpty = false →
      ((∀ p, (s.tin i).lastPos = some p → p + s.captureSpacing i ≤ x.pos) →
        (∀ p, (s.core i (s.nextCore i x.pos)).injected = some p → x.pos < p ∨ p + 163840 ≤ x.pos) →
        Runs (.inputCrossing i x) s (fun t => t.flag (pTIN i) TIN.STATUS.LEVEL = x.rising ∧ (t.tin i).lastPos = some x.pos ∧
          (t.tin i).lastCore = s.nextCore i x.pos ∧ (∃ a, (t.tin i).captures = (s.tin i).captures ++ [a] ∧ a.pos = x.pos ∧ a.rising = x.rising ∧
            a.core = s.nextCore i x.pos ∧ a.looped = s.looped i) ∧ KeepsRegs s t [(pTIN i, 0x010)] ∧ KeepsMemory s t)) ∧
      (∀ p, (s.tin i).lastPos = some p → x.pos < p + s.captureSpacing i →
        Runs (.inputCrossing i x) s (fun t => t.flag (pTIN i) TIN.STATUS.LEVEL = x.rising ∧ (t.tin i).captures = (s.tin i).captures ∧
          t.get (pTIN i) TIN.DOUBLE_PULSE_LOST.COUNT = min (s.get (pTIN i) TIN.DOUBLE_PULSE_LOST.COUNT + 1) (2 ^ 32 - 1) ∧
          t.irqSet (pTIN i) 1 = true ∧ KeepsRegs s t [(pTIN i, 0x010), (pTIN i, 0x018), (pTIN i, TIN.DOUBLE_PULSE_LOST.off)] ∧ KeepsMemory s t)))) ∧
  (∀ s : State, s.sound = true → ∀ i : Nat, i < 16 →
    (∀ (c : Conversion) (a : Capture) (rest : List Capture), (s.tin i).captures = a :: rest → 0 < c.code → c.code < 1023 → a.looped = false →
      (s.tin i).fifo.length < 1024 → (s.stampInstant i a c).1 < 2 ^ 64 * suSec →
      Runs (.stampReady i c) s (fun t => (t.tin i).captures = rest ∧
        t.get (pTIN i) TIN.STAMPS.COUNT = (s.get (pTIN i) TIN.STAMPS.COUNT + 1) % 2 ^ 32 ∧
        t.get (pTIN i) TIN.LAST_STAMP.INSTANT = instantBits (s.stampInstant i a c).1.toNat ∧
        t.get (pTIN i) TIN.LAST_STAMP_INFO.SENSE = (if a.rising then 1 else 2) ∧
        (∃ st, (t.tin i).fifo = (s.tin i).fifo ++ [st] ∧ st.t = (s.stampInstant i a c).1 ∧ st.steps = (s.stampInstant i a c).2 ∧ st.rising = a.rising ∧
          st.lostBefore = (s.tin i).lostBefore ∧ st.teb = tebAdd (s.tebTs st.t) (s.get (pTIN i) TIN.INPUT_BOUND.BOUND_PS)) ∧
        (t.tin i).lostBefore = 0 ∧ KeepsPages s t [pTIN i] ∧ KeepsMemory s t)) ∧
    (∀ (st : Stamp) (rest : List Stamp), (s.tin i).fifo = st :: rest → (s.tin i).handoutSlot ≠ some s.clk.slot →
      Runs (.fifoHandout i) s (fun t => (t.tin i).fifo = rest ∧ (t.tin i).handoutSlot = some s.clk.slot ∧ KeepsMemory s t)) ∧
    (∀ (st : Stamp) (rest : List Stamp) (g : Nat) (w : GateWin), (s.tin i).fifo = st :: rest → (s.tin i).handoutSlot ≠ some s.clk.slot →
      s.subscribers i = [(4, 16 + g)] → g < 8 → s.gate g = [w] → bitOf (s.get pTDC (TDC.FG_CFG.SENSE g)) (senseBit st.rising) = true →
      (∀ c, w.closedAt = some c → st.flat < c) → w.g ≤ st.flat → st.flat < w.g + w.l →
      Runs (.fifoHandout i) s (fun t => t.gate g = [{ w with stamps := (st.index, st.flat) :: w.stamps }] ∧ KeepsRegs s t [] ∧
        KeepsMemory s t)))

/-- Calibration of the cores (R168 to R170): an injected event fills the back set, an accepted set goes in front, a rejected one is discarded, a
stale one shows CAL_STALE, RECAL starts both again, and a table error that cannot be corrected fails the core. Where the spec leaves a point
open the model's choice is that of log 8, 12, 102 and 103. Rows for which it says that exec answers a next state: INJECTED_EVENT,
INPUT_TABLE_DONE, CAL_STALE, RECAL, INPUT_TABLE_ECC. -/
def Obligations.CoreCalibration : Prop :=
  ∀ s : State, s.sound = true → ∀ i k : Nat, i < 16 → k < (s.tin i).cores.length →
    (s.injDue i = true → k = s.injCore i → (s.core i k).badPulses < 15 →
      (∀ code, (s.core i k).injCount % 8 ≠ 7 → (s.core i k).events < 1048576 → ((s.core i k).hist = [] ∨ (s.core i k).hist.length = 1024) →
        Runs (.injectedEvent i k false code) s (fun t => (t.core i k).events = (s.core i k).events + 1 ∧
          (t.core i k).hist.getD code 0 = (s.core i k).hist.getD code 0 + 1 ∧ (t.core i k).injected = some (40960 * s.clk.tclk) ∧
          (t.core i k).injCount = (s.core i k).injCount + 1 ∧ (t.tin i).injCount = (s.tin i).injCount + 1 ∧ KeepsRegs s t [(pTIN i, TIN.CAL_STATE.off)] ∧ KeepsMemory s t)) ∧
      (∀ code, (s.core i k).injCount % 8 = 7 → Runs (.injectedEvent i k true code) s (fun t => (t.core i k).events = (s.core i k).events ∧
        (t.core i k).badPulses = (if code = 0 ∨ code = 1023 then (s.core i k).badPulses + 1 else 0) ∧
        (t.core i k).pulses = (if code = 0 ∨ code = 1023 then (s.core i k).pulses
          else bumpPulse (((s.core i k).injCount / 8 % 16 + 2) % 16) code (s.core i k).pulses) ∧
        (t.core i k).injected = some (40960 * s.clk.tclk) ∧ (t.tin i).injCount = (s.tin i).injCount + 1 ∧ KeepsRegs s t [] ∧
        KeepsMemory s t))) ∧
    (∀ r : TableResult, 2 ≤ s.stage → (s.core i k).failed = false → 1048576 ≤ (s.core i k).events →
      (tableAccepted (s.core i k) r = true → Runs (.inputTableDone i k r) s (fun t =>
        (t.core i k).front = some (tableOfResult (s.core i k) r) ∧ (t.core i k).prev = (s.core i k).front ∧
        (t.core i k).events = 0 ∧ (t.core i k).hist = [] ∧ (t.core i k).stale = false ∧ t.irqSet (pTIN i) 3 = true ∧
        t.get (pTIN i) TIN.CAL_STATE.FILL = 0 ∧
        t.rd (pTIN i) TIN.INPUT_TERM_RISE.off = BitVec.ofInt 32 r.termRise ∧ t.rd (pTIN i) TIN.INPUT_TERM_FALL.off = BitVec.ofInt 32 r.termFall ∧
        KeepsPages s t [pTIN i, pCAL] ∧ KeepsMemory s t)) ∧
      (tableAccepted (s.core i k) r = false → (s.core i k).fails < 2 → Runs (.inputTableDone i k r) s (fun t =>
        (t.core i k).front = (s.core i k).front ∧ (t.core i k).events = 0 ∧ (t.core i k).hist = [] ∧
        (t.core i k).fails = (s.core i k).fails + 1 ∧ KeepsRegs s t [(pTIN i, TIN.CAL_STATE.off)] ∧ KeepsMemory s t)) ∧
      (tableAccepted (s.core i k) r = false → (s.core i k).fails = 2 → Runs (.inputTableDone i k r) s (fun t => (t.core i k).failed = true ∧
        t.errSet (pTIN i) 1 = true ∧ KeepsPages s t [pTIN i, pCAL] ∧ KeepsMemory s t))) ∧
    (∀ (j : Nat) (r : TableResult), 16 ≤ j → j < 25 → k < 2 → 2 ≤ s.stage → s.heldAt2 = false → s.power.ports.length = 18 →
      (s.portCore (2 * (j - 16) + k)).failed = false → r.maxErrFs ≤ 2000 → r.rmsFs ≤ 1200 → Runs (.inputTableDone j k r) s (fun t =>
        (t.portCore (2 * (j - 16) + k)).set = true ∧ KeepsRegs s t [] ∧ KeepsMemory s t)) ∧
    (s.staleDue i k = true → Runs (.calStale i k) s (fun t => (t.core i k).stale = true ∧ t.errSet (pTIN i) 3 = true ∧
      t.flag (pTIN i) TIN.STATUS.CAL_VALID = false ∧ KeepsPages s t [pTIN i] ∧ KeepsMemory s t)) ∧
    (∀ path, Accepts (.recal path i) s path (pTIN i) 0x014 (s.controlWith (pTIN i) 0) (fun t => (t.core i k).events = 0 ∧ (t.core i k).hist = [] ∧
      (t.core i k).fails = 0 ∧ (t.core i k).retry = (s.core i k).failed ∧ t.get (pTIN i) TIN.CAL_STATE.FILL = 0 ∧ KeepsPages s t [pTIN i] ∧
      KeepsMemory s t)) ∧
    (s.power.good = true → Runs (.inputTableEcc i k false) s (fun t => t.errSet (pTIN i) 2 = true ∧ KeepsRegs s t [(pTIN i, 0x024)] ∧ KeepsMemory s t)) ∧
    (s.power.good = true → Runs (.inputTableEcc i k true) s (fun t => t.errSet (pTIN i) 1 = true ∧ (t.core i k).failed = true ∧
      KeepsPages s t [pTIN i, pCAL] ∧ KeepsMemory s t))

/-! ### Measurement (chapter 8) -/

/-- Sessions (R178 to R186): ENABLE takes a place on every input named and waits to be armed, ARM arms at the present instant, a stop of a
measuring session that does not complete its count is kept, and ABORT and the timeout end it with a result. Where the spec leaves a point
open the model's choice is that of log 7, 54, 91 and 93. Rows for which it says that exec answers a next state: SESSION_ENABLE, ARM,
SESSION_ABORT, SESSION_TIMEOUT, INTAKE_DRAIN. -/
def Obligations.Sessions : Prop :=
  ∀ s : State, s.sound = true → ∀ (path : Path) (k : Nat), k < 16 →
    (∀ v, bitOf v 31 = true → s.flag pTDC (TDC.MS_CFG.ENABLE k) = false → 2 ≤ s.stage → s.get pTDC (TDC.MS_STOPS.STOP_MASK k) ≠ 0 →
      (s.get pTDC (TDC.MS_PRE.PRE_WINDOW_NS k) = 0 ∨ bitsOf v 29 28 ≠ 2) → (bitsOf v 29 28 = 0 → bitsOf v 5 0 < 16) → bitsOf v 15 14 ≠ 3 →
      (bitsOf v 15 14 = 2 → bitsOf v 13 8 < 8) →
      (∀ i, i < 16 → bitOf (s.get pTDC (TDC.MS_STOPS.STOP_MASK k)) i = true ∨ (bitsOf v 29 28 = 0 ∧ bitsOf v 5 0 = i) →
        (s.takePlace i 4 k).isSome = true) →
      Accepts (.sessionEnable path k v) s path pTDC (TDC.MS_CFG.off k) v (fun t => t.flag pTDC (TDC.MS_CFG.ENABLE k) = true ∧
        t.sessState k = 1 ∧ KeepsPages s t (pTDC :: (List.range 16).map pTIN) ∧ KeepsMemory s t)) ∧
    (s.get pTDC (TDC.MS_CFG.ARM_KIND k) = 0 → s.sessState k = 1 → s.get pTDC (TDC.MS_CFG.START_KIND k) ≠ 2 → s.now < 2 ^ 64 * suSec →
      Accepts (.arm path k) s path pTDC TDC.SESSION_CMD.off (packRec [(8, 5, k), (0, 8, 1)]) (fun t => t.sessState k = 2 ∧
        (t.sess k).a = s.flat s.now ∧ t.get pTDC (TDC.MS_ARM_AT.INSTANT k) = instantBits s.now.toNat ∧ KeepsPages s t [pTDC] ∧ KeepsMemory s t)) ∧
    (s.sessState k = 3 → s.get pTDC (TDC.MS_CFG.ARM_KIND k) ≠ 3 →
      Accepts (.sessionAbort path k) s path pTDC TDC.SESSION_CMD.off (packRec [(8, 5, k), (0, 8, 2)]) (fun t => t.sessState k = 1 ∧
        t.get pTDC (TDC.MS_RESULTS.COUNT k) = (s.get pTDC (TDC.MS_RESULTS.COUNT k) + 1) % 2 ^ 32 ∧ t.irqSet pTDC 0 = true ∧
        KeepsPages s t [pTDC, pHOSTQ] ∧ KeepsMemory s t)) ∧
    (s.timeoutDue k = true → (s.sess k).queue = [] → s.get pTDC (TDC.MS_CFG.ARM_KIND k) ≠ 3 →
      Runs (.sessionTimeout k) s (fun t => t.sessState k = 1 ∧
        t.get pTDC (TDC.MS_RESULTS.COUNT k) = (s.get pTDC (TDC.MS_RESULTS.COUNT k) + 1) % 2 ^ 32 ∧ t.irqSet pTDC 0 = true ∧
        KeepsPages s t [pTDC, pHOSTQ] ∧ KeepsMemory s t)) ∧
    (∀ (i : Nat) (st : Stamp) (rest : List Stamp), i < 16 → s.meas.intake.getD i [] = st :: rest → s.meas.drainSlot.getD i 0 ≤ s.clk.slot →
      Runs (.intakeDrain i) s (fun t => t.meas.intake.getD i [] = rest ∧ t.meas.drainSlot.getD i 0 = s.clk.slot + 8 ∧
        (s.sessionsOn i = [k] → s.sessState k = 3 → (s.sess k).queue = [] → s.sessClear k st.flat = true → st.flat * fine < s.flatNext32 →
          (s.sess k).a ≤ st.flat → (s.sess k).s ≤ st.flat → st.flat < s.sessDeadline k → bitOf (s.get pTDC (TDC.MS_STOPS.STOP_MASK k)) i = true →
          bitOf (s.get pTDC (TDC.MS_CFG.STOP_SENSE k)) (senseBit st.rising) = true →
          (s.sess k).kept.length + 1 < s.get pTDC (TDC.MS_CFG.STOP_COUNT k) →
          ⟨st.flat, i, st.rising, st.outOfRange⟩ ∈ (t.sess k).kept ∧
          t.get pTDC (TDC.MS_STATE.STOPS k) = (s.sess k).kept.length + 1 ∧ t.sessState k = 3) ∧ KeepsPages s t [pTDC, pHOSTQ] ∧
        KeepsMemory s t))

/-- Gates (R188 to R191): ENABLE takes the place on its input, GATE_START opens the gate now for its length, ABORT drops the window that is
open, the end of a window gives a result, flagged with fewer than three stamps, and an error of the engine marks what it names LOST. Streams
(R195 to R198): a PERIODIC BASE is formed when due, if the ring has room for it, else the stream is suspended, a batch is written up to the
next boundary of 512 bytes, and a suspended stream resumes with a GAP and a BASE. Where the spec leaves a point open the model's choice is
that of log 54, 91 and 92. Rows for which it says that exec answers a next state: GATE_ENABLE, GATE_START, SESSION_ABORT, GATE_END,
TDC_ENGINE_ECC, STREAM_PERIODIC_BASE, STREAM_BATCH_WRITE, STREAM_RESUME. -/
def Obligations.GatesAndStreams : Prop :=
  (∀ s : State, s.sound = true → ∀ (path : Path) (g : Nat), g < 8 →
    (∀ v, bitOf v 31 = true → s.flag pTDC (TDC.FG_CFG.ENABLE g) = false → 2 ≤ s.stage → bitsOf v 29 28 ≠ 1 →
      (s.takePlace (bitsOf v 3 0) 4 (16 + g)).isSome = true →
      Accepts (.gateEnable path g v) s path pTDC (TDC.FG_CFG.off g) v (fun t => t.flag pTDC (TDC.FG_CFG.ENABLE g) = true ∧ t.gate g = [] ∧
        (4, 16 + g) ∈ t.subscribers (bitsOf v 3 0) ∧ KeepsPages s t [pTDC, pTIN (bitsOf v 3 0)] ∧ KeepsMemory s t)) ∧
    (s.flag pTDC (TDC.FG_CFG.ENABLE g) = true → s.get pTDC (TDC.FG_CFG.GATE_KIND g) = 0 → s.gateBusy g (s.flat s.now) = false →
      Accepts (.gateStart path g) s path pTDC TDC.SESSION_CMD.off (packRec [(8, 5, 16 + g), (0, 8, 3)]) (fun t =>
        t.gate g = s.gate g ++ [{ g := s.flat s.now, l := s.gateNs g, steps := s.clk.stepSum, fixed := false }] ∧
        KeepsRegs s t [(pTDC, TDC.SESSION_CMD.off), (pTDC, 0x02C)] ∧ KeepsMemory s t)) ∧
    Accepts (.sessionAbort path (16 + g)) s path pTDC TDC.SESSION_CMD.off (packRec [(8, 5, 16 + g), (0, 8, 2)]) (fun t =>
      (∀ w, w ∈ t.gate g ↔ w ∈ s.gate g ∧ ¬ (w.g ≤ s.flat s.now ∧ s.flat s.now < w.g + w.l)) ∧ KeepsRegs s t [(pTDC, TDC.SESSION_CMD.off), (pTDC, 0x02C)] ∧ KeepsMemory s t) ∧
    (∀ w : GateWin, s.gateEnded g = some w →
      Runs (.gateEnd g) s (fun t => t.gate g = (s.gate g).erase w ∧ t.get pTDC (TDC.FG_RESULTS.COUNT g) = (s.get pTDC (TDC.FG_RESULTS.COUNT g) + 1) % 2 ^ 32 ∧
        t.irqSet pTDC 2 = true ∧ (t.meas.results.getD (16 + g) none).isSome = true ∧
        (w.stamps.length < 3 → t.irqSet pTDC 3 = true ∧
          t.get pTDC (TDC.FG_FLAGGED.COUNT g) = min (s.get pTDC (TDC.FG_FLAGGED.COUNT g) + 1) (2 ^ 32 - 1)) ∧
        KeepsPages s t [pTDC, pHOSTQ] ∧ KeepsMemory s t)) ∧
    (∀ m n, Runs (.tdcEngineEcc m n) s (fun t => t.errSet pTDC 0 = true ∧ (∀ w ∈ t.gate g, bitOf n g = true → w.g * fine ≤ s.flat32 → w.lost = true) ∧
      (∀ k, k < 16 → bitOf m k = true → 2 ≤ s.sessState k → (t.sess k).lost = true) ∧ KeepsRegs s t [(pTDC, 0x024)] ∧ KeepsMemory s t))) ∧
  (∀ s : State, s.sound = true → ∀ k r : Nat, k < 4 → s.ringFor 4 k = some r → s.ringStopped r = false →
    (s.periodicDue k = true → s.streamRoom k r < 2 → Runs (.streamPeriodicBase k) s (fun t =>
      t.flag pTDC (TDC.ST_STATE.SUSPENDED k) = true ∧ (t.stream k).batch = (s.stream k).batch ∧ t.irqSet pTDC 5 = true ∧ KeepsPages s t [pTDC] ∧
      KeepsMemory s t)) ∧
    (s.periodicDue k = true → 2 ≤ s.streamRoom k r → Runs (.streamPeriodicBase k) s (fun t => (t.stream k).base = s.baseInstant ∧
      (t.stream k).batch.length = (s.stream k).batch.length + 2 ∧ KeepsRegs s t [] ∧ KeepsMemory s t)) ∧
    ((s.stream k).batch ≠ [] → Runs (.streamBatchWrite k) s (fun t =>
      (t.stream k).batch = (s.stream k).batch.drop (64 - s.get pHOSTQ (HOSTQ.DEV_IDX.DEV_IDX r) % 64) ∧
      t.get pHOSTQ (HOSTQ.DEV_IDX.DEV_IDX r) = (s.get pHOSTQ (HOSTQ.DEV_IDX.DEV_IDX r) +
        min (s.stream k).batch.length (64 - s.get pHOSTQ (HOSTQ.DEV_IDX.DEV_IDX r) % 64)) % 2 ^ 32 ∧ KeepsPages s t [pHOSTQ, pTDC] ∧
      KeepsMemory s t)) ∧
    (s.resumeStreamDue k = true → Runs (.streamResume k) s (fun t => t.flag pTDC (TDC.ST_STATE.SUSPENDED k) = false ∧
      t.get pTDC (TDC.ST_GAPS.COUNT k) = (s.get pTDC (TDC.ST_GAPS.COUNT k) + 1) % 2 ^ 32 ∧ (t.stream k).lost = 0 ∧
      (t.stream k).base = s.baseInstant ∧ (t.stream k).batch.length = (s.stream k).batch.length + 3 ∧ KeepsPages s t [pTDC] ∧ KeepsMemory s t)))

/-! ### The timescale and its clock (chapters 1, 9 and 10) -/

/-- Changes of the timescale (R8, R10, R11, R282): a new y takes effect without a jump, a step moves it by the step and is logged, and seeding
gives it its first value at BASIS SEED. Reports of the bound (R19, R242, R243, R250): a leap second that has come changes the UTC offset and
is no longer pending, a crossing of the threshold is shown, a report due is made, and a link of the record that has expired shows
TRACE_EXPIRED. Where the spec leaves a point open the model's choice is that of log 55 and 58. Rows for which it says that exec answers a
next state: Y_TAKES_EFFECT, TIMESCALE_STEP, TIMESCALE_SEED, LEAP_APPLY, THRESH_CROSSING, TEB_REPORT, TRACE_EXPIRY, BUS_ECC. -/
def Obligations.TimescaleChanges : Prop :=
  (∀ s : State, s.sound = true →
    (∀ n y, s.clk.yNext = some (n, y) → n < s.clk.slot → Runs .yTakesEffect s (fun t => t.clk.y = y ∧ t.now32 = s.now32 ∧ t.clk.yNext = none ∧
      t.clk.anchorN = s.clk.tclk ∧ t.clk.stepSum = s.clk.stepSum ∧ KeepsPages s t [pSERVO, pTSC] ∧ KeepsMemory s t)) ∧
    (∀ r, s.clk.stepNext = some r → s.clk.seeded = true → r.slot < s.clk.slot → Runs .timescaleStep s (fun t => t.now32 = s.now32 + r.d * fine ∧
      t.clk.stepNext = none ∧ t.clk.y = s.clk.y ∧ t.clk.stepSum = s.clk.stepSum + r.d * fine ∧
      t.get pTSC TSC.LAST_STEP.SPAN = spanBits r.d ∧ t.get pTSC TSC.STEP_COUNT.COUNT = (s.get pTSC TSC.STEP_COUNT.COUNT + 1) % 2 ^ 32 ∧
      t.get pTSC TSC.LAST_STEP_SLOT.SLOT = s.slotNo % 2 ^ 64 ∧ t.irqSet pTSC 1 = true ∧
      (s.servoState ≠ 0 ∨ r.adopts ≠ none → t.flag pSERVO SERVO.STATUS.STEP_PROPOSED = false) ∧ KeepsMemory s t)) ∧
    (s.seedDue = true → Runs .timescaleSeed s (fun t => t.clk.seeded = true ∧ t.basis = 1 ∧ t.clk.y = s.getI pSERVO SERVO.Y_XO.Y ∧
      t.clk.anchorN = s.clk.tclk - s.eave.phase / 8 ∧ t.get pTSC TSC.STEP_COUNT.COUNT = (s.get pTSC TSC.STEP_COUNT.COUNT + 1) % 2 ^ 32 ∧
      (s.flag pEAVE EAVE.STATUS.CAL_VALID = false → t.get pTSC TSC.SEED_TEB.PS = tebUnknown) ∧ KeepsMemory s t))) ∧
  (∀ s : State, s.sound = true →
    (s.leapDue = true → Runs .leapApply s (fun t => t.get pTSC TSC.LEAP_CFG.LEAP_PENDING = 0 ∧ t.irqSet pTSC 0 = true ∧
      t.get pTSC TSC.UTC_OFFSET.OFFSET = leapOffset (s.get pTSC TSC.UTC_OFFSET.OFFSET) (s.get pTSC TSC.LEAP_CFG.LEAP_PENDING) ∧
      KeepsPages s t [pTSC, pEAVE, pHOSTQ] ∧ KeepsMemory s t)) ∧
    (s.below ≠ s.flag pTSC TSC.STATUS.BELOW_THRESH → Runs .threshCrossing s (fun t => t.flag pTSC TSC.STATUS.BELOW_THRESH = s.below ∧
      t.irqSet pTSC 2 = true ∧ KeepsPages s t [pTSC, pDEV, pHOSTQ] ∧ KeepsMemory s t)) ∧
    (s.reportDue = true → Runs .tebReport s (fun t => t.teb.lastReport = s.reportMark ∧ t.reportDue = false ∧ KeepsPages s t [pHOSTQ] ∧
      KeepsMemory s t)) ∧
    (s.traceDue = true → Runs .traceExpiry s (fun t => t.flag pDOMAIN DOMAIN.STATUS.TRACE_EXPIRED = true ∧ t.irqSet pDOMAIN 4 = true ∧
      KeepsRegs s t [(pDOMAIN, 0x010), (pDOMAIN, 0x018)] ∧ KeepsMemory s t)) ∧
    Runs .busEcc s (fun t => t.errSet pTRIG 0 = true ∧ KeepsRegs s t [(pTRIG, 0x024)] ∧ KeepsMemory s t))

/-- Lock of the main synthesizer (R202, R203, R205): a window within tolerance is shown, and the fourth in a row declares lock and starts the
count; a window outside it, or the crystal's fault, loses lock, with STAGE 1, the bound lost and the servo in FREERUN. The crystal (R205 to
R207): its renewal shows what was measured, the die temperature included, and forms y from its terms, clamped; the oven becomes STABLE, or
faults, and then a bound in HOLDOVER is lost; an ageing fit that is due gives the model its coefficients. Where the spec leaves a point open
the model's choice is that of log 8. Rows for which it says that exec answers a next state: APLL_LOCK_WINDOW, XTAL_FAULT, XO_UPDATE,
OVEN_STABLE, OVEN_FAULT, AGEING_FIT. -/
def Obligations.LockAndCrystal : Prop :=
  (∀ s : State, s.sound = true → s.stage ≠ 0 → s.power.recovery = false → ∀ c : Nat,
    (((c : Int) - 65536).natAbs ≤ 2 → Runs (.apllLockWindow false c) s (fun t => t.get pAPLL_M APLL_M.LAST_COUNT.COUNT = c % 2 ^ 32 ∧
      (3 ≤ s.apllmPasses → t.flag pAPLL_M APLL_M.STATUS.LOCKED = true ∧ (s.flag pAPLL_M APLL_M.STATUS.LOCKED = false → t.clk.running = true)) ∧
      KeepsRegs s t [(pAPLL_M, 0x010), (pAPLL_M, APLL_M.LAST_COUNT.off)] ∧ KeepsMemory s t)) ∧
    (2 < ((c : Int) - 65536).natAbs → s.flag pAPLL_M APLL_M.STATUS.LOCKED = true → Runs (.apllLockWindow false c) s (fun t =>
      t.flag pAPLL_M APLL_M.STATUS.LOCKED = false ∧ t.errSet pAPLL_M 0 = true ∧ t.irqSet pAPLL_M 0 = true ∧ t.apllmPasses = 0 ∧
      t.get pAPLL_M APLL_M.LOSSES.COUNT = min (s.get pAPLL_M APLL_M.LOSSES.COUNT + 1) (2 ^ 32 - 1) ∧ t.servoState = 0 ∧ t.basis = 0 ∧
      t.stage = 1 ∧ t.clk.tclk = s.clk.tclk ∧ KeepsMemory s t)) ∧
    (s.flag pAPLL_M APLL_M.STATUS.LOCKED = true → Runs .xtalFault s (fun t => t.errSet pXO 1 = true ∧
      t.flag pAPLL_M APLL_M.STATUS.LOCKED = false ∧ t.stage = 1 ∧ t.basis = 0 ∧ KeepsMemory s t))) ∧
  (∀ s : State, s.sound = true →
    (∀ m, s.get pSERVO SERVO.SERVO_CFG.MODE ≠ 1 → Runs (.xoUpdate m) s (fun t => t.getI pXO XO.OVEN_TEMP.TEMP = m.temp ∧
      t.get pXO XO.HEATER.MW = m.heater ∧ t.dieTemp = m.die ∧
      t.clk.yNext = some (s.clk.slot, max (-(2 ^ 47 : Int)) (min (2 ^ 47)
        (t.getI pSERVO SERVO.Y_XO.Y + t.getI pSERVO SERVO.Y_SRV.Y + t.getI pSERVO SERVO.Y_SLEW.Y))) ∧
      KeepsPages s t (pXO :: pSERVO :: pCAL :: ((List.range 12).map pQUAD ++ (List.range 16).map pTIN)) ∧ KeepsMemory s t)) ∧
    (s.ovenStableDue = true → Runs .ovenStable s (fun t => t.get pXO XO.STATUS.OVEN = 2 ∧ t.irqSet pXO 0 = true ∧
      KeepsRegs s t [(pXO, 0x010), (pXO, 0x018)] ∧ KeepsMemory s t)) ∧
    Runs .ovenFault s (fun t => t.get pXO XO.STATUS.OVEN = 3 ∧ t.errSet pXO 0 = true ∧ t.basis = (if s.basis = 4 then 0 else s.basis) ∧
      KeepsPages s t [pXO, pTSC, pDEV, pHOSTQ] ∧ KeepsMemory s t) ∧
    (∀ f, s.fitDue = true → Runs (.ageingFit f) s (fun t => t.flag pXO XO.STATUS.MODEL_VALID = true ∧ t.irqSet pXO 1 = true ∧
      t.getI pXO XO.AGE_A.A = f.a ∧ t.get pXO XO.AGE_B.B = f.b ∧ t.getI pXO XO.AGE_C.C = f.c ∧
      3 * f.stdErr % 2 ^ 32 ≤ t.get pXO XO.U_A.U ∧ KeepsPages s t [pXO, pSERVO] ∧ KeepsMemory s t)))

/-! ### References and the servo (chapter 9) -/

/-- The commands of REFSEL (R208 to R213, R231): a reference that is enabled has no signal yet, PUSH queues an observation, a conflict ends by a
slew, by a step at the next slot boundary, or with its reference SUSPECT_PHASE, and CLEAR_SUSPECT and REQUALIFY begin the dwell again. The
commands of DOMAIN (R247, R249): SWITCH exchanges the primary and the secondary and adopts the new primary by a slew, and an open path event
is closed with its verdict. Where the spec leaves a point open the model's choice is that of log 60, 63 and 95. Rows for which it says that
exec answers a next state: REF_ENABLE, PUSH, ACCEPT_SLEW, ACCEPT_STEP, REJECT, CLEAR_SUSPECT, REQUALIFY, SWITCH, PATH_ACCEPT, PATH_CLEAR. -/
def Obligations.ReferenceCommands : Prop :=
  (∀ s : State, s.sound = true → ∀ (path : Path) (k : Nat), k < 8 →
    (∀ v, bitOf v 31 = true → s.refEnabled k = false → s.get pREFSEL (REFSEL.REF_UNC.UNC_PS k) ≠ tebUnknown →
      (bitsOf v 19 16 = 4 ∨ (bitsOf v 19 16 = 1 ∧ (s.takePlace (bitsOf v 7 0) 5 k).isSome = true)) →
      Accepts (.refEnable path k v) s path pREFSEL (REFSEL.REF_CFG.off k) v (fun t => t.refEnabled k = true ∧ t.refState k = 1 ∧
        (t.ref k).hist = [] ∧ KeepsPages s t (pREFSEL :: (List.range 16).map pTIN) ∧ KeepsMemory s t)) ∧
    (s.refKind k = 4 → s.refEnabled k = true → (s.getInst pREFSEL REFSEL.PTP_OBS_AT.INSTANT : Int) ≤ s.now →
      s.now ≤ s.getInst pREFSEL REFSEL.PTP_OBS_AT.INSTANT + suSec → s.get pREFSEL REFSEL.PTP_OBS_TEB.TEB_PS ≠ tebUnknown → 3 ≤ s.stage →
      Accepts (.push path k) s path pREFSEL REFSEL.PTP_OBS_CMD.off (packRec [(8, 3, k), (0, 8, 1)]) (fun t =>
        (∃ o, (t.ref k).inbox = (s.ref k).inbox ++ [o] ∧ o.at_ = (s.getInst pREFSEL REFSEL.PTP_OBS_AT.INSTANT : Int) ∧
          o.theta = s.getSpan pREFSEL REFSEL.PTP_OBS_OFFSET.SPAN ∧ o.teb = s.get pREFSEL REFSEL.PTP_OBS_TEB.TEB_PS ∧
          o.path = some (s.getSpan pREFSEL REFSEL.PTP_OBS_PATH.SPAN)) ∧
        KeepsRegs s t [(pREFSEL, REFSEL.PTP_OBS_CMD.off), (pREFSEL, 0x02C)] ∧ KeepsMemory s t)) ∧
    (s.conflictRef = some k →
      (s.refState k = 3 → s.get pSERVO SERVO.SERVO_CFG.MODE = 0 → s.servoRuns = true →
        Accepts (.acceptSlew path k) s path pREFSEL REFSEL.SEL_CMD.off (packRec [(8, 3, k), (0, 8, 1)]) (fun t => t.conflictRef = none ∧
          t.isSelected k = true ∧ t.servo.adopted = some k ∧ t.flag pSERVO SERVO.STATUS.SLEWING = true ∧ t.basis = 3 ∧ t.servoState = 1 ∧
          t.servo.slewLeft32 = s.meanTheta k * fine ∧ KeepsPages s t [pREFSEL, pSERVO, pTSC, pDOMAIN, pDEV, pHOSTQ] ∧ KeepsMemory s t)) ∧
      (s.refState k = 3 → s.get pSERVO SERVO.SERVO_CFG.MODE = 0 → s.servoRuns = true → s.flag pSERVO SERVO.STEP_CTL.STEP_ENABLE = true → s.clk.stepNext = none →
        0 ≤ s.now + s.meanTheta k → s.now + s.meanTheta k < instantLimit →
        Accepts (.acceptStep path k) s path pREFSEL REFSEL.SEL_CMD.off (packRec [(8, 3, k), (0, 8, 2)]) (fun t => t.conflictRef = none ∧
          t.isSelected k = true ∧ t.clk.stepNext = some ⟨s.clk.slot, s.meanTheta k, some k⟩ ∧ KeepsPages s t [pREFSEL, pSERVO, pDOMAIN] ∧
          KeepsMemory s t)) ∧
      Accepts (.reject path k) s path pREFSEL REFSEL.SEL_CMD.off (packRec [(8, 3, k), (0, 8, 3)]) (fun t => t.refState k = 4 ∧
        t.irqSet pREFSEL 3 = true ∧ t.conflictRef ≠ some k ∧ KeepsPages s t [pREFSEL, pSERVO, pTSC, pDOMAIN, pDEV, pHOSTQ] ∧
        KeepsMemory s t)) ∧
    (s.refState k = 4 →
      Accepts (.clearSuspect path k) s path pREFSEL REFSEL.SEL_CMD.off (packRec [(8, 3, k), (0, 8, 4)]) (fun t => t.refState k = 2 ∧
        (t.ref k).passes = 0 ∧ (t.ref k).dwellSlot = s.clk.slot ∧ t.irqSet pREFSEL 1 = true ∧ KeepsPages s t [pREFSEL] ∧ KeepsMemory s t)) ∧
    (s.refState k = 2 ∨ s.refState k = 3 →
      Accepts (.requalify path k) s path pREFSEL REFSEL.SEL_CMD.off (packRec [(8, 3, k), (0, 8, 5)]) (fun t => t.refState k = 2 ∧
        (t.ref k).passes = 0 ∧ KeepsPages s t [pREFSEL, pSERVO, pTSC, pDOMAIN, pDEV, pHOSTQ] ∧ KeepsMemory s t))) ∧
  (∀ s : State, s.sound = true → ∀ path : Path,
    (s.secValid = true → s.timeClass s.secRef = true → s.flag pREFSEL REFSEL.STATUS.VALID = true → s.get pSERVO SERVO.SERVO_CFG.MODE = 0 →
      s.servoRuns = true →
      Accepts (.switch path) s path pDOMAIN DOMAIN.DOM_CMD.off 1 (fun t => t.isSelected s.secRef = true ∧ t.secRef = s.selected ∧
        t.servo.adopted = some s.secRef ∧ t.flag pSERVO SERVO.STATUS.SLEWING = true ∧ t.basis = 3 ∧ t.irqSet pDOMAIN 2 = true ∧
        t.get pDOMAIN DOMAIN.SWITCHES.COUNT = (s.get pDOMAIN DOMAIN.SWITCHES.COUNT + 1) % 2 ^ 32 ∧
        KeepsPages s t [pREFSEL, pSERVO, pTSC, pDOMAIN, pDEV, pHOSTQ] ∧ KeepsMemory s t)) ∧
    (s.flag pDOMAIN DOMAIN.PATH_EVENT.OPEN = true →
      Accepts (.pathAccept path) s path pDOMAIN DOMAIN.DOM_CMD.off 2 (fun t => t.flag pDOMAIN DOMAIN.PATH_EVENT.OPEN = false ∧
        t.get pDOMAIN DOMAIN.PATH_EVENT.VERDICT = 1 ∧ t.get pDOMAIN DOMAIN.PATH_WIDEN.PS = 0 ∧
        t.flag pDOMAIN DOMAIN.STATUS.PATH_CHANGE = false ∧ t.irqSet pDOMAIN 3 = true ∧ (∀ k ∈ s.frozenRefs, t.refFrozen k = false) ∧
        KeepsPages s t [pREFSEL, pSERVO, pTSC, pDOMAIN, pDEV, pHOSTQ] ∧ KeepsMemory s t) ∧
      Accepts (.pathClear path) s path pDOMAIN DOMAIN.DOM_CMD.off 3 (fun t => t.flag pDOMAIN DOMAIN.PATH_EVENT.OPEN = false ∧
        t.get pDOMAIN DOMAIN.PATH_EVENT.VERDICT = 3 ∧ t.get pDOMAIN DOMAIN.PATH_WIDEN.PS = 0 ∧
        t.flag pDOMAIN DOMAIN.STATUS.PATH_CHANGE = false ∧ t.irqSet pDOMAIN 3 = true ∧
        (∀ k ∈ s.frozenRefs, t.refFrozen k = false ∧ (s.refState k = 3 → t.refState k = 2)) ∧
        KeepsPages s t [pREFSEL, pSERVO, pTSC, pDOMAIN, pDEV, pHOSTQ] ∧ KeepsMemory s t)))

/-- Observations of an enabled reference that is not frozen and has no path delay (R209, R211): the first one after silence brings QUALIFYING,
the sixteenth that passes once the dwell is over QUALIFIED, and one out of phase starts the history and the dwell again; three periods
without one bring NO_SIGNAL. The second clause is stated where no selection by the servo follows. Where the spec leaves a point open the
model's choice is that of log 56 and 95. Rows for which it says that exec answers a next state: REF_OBSERVATION, REF_PRESENCE_FAIL. -/
def Obligations.Observations : Prop :=
  ∀ s : State, s.sound = true → 3 ≤ s.stage → ∀ k : Nat, k < 8 → s.refEnabled k = true →
    (∀ o rest, (s.ref k).inbox = o :: rest → s.refFrozen k = false → o.path = none → s.flag pDOMAIN DOMAIN.PATH_EVENT.OPEN = false →
      (s.refState k = 1 → (s.ref k).hist = [] → s.isSelected k = false → Runs (.refObservation k) s (fun t => t.refState k = 2 ∧
        (t.ref k).inbox = rest ∧ (t.ref k).hist = [o] ∧ t.get pREFSEL (REFSEL.REF_OFFSET.SPAN k) = spanBits o.theta ∧
        t.get pREFSEL (REFSEL.REF_OFFSET_TEB.TEB_PS k) = o.teb % 2 ^ 32 ∧ KeepsPages s t [pREFSEL, pDOMAIN, pHOSTQ] ∧ KeepsMemory s t)) ∧
      (s.refState k = 2 → s.phaseOk k ((s.ref k).hist.take 16) o = true → s.freqOk k ((o :: (s.ref k).hist.take 16).take 16) = true →
        15 ≤ (s.ref k).passes → (s.ref k).dwellSlot + s.get pREFSEL (REFSEL.REF_QUAL.DWELL_S k) * 200000000 ≤ s.clk.slot →
        s.get pSERVO SERVO.SERVO_CFG.MODE ≠ 0 → Runs (.refObservation k) s (fun t => t.refState k = 3 ∧ (t.ref k).inbox = rest ∧
          t.irqSet pREFSEL 1 = true ∧ KeepsMemory s t)) ∧
      (s.refState k = 3 → s.phaseOk k ((s.ref k).hist.take 16) o = false → Runs (.refObservation k) s (fun t => t.refState k = 2 ∧
        t.get pREFSEL (REFSEL.REF_STATE.LAST_FAIL k) = 3 ∧ (t.ref k).hist = [o] ∧ (t.ref k).passes = 0 ∧ t.irqSet pREFSEL 1 = true ∧
        KeepsMemory s t))) ∧
    (s.presenceFailed k = true → Runs (.refPresenceFail k) s (fun t => t.refState k = 1 ∧ t.get pREFSEL (REFSEL.REF_STATE.LAST_FAIL k) = 1 ∧
      (t.ref k).hist = [] ∧ (t.ref k).passes = 0 ∧ KeepsMemory s t))

/-- The commands of the servo (R214, R216 to R218): MODE MANUAL and HOLD change the state and end a slew, STEP asks for a step at the next slot
boundary, and a proposed step is made, or slewed away; a slew that has ended clears SLEWING. Where the spec leaves a point open the model's
choice is that of log 58, 59 and 60. Rows for which it says that exec answers a next state: SERVO_MODE_WRITE, STEP, STEP_PROPOSED,
SLEW_PROPOSED, SLEW_END. -/
def Obligations.ServoCommands : Prop :=
  ∀ s : State, s.sound = true → ∀ path : Path,
    (∀ v, 3 ≤ s.stage → s.get pSERVO SERVO.SERVO_CFG.MODE ≠ bitsOf v 1 0 →
      (bitsOf v 1 0 = 1 → s.servoState ≠ 4 → Accepts (.servoModeWrite path v) s path pSERVO SERVO.SERVO_CFG.off v (fun t => t.servoState = 4 ∧
        t.basis = 0 ∧ t.flag pSERVO SERVO.STATUS.SLEWING = false ∧ t.clk.y = s.clk.y ∧ t.rd pSERVO SERVO.SERVO_CFG.off = BitVec.ofNat 32 v ∧
        KeepsPages s t [pSERVO, pTSC, pDEV, pHOSTQ] ∧ KeepsMemory s t)) ∧
      (bitsOf v 1 0 = 2 → s.servoState ≠ 3 → Accepts (.servoModeWrite path v) s path pSERVO SERVO.SERVO_CFG.off v (fun t => t.servoState = 3 ∧
        t.basis = (if s.get pXO XO.STATUS.OVEN = 3 then 0 else 4) ∧ t.flag pSERVO SERVO.STATUS.SLEWING = false ∧
        t.getInst pSERVO SERVO.HOLD_ENTRY.INSTANT = instantOf (instantBits (s.servo.lastUsed.getD s.now).toNat % 2 ^ 128) ∧
        KeepsPages s t [pSERVO, pTSC, pDEV, pHOSTQ] ∧ KeepsMemory s t))) ∧
    (s.flag pSERVO SERVO.STEP_CTL.STEP_ENABLE = true → s.clk.stepNext = none →
      (s.getSpan pSERVO SERVO.STEP_SPAN.SPAN ≠ 0 → 0 ≤ s.now + s.getSpan pSERVO SERVO.STEP_SPAN.SPAN →
        s.now + s.getSpan pSERVO SERVO.STEP_SPAN.SPAN < instantLimit →
        Accepts (.step path) s path pSERVO SERVO.STEP_CMD.off 1 (fun t =>
          t.clk.stepNext = some ⟨s.clk.slot, s.getSpan pSERVO SERVO.STEP_SPAN.SPAN, none⟩ ∧
          KeepsRegs s t [(pSERVO, SERVO.STEP_CMD.off), (pSERVO, 0x02C)] ∧ KeepsMemory s t)) ∧
      (s.flag pSERVO SERVO.STATUS.STEP_PROPOSED = true → s.getSpan pSERVO SERVO.PROPOSED.SPAN ≠ 0 →
        0 ≤ s.now + s.getSpan pSERVO SERVO.PROPOSED.SPAN → s.now + s.getSpan pSERVO SERVO.PROPOSED.SPAN < instantLimit →
        Accepts (.stepProposed path) s path pSERVO SERVO.STEP_CMD.off 2 (fun t =>
          t.clk.stepNext = some ⟨s.clk.slot, s.getSpan pSERVO SERVO.PROPOSED.SPAN, some s.selected⟩ ∧
          KeepsRegs s t [(pSERVO, SERVO.STEP_CMD.off), (pSERVO, 0x02C)] ∧ KeepsMemory s t))) ∧
    (s.flag pSERVO SERVO.STATUS.STEP_PROPOSED = true →
      Accepts (.slewProposed path) s path pSERVO SERVO.STEP_CMD.off 3 (fun t => t.servo.adopted = some s.selected ∧ t.servoState = 1 ∧
        t.flag pSERVO SERVO.STATUS.SLEWING = true ∧ t.flag pSERVO SERVO.STATUS.STEP_PROPOSED = false ∧ t.basis = 3 ∧
        t.servo.slewLeft32 = s.getSpan pSERVO SERVO.PROPOSED.SPAN * fine ∧ KeepsPages s t [pSERVO, pTSC, pDEV, pHOSTQ] ∧ KeepsMemory s t)) ∧
    (s.slewEndDue = true → Runs .slewEnd s (fun t => t.flag pSERVO SERVO.STATUS.SLEWING = false ∧ t.irqSet pSERVO 2 = true ∧
      t.getI pSERVO SERVO.Y_SLEW.Y = 0 ∧ (∀ k, s.servo.adopted = some k → s.servo.freqBase = none → (s.refKind k = 3 ∨ s.refKind k = 4) → t.basis = 2) ∧
      KeepsPages s t [pSERVO, pTSC, pDEV, pHOSTQ] ∧ KeepsMemory s t))

/-! ### The auxiliary synthesizer and its outputs (chapter 9) -/

/-- The commands of APLL_A (R221 to R225): ENABLE starts lock at TARGET, SET ramps within 2 % and relocks beyond, RUN_PROFILE ramps to the first
point, ABORT_RAMP holds the frequency reached, and RELOCK locks again at it. What APLL_A does by itself (R202, R223 to R226): enough windows
within tolerance declare lock, a locked one outside it loses it, a ramp ends at its target or goes on to the next point of the profile, the
last point ends the profile, and a new spread begins. Where the spec leaves a point open the model's choice is that of log 61 and 96. Rows
for which it says that exec answers a next state: APLL_A_ENABLE, FREQ_CMD_SET, RUN_PROFILE, RELOCK, ABORT_RAMP, APLL_LOCK_WINDOW, RAMP_END,
PROFILE_DONE, SSC_CHANGE. -/
def Obligations.Synthesizer : Prop :=
  (∀ s : State, s.sound = true → ∀ path : Path,
    (∀ v, bitOf v 31 = true → bitOf v 30 = false → s.flag pAPLL_A APLL_A.CONTROL.ENABLE = false → 2 ≤ s.stage →
      s.flag pAPLL_A APLL_A.REF_CFG.REF_SRC = false → s.pfdOk = true → s.vcoOk s.targetN = true → s.ceilUpTo s.targetN false = true →
      Accepts (.apllAEnable path v) s path pAPLL_A 0x014 v (fun t => t.apllaState = 1 ∧ t.nNow = s.targetN ∧
        t.flag pAPLL_A APLL_A.CONTROL.ENABLE = true ∧ KeepsRegs s t [(pAPLL_A, 0x010), (pAPLL_A, 0x014), (pAPLL_A, 0x02C)] ∧
        KeepsMemory s t)) ∧
    ((s.apllaState = 2 ∨ s.apllaState = 3) → s.auxForeign = none →
      (s.flag pAPLL_A APLL_A.SSC_CFG.SSC_EN = false → s.vcoOk s.targetN = true →
        (within2 s.nNow s.targetN = true → steepOk s.nNow s.targetN (s.get pAPLL_A APLL_A.RAMP_US.US) = true →
          s.ceilUpTo (max s.nNow s.targetN) true = true →
          Accepts (.freqCmdSet path) s path pAPLL_A APLL_A.FREQ_CMD.off 1 (fun t => t.apllaState = 3 ∧
            t.aplla.ramp = some ⟨s.nNow, s.targetN, s.clk.slot, s.get pAPLL_A APLL_A.RAMP_US.US⟩ ∧ t.aplla.profile = false ∧
            KeepsRegs s t [(pAPLL_A, 0x010), (pAPLL_A, APLL_A.FREQ_CMD.off), (pAPLL_A, 0x02C)] ∧ KeepsMemory s t)) ∧
        (within2 s.nNow s.targetN = false → s.ceilUpTo (max s.nNow s.targetN) false = true → s.bypassShort s.nNow s.targetN = false →
          Accepts (.freqCmdSet path) s path pAPLL_A APLL_A.FREQ_CMD.off 1 (fun t => t.apllaState = 4 ∧ t.nNow = s.targetN ∧
            KeepsRegs s t [(pAPLL_A, 0x010), (pAPLL_A, APLL_A.FREQ_CMD.off), (pAPLL_A, 0x02C)] ∧ KeepsMemory s t))) ∧
      (s.flag pAPLL_A APLL_A.SSC_CFG.SSC_EN = false →
        (∀ k, k < s.get pAPLL_A APLL_A.PROFILE_CTL.LEN → within2 s.nNow (s.point k).1 = true ∧ s.vcoOk (s.point k).1 = true) →
        segmentsOk s.nNow ((List.range (s.get pAPLL_A APLL_A.PROFILE_CTL.LEN)).map s.point ++
          (if s.get pAPLL_A APLL_A.PROFILE_CTL.LOOPS = 1 then [] else
            ((List.range (s.get pAPLL_A APLL_A.PROFILE_CTL.LEN)).map s.point).take 1)) = true →
        s.ceilUpTo (((List.range (s.get pAPLL_A APLL_A.PROFILE_CTL.LEN)).map s.point).foldl (fun a p => max a p.1) s.nNow) true = true →
        Accepts (.runProfile path) s path pAPLL_A APLL_A.FREQ_CMD.off 2 (fun t => t.apllaState = 3 ∧ t.aplla.profile = true ∧
          t.aplla.points = (List.range (s.get pAPLL_A APLL_A.PROFILE_CTL.LEN)).map s.point ∧
          t.aplla.ramp = some ⟨s.nNow, (s.point 0).1, s.clk.slot, (s.point 0).2⟩ ∧
          t.get pAPLL_A APLL_A.PROFILE_POS.LOOP = 0 ∧ t.get pAPLL_A APLL_A.PROFILE_POS.POINT = 0 ∧
          KeepsRegs s t [(pAPLL_A, 0x010), (pAPLL_A, APLL_A.PROFILE_POS.off), (pAPLL_A, APLL_A.FREQ_CMD.off), (pAPLL_A, 0x02C)] ∧
          KeepsMemory s t)) ∧
      Accepts (.relock path) s path pAPLL_A APLL_A.FREQ_CMD.off 4 (fun t => t.apllaState = 4 ∧ t.nNow = s.nNow ∧ t.aplla.passes = 0 ∧
        KeepsRegs s t [(pAPLL_A, 0x010), (pAPLL_A, APLL_A.FREQ_CMD.off), (pAPLL_A, 0x02C)] ∧ KeepsMemory s t)) ∧
    (s.aplla.ramp ≠ none →
      Accepts (.abortRamp path) s path pAPLL_A APLL_A.FREQ_CMD.off 3 (fun t => t.apllaState = 2 ∧ t.nNow = s.nNow ∧ t.aplla.ramp = none ∧
        t.irqSet pAPLL_A 2 = true ∧ KeepsRegs s t [(pAPLL_A, 0x010), (pAPLL_A, 0x018), (pAPLL_A, APLL_A.FREQ_CMD.off), (pAPLL_A, 0x02C)] ∧
        KeepsMemory s t))) ∧
  (∀ s : State, s.sound = true →
    (∀ c : Nat, s.aplla.refLost = false →
      (((s.apllaState = 1 ∨ s.apllaState = 4) → ((c : Int) - (2 ^ s.get pAPLL_A APLL_A.LOCK_CFG.WINDOW_LOG2 : Nat)).natAbs ≤
          s.get pAPLL_A APLL_A.LOCK_CFG.TOLERANCE → s.get pAPLL_A APLL_A.LOCK_CFG.WINDOWS ≤ s.aplla.passes + 1 →
        Runs (.apllLockWindow true c) s (fun t => t.apllaState = 2 ∧ t.irqSet pAPLL_A 0 = true ∧ t.aplla.phase = 0 ∧
          KeepsPages s t (pAPLL_A :: (List.range 8).map pAUX) ∧ KeepsMemory s t)) ∧
       ((s.apllaState = 2 ∨ s.apllaState = 3) → s.get pAPLL_A APLL_A.LOCK_CFG.TOLERANCE <
          ((c : Int) - (2 ^ s.get pAPLL_A APLL_A.LOCK_CFG.WINDOW_LOG2 : Nat)).natAbs →
        Runs (.apllLockWindow true c) s (fun t => t.apllaState = 4 ∧ t.errSet pAPLL_A 0 = true ∧ t.irqSet pAPLL_A 1 = true ∧ t.nNow = s.nNow ∧
          KeepsPages s t [pAPLL_A] ∧ KeepsMemory s t)))) ∧
    (∀ r, s.aplla.ramp = some r → r.slot + r.us * 200 ≤ s.clk.slot →
      (s.aplla.profile = false → Runs .rampEnd s (fun t => t.apllaState = 2 ∧ t.nNow = r.target ∧ t.aplla.ramp = none ∧
        t.irqSet pAPLL_A 2 = true ∧ KeepsRegs s t [(pAPLL_A, 0x010), (pAPLL_A, 0x018)] ∧ KeepsMemory s t)) ∧
      (s.aplla.profile = true → s.get pAPLL_A APLL_A.PROFILE_POS.POINT + 1 < s.aplla.points.length → s.aplla.points.length ≤ 32 →
        Runs .rampEnd s (fun t => t.apllaState = 3 ∧
          t.get pAPLL_A APLL_A.PROFILE_POS.POINT = s.get pAPLL_A APLL_A.PROFILE_POS.POINT + 1 ∧
          t.aplla.ramp = some ⟨r.target, (s.aplla.points.getD (s.get pAPLL_A APLL_A.PROFILE_POS.POINT + 1) (r.target, 1)).1, s.clk.slot,
            (s.aplla.points.getD (s.get pAPLL_A APLL_A.PROFILE_POS.POINT + 1) (r.target, 1)).2⟩ ∧ KeepsPages s t [pAPLL_A] ∧
          KeepsMemory s t))) ∧
    (s.aplla.profileDone = true → Runs .profileDone s (fun t => t.apllaState = 2 ∧ t.aplla.profile = false ∧ t.irqSet pAPLL_A 3 = true ∧
      KeepsRegs s t [(pAPLL_A, 0x010), (pAPLL_A, 0x018)] ∧ KeepsMemory s t)) ∧
    (s.sscDue = true → Runs .sscChange s (fun t => t.aplla.ssc = (s.rd pAPLL_A APLL_A.SSC_CFG.off).toNat ∧ t.aplla.sscSlot = s.clk.slot ∧
      t.aplla.sscRate = s.get pAPLL_A APLL_A.SSC_RATE.HZ ∧
      t.flag pAPLL_A APLL_A.STATUS.SSC_ACTIVE = s.flag pAPLL_A APLL_A.SSC_CFG.SSC_EN ∧ KeepsRegs s t [(pAPLL_A, 0x010)] ∧ KeepsMemory s t)))

/-- Aux outputs (R224, R227 to R229): ENABLE lets an output start at its next full period, and then it runs; a period follows another, by DIV
and a change of DELAY_CYC; when it is no longer enabled it ends its period and drives low; without lock it is held low, or bypassed from the
crystal; where lock came within a period the output starts anew on the aligned grid; POLARITY inverts what the pin shows; SAFE_EXIT with
every cause gone lets it start again. Where the spec leaves a point open the model's choice is that of log 61 and 96. Rows for which it says
that exec answers a next state: AUX_ENABLE, AUX_PERIOD_END, AUX_SAFE_EXIT. -/
def Obligations.AuxOutputs : Prop :=
  ∀ s : State, s.sound = true → ∀ (path : Path) (n : Nat), n < 8 →
    (∀ v, bitOf v 31 = true → bitOf v 30 = false → s.auxOn n = false → 2 ≤ s.stage → s.ceilings [n] = true →
      Accepts (.auxEnable path n v) s path (pAUX n) 0x014 v (fun t => t.auxOn n = true ∧
        (s.apllaLocked = true → (s.aux n).safe = [] → (s.aux n).running = false → (t.aux n).startAt = some (s.auxStartAt n)) ∧
        KeepsRegs s t [(pAUX n, 0x014), (pAUX n, 0x02C)] ∧ KeepsMemory s t)) ∧
    ((s.aux n).running = true → (s.aux n).bypass = false → (s.aux n).endAt * 2 ^ 64 ≤ s.aplla.phase →
      (s.auxOn n = true → s.apllaLocked = true → (s.aux n).safe = [] → (s.aux n).restart = false →
        s.get (pAUX n) AUX.DIV.DIV ≠ 0 → s.marksBy n (s.cycle32 (s.aux n).endAt) = [] →
        Runs (.auxPeriodEnd n) s (fun t => (t.aux n).running = true ∧ (t.aux n).endAt = (s.aux n).endAt + s.get (pAUX n) AUX.DIV.DIV +
          (((s.get (pAUX n) AUX.DELAY.DELAY_CYC : Int) - (s.aux n).delay) % (s.get (pAUX n) AUX.DIV.DIV : Nat)).toNat ∧ t.out = s.out ∧
          KeepsRegs s t [(pAUX n, 0x010)] ∧ KeepsMemory s t)) ∧
      (s.auxOn n = true → s.apllaLocked = true → (s.aux n).safe = [] → (s.aux n).restart = true →
        Runs (.auxPeriodEnd n) s (fun t => (t.aux n).running = false ∧ (t.aux n).restart = false ∧ (t.aux n).startAt = some (s.auxStartAt n) ∧
          t.out = .aux n false (s.flag (pAUX n) AUX.OUT_CFG.POLARITY) :: s.out ∧ KeepsRegs s t [(pAUX n, 0x010)] ∧ KeepsMemory s t)) ∧
      (s.auxOn n = false →
        Runs (.auxPeriodEnd n) s (fun t => (t.aux n).running = false ∧ t.flag (pAUX n) AUX.STATUS.RUNNING = false ∧
          t.out = .aux n false (s.flag (pAUX n) AUX.OUT_CFG.POLARITY) :: s.out ∧ KeepsRegs s t [(pAUX n, 0x010)] ∧ KeepsMemory s t)) ∧
      (s.auxOn n = true → (s.aux n).safe = [] → (s.apllaState = 1 ∨ s.apllaState = 4) →
        Runs (.auxPeriodEnd n) s (fun t => t.flag (pAUX n) AUX.STATUS.RUNNING = false ∧
          t.out = .aux n false (s.flag (pAUX n) AUX.OUT_CFG.POLARITY) :: s.out ∧
          (s.flag (pAUX n) AUX.BYPASS_CFG.BYPASS = false → (t.aux n).running = false ∧ t.flag (pAUX n) AUX.STATUS.HELD = true) ∧
          (s.flag (pAUX n) AUX.BYPASS_CFG.BYPASS = true → (t.aux n).bypass = true ∧ t.flag (pAUX n) AUX.STATUS.BYPASSED = true ∧
            (t.aux n).endAt = s.clk.slot + s.bypassSlots n) ∧ KeepsRegs s t [(pAUX n, 0x010)] ∧ KeepsMemory s t))) ∧
    (∀ c, (s.aux n).running = false → (s.aux n).startAt = some c → c * 2 ^ 64 ≤ s.aplla.phase → s.apllaLocked = true → s.auxOn n = true →
      (s.aux n).safe = [] → s.marksBy n s.now32 = [] → s.marksBy n (s.cycle32 c) = [] →
      Runs (.auxPeriodEnd n) s (fun t => (t.aux n).running = true ∧ (t.aux n).startAt = none ∧
        (t.aux n).endAt = c + max 1 (s.get (pAUX n) AUX.DIV.DIV) ∧ t.flag (pAUX n) AUX.STATUS.RUNNING = true ∧
        t.out = .aux n true (!s.flag (pAUX n) AUX.OUT_CFG.POLARITY) :: s.out ∧ KeepsRegs s t [(pAUX n, 0x010)] ∧ KeepsMemory s t)) ∧
    ((s.aux n).safe ≠ [] → (s.aux n).safe.all (fun x => s.causeCleared 0 x) = true →
      Accepts (.auxSafeExit path n) s path (pAUX n) 0x014 (s.controlWith (pAUX n) 30) (fun t => (t.aux n).safe = [] ∧
        t.auxOn n = s.auxOn n ∧ KeepsRegs s t [(pAUX n, 0x02C)] ∧ KeepsMemory s t))

/-! ### Ridge links and Ethernet ports (chapter 11) -/

/-- Cells and links (R254 to R257, R260): each cell slot sends one cell, a waiting trigger first, then a TIME cell that is due, then a MGMT
cell, a FILL cell when nothing waits, each on the lane as a delimiter and eight scrambled blocks; a link that was LOST trains again; block
lock begins LOCKING, the seventy-second good cell makes the link UP, a bad one is counted; a lost link drops what waited, one that was not
yet UP trains again, and without a signal it is DOWN. Time transfer (R261 to R263): a TIME cell of this domain on a link that is UP shows
its peer and is kept for the next transfer, with UTC_FOLLOW its offset and leap second wait for the next slot boundary, and the end of an
interval shows the mean offset and path delay of its transfers. Where the spec leaves a point open the model's choice is that of log 8, 76,
77 and 107. Rows for which it says that exec answers a next state: RIDGE_SLOT_TX, RIDGE_BLOCK_LOCK, FILL_CELL_RX, CELL_DROP,
RIDGE_LINK_LOST, TIME_CELL_RX, RIDGE_OBS_INTERVAL. -/
def Obligations.RidgeCells : Prop :=
  (∀ s : State, s.sound = true → ∀ p : Nat, p < 6 →
    (s.cellDue p = true → Runs (.ridgeSlotTx p) s (fun t => (t.rdg p).cell5 = (s.rdg p).cell5 + cellSlot5 ∧
      (t.rdg p).slots = (s.rdg p).slots + 1 ∧
      (∀ c rest, (s.rdg p).trigs = c :: rest → s.sentCell t p (trigBits c) ∧ (t.rdg p).trigs = rest) ∧
      ((s.rdg p).trigs = [] → s.linkIsUp p = true → (s.rdg p).timeDue ≤ s.clk.slot →
        s.sentCell t p (timeBits (s.timeCell p) (s.get (pRDG p) RDG.PEER.PEER_ID)) ∧
        (t.rdg p).txSeq = wrapAdd 32 (s.rdg p).txSeq 1 ∧ (t.rdg p).timeDue = (s.rdg p).timeDue + s.timePeriod p) ∧
      ((s.rdg p).trigs = [] → (s.linkIsUp p = false ∨ s.clk.slot < (s.rdg p).timeDue) →
        (∀ c rest, (s.rdg p).mgmts = c :: rest → (∀ k, (s.rdg p).mgmtSlot = some k → k + 8 ≤ (s.rdg p).slots) →
          s.sentCell t p (mgmtBits c) ∧ (t.rdg p).mgmts = rest) ∧
        ((s.rdg p).mgmts = [] → s.sentCell t p (fillBits s.domainNum s.nodeId))) ∧
      t.link p = (if s.link p = 4 then 1 else s.link p) ∧ KeepsRegs s t [(pRDG p, 0x010)] ∧ KeepsMemory s t)) ∧
    (s.rdgOn p = true → (s.link p = 0 ∨ s.link p = 1 ∨ s.link p = 4) → Runs (.ridgeBlockLock p) s (fun t => t.link p = 2 ∧ (t.rdg p).good = 0 ∧ (t.rdg p).signal = true ∧
      (t.rdg p).lastGood = s.clk.slot ∧ KeepsRegs s t [(pRDG p, 0x010)] ∧ KeepsMemory s t)) ∧
    (s.hears p = true → Runs (.fillCellRx p) s (fun t =>
      t.get (pRDG p) RDG.CELLS_RX.COUNT = (s.get (pRDG p) RDG.CELLS_RX.COUNT + 1) % 2 ^ 32 ∧ (t.rdg p).lastGood = s.clk.slot ∧
      (s.link p = 2 → 71 ≤ (s.rdg p).good → t.link p = 3 ∧ t.irqSet (pRDG p) 1 = true) ∧ KeepsPages s t [pRDG p] ∧ KeepsMemory s t)) ∧
    (s.hears p = true → Runs (.cellDrop p true) s (fun t => (t.rdg p).good = (if s.link p = 2 then min ((s.rdg p).good + 1) 8 else 0) ∧
      t.get (pRDG p) RDG.CRC_ERRORS.COUNT = min (s.get (pRDG p) RDG.CRC_ERRORS.COUNT + 1) (2 ^ 32 - 1) ∧
      KeepsRegs s t [(pRDG p, RDG.CRC_ERRORS.off)] ∧ KeepsMemory s t)) ∧
    (s.hears p = true → Runs (.cellDrop p false) s (fun t => (t.rdg p).good = (if s.link p = 2 then min ((s.rdg p).good + 1) 8 else 0) ∧
      t.get (pRDG p) RDG.CELL_DROPS.COUNT = min (s.get (pRDG p) RDG.CELL_DROPS.COUNT + 1) (2 ^ 32 - 1) ∧
      KeepsRegs s t [(pRDG p, RDG.CELL_DROPS.off)] ∧ KeepsMemory s t)) ∧
    (s.link p = 2 → Runs (.ridgeLinkLost p) s (fun t => t.link p = 1 ∧ KeepsRegs s t [(pRDG p, 0x010)] ∧ KeepsMemory s t)) ∧
    ((s.link p = 1 ∨ s.link p = 4) → Runs (.ridgeLinkLost p) s (fun t => t.link p = 0 ∧ (t.rdg p).signal = false ∧
      KeepsRegs s t [(pRDG p, 0x010)] ∧ KeepsMemory s t)) ∧
    (s.linkIsUp p = true → Runs (.ridgeLinkLost p) s (fun t => t.link p = 4 ∧ t.errSet (pRDG p) 0 = true ∧ t.irqSet (pRDG p) 0 = true ∧
      (t.rdg p).trigs = [] ∧ (t.rdg p).mgmts = [] ∧ (t.rdg p).rx = none ∧
      t.get (pRDG p) RDG.LINK_LOSSES.COUNT = min (s.get (pRDG p) RDG.LINK_LOSSES.COUNT + 1) (2 ^ 32 - 1) ∧ KeepsMemory s t))) ∧
  (∀ s : State, s.sound = true → ∀ p : Nat, p < 6 →
    (∀ c : TimeCell, s.linkIsUp p = true → s.rdgOn p = true → c.domain = s.domainNum → Runs (.timeCellRx p c) s (fun t =>
      t.get (pRDG p) RDG.PEER.PEER_ID = c.src ∧ t.get (pRDG p) RDG.PEER.PEER_DOMAIN = c.domain ∧
      t.flag (pRDG p) RDG.PEER.PEER_ROOT = c.root ∧ t.flag (pRDG p) RDG.STATUS.PEER_VALID = true ∧
      t.flag (pRDG p) RDG.STATUS.ROLE_CLASH = (c.upstream && s.rdgUpstream p) ∧
      (∃ r, (t.rdg p).rx = some r ∧ r.seq = c.txSeq ∧ r.stepSeq = c.stepSeq ∧
        (s.clk.seeded = true → s.rdgBound p ≠ tebUnknown → r.arr = some (s.rdgRx p c.pos c.bitPos))) ∧
      (t.rdg p).xfers = (s.rdg p).xfers ++ (s.transfer p c).toList ∧
      (∀ at_, at_ = ((c.leapDay : Int) * 86400 + toSigned 16 (if c.leapPending = 0 then c.utcOffset else leapOffset c.utcOffset c.leapPending)).toNat →
        s.rdgRole p = 1 → s.flag (pRDG 0) RDG.NODE_CFG.UTC_FOLLOW = true → s.isRoot = false → c.leapPending ≠ 3 →
        s.get pTSC TSC.UTC_OFFSET.OFFSET ≠ c.utcOffset → s.leapRefusal c.utcOffset c.leapPending at_ (!s.clk.seeded) = none →
        t.ridge.utc = some (c.utcOffset, c.leapPending, at_)) ∧ KeepsPages s t [pRDG p] ∧ KeepsMemory s t)) ∧
    (∀ c : TimeCell, s.hears p = true → c.domain ≠ s.domainNum → Runs (.timeCellRx p c) s (fun t =>
      t.get (pRDG p) RDG.CELL_DROPS.COUNT = min (s.get (pRDG p) RDG.CELL_DROPS.COUNT + 1) (2 ^ 32 - 1) ∧
      KeepsRegs s t [(pRDG p, RDG.CELL_DROPS.off)] ∧ KeepsMemory s t)) ∧
    (s.rdgObsDue p = true → Runs (.ridgeObsInterval p) s (fun t => (t.rdg p).xfers = [] ∧ (s.rdg p).obsSlot < (t.rdg p).obsSlot ∧
      ((s.rdg p).xfers ≠ [] →
        t.get (pRDG p) RDG.THETA.SPAN = spanBits (roundEven (sumI (s.rdg p).xfers (·.theta2)) (2 * (s.rdg p).xfers.length)) ∧
        t.get (pRDG p) RDG.PATH_DELAY.SPAN = spanBits (roundEven (sumI (s.rdg p).xfers (·.delay2)) (2 * (s.rdg p).xfers.length))) ∧
      KeepsPages s t [pRDG p] ∧ KeepsMemory s t)))

/-- Broadcast triggers (R259, R265): ISSUE sends one on every downstream link that is UP and counts it, and brings it to its own lines where its
scope includes it; a received one that is new and for this device comes to the lines in time and goes on, one too late is counted, and one
seen before is counted as a duplicate. Where the spec leaves a point open the model's choice is that of log 77. Rows for which it says that
exec answers a next state: ISSUE, TRIG_CELL_RX. -/
def Obligations.RidgeTriggers : Prop :=
  ∀ s : State, s.sound = true →
    (∀ path, s.atLeastNs (s.getInst (pRDG 0) RDG.TRIG_ISSUE_AT.INSTANT) (s.get (pRDG 0) RDG.TRIG_LEAD.NS) = true →
      (∀ k, s.ridge.lastIssue = some k → k + 200 ≤ s.clk.slot) → (∃ p, p < 6 ∧ s.rdgOn p = true) →
      Accepts (.issue path 0) s path (pRDG 0) RDG.TRIG_CMD.off 1 (fun t => t.ridge.lastIssue = some s.clk.slot ∧
        (s.forMe (s.get (pRDG 0) RDG.TRIG_ISSUE_ARG.SCOPE) (s.get (pRDG 0) RDG.TRIG_ISSUE_ARG.DST) = true →
          (s.nodeId, s.get (pRDG 0) RDG.TRIG_SEQ_NEXT.SEQ) ∈ t.ridge.seen ∧
          ∃ e, t.lineEvents = s.lineEvents ++ [e] ∧ e.src = .ridge (s.get (pRDG 0) RDG.TRIG_ISSUE_ARG.TRIG_NUM) ∧
            e.t = s.getInst (pRDG 0) RDG.TRIG_ISSUE_AT.INSTANT) ∧
        (s.forMe (s.get (pRDG 0) RDG.TRIG_ISSUE_ARG.SCOPE) (s.get (pRDG 0) RDG.TRIG_ISSUE_ARG.DST) = false →
          t.ridge.seen = s.ridge.seen ∧ t.lineEvents = s.lineEvents) ∧
        t.get (pRDG 0) RDG.TRIG_SEQ_NEXT.SEQ = (s.get (pRDG 0) RDG.TRIG_SEQ_NEXT.SEQ + 1) % 2 ^ 32 ∧
        (∀ q ∈ s.downPorts, ∃ c, (t.rdg q).trigs = (s.rdg q).trigs ++ [c] ∧ c.src = s.nodeId ∧
          c.num = s.get (pRDG 0) RDG.TRIG_ISSUE_ARG.TRIG_NUM ∧ c.seq = s.get (pRDG 0) RDG.TRIG_SEQ_NEXT.SEQ ∧
          c.execAt = s.getInst (pRDG 0) RDG.TRIG_ISSUE_AT.INSTANT ∧ c.hops = 0 ∧ c.upward = false) ∧
        KeepsRegs s t [(pRDG 0, RDG.TRIG_SEQ_NEXT.off), (pRDG 0, RDG.TRIG_CMD.off), (pRDG 0, 0x02C)] ∧ KeepsMemory s t)) ∧
    (∀ (p : Nat) (c : TrigCell), p < 6 → s.rdgOn p = true → s.linkIsUp p = true → c.domain = s.domainNum → c.upward = false →
      s.rdgRole p = 1 → c.src ≠ s.nodeId →
      ((c.src, c.seq) ∉ s.ridge.seen → s.forMe c.scope c.dst = true → s.atLeastNs c.execAt 1024 = true → c.hops < 63 →
        Runs (.trigCellRx p c) s (fun t => (c.src, c.seq) ∈ t.ridge.seen ∧
          (∃ e, t.lineEvents = s.lineEvents ++ [e] ∧ e.src = .ridge c.num ∧ e.t = c.execAt) ∧
          (∀ q ∈ s.downPorts, (t.rdg q).trigs = (s.rdg q).trigs ++ [{ c with hops := c.hops + 1 }]) ∧ KeepsPages s t [pRDG p] ∧ KeepsMemory s t)) ∧
      ((c.src, c.seq) ∉ s.ridge.seen → s.forMe c.scope c.dst = true → s.atLeastNs c.execAt 1024 = false → s.downPorts = [] →
        Runs (.trigCellRx p c) s (fun t => t.ridge.seen = s.ridge.seen ∧ t.lineEvents = s.lineEvents ∧ t.irqSet (pRDG p) 3 = true ∧
          t.get (pRDG p) RDG.TRIG_LATE.COUNT = min (s.get (pRDG p) RDG.TRIG_LATE.COUNT + 1) (2 ^ 32 - 1) ∧
          KeepsPages s t [pRDG p] ∧ KeepsMemory s t)) ∧
      ((c.src, c.seq) ∈ s.ridge.seen → Runs (.trigCellRx p c) s (fun t => t.lineEvents = s.lineEvents ∧
        t.get (pRDG p) RDG.DUPLICATES.COUNT = min (s.get (pRDG p) RDG.DUPLICATES.COUNT + 1) (2 ^ 32 - 1) ∧
        KeepsPages s t [pRDG p] ∧ KeepsMemory s t)))

/-- Requests for remote page access at the root (R266): each of the four commands begins one with the next COUNTER and the tag of the key
selected, and it ends unanswered after 10 ms with TIMEOUT. MGMT cells that arrive (R259, R266): the answer to the root's request ends it; a
node drops and counts a request that no key of its own verifies and one that is replayed, and serves a request with a good tag and a COUNTER
above the highest: denied without REMOTE_ENABLE, else a write is made by the remote path; the answer leaves upstream. Where the spec leaves
a point open the model's choice is that of log 21, 77, 106 and 107. Rows for which it says that exec answers a next state: MGMT_READ32,
MGMT_WRITE32, MGMT_READ128, MGMT_WRITE128, MGMT_TIMEOUT, MGMT_RESPONSE_RX, MGMT_REQUEST_RX. -/
def Obligations.RemoteAccess : Prop :=
  (∀ s : State, s.sound = true →
    (∀ (path : Path) (id key : Nat), s.isRoot = true → s.ridgeKey (s.flag (pRDG 0) RDG.MGMT_DST.KEY_SEL) = some (id, key) → s.ridge.request = none →
      s.get (pRDG 0) RDG.COUNTER.COUNTER % 2 ^ 32 ≠ 2 ^ 32 - 1 →
      Accepts (.mgmtRead32 path 0) s path (pRDG 0) RDG.MGMT_CMD.off 1 (fun t => t.rd (pRDG 0) RDG.MGMT_RESP.off = 0 ∧
        t.ridge.request = some (s.get (pRDG 0) RDG.COUNTER.COUNTER, 1, s.clk.slot) ∧
        t.get (pRDG 0) RDG.COUNTER.COUNTER = s.get (pRDG 0) RDG.COUNTER.COUNTER + 1 ∧ KeepsPages s t [pRDG 0] ∧ KeepsMemory s t) ∧
      Accepts (.mgmtWrite32 path 0) s path (pRDG 0) RDG.MGMT_CMD.off 2 (fun t => t.rd (pRDG 0) RDG.MGMT_RESP.off = 0 ∧
        t.ridge.request = some (s.get (pRDG 0) RDG.COUNTER.COUNTER, 2, s.clk.slot) ∧
        t.get (pRDG 0) RDG.COUNTER.COUNTER = s.get (pRDG 0) RDG.COUNTER.COUNTER + 1 ∧
        (∀ q ∈ s.downPorts, ∃ c, (t.rdg q).mgmts = (s.rdg q).mgmts ++ [c] ∧ c.data = s.get (pRDG 0) RDG.MGMT_DATA.DATA ∧ c.op = 2 ∧
          c.dst = s.get (pRDG 0) RDG.MGMT_DST.DST ∧ c.keyId = id ∧
          c = tagCell { c with tag := 0 } key) ∧ KeepsPages s t [pRDG 0] ∧ KeepsMemory s t) ∧
      Accepts (.mgmtRead128 path 0) s path (pRDG 0) RDG.MGMT_CMD.off 3 (fun t => t.rd (pRDG 0) RDG.MGMT_RESP.off = 0 ∧
        t.ridge.request = some (s.get (pRDG 0) RDG.COUNTER.COUNTER, 3, s.clk.slot) ∧
        t.get (pRDG 0) RDG.COUNTER.COUNTER = s.get (pRDG 0) RDG.COUNTER.COUNTER + 1 ∧ KeepsPages s t [pRDG 0] ∧ KeepsMemory s t) ∧
      Accepts (.mgmtWrite128 path 0) s path (pRDG 0) RDG.MGMT_CMD.off 4 (fun t => t.rd (pRDG 0) RDG.MGMT_RESP.off = 0 ∧
        t.ridge.request = some (s.get (pRDG 0) RDG.COUNTER.COUNTER, 4, s.clk.slot) ∧
        t.get (pRDG 0) RDG.COUNTER.COUNTER = s.get (pRDG 0) RDG.COUNTER.COUNTER + 1 ∧ KeepsPages s t [pRDG 0] ∧ KeepsMemory s t)) ∧
    (s.mgmtLate = true → Runs .mgmtTimeout s (fun t => t.flag (pRDG 0) RDG.MGMT_RESP.TIMEOUT = true ∧
      t.get (pRDG 0) RDG.MGMT_RESP.RESULT = 7 ∧ t.ridge.request = none ∧ KeepsRegs s t [(pRDG 0, RDG.MGMT_RESP.off)] ∧ KeepsMemory s t))) ∧
  (∀ s : State, s.sound = true → ∀ (p : Nat) (c : MgmtCell) (key : Nat), p < 6 → s.rdgOn p = true → s.linkIsUp p = true → c.domain = s.domainNum →
    (∀ op k, s.tagKey { c with upward := true } = some key → s.rdgRole p = 0 → s.isRoot = true → s.ridge.request = some (c.counter, op, k) → c.op = op + 128 →
      Runs (.mgmtResponseRx p c) s (fun t => t.ridge.request = none ∧ t.flag (pRDG 0) RDG.MGMT_RESP.DONE = true ∧
        t.get (pRDG 0) RDG.MGMT_RESP.RESULT = c.result ∧ t.get (pRDG 0) RDG.MGMT_RESP.OP = c.op ∧ t.irqSet (pRDG 0) 4 = true ∧
        (op % 2 = 1 → t.get (pRDG 0) RDG.MGMT_RESP_DATA.DATA = c.data) ∧ KeepsPages s t [pRDG 0, pRDG p] ∧ KeepsMemory s t)) ∧
    (s.rdgRole p = 1 → c.scope = 0 → c.dst = s.nodeId → c.src ≠ s.nodeId → s.downPorts = [] → s.upPort = some p →
      (s.tagKey { c with upward := false } = none → Runs (.mgmtRequestRx p c) s (fun t => t.ridge.highest = s.ridge.highest ∧
        t.get (pRDG p) RDG.AUTH_FAILS.COUNT = min (s.get (pRDG p) RDG.AUTH_FAILS.COUNT + 1) (2 ^ 32 - 1) ∧ t.errSet (pRDG p) 1 = true ∧
        (t.rdg p).mgmts = (s.rdg p).mgmts ∧ KeepsPages s t [pRDG p] ∧ KeepsMemory s t)) ∧
      (s.tagKey { c with upward := false } = some key → (∃ h, s.ridge.highest = some h ∧ c.counter ≤ h) → Runs (.mgmtRequestRx p c) s (fun t =>
        t.get (pRDG p) RDG.AUTH_FAILS.COUNT = min (s.get (pRDG p) RDG.AUTH_FAILS.COUNT + 1) (2 ^ 32 - 1) ∧
        (t.rdg p).mgmts = (s.rdg p).mgmts ∧ KeepsPages s t [pRDG p] ∧ KeepsMemory s t)) ∧
      (s.tagKey { c with upward := false } = some key → (∀ h, s.ridge.highest = some h → h < c.counter) → s.flash.settings.counterHi ≤ c.counter / 2 ^ 32 →
      ((s.flag pOWN OWN.REMOTE_CTL.REMOTE_ENABLE = false → Runs (.mgmtRequestRx p c) s (fun t => t.ridge.highest = some c.counter ∧
        t.get (pRDG 0) RDG.COUNTER.COUNTER = c.counter ∧
        (∃ m, (t.rdg p).mgmts = (s.rdg p).mgmts ++ [m] ∧ m.result = 6 ∧ m.counter = c.counter ∧ m.op = c.op % 128 + 128 ∧ m.dst = c.src ∧
          m.upward = true ∧ m = tagCell { m with tag := 0 } key) ∧ KeepsPages s t [pRDG 0, pRDG p] ∧ KeepsMemory s t)) ∧
      (s.flag pOWN OWN.REMOTE_CTL.REMOTE_ENABLE = true → c.op = 2 → c.offset = 0x01C → s.passes .remote c.page 0x01C (c.data % 2 ^ 32) = true →
        valueOk c.page 0x01C (c.data % 2 ^ 32) = true →
        Runs (.mgmtRequestRx p c) s (fun t => t.rd c.page 0x01C = BitVec.ofNat 32 c.data ∧ t.result c.page = 0 ∧
          (∃ m, (t.rdg p).mgmts = (s.rdg p).mgmts ++ [m] ∧ m.result = 0 ∧ m.counter = c.counter ∧
            m = tagCell { m with tag := 0 } key) ∧
          KeepsPages s t [pRDG 0, pRDG p, c.page] ∧ KeepsMemory s t))))))

/-- Ethernet ports (R268 to R273): a doorbell in order moves HOST_IDX, a frame of the TX ring goes out with its FCS, or with the link down is
discarded and counted, a departure stamp completes the element that waits for it, a good frame that the filter takes reaches its buffer, a
bad one is counted, and the link changes. Where the spec leaves a point open the model's choice is that of log 79. Rows for which it says
that exec answers a next state: ETH_DOORBELL, ETH_FRAME_TX, ETH_TX_STAMP, ETH_FRAME_RX, ETH_LINK_CHANGE. -/
def Obligations.EthernetPorts : Prop :=
  ∀ s : State, s.sound = true → ∀ p : Nat, p < 2 →
    (∀ path v, (v + 2 ^ 32 - s.get (pETH p) ETH.TXR_DEV_IDX.DEV_IDX) % 2 ^ 32 ≤ 2 ^ s.get (pETH p) ETH.TXR_CFG.LOG2_ENTRIES →
      Accepts (.ethDoorbell path p false v) s path (pETH p) ETH.TXR_DOORBELL.off v (fun t => t.get (pETH p) ETH.TXR_DOORBELL.HOST_IDX = v ∧
        KeepsRegs s t [(pETH p, ETH.TXR_DOORBELL.off), (pETH p, 0x02C)] ∧ KeepsMemory s t)) ∧
    (∀ path v, (v + 2 ^ 32 - s.get (pETH p) ETH.RXR_DEV_IDX.DEV_IDX) % 2 ^ 32 ≤ 2 ^ s.get (pETH p) ETH.RXR_CFG.LOG2_ENTRIES →
      Accepts (.ethDoorbell path p true v) s path (pETH p) ETH.RXR_DOORBELL.off v (fun t => t.get (pETH p) ETH.RXR_DOORBELL.HOST_IDX = v ∧
        KeepsRegs s t [(pETH p, ETH.RXR_DOORBELL.off), (pETH p, 0x02C)] ∧ KeepsMemory s t)) ∧
    (∀ f : TxFrame, s.txReady p = true → 60 ≤ f.length → f.length ≤ 9216 → s.flag (pETH p) ETH.STATUS.LINK_UP = true → f.oneStep = false →
      f.tsReq = false → Runs (.ethFrameTx p f) s (fun t => (t.eth p).taken = wrapAdd 32 (s.eth p).taken 1 ∧
        .frame p (f.bytes ++ leDigits 8 4 (fcs f.bytes)) ∈ t.out ∧
        t.get (pETH p) ETH.TX_FRAMES.COUNT = (s.get (pETH p) ETH.TX_FRAMES.COUNT + 1) % 2 ^ 64 ∧ KeepsPages s t [pETH p] ∧ KeepsMemory s t)) ∧
    (∀ f : TxFrame, s.txReady p = true → s.flag (pETH p) ETH.STATUS.LINK_UP = false →
      Runs (.ethFrameTx p f) s (fun t => (t.eth p).taken = wrapAdd 32 (s.eth p).taken 1 ∧
        t.get (pETH p) ETH.TX_DISCARDED.COUNT = min (s.get (pETH p) ETH.TX_DISCARDED.COUNT + 1) (2 ^ 32 - 1) ∧
        KeepsPages s t [pETH p] ∧ KeepsMemory s t)) ∧
    (∀ e pos, (s.eth p).sent = [e] → e.wants = true → s.txRuns p = true → Runs (.ethTxStamp p pos) s (fun t => (t.eth p).sent = [] ∧
      t.get (pETH p) ETH.TXR_DEV_IDX.DEV_IDX = (s.get (pETH p) ETH.TXR_DEV_IDX.DEV_IDX + 1) % 2 ^ 32 ∧ t.irqSet (pETH p) 2 = true ∧
      s.ethElemOut p false (s.get (pETH p) ETH.TXR_DEV_IDX.DEV_IDX) (txElemBits
        { e with wants := false, stamp := some (s.txStamp p pos 0, s.ethTeb p (s.txStamp p pos 0)), bits := setBit e.bits 14 }) ∈ t.out ∧
      KeepsPages s t [pETH p] ∧ KeepsMemory s t)) ∧
    (∀ f : RxFrame, s.flag (pETH p) ETH.CONTROL.ENABLE = true → s.flag (pETH p) ETH.STATUS.LINK_UP = true →
      (f.fcsOk = true → s.ethPasses p f.bytes = true → s.rxRuns p = true → f.bytes.length ≤ s.get (pETH p) ETH.RXR_CFG.BUF_SIZE →
        s.get (pETH p) ETH.RXR_DEV_IDX.DEV_IDX ≠ s.get (pETH p) ETH.RXR_DOORBELL.HOST_IDX →
        Runs (.ethFrameRx p f) s (fun t => .hostMem f.addr f.bytes ∈ t.out ∧ t.irqSet (pETH p) 1 = true ∧
          t.get (pETH p) ETH.RXR_DEV_IDX.DEV_IDX = (s.get (pETH p) ETH.RXR_DEV_IDX.DEV_IDX + 1) % 2 ^ 32 ∧
          t.get (pETH p) ETH.RX_FRAMES.COUNT = (s.get (pETH p) ETH.RX_FRAMES.COUNT + 1) % 2 ^ 64 ∧ KeepsPages s t [pETH p] ∧ KeepsMemory s t)) ∧
      (f.fcsOk = false → Runs (.ethFrameRx p f) s (fun t => t.out = s.out ∧
        t.get (pETH p) ETH.RX_FCS_ERRORS.COUNT = min (s.get (pETH p) ETH.RX_FCS_ERRORS.COUNT + 1) (2 ^ 32 - 1) ∧
        KeepsRegs s t [(pETH p, ETH.RX_FCS_ERRORS.off)] ∧ KeepsMemory s t))) ∧
    (∀ up, s.flag (pETH p) ETH.CONTROL.ENABLE = true → s.flag (pETH p) ETH.STATUS.LINK_UP ≠ up → Runs (.ethLinkChange p up) s (fun t =>
      t.flag (pETH p) ETH.STATUS.LINK_UP = up ∧ t.irqSet (pETH p) 0 = true ∧ (up = false → t.errSet (pETH p) 0 = true) ∧
      KeepsRegs s t [(pETH p, 0x010), (pETH p, 0x018), (pETH p, 0x024)] ∧ KeepsMemory s t))

/-! ### The Eave (chapter 12) -/

/-- The calendar of the Eave (R279 to R281, R289): SET waits for the next count edge, SYNC_NOW asks for a sync at the next second, INVALIDATE
makes the calendar invalid with an unknown bound; a sync makes it valid with the bound of the timescale, and the alarm, the leap second and
the trim renewal happen when due. Where the spec leaves a point open the model's choice is that of log 65. Rows for which it says that exec
answers a next state: CAL_CMD_SET, SYNC_NOW, INVALIDATE, CALENDAR_SYNC, TRIM_RENEW, EAVE_LEAP, ALARM. -/
def Obligations.Calendar : Prop :=
  ∀ s : State, s.sound = true → ∀ path : Path,
    (s.mainOn = false ∨ s.flag pEAVE EAVE.CAL_CFG.AUTO_SYNC = false → s.eave.syncAt = none → s.eave.syncLoad = false →
      Accepts (.calCmdSet path) s path pEAVE EAVE.CAL_CMD.off 1 (fun t => t.eave.cmds = s.eave.cmds ++ [.set (eaveOrigin path)] ∧
        KeepsRegs s t [(pEAVE, EAVE.CAL_CMD.off), (pEAVE, 0x02C)] ∧ KeepsMemory s t)) ∧
    (2 ≤ s.stage → s.tebTs s.now ≠ tebUnknown →
      Accepts (.syncNow path) s path pEAVE EAVE.CAL_CMD.off 2 (fun t => t.eave.syncNow = true ∧
        KeepsRegs s t [(pEAVE, EAVE.CAL_CMD.off), (pEAVE, 0x02C)] ∧ KeepsMemory s t)) ∧
    Accepts (.invalidate path) s path pEAVE EAVE.CAL_CMD.off 3 (fun t => t.flag pEAVE EAVE.STATUS.CAL_VALID = false ∧
      t.get pEAVE EAVE.CAL_UNC.NS = 2 ^ 64 - 1 ∧ KeepsPages s t [pEAVE] ∧ KeepsMemory s t) ∧
    (∀ sec teb, s.eave.syncAt = some (sec, teb) → s.eave.syncEdge < s.eave.edges → Runs .calendarSync s (fun t =>
      t.flag pEAVE EAVE.STATUS.CAL_VALID = true ∧ t.get pEAVE EAVE.LAST_SYNC.SECONDS = sec % 2 ^ 64 ∧ t.eave.syncAt = none ∧
      t.eave.syncLoad = true ∧ (teb < tebUnknown → t.get pEAVE EAVE.CAL_UNC.NS = ceilDiv (teb + 1000) 1000) ∧ KeepsPages s t [pEAVE] ∧
      KeepsMemory s t)) ∧
    (∀ trim, s.flag pEAVE EAVE.CAL_CFG.AUTO_SYNC = true → 2 ≤ s.stage → trim ≠ 256 → Runs (.trimRenew trim) s (fun t =>
      t.get pEAVE EAVE.CAL_CFG.TRIM = trim ∧ KeepsRegs s t [(pEAVE, EAVE.CAL_CFG.off)] ∧ KeepsMemory s t)) ∧
    (s.eaveLeapDue = true → Runs .eaveLeap s (fun t => t.get pEAVE EAVE.LEAP_CFG.LEAP_PENDING = 0 ∧
      t.get pEAVE EAVE.UTC_OFFSET.OFFSET = leapOffset (s.get pEAVE EAVE.UTC_OFFSET.OFFSET) (s.get pEAVE EAVE.LEAP_CFG.LEAP_PENDING) ∧
      KeepsPages s t [pEAVE] ∧ KeepsMemory s t)) ∧
    (s.alarmDue = true → Runs .alarm s (fun t => t.get pEAVE EAVE.ALARM_AT.SECONDS = 0 ∧ t.eave.alarmSeen = true ∧ t.irqSet pEAVE 3 = true ∧
      KeepsPages s t [pEAVE] ∧ KeepsMemory s t))

/-- Power, alert and log of the Eave (R288 to R291): PWR_ON waits for the next count edge and cancels a PWR_OFF that waits, PWR_OFF with the
core running drives the pin low after its delay, the alert is set and released, an edge of WAKE_IN wakes, and CLEAR empties the log. The
Eave's supply, monitors and crystal (R275, R276, R278, R283): a switchover is shown, at a tick each enabled monitor compares its source with
its window, one outside is latched and a low battery shown, a stopped crystal stops the calendar, and a power-on reset leaves the calendar
lost and touches no page but DEV and EAVE. Where the spec leaves a point open the model's choice is that of log 66 and 67. Rows for which it
says that exec answers a next state: PWR_ON, PWR_OFF, PWR_DOWN_DELAY_EXPIRY, ALERT_SET, ALERT_CLR, WAKE_EDGE, LOG_CLEAR, EAVE_SWITCHOVER,
EAVE_POR, XT32_FAULT, MONITOR_TICK. -/
def Obligations.EavePower : Prop :=
  (∀ s : State, s.sound = true → ∀ path : Path,
    Accepts (.pwrOn path) s path pEAVE EAVE.PWR_CMD.off 1 (fun t => t.eave.cmds = s.eave.cmds ++ [.pwrOn (eaveOrigin path)] ∧
      t.eave.downAt = none ∧ t.flag pEAVE EAVE.PWR_STATE.DOWN_PENDING = false ∧
      KeepsRegs s t [(pEAVE, EAVE.PWR_STATE.off), (pEAVE, EAVE.PWR_CMD.off), (pEAVE, 0x02C)] ∧ KeepsMemory s t) ∧
    (s.mainOn = false → Accepts (.pwrOff path) s path pEAVE EAVE.PWR_CMD.off 2 (fun t =>
      t.eave.cmds = s.eave.cmds ++ [.pwrOff (eaveOrigin path)] ∧ KeepsRegs s t [(pEAVE, EAVE.PWR_CMD.off), (pEAVE, 0x02C)] ∧
      KeepsMemory s t)) ∧
    (s.mainOn = true → s.eave.downAt = none → Accepts (.pwrOff path) s path pEAVE EAVE.PWR_CMD.off 2 (fun t =>
      t.eave.downAt = some (s.eave.ticks + s.get pEAVE EAVE.PWR_CFG.DOWN_DELAY_MS * 200000, eaveOrigin path) ∧
      t.flag pEAVE EAVE.PWR_STATE.DOWN_PENDING = true ∧ t.irqSet pEAVE 5 = true ∧ KeepsPages s t [pEAVE] ∧ KeepsMemory s t)) ∧
    (∀ d, s.eave.downAt = some d → d.1 ≤ s.eave.ticks → Runs .pwrDownDelayExpiry s (fun t => t.eave.downAt = none ∧
      t.flag pEAVE EAVE.PWR_STATE.PWR_EN = false ∧ t.flag pEAVE EAVE.PWR_STATE.DOWN_PENDING = false ∧ KeepsPages s t [pEAVE] ∧
      KeepsMemory s t)) ∧
    Accepts (.alertSet path) s path pEAVE EAVE.PWR_CMD.off 3 (fun t => t.flag pEAVE EAVE.STATUS.ALERT = true ∧
      KeepsRegs s t [(pEAVE, 0x010), (pEAVE, EAVE.PWR_CMD.off), (pEAVE, 0x02C)] ∧ KeepsMemory s t) ∧
    Accepts (.alertClr path) s path pEAVE EAVE.PWR_CMD.off 4 (fun t => t.flag pEAVE EAVE.STATUS.ALERT = false ∧
      KeepsRegs s t [(pEAVE, 0x010), (pEAVE, EAVE.PWR_CMD.off), (pEAVE, 0x02C)] ∧ KeepsMemory s t) ∧
    (∀ b, bitOf (s.get pEAVE EAVE.PWR_CFG.WAKE_SENSE) (if b then 0 else 1) = true → Runs (.wakeEdge b) s (fun t => t.eave.wakeLevel = b ∧
      t.eave.wakeSeen = true ∧ t.irqSet pEAVE 4 = true ∧
      (s.flag pEAVE EAVE.PWR_CFG.WAKE_AUTO = true → t.eave.cmds = s.eave.cmds ++ [.pwrOn 4] ∧ t.eave.downAt = none) ∧
      KeepsPages s t [pEAVE] ∧ KeepsMemory s t)) ∧
    Accepts (.logClear path) s path pEAVE EAVE.LOG_CMD.off 1 (fun t => t.eave.logCount = 0 ∧ t.get pEAVE EAVE.LOG_STATE.HEAD = 0 ∧
      t.flag pEAVE EAVE.LOG_STATE.WRAPPED = false ∧ t.get pEAVE EAVE.LOG_STATE.SEQ_NEXT = s.get pEAVE EAVE.LOG_STATE.SEQ_NEXT ∧
      (∀ e, e < 64 → t.get pEAVE (EAVE.LOG.ENTRY e) = 0) ∧ KeepsPages s t [pEAVE] ∧ KeepsMemory s t)) ∧
  (∀ s : State, s.sound = true →
    (∀ b, s.flag pEAVE EAVE.STATUS.ON_VBAT ≠ b → Runs (.eaveSwitchover b) s (fun t => t.flag pEAVE EAVE.STATUS.ON_VBAT = b ∧
      t.irqSet pEAVE 2 = true ∧ KeepsPages s t [pEAVE] ∧ KeepsMemory s t)) ∧
    Runs .eavePor s (fun t => t.errSet pEAVE 0 = true ∧ t.flag pEAVE EAVE.STATUS.CAL_VALID = false ∧ t.mainOn = s.mainOn ∧
      t.flag pDEV DEV.RESET_CAUSE.EAVE_POR = true ∧ t.eave.pc = none ∧ t.eave.cmds = [] ∧ t.eave.wakeLevel = s.eave.wakeLevel ∧ KeepsPages s t [pEAVE, pDEV] ∧ KeepsMemory s t) ∧
    Runs .xt32Fault s (fun t => t.eave.stopped = true ∧ t.errSet pEAVE 3 = true ∧ KeepsRegs s t [(pEAVE, 0x024)] ∧ KeepsMemory s t) ∧
    (s.eave.tickEdge + 2 ^ (s.get pEAVE EAVE.MON_TICK.TICK_SEL + 11) ≤ s.eave.edges → ∀ samples, Runs (.monitorTick samples) s (fun t =>
      t.flag pEAVE EAVE.STATUS.VBAT_LOW = decide ((samples.getD 8 {}).vbat < 2000000) ∧
      ((samples.getD 8 {}).vbat < 2000000 → t.errSet pEAVE 2 = true) ∧
      (∀ k, k < 8 → s.flag pEAVE (EAVE.MON_CFG.ENABLE k) = true → ∀ u, u = sourceTwice (samples.getD k {}) (s.get pEAVE (EAVE.MON_CFG.SOURCE k)) →
        (8 * u < 28125 * s.get pEAVE (EAVE.MON_CFG.LO k) ∨ 28125 * (s.get pEAVE (EAVE.MON_CFG.HI k) : Int) < 8 * u) →
        bitOf (t.get pEAVE EAVE.LATCH.LATCH) k = true ∧ bitOf (t.get pEAVE EAVE.LAST_SAMPLE.OUTSIDE) k = true ∧
        t.flag pEAVE (EAVE.MON_STATE.BELOW k) = decide (8 * u < 28125 * s.get pEAVE (EAVE.MON_CFG.LO k))) ∧
      (s.flag pEAVE EAVE.PROG_CTL.RUN = true → t.eave.pc = some 0 ∧ t.eave.c = false) ∧ KeepsPages s t [pEAVE] ∧ KeepsMemory s t)) ∧
    (s.eave.edges < s.eave.tickEdge + 2 ^ (s.get pEAVE EAVE.MON_TICK.TICK_SEL + 11) → ∀ samples, Runs (.monitorTick samples) s (fun t => t = s)))

/-- The instructions of the decision program (R285, R286): each runs at its count edge, does what its row says, and the program goes on at the
next address; JMP goes on where it says, END ends the run, and an error in its memory stops it with the alert. Rows for which it says that
exec answers a next state: TEST, AND, OR, SETF, JMP, CNT, CMP, OUT_PWR_ON, OUT_PWR_OFF, OUT_ALERT_SET, OUT_ALERT_CLR, LOG, CLRL, PROG_END,
PROGRAM_MEMORY_ECC. -/
def Obligations.DecisionProgram : Prop :=
  ∀ s : State, s.sound = true →
    (∀ a w, s.progDue = some (a, w) → a < 63 →
      (bitsOf w 15 12 = 1 → Runs .test s (fun t => t.eave.c = s.progOperand w ∧ t.eave.pc = some (a + 1) ∧ t.eave.progEdge = s.eave.edges ∧
        KeepsRegs s t [] ∧ KeepsMemory s t)) ∧
      (bitsOf w 15 12 = 2 → Runs .and s (fun t => t.eave.c = (s.eave.c && s.progOperand w) ∧ t.eave.pc = some (a + 1) ∧ KeepsRegs s t [] ∧
        KeepsMemory s t)) ∧
      (bitsOf w 15 12 = 3 → Runs .or s (fun t => t.eave.c = (s.eave.c || s.progOperand w) ∧ t.eave.pc = some (a + 1) ∧ KeepsRegs s t [] ∧
        KeepsMemory s t)) ∧
      (bitsOf w 15 12 = 4 → Runs .setf s (fun t => bitOf (t.get pEAVE EAVE.PROG_STATE.FLAGS) (bitsOf w 2 0) = s.eave.c ∧
        (∀ k, k < 8 → k ≠ bitsOf w 2 0 → bitOf (t.get pEAVE EAVE.PROG_STATE.FLAGS) k = bitOf (s.get pEAVE EAVE.PROG_STATE.FLAGS) k) ∧
        t.eave.pc = some (a + 1) ∧ KeepsRegs s t [(pEAVE, EAVE.PROG_STATE.off)] ∧ KeepsMemory s t)) ∧
      (bitsOf w 15 12 = 5 → Runs .jmp s (fun t => t.eave.pc = some (if bitOf w 11 || s.eave.c then bitsOf w 5 0 else a + 1) ∧
        t.eave.c = s.eave.c ∧ KeepsRegs s t [] ∧ KeepsMemory s t)) ∧
      (bitsOf w 15 12 = 6 → Runs .cnt s (fun t => t.get pEAVE (cntFld (bitsOf w 1 0)) =
          (if s.eave.c then min (s.get pEAVE (cntFld (bitsOf w 1 0)) + 1) 255 else 0) ∧
        (∀ k, k < 4 → k ≠ bitsOf w 1 0 → t.get pEAVE (cntFld k) = s.get pEAVE (cntFld k)) ∧ t.eave.pc = some (a + 1) ∧
        KeepsRegs s t [(pEAVE, EAVE.PROG_CNT.off)] ∧ KeepsMemory s t)) ∧
      (bitsOf w 15 12 = 7 → Runs .cmp s (fun t => t.eave.c = decide (bitsOf w 7 0 ≤ s.get pEAVE (cntFld (bitsOf w 9 8))) ∧
        t.eave.pc = some (a + 1) ∧ KeepsRegs s t [] ∧ KeepsMemory s t)) ∧
      (bitsOf w 15 12 = 8 → bitsOf w 2 0 = 0 → Runs .outPwrOn s (fun t => t.eave.pc = some (a + 1) ∧
        (s.eave.c = true → t.flag pEAVE EAVE.PWR_STATE.PWR_EN = true ∧ t.eave.downAt = none) ∧ (s.eave.c = false → KeepsRegs s t []) ∧
        KeepsPages s t [pEAVE] ∧ KeepsMemory s t)) ∧
      (bitsOf w 15 12 = 8 → bitsOf w 2 0 = 1 → Runs .outPwrOff s (fun t => t.eave.pc = some (a + 1) ∧
        (s.eave.c = true → s.mainOn = false → t.flag pEAVE EAVE.PWR_STATE.PWR_EN = false) ∧
        (s.eave.c = true → s.mainOn = true → t.eave.downAt.isSome = true) ∧ (s.eave.c = false → KeepsRegs s t []) ∧ KeepsPages s t [pEAVE] ∧
        KeepsMemory s t)) ∧
      (bitsOf w 15 12 = 8 → bitsOf w 2 0 = 2 → Runs .outAlertSet s (fun t => t.eave.pc = some (a + 1) ∧
        t.flag pEAVE EAVE.STATUS.ALERT = (s.eave.c || s.flag pEAVE EAVE.STATUS.ALERT) ∧ KeepsRegs s t [(pEAVE, 0x010)] ∧ KeepsMemory s t)) ∧
      (bitsOf w 15 12 = 8 → bitsOf w 2 0 = 3 → Runs .outAlertClr s (fun t => t.eave.pc = some (a + 1) ∧
        t.flag pEAVE EAVE.STATUS.ALERT = (!s.eave.c && s.flag pEAVE EAVE.STATUS.ALERT) ∧ KeepsRegs s t [(pEAVE, 0x010)] ∧ KeepsMemory s t)) ∧
      (bitsOf w 15 12 = 9 → Runs .log s (fun t => t.eave.pc = some (a + 1) ∧
        t.get pEAVE EAVE.LOG_STATE.SEQ_NEXT = (s.get pEAVE EAVE.LOG_STATE.SEQ_NEXT + b2n s.eave.c) % 2 ^ 24 ∧ KeepsPages s t [pEAVE] ∧
        KeepsMemory s t)) ∧
      (bitsOf w 15 12 = 10 → Runs .clrl s (fun t => t.eave.pc = some (a + 1) ∧ (∀ k, k < 8 → bitOf (t.get pEAVE EAVE.LATCH.LATCH) k =
          (bitOf (s.get pEAVE EAVE.LATCH.LATCH) k && !(s.eave.c && bitOf w k))) ∧ KeepsRegs s t [(pEAVE, EAVE.LATCH.off)] ∧ KeepsMemory s t))) ∧
    (∀ a w, s.progDue = some (a, w) → a < 64 → bitsOf w 15 12 = 0 → Runs .progEnd s (fun t => t.eave.pc = none ∧ t.eave.wakeSeen = false ∧
      t.eave.alarmSeen = false ∧ t.get pEAVE EAVE.PROG_STATE.LAST_PC = a ∧ KeepsRegs s t [(pEAVE, EAVE.PROG_STATE.off)] ∧ KeepsMemory s t)) ∧
    Runs .programMemoryEcc s (fun t => t.flag pEAVE EAVE.PROG_CTL.RUN = false ∧ t.flag pEAVE EAVE.PROG_STATE.FAULT = true ∧
      t.errSet pEAVE 1 = true ∧ t.flag pEAVE EAVE.STATUS.ALERT = true ∧ t.eave.pc = none ∧ KeepsPages s t [pEAVE] ∧ KeepsMemory s t)

/-! ### Faults (chapter 13) -/

/-- The reports of one cycle of the collector, and the cases of the record they give (R296, R299, R301, R302): the first one of highest severity
fills the first-fault record, later ones are counted, each source counts, and a reaction DEVICE_SAFE enters device safe state; a pair that
reads 00 or 11 raises its source once and is a line fault until it reads as it should, which the map records after a self-fault too; and an
injected event ends after its hold. Where the spec leaves a point open the model's choice is that of log 68 and 109. Rows for which it says
that exec answers a next state: FAULT_COLLECT, LINE_FAULT, INJECTION_HOLD_END. -/
def Obligations.FaultCollection : Prop :=
  ∀ s : State, s.sound = true →
    (∀ w, s.distributed = false → s.flag pGUTTER GUTTER.STATUS.SELF_FAULT = false →
      worst (((List.range 128).filter (fun k => s.sampled.any (fun e => e.source == k))).map (fun k => s.report s.sampled k)) = some w →
      (s.flag pGUTTER GUTTER.FF_INFO.VALID = false → Runs .faultCollect s (fun t => t.flag pGUTTER GUTTER.FF_INFO.VALID = true ∧
        t.get pGUTTER GUTTER.FF_INFO.SOURCE = w.source ∧ t.get pGUTTER GUTTER.FF_INFO.SEVERITY = w.sev % 4 ∧
        t.get pGUTTER GUTTER.FF_REACT.REACT = w.react % 32 ∧ t.get pGUTTER GUTTER.FF_SLOT.SLOT = s.slotNo % 2 ^ 64 ∧ t.irqSet pGUTTER 1 = true ∧
        t.get pGUTTER (GUTTER.SOURCE_COUNT.COUNT w.source) = min (s.get pGUTTER (GUTTER.SOURCE_COUNT.COUNT w.source) + 1) (2 ^ 32 - 1) ∧
        (bitOf w.react 4 = true → t.gutter.safe = true) ∧ KeepsMemory s t)) ∧
      (s.flag pGUTTER GUTTER.FF_INFO.VALID = true → Runs .faultCollect s (fun t =>
        t.rd pGUTTER GUTTER.FF_INFO.off = s.rd pGUTTER GUTTER.FF_INFO.off ∧ t.get pGUTTER GUTTER.FF_SLOT.SLOT = s.get pGUTTER GUTTER.FF_SLOT.SLOT ∧
        t.get pGUTTER GUTTER.FF_LATER.COUNT = min (s.get pGUTTER GUTTER.FF_LATER.COUNT +
          ((List.range 128).filter (fun k => s.sampled.any (fun e => e.source == k))).length) (2 ^ 32 - 1) ∧
        (bitOf w.react 4 = true → t.gutter.safe = true) ∧ KeepsMemory s t))) ∧
    (∀ e, e ∈ s.sampled → e.line = true → e.source < 128 → s.distributed = false → s.flag pGUTTER GUTTER.STATUS.SELF_FAULT = true →
      Runs .faultCollect s (fun t => bitOf (t.get pGUTTER GUTTER.LINE_FAULT_MAP.SOURCES) e.source = true ∧ t.irqSet pGUTTER 2 = true ∧
        KeepsRegs s t [(pGUTTER, GUTTER.LINE_FAULT_MAP.off), (pGUTTER, GUTTER.LINE_FAULT_MAP.off + 4), (pGUTTER, GUTTER.LINE_FAULT_MAP.off + 8),
          (pGUTTER, GUTTER.LINE_FAULT_MAP.off + 12), (pGUTTER, 0x018)] ∧ KeepsMemory s t)) ∧
    (∀ p : PairReading, s.power.good = true → s.distributed = false → (sourceSev p.source).isSome = true →
      Runs (.lineFault p) s (fun t => (p.source ∈ t.gutter.badPairs ↔ p.bad = true) ∧
        t.faultEvents = s.faultEvents ++ (if p.bad = true ∧ p.source ∉ s.gutter.badPairs then [⟨pGUTTER, 0, false, true, p.source, s.clk.slot⟩] else []) ∧
        KeepsRegs s t [] ∧ KeepsMemory s t)) ∧
    Runs .injectionHoldEnd s (fun t => (∀ i ∈ s.gutter.injections, i ∈ t.gutter.injections ↔ s.clk.slot ≤ i.until_) ∧ KeepsRegs s t [] ∧
      KeepsMemory s t)

/-- The faults of the die, its supplies and its management processor (R297, R311, R334): each sets its bit of DEV, once the supplies have been
good; a watchdog miss outside a restart begins one, which with a component on trial takes a trial boot or, with none left, becomes a
fallback; and a restart that stays for more than 5 s sets the same bit. The faults of the Gutter itself (R305, R306): a pair that does not
read as driven sets its bit, a corrected error of its storage is counted by its bit, and an uncorrectable one is a self-fault: the pair
shows it, and device safe state is entered; none of these while the core is held in reset. Where the spec leaves a point open the model's
choice is that of log 109. Rows for which it says that exec answers a next state: SUPPLY_OUT_OF_RANGE, DIE_HOT, DIE_CRITICAL, SCLK_MONITOR,
SRAM_UNCORR, MGMT_WATCHDOG_MISS, RESTART_TIMEOUT, PAIR_SENSE_FAULT, GUTTER_STORAGE_ECC. -/
def Obligations.DieFaults : Prop :=
  (∀ s : State, s.sound = true →
    (s.power.good = true →
      (∀ rail, rail < 5 → Runs (.supplyOutOfRange rail) s (fun t => t.errSet pDEV rail = true ∧ KeepsRegs s t [(pDEV, 0x024)] ∧
        KeepsMemory s t)) ∧
      Runs .dieHot s (fun t => t.errSet pDEV 5 = true ∧ KeepsRegs s t [(pDEV, 0x024)] ∧ KeepsMemory s t) ∧
      Runs .dieCritical s (fun t => t.errSet pDEV 6 = true ∧ KeepsRegs s t [(pDEV, 0x024)] ∧ KeepsMemory s t) ∧
      Runs .sclkMonitor s (fun t => t.errSet pDEV 7 = true ∧ KeepsRegs s t [(pDEV, 0x024)] ∧ KeepsMemory s t) ∧
      Runs .sramUncorr s (fun t => t.errSet pDEV 8 = true ∧ KeepsRegs s t [(pDEV, 0x024)] ∧ KeepsMemory s t)) ∧
    (s.flash.restart = none → s.stage ≠ 0 →
      (s.flash.trial = none ∨ s.get pFLASH FLASH.TRIAL_STATE.BOOTS_LEFT ≠ 0 → Runs .mgmtWatchdogMiss s (fun t => t.errSet pDEV 9 = true ∧
        t.flag pFLASH FLASH.STATUS.RESTARTING = true ∧ t.flash.restart = some (s.clk.slot, .watchdog) ∧
        t.get pFLASH FLASH.RESTARTS.COUNT = (s.get pFLASH FLASH.RESTARTS.COUNT + 1) % 2 ^ 32 ∧
        t.get pFLASH FLASH.TRIAL_STATE.BOOTS_LEFT = s.get pFLASH FLASH.TRIAL_STATE.BOOTS_LEFT - b2n s.flash.trial.isSome ∧
        KeepsRegs s t [(pDEV, 0x024), (pFLASH, 0x010), (pFLASH, FLASH.RESTARTS.off), (pFLASH, FLASH.TRIAL_STATE.off)] ∧ KeepsMemory s t)) ∧
      (s.flash.trial.isSome = true → s.get pFLASH FLASH.TRIAL_STATE.BOOTS_LEFT = 0 → Runs .mgmtWatchdogMiss s (fun t => t.errSet pDEV 9 = true ∧
        t.flash.restart = some (s.clk.slot, .fallback 3) ∧ t.flash.copy = none ∧ KeepsMemory s t))) ∧
    ((s.flash.restart.isSome = true ∨ s.stage = 0) → Runs .mgmtWatchdogMiss s (fun t => t = s)) ∧
    (s.restartLate = true → Runs .restartTimeout s (fun t => t.errSet pDEV 9 = true ∧ t.restartLate = false ∧ KeepsRegs s t [(pDEV, 0x024)] ∧ KeepsMemory s t))) ∧
  (∀ s : State, s.sound = true →
    (s.stage ≠ 0 → Runs .pairSenseFault s (fun t => t.errSet pGUTTER 1 = true ∧ KeepsRegs s t [(pGUTTER, 0x024)] ∧ KeepsMemory s t)) ∧
    (∀ u, s.power.good = false → Runs (.gutterStorageEcc u) s (fun t => t = s)) ∧
    (s.power.good = true → Runs (.gutterStorageEcc false) s (fun t => t.errSet pGUTTER 0 = true ∧ KeepsRegs s t [(pGUTTER, 0x024)] ∧
      KeepsMemory s t)) ∧
    (s.power.good = true → Runs (.gutterStorageEcc true) s (fun t => t.flag pGUTTER GUTTER.STATUS.SELF_FAULT = true ∧ t.flag pGUTTER GUTTER.STATUS.PAIR_FAULT = true ∧
      t.irqSet pGUTTER 3 = true ∧ t.gutter.safe = true ∧ (s.stage ≠ 0 → t.pair = some (false, true)) ∧
      (s.gutter.safe = false → t.rd pGUTTER GUTTER.SAFE_CAUSE.off = BitVec.ofNat 32 (2 ^ 31 + 2 ^ 30)) ∧ KeepsMemory s t)))

/-- The commands of the Gutter (R301, R302, R304, R305, R307): an injection sets its bits or raises its source, CLEAR_PAIR releases the pair,
ENTER_SAFE enters device safe state and SAFE_EXIT leaves it, REINIT restores the defaults, and a write of FF_INFO empties the first-fault
record. Where the spec leaves a point open the model's choice is that of log 27, 69 and 109. Rows for which it says that exec answers a next
state: ERR_INJECT, INJECT, CLEAR_PAIR, ENTER_SAFE, DEVICE_SAFE_EXIT, REINIT, FIRST_FAULT_CLEAR. -/
def Obligations.FaultCommands : Prop :=
  ∀ s : State, s.sound = true → ∀ path : Path,
    (∀ page v x, pageBlock page = some x → (s.distributed = true ∨ s.flag pGUTTER GUTTER.GUT_CFG.INJ_ENABLE = true) →
      Accepts (.errInject path page v) s path page 0x028 v (fun t =>
        t.rd page 0x024 = BitVec.ofNat 32 (Nat.lor (s.rd page 0x024).toNat (Nat.land v (errMask x.1))) ∧
        KeepsRegs s t [(page, 0x024), (page, 0x02C)] ∧ KeepsMemory s t)) ∧
    (∀ k line, s.distributed = false → s.flag pGUTTER GUTTER.GUT_CFG.INJ_ENABLE = true → (sourceSev k).isSome = true →
      Accepts (.inject path k line) s path pGUTTER GUTTER.GUTTER_CMD.off (packRec [(30, 1, b2n line), (16, 7, k), (0, 8, 4)]) (fun t =>
        (∃ e, t.faultEvents = s.faultEvents ++ [e] ∧ e.source = k ∧ e.injected = true ∧ e.line = line) ∧
        (∃ i, t.gutter.injections = s.gutter.injections ++ [i] ∧ i.source = k ∧
          s.clk.slot + s.get pGUTTER GUTTER.GUT_CFG.INJ_HOLD ≤ i.until_) ∧
        KeepsRegs s t [(pGUTTER, GUTTER.GUTTER_CMD.off), (pGUTTER, 0x02C)] ∧ KeepsMemory s t)) ∧
    (s.distributed = false → s.gutter.safe = false → (∀ k ∈ s.activeSources, s.severity k < 2) →
      Accepts (.clearPair path) s path pGUTTER GUTTER.GUTTER_CMD.off 1 (fun t => t.flag pGUTTER GUTTER.STATUS.PAIR_FAULT = false ∧
        (s.stage ≠ 0 → t.pair = some (true, false)) ∧
        KeepsRegs s t [(pGUTTER, 0x010), (pGUTTER, GUTTER.GUTTER_CMD.off), (pGUTTER, 0x02C)] ∧ KeepsMemory s t)) ∧
    (s.gutter.safe = false → Accepts (.enterSafe path) s path pGUTTER GUTTER.GUTTER_CMD.off 2 (fun t => t.gutter.safe = true ∧
      t.rd pGUTTER GUTTER.SAFE_CAUSE.off = BitVec.ofNat 32 (2 ^ 31 + 2 ^ 29) ∧ (s.stage ≠ 0 → t.pair = some (false, true)) ∧
      (∀ c, c < 48 → .device ∈ (t.chan c).safe) ∧ (∀ n, n < 8 → .device ∈ (t.aux n).safe) ∧ KeepsMemory s t)) ∧
    (s.gutter.safe = true → bitOf (s.rd pGUTTER GUTTER.SAFE_CAUSE.off).toNat 29 = true → s.flag pGUTTER GUTTER.STATUS.SELF_FAULT = false →
      (∀ k ∈ s.activeSources, s.severity k ≠ 3) →
      Accepts (.deviceSafeExit path) s path pGUTTER 0x014 (s.controlWith pGUTTER 30) (fun t => t.gutter.safe = false ∧
        t.flag pGUTTER GUTTER.STATUS.PAIR_FAULT = s.flag pGUTTER GUTTER.STATUS.PAIR_FAULT ∧ KeepsRegs s t [(pGUTTER, 0x02C)] ∧
        KeepsMemory s t)) ∧
    (s.distributed = false → Accepts (.reinit path) s path pGUTTER GUTTER.GUTTER_CMD.off 3 (fun t =>
      t.flag pGUTTER GUTTER.STATUS.SELF_FAULT = false ∧ t.flag pGUTTER GUTTER.FF_INFO.VALID = false ∧
      t.get pGUTTER GUTTER.FAULT_EVENTS.COUNT = 0 ∧ (∀ k, k < 128 → t.get pGUTTER (GUTTER.SOURCE_COUNT.COUNT k) = 0) ∧
      t.flag pGUTTER GUTTER.STATUS.PAIR_FAULT = s.flag pGUTTER GUTTER.STATUS.PAIR_FAULT ∧ t.gutter.safe = s.gutter.safe ∧
      KeepsPages s t [pGUTTER] ∧ KeepsMemory s t)) ∧
    Accepts (.firstFaultClear path) s path pGUTTER GUTTER.FF_INFO.off (2 ^ 31) (fun t => t.flag pGUTTER GUTTER.FF_INFO.VALID = false ∧
      t.get pGUTTER GUTTER.FF_LATER.COUNT = 0 ∧ t.get pGUTTER GUTTER.FF_SIMUL.SOURCES = 0 ∧ KeepsPages s t [pGUTTER] ∧ KeepsMemory s t)

/-! ### Supplies, resets and stages (chapter 14) -/

/-- Resets and the climb through the stages (R311 to R316, R324): a reset of the core leaves what R313 says survives, every other register at
its reset value, BAR2 without a byte and the pins released; supplies that are good start the clock with the straps sampled; each stage is
entered when due, the endpoint trains its link, and the JTAG port shifts nothing out below Stage 1. Where the spec leaves a point open the
model's choice is that of log 8, 32, 70, 103, 104, 108 and 110. Rows for which it says that exec answers a next state:
SUPPLY_BELOW_THRESHOLD, RESET_N_LOW, SUPPLIES_GOOD, DEVICE_RESET, STAGE1_ENTRY, STAGE2_ENTRY, STAGE3_ENTRY, PCIE_LINK_TRAINING,
BOUNDARY_SCAN. -/
def Obligations.ResetsAndStages : Prop :=
  ∀ s : State, s.sound = true →
    (∀ rail, Runs (.supplyBelowThreshold rail) s (fun t => t.stage = 0 ∧ t.power.good = false ∧ t.flag pDEV DEV.RESET_CAUSE.SUPPLY = true ∧
      t.bar2 = [] ∧ t.out = .pinsReleased :: s.out ∧
      (∀ p o, o < 4096 → survives p o = true → (p, o) ≠ (pDEV, DEV.RESET_CAUSE.off) → (p, o) ≠ (pEAVE, 0x010) → t.rd p o = s.rd p o) ∧
      (∀ p o, o < 4096 → survives p o = false → (p, o) ≠ (pGUTTER, 0x010) → t.rd p o = State.reset.rd p o))) ∧
    Runs .resetNLow s (fun t => t.stage = 0 ∧ t.power.good = false ∧ t.flag pDEV DEV.RESET_CAUSE.RESET_PIN = true ∧ t.bar2 = [] ∧
      t.out = .pinsReleased :: s.out ∧
      (∀ p o, o < 4096 → survives p o = true → (p, o) ≠ (pDEV, DEV.RESET_CAUSE.off) → (p, o) ≠ (pEAVE, 0x010) → t.rd p o = s.rd p o) ∧
      (∀ p o, o < 4096 → survives p o = false → (p, o) ≠ (pGUTTER, 0x010) → t.rd p o = State.reset.rd p o)) ∧
    (∀ straps, s.power.good = false → Runs (.suppliesGood straps) s (fun t => t.power.good = true ∧ t.clk = {} ∧
      t.power.recovery = straps.bootRec ∧
      (s.power.low = true → t.flag pDEV DEV.RESET_CAUSE.SUPPLY = true) ∧ t.flag pDEV DEV.STATUS.FAULT_MODE = straps.faultMode ∧
      t.flag pDEV DEV.STATUS.HOST_SEL = straps.hostSel ∧ t.flag pDEV DEV.STATUS.BOOT_REC = straps.bootRec ∧
      t.distributed = (straps.faultMode && !s.flag pGUTTER GUTTER.STATUS.OTP_COLLECTED) ∧ t.get pXO XO.STATUS.OVEN = 1 ∧
      KeepsPages s t [pDEV, pGUTTER, pXO] ∧ KeepsMemory s t)) ∧
    (∀ path, s.adminOf path = true → s.power.resetAt = none →
      Accepts (.deviceReset path) s path pDEV DEV.RESET_CMD.off 1 (fun t => t.power.resetAt = some (s.clk.slot + 200) ∧
        KeepsRegs s t [(pDEV, DEV.RESET_CMD.off), (pDEV, 0x02C)] ∧ KeepsMemory s t)) ∧
    (∀ b, s.stage1Due = true → Runs (.stage1Entry b) s (fun t => t.stage = 1 ∧ t.irqSet pDEV 0 = true ∧
      t.flag pEAVE EAVE.STATUS.MAIN_ON = true ∧ t.flag pFLASH FLASH.STATUS.RECOVERY = (s.power.recovery || !b.images) ∧
      t.power.calOk = b.calOk ∧ KeepsMemory s t)) ∧
    (s.stage2Due = true → Runs .stage2Entry s (fun t => t.stage = 2 ∧ t.irqSet pDEV 0 = true ∧
      bitOf t.stageHold 0 = false ∧ (∀ q, q < 12 → t.flag (pQUAD q) QUAD.STATUS.COARSE = true) ∧ KeepsMemory s t)) ∧
    (s.stage3Due = true → Runs .stage3Entry s (fun t => 3 ≤ t.stage ∧ t.irqSet pDEV 0 = true ∧ KeepsMemory s t)) ∧
    (s.linkDue = true → Runs .pcieLinkTraining s (fun t => t.host.linkUp = true ∧ t.host.perst = false ∧ KeepsRegs s t [] ∧
      KeepsMemory s t)) ∧
    (∀ ir, s.stage = 0 → Runs (.boundaryScan ir) s (fun t => t = s)) ∧
    (s.stage ≠ 0 → Runs (.boundaryScan 1) s (fun t => t.out = .jtag 0xB0748F3B :: s.out ∧ KeepsRegs s t [] ∧ KeepsMemory s t)) ∧
    (∀ ir, s.stage ≠ 0 → ir ≠ 1 → Runs (.boundaryScan ir) s (fun t =>
      (∃ w, t.out = .jtag w :: .scan (s.stage == 1 && s.flag pDEV DEV.STATUS.BOOT_REC) :: s.out) ∧ KeepsRegs s t [] ∧ KeepsMemory s t))

/-! ### Firmware updates (chapter 15) -/

/-- A download (R330, R347): BEGIN opens STAGING, WRITE_WINDOW and DMA_WRITE put bytes where it stands, FINISH ends it READY, ABORT empties it,
and a DMA error takes it back to the last whole block of 64 KiB that was written by then. Where the spec leaves a point open the model's
choice is that of log 30, 71 and 108. Rows for which it says that exec answers a next state: BEGIN, WRITE_WINDOW, DMA_WRITE, FINISH,
FL_ABORT, FLASH_DMA_ERROR. -/
def Obligations.Downloads : Prop :=
  ∀ s : State, s.sound = true → s.flash.restart = none → ∀ path : Path,
    (s.stagingState ≠ 3 → s.flash.copy = none → s.flRecovery = false →
      Accepts (.begin path) s path pFLASH FLASH.FL_CMD.off 1 (fun t => t.stagingState = 1 ∧ t.get pFLASH FLASH.DOWNLOAD_COUNT.BYTES = 0 ∧
        t.flash.staging = [] ∧ KeepsPages s t [pFLASH] ∧ KeepsMemory s t)) ∧
    (s.stagingState = 1 → s.flash.busyUntil ≤ s.clk.slot → s.flRecovery = false →
      (∀ o l, o = s.get pFLASH FLASH.FL_OFFSET.OFFSET → l = s.get pFLASH FLASH.FL_LENGTH.BYTES →
        o = s.get pFLASH FLASH.DOWNLOAD_COUNT.BYTES → o + l ≤ 0x800000 →
        (4 ≤ l → l ≤ 512 → l % 4 = 0 →
          Accepts (.writeWindow path) s path pFLASH FLASH.FL_CMD.off 2 (fun t => t.get pFLASH FLASH.DOWNLOAD_COUNT.BYTES = o + l ∧
            (∀ k, k < l → t.stagedByte (o + k) = bitsOf (s.get pFLASH (FLASH.DATA_WINDOW.WORD (k / 4))) (8 * (k % 4) + 7) (8 * (k % 4))) ∧
            (∀ a, a < o ∨ o + l ≤ a → t.stagedByte a = s.stagedByte a) ∧ t.flash.busyUntil = s.clk.slot + flashTime l ∧
            KeepsRegs s t [(pFLASH, FLASH.DOWNLOAD_COUNT.off), (pFLASH, FLASH.FL_CMD.off), (pFLASH, 0x02C)] ∧ KeepsMemory s t)) ∧
        (∀ bytes, bytes.length = l → 0 < l → l % 64 = 0 → s.get pFLASH FLASH.FL_HOST_ADDR.ADDR % 64 = 0 → s.hostSpi = false →
          Accepts (.dmaWrite path bytes) s path pFLASH FLASH.FL_CMD.off 3 (fun t => t.get pFLASH FLASH.DOWNLOAD_COUNT.BYTES = o + l ∧
            (∀ k, k < l → t.stagedByte (o + k) = bytes.getD k 0) ∧ (∀ a, a < o ∨ o + l ≤ a → t.stagedByte a = s.stagedByte a) ∧
            KeepsRegs s t [(pFLASH, FLASH.DOWNLOAD_COUNT.off), (pFLASH, FLASH.FL_CMD.off), (pFLASH, 0x02C)] ∧ KeepsMemory s t))) ∧
      (∀ v, s.finishOk = true →
        Accepts (.finish path v) s path pFLASH FLASH.FL_CMD.off 4 (fun t => t.stagingState = 2 ∧ t.flash.checked = v ∧ t.irqSet pFLASH 0 = true ∧
          t.flash.staging = s.flash.staging ∧ KeepsPages s t [pFLASH] ∧ KeepsMemory s t))) ∧
    (s.stagingState ≠ 3 → s.flash.copy = none →
      Accepts (.flAbort path) s path pFLASH FLASH.FL_CMD.off 9 (fun t => t.stagingState = 0 ∧ t.flash.staging = [] ∧
        t.get pFLASH FLASH.DOWNLOAD_COUNT.BYTES = 0 ∧
        KeepsRegs s t [(pFLASH, 0x010), (pFLASH, FLASH.DOWNLOAD_COUNT.off), (pFLASH, FLASH.FL_CMD.off), (pFLASH, 0x02C)] ∧ KeepsMemory s t)) ∧
    (∀ since from_, s.flash.dma = some (since, from_) → s.clk.slot < s.flash.busyUntil → Runs .flashDmaError s (fun t =>
      t.get pFLASH FLASH.DOWNLOAD_COUNT.BYTES = (from_ + (s.clk.slot - since) * 262144 / 200000000) / 65536 * 65536 % 2 ^ 32 ∧
      t.irqSet pFLASH 5 = true ∧ t.flash.busyUntil = s.clk.slot ∧ t.flash.dma = none ∧
      KeepsRegs s t [(pFLASH, FLASH.DOWNLOAD_COUNT.off), (pFLASH, 0x018)] ∧ KeepsMemory s t))

/-- Activation and its commands (R331 to R333, R341, R342, R346, R348, R349): ACTIVATE restarts the management processor, ACTIVATE_AT_RESET
marks the candidate, CONFIRM ends a healthy trial and REVERT a trial by its fallback; a manifest is loaded and cleared, the log is read, a
key is installed, and an owner is enrolled. Where the spec leaves a point open the model's choice is that of log 30, 31, 73 and 108. Rows
for which it says that exec answers a next state: ACTIVATE, ACTIVATE_AT_RESET, CONFIRM, REVERT, LOAD_MANIFEST, CLEAR_MANIFEST, READ_LOG,
INSTALL_KEY, OWNER_ENROLL. -/
def Obligations.UpdateCommands : Prop :=
  ∀ s : State, s.sound = true → s.flash.restart = none → ∀ path : Path,
    (s.activation false = none →
      Accepts (.activate path) s path pFLASH FLASH.FL_CMD.off 5 (fun t => t.stagingState = 3 ∧ t.flag pFLASH FLASH.STATUS.RESTARTING = true ∧
        t.flash.restart = some (s.clk.slot, .activate) ∧ t.flash.handover = some s.handoverNow ∧ t.get pFLASH FLASH.RESTARTS.COUNT = (s.get pFLASH FLASH.RESTARTS.COUNT + 1) % 2 ^ 32 ∧
        KeepsRegs s t [(pFLASH, 0x010), (pFLASH, FLASH.RESTARTS.off), (pFLASH, FLASH.FL_CMD.off), (pFLASH, 0x02C)] ∧ KeepsMemory s t)) ∧
    (s.activation true = none →
      Accepts (.activateAtReset path) s path pFLASH FLASH.FL_CMD.off 6 (fun t => t.flash.marked = true ∧
        KeepsRegs s t [(pFLASH, FLASH.FL_CMD.off), (pFLASH, 0x02C)] ∧ KeepsMemory s t)) ∧
    (∀ x, s.flash.trial = some x →
      (s.flag pFLASH FLASH.TRIAL_STATE.HEALTHY = true → s.flRecovery = false → (s.activeImage x.component).isSome = true →
        Accepts (.confirm path) s path pFLASH FLASH.FL_CMD.off 7 (fun t => t.flash.trial = none ∧ t.flag pFLASH FLASH.STATUS.TRIAL = false ∧
          t.irqSet pFLASH 3 = true ∧ t.get pFLASH FLASH.LAST_OUTCOME.REASON = 1 ∧ KeepsPages s t [pFLASH] ∧ KeepsMemory s t)) ∧
      Accepts (.revert path) s path pFLASH FLASH.FL_CMD.off 8 (fun t => t.flag pFLASH FLASH.STATUS.RESTARTING = true ∧
        t.flash.restart = some (s.clk.slot, .fallback 5) ∧ t.flash.copy = none ∧
        KeepsRegs s t [(pFLASH, 0x010), (pFLASH, FLASH.RESTARTS.off), (pFLASH, FLASH.FL_CMD.off), (pFLASH, 0x02C)] ∧ KeepsMemory s t)) ∧
    (∀ l, s.flRecovery = false → s.stagingState = 2 → s.stagedHdr.component = 6 → s.stagedVerify = true →
      manifestOf s.flash.checked.words = some l →
      Accepts (.loadManifest path) s path pFLASH FLASH.FL_CMD.off 10 (fun t => t.flash.manifest = l ∧
        t.flag pFLASH FLASH.STATUS.MANIFEST_ACTIVE = true ∧ t.get pFLASH FLASH.MANIFEST_STATE.NEXT_INDEX = 0 ∧
        t.get pFLASH FLASH.MANIFEST_STATE.ENTRIES = l.length ∧ t.stagingState = 0 ∧ KeepsPages s t [pFLASH] ∧ KeepsMemory s t)) ∧
    Accepts (.clearManifest path) s path pFLASH FLASH.FL_CMD.off 11 (fun t => t.flash.manifest = [] ∧
      t.flag pFLASH FLASH.STATUS.MANIFEST_ACTIVE = false ∧ t.rd pFLASH FLASH.MANIFEST_STATE.off = 0 ∧ KeepsPages s t [pFLASH] ∧
      KeepsMemory s t) ∧
    (s.get pFLASH FLASH.FL_OFFSET.OFFSET < 24576 →
      Accepts (.readLog path) s path pFLASH FLASH.FL_CMD.off 12 (fun t => (∀ k, k < 128 → t.get pFLASH (FLASH.DATA_WINDOW.WORD k) =
          bitsOf (sparseGet (fun _ => 2 ^ 256 - 1) s.flash.log ((s.get pFLASH FLASH.FL_OFFSET.OFFSET + k / 8) % 24576)) (32 * (k % 8) + 31)
            (32 * (k % 8))) ∧ KeepsPages s t [pFLASH] ∧ KeepsMemory s t)) ∧
    (s.flRecovery = false → s.stagingState = 2 → s.stagedHdr.component = 7 → s.enrolled = true → s.stagedVerify = true →
      s.flag pFLASH FLASH.STATUS.REDUCED = false →
      Accepts (.installKey path) s path pFLASH FLASH.FL_CMD.off 13 (fun t => t.stagingState = 0 ∧
        (bitOf (s.flash.checked.words.getD 0 0) 8 = false → t.flash.settings.keyA = (if bitsOf (s.flash.checked.words.getD 0 0) 7 0 = 0 then none
          else some (bitsOf (s.flash.checked.words.getD 0 0) 7 0, leNat 32 ((s.flash.checked.words.drop 1).take 8))) ∧
          t.flash.settings.keyB = s.flash.settings.keyB) ∧ KeepsPages s t [pFLASH, pRDG 0] ∧ KeepsMemory s t)) ∧
    (∀ k, path = .bar0 k → s.adminOf path = true → s.enrolled = false → s.flash.trial = none →
      (∀ i, i < 5 → (s.activeImage (i + 1)).elim true (fun h => h.ownerSigned &&
        h.owner == leNat 32 ((List.range 12).map (fun k => s.get pFLASH (FLASH.DATA_WINDOW.WORD k)))) = true) →
      Accepts (.ownerEnroll path) s path pFLASH FLASH.FL_CMD.off 14 (fun t => t.enrolled = true ∧ t.flash.ownerKey =
          some (leNat 32 ((List.range 12).map (fun k => s.get pFLASH (FLASH.DATA_WINDOW.WORD k)))) ∧ KeepsPages s t [pFLASH] ∧ KeepsMemory s t))

/-- Trials (R334 to R342): at the restart the LOADER's finding starts the candidate's trial with its copy, or ends in VERIFY_FAIL, and a
handover area found bad ends a request with BUSY; a block copied is journaled, a verified copy becomes the active slot, a unit swaps its
bank at its boundary, a healthy trial is shown or confirmed, and one whose window ends falls back. Where the spec leaves a point open the
model's choice is that of log 74 and 108. Rows for which it says that exec answers a next state: MGMT_RESTART_DONE, COPY_BLOCK_DONE,
COPY_DONE, MICROCODE_BANK_SWAP, TRIAL_HEALTHY, TRIAL_WINDOW_EXPIRY. -/
def Obligations.Trials : Prop :=
  ∀ s : State, s.sound = true →
    (∀ since, s.flash.restart = some (since, .activate) → s.flash.copyEnd = none →
      (s.flash.verified = none → s.stagedVerify = true → s.failsFor s.stagedHdr false = [] → s.flash.checked.handover = true →
        Runs .mgmtRestartDone s (fun t => t.flash.restart = none ∧
          t.flag pFLASH FLASH.STATUS.RESTARTING = false ∧ t.flag pFLASH FLASH.STATUS.TRIAL = true ∧ t.flag pFLASH FLASH.STATUS.COPYING = true ∧
          (∃ x, t.flash.trial = some x ∧ x.component = s.stagedHdr.component ∧ x.prev = s.activeSlot s.stagedHdr.component ∧ x.copied = false) ∧
          t.flash.copy = some (s.stagedHdr.component, 0, false) ∧ t.flash.swaps = unitsOf s.stagedHdr.component ∧ t.irqSet pFLASH 1 = true ∧
          KeepsMemory s t)) ∧
      (s.flash.verified = some true → s.flash.checked.handover = true → Runs .mgmtRestartDone s (fun t => t.flash.restart = none ∧
        t.flag pFLASH FLASH.STATUS.TRIAL = true ∧ t.flash.copy = s.flash.copy ∧ t.flash.journal = s.flash.journal ∧
        (∃ x, t.flash.trial = some x ∧ x.component = s.stagedHdr.component ∧ x.copied = false) ∧ t.irqSet pFLASH 1 = true ∧ KeepsMemory s t)) ∧
      (s.flash.verified = some false ∨ (s.flash.verified = none ∧ s.stagedVerify = false) → s.flash.checked.handover = true →
        Runs .mgmtRestartDone s (fun t => t.flash.restart = none ∧ t.flash.trial = s.flash.trial ∧ t.stagingState = 0 ∧
          t.errSet pFLASH 0 = true ∧ t.get pFLASH FLASH.LAST_OUTCOME.REASON = 6 ∧ t.irqSet pFLASH 1 = true ∧ KeepsPages s t [pFLASH] ∧
          KeepsMemory s t)) ∧
      (s.flash.checked.handover = false → Runs .mgmtRestartDone s (fun t => t.errSet pFLASH 0 = true ∧ t.ridge.request = none ∧
        t.ridge.highest = none ∧ t.flash.handover = none ∧
        (s.ridge.request.isSome = true → t.get (pRDG 0) RDG.MGMT_RESP.RESULT = 7 ∧ t.flag (pRDG 0) RDG.MGMT_RESP.DONE = true)))) ∧
    (∀ c done retried, s.flash.copy = some (c, done, retried) →
      (done < s.get pFLASH FLASH.COPY_STATE.BLOCKS_TOTAL →
        Runs (.copyBlockDone true) s (fun t => t.flash.copy = some (c, done + 1, false) ∧
          t.flash.journal = s.flash.journal ++ [(done, fcs (s.blockBytes done))] ∧
          t.get pFLASH FLASH.COPY_STATE.BLOCKS_DONE = (done + 1) % 65536 ∧ KeepsRegs s t [(pFLASH, FLASH.COPY_STATE.off)] ∧ KeepsMemory s t) ∧
        (retried = false → Runs (.copyBlockDone false) s (fun t => t.flash.copy = some (c, done, true) ∧ KeepsRegs s t [] ∧ KeepsMemory s t)) ∧
        (retried = true → Runs (.copyBlockDone false) s (fun t => t.flash.copy = none ∧ t.errSet pFLASH 1 = true ∧
          t.flag pFLASH FLASH.STATUS.COPYING = false ∧ (s.flash.trial.isSome = true → t.flash.restart = some (s.clk.slot, .fallback 6)) ∧
          (s.flash.trial = none → t.flash.copyEnd = some false) ∧ KeepsPages s t [pFLASH] ∧ KeepsMemory s t))) ∧
      (s.get pFLASH FLASH.COPY_STATE.BLOCKS_TOTAL ≤ done →
        (s.flash.trial.isSome = true → 1 ≤ c → c ≤ 5 → s.flash.slots.length = 5 → s.flash.active.length = 5 → s.activeSlot c ≤ 1 →
          Runs (.copyDone true) s (fun t => t.flash.copy = none ∧ t.flag pFLASH FLASH.STATUS.COPYING = false ∧ t.irqSet pFLASH 2 = true ∧
            t.activeSlot c = 1 - s.activeSlot c ∧ t.activeImage c = some s.stagedHdr ∧ t.stagingState = 0 ∧
            (c = 5 → s.get pFLASH FLASH.TRIAL_STATE.BOOTS_LEFT ≠ 0 → t.flash.restart = some (s.clk.slot, .loaderTrial)) ∧ KeepsPages s t [pFLASH] ∧
            KeepsMemory s t)) ∧
        (s.flash.trial = none → Runs (.copyDone true) s (fun t => t.flash.copyEnd = some true ∧ t.flash.copy = s.flash.copy ∧ KeepsRegs s t [] ∧
          KeepsMemory s t)) ∧
        (s.flash.trial.isSome = true → Runs (.copyDone false) s (fun t => t.flash.copy = none ∧ t.flash.restart = some (s.clk.slot, .fallback 6) ∧
          t.flag pFLASH FLASH.STATUS.RESTARTING = true ∧ KeepsRegs s t [(pFLASH, 0x010), (pFLASH, FLASH.RESTARTS.off)] ∧
          KeepsMemory s t)))) ∧
    (∀ u, (u ∉ s.flash.swaps ∨ s.bankReady u = false) → Runs (.microcodeBankSwap u) s (fun t => t = s)) ∧
    (∀ u, u ∈ s.flash.swaps → s.bankReady u = true → s.flash.banks.length = 9 → bankIndex u < 9 → Runs (.microcodeBankSwap u) s (fun t =>
      t.flash.banks.getD (bankIndex u) 0 = 1 - s.flash.banks.getD (bankIndex u) 0 ∧ u ∉ t.flash.swaps ∧
      (∀ x, s.flash.trial = some x → u ∈ unitsOf x.component → ∃ y, t.flash.trial = some y ∧ y.units = x.units ++ [u] ∧ y.component = x.component ∧
        y.copied = x.copied ∧ y.swapped = decide (x.units.length + 1 = (unitsOf x.component).length)) ∧ KeepsRegs s t [] ∧ KeepsMemory s t)) ∧
    (∀ x : Trial, s.flash.trial = some x →
      (s.healthyNow x = true → s.flag pFLASH FLASH.FL_CONFIG.CONFIRM_POLICY = true → Runs .trialHealthy s (fun t =>
        t.flag pFLASH FLASH.TRIAL_STATE.HEALTHY = true ∧ t.flash.trial = some x ∧ KeepsRegs s t [(pFLASH, FLASH.TRIAL_STATE.off)] ∧
        KeepsMemory s t)) ∧
      (s.windowDue = true → Runs .trialWindowExpiry s (fun t =>
        t.flash.restart = some (s.clk.slot, .fallback (if x.component = 1 ∧ x.migrated = false then 4 else 2)) ∧
        t.flag pFLASH FLASH.STATUS.RESTARTING = true ∧ KeepsRegs s t [(pFLASH, 0x010), (pFLASH, FLASH.RESTARTS.off)] ∧ KeepsMemory s t)))

/-! ### Rules stated whole, and of the whole machine -/

/-- Of all the commands of the table, only a step, the seeding, a reset and the start of the supplies move the Device Timescale: every other
command that answers a next state leaves the instant of the present edge as it is. -/
def Obligations.OnlyStepsMoveTheTimescale : Prop :=
  ∀ (c : Instr) (s t : State), exec c s = .next t → c ≠ .timescaleStep → c ≠ .timescaleSeed → c ≠ .resetNLow →
    (∀ rail, c ≠ .supplyBelowThreshold rail) → (∀ straps, c ≠ .suppliesGood straps) → t.now32 = s.now32

/-- Assertion of PERST_N, or entry to D3hot (R31): the endpoint is blocked and every enabled ring of HOSTQ stops with its indices as they were.
Pages, ownership, leases, armed commit groups and the timing datapath are unaffected; the rings of the Ethernet ports stop with them, and a
flash transfer by DMA ends. Rows for which it says that exec answers a next state: PERST_N_ASSERT, D3HOT_ENTRY. -/
def Obligations.EndpointStops : Prop :=
  ∀ s : State, s.sound = true → ∀ c : Instr, (c = .perstNAssert ∨ c = .d3hotEntry) →
    Completes c s (fun t => t.pcieUp = false ∧
      (∀ r, r < 32 → (s.ringOn r = true → t.ringStopped r = true) ∧ t.ringOn r = s.ringOn r ∧
        t.get pHOSTQ (HOSTQ.DEV_IDX.DEV_IDX r) = s.get pHOSTQ (HOSTQ.DEV_IDX.DEV_IDX r) ∧
        t.get pHOSTQ (HOSTQ.DOORBELL.HOST_IDX r) = s.get pHOSTQ (HOSTQ.DOORBELL.HOST_IDX r)) ∧
      KeepsPages s t [pHOSTQ, pETH 0, pETH 1, pFLASH] ∧ (s.flash.dma = none → KeepsPages s t [pHOSTQ, pETH 0, pETH 1] ∧ t.flash = s.flash) ∧
      t.host.leases = s.host.leases ∧ t.host.shadow = s.host.shadow ∧ t.host.goNext = s.host.goNext ∧ t.host.goGroup = s.host.goGroup ∧
      t.clk = s.clk ∧ t.quads = s.quads ∧ t.chans = s.chans ∧ t.lines = s.lines ∧ t.seqs = s.seqs ∧ t.sched = s.sched ∧ t.phases = s.phases ∧
      t.tins = s.tins ∧ t.meas = s.meas ∧ t.servo = s.servo ∧ KeepsMemory s t)

/-- The steps that SERVO asks for (R218): STEP and STEP_PROPOSED are refused with STATE unless STEP_ENABLE is set, STEP_PROPOSED and
SLEW_PROPOSED unless STATUS.STEP_PROPOSED is set, a step of zero with RANGE; an accepted one takes effect at the next slot boundary, cancels
any slew, leaves the integrator unchanged, clears STEP_PROPOSED and raises STEP_DONE. Rows for which it says that exec answers a next state:
STEP, TIMESCALE_STEP. -/
def Obligations.StepsOfTheServo : Prop :=
  ∀ s : State, s.sound = true →
    (∀ path, s.passes path pSERVO SERVO.STEP_CMD.off 1 = true → (Instr.step path).wf = true →
      (s.flag pSERVO SERVO.STEP_CTL.STEP_ENABLE = false → Refuses (.step path) s pSERVO SERVO.STEP_CMD.off 3) ∧
      (s.flag pSERVO SERVO.STEP_CTL.STEP_ENABLE = true → s.getSpan pSERVO SERVO.STEP_SPAN.SPAN = 0 → Refuses (.step path) s pSERVO SERVO.STEP_CMD.off 2)) ∧
    (∀ path, s.passes path pSERVO SERVO.STEP_CMD.off 2 = true → (Instr.stepProposed path).wf = true →
      (s.flag pSERVO SERVO.STEP_CTL.STEP_ENABLE = false ∨ s.flag pSERVO SERVO.STATUS.STEP_PROPOSED = false →
        Refuses (.stepProposed path) s pSERVO SERVO.STEP_CMD.off 3) ∧
      (s.flag pSERVO SERVO.STEP_CTL.STEP_ENABLE = true → s.flag pSERVO SERVO.STATUS.STEP_PROPOSED = true →
        s.getSpan pSERVO SERVO.PROPOSED.SPAN = 0 → Refuses (.stepProposed path) s pSERVO SERVO.STEP_CMD.off 2)) ∧
    (∀ path, s.passes path pSERVO SERVO.STEP_CMD.off 3 = true → (Instr.slewProposed path).wf = true →
      s.flag pSERVO SERVO.STATUS.STEP_PROPOSED = false → Refuses (.slewProposed path) s pSERVO SERVO.STEP_CMD.off 3) ∧
    (∀ path, s.flag pSERVO SERVO.STEP_CTL.STEP_ENABLE = true → s.clk.stepNext = none → s.getSpan pSERVO SERVO.STEP_SPAN.SPAN ≠ 0 →
      0 ≤ s.now + s.getSpan pSERVO SERVO.STEP_SPAN.SPAN → s.now + s.getSpan pSERVO SERVO.STEP_SPAN.SPAN < instantLimit →
      Accepts (.step path) s path pSERVO SERVO.STEP_CMD.off 1 (fun t =>
        t.clk.stepNext = some ⟨s.clk.slot, s.getSpan pSERVO SERVO.STEP_SPAN.SPAN, none⟩ ∧ t.now32 = s.now32)) ∧
    (∀ r, s.clk.stepNext = some r → s.clk.seeded = true → r.slot < s.clk.slot → (r.adopts = none ∨ s.servoState = 0) → Runs .timescaleStep s (fun t =>
      t.now32 = s.now32 + r.d * fine ∧ t.flag pSERVO SERVO.STATUS.SLEWING = false ∧ t.servo.integ = s.servo.integ ∧
      t.flag pSERVO SERVO.STATUS.STEP_PROPOSED = false ∧ t.irqSet pSERVO 3 = true ∧ KeepsMemory s t))

/-- Confirmation of a trial (R341): with policy SELF at HEALTHY, with policy HOST by CONFIRM once HEALTHY is shown, and CONFIRM is refused with
STATE unless a component is on trial and HEALTHY. A confirmation clears the trial, raises the rollback counter, raises CONFIRMED and logs
it, and advances NEXT_INDEX of a manifest whose next entry the image is. Rows for which it says that exec answers a next state:
TRIAL_HEALTHY, CONFIRM. -/
def Obligations.Confirmation : Prop :=
  ∀ s : State, s.sound = true →
    (∀ path, s.passes path pFLASH FLASH.FL_CMD.off 7 = true → (Instr.confirm path).wf = true → s.flash.restart = none →
      s.flash.trial = none ∨ s.flag pFLASH FLASH.TRIAL_STATE.HEALTHY = false → Refuses (.confirm path) s pFLASH FLASH.FL_CMD.off 3) ∧
    (∀ (x : Trial) (h : ImageHdr), s.flash.trial = some x → s.activeImage x.component = some h → h.component = x.component → 1 ≤ x.component →
      x.component ≤ 5 → h.secVer ≤ 64 → s.flash.manifest.length ≤ 8 →
      (s.healthyNow x = true → s.flag pFLASH FLASH.FL_CONFIG.CONFIRM_POLICY = true → Runs .trialHealthy s (fun t =>
        t.flag pFLASH FLASH.TRIAL_STATE.HEALTHY = true ∧ t.flash.trial = some x)) ∧
      (s.healthyNow x = true → s.flag pFLASH FLASH.FL_CONFIG.CONFIRM_POLICY = false → Runs .trialHealthy s (fun t => Confirmed s t h)) ∧
      (∀ path, s.flash.restart = none → s.flag pFLASH FLASH.TRIAL_STATE.HEALTHY = true → s.flRecovery = false →
        Accepts (.confirm path) s path pFLASH FLASH.FL_CMD.off 7 (fun t => Confirmed s t h)))
end

