-- ==== Sys2Proof/Laws/Bits.lean ====
section
/-! SUPPORT. The laws of bit fields: what is put into a field reads back, and fields that do not overlap stand. -/

namespace Sys2Proof.Machine

theorem testBit_bitsOf (n hi lo i : Nat) : (bitsOf n hi lo).testBit i = (decide (i < hi + 1 - lo) && n.testBit (lo + i)) := by
  unfold bitsOf
  rw [Nat.testBit_mod_two_pow, Nat.testBit_div_two_pow, Nat.add_comm i lo]

theorem testBit_putBits (n hi lo v i : Nat) (h : lo ≤ hi) :
    (putBits n hi lo v).testBit i = if i < lo then n.testBit i else if i ≤ hi then v.testBit (i - lo) else n.testBit i := by
  have h1 : n % 2 ^ lo + 2 ^ lo * (v % 2 ^ (hi + 1 - lo)) = 2 ^ lo * (v % 2 ^ (hi + 1 - lo)) + n % 2 ^ lo := Nat.add_comm ..
  have hlt : n % 2 ^ lo + 2 ^ lo * (v % 2 ^ (hi + 1 - lo)) < 2 ^ (hi + 1) := by
    have ha : n % 2 ^ lo < 2 ^ lo := Nat.mod_lt _ (Nat.two_pow_pos _)
    have hb : v % 2 ^ (hi + 1 - lo) < 2 ^ (hi + 1 - lo) := Nat.mod_lt _ (Nat.two_pow_pos _)
    have hc : 2 ^ (hi + 1) = 2 ^ lo * 2 ^ (hi + 1 - lo) := by rw [← Nat.pow_add]; congr 1; omega
    rw [hc]
    calc n % 2 ^ lo + 2 ^ lo * (v % 2 ^ (hi + 1 - lo)) < 2 ^ lo + 2 ^ lo * (v % 2 ^ (hi + 1 - lo)) := by omega
      _ = 2 ^ lo * (v % 2 ^ (hi + 1 - lo) + 1) := by ring
      _ ≤ 2 ^ lo * 2 ^ (hi + 1 - lo) := Nat.mul_le_mul_left _ hb
  unfold putBits
  rw [Nat.add_comm _ (2 ^ (hi + 1) * _), Nat.testBit_two_pow_mul_add _ hlt, Nat.testBit_div_two_pow, h1,
    Nat.testBit_two_pow_mul_add _ (Nat.mod_lt _ (Nat.two_pow_pos _)), Nat.testBit_mod_two_pow, Nat.testBit_mod_two_pow]
  by_cases c1 : i < lo
  · simp [c1, show i < hi + 1 by omega]
  · by_cases c2 : i ≤ hi
    · simp [c1, c2, show i < hi + 1 by omega, show i - lo < hi + 1 - lo by omega]
    · simp only [c1, c2, show ¬ i < hi + 1 by omega, if_false]
      congr 1; omega

/-- What is put into a field reads back, cut to the field's width. -/
@[simp] theorem bitsOf_putBits_self (n hi lo v : Nat) (h : lo ≤ hi) : bitsOf (putBits n hi lo v) hi lo = v % 2 ^ (hi + 1 - lo) := by
  apply Nat.eq_of_testBit_eq
  intro i
  rw [testBit_bitsOf, testBit_putBits _ _ _ _ _ h, Nat.testBit_mod_two_pow]
  by_cases c : i < hi + 1 - lo
  · simp [c, show ¬ lo + i < lo by omega, show lo + i ≤ hi by omega]
  · simp [c]

/-- A field that does not overlap the one put stands. -/
theorem bitsOf_putBits_ne (n hi lo v a b : Nat) (h : lo ≤ hi) (hd : a < lo ∨ hi < b) :
    bitsOf (putBits n hi lo v) a b = bitsOf n a b := by
  apply Nat.eq_of_testBit_eq
  intro i
  rw [testBit_bitsOf, testBit_bitsOf, testBit_putBits _ _ _ _ _ h]
  by_cases c : i < a + 1 - b
  · rcases hd with hd | hd
    · simp [show b + i < lo by omega]
    · simp [show ¬ b + i < lo by omega, show ¬ b + i ≤ hi by omega]
  · simp [c]

/-- A field of a number's low word does not see the rest. -/
theorem bitsOf_mod (n hi lo w : Nat) (h : hi < w) : bitsOf (n % 2 ^ w) hi lo = bitsOf n hi lo := by
  apply Nat.eq_of_testBit_eq
  intro i
  rw [testBit_bitsOf, testBit_bitsOf, Nat.testBit_mod_two_pow]
  by_cases c : i < hi + 1 - lo
  · simp [show lo + i < w by omega]
  · simp [c]

theorem bitsOf_lt (n hi lo : Nat) : bitsOf n hi lo < 2 ^ (hi + 1 - lo) := Nat.mod_lt _ (Nat.two_pow_pos _)

theorem bitOf_eq_testBit (n k : Nat) : bitOf n k = n.testBit k := by
  simp [bitOf, Nat.testBit, Nat.shiftRight_eq_div_pow, Nat.one_and_eq_mod_two, Bool.beq_eq_decide_eq]

theorem setBit_eq_putBits (n k : Nat) : setBit n k = putBits n k k 1 := by
  have h1 : n % 2 ^ k + 2 ^ k * (n / 2 ^ k) = n := Nat.mod_add_div n (2 ^ k)
  have h2 : n / 2 ^ (k + 1) = n / 2 ^ k / 2 := by rw [Nat.pow_succ, Nat.div_div_eq_div_mul]
  have h3 : (2 : Nat) ^ (k + 1) = 2 ^ k * 2 := Nat.pow_succ ..
  have h4 : 2 * (n / 2 ^ k / 2) + n / 2 ^ k % 2 = n / 2 ^ k := Nat.div_add_mod ..
  have h5 : 2 ^ k * (n / 2 ^ k) = 2 ^ k * 2 * (n / 2 ^ k / 2) + 2 ^ k * (n / 2 ^ k % 2) := by
    conv_lhs => rw [← h4]
    ring
  unfold setBit putBits bitOf
  rw [h2, h3, show k + 1 - k = 1 by omega]
  rcases Nat.mod_two_eq_zero_or_one (n / 2 ^ k) with h | h <;> rw [h] at h5 ⊢ <;> simp <;> omega

theorem testBit_setBit (n k i : Nat) : (setBit n k).testBit i = (decide (i = k) || n.testBit i) := by
  rw [setBit_eq_putBits, testBit_putBits _ _ _ _ _ (Nat.le_refl k)]
  rcases Nat.lt_trichotomy i k with h | h | h
  · simp [h, Nat.ne_of_lt h]
  · simp [h]
  · simp [Nat.lt_asymm h, Nat.not_le_of_lt h, Nat.ne_of_gt h]

@[simp] theorem bitOf_setBit_self (n k : Nat) : bitOf (setBit n k) k = true := by
  rw [bitOf_eq_testBit, testBit_setBit]; simp

theorem bitOf_setBit_ne (n k i : Nat) (h : i ≠ k) : bitOf (setBit n k) i = bitOf n i := by
  rw [bitOf_eq_testBit, bitOf_eq_testBit, testBit_setBit]; simp [h]

end Sys2Proof.Machine
end

