-- ==== Sys2Proof/Laws/Sparse.lean ====
section
/-! SUPPORT. The laws of the sparse memories: what is written is read, other keys stand, and a write keeps the canonical
form. -/

namespace Sys2Proof.Machine

section
variable {α : Type} [DecidableEq α] {d : Nat → α}

theorem sparseGet_insert_self (m : List (Nat × α)) (k : Nat) (v : α) (h : ∀ e ∈ m, e.1 ≠ k) :
    sparseGet d (sparseInsert k v m) k = v := by
  induction m with
  | nil => simp [sparseInsert, sparseGet]
  | cons e m ih =>
    have he : e.1 ≠ k := h e (by simp)
    by_cases hk : k < e.1
    · simp [sparseInsert, sparseGet, hk]
    · simp [sparseInsert, sparseGet, hk, he, ih (fun x hx => h x (by simp [hx]))]

theorem sparseGet_insert_ne (m : List (Nat × α)) (k j : Nat) (v : α) (h : j ≠ k) :
    sparseGet d (sparseInsert k v m) j = sparseGet d m j := by
  induction m with
  | nil => simp [sparseInsert, sparseGet, Ne.symm h]
  | cons e m ih =>
    by_cases hk : k < e.1
    · simp [sparseInsert, sparseGet, hk, Ne.symm h]
    · simp [sparseInsert, sparseGet, hk, ih]

theorem sparseGet_filter_self (m : List (Nat × α)) (k : Nat) : sparseGet d (m.filter (fun e => e.1 ≠ k)) k = d k := by
  induction m with
  | nil => rfl
  | cons e m ih =>
    by_cases he : e.1 = k
    · simpa [he] using ih
    · simpa [he, sparseGet] using ih

theorem sparseGet_filter_ne (m : List (Nat × α)) (k j : Nat) (h : j ≠ k) :
    sparseGet d (m.filter (fun e => e.1 ≠ k)) j = sparseGet d m j := by
  induction m with
  | nil => rfl
  | cons e m ih =>
    by_cases he : e.1 = k
    · have hj : e.1 ≠ j := fun x => h (x ▸ he)
      simpa [he, sparseGet, Ne.symm h] using ih
    · by_cases hj : e.1 = j
      · simp [he, sparseGet, hj, h]
      · simpa [he, sparseGet, hj] using ih

/-- What is written at a key is read there. -/
@[simp] theorem sparseGet_set_self (m : List (Nat × α)) (k : Nat) (v : α) : sparseGet d (sparseSet d m k v) k = v := by
  unfold sparseSet
  split
  · rename_i h; rw [sparseGet_filter_self, h]
  · exact sparseGet_insert_self _ _ _ (by simp)

/-- A write leaves every other key alone. -/
theorem sparseGet_set_ne (m : List (Nat × α)) (k j : Nat) (v : α) (h : j ≠ k) :
    sparseGet d (sparseSet d m k v) j = sparseGet d m j := by
  unfold sparseSet
  split
  · exact sparseGet_filter_ne _ _ _ h
  · rw [sparseGet_insert_ne _ _ _ _ h, sparseGet_filter_ne _ _ _ h]

theorem mem_sparseInsert (m : List (Nat × α)) (k : Nat) (v : α) (x : Nat × α) :
    x ∈ sparseInsert k v m ↔ x = (k, v) ∨ x ∈ m := by
  induction m with
  | nil => simp [sparseInsert]
  | cons e m ih =>
    by_cases hk : k < e.1
    · simp [sparseInsert, hk]
    · simp only [sparseInsert, hk, if_false, List.mem_cons, ih]
      tauto

theorem sparseInsert_pairwise (m : List (Nat × α)) (k : Nat) (v : α) (h : ∀ e ∈ m, e.1 ≠ k)
    (hp : m.Pairwise (fun a b => a.1 < b.1)) : (sparseInsert k v m).Pairwise (fun a b => a.1 < b.1) := by
  induction m with
  | nil => simp [sparseInsert]
  | cons e m ih =>
    rw [List.pairwise_cons] at hp
    by_cases hk : k < e.1
    · simp only [sparseInsert, hk, if_true, List.pairwise_cons]
      refine ⟨fun x hx => ?_, hp⟩
      rcases List.mem_cons.1 hx with rfl | hx
      · exact hk
      · exact lt_trans hk (hp.1 x hx)
    · simp only [sparseInsert, hk, if_false, List.pairwise_cons]
      refine ⟨fun x hx => ?_, ih (fun x hx => h x (by simp [hx])) hp.2⟩
      rcases (mem_sparseInsert m k v x).1 hx with rfl | hx
      · have := h e (by simp)
        simp only
        omega
      · exact hp.1 x hx

/-- A write keeps the canonical form. -/
@[simp] theorem sparseWf_set (m : List (Nat × α)) (k : Nat) (v : α) (h : sparseWf d m = true) :
    sparseWf d (sparseSet d m k v) = true := by
  simp only [sparseWf, Bool.and_eq_true, decide_eq_true_eq, List.all_eq_true, Bool.not_eq_true', decide_eq_false_iff_not] at h ⊢
  have hf : (m.filter (fun e => e.1 ≠ k)).Pairwise (fun a b => a.1 < b.1) := h.1.filter _
  unfold sparseSet
  split
  · exact ⟨hf, fun x hx => h.2 x (List.mem_filter.1 hx).1⟩
  · rename_i hv
    refine ⟨sparseInsert_pairwise _ _ _ (by simp) hf, fun x hx => ?_⟩
    rcases (mem_sparseInsert _ k v x).1 hx with rfl | hx
    · exact hv
    · exact h.2 x (List.mem_filter.1 hx).1

/-- A key that a write brings in is the key written. -/
theorem mem_sparseSet (m : List (Nat × α)) (k : Nat) (v : α) (x : Nat × α) (h : x ∈ sparseSet d m k v) : x = (k, v) ∨ x ∈ m := by
  unfold sparseSet at h
  split at h
  · exact .inr (List.mem_filter.1 h).1
  · rcases (mem_sparseInsert _ k v x).1 h with h | h
    · exact .inl h
    · exact .inr (List.mem_filter.1 h).1

end

/-- A store into BAR2 keeps the canonical form. -/
theorem Memory.wf_set (m : List Host.Cell) (k : Nat) (v : Byte) (hk : k < 67108864) (h : Memory.wf m = true) :
    Memory.wf (sparseSet memDefault m k v) = true := by
  simp only [Memory.wf, Bool.and_eq_true, List.all_eq_true, decide_eq_true_eq] at h ⊢
  refine ⟨sparseWf_set _ _ _ h.1, fun x hx => ?_⟩
  rcases mem_sparseSet _ _ _ _ hx with rfl | hx
  · exact hk
  · exact h.2 x hx

end Sys2Proof.Machine
end

