-- ==== Sys2Proof/Laws/Sound.lean ====
section
/-! SUPPORT. The form of a state (Safety.lean): its parts, and that an update which leaves the memories and the numbers of the
units alone keeps it. -/

namespace Sys2Proof.Machine

set_option linter.unusedTactic false
set_option linter.unreachableTactic false

@[simp] theorem State.sound_mk {a1 a2 a3 a4 a5 a6 a7 a8 a9 a10 a11 a12 a13 a14 a15 a16 a17 a18 a19 a20 a21 a22 a23 a24 a25 a26 a27 a28 a29 a30 a31
    a32 a33 a34 a35} :
    (State.mk a1 a2 a3 a4 a5 a6 a7 a8 a9 a10 a11 a12 a13 a14 a15 a16 a17 a18 a19 a20 a21 a22 a23 a24 a25 a26 a27 a28 a29 a30 a31
      a32 a33 a34 a35).sound = true ↔
    RegFile.wf a1 = true ∧ Memory.wf a34 = true ∧ (a4.length = 12 ∧ a5.length = 48 ∧ a6.length = 64 ∧ a7.length = 4 ∧ a12.length = 4 ∧
      a13.length = 16 ∧ a15.length = 8 ∧ a20.length = 8 ∧ a25.length = 2) ∧
    a3.rings.length = 32 ∧ a3.leases.length = 16 ∧ a11.queues.length = 16 ∧ a14.sessions.length = 16 ∧ a14.gates.length = 8 ∧
      a14.intake.length = 16 ∧ a14.drainSlot.length = 16 ∧ a14.streams.length = 4 ∧ a14.results.length = 24 ∧ a24.ports.length = 6 := by
  simp only [State.sound, State.formOk, State.unitsOk, Bool.and_eq_true, decide_eq_true_eq, and_assoc]

theorem State.sound_parts {s : State} (h : s.sound = true) :
    RegFile.wf s.regs = true ∧ Memory.wf s.bar2 = true ∧ (s.quads.length = 12 ∧ s.chans.length = 48 ∧ s.lines.length = 64 ∧ s.seqs.length = 4 ∧
      s.phases.length = 4 ∧ s.tins.length = 16 ∧ s.refs.length = 8 ∧ s.auxs.length = 8 ∧ s.eths.length = 2) ∧
    s.host.rings.length = 32 ∧ s.host.leases.length = 16 ∧ s.sched.queues.length = 16 ∧ s.meas.sessions.length = 16 ∧
      s.meas.gates.length = 8 ∧ s.meas.intake.length = 16 ∧ s.meas.drainSlot.length = 16 ∧ s.meas.streams.length = 4 ∧
      s.meas.results.length = 24 ∧ s.ridge.ports.length = 6 := sound_mk.1 h

@[simp] theorem State.sound_regs {s : State} (h : s.sound = true) : RegFile.wf s.regs = true := (sound_parts h).1
@[simp] theorem State.sound_bar2 {s : State} (h : s.sound = true) : Memory.wf s.bar2 = true := (sound_parts h).2.1
@[simp] theorem State.sound_quads {s : State} (h : s.sound = true) : s.quads.length = 12 := by have := sound_parts h; omega
@[simp] theorem State.sound_chans {s : State} (h : s.sound = true) : s.chans.length = 48 := by have := sound_parts h; omega
@[simp] theorem State.sound_lines {s : State} (h : s.sound = true) : s.lines.length = 64 := by have := sound_parts h; omega
@[simp] theorem State.sound_seqs {s : State} (h : s.sound = true) : s.seqs.length = 4 := by have := sound_parts h; omega
@[simp] theorem State.sound_phases {s : State} (h : s.sound = true) : s.phases.length = 4 := by have := sound_parts h; omega
@[simp] theorem State.sound_tins {s : State} (h : s.sound = true) : s.tins.length = 16 := by have := sound_parts h; omega
@[simp] theorem State.sound_refs {s : State} (h : s.sound = true) : s.refs.length = 8 := by have := sound_parts h; omega
@[simp] theorem State.sound_auxs {s : State} (h : s.sound = true) : s.auxs.length = 8 := by have := sound_parts h; omega
@[simp] theorem State.sound_eths {s : State} (h : s.sound = true) : s.eths.length = 2 := by have := sound_parts h; omega
@[simp] theorem State.sound_rings {s : State} (h : s.sound = true) : s.host.rings.length = 32 := by have := sound_parts h; omega
@[simp] theorem State.sound_leases {s : State} (h : s.sound = true) : s.host.leases.length = 16 := by have := sound_parts h; omega
@[simp] theorem State.sound_queues {s : State} (h : s.sound = true) : s.sched.queues.length = 16 := by have := sound_parts h; omega
@[simp] theorem State.sound_sessions {s : State} (h : s.sound = true) : s.meas.sessions.length = 16 := by have := sound_parts h; omega
@[simp] theorem State.sound_gates {s : State} (h : s.sound = true) : s.meas.gates.length = 8 := by have := sound_parts h; omega
@[simp] theorem State.sound_intake {s : State} (h : s.sound = true) : s.meas.intake.length = 16 := by have := sound_parts h; omega
@[simp] theorem State.sound_drainSlot {s : State} (h : s.sound = true) : s.meas.drainSlot.length = 16 := by have := sound_parts h; omega
@[simp] theorem State.sound_streams {s : State} (h : s.sound = true) : s.meas.streams.length = 4 := by have := sound_parts h; omega
@[simp] theorem State.sound_results {s : State} (h : s.sound = true) : s.meas.results.length = 24 := by have := sound_parts h; omega
@[simp] theorem State.sound_ports {s : State} (h : s.sound = true) : s.ridge.ports.length = 6 := by have := sound_parts h; omega

/-- Words that are struck out leave the canonical form. -/
theorem RegFile.wf_filter (m : List (Nat × Word)) (p : Nat × Word → Bool) (h : RegFile.wf m = true) : RegFile.wf (m.filter p) = true := by
  simp only [RegFile.wf, sparseWf, Bool.and_eq_true, decide_eq_true_eq, List.all_eq_true] at h ⊢
  exact ⟨h.1.filter _, fun x hx => h.2 x (List.mem_filter.1 hx).1⟩

@[simp] theorem sound_ite {c : Prop} {_ : Decidable c} {s t : State} (hs : s.sound = true) (ht : t.sound = true) :
    (if c then s else t).sound = true := by split <;> assumption

@[simp] theorem sound_fst_ite {α : Type} {c : Prop} {_ : Decidable c} {s t : State × α} (hs : s.1.sound = true) (ht : t.1.sound = true) :
    (if c then s else t).1.sound = true := by split <;> assumption

@[simp] theorem sound_snd_ite {α : Type} {c : Prop} {_ : Decidable c} {s t : α × State} (hs : s.2.sound = true) (ht : t.2.sound = true) :
    (if c then s else t).2.sound = true := by split <;> assumption

theorem foldl_keeps {α β : Type} (P : β → Prop) (f : β → α → β) (hf : ∀ b a, P b → P (f b a)) (l : List α) (b : β) (h : P b) :
    P (l.foldl f b) := by
  induction l generalizing b with
  | nil => exact h
  | cons a l ih => exact ih _ (hf _ _ h)

theorem guarded_sound {i : Instr} {s t : State} {k : State → State} (hk : ∀ s, s.sound = true → (k s).sound = true) (hs : s.sound = true)
    (h : guarded i s k = .next t) : t.sound = true := by
  cases h
  split
  · exact hk s hs
  · exact hs

end Sys2Proof.Machine
end

