-- ==== Sys2Proof/Laws/SoundOps.lean ====
section
/-! SUPPORT. The operations of Ops keep the form of a state. -/

namespace Sys2Proof.Machine

set_option linter.unusedTactic false
set_option linter.unreachableTactic false

@[simp] theorem State.wr_sound {s : State} (hs : s.sound = true) (p : ℕ) (o : ℕ) (v : Word)  :
    (State.wr s p o v).sound = true := by
  unfold State.wr; simp [*, RegFile.wf, -State.sound_regs]; exact sparseWf_set _ _ _ (State.sound_regs hs)

@[simp] theorem State.wrN_sound {s : State} (hs : s.sound = true) (p o n v : Nat) : (s.wrN p o n v).sound = true := by
  induction n generalizing s o v with
  | zero => exact hs
  | succ n ih => exact ih (State.wr_sound hs _ _ _) _ _

@[simp] theorem State.put_sound {s : State} (hs : s.sound = true) (p : ℕ) (f : Fld) (v : ℕ)  :
    (State.put s p f v).sound = true := by
  unfold State.put; simp +contextual (maxDischargeDepth := 40) [*]

@[simp] theorem State.putFlag_sound {s : State} (hs : s.sound = true) (p : ℕ) (f : Fld) (b : Bool)  :
    (State.putFlag s p f b).sound = true := by
  unfold State.putFlag; simp +contextual (maxDischargeDepth := 40) [*]

@[simp] theorem State.putI_sound {s : State} (hs : s.sound = true) (p : ℕ) (f : Fld) (v : ℤ)  :
    (State.putI s p f v).sound = true := by
  unfold State.putI; simp +contextual (maxDischargeDepth := 40) [*]

@[simp] theorem State.incSat_sound {s : State} (hs : s.sound = true) (p : ℕ) (f : Fld) (n : optParam ℕ 1)  :
    (State.incSat s p f n).sound = true := by
  unfold State.incSat; simp +contextual (maxDischargeDepth := 40) [*]

@[simp] theorem State.incWrap_sound {s : State} (hs : s.sound = true) (p : ℕ) (f : Fld) (n : optParam ℕ 1)  :
    (State.incWrap s p f n).sound = true := by
  unfold State.incWrap; simp +contextual (maxDischargeDepth := 40) [*]

@[simp] theorem State.emit_sound {s : State} (hs : s.sound = true) (o : Out)  :
    (State.emit s o).sound = true := by
  unfold State.emit; simp +contextual (maxDischargeDepth := 40) [*]

@[simp] theorem State.forEach_sound {α : Type} {s : State} (hs : s.sound = true) (l : List α) (f : α → State → State)
    (hf : ∀ a s, s.sound = true → (f a s).sound = true) : (s.forEach l f).sound = true :=
  foldl_keeps (fun s : State => s.sound = true) _ (fun _ _ h => hf _ _ h) l s hs

@[simp] theorem State.onlyIf_sound {s : State} (hs : s.sound = true) (c : Bool) (f : State → State) (hf : ∀ s, s.sound = true → (f s).sound = true) :
    (State.onlyIf s c f).sound = true := by
  unfold State.onlyIf; simp +contextual (maxDischargeDepth := 40) [*]

@[simp] theorem State.free_sound {s : State} (hs : s.sound = true)  :
    (State.free s).2.sound = true := by
  unfold State.free; simp +contextual (maxDischargeDepth := 40) [*]

@[simp] theorem State.setQuad_sound {s : State} (hs : s.sound = true) (q : ℕ) (x : QuadSt)  :
    (State.setQuad s q x).sound = true := by
  unfold State.setQuad; simp +contextual (maxDischargeDepth := 40) [*]

@[simp] theorem State.setChan_sound {s : State} (hs : s.sound = true) (c : ℕ) (x : ChanSt)  :
    (State.setChan s c x).sound = true := by
  unfold State.setChan; simp +contextual (maxDischargeDepth := 40) [*]

@[simp] theorem State.setLine_sound {s : State} (hs : s.sound = true) (n : ℕ) (x : LineSt)  :
    (State.setLine s n x).sound = true := by
  unfold State.setLine; simp +contextual (maxDischargeDepth := 40) [*]

@[simp] theorem State.setRing_sound {s : State} (hs : s.sound = true) (r : ℕ) (x : RingSt)  :
    (State.setRing s r x).sound = true := by
  unfold State.setRing; simp +contextual (maxDischargeDepth := 40) [*]

@[simp] theorem State.inCore_sound {s : State} (hs : s.sound = true) (f : State → State) (hf : ∀ s, s.sound = true → (f s).sound = true) :
    (State.inCore s f).sound = true := by
  unfold State.inCore; simp +contextual (maxDischargeDepth := 40) [*]

@[simp] theorem State.post_sound {s : State} (hs : s.sound = true) (e : LineEvent)  :
    (State.post s e).sound = true := by
  unfold State.post; simp +contextual (maxDischargeDepth := 40) [*]

end Sys2Proof.Machine
end

