-- ==== Sys2Proof/Laws/SoundOperands.lean ====
section
/-! SUPPORT. The operations of Operands keep the form of a state. -/

namespace Sys2Proof.Machine

set_option linter.unusedTactic false
set_option linter.unreachableTactic false

@[simp] theorem State.putInst_sound {s : State} (hs : s.sound = true) (p : ℕ) (f : Fld) (t : ℤ)  :
    (State.putInst s p f t).sound = true := by
  unfold State.putInst; simp +contextual (maxDischargeDepth := 40) [*]

@[simp] theorem State.putSpan_sound {s : State} (hs : s.sound = true) (p : ℕ) (f : Fld) (i : ℤ)  :
    (State.putSpan s p f i).sound = true := by
  unfold State.putSpan; simp +contextual (maxDischargeDepth := 40) [*]

@[simp] theorem accept_sound {s : State} (hs : s.sound = true)  :
    (accept s).1.sound = true := by
  unfold accept; simp +contextual (maxDischargeDepth := 40) [*]

@[simp] theorem refuse_sound {s : State} (hs : s.sound = true) (r : Res)  :
    (refuse s r).1.sound = true := by
  unfold refuse; simp +contextual (maxDischargeDepth := 40) [*]

@[simp] theorem State.setOwner_sound {s : State} (hs : s.sound = true) (code : ℕ) (idx : ℕ) (agent : ℕ)  :
    (State.setOwner s code idx agent).sound = true := by
  unfold State.setOwner; repeat' first | (simp +contextual (maxDischargeDepth := 40) [*]; done) | split | dsimp only | (refine State.forEach_sound ?_ _ _ (fun _ _ _ => ?_)) | (refine State.onlyIf_sound ?_ _ _ (fun _ _ => ?_))

end Sys2Proof.Machine
end

