-- ==== Sys2Proof/Laws/SoundFlags.lean ====
section
/-! SUPPORT. The operations of Flags keep the form of a state. -/

namespace Sys2Proof.Machine

set_option linter.unusedTactic false
set_option linter.unreachableTactic false

@[simp] theorem State.sendMsix_sound {s : State} (hs : s.sound = true) (v : ℕ)  :
    (State.sendMsix s v).sound = true := by
  unfold State.sendMsix; simp +contextual (maxDischargeDepth := 40) [*]

@[simp] theorem State.resend_sound {s : State} (hs : s.sound = true) (v : ℕ)  :
    (State.resend s v).sound = true := by
  unfold State.resend; simp +contextual (maxDischargeDepth := 40) [*]

@[simp] theorem State.irq_sound {s : State} (hs : s.sound = true) (p : ℕ) (bit : ℕ)  :
    (State.irq s p bit).sound = true := by
  unfold State.irq; simp +contextual (maxDischargeDepth := 40) [*]

@[simp] theorem State.err_sound {s : State} (hs : s.sound = true) (p : ℕ) (bit : ℕ)  :
    (State.err s p bit).sound = true := by
  unfold State.err; repeat' first | (simp +contextual (maxDischargeDepth := 40) [*]; done) | split | dsimp only | (refine State.forEach_sound ?_ _ _ (fun _ _ _ => ?_)) | (refine State.onlyIf_sound ?_ _ _ (fun _ _ => ?_))

@[simp] theorem State.ringPut_sound {s : State} (hs : s.sound = true) (r : ℕ) (elem : ℕ)  :
    (State.ringPut s r elem).sound = true := by
  unfold State.ringPut; simp +contextual (maxDischargeDepth := 40) [*]

@[simp] theorem State.ringWriteback_sound {s : State} (hs : s.sound = true) (r : ℕ)  :
    (State.ringWriteback s r).sound = true := by
  unfold State.ringWriteback; simp +contextual (maxDischargeDepth := 40) [*]

@[simp] theorem State.ringNotify_sound {s : State} (hs : s.sound = true) (r : ℕ)  :
    (State.ringNotify s r).sound = true := by
  unfold State.ringNotify; simp +contextual (maxDischargeDepth := 40) [*]

@[simp] theorem State.ringRecord_sound {s : State} (hs : s.sound = true) (r : ℕ) (rec : List ℕ)  :
    (State.ringRecord s r rec).sound = true := by
  unfold State.ringRecord; simp +contextual (maxDischargeDepth := 40) [*]

@[simp] theorem State.ringDrain_sound {s : State} (hs : s.sound = true) (k r : Nat) : (State.ringDrain k r s).sound = true := by
  induction k generalizing s with
  | zero => exact hs
  | succ k ih =>
    unfold State.ringDrain
    split
    · exact hs
    · split
      · exact hs
      · exact ih (by simp +contextual (maxDischargeDepth := 40) [*])

@[simp] theorem State.event_sound {s : State} (hs : s.sound = true) (cls : ℕ) (rec : List ℕ)  :
    (State.event s cls rec).sound = true := by
  unfold State.event; repeat' first | (simp +contextual (maxDischargeDepth := 40) [*]; done) | split | dsimp only | (refine State.forEach_sound ?_ _ _ (fun _ _ _ => ?_)) | (refine State.onlyIf_sound ?_ _ _ (fun _ _ => ?_))

end Sys2Proof.Machine
end

