-- ==== Sys2Proof/Laws/SoundPlace.lean ====
section
/-! SUPPORT. The operations of Place keep the form of a state. -/

namespace Sys2Proof.Machine

set_option linter.unusedTactic false
set_option linter.unreachableTactic false

@[simp] theorem State.putTerms_sound {s : State} (hs : s.sound = true) (l : List (ℕ × ℕ × ℕ))  :
    (State.putTerms s l).sound = true := by
  unfold State.putTerms; simp +contextual (maxDischargeDepth := 40) [*]

@[simp] theorem State.putForm_sound {s : State} (hs : s.sound = true) (p : ℕ) (rise : Fld) (fall : Fld) (t : Option FormTerm)  :
    (State.putForm s p rise fall t).sound = true := by
  unfold State.putForm; repeat' first | (simp +contextual (maxDischargeDepth := 40) [*]; done) | split | dsimp only | (refine State.forEach_sound ?_ _ _ (fun _ _ _ => ?_)) | (refine State.onlyIf_sound ?_ _ _ (fun _ _ => ?_))

@[simp] theorem State.laneForm_sound {s : State} (hs : s.sound = true) (c : ℕ)  :
    (State.laneForm s c).sound = true := by
  unfold State.laneForm; simp +contextual (maxDischargeDepth := 40) [*]

@[simp] theorem State.loopForm_sound {s : State} (hs : s.sound = true)  :
    (State.loopForm s).sound = true := by
  unfold State.loopForm; simp +contextual (maxDischargeDepth := 40) [*]

@[simp] theorem State.inputForm_sound {s : State} (hs : s.sound = true) (i : ℕ)  :
    (State.inputForm s i).sound = true := by
  unfold State.inputForm; simp +contextual (maxDischargeDepth := 40) [*]

@[simp] theorem State.putForms_sound {s : State} (hs : s.sound = true)  :
    (State.putForms s).sound = true := by
  unfold State.putForms; simp +contextual (maxDischargeDepth := 40) [*]

end Sys2Proof.Machine
end

