-- ==== Sys2Proof/Laws/SoundApll.lean ====
section
/-! SUPPORT. The operations of Apll keep the form of a state. -/

namespace Sys2Proof.Machine

set_option linter.unusedTactic false
set_option linter.unreachableTactic false

@[simp] theorem State.apllaSlot_sound {s : State} (hs : s.sound = true)  :
    (State.apllaSlot s).sound = true := by
  unfold State.apllaSlot; simp +contextual (maxDischargeDepth := 40) [*]

@[simp] theorem State.apllaUnlock_sound {s : State} (hs : s.sound = true)  :
    (State.apllaUnlock s).sound = true := by
  unfold State.apllaUnlock; simp +contextual (maxDischargeDepth := 40) [*]

@[simp] theorem State.apllaRefGone_sound {s : State} (hs : s.sound = true) (c : ℕ)  :
    (State.apllaRefGone s c).sound = true := by
  unfold State.apllaRefGone; simp +contextual (maxDischargeDepth := 40) [*]

end Sys2Proof.Machine
end

