-- ==== Sys2Proof/Laws/SoundChan.lean ====
section
/-! SUPPORT. The operations of Chan keep the form of a state. -/

namespace Sys2Proof.Machine

set_option linter.unusedTactic false
set_option linter.unreachableTactic false

@[simp] theorem State.queueEdge_sound {s : State} (hs : s.sound = true) (c : ℕ) (e : Edge)  :
    (State.queueEdge s c e).sound = true := by
  unfold State.queueEdge; simp +contextual (maxDischargeDepth := 40) [*]

@[simp] theorem State.desync_sound {s : State} (hs : s.sound = true) (c : ℕ) (e : Edge)  :
    (State.desync s c e).sound = true := by
  unfold State.desync; simp +contextual (maxDischargeDepth := 40) [*]

@[simp] theorem State.copyToMirrors_sound {s : State} (hs : s.sound = true) (c : ℕ) (e : Edge) (high : Bool)  :
    (State.copyToMirrors s c e high).sound = true := by
  unfold State.copyToMirrors; simp +contextual (maxDischargeDepth := 40) [*]

@[simp] theorem State.pushEdge_sound {s : State} (hs : s.sound = true) (c : ℕ) (e : Edge)  :
    (State.pushEdge s c e).sound = true := by
  unfold State.pushEdge; repeat' first | (simp +contextual (maxDischargeDepth := 40) [*]; done) | split | dsimp only | (refine State.forEach_sound ?_ _ _ (fun _ _ _ => ?_)) | (refine State.onlyIf_sound ?_ _ _ (fun _ _ => ?_))

@[simp] theorem State.pushPulseFrom_sound {s : State} (hs : s.sound = true) (c : ℕ) (i : Bool) (t32 : ℤ) (width32 : ℤ) (origin : EdgeOrigin) (lead : EdgeBasis) (trail : EdgeBasis)  :
    (State.pushPulseFrom s c i t32 width32 origin lead trail).sound = true := by
  unfold State.pushPulseFrom; simp +contextual (maxDischargeDepth := 40) [*]

@[simp] theorem State.pushPulse_sound {s : State} (hs : s.sound = true) (c : ℕ) (t32 : ℤ) (width32 : ℤ) (origin : EdgeOrigin) (basis : EdgeBasis)  :
    (State.pushPulse s c t32 width32 origin basis).sound = true := by
  unfold State.pushPulse; simp +contextual (maxDischargeDepth := 40) [*]

@[simp] theorem State.calTurn_sound {s : State} (hs : s.sound = true) (c : ℕ)  :
    (State.calTurn s c).sound = true := by
  unfold State.calTurn; repeat' first | (simp +contextual (maxDischargeDepth := 40) [*]; done) | split | dsimp only | (refine State.forEach_sound ?_ _ _ (fun _ _ _ => ?_)) | (refine State.onlyIf_sound ?_ _ _ (fun _ _ => ?_))

@[simp] theorem State.nextClock_sound {s : State} (hs : s.sound = true) (c : ℕ)  :
    (State.nextClock s c).sound = true := by
  unfold State.nextClock; repeat' first | (simp +contextual (maxDischargeDepth := 40) [*]; done) | split | dsimp only | (refine State.forEach_sound ?_ _ _ (fun _ _ _ => ?_)) | (refine State.onlyIf_sound ?_ _ _ (fun _ _ => ?_))

@[simp] theorem State.mirrorGrid_sound {s : State} (hs : s.sound = true) (m : ℕ) (lim : ℤ)  :
    (State.mirrorGrid s m lim).sound = true := by
  unfold State.mirrorGrid; repeat' first | (simp +contextual (maxDischargeDepth := 40) [*]; done) | split | dsimp only | (refine State.forEach_sound ?_ _ _ (fun _ _ _ => ?_)) | (refine State.onlyIf_sound ?_ _ _ (fun _ _ => ?_))

@[simp] theorem State.mirrorStop_sound {s : State} (hs : s.sound = true) (m : ℕ) (end32 : ℤ)  :
    (State.mirrorStop s m end32).sound = true := by
  unfold State.mirrorStop
  split
  · exact hs
  · extract_lets s1 late
    have h1 : s1.sound = true := by simp only [s1]; repeat' first | (simp +contextual (maxDischargeDepth := 40) [*]; done) | split | dsimp only | (refine State.forEach_sound ?_ _ _ (fun _ _ _ => ?_)) | (refine State.onlyIf_sound ?_ _ _ (fun _ _ => ?_))
    clear_value s1 late
    repeat' first | (simp +contextual (maxDischargeDepth := 40) [*]; done) | split | dsimp only | (refine State.forEach_sound ?_ _ _ (fun _ _ _ => ?_)) | (refine State.onlyIf_sound ?_ _ _ (fun _ _ => ?_))

@[simp] theorem State.mirrorsStop_sound {s : State} (hs : s.sound = true) (c : ℕ)  :
    (State.mirrorsStop s c).sound = true := by
  unfold State.mirrorsStop; repeat' first | (simp +contextual (maxDischargeDepth := 40) [*]; done) | split | dsimp only | (refine State.forEach_sound ?_ _ _ (fun _ _ _ => ?_)) | (refine State.onlyIf_sound ?_ _ _ (fun _ _ => ?_))

@[simp] theorem State.mirrorsStart_sound {s : State} (hs : s.sound = true) (c : ℕ)  :
    (State.mirrorsStart s c).sound = true := by
  unfold State.mirrorsStart; simp +contextual (maxDischargeDepth := 40) [*]

@[simp] theorem State.startGrid_sound {s : State} (hs : s.sound = true) (c : ℕ) (lim : ℤ)  :
    (State.startGrid s c lim).sound = true := by
  unfold State.startGrid; repeat' first | (simp +contextual (maxDischargeDepth := 40) [*]; done) | split | dsimp only | (refine State.forEach_sound ?_ _ _ (fun _ _ _ => ?_)) | (refine State.onlyIf_sound ?_ _ _ (fun _ _ => ?_))

@[simp] theorem State.restEdge_sound {s : State} (hs : s.sound = true) (c : ℕ) (t32 : ℤ)  :
    (State.restEdge s c t32).sound = true := by
  unfold State.restEdge; repeat' first | (simp +contextual (maxDischargeDepth := 40) [*]; done) | split | dsimp only | (refine State.forEach_sound ?_ _ _ (fun _ _ _ => ?_)) | (refine State.onlyIf_sound ?_ _ _ (fun _ _ => ?_))

@[simp] theorem State.schedLost_sound {s : State} (hs : s.sound = true) (c : ℕ)  :
    (State.schedLost s c).sound = true := by
  unfold State.schedLost; simp +contextual (maxDischargeDepth := 40) [*]

@[simp] theorem State.schedMove_sound {s : State} (hs : s.sound = true) (c : ℕ) (t32 : ℤ) (d32 : ℤ)  :
    (State.schedMove s c t32 d32).sound = true := by
  unfold State.schedMove; simp +contextual (maxDischargeDepth := 40) [*]

@[simp] theorem State.chanEntry_sound {s0 : State} (hs0 : s0.sound = true) (c : ℕ) (ahead : ℕ)  :
    (State.chanEntry s0 c ahead).sound = true := by
  unfold State.chanEntry; simp +contextual (maxDischargeDepth := 40) [*]

@[simp] theorem State.chanSettle_sound {s : State} {old : State} (hs : s.sound = true) (hold : old.sound = true) (c : ℕ)  :
    (State.chanSettle s c old).sound = true := by
  unfold State.chanSettle; simp +contextual (maxDischargeDepth := 40) [*]

@[simp] theorem State.chanCommit_sound {s : State} {old : State} (hs : s.sound = true) (hold : old.sound = true) (c : ℕ) (modeWritten : Bool) (ahead : ℕ)  :
    (State.chanCommit s c old modeWritten ahead).sound = true := by
  unfold State.chanCommit; simp +contextual (maxDischargeDepth := 40) [*]

@[simp] theorem State.loopBack_sound {s : State} (hs : s.sound = true) (c : ℕ) (rising : Bool) (pos : ℤ)  :
    (State.loopBack s c rising pos).sound = true := by
  unfold State.loopBack; simp +contextual (maxDischargeDepth := 40) [*]

@[simp] theorem State.chanSafe_sound {s0 : State} (hs0 : s0.sound = true) (c : ℕ) (cause : SafeCause)  :
    (State.chanSafe s0 c cause).sound = true := by
  unfold State.chanSafe; simp +contextual (maxDischargeDepth := 40) [*]

@[simp] theorem State.chanSafeExit_sound {s : State} (hs : s.sound = true) (c : ℕ)  :
    (State.chanSafeExit s c).sound = true := by
  unfold State.chanSafeExit; simp +contextual (maxDischargeDepth := 40) [*]

@[simp] theorem State.ignoreEvent_sound {s : State} (hs : s.sound = true) (c : ℕ)  :
    (State.ignoreEvent s c).sound = true := by
  unfold State.ignoreEvent; simp +contextual (maxDischargeDepth := 40) [*]

@[simp] theorem State.acceptEvent_sound {s : State} (hs : s.sound = true) (c : ℕ) (t : ℕ) (teb : ℕ) (set : ChanSettings)  :
    (State.acceptEvent s c t teb set).sound = true := by
  unfold State.acceptEvent; simp +contextual (maxDischargeDepth := 40) [*]

@[simp] theorem State.cancelResponses_sound {s : State} (hs : s.sound = true) (c : ℕ)  :
    (State.cancelResponses s c).sound = true := by
  unfold State.cancelResponses; simp +contextual (maxDischargeDepth := 40) [*]

@[simp] theorem State.answer_sound {s : State} (hs : s.sound = true) (c : ℕ) (n : ℕ) (t : ℕ) (teb : ℕ)  :
    (State.answer s c n t teb).sound = true := by
  unfold State.answer; repeat' first | (simp +contextual (maxDischargeDepth := 40) [*]; done) | split | dsimp only | (refine State.forEach_sound ?_ _ _ (fun _ _ _ => ?_)) | (refine State.onlyIf_sound ?_ _ _ (fun _ _ => ?_))

@[simp] theorem State.setResp_sound {s : State} (hs : s.sound = true) (c : ℕ) (r : Resp)  :
    (State.setResp s c r).sound = true := by
  unfold State.setResp; simp +contextual (maxDischargeDepth := 40) [*]

@[simp] theorem State.settleResponses_sound {s : State} (hs : s.sound = true) (c : ℕ)  :
    (State.settleResponses s c).sound = true := by
  unfold State.settleResponses; simp +contextual (maxDischargeDepth := 40) [*]

@[simp] theorem State.nextPulse_sound {s : State} (hs : s.sound = true) (c : ℕ)  :
    (State.nextPulse s c).sound = true := by
  unfold State.nextPulse; repeat' first | (simp +contextual (maxDischargeDepth := 40) [*]; done) | split | dsimp only | (refine State.forEach_sound ?_ _ _ (fun _ _ _ => ?_)) | (refine State.onlyIf_sound ?_ _ _ (fun _ _ => ?_))

@[simp] theorem State.seqPromote_sound {s : State} (hs : s.sound = true) (c : ℕ)  :
    (State.seqPromote s c).sound = true := by
  unfold State.seqPromote; simp +contextual (maxDischargeDepth := 40) [*]

@[simp] theorem State.chanExpand_sound {s : State} (hs : s.sound = true) (c : ℕ)  :
    (State.chanExpand s c).sound = true := by
  unfold State.chanExpand; simp +contextual (maxDischargeDepth := 40) [*]

@[simp] theorem State.spacingDrop_sound {s : State} (hs : s.sound = true) (c : ℕ) (n : ℕ)  :
    (State.spacingDrop s c n).sound = true := by
  unfold State.spacingDrop; simp +contextual (maxDischargeDepth := 40) [*]

@[simp] theorem State.respEdgeDone_sound {s : State} (hs : s.sound = true) (c : ℕ) (o : EdgeOrigin)  :
    (State.respEdgeDone s c o).sound = true := by
  unfold State.respEdgeDone; repeat' first | (simp +contextual (maxDischargeDepth := 40) [*]; done) | split | dsimp only | (refine State.forEach_sound ?_ _ _ (fun _ _ _ => ?_)) | (refine State.onlyIf_sound ?_ _ _ (fun _ _ => ?_))

@[simp] theorem State.unwait_sound {s : State} (hs : s.sound = true) (c : ℕ) (e : Edge)  :
    (State.unwait s c e).sound = true := by
  unfold State.unwait; simp +contextual (maxDischargeDepth := 40) [*]

@[simp] theorem State.dropWithTrail_sound {s : State} (hs : s.sound = true) (c : ℕ) (e : Edge)  :
    (State.dropWithTrail s c e).sound = true := by
  unfold State.dropWithTrail; repeat' first | (simp +contextual (maxDischargeDepth := 40) [*]; done) | split | dsimp only | (refine State.forEach_sound ?_ _ _ (fun _ _ _ => ?_)) | (refine State.onlyIf_sound ?_ _ _ (fun _ _ => ?_))

@[simp] theorem State.issueAt_sound {s : State} (hs : s.sound = true) (c : ℕ) (e : Edge) (high : Option Bool) (engine : ℕ) (pos : ℤ) (dither : Option ℤ)  :
    (State.issueAt s c e high engine pos dither).sound = true := by
  unfold State.issueAt; simp +contextual (maxDischargeDepth := 40) [*]

@[simp] theorem State.issuePulse_sound {s : State} (hs : s.sound = true) (c : ℕ) (e : Edge) (t : Edge) (high : Bool) (engine : ℕ)  :
    (State.issuePulse s c e t high engine).sound = true := by
  unfold State.issuePulse; simp +contextual (maxDischargeDepth := 40) [*]

@[simp] theorem State.issueSingle_sound {s : State} (hs : s.sound = true) (c : ℕ) (e : Edge) (high : Bool) (engine : ℕ)  :
    (State.issueSingle s c e high engine).sound = true := by
  unfold State.issueSingle; simp +contextual (maxDischargeDepth := 40) [*]

@[simp] theorem State.issueCodes_sound {s : State} (hs : s.sound = true) (c : ℕ) (e : Edge) (high : Bool) (k : ℕ × ℤ)  :
    (State.issueCodes s c e high k).sound = true := by
  unfold State.issueCodes; simp +contextual (maxDischargeDepth := 40) [*]

@[simp] theorem State.lateEdge_sound {s : State} (hs : s.sound = true) (c : ℕ) (e : Edge) (high : Bool) (engine : ℕ)  :
    (State.lateEdge s c e high engine).sound = true := by
  unfold State.lateEdge; repeat' first | (simp +contextual (maxDischargeDepth := 40) [*]; done) | split | dsimp only | (refine State.forEach_sound ?_ _ _ (fun _ _ _ => ?_)) | (refine State.onlyIf_sound ?_ _ _ (fun _ _ => ?_))

@[simp] theorem State.issueNext_sound {s0 : State} (hs0 : s0.sound = true) (c : ℕ)  :
    (State.issueNext s0 c).sound = true := by
  unfold State.issueNext; repeat' first | (simp +contextual (maxDischargeDepth := 40) [*]; done) | split | dsimp only | (refine State.forEach_sound ?_ _ _ (fun _ _ _ => ?_)) | (refine State.onlyIf_sound ?_ _ _ (fun _ _ => ?_))

theorem execEdgeIssue_sound {s : State} (hs : s.sound = true) (c : ℕ)  :
    ∀ u, execEdgeIssue c s = .next u → u.sound = true := by
  intro u ht; unfold execEdgeIssue at ht
  refine guarded_sound (fun s hs => ?_) hs ht
  repeat' first | (simp +contextual (maxDischargeDepth := 40) [*]; done) | split | dsimp only | (refine State.forEach_sound ?_ _ _ (fun _ _ _ => ?_)) | (refine State.onlyIf_sound ?_ _ _ (fun _ _ => ?_))

@[simp] theorem State.countLaunch_sound {s : State} (hs : s.sound = true) (c : ℕ) (i : Issued)  :
    (State.countLaunch s c i).sound = true := by
  unfold State.countLaunch; simp +contextual (maxDischargeDepth := 40) [*]

@[simp] theorem State.emitEdge_sound {s : State} (hs : s.sound = true) (c : ℕ) (i : Issued) (h : Bool) (sameSlot : Bool)  :
    (State.emitEdge s c i h sameSlot).sound = true := by
  unfold State.emitEdge; simp +contextual (maxDischargeDepth := 40) [*]

@[simp] theorem State.launch_sound {s : State} (hs : s.sound = true) (c : ℕ)  :
    (State.launch s c).sound = true := by
  unfold State.launch; repeat' first | (simp +contextual (maxDischargeDepth := 40) [*]; done) | split | dsimp only | (refine State.forEach_sound ?_ _ _ (fun _ _ _ => ?_)) | (refine State.onlyIf_sound ?_ _ _ (fun _ _ => ?_))

theorem execEdgeLaunch_sound {s : State} (hs : s.sound = true) (c : ℕ)  :
    ∀ u, execEdgeLaunch c s = .next u → u.sound = true := by
  intro u ht; unfold execEdgeLaunch at ht
  refine guarded_sound (fun s hs => ?_) hs ht
  repeat' first | (simp +contextual (maxDischargeDepth := 40) [*]; done) | split | dsimp only | (refine State.forEach_sound ?_ _ _ (fun _ _ _ => ?_)) | (refine State.onlyIf_sound ?_ _ _ (fun _ _ => ?_))

@[simp] theorem State.chanStep_sound {s : State} (hs : s.sound = true) (d32 : ℤ) (c : ℕ)  :
    (State.chanStep s d32 c).sound = true := by
  unfold State.chanStep; repeat' first | (simp +contextual (maxDischargeDepth := 40) [*]; done) | split | dsimp only | (refine State.forEach_sound ?_ _ _ (fun _ _ _ => ?_)) | (refine State.onlyIf_sound ?_ _ _ (fun _ _ => ?_))

@[simp] theorem State.chanSeqMove_sound {s : State} (hs : s.sound = true) (d32 : ℤ) (e32 : ℤ) (c : ℕ)  :
    (State.chanSeqMove s d32 e32 c).sound = true := by
  unfold State.chanSeqMove; simp +contextual (maxDischargeDepth := 40) [*]

@[simp] theorem State.chanFlush_sound {s : State} (hs : s.sound = true) (c : ℕ)  :
    (State.chanFlush s c).sound = true := by
  unfold State.chanFlush; simp +contextual (maxDischargeDepth := 40) [*]

end Sys2Proof.Machine
end

