-- ==== Sys2Proof/Laws/SoundQuad.lean ====
section
/-! SUPPORT. The operations of Quad keep the form of a state. -/

namespace Sys2Proof.Machine

set_option linter.unusedTactic false
set_option linter.unreachableTactic false

@[simp] theorem State.setEngState_sound {s : State} (hs : s.sound = true) (q : ℕ) (e : ℕ) (v : ℕ)  :
    (State.setEngState s q e v).sound = true := by
  unfold State.setEngState; simp +contextual (maxDischargeDepth := 40) [*]

@[simp] theorem State.mapLane_sound {s : State} (hs : s.sound = true) (q : ℕ) (l : ℕ) (e : ℕ)  :
    (State.mapLane s q l e).sound = true := by
  unfold State.mapLane; simp +contextual (maxDischargeDepth := 40) [*]

@[simp] theorem State.setEngine_sound {s : State} (hs : s.sound = true) (q : ℕ) (e : ℕ) (x : EngineSt)  :
    (State.setEngine s q e x).sound = true := by
  unfold State.setEngine; simp +contextual (maxDischargeDepth := 40) [*]

@[simp] theorem State.refreshBounds_sound {s : State} (hs : s.sound = true) (q : ℕ)  :
    (State.refreshBounds s q).sound = true := by
  unfold State.refreshBounds; simp +contextual (maxDischargeDepth := 40) [*]

@[simp] theorem State.refreshSpare_sound {s : State} (hs : s.sound = true) (q : ℕ)  :
    (State.refreshSpare s q).sound = true := by
  unfold State.refreshSpare; repeat' first | (simp +contextual (maxDischargeDepth := 40) [*]; done) | split | dsimp only | (refine State.forEach_sound ?_ _ _ (fun _ _ _ => ?_)) | (refine State.onlyIf_sound ?_ _ _ (fun _ _ => ?_))

@[simp] theorem State.needSweep_sound {s : State} (hs : s.sound = true) (q : ℕ) (e : ℕ)  :
    (State.needSweep s q e).sound = true := by
  unfold State.needSweep; simp +contextual (maxDischargeDepth := 40) [*]

@[simp] theorem State.refreshDeferred_sound {s : State} (hs : s.sound = true) (q : ℕ)  :
    (State.refreshDeferred s q).sound = true := by
  unfold State.refreshDeferred; simp +contextual (maxDischargeDepth := 40) [*]

@[simp] theorem State.refreshSettled_sound {s : State} (hs : s.sound = true)  :
    (State.refreshSettled s).sound = true := by
  unfold State.refreshSettled; simp +contextual (maxDischargeDepth := 40) [*]

@[simp] theorem State.defer_sound {s : State} (hs : s.sound = true) (q : ℕ) (l : ℕ) (reason : ℕ)  :
    (State.defer s q l reason).sound = true := by
  unfold State.defer; simp +contextual (maxDischargeDepth := 40) [*]

@[simp] theorem State.armSwap_sound {s : State} (hs : s.sound = true) (q : ℕ) (l : ℕ) (reason : ℕ)  :
    (State.armSwap s q l reason).sound = true := by
  unfold State.armSwap; simp +contextual (maxDischargeDepth := 40) [*]

@[simp] theorem State.setDegraded_sound {s : State} (hs : s.sound = true) (q : ℕ) (l : ℕ) (b : Bool)  :
    (State.setDegraded s q l b).sound = true := by
  unfold State.setDegraded; simp +contextual (maxDischargeDepth := 40) [*]

@[simp] theorem State.recordSwap_sound {s : State} (hs : s.sound = true) (q : ℕ) (outcome : ℕ) (reason : ℕ) (new : ℕ) (old : ℕ) (lane : ℕ)  :
    (State.recordSwap s q outcome reason new old lane).sound = true := by
  unfold State.recordSwap; simp +contextual (maxDischargeDepth := 40) [*]

@[simp] theorem State.abandonSwap_sound {s : State} (hs : s.sound = true) (q : ℕ) (spareState : ℕ)  :
    (State.abandonSwap s q spareState).sound = true := by
  unfold State.abandonSwap; repeat' first | (simp +contextual (maxDischargeDepth := 40) [*]; done) | split | dsimp only | (refine State.forEach_sound ?_ _ _ (fun _ _ _ => ?_)) | (refine State.onlyIf_sound ?_ _ _ (fun _ _ => ?_))

@[simp] theorem State.driftCause_sound {s : State} (hs : s.sound = true) (q : ℕ) (l : ℕ) (m : ℕ × ℕ)  :
    (State.driftCause s q l m).sound = true := by
  unfold State.driftCause; simp +contextual (maxDischargeDepth := 40) [*]

@[simp] theorem State.failNoSpare_sound {s : State} (hs : s.sound = true) (q : ℕ) (l : ℕ)  :
    (State.failNoSpare s q l).sound = true := by
  unfold State.failNoSpare; simp +contextual (maxDischargeDepth := 40) [*]

@[simp] theorem State.yieldArmed_sound {s : State} (hs : s.sound = true) (q : ℕ) (l : ℕ) (reason : ℕ)  :
    (State.yieldArmed s q l reason).sound = true := by
  unfold State.yieldArmed; simp +contextual (maxDischargeDepth := 40) [*]

@[simp] theorem State.laneFailed_sound {s : State} (hs : s.sound = true) (q : ℕ) (l : ℕ) (ready : Bool)  :
    (State.laneFailed s q l ready).sound = true := by
  unfold State.laneFailed; repeat' first | (simp +contextual (maxDischargeDepth := 40) [*]; done) | split | dsimp only | (refine State.forEach_sound ?_ _ _ (fun _ _ _ => ?_)) | (refine State.onlyIf_sound ?_ _ _ (fun _ _ => ?_))

@[simp] theorem State.loseSwap_sound {s : State} (hs : s.sound = true) (q : ℕ) (spareState : ℕ)  :
    (State.loseSwap s q spareState).sound = true := by
  unfold State.loseSwap; simp +contextual (maxDischargeDepth := 40) [*]

@[simp] theorem State.spareFailed_sound {s : State} (hs : s.sound = true) (q : ℕ)  :
    (State.spareFailed s q).sound = true := by
  unfold State.spareFailed; simp +contextual (maxDischargeDepth := 40) [*]

@[simp] theorem State.engineFailed_sound {s : State} (hs : s.sound = true) (q : ℕ) (e : ℕ)  :
    (State.engineFailed s q e).sound = true := by
  unfold State.engineFailed; repeat' first | (simp +contextual (maxDischargeDepth := 40) [*]; done) | split | dsimp only | (refine State.forEach_sound ?_ _ _ (fun _ _ _ => ?_)) | (refine State.onlyIf_sound ?_ _ _ (fun _ _ => ?_))

@[simp] theorem State.trackTerm_sound {s : State} (hs : s.sound = true) (q : ℕ) (f : Fld) (errs : List CalEdge)  :
    (State.trackTerm s q f errs).sound = true := by
  unfold State.trackTerm; simp +contextual (maxDischargeDepth := 40) [*]

@[simp] theorem State.putResid_sound {s : State} (hs : s.sound = true) (q : ℕ) (e : ℕ) (es : List CalEdge)  :
    (State.putResid s q e es).sound = true := by
  unfold State.putResid; simp +contextual (maxDischargeDepth := 40) [*]

@[simp] theorem State.visitEngine_sound {s : State} (hs : s.sound = true) (q : ℕ) (v : CalVisit)  :
    (State.visitEngine s q v).sound = true := by
  unfold State.visitEngine
  extract_lets e es rise fall s1 g run g1 s2 kind src
  have h2 : s2.sound = true := by simp +contextual (maxDischargeDepth := 40) [s2, s1, *]
  clear_value s2 run g1
  split
  · simp +contextual (maxDischargeDepth := 40) [*]
  · split
    · exact h2
    · extract_lets k s3 waits
      have h3 : s3.sound = true := by simp only [s3]; simp +contextual (maxDischargeDepth := 40) [*]
      clear_value kind k s3 waits src
      split
      · refine State.onlyIf_sound h3 _ _ (fun _ h => ?_)
        simp +contextual (maxDischargeDepth := 40) [*]
      · split <;> simp +contextual (maxDischargeDepth := 40) [*]


@[simp] theorem State.visitLane_sound {s : State} (hs : s.sound = true) (q : ℕ) (l : ℕ) (v : CalVisit)  :
    (State.visitLane s q l v).sound = true := by
  unfold State.visitLane; simp +contextual (maxDischargeDepth := 40) [*]

@[simp] theorem State.calVisit_sound {s : State} (hs : s.sound = true) (q : ℕ) (v : CalVisit)  :
    (State.calVisit s q v).sound = true := by
  unfold State.calVisit; simp +contextual (maxDischargeDepth := 40) [*]

theorem execCalVisitEnd_sound {s : State} (hs : s.sound = true) (q : ℕ) (v : CalVisit)  :
    ∀ u, execCalVisitEnd q v s = .next u → u.sound = true := by
  intro u ht; unfold execCalVisitEnd at ht
  refine guarded_sound (fun s hs => ?_) hs ht
  repeat' first | (simp +contextual (maxDischargeDepth := 40) [*]; done) | split | dsimp only | (refine State.forEach_sound ?_ _ _ (fun _ _ _ => ?_)) | (refine State.onlyIf_sound ?_ _ _ (fun _ _ => ?_))

@[simp] theorem State.showSweep_sound {s : State} (hs : s.sound = true) (q : ℕ)  :
    (State.showSweep s q).sound = true := by
  unfold State.showSweep; repeat' first | (simp +contextual (maxDischargeDepth := 40) [*]; done) | split | dsimp only | (refine State.forEach_sound ?_ _ _ (fun _ _ _ => ?_)) | (refine State.onlyIf_sound ?_ _ _ (fun _ _ => ?_))

@[simp] theorem State.beginSweep_sound {s : State} (hs : s.sound = true) (q : ℕ) (e : ℕ) (retest : Bool)  :
    (State.beginSweep s q e retest).sound = true := by
  unfold State.beginSweep; simp +contextual (maxDischargeDepth := 40) [*]

@[simp] theorem State.dropSweeps_sound {s : State} (hs : s.sound = true) (q : ℕ)  :
    (State.dropSweeps s q).sound = true := by
  unfold State.dropSweeps; simp +contextual (maxDischargeDepth := 40) [*]

theorem execSweepStart_sound {s : State} (hs : s.sound = true) (q : ℕ) (e : ℕ)  :
    ∀ u, execSweepStart q e s = .next u → u.sound = true := by
  intro u ht; unfold execSweepStart at ht
  refine guarded_sound (fun s hs => ?_) hs ht
  repeat' first | (simp +contextual (maxDischargeDepth := 40) [*]; done) | split | dsimp only | (refine State.forEach_sound ?_ _ _ (fun _ _ _ => ?_)) | (refine State.onlyIf_sound ?_ _ _ (fun _ _ => ?_))

@[simp] theorem State.endSweep_sound {s : State} (hs : s.sound = true) (q : ℕ)  :
    (State.endSweep s q).sound = true := by
  unfold State.endSweep; simp +contextual (maxDischargeDepth := 40) [*]

@[simp] theorem State.serveDeferred_sound {s : State} (hs : s.sound = true) (q : ℕ)  :
    (State.serveDeferred s q).sound = true := by
  unfold State.serveDeferred; repeat' first | (simp +contextual (maxDischargeDepth := 40) [*]; done) | split | dsimp only | (refine State.forEach_sound ?_ _ _ (fun _ _ _ => ?_)) | (refine State.onlyIf_sound ?_ _ _ (fun _ _ => ?_))

@[simp] theorem State.sweepEnd_sound {s : State} (hs : s.sound = true) (q : ℕ) (r : SweepResult)  :
    (State.sweepEnd s q r).sound = true := by
  unfold State.sweepEnd
  rcases s.sweepOver q false with _ | e
  · exact hs
  · dsimp only
    repeat' first | (simp +contextual (maxDischargeDepth := 40) [*]; done) | split | dsimp only | (refine State.forEach_sound ?_ _ _ (fun _ _ _ => ?_)) | (refine State.onlyIf_sound ?_ _ _ (fun _ _ => ?_))

theorem execSweepDone_sound {s : State} (hs : s.sound = true) (q : ℕ) (r : SweepResult)  :
    ∀ u, execSweepDone q r s = .next u → u.sound = true := by
  intro u ht; unfold execSweepDone at ht
  refine guarded_sound (fun s hs => ?_) hs ht
  repeat' first | (simp +contextual (maxDischargeDepth := 40) [*]; done) | split | dsimp only | (refine State.forEach_sound ?_ _ _ (fun _ _ _ => ?_)) | (refine State.onlyIf_sound ?_ _ _ (fun _ _ => ?_))

@[simp] theorem State.exchangeSets_sound {s : State} (hs : s.sound = true) (q : ℕ) (e : ℕ)  :
    (State.exchangeSets s q e).sound = true := by
  unfold State.exchangeSets; repeat' first | (simp +contextual (maxDischargeDepth := 40) [*]; done) | split | dsimp only | (refine State.forEach_sound ?_ _ _ (fun _ _ _ => ?_)) | (refine State.onlyIf_sound ?_ _ _ (fun _ _ => ?_))

theorem execTableSetExchange_sound {s : State} (hs : s.sound = true) (q : ℕ) (e : ℕ)  :
    ∀ u, execTableSetExchange q e s = .next u → u.sound = true := by
  intro u ht; unfold execTableSetExchange at ht
  refine guarded_sound (fun s hs => ?_) hs ht
  repeat' first | (simp +contextual (maxDischargeDepth := 40) [*]; done) | split | dsimp only | (refine State.forEach_sound ?_ _ _ (fun _ _ _ => ?_)) | (refine State.onlyIf_sound ?_ _ _ (fun _ _ => ?_))

@[simp] theorem State.retestEnd_sound {s : State} (hs : s.sound = true) (q : ℕ) (r : SweepResult)  :
    (State.retestEnd s q r).sound = true := by
  unfold State.retestEnd
  rcases s.sweepOver q true with _ | e
  · exact hs
  · dsimp only
    repeat' first | (simp +contextual (maxDischargeDepth := 40) [*]; done) | split | dsimp only | (refine State.forEach_sound ?_ _ _ (fun _ _ _ => ?_)) | (refine State.onlyIf_sound ?_ _ _ (fun _ _ => ?_))

theorem execRetestDone_sound {s : State} (hs : s.sound = true) (q : ℕ) (r : SweepResult)  :
    ∀ u, execRetestDone q r s = .next u → u.sound = true := by
  intro u ht; unfold execRetestDone at ht
  refine guarded_sound (fun s hs => ?_) hs ht
  repeat' first | (simp +contextual (maxDischargeDepth := 40) [*]; done) | split | dsimp only | (refine State.forEach_sound ?_ _ _ (fun _ _ _ => ?_)) | (refine State.onlyIf_sound ?_ _ _ (fun _ _ => ?_))

@[simp] theorem State.swapBegin_sound {s : State} (hs : s.sound = true) (q : ℕ) (l : ℕ) (reason : ℕ)  :
    (State.swapBegin s q l reason).sound = true := by
  unfold State.swapBegin; simp +contextual (maxDischargeDepth := 40) [*]

theorem execSwapArm_sound {s : State} (hs : s.sound = true) (q : ℕ) (lane : ℕ) (reason : ℕ)  :
    ∀ u, execSwapArm q lane reason s = .next u → u.sound = true := by
  intro u ht; unfold execSwapArm at ht
  refine guarded_sound (fun s hs => ?_) hs ht
  repeat' first | (simp +contextual (maxDischargeDepth := 40) [*]; done) | split | dsimp only | (refine State.forEach_sound ?_ _ _ (fun _ _ _ => ?_)) | (refine State.onlyIf_sound ?_ _ _ (fun _ _ => ?_))

@[simp] theorem State.swapCheck_sound {s : State} (hs : s.sound = true) (q : ℕ) (m : SwapCheck)  :
    (State.swapCheck s q m).sound = true := by
  unfold State.swapCheck; repeat' first | (simp +contextual (maxDischargeDepth := 40) [*]; done) | split | dsimp only | (refine State.forEach_sound ?_ _ _ (fun _ _ _ => ?_)) | (refine State.onlyIf_sound ?_ _ _ (fun _ _ => ?_))

theorem execSwapVerify_sound {s : State} (hs : s.sound = true) (q : ℕ) (m : SwapCheck)  :
    ∀ u, execSwapVerify q m s = .next u → u.sound = true := by
  intro u ht; unfold execSwapVerify at ht
  refine guarded_sound (fun s hs => ?_) hs ht
  repeat' first | (simp +contextual (maxDischargeDepth := 40) [*]; done) | split | dsimp only | (refine State.forEach_sound ?_ _ _ (fun _ _ _ => ?_)) | (refine State.onlyIf_sound ?_ _ _ (fun _ _ => ?_))

@[simp] theorem State.swapOver_sound {s : State} (hs : s.sound = true) (q : ℕ)  :
    (State.swapOver s q).sound = true := by
  unfold State.swapOver; repeat' first | (simp +contextual (maxDischargeDepth := 40) [*]; done) | split | dsimp only | (refine State.forEach_sound ?_ _ _ (fun _ _ _ => ?_)) | (refine State.onlyIf_sound ?_ _ _ (fun _ _ => ?_))

theorem execSwapSwitch_sound {s : State} (hs : s.sound = true) (q : ℕ)  :
    ∀ u, execSwapSwitch q s = .next u → u.sound = true := by
  intro u ht; unfold execSwapSwitch at ht
  refine guarded_sound (fun s hs => ?_) hs ht
  repeat' first | (simp +contextual (maxDischargeDepth := 40) [*]; done) | split | dsimp only | (refine State.forEach_sound ?_ _ _ (fun _ _ _ => ?_)) | (refine State.onlyIf_sound ?_ _ _ (fun _ _ => ?_))

@[simp] theorem State.swapFinish_sound {s : State} (hs : s.sound = true) (q : ℕ)  :
    (State.swapFinish s q).sound = true := by
  unfold State.swapFinish; repeat' first | (simp +contextual (maxDischargeDepth := 40) [*]; done) | split | dsimp only | (refine State.forEach_sound ?_ _ _ (fun _ _ _ => ?_)) | (refine State.onlyIf_sound ?_ _ _ (fun _ _ => ?_))

theorem execSwapDone_sound {s : State} (hs : s.sound = true) (q : ℕ)  :
    ∀ u, execSwapDone q s = .next u → u.sound = true := by
  intro u ht; unfold execSwapDone at ht
  refine guarded_sound (fun s hs => ?_) hs ht
  repeat' first | (simp +contextual (maxDischargeDepth := 40) [*]; done) | split | dsimp only | (refine State.forEach_sound ?_ _ _ (fun _ _ _ => ?_)) | (refine State.onlyIf_sound ?_ _ _ (fun _ _ => ?_))

@[simp] theorem State.remapLane_sound {s : State} (hs : s.sound = true) (q : ℕ)  :
    (State.remapLane s q).sound = true := by
  unfold State.remapLane; repeat' first | (simp +contextual (maxDischargeDepth := 40) [*]; done) | split | dsimp only | (refine State.forEach_sound ?_ _ _ (fun _ _ _ => ?_)) | (refine State.onlyIf_sound ?_ _ _ (fun _ _ => ?_))

theorem execFailedLaneRemap_sound {s : State} (hs : s.sound = true) (q : ℕ)  :
    ∀ u, execFailedLaneRemap q s = .next u → u.sound = true := by
  intro u ht; unfold execFailedLaneRemap at ht
  refine guarded_sound (fun s hs => ?_) hs ht
  repeat' first | (simp +contextual (maxDischargeDepth := 40) [*]; done) | split | dsimp only | (refine State.forEach_sound ?_ _ _ (fun _ _ _ => ?_)) | (refine State.onlyIf_sound ?_ _ _ (fun _ _ => ?_))

@[simp] theorem State.cmdSwapLane_sound {s : State} (hs : s.sound = true) (q : ℕ) (lane : ℕ)  :
    (State.cmdSwapLane s q lane).1.sound = true := by
  unfold State.cmdSwapLane; simp +contextual (maxDischargeDepth := 40) [*]

@[simp] theorem State.cmdResweep_sound {s : State} (hs : s.sound = true) (q : ℕ)  :
    (State.cmdResweep s q).1.sound = true := by
  unfold State.cmdResweep; simp +contextual (maxDischargeDepth := 40) [*]

@[simp] theorem State.cmdRetest_sound {s : State} (hs : s.sound = true) (q : ℕ) (e : ℕ)  :
    (State.cmdRetest s q e).1.sound = true := by
  unfold State.cmdRetest; simp +contextual (maxDischargeDepth := 40) [*]

@[simp] theorem State.swapCmd_sound {s : State} (hs : s.sound = true) (q : ℕ) (v : ℕ)  :
    (State.swapCmd s q v).1.sound = true := by
  unfold State.swapCmd; repeat' first | (simp +contextual (maxDischargeDepth := 40) [*]; done) | split | dsimp only | (refine State.forEach_sound ?_ _ _ (fun _ _ _ => ?_)) | (refine State.onlyIf_sound ?_ _ _ (fun _ _ => ?_))

theorem execTdcFault_sound {s : State} (hs : s.sound = true) (q : ℕ)  :
    ∀ u, execTdcFault q s = .next u → u.sound = true := by
  intro u ht; unfold execTdcFault at ht
  refine guarded_sound (fun s hs => ?_) hs ht
  repeat' first | (simp +contextual (maxDischargeDepth := 40) [*]; done) | split | dsimp only | (refine State.forEach_sound ?_ _ _ (fun _ _ _ => ?_)) | (refine State.onlyIf_sound ?_ _ _ (fun _ _ => ?_))

theorem execEngineTableEcc_sound {s : State} (hs : s.sound = true) (q : ℕ) (e : ℕ) (uncorrectable : Bool)  :
    ∀ u, execEngineTableEcc q e uncorrectable s = .next u → u.sound = true := by
  intro u ht; unfold execEngineTableEcc at ht
  refine guarded_sound (fun s hs => ?_) hs ht
  repeat' first | (simp +contextual (maxDischargeDepth := 40) [*]; done) | split | dsimp only | (refine State.forEach_sound ?_ _ _ (fun _ _ _ => ?_)) | (refine State.onlyIf_sound ?_ _ _ (fun _ _ => ?_))

theorem execDriverFault_sound {s : State} (hs : s.sound = true) (page : ℕ) (bit : ℕ)  :
    ∀ u, execDriverFault page bit s = .next u → u.sound = true := by
  intro u ht; unfold execDriverFault at ht
  refine guarded_sound (fun s hs => ?_) hs ht
  repeat' first | (simp +contextual (maxDischargeDepth := 40) [*]; done) | split | dsimp only | (refine State.forEach_sound ?_ _ _ (fun _ _ _ => ?_)) | (refine State.onlyIf_sound ?_ _ _ (fun _ _ => ?_))

end Sys2Proof.Machine
end

