-- ==== Sys2Proof/Laws/SoundTrig.lean ====
section
/-! SUPPORT. The operations of Trig keep the form of a state. -/

namespace Sys2Proof.Machine

set_option linter.unusedTactic false
set_option linter.unreachableTactic false

@[simp] theorem State.lineStages_sound {s : State} (hs : s.sound = true) (n : ℕ) (e : LineEvent)  :
    (State.lineStages s n e).1.sound = true := by
  unfold State.lineStages; simp +contextual (maxDischargeDepth := 40) [*]

@[simp] theorem State.restartDivider_sound {s : State} (hs : s.sound = true) (n : ℕ)  :
    (State.restartDivider s n).sound = true := by
  unfold State.restartDivider; simp +contextual (maxDischargeDepth := 40) [*]

@[simp] theorem State.hostFire_sound {s : State} (hs : s.sound = true) (v : ℕ)  :
    (State.hostFire s v).1.sound = true := by
  unfold State.hostFire; simp +contextual (maxDischargeDepth := 40) [*]

@[simp] theorem State.hostFiresDue_sound {s : State} (hs : s.sound = true)  :
    (State.hostFiresDue s).sound = true := by
  unfold State.hostFiresDue; simp +contextual (maxDischargeDepth := 40) [*]

theorem execBusEcc_sound {s : State} (hs : s.sound = true)  :
    ∀ u, execBusEcc s = .next u → u.sound = true := by
  intro u ht; unfold execBusEcc at ht
  refine guarded_sound (fun s hs => ?_) hs ht
  repeat' first | (simp +contextual (maxDischargeDepth := 40) [*]; done) | split | dsimp only | (refine State.forEach_sound ?_ _ _ (fun _ _ _ => ?_)) | (refine State.onlyIf_sound ?_ _ _ (fun _ _ => ?_))

end Sys2Proof.Machine
end

