-- ==== Sys2Proof/Laws/SoundBar2.lean ====
section
/-! SUPPORT. The operations of Bar2 keep the form of a state. -/

namespace Sys2Proof.Machine

set_option linter.unusedTactic false
set_option linter.unreachableTactic false

@[simp] theorem State.memPut_sound {s : State} (hs : s.sound = true) (a b : Nat) : (s.memPut a b).sound = true := by
  unfold State.memPut
  split
  · have hm := Memory.wf_set s.bar2 a (BitVec.ofNat 8 b) ‹_› (State.sound_bar2 hs)
    simp only [State.sound_mk]
    exact ⟨State.sound_regs hs, hm, (State.sound_parts hs).2.2⟩
  · exact hs

@[simp] theorem State.memStore_sound {s : State} (hs : s.sound = true) (a : Nat) (l : List Nat) : (s.memStore a l).sound = true := by
  induction l generalizing s a with
  | nil => exact hs
  | cons b l ih => exact ih (State.memPut_sound hs _ _) _

@[simp] theorem State.putReady_sound {s : State} (hs : s.sound = true) (c : ℕ) (b : Bool)  :
    (State.putReady s c b).sound = true := by
  unfold State.putReady; simp +contextual (maxDischargeDepth := 40) [*]

end Sys2Proof.Machine
end

