-- ==== Sys2Proof/Laws/SoundSeq.lean ====
section
/-! SUPPORT. The operations of Seq keep the form of a state. -/

namespace Sys2Proof.Machine

set_option linter.unusedTactic false
set_option linter.unreachableTactic false

@[simp] theorem State.setSeq_sound {s : State} (hs : s.sound = true) (q : ℕ) (x : SeqSt)  :
    (State.setSeq s q x).sound = true := by
  unfold State.setSeq; simp +contextual (maxDischargeDepth := 40) [*]

@[simp] theorem State.seqRecord_sound {s : State} (hs : s.sound = true) (q : ℕ) (kind : ℕ) (t : ℤ) (data : ℕ) (other : ℕ) (course : ℕ)  :
    (State.seqRecord s q kind t data other course).sound = true := by
  unfold State.seqRecord; simp +contextual (maxDischargeDepth := 40) [*]

@[simp] theorem State.seqPutState_sound {s : State} (hs : s.sound = true) (q : ℕ) (st : ℕ) (reason : ℕ) (t : ℤ)  :
    (State.seqPutState s q st reason t).sound = true := by
  unfold State.seqPutState; simp +contextual (maxDischargeDepth := 40) [*]

@[simp] theorem State.bufferRec_sound {s : State} (hs : s.sound = true) (c : ℕ) (r : SeqRec)  :
    (State.bufferRec s c r).sound = true := by
  unfold State.bufferRec; simp +contextual (maxDischargeDepth := 40) [*]

@[simp] theorem State.seqIdle_sound {s : State} (hs : s.sound = true) (q : ℕ) (t : ℤ)  :
    (State.seqIdle s q t).sound = true := by
  unfold State.seqIdle; simp +contextual (maxDischargeDepth := 40) [*]

@[simp] theorem State.seqDropFrom_sound {s : State} (hs : s.sound = true) (q : ℕ) (t : ℤ)  :
    (State.seqDropFrom s q t).sound = true := by
  unfold State.seqDropFrom; simp +contextual (maxDischargeDepth := 40) [*]

@[simp] theorem State.loopBump_sound {s : State} (hs : s.sound = true) (q : ℕ) (c : ℕ)  :
    (State.loopBump s q c).sound = true := by
  unfold State.loopBump; repeat' first | (simp +contextual (maxDischargeDepth := 40) [*]; done) | split | dsimp only | (refine State.forEach_sound ?_ _ _ (fun _ _ _ => ?_)) | (refine State.onlyIf_sound ?_ _ _ (fun _ _ => ?_))

@[simp] theorem State.loopClear_sound {s : State} (hs : s.sound = true) (q : ℕ) (k : ℕ)  :
    (State.loopClear s q k).sound = true := by
  unfold State.loopClear; simp +contextual (maxDischargeDepth := 40) [*]

@[simp] theorem State.loopDrop_sound {s : State} (hs : s.sound = true) (q : ℕ) (c : ℕ)  :
    (State.loopDrop s q c).sound = true := by
  unfold State.loopDrop; repeat' first | (simp +contextual (maxDischargeDepth := 40) [*]; done) | split | dsimp only | (refine State.forEach_sound ?_ _ _ (fun _ _ _ => ?_)) | (refine State.onlyIf_sound ?_ _ _ (fun _ _ => ?_))

@[simp] theorem State.loopDropAll_sound {s : State} (hs : s.sound = true) (q : ℕ)  :
    (State.loopDropAll s q).sound = true := by
  unfold State.loopDropAll; simp +contextual (maxDischargeDepth := 40) [*]

@[simp] theorem State.seqMarkTl_sound {s : State} (hs : s.sound = true) (q : ℕ) (o : SeqOcc)  :
    (State.seqMarkTl s q o).sound = true := by
  unfold State.seqMarkTl; simp +contextual (maxDischargeDepth := 40) [*]

@[simp] theorem State.showSuccessor_sound {s : State} (hs : s.sound = true) (q : ℕ)  :
    (State.showSuccessor s q).sound = true := by
  unfold State.showSuccessor; repeat' first | (simp +contextual (maxDischargeDepth := 40) [*]; done) | split | dsimp only | (refine State.forEach_sound ?_ _ _ (fun _ _ _ => ?_)) | (refine State.onlyIf_sound ?_ _ _ (fun _ _ => ?_))

@[simp] theorem State.clearRequest_sound {s : State} (hs : s.sound = true) (q : ℕ)  :
    (State.clearRequest s q).sound = true := by
  unfold State.clearRequest; simp +contextual (maxDischargeDepth := 40) [*]

@[simp] theorem State.seqStopAt_sound {s : State} (hs : s.sound = true) (q : ℕ) (t : ℤ) (reason : ℕ)  :
    (State.seqStopAt s q t reason).sound = true := by
  unfold State.seqStopAt; simp +contextual (maxDischargeDepth := 40) [*]

@[simp] theorem State.seqStop_sound {s : State} (hs : s.sound = true) (q : ℕ) (t : ℤ) (reason : ℕ)  :
    (State.seqStop s q t reason).sound = true := by
  unfold State.seqStop; simp +contextual (maxDischargeDepth := 40) [*]

@[simp] theorem State.seqBadCourse_sound {s : State} (hs : s.sound = true) (q : ℕ) (t : ℤ)  :
    (State.seqBadCourse s q t).sound = true := by
  unfold State.seqBadCourse; simp +contextual (maxDischargeDepth := 40) [*]

@[simp] theorem State.markReady_sound {s : State} (hs : s.sound = true) (c : ℕ)  :
    (State.markReady s c).sound = true := by
  unfold State.markReady; simp +contextual (maxDischargeDepth := 40) [*]

@[simp] theorem State.seqUnderrun_sound {s : State} (hs : s.sound = true) (q : ℕ) (o : SeqOcc) (succ : ℕ) (via : SeqVia)  :
    (State.seqUnderrun s q o succ via).sound = true := by
  unfold State.seqUnderrun; repeat' first | (simp +contextual (maxDischargeDepth := 40) [*]; done) | split | dsimp only | (refine State.forEach_sound ?_ _ _ (fun _ _ _ => ?_)) | (refine State.onlyIf_sound ?_ _ _ (fun _ _ => ?_))

@[simp] theorem State.seqDecide_sound {s : State} (hs : s.sound = true) (q : ℕ)  :
    (State.seqDecide s q).sound = true := by
  unfold State.seqDecide; repeat' first | (simp +contextual (maxDischargeDepth := 40) [*]; done) | split | dsimp only | (refine State.forEach_sound ?_ _ _ (fun _ _ _ => ?_)) | (refine State.onlyIf_sound ?_ _ _ (fun _ _ => ?_))

@[simp] theorem State.decideBy_sound {s : State} (hs : s.sound = true) (q : ℕ) (r32 : ℤ)  :
    (State.decideBy s q r32).sound = true := by
  unfold State.decideBy; simp +contextual (maxDischargeDepth := 40) [*]

@[simp] theorem State.deferRequest_sound {s : State} (hs : s.sound = true) (q : ℕ)  :
    (State.deferRequest s q).sound = true := by
  unfold State.deferRequest; simp +contextual (maxDischargeDepth := 40) [*]

@[simp] theorem State.takeCut_sound {s : State} (hs : s.sound = true) (q : ℕ) (r32 : ℤ)  :
    (State.takeCut s q r32).sound = true := by
  unfold State.takeCut; repeat' first | (simp +contextual (maxDischargeDepth := 40) [*]; done) | split | dsimp only | (refine State.forEach_sound ?_ _ _ (fun _ _ _ => ?_)) | (refine State.onlyIf_sound ?_ _ _ (fun _ _ => ?_))

@[simp] theorem State.considerRequest_sound {s : State} (hs : s.sound = true) (q : ℕ) (r32 : ℤ)  :
    (State.considerRequest s q r32).sound = true := by
  unfold State.considerRequest; repeat' first | (simp +contextual (maxDischargeDepth := 40) [*]; done) | split | dsimp only | (refine State.forEach_sound ?_ _ _ (fun _ _ _ => ?_)) | (refine State.onlyIf_sound ?_ _ _ (fun _ _ => ?_))

@[simp] theorem State.seqRequest_sound {s : State} (hs : s.sound = true) (q : ℕ) (r32 : ℤ)  :
    (State.seqRequest s q r32).sound = true := by
  unfold State.seqRequest; simp +contextual (maxDischargeDepth := 40) [*]

@[simp] theorem State.setReady_sound {s : State} (hs : s.sound = true) (c : ℕ)  :
    (State.setReady s c).sound = true := by
  unfold State.setReady; repeat' first | (simp +contextual (maxDischargeDepth := 40) [*]; done) | split | dsimp only | (refine State.forEach_sound ?_ _ _ (fun _ _ _ => ?_)) | (refine State.onlyIf_sound ?_ _ _ (fun _ _ => ?_))

@[simp] theorem State.seqFirstFetch_sound {s : State} (hs : s.sound = true) (q : ℕ)  :
    (State.seqFirstFetch s q).sound = true := by
  unfold State.seqFirstFetch; repeat' first | (simp +contextual (maxDischargeDepth := 40) [*]; done) | split | dsimp only | (refine State.forEach_sound ?_ _ _ (fun _ _ _ => ?_)) | (refine State.onlyIf_sound ?_ _ _ (fun _ _ => ?_))

@[simp] theorem State.seqParkFetch_sound {s : State} (hs : s.sound = true) (q : ℕ)  :
    (State.seqParkFetch s q).sound = true := by
  unfold State.seqParkFetch; repeat' first | (simp +contextual (maxDischargeDepth := 40) [*]; done) | split | dsimp only | (refine State.forEach_sound ?_ _ _ (fun _ _ _ => ?_)) | (refine State.onlyIf_sound ?_ _ _ (fun _ _ => ?_))

theorem execSeqDecision_sound {s : State} (hs : s.sound = true) (q : ℕ)  :
    ∀ u, execSeqDecision q s = .next u → u.sound = true := by
  intro u ht; unfold execSeqDecision at ht
  refine guarded_sound (fun s hs => ?_) hs ht
  repeat' first | (simp +contextual (maxDischargeDepth := 40) [*]; done) | split | dsimp only | (refine State.forEach_sound ?_ _ _ (fun _ _ _ => ?_)) | (refine State.onlyIf_sound ?_ _ _ (fun _ _ => ?_))

@[simp] theorem State.jumpTaken_sound {s : State} (hs : s.sound = true) (q : ℕ) (t : ℤ) (data : ℕ) (course : ℕ) (target : ℕ)  :
    (State.jumpTaken s q t data course target).sound = true := by
  unfold State.jumpTaken; simp +contextual (maxDischargeDepth := 40) [*]

@[simp] theorem State.seqCounters_sound {s : State} (hs : s.sound = true) (q : ℕ) (c : ℕ) (n : SeqOcc)  :
    (State.seqCounters s q c n).sound = true := by
  unfold State.seqCounters; repeat' first | (simp +contextual (maxDischargeDepth := 40) [*]; done) | split | dsimp only | (refine State.forEach_sound ?_ _ _ (fun _ _ _ => ?_)) | (refine State.onlyIf_sound ?_ _ _ (fun _ _ => ?_))

@[simp] theorem State.seqMarkers_sound {s : State} (hs : s.sound = true) (q : ℕ) (o : SeqOcc)  :
    (State.seqMarkers s q o).sound = true := by
  unfold State.seqMarkers; simp +contextual (maxDischargeDepth := 40) [*]

@[simp] theorem State.consumeReady_sound {s : State} (hs : s.sound = true) (p : Course) (next : ℕ)  :
    (State.consumeReady s p next).sound = true := by
  unfold State.consumeReady; simp +contextual (maxDischargeDepth := 40) [*]

@[simp] theorem State.seqBegin_sound {s : State} (hs : s.sound = true) (q : ℕ) (n : SeqOcc) (rest : List SeqOcc)  :
    (State.seqBegin s q n rest).sound = true := by
  unfold State.seqBegin; repeat' first | (simp +contextual (maxDischargeDepth := 40) [*]; done) | split | dsimp only | (refine State.forEach_sound ?_ _ _ (fun _ _ _ => ?_)) | (refine State.onlyIf_sound ?_ _ _ (fun _ _ => ?_))

@[simp] theorem State.seqPark_sound {s : State} (hs : s.sound = true) (q : ℕ) (b : ℤ)  :
    (State.seqPark s q b).sound = true := by
  unfold State.seqPark
  extract_lets s1
  have h_s1 : s1.sound = true := by simp only [s1]; repeat' first | (simp +contextual (maxDischargeDepth := 40) [*]; done) | split | dsimp only | (refine State.forEach_sound ?_ _ _ (fun _ _ _ => ?_)) | (refine State.onlyIf_sound ?_ _ _ (fun _ _ => ?_))
  clear_value s1
  repeat' first | (simp +contextual (maxDischargeDepth := 40) [*]; done) | split | dsimp only | (refine State.forEach_sound ?_ _ _ (fun _ _ _ => ?_)) | (refine State.onlyIf_sound ?_ _ _ (fun _ _ => ?_))

@[simp] theorem State.seqAdvance_sound {s : State} (hs : s.sound = true) (q : ℕ)  :
    (State.seqAdvance s q).sound = true := by
  unfold State.seqAdvance; repeat' first | (simp +contextual (maxDischargeDepth := 40) [*]; done) | split | dsimp only | (refine State.forEach_sound ?_ _ _ (fun _ _ _ => ?_)) | (refine State.onlyIf_sound ?_ _ _ (fun _ _ => ?_))

theorem execSeqOccurrenceStart_sound {s : State} (hs : s.sound = true) (q : ℕ)  :
    ∀ u, execSeqOccurrenceStart q s = .next u → u.sound = true := by
  intro u ht; unfold execSeqOccurrenceStart at ht
  refine guarded_sound (fun s hs => ?_) hs ht
  repeat' first | (simp +contextual (maxDischargeDepth := 40) [*]; done) | split | dsimp only | (refine State.forEach_sound ?_ _ _ (fun _ _ _ => ?_)) | (refine State.onlyIf_sound ?_ _ _ (fun _ _ => ?_))

theorem execSeqCut_sound {s : State} (hs : s.sound = true) (q : ℕ)  :
    ∀ u, execSeqCut q s = .next u → u.sound = true := by
  intro u ht; unfold execSeqCut at ht
  refine guarded_sound (fun s hs => ?_) hs ht
  repeat' first | (simp +contextual (maxDischargeDepth := 40) [*]; done) | split | dsimp only | (refine State.forEach_sound ?_ _ _ (fun _ _ _ => ?_)) | (refine State.onlyIf_sound ?_ _ _ (fun _ _ => ?_))

theorem execSeqParkResume_sound {s : State} (hs : s.sound = true) (q : ℕ)  :
    ∀ u, execSeqParkResume q s = .next u → u.sound = true := by
  intro u ht; unfold execSeqParkResume at ht
  refine guarded_sound (fun s hs => ?_) hs ht
  repeat' first | (simp +contextual (maxDischargeDepth := 40) [*]; done) | split | dsimp only | (refine State.forEach_sound ?_ _ _ (fun _ _ _ => ?_)) | (refine State.onlyIf_sound ?_ _ _ (fun _ _ => ?_))

theorem execSeqStop_sound {s : State} (hs : s.sound = true) (q : ℕ)  :
    ∀ u, execSeqStop q s = .next u → u.sound = true := by
  intro u ht; unfold execSeqStop at ht
  refine guarded_sound (fun s hs => ?_) hs ht
  repeat' first | (simp +contextual (maxDischargeDepth := 40) [*]; done) | split | dsimp only | (refine State.forEach_sound ?_ _ _ (fun _ _ _ => ?_)) | (refine State.onlyIf_sound ?_ _ _ (fun _ _ => ?_))

@[simp] theorem State.putBank_sound {s : State} (hs : s.sound = true) (q : ℕ) (d : ℕ) (i : ℕ) (b : SeqBank)  :
    (State.putBank s q d i b).sound = true := by
  unfold State.putBank; simp +contextual (maxDischargeDepth := 40) [*]

@[simp] theorem State.recordError_sound {s : State} (hs : s.sound = true) (q : ℕ)  :
    (State.recordError s q).sound = true := by
  unfold State.recordError; simp +contextual (maxDischargeDepth := 40) [*]

@[simp] theorem State.playRecord_sound {s : State} (hs : s.sound = true) (q : ℕ) (d : ℕ) (v : ℕ) (o : SeqOcc)  :
    (State.playRecord s q d v o).sound = true := by
  unfold State.playRecord; simp +contextual (maxDischargeDepth := 40) [*]

@[simp] theorem State.consumeRecord_sound {s : State} (hs : s.sound = true) (q : ℕ) (d : ℕ) (i : ℕ) (o : SeqOcc) (v : ℕ)  :
    (State.consumeRecord s q d i o v).sound = true := by
  unfold State.consumeRecord; simp +contextual (maxDischargeDepth := 40) [*]

@[simp] theorem State.playOp_sound {s : State} (hs : s.sound = true) (q : ℕ) (op : ℕ)  :
    (State.playOp s q op).sound = true := by
  unfold State.playOp; repeat' first | (simp +contextual (maxDischargeDepth := 40) [*]; done) | split | dsimp only | (refine State.forEach_sound ?_ _ _ (fun _ _ _ => ?_)) | (refine State.onlyIf_sound ?_ _ _ (fun _ _ => ?_))

theorem execEdgeHi_sound {s : State} (hs : s.sound = true) (q : ℕ)  :
    ∀ u, execEdgeHi q s = .next u → u.sound = true := by
  intro u ht; unfold execEdgeHi at ht
  refine guarded_sound (fun s hs => ?_) hs ht
  repeat' first | (simp +contextual (maxDischargeDepth := 40) [*]; done) | split | dsimp only | (refine State.forEach_sound ?_ _ _ (fun _ _ _ => ?_)) | (refine State.onlyIf_sound ?_ _ _ (fun _ _ => ?_))

theorem execEdgeLo_sound {s : State} (hs : s.sound = true) (q : ℕ)  :
    ∀ u, execEdgeLo q s = .next u → u.sound = true := by
  intro u ht; unfold execEdgeLo at ht
  refine guarded_sound (fun s hs => ?_) hs ht
  repeat' first | (simp +contextual (maxDischargeDepth := 40) [*]; done) | split | dsimp only | (refine State.forEach_sound ?_ _ _ (fun _ _ _ => ?_)) | (refine State.onlyIf_sound ?_ _ _ (fun _ _ => ?_))

theorem execToggle_sound {s : State} (hs : s.sound = true) (q : ℕ)  :
    ∀ u, execToggle q s = .next u → u.sound = true := by
  intro u ht; unfold execToggle at ht
  refine guarded_sound (fun s hs => ?_) hs ht
  repeat' first | (simp +contextual (maxDischargeDepth := 40) [*]; done) | split | dsimp only | (refine State.forEach_sound ?_ _ _ (fun _ _ _ => ?_)) | (refine State.onlyIf_sound ?_ _ _ (fun _ _ => ?_))

theorem execMark_sound {s : State} (hs : s.sound = true) (q : ℕ)  :
    ∀ u, execMark q s = .next u → u.sound = true := by
  intro u ht; unfold execMark at ht
  refine guarded_sound (fun s hs => ?_) hs ht
  repeat' first | (simp +contextual (maxDischargeDepth := 40) [*]; done) | split | dsimp only | (refine State.forEach_sound ?_ _ _ (fun _ _ _ => ?_)) | (refine State.onlyIf_sound ?_ _ _ (fun _ _ => ?_))

theorem execRecordNop_sound {s : State} (hs : s.sound = true) (q : ℕ)  :
    ∀ u, execRecordNop q s = .next u → u.sound = true := by
  intro u ht; unfold execRecordNop at ht
  refine guarded_sound (fun s hs => ?_) hs ht
  repeat' first | (simp +contextual (maxDischargeDepth := 40) [*]; done) | split | dsimp only | (refine State.forEach_sound ?_ _ _ (fun _ _ _ => ?_)) | (refine State.onlyIf_sound ?_ _ _ (fun _ _ => ?_))

theorem execRecordEnd_sound {s : State} (hs : s.sound = true) (q : ℕ)  :
    ∀ u, execRecordEnd q s = .next u → u.sound = true := by
  intro u ht; unfold execRecordEnd at ht
  refine guarded_sound (fun s hs => ?_) hs ht
  repeat' first | (simp +contextual (maxDischargeDepth := 40) [*]; done) | split | dsimp only | (refine State.forEach_sound ?_ _ _ (fun _ _ _ => ?_)) | (refine State.onlyIf_sound ?_ _ _ (fun _ _ => ?_))

theorem execBankEcc_sound {s : State} (hs : s.sound = true) (q : ℕ) (granule : ℕ) (uncorrectable : Bool)  :
    ∀ u, execBankEcc q granule uncorrectable s = .next u → u.sound = true := by
  intro u ht; unfold execBankEcc at ht
  refine guarded_sound (fun s hs => ?_) hs ht
  repeat' first | (simp +contextual (maxDischargeDepth := 40) [*]; done) | split | dsimp only | (refine State.forEach_sound ?_ _ _ (fun _ _ _ => ?_)) | (refine State.onlyIf_sound ?_ _ _ (fun _ _ => ?_))

theorem execCourseTableEcc_sound {s : State} (hs : s.sound = true) (c : ℕ) (uncorrectable : Bool)  :
    ∀ u, execCourseTableEcc c uncorrectable s = .next u → u.sound = true := by
  intro u ht; unfold execCourseTableEcc at ht
  refine guarded_sound (fun s hs => ?_) hs ht
  repeat' first | (simp +contextual (maxDischargeDepth := 40) [*]; done) | split | dsimp only | (refine State.forEach_sound ?_ _ _ (fun _ _ _ => ?_)) | (refine State.onlyIf_sound ?_ _ _ (fun _ _ => ?_))

@[simp] theorem State.activeDrop_sound {s : State} (hs : s.sound = true) (q : ℕ) (a : ℕ)  :
    (State.activeDrop s q a).sound = true := by
  unfold State.activeDrop; simp +contextual (maxDischargeDepth := 40) [*]

@[simp] theorem State.courseDrop_sound {s : State} (hs : s.sound = true) (c : ℕ)  :
    (State.courseDrop s c).sound = true := by
  unfold State.courseDrop; simp +contextual (maxDischargeDepth := 40) [*]

@[simp] theorem State.bar2Drop_sound {s : State} (hs : s.sound = true)  :
    (State.bar2Drop s).sound = true := by
  unfold State.bar2Drop; simp +contextual (maxDischargeDepth := 40) [*]

@[simp] theorem State.bar2Store_sound {s : State} (hs : s.sound = true) (a : ℕ) (bytes : List ℕ)  :
    (State.bar2Store s a bytes).sound = true := by
  unfold State.bar2Store; simp +contextual (maxDischargeDepth := 40) [*]

@[simp] theorem State.bar2Write_sound {s : State} (hs : s.sound = true) (a : ℕ) (bytes : List ℕ)  :
    (State.bar2Write s a bytes).sound = true := by
  unfold State.bar2Write
  extract_lets parts s1 s2 s3
  have h_s1 : s1.sound = true := by simp only [s1]; repeat' first | (simp +contextual (maxDischargeDepth := 40) [*]; done) | split | dsimp only | (refine State.forEach_sound ?_ _ _ (fun _ _ _ => ?_)) | (refine State.onlyIf_sound ?_ _ _ (fun _ _ => ?_))
  clear_value s1
  have h_s2 : s2.sound = true := by simp only [s2]; repeat' first | (simp +contextual (maxDischargeDepth := 40) [*]; done) | split | dsimp only | (refine State.forEach_sound ?_ _ _ (fun _ _ _ => ?_)) | (refine State.onlyIf_sound ?_ _ _ (fun _ _ => ?_))
  clear_value s2
  have h_s3 : s3.sound = true := by simp only [s3]; repeat' first | (simp +contextual (maxDischargeDepth := 40) [*]; done) | split | dsimp only | (refine State.forEach_sound ?_ _ _ (fun _ _ _ => ?_)) | (refine State.onlyIf_sound ?_ _ _ (fun _ _ => ?_))
  clear_value s3
  repeat' first | (simp +contextual (maxDischargeDepth := 40) [*]; done) | split | dsimp only | (refine State.forEach_sound ?_ _ _ (fun _ _ _ => ?_)) | (refine State.onlyIf_sound ?_ _ _ (fun _ _ => ?_))

@[simp] theorem State.refillShow_sound {s : State} (hs : s.sound = true) (q : ℕ)  :
    (State.refillShow s q).sound = true := by
  unfold State.refillShow; simp +contextual (maxDischargeDepth := 40) [*]

@[simp] theorem State.refillEnded_sound {s : State} (hs : s.sound = true) (q : ℕ) (r : Refill) (failed : Bool) (set : Bool)  :
    (State.refillEnded s q r failed set).sound = true := by
  unfold State.refillEnded; simp +contextual (maxDischargeDepth := 40) [*]

@[simp] theorem State.refillSubmit_sound {s : State} (hs : s.sound = true) (agent : ℕ) (q : ℕ)  :
    (State.refillSubmit s agent q).1.sound = true := by
  unfold State.refillSubmit; simp +contextual (maxDischargeDepth := 40) [*]

@[simp] theorem State.refillFlush_sound {s : State} (hs : s.sound = true) (q : ℕ)  :
    (State.refillFlush s q).1.sound = true := by
  unfold State.refillFlush; simp +contextual (maxDischargeDepth := 40) [*]

@[simp] theorem State.refillFinish_sound {s : State} (hs : s.sound = true) (q : ℕ) (bytes : List ℕ)  :
    (State.refillFinish s q bytes).sound = true := by
  unfold State.refillFinish; repeat' first | (simp +contextual (maxDischargeDepth := 40) [*]; done) | split | dsimp only | (refine State.forEach_sound ?_ _ _ (fun _ _ _ => ?_)) | (refine State.onlyIf_sound ?_ _ _ (fun _ _ => ?_))

@[simp] theorem State.refillError_sound {s : State} (hs : s.sound = true) (q : ℕ)  :
    (State.refillError s q).sound = true := by
  unfold State.refillError; simp +contextual (maxDischargeDepth := 40) [*]

theorem execRefillDone_sound {s : State} (hs : s.sound = true) (q : ℕ) (bytes : List ℕ)  :
    ∀ u, execRefillDone q bytes s = .next u → u.sound = true := by
  intro u ht; unfold execRefillDone at ht
  refine guarded_sound (fun s hs => ?_) hs ht
  repeat' first | (simp +contextual (maxDischargeDepth := 40) [*]; done) | split | dsimp only | (refine State.forEach_sound ?_ _ _ (fun _ _ _ => ?_)) | (refine State.onlyIf_sound ?_ _ _ (fun _ _ => ?_))

theorem execRefillDmaError_sound {s : State} (hs : s.sound = true) (q : ℕ)  :
    ∀ u, execRefillDmaError q s = .next u → u.sound = true := by
  intro u ht; unfold execRefillDmaError at ht
  refine guarded_sound (fun s hs => ?_) hs ht
  repeat' first | (simp +contextual (maxDischargeDepth := 40) [*]; done) | split | dsimp only | (refine State.forEach_sound ?_ _ _ (fun _ _ _ => ?_)) | (refine State.onlyIf_sound ?_ _ _ (fun _ _ => ?_))

@[simp] theorem State.seqStartAt_sound {s : State} (hs : s.sound = true) (q : ℕ) (mode : ℕ) (c : ℕ) (s0 : ℤ)  :
    (State.seqStartAt s q mode c s0).1.sound = true := by
  unfold State.seqStartAt; simp +contextual (maxDischargeDepth := 40) [*]

@[simp] theorem State.seqStart_sound {s : State} (hs : s.sound = true) (q : ℕ)  :
    (State.seqStart s q).1.sound = true := by
  unfold State.seqStart; simp +contextual (maxDischargeDepth := 40) [*]

@[simp] theorem State.seqTriggered_sound {s : State} (hs : s.sound = true) (q : ℕ) (t : ℕ) (teb : ℕ)  :
    (State.seqTriggered s q t teb).sound = true := by
  unfold State.seqTriggered; repeat' first | (simp +contextual (maxDischargeDepth := 40) [*]; done) | split | dsimp only | (refine State.forEach_sound ?_ _ _ (fun _ _ _ => ?_)) | (refine State.onlyIf_sound ?_ _ _ (fun _ _ => ?_))

@[simp] theorem State.seqStopEnd_sound {s : State} (hs : s.sound = true) (q : ℕ)  :
    (State.seqStopEnd s q).1.sound = true := by
  unfold State.seqStopEnd; simp +contextual (maxDischargeDepth := 40) [*]

@[simp] theorem State.seqHaltFrom_sound {s : State} (hs : s.sound = true) (q : ℕ) (t : ℤ)  :
    (State.seqHaltFrom s q t).sound = true := by
  unfold State.seqHaltFrom; simp +contextual (maxDischargeDepth := 40) [*]

@[simp] theorem State.seqStopParked_sound {s : State} (hs : s.sound = true) (q : ℕ) (reason : ℕ)  :
    (State.seqStopParked s q reason).sound = true := by
  unfold State.seqStopParked; simp +contextual (maxDischargeDepth := 40) [*]

@[simp] theorem State.seqStopNow_sound {s : State} (hs : s.sound = true) (q : ℕ)  :
    (State.seqStopNow s q).1.sound = true := by
  unfold State.seqStopNow; repeat' first | (simp +contextual (maxDischargeDepth := 40) [*]; done) | split | dsimp only | (refine State.forEach_sound ?_ _ _ (fun _ _ _ => ?_)) | (refine State.onlyIf_sound ?_ _ _ (fun _ _ => ?_))

@[simp] theorem State.seqJump_sound {s : State} (hs : s.sound = true) (q : ℕ)  :
    (State.seqJump s q).1.sound = true := by
  unfold State.seqJump; simp +contextual (maxDischargeDepth := 40) [*]

@[simp] theorem State.seqClear_sound {s : State} (hs : s.sound = true) (q : ℕ)  :
    (State.seqClear s q).1.sound = true := by
  unfold State.seqClear; simp +contextual (maxDischargeDepth := 40) [*]

@[simp] theorem State.seqDisarm_sound {s : State} (hs : s.sound = true) (q : ℕ)  :
    (State.seqDisarm s q).1.sound = true := by
  unfold State.seqDisarm; simp +contextual (maxDischargeDepth := 40) [*]

@[simp] theorem State.seqCmd_sound {s : State} (hs : s.sound = true) (q : ℕ) (v : ℕ)  :
    (State.seqCmd s q v).1.sound = true := by
  unfold State.seqCmd; repeat' first | (simp +contextual (maxDischargeDepth := 40) [*]; done) | split | dsimp only | (refine State.forEach_sound ?_ _ _ (fun _ _ _ => ?_)) | (refine State.onlyIf_sound ?_ _ _ (fun _ _ => ?_))

@[simp] theorem State.refillCmd_sound {s : State} (hs : s.sound = true) (agent : ℕ) (q : ℕ) (v : ℕ)  :
    (State.refillCmd s agent q v).1.sound = true := by
  unfold State.refillCmd; repeat' first | (simp +contextual (maxDischargeDepth := 40) [*]; done) | split | dsimp only | (refine State.forEach_sound ?_ _ _ (fun _ _ _ => ?_)) | (refine State.onlyIf_sound ?_ _ _ (fun _ _ => ?_))

@[simp] theorem State.seqOrphan_sound {s : State} (hs : s.sound = true) (q : ℕ)  :
    (State.seqOrphan s q).sound = true := by
  unfold State.seqOrphan; repeat' first | (simp +contextual (maxDischargeDepth := 40) [*]; done) | split | dsimp only | (refine State.forEach_sound ?_ _ _ (fun _ _ _ => ?_)) | (refine State.onlyIf_sound ?_ _ _ (fun _ _ => ?_))

@[simp] theorem State.seqDeviceSafe_sound {s : State} (hs : s.sound = true) (q : ℕ)  :
    (State.seqDeviceSafe s q).sound = true := by
  unfold State.seqDeviceSafe; simp +contextual (maxDischargeDepth := 40) [*]

@[simp] theorem State.seqStep_sound {s : State} (hs : s.sound = true) (q : ℕ) (d : ℤ)  :
    (State.seqStep s q d).sound = true := by
  unfold State.seqStep; repeat' first | (simp +contextual (maxDischargeDepth := 40) [*]; done) | split | dsimp only | (refine State.forEach_sound ?_ _ _ (fun _ _ _ => ?_)) | (refine State.onlyIf_sound ?_ _ _ (fun _ _ => ?_))

@[simp] theorem State.readySetCmd_sound {s : State} (hs : s.sound = true)  :
    (State.readySetCmd s).1.sound = true := by
  unfold State.readySetCmd; simp +contextual (maxDischargeDepth := 40) [*]

@[simp] theorem State.readyClearCmd_sound {s : State} (hs : s.sound = true)  :
    (State.readyClearCmd s).1.sound = true := by
  unfold State.readyClearCmd; simp +contextual (maxDischargeDepth := 40) [*]

@[simp] theorem State.validateCmd_sound {s : State} (hs : s.sound = true) (agent : ℕ)  :
    (State.validateCmd s agent).1.sound = true := by
  unfold State.validateCmd; repeat' first | (simp +contextual (maxDischargeDepth := 40) [*]; done) | split | dsimp only | (refine State.forEach_sound ?_ _ _ (fun _ _ _ => ?_)) | (refine State.onlyIf_sound ?_ _ _ (fun _ _ => ?_))

@[simp] theorem State.readyCmd_sound {s : State} (hs : s.sound = true) (agent : ℕ) (v : ℕ)  :
    (State.readyCmd s agent v).1.sound = true := by
  unfold State.readyCmd; repeat' first | (simp +contextual (maxDischargeDepth := 40) [*]; done) | split | dsimp only | (refine State.forEach_sound ?_ _ _ (fun _ _ _ => ?_)) | (refine State.onlyIf_sound ?_ _ _ (fun _ _ => ?_))

end Sys2Proof.Machine
end

