-- ==== Sys2Proof/Laws/SoundSync.lean ====
section
/-! SUPPORT. The operations of Sync keep the form of a state. -/

namespace Sys2Proof.Machine

set_option linter.unusedTactic false
set_option linter.unreachableTactic false

@[simp] theorem State.syncUnresolve_sound {s : State} (hs : s.sound = true)  :
    (State.syncUnresolve s).sound = true := by
  unfold State.syncUnresolve; simp +contextual (maxDischargeDepth := 40) [*]

@[simp] theorem State.syncSlot_sound {s : State} (hs : s.sound = true)  :
    (State.syncSlot s).sound = true := by
  unfold State.syncSlot; simp +contextual (maxDischargeDepth := 40) [*]

@[simp] theorem State.syncIn_sound {s : State} (hs : s.sound = true) (t : ℕ) (growth : ℕ)  :
    (State.syncIn s t growth).sound = true := by
  unfold State.syncIn; simp +contextual (maxDischargeDepth := 40) [*]

@[simp] theorem State.syncCross_sound {s : State} (hs : s.sound = true) (t : ℕ) (rising : Bool) (growth : ℕ)  :
    (State.syncCross s t rising growth).sound = true := by
  unfold State.syncCross; simp +contextual (maxDischargeDepth := 40) [*]

theorem execSyncInEvent_sound {s : State} (hs : s.sound = true) (t : ℕ) (rising : Bool) (growth : ℕ)  :
    ∀ u, execSyncInEvent t rising growth s = .next u → u.sound = true := by
  intro u ht; unfold execSyncInEvent at ht
  refine guarded_sound (fun s hs => ?_) hs ht
  repeat' first | (simp +contextual (maxDischargeDepth := 40) [*]; done) | split | dsimp only | (refine State.forEach_sound ?_ _ _ (fun _ _ _ => ?_)) | (refine State.onlyIf_sound ?_ _ _ (fun _ _ => ?_))

@[simp] theorem State.syncOut_sound {s : State} (hs : s.sound = true) (t : ℤ)  :
    (State.syncOut s t).sound = true := by
  unfold State.syncOut; simp +contextual (maxDischargeDepth := 40) [*]

theorem execSyncOutPulse_sound {s : State} (hs : s.sound = true) (t : ℕ)  :
    ∀ u, execSyncOutPulse t s = .next u → u.sound = true := by
  intro u ht; unfold execSyncOutPulse at ht
  refine guarded_sound (fun s hs => ?_) hs ht
  repeat' first | (simp +contextual (maxDischargeDepth := 40) [*]; done) | split | dsimp only | (refine State.forEach_sound ?_ _ _ (fun _ _ _ => ?_)) | (refine State.onlyIf_sound ?_ _ _ (fun _ _ => ?_))

theorem execPpsPulse_sound {s : State} (hs : s.sound = true) (sec : ℕ)  :
    ∀ u, execPpsPulse sec s = .next u → u.sound = true := by
  intro u ht; unfold execPpsPulse at ht
  refine guarded_sound (fun s hs => ?_) hs ht
  repeat' first | (simp +contextual (maxDischargeDepth := 40) [*]; done) | split | dsimp only | (refine State.forEach_sound ?_ _ _ (fun _ _ _ => ?_)) | (refine State.onlyIf_sound ?_ _ _ (fun _ _ => ?_))

@[simp] theorem State.syncStep_sound {s : State} (hs : s.sound = true) (d : ℤ)  :
    (State.syncStep s d).sound = true := by
  unfold State.syncStep; simp +contextual (maxDischargeDepth := 40) [*]

end Sys2Proof.Machine
end

