-- ==== Sys2Proof/Laws/SoundPhase.lean ====
section
/-! SUPPORT. The operations of Phase keep the form of a state. -/

namespace Sys2Proof.Machine

set_option linter.unusedTactic false
set_option linter.unreachableTactic false

@[simp] theorem State.setPhase_sound {s : State} (hs : s.sound = true) (t : ℕ) (x : PhaseSt)  :
    (State.setPhase s t x).sound = true := by
  unfold State.setPhase; simp +contextual (maxDischargeDepth := 40) [*]

@[simp] theorem State.showFit_sound {s : State} (hs : s.sound = true) (t : ℕ) (f : PhaseFit)  :
    (State.showFit s t f).sound = true := by
  unfold State.showFit; simp +contextual (maxDischargeDepth := 40) [*]

@[simp] theorem State.refreshFit_sound {s : State} (hs : s.sound = true) (t : ℕ)  :
    (State.refreshFit s t).sound = true := by
  unfold State.refreshFit; repeat' first | (simp +contextual (maxDischargeDepth := 40) [*]; done) | split | dsimp only | (refine State.forEach_sound ?_ _ _ (fun _ _ _ => ?_)) | (refine State.onlyIf_sound ?_ _ _ (fun _ _ => ?_))

@[simp] theorem State.phaseAccept_sound {s : State} (hs : s.sound = true) (t : ℕ) (j : ℤ) (at_ : ℤ)  :
    (State.phaseAccept s t j at_).sound = true := by
  unfold State.phaseAccept; repeat' first | (simp +contextual (maxDischargeDepth := 40) [*]; done) | split | dsimp only | (refine State.forEach_sound ?_ _ _ (fun _ _ _ => ?_)) | (refine State.onlyIf_sound ?_ _ _ (fun _ _ => ?_))

@[simp] theorem State.putPhaseState_sound {s : State} (hs : s.sound = true) (t : ℕ) (st : ℕ)  :
    (State.putPhaseState s t st).sound = true := by
  unfold State.putPhaseState; simp +contextual (maxDischargeDepth := 40) [*]

@[simp] theorem State.reacquire_sound {s : State} (hs : s.sound = true) (t : ℕ) (j : ℤ)  :
    (State.reacquire s t j).sound = true := by
  unfold State.reacquire; simp +contextual (maxDischargeDepth := 40) [*]

@[simp] theorem State.phaseAcquire_sound {s : State} (hs : s.sound = true) (t : ℕ) (at_ : ℤ)  :
    (State.phaseAcquire s t at_).sound = true := by
  unfold State.phaseAcquire; simp +contextual (maxDischargeDepth := 40) [*]

@[simp] theorem State.phaseSlip_sound {s : State} (hs : s.sound = true) (t : ℕ) (j : ℤ) (e : ℤ) (at_ : ℤ)  :
    (State.phaseSlip s t j e at_).sound = true := by
  unfold State.phaseSlip; simp +contextual (maxDischargeDepth := 40) [*]

@[simp] theorem State.phaseTrack_sound {s : State} (hs : s.sound = true) (t : ℕ) (at_ : ℤ)  :
    (State.phaseTrack s t at_).sound = true := by
  unfold State.phaseTrack; repeat' first | (simp +contextual (maxDischargeDepth := 40) [*]; done) | split | dsimp only | (refine State.forEach_sound ?_ _ _ (fun _ _ _ => ?_)) | (refine State.onlyIf_sound ?_ _ _ (fun _ _ => ?_))

@[simp] theorem State.phaseStamp_sound {s : State} (hs : s.sound = true) (t : ℕ) (at_ : ℤ)  :
    (State.phaseStamp s t at_).sound = true := by
  unfold State.phaseStamp; repeat' first | (simp +contextual (maxDischargeDepth := 40) [*]; done) | split | dsimp only | (refine State.forEach_sound ?_ _ _ (fun _ _ _ => ?_)) | (refine State.onlyIf_sound ?_ _ _ (fun _ _ => ?_))

theorem execPhaseSourceLost_sound {s : State} (hs : s.sound = true) (t : ℕ)  :
    ∀ u, execPhaseSourceLost t s = .next u → u.sound = true := by
  intro u ht; unfold execPhaseSourceLost at ht
  refine guarded_sound (fun s hs => ?_) hs ht
  repeat' first | (simp +contextual (maxDischargeDepth := 40) [*]; done) | split | dsimp only | (refine State.forEach_sound ?_ _ _ (fun _ _ _ => ?_)) | (refine State.onlyIf_sound ?_ _ _ (fun _ _ => ?_))

@[simp] theorem State.phaseRestart_sound {s : State} (hs : s.sound = true) (t : ℕ)  :
    (State.phaseRestart s t).sound = true := by
  unfold State.phaseRestart; simp +contextual (maxDischargeDepth := 40) [*]

@[simp] theorem State.phaseStart_sound {s : State} (hs : s.sound = true) (t : ℕ)  :
    (State.phaseStart s t).sound = true := by
  unfold State.phaseStart; simp +contextual (maxDischargeDepth := 40) [*]

@[simp] theorem State.phaseStop_sound {s : State} (hs : s.sound = true) (t : ℕ)  :
    (State.phaseStop s t).sound = true := by
  unfold State.phaseStop; simp +contextual (maxDischargeDepth := 40) [*]

@[simp] theorem State.phaseStep_sound {s : State} (hs : s.sound = true) (t : ℕ) (d : ℤ)  :
    (State.phaseStep s t d).sound = true := by
  unfold State.phaseStep; simp +contextual (maxDischargeDepth := 40) [*]

@[simp] theorem State.phaseEvent_sound {s : State} (hs : s.sound = true) (t : ℕ)  :
    (State.phaseEvent s t).sound = true := by
  unfold State.phaseEvent; repeat' first | (simp +contextual (maxDischargeDepth := 40) [*]; done) | split | dsimp only | (refine State.forEach_sound ?_ _ _ (fun _ _ _ => ?_)) | (refine State.onlyIf_sound ?_ _ _ (fun _ _ => ?_))

end Sys2Proof.Machine
end

