-- ==== Sys2Proof/Laws/SoundSched.lean ====
section
/-! SUPPORT. The operations of Sched keep the form of a state. -/

namespace Sys2Proof.Machine

set_option linter.unusedTactic false
set_option linter.unreachableTactic false

@[simp] theorem State.setQueue_sound {s : State} (hs : s.sound = true) (q : ℕ) (x : QueueSt)  :
    (State.setQueue s q x).sound = true := by
  unfold State.setQueue; simp +contextual (maxDischargeDepth := 40) [*]

@[simp] theorem State.tickStart_sound {s : State} (hs : s.sound = true) (n : ℕ)  :
    (State.tickStart s n).sound = true := by
  unfold State.tickStart; simp +contextual (maxDischargeDepth := 40) [*]

@[simp] theorem State.tickDeliver_sound {s : State} (hs : s.sound = true) (n : ℕ)  :
    (State.tickDeliver s n).sound = true := by
  unfold State.tickDeliver; simp +contextual (maxDischargeDepth := 40) [*]

theorem execTickDelivery_sound {s : State} (hs : s.sound = true) (n : ℕ)  :
    ∀ u, execTickDelivery n s = .next u → u.sound = true := by
  intro u ht; unfold execTickDelivery at ht
  refine guarded_sound (fun s hs => ?_) hs ht
  repeat' first | (simp +contextual (maxDischargeDepth := 40) [*]; done) | split | dsimp only | (refine State.forEach_sound ?_ _ _ (fun _ _ _ => ?_)) | (refine State.onlyIf_sound ?_ _ _ (fun _ _ => ?_))

@[simp] theorem State.tickStep_sound {s : State} (hs : s.sound = true) (n : ℕ) (now32 : ℤ)  :
    (State.tickStep s n now32).sound = true := by
  unfold State.tickStep; simp +contextual (maxDischargeDepth := 40) [*]

@[simp] theorem State.schedLog_sound {s : State} (hs : s.sound = true) (a : Action) (actual : ℤ) (outcome : ℕ) (result : ℕ) (gate : ℕ)  :
    (State.schedLog s a actual outcome result gate).sound = true := by
  unfold State.schedLog; simp +contextual (maxDischargeDepth := 40) [*]

@[simp] theorem State.gateValue_sound {s : State} (hs : s.sound = true) (gate : Option ℕ) (actual : ℤ) (executed : Bool)  :
    (State.gateValue s gate actual executed).2.sound = true := by
  unfold State.gateValue; repeat' first | (simp +contextual (maxDischargeDepth := 40) [*]; done) | split | dsimp only | (refine State.forEach_sound ?_ _ _ (fun _ _ _ => ?_)) | (refine State.onlyIf_sound ?_ _ _ (fun _ _ => ?_))

@[simp] theorem State.logDropped_sound {s : State} (hs : s.sound = true) (a : Action) (outcome : ℕ) (result : ℕ)  :
    (State.logDropped s a outcome result).sound = true := by
  unfold State.logDropped; simp +contextual (maxDischargeDepth := 40) [*]

@[simp] theorem State.offer_sound {s : State} (hs : s.sound = true) (q : ℕ) (idx : ℕ) (v : ℕ)  :
    (State.offer s q idx v).1.sound = true := by
  unfold State.offer; repeat' first | (simp +contextual (maxDischargeDepth := 40) [*]; done) | split | dsimp only | (refine State.forEach_sound ?_ _ _ (fun _ _ _ => ?_)) | (refine State.onlyIf_sound ?_ _ _ (fun _ _ => ?_))

theorem execActionAccept_sound {s : State} (hs : s.sound = true) (r : ℕ) (a : ℕ)  :
    ∀ u, execActionAccept r a s = .next u → u.sound = true := by
  intro u ht; unfold execActionAccept at ht
  refine guarded_sound (fun s hs => ?_) hs ht
  repeat' first | (simp +contextual (maxDischargeDepth := 40) [*]; done) | split | dsimp only | (refine State.forEach_sound ?_ _ _ (fun _ _ _ => ?_)) | (refine State.onlyIf_sound ?_ _ _ (fun _ _ => ?_))

@[simp] theorem State.submit_sound {s : State} (hs : s.sound = true) (q : ℕ) (action : ℕ)  :
    (State.submit s q action).1.sound = true := by
  unfold State.submit; simp +contextual (maxDischargeDepth := 40) [*]

@[simp] theorem State.discardAll_sound {s : State} (hs : s.sound = true) (q : ℕ)  :
    (State.discardAll s q).sound = true := by
  unfold State.discardAll; simp +contextual (maxDischargeDepth := 40) [*]

theorem execQueueEcc_sound {s : State} (hs : s.sound = true) (q : ℕ) (uncorrectable : Bool)  :
    ∀ u, execQueueEcc q uncorrectable s = .next u → u.sound = true := by
  intro u ht; unfold execQueueEcc at ht
  refine guarded_sound (fun s hs => ?_) hs ht
  repeat' first | (simp +contextual (maxDischargeDepth := 40) [*]; done) | split | dsimp only | (refine State.forEach_sound ?_ _ _ (fun _ _ _ => ?_)) | (refine State.onlyIf_sound ?_ _ _ (fun _ _ => ?_))

@[simp] theorem State.setHead_sound {s : State} (hs : s.sound = true) (q : ℕ) (a : Action)  :
    (State.setHead s q a).sound = true := by
  unfold State.setHead; simp +contextual (maxDischargeDepth := 40) [*]

@[simp] theorem State.popHead_sound {s : State} (hs : s.sound = true) (q : ℕ)  :
    (State.popHead s q).sound = true := by
  unfold State.popHead; simp +contextual (maxDischargeDepth := 40) [*]

@[simp] theorem State.boundFail_sound {s : State} (hs : s.sound = true)  :
    (State.boundFail s).sound = true := by
  unfold State.boundFail; simp +contextual (maxDischargeDepth := 40) [*]

@[simp] theorem State.boundNext_sound {s : State} (hs : s.sound = true) (q : ℕ) (a : Action) (v : ℕ)  :
    (State.boundNext s q a v).sound = true := by
  unfold State.boundNext; simp +contextual (maxDischargeDepth := 40) [*]

@[simp] theorem State.convertHead_sound {s : State} (hs : s.sound = true) (q : ℕ)  :
    (State.convertHead s q).sound = true := by
  unfold State.convertHead; repeat' first | (simp +contextual (maxDischargeDepth := 40) [*]; done) | split | dsimp only | (refine State.forEach_sound ?_ _ _ (fun _ _ _ => ?_)) | (refine State.onlyIf_sound ?_ _ _ (fun _ _ => ?_))

theorem execPhaseConvert_sound {s : State} (hs : s.sound = true) (t : ℕ)  :
    ∀ u, execPhaseConvert t s = .next u → u.sound = true := by
  intro u ht; unfold execPhaseConvert at ht
  refine guarded_sound (fun s hs => ?_) hs ht
  repeat' first | (simp +contextual (maxDischargeDepth := 40) [*]; done) | split | dsimp only | (refine State.forEach_sound ?_ _ _ (fun _ _ _ => ?_)) | (refine State.onlyIf_sound ?_ _ _ (fun _ _ => ?_))

@[simp] theorem State.lastLate_sound {s : State} (hs : s.sound = true) (q : ℕ) (a : Action) (actual : ℤ) (outcome : ℕ)  :
    (State.lastLate s q a actual outcome).sound = true := by
  unfold State.lastLate; simp +contextual (maxDischargeDepth := 40) [*]

@[simp] theorem State.lateAction_sound {s : State} (hs : s.sound = true) (q : ℕ) (a : Action) (actual : ℤ) (outcome : ℕ)  :
    (State.lateAction s q a actual outcome).sound = true := by
  unfold State.lateAction; simp +contextual (maxDischargeDepth := 40) [*]

@[simp] theorem State.handOver_sound {s : State} (hs : s.sound = true) (q : ℕ) (a : Action) (t : ℤ) (outcome : ℕ)  :
    (State.handOver s q a t outcome).sound = true := by
  unfold State.handOver; repeat' first | (simp +contextual (maxDischargeDepth := 40) [*]; done) | split | dsimp only | (refine State.forEach_sound ?_ _ _ (fun _ _ _ => ?_)) | (refine State.onlyIf_sound ?_ _ _ (fun _ _ => ?_))

@[simp] theorem State.dispatch_sound {s0 : State} (hs0 : s0.sound = true)  :
    (State.dispatch s0).sound = true := by
  unfold State.dispatch; repeat' first | (simp +contextual (maxDischargeDepth := 40) [*]; done) | split | dsimp only | (refine State.forEach_sound ?_ _ _ (fun _ _ _ => ?_)) | (refine State.onlyIf_sound ?_ _ _ (fun _ _ => ?_))

@[simp] theorem State.flushQueue_sound {s : State} (hs : s.sound = true) (q : ℕ)  :
    (State.flushQueue s q).sound = true := by
  unfold State.flushQueue; simp +contextual (maxDischargeDepth := 40) [*]

theorem execActionDispatch_sound {s : State} (hs : s.sound = true)  :
    ∀ u, execActionDispatch s = .next u → u.sound = true := by
  intro u ht; unfold execActionDispatch at ht
  refine guarded_sound (fun s hs => ?_) hs ht
  repeat' first | (simp +contextual (maxDischargeDepth := 40) [*]; done) | split | dsimp only | (refine State.forEach_sound ?_ _ _ (fun _ _ _ => ?_)) | (refine State.onlyIf_sound ?_ _ _ (fun _ _ => ?_))

@[simp] theorem State.dropDispatched_sound {s : State} (hs : s.sound = true) (d : Disp)  :
    (State.dropDispatched s d).sound = true := by
  unfold State.dropDispatched; simp +contextual (maxDischargeDepth := 40) [*]

@[simp] theorem State.executed_sound {s : State} (hs : s.sound = true) (d : Disp)  :
    (State.executed s d).sound = true := by
  unfold State.executed; simp +contextual (maxDischargeDepth := 40) [*]

@[simp] theorem State.targetState_sound {s : State} (hs : s.sound = true) (d : Disp) (result : ℕ)  :
    (State.targetState s d result).sound = true := by
  unfold State.targetState; simp +contextual (maxDischargeDepth := 40) [*]

@[simp] theorem State.keepHanded_sound {s : State} (hs : s.sound = true) (d : Disp)  :
    (State.keepHanded s d).sound = true := by
  unfold State.keepHanded; simp +contextual (maxDischargeDepth := 40) [*]

@[simp] theorem State.runAction_sound {s : State} (hs : s.sound = true) (op : Nat) (f : Disp → State → State × Verdict)
    (hf : ∀ d s, s.sound = true → (f d s).1.sound = true) : (s.runAction op f).sound = true := by
  unfold State.runAction
  split
  · exact hs
  · rename_i d _
    have h1 : (s.dropDispatched d).sound = true := by simp +contextual (maxDischargeDepth := 40) [*]
    have h2 := hf d _ h1
    dsimp only
    generalize (f d (s.dropDispatched d)) = x at h2 ⊢
    obtain ⟨s2, r, _⟩ := x
    cases r <;> simp +contextual (maxDischargeDepth := 40) [*] at h2 ⊢ <;> (split <;> simp +contextual (maxDischargeDepth := 40) [*])

@[simp] theorem State.chanAction_sound {s : State} (hs : s.sound = true) (d : Disp) (k : Option EdgeKind)  :
    (State.chanAction d k s).1.sound = true := by
  unfold State.chanAction; repeat' first | (simp +contextual (maxDischargeDepth := 40) [*]; done) | split | dsimp only | (refine State.forEach_sound ?_ _ _ (fun _ _ _ => ?_)) | (refine State.onlyIf_sound ?_ _ _ (fun _ _ => ?_))

theorem execActionNop_sound {s : State} (hs : s.sound = true)  :
    ∀ u, execActionNop s = .next u → u.sound = true := by
  intro u ht; unfold execActionNop at ht
  refine guarded_sound (fun s hs => ?_) hs ht
  repeat' first | (simp +contextual (maxDischargeDepth := 40) [*]; done) | split | dsimp only | (refine State.forEach_sound ?_ _ _ (fun _ _ _ => ?_)) | (refine State.onlyIf_sound ?_ _ _ (fun _ _ => ?_))

theorem execChanHi_sound {s : State} (hs : s.sound = true)  :
    ∀ u, execChanHi s = .next u → u.sound = true := by
  intro u ht; unfold execChanHi at ht
  refine guarded_sound (fun s hs => ?_) hs ht
  repeat' first | (simp +contextual (maxDischargeDepth := 40) [*]; done) | split | dsimp only | (refine State.forEach_sound ?_ _ _ (fun _ _ _ => ?_)) | (refine State.onlyIf_sound ?_ _ _ (fun _ _ => ?_))

theorem execChanLo_sound {s : State} (hs : s.sound = true)  :
    ∀ u, execChanLo s = .next u → u.sound = true := by
  intro u ht; unfold execChanLo at ht
  refine guarded_sound (fun s hs => ?_) hs ht
  repeat' first | (simp +contextual (maxDischargeDepth := 40) [*]; done) | split | dsimp only | (refine State.forEach_sound ?_ _ _ (fun _ _ _ => ?_)) | (refine State.onlyIf_sound ?_ _ _ (fun _ _ => ?_))

theorem execChanToggle_sound {s : State} (hs : s.sound = true)  :
    ∀ u, execChanToggle s = .next u → u.sound = true := by
  intro u ht; unfold execChanToggle at ht
  refine guarded_sound (fun s hs => ?_) hs ht
  repeat' first | (simp +contextual (maxDischargeDepth := 40) [*]; done) | split | dsimp only | (refine State.forEach_sound ?_ _ _ (fun _ _ _ => ?_)) | (refine State.onlyIf_sound ?_ _ _ (fun _ _ => ?_))

theorem execChanPulse_sound {s : State} (hs : s.sound = true)  :
    ∀ u, execChanPulse s = .next u → u.sound = true := by
  intro u ht; unfold execChanPulse at ht
  refine guarded_sound (fun s hs => ?_) hs ht
  repeat' first | (simp +contextual (maxDischargeDepth := 40) [*]; done) | split | dsimp only | (refine State.forEach_sound ?_ _ _ (fun _ _ _ => ?_)) | (refine State.onlyIf_sound ?_ _ _ (fun _ _ => ?_))

theorem execFireLine_sound {s : State} (hs : s.sound = true)  :
    ∀ u, execFireLine s = .next u → u.sound = true := by
  intro u ht; unfold execFireLine at ht
  refine guarded_sound (fun s hs => ?_) hs ht
  repeat' first | (simp +contextual (maxDischargeDepth := 40) [*]; done) | split | dsimp only | (refine State.forEach_sound ?_ _ _ (fun _ _ _ => ?_)) | (refine State.onlyIf_sound ?_ _ _ (fun _ _ => ?_))

theorem execSeqStart_sound {s : State} (hs : s.sound = true)  :
    ∀ u, execSeqStart s = .next u → u.sound = true := by
  intro u ht; unfold execSeqStart at ht
  refine guarded_sound (fun s hs => ?_) hs ht
  repeat' first | (simp +contextual (maxDischargeDepth := 40) [*]; done) | split | dsimp only | (refine State.forEach_sound ?_ _ _ (fun _ _ _ => ?_)) | (refine State.onlyIf_sound ?_ _ _ (fun _ _ => ?_))

theorem execSeqJump_sound {s : State} (hs : s.sound = true)  :
    ∀ u, execSeqJump s = .next u → u.sound = true := by
  intro u ht; unfold execSeqJump at ht
  refine guarded_sound (fun s hs => ?_) hs ht
  repeat' first | (simp +contextual (maxDischargeDepth := 40) [*]; done) | split | dsimp only | (refine State.forEach_sound ?_ _ _ (fun _ _ _ => ?_)) | (refine State.onlyIf_sound ?_ _ _ (fun _ _ => ?_))

theorem execSeqStopAtEnd_sound {s : State} (hs : s.sound = true)  :
    ∀ u, execSeqStopAtEnd s = .next u → u.sound = true := by
  intro u ht; unfold execSeqStopAtEnd at ht
  refine guarded_sound (fun s hs => ?_) hs ht
  repeat' first | (simp +contextual (maxDischargeDepth := 40) [*]; done) | split | dsimp only | (refine State.forEach_sound ?_ _ _ (fun _ _ _ => ?_)) | (refine State.onlyIf_sound ?_ _ _ (fun _ _ => ?_))

theorem execSeqStopNow_sound {s : State} (hs : s.sound = true)  :
    ∀ u, execSeqStopNow s = .next u → u.sound = true := by
  intro u ht; unfold execSeqStopNow at ht
  refine guarded_sound (fun s hs => ?_) hs ht
  repeat' first | (simp +contextual (maxDischargeDepth := 40) [*]; done) | split | dsimp only | (refine State.forEach_sound ?_ _ _ (fun _ _ _ => ?_)) | (refine State.onlyIf_sound ?_ _ _ (fun _ _ => ?_))

theorem execNotify_sound {s : State} (hs : s.sound = true)  :
    ∀ u, execNotify s = .next u → u.sound = true := by
  intro u ht; unfold execNotify at ht
  refine guarded_sound (fun s hs => ?_) hs ht
  repeat' first | (simp +contextual (maxDischargeDepth := 40) [*]; done) | split | dsimp only | (refine State.forEach_sound ?_ _ _ (fun _ _ _ => ?_)) | (refine State.onlyIf_sound ?_ _ _ (fun _ _ => ?_))

@[simp] theorem State.schedSafeExit_sound {s : State} (hs : s.sound = true) (agent : ℕ)  :
    (State.schedSafeExit s agent).1.sound = true := by
  unfold State.schedSafeExit; simp +contextual (maxDischargeDepth := 40) [*]

@[simp] theorem State.schedStep_sound {s : State} (hs : s.sound = true) (d : ℤ)  :
    (State.schedStep s d).sound = true := by
  unfold State.schedStep; simp +contextual (maxDischargeDepth := 40) [*]

end Sys2Proof.Machine
end

