-- ==== Sys2Proof/Laws/SoundTin.lean ====
section
/-! SUPPORT. The operations of Tin keep the form of a state. -/

namespace Sys2Proof.Machine

set_option linter.unusedTactic false
set_option linter.unreachableTactic false

@[simp] theorem State.setTin_sound {s : State} (hs : s.sound = true) (i : ℕ) (x : TinSt)  :
    (State.setTin s i x).sound = true := by
  unfold State.setTin; simp +contextual (maxDischargeDepth := 40) [*]

@[simp] theorem State.setCore_sound {s : State} (hs : s.sound = true) (i : ℕ) (k : ℕ) (x : CoreSt)  :
    (State.setCore s i k x).sound = true := by
  unfold State.setCore; simp +contextual (maxDischargeDepth := 40) [*]

@[simp] theorem State.showSubs_sound {s : State} (hs : s.sound = true) (i : ℕ)  :
    (State.showSubs s i).sound = true := by
  unfold State.showSubs; simp +contextual (maxDischargeDepth := 40) [*]

theorem State.takePlace_sound {s : State} (hs : s.sound = true) (i : ℕ) (kind : ℕ) (idx : ℕ)  :
    ∀ u, State.takePlace s i kind idx = some u → u.sound = true := by
  intro u ht; unfold State.takePlace at ht; (repeat' split at ht) <;> simp_all <;> (subst ht; simp +contextual (maxDischargeDepth := 40) [*])

@[simp] theorem State.freePlace_sound {s : State} (hs : s.sound = true) (i : ℕ) (kind : ℕ) (idx : ℕ)  :
    (State.freePlace s i kind idx).sound = true := by
  unfold State.freePlace; repeat' first | (simp +contextual (maxDischargeDepth := 40) [*]; done) | split | dsimp only | (refine State.forEach_sound ?_ _ _ (fun _ _ _ => ?_)) | (refine State.onlyIf_sound ?_ _ _ (fun _ _ => ?_))

theorem State.takePlaces_sound {s : State} (hs : s.sound = true) (kind idx : Nat) (l : List Nat) :
    ∀ u, s.takePlaces kind idx l = .ok u → u.sound = true := by
  induction l generalizing s with
  | nil => intro u h; cases h; exact hs
  | cons i l ih =>
    intro u h
    unfold State.takePlaces at h
    split at h
    · exact ih (State.takePlace_sound hs _ _ _ _ ‹_›) _ h
    · cases h

@[simp] theorem State.freePlaces_sound {s : State} (hs : s.sound = true) (kind : ℕ) (idx : ℕ) (is : List ℕ)  :
    (State.freePlaces s kind idx is).sound = true := by
  unfold State.freePlaces; simp +contextual (maxDischargeDepth := 40) [*]

@[simp] theorem State.refreshInput_sound {s : State} (hs : s.sound = true) (i : ℕ)  :
    (State.refreshInput s i).sound = true := by
  unfold State.refreshInput; simp +contextual (maxDischargeDepth := 40) [*]

@[simp] theorem State.loopStamp_sound {s : State} (hs : s.sound = true)  :
    (State.loopStamp s).sound = true := by
  unfold State.loopStamp; simp +contextual (maxDischargeDepth := 40) [*]

@[simp] theorem State.unresolve_sound {s : State} (hs : s.sound = true) (i : ℕ) (ahead : ℕ)  :
    (State.unresolve s i ahead).sound = true := by
  unfold State.unresolve; simp +contextual (maxDischargeDepth := 40) [*]

theorem execInputResolved_sound {s : State} (hs : s.sound = true) (i : ℕ) (high : Bool)  :
    ∀ u, execInputResolved i high s = .next u → u.sound = true := by
  intro u ht; unfold execInputResolved at ht
  refine guarded_sound (fun s hs => ?_) hs ht
  repeat' first | (simp +contextual (maxDischargeDepth := 40) [*]; done) | split | dsimp only | (refine State.forEach_sound ?_ _ _ (fun _ _ _ => ?_)) | (refine State.onlyIf_sound ?_ _ _ (fun _ _ => ?_))

@[simp] theorem State.noteRecent_sound {s : State} (hs : s.sound = true) (i : ℕ) (st : Stamp) (w : RecentWhat)  :
    (State.noteRecent s i st w).sound = true := by
  unfold State.noteRecent; simp +contextual (maxDischargeDepth := 40) [*]

@[simp] theorem State.measLost_sound {s0 : State} (hs0 : s0.sound = true) (i : ℕ) (rising : Bool) (fifo : Bool) (u_ : ℤ)  :
    (State.measLost s0 i rising fifo u_).sound = true := by
  unfold State.measLost; simp +contextual (maxDischargeDepth := 40) [*]

@[simp] theorem State.captureCrossing_sound {s : State} (hs : s.sound = true) (i : ℕ) (x : Crossing)  :
    (State.captureCrossing s i x).sound = true := by
  unfold State.captureCrossing; simp +contextual (maxDischargeDepth := 40) [*]

@[simp] theorem State.crossing_sound {s : State} (hs : s.sound = true) (i : ℕ) (x : Crossing)  :
    (State.crossing s i x).sound = true := by
  unfold State.crossing; simp +contextual (maxDischargeDepth := 40) [*]

theorem execInputCrossing_sound {s : State} (hs : s.sound = true) (i : ℕ) (x : Crossing)  :
    ∀ u, execInputCrossing i x s = .next u → u.sound = true := by
  intro u ht; unfold execInputCrossing at ht
  refine guarded_sound (fun s hs => ?_) hs ht
  repeat' first | (simp +contextual (maxDischargeDepth := 40) [*]; done) | split | dsimp only | (refine State.forEach_sound ?_ _ _ (fun _ _ _ => ?_)) | (refine State.onlyIf_sound ?_ _ _ (fun _ _ => ?_))

@[simp] theorem State.keepTerms_sound {s : State} (hs : s.sound = true) (i : ℕ)  :
    (State.keepTerms s i).sound = true := by
  unfold State.keepTerms; simp +contextual (maxDischargeDepth := 40) [*]

@[simp] theorem State.fifoEnter_sound {s : State} (hs : s.sound = true) (i : ℕ) (st : Stamp)  :
    (State.fifoEnter s i st).sound = true := by
  unfold State.fifoEnter; simp +contextual (maxDischargeDepth := 40) [*]

@[simp] theorem State.countEvent_sound {s : State} (hs : s.sound = true) (i : ℕ) (k : ℕ) (code : ℕ)  :
    (State.countEvent s i k code).sound = true := by
  unfold State.countEvent
  extract_lets c
  split
  · exact hs
  · simp +contextual (maxDischargeDepth := 40) [*]


@[simp] theorem State.stampReady_sound {s : State} (hs : s.sound = true) (i : ℕ) (c : Conversion)  :
    (State.stampReady s i c).sound = true := by
  unfold State.stampReady; repeat' first | (simp +contextual (maxDischargeDepth := 40) [*]; done) | split | dsimp only | (refine State.forEach_sound ?_ _ _ (fun _ _ _ => ?_)) | (refine State.onlyIf_sound ?_ _ _ (fun _ _ => ?_))

theorem execStampReady_sound {s : State} (hs : s.sound = true) (i : ℕ) (c : Conversion)  :
    ∀ u, execStampReady i c s = .next u → u.sound = true := by
  intro u ht; unfold execStampReady at ht
  refine guarded_sound (fun s hs => ?_) hs ht
  repeat' first | (simp +contextual (maxDischargeDepth := 40) [*]; done) | split | dsimp only | (refine State.forEach_sound ?_ _ _ (fun _ _ _ => ?_)) | (refine State.onlyIf_sound ?_ _ _ (fun _ _ => ?_))

@[simp] theorem State.coreFail_sound {s : State} (hs : s.sound = true) (i : ℕ) (k : ℕ)  :
    (State.coreFail s i k).sound = true := by
  unfold State.coreFail; simp +contextual (maxDischargeDepth := 40) [*]

@[simp] theorem State.injectInto_sound {s : State} (hs : s.sound = true) (i : ℕ) (k : ℕ) (pulse : Bool) (code : ℕ)  :
    (State.injectInto s i k pulse code).sound = true := by
  unfold State.injectInto; simp +contextual (maxDischargeDepth := 40) [*]

theorem execInjectedEvent_sound {s : State} (hs : s.sound = true) (i : ℕ) (core : ℕ) (pulse : Bool) (code : ℕ)  :
    ∀ u, execInjectedEvent i core pulse code s = .next u → u.sound = true := by
  intro u ht; unfold execInjectedEvent at ht
  refine guarded_sound (fun s hs => ?_) hs ht
  repeat' first | (simp +contextual (maxDischargeDepth := 40) [*]; done) | split | dsimp only | (refine State.forEach_sound ?_ _ _ (fun _ _ _ => ?_)) | (refine State.onlyIf_sound ?_ _ _ (fun _ _ => ?_))

@[simp] theorem State.refreshTinSettled_sound {s : State} (hs : s.sound = true)  :
    (State.refreshTinSettled s).sound = true := by
  unfold State.refreshTinSettled; simp +contextual (maxDischargeDepth := 40) [*]

@[simp] theorem State.acceptTable_sound {s : State} (hs : s.sound = true) (i : ℕ) (k : ℕ) (r : TableResult)  :
    (State.acceptTable s i k r).sound = true := by
  unfold State.acceptTable; simp +contextual (maxDischargeDepth := 40) [*]

@[simp] theorem State.tableDone_sound {s : State} (hs : s.sound = true) (i : ℕ) (k : ℕ) (r : TableResult)  :
    (State.tableDone s i k r).sound = true := by
  unfold State.tableDone; simp +contextual (maxDischargeDepth := 40) [*]

theorem execCalStale_sound {s : State} (hs : s.sound = true) (i : ℕ) (core : ℕ)  :
    ∀ u, execCalStale i core s = .next u → u.sound = true := by
  intro u ht; unfold execCalStale at ht
  refine guarded_sound (fun s hs => ?_) hs ht
  repeat' first | (simp +contextual (maxDischargeDepth := 40) [*]; done) | split | dsimp only | (refine State.forEach_sound ?_ _ _ (fun _ _ _ => ?_)) | (refine State.onlyIf_sound ?_ _ _ (fun _ _ => ?_))

@[simp] theorem State.recal_sound {s : State} (hs : s.sound = true) (i : ℕ)  :
    (State.recal s i).sound = true := by
  unfold State.recal; simp +contextual (maxDischargeDepth := 40) [*]

theorem execInputTableEcc_sound {s : State} (hs : s.sound = true) (i : ℕ) (core : ℕ) (uncorrectable : Bool)  :
    ∀ u, execInputTableEcc i core uncorrectable s = .next u → u.sound = true := by
  intro u ht; unfold execInputTableEcc at ht
  refine guarded_sound (fun s hs => ?_) hs ht
  repeat' first | (simp +contextual (maxDischargeDepth := 40) [*]; done) | split | dsimp only | (refine State.forEach_sound ?_ _ _ (fun _ _ _ => ?_)) | (refine State.onlyIf_sound ?_ _ _ (fun _ _ => ?_))

@[simp] theorem State.tinCommit_sound {s : State} {old : State} (hs : s.sound = true) (hold : old.sound = true) (i : ℕ)  :
    (State.tinCommit s i old).sound = true := by
  unfold State.tinCommit; simp +contextual (maxDischargeDepth := 40) [*]

end Sys2Proof.Machine
end

