-- ==== Sys2Proof/Laws/SoundMeas.lean ====
section
/-! SUPPORT. The operations of Meas keep the form of a state. -/

namespace Sys2Proof.Machine

set_option linter.unusedTactic false
set_option linter.unreachableTactic false

@[simp] theorem State.setSess_sound {s : State} (hs : s.sound = true) (k : ℕ) (x : SessionSt)  :
    (State.setSess s k x).sound = true := by
  unfold State.setSess; simp +contextual (maxDischargeDepth := 40) [*]

@[simp] theorem State.setGate_sound {s : State} (hs : s.sound = true) (g : ℕ) (x : List GateWin)  :
    (State.setGate s g x).sound = true := by
  unfold State.setGate; simp +contextual (maxDischargeDepth := 40) [*]

@[simp] theorem State.setStream_sound {s : State} (hs : s.sound = true) (k : ℕ) (x : StreamSt)  :
    (State.setStream s k x).sound = true := by
  unfold State.setStream; simp +contextual (maxDischargeDepth := 40) [*]

@[simp] theorem State.putSessState_sound {s : State} (hs : s.sound = true) (k : ℕ) (st : ℕ)  :
    (State.putSessState s k st).sound = true := by
  unfold State.putSessState; simp +contextual (maxDischargeDepth := 40) [*]

@[simp] theorem State.putResult_sound {s : State} (hs : s.sound = true) (n : ℕ) (seq : ℕ) (elems : List ℕ)  :
    (State.putResult s n seq elems).sound = true := by
  unfold State.putResult; simp +contextual (maxDischargeDepth := 40) [*]

@[simp] theorem State.earlyStops_sound {s : State} (hs : s.sound = true) (k : ℕ) (n : ℕ)  :
    (State.earlyStops s k n).sound = true := by
  unfold State.earlyStops; simp +contextual (maxDischargeDepth := 40) [*]

@[simp] theorem State.armOnly_sound {s : State} (hs : s.sound = true) (k : ℕ) (a : ℤ)  :
    (State.armOnly s k a).sound = true := by
  unfold State.armOnly; simp +contextual (maxDischargeDepth := 40) [*]

@[simp] theorem State.endSession_sound {s : State} (hs : s.sound = true) (k : ℕ) (timeout : Bool) (aborted : Bool) (endAt : ℤ)  :
    (State.endSession s k timeout aborted endAt).sound = true := by
  unfold State.endSession; simp +contextual (maxDischargeDepth := 40) [*]

@[simp] theorem State.takeWaiting_sound {s : State} (hs : s.sound = true) (k : ℕ) (at_ : ℤ) (teb : ℕ) (cal : ℕ)  :
    (State.takeWaiting s k at_ teb cal).sound = true := by
  unfold State.takeWaiting; simp +contextual (maxDischargeDepth := 40) [*]

@[simp] theorem State.armSession_sound {s : State} (hs : s.sound = true) (k : ℕ) (a : ℤ)  :
    (State.armSession s k a).sound = true := by
  unfold State.armSession; simp +contextual (maxDischargeDepth := 40) [*]

@[simp] theorem State.closeSession_sound {s : State} (hs : s.sound = true) (k : ℕ) (timeout : Bool) (endAt : ℤ)  :
    (State.closeSession s k timeout endAt).sound = true := by
  unfold State.closeSession; simp +contextual (maxDischargeDepth := 40) [*]

@[simp] theorem State.takeStop_sound {s : State} (hs : s.sound = true) (k : ℕ) (x : Stop)  :
    (State.takeStop s k x).sound = true := by
  unfold State.takeStop; simp +contextual (maxDischargeDepth := 40) [*]

@[simp] theorem State.startSession_sound {s : State} (hs : s.sound = true) (k : ℕ) (at_ : ℤ) (teb : ℕ) (cal : ℕ)  :
    (State.startSession s k at_ teb cal).sound = true := by
  unfold State.startSession; simp +contextual (maxDischargeDepth := 40) [*]

@[simp] theorem State.sessionStamp_sound {s : State} (hs : s.sound = true) (k : ℕ) (y : Stop) (teb : ℕ) (cal : ℕ)  :
    (State.sessionStamp s k y teb cal).sound = true := by
  unfold State.sessionStamp; simp +contextual (maxDischargeDepth := 40) [*]

@[simp] theorem State.sessEvent_sound {s : State} (hs : s.sound = true) (k : ℕ) (e : SessEvent)  :
    (State.sessEvent s k e).sound = true := by
  unfold State.sessEvent; repeat' first | (simp +contextual (maxDischargeDepth := 40) [*]; done) | split | dsimp only | (refine State.forEach_sound ?_ _ _ (fun _ _ _ => ?_)) | (refine State.onlyIf_sound ?_ _ _ (fun _ _ => ?_))

@[simp] theorem State.sessTake_sound {s : State} (hs : s.sound = true) (k n : Nat) : (s.sessTake k n).sound = true := by
  induction n generalizing s with
  | zero => exact hs
  | succ n ih =>
    unfold State.sessTake
    repeat' first | (simp +contextual (maxDischargeDepth := 40) [*]; done) | split | refine ih ?_

@[simp] theorem State.sessRun_sound {s : State} (hs : s.sound = true) (k : ℕ)  :
    (State.sessRun s k).sound = true := by
  unfold State.sessRun; simp +contextual (maxDischargeDepth := 40) [*]

@[simp] theorem State.measSlot_sound {s : State} (hs : s.sound = true)  :
    (State.measSlot s).sound = true := by
  unfold State.measSlot; simp +contextual (maxDischargeDepth := 40) [*]

@[simp] theorem State.toSession_sound {s : State} (hs : s.sound = true) (k : ℕ) (e : SessEvent)  :
    (State.toSession s k e).sound = true := by
  unfold State.toSession; simp +contextual (maxDischargeDepth := 40) [*]

@[simp] theorem State.drain_sound {s : State} (hs : s.sound = true) (i : ℕ)  :
    (State.drain s i).sound = true := by
  unfold State.drain; repeat' first | (simp +contextual (maxDischargeDepth := 40) [*]; done) | split | dsimp only | (refine State.forEach_sound ?_ _ _ (fun _ _ _ => ?_)) | (refine State.onlyIf_sound ?_ _ _ (fun _ _ => ?_))

theorem execIntakeDrain_sound {s : State} (hs : s.sound = true) (i : ℕ)  :
    ∀ u, execIntakeDrain i s = .next u → u.sound = true := by
  intro u ht; unfold execIntakeDrain at ht
  refine guarded_sound (fun s hs => ?_) hs ht
  repeat' first | (simp +contextual (maxDischargeDepth := 40) [*]; done) | split | dsimp only | (refine State.forEach_sound ?_ _ _ (fun _ _ _ => ?_)) | (refine State.onlyIf_sound ?_ _ _ (fun _ _ => ?_))

@[simp] theorem State.intakePut_sound {s : State} (hs : s.sound = true) (i : ℕ) (st : Stamp)  :
    (State.intakePut s i st).sound = true := by
  unfold State.intakePut; simp +contextual (maxDischargeDepth := 40) [*]

@[simp] theorem State.intakeEnter_sound {s : State} (hs : s.sound = true) (i : ℕ) (st : Stamp)  :
    (State.intakeEnter s i st).sound = true := by
  unfold State.intakeEnter; simp +contextual (maxDischargeDepth := 40) [*]

@[simp] theorem State.replayOne_sound {s : State} (hs : s.sound = true) (k : ℕ) (i : ℕ) (r : Recent)  :
    (State.replayOne s k i r).sound = true := by
  unfold State.replayOne; repeat' first | (simp +contextual (maxDischargeDepth := 40) [*]; done) | split | dsimp only | (refine State.forEach_sound ?_ _ _ (fun _ _ _ => ?_)) | (refine State.onlyIf_sound ?_ _ _ (fun _ _ => ?_))

@[simp] theorem State.replay_sound {s : State} (hs : s.sound = true) (k : ℕ) (a : ℤ)  :
    (State.replay s k a).sound = true := by
  unfold State.replay; simp +contextual (maxDischargeDepth := 40) [*]

theorem execSessionTimeout_sound {s : State} (hs : s.sound = true) (k : ℕ)  :
    ∀ u, execSessionTimeout k s = .next u → u.sound = true := by
  intro u ht; unfold execSessionTimeout at ht
  refine guarded_sound (fun s hs => ?_) hs ht
  repeat' first | (simp +contextual (maxDischargeDepth := 40) [*]; done) | split | dsimp only | (refine State.forEach_sound ?_ _ _ (fun _ _ _ => ?_)) | (refine State.onlyIf_sound ?_ _ _ (fun _ _ => ?_))

@[simp] theorem State.enableSession_sound {s : State} (hs : s.sound = true) (k : ℕ)  :
    (State.enableSession s k).1.sound = true := by
  unfold State.enableSession; repeat' first | (simp +contextual (maxDischargeDepth := 40) [*]; done) | (rename_i he; have hu := State.takePlaces_sound (by simp +contextual (maxDischargeDepth := 40) [*]) _ _ _ _ he; simp +contextual (maxDischargeDepth := 40) [*]; done) | split | dsimp only | (refine State.forEach_sound ?_ _ _ (fun _ _ _ => ?_)) | (refine State.onlyIf_sound ?_ _ _ (fun _ _ => ?_))

@[simp] theorem State.abortSession_sound {s : State} (hs : s.sound = true) (k : ℕ)  :
    (State.abortSession s k).sound = true := by
  unfold State.abortSession; simp +contextual (maxDischargeDepth := 40) [*]

@[simp] theorem State.disableSession_sound {s : State} (hs : s.sound = true) (k : ℕ)  :
    (State.disableSession s k).sound = true := by
  unfold State.disableSession; simp +contextual (maxDischargeDepth := 40) [*]

@[simp] theorem State.openGate_sound {s : State} (hs : s.sound = true) (g : ℕ) (at_ : ℤ) (l : ℤ) (fixed : Bool)  :
    (State.openGate s g at_ l fixed).sound = true := by
  unfold State.openGate; simp +contextual (maxDischargeDepth := 40) [*]

@[simp] theorem State.gateStamp_sound {s : State} (hs : s.sound = true) (st : Stamp) (g : ℕ)  :
    (State.gateStamp s st g).sound = true := by
  unfold State.gateStamp; simp +contextual (maxDischargeDepth := 40) [*]

@[simp] theorem State.finishGate_sound {s : State} (hs : s.sound = true) (g : ℕ) (w : GateWin)  :
    (State.finishGate s g w).sound = true := by
  unfold State.finishGate; simp +contextual (maxDischargeDepth := 40) [*]

theorem execGateEnd_sound {s : State} (hs : s.sound = true) (g : ℕ)  :
    ∀ u, execGateEnd g s = .next u → u.sound = true := by
  intro u ht; unfold execGateEnd at ht
  refine guarded_sound (fun s hs => ?_) hs ht
  repeat' first | (simp +contextual (maxDischargeDepth := 40) [*]; done) | split | dsimp only | (refine State.forEach_sound ?_ _ _ (fun _ _ _ => ?_)) | (refine State.onlyIf_sound ?_ _ _ (fun _ _ => ?_))

@[simp] theorem State.enableGate_sound {s : State} (hs : s.sound = true) (g : ℕ)  :
    (State.enableGate s g).1.sound = true := by
  unfold State.enableGate; repeat' first | (simp +contextual (maxDischargeDepth := 40) [*]; done) | (rename_i he; have hu := State.takePlace_sound (by simp +contextual (maxDischargeDepth := 40) [*]) _ _ _ _ he; simp +contextual (maxDischargeDepth := 40) [*]; done) | split | dsimp only | (refine State.forEach_sound ?_ _ _ (fun _ _ _ => ?_)) | (refine State.onlyIf_sound ?_ _ _ (fun _ _ => ?_))

@[simp] theorem State.disableGate_sound {s : State} (hs : s.sound = true) (g : ℕ)  :
    (State.disableGate s g).sound = true := by
  unfold State.disableGate; simp +contextual (maxDischargeDepth := 40) [*]

@[simp] theorem State.cmdArm_sound {s : State} (hs : s.sound = true) (k : ℕ)  :
    (State.cmdArm s k).1.sound = true := by
  unfold State.cmdArm; simp +contextual (maxDischargeDepth := 40) [*]

@[simp] theorem State.cmdAbort_sound {s : State} (hs : s.sound = true) (k : ℕ)  :
    (State.cmdAbort s k).1.sound = true := by
  unfold State.cmdAbort; simp +contextual (maxDischargeDepth := 40) [*]

@[simp] theorem State.cmdGateStart_sound {s : State} (hs : s.sound = true) (k : ℕ)  :
    (State.cmdGateStart s k).1.sound = true := by
  unfold State.cmdGateStart; simp +contextual (maxDischargeDepth := 40) [*]

@[simp] theorem State.sessionCmd_sound {s : State} (hs : s.sound = true) (v : ℕ)  :
    (State.sessionCmd s v).1.sound = true := by
  unfold State.sessionCmd; repeat' first | (simp +contextual (maxDischargeDepth := 40) [*]; done) | split | dsimp only | (refine State.forEach_sound ?_ _ _ (fun _ _ _ => ?_)) | (refine State.onlyIf_sound ?_ _ _ (fun _ _ => ?_))

theorem execMeasArm_sound {s : State} (hs : s.sound = true)  :
    ∀ u, execMeasArm s = .next u → u.sound = true := by
  intro u ht; unfold execMeasArm at ht
  refine guarded_sound (fun s hs => ?_) hs ht
  repeat' first | (simp +contextual (maxDischargeDepth := 40) [*]; done) | split | dsimp only | (refine State.forEach_sound ?_ _ _ (fun _ _ _ => ?_)) | (refine State.onlyIf_sound ?_ _ _ (fun _ _ => ?_))

theorem execTdcEngineEcc_sound {s : State} (hs : s.sound = true) (sessions : ℕ) (gates : ℕ)  :
    ∀ u, execTdcEngineEcc sessions gates s = .next u → u.sound = true := by
  intro u ht; unfold execTdcEngineEcc at ht
  refine guarded_sound (fun s hs => ?_) hs ht
  repeat' first | (simp +contextual (maxDischargeDepth := 40) [*]; done) | split | dsimp only | (refine State.forEach_sound ?_ _ _ (fun _ _ _ => ?_)) | (refine State.onlyIf_sound ?_ _ _ (fun _ _ => ?_))

@[simp] theorem State.lineToMeas_sound {s : State} (hs : s.sound = true) (n : ℕ) (e : LineEvent)  :
    (State.lineToMeas s n e).sound = true := by
  unfold State.lineToMeas; simp +contextual (maxDischargeDepth := 40) [*]

@[simp] theorem State.tickToMeas_sound {s : State} (hs : s.sound = true) (n : ℕ) (t : ℕ)  :
    (State.tickToMeas s n t).sound = true := by
  unfold State.tickToMeas; simp +contextual (maxDischargeDepth := 40) [*]

@[simp] theorem State.measStep_sound {s : State} (hs : s.sound = true) (d : ℤ)  :
    (State.measStep s d).sound = true := by
  unfold State.measStep; simp +contextual (maxDischargeDepth := 40) [*]

@[simp] theorem State.streamAppend_sound {s : State} (hs : s.sound = true) (k : ℕ) (w : ℕ) (stamp : Bool) (second : optParam Bool Bool.false)  :
    (State.streamAppend s k w stamp second).sound = true := by
  unfold State.streamAppend; simp +contextual (maxDischargeDepth := 40) [*]

@[simp] theorem State.streamBase_sound {s : State} (hs : s.sound = true) (k : ℕ) (reason : ℕ) (gen : ℕ)  :
    (State.streamBase s k reason gen).sound = true := by
  unfold State.streamBase; simp +contextual (maxDischargeDepth := 40) [*]

@[simp] theorem State.streamStart_sound {s : State} (hs : s.sound = true) (k : ℕ)  :
    (State.streamStart s k).sound = true := by
  unfold State.streamStart; simp +contextual (maxDischargeDepth := 40) [*]

@[simp] theorem State.streamLose_sound {s : State} (hs : s.sound = true) (k : ℕ) (n : ℕ)  :
    (State.streamLose s k n).sound = true := by
  unfold State.streamLose; simp +contextual (maxDischargeDepth := 40) [*]

@[simp] theorem State.streamSuspend_sound {s : State} (hs : s.sound = true) (k : ℕ)  :
    (State.streamSuspend s k).sound = true := by
  unfold State.streamSuspend; simp +contextual (maxDischargeDepth := 40) [*]

@[simp] theorem State.streamRecord_sound {s : State} (hs : s.sound = true) (k : ℕ) (r : ℕ) (w : ℕ) (stamp : Bool)  :
    (State.streamRecord s k r w stamp).1.sound = true := by
  unfold State.streamRecord; simp +contextual (maxDischargeDepth := 40) [*]

@[simp] theorem State.streamBaseIn_sound {s : State} (hs : s.sound = true) (k : ℕ) (r : ℕ) (reason : ℕ) (gen : ℕ)  :
    (State.streamBaseIn s k r reason gen).1.sound = true := by
  unfold State.streamBaseIn; simp +contextual (maxDischargeDepth := 40) [*]

@[simp] theorem State.streamHold_sound {s : State} (hs : s.sound = true) (k : ℕ) (r : ℕ) (st : Stamp)  :
    (State.streamHold s k r st).sound = true := by
  unfold State.streamHold; simp +contextual (maxDischargeDepth := 40) [*]

@[simp] theorem State.streamStamp_sound {s : State} (hs : s.sound = true) (k : ℕ) (r : ℕ) (st : Stamp)  :
    (State.streamStamp s k r st).sound = true := by
  unfold State.streamStamp
  extract_lets x lost s1 b0 a b
  have h1 : s1.1.sound = true := by simp only [s1]; repeat' first | (simp +contextual (maxDischargeDepth := 40) [*]; done) | split | dsimp only | (refine State.forEach_sound ?_ _ _ (fun _ _ _ => ?_)) | (refine State.onlyIf_sound ?_ _ _ (fun _ _ => ?_))
  clear_value s1
  have hb0 : b0.1.sound = true := by simp only [b0]; repeat' first | (simp +contextual (maxDischargeDepth := 40) [*]; done) | split | dsimp only | (refine State.forEach_sound ?_ _ _ (fun _ _ _ => ?_)) | (refine State.onlyIf_sound ?_ _ _ (fun _ _ => ?_))
  clear_value b0
  have ha : a.1.sound = true := by simp only [a]; repeat' first | (simp +contextual (maxDischargeDepth := 40) [*]; done) | split | dsimp only | (refine State.forEach_sound ?_ _ _ (fun _ _ _ => ?_)) | (refine State.onlyIf_sound ?_ _ _ (fun _ _ => ?_))
  clear_value a
  have hb : b.1.sound = true := by simp only [b]; repeat' first | (simp +contextual (maxDischargeDepth := 40) [*]; done) | split | dsimp only | (refine State.forEach_sound ?_ _ _ (fun _ _ _ => ?_)) | (refine State.onlyIf_sound ?_ _ _ (fun _ _ => ?_))
  clear_value b
  repeat' first | (simp +contextual (maxDischargeDepth := 40) [*]; done) | split | dsimp only | (refine State.forEach_sound ?_ _ _ (fun _ _ _ => ?_)) | (refine State.onlyIf_sound ?_ _ _ (fun _ _ => ?_))

theorem execStreamPeriodicBase_sound {s : State} (hs : s.sound = true) (k : ℕ)  :
    ∀ u, execStreamPeriodicBase k s = .next u → u.sound = true := by
  intro u ht; unfold execStreamPeriodicBase at ht
  refine guarded_sound (fun s hs => ?_) hs ht
  repeat' first | (simp +contextual (maxDischargeDepth := 40) [*]; done) | split | dsimp only | (refine State.forEach_sound ?_ _ _ (fun _ _ _ => ?_)) | (refine State.onlyIf_sound ?_ _ _ (fun _ _ => ?_))

@[simp] theorem State.streamWrite_sound {s : State} (hs : s.sound = true) (k : ℕ) (r : ℕ)  :
    (State.streamWrite s k r).sound = true := by
  unfold State.streamWrite; simp +contextual (maxDischargeDepth := 40) [*]

theorem execStreamBatchWrite_sound {s : State} (hs : s.sound = true) (k : ℕ)  :
    ∀ u, execStreamBatchWrite k s = .next u → u.sound = true := by
  intro u ht; unfold execStreamBatchWrite at ht
  refine guarded_sound (fun s hs => ?_) hs ht
  repeat' first | (simp +contextual (maxDischargeDepth := 40) [*]; done) | split | dsimp only | (refine State.forEach_sound ?_ _ _ (fun _ _ _ => ?_)) | (refine State.onlyIf_sound ?_ _ _ (fun _ _ => ?_))

theorem execStreamResume_sound {s : State} (hs : s.sound = true) (k : ℕ)  :
    ∀ u, execStreamResume k s = .next u → u.sound = true := by
  intro u ht; unfold execStreamResume at ht
  refine guarded_sound (fun s hs => ?_) hs ht
  repeat' first | (simp +contextual (maxDischargeDepth := 40) [*]; done) | split | dsimp only | (refine State.forEach_sound ?_ _ _ (fun _ _ _ => ?_)) | (refine State.onlyIf_sound ?_ _ _ (fun _ _ => ?_))

end Sys2Proof.Machine
end

