-- ==== Sys2Proof/Laws/SoundServo.lean ====
section
/-! SUPPORT. The operations of Servo keep the form of a state. -/

namespace Sys2Proof.Machine

set_option linter.unusedTactic false
set_option linter.unreachableTactic false

@[simp] theorem State.openUnit_sound {s : State} (hs : s.sound = true) (num : ℤ) (den : ℕ)  :
    (State.openUnit s num den).2.sound = true := by
  unfold State.openUnit; simp +contextual (maxDischargeDepth := 40) [*]

@[simp] theorem State.tscEvent_sound {s : State} (hs : s.sound = true) (kind : ℕ) (data : ℕ)  :
    (State.tscEvent s kind data).sound = true := by
  unfold State.tscEvent; simp +contextual (maxDischargeDepth := 40) [*]

@[simp] theorem State.enterStage_sound {s : State} (hs : s.sound = true) (k : ℕ)  :
    (State.enterStage s k).sound = true := by
  unfold State.enterStage; simp +contextual (maxDischargeDepth := 40) [*]

@[simp] theorem State.refreshStage_sound {s : State} (hs : s.sound = true)  :
    (State.refreshStage s).sound = true := by
  unfold State.refreshStage; simp +contextual (maxDischargeDepth := 40) [*]

@[simp] theorem State.setBasis_sound {s : State} (hs : s.sound = true) (b : ℕ)  :
    (State.setBasis s b).sound = true := by
  unfold State.setBasis; simp +contextual (maxDischargeDepth := 40) [*]

@[simp] theorem State.formY_sound {s : State} (hs : s.sound = true)  :
    (State.formY s).sound = true := by
  unfold State.formY; simp +contextual (maxDischargeDepth := 40) [*]

@[simp] theorem State.yAge_sound {s : State} (hs : s.sound = true)  :
    (State.yAge s).2.sound = true := by
  unfold State.yAge; simp +contextual (maxDischargeDepth := 40) [*]

@[simp] theorem State.yTc_sound {s : State} (hs : s.sound = true) (temp : ℤ)  :
    (State.yTc s temp).2.sound = true := by
  unfold State.yTc; simp +contextual (maxDischargeDepth := 40) [*]

@[simp] theorem State.putXo_sound {s : State} (hs : s.sound = true) (tc : ℤ) (age : ℤ)  :
    (State.putXo s tc age).sound = true := by
  unfold State.putXo; simp +contextual (maxDischargeDepth := 40) [*]

@[simp] theorem State.dieMoved_sound {s : State} (hs : s.sound = true)  :
    (State.dieMoved s).sound = true := by
  unfold State.dieMoved; simp +contextual (maxDischargeDepth := 40) [*]

@[simp] theorem State.fitTick_sound {s : State} (hs : s.sound = true)  :
    (State.fitTick s).sound = true := by
  unfold State.fitTick; simp +contextual (maxDischargeDepth := 40) [*]

@[simp] theorem State.readMeans_sound {s : State} (hs : s.sound = true)  :
    (State.readMeans s).sound = true := by
  unfold State.readMeans; simp +contextual (maxDischargeDepth := 40) [*]

@[simp] theorem State.xoUpdate_sound {s : State} (hs : s.sound = true) (m : XoMeasure)  :
    (State.xoUpdate s m).sound = true := by
  unfold State.xoUpdate; simp +contextual (maxDischargeDepth := 40) [*]

theorem execXoUpdate_sound {s : State} (hs : s.sound = true) (m : XoMeasure)  :
    ∀ u, execXoUpdate m s = .next u → u.sound = true := by
  intro u ht; unfold execXoUpdate at ht
  refine guarded_sound (fun s hs => ?_) hs ht
  repeat' first | (simp +contextual (maxDischargeDepth := 40) [*]; done) | split | dsimp only | (refine State.forEach_sound ?_ _ _ (fun _ _ _ => ?_)) | (refine State.onlyIf_sound ?_ _ _ (fun _ _ => ?_))

theorem execOvenStable_sound {s : State} (hs : s.sound = true)  :
    ∀ u, execOvenStable s = .next u → u.sound = true := by
  intro u ht; unfold execOvenStable at ht
  refine guarded_sound (fun s hs => ?_) hs ht
  repeat' first | (simp +contextual (maxDischargeDepth := 40) [*]; done) | split | dsimp only | (refine State.forEach_sound ?_ _ _ (fun _ _ _ => ?_)) | (refine State.onlyIf_sound ?_ _ _ (fun _ _ => ?_))

theorem execOvenFault_sound {s : State} (hs : s.sound = true)  :
    ∀ u, execOvenFault s = .next u → u.sound = true := by
  intro u ht; unfold execOvenFault at ht
  refine guarded_sound (fun s hs => ?_) hs ht
  repeat' first | (simp +contextual (maxDischargeDepth := 40) [*]; done) | split | dsimp only | (refine State.forEach_sound ?_ _ _ (fun _ _ _ => ?_)) | (refine State.onlyIf_sound ?_ _ _ (fun _ _ => ?_))

@[simp] theorem State.ageingFit_sound {s : State} (hs : s.sound = true) (f : AgeFit)  :
    (State.ageingFit s f).sound = true := by
  unfold State.ageingFit; simp +contextual (maxDischargeDepth := 40) [*]

theorem execAgeingFit_sound {s : State} (hs : s.sound = true) (f : AgeFit)  :
    ∀ u, execAgeingFit f s = .next u → u.sound = true := by
  intro u ht; unfold execAgeingFit at ht
  refine guarded_sound (fun s hs => ?_) hs ht
  repeat' first | (simp +contextual (maxDischargeDepth := 40) [*]; done) | split | dsimp only | (refine State.forEach_sound ?_ _ _ (fun _ _ _ => ?_)) | (refine State.onlyIf_sound ?_ _ _ (fun _ _ => ?_))

@[simp] theorem State.fitReset_sound {s : State} (hs : s.sound = true)  :
    (State.fitReset s).sound = true := by
  unfold State.fitReset; simp +contextual (maxDischargeDepth := 40) [*]

@[simp] theorem State.setServoState_sound {s : State} (hs : s.sound = true) (st : ℕ)  :
    (State.setServoState s st).sound = true := by
  unfold State.setServoState; simp +contextual (maxDischargeDepth := 40) [*]

@[simp] theorem State.cancelSlew_sound {s : State} (hs : s.sound = true)  :
    (State.cancelSlew s).sound = true := by
  unfold State.cancelSlew; simp +contextual (maxDischargeDepth := 40) [*]

@[simp] theorem State.startSlew_sound {s : State} (hs : s.sound = true) (th : ℤ)  :
    (State.startSlew s th).sound = true := by
  unfold State.startSlew; simp +contextual (maxDischargeDepth := 40) [*]

@[simp] theorem State.setRef_sound {s : State} (hs : s.sound = true) (k : ℕ) (x : RefSt)  :
    (State.setRef s k x).sound = true := by
  unfold State.setRef; simp +contextual (maxDischargeDepth := 40) [*]

@[simp] theorem State.composeRef_sound {s : State} (hs : s.sound = true) (k : ℕ)  :
    (State.composeRef s k).sound = true := by
  unfold State.composeRef; simp +contextual (maxDischargeDepth := 40) [*]

@[simp] theorem State.meanError_sound {s : State} (hs : s.sound = true) (vs : List ℤ)  :
    (State.meanError s vs).2.sound = true := by
  unfold State.meanError; simp +contextual (maxDischargeDepth := 40) [*]

@[simp] theorem State.putHold0_sound {s : State} (hs : s.sound = true) (b : Option ℕ)  :
    (State.putHold0 s b).sound = true := by
  unfold State.putHold0; simp +contextual (maxDischargeDepth := 40) [*]

@[simp] theorem State.enterHoldover_sound {s : State} (hs : s.sound = true) (byMode : Bool)  :
    (State.enterHoldover s byMode).sound = true := by
  unfold State.enterHoldover; simp +contextual (maxDischargeDepth := 40) [*]

@[simp] theorem State.adoptBase_sound {s : State} (hs : s.sound = true) (k : ℕ) (o : Option Obs)  :
    (State.adoptBase s k o).sound = true := by
  unfold State.adoptBase; simp +contextual (maxDischargeDepth := 40) [*]

@[simp] theorem State.keepFloor_sound {s : State} (hs : s.sound = true)  :
    (State.keepFloor s).sound = true := by
  unfold State.keepFloor; simp +contextual (maxDischargeDepth := 40) [*]

@[simp] theorem State.adoptSlew_sound {s : State} (hs : s.sound = true) (k : ℕ) (th : ℤ) (b : ℕ)  :
    (State.adoptSlew s k th b).sound = true := by
  unfold State.adoptSlew; simp +contextual (maxDischargeDepth := 40) [*]

@[simp] theorem State.adoptFreq_sound {s : State} (hs : s.sound = true) (k : ℕ)  :
    (State.adoptFreq s k).sound = true := by
  unfold State.adoptFreq; simp +contextual (maxDischargeDepth := 40) [*]

@[simp] theorem State.adoptStepped_sound {s : State} (hs : s.sound = true) (k : ℕ)  :
    (State.adoptStepped s k).sound = true := by
  unfold State.adoptStepped; simp +contextual (maxDischargeDepth := 40) [*]

@[simp] theorem State.askStep_sound {s : State} (hs : s.sound = true) (d : ℤ) (adopts : Option ℕ)  :
    (State.askStep s d adopts).sound = true := by
  unfold State.askStep; simp +contextual (maxDischargeDepth := 40) [*]

@[simp] theorem State.lockCheck_sound {s : State} (hs : s.sound = true) (k : ℕ)  :
    (State.lockCheck s k).sound = true := by
  unfold State.lockCheck; simp +contextual (maxDischargeDepth := 40) [*]

@[simp] theorem State.loop_sound {s : State} (hs : s.sound = true) (e : ℤ) (dt : ℕ)  :
    (State.loop s e dt).sound = true := by
  unfold State.loop; simp +contextual (maxDischargeDepth := 40) [*]

@[simp] theorem State.useObs_sound {s : State} (hs : s.sound = true) (k : ℕ) (o : Obs)  :
    (State.useObs s k o).sound = true := by
  unfold State.useObs; simp +contextual (maxDischargeDepth := 40) [*]

theorem execSlewEnd_sound {s : State} (hs : s.sound = true)  :
    ∀ u, execSlewEnd s = .next u → u.sound = true := by
  intro u ht; unfold execSlewEnd at ht
  refine guarded_sound (fun s hs => ?_) hs ht
  repeat' first | (simp +contextual (maxDischargeDepth := 40) [*]; done) | split | dsimp only | (refine State.forEach_sound ?_ _ _ (fun _ _ _ => ?_)) | (refine State.onlyIf_sound ?_ _ _ (fun _ _ => ?_))

@[simp] theorem State.cmdStep_sound {s : State} (hs : s.sound = true)  :
    (State.cmdStep s).1.sound = true := by
  unfold State.cmdStep; simp +contextual (maxDischargeDepth := 40) [*]

@[simp] theorem State.cmdStepProposed_sound {s : State} (hs : s.sound = true)  :
    (State.cmdStepProposed s).1.sound = true := by
  unfold State.cmdStepProposed; simp +contextual (maxDischargeDepth := 40) [*]

@[simp] theorem State.cmdSlewProposed_sound {s : State} (hs : s.sound = true)  :
    (State.cmdSlewProposed s).1.sound = true := by
  unfold State.cmdSlewProposed; simp +contextual (maxDischargeDepth := 40) [*]

@[simp] theorem State.stepCmd_sound {s : State} (hs : s.sound = true) (v : ℕ)  :
    (State.stepCmd s v).1.sound = true := by
  unfold State.stepCmd; repeat' first | (simp +contextual (maxDischargeDepth := 40) [*]; done) | split | dsimp only | (refine State.forEach_sound ?_ _ _ (fun _ _ _ => ?_)) | (refine State.onlyIf_sound ?_ _ _ (fun _ _ => ?_))

@[simp] theorem State.freerun_sound {s : State} (hs : s.sound = true)  :
    (State.freerun s).sound = true := by
  unfold State.freerun; simp +contextual (maxDischargeDepth := 40) [*]

@[simp] theorem State.enterManual_sound {s : State} (hs : s.sound = true)  :
    (State.enterManual s).sound = true := by
  unfold State.enterManual; simp +contextual (maxDischargeDepth := 40) [*]

@[simp] theorem State.writeY_sound {s : State} (hs : s.sound = true) (v : ℕ)  :
    (State.writeY s v).1.sound = true := by
  unfold State.writeY; simp +contextual (maxDischargeDepth := 40) [*]

end Sys2Proof.Machine
end

