-- ==== Sys2Proof/Laws/SoundRefsel.lean ====
section
/-! SUPPORT. The operations of Refsel keep the form of a state. -/

namespace Sys2Proof.Machine

set_option linter.unusedTactic false
set_option linter.unreachableTactic false

@[simp] theorem State.putRefState_sound {s : State} (hs : s.sound = true) (k : ℕ) (st : ℕ)  :
    (State.putRefState s k st).sound = true := by
  unfold State.putRefState; simp +contextual (maxDischargeDepth := 40) [*]

@[simp] theorem State.putSelected_sound {s : State} (hs : s.sound = true) (k : ℕ)  :
    (State.putSelected s k).sound = true := by
  unfold State.putSelected; simp +contextual (maxDischargeDepth := 40) [*]

@[simp] theorem State.clearConflict_sound {s : State} (hs : s.sound = true)  :
    (State.clearConflict s).sound = true := by
  unfold State.clearConflict; simp +contextual (maxDischargeDepth := 40) [*]

@[simp] theorem State.makeSuspect_sound {s : State} (hs : s.sound = true) (k : ℕ)  :
    (State.makeSuspect s k).sound = true := by
  unfold State.makeSuspect; simp +contextual (maxDischargeDepth := 40) [*]

@[simp] theorem State.acquire_sound {s : State} (hs : s.sound = true) (k : ℕ)  :
    (State.acquire s k).sound = true := by
  unfold State.acquire; repeat' first | (simp +contextual (maxDischargeDepth := 40) [*]; done) | split | dsimp only | (refine State.forEach_sound ?_ _ _ (fun _ _ _ => ?_)) | (refine State.onlyIf_sound ?_ _ _ (fun _ _ => ?_))

@[simp] theorem State.raiseConflict_sound {s : State} (hs : s.sound = true) (k : ℕ)  :
    (State.raiseConflict s k).sound = true := by
  unfold State.raiseConflict; simp +contextual (maxDischargeDepth := 40) [*]

@[simp] theorem State.deselect_sound {s : State} (hs : s.sound = true)  :
    (State.deselect s).sound = true := by
  unfold State.deselect; repeat' first | (simp +contextual (maxDischargeDepth := 40) [*]; done) | split | dsimp only | (refine State.forEach_sound ?_ _ _ (fun _ _ _ => ?_)) | (refine State.onlyIf_sound ?_ _ _ (fun _ _ => ?_))

@[simp] theorem State.exchange_sound {s : State} (hs : s.sound = true) (old : ℕ) (new : ℕ)  :
    (State.exchange s old new).sound = true := by
  unfold State.exchange; simp +contextual (maxDischargeDepth := 40) [*]

@[simp] theorem State.adopt_sound {s : State} (hs : s.sound = true) (k : ℕ) (a : Adoption)  :
    (State.adopt s k a).sound = true := by
  unfold State.adopt; repeat' first | (simp +contextual (maxDischargeDepth := 40) [*]; done) | split | dsimp only | (refine State.forEach_sound ?_ _ _ (fun _ _ _ => ?_)) | (refine State.onlyIf_sound ?_ _ _ (fun _ _ => ?_))

@[simp] theorem State.reselectWith_sound {s : State} (hs : s.sound = true) (F : State → Nat) (n : Nat) (skip : List Nat) :
    (State.reselectWith F n skip s).sound = true := by
  induction n generalizing s skip with
  | zero => exact hs
  | succ n ih =>
    unfold State.reselectWith
    split
    · split
      · exact hs
      · simp +contextual (maxDischargeDepth := 40) [*]
    · extract_lets auto old switched s1
      have hsw : ∀ t : State, t.sound = true → (switched t).sound = true := by
        intro t ht
        simp only [switched]
        simp +contextual (maxDischargeDepth := 40) [*]
      clear_value switched
      have hc := fun k => hsw _ (State.adoptFreq_sound (State.putSelected_sound hs k) k)
      have ha := fun k => hsw _ (State.acquire_sound (State.putSelected_sound hs k) k)
      split
      · exact hs
      · split
        · exact hsw _ (State.putSelected_sound hs _)
        · split
          · (repeat' split) <;> first | exact hs | exact ha _ | exact hc _
          · split
            · exact hs
            · split
              · split <;> first | exact hs | exact hc _
              · split
                · exact ih (State.makeSuspect_sound hs _) _
                · (repeat' split) <;> first | exact ih hs _ | (simp +contextual (maxDischargeDepth := 40) [*]; done)
                · refine hsw _ (State.adopt_sound ?_ _ _)
                  simp only [s1]
                  split <;> simp +contextual (maxDischargeDepth := 40) [*]
                · exact hsw _ (State.adopt_sound (State.clearConflict_sound hs) _ _)

@[simp] theorem State.reselect_sound {s : State} (hs : s.sound = true)  :
    (State.reselect s).sound = true := by
  unfold State.reselect
  split
  · exact hs
  · exact State.reselectWith_sound hs _ _ _

@[simp] theorem State.refreshDomain_sound {s : State} (hs : s.sound = true)  :
    (State.refreshDomain s).sound = true := by
  unfold State.refreshDomain; simp +contextual (maxDischargeDepth := 40) [*]

@[simp] theorem State.judgeDiff_sound {s : State} (hs : s.sound = true)  :
    (State.judgeDiff s).sound = true := by
  unfold State.judgeDiff; simp +contextual (maxDischargeDepth := 40) [*]

@[simp] theorem State.putVerdict_sound {s : State} (hs : s.sound = true) (v : ℕ)  :
    (State.putVerdict s v).sound = true := by
  unfold State.putVerdict; simp +contextual (maxDischargeDepth := 40) [*]

@[simp] theorem State.declarePath_sound {s : State} (hs : s.sound = true) (k : ℕ)  :
    (State.declarePath s k).sound = true := by
  unfold State.declarePath; simp +contextual (maxDischargeDepth := 40) [*]

@[simp] theorem State.pathWatch_sound {s : State} (hs : s.sound = true) (k : ℕ) (o : Obs)  :
    (State.pathWatch s k o).1.sound = true := by
  unfold State.pathWatch; repeat' first | (simp +contextual (maxDischargeDepth := 40) [*]; done) | split | dsimp only | (refine State.forEach_sound ?_ _ _ (fun _ _ _ => ?_)) | (refine State.onlyIf_sound ?_ _ _ (fun _ _ => ?_))

@[simp] theorem State.unfreeze_sound {s : State} (hs : s.sound = true) (k : ℕ) (keep : Bool)  :
    (State.unfreeze s k keep).sound = true := by
  unfold State.unfreeze; simp +contextual (maxDischargeDepth := 40) [*]

@[simp] theorem State.closePath_sound {s : State} (hs : s.sound = true) (v : ℕ)  :
    (State.closePath s v).sound = true := by
  unfold State.closePath
  extract_lets refs F s1 s2 s3 src s4
  have h_s1 : s1.sound = true := by simp only [s1]; repeat' first | (simp +contextual (maxDischargeDepth := 40) [*]; done) | split | dsimp only | (refine State.forEach_sound ?_ _ _ (fun _ _ _ => ?_)) | (refine State.onlyIf_sound ?_ _ _ (fun _ _ => ?_))
  clear_value s1
  have h_s2 : s2.sound = true := by simp only [s2]; repeat' first | (simp +contextual (maxDischargeDepth := 40) [*]; done) | split | dsimp only | (refine State.forEach_sound ?_ _ _ (fun _ _ _ => ?_)) | (refine State.onlyIf_sound ?_ _ _ (fun _ _ => ?_))
  clear_value s2
  have h_s3 : s3.sound = true := by simp only [s3]; repeat' first | (simp +contextual (maxDischargeDepth := 40) [*]; done) | split | dsimp only | (refine State.forEach_sound ?_ _ _ (fun _ _ _ => ?_)) | (refine State.onlyIf_sound ?_ _ _ (fun _ _ => ?_))
  clear_value s3
  have h_s4 : s4.sound = true := by simp only [s4]; repeat' first | (simp +contextual (maxDischargeDepth := 40) [*]; done) | split | dsimp only | (refine State.forEach_sound ?_ _ _ (fun _ _ _ => ?_)) | (refine State.onlyIf_sound ?_ _ _ (fun _ _ => ?_))
  clear_value s4
  repeat' first | (simp +contextual (maxDischargeDepth := 40) [*]; done) | split | dsimp only | (refine State.forEach_sound ?_ _ _ (fun _ _ _ => ?_)) | (refine State.onlyIf_sound ?_ _ _ (fun _ _ => ?_))

@[simp] theorem State.pathVerdict_sound {s : State} (hs : s.sound = true) (j : ℕ)  :
    (State.pathVerdict s j).sound = true := by
  unfold State.pathVerdict; simp +contextual (maxDischargeDepth := 40) [*]

@[simp] theorem State.queueObs_sound {s : State} (hs : s.sound = true) (k : ℕ) (o : Obs)  :
    (State.queueObs s k o).sound = true := by
  unfold State.queueObs; simp +contextual (maxDischargeDepth := 40) [*]

@[simp] theorem State.refStamp_sound {s : State} (hs : s.sound = true) (k : ℕ) (i : ℕ) (st : Stamp)  :
    (State.refStamp s k i st).sound = true := by
  unfold State.refStamp; repeat' first | (simp +contextual (maxDischargeDepth := 40) [*]; done) | split | dsimp only | (refine State.forEach_sound ?_ _ _ (fun _ _ _ => ?_)) | (refine State.onlyIf_sound ?_ _ _ (fun _ _ => ?_))

@[simp] theorem State.showSlope_sound {s : State} (hs : s.sound = true) (k : ℕ) (w : List Obs)  :
    (State.showSlope s k w).sound = true := by
  unfold State.showSlope; simp +contextual (maxDischargeDepth := 40) [*]

@[simp] theorem State.restartDwell_sound {s : State} (hs : s.sound = true) (k : ℕ)  :
    (State.restartDwell s k).sound = true := by
  unfold State.restartDwell; simp +contextual (maxDischargeDepth := 40) [*]

@[simp] theorem State.failObs_sound {s : State} (hs : s.sound = true) (k : ℕ) (o : Obs) (check : ℕ)  :
    (State.failObs s k o check).sound = true := by
  unfold State.failObs; simp +contextual (maxDischargeDepth := 40) [*]

@[simp] theorem State.passObs_sound {s : State} (hs : s.sound = true) (k : ℕ) (o : Obs)  :
    (State.passObs s k o).sound = true := by
  unfold State.passObs; simp +contextual (maxDischargeDepth := 40) [*]

@[simp] theorem State.seeObs_sound {s : State} (hs : s.sound = true) (k : ℕ) (o : Obs)  :
    (State.seeObs s k o).sound = true := by
  unfold State.seeObs; simp +contextual (maxDischargeDepth := 40) [*]

@[simp] theorem State.testObs_sound {s : State} (hs : s.sound = true) (k : ℕ) (o : Obs)  :
    (State.testObs s k o).sound = true := by
  unfold State.testObs; simp +contextual (maxDischargeDepth := 40) [*]

@[simp] theorem State.domainObs_sound {s : State} (hs : s.sound = true) (k : ℕ)  :
    (State.domainObs s k).sound = true := by
  unfold State.domainObs; simp +contextual (maxDischargeDepth := 40) [*]

theorem execRefObservation_sound {s : State} (hs : s.sound = true) (k : ℕ)  :
    ∀ u, execRefObservation k s = .next u → u.sound = true := by
  intro u ht; unfold execRefObservation at ht
  refine guarded_sound (fun s hs => ?_) hs ht
  repeat' first | (simp +contextual (maxDischargeDepth := 40) [*]; done) | split | dsimp only | (refine State.forEach_sound ?_ _ _ (fun _ _ _ => ?_)) | (refine State.onlyIf_sound ?_ _ _ (fun _ _ => ?_))

@[simp] theorem State.loseRef_sound {s : State} (hs : s.sound = true) (k : ℕ)  :
    (State.loseRef s k).sound = true := by
  unfold State.loseRef; simp +contextual (maxDischargeDepth := 40) [*]

theorem execRefPresenceFail_sound {s : State} (hs : s.sound = true) (k : ℕ)  :
    ∀ u, execRefPresenceFail k s = .next u → u.sound = true := by
  intro u ht; unfold execRefPresenceFail at ht
  refine guarded_sound (fun s hs => ?_) hs ht
  repeat' first | (simp +contextual (maxDischargeDepth := 40) [*]; done) | split | dsimp only | (refine State.forEach_sound ?_ _ _ (fun _ _ _ => ?_)) | (refine State.onlyIf_sound ?_ _ _ (fun _ _ => ?_))

@[simp] theorem State.resetRef_sound {s : State} (hs : s.sound = true) (k : ℕ) (st : ℕ)  :
    (State.resetRef s k st).sound = true := by
  unfold State.resetRef; simp +contextual (maxDischargeDepth := 40) [*]

@[simp] theorem State.enableRef_sound {s : State} (hs : s.sound = true) (k : ℕ) (upstream : Bool)  :
    (State.enableRef s k upstream).1.sound = true := by
  unfold State.enableRef; repeat' first | (simp +contextual (maxDischargeDepth := 40) [*]; done) | (rename_i he; have hu := State.takePlace_sound (by simp +contextual (maxDischargeDepth := 40) [*]) _ _ _ _ he; simp +contextual (maxDischargeDepth := 40) [*]; done) | split | dsimp only | (refine State.forEach_sound ?_ _ _ (fun _ _ _ => ?_)) | (refine State.onlyIf_sound ?_ _ _ (fun _ _ => ?_))

@[simp] theorem State.disableRef_sound {s : State} (hs : s.sound = true) (k : ℕ)  :
    (State.disableRef s k).sound = true := by
  unfold State.disableRef; simp +contextual (maxDischargeDepth := 40) [*]

@[simp] theorem State.refChanged_sound {s : State} (hs : s.sound = true) (k : ℕ)  :
    (State.refChanged s k).sound = true := by
  unfold State.refChanged; simp +contextual (maxDischargeDepth := 40) [*]

@[simp] theorem State.cmdAccept_sound {s : State} (hs : s.sound = true) (k : ℕ) (step : Bool)  :
    (State.cmdAccept s k step).1.sound = true := by
  unfold State.cmdAccept; simp +contextual (maxDischargeDepth := 40) [*]

@[simp] theorem State.cmdReject_sound {s : State} (hs : s.sound = true) (k : ℕ)  :
    (State.cmdReject s k).1.sound = true := by
  unfold State.cmdReject; simp +contextual (maxDischargeDepth := 40) [*]

@[simp] theorem State.cmdClearSuspect_sound {s : State} (hs : s.sound = true) (k : ℕ)  :
    (State.cmdClearSuspect s k).1.sound = true := by
  unfold State.cmdClearSuspect; simp +contextual (maxDischargeDepth := 40) [*]

@[simp] theorem State.cmdRequalify_sound {s : State} (hs : s.sound = true) (k : ℕ)  :
    (State.cmdRequalify s k).1.sound = true := by
  unfold State.cmdRequalify; simp +contextual (maxDischargeDepth := 40) [*]

@[simp] theorem State.selCmd_sound {s : State} (hs : s.sound = true) (v : ℕ)  :
    (State.selCmd s v).1.sound = true := by
  unfold State.selCmd; repeat' first | (simp +contextual (maxDischargeDepth := 40) [*]; done) | split | dsimp only | (refine State.forEach_sound ?_ _ _ (fun _ _ _ => ?_)) | (refine State.onlyIf_sound ?_ _ _ (fun _ _ => ?_))

@[simp] theorem State.cmdPush_sound {s : State} (hs : s.sound = true) (v : ℕ)  :
    (State.cmdPush s v).1.sound = true := by
  unfold State.cmdPush; simp +contextual (maxDischargeDepth := 40) [*]

@[simp] theorem State.servoMode_sound {s : State} (hs : s.sound = true)  :
    (State.servoMode s).sound = true := by
  unfold State.servoMode; repeat' first | (simp +contextual (maxDischargeDepth := 40) [*]; done) | split | dsimp only | (refine State.forEach_sound ?_ _ _ (fun _ _ _ => ?_)) | (refine State.onlyIf_sound ?_ _ _ (fun _ _ => ?_))

@[simp] theorem State.cmdSwitch_sound {s : State} (hs : s.sound = true)  :
    (State.cmdSwitch s).1.sound = true := by
  unfold State.cmdSwitch; simp +contextual (maxDischargeDepth := 40) [*]

@[simp] theorem State.domCmd_sound {s : State} (hs : s.sound = true) (v : ℕ)  :
    (State.domCmd s v).1.sound = true := by
  unfold State.domCmd; repeat' first | (simp +contextual (maxDischargeDepth := 40) [*]; done) | split | dsimp only | (refine State.forEach_sound ?_ _ _ (fun _ _ _ => ?_)) | (refine State.onlyIf_sound ?_ _ _ (fun _ _ => ?_))

@[simp] theorem State.refStep_sound {s : State} (hs : s.sound = true) (d : ℤ) (k : ℕ)  :
    (State.refStep s d k).sound = true := by
  unfold State.refStep; simp +contextual (maxDischargeDepth := 40) [*]

end Sys2Proof.Machine
end

