-- ==== Sys2Proof/Laws/SoundAuxOut.lean ====
section
/-! SUPPORT. The operations of AuxOut keep the form of a state. -/

namespace Sys2Proof.Machine

set_option linter.unusedTactic false
set_option linter.unreachableTactic false

@[simp] theorem State.setAux_sound {s : State} (hs : s.sound = true) (n : ℕ) (x : AuxSt)  :
    (State.setAux s n x).sound = true := by
  unfold State.setAux; simp +contextual (maxDischargeDepth := 40) [*]

@[simp] theorem State.auxPin_sound {s : State} (hs : s.sound = true) (n : ℕ) (running : Bool)  :
    (State.auxPin s n running).sound = true := by
  unfold State.auxPin; simp +contextual (maxDischargeDepth := 40) [*]

@[simp] theorem State.startRamp_sound {s : State} (hs : s.sound = true) (target : ℕ) (us : ℕ)  :
    (State.startRamp s target us).sound = true := by
  unfold State.startRamp; simp +contextual (maxDischargeDepth := 40) [*]

@[simp] theorem State.startRelock_sound {s : State} (hs : s.sound = true) (n : ℕ)  :
    (State.startRelock s n).sound = true := by
  unfold State.startRelock; simp +contextual (maxDischargeDepth := 40) [*]

@[simp] theorem State.cmdSet_sound {s : State} (hs : s.sound = true)  :
    (State.cmdSet s).1.sound = true := by
  unfold State.cmdSet; repeat' first | (simp +contextual (maxDischargeDepth := 40) [*]; done) | split | dsimp only | (refine State.forEach_sound ?_ _ _ (fun _ _ _ => ?_)) | (refine State.onlyIf_sound ?_ _ _ (fun _ _ => ?_))

@[simp] theorem State.cmdRunProfile_sound {s : State} (hs : s.sound = true)  :
    (State.cmdRunProfile s).1.sound = true := by
  unfold State.cmdRunProfile; repeat' first | (simp +contextual (maxDischargeDepth := 40) [*]; done) | split | dsimp only | (refine State.forEach_sound ?_ _ _ (fun _ _ _ => ?_)) | (refine State.onlyIf_sound ?_ _ _ (fun _ _ => ?_))

@[simp] theorem State.cmdAbortRamp_sound {s : State} (hs : s.sound = true)  :
    (State.cmdAbortRamp s).1.sound = true := by
  unfold State.cmdAbortRamp; simp +contextual (maxDischargeDepth := 40) [*]

@[simp] theorem State.cmdRelock_sound {s : State} (hs : s.sound = true)  :
    (State.cmdRelock s).1.sound = true := by
  unfold State.cmdRelock; repeat' first | (simp +contextual (maxDischargeDepth := 40) [*]; done) | split | dsimp only | (refine State.forEach_sound ?_ _ _ (fun _ _ _ => ?_)) | (refine State.onlyIf_sound ?_ _ _ (fun _ _ => ?_))

@[simp] theorem State.freqCmd_sound {s : State} (hs : s.sound = true) (v : ℕ)  :
    (State.freqCmd s v).1.sound = true := by
  unfold State.freqCmd; repeat' first | (simp +contextual (maxDischargeDepth := 40) [*]; done) | split | dsimp only | (refine State.forEach_sound ?_ _ _ (fun _ _ _ => ?_)) | (refine State.onlyIf_sound ?_ _ _ (fun _ _ => ?_))

@[simp] theorem State.toPoint_sound {s : State} (hs : s.sound = true) (k : ℕ)  :
    (State.toPoint s k).sound = true := by
  unfold State.toPoint; simp +contextual (maxDischargeDepth := 40) [*]

@[simp] theorem State.rampEnd_sound {s : State} (hs : s.sound = true)  :
    (State.rampEnd s).sound = true := by
  unfold State.rampEnd; simp +contextual (maxDischargeDepth := 40) [*]

theorem execRampEnd_sound {s : State} (hs : s.sound = true)  :
    ∀ u, execRampEnd s = .next u → u.sound = true := by
  intro u ht; unfold execRampEnd at ht
  refine guarded_sound (fun s hs => ?_) hs ht
  repeat' first | (simp +contextual (maxDischargeDepth := 40) [*]; done) | split | dsimp only | (refine State.forEach_sound ?_ _ _ (fun _ _ _ => ?_)) | (refine State.onlyIf_sound ?_ _ _ (fun _ _ => ?_))

theorem execProfileDone_sound {s : State} (hs : s.sound = true)  :
    ∀ u, execProfileDone s = .next u → u.sound = true := by
  intro u ht; unfold execProfileDone at ht
  refine guarded_sound (fun s hs => ?_) hs ht
  repeat' first | (simp +contextual (maxDischargeDepth := 40) [*]; done) | split | dsimp only | (refine State.forEach_sound ?_ _ _ (fun _ _ _ => ?_)) | (refine State.onlyIf_sound ?_ _ _ (fun _ _ => ?_))

theorem execSscChange_sound {s : State} (hs : s.sound = true)  :
    ∀ u, execSscChange s = .next u → u.sound = true := by
  intro u ht; unfold execSscChange at ht
  refine guarded_sound (fun s hs => ?_) hs ht
  repeat' first | (simp +contextual (maxDischargeDepth := 40) [*]; done) | split | dsimp only | (refine State.forEach_sound ?_ _ _ (fun _ _ _ => ?_)) | (refine State.onlyIf_sound ?_ _ _ (fun _ _ => ?_))

@[simp] theorem State.auxArm_sound {s : State} (hs : s.sound = true) (n : ℕ)  :
    (State.auxArm s n).sound = true := by
  unfold State.auxArm; simp +contextual (maxDischargeDepth := 40) [*]

@[simp] theorem State.dropMarks_sound {s : State} (hs : s.sound = true) (n : ℕ) (t32 : ℤ)  :
    (State.dropMarks s n t32).sound = true := by
  unfold State.dropMarks; simp +contextual (maxDischargeDepth := 40) [*]

@[simp] theorem State.loseMarks_sound {s : State} (hs : s.sound = true) (n : ℕ)  :
    (State.loseMarks s n).sound = true := by
  unfold State.loseMarks; simp +contextual (maxDischargeDepth := 40) [*]

@[simp] theorem State.auxLocked_sound {s : State} (hs : s.sound = true) (n : ℕ) (phase : ℕ)  :
    (State.auxLocked s n phase).sound = true := by
  unfold State.auxLocked; simp +contextual (maxDischargeDepth := 40) [*]

@[simp] theorem State.apllaLockDeclared_sound {s : State} (hs : s.sound = true)  :
    (State.apllaLockDeclared s).sound = true := by
  unfold State.apllaLockDeclared; simp +contextual (maxDischargeDepth := 40) [*]

@[simp] theorem State.apllaWindow_sound {s : State} (hs : s.sound = true) (count : ℕ)  :
    (State.apllaWindow s count).sound = true := by
  unfold State.apllaWindow; simp +contextual (maxDischargeDepth := 40) [*]

@[simp] theorem State.takeMarks_sound {s : State} (hs : s.sound = true) (n : ℕ) (c : ℕ)  :
    (State.takeMarks s n c).sound = true := by
  unfold State.takeMarks; simp +contextual (maxDischargeDepth := 40) [*]

@[simp] theorem State.auxStop_sound {s : State} (hs : s.sound = true) (n : ℕ)  :
    (State.auxStop s n).sound = true := by
  unfold State.auxStop; simp +contextual (maxDischargeDepth := 40) [*]

@[simp] theorem State.auxUnlocked_sound {s : State} (hs : s.sound = true) (n : ℕ)  :
    (State.auxUnlocked s n).sound = true := by
  unfold State.auxUnlocked; simp +contextual (maxDischargeDepth := 40) [*]

@[simp] theorem State.auxPeriod_sound {s : State} (hs : s.sound = true) (n : ℕ)  :
    (State.auxPeriod s n).sound = true := by
  unfold State.auxPeriod; simp +contextual (maxDischargeDepth := 40) [*]

@[simp] theorem State.bypassPeriod_sound {s : State} (hs : s.sound = true) (n : ℕ)  :
    (State.bypassPeriod s n).sound = true := by
  unfold State.bypassPeriod; simp +contextual (maxDischargeDepth := 40) [*]

@[simp] theorem State.auxBegin_sound {s : State} (hs : s.sound = true) (n : ℕ) (c : ℕ)  :
    (State.auxBegin s n c).sound = true := by
  unfold State.auxBegin; simp +contextual (maxDischargeDepth := 40) [*]

@[simp] theorem State.auxIdle_sound {s : State} (hs : s.sound = true) (n : ℕ)  :
    (State.auxIdle s n).sound = true := by
  unfold State.auxIdle; repeat' first | (simp +contextual (maxDischargeDepth := 40) [*]; done) | split | dsimp only | (refine State.forEach_sound ?_ _ _ (fun _ _ _ => ?_)) | (refine State.onlyIf_sound ?_ _ _ (fun _ _ => ?_))

theorem execAuxPeriodEnd_sound {s : State} (hs : s.sound = true) (n : ℕ)  :
    ∀ u, execAuxPeriodEnd n s = .next u → u.sound = true := by
  intro u ht; unfold execAuxPeriodEnd at ht
  refine guarded_sound (fun s hs => ?_) hs ht
  repeat' first | (simp +contextual (maxDischargeDepth := 40) [*]; done) | split | dsimp only | (refine State.forEach_sound ?_ _ _ (fun _ _ _ => ?_)) | (refine State.onlyIf_sound ?_ _ _ (fun _ _ => ?_))

@[simp] theorem State.auxSafe_sound {s : State} (hs : s.sound = true) (n : ℕ) (cause : SafeCause)  :
    (State.auxSafe s n cause).sound = true := by
  unfold State.auxSafe; simp +contextual (maxDischargeDepth := 40) [*]

@[simp] theorem State.auxSafeLeave_sound {s : State} (hs : s.sound = true) (n : ℕ)  :
    (State.auxSafeLeave s n).sound = true := by
  unfold State.auxSafeLeave; simp +contextual (maxDischargeDepth := 40) [*]

@[simp] theorem State.apllaStart_sound {s : State} (hs : s.sound = true)  :
    (State.apllaStart s).1.sound = true := by
  unfold State.apllaStart; simp +contextual (maxDischargeDepth := 40) [*]

@[simp] theorem State.apllaStop_sound {s : State} (hs : s.sound = true)  :
    (State.apllaStop s).sound = true := by
  unfold State.apllaStop; simp +contextual (maxDischargeDepth := 40) [*]

@[simp] theorem State.auxStart_sound {s : State} (hs : s.sound = true) (n : ℕ)  :
    (State.auxStart s n).1.sound = true := by
  unfold State.auxStart; simp +contextual (maxDischargeDepth := 40) [*]

end Sys2Proof.Machine
end

