-- ==== Sys2Proof/Laws/SoundEave.lean ====
section
/-! SUPPORT. The operations of Eave keep the form of a state. -/

namespace Sys2Proof.Machine

set_option linter.unusedTactic false
set_option linter.unreachableTactic false

@[simp] theorem State.eaveLog_sound {s : State} (hs : s.sound = true) (code : ℕ) (data : ℕ)  :
    (State.eaveLog s code data).sound = true := by
  unfold State.eaveLog; simp +contextual (maxDischargeDepth := 40) [*]

@[simp] theorem State.eaveLogClear_sound {s : State} (hs : s.sound = true)  :
    (State.eaveLogClear s).sound = true := by
  unfold State.eaveLogClear; simp +contextual (maxDischargeDepth := 40) [*]

@[simp] theorem State.setPwr_sound {s : State} (hs : s.sound = true) (high : Bool) (cause : ℕ)  :
    (State.setPwr s high cause).sound = true := by
  unfold State.setPwr; simp +contextual (maxDischargeDepth := 40) [*]

@[simp] theorem State.cancelDown_sound {s : State} (hs : s.sound = true)  :
    (State.cancelDown s).sound = true := by
  unfold State.cancelDown; simp +contextual (maxDischargeDepth := 40) [*]

@[simp] theorem State.pwrOnNow_sound {s : State} (hs : s.sound = true) (cause : ℕ)  :
    (State.pwrOnNow s cause).sound = true := by
  unfold State.pwrOnNow; simp +contextual (maxDischargeDepth := 40) [*]

@[simp] theorem State.pwrOffDelayed_sound {s : State} (hs : s.sound = true) (cause : ℕ)  :
    (State.pwrOffDelayed s cause).sound = true := by
  unfold State.pwrOffDelayed; simp +contextual (maxDischargeDepth := 40) [*]

@[simp] theorem State.pwrOffNow_sound {s : State} (hs : s.sound = true) (cause : ℕ)  :
    (State.pwrOffNow s cause).sound = true := by
  unfold State.pwrOffNow; simp +contextual (maxDischargeDepth := 40) [*]

@[simp] theorem State.setAlert_sound {s : State} (hs : s.sound = true) (on : Bool)  :
    (State.setAlert s on).sound = true := by
  unfold State.setAlert; simp +contextual (maxDischargeDepth := 40) [*]

@[simp] theorem State.eaveWait_sound {s : State} (hs : s.sound = true) (c : EaveCmd)  :
    (State.eaveWait s c).sound = true := by
  unfold State.eaveWait; simp +contextual (maxDischargeDepth := 40) [*]

theorem execPwrDownDelayExpiry_sound {s : State} (hs : s.sound = true)  :
    ∀ u, execPwrDownDelayExpiry s = .next u → u.sound = true := by
  intro u ht; unfold execPwrDownDelayExpiry at ht
  refine guarded_sound (fun s hs => ?_) hs ht
  repeat' first | (simp +contextual (maxDischargeDepth := 40) [*]; done) | split | dsimp only | (refine State.forEach_sound ?_ _ _ (fun _ _ _ => ?_)) | (refine State.onlyIf_sound ?_ _ _ (fun _ _ => ?_))

@[simp] theorem State.setCalUnc_sound {s : State} (hs : s.sound = true) (ns : ℕ)  :
    (State.setCalUnc s ns).sound = true := by
  unfold State.setCalUnc; simp +contextual (maxDischargeDepth := 40) [*]

@[simp] theorem State.loadCal_sound {s : State} (hs : s.sound = true) (t32 : ℤ)  :
    (State.loadCal s t32).sound = true := by
  unfold State.loadCal; simp +contextual (maxDischargeDepth := 40) [*]

@[simp] theorem State.eaveCmd_sound {s : State} (hs : s.sound = true) (c : EaveCmd)  :
    (State.eaveCmd s c).sound = true := by
  unfold State.eaveCmd; repeat' first | (simp +contextual (maxDischargeDepth := 40) [*]; done) | split | dsimp only | (refine State.forEach_sound ?_ _ _ (fun _ _ _ => ?_)) | (refine State.onlyIf_sound ?_ _ _ (fun _ _ => ?_))

@[simp] theorem State.countEdge_sound {s : State} (hs : s.sound = true)  :
    (State.countEdge s).sound = true := by
  unfold State.countEdge
  extract_lets trim acc extra n growth src srcE s1 s2 src3 srcE3 s3 s4 srcE4
  have h1 : s1.sound = true := by simp only [s1, src, srcE]; simp +contextual (maxDischargeDepth := 40) [*]
  clear_value s1 src srcE
  have h2 : s2.sound = true := by simp only [s2]; simp +contextual (maxDischargeDepth := 40) [*]
  clear_value s2
  have h3 : s3.sound = true := by simp only [s3, src3, srcE3]; split <;> simp +contextual (maxDischargeDepth := 40) [*]
  clear_value s3 src3 srcE3
  have h4 : s4.sound = true := by simp only [s4]; repeat' first | (simp +contextual (maxDischargeDepth := 40) [*]; done) | split | dsimp only | (refine State.forEach_sound ?_ _ _ (fun _ _ _ => ?_)) | (refine State.onlyIf_sound ?_ _ _ (fun _ _ => ?_))
  clear_value s4 srcE4
  simp +contextual (maxDischargeDepth := 40) [*]


@[simp] theorem State.eaveTick_sound {s : State} (hs : s.sound = true)  :
    (State.eaveTick s).sound = true := by
  unfold State.eaveTick; simp +contextual (maxDischargeDepth := 40) [*]

@[simp] theorem State.copyLeap_sound {s : State} (hs : s.sound = true)  :
    (State.copyLeap s).sound = true := by
  unfold State.copyLeap; simp +contextual (maxDischargeDepth := 40) [*]

@[simp] theorem State.loadLeap_sound {s : State} (hs : s.sound = true)  :
    (State.loadLeap s).sound = true := by
  unfold State.loadLeap; simp +contextual (maxDischargeDepth := 40) [*]

theorem execEaveLeap_sound {s : State} (hs : s.sound = true)  :
    ∀ u, execEaveLeap s = .next u → u.sound = true := by
  intro u ht; unfold execEaveLeap at ht
  refine guarded_sound (fun s hs => ?_) hs ht
  repeat' first | (simp +contextual (maxDischargeDepth := 40) [*]; done) | split | dsimp only | (refine State.forEach_sound ?_ _ _ (fun _ _ _ => ?_)) | (refine State.onlyIf_sound ?_ _ _ (fun _ _ => ?_))

@[simp] theorem State.eaveSecond_sound {s : State} (hs : s.sound = true)  :
    (State.eaveSecond s).sound = true := by
  unfold State.eaveSecond; simp +contextual (maxDischargeDepth := 40) [*]

@[simp] theorem State.calendarSync_sound {s : State} (hs : s.sound = true)  :
    (State.calendarSync s).sound = true := by
  unfold State.calendarSync; repeat' first | (simp +contextual (maxDischargeDepth := 40) [*]; done) | split | dsimp only | (refine State.forEach_sound ?_ _ _ (fun _ _ _ => ?_)) | (refine State.onlyIf_sound ?_ _ _ (fun _ _ => ?_))

theorem execCalendarSync_sound {s : State} (hs : s.sound = true)  :
    ∀ u, execCalendarSync s = .next u → u.sound = true := by
  intro u ht; unfold execCalendarSync at ht
  refine guarded_sound (fun s hs => ?_) hs ht
  repeat' first | (simp +contextual (maxDischargeDepth := 40) [*]; done) | split | dsimp only | (refine State.forEach_sound ?_ _ _ (fun _ _ _ => ?_)) | (refine State.onlyIf_sound ?_ _ _ (fun _ _ => ?_))

theorem execTrimRenew_sound {s : State} (hs : s.sound = true) (trim : ℕ)  :
    ∀ u, execTrimRenew trim s = .next u → u.sound = true := by
  intro u ht; unfold execTrimRenew at ht
  refine guarded_sound (fun s hs => ?_) hs ht
  repeat' first | (simp +contextual (maxDischargeDepth := 40) [*]; done) | split | dsimp only | (refine State.forEach_sound ?_ _ _ (fun _ _ _ => ?_)) | (refine State.onlyIf_sound ?_ _ _ (fun _ _ => ?_))

theorem execEaveSwitchover_sound {s : State} (hs : s.sound = true) (toVbat : Bool)  :
    ∀ u, execEaveSwitchover toVbat s = .next u → u.sound = true := by
  intro u ht; unfold execEaveSwitchover at ht
  refine guarded_sound (fun s hs => ?_) hs ht
  repeat' first | (simp +contextual (maxDischargeDepth := 40) [*]; done) | split | dsimp only | (refine State.forEach_sound ?_ _ _ (fun _ _ _ => ?_)) | (refine State.onlyIf_sound ?_ _ _ (fun _ _ => ?_))

@[simp] theorem State.eavePor_sound {s : State} (hs : s.sound = true)  :
    (State.eavePor s).sound = true := by
  unfold State.eavePor
  extract_lets on s1 s2 s3
  have h1 : s1.sound = true := by simp only [s1, State.sound_mk]; exact ⟨RegFile.wf_filter _ _ (State.sound_regs hs), (State.sound_parts hs).2⟩
  clear_value s1
  have h2 : s2.sound = true := by simp only [s2]; simp +contextual (maxDischargeDepth := 40) [*]
  clear_value s2
  simp +contextual (maxDischargeDepth := 40) [s3, *]

theorem execEavePor_sound {s : State} (hs : s.sound = true)  :
    ∀ u, execEavePor s = .next u → u.sound = true := by
  intro u ht; unfold execEavePor at ht
  refine guarded_sound (fun s hs => ?_) hs ht
  repeat' first | (simp +contextual (maxDischargeDepth := 40) [*]; done) | split | dsimp only | (refine State.forEach_sound ?_ _ _ (fun _ _ _ => ?_)) | (refine State.onlyIf_sound ?_ _ _ (fun _ _ => ?_))

theorem execXt32Fault_sound {s : State} (hs : s.sound = true)  :
    ∀ u, execXt32Fault s = .next u → u.sound = true := by
  intro u ht; unfold execXt32Fault at ht
  refine guarded_sound (fun s hs => ?_) hs ht
  repeat' first | (simp +contextual (maxDischargeDepth := 40) [*]; done) | split | dsimp only | (refine State.forEach_sound ?_ _ _ (fun _ _ _ => ?_)) | (refine State.onlyIf_sound ?_ _ _ (fun _ _ => ?_))

@[simp] theorem State.monitorSample_sound {s : State} (hs : s.sound = true) (k : ℕ) (x : SourceLevels)  :
    (State.monitorSample s k x).sound = true := by
  unfold State.monitorSample; simp +contextual (maxDischargeDepth := 40) [*]

@[simp] theorem State.monitorTick_sound {s : State} (hs : s.sound = true) (samples : List SourceLevels)  :
    (State.monitorTick s samples).sound = true := by
  unfold State.monitorTick; simp +contextual (maxDischargeDepth := 40) [*]

theorem execMonitorTick_sound {s : State} (hs : s.sound = true) (samples : List SourceLevels)  :
    ∀ u, execMonitorTick samples s = .next u → u.sound = true := by
  intro u ht; unfold execMonitorTick at ht
  refine guarded_sound (fun s hs => ?_) hs ht
  repeat' first | (simp +contextual (maxDischargeDepth := 40) [*]; done) | split | dsimp only | (refine State.forEach_sound ?_ _ _ (fun _ _ _ => ?_)) | (refine State.onlyIf_sound ?_ _ _ (fun _ _ => ?_))

@[simp] theorem State.progEnd_sound {s : State} (hs : s.sound = true) (a : ℕ)  :
    (State.progEnd s a).sound = true := by
  unfold State.progEnd; simp +contextual (maxDischargeDepth := 40) [*]

@[simp] theorem State.progGoto_sound {s : State} (hs : s.sound = true) (a : ℕ) (b : ℕ)  :
    (State.progGoto s a b).sound = true := by
  unfold State.progGoto; simp +contextual (maxDischargeDepth := 40) [*]

@[simp] theorem State.progRun_sound {s : State} (hs : s.sound = true) (op : ℕ) (f : ℕ → State → State) (hf : ∀ a s, s.sound = true → (f a s).sound = true) :
    (State.progRun s op f).sound = true := by
  unfold State.progRun; repeat' first | (simp +contextual (maxDischargeDepth := 40) [*]; done) | split | dsimp only | (refine State.forEach_sound ?_ _ _ (fun _ _ _ => ?_)) | (refine State.onlyIf_sound ?_ _ _ (fun _ _ => ?_))

@[simp] theorem State.putC_sound {s : State} (hs : s.sound = true) (b : Bool)  :
    (State.putC s b).sound = true := by
  unfold State.putC; simp +contextual (maxDischargeDepth := 40) [*]

theorem execTest_sound {s : State} (hs : s.sound = true)  :
    ∀ u, execTest s = .next u → u.sound = true := by
  intro u ht; unfold execTest at ht
  refine guarded_sound (fun s hs => ?_) hs ht
  repeat' first | (simp +contextual (maxDischargeDepth := 40) [*]; done) | split | dsimp only | (refine State.forEach_sound ?_ _ _ (fun _ _ _ => ?_)) | (refine State.onlyIf_sound ?_ _ _ (fun _ _ => ?_))

theorem execAnd_sound {s : State} (hs : s.sound = true)  :
    ∀ u, execAnd s = .next u → u.sound = true := by
  intro u ht; unfold execAnd at ht
  refine guarded_sound (fun s hs => ?_) hs ht
  repeat' first | (simp +contextual (maxDischargeDepth := 40) [*]; done) | split | dsimp only | (refine State.forEach_sound ?_ _ _ (fun _ _ _ => ?_)) | (refine State.onlyIf_sound ?_ _ _ (fun _ _ => ?_))

theorem execOr_sound {s : State} (hs : s.sound = true)  :
    ∀ u, execOr s = .next u → u.sound = true := by
  intro u ht; unfold execOr at ht
  refine guarded_sound (fun s hs => ?_) hs ht
  repeat' first | (simp +contextual (maxDischargeDepth := 40) [*]; done) | split | dsimp only | (refine State.forEach_sound ?_ _ _ (fun _ _ _ => ?_)) | (refine State.onlyIf_sound ?_ _ _ (fun _ _ => ?_))

theorem execSetf_sound {s : State} (hs : s.sound = true)  :
    ∀ u, execSetf s = .next u → u.sound = true := by
  intro u ht; unfold execSetf at ht
  refine guarded_sound (fun s hs => ?_) hs ht
  repeat' first | (simp +contextual (maxDischargeDepth := 40) [*]; done) | split | dsimp only | (refine State.forEach_sound ?_ _ _ (fun _ _ _ => ?_)) | (refine State.onlyIf_sound ?_ _ _ (fun _ _ => ?_))

theorem execJmp_sound {s : State} (hs : s.sound = true)  :
    ∀ u, execJmp s = .next u → u.sound = true := by
  intro u ht; unfold execJmp at ht
  refine guarded_sound (fun s hs => ?_) hs ht
  repeat' first | (simp +contextual (maxDischargeDepth := 40) [*]; done) | split | dsimp only | (refine State.forEach_sound ?_ _ _ (fun _ _ _ => ?_)) | (refine State.onlyIf_sound ?_ _ _ (fun _ _ => ?_))

theorem execCnt_sound {s : State} (hs : s.sound = true)  :
    ∀ u, execCnt s = .next u → u.sound = true := by
  intro u ht; unfold execCnt at ht
  refine guarded_sound (fun s hs => ?_) hs ht
  repeat' first | (simp +contextual (maxDischargeDepth := 40) [*]; done) | split | dsimp only | (refine State.forEach_sound ?_ _ _ (fun _ _ _ => ?_)) | (refine State.onlyIf_sound ?_ _ _ (fun _ _ => ?_))

theorem execCmp_sound {s : State} (hs : s.sound = true)  :
    ∀ u, execCmp s = .next u → u.sound = true := by
  intro u ht; unfold execCmp at ht
  refine guarded_sound (fun s hs => ?_) hs ht
  repeat' first | (simp +contextual (maxDischargeDepth := 40) [*]; done) | split | dsimp only | (refine State.forEach_sound ?_ _ _ (fun _ _ _ => ?_)) | (refine State.onlyIf_sound ?_ _ _ (fun _ _ => ?_))

@[simp] theorem State.progOut_sound {s : State} (hs : s.sound = true) (action : ℕ) (f : State → State) (hf : ∀ s, s.sound = true → (f s).sound = true) :
    (State.progOut s action f).sound = true := by
  unfold State.progOut; repeat' first | (simp +contextual (maxDischargeDepth := 40) [*]; done) | split | dsimp only | (refine State.forEach_sound ?_ _ _ (fun _ _ _ => ?_)) | (refine State.onlyIf_sound ?_ _ _ (fun _ _ => ?_))

theorem execOutPwrOn_sound {s : State} (hs : s.sound = true)  :
    ∀ u, execOutPwrOn s = .next u → u.sound = true := by
  intro u ht; unfold execOutPwrOn at ht
  refine guarded_sound (fun s hs => ?_) hs ht
  repeat' first | (simp +contextual (maxDischargeDepth := 40) [*]; done) | split | dsimp only | (refine State.forEach_sound ?_ _ _ (fun _ _ _ => ?_)) | (refine State.onlyIf_sound ?_ _ _ (fun _ _ => ?_))

theorem execOutPwrOff_sound {s : State} (hs : s.sound = true)  :
    ∀ u, execOutPwrOff s = .next u → u.sound = true := by
  intro u ht; unfold execOutPwrOff at ht
  refine guarded_sound (fun s hs => ?_) hs ht
  repeat' first | (simp +contextual (maxDischargeDepth := 40) [*]; done) | split | dsimp only | (refine State.forEach_sound ?_ _ _ (fun _ _ _ => ?_)) | (refine State.onlyIf_sound ?_ _ _ (fun _ _ => ?_))

theorem execOutAlertSet_sound {s : State} (hs : s.sound = true)  :
    ∀ u, execOutAlertSet s = .next u → u.sound = true := by
  intro u ht; unfold execOutAlertSet at ht
  refine guarded_sound (fun s hs => ?_) hs ht
  repeat' first | (simp +contextual (maxDischargeDepth := 40) [*]; done) | split | dsimp only | (refine State.forEach_sound ?_ _ _ (fun _ _ _ => ?_)) | (refine State.onlyIf_sound ?_ _ _ (fun _ _ => ?_))

theorem execOutAlertClr_sound {s : State} (hs : s.sound = true)  :
    ∀ u, execOutAlertClr s = .next u → u.sound = true := by
  intro u ht; unfold execOutAlertClr at ht
  refine guarded_sound (fun s hs => ?_) hs ht
  repeat' first | (simp +contextual (maxDischargeDepth := 40) [*]; done) | split | dsimp only | (refine State.forEach_sound ?_ _ _ (fun _ _ _ => ?_)) | (refine State.onlyIf_sound ?_ _ _ (fun _ _ => ?_))

theorem execLog_sound {s : State} (hs : s.sound = true)  :
    ∀ u, execLog s = .next u → u.sound = true := by
  intro u ht; unfold execLog at ht
  refine guarded_sound (fun s hs => ?_) hs ht
  repeat' first | (simp +contextual (maxDischargeDepth := 40) [*]; done) | split | dsimp only | (refine State.forEach_sound ?_ _ _ (fun _ _ _ => ?_)) | (refine State.onlyIf_sound ?_ _ _ (fun _ _ => ?_))

theorem execClrl_sound {s : State} (hs : s.sound = true)  :
    ∀ u, execClrl s = .next u → u.sound = true := by
  intro u ht; unfold execClrl at ht
  refine guarded_sound (fun s hs => ?_) hs ht
  repeat' first | (simp +contextual (maxDischargeDepth := 40) [*]; done) | split | dsimp only | (refine State.forEach_sound ?_ _ _ (fun _ _ _ => ?_)) | (refine State.onlyIf_sound ?_ _ _ (fun _ _ => ?_))

theorem execProgEnd_sound {s : State} (hs : s.sound = true)  :
    ∀ u, execProgEnd s = .next u → u.sound = true := by
  intro u ht; unfold execProgEnd at ht
  refine guarded_sound (fun s hs => ?_) hs ht
  repeat' first | (simp +contextual (maxDischargeDepth := 40) [*]; done) | split | dsimp only | (refine State.forEach_sound ?_ _ _ (fun _ _ _ => ?_)) | (refine State.onlyIf_sound ?_ _ _ (fun _ _ => ?_))

theorem execProgramMemoryEcc_sound {s : State} (hs : s.sound = true)  :
    ∀ u, execProgramMemoryEcc s = .next u → u.sound = true := by
  intro u ht; unfold execProgramMemoryEcc at ht
  refine guarded_sound (fun s hs => ?_) hs ht
  repeat' first | (simp +contextual (maxDischargeDepth := 40) [*]; done) | split | dsimp only | (refine State.forEach_sound ?_ _ _ (fun _ _ _ => ?_)) | (refine State.onlyIf_sound ?_ _ _ (fun _ _ => ?_))

theorem execWakeEdge_sound {s : State} (hs : s.sound = true) (rising : Bool)  :
    ∀ u, execWakeEdge rising s = .next u → u.sound = true := by
  intro u ht; unfold execWakeEdge at ht
  refine guarded_sound (fun s hs => ?_) hs ht
  repeat' first | (simp +contextual (maxDischargeDepth := 40) [*]; done) | split | dsimp only | (refine State.forEach_sound ?_ _ _ (fun _ _ _ => ?_)) | (refine State.onlyIf_sound ?_ _ _ (fun _ _ => ?_))

theorem execAlarm_sound {s : State} (hs : s.sound = true)  :
    ∀ u, execAlarm s = .next u → u.sound = true := by
  intro u ht; unfold execAlarm at ht
  refine guarded_sound (fun s hs => ?_) hs ht
  repeat' first | (simp +contextual (maxDischargeDepth := 40) [*]; done) | split | dsimp only | (refine State.forEach_sound ?_ _ _ (fun _ _ _ => ?_)) | (refine State.onlyIf_sound ?_ _ _ (fun _ _ => ?_))

@[simp] theorem State.calSet_sound {s : State} (hs : s.sound = true) (p : Path)  :
    (State.calSet s p).1.sound = true := by
  unfold State.calSet; simp +contextual (maxDischargeDepth := 40) [*]

@[simp] theorem State.calSyncNow_sound {s : State} (hs : s.sound = true)  :
    (State.calSyncNow s).1.sound = true := by
  unfold State.calSyncNow; simp +contextual (maxDischargeDepth := 40) [*]

@[simp] theorem State.calInvalidate_sound {s : State} (hs : s.sound = true)  :
    (State.calInvalidate s).1.sound = true := by
  unfold State.calInvalidate; simp +contextual (maxDischargeDepth := 40) [*]

@[simp] theorem State.calCmd_sound {s : State} (hs : s.sound = true) (p : Path) (v : ℕ)  :
    (State.calCmd s p v).1.sound = true := by
  unfold State.calCmd; repeat' first | (simp +contextual (maxDischargeDepth := 40) [*]; done) | split | dsimp only | (refine State.forEach_sound ?_ _ _ (fun _ _ _ => ?_)) | (refine State.onlyIf_sound ?_ _ _ (fun _ _ => ?_))

@[simp] theorem State.cmdPwrOn_sound {s : State} (hs : s.sound = true) (p : Path)  :
    (State.cmdPwrOn s p).1.sound = true := by
  unfold State.cmdPwrOn; simp +contextual (maxDischargeDepth := 40) [*]

@[simp] theorem State.cmdPwrOff_sound {s : State} (hs : s.sound = true) (p : Path)  :
    (State.cmdPwrOff s p).1.sound = true := by
  unfold State.cmdPwrOff; simp +contextual (maxDischargeDepth := 40) [*]

@[simp] theorem State.pwrCmd_sound {s : State} (hs : s.sound = true) (p : Path) (v : ℕ)  :
    (State.pwrCmd s p v).1.sound = true := by
  unfold State.pwrCmd; repeat' first | (simp +contextual (maxDischargeDepth := 40) [*]; done) | split | dsimp only | (refine State.forEach_sound ?_ _ _ (fun _ _ _ => ?_)) | (refine State.onlyIf_sound ?_ _ _ (fun _ _ => ?_))

@[simp] theorem State.eaveLogCmd_sound {s : State} (hs : s.sound = true) (v : ℕ)  :
    (State.eaveLogCmd s v).1.sound = true := by
  unfold State.eaveLogCmd; simp +contextual (maxDischargeDepth := 40) [*]

@[simp] theorem State.progCtl_sound {s : State} (hs : s.sound = true) (v : ℕ)  :
    (State.progCtl s v).1.sound = true := by
  unfold State.progCtl; simp +contextual (maxDischargeDepth := 40) [*]

end Sys2Proof.Machine
end

