-- ==== Sys2Proof/Laws/SoundClock.lean ====
section
/-! SUPPORT. The operations of Clock keep the form of a state. -/

namespace Sys2Proof.Machine

set_option linter.unusedTactic false
set_option linter.unreachableTactic false

@[simp] theorem State.showAnchor_sound {s : State} (hs : s.sound = true)  :
    (State.showAnchor s).sound = true := by
  unfold State.showAnchor; simp +contextual (maxDischargeDepth := 40) [*]

@[simp] theorem State.yEffect_sound {s : State} (hs : s.sound = true) (y : ℤ)  :
    (State.yEffect s y).sound = true := by
  unfold State.yEffect; simp +contextual (maxDischargeDepth := 40) [*]

theorem execYTakesEffect_sound {s : State} (hs : s.sound = true)  :
    ∀ u, execYTakesEffect s = .next u → u.sound = true := by
  intro u ht; unfold execYTakesEffect at ht
  refine guarded_sound (fun s hs => ?_) hs ht
  repeat' first | (simp +contextual (maxDischargeDepth := 40) [*]; done) | split | dsimp only | (refine State.forEach_sound ?_ _ _ (fun _ _ _ => ?_)) | (refine State.onlyIf_sound ?_ _ _ (fun _ _ => ?_))

@[simp] theorem State.logStep_sound {s : State} (hs : s.sound = true) (d : ℤ)  :
    (State.logStep s d).sound = true := by
  unfold State.logStep; simp +contextual (maxDischargeDepth := 40) [*]

@[simp] theorem State.reportRestart_sound {s : State} (hs : s.sound = true)  :
    (State.reportRestart s).sound = true := by
  unfold State.reportRestart; simp +contextual (maxDischargeDepth := 40) [*]

@[simp] theorem State.moveMarks_sound {s : State} (hs : s.sound = true) (d : ℤ)  :
    (State.moveMarks s d).sound = true := by
  unfold State.moveMarks; simp +contextual (maxDischargeDepth := 40) [*]

@[simp] theorem State.stepBound_sound {s : State} (hs : s.sound = true) (d : ℤ) (rest : ℕ)  :
    (State.stepBound s d rest).sound = true := by
  unfold State.stepBound; simp +contextual (maxDischargeDepth := 40) [*]

@[simp] theorem State.stepAfter_sound {s : State} (hs : s.sound = true) (d : ℤ) (rest : ℕ) (adopts : Option ℕ)  :
    (State.stepAfter s d rest adopts).sound = true := by
  unfold State.stepAfter; repeat' first | (simp +contextual (maxDischargeDepth := 40) [*]; done) | split | dsimp only | (refine State.forEach_sound ?_ _ _ (fun _ _ _ => ?_)) | (refine State.onlyIf_sound ?_ _ _ (fun _ _ => ?_))

@[simp] theorem State.stepNow_sound {s : State} (hs : s.sound = true) (d : ℤ) (adopts : Option ℕ)  :
    (State.stepNow s d adopts).sound = true := by
  unfold State.stepNow
  extract_lets d32 rest s1 src s2 s3 s4 s5 s6 s7 src8 s8
  have h_s1 : s1.sound = true := by simp only [s1]; repeat' first | (simp +contextual (maxDischargeDepth := 40) [*]; done) | split | dsimp only | (refine State.forEach_sound ?_ _ _ (fun _ _ _ => ?_)) | (refine State.onlyIf_sound ?_ _ _ (fun _ _ => ?_))
  clear_value s1
  have h_s2 : s2.sound = true := by simp only [s2]; repeat' first | (simp +contextual (maxDischargeDepth := 40) [*]; done) | split | dsimp only | (refine State.forEach_sound ?_ _ _ (fun _ _ _ => ?_)) | (refine State.onlyIf_sound ?_ _ _ (fun _ _ => ?_))
  clear_value s2
  have h_s3 : s3.sound = true := by simp only [s3]; repeat' first | (simp +contextual (maxDischargeDepth := 40) [*]; done) | split | dsimp only | (refine State.forEach_sound ?_ _ _ (fun _ _ _ => ?_)) | (refine State.onlyIf_sound ?_ _ _ (fun _ _ => ?_))
  clear_value s3
  have h_s4 : s4.sound = true := by simp only [s4]; repeat' first | (simp +contextual (maxDischargeDepth := 40) [*]; done) | split | dsimp only | (refine State.forEach_sound ?_ _ _ (fun _ _ _ => ?_)) | (refine State.onlyIf_sound ?_ _ _ (fun _ _ => ?_))
  clear_value s4
  have h_s5 : s5.sound = true := by simp only [s5]; repeat' first | (simp +contextual (maxDischargeDepth := 40) [*]; done) | split | dsimp only | (refine State.forEach_sound ?_ _ _ (fun _ _ _ => ?_)) | (refine State.onlyIf_sound ?_ _ _ (fun _ _ => ?_))
  clear_value s5
  have h_s6 : s6.sound = true := by simp only [s6]; repeat' first | (simp +contextual (maxDischargeDepth := 40) [*]; done) | split | dsimp only | (refine State.forEach_sound ?_ _ _ (fun _ _ _ => ?_)) | (refine State.onlyIf_sound ?_ _ _ (fun _ _ => ?_))
  clear_value s6
  have h_s7 : s7.sound = true := by simp only [s7]; repeat' first | (simp +contextual (maxDischargeDepth := 40) [*]; done) | split | dsimp only | (refine State.forEach_sound ?_ _ _ (fun _ _ _ => ?_)) | (refine State.onlyIf_sound ?_ _ _ (fun _ _ => ?_))
  clear_value s7
  have h_s8 : s8.sound = true := by simp only [s8]; repeat' first | (simp +contextual (maxDischargeDepth := 40) [*]; done) | split | dsimp only | (refine State.forEach_sound ?_ _ _ (fun _ _ _ => ?_)) | (refine State.onlyIf_sound ?_ _ _ (fun _ _ => ?_))
  clear_value s8
  repeat' first | (simp +contextual (maxDischargeDepth := 40) [*]; done) | split | dsimp only | (refine State.forEach_sound ?_ _ _ (fun _ _ _ => ?_)) | (refine State.onlyIf_sound ?_ _ _ (fun _ _ => ?_))

theorem execTimescaleStep_sound {s : State} (hs : s.sound = true)  :
    ∀ u, execTimescaleStep s = .next u → u.sound = true := by
  intro u ht; unfold execTimescaleStep at ht
  refine guarded_sound (fun s hs => ?_) hs ht
  repeat' first | (simp +contextual (maxDischargeDepth := 40) [*]; done) | split | dsimp only | (refine State.forEach_sound ?_ _ _ (fun _ _ _ => ?_)) | (refine State.onlyIf_sound ?_ _ _ (fun _ _ => ?_))

theorem execLeapApply_sound {s : State} (hs : s.sound = true)  :
    ∀ u, execLeapApply s = .next u → u.sound = true := by
  intro u ht; unfold execLeapApply at ht
  refine guarded_sound (fun s hs => ?_) hs ht
  repeat' first | (simp +contextual (maxDischargeDepth := 40) [*]; done) | split | dsimp only | (refine State.forEach_sound ?_ _ _ (fun _ _ _ => ?_)) | (refine State.onlyIf_sound ?_ _ _ (fun _ _ => ?_))

@[simp] theorem State.restartCalibration_sound {s : State} (hs : s.sound = true)  :
    (State.restartCalibration s).sound = true := by
  unfold State.restartCalibration
  extract_lets s0 s1 s5 cleared srcP
  have h_s0 : s0.sound = true := by simp only [s0]; repeat' first | (simp +contextual (maxDischargeDepth := 40) [*]; done) | split | dsimp only | (refine State.forEach_sound ?_ _ _ (fun _ _ _ => ?_)) | (refine State.onlyIf_sound ?_ _ _ (fun _ _ => ?_))
  clear_value s0
  have h_s1 : s1.sound = true := by
    refine State.forEach_sound h_s0 _ _ (fun _ _ _ => ?_)
    extract_lets s2 s3 srcQ s4
    have h2 : s2.sound = true := by simp only [s2]; simp +contextual (maxDischargeDepth := 40) [*]
    clear_value s2
    have h3 : s3.sound = true := by
      simp only [s3]
      refine State.forEach_sound h2 _ _ (fun _ _ _ => ?_)
      split <;> simp +contextual (maxDischargeDepth := 40) [*]
    clear_value s3
    have h4 : s4.sound = true := by simp only [s4]; simp +contextual (maxDischargeDepth := 40) [*]
    clear_value s4
    simp +contextual (maxDischargeDepth := 40) [*]
  clear_value s1
  have h_s5 : s5.sound = true := by simp only [s5]; repeat' first | (simp +contextual (maxDischargeDepth := 40) [*]; done) | split | dsimp only | (refine State.forEach_sound ?_ _ _ (fun _ _ _ => ?_)) | (refine State.onlyIf_sound ?_ _ _ (fun _ _ => ?_))
  clear_value s5
  clear_value cleared srcP
  simp +contextual (maxDischargeDepth := 40) [*]


@[simp] theorem State.apllmLost_sound {s : State} (hs : s.sound = true)  :
    (State.apllmLost s).sound = true := by
  unfold State.apllmLost; simp +contextual (maxDischargeDepth := 40) [*]

@[simp] theorem State.apllmLocked_sound {s : State} (hs : s.sound = true)  :
    (State.apllmLocked s).sound = true := by
  unfold State.apllmLocked; simp +contextual (maxDischargeDepth := 40) [*]

@[simp] theorem State.apllmWindow_sound {s : State} (hs : s.sound = true) (count : ℕ)  :
    (State.apllmWindow s count).sound = true := by
  unfold State.apllmWindow; simp +contextual (maxDischargeDepth := 40) [*]

theorem execApllLockWindow_sound {s : State} (hs : s.sound = true) (a : Bool) (count : ℕ)  :
    ∀ u, execApllLockWindow a count s = .next u → u.sound = true := by
  intro u ht; unfold execApllLockWindow at ht
  refine guarded_sound (fun s hs => ?_) hs ht
  repeat' first | (simp +contextual (maxDischargeDepth := 40) [*]; done) | split | dsimp only | (refine State.forEach_sound ?_ _ _ (fun _ _ _ => ?_)) | (refine State.onlyIf_sound ?_ _ _ (fun _ _ => ?_))

theorem execXtalFault_sound {s : State} (hs : s.sound = true)  :
    ∀ u, execXtalFault s = .next u → u.sound = true := by
  intro u ht; unfold execXtalFault at ht
  refine guarded_sound (fun s hs => ?_) hs ht
  repeat' first | (simp +contextual (maxDischargeDepth := 40) [*]; done) | split | dsimp only | (refine State.forEach_sound ?_ _ _ (fun _ _ _ => ?_)) | (refine State.onlyIf_sound ?_ _ _ (fun _ _ => ?_))

@[simp] theorem State.seed_sound {s : State} (hs : s.sound = true)  :
    (State.seed s).sound = true := by
  unfold State.seed; simp +contextual (maxDischargeDepth := 40) [*]

theorem execTimescaleSeed_sound {s : State} (hs : s.sound = true)  :
    ∀ u, execTimescaleSeed s = .next u → u.sound = true := by
  intro u ht; unfold execTimescaleSeed at ht
  refine guarded_sound (fun s hs => ?_) hs ht
  repeat' first | (simp +contextual (maxDischargeDepth := 40) [*]; done) | split | dsimp only | (refine State.forEach_sound ?_ _ _ (fun _ _ _ => ?_)) | (refine State.onlyIf_sound ?_ _ _ (fun _ _ => ?_))

theorem execThreshCrossing_sound {s : State} (hs : s.sound = true)  :
    ∀ u, execThreshCrossing s = .next u → u.sound = true := by
  intro u ht; unfold execThreshCrossing at ht
  refine guarded_sound (fun s hs => ?_) hs ht
  repeat' first | (simp +contextual (maxDischargeDepth := 40) [*]; done) | split | dsimp only | (refine State.forEach_sound ?_ _ _ (fun _ _ _ => ?_)) | (refine State.onlyIf_sound ?_ _ _ (fun _ _ => ?_))

theorem execTebReport_sound {s : State} (hs : s.sound = true)  :
    ∀ u, execTebReport s = .next u → u.sound = true := by
  intro u ht; unfold execTebReport at ht
  refine guarded_sound (fun s hs => ?_) hs ht
  repeat' first | (simp +contextual (maxDischargeDepth := 40) [*]; done) | split | dsimp only | (refine State.forEach_sound ?_ _ _ (fun _ _ _ => ?_)) | (refine State.onlyIf_sound ?_ _ _ (fun _ _ => ?_))

theorem execTraceExpiry_sound {s : State} (hs : s.sound = true)  :
    ∀ u, execTraceExpiry s = .next u → u.sound = true := by
  intro u ht; unfold execTraceExpiry at ht
  refine guarded_sound (fun s hs => ?_) hs ht
  repeat' first | (simp +contextual (maxDischargeDepth := 40) [*]; done) | split | dsimp only | (refine State.forEach_sound ?_ _ _ (fun _ _ _ => ?_)) | (refine State.onlyIf_sound ?_ _ _ (fun _ _ => ?_))

end Sys2Proof.Machine
end

