-- ==== Sys2Proof/Laws/SoundGutter.lean ====
section
/-! SUPPORT. The operations of Gutter keep the form of a state. -/

namespace Sys2Proof.Machine

set_option linter.unusedTactic false
set_option linter.unreachableTactic false

@[simp] theorem State.keepCfg_sound {s : State} (hs : s.sound = true) (k : ℕ)  :
    (State.keepCfg s k).sound = true := by
  unfold State.keepCfg; simp +contextual (maxDischargeDepth := 40) [*]

@[simp] theorem State.showPair_sound {s : State} {old : State} (hs : s.sound = true) (hold : old.sound = true)  :
    (State.showPair s old).sound = true := by
  unfold State.showPair; repeat' first | (simp +contextual (maxDischargeDepth := 40) [*]; done) | split | dsimp only | (refine State.forEach_sound ?_ _ _ (fun _ _ _ => ?_)) | (refine State.onlyIf_sound ?_ _ _ (fun _ _ => ?_))

@[simp] theorem State.reactSafe_sound {s : State} (hs : s.sound = true) (k : ℕ) (page : ℕ)  :
    (State.reactSafe s k page).sound = true := by
  unfold State.reactSafe; repeat' first | (simp +contextual (maxDischargeDepth := 40) [*]; done) | split | dsimp only | (refine State.forEach_sound ?_ _ _ (fun _ _ _ => ?_)) | (refine State.onlyIf_sound ?_ _ _ (fun _ _ => ?_))

@[simp] theorem State.deviceSafe_sound {s : State} (hs : s.sound = true) (cause : ℕ)  :
    (State.deviceSafe s cause).sound = true := by
  unfold State.deviceSafe; simp +contextual (maxDischargeDepth := 40) [*]

@[simp] theorem State.logReport_sound {s : State} (hs : s.sound = true) (first : Option ℕ) (r : Report)  :
    (State.logReport s first r).sound = true := by
  unfold State.logReport; simp +contextual (maxDischargeDepth := 40) [*]

@[simp] theorem State.fillFirst_sound {s : State} (hs : s.sound = true) (rs : List Report) (w : Report)  :
    (State.fillFirst s rs w).sound = true := by
  unfold State.fillFirst; simp +contextual (maxDischargeDepth := 40) [*]

@[simp] theorem State.mapLines_sound {s : State} (hs : s.sound = true) (ks : List ℕ)  :
    (State.mapLines s ks).sound = true := by
  unfold State.mapLines; simp +contextual (maxDischargeDepth := 40) [*]

@[simp] theorem State.collect_sound {s : State} (hs : s.sound = true) (evs : List FaultEvent)  :
    (State.collect s evs).sound = true := by
  unfold State.collect; repeat' first | (simp +contextual (maxDischargeDepth := 40) [*]; done) | split | dsimp only | (refine State.forEach_sound ?_ _ _ (fun _ _ _ => ?_)) | (refine State.onlyIf_sound ?_ _ _ (fun _ _ => ?_))

@[simp] theorem State.collectOwn_sound {s : State} (hs : s.sound = true) (evs : List FaultEvent)  :
    (State.collectOwn s evs).sound = true := by
  unfold State.collectOwn; repeat' first | (simp +contextual (maxDischargeDepth := 40) [*]; done) | split | dsimp only | (refine State.forEach_sound ?_ _ _ (fun _ _ _ => ?_)) | (refine State.onlyIf_sound ?_ _ _ (fun _ _ => ?_))

theorem execFaultCollect_sound {s : State} (hs : s.sound = true)  :
    ∀ u, execFaultCollect s = .next u → u.sound = true := by
  intro u ht; unfold execFaultCollect at ht
  refine guarded_sound (fun s hs => ?_) hs ht
  repeat' first | (simp +contextual (maxDischargeDepth := 40) [*]; done) | split | dsimp only | (refine State.forEach_sound ?_ _ _ (fun _ _ _ => ?_)) | (refine State.onlyIf_sound ?_ _ _ (fun _ _ => ?_))

theorem execLineFault_sound {s : State} (hs : s.sound = true) (p : PairReading)  :
    ∀ u, execLineFault p s = .next u → u.sound = true := by
  intro u ht; unfold execLineFault at ht
  refine guarded_sound (fun s hs => ?_) hs ht
  repeat' first | (simp +contextual (maxDischargeDepth := 40) [*]; done) | split | dsimp only | (refine State.forEach_sound ?_ _ _ (fun _ _ _ => ?_)) | (refine State.onlyIf_sound ?_ _ _ (fun _ _ => ?_))

@[simp] theorem State.errInject_sound {s : State} (hs : s.sound = true) (page : ℕ) (v : ℕ)  :
    (State.errInject s page v).1.sound = true := by
  unfold State.errInject; simp +contextual (maxDischargeDepth := 40) [*]

@[simp] theorem State.inject_sound {s : State} (hs : s.sound = true) (k : ℕ) (line : Bool)  :
    (State.inject s k line).1.sound = true := by
  unfold State.inject; simp +contextual (maxDischargeDepth := 40) [*]

theorem execInjectionHoldEnd_sound {s : State} (hs : s.sound = true)  :
    ∀ u, execInjectionHoldEnd s = .next u → u.sound = true := by
  intro u ht; unfold execInjectionHoldEnd at ht
  refine guarded_sound (fun s hs => ?_) hs ht
  repeat' first | (simp +contextual (maxDischargeDepth := 40) [*]; done) | split | dsimp only | (refine State.forEach_sound ?_ _ _ (fun _ _ _ => ?_)) | (refine State.onlyIf_sound ?_ _ _ (fun _ _ => ?_))

@[simp] theorem State.clearPair_sound {s : State} (hs : s.sound = true)  :
    (State.clearPair s).1.sound = true := by
  unfold State.clearPair; simp +contextual (maxDischargeDepth := 40) [*]

@[simp] theorem State.enterSafe_sound {s : State} (hs : s.sound = true)  :
    (State.enterSafe s).1.sound = true := by
  unfold State.enterSafe; simp +contextual (maxDischargeDepth := 40) [*]

@[simp] theorem State.clearFirst_sound {s : State} (hs : s.sound = true)  :
    (State.clearFirst s).sound = true := by
  unfold State.clearFirst; simp +contextual (maxDischargeDepth := 40) [*]

@[simp] theorem State.reinit_sound {s : State} (hs : s.sound = true)  :
    (State.reinit s).1.sound = true := by
  unfold State.reinit
  extract_lets s1
  have h1 : s1.sound = true := by simp only [s1, State.sound_mk]; exact ⟨RegFile.wf_filter _ _ (State.sound_regs hs), (State.sound_parts hs).2⟩
  clear_value s1
  simp +contextual (maxDischargeDepth := 40) [*]

@[simp] theorem State.gutterCmd_sound {s : State} (hs : s.sound = true) (v : ℕ)  :
    (State.gutterCmd s v).1.sound = true := by
  unfold State.gutterCmd; repeat' first | (simp +contextual (maxDischargeDepth := 40) [*]; done) | split | dsimp only | (refine State.forEach_sound ?_ _ _ (fun _ _ _ => ?_)) | (refine State.onlyIf_sound ?_ _ _ (fun _ _ => ?_))

@[simp] theorem State.deviceSafeExit_sound {s : State} (hs : s.sound = true)  :
    (State.deviceSafeExit s).1.sound = true := by
  unfold State.deviceSafeExit; simp +contextual (maxDischargeDepth := 40) [*]

theorem execGutterStorageEcc_sound {s : State} (hs : s.sound = true) (uncorrectable : Bool)  :
    ∀ u, execGutterStorageEcc uncorrectable s = .next u → u.sound = true := by
  intro u ht; unfold execGutterStorageEcc at ht
  refine guarded_sound (fun s hs => ?_) hs ht
  repeat' first | (simp +contextual (maxDischargeDepth := 40) [*]; done) | split | dsimp only | (refine State.forEach_sound ?_ _ _ (fun _ _ _ => ?_)) | (refine State.onlyIf_sound ?_ _ _ (fun _ _ => ?_))

theorem execPairSenseFault_sound {s : State} (hs : s.sound = true)  :
    ∀ u, execPairSenseFault s = .next u → u.sound = true := by
  intro u ht; unfold execPairSenseFault at ht
  refine guarded_sound (fun s hs => ?_) hs ht
  repeat' first | (simp +contextual (maxDischargeDepth := 40) [*]; done) | split | dsimp only | (refine State.forEach_sound ?_ _ _ (fun _ _ _ => ?_)) | (refine State.onlyIf_sound ?_ _ _ (fun _ _ => ?_))

end Sys2Proof.Machine
end

