-- ==== Sys2Proof/Laws/SoundRidge.lean ====
section
/-! SUPPORT. The operations of Ridge keep the form of a state. -/

namespace Sys2Proof.Machine

set_option linter.unusedTactic false
set_option linter.unreachableTactic false

@[simp] theorem State.setRdg_sound {s : State} (hs : s.sound = true) (p : ℕ) (x : RdgSt)  :
    (State.setRdg s p x).sound = true := by
  unfold State.setRdg; simp +contextual (maxDischargeDepth := 40) [*]

@[simp] theorem State.rdgEnable_sound {s : State} (hs : s.sound = true) (p : ℕ) (on : Bool)  :
    (State.rdgEnable s p on).1.sound = true := by
  unfold State.rdgEnable; simp +contextual (maxDischargeDepth := 40) [*]

@[simp] theorem State.portCfg_sound {s : State} (hs : s.sound = true) (p : ℕ) (v : ℕ)  :
    (State.portCfg s p v).1.sound = true := by
  unfold State.portCfg; repeat' first | (simp +contextual (maxDischargeDepth := 40) [*]; done) | split | dsimp only | (refine State.forEach_sound ?_ _ _ (fun _ _ _ => ?_)) | (refine State.onlyIf_sound ?_ _ _ (fun _ _ => ?_))

@[simp] theorem State.rootStart_sound {s : State} (hs : s.sound = true)  :
    (State.rootStart s).sound = true := by
  unfold State.rootStart; simp +contextual (maxDischargeDepth := 40) [*]

@[simp] theorem State.nodeCfg_sound {s : State} (hs : s.sound = true) (v : ℕ)  :
    (State.nodeCfg s v).1.sound = true := by
  unfold State.nodeCfg; simp +contextual (maxDischargeDepth := 40) [*]

@[simp] theorem State.onWire_sound {s : State} (hs : s.sound = true) (p : ℕ) (bits : ℕ)  :
    (State.onWire s p bits).sound = true := by
  unfold State.onWire; simp +contextual (maxDischargeDepth := 40) [*]

@[simp] theorem State.sendCell_sound {s : State} (hs : s.sound = true) (p : ℕ)  :
    (State.sendCell s p).sound = true := by
  unfold State.sendCell; repeat' first | (simp +contextual (maxDischargeDepth := 40) [*]; done) | split | dsimp only | (refine State.forEach_sound ?_ _ _ (fun _ _ _ => ?_)) | (refine State.onlyIf_sound ?_ _ _ (fun _ _ => ?_))

theorem execRidgeSlotTx_sound {s : State} (hs : s.sound = true) (p : ℕ)  :
    ∀ u, execRidgeSlotTx p s = .next u → u.sound = true := by
  intro u ht; unfold execRidgeSlotTx at ht
  refine guarded_sound (fun s hs => ?_) hs ht
  repeat' first | (simp +contextual (maxDischargeDepth := 40) [*]; done) | split | dsimp only | (refine State.forEach_sound ?_ _ _ (fun _ _ _ => ?_)) | (refine State.onlyIf_sound ?_ _ _ (fun _ _ => ?_))

theorem execRidgeBlockLock_sound {s : State} (hs : s.sound = true) (p : ℕ)  :
    ∀ u, execRidgeBlockLock p s = .next u → u.sound = true := by
  intro u ht; unfold execRidgeBlockLock at ht
  refine guarded_sound (fun s hs => ?_) hs ht
  repeat' first | (simp +contextual (maxDischargeDepth := 40) [*]; done) | split | dsimp only | (refine State.forEach_sound ?_ _ _ (fun _ _ _ => ?_)) | (refine State.onlyIf_sound ?_ _ _ (fun _ _ => ?_))

@[simp] theorem State.promote_sound {s : State} (hs : s.sound = true) (p : ℕ)  :
    (State.promote s p).sound = true := by
  unfold State.promote; repeat' first | (simp +contextual (maxDischargeDepth := 40) [*]; done) | split | dsimp only | (refine State.forEach_sound ?_ _ _ (fun _ _ _ => ?_)) | (refine State.onlyIf_sound ?_ _ _ (fun _ _ => ?_))

@[simp] theorem State.linkLost_sound {s : State} (hs : s.sound = true) (p : ℕ)  :
    (State.linkLost s p).sound = true := by
  unfold State.linkLost; simp +contextual (maxDischargeDepth := 40) [*]

theorem execRidgeLinkLost_sound {s : State} (hs : s.sound = true) (p : ℕ)  :
    ∀ u, execRidgeLinkLost p s = .next u → u.sound = true := by
  intro u ht; unfold execRidgeLinkLost at ht
  refine guarded_sound (fun s hs => ?_) hs ht
  repeat' first | (simp +contextual (maxDischargeDepth := 40) [*]; done) | split | dsimp only | (refine State.forEach_sound ?_ _ _ (fun _ _ _ => ?_)) | (refine State.onlyIf_sound ?_ _ _ (fun _ _ => ?_))

@[simp] theorem State.cellPassed_sound {s : State} (hs : s.sound = true) (p : ℕ)  :
    (State.cellPassed s p).sound = true := by
  unfold State.cellPassed; simp +contextual (maxDischargeDepth := 40) [*]

@[simp] theorem State.cellFailed_sound {s : State} (hs : s.sound = true) (p : ℕ) (crc : Bool)  :
    (State.cellFailed s p crc).sound = true := by
  unfold State.cellFailed; simp +contextual (maxDischargeDepth := 40) [*]

theorem execCellDrop_sound {s : State} (hs : s.sound = true) (p : ℕ) (crc : Bool)  :
    ∀ u, execCellDrop p crc s = .next u → u.sound = true := by
  intro u ht; unfold execCellDrop at ht
  refine guarded_sound (fun s hs => ?_) hs ht
  repeat' first | (simp +contextual (maxDischargeDepth := 40) [*]; done) | split | dsimp only | (refine State.forEach_sound ?_ _ _ (fun _ _ _ => ?_)) | (refine State.onlyIf_sound ?_ _ _ (fun _ _ => ?_))

theorem execFillCellRx_sound {s : State} (hs : s.sound = true) (p : ℕ)  :
    ∀ u, execFillCellRx p s = .next u → u.sound = true := by
  intro u ht; unfold execFillCellRx at ht
  refine guarded_sound (fun s hs => ?_) hs ht
  repeat' first | (simp +contextual (maxDischargeDepth := 40) [*]; done) | split | dsimp only | (refine State.forEach_sound ?_ _ _ (fun _ _ _ => ?_)) | (refine State.onlyIf_sound ?_ _ _ (fun _ _ => ?_))

@[simp] theorem State.receive_sound {s : State} (hs : s.sound = true) (p : ℕ) (domain : ℕ) (roleOk : Bool) (f : State → State) (hf : ∀ s, s.sound = true → (f s).sound = true) :
    (State.receive s p domain roleOk f).sound = true := by
  unfold State.receive; simp +contextual (maxDischargeDepth := 40) [*]

@[simp] theorem State.followUtc_sound {s : State} (hs : s.sound = true) (p : ℕ) (c : TimeCell)  :
    (State.followUtc s p c).sound = true := by
  unfold State.followUtc; simp +contextual (maxDischargeDepth := 40) [*]

@[simp] theorem State.utcSlot_sound {s : State} (hs : s.sound = true)  :
    (State.utcSlot s).sound = true := by
  unfold State.utcSlot; repeat' first | (simp +contextual (maxDischargeDepth := 40) [*]; done) | split | dsimp only | (refine State.forEach_sound ?_ _ _ (fun _ _ _ => ?_)) | (refine State.onlyIf_sound ?_ _ _ (fun _ _ => ?_))

@[simp] theorem State.timeRx_sound {s : State} (hs : s.sound = true) (p : ℕ) (c : TimeCell)  :
    (State.timeRx s p c).sound = true := by
  unfold State.timeRx; simp +contextual (maxDischargeDepth := 40) [*]

theorem execTimeCellRx_sound {s : State} (hs : s.sound = true) (p : ℕ) (c : TimeCell)  :
    ∀ u, execTimeCellRx p c s = .next u → u.sound = true := by
  intro u ht; unfold execTimeCellRx at ht
  refine guarded_sound (fun s hs => ?_) hs ht
  repeat' first | (simp +contextual (maxDischargeDepth := 40) [*]; done) | split | dsimp only | (refine State.forEach_sound ?_ _ _ (fun _ _ _ => ?_)) | (refine State.onlyIf_sound ?_ _ _ (fun _ _ => ?_))

@[simp] theorem State.rdgObs_sound {s : State} (hs : s.sound = true) (p : ℕ)  :
    (State.rdgObs s p).sound = true := by
  unfold State.rdgObs; repeat' first | (simp +contextual (maxDischargeDepth := 40) [*]; done) | split | dsimp only | (refine State.forEach_sound ?_ _ _ (fun _ _ _ => ?_)) | (refine State.onlyIf_sound ?_ _ _ (fun _ _ => ?_))

theorem execRidgeObsInterval_sound {s : State} (hs : s.sound = true) (p : ℕ)  :
    ∀ u, execRidgeObsInterval p s = .next u → u.sound = true := by
  intro u ht; unfold execRidgeObsInterval at ht
  refine guarded_sound (fun s hs => ?_) hs ht
  repeat' first | (simp +contextual (maxDischargeDepth := 40) [*]; done) | split | dsimp only | (refine State.forEach_sound ?_ _ _ (fun _ _ _ => ?_)) | (refine State.onlyIf_sound ?_ _ _ (fun _ _ => ?_))

@[simp] theorem State.queueTrig_sound {s : State} (hs : s.sound = true) (p : ℕ) (c : TrigCell)  :
    (State.queueTrig s p c).sound = true := by
  unfold State.queueTrig; simp +contextual (maxDischargeDepth := 40) [*]

@[simp] theorem State.queueMgmt_sound {s : State} (hs : s.sound = true) (p : ℕ) (c : MgmtCell)  :
    (State.queueMgmt s p c).sound = true := by
  unfold State.queueMgmt; simp +contextual (maxDischargeDepth := 40) [*]

@[simp] theorem State.ridgeLoop_sound {s : State} (hs : s.sound = true) (p : ℕ)  :
    (State.ridgeLoop s p).sound = true := by
  unfold State.ridgeLoop; simp +contextual (maxDischargeDepth := 40) [*]

@[simp] theorem State.remember_sound {s : State} (hs : s.sound = true) (src : ℕ) (seq : ℕ)  :
    (State.remember s src seq).sound = true := by
  unfold State.remember; simp +contextual (maxDischargeDepth := 40) [*]

@[simp] theorem State.deliverTrig_sound {s : State} (hs : s.sound = true) (p : ℕ) (c : TrigCell)  :
    (State.deliverTrig s p c).sound = true := by
  unfold State.deliverTrig; simp +contextual (maxDischargeDepth := 40) [*]

@[simp] theorem State.trigRx_sound {s : State} (hs : s.sound = true) (p : ℕ) (c : TrigCell)  :
    (State.trigRx s p c).sound = true := by
  unfold State.trigRx; simp +contextual (maxDischargeDepth := 40) [*]

theorem execTrigCellRx_sound {s : State} (hs : s.sound = true) (p : ℕ) (c : TrigCell)  :
    ∀ u, execTrigCellRx p c s = .next u → u.sound = true := by
  intro u ht; unfold execTrigCellRx at ht
  refine guarded_sound (fun s hs => ?_) hs ht
  repeat' first | (simp +contextual (maxDischargeDepth := 40) [*]; done) | split | dsimp only | (refine State.forEach_sound ?_ _ _ (fun _ _ _ => ?_)) | (refine State.onlyIf_sound ?_ _ _ (fun _ _ => ?_))

@[simp] theorem State.issueTrig_sound {s : State} (hs : s.sound = true)  :
    (State.issueTrig s).1.sound = true := by
  unfold State.issueTrig; simp +contextual (maxDischargeDepth := 40) [*]

@[simp] theorem State.trigCmd_sound {s : State} (hs : s.sound = true) (v : ℕ)  :
    (State.trigCmd s v).1.sound = true := by
  unfold State.trigCmd; simp +contextual (maxDischargeDepth := 40) [*]

@[simp] theorem State.mgmtCmd_sound {s : State} (hs : s.sound = true) (v : ℕ)  :
    (State.mgmtCmd s v).1.sound = true := by
  unfold State.mgmtCmd; repeat' first | (simp +contextual (maxDischargeDepth := 40) [*]; done) | split | dsimp only | (refine State.forEach_sound ?_ _ _ (fun _ _ _ => ?_)) | (refine State.onlyIf_sound ?_ _ _ (fun _ _ => ?_))

@[simp] theorem State.authFail_sound {s : State} (hs : s.sound = true) (p : ℕ) (bad : Bool)  :
    (State.authFail s p bad).sound = true := by
  unfold State.authFail; simp +contextual (maxDischargeDepth := 40) [*]

@[simp] theorem State.forwardMgmt_sound {s : State} (hs : s.sound = true) (p : ℕ) (c : MgmtCell)  :
    (State.forwardMgmt s p c).sound = true := by
  unfold State.forwardMgmt; simp +contextual (maxDischargeDepth := 40) [*]

@[simp] theorem State.mgmtAnswer_sound {s : State} (hs : s.sound = true) (p : ℕ) (c : MgmtCell)  :
    (State.mgmtAnswer s p c).sound = true := by
  unfold State.mgmtAnswer; repeat' first | (simp +contextual (maxDischargeDepth := 40) [*]; done) | split | dsimp only | (refine State.forEach_sound ?_ _ _ (fun _ _ _ => ?_)) | (refine State.onlyIf_sound ?_ _ _ (fun _ _ => ?_))

theorem execMgmtResponseRx_sound {s : State} (hs : s.sound = true) (p : ℕ) (c : MgmtCell)  :
    ∀ u, execMgmtResponseRx p c s = .next u → u.sound = true := by
  intro u ht; unfold execMgmtResponseRx at ht
  refine guarded_sound (fun s hs => ?_) hs ht
  repeat' first | (simp +contextual (maxDischargeDepth := 40) [*]; done) | split | dsimp only | (refine State.forEach_sound ?_ _ _ (fun _ _ _ => ?_)) | (refine State.onlyIf_sound ?_ _ _ (fun _ _ => ?_))

theorem execMgmtTimeout_sound {s : State} (hs : s.sound = true)  :
    ∀ u, execMgmtTimeout s = .next u → u.sound = true := by
  intro u ht; unfold execMgmtTimeout at ht
  refine guarded_sound (fun s hs => ?_) hs ht
  repeat' first | (simp +contextual (maxDischargeDepth := 40) [*]; done) | split | dsimp only | (refine State.forEach_sound ?_ _ _ (fun _ _ _ => ?_)) | (refine State.onlyIf_sound ?_ _ _ (fun _ _ => ?_))

end Sys2Proof.Machine
end

