-- ==== Sys2Proof/Laws/SoundFlash.lean ====
section
/-! SUPPORT. The operations of Flash keep the form of a state. -/

namespace Sys2Proof.Machine

set_option linter.unusedTactic false
set_option linter.unreachableTactic false

@[simp] theorem State.stageBytes_sound {s : State} (hs : s.sound = true) (a : ℕ) (bytes : List ℕ)  :
    (State.stageBytes s a bytes).sound = true := by
  unfold State.stageBytes; simp +contextual (maxDischargeDepth := 40) [*]

@[simp] theorem State.setImage_sound {s : State} (hs : s.sound = true) (c : ℕ) (slot : ℕ) (h : Option ImageHdr)  :
    (State.setImage s c slot h).sound = true := by
  unfold State.setImage; simp +contextual (maxDischargeDepth := 40) [*]

@[simp] theorem State.setActive_sound {s : State} (hs : s.sound = true) (c : ℕ) (slot : ℕ)  :
    (State.setActive s c slot).sound = true := by
  unfold State.setActive; simp +contextual (maxDischargeDepth := 40) [*]

@[simp] theorem State.setOther_sound {s : State} (hs : s.sound = true) (c : ℕ) (ok : Bool)  :
    (State.setOther s c ok).sound = true := by
  unfold State.setOther; simp +contextual (maxDischargeDepth := 40) [*]

@[simp] theorem State.showImages_sound {s : State} (hs : s.sound = true)  :
    (State.showImages s).sound = true := by
  unfold State.showImages; simp +contextual (maxDischargeDepth := 40) [*]

@[simp] theorem State.showUnmet_sound {s : State} (hs : s.sound = true) (u_ : Unmet)  :
    (State.showUnmet s u_).sound = true := by
  unfold State.showUnmet; simp +contextual (maxDischargeDepth := 40) [*]

@[simp] theorem State.flashLog_sound {s : State} (hs : s.sound = true) (code : ℕ) (c : ℕ) (version : ℕ) (data : ℕ)  :
    (State.flashLog s code c version data).sound = true := by
  unfold State.flashLog; simp +contextual (maxDischargeDepth := 40) [*]

@[simp] theorem State.emptyStaging_sound {s : State} (hs : s.sound = true)  :
    (State.emptyStaging s).sound = true := by
  unfold State.emptyStaging; simp +contextual (maxDischargeDepth := 40) [*]

@[simp] theorem State.writeBoot_sound {s : State} (hs : s.sound = true)  :
    (State.writeBoot s).sound = true := by
  unfold State.writeBoot; simp +contextual (maxDischargeDepth := 40) [*]

@[simp] theorem State.olderBoot_sound {s : State} (hs : s.sound = true)  :
    (State.olderBoot s).sound = true := by
  unfold State.olderBoot; simp +contextual (maxDischargeDepth := 40) [*]

@[simp] theorem State.outcome_sound {s : State} (hs : s.sound = true) (c : ℕ) (reason : ℕ)  :
    (State.outcome s c reason).sound = true := by
  unfold State.outcome; simp +contextual (maxDischargeDepth := 40) [*]

@[simp] theorem State.raiseCounter_sound {s : State} (hs : s.sound = true) (h : ImageHdr)  :
    (State.raiseCounter s h).sound = true := by
  unfold State.raiseCounter; repeat' first | (simp +contextual (maxDischargeDepth := 40) [*]; done) | split | dsimp only | (refine State.forEach_sound ?_ _ _ (fun _ _ _ => ?_)) | (refine State.onlyIf_sound ?_ _ _ (fun _ _ => ?_))

@[simp] theorem State.useFactory_sound {s : State} (hs : s.sound = true) (words : List (ℕ × ℕ × ℕ)) (terms : List (ℕ × ℕ × ℕ)) (forms : List FormTerm)  :
    (State.useFactory s words terms forms).sound = true := by
  unfold State.useFactory; simp +contextual (maxDischargeDepth := 40) [*]

@[simp] theorem State.loadFactory_sound {s : State} (hs : s.sound = true) (terms : List (ℕ × ℕ × ℕ)) (forms : List FormTerm)  :
    (State.loadFactory s terms forms).2.sound = true := by
  unfold State.loadFactory; simp +contextual (maxDischargeDepth := 40) [*]

@[simp] theorem State.putCopy_sound {s : State} (hs : s.sound = true) (one : Bool) (c : SettingsCopy)  :
    (State.putCopy s one c).sound = true := by
  unfold State.putCopy; simp +contextual (maxDischargeDepth := 40) [*]

@[simp] theorem State.writeCopy_sound {s : State} (hs : s.sound = true) (one : Bool) (schema : ℕ) (k : Settings)  :
    (State.writeCopy s one schema k).sound = true := by
  unfold State.writeCopy; simp +contextual (maxDischargeDepth := 40) [*]

@[simp] theorem State.writeStore_sound {s : State} (hs : s.sound = true)  :
    (State.writeStore s).sound = true := by
  unfold State.writeStore; repeat' first | (simp +contextual (maxDischargeDepth := 40) [*]; done) | split | dsimp only | (refine State.forEach_sound ?_ _ _ (fun _ _ _ => ?_)) | (refine State.onlyIf_sound ?_ _ _ (fun _ _ => ?_))

@[simp] theorem State.tearStore_sound {s : State} (hs : s.sound = true)  :
    (State.tearStore s).sound = true := by
  unfold State.tearStore; simp +contextual (maxDischargeDepth := 40) [*]

@[simp] theorem State.showSchema_sound {s : State} (hs : s.sound = true) (schema : ℕ)  :
    (State.showSchema s schema).sound = true := by
  unfold State.showSchema; simp +contextual (maxDischargeDepth := 40) [*]

@[simp] theorem State.showKeys_sound {s : State} (hs : s.sound = true)  :
    (State.showKeys s).sound = true := by
  unfold State.showKeys; simp +contextual (maxDischargeDepth := 40) [*]

@[simp] theorem State.showSettings_sound {s : State} (hs : s.sound = true)  :
    (State.showSettings s).sound = true := by
  unfold State.showSettings; simp +contextual (maxDischargeDepth := 40) [*]

@[simp] theorem State.mainReads_sound {s : State} (hs : s.sound = true) (h : ImageHdr) (migrates : Bool)  :
    (State.mainReads s h migrates).sound = true := by
  unfold State.mainReads; repeat' first | (simp +contextual (maxDischargeDepth := 40) [*]; done) | split | dsimp only | (refine State.forEach_sound ?_ _ _ (fun _ _ _ => ?_)) | (refine State.onlyIf_sound ?_ _ _ (fun _ _ => ?_))

@[simp] theorem State.mainHasStore_sound {s : State} (hs : s.sound = true) (h : ImageHdr) (migrates : Bool)  :
    (State.mainHasStore s h migrates).sound = true := by
  unfold State.mainHasStore; simp +contextual (maxDischargeDepth := 40) [*]

@[simp] theorem State.restoreSettings_sound {s : State} (hs : s.sound = true) (migrates : Bool)  :
    (State.restoreSettings s migrates).sound = true := by
  unfold State.restoreSettings; repeat' first | (simp +contextual (maxDischargeDepth := 40) [*]; done) | split | dsimp only

@[simp] theorem State.beginRestart_sound {s : State} (hs : s.sound = true) (why : RestartWhy)  :
    (State.beginRestart s why).sound = true := by
  unfold State.beginRestart; simp +contextual (maxDischargeDepth := 40) [*]

@[simp] theorem State.handoverLost_sound {s : State} (hs : s.sound = true)  :
    (State.handoverLost s).sound = true := by
  unfold State.handoverLost; simp +contextual (maxDischargeDepth := 40) [*]

@[simp] theorem State.queueSwaps_sound {s : State} (hs : s.sound = true) (us : List BankUnit)  :
    (State.queueSwaps s us).sound = true := by
  unfold State.queueSwaps; simp +contextual (maxDischargeDepth := 40) [*]

@[simp] theorem State.trialOver_sound {s : State} (hs : s.sound = true)  :
    (State.trialOver s).sound = true := by
  unfold State.trialOver; simp +contextual (maxDischargeDepth := 40) [*]

@[simp] theorem State.confirmTrial_sound {s : State} (hs : s.sound = true) (t : Trial)  :
    (State.confirmTrial s t).sound = true := by
  unfold State.confirmTrial; repeat' first | (simp +contextual (maxDischargeDepth := 40) [*]; done) | split | dsimp only | (refine State.forEach_sound ?_ _ _ (fun _ _ _ => ?_)) | (refine State.onlyIf_sound ?_ _ _ (fun _ _ => ?_))

@[simp] theorem State.beginFallback_sound {s : State} (hs : s.sound = true) (reason : ℕ)  :
    (State.beginFallback s reason).sound = true := by
  unfold State.beginFallback; repeat' first | (simp +contextual (maxDischargeDepth := 40) [*]; done) | split | dsimp only | (refine State.forEach_sound ?_ _ _ (fun _ _ _ => ?_)) | (refine State.onlyIf_sound ?_ _ _ (fun _ _ => ?_))

@[simp] theorem State.endFallback_sound {s : State} (hs : s.sound = true) (t : Trial) (reason : ℕ)  :
    (State.endFallback s t reason).sound = true := by
  unfold State.endFallback; simp +contextual (maxDischargeDepth := 40) [*]

theorem State.store_sound {s : State} (hs : s.sound = true) (f : Settings → Settings) : ∀ u, s.store f = some u → u.sound = true := by
  intro u h
  unfold State.store at h
  split at h
  · cases h
  · cases h; simp +contextual (maxDischargeDepth := 40) [*]

theorem State.store_getD {s : State} (hs : s.sound = true) (f : Settings → Settings) : ((s.store f).getD s).sound = true := by
  cases h : s.store f with
  | none => exact hs
  | some u => exact State.store_sound hs f u h

@[simp] theorem State.startMain_sound {s : State} (hs : s.sound = true) (h : ImageHdr)  :
    (State.startMain s h).sound = true := by
  unfold State.startMain; simp +contextual (maxDischargeDepth := 40) [*]

@[simp] theorem State.beginCopy_sound {s : State} (hs : s.sound = true)  :
    (State.beginCopy s).sound = true := by
  unfold State.beginCopy; simp +contextual (maxDischargeDepth := 40) [*]

@[simp] theorem State.loaderVerifies_sound {s : State} (hs : s.sound = true) (atReset : Bool)  :
    (State.loaderVerifies s atReset).sound = true := by
  unfold State.loaderVerifies; simp +contextual (maxDischargeDepth := 40) [*]

@[simp] theorem State.copyVerified_sound {s : State} (hs : s.sound = true) (c : ℕ)  :
    (State.copyVerified s c).sound = true := by
  unfold State.copyVerified; simp +contextual (maxDischargeDepth := 40) [*]

@[simp] theorem State.beginTrial_sound {s : State} (hs : s.sound = true)  :
    (State.beginTrial s).sound = true := by
  unfold State.beginTrial
  extract_lets h c f s1 t src s2 s3 s4
  have hf : f.2.sound = true := by simp only [f]; split <;> simp +contextual (maxDischargeDepth := 40) [*]
  clear_value t f
  have h_s1 : s1.sound = true := by simp only [s1]; repeat' first | (simp +contextual (maxDischargeDepth := 40) [*]; done) | split | dsimp only | (refine State.forEach_sound ?_ _ _ (fun _ _ _ => ?_)) | (refine State.onlyIf_sound ?_ _ _ (fun _ _ => ?_))
  clear_value s1
  have h_s2 : s2.sound = true := by simp only [s2]; repeat' first | (simp +contextual (maxDischargeDepth := 40) [*]; done) | split | dsimp only | (refine State.forEach_sound ?_ _ _ (fun _ _ _ => ?_)) | (refine State.onlyIf_sound ?_ _ _ (fun _ _ => ?_))
  clear_value s2
  have h_s3 : s3.sound = true := by simp only [s3]; repeat' first | (simp +contextual (maxDischargeDepth := 40) [*]; done) | split | dsimp only | (refine State.forEach_sound ?_ _ _ (fun _ _ _ => ?_)) | (refine State.onlyIf_sound ?_ _ _ (fun _ _ => ?_))
  clear_value s3
  have h_s4 : s4.sound = true := by simp only [s4]; repeat' first | (simp +contextual (maxDischargeDepth := 40) [*]; done) | split | dsimp only | (refine State.forEach_sound ?_ _ _ (fun _ _ _ => ?_)) | (refine State.onlyIf_sound ?_ _ _ (fun _ _ => ?_))
  clear_value s4
  repeat' first | (simp +contextual (maxDischargeDepth := 40) [*]; done) | split | dsimp only | (refine State.forEach_sound ?_ _ _ (fun _ _ _ => ?_)) | (refine State.onlyIf_sound ?_ _ _ (fun _ _ => ?_))

@[simp] theorem State.verifyFailed_sound {s : State} (hs : s.sound = true)  :
    (State.verifyFailed s).sound = true := by
  unfold State.verifyFailed; simp +contextual (maxDischargeDepth := 40) [*]

@[simp] theorem State.startCandidate_sound {s : State} (hs : s.sound = true) (atReset : Bool)  :
    (State.startCandidate s atReset).sound = true := by
  unfold State.startCandidate; simp +contextual (maxDischargeDepth := 40) [*]

@[simp] theorem State.restartOnTrial_sound {s : State} (hs : s.sound = true) (why : RestartWhy)  :
    (State.restartOnTrial s why).sound = true := by
  unfold State.restartOnTrial; simp +contextual (maxDischargeDepth := 40) [*]

@[simp] theorem State.trialBoot_sound {s : State} (hs : s.sound = true)  :
    (State.trialBoot s).sound = true := by
  unfold State.trialBoot; repeat' first | (simp +contextual (maxDischargeDepth := 40) [*]; done) | split | dsimp only | (refine State.forEach_sound ?_ _ _ (fun _ _ _ => ?_)) | (refine State.onlyIf_sound ?_ _ _ (fun _ _ => ?_))

@[simp] theorem State.mainStarted_sound {s : State} (hs : s.sound = true) (byLoader : Bool)  :
    (State.mainStarted s byLoader).sound = true := by
  unfold State.mainStarted; simp +contextual (maxDischargeDepth := 40) [*]

@[simp] theorem State.restartDone_sound {s : State} (hs : s.sound = true)  :
    (State.restartDone s).sound = true := by
  unfold State.restartDone; repeat' first | (simp +contextual (maxDischargeDepth := 40) [*]; done) | split | dsimp only | (refine State.forEach_sound ?_ _ _ (fun _ _ _ => ?_)) | (refine State.onlyIf_sound ?_ _ _ (fun _ _ => ?_))

theorem execMgmtRestartDone_sound {s : State} (hs : s.sound = true)  :
    ∀ u, execMgmtRestartDone s = .next u → u.sound = true := by
  intro u ht; unfold execMgmtRestartDone at ht
  refine guarded_sound (fun s hs => ?_) hs ht
  repeat' first | (simp +contextual (maxDischargeDepth := 40) [*]; done) | split | dsimp only | (refine State.forEach_sound ?_ _ _ (fun _ _ _ => ?_)) | (refine State.onlyIf_sound ?_ _ _ (fun _ _ => ?_))

@[simp] theorem State.flashSlot_sound {s : State} (hs : s.sound = true)  :
    (State.flashSlot s).sound = true := by
  unfold State.flashSlot; repeat' first | (simp +contextual (maxDischargeDepth := 40) [*]; done) | split | dsimp only | (refine State.forEach_sound ?_ _ _ (fun _ _ _ => ?_)) | (refine State.onlyIf_sound ?_ _ _ (fun _ _ => ?_))

theorem execRestartTimeout_sound {s : State} (hs : s.sound = true)  :
    ∀ u, execRestartTimeout s = .next u → u.sound = true := by
  intro u ht; unfold execRestartTimeout at ht
  refine guarded_sound (fun s hs => ?_) hs ht
  repeat' first | (simp +contextual (maxDischargeDepth := 40) [*]; done) | split | dsimp only | (refine State.forEach_sound ?_ _ _ (fun _ _ _ => ?_)) | (refine State.onlyIf_sound ?_ _ _ (fun _ _ => ?_))

theorem execMgmtWatchdogMiss_sound {s : State} (hs : s.sound = true)  :
    ∀ u, execMgmtWatchdogMiss s = .next u → u.sound = true := by
  intro u ht; unfold execMgmtWatchdogMiss at ht
  refine guarded_sound (fun s hs => ?_) hs ht
  repeat' first | (simp +contextual (maxDischargeDepth := 40) [*]; done) | split | dsimp only | (refine State.forEach_sound ?_ _ _ (fun _ _ _ => ?_)) | (refine State.onlyIf_sound ?_ _ _ (fun _ _ => ?_))

@[simp] theorem State.copyFails_sound {s : State} (hs : s.sound = true)  :
    (State.copyFails s).sound = true := by
  unfold State.copyFails; simp +contextual (maxDischargeDepth := 40) [*]

theorem execCopyBlockDone_sound {s : State} (hs : s.sound = true) (ok : Bool)  :
    ∀ u, execCopyBlockDone ok s = .next u → u.sound = true := by
  intro u ht; unfold execCopyBlockDone at ht
  refine guarded_sound (fun s hs => ?_) hs ht
  repeat' first | (simp +contextual (maxDischargeDepth := 40) [*]; done) | split | dsimp only | (refine State.forEach_sound ?_ _ _ (fun _ _ _ => ?_)) | (refine State.onlyIf_sound ?_ _ _ (fun _ _ => ?_))

@[simp] theorem State.copyEnds_sound {s : State} (hs : s.sound = true) (c : ℕ)  :
    (State.copyEnds s c).sound = true := by
  unfold State.copyEnds; simp +contextual (maxDischargeDepth := 40) [*]

theorem execCopyDone_sound {s : State} (hs : s.sound = true) (ok : Bool)  :
    ∀ u, execCopyDone ok s = .next u → u.sound = true := by
  intro u ht; unfold execCopyDone at ht
  refine guarded_sound (fun s hs => ?_) hs ht
  repeat' first | (simp +contextual (maxDischargeDepth := 40) [*]; done) | split | dsimp only | (refine State.forEach_sound ?_ _ _ (fun _ _ _ => ?_)) | (refine State.onlyIf_sound ?_ _ _ (fun _ _ => ?_))

@[simp] theorem State.bankSwap_sound {s : State} (hs : s.sound = true) (u_ : BankUnit)  :
    (State.bankSwap s u_).sound = true := by
  unfold State.bankSwap; simp +contextual (maxDischargeDepth := 40) [*]

theorem execMicrocodeBankSwap_sound {s : State} (hs : s.sound = true) (u_ : BankUnit)  :
    ∀ u, execMicrocodeBankSwap u_ s = .next u → u.sound = true := by
  intro u ht; unfold execMicrocodeBankSwap at ht
  refine guarded_sound (fun s hs => ?_) hs ht
  repeat' first | (simp +contextual (maxDischargeDepth := 40) [*]; done) | split | dsimp only | (refine State.forEach_sound ?_ _ _ (fun _ _ _ => ?_)) | (refine State.onlyIf_sound ?_ _ _ (fun _ _ => ?_))

theorem execTrialHealthy_sound {s : State} (hs : s.sound = true)  :
    ∀ u, execTrialHealthy s = .next u → u.sound = true := by
  intro u ht; unfold execTrialHealthy at ht
  refine guarded_sound (fun s hs => ?_) hs ht
  repeat' first | (simp +contextual (maxDischargeDepth := 40) [*]; done) | split | dsimp only | (refine State.forEach_sound ?_ _ _ (fun _ _ _ => ?_)) | (refine State.onlyIf_sound ?_ _ _ (fun _ _ => ?_))

theorem execTrialWindowExpiry_sound {s : State} (hs : s.sound = true)  :
    ∀ u, execTrialWindowExpiry s = .next u → u.sound = true := by
  intro u ht; unfold execTrialWindowExpiry at ht
  refine guarded_sound (fun s hs => ?_) hs ht
  repeat' first | (simp +contextual (maxDischargeDepth := 40) [*]; done) | split | dsimp only | (refine State.forEach_sound ?_ _ _ (fun _ _ _ => ?_)) | (refine State.onlyIf_sound ?_ _ _ (fun _ _ => ?_))

@[simp] theorem State.flBegin_sound {s : State} (hs : s.sound = true)  :
    (State.flBegin s).1.sound = true := by
  unfold State.flBegin
  extract_lets c slot start s1 s2 src srcF
  have hst : ∀ s : State, s.sound = true → (start s).sound = true := by
    intro s hs
    exact State.put_sound (State.put_sound (by simp +contextual (maxDischargeDepth := 40) [*]) _ _ _) _ _ _
  clear_value start
  have h1 : s1.sound = true := State.setImage_sound hs _ _ _
  clear_value s1
  have h2 : s2.sound = true := by simp only [s2]; simp +contextual (maxDischargeDepth := 40) [*]
  clear_value s2
  have h3 : src.sound = true := hst _ (State.showImages_sound h2)
  clear_value src
  repeat' first | (simp +contextual (maxDischargeDepth := 40) [*]; done) | split

@[simp] theorem State.flWrite_sound {s : State} (hs : s.sound = true) (bytes : List ℕ) (dma : Bool)  :
    (State.flWrite s bytes dma).1.sound = true := by
  unfold State.flWrite; simp +contextual (maxDischargeDepth := 40) [*]

@[simp] theorem State.flWriteWindow_sound {s : State} (hs : s.sound = true)  :
    (State.flWriteWindow s).1.sound = true := by
  unfold State.flWriteWindow; simp +contextual (maxDischargeDepth := 40) [*]

@[simp] theorem State.flDmaWrite_sound {s : State} (hs : s.sound = true) (bytes : List ℕ)  :
    (State.flDmaWrite s bytes).1.sound = true := by
  unfold State.flDmaWrite; simp +contextual (maxDischargeDepth := 40) [*]

@[simp] theorem State.flashDmaFails_sound {s : State} (hs : s.sound = true)  :
    (State.flashDmaFails s).sound = true := by
  unfold State.flashDmaFails
  split
  · exact hs
  · split
    · exact hs
    · simp +contextual (maxDischargeDepth := 40) [*]

theorem execFlashDmaError_sound {s : State} (hs : s.sound = true)  :
    ∀ u, execFlashDmaError s = .next u → u.sound = true := by
  intro u ht; unfold execFlashDmaError at ht
  refine guarded_sound (fun s hs => ?_) hs ht
  repeat' first | (simp +contextual (maxDischargeDepth := 40) [*]; done) | split | dsimp only | (refine State.forEach_sound ?_ _ _ (fun _ _ _ => ?_)) | (refine State.onlyIf_sound ?_ _ _ (fun _ _ => ?_))

@[simp] theorem State.flRecover_sound {s : State} (hs : s.sound = true) (c : ℕ) (slot : ℕ)  :
    (State.flRecover s c slot).1.sound = true := by
  unfold State.flRecover; repeat' first | (simp +contextual (maxDischargeDepth := 40) [*]; done) | split | dsimp only | (refine State.forEach_sound ?_ _ _ (fun _ _ _ => ?_)) | (refine State.onlyIf_sound ?_ _ _ (fun _ _ => ?_))

@[simp] theorem State.flFinish_sound {s : State} (hs : s.sound = true) (v : VerifyResult)  :
    (State.flFinish s v).1.sound = true := by
  unfold State.flFinish; repeat' first | (simp +contextual (maxDischargeDepth := 40) [*]; done) | split | dsimp only | (refine State.forEach_sound ?_ _ _ (fun _ _ _ => ?_)) | (refine State.onlyIf_sound ?_ _ _ (fun _ _ => ?_))

theorem State.activation_sound {s : State} (hs : s.sound = true) (atReset : Bool) :
    ∀ r u, s.activation atReset = some (r, u) → u.sound = true := by
  intro r u h
  unfold State.activation at h
  dsimp only at h
  repeat' split at h
  all_goals first | (cases h; simp +contextual (maxDischargeDepth := 40) [*]; done) | (simp at h; done) | (simp at h; obtain ⟨_, rfl⟩ := h; simp +contextual (maxDischargeDepth := 40) [*])

@[simp] theorem State.flActivate_sound {s : State} (hs : s.sound = true)  :
    (State.flActivate s).1.sound = true := by
  unfold State.flActivate; repeat' first | (simp +contextual (maxDischargeDepth := 40) [*]; done) | (have hu := State.activation_sound hs _ _ _ ‹_›; simp +contextual (maxDischargeDepth := 40) [*]; done) | split | dsimp only | (refine State.forEach_sound ?_ _ _ (fun _ _ _ => ?_)) | (refine State.onlyIf_sound ?_ _ _ (fun _ _ => ?_))

@[simp] theorem State.flActivateAtReset_sound {s : State} (hs : s.sound = true)  :
    (State.flActivateAtReset s).1.sound = true := by
  unfold State.flActivateAtReset; repeat' first | (simp +contextual (maxDischargeDepth := 40) [*]; done) | (have hu := State.activation_sound hs _ _ _ ‹_›; simp +contextual (maxDischargeDepth := 40) [*]; done) | split | dsimp only | (refine State.forEach_sound ?_ _ _ (fun _ _ _ => ?_)) | (refine State.onlyIf_sound ?_ _ _ (fun _ _ => ?_))

@[simp] theorem State.flConfirm_sound {s : State} (hs : s.sound = true)  :
    (State.flConfirm s).1.sound = true := by
  unfold State.flConfirm; repeat' first | (simp +contextual (maxDischargeDepth := 40) [*]; done) | split | dsimp only | (refine State.forEach_sound ?_ _ _ (fun _ _ _ => ?_)) | (refine State.onlyIf_sound ?_ _ _ (fun _ _ => ?_))

@[simp] theorem State.flRevert_sound {s : State} (hs : s.sound = true)  :
    (State.flRevert s).1.sound = true := by
  unfold State.flRevert; simp +contextual (maxDischargeDepth := 40) [*]

@[simp] theorem State.flAbort_sound {s : State} (hs : s.sound = true)  :
    (State.flAbort s).1.sound = true := by
  unfold State.flAbort; simp +contextual (maxDischargeDepth := 40) [*]

@[simp] theorem State.unlist_sound {s : State} (hs : s.sound = true)  :
    (State.unlist s).sound = true := by
  unfold State.unlist; simp +contextual (maxDischargeDepth := 40) [*]

@[simp] theorem State.flLoadManifest_sound {s : State} (hs : s.sound = true)  :
    (State.flLoadManifest s).1.sound = true := by
  unfold State.flLoadManifest; repeat' first | (simp +contextual (maxDischargeDepth := 40) [*]; done) | split | dsimp only | (refine State.forEach_sound ?_ _ _ (fun _ _ _ => ?_)) | (refine State.onlyIf_sound ?_ _ _ (fun _ _ => ?_))

@[simp] theorem State.flClearManifest_sound {s : State} (hs : s.sound = true)  :
    (State.flClearManifest s).1.sound = true := by
  unfold State.flClearManifest; simp +contextual (maxDischargeDepth := 40) [*]

@[simp] theorem State.flReadLog_sound {s : State} (hs : s.sound = true)  :
    (State.flReadLog s).1.sound = true := by
  unfold State.flReadLog; simp +contextual (maxDischargeDepth := 40) [*]

@[simp] theorem State.flInstallKey_sound {s : State} (hs : s.sound = true)  :
    (State.flInstallKey s).1.sound = true := by
  unfold State.flInstallKey; repeat' first | (simp +contextual (maxDischargeDepth := 40) [*]; done) | (have hu := State.store_sound hs _ _ ‹_›; simp +contextual (maxDischargeDepth := 40) [*]; done) | split | dsimp only | (refine State.forEach_sound ?_ _ _ (fun _ _ _ => ?_)) | (refine State.onlyIf_sound ?_ _ _ (fun _ _ => ?_))

@[simp] theorem State.flOwnerEnroll_sound {s : State} (hs : s.sound = true) (admin : Bool)  :
    (State.flOwnerEnroll s admin).1.sound = true := by
  unfold State.flOwnerEnroll
  split
  · simp +contextual (maxDischargeDepth := 40) [*]
  · extract_lets hash signed src srcF s1 s2
    split
    · simp +contextual (maxDischargeDepth := 40) [*]
    · have h1 : s1.sound = true := by simp only [s1, src]; simp +contextual (maxDischargeDepth := 40) [*]
      clear_value s1
      have h2 : s2.sound = true := by
        refine State.forEach_sound h1 _ _ (fun _ _ _ => ?_)
        repeat' first | (simp +contextual (maxDischargeDepth := 40) [*]; done) | split
      clear_value s2
      simp +contextual (maxDischargeDepth := 40) [*]


@[simp] theorem State.flDo_sound {s : State} (hs : s.sound = true) (admin : Bool) (code : ℕ) (bytes : List ℕ) (v : VerifyResult)  :
    (State.flDo s admin code bytes v).1.sound = true := by
  unfold State.flDo; repeat' first | (simp +contextual (maxDischargeDepth := 40) [*]; done) | split | dsimp only | (refine State.forEach_sound ?_ _ _ (fun _ _ _ => ?_)) | (refine State.onlyIf_sound ?_ _ _ (fun _ _ => ?_))

@[simp] theorem State.flCmd_sound {s : State} (hs : s.sound = true) (admin : Bool) (code : ℕ) (bytes : List ℕ) (v : VerifyResult)  :
    (State.flCmd s admin code bytes v).1.sound = true := by
  unfold State.flCmd; simp +contextual (maxDischargeDepth := 40) [*]

@[simp] theorem State.firstImages_sound {s : State} (hs : s.sound = true) (made : List (ℕ × ℕ × ImageHdr))  :
    (State.firstImages s made).sound = true := by
  unfold State.firstImages; simp +contextual (maxDischargeDepth := 40) [*]

@[simp] theorem State.fallenBack_sound {s : State} (hs : s.sound = true) (c : ℕ)  :
    (State.fallenBack s c).sound = true := by
  unfold State.fallenBack; simp +contextual (maxDischargeDepth := 40) [*]

@[simp] theorem State.trialAtStart_sound {s : State} (hs : s.sound = true) (t : Trial)  :
    (State.trialAtStart s t).sound = true := by
  unfold State.trialAtStart; simp +contextual (maxDischargeDepth := 40) [*]

@[simp] theorem State.flashStart_sound {s : State} (hs : s.sound = true) (b : BootData)  :
    (State.flashStart s b).sound = true := by
  unfold State.flashStart
  extract_lets s0 s1 r src srcF s2 s3 s4
  have h_s0 : s0.sound = true := by simp only [s0]; repeat' first | (simp +contextual (maxDischargeDepth := 40) [*]; done) | split | dsimp only | (refine State.forEach_sound ?_ _ _ (fun _ _ _ => ?_)) | (refine State.onlyIf_sound ?_ _ _ (fun _ _ => ?_))
  clear_value s0
  have h_s1 : s1.sound = true := by simp only [s1]; repeat' first | (simp +contextual (maxDischargeDepth := 40) [*]; done) | split | dsimp only | (refine State.forEach_sound ?_ _ _ (fun _ _ _ => ?_)) | (refine State.onlyIf_sound ?_ _ _ (fun _ _ => ?_))
  clear_value s1
  clear_value r
  have h_s2 : s2.sound = true := by simp only [s2, src, srcF]; repeat' first | (simp +contextual (maxDischargeDepth := 40) [*]; done) | split | dsimp only | (refine State.forEach_sound ?_ _ _ (fun _ _ _ => ?_)) | (refine State.onlyIf_sound ?_ _ _ (fun _ _ => ?_))
  clear_value s2 src srcF
  have h_s3 : s3.sound = true := by simp only [s3]; repeat' first | (simp +contextual (maxDischargeDepth := 40) [*]; done) | split | dsimp only | (refine State.forEach_sound ?_ _ _ (fun _ _ _ => ?_)) | (refine State.onlyIf_sound ?_ _ _ (fun _ _ => ?_))
  clear_value s3
  have h_s4 : s4.sound = true := by simp only [s4]; repeat' first | (simp +contextual (maxDischargeDepth := 40) [*]; done) | split | dsimp only | (refine State.forEach_sound ?_ _ _ (fun _ _ _ => ?_)) | (refine State.onlyIf_sound ?_ _ _ (fun _ _ => ?_))
  clear_value s4
  simp +contextual (maxDischargeDepth := 40) [*]


end Sys2Proof.Machine
end

