-- ==== Sys2Proof/Laws/SoundBringup.lean ====
section
/-! SUPPORT. The operations of Bringup keep the form of a state. -/

namespace Sys2Proof.Machine

set_option linter.unusedTactic false
set_option linter.unreachableTactic false

@[simp] theorem State.coreReset_sound {s : State} (hs : s.sound = true) (cause : ℕ)  :
    (State.coreReset s cause).sound = true := by
  unfold State.coreReset
  refine State.put_sound (State.putFlag_sound (State.putFlag_sound (State.sound_mk.2 ⟨RegFile.wf_filter _ _ (State.sound_regs hs), ?_⟩) _ _ _) _ _ _) _ _ _
  exact ⟨by decide, by decide, rfl, rfl, rfl, rfl, rfl, rfl, rfl, rfl, rfl, rfl⟩

theorem execSupplyBelowThreshold_sound {s : State} (hs : s.sound = true) (rail : ℕ)  :
    ∀ u, execSupplyBelowThreshold rail s = .next u → u.sound = true := by
  intro u ht; unfold execSupplyBelowThreshold at ht
  refine guarded_sound (fun s hs => ?_) hs ht
  repeat' first | (simp +contextual (maxDischargeDepth := 40) [*]; done) | split | dsimp only | (refine State.forEach_sound ?_ _ _ (fun _ _ _ => ?_)) | (refine State.onlyIf_sound ?_ _ _ (fun _ _ => ?_))

theorem execResetNLow_sound {s : State} (hs : s.sound = true)  :
    ∀ u, execResetNLow s = .next u → u.sound = true := by
  intro u ht; unfold execResetNLow at ht
  refine guarded_sound (fun s hs => ?_) hs ht
  repeat' first | (simp +contextual (maxDischargeDepth := 40) [*]; done) | split | dsimp only | (refine State.forEach_sound ?_ _ _ (fun _ _ _ => ?_)) | (refine State.onlyIf_sound ?_ _ _ (fun _ _ => ?_))

theorem execSuppliesGood_sound {s : State} (hs : s.sound = true) (straps : Straps)  :
    ∀ u, execSuppliesGood straps s = .next u → u.sound = true := by
  intro u ht; unfold execSuppliesGood at ht
  refine guarded_sound (fun s hs => ?_) hs ht
  repeat' first | (simp +contextual (maxDischargeDepth := 40) [*]; done) | split | dsimp only | (refine State.forEach_sound ?_ _ _ (fun _ _ _ => ?_)) | (refine State.onlyIf_sound ?_ _ _ (fun _ _ => ?_))

@[simp] theorem State.devFault_sound {s : State} (hs : s.sound = true) (bit : ℕ)  :
    (State.devFault s bit).sound = true := by
  unfold State.devFault; simp +contextual (maxDischargeDepth := 40) [*]

theorem execSupplyOutOfRange_sound {s : State} (hs : s.sound = true) (rail : ℕ)  :
    ∀ u, execSupplyOutOfRange rail s = .next u → u.sound = true := by
  intro u ht; unfold execSupplyOutOfRange at ht
  refine guarded_sound (fun s hs => ?_) hs ht
  repeat' first | (simp +contextual (maxDischargeDepth := 40) [*]; done) | split | dsimp only | (refine State.forEach_sound ?_ _ _ (fun _ _ _ => ?_)) | (refine State.onlyIf_sound ?_ _ _ (fun _ _ => ?_))

theorem execDieHot_sound {s : State} (hs : s.sound = true)  :
    ∀ u, execDieHot s = .next u → u.sound = true := by
  intro u ht; unfold execDieHot at ht
  refine guarded_sound (fun s hs => ?_) hs ht
  repeat' first | (simp +contextual (maxDischargeDepth := 40) [*]; done) | split | dsimp only | (refine State.forEach_sound ?_ _ _ (fun _ _ _ => ?_)) | (refine State.onlyIf_sound ?_ _ _ (fun _ _ => ?_))

theorem execDieCritical_sound {s : State} (hs : s.sound = true)  :
    ∀ u, execDieCritical s = .next u → u.sound = true := by
  intro u ht; unfold execDieCritical at ht
  refine guarded_sound (fun s hs => ?_) hs ht
  repeat' first | (simp +contextual (maxDischargeDepth := 40) [*]; done) | split | dsimp only | (refine State.forEach_sound ?_ _ _ (fun _ _ _ => ?_)) | (refine State.onlyIf_sound ?_ _ _ (fun _ _ => ?_))

theorem execSclkMonitor_sound {s : State} (hs : s.sound = true)  :
    ∀ u, execSclkMonitor s = .next u → u.sound = true := by
  intro u ht; unfold execSclkMonitor at ht
  refine guarded_sound (fun s hs => ?_) hs ht
  repeat' first | (simp +contextual (maxDischargeDepth := 40) [*]; done) | split | dsimp only | (refine State.forEach_sound ?_ _ _ (fun _ _ _ => ?_)) | (refine State.onlyIf_sound ?_ _ _ (fun _ _ => ?_))

theorem execSramUncorr_sound {s : State} (hs : s.sound = true)  :
    ∀ u, execSramUncorr s = .next u → u.sound = true := by
  intro u ht; unfold execSramUncorr at ht
  refine guarded_sound (fun s hs => ?_) hs ht
  repeat' first | (simp +contextual (maxDischargeDepth := 40) [*]; done) | split | dsimp only | (refine State.forEach_sound ?_ _ _ (fun _ _ _ => ?_)) | (refine State.onlyIf_sound ?_ _ _ (fun _ _ => ?_))

@[simp] theorem State.deviceResetCmd_sound {s : State} (hs : s.sound = true) (allowed : Bool) (v : ℕ)  :
    (State.deviceResetCmd s allowed v).1.sound = true := by
  unfold State.deviceResetCmd; simp +contextual (maxDischargeDepth := 40) [*]

@[simp] theorem State.takeOtp_sound {s : State} (hs : s.sound = true) (t : ℕ × ℕ × ℕ)  :
    (State.takeOtp s t).sound = true := by
  unfold State.takeOtp; simp +contextual (maxDischargeDepth := 40) [*]

@[simp] theorem State.stage1_sound {s : State} (hs : s.sound = true) (b : BootData)  :
    (State.stage1 s b).sound = true := by
  unfold State.stage1; simp +contextual (maxDischargeDepth := 40) [*]

theorem execStage1Entry_sound {s : State} (hs : s.sound = true) (b : BootData)  :
    ∀ u, execStage1Entry b s = .next u → u.sound = true := by
  intro u ht; unfold execStage1Entry at ht
  refine guarded_sound (fun s hs => ?_) hs ht
  repeat' first | (simp +contextual (maxDischargeDepth := 40) [*]; done) | split | dsimp only | (refine State.forEach_sound ?_ _ _ (fun _ _ _ => ?_)) | (refine State.onlyIf_sound ?_ _ _ (fun _ _ => ?_))

@[simp] theorem State.stage2_sound {s : State} (hs : s.sound = true)  :
    (State.stage2 s).sound = true := by
  unfold State.stage2; simp +contextual (maxDischargeDepth := 40) [*]

theorem execStage2Entry_sound {s : State} (hs : s.sound = true)  :
    ∀ u, execStage2Entry s = .next u → u.sound = true := by
  intro u ht; unfold execStage2Entry at ht
  refine guarded_sound (fun s hs => ?_) hs ht
  repeat' first | (simp +contextual (maxDischargeDepth := 40) [*]; done) | split | dsimp only | (refine State.forEach_sound ?_ _ _ (fun _ _ _ => ?_)) | (refine State.onlyIf_sound ?_ _ _ (fun _ _ => ?_))

@[simp] theorem State.portTable_sound {s : State} (hs : s.sound = true) (i : ℕ) (k : ℕ) (r : TableResult)  :
    (State.portTable s i k r).sound = true := by
  unfold State.portTable; simp +contextual (maxDischargeDepth := 40) [*]

theorem execInputTableDone_sound {s : State} (hs : s.sound = true) (i : ℕ) (core : ℕ) (r : TableResult)  :
    ∀ u, execInputTableDone i core r s = .next u → u.sound = true := by
  intro u ht; unfold execInputTableDone at ht
  refine guarded_sound (fun s hs => ?_) hs ht
  repeat' first | (simp +contextual (maxDischargeDepth := 40) [*]; done) | split | dsimp only | (refine State.forEach_sound ?_ _ _ (fun _ _ _ => ?_)) | (refine State.onlyIf_sound ?_ _ _ (fun _ _ => ?_))

@[simp] theorem State.stage3_sound {s : State} (hs : s.sound = true)  :
    (State.stage3 s).sound = true := by
  unfold State.stage3; simp +contextual (maxDischargeDepth := 40) [*]

theorem execStage3Entry_sound {s : State} (hs : s.sound = true)  :
    ∀ u, execStage3Entry s = .next u → u.sound = true := by
  intro u ht; unfold execStage3Entry at ht
  refine guarded_sound (fun s hs => ?_) hs ht
  repeat' first | (simp +contextual (maxDischargeDepth := 40) [*]; done) | split | dsimp only | (refine State.forEach_sound ?_ _ _ (fun _ _ _ => ?_)) | (refine State.onlyIf_sound ?_ _ _ (fun _ _ => ?_))

theorem execPcieLinkTraining_sound {s : State} (hs : s.sound = true)  :
    ∀ u, execPcieLinkTraining s = .next u → u.sound = true := by
  intro u ht; unfold execPcieLinkTraining at ht
  refine guarded_sound (fun s hs => ?_) hs ht
  repeat' first | (simp +contextual (maxDischargeDepth := 40) [*]; done) | split | dsimp only | (refine State.forEach_sound ?_ _ _ (fun _ _ _ => ?_)) | (refine State.onlyIf_sound ?_ _ _ (fun _ _ => ?_))

theorem execBoundaryScan_sound {s : State} (hs : s.sound = true) (ir : ℕ)  :
    ∀ u, execBoundaryScan ir s = .next u → u.sound = true := by
  intro u ht; unfold execBoundaryScan at ht
  refine guarded_sound (fun s hs => ?_) hs ht
  repeat' first | (simp +contextual (maxDischargeDepth := 40) [*]; done) | split | dsimp only | (refine State.forEach_sound ?_ _ _ (fun _ _ _ => ?_)) | (refine State.onlyIf_sound ?_ _ _ (fun _ _ => ?_))

end Sys2Proof.Machine
end

