-- ==== Sys2Proof/Laws/SoundEth.lean ====
section
/-! SUPPORT. The operations of Eth keep the form of a state. -/

namespace Sys2Proof.Machine

set_option linter.unusedTactic false
set_option linter.unreachableTactic false

@[simp] theorem State.setEth_sound {s : State} (hs : s.sound = true) (p : ℕ) (x : EthSt)  :
    (State.setEth s p x).sound = true := by
  unfold State.setEth; simp +contextual (maxDischargeDepth := 40) [*]

@[simp] theorem State.txWriteBack_sound {s : State} (hs : s.sound = true) (n p : Nat) : (State.txWriteBack n p s).sound = true := by
  induction n generalizing s with
  | zero => exact hs
  | succ n ih =>
    unfold State.txWriteBack
    repeat' first | (simp +contextual (maxDischargeDepth := 40) [*]; done) | split | dsimp only | refine ih ?_

@[simp] theorem State.txTake_sound {s : State} (hs : s.sound = true) (p : ℕ) (e : TxElem)  :
    (State.txTake s p e).sound = true := by
  unfold State.txTake; simp +contextual (maxDischargeDepth := 40) [*]

@[simp] theorem State.txSend_sound {s : State} (hs : s.sound = true) (p : ℕ) (f : TxFrame)  :
    (State.txSend s p f).sound = true := by
  unfold State.txSend; simp +contextual (maxDischargeDepth := 40) [*]

theorem execEthFrameTx_sound {s : State} (hs : s.sound = true) (p : ℕ) (f : TxFrame)  :
    ∀ u, execEthFrameTx p f s = .next u → u.sound = true := by
  intro u ht; unfold execEthFrameTx at ht
  refine guarded_sound (fun s hs => ?_) hs ht
  repeat' first | (simp +contextual (maxDischargeDepth := 40) [*]; done) | split | dsimp only | (refine State.forEach_sound ?_ _ _ (fun _ _ _ => ?_)) | (refine State.onlyIf_sound ?_ _ _ (fun _ _ => ?_))

theorem execEthTxStamp_sound {s : State} (hs : s.sound = true) (p : ℕ) (t : ℕ)  :
    ∀ u, execEthTxStamp p t s = .next u → u.sound = true := by
  intro u ht; unfold execEthTxStamp at ht
  refine guarded_sound (fun s hs => ?_) hs ht
  repeat' first | (simp +contextual (maxDischargeDepth := 40) [*]; done) | split | dsimp only | (refine State.forEach_sound ?_ _ _ (fun _ _ _ => ?_)) | (refine State.onlyIf_sound ?_ _ _ (fun _ _ => ?_))

@[simp] theorem State.rxWrite_sound {s : State} (hs : s.sound = true) (p : ℕ) (f : RxFrame)  :
    (State.rxWrite s p f).sound = true := by
  unfold State.rxWrite; simp +contextual (maxDischargeDepth := 40) [*]

theorem execEthFrameRx_sound {s : State} (hs : s.sound = true) (p : ℕ) (f : RxFrame)  :
    ∀ u, execEthFrameRx p f s = .next u → u.sound = true := by
  intro u ht; unfold execEthFrameRx at ht
  refine guarded_sound (fun s hs => ?_) hs ht
  repeat' first | (simp +contextual (maxDischargeDepth := 40) [*]; done) | split | dsimp only | (refine State.forEach_sound ?_ _ _ (fun _ _ _ => ?_)) | (refine State.onlyIf_sound ?_ _ _ (fun _ _ => ?_))

@[simp] theorem State.ethLink_sound {s : State} (hs : s.sound = true) (p : ℕ) (up : Bool)  :
    (State.ethLink s p up).sound = true := by
  unfold State.ethLink; simp +contextual (maxDischargeDepth := 40) [*]

theorem execEthLinkChange_sound {s : State} (hs : s.sound = true) (p : ℕ) (up : Bool)  :
    ∀ u, execEthLinkChange p up s = .next u → u.sound = true := by
  intro u ht; unfold execEthLinkChange at ht
  refine guarded_sound (fun s hs => ?_) hs ht
  repeat' first | (simp +contextual (maxDischargeDepth := 40) [*]; done) | split | dsimp only | (refine State.forEach_sound ?_ _ _ (fun _ _ _ => ?_)) | (refine State.onlyIf_sound ?_ _ _ (fun _ _ => ?_))

@[simp] theorem State.ethEnable_sound {s : State} (hs : s.sound = true) (p : ℕ) (on : Bool)  :
    (State.ethEnable s p on).1.sound = true := by
  unfold State.ethEnable; simp +contextual (maxDischargeDepth := 40) [*]

@[simp] theorem State.ethRingCtrl_sound {s : State} (hs : s.sound = true) (p : ℕ) (rx : Bool) (on : Bool)  :
    (State.ethRingCtrl s p rx on).1.sound = true := by
  unfold State.ethRingCtrl; simp +contextual (maxDischargeDepth := 40) [*]

@[simp] theorem State.ethStop_sound {s : State} (hs : s.sound = true) (p : ℕ) (rx : Bool)  :
    (State.ethStop s p rx).sound = true := by
  unfold State.ethStop; simp +contextual (maxDischargeDepth := 40) [*]

@[simp] theorem State.ethBell_sound {s : State} (hs : s.sound = true) (p : ℕ) (rx : Bool) (v : ℕ)  :
    (State.ethBell s p rx v).1.sound = true := by
  unfold State.ethBell
  extract_lets g dev n
  exact sound_fst_ite (refuse_sound hs _) (accept_sound (State.put_sound hs _ _ _))

end Sys2Proof.Machine
end

