-- ==== Sys2Proof/Laws/SoundView.lean ====
section
/-! SUPPORT. The operations of View keep the form of a state. -/

namespace Sys2Proof.Machine

set_option linter.unusedTactic false
set_option linter.unreachableTactic false

@[simp] theorem State.putWin_sound {s : State} (hs : s.sound = true) (path : Path) (p : ℕ) (o : ℕ) (n : ℕ) (v : ℕ)  :
    (State.putWin s path p o n v).sound = true := by
  unfold State.putWin; simp +contextual (maxDischargeDepth := 40) [*]

@[simp] theorem State.latch_sound {s : State} (hs : s.sound = true) (path : Path) (key : ℕ) (words : List ℕ)  :
    (State.latch s path key words).sound = true := by
  unfold State.latch; simp +contextual (maxDischargeDepth := 40) [*]

@[simp] theorem State.readLog_sound {s : State} (hs : s.sound = true) (p : ℕ) (off : ℕ)  :
    (State.readLog s p off).sound = true := by
  unfold State.readLog; simp +contextual (maxDischargeDepth := 40) [*]

@[simp] theorem State.latchSingle_sound {s : State} (hs : s.sound = true) (path : Path) (p : ℕ) (off : ℕ)  :
    (State.latchSingle s path p off).sound = true := by
  unfold State.latchSingle; repeat' first | (simp +contextual (maxDischargeDepth := 40) [*]; done) | split | dsimp only | (refine State.forEach_sound ?_ _ _ (fun _ _ _ => ?_)) | (refine State.onlyIf_sound ?_ _ _ (fun _ _ => ?_))

@[simp] theorem State.readWord_sound {s : State} (hs : s.sound = true) (path : Path) (p : ℕ) (off : ℕ)  :
    (State.readWord s path p off).2.sound = true := by
  unfold State.readWord; repeat' first | (simp +contextual (maxDischargeDepth := 40) [*]; done) | split | dsimp only | (refine State.forEach_sound ?_ _ _ (fun _ _ _ => ?_)) | (refine State.onlyIf_sound ?_ _ _ (fun _ _ => ?_))

end Sys2Proof.Machine
end

