-- ==== Sys2Proof/Laws/SoundAccess.lean ====
section
/-! SUPPORT. The operations of Access keep the form of a state. -/

namespace Sys2Proof.Machine

set_option linter.unusedTactic false
set_option linter.unreachableTactic false

@[simp] theorem State.stage__sound {s : State} (hs : s.sound = true) (path : Path) (key : ℕ) (v : ℕ)  :
    (State.stage_ s path key v).sound = true := by
  unfold State.stage_; simp +contextual (maxDischargeDepth := 40) [*]

@[simp] theorem State.unstage_sound {s : State} (hs : s.sound = true) (path : Path) (p : ℕ) (base : ℕ) (n : ℕ)  :
    (State.unstage s path p base n).sound = true := by
  unfold State.unstage; simp +contextual (maxDischargeDepth := 40) [*]

@[simp] theorem State.put__sound {s : State} (hs : s.sound = true) (c : WCtx) (d : RegDesc)  :
    (State.put_ s c d).sound = true := by
  unfold State.put_; simp +contextual (maxDischargeDepth := 40) [*]

@[simp] theorem State.plain_sound {s : State} (hs : s.sound = true) (c : WCtx) (d : RegDesc)  :
    (State.plain s c d).1.sound = true := by
  unfold State.plain; simp +contextual (maxDischargeDepth := 40) [*]

@[simp] theorem State.ranged_sound {s : State} (hs : s.sound = true) (c : WCtx) (d : RegDesc) (ok : Bool)  :
    (State.ranged s c d ok).1.sound = true := by
  unfold State.ranged; simp +contextual (maxDischargeDepth := 40) [*]

@[simp] theorem State.after_sound {s : State} (hs : s.sound = true) (c : WCtx) (d : RegDesc) (f : State → State) (hf : ∀ s, s.sound = true → (f s).sound = true) :
    (State.after s c d f).1.sound = true := by
  unfold State.after; simp +contextual (maxDischargeDepth := 40) [*]

@[simp] theorem State.lastCmd_sound {s : State} (hs : s.sound = true) (path : Path) (p : ℕ) (off : ℕ) (agent : ℕ) (code : ℕ) (v : Verdict)  :
    (State.lastCmd s path p off agent code v).sound = true := by
  unfold State.lastCmd; simp +contextual (maxDischargeDepth := 40) [*]

@[simp] theorem State.noteCmd_sound {s : State} (hs : s.sound = true) (path : Path) (p : ℕ) (off : ℕ) (v : ℕ)  :
    (State.noteCmd s path p off v).sound = true := by
  unfold State.noteCmd; simp +contextual (maxDischargeDepth := 40) [*]

end Sys2Proof.Machine
end

