-- ==== Sys2Proof/Laws/SoundCommit.lean ====
section
/-! SUPPORT. The operations of Commit keep the form of a state. -/

namespace Sys2Proof.Machine

set_option linter.unusedTactic false
set_option linter.unreachableTactic false

@[simp] theorem State.putWords_sound {s : State} (hs : s.sound = true) (l : List (ℕ × Word))  :
    (State.putWords s l).sound = true := by
  unfold State.putWords; simp +contextual (maxDischargeDepth := 40) [*]

@[simp] theorem State.calHook_sound {s : State} {old : State} (hs : s.sound = true) (hold : old.sound = true) (q : ℕ)  :
    (State.calHook s old q).sound = true := by
  unfold State.calHook; simp +contextual (maxDischargeDepth := 40) [*]

@[simp] theorem State.committed_sound {s : State} {old : State} (hs : s.sound = true) (hold : old.sound = true) (p : ℕ) (words : List (ℕ × Word))  :
    (State.committed s old p words).sound = true := by
  have hg := fun f => State.store_getD hs f
  unfold State.committed; repeat' first | (simp +contextual (maxDischargeDepth := 40) [*]; done) | split | dsimp only

@[simp] theorem State.bumpCommit_sound {s : State} (hs : s.sound = true) (p : ℕ) (lane : ℕ) (n : ℕ)  :
    (State.bumpCommit s p lane n).sound = true := by
  unfold State.bumpCommit; simp +contextual (maxDischargeDepth := 40) [*]

@[simp] theorem State.dropShadows_sound {s : State} (hs : s.sound = true) (p : ℕ) (lane : ℕ)  :
    (State.dropShadows s p lane).sound = true := by
  unfold State.dropShadows; simp +contextual (maxDischargeDepth := 40) [*]

@[simp] theorem State.abortShadows_sound {s : State} (hs : s.sound = true) (p : ℕ) (lane : ℕ)  :
    (State.abortShadows s p lane).sound = true := by
  unfold State.abortShadows; simp +contextual (maxDischargeDepth := 40) [*]

@[simp] theorem State.shadowCommit_sound {s : State} (hs : s.sound = true) (p : ℕ) (lane : ℕ)  :
    (State.shadowCommit s p lane).sound = true := by
  unfold State.shadowCommit; simp +contextual (maxDischargeDepth := 40) [*]

theorem execShadowCommit_sound {s : State} (hs : s.sound = true) (page : ℕ) (lane : ℕ)  :
    ∀ u, execShadowCommit page lane s = .next u → u.sound = true := by
  intro u ht; unfold execShadowCommit at ht
  refine guarded_sound (fun s hs => ?_) hs ht
  repeat' first | (simp +contextual (maxDischargeDepth := 40) [*]; done) | split | dsimp only | (refine State.forEach_sound ?_ _ _ (fun _ _ _ => ?_)) | (refine State.onlyIf_sound ?_ _ _ (fun _ _ => ?_))

@[simp] theorem State.writeShd_sound {s : State} (hs : s.sound = true) (c : WCtx) (d : RegDesc)  :
    (State.writeShd s c d).1.sound = true := by
  unfold State.writeShd; repeat' first | (simp +contextual (maxDischargeDepth := 40) [*]; done) | split | dsimp only | (refine State.forEach_sound ?_ _ _ (fun _ _ _ => ?_)) | (refine State.onlyIf_sound ?_ _ _ (fun _ _ => ?_))

@[simp] theorem State.commitGo_sound {s : State} (hs : s.sound = true) (agent : ℕ) (p : ℕ) (lane : ℕ) (mode : ℕ)  :
    (State.commitGo s agent p lane mode).1.sound = true := by
  unfold State.commitGo; repeat' first | (simp +contextual (maxDischargeDepth := 40) [*]; done) | split | dsimp only | (refine State.forEach_sound ?_ _ _ (fun _ _ _ => ?_)) | (refine State.onlyIf_sound ?_ _ _ (fun _ _ => ?_))

@[simp] theorem State.writeCommitCtl_sound {s : State} (hs : s.sound = true) (c : WCtx) (lane : ℕ)  :
    (State.writeCommitCtl s c lane).1.sound = true := by
  unfold State.writeCommitCtl; simp +contextual (maxDischargeDepth := 40) [*]

@[simp] theorem State.writeCgArm_sound {s : State} (hs : s.sound = true) (v : ℕ)  :
    (State.writeCgArm s v).1.sound = true := by
  unfold State.writeCgArm; simp +contextual (maxDischargeDepth := 40) [*]

@[simp] theorem State.writeCgDisarm_sound {s : State} (hs : s.sound = true) (v : ℕ)  :
    (State.writeCgDisarm s v).1.sound = true := by
  unfold State.writeCgDisarm; simp +contextual (maxDischargeDepth := 40) [*]

@[simp] theorem State.cgFire_sound {s : State} (hs : s.sound = true)  :
    (State.cgFire s).sound = true := by
  unfold State.cgFire; simp +contextual (maxDischargeDepth := 40) [*]

theorem execCgFire_sound {s : State} (hs : s.sound = true) (g : ℕ)  :
    ∀ u, execCgFire g s = .next u → u.sound = true := by
  intro u ht; unfold execCgFire at ht
  refine guarded_sound (fun s hs => ?_) hs ht
  repeat' first | (simp +contextual (maxDischargeDepth := 40) [*]; done) | split | dsimp only | (refine State.forEach_sound ?_ _ _ (fun _ _ _ => ?_)) | (refine State.onlyIf_sound ?_ _ _ (fun _ _ => ?_))

end Sys2Proof.Machine
end

