-- ==== Sys2Proof/Laws/SoundOwn.lean ====
section
/-! SUPPORT. The operations of Own keep the form of a state. -/

namespace Sys2Proof.Machine

set_option linter.unusedTactic false
set_option linter.unreachableTactic false

@[simp] theorem State.loopOff_sound {s : State} (hs : s.sound = true)  :
    (State.loopOff s).sound = true := by
  unfold State.loopOff; simp +contextual (maxDischargeDepth := 40) [*]

@[simp] theorem State.dropKind_sound {s : State} (hs : s.sound = true) (kind : ℕ)  :
    (State.dropKind s kind).sound = true := by
  unfold State.dropKind; simp +contextual (maxDischargeDepth := 40) [*]

@[simp] theorem State.freed_sound {s : State} (hs : s.sound = true) (code : ℕ) (idx : ℕ)  :
    (State.freed s code idx).sound = true := by
  unfold State.freed; simp +contextual (maxDischargeDepth := 40) [*]

@[simp] theorem State.releaseRes_sound {s : State} (hs : s.sound = true) (code : ℕ) (idx : ℕ)  :
    (State.releaseRes s code idx).sound = true := by
  unfold State.releaseRes; simp +contextual (maxDischargeDepth := 40) [*]

@[simp] theorem State.writeOwner_sound {s : State} (hs : s.sound = true) (c : WCtx)  :
    (State.writeOwner s c).1.sound = true := by
  unfold State.writeOwner; simp +contextual (maxDischargeDepth := 40) [*]

@[simp] theorem State.setRanges_sound {s : State} (hs : s.sound = true) (l : List (ℕ × ℕ × ℕ))  :
    (State.setRanges s l).sound = true := by
  unfold State.setRanges; simp +contextual (maxDischargeDepth := 40) [*]

@[simp] theorem State.cmdClaim_sound {s : State} (hs : s.sound = true) (agent : ℕ) (code : ℕ) (arg : ℕ × ℕ)  :
    (State.cmdClaim s agent code arg).1.sound = true := by
  unfold State.cmdClaim; repeat' first | (simp +contextual (maxDischargeDepth := 40) [*]; done) | split | dsimp only | (refine State.forEach_sound ?_ _ _ (fun _ _ _ => ?_)) | (refine State.onlyIf_sound ?_ _ _ (fun _ _ => ?_))

@[simp] theorem State.cmdRelease_sound {s : State} (hs : s.sound = true) (agent : ℕ) (code : ℕ) (arg : ℕ × ℕ)  :
    (State.cmdRelease s agent code arg).1.sound = true := by
  unfold State.cmdRelease; repeat' first | (simp +contextual (maxDischargeDepth := 40) [*]; done) | split | dsimp only | (refine State.forEach_sound ?_ _ _ (fun _ _ _ => ?_)) | (refine State.onlyIf_sound ?_ _ _ (fun _ _ => ?_))

@[simp] theorem State.cmdQuery_sound {s : State} (hs : s.sound = true) (code : ℕ) (arg : ℕ × ℕ)  :
    (State.cmdQuery s code arg).1.sound = true := by
  unfold State.cmdQuery; simp +contextual (maxDischargeDepth := 40) [*]

@[simp] theorem State.writeWindow_sound {s : State} (hs : s.sound = true) (c : WCtx) (d : RegDesc) (w : ℕ)  :
    (State.writeWindow s c d w).1.sound = true := by
  unfold State.writeWindow; simp +contextual (maxDischargeDepth := 40) [*]

@[simp] theorem State.kickLease_sound {s : State} (hs : s.sound = true) (w : ℕ)  :
    (State.kickLease s w).sound = true := by
  unfold State.kickLease; simp +contextual (maxDischargeDepth := 40) [*]

@[simp] theorem State.writeLease_sound {s : State} (hs : s.sound = true) (c : WCtx) (d : RegDesc) (w : ℕ)  :
    (State.writeLease s c d w).1.sound = true := by
  unfold State.writeLease; simp +contextual (maxDischargeDepth := 40) [*]

@[simp] theorem State.writePeriod_sound {s : State} (hs : s.sound = true) (c : WCtx) (d : RegDesc) (w : ℕ)  :
    (State.writePeriod s c d w).1.sound = true := by
  unfold State.writePeriod; simp +contextual (maxDischargeDepth := 40) [*]

@[simp] theorem State.leaseRenew_sound {s : State} (hs : s.sound = true) (agent : ℕ)  :
    (State.leaseRenew s agent).sound = true := by
  unfold State.leaseRenew; simp +contextual (maxDischargeDepth := 40) [*]

@[simp] theorem State.ringStop_sound {s : State} (hs : s.sound = true) (r : ℕ)  :
    (State.ringStop s r).sound = true := by
  unfold State.ringStop; simp +contextual (maxDischargeDepth := 40) [*]

@[simp] theorem State.ringsStop_sound {s : State} (hs : s.sound = true) (rs : List ℕ)  :
    (State.ringsStop s rs).sound = true := by
  unfold State.ringsStop; simp +contextual (maxDischargeDepth := 40) [*]

@[simp] theorem State.orphanSafe_sound {s : State} (hs : s.sound = true) (a : ℕ)  :
    (State.orphanSafe s a).sound = true := by
  unfold State.orphanSafe; simp +contextual (maxDischargeDepth := 40) [*]

@[simp] theorem State.leaseExpire_sound {s : State} (hs : s.sound = true) (w : ℕ)  :
    (State.leaseExpire s w).sound = true := by
  unfold State.leaseExpire; simp +contextual (maxDischargeDepth := 40) [*]

theorem execLeaseExpiry_sound {s : State} (hs : s.sound = true) (w : ℕ)  :
    ∀ u, execLeaseExpiry w s = .next u → u.sound = true := by
  intro u ht; unfold execLeaseExpiry at ht
  refine guarded_sound (fun s hs => ?_) hs ht
  repeat' first | (simp +contextual (maxDischargeDepth := 40) [*]; done) | split | dsimp only | (refine State.forEach_sound ?_ _ _ (fun _ _ _ => ?_)) | (refine State.onlyIf_sound ?_ _ _ (fun _ _ => ?_))

end Sys2Proof.Machine
end

