-- ==== Sys2Proof/Laws/SoundRings.lean ====
section
/-! SUPPORT. The operations of Rings keep the form of a state. -/

namespace Sys2Proof.Machine

set_option linter.unusedTactic false
set_option linter.unreachableTactic false

@[simp] theorem State.writeRingCfg_sound {s : State} (hs : s.sound = true) (c : WCtx) (d : RegDesc) (r : ℕ)  :
    (State.writeRingCfg s c d r).1.sound = true := by
  unfold State.writeRingCfg; repeat' first | (simp +contextual (maxDischargeDepth := 40) [*]; done) | (rename_i he; have hu := State.takePlace_sound (by simp +contextual (maxDischargeDepth := 40) [*]) _ _ _ _ he; simp +contextual (maxDischargeDepth := 40) [*]; done) | split | dsimp only | (refine State.forEach_sound ?_ _ _ (fun _ _ _ => ?_)) | (refine State.onlyIf_sound ?_ _ _ (fun _ _ => ?_))

@[simp] theorem State.ringStart_sound {s : State} (hs : s.sound = true) (r : ℕ)  :
    (State.ringStart s r).sound = true := by
  unfold State.ringStart; simp +contextual (maxDischargeDepth := 40) [*]

@[simp] theorem State.ringRelease_sound {s : State} (hs : s.sound = true) (r : ℕ)  :
    (State.ringRelease s r).sound = true := by
  unfold State.ringRelease; simp +contextual (maxDischargeDepth := 40) [*]

@[simp] theorem State.writeRingCtrl_sound {s : State} (hs : s.sound = true) (c : WCtx) (d : RegDesc) (r : ℕ)  :
    (State.writeRingCtrl s c d r).1.sound = true := by
  unfold State.writeRingCtrl; repeat' first | (simp +contextual (maxDischargeDepth := 40) [*]; done) | split | dsimp only | (refine State.forEach_sound ?_ _ _ (fun _ _ _ => ?_)) | (refine State.onlyIf_sound ?_ _ _ (fun _ _ => ?_))

@[simp] theorem State.writeBell_sound {s : State} (hs : s.sound = true) (c : WCtx) (d : RegDesc) (r : ℕ)  :
    (State.writeBell s c d r).1.sound = true := by
  unfold State.writeBell; simp +contextual (maxDischargeDepth := 40) [*]

@[simp] theorem State.ethDmaFails_sound {s : State} (hs : s.sound = true) (p : ℕ) (rx : Bool)  :
    (State.ethDmaFails s p rx).sound = true := by
  unfold State.ethDmaFails; simp +contextual (maxDischargeDepth := 40) [*]

theorem execRingDmaError_sound {s : State} (hs : s.sound = true) (r : ℕ)  :
    ∀ u, execRingDmaError r s = .next u → u.sound = true := by
  intro u ht; unfold execRingDmaError at ht
  refine guarded_sound (fun s hs => ?_) hs ht
  repeat' first | (simp +contextual (maxDischargeDepth := 40) [*]; done) | split | dsimp only | (refine State.forEach_sound ?_ _ _ (fun _ _ _ => ?_)) | (refine State.onlyIf_sound ?_ _ _ (fun _ _ => ?_))

theorem execModTimeExpiry_sound {s : State} (hs : s.sound = true) (r : ℕ)  :
    ∀ u, execModTimeExpiry r s = .next u → u.sound = true := by
  intro u ht; unfold execModTimeExpiry at ht
  refine guarded_sound (fun s hs => ?_) hs ht
  repeat' first | (simp +contextual (maxDischargeDepth := 40) [*]; done) | split | dsimp only | (refine State.forEach_sound ?_ _ _ (fun _ _ _ => ?_)) | (refine State.onlyIf_sound ?_ _ _ (fun _ _ => ?_))

@[simp] theorem State.endpointDown_sound {s : State} (hs : s.sound = true)  :
    (State.endpointDown s).sound = true := by
  unfold State.endpointDown; simp +contextual (maxDischargeDepth := 40) [*]

theorem execPerstNAssert_sound {s : State} (hs : s.sound = true)  :
    ∀ u, execPerstNAssert s = .next u → u.sound = true := by
  intro u ht; unfold execPerstNAssert at ht
  refine guarded_sound (fun s hs => ?_) hs ht
  repeat' first | (simp +contextual (maxDischargeDepth := 40) [*]; done) | split | dsimp only | (refine State.forEach_sound ?_ _ _ (fun _ _ _ => ?_)) | (refine State.onlyIf_sound ?_ _ _ (fun _ _ => ?_))

@[simp] theorem State.maskVector_sound {s : State} (hs : s.sound = true) (v : ℕ) (masked : Bool)  :
    (State.maskVector s v masked).sound = true := by
  unfold State.maskVector; simp +contextual (maxDischargeDepth := 40) [*]

@[simp] theorem State.endpointPower_sound {s : State} (hs : s.sound = true) (d3hot : Bool)  :
    (State.endpointPower s d3hot).sound = true := by
  unfold State.endpointPower; simp +contextual (maxDischargeDepth := 40) [*]

theorem execD3hotEntry_sound {s : State} (hs : s.sound = true)  :
    ∀ u, execD3hotEntry s = .next u → u.sound = true := by
  intro u ht; unfold execD3hotEntry at ht
  refine guarded_sound (fun s hs => ?_) hs ht
  repeat' first | (simp +contextual (maxDischargeDepth := 40) [*]; done) | split | dsimp only | (refine State.forEach_sound ?_ _ _ (fun _ _ _ => ?_)) | (refine State.onlyIf_sound ?_ _ _ (fun _ _ => ?_))

@[simp] theorem State.configure_sound {s : State} (hs : s.sound = true) (r : ConfigReq)  :
    (State.configure s r).sound = true := by
  unfold State.configure; repeat' first | (simp +contextual (maxDischargeDepth := 40) [*]; done) | split | dsimp only | (refine State.forEach_sound ?_ _ _ (fun _ _ _ => ?_)) | (refine State.onlyIf_sound ?_ _ _ (fun _ _ => ?_))

theorem execConfigurationRequest_sound {s : State} (hs : s.sound = true) (tag : ConfigReq)  :
    ∀ u, execConfigurationRequest tag s = .next u → u.sound = true := by
  intro u ht; unfold execConfigurationRequest at ht
  refine guarded_sound (fun s hs => ?_) hs ht
  repeat' first | (simp +contextual (maxDischargeDepth := 40) [*]; done) | split | dsimp only | (refine State.forEach_sound ?_ _ _ (fun _ _ _ => ?_)) | (refine State.onlyIf_sound ?_ _ _ (fun _ _ => ?_))

end Sys2Proof.Machine
end

