-- ==== Sys2Proof/Laws/SoundPages.lean ====
section
/-! SUPPORT. The operations of Pages keep the form of a state. -/

namespace Sys2Proof.Machine

set_option linter.unusedTactic false
set_option linter.unreachableTactic false

@[simp] theorem State.keep_sound {s : State} (hs : s.sound = true) (r : State × Verdict) (hr : r.1.sound = true) :
    (State.keep s r).1.sound = true := by
  unfold State.keep; simp +contextual (maxDischargeDepth := 40) [*]

@[simp] theorem State.both_sound {s : State} (hs : s.sound = true) (r : State × Verdict) (f : State → State × Verdict) (hr : r.1.sound = true) (hf : ∀ s, s.sound = true → (f s).1.sound = true) :
    (State.both s r f).1.sound = true := by
  unfold State.both; simp +contextual (maxDischargeDepth := 40) [*]

@[simp] theorem State.asked_sound {s : State} (hs : s.sound = true) (b : Bool) (f : State → State × Verdict) (hf : ∀ s, s.sound = true → (f s).1.sound = true) :
    (State.asked s b f).1.sound = true := by
  unfold State.asked; simp +contextual (maxDischargeDepth := 40) [*]

@[simp] theorem State.sendNew_sound {s : State} {old : State} (hs : s.sound = true) (hold : old.sound = true) (v : ℕ)  :
    (State.sendNew s old v).sound = true := by
  unfold State.sendNew; simp +contextual (maxDischargeDepth := 40) [*]

@[simp] theorem State.errCleared_sound {s : State} {old : State} (hs : s.sound = true) (hold : old.sound = true) (p : ℕ) (v : ℕ)  :
    (State.errCleared s old p v).sound = true := by
  unfold State.errCleared; repeat' first | (simp +contextual (maxDischargeDepth := 40) [*]; done) | split | dsimp only | (refine State.forEach_sound ?_ _ _ (fun _ _ _ => ?_)) | (refine State.onlyIf_sound ?_ _ _ (fun _ _ => ?_))

@[simp] theorem State.chanEnable_sound {s : State} (hs : s.sound = true) (agent : ℕ) (c : ℕ) (on : Bool)  :
    (State.chanEnable s agent c on).1.sound = true := by
  unfold State.chanEnable; repeat' first | (simp +contextual (maxDischargeDepth := 40) [*]; done) | split | dsimp only | (refine State.forEach_sound ?_ _ _ (fun _ _ _ => ?_)) | (refine State.onlyIf_sound ?_ _ _ (fun _ _ => ?_))

@[simp] theorem State.phaseEnable_sound {s : State} (hs : s.sound = true) (t : ℕ) (on : Bool)  :
    (State.phaseEnable s t on).1.sound = true := by
  unfold State.phaseEnable; repeat' first | (simp +contextual (maxDischargeDepth := 40) [*]; done) | (rename_i he; have hu := State.takePlace_sound (by simp +contextual (maxDischargeDepth := 40) [*]) _ _ _ _ he; simp +contextual (maxDischargeDepth := 40) [*]; done) | split | dsimp only | (refine State.forEach_sound ?_ _ _ (fun _ _ _ => ?_)) | (refine State.onlyIf_sound ?_ _ _ (fun _ _ => ?_))

@[simp] theorem State.setEnable_sound {s : State} (hs : s.sound = true) (c : WCtx) (k : Kind) (on : Bool)  :
    (State.setEnable s c k on).1.sound = true := by
  unfold State.setEnable; repeat' first | (simp +contextual (maxDischargeDepth := 40) [*]; done) | split | dsimp only | (refine State.forEach_sound ?_ _ _ (fun _ _ _ => ?_)) | (refine State.onlyIf_sound ?_ _ _ (fun _ _ => ?_))

@[simp] theorem State.safeExit_sound {s : State} (hs : s.sound = true) (c : WCtx) (k : Kind)  :
    (State.safeExit s c k).1.sound = true := by
  unfold State.safeExit; repeat' first | (simp +contextual (maxDischargeDepth := 40) [*]; done) | split | dsimp only | (refine State.forEach_sound ?_ _ _ (fun _ _ _ => ?_)) | (refine State.onlyIf_sound ?_ _ _ (fun _ _ => ?_))

@[simp] theorem State.controlBit_sound {s : State} (hs : s.sound = true) (c : WCtx) (k : Kind)  :
    (State.controlBit s c k).1.sound = true := by
  unfold State.controlBit; repeat' first | (simp +contextual (maxDischargeDepth := 40) [*]; done) | split | dsimp only | (refine State.forEach_sound ?_ _ _ (fun _ _ _ => ?_)) | (refine State.onlyIf_sound ?_ _ _ (fun _ _ => ?_))

@[simp] theorem State.writeControl_sound {s : State} (hs : s.sound = true) (c : WCtx) (k : Kind)  :
    (State.writeControl s c k).1.sound = true := by
  unfold State.writeControl; simp +contextual (maxDischargeDepth := 40) [*]

@[simp] theorem State.writeHeader_sound {s : State} (hs : s.sound = true) (c : WCtx) (k : Kind) (d : RegDesc)  :
    (State.writeHeader s c k d).1.sound = true := by
  unfold State.writeHeader; simp +contextual (maxDischargeDepth := 40) [*]

end Sys2Proof.Machine
end

