-- ==== Sys2Proof/Laws/SoundBodies.lean ====
section
/-! SUPPORT. The operations of Bodies keep the form of a state. -/

namespace Sys2Proof.Machine

set_option linter.unusedTactic false
set_option linter.unreachableTactic false

@[simp] theorem State.thaw_sound {s : State} (hs : s.sound = true)  :
    (State.thaw s).sound = true := by
  unfold State.thaw; simp +contextual (maxDischargeDepth := 40) [*]

@[simp] theorem State.writeSnap_sound {s : State} (hs : s.sound = true) (c : WCtx) (d : RegDesc)  :
    (State.writeSnap s c d).1.sound = true := by
  unfold State.writeSnap; simp +contextual (maxDischargeDepth := 40) [*]

@[simp] theorem State.writeDev_sound {s : State} (hs : s.sound = true) (c : WCtx) (d : RegDesc)  :
    (State.writeDev s c d).1.sound = true := by
  unfold State.writeDev; repeat' first | (simp +contextual (maxDischargeDepth := 40) [*]; done) | (rename_i he; have hu := State.store_sound hs _ _ he; simp +contextual (maxDischargeDepth := 40) [*]; done) | split | dsimp only | (refine State.forEach_sound ?_ _ _ (fun _ _ _ => ?_)) | (refine State.onlyIf_sound ?_ _ _ (fun _ _ => ?_))

@[simp] theorem State.claimCmd_sound {s : State} (hs : s.sound = true) (c : WCtx) (force : State → ℕ → State) (hforce : ∀ s a, s.sound = true → (force s a).sound = true) :
    (State.claimCmd s c force).1.sound = true := by
  unfold State.claimCmd; repeat' first | (simp +contextual (maxDischargeDepth := 40) [*]; done) | split | dsimp only | (refine State.forEach_sound ?_ _ _ (fun _ _ _ => ?_)) | (refine State.onlyIf_sound ?_ _ _ (fun _ _ => ?_))

@[simp] theorem State.writeOwn_sound {s : State} (hs : s.sound = true) (c : WCtx) (d : RegDesc) (j : ℕ) (force : State → ℕ → State) (hforce : ∀ s a, s.sound = true → (force s a).sound = true) :
    (State.writeOwn s c d j force).1.sound = true := by
  unfold State.writeOwn; simp +contextual (maxDischargeDepth := 40) [*]

@[simp] theorem State.writeCal_sound {s : State} (hs : s.sound = true) (c : WCtx) (d : RegDesc)  :
    (State.writeCal s c d).1.sound = true := by
  unfold State.writeCal; simp +contextual (maxDischargeDepth := 40) [*]

@[simp] theorem State.writeChan_sound {s : State} (hs : s.sound = true) (c : WCtx) (d : RegDesc)  :
    (State.writeChan s c d).1.sound = true := by
  unfold State.writeChan; simp +contextual (maxDischargeDepth := 40) [*]

@[simp] theorem State.writePhase_sound {s : State} (hs : s.sound = true) (c : WCtx) (d : RegDesc)  :
    (State.writePhase s c d).1.sound = true := by
  unfold State.writePhase; simp +contextual (maxDischargeDepth := 40) [*]

@[simp] theorem State.writeSrc_sound {s : State} (hs : s.sound = true) (c : WCtx) (d : RegDesc) (n : ℕ)  :
    (State.writeSrc s c d n).1.sound = true := by
  unfold State.writeSrc; repeat' first | (simp +contextual (maxDischargeDepth := 40) [*]; done) | (rename_i he; have hu := State.takePlace_sound (by simp +contextual (maxDischargeDepth := 40) [*]) _ _ _ _ he; simp +contextual (maxDischargeDepth := 40) [*]; done) | split | dsimp only | (refine State.forEach_sound ?_ _ _ (fun _ _ _ => ?_)) | (refine State.onlyIf_sound ?_ _ _ (fun _ _ => ?_))

@[simp] theorem State.writeTrig_sound {s : State} (hs : s.sound = true) (c : WCtx) (d : RegDesc) (j : ℕ)  :
    (State.writeTrig s c d j).1.sound = true := by
  unfold State.writeTrig; simp +contextual (maxDischargeDepth := 40) [*]

@[simp] theorem State.writeSync_sound {s : State} (hs : s.sound = true) (c : WCtx) (d : RegDesc)  :
    (State.writeSync s c d).1.sound = true := by
  unfold State.writeSync; simp +contextual (maxDischargeDepth := 40) [*]

@[simp] theorem State.writeMask_sound {s : State} (hs : s.sound = true) (c : WCtx) (d : RegDesc)  :
    (State.writeMask s c d).1.sound = true := by
  unfold State.writeMask; repeat' first | (simp +contextual (maxDischargeDepth := 40) [*]; done) | split | dsimp only | (refine State.forEach_sound ?_ _ _ (fun _ _ _ => ?_)) | (refine State.onlyIf_sound ?_ _ _ (fun _ _ => ?_))

@[simp] theorem State.writeSeq_sound {s : State} (hs : s.sound = true) (c : WCtx) (d : RegDesc)  :
    (State.writeSeq s c d).1.sound = true := by
  unfold State.writeSeq; simp +contextual (maxDischargeDepth := 40) [*]

@[simp] theorem State.writeCourse_sound {s : State} (hs : s.sound = true) (c : WCtx) (d : RegDesc)  :
    (State.writeCourse s c d).1.sound = true := by
  unfold State.writeCourse; simp +contextual (maxDischargeDepth := 40) [*]

@[simp] theorem State.writeQueue_sound {s : State} (hs : s.sound = true) (c : WCtx) (d : RegDesc) (q : ℕ)  :
    (State.writeQueue s c d q).1.sound = true := by
  unfold State.writeQueue; simp +contextual (maxDischargeDepth := 40) [*]

@[simp] theorem State.writeTick_sound {s : State} (hs : s.sound = true) (c : WCtx) (d : RegDesc) (n : ℕ)  :
    (State.writeTick s c d n).1.sound = true := by
  unfold State.writeTick; simp +contextual (maxDischargeDepth := 40) [*]

@[simp] theorem State.submitCmd_sound {s : State} (hs : s.sound = true) (c : WCtx)  :
    (State.submitCmd s c).1.sound = true := by
  unfold State.submitCmd; repeat' first | (simp +contextual (maxDischargeDepth := 40) [*]; done) | split | dsimp only | (refine State.forEach_sound ?_ _ _ (fun _ _ _ => ?_)) | (refine State.onlyIf_sound ?_ _ _ (fun _ _ => ?_))

@[simp] theorem State.writeSched_sound {s : State} (hs : s.sound = true) (c : WCtx) (d : RegDesc) (j : ℕ)  :
    (State.writeSched s c d j).1.sound = true := by
  unfold State.writeSched; simp +contextual (maxDischargeDepth := 40) [*]

@[simp] theorem State.writeTdc_sound {s : State} (hs : s.sound = true) (c : WCtx) (d : RegDesc) (j : ℕ)  :
    (State.writeTdc s c d j).1.sound = true := by
  unfold State.writeTdc; simp +contextual (maxDischargeDepth := 40) [*]

@[simp] theorem State.writeRef_sound {s : State} (hs : s.sound = true) (c : WCtx) (d : RegDesc) (k : ℕ)  :
    (State.writeRef s c d k).1.sound = true := by
  unfold State.writeRef; simp +contextual (maxDischargeDepth := 40) [*]

@[simp] theorem State.writeRefsel_sound {s : State} (hs : s.sound = true) (c : WCtx) (d : RegDesc) (j : ℕ)  :
    (State.writeRefsel s c d j).1.sound = true := by
  unfold State.writeRefsel; simp +contextual (maxDischargeDepth := 40) [*]

@[simp] theorem State.writeServo_sound {s : State} (hs : s.sound = true) (c : WCtx) (d : RegDesc)  :
    (State.writeServo s c d).1.sound = true := by
  unfold State.writeServo; simp +contextual (maxDischargeDepth := 40) [*]

@[simp] theorem State.writeApllA_sound {s : State} (hs : s.sound = true) (c : WCtx) (d : RegDesc)  :
    (State.writeApllA s c d).1.sound = true := by
  unfold State.writeApllA; simp +contextual (maxDischargeDepth := 40) [*]

@[simp] theorem State.writeAux_sound {s : State} (hs : s.sound = true) (c : WCtx) (d : RegDesc)  :
    (State.writeAux s c d).1.sound = true := by
  unfold State.writeAux; simp +contextual (maxDischargeDepth := 40) [*]

@[simp] theorem State.writeTsc_sound {s : State} (hs : s.sound = true) (c : WCtx) (d : RegDesc)  :
    (State.writeTsc s c d).1.sound = true := by
  unfold State.writeTsc; repeat' first | (simp +contextual (maxDischargeDepth := 40) [*]; done) | split | dsimp only | (refine State.forEach_sound ?_ _ _ (fun _ _ _ => ?_)) | (refine State.onlyIf_sound ?_ _ _ (fun _ _ => ?_))

@[simp] theorem State.writeDomain_sound {s : State} (hs : s.sound = true) (c : WCtx) (d : RegDesc)  :
    (State.writeDomain s c d).1.sound = true := by
  unfold State.writeDomain; simp +contextual (maxDischargeDepth := 40) [*]

@[simp] theorem State.writeEave_sound {s : State} (hs : s.sound = true) (c : WCtx) (d : RegDesc)  :
    (State.writeEave s c d).1.sound = true := by
  unfold State.writeEave; repeat' first | (simp +contextual (maxDischargeDepth := 40) [*]; done) | split | dsimp only | (refine State.forEach_sound ?_ _ _ (fun _ _ _ => ?_)) | (refine State.onlyIf_sound ?_ _ _ (fun _ _ => ?_))

@[simp] theorem State.writeGutter_sound {s : State} (hs : s.sound = true) (c : WCtx) (d : RegDesc) (j : ℕ)  :
    (State.writeGutter s c d j).1.sound = true := by
  unfold State.writeGutter; simp +contextual (maxDischargeDepth := 40) [*]

@[simp] theorem State.freeList_sound {s : State} (hs : s.sound = true) (n : ℕ)  :
    (State.freeList s n).2.sound = true := by
  unfold State.freeList; simp +contextual (maxDischargeDepth := 40) [*]

@[simp] theorem State.writeFlash_sound {s : State} (hs : s.sound = true) (c : WCtx) (d : RegDesc) (bytes : Option (List ℕ)) (v : Option VerifyResult)  :
    (State.writeFlash s c d bytes v).1.sound = true := by
  unfold State.writeFlash; repeat' first | (simp +contextual (maxDischargeDepth := 40) [*]; done) | (rename_i he; have hu := State.store_sound hs _ _ he; simp +contextual (maxDischargeDepth := 40) [*]; done) | split | dsimp only | (refine State.forEach_sound ?_ _ _ (fun _ _ _ => ?_)) | (refine State.onlyIf_sound ?_ _ _ (fun _ _ => ?_))

@[simp] theorem State.writeHostq_sound {s : State} (hs : s.sound = true) (c : WCtx) (d : RegDesc) (r : ℕ)  :
    (State.writeHostq s c d r).1.sound = true := by
  unfold State.writeHostq; simp +contextual (maxDischargeDepth := 40) [*]

@[simp] theorem State.writeRdg_sound {s : State} (hs : s.sound = true) (c : WCtx) (d : RegDesc)  :
    (State.writeRdg s c d).1.sound = true := by
  unfold State.writeRdg; simp +contextual (maxDischargeDepth := 40) [*]

@[simp] theorem State.writeEth_sound {s : State} (hs : s.sound = true) (c : WCtx) (d : RegDesc)  :
    (State.writeEth s c d).1.sound = true := by
  unfold State.writeEth; simp +contextual (maxDischargeDepth := 40) [*]

@[simp] theorem State.writeXo_sound {s : State} (hs : s.sound = true) (c : WCtx) (d : RegDesc)  :
    (State.writeXo s c d).1.sound = true := by
  unfold State.writeXo; simp +contextual (maxDischargeDepth := 40) [*]

@[simp] theorem Extra.force_sound {x1 : State} (hx1 : x1.sound = true) (self : Extra) (x2 : ℕ) (hself : ∀ s a, s.sound = true → (self.force s a).sound = true) :
    (Extra.force self x1 x2).sound = true := by
  unfold Extra.force; simp +contextual (maxDischargeDepth := 40) [*]

@[simp] theorem State.writeBody_sound {s : State} (hs : s.sound = true) (c : WCtx) (k : Kind) (d : RegDesc) (j : ℕ) (x : Extra) (hx : ∀ s a, s.sound = true → (x.force s a).sound = true) :
    (State.writeBody s c k d j x).1.sound = true := by
  unfold State.writeBody; repeat' first | (simp +contextual (maxDischargeDepth := 40) [*]; done) | split | dsimp only | (refine State.forEach_sound ?_ _ _ (fun _ _ _ => ?_)) | (refine State.onlyIf_sound ?_ _ _ (fun _ _ => ?_))

@[simp] theorem State.writeReg_sound {s : State} (hs : s.sound = true) (c : WCtx) (k : Kind) (d : RegDesc) (j : ℕ) (x : Extra) (hx : ∀ s a, s.sound = true → (x.force s a).sound = true) :
    (State.writeReg s c k d j x).1.sound = true := by
  unfold State.writeReg; simp +contextual (maxDischargeDepth := 40) [*]

end Sys2Proof.Machine
end

