-- ==== Sys2Proof/Laws/SoundRelease.lean ====
section
/-! SUPPORT. The operations of Release keep the form of a state. -/

namespace Sys2Proof.Machine

set_option linter.unusedTactic false
set_option linter.unreachableTactic false

@[simp] theorem State.resetReg_sound {s : State} (hs : s.sound = true) (p : ℕ) (d : RegDesc) (j : ℕ)  :
    (State.resetReg s p d j).sound = true := by
  unfold State.resetReg; simp +contextual (maxDischargeDepth := 40) [*]

@[simp] theorem State.resetRegs_sound {s : State} (hs : s.sound = true) (p : ℕ) (sel : ℕ → ℕ → Bool)  :
    (State.resetRegs s p sel).sound = true := by
  unfold State.resetRegs; repeat' first | (simp +contextual (maxDischargeDepth := 40) [*]; done) | split | dsimp only | (refine State.forEach_sound ?_ _ _ (fun _ _ _ => ?_)) | (refine State.onlyIf_sound ?_ _ _ (fun _ _ => ?_))

@[simp] theorem State.seqForced_sound {s : State} (hs : s.sound = true) (q : ℕ)  :
    (State.seqForced s q).sound = true := by
  unfold State.seqForced; simp +contextual (maxDischargeDepth := 40) [*]

@[simp] theorem State.measForced_sound {s : State} (hs : s.sound = true)  :
    (State.measForced s).sound = true := by
  unfold State.measForced; simp +contextual (maxDischargeDepth := 40) [*]

@[simp] theorem State.pageForced_sound {s : State} (hs : s.sound = true) (agent : ℕ) (p : ℕ)  :
    (State.pageForced s agent p).sound = true := by
  unfold State.pageForced; repeat' first | (simp +contextual (maxDischargeDepth := 40) [*]; done) | split | dsimp only | (refine State.forEach_sound ?_ _ _ (fun _ _ _ => ?_)) | (refine State.onlyIf_sound ?_ _ _ (fun _ _ => ?_))

@[simp] theorem State.dropWrites_sound {s : State} (hs : s.sound = true) (p : ℕ) (lane : ℕ)  :
    (State.dropWrites s p lane).sound = true := by
  unfold State.dropWrites; simp +contextual (maxDischargeDepth := 40) [*]

@[simp] theorem State.pageReset_sound {s : State} (hs : s.sound = true) (agent : ℕ) (p : ℕ)  :
    (State.pageReset s agent p).sound = true := by
  unfold State.pageReset; repeat' first | (simp +contextual (maxDischargeDepth := 40) [*]; done) | split | dsimp only | (refine State.forEach_sound ?_ _ _ (fun _ _ _ => ?_)) | (refine State.onlyIf_sound ?_ _ _ (fun _ _ => ?_))

@[simp] theorem State.lineReset_sound {s : State} (hs : s.sound = true) (n : ℕ)  :
    (State.lineReset s n).sound = true := by
  unfold State.lineReset; simp +contextual (maxDischargeDepth := 40) [*]

@[simp] theorem State.tickReset_sound {s : State} (hs : s.sound = true) (n : ℕ)  :
    (State.tickReset s n).sound = true := by
  unfold State.tickReset; simp +contextual (maxDischargeDepth := 40) [*]

@[simp] theorem State.chanReset_sound {s : State} (hs : s.sound = true) (c : ℕ)  :
    (State.chanReset s c).sound = true := by
  unfold State.chanReset; simp +contextual (maxDischargeDepth := 40) [*]

@[simp] theorem State.chanForced_sound {s : State} (hs : s.sound = true) (c : ℕ)  :
    (State.chanForced s c).sound = true := by
  unfold State.chanForced; simp +contextual (maxDischargeDepth := 40) [*]

@[simp] theorem State.ringReset_sound {s : State} (hs : s.sound = true) (r : ℕ)  :
    (State.ringReset s r).sound = true := by
  unfold State.ringReset; simp +contextual (maxDischargeDepth := 40) [*]

@[simp] theorem State.queueReset_sound {s : State} (hs : s.sound = true) (q : ℕ)  :
    (State.queueReset s q).sound = true := by
  unfold State.queueReset; simp +contextual (maxDischargeDepth := 40) [*]

@[simp] theorem State.forceRelease_sound {s : State} (hs : s.sound = true) (a : ℕ)  :
    (State.forceRelease s a).sound = true := by
  unfold State.forceRelease; simp +contextual (maxDischargeDepth := 40) [*]

end Sys2Proof.Machine
end

