-- ==== Sys2Proof/Laws/SoundHost.lean ====
section
/-! SUPPORT. The operations of Host keep the form of a state. -/

namespace Sys2Proof.Machine

set_option linter.unusedTactic false
set_option linter.unreachableTactic false

@[simp] theorem State.writeWord_sound {s : State} (hs : s.sound = true) (path : Path) (page : ℕ) (off : ℕ) (v : ℕ) (k : Kind) (i : ℕ) (d : RegDesc) (j : ℕ) (w : ℕ) (x : Extra) (hx : ∀ s a, s.sound = true → (x.force s a).sound = true) :
    (State.writeWord s path page off v k i d j w x).1.sound = true := by
  unfold State.writeWord; repeat' first | (simp +contextual (maxDischargeDepth := 40) [*]; done) | split | dsimp only | (refine State.forEach_sound ?_ _ _ (fun _ _ _ => ?_)) | (refine State.onlyIf_sound ?_ _ _ (fun _ _ => ?_))

@[simp] theorem State.judge__sound {s : State} (hs : s.sound = true) (path : Path) (page : ℕ) (off : ℕ) (v : ℕ) (x : Extra) (hx : ∀ s a, s.sound = true → (x.force s a).sound = true) :
    (State.judge_ s path page off v x).1.sound = true := by
  unfold State.judge_; repeat' first | (simp +contextual (maxDischargeDepth := 40) [*]; done) | split | dsimp only | (refine State.forEach_sound ?_ _ _ (fun _ _ _ => ?_)) | (refine State.onlyIf_sound ?_ _ _ (fun _ _ => ?_))

@[simp] theorem State.noteAt_sound {s : State} (hs : s.sound = true) (path : Path) (page : ℕ) (off : ℕ) (v : ℕ)  :
    (State.noteAt s path page off v).sound = true := by
  unfold State.noteAt; repeat' first | (simp +contextual (maxDischargeDepth := 40) [*]; done) | split | dsimp only | (refine State.forEach_sound ?_ _ _ (fun _ _ _ => ?_)) | (refine State.onlyIf_sound ?_ _ _ (fun _ _ => ?_))

@[simp] theorem State.hostWrite__sound {s : State} (hs : s.sound = true) (path : Path) (page : ℕ) (off : ℕ) (v : ℕ) (x : Extra) (hx : ∀ s a, s.sound = true → (x.force s a).sound = true) :
    (State.hostWrite_ s path page off v x).1.sound = true := by
  unfold State.hostWrite_; simp +contextual (maxDischargeDepth := 40) [*]

@[simp] theorem State.hostWrite_sound {s : State} (hs : s.sound = true) (path : Path) (page : ℕ) (off : ℕ) (v : ℕ)  :
    (State.hostWrite s path page off v).1.sound = true := by
  unfold State.hostWrite; simp +contextual (maxDischargeDepth := 40) [*]

@[simp] theorem State.wrote_sound {s : State} (hs : s.sound = true) (path : Path) (page : ℕ) (off : ℕ) (v : ℕ)  :
    (State.wrote s path page off v).sound = true := by
  unfold State.wrote; simp +contextual (maxDischargeDepth := 40) [*]

@[simp] theorem State.hostRead_sound {s : State} (hs : s.sound = true) (path : Path) (page : ℕ) (off : ℕ)  :
    (State.hostRead s path page off).2.sound = true := by
  unfold State.hostRead; repeat' first | (simp +contextual (maxDischargeDepth := 40) [*]; done) | split | dsimp only | (refine State.forEach_sound ?_ _ _ (fun _ _ _ => ?_)) | (refine State.onlyIf_sound ?_ _ _ (fun _ _ => ?_))

@[simp] theorem State.readWords_sound {s : State} (hs : s.sound = true) (path : Path) (page : Nat) (l : List Nat) :
    (s.readWords path page l).2.sound = true := by
  induction l generalizing s with
  | nil => exact hs
  | cons o l ih => exact ih (State.hostRead_sound hs _ _ _)

@[simp] theorem State.writeWords_sound {s : State} (hs : s.sound = true) (path : Path) (page : Nat) (l : List (Nat × Nat)) :
    (s.writeWords path page l).1.sound = true := by
  induction l generalizing s with
  | nil => exact hs
  | cons e l ih =>
    have h1 := State.hostWrite_sound hs path page e.1 e.2
    have h2 := ih h1
    unfold State.writeWords
    dsimp only
    (repeat' split) <;> assumption

@[simp] theorem State.badAccess_sound {s : State} (hs : s.sound = true) (addr : ℕ) (size : ℕ) (isRead : Bool)  :
    (State.badAccess s addr size isRead).sound = true := by
  unfold State.badAccess; simp +contextual (maxDischargeDepth := 40) [*]

@[simp] theorem State.spiWrite_sound {s : State} (hs : s.sound = true) (addr : ℕ) (data : List ℕ)  :
    (State.spiWrite s addr data).sound = true := by
  unfold State.spiWrite; simp +contextual (maxDischargeDepth := 40) [*]

@[simp] theorem State.spiRead_sound {s : State} (hs : s.sound = true) (addr : ℕ) (n : ℕ)  :
    (State.spiRead s addr n).2.sound = true := by
  unfold State.spiRead
  refine foldl_keeps (fun a : List Nat × State => a.2.sound = true) _ (fun a k h => ?_) _ _ hs
  repeat' first | (simp +contextual (maxDischargeDepth := 40) [*]; done) | split | dsimp only

@[simp] theorem State.spi_sound {s : State} (hs : s.sound = true) (cmd : ℕ) (addr : ℕ) (data : List ℕ) (nread : ℕ)  :
    (State.spi s cmd addr data nread).sound = true := by
  unfold State.spi; simp +contextual (maxDischargeDepth := 40) [*]

@[simp] theorem State.i2c_sound {s : State} (hs : s.sound = true) (off : ℕ) (data : List ℕ) (nread : ℕ)  :
    (State.i2c s off data nread).sound = true := by
  unfold State.i2c; simp +contextual (maxDischargeDepth := 40) [*]

@[simp] theorem State.complete_sound {s : State} (hs : s.sound = true) (r : ℕ) (tag : ℕ) (op : ℕ) (off : ℕ) (data : ℕ) (v : Verdict)  :
    (State.complete s r tag op off data v).sound = true := by
  unfold State.complete; simp +contextual (maxDischargeDepth := 40) [*]

@[simp] theorem State.commandRun_sound {s : State} (hs : s.sound = true) (r : ℕ) (tag : ℕ) (op : ℕ) (off : ℕ) (f : State → State × ℕ × Verdict) (hf : ∀ s, s.sound = true → (f s).1.sound = true) :
    (State.commandRun s r tag op off f).sound = true := by
  unfold State.commandRun; simp +contextual (maxDischargeDepth := 40) [*]

end Sys2Proof.Machine
end

