-- ==== Sys2Proof/Laws/SoundRows.lean ====
section
/-! SUPPORT. The operations of Rows keep the form of a state. -/

namespace Sys2Proof.Machine

set_option linter.unusedTactic false
set_option linter.unreachableTactic false

theorem execRegisterWrite_sound {s : State} (hs : s.sound = true) (path : Path) (page : ℕ) (off : ℕ) (v : ℕ)  :
    ∀ u, execRegisterWrite path page off v s = .next u → u.sound = true := by
  intro u ht; unfold execRegisterWrite at ht
  refine guarded_sound (fun s hs => ?_) hs ht
  repeat' first | (simp +contextual (maxDischargeDepth := 40) [*]; done) | split | dsimp only | (refine State.forEach_sound ?_ _ _ (fun _ _ _ => ?_)) | (refine State.onlyIf_sound ?_ _ _ (fun _ _ => ?_))

theorem execStagedWordWrite_sound {s : State} (hs : s.sound = true) (path : Path) (page : ℕ) (off : ℕ) (v : ℕ)  :
    ∀ u, execStagedWordWrite path page off v s = .next u → u.sound = true := by
  intro u ht; unfold execStagedWordWrite at ht
  refine guarded_sound (fun s hs => ?_) hs ht
  repeat' first | (simp +contextual (maxDischargeDepth := 40) [*]; done) | split | dsimp only | (refine State.forEach_sound ?_ _ _ (fun _ _ _ => ?_)) | (refine State.onlyIf_sound ?_ _ _ (fun _ _ => ?_))

theorem execLatchingRead_sound {s : State} (hs : s.sound = true) (path : Path) (page : ℕ) (off : ℕ)  :
    ∀ u, execLatchingRead path page off s = .next u → u.sound = true := by
  intro u ht; unfold execLatchingRead at ht
  refine guarded_sound (fun s hs => ?_) hs ht
  repeat' first | (simp +contextual (maxDischargeDepth := 40) [*]; done) | split | dsimp only | (refine State.forEach_sound ?_ _ _ (fun _ _ _ => ?_)) | (refine State.onlyIf_sound ?_ _ _ (fun _ _ => ?_))

theorem execBadAccess_sound {s : State} (hs : s.sound = true) (addr : ℕ) (size : ℕ) (isRead : Bool)  :
    ∀ u, execBadAccess addr size isRead s = .next u → u.sound = true := by
  intro u ht; unfold execBadAccess at ht
  refine guarded_sound (fun s hs => ?_) hs ht
  repeat' first | (simp +contextual (maxDischargeDepth := 40) [*]; done) | split | dsimp only | (refine State.forEach_sound ?_ _ _ (fun _ _ _ => ?_)) | (refine State.onlyIf_sound ?_ _ _ (fun _ _ => ?_))

theorem execBar2Write_sound {s : State} (hs : s.sound = true) (off : ℕ) (bytes : List ℕ)  :
    ∀ u, execBar2Write off bytes s = .next u → u.sound = true := by
  intro u ht; unfold execBar2Write at ht
  refine guarded_sound (fun s hs => ?_) hs ht
  repeat' first | (simp +contextual (maxDischargeDepth := 40) [*]; done) | split | dsimp only | (refine State.forEach_sound ?_ _ _ (fun _ _ _ => ?_)) | (refine State.onlyIf_sound ?_ _ _ (fun _ _ => ?_))

theorem execSpiTransaction_sound {s : State} (hs : s.sound = true) (cmd : ℕ) (addr : ℕ) (data : List ℕ) (nread : ℕ)  :
    ∀ u, execSpiTransaction cmd addr data nread s = .next u → u.sound = true := by
  intro u ht; unfold execSpiTransaction at ht
  refine guarded_sound (fun s hs => ?_) hs ht
  repeat' first | (simp +contextual (maxDischargeDepth := 40) [*]; done) | split | dsimp only | (refine State.forEach_sound ?_ _ _ (fun _ _ _ => ?_)) | (refine State.onlyIf_sound ?_ _ _ (fun _ _ => ?_))

theorem execI2cTransaction_sound {s : State} (hs : s.sound = true) (off : ℕ) (data : List ℕ) (nread : ℕ)  :
    ∀ u, execI2cTransaction off data nread s = .next u → u.sound = true := by
  intro u ht; unfold execI2cTransaction at ht
  refine guarded_sound (fun s hs => ?_) hs ht
  repeat' first | (simp +contextual (maxDischargeDepth := 40) [*]; done) | split | dsimp only | (refine State.forEach_sound ?_ _ _ (fun _ _ _ => ?_)) | (refine State.onlyIf_sound ?_ _ _ (fun _ _ => ?_))

theorem execCommandWrite32_sound {s : State} (hs : s.sound = true) (r : ℕ) (tag : ℕ) (page : ℕ) (off : ℕ) (v : ℕ)  :
    ∀ u, execCommandWrite32 r tag page off v s = .next u → u.sound = true := by
  intro u ht; unfold execCommandWrite32 at ht
  refine guarded_sound (fun s hs => ?_) hs ht
  repeat' first | (simp +contextual (maxDischargeDepth := 40) [*]; done) | split | dsimp only | (refine State.forEach_sound ?_ _ _ (fun _ _ _ => ?_)) | (refine State.onlyIf_sound ?_ _ _ (fun _ _ => ?_))

theorem execCommandRead32_sound {s : State} (hs : s.sound = true) (r : ℕ) (tag : ℕ) (page : ℕ) (off : ℕ)  :
    ∀ u, execCommandRead32 r tag page off s = .next u → u.sound = true := by
  intro u ht; unfold execCommandRead32 at ht
  refine guarded_sound (fun s hs => ?_) hs ht
  repeat' first | (simp +contextual (maxDischargeDepth := 40) [*]; done) | split | dsimp only | (refine State.forEach_sound ?_ _ _ (fun _ _ _ => ?_)) | (refine State.onlyIf_sound ?_ _ _ (fun _ _ => ?_))

theorem execCommandWrite128_sound {s : State} (hs : s.sound = true) (r : ℕ) (tag : ℕ) (page : ℕ) (off : ℕ) (v : ℕ)  :
    ∀ u, execCommandWrite128 r tag page off v s = .next u → u.sound = true := by
  intro u ht; unfold execCommandWrite128 at ht
  refine guarded_sound (fun s hs => ?_) hs ht
  repeat' first | (simp +contextual (maxDischargeDepth := 40) [*]; done) | split | dsimp only | (refine State.forEach_sound ?_ _ _ (fun _ _ _ => ?_)) | (refine State.onlyIf_sound ?_ _ _ (fun _ _ => ?_))

theorem execCommandRead128_sound {s : State} (hs : s.sound = true) (r : ℕ) (tag : ℕ) (page : ℕ) (off : ℕ)  :
    ∀ u, execCommandRead128 r tag page off s = .next u → u.sound = true := by
  intro u ht; unfold execCommandRead128 at ht
  refine guarded_sound (fun s hs => ?_) hs ht
  repeat' first | (simp +contextual (maxDischargeDepth := 40) [*]; done) | split | dsimp only | (refine State.forEach_sound ?_ _ _ (fun _ _ _ => ?_)) | (refine State.onlyIf_sound ?_ _ _ (fun _ _ => ?_))

theorem execFence_sound {s : State} (hs : s.sound = true) (r : ℕ) (tag : ℕ)  :
    ∀ u, execFence r tag s = .next u → u.sound = true := by
  intro u ht; unfold execFence at ht
  refine guarded_sound (fun s hs => ?_) hs ht
  repeat' first | (simp +contextual (maxDischargeDepth := 40) [*]; done) | split | dsimp only | (refine State.forEach_sound ?_ _ _ (fun _ _ _ => ?_)) | (refine State.onlyIf_sound ?_ _ _ (fun _ _ => ?_))

theorem execLeaseKick_sound {s : State} (hs : s.sound = true) (r : ℕ) (tag : ℕ)  :
    ∀ u, execLeaseKick r tag s = .next u → u.sound = true := by
  intro u ht; unfold execLeaseKick at ht
  refine guarded_sound (fun s hs => ?_) hs ht
  repeat' first | (simp +contextual (maxDischargeDepth := 40) [*]; done) | split | dsimp only | (refine State.forEach_sound ?_ _ _ (fun _ _ _ => ?_)) | (refine State.onlyIf_sound ?_ _ _ (fun _ _ => ?_))

theorem execCommandNop_sound {s : State} (hs : s.sound = true) (r : ℕ) (tag : ℕ)  :
    ∀ u, execCommandNop r tag s = .next u → u.sound = true := by
  intro u ht; unfold execCommandNop at ht
  refine guarded_sound (fun s hs => ?_) hs ht
  repeat' first | (simp +contextual (maxDischargeDepth := 40) [*]; done) | split | dsimp only | (refine State.forEach_sound ?_ _ _ (fun _ _ _ => ?_)) | (refine State.onlyIf_sound ?_ _ _ (fun _ _ => ?_))

theorem execGo_sound {s : State} (hs : s.sound = true) (path : Path) (page : ℕ) (lane : ℕ) (v : ℕ)  :
    ∀ u, execGo path page lane v s = .next u → u.sound = true := by
  intro u ht; unfold execGo at ht
  refine guarded_sound (fun s hs => ?_) hs ht
  repeat' first | (simp +contextual (maxDischargeDepth := 40) [*]; done) | split | dsimp only | (refine State.forEach_sound ?_ _ _ (fun _ _ _ => ?_)) | (refine State.onlyIf_sound ?_ _ _ (fun _ _ => ?_))

theorem execCommitAbort_sound {s : State} (hs : s.sound = true) (path : Path) (page : ℕ) (lane : ℕ) (v : ℕ)  :
    ∀ u, execCommitAbort path page lane v s = .next u → u.sound = true := by
  intro u ht; unfold execCommitAbort at ht
  refine guarded_sound (fun s hs => ?_) hs ht
  repeat' first | (simp +contextual (maxDischargeDepth := 40) [*]; done) | split | dsimp only | (refine State.forEach_sound ?_ _ _ (fun _ _ _ => ?_)) | (refine State.onlyIf_sound ?_ _ _ (fun _ _ => ?_))

theorem execCommitModeChange_sound {s : State} (hs : s.sound = true) (path : Path) (page : ℕ) (lane : ℕ) (v : ℕ)  :
    ∀ u, execCommitModeChange path page lane v s = .next u → u.sound = true := by
  intro u ht; unfold execCommitModeChange at ht
  refine guarded_sound (fun s hs => ?_) hs ht
  repeat' first | (simp +contextual (maxDischargeDepth := 40) [*]; done) | split | dsimp only | (refine State.forEach_sound ?_ _ _ (fun _ _ _ => ?_)) | (refine State.onlyIf_sound ?_ _ _ (fun _ _ => ?_))

theorem execCgArm_sound {s : State} (hs : s.sound = true) (path : Path) (v : ℕ)  :
    ∀ u, execCgArm path v s = .next u → u.sound = true := by
  intro u ht; unfold execCgArm at ht
  refine guarded_sound (fun s hs => ?_) hs ht
  repeat' first | (simp +contextual (maxDischargeDepth := 40) [*]; done) | split | dsimp only | (refine State.forEach_sound ?_ _ _ (fun _ _ _ => ?_)) | (refine State.onlyIf_sound ?_ _ _ (fun _ _ => ?_))

theorem execCgDisarm_sound {s : State} (hs : s.sound = true) (path : Path) (v : ℕ)  :
    ∀ u, execCgDisarm path v s = .next u → u.sound = true := by
  intro u ht; unfold execCgDisarm at ht
  refine guarded_sound (fun s hs => ?_) hs ht
  repeat' first | (simp +contextual (maxDischargeDepth := 40) [*]; done) | split | dsimp only | (refine State.forEach_sound ?_ _ _ (fun _ _ _ => ?_)) | (refine State.onlyIf_sound ?_ _ _ (fun _ _ => ?_))

theorem execWindowBind_sound {s : State} (hs : s.sound = true) (path : Path) (off : ℕ) (v : ℕ)  :
    ∀ u, execWindowBind path off v s = .next u → u.sound = true := by
  intro u ht; unfold execWindowBind at ht
  refine guarded_sound (fun s hs => ?_) hs ht
  repeat' first | (simp +contextual (maxDischargeDepth := 40) [*]; done) | split | dsimp only | (refine State.forEach_sound ?_ _ _ (fun _ _ _ => ?_)) | (refine State.onlyIf_sound ?_ _ _ (fun _ _ => ?_))

theorem execOwnerWrite_sound {s : State} (hs : s.sound = true) (path : Path) (page : ℕ) (v : ℕ)  :
    ∀ u, execOwnerWrite path page v s = .next u → u.sound = true := by
  intro u ht; unfold execOwnerWrite at ht
  refine guarded_sound (fun s hs => ?_) hs ht
  repeat' first | (simp +contextual (maxDischargeDepth := 40) [*]; done) | split | dsimp only | (refine State.forEach_sound ?_ _ _ (fun _ _ _ => ?_)) | (refine State.onlyIf_sound ?_ _ _ (fun _ _ => ?_))

theorem execClaim_sound {s : State} (hs : s.sound = true) (path : Path) (res : ℕ)  :
    ∀ u, execClaim path res s = .next u → u.sound = true := by
  intro u ht; unfold execClaim at ht
  refine guarded_sound (fun s hs => ?_) hs ht
  repeat' first | (simp +contextual (maxDischargeDepth := 40) [*]; done) | split | dsimp only | (refine State.forEach_sound ?_ _ _ (fun _ _ _ => ?_)) | (refine State.onlyIf_sound ?_ _ _ (fun _ _ => ?_))

theorem execRelease_sound {s : State} (hs : s.sound = true) (path : Path) (res : ℕ)  :
    ∀ u, execRelease path res s = .next u → u.sound = true := by
  intro u ht; unfold execRelease at ht
  refine guarded_sound (fun s hs => ?_) hs ht
  repeat' first | (simp +contextual (maxDischargeDepth := 40) [*]; done) | split | dsimp only | (refine State.forEach_sound ?_ _ _ (fun _ _ _ => ?_)) | (refine State.onlyIf_sound ?_ _ _ (fun _ _ => ?_))

theorem execQuery_sound {s : State} (hs : s.sound = true) (path : Path) (res : ℕ) (agent : ℕ)  :
    ∀ u, execQuery path res agent s = .next u → u.sound = true := by
  intro u ht; unfold execQuery at ht
  refine guarded_sound (fun s hs => ?_) hs ht
  repeat' first | (simp +contextual (maxDischargeDepth := 40) [*]; done) | split | dsimp only | (refine State.forEach_sound ?_ _ _ (fun _ _ _ => ?_)) | (refine State.onlyIf_sound ?_ _ _ (fun _ _ => ?_))

theorem execForceRelease_sound {s : State} (hs : s.sound = true) (path : Path) (res : ℕ) (agent : ℕ)  :
    ∀ u, execForceRelease path res agent s = .next u → u.sound = true := by
  intro u ht; unfold execForceRelease at ht
  refine guarded_sound (fun s hs => ?_) hs ht
  repeat' first | (simp +contextual (maxDischargeDepth := 40) [*]; done) | split | dsimp only | (refine State.forEach_sound ?_ _ _ (fun _ _ _ => ?_)) | (refine State.onlyIf_sound ?_ _ _ (fun _ _ => ?_))

theorem execLeasePeriodWrite_sound {s : State} (hs : s.sound = true) (path : Path) (w : ℕ) (v : ℕ)  :
    ∀ u, execLeasePeriodWrite path w v s = .next u → u.sound = true := by
  intro u ht; unfold execLeasePeriodWrite at ht
  refine guarded_sound (fun s hs => ?_) hs ht
  repeat' first | (simp +contextual (maxDischargeDepth := 40) [*]; done) | split | dsimp only | (refine State.forEach_sound ?_ _ _ (fun _ _ _ => ?_)) | (refine State.onlyIf_sound ?_ _ _ (fun _ _ => ?_))

theorem execKick_sound {s : State} (hs : s.sound = true) (path : Path) (w : ℕ) (v : ℕ)  :
    ∀ u, execKick path w v s = .next u → u.sound = true := by
  intro u ht; unfold execKick at ht
  refine guarded_sound (fun s hs => ?_) hs ht
  repeat' first | (simp +contextual (maxDischargeDepth := 40) [*]; done) | split | dsimp only | (refine State.forEach_sound ?_ _ _ (fun _ _ _ => ?_)) | (refine State.onlyIf_sound ?_ _ _ (fun _ _ => ?_))

theorem execRingEnable_sound {s : State} (hs : s.sound = true) (path : Path) (r : ℕ) (v : ℕ)  :
    ∀ u, execRingEnable path r v s = .next u → u.sound = true := by
  intro u ht; unfold execRingEnable at ht
  refine guarded_sound (fun s hs => ?_) hs ht
  repeat' first | (simp +contextual (maxDischargeDepth := 40) [*]; done) | split | dsimp only | (refine State.forEach_sound ?_ _ _ (fun _ _ _ => ?_)) | (refine State.onlyIf_sound ?_ _ _ (fun _ _ => ?_))

theorem execRingDisable_sound {s : State} (hs : s.sound = true) (path : Path) (r : ℕ) (v : ℕ)  :
    ∀ u, execRingDisable path r v s = .next u → u.sound = true := by
  intro u ht; unfold execRingDisable at ht
  refine guarded_sound (fun s hs => ?_) hs ht
  repeat' first | (simp +contextual (maxDischargeDepth := 40) [*]; done) | split | dsimp only | (refine State.forEach_sound ?_ _ _ (fun _ _ _ => ?_)) | (refine State.onlyIf_sound ?_ _ _ (fun _ _ => ?_))

theorem execRingCfgWrite_sound {s : State} (hs : s.sound = true) (path : Path) (r : ℕ) (v : ℕ)  :
    ∀ u, execRingCfgWrite path r v s = .next u → u.sound = true := by
  intro u ht; unfold execRingCfgWrite at ht
  refine guarded_sound (fun s hs => ?_) hs ht
  repeat' first | (simp +contextual (maxDischargeDepth := 40) [*]; done) | split | dsimp only | (refine State.forEach_sound ?_ _ _ (fun _ _ _ => ?_)) | (refine State.onlyIf_sound ?_ _ _ (fun _ _ => ?_))

theorem execDoorbell_sound {s : State} (hs : s.sound = true) (path : Path) (r : ℕ) (v : ℕ)  :
    ∀ u, execDoorbell path r v s = .next u → u.sound = true := by
  intro u ht; unfold execDoorbell at ht
  refine guarded_sound (fun s hs => ?_) hs ht
  repeat' first | (simp +contextual (maxDischargeDepth := 40) [*]; done) | split | dsimp only | (refine State.forEach_sound ?_ _ _ (fun _ _ _ => ?_)) | (refine State.onlyIf_sound ?_ _ _ (fun _ _ => ?_))

theorem execFreeze_sound {s : State} (hs : s.sound = true) (path : Path)  :
    ∀ u, execFreeze path s = .next u → u.sound = true := by
  intro u ht; unfold execFreeze at ht
  refine guarded_sound (fun s hs => ?_) hs ht
  repeat' first | (simp +contextual (maxDischargeDepth := 40) [*]; done) | split | dsimp only | (refine State.forEach_sound ?_ _ _ (fun _ _ _ => ?_)) | (refine State.onlyIf_sound ?_ _ _ (fun _ _ => ?_))

theorem execSnapshotRelease_sound {s : State} (hs : s.sound = true) (path : Path)  :
    ∀ u, execSnapshotRelease path s = .next u → u.sound = true := by
  intro u ht; unfold execSnapshotRelease at ht
  refine guarded_sound (fun s hs => ?_) hs ht
  repeat' first | (simp +contextual (maxDischargeDepth := 40) [*]; done) | split | dsimp only | (refine State.forEach_sound ?_ _ _ (fun _ _ _ => ?_)) | (refine State.onlyIf_sound ?_ _ _ (fun _ _ => ?_))

theorem execSwapLane_sound {s : State} (hs : s.sound = true) (path : Path) (q : ℕ) (lane : ℕ)  :
    ∀ u, execSwapLane path q lane s = .next u → u.sound = true := by
  intro u ht; unfold execSwapLane at ht
  refine guarded_sound (fun s hs => ?_) hs ht
  repeat' first | (simp +contextual (maxDischargeDepth := 40) [*]; done) | split | dsimp only | (refine State.forEach_sound ?_ _ _ (fun _ _ _ => ?_)) | (refine State.onlyIf_sound ?_ _ _ (fun _ _ => ?_))

theorem execResweepSpare_sound {s : State} (hs : s.sound = true) (path : Path) (q : ℕ)  :
    ∀ u, execResweepSpare path q s = .next u → u.sound = true := by
  intro u ht; unfold execResweepSpare at ht
  refine guarded_sound (fun s hs => ?_) hs ht
  repeat' first | (simp +contextual (maxDischargeDepth := 40) [*]; done) | split | dsimp only | (refine State.forEach_sound ?_ _ _ (fun _ _ _ => ?_)) | (refine State.onlyIf_sound ?_ _ _ (fun _ _ => ?_))

theorem execRetest_sound {s : State} (hs : s.sound = true) (path : Path) (q : ℕ) (e : ℕ)  :
    ∀ u, execRetest path q e s = .next u → u.sound = true := by
  intro u ht; unfold execRetest at ht
  refine guarded_sound (fun s hs => ?_) hs ht
  repeat' first | (simp +contextual (maxDischargeDepth := 40) [*]; done) | split | dsimp only | (refine State.forEach_sound ?_ _ _ (fun _ _ _ => ?_)) | (refine State.onlyIf_sound ?_ _ _ (fun _ _ => ?_))

theorem execLoopEnable_sound {s : State} (hs : s.sound = true) (path : Path) (v : ℕ)  :
    ∀ u, execLoopEnable path v s = .next u → u.sound = true := by
  intro u ht; unfold execLoopEnable at ht
  refine guarded_sound (fun s hs => ?_) hs ht
  repeat' first | (simp +contextual (maxDischargeDepth := 40) [*]; done) | split | dsimp only | (refine State.forEach_sound ?_ _ _ (fun _ _ _ => ?_)) | (refine State.onlyIf_sound ?_ _ _ (fun _ _ => ?_))

theorem execChannelFlush_sound {s : State} (hs : s.sound = true) (path : Path) (c : ℕ)  :
    ∀ u, execChannelFlush path c s = .next u → u.sound = true := by
  intro u ht; unfold execChannelFlush at ht
  refine guarded_sound (fun s hs => ?_) hs ht
  repeat' first | (simp +contextual (maxDischargeDepth := 40) [*]; done) | split | dsimp only | (refine State.forEach_sound ?_ _ _ (fun _ _ _ => ?_)) | (refine State.onlyIf_sound ?_ _ _ (fun _ _ => ?_))

theorem execChannelSafeExit_sound {s : State} (hs : s.sound = true) (path : Path) (c : ℕ)  :
    ∀ u, execChannelSafeExit path c s = .next u → u.sound = true := by
  intro u ht; unfold execChannelSafeExit at ht
  refine guarded_sound (fun s hs => ?_) hs ht
  repeat' first | (simp +contextual (maxDischargeDepth := 40) [*]; done) | split | dsimp only | (refine State.forEach_sound ?_ _ _ (fun _ _ _ => ?_)) | (refine State.onlyIf_sound ?_ _ _ (fun _ _ => ?_))

theorem execTlSrcWrite_sound {s : State} (hs : s.sound = true) (path : Path) (n : ℕ) (v : ℕ)  :
    ∀ u, execTlSrcWrite path n v s = .next u → u.sound = true := by
  intro u ht; unfold execTlSrcWrite at ht
  refine guarded_sound (fun s hs => ?_) hs ht
  repeat' first | (simp +contextual (maxDischargeDepth := 40) [*]; done) | split | dsimp only | (refine State.forEach_sound ?_ _ _ (fun _ _ _ => ?_)) | (refine State.onlyIf_sound ?_ _ _ (fun _ _ => ?_))

theorem execTlShapeWrite_sound {s : State} (hs : s.sound = true) (path : Path) (n : ℕ) (v : ℕ)  :
    ∀ u, execTlShapeWrite path n v s = .next u → u.sound = true := by
  intro u ht; unfold execTlShapeWrite at ht
  refine guarded_sound (fun s hs => ?_) hs ht
  repeat' first | (simp +contextual (maxDischargeDepth := 40) [*]; done) | split | dsimp only | (refine State.forEach_sound ?_ _ _ (fun _ _ _ => ?_)) | (refine State.onlyIf_sound ?_ _ _ (fun _ _ => ?_))

theorem execFireNow_sound {s : State} (hs : s.sound = true) (path : Path) (n : ℕ)  :
    ∀ u, execFireNow path n s = .next u → u.sound = true := by
  intro u ht; unfold execFireNow at ht
  refine guarded_sound (fun s hs => ?_) hs ht
  repeat' first | (simp +contextual (maxDischargeDepth := 40) [*]; done) | split | dsimp only | (refine State.forEach_sound ?_ _ _ (fun _ _ _ => ?_)) | (refine State.onlyIf_sound ?_ _ _ (fun _ _ => ?_))

theorem execFireAt_sound {s : State} (hs : s.sound = true) (path : Path) (n : ℕ)  :
    ∀ u, execFireAt path n s = .next u → u.sound = true := by
  intro u ht; unfold execFireAt at ht
  refine guarded_sound (fun s hs => ?_) hs ht
  repeat' first | (simp +contextual (maxDischargeDepth := 40) [*]; done) | split | dsimp only | (refine State.forEach_sound ?_ _ _ (fun _ _ _ => ?_)) | (refine State.onlyIf_sound ?_ _ _ (fun _ _ => ?_))

theorem execStart_sound {s : State} (hs : s.sound = true) (path : Path) (q : ℕ)  :
    ∀ u, execStart path q s = .next u → u.sound = true := by
  intro u ht; unfold execStart at ht
  refine guarded_sound (fun s hs => ?_) hs ht
  repeat' first | (simp +contextual (maxDischargeDepth := 40) [*]; done) | split | dsimp only | (refine State.forEach_sound ?_ _ _ (fun _ _ _ => ?_)) | (refine State.onlyIf_sound ?_ _ _ (fun _ _ => ?_))

theorem execStopAtEnd_sound {s : State} (hs : s.sound = true) (path : Path) (q : ℕ)  :
    ∀ u, execStopAtEnd path q s = .next u → u.sound = true := by
  intro u ht; unfold execStopAtEnd at ht
  refine guarded_sound (fun s hs => ?_) hs ht
  repeat' first | (simp +contextual (maxDischargeDepth := 40) [*]; done) | split | dsimp only | (refine State.forEach_sound ?_ _ _ (fun _ _ _ => ?_)) | (refine State.onlyIf_sound ?_ _ _ (fun _ _ => ?_))

theorem execStopNow_sound {s : State} (hs : s.sound = true) (path : Path) (q : ℕ)  :
    ∀ u, execStopNow path q s = .next u → u.sound = true := by
  intro u ht; unfold execStopNow at ht
  refine guarded_sound (fun s hs => ?_) hs ht
  repeat' first | (simp +contextual (maxDischargeDepth := 40) [*]; done) | split | dsimp only | (refine State.forEach_sound ?_ _ _ (fun _ _ _ => ?_)) | (refine State.onlyIf_sound ?_ _ _ (fun _ _ => ?_))

theorem execJump_sound {s : State} (hs : s.sound = true) (path : Path) (q : ℕ)  :
    ∀ u, execJump path q s = .next u → u.sound = true := by
  intro u ht; unfold execJump at ht
  refine guarded_sound (fun s hs => ?_) hs ht
  repeat' first | (simp +contextual (maxDischargeDepth := 40) [*]; done) | split | dsimp only | (refine State.forEach_sound ?_ _ _ (fun _ _ _ => ?_)) | (refine State.onlyIf_sound ?_ _ _ (fun _ _ => ?_))

theorem execClearRequest_sound {s : State} (hs : s.sound = true) (path : Path) (q : ℕ)  :
    ∀ u, execClearRequest path q s = .next u → u.sound = true := by
  intro u ht; unfold execClearRequest at ht
  refine guarded_sound (fun s hs => ?_) hs ht
  repeat' first | (simp +contextual (maxDischargeDepth := 40) [*]; done) | split | dsimp only | (refine State.forEach_sound ?_ _ _ (fun _ _ _ => ?_)) | (refine State.onlyIf_sound ?_ _ _ (fun _ _ => ?_))

theorem execDisarm_sound {s : State} (hs : s.sound = true) (path : Path) (q : ℕ)  :
    ∀ u, execDisarm path q s = .next u → u.sound = true := by
  intro u ht; unfold execDisarm at ht
  refine guarded_sound (fun s hs => ?_) hs ht
  repeat' first | (simp +contextual (maxDischargeDepth := 40) [*]; done) | split | dsimp only | (refine State.forEach_sound ?_ _ _ (fun _ _ _ => ?_)) | (refine State.onlyIf_sound ?_ _ _ (fun _ _ => ?_))

theorem execRefillSubmit_sound {s : State} (hs : s.sound = true) (path : Path) (q : ℕ)  :
    ∀ u, execRefillSubmit path q s = .next u → u.sound = true := by
  intro u ht; unfold execRefillSubmit at ht
  refine guarded_sound (fun s hs => ?_) hs ht
  repeat' first | (simp +contextual (maxDischargeDepth := 40) [*]; done) | split | dsimp only | (refine State.forEach_sound ?_ _ _ (fun _ _ _ => ?_)) | (refine State.onlyIf_sound ?_ _ _ (fun _ _ => ?_))

theorem execRefillFlush_sound {s : State} (hs : s.sound = true) (path : Path) (q : ℕ)  :
    ∀ u, execRefillFlush path q s = .next u → u.sound = true := by
  intro u ht; unfold execRefillFlush at ht
  refine guarded_sound (fun s hs => ?_) hs ht
  repeat' first | (simp +contextual (maxDischargeDepth := 40) [*]; done) | split | dsimp only | (refine State.forEach_sound ?_ _ _ (fun _ _ _ => ?_)) | (refine State.onlyIf_sound ?_ _ _ (fun _ _ => ?_))

theorem execReadySet_sound {s : State} (hs : s.sound = true) (path : Path)  :
    ∀ u, execReadySet path s = .next u → u.sound = true := by
  intro u ht; unfold execReadySet at ht
  refine guarded_sound (fun s hs => ?_) hs ht
  repeat' first | (simp +contextual (maxDischargeDepth := 40) [*]; done) | split | dsimp only | (refine State.forEach_sound ?_ _ _ (fun _ _ _ => ?_)) | (refine State.onlyIf_sound ?_ _ _ (fun _ _ => ?_))

theorem execReadyClear_sound {s : State} (hs : s.sound = true) (path : Path)  :
    ∀ u, execReadyClear path s = .next u → u.sound = true := by
  intro u ht; unfold execReadyClear at ht
  refine guarded_sound (fun s hs => ?_) hs ht
  repeat' first | (simp +contextual (maxDischargeDepth := 40) [*]; done) | split | dsimp only | (refine State.forEach_sound ?_ _ _ (fun _ _ _ => ?_)) | (refine State.onlyIf_sound ?_ _ _ (fun _ _ => ?_))

theorem execValidate_sound {s : State} (hs : s.sound = true) (path : Path)  :
    ∀ u, execValidate path s = .next u → u.sound = true := by
  intro u ht; unfold execValidate at ht
  refine guarded_sound (fun s hs => ?_) hs ht
  repeat' first | (simp +contextual (maxDischargeDepth := 40) [*]; done) | split | dsimp only | (refine State.forEach_sound ?_ _ _ (fun _ _ _ => ?_)) | (refine State.onlyIf_sound ?_ _ _ (fun _ _ => ?_))

theorem execSubmit_sound {s : State} (hs : s.sound = true) (path : Path) (q : ℕ)  :
    ∀ u, execSubmit path q s = .next u → u.sound = true := by
  intro u ht; unfold execSubmit at ht
  refine guarded_sound (fun s hs => ?_) hs ht
  repeat' first | (simp +contextual (maxDischargeDepth := 40) [*]; done) | split | dsimp only | (refine State.forEach_sound ?_ _ _ (fun _ _ _ => ?_)) | (refine State.onlyIf_sound ?_ _ _ (fun _ _ => ?_))

theorem execFlush_sound {s : State} (hs : s.sound = true) (path : Path) (q : ℕ)  :
    ∀ u, execFlush path q s = .next u → u.sound = true := by
  intro u ht; unfold execFlush at ht
  refine guarded_sound (fun s hs => ?_) hs ht
  repeat' first | (simp +contextual (maxDischargeDepth := 40) [*]; done) | split | dsimp only | (refine State.forEach_sound ?_ _ _ (fun _ _ _ => ?_)) | (refine State.onlyIf_sound ?_ _ _ (fun _ _ => ?_))

theorem execQueueSafeExit_sound {s : State} (hs : s.sound = true) (path : Path)  :
    ∀ u, execQueueSafeExit path s = .next u → u.sound = true := by
  intro u ht; unfold execQueueSafeExit at ht
  refine guarded_sound (fun s hs => ?_) hs ht
  repeat' first | (simp +contextual (maxDischargeDepth := 40) [*]; done) | split | dsimp only | (refine State.forEach_sound ?_ _ _ (fun _ _ _ => ?_)) | (refine State.onlyIf_sound ?_ _ _ (fun _ _ => ?_))

theorem execTickEnable_sound {s : State} (hs : s.sound = true) (path : Path) (n : ℕ) (v : ℕ)  :
    ∀ u, execTickEnable path n v s = .next u → u.sound = true := by
  intro u ht; unfold execTickEnable at ht
  refine guarded_sound (fun s hs => ?_) hs ht
  repeat' first | (simp +contextual (maxDischargeDepth := 40) [*]; done) | split | dsimp only | (refine State.forEach_sound ?_ _ _ (fun _ _ _ => ?_)) | (refine State.onlyIf_sound ?_ _ _ (fun _ _ => ?_))

theorem execPhaseEnable_sound {s : State} (hs : s.sound = true) (path : Path) (t : ℕ) (v : ℕ)  :
    ∀ u, execPhaseEnable path t v s = .next u → u.sound = true := by
  intro u ht; unfold execPhaseEnable at ht
  refine guarded_sound (fun s hs => ?_) hs ht
  repeat' first | (simp +contextual (maxDischargeDepth := 40) [*]; done) | split | dsimp only | (refine State.forEach_sound ?_ _ _ (fun _ _ _ => ?_)) | (refine State.onlyIf_sound ?_ _ _ (fun _ _ => ?_))

theorem execRestart_sound {s : State} (hs : s.sound = true) (path : Path) (t : ℕ)  :
    ∀ u, execRestart path t s = .next u → u.sound = true := by
  intro u ht; unfold execRestart at ht
  refine guarded_sound (fun s hs => ?_) hs ht
  repeat' first | (simp +contextual (maxDischargeDepth := 40) [*]; done) | split | dsimp only | (refine State.forEach_sound ?_ _ _ (fun _ _ _ => ?_)) | (refine State.onlyIf_sound ?_ _ _ (fun _ _ => ?_))

theorem execRecal_sound {s : State} (hs : s.sound = true) (path : Path) (i : ℕ)  :
    ∀ u, execRecal path i s = .next u → u.sound = true := by
  intro u ht; unfold execRecal at ht
  refine guarded_sound (fun s hs => ?_) hs ht
  repeat' first | (simp +contextual (maxDischargeDepth := 40) [*]; done) | split | dsimp only | (refine State.forEach_sound ?_ _ _ (fun _ _ _ => ?_)) | (refine State.onlyIf_sound ?_ _ _ (fun _ _ => ?_))

theorem execSessionEnable_sound {s : State} (hs : s.sound = true) (path : Path) (k : ℕ) (v : ℕ)  :
    ∀ u, execSessionEnable path k v s = .next u → u.sound = true := by
  intro u ht; unfold execSessionEnable at ht
  refine guarded_sound (fun s hs => ?_) hs ht
  repeat' first | (simp +contextual (maxDischargeDepth := 40) [*]; done) | split | dsimp only | (refine State.forEach_sound ?_ _ _ (fun _ _ _ => ?_)) | (refine State.onlyIf_sound ?_ _ _ (fun _ _ => ?_))

theorem execGateEnable_sound {s : State} (hs : s.sound = true) (path : Path) (g : ℕ) (v : ℕ)  :
    ∀ u, execGateEnable path g v s = .next u → u.sound = true := by
  intro u ht; unfold execGateEnable at ht
  refine guarded_sound (fun s hs => ?_) hs ht
  repeat' first | (simp +contextual (maxDischargeDepth := 40) [*]; done) | split | dsimp only | (refine State.forEach_sound ?_ _ _ (fun _ _ _ => ?_)) | (refine State.onlyIf_sound ?_ _ _ (fun _ _ => ?_))

theorem execArm_sound {s : State} (hs : s.sound = true) (path : Path) (k : ℕ)  :
    ∀ u, execArm path k s = .next u → u.sound = true := by
  intro u ht; unfold execArm at ht
  refine guarded_sound (fun s hs => ?_) hs ht
  repeat' first | (simp +contextual (maxDischargeDepth := 40) [*]; done) | split | dsimp only | (refine State.forEach_sound ?_ _ _ (fun _ _ _ => ?_)) | (refine State.onlyIf_sound ?_ _ _ (fun _ _ => ?_))

theorem execSessionAbort_sound {s : State} (hs : s.sound = true) (path : Path) (k : ℕ)  :
    ∀ u, execSessionAbort path k s = .next u → u.sound = true := by
  intro u ht; unfold execSessionAbort at ht
  refine guarded_sound (fun s hs => ?_) hs ht
  repeat' first | (simp +contextual (maxDischargeDepth := 40) [*]; done) | split | dsimp only | (refine State.forEach_sound ?_ _ _ (fun _ _ _ => ?_)) | (refine State.onlyIf_sound ?_ _ _ (fun _ _ => ?_))

theorem execGateStart_sound {s : State} (hs : s.sound = true) (path : Path) (g : ℕ)  :
    ∀ u, execGateStart path g s = .next u → u.sound = true := by
  intro u ht; unfold execGateStart at ht
  refine guarded_sound (fun s hs => ?_) hs ht
  repeat' first | (simp +contextual (maxDischargeDepth := 40) [*]; done) | split | dsimp only | (refine State.forEach_sound ?_ _ _ (fun _ _ _ => ?_)) | (refine State.onlyIf_sound ?_ _ _ (fun _ _ => ?_))

theorem execRefEnable_sound {s : State} (hs : s.sound = true) (path : Path) (k : ℕ) (v : ℕ)  :
    ∀ u, execRefEnable path k v s = .next u → u.sound = true := by
  intro u ht; unfold execRefEnable at ht
  refine guarded_sound (fun s hs => ?_) hs ht
  repeat' first | (simp +contextual (maxDischargeDepth := 40) [*]; done) | split | dsimp only | (refine State.forEach_sound ?_ _ _ (fun _ _ _ => ?_)) | (refine State.onlyIf_sound ?_ _ _ (fun _ _ => ?_))

theorem execPush_sound {s : State} (hs : s.sound = true) (path : Path) (k : ℕ)  :
    ∀ u, execPush path k s = .next u → u.sound = true := by
  intro u ht; unfold execPush at ht
  refine guarded_sound (fun s hs => ?_) hs ht
  repeat' first | (simp +contextual (maxDischargeDepth := 40) [*]; done) | split | dsimp only | (refine State.forEach_sound ?_ _ _ (fun _ _ _ => ?_)) | (refine State.onlyIf_sound ?_ _ _ (fun _ _ => ?_))

theorem execAcceptSlew_sound {s : State} (hs : s.sound = true) (path : Path) (k : ℕ)  :
    ∀ u, execAcceptSlew path k s = .next u → u.sound = true := by
  intro u ht; unfold execAcceptSlew at ht
  refine guarded_sound (fun s hs => ?_) hs ht
  repeat' first | (simp +contextual (maxDischargeDepth := 40) [*]; done) | split | dsimp only | (refine State.forEach_sound ?_ _ _ (fun _ _ _ => ?_)) | (refine State.onlyIf_sound ?_ _ _ (fun _ _ => ?_))

theorem execAcceptStep_sound {s : State} (hs : s.sound = true) (path : Path) (k : ℕ)  :
    ∀ u, execAcceptStep path k s = .next u → u.sound = true := by
  intro u ht; unfold execAcceptStep at ht
  refine guarded_sound (fun s hs => ?_) hs ht
  repeat' first | (simp +contextual (maxDischargeDepth := 40) [*]; done) | split | dsimp only | (refine State.forEach_sound ?_ _ _ (fun _ _ _ => ?_)) | (refine State.onlyIf_sound ?_ _ _ (fun _ _ => ?_))

theorem execReject_sound {s : State} (hs : s.sound = true) (path : Path) (k : ℕ)  :
    ∀ u, execReject path k s = .next u → u.sound = true := by
  intro u ht; unfold execReject at ht
  refine guarded_sound (fun s hs => ?_) hs ht
  repeat' first | (simp +contextual (maxDischargeDepth := 40) [*]; done) | split | dsimp only | (refine State.forEach_sound ?_ _ _ (fun _ _ _ => ?_)) | (refine State.onlyIf_sound ?_ _ _ (fun _ _ => ?_))

theorem execClearSuspect_sound {s : State} (hs : s.sound = true) (path : Path) (k : ℕ)  :
    ∀ u, execClearSuspect path k s = .next u → u.sound = true := by
  intro u ht; unfold execClearSuspect at ht
  refine guarded_sound (fun s hs => ?_) hs ht
  repeat' first | (simp +contextual (maxDischargeDepth := 40) [*]; done) | split | dsimp only | (refine State.forEach_sound ?_ _ _ (fun _ _ _ => ?_)) | (refine State.onlyIf_sound ?_ _ _ (fun _ _ => ?_))

theorem execRequalify_sound {s : State} (hs : s.sound = true) (path : Path) (k : ℕ)  :
    ∀ u, execRequalify path k s = .next u → u.sound = true := by
  intro u ht; unfold execRequalify at ht
  refine guarded_sound (fun s hs => ?_) hs ht
  repeat' first | (simp +contextual (maxDischargeDepth := 40) [*]; done) | split | dsimp only | (refine State.forEach_sound ?_ _ _ (fun _ _ _ => ?_)) | (refine State.onlyIf_sound ?_ _ _ (fun _ _ => ?_))

theorem execServoModeWrite_sound {s : State} (hs : s.sound = true) (path : Path) (v : ℕ)  :
    ∀ u, execServoModeWrite path v s = .next u → u.sound = true := by
  intro u ht; unfold execServoModeWrite at ht
  refine guarded_sound (fun s hs => ?_) hs ht
  repeat' first | (simp +contextual (maxDischargeDepth := 40) [*]; done) | split | dsimp only | (refine State.forEach_sound ?_ _ _ (fun _ _ _ => ?_)) | (refine State.onlyIf_sound ?_ _ _ (fun _ _ => ?_))

theorem execStep_sound {s : State} (hs : s.sound = true) (path : Path)  :
    ∀ u, execStep path s = .next u → u.sound = true := by
  intro u ht; unfold execStep at ht
  refine guarded_sound (fun s hs => ?_) hs ht
  repeat' first | (simp +contextual (maxDischargeDepth := 40) [*]; done) | split | dsimp only | (refine State.forEach_sound ?_ _ _ (fun _ _ _ => ?_)) | (refine State.onlyIf_sound ?_ _ _ (fun _ _ => ?_))

theorem execStepProposed_sound {s : State} (hs : s.sound = true) (path : Path)  :
    ∀ u, execStepProposed path s = .next u → u.sound = true := by
  intro u ht; unfold execStepProposed at ht
  refine guarded_sound (fun s hs => ?_) hs ht
  repeat' first | (simp +contextual (maxDischargeDepth := 40) [*]; done) | split | dsimp only | (refine State.forEach_sound ?_ _ _ (fun _ _ _ => ?_)) | (refine State.onlyIf_sound ?_ _ _ (fun _ _ => ?_))

theorem execSlewProposed_sound {s : State} (hs : s.sound = true) (path : Path)  :
    ∀ u, execSlewProposed path s = .next u → u.sound = true := by
  intro u ht; unfold execSlewProposed at ht
  refine guarded_sound (fun s hs => ?_) hs ht
  repeat' first | (simp +contextual (maxDischargeDepth := 40) [*]; done) | split | dsimp only | (refine State.forEach_sound ?_ _ _ (fun _ _ _ => ?_)) | (refine State.onlyIf_sound ?_ _ _ (fun _ _ => ?_))

theorem execApllAEnable_sound {s : State} (hs : s.sound = true) (path : Path) (v : ℕ)  :
    ∀ u, execApllAEnable path v s = .next u → u.sound = true := by
  intro u ht; unfold execApllAEnable at ht
  refine guarded_sound (fun s hs => ?_) hs ht
  repeat' first | (simp +contextual (maxDischargeDepth := 40) [*]; done) | split | dsimp only | (refine State.forEach_sound ?_ _ _ (fun _ _ _ => ?_)) | (refine State.onlyIf_sound ?_ _ _ (fun _ _ => ?_))

theorem execFreqCmdSet_sound {s : State} (hs : s.sound = true) (path : Path)  :
    ∀ u, execFreqCmdSet path s = .next u → u.sound = true := by
  intro u ht; unfold execFreqCmdSet at ht
  refine guarded_sound (fun s hs => ?_) hs ht
  repeat' first | (simp +contextual (maxDischargeDepth := 40) [*]; done) | split | dsimp only | (refine State.forEach_sound ?_ _ _ (fun _ _ _ => ?_)) | (refine State.onlyIf_sound ?_ _ _ (fun _ _ => ?_))

theorem execRunProfile_sound {s : State} (hs : s.sound = true) (path : Path)  :
    ∀ u, execRunProfile path s = .next u → u.sound = true := by
  intro u ht; unfold execRunProfile at ht
  refine guarded_sound (fun s hs => ?_) hs ht
  repeat' first | (simp +contextual (maxDischargeDepth := 40) [*]; done) | split | dsimp only | (refine State.forEach_sound ?_ _ _ (fun _ _ _ => ?_)) | (refine State.onlyIf_sound ?_ _ _ (fun _ _ => ?_))

theorem execAbortRamp_sound {s : State} (hs : s.sound = true) (path : Path)  :
    ∀ u, execAbortRamp path s = .next u → u.sound = true := by
  intro u ht; unfold execAbortRamp at ht
  refine guarded_sound (fun s hs => ?_) hs ht
  repeat' first | (simp +contextual (maxDischargeDepth := 40) [*]; done) | split | dsimp only | (refine State.forEach_sound ?_ _ _ (fun _ _ _ => ?_)) | (refine State.onlyIf_sound ?_ _ _ (fun _ _ => ?_))

theorem execRelock_sound {s : State} (hs : s.sound = true) (path : Path)  :
    ∀ u, execRelock path s = .next u → u.sound = true := by
  intro u ht; unfold execRelock at ht
  refine guarded_sound (fun s hs => ?_) hs ht
  repeat' first | (simp +contextual (maxDischargeDepth := 40) [*]; done) | split | dsimp only | (refine State.forEach_sound ?_ _ _ (fun _ _ _ => ?_)) | (refine State.onlyIf_sound ?_ _ _ (fun _ _ => ?_))

theorem execAuxEnable_sound {s : State} (hs : s.sound = true) (path : Path) (n : ℕ) (v : ℕ)  :
    ∀ u, execAuxEnable path n v s = .next u → u.sound = true := by
  intro u ht; unfold execAuxEnable at ht
  refine guarded_sound (fun s hs => ?_) hs ht
  repeat' first | (simp +contextual (maxDischargeDepth := 40) [*]; done) | split | dsimp only | (refine State.forEach_sound ?_ _ _ (fun _ _ _ => ?_)) | (refine State.onlyIf_sound ?_ _ _ (fun _ _ => ?_))

theorem execAuxSafeExit_sound {s : State} (hs : s.sound = true) (path : Path) (n : ℕ)  :
    ∀ u, execAuxSafeExit path n s = .next u → u.sound = true := by
  intro u ht; unfold execAuxSafeExit at ht
  refine guarded_sound (fun s hs => ?_) hs ht
  repeat' first | (simp +contextual (maxDischargeDepth := 40) [*]; done) | split | dsimp only | (refine State.forEach_sound ?_ _ _ (fun _ _ _ => ?_)) | (refine State.onlyIf_sound ?_ _ _ (fun _ _ => ?_))

theorem execSwitch_sound {s : State} (hs : s.sound = true) (path : Path)  :
    ∀ u, execSwitch path s = .next u → u.sound = true := by
  intro u ht; unfold execSwitch at ht
  refine guarded_sound (fun s hs => ?_) hs ht
  repeat' first | (simp +contextual (maxDischargeDepth := 40) [*]; done) | split | dsimp only | (refine State.forEach_sound ?_ _ _ (fun _ _ _ => ?_)) | (refine State.onlyIf_sound ?_ _ _ (fun _ _ => ?_))

theorem execPathAccept_sound {s : State} (hs : s.sound = true) (path : Path)  :
    ∀ u, execPathAccept path s = .next u → u.sound = true := by
  intro u ht; unfold execPathAccept at ht
  refine guarded_sound (fun s hs => ?_) hs ht
  repeat' first | (simp +contextual (maxDischargeDepth := 40) [*]; done) | split | dsimp only | (refine State.forEach_sound ?_ _ _ (fun _ _ _ => ?_)) | (refine State.onlyIf_sound ?_ _ _ (fun _ _ => ?_))

theorem execPathClear_sound {s : State} (hs : s.sound = true) (path : Path)  :
    ∀ u, execPathClear path s = .next u → u.sound = true := by
  intro u ht; unfold execPathClear at ht
  refine guarded_sound (fun s hs => ?_) hs ht
  repeat' first | (simp +contextual (maxDischargeDepth := 40) [*]; done) | split | dsimp only | (refine State.forEach_sound ?_ _ _ (fun _ _ _ => ?_)) | (refine State.onlyIf_sound ?_ _ _ (fun _ _ => ?_))

theorem execIssue_sound {s : State} (hs : s.sound = true) (path : Path) (p : ℕ)  :
    ∀ u, execIssue path p s = .next u → u.sound = true := by
  intro u ht; unfold execIssue at ht
  refine guarded_sound (fun s hs => ?_) hs ht
  repeat' first | (simp +contextual (maxDischargeDepth := 40) [*]; done) | split | dsimp only | (refine State.forEach_sound ?_ _ _ (fun _ _ _ => ?_)) | (refine State.onlyIf_sound ?_ _ _ (fun _ _ => ?_))

theorem execMgmtRead32_sound {s : State} (hs : s.sound = true) (path : Path) (p : ℕ)  :
    ∀ u, execMgmtRead32 path p s = .next u → u.sound = true := by
  intro u ht; unfold execMgmtRead32 at ht
  refine guarded_sound (fun s hs => ?_) hs ht
  repeat' first | (simp +contextual (maxDischargeDepth := 40) [*]; done) | split | dsimp only | (refine State.forEach_sound ?_ _ _ (fun _ _ _ => ?_)) | (refine State.onlyIf_sound ?_ _ _ (fun _ _ => ?_))

theorem execMgmtWrite32_sound {s : State} (hs : s.sound = true) (path : Path) (p : ℕ)  :
    ∀ u, execMgmtWrite32 path p s = .next u → u.sound = true := by
  intro u ht; unfold execMgmtWrite32 at ht
  refine guarded_sound (fun s hs => ?_) hs ht
  repeat' first | (simp +contextual (maxDischargeDepth := 40) [*]; done) | split | dsimp only | (refine State.forEach_sound ?_ _ _ (fun _ _ _ => ?_)) | (refine State.onlyIf_sound ?_ _ _ (fun _ _ => ?_))

theorem execMgmtRead128_sound {s : State} (hs : s.sound = true) (path : Path) (p : ℕ)  :
    ∀ u, execMgmtRead128 path p s = .next u → u.sound = true := by
  intro u ht; unfold execMgmtRead128 at ht
  refine guarded_sound (fun s hs => ?_) hs ht
  repeat' first | (simp +contextual (maxDischargeDepth := 40) [*]; done) | split | dsimp only | (refine State.forEach_sound ?_ _ _ (fun _ _ _ => ?_)) | (refine State.onlyIf_sound ?_ _ _ (fun _ _ => ?_))

theorem execMgmtWrite128_sound {s : State} (hs : s.sound = true) (path : Path) (p : ℕ)  :
    ∀ u, execMgmtWrite128 path p s = .next u → u.sound = true := by
  intro u ht; unfold execMgmtWrite128 at ht
  refine guarded_sound (fun s hs => ?_) hs ht
  repeat' first | (simp +contextual (maxDischargeDepth := 40) [*]; done) | split | dsimp only | (refine State.forEach_sound ?_ _ _ (fun _ _ _ => ?_)) | (refine State.onlyIf_sound ?_ _ _ (fun _ _ => ?_))

theorem execEthDoorbell_sound {s : State} (hs : s.sound = true) (path : Path) (p : ℕ) (rx : Bool) (v : ℕ)  :
    ∀ u, execEthDoorbell path p rx v s = .next u → u.sound = true := by
  intro u ht; unfold execEthDoorbell at ht
  refine guarded_sound (fun s hs => ?_) hs ht
  repeat' first | (simp +contextual (maxDischargeDepth := 40) [*]; done) | split | dsimp only | (refine State.forEach_sound ?_ _ _ (fun _ _ _ => ?_)) | (refine State.onlyIf_sound ?_ _ _ (fun _ _ => ?_))

theorem execCalCmdSet_sound {s : State} (hs : s.sound = true) (path : Path)  :
    ∀ u, execCalCmdSet path s = .next u → u.sound = true := by
  intro u ht; unfold execCalCmdSet at ht
  refine guarded_sound (fun s hs => ?_) hs ht
  repeat' first | (simp +contextual (maxDischargeDepth := 40) [*]; done) | split | dsimp only | (refine State.forEach_sound ?_ _ _ (fun _ _ _ => ?_)) | (refine State.onlyIf_sound ?_ _ _ (fun _ _ => ?_))

theorem execSyncNow_sound {s : State} (hs : s.sound = true) (path : Path)  :
    ∀ u, execSyncNow path s = .next u → u.sound = true := by
  intro u ht; unfold execSyncNow at ht
  refine guarded_sound (fun s hs => ?_) hs ht
  repeat' first | (simp +contextual (maxDischargeDepth := 40) [*]; done) | split | dsimp only | (refine State.forEach_sound ?_ _ _ (fun _ _ _ => ?_)) | (refine State.onlyIf_sound ?_ _ _ (fun _ _ => ?_))

theorem execInvalidate_sound {s : State} (hs : s.sound = true) (path : Path)  :
    ∀ u, execInvalidate path s = .next u → u.sound = true := by
  intro u ht; unfold execInvalidate at ht
  refine guarded_sound (fun s hs => ?_) hs ht
  repeat' first | (simp +contextual (maxDischargeDepth := 40) [*]; done) | split | dsimp only | (refine State.forEach_sound ?_ _ _ (fun _ _ _ => ?_)) | (refine State.onlyIf_sound ?_ _ _ (fun _ _ => ?_))

theorem execPwrOn_sound {s : State} (hs : s.sound = true) (path : Path)  :
    ∀ u, execPwrOn path s = .next u → u.sound = true := by
  intro u ht; unfold execPwrOn at ht
  refine guarded_sound (fun s hs => ?_) hs ht
  repeat' first | (simp +contextual (maxDischargeDepth := 40) [*]; done) | split | dsimp only | (refine State.forEach_sound ?_ _ _ (fun _ _ _ => ?_)) | (refine State.onlyIf_sound ?_ _ _ (fun _ _ => ?_))

theorem execPwrOff_sound {s : State} (hs : s.sound = true) (path : Path)  :
    ∀ u, execPwrOff path s = .next u → u.sound = true := by
  intro u ht; unfold execPwrOff at ht
  refine guarded_sound (fun s hs => ?_) hs ht
  repeat' first | (simp +contextual (maxDischargeDepth := 40) [*]; done) | split | dsimp only | (refine State.forEach_sound ?_ _ _ (fun _ _ _ => ?_)) | (refine State.onlyIf_sound ?_ _ _ (fun _ _ => ?_))

theorem execAlertSet_sound {s : State} (hs : s.sound = true) (path : Path)  :
    ∀ u, execAlertSet path s = .next u → u.sound = true := by
  intro u ht; unfold execAlertSet at ht
  refine guarded_sound (fun s hs => ?_) hs ht
  repeat' first | (simp +contextual (maxDischargeDepth := 40) [*]; done) | split | dsimp only | (refine State.forEach_sound ?_ _ _ (fun _ _ _ => ?_)) | (refine State.onlyIf_sound ?_ _ _ (fun _ _ => ?_))

theorem execAlertClr_sound {s : State} (hs : s.sound = true) (path : Path)  :
    ∀ u, execAlertClr path s = .next u → u.sound = true := by
  intro u ht; unfold execAlertClr at ht
  refine guarded_sound (fun s hs => ?_) hs ht
  repeat' first | (simp +contextual (maxDischargeDepth := 40) [*]; done) | split | dsimp only | (refine State.forEach_sound ?_ _ _ (fun _ _ _ => ?_)) | (refine State.onlyIf_sound ?_ _ _ (fun _ _ => ?_))

theorem execLogClear_sound {s : State} (hs : s.sound = true) (path : Path)  :
    ∀ u, execLogClear path s = .next u → u.sound = true := by
  intro u ht; unfold execLogClear at ht
  refine guarded_sound (fun s hs => ?_) hs ht
  repeat' first | (simp +contextual (maxDischargeDepth := 40) [*]; done) | split | dsimp only | (refine State.forEach_sound ?_ _ _ (fun _ _ _ => ?_)) | (refine State.onlyIf_sound ?_ _ _ (fun _ _ => ?_))

theorem execErrInject_sound {s : State} (hs : s.sound = true) (path : Path) (page : ℕ) (v : ℕ)  :
    ∀ u, execErrInject path page v s = .next u → u.sound = true := by
  intro u ht; unfold execErrInject at ht
  refine guarded_sound (fun s hs => ?_) hs ht
  repeat' first | (simp +contextual (maxDischargeDepth := 40) [*]; done) | split | dsimp only | (refine State.forEach_sound ?_ _ _ (fun _ _ _ => ?_)) | (refine State.onlyIf_sound ?_ _ _ (fun _ _ => ?_))

theorem execInject_sound {s : State} (hs : s.sound = true) (path : Path) (k : ℕ) (line : Bool)  :
    ∀ u, execInject path k line s = .next u → u.sound = true := by
  intro u ht; unfold execInject at ht
  refine guarded_sound (fun s hs => ?_) hs ht
  repeat' first | (simp +contextual (maxDischargeDepth := 40) [*]; done) | split | dsimp only | (refine State.forEach_sound ?_ _ _ (fun _ _ _ => ?_)) | (refine State.onlyIf_sound ?_ _ _ (fun _ _ => ?_))

theorem execClearPair_sound {s : State} (hs : s.sound = true) (path : Path)  :
    ∀ u, execClearPair path s = .next u → u.sound = true := by
  intro u ht; unfold execClearPair at ht
  refine guarded_sound (fun s hs => ?_) hs ht
  repeat' first | (simp +contextual (maxDischargeDepth := 40) [*]; done) | split | dsimp only | (refine State.forEach_sound ?_ _ _ (fun _ _ _ => ?_)) | (refine State.onlyIf_sound ?_ _ _ (fun _ _ => ?_))

theorem execEnterSafe_sound {s : State} (hs : s.sound = true) (path : Path)  :
    ∀ u, execEnterSafe path s = .next u → u.sound = true := by
  intro u ht; unfold execEnterSafe at ht
  refine guarded_sound (fun s hs => ?_) hs ht
  repeat' first | (simp +contextual (maxDischargeDepth := 40) [*]; done) | split | dsimp only | (refine State.forEach_sound ?_ _ _ (fun _ _ _ => ?_)) | (refine State.onlyIf_sound ?_ _ _ (fun _ _ => ?_))

theorem execReinit_sound {s : State} (hs : s.sound = true) (path : Path)  :
    ∀ u, execReinit path s = .next u → u.sound = true := by
  intro u ht; unfold execReinit at ht
  refine guarded_sound (fun s hs => ?_) hs ht
  repeat' first | (simp +contextual (maxDischargeDepth := 40) [*]; done) | split | dsimp only | (refine State.forEach_sound ?_ _ _ (fun _ _ _ => ?_)) | (refine State.onlyIf_sound ?_ _ _ (fun _ _ => ?_))

theorem execDeviceSafeExit_sound {s : State} (hs : s.sound = true) (path : Path)  :
    ∀ u, execDeviceSafeExit path s = .next u → u.sound = true := by
  intro u ht; unfold execDeviceSafeExit at ht
  refine guarded_sound (fun s hs => ?_) hs ht
  repeat' first | (simp +contextual (maxDischargeDepth := 40) [*]; done) | split | dsimp only | (refine State.forEach_sound ?_ _ _ (fun _ _ _ => ?_)) | (refine State.onlyIf_sound ?_ _ _ (fun _ _ => ?_))

theorem execFirstFaultClear_sound {s : State} (hs : s.sound = true) (path : Path)  :
    ∀ u, execFirstFaultClear path s = .next u → u.sound = true := by
  intro u ht; unfold execFirstFaultClear at ht
  refine guarded_sound (fun s hs => ?_) hs ht
  repeat' first | (simp +contextual (maxDischargeDepth := 40) [*]; done) | split | dsimp only | (refine State.forEach_sound ?_ _ _ (fun _ _ _ => ?_)) | (refine State.onlyIf_sound ?_ _ _ (fun _ _ => ?_))

theorem execDeviceReset_sound {s : State} (hs : s.sound = true) (path : Path)  :
    ∀ u, execDeviceReset path s = .next u → u.sound = true := by
  intro u ht; unfold execDeviceReset at ht
  refine guarded_sound (fun s hs => ?_) hs ht
  repeat' first | (simp +contextual (maxDischargeDepth := 40) [*]; done) | split | dsimp only | (refine State.forEach_sound ?_ _ _ (fun _ _ _ => ?_)) | (refine State.onlyIf_sound ?_ _ _ (fun _ _ => ?_))

theorem execBegin_sound {s : State} (hs : s.sound = true) (path : Path)  :
    ∀ u, execBegin path s = .next u → u.sound = true := by
  intro u ht; unfold execBegin at ht
  refine guarded_sound (fun s hs => ?_) hs ht
  repeat' first | (simp +contextual (maxDischargeDepth := 40) [*]; done) | split | dsimp only | (refine State.forEach_sound ?_ _ _ (fun _ _ _ => ?_)) | (refine State.onlyIf_sound ?_ _ _ (fun _ _ => ?_))

theorem execWriteWindow_sound {s : State} (hs : s.sound = true) (path : Path)  :
    ∀ u, execWriteWindow path s = .next u → u.sound = true := by
  intro u ht; unfold execWriteWindow at ht
  refine guarded_sound (fun s hs => ?_) hs ht
  repeat' first | (simp +contextual (maxDischargeDepth := 40) [*]; done) | split | dsimp only | (refine State.forEach_sound ?_ _ _ (fun _ _ _ => ?_)) | (refine State.onlyIf_sound ?_ _ _ (fun _ _ => ?_))

theorem execActivate_sound {s : State} (hs : s.sound = true) (path : Path)  :
    ∀ u, execActivate path s = .next u → u.sound = true := by
  intro u ht; unfold execActivate at ht
  refine guarded_sound (fun s hs => ?_) hs ht
  repeat' first | (simp +contextual (maxDischargeDepth := 40) [*]; done) | split | dsimp only | (refine State.forEach_sound ?_ _ _ (fun _ _ _ => ?_)) | (refine State.onlyIf_sound ?_ _ _ (fun _ _ => ?_))

theorem execActivateAtReset_sound {s : State} (hs : s.sound = true) (path : Path)  :
    ∀ u, execActivateAtReset path s = .next u → u.sound = true := by
  intro u ht; unfold execActivateAtReset at ht
  refine guarded_sound (fun s hs => ?_) hs ht
  repeat' first | (simp +contextual (maxDischargeDepth := 40) [*]; done) | split | dsimp only | (refine State.forEach_sound ?_ _ _ (fun _ _ _ => ?_)) | (refine State.onlyIf_sound ?_ _ _ (fun _ _ => ?_))

theorem execConfirm_sound {s : State} (hs : s.sound = true) (path : Path)  :
    ∀ u, execConfirm path s = .next u → u.sound = true := by
  intro u ht; unfold execConfirm at ht
  refine guarded_sound (fun s hs => ?_) hs ht
  repeat' first | (simp +contextual (maxDischargeDepth := 40) [*]; done) | split | dsimp only | (refine State.forEach_sound ?_ _ _ (fun _ _ _ => ?_)) | (refine State.onlyIf_sound ?_ _ _ (fun _ _ => ?_))

theorem execRevert_sound {s : State} (hs : s.sound = true) (path : Path)  :
    ∀ u, execRevert path s = .next u → u.sound = true := by
  intro u ht; unfold execRevert at ht
  refine guarded_sound (fun s hs => ?_) hs ht
  repeat' first | (simp +contextual (maxDischargeDepth := 40) [*]; done) | split | dsimp only | (refine State.forEach_sound ?_ _ _ (fun _ _ _ => ?_)) | (refine State.onlyIf_sound ?_ _ _ (fun _ _ => ?_))

theorem execFlAbort_sound {s : State} (hs : s.sound = true) (path : Path)  :
    ∀ u, execFlAbort path s = .next u → u.sound = true := by
  intro u ht; unfold execFlAbort at ht
  refine guarded_sound (fun s hs => ?_) hs ht
  repeat' first | (simp +contextual (maxDischargeDepth := 40) [*]; done) | split | dsimp only | (refine State.forEach_sound ?_ _ _ (fun _ _ _ => ?_)) | (refine State.onlyIf_sound ?_ _ _ (fun _ _ => ?_))

theorem execLoadManifest_sound {s : State} (hs : s.sound = true) (path : Path)  :
    ∀ u, execLoadManifest path s = .next u → u.sound = true := by
  intro u ht; unfold execLoadManifest at ht
  refine guarded_sound (fun s hs => ?_) hs ht
  repeat' first | (simp +contextual (maxDischargeDepth := 40) [*]; done) | split | dsimp only | (refine State.forEach_sound ?_ _ _ (fun _ _ _ => ?_)) | (refine State.onlyIf_sound ?_ _ _ (fun _ _ => ?_))

theorem execClearManifest_sound {s : State} (hs : s.sound = true) (path : Path)  :
    ∀ u, execClearManifest path s = .next u → u.sound = true := by
  intro u ht; unfold execClearManifest at ht
  refine guarded_sound (fun s hs => ?_) hs ht
  repeat' first | (simp +contextual (maxDischargeDepth := 40) [*]; done) | split | dsimp only | (refine State.forEach_sound ?_ _ _ (fun _ _ _ => ?_)) | (refine State.onlyIf_sound ?_ _ _ (fun _ _ => ?_))

theorem execReadLog_sound {s : State} (hs : s.sound = true) (path : Path)  :
    ∀ u, execReadLog path s = .next u → u.sound = true := by
  intro u ht; unfold execReadLog at ht
  refine guarded_sound (fun s hs => ?_) hs ht
  repeat' first | (simp +contextual (maxDischargeDepth := 40) [*]; done) | split | dsimp only | (refine State.forEach_sound ?_ _ _ (fun _ _ _ => ?_)) | (refine State.onlyIf_sound ?_ _ _ (fun _ _ => ?_))

theorem execInstallKey_sound {s : State} (hs : s.sound = true) (path : Path)  :
    ∀ u, execInstallKey path s = .next u → u.sound = true := by
  intro u ht; unfold execInstallKey at ht
  refine guarded_sound (fun s hs => ?_) hs ht
  repeat' first | (simp +contextual (maxDischargeDepth := 40) [*]; done) | split | dsimp only | (refine State.forEach_sound ?_ _ _ (fun _ _ _ => ?_)) | (refine State.onlyIf_sound ?_ _ _ (fun _ _ => ?_))

theorem execOwnerEnroll_sound {s : State} (hs : s.sound = true) (path : Path)  :
    ∀ u, execOwnerEnroll path s = .next u → u.sound = true := by
  intro u ht; unfold execOwnerEnroll at ht
  refine guarded_sound (fun s hs => ?_) hs ht
  repeat' first | (simp +contextual (maxDischargeDepth := 40) [*]; done) | split | dsimp only | (refine State.forEach_sound ?_ _ _ (fun _ _ _ => ?_)) | (refine State.onlyIf_sound ?_ _ _ (fun _ _ => ?_))

@[simp] theorem State.flashWrote_sound {s : State} (hs : s.sound = true) (path : Path) (code : ℕ) (bytes : Option (List ℕ)) (v : Option VerifyResult)  :
    (State.flashWrote s path code bytes v).sound = true := by
  unfold State.flashWrote; simp +contextual (maxDischargeDepth := 40) [*]

theorem execDmaWrite_sound {s : State} (hs : s.sound = true) (path : Path) (bytes : List ℕ)  :
    ∀ u, execDmaWrite path bytes s = .next u → u.sound = true := by
  intro u ht; unfold execDmaWrite at ht
  refine guarded_sound (fun s hs => ?_) hs ht
  repeat' first | (simp +contextual (maxDischargeDepth := 40) [*]; done) | split | dsimp only | (refine State.forEach_sound ?_ _ _ (fun _ _ _ => ?_)) | (refine State.onlyIf_sound ?_ _ _ (fun _ _ => ?_))

theorem execFinish_sound {s : State} (hs : s.sound = true) (path : Path) (v : VerifyResult)  :
    ∀ u, execFinish path v s = .next u → u.sound = true := by
  intro u ht; unfold execFinish at ht
  refine guarded_sound (fun s hs => ?_) hs ht
  repeat' first | (simp +contextual (maxDischargeDepth := 40) [*]; done) | split | dsimp only | (refine State.forEach_sound ?_ _ _ (fun _ _ _ => ?_)) | (refine State.onlyIf_sound ?_ _ _ (fun _ _ => ?_))

end Sys2Proof.Machine
end

