-- ==== Sys2Proof/Laws/SoundRemote.lean ====
section
/-! SUPPORT. The operations of Remote keep the form of a state. -/

namespace Sys2Proof.Machine

set_option linter.unusedTactic false
set_option linter.unreachableTactic false

@[simp] theorem State.mgmtAccess_sound {s : State} (hs : s.sound = true) (c : MgmtCell)  :
    (State.mgmtAccess s c).1.sound = true := by
  unfold State.mgmtAccess; simp +contextual (maxDischargeDepth := 40) [*]

@[simp] theorem State.keepCounter_sound {s : State} (hs : s.sound = true) (n : ℕ)  :
    (State.keepCounter s n).sound = true := by
  unfold State.keepCounter; simp +contextual (maxDischargeDepth := 40) [*]

@[simp] theorem State.mgmtReply_sound {s : State} (hs : s.sound = true) (c : MgmtCell) (key : ℕ) (v : Verdict) (data : ℕ)  :
    (State.mgmtReply s c key v data).sound = true := by
  unfold State.mgmtReply; repeat' first | (simp +contextual (maxDischargeDepth := 40) [*]; done) | split | dsimp only | (refine State.forEach_sound ?_ _ _ (fun _ _ _ => ?_)) | (refine State.onlyIf_sound ?_ _ _ (fun _ _ => ?_))

@[simp] theorem State.mgmtServe_sound {s : State} (hs : s.sound = true) (p : ℕ) (c : MgmtCell)  :
    (State.mgmtServe s p c).sound = true := by
  unfold State.mgmtServe; repeat' first | (simp +contextual (maxDischargeDepth := 40) [*]; done) | split | dsimp only

@[simp] theorem State.mgmtRx_sound {s : State} (hs : s.sound = true) (p : ℕ) (c : MgmtCell)  :
    (State.mgmtRx s p c).sound = true := by
  unfold State.mgmtRx; simp +contextual (maxDischargeDepth := 40) [*]

theorem execMgmtRequestRx_sound {s : State} (hs : s.sound = true) (p : ℕ) (c : MgmtCell)  :
    ∀ u, execMgmtRequestRx p c s = .next u → u.sound = true := by
  intro u ht; unfold execMgmtRequestRx at ht
  refine guarded_sound (fun s hs => ?_) hs ht
  repeat' first | (simp +contextual (maxDischargeDepth := 40) [*]; done) | split | dsimp only | (refine State.forEach_sound ?_ _ _ (fun _ _ _ => ?_)) | (refine State.onlyIf_sound ?_ _ _ (fun _ _ => ?_))

end Sys2Proof.Machine
end

