-- ==== Sys2Proof/Laws/SoundDeliver.lean ====
section
/-! SUPPORT. The operations of Deliver keep the form of a state. -/

namespace Sys2Proof.Machine

set_option linter.unusedTactic false
set_option linter.unreachableTactic false

@[simp] theorem State.lineToSeq_sound {s : State} (hs : s.sound = true) (n : ℕ) (t : ℕ) (teb : ℕ) (q : ℕ)  :
    (State.lineToSeq s n t teb q).sound = true := by
  unfold State.lineToSeq; simp +contextual (maxDischargeDepth := 40) [*]

@[simp] theorem State.lineEvent_sound {s : State} (hs : s.sound = true) (e : LineEvent) (n : ℕ)  :
    (State.lineEvent s e n).sound = true := by
  unfold State.lineEvent
  split
  · extract_lets r s1 s2
    have hr : r.1.sound = true := by simp only [r]; simp +contextual (maxDischargeDepth := 40) [*]
    clear_value r
    have h_s1 : s1.sound = true := by simp only [s1]; repeat' first | (simp +contextual (maxDischargeDepth := 40) [*]; done) | split | dsimp only | (refine State.forEach_sound ?_ _ _ (fun _ _ _ => ?_)) | (refine State.onlyIf_sound ?_ _ _ (fun _ _ => ?_))
    clear_value s1
    have h_s2 : s2.sound = true := by simp only [s2]; repeat' first | (simp +contextual (maxDischargeDepth := 40) [*]; done) | split | dsimp only | (refine State.forEach_sound ?_ _ _ (fun _ _ _ => ?_)) | (refine State.onlyIf_sound ?_ _ _ (fun _ _ => ?_))
    clear_value s2
    repeat' first | (simp +contextual (maxDischargeDepth := 40) [*]; done) | split | dsimp only | (refine State.forEach_sound ?_ _ _ (fun _ _ _ => ?_)) | (refine State.onlyIf_sound ?_ _ _ (fun _ _ => ?_))
  · exact hs

@[simp] theorem State.deliverEvent_sound {s : State} (hs : s.sound = true) (e : LineEvent)  :
    (State.deliverEvent s e).sound = true := by
  unfold State.deliverEvent; repeat' first | (simp +contextual (maxDischargeDepth := 40) [*]; done) | split | dsimp only | (refine State.forEach_sound ?_ _ _ (fun _ _ _ => ?_)) | (refine State.onlyIf_sound ?_ _ _ (fun _ _ => ?_))

theorem execTriggerLineEvent_sound {s : State} (hs : s.sound = true) (e : LineEvent)  :
    ∀ u, execTriggerLineEvent e s = .next u → u.sound = true := by
  intro u ht; unfold execTriggerLineEvent at ht
  refine guarded_sound (fun s hs => ?_) hs ht
  repeat' first | (simp +contextual (maxDischargeDepth := 40) [*]; done) | split | dsimp only | (refine State.forEach_sound ?_ _ _ (fun _ _ _ => ?_)) | (refine State.onlyIf_sound ?_ _ _ (fun _ _ => ?_))

@[simp] theorem State.subscriberStamp_sound {s : State} (hs : s.sound = true) (i : ℕ) (st : Stamp) (sub : ℕ × ℕ)  :
    (State.subscriberStamp s i st sub).sound = true := by
  unfold State.subscriberStamp; repeat' first | (simp +contextual (maxDischargeDepth := 40) [*]; done) | split | dsimp only | (refine State.forEach_sound ?_ _ _ (fun _ _ _ => ?_)) | (refine State.onlyIf_sound ?_ _ _ (fun _ _ => ?_))

@[simp] theorem State.handout_sound {s : State} (hs : s.sound = true) (i : ℕ)  :
    (State.handout s i).sound = true := by
  unfold State.handout; repeat' first | (simp +contextual (maxDischargeDepth := 40) [*]; done) | split | dsimp only | (refine State.forEach_sound ?_ _ _ (fun _ _ _ => ?_)) | (refine State.onlyIf_sound ?_ _ _ (fun _ _ => ?_))

theorem execFifoHandout_sound {s : State} (hs : s.sound = true) (i : ℕ)  :
    ∀ u, execFifoHandout i s = .next u → u.sound = true := by
  intro u ht; unfold execFifoHandout at ht
  refine guarded_sound (fun s hs => ?_) hs ht
  repeat' first | (simp +contextual (maxDischargeDepth := 40) [*]; done) | split | dsimp only | (refine State.forEach_sound ?_ _ _ (fun _ _ _ => ?_)) | (refine State.onlyIf_sound ?_ _ _ (fun _ _ => ?_))

@[simp] theorem State.queueWrite_sound {s : State} (hs : s.sound = true) (d : Disp)  :
    (State.queueWrite s d).1.sound = true := by
  unfold State.queueWrite; simp +contextual (maxDischargeDepth := 40) [*]

theorem execRegWrite32_sound {s : State} (hs : s.sound = true)  :
    ∀ u, execRegWrite32 s = .next u → u.sound = true := by
  intro u ht; unfold execRegWrite32 at ht
  refine guarded_sound (fun s hs => ?_) hs ht
  repeat' first | (simp +contextual (maxDischargeDepth := 40) [*]; done) | split | dsimp only | (refine State.forEach_sound ?_ _ _ (fun _ _ _ => ?_)) | (refine State.onlyIf_sound ?_ _ _ (fun _ _ => ?_))

theorem execSnapshotTimeout_sound {s : State} (hs : s.sound = true)  :
    ∀ u, execSnapshotTimeout s = .next u → u.sound = true := by
  intro u ht; unfold execSnapshotTimeout at ht
  refine guarded_sound (fun s hs => ?_) hs ht
  repeat' first | (simp +contextual (maxDischargeDepth := 40) [*]; done) | split | dsimp only | (refine State.forEach_sound ?_ _ _ (fun _ _ _ => ?_)) | (refine State.onlyIf_sound ?_ _ _ (fun _ _ => ?_))

end Sys2Proof.Machine
end

