-- ==== Sys2Proof/Laws/SoundDue.lean ====
section
/-! SUPPORT. The operations of Due keep the form of a state. -/

namespace Sys2Proof.Machine

set_option linter.unusedTactic false
set_option linter.unreachableTactic false

@[simp] theorem State.freezeEdge_sound {s : State} (hs : s.sound = true)  :
    (State.freezeEdge s).sound = true := by
  unfold State.freezeEdge; repeat' first | (simp +contextual (maxDischargeDepth := 40) [*]; done) | split | dsimp only | (refine State.forEach_sound ?_ _ _ (fun _ _ _ => ?_)) | (refine State.onlyIf_sound ?_ _ _ (fun _ _ => ?_))

@[simp] theorem State.clockEdge_sound {s : State} (hs : s.sound = true)  :
    (State.clockEdge s).sound = true := by
  unfold State.clockEdge; simp +contextual (maxDischargeDepth := 40) [*]

@[simp] theorem State.quadSlot_sound {s : State} (hs : s.sound = true) (q : ℕ)  :
    (State.quadSlot s q).sound = true := by
  unfold State.quadSlot; repeat' first | (simp +contextual (maxDischargeDepth := 40) [*]; done) | split | dsimp only | (refine State.forEach_sound ?_ _ _ (fun _ _ _ => ?_)) | (refine State.onlyIf_sound ?_ _ _ (fun _ _ => ?_))

@[simp] theorem State.coreSlot_sound {s : State} (hs : s.sound = true)  :
    (State.coreSlot s).sound = true := by
  unfold State.coreSlot
  extract_lets s1
  have h_s1 : s1.sound = true := by simp only [s1]; repeat' first | (simp +contextual (maxDischargeDepth := 40) [*]; done) | split | dsimp only | (refine State.forEach_sound ?_ _ _ (fun _ _ _ => ?_)) | (refine State.onlyIf_sound ?_ _ _ (fun _ _ => ?_))
  clear_value s1
  repeat' first | (simp +contextual (maxDischargeDepth := 40) [*]; done) | split | dsimp only | (refine State.forEach_sound ?_ _ _ (fun _ _ _ => ?_)) | (refine State.onlyIf_sound ?_ _ _ (fun _ _ => ?_))

theorem State.passSlot_sound {s : State} (hs : s.sound = true)  :
    ∀ u, State.passSlot s = .next u → u.sound = true := by
  intro u h
  unfold State.passSlot at h
  split at h
  · cases h
  · cases h; simp +contextual (maxDischargeDepth := 40) [*]

theorem State.emptyQueue_sound {s : State} (hs : s.sound = true)  :
    ∀ u, State.emptyQueue s = .next u → u.sound = true := by
  intro u h
  unfold State.emptyQueue at h
  split at h
  · exact State.passSlot_sound hs u h
  · cases h; exact State.sound_mk.2 (State.sound_parts hs)

end Sys2Proof.Machine
end

