-- ==== Sys2Proof/Laws/Regs.lean ====
section
/-! SUPPORT. The laws of the register file: a word written is read there, other words stand, a field written reads back, and a
write of a register touches no other part of the state. -/

namespace Sys2Proof.Machine

theorem regKey_inj {p q o r : Nat} (ho : o < 4096) (hr : r < 4096) : regKey p o = regKey q r ↔ p = q ∧ o = r := by
  unfold regKey; omega

@[simp] theorem State.rd_wr_self (s : State) (p o : Nat) (v : Word) : (s.wr p o v).rd p o = v := by
  simp [State.rd, State.wr]

theorem State.rd_wr_of_ne (s : State) (p o q r : Nat) (v : Word) (h : regKey q r ≠ regKey p o) : (s.wr p o v).rd q r = s.rd q r := by
  simp [State.rd, State.wr, sparseGet_set_ne _ _ _ _ h]

/-- A word of another place stands. -/
theorem State.rd_wr_ne (s : State) (p o q r : Nat) (v : Word) (ho : o < 4096) (hr : r < 4096) (h : q ≠ p ∨ r ≠ o) :
    (s.wr p o v).rd q r = s.rd q r := by
  apply s.rd_wr_of_ne
  rw [Ne, regKey_inj hr ho]
  tauto

/-- A word of another page stands. -/
@[simp] theorem State.rd_wr_page (s : State) (p o q r : Nat) (v : Word) (ho : o < 4096) (hr : r < 4096) (h : q ≠ p) :
    (s.wr p o v).rd q r = s.rd q r := s.rd_wr_ne p o q r v ho hr (.inl h)

/-- A word at another offset stands. -/
@[simp] theorem State.rd_wr_off (s : State) (p o r : Nat) (v : Word) (h : r ≠ o) : (s.wr p o v).rd p r = s.rd p r := by
  apply s.rd_wr_of_ne
  unfold regKey; omega

/-- A write of a register word is an update of the register file alone. -/
theorem State.wr_eq (s : State) (p o : Nat) (v : Word) : s.wr p o v = { s with regs := (s.wr p o v).regs } := rfl

theorem State.wrN_eq (s : State) (p o n v : Nat) : s.wrN p o n v = { s with regs := (s.wrN p o n v).regs } := by
  induction n generalizing s o v with
  | zero => rfl
  | succ n ih => simp only [State.wrN]; rw [ih]; rfl

theorem State.put_eq (s : State) (p : Nat) (f : Fld) (v : Nat) : s.put p f v = { s with regs := (s.put p f v).regs } := by
  unfold State.put
  split
  · rfl
  · exact State.wrN_eq ..

theorem State.rd_wrN_of_lt (s : State) (p o n v q r : Nat) (h : ∀ k < n, regKey q r ≠ regKey p (o + 4 * k)) :
    (s.wrN p o n v).rd q r = s.rd q r := by
  induction n generalizing s o v with
  | zero => rfl
  | succ n ih =>
    simp only [State.wrN]
    rw [ih]
    · exact s.rd_wr_of_ne _ _ _ _ _ (by simpa using h 0 (by omega))
    · intro k hk
      have := h (k + 1) (by omega)
      rwa [show o + 4 * (k + 1) = o + 4 + 4 * k by ring] at this

end Sys2Proof.Machine
end

