-- ==== Sys2Proof/Laws/Frame.lean ====
section
/-! SUPPORT. What a meaning answers, and what it is for a state to hold a BAR2 and a queue of waiting commands. -/

namespace Sys2Proof.Machine

set_option linter.unusedTactic false
set_option linter.unreachableTactic false

/-- What a meaning answers: its effect, on operands inside their ranges. -/
theorem guarded_next {i : Instr} {s t : State} {k : State → State} (h : guarded i s k = .next t) : t = if i.wf then k s else s := by
  cases h; rfl

/-- On operands inside their ranges a meaning answers its effect. -/
theorem guarded_of_wf {i : Instr} (s : State) (k : State → State) (h : i.wf = true) : guarded i s k = .next (k s) := by
  simp [guarded, h]

/-- The state holds the contents B of BAR2, and the commands L wait. -/
def State.holds (B : List Host.Cell) (L : List Instr) (s : State) : Prop := s.bar2 = B ∧ s.pending = L

theorem State.holds_self (s : State) : s.holds s.bar2 s.pending := ⟨rfl, rfl⟩

@[simp] theorem State.holds_mk {a1 a2 a3 a4 a5 a6 a7 a8 a9 a10 a11 a12 a13 a14 a15 a16 a17 a18 a19 a20 a21 a22 a23 a24 a25 a26 a27 a28 a29 a30
    a31 a32 a33 a34 a35 B L} :
    (State.mk a1 a2 a3 a4 a5 a6 a7 a8 a9 a10 a11 a12 a13 a14 a15 a16 a17 a18 a19 a20 a21 a22 a23 a24 a25 a26 a27 a28 a29 a30 a31
      a32 a33 a34 a35).holds B L ↔ a34 = B ∧ a35 = L := Iff.rfl

@[simp] theorem State.holds_iff (s : State) (B : List Host.Cell) (L : List Instr) : (s.bar2 = B ∧ s.pending = L) ↔ s.holds B L := Iff.rfl

section
variable {B : List Host.Cell} {L : List Instr}

@[simp] theorem holds_ite {c : Prop} {_ : Decidable c} {s t : State} (hs : s.holds B L) (ht : t.holds B L) :
    (if c then s else t).holds B L := by split <;> assumption

@[simp] theorem holds_fst_ite {α : Type} {c : Prop} {_ : Decidable c} {s t : State × α} (hs : s.1.holds B L) (ht : t.1.holds B L) :
    (if c then s else t).1.holds B L := by split <;> assumption

@[simp] theorem holds_snd_ite {α : Type} {c : Prop} {_ : Decidable c} {s t : α × State} (hs : s.2.holds B L) (ht : t.2.holds B L) :
    (if c then s else t).2.holds B L := by split <;> assumption

theorem guarded_holds {i : Instr} {s t : State} {k : State → State} (hk : ∀ s, s.holds B L → (k s).holds B L) (hs : s.holds B L)
    (h : guarded i s k = .next t) : t.holds B L := by
  rw [guarded_next h]
  split
  · exact hk s hs
  · exact hs

end

end Sys2Proof.Machine
end

