-- ==== Sys2Proof/Laws/FrameOps.lean ====
section
/-! SUPPORT. The operations of Ops leave BAR2 and the queue of waiting commands alone. -/

namespace Sys2Proof.Machine

set_option linter.unusedTactic false
set_option linter.unreachableTactic false

@[simp] theorem State.wr_holds {B : List Host.Cell} {L : List Instr} {s : State} (hs : s.holds B L) (p : ℕ) (o : ℕ) (v : Word)  :
    (State.wr s p o v).holds B L := by
  exact hs

@[simp] theorem State.wrN_holds {B : List Host.Cell} {L : List Instr} {s : State} (hs : s.holds B L) (p o n v : Nat) : (s.wrN p o n v).holds B L := by
  induction n generalizing s o v with
  | zero => exact hs
  | succ n ih => exact ih (State.wr_holds hs _ _ _) _ _

@[simp] theorem State.put_holds {B : List Host.Cell} {L : List Instr} {s : State} (hs : s.holds B L) (p : ℕ) (f : Fld) (v : ℕ)  :
    (State.put s p f v).holds B L := by
  unfold State.put; simp +contextual (maxDischargeDepth := 40) [*]

@[simp] theorem State.putFlag_holds {B : List Host.Cell} {L : List Instr} {s : State} (hs : s.holds B L) (p : ℕ) (f : Fld) (b : Bool)  :
    (State.putFlag s p f b).holds B L := by
  unfold State.putFlag; simp +contextual (maxDischargeDepth := 40) [*]

@[simp] theorem State.putI_holds {B : List Host.Cell} {L : List Instr} {s : State} (hs : s.holds B L) (p : ℕ) (f : Fld) (v : ℤ)  :
    (State.putI s p f v).holds B L := by
  unfold State.putI; simp +contextual (maxDischargeDepth := 40) [*]

@[simp] theorem State.incSat_holds {B : List Host.Cell} {L : List Instr} {s : State} (hs : s.holds B L) (p : ℕ) (f : Fld) (n : optParam ℕ 1)  :
    (State.incSat s p f n).holds B L := by
  unfold State.incSat; simp +contextual (maxDischargeDepth := 40) [*]

@[simp] theorem State.incWrap_holds {B : List Host.Cell} {L : List Instr} {s : State} (hs : s.holds B L) (p : ℕ) (f : Fld) (n : optParam ℕ 1)  :
    (State.incWrap s p f n).holds B L := by
  unfold State.incWrap; simp +contextual (maxDischargeDepth := 40) [*]

@[simp] theorem State.emit_holds {B : List Host.Cell} {L : List Instr} {s : State} (hs : s.holds B L) (o : Out)  :
    (State.emit s o).holds B L := by
  unfold State.emit; simp +contextual (maxDischargeDepth := 40) [*]

@[simp] theorem State.forEach_holds {α : Type} {B : List Host.Cell} {L : List Instr} {s : State} (hs : s.holds B L) (l : List α) (f : α → State → State)
    (hf : ∀ a s, s.holds B L → (f a s).holds B L) : (s.forEach l f).holds B L :=
  foldl_keeps (fun s : State => s.holds B L) _ (fun _ _ h => hf _ _ h) l s hs

@[simp] theorem State.onlyIf_holds {B : List Host.Cell} {L : List Instr} {s : State} (hs : s.holds B L) (c : Bool) (f : State → State) (hf : ∀ s, s.holds B L → (f s).holds B L) :
    (State.onlyIf s c f).holds B L := by
  unfold State.onlyIf; simp +contextual (maxDischargeDepth := 40) [*]

@[simp] theorem State.free_holds {B : List Host.Cell} {L : List Instr} {s : State} (hs : s.holds B L)  :
    (State.free s).2.holds B L := by
  unfold State.free; simp +contextual (maxDischargeDepth := 40) [*]

@[simp] theorem State.setQuad_holds {B : List Host.Cell} {L : List Instr} {s : State} (hs : s.holds B L) (q : ℕ) (x : QuadSt)  :
    (State.setQuad s q x).holds B L := by
  unfold State.setQuad; simp +contextual (maxDischargeDepth := 40) [*]

@[simp] theorem State.setChan_holds {B : List Host.Cell} {L : List Instr} {s : State} (hs : s.holds B L) (c : ℕ) (x : ChanSt)  :
    (State.setChan s c x).holds B L := by
  unfold State.setChan; simp +contextual (maxDischargeDepth := 40) [*]

@[simp] theorem State.setLine_holds {B : List Host.Cell} {L : List Instr} {s : State} (hs : s.holds B L) (n : ℕ) (x : LineSt)  :
    (State.setLine s n x).holds B L := by
  unfold State.setLine; simp +contextual (maxDischargeDepth := 40) [*]

@[simp] theorem State.setRing_holds {B : List Host.Cell} {L : List Instr} {s : State} (hs : s.holds B L) (r : ℕ) (x : RingSt)  :
    (State.setRing s r x).holds B L := by
  unfold State.setRing; simp +contextual (maxDischargeDepth := 40) [*]

@[simp] theorem State.inCore_holds {B : List Host.Cell} {L : List Instr} {s : State} (hs : s.holds B L) (f : State → State) (hf : ∀ s, s.holds B L → (f s).holds B L) :
    (State.inCore s f).holds B L := by
  unfold State.inCore; simp +contextual (maxDischargeDepth := 40) [*]

@[simp] theorem State.post_holds {B : List Host.Cell} {L : List Instr} {s : State} (hs : s.holds B L) (e : LineEvent)  :
    (State.post s e).holds B L := by
  unfold State.post; simp +contextual (maxDischargeDepth := 40) [*]

end Sys2Proof.Machine
end

