-- ==== Sys2Proof/Laws/FrameOperands.lean ====
section
/-! SUPPORT. The operations of Operands leave BAR2 and the queue of waiting commands alone. -/

namespace Sys2Proof.Machine

set_option linter.unusedTactic false
set_option linter.unreachableTactic false

@[simp] theorem State.putInst_holds {B : List Host.Cell} {L : List Instr} {s : State} (hs : s.holds B L) (p : ℕ) (f : Fld) (t : ℤ)  :
    (State.putInst s p f t).holds B L := by
  unfold State.putInst; simp +contextual (maxDischargeDepth := 40) [*]

@[simp] theorem State.putSpan_holds {B : List Host.Cell} {L : List Instr} {s : State} (hs : s.holds B L) (p : ℕ) (f : Fld) (i : ℤ)  :
    (State.putSpan s p f i).holds B L := by
  unfold State.putSpan; simp +contextual (maxDischargeDepth := 40) [*]

@[simp] theorem accept_holds {B : List Host.Cell} {L : List Instr} {s : State} (hs : s.holds B L)  :
    (accept s).1.holds B L := by
  unfold accept; simp +contextual (maxDischargeDepth := 40) [*]

@[simp] theorem refuse_holds {B : List Host.Cell} {L : List Instr} {s : State} (hs : s.holds B L) (r : Res)  :
    (refuse s r).1.holds B L := by
  unfold refuse; simp +contextual (maxDischargeDepth := 40) [*]

@[simp] theorem State.setOwner_holds {B : List Host.Cell} {L : List Instr} {s : State} (hs : s.holds B L) (code : ℕ) (idx : ℕ) (agent : ℕ)  :
    (State.setOwner s code idx agent).holds B L := by
  unfold State.setOwner; repeat' first | (simp +contextual (maxDischargeDepth := 40) [*]; done) | split | dsimp only | (refine State.forEach_holds ?_ _ _ (fun _ _ _ => ?_)) | (refine State.onlyIf_holds ?_ _ _ (fun _ _ => ?_))

end Sys2Proof.Machine
end

