-- ==== Sys2Proof/Laws/FrameFlags.lean ====
section
/-! SUPPORT. The operations of Flags leave BAR2 and the queue of waiting commands alone. -/

namespace Sys2Proof.Machine

set_option linter.unusedTactic false
set_option linter.unreachableTactic false

@[simp] theorem State.sendMsix_holds {B : List Host.Cell} {L : List Instr} {s : State} (hs : s.holds B L) (v : ℕ)  :
    (State.sendMsix s v).holds B L := by
  unfold State.sendMsix; simp +contextual (maxDischargeDepth := 40) [*]

@[simp] theorem State.resend_holds {B : List Host.Cell} {L : List Instr} {s : State} (hs : s.holds B L) (v : ℕ)  :
    (State.resend s v).holds B L := by
  unfold State.resend; simp +contextual (maxDischargeDepth := 40) [*]

@[simp] theorem State.irq_holds {B : List Host.Cell} {L : List Instr} {s : State} (hs : s.holds B L) (p : ℕ) (bit : ℕ)  :
    (State.irq s p bit).holds B L := by
  unfold State.irq; simp +contextual (maxDischargeDepth := 40) [*]

@[simp] theorem State.err_holds {B : List Host.Cell} {L : List Instr} {s : State} (hs : s.holds B L) (p : ℕ) (bit : ℕ)  :
    (State.err s p bit).holds B L := by
  unfold State.err; repeat' first | (simp +contextual (maxDischargeDepth := 40) [*]; done) | split | dsimp only | (refine State.forEach_holds ?_ _ _ (fun _ _ _ => ?_)) | (refine State.onlyIf_holds ?_ _ _ (fun _ _ => ?_))

@[simp] theorem State.ringPut_holds {B : List Host.Cell} {L : List Instr} {s : State} (hs : s.holds B L) (r : ℕ) (elem : ℕ)  :
    (State.ringPut s r elem).holds B L := by
  unfold State.ringPut; simp +contextual (maxDischargeDepth := 40) [*]

@[simp] theorem State.ringWriteback_holds {B : List Host.Cell} {L : List Instr} {s : State} (hs : s.holds B L) (r : ℕ)  :
    (State.ringWriteback s r).holds B L := by
  unfold State.ringWriteback; simp +contextual (maxDischargeDepth := 40) [*]

@[simp] theorem State.ringNotify_holds {B : List Host.Cell} {L : List Instr} {s : State} (hs : s.holds B L) (r : ℕ)  :
    (State.ringNotify s r).holds B L := by
  unfold State.ringNotify; simp +contextual (maxDischargeDepth := 40) [*]

@[simp] theorem State.ringRecord_holds {B : List Host.Cell} {L : List Instr} {s : State} (hs : s.holds B L) (r : ℕ) (rec : List ℕ)  :
    (State.ringRecord s r rec).holds B L := by
  unfold State.ringRecord; simp +contextual (maxDischargeDepth := 40) [*]

@[simp] theorem State.ringDrain_holds {B : List Host.Cell} {L : List Instr} {s : State} (hs : s.holds B L) (k r : Nat) : (State.ringDrain k r s).holds B L := by
  induction k generalizing s with
  | zero => exact hs
  | succ k ih =>
    unfold State.ringDrain
    split
    · exact hs
    · split
      · exact hs
      · exact ih (by simp +contextual (maxDischargeDepth := 40) [*])

@[simp] theorem State.event_holds {B : List Host.Cell} {L : List Instr} {s : State} (hs : s.holds B L) (cls : ℕ) (rec : List ℕ)  :
    (State.event s cls rec).holds B L := by
  unfold State.event; repeat' first | (simp +contextual (maxDischargeDepth := 40) [*]; done) | split | dsimp only | (refine State.forEach_holds ?_ _ _ (fun _ _ _ => ?_)) | (refine State.onlyIf_holds ?_ _ _ (fun _ _ => ?_))

end Sys2Proof.Machine
end

