-- ==== Sys2Proof/Laws/FramePlace.lean ====
section
/-! SUPPORT. The operations of Place leave BAR2 and the queue of waiting commands alone. -/

namespace Sys2Proof.Machine

set_option linter.unusedTactic false
set_option linter.unreachableTactic false

@[simp] theorem State.putTerms_holds {B : List Host.Cell} {L : List Instr} {s : State} (hs : s.holds B L) (l : List (ℕ × ℕ × ℕ))  :
    (State.putTerms s l).holds B L := by
  unfold State.putTerms; simp +contextual (maxDischargeDepth := 40) [*]

@[simp] theorem State.putForm_holds {B : List Host.Cell} {L : List Instr} {s : State} (hs : s.holds B L) (p : ℕ) (rise : Fld) (fall : Fld) (t : Option FormTerm)  :
    (State.putForm s p rise fall t).holds B L := by
  unfold State.putForm; repeat' first | (simp +contextual (maxDischargeDepth := 40) [*]; done) | split | dsimp only | (refine State.forEach_holds ?_ _ _ (fun _ _ _ => ?_)) | (refine State.onlyIf_holds ?_ _ _ (fun _ _ => ?_))

@[simp] theorem State.laneForm_holds {B : List Host.Cell} {L : List Instr} {s : State} (hs : s.holds B L) (c : ℕ)  :
    (State.laneForm s c).holds B L := by
  unfold State.laneForm; simp +contextual (maxDischargeDepth := 40) [*]

@[simp] theorem State.loopForm_holds {B : List Host.Cell} {L : List Instr} {s : State} (hs : s.holds B L)  :
    (State.loopForm s).holds B L := by
  unfold State.loopForm; simp +contextual (maxDischargeDepth := 40) [*]

@[simp] theorem State.inputForm_holds {B : List Host.Cell} {L : List Instr} {s : State} (hs : s.holds B L) (i : ℕ)  :
    (State.inputForm s i).holds B L := by
  unfold State.inputForm; simp +contextual (maxDischargeDepth := 40) [*]

@[simp] theorem State.putForms_holds {B : List Host.Cell} {L : List Instr} {s : State} (hs : s.holds B L)  :
    (State.putForms s).holds B L := by
  unfold State.putForms; simp +contextual (maxDischargeDepth := 40) [*]

end Sys2Proof.Machine
end

