-- ==== Sys2Proof/Laws/FrameApll.lean ====
section
/-! SUPPORT. The operations of Apll leave BAR2 and the queue of waiting commands alone. -/

namespace Sys2Proof.Machine

set_option linter.unusedTactic false
set_option linter.unreachableTactic false

@[simp] theorem State.apllaSlot_holds {B : List Host.Cell} {L : List Instr} {s : State} (hs : s.holds B L)  :
    (State.apllaSlot s).holds B L := by
  unfold State.apllaSlot; simp +contextual (maxDischargeDepth := 40) [*]

@[simp] theorem State.apllaUnlock_holds {B : List Host.Cell} {L : List Instr} {s : State} (hs : s.holds B L)  :
    (State.apllaUnlock s).holds B L := by
  unfold State.apllaUnlock; simp +contextual (maxDischargeDepth := 40) [*]

@[simp] theorem State.apllaRefGone_holds {B : List Host.Cell} {L : List Instr} {s : State} (hs : s.holds B L) (c : ℕ)  :
    (State.apllaRefGone s c).holds B L := by
  unfold State.apllaRefGone; simp +contextual (maxDischargeDepth := 40) [*]

end Sys2Proof.Machine
end

