-- ==== Sys2Proof/Laws/FrameChan.lean ====
section
/-! SUPPORT. The operations of Chan leave BAR2 and the queue of waiting commands alone. -/

namespace Sys2Proof.Machine

set_option linter.unusedTactic false
set_option linter.unreachableTactic false

@[simp] theorem State.queueEdge_holds {B : List Host.Cell} {L : List Instr} {s : State} (hs : s.holds B L) (c : ℕ) (e : Edge)  :
    (State.queueEdge s c e).holds B L := by
  unfold State.queueEdge; simp +contextual (maxDischargeDepth := 40) [*]

@[simp] theorem State.desync_holds {B : List Host.Cell} {L : List Instr} {s : State} (hs : s.holds B L) (c : ℕ) (e : Edge)  :
    (State.desync s c e).holds B L := by
  unfold State.desync; simp +contextual (maxDischargeDepth := 40) [*]

@[simp] theorem State.copyToMirrors_holds {B : List Host.Cell} {L : List Instr} {s : State} (hs : s.holds B L) (c : ℕ) (e : Edge) (high : Bool)  :
    (State.copyToMirrors s c e high).holds B L := by
  unfold State.copyToMirrors; simp +contextual (maxDischargeDepth := 40) [*]

@[simp] theorem State.pushEdge_holds {B : List Host.Cell} {L : List Instr} {s : State} (hs : s.holds B L) (c : ℕ) (e : Edge)  :
    (State.pushEdge s c e).holds B L := by
  unfold State.pushEdge; repeat' first | (simp +contextual (maxDischargeDepth := 40) [*]; done) | split | dsimp only | (refine State.forEach_holds ?_ _ _ (fun _ _ _ => ?_)) | (refine State.onlyIf_holds ?_ _ _ (fun _ _ => ?_))

@[simp] theorem State.pushPulseFrom_holds {B : List Host.Cell} {L : List Instr} {s : State} (hs : s.holds B L) (c : ℕ) (i : Bool) (t32 : ℤ) (width32 : ℤ) (origin : EdgeOrigin) (lead : EdgeBasis) (trail : EdgeBasis)  :
    (State.pushPulseFrom s c i t32 width32 origin lead trail).holds B L := by
  unfold State.pushPulseFrom; simp +contextual (maxDischargeDepth := 40) [*]

@[simp] theorem State.pushPulse_holds {B : List Host.Cell} {L : List Instr} {s : State} (hs : s.holds B L) (c : ℕ) (t32 : ℤ) (width32 : ℤ) (origin : EdgeOrigin) (basis : EdgeBasis)  :
    (State.pushPulse s c t32 width32 origin basis).holds B L := by
  unfold State.pushPulse; simp +contextual (maxDischargeDepth := 40) [*]

@[simp] theorem State.calTurn_holds {B : List Host.Cell} {L : List Instr} {s : State} (hs : s.holds B L) (c : ℕ)  :
    (State.calTurn s c).holds B L := by
  unfold State.calTurn; repeat' first | (simp +contextual (maxDischargeDepth := 40) [*]; done) | split | dsimp only | (refine State.forEach_holds ?_ _ _ (fun _ _ _ => ?_)) | (refine State.onlyIf_holds ?_ _ _ (fun _ _ => ?_))

@[simp] theorem State.nextClock_holds {B : List Host.Cell} {L : List Instr} {s : State} (hs : s.holds B L) (c : ℕ)  :
    (State.nextClock s c).holds B L := by
  unfold State.nextClock; repeat' first | (simp +contextual (maxDischargeDepth := 40) [*]; done) | split | dsimp only | (refine State.forEach_holds ?_ _ _ (fun _ _ _ => ?_)) | (refine State.onlyIf_holds ?_ _ _ (fun _ _ => ?_))

@[simp] theorem State.mirrorGrid_holds {B : List Host.Cell} {L : List Instr} {s : State} (hs : s.holds B L) (m : ℕ) (lim : ℤ)  :
    (State.mirrorGrid s m lim).holds B L := by
  unfold State.mirrorGrid; repeat' first | (simp +contextual (maxDischargeDepth := 40) [*]; done) | split | dsimp only | (refine State.forEach_holds ?_ _ _ (fun _ _ _ => ?_)) | (refine State.onlyIf_holds ?_ _ _ (fun _ _ => ?_))

@[simp] theorem State.mirrorStop_holds {B : List Host.Cell} {L : List Instr} {s : State} (hs : s.holds B L) (m : ℕ) (end32 : ℤ)  :
    (State.mirrorStop s m end32).holds B L := by
  unfold State.mirrorStop
  split
  · exact hs
  · extract_lets s1 late
    have h1 : s1.holds B L := by simp only [s1]; repeat' first | (simp +contextual (maxDischargeDepth := 40) [*]; done) | split | dsimp only | (refine State.forEach_holds ?_ _ _ (fun _ _ _ => ?_)) | (refine State.onlyIf_holds ?_ _ _ (fun _ _ => ?_))
    clear_value s1 late
    repeat' first | (simp +contextual (maxDischargeDepth := 40) [*]; done) | split | dsimp only | (refine State.forEach_holds ?_ _ _ (fun _ _ _ => ?_)) | (refine State.onlyIf_holds ?_ _ _ (fun _ _ => ?_))

@[simp] theorem State.mirrorsStop_holds {B : List Host.Cell} {L : List Instr} {s : State} (hs : s.holds B L) (c : ℕ)  :
    (State.mirrorsStop s c).holds B L := by
  unfold State.mirrorsStop; repeat' first | (simp +contextual (maxDischargeDepth := 40) [*]; done) | split | dsimp only | (refine State.forEach_holds ?_ _ _ (fun _ _ _ => ?_)) | (refine State.onlyIf_holds ?_ _ _ (fun _ _ => ?_))

@[simp] theorem State.mirrorsStart_holds {B : List Host.Cell} {L : List Instr} {s : State} (hs : s.holds B L) (c : ℕ)  :
    (State.mirrorsStart s c).holds B L := by
  unfold State.mirrorsStart; simp +contextual (maxDischargeDepth := 40) [*]

@[simp] theorem State.startGrid_holds {B : List Host.Cell} {L : List Instr} {s : State} (hs : s.holds B L) (c : ℕ) (lim : ℤ)  :
    (State.startGrid s c lim).holds B L := by
  unfold State.startGrid; repeat' first | (simp +contextual (maxDischargeDepth := 40) [*]; done) | split | dsimp only | (refine State.forEach_holds ?_ _ _ (fun _ _ _ => ?_)) | (refine State.onlyIf_holds ?_ _ _ (fun _ _ => ?_))

@[simp] theorem State.restEdge_holds {B : List Host.Cell} {L : List Instr} {s : State} (hs : s.holds B L) (c : ℕ) (t32 : ℤ)  :
    (State.restEdge s c t32).holds B L := by
  unfold State.restEdge; repeat' first | (simp +contextual (maxDischargeDepth := 40) [*]; done) | split | dsimp only | (refine State.forEach_holds ?_ _ _ (fun _ _ _ => ?_)) | (refine State.onlyIf_holds ?_ _ _ (fun _ _ => ?_))

@[simp] theorem State.schedLost_holds {B : List Host.Cell} {L : List Instr} {s : State} (hs : s.holds B L) (c : ℕ)  :
    (State.schedLost s c).holds B L := by
  unfold State.schedLost; simp +contextual (maxDischargeDepth := 40) [*]

@[simp] theorem State.schedMove_holds {B : List Host.Cell} {L : List Instr} {s : State} (hs : s.holds B L) (c : ℕ) (t32 : ℤ) (d32 : ℤ)  :
    (State.schedMove s c t32 d32).holds B L := by
  unfold State.schedMove; simp +contextual (maxDischargeDepth := 40) [*]

@[simp] theorem State.chanEntry_holds {B : List Host.Cell} {L : List Instr} {s0 : State} (hs0 : s0.holds B L) (c : ℕ) (ahead : ℕ)  :
    (State.chanEntry s0 c ahead).holds B L := by
  unfold State.chanEntry; simp +contextual (maxDischargeDepth := 40) [*]

@[simp] theorem State.chanSettle_holds {B : List Host.Cell} {L : List Instr} {s : State} {old : State} (hs : s.holds B L) (hold : old.holds B L) (c : ℕ)  :
    (State.chanSettle s c old).holds B L := by
  unfold State.chanSettle; simp +contextual (maxDischargeDepth := 40) [*]

@[simp] theorem State.chanCommit_holds {B : List Host.Cell} {L : List Instr} {s : State} {old : State} (hs : s.holds B L) (hold : old.holds B L) (c : ℕ) (modeWritten : Bool) (ahead : ℕ)  :
    (State.chanCommit s c old modeWritten ahead).holds B L := by
  unfold State.chanCommit; simp +contextual (maxDischargeDepth := 40) [*]

@[simp] theorem State.loopBack_holds {B : List Host.Cell} {L : List Instr} {s : State} (hs : s.holds B L) (c : ℕ) (rising : Bool) (pos : ℤ)  :
    (State.loopBack s c rising pos).holds B L := by
  unfold State.loopBack; simp +contextual (maxDischargeDepth := 40) [*]

@[simp] theorem State.chanSafe_holds {B : List Host.Cell} {L : List Instr} {s0 : State} (hs0 : s0.holds B L) (c : ℕ) (cause : SafeCause)  :
    (State.chanSafe s0 c cause).holds B L := by
  unfold State.chanSafe; simp +contextual (maxDischargeDepth := 40) [*]

@[simp] theorem State.chanSafeExit_holds {B : List Host.Cell} {L : List Instr} {s : State} (hs : s.holds B L) (c : ℕ)  :
    (State.chanSafeExit s c).holds B L := by
  unfold State.chanSafeExit; simp +contextual (maxDischargeDepth := 40) [*]

@[simp] theorem State.ignoreEvent_holds {B : List Host.Cell} {L : List Instr} {s : State} (hs : s.holds B L) (c : ℕ)  :
    (State.ignoreEvent s c).holds B L := by
  unfold State.ignoreEvent; simp +contextual (maxDischargeDepth := 40) [*]

@[simp] theorem State.acceptEvent_holds {B : List Host.Cell} {L : List Instr} {s : State} (hs : s.holds B L) (c : ℕ) (t : ℕ) (teb : ℕ) (set : ChanSettings)  :
    (State.acceptEvent s c t teb set).holds B L := by
  unfold State.acceptEvent; simp +contextual (maxDischargeDepth := 40) [*]

@[simp] theorem State.cancelResponses_holds {B : List Host.Cell} {L : List Instr} {s : State} (hs : s.holds B L) (c : ℕ)  :
    (State.cancelResponses s c).holds B L := by
  unfold State.cancelResponses; simp +contextual (maxDischargeDepth := 40) [*]

@[simp] theorem State.answer_holds {B : List Host.Cell} {L : List Instr} {s : State} (hs : s.holds B L) (c : ℕ) (n : ℕ) (t : ℕ) (teb : ℕ)  :
    (State.answer s c n t teb).holds B L := by
  unfold State.answer; repeat' first | (simp +contextual (maxDischargeDepth := 40) [*]; done) | split | dsimp only | (refine State.forEach_holds ?_ _ _ (fun _ _ _ => ?_)) | (refine State.onlyIf_holds ?_ _ _ (fun _ _ => ?_))

@[simp] theorem State.setResp_holds {B : List Host.Cell} {L : List Instr} {s : State} (hs : s.holds B L) (c : ℕ) (r : Resp)  :
    (State.setResp s c r).holds B L := by
  unfold State.setResp; simp +contextual (maxDischargeDepth := 40) [*]

@[simp] theorem State.settleResponses_holds {B : List Host.Cell} {L : List Instr} {s : State} (hs : s.holds B L) (c : ℕ)  :
    (State.settleResponses s c).holds B L := by
  unfold State.settleResponses; simp +contextual (maxDischargeDepth := 40) [*]

@[simp] theorem State.nextPulse_holds {B : List Host.Cell} {L : List Instr} {s : State} (hs : s.holds B L) (c : ℕ)  :
    (State.nextPulse s c).holds B L := by
  unfold State.nextPulse; repeat' first | (simp +contextual (maxDischargeDepth := 40) [*]; done) | split | dsimp only | (refine State.forEach_holds ?_ _ _ (fun _ _ _ => ?_)) | (refine State.onlyIf_holds ?_ _ _ (fun _ _ => ?_))

@[simp] theorem State.seqPromote_holds {B : List Host.Cell} {L : List Instr} {s : State} (hs : s.holds B L) (c : ℕ)  :
    (State.seqPromote s c).holds B L := by
  unfold State.seqPromote; simp +contextual (maxDischargeDepth := 40) [*]

@[simp] theorem State.chanExpand_holds {B : List Host.Cell} {L : List Instr} {s : State} (hs : s.holds B L) (c : ℕ)  :
    (State.chanExpand s c).holds B L := by
  unfold State.chanExpand; simp +contextual (maxDischargeDepth := 40) [*]

@[simp] theorem State.spacingDrop_holds {B : List Host.Cell} {L : List Instr} {s : State} (hs : s.holds B L) (c : ℕ) (n : ℕ)  :
    (State.spacingDrop s c n).holds B L := by
  unfold State.spacingDrop; simp +contextual (maxDischargeDepth := 40) [*]

@[simp] theorem State.respEdgeDone_holds {B : List Host.Cell} {L : List Instr} {s : State} (hs : s.holds B L) (c : ℕ) (o : EdgeOrigin)  :
    (State.respEdgeDone s c o).holds B L := by
  unfold State.respEdgeDone; repeat' first | (simp +contextual (maxDischargeDepth := 40) [*]; done) | split | dsimp only | (refine State.forEach_holds ?_ _ _ (fun _ _ _ => ?_)) | (refine State.onlyIf_holds ?_ _ _ (fun _ _ => ?_))

@[simp] theorem State.unwait_holds {B : List Host.Cell} {L : List Instr} {s : State} (hs : s.holds B L) (c : ℕ) (e : Edge)  :
    (State.unwait s c e).holds B L := by
  unfold State.unwait; simp +contextual (maxDischargeDepth := 40) [*]

@[simp] theorem State.dropWithTrail_holds {B : List Host.Cell} {L : List Instr} {s : State} (hs : s.holds B L) (c : ℕ) (e : Edge)  :
    (State.dropWithTrail s c e).holds B L := by
  unfold State.dropWithTrail; repeat' first | (simp +contextual (maxDischargeDepth := 40) [*]; done) | split | dsimp only | (refine State.forEach_holds ?_ _ _ (fun _ _ _ => ?_)) | (refine State.onlyIf_holds ?_ _ _ (fun _ _ => ?_))

@[simp] theorem State.issueAt_holds {B : List Host.Cell} {L : List Instr} {s : State} (hs : s.holds B L) (c : ℕ) (e : Edge) (high : Option Bool) (engine : ℕ) (pos : ℤ) (dither : Option ℤ)  :
    (State.issueAt s c e high engine pos dither).holds B L := by
  unfold State.issueAt; simp +contextual (maxDischargeDepth := 40) [*]

@[simp] theorem State.issuePulse_holds {B : List Host.Cell} {L : List Instr} {s : State} (hs : s.holds B L) (c : ℕ) (e : Edge) (t : Edge) (high : Bool) (engine : ℕ)  :
    (State.issuePulse s c e t high engine).holds B L := by
  unfold State.issuePulse; simp +contextual (maxDischargeDepth := 40) [*]

@[simp] theorem State.issueSingle_holds {B : List Host.Cell} {L : List Instr} {s : State} (hs : s.holds B L) (c : ℕ) (e : Edge) (high : Bool) (engine : ℕ)  :
    (State.issueSingle s c e high engine).holds B L := by
  unfold State.issueSingle; simp +contextual (maxDischargeDepth := 40) [*]

@[simp] theorem State.issueCodes_holds {B : List Host.Cell} {L : List Instr} {s : State} (hs : s.holds B L) (c : ℕ) (e : Edge) (high : Bool) (k : ℕ × ℤ)  :
    (State.issueCodes s c e high k).holds B L := by
  unfold State.issueCodes; simp +contextual (maxDischargeDepth := 40) [*]

@[simp] theorem State.lateEdge_holds {B : List Host.Cell} {L : List Instr} {s : State} (hs : s.holds B L) (c : ℕ) (e : Edge) (high : Bool) (engine : ℕ)  :
    (State.lateEdge s c e high engine).holds B L := by
  unfold State.lateEdge; repeat' first | (simp +contextual (maxDischargeDepth := 40) [*]; done) | split | dsimp only | (refine State.forEach_holds ?_ _ _ (fun _ _ _ => ?_)) | (refine State.onlyIf_holds ?_ _ _ (fun _ _ => ?_))

@[simp] theorem State.issueNext_holds {B : List Host.Cell} {L : List Instr} {s0 : State} (hs0 : s0.holds B L) (c : ℕ)  :
    (State.issueNext s0 c).holds B L := by
  unfold State.issueNext; repeat' first | (simp +contextual (maxDischargeDepth := 40) [*]; done) | split | dsimp only | (refine State.forEach_holds ?_ _ _ (fun _ _ _ => ?_)) | (refine State.onlyIf_holds ?_ _ _ (fun _ _ => ?_))

theorem execEdgeIssue_holds {B : List Host.Cell} {L : List Instr} {s : State} (hs : s.holds B L) (c : ℕ)  :
    ∀ u, execEdgeIssue c s = .next u → u.holds B L := by
  intro u ht; unfold execEdgeIssue at ht
  refine guarded_holds (fun s hs => ?_) hs ht
  repeat' first | (simp +contextual (maxDischargeDepth := 40) [*]; done) | split | dsimp only | (refine State.forEach_holds ?_ _ _ (fun _ _ _ => ?_)) | (refine State.onlyIf_holds ?_ _ _ (fun _ _ => ?_))

@[simp] theorem State.countLaunch_holds {B : List Host.Cell} {L : List Instr} {s : State} (hs : s.holds B L) (c : ℕ) (i : Issued)  :
    (State.countLaunch s c i).holds B L := by
  unfold State.countLaunch; simp +contextual (maxDischargeDepth := 40) [*]

@[simp] theorem State.emitEdge_holds {B : List Host.Cell} {L : List Instr} {s : State} (hs : s.holds B L) (c : ℕ) (i : Issued) (h : Bool) (sameSlot : Bool)  :
    (State.emitEdge s c i h sameSlot).holds B L := by
  unfold State.emitEdge; simp +contextual (maxDischargeDepth := 40) [*]

@[simp] theorem State.launch_holds {B : List Host.Cell} {L : List Instr} {s : State} (hs : s.holds B L) (c : ℕ)  :
    (State.launch s c).holds B L := by
  unfold State.launch; repeat' first | (simp +contextual (maxDischargeDepth := 40) [*]; done) | split | dsimp only | (refine State.forEach_holds ?_ _ _ (fun _ _ _ => ?_)) | (refine State.onlyIf_holds ?_ _ _ (fun _ _ => ?_))

theorem execEdgeLaunch_holds {B : List Host.Cell} {L : List Instr} {s : State} (hs : s.holds B L) (c : ℕ)  :
    ∀ u, execEdgeLaunch c s = .next u → u.holds B L := by
  intro u ht; unfold execEdgeLaunch at ht
  refine guarded_holds (fun s hs => ?_) hs ht
  repeat' first | (simp +contextual (maxDischargeDepth := 40) [*]; done) | split | dsimp only | (refine State.forEach_holds ?_ _ _ (fun _ _ _ => ?_)) | (refine State.onlyIf_holds ?_ _ _ (fun _ _ => ?_))

@[simp] theorem State.chanStep_holds {B : List Host.Cell} {L : List Instr} {s : State} (hs : s.holds B L) (d32 : ℤ) (c : ℕ)  :
    (State.chanStep s d32 c).holds B L := by
  unfold State.chanStep; repeat' first | (simp +contextual (maxDischargeDepth := 40) [*]; done) | split | dsimp only | (refine State.forEach_holds ?_ _ _ (fun _ _ _ => ?_)) | (refine State.onlyIf_holds ?_ _ _ (fun _ _ => ?_))

@[simp] theorem State.chanSeqMove_holds {B : List Host.Cell} {L : List Instr} {s : State} (hs : s.holds B L) (d32 : ℤ) (e32 : ℤ) (c : ℕ)  :
    (State.chanSeqMove s d32 e32 c).holds B L := by
  unfold State.chanSeqMove; simp +contextual (maxDischargeDepth := 40) [*]

@[simp] theorem State.chanFlush_holds {B : List Host.Cell} {L : List Instr} {s : State} (hs : s.holds B L) (c : ℕ)  :
    (State.chanFlush s c).holds B L := by
  unfold State.chanFlush; simp +contextual (maxDischargeDepth := 40) [*]

end Sys2Proof.Machine
end

