-- ==== Sys2Proof/Laws/FrameQuad.lean ====
section
/-! SUPPORT. The operations of Quad leave BAR2 and the queue of waiting commands alone. -/

namespace Sys2Proof.Machine

set_option linter.unusedTactic false
set_option linter.unreachableTactic false

@[simp] theorem State.setEngState_holds {B : List Host.Cell} {L : List Instr} {s : State} (hs : s.holds B L) (q : ℕ) (e : ℕ) (v : ℕ)  :
    (State.setEngState s q e v).holds B L := by
  unfold State.setEngState; simp +contextual (maxDischargeDepth := 40) [*]

@[simp] theorem State.mapLane_holds {B : List Host.Cell} {L : List Instr} {s : State} (hs : s.holds B L) (q : ℕ) (l : ℕ) (e : ℕ)  :
    (State.mapLane s q l e).holds B L := by
  unfold State.mapLane; simp +contextual (maxDischargeDepth := 40) [*]

@[simp] theorem State.setEngine_holds {B : List Host.Cell} {L : List Instr} {s : State} (hs : s.holds B L) (q : ℕ) (e : ℕ) (x : EngineSt)  :
    (State.setEngine s q e x).holds B L := by
  unfold State.setEngine; simp +contextual (maxDischargeDepth := 40) [*]

@[simp] theorem State.refreshBounds_holds {B : List Host.Cell} {L : List Instr} {s : State} (hs : s.holds B L) (q : ℕ)  :
    (State.refreshBounds s q).holds B L := by
  unfold State.refreshBounds; simp +contextual (maxDischargeDepth := 40) [*]

@[simp] theorem State.refreshSpare_holds {B : List Host.Cell} {L : List Instr} {s : State} (hs : s.holds B L) (q : ℕ)  :
    (State.refreshSpare s q).holds B L := by
  unfold State.refreshSpare; repeat' first | (simp +contextual (maxDischargeDepth := 40) [*]; done) | split | dsimp only | (refine State.forEach_holds ?_ _ _ (fun _ _ _ => ?_)) | (refine State.onlyIf_holds ?_ _ _ (fun _ _ => ?_))

@[simp] theorem State.needSweep_holds {B : List Host.Cell} {L : List Instr} {s : State} (hs : s.holds B L) (q : ℕ) (e : ℕ)  :
    (State.needSweep s q e).holds B L := by
  unfold State.needSweep; simp +contextual (maxDischargeDepth := 40) [*]

@[simp] theorem State.refreshDeferred_holds {B : List Host.Cell} {L : List Instr} {s : State} (hs : s.holds B L) (q : ℕ)  :
    (State.refreshDeferred s q).holds B L := by
  unfold State.refreshDeferred; simp +contextual (maxDischargeDepth := 40) [*]

@[simp] theorem State.refreshSettled_holds {B : List Host.Cell} {L : List Instr} {s : State} (hs : s.holds B L)  :
    (State.refreshSettled s).holds B L := by
  unfold State.refreshSettled; simp +contextual (maxDischargeDepth := 40) [*]

@[simp] theorem State.defer_holds {B : List Host.Cell} {L : List Instr} {s : State} (hs : s.holds B L) (q : ℕ) (l : ℕ) (reason : ℕ)  :
    (State.defer s q l reason).holds B L := by
  unfold State.defer; simp +contextual (maxDischargeDepth := 40) [*]

@[simp] theorem State.armSwap_holds {B : List Host.Cell} {L : List Instr} {s : State} (hs : s.holds B L) (q : ℕ) (l : ℕ) (reason : ℕ)  :
    (State.armSwap s q l reason).holds B L := by
  unfold State.armSwap; simp +contextual (maxDischargeDepth := 40) [*]

@[simp] theorem State.setDegraded_holds {B : List Host.Cell} {L : List Instr} {s : State} (hs : s.holds B L) (q : ℕ) (l : ℕ) (b : Bool)  :
    (State.setDegraded s q l b).holds B L := by
  unfold State.setDegraded; simp +contextual (maxDischargeDepth := 40) [*]

@[simp] theorem State.recordSwap_holds {B : List Host.Cell} {L : List Instr} {s : State} (hs : s.holds B L) (q : ℕ) (outcome : ℕ) (reason : ℕ) (new : ℕ) (old : ℕ) (lane : ℕ)  :
    (State.recordSwap s q outcome reason new old lane).holds B L := by
  unfold State.recordSwap; simp +contextual (maxDischargeDepth := 40) [*]

@[simp] theorem State.abandonSwap_holds {B : List Host.Cell} {L : List Instr} {s : State} (hs : s.holds B L) (q : ℕ) (spareState : ℕ)  :
    (State.abandonSwap s q spareState).holds B L := by
  unfold State.abandonSwap; repeat' first | (simp +contextual (maxDischargeDepth := 40) [*]; done) | split | dsimp only | (refine State.forEach_holds ?_ _ _ (fun _ _ _ => ?_)) | (refine State.onlyIf_holds ?_ _ _ (fun _ _ => ?_))

@[simp] theorem State.driftCause_holds {B : List Host.Cell} {L : List Instr} {s : State} (hs : s.holds B L) (q : ℕ) (l : ℕ) (m : ℕ × ℕ)  :
    (State.driftCause s q l m).holds B L := by
  unfold State.driftCause; simp +contextual (maxDischargeDepth := 40) [*]

@[simp] theorem State.failNoSpare_holds {B : List Host.Cell} {L : List Instr} {s : State} (hs : s.holds B L) (q : ℕ) (l : ℕ)  :
    (State.failNoSpare s q l).holds B L := by
  unfold State.failNoSpare; simp +contextual (maxDischargeDepth := 40) [*]

@[simp] theorem State.yieldArmed_holds {B : List Host.Cell} {L : List Instr} {s : State} (hs : s.holds B L) (q : ℕ) (l : ℕ) (reason : ℕ)  :
    (State.yieldArmed s q l reason).holds B L := by
  unfold State.yieldArmed; simp +contextual (maxDischargeDepth := 40) [*]

@[simp] theorem State.laneFailed_holds {B : List Host.Cell} {L : List Instr} {s : State} (hs : s.holds B L) (q : ℕ) (l : ℕ) (ready : Bool)  :
    (State.laneFailed s q l ready).holds B L := by
  unfold State.laneFailed; repeat' first | (simp +contextual (maxDischargeDepth := 40) [*]; done) | split | dsimp only | (refine State.forEach_holds ?_ _ _ (fun _ _ _ => ?_)) | (refine State.onlyIf_holds ?_ _ _ (fun _ _ => ?_))

@[simp] theorem State.loseSwap_holds {B : List Host.Cell} {L : List Instr} {s : State} (hs : s.holds B L) (q : ℕ) (spareState : ℕ)  :
    (State.loseSwap s q spareState).holds B L := by
  unfold State.loseSwap; simp +contextual (maxDischargeDepth := 40) [*]

@[simp] theorem State.spareFailed_holds {B : List Host.Cell} {L : List Instr} {s : State} (hs : s.holds B L) (q : ℕ)  :
    (State.spareFailed s q).holds B L := by
  unfold State.spareFailed; simp +contextual (maxDischargeDepth := 40) [*]

@[simp] theorem State.engineFailed_holds {B : List Host.Cell} {L : List Instr} {s : State} (hs : s.holds B L) (q : ℕ) (e : ℕ)  :
    (State.engineFailed s q e).holds B L := by
  unfold State.engineFailed; repeat' first | (simp +contextual (maxDischargeDepth := 40) [*]; done) | split | dsimp only | (refine State.forEach_holds ?_ _ _ (fun _ _ _ => ?_)) | (refine State.onlyIf_holds ?_ _ _ (fun _ _ => ?_))

@[simp] theorem State.trackTerm_holds {B : List Host.Cell} {L : List Instr} {s : State} (hs : s.holds B L) (q : ℕ) (f : Fld) (errs : List CalEdge)  :
    (State.trackTerm s q f errs).holds B L := by
  unfold State.trackTerm; simp +contextual (maxDischargeDepth := 40) [*]

@[simp] theorem State.putResid_holds {B : List Host.Cell} {L : List Instr} {s : State} (hs : s.holds B L) (q : ℕ) (e : ℕ) (es : List CalEdge)  :
    (State.putResid s q e es).holds B L := by
  unfold State.putResid; simp +contextual (maxDischargeDepth := 40) [*]

@[simp] theorem State.visitEngine_holds {B : List Host.Cell} {L : List Instr} {s : State} (hs : s.holds B L) (q : ℕ) (v : CalVisit)  :
    (State.visitEngine s q v).holds B L := by
  unfold State.visitEngine
  extract_lets e es rise fall s1 g run g1 s2 kind src
  have h2 : s2.holds B L := by simp +contextual (maxDischargeDepth := 40) [s2, s1, *]
  clear_value s2 run g1
  split
  · simp +contextual (maxDischargeDepth := 40) [*]
  · split
    · exact h2
    · extract_lets k s3 waits
      have h3 : s3.holds B L := by simp only [s3]; simp +contextual (maxDischargeDepth := 40) [*]
      clear_value kind k s3 waits src
      split
      · refine State.onlyIf_holds h3 _ _ (fun _ h => ?_)
        simp +contextual (maxDischargeDepth := 40) [*]
      · split <;> simp +contextual (maxDischargeDepth := 40) [*]


@[simp] theorem State.visitLane_holds {B : List Host.Cell} {L : List Instr} {s : State} (hs : s.holds B L) (q : ℕ) (l : ℕ) (v : CalVisit)  :
    (State.visitLane s q l v).holds B L := by
  unfold State.visitLane; simp +contextual (maxDischargeDepth := 40) [*]

@[simp] theorem State.calVisit_holds {B : List Host.Cell} {L : List Instr} {s : State} (hs : s.holds B L) (q : ℕ) (v : CalVisit)  :
    (State.calVisit s q v).holds B L := by
  unfold State.calVisit; simp +contextual (maxDischargeDepth := 40) [*]

theorem execCalVisitEnd_holds {B : List Host.Cell} {L : List Instr} {s : State} (hs : s.holds B L) (q : ℕ) (v : CalVisit)  :
    ∀ u, execCalVisitEnd q v s = .next u → u.holds B L := by
  intro u ht; unfold execCalVisitEnd at ht
  refine guarded_holds (fun s hs => ?_) hs ht
  repeat' first | (simp +contextual (maxDischargeDepth := 40) [*]; done) | split | dsimp only | (refine State.forEach_holds ?_ _ _ (fun _ _ _ => ?_)) | (refine State.onlyIf_holds ?_ _ _ (fun _ _ => ?_))

@[simp] theorem State.showSweep_holds {B : List Host.Cell} {L : List Instr} {s : State} (hs : s.holds B L) (q : ℕ)  :
    (State.showSweep s q).holds B L := by
  unfold State.showSweep; repeat' first | (simp +contextual (maxDischargeDepth := 40) [*]; done) | split | dsimp only | (refine State.forEach_holds ?_ _ _ (fun _ _ _ => ?_)) | (refine State.onlyIf_holds ?_ _ _ (fun _ _ => ?_))

@[simp] theorem State.beginSweep_holds {B : List Host.Cell} {L : List Instr} {s : State} (hs : s.holds B L) (q : ℕ) (e : ℕ) (retest : Bool)  :
    (State.beginSweep s q e retest).holds B L := by
  unfold State.beginSweep; simp +contextual (maxDischargeDepth := 40) [*]

@[simp] theorem State.dropSweeps_holds {B : List Host.Cell} {L : List Instr} {s : State} (hs : s.holds B L) (q : ℕ)  :
    (State.dropSweeps s q).holds B L := by
  unfold State.dropSweeps; simp +contextual (maxDischargeDepth := 40) [*]

theorem execSweepStart_holds {B : List Host.Cell} {L : List Instr} {s : State} (hs : s.holds B L) (q : ℕ) (e : ℕ)  :
    ∀ u, execSweepStart q e s = .next u → u.holds B L := by
  intro u ht; unfold execSweepStart at ht
  refine guarded_holds (fun s hs => ?_) hs ht
  repeat' first | (simp +contextual (maxDischargeDepth := 40) [*]; done) | split | dsimp only | (refine State.forEach_holds ?_ _ _ (fun _ _ _ => ?_)) | (refine State.onlyIf_holds ?_ _ _ (fun _ _ => ?_))

@[simp] theorem State.endSweep_holds {B : List Host.Cell} {L : List Instr} {s : State} (hs : s.holds B L) (q : ℕ)  :
    (State.endSweep s q).holds B L := by
  unfold State.endSweep; simp +contextual (maxDischargeDepth := 40) [*]

@[simp] theorem State.serveDeferred_holds {B : List Host.Cell} {L : List Instr} {s : State} (hs : s.holds B L) (q : ℕ)  :
    (State.serveDeferred s q).holds B L := by
  unfold State.serveDeferred; repeat' first | (simp +contextual (maxDischargeDepth := 40) [*]; done) | split | dsimp only | (refine State.forEach_holds ?_ _ _ (fun _ _ _ => ?_)) | (refine State.onlyIf_holds ?_ _ _ (fun _ _ => ?_))

@[simp] theorem State.sweepEnd_holds {B : List Host.Cell} {L : List Instr} {s : State} (hs : s.holds B L) (q : ℕ) (r : SweepResult)  :
    (State.sweepEnd s q r).holds B L := by
  unfold State.sweepEnd
  rcases s.sweepOver q false with _ | e
  · exact hs
  · dsimp only
    repeat' first | (simp +contextual (maxDischargeDepth := 40) [*]; done) | split | dsimp only | (refine State.forEach_holds ?_ _ _ (fun _ _ _ => ?_)) | (refine State.onlyIf_holds ?_ _ _ (fun _ _ => ?_))

theorem execSweepDone_holds {B : List Host.Cell} {L : List Instr} {s : State} (hs : s.holds B L) (q : ℕ) (r : SweepResult)  :
    ∀ u, execSweepDone q r s = .next u → u.holds B L := by
  intro u ht; unfold execSweepDone at ht
  refine guarded_holds (fun s hs => ?_) hs ht
  repeat' first | (simp +contextual (maxDischargeDepth := 40) [*]; done) | split | dsimp only | (refine State.forEach_holds ?_ _ _ (fun _ _ _ => ?_)) | (refine State.onlyIf_holds ?_ _ _ (fun _ _ => ?_))

@[simp] theorem State.exchangeSets_holds {B : List Host.Cell} {L : List Instr} {s : State} (hs : s.holds B L) (q : ℕ) (e : ℕ)  :
    (State.exchangeSets s q e).holds B L := by
  unfold State.exchangeSets; repeat' first | (simp +contextual (maxDischargeDepth := 40) [*]; done) | split | dsimp only | (refine State.forEach_holds ?_ _ _ (fun _ _ _ => ?_)) | (refine State.onlyIf_holds ?_ _ _ (fun _ _ => ?_))

theorem execTableSetExchange_holds {B : List Host.Cell} {L : List Instr} {s : State} (hs : s.holds B L) (q : ℕ) (e : ℕ)  :
    ∀ u, execTableSetExchange q e s = .next u → u.holds B L := by
  intro u ht; unfold execTableSetExchange at ht
  refine guarded_holds (fun s hs => ?_) hs ht
  repeat' first | (simp +contextual (maxDischargeDepth := 40) [*]; done) | split | dsimp only | (refine State.forEach_holds ?_ _ _ (fun _ _ _ => ?_)) | (refine State.onlyIf_holds ?_ _ _ (fun _ _ => ?_))

@[simp] theorem State.retestEnd_holds {B : List Host.Cell} {L : List Instr} {s : State} (hs : s.holds B L) (q : ℕ) (r : SweepResult)  :
    (State.retestEnd s q r).holds B L := by
  unfold State.retestEnd
  rcases s.sweepOver q true with _ | e
  · exact hs
  · dsimp only
    repeat' first | (simp +contextual (maxDischargeDepth := 40) [*]; done) | split | dsimp only | (refine State.forEach_holds ?_ _ _ (fun _ _ _ => ?_)) | (refine State.onlyIf_holds ?_ _ _ (fun _ _ => ?_))

theorem execRetestDone_holds {B : List Host.Cell} {L : List Instr} {s : State} (hs : s.holds B L) (q : ℕ) (r : SweepResult)  :
    ∀ u, execRetestDone q r s = .next u → u.holds B L := by
  intro u ht; unfold execRetestDone at ht
  refine guarded_holds (fun s hs => ?_) hs ht
  repeat' first | (simp +contextual (maxDischargeDepth := 40) [*]; done) | split | dsimp only | (refine State.forEach_holds ?_ _ _ (fun _ _ _ => ?_)) | (refine State.onlyIf_holds ?_ _ _ (fun _ _ => ?_))

@[simp] theorem State.swapBegin_holds {B : List Host.Cell} {L : List Instr} {s : State} (hs : s.holds B L) (q : ℕ) (l : ℕ) (reason : ℕ)  :
    (State.swapBegin s q l reason).holds B L := by
  unfold State.swapBegin; simp +contextual (maxDischargeDepth := 40) [*]

theorem execSwapArm_holds {B : List Host.Cell} {L : List Instr} {s : State} (hs : s.holds B L) (q : ℕ) (lane : ℕ) (reason : ℕ)  :
    ∀ u, execSwapArm q lane reason s = .next u → u.holds B L := by
  intro u ht; unfold execSwapArm at ht
  refine guarded_holds (fun s hs => ?_) hs ht
  repeat' first | (simp +contextual (maxDischargeDepth := 40) [*]; done) | split | dsimp only | (refine State.forEach_holds ?_ _ _ (fun _ _ _ => ?_)) | (refine State.onlyIf_holds ?_ _ _ (fun _ _ => ?_))

@[simp] theorem State.swapCheck_holds {B : List Host.Cell} {L : List Instr} {s : State} (hs : s.holds B L) (q : ℕ) (m : SwapCheck)  :
    (State.swapCheck s q m).holds B L := by
  unfold State.swapCheck; repeat' first | (simp +contextual (maxDischargeDepth := 40) [*]; done) | split | dsimp only | (refine State.forEach_holds ?_ _ _ (fun _ _ _ => ?_)) | (refine State.onlyIf_holds ?_ _ _ (fun _ _ => ?_))

theorem execSwapVerify_holds {B : List Host.Cell} {L : List Instr} {s : State} (hs : s.holds B L) (q : ℕ) (m : SwapCheck)  :
    ∀ u, execSwapVerify q m s = .next u → u.holds B L := by
  intro u ht; unfold execSwapVerify at ht
  refine guarded_holds (fun s hs => ?_) hs ht
  repeat' first | (simp +contextual (maxDischargeDepth := 40) [*]; done) | split | dsimp only | (refine State.forEach_holds ?_ _ _ (fun _ _ _ => ?_)) | (refine State.onlyIf_holds ?_ _ _ (fun _ _ => ?_))

@[simp] theorem State.swapOver_holds {B : List Host.Cell} {L : List Instr} {s : State} (hs : s.holds B L) (q : ℕ)  :
    (State.swapOver s q).holds B L := by
  unfold State.swapOver; repeat' first | (simp +contextual (maxDischargeDepth := 40) [*]; done) | split | dsimp only | (refine State.forEach_holds ?_ _ _ (fun _ _ _ => ?_)) | (refine State.onlyIf_holds ?_ _ _ (fun _ _ => ?_))

theorem execSwapSwitch_holds {B : List Host.Cell} {L : List Instr} {s : State} (hs : s.holds B L) (q : ℕ)  :
    ∀ u, execSwapSwitch q s = .next u → u.holds B L := by
  intro u ht; unfold execSwapSwitch at ht
  refine guarded_holds (fun s hs => ?_) hs ht
  repeat' first | (simp +contextual (maxDischargeDepth := 40) [*]; done) | split | dsimp only | (refine State.forEach_holds ?_ _ _ (fun _ _ _ => ?_)) | (refine State.onlyIf_holds ?_ _ _ (fun _ _ => ?_))

@[simp] theorem State.swapFinish_holds {B : List Host.Cell} {L : List Instr} {s : State} (hs : s.holds B L) (q : ℕ)  :
    (State.swapFinish s q).holds B L := by
  unfold State.swapFinish; repeat' first | (simp +contextual (maxDischargeDepth := 40) [*]; done) | split | dsimp only | (refine State.forEach_holds ?_ _ _ (fun _ _ _ => ?_)) | (refine State.onlyIf_holds ?_ _ _ (fun _ _ => ?_))

theorem execSwapDone_holds {B : List Host.Cell} {L : List Instr} {s : State} (hs : s.holds B L) (q : ℕ)  :
    ∀ u, execSwapDone q s = .next u → u.holds B L := by
  intro u ht; unfold execSwapDone at ht
  refine guarded_holds (fun s hs => ?_) hs ht
  repeat' first | (simp +contextual (maxDischargeDepth := 40) [*]; done) | split | dsimp only | (refine State.forEach_holds ?_ _ _ (fun _ _ _ => ?_)) | (refine State.onlyIf_holds ?_ _ _ (fun _ _ => ?_))

@[simp] theorem State.remapLane_holds {B : List Host.Cell} {L : List Instr} {s : State} (hs : s.holds B L) (q : ℕ)  :
    (State.remapLane s q).holds B L := by
  unfold State.remapLane; repeat' first | (simp +contextual (maxDischargeDepth := 40) [*]; done) | split | dsimp only | (refine State.forEach_holds ?_ _ _ (fun _ _ _ => ?_)) | (refine State.onlyIf_holds ?_ _ _ (fun _ _ => ?_))

theorem execFailedLaneRemap_holds {B : List Host.Cell} {L : List Instr} {s : State} (hs : s.holds B L) (q : ℕ)  :
    ∀ u, execFailedLaneRemap q s = .next u → u.holds B L := by
  intro u ht; unfold execFailedLaneRemap at ht
  refine guarded_holds (fun s hs => ?_) hs ht
  repeat' first | (simp +contextual (maxDischargeDepth := 40) [*]; done) | split | dsimp only | (refine State.forEach_holds ?_ _ _ (fun _ _ _ => ?_)) | (refine State.onlyIf_holds ?_ _ _ (fun _ _ => ?_))

@[simp] theorem State.cmdSwapLane_holds {B : List Host.Cell} {L : List Instr} {s : State} (hs : s.holds B L) (q : ℕ) (lane : ℕ)  :
    (State.cmdSwapLane s q lane).1.holds B L := by
  unfold State.cmdSwapLane; simp +contextual (maxDischargeDepth := 40) [*]

@[simp] theorem State.cmdResweep_holds {B : List Host.Cell} {L : List Instr} {s : State} (hs : s.holds B L) (q : ℕ)  :
    (State.cmdResweep s q).1.holds B L := by
  unfold State.cmdResweep; simp +contextual (maxDischargeDepth := 40) [*]

@[simp] theorem State.cmdRetest_holds {B : List Host.Cell} {L : List Instr} {s : State} (hs : s.holds B L) (q : ℕ) (e : ℕ)  :
    (State.cmdRetest s q e).1.holds B L := by
  unfold State.cmdRetest; simp +contextual (maxDischargeDepth := 40) [*]

@[simp] theorem State.swapCmd_holds {B : List Host.Cell} {L : List Instr} {s : State} (hs : s.holds B L) (q : ℕ) (v : ℕ)  :
    (State.swapCmd s q v).1.holds B L := by
  unfold State.swapCmd; repeat' first | (simp +contextual (maxDischargeDepth := 40) [*]; done) | split | dsimp only | (refine State.forEach_holds ?_ _ _ (fun _ _ _ => ?_)) | (refine State.onlyIf_holds ?_ _ _ (fun _ _ => ?_))

theorem execTdcFault_holds {B : List Host.Cell} {L : List Instr} {s : State} (hs : s.holds B L) (q : ℕ)  :
    ∀ u, execTdcFault q s = .next u → u.holds B L := by
  intro u ht; unfold execTdcFault at ht
  refine guarded_holds (fun s hs => ?_) hs ht
  repeat' first | (simp +contextual (maxDischargeDepth := 40) [*]; done) | split | dsimp only | (refine State.forEach_holds ?_ _ _ (fun _ _ _ => ?_)) | (refine State.onlyIf_holds ?_ _ _ (fun _ _ => ?_))

theorem execEngineTableEcc_holds {B : List Host.Cell} {L : List Instr} {s : State} (hs : s.holds B L) (q : ℕ) (e : ℕ) (uncorrectable : Bool)  :
    ∀ u, execEngineTableEcc q e uncorrectable s = .next u → u.holds B L := by
  intro u ht; unfold execEngineTableEcc at ht
  refine guarded_holds (fun s hs => ?_) hs ht
  repeat' first | (simp +contextual (maxDischargeDepth := 40) [*]; done) | split | dsimp only | (refine State.forEach_holds ?_ _ _ (fun _ _ _ => ?_)) | (refine State.onlyIf_holds ?_ _ _ (fun _ _ => ?_))

theorem execDriverFault_holds {B : List Host.Cell} {L : List Instr} {s : State} (hs : s.holds B L) (page : ℕ) (bit : ℕ)  :
    ∀ u, execDriverFault page bit s = .next u → u.holds B L := by
  intro u ht; unfold execDriverFault at ht
  refine guarded_holds (fun s hs => ?_) hs ht
  repeat' first | (simp +contextual (maxDischargeDepth := 40) [*]; done) | split | dsimp only | (refine State.forEach_holds ?_ _ _ (fun _ _ _ => ?_)) | (refine State.onlyIf_holds ?_ _ _ (fun _ _ => ?_))

end Sys2Proof.Machine
end

