-- ==== Sys2Proof/Laws/FrameTrig.lean ====
section
/-! SUPPORT. The operations of Trig leave BAR2 and the queue of waiting commands alone. -/

namespace Sys2Proof.Machine

set_option linter.unusedTactic false
set_option linter.unreachableTactic false

@[simp] theorem State.lineStages_holds {B : List Host.Cell} {L : List Instr} {s : State} (hs : s.holds B L) (n : ℕ) (e : LineEvent)  :
    (State.lineStages s n e).1.holds B L := by
  unfold State.lineStages; simp +contextual (maxDischargeDepth := 40) [*]

@[simp] theorem State.restartDivider_holds {B : List Host.Cell} {L : List Instr} {s : State} (hs : s.holds B L) (n : ℕ)  :
    (State.restartDivider s n).holds B L := by
  unfold State.restartDivider; simp +contextual (maxDischargeDepth := 40) [*]

@[simp] theorem State.hostFire_holds {B : List Host.Cell} {L : List Instr} {s : State} (hs : s.holds B L) (v : ℕ)  :
    (State.hostFire s v).1.holds B L := by
  unfold State.hostFire; simp +contextual (maxDischargeDepth := 40) [*]

@[simp] theorem State.hostFiresDue_holds {B : List Host.Cell} {L : List Instr} {s : State} (hs : s.holds B L)  :
    (State.hostFiresDue s).holds B L := by
  unfold State.hostFiresDue; simp +contextual (maxDischargeDepth := 40) [*]

theorem execBusEcc_holds {B : List Host.Cell} {L : List Instr} {s : State} (hs : s.holds B L)  :
    ∀ u, execBusEcc s = .next u → u.holds B L := by
  intro u ht; unfold execBusEcc at ht
  refine guarded_holds (fun s hs => ?_) hs ht
  repeat' first | (simp +contextual (maxDischargeDepth := 40) [*]; done) | split | dsimp only | (refine State.forEach_holds ?_ _ _ (fun _ _ _ => ?_)) | (refine State.onlyIf_holds ?_ _ _ (fun _ _ => ?_))

end Sys2Proof.Machine
end

