-- ==== Sys2Proof/Laws/FrameBar2.lean ====
section
/-! SUPPORT. The operations of Bar2 leave BAR2 and the queue of waiting commands alone. -/

namespace Sys2Proof.Machine

set_option linter.unusedTactic false
set_option linter.unreachableTactic false

@[simp] theorem State.putReady_holds {B : List Host.Cell} {L : List Instr} {s : State} (hs : s.holds B L) (c : ℕ) (b : Bool)  :
    (State.putReady s c b).holds B L := by
  unfold State.putReady; simp +contextual (maxDischargeDepth := 40) [*]

end Sys2Proof.Machine
end

