-- ==== Sys2Proof/Laws/FrameSeq.lean ====
section
/-! SUPPORT. The operations of Seq leave BAR2 and the queue of waiting commands alone. -/

namespace Sys2Proof.Machine

set_option linter.unusedTactic false
set_option linter.unreachableTactic false

@[simp] theorem State.setSeq_holds {B : List Host.Cell} {L : List Instr} {s : State} (hs : s.holds B L) (q : ℕ) (x : SeqSt)  :
    (State.setSeq s q x).holds B L := by
  unfold State.setSeq; simp +contextual (maxDischargeDepth := 40) [*]

@[simp] theorem State.seqRecord_holds {B : List Host.Cell} {L : List Instr} {s : State} (hs : s.holds B L) (q : ℕ) (kind : ℕ) (t : ℤ) (data : ℕ) (other : ℕ) (course : ℕ)  :
    (State.seqRecord s q kind t data other course).holds B L := by
  unfold State.seqRecord; simp +contextual (maxDischargeDepth := 40) [*]

@[simp] theorem State.seqPutState_holds {B : List Host.Cell} {L : List Instr} {s : State} (hs : s.holds B L) (q : ℕ) (st : ℕ) (reason : ℕ) (t : ℤ)  :
    (State.seqPutState s q st reason t).holds B L := by
  unfold State.seqPutState; simp +contextual (maxDischargeDepth := 40) [*]

@[simp] theorem State.bufferRec_holds {B : List Host.Cell} {L : List Instr} {s : State} (hs : s.holds B L) (c : ℕ) (r : SeqRec)  :
    (State.bufferRec s c r).holds B L := by
  unfold State.bufferRec; simp +contextual (maxDischargeDepth := 40) [*]

@[simp] theorem State.seqIdle_holds {B : List Host.Cell} {L : List Instr} {s : State} (hs : s.holds B L) (q : ℕ) (t : ℤ)  :
    (State.seqIdle s q t).holds B L := by
  unfold State.seqIdle; simp +contextual (maxDischargeDepth := 40) [*]

@[simp] theorem State.seqDropFrom_holds {B : List Host.Cell} {L : List Instr} {s : State} (hs : s.holds B L) (q : ℕ) (t : ℤ)  :
    (State.seqDropFrom s q t).holds B L := by
  unfold State.seqDropFrom; simp +contextual (maxDischargeDepth := 40) [*]

@[simp] theorem State.loopBump_holds {B : List Host.Cell} {L : List Instr} {s : State} (hs : s.holds B L) (q : ℕ) (c : ℕ)  :
    (State.loopBump s q c).holds B L := by
  unfold State.loopBump; repeat' first | (simp +contextual (maxDischargeDepth := 40) [*]; done) | split | dsimp only | (refine State.forEach_holds ?_ _ _ (fun _ _ _ => ?_)) | (refine State.onlyIf_holds ?_ _ _ (fun _ _ => ?_))

@[simp] theorem State.loopClear_holds {B : List Host.Cell} {L : List Instr} {s : State} (hs : s.holds B L) (q : ℕ) (k : ℕ)  :
    (State.loopClear s q k).holds B L := by
  unfold State.loopClear; simp +contextual (maxDischargeDepth := 40) [*]

@[simp] theorem State.loopDrop_holds {B : List Host.Cell} {L : List Instr} {s : State} (hs : s.holds B L) (q : ℕ) (c : ℕ)  :
    (State.loopDrop s q c).holds B L := by
  unfold State.loopDrop; repeat' first | (simp +contextual (maxDischargeDepth := 40) [*]; done) | split | dsimp only | (refine State.forEach_holds ?_ _ _ (fun _ _ _ => ?_)) | (refine State.onlyIf_holds ?_ _ _ (fun _ _ => ?_))

@[simp] theorem State.loopDropAll_holds {B : List Host.Cell} {L : List Instr} {s : State} (hs : s.holds B L) (q : ℕ)  :
    (State.loopDropAll s q).holds B L := by
  unfold State.loopDropAll; simp +contextual (maxDischargeDepth := 40) [*]

@[simp] theorem State.seqMarkTl_holds {B : List Host.Cell} {L : List Instr} {s : State} (hs : s.holds B L) (q : ℕ) (o : SeqOcc)  :
    (State.seqMarkTl s q o).holds B L := by
  unfold State.seqMarkTl; simp +contextual (maxDischargeDepth := 40) [*]

@[simp] theorem State.showSuccessor_holds {B : List Host.Cell} {L : List Instr} {s : State} (hs : s.holds B L) (q : ℕ)  :
    (State.showSuccessor s q).holds B L := by
  unfold State.showSuccessor; repeat' first | (simp +contextual (maxDischargeDepth := 40) [*]; done) | split | dsimp only | (refine State.forEach_holds ?_ _ _ (fun _ _ _ => ?_)) | (refine State.onlyIf_holds ?_ _ _ (fun _ _ => ?_))

@[simp] theorem State.clearRequest_holds {B : List Host.Cell} {L : List Instr} {s : State} (hs : s.holds B L) (q : ℕ)  :
    (State.clearRequest s q).holds B L := by
  unfold State.clearRequest; simp +contextual (maxDischargeDepth := 40) [*]

@[simp] theorem State.seqStopAt_holds {B : List Host.Cell} {L : List Instr} {s : State} (hs : s.holds B L) (q : ℕ) (t : ℤ) (reason : ℕ)  :
    (State.seqStopAt s q t reason).holds B L := by
  unfold State.seqStopAt; simp +contextual (maxDischargeDepth := 40) [*]

@[simp] theorem State.seqStop_holds {B : List Host.Cell} {L : List Instr} {s : State} (hs : s.holds B L) (q : ℕ) (t : ℤ) (reason : ℕ)  :
    (State.seqStop s q t reason).holds B L := by
  unfold State.seqStop; simp +contextual (maxDischargeDepth := 40) [*]

@[simp] theorem State.seqBadCourse_holds {B : List Host.Cell} {L : List Instr} {s : State} (hs : s.holds B L) (q : ℕ) (t : ℤ)  :
    (State.seqBadCourse s q t).holds B L := by
  unfold State.seqBadCourse; simp +contextual (maxDischargeDepth := 40) [*]

@[simp] theorem State.markReady_holds {B : List Host.Cell} {L : List Instr} {s : State} (hs : s.holds B L) (c : ℕ)  :
    (State.markReady s c).holds B L := by
  unfold State.markReady; simp +contextual (maxDischargeDepth := 40) [*]

@[simp] theorem State.seqUnderrun_holds {B : List Host.Cell} {L : List Instr} {s : State} (hs : s.holds B L) (q : ℕ) (o : SeqOcc) (succ : ℕ) (via : SeqVia)  :
    (State.seqUnderrun s q o succ via).holds B L := by
  unfold State.seqUnderrun; repeat' first | (simp +contextual (maxDischargeDepth := 40) [*]; done) | split | dsimp only | (refine State.forEach_holds ?_ _ _ (fun _ _ _ => ?_)) | (refine State.onlyIf_holds ?_ _ _ (fun _ _ => ?_))

@[simp] theorem State.seqDecide_holds {B : List Host.Cell} {L : List Instr} {s : State} (hs : s.holds B L) (q : ℕ)  :
    (State.seqDecide s q).holds B L := by
  unfold State.seqDecide; repeat' first | (simp +contextual (maxDischargeDepth := 40) [*]; done) | split | dsimp only | (refine State.forEach_holds ?_ _ _ (fun _ _ _ => ?_)) | (refine State.onlyIf_holds ?_ _ _ (fun _ _ => ?_))

@[simp] theorem State.decideBy_holds {B : List Host.Cell} {L : List Instr} {s : State} (hs : s.holds B L) (q : ℕ) (r32 : ℤ)  :
    (State.decideBy s q r32).holds B L := by
  unfold State.decideBy; simp +contextual (maxDischargeDepth := 40) [*]

@[simp] theorem State.deferRequest_holds {B : List Host.Cell} {L : List Instr} {s : State} (hs : s.holds B L) (q : ℕ)  :
    (State.deferRequest s q).holds B L := by
  unfold State.deferRequest; simp +contextual (maxDischargeDepth := 40) [*]

@[simp] theorem State.takeCut_holds {B : List Host.Cell} {L : List Instr} {s : State} (hs : s.holds B L) (q : ℕ) (r32 : ℤ)  :
    (State.takeCut s q r32).holds B L := by
  unfold State.takeCut; repeat' first | (simp +contextual (maxDischargeDepth := 40) [*]; done) | split | dsimp only | (refine State.forEach_holds ?_ _ _ (fun _ _ _ => ?_)) | (refine State.onlyIf_holds ?_ _ _ (fun _ _ => ?_))

@[simp] theorem State.considerRequest_holds {B : List Host.Cell} {L : List Instr} {s : State} (hs : s.holds B L) (q : ℕ) (r32 : ℤ)  :
    (State.considerRequest s q r32).holds B L := by
  unfold State.considerRequest; repeat' first | (simp +contextual (maxDischargeDepth := 40) [*]; done) | split | dsimp only | (refine State.forEach_holds ?_ _ _ (fun _ _ _ => ?_)) | (refine State.onlyIf_holds ?_ _ _ (fun _ _ => ?_))

@[simp] theorem State.seqRequest_holds {B : List Host.Cell} {L : List Instr} {s : State} (hs : s.holds B L) (q : ℕ) (r32 : ℤ)  :
    (State.seqRequest s q r32).holds B L := by
  unfold State.seqRequest; simp +contextual (maxDischargeDepth := 40) [*]

@[simp] theorem State.setReady_holds {B : List Host.Cell} {L : List Instr} {s : State} (hs : s.holds B L) (c : ℕ)  :
    (State.setReady s c).holds B L := by
  unfold State.setReady; repeat' first | (simp +contextual (maxDischargeDepth := 40) [*]; done) | split | dsimp only | (refine State.forEach_holds ?_ _ _ (fun _ _ _ => ?_)) | (refine State.onlyIf_holds ?_ _ _ (fun _ _ => ?_))

@[simp] theorem State.seqFirstFetch_holds {B : List Host.Cell} {L : List Instr} {s : State} (hs : s.holds B L) (q : ℕ)  :
    (State.seqFirstFetch s q).holds B L := by
  unfold State.seqFirstFetch; repeat' first | (simp +contextual (maxDischargeDepth := 40) [*]; done) | split | dsimp only | (refine State.forEach_holds ?_ _ _ (fun _ _ _ => ?_)) | (refine State.onlyIf_holds ?_ _ _ (fun _ _ => ?_))

@[simp] theorem State.seqParkFetch_holds {B : List Host.Cell} {L : List Instr} {s : State} (hs : s.holds B L) (q : ℕ)  :
    (State.seqParkFetch s q).holds B L := by
  unfold State.seqParkFetch; repeat' first | (simp +contextual (maxDischargeDepth := 40) [*]; done) | split | dsimp only | (refine State.forEach_holds ?_ _ _ (fun _ _ _ => ?_)) | (refine State.onlyIf_holds ?_ _ _ (fun _ _ => ?_))

theorem execSeqDecision_holds {B : List Host.Cell} {L : List Instr} {s : State} (hs : s.holds B L) (q : ℕ)  :
    ∀ u, execSeqDecision q s = .next u → u.holds B L := by
  intro u ht; unfold execSeqDecision at ht
  refine guarded_holds (fun s hs => ?_) hs ht
  repeat' first | (simp +contextual (maxDischargeDepth := 40) [*]; done) | split | dsimp only | (refine State.forEach_holds ?_ _ _ (fun _ _ _ => ?_)) | (refine State.onlyIf_holds ?_ _ _ (fun _ _ => ?_))

@[simp] theorem State.jumpTaken_holds {B : List Host.Cell} {L : List Instr} {s : State} (hs : s.holds B L) (q : ℕ) (t : ℤ) (data : ℕ) (course : ℕ) (target : ℕ)  :
    (State.jumpTaken s q t data course target).holds B L := by
  unfold State.jumpTaken; simp +contextual (maxDischargeDepth := 40) [*]

@[simp] theorem State.seqCounters_holds {B : List Host.Cell} {L : List Instr} {s : State} (hs : s.holds B L) (q : ℕ) (c : ℕ) (n : SeqOcc)  :
    (State.seqCounters s q c n).holds B L := by
  unfold State.seqCounters; repeat' first | (simp +contextual (maxDischargeDepth := 40) [*]; done) | split | dsimp only | (refine State.forEach_holds ?_ _ _ (fun _ _ _ => ?_)) | (refine State.onlyIf_holds ?_ _ _ (fun _ _ => ?_))

@[simp] theorem State.seqMarkers_holds {B : List Host.Cell} {L : List Instr} {s : State} (hs : s.holds B L) (q : ℕ) (o : SeqOcc)  :
    (State.seqMarkers s q o).holds B L := by
  unfold State.seqMarkers; simp +contextual (maxDischargeDepth := 40) [*]

@[simp] theorem State.consumeReady_holds {B : List Host.Cell} {L : List Instr} {s : State} (hs : s.holds B L) (p : Course) (next : ℕ)  :
    (State.consumeReady s p next).holds B L := by
  unfold State.consumeReady; simp +contextual (maxDischargeDepth := 40) [*]

@[simp] theorem State.seqBegin_holds {B : List Host.Cell} {L : List Instr} {s : State} (hs : s.holds B L) (q : ℕ) (n : SeqOcc) (rest : List SeqOcc)  :
    (State.seqBegin s q n rest).holds B L := by
  unfold State.seqBegin; repeat' first | (simp +contextual (maxDischargeDepth := 40) [*]; done) | split | dsimp only | (refine State.forEach_holds ?_ _ _ (fun _ _ _ => ?_)) | (refine State.onlyIf_holds ?_ _ _ (fun _ _ => ?_))

@[simp] theorem State.seqPark_holds {B : List Host.Cell} {L : List Instr} {s : State} (hs : s.holds B L) (q : ℕ) (b : ℤ)  :
    (State.seqPark s q b).holds B L := by
  unfold State.seqPark
  extract_lets s1
  have h_s1 : s1.holds B L := by simp only [s1]; repeat' first | (simp +contextual (maxDischargeDepth := 40) [*]; done) | split | dsimp only | (refine State.forEach_holds ?_ _ _ (fun _ _ _ => ?_)) | (refine State.onlyIf_holds ?_ _ _ (fun _ _ => ?_))
  clear_value s1
  repeat' first | (simp +contextual (maxDischargeDepth := 40) [*]; done) | split | dsimp only | (refine State.forEach_holds ?_ _ _ (fun _ _ _ => ?_)) | (refine State.onlyIf_holds ?_ _ _ (fun _ _ => ?_))

@[simp] theorem State.seqAdvance_holds {B : List Host.Cell} {L : List Instr} {s : State} (hs : s.holds B L) (q : ℕ)  :
    (State.seqAdvance s q).holds B L := by
  unfold State.seqAdvance; repeat' first | (simp +contextual (maxDischargeDepth := 40) [*]; done) | split | dsimp only | (refine State.forEach_holds ?_ _ _ (fun _ _ _ => ?_)) | (refine State.onlyIf_holds ?_ _ _ (fun _ _ => ?_))

theorem execSeqOccurrenceStart_holds {B : List Host.Cell} {L : List Instr} {s : State} (hs : s.holds B L) (q : ℕ)  :
    ∀ u, execSeqOccurrenceStart q s = .next u → u.holds B L := by
  intro u ht; unfold execSeqOccurrenceStart at ht
  refine guarded_holds (fun s hs => ?_) hs ht
  repeat' first | (simp +contextual (maxDischargeDepth := 40) [*]; done) | split | dsimp only | (refine State.forEach_holds ?_ _ _ (fun _ _ _ => ?_)) | (refine State.onlyIf_holds ?_ _ _ (fun _ _ => ?_))

theorem execSeqCut_holds {B : List Host.Cell} {L : List Instr} {s : State} (hs : s.holds B L) (q : ℕ)  :
    ∀ u, execSeqCut q s = .next u → u.holds B L := by
  intro u ht; unfold execSeqCut at ht
  refine guarded_holds (fun s hs => ?_) hs ht
  repeat' first | (simp +contextual (maxDischargeDepth := 40) [*]; done) | split | dsimp only | (refine State.forEach_holds ?_ _ _ (fun _ _ _ => ?_)) | (refine State.onlyIf_holds ?_ _ _ (fun _ _ => ?_))

theorem execSeqParkResume_holds {B : List Host.Cell} {L : List Instr} {s : State} (hs : s.holds B L) (q : ℕ)  :
    ∀ u, execSeqParkResume q s = .next u → u.holds B L := by
  intro u ht; unfold execSeqParkResume at ht
  refine guarded_holds (fun s hs => ?_) hs ht
  repeat' first | (simp +contextual (maxDischargeDepth := 40) [*]; done) | split | dsimp only | (refine State.forEach_holds ?_ _ _ (fun _ _ _ => ?_)) | (refine State.onlyIf_holds ?_ _ _ (fun _ _ => ?_))

theorem execSeqStop_holds {B : List Host.Cell} {L : List Instr} {s : State} (hs : s.holds B L) (q : ℕ)  :
    ∀ u, execSeqStop q s = .next u → u.holds B L := by
  intro u ht; unfold execSeqStop at ht
  refine guarded_holds (fun s hs => ?_) hs ht
  repeat' first | (simp +contextual (maxDischargeDepth := 40) [*]; done) | split | dsimp only | (refine State.forEach_holds ?_ _ _ (fun _ _ _ => ?_)) | (refine State.onlyIf_holds ?_ _ _ (fun _ _ => ?_))

@[simp] theorem State.putBank_holds {B : List Host.Cell} {L : List Instr} {s : State} (hs : s.holds B L) (q : ℕ) (d : ℕ) (i : ℕ) (b : SeqBank)  :
    (State.putBank s q d i b).holds B L := by
  unfold State.putBank; simp +contextual (maxDischargeDepth := 40) [*]

@[simp] theorem State.recordError_holds {B : List Host.Cell} {L : List Instr} {s : State} (hs : s.holds B L) (q : ℕ)  :
    (State.recordError s q).holds B L := by
  unfold State.recordError; simp +contextual (maxDischargeDepth := 40) [*]

@[simp] theorem State.playRecord_holds {B : List Host.Cell} {L : List Instr} {s : State} (hs : s.holds B L) (q : ℕ) (d : ℕ) (v : ℕ) (o : SeqOcc)  :
    (State.playRecord s q d v o).holds B L := by
  unfold State.playRecord; simp +contextual (maxDischargeDepth := 40) [*]

@[simp] theorem State.consumeRecord_holds {B : List Host.Cell} {L : List Instr} {s : State} (hs : s.holds B L) (q : ℕ) (d : ℕ) (i : ℕ) (o : SeqOcc) (v : ℕ)  :
    (State.consumeRecord s q d i o v).holds B L := by
  unfold State.consumeRecord; simp +contextual (maxDischargeDepth := 40) [*]

@[simp] theorem State.playOp_holds {B : List Host.Cell} {L : List Instr} {s : State} (hs : s.holds B L) (q : ℕ) (op : ℕ)  :
    (State.playOp s q op).holds B L := by
  unfold State.playOp; repeat' first | (simp +contextual (maxDischargeDepth := 40) [*]; done) | split | dsimp only | (refine State.forEach_holds ?_ _ _ (fun _ _ _ => ?_)) | (refine State.onlyIf_holds ?_ _ _ (fun _ _ => ?_))

theorem execEdgeHi_holds {B : List Host.Cell} {L : List Instr} {s : State} (hs : s.holds B L) (q : ℕ)  :
    ∀ u, execEdgeHi q s = .next u → u.holds B L := by
  intro u ht; unfold execEdgeHi at ht
  refine guarded_holds (fun s hs => ?_) hs ht
  repeat' first | (simp +contextual (maxDischargeDepth := 40) [*]; done) | split | dsimp only | (refine State.forEach_holds ?_ _ _ (fun _ _ _ => ?_)) | (refine State.onlyIf_holds ?_ _ _ (fun _ _ => ?_))

theorem execEdgeLo_holds {B : List Host.Cell} {L : List Instr} {s : State} (hs : s.holds B L) (q : ℕ)  :
    ∀ u, execEdgeLo q s = .next u → u.holds B L := by
  intro u ht; unfold execEdgeLo at ht
  refine guarded_holds (fun s hs => ?_) hs ht
  repeat' first | (simp +contextual (maxDischargeDepth := 40) [*]; done) | split | dsimp only | (refine State.forEach_holds ?_ _ _ (fun _ _ _ => ?_)) | (refine State.onlyIf_holds ?_ _ _ (fun _ _ => ?_))

theorem execToggle_holds {B : List Host.Cell} {L : List Instr} {s : State} (hs : s.holds B L) (q : ℕ)  :
    ∀ u, execToggle q s = .next u → u.holds B L := by
  intro u ht; unfold execToggle at ht
  refine guarded_holds (fun s hs => ?_) hs ht
  repeat' first | (simp +contextual (maxDischargeDepth := 40) [*]; done) | split | dsimp only | (refine State.forEach_holds ?_ _ _ (fun _ _ _ => ?_)) | (refine State.onlyIf_holds ?_ _ _ (fun _ _ => ?_))

theorem execMark_holds {B : List Host.Cell} {L : List Instr} {s : State} (hs : s.holds B L) (q : ℕ)  :
    ∀ u, execMark q s = .next u → u.holds B L := by
  intro u ht; unfold execMark at ht
  refine guarded_holds (fun s hs => ?_) hs ht
  repeat' first | (simp +contextual (maxDischargeDepth := 40) [*]; done) | split | dsimp only | (refine State.forEach_holds ?_ _ _ (fun _ _ _ => ?_)) | (refine State.onlyIf_holds ?_ _ _ (fun _ _ => ?_))

theorem execRecordNop_holds {B : List Host.Cell} {L : List Instr} {s : State} (hs : s.holds B L) (q : ℕ)  :
    ∀ u, execRecordNop q s = .next u → u.holds B L := by
  intro u ht; unfold execRecordNop at ht
  refine guarded_holds (fun s hs => ?_) hs ht
  repeat' first | (simp +contextual (maxDischargeDepth := 40) [*]; done) | split | dsimp only | (refine State.forEach_holds ?_ _ _ (fun _ _ _ => ?_)) | (refine State.onlyIf_holds ?_ _ _ (fun _ _ => ?_))

theorem execRecordEnd_holds {B : List Host.Cell} {L : List Instr} {s : State} (hs : s.holds B L) (q : ℕ)  :
    ∀ u, execRecordEnd q s = .next u → u.holds B L := by
  intro u ht; unfold execRecordEnd at ht
  refine guarded_holds (fun s hs => ?_) hs ht
  repeat' first | (simp +contextual (maxDischargeDepth := 40) [*]; done) | split | dsimp only | (refine State.forEach_holds ?_ _ _ (fun _ _ _ => ?_)) | (refine State.onlyIf_holds ?_ _ _ (fun _ _ => ?_))

theorem execBankEcc_holds {B : List Host.Cell} {L : List Instr} {s : State} (hs : s.holds B L) (q : ℕ) (granule : ℕ) (uncorrectable : Bool)  :
    ∀ u, execBankEcc q granule uncorrectable s = .next u → u.holds B L := by
  intro u ht; unfold execBankEcc at ht
  refine guarded_holds (fun s hs => ?_) hs ht
  repeat' first | (simp +contextual (maxDischargeDepth := 40) [*]; done) | split | dsimp only | (refine State.forEach_holds ?_ _ _ (fun _ _ _ => ?_)) | (refine State.onlyIf_holds ?_ _ _ (fun _ _ => ?_))

theorem execCourseTableEcc_holds {B : List Host.Cell} {L : List Instr} {s : State} (hs : s.holds B L) (c : ℕ) (uncorrectable : Bool)  :
    ∀ u, execCourseTableEcc c uncorrectable s = .next u → u.holds B L := by
  intro u ht; unfold execCourseTableEcc at ht
  refine guarded_holds (fun s hs => ?_) hs ht
  repeat' first | (simp +contextual (maxDischargeDepth := 40) [*]; done) | split | dsimp only | (refine State.forEach_holds ?_ _ _ (fun _ _ _ => ?_)) | (refine State.onlyIf_holds ?_ _ _ (fun _ _ => ?_))

@[simp] theorem State.activeDrop_holds {B : List Host.Cell} {L : List Instr} {s : State} (hs : s.holds B L) (q : ℕ) (a : ℕ)  :
    (State.activeDrop s q a).holds B L := by
  unfold State.activeDrop; simp +contextual (maxDischargeDepth := 40) [*]

@[simp] theorem State.courseDrop_holds {B : List Host.Cell} {L : List Instr} {s : State} (hs : s.holds B L) (c : ℕ)  :
    (State.courseDrop s c).holds B L := by
  unfold State.courseDrop; simp +contextual (maxDischargeDepth := 40) [*]

@[simp] theorem State.bar2Drop_holds {B : List Host.Cell} {L : List Instr} {s : State} (hs : s.holds B L)  :
    (State.bar2Drop s).holds B L := by
  unfold State.bar2Drop; simp +contextual (maxDischargeDepth := 40) [*]

@[simp] theorem State.refillShow_holds {B : List Host.Cell} {L : List Instr} {s : State} (hs : s.holds B L) (q : ℕ)  :
    (State.refillShow s q).holds B L := by
  unfold State.refillShow; simp +contextual (maxDischargeDepth := 40) [*]

@[simp] theorem State.refillEnded_holds {B : List Host.Cell} {L : List Instr} {s : State} (hs : s.holds B L) (q : ℕ) (r : Refill) (failed : Bool) (set : Bool)  :
    (State.refillEnded s q r failed set).holds B L := by
  unfold State.refillEnded; simp +contextual (maxDischargeDepth := 40) [*]

@[simp] theorem State.refillSubmit_holds {B : List Host.Cell} {L : List Instr} {s : State} (hs : s.holds B L) (agent : ℕ) (q : ℕ)  :
    (State.refillSubmit s agent q).1.holds B L := by
  unfold State.refillSubmit; simp +contextual (maxDischargeDepth := 40) [*]

@[simp] theorem State.refillFlush_holds {B : List Host.Cell} {L : List Instr} {s : State} (hs : s.holds B L) (q : ℕ)  :
    (State.refillFlush s q).1.holds B L := by
  unfold State.refillFlush; simp +contextual (maxDischargeDepth := 40) [*]

@[simp] theorem State.refillError_holds {B : List Host.Cell} {L : List Instr} {s : State} (hs : s.holds B L) (q : ℕ)  :
    (State.refillError s q).holds B L := by
  unfold State.refillError; simp +contextual (maxDischargeDepth := 40) [*]

theorem execRefillDmaError_holds {B : List Host.Cell} {L : List Instr} {s : State} (hs : s.holds B L) (q : ℕ)  :
    ∀ u, execRefillDmaError q s = .next u → u.holds B L := by
  intro u ht; unfold execRefillDmaError at ht
  refine guarded_holds (fun s hs => ?_) hs ht
  repeat' first | (simp +contextual (maxDischargeDepth := 40) [*]; done) | split | dsimp only | (refine State.forEach_holds ?_ _ _ (fun _ _ _ => ?_)) | (refine State.onlyIf_holds ?_ _ _ (fun _ _ => ?_))

@[simp] theorem State.seqStartAt_holds {B : List Host.Cell} {L : List Instr} {s : State} (hs : s.holds B L) (q : ℕ) (mode : ℕ) (c : ℕ) (s0 : ℤ)  :
    (State.seqStartAt s q mode c s0).1.holds B L := by
  unfold State.seqStartAt; simp +contextual (maxDischargeDepth := 40) [*]

@[simp] theorem State.seqStart_holds {B : List Host.Cell} {L : List Instr} {s : State} (hs : s.holds B L) (q : ℕ)  :
    (State.seqStart s q).1.holds B L := by
  unfold State.seqStart; simp +contextual (maxDischargeDepth := 40) [*]

@[simp] theorem State.seqTriggered_holds {B : List Host.Cell} {L : List Instr} {s : State} (hs : s.holds B L) (q : ℕ) (t : ℕ) (teb : ℕ)  :
    (State.seqTriggered s q t teb).holds B L := by
  unfold State.seqTriggered; repeat' first | (simp +contextual (maxDischargeDepth := 40) [*]; done) | split | dsimp only | (refine State.forEach_holds ?_ _ _ (fun _ _ _ => ?_)) | (refine State.onlyIf_holds ?_ _ _ (fun _ _ => ?_))

@[simp] theorem State.seqStopEnd_holds {B : List Host.Cell} {L : List Instr} {s : State} (hs : s.holds B L) (q : ℕ)  :
    (State.seqStopEnd s q).1.holds B L := by
  unfold State.seqStopEnd; simp +contextual (maxDischargeDepth := 40) [*]

@[simp] theorem State.seqHaltFrom_holds {B : List Host.Cell} {L : List Instr} {s : State} (hs : s.holds B L) (q : ℕ) (t : ℤ)  :
    (State.seqHaltFrom s q t).holds B L := by
  unfold State.seqHaltFrom; simp +contextual (maxDischargeDepth := 40) [*]

@[simp] theorem State.seqStopParked_holds {B : List Host.Cell} {L : List Instr} {s : State} (hs : s.holds B L) (q : ℕ) (reason : ℕ)  :
    (State.seqStopParked s q reason).holds B L := by
  unfold State.seqStopParked; simp +contextual (maxDischargeDepth := 40) [*]

@[simp] theorem State.seqStopNow_holds {B : List Host.Cell} {L : List Instr} {s : State} (hs : s.holds B L) (q : ℕ)  :
    (State.seqStopNow s q).1.holds B L := by
  unfold State.seqStopNow; repeat' first | (simp +contextual (maxDischargeDepth := 40) [*]; done) | split | dsimp only | (refine State.forEach_holds ?_ _ _ (fun _ _ _ => ?_)) | (refine State.onlyIf_holds ?_ _ _ (fun _ _ => ?_))

@[simp] theorem State.seqJump_holds {B : List Host.Cell} {L : List Instr} {s : State} (hs : s.holds B L) (q : ℕ)  :
    (State.seqJump s q).1.holds B L := by
  unfold State.seqJump; simp +contextual (maxDischargeDepth := 40) [*]

@[simp] theorem State.seqClear_holds {B : List Host.Cell} {L : List Instr} {s : State} (hs : s.holds B L) (q : ℕ)  :
    (State.seqClear s q).1.holds B L := by
  unfold State.seqClear; simp +contextual (maxDischargeDepth := 40) [*]

@[simp] theorem State.seqDisarm_holds {B : List Host.Cell} {L : List Instr} {s : State} (hs : s.holds B L) (q : ℕ)  :
    (State.seqDisarm s q).1.holds B L := by
  unfold State.seqDisarm; simp +contextual (maxDischargeDepth := 40) [*]

@[simp] theorem State.seqCmd_holds {B : List Host.Cell} {L : List Instr} {s : State} (hs : s.holds B L) (q : ℕ) (v : ℕ)  :
    (State.seqCmd s q v).1.holds B L := by
  unfold State.seqCmd; repeat' first | (simp +contextual (maxDischargeDepth := 40) [*]; done) | split | dsimp only | (refine State.forEach_holds ?_ _ _ (fun _ _ _ => ?_)) | (refine State.onlyIf_holds ?_ _ _ (fun _ _ => ?_))

@[simp] theorem State.refillCmd_holds {B : List Host.Cell} {L : List Instr} {s : State} (hs : s.holds B L) (agent : ℕ) (q : ℕ) (v : ℕ)  :
    (State.refillCmd s agent q v).1.holds B L := by
  unfold State.refillCmd; repeat' first | (simp +contextual (maxDischargeDepth := 40) [*]; done) | split | dsimp only | (refine State.forEach_holds ?_ _ _ (fun _ _ _ => ?_)) | (refine State.onlyIf_holds ?_ _ _ (fun _ _ => ?_))

@[simp] theorem State.seqOrphan_holds {B : List Host.Cell} {L : List Instr} {s : State} (hs : s.holds B L) (q : ℕ)  :
    (State.seqOrphan s q).holds B L := by
  unfold State.seqOrphan; repeat' first | (simp +contextual (maxDischargeDepth := 40) [*]; done) | split | dsimp only | (refine State.forEach_holds ?_ _ _ (fun _ _ _ => ?_)) | (refine State.onlyIf_holds ?_ _ _ (fun _ _ => ?_))

@[simp] theorem State.seqDeviceSafe_holds {B : List Host.Cell} {L : List Instr} {s : State} (hs : s.holds B L) (q : ℕ)  :
    (State.seqDeviceSafe s q).holds B L := by
  unfold State.seqDeviceSafe; simp +contextual (maxDischargeDepth := 40) [*]

@[simp] theorem State.seqStep_holds {B : List Host.Cell} {L : List Instr} {s : State} (hs : s.holds B L) (q : ℕ) (d : ℤ)  :
    (State.seqStep s q d).holds B L := by
  unfold State.seqStep; repeat' first | (simp +contextual (maxDischargeDepth := 40) [*]; done) | split | dsimp only | (refine State.forEach_holds ?_ _ _ (fun _ _ _ => ?_)) | (refine State.onlyIf_holds ?_ _ _ (fun _ _ => ?_))

@[simp] theorem State.readySetCmd_holds {B : List Host.Cell} {L : List Instr} {s : State} (hs : s.holds B L)  :
    (State.readySetCmd s).1.holds B L := by
  unfold State.readySetCmd; simp +contextual (maxDischargeDepth := 40) [*]

@[simp] theorem State.readyClearCmd_holds {B : List Host.Cell} {L : List Instr} {s : State} (hs : s.holds B L)  :
    (State.readyClearCmd s).1.holds B L := by
  unfold State.readyClearCmd; simp +contextual (maxDischargeDepth := 40) [*]

@[simp] theorem State.validateCmd_holds {B : List Host.Cell} {L : List Instr} {s : State} (hs : s.holds B L) (agent : ℕ)  :
    (State.validateCmd s agent).1.holds B L := by
  unfold State.validateCmd; repeat' first | (simp +contextual (maxDischargeDepth := 40) [*]; done) | split | dsimp only | (refine State.forEach_holds ?_ _ _ (fun _ _ _ => ?_)) | (refine State.onlyIf_holds ?_ _ _ (fun _ _ => ?_))

@[simp] theorem State.readyCmd_holds {B : List Host.Cell} {L : List Instr} {s : State} (hs : s.holds B L) (agent : ℕ) (v : ℕ)  :
    (State.readyCmd s agent v).1.holds B L := by
  unfold State.readyCmd; repeat' first | (simp +contextual (maxDischargeDepth := 40) [*]; done) | split | dsimp only | (refine State.forEach_holds ?_ _ _ (fun _ _ _ => ?_)) | (refine State.onlyIf_holds ?_ _ _ (fun _ _ => ?_))

end Sys2Proof.Machine
end

