-- ==== Sys2Proof/Laws/FrameSync.lean ====
section
/-! SUPPORT. The operations of Sync leave BAR2 and the queue of waiting commands alone. -/

namespace Sys2Proof.Machine

set_option linter.unusedTactic false
set_option linter.unreachableTactic false

@[simp] theorem State.syncUnresolve_holds {B : List Host.Cell} {L : List Instr} {s : State} (hs : s.holds B L)  :
    (State.syncUnresolve s).holds B L := by
  unfold State.syncUnresolve; simp +contextual (maxDischargeDepth := 40) [*]

@[simp] theorem State.syncSlot_holds {B : List Host.Cell} {L : List Instr} {s : State} (hs : s.holds B L)  :
    (State.syncSlot s).holds B L := by
  unfold State.syncSlot; simp +contextual (maxDischargeDepth := 40) [*]

@[simp] theorem State.syncIn_holds {B : List Host.Cell} {L : List Instr} {s : State} (hs : s.holds B L) (t : ℕ) (growth : ℕ)  :
    (State.syncIn s t growth).holds B L := by
  unfold State.syncIn; simp +contextual (maxDischargeDepth := 40) [*]

@[simp] theorem State.syncCross_holds {B : List Host.Cell} {L : List Instr} {s : State} (hs : s.holds B L) (t : ℕ) (rising : Bool) (growth : ℕ)  :
    (State.syncCross s t rising growth).holds B L := by
  unfold State.syncCross; simp +contextual (maxDischargeDepth := 40) [*]

theorem execSyncInEvent_holds {B : List Host.Cell} {L : List Instr} {s : State} (hs : s.holds B L) (t : ℕ) (rising : Bool) (growth : ℕ)  :
    ∀ u, execSyncInEvent t rising growth s = .next u → u.holds B L := by
  intro u ht; unfold execSyncInEvent at ht
  refine guarded_holds (fun s hs => ?_) hs ht
  repeat' first | (simp +contextual (maxDischargeDepth := 40) [*]; done) | split | dsimp only | (refine State.forEach_holds ?_ _ _ (fun _ _ _ => ?_)) | (refine State.onlyIf_holds ?_ _ _ (fun _ _ => ?_))

@[simp] theorem State.syncOut_holds {B : List Host.Cell} {L : List Instr} {s : State} (hs : s.holds B L) (t : ℤ)  :
    (State.syncOut s t).holds B L := by
  unfold State.syncOut; simp +contextual (maxDischargeDepth := 40) [*]

theorem execSyncOutPulse_holds {B : List Host.Cell} {L : List Instr} {s : State} (hs : s.holds B L) (t : ℕ)  :
    ∀ u, execSyncOutPulse t s = .next u → u.holds B L := by
  intro u ht; unfold execSyncOutPulse at ht
  refine guarded_holds (fun s hs => ?_) hs ht
  repeat' first | (simp +contextual (maxDischargeDepth := 40) [*]; done) | split | dsimp only | (refine State.forEach_holds ?_ _ _ (fun _ _ _ => ?_)) | (refine State.onlyIf_holds ?_ _ _ (fun _ _ => ?_))

theorem execPpsPulse_holds {B : List Host.Cell} {L : List Instr} {s : State} (hs : s.holds B L) (sec : ℕ)  :
    ∀ u, execPpsPulse sec s = .next u → u.holds B L := by
  intro u ht; unfold execPpsPulse at ht
  refine guarded_holds (fun s hs => ?_) hs ht
  repeat' first | (simp +contextual (maxDischargeDepth := 40) [*]; done) | split | dsimp only | (refine State.forEach_holds ?_ _ _ (fun _ _ _ => ?_)) | (refine State.onlyIf_holds ?_ _ _ (fun _ _ => ?_))

@[simp] theorem State.syncStep_holds {B : List Host.Cell} {L : List Instr} {s : State} (hs : s.holds B L) (d : ℤ)  :
    (State.syncStep s d).holds B L := by
  unfold State.syncStep; simp +contextual (maxDischargeDepth := 40) [*]

end Sys2Proof.Machine
end

