-- ==== Sys2Proof/Laws/FramePhase.lean ====
section
/-! SUPPORT. The operations of Phase leave BAR2 and the queue of waiting commands alone. -/

namespace Sys2Proof.Machine

set_option linter.unusedTactic false
set_option linter.unreachableTactic false

@[simp] theorem State.setPhase_holds {B : List Host.Cell} {L : List Instr} {s : State} (hs : s.holds B L) (t : ℕ) (x : PhaseSt)  :
    (State.setPhase s t x).holds B L := by
  unfold State.setPhase; simp +contextual (maxDischargeDepth := 40) [*]

@[simp] theorem State.showFit_holds {B : List Host.Cell} {L : List Instr} {s : State} (hs : s.holds B L) (t : ℕ) (f : PhaseFit)  :
    (State.showFit s t f).holds B L := by
  unfold State.showFit; simp +contextual (maxDischargeDepth := 40) [*]

@[simp] theorem State.refreshFit_holds {B : List Host.Cell} {L : List Instr} {s : State} (hs : s.holds B L) (t : ℕ)  :
    (State.refreshFit s t).holds B L := by
  unfold State.refreshFit; repeat' first | (simp +contextual (maxDischargeDepth := 40) [*]; done) | split | dsimp only | (refine State.forEach_holds ?_ _ _ (fun _ _ _ => ?_)) | (refine State.onlyIf_holds ?_ _ _ (fun _ _ => ?_))

@[simp] theorem State.phaseAccept_holds {B : List Host.Cell} {L : List Instr} {s : State} (hs : s.holds B L) (t : ℕ) (j : ℤ) (at_ : ℤ)  :
    (State.phaseAccept s t j at_).holds B L := by
  unfold State.phaseAccept; repeat' first | (simp +contextual (maxDischargeDepth := 40) [*]; done) | split | dsimp only | (refine State.forEach_holds ?_ _ _ (fun _ _ _ => ?_)) | (refine State.onlyIf_holds ?_ _ _ (fun _ _ => ?_))

@[simp] theorem State.putPhaseState_holds {B : List Host.Cell} {L : List Instr} {s : State} (hs : s.holds B L) (t : ℕ) (st : ℕ)  :
    (State.putPhaseState s t st).holds B L := by
  unfold State.putPhaseState; simp +contextual (maxDischargeDepth := 40) [*]

@[simp] theorem State.reacquire_holds {B : List Host.Cell} {L : List Instr} {s : State} (hs : s.holds B L) (t : ℕ) (j : ℤ)  :
    (State.reacquire s t j).holds B L := by
  unfold State.reacquire; simp +contextual (maxDischargeDepth := 40) [*]

@[simp] theorem State.phaseAcquire_holds {B : List Host.Cell} {L : List Instr} {s : State} (hs : s.holds B L) (t : ℕ) (at_ : ℤ)  :
    (State.phaseAcquire s t at_).holds B L := by
  unfold State.phaseAcquire; simp +contextual (maxDischargeDepth := 40) [*]

@[simp] theorem State.phaseSlip_holds {B : List Host.Cell} {L : List Instr} {s : State} (hs : s.holds B L) (t : ℕ) (j : ℤ) (e : ℤ) (at_ : ℤ)  :
    (State.phaseSlip s t j e at_).holds B L := by
  unfold State.phaseSlip; simp +contextual (maxDischargeDepth := 40) [*]

@[simp] theorem State.phaseTrack_holds {B : List Host.Cell} {L : List Instr} {s : State} (hs : s.holds B L) (t : ℕ) (at_ : ℤ)  :
    (State.phaseTrack s t at_).holds B L := by
  unfold State.phaseTrack; repeat' first | (simp +contextual (maxDischargeDepth := 40) [*]; done) | split | dsimp only | (refine State.forEach_holds ?_ _ _ (fun _ _ _ => ?_)) | (refine State.onlyIf_holds ?_ _ _ (fun _ _ => ?_))

@[simp] theorem State.phaseStamp_holds {B : List Host.Cell} {L : List Instr} {s : State} (hs : s.holds B L) (t : ℕ) (at_ : ℤ)  :
    (State.phaseStamp s t at_).holds B L := by
  unfold State.phaseStamp; repeat' first | (simp +contextual (maxDischargeDepth := 40) [*]; done) | split | dsimp only | (refine State.forEach_holds ?_ _ _ (fun _ _ _ => ?_)) | (refine State.onlyIf_holds ?_ _ _ (fun _ _ => ?_))

theorem execPhaseSourceLost_holds {B : List Host.Cell} {L : List Instr} {s : State} (hs : s.holds B L) (t : ℕ)  :
    ∀ u, execPhaseSourceLost t s = .next u → u.holds B L := by
  intro u ht; unfold execPhaseSourceLost at ht
  refine guarded_holds (fun s hs => ?_) hs ht
  repeat' first | (simp +contextual (maxDischargeDepth := 40) [*]; done) | split | dsimp only | (refine State.forEach_holds ?_ _ _ (fun _ _ _ => ?_)) | (refine State.onlyIf_holds ?_ _ _ (fun _ _ => ?_))

@[simp] theorem State.phaseRestart_holds {B : List Host.Cell} {L : List Instr} {s : State} (hs : s.holds B L) (t : ℕ)  :
    (State.phaseRestart s t).holds B L := by
  unfold State.phaseRestart; simp +contextual (maxDischargeDepth := 40) [*]

@[simp] theorem State.phaseStart_holds {B : List Host.Cell} {L : List Instr} {s : State} (hs : s.holds B L) (t : ℕ)  :
    (State.phaseStart s t).holds B L := by
  unfold State.phaseStart; simp +contextual (maxDischargeDepth := 40) [*]

@[simp] theorem State.phaseStop_holds {B : List Host.Cell} {L : List Instr} {s : State} (hs : s.holds B L) (t : ℕ)  :
    (State.phaseStop s t).holds B L := by
  unfold State.phaseStop; simp +contextual (maxDischargeDepth := 40) [*]

@[simp] theorem State.phaseStep_holds {B : List Host.Cell} {L : List Instr} {s : State} (hs : s.holds B L) (t : ℕ) (d : ℤ)  :
    (State.phaseStep s t d).holds B L := by
  unfold State.phaseStep; simp +contextual (maxDischargeDepth := 40) [*]

@[simp] theorem State.phaseEvent_holds {B : List Host.Cell} {L : List Instr} {s : State} (hs : s.holds B L) (t : ℕ)  :
    (State.phaseEvent s t).holds B L := by
  unfold State.phaseEvent; repeat' first | (simp +contextual (maxDischargeDepth := 40) [*]; done) | split | dsimp only | (refine State.forEach_holds ?_ _ _ (fun _ _ _ => ?_)) | (refine State.onlyIf_holds ?_ _ _ (fun _ _ => ?_))

end Sys2Proof.Machine
end

