-- ==== Sys2Proof/Laws/FrameSched.lean ====
section
/-! SUPPORT. The operations of Sched leave BAR2 and the queue of waiting commands alone. -/

namespace Sys2Proof.Machine

set_option linter.unusedTactic false
set_option linter.unreachableTactic false

@[simp] theorem State.setQueue_holds {B : List Host.Cell} {L : List Instr} {s : State} (hs : s.holds B L) (q : ℕ) (x : QueueSt)  :
    (State.setQueue s q x).holds B L := by
  unfold State.setQueue; simp +contextual (maxDischargeDepth := 40) [*]

@[simp] theorem State.tickStart_holds {B : List Host.Cell} {L : List Instr} {s : State} (hs : s.holds B L) (n : ℕ)  :
    (State.tickStart s n).holds B L := by
  unfold State.tickStart; simp +contextual (maxDischargeDepth := 40) [*]

@[simp] theorem State.tickDeliver_holds {B : List Host.Cell} {L : List Instr} {s : State} (hs : s.holds B L) (n : ℕ)  :
    (State.tickDeliver s n).holds B L := by
  unfold State.tickDeliver; simp +contextual (maxDischargeDepth := 40) [*]

theorem execTickDelivery_holds {B : List Host.Cell} {L : List Instr} {s : State} (hs : s.holds B L) (n : ℕ)  :
    ∀ u, execTickDelivery n s = .next u → u.holds B L := by
  intro u ht; unfold execTickDelivery at ht
  refine guarded_holds (fun s hs => ?_) hs ht
  repeat' first | (simp +contextual (maxDischargeDepth := 40) [*]; done) | split | dsimp only | (refine State.forEach_holds ?_ _ _ (fun _ _ _ => ?_)) | (refine State.onlyIf_holds ?_ _ _ (fun _ _ => ?_))

@[simp] theorem State.tickStep_holds {B : List Host.Cell} {L : List Instr} {s : State} (hs : s.holds B L) (n : ℕ) (now32 : ℤ)  :
    (State.tickStep s n now32).holds B L := by
  unfold State.tickStep; simp +contextual (maxDischargeDepth := 40) [*]

@[simp] theorem State.schedLog_holds {B : List Host.Cell} {L : List Instr} {s : State} (hs : s.holds B L) (a : Action) (actual : ℤ) (outcome : ℕ) (result : ℕ) (gate : ℕ)  :
    (State.schedLog s a actual outcome result gate).holds B L := by
  unfold State.schedLog; simp +contextual (maxDischargeDepth := 40) [*]

@[simp] theorem State.gateValue_holds {B : List Host.Cell} {L : List Instr} {s : State} (hs : s.holds B L) (gate : Option ℕ) (actual : ℤ) (executed : Bool)  :
    (State.gateValue s gate actual executed).2.holds B L := by
  unfold State.gateValue; repeat' first | (simp +contextual (maxDischargeDepth := 40) [*]; done) | split | dsimp only | (refine State.forEach_holds ?_ _ _ (fun _ _ _ => ?_)) | (refine State.onlyIf_holds ?_ _ _ (fun _ _ => ?_))

@[simp] theorem State.logDropped_holds {B : List Host.Cell} {L : List Instr} {s : State} (hs : s.holds B L) (a : Action) (outcome : ℕ) (result : ℕ)  :
    (State.logDropped s a outcome result).holds B L := by
  unfold State.logDropped; simp +contextual (maxDischargeDepth := 40) [*]

@[simp] theorem State.offer_holds {B : List Host.Cell} {L : List Instr} {s : State} (hs : s.holds B L) (q : ℕ) (idx : ℕ) (v : ℕ)  :
    (State.offer s q idx v).1.holds B L := by
  unfold State.offer; repeat' first | (simp +contextual (maxDischargeDepth := 40) [*]; done) | split | dsimp only | (refine State.forEach_holds ?_ _ _ (fun _ _ _ => ?_)) | (refine State.onlyIf_holds ?_ _ _ (fun _ _ => ?_))

theorem execActionAccept_holds {B : List Host.Cell} {L : List Instr} {s : State} (hs : s.holds B L) (r : ℕ) (a : ℕ)  :
    ∀ u, execActionAccept r a s = .next u → u.holds B L := by
  intro u ht; unfold execActionAccept at ht
  refine guarded_holds (fun s hs => ?_) hs ht
  repeat' first | (simp +contextual (maxDischargeDepth := 40) [*]; done) | split | dsimp only | (refine State.forEach_holds ?_ _ _ (fun _ _ _ => ?_)) | (refine State.onlyIf_holds ?_ _ _ (fun _ _ => ?_))

@[simp] theorem State.submit_holds {B : List Host.Cell} {L : List Instr} {s : State} (hs : s.holds B L) (q : ℕ) (action : ℕ)  :
    (State.submit s q action).1.holds B L := by
  unfold State.submit; simp +contextual (maxDischargeDepth := 40) [*]

@[simp] theorem State.discardAll_holds {B : List Host.Cell} {L : List Instr} {s : State} (hs : s.holds B L) (q : ℕ)  :
    (State.discardAll s q).holds B L := by
  unfold State.discardAll; simp +contextual (maxDischargeDepth := 40) [*]

theorem execQueueEcc_holds {B : List Host.Cell} {L : List Instr} {s : State} (hs : s.holds B L) (q : ℕ) (uncorrectable : Bool)  :
    ∀ u, execQueueEcc q uncorrectable s = .next u → u.holds B L := by
  intro u ht; unfold execQueueEcc at ht
  refine guarded_holds (fun s hs => ?_) hs ht
  repeat' first | (simp +contextual (maxDischargeDepth := 40) [*]; done) | split | dsimp only | (refine State.forEach_holds ?_ _ _ (fun _ _ _ => ?_)) | (refine State.onlyIf_holds ?_ _ _ (fun _ _ => ?_))

@[simp] theorem State.setHead_holds {B : List Host.Cell} {L : List Instr} {s : State} (hs : s.holds B L) (q : ℕ) (a : Action)  :
    (State.setHead s q a).holds B L := by
  unfold State.setHead; simp +contextual (maxDischargeDepth := 40) [*]

@[simp] theorem State.popHead_holds {B : List Host.Cell} {L : List Instr} {s : State} (hs : s.holds B L) (q : ℕ)  :
    (State.popHead s q).holds B L := by
  unfold State.popHead; simp +contextual (maxDischargeDepth := 40) [*]

@[simp] theorem State.boundFail_holds {B : List Host.Cell} {L : List Instr} {s : State} (hs : s.holds B L)  :
    (State.boundFail s).holds B L := by
  unfold State.boundFail; simp +contextual (maxDischargeDepth := 40) [*]

@[simp] theorem State.boundNext_holds {B : List Host.Cell} {L : List Instr} {s : State} (hs : s.holds B L) (q : ℕ) (a : Action) (v : ℕ)  :
    (State.boundNext s q a v).holds B L := by
  unfold State.boundNext; simp +contextual (maxDischargeDepth := 40) [*]

@[simp] theorem State.convertHead_holds {B : List Host.Cell} {L : List Instr} {s : State} (hs : s.holds B L) (q : ℕ)  :
    (State.convertHead s q).holds B L := by
  unfold State.convertHead; repeat' first | (simp +contextual (maxDischargeDepth := 40) [*]; done) | split | dsimp only | (refine State.forEach_holds ?_ _ _ (fun _ _ _ => ?_)) | (refine State.onlyIf_holds ?_ _ _ (fun _ _ => ?_))

theorem execPhaseConvert_holds {B : List Host.Cell} {L : List Instr} {s : State} (hs : s.holds B L) (t : ℕ)  :
    ∀ u, execPhaseConvert t s = .next u → u.holds B L := by
  intro u ht; unfold execPhaseConvert at ht
  refine guarded_holds (fun s hs => ?_) hs ht
  repeat' first | (simp +contextual (maxDischargeDepth := 40) [*]; done) | split | dsimp only | (refine State.forEach_holds ?_ _ _ (fun _ _ _ => ?_)) | (refine State.onlyIf_holds ?_ _ _ (fun _ _ => ?_))

@[simp] theorem State.lastLate_holds {B : List Host.Cell} {L : List Instr} {s : State} (hs : s.holds B L) (q : ℕ) (a : Action) (actual : ℤ) (outcome : ℕ)  :
    (State.lastLate s q a actual outcome).holds B L := by
  unfold State.lastLate; simp +contextual (maxDischargeDepth := 40) [*]

@[simp] theorem State.lateAction_holds {B : List Host.Cell} {L : List Instr} {s : State} (hs : s.holds B L) (q : ℕ) (a : Action) (actual : ℤ) (outcome : ℕ)  :
    (State.lateAction s q a actual outcome).holds B L := by
  unfold State.lateAction; simp +contextual (maxDischargeDepth := 40) [*]

@[simp] theorem State.handOver_holds {B : List Host.Cell} {L : List Instr} {s : State} (hs : s.holds B L) (q : ℕ) (a : Action) (t : ℤ) (outcome : ℕ)  :
    (State.handOver s q a t outcome).holds B L := by
  unfold State.handOver; repeat' first | (simp +contextual (maxDischargeDepth := 40) [*]; done) | split | dsimp only | (refine State.forEach_holds ?_ _ _ (fun _ _ _ => ?_)) | (refine State.onlyIf_holds ?_ _ _ (fun _ _ => ?_))

@[simp] theorem State.dispatch_holds {B : List Host.Cell} {L : List Instr} {s0 : State} (hs0 : s0.holds B L)  :
    (State.dispatch s0).holds B L := by
  unfold State.dispatch; repeat' first | (simp +contextual (maxDischargeDepth := 40) [*]; done) | split | dsimp only | (refine State.forEach_holds ?_ _ _ (fun _ _ _ => ?_)) | (refine State.onlyIf_holds ?_ _ _ (fun _ _ => ?_))

@[simp] theorem State.flushQueue_holds {B : List Host.Cell} {L : List Instr} {s : State} (hs : s.holds B L) (q : ℕ)  :
    (State.flushQueue s q).holds B L := by
  unfold State.flushQueue; simp +contextual (maxDischargeDepth := 40) [*]

theorem execActionDispatch_holds {B : List Host.Cell} {L : List Instr} {s : State} (hs : s.holds B L)  :
    ∀ u, execActionDispatch s = .next u → u.holds B L := by
  intro u ht; unfold execActionDispatch at ht
  refine guarded_holds (fun s hs => ?_) hs ht
  repeat' first | (simp +contextual (maxDischargeDepth := 40) [*]; done) | split | dsimp only | (refine State.forEach_holds ?_ _ _ (fun _ _ _ => ?_)) | (refine State.onlyIf_holds ?_ _ _ (fun _ _ => ?_))

@[simp] theorem State.dropDispatched_holds {B : List Host.Cell} {L : List Instr} {s : State} (hs : s.holds B L) (d : Disp)  :
    (State.dropDispatched s d).holds B L := by
  unfold State.dropDispatched; simp +contextual (maxDischargeDepth := 40) [*]

@[simp] theorem State.executed_holds {B : List Host.Cell} {L : List Instr} {s : State} (hs : s.holds B L) (d : Disp)  :
    (State.executed s d).holds B L := by
  unfold State.executed; simp +contextual (maxDischargeDepth := 40) [*]

@[simp] theorem State.targetState_holds {B : List Host.Cell} {L : List Instr} {s : State} (hs : s.holds B L) (d : Disp) (result : ℕ)  :
    (State.targetState s d result).holds B L := by
  unfold State.targetState; simp +contextual (maxDischargeDepth := 40) [*]

@[simp] theorem State.keepHanded_holds {B : List Host.Cell} {L : List Instr} {s : State} (hs : s.holds B L) (d : Disp)  :
    (State.keepHanded s d).holds B L := by
  unfold State.keepHanded; simp +contextual (maxDischargeDepth := 40) [*]

@[simp] theorem State.runAction_holds {B : List Host.Cell} {L : List Instr} {s : State} (hs : s.holds B L) (op : Nat) (f : Disp → State → State × Verdict)
    (hf : ∀ d s, s.holds B L → (f d s).1.holds B L) : (s.runAction op f).holds B L := by
  unfold State.runAction
  split
  · exact hs
  · rename_i d _
    have h1 : (s.dropDispatched d).holds B L := by simp +contextual (maxDischargeDepth := 40) [*]
    have h2 := hf d _ h1
    dsimp only
    generalize (f d (s.dropDispatched d)) = x at h2 ⊢
    obtain ⟨s2, r, _⟩ := x
    cases r <;> simp +contextual (maxDischargeDepth := 40) [*] at h2 ⊢ <;> (split <;> simp +contextual (maxDischargeDepth := 40) [*])

@[simp] theorem State.chanAction_holds {B : List Host.Cell} {L : List Instr} {s : State} (hs : s.holds B L) (d : Disp) (k : Option EdgeKind)  :
    (State.chanAction d k s).1.holds B L := by
  unfold State.chanAction; repeat' first | (simp +contextual (maxDischargeDepth := 40) [*]; done) | split | dsimp only | (refine State.forEach_holds ?_ _ _ (fun _ _ _ => ?_)) | (refine State.onlyIf_holds ?_ _ _ (fun _ _ => ?_))

theorem execActionNop_holds {B : List Host.Cell} {L : List Instr} {s : State} (hs : s.holds B L)  :
    ∀ u, execActionNop s = .next u → u.holds B L := by
  intro u ht; unfold execActionNop at ht
  refine guarded_holds (fun s hs => ?_) hs ht
  repeat' first | (simp +contextual (maxDischargeDepth := 40) [*]; done) | split | dsimp only | (refine State.forEach_holds ?_ _ _ (fun _ _ _ => ?_)) | (refine State.onlyIf_holds ?_ _ _ (fun _ _ => ?_))

theorem execChanHi_holds {B : List Host.Cell} {L : List Instr} {s : State} (hs : s.holds B L)  :
    ∀ u, execChanHi s = .next u → u.holds B L := by
  intro u ht; unfold execChanHi at ht
  refine guarded_holds (fun s hs => ?_) hs ht
  repeat' first | (simp +contextual (maxDischargeDepth := 40) [*]; done) | split | dsimp only | (refine State.forEach_holds ?_ _ _ (fun _ _ _ => ?_)) | (refine State.onlyIf_holds ?_ _ _ (fun _ _ => ?_))

theorem execChanLo_holds {B : List Host.Cell} {L : List Instr} {s : State} (hs : s.holds B L)  :
    ∀ u, execChanLo s = .next u → u.holds B L := by
  intro u ht; unfold execChanLo at ht
  refine guarded_holds (fun s hs => ?_) hs ht
  repeat' first | (simp +contextual (maxDischargeDepth := 40) [*]; done) | split | dsimp only | (refine State.forEach_holds ?_ _ _ (fun _ _ _ => ?_)) | (refine State.onlyIf_holds ?_ _ _ (fun _ _ => ?_))

theorem execChanToggle_holds {B : List Host.Cell} {L : List Instr} {s : State} (hs : s.holds B L)  :
    ∀ u, execChanToggle s = .next u → u.holds B L := by
  intro u ht; unfold execChanToggle at ht
  refine guarded_holds (fun s hs => ?_) hs ht
  repeat' first | (simp +contextual (maxDischargeDepth := 40) [*]; done) | split | dsimp only | (refine State.forEach_holds ?_ _ _ (fun _ _ _ => ?_)) | (refine State.onlyIf_holds ?_ _ _ (fun _ _ => ?_))

theorem execChanPulse_holds {B : List Host.Cell} {L : List Instr} {s : State} (hs : s.holds B L)  :
    ∀ u, execChanPulse s = .next u → u.holds B L := by
  intro u ht; unfold execChanPulse at ht
  refine guarded_holds (fun s hs => ?_) hs ht
  repeat' first | (simp +contextual (maxDischargeDepth := 40) [*]; done) | split | dsimp only | (refine State.forEach_holds ?_ _ _ (fun _ _ _ => ?_)) | (refine State.onlyIf_holds ?_ _ _ (fun _ _ => ?_))

theorem execFireLine_holds {B : List Host.Cell} {L : List Instr} {s : State} (hs : s.holds B L)  :
    ∀ u, execFireLine s = .next u → u.holds B L := by
  intro u ht; unfold execFireLine at ht
  refine guarded_holds (fun s hs => ?_) hs ht
  repeat' first | (simp +contextual (maxDischargeDepth := 40) [*]; done) | split | dsimp only | (refine State.forEach_holds ?_ _ _ (fun _ _ _ => ?_)) | (refine State.onlyIf_holds ?_ _ _ (fun _ _ => ?_))

theorem execSeqStart_holds {B : List Host.Cell} {L : List Instr} {s : State} (hs : s.holds B L)  :
    ∀ u, execSeqStart s = .next u → u.holds B L := by
  intro u ht; unfold execSeqStart at ht
  refine guarded_holds (fun s hs => ?_) hs ht
  repeat' first | (simp +contextual (maxDischargeDepth := 40) [*]; done) | split | dsimp only | (refine State.forEach_holds ?_ _ _ (fun _ _ _ => ?_)) | (refine State.onlyIf_holds ?_ _ _ (fun _ _ => ?_))

theorem execSeqJump_holds {B : List Host.Cell} {L : List Instr} {s : State} (hs : s.holds B L)  :
    ∀ u, execSeqJump s = .next u → u.holds B L := by
  intro u ht; unfold execSeqJump at ht
  refine guarded_holds (fun s hs => ?_) hs ht
  repeat' first | (simp +contextual (maxDischargeDepth := 40) [*]; done) | split | dsimp only | (refine State.forEach_holds ?_ _ _ (fun _ _ _ => ?_)) | (refine State.onlyIf_holds ?_ _ _ (fun _ _ => ?_))

theorem execSeqStopAtEnd_holds {B : List Host.Cell} {L : List Instr} {s : State} (hs : s.holds B L)  :
    ∀ u, execSeqStopAtEnd s = .next u → u.holds B L := by
  intro u ht; unfold execSeqStopAtEnd at ht
  refine guarded_holds (fun s hs => ?_) hs ht
  repeat' first | (simp +contextual (maxDischargeDepth := 40) [*]; done) | split | dsimp only | (refine State.forEach_holds ?_ _ _ (fun _ _ _ => ?_)) | (refine State.onlyIf_holds ?_ _ _ (fun _ _ => ?_))

theorem execSeqStopNow_holds {B : List Host.Cell} {L : List Instr} {s : State} (hs : s.holds B L)  :
    ∀ u, execSeqStopNow s = .next u → u.holds B L := by
  intro u ht; unfold execSeqStopNow at ht
  refine guarded_holds (fun s hs => ?_) hs ht
  repeat' first | (simp +contextual (maxDischargeDepth := 40) [*]; done) | split | dsimp only | (refine State.forEach_holds ?_ _ _ (fun _ _ _ => ?_)) | (refine State.onlyIf_holds ?_ _ _ (fun _ _ => ?_))

theorem execNotify_holds {B : List Host.Cell} {L : List Instr} {s : State} (hs : s.holds B L)  :
    ∀ u, execNotify s = .next u → u.holds B L := by
  intro u ht; unfold execNotify at ht
  refine guarded_holds (fun s hs => ?_) hs ht
  repeat' first | (simp +contextual (maxDischargeDepth := 40) [*]; done) | split | dsimp only | (refine State.forEach_holds ?_ _ _ (fun _ _ _ => ?_)) | (refine State.onlyIf_holds ?_ _ _ (fun _ _ => ?_))

@[simp] theorem State.schedSafeExit_holds {B : List Host.Cell} {L : List Instr} {s : State} (hs : s.holds B L) (agent : ℕ)  :
    (State.schedSafeExit s agent).1.holds B L := by
  unfold State.schedSafeExit; simp +contextual (maxDischargeDepth := 40) [*]

@[simp] theorem State.schedStep_holds {B : List Host.Cell} {L : List Instr} {s : State} (hs : s.holds B L) (d : ℤ)  :
    (State.schedStep s d).holds B L := by
  unfold State.schedStep; simp +contextual (maxDischargeDepth := 40) [*]

end Sys2Proof.Machine
end

