-- ==== Sys2Proof/Laws/FrameTin.lean ====
section
/-! SUPPORT. The operations of Tin leave BAR2 and the queue of waiting commands alone. -/

namespace Sys2Proof.Machine

set_option linter.unusedTactic false
set_option linter.unreachableTactic false

@[simp] theorem State.setTin_holds {B : List Host.Cell} {L : List Instr} {s : State} (hs : s.holds B L) (i : ℕ) (x : TinSt)  :
    (State.setTin s i x).holds B L := by
  unfold State.setTin; simp +contextual (maxDischargeDepth := 40) [*]

@[simp] theorem State.setCore_holds {B : List Host.Cell} {L : List Instr} {s : State} (hs : s.holds B L) (i : ℕ) (k : ℕ) (x : CoreSt)  :
    (State.setCore s i k x).holds B L := by
  unfold State.setCore; simp +contextual (maxDischargeDepth := 40) [*]

@[simp] theorem State.showSubs_holds {B : List Host.Cell} {L : List Instr} {s : State} (hs : s.holds B L) (i : ℕ)  :
    (State.showSubs s i).holds B L := by
  unfold State.showSubs; simp +contextual (maxDischargeDepth := 40) [*]

theorem State.takePlace_holds {B : List Host.Cell} {L : List Instr} {s : State} (hs : s.holds B L) (i : ℕ) (kind : ℕ) (idx : ℕ)  :
    ∀ u, State.takePlace s i kind idx = some u → u.holds B L := by
  intro u ht; unfold State.takePlace at ht; (repeat' split at ht) <;> simp_all <;> (subst ht; simp +contextual (maxDischargeDepth := 40) [*])

@[simp] theorem State.freePlace_holds {B : List Host.Cell} {L : List Instr} {s : State} (hs : s.holds B L) (i : ℕ) (kind : ℕ) (idx : ℕ)  :
    (State.freePlace s i kind idx).holds B L := by
  unfold State.freePlace; repeat' first | (simp +contextual (maxDischargeDepth := 40) [*]; done) | split | dsimp only | (refine State.forEach_holds ?_ _ _ (fun _ _ _ => ?_)) | (refine State.onlyIf_holds ?_ _ _ (fun _ _ => ?_))

theorem State.takePlaces_holds {B : List Host.Cell} {L : List Instr} {s : State} (hs : s.holds B L) (kind idx : Nat) (l : List Nat) :
    ∀ u, s.takePlaces kind idx l = .ok u → u.holds B L := by
  induction l generalizing s with
  | nil => intro u h; cases h; exact hs
  | cons i l ih =>
    intro u h
    unfold State.takePlaces at h
    split at h
    · exact ih (State.takePlace_holds hs _ _ _ _ ‹_›) _ h
    · cases h

@[simp] theorem State.freePlaces_holds {B : List Host.Cell} {L : List Instr} {s : State} (hs : s.holds B L) (kind : ℕ) (idx : ℕ) (is : List ℕ)  :
    (State.freePlaces s kind idx is).holds B L := by
  unfold State.freePlaces; simp +contextual (maxDischargeDepth := 40) [*]

@[simp] theorem State.refreshInput_holds {B : List Host.Cell} {L : List Instr} {s : State} (hs : s.holds B L) (i : ℕ)  :
    (State.refreshInput s i).holds B L := by
  unfold State.refreshInput; simp +contextual (maxDischargeDepth := 40) [*]

@[simp] theorem State.loopStamp_holds {B : List Host.Cell} {L : List Instr} {s : State} (hs : s.holds B L)  :
    (State.loopStamp s).holds B L := by
  unfold State.loopStamp; simp +contextual (maxDischargeDepth := 40) [*]

@[simp] theorem State.unresolve_holds {B : List Host.Cell} {L : List Instr} {s : State} (hs : s.holds B L) (i : ℕ) (ahead : ℕ)  :
    (State.unresolve s i ahead).holds B L := by
  unfold State.unresolve; simp +contextual (maxDischargeDepth := 40) [*]

theorem execInputResolved_holds {B : List Host.Cell} {L : List Instr} {s : State} (hs : s.holds B L) (i : ℕ) (high : Bool)  :
    ∀ u, execInputResolved i high s = .next u → u.holds B L := by
  intro u ht; unfold execInputResolved at ht
  refine guarded_holds (fun s hs => ?_) hs ht
  repeat' first | (simp +contextual (maxDischargeDepth := 40) [*]; done) | split | dsimp only | (refine State.forEach_holds ?_ _ _ (fun _ _ _ => ?_)) | (refine State.onlyIf_holds ?_ _ _ (fun _ _ => ?_))

@[simp] theorem State.noteRecent_holds {B : List Host.Cell} {L : List Instr} {s : State} (hs : s.holds B L) (i : ℕ) (st : Stamp) (w : RecentWhat)  :
    (State.noteRecent s i st w).holds B L := by
  unfold State.noteRecent; simp +contextual (maxDischargeDepth := 40) [*]

@[simp] theorem State.measLost_holds {B : List Host.Cell} {L : List Instr} {s0 : State} (hs0 : s0.holds B L) (i : ℕ) (rising : Bool) (fifo : Bool) (u_ : ℤ)  :
    (State.measLost s0 i rising fifo u_).holds B L := by
  unfold State.measLost; simp +contextual (maxDischargeDepth := 40) [*]

@[simp] theorem State.captureCrossing_holds {B : List Host.Cell} {L : List Instr} {s : State} (hs : s.holds B L) (i : ℕ) (x : Crossing)  :
    (State.captureCrossing s i x).holds B L := by
  unfold State.captureCrossing; simp +contextual (maxDischargeDepth := 40) [*]

@[simp] theorem State.crossing_holds {B : List Host.Cell} {L : List Instr} {s : State} (hs : s.holds B L) (i : ℕ) (x : Crossing)  :
    (State.crossing s i x).holds B L := by
  unfold State.crossing; simp +contextual (maxDischargeDepth := 40) [*]

theorem execInputCrossing_holds {B : List Host.Cell} {L : List Instr} {s : State} (hs : s.holds B L) (i : ℕ) (x : Crossing)  :
    ∀ u, execInputCrossing i x s = .next u → u.holds B L := by
  intro u ht; unfold execInputCrossing at ht
  refine guarded_holds (fun s hs => ?_) hs ht
  repeat' first | (simp +contextual (maxDischargeDepth := 40) [*]; done) | split | dsimp only | (refine State.forEach_holds ?_ _ _ (fun _ _ _ => ?_)) | (refine State.onlyIf_holds ?_ _ _ (fun _ _ => ?_))

@[simp] theorem State.keepTerms_holds {B : List Host.Cell} {L : List Instr} {s : State} (hs : s.holds B L) (i : ℕ)  :
    (State.keepTerms s i).holds B L := by
  unfold State.keepTerms; simp +contextual (maxDischargeDepth := 40) [*]

@[simp] theorem State.fifoEnter_holds {B : List Host.Cell} {L : List Instr} {s : State} (hs : s.holds B L) (i : ℕ) (st : Stamp)  :
    (State.fifoEnter s i st).holds B L := by
  unfold State.fifoEnter; simp +contextual (maxDischargeDepth := 40) [*]

@[simp] theorem State.countEvent_holds {B : List Host.Cell} {L : List Instr} {s : State} (hs : s.holds B L) (i : ℕ) (k : ℕ) (code : ℕ)  :
    (State.countEvent s i k code).holds B L := by
  unfold State.countEvent
  extract_lets c
  split
  · exact hs
  · simp +contextual (maxDischargeDepth := 40) [*]


@[simp] theorem State.stampReady_holds {B : List Host.Cell} {L : List Instr} {s : State} (hs : s.holds B L) (i : ℕ) (c : Conversion)  :
    (State.stampReady s i c).holds B L := by
  unfold State.stampReady; repeat' first | (simp +contextual (maxDischargeDepth := 40) [*]; done) | split | dsimp only | (refine State.forEach_holds ?_ _ _ (fun _ _ _ => ?_)) | (refine State.onlyIf_holds ?_ _ _ (fun _ _ => ?_))

theorem execStampReady_holds {B : List Host.Cell} {L : List Instr} {s : State} (hs : s.holds B L) (i : ℕ) (c : Conversion)  :
    ∀ u, execStampReady i c s = .next u → u.holds B L := by
  intro u ht; unfold execStampReady at ht
  refine guarded_holds (fun s hs => ?_) hs ht
  repeat' first | (simp +contextual (maxDischargeDepth := 40) [*]; done) | split | dsimp only | (refine State.forEach_holds ?_ _ _ (fun _ _ _ => ?_)) | (refine State.onlyIf_holds ?_ _ _ (fun _ _ => ?_))

@[simp] theorem State.coreFail_holds {B : List Host.Cell} {L : List Instr} {s : State} (hs : s.holds B L) (i : ℕ) (k : ℕ)  :
    (State.coreFail s i k).holds B L := by
  unfold State.coreFail; simp +contextual (maxDischargeDepth := 40) [*]

@[simp] theorem State.injectInto_holds {B : List Host.Cell} {L : List Instr} {s : State} (hs : s.holds B L) (i : ℕ) (k : ℕ) (pulse : Bool) (code : ℕ)  :
    (State.injectInto s i k pulse code).holds B L := by
  unfold State.injectInto; simp +contextual (maxDischargeDepth := 40) [*]

theorem execInjectedEvent_holds {B : List Host.Cell} {L : List Instr} {s : State} (hs : s.holds B L) (i : ℕ) (core : ℕ) (pulse : Bool) (code : ℕ)  :
    ∀ u, execInjectedEvent i core pulse code s = .next u → u.holds B L := by
  intro u ht; unfold execInjectedEvent at ht
  refine guarded_holds (fun s hs => ?_) hs ht
  repeat' first | (simp +contextual (maxDischargeDepth := 40) [*]; done) | split | dsimp only | (refine State.forEach_holds ?_ _ _ (fun _ _ _ => ?_)) | (refine State.onlyIf_holds ?_ _ _ (fun _ _ => ?_))

@[simp] theorem State.refreshTinSettled_holds {B : List Host.Cell} {L : List Instr} {s : State} (hs : s.holds B L)  :
    (State.refreshTinSettled s).holds B L := by
  unfold State.refreshTinSettled; simp +contextual (maxDischargeDepth := 40) [*]

@[simp] theorem State.acceptTable_holds {B : List Host.Cell} {L : List Instr} {s : State} (hs : s.holds B L) (i : ℕ) (k : ℕ) (r : TableResult)  :
    (State.acceptTable s i k r).holds B L := by
  unfold State.acceptTable; simp +contextual (maxDischargeDepth := 40) [*]

@[simp] theorem State.tableDone_holds {B : List Host.Cell} {L : List Instr} {s : State} (hs : s.holds B L) (i : ℕ) (k : ℕ) (r : TableResult)  :
    (State.tableDone s i k r).holds B L := by
  unfold State.tableDone; simp +contextual (maxDischargeDepth := 40) [*]

theorem execCalStale_holds {B : List Host.Cell} {L : List Instr} {s : State} (hs : s.holds B L) (i : ℕ) (core : ℕ)  :
    ∀ u, execCalStale i core s = .next u → u.holds B L := by
  intro u ht; unfold execCalStale at ht
  refine guarded_holds (fun s hs => ?_) hs ht
  repeat' first | (simp +contextual (maxDischargeDepth := 40) [*]; done) | split | dsimp only | (refine State.forEach_holds ?_ _ _ (fun _ _ _ => ?_)) | (refine State.onlyIf_holds ?_ _ _ (fun _ _ => ?_))

@[simp] theorem State.recal_holds {B : List Host.Cell} {L : List Instr} {s : State} (hs : s.holds B L) (i : ℕ)  :
    (State.recal s i).holds B L := by
  unfold State.recal; simp +contextual (maxDischargeDepth := 40) [*]

theorem execInputTableEcc_holds {B : List Host.Cell} {L : List Instr} {s : State} (hs : s.holds B L) (i : ℕ) (core : ℕ) (uncorrectable : Bool)  :
    ∀ u, execInputTableEcc i core uncorrectable s = .next u → u.holds B L := by
  intro u ht; unfold execInputTableEcc at ht
  refine guarded_holds (fun s hs => ?_) hs ht
  repeat' first | (simp +contextual (maxDischargeDepth := 40) [*]; done) | split | dsimp only | (refine State.forEach_holds ?_ _ _ (fun _ _ _ => ?_)) | (refine State.onlyIf_holds ?_ _ _ (fun _ _ => ?_))

@[simp] theorem State.tinCommit_holds {B : List Host.Cell} {L : List Instr} {s : State} {old : State} (hs : s.holds B L) (hold : old.holds B L) (i : ℕ)  :
    (State.tinCommit s i old).holds B L := by
  unfold State.tinCommit; simp +contextual (maxDischargeDepth := 40) [*]

end Sys2Proof.Machine
end

