-- ==== Sys2Proof/Laws/FrameMeas.lean ====
section
/-! SUPPORT. The operations of Meas leave BAR2 and the queue of waiting commands alone. -/

namespace Sys2Proof.Machine

set_option linter.unusedTactic false
set_option linter.unreachableTactic false

@[simp] theorem State.setSess_holds {B : List Host.Cell} {L : List Instr} {s : State} (hs : s.holds B L) (k : ℕ) (x : SessionSt)  :
    (State.setSess s k x).holds B L := by
  unfold State.setSess; simp +contextual (maxDischargeDepth := 40) [*]

@[simp] theorem State.setGate_holds {B : List Host.Cell} {L : List Instr} {s : State} (hs : s.holds B L) (g : ℕ) (x : List GateWin)  :
    (State.setGate s g x).holds B L := by
  unfold State.setGate; simp +contextual (maxDischargeDepth := 40) [*]

@[simp] theorem State.setStream_holds {B : List Host.Cell} {L : List Instr} {s : State} (hs : s.holds B L) (k : ℕ) (x : StreamSt)  :
    (State.setStream s k x).holds B L := by
  unfold State.setStream; simp +contextual (maxDischargeDepth := 40) [*]

@[simp] theorem State.putSessState_holds {B : List Host.Cell} {L : List Instr} {s : State} (hs : s.holds B L) (k : ℕ) (st : ℕ)  :
    (State.putSessState s k st).holds B L := by
  unfold State.putSessState; simp +contextual (maxDischargeDepth := 40) [*]

@[simp] theorem State.putResult_holds {B : List Host.Cell} {L : List Instr} {s : State} (hs : s.holds B L) (n : ℕ) (seq : ℕ) (elems : List ℕ)  :
    (State.putResult s n seq elems).holds B L := by
  unfold State.putResult; simp +contextual (maxDischargeDepth := 40) [*]

@[simp] theorem State.earlyStops_holds {B : List Host.Cell} {L : List Instr} {s : State} (hs : s.holds B L) (k : ℕ) (n : ℕ)  :
    (State.earlyStops s k n).holds B L := by
  unfold State.earlyStops; simp +contextual (maxDischargeDepth := 40) [*]

@[simp] theorem State.armOnly_holds {B : List Host.Cell} {L : List Instr} {s : State} (hs : s.holds B L) (k : ℕ) (a : ℤ)  :
    (State.armOnly s k a).holds B L := by
  unfold State.armOnly; simp +contextual (maxDischargeDepth := 40) [*]

@[simp] theorem State.endSession_holds {B : List Host.Cell} {L : List Instr} {s : State} (hs : s.holds B L) (k : ℕ) (timeout : Bool) (aborted : Bool) (endAt : ℤ)  :
    (State.endSession s k timeout aborted endAt).holds B L := by
  unfold State.endSession; simp +contextual (maxDischargeDepth := 40) [*]

@[simp] theorem State.takeWaiting_holds {B : List Host.Cell} {L : List Instr} {s : State} (hs : s.holds B L) (k : ℕ) (at_ : ℤ) (teb : ℕ) (cal : ℕ)  :
    (State.takeWaiting s k at_ teb cal).holds B L := by
  unfold State.takeWaiting; simp +contextual (maxDischargeDepth := 40) [*]

@[simp] theorem State.armSession_holds {B : List Host.Cell} {L : List Instr} {s : State} (hs : s.holds B L) (k : ℕ) (a : ℤ)  :
    (State.armSession s k a).holds B L := by
  unfold State.armSession; simp +contextual (maxDischargeDepth := 40) [*]

@[simp] theorem State.closeSession_holds {B : List Host.Cell} {L : List Instr} {s : State} (hs : s.holds B L) (k : ℕ) (timeout : Bool) (endAt : ℤ)  :
    (State.closeSession s k timeout endAt).holds B L := by
  unfold State.closeSession; simp +contextual (maxDischargeDepth := 40) [*]

@[simp] theorem State.takeStop_holds {B : List Host.Cell} {L : List Instr} {s : State} (hs : s.holds B L) (k : ℕ) (x : Stop)  :
    (State.takeStop s k x).holds B L := by
  unfold State.takeStop; simp +contextual (maxDischargeDepth := 40) [*]

@[simp] theorem State.startSession_holds {B : List Host.Cell} {L : List Instr} {s : State} (hs : s.holds B L) (k : ℕ) (at_ : ℤ) (teb : ℕ) (cal : ℕ)  :
    (State.startSession s k at_ teb cal).holds B L := by
  unfold State.startSession; simp +contextual (maxDischargeDepth := 40) [*]

@[simp] theorem State.sessionStamp_holds {B : List Host.Cell} {L : List Instr} {s : State} (hs : s.holds B L) (k : ℕ) (y : Stop) (teb : ℕ) (cal : ℕ)  :
    (State.sessionStamp s k y teb cal).holds B L := by
  unfold State.sessionStamp; simp +contextual (maxDischargeDepth := 40) [*]

@[simp] theorem State.sessEvent_holds {B : List Host.Cell} {L : List Instr} {s : State} (hs : s.holds B L) (k : ℕ) (e : SessEvent)  :
    (State.sessEvent s k e).holds B L := by
  unfold State.sessEvent; repeat' first | (simp +contextual (maxDischargeDepth := 40) [*]; done) | split | dsimp only | (refine State.forEach_holds ?_ _ _ (fun _ _ _ => ?_)) | (refine State.onlyIf_holds ?_ _ _ (fun _ _ => ?_))

@[simp] theorem State.sessTake_holds {B : List Host.Cell} {L : List Instr} {s : State} (hs : s.holds B L) (k n : Nat) : (s.sessTake k n).holds B L := by
  induction n generalizing s with
  | zero => exact hs
  | succ n ih =>
    unfold State.sessTake
    repeat' first | (simp +contextual (maxDischargeDepth := 40) [*]; done) | split | refine ih ?_

@[simp] theorem State.sessRun_holds {B : List Host.Cell} {L : List Instr} {s : State} (hs : s.holds B L) (k : ℕ)  :
    (State.sessRun s k).holds B L := by
  unfold State.sessRun; simp +contextual (maxDischargeDepth := 40) [*]

@[simp] theorem State.measSlot_holds {B : List Host.Cell} {L : List Instr} {s : State} (hs : s.holds B L)  :
    (State.measSlot s).holds B L := by
  unfold State.measSlot; simp +contextual (maxDischargeDepth := 40) [*]

@[simp] theorem State.toSession_holds {B : List Host.Cell} {L : List Instr} {s : State} (hs : s.holds B L) (k : ℕ) (e : SessEvent)  :
    (State.toSession s k e).holds B L := by
  unfold State.toSession; simp +contextual (maxDischargeDepth := 40) [*]

@[simp] theorem State.drain_holds {B : List Host.Cell} {L : List Instr} {s : State} (hs : s.holds B L) (i : ℕ)  :
    (State.drain s i).holds B L := by
  unfold State.drain; repeat' first | (simp +contextual (maxDischargeDepth := 40) [*]; done) | split | dsimp only | (refine State.forEach_holds ?_ _ _ (fun _ _ _ => ?_)) | (refine State.onlyIf_holds ?_ _ _ (fun _ _ => ?_))

theorem execIntakeDrain_holds {B : List Host.Cell} {L : List Instr} {s : State} (hs : s.holds B L) (i : ℕ)  :
    ∀ u, execIntakeDrain i s = .next u → u.holds B L := by
  intro u ht; unfold execIntakeDrain at ht
  refine guarded_holds (fun s hs => ?_) hs ht
  repeat' first | (simp +contextual (maxDischargeDepth := 40) [*]; done) | split | dsimp only | (refine State.forEach_holds ?_ _ _ (fun _ _ _ => ?_)) | (refine State.onlyIf_holds ?_ _ _ (fun _ _ => ?_))

@[simp] theorem State.intakePut_holds {B : List Host.Cell} {L : List Instr} {s : State} (hs : s.holds B L) (i : ℕ) (st : Stamp)  :
    (State.intakePut s i st).holds B L := by
  unfold State.intakePut; simp +contextual (maxDischargeDepth := 40) [*]

@[simp] theorem State.intakeEnter_holds {B : List Host.Cell} {L : List Instr} {s : State} (hs : s.holds B L) (i : ℕ) (st : Stamp)  :
    (State.intakeEnter s i st).holds B L := by
  unfold State.intakeEnter; simp +contextual (maxDischargeDepth := 40) [*]

@[simp] theorem State.replayOne_holds {B : List Host.Cell} {L : List Instr} {s : State} (hs : s.holds B L) (k : ℕ) (i : ℕ) (r : Recent)  :
    (State.replayOne s k i r).holds B L := by
  unfold State.replayOne; repeat' first | (simp +contextual (maxDischargeDepth := 40) [*]; done) | split | dsimp only | (refine State.forEach_holds ?_ _ _ (fun _ _ _ => ?_)) | (refine State.onlyIf_holds ?_ _ _ (fun _ _ => ?_))

@[simp] theorem State.replay_holds {B : List Host.Cell} {L : List Instr} {s : State} (hs : s.holds B L) (k : ℕ) (a : ℤ)  :
    (State.replay s k a).holds B L := by
  unfold State.replay; simp +contextual (maxDischargeDepth := 40) [*]

theorem execSessionTimeout_holds {B : List Host.Cell} {L : List Instr} {s : State} (hs : s.holds B L) (k : ℕ)  :
    ∀ u, execSessionTimeout k s = .next u → u.holds B L := by
  intro u ht; unfold execSessionTimeout at ht
  refine guarded_holds (fun s hs => ?_) hs ht
  repeat' first | (simp +contextual (maxDischargeDepth := 40) [*]; done) | split | dsimp only | (refine State.forEach_holds ?_ _ _ (fun _ _ _ => ?_)) | (refine State.onlyIf_holds ?_ _ _ (fun _ _ => ?_))

@[simp] theorem State.enableSession_holds {B : List Host.Cell} {L : List Instr} {s : State} (hs : s.holds B L) (k : ℕ)  :
    (State.enableSession s k).1.holds B L := by
  unfold State.enableSession; repeat' first | (simp +contextual (maxDischargeDepth := 40) [*]; done) | (have hu := State.takePlaces_holds hs _ _ _ _ ‹_ = Except.ok _›; simp +contextual (maxDischargeDepth := 40) [*]; done) | split | dsimp only | (refine State.forEach_holds ?_ _ _ (fun _ _ _ => ?_)) | (refine State.onlyIf_holds ?_ _ _ (fun _ _ => ?_))

@[simp] theorem State.abortSession_holds {B : List Host.Cell} {L : List Instr} {s : State} (hs : s.holds B L) (k : ℕ)  :
    (State.abortSession s k).holds B L := by
  unfold State.abortSession; simp +contextual (maxDischargeDepth := 40) [*]

@[simp] theorem State.disableSession_holds {B : List Host.Cell} {L : List Instr} {s : State} (hs : s.holds B L) (k : ℕ)  :
    (State.disableSession s k).holds B L := by
  unfold State.disableSession; simp +contextual (maxDischargeDepth := 40) [*]

@[simp] theorem State.openGate_holds {B : List Host.Cell} {L : List Instr} {s : State} (hs : s.holds B L) (g : ℕ) (at_ : ℤ) (l : ℤ) (fixed : Bool)  :
    (State.openGate s g at_ l fixed).holds B L := by
  unfold State.openGate; simp +contextual (maxDischargeDepth := 40) [*]

@[simp] theorem State.gateStamp_holds {B : List Host.Cell} {L : List Instr} {s : State} (hs : s.holds B L) (st : Stamp) (g : ℕ)  :
    (State.gateStamp s st g).holds B L := by
  unfold State.gateStamp; simp +contextual (maxDischargeDepth := 40) [*]

@[simp] theorem State.finishGate_holds {B : List Host.Cell} {L : List Instr} {s : State} (hs : s.holds B L) (g : ℕ) (w : GateWin)  :
    (State.finishGate s g w).holds B L := by
  unfold State.finishGate; simp +contextual (maxDischargeDepth := 40) [*]

theorem execGateEnd_holds {B : List Host.Cell} {L : List Instr} {s : State} (hs : s.holds B L) (g : ℕ)  :
    ∀ u, execGateEnd g s = .next u → u.holds B L := by
  intro u ht; unfold execGateEnd at ht
  refine guarded_holds (fun s hs => ?_) hs ht
  repeat' first | (simp +contextual (maxDischargeDepth := 40) [*]; done) | split | dsimp only | (refine State.forEach_holds ?_ _ _ (fun _ _ _ => ?_)) | (refine State.onlyIf_holds ?_ _ _ (fun _ _ => ?_))

@[simp] theorem State.enableGate_holds {B : List Host.Cell} {L : List Instr} {s : State} (hs : s.holds B L) (g : ℕ)  :
    (State.enableGate s g).1.holds B L := by
  unfold State.enableGate; repeat' first | (simp +contextual (maxDischargeDepth := 40) [*]; done) | (have hu := State.takePlace_holds hs _ _ _ _ ‹_ = some _›; simp +contextual (maxDischargeDepth := 40) [*]; done) | split | dsimp only | (refine State.forEach_holds ?_ _ _ (fun _ _ _ => ?_)) | (refine State.onlyIf_holds ?_ _ _ (fun _ _ => ?_))

@[simp] theorem State.disableGate_holds {B : List Host.Cell} {L : List Instr} {s : State} (hs : s.holds B L) (g : ℕ)  :
    (State.disableGate s g).holds B L := by
  unfold State.disableGate; simp +contextual (maxDischargeDepth := 40) [*]

@[simp] theorem State.cmdArm_holds {B : List Host.Cell} {L : List Instr} {s : State} (hs : s.holds B L) (k : ℕ)  :
    (State.cmdArm s k).1.holds B L := by
  unfold State.cmdArm; simp +contextual (maxDischargeDepth := 40) [*]

@[simp] theorem State.cmdAbort_holds {B : List Host.Cell} {L : List Instr} {s : State} (hs : s.holds B L) (k : ℕ)  :
    (State.cmdAbort s k).1.holds B L := by
  unfold State.cmdAbort; simp +contextual (maxDischargeDepth := 40) [*]

@[simp] theorem State.cmdGateStart_holds {B : List Host.Cell} {L : List Instr} {s : State} (hs : s.holds B L) (k : ℕ)  :
    (State.cmdGateStart s k).1.holds B L := by
  unfold State.cmdGateStart; simp +contextual (maxDischargeDepth := 40) [*]

@[simp] theorem State.sessionCmd_holds {B : List Host.Cell} {L : List Instr} {s : State} (hs : s.holds B L) (v : ℕ)  :
    (State.sessionCmd s v).1.holds B L := by
  unfold State.sessionCmd; repeat' first | (simp +contextual (maxDischargeDepth := 40) [*]; done) | split | dsimp only | (refine State.forEach_holds ?_ _ _ (fun _ _ _ => ?_)) | (refine State.onlyIf_holds ?_ _ _ (fun _ _ => ?_))

theorem execMeasArm_holds {B : List Host.Cell} {L : List Instr} {s : State} (hs : s.holds B L)  :
    ∀ u, execMeasArm s = .next u → u.holds B L := by
  intro u ht; unfold execMeasArm at ht
  refine guarded_holds (fun s hs => ?_) hs ht
  repeat' first | (simp +contextual (maxDischargeDepth := 40) [*]; done) | split | dsimp only | (refine State.forEach_holds ?_ _ _ (fun _ _ _ => ?_)) | (refine State.onlyIf_holds ?_ _ _ (fun _ _ => ?_))

theorem execTdcEngineEcc_holds {B : List Host.Cell} {L : List Instr} {s : State} (hs : s.holds B L) (sessions : ℕ) (gates : ℕ)  :
    ∀ u, execTdcEngineEcc sessions gates s = .next u → u.holds B L := by
  intro u ht; unfold execTdcEngineEcc at ht
  refine guarded_holds (fun s hs => ?_) hs ht
  repeat' first | (simp +contextual (maxDischargeDepth := 40) [*]; done) | split | dsimp only | (refine State.forEach_holds ?_ _ _ (fun _ _ _ => ?_)) | (refine State.onlyIf_holds ?_ _ _ (fun _ _ => ?_))

@[simp] theorem State.lineToMeas_holds {B : List Host.Cell} {L : List Instr} {s : State} (hs : s.holds B L) (n : ℕ) (e : LineEvent)  :
    (State.lineToMeas s n e).holds B L := by
  unfold State.lineToMeas; simp +contextual (maxDischargeDepth := 40) [*]

@[simp] theorem State.tickToMeas_holds {B : List Host.Cell} {L : List Instr} {s : State} (hs : s.holds B L) (n : ℕ) (t : ℕ)  :
    (State.tickToMeas s n t).holds B L := by
  unfold State.tickToMeas; simp +contextual (maxDischargeDepth := 40) [*]

@[simp] theorem State.measStep_holds {B : List Host.Cell} {L : List Instr} {s : State} (hs : s.holds B L) (d : ℤ)  :
    (State.measStep s d).holds B L := by
  unfold State.measStep; simp +contextual (maxDischargeDepth := 40) [*]

@[simp] theorem State.streamAppend_holds {B : List Host.Cell} {L : List Instr} {s : State} (hs : s.holds B L) (k : ℕ) (w : ℕ) (stamp : Bool) (second : optParam Bool Bool.false)  :
    (State.streamAppend s k w stamp second).holds B L := by
  unfold State.streamAppend; simp +contextual (maxDischargeDepth := 40) [*]

@[simp] theorem State.streamBase_holds {B : List Host.Cell} {L : List Instr} {s : State} (hs : s.holds B L) (k : ℕ) (reason : ℕ) (gen : ℕ)  :
    (State.streamBase s k reason gen).holds B L := by
  unfold State.streamBase; simp +contextual (maxDischargeDepth := 40) [*]

@[simp] theorem State.streamStart_holds {B : List Host.Cell} {L : List Instr} {s : State} (hs : s.holds B L) (k : ℕ)  :
    (State.streamStart s k).holds B L := by
  unfold State.streamStart; simp +contextual (maxDischargeDepth := 40) [*]

@[simp] theorem State.streamLose_holds {B : List Host.Cell} {L : List Instr} {s : State} (hs : s.holds B L) (k : ℕ) (n : ℕ)  :
    (State.streamLose s k n).holds B L := by
  unfold State.streamLose; simp +contextual (maxDischargeDepth := 40) [*]

@[simp] theorem State.streamSuspend_holds {B : List Host.Cell} {L : List Instr} {s : State} (hs : s.holds B L) (k : ℕ)  :
    (State.streamSuspend s k).holds B L := by
  unfold State.streamSuspend; simp +contextual (maxDischargeDepth := 40) [*]

@[simp] theorem State.streamRecord_holds {B : List Host.Cell} {L : List Instr} {s : State} (hs : s.holds B L) (k : ℕ) (r : ℕ) (w : ℕ) (stamp : Bool)  :
    (State.streamRecord s k r w stamp).1.holds B L := by
  unfold State.streamRecord; simp +contextual (maxDischargeDepth := 40) [*]

@[simp] theorem State.streamBaseIn_holds {B : List Host.Cell} {L : List Instr} {s : State} (hs : s.holds B L) (k : ℕ) (r : ℕ) (reason : ℕ) (gen : ℕ)  :
    (State.streamBaseIn s k r reason gen).1.holds B L := by
  unfold State.streamBaseIn; simp +contextual (maxDischargeDepth := 40) [*]

@[simp] theorem State.streamHold_holds {B : List Host.Cell} {L : List Instr} {s : State} (hs : s.holds B L) (k : ℕ) (r : ℕ) (st : Stamp)  :
    (State.streamHold s k r st).holds B L := by
  unfold State.streamHold; simp +contextual (maxDischargeDepth := 40) [*]

@[simp] theorem State.streamStamp_holds {B : List Host.Cell} {L : List Instr} {s : State} (hs : s.holds B L) (k : ℕ) (r : ℕ) (st : Stamp)  :
    (State.streamStamp s k r st).holds B L := by
  unfold State.streamStamp
  extract_lets x lost s1 b0 a b
  have h1 : s1.1.holds B L := by simp only [s1]; repeat' first | (simp +contextual (maxDischargeDepth := 40) [*]; done) | split | dsimp only | (refine State.forEach_holds ?_ _ _ (fun _ _ _ => ?_)) | (refine State.onlyIf_holds ?_ _ _ (fun _ _ => ?_))
  clear_value s1
  have hb0 : b0.1.holds B L := by simp only [b0]; repeat' first | (simp +contextual (maxDischargeDepth := 40) [*]; done) | split | dsimp only | (refine State.forEach_holds ?_ _ _ (fun _ _ _ => ?_)) | (refine State.onlyIf_holds ?_ _ _ (fun _ _ => ?_))
  clear_value b0
  have ha : a.1.holds B L := by simp only [a]; repeat' first | (simp +contextual (maxDischargeDepth := 40) [*]; done) | split | dsimp only | (refine State.forEach_holds ?_ _ _ (fun _ _ _ => ?_)) | (refine State.onlyIf_holds ?_ _ _ (fun _ _ => ?_))
  clear_value a
  have hb : b.1.holds B L := by simp only [b]; repeat' first | (simp +contextual (maxDischargeDepth := 40) [*]; done) | split | dsimp only | (refine State.forEach_holds ?_ _ _ (fun _ _ _ => ?_)) | (refine State.onlyIf_holds ?_ _ _ (fun _ _ => ?_))
  clear_value b
  repeat' first | (simp +contextual (maxDischargeDepth := 40) [*]; done) | split | dsimp only | (refine State.forEach_holds ?_ _ _ (fun _ _ _ => ?_)) | (refine State.onlyIf_holds ?_ _ _ (fun _ _ => ?_))

theorem execStreamPeriodicBase_holds {B : List Host.Cell} {L : List Instr} {s : State} (hs : s.holds B L) (k : ℕ)  :
    ∀ u, execStreamPeriodicBase k s = .next u → u.holds B L := by
  intro u ht; unfold execStreamPeriodicBase at ht
  refine guarded_holds (fun s hs => ?_) hs ht
  repeat' first | (simp +contextual (maxDischargeDepth := 40) [*]; done) | split | dsimp only | (refine State.forEach_holds ?_ _ _ (fun _ _ _ => ?_)) | (refine State.onlyIf_holds ?_ _ _ (fun _ _ => ?_))

@[simp] theorem State.streamWrite_holds {B : List Host.Cell} {L : List Instr} {s : State} (hs : s.holds B L) (k : ℕ) (r : ℕ)  :
    (State.streamWrite s k r).holds B L := by
  unfold State.streamWrite; simp +contextual (maxDischargeDepth := 40) [*]

theorem execStreamBatchWrite_holds {B : List Host.Cell} {L : List Instr} {s : State} (hs : s.holds B L) (k : ℕ)  :
    ∀ u, execStreamBatchWrite k s = .next u → u.holds B L := by
  intro u ht; unfold execStreamBatchWrite at ht
  refine guarded_holds (fun s hs => ?_) hs ht
  repeat' first | (simp +contextual (maxDischargeDepth := 40) [*]; done) | split | dsimp only | (refine State.forEach_holds ?_ _ _ (fun _ _ _ => ?_)) | (refine State.onlyIf_holds ?_ _ _ (fun _ _ => ?_))

theorem execStreamResume_holds {B : List Host.Cell} {L : List Instr} {s : State} (hs : s.holds B L) (k : ℕ)  :
    ∀ u, execStreamResume k s = .next u → u.holds B L := by
  intro u ht; unfold execStreamResume at ht
  refine guarded_holds (fun s hs => ?_) hs ht
  repeat' first | (simp +contextual (maxDischargeDepth := 40) [*]; done) | split | dsimp only | (refine State.forEach_holds ?_ _ _ (fun _ _ _ => ?_)) | (refine State.onlyIf_holds ?_ _ _ (fun _ _ => ?_))

end Sys2Proof.Machine
end

