-- ==== Sys2Proof/Laws/FrameServo.lean ====
section
/-! SUPPORT. The operations of Servo leave BAR2 and the queue of waiting commands alone. -/

namespace Sys2Proof.Machine

set_option linter.unusedTactic false
set_option linter.unreachableTactic false

@[simp] theorem State.openUnit_holds {B : List Host.Cell} {L : List Instr} {s : State} (hs : s.holds B L) (num : ℤ) (den : ℕ)  :
    (State.openUnit s num den).2.holds B L := by
  unfold State.openUnit; simp +contextual (maxDischargeDepth := 40) [*]

@[simp] theorem State.tscEvent_holds {B : List Host.Cell} {L : List Instr} {s : State} (hs : s.holds B L) (kind : ℕ) (data : ℕ)  :
    (State.tscEvent s kind data).holds B L := by
  unfold State.tscEvent; simp +contextual (maxDischargeDepth := 40) [*]

@[simp] theorem State.enterStage_holds {B : List Host.Cell} {L : List Instr} {s : State} (hs : s.holds B L) (k : ℕ)  :
    (State.enterStage s k).holds B L := by
  unfold State.enterStage; simp +contextual (maxDischargeDepth := 40) [*]

@[simp] theorem State.refreshStage_holds {B : List Host.Cell} {L : List Instr} {s : State} (hs : s.holds B L)  :
    (State.refreshStage s).holds B L := by
  unfold State.refreshStage; simp +contextual (maxDischargeDepth := 40) [*]

@[simp] theorem State.setBasis_holds {B : List Host.Cell} {L : List Instr} {s : State} (hs : s.holds B L) (b : ℕ)  :
    (State.setBasis s b).holds B L := by
  unfold State.setBasis; simp +contextual (maxDischargeDepth := 40) [*]

@[simp] theorem State.formY_holds {B : List Host.Cell} {L : List Instr} {s : State} (hs : s.holds B L)  :
    (State.formY s).holds B L := by
  unfold State.formY; simp +contextual (maxDischargeDepth := 40) [*]

@[simp] theorem State.yAge_holds {B : List Host.Cell} {L : List Instr} {s : State} (hs : s.holds B L)  :
    (State.yAge s).2.holds B L := by
  unfold State.yAge; simp +contextual (maxDischargeDepth := 40) [*]

@[simp] theorem State.yTc_holds {B : List Host.Cell} {L : List Instr} {s : State} (hs : s.holds B L) (temp : ℤ)  :
    (State.yTc s temp).2.holds B L := by
  unfold State.yTc; simp +contextual (maxDischargeDepth := 40) [*]

@[simp] theorem State.putXo_holds {B : List Host.Cell} {L : List Instr} {s : State} (hs : s.holds B L) (tc : ℤ) (age : ℤ)  :
    (State.putXo s tc age).holds B L := by
  unfold State.putXo; simp +contextual (maxDischargeDepth := 40) [*]

@[simp] theorem State.dieMoved_holds {B : List Host.Cell} {L : List Instr} {s : State} (hs : s.holds B L)  :
    (State.dieMoved s).holds B L := by
  unfold State.dieMoved; simp +contextual (maxDischargeDepth := 40) [*]

@[simp] theorem State.fitTick_holds {B : List Host.Cell} {L : List Instr} {s : State} (hs : s.holds B L)  :
    (State.fitTick s).holds B L := by
  unfold State.fitTick; simp +contextual (maxDischargeDepth := 40) [*]

@[simp] theorem State.readMeans_holds {B : List Host.Cell} {L : List Instr} {s : State} (hs : s.holds B L)  :
    (State.readMeans s).holds B L := by
  unfold State.readMeans; simp +contextual (maxDischargeDepth := 40) [*]

@[simp] theorem State.xoUpdate_holds {B : List Host.Cell} {L : List Instr} {s : State} (hs : s.holds B L) (m : XoMeasure)  :
    (State.xoUpdate s m).holds B L := by
  unfold State.xoUpdate; simp +contextual (maxDischargeDepth := 40) [*]

theorem execXoUpdate_holds {B : List Host.Cell} {L : List Instr} {s : State} (hs : s.holds B L) (m : XoMeasure)  :
    ∀ u, execXoUpdate m s = .next u → u.holds B L := by
  intro u ht; unfold execXoUpdate at ht
  refine guarded_holds (fun s hs => ?_) hs ht
  repeat' first | (simp +contextual (maxDischargeDepth := 40) [*]; done) | split | dsimp only | (refine State.forEach_holds ?_ _ _ (fun _ _ _ => ?_)) | (refine State.onlyIf_holds ?_ _ _ (fun _ _ => ?_))

theorem execOvenStable_holds {B : List Host.Cell} {L : List Instr} {s : State} (hs : s.holds B L)  :
    ∀ u, execOvenStable s = .next u → u.holds B L := by
  intro u ht; unfold execOvenStable at ht
  refine guarded_holds (fun s hs => ?_) hs ht
  repeat' first | (simp +contextual (maxDischargeDepth := 40) [*]; done) | split | dsimp only | (refine State.forEach_holds ?_ _ _ (fun _ _ _ => ?_)) | (refine State.onlyIf_holds ?_ _ _ (fun _ _ => ?_))

theorem execOvenFault_holds {B : List Host.Cell} {L : List Instr} {s : State} (hs : s.holds B L)  :
    ∀ u, execOvenFault s = .next u → u.holds B L := by
  intro u ht; unfold execOvenFault at ht
  refine guarded_holds (fun s hs => ?_) hs ht
  repeat' first | (simp +contextual (maxDischargeDepth := 40) [*]; done) | split | dsimp only | (refine State.forEach_holds ?_ _ _ (fun _ _ _ => ?_)) | (refine State.onlyIf_holds ?_ _ _ (fun _ _ => ?_))

@[simp] theorem State.ageingFit_holds {B : List Host.Cell} {L : List Instr} {s : State} (hs : s.holds B L) (f : AgeFit)  :
    (State.ageingFit s f).holds B L := by
  unfold State.ageingFit; simp +contextual (maxDischargeDepth := 40) [*]

theorem execAgeingFit_holds {B : List Host.Cell} {L : List Instr} {s : State} (hs : s.holds B L) (f : AgeFit)  :
    ∀ u, execAgeingFit f s = .next u → u.holds B L := by
  intro u ht; unfold execAgeingFit at ht
  refine guarded_holds (fun s hs => ?_) hs ht
  repeat' first | (simp +contextual (maxDischargeDepth := 40) [*]; done) | split | dsimp only | (refine State.forEach_holds ?_ _ _ (fun _ _ _ => ?_)) | (refine State.onlyIf_holds ?_ _ _ (fun _ _ => ?_))

@[simp] theorem State.fitReset_holds {B : List Host.Cell} {L : List Instr} {s : State} (hs : s.holds B L)  :
    (State.fitReset s).holds B L := by
  unfold State.fitReset; simp +contextual (maxDischargeDepth := 40) [*]

@[simp] theorem State.setServoState_holds {B : List Host.Cell} {L : List Instr} {s : State} (hs : s.holds B L) (st : ℕ)  :
    (State.setServoState s st).holds B L := by
  unfold State.setServoState; simp +contextual (maxDischargeDepth := 40) [*]

@[simp] theorem State.cancelSlew_holds {B : List Host.Cell} {L : List Instr} {s : State} (hs : s.holds B L)  :
    (State.cancelSlew s).holds B L := by
  unfold State.cancelSlew; simp +contextual (maxDischargeDepth := 40) [*]

@[simp] theorem State.startSlew_holds {B : List Host.Cell} {L : List Instr} {s : State} (hs : s.holds B L) (th : ℤ)  :
    (State.startSlew s th).holds B L := by
  unfold State.startSlew; simp +contextual (maxDischargeDepth := 40) [*]

@[simp] theorem State.setRef_holds {B : List Host.Cell} {L : List Instr} {s : State} (hs : s.holds B L) (k : ℕ) (x : RefSt)  :
    (State.setRef s k x).holds B L := by
  unfold State.setRef; simp +contextual (maxDischargeDepth := 40) [*]

@[simp] theorem State.composeRef_holds {B : List Host.Cell} {L : List Instr} {s : State} (hs : s.holds B L) (k : ℕ)  :
    (State.composeRef s k).holds B L := by
  unfold State.composeRef; simp +contextual (maxDischargeDepth := 40) [*]

@[simp] theorem State.meanError_holds {B : List Host.Cell} {L : List Instr} {s : State} (hs : s.holds B L) (vs : List ℤ)  :
    (State.meanError s vs).2.holds B L := by
  unfold State.meanError; simp +contextual (maxDischargeDepth := 40) [*]

@[simp] theorem State.putHold0_holds {B : List Host.Cell} {L : List Instr} {s : State} (hs : s.holds B L) (b : Option ℕ)  :
    (State.putHold0 s b).holds B L := by
  unfold State.putHold0; simp +contextual (maxDischargeDepth := 40) [*]

@[simp] theorem State.enterHoldover_holds {B : List Host.Cell} {L : List Instr} {s : State} (hs : s.holds B L) (byMode : Bool)  :
    (State.enterHoldover s byMode).holds B L := by
  unfold State.enterHoldover; simp +contextual (maxDischargeDepth := 40) [*]

@[simp] theorem State.adoptBase_holds {B : List Host.Cell} {L : List Instr} {s : State} (hs : s.holds B L) (k : ℕ) (o : Option Obs)  :
    (State.adoptBase s k o).holds B L := by
  unfold State.adoptBase; simp +contextual (maxDischargeDepth := 40) [*]

@[simp] theorem State.keepFloor_holds {B : List Host.Cell} {L : List Instr} {s : State} (hs : s.holds B L)  :
    (State.keepFloor s).holds B L := by
  unfold State.keepFloor; simp +contextual (maxDischargeDepth := 40) [*]

@[simp] theorem State.adoptSlew_holds {B : List Host.Cell} {L : List Instr} {s : State} (hs : s.holds B L) (k : ℕ) (th : ℤ) (b : ℕ)  :
    (State.adoptSlew s k th b).holds B L := by
  unfold State.adoptSlew; simp +contextual (maxDischargeDepth := 40) [*]

@[simp] theorem State.adoptFreq_holds {B : List Host.Cell} {L : List Instr} {s : State} (hs : s.holds B L) (k : ℕ)  :
    (State.adoptFreq s k).holds B L := by
  unfold State.adoptFreq; simp +contextual (maxDischargeDepth := 40) [*]

@[simp] theorem State.adoptStepped_holds {B : List Host.Cell} {L : List Instr} {s : State} (hs : s.holds B L) (k : ℕ)  :
    (State.adoptStepped s k).holds B L := by
  unfold State.adoptStepped; simp +contextual (maxDischargeDepth := 40) [*]

@[simp] theorem State.askStep_holds {B : List Host.Cell} {L : List Instr} {s : State} (hs : s.holds B L) (d : ℤ) (adopts : Option ℕ)  :
    (State.askStep s d adopts).holds B L := by
  unfold State.askStep; simp +contextual (maxDischargeDepth := 40) [*]

@[simp] theorem State.lockCheck_holds {B : List Host.Cell} {L : List Instr} {s : State} (hs : s.holds B L) (k : ℕ)  :
    (State.lockCheck s k).holds B L := by
  unfold State.lockCheck; simp +contextual (maxDischargeDepth := 40) [*]

@[simp] theorem State.loop_holds {B : List Host.Cell} {L : List Instr} {s : State} (hs : s.holds B L) (e : ℤ) (dt : ℕ)  :
    (State.loop s e dt).holds B L := by
  unfold State.loop; simp +contextual (maxDischargeDepth := 40) [*]

@[simp] theorem State.useObs_holds {B : List Host.Cell} {L : List Instr} {s : State} (hs : s.holds B L) (k : ℕ) (o : Obs)  :
    (State.useObs s k o).holds B L := by
  unfold State.useObs; simp +contextual (maxDischargeDepth := 40) [*]

theorem execSlewEnd_holds {B : List Host.Cell} {L : List Instr} {s : State} (hs : s.holds B L)  :
    ∀ u, execSlewEnd s = .next u → u.holds B L := by
  intro u ht; unfold execSlewEnd at ht
  refine guarded_holds (fun s hs => ?_) hs ht
  repeat' first | (simp +contextual (maxDischargeDepth := 40) [*]; done) | split | dsimp only | (refine State.forEach_holds ?_ _ _ (fun _ _ _ => ?_)) | (refine State.onlyIf_holds ?_ _ _ (fun _ _ => ?_))

@[simp] theorem State.cmdStep_holds {B : List Host.Cell} {L : List Instr} {s : State} (hs : s.holds B L)  :
    (State.cmdStep s).1.holds B L := by
  unfold State.cmdStep; simp +contextual (maxDischargeDepth := 40) [*]

@[simp] theorem State.cmdStepProposed_holds {B : List Host.Cell} {L : List Instr} {s : State} (hs : s.holds B L)  :
    (State.cmdStepProposed s).1.holds B L := by
  unfold State.cmdStepProposed; simp +contextual (maxDischargeDepth := 40) [*]

@[simp] theorem State.cmdSlewProposed_holds {B : List Host.Cell} {L : List Instr} {s : State} (hs : s.holds B L)  :
    (State.cmdSlewProposed s).1.holds B L := by
  unfold State.cmdSlewProposed; simp +contextual (maxDischargeDepth := 40) [*]

@[simp] theorem State.stepCmd_holds {B : List Host.Cell} {L : List Instr} {s : State} (hs : s.holds B L) (v : ℕ)  :
    (State.stepCmd s v).1.holds B L := by
  unfold State.stepCmd; repeat' first | (simp +contextual (maxDischargeDepth := 40) [*]; done) | split | dsimp only | (refine State.forEach_holds ?_ _ _ (fun _ _ _ => ?_)) | (refine State.onlyIf_holds ?_ _ _ (fun _ _ => ?_))

@[simp] theorem State.freerun_holds {B : List Host.Cell} {L : List Instr} {s : State} (hs : s.holds B L)  :
    (State.freerun s).holds B L := by
  unfold State.freerun; simp +contextual (maxDischargeDepth := 40) [*]

@[simp] theorem State.enterManual_holds {B : List Host.Cell} {L : List Instr} {s : State} (hs : s.holds B L)  :
    (State.enterManual s).holds B L := by
  unfold State.enterManual; simp +contextual (maxDischargeDepth := 40) [*]

@[simp] theorem State.writeY_holds {B : List Host.Cell} {L : List Instr} {s : State} (hs : s.holds B L) (v : ℕ)  :
    (State.writeY s v).1.holds B L := by
  unfold State.writeY; simp +contextual (maxDischargeDepth := 40) [*]

end Sys2Proof.Machine
end

