-- ==== Sys2Proof/Laws/FrameRefsel.lean ====
section
/-! SUPPORT. The operations of Refsel leave BAR2 and the queue of waiting commands alone. -/

namespace Sys2Proof.Machine

set_option linter.unusedTactic false
set_option linter.unreachableTactic false

@[simp] theorem State.putRefState_holds {B : List Host.Cell} {L : List Instr} {s : State} (hs : s.holds B L) (k : ℕ) (st : ℕ)  :
    (State.putRefState s k st).holds B L := by
  unfold State.putRefState; simp +contextual (maxDischargeDepth := 40) [*]

@[simp] theorem State.putSelected_holds {B : List Host.Cell} {L : List Instr} {s : State} (hs : s.holds B L) (k : ℕ)  :
    (State.putSelected s k).holds B L := by
  unfold State.putSelected; simp +contextual (maxDischargeDepth := 40) [*]

@[simp] theorem State.clearConflict_holds {B : List Host.Cell} {L : List Instr} {s : State} (hs : s.holds B L)  :
    (State.clearConflict s).holds B L := by
  unfold State.clearConflict; simp +contextual (maxDischargeDepth := 40) [*]

@[simp] theorem State.makeSuspect_holds {B : List Host.Cell} {L : List Instr} {s : State} (hs : s.holds B L) (k : ℕ)  :
    (State.makeSuspect s k).holds B L := by
  unfold State.makeSuspect; simp +contextual (maxDischargeDepth := 40) [*]

@[simp] theorem State.acquire_holds {B : List Host.Cell} {L : List Instr} {s : State} (hs : s.holds B L) (k : ℕ)  :
    (State.acquire s k).holds B L := by
  unfold State.acquire; repeat' first | (simp +contextual (maxDischargeDepth := 40) [*]; done) | split | dsimp only | (refine State.forEach_holds ?_ _ _ (fun _ _ _ => ?_)) | (refine State.onlyIf_holds ?_ _ _ (fun _ _ => ?_))

@[simp] theorem State.raiseConflict_holds {B : List Host.Cell} {L : List Instr} {s : State} (hs : s.holds B L) (k : ℕ)  :
    (State.raiseConflict s k).holds B L := by
  unfold State.raiseConflict; simp +contextual (maxDischargeDepth := 40) [*]

@[simp] theorem State.deselect_holds {B : List Host.Cell} {L : List Instr} {s : State} (hs : s.holds B L)  :
    (State.deselect s).holds B L := by
  unfold State.deselect; repeat' first | (simp +contextual (maxDischargeDepth := 40) [*]; done) | split | dsimp only | (refine State.forEach_holds ?_ _ _ (fun _ _ _ => ?_)) | (refine State.onlyIf_holds ?_ _ _ (fun _ _ => ?_))

@[simp] theorem State.exchange_holds {B : List Host.Cell} {L : List Instr} {s : State} (hs : s.holds B L) (old : ℕ) (new : ℕ)  :
    (State.exchange s old new).holds B L := by
  unfold State.exchange; simp +contextual (maxDischargeDepth := 40) [*]

@[simp] theorem State.adopt_holds {B : List Host.Cell} {L : List Instr} {s : State} (hs : s.holds B L) (k : ℕ) (a : Adoption)  :
    (State.adopt s k a).holds B L := by
  unfold State.adopt; repeat' first | (simp +contextual (maxDischargeDepth := 40) [*]; done) | split | dsimp only | (refine State.forEach_holds ?_ _ _ (fun _ _ _ => ?_)) | (refine State.onlyIf_holds ?_ _ _ (fun _ _ => ?_))

@[simp] theorem State.reselectWith_holds {B : List Host.Cell} {L : List Instr} {s : State} (hs : s.holds B L) (F : State → Nat) (n : Nat) (skip : List Nat) :
    (State.reselectWith F n skip s).holds B L := by
  induction n generalizing s skip with
  | zero => exact hs
  | succ n ih =>
    unfold State.reselectWith
    split
    · split
      · exact hs
      · simp +contextual (maxDischargeDepth := 40) [*]
    · extract_lets auto old switched s1
      have hsw : ∀ t : State, t.holds B L → (switched t).holds B L := by
        intro t ht
        simp only [switched]
        simp +contextual (maxDischargeDepth := 40) [*]
      clear_value switched
      have hc := fun k => hsw _ (State.adoptFreq_holds (State.putSelected_holds hs k) k)
      have ha := fun k => hsw _ (State.acquire_holds (State.putSelected_holds hs k) k)
      split
      · exact hs
      · split
        · exact hsw _ (State.putSelected_holds hs _)
        · split
          · (repeat' split) <;> first | exact hs | exact ha _ | exact hc _
          · split
            · exact hs
            · split
              · split <;> first | exact hs | exact hc _
              · split
                · exact ih (State.makeSuspect_holds hs _) _
                · (repeat' split) <;> first | exact ih hs _ | (simp +contextual (maxDischargeDepth := 40) [*]; done)
                · refine hsw _ (State.adopt_holds ?_ _ _)
                  simp only [s1]
                  split <;> simp +contextual (maxDischargeDepth := 40) [*]
                · exact hsw _ (State.adopt_holds (State.clearConflict_holds hs) _ _)

@[simp] theorem State.reselect_holds {B : List Host.Cell} {L : List Instr} {s : State} (hs : s.holds B L)  :
    (State.reselect s).holds B L := by
  unfold State.reselect
  split
  · exact hs
  · exact State.reselectWith_holds hs _ _ _

@[simp] theorem State.refreshDomain_holds {B : List Host.Cell} {L : List Instr} {s : State} (hs : s.holds B L)  :
    (State.refreshDomain s).holds B L := by
  unfold State.refreshDomain; simp +contextual (maxDischargeDepth := 40) [*]

@[simp] theorem State.judgeDiff_holds {B : List Host.Cell} {L : List Instr} {s : State} (hs : s.holds B L)  :
    (State.judgeDiff s).holds B L := by
  unfold State.judgeDiff; simp +contextual (maxDischargeDepth := 40) [*]

@[simp] theorem State.putVerdict_holds {B : List Host.Cell} {L : List Instr} {s : State} (hs : s.holds B L) (v : ℕ)  :
    (State.putVerdict s v).holds B L := by
  unfold State.putVerdict; simp +contextual (maxDischargeDepth := 40) [*]

@[simp] theorem State.declarePath_holds {B : List Host.Cell} {L : List Instr} {s : State} (hs : s.holds B L) (k : ℕ)  :
    (State.declarePath s k).holds B L := by
  unfold State.declarePath; simp +contextual (maxDischargeDepth := 40) [*]

@[simp] theorem State.pathWatch_holds {B : List Host.Cell} {L : List Instr} {s : State} (hs : s.holds B L) (k : ℕ) (o : Obs)  :
    (State.pathWatch s k o).1.holds B L := by
  unfold State.pathWatch; repeat' first | (simp +contextual (maxDischargeDepth := 40) [*]; done) | split | dsimp only | (refine State.forEach_holds ?_ _ _ (fun _ _ _ => ?_)) | (refine State.onlyIf_holds ?_ _ _ (fun _ _ => ?_))

@[simp] theorem State.unfreeze_holds {B : List Host.Cell} {L : List Instr} {s : State} (hs : s.holds B L) (k : ℕ) (keep : Bool)  :
    (State.unfreeze s k keep).holds B L := by
  unfold State.unfreeze; simp +contextual (maxDischargeDepth := 40) [*]

@[simp] theorem State.closePath_holds {B : List Host.Cell} {L : List Instr} {s : State} (hs : s.holds B L) (v : ℕ)  :
    (State.closePath s v).holds B L := by
  unfold State.closePath
  extract_lets refs F s1 s2 s3 src s4
  have h_s1 : s1.holds B L := by simp only [s1]; repeat' first | (simp +contextual (maxDischargeDepth := 40) [*]; done) | split | dsimp only | (refine State.forEach_holds ?_ _ _ (fun _ _ _ => ?_)) | (refine State.onlyIf_holds ?_ _ _ (fun _ _ => ?_))
  clear_value s1
  have h_s2 : s2.holds B L := by simp only [s2]; repeat' first | (simp +contextual (maxDischargeDepth := 40) [*]; done) | split | dsimp only | (refine State.forEach_holds ?_ _ _ (fun _ _ _ => ?_)) | (refine State.onlyIf_holds ?_ _ _ (fun _ _ => ?_))
  clear_value s2
  have h_s3 : s3.holds B L := by simp only [s3]; repeat' first | (simp +contextual (maxDischargeDepth := 40) [*]; done) | split | dsimp only | (refine State.forEach_holds ?_ _ _ (fun _ _ _ => ?_)) | (refine State.onlyIf_holds ?_ _ _ (fun _ _ => ?_))
  clear_value s3
  have h_s4 : s4.holds B L := by simp only [s4]; repeat' first | (simp +contextual (maxDischargeDepth := 40) [*]; done) | split | dsimp only | (refine State.forEach_holds ?_ _ _ (fun _ _ _ => ?_)) | (refine State.onlyIf_holds ?_ _ _ (fun _ _ => ?_))
  clear_value s4
  repeat' first | (simp +contextual (maxDischargeDepth := 40) [*]; done) | split | dsimp only | (refine State.forEach_holds ?_ _ _ (fun _ _ _ => ?_)) | (refine State.onlyIf_holds ?_ _ _ (fun _ _ => ?_))

@[simp] theorem State.pathVerdict_holds {B : List Host.Cell} {L : List Instr} {s : State} (hs : s.holds B L) (j : ℕ)  :
    (State.pathVerdict s j).holds B L := by
  unfold State.pathVerdict; simp +contextual (maxDischargeDepth := 40) [*]

@[simp] theorem State.queueObs_holds {B : List Host.Cell} {L : List Instr} {s : State} (hs : s.holds B L) (k : ℕ) (o : Obs)  :
    (State.queueObs s k o).holds B L := by
  unfold State.queueObs; simp +contextual (maxDischargeDepth := 40) [*]

@[simp] theorem State.refStamp_holds {B : List Host.Cell} {L : List Instr} {s : State} (hs : s.holds B L) (k : ℕ) (i : ℕ) (st : Stamp)  :
    (State.refStamp s k i st).holds B L := by
  unfold State.refStamp; repeat' first | (simp +contextual (maxDischargeDepth := 40) [*]; done) | split | dsimp only | (refine State.forEach_holds ?_ _ _ (fun _ _ _ => ?_)) | (refine State.onlyIf_holds ?_ _ _ (fun _ _ => ?_))

@[simp] theorem State.showSlope_holds {B : List Host.Cell} {L : List Instr} {s : State} (hs : s.holds B L) (k : ℕ) (w : List Obs)  :
    (State.showSlope s k w).holds B L := by
  unfold State.showSlope; simp +contextual (maxDischargeDepth := 40) [*]

@[simp] theorem State.restartDwell_holds {B : List Host.Cell} {L : List Instr} {s : State} (hs : s.holds B L) (k : ℕ)  :
    (State.restartDwell s k).holds B L := by
  unfold State.restartDwell; simp +contextual (maxDischargeDepth := 40) [*]

@[simp] theorem State.failObs_holds {B : List Host.Cell} {L : List Instr} {s : State} (hs : s.holds B L) (k : ℕ) (o : Obs) (check : ℕ)  :
    (State.failObs s k o check).holds B L := by
  unfold State.failObs; simp +contextual (maxDischargeDepth := 40) [*]

@[simp] theorem State.passObs_holds {B : List Host.Cell} {L : List Instr} {s : State} (hs : s.holds B L) (k : ℕ) (o : Obs)  :
    (State.passObs s k o).holds B L := by
  unfold State.passObs; simp +contextual (maxDischargeDepth := 40) [*]

@[simp] theorem State.seeObs_holds {B : List Host.Cell} {L : List Instr} {s : State} (hs : s.holds B L) (k : ℕ) (o : Obs)  :
    (State.seeObs s k o).holds B L := by
  unfold State.seeObs; simp +contextual (maxDischargeDepth := 40) [*]

@[simp] theorem State.testObs_holds {B : List Host.Cell} {L : List Instr} {s : State} (hs : s.holds B L) (k : ℕ) (o : Obs)  :
    (State.testObs s k o).holds B L := by
  unfold State.testObs; simp +contextual (maxDischargeDepth := 40) [*]

@[simp] theorem State.domainObs_holds {B : List Host.Cell} {L : List Instr} {s : State} (hs : s.holds B L) (k : ℕ)  :
    (State.domainObs s k).holds B L := by
  unfold State.domainObs; simp +contextual (maxDischargeDepth := 40) [*]

theorem execRefObservation_holds {B : List Host.Cell} {L : List Instr} {s : State} (hs : s.holds B L) (k : ℕ)  :
    ∀ u, execRefObservation k s = .next u → u.holds B L := by
  intro u ht; unfold execRefObservation at ht
  refine guarded_holds (fun s hs => ?_) hs ht
  repeat' first | (simp +contextual (maxDischargeDepth := 40) [*]; done) | split | dsimp only | (refine State.forEach_holds ?_ _ _ (fun _ _ _ => ?_)) | (refine State.onlyIf_holds ?_ _ _ (fun _ _ => ?_))

@[simp] theorem State.loseRef_holds {B : List Host.Cell} {L : List Instr} {s : State} (hs : s.holds B L) (k : ℕ)  :
    (State.loseRef s k).holds B L := by
  unfold State.loseRef; simp +contextual (maxDischargeDepth := 40) [*]

theorem execRefPresenceFail_holds {B : List Host.Cell} {L : List Instr} {s : State} (hs : s.holds B L) (k : ℕ)  :
    ∀ u, execRefPresenceFail k s = .next u → u.holds B L := by
  intro u ht; unfold execRefPresenceFail at ht
  refine guarded_holds (fun s hs => ?_) hs ht
  repeat' first | (simp +contextual (maxDischargeDepth := 40) [*]; done) | split | dsimp only | (refine State.forEach_holds ?_ _ _ (fun _ _ _ => ?_)) | (refine State.onlyIf_holds ?_ _ _ (fun _ _ => ?_))

@[simp] theorem State.resetRef_holds {B : List Host.Cell} {L : List Instr} {s : State} (hs : s.holds B L) (k : ℕ) (st : ℕ)  :
    (State.resetRef s k st).holds B L := by
  unfold State.resetRef; simp +contextual (maxDischargeDepth := 40) [*]

@[simp] theorem State.enableRef_holds {B : List Host.Cell} {L : List Instr} {s : State} (hs : s.holds B L) (k : ℕ) (upstream : Bool)  :
    (State.enableRef s k upstream).1.holds B L := by
  unfold State.enableRef; repeat' first | (simp +contextual (maxDischargeDepth := 40) [*]; done) | (have hu := State.takePlace_holds hs _ _ _ _ ‹_ = some _›; simp +contextual (maxDischargeDepth := 40) [*]; done) | split | dsimp only | (refine State.forEach_holds ?_ _ _ (fun _ _ _ => ?_)) | (refine State.onlyIf_holds ?_ _ _ (fun _ _ => ?_))

@[simp] theorem State.disableRef_holds {B : List Host.Cell} {L : List Instr} {s : State} (hs : s.holds B L) (k : ℕ)  :
    (State.disableRef s k).holds B L := by
  unfold State.disableRef; simp +contextual (maxDischargeDepth := 40) [*]

@[simp] theorem State.refChanged_holds {B : List Host.Cell} {L : List Instr} {s : State} (hs : s.holds B L) (k : ℕ)  :
    (State.refChanged s k).holds B L := by
  unfold State.refChanged; simp +contextual (maxDischargeDepth := 40) [*]

@[simp] theorem State.cmdAccept_holds {B : List Host.Cell} {L : List Instr} {s : State} (hs : s.holds B L) (k : ℕ) (step : Bool)  :
    (State.cmdAccept s k step).1.holds B L := by
  unfold State.cmdAccept; simp +contextual (maxDischargeDepth := 40) [*]

@[simp] theorem State.cmdReject_holds {B : List Host.Cell} {L : List Instr} {s : State} (hs : s.holds B L) (k : ℕ)  :
    (State.cmdReject s k).1.holds B L := by
  unfold State.cmdReject; simp +contextual (maxDischargeDepth := 40) [*]

@[simp] theorem State.cmdClearSuspect_holds {B : List Host.Cell} {L : List Instr} {s : State} (hs : s.holds B L) (k : ℕ)  :
    (State.cmdClearSuspect s k).1.holds B L := by
  unfold State.cmdClearSuspect; simp +contextual (maxDischargeDepth := 40) [*]

@[simp] theorem State.cmdRequalify_holds {B : List Host.Cell} {L : List Instr} {s : State} (hs : s.holds B L) (k : ℕ)  :
    (State.cmdRequalify s k).1.holds B L := by
  unfold State.cmdRequalify; simp +contextual (maxDischargeDepth := 40) [*]

@[simp] theorem State.selCmd_holds {B : List Host.Cell} {L : List Instr} {s : State} (hs : s.holds B L) (v : ℕ)  :
    (State.selCmd s v).1.holds B L := by
  unfold State.selCmd; repeat' first | (simp +contextual (maxDischargeDepth := 40) [*]; done) | split | dsimp only | (refine State.forEach_holds ?_ _ _ (fun _ _ _ => ?_)) | (refine State.onlyIf_holds ?_ _ _ (fun _ _ => ?_))

@[simp] theorem State.cmdPush_holds {B : List Host.Cell} {L : List Instr} {s : State} (hs : s.holds B L) (v : ℕ)  :
    (State.cmdPush s v).1.holds B L := by
  unfold State.cmdPush; simp +contextual (maxDischargeDepth := 40) [*]

@[simp] theorem State.servoMode_holds {B : List Host.Cell} {L : List Instr} {s : State} (hs : s.holds B L)  :
    (State.servoMode s).holds B L := by
  unfold State.servoMode; repeat' first | (simp +contextual (maxDischargeDepth := 40) [*]; done) | split | dsimp only | (refine State.forEach_holds ?_ _ _ (fun _ _ _ => ?_)) | (refine State.onlyIf_holds ?_ _ _ (fun _ _ => ?_))

@[simp] theorem State.cmdSwitch_holds {B : List Host.Cell} {L : List Instr} {s : State} (hs : s.holds B L)  :
    (State.cmdSwitch s).1.holds B L := by
  unfold State.cmdSwitch; simp +contextual (maxDischargeDepth := 40) [*]

@[simp] theorem State.domCmd_holds {B : List Host.Cell} {L : List Instr} {s : State} (hs : s.holds B L) (v : ℕ)  :
    (State.domCmd s v).1.holds B L := by
  unfold State.domCmd; repeat' first | (simp +contextual (maxDischargeDepth := 40) [*]; done) | split | dsimp only | (refine State.forEach_holds ?_ _ _ (fun _ _ _ => ?_)) | (refine State.onlyIf_holds ?_ _ _ (fun _ _ => ?_))

@[simp] theorem State.refStep_holds {B : List Host.Cell} {L : List Instr} {s : State} (hs : s.holds B L) (d : ℤ) (k : ℕ)  :
    (State.refStep s d k).holds B L := by
  unfold State.refStep; simp +contextual (maxDischargeDepth := 40) [*]

end Sys2Proof.Machine
end

