-- ==== Sys2Proof/Laws/FrameAuxOut.lean ====
section
/-! SUPPORT. The operations of AuxOut leave BAR2 and the queue of waiting commands alone. -/

namespace Sys2Proof.Machine

set_option linter.unusedTactic false
set_option linter.unreachableTactic false

@[simp] theorem State.setAux_holds {B : List Host.Cell} {L : List Instr} {s : State} (hs : s.holds B L) (n : ℕ) (x : AuxSt)  :
    (State.setAux s n x).holds B L := by
  unfold State.setAux; simp +contextual (maxDischargeDepth := 40) [*]

@[simp] theorem State.auxPin_holds {B : List Host.Cell} {L : List Instr} {s : State} (hs : s.holds B L) (n : ℕ) (running : Bool)  :
    (State.auxPin s n running).holds B L := by
  unfold State.auxPin; simp +contextual (maxDischargeDepth := 40) [*]

@[simp] theorem State.startRamp_holds {B : List Host.Cell} {L : List Instr} {s : State} (hs : s.holds B L) (target : ℕ) (us : ℕ)  :
    (State.startRamp s target us).holds B L := by
  unfold State.startRamp; simp +contextual (maxDischargeDepth := 40) [*]

@[simp] theorem State.startRelock_holds {B : List Host.Cell} {L : List Instr} {s : State} (hs : s.holds B L) (n : ℕ)  :
    (State.startRelock s n).holds B L := by
  unfold State.startRelock; simp +contextual (maxDischargeDepth := 40) [*]

@[simp] theorem State.cmdSet_holds {B : List Host.Cell} {L : List Instr} {s : State} (hs : s.holds B L)  :
    (State.cmdSet s).1.holds B L := by
  unfold State.cmdSet; repeat' first | (simp +contextual (maxDischargeDepth := 40) [*]; done) | split | dsimp only | (refine State.forEach_holds ?_ _ _ (fun _ _ _ => ?_)) | (refine State.onlyIf_holds ?_ _ _ (fun _ _ => ?_))

@[simp] theorem State.cmdRunProfile_holds {B : List Host.Cell} {L : List Instr} {s : State} (hs : s.holds B L)  :
    (State.cmdRunProfile s).1.holds B L := by
  unfold State.cmdRunProfile; repeat' first | (simp +contextual (maxDischargeDepth := 40) [*]; done) | split | dsimp only | (refine State.forEach_holds ?_ _ _ (fun _ _ _ => ?_)) | (refine State.onlyIf_holds ?_ _ _ (fun _ _ => ?_))

@[simp] theorem State.cmdAbortRamp_holds {B : List Host.Cell} {L : List Instr} {s : State} (hs : s.holds B L)  :
    (State.cmdAbortRamp s).1.holds B L := by
  unfold State.cmdAbortRamp; simp +contextual (maxDischargeDepth := 40) [*]

@[simp] theorem State.cmdRelock_holds {B : List Host.Cell} {L : List Instr} {s : State} (hs : s.holds B L)  :
    (State.cmdRelock s).1.holds B L := by
  unfold State.cmdRelock; repeat' first | (simp +contextual (maxDischargeDepth := 40) [*]; done) | split | dsimp only | (refine State.forEach_holds ?_ _ _ (fun _ _ _ => ?_)) | (refine State.onlyIf_holds ?_ _ _ (fun _ _ => ?_))

@[simp] theorem State.freqCmd_holds {B : List Host.Cell} {L : List Instr} {s : State} (hs : s.holds B L) (v : ℕ)  :
    (State.freqCmd s v).1.holds B L := by
  unfold State.freqCmd; repeat' first | (simp +contextual (maxDischargeDepth := 40) [*]; done) | split | dsimp only | (refine State.forEach_holds ?_ _ _ (fun _ _ _ => ?_)) | (refine State.onlyIf_holds ?_ _ _ (fun _ _ => ?_))

@[simp] theorem State.toPoint_holds {B : List Host.Cell} {L : List Instr} {s : State} (hs : s.holds B L) (k : ℕ)  :
    (State.toPoint s k).holds B L := by
  unfold State.toPoint; simp +contextual (maxDischargeDepth := 40) [*]

@[simp] theorem State.rampEnd_holds {B : List Host.Cell} {L : List Instr} {s : State} (hs : s.holds B L)  :
    (State.rampEnd s).holds B L := by
  unfold State.rampEnd; simp +contextual (maxDischargeDepth := 40) [*]

theorem execRampEnd_holds {B : List Host.Cell} {L : List Instr} {s : State} (hs : s.holds B L)  :
    ∀ u, execRampEnd s = .next u → u.holds B L := by
  intro u ht; unfold execRampEnd at ht
  refine guarded_holds (fun s hs => ?_) hs ht
  repeat' first | (simp +contextual (maxDischargeDepth := 40) [*]; done) | split | dsimp only | (refine State.forEach_holds ?_ _ _ (fun _ _ _ => ?_)) | (refine State.onlyIf_holds ?_ _ _ (fun _ _ => ?_))

theorem execProfileDone_holds {B : List Host.Cell} {L : List Instr} {s : State} (hs : s.holds B L)  :
    ∀ u, execProfileDone s = .next u → u.holds B L := by
  intro u ht; unfold execProfileDone at ht
  refine guarded_holds (fun s hs => ?_) hs ht
  repeat' first | (simp +contextual (maxDischargeDepth := 40) [*]; done) | split | dsimp only | (refine State.forEach_holds ?_ _ _ (fun _ _ _ => ?_)) | (refine State.onlyIf_holds ?_ _ _ (fun _ _ => ?_))

theorem execSscChange_holds {B : List Host.Cell} {L : List Instr} {s : State} (hs : s.holds B L)  :
    ∀ u, execSscChange s = .next u → u.holds B L := by
  intro u ht; unfold execSscChange at ht
  refine guarded_holds (fun s hs => ?_) hs ht
  repeat' first | (simp +contextual (maxDischargeDepth := 40) [*]; done) | split | dsimp only | (refine State.forEach_holds ?_ _ _ (fun _ _ _ => ?_)) | (refine State.onlyIf_holds ?_ _ _ (fun _ _ => ?_))

@[simp] theorem State.auxArm_holds {B : List Host.Cell} {L : List Instr} {s : State} (hs : s.holds B L) (n : ℕ)  :
    (State.auxArm s n).holds B L := by
  unfold State.auxArm; simp +contextual (maxDischargeDepth := 40) [*]

@[simp] theorem State.dropMarks_holds {B : List Host.Cell} {L : List Instr} {s : State} (hs : s.holds B L) (n : ℕ) (t32 : ℤ)  :
    (State.dropMarks s n t32).holds B L := by
  unfold State.dropMarks; simp +contextual (maxDischargeDepth := 40) [*]

@[simp] theorem State.loseMarks_holds {B : List Host.Cell} {L : List Instr} {s : State} (hs : s.holds B L) (n : ℕ)  :
    (State.loseMarks s n).holds B L := by
  unfold State.loseMarks; simp +contextual (maxDischargeDepth := 40) [*]

@[simp] theorem State.auxLocked_holds {B : List Host.Cell} {L : List Instr} {s : State} (hs : s.holds B L) (n : ℕ) (phase : ℕ)  :
    (State.auxLocked s n phase).holds B L := by
  unfold State.auxLocked; simp +contextual (maxDischargeDepth := 40) [*]

@[simp] theorem State.apllaLockDeclared_holds {B : List Host.Cell} {L : List Instr} {s : State} (hs : s.holds B L)  :
    (State.apllaLockDeclared s).holds B L := by
  unfold State.apllaLockDeclared; simp +contextual (maxDischargeDepth := 40) [*]

@[simp] theorem State.apllaWindow_holds {B : List Host.Cell} {L : List Instr} {s : State} (hs : s.holds B L) (count : ℕ)  :
    (State.apllaWindow s count).holds B L := by
  unfold State.apllaWindow; simp +contextual (maxDischargeDepth := 40) [*]

@[simp] theorem State.takeMarks_holds {B : List Host.Cell} {L : List Instr} {s : State} (hs : s.holds B L) (n : ℕ) (c : ℕ)  :
    (State.takeMarks s n c).holds B L := by
  unfold State.takeMarks; simp +contextual (maxDischargeDepth := 40) [*]

@[simp] theorem State.auxStop_holds {B : List Host.Cell} {L : List Instr} {s : State} (hs : s.holds B L) (n : ℕ)  :
    (State.auxStop s n).holds B L := by
  unfold State.auxStop; simp +contextual (maxDischargeDepth := 40) [*]

@[simp] theorem State.auxUnlocked_holds {B : List Host.Cell} {L : List Instr} {s : State} (hs : s.holds B L) (n : ℕ)  :
    (State.auxUnlocked s n).holds B L := by
  unfold State.auxUnlocked; simp +contextual (maxDischargeDepth := 40) [*]

@[simp] theorem State.auxPeriod_holds {B : List Host.Cell} {L : List Instr} {s : State} (hs : s.holds B L) (n : ℕ)  :
    (State.auxPeriod s n).holds B L := by
  unfold State.auxPeriod; simp +contextual (maxDischargeDepth := 40) [*]

@[simp] theorem State.bypassPeriod_holds {B : List Host.Cell} {L : List Instr} {s : State} (hs : s.holds B L) (n : ℕ)  :
    (State.bypassPeriod s n).holds B L := by
  unfold State.bypassPeriod; simp +contextual (maxDischargeDepth := 40) [*]

@[simp] theorem State.auxBegin_holds {B : List Host.Cell} {L : List Instr} {s : State} (hs : s.holds B L) (n : ℕ) (c : ℕ)  :
    (State.auxBegin s n c).holds B L := by
  unfold State.auxBegin; simp +contextual (maxDischargeDepth := 40) [*]

@[simp] theorem State.auxIdle_holds {B : List Host.Cell} {L : List Instr} {s : State} (hs : s.holds B L) (n : ℕ)  :
    (State.auxIdle s n).holds B L := by
  unfold State.auxIdle; repeat' first | (simp +contextual (maxDischargeDepth := 40) [*]; done) | split | dsimp only | (refine State.forEach_holds ?_ _ _ (fun _ _ _ => ?_)) | (refine State.onlyIf_holds ?_ _ _ (fun _ _ => ?_))

theorem execAuxPeriodEnd_holds {B : List Host.Cell} {L : List Instr} {s : State} (hs : s.holds B L) (n : ℕ)  :
    ∀ u, execAuxPeriodEnd n s = .next u → u.holds B L := by
  intro u ht; unfold execAuxPeriodEnd at ht
  refine guarded_holds (fun s hs => ?_) hs ht
  repeat' first | (simp +contextual (maxDischargeDepth := 40) [*]; done) | split | dsimp only | (refine State.forEach_holds ?_ _ _ (fun _ _ _ => ?_)) | (refine State.onlyIf_holds ?_ _ _ (fun _ _ => ?_))

@[simp] theorem State.auxSafe_holds {B : List Host.Cell} {L : List Instr} {s : State} (hs : s.holds B L) (n : ℕ) (cause : SafeCause)  :
    (State.auxSafe s n cause).holds B L := by
  unfold State.auxSafe; simp +contextual (maxDischargeDepth := 40) [*]

@[simp] theorem State.auxSafeLeave_holds {B : List Host.Cell} {L : List Instr} {s : State} (hs : s.holds B L) (n : ℕ)  :
    (State.auxSafeLeave s n).holds B L := by
  unfold State.auxSafeLeave; simp +contextual (maxDischargeDepth := 40) [*]

@[simp] theorem State.apllaStart_holds {B : List Host.Cell} {L : List Instr} {s : State} (hs : s.holds B L)  :
    (State.apllaStart s).1.holds B L := by
  unfold State.apllaStart; simp +contextual (maxDischargeDepth := 40) [*]

@[simp] theorem State.apllaStop_holds {B : List Host.Cell} {L : List Instr} {s : State} (hs : s.holds B L)  :
    (State.apllaStop s).holds B L := by
  unfold State.apllaStop; simp +contextual (maxDischargeDepth := 40) [*]

@[simp] theorem State.auxStart_holds {B : List Host.Cell} {L : List Instr} {s : State} (hs : s.holds B L) (n : ℕ)  :
    (State.auxStart s n).1.holds B L := by
  unfold State.auxStart; simp +contextual (maxDischargeDepth := 40) [*]

end Sys2Proof.Machine
end

