-- ==== Sys2Proof/Laws/FrameEave.lean ====
section
/-! SUPPORT. The operations of Eave leave BAR2 and the queue of waiting commands alone. -/

namespace Sys2Proof.Machine

set_option linter.unusedTactic false
set_option linter.unreachableTactic false

@[simp] theorem State.eaveLog_holds {B : List Host.Cell} {L : List Instr} {s : State} (hs : s.holds B L) (code : ℕ) (data : ℕ)  :
    (State.eaveLog s code data).holds B L := by
  unfold State.eaveLog; simp +contextual (maxDischargeDepth := 40) [*]

@[simp] theorem State.eaveLogClear_holds {B : List Host.Cell} {L : List Instr} {s : State} (hs : s.holds B L)  :
    (State.eaveLogClear s).holds B L := by
  unfold State.eaveLogClear; simp +contextual (maxDischargeDepth := 40) [*]

@[simp] theorem State.setPwr_holds {B : List Host.Cell} {L : List Instr} {s : State} (hs : s.holds B L) (high : Bool) (cause : ℕ)  :
    (State.setPwr s high cause).holds B L := by
  unfold State.setPwr; simp +contextual (maxDischargeDepth := 40) [*]

@[simp] theorem State.cancelDown_holds {B : List Host.Cell} {L : List Instr} {s : State} (hs : s.holds B L)  :
    (State.cancelDown s).holds B L := by
  unfold State.cancelDown; simp +contextual (maxDischargeDepth := 40) [*]

@[simp] theorem State.pwrOnNow_holds {B : List Host.Cell} {L : List Instr} {s : State} (hs : s.holds B L) (cause : ℕ)  :
    (State.pwrOnNow s cause).holds B L := by
  unfold State.pwrOnNow; simp +contextual (maxDischargeDepth := 40) [*]

@[simp] theorem State.pwrOffDelayed_holds {B : List Host.Cell} {L : List Instr} {s : State} (hs : s.holds B L) (cause : ℕ)  :
    (State.pwrOffDelayed s cause).holds B L := by
  unfold State.pwrOffDelayed; simp +contextual (maxDischargeDepth := 40) [*]

@[simp] theorem State.pwrOffNow_holds {B : List Host.Cell} {L : List Instr} {s : State} (hs : s.holds B L) (cause : ℕ)  :
    (State.pwrOffNow s cause).holds B L := by
  unfold State.pwrOffNow; simp +contextual (maxDischargeDepth := 40) [*]

@[simp] theorem State.setAlert_holds {B : List Host.Cell} {L : List Instr} {s : State} (hs : s.holds B L) (on : Bool)  :
    (State.setAlert s on).holds B L := by
  unfold State.setAlert; simp +contextual (maxDischargeDepth := 40) [*]

@[simp] theorem State.eaveWait_holds {B : List Host.Cell} {L : List Instr} {s : State} (hs : s.holds B L) (c : EaveCmd)  :
    (State.eaveWait s c).holds B L := by
  unfold State.eaveWait; simp +contextual (maxDischargeDepth := 40) [*]

theorem execPwrDownDelayExpiry_holds {B : List Host.Cell} {L : List Instr} {s : State} (hs : s.holds B L)  :
    ∀ u, execPwrDownDelayExpiry s = .next u → u.holds B L := by
  intro u ht; unfold execPwrDownDelayExpiry at ht
  refine guarded_holds (fun s hs => ?_) hs ht
  repeat' first | (simp +contextual (maxDischargeDepth := 40) [*]; done) | split | dsimp only | (refine State.forEach_holds ?_ _ _ (fun _ _ _ => ?_)) | (refine State.onlyIf_holds ?_ _ _ (fun _ _ => ?_))

@[simp] theorem State.setCalUnc_holds {B : List Host.Cell} {L : List Instr} {s : State} (hs : s.holds B L) (ns : ℕ)  :
    (State.setCalUnc s ns).holds B L := by
  unfold State.setCalUnc; simp +contextual (maxDischargeDepth := 40) [*]

@[simp] theorem State.loadCal_holds {B : List Host.Cell} {L : List Instr} {s : State} (hs : s.holds B L) (t32 : ℤ)  :
    (State.loadCal s t32).holds B L := by
  unfold State.loadCal; simp +contextual (maxDischargeDepth := 40) [*]

@[simp] theorem State.eaveCmd_holds {B : List Host.Cell} {L : List Instr} {s : State} (hs : s.holds B L) (c : EaveCmd)  :
    (State.eaveCmd s c).holds B L := by
  unfold State.eaveCmd; repeat' first | (simp +contextual (maxDischargeDepth := 40) [*]; done) | split | dsimp only | (refine State.forEach_holds ?_ _ _ (fun _ _ _ => ?_)) | (refine State.onlyIf_holds ?_ _ _ (fun _ _ => ?_))

@[simp] theorem State.countEdge_holds {B : List Host.Cell} {L : List Instr} {s : State} (hs : s.holds B L)  :
    (State.countEdge s).holds B L := by
  unfold State.countEdge
  extract_lets trim acc extra n growth src srcE s1 s2 src3 srcE3 s3 s4 srcE4
  have h1 : s1.holds B L := by simp only [s1, src, srcE]; simp +contextual (maxDischargeDepth := 40) [*]
  clear_value s1 src srcE
  have h2 : s2.holds B L := by simp only [s2]; simp +contextual (maxDischargeDepth := 40) [*]
  clear_value s2
  have h3 : s3.holds B L := by simp only [s3, src3, srcE3]; split <;> simp +contextual (maxDischargeDepth := 40) [*]
  clear_value s3 src3 srcE3
  have h4 : s4.holds B L := by simp only [s4]; repeat' first | (simp +contextual (maxDischargeDepth := 40) [*]; done) | split | dsimp only | (refine State.forEach_holds ?_ _ _ (fun _ _ _ => ?_)) | (refine State.onlyIf_holds ?_ _ _ (fun _ _ => ?_))
  clear_value s4 srcE4
  simp +contextual (maxDischargeDepth := 40) [*]


@[simp] theorem State.eaveTick_holds {B : List Host.Cell} {L : List Instr} {s : State} (hs : s.holds B L)  :
    (State.eaveTick s).holds B L := by
  unfold State.eaveTick; simp +contextual (maxDischargeDepth := 40) [*]

@[simp] theorem State.copyLeap_holds {B : List Host.Cell} {L : List Instr} {s : State} (hs : s.holds B L)  :
    (State.copyLeap s).holds B L := by
  unfold State.copyLeap; simp +contextual (maxDischargeDepth := 40) [*]

@[simp] theorem State.loadLeap_holds {B : List Host.Cell} {L : List Instr} {s : State} (hs : s.holds B L)  :
    (State.loadLeap s).holds B L := by
  unfold State.loadLeap; simp +contextual (maxDischargeDepth := 40) [*]

theorem execEaveLeap_holds {B : List Host.Cell} {L : List Instr} {s : State} (hs : s.holds B L)  :
    ∀ u, execEaveLeap s = .next u → u.holds B L := by
  intro u ht; unfold execEaveLeap at ht
  refine guarded_holds (fun s hs => ?_) hs ht
  repeat' first | (simp +contextual (maxDischargeDepth := 40) [*]; done) | split | dsimp only | (refine State.forEach_holds ?_ _ _ (fun _ _ _ => ?_)) | (refine State.onlyIf_holds ?_ _ _ (fun _ _ => ?_))

@[simp] theorem State.eaveSecond_holds {B : List Host.Cell} {L : List Instr} {s : State} (hs : s.holds B L)  :
    (State.eaveSecond s).holds B L := by
  unfold State.eaveSecond; simp +contextual (maxDischargeDepth := 40) [*]

@[simp] theorem State.calendarSync_holds {B : List Host.Cell} {L : List Instr} {s : State} (hs : s.holds B L)  :
    (State.calendarSync s).holds B L := by
  unfold State.calendarSync; repeat' first | (simp +contextual (maxDischargeDepth := 40) [*]; done) | split | dsimp only | (refine State.forEach_holds ?_ _ _ (fun _ _ _ => ?_)) | (refine State.onlyIf_holds ?_ _ _ (fun _ _ => ?_))

theorem execCalendarSync_holds {B : List Host.Cell} {L : List Instr} {s : State} (hs : s.holds B L)  :
    ∀ u, execCalendarSync s = .next u → u.holds B L := by
  intro u ht; unfold execCalendarSync at ht
  refine guarded_holds (fun s hs => ?_) hs ht
  repeat' first | (simp +contextual (maxDischargeDepth := 40) [*]; done) | split | dsimp only | (refine State.forEach_holds ?_ _ _ (fun _ _ _ => ?_)) | (refine State.onlyIf_holds ?_ _ _ (fun _ _ => ?_))

theorem execTrimRenew_holds {B : List Host.Cell} {L : List Instr} {s : State} (hs : s.holds B L) (trim : ℕ)  :
    ∀ u, execTrimRenew trim s = .next u → u.holds B L := by
  intro u ht; unfold execTrimRenew at ht
  refine guarded_holds (fun s hs => ?_) hs ht
  repeat' first | (simp +contextual (maxDischargeDepth := 40) [*]; done) | split | dsimp only | (refine State.forEach_holds ?_ _ _ (fun _ _ _ => ?_)) | (refine State.onlyIf_holds ?_ _ _ (fun _ _ => ?_))

theorem execEaveSwitchover_holds {B : List Host.Cell} {L : List Instr} {s : State} (hs : s.holds B L) (toVbat : Bool)  :
    ∀ u, execEaveSwitchover toVbat s = .next u → u.holds B L := by
  intro u ht; unfold execEaveSwitchover at ht
  refine guarded_holds (fun s hs => ?_) hs ht
  repeat' first | (simp +contextual (maxDischargeDepth := 40) [*]; done) | split | dsimp only | (refine State.forEach_holds ?_ _ _ (fun _ _ _ => ?_)) | (refine State.onlyIf_holds ?_ _ _ (fun _ _ => ?_))

@[simp] theorem State.eavePor_holds {B : List Host.Cell} {L : List Instr} {s : State} (hs : s.holds B L)  :
    (State.eavePor s).holds B L := by
  unfold State.eavePor
  extract_lets on s1 s2 s3
  have h1 : s1.holds B L := hs
  clear_value s1
  have h2 : s2.holds B L := by simp only [s2]; simp +contextual (maxDischargeDepth := 40) [*]
  clear_value s2
  simp +contextual (maxDischargeDepth := 40) [s3, *]

theorem execEavePor_holds {B : List Host.Cell} {L : List Instr} {s : State} (hs : s.holds B L)  :
    ∀ u, execEavePor s = .next u → u.holds B L := by
  intro u ht; unfold execEavePor at ht
  refine guarded_holds (fun s hs => ?_) hs ht
  repeat' first | (simp +contextual (maxDischargeDepth := 40) [*]; done) | split | dsimp only | (refine State.forEach_holds ?_ _ _ (fun _ _ _ => ?_)) | (refine State.onlyIf_holds ?_ _ _ (fun _ _ => ?_))

theorem execXt32Fault_holds {B : List Host.Cell} {L : List Instr} {s : State} (hs : s.holds B L)  :
    ∀ u, execXt32Fault s = .next u → u.holds B L := by
  intro u ht; unfold execXt32Fault at ht
  refine guarded_holds (fun s hs => ?_) hs ht
  repeat' first | (simp +contextual (maxDischargeDepth := 40) [*]; done) | split | dsimp only | (refine State.forEach_holds ?_ _ _ (fun _ _ _ => ?_)) | (refine State.onlyIf_holds ?_ _ _ (fun _ _ => ?_))

@[simp] theorem State.monitorSample_holds {B : List Host.Cell} {L : List Instr} {s : State} (hs : s.holds B L) (k : ℕ) (x : SourceLevels)  :
    (State.monitorSample s k x).holds B L := by
  unfold State.monitorSample; simp +contextual (maxDischargeDepth := 40) [*]

@[simp] theorem State.monitorTick_holds {B : List Host.Cell} {L : List Instr} {s : State} (hs : s.holds B L) (samples : List SourceLevels)  :
    (State.monitorTick s samples).holds B L := by
  unfold State.monitorTick; simp +contextual (maxDischargeDepth := 40) [*]

theorem execMonitorTick_holds {B : List Host.Cell} {L : List Instr} {s : State} (hs : s.holds B L) (samples : List SourceLevels)  :
    ∀ u, execMonitorTick samples s = .next u → u.holds B L := by
  intro u ht; unfold execMonitorTick at ht
  refine guarded_holds (fun s hs => ?_) hs ht
  repeat' first | (simp +contextual (maxDischargeDepth := 40) [*]; done) | split | dsimp only | (refine State.forEach_holds ?_ _ _ (fun _ _ _ => ?_)) | (refine State.onlyIf_holds ?_ _ _ (fun _ _ => ?_))

@[simp] theorem State.progEnd_holds {B : List Host.Cell} {L : List Instr} {s : State} (hs : s.holds B L) (a : ℕ)  :
    (State.progEnd s a).holds B L := by
  unfold State.progEnd; simp +contextual (maxDischargeDepth := 40) [*]

@[simp] theorem State.progGoto_holds {B : List Host.Cell} {L : List Instr} {s : State} (hs : s.holds B L) (a : ℕ) (b : ℕ)  :
    (State.progGoto s a b).holds B L := by
  unfold State.progGoto; simp +contextual (maxDischargeDepth := 40) [*]

@[simp] theorem State.progRun_holds {B : List Host.Cell} {L : List Instr} {s : State} (hs : s.holds B L) (op : ℕ) (f : ℕ → State → State) (hf : ∀ a s, s.holds B L → (f a s).holds B L) :
    (State.progRun s op f).holds B L := by
  unfold State.progRun; repeat' first | (simp +contextual (maxDischargeDepth := 40) [*]; done) | split | dsimp only | (refine State.forEach_holds ?_ _ _ (fun _ _ _ => ?_)) | (refine State.onlyIf_holds ?_ _ _ (fun _ _ => ?_))

@[simp] theorem State.putC_holds {B : List Host.Cell} {L : List Instr} {s : State} (hs : s.holds B L) (b : Bool)  :
    (State.putC s b).holds B L := by
  unfold State.putC; simp +contextual (maxDischargeDepth := 40) [*]

theorem execTest_holds {B : List Host.Cell} {L : List Instr} {s : State} (hs : s.holds B L)  :
    ∀ u, execTest s = .next u → u.holds B L := by
  intro u ht; unfold execTest at ht
  refine guarded_holds (fun s hs => ?_) hs ht
  repeat' first | (simp +contextual (maxDischargeDepth := 40) [*]; done) | split | dsimp only | (refine State.forEach_holds ?_ _ _ (fun _ _ _ => ?_)) | (refine State.onlyIf_holds ?_ _ _ (fun _ _ => ?_))

theorem execAnd_holds {B : List Host.Cell} {L : List Instr} {s : State} (hs : s.holds B L)  :
    ∀ u, execAnd s = .next u → u.holds B L := by
  intro u ht; unfold execAnd at ht
  refine guarded_holds (fun s hs => ?_) hs ht
  repeat' first | (simp +contextual (maxDischargeDepth := 40) [*]; done) | split | dsimp only | (refine State.forEach_holds ?_ _ _ (fun _ _ _ => ?_)) | (refine State.onlyIf_holds ?_ _ _ (fun _ _ => ?_))

theorem execOr_holds {B : List Host.Cell} {L : List Instr} {s : State} (hs : s.holds B L)  :
    ∀ u, execOr s = .next u → u.holds B L := by
  intro u ht; unfold execOr at ht
  refine guarded_holds (fun s hs => ?_) hs ht
  repeat' first | (simp +contextual (maxDischargeDepth := 40) [*]; done) | split | dsimp only | (refine State.forEach_holds ?_ _ _ (fun _ _ _ => ?_)) | (refine State.onlyIf_holds ?_ _ _ (fun _ _ => ?_))

theorem execSetf_holds {B : List Host.Cell} {L : List Instr} {s : State} (hs : s.holds B L)  :
    ∀ u, execSetf s = .next u → u.holds B L := by
  intro u ht; unfold execSetf at ht
  refine guarded_holds (fun s hs => ?_) hs ht
  repeat' first | (simp +contextual (maxDischargeDepth := 40) [*]; done) | split | dsimp only | (refine State.forEach_holds ?_ _ _ (fun _ _ _ => ?_)) | (refine State.onlyIf_holds ?_ _ _ (fun _ _ => ?_))

theorem execJmp_holds {B : List Host.Cell} {L : List Instr} {s : State} (hs : s.holds B L)  :
    ∀ u, execJmp s = .next u → u.holds B L := by
  intro u ht; unfold execJmp at ht
  refine guarded_holds (fun s hs => ?_) hs ht
  repeat' first | (simp +contextual (maxDischargeDepth := 40) [*]; done) | split | dsimp only | (refine State.forEach_holds ?_ _ _ (fun _ _ _ => ?_)) | (refine State.onlyIf_holds ?_ _ _ (fun _ _ => ?_))

theorem execCnt_holds {B : List Host.Cell} {L : List Instr} {s : State} (hs : s.holds B L)  :
    ∀ u, execCnt s = .next u → u.holds B L := by
  intro u ht; unfold execCnt at ht
  refine guarded_holds (fun s hs => ?_) hs ht
  repeat' first | (simp +contextual (maxDischargeDepth := 40) [*]; done) | split | dsimp only | (refine State.forEach_holds ?_ _ _ (fun _ _ _ => ?_)) | (refine State.onlyIf_holds ?_ _ _ (fun _ _ => ?_))

theorem execCmp_holds {B : List Host.Cell} {L : List Instr} {s : State} (hs : s.holds B L)  :
    ∀ u, execCmp s = .next u → u.holds B L := by
  intro u ht; unfold execCmp at ht
  refine guarded_holds (fun s hs => ?_) hs ht
  repeat' first | (simp +contextual (maxDischargeDepth := 40) [*]; done) | split | dsimp only | (refine State.forEach_holds ?_ _ _ (fun _ _ _ => ?_)) | (refine State.onlyIf_holds ?_ _ _ (fun _ _ => ?_))

@[simp] theorem State.progOut_holds {B : List Host.Cell} {L : List Instr} {s : State} (hs : s.holds B L) (action : ℕ) (f : State → State) (hf : ∀ s, s.holds B L → (f s).holds B L) :
    (State.progOut s action f).holds B L := by
  unfold State.progOut; repeat' first | (simp +contextual (maxDischargeDepth := 40) [*]; done) | split | dsimp only | (refine State.forEach_holds ?_ _ _ (fun _ _ _ => ?_)) | (refine State.onlyIf_holds ?_ _ _ (fun _ _ => ?_))

theorem execOutPwrOn_holds {B : List Host.Cell} {L : List Instr} {s : State} (hs : s.holds B L)  :
    ∀ u, execOutPwrOn s = .next u → u.holds B L := by
  intro u ht; unfold execOutPwrOn at ht
  refine guarded_holds (fun s hs => ?_) hs ht
  repeat' first | (simp +contextual (maxDischargeDepth := 40) [*]; done) | split | dsimp only | (refine State.forEach_holds ?_ _ _ (fun _ _ _ => ?_)) | (refine State.onlyIf_holds ?_ _ _ (fun _ _ => ?_))

theorem execOutPwrOff_holds {B : List Host.Cell} {L : List Instr} {s : State} (hs : s.holds B L)  :
    ∀ u, execOutPwrOff s = .next u → u.holds B L := by
  intro u ht; unfold execOutPwrOff at ht
  refine guarded_holds (fun s hs => ?_) hs ht
  repeat' first | (simp +contextual (maxDischargeDepth := 40) [*]; done) | split | dsimp only | (refine State.forEach_holds ?_ _ _ (fun _ _ _ => ?_)) | (refine State.onlyIf_holds ?_ _ _ (fun _ _ => ?_))

theorem execOutAlertSet_holds {B : List Host.Cell} {L : List Instr} {s : State} (hs : s.holds B L)  :
    ∀ u, execOutAlertSet s = .next u → u.holds B L := by
  intro u ht; unfold execOutAlertSet at ht
  refine guarded_holds (fun s hs => ?_) hs ht
  repeat' first | (simp +contextual (maxDischargeDepth := 40) [*]; done) | split | dsimp only | (refine State.forEach_holds ?_ _ _ (fun _ _ _ => ?_)) | (refine State.onlyIf_holds ?_ _ _ (fun _ _ => ?_))

theorem execOutAlertClr_holds {B : List Host.Cell} {L : List Instr} {s : State} (hs : s.holds B L)  :
    ∀ u, execOutAlertClr s = .next u → u.holds B L := by
  intro u ht; unfold execOutAlertClr at ht
  refine guarded_holds (fun s hs => ?_) hs ht
  repeat' first | (simp +contextual (maxDischargeDepth := 40) [*]; done) | split | dsimp only | (refine State.forEach_holds ?_ _ _ (fun _ _ _ => ?_)) | (refine State.onlyIf_holds ?_ _ _ (fun _ _ => ?_))

theorem execLog_holds {B : List Host.Cell} {L : List Instr} {s : State} (hs : s.holds B L)  :
    ∀ u, execLog s = .next u → u.holds B L := by
  intro u ht; unfold execLog at ht
  refine guarded_holds (fun s hs => ?_) hs ht
  repeat' first | (simp +contextual (maxDischargeDepth := 40) [*]; done) | split | dsimp only | (refine State.forEach_holds ?_ _ _ (fun _ _ _ => ?_)) | (refine State.onlyIf_holds ?_ _ _ (fun _ _ => ?_))

theorem execClrl_holds {B : List Host.Cell} {L : List Instr} {s : State} (hs : s.holds B L)  :
    ∀ u, execClrl s = .next u → u.holds B L := by
  intro u ht; unfold execClrl at ht
  refine guarded_holds (fun s hs => ?_) hs ht
  repeat' first | (simp +contextual (maxDischargeDepth := 40) [*]; done) | split | dsimp only | (refine State.forEach_holds ?_ _ _ (fun _ _ _ => ?_)) | (refine State.onlyIf_holds ?_ _ _ (fun _ _ => ?_))

theorem execProgEnd_holds {B : List Host.Cell} {L : List Instr} {s : State} (hs : s.holds B L)  :
    ∀ u, execProgEnd s = .next u → u.holds B L := by
  intro u ht; unfold execProgEnd at ht
  refine guarded_holds (fun s hs => ?_) hs ht
  repeat' first | (simp +contextual (maxDischargeDepth := 40) [*]; done) | split | dsimp only | (refine State.forEach_holds ?_ _ _ (fun _ _ _ => ?_)) | (refine State.onlyIf_holds ?_ _ _ (fun _ _ => ?_))

theorem execProgramMemoryEcc_holds {B : List Host.Cell} {L : List Instr} {s : State} (hs : s.holds B L)  :
    ∀ u, execProgramMemoryEcc s = .next u → u.holds B L := by
  intro u ht; unfold execProgramMemoryEcc at ht
  refine guarded_holds (fun s hs => ?_) hs ht
  repeat' first | (simp +contextual (maxDischargeDepth := 40) [*]; done) | split | dsimp only | (refine State.forEach_holds ?_ _ _ (fun _ _ _ => ?_)) | (refine State.onlyIf_holds ?_ _ _ (fun _ _ => ?_))

theorem execWakeEdge_holds {B : List Host.Cell} {L : List Instr} {s : State} (hs : s.holds B L) (rising : Bool)  :
    ∀ u, execWakeEdge rising s = .next u → u.holds B L := by
  intro u ht; unfold execWakeEdge at ht
  refine guarded_holds (fun s hs => ?_) hs ht
  repeat' first | (simp +contextual (maxDischargeDepth := 40) [*]; done) | split | dsimp only | (refine State.forEach_holds ?_ _ _ (fun _ _ _ => ?_)) | (refine State.onlyIf_holds ?_ _ _ (fun _ _ => ?_))

theorem execAlarm_holds {B : List Host.Cell} {L : List Instr} {s : State} (hs : s.holds B L)  :
    ∀ u, execAlarm s = .next u → u.holds B L := by
  intro u ht; unfold execAlarm at ht
  refine guarded_holds (fun s hs => ?_) hs ht
  repeat' first | (simp +contextual (maxDischargeDepth := 40) [*]; done) | split | dsimp only | (refine State.forEach_holds ?_ _ _ (fun _ _ _ => ?_)) | (refine State.onlyIf_holds ?_ _ _ (fun _ _ => ?_))

@[simp] theorem State.calSet_holds {B : List Host.Cell} {L : List Instr} {s : State} (hs : s.holds B L) (p : Path)  :
    (State.calSet s p).1.holds B L := by
  unfold State.calSet; simp +contextual (maxDischargeDepth := 40) [*]

@[simp] theorem State.calSyncNow_holds {B : List Host.Cell} {L : List Instr} {s : State} (hs : s.holds B L)  :
    (State.calSyncNow s).1.holds B L := by
  unfold State.calSyncNow; simp +contextual (maxDischargeDepth := 40) [*]

@[simp] theorem State.calInvalidate_holds {B : List Host.Cell} {L : List Instr} {s : State} (hs : s.holds B L)  :
    (State.calInvalidate s).1.holds B L := by
  unfold State.calInvalidate; simp +contextual (maxDischargeDepth := 40) [*]

@[simp] theorem State.calCmd_holds {B : List Host.Cell} {L : List Instr} {s : State} (hs : s.holds B L) (p : Path) (v : ℕ)  :
    (State.calCmd s p v).1.holds B L := by
  unfold State.calCmd; repeat' first | (simp +contextual (maxDischargeDepth := 40) [*]; done) | split | dsimp only | (refine State.forEach_holds ?_ _ _ (fun _ _ _ => ?_)) | (refine State.onlyIf_holds ?_ _ _ (fun _ _ => ?_))

@[simp] theorem State.cmdPwrOn_holds {B : List Host.Cell} {L : List Instr} {s : State} (hs : s.holds B L) (p : Path)  :
    (State.cmdPwrOn s p).1.holds B L := by
  unfold State.cmdPwrOn; simp +contextual (maxDischargeDepth := 40) [*]

@[simp] theorem State.cmdPwrOff_holds {B : List Host.Cell} {L : List Instr} {s : State} (hs : s.holds B L) (p : Path)  :
    (State.cmdPwrOff s p).1.holds B L := by
  unfold State.cmdPwrOff; simp +contextual (maxDischargeDepth := 40) [*]

@[simp] theorem State.pwrCmd_holds {B : List Host.Cell} {L : List Instr} {s : State} (hs : s.holds B L) (p : Path) (v : ℕ)  :
    (State.pwrCmd s p v).1.holds B L := by
  unfold State.pwrCmd; repeat' first | (simp +contextual (maxDischargeDepth := 40) [*]; done) | split | dsimp only | (refine State.forEach_holds ?_ _ _ (fun _ _ _ => ?_)) | (refine State.onlyIf_holds ?_ _ _ (fun _ _ => ?_))

@[simp] theorem State.eaveLogCmd_holds {B : List Host.Cell} {L : List Instr} {s : State} (hs : s.holds B L) (v : ℕ)  :
    (State.eaveLogCmd s v).1.holds B L := by
  unfold State.eaveLogCmd; simp +contextual (maxDischargeDepth := 40) [*]

@[simp] theorem State.progCtl_holds {B : List Host.Cell} {L : List Instr} {s : State} (hs : s.holds B L) (v : ℕ)  :
    (State.progCtl s v).1.holds B L := by
  unfold State.progCtl; simp +contextual (maxDischargeDepth := 40) [*]

end Sys2Proof.Machine
end

