-- ==== Sys2Proof/Laws/FrameClock.lean ====
section
/-! SUPPORT. The operations of Clock leave BAR2 and the queue of waiting commands alone. -/

namespace Sys2Proof.Machine

set_option linter.unusedTactic false
set_option linter.unreachableTactic false

@[simp] theorem State.showAnchor_holds {B : List Host.Cell} {L : List Instr} {s : State} (hs : s.holds B L)  :
    (State.showAnchor s).holds B L := by
  unfold State.showAnchor; simp +contextual (maxDischargeDepth := 40) [*]

@[simp] theorem State.yEffect_holds {B : List Host.Cell} {L : List Instr} {s : State} (hs : s.holds B L) (y : ℤ)  :
    (State.yEffect s y).holds B L := by
  unfold State.yEffect; simp +contextual (maxDischargeDepth := 40) [*]

theorem execYTakesEffect_holds {B : List Host.Cell} {L : List Instr} {s : State} (hs : s.holds B L)  :
    ∀ u, execYTakesEffect s = .next u → u.holds B L := by
  intro u ht; unfold execYTakesEffect at ht
  refine guarded_holds (fun s hs => ?_) hs ht
  repeat' first | (simp +contextual (maxDischargeDepth := 40) [*]; done) | split | dsimp only | (refine State.forEach_holds ?_ _ _ (fun _ _ _ => ?_)) | (refine State.onlyIf_holds ?_ _ _ (fun _ _ => ?_))

@[simp] theorem State.logStep_holds {B : List Host.Cell} {L : List Instr} {s : State} (hs : s.holds B L) (d : ℤ)  :
    (State.logStep s d).holds B L := by
  unfold State.logStep; simp +contextual (maxDischargeDepth := 40) [*]

@[simp] theorem State.reportRestart_holds {B : List Host.Cell} {L : List Instr} {s : State} (hs : s.holds B L)  :
    (State.reportRestart s).holds B L := by
  unfold State.reportRestart; simp +contextual (maxDischargeDepth := 40) [*]

@[simp] theorem State.moveMarks_holds {B : List Host.Cell} {L : List Instr} {s : State} (hs : s.holds B L) (d : ℤ)  :
    (State.moveMarks s d).holds B L := by
  unfold State.moveMarks; simp +contextual (maxDischargeDepth := 40) [*]

@[simp] theorem State.stepBound_holds {B : List Host.Cell} {L : List Instr} {s : State} (hs : s.holds B L) (d : ℤ) (rest : ℕ)  :
    (State.stepBound s d rest).holds B L := by
  unfold State.stepBound; simp +contextual (maxDischargeDepth := 40) [*]

@[simp] theorem State.stepAfter_holds {B : List Host.Cell} {L : List Instr} {s : State} (hs : s.holds B L) (d : ℤ) (rest : ℕ) (adopts : Option ℕ)  :
    (State.stepAfter s d rest adopts).holds B L := by
  unfold State.stepAfter; repeat' first | (simp +contextual (maxDischargeDepth := 40) [*]; done) | split | dsimp only | (refine State.forEach_holds ?_ _ _ (fun _ _ _ => ?_)) | (refine State.onlyIf_holds ?_ _ _ (fun _ _ => ?_))

@[simp] theorem State.stepNow_holds {B : List Host.Cell} {L : List Instr} {s : State} (hs : s.holds B L) (d : ℤ) (adopts : Option ℕ)  :
    (State.stepNow s d adopts).holds B L := by
  unfold State.stepNow
  extract_lets d32 rest s1 src s2 s3 s4 s5 s6 s7 src8 s8
  have h_s1 : s1.holds B L := by simp only [s1]; repeat' first | (simp +contextual (maxDischargeDepth := 40) [*]; done) | split | dsimp only | (refine State.forEach_holds ?_ _ _ (fun _ _ _ => ?_)) | (refine State.onlyIf_holds ?_ _ _ (fun _ _ => ?_))
  clear_value s1
  have h_s2 : s2.holds B L := by simp only [s2]; repeat' first | (simp +contextual (maxDischargeDepth := 40) [*]; done) | split | dsimp only | (refine State.forEach_holds ?_ _ _ (fun _ _ _ => ?_)) | (refine State.onlyIf_holds ?_ _ _ (fun _ _ => ?_))
  clear_value s2
  have h_s3 : s3.holds B L := by simp only [s3]; repeat' first | (simp +contextual (maxDischargeDepth := 40) [*]; done) | split | dsimp only | (refine State.forEach_holds ?_ _ _ (fun _ _ _ => ?_)) | (refine State.onlyIf_holds ?_ _ _ (fun _ _ => ?_))
  clear_value s3
  have h_s4 : s4.holds B L := by simp only [s4]; repeat' first | (simp +contextual (maxDischargeDepth := 40) [*]; done) | split | dsimp only | (refine State.forEach_holds ?_ _ _ (fun _ _ _ => ?_)) | (refine State.onlyIf_holds ?_ _ _ (fun _ _ => ?_))
  clear_value s4
  have h_s5 : s5.holds B L := by simp only [s5]; repeat' first | (simp +contextual (maxDischargeDepth := 40) [*]; done) | split | dsimp only | (refine State.forEach_holds ?_ _ _ (fun _ _ _ => ?_)) | (refine State.onlyIf_holds ?_ _ _ (fun _ _ => ?_))
  clear_value s5
  have h_s6 : s6.holds B L := by simp only [s6]; repeat' first | (simp +contextual (maxDischargeDepth := 40) [*]; done) | split | dsimp only | (refine State.forEach_holds ?_ _ _ (fun _ _ _ => ?_)) | (refine State.onlyIf_holds ?_ _ _ (fun _ _ => ?_))
  clear_value s6
  have h_s7 : s7.holds B L := by simp only [s7]; repeat' first | (simp +contextual (maxDischargeDepth := 40) [*]; done) | split | dsimp only | (refine State.forEach_holds ?_ _ _ (fun _ _ _ => ?_)) | (refine State.onlyIf_holds ?_ _ _ (fun _ _ => ?_))
  clear_value s7
  have h_s8 : s8.holds B L := by simp only [s8]; repeat' first | (simp +contextual (maxDischargeDepth := 40) [*]; done) | split | dsimp only | (refine State.forEach_holds ?_ _ _ (fun _ _ _ => ?_)) | (refine State.onlyIf_holds ?_ _ _ (fun _ _ => ?_))
  clear_value s8
  repeat' first | (simp +contextual (maxDischargeDepth := 40) [*]; done) | split | dsimp only | (refine State.forEach_holds ?_ _ _ (fun _ _ _ => ?_)) | (refine State.onlyIf_holds ?_ _ _ (fun _ _ => ?_))

theorem execTimescaleStep_holds {B : List Host.Cell} {L : List Instr} {s : State} (hs : s.holds B L)  :
    ∀ u, execTimescaleStep s = .next u → u.holds B L := by
  intro u ht; unfold execTimescaleStep at ht
  refine guarded_holds (fun s hs => ?_) hs ht
  repeat' first | (simp +contextual (maxDischargeDepth := 40) [*]; done) | split | dsimp only | (refine State.forEach_holds ?_ _ _ (fun _ _ _ => ?_)) | (refine State.onlyIf_holds ?_ _ _ (fun _ _ => ?_))

theorem execLeapApply_holds {B : List Host.Cell} {L : List Instr} {s : State} (hs : s.holds B L)  :
    ∀ u, execLeapApply s = .next u → u.holds B L := by
  intro u ht; unfold execLeapApply at ht
  refine guarded_holds (fun s hs => ?_) hs ht
  repeat' first | (simp +contextual (maxDischargeDepth := 40) [*]; done) | split | dsimp only | (refine State.forEach_holds ?_ _ _ (fun _ _ _ => ?_)) | (refine State.onlyIf_holds ?_ _ _ (fun _ _ => ?_))

@[simp] theorem State.restartCalibration_holds {B : List Host.Cell} {L : List Instr} {s : State} (hs : s.holds B L)  :
    (State.restartCalibration s).holds B L := by
  unfold State.restartCalibration
  extract_lets s0 s1 s5 cleared srcP
  have h_s0 : s0.holds B L := by simp only [s0]; repeat' first | (simp +contextual (maxDischargeDepth := 40) [*]; done) | split | dsimp only | (refine State.forEach_holds ?_ _ _ (fun _ _ _ => ?_)) | (refine State.onlyIf_holds ?_ _ _ (fun _ _ => ?_))
  clear_value s0
  have h_s1 : s1.holds B L := by
    refine State.forEach_holds h_s0 _ _ (fun _ _ _ => ?_)
    extract_lets s2 s3 srcQ s4
    have h2 : s2.holds B L := by simp only [s2]; simp +contextual (maxDischargeDepth := 40) [*]
    clear_value s2
    have h3 : s3.holds B L := by
      simp only [s3]
      refine State.forEach_holds h2 _ _ (fun _ _ _ => ?_)
      split <;> simp +contextual (maxDischargeDepth := 40) [*]
    clear_value s3
    have h4 : s4.holds B L := by simp only [s4]; simp +contextual (maxDischargeDepth := 40) [*]
    clear_value s4
    simp +contextual (maxDischargeDepth := 40) [*]
  clear_value s1
  have h_s5 : s5.holds B L := by simp only [s5]; repeat' first | (simp +contextual (maxDischargeDepth := 40) [*]; done) | split | dsimp only | (refine State.forEach_holds ?_ _ _ (fun _ _ _ => ?_)) | (refine State.onlyIf_holds ?_ _ _ (fun _ _ => ?_))
  clear_value s5
  clear_value cleared srcP
  simp +contextual (maxDischargeDepth := 40) [*]


@[simp] theorem State.apllmLost_holds {B : List Host.Cell} {L : List Instr} {s : State} (hs : s.holds B L)  :
    (State.apllmLost s).holds B L := by
  unfold State.apllmLost; simp +contextual (maxDischargeDepth := 40) [*]

@[simp] theorem State.apllmLocked_holds {B : List Host.Cell} {L : List Instr} {s : State} (hs : s.holds B L)  :
    (State.apllmLocked s).holds B L := by
  unfold State.apllmLocked; simp +contextual (maxDischargeDepth := 40) [*]

@[simp] theorem State.apllmWindow_holds {B : List Host.Cell} {L : List Instr} {s : State} (hs : s.holds B L) (count : ℕ)  :
    (State.apllmWindow s count).holds B L := by
  unfold State.apllmWindow; simp +contextual (maxDischargeDepth := 40) [*]

theorem execApllLockWindow_holds {B : List Host.Cell} {L : List Instr} {s : State} (hs : s.holds B L) (a : Bool) (count : ℕ)  :
    ∀ u, execApllLockWindow a count s = .next u → u.holds B L := by
  intro u ht; unfold execApllLockWindow at ht
  refine guarded_holds (fun s hs => ?_) hs ht
  repeat' first | (simp +contextual (maxDischargeDepth := 40) [*]; done) | split | dsimp only | (refine State.forEach_holds ?_ _ _ (fun _ _ _ => ?_)) | (refine State.onlyIf_holds ?_ _ _ (fun _ _ => ?_))

theorem execXtalFault_holds {B : List Host.Cell} {L : List Instr} {s : State} (hs : s.holds B L)  :
    ∀ u, execXtalFault s = .next u → u.holds B L := by
  intro u ht; unfold execXtalFault at ht
  refine guarded_holds (fun s hs => ?_) hs ht
  repeat' first | (simp +contextual (maxDischargeDepth := 40) [*]; done) | split | dsimp only | (refine State.forEach_holds ?_ _ _ (fun _ _ _ => ?_)) | (refine State.onlyIf_holds ?_ _ _ (fun _ _ => ?_))

@[simp] theorem State.seed_holds {B : List Host.Cell} {L : List Instr} {s : State} (hs : s.holds B L)  :
    (State.seed s).holds B L := by
  unfold State.seed; simp +contextual (maxDischargeDepth := 40) [*]

theorem execTimescaleSeed_holds {B : List Host.Cell} {L : List Instr} {s : State} (hs : s.holds B L)  :
    ∀ u, execTimescaleSeed s = .next u → u.holds B L := by
  intro u ht; unfold execTimescaleSeed at ht
  refine guarded_holds (fun s hs => ?_) hs ht
  repeat' first | (simp +contextual (maxDischargeDepth := 40) [*]; done) | split | dsimp only | (refine State.forEach_holds ?_ _ _ (fun _ _ _ => ?_)) | (refine State.onlyIf_holds ?_ _ _ (fun _ _ => ?_))

theorem execThreshCrossing_holds {B : List Host.Cell} {L : List Instr} {s : State} (hs : s.holds B L)  :
    ∀ u, execThreshCrossing s = .next u → u.holds B L := by
  intro u ht; unfold execThreshCrossing at ht
  refine guarded_holds (fun s hs => ?_) hs ht
  repeat' first | (simp +contextual (maxDischargeDepth := 40) [*]; done) | split | dsimp only | (refine State.forEach_holds ?_ _ _ (fun _ _ _ => ?_)) | (refine State.onlyIf_holds ?_ _ _ (fun _ _ => ?_))

theorem execTebReport_holds {B : List Host.Cell} {L : List Instr} {s : State} (hs : s.holds B L)  :
    ∀ u, execTebReport s = .next u → u.holds B L := by
  intro u ht; unfold execTebReport at ht
  refine guarded_holds (fun s hs => ?_) hs ht
  repeat' first | (simp +contextual (maxDischargeDepth := 40) [*]; done) | split | dsimp only | (refine State.forEach_holds ?_ _ _ (fun _ _ _ => ?_)) | (refine State.onlyIf_holds ?_ _ _ (fun _ _ => ?_))

theorem execTraceExpiry_holds {B : List Host.Cell} {L : List Instr} {s : State} (hs : s.holds B L)  :
    ∀ u, execTraceExpiry s = .next u → u.holds B L := by
  intro u ht; unfold execTraceExpiry at ht
  refine guarded_holds (fun s hs => ?_) hs ht
  repeat' first | (simp +contextual (maxDischargeDepth := 40) [*]; done) | split | dsimp only | (refine State.forEach_holds ?_ _ _ (fun _ _ _ => ?_)) | (refine State.onlyIf_holds ?_ _ _ (fun _ _ => ?_))

end Sys2Proof.Machine
end

