-- ==== Sys2Proof/Laws/FrameGutter.lean ====
section
/-! SUPPORT. The operations of Gutter leave BAR2 and the queue of waiting commands alone. -/

namespace Sys2Proof.Machine

set_option linter.unusedTactic false
set_option linter.unreachableTactic false

@[simp] theorem State.keepCfg_holds {B : List Host.Cell} {L : List Instr} {s : State} (hs : s.holds B L) (k : ℕ)  :
    (State.keepCfg s k).holds B L := by
  unfold State.keepCfg; simp +contextual (maxDischargeDepth := 40) [*]

@[simp] theorem State.showPair_holds {B : List Host.Cell} {L : List Instr} {s : State} {old : State} (hs : s.holds B L) (hold : old.holds B L)  :
    (State.showPair s old).holds B L := by
  unfold State.showPair; repeat' first | (simp +contextual (maxDischargeDepth := 40) [*]; done) | split | dsimp only | (refine State.forEach_holds ?_ _ _ (fun _ _ _ => ?_)) | (refine State.onlyIf_holds ?_ _ _ (fun _ _ => ?_))

@[simp] theorem State.reactSafe_holds {B : List Host.Cell} {L : List Instr} {s : State} (hs : s.holds B L) (k : ℕ) (page : ℕ)  :
    (State.reactSafe s k page).holds B L := by
  unfold State.reactSafe; repeat' first | (simp +contextual (maxDischargeDepth := 40) [*]; done) | split | dsimp only | (refine State.forEach_holds ?_ _ _ (fun _ _ _ => ?_)) | (refine State.onlyIf_holds ?_ _ _ (fun _ _ => ?_))

@[simp] theorem State.deviceSafe_holds {B : List Host.Cell} {L : List Instr} {s : State} (hs : s.holds B L) (cause : ℕ)  :
    (State.deviceSafe s cause).holds B L := by
  unfold State.deviceSafe; simp +contextual (maxDischargeDepth := 40) [*]

@[simp] theorem State.logReport_holds {B : List Host.Cell} {L : List Instr} {s : State} (hs : s.holds B L) (first : Option ℕ) (r : Report)  :
    (State.logReport s first r).holds B L := by
  unfold State.logReport; simp +contextual (maxDischargeDepth := 40) [*]

@[simp] theorem State.fillFirst_holds {B : List Host.Cell} {L : List Instr} {s : State} (hs : s.holds B L) (rs : List Report) (w : Report)  :
    (State.fillFirst s rs w).holds B L := by
  unfold State.fillFirst; simp +contextual (maxDischargeDepth := 40) [*]

@[simp] theorem State.mapLines_holds {B : List Host.Cell} {L : List Instr} {s : State} (hs : s.holds B L) (ks : List ℕ)  :
    (State.mapLines s ks).holds B L := by
  unfold State.mapLines; simp +contextual (maxDischargeDepth := 40) [*]

@[simp] theorem State.collect_holds {B : List Host.Cell} {L : List Instr} {s : State} (hs : s.holds B L) (evs : List FaultEvent)  :
    (State.collect s evs).holds B L := by
  unfold State.collect; repeat' first | (simp +contextual (maxDischargeDepth := 40) [*]; done) | split | dsimp only | (refine State.forEach_holds ?_ _ _ (fun _ _ _ => ?_)) | (refine State.onlyIf_holds ?_ _ _ (fun _ _ => ?_))

@[simp] theorem State.collectOwn_holds {B : List Host.Cell} {L : List Instr} {s : State} (hs : s.holds B L) (evs : List FaultEvent)  :
    (State.collectOwn s evs).holds B L := by
  unfold State.collectOwn; repeat' first | (simp +contextual (maxDischargeDepth := 40) [*]; done) | split | dsimp only | (refine State.forEach_holds ?_ _ _ (fun _ _ _ => ?_)) | (refine State.onlyIf_holds ?_ _ _ (fun _ _ => ?_))

theorem execFaultCollect_holds {B : List Host.Cell} {L : List Instr} {s : State} (hs : s.holds B L)  :
    ∀ u, execFaultCollect s = .next u → u.holds B L := by
  intro u ht; unfold execFaultCollect at ht
  refine guarded_holds (fun s hs => ?_) hs ht
  repeat' first | (simp +contextual (maxDischargeDepth := 40) [*]; done) | split | dsimp only | (refine State.forEach_holds ?_ _ _ (fun _ _ _ => ?_)) | (refine State.onlyIf_holds ?_ _ _ (fun _ _ => ?_))

theorem execLineFault_holds {B : List Host.Cell} {L : List Instr} {s : State} (hs : s.holds B L) (p : PairReading)  :
    ∀ u, execLineFault p s = .next u → u.holds B L := by
  intro u ht; unfold execLineFault at ht
  refine guarded_holds (fun s hs => ?_) hs ht
  repeat' first | (simp +contextual (maxDischargeDepth := 40) [*]; done) | split | dsimp only | (refine State.forEach_holds ?_ _ _ (fun _ _ _ => ?_)) | (refine State.onlyIf_holds ?_ _ _ (fun _ _ => ?_))

@[simp] theorem State.errInject_holds {B : List Host.Cell} {L : List Instr} {s : State} (hs : s.holds B L) (page : ℕ) (v : ℕ)  :
    (State.errInject s page v).1.holds B L := by
  unfold State.errInject; simp +contextual (maxDischargeDepth := 40) [*]

@[simp] theorem State.inject_holds {B : List Host.Cell} {L : List Instr} {s : State} (hs : s.holds B L) (k : ℕ) (line : Bool)  :
    (State.inject s k line).1.holds B L := by
  unfold State.inject; simp +contextual (maxDischargeDepth := 40) [*]

theorem execInjectionHoldEnd_holds {B : List Host.Cell} {L : List Instr} {s : State} (hs : s.holds B L)  :
    ∀ u, execInjectionHoldEnd s = .next u → u.holds B L := by
  intro u ht; unfold execInjectionHoldEnd at ht
  refine guarded_holds (fun s hs => ?_) hs ht
  repeat' first | (simp +contextual (maxDischargeDepth := 40) [*]; done) | split | dsimp only | (refine State.forEach_holds ?_ _ _ (fun _ _ _ => ?_)) | (refine State.onlyIf_holds ?_ _ _ (fun _ _ => ?_))

@[simp] theorem State.clearPair_holds {B : List Host.Cell} {L : List Instr} {s : State} (hs : s.holds B L)  :
    (State.clearPair s).1.holds B L := by
  unfold State.clearPair; simp +contextual (maxDischargeDepth := 40) [*]

@[simp] theorem State.enterSafe_holds {B : List Host.Cell} {L : List Instr} {s : State} (hs : s.holds B L)  :
    (State.enterSafe s).1.holds B L := by
  unfold State.enterSafe; simp +contextual (maxDischargeDepth := 40) [*]

@[simp] theorem State.clearFirst_holds {B : List Host.Cell} {L : List Instr} {s : State} (hs : s.holds B L)  :
    (State.clearFirst s).holds B L := by
  unfold State.clearFirst; simp +contextual (maxDischargeDepth := 40) [*]

@[simp] theorem State.reinit_holds {B : List Host.Cell} {L : List Instr} {s : State} (hs : s.holds B L)  :
    (State.reinit s).1.holds B L := by
  unfold State.reinit
  extract_lets s1
  have h1 : s1.holds B L := hs
  clear_value s1
  simp +contextual (maxDischargeDepth := 40) [*]

@[simp] theorem State.gutterCmd_holds {B : List Host.Cell} {L : List Instr} {s : State} (hs : s.holds B L) (v : ℕ)  :
    (State.gutterCmd s v).1.holds B L := by
  unfold State.gutterCmd; repeat' first | (simp +contextual (maxDischargeDepth := 40) [*]; done) | split | dsimp only | (refine State.forEach_holds ?_ _ _ (fun _ _ _ => ?_)) | (refine State.onlyIf_holds ?_ _ _ (fun _ _ => ?_))

@[simp] theorem State.deviceSafeExit_holds {B : List Host.Cell} {L : List Instr} {s : State} (hs : s.holds B L)  :
    (State.deviceSafeExit s).1.holds B L := by
  unfold State.deviceSafeExit; simp +contextual (maxDischargeDepth := 40) [*]

theorem execGutterStorageEcc_holds {B : List Host.Cell} {L : List Instr} {s : State} (hs : s.holds B L) (uncorrectable : Bool)  :
    ∀ u, execGutterStorageEcc uncorrectable s = .next u → u.holds B L := by
  intro u ht; unfold execGutterStorageEcc at ht
  refine guarded_holds (fun s hs => ?_) hs ht
  repeat' first | (simp +contextual (maxDischargeDepth := 40) [*]; done) | split | dsimp only | (refine State.forEach_holds ?_ _ _ (fun _ _ _ => ?_)) | (refine State.onlyIf_holds ?_ _ _ (fun _ _ => ?_))

theorem execPairSenseFault_holds {B : List Host.Cell} {L : List Instr} {s : State} (hs : s.holds B L)  :
    ∀ u, execPairSenseFault s = .next u → u.holds B L := by
  intro u ht; unfold execPairSenseFault at ht
  refine guarded_holds (fun s hs => ?_) hs ht
  repeat' first | (simp +contextual (maxDischargeDepth := 40) [*]; done) | split | dsimp only | (refine State.forEach_holds ?_ _ _ (fun _ _ _ => ?_)) | (refine State.onlyIf_holds ?_ _ _ (fun _ _ => ?_))

end Sys2Proof.Machine
end

