-- ==== Sys2Proof/Laws/FrameRidge.lean ====
section
/-! SUPPORT. The operations of Ridge leave BAR2 and the queue of waiting commands alone. -/

namespace Sys2Proof.Machine

set_option linter.unusedTactic false
set_option linter.unreachableTactic false

@[simp] theorem State.setRdg_holds {B : List Host.Cell} {L : List Instr} {s : State} (hs : s.holds B L) (p : ℕ) (x : RdgSt)  :
    (State.setRdg s p x).holds B L := by
  unfold State.setRdg; simp +contextual (maxDischargeDepth := 40) [*]

@[simp] theorem State.rdgEnable_holds {B : List Host.Cell} {L : List Instr} {s : State} (hs : s.holds B L) (p : ℕ) (on : Bool)  :
    (State.rdgEnable s p on).1.holds B L := by
  unfold State.rdgEnable; simp +contextual (maxDischargeDepth := 40) [*]

@[simp] theorem State.portCfg_holds {B : List Host.Cell} {L : List Instr} {s : State} (hs : s.holds B L) (p : ℕ) (v : ℕ)  :
    (State.portCfg s p v).1.holds B L := by
  unfold State.portCfg; repeat' first | (simp +contextual (maxDischargeDepth := 40) [*]; done) | split | dsimp only | (refine State.forEach_holds ?_ _ _ (fun _ _ _ => ?_)) | (refine State.onlyIf_holds ?_ _ _ (fun _ _ => ?_))

@[simp] theorem State.rootStart_holds {B : List Host.Cell} {L : List Instr} {s : State} (hs : s.holds B L)  :
    (State.rootStart s).holds B L := by
  unfold State.rootStart; simp +contextual (maxDischargeDepth := 40) [*]

@[simp] theorem State.nodeCfg_holds {B : List Host.Cell} {L : List Instr} {s : State} (hs : s.holds B L) (v : ℕ)  :
    (State.nodeCfg s v).1.holds B L := by
  unfold State.nodeCfg; simp +contextual (maxDischargeDepth := 40) [*]

@[simp] theorem State.onWire_holds {B : List Host.Cell} {L : List Instr} {s : State} (hs : s.holds B L) (p : ℕ) (bits : ℕ)  :
    (State.onWire s p bits).holds B L := by
  unfold State.onWire; simp +contextual (maxDischargeDepth := 40) [*]

@[simp] theorem State.sendCell_holds {B : List Host.Cell} {L : List Instr} {s : State} (hs : s.holds B L) (p : ℕ)  :
    (State.sendCell s p).holds B L := by
  unfold State.sendCell; repeat' first | (simp +contextual (maxDischargeDepth := 40) [*]; done) | split | dsimp only | (refine State.forEach_holds ?_ _ _ (fun _ _ _ => ?_)) | (refine State.onlyIf_holds ?_ _ _ (fun _ _ => ?_))

theorem execRidgeSlotTx_holds {B : List Host.Cell} {L : List Instr} {s : State} (hs : s.holds B L) (p : ℕ)  :
    ∀ u, execRidgeSlotTx p s = .next u → u.holds B L := by
  intro u ht; unfold execRidgeSlotTx at ht
  refine guarded_holds (fun s hs => ?_) hs ht
  repeat' first | (simp +contextual (maxDischargeDepth := 40) [*]; done) | split | dsimp only | (refine State.forEach_holds ?_ _ _ (fun _ _ _ => ?_)) | (refine State.onlyIf_holds ?_ _ _ (fun _ _ => ?_))

theorem execRidgeBlockLock_holds {B : List Host.Cell} {L : List Instr} {s : State} (hs : s.holds B L) (p : ℕ)  :
    ∀ u, execRidgeBlockLock p s = .next u → u.holds B L := by
  intro u ht; unfold execRidgeBlockLock at ht
  refine guarded_holds (fun s hs => ?_) hs ht
  repeat' first | (simp +contextual (maxDischargeDepth := 40) [*]; done) | split | dsimp only | (refine State.forEach_holds ?_ _ _ (fun _ _ _ => ?_)) | (refine State.onlyIf_holds ?_ _ _ (fun _ _ => ?_))

@[simp] theorem State.promote_holds {B : List Host.Cell} {L : List Instr} {s : State} (hs : s.holds B L) (p : ℕ)  :
    (State.promote s p).holds B L := by
  unfold State.promote; repeat' first | (simp +contextual (maxDischargeDepth := 40) [*]; done) | split | dsimp only | (refine State.forEach_holds ?_ _ _ (fun _ _ _ => ?_)) | (refine State.onlyIf_holds ?_ _ _ (fun _ _ => ?_))

@[simp] theorem State.linkLost_holds {B : List Host.Cell} {L : List Instr} {s : State} (hs : s.holds B L) (p : ℕ)  :
    (State.linkLost s p).holds B L := by
  unfold State.linkLost; simp +contextual (maxDischargeDepth := 40) [*]

theorem execRidgeLinkLost_holds {B : List Host.Cell} {L : List Instr} {s : State} (hs : s.holds B L) (p : ℕ)  :
    ∀ u, execRidgeLinkLost p s = .next u → u.holds B L := by
  intro u ht; unfold execRidgeLinkLost at ht
  refine guarded_holds (fun s hs => ?_) hs ht
  repeat' first | (simp +contextual (maxDischargeDepth := 40) [*]; done) | split | dsimp only | (refine State.forEach_holds ?_ _ _ (fun _ _ _ => ?_)) | (refine State.onlyIf_holds ?_ _ _ (fun _ _ => ?_))

@[simp] theorem State.cellPassed_holds {B : List Host.Cell} {L : List Instr} {s : State} (hs : s.holds B L) (p : ℕ)  :
    (State.cellPassed s p).holds B L := by
  unfold State.cellPassed; simp +contextual (maxDischargeDepth := 40) [*]

@[simp] theorem State.cellFailed_holds {B : List Host.Cell} {L : List Instr} {s : State} (hs : s.holds B L) (p : ℕ) (crc : Bool)  :
    (State.cellFailed s p crc).holds B L := by
  unfold State.cellFailed; simp +contextual (maxDischargeDepth := 40) [*]

theorem execCellDrop_holds {B : List Host.Cell} {L : List Instr} {s : State} (hs : s.holds B L) (p : ℕ) (crc : Bool)  :
    ∀ u, execCellDrop p crc s = .next u → u.holds B L := by
  intro u ht; unfold execCellDrop at ht
  refine guarded_holds (fun s hs => ?_) hs ht
  repeat' first | (simp +contextual (maxDischargeDepth := 40) [*]; done) | split | dsimp only | (refine State.forEach_holds ?_ _ _ (fun _ _ _ => ?_)) | (refine State.onlyIf_holds ?_ _ _ (fun _ _ => ?_))

theorem execFillCellRx_holds {B : List Host.Cell} {L : List Instr} {s : State} (hs : s.holds B L) (p : ℕ)  :
    ∀ u, execFillCellRx p s = .next u → u.holds B L := by
  intro u ht; unfold execFillCellRx at ht
  refine guarded_holds (fun s hs => ?_) hs ht
  repeat' first | (simp +contextual (maxDischargeDepth := 40) [*]; done) | split | dsimp only | (refine State.forEach_holds ?_ _ _ (fun _ _ _ => ?_)) | (refine State.onlyIf_holds ?_ _ _ (fun _ _ => ?_))

@[simp] theorem State.receive_holds {B : List Host.Cell} {L : List Instr} {s : State} (hs : s.holds B L) (p : ℕ) (domain : ℕ) (roleOk : Bool) (f : State → State) (hf : ∀ s, s.holds B L → (f s).holds B L) :
    (State.receive s p domain roleOk f).holds B L := by
  unfold State.receive; simp +contextual (maxDischargeDepth := 40) [*]

@[simp] theorem State.followUtc_holds {B : List Host.Cell} {L : List Instr} {s : State} (hs : s.holds B L) (p : ℕ) (c : TimeCell)  :
    (State.followUtc s p c).holds B L := by
  unfold State.followUtc; simp +contextual (maxDischargeDepth := 40) [*]

@[simp] theorem State.utcSlot_holds {B : List Host.Cell} {L : List Instr} {s : State} (hs : s.holds B L)  :
    (State.utcSlot s).holds B L := by
  unfold State.utcSlot; repeat' first | (simp +contextual (maxDischargeDepth := 40) [*]; done) | split | dsimp only | (refine State.forEach_holds ?_ _ _ (fun _ _ _ => ?_)) | (refine State.onlyIf_holds ?_ _ _ (fun _ _ => ?_))

@[simp] theorem State.timeRx_holds {B : List Host.Cell} {L : List Instr} {s : State} (hs : s.holds B L) (p : ℕ) (c : TimeCell)  :
    (State.timeRx s p c).holds B L := by
  unfold State.timeRx; simp +contextual (maxDischargeDepth := 40) [*]

theorem execTimeCellRx_holds {B : List Host.Cell} {L : List Instr} {s : State} (hs : s.holds B L) (p : ℕ) (c : TimeCell)  :
    ∀ u, execTimeCellRx p c s = .next u → u.holds B L := by
  intro u ht; unfold execTimeCellRx at ht
  refine guarded_holds (fun s hs => ?_) hs ht
  repeat' first | (simp +contextual (maxDischargeDepth := 40) [*]; done) | split | dsimp only | (refine State.forEach_holds ?_ _ _ (fun _ _ _ => ?_)) | (refine State.onlyIf_holds ?_ _ _ (fun _ _ => ?_))

@[simp] theorem State.rdgObs_holds {B : List Host.Cell} {L : List Instr} {s : State} (hs : s.holds B L) (p : ℕ)  :
    (State.rdgObs s p).holds B L := by
  unfold State.rdgObs; repeat' first | (simp +contextual (maxDischargeDepth := 40) [*]; done) | split | dsimp only | (refine State.forEach_holds ?_ _ _ (fun _ _ _ => ?_)) | (refine State.onlyIf_holds ?_ _ _ (fun _ _ => ?_))

theorem execRidgeObsInterval_holds {B : List Host.Cell} {L : List Instr} {s : State} (hs : s.holds B L) (p : ℕ)  :
    ∀ u, execRidgeObsInterval p s = .next u → u.holds B L := by
  intro u ht; unfold execRidgeObsInterval at ht
  refine guarded_holds (fun s hs => ?_) hs ht
  repeat' first | (simp +contextual (maxDischargeDepth := 40) [*]; done) | split | dsimp only | (refine State.forEach_holds ?_ _ _ (fun _ _ _ => ?_)) | (refine State.onlyIf_holds ?_ _ _ (fun _ _ => ?_))

@[simp] theorem State.queueTrig_holds {B : List Host.Cell} {L : List Instr} {s : State} (hs : s.holds B L) (p : ℕ) (c : TrigCell)  :
    (State.queueTrig s p c).holds B L := by
  unfold State.queueTrig; simp +contextual (maxDischargeDepth := 40) [*]

@[simp] theorem State.queueMgmt_holds {B : List Host.Cell} {L : List Instr} {s : State} (hs : s.holds B L) (p : ℕ) (c : MgmtCell)  :
    (State.queueMgmt s p c).holds B L := by
  unfold State.queueMgmt; simp +contextual (maxDischargeDepth := 40) [*]

@[simp] theorem State.ridgeLoop_holds {B : List Host.Cell} {L : List Instr} {s : State} (hs : s.holds B L) (p : ℕ)  :
    (State.ridgeLoop s p).holds B L := by
  unfold State.ridgeLoop; simp +contextual (maxDischargeDepth := 40) [*]

@[simp] theorem State.remember_holds {B : List Host.Cell} {L : List Instr} {s : State} (hs : s.holds B L) (src : ℕ) (seq : ℕ)  :
    (State.remember s src seq).holds B L := by
  unfold State.remember; simp +contextual (maxDischargeDepth := 40) [*]

@[simp] theorem State.deliverTrig_holds {B : List Host.Cell} {L : List Instr} {s : State} (hs : s.holds B L) (p : ℕ) (c : TrigCell)  :
    (State.deliverTrig s p c).holds B L := by
  unfold State.deliverTrig; simp +contextual (maxDischargeDepth := 40) [*]

@[simp] theorem State.trigRx_holds {B : List Host.Cell} {L : List Instr} {s : State} (hs : s.holds B L) (p : ℕ) (c : TrigCell)  :
    (State.trigRx s p c).holds B L := by
  unfold State.trigRx; simp +contextual (maxDischargeDepth := 40) [*]

theorem execTrigCellRx_holds {B : List Host.Cell} {L : List Instr} {s : State} (hs : s.holds B L) (p : ℕ) (c : TrigCell)  :
    ∀ u, execTrigCellRx p c s = .next u → u.holds B L := by
  intro u ht; unfold execTrigCellRx at ht
  refine guarded_holds (fun s hs => ?_) hs ht
  repeat' first | (simp +contextual (maxDischargeDepth := 40) [*]; done) | split | dsimp only | (refine State.forEach_holds ?_ _ _ (fun _ _ _ => ?_)) | (refine State.onlyIf_holds ?_ _ _ (fun _ _ => ?_))

@[simp] theorem State.issueTrig_holds {B : List Host.Cell} {L : List Instr} {s : State} (hs : s.holds B L)  :
    (State.issueTrig s).1.holds B L := by
  unfold State.issueTrig; simp +contextual (maxDischargeDepth := 40) [*]

@[simp] theorem State.trigCmd_holds {B : List Host.Cell} {L : List Instr} {s : State} (hs : s.holds B L) (v : ℕ)  :
    (State.trigCmd s v).1.holds B L := by
  unfold State.trigCmd; simp +contextual (maxDischargeDepth := 40) [*]

@[simp] theorem State.mgmtCmd_holds {B : List Host.Cell} {L : List Instr} {s : State} (hs : s.holds B L) (v : ℕ)  :
    (State.mgmtCmd s v).1.holds B L := by
  unfold State.mgmtCmd; repeat' first | (simp +contextual (maxDischargeDepth := 40) [*]; done) | split | dsimp only | (refine State.forEach_holds ?_ _ _ (fun _ _ _ => ?_)) | (refine State.onlyIf_holds ?_ _ _ (fun _ _ => ?_))

@[simp] theorem State.authFail_holds {B : List Host.Cell} {L : List Instr} {s : State} (hs : s.holds B L) (p : ℕ) (bad : Bool)  :
    (State.authFail s p bad).holds B L := by
  unfold State.authFail; simp +contextual (maxDischargeDepth := 40) [*]

@[simp] theorem State.forwardMgmt_holds {B : List Host.Cell} {L : List Instr} {s : State} (hs : s.holds B L) (p : ℕ) (c : MgmtCell)  :
    (State.forwardMgmt s p c).holds B L := by
  unfold State.forwardMgmt; simp +contextual (maxDischargeDepth := 40) [*]

@[simp] theorem State.mgmtAnswer_holds {B : List Host.Cell} {L : List Instr} {s : State} (hs : s.holds B L) (p : ℕ) (c : MgmtCell)  :
    (State.mgmtAnswer s p c).holds B L := by
  unfold State.mgmtAnswer; repeat' first | (simp +contextual (maxDischargeDepth := 40) [*]; done) | split | dsimp only | (refine State.forEach_holds ?_ _ _ (fun _ _ _ => ?_)) | (refine State.onlyIf_holds ?_ _ _ (fun _ _ => ?_))

theorem execMgmtResponseRx_holds {B : List Host.Cell} {L : List Instr} {s : State} (hs : s.holds B L) (p : ℕ) (c : MgmtCell)  :
    ∀ u, execMgmtResponseRx p c s = .next u → u.holds B L := by
  intro u ht; unfold execMgmtResponseRx at ht
  refine guarded_holds (fun s hs => ?_) hs ht
  repeat' first | (simp +contextual (maxDischargeDepth := 40) [*]; done) | split | dsimp only | (refine State.forEach_holds ?_ _ _ (fun _ _ _ => ?_)) | (refine State.onlyIf_holds ?_ _ _ (fun _ _ => ?_))

theorem execMgmtTimeout_holds {B : List Host.Cell} {L : List Instr} {s : State} (hs : s.holds B L)  :
    ∀ u, execMgmtTimeout s = .next u → u.holds B L := by
  intro u ht; unfold execMgmtTimeout at ht
  refine guarded_holds (fun s hs => ?_) hs ht
  repeat' first | (simp +contextual (maxDischargeDepth := 40) [*]; done) | split | dsimp only | (refine State.forEach_holds ?_ _ _ (fun _ _ _ => ?_)) | (refine State.onlyIf_holds ?_ _ _ (fun _ _ => ?_))

end Sys2Proof.Machine
end

