-- ==== Sys2Proof/Laws/FrameFlash.lean ====
section
/-! SUPPORT. The operations of Flash leave BAR2 and the queue of waiting commands alone. -/

namespace Sys2Proof.Machine

set_option linter.unusedTactic false
set_option linter.unreachableTactic false

@[simp] theorem State.stageBytes_holds {B : List Host.Cell} {L : List Instr} {s : State} (hs : s.holds B L) (a : ℕ) (bytes : List ℕ)  :
    (State.stageBytes s a bytes).holds B L := by
  unfold State.stageBytes; simp +contextual (maxDischargeDepth := 40) [*]

@[simp] theorem State.setImage_holds {B : List Host.Cell} {L : List Instr} {s : State} (hs : s.holds B L) (c : ℕ) (slot : ℕ) (h : Option ImageHdr)  :
    (State.setImage s c slot h).holds B L := by
  unfold State.setImage; simp +contextual (maxDischargeDepth := 40) [*]

@[simp] theorem State.setActive_holds {B : List Host.Cell} {L : List Instr} {s : State} (hs : s.holds B L) (c : ℕ) (slot : ℕ)  :
    (State.setActive s c slot).holds B L := by
  unfold State.setActive; simp +contextual (maxDischargeDepth := 40) [*]

@[simp] theorem State.setOther_holds {B : List Host.Cell} {L : List Instr} {s : State} (hs : s.holds B L) (c : ℕ) (ok : Bool)  :
    (State.setOther s c ok).holds B L := by
  unfold State.setOther; simp +contextual (maxDischargeDepth := 40) [*]

@[simp] theorem State.showImages_holds {B : List Host.Cell} {L : List Instr} {s : State} (hs : s.holds B L)  :
    (State.showImages s).holds B L := by
  unfold State.showImages; simp +contextual (maxDischargeDepth := 40) [*]

@[simp] theorem State.showUnmet_holds {B : List Host.Cell} {L : List Instr} {s : State} (hs : s.holds B L) (u_ : Unmet)  :
    (State.showUnmet s u_).holds B L := by
  unfold State.showUnmet; simp +contextual (maxDischargeDepth := 40) [*]

@[simp] theorem State.flashLog_holds {B : List Host.Cell} {L : List Instr} {s : State} (hs : s.holds B L) (code : ℕ) (c : ℕ) (version : ℕ) (data : ℕ)  :
    (State.flashLog s code c version data).holds B L := by
  unfold State.flashLog; simp +contextual (maxDischargeDepth := 40) [*]

@[simp] theorem State.emptyStaging_holds {B : List Host.Cell} {L : List Instr} {s : State} (hs : s.holds B L)  :
    (State.emptyStaging s).holds B L := by
  unfold State.emptyStaging; simp +contextual (maxDischargeDepth := 40) [*]

@[simp] theorem State.writeBoot_holds {B : List Host.Cell} {L : List Instr} {s : State} (hs : s.holds B L)  :
    (State.writeBoot s).holds B L := by
  unfold State.writeBoot; simp +contextual (maxDischargeDepth := 40) [*]

@[simp] theorem State.olderBoot_holds {B : List Host.Cell} {L : List Instr} {s : State} (hs : s.holds B L)  :
    (State.olderBoot s).holds B L := by
  unfold State.olderBoot; simp +contextual (maxDischargeDepth := 40) [*]

@[simp] theorem State.outcome_holds {B : List Host.Cell} {L : List Instr} {s : State} (hs : s.holds B L) (c : ℕ) (reason : ℕ)  :
    (State.outcome s c reason).holds B L := by
  unfold State.outcome; simp +contextual (maxDischargeDepth := 40) [*]

@[simp] theorem State.raiseCounter_holds {B : List Host.Cell} {L : List Instr} {s : State} (hs : s.holds B L) (h : ImageHdr)  :
    (State.raiseCounter s h).holds B L := by
  unfold State.raiseCounter; repeat' first | (simp +contextual (maxDischargeDepth := 40) [*]; done) | split | dsimp only | (refine State.forEach_holds ?_ _ _ (fun _ _ _ => ?_)) | (refine State.onlyIf_holds ?_ _ _ (fun _ _ => ?_))

@[simp] theorem State.useFactory_holds {B : List Host.Cell} {L : List Instr} {s : State} (hs : s.holds B L) (words : List (ℕ × ℕ × ℕ)) (terms : List (ℕ × ℕ × ℕ)) (forms : List FormTerm)  :
    (State.useFactory s words terms forms).holds B L := by
  unfold State.useFactory; simp +contextual (maxDischargeDepth := 40) [*]

@[simp] theorem State.loadFactory_holds {B : List Host.Cell} {L : List Instr} {s : State} (hs : s.holds B L) (terms : List (ℕ × ℕ × ℕ)) (forms : List FormTerm)  :
    (State.loadFactory s terms forms).2.holds B L := by
  unfold State.loadFactory; simp +contextual (maxDischargeDepth := 40) [*]

@[simp] theorem State.putCopy_holds {B : List Host.Cell} {L : List Instr} {s : State} (hs : s.holds B L) (one : Bool) (c : SettingsCopy)  :
    (State.putCopy s one c).holds B L := by
  unfold State.putCopy; simp +contextual (maxDischargeDepth := 40) [*]

@[simp] theorem State.writeCopy_holds {B : List Host.Cell} {L : List Instr} {s : State} (hs : s.holds B L) (one : Bool) (schema : ℕ) (k : Settings)  :
    (State.writeCopy s one schema k).holds B L := by
  unfold State.writeCopy; simp +contextual (maxDischargeDepth := 40) [*]

@[simp] theorem State.writeStore_holds {B : List Host.Cell} {L : List Instr} {s : State} (hs : s.holds B L)  :
    (State.writeStore s).holds B L := by
  unfold State.writeStore; repeat' first | (simp +contextual (maxDischargeDepth := 40) [*]; done) | split | dsimp only | (refine State.forEach_holds ?_ _ _ (fun _ _ _ => ?_)) | (refine State.onlyIf_holds ?_ _ _ (fun _ _ => ?_))

@[simp] theorem State.tearStore_holds {B : List Host.Cell} {L : List Instr} {s : State} (hs : s.holds B L)  :
    (State.tearStore s).holds B L := by
  unfold State.tearStore; simp +contextual (maxDischargeDepth := 40) [*]

@[simp] theorem State.showSchema_holds {B : List Host.Cell} {L : List Instr} {s : State} (hs : s.holds B L) (schema : ℕ)  :
    (State.showSchema s schema).holds B L := by
  unfold State.showSchema; simp +contextual (maxDischargeDepth := 40) [*]

@[simp] theorem State.showKeys_holds {B : List Host.Cell} {L : List Instr} {s : State} (hs : s.holds B L)  :
    (State.showKeys s).holds B L := by
  unfold State.showKeys; simp +contextual (maxDischargeDepth := 40) [*]

@[simp] theorem State.showSettings_holds {B : List Host.Cell} {L : List Instr} {s : State} (hs : s.holds B L)  :
    (State.showSettings s).holds B L := by
  unfold State.showSettings; simp +contextual (maxDischargeDepth := 40) [*]

@[simp] theorem State.mainReads_holds {B : List Host.Cell} {L : List Instr} {s : State} (hs : s.holds B L) (h : ImageHdr) (migrates : Bool)  :
    (State.mainReads s h migrates).holds B L := by
  unfold State.mainReads; repeat' first | (simp +contextual (maxDischargeDepth := 40) [*]; done) | split | dsimp only | (refine State.forEach_holds ?_ _ _ (fun _ _ _ => ?_)) | (refine State.onlyIf_holds ?_ _ _ (fun _ _ => ?_))

@[simp] theorem State.mainHasStore_holds {B : List Host.Cell} {L : List Instr} {s : State} (hs : s.holds B L) (h : ImageHdr) (migrates : Bool)  :
    (State.mainHasStore s h migrates).holds B L := by
  unfold State.mainHasStore; simp +contextual (maxDischargeDepth := 40) [*]

@[simp] theorem State.restoreSettings_holds {B : List Host.Cell} {L : List Instr} {s : State} (hs : s.holds B L) (migrates : Bool)  :
    (State.restoreSettings s migrates).holds B L := by
  unfold State.restoreSettings; repeat' first | (simp +contextual (maxDischargeDepth := 40) [*]; done) | split | dsimp only

@[simp] theorem State.beginRestart_holds {B : List Host.Cell} {L : List Instr} {s : State} (hs : s.holds B L) (why : RestartWhy)  :
    (State.beginRestart s why).holds B L := by
  unfold State.beginRestart; simp +contextual (maxDischargeDepth := 40) [*]

@[simp] theorem State.handoverLost_holds {B : List Host.Cell} {L : List Instr} {s : State} (hs : s.holds B L)  :
    (State.handoverLost s).holds B L := by
  unfold State.handoverLost; simp +contextual (maxDischargeDepth := 40) [*]

@[simp] theorem State.queueSwaps_holds {B : List Host.Cell} {L : List Instr} {s : State} (hs : s.holds B L) (us : List BankUnit)  :
    (State.queueSwaps s us).holds B L := by
  unfold State.queueSwaps; simp +contextual (maxDischargeDepth := 40) [*]

@[simp] theorem State.trialOver_holds {B : List Host.Cell} {L : List Instr} {s : State} (hs : s.holds B L)  :
    (State.trialOver s).holds B L := by
  unfold State.trialOver; simp +contextual (maxDischargeDepth := 40) [*]

@[simp] theorem State.confirmTrial_holds {B : List Host.Cell} {L : List Instr} {s : State} (hs : s.holds B L) (t : Trial)  :
    (State.confirmTrial s t).holds B L := by
  unfold State.confirmTrial; repeat' first | (simp +contextual (maxDischargeDepth := 40) [*]; done) | split | dsimp only | (refine State.forEach_holds ?_ _ _ (fun _ _ _ => ?_)) | (refine State.onlyIf_holds ?_ _ _ (fun _ _ => ?_))

@[simp] theorem State.beginFallback_holds {B : List Host.Cell} {L : List Instr} {s : State} (hs : s.holds B L) (reason : ℕ)  :
    (State.beginFallback s reason).holds B L := by
  unfold State.beginFallback; repeat' first | (simp +contextual (maxDischargeDepth := 40) [*]; done) | split | dsimp only | (refine State.forEach_holds ?_ _ _ (fun _ _ _ => ?_)) | (refine State.onlyIf_holds ?_ _ _ (fun _ _ => ?_))

@[simp] theorem State.endFallback_holds {B : List Host.Cell} {L : List Instr} {s : State} (hs : s.holds B L) (t : Trial) (reason : ℕ)  :
    (State.endFallback s t reason).holds B L := by
  unfold State.endFallback; simp +contextual (maxDischargeDepth := 40) [*]

theorem State.store_holds {B : List Host.Cell} {L : List Instr} {s : State} (hs : s.holds B L) (f : Settings → Settings) : ∀ u, s.store f = some u → u.holds B L := by
  intro u h
  unfold State.store at h
  split at h
  · cases h
  · cases h; simp +contextual (maxDischargeDepth := 40) [*]

theorem State.store_getD_holds {B : List Host.Cell} {L : List Instr} {s : State} (hs : s.holds B L) (f : Settings → Settings) : ((s.store f).getD s).holds B L := by
  cases h : s.store f with
  | none => exact hs
  | some u => exact State.store_holds hs f u h

@[simp] theorem State.startMain_holds {B : List Host.Cell} {L : List Instr} {s : State} (hs : s.holds B L) (h : ImageHdr)  :
    (State.startMain s h).holds B L := by
  unfold State.startMain; simp +contextual (maxDischargeDepth := 40) [*]

@[simp] theorem State.beginCopy_holds {B : List Host.Cell} {L : List Instr} {s : State} (hs : s.holds B L)  :
    (State.beginCopy s).holds B L := by
  unfold State.beginCopy; simp +contextual (maxDischargeDepth := 40) [*]

@[simp] theorem State.loaderVerifies_holds {B : List Host.Cell} {L : List Instr} {s : State} (hs : s.holds B L) (atReset : Bool)  :
    (State.loaderVerifies s atReset).holds B L := by
  unfold State.loaderVerifies; simp +contextual (maxDischargeDepth := 40) [*]

@[simp] theorem State.copyVerified_holds {B : List Host.Cell} {L : List Instr} {s : State} (hs : s.holds B L) (c : ℕ)  :
    (State.copyVerified s c).holds B L := by
  unfold State.copyVerified; simp +contextual (maxDischargeDepth := 40) [*]

@[simp] theorem State.beginTrial_holds {B : List Host.Cell} {L : List Instr} {s : State} (hs : s.holds B L)  :
    (State.beginTrial s).holds B L := by
  unfold State.beginTrial
  extract_lets h c f s1 t src s2 s3 s4
  have hf : f.2.holds B L := by simp only [f]; split <;> simp +contextual (maxDischargeDepth := 40) [*]
  clear_value t f
  have h_s1 : s1.holds B L := by simp only [s1]; repeat' first | (simp +contextual (maxDischargeDepth := 40) [*]; done) | split | dsimp only | (refine State.forEach_holds ?_ _ _ (fun _ _ _ => ?_)) | (refine State.onlyIf_holds ?_ _ _ (fun _ _ => ?_))
  clear_value s1
  have h_s2 : s2.holds B L := by simp only [s2]; repeat' first | (simp +contextual (maxDischargeDepth := 40) [*]; done) | split | dsimp only | (refine State.forEach_holds ?_ _ _ (fun _ _ _ => ?_)) | (refine State.onlyIf_holds ?_ _ _ (fun _ _ => ?_))
  clear_value s2
  have h_s3 : s3.holds B L := by simp only [s3]; repeat' first | (simp +contextual (maxDischargeDepth := 40) [*]; done) | split | dsimp only | (refine State.forEach_holds ?_ _ _ (fun _ _ _ => ?_)) | (refine State.onlyIf_holds ?_ _ _ (fun _ _ => ?_))
  clear_value s3
  have h_s4 : s4.holds B L := by simp only [s4]; repeat' first | (simp +contextual (maxDischargeDepth := 40) [*]; done) | split | dsimp only | (refine State.forEach_holds ?_ _ _ (fun _ _ _ => ?_)) | (refine State.onlyIf_holds ?_ _ _ (fun _ _ => ?_))
  clear_value s4
  repeat' first | (simp +contextual (maxDischargeDepth := 40) [*]; done) | split | dsimp only | (refine State.forEach_holds ?_ _ _ (fun _ _ _ => ?_)) | (refine State.onlyIf_holds ?_ _ _ (fun _ _ => ?_))

@[simp] theorem State.verifyFailed_holds {B : List Host.Cell} {L : List Instr} {s : State} (hs : s.holds B L)  :
    (State.verifyFailed s).holds B L := by
  unfold State.verifyFailed; simp +contextual (maxDischargeDepth := 40) [*]

@[simp] theorem State.startCandidate_holds {B : List Host.Cell} {L : List Instr} {s : State} (hs : s.holds B L) (atReset : Bool)  :
    (State.startCandidate s atReset).holds B L := by
  unfold State.startCandidate; simp +contextual (maxDischargeDepth := 40) [*]

@[simp] theorem State.restartOnTrial_holds {B : List Host.Cell} {L : List Instr} {s : State} (hs : s.holds B L) (why : RestartWhy)  :
    (State.restartOnTrial s why).holds B L := by
  unfold State.restartOnTrial; simp +contextual (maxDischargeDepth := 40) [*]

@[simp] theorem State.trialBoot_holds {B : List Host.Cell} {L : List Instr} {s : State} (hs : s.holds B L)  :
    (State.trialBoot s).holds B L := by
  unfold State.trialBoot; repeat' first | (simp +contextual (maxDischargeDepth := 40) [*]; done) | split | dsimp only | (refine State.forEach_holds ?_ _ _ (fun _ _ _ => ?_)) | (refine State.onlyIf_holds ?_ _ _ (fun _ _ => ?_))

@[simp] theorem State.mainStarted_holds {B : List Host.Cell} {L : List Instr} {s : State} (hs : s.holds B L) (byLoader : Bool)  :
    (State.mainStarted s byLoader).holds B L := by
  unfold State.mainStarted; simp +contextual (maxDischargeDepth := 40) [*]

@[simp] theorem State.restartDone_holds {B : List Host.Cell} {L : List Instr} {s : State} (hs : s.holds B L)  :
    (State.restartDone s).holds B L := by
  unfold State.restartDone; repeat' first | (simp +contextual (maxDischargeDepth := 40) [*]; done) | split | dsimp only | (refine State.forEach_holds ?_ _ _ (fun _ _ _ => ?_)) | (refine State.onlyIf_holds ?_ _ _ (fun _ _ => ?_))

theorem execMgmtRestartDone_holds {B : List Host.Cell} {L : List Instr} {s : State} (hs : s.holds B L)  :
    ∀ u, execMgmtRestartDone s = .next u → u.holds B L := by
  intro u ht; unfold execMgmtRestartDone at ht
  refine guarded_holds (fun s hs => ?_) hs ht
  repeat' first | (simp +contextual (maxDischargeDepth := 40) [*]; done) | split | dsimp only | (refine State.forEach_holds ?_ _ _ (fun _ _ _ => ?_)) | (refine State.onlyIf_holds ?_ _ _ (fun _ _ => ?_))

@[simp] theorem State.flashSlot_holds {B : List Host.Cell} {L : List Instr} {s : State} (hs : s.holds B L)  :
    (State.flashSlot s).holds B L := by
  unfold State.flashSlot; repeat' first | (simp +contextual (maxDischargeDepth := 40) [*]; done) | split | dsimp only | (refine State.forEach_holds ?_ _ _ (fun _ _ _ => ?_)) | (refine State.onlyIf_holds ?_ _ _ (fun _ _ => ?_))

theorem execRestartTimeout_holds {B : List Host.Cell} {L : List Instr} {s : State} (hs : s.holds B L)  :
    ∀ u, execRestartTimeout s = .next u → u.holds B L := by
  intro u ht; unfold execRestartTimeout at ht
  refine guarded_holds (fun s hs => ?_) hs ht
  repeat' first | (simp +contextual (maxDischargeDepth := 40) [*]; done) | split | dsimp only | (refine State.forEach_holds ?_ _ _ (fun _ _ _ => ?_)) | (refine State.onlyIf_holds ?_ _ _ (fun _ _ => ?_))

theorem execMgmtWatchdogMiss_holds {B : List Host.Cell} {L : List Instr} {s : State} (hs : s.holds B L)  :
    ∀ u, execMgmtWatchdogMiss s = .next u → u.holds B L := by
  intro u ht; unfold execMgmtWatchdogMiss at ht
  refine guarded_holds (fun s hs => ?_) hs ht
  repeat' first | (simp +contextual (maxDischargeDepth := 40) [*]; done) | split | dsimp only | (refine State.forEach_holds ?_ _ _ (fun _ _ _ => ?_)) | (refine State.onlyIf_holds ?_ _ _ (fun _ _ => ?_))

@[simp] theorem State.copyFails_holds {B : List Host.Cell} {L : List Instr} {s : State} (hs : s.holds B L)  :
    (State.copyFails s).holds B L := by
  unfold State.copyFails; simp +contextual (maxDischargeDepth := 40) [*]

theorem execCopyBlockDone_holds {B : List Host.Cell} {L : List Instr} {s : State} (hs : s.holds B L) (ok : Bool)  :
    ∀ u, execCopyBlockDone ok s = .next u → u.holds B L := by
  intro u ht; unfold execCopyBlockDone at ht
  refine guarded_holds (fun s hs => ?_) hs ht
  repeat' first | (simp +contextual (maxDischargeDepth := 40) [*]; done) | split | dsimp only | (refine State.forEach_holds ?_ _ _ (fun _ _ _ => ?_)) | (refine State.onlyIf_holds ?_ _ _ (fun _ _ => ?_))

@[simp] theorem State.copyEnds_holds {B : List Host.Cell} {L : List Instr} {s : State} (hs : s.holds B L) (c : ℕ)  :
    (State.copyEnds s c).holds B L := by
  unfold State.copyEnds; simp +contextual (maxDischargeDepth := 40) [*]

theorem execCopyDone_holds {B : List Host.Cell} {L : List Instr} {s : State} (hs : s.holds B L) (ok : Bool)  :
    ∀ u, execCopyDone ok s = .next u → u.holds B L := by
  intro u ht; unfold execCopyDone at ht
  refine guarded_holds (fun s hs => ?_) hs ht
  repeat' first | (simp +contextual (maxDischargeDepth := 40) [*]; done) | split | dsimp only | (refine State.forEach_holds ?_ _ _ (fun _ _ _ => ?_)) | (refine State.onlyIf_holds ?_ _ _ (fun _ _ => ?_))

@[simp] theorem State.bankSwap_holds {B : List Host.Cell} {L : List Instr} {s : State} (hs : s.holds B L) (u_ : BankUnit)  :
    (State.bankSwap s u_).holds B L := by
  unfold State.bankSwap; simp +contextual (maxDischargeDepth := 40) [*]

theorem execMicrocodeBankSwap_holds {B : List Host.Cell} {L : List Instr} {s : State} (hs : s.holds B L) (u_ : BankUnit)  :
    ∀ u, execMicrocodeBankSwap u_ s = .next u → u.holds B L := by
  intro u ht; unfold execMicrocodeBankSwap at ht
  refine guarded_holds (fun s hs => ?_) hs ht
  repeat' first | (simp +contextual (maxDischargeDepth := 40) [*]; done) | split | dsimp only | (refine State.forEach_holds ?_ _ _ (fun _ _ _ => ?_)) | (refine State.onlyIf_holds ?_ _ _ (fun _ _ => ?_))

theorem execTrialHealthy_holds {B : List Host.Cell} {L : List Instr} {s : State} (hs : s.holds B L)  :
    ∀ u, execTrialHealthy s = .next u → u.holds B L := by
  intro u ht; unfold execTrialHealthy at ht
  refine guarded_holds (fun s hs => ?_) hs ht
  repeat' first | (simp +contextual (maxDischargeDepth := 40) [*]; done) | split | dsimp only | (refine State.forEach_holds ?_ _ _ (fun _ _ _ => ?_)) | (refine State.onlyIf_holds ?_ _ _ (fun _ _ => ?_))

theorem execTrialWindowExpiry_holds {B : List Host.Cell} {L : List Instr} {s : State} (hs : s.holds B L)  :
    ∀ u, execTrialWindowExpiry s = .next u → u.holds B L := by
  intro u ht; unfold execTrialWindowExpiry at ht
  refine guarded_holds (fun s hs => ?_) hs ht
  repeat' first | (simp +contextual (maxDischargeDepth := 40) [*]; done) | split | dsimp only | (refine State.forEach_holds ?_ _ _ (fun _ _ _ => ?_)) | (refine State.onlyIf_holds ?_ _ _ (fun _ _ => ?_))

@[simp] theorem State.flBegin_holds {B : List Host.Cell} {L : List Instr} {s : State} (hs : s.holds B L)  :
    (State.flBegin s).1.holds B L := by
  unfold State.flBegin
  extract_lets c slot start s1 s2 src srcF
  have hst : ∀ s : State, s.holds B L → (start s).holds B L := by
    intro s hs
    exact State.put_holds (State.put_holds (by simp +contextual (maxDischargeDepth := 40) [*]) _ _ _) _ _ _
  clear_value start
  have h1 : s1.holds B L := State.setImage_holds hs _ _ _
  clear_value s1
  have h2 : s2.holds B L := by simp only [s2]; simp +contextual (maxDischargeDepth := 40) [*]
  clear_value s2
  have h3 : src.holds B L := hst _ (State.showImages_holds h2)
  clear_value src
  repeat' first | (simp +contextual (maxDischargeDepth := 40) [*]; done) | split

@[simp] theorem State.flWrite_holds {B : List Host.Cell} {L : List Instr} {s : State} (hs : s.holds B L) (bytes : List ℕ) (dma : Bool)  :
    (State.flWrite s bytes dma).1.holds B L := by
  unfold State.flWrite; simp +contextual (maxDischargeDepth := 40) [*]

@[simp] theorem State.flWriteWindow_holds {B : List Host.Cell} {L : List Instr} {s : State} (hs : s.holds B L)  :
    (State.flWriteWindow s).1.holds B L := by
  unfold State.flWriteWindow; simp +contextual (maxDischargeDepth := 40) [*]

@[simp] theorem State.flDmaWrite_holds {B : List Host.Cell} {L : List Instr} {s : State} (hs : s.holds B L) (bytes : List ℕ)  :
    (State.flDmaWrite s bytes).1.holds B L := by
  unfold State.flDmaWrite; simp +contextual (maxDischargeDepth := 40) [*]

@[simp] theorem State.flashDmaFails_holds {B : List Host.Cell} {L : List Instr} {s : State} (hs : s.holds B L)  :
    (State.flashDmaFails s).holds B L := by
  unfold State.flashDmaFails
  split
  · exact hs
  · split
    · exact hs
    · simp +contextual (maxDischargeDepth := 40) [*]

theorem execFlashDmaError_holds {B : List Host.Cell} {L : List Instr} {s : State} (hs : s.holds B L)  :
    ∀ u, execFlashDmaError s = .next u → u.holds B L := by
  intro u ht; unfold execFlashDmaError at ht
  refine guarded_holds (fun s hs => ?_) hs ht
  repeat' first | (simp +contextual (maxDischargeDepth := 40) [*]; done) | split | dsimp only | (refine State.forEach_holds ?_ _ _ (fun _ _ _ => ?_)) | (refine State.onlyIf_holds ?_ _ _ (fun _ _ => ?_))

@[simp] theorem State.flRecover_holds {B : List Host.Cell} {L : List Instr} {s : State} (hs : s.holds B L) (c : ℕ) (slot : ℕ)  :
    (State.flRecover s c slot).1.holds B L := by
  unfold State.flRecover; repeat' first | (simp +contextual (maxDischargeDepth := 40) [*]; done) | split | dsimp only | (refine State.forEach_holds ?_ _ _ (fun _ _ _ => ?_)) | (refine State.onlyIf_holds ?_ _ _ (fun _ _ => ?_))

@[simp] theorem State.flFinish_holds {B : List Host.Cell} {L : List Instr} {s : State} (hs : s.holds B L) (v : VerifyResult)  :
    (State.flFinish s v).1.holds B L := by
  unfold State.flFinish; repeat' first | (simp +contextual (maxDischargeDepth := 40) [*]; done) | split | dsimp only | (refine State.forEach_holds ?_ _ _ (fun _ _ _ => ?_)) | (refine State.onlyIf_holds ?_ _ _ (fun _ _ => ?_))

theorem State.activation_holds {B : List Host.Cell} {L : List Instr} {s : State} (hs : s.holds B L) (atReset : Bool) :
    ∀ r u, s.activation atReset = some (r, u) → u.holds B L := by
  intro r u h
  unfold State.activation at h
  dsimp only at h
  repeat' split at h
  all_goals first | (cases h; simp +contextual (maxDischargeDepth := 40) [*]; done) | (simp at h; done) | (simp at h; obtain ⟨_, rfl⟩ := h; simp +contextual (maxDischargeDepth := 40) [*])

@[simp] theorem State.flActivate_holds {B : List Host.Cell} {L : List Instr} {s : State} (hs : s.holds B L)  :
    (State.flActivate s).1.holds B L := by
  unfold State.flActivate; repeat' first | (simp +contextual (maxDischargeDepth := 40) [*]; done) | (have hu := State.activation_holds hs _ _ _ ‹_›; simp +contextual (maxDischargeDepth := 40) [*]; done) | split | dsimp only | (refine State.forEach_holds ?_ _ _ (fun _ _ _ => ?_)) | (refine State.onlyIf_holds ?_ _ _ (fun _ _ => ?_))

@[simp] theorem State.flActivateAtReset_holds {B : List Host.Cell} {L : List Instr} {s : State} (hs : s.holds B L)  :
    (State.flActivateAtReset s).1.holds B L := by
  unfold State.flActivateAtReset; repeat' first | (simp +contextual (maxDischargeDepth := 40) [*]; done) | (have hu := State.activation_holds hs _ _ _ ‹_›; simp +contextual (maxDischargeDepth := 40) [*]; done) | split | dsimp only | (refine State.forEach_holds ?_ _ _ (fun _ _ _ => ?_)) | (refine State.onlyIf_holds ?_ _ _ (fun _ _ => ?_))

@[simp] theorem State.flConfirm_holds {B : List Host.Cell} {L : List Instr} {s : State} (hs : s.holds B L)  :
    (State.flConfirm s).1.holds B L := by
  unfold State.flConfirm; repeat' first | (simp +contextual (maxDischargeDepth := 40) [*]; done) | split | dsimp only | (refine State.forEach_holds ?_ _ _ (fun _ _ _ => ?_)) | (refine State.onlyIf_holds ?_ _ _ (fun _ _ => ?_))

@[simp] theorem State.flRevert_holds {B : List Host.Cell} {L : List Instr} {s : State} (hs : s.holds B L)  :
    (State.flRevert s).1.holds B L := by
  unfold State.flRevert; simp +contextual (maxDischargeDepth := 40) [*]

@[simp] theorem State.flAbort_holds {B : List Host.Cell} {L : List Instr} {s : State} (hs : s.holds B L)  :
    (State.flAbort s).1.holds B L := by
  unfold State.flAbort; simp +contextual (maxDischargeDepth := 40) [*]

@[simp] theorem State.unlist_holds {B : List Host.Cell} {L : List Instr} {s : State} (hs : s.holds B L)  :
    (State.unlist s).holds B L := by
  unfold State.unlist; simp +contextual (maxDischargeDepth := 40) [*]

@[simp] theorem State.flLoadManifest_holds {B : List Host.Cell} {L : List Instr} {s : State} (hs : s.holds B L)  :
    (State.flLoadManifest s).1.holds B L := by
  unfold State.flLoadManifest; repeat' first | (simp +contextual (maxDischargeDepth := 40) [*]; done) | split | dsimp only | (refine State.forEach_holds ?_ _ _ (fun _ _ _ => ?_)) | (refine State.onlyIf_holds ?_ _ _ (fun _ _ => ?_))

@[simp] theorem State.flClearManifest_holds {B : List Host.Cell} {L : List Instr} {s : State} (hs : s.holds B L)  :
    (State.flClearManifest s).1.holds B L := by
  unfold State.flClearManifest; simp +contextual (maxDischargeDepth := 40) [*]

@[simp] theorem State.flReadLog_holds {B : List Host.Cell} {L : List Instr} {s : State} (hs : s.holds B L)  :
    (State.flReadLog s).1.holds B L := by
  unfold State.flReadLog; simp +contextual (maxDischargeDepth := 40) [*]

@[simp] theorem State.flInstallKey_holds {B : List Host.Cell} {L : List Instr} {s : State} (hs : s.holds B L)  :
    (State.flInstallKey s).1.holds B L := by
  unfold State.flInstallKey; repeat' first | (simp +contextual (maxDischargeDepth := 40) [*]; done) | (have hu := State.store_holds hs _ _ ‹_›; simp +contextual (maxDischargeDepth := 40) [*]; done) | split | dsimp only | (refine State.forEach_holds ?_ _ _ (fun _ _ _ => ?_)) | (refine State.onlyIf_holds ?_ _ _ (fun _ _ => ?_))

@[simp] theorem State.flOwnerEnroll_holds {B : List Host.Cell} {L : List Instr} {s : State} (hs : s.holds B L) (admin : Bool)  :
    (State.flOwnerEnroll s admin).1.holds B L := by
  unfold State.flOwnerEnroll
  split
  · simp +contextual (maxDischargeDepth := 40) [*]
  · extract_lets hash signed src srcF s1 s2
    split
    · simp +contextual (maxDischargeDepth := 40) [*]
    · have h1 : s1.holds B L := by simp only [s1, src]; simp +contextual (maxDischargeDepth := 40) [*]
      clear_value s1
      have h2 : s2.holds B L := by
        refine State.forEach_holds h1 _ _ (fun _ _ _ => ?_)
        repeat' first | (simp +contextual (maxDischargeDepth := 40) [*]; done) | split
      clear_value s2
      simp +contextual (maxDischargeDepth := 40) [*]


@[simp] theorem State.flDo_holds {B : List Host.Cell} {L : List Instr} {s : State} (hs : s.holds B L) (admin : Bool) (code : ℕ) (bytes : List ℕ) (v : VerifyResult)  :
    (State.flDo s admin code bytes v).1.holds B L := by
  unfold State.flDo; repeat' first | (simp +contextual (maxDischargeDepth := 40) [*]; done) | split | dsimp only | (refine State.forEach_holds ?_ _ _ (fun _ _ _ => ?_)) | (refine State.onlyIf_holds ?_ _ _ (fun _ _ => ?_))

@[simp] theorem State.flCmd_holds {B : List Host.Cell} {L : List Instr} {s : State} (hs : s.holds B L) (admin : Bool) (code : ℕ) (bytes : List ℕ) (v : VerifyResult)  :
    (State.flCmd s admin code bytes v).1.holds B L := by
  unfold State.flCmd; simp +contextual (maxDischargeDepth := 40) [*]

@[simp] theorem State.firstImages_holds {B : List Host.Cell} {L : List Instr} {s : State} (hs : s.holds B L) (made : List (ℕ × ℕ × ImageHdr))  :
    (State.firstImages s made).holds B L := by
  unfold State.firstImages; simp +contextual (maxDischargeDepth := 40) [*]

@[simp] theorem State.fallenBack_holds {B : List Host.Cell} {L : List Instr} {s : State} (hs : s.holds B L) (c : ℕ)  :
    (State.fallenBack s c).holds B L := by
  unfold State.fallenBack; simp +contextual (maxDischargeDepth := 40) [*]

@[simp] theorem State.trialAtStart_holds {B : List Host.Cell} {L : List Instr} {s : State} (hs : s.holds B L) (t : Trial)  :
    (State.trialAtStart s t).holds B L := by
  unfold State.trialAtStart; simp +contextual (maxDischargeDepth := 40) [*]

@[simp] theorem State.flashStart_holds {B : List Host.Cell} {L : List Instr} {s : State} (hs : s.holds B L) (b : BootData)  :
    (State.flashStart s b).holds B L := by
  unfold State.flashStart
  extract_lets s0 s1 r src srcF s2 s3 s4
  have h_s0 : s0.holds B L := by simp only [s0]; repeat' first | (simp +contextual (maxDischargeDepth := 40) [*]; done) | split | dsimp only | (refine State.forEach_holds ?_ _ _ (fun _ _ _ => ?_)) | (refine State.onlyIf_holds ?_ _ _ (fun _ _ => ?_))
  clear_value s0
  have h_s1 : s1.holds B L := by simp only [s1]; repeat' first | (simp +contextual (maxDischargeDepth := 40) [*]; done) | split | dsimp only | (refine State.forEach_holds ?_ _ _ (fun _ _ _ => ?_)) | (refine State.onlyIf_holds ?_ _ _ (fun _ _ => ?_))
  clear_value s1
  clear_value r
  have h_s2 : s2.holds B L := by simp only [s2, src, srcF]; repeat' first | (simp +contextual (maxDischargeDepth := 40) [*]; done) | split | dsimp only | (refine State.forEach_holds ?_ _ _ (fun _ _ _ => ?_)) | (refine State.onlyIf_holds ?_ _ _ (fun _ _ => ?_))
  clear_value s2 src srcF
  have h_s3 : s3.holds B L := by simp only [s3]; repeat' first | (simp +contextual (maxDischargeDepth := 40) [*]; done) | split | dsimp only | (refine State.forEach_holds ?_ _ _ (fun _ _ _ => ?_)) | (refine State.onlyIf_holds ?_ _ _ (fun _ _ => ?_))
  clear_value s3
  have h_s4 : s4.holds B L := by simp only [s4]; repeat' first | (simp +contextual (maxDischargeDepth := 40) [*]; done) | split | dsimp only | (refine State.forEach_holds ?_ _ _ (fun _ _ _ => ?_)) | (refine State.onlyIf_holds ?_ _ _ (fun _ _ => ?_))
  clear_value s4
  simp +contextual (maxDischargeDepth := 40) [*]


end Sys2Proof.Machine
end

