-- ==== Sys2Proof/Laws/FrameBringup.lean ====
section
/-! SUPPORT. The operations of Bringup leave BAR2 and the queue of waiting commands alone. -/

namespace Sys2Proof.Machine

set_option linter.unusedTactic false
set_option linter.unreachableTactic false

theorem execSuppliesGood_holds {B : List Host.Cell} {L : List Instr} {s : State} (hs : s.holds B L) (straps : Straps)  :
    ∀ u, execSuppliesGood straps s = .next u → u.holds B L := by
  intro u ht; unfold execSuppliesGood at ht
  refine guarded_holds (fun s hs => ?_) hs ht
  repeat' first | (simp +contextual (maxDischargeDepth := 40) [*]; done) | split | dsimp only | (refine State.forEach_holds ?_ _ _ (fun _ _ _ => ?_)) | (refine State.onlyIf_holds ?_ _ _ (fun _ _ => ?_))

@[simp] theorem State.devFault_holds {B : List Host.Cell} {L : List Instr} {s : State} (hs : s.holds B L) (bit : ℕ)  :
    (State.devFault s bit).holds B L := by
  unfold State.devFault; simp +contextual (maxDischargeDepth := 40) [*]

theorem execSupplyOutOfRange_holds {B : List Host.Cell} {L : List Instr} {s : State} (hs : s.holds B L) (rail : ℕ)  :
    ∀ u, execSupplyOutOfRange rail s = .next u → u.holds B L := by
  intro u ht; unfold execSupplyOutOfRange at ht
  refine guarded_holds (fun s hs => ?_) hs ht
  repeat' first | (simp +contextual (maxDischargeDepth := 40) [*]; done) | split | dsimp only | (refine State.forEach_holds ?_ _ _ (fun _ _ _ => ?_)) | (refine State.onlyIf_holds ?_ _ _ (fun _ _ => ?_))

theorem execDieHot_holds {B : List Host.Cell} {L : List Instr} {s : State} (hs : s.holds B L)  :
    ∀ u, execDieHot s = .next u → u.holds B L := by
  intro u ht; unfold execDieHot at ht
  refine guarded_holds (fun s hs => ?_) hs ht
  repeat' first | (simp +contextual (maxDischargeDepth := 40) [*]; done) | split | dsimp only | (refine State.forEach_holds ?_ _ _ (fun _ _ _ => ?_)) | (refine State.onlyIf_holds ?_ _ _ (fun _ _ => ?_))

theorem execDieCritical_holds {B : List Host.Cell} {L : List Instr} {s : State} (hs : s.holds B L)  :
    ∀ u, execDieCritical s = .next u → u.holds B L := by
  intro u ht; unfold execDieCritical at ht
  refine guarded_holds (fun s hs => ?_) hs ht
  repeat' first | (simp +contextual (maxDischargeDepth := 40) [*]; done) | split | dsimp only | (refine State.forEach_holds ?_ _ _ (fun _ _ _ => ?_)) | (refine State.onlyIf_holds ?_ _ _ (fun _ _ => ?_))

theorem execSclkMonitor_holds {B : List Host.Cell} {L : List Instr} {s : State} (hs : s.holds B L)  :
    ∀ u, execSclkMonitor s = .next u → u.holds B L := by
  intro u ht; unfold execSclkMonitor at ht
  refine guarded_holds (fun s hs => ?_) hs ht
  repeat' first | (simp +contextual (maxDischargeDepth := 40) [*]; done) | split | dsimp only | (refine State.forEach_holds ?_ _ _ (fun _ _ _ => ?_)) | (refine State.onlyIf_holds ?_ _ _ (fun _ _ => ?_))

theorem execSramUncorr_holds {B : List Host.Cell} {L : List Instr} {s : State} (hs : s.holds B L)  :
    ∀ u, execSramUncorr s = .next u → u.holds B L := by
  intro u ht; unfold execSramUncorr at ht
  refine guarded_holds (fun s hs => ?_) hs ht
  repeat' first | (simp +contextual (maxDischargeDepth := 40) [*]; done) | split | dsimp only | (refine State.forEach_holds ?_ _ _ (fun _ _ _ => ?_)) | (refine State.onlyIf_holds ?_ _ _ (fun _ _ => ?_))

@[simp] theorem State.deviceResetCmd_holds {B : List Host.Cell} {L : List Instr} {s : State} (hs : s.holds B L) (allowed : Bool) (v : ℕ)  :
    (State.deviceResetCmd s allowed v).1.holds B L := by
  unfold State.deviceResetCmd; simp +contextual (maxDischargeDepth := 40) [*]

@[simp] theorem State.takeOtp_holds {B : List Host.Cell} {L : List Instr} {s : State} (hs : s.holds B L) (t : ℕ × ℕ × ℕ)  :
    (State.takeOtp s t).holds B L := by
  unfold State.takeOtp; simp +contextual (maxDischargeDepth := 40) [*]

@[simp] theorem State.stage1_holds {B : List Host.Cell} {L : List Instr} {s : State} (hs : s.holds B L) (b : BootData)  :
    (State.stage1 s b).holds B L := by
  unfold State.stage1; simp +contextual (maxDischargeDepth := 40) [*]

theorem execStage1Entry_holds {B : List Host.Cell} {L : List Instr} {s : State} (hs : s.holds B L) (b : BootData)  :
    ∀ u, execStage1Entry b s = .next u → u.holds B L := by
  intro u ht; unfold execStage1Entry at ht
  refine guarded_holds (fun s hs => ?_) hs ht
  repeat' first | (simp +contextual (maxDischargeDepth := 40) [*]; done) | split | dsimp only | (refine State.forEach_holds ?_ _ _ (fun _ _ _ => ?_)) | (refine State.onlyIf_holds ?_ _ _ (fun _ _ => ?_))

@[simp] theorem State.stage2_holds {B : List Host.Cell} {L : List Instr} {s : State} (hs : s.holds B L)  :
    (State.stage2 s).holds B L := by
  unfold State.stage2; simp +contextual (maxDischargeDepth := 40) [*]

theorem execStage2Entry_holds {B : List Host.Cell} {L : List Instr} {s : State} (hs : s.holds B L)  :
    ∀ u, execStage2Entry s = .next u → u.holds B L := by
  intro u ht; unfold execStage2Entry at ht
  refine guarded_holds (fun s hs => ?_) hs ht
  repeat' first | (simp +contextual (maxDischargeDepth := 40) [*]; done) | split | dsimp only | (refine State.forEach_holds ?_ _ _ (fun _ _ _ => ?_)) | (refine State.onlyIf_holds ?_ _ _ (fun _ _ => ?_))

@[simp] theorem State.portTable_holds {B : List Host.Cell} {L : List Instr} {s : State} (hs : s.holds B L) (i : ℕ) (k : ℕ) (r : TableResult)  :
    (State.portTable s i k r).holds B L := by
  unfold State.portTable; simp +contextual (maxDischargeDepth := 40) [*]

theorem execInputTableDone_holds {B : List Host.Cell} {L : List Instr} {s : State} (hs : s.holds B L) (i : ℕ) (core : ℕ) (r : TableResult)  :
    ∀ u, execInputTableDone i core r s = .next u → u.holds B L := by
  intro u ht; unfold execInputTableDone at ht
  refine guarded_holds (fun s hs => ?_) hs ht
  repeat' first | (simp +contextual (maxDischargeDepth := 40) [*]; done) | split | dsimp only | (refine State.forEach_holds ?_ _ _ (fun _ _ _ => ?_)) | (refine State.onlyIf_holds ?_ _ _ (fun _ _ => ?_))

@[simp] theorem State.stage3_holds {B : List Host.Cell} {L : List Instr} {s : State} (hs : s.holds B L)  :
    (State.stage3 s).holds B L := by
  unfold State.stage3; simp +contextual (maxDischargeDepth := 40) [*]

theorem execStage3Entry_holds {B : List Host.Cell} {L : List Instr} {s : State} (hs : s.holds B L)  :
    ∀ u, execStage3Entry s = .next u → u.holds B L := by
  intro u ht; unfold execStage3Entry at ht
  refine guarded_holds (fun s hs => ?_) hs ht
  repeat' first | (simp +contextual (maxDischargeDepth := 40) [*]; done) | split | dsimp only | (refine State.forEach_holds ?_ _ _ (fun _ _ _ => ?_)) | (refine State.onlyIf_holds ?_ _ _ (fun _ _ => ?_))

theorem execPcieLinkTraining_holds {B : List Host.Cell} {L : List Instr} {s : State} (hs : s.holds B L)  :
    ∀ u, execPcieLinkTraining s = .next u → u.holds B L := by
  intro u ht; unfold execPcieLinkTraining at ht
  refine guarded_holds (fun s hs => ?_) hs ht
  repeat' first | (simp +contextual (maxDischargeDepth := 40) [*]; done) | split | dsimp only | (refine State.forEach_holds ?_ _ _ (fun _ _ _ => ?_)) | (refine State.onlyIf_holds ?_ _ _ (fun _ _ => ?_))

theorem execBoundaryScan_holds {B : List Host.Cell} {L : List Instr} {s : State} (hs : s.holds B L) (ir : ℕ)  :
    ∀ u, execBoundaryScan ir s = .next u → u.holds B L := by
  intro u ht; unfold execBoundaryScan at ht
  refine guarded_holds (fun s hs => ?_) hs ht
  repeat' first | (simp +contextual (maxDischargeDepth := 40) [*]; done) | split | dsimp only | (refine State.forEach_holds ?_ _ _ (fun _ _ _ => ?_)) | (refine State.onlyIf_holds ?_ _ _ (fun _ _ => ?_))

end Sys2Proof.Machine
end

