-- ==== Sys2Proof/Laws/FrameEth.lean ====
section
/-! SUPPORT. The operations of Eth leave BAR2 and the queue of waiting commands alone. -/

namespace Sys2Proof.Machine

set_option linter.unusedTactic false
set_option linter.unreachableTactic false

@[simp] theorem State.setEth_holds {B : List Host.Cell} {L : List Instr} {s : State} (hs : s.holds B L) (p : ℕ) (x : EthSt)  :
    (State.setEth s p x).holds B L := by
  unfold State.setEth; simp +contextual (maxDischargeDepth := 40) [*]

@[simp] theorem State.txWriteBack_holds {B : List Host.Cell} {L : List Instr} {s : State} (hs : s.holds B L) (n p : Nat) : (State.txWriteBack n p s).holds B L := by
  induction n generalizing s with
  | zero => exact hs
  | succ n ih =>
    unfold State.txWriteBack
    repeat' first | (simp +contextual (maxDischargeDepth := 40) [*]; done) | split | dsimp only | refine ih ?_

@[simp] theorem State.txTake_holds {B : List Host.Cell} {L : List Instr} {s : State} (hs : s.holds B L) (p : ℕ) (e : TxElem)  :
    (State.txTake s p e).holds B L := by
  unfold State.txTake; simp +contextual (maxDischargeDepth := 40) [*]

@[simp] theorem State.txSend_holds {B : List Host.Cell} {L : List Instr} {s : State} (hs : s.holds B L) (p : ℕ) (f : TxFrame)  :
    (State.txSend s p f).holds B L := by
  unfold State.txSend; simp +contextual (maxDischargeDepth := 40) [*]

theorem execEthFrameTx_holds {B : List Host.Cell} {L : List Instr} {s : State} (hs : s.holds B L) (p : ℕ) (f : TxFrame)  :
    ∀ u, execEthFrameTx p f s = .next u → u.holds B L := by
  intro u ht; unfold execEthFrameTx at ht
  refine guarded_holds (fun s hs => ?_) hs ht
  repeat' first | (simp +contextual (maxDischargeDepth := 40) [*]; done) | split | dsimp only | (refine State.forEach_holds ?_ _ _ (fun _ _ _ => ?_)) | (refine State.onlyIf_holds ?_ _ _ (fun _ _ => ?_))

theorem execEthTxStamp_holds {B : List Host.Cell} {L : List Instr} {s : State} (hs : s.holds B L) (p : ℕ) (t : ℕ)  :
    ∀ u, execEthTxStamp p t s = .next u → u.holds B L := by
  intro u ht; unfold execEthTxStamp at ht
  refine guarded_holds (fun s hs => ?_) hs ht
  repeat' first | (simp +contextual (maxDischargeDepth := 40) [*]; done) | split | dsimp only | (refine State.forEach_holds ?_ _ _ (fun _ _ _ => ?_)) | (refine State.onlyIf_holds ?_ _ _ (fun _ _ => ?_))

@[simp] theorem State.rxWrite_holds {B : List Host.Cell} {L : List Instr} {s : State} (hs : s.holds B L) (p : ℕ) (f : RxFrame)  :
    (State.rxWrite s p f).holds B L := by
  unfold State.rxWrite; simp +contextual (maxDischargeDepth := 40) [*]

theorem execEthFrameRx_holds {B : List Host.Cell} {L : List Instr} {s : State} (hs : s.holds B L) (p : ℕ) (f : RxFrame)  :
    ∀ u, execEthFrameRx p f s = .next u → u.holds B L := by
  intro u ht; unfold execEthFrameRx at ht
  refine guarded_holds (fun s hs => ?_) hs ht
  repeat' first | (simp +contextual (maxDischargeDepth := 40) [*]; done) | split | dsimp only | (refine State.forEach_holds ?_ _ _ (fun _ _ _ => ?_)) | (refine State.onlyIf_holds ?_ _ _ (fun _ _ => ?_))

@[simp] theorem State.ethLink_holds {B : List Host.Cell} {L : List Instr} {s : State} (hs : s.holds B L) (p : ℕ) (up : Bool)  :
    (State.ethLink s p up).holds B L := by
  unfold State.ethLink; simp +contextual (maxDischargeDepth := 40) [*]

theorem execEthLinkChange_holds {B : List Host.Cell} {L : List Instr} {s : State} (hs : s.holds B L) (p : ℕ) (up : Bool)  :
    ∀ u, execEthLinkChange p up s = .next u → u.holds B L := by
  intro u ht; unfold execEthLinkChange at ht
  refine guarded_holds (fun s hs => ?_) hs ht
  repeat' first | (simp +contextual (maxDischargeDepth := 40) [*]; done) | split | dsimp only | (refine State.forEach_holds ?_ _ _ (fun _ _ _ => ?_)) | (refine State.onlyIf_holds ?_ _ _ (fun _ _ => ?_))

@[simp] theorem State.ethEnable_holds {B : List Host.Cell} {L : List Instr} {s : State} (hs : s.holds B L) (p : ℕ) (on : Bool)  :
    (State.ethEnable s p on).1.holds B L := by
  unfold State.ethEnable; simp +contextual (maxDischargeDepth := 40) [*]

@[simp] theorem State.ethRingCtrl_holds {B : List Host.Cell} {L : List Instr} {s : State} (hs : s.holds B L) (p : ℕ) (rx : Bool) (on : Bool)  :
    (State.ethRingCtrl s p rx on).1.holds B L := by
  unfold State.ethRingCtrl; simp +contextual (maxDischargeDepth := 40) [*]

@[simp] theorem State.ethStop_holds {B : List Host.Cell} {L : List Instr} {s : State} (hs : s.holds B L) (p : ℕ) (rx : Bool)  :
    (State.ethStop s p rx).holds B L := by
  unfold State.ethStop; simp +contextual (maxDischargeDepth := 40) [*]

@[simp] theorem State.ethBell_holds {B : List Host.Cell} {L : List Instr} {s : State} (hs : s.holds B L) (p : ℕ) (rx : Bool) (v : ℕ)  :
    (State.ethBell s p rx v).1.holds B L := by
  unfold State.ethBell
  extract_lets g dev n
  exact holds_fst_ite (refuse_holds hs _) (accept_holds (State.put_holds hs _ _ _))

end Sys2Proof.Machine
end

