-- ==== Sys2Proof/Laws/FrameView.lean ====
section
/-! SUPPORT. The operations of View leave BAR2 and the queue of waiting commands alone. -/

namespace Sys2Proof.Machine

set_option linter.unusedTactic false
set_option linter.unreachableTactic false

@[simp] theorem State.putWin_holds {B : List Host.Cell} {L : List Instr} {s : State} (hs : s.holds B L) (path : Path) (p : ℕ) (o : ℕ) (n : ℕ) (v : ℕ)  :
    (State.putWin s path p o n v).holds B L := by
  unfold State.putWin; simp +contextual (maxDischargeDepth := 40) [*]

@[simp] theorem State.latch_holds {B : List Host.Cell} {L : List Instr} {s : State} (hs : s.holds B L) (path : Path) (key : ℕ) (words : List ℕ)  :
    (State.latch s path key words).holds B L := by
  unfold State.latch; simp +contextual (maxDischargeDepth := 40) [*]

@[simp] theorem State.readLog_holds {B : List Host.Cell} {L : List Instr} {s : State} (hs : s.holds B L) (p : ℕ) (off : ℕ)  :
    (State.readLog s p off).holds B L := by
  unfold State.readLog; simp +contextual (maxDischargeDepth := 40) [*]

@[simp] theorem State.latchSingle_holds {B : List Host.Cell} {L : List Instr} {s : State} (hs : s.holds B L) (path : Path) (p : ℕ) (off : ℕ)  :
    (State.latchSingle s path p off).holds B L := by
  unfold State.latchSingle; repeat' first | (simp +contextual (maxDischargeDepth := 40) [*]; done) | split | dsimp only | (refine State.forEach_holds ?_ _ _ (fun _ _ _ => ?_)) | (refine State.onlyIf_holds ?_ _ _ (fun _ _ => ?_))

@[simp] theorem State.readWord_holds {B : List Host.Cell} {L : List Instr} {s : State} (hs : s.holds B L) (path : Path) (p : ℕ) (off : ℕ)  :
    (State.readWord s path p off).2.holds B L := by
  unfold State.readWord; repeat' first | (simp +contextual (maxDischargeDepth := 40) [*]; done) | split | dsimp only | (refine State.forEach_holds ?_ _ _ (fun _ _ _ => ?_)) | (refine State.onlyIf_holds ?_ _ _ (fun _ _ => ?_))

end Sys2Proof.Machine
end

