-- ==== Sys2Proof/Laws/FrameAccess.lean ====
section
/-! SUPPORT. The operations of Access leave BAR2 and the queue of waiting commands alone. -/

namespace Sys2Proof.Machine

set_option linter.unusedTactic false
set_option linter.unreachableTactic false

@[simp] theorem State.stage__holds {B : List Host.Cell} {L : List Instr} {s : State} (hs : s.holds B L) (path : Path) (key : ℕ) (v : ℕ)  :
    (State.stage_ s path key v).holds B L := by
  unfold State.stage_; simp +contextual (maxDischargeDepth := 40) [*]

@[simp] theorem State.unstage_holds {B : List Host.Cell} {L : List Instr} {s : State} (hs : s.holds B L) (path : Path) (p : ℕ) (base : ℕ) (n : ℕ)  :
    (State.unstage s path p base n).holds B L := by
  unfold State.unstage; simp +contextual (maxDischargeDepth := 40) [*]

@[simp] theorem State.put__holds {B : List Host.Cell} {L : List Instr} {s : State} (hs : s.holds B L) (c : WCtx) (d : RegDesc)  :
    (State.put_ s c d).holds B L := by
  unfold State.put_; simp +contextual (maxDischargeDepth := 40) [*]

@[simp] theorem State.plain_holds {B : List Host.Cell} {L : List Instr} {s : State} (hs : s.holds B L) (c : WCtx) (d : RegDesc)  :
    (State.plain s c d).1.holds B L := by
  unfold State.plain; simp +contextual (maxDischargeDepth := 40) [*]

@[simp] theorem State.ranged_holds {B : List Host.Cell} {L : List Instr} {s : State} (hs : s.holds B L) (c : WCtx) (d : RegDesc) (ok : Bool)  :
    (State.ranged s c d ok).1.holds B L := by
  unfold State.ranged; simp +contextual (maxDischargeDepth := 40) [*]

@[simp] theorem State.after_holds {B : List Host.Cell} {L : List Instr} {s : State} (hs : s.holds B L) (c : WCtx) (d : RegDesc) (f : State → State) (hf : ∀ s, s.holds B L → (f s).holds B L) :
    (State.after s c d f).1.holds B L := by
  unfold State.after; simp +contextual (maxDischargeDepth := 40) [*]

@[simp] theorem State.lastCmd_holds {B : List Host.Cell} {L : List Instr} {s : State} (hs : s.holds B L) (path : Path) (p : ℕ) (off : ℕ) (agent : ℕ) (code : ℕ) (v : Verdict)  :
    (State.lastCmd s path p off agent code v).holds B L := by
  unfold State.lastCmd; simp +contextual (maxDischargeDepth := 40) [*]

@[simp] theorem State.noteCmd_holds {B : List Host.Cell} {L : List Instr} {s : State} (hs : s.holds B L) (path : Path) (p : ℕ) (off : ℕ) (v : ℕ)  :
    (State.noteCmd s path p off v).holds B L := by
  unfold State.noteCmd; simp +contextual (maxDischargeDepth := 40) [*]

end Sys2Proof.Machine
end

