-- ==== Sys2Proof/Laws/FrameCommit.lean ====
section
/-! SUPPORT. The operations of Commit leave BAR2 and the queue of waiting commands alone. -/

namespace Sys2Proof.Machine

set_option linter.unusedTactic false
set_option linter.unreachableTactic false

@[simp] theorem State.putWords_holds {B : List Host.Cell} {L : List Instr} {s : State} (hs : s.holds B L) (l : List (ℕ × Word))  :
    (State.putWords s l).holds B L := by
  unfold State.putWords; simp +contextual (maxDischargeDepth := 40) [*]

@[simp] theorem State.calHook_holds {B : List Host.Cell} {L : List Instr} {s : State} {old : State} (hs : s.holds B L) (hold : old.holds B L) (q : ℕ)  :
    (State.calHook s old q).holds B L := by
  unfold State.calHook; simp +contextual (maxDischargeDepth := 40) [*]

@[simp] theorem State.committed_holds {B : List Host.Cell} {L : List Instr} {s : State} {old : State} (hs : s.holds B L) (hold : old.holds B L) (p : ℕ) (words : List (ℕ × Word))  :
    (State.committed s old p words).holds B L := by
  have hg := fun f => State.store_getD_holds hs f
  unfold State.committed; repeat' first | (simp +contextual (maxDischargeDepth := 40) [*]; done) | split | dsimp only

@[simp] theorem State.bumpCommit_holds {B : List Host.Cell} {L : List Instr} {s : State} (hs : s.holds B L) (p : ℕ) (lane : ℕ) (n : ℕ)  :
    (State.bumpCommit s p lane n).holds B L := by
  unfold State.bumpCommit; simp +contextual (maxDischargeDepth := 40) [*]

@[simp] theorem State.dropShadows_holds {B : List Host.Cell} {L : List Instr} {s : State} (hs : s.holds B L) (p : ℕ) (lane : ℕ)  :
    (State.dropShadows s p lane).holds B L := by
  unfold State.dropShadows; simp +contextual (maxDischargeDepth := 40) [*]

@[simp] theorem State.abortShadows_holds {B : List Host.Cell} {L : List Instr} {s : State} (hs : s.holds B L) (p : ℕ) (lane : ℕ)  :
    (State.abortShadows s p lane).holds B L := by
  unfold State.abortShadows; simp +contextual (maxDischargeDepth := 40) [*]

@[simp] theorem State.shadowCommit_holds {B : List Host.Cell} {L : List Instr} {s : State} (hs : s.holds B L) (p : ℕ) (lane : ℕ)  :
    (State.shadowCommit s p lane).holds B L := by
  unfold State.shadowCommit; simp +contextual (maxDischargeDepth := 40) [*]

theorem execShadowCommit_holds {B : List Host.Cell} {L : List Instr} {s : State} (hs : s.holds B L) (page : ℕ) (lane : ℕ)  :
    ∀ u, execShadowCommit page lane s = .next u → u.holds B L := by
  intro u ht; unfold execShadowCommit at ht
  refine guarded_holds (fun s hs => ?_) hs ht
  repeat' first | (simp +contextual (maxDischargeDepth := 40) [*]; done) | split | dsimp only | (refine State.forEach_holds ?_ _ _ (fun _ _ _ => ?_)) | (refine State.onlyIf_holds ?_ _ _ (fun _ _ => ?_))

@[simp] theorem State.writeShd_holds {B : List Host.Cell} {L : List Instr} {s : State} (hs : s.holds B L) (c : WCtx) (d : RegDesc)  :
    (State.writeShd s c d).1.holds B L := by
  unfold State.writeShd; repeat' first | (simp +contextual (maxDischargeDepth := 40) [*]; done) | split | dsimp only | (refine State.forEach_holds ?_ _ _ (fun _ _ _ => ?_)) | (refine State.onlyIf_holds ?_ _ _ (fun _ _ => ?_))

@[simp] theorem State.commitGo_holds {B : List Host.Cell} {L : List Instr} {s : State} (hs : s.holds B L) (agent : ℕ) (p : ℕ) (lane : ℕ) (mode : ℕ)  :
    (State.commitGo s agent p lane mode).1.holds B L := by
  unfold State.commitGo; repeat' first | (simp +contextual (maxDischargeDepth := 40) [*]; done) | split | dsimp only | (refine State.forEach_holds ?_ _ _ (fun _ _ _ => ?_)) | (refine State.onlyIf_holds ?_ _ _ (fun _ _ => ?_))

@[simp] theorem State.writeCommitCtl_holds {B : List Host.Cell} {L : List Instr} {s : State} (hs : s.holds B L) (c : WCtx) (lane : ℕ)  :
    (State.writeCommitCtl s c lane).1.holds B L := by
  unfold State.writeCommitCtl; simp +contextual (maxDischargeDepth := 40) [*]

@[simp] theorem State.writeCgArm_holds {B : List Host.Cell} {L : List Instr} {s : State} (hs : s.holds B L) (v : ℕ)  :
    (State.writeCgArm s v).1.holds B L := by
  unfold State.writeCgArm; simp +contextual (maxDischargeDepth := 40) [*]

@[simp] theorem State.writeCgDisarm_holds {B : List Host.Cell} {L : List Instr} {s : State} (hs : s.holds B L) (v : ℕ)  :
    (State.writeCgDisarm s v).1.holds B L := by
  unfold State.writeCgDisarm; simp +contextual (maxDischargeDepth := 40) [*]

@[simp] theorem State.cgFire_holds {B : List Host.Cell} {L : List Instr} {s : State} (hs : s.holds B L)  :
    (State.cgFire s).holds B L := by
  unfold State.cgFire; simp +contextual (maxDischargeDepth := 40) [*]

theorem execCgFire_holds {B : List Host.Cell} {L : List Instr} {s : State} (hs : s.holds B L) (g : ℕ)  :
    ∀ u, execCgFire g s = .next u → u.holds B L := by
  intro u ht; unfold execCgFire at ht
  refine guarded_holds (fun s hs => ?_) hs ht
  repeat' first | (simp +contextual (maxDischargeDepth := 40) [*]; done) | split | dsimp only | (refine State.forEach_holds ?_ _ _ (fun _ _ _ => ?_)) | (refine State.onlyIf_holds ?_ _ _ (fun _ _ => ?_))

end Sys2Proof.Machine
end

