-- ==== Sys2Proof/Laws/FrameOwn.lean ====
section
/-! SUPPORT. The operations of Own leave BAR2 and the queue of waiting commands alone. -/

namespace Sys2Proof.Machine

set_option linter.unusedTactic false
set_option linter.unreachableTactic false

@[simp] theorem State.loopOff_holds {B : List Host.Cell} {L : List Instr} {s : State} (hs : s.holds B L)  :
    (State.loopOff s).holds B L := by
  unfold State.loopOff; simp +contextual (maxDischargeDepth := 40) [*]

@[simp] theorem State.dropKind_holds {B : List Host.Cell} {L : List Instr} {s : State} (hs : s.holds B L) (kind : ℕ)  :
    (State.dropKind s kind).holds B L := by
  unfold State.dropKind; simp +contextual (maxDischargeDepth := 40) [*]

@[simp] theorem State.freed_holds {B : List Host.Cell} {L : List Instr} {s : State} (hs : s.holds B L) (code : ℕ) (idx : ℕ)  :
    (State.freed s code idx).holds B L := by
  unfold State.freed; simp +contextual (maxDischargeDepth := 40) [*]

@[simp] theorem State.releaseRes_holds {B : List Host.Cell} {L : List Instr} {s : State} (hs : s.holds B L) (code : ℕ) (idx : ℕ)  :
    (State.releaseRes s code idx).holds B L := by
  unfold State.releaseRes; simp +contextual (maxDischargeDepth := 40) [*]

@[simp] theorem State.writeOwner_holds {B : List Host.Cell} {L : List Instr} {s : State} (hs : s.holds B L) (c : WCtx)  :
    (State.writeOwner s c).1.holds B L := by
  unfold State.writeOwner; simp +contextual (maxDischargeDepth := 40) [*]

@[simp] theorem State.setRanges_holds {B : List Host.Cell} {L : List Instr} {s : State} (hs : s.holds B L) (l : List (ℕ × ℕ × ℕ))  :
    (State.setRanges s l).holds B L := by
  unfold State.setRanges; simp +contextual (maxDischargeDepth := 40) [*]

@[simp] theorem State.cmdClaim_holds {B : List Host.Cell} {L : List Instr} {s : State} (hs : s.holds B L) (agent : ℕ) (code : ℕ) (arg : ℕ × ℕ)  :
    (State.cmdClaim s agent code arg).1.holds B L := by
  unfold State.cmdClaim; repeat' first | (simp +contextual (maxDischargeDepth := 40) [*]; done) | split | dsimp only | (refine State.forEach_holds ?_ _ _ (fun _ _ _ => ?_)) | (refine State.onlyIf_holds ?_ _ _ (fun _ _ => ?_))

@[simp] theorem State.cmdRelease_holds {B : List Host.Cell} {L : List Instr} {s : State} (hs : s.holds B L) (agent : ℕ) (code : ℕ) (arg : ℕ × ℕ)  :
    (State.cmdRelease s agent code arg).1.holds B L := by
  unfold State.cmdRelease; repeat' first | (simp +contextual (maxDischargeDepth := 40) [*]; done) | split | dsimp only | (refine State.forEach_holds ?_ _ _ (fun _ _ _ => ?_)) | (refine State.onlyIf_holds ?_ _ _ (fun _ _ => ?_))

@[simp] theorem State.cmdQuery_holds {B : List Host.Cell} {L : List Instr} {s : State} (hs : s.holds B L) (code : ℕ) (arg : ℕ × ℕ)  :
    (State.cmdQuery s code arg).1.holds B L := by
  unfold State.cmdQuery; simp +contextual (maxDischargeDepth := 40) [*]

@[simp] theorem State.writeWindow_holds {B : List Host.Cell} {L : List Instr} {s : State} (hs : s.holds B L) (c : WCtx) (d : RegDesc) (w : ℕ)  :
    (State.writeWindow s c d w).1.holds B L := by
  unfold State.writeWindow; simp +contextual (maxDischargeDepth := 40) [*]

@[simp] theorem State.kickLease_holds {B : List Host.Cell} {L : List Instr} {s : State} (hs : s.holds B L) (w : ℕ)  :
    (State.kickLease s w).holds B L := by
  unfold State.kickLease; simp +contextual (maxDischargeDepth := 40) [*]

@[simp] theorem State.writeLease_holds {B : List Host.Cell} {L : List Instr} {s : State} (hs : s.holds B L) (c : WCtx) (d : RegDesc) (w : ℕ)  :
    (State.writeLease s c d w).1.holds B L := by
  unfold State.writeLease; simp +contextual (maxDischargeDepth := 40) [*]

@[simp] theorem State.writePeriod_holds {B : List Host.Cell} {L : List Instr} {s : State} (hs : s.holds B L) (c : WCtx) (d : RegDesc) (w : ℕ)  :
    (State.writePeriod s c d w).1.holds B L := by
  unfold State.writePeriod; simp +contextual (maxDischargeDepth := 40) [*]

@[simp] theorem State.leaseRenew_holds {B : List Host.Cell} {L : List Instr} {s : State} (hs : s.holds B L) (agent : ℕ)  :
    (State.leaseRenew s agent).holds B L := by
  unfold State.leaseRenew; simp +contextual (maxDischargeDepth := 40) [*]

@[simp] theorem State.ringStop_holds {B : List Host.Cell} {L : List Instr} {s : State} (hs : s.holds B L) (r : ℕ)  :
    (State.ringStop s r).holds B L := by
  unfold State.ringStop; simp +contextual (maxDischargeDepth := 40) [*]

@[simp] theorem State.ringsStop_holds {B : List Host.Cell} {L : List Instr} {s : State} (hs : s.holds B L) (rs : List ℕ)  :
    (State.ringsStop s rs).holds B L := by
  unfold State.ringsStop; simp +contextual (maxDischargeDepth := 40) [*]

@[simp] theorem State.orphanSafe_holds {B : List Host.Cell} {L : List Instr} {s : State} (hs : s.holds B L) (a : ℕ)  :
    (State.orphanSafe s a).holds B L := by
  unfold State.orphanSafe; simp +contextual (maxDischargeDepth := 40) [*]

@[simp] theorem State.leaseExpire_holds {B : List Host.Cell} {L : List Instr} {s : State} (hs : s.holds B L) (w : ℕ)  :
    (State.leaseExpire s w).holds B L := by
  unfold State.leaseExpire; simp +contextual (maxDischargeDepth := 40) [*]

theorem execLeaseExpiry_holds {B : List Host.Cell} {L : List Instr} {s : State} (hs : s.holds B L) (w : ℕ)  :
    ∀ u, execLeaseExpiry w s = .next u → u.holds B L := by
  intro u ht; unfold execLeaseExpiry at ht
  refine guarded_holds (fun s hs => ?_) hs ht
  repeat' first | (simp +contextual (maxDischargeDepth := 40) [*]; done) | split | dsimp only | (refine State.forEach_holds ?_ _ _ (fun _ _ _ => ?_)) | (refine State.onlyIf_holds ?_ _ _ (fun _ _ => ?_))

end Sys2Proof.Machine
end

