-- ==== Sys2Proof/Laws/FrameRings.lean ====
section
/-! SUPPORT. The operations of Rings leave BAR2 and the queue of waiting commands alone. -/

namespace Sys2Proof.Machine

set_option linter.unusedTactic false
set_option linter.unreachableTactic false

@[simp] theorem State.writeRingCfg_holds {B : List Host.Cell} {L : List Instr} {s : State} (hs : s.holds B L) (c : WCtx) (d : RegDesc) (r : ℕ)  :
    (State.writeRingCfg s c d r).1.holds B L := by
  have h1 : (if s.ringKind r = 4 then s.freePlace (s.ringBind r) 2 r else s).holds B L := by
    split
    · exact State.freePlace_holds hs _ _ _
    · exact hs
  unfold State.writeRingCfg
  dsimp only
  generalize (if s.ringKind r = 4 then s.freePlace (s.ringBind r) 2 r else s) = s1 at h1 ⊢
  repeat' split
  all_goals first
    | exact refuse_holds hs _
    | exact State.plain_holds hs _ _
    | exact hs
    | exact State.plain_holds h1 _ _
    | exact State.plain_holds (State.takePlace_holds h1 _ _ _ _ ‹_›) _ _

@[simp] theorem State.ringStart_holds {B : List Host.Cell} {L : List Instr} {s : State} (hs : s.holds B L) (r : ℕ)  :
    (State.ringStart s r).holds B L := by
  unfold State.ringStart; simp +contextual (maxDischargeDepth := 40) [*]

@[simp] theorem State.ringRelease_holds {B : List Host.Cell} {L : List Instr} {s : State} (hs : s.holds B L) (r : ℕ)  :
    (State.ringRelease s r).holds B L := by
  unfold State.ringRelease; simp +contextual (maxDischargeDepth := 40) [*]

@[simp] theorem State.writeRingCtrl_holds {B : List Host.Cell} {L : List Instr} {s : State} (hs : s.holds B L) (c : WCtx) (d : RegDesc) (r : ℕ)  :
    (State.writeRingCtrl s c d r).1.holds B L := by
  unfold State.writeRingCtrl; repeat' first | (simp +contextual (maxDischargeDepth := 40) [*]; done) | split | dsimp only | (refine State.forEach_holds ?_ _ _ (fun _ _ _ => ?_)) | (refine State.onlyIf_holds ?_ _ _ (fun _ _ => ?_))

@[simp] theorem State.writeBell_holds {B : List Host.Cell} {L : List Instr} {s : State} (hs : s.holds B L) (c : WCtx) (d : RegDesc) (r : ℕ)  :
    (State.writeBell s c d r).1.holds B L := by
  unfold State.writeBell; simp +contextual (maxDischargeDepth := 40) [*]

@[simp] theorem State.ethDmaFails_holds {B : List Host.Cell} {L : List Instr} {s : State} (hs : s.holds B L) (p : ℕ) (rx : Bool)  :
    (State.ethDmaFails s p rx).holds B L := by
  unfold State.ethDmaFails; simp +contextual (maxDischargeDepth := 40) [*]

theorem execRingDmaError_holds {B : List Host.Cell} {L : List Instr} {s : State} (hs : s.holds B L) (r : ℕ)  :
    ∀ u, execRingDmaError r s = .next u → u.holds B L := by
  intro u ht; unfold execRingDmaError at ht
  refine guarded_holds (fun s hs => ?_) hs ht
  repeat' first | (simp +contextual (maxDischargeDepth := 40) [*]; done) | split | dsimp only | (refine State.forEach_holds ?_ _ _ (fun _ _ _ => ?_)) | (refine State.onlyIf_holds ?_ _ _ (fun _ _ => ?_))

theorem execModTimeExpiry_holds {B : List Host.Cell} {L : List Instr} {s : State} (hs : s.holds B L) (r : ℕ)  :
    ∀ u, execModTimeExpiry r s = .next u → u.holds B L := by
  intro u ht; unfold execModTimeExpiry at ht
  refine guarded_holds (fun s hs => ?_) hs ht
  repeat' first | (simp +contextual (maxDischargeDepth := 40) [*]; done) | split | dsimp only | (refine State.forEach_holds ?_ _ _ (fun _ _ _ => ?_)) | (refine State.onlyIf_holds ?_ _ _ (fun _ _ => ?_))

@[simp] theorem State.endpointDown_holds {B : List Host.Cell} {L : List Instr} {s : State} (hs : s.holds B L)  :
    (State.endpointDown s).holds B L := by
  unfold State.endpointDown; simp +contextual (maxDischargeDepth := 40) [*]

theorem execPerstNAssert_holds {B : List Host.Cell} {L : List Instr} {s : State} (hs : s.holds B L)  :
    ∀ u, execPerstNAssert s = .next u → u.holds B L := by
  intro u ht; unfold execPerstNAssert at ht
  refine guarded_holds (fun s hs => ?_) hs ht
  repeat' first | (simp +contextual (maxDischargeDepth := 40) [*]; done) | split | dsimp only | (refine State.forEach_holds ?_ _ _ (fun _ _ _ => ?_)) | (refine State.onlyIf_holds ?_ _ _ (fun _ _ => ?_))

@[simp] theorem State.maskVector_holds {B : List Host.Cell} {L : List Instr} {s : State} (hs : s.holds B L) (v : ℕ) (masked : Bool)  :
    (State.maskVector s v masked).holds B L := by
  unfold State.maskVector; simp +contextual (maxDischargeDepth := 40) [*]

@[simp] theorem State.endpointPower_holds {B : List Host.Cell} {L : List Instr} {s : State} (hs : s.holds B L) (d3hot : Bool)  :
    (State.endpointPower s d3hot).holds B L := by
  unfold State.endpointPower; simp +contextual (maxDischargeDepth := 40) [*]

theorem execD3hotEntry_holds {B : List Host.Cell} {L : List Instr} {s : State} (hs : s.holds B L)  :
    ∀ u, execD3hotEntry s = .next u → u.holds B L := by
  intro u ht; unfold execD3hotEntry at ht
  refine guarded_holds (fun s hs => ?_) hs ht
  repeat' first | (simp +contextual (maxDischargeDepth := 40) [*]; done) | split | dsimp only | (refine State.forEach_holds ?_ _ _ (fun _ _ _ => ?_)) | (refine State.onlyIf_holds ?_ _ _ (fun _ _ => ?_))

@[simp] theorem State.configure_holds {B : List Host.Cell} {L : List Instr} {s : State} (hs : s.holds B L) (r : ConfigReq)  :
    (State.configure s r).holds B L := by
  unfold State.configure; repeat' first | (simp +contextual (maxDischargeDepth := 40) [*]; done) | split | dsimp only | (refine State.forEach_holds ?_ _ _ (fun _ _ _ => ?_)) | (refine State.onlyIf_holds ?_ _ _ (fun _ _ => ?_))

theorem execConfigurationRequest_holds {B : List Host.Cell} {L : List Instr} {s : State} (hs : s.holds B L) (tag : ConfigReq)  :
    ∀ u, execConfigurationRequest tag s = .next u → u.holds B L := by
  intro u ht; unfold execConfigurationRequest at ht
  refine guarded_holds (fun s hs => ?_) hs ht
  repeat' first | (simp +contextual (maxDischargeDepth := 40) [*]; done) | split | dsimp only | (refine State.forEach_holds ?_ _ _ (fun _ _ _ => ?_)) | (refine State.onlyIf_holds ?_ _ _ (fun _ _ => ?_))

end Sys2Proof.Machine
end

