-- ==== Sys2Proof/Laws/FramePages.lean ====
section
/-! SUPPORT. The operations of Pages leave BAR2 and the queue of waiting commands alone. -/

namespace Sys2Proof.Machine

set_option linter.unusedTactic false
set_option linter.unreachableTactic false

@[simp] theorem State.keep_holds {B : List Host.Cell} {L : List Instr} {s : State} (hs : s.holds B L) (r : State × Verdict) (hr : r.1.holds B L) :
    (State.keep s r).1.holds B L := by
  unfold State.keep; simp +contextual (maxDischargeDepth := 40) [*]

@[simp] theorem State.both_holds {B : List Host.Cell} {L : List Instr} {s : State} (hs : s.holds B L) (r : State × Verdict) (f : State → State × Verdict) (hr : r.1.holds B L) (hf : ∀ s, s.holds B L → (f s).1.holds B L) :
    (State.both s r f).1.holds B L := by
  unfold State.both; simp +contextual (maxDischargeDepth := 40) [*]

@[simp] theorem State.asked_holds {B : List Host.Cell} {L : List Instr} {s : State} (hs : s.holds B L) (b : Bool) (f : State → State × Verdict) (hf : ∀ s, s.holds B L → (f s).1.holds B L) :
    (State.asked s b f).1.holds B L := by
  unfold State.asked; simp +contextual (maxDischargeDepth := 40) [*]

@[simp] theorem State.sendNew_holds {B : List Host.Cell} {L : List Instr} {s : State} {old : State} (hs : s.holds B L) (hold : old.holds B L) (v : ℕ)  :
    (State.sendNew s old v).holds B L := by
  unfold State.sendNew; simp +contextual (maxDischargeDepth := 40) [*]

@[simp] theorem State.errCleared_holds {B : List Host.Cell} {L : List Instr} {s : State} {old : State} (hs : s.holds B L) (hold : old.holds B L) (p : ℕ) (v : ℕ)  :
    (State.errCleared s old p v).holds B L := by
  unfold State.errCleared; repeat' first | (simp +contextual (maxDischargeDepth := 40) [*]; done) | split | dsimp only | (refine State.forEach_holds ?_ _ _ (fun _ _ _ => ?_)) | (refine State.onlyIf_holds ?_ _ _ (fun _ _ => ?_))

@[simp] theorem State.chanEnable_holds {B : List Host.Cell} {L : List Instr} {s : State} (hs : s.holds B L) (agent : ℕ) (c : ℕ) (on : Bool)  :
    (State.chanEnable s agent c on).1.holds B L := by
  unfold State.chanEnable; repeat' first | (simp +contextual (maxDischargeDepth := 40) [*]; done) | split | dsimp only | (refine State.forEach_holds ?_ _ _ (fun _ _ _ => ?_)) | (refine State.onlyIf_holds ?_ _ _ (fun _ _ => ?_))

@[simp] theorem State.phaseEnable_holds {B : List Host.Cell} {L : List Instr} {s : State} (hs : s.holds B L) (t : ℕ) (on : Bool)  :
    (State.phaseEnable s t on).1.holds B L := by
  have h1 : (s.putFlag (pPHASE t) ⟨0x014, 31, 31⟩ on).holds B L := State.putFlag_holds hs _ _ _
  unfold State.phaseEnable
  dsimp only
  generalize s.putFlag (pPHASE t) ⟨0x014, 31, 31⟩ on = s1 at h1 ⊢
  repeat' split
  all_goals first
    | exact refuse_holds hs _
    | exact hs
    | (simp +contextual (maxDischargeDepth := 40) [h1]; done)
    | exact accept_holds (State.phaseStart_holds (State.takePlace_holds h1 _ _ _ _ ‹_›) _)

@[simp] theorem State.setEnable_holds {B : List Host.Cell} {L : List Instr} {s : State} (hs : s.holds B L) (c : WCtx) (k : Kind) (on : Bool)  :
    (State.setEnable s c k on).1.holds B L := by
  unfold State.setEnable; repeat' first | (simp +contextual (maxDischargeDepth := 40) [*]; done) | split | dsimp only | (refine State.forEach_holds ?_ _ _ (fun _ _ _ => ?_)) | (refine State.onlyIf_holds ?_ _ _ (fun _ _ => ?_))

@[simp] theorem State.safeExit_holds {B : List Host.Cell} {L : List Instr} {s : State} (hs : s.holds B L) (c : WCtx) (k : Kind)  :
    (State.safeExit s c k).1.holds B L := by
  unfold State.safeExit; repeat' first | (simp +contextual (maxDischargeDepth := 40) [*]; done) | split | dsimp only | (refine State.forEach_holds ?_ _ _ (fun _ _ _ => ?_)) | (refine State.onlyIf_holds ?_ _ _ (fun _ _ => ?_))

@[simp] theorem State.controlBit_holds {B : List Host.Cell} {L : List Instr} {s : State} (hs : s.holds B L) (c : WCtx) (k : Kind)  :
    (State.controlBit s c k).1.holds B L := by
  unfold State.controlBit; repeat' first | (simp +contextual (maxDischargeDepth := 40) [*]; done) | split | dsimp only | (refine State.forEach_holds ?_ _ _ (fun _ _ _ => ?_)) | (refine State.onlyIf_holds ?_ _ _ (fun _ _ => ?_))

@[simp] theorem State.writeControl_holds {B : List Host.Cell} {L : List Instr} {s : State} (hs : s.holds B L) (c : WCtx) (k : Kind)  :
    (State.writeControl s c k).1.holds B L := by
  unfold State.writeControl; simp +contextual (maxDischargeDepth := 40) [*]

@[simp] theorem State.writeHeader_holds {B : List Host.Cell} {L : List Instr} {s : State} (hs : s.holds B L) (c : WCtx) (k : Kind) (d : RegDesc)  :
    (State.writeHeader s c k d).1.holds B L := by
  unfold State.writeHeader; simp +contextual (maxDischargeDepth := 40) [*]

end Sys2Proof.Machine
end

