-- ==== Sys2Proof/Laws/FrameBodies.lean ====
section
/-! SUPPORT. The operations of Bodies leave BAR2 and the queue of waiting commands alone. -/

namespace Sys2Proof.Machine

set_option linter.unusedTactic false
set_option linter.unreachableTactic false

@[simp] theorem State.thaw_holds {B : List Host.Cell} {L : List Instr} {s : State} (hs : s.holds B L)  :
    (State.thaw s).holds B L := by
  unfold State.thaw; simp +contextual (maxDischargeDepth := 40) [*]

@[simp] theorem State.writeSnap_holds {B : List Host.Cell} {L : List Instr} {s : State} (hs : s.holds B L) (c : WCtx) (d : RegDesc)  :
    (State.writeSnap s c d).1.holds B L := by
  unfold State.writeSnap; simp +contextual (maxDischargeDepth := 40) [*]

@[simp] theorem State.writeDev_holds {B : List Host.Cell} {L : List Instr} {s : State} (hs : s.holds B L) (c : WCtx) (d : RegDesc)  :
    (State.writeDev s c d).1.holds B L := by
  unfold State.writeDev; repeat' first | (simp +contextual (maxDischargeDepth := 40) [*]; done) | (have hu := State.store_holds hs _ _ ‹_ = some _›; simp +contextual (maxDischargeDepth := 40) [*]; done) | split | dsimp only | (refine State.forEach_holds ?_ _ _ (fun _ _ _ => ?_)) | (refine State.onlyIf_holds ?_ _ _ (fun _ _ => ?_))

@[simp] theorem State.claimCmd_holds {B : List Host.Cell} {L : List Instr} {s : State} (hs : s.holds B L) (c : WCtx) (force : State → ℕ → State) (hforce : ∀ s a, s.holds B L → (force s a).holds B L) :
    (State.claimCmd s c force).1.holds B L := by
  unfold State.claimCmd; repeat' first | (simp +contextual (maxDischargeDepth := 40) [*]; done) | split | dsimp only | (refine State.forEach_holds ?_ _ _ (fun _ _ _ => ?_)) | (refine State.onlyIf_holds ?_ _ _ (fun _ _ => ?_))

@[simp] theorem State.writeOwn_holds {B : List Host.Cell} {L : List Instr} {s : State} (hs : s.holds B L) (c : WCtx) (d : RegDesc) (j : ℕ) (force : State → ℕ → State) (hforce : ∀ s a, s.holds B L → (force s a).holds B L) :
    (State.writeOwn s c d j force).1.holds B L := by
  unfold State.writeOwn; simp +contextual (maxDischargeDepth := 40) [*]

@[simp] theorem State.writeCal_holds {B : List Host.Cell} {L : List Instr} {s : State} (hs : s.holds B L) (c : WCtx) (d : RegDesc)  :
    (State.writeCal s c d).1.holds B L := by
  unfold State.writeCal; simp +contextual (maxDischargeDepth := 40) [*]

@[simp] theorem State.writeChan_holds {B : List Host.Cell} {L : List Instr} {s : State} (hs : s.holds B L) (c : WCtx) (d : RegDesc)  :
    (State.writeChan s c d).1.holds B L := by
  unfold State.writeChan; simp +contextual (maxDischargeDepth := 40) [*]

@[simp] theorem State.writePhase_holds {B : List Host.Cell} {L : List Instr} {s : State} (hs : s.holds B L) (c : WCtx) (d : RegDesc)  :
    (State.writePhase s c d).1.holds B L := by
  unfold State.writePhase; simp +contextual (maxDischargeDepth := 40) [*]

@[simp] theorem State.writeSrc_holds {B : List Host.Cell} {L : List Instr} {s : State} (hs : s.holds B L) (c : WCtx) (d : RegDesc) (n : ℕ)  :
    (State.writeSrc s c d n).1.holds B L := by
  unfold State.writeSrc; repeat' first | (simp +contextual (maxDischargeDepth := 40) [*]; done) | (have hu := State.takePlace_holds hs _ _ _ _ ‹_ = some _›; simp +contextual (maxDischargeDepth := 40) [*]; done) | split | dsimp only | (refine State.forEach_holds ?_ _ _ (fun _ _ _ => ?_)) | (refine State.onlyIf_holds ?_ _ _ (fun _ _ => ?_))

@[simp] theorem State.writeTrig_holds {B : List Host.Cell} {L : List Instr} {s : State} (hs : s.holds B L) (c : WCtx) (d : RegDesc) (j : ℕ)  :
    (State.writeTrig s c d j).1.holds B L := by
  unfold State.writeTrig; simp +contextual (maxDischargeDepth := 40) [*]

@[simp] theorem State.writeSync_holds {B : List Host.Cell} {L : List Instr} {s : State} (hs : s.holds B L) (c : WCtx) (d : RegDesc)  :
    (State.writeSync s c d).1.holds B L := by
  unfold State.writeSync; simp +contextual (maxDischargeDepth := 40) [*]

@[simp] theorem State.writeMask_holds {B : List Host.Cell} {L : List Instr} {s : State} (hs : s.holds B L) (c : WCtx) (d : RegDesc)  :
    (State.writeMask s c d).1.holds B L := by
  unfold State.writeMask; repeat' first | (simp +contextual (maxDischargeDepth := 40) [*]; done) | split | dsimp only | (refine State.forEach_holds ?_ _ _ (fun _ _ _ => ?_)) | (refine State.onlyIf_holds ?_ _ _ (fun _ _ => ?_))

@[simp] theorem State.writeSeq_holds {B : List Host.Cell} {L : List Instr} {s : State} (hs : s.holds B L) (c : WCtx) (d : RegDesc)  :
    (State.writeSeq s c d).1.holds B L := by
  unfold State.writeSeq; simp +contextual (maxDischargeDepth := 40) [*]

@[simp] theorem State.writeCourse_holds {B : List Host.Cell} {L : List Instr} {s : State} (hs : s.holds B L) (c : WCtx) (d : RegDesc)  :
    (State.writeCourse s c d).1.holds B L := by
  unfold State.writeCourse; simp +contextual (maxDischargeDepth := 40) [*]

@[simp] theorem State.writeQueue_holds {B : List Host.Cell} {L : List Instr} {s : State} (hs : s.holds B L) (c : WCtx) (d : RegDesc) (q : ℕ)  :
    (State.writeQueue s c d q).1.holds B L := by
  unfold State.writeQueue; simp +contextual (maxDischargeDepth := 40) [*]

@[simp] theorem State.writeTick_holds {B : List Host.Cell} {L : List Instr} {s : State} (hs : s.holds B L) (c : WCtx) (d : RegDesc) (n : ℕ)  :
    (State.writeTick s c d n).1.holds B L := by
  unfold State.writeTick; simp +contextual (maxDischargeDepth := 40) [*]

@[simp] theorem State.submitCmd_holds {B : List Host.Cell} {L : List Instr} {s : State} (hs : s.holds B L) (c : WCtx)  :
    (State.submitCmd s c).1.holds B L := by
  unfold State.submitCmd; repeat' first | (simp +contextual (maxDischargeDepth := 40) [*]; done) | split | dsimp only | (refine State.forEach_holds ?_ _ _ (fun _ _ _ => ?_)) | (refine State.onlyIf_holds ?_ _ _ (fun _ _ => ?_))

@[simp] theorem State.writeSched_holds {B : List Host.Cell} {L : List Instr} {s : State} (hs : s.holds B L) (c : WCtx) (d : RegDesc) (j : ℕ)  :
    (State.writeSched s c d j).1.holds B L := by
  unfold State.writeSched; simp +contextual (maxDischargeDepth := 40) [*]

@[simp] theorem State.writeTdc_holds {B : List Host.Cell} {L : List Instr} {s : State} (hs : s.holds B L) (c : WCtx) (d : RegDesc) (j : ℕ)  :
    (State.writeTdc s c d j).1.holds B L := by
  unfold State.writeTdc; simp +contextual (maxDischargeDepth := 40) [*]

@[simp] theorem State.writeRef_holds {B : List Host.Cell} {L : List Instr} {s : State} (hs : s.holds B L) (c : WCtx) (d : RegDesc) (k : ℕ)  :
    (State.writeRef s c d k).1.holds B L := by
  unfold State.writeRef; simp +contextual (maxDischargeDepth := 40) [*]

@[simp] theorem State.writeRefsel_holds {B : List Host.Cell} {L : List Instr} {s : State} (hs : s.holds B L) (c : WCtx) (d : RegDesc) (j : ℕ)  :
    (State.writeRefsel s c d j).1.holds B L := by
  unfold State.writeRefsel; simp +contextual (maxDischargeDepth := 40) [*]

@[simp] theorem State.writeServo_holds {B : List Host.Cell} {L : List Instr} {s : State} (hs : s.holds B L) (c : WCtx) (d : RegDesc)  :
    (State.writeServo s c d).1.holds B L := by
  unfold State.writeServo; simp +contextual (maxDischargeDepth := 40) [*]

@[simp] theorem State.writeApllA_holds {B : List Host.Cell} {L : List Instr} {s : State} (hs : s.holds B L) (c : WCtx) (d : RegDesc)  :
    (State.writeApllA s c d).1.holds B L := by
  unfold State.writeApllA; simp +contextual (maxDischargeDepth := 40) [*]

@[simp] theorem State.writeAux_holds {B : List Host.Cell} {L : List Instr} {s : State} (hs : s.holds B L) (c : WCtx) (d : RegDesc)  :
    (State.writeAux s c d).1.holds B L := by
  unfold State.writeAux; simp +contextual (maxDischargeDepth := 40) [*]

@[simp] theorem State.writeTsc_holds {B : List Host.Cell} {L : List Instr} {s : State} (hs : s.holds B L) (c : WCtx) (d : RegDesc)  :
    (State.writeTsc s c d).1.holds B L := by
  unfold State.writeTsc; repeat' first | (simp +contextual (maxDischargeDepth := 40) [*]; done) | split | dsimp only | (refine State.forEach_holds ?_ _ _ (fun _ _ _ => ?_)) | (refine State.onlyIf_holds ?_ _ _ (fun _ _ => ?_))

@[simp] theorem State.writeDomain_holds {B : List Host.Cell} {L : List Instr} {s : State} (hs : s.holds B L) (c : WCtx) (d : RegDesc)  :
    (State.writeDomain s c d).1.holds B L := by
  unfold State.writeDomain; simp +contextual (maxDischargeDepth := 40) [*]

@[simp] theorem State.writeEave_holds {B : List Host.Cell} {L : List Instr} {s : State} (hs : s.holds B L) (c : WCtx) (d : RegDesc)  :
    (State.writeEave s c d).1.holds B L := by
  unfold State.writeEave; repeat' first | (simp +contextual (maxDischargeDepth := 40) [*]; done) | split | dsimp only | (refine State.forEach_holds ?_ _ _ (fun _ _ _ => ?_)) | (refine State.onlyIf_holds ?_ _ _ (fun _ _ => ?_))

@[simp] theorem State.writeGutter_holds {B : List Host.Cell} {L : List Instr} {s : State} (hs : s.holds B L) (c : WCtx) (d : RegDesc) (j : ℕ)  :
    (State.writeGutter s c d j).1.holds B L := by
  unfold State.writeGutter; simp +contextual (maxDischargeDepth := 40) [*]

@[simp] theorem State.freeList_holds {B : List Host.Cell} {L : List Instr} {s : State} (hs : s.holds B L) (n : ℕ)  :
    (State.freeList s n).2.holds B L := by
  unfold State.freeList; simp +contextual (maxDischargeDepth := 40) [*]

@[simp] theorem State.writeFlash_holds {B : List Host.Cell} {L : List Instr} {s : State} (hs : s.holds B L) (c : WCtx) (d : RegDesc) (bytes : Option (List ℕ)) (v : Option VerifyResult)  :
    (State.writeFlash s c d bytes v).1.holds B L := by
  unfold State.writeFlash; repeat' first | (simp +contextual (maxDischargeDepth := 40) [*]; done) | (have hu := State.store_holds hs _ _ ‹_ = some _›; simp +contextual (maxDischargeDepth := 40) [*]; done) | split | dsimp only | (refine State.forEach_holds ?_ _ _ (fun _ _ _ => ?_)) | (refine State.onlyIf_holds ?_ _ _ (fun _ _ => ?_))

@[simp] theorem State.writeHostq_holds {B : List Host.Cell} {L : List Instr} {s : State} (hs : s.holds B L) (c : WCtx) (d : RegDesc) (r : ℕ)  :
    (State.writeHostq s c d r).1.holds B L := by
  unfold State.writeHostq; simp +contextual (maxDischargeDepth := 40) [*]

@[simp] theorem State.writeRdg_holds {B : List Host.Cell} {L : List Instr} {s : State} (hs : s.holds B L) (c : WCtx) (d : RegDesc)  :
    (State.writeRdg s c d).1.holds B L := by
  unfold State.writeRdg; simp +contextual (maxDischargeDepth := 40) [*]

@[simp] theorem State.writeEth_holds {B : List Host.Cell} {L : List Instr} {s : State} (hs : s.holds B L) (c : WCtx) (d : RegDesc)  :
    (State.writeEth s c d).1.holds B L := by
  unfold State.writeEth; simp +contextual (maxDischargeDepth := 40) [*]

@[simp] theorem State.writeXo_holds {B : List Host.Cell} {L : List Instr} {s : State} (hs : s.holds B L) (c : WCtx) (d : RegDesc)  :
    (State.writeXo s c d).1.holds B L := by
  unfold State.writeXo; simp +contextual (maxDischargeDepth := 40) [*]

@[simp] theorem Extra.force_holds {B : List Host.Cell} {L : List Instr} {x1 : State} (hx1 : x1.holds B L) (self : Extra) (x2 : ℕ) (hself : ∀ s a, s.holds B L → (self.force s a).holds B L) :
    (Extra.force self x1 x2).holds B L := by
  unfold Extra.force; simp +contextual (maxDischargeDepth := 40) [*]

@[simp] theorem State.writeBody_holds {B : List Host.Cell} {L : List Instr} {s : State} (hs : s.holds B L) (c : WCtx) (k : Kind) (d : RegDesc) (j : ℕ) (x : Extra) (hx : ∀ s a, s.holds B L → (x.force s a).holds B L) :
    (State.writeBody s c k d j x).1.holds B L := by
  unfold State.writeBody; repeat' first | (simp +contextual (maxDischargeDepth := 40) [*]; done) | split | dsimp only | (refine State.forEach_holds ?_ _ _ (fun _ _ _ => ?_)) | (refine State.onlyIf_holds ?_ _ _ (fun _ _ => ?_))

@[simp] theorem State.writeReg_holds {B : List Host.Cell} {L : List Instr} {s : State} (hs : s.holds B L) (c : WCtx) (k : Kind) (d : RegDesc) (j : ℕ) (x : Extra) (hx : ∀ s a, s.holds B L → (x.force s a).holds B L) :
    (State.writeReg s c k d j x).1.holds B L := by
  unfold State.writeReg; simp +contextual (maxDischargeDepth := 40) [*]

end Sys2Proof.Machine
end

