-- ==== Sys2Proof/Laws/FrameRelease.lean ====
section
/-! SUPPORT. The operations of Release leave BAR2 and the queue of waiting commands alone. -/

namespace Sys2Proof.Machine

set_option linter.unusedTactic false
set_option linter.unreachableTactic false

@[simp] theorem State.resetReg_holds {B : List Host.Cell} {L : List Instr} {s : State} (hs : s.holds B L) (p : ℕ) (d : RegDesc) (j : ℕ)  :
    (State.resetReg s p d j).holds B L := by
  unfold State.resetReg; simp +contextual (maxDischargeDepth := 40) [*]

@[simp] theorem State.resetRegs_holds {B : List Host.Cell} {L : List Instr} {s : State} (hs : s.holds B L) (p : ℕ) (sel : ℕ → ℕ → Bool)  :
    (State.resetRegs s p sel).holds B L := by
  unfold State.resetRegs; repeat' first | (simp +contextual (maxDischargeDepth := 40) [*]; done) | split | dsimp only | (refine State.forEach_holds ?_ _ _ (fun _ _ _ => ?_)) | (refine State.onlyIf_holds ?_ _ _ (fun _ _ => ?_))

@[simp] theorem State.seqForced_holds {B : List Host.Cell} {L : List Instr} {s : State} (hs : s.holds B L) (q : ℕ)  :
    (State.seqForced s q).holds B L := by
  unfold State.seqForced; simp +contextual (maxDischargeDepth := 40) [*]

@[simp] theorem State.measForced_holds {B : List Host.Cell} {L : List Instr} {s : State} (hs : s.holds B L)  :
    (State.measForced s).holds B L := by
  unfold State.measForced; simp +contextual (maxDischargeDepth := 40) [*]

@[simp] theorem State.pageForced_holds {B : List Host.Cell} {L : List Instr} {s : State} (hs : s.holds B L) (agent : ℕ) (p : ℕ)  :
    (State.pageForced s agent p).holds B L := by
  unfold State.pageForced; repeat' first | (simp +contextual (maxDischargeDepth := 40) [*]; done) | split | dsimp only | (refine State.forEach_holds ?_ _ _ (fun _ _ _ => ?_)) | (refine State.onlyIf_holds ?_ _ _ (fun _ _ => ?_))

@[simp] theorem State.dropWrites_holds {B : List Host.Cell} {L : List Instr} {s : State} (hs : s.holds B L) (p : ℕ) (lane : ℕ)  :
    (State.dropWrites s p lane).holds B L := by
  unfold State.dropWrites; simp +contextual (maxDischargeDepth := 40) [*]

@[simp] theorem State.pageReset_holds {B : List Host.Cell} {L : List Instr} {s : State} (hs : s.holds B L) (agent : ℕ) (p : ℕ)  :
    (State.pageReset s agent p).holds B L := by
  unfold State.pageReset; repeat' first | (simp +contextual (maxDischargeDepth := 40) [*]; done) | split | dsimp only | (refine State.forEach_holds ?_ _ _ (fun _ _ _ => ?_)) | (refine State.onlyIf_holds ?_ _ _ (fun _ _ => ?_))

@[simp] theorem State.lineReset_holds {B : List Host.Cell} {L : List Instr} {s : State} (hs : s.holds B L) (n : ℕ)  :
    (State.lineReset s n).holds B L := by
  unfold State.lineReset; simp +contextual (maxDischargeDepth := 40) [*]

@[simp] theorem State.tickReset_holds {B : List Host.Cell} {L : List Instr} {s : State} (hs : s.holds B L) (n : ℕ)  :
    (State.tickReset s n).holds B L := by
  unfold State.tickReset; simp +contextual (maxDischargeDepth := 40) [*]

@[simp] theorem State.chanReset_holds {B : List Host.Cell} {L : List Instr} {s : State} (hs : s.holds B L) (c : ℕ)  :
    (State.chanReset s c).holds B L := by
  unfold State.chanReset; simp +contextual (maxDischargeDepth := 40) [*]

@[simp] theorem State.chanForced_holds {B : List Host.Cell} {L : List Instr} {s : State} (hs : s.holds B L) (c : ℕ)  :
    (State.chanForced s c).holds B L := by
  unfold State.chanForced; simp +contextual (maxDischargeDepth := 40) [*]

@[simp] theorem State.ringReset_holds {B : List Host.Cell} {L : List Instr} {s : State} (hs : s.holds B L) (r : ℕ)  :
    (State.ringReset s r).holds B L := by
  unfold State.ringReset; simp +contextual (maxDischargeDepth := 40) [*]

@[simp] theorem State.queueReset_holds {B : List Host.Cell} {L : List Instr} {s : State} (hs : s.holds B L) (q : ℕ)  :
    (State.queueReset s q).holds B L := by
  unfold State.queueReset; simp +contextual (maxDischargeDepth := 40) [*]

@[simp] theorem State.forceRelease_holds {B : List Host.Cell} {L : List Instr} {s : State} (hs : s.holds B L) (a : ℕ)  :
    (State.forceRelease s a).holds B L := by
  unfold State.forceRelease; simp +contextual (maxDischargeDepth := 40) [*]

end Sys2Proof.Machine
end

