-- ==== Sys2Proof/Laws/FrameHost.lean ====
section
/-! SUPPORT. The operations of Host leave BAR2 and the queue of waiting commands alone. -/

namespace Sys2Proof.Machine

set_option linter.unusedTactic false
set_option linter.unreachableTactic false

@[simp] theorem State.writeWord_holds {B : List Host.Cell} {L : List Instr} {s : State} (hs : s.holds B L) (path : Path) (page : ℕ) (off : ℕ) (v : ℕ) (k : Kind) (i : ℕ) (d : RegDesc) (j : ℕ) (w : ℕ) (x : Extra) (hx : ∀ s a, s.holds B L → (x.force s a).holds B L) :
    (State.writeWord s path page off v k i d j w x).1.holds B L := by
  unfold State.writeWord; repeat' first | (simp +contextual (maxDischargeDepth := 40) [*]; done) | split | dsimp only | (refine State.forEach_holds ?_ _ _ (fun _ _ _ => ?_)) | (refine State.onlyIf_holds ?_ _ _ (fun _ _ => ?_))

@[simp] theorem State.judge__holds {B : List Host.Cell} {L : List Instr} {s : State} (hs : s.holds B L) (path : Path) (page : ℕ) (off : ℕ) (v : ℕ) (x : Extra) (hx : ∀ s a, s.holds B L → (x.force s a).holds B L) :
    (State.judge_ s path page off v x).1.holds B L := by
  unfold State.judge_; repeat' first | (simp +contextual (maxDischargeDepth := 40) [*]; done) | split | dsimp only | (refine State.forEach_holds ?_ _ _ (fun _ _ _ => ?_)) | (refine State.onlyIf_holds ?_ _ _ (fun _ _ => ?_))

@[simp] theorem State.noteAt_holds {B : List Host.Cell} {L : List Instr} {s : State} (hs : s.holds B L) (path : Path) (page : ℕ) (off : ℕ) (v : ℕ)  :
    (State.noteAt s path page off v).holds B L := by
  unfold State.noteAt; repeat' first | (simp +contextual (maxDischargeDepth := 40) [*]; done) | split | dsimp only | (refine State.forEach_holds ?_ _ _ (fun _ _ _ => ?_)) | (refine State.onlyIf_holds ?_ _ _ (fun _ _ => ?_))

@[simp] theorem State.hostWrite__holds {B : List Host.Cell} {L : List Instr} {s : State} (hs : s.holds B L) (path : Path) (page : ℕ) (off : ℕ) (v : ℕ) (x : Extra) (hx : ∀ s a, s.holds B L → (x.force s a).holds B L) :
    (State.hostWrite_ s path page off v x).1.holds B L := by
  unfold State.hostWrite_; simp +contextual (maxDischargeDepth := 40) [*]

@[simp] theorem State.hostWrite_holds {B : List Host.Cell} {L : List Instr} {s : State} (hs : s.holds B L) (path : Path) (page : ℕ) (off : ℕ) (v : ℕ)  :
    (State.hostWrite s path page off v).1.holds B L := by
  unfold State.hostWrite; simp +contextual (maxDischargeDepth := 40) [*]

@[simp] theorem State.wrote_holds {B : List Host.Cell} {L : List Instr} {s : State} (hs : s.holds B L) (path : Path) (page : ℕ) (off : ℕ) (v : ℕ)  :
    (State.wrote s path page off v).holds B L := by
  unfold State.wrote; simp +contextual (maxDischargeDepth := 40) [*]

@[simp] theorem State.hostRead_holds {B : List Host.Cell} {L : List Instr} {s : State} (hs : s.holds B L) (path : Path) (page : ℕ) (off : ℕ)  :
    (State.hostRead s path page off).2.holds B L := by
  unfold State.hostRead; repeat' first | (simp +contextual (maxDischargeDepth := 40) [*]; done) | split | dsimp only | (refine State.forEach_holds ?_ _ _ (fun _ _ _ => ?_)) | (refine State.onlyIf_holds ?_ _ _ (fun _ _ => ?_))

@[simp] theorem State.readWords_holds {B : List Host.Cell} {L : List Instr} {s : State} (hs : s.holds B L) (path : Path) (page : Nat) (l : List Nat) :
    (s.readWords path page l).2.holds B L := by
  induction l generalizing s with
  | nil => exact hs
  | cons o l ih => exact ih (State.hostRead_holds hs _ _ _)

@[simp] theorem State.writeWords_holds {B : List Host.Cell} {L : List Instr} {s : State} (hs : s.holds B L) (path : Path) (page : Nat) (l : List (Nat × Nat)) :
    (s.writeWords path page l).1.holds B L := by
  induction l generalizing s with
  | nil => exact hs
  | cons e l ih =>
    have h1 := State.hostWrite_holds hs path page e.1 e.2
    have h2 := ih h1
    unfold State.writeWords
    dsimp only
    (repeat' split) <;> assumption

@[simp] theorem State.badAccess_holds {B : List Host.Cell} {L : List Instr} {s : State} (hs : s.holds B L) (addr : ℕ) (size : ℕ) (isRead : Bool)  :
    (State.badAccess s addr size isRead).holds B L := by
  unfold State.badAccess; simp +contextual (maxDischargeDepth := 40) [*]

@[simp] theorem State.spiRead_holds {B : List Host.Cell} {L : List Instr} {s : State} (hs : s.holds B L) (addr : ℕ) (n : ℕ)  :
    (State.spiRead s addr n).2.holds B L := by
  unfold State.spiRead
  refine foldl_keeps (fun a : List Nat × State => a.2.holds B L) _ (fun a k h => ?_) _ _ hs
  repeat' first | (simp +contextual (maxDischargeDepth := 40) [*]; done) | split | dsimp only

@[simp] theorem State.i2c_holds {B : List Host.Cell} {L : List Instr} {s : State} (hs : s.holds B L) (off : ℕ) (data : List ℕ) (nread : ℕ)  :
    (State.i2c s off data nread).holds B L := by
  unfold State.i2c; simp +contextual (maxDischargeDepth := 40) [*]

@[simp] theorem State.complete_holds {B : List Host.Cell} {L : List Instr} {s : State} (hs : s.holds B L) (r : ℕ) (tag : ℕ) (op : ℕ) (off : ℕ) (data : ℕ) (v : Verdict)  :
    (State.complete s r tag op off data v).holds B L := by
  unfold State.complete; simp +contextual (maxDischargeDepth := 40) [*]

@[simp] theorem State.commandRun_holds {B : List Host.Cell} {L : List Instr} {s : State} (hs : s.holds B L) (r : ℕ) (tag : ℕ) (op : ℕ) (off : ℕ) (f : State → State × ℕ × Verdict) (hf : ∀ s, s.holds B L → (f s).1.holds B L) :
    (State.commandRun s r tag op off f).holds B L := by
  unfold State.commandRun; simp +contextual (maxDischargeDepth := 40) [*]

end Sys2Proof.Machine
end

