-- ==== Sys2Proof/Laws/FrameRows.lean ====
section
/-! SUPPORT. The operations of Rows leave BAR2 and the queue of waiting commands alone. -/

namespace Sys2Proof.Machine

set_option linter.unusedTactic false
set_option linter.unreachableTactic false

theorem execRegisterWrite_holds {B : List Host.Cell} {L : List Instr} {s : State} (hs : s.holds B L) (path : Path) (page : ℕ) (off : ℕ) (v : ℕ)  :
    ∀ u, execRegisterWrite path page off v s = .next u → u.holds B L := by
  intro u ht; unfold execRegisterWrite at ht
  refine guarded_holds (fun s hs => ?_) hs ht
  repeat' first | (simp +contextual (maxDischargeDepth := 40) [*]; done) | split | dsimp only | (refine State.forEach_holds ?_ _ _ (fun _ _ _ => ?_)) | (refine State.onlyIf_holds ?_ _ _ (fun _ _ => ?_))

theorem execStagedWordWrite_holds {B : List Host.Cell} {L : List Instr} {s : State} (hs : s.holds B L) (path : Path) (page : ℕ) (off : ℕ) (v : ℕ)  :
    ∀ u, execStagedWordWrite path page off v s = .next u → u.holds B L := by
  intro u ht; unfold execStagedWordWrite at ht
  refine guarded_holds (fun s hs => ?_) hs ht
  repeat' first | (simp +contextual (maxDischargeDepth := 40) [*]; done) | split | dsimp only | (refine State.forEach_holds ?_ _ _ (fun _ _ _ => ?_)) | (refine State.onlyIf_holds ?_ _ _ (fun _ _ => ?_))

theorem execLatchingRead_holds {B : List Host.Cell} {L : List Instr} {s : State} (hs : s.holds B L) (path : Path) (page : ℕ) (off : ℕ)  :
    ∀ u, execLatchingRead path page off s = .next u → u.holds B L := by
  intro u ht; unfold execLatchingRead at ht
  refine guarded_holds (fun s hs => ?_) hs ht
  repeat' first | (simp +contextual (maxDischargeDepth := 40) [*]; done) | split | dsimp only | (refine State.forEach_holds ?_ _ _ (fun _ _ _ => ?_)) | (refine State.onlyIf_holds ?_ _ _ (fun _ _ => ?_))

theorem execBadAccess_holds {B : List Host.Cell} {L : List Instr} {s : State} (hs : s.holds B L) (addr : ℕ) (size : ℕ) (isRead : Bool)  :
    ∀ u, execBadAccess addr size isRead s = .next u → u.holds B L := by
  intro u ht; unfold execBadAccess at ht
  refine guarded_holds (fun s hs => ?_) hs ht
  repeat' first | (simp +contextual (maxDischargeDepth := 40) [*]; done) | split | dsimp only | (refine State.forEach_holds ?_ _ _ (fun _ _ _ => ?_)) | (refine State.onlyIf_holds ?_ _ _ (fun _ _ => ?_))

theorem execI2cTransaction_holds {B : List Host.Cell} {L : List Instr} {s : State} (hs : s.holds B L) (off : ℕ) (data : List ℕ) (nread : ℕ)  :
    ∀ u, execI2cTransaction off data nread s = .next u → u.holds B L := by
  intro u ht; unfold execI2cTransaction at ht
  refine guarded_holds (fun s hs => ?_) hs ht
  repeat' first | (simp +contextual (maxDischargeDepth := 40) [*]; done) | split | dsimp only | (refine State.forEach_holds ?_ _ _ (fun _ _ _ => ?_)) | (refine State.onlyIf_holds ?_ _ _ (fun _ _ => ?_))

theorem execCommandWrite32_holds {B : List Host.Cell} {L : List Instr} {s : State} (hs : s.holds B L) (r : ℕ) (tag : ℕ) (page : ℕ) (off : ℕ) (v : ℕ)  :
    ∀ u, execCommandWrite32 r tag page off v s = .next u → u.holds B L := by
  intro u ht; unfold execCommandWrite32 at ht
  refine guarded_holds (fun s hs => ?_) hs ht
  repeat' first | (simp +contextual (maxDischargeDepth := 40) [*]; done) | split | dsimp only | (refine State.forEach_holds ?_ _ _ (fun _ _ _ => ?_)) | (refine State.onlyIf_holds ?_ _ _ (fun _ _ => ?_))

theorem execCommandRead32_holds {B : List Host.Cell} {L : List Instr} {s : State} (hs : s.holds B L) (r : ℕ) (tag : ℕ) (page : ℕ) (off : ℕ)  :
    ∀ u, execCommandRead32 r tag page off s = .next u → u.holds B L := by
  intro u ht; unfold execCommandRead32 at ht
  refine guarded_holds (fun s hs => ?_) hs ht
  repeat' first | (simp +contextual (maxDischargeDepth := 40) [*]; done) | split | dsimp only | (refine State.forEach_holds ?_ _ _ (fun _ _ _ => ?_)) | (refine State.onlyIf_holds ?_ _ _ (fun _ _ => ?_))

theorem execCommandWrite128_holds {B : List Host.Cell} {L : List Instr} {s : State} (hs : s.holds B L) (r : ℕ) (tag : ℕ) (page : ℕ) (off : ℕ) (v : ℕ)  :
    ∀ u, execCommandWrite128 r tag page off v s = .next u → u.holds B L := by
  intro u ht; unfold execCommandWrite128 at ht
  refine guarded_holds (fun s hs => ?_) hs ht
  repeat' first | (simp +contextual (maxDischargeDepth := 40) [*]; done) | split | dsimp only | (refine State.forEach_holds ?_ _ _ (fun _ _ _ => ?_)) | (refine State.onlyIf_holds ?_ _ _ (fun _ _ => ?_))

theorem execCommandRead128_holds {B : List Host.Cell} {L : List Instr} {s : State} (hs : s.holds B L) (r : ℕ) (tag : ℕ) (page : ℕ) (off : ℕ)  :
    ∀ u, execCommandRead128 r tag page off s = .next u → u.holds B L := by
  intro u ht; unfold execCommandRead128 at ht
  refine guarded_holds (fun s hs => ?_) hs ht
  repeat' first | (simp +contextual (maxDischargeDepth := 40) [*]; done) | split | dsimp only | (refine State.forEach_holds ?_ _ _ (fun _ _ _ => ?_)) | (refine State.onlyIf_holds ?_ _ _ (fun _ _ => ?_))

theorem execFence_holds {B : List Host.Cell} {L : List Instr} {s : State} (hs : s.holds B L) (r : ℕ) (tag : ℕ)  :
    ∀ u, execFence r tag s = .next u → u.holds B L := by
  intro u ht; unfold execFence at ht
  refine guarded_holds (fun s hs => ?_) hs ht
  repeat' first | (simp +contextual (maxDischargeDepth := 40) [*]; done) | split | dsimp only | (refine State.forEach_holds ?_ _ _ (fun _ _ _ => ?_)) | (refine State.onlyIf_holds ?_ _ _ (fun _ _ => ?_))

theorem execLeaseKick_holds {B : List Host.Cell} {L : List Instr} {s : State} (hs : s.holds B L) (r : ℕ) (tag : ℕ)  :
    ∀ u, execLeaseKick r tag s = .next u → u.holds B L := by
  intro u ht; unfold execLeaseKick at ht
  refine guarded_holds (fun s hs => ?_) hs ht
  repeat' first | (simp +contextual (maxDischargeDepth := 40) [*]; done) | split | dsimp only | (refine State.forEach_holds ?_ _ _ (fun _ _ _ => ?_)) | (refine State.onlyIf_holds ?_ _ _ (fun _ _ => ?_))

theorem execCommandNop_holds {B : List Host.Cell} {L : List Instr} {s : State} (hs : s.holds B L) (r : ℕ) (tag : ℕ)  :
    ∀ u, execCommandNop r tag s = .next u → u.holds B L := by
  intro u ht; unfold execCommandNop at ht
  refine guarded_holds (fun s hs => ?_) hs ht
  repeat' first | (simp +contextual (maxDischargeDepth := 40) [*]; done) | split | dsimp only | (refine State.forEach_holds ?_ _ _ (fun _ _ _ => ?_)) | (refine State.onlyIf_holds ?_ _ _ (fun _ _ => ?_))

theorem execGo_holds {B : List Host.Cell} {L : List Instr} {s : State} (hs : s.holds B L) (path : Path) (page : ℕ) (lane : ℕ) (v : ℕ)  :
    ∀ u, execGo path page lane v s = .next u → u.holds B L := by
  intro u ht; unfold execGo at ht
  refine guarded_holds (fun s hs => ?_) hs ht
  repeat' first | (simp +contextual (maxDischargeDepth := 40) [*]; done) | split | dsimp only | (refine State.forEach_holds ?_ _ _ (fun _ _ _ => ?_)) | (refine State.onlyIf_holds ?_ _ _ (fun _ _ => ?_))

theorem execCommitAbort_holds {B : List Host.Cell} {L : List Instr} {s : State} (hs : s.holds B L) (path : Path) (page : ℕ) (lane : ℕ) (v : ℕ)  :
    ∀ u, execCommitAbort path page lane v s = .next u → u.holds B L := by
  intro u ht; unfold execCommitAbort at ht
  refine guarded_holds (fun s hs => ?_) hs ht
  repeat' first | (simp +contextual (maxDischargeDepth := 40) [*]; done) | split | dsimp only | (refine State.forEach_holds ?_ _ _ (fun _ _ _ => ?_)) | (refine State.onlyIf_holds ?_ _ _ (fun _ _ => ?_))

theorem execCommitModeChange_holds {B : List Host.Cell} {L : List Instr} {s : State} (hs : s.holds B L) (path : Path) (page : ℕ) (lane : ℕ) (v : ℕ)  :
    ∀ u, execCommitModeChange path page lane v s = .next u → u.holds B L := by
  intro u ht; unfold execCommitModeChange at ht
  refine guarded_holds (fun s hs => ?_) hs ht
  repeat' first | (simp +contextual (maxDischargeDepth := 40) [*]; done) | split | dsimp only | (refine State.forEach_holds ?_ _ _ (fun _ _ _ => ?_)) | (refine State.onlyIf_holds ?_ _ _ (fun _ _ => ?_))

theorem execCgArm_holds {B : List Host.Cell} {L : List Instr} {s : State} (hs : s.holds B L) (path : Path) (v : ℕ)  :
    ∀ u, execCgArm path v s = .next u → u.holds B L := by
  intro u ht; unfold execCgArm at ht
  refine guarded_holds (fun s hs => ?_) hs ht
  repeat' first | (simp +contextual (maxDischargeDepth := 40) [*]; done) | split | dsimp only | (refine State.forEach_holds ?_ _ _ (fun _ _ _ => ?_)) | (refine State.onlyIf_holds ?_ _ _ (fun _ _ => ?_))

theorem execCgDisarm_holds {B : List Host.Cell} {L : List Instr} {s : State} (hs : s.holds B L) (path : Path) (v : ℕ)  :
    ∀ u, execCgDisarm path v s = .next u → u.holds B L := by
  intro u ht; unfold execCgDisarm at ht
  refine guarded_holds (fun s hs => ?_) hs ht
  repeat' first | (simp +contextual (maxDischargeDepth := 40) [*]; done) | split | dsimp only | (refine State.forEach_holds ?_ _ _ (fun _ _ _ => ?_)) | (refine State.onlyIf_holds ?_ _ _ (fun _ _ => ?_))

theorem execWindowBind_holds {B : List Host.Cell} {L : List Instr} {s : State} (hs : s.holds B L) (path : Path) (off : ℕ) (v : ℕ)  :
    ∀ u, execWindowBind path off v s = .next u → u.holds B L := by
  intro u ht; unfold execWindowBind at ht
  refine guarded_holds (fun s hs => ?_) hs ht
  repeat' first | (simp +contextual (maxDischargeDepth := 40) [*]; done) | split | dsimp only | (refine State.forEach_holds ?_ _ _ (fun _ _ _ => ?_)) | (refine State.onlyIf_holds ?_ _ _ (fun _ _ => ?_))

theorem execOwnerWrite_holds {B : List Host.Cell} {L : List Instr} {s : State} (hs : s.holds B L) (path : Path) (page : ℕ) (v : ℕ)  :
    ∀ u, execOwnerWrite path page v s = .next u → u.holds B L := by
  intro u ht; unfold execOwnerWrite at ht
  refine guarded_holds (fun s hs => ?_) hs ht
  repeat' first | (simp +contextual (maxDischargeDepth := 40) [*]; done) | split | dsimp only | (refine State.forEach_holds ?_ _ _ (fun _ _ _ => ?_)) | (refine State.onlyIf_holds ?_ _ _ (fun _ _ => ?_))

theorem execClaim_holds {B : List Host.Cell} {L : List Instr} {s : State} (hs : s.holds B L) (path : Path) (res : ℕ)  :
    ∀ u, execClaim path res s = .next u → u.holds B L := by
  intro u ht; unfold execClaim at ht
  refine guarded_holds (fun s hs => ?_) hs ht
  repeat' first | (simp +contextual (maxDischargeDepth := 40) [*]; done) | split | dsimp only | (refine State.forEach_holds ?_ _ _ (fun _ _ _ => ?_)) | (refine State.onlyIf_holds ?_ _ _ (fun _ _ => ?_))

theorem execRelease_holds {B : List Host.Cell} {L : List Instr} {s : State} (hs : s.holds B L) (path : Path) (res : ℕ)  :
    ∀ u, execRelease path res s = .next u → u.holds B L := by
  intro u ht; unfold execRelease at ht
  refine guarded_holds (fun s hs => ?_) hs ht
  repeat' first | (simp +contextual (maxDischargeDepth := 40) [*]; done) | split | dsimp only | (refine State.forEach_holds ?_ _ _ (fun _ _ _ => ?_)) | (refine State.onlyIf_holds ?_ _ _ (fun _ _ => ?_))

theorem execQuery_holds {B : List Host.Cell} {L : List Instr} {s : State} (hs : s.holds B L) (path : Path) (res : ℕ) (agent : ℕ)  :
    ∀ u, execQuery path res agent s = .next u → u.holds B L := by
  intro u ht; unfold execQuery at ht
  refine guarded_holds (fun s hs => ?_) hs ht
  repeat' first | (simp +contextual (maxDischargeDepth := 40) [*]; done) | split | dsimp only | (refine State.forEach_holds ?_ _ _ (fun _ _ _ => ?_)) | (refine State.onlyIf_holds ?_ _ _ (fun _ _ => ?_))

theorem execForceRelease_holds {B : List Host.Cell} {L : List Instr} {s : State} (hs : s.holds B L) (path : Path) (res : ℕ) (agent : ℕ)  :
    ∀ u, execForceRelease path res agent s = .next u → u.holds B L := by
  intro u ht; unfold execForceRelease at ht
  refine guarded_holds (fun s hs => ?_) hs ht
  repeat' first | (simp +contextual (maxDischargeDepth := 40) [*]; done) | split | dsimp only | (refine State.forEach_holds ?_ _ _ (fun _ _ _ => ?_)) | (refine State.onlyIf_holds ?_ _ _ (fun _ _ => ?_))

theorem execLeasePeriodWrite_holds {B : List Host.Cell} {L : List Instr} {s : State} (hs : s.holds B L) (path : Path) (w : ℕ) (v : ℕ)  :
    ∀ u, execLeasePeriodWrite path w v s = .next u → u.holds B L := by
  intro u ht; unfold execLeasePeriodWrite at ht
  refine guarded_holds (fun s hs => ?_) hs ht
  repeat' first | (simp +contextual (maxDischargeDepth := 40) [*]; done) | split | dsimp only | (refine State.forEach_holds ?_ _ _ (fun _ _ _ => ?_)) | (refine State.onlyIf_holds ?_ _ _ (fun _ _ => ?_))

theorem execKick_holds {B : List Host.Cell} {L : List Instr} {s : State} (hs : s.holds B L) (path : Path) (w : ℕ) (v : ℕ)  :
    ∀ u, execKick path w v s = .next u → u.holds B L := by
  intro u ht; unfold execKick at ht
  refine guarded_holds (fun s hs => ?_) hs ht
  repeat' first | (simp +contextual (maxDischargeDepth := 40) [*]; done) | split | dsimp only | (refine State.forEach_holds ?_ _ _ (fun _ _ _ => ?_)) | (refine State.onlyIf_holds ?_ _ _ (fun _ _ => ?_))

theorem execRingEnable_holds {B : List Host.Cell} {L : List Instr} {s : State} (hs : s.holds B L) (path : Path) (r : ℕ) (v : ℕ)  :
    ∀ u, execRingEnable path r v s = .next u → u.holds B L := by
  intro u ht; unfold execRingEnable at ht
  refine guarded_holds (fun s hs => ?_) hs ht
  repeat' first | (simp +contextual (maxDischargeDepth := 40) [*]; done) | split | dsimp only | (refine State.forEach_holds ?_ _ _ (fun _ _ _ => ?_)) | (refine State.onlyIf_holds ?_ _ _ (fun _ _ => ?_))

theorem execRingDisable_holds {B : List Host.Cell} {L : List Instr} {s : State} (hs : s.holds B L) (path : Path) (r : ℕ) (v : ℕ)  :
    ∀ u, execRingDisable path r v s = .next u → u.holds B L := by
  intro u ht; unfold execRingDisable at ht
  refine guarded_holds (fun s hs => ?_) hs ht
  repeat' first | (simp +contextual (maxDischargeDepth := 40) [*]; done) | split | dsimp only | (refine State.forEach_holds ?_ _ _ (fun _ _ _ => ?_)) | (refine State.onlyIf_holds ?_ _ _ (fun _ _ => ?_))

theorem execRingCfgWrite_holds {B : List Host.Cell} {L : List Instr} {s : State} (hs : s.holds B L) (path : Path) (r : ℕ) (v : ℕ)  :
    ∀ u, execRingCfgWrite path r v s = .next u → u.holds B L := by
  intro u ht; unfold execRingCfgWrite at ht
  refine guarded_holds (fun s hs => ?_) hs ht
  repeat' first | (simp +contextual (maxDischargeDepth := 40) [*]; done) | split | dsimp only | (refine State.forEach_holds ?_ _ _ (fun _ _ _ => ?_)) | (refine State.onlyIf_holds ?_ _ _ (fun _ _ => ?_))

theorem execDoorbell_holds {B : List Host.Cell} {L : List Instr} {s : State} (hs : s.holds B L) (path : Path) (r : ℕ) (v : ℕ)  :
    ∀ u, execDoorbell path r v s = .next u → u.holds B L := by
  intro u ht; unfold execDoorbell at ht
  refine guarded_holds (fun s hs => ?_) hs ht
  repeat' first | (simp +contextual (maxDischargeDepth := 40) [*]; done) | split | dsimp only | (refine State.forEach_holds ?_ _ _ (fun _ _ _ => ?_)) | (refine State.onlyIf_holds ?_ _ _ (fun _ _ => ?_))

theorem execFreeze_holds {B : List Host.Cell} {L : List Instr} {s : State} (hs : s.holds B L) (path : Path)  :
    ∀ u, execFreeze path s = .next u → u.holds B L := by
  intro u ht; unfold execFreeze at ht
  refine guarded_holds (fun s hs => ?_) hs ht
  repeat' first | (simp +contextual (maxDischargeDepth := 40) [*]; done) | split | dsimp only | (refine State.forEach_holds ?_ _ _ (fun _ _ _ => ?_)) | (refine State.onlyIf_holds ?_ _ _ (fun _ _ => ?_))

theorem execSnapshotRelease_holds {B : List Host.Cell} {L : List Instr} {s : State} (hs : s.holds B L) (path : Path)  :
    ∀ u, execSnapshotRelease path s = .next u → u.holds B L := by
  intro u ht; unfold execSnapshotRelease at ht
  refine guarded_holds (fun s hs => ?_) hs ht
  repeat' first | (simp +contextual (maxDischargeDepth := 40) [*]; done) | split | dsimp only | (refine State.forEach_holds ?_ _ _ (fun _ _ _ => ?_)) | (refine State.onlyIf_holds ?_ _ _ (fun _ _ => ?_))

theorem execSwapLane_holds {B : List Host.Cell} {L : List Instr} {s : State} (hs : s.holds B L) (path : Path) (q : ℕ) (lane : ℕ)  :
    ∀ u, execSwapLane path q lane s = .next u → u.holds B L := by
  intro u ht; unfold execSwapLane at ht
  refine guarded_holds (fun s hs => ?_) hs ht
  repeat' first | (simp +contextual (maxDischargeDepth := 40) [*]; done) | split | dsimp only | (refine State.forEach_holds ?_ _ _ (fun _ _ _ => ?_)) | (refine State.onlyIf_holds ?_ _ _ (fun _ _ => ?_))

theorem execResweepSpare_holds {B : List Host.Cell} {L : List Instr} {s : State} (hs : s.holds B L) (path : Path) (q : ℕ)  :
    ∀ u, execResweepSpare path q s = .next u → u.holds B L := by
  intro u ht; unfold execResweepSpare at ht
  refine guarded_holds (fun s hs => ?_) hs ht
  repeat' first | (simp +contextual (maxDischargeDepth := 40) [*]; done) | split | dsimp only | (refine State.forEach_holds ?_ _ _ (fun _ _ _ => ?_)) | (refine State.onlyIf_holds ?_ _ _ (fun _ _ => ?_))

theorem execRetest_holds {B : List Host.Cell} {L : List Instr} {s : State} (hs : s.holds B L) (path : Path) (q : ℕ) (e : ℕ)  :
    ∀ u, execRetest path q e s = .next u → u.holds B L := by
  intro u ht; unfold execRetest at ht
  refine guarded_holds (fun s hs => ?_) hs ht
  repeat' first | (simp +contextual (maxDischargeDepth := 40) [*]; done) | split | dsimp only | (refine State.forEach_holds ?_ _ _ (fun _ _ _ => ?_)) | (refine State.onlyIf_holds ?_ _ _ (fun _ _ => ?_))

theorem execLoopEnable_holds {B : List Host.Cell} {L : List Instr} {s : State} (hs : s.holds B L) (path : Path) (v : ℕ)  :
    ∀ u, execLoopEnable path v s = .next u → u.holds B L := by
  intro u ht; unfold execLoopEnable at ht
  refine guarded_holds (fun s hs => ?_) hs ht
  repeat' first | (simp +contextual (maxDischargeDepth := 40) [*]; done) | split | dsimp only | (refine State.forEach_holds ?_ _ _ (fun _ _ _ => ?_)) | (refine State.onlyIf_holds ?_ _ _ (fun _ _ => ?_))

theorem execChannelFlush_holds {B : List Host.Cell} {L : List Instr} {s : State} (hs : s.holds B L) (path : Path) (c : ℕ)  :
    ∀ u, execChannelFlush path c s = .next u → u.holds B L := by
  intro u ht; unfold execChannelFlush at ht
  refine guarded_holds (fun s hs => ?_) hs ht
  repeat' first | (simp +contextual (maxDischargeDepth := 40) [*]; done) | split | dsimp only | (refine State.forEach_holds ?_ _ _ (fun _ _ _ => ?_)) | (refine State.onlyIf_holds ?_ _ _ (fun _ _ => ?_))

theorem execChannelSafeExit_holds {B : List Host.Cell} {L : List Instr} {s : State} (hs : s.holds B L) (path : Path) (c : ℕ)  :
    ∀ u, execChannelSafeExit path c s = .next u → u.holds B L := by
  intro u ht; unfold execChannelSafeExit at ht
  refine guarded_holds (fun s hs => ?_) hs ht
  repeat' first | (simp +contextual (maxDischargeDepth := 40) [*]; done) | split | dsimp only | (refine State.forEach_holds ?_ _ _ (fun _ _ _ => ?_)) | (refine State.onlyIf_holds ?_ _ _ (fun _ _ => ?_))

theorem execTlSrcWrite_holds {B : List Host.Cell} {L : List Instr} {s : State} (hs : s.holds B L) (path : Path) (n : ℕ) (v : ℕ)  :
    ∀ u, execTlSrcWrite path n v s = .next u → u.holds B L := by
  intro u ht; unfold execTlSrcWrite at ht
  refine guarded_holds (fun s hs => ?_) hs ht
  repeat' first | (simp +contextual (maxDischargeDepth := 40) [*]; done) | split | dsimp only | (refine State.forEach_holds ?_ _ _ (fun _ _ _ => ?_)) | (refine State.onlyIf_holds ?_ _ _ (fun _ _ => ?_))

theorem execTlShapeWrite_holds {B : List Host.Cell} {L : List Instr} {s : State} (hs : s.holds B L) (path : Path) (n : ℕ) (v : ℕ)  :
    ∀ u, execTlShapeWrite path n v s = .next u → u.holds B L := by
  intro u ht; unfold execTlShapeWrite at ht
  refine guarded_holds (fun s hs => ?_) hs ht
  repeat' first | (simp +contextual (maxDischargeDepth := 40) [*]; done) | split | dsimp only | (refine State.forEach_holds ?_ _ _ (fun _ _ _ => ?_)) | (refine State.onlyIf_holds ?_ _ _ (fun _ _ => ?_))

theorem execFireNow_holds {B : List Host.Cell} {L : List Instr} {s : State} (hs : s.holds B L) (path : Path) (n : ℕ)  :
    ∀ u, execFireNow path n s = .next u → u.holds B L := by
  intro u ht; unfold execFireNow at ht
  refine guarded_holds (fun s hs => ?_) hs ht
  repeat' first | (simp +contextual (maxDischargeDepth := 40) [*]; done) | split | dsimp only | (refine State.forEach_holds ?_ _ _ (fun _ _ _ => ?_)) | (refine State.onlyIf_holds ?_ _ _ (fun _ _ => ?_))

theorem execFireAt_holds {B : List Host.Cell} {L : List Instr} {s : State} (hs : s.holds B L) (path : Path) (n : ℕ)  :
    ∀ u, execFireAt path n s = .next u → u.holds B L := by
  intro u ht; unfold execFireAt at ht
  refine guarded_holds (fun s hs => ?_) hs ht
  repeat' first | (simp +contextual (maxDischargeDepth := 40) [*]; done) | split | dsimp only | (refine State.forEach_holds ?_ _ _ (fun _ _ _ => ?_)) | (refine State.onlyIf_holds ?_ _ _ (fun _ _ => ?_))

theorem execStart_holds {B : List Host.Cell} {L : List Instr} {s : State} (hs : s.holds B L) (path : Path) (q : ℕ)  :
    ∀ u, execStart path q s = .next u → u.holds B L := by
  intro u ht; unfold execStart at ht
  refine guarded_holds (fun s hs => ?_) hs ht
  repeat' first | (simp +contextual (maxDischargeDepth := 40) [*]; done) | split | dsimp only | (refine State.forEach_holds ?_ _ _ (fun _ _ _ => ?_)) | (refine State.onlyIf_holds ?_ _ _ (fun _ _ => ?_))

theorem execStopAtEnd_holds {B : List Host.Cell} {L : List Instr} {s : State} (hs : s.holds B L) (path : Path) (q : ℕ)  :
    ∀ u, execStopAtEnd path q s = .next u → u.holds B L := by
  intro u ht; unfold execStopAtEnd at ht
  refine guarded_holds (fun s hs => ?_) hs ht
  repeat' first | (simp +contextual (maxDischargeDepth := 40) [*]; done) | split | dsimp only | (refine State.forEach_holds ?_ _ _ (fun _ _ _ => ?_)) | (refine State.onlyIf_holds ?_ _ _ (fun _ _ => ?_))

theorem execStopNow_holds {B : List Host.Cell} {L : List Instr} {s : State} (hs : s.holds B L) (path : Path) (q : ℕ)  :
    ∀ u, execStopNow path q s = .next u → u.holds B L := by
  intro u ht; unfold execStopNow at ht
  refine guarded_holds (fun s hs => ?_) hs ht
  repeat' first | (simp +contextual (maxDischargeDepth := 40) [*]; done) | split | dsimp only | (refine State.forEach_holds ?_ _ _ (fun _ _ _ => ?_)) | (refine State.onlyIf_holds ?_ _ _ (fun _ _ => ?_))

theorem execJump_holds {B : List Host.Cell} {L : List Instr} {s : State} (hs : s.holds B L) (path : Path) (q : ℕ)  :
    ∀ u, execJump path q s = .next u → u.holds B L := by
  intro u ht; unfold execJump at ht
  refine guarded_holds (fun s hs => ?_) hs ht
  repeat' first | (simp +contextual (maxDischargeDepth := 40) [*]; done) | split | dsimp only | (refine State.forEach_holds ?_ _ _ (fun _ _ _ => ?_)) | (refine State.onlyIf_holds ?_ _ _ (fun _ _ => ?_))

theorem execClearRequest_holds {B : List Host.Cell} {L : List Instr} {s : State} (hs : s.holds B L) (path : Path) (q : ℕ)  :
    ∀ u, execClearRequest path q s = .next u → u.holds B L := by
  intro u ht; unfold execClearRequest at ht
  refine guarded_holds (fun s hs => ?_) hs ht
  repeat' first | (simp +contextual (maxDischargeDepth := 40) [*]; done) | split | dsimp only | (refine State.forEach_holds ?_ _ _ (fun _ _ _ => ?_)) | (refine State.onlyIf_holds ?_ _ _ (fun _ _ => ?_))

theorem execDisarm_holds {B : List Host.Cell} {L : List Instr} {s : State} (hs : s.holds B L) (path : Path) (q : ℕ)  :
    ∀ u, execDisarm path q s = .next u → u.holds B L := by
  intro u ht; unfold execDisarm at ht
  refine guarded_holds (fun s hs => ?_) hs ht
  repeat' first | (simp +contextual (maxDischargeDepth := 40) [*]; done) | split | dsimp only | (refine State.forEach_holds ?_ _ _ (fun _ _ _ => ?_)) | (refine State.onlyIf_holds ?_ _ _ (fun _ _ => ?_))

theorem execRefillSubmit_holds {B : List Host.Cell} {L : List Instr} {s : State} (hs : s.holds B L) (path : Path) (q : ℕ)  :
    ∀ u, execRefillSubmit path q s = .next u → u.holds B L := by
  intro u ht; unfold execRefillSubmit at ht
  refine guarded_holds (fun s hs => ?_) hs ht
  repeat' first | (simp +contextual (maxDischargeDepth := 40) [*]; done) | split | dsimp only | (refine State.forEach_holds ?_ _ _ (fun _ _ _ => ?_)) | (refine State.onlyIf_holds ?_ _ _ (fun _ _ => ?_))

theorem execRefillFlush_holds {B : List Host.Cell} {L : List Instr} {s : State} (hs : s.holds B L) (path : Path) (q : ℕ)  :
    ∀ u, execRefillFlush path q s = .next u → u.holds B L := by
  intro u ht; unfold execRefillFlush at ht
  refine guarded_holds (fun s hs => ?_) hs ht
  repeat' first | (simp +contextual (maxDischargeDepth := 40) [*]; done) | split | dsimp only | (refine State.forEach_holds ?_ _ _ (fun _ _ _ => ?_)) | (refine State.onlyIf_holds ?_ _ _ (fun _ _ => ?_))

theorem execReadySet_holds {B : List Host.Cell} {L : List Instr} {s : State} (hs : s.holds B L) (path : Path)  :
    ∀ u, execReadySet path s = .next u → u.holds B L := by
  intro u ht; unfold execReadySet at ht
  refine guarded_holds (fun s hs => ?_) hs ht
  repeat' first | (simp +contextual (maxDischargeDepth := 40) [*]; done) | split | dsimp only | (refine State.forEach_holds ?_ _ _ (fun _ _ _ => ?_)) | (refine State.onlyIf_holds ?_ _ _ (fun _ _ => ?_))

theorem execReadyClear_holds {B : List Host.Cell} {L : List Instr} {s : State} (hs : s.holds B L) (path : Path)  :
    ∀ u, execReadyClear path s = .next u → u.holds B L := by
  intro u ht; unfold execReadyClear at ht
  refine guarded_holds (fun s hs => ?_) hs ht
  repeat' first | (simp +contextual (maxDischargeDepth := 40) [*]; done) | split | dsimp only | (refine State.forEach_holds ?_ _ _ (fun _ _ _ => ?_)) | (refine State.onlyIf_holds ?_ _ _ (fun _ _ => ?_))

theorem execValidate_holds {B : List Host.Cell} {L : List Instr} {s : State} (hs : s.holds B L) (path : Path)  :
    ∀ u, execValidate path s = .next u → u.holds B L := by
  intro u ht; unfold execValidate at ht
  refine guarded_holds (fun s hs => ?_) hs ht
  repeat' first | (simp +contextual (maxDischargeDepth := 40) [*]; done) | split | dsimp only | (refine State.forEach_holds ?_ _ _ (fun _ _ _ => ?_)) | (refine State.onlyIf_holds ?_ _ _ (fun _ _ => ?_))

theorem execSubmit_holds {B : List Host.Cell} {L : List Instr} {s : State} (hs : s.holds B L) (path : Path) (q : ℕ)  :
    ∀ u, execSubmit path q s = .next u → u.holds B L := by
  intro u ht; unfold execSubmit at ht
  refine guarded_holds (fun s hs => ?_) hs ht
  repeat' first | (simp +contextual (maxDischargeDepth := 40) [*]; done) | split | dsimp only | (refine State.forEach_holds ?_ _ _ (fun _ _ _ => ?_)) | (refine State.onlyIf_holds ?_ _ _ (fun _ _ => ?_))

theorem execFlush_holds {B : List Host.Cell} {L : List Instr} {s : State} (hs : s.holds B L) (path : Path) (q : ℕ)  :
    ∀ u, execFlush path q s = .next u → u.holds B L := by
  intro u ht; unfold execFlush at ht
  refine guarded_holds (fun s hs => ?_) hs ht
  repeat' first | (simp +contextual (maxDischargeDepth := 40) [*]; done) | split | dsimp only | (refine State.forEach_holds ?_ _ _ (fun _ _ _ => ?_)) | (refine State.onlyIf_holds ?_ _ _ (fun _ _ => ?_))

theorem execQueueSafeExit_holds {B : List Host.Cell} {L : List Instr} {s : State} (hs : s.holds B L) (path : Path)  :
    ∀ u, execQueueSafeExit path s = .next u → u.holds B L := by
  intro u ht; unfold execQueueSafeExit at ht
  refine guarded_holds (fun s hs => ?_) hs ht
  repeat' first | (simp +contextual (maxDischargeDepth := 40) [*]; done) | split | dsimp only | (refine State.forEach_holds ?_ _ _ (fun _ _ _ => ?_)) | (refine State.onlyIf_holds ?_ _ _ (fun _ _ => ?_))

theorem execTickEnable_holds {B : List Host.Cell} {L : List Instr} {s : State} (hs : s.holds B L) (path : Path) (n : ℕ) (v : ℕ)  :
    ∀ u, execTickEnable path n v s = .next u → u.holds B L := by
  intro u ht; unfold execTickEnable at ht
  refine guarded_holds (fun s hs => ?_) hs ht
  repeat' first | (simp +contextual (maxDischargeDepth := 40) [*]; done) | split | dsimp only | (refine State.forEach_holds ?_ _ _ (fun _ _ _ => ?_)) | (refine State.onlyIf_holds ?_ _ _ (fun _ _ => ?_))

theorem execPhaseEnable_holds {B : List Host.Cell} {L : List Instr} {s : State} (hs : s.holds B L) (path : Path) (t : ℕ) (v : ℕ)  :
    ∀ u, execPhaseEnable path t v s = .next u → u.holds B L := by
  intro u ht; unfold execPhaseEnable at ht
  refine guarded_holds (fun s hs => ?_) hs ht
  repeat' first | (simp +contextual (maxDischargeDepth := 40) [*]; done) | split | dsimp only | (refine State.forEach_holds ?_ _ _ (fun _ _ _ => ?_)) | (refine State.onlyIf_holds ?_ _ _ (fun _ _ => ?_))

theorem execRestart_holds {B : List Host.Cell} {L : List Instr} {s : State} (hs : s.holds B L) (path : Path) (t : ℕ)  :
    ∀ u, execRestart path t s = .next u → u.holds B L := by
  intro u ht; unfold execRestart at ht
  refine guarded_holds (fun s hs => ?_) hs ht
  repeat' first | (simp +contextual (maxDischargeDepth := 40) [*]; done) | split | dsimp only | (refine State.forEach_holds ?_ _ _ (fun _ _ _ => ?_)) | (refine State.onlyIf_holds ?_ _ _ (fun _ _ => ?_))

theorem execRecal_holds {B : List Host.Cell} {L : List Instr} {s : State} (hs : s.holds B L) (path : Path) (i : ℕ)  :
    ∀ u, execRecal path i s = .next u → u.holds B L := by
  intro u ht; unfold execRecal at ht
  refine guarded_holds (fun s hs => ?_) hs ht
  repeat' first | (simp +contextual (maxDischargeDepth := 40) [*]; done) | split | dsimp only | (refine State.forEach_holds ?_ _ _ (fun _ _ _ => ?_)) | (refine State.onlyIf_holds ?_ _ _ (fun _ _ => ?_))

theorem execSessionEnable_holds {B : List Host.Cell} {L : List Instr} {s : State} (hs : s.holds B L) (path : Path) (k : ℕ) (v : ℕ)  :
    ∀ u, execSessionEnable path k v s = .next u → u.holds B L := by
  intro u ht; unfold execSessionEnable at ht
  refine guarded_holds (fun s hs => ?_) hs ht
  repeat' first | (simp +contextual (maxDischargeDepth := 40) [*]; done) | split | dsimp only | (refine State.forEach_holds ?_ _ _ (fun _ _ _ => ?_)) | (refine State.onlyIf_holds ?_ _ _ (fun _ _ => ?_))

theorem execGateEnable_holds {B : List Host.Cell} {L : List Instr} {s : State} (hs : s.holds B L) (path : Path) (g : ℕ) (v : ℕ)  :
    ∀ u, execGateEnable path g v s = .next u → u.holds B L := by
  intro u ht; unfold execGateEnable at ht
  refine guarded_holds (fun s hs => ?_) hs ht
  repeat' first | (simp +contextual (maxDischargeDepth := 40) [*]; done) | split | dsimp only | (refine State.forEach_holds ?_ _ _ (fun _ _ _ => ?_)) | (refine State.onlyIf_holds ?_ _ _ (fun _ _ => ?_))

theorem execArm_holds {B : List Host.Cell} {L : List Instr} {s : State} (hs : s.holds B L) (path : Path) (k : ℕ)  :
    ∀ u, execArm path k s = .next u → u.holds B L := by
  intro u ht; unfold execArm at ht
  refine guarded_holds (fun s hs => ?_) hs ht
  repeat' first | (simp +contextual (maxDischargeDepth := 40) [*]; done) | split | dsimp only | (refine State.forEach_holds ?_ _ _ (fun _ _ _ => ?_)) | (refine State.onlyIf_holds ?_ _ _ (fun _ _ => ?_))

theorem execSessionAbort_holds {B : List Host.Cell} {L : List Instr} {s : State} (hs : s.holds B L) (path : Path) (k : ℕ)  :
    ∀ u, execSessionAbort path k s = .next u → u.holds B L := by
  intro u ht; unfold execSessionAbort at ht
  refine guarded_holds (fun s hs => ?_) hs ht
  repeat' first | (simp +contextual (maxDischargeDepth := 40) [*]; done) | split | dsimp only | (refine State.forEach_holds ?_ _ _ (fun _ _ _ => ?_)) | (refine State.onlyIf_holds ?_ _ _ (fun _ _ => ?_))

theorem execGateStart_holds {B : List Host.Cell} {L : List Instr} {s : State} (hs : s.holds B L) (path : Path) (g : ℕ)  :
    ∀ u, execGateStart path g s = .next u → u.holds B L := by
  intro u ht; unfold execGateStart at ht
  refine guarded_holds (fun s hs => ?_) hs ht
  repeat' first | (simp +contextual (maxDischargeDepth := 40) [*]; done) | split | dsimp only | (refine State.forEach_holds ?_ _ _ (fun _ _ _ => ?_)) | (refine State.onlyIf_holds ?_ _ _ (fun _ _ => ?_))

theorem execRefEnable_holds {B : List Host.Cell} {L : List Instr} {s : State} (hs : s.holds B L) (path : Path) (k : ℕ) (v : ℕ)  :
    ∀ u, execRefEnable path k v s = .next u → u.holds B L := by
  intro u ht; unfold execRefEnable at ht
  refine guarded_holds (fun s hs => ?_) hs ht
  repeat' first | (simp +contextual (maxDischargeDepth := 40) [*]; done) | split | dsimp only | (refine State.forEach_holds ?_ _ _ (fun _ _ _ => ?_)) | (refine State.onlyIf_holds ?_ _ _ (fun _ _ => ?_))

theorem execPush_holds {B : List Host.Cell} {L : List Instr} {s : State} (hs : s.holds B L) (path : Path) (k : ℕ)  :
    ∀ u, execPush path k s = .next u → u.holds B L := by
  intro u ht; unfold execPush at ht
  refine guarded_holds (fun s hs => ?_) hs ht
  repeat' first | (simp +contextual (maxDischargeDepth := 40) [*]; done) | split | dsimp only | (refine State.forEach_holds ?_ _ _ (fun _ _ _ => ?_)) | (refine State.onlyIf_holds ?_ _ _ (fun _ _ => ?_))

theorem execAcceptSlew_holds {B : List Host.Cell} {L : List Instr} {s : State} (hs : s.holds B L) (path : Path) (k : ℕ)  :
    ∀ u, execAcceptSlew path k s = .next u → u.holds B L := by
  intro u ht; unfold execAcceptSlew at ht
  refine guarded_holds (fun s hs => ?_) hs ht
  repeat' first | (simp +contextual (maxDischargeDepth := 40) [*]; done) | split | dsimp only | (refine State.forEach_holds ?_ _ _ (fun _ _ _ => ?_)) | (refine State.onlyIf_holds ?_ _ _ (fun _ _ => ?_))

theorem execAcceptStep_holds {B : List Host.Cell} {L : List Instr} {s : State} (hs : s.holds B L) (path : Path) (k : ℕ)  :
    ∀ u, execAcceptStep path k s = .next u → u.holds B L := by
  intro u ht; unfold execAcceptStep at ht
  refine guarded_holds (fun s hs => ?_) hs ht
  repeat' first | (simp +contextual (maxDischargeDepth := 40) [*]; done) | split | dsimp only | (refine State.forEach_holds ?_ _ _ (fun _ _ _ => ?_)) | (refine State.onlyIf_holds ?_ _ _ (fun _ _ => ?_))

theorem execReject_holds {B : List Host.Cell} {L : List Instr} {s : State} (hs : s.holds B L) (path : Path) (k : ℕ)  :
    ∀ u, execReject path k s = .next u → u.holds B L := by
  intro u ht; unfold execReject at ht
  refine guarded_holds (fun s hs => ?_) hs ht
  repeat' first | (simp +contextual (maxDischargeDepth := 40) [*]; done) | split | dsimp only | (refine State.forEach_holds ?_ _ _ (fun _ _ _ => ?_)) | (refine State.onlyIf_holds ?_ _ _ (fun _ _ => ?_))

theorem execClearSuspect_holds {B : List Host.Cell} {L : List Instr} {s : State} (hs : s.holds B L) (path : Path) (k : ℕ)  :
    ∀ u, execClearSuspect path k s = .next u → u.holds B L := by
  intro u ht; unfold execClearSuspect at ht
  refine guarded_holds (fun s hs => ?_) hs ht
  repeat' first | (simp +contextual (maxDischargeDepth := 40) [*]; done) | split | dsimp only | (refine State.forEach_holds ?_ _ _ (fun _ _ _ => ?_)) | (refine State.onlyIf_holds ?_ _ _ (fun _ _ => ?_))

theorem execRequalify_holds {B : List Host.Cell} {L : List Instr} {s : State} (hs : s.holds B L) (path : Path) (k : ℕ)  :
    ∀ u, execRequalify path k s = .next u → u.holds B L := by
  intro u ht; unfold execRequalify at ht
  refine guarded_holds (fun s hs => ?_) hs ht
  repeat' first | (simp +contextual (maxDischargeDepth := 40) [*]; done) | split | dsimp only | (refine State.forEach_holds ?_ _ _ (fun _ _ _ => ?_)) | (refine State.onlyIf_holds ?_ _ _ (fun _ _ => ?_))

theorem execServoModeWrite_holds {B : List Host.Cell} {L : List Instr} {s : State} (hs : s.holds B L) (path : Path) (v : ℕ)  :
    ∀ u, execServoModeWrite path v s = .next u → u.holds B L := by
  intro u ht; unfold execServoModeWrite at ht
  refine guarded_holds (fun s hs => ?_) hs ht
  repeat' first | (simp +contextual (maxDischargeDepth := 40) [*]; done) | split | dsimp only | (refine State.forEach_holds ?_ _ _ (fun _ _ _ => ?_)) | (refine State.onlyIf_holds ?_ _ _ (fun _ _ => ?_))

theorem execStep_holds {B : List Host.Cell} {L : List Instr} {s : State} (hs : s.holds B L) (path : Path)  :
    ∀ u, execStep path s = .next u → u.holds B L := by
  intro u ht; unfold execStep at ht
  refine guarded_holds (fun s hs => ?_) hs ht
  repeat' first | (simp +contextual (maxDischargeDepth := 40) [*]; done) | split | dsimp only | (refine State.forEach_holds ?_ _ _ (fun _ _ _ => ?_)) | (refine State.onlyIf_holds ?_ _ _ (fun _ _ => ?_))

theorem execStepProposed_holds {B : List Host.Cell} {L : List Instr} {s : State} (hs : s.holds B L) (path : Path)  :
    ∀ u, execStepProposed path s = .next u → u.holds B L := by
  intro u ht; unfold execStepProposed at ht
  refine guarded_holds (fun s hs => ?_) hs ht
  repeat' first | (simp +contextual (maxDischargeDepth := 40) [*]; done) | split | dsimp only | (refine State.forEach_holds ?_ _ _ (fun _ _ _ => ?_)) | (refine State.onlyIf_holds ?_ _ _ (fun _ _ => ?_))

theorem execSlewProposed_holds {B : List Host.Cell} {L : List Instr} {s : State} (hs : s.holds B L) (path : Path)  :
    ∀ u, execSlewProposed path s = .next u → u.holds B L := by
  intro u ht; unfold execSlewProposed at ht
  refine guarded_holds (fun s hs => ?_) hs ht
  repeat' first | (simp +contextual (maxDischargeDepth := 40) [*]; done) | split | dsimp only | (refine State.forEach_holds ?_ _ _ (fun _ _ _ => ?_)) | (refine State.onlyIf_holds ?_ _ _ (fun _ _ => ?_))

theorem execApllAEnable_holds {B : List Host.Cell} {L : List Instr} {s : State} (hs : s.holds B L) (path : Path) (v : ℕ)  :
    ∀ u, execApllAEnable path v s = .next u → u.holds B L := by
  intro u ht; unfold execApllAEnable at ht
  refine guarded_holds (fun s hs => ?_) hs ht
  repeat' first | (simp +contextual (maxDischargeDepth := 40) [*]; done) | split | dsimp only | (refine State.forEach_holds ?_ _ _ (fun _ _ _ => ?_)) | (refine State.onlyIf_holds ?_ _ _ (fun _ _ => ?_))

theorem execFreqCmdSet_holds {B : List Host.Cell} {L : List Instr} {s : State} (hs : s.holds B L) (path : Path)  :
    ∀ u, execFreqCmdSet path s = .next u → u.holds B L := by
  intro u ht; unfold execFreqCmdSet at ht
  refine guarded_holds (fun s hs => ?_) hs ht
  repeat' first | (simp +contextual (maxDischargeDepth := 40) [*]; done) | split | dsimp only | (refine State.forEach_holds ?_ _ _ (fun _ _ _ => ?_)) | (refine State.onlyIf_holds ?_ _ _ (fun _ _ => ?_))

theorem execRunProfile_holds {B : List Host.Cell} {L : List Instr} {s : State} (hs : s.holds B L) (path : Path)  :
    ∀ u, execRunProfile path s = .next u → u.holds B L := by
  intro u ht; unfold execRunProfile at ht
  refine guarded_holds (fun s hs => ?_) hs ht
  repeat' first | (simp +contextual (maxDischargeDepth := 40) [*]; done) | split | dsimp only | (refine State.forEach_holds ?_ _ _ (fun _ _ _ => ?_)) | (refine State.onlyIf_holds ?_ _ _ (fun _ _ => ?_))

theorem execAbortRamp_holds {B : List Host.Cell} {L : List Instr} {s : State} (hs : s.holds B L) (path : Path)  :
    ∀ u, execAbortRamp path s = .next u → u.holds B L := by
  intro u ht; unfold execAbortRamp at ht
  refine guarded_holds (fun s hs => ?_) hs ht
  repeat' first | (simp +contextual (maxDischargeDepth := 40) [*]; done) | split | dsimp only | (refine State.forEach_holds ?_ _ _ (fun _ _ _ => ?_)) | (refine State.onlyIf_holds ?_ _ _ (fun _ _ => ?_))

theorem execRelock_holds {B : List Host.Cell} {L : List Instr} {s : State} (hs : s.holds B L) (path : Path)  :
    ∀ u, execRelock path s = .next u → u.holds B L := by
  intro u ht; unfold execRelock at ht
  refine guarded_holds (fun s hs => ?_) hs ht
  repeat' first | (simp +contextual (maxDischargeDepth := 40) [*]; done) | split | dsimp only | (refine State.forEach_holds ?_ _ _ (fun _ _ _ => ?_)) | (refine State.onlyIf_holds ?_ _ _ (fun _ _ => ?_))

theorem execAuxEnable_holds {B : List Host.Cell} {L : List Instr} {s : State} (hs : s.holds B L) (path : Path) (n : ℕ) (v : ℕ)  :
    ∀ u, execAuxEnable path n v s = .next u → u.holds B L := by
  intro u ht; unfold execAuxEnable at ht
  refine guarded_holds (fun s hs => ?_) hs ht
  repeat' first | (simp +contextual (maxDischargeDepth := 40) [*]; done) | split | dsimp only | (refine State.forEach_holds ?_ _ _ (fun _ _ _ => ?_)) | (refine State.onlyIf_holds ?_ _ _ (fun _ _ => ?_))

theorem execAuxSafeExit_holds {B : List Host.Cell} {L : List Instr} {s : State} (hs : s.holds B L) (path : Path) (n : ℕ)  :
    ∀ u, execAuxSafeExit path n s = .next u → u.holds B L := by
  intro u ht; unfold execAuxSafeExit at ht
  refine guarded_holds (fun s hs => ?_) hs ht
  repeat' first | (simp +contextual (maxDischargeDepth := 40) [*]; done) | split | dsimp only | (refine State.forEach_holds ?_ _ _ (fun _ _ _ => ?_)) | (refine State.onlyIf_holds ?_ _ _ (fun _ _ => ?_))

theorem execSwitch_holds {B : List Host.Cell} {L : List Instr} {s : State} (hs : s.holds B L) (path : Path)  :
    ∀ u, execSwitch path s = .next u → u.holds B L := by
  intro u ht; unfold execSwitch at ht
  refine guarded_holds (fun s hs => ?_) hs ht
  repeat' first | (simp +contextual (maxDischargeDepth := 40) [*]; done) | split | dsimp only | (refine State.forEach_holds ?_ _ _ (fun _ _ _ => ?_)) | (refine State.onlyIf_holds ?_ _ _ (fun _ _ => ?_))

theorem execPathAccept_holds {B : List Host.Cell} {L : List Instr} {s : State} (hs : s.holds B L) (path : Path)  :
    ∀ u, execPathAccept path s = .next u → u.holds B L := by
  intro u ht; unfold execPathAccept at ht
  refine guarded_holds (fun s hs => ?_) hs ht
  repeat' first | (simp +contextual (maxDischargeDepth := 40) [*]; done) | split | dsimp only | (refine State.forEach_holds ?_ _ _ (fun _ _ _ => ?_)) | (refine State.onlyIf_holds ?_ _ _ (fun _ _ => ?_))

theorem execPathClear_holds {B : List Host.Cell} {L : List Instr} {s : State} (hs : s.holds B L) (path : Path)  :
    ∀ u, execPathClear path s = .next u → u.holds B L := by
  intro u ht; unfold execPathClear at ht
  refine guarded_holds (fun s hs => ?_) hs ht
  repeat' first | (simp +contextual (maxDischargeDepth := 40) [*]; done) | split | dsimp only | (refine State.forEach_holds ?_ _ _ (fun _ _ _ => ?_)) | (refine State.onlyIf_holds ?_ _ _ (fun _ _ => ?_))

theorem execIssue_holds {B : List Host.Cell} {L : List Instr} {s : State} (hs : s.holds B L) (path : Path) (p : ℕ)  :
    ∀ u, execIssue path p s = .next u → u.holds B L := by
  intro u ht; unfold execIssue at ht
  refine guarded_holds (fun s hs => ?_) hs ht
  repeat' first | (simp +contextual (maxDischargeDepth := 40) [*]; done) | split | dsimp only | (refine State.forEach_holds ?_ _ _ (fun _ _ _ => ?_)) | (refine State.onlyIf_holds ?_ _ _ (fun _ _ => ?_))

theorem execMgmtRead32_holds {B : List Host.Cell} {L : List Instr} {s : State} (hs : s.holds B L) (path : Path) (p : ℕ)  :
    ∀ u, execMgmtRead32 path p s = .next u → u.holds B L := by
  intro u ht; unfold execMgmtRead32 at ht
  refine guarded_holds (fun s hs => ?_) hs ht
  repeat' first | (simp +contextual (maxDischargeDepth := 40) [*]; done) | split | dsimp only | (refine State.forEach_holds ?_ _ _ (fun _ _ _ => ?_)) | (refine State.onlyIf_holds ?_ _ _ (fun _ _ => ?_))

theorem execMgmtWrite32_holds {B : List Host.Cell} {L : List Instr} {s : State} (hs : s.holds B L) (path : Path) (p : ℕ)  :
    ∀ u, execMgmtWrite32 path p s = .next u → u.holds B L := by
  intro u ht; unfold execMgmtWrite32 at ht
  refine guarded_holds (fun s hs => ?_) hs ht
  repeat' first | (simp +contextual (maxDischargeDepth := 40) [*]; done) | split | dsimp only | (refine State.forEach_holds ?_ _ _ (fun _ _ _ => ?_)) | (refine State.onlyIf_holds ?_ _ _ (fun _ _ => ?_))

theorem execMgmtRead128_holds {B : List Host.Cell} {L : List Instr} {s : State} (hs : s.holds B L) (path : Path) (p : ℕ)  :
    ∀ u, execMgmtRead128 path p s = .next u → u.holds B L := by
  intro u ht; unfold execMgmtRead128 at ht
  refine guarded_holds (fun s hs => ?_) hs ht
  repeat' first | (simp +contextual (maxDischargeDepth := 40) [*]; done) | split | dsimp only | (refine State.forEach_holds ?_ _ _ (fun _ _ _ => ?_)) | (refine State.onlyIf_holds ?_ _ _ (fun _ _ => ?_))

theorem execMgmtWrite128_holds {B : List Host.Cell} {L : List Instr} {s : State} (hs : s.holds B L) (path : Path) (p : ℕ)  :
    ∀ u, execMgmtWrite128 path p s = .next u → u.holds B L := by
  intro u ht; unfold execMgmtWrite128 at ht
  refine guarded_holds (fun s hs => ?_) hs ht
  repeat' first | (simp +contextual (maxDischargeDepth := 40) [*]; done) | split | dsimp only | (refine State.forEach_holds ?_ _ _ (fun _ _ _ => ?_)) | (refine State.onlyIf_holds ?_ _ _ (fun _ _ => ?_))

theorem execEthDoorbell_holds {B : List Host.Cell} {L : List Instr} {s : State} (hs : s.holds B L) (path : Path) (p : ℕ) (rx : Bool) (v : ℕ)  :
    ∀ u, execEthDoorbell path p rx v s = .next u → u.holds B L := by
  intro u ht; unfold execEthDoorbell at ht
  refine guarded_holds (fun s hs => ?_) hs ht
  repeat' first | (simp +contextual (maxDischargeDepth := 40) [*]; done) | split | dsimp only | (refine State.forEach_holds ?_ _ _ (fun _ _ _ => ?_)) | (refine State.onlyIf_holds ?_ _ _ (fun _ _ => ?_))

theorem execCalCmdSet_holds {B : List Host.Cell} {L : List Instr} {s : State} (hs : s.holds B L) (path : Path)  :
    ∀ u, execCalCmdSet path s = .next u → u.holds B L := by
  intro u ht; unfold execCalCmdSet at ht
  refine guarded_holds (fun s hs => ?_) hs ht
  repeat' first | (simp +contextual (maxDischargeDepth := 40) [*]; done) | split | dsimp only | (refine State.forEach_holds ?_ _ _ (fun _ _ _ => ?_)) | (refine State.onlyIf_holds ?_ _ _ (fun _ _ => ?_))

theorem execSyncNow_holds {B : List Host.Cell} {L : List Instr} {s : State} (hs : s.holds B L) (path : Path)  :
    ∀ u, execSyncNow path s = .next u → u.holds B L := by
  intro u ht; unfold execSyncNow at ht
  refine guarded_holds (fun s hs => ?_) hs ht
  repeat' first | (simp +contextual (maxDischargeDepth := 40) [*]; done) | split | dsimp only | (refine State.forEach_holds ?_ _ _ (fun _ _ _ => ?_)) | (refine State.onlyIf_holds ?_ _ _ (fun _ _ => ?_))

theorem execInvalidate_holds {B : List Host.Cell} {L : List Instr} {s : State} (hs : s.holds B L) (path : Path)  :
    ∀ u, execInvalidate path s = .next u → u.holds B L := by
  intro u ht; unfold execInvalidate at ht
  refine guarded_holds (fun s hs => ?_) hs ht
  repeat' first | (simp +contextual (maxDischargeDepth := 40) [*]; done) | split | dsimp only | (refine State.forEach_holds ?_ _ _ (fun _ _ _ => ?_)) | (refine State.onlyIf_holds ?_ _ _ (fun _ _ => ?_))

theorem execPwrOn_holds {B : List Host.Cell} {L : List Instr} {s : State} (hs : s.holds B L) (path : Path)  :
    ∀ u, execPwrOn path s = .next u → u.holds B L := by
  intro u ht; unfold execPwrOn at ht
  refine guarded_holds (fun s hs => ?_) hs ht
  repeat' first | (simp +contextual (maxDischargeDepth := 40) [*]; done) | split | dsimp only | (refine State.forEach_holds ?_ _ _ (fun _ _ _ => ?_)) | (refine State.onlyIf_holds ?_ _ _ (fun _ _ => ?_))

theorem execPwrOff_holds {B : List Host.Cell} {L : List Instr} {s : State} (hs : s.holds B L) (path : Path)  :
    ∀ u, execPwrOff path s = .next u → u.holds B L := by
  intro u ht; unfold execPwrOff at ht
  refine guarded_holds (fun s hs => ?_) hs ht
  repeat' first | (simp +contextual (maxDischargeDepth := 40) [*]; done) | split | dsimp only | (refine State.forEach_holds ?_ _ _ (fun _ _ _ => ?_)) | (refine State.onlyIf_holds ?_ _ _ (fun _ _ => ?_))

theorem execAlertSet_holds {B : List Host.Cell} {L : List Instr} {s : State} (hs : s.holds B L) (path : Path)  :
    ∀ u, execAlertSet path s = .next u → u.holds B L := by
  intro u ht; unfold execAlertSet at ht
  refine guarded_holds (fun s hs => ?_) hs ht
  repeat' first | (simp +contextual (maxDischargeDepth := 40) [*]; done) | split | dsimp only | (refine State.forEach_holds ?_ _ _ (fun _ _ _ => ?_)) | (refine State.onlyIf_holds ?_ _ _ (fun _ _ => ?_))

theorem execAlertClr_holds {B : List Host.Cell} {L : List Instr} {s : State} (hs : s.holds B L) (path : Path)  :
    ∀ u, execAlertClr path s = .next u → u.holds B L := by
  intro u ht; unfold execAlertClr at ht
  refine guarded_holds (fun s hs => ?_) hs ht
  repeat' first | (simp +contextual (maxDischargeDepth := 40) [*]; done) | split | dsimp only | (refine State.forEach_holds ?_ _ _ (fun _ _ _ => ?_)) | (refine State.onlyIf_holds ?_ _ _ (fun _ _ => ?_))

theorem execLogClear_holds {B : List Host.Cell} {L : List Instr} {s : State} (hs : s.holds B L) (path : Path)  :
    ∀ u, execLogClear path s = .next u → u.holds B L := by
  intro u ht; unfold execLogClear at ht
  refine guarded_holds (fun s hs => ?_) hs ht
  repeat' first | (simp +contextual (maxDischargeDepth := 40) [*]; done) | split | dsimp only | (refine State.forEach_holds ?_ _ _ (fun _ _ _ => ?_)) | (refine State.onlyIf_holds ?_ _ _ (fun _ _ => ?_))

theorem execErrInject_holds {B : List Host.Cell} {L : List Instr} {s : State} (hs : s.holds B L) (path : Path) (page : ℕ) (v : ℕ)  :
    ∀ u, execErrInject path page v s = .next u → u.holds B L := by
  intro u ht; unfold execErrInject at ht
  refine guarded_holds (fun s hs => ?_) hs ht
  repeat' first | (simp +contextual (maxDischargeDepth := 40) [*]; done) | split | dsimp only | (refine State.forEach_holds ?_ _ _ (fun _ _ _ => ?_)) | (refine State.onlyIf_holds ?_ _ _ (fun _ _ => ?_))

theorem execInject_holds {B : List Host.Cell} {L : List Instr} {s : State} (hs : s.holds B L) (path : Path) (k : ℕ) (line : Bool)  :
    ∀ u, execInject path k line s = .next u → u.holds B L := by
  intro u ht; unfold execInject at ht
  refine guarded_holds (fun s hs => ?_) hs ht
  repeat' first | (simp +contextual (maxDischargeDepth := 40) [*]; done) | split | dsimp only | (refine State.forEach_holds ?_ _ _ (fun _ _ _ => ?_)) | (refine State.onlyIf_holds ?_ _ _ (fun _ _ => ?_))

theorem execClearPair_holds {B : List Host.Cell} {L : List Instr} {s : State} (hs : s.holds B L) (path : Path)  :
    ∀ u, execClearPair path s = .next u → u.holds B L := by
  intro u ht; unfold execClearPair at ht
  refine guarded_holds (fun s hs => ?_) hs ht
  repeat' first | (simp +contextual (maxDischargeDepth := 40) [*]; done) | split | dsimp only | (refine State.forEach_holds ?_ _ _ (fun _ _ _ => ?_)) | (refine State.onlyIf_holds ?_ _ _ (fun _ _ => ?_))

theorem execEnterSafe_holds {B : List Host.Cell} {L : List Instr} {s : State} (hs : s.holds B L) (path : Path)  :
    ∀ u, execEnterSafe path s = .next u → u.holds B L := by
  intro u ht; unfold execEnterSafe at ht
  refine guarded_holds (fun s hs => ?_) hs ht
  repeat' first | (simp +contextual (maxDischargeDepth := 40) [*]; done) | split | dsimp only | (refine State.forEach_holds ?_ _ _ (fun _ _ _ => ?_)) | (refine State.onlyIf_holds ?_ _ _ (fun _ _ => ?_))

theorem execReinit_holds {B : List Host.Cell} {L : List Instr} {s : State} (hs : s.holds B L) (path : Path)  :
    ∀ u, execReinit path s = .next u → u.holds B L := by
  intro u ht; unfold execReinit at ht
  refine guarded_holds (fun s hs => ?_) hs ht
  repeat' first | (simp +contextual (maxDischargeDepth := 40) [*]; done) | split | dsimp only | (refine State.forEach_holds ?_ _ _ (fun _ _ _ => ?_)) | (refine State.onlyIf_holds ?_ _ _ (fun _ _ => ?_))

theorem execDeviceSafeExit_holds {B : List Host.Cell} {L : List Instr} {s : State} (hs : s.holds B L) (path : Path)  :
    ∀ u, execDeviceSafeExit path s = .next u → u.holds B L := by
  intro u ht; unfold execDeviceSafeExit at ht
  refine guarded_holds (fun s hs => ?_) hs ht
  repeat' first | (simp +contextual (maxDischargeDepth := 40) [*]; done) | split | dsimp only | (refine State.forEach_holds ?_ _ _ (fun _ _ _ => ?_)) | (refine State.onlyIf_holds ?_ _ _ (fun _ _ => ?_))

theorem execFirstFaultClear_holds {B : List Host.Cell} {L : List Instr} {s : State} (hs : s.holds B L) (path : Path)  :
    ∀ u, execFirstFaultClear path s = .next u → u.holds B L := by
  intro u ht; unfold execFirstFaultClear at ht
  refine guarded_holds (fun s hs => ?_) hs ht
  repeat' first | (simp +contextual (maxDischargeDepth := 40) [*]; done) | split | dsimp only | (refine State.forEach_holds ?_ _ _ (fun _ _ _ => ?_)) | (refine State.onlyIf_holds ?_ _ _ (fun _ _ => ?_))

theorem execDeviceReset_holds {B : List Host.Cell} {L : List Instr} {s : State} (hs : s.holds B L) (path : Path)  :
    ∀ u, execDeviceReset path s = .next u → u.holds B L := by
  intro u ht; unfold execDeviceReset at ht
  refine guarded_holds (fun s hs => ?_) hs ht
  repeat' first | (simp +contextual (maxDischargeDepth := 40) [*]; done) | split | dsimp only | (refine State.forEach_holds ?_ _ _ (fun _ _ _ => ?_)) | (refine State.onlyIf_holds ?_ _ _ (fun _ _ => ?_))

theorem execBegin_holds {B : List Host.Cell} {L : List Instr} {s : State} (hs : s.holds B L) (path : Path)  :
    ∀ u, execBegin path s = .next u → u.holds B L := by
  intro u ht; unfold execBegin at ht
  refine guarded_holds (fun s hs => ?_) hs ht
  repeat' first | (simp +contextual (maxDischargeDepth := 40) [*]; done) | split | dsimp only | (refine State.forEach_holds ?_ _ _ (fun _ _ _ => ?_)) | (refine State.onlyIf_holds ?_ _ _ (fun _ _ => ?_))

theorem execWriteWindow_holds {B : List Host.Cell} {L : List Instr} {s : State} (hs : s.holds B L) (path : Path)  :
    ∀ u, execWriteWindow path s = .next u → u.holds B L := by
  intro u ht; unfold execWriteWindow at ht
  refine guarded_holds (fun s hs => ?_) hs ht
  repeat' first | (simp +contextual (maxDischargeDepth := 40) [*]; done) | split | dsimp only | (refine State.forEach_holds ?_ _ _ (fun _ _ _ => ?_)) | (refine State.onlyIf_holds ?_ _ _ (fun _ _ => ?_))

theorem execActivate_holds {B : List Host.Cell} {L : List Instr} {s : State} (hs : s.holds B L) (path : Path)  :
    ∀ u, execActivate path s = .next u → u.holds B L := by
  intro u ht; unfold execActivate at ht
  refine guarded_holds (fun s hs => ?_) hs ht
  repeat' first | (simp +contextual (maxDischargeDepth := 40) [*]; done) | split | dsimp only | (refine State.forEach_holds ?_ _ _ (fun _ _ _ => ?_)) | (refine State.onlyIf_holds ?_ _ _ (fun _ _ => ?_))

theorem execActivateAtReset_holds {B : List Host.Cell} {L : List Instr} {s : State} (hs : s.holds B L) (path : Path)  :
    ∀ u, execActivateAtReset path s = .next u → u.holds B L := by
  intro u ht; unfold execActivateAtReset at ht
  refine guarded_holds (fun s hs => ?_) hs ht
  repeat' first | (simp +contextual (maxDischargeDepth := 40) [*]; done) | split | dsimp only | (refine State.forEach_holds ?_ _ _ (fun _ _ _ => ?_)) | (refine State.onlyIf_holds ?_ _ _ (fun _ _ => ?_))

theorem execConfirm_holds {B : List Host.Cell} {L : List Instr} {s : State} (hs : s.holds B L) (path : Path)  :
    ∀ u, execConfirm path s = .next u → u.holds B L := by
  intro u ht; unfold execConfirm at ht
  refine guarded_holds (fun s hs => ?_) hs ht
  repeat' first | (simp +contextual (maxDischargeDepth := 40) [*]; done) | split | dsimp only | (refine State.forEach_holds ?_ _ _ (fun _ _ _ => ?_)) | (refine State.onlyIf_holds ?_ _ _ (fun _ _ => ?_))

theorem execRevert_holds {B : List Host.Cell} {L : List Instr} {s : State} (hs : s.holds B L) (path : Path)  :
    ∀ u, execRevert path s = .next u → u.holds B L := by
  intro u ht; unfold execRevert at ht
  refine guarded_holds (fun s hs => ?_) hs ht
  repeat' first | (simp +contextual (maxDischargeDepth := 40) [*]; done) | split | dsimp only | (refine State.forEach_holds ?_ _ _ (fun _ _ _ => ?_)) | (refine State.onlyIf_holds ?_ _ _ (fun _ _ => ?_))

theorem execFlAbort_holds {B : List Host.Cell} {L : List Instr} {s : State} (hs : s.holds B L) (path : Path)  :
    ∀ u, execFlAbort path s = .next u → u.holds B L := by
  intro u ht; unfold execFlAbort at ht
  refine guarded_holds (fun s hs => ?_) hs ht
  repeat' first | (simp +contextual (maxDischargeDepth := 40) [*]; done) | split | dsimp only | (refine State.forEach_holds ?_ _ _ (fun _ _ _ => ?_)) | (refine State.onlyIf_holds ?_ _ _ (fun _ _ => ?_))

theorem execLoadManifest_holds {B : List Host.Cell} {L : List Instr} {s : State} (hs : s.holds B L) (path : Path)  :
    ∀ u, execLoadManifest path s = .next u → u.holds B L := by
  intro u ht; unfold execLoadManifest at ht
  refine guarded_holds (fun s hs => ?_) hs ht
  repeat' first | (simp +contextual (maxDischargeDepth := 40) [*]; done) | split | dsimp only | (refine State.forEach_holds ?_ _ _ (fun _ _ _ => ?_)) | (refine State.onlyIf_holds ?_ _ _ (fun _ _ => ?_))

theorem execClearManifest_holds {B : List Host.Cell} {L : List Instr} {s : State} (hs : s.holds B L) (path : Path)  :
    ∀ u, execClearManifest path s = .next u → u.holds B L := by
  intro u ht; unfold execClearManifest at ht
  refine guarded_holds (fun s hs => ?_) hs ht
  repeat' first | (simp +contextual (maxDischargeDepth := 40) [*]; done) | split | dsimp only | (refine State.forEach_holds ?_ _ _ (fun _ _ _ => ?_)) | (refine State.onlyIf_holds ?_ _ _ (fun _ _ => ?_))

theorem execReadLog_holds {B : List Host.Cell} {L : List Instr} {s : State} (hs : s.holds B L) (path : Path)  :
    ∀ u, execReadLog path s = .next u → u.holds B L := by
  intro u ht; unfold execReadLog at ht
  refine guarded_holds (fun s hs => ?_) hs ht
  repeat' first | (simp +contextual (maxDischargeDepth := 40) [*]; done) | split | dsimp only | (refine State.forEach_holds ?_ _ _ (fun _ _ _ => ?_)) | (refine State.onlyIf_holds ?_ _ _ (fun _ _ => ?_))

theorem execInstallKey_holds {B : List Host.Cell} {L : List Instr} {s : State} (hs : s.holds B L) (path : Path)  :
    ∀ u, execInstallKey path s = .next u → u.holds B L := by
  intro u ht; unfold execInstallKey at ht
  refine guarded_holds (fun s hs => ?_) hs ht
  repeat' first | (simp +contextual (maxDischargeDepth := 40) [*]; done) | split | dsimp only | (refine State.forEach_holds ?_ _ _ (fun _ _ _ => ?_)) | (refine State.onlyIf_holds ?_ _ _ (fun _ _ => ?_))

theorem execOwnerEnroll_holds {B : List Host.Cell} {L : List Instr} {s : State} (hs : s.holds B L) (path : Path)  :
    ∀ u, execOwnerEnroll path s = .next u → u.holds B L := by
  intro u ht; unfold execOwnerEnroll at ht
  refine guarded_holds (fun s hs => ?_) hs ht
  repeat' first | (simp +contextual (maxDischargeDepth := 40) [*]; done) | split | dsimp only | (refine State.forEach_holds ?_ _ _ (fun _ _ _ => ?_)) | (refine State.onlyIf_holds ?_ _ _ (fun _ _ => ?_))

@[simp] theorem State.flashWrote_holds {B : List Host.Cell} {L : List Instr} {s : State} (hs : s.holds B L) (path : Path) (code : ℕ) (bytes : Option (List ℕ)) (v : Option VerifyResult)  :
    (State.flashWrote s path code bytes v).holds B L := by
  unfold State.flashWrote; simp +contextual (maxDischargeDepth := 40) [*]

theorem execDmaWrite_holds {B : List Host.Cell} {L : List Instr} {s : State} (hs : s.holds B L) (path : Path) (bytes : List ℕ)  :
    ∀ u, execDmaWrite path bytes s = .next u → u.holds B L := by
  intro u ht; unfold execDmaWrite at ht
  refine guarded_holds (fun s hs => ?_) hs ht
  repeat' first | (simp +contextual (maxDischargeDepth := 40) [*]; done) | split | dsimp only | (refine State.forEach_holds ?_ _ _ (fun _ _ _ => ?_)) | (refine State.onlyIf_holds ?_ _ _ (fun _ _ => ?_))

theorem execFinish_holds {B : List Host.Cell} {L : List Instr} {s : State} (hs : s.holds B L) (path : Path) (v : VerifyResult)  :
    ∀ u, execFinish path v s = .next u → u.holds B L := by
  intro u ht; unfold execFinish at ht
  refine guarded_holds (fun s hs => ?_) hs ht
  repeat' first | (simp +contextual (maxDischargeDepth := 40) [*]; done) | split | dsimp only | (refine State.forEach_holds ?_ _ _ (fun _ _ _ => ?_)) | (refine State.onlyIf_holds ?_ _ _ (fun _ _ => ?_))

end Sys2Proof.Machine
end

