-- ==== Sys2Proof/Laws/FrameRemote.lean ====
section
/-! SUPPORT. The operations of Remote leave BAR2 and the queue of waiting commands alone. -/

namespace Sys2Proof.Machine

set_option linter.unusedTactic false
set_option linter.unreachableTactic false

@[simp] theorem State.mgmtAccess_holds {B : List Host.Cell} {L : List Instr} {s : State} (hs : s.holds B L) (c : MgmtCell)  :
    (State.mgmtAccess s c).1.holds B L := by
  unfold State.mgmtAccess; simp +contextual (maxDischargeDepth := 40) [*]

@[simp] theorem State.keepCounter_holds {B : List Host.Cell} {L : List Instr} {s : State} (hs : s.holds B L) (n : ℕ)  :
    (State.keepCounter s n).holds B L := by
  unfold State.keepCounter; simp +contextual (maxDischargeDepth := 40) [*]

@[simp] theorem State.mgmtReply_holds {B : List Host.Cell} {L : List Instr} {s : State} (hs : s.holds B L) (c : MgmtCell) (key : ℕ) (v : Verdict) (data : ℕ)  :
    (State.mgmtReply s c key v data).holds B L := by
  unfold State.mgmtReply; repeat' first | (simp +contextual (maxDischargeDepth := 40) [*]; done) | split | dsimp only | (refine State.forEach_holds ?_ _ _ (fun _ _ _ => ?_)) | (refine State.onlyIf_holds ?_ _ _ (fun _ _ => ?_))

@[simp] theorem State.mgmtServe_holds {B : List Host.Cell} {L : List Instr} {s : State} (hs : s.holds B L) (p : ℕ) (c : MgmtCell)  :
    (State.mgmtServe s p c).holds B L := by
  unfold State.mgmtServe; repeat' first | (simp +contextual (maxDischargeDepth := 40) [*]; done) | split | dsimp only

@[simp] theorem State.mgmtRx_holds {B : List Host.Cell} {L : List Instr} {s : State} (hs : s.holds B L) (p : ℕ) (c : MgmtCell)  :
    (State.mgmtRx s p c).holds B L := by
  unfold State.mgmtRx; simp +contextual (maxDischargeDepth := 40) [*]

theorem execMgmtRequestRx_holds {B : List Host.Cell} {L : List Instr} {s : State} (hs : s.holds B L) (p : ℕ) (c : MgmtCell)  :
    ∀ u, execMgmtRequestRx p c s = .next u → u.holds B L := by
  intro u ht; unfold execMgmtRequestRx at ht
  refine guarded_holds (fun s hs => ?_) hs ht
  repeat' first | (simp +contextual (maxDischargeDepth := 40) [*]; done) | split | dsimp only | (refine State.forEach_holds ?_ _ _ (fun _ _ _ => ?_)) | (refine State.onlyIf_holds ?_ _ _ (fun _ _ => ?_))

end Sys2Proof.Machine
end

