-- ==== Sys2Proof/Laws/FrameDeliver.lean ====
section
/-! SUPPORT. The operations of Deliver leave BAR2 and the queue of waiting commands alone. -/

namespace Sys2Proof.Machine

set_option linter.unusedTactic false
set_option linter.unreachableTactic false

@[simp] theorem State.lineToSeq_holds {B : List Host.Cell} {L : List Instr} {s : State} (hs : s.holds B L) (n : ℕ) (t : ℕ) (teb : ℕ) (q : ℕ)  :
    (State.lineToSeq s n t teb q).holds B L := by
  unfold State.lineToSeq; simp +contextual (maxDischargeDepth := 40) [*]

@[simp] theorem State.lineEvent_holds {B : List Host.Cell} {L : List Instr} {s : State} (hs : s.holds B L) (e : LineEvent) (n : ℕ)  :
    (State.lineEvent s e n).holds B L := by
  unfold State.lineEvent
  split
  · extract_lets r s1 s2
    have hr : r.1.holds B L := by simp only [r]; simp +contextual (maxDischargeDepth := 40) [*]
    clear_value r
    have h_s1 : s1.holds B L := by simp only [s1]; repeat' first | (simp +contextual (maxDischargeDepth := 40) [*]; done) | split | dsimp only | (refine State.forEach_holds ?_ _ _ (fun _ _ _ => ?_)) | (refine State.onlyIf_holds ?_ _ _ (fun _ _ => ?_))
    clear_value s1
    have h_s2 : s2.holds B L := by simp only [s2]; repeat' first | (simp +contextual (maxDischargeDepth := 40) [*]; done) | split | dsimp only | (refine State.forEach_holds ?_ _ _ (fun _ _ _ => ?_)) | (refine State.onlyIf_holds ?_ _ _ (fun _ _ => ?_))
    clear_value s2
    repeat' first | (simp +contextual (maxDischargeDepth := 40) [*]; done) | split | dsimp only | (refine State.forEach_holds ?_ _ _ (fun _ _ _ => ?_)) | (refine State.onlyIf_holds ?_ _ _ (fun _ _ => ?_))
  · exact hs

@[simp] theorem State.deliverEvent_holds {B : List Host.Cell} {L : List Instr} {s : State} (hs : s.holds B L) (e : LineEvent)  :
    (State.deliverEvent s e).holds B L := by
  unfold State.deliverEvent; repeat' first | (simp +contextual (maxDischargeDepth := 40) [*]; done) | split | dsimp only | (refine State.forEach_holds ?_ _ _ (fun _ _ _ => ?_)) | (refine State.onlyIf_holds ?_ _ _ (fun _ _ => ?_))

theorem execTriggerLineEvent_holds {B : List Host.Cell} {L : List Instr} {s : State} (hs : s.holds B L) (e : LineEvent)  :
    ∀ u, execTriggerLineEvent e s = .next u → u.holds B L := by
  intro u ht; unfold execTriggerLineEvent at ht
  refine guarded_holds (fun s hs => ?_) hs ht
  repeat' first | (simp +contextual (maxDischargeDepth := 40) [*]; done) | split | dsimp only | (refine State.forEach_holds ?_ _ _ (fun _ _ _ => ?_)) | (refine State.onlyIf_holds ?_ _ _ (fun _ _ => ?_))

@[simp] theorem State.subscriberStamp_holds {B : List Host.Cell} {L : List Instr} {s : State} (hs : s.holds B L) (i : ℕ) (st : Stamp) (sub : ℕ × ℕ)  :
    (State.subscriberStamp s i st sub).holds B L := by
  unfold State.subscriberStamp; repeat' first | (simp +contextual (maxDischargeDepth := 40) [*]; done) | split | dsimp only | (refine State.forEach_holds ?_ _ _ (fun _ _ _ => ?_)) | (refine State.onlyIf_holds ?_ _ _ (fun _ _ => ?_))

@[simp] theorem State.handout_holds {B : List Host.Cell} {L : List Instr} {s : State} (hs : s.holds B L) (i : ℕ)  :
    (State.handout s i).holds B L := by
  unfold State.handout; repeat' first | (simp +contextual (maxDischargeDepth := 40) [*]; done) | split | dsimp only | (refine State.forEach_holds ?_ _ _ (fun _ _ _ => ?_)) | (refine State.onlyIf_holds ?_ _ _ (fun _ _ => ?_))

theorem execFifoHandout_holds {B : List Host.Cell} {L : List Instr} {s : State} (hs : s.holds B L) (i : ℕ)  :
    ∀ u, execFifoHandout i s = .next u → u.holds B L := by
  intro u ht; unfold execFifoHandout at ht
  refine guarded_holds (fun s hs => ?_) hs ht
  repeat' first | (simp +contextual (maxDischargeDepth := 40) [*]; done) | split | dsimp only | (refine State.forEach_holds ?_ _ _ (fun _ _ _ => ?_)) | (refine State.onlyIf_holds ?_ _ _ (fun _ _ => ?_))

@[simp] theorem State.queueWrite_holds {B : List Host.Cell} {L : List Instr} {s : State} (hs : s.holds B L) (d : Disp)  :
    (State.queueWrite s d).1.holds B L := by
  unfold State.queueWrite; simp +contextual (maxDischargeDepth := 40) [*]

theorem execRegWrite32_holds {B : List Host.Cell} {L : List Instr} {s : State} (hs : s.holds B L)  :
    ∀ u, execRegWrite32 s = .next u → u.holds B L := by
  intro u ht; unfold execRegWrite32 at ht
  refine guarded_holds (fun s hs => ?_) hs ht
  repeat' first | (simp +contextual (maxDischargeDepth := 40) [*]; done) | split | dsimp only | (refine State.forEach_holds ?_ _ _ (fun _ _ _ => ?_)) | (refine State.onlyIf_holds ?_ _ _ (fun _ _ => ?_))

theorem execSnapshotTimeout_holds {B : List Host.Cell} {L : List Instr} {s : State} (hs : s.holds B L)  :
    ∀ u, execSnapshotTimeout s = .next u → u.holds B L := by
  intro u ht; unfold execSnapshotTimeout at ht
  refine guarded_holds (fun s hs => ?_) hs ht
  repeat' first | (simp +contextual (maxDischargeDepth := 40) [*]; done) | split | dsimp only | (refine State.forEach_holds ?_ _ _ (fun _ _ _ => ?_)) | (refine State.onlyIf_holds ?_ _ _ (fun _ _ => ?_))

end Sys2Proof.Machine
end

