-- ==== Sys2Proof/Laws/Memory.lean ====
section
/-! SUPPORT. What a store into BAR2 changes: the bytes stored, and nothing else; and that no command touches the queue of waiting
commands. -/

namespace Sys2Proof.Machine

theorem State.memByte_memPut_self (s : State) (a b : Nat) (h : a < 67108864) : (s.memPut a b).memByte a = b % 256 := by
  simp [State.memPut, State.memByte, h]

theorem State.memByte_memPut_ne (s : State) (a b x : Nat) (h : x ≠ a) : (s.memPut a b).memByte x = s.memByte x := by
  unfold State.memPut
  split
  · simp only [State.memByte, sparseGet_set_ne _ _ _ _ h]
  · rfl

/-- A store changes BAR2 alone. -/
theorem State.memStore_eq (s : State) (a : Nat) (l : List Nat) : ∃ m, s.memStore a l = { s with bar2 := m } := by
  induction l generalizing s a with
  | nil => exact ⟨s.bar2, rfl⟩
  | cons b l ih =>
    obtain ⟨m, hm⟩ := ih (s.memPut a b) (a + 1)
    refine ⟨m, hm.trans ?_⟩
    unfold State.memPut
    split <;> rfl

@[simp] theorem State.memStore_regs (s : State) (a : Nat) (l : List Nat) : (s.memStore a l).regs = s.regs := by
  obtain ⟨m, hm⟩ := s.memStore_eq a l
  rw [hm]

@[simp] theorem State.memStore_pending (s : State) (a : Nat) (l : List Nat) : (s.memStore a l).pending = s.pending := by
  obtain ⟨m, hm⟩ := s.memStore_eq a l
  rw [hm]

/-- A byte outside the bytes stored reads as before. -/
theorem State.memByte_memStore_out (s : State) (a x : Nat) (l : List Nat) (h : x < a ∨ a + l.length ≤ x) :
    (s.memStore a l).memByte x = s.memByte x := by
  induction l generalizing s a with
  | nil => rfl
  | cons b l ih =>
    simp only [List.length_cons] at h
    exact (ih (s.memPut a b) (a + 1) (by omega)).trans (s.memByte_memPut_ne a b x (by omega))

/-- The bytes stored read back. -/
theorem State.memByte_memStore_in (s : State) (a : Nat) (l : List Nat) (k : Nat) (h : k < l.length) (ha : a + l.length ≤ 67108864) :
    (s.memStore a l).memByte (a + k) = l.getD k 0 % 256 := by
  induction l generalizing s a k with
  | nil => simp at h
  | cons b l ih =>
    simp only [List.length_cons] at h ha
    unfold State.memStore
    cases k with
    | zero =>
      rw [State.memByte_memStore_out _ _ _ _ (by omega)]
      exact s.memByte_memPut_self a b (by omega)
    | succ k =>
      rw [show a + (k + 1) = (a + 1) + k by omega]
      exact ih (s.memPut a b) (a + 1) k (by omega) (by omega)

/-- What keeps BAR2 and the queue keeps the queue. -/
theorem State.holds_pending {s t : State} (h : ∀ B L, s.holds B L → t.holds B L) : t.pending = s.pending :=
  (h _ _ s.holds_self).2

@[simp] theorem State.bar2Drop_pending (s : State) : s.bar2Drop.pending = s.pending := (State.bar2Drop_holds s.holds_self).2
@[simp] theorem State.activeDrop_pending (s : State) (q a : Nat) : (s.activeDrop q a).pending = s.pending :=
  (State.activeDrop_holds s.holds_self q a).2
@[simp] theorem State.courseDrop_pending (s : State) (c : Nat) : (s.courseDrop c).pending = s.pending := (State.courseDrop_holds s.holds_self c).2

@[simp] theorem State.bar2Store_pending (s : State) (a : Nat) (l : List Nat) : (s.bar2Store a l).pending = s.pending := by
  unfold State.bar2Store
  repeat' split
  all_goals simp

/-- A loop whose body keeps the queue keeps it. -/
theorem State.forEach_pending {α : Type} (s : State) (l : List α) (f : α → State → State) (h : ∀ a u, (f a u).pending = u.pending) :
    (s.forEach l f).pending = s.pending :=
  foldl_keeps (fun u : State => u.pending = s.pending) _ (fun u a hu => (h a u).trans hu) _ _ rfl

theorem State.bar2Write_pending (s : State) (a : Nat) (l : List Nat) : (s.bar2Write a l).pending = s.pending := by
  unfold State.bar2Write
  extract_lets parts s1 s2 s3
  have h1 : s1.pending = s.pending := State.forEach_pending _ _ _ (fun p u => by split <;> simp)
  have h2 : s2.pending = s.pending := by
    refine Eq.trans ?_ h1
    simp only [s2, State.onlyIf]
    split <;> simp
  have h3 : s3.pending = s.pending := (State.forEach_pending _ _ _ (fun q u => by split <;> simp)).trans h2
  split
  · exact (State.courseDrop_pending _ _).trans h3
  · exact h3

theorem State.refillFinish_pending (s : State) (q : Nat) (l : List Nat) : (s.refillFinish q l).pending = s.pending := by
  unfold State.refillFinish
  dsimp only
  split
  · rfl
  · rename_i r rest _
    obtain ⟨m, hm⟩ := s.memStore_eq (r.quad * bankBytes + 64 * r.base) l
    rw [hm]
    split
    · rfl
    · split
      · exact State.holds_pending (fun B L h => by simp +contextual (maxDischargeDepth := 40) [h])
      · split
        · exact (show State.holds m s.pending _ by simp +contextual (maxDischargeDepth := 40)).2
        · exact (show State.holds m s.pending _ by simp +contextual (maxDischargeDepth := 40)).2

theorem State.spi_pending (s : State) (cmd addr : Nat) (data : List Nat) (n : Nat) : (s.spi cmd addr data n).pending = s.pending := by
  unfold State.spi
  dsimp only
  repeat' split
  all_goals first
    | rfl
    | exact State.holds_pending (fun B L h => by simp +contextual (maxDischargeDepth := 40) [h])
    | (unfold State.spiWrite
       refine foldl_keeps (fun u : State => u.pending = s.pending) _ (fun u e h => ?_) _ _ rfl
       dsimp only
       repeat' split
       all_goals first
         | exact h
         | exact (State.bar2Write_pending _ _ _).trans h
         | exact (State.holds_pending (fun B L h => State.wrote_holds h _ _ _ _)).trans h)

theorem State.coreReset_pending (s : State) (cause : Nat) : (s.coreReset cause).pending = s.pending := by
  unfold State.coreReset
  refine (State.holds_pending (fun B L h => State.put_holds (State.putFlag_holds (State.putFlag_holds h _ _ _) _ _ _) _ _ _)).trans ?_
  rfl

end Sys2Proof.Machine
end

