-- ==== Sys2Proof/Laws/State.lean ====
section
/-! SUPPORT. One lemma for each field of State and each named update: what the update leaves, so that no later proof unfolds a record
update; and what the registers and the units read after one. -/

namespace Sys2Proof.Machine

/-! ### Puts of registers -/

@[simp] theorem State.wr_clk (s : State) (p o : Nat) (v : Word) : (s.wr p o v).clk = s.clk := rfl
@[simp] theorem State.put_clk (s : State) (p : Nat) (x : Fld) (v : Nat) : (s.put p x v).clk = s.clk := by rw [State.put_eq]
@[simp] theorem State.wr_host (s : State) (p o : Nat) (v : Word) : (s.wr p o v).host = s.host := rfl
@[simp] theorem State.put_host (s : State) (p : Nat) (x : Fld) (v : Nat) : (s.put p x v).host = s.host := by rw [State.put_eq]
@[simp] theorem State.wr_quads (s : State) (p o : Nat) (v : Word) : (s.wr p o v).quads = s.quads := rfl
@[simp] theorem State.put_quads (s : State) (p : Nat) (x : Fld) (v : Nat) : (s.put p x v).quads = s.quads := by rw [State.put_eq]
@[simp] theorem State.wr_chans (s : State) (p o : Nat) (v : Word) : (s.wr p o v).chans = s.chans := rfl
@[simp] theorem State.put_chans (s : State) (p : Nat) (x : Fld) (v : Nat) : (s.put p x v).chans = s.chans := by rw [State.put_eq]
@[simp] theorem State.wr_lines (s : State) (p o : Nat) (v : Word) : (s.wr p o v).lines = s.lines := rfl
@[simp] theorem State.put_lines (s : State) (p : Nat) (x : Fld) (v : Nat) : (s.put p x v).lines = s.lines := by rw [State.put_eq]
@[simp] theorem State.wr_seqs (s : State) (p o : Nat) (v : Word) : (s.wr p o v).seqs = s.seqs := rfl
@[simp] theorem State.put_seqs (s : State) (p : Nat) (x : Fld) (v : Nat) : (s.put p x v).seqs = s.seqs := by rw [State.put_eq]
@[simp] theorem State.wr_sync (s : State) (p o : Nat) (v : Word) : (s.wr p o v).sync = s.sync := rfl
@[simp] theorem State.put_sync (s : State) (p : Nat) (x : Fld) (v : Nat) : (s.put p x v).sync = s.sync := by rw [State.put_eq]
@[simp] theorem State.wr_ecc (s : State) (p o : Nat) (v : Word) : (s.wr p o v).ecc = s.ecc := rfl
@[simp] theorem State.put_ecc (s : State) (p : Nat) (x : Fld) (v : Nat) : (s.put p x v).ecc = s.ecc := by rw [State.put_eq]
@[simp] theorem State.wr_auxMarks (s : State) (p o : Nat) (v : Word) : (s.wr p o v).auxMarks = s.auxMarks := rfl
@[simp] theorem State.put_auxMarks (s : State) (p : Nat) (x : Fld) (v : Nat) : (s.put p x v).auxMarks = s.auxMarks := by rw [State.put_eq]
@[simp] theorem State.wr_sched (s : State) (p o : Nat) (v : Word) : (s.wr p o v).sched = s.sched := rfl
@[simp] theorem State.put_sched (s : State) (p : Nat) (x : Fld) (v : Nat) : (s.put p x v).sched = s.sched := by rw [State.put_eq]
@[simp] theorem State.wr_phases (s : State) (p o : Nat) (v : Word) : (s.wr p o v).phases = s.phases := rfl
@[simp] theorem State.put_phases (s : State) (p : Nat) (x : Fld) (v : Nat) : (s.put p x v).phases = s.phases := by rw [State.put_eq]
@[simp] theorem State.wr_tins (s : State) (p o : Nat) (v : Word) : (s.wr p o v).tins = s.tins := rfl
@[simp] theorem State.put_tins (s : State) (p : Nat) (x : Fld) (v : Nat) : (s.put p x v).tins = s.tins := by rw [State.put_eq]
@[simp] theorem State.wr_meas (s : State) (p o : Nat) (v : Word) : (s.wr p o v).meas = s.meas := rfl
@[simp] theorem State.put_meas (s : State) (p : Nat) (x : Fld) (v : Nat) : (s.put p x v).meas = s.meas := by rw [State.put_eq]
@[simp] theorem State.wr_refs (s : State) (p o : Nat) (v : Word) : (s.wr p o v).refs = s.refs := rfl
@[simp] theorem State.put_refs (s : State) (p : Nat) (x : Fld) (v : Nat) : (s.put p x v).refs = s.refs := by rw [State.put_eq]
@[simp] theorem State.wr_servo (s : State) (p o : Nat) (v : Word) : (s.wr p o v).servo = s.servo := rfl
@[simp] theorem State.put_servo (s : State) (p : Nat) (x : Fld) (v : Nat) : (s.put p x v).servo = s.servo := by rw [State.put_eq]
@[simp] theorem State.wr_xo (s : State) (p o : Nat) (v : Word) : (s.wr p o v).xo = s.xo := rfl
@[simp] theorem State.put_xo (s : State) (p : Nat) (x : Fld) (v : Nat) : (s.put p x v).xo = s.xo := by rw [State.put_eq]
@[simp] theorem State.wr_apllmPasses (s : State) (p o : Nat) (v : Word) : (s.wr p o v).apllmPasses = s.apllmPasses := rfl
@[simp] theorem State.put_apllmPasses (s : State) (p : Nat) (x : Fld) (v : Nat) : (s.put p x v).apllmPasses = s.apllmPasses := by rw [State.put_eq]
@[simp] theorem State.wr_aplla (s : State) (p o : Nat) (v : Word) : (s.wr p o v).aplla = s.aplla := rfl
@[simp] theorem State.put_aplla (s : State) (p : Nat) (x : Fld) (v : Nat) : (s.put p x v).aplla = s.aplla := by rw [State.put_eq]
@[simp] theorem State.wr_auxs (s : State) (p o : Nat) (v : Word) : (s.wr p o v).auxs = s.auxs := rfl
@[simp] theorem State.put_auxs (s : State) (p : Nat) (x : Fld) (v : Nat) : (s.put p x v).auxs = s.auxs := by rw [State.put_eq]
@[simp] theorem State.wr_domain (s : State) (p o : Nat) (v : Word) : (s.wr p o v).domain = s.domain := rfl
@[simp] theorem State.put_domain (s : State) (p : Nat) (x : Fld) (v : Nat) : (s.put p x v).domain = s.domain := by rw [State.put_eq]
@[simp] theorem State.wr_teb (s : State) (p o : Nat) (v : Word) : (s.wr p o v).teb = s.teb := rfl
@[simp] theorem State.put_teb (s : State) (p : Nat) (x : Fld) (v : Nat) : (s.put p x v).teb = s.teb := by rw [State.put_eq]
@[simp] theorem State.wr_gutter (s : State) (p o : Nat) (v : Word) : (s.wr p o v).gutter = s.gutter := rfl
@[simp] theorem State.put_gutter (s : State) (p : Nat) (x : Fld) (v : Nat) : (s.put p x v).gutter = s.gutter := by rw [State.put_eq]
@[simp] theorem State.wr_ridge (s : State) (p o : Nat) (v : Word) : (s.wr p o v).ridge = s.ridge := rfl
@[simp] theorem State.put_ridge (s : State) (p : Nat) (x : Fld) (v : Nat) : (s.put p x v).ridge = s.ridge := by rw [State.put_eq]
@[simp] theorem State.wr_eths (s : State) (p o : Nat) (v : Word) : (s.wr p o v).eths = s.eths := rfl
@[simp] theorem State.put_eths (s : State) (p : Nat) (x : Fld) (v : Nat) : (s.put p x v).eths = s.eths := by rw [State.put_eq]
@[simp] theorem State.wr_eave (s : State) (p o : Nat) (v : Word) : (s.wr p o v).eave = s.eave := rfl
@[simp] theorem State.put_eave (s : State) (p : Nat) (x : Fld) (v : Nat) : (s.put p x v).eave = s.eave := by rw [State.put_eq]
@[simp] theorem State.wr_power (s : State) (p o : Nat) (v : Word) : (s.wr p o v).power = s.power := rfl
@[simp] theorem State.put_power (s : State) (p : Nat) (x : Fld) (v : Nat) : (s.put p x v).power = s.power := by rw [State.put_eq]
@[simp] theorem State.wr_flash (s : State) (p o : Nat) (v : Word) : (s.wr p o v).flash = s.flash := rfl
@[simp] theorem State.put_flash (s : State) (p : Nat) (x : Fld) (v : Nat) : (s.put p x v).flash = s.flash := by rw [State.put_eq]
@[simp] theorem State.wr_out (s : State) (p o : Nat) (v : Word) : (s.wr p o v).out = s.out := rfl
@[simp] theorem State.put_out (s : State) (p : Nat) (x : Fld) (v : Nat) : (s.put p x v).out = s.out := by rw [State.put_eq]
@[simp] theorem State.wr_faultEvents (s : State) (p o : Nat) (v : Word) : (s.wr p o v).faultEvents = s.faultEvents := rfl
@[simp] theorem State.put_faultEvents (s : State) (p : Nat) (x : Fld) (v : Nat) : (s.put p x v).faultEvents = s.faultEvents := by rw [State.put_eq]
@[simp] theorem State.wr_lineEvents (s : State) (p o : Nat) (v : Word) : (s.wr p o v).lineEvents = s.lineEvents := rfl
@[simp] theorem State.put_lineEvents (s : State) (p : Nat) (x : Fld) (v : Nat) : (s.put p x v).lineEvents = s.lineEvents := by rw [State.put_eq]
@[simp] theorem State.wr_msixOwed (s : State) (p o : Nat) (v : Word) : (s.wr p o v).msixOwed = s.msixOwed := rfl
@[simp] theorem State.put_msixOwed (s : State) (p : Nat) (x : Fld) (v : Nat) : (s.put p x v).msixOwed = s.msixOwed := by rw [State.put_eq]
@[simp] theorem State.wr_freeUses (s : State) (p o : Nat) (v : Word) : (s.wr p o v).freeUses = s.freeUses := rfl
@[simp] theorem State.put_freeUses (s : State) (p : Nat) (x : Fld) (v : Nat) : (s.put p x v).freeUses = s.freeUses := by rw [State.put_eq]
@[simp] theorem State.wr_bar2 (s : State) (p o : Nat) (v : Word) : (s.wr p o v).bar2 = s.bar2 := rfl
@[simp] theorem State.put_bar2 (s : State) (p : Nat) (x : Fld) (v : Nat) : (s.put p x v).bar2 = s.bar2 := by rw [State.put_eq]
@[simp] theorem State.wr_pending (s : State) (p o : Nat) (v : Word) : (s.wr p o v).pending = s.pending := rfl
@[simp] theorem State.put_pending (s : State) (p : Nat) (x : Fld) (v : Nat) : (s.put p x v).pending = s.pending := by rw [State.put_eq]

theorem State.putFlag_eq (s : State) (p : Nat) (f : Fld) (b : Bool) : s.putFlag p f b = s.put p f (b2n b) := rfl
theorem State.putI_eq (s : State) (p : Nat) (f : Fld) (v : Int) : s.putI p f v = s.put p f (ofSigned (f.hi + 1 - f.lo) v) := rfl
theorem State.putInst_eq (s : State) (p : Nat) (f : Fld) (t : Int) : s.putInst p f t = s.put p f (instantBits t.toNat) := rfl
theorem State.putSpan_eq (s : State) (p : Nat) (f : Fld) (i : Int) : s.putSpan p f i = s.put p f (spanBits i) := rfl

/-- A field of one word reads what was put into it, modulo its width. -/
theorem State.get_put_self (s : State) (p : Nat) (f : Fld) (v : Nat) (h : f.lo ≤ f.hi) (h32 : f.hi < 32) :
    (s.put p f v).get p f = v % 2 ^ (f.hi + 1 - f.lo) := by
  simp only [State.get, State.put, h32, if_true, State.rd_wr_self, BitVec.toNat_ofNat]
  rw [bitsOf_mod _ _ _ _ h32, bitsOf_putBits_self _ _ _ _ h]

/-- A field of one word stands when another field of the same word, apart from it, is put. -/
theorem State.get_put_apart (s : State) (p : Nat) (f g : Fld) (v : Nat) (h : f.lo ≤ f.hi) (h32 : f.hi < 32) (g32 : g.hi < 32)
    (ho : g.off = f.off) (hd : g.hi < f.lo ∨ f.hi < g.lo) : (s.put p f v).get p g = s.get p g := by
  simp only [State.get, State.put, h32, g32, if_true, ho, State.rd_wr_self, BitVec.toNat_ofNat]
  rw [bitsOf_mod _ _ _ _ g32, bitsOf_putBits_ne _ _ _ _ _ _ h hd]

/-- A field of one word stands when a field of another word is put. -/
theorem State.get_put_off (s : State) (p q : Nat) (f g : Fld) (v : Nat) (h32 : f.hi < 32) (g32 : g.hi < 32) (fo : f.off < 4096) (go : g.off < 4096)
    (hn : q ≠ p ∨ g.off ≠ f.off) : (s.put p f v).get q g = s.get q g := by
  simp only [State.get, State.put, h32, g32, if_true]
  rw [State.rd_wr_ne _ _ _ _ _ _ fo go hn]

/-! ### Outputs and events -/

@[simp] theorem State.emit_regs (s : State) (x : Out) : (s.emit x).regs = s.regs := rfl
@[simp] theorem State.post_regs (s : State) (e : LineEvent) : (s.post e).regs = s.regs := rfl
@[simp] theorem State.emit_clk (s : State) (x : Out) : (s.emit x).clk = s.clk := rfl
@[simp] theorem State.post_clk (s : State) (e : LineEvent) : (s.post e).clk = s.clk := rfl
@[simp] theorem State.emit_host (s : State) (x : Out) : (s.emit x).host = s.host := rfl
@[simp] theorem State.post_host (s : State) (e : LineEvent) : (s.post e).host = s.host := rfl
@[simp] theorem State.emit_quads (s : State) (x : Out) : (s.emit x).quads = s.quads := rfl
@[simp] theorem State.post_quads (s : State) (e : LineEvent) : (s.post e).quads = s.quads := rfl
@[simp] theorem State.emit_chans (s : State) (x : Out) : (s.emit x).chans = s.chans := rfl
@[simp] theorem State.post_chans (s : State) (e : LineEvent) : (s.post e).chans = s.chans := rfl
@[simp] theorem State.emit_lines (s : State) (x : Out) : (s.emit x).lines = s.lines := rfl
@[simp] theorem State.post_lines (s : State) (e : LineEvent) : (s.post e).lines = s.lines := rfl
@[simp] theorem State.emit_seqs (s : State) (x : Out) : (s.emit x).seqs = s.seqs := rfl
@[simp] theorem State.post_seqs (s : State) (e : LineEvent) : (s.post e).seqs = s.seqs := rfl
@[simp] theorem State.emit_sync (s : State) (x : Out) : (s.emit x).sync = s.sync := rfl
@[simp] theorem State.post_sync (s : State) (e : LineEvent) : (s.post e).sync = s.sync := rfl
@[simp] theorem State.emit_ecc (s : State) (x : Out) : (s.emit x).ecc = s.ecc := rfl
@[simp] theorem State.post_ecc (s : State) (e : LineEvent) : (s.post e).ecc = s.ecc := rfl
@[simp] theorem State.emit_auxMarks (s : State) (x : Out) : (s.emit x).auxMarks = s.auxMarks := rfl
@[simp] theorem State.post_auxMarks (s : State) (e : LineEvent) : (s.post e).auxMarks = s.auxMarks := rfl
@[simp] theorem State.emit_sched (s : State) (x : Out) : (s.emit x).sched = s.sched := rfl
@[simp] theorem State.post_sched (s : State) (e : LineEvent) : (s.post e).sched = s.sched := rfl
@[simp] theorem State.emit_phases (s : State) (x : Out) : (s.emit x).phases = s.phases := rfl
@[simp] theorem State.post_phases (s : State) (e : LineEvent) : (s.post e).phases = s.phases := rfl
@[simp] theorem State.emit_tins (s : State) (x : Out) : (s.emit x).tins = s.tins := rfl
@[simp] theorem State.post_tins (s : State) (e : LineEvent) : (s.post e).tins = s.tins := rfl
@[simp] theorem State.emit_meas (s : State) (x : Out) : (s.emit x).meas = s.meas := rfl
@[simp] theorem State.post_meas (s : State) (e : LineEvent) : (s.post e).meas = s.meas := rfl
@[simp] theorem State.emit_refs (s : State) (x : Out) : (s.emit x).refs = s.refs := rfl
@[simp] theorem State.post_refs (s : State) (e : LineEvent) : (s.post e).refs = s.refs := rfl
@[simp] theorem State.emit_servo (s : State) (x : Out) : (s.emit x).servo = s.servo := rfl
@[simp] theorem State.post_servo (s : State) (e : LineEvent) : (s.post e).servo = s.servo := rfl
@[simp] theorem State.emit_xo (s : State) (x : Out) : (s.emit x).xo = s.xo := rfl
@[simp] theorem State.post_xo (s : State) (e : LineEvent) : (s.post e).xo = s.xo := rfl
@[simp] theorem State.emit_apllmPasses (s : State) (x : Out) : (s.emit x).apllmPasses = s.apllmPasses := rfl
@[simp] theorem State.post_apllmPasses (s : State) (e : LineEvent) : (s.post e).apllmPasses = s.apllmPasses := rfl
@[simp] theorem State.emit_aplla (s : State) (x : Out) : (s.emit x).aplla = s.aplla := rfl
@[simp] theorem State.post_aplla (s : State) (e : LineEvent) : (s.post e).aplla = s.aplla := rfl
@[simp] theorem State.emit_auxs (s : State) (x : Out) : (s.emit x).auxs = s.auxs := rfl
@[simp] theorem State.post_auxs (s : State) (e : LineEvent) : (s.post e).auxs = s.auxs := rfl
@[simp] theorem State.emit_domain (s : State) (x : Out) : (s.emit x).domain = s.domain := rfl
@[simp] theorem State.post_domain (s : State) (e : LineEvent) : (s.post e).domain = s.domain := rfl
@[simp] theorem State.emit_teb (s : State) (x : Out) : (s.emit x).teb = s.teb := rfl
@[simp] theorem State.post_teb (s : State) (e : LineEvent) : (s.post e).teb = s.teb := rfl
@[simp] theorem State.emit_gutter (s : State) (x : Out) : (s.emit x).gutter = s.gutter := rfl
@[simp] theorem State.post_gutter (s : State) (e : LineEvent) : (s.post e).gutter = s.gutter := rfl
@[simp] theorem State.emit_ridge (s : State) (x : Out) : (s.emit x).ridge = s.ridge := rfl
@[simp] theorem State.post_ridge (s : State) (e : LineEvent) : (s.post e).ridge = s.ridge := rfl
@[simp] theorem State.emit_eths (s : State) (x : Out) : (s.emit x).eths = s.eths := rfl
@[simp] theorem State.post_eths (s : State) (e : LineEvent) : (s.post e).eths = s.eths := rfl
@[simp] theorem State.emit_eave (s : State) (x : Out) : (s.emit x).eave = s.eave := rfl
@[simp] theorem State.post_eave (s : State) (e : LineEvent) : (s.post e).eave = s.eave := rfl
@[simp] theorem State.emit_power (s : State) (x : Out) : (s.emit x).power = s.power := rfl
@[simp] theorem State.post_power (s : State) (e : LineEvent) : (s.post e).power = s.power := rfl
@[simp] theorem State.emit_flash (s : State) (x : Out) : (s.emit x).flash = s.flash := rfl
@[simp] theorem State.post_flash (s : State) (e : LineEvent) : (s.post e).flash = s.flash := rfl
@[simp] theorem State.post_out (s : State) (e : LineEvent) : (s.post e).out = s.out := rfl
@[simp] theorem State.emit_faultEvents (s : State) (x : Out) : (s.emit x).faultEvents = s.faultEvents := rfl
@[simp] theorem State.post_faultEvents (s : State) (e : LineEvent) : (s.post e).faultEvents = s.faultEvents := rfl
@[simp] theorem State.emit_lineEvents (s : State) (x : Out) : (s.emit x).lineEvents = s.lineEvents := rfl
@[simp] theorem State.emit_msixOwed (s : State) (x : Out) : (s.emit x).msixOwed = s.msixOwed := rfl
@[simp] theorem State.post_msixOwed (s : State) (e : LineEvent) : (s.post e).msixOwed = s.msixOwed := rfl
@[simp] theorem State.emit_freeUses (s : State) (x : Out) : (s.emit x).freeUses = s.freeUses := rfl
@[simp] theorem State.post_freeUses (s : State) (e : LineEvent) : (s.post e).freeUses = s.freeUses := rfl
@[simp] theorem State.emit_bar2 (s : State) (x : Out) : (s.emit x).bar2 = s.bar2 := rfl
@[simp] theorem State.post_bar2 (s : State) (e : LineEvent) : (s.post e).bar2 = s.bar2 := rfl
@[simp] theorem State.emit_pending (s : State) (x : Out) : (s.emit x).pending = s.pending := rfl
@[simp] theorem State.post_pending (s : State) (e : LineEvent) : (s.post e).pending = s.pending := rfl
@[simp] theorem State.emit_out (s : State) (x : Out) : (s.emit x).out = x :: s.out := rfl
@[simp] theorem State.post_lineEvents (s : State) (e : LineEvent) : (s.post e).lineEvents = s.lineEvents ++ [e] := rfl

/-! ### setQuad -/

@[simp] theorem State.setQuad_regs (s : State) (k : Nat) (x : QuadSt) : (s.setQuad k x).regs = s.regs := rfl
@[simp] theorem State.setQuad_clk (s : State) (k : Nat) (x : QuadSt) : (s.setQuad k x).clk = s.clk := rfl
@[simp] theorem State.setQuad_host (s : State) (k : Nat) (x : QuadSt) : (s.setQuad k x).host = s.host := rfl
@[simp] theorem State.setQuad_chans (s : State) (k : Nat) (x : QuadSt) : (s.setQuad k x).chans = s.chans := rfl
@[simp] theorem State.setQuad_lines (s : State) (k : Nat) (x : QuadSt) : (s.setQuad k x).lines = s.lines := rfl
@[simp] theorem State.setQuad_seqs (s : State) (k : Nat) (x : QuadSt) : (s.setQuad k x).seqs = s.seqs := rfl
@[simp] theorem State.setQuad_sync (s : State) (k : Nat) (x : QuadSt) : (s.setQuad k x).sync = s.sync := rfl
@[simp] theorem State.setQuad_ecc (s : State) (k : Nat) (x : QuadSt) : (s.setQuad k x).ecc = s.ecc := rfl
@[simp] theorem State.setQuad_auxMarks (s : State) (k : Nat) (x : QuadSt) : (s.setQuad k x).auxMarks = s.auxMarks := rfl
@[simp] theorem State.setQuad_sched (s : State) (k : Nat) (x : QuadSt) : (s.setQuad k x).sched = s.sched := rfl
@[simp] theorem State.setQuad_phases (s : State) (k : Nat) (x : QuadSt) : (s.setQuad k x).phases = s.phases := rfl
@[simp] theorem State.setQuad_tins (s : State) (k : Nat) (x : QuadSt) : (s.setQuad k x).tins = s.tins := rfl
@[simp] theorem State.setQuad_meas (s : State) (k : Nat) (x : QuadSt) : (s.setQuad k x).meas = s.meas := rfl
@[simp] theorem State.setQuad_refs (s : State) (k : Nat) (x : QuadSt) : (s.setQuad k x).refs = s.refs := rfl
@[simp] theorem State.setQuad_servo (s : State) (k : Nat) (x : QuadSt) : (s.setQuad k x).servo = s.servo := rfl
@[simp] theorem State.setQuad_xo (s : State) (k : Nat) (x : QuadSt) : (s.setQuad k x).xo = s.xo := rfl
@[simp] theorem State.setQuad_apllmPasses (s : State) (k : Nat) (x : QuadSt) : (s.setQuad k x).apllmPasses = s.apllmPasses := rfl
@[simp] theorem State.setQuad_aplla (s : State) (k : Nat) (x : QuadSt) : (s.setQuad k x).aplla = s.aplla := rfl
@[simp] theorem State.setQuad_auxs (s : State) (k : Nat) (x : QuadSt) : (s.setQuad k x).auxs = s.auxs := rfl
@[simp] theorem State.setQuad_domain (s : State) (k : Nat) (x : QuadSt) : (s.setQuad k x).domain = s.domain := rfl
@[simp] theorem State.setQuad_teb (s : State) (k : Nat) (x : QuadSt) : (s.setQuad k x).teb = s.teb := rfl
@[simp] theorem State.setQuad_gutter (s : State) (k : Nat) (x : QuadSt) : (s.setQuad k x).gutter = s.gutter := rfl
@[simp] theorem State.setQuad_ridge (s : State) (k : Nat) (x : QuadSt) : (s.setQuad k x).ridge = s.ridge := rfl
@[simp] theorem State.setQuad_eths (s : State) (k : Nat) (x : QuadSt) : (s.setQuad k x).eths = s.eths := rfl
@[simp] theorem State.setQuad_eave (s : State) (k : Nat) (x : QuadSt) : (s.setQuad k x).eave = s.eave := rfl
@[simp] theorem State.setQuad_power (s : State) (k : Nat) (x : QuadSt) : (s.setQuad k x).power = s.power := rfl
@[simp] theorem State.setQuad_flash (s : State) (k : Nat) (x : QuadSt) : (s.setQuad k x).flash = s.flash := rfl
@[simp] theorem State.setQuad_out (s : State) (k : Nat) (x : QuadSt) : (s.setQuad k x).out = s.out := rfl
@[simp] theorem State.setQuad_faultEvents (s : State) (k : Nat) (x : QuadSt) : (s.setQuad k x).faultEvents = s.faultEvents := rfl
@[simp] theorem State.setQuad_lineEvents (s : State) (k : Nat) (x : QuadSt) : (s.setQuad k x).lineEvents = s.lineEvents := rfl
@[simp] theorem State.setQuad_msixOwed (s : State) (k : Nat) (x : QuadSt) : (s.setQuad k x).msixOwed = s.msixOwed := rfl
@[simp] theorem State.setQuad_freeUses (s : State) (k : Nat) (x : QuadSt) : (s.setQuad k x).freeUses = s.freeUses := rfl
@[simp] theorem State.setQuad_bar2 (s : State) (k : Nat) (x : QuadSt) : (s.setQuad k x).bar2 = s.bar2 := rfl
@[simp] theorem State.setQuad_pending (s : State) (k : Nat) (x : QuadSt) : (s.setQuad k x).pending = s.pending := rfl
@[simp] theorem State.quad_setQuad (s : State) (k : Nat) (x : QuadSt) (h : k < (s.quads).length) : (s.setQuad k x).quad k = x := by
  simp [State.setQuad, State.quad, h]
@[simp] theorem State.quad_setQuad_ne (s : State) (k j : Nat) (x : QuadSt) (h : j ≠ k) : (s.setQuad k x).quad j = s.quad j := by
  simp [State.setQuad, State.quad, List.getElem?_set_ne (Ne.symm h)]

/-! ### setChan -/

@[simp] theorem State.setChan_regs (s : State) (k : Nat) (x : ChanSt) : (s.setChan k x).regs = s.regs := rfl
@[simp] theorem State.setChan_clk (s : State) (k : Nat) (x : ChanSt) : (s.setChan k x).clk = s.clk := rfl
@[simp] theorem State.setChan_host (s : State) (k : Nat) (x : ChanSt) : (s.setChan k x).host = s.host := rfl
@[simp] theorem State.setChan_quads (s : State) (k : Nat) (x : ChanSt) : (s.setChan k x).quads = s.quads := rfl
@[simp] theorem State.setChan_lines (s : State) (k : Nat) (x : ChanSt) : (s.setChan k x).lines = s.lines := rfl
@[simp] theorem State.setChan_seqs (s : State) (k : Nat) (x : ChanSt) : (s.setChan k x).seqs = s.seqs := rfl
@[simp] theorem State.setChan_sync (s : State) (k : Nat) (x : ChanSt) : (s.setChan k x).sync = s.sync := rfl
@[simp] theorem State.setChan_ecc (s : State) (k : Nat) (x : ChanSt) : (s.setChan k x).ecc = s.ecc := rfl
@[simp] theorem State.setChan_auxMarks (s : State) (k : Nat) (x : ChanSt) : (s.setChan k x).auxMarks = s.auxMarks := rfl
@[simp] theorem State.setChan_sched (s : State) (k : Nat) (x : ChanSt) : (s.setChan k x).sched = s.sched := rfl
@[simp] theorem State.setChan_phases (s : State) (k : Nat) (x : ChanSt) : (s.setChan k x).phases = s.phases := rfl
@[simp] theorem State.setChan_tins (s : State) (k : Nat) (x : ChanSt) : (s.setChan k x).tins = s.tins := rfl
@[simp] theorem State.setChan_meas (s : State) (k : Nat) (x : ChanSt) : (s.setChan k x).meas = s.meas := rfl
@[simp] theorem State.setChan_refs (s : State) (k : Nat) (x : ChanSt) : (s.setChan k x).refs = s.refs := rfl
@[simp] theorem State.setChan_servo (s : State) (k : Nat) (x : ChanSt) : (s.setChan k x).servo = s.servo := rfl
@[simp] theorem State.setChan_xo (s : State) (k : Nat) (x : ChanSt) : (s.setChan k x).xo = s.xo := rfl
@[simp] theorem State.setChan_apllmPasses (s : State) (k : Nat) (x : ChanSt) : (s.setChan k x).apllmPasses = s.apllmPasses := rfl
@[simp] theorem State.setChan_aplla (s : State) (k : Nat) (x : ChanSt) : (s.setChan k x).aplla = s.aplla := rfl
@[simp] theorem State.setChan_auxs (s : State) (k : Nat) (x : ChanSt) : (s.setChan k x).auxs = s.auxs := rfl
@[simp] theorem State.setChan_domain (s : State) (k : Nat) (x : ChanSt) : (s.setChan k x).domain = s.domain := rfl
@[simp] theorem State.setChan_teb (s : State) (k : Nat) (x : ChanSt) : (s.setChan k x).teb = s.teb := rfl
@[simp] theorem State.setChan_gutter (s : State) (k : Nat) (x : ChanSt) : (s.setChan k x).gutter = s.gutter := rfl
@[simp] theorem State.setChan_ridge (s : State) (k : Nat) (x : ChanSt) : (s.setChan k x).ridge = s.ridge := rfl
@[simp] theorem State.setChan_eths (s : State) (k : Nat) (x : ChanSt) : (s.setChan k x).eths = s.eths := rfl
@[simp] theorem State.setChan_eave (s : State) (k : Nat) (x : ChanSt) : (s.setChan k x).eave = s.eave := rfl
@[simp] theorem State.setChan_power (s : State) (k : Nat) (x : ChanSt) : (s.setChan k x).power = s.power := rfl
@[simp] theorem State.setChan_flash (s : State) (k : Nat) (x : ChanSt) : (s.setChan k x).flash = s.flash := rfl
@[simp] theorem State.setChan_out (s : State) (k : Nat) (x : ChanSt) : (s.setChan k x).out = s.out := rfl
@[simp] theorem State.setChan_faultEvents (s : State) (k : Nat) (x : ChanSt) : (s.setChan k x).faultEvents = s.faultEvents := rfl
@[simp] theorem State.setChan_lineEvents (s : State) (k : Nat) (x : ChanSt) : (s.setChan k x).lineEvents = s.lineEvents := rfl
@[simp] theorem State.setChan_msixOwed (s : State) (k : Nat) (x : ChanSt) : (s.setChan k x).msixOwed = s.msixOwed := rfl
@[simp] theorem State.setChan_freeUses (s : State) (k : Nat) (x : ChanSt) : (s.setChan k x).freeUses = s.freeUses := rfl
@[simp] theorem State.setChan_bar2 (s : State) (k : Nat) (x : ChanSt) : (s.setChan k x).bar2 = s.bar2 := rfl
@[simp] theorem State.setChan_pending (s : State) (k : Nat) (x : ChanSt) : (s.setChan k x).pending = s.pending := rfl
@[simp] theorem State.chan_setChan (s : State) (k : Nat) (x : ChanSt) (h : k < (s.chans).length) : (s.setChan k x).chan k = x := by
  simp [State.setChan, State.chan, h]
@[simp] theorem State.chan_setChan_ne (s : State) (k j : Nat) (x : ChanSt) (h : j ≠ k) : (s.setChan k x).chan j = s.chan j := by
  simp [State.setChan, State.chan, List.getElem?_set_ne (Ne.symm h)]

/-! ### setLine -/

@[simp] theorem State.setLine_regs (s : State) (k : Nat) (x : LineSt) : (s.setLine k x).regs = s.regs := rfl
@[simp] theorem State.setLine_clk (s : State) (k : Nat) (x : LineSt) : (s.setLine k x).clk = s.clk := rfl
@[simp] theorem State.setLine_host (s : State) (k : Nat) (x : LineSt) : (s.setLine k x).host = s.host := rfl
@[simp] theorem State.setLine_quads (s : State) (k : Nat) (x : LineSt) : (s.setLine k x).quads = s.quads := rfl
@[simp] theorem State.setLine_chans (s : State) (k : Nat) (x : LineSt) : (s.setLine k x).chans = s.chans := rfl
@[simp] theorem State.setLine_seqs (s : State) (k : Nat) (x : LineSt) : (s.setLine k x).seqs = s.seqs := rfl
@[simp] theorem State.setLine_sync (s : State) (k : Nat) (x : LineSt) : (s.setLine k x).sync = s.sync := rfl
@[simp] theorem State.setLine_ecc (s : State) (k : Nat) (x : LineSt) : (s.setLine k x).ecc = s.ecc := rfl
@[simp] theorem State.setLine_auxMarks (s : State) (k : Nat) (x : LineSt) : (s.setLine k x).auxMarks = s.auxMarks := rfl
@[simp] theorem State.setLine_sched (s : State) (k : Nat) (x : LineSt) : (s.setLine k x).sched = s.sched := rfl
@[simp] theorem State.setLine_phases (s : State) (k : Nat) (x : LineSt) : (s.setLine k x).phases = s.phases := rfl
@[simp] theorem State.setLine_tins (s : State) (k : Nat) (x : LineSt) : (s.setLine k x).tins = s.tins := rfl
@[simp] theorem State.setLine_meas (s : State) (k : Nat) (x : LineSt) : (s.setLine k x).meas = s.meas := rfl
@[simp] theorem State.setLine_refs (s : State) (k : Nat) (x : LineSt) : (s.setLine k x).refs = s.refs := rfl
@[simp] theorem State.setLine_servo (s : State) (k : Nat) (x : LineSt) : (s.setLine k x).servo = s.servo := rfl
@[simp] theorem State.setLine_xo (s : State) (k : Nat) (x : LineSt) : (s.setLine k x).xo = s.xo := rfl
@[simp] theorem State.setLine_apllmPasses (s : State) (k : Nat) (x : LineSt) : (s.setLine k x).apllmPasses = s.apllmPasses := rfl
@[simp] theorem State.setLine_aplla (s : State) (k : Nat) (x : LineSt) : (s.setLine k x).aplla = s.aplla := rfl
@[simp] theorem State.setLine_auxs (s : State) (k : Nat) (x : LineSt) : (s.setLine k x).auxs = s.auxs := rfl
@[simp] theorem State.setLine_domain (s : State) (k : Nat) (x : LineSt) : (s.setLine k x).domain = s.domain := rfl
@[simp] theorem State.setLine_teb (s : State) (k : Nat) (x : LineSt) : (s.setLine k x).teb = s.teb := rfl
@[simp] theorem State.setLine_gutter (s : State) (k : Nat) (x : LineSt) : (s.setLine k x).gutter = s.gutter := rfl
@[simp] theorem State.setLine_ridge (s : State) (k : Nat) (x : LineSt) : (s.setLine k x).ridge = s.ridge := rfl
@[simp] theorem State.setLine_eths (s : State) (k : Nat) (x : LineSt) : (s.setLine k x).eths = s.eths := rfl
@[simp] theorem State.setLine_eave (s : State) (k : Nat) (x : LineSt) : (s.setLine k x).eave = s.eave := rfl
@[simp] theorem State.setLine_power (s : State) (k : Nat) (x : LineSt) : (s.setLine k x).power = s.power := rfl
@[simp] theorem State.setLine_flash (s : State) (k : Nat) (x : LineSt) : (s.setLine k x).flash = s.flash := rfl
@[simp] theorem State.setLine_out (s : State) (k : Nat) (x : LineSt) : (s.setLine k x).out = s.out := rfl
@[simp] theorem State.setLine_faultEvents (s : State) (k : Nat) (x : LineSt) : (s.setLine k x).faultEvents = s.faultEvents := rfl
@[simp] theorem State.setLine_lineEvents (s : State) (k : Nat) (x : LineSt) : (s.setLine k x).lineEvents = s.lineEvents := rfl
@[simp] theorem State.setLine_msixOwed (s : State) (k : Nat) (x : LineSt) : (s.setLine k x).msixOwed = s.msixOwed := rfl
@[simp] theorem State.setLine_freeUses (s : State) (k : Nat) (x : LineSt) : (s.setLine k x).freeUses = s.freeUses := rfl
@[simp] theorem State.setLine_bar2 (s : State) (k : Nat) (x : LineSt) : (s.setLine k x).bar2 = s.bar2 := rfl
@[simp] theorem State.setLine_pending (s : State) (k : Nat) (x : LineSt) : (s.setLine k x).pending = s.pending := rfl
@[simp] theorem State.line_setLine (s : State) (k : Nat) (x : LineSt) (h : k < (s.lines).length) : (s.setLine k x).line k = x := by
  simp [State.setLine, State.line, h]
@[simp] theorem State.line_setLine_ne (s : State) (k j : Nat) (x : LineSt) (h : j ≠ k) : (s.setLine k x).line j = s.line j := by
  simp [State.setLine, State.line, List.getElem?_set_ne (Ne.symm h)]

/-! ### setRing -/

@[simp] theorem State.setRing_regs (s : State) (k : Nat) (x : RingSt) : (s.setRing k x).regs = s.regs := rfl
@[simp] theorem State.setRing_clk (s : State) (k : Nat) (x : RingSt) : (s.setRing k x).clk = s.clk := rfl
@[simp] theorem State.setRing_quads (s : State) (k : Nat) (x : RingSt) : (s.setRing k x).quads = s.quads := rfl
@[simp] theorem State.setRing_chans (s : State) (k : Nat) (x : RingSt) : (s.setRing k x).chans = s.chans := rfl
@[simp] theorem State.setRing_lines (s : State) (k : Nat) (x : RingSt) : (s.setRing k x).lines = s.lines := rfl
@[simp] theorem State.setRing_seqs (s : State) (k : Nat) (x : RingSt) : (s.setRing k x).seqs = s.seqs := rfl
@[simp] theorem State.setRing_sync (s : State) (k : Nat) (x : RingSt) : (s.setRing k x).sync = s.sync := rfl
@[simp] theorem State.setRing_ecc (s : State) (k : Nat) (x : RingSt) : (s.setRing k x).ecc = s.ecc := rfl
@[simp] theorem State.setRing_auxMarks (s : State) (k : Nat) (x : RingSt) : (s.setRing k x).auxMarks = s.auxMarks := rfl
@[simp] theorem State.setRing_sched (s : State) (k : Nat) (x : RingSt) : (s.setRing k x).sched = s.sched := rfl
@[simp] theorem State.setRing_phases (s : State) (k : Nat) (x : RingSt) : (s.setRing k x).phases = s.phases := rfl
@[simp] theorem State.setRing_tins (s : State) (k : Nat) (x : RingSt) : (s.setRing k x).tins = s.tins := rfl
@[simp] theorem State.setRing_meas (s : State) (k : Nat) (x : RingSt) : (s.setRing k x).meas = s.meas := rfl
@[simp] theorem State.setRing_refs (s : State) (k : Nat) (x : RingSt) : (s.setRing k x).refs = s.refs := rfl
@[simp] theorem State.setRing_servo (s : State) (k : Nat) (x : RingSt) : (s.setRing k x).servo = s.servo := rfl
@[simp] theorem State.setRing_xo (s : State) (k : Nat) (x : RingSt) : (s.setRing k x).xo = s.xo := rfl
@[simp] theorem State.setRing_apllmPasses (s : State) (k : Nat) (x : RingSt) : (s.setRing k x).apllmPasses = s.apllmPasses := rfl
@[simp] theorem State.setRing_aplla (s : State) (k : Nat) (x : RingSt) : (s.setRing k x).aplla = s.aplla := rfl
@[simp] theorem State.setRing_auxs (s : State) (k : Nat) (x : RingSt) : (s.setRing k x).auxs = s.auxs := rfl
@[simp] theorem State.setRing_domain (s : State) (k : Nat) (x : RingSt) : (s.setRing k x).domain = s.domain := rfl
@[simp] theorem State.setRing_teb (s : State) (k : Nat) (x : RingSt) : (s.setRing k x).teb = s.teb := rfl
@[simp] theorem State.setRing_gutter (s : State) (k : Nat) (x : RingSt) : (s.setRing k x).gutter = s.gutter := rfl
@[simp] theorem State.setRing_ridge (s : State) (k : Nat) (x : RingSt) : (s.setRing k x).ridge = s.ridge := rfl
@[simp] theorem State.setRing_eths (s : State) (k : Nat) (x : RingSt) : (s.setRing k x).eths = s.eths := rfl
@[simp] theorem State.setRing_eave (s : State) (k : Nat) (x : RingSt) : (s.setRing k x).eave = s.eave := rfl
@[simp] theorem State.setRing_power (s : State) (k : Nat) (x : RingSt) : (s.setRing k x).power = s.power := rfl
@[simp] theorem State.setRing_flash (s : State) (k : Nat) (x : RingSt) : (s.setRing k x).flash = s.flash := rfl
@[simp] theorem State.setRing_out (s : State) (k : Nat) (x : RingSt) : (s.setRing k x).out = s.out := rfl
@[simp] theorem State.setRing_faultEvents (s : State) (k : Nat) (x : RingSt) : (s.setRing k x).faultEvents = s.faultEvents := rfl
@[simp] theorem State.setRing_lineEvents (s : State) (k : Nat) (x : RingSt) : (s.setRing k x).lineEvents = s.lineEvents := rfl
@[simp] theorem State.setRing_msixOwed (s : State) (k : Nat) (x : RingSt) : (s.setRing k x).msixOwed = s.msixOwed := rfl
@[simp] theorem State.setRing_freeUses (s : State) (k : Nat) (x : RingSt) : (s.setRing k x).freeUses = s.freeUses := rfl
@[simp] theorem State.setRing_bar2 (s : State) (k : Nat) (x : RingSt) : (s.setRing k x).bar2 = s.bar2 := rfl
@[simp] theorem State.setRing_pending (s : State) (k : Nat) (x : RingSt) : (s.setRing k x).pending = s.pending := rfl
@[simp] theorem State.ring_setRing (s : State) (k : Nat) (x : RingSt) (h : k < (s.host.rings).length) : (s.setRing k x).ring k = x := by
  simp [State.setRing, State.ring, h]
@[simp] theorem State.ring_setRing_ne (s : State) (k j : Nat) (x : RingSt) (h : j ≠ k) : (s.setRing k x).ring j = s.ring j := by
  simp [State.setRing, State.ring, List.getElem?_set_ne (Ne.symm h)]

/-! ### setSeq -/

@[simp] theorem State.setSeq_regs (s : State) (k : Nat) (x : SeqSt) : (s.setSeq k x).regs = s.regs := rfl
@[simp] theorem State.setSeq_clk (s : State) (k : Nat) (x : SeqSt) : (s.setSeq k x).clk = s.clk := rfl
@[simp] theorem State.setSeq_host (s : State) (k : Nat) (x : SeqSt) : (s.setSeq k x).host = s.host := rfl
@[simp] theorem State.setSeq_quads (s : State) (k : Nat) (x : SeqSt) : (s.setSeq k x).quads = s.quads := rfl
@[simp] theorem State.setSeq_chans (s : State) (k : Nat) (x : SeqSt) : (s.setSeq k x).chans = s.chans := rfl
@[simp] theorem State.setSeq_lines (s : State) (k : Nat) (x : SeqSt) : (s.setSeq k x).lines = s.lines := rfl
@[simp] theorem State.setSeq_sync (s : State) (k : Nat) (x : SeqSt) : (s.setSeq k x).sync = s.sync := rfl
@[simp] theorem State.setSeq_ecc (s : State) (k : Nat) (x : SeqSt) : (s.setSeq k x).ecc = s.ecc := rfl
@[simp] theorem State.setSeq_auxMarks (s : State) (k : Nat) (x : SeqSt) : (s.setSeq k x).auxMarks = s.auxMarks := rfl
@[simp] theorem State.setSeq_sched (s : State) (k : Nat) (x : SeqSt) : (s.setSeq k x).sched = s.sched := rfl
@[simp] theorem State.setSeq_phases (s : State) (k : Nat) (x : SeqSt) : (s.setSeq k x).phases = s.phases := rfl
@[simp] theorem State.setSeq_tins (s : State) (k : Nat) (x : SeqSt) : (s.setSeq k x).tins = s.tins := rfl
@[simp] theorem State.setSeq_meas (s : State) (k : Nat) (x : SeqSt) : (s.setSeq k x).meas = s.meas := rfl
@[simp] theorem State.setSeq_refs (s : State) (k : Nat) (x : SeqSt) : (s.setSeq k x).refs = s.refs := rfl
@[simp] theorem State.setSeq_servo (s : State) (k : Nat) (x : SeqSt) : (s.setSeq k x).servo = s.servo := rfl
@[simp] theorem State.setSeq_xo (s : State) (k : Nat) (x : SeqSt) : (s.setSeq k x).xo = s.xo := rfl
@[simp] theorem State.setSeq_apllmPasses (s : State) (k : Nat) (x : SeqSt) : (s.setSeq k x).apllmPasses = s.apllmPasses := rfl
@[simp] theorem State.setSeq_aplla (s : State) (k : Nat) (x : SeqSt) : (s.setSeq k x).aplla = s.aplla := rfl
@[simp] theorem State.setSeq_auxs (s : State) (k : Nat) (x : SeqSt) : (s.setSeq k x).auxs = s.auxs := rfl
@[simp] theorem State.setSeq_domain (s : State) (k : Nat) (x : SeqSt) : (s.setSeq k x).domain = s.domain := rfl
@[simp] theorem State.setSeq_teb (s : State) (k : Nat) (x : SeqSt) : (s.setSeq k x).teb = s.teb := rfl
@[simp] theorem State.setSeq_gutter (s : State) (k : Nat) (x : SeqSt) : (s.setSeq k x).gutter = s.gutter := rfl
@[simp] theorem State.setSeq_ridge (s : State) (k : Nat) (x : SeqSt) : (s.setSeq k x).ridge = s.ridge := rfl
@[simp] theorem State.setSeq_eths (s : State) (k : Nat) (x : SeqSt) : (s.setSeq k x).eths = s.eths := rfl
@[simp] theorem State.setSeq_eave (s : State) (k : Nat) (x : SeqSt) : (s.setSeq k x).eave = s.eave := rfl
@[simp] theorem State.setSeq_power (s : State) (k : Nat) (x : SeqSt) : (s.setSeq k x).power = s.power := rfl
@[simp] theorem State.setSeq_flash (s : State) (k : Nat) (x : SeqSt) : (s.setSeq k x).flash = s.flash := rfl
@[simp] theorem State.setSeq_out (s : State) (k : Nat) (x : SeqSt) : (s.setSeq k x).out = s.out := rfl
@[simp] theorem State.setSeq_faultEvents (s : State) (k : Nat) (x : SeqSt) : (s.setSeq k x).faultEvents = s.faultEvents := rfl
@[simp] theorem State.setSeq_lineEvents (s : State) (k : Nat) (x : SeqSt) : (s.setSeq k x).lineEvents = s.lineEvents := rfl
@[simp] theorem State.setSeq_msixOwed (s : State) (k : Nat) (x : SeqSt) : (s.setSeq k x).msixOwed = s.msixOwed := rfl
@[simp] theorem State.setSeq_freeUses (s : State) (k : Nat) (x : SeqSt) : (s.setSeq k x).freeUses = s.freeUses := rfl
@[simp] theorem State.setSeq_bar2 (s : State) (k : Nat) (x : SeqSt) : (s.setSeq k x).bar2 = s.bar2 := rfl
@[simp] theorem State.setSeq_pending (s : State) (k : Nat) (x : SeqSt) : (s.setSeq k x).pending = s.pending := rfl
@[simp] theorem State.seq_setSeq (s : State) (k : Nat) (x : SeqSt) (h : k < (s.seqs).length) : (s.setSeq k x).seq k = x := by
  simp [State.setSeq, State.seq, h]
@[simp] theorem State.seq_setSeq_ne (s : State) (k j : Nat) (x : SeqSt) (h : j ≠ k) : (s.setSeq k x).seq j = s.seq j := by
  simp [State.setSeq, State.seq, List.getElem?_set_ne (Ne.symm h)]

/-! ### setPhase -/

@[simp] theorem State.setPhase_regs (s : State) (k : Nat) (x : PhaseSt) : (s.setPhase k x).regs = s.regs := rfl
@[simp] theorem State.setPhase_clk (s : State) (k : Nat) (x : PhaseSt) : (s.setPhase k x).clk = s.clk := rfl
@[simp] theorem State.setPhase_host (s : State) (k : Nat) (x : PhaseSt) : (s.setPhase k x).host = s.host := rfl
@[simp] theorem State.setPhase_quads (s : State) (k : Nat) (x : PhaseSt) : (s.setPhase k x).quads = s.quads := rfl
@[simp] theorem State.setPhase_chans (s : State) (k : Nat) (x : PhaseSt) : (s.setPhase k x).chans = s.chans := rfl
@[simp] theorem State.setPhase_lines (s : State) (k : Nat) (x : PhaseSt) : (s.setPhase k x).lines = s.lines := rfl
@[simp] theorem State.setPhase_seqs (s : State) (k : Nat) (x : PhaseSt) : (s.setPhase k x).seqs = s.seqs := rfl
@[simp] theorem State.setPhase_sync (s : State) (k : Nat) (x : PhaseSt) : (s.setPhase k x).sync = s.sync := rfl
@[simp] theorem State.setPhase_ecc (s : State) (k : Nat) (x : PhaseSt) : (s.setPhase k x).ecc = s.ecc := rfl
@[simp] theorem State.setPhase_auxMarks (s : State) (k : Nat) (x : PhaseSt) : (s.setPhase k x).auxMarks = s.auxMarks := rfl
@[simp] theorem State.setPhase_sched (s : State) (k : Nat) (x : PhaseSt) : (s.setPhase k x).sched = s.sched := rfl
@[simp] theorem State.setPhase_tins (s : State) (k : Nat) (x : PhaseSt) : (s.setPhase k x).tins = s.tins := rfl
@[simp] theorem State.setPhase_meas (s : State) (k : Nat) (x : PhaseSt) : (s.setPhase k x).meas = s.meas := rfl
@[simp] theorem State.setPhase_refs (s : State) (k : Nat) (x : PhaseSt) : (s.setPhase k x).refs = s.refs := rfl
@[simp] theorem State.setPhase_servo (s : State) (k : Nat) (x : PhaseSt) : (s.setPhase k x).servo = s.servo := rfl
@[simp] theorem State.setPhase_xo (s : State) (k : Nat) (x : PhaseSt) : (s.setPhase k x).xo = s.xo := rfl
@[simp] theorem State.setPhase_apllmPasses (s : State) (k : Nat) (x : PhaseSt) : (s.setPhase k x).apllmPasses = s.apllmPasses := rfl
@[simp] theorem State.setPhase_aplla (s : State) (k : Nat) (x : PhaseSt) : (s.setPhase k x).aplla = s.aplla := rfl
@[simp] theorem State.setPhase_auxs (s : State) (k : Nat) (x : PhaseSt) : (s.setPhase k x).auxs = s.auxs := rfl
@[simp] theorem State.setPhase_domain (s : State) (k : Nat) (x : PhaseSt) : (s.setPhase k x).domain = s.domain := rfl
@[simp] theorem State.setPhase_teb (s : State) (k : Nat) (x : PhaseSt) : (s.setPhase k x).teb = s.teb := rfl
@[simp] theorem State.setPhase_gutter (s : State) (k : Nat) (x : PhaseSt) : (s.setPhase k x).gutter = s.gutter := rfl
@[simp] theorem State.setPhase_ridge (s : State) (k : Nat) (x : PhaseSt) : (s.setPhase k x).ridge = s.ridge := rfl
@[simp] theorem State.setPhase_eths (s : State) (k : Nat) (x : PhaseSt) : (s.setPhase k x).eths = s.eths := rfl
@[simp] theorem State.setPhase_eave (s : State) (k : Nat) (x : PhaseSt) : (s.setPhase k x).eave = s.eave := rfl
@[simp] theorem State.setPhase_power (s : State) (k : Nat) (x : PhaseSt) : (s.setPhase k x).power = s.power := rfl
@[simp] theorem State.setPhase_flash (s : State) (k : Nat) (x : PhaseSt) : (s.setPhase k x).flash = s.flash := rfl
@[simp] theorem State.setPhase_out (s : State) (k : Nat) (x : PhaseSt) : (s.setPhase k x).out = s.out := rfl
@[simp] theorem State.setPhase_faultEvents (s : State) (k : Nat) (x : PhaseSt) : (s.setPhase k x).faultEvents = s.faultEvents := rfl
@[simp] theorem State.setPhase_lineEvents (s : State) (k : Nat) (x : PhaseSt) : (s.setPhase k x).lineEvents = s.lineEvents := rfl
@[simp] theorem State.setPhase_msixOwed (s : State) (k : Nat) (x : PhaseSt) : (s.setPhase k x).msixOwed = s.msixOwed := rfl
@[simp] theorem State.setPhase_freeUses (s : State) (k : Nat) (x : PhaseSt) : (s.setPhase k x).freeUses = s.freeUses := rfl
@[simp] theorem State.setPhase_bar2 (s : State) (k : Nat) (x : PhaseSt) : (s.setPhase k x).bar2 = s.bar2 := rfl
@[simp] theorem State.setPhase_pending (s : State) (k : Nat) (x : PhaseSt) : (s.setPhase k x).pending = s.pending := rfl
@[simp] theorem State.phase_setPhase (s : State) (k : Nat) (x : PhaseSt) (h : k < (s.phases).length) : (s.setPhase k x).phase k = x := by
  simp [State.setPhase, State.phase, h]
@[simp] theorem State.phase_setPhase_ne (s : State) (k j : Nat) (x : PhaseSt) (h : j ≠ k) : (s.setPhase k x).phase j = s.phase j := by
  simp [State.setPhase, State.phase, List.getElem?_set_ne (Ne.symm h)]

/-! ### setTin -/

@[simp] theorem State.setTin_regs (s : State) (k : Nat) (x : TinSt) : (s.setTin k x).regs = s.regs := rfl
@[simp] theorem State.setTin_clk (s : State) (k : Nat) (x : TinSt) : (s.setTin k x).clk = s.clk := rfl
@[simp] theorem State.setTin_host (s : State) (k : Nat) (x : TinSt) : (s.setTin k x).host = s.host := rfl
@[simp] theorem State.setTin_quads (s : State) (k : Nat) (x : TinSt) : (s.setTin k x).quads = s.quads := rfl
@[simp] theorem State.setTin_chans (s : State) (k : Nat) (x : TinSt) : (s.setTin k x).chans = s.chans := rfl
@[simp] theorem State.setTin_lines (s : State) (k : Nat) (x : TinSt) : (s.setTin k x).lines = s.lines := rfl
@[simp] theorem State.setTin_seqs (s : State) (k : Nat) (x : TinSt) : (s.setTin k x).seqs = s.seqs := rfl
@[simp] theorem State.setTin_sync (s : State) (k : Nat) (x : TinSt) : (s.setTin k x).sync = s.sync := rfl
@[simp] theorem State.setTin_ecc (s : State) (k : Nat) (x : TinSt) : (s.setTin k x).ecc = s.ecc := rfl
@[simp] theorem State.setTin_auxMarks (s : State) (k : Nat) (x : TinSt) : (s.setTin k x).auxMarks = s.auxMarks := rfl
@[simp] theorem State.setTin_sched (s : State) (k : Nat) (x : TinSt) : (s.setTin k x).sched = s.sched := rfl
@[simp] theorem State.setTin_phases (s : State) (k : Nat) (x : TinSt) : (s.setTin k x).phases = s.phases := rfl
@[simp] theorem State.setTin_meas (s : State) (k : Nat) (x : TinSt) : (s.setTin k x).meas = s.meas := rfl
@[simp] theorem State.setTin_refs (s : State) (k : Nat) (x : TinSt) : (s.setTin k x).refs = s.refs := rfl
@[simp] theorem State.setTin_servo (s : State) (k : Nat) (x : TinSt) : (s.setTin k x).servo = s.servo := rfl
@[simp] theorem State.setTin_xo (s : State) (k : Nat) (x : TinSt) : (s.setTin k x).xo = s.xo := rfl
@[simp] theorem State.setTin_apllmPasses (s : State) (k : Nat) (x : TinSt) : (s.setTin k x).apllmPasses = s.apllmPasses := rfl
@[simp] theorem State.setTin_aplla (s : State) (k : Nat) (x : TinSt) : (s.setTin k x).aplla = s.aplla := rfl
@[simp] theorem State.setTin_auxs (s : State) (k : Nat) (x : TinSt) : (s.setTin k x).auxs = s.auxs := rfl
@[simp] theorem State.setTin_domain (s : State) (k : Nat) (x : TinSt) : (s.setTin k x).domain = s.domain := rfl
@[simp] theorem State.setTin_teb (s : State) (k : Nat) (x : TinSt) : (s.setTin k x).teb = s.teb := rfl
@[simp] theorem State.setTin_gutter (s : State) (k : Nat) (x : TinSt) : (s.setTin k x).gutter = s.gutter := rfl
@[simp] theorem State.setTin_ridge (s : State) (k : Nat) (x : TinSt) : (s.setTin k x).ridge = s.ridge := rfl
@[simp] theorem State.setTin_eths (s : State) (k : Nat) (x : TinSt) : (s.setTin k x).eths = s.eths := rfl
@[simp] theorem State.setTin_eave (s : State) (k : Nat) (x : TinSt) : (s.setTin k x).eave = s.eave := rfl
@[simp] theorem State.setTin_power (s : State) (k : Nat) (x : TinSt) : (s.setTin k x).power = s.power := rfl
@[simp] theorem State.setTin_flash (s : State) (k : Nat) (x : TinSt) : (s.setTin k x).flash = s.flash := rfl
@[simp] theorem State.setTin_out (s : State) (k : Nat) (x : TinSt) : (s.setTin k x).out = s.out := rfl
@[simp] theorem State.setTin_faultEvents (s : State) (k : Nat) (x : TinSt) : (s.setTin k x).faultEvents = s.faultEvents := rfl
@[simp] theorem State.setTin_lineEvents (s : State) (k : Nat) (x : TinSt) : (s.setTin k x).lineEvents = s.lineEvents := rfl
@[simp] theorem State.setTin_msixOwed (s : State) (k : Nat) (x : TinSt) : (s.setTin k x).msixOwed = s.msixOwed := rfl
@[simp] theorem State.setTin_freeUses (s : State) (k : Nat) (x : TinSt) : (s.setTin k x).freeUses = s.freeUses := rfl
@[simp] theorem State.setTin_bar2 (s : State) (k : Nat) (x : TinSt) : (s.setTin k x).bar2 = s.bar2 := rfl
@[simp] theorem State.setTin_pending (s : State) (k : Nat) (x : TinSt) : (s.setTin k x).pending = s.pending := rfl
@[simp] theorem State.tin_setTin (s : State) (k : Nat) (x : TinSt) (h : k < (s.tins).length) : (s.setTin k x).tin k = x := by
  simp [State.setTin, State.tin, h]
@[simp] theorem State.tin_setTin_ne (s : State) (k j : Nat) (x : TinSt) (h : j ≠ k) : (s.setTin k x).tin j = s.tin j := by
  simp [State.setTin, State.tin, List.getElem?_set_ne (Ne.symm h)]

/-! ### setRef -/

@[simp] theorem State.setRef_regs (s : State) (k : Nat) (x : RefSt) : (s.setRef k x).regs = s.regs := rfl
@[simp] theorem State.setRef_clk (s : State) (k : Nat) (x : RefSt) : (s.setRef k x).clk = s.clk := rfl
@[simp] theorem State.setRef_host (s : State) (k : Nat) (x : RefSt) : (s.setRef k x).host = s.host := rfl
@[simp] theorem State.setRef_quads (s : State) (k : Nat) (x : RefSt) : (s.setRef k x).quads = s.quads := rfl
@[simp] theorem State.setRef_chans (s : State) (k : Nat) (x : RefSt) : (s.setRef k x).chans = s.chans := rfl
@[simp] theorem State.setRef_lines (s : State) (k : Nat) (x : RefSt) : (s.setRef k x).lines = s.lines := rfl
@[simp] theorem State.setRef_seqs (s : State) (k : Nat) (x : RefSt) : (s.setRef k x).seqs = s.seqs := rfl
@[simp] theorem State.setRef_sync (s : State) (k : Nat) (x : RefSt) : (s.setRef k x).sync = s.sync := rfl
@[simp] theorem State.setRef_ecc (s : State) (k : Nat) (x : RefSt) : (s.setRef k x).ecc = s.ecc := rfl
@[simp] theorem State.setRef_auxMarks (s : State) (k : Nat) (x : RefSt) : (s.setRef k x).auxMarks = s.auxMarks := rfl
@[simp] theorem State.setRef_sched (s : State) (k : Nat) (x : RefSt) : (s.setRef k x).sched = s.sched := rfl
@[simp] theorem State.setRef_phases (s : State) (k : Nat) (x : RefSt) : (s.setRef k x).phases = s.phases := rfl
@[simp] theorem State.setRef_tins (s : State) (k : Nat) (x : RefSt) : (s.setRef k x).tins = s.tins := rfl
@[simp] theorem State.setRef_meas (s : State) (k : Nat) (x : RefSt) : (s.setRef k x).meas = s.meas := rfl
@[simp] theorem State.setRef_servo (s : State) (k : Nat) (x : RefSt) : (s.setRef k x).servo = s.servo := rfl
@[simp] theorem State.setRef_xo (s : State) (k : Nat) (x : RefSt) : (s.setRef k x).xo = s.xo := rfl
@[simp] theorem State.setRef_apllmPasses (s : State) (k : Nat) (x : RefSt) : (s.setRef k x).apllmPasses = s.apllmPasses := rfl
@[simp] theorem State.setRef_aplla (s : State) (k : Nat) (x : RefSt) : (s.setRef k x).aplla = s.aplla := rfl
@[simp] theorem State.setRef_auxs (s : State) (k : Nat) (x : RefSt) : (s.setRef k x).auxs = s.auxs := rfl
@[simp] theorem State.setRef_domain (s : State) (k : Nat) (x : RefSt) : (s.setRef k x).domain = s.domain := rfl
@[simp] theorem State.setRef_teb (s : State) (k : Nat) (x : RefSt) : (s.setRef k x).teb = s.teb := rfl
@[simp] theorem State.setRef_gutter (s : State) (k : Nat) (x : RefSt) : (s.setRef k x).gutter = s.gutter := rfl
@[simp] theorem State.setRef_ridge (s : State) (k : Nat) (x : RefSt) : (s.setRef k x).ridge = s.ridge := rfl
@[simp] theorem State.setRef_eths (s : State) (k : Nat) (x : RefSt) : (s.setRef k x).eths = s.eths := rfl
@[simp] theorem State.setRef_eave (s : State) (k : Nat) (x : RefSt) : (s.setRef k x).eave = s.eave := rfl
@[simp] theorem State.setRef_power (s : State) (k : Nat) (x : RefSt) : (s.setRef k x).power = s.power := rfl
@[simp] theorem State.setRef_flash (s : State) (k : Nat) (x : RefSt) : (s.setRef k x).flash = s.flash := rfl
@[simp] theorem State.setRef_out (s : State) (k : Nat) (x : RefSt) : (s.setRef k x).out = s.out := rfl
@[simp] theorem State.setRef_faultEvents (s : State) (k : Nat) (x : RefSt) : (s.setRef k x).faultEvents = s.faultEvents := rfl
@[simp] theorem State.setRef_lineEvents (s : State) (k : Nat) (x : RefSt) : (s.setRef k x).lineEvents = s.lineEvents := rfl
@[simp] theorem State.setRef_msixOwed (s : State) (k : Nat) (x : RefSt) : (s.setRef k x).msixOwed = s.msixOwed := rfl
@[simp] theorem State.setRef_freeUses (s : State) (k : Nat) (x : RefSt) : (s.setRef k x).freeUses = s.freeUses := rfl
@[simp] theorem State.setRef_bar2 (s : State) (k : Nat) (x : RefSt) : (s.setRef k x).bar2 = s.bar2 := rfl
@[simp] theorem State.setRef_pending (s : State) (k : Nat) (x : RefSt) : (s.setRef k x).pending = s.pending := rfl
@[simp] theorem State.ref_setRef (s : State) (k : Nat) (x : RefSt) (h : k < (s.refs).length) : (s.setRef k x).ref k = x := by
  simp [State.setRef, State.ref, h]
@[simp] theorem State.ref_setRef_ne (s : State) (k j : Nat) (x : RefSt) (h : j ≠ k) : (s.setRef k x).ref j = s.ref j := by
  simp [State.setRef, State.ref, List.getElem?_set_ne (Ne.symm h)]

/-! ### setAux -/

@[simp] theorem State.setAux_regs (s : State) (k : Nat) (x : AuxSt) : (s.setAux k x).regs = s.regs := rfl
@[simp] theorem State.setAux_clk (s : State) (k : Nat) (x : AuxSt) : (s.setAux k x).clk = s.clk := rfl
@[simp] theorem State.setAux_host (s : State) (k : Nat) (x : AuxSt) : (s.setAux k x).host = s.host := rfl
@[simp] theorem State.setAux_quads (s : State) (k : Nat) (x : AuxSt) : (s.setAux k x).quads = s.quads := rfl
@[simp] theorem State.setAux_chans (s : State) (k : Nat) (x : AuxSt) : (s.setAux k x).chans = s.chans := rfl
@[simp] theorem State.setAux_lines (s : State) (k : Nat) (x : AuxSt) : (s.setAux k x).lines = s.lines := rfl
@[simp] theorem State.setAux_seqs (s : State) (k : Nat) (x : AuxSt) : (s.setAux k x).seqs = s.seqs := rfl
@[simp] theorem State.setAux_sync (s : State) (k : Nat) (x : AuxSt) : (s.setAux k x).sync = s.sync := rfl
@[simp] theorem State.setAux_ecc (s : State) (k : Nat) (x : AuxSt) : (s.setAux k x).ecc = s.ecc := rfl
@[simp] theorem State.setAux_auxMarks (s : State) (k : Nat) (x : AuxSt) : (s.setAux k x).auxMarks = s.auxMarks := rfl
@[simp] theorem State.setAux_sched (s : State) (k : Nat) (x : AuxSt) : (s.setAux k x).sched = s.sched := rfl
@[simp] theorem State.setAux_phases (s : State) (k : Nat) (x : AuxSt) : (s.setAux k x).phases = s.phases := rfl
@[simp] theorem State.setAux_tins (s : State) (k : Nat) (x : AuxSt) : (s.setAux k x).tins = s.tins := rfl
@[simp] theorem State.setAux_meas (s : State) (k : Nat) (x : AuxSt) : (s.setAux k x).meas = s.meas := rfl
@[simp] theorem State.setAux_refs (s : State) (k : Nat) (x : AuxSt) : (s.setAux k x).refs = s.refs := rfl
@[simp] theorem State.setAux_servo (s : State) (k : Nat) (x : AuxSt) : (s.setAux k x).servo = s.servo := rfl
@[simp] theorem State.setAux_xo (s : State) (k : Nat) (x : AuxSt) : (s.setAux k x).xo = s.xo := rfl
@[simp] theorem State.setAux_apllmPasses (s : State) (k : Nat) (x : AuxSt) : (s.setAux k x).apllmPasses = s.apllmPasses := rfl
@[simp] theorem State.setAux_aplla (s : State) (k : Nat) (x : AuxSt) : (s.setAux k x).aplla = s.aplla := rfl
@[simp] theorem State.setAux_domain (s : State) (k : Nat) (x : AuxSt) : (s.setAux k x).domain = s.domain := rfl
@[simp] theorem State.setAux_teb (s : State) (k : Nat) (x : AuxSt) : (s.setAux k x).teb = s.teb := rfl
@[simp] theorem State.setAux_gutter (s : State) (k : Nat) (x : AuxSt) : (s.setAux k x).gutter = s.gutter := rfl
@[simp] theorem State.setAux_ridge (s : State) (k : Nat) (x : AuxSt) : (s.setAux k x).ridge = s.ridge := rfl
@[simp] theorem State.setAux_eths (s : State) (k : Nat) (x : AuxSt) : (s.setAux k x).eths = s.eths := rfl
@[simp] theorem State.setAux_eave (s : State) (k : Nat) (x : AuxSt) : (s.setAux k x).eave = s.eave := rfl
@[simp] theorem State.setAux_power (s : State) (k : Nat) (x : AuxSt) : (s.setAux k x).power = s.power := rfl
@[simp] theorem State.setAux_flash (s : State) (k : Nat) (x : AuxSt) : (s.setAux k x).flash = s.flash := rfl
@[simp] theorem State.setAux_out (s : State) (k : Nat) (x : AuxSt) : (s.setAux k x).out = s.out := rfl
@[simp] theorem State.setAux_faultEvents (s : State) (k : Nat) (x : AuxSt) : (s.setAux k x).faultEvents = s.faultEvents := rfl
@[simp] theorem State.setAux_lineEvents (s : State) (k : Nat) (x : AuxSt) : (s.setAux k x).lineEvents = s.lineEvents := rfl
@[simp] theorem State.setAux_msixOwed (s : State) (k : Nat) (x : AuxSt) : (s.setAux k x).msixOwed = s.msixOwed := rfl
@[simp] theorem State.setAux_freeUses (s : State) (k : Nat) (x : AuxSt) : (s.setAux k x).freeUses = s.freeUses := rfl
@[simp] theorem State.setAux_bar2 (s : State) (k : Nat) (x : AuxSt) : (s.setAux k x).bar2 = s.bar2 := rfl
@[simp] theorem State.setAux_pending (s : State) (k : Nat) (x : AuxSt) : (s.setAux k x).pending = s.pending := rfl
@[simp] theorem State.aux_setAux (s : State) (k : Nat) (x : AuxSt) (h : k < (s.auxs).length) : (s.setAux k x).aux k = x := by
  simp [State.setAux, State.aux, h]
@[simp] theorem State.aux_setAux_ne (s : State) (k j : Nat) (x : AuxSt) (h : j ≠ k) : (s.setAux k x).aux j = s.aux j := by
  simp [State.setAux, State.aux, List.getElem?_set_ne (Ne.symm h)]

/-! ### setEth -/

@[simp] theorem State.setEth_regs (s : State) (k : Nat) (x : EthSt) : (s.setEth k x).regs = s.regs := rfl
@[simp] theorem State.setEth_clk (s : State) (k : Nat) (x : EthSt) : (s.setEth k x).clk = s.clk := rfl
@[simp] theorem State.setEth_host (s : State) (k : Nat) (x : EthSt) : (s.setEth k x).host = s.host := rfl
@[simp] theorem State.setEth_quads (s : State) (k : Nat) (x : EthSt) : (s.setEth k x).quads = s.quads := rfl
@[simp] theorem State.setEth_chans (s : State) (k : Nat) (x : EthSt) : (s.setEth k x).chans = s.chans := rfl
@[simp] theorem State.setEth_lines (s : State) (k : Nat) (x : EthSt) : (s.setEth k x).lines = s.lines := rfl
@[simp] theorem State.setEth_seqs (s : State) (k : Nat) (x : EthSt) : (s.setEth k x).seqs = s.seqs := rfl
@[simp] theorem State.setEth_sync (s : State) (k : Nat) (x : EthSt) : (s.setEth k x).sync = s.sync := rfl
@[simp] theorem State.setEth_ecc (s : State) (k : Nat) (x : EthSt) : (s.setEth k x).ecc = s.ecc := rfl
@[simp] theorem State.setEth_auxMarks (s : State) (k : Nat) (x : EthSt) : (s.setEth k x).auxMarks = s.auxMarks := rfl
@[simp] theorem State.setEth_sched (s : State) (k : Nat) (x : EthSt) : (s.setEth k x).sched = s.sched := rfl
@[simp] theorem State.setEth_phases (s : State) (k : Nat) (x : EthSt) : (s.setEth k x).phases = s.phases := rfl
@[simp] theorem State.setEth_tins (s : State) (k : Nat) (x : EthSt) : (s.setEth k x).tins = s.tins := rfl
@[simp] theorem State.setEth_meas (s : State) (k : Nat) (x : EthSt) : (s.setEth k x).meas = s.meas := rfl
@[simp] theorem State.setEth_refs (s : State) (k : Nat) (x : EthSt) : (s.setEth k x).refs = s.refs := rfl
@[simp] theorem State.setEth_servo (s : State) (k : Nat) (x : EthSt) : (s.setEth k x).servo = s.servo := rfl
@[simp] theorem State.setEth_xo (s : State) (k : Nat) (x : EthSt) : (s.setEth k x).xo = s.xo := rfl
@[simp] theorem State.setEth_apllmPasses (s : State) (k : Nat) (x : EthSt) : (s.setEth k x).apllmPasses = s.apllmPasses := rfl
@[simp] theorem State.setEth_aplla (s : State) (k : Nat) (x : EthSt) : (s.setEth k x).aplla = s.aplla := rfl
@[simp] theorem State.setEth_auxs (s : State) (k : Nat) (x : EthSt) : (s.setEth k x).auxs = s.auxs := rfl
@[simp] theorem State.setEth_domain (s : State) (k : Nat) (x : EthSt) : (s.setEth k x).domain = s.domain := rfl
@[simp] theorem State.setEth_teb (s : State) (k : Nat) (x : EthSt) : (s.setEth k x).teb = s.teb := rfl
@[simp] theorem State.setEth_gutter (s : State) (k : Nat) (x : EthSt) : (s.setEth k x).gutter = s.gutter := rfl
@[simp] theorem State.setEth_ridge (s : State) (k : Nat) (x : EthSt) : (s.setEth k x).ridge = s.ridge := rfl
@[simp] theorem State.setEth_eave (s : State) (k : Nat) (x : EthSt) : (s.setEth k x).eave = s.eave := rfl
@[simp] theorem State.setEth_power (s : State) (k : Nat) (x : EthSt) : (s.setEth k x).power = s.power := rfl
@[simp] theorem State.setEth_flash (s : State) (k : Nat) (x : EthSt) : (s.setEth k x).flash = s.flash := rfl
@[simp] theorem State.setEth_out (s : State) (k : Nat) (x : EthSt) : (s.setEth k x).out = s.out := rfl
@[simp] theorem State.setEth_faultEvents (s : State) (k : Nat) (x : EthSt) : (s.setEth k x).faultEvents = s.faultEvents := rfl
@[simp] theorem State.setEth_lineEvents (s : State) (k : Nat) (x : EthSt) : (s.setEth k x).lineEvents = s.lineEvents := rfl
@[simp] theorem State.setEth_msixOwed (s : State) (k : Nat) (x : EthSt) : (s.setEth k x).msixOwed = s.msixOwed := rfl
@[simp] theorem State.setEth_freeUses (s : State) (k : Nat) (x : EthSt) : (s.setEth k x).freeUses = s.freeUses := rfl
@[simp] theorem State.setEth_bar2 (s : State) (k : Nat) (x : EthSt) : (s.setEth k x).bar2 = s.bar2 := rfl
@[simp] theorem State.setEth_pending (s : State) (k : Nat) (x : EthSt) : (s.setEth k x).pending = s.pending := rfl
@[simp] theorem State.eth_setEth (s : State) (k : Nat) (x : EthSt) (h : k < (s.eths).length) : (s.setEth k x).eth k = x := by
  simp [State.setEth, State.eth, h]
@[simp] theorem State.eth_setEth_ne (s : State) (k j : Nat) (x : EthSt) (h : j ≠ k) : (s.setEth k x).eth j = s.eth j := by
  simp [State.setEth, State.eth, List.getElem?_set_ne (Ne.symm h)]

/-! ### setQueue -/

@[simp] theorem State.setQueue_regs (s : State) (k : Nat) (x : QueueSt) : (s.setQueue k x).regs = s.regs := rfl
@[simp] theorem State.setQueue_clk (s : State) (k : Nat) (x : QueueSt) : (s.setQueue k x).clk = s.clk := rfl
@[simp] theorem State.setQueue_host (s : State) (k : Nat) (x : QueueSt) : (s.setQueue k x).host = s.host := rfl
@[simp] theorem State.setQueue_quads (s : State) (k : Nat) (x : QueueSt) : (s.setQueue k x).quads = s.quads := rfl
@[simp] theorem State.setQueue_chans (s : State) (k : Nat) (x : QueueSt) : (s.setQueue k x).chans = s.chans := rfl
@[simp] theorem State.setQueue_lines (s : State) (k : Nat) (x : QueueSt) : (s.setQueue k x).lines = s.lines := rfl
@[simp] theorem State.setQueue_seqs (s : State) (k : Nat) (x : QueueSt) : (s.setQueue k x).seqs = s.seqs := rfl
@[simp] theorem State.setQueue_sync (s : State) (k : Nat) (x : QueueSt) : (s.setQueue k x).sync = s.sync := rfl
@[simp] theorem State.setQueue_ecc (s : State) (k : Nat) (x : QueueSt) : (s.setQueue k x).ecc = s.ecc := rfl
@[simp] theorem State.setQueue_auxMarks (s : State) (k : Nat) (x : QueueSt) : (s.setQueue k x).auxMarks = s.auxMarks := rfl
@[simp] theorem State.setQueue_phases (s : State) (k : Nat) (x : QueueSt) : (s.setQueue k x).phases = s.phases := rfl
@[simp] theorem State.setQueue_tins (s : State) (k : Nat) (x : QueueSt) : (s.setQueue k x).tins = s.tins := rfl
@[simp] theorem State.setQueue_meas (s : State) (k : Nat) (x : QueueSt) : (s.setQueue k x).meas = s.meas := rfl
@[simp] theorem State.setQueue_refs (s : State) (k : Nat) (x : QueueSt) : (s.setQueue k x).refs = s.refs := rfl
@[simp] theorem State.setQueue_servo (s : State) (k : Nat) (x : QueueSt) : (s.setQueue k x).servo = s.servo := rfl
@[simp] theorem State.setQueue_xo (s : State) (k : Nat) (x : QueueSt) : (s.setQueue k x).xo = s.xo := rfl
@[simp] theorem State.setQueue_apllmPasses (s : State) (k : Nat) (x : QueueSt) : (s.setQueue k x).apllmPasses = s.apllmPasses := rfl
@[simp] theorem State.setQueue_aplla (s : State) (k : Nat) (x : QueueSt) : (s.setQueue k x).aplla = s.aplla := rfl
@[simp] theorem State.setQueue_auxs (s : State) (k : Nat) (x : QueueSt) : (s.setQueue k x).auxs = s.auxs := rfl
@[simp] theorem State.setQueue_domain (s : State) (k : Nat) (x : QueueSt) : (s.setQueue k x).domain = s.domain := rfl
@[simp] theorem State.setQueue_teb (s : State) (k : Nat) (x : QueueSt) : (s.setQueue k x).teb = s.teb := rfl
@[simp] theorem State.setQueue_gutter (s : State) (k : Nat) (x : QueueSt) : (s.setQueue k x).gutter = s.gutter := rfl
@[simp] theorem State.setQueue_ridge (s : State) (k : Nat) (x : QueueSt) : (s.setQueue k x).ridge = s.ridge := rfl
@[simp] theorem State.setQueue_eths (s : State) (k : Nat) (x : QueueSt) : (s.setQueue k x).eths = s.eths := rfl
@[simp] theorem State.setQueue_eave (s : State) (k : Nat) (x : QueueSt) : (s.setQueue k x).eave = s.eave := rfl
@[simp] theorem State.setQueue_power (s : State) (k : Nat) (x : QueueSt) : (s.setQueue k x).power = s.power := rfl
@[simp] theorem State.setQueue_flash (s : State) (k : Nat) (x : QueueSt) : (s.setQueue k x).flash = s.flash := rfl
@[simp] theorem State.setQueue_out (s : State) (k : Nat) (x : QueueSt) : (s.setQueue k x).out = s.out := rfl
@[simp] theorem State.setQueue_faultEvents (s : State) (k : Nat) (x : QueueSt) : (s.setQueue k x).faultEvents = s.faultEvents := rfl
@[simp] theorem State.setQueue_lineEvents (s : State) (k : Nat) (x : QueueSt) : (s.setQueue k x).lineEvents = s.lineEvents := rfl
@[simp] theorem State.setQueue_msixOwed (s : State) (k : Nat) (x : QueueSt) : (s.setQueue k x).msixOwed = s.msixOwed := rfl
@[simp] theorem State.setQueue_freeUses (s : State) (k : Nat) (x : QueueSt) : (s.setQueue k x).freeUses = s.freeUses := rfl
@[simp] theorem State.setQueue_bar2 (s : State) (k : Nat) (x : QueueSt) : (s.setQueue k x).bar2 = s.bar2 := rfl
@[simp] theorem State.setQueue_pending (s : State) (k : Nat) (x : QueueSt) : (s.setQueue k x).pending = s.pending := rfl
@[simp] theorem State.queue_setQueue (s : State) (k : Nat) (x : QueueSt) (h : k < (s.sched.queues).length) : (s.setQueue k x).queue k = x := by
  simp [State.setQueue, State.queue, h]
@[simp] theorem State.queue_setQueue_ne (s : State) (k j : Nat) (x : QueueSt) (h : j ≠ k) : (s.setQueue k x).queue j = s.queue j := by
  simp [State.setQueue, State.queue, List.getElem?_set_ne (Ne.symm h)]

/-! ### setSess -/

@[simp] theorem State.setSess_regs (s : State) (k : Nat) (x : SessionSt) : (s.setSess k x).regs = s.regs := rfl
@[simp] theorem State.setSess_clk (s : State) (k : Nat) (x : SessionSt) : (s.setSess k x).clk = s.clk := rfl
@[simp] theorem State.setSess_host (s : State) (k : Nat) (x : SessionSt) : (s.setSess k x).host = s.host := rfl
@[simp] theorem State.setSess_quads (s : State) (k : Nat) (x : SessionSt) : (s.setSess k x).quads = s.quads := rfl
@[simp] theorem State.setSess_chans (s : State) (k : Nat) (x : SessionSt) : (s.setSess k x).chans = s.chans := rfl
@[simp] theorem State.setSess_lines (s : State) (k : Nat) (x : SessionSt) : (s.setSess k x).lines = s.lines := rfl
@[simp] theorem State.setSess_seqs (s : State) (k : Nat) (x : SessionSt) : (s.setSess k x).seqs = s.seqs := rfl
@[simp] theorem State.setSess_sync (s : State) (k : Nat) (x : SessionSt) : (s.setSess k x).sync = s.sync := rfl
@[simp] theorem State.setSess_ecc (s : State) (k : Nat) (x : SessionSt) : (s.setSess k x).ecc = s.ecc := rfl
@[simp] theorem State.setSess_auxMarks (s : State) (k : Nat) (x : SessionSt) : (s.setSess k x).auxMarks = s.auxMarks := rfl
@[simp] theorem State.setSess_sched (s : State) (k : Nat) (x : SessionSt) : (s.setSess k x).sched = s.sched := rfl
@[simp] theorem State.setSess_phases (s : State) (k : Nat) (x : SessionSt) : (s.setSess k x).phases = s.phases := rfl
@[simp] theorem State.setSess_tins (s : State) (k : Nat) (x : SessionSt) : (s.setSess k x).tins = s.tins := rfl
@[simp] theorem State.setSess_refs (s : State) (k : Nat) (x : SessionSt) : (s.setSess k x).refs = s.refs := rfl
@[simp] theorem State.setSess_servo (s : State) (k : Nat) (x : SessionSt) : (s.setSess k x).servo = s.servo := rfl
@[simp] theorem State.setSess_xo (s : State) (k : Nat) (x : SessionSt) : (s.setSess k x).xo = s.xo := rfl
@[simp] theorem State.setSess_apllmPasses (s : State) (k : Nat) (x : SessionSt) : (s.setSess k x).apllmPasses = s.apllmPasses := rfl
@[simp] theorem State.setSess_aplla (s : State) (k : Nat) (x : SessionSt) : (s.setSess k x).aplla = s.aplla := rfl
@[simp] theorem State.setSess_auxs (s : State) (k : Nat) (x : SessionSt) : (s.setSess k x).auxs = s.auxs := rfl
@[simp] theorem State.setSess_domain (s : State) (k : Nat) (x : SessionSt) : (s.setSess k x).domain = s.domain := rfl
@[simp] theorem State.setSess_teb (s : State) (k : Nat) (x : SessionSt) : (s.setSess k x).teb = s.teb := rfl
@[simp] theorem State.setSess_gutter (s : State) (k : Nat) (x : SessionSt) : (s.setSess k x).gutter = s.gutter := rfl
@[simp] theorem State.setSess_ridge (s : State) (k : Nat) (x : SessionSt) : (s.setSess k x).ridge = s.ridge := rfl
@[simp] theorem State.setSess_eths (s : State) (k : Nat) (x : SessionSt) : (s.setSess k x).eths = s.eths := rfl
@[simp] theorem State.setSess_eave (s : State) (k : Nat) (x : SessionSt) : (s.setSess k x).eave = s.eave := rfl
@[simp] theorem State.setSess_power (s : State) (k : Nat) (x : SessionSt) : (s.setSess k x).power = s.power := rfl
@[simp] theorem State.setSess_flash (s : State) (k : Nat) (x : SessionSt) : (s.setSess k x).flash = s.flash := rfl
@[simp] theorem State.setSess_out (s : State) (k : Nat) (x : SessionSt) : (s.setSess k x).out = s.out := rfl
@[simp] theorem State.setSess_faultEvents (s : State) (k : Nat) (x : SessionSt) : (s.setSess k x).faultEvents = s.faultEvents := rfl
@[simp] theorem State.setSess_lineEvents (s : State) (k : Nat) (x : SessionSt) : (s.setSess k x).lineEvents = s.lineEvents := rfl
@[simp] theorem State.setSess_msixOwed (s : State) (k : Nat) (x : SessionSt) : (s.setSess k x).msixOwed = s.msixOwed := rfl
@[simp] theorem State.setSess_freeUses (s : State) (k : Nat) (x : SessionSt) : (s.setSess k x).freeUses = s.freeUses := rfl
@[simp] theorem State.setSess_bar2 (s : State) (k : Nat) (x : SessionSt) : (s.setSess k x).bar2 = s.bar2 := rfl
@[simp] theorem State.setSess_pending (s : State) (k : Nat) (x : SessionSt) : (s.setSess k x).pending = s.pending := rfl
@[simp] theorem State.sess_setSess (s : State) (k : Nat) (x : SessionSt) (h : k < (s.meas.sessions).length) : (s.setSess k x).sess k = x := by
  simp [State.setSess, State.sess, h]
@[simp] theorem State.sess_setSess_ne (s : State) (k j : Nat) (x : SessionSt) (h : j ≠ k) : (s.setSess k x).sess j = s.sess j := by
  simp [State.setSess, State.sess, List.getElem?_set_ne (Ne.symm h)]

/-! ### setGate -/

@[simp] theorem State.setGate_regs (s : State) (k : Nat) (x : List GateWin) : (s.setGate k x).regs = s.regs := rfl
@[simp] theorem State.setGate_clk (s : State) (k : Nat) (x : List GateWin) : (s.setGate k x).clk = s.clk := rfl
@[simp] theorem State.setGate_host (s : State) (k : Nat) (x : List GateWin) : (s.setGate k x).host = s.host := rfl
@[simp] theorem State.setGate_quads (s : State) (k : Nat) (x : List GateWin) : (s.setGate k x).quads = s.quads := rfl
@[simp] theorem State.setGate_chans (s : State) (k : Nat) (x : List GateWin) : (s.setGate k x).chans = s.chans := rfl
@[simp] theorem State.setGate_lines (s : State) (k : Nat) (x : List GateWin) : (s.setGate k x).lines = s.lines := rfl
@[simp] theorem State.setGate_seqs (s : State) (k : Nat) (x : List GateWin) : (s.setGate k x).seqs = s.seqs := rfl
@[simp] theorem State.setGate_sync (s : State) (k : Nat) (x : List GateWin) : (s.setGate k x).sync = s.sync := rfl
@[simp] theorem State.setGate_ecc (s : State) (k : Nat) (x : List GateWin) : (s.setGate k x).ecc = s.ecc := rfl
@[simp] theorem State.setGate_auxMarks (s : State) (k : Nat) (x : List GateWin) : (s.setGate k x).auxMarks = s.auxMarks := rfl
@[simp] theorem State.setGate_sched (s : State) (k : Nat) (x : List GateWin) : (s.setGate k x).sched = s.sched := rfl
@[simp] theorem State.setGate_phases (s : State) (k : Nat) (x : List GateWin) : (s.setGate k x).phases = s.phases := rfl
@[simp] theorem State.setGate_tins (s : State) (k : Nat) (x : List GateWin) : (s.setGate k x).tins = s.tins := rfl
@[simp] theorem State.setGate_refs (s : State) (k : Nat) (x : List GateWin) : (s.setGate k x).refs = s.refs := rfl
@[simp] theorem State.setGate_servo (s : State) (k : Nat) (x : List GateWin) : (s.setGate k x).servo = s.servo := rfl
@[simp] theorem State.setGate_xo (s : State) (k : Nat) (x : List GateWin) : (s.setGate k x).xo = s.xo := rfl
@[simp] theorem State.setGate_apllmPasses (s : State) (k : Nat) (x : List GateWin) : (s.setGate k x).apllmPasses = s.apllmPasses := rfl
@[simp] theorem State.setGate_aplla (s : State) (k : Nat) (x : List GateWin) : (s.setGate k x).aplla = s.aplla := rfl
@[simp] theorem State.setGate_auxs (s : State) (k : Nat) (x : List GateWin) : (s.setGate k x).auxs = s.auxs := rfl
@[simp] theorem State.setGate_domain (s : State) (k : Nat) (x : List GateWin) : (s.setGate k x).domain = s.domain := rfl
@[simp] theorem State.setGate_teb (s : State) (k : Nat) (x : List GateWin) : (s.setGate k x).teb = s.teb := rfl
@[simp] theorem State.setGate_gutter (s : State) (k : Nat) (x : List GateWin) : (s.setGate k x).gutter = s.gutter := rfl
@[simp] theorem State.setGate_ridge (s : State) (k : Nat) (x : List GateWin) : (s.setGate k x).ridge = s.ridge := rfl
@[simp] theorem State.setGate_eths (s : State) (k : Nat) (x : List GateWin) : (s.setGate k x).eths = s.eths := rfl
@[simp] theorem State.setGate_eave (s : State) (k : Nat) (x : List GateWin) : (s.setGate k x).eave = s.eave := rfl
@[simp] theorem State.setGate_power (s : State) (k : Nat) (x : List GateWin) : (s.setGate k x).power = s.power := rfl
@[simp] theorem State.setGate_flash (s : State) (k : Nat) (x : List GateWin) : (s.setGate k x).flash = s.flash := rfl
@[simp] theorem State.setGate_out (s : State) (k : Nat) (x : List GateWin) : (s.setGate k x).out = s.out := rfl
@[simp] theorem State.setGate_faultEvents (s : State) (k : Nat) (x : List GateWin) : (s.setGate k x).faultEvents = s.faultEvents := rfl
@[simp] theorem State.setGate_lineEvents (s : State) (k : Nat) (x : List GateWin) : (s.setGate k x).lineEvents = s.lineEvents := rfl
@[simp] theorem State.setGate_msixOwed (s : State) (k : Nat) (x : List GateWin) : (s.setGate k x).msixOwed = s.msixOwed := rfl
@[simp] theorem State.setGate_freeUses (s : State) (k : Nat) (x : List GateWin) : (s.setGate k x).freeUses = s.freeUses := rfl
@[simp] theorem State.setGate_bar2 (s : State) (k : Nat) (x : List GateWin) : (s.setGate k x).bar2 = s.bar2 := rfl
@[simp] theorem State.setGate_pending (s : State) (k : Nat) (x : List GateWin) : (s.setGate k x).pending = s.pending := rfl
@[simp] theorem State.gate_setGate (s : State) (k : Nat) (x : List GateWin) (h : k < (s.meas.gates).length) : (s.setGate k x).gate k = x := by
  simp [State.setGate, State.gate, h]
@[simp] theorem State.gate_setGate_ne (s : State) (k j : Nat) (x : List GateWin) (h : j ≠ k) : (s.setGate k x).gate j = s.gate j := by
  simp [State.setGate, State.gate, List.getElem?_set_ne (Ne.symm h)]

/-! ### setStream -/

@[simp] theorem State.setStream_regs (s : State) (k : Nat) (x : StreamSt) : (s.setStream k x).regs = s.regs := rfl
@[simp] theorem State.setStream_clk (s : State) (k : Nat) (x : StreamSt) : (s.setStream k x).clk = s.clk := rfl
@[simp] theorem State.setStream_host (s : State) (k : Nat) (x : StreamSt) : (s.setStream k x).host = s.host := rfl
@[simp] theorem State.setStream_quads (s : State) (k : Nat) (x : StreamSt) : (s.setStream k x).quads = s.quads := rfl
@[simp] theorem State.setStream_chans (s : State) (k : Nat) (x : StreamSt) : (s.setStream k x).chans = s.chans := rfl
@[simp] theorem State.setStream_lines (s : State) (k : Nat) (x : StreamSt) : (s.setStream k x).lines = s.lines := rfl
@[simp] theorem State.setStream_seqs (s : State) (k : Nat) (x : StreamSt) : (s.setStream k x).seqs = s.seqs := rfl
@[simp] theorem State.setStream_sync (s : State) (k : Nat) (x : StreamSt) : (s.setStream k x).sync = s.sync := rfl
@[simp] theorem State.setStream_ecc (s : State) (k : Nat) (x : StreamSt) : (s.setStream k x).ecc = s.ecc := rfl
@[simp] theorem State.setStream_auxMarks (s : State) (k : Nat) (x : StreamSt) : (s.setStream k x).auxMarks = s.auxMarks := rfl
@[simp] theorem State.setStream_sched (s : State) (k : Nat) (x : StreamSt) : (s.setStream k x).sched = s.sched := rfl
@[simp] theorem State.setStream_phases (s : State) (k : Nat) (x : StreamSt) : (s.setStream k x).phases = s.phases := rfl
@[simp] theorem State.setStream_tins (s : State) (k : Nat) (x : StreamSt) : (s.setStream k x).tins = s.tins := rfl
@[simp] theorem State.setStream_refs (s : State) (k : Nat) (x : StreamSt) : (s.setStream k x).refs = s.refs := rfl
@[simp] theorem State.setStream_servo (s : State) (k : Nat) (x : StreamSt) : (s.setStream k x).servo = s.servo := rfl
@[simp] theorem State.setStream_xo (s : State) (k : Nat) (x : StreamSt) : (s.setStream k x).xo = s.xo := rfl
@[simp] theorem State.setStream_apllmPasses (s : State) (k : Nat) (x : StreamSt) : (s.setStream k x).apllmPasses = s.apllmPasses := rfl
@[simp] theorem State.setStream_aplla (s : State) (k : Nat) (x : StreamSt) : (s.setStream k x).aplla = s.aplla := rfl
@[simp] theorem State.setStream_auxs (s : State) (k : Nat) (x : StreamSt) : (s.setStream k x).auxs = s.auxs := rfl
@[simp] theorem State.setStream_domain (s : State) (k : Nat) (x : StreamSt) : (s.setStream k x).domain = s.domain := rfl
@[simp] theorem State.setStream_teb (s : State) (k : Nat) (x : StreamSt) : (s.setStream k x).teb = s.teb := rfl
@[simp] theorem State.setStream_gutter (s : State) (k : Nat) (x : StreamSt) : (s.setStream k x).gutter = s.gutter := rfl
@[simp] theorem State.setStream_ridge (s : State) (k : Nat) (x : StreamSt) : (s.setStream k x).ridge = s.ridge := rfl
@[simp] theorem State.setStream_eths (s : State) (k : Nat) (x : StreamSt) : (s.setStream k x).eths = s.eths := rfl
@[simp] theorem State.setStream_eave (s : State) (k : Nat) (x : StreamSt) : (s.setStream k x).eave = s.eave := rfl
@[simp] theorem State.setStream_power (s : State) (k : Nat) (x : StreamSt) : (s.setStream k x).power = s.power := rfl
@[simp] theorem State.setStream_flash (s : State) (k : Nat) (x : StreamSt) : (s.setStream k x).flash = s.flash := rfl
@[simp] theorem State.setStream_out (s : State) (k : Nat) (x : StreamSt) : (s.setStream k x).out = s.out := rfl
@[simp] theorem State.setStream_faultEvents (s : State) (k : Nat) (x : StreamSt) : (s.setStream k x).faultEvents = s.faultEvents := rfl
@[simp] theorem State.setStream_lineEvents (s : State) (k : Nat) (x : StreamSt) : (s.setStream k x).lineEvents = s.lineEvents := rfl
@[simp] theorem State.setStream_msixOwed (s : State) (k : Nat) (x : StreamSt) : (s.setStream k x).msixOwed = s.msixOwed := rfl
@[simp] theorem State.setStream_freeUses (s : State) (k : Nat) (x : StreamSt) : (s.setStream k x).freeUses = s.freeUses := rfl
@[simp] theorem State.setStream_bar2 (s : State) (k : Nat) (x : StreamSt) : (s.setStream k x).bar2 = s.bar2 := rfl
@[simp] theorem State.setStream_pending (s : State) (k : Nat) (x : StreamSt) : (s.setStream k x).pending = s.pending := rfl
@[simp] theorem State.stream_setStream (s : State) (k : Nat) (x : StreamSt) (h : k < (s.meas.streams).length) : (s.setStream k x).stream k = x := by
  simp [State.setStream, State.stream, h]
@[simp] theorem State.stream_setStream_ne (s : State) (k j : Nat) (x : StreamSt) (h : j ≠ k) : (s.setStream k x).stream j = s.stream j := by
  simp [State.setStream, State.stream, List.getElem?_set_ne (Ne.symm h)]

/-! ### setRdg -/

@[simp] theorem State.setRdg_regs (s : State) (k : Nat) (x : RdgSt) : (s.setRdg k x).regs = s.regs := rfl
@[simp] theorem State.setRdg_clk (s : State) (k : Nat) (x : RdgSt) : (s.setRdg k x).clk = s.clk := rfl
@[simp] theorem State.setRdg_host (s : State) (k : Nat) (x : RdgSt) : (s.setRdg k x).host = s.host := rfl
@[simp] theorem State.setRdg_quads (s : State) (k : Nat) (x : RdgSt) : (s.setRdg k x).quads = s.quads := rfl
@[simp] theorem State.setRdg_chans (s : State) (k : Nat) (x : RdgSt) : (s.setRdg k x).chans = s.chans := rfl
@[simp] theorem State.setRdg_lines (s : State) (k : Nat) (x : RdgSt) : (s.setRdg k x).lines = s.lines := rfl
@[simp] theorem State.setRdg_seqs (s : State) (k : Nat) (x : RdgSt) : (s.setRdg k x).seqs = s.seqs := rfl
@[simp] theorem State.setRdg_sync (s : State) (k : Nat) (x : RdgSt) : (s.setRdg k x).sync = s.sync := rfl
@[simp] theorem State.setRdg_ecc (s : State) (k : Nat) (x : RdgSt) : (s.setRdg k x).ecc = s.ecc := rfl
@[simp] theorem State.setRdg_auxMarks (s : State) (k : Nat) (x : RdgSt) : (s.setRdg k x).auxMarks = s.auxMarks := rfl
@[simp] theorem State.setRdg_sched (s : State) (k : Nat) (x : RdgSt) : (s.setRdg k x).sched = s.sched := rfl
@[simp] theorem State.setRdg_phases (s : State) (k : Nat) (x : RdgSt) : (s.setRdg k x).phases = s.phases := rfl
@[simp] theorem State.setRdg_tins (s : State) (k : Nat) (x : RdgSt) : (s.setRdg k x).tins = s.tins := rfl
@[simp] theorem State.setRdg_meas (s : State) (k : Nat) (x : RdgSt) : (s.setRdg k x).meas = s.meas := rfl
@[simp] theorem State.setRdg_refs (s : State) (k : Nat) (x : RdgSt) : (s.setRdg k x).refs = s.refs := rfl
@[simp] theorem State.setRdg_servo (s : State) (k : Nat) (x : RdgSt) : (s.setRdg k x).servo = s.servo := rfl
@[simp] theorem State.setRdg_xo (s : State) (k : Nat) (x : RdgSt) : (s.setRdg k x).xo = s.xo := rfl
@[simp] theorem State.setRdg_apllmPasses (s : State) (k : Nat) (x : RdgSt) : (s.setRdg k x).apllmPasses = s.apllmPasses := rfl
@[simp] theorem State.setRdg_aplla (s : State) (k : Nat) (x : RdgSt) : (s.setRdg k x).aplla = s.aplla := rfl
@[simp] theorem State.setRdg_auxs (s : State) (k : Nat) (x : RdgSt) : (s.setRdg k x).auxs = s.auxs := rfl
@[simp] theorem State.setRdg_domain (s : State) (k : Nat) (x : RdgSt) : (s.setRdg k x).domain = s.domain := rfl
@[simp] theorem State.setRdg_teb (s : State) (k : Nat) (x : RdgSt) : (s.setRdg k x).teb = s.teb := rfl
@[simp] theorem State.setRdg_gutter (s : State) (k : Nat) (x : RdgSt) : (s.setRdg k x).gutter = s.gutter := rfl
@[simp] theorem State.setRdg_eths (s : State) (k : Nat) (x : RdgSt) : (s.setRdg k x).eths = s.eths := rfl
@[simp] theorem State.setRdg_eave (s : State) (k : Nat) (x : RdgSt) : (s.setRdg k x).eave = s.eave := rfl
@[simp] theorem State.setRdg_power (s : State) (k : Nat) (x : RdgSt) : (s.setRdg k x).power = s.power := rfl
@[simp] theorem State.setRdg_flash (s : State) (k : Nat) (x : RdgSt) : (s.setRdg k x).flash = s.flash := rfl
@[simp] theorem State.setRdg_out (s : State) (k : Nat) (x : RdgSt) : (s.setRdg k x).out = s.out := rfl
@[simp] theorem State.setRdg_faultEvents (s : State) (k : Nat) (x : RdgSt) : (s.setRdg k x).faultEvents = s.faultEvents := rfl
@[simp] theorem State.setRdg_lineEvents (s : State) (k : Nat) (x : RdgSt) : (s.setRdg k x).lineEvents = s.lineEvents := rfl
@[simp] theorem State.setRdg_msixOwed (s : State) (k : Nat) (x : RdgSt) : (s.setRdg k x).msixOwed = s.msixOwed := rfl
@[simp] theorem State.setRdg_freeUses (s : State) (k : Nat) (x : RdgSt) : (s.setRdg k x).freeUses = s.freeUses := rfl
@[simp] theorem State.setRdg_bar2 (s : State) (k : Nat) (x : RdgSt) : (s.setRdg k x).bar2 = s.bar2 := rfl
@[simp] theorem State.setRdg_pending (s : State) (k : Nat) (x : RdgSt) : (s.setRdg k x).pending = s.pending := rfl
@[simp] theorem State.rdg_setRdg (s : State) (k : Nat) (x : RdgSt) (h : k < (s.ridge.ports).length) : (s.setRdg k x).rdg k = x := by
  simp [State.setRdg, State.rdg, h]
@[simp] theorem State.rdg_setRdg_ne (s : State) (k j : Nat) (x : RdgSt) (h : j ≠ k) : (s.setRdg k x).rdg j = s.rdg j := by
  simp [State.setRdg, State.rdg, List.getElem?_set_ne (Ne.symm h)]

end Sys2Proof.Machine
end

