-- ==== Sys2Proof/Tests/Slice0.lean ====
section
/-! SUPPORT. Tests of the author: operands out of range are turned away, every clause of every statement has a state and operands that
meet its hypotheses together, and a few steps on small states, their results worked out by hand from the rules. -/

namespace Sys2Proof.Tests
open Sys2Proof Sys2Proof.Machine
set_option Elab.async false

/-! ### Small states -/


/-- A running device at Stage 3, its endpoint up. -/
def base : State :=
  { State.reset with
    clk := { slot := 40000000, running := true, tclk := 320000000, seeded := true }
    host := { linkUp := true }
    power := { good := true, calOk := true } }
  |>.put pDEV DEV.STATUS.STAGE 3 |>.putFlag pEAVE EAVE.STATUS.MAIN_ON true

/-- The device with a resource owned by agent 1, the agent of window 0. -/
def mine (code idx : Nat) (s : State := base) : State := s.setOwner code idx 1

/-- The device with the course 0 in the Course table, and every course in the ranges of agent 1. -/
def withCourse (s : State := base) : State :=
  { s with bar2 := [(courseBase + 3, 1), (courseBase + 10, 4)], host := { s.host with ranges := [(0, 4096, 1)] } }

/-- A table set that a sweep accepts. -/
def goodSweep : SweepResult := ⟨(List.range 16).map (fun (p : Nat) => (List.range 1000).map (fun (c : Nat) => ((2560 * p + 8 * c : Nat) : Int) - 4800)), 0⟩

theorem good_sweep_accepted : sweepAccepted goodSweep = true := by decide +kernel

theorem good_sweep_wf : goodSweep.wf = true := by decide +kernel

/-- A jitter above 500 fs is refused whatever the delays are (R70), and does not bear on their form. -/
theorem sweep_refused_of_jitter (r : SweepResult) (h : 500 < r.jitterFs) : sweepAccepted r = false :=
  Bool.and_eq_false_iff.2 (.inr (decide_eq_false (Nat.not_le.2 h)))

theorem sweep_wf_jitter (r : SweepResult) (j : Nat) : ({ r with jitterFs := j } : SweepResult).wf = r.wf := rfl

theorem sweep_done_wf_of (r : SweepResult) (h : r.wf = true) : (Instr.sweepDone 0 r).wf = true := by simp [Instr.wf, h]

theorem retest_done_wf_of (r : SweepResult) (h : r.wf = true) : (Instr.retestDone 0 r).wf = true := by simp [Instr.wf, h]

/-- Delays that a sweep accepts, with a jitter of 501 fs. -/
def badSweep : SweepResult := { goodSweep with jitterFs := 501 }

theorem bad_sweep_wf : badSweep.wf = true := (sweep_wf_jitter goodSweep 501).trans good_sweep_wf

/-- A table set just swept. -/
def freshSet : TableSet := ⟨(List.range 320).map (· + 600), List.replicate 16 0, 40000000, 0⟩

/-- The device with quad 0 in a form of its own. -/
def withQuad (x : QuadSt) (s : State := base) : State := { s with quads := s.quads.set 0 x }

/-- The device whose spare of quad 0 is the engine 4, READY with a fresh set. -/
def spareUp (x : QuadSt := {}) : State :=
  (withQuad { x with engines := x.engines.set 4 { front := some freshSet } }).put (pQUAD 0) QUAD.ENGINE_MAP.SPARE 4
  |>.setEngState 0 4 3

/-- The instant of the present edge of `base`, in SU. -/
def t0 : Int := 13107200000000

/-- The device with channel 0 in a form of its own. -/
def withChan (x : ChanSt) (s : State := base) : State := { s with chans := s.chans.set 0 x }

/-- An edge that rises 1 000 000 SU from the present. -/
def anEdge : Edge := ⟨(t0 + 1000000) * fine, .set true, .single, .sched, .own, none⟩

/-- That edge, issued. -/
def anIssued : Issued := ⟨anEdge, 0, t0 + 1000, 0, some true, 2 ^ 32 - 1, t0 + 1000000, none⟩

/-- The device with sequencer 0 in a form of its own, over quad 0, and its Course table. -/
def withSeq (x : SeqSt) (state : Nat) (s : State := withCourse) : State :=
  { s with seqs := s.seqs.set 0 x } |>.put (pSEQ 0) SEQ.STATUS.STATE state |>.put (pSEQ 0) SEQ.QUAD_MASK.QUADS 1
  |>.setOwner 10 0 1

/-- An occurrence of course 0 from an instant, for some reason. -/
def anOcc (start : Int) (via : SeqVia := .start) : SeqOcc := ⟨courseOf 0 (2 ^ 24 + 4 * 2 ^ 80), start, via, none, List.replicate 12 {}⟩

/-- An occurrence that ends 1 000 000 SU from the present. -/
def endingOcc : SeqOcc := anOcc (t0 - 8 * 2 ^ 24 + 1000000)

/-- One that has just ended. -/
def endedOcc : SeqOcc := anOcc (t0 - 8 * 2 ^ 24)

/-- Sequencer 0 fetching an occurrence whose first record has the top byte and the offset given. -/
def withRecord (top off : Nat) (x : SeqSt := {}) : State :=
  { withSeq { x with cur := some (anOcc (t0 + 5000000)), started := true } 2 with
    bar2 := [(0, off), (7, top), (courseBase + 3, 1), (courseBase + 10, 4)] }

/-- A refill of the first granule of quad 0. -/
def aRefill : Refill := ⟨0, 0, 1, 0, 0, false, false⟩

/-- An action of queue 0, dispatched with the present as its instant. -/
def aDisp (op target : Nat) (t : Int := t0) (param regOff : Nat := 0) : Disp :=
  ⟨{ queue := 0, when_ := 0, param := param, tebLimit := 2 ^ 32 - 1, tag := 0, regOff := regOff, target := target,
     boundPolicy := 0, latePolicy := 0, baseIndex := 0, base := 0, op := op, acceptIdx := 0, at_ := some t }, t, 0, none, false, false⟩

/-- The device with an action dispatched, its queue owned by agent 1. -/
def withDisp (d : Disp) (s : State := base) : State := { s.setOwner 5 0 1 with sched := { s.sched with dispatched := [d] } }

/-- Queue 0 enabled, with an action at its head. -/
def withQueue (a : Action) (s : State := base) : State :=
  { s with sched := { s.sched with queues := s.sched.queues.set 0 { actions := [a] } } } |>.putFlag pSCHED (SCHED.Q_CFG.ENABLE 0) true

/-- A fit that predicts one instant. -/
def aFit : PhaseFit := ⟨0, t0 + 1000, 0, 0, 0, 1, 0, 8, 1, []⟩

/-- Tracker 3 in lock with that fit. -/
def withFit (x : PhaseSt := {}) : State :=
  { base with phases := base.phases.set 3 { x with fit := some aFit } } |>.put (pPHASE 3) PHASE.STATUS.STATE 3

/-- The device with timing input 15 in a form of its own. -/
def withTin (x : TinSt) (s : State := base) : State := { s with tins := s.tins.set 15 x }

/-- A capture of a rising crossing. -/
def aCapture : Capture := ⟨0, true, 40960 * 320000000, 0, false⟩

/-- A stamp of the present. -/
def aStamp : Stamp := ⟨t0, true, 0, false, 0, 0, 0, 0⟩

/-- A window of a gate that has just opened. -/
def aWin : GateWin := { g := t0, l := 1000, steps := 0, fixed := false }

/-- A result of a table that is accepted. -/
def goodTable : TableResult := ⟨1022, 1023, 0, 0, 2000, 1200⟩

/-- The device with sessions, gates and intakes in a form of their own. -/
def withMeas (x : MeasSt) (s : State := base) : State := { s with meas := x }

/-- The device with a STREAM ring of stream 3. -/
def withStream (x : StreamSt) : State :=
  (withMeas { streams := [{}, {}, {}, x] }).put pHOSTQ (HOSTQ.RING_CFG.KIND 0) 4 |>.put pHOSTQ (HOSTQ.RING_CFG.BIND 0) 3
  |>.putFlag pHOSTQ (HOSTQ.RING_CTRL.ENABLE 0) true |>.put pHOSTQ (HOSTQ.RING_CFG.LOG2_ENTRIES 0) 10

/-- The device with reference 7 in a form of its own, ENABLED. -/
def withRef (x : RefSt) (state kind : Nat) : State :=
  { base with refs := base.refs.set 7 x } |>.put pREFSEL (REFSEL.REF_STATE.STATE 7) state
  |>.put pREFSEL (REFSEL.REF_CFG.KIND 7) kind |>.putFlag pREFSEL (REFSEL.REF_CFG.ENABLE 7) true

/-- An observation without an offset. -/
def anObs (theta : Int := 0) (at_ : Int := t0) : Obs := ⟨at_, theta, 1, none, 0⟩

/-- Sixteen observations, a second apart. -/
def sixteen : List Obs := (List.range 16).map (fun (k : Nat) => anObs 0 (t0 - (k + 1) * suSec))

/-- A conflict about reference 7. -/
def conflict (s : State) : State :=
  s.putFlag pREFSEL REFSEL.CONFLICT_INFO.ACTIVE true |>.put pREFSEL REFSEL.CONFLICT_INFO.REF 7

/-- APLL_A in a state, at 140 cycles of 40 MHz, its TARGET at a whole number of them. -/
def withApll (state target : Nat) (x : ApllaSt := {}) : State :=
  { base with aplla := { x with n := 140 * 2 ^ 32 } } |>.put pAPLL_A APLL_A.STATUS.STATE state
  |>.put pAPLL_A APLL_A.TARGET_INT.N_INT target |>.put pAPLL_A APLL_A.TARGET_FRAC.N_FRAC 0

/-- Aux output 7 in a form of its own, APLL_A locked. -/
def withAux (x : AuxSt) (on : Bool) : State :=
  { withApll 2 140 with auxs := base.auxs.set 7 x } |>.putFlag (pAUX 7) AUX.CONTROL.ENABLE on

/-- Ridge port 5 in a form of its own, ENABLED, its link in a state and with a role. -/
def withPort (x : RdgSt) (link role : Nat) (r : RidgeSt := {}) : State :=
  { base with ridge := { r with ports := r.ports.set 5 x } } |>.putFlag (pRDG 5) RDG.CONTROL.ENABLE true
  |>.put (pRDG 5) RDG.STATUS.LINK link |>.put (pRDG 5) RDG.PORT_CFG.ROLE role

/-- A TRIG cell from node 1. -/
def aTrig : TrigCell := ⟨2, false, 62, 0, 1, 0, 255, 0, (t0 + 200000000).toNat⟩

/-- A TIME cell from node 1. -/
def aTime (domain : Nat) : TimeCell :=
  { scope := 2, upward := false, domain := domain, src := 1, txSeq := 0, prevDep := 0, rxSeq := 0, rxArr := 0, prevDepTeb := 0,
    basis := 0, root := true, rxValid := false, depValid := false, upstream := false, stepSeq := 0, utcOffset := 0, leapPending := 0,
    leapDay := 0, pos := 0 }

/-- A MGMT cell, without its tag. -/
def aMgmt (op dst src page data : Nat) (upward : Bool := false) : MgmtCell := ⟨0, upward, 0, 0, src, dst, 0, op, 9, 0, page, 0x01C, data, 0⟩

/-- A MGMT cell with its tag under the key of zeros. -/
def aTagged (op dst src page data : Nat) (upward : Bool := false) : MgmtCell := tagCell (aMgmt op dst src page data upward) 0

/-- The root with key 9, and perhaps a request. -/
def aRoot (request : Option (Nat × Nat × Nat) := none) (role : Nat := 0) : State :=
  { withPort {} 3 role { request := request } with flash := { settings := { keyA := some (9, 0) } } }
  |>.putFlag (pRDG 0) RDG.NODE_CFG.ROOT true

/-- A node with key 9, heard by port 5. -/
def aNode : State := (aRoot none 1).putFlag (pRDG 0) RDG.NODE_CFG.ROOT false

/-- Ethernet port 1, ENABLED, its link up. -/
def ethUp (x : EthSt := {}) : State :=
  { base with eths := [{}, x] } |>.putFlag (pETH 1) ETH.CONTROL.ENABLE true |>.putFlag (pETH 1) ETH.STATUS.LINK_UP true
  |>.putFlag (pETH 1) ETH.TXR_CTRL.ENABLE true |>.putFlag (pETH 1) ETH.RXR_CTRL.ENABLE true

/-- The Eave at a count edge with an instruction of its program due at address 62. -/
def withProg (w : Nat) (a : Nat := 62) : State :=
  { base with eave := { base.eave with pc := some a, edges := 2, progEdge := 1 } } |>.put pEAVE (EAVE.PROG.INSTR_LO (a / 2)) w

/-- An event of source 0, reported in the next slot. -/
def anEvent (k : Nat) : FaultEvent := ⟨pDEV, 0, false, false, k, 39999999⟩

/-- The device with an event at the collector. -/
def withEvent (k : Nat) : State := { base with faultEvents := [anEvent k] } |>.putFlag pGUTTER GUTTER.STATUS.MODE false

/-- A device before a stage, at the edge where it is due. -/
def before (stage : Nat) : State := base.put pDEV DEV.STATUS.STAGE stage |>.putFlag pAPLL_M APLL_M.STATUS.LOCKED true

/-- STAGING with the header of a component and no payload. -/
def image (component : Nat) : List (Nat × Nat) :=
  [(0, 0x59), (1, 0x46), (2, 0x43), (3, 0x31), (4, 1), (5, 0), (6, 0), (7, 4), (8, component)] ++ (List.range' 9 15).map (fun a => (a, 0)) ++
    [(24, 0xB1)] ++ (List.range' 25 999).map (fun a => (a, 0))

/-- The device with an image of a component READY in STAGING. -/
def staged (component : Nat) (x : FlashSt := {}) : State :=
  { base with flash := { x with staging := image component, checked := { x.checked with ok := true } } }
  |>.put pFLASH FLASH.STATUS.STAGING_STATE 2 |>.put pFLASH FLASH.DOWNLOAD_COUNT.BYTES 1024

/-- A trial of a component. -/
def aTrial (component : Nat) (copied : Bool := true) : Trial := ⟨component, 0, copied, true, 0, 0, true, [], true, [], [], [], 0, [], false⟩

/-- An image header of a component. -/
def aHdr (component : Nat) : ImageHdr := ⟨component, false, 0, 64, 0, 0, 0, [], [], 0, 0⟩

/-- The device with a trial of component 5, its image active. -/
def onTrial (copied : Bool := true) (start : Nat := 0) : State :=
  { base with flash := { trial := some { aTrial 5 copied with start := start }, slots := List.replicate 5 (some (aHdr 5), none) } }
/-- The register of a page that holds the word at an offset: block, instance, register, element and word. -/
def regOf (p o : Nat) : Kind × Nat × RegDesc × Nat × Nat := (regAt p o).getD (.dir, 0, ⟨0, 0, 0, 0, []⟩, 0, 0)

/-- Its block, its instance, its register, its element and its word within the register. -/
def regK (p o : Nat) : Kind := (regOf p o).1
def regI (p o : Nat) : Nat := (regOf p o).2.1
def regD (p o : Nat) : RegDesc := (regOf p o).2.2.1
def regJ (p o : Nat) : Nat := (regOf p o).2.2.2.1
def regW (p o : Nat) : Nat := (regOf p o).2.2.2.2

/-- Cells, a header and a finding whose fields are in range. -/
def okTime : TimeCell :=
  { scope := 0, upward := false, domain := 0, src := 0, txSeq := 0, prevDep := 0, rxSeq := 0, rxArr := 0, prevDepTeb := 0, basis := 0,
    root := false, rxValid := false, depValid := false, upstream := false, stepSeq := 0, utcOffset := 0, leapPending := 0, leapDay := 0,
    pos := 0 }
def okTrig : TrigCell := { scope := 0, upward := false, hops := 0, domain := 0, src := 0, dst := 0, num := 0, seq := 0, execAt := 0 }
def okMgmt : MgmtCell :=
  { scope := 0, upward := false, hops := 0, domain := 0, src := 0, dst := 0, counter := 0, op := 0, keyId := 0, result := 0, page := 0,
    offset := 0, data := 0, tag := 0 }
def okHdr : ImageHdr :=
  { component := 1, ownerSigned := false, keyIndex := 0, secVer := 0, version := 0, schema := 0, payload := 0, provides := [],
    requires := [], hash := 0 }
def okVerify : VerifyResult :=
  { ok := true, words := [], oven := 0, terms := [], forms := [], migrates := false, handover := false }
def okBoot : BootData := { images := true, calOk := true, fallen := [], made := [], terms := [], forms := [] }

/-- Operands in range are taken, part 0. -/
theorem test_wf_takes_0 : ([
    .registerWrite (.bar0 0) 0 0 0, .stagedWordWrite (.bar0 0) 0 0 0, .latchingRead (.bar0 0) 0 0, .badAccess 0 0 false, .bar2Write 0 [0],
    .spiTransaction 0 0 [] 0, .i2cTransaction 0 [] 0, .go (.bar0 0) 0 0 0, .commitAbort (.bar0 0) 0 0 0,
    .commitModeChange (.bar0 0) 0 0 0, .shadowCommit 0 0, .cgArm (.bar0 0) 0, .cgDisarm (.bar0 0) 0, .cgFire 0,
    .windowBind (.bar0 0) 0x40 0, .ownerWrite (.bar0 0) 0 0, .claim (.bar0 0) 0, .release (.bar0 0) 0, .query (.bar0 0) 0 0,
    .forceRelease (.bar0 0) 0 0, .leasePeriodWrite (.bar0 0) 0 0, .kick (.bar0 0) 0 0, .leaseExpiry 0, .ringEnable (.bar0 0) 0 0,
    .ringDisable (.bar0 0) 0 0, .ringCfgWrite (.bar0 0) 0 0, .doorbell (.bar0 0) 0 0, .ringDmaError 0, .commandWrite32 0 0 0 0 0,
    .commandRead32 0 0 0 0, .commandWrite128 0 0 0 0 0, .commandRead128 0 0 0 0, .fence 0 0, .leaseKick 0 0, .commandNop 0 0,
    .modTimeExpiry 0, .freeze (.bar0 0), .snapshotRelease (.bar0 0), .edgeIssue 0, .edgeLaunch 0, .calVisitEnd 0 ⟨0, [], 0⟩,
    .sweepStart 0 0, .sweepDone 0 ⟨List.replicate 16 [0, 1], 0⟩, .tableSetExchange 0 0, .swapArm 0 0 0, .swapVerify 0 ⟨0, 0, false⟩,
    .swapSwitch 0, .swapDone 0, .failedLaneRemap 0, .swapLane (.bar0 0) 0 0, .resweepSpare (.bar0 0) 0, .retest (.bar0 0) 0 0,
    .retestDone 0 ⟨List.replicate 16 [0, 1], 0⟩, .tdcFault 0, .engineTableEcc 0 0 false, .driverFault 0 0, .loopEnable (.bar0 0) 0,
    .channelFlush (.bar0 0) 0, .channelSafeExit (.bar0 0) 0, .triggerLineEvent ⟨.tick 0, 0, 0⟩] : List Instr).all Instr.wf = true := by decide +kernel

/-- Operands in range are taken, part 1. -/
theorem test_wf_takes_1 : ([
    .tlSrcWrite (.bar0 0) 0 0, .tlShapeWrite (.bar0 0) 0 0, .fireNow (.bar0 0) 0, .fireAt (.bar0 0) 0, .start (.bar0 0) 0,
    .stopAtEnd (.bar0 0) 0, .stopNow (.bar0 0) 0, .jump (.bar0 0) 0, .clearRequest (.bar0 0) 0, .disarm (.bar0 0) 0, .seqDecision 0,
    .seqOccurrenceStart 0, .seqCut 0, .seqParkResume 0, .seqStop 0, .edgeHi 0, .edgeLo 0, .toggle 0, .mark 0, .recordNop 0, .recordEnd 0,
    .bankEcc 0 0 false, .courseTableEcc 0 false, .refillSubmit (.bar0 0) 0, .refillFlush (.bar0 0) 0, .refillDone 0 [], .refillDmaError 0,
    .readySet (.bar0 0), .readyClear (.bar0 0), .validate (.bar0 0), .syncInEvent 0 false 0, .syncOutPulse 0, .ppsPulse 0,
    .actionAccept 0 0, .submit (.bar0 0) 0, .flush (.bar0 0) 0, .queueSafeExit (.bar0 0), .queueEcc 0 false, .tickEnable (.bar0 0) 0 0,
    .tickDelivery 0, .phaseEnable (.bar0 0) 0 0, .restart (.bar0 0) 0, .phaseSourceLost 0, .phaseConvert 0, .inputCrossing 0 ⟨true, 0⟩,
    .inputResolved 0 false, .stampReady 0 ⟨0, 0, 0⟩, .fifoHandout 0, .injectedEvent 0 0 false 0, .inputTableDone 0 0 ⟨0, 0, 0, 0, 0, 0⟩,
    .calStale 0 0, .recal (.bar0 0) 0, .inputTableEcc 0 0 false, .sessionEnable (.bar0 0) 0 0, .gateEnable (.bar0 0) 0 0,
    .arm (.bar0 0) 0, .sessionAbort (.bar0 0) 0, .gateStart (.bar0 0) 0, .intakeDrain 0, .sessionTimeout 0] : List Instr).all Instr.wf = true := by decide +kernel

/-- Operands in range are taken, part 2. -/
theorem test_wf_takes_2 : ([
    .gateEnd 0, .tdcEngineEcc 0 0, .streamPeriodicBase 0, .streamBatchWrite 0, .streamResume 0, .apllLockWindow false 0,
    .xoUpdate ⟨0, 0, 0⟩, .ageingFit ⟨0, 0, 0, 0, 0⟩, .refEnable (.bar0 0) 0 0, .refObservation 0, .refPresenceFail 0, .push (.bar0 0) 0,
    .acceptSlew (.bar0 0) 0, .acceptStep (.bar0 0) 0, .reject (.bar0 0) 0, .clearSuspect (.bar0 0) 0, .requalify (.bar0 0) 0,
    .servoModeWrite (.bar0 0) 0, .step (.bar0 0), .stepProposed (.bar0 0), .slewProposed (.bar0 0), .apllAEnable (.bar0 0) 0,
    .freqCmdSet (.bar0 0), .runProfile (.bar0 0), .abortRamp (.bar0 0), .relock (.bar0 0), .auxEnable (.bar0 0) 0 0, .auxPeriodEnd 0,
    .auxSafeExit (.bar0 0) 0, .switch (.bar0 0), .pathAccept (.bar0 0), .pathClear (.bar0 0), .ridgeSlotTx 0, .ridgeBlockLock 0,
    .timeCellRx 0 okTime, .trigCellRx 0 okTrig, .mgmtRequestRx 0 okMgmt, .mgmtResponseRx 0 okMgmt, .fillCellRx 0, .ridgeLinkLost 0,
    .ridgeObsInterval 0, .issue (.bar0 0) 0, .mgmtRead32 (.bar0 0) 0, .mgmtWrite32 (.bar0 0) 0, .mgmtRead128 (.bar0 0) 0,
    .mgmtWrite128 (.bar0 0) 0, .ethDoorbell (.bar0 0) 0 false 0, .ethFrameTx 0 ⟨0, 0, false, false, [], 0, 0⟩,
    .ethFrameRx 0 ⟨List.replicate 60 0, true, 0, 0, 0⟩, .ethTxStamp 0 0, .ethLinkChange 0 false, .eaveSwitchover false,
    .calCmdSet (.bar0 0), .syncNow (.bar0 0), .invalidate (.bar0 0), .trimRenew 0, .monitorTick (List.replicate 9 {}), .pwrOn (.bar0 0),
    .pwrOff (.bar0 0), .alertSet (.bar0 0)] : List Instr).all Instr.wf = true := by decide +kernel

/-- Operands in range are taken, part 3. -/
theorem test_wf_takes_3 : ([
    .alertClr (.bar0 0), .wakeEdge false, .logClear (.bar0 0), .lineFault ⟨0, true⟩, .errInject (.bar0 0) 0 0, .inject (.bar0 0) 0 false,
    .clearPair (.bar0 0), .enterSafe (.bar0 0), .reinit (.bar0 0), .deviceSafeExit (.bar0 0), .firstFaultClear (.bar0 0),
    .gutterStorageEcc false, .suppliesGood ⟨false, false, false⟩, .supplyBelowThreshold 0, .supplyOutOfRange 0, .deviceReset (.bar0 0),
    .stage1Entry okBoot, .begin (.bar0 0), .writeWindow (.bar0 0), .dmaWrite (.bar0 0) [], .finish (.bar0 0) okVerify,
    .activate (.bar0 0), .activateAtReset (.bar0 0), .confirm (.bar0 0), .revert (.bar0 0), .flAbort (.bar0 0), .loadManifest (.bar0 0),
    .clearManifest (.bar0 0), .readLog (.bar0 0), .installKey (.bar0 0), .ownerEnroll (.bar0 0), .copyBlockDone false, .copyDone false,
    .microcodeBankSwap (.eave), .cellDrop 0 false, .configurationRequest ⟨0, .other⟩, .boundaryScan 0] : List Instr).all Instr.wf = true := by decide +kernel

/-- One operand out of range for each check of WellFormed, part 0: the check refuses it. -/
theorem test_wf_refuses_0 : ([
    .registerWrite (.queue 0) 0 0 0, .registerWrite (.bar0 0) 256 0 0, .registerWrite (.bar0 0) 0 4096 0,
    .registerWrite (.bar0 0) 0 0x42 0, .registerWrite (.bar0 0) 0 0 (2 ^ 32), .stagedWordWrite (.queue 0) 0 0 0,
    .stagedWordWrite (.bar0 0) 256 0 0, .stagedWordWrite (.bar0 0) 0 4096 0, .stagedWordWrite (.bar0 0) 0 0x42 0,
    .stagedWordWrite (.bar0 0) 0 0 (2 ^ 32), .latchingRead (.queue 0) 0 0, .latchingRead (.bar0 0) 256 0, .latchingRead (.bar0 0) 0 4096,
    .latchingRead (.bar0 0) 0 0x42, .badAccess (2 ^ 24) 0 false, .badAccess 0 4097 false, .bar2Write (2 ^ 26) [0], .bar2Write 0 [],
    .bar2Write 0 (List.replicate 513 0), .bar2Write (2 ^ 26 - 1) [0, 0], .bar2Write 0 [256], .spiTransaction 256 0 [] 0,
    .spiTransaction 0 (2 ^ 32) [] 0, .spiTransaction 0 0 [] (2 ^ 24), .spiTransaction 0 0 [2 ^ 32] 0, .i2cTransaction 4096 [] 0,
    .i2cTransaction 0 [] 4096, .i2cTransaction 0 [256] 0, .go (.queue 0) 0 0 0, .go (.bar0 0) 256 0 0, .go (.bar0 0) 0 1 0,
    .go (.bar0 0) 28 1 0, .go (.bar0 0) 16 4 0, .go (.bar0 0) 0 0 (2 ^ 32), .commitAbort (.queue 0) 0 0 0, .commitAbort (.bar0 0) 256 0 0,
    .commitAbort (.bar0 0) 0 1 0, .commitAbort (.bar0 0) 28 1 0, .commitAbort (.bar0 0) 16 4 0, .commitAbort (.bar0 0) 0 0 (2 ^ 32),
    .commitModeChange (.queue 0) 0 0 0, .commitModeChange (.bar0 0) 256 0 0, .commitModeChange (.bar0 0) 0 1 0,
    .commitModeChange (.bar0 0) 28 1 0, .commitModeChange (.bar0 0) 16 4 0, .commitModeChange (.bar0 0) 0 0 (2 ^ 32), .shadowCommit 256 0,
    .shadowCommit 0 1, .shadowCommit 28 1, .shadowCommit 16 4, .cgArm (.queue 0) 0, .cgArm (.bar0 0) (2 ^ 32), .cgDisarm (.queue 0) 0,
    .cgDisarm (.bar0 0) (2 ^ 32), .cgFire 16, .windowBind (.queue 0) 0x40 0, .windowBind (.bar0 0) 4096 0, .windowBind (.bar0 0) 0x42 0,
    .windowBind (.bar0 0) 0x40 (2 ^ 32), .windowBind (.bar0 0) 0x3C 0] : List Instr).all (fun c => !c.wf) = true := by decide +kernel

/-- One operand out of range for each check of WellFormed, part 1: the check refuses it. -/
theorem test_wf_refuses_1 : ([
    .windowBind (.bar0 0) 0x88 0, .ownerWrite (.queue 0) 0 0, .ownerWrite (.bar0 0) 256 0, .ownerWrite (.bar0 0) 0 (2 ^ 32),
    .claim (.queue 0) 0, .claim (.bar0 0) 256, .release (.queue 0) 0, .release (.bar0 0) 256, .query (.queue 0) 0 0,
    .query (.bar0 0) 256 0, .query (.bar0 0) 0 65536, .forceRelease (.queue 0) 0 0, .forceRelease (.bar0 0) 256 0,
    .forceRelease (.bar0 0) 0 65536, .leasePeriodWrite (.queue 0) 0 0, .leasePeriodWrite (.bar0 0) 16 0,
    .leasePeriodWrite (.bar0 0) 0 (2 ^ 32), .kick (.queue 0) 0 0, .kick (.bar0 0) 16 0, .kick (.bar0 0) 0 (2 ^ 32), .leaseExpiry 16,
    .ringEnable (.queue 0) 0 0, .ringEnable (.bar0 0) 32 0, .ringEnable (.bar0 0) 0 (2 ^ 32), .ringDisable (.queue 0) 0 0,
    .ringDisable (.bar0 0) 32 0, .ringDisable (.bar0 0) 0 (2 ^ 32), .ringCfgWrite (.queue 0) 0 0, .ringCfgWrite (.bar0 0) 32 0,
    .ringCfgWrite (.bar0 0) 0 (2 ^ 32), .doorbell (.queue 0) 0 0, .doorbell (.bar0 0) 32 0, .doorbell (.bar0 0) 0 (2 ^ 32),
    .ringDmaError 36, .commandWrite32 32 0 0 0 0, .commandWrite32 0 65536 0 0 0, .commandWrite32 0 0 4096 0 0,
    .commandWrite32 0 0 0 4096 0, .commandWrite32 0 0 0 0 (2 ^ 32), .commandRead32 32 0 0 0, .commandRead32 0 65536 0 0,
    .commandRead32 0 0 4096 0, .commandRead32 0 0 0 4096, .commandWrite128 32 0 0 0 0, .commandWrite128 0 65536 0 0 0,
    .commandWrite128 0 0 4096 0 0, .commandWrite128 0 0 0 4096 0, .commandWrite128 0 0 0 0 (2 ^ 128), .commandRead128 32 0 0 0,
    .commandRead128 0 65536 0 0, .commandRead128 0 0 4096 0, .commandRead128 0 0 0 4096, .fence 32 0, .fence 0 65536, .leaseKick 32 0,
    .leaseKick 0 65536, .commandNop 32 0, .commandNop 0 65536, .modTimeExpiry 32, .freeze (.queue 0)] : List Instr).all (fun c => !c.wf) = true := by decide +kernel

/-- One operand out of range for each check of WellFormed, part 2: the check refuses it. -/
theorem test_wf_refuses_2 : ([
    .snapshotRelease (.queue 0), .edgeIssue 48, .edgeLaunch 48, .calVisitEnd 12 ⟨0, [], 0⟩, .calVisitEnd 0 ⟨5, [], 0⟩,
    .calVisitEnd 0 ⟨12, [], 0⟩, .calVisitEnd 0 ⟨0, [⟨true, 320, 0⟩], 0⟩, .calVisitEnd 0 ⟨0, List.replicate 4097 ⟨true, 0, 0⟩, 0⟩,
    .sweepStart 12 0, .sweepStart 0 5, .sweepDone 12 ⟨List.replicate 16 [0, 1], 0⟩, .sweepDone 0 ⟨[], 0⟩,
    .sweepDone 0 ⟨List.replicate 16 [1, 1], 0⟩, .sweepDone 0 ⟨List.replicate 16 ((List.range 4097).map Int.ofNat), 0⟩,
    .tableSetExchange 12 0, .tableSetExchange 0 5, .swapArm 12 0 0, .swapArm 0 4 0, .swapArm 0 0 4, .swapVerify 12 ⟨0, 0, false⟩,
    .swapVerify 0 ⟨2 ^ 16, 0, false⟩, .swapSwitch 12, .swapDone 12, .failedLaneRemap 12, .swapLane (.queue 0) 0 0,
    .swapLane (.bar0 0) 12 0, .swapLane (.bar0 0) 0 4, .resweepSpare (.queue 0) 0, .resweepSpare (.bar0 0) 12, .retest (.queue 0) 0 0,
    .retest (.bar0 0) 12 0, .retest (.bar0 0) 0 5, .retestDone 12 ⟨List.replicate 16 [0, 1], 0⟩, .retestDone 0 ⟨[], 0⟩,
    .retestDone 0 ⟨List.replicate 16 [1, 1], 0⟩, .retestDone 0 ⟨List.replicate 16 ((List.range 4097).map Int.ofNat), 0⟩, .tdcFault 12,
    .engineTableEcc 12 0 false, .engineTableEcc 0 5 false, .driverFault 256 0, .driverFault 0 2, .loopEnable (.queue 0) 0,
    .loopEnable (.bar0 0) (2 ^ 32), .channelFlush (.queue 0) 0, .channelFlush (.bar0 0) 48, .channelSafeExit (.queue 0) 0,
    .channelSafeExit (.bar0 0) 48, .triggerLineEvent ⟨.timingInput 16 true, 0, 0⟩, .triggerLineEvent ⟨.ridge 256, 0, 0⟩,
    .triggerLineEvent ⟨.scheduler 16 0, 0, 0⟩, .triggerLineEvent ⟨.scheduler 0 64, 0, 0⟩, .triggerLineEvent ⟨.tick 8, 0, 0⟩,
    .triggerLineEvent ⟨.marker 4, 0, 0⟩, .triggerLineEvent ⟨.tracker 4, 0, 0⟩, .triggerLineEvent ⟨.host 64, 0, 0⟩,
    .triggerLineEvent ⟨.tick 0, 0, 2 ^ 32⟩, .tlSrcWrite (.queue 0) 0 0, .tlSrcWrite (.bar0 0) 64 0, .tlSrcWrite (.bar0 0) 0 (2 ^ 32),
    .tlShapeWrite (.queue 0) 0 0] : List Instr).all (fun c => !c.wf) = true := by decide +kernel

/-- One operand out of range for each check of WellFormed, part 3: the check refuses it. -/
theorem test_wf_refuses_3 : ([
    .tlShapeWrite (.bar0 0) 64 0, .tlShapeWrite (.bar0 0) 0 (2 ^ 32), .fireNow (.queue 0) 0, .fireNow (.bar0 0) 64, .fireAt (.queue 0) 0,
    .fireAt (.bar0 0) 64, .start (.queue 0) 0, .start (.bar0 0) 4, .stopAtEnd (.queue 0) 0, .stopAtEnd (.bar0 0) 4, .stopNow (.queue 0) 0,
    .stopNow (.bar0 0) 4, .jump (.queue 0) 0, .jump (.bar0 0) 4, .clearRequest (.queue 0) 0, .clearRequest (.bar0 0) 4,
    .disarm (.queue 0) 0, .disarm (.bar0 0) 4, .seqDecision 4, .seqOccurrenceStart 4, .seqCut 4, .seqParkResume 4, .seqStop 4, .edgeHi 4,
    .edgeLo 4, .toggle 4, .mark 4, .recordNop 4, .recordEnd 4, .bankEcc 12 0 false, .bankEcc 0 (2 ^ 17) false, .courseTableEcc 4096 false,
    .refillSubmit (.queue 0) 0, .refillSubmit (.bar0 0) 4, .refillFlush (.queue 0) 0, .refillFlush (.bar0 0) 4, .refillDone 4 [],
    .refillDone 0 [256], .refillDmaError 4, .readySet (.queue 0), .readyClear (.queue 0), .validate (.queue 0), .ppsPulse (2 ^ 64),
    .actionAccept 32 0, .actionAccept 0 (2 ^ 256), .submit (.queue 0) 0, .submit (.bar0 0) 16, .flush (.queue 0) 0, .flush (.bar0 0) 16,
    .queueSafeExit (.queue 0), .queueEcc 16 false, .tickEnable (.queue 0) 0 0, .tickEnable (.bar0 0) 8 0,
    .tickEnable (.bar0 0) 0 (2 ^ 32), .tickDelivery 8, .phaseEnable (.queue 0) 0 0, .phaseEnable (.bar0 0) 4 0,
    .phaseEnable (.bar0 0) 0 (2 ^ 32), .restart (.queue 0) 0, .restart (.bar0 0) 4] : List Instr).all (fun c => !c.wf) = true := by decide +kernel

/-- One operand out of range for each check of WellFormed, part 4: the check refuses it. -/
theorem test_wf_refuses_4 : ([
    .phaseSourceLost 4, .phaseConvert 4, .inputCrossing 16 ⟨true, 0⟩, .inputResolved 16 false, .stampReady 16 ⟨0, 0, 0⟩,
    .stampReady 0 ⟨0, 16, 0⟩, .stampReady 0 ⟨0, 0, 1024⟩, .fifoHandout 16, .injectedEvent 16 0 false 0, .injectedEvent 0 2 false 0,
    .injectedEvent 0 0 false 1024, .inputTableDone 25 0 ⟨0, 0, 0, 0, 0, 0⟩, .inputTableDone 0 2 ⟨0, 0, 0, 0, 0, 0⟩,
    .inputTableDone 0 0 ⟨1, 0, 0, 0, 0, 0⟩, .inputTableDone 0 0 ⟨0, 1024, 0, 0, 0, 0⟩, .calStale 16 0, .calStale 0 2, .recal (.queue 0) 0,
    .recal (.bar0 0) 16, .inputTableEcc 16 0 false, .inputTableEcc 0 2 false, .sessionEnable (.queue 0) 0 0,
    .sessionEnable (.bar0 0) 16 0, .sessionEnable (.bar0 0) 0 (2 ^ 32), .gateEnable (.queue 0) 0 0, .gateEnable (.bar0 0) 8 0,
    .gateEnable (.bar0 0) 0 (2 ^ 32), .arm (.queue 0) 0, .arm (.bar0 0) 16, .sessionAbort (.queue 0) 0, .sessionAbort (.bar0 0) 24,
    .gateStart (.queue 0) 0, .gateStart (.bar0 0) 8, .intakeDrain 16, .sessionTimeout 16, .gateEnd 8, .tdcEngineEcc 65536 0,
    .tdcEngineEcc 0 256, .streamPeriodicBase 4, .streamBatchWrite 4, .streamResume 4, .apllLockWindow false (2 ^ 32),
    .xoUpdate ⟨2 ^ 31, 0, 0⟩, .xoUpdate ⟨-(2 ^ 31) - 1, 0, 0⟩, .xoUpdate ⟨0, 65536, 0⟩, .xoUpdate ⟨0, 0, 2 ^ 15⟩,
    .xoUpdate ⟨0, 0, -(2 ^ 15) - 1⟩, .ageingFit ⟨2 ^ 64 * 65536000000000, 0, 0, 0, 0⟩, .ageingFit ⟨0, 2 ^ 63, 0, 0, 0⟩,
    .ageingFit ⟨0, -(2 ^ 63) - 1, 0, 0, 0⟩, .ageingFit ⟨0, 0, 2 ^ 32, 0, 0⟩, .ageingFit ⟨0, 0, 0, 2 ^ 31, 0⟩,
    .ageingFit ⟨0, 0, 0, -(2 ^ 31) - 1, 0⟩, .ageingFit ⟨0, 0, 0, 0, 2 ^ 30⟩, .refEnable (.queue 0) 0 0, .refEnable (.bar0 0) 8 0,
    .refEnable (.bar0 0) 0 (2 ^ 32), .refObservation 8, .refPresenceFail 8, .push (.queue 0) 0] : List Instr).all (fun c => !c.wf) = true := by decide +kernel

/-- One operand out of range for each check of WellFormed, part 5: the check refuses it. -/
theorem test_wf_refuses_5 : ([
    .push (.bar0 0) 8, .acceptSlew (.queue 0) 0, .acceptSlew (.bar0 0) 8, .acceptStep (.queue 0) 0, .acceptStep (.bar0 0) 8,
    .reject (.queue 0) 0, .reject (.bar0 0) 8, .clearSuspect (.queue 0) 0, .clearSuspect (.bar0 0) 8, .requalify (.queue 0) 0,
    .requalify (.bar0 0) 8, .servoModeWrite (.queue 0) 0, .servoModeWrite (.bar0 0) (2 ^ 32), .step (.queue 0), .stepProposed (.queue 0),
    .slewProposed (.queue 0), .apllAEnable (.queue 0) 0, .apllAEnable (.bar0 0) (2 ^ 32), .freqCmdSet (.queue 0), .runProfile (.queue 0),
    .abortRamp (.queue 0), .relock (.queue 0), .auxEnable (.queue 0) 0 0, .auxEnable (.bar0 0) 8 0, .auxEnable (.bar0 0) 0 (2 ^ 32),
    .auxPeriodEnd 8, .auxSafeExit (.queue 0) 0, .auxSafeExit (.bar0 0) 8, .switch (.queue 0), .pathAccept (.queue 0),
    .pathClear (.queue 0), .ridgeSlotTx 6, .ridgeBlockLock 6, .timeCellRx 6 okTime, .timeCellRx 0 ({ okTime with scope := 4 }),
    .timeCellRx 0 ({ okTime with domain := 256 }), .timeCellRx 0 ({ okTime with src := 65536 }),
    .timeCellRx 0 ({ okTime with txSeq := 2 ^ 32 }), .timeCellRx 0 ({ okTime with prevDep := 2 ^ 64 * 65536000000000 }),
    .timeCellRx 0 ({ okTime with rxSeq := 2 ^ 32 }), .timeCellRx 0 ({ okTime with rxArr := 2 ^ 64 * 65536000000000 }),
    .timeCellRx 0 ({ okTime with prevDepTeb := 2 ^ 32 }), .timeCellRx 0 ({ okTime with basis := 16 }),
    .timeCellRx 0 ({ okTime with stepSeq := 256 }), .timeCellRx 0 ({ okTime with utcOffset := 65536 }),
    .timeCellRx 0 ({ okTime with leapPending := 4 }), .timeCellRx 0 ({ okTime with leapDay := 2 ^ 30 }),
    .timeCellRx 0 ({ okTime with bitPos := 66 }), .trigCellRx 6 okTrig, .trigCellRx 0 ({ okTrig with scope := 4 }),
    .trigCellRx 0 ({ okTrig with hops := 256 }), .trigCellRx 0 ({ okTrig with domain := 256 }),
    .trigCellRx 0 ({ okTrig with src := 65536 }), .trigCellRx 0 ({ okTrig with dst := 65536 }),
    .trigCellRx 0 ({ okTrig with num := 256 }), .trigCellRx 0 ({ okTrig with seq := 2 ^ 32 }),
    .trigCellRx 0 ({ okTrig with execAt := 2 ^ 64 * 65536000000000 }), .mgmtRequestRx 6 okMgmt,
    .mgmtRequestRx 0 ({ okMgmt with scope := 4 }), .mgmtRequestRx 0 ({ okMgmt with hops := 256 })] : List Instr).all (fun c => !c.wf) = true := by decide +kernel

/-- One operand out of range for each check of WellFormed, part 6: the check refuses it. -/
theorem test_wf_refuses_6 : ([
    .mgmtRequestRx 0 ({ okMgmt with domain := 256 }), .mgmtRequestRx 0 ({ okMgmt with src := 65536 }),
    .mgmtRequestRx 0 ({ okMgmt with dst := 65536 }), .mgmtRequestRx 0 ({ okMgmt with counter := 2 ^ 64 }),
    .mgmtRequestRx 0 ({ okMgmt with op := 256 }), .mgmtRequestRx 0 ({ okMgmt with keyId := 256 }),
    .mgmtRequestRx 0 ({ okMgmt with result := 16 }), .mgmtRequestRx 0 ({ okMgmt with page := 4096 }),
    .mgmtRequestRx 0 ({ okMgmt with offset := 4096 }), .mgmtRequestRx 0 ({ okMgmt with data := 2 ^ 128 }),
    .mgmtRequestRx 0 ({ okMgmt with tag := 2 ^ 96 }), .mgmtResponseRx 6 okMgmt, .mgmtResponseRx 0 ({ okMgmt with scope := 4 }),
    .mgmtResponseRx 0 ({ okMgmt with hops := 256 }), .mgmtResponseRx 0 ({ okMgmt with domain := 256 }),
    .mgmtResponseRx 0 ({ okMgmt with src := 65536 }), .mgmtResponseRx 0 ({ okMgmt with dst := 65536 }),
    .mgmtResponseRx 0 ({ okMgmt with counter := 2 ^ 64 }), .mgmtResponseRx 0 ({ okMgmt with op := 256 }),
    .mgmtResponseRx 0 ({ okMgmt with keyId := 256 }), .mgmtResponseRx 0 ({ okMgmt with result := 16 }),
    .mgmtResponseRx 0 ({ okMgmt with page := 4096 }), .mgmtResponseRx 0 ({ okMgmt with offset := 4096 }),
    .mgmtResponseRx 0 ({ okMgmt with data := 2 ^ 128 }), .mgmtResponseRx 0 ({ okMgmt with tag := 2 ^ 96 }), .fillCellRx 6,
    .ridgeLinkLost 6, .ridgeObsInterval 6, .issue (.queue 0) 0, .issue (.bar0 0) 6, .mgmtRead32 (.queue 0) 0, .mgmtRead32 (.bar0 0) 6,
    .mgmtWrite32 (.queue 0) 0, .mgmtWrite32 (.bar0 0) 6, .mgmtRead128 (.queue 0) 0, .mgmtRead128 (.bar0 0) 6, .mgmtWrite128 (.queue 0) 0,
    .mgmtWrite128 (.bar0 0) 6, .ethDoorbell (.queue 0) 0 false 0, .ethDoorbell (.bar0 0) 2 false 0,
    .ethDoorbell (.bar0 0) 0 false (2 ^ 32), .ethFrameTx 2 ⟨0, 0, false, false, [], 0, 0⟩,
    .ethFrameTx 0 ⟨2 ^ 64, 0, false, false, [], 0, 0⟩, .ethFrameTx 0 ⟨0, 2 ^ 14, false, false, List.replicate 16384 0, 0, 0⟩,
    .ethFrameTx 0 ⟨0, 1, false, false, [], 0, 0⟩, .ethFrameTx 0 ⟨0, 1, false, false, [256], 0, 0⟩,
    .ethFrameRx 2 ⟨List.replicate 60 0, true, 0, 0, 0⟩, .ethFrameRx 0 ⟨List.replicate 59 0, true, 0, 0, 0⟩,
    .ethFrameRx 0 ⟨List.replicate 9217 0, true, 0, 0, 0⟩, .ethFrameRx 0 ⟨List.replicate 60 256, true, 0, 0, 0⟩,
    .ethFrameRx 0 ⟨List.replicate 60 0, true, 0, 0, 2 ^ 64⟩, .ethTxStamp 2 0, .ethLinkChange 2 false, .calCmdSet (.queue 0),
    .syncNow (.queue 0), .invalidate (.queue 0), .trimRenew 512, .monitorTick (List.replicate 8 {}),
    .monitorTick (List.replicate 9 { ain0 := 2 ^ 32 }), .monitorTick (List.replicate 9 { ain1 := 2 ^ 32 })] : List Instr).all (fun c => !c.wf) = true := by decide +kernel

/-- One operand out of range for each check of WellFormed, part 7: the check refuses it. -/
theorem test_wf_refuses_7 : ([
    .monitorTick (List.replicate 9 { vbat := 2 ^ 32 }), .monitorTick (List.replicate 9 { vddHv := 2 ^ 32 }),
    .monitorTick (List.replicate 9 { vddIo := 2 ^ 32 }), .monitorTick (List.replicate 9 { tj := 2 ^ 31 }),
    .monitorTick (List.replicate 9 { tj := -(2 ^ 31) - 1 }), .pwrOn (.queue 0), .pwrOff (.queue 0), .alertSet (.queue 0),
    .alertClr (.queue 0), .logClear (.queue 0), .lineFault ⟨128, true⟩, .errInject (.queue 0) 0 0, .errInject (.bar0 0) 256 0,
    .errInject (.bar0 0) 0 (2 ^ 32), .inject (.queue 0) 0 false, .inject (.bar0 0) 128 false, .clearPair (.queue 0),
    .enterSafe (.queue 0), .reinit (.queue 0), .deviceSafeExit (.queue 0), .firstFaultClear (.queue 0), .supplyBelowThreshold 6,
    .supplyOutOfRange 6, .deviceReset (.queue 0), .stage1Entry ({ okBoot with fallen := [0] }),
    .stage1Entry ({ okBoot with fallen := [6] }), .stage1Entry ({ okBoot with made := [(0, 0, okHdr)] }),
    .stage1Entry ({ okBoot with made := [(6, 0, okHdr)] }), .stage1Entry ({ okBoot with made := [(1, 2, okHdr)] }),
    .stage1Entry ({ okBoot with terms := [(256, 0, 0)] }), .stage1Entry ({ okBoot with terms := [(0, 4096, 0)] }),
    .stage1Entry ({ okBoot with terms := [(0, 0, 2 ^ 32)] }),
    .stage1Entry ({ okBoot with made := [(1, 0, { okHdr with component := 0 })] }),
    .stage1Entry ({ okBoot with made := [(1, 0, { okHdr with component := 8 })] }),
    .stage1Entry ({ okBoot with made := [(1, 0, { okHdr with keyIndex := 4 })] }),
    .stage1Entry ({ okBoot with made := [(1, 0, { okHdr with secVer := 65 })] }),
    .stage1Entry ({ okBoot with made := [(1, 0, { okHdr with version := 2 ^ 32 })] }),
    .stage1Entry ({ okBoot with made := [(1, 0, { okHdr with schema := 65536 })] }),
    .stage1Entry ({ okBoot with made := [(1, 0, { okHdr with payload := 2 ^ 32 })] }),
    .stage1Entry ({ okBoot with made := [(1, 0, { okHdr with provides := List.replicate 33 0 })] }),
    .stage1Entry ({ okBoot with made := [(1, 0, { okHdr with requires := List.replicate 33 0 })] }),
    .stage1Entry ({ okBoot with made := [(1, 0, { okHdr with hash := 2 ^ 384 })] }),
    .stage1Entry ({ okBoot with made := [(1, 0, { okHdr with owner := 2 ^ 384 })] }),
    .stage1Entry ({ okBoot with forms := [⟨.lane 48 0, 0, 0⟩] }), .stage1Entry ({ okBoot with forms := [⟨.lane 0 4, 0, 0⟩] }),
    .stage1Entry ({ okBoot with forms := [⟨.loop 48 0, 0, 0⟩] }), .stage1Entry ({ okBoot with forms := [⟨.loop 0 4, 0, 0⟩] }),
    .stage1Entry ({ okBoot with forms := [⟨.input 16 0 0, 0, 0⟩] }), .stage1Entry ({ okBoot with forms := [⟨.input 0 2 0, 0, 0⟩] }),
    .stage1Entry ({ okBoot with forms := [⟨.input 0 0 3, 0, 0⟩] }), .stage1Entry ({ okBoot with forms := [⟨.lane 0 0, 2 ^ 31, 0⟩] }),
    .stage1Entry ({ okBoot with forms := [⟨.lane 0 0, 0, -(2 ^ 31) - 1⟩] }),
    .stage1Entry ({ okBoot with forms := [⟨.lane 0 0, -(2 ^ 31) - 1, 0⟩] }),
    .stage1Entry ({ okBoot with forms := [⟨.lane 0 0, 0, 2 ^ 31⟩] }), .begin (.queue 0), .writeWindow (.queue 0), .dmaWrite (.queue 0) [],
    .dmaWrite (.bar0 0) [256], .finish (.queue 0) okVerify, .finish (.bar0 0) ({ okVerify with words := [2 ^ 32] })] : List Instr).all (fun c => !c.wf) = true := by decide +kernel

/-- One operand out of range for each check of WellFormed, part 8: the check refuses it. -/
theorem test_wf_refuses_8 : ([
    .finish (.bar0 0) ({ okVerify with terms := [(256, 0, 0)] }), .finish (.bar0 0) ({ okVerify with forms := [⟨.lane 48 0, 0, 0⟩] }),
    .finish (.bar0 0) ({ okVerify with revoke := 16 }), .finish (.bar0 0) ({ okVerify with owner := 2 ^ 384 }), .activate (.queue 0),
    .activateAtReset (.queue 0), .confirm (.queue 0), .revert (.queue 0), .flAbort (.queue 0), .loadManifest (.queue 0),
    .clearManifest (.queue 0), .readLog (.queue 0), .installKey (.queue 0), .ownerEnroll (.queue 0), .microcodeBankSwap (.ridge 6),
    .microcodeBankSwap (.eth 2), .cellDrop 6 false, .configurationRequest ⟨1024, .other⟩, .configurationRequest ⟨0, .vector 64 true⟩,
    .boundaryScan 256, .freeze (.bar0 16), .freeze (.spi 16), .freeze (.ring 32)] : List Instr).all (fun c => !c.wf) = true := by decide +kernel

/-! ### Small checks against the worked examples of the spec -/

/-- The mapping of the worked example of R22 (01_time_model.md:240). -/
def exampleClock : ClockSt := { anchorN := 2000000000, y := -2882303762 }

/-- R22, R23: the edge of the worked example lands at the raw position, count, phase and vernier of the table. -/
theorem test_place_example : (place exampleClock false false 0 (65536809095 * fine)).1 = 2000000000 * 40960 + 65536809256 ∧
    codeCount (2000000000 * 40960 + 65536809256) = 2001600019 ∧ codePhase (2000000000 * 40960 + 65536809256) = 12 ∧
    codeVernier (2000000000 * 40960 + 65536809256) = 37 ∧ posSlot (2000000000 * 40960 + 65536809256) = 250200002 := by decide +kernel

/-- R23: the dither sequence of the worked example, its ties to even included. -/
theorem test_dither_sequence : ((List.range 8).foldl (fun (r : List Int × Int) _ =>
    let p := placeRemainder false true r.2 31019; (r.1 ++ [p.1], p.2)) ([], 0)) =
    ([31016, 31024, 31016, 31024, 31016, 31016, 31024, 31016], 0) := by decide +kernel

/-- R22: a remainder of 40 958 SU carries into the next TCLK period. -/
theorem test_place_carry : placeRemainder false false 0 40958 = (40960, 0) := by decide +kernel

/-- R66: the raw code of the worked example (03_edge_placement.md:96), VCT 2 987 and trim -12. -/
theorem test_raw_code : rawCode (some ⟨List.replicate 320 2987, (-12) :: List.replicate 15 0, 0, 0⟩) (240 * 8) = 2975 := by decide +kernel

/-- R14: a span of -1.5 ns in three words. -/
theorem test_span_words : let s := base.putSpan pSYNC SYNC.IN_SKEW.SPAN (-98304)
    s.rd pSYNC 0x50 = 0xFFFE8000#32 ∧ s.rd pSYNC 0x54 = 0xFFFFFFFF#32 ∧ s.rd pSYNC 0x58 = 0xFFFFFFFF#32 := by decide +kernel

/-- R237: the age terms of the worked examples, 2.4 ps and 35 ps, rounded up. -/
theorem test_age_terms : psOfFreq 4000 (600000000 * 65536) = 3 ∧ psOfFreq 35000 (1000000000 * 65536) = 35 := by decide +kernel

/-- R150: 64 turns of 2 500 012.5 ns on a line; an eighth of a turn later the line lies 312 501.5625 ns on. -/
theorem test_phase_predict : (fitStamps 1 ((List.range 64).map (fun k => (-(k : Int), -(k : Int) * 163840819200)))).map (fun f => f.predict 1 8)
    = some 20480102400 := by decide +kernel

/-- R294: the fields of the monitor word of the worked example (12_eave_and_calendar.md:266). -/
theorem test_monitor_word : let s := base.wr pEAVE (EAVE.MON_CFG.off 0) 0xA5066800#32
    s.get pEAVE (EAVE.MON_CFG.HI 0) = 410 ∧ s.get pEAVE (EAVE.MON_CFG.LO 0) = 0 ∧ s.flag pEAVE (EAVE.MON_CFG.ENABLE 0) = true ∧
    s.flag pEAVE (EAVE.MON_CFG.CLEAR_MODE 0) = false ∧ s.flag pEAVE (EAVE.MON_CFG.LOG_ON_LATCH 0) = true := by decide +kernel

/-- R283, R284: 85.4 degrees give 720.8 mV, above 410 steps of 1.757 812 5 mV, and set the latch; 85.35 degrees do not
(12_eave_and_calendar.md:266). -/
theorem test_monitor_latch : let s := base.wr pEAVE (EAVE.MON_CFG.off 0) 0xA5066800#32
    (s.monitorSample 0 { tj := 85400 }).get pEAVE EAVE.LATCH.LATCH = 1 ∧
    (s.monitorSample 0 { tj := 85350 }).get pEAVE EAVE.LATCH.LATCH = 0 := by decide +kernel

/-- R266: the tag of no data under the key and the IV of zeros, as the published vector for AES-256 in this mode has it. -/
theorem test_gmac : gmac (List.replicate 32 0) 0 0 0 = 0x530f8afbc74536b9a963b4f1c4cb738b := by decide +kernel

/-- The next state of an outcome, or the one given. -/
def after (o : Host.Outcome State Fault Refusal) (s : State) : State := match o with | .next t => t | _ => s

/-- R43: agent 1, bound to window 0, claims channel 0 and then owns it; window 1 is bound to no agent, and its claim is not accepted. -/
theorem test_claim : let s := base.put pOWN (OWN.WINDOW.AGENT 0) 1
    (after (exec (.claim (.bar0 0) 1) s) s).resOwner 1 0 = 1 ∧ (after (exec (.claim (.bar0 1) 1) s) s).resOwner 1 0 = 0 := by decide +kernel

/-- An operand that does not exist changes nothing (log 99). -/
theorem test_ill_formed_changes_nothing : exec (.fifoHandout 16) base = .next base := rfl

/-- R5: a slot is eight periods of TCLK. -/
theorem test_slot_passes : (after base.passSlot base).clk.slot = base.clk.slot + 1 ∧ (after base.passSlot base).clk.tclk = base.clk.tclk + 8 := by
  decide +kernel

/-- The step takes the front command and leaves the rest waiting. -/
theorem test_step_takes_front : (after (step { base with pending := [.recordNop 0, .recordEnd 0] }) base).pending = [.recordEnd 0] := by decide +kernel

/-- What holds of every content of an empty option. -/
theorem none_holds {α : Type} {o : Option α} {P : α → Prop} (h : o = none) (p : α) (hp : o = some p) : P p := by simp [h] at hp

/-- What holds of every content of an option that holds one. -/
theorem some_holds {α : Type} {o : Option α} {P : α → Prop} (a : α) (h : o = some a) (ha : P a) (p : α) (hp : o = some p) : P p := by
  rw [h] at hp; cases hp; exact ha

/-! ### The hypotheses of each clause of each statement, met together -/

/-! The clauses whose hypotheses name an outcome, or a choice for each byte. -/

theorem wit_step_runs_the_front_command_0 : ∃ s : State, ∃ c rest, s.pending = c :: rest :=
  ⟨{ base with pending := [.recordNop 0] }, .recordNop 0, [], rfl⟩

theorem wit_every_step_keeps_the_form_0 : ∃ s t : State, s.sound = true ∧ step s = .next t :=
  ⟨{ State.reset with pending := [.fifoHandout 16] }, State.reset, by decide +kernel, rfl⟩

theorem wit_other_commands_leave_bar2_0 : ∃ (c : Instr) (s t : State), mayStore c = false ∧ exec c s = .next t :=
  ⟨.fifoHandout 16, base, base, rfl, rfl⟩

theorem wit_only_steps_move_the_timescale_0 : ∃ (c : Instr) (s t : State), exec c s = .next t ∧ c ≠ .timescaleStep ∧ c ≠ .timescaleSeed ∧
    c ≠ .resetNLow ∧ (∀ rail, c ≠ .supplyBelowThreshold rail) ∧ ∀ straps, c ≠ .suppliesGood straps :=
  ⟨.fifoHandout 16, base, base, rfl, by simp, by simp, by simp, by simp, by simp⟩

theorem wit_reset_state_7 : ∃ p o, o < 4096 ∧ regKey p o ∉ State.reset.regs.map (·.1) := ⟨pCAL, 4092, by decide +kernel⟩

/-- The device whose quad 0 belongs to sequencer 0 of agent 1, the agent of BAR2. -/
def bar2Mine : State := (withSeq {} 0).put pOWN OWN.BAR2_AGENT.AGENT 1

theorem wit_bar2_write_stores_its_bytes_0 : ∃ (s : State) (off : Nat) (bytes : List Nat), (Instr.bar2Write off bytes).wf = true ∧ s.pcieUp = true ∧
    s.stage ≠ 0 ∧ ∃ agent, agent = s.get pOWN OWN.BAR2_AGENT.AGENT ∧
    ∀ k, k < bytes.length → (off + k < courseBase ∧ ∃ q, s.seqOfQuad ((off + k) / bankBytes) = some q ∧ agent ≠ 0 ∧ s.seqOwner q = agent ∧
      s.rangeActive q ((off + k) % bankBytes / 64) 1 = false) ∨
      (courseBase ≤ off + k ∧ off + k < courseBase + 0x20000 ∧ s.inRanges agent ((off + k - courseBase) / 32) = true ∧
        s.courseActive ((off + k - courseBase) / 32) = false) := by
  refine ⟨bar2Mine, 63, [7], by decide +kernel, by decide +kernel, by decide +kernel, 1, by decide +kernel, fun k hk => ?_⟩
  obtain rfl : k = 0 := by simpa using hk
  exact .inl ⟨by decide +kernel, 0, by decide +kernel⟩

/-- The last byte of the Course table. -/
theorem wit_bar2_write_stores_its_bytes_0_table : ∃ (s : State) (off : Nat) (bytes : List Nat), (Instr.bar2Write off bytes).wf = true ∧
    s.pcieUp = true ∧ s.stage ≠ 0 ∧ ∃ agent, agent = s.get pOWN OWN.BAR2_AGENT.AGENT ∧
    ∀ k, k < bytes.length → (off + k < courseBase ∧ ∃ q, s.seqOfQuad ((off + k) / bankBytes) = some q ∧ agent ≠ 0 ∧ s.seqOwner q = agent ∧
      s.rangeActive q ((off + k) % bankBytes / 64) 1 = false) ∨
      (courseBase ≤ off + k ∧ off + k < courseBase + 0x20000 ∧ s.inRanges agent ((off + k - courseBase) / 32) = true ∧
        s.courseActive ((off + k - courseBase) / 32) = false) := by
  refine ⟨bar2Mine, courseBase + 0x1FFFF, [7], by decide +kernel, by decide +kernel, by decide +kernel, 1, by decide +kernel, fun k hk => ?_⟩
  obtain rfl : k = 0 := by simpa using hk
  exact .inr (by decide +kernel)

theorem wit_bar2_write_stores_its_bytes_1 : ∃ (s : State) (off : Nat) (bytes : List Nat), (Instr.bar2Write off bytes).wf = true ∧
    s.pcieUp = true ∧ s.stage ≠ 0 ∧ ∃ agent, agent = s.get pOWN OWN.BAR2_AGENT.AGENT :=
  ⟨bar2Mine, 2 ^ 26 - 1, [255], by decide +kernel, by decide +kernel, by decide +kernel, 1, by decide +kernel⟩

theorem wit_bar2_write_stores_its_bytes_2 : ∃ (s : State) (off : Nat) (bytes : List Nat), (Instr.bar2Write off bytes).wf = true ∧
    s.pcieUp = true ∧ s.stage ≠ 0 ∧ ∃ agent, agent = s.get pOWN OWN.BAR2_AGENT.AGENT ∧ off + bytes.length ≤ courseBase ∧
    ∀ k, k < bytes.length → s.seqOfQuad ((off + k) / bankBytes) = none ∨ agent = 0 ∨
      (∃ q, s.seqOfQuad ((off + k) / bankBytes) = some q ∧ s.seqOwner q ≠ agent) :=
  ⟨base, courseBase - 1, [7], by decide +kernel, by decide +kernel, by decide +kernel, _, rfl, by decide +kernel,
    fun k hk => .inl (by obtain rfl : k = 0 := by simpa using hk
                         decide +kernel)⟩

theorem wit_empty_queue_brings_what_is_due_0 : ∃ s : State, s.pending = [] ∧ s.due ≠ [] := ⟨base.put pDEV DEV.CG_ARM.ARMED 1,
  by decide +kernel⟩
theorem wit_empty_queue_brings_what_is_due_1 : ∃ s : State, s.pending = [] ∧ s.due = [] ∧ s.clk.running = true ∧ 2 ^ 64 ≤ s.clk.tclk + 8
  := ⟨{ base with clk := { base.clk with tclk := 2 ^ 64 - 8, anchorN := 2 ^ 64 - 8 } }, by decide +kernel⟩
theorem wit_empty_queue_brings_what_is_due_2 : ∃ s : State, s.pending = [] ∧ s.due = [] ∧ s.power.good = true ∧
  s.eaveTick.apllaSlot.clockEdge.resetDue = false ∧ s.clk.tclk + 8 < 2 ^ 64 := ⟨base, by decide +kernel⟩
theorem wit_register_accesses_0 : ∃ s : State, ∃ path : Path, ∃ page : Nat, ∃ v : Nat, (.registerWrite path page 0x01C v : Instr).wf =
  true ∧ State.passes s path page 0x01C v = true ∧ valueOk page 0x01C v = true := ⟨base, .bar0 0, pSERVO, 2 ^ 32 - 1, by decide +kernel⟩
theorem wit_register_accesses_1 : ∃ s : State, ∃ path : Path, ∃ page : Nat, ∃ off : Nat, ∃ v : Nat, lowerWord page off = true ∧ s.passes
  path page off v = true ∧ (.registerWrite path page off v : Instr).wf = true := ⟨base, .bar0 0, pSERVO, SERVO.STEP_SPAN.off, 2 ^ 32 - 1,
  by decide +kernel⟩
theorem wit_register_accesses_2 : ∃ s : State, ∃ path : Path, ∃ page : Nat, ∃ off : Nat, ∃ v : Nat, lowerWord page off = true ∧ s.passes
  path page off v = true ∧ (.stagedWordWrite path page off v : Instr).wf = true := ⟨base, .bar0 0, pSERVO, SERVO.STEP_SPAN.off, 2 ^ 32 -
  1, by decide +kernel⟩
theorem wit_register_accesses_3 : ∃ s : State, ∃ path : Path, ∃ page : Nat, ∃ off : Nat, ∃ v : Nat, ∃ k : Kind, ∃ i : Nat, ∃ d : RegDesc,
  ∃ j : Nat, ∃ w : Nat, ∃ x : Nat, regAt page off = some (k, i, d, j, w) ∧ w + 1 = d.words ∧ s.passes path page off v = true ∧ x = (if
  d.words = 1 then v else s.build path page (d.at_ j) d.words (s.lower path page k i d j) v) ∧ plainReg k d = true ∧ d.reserved x = false
  ∧ formatOk k d x = true ∧ rangeOk k i d.base x = true ∧ (.registerWrite path page off v : Instr).wf = true := ⟨base, .bar0 0, pSERVO,
  SERVO.STEP_CTL.off, 1, (regK pSERVO SERVO.STEP_CTL.off), (regI pSERVO SERVO.STEP_CTL.off), (regD pSERVO SERVO.STEP_CTL.off), (regJ
  pSERVO SERVO.STEP_CTL.off), (regW pSERVO SERVO.STEP_CTL.off), 1, by decide +kernel⟩
theorem wit_register_accesses_4 : ∃ s : State, ∃ path : Path, ∃ page : Nat, ∃ off : Nat, ∃ v : Nat, ∃ k : Kind, ∃ i : Nat, ∃ d : RegDesc,
  ∃ j : Nat, ∃ w : Nat, ∃ x : Nat, regAt page off = some (k, i, d, j, w) ∧ w + 1 = d.words ∧ s.passes path page off v = true ∧ x = (if
  d.words = 1 then v else s.build path page (d.at_ j) d.words (s.lower path page k i d j) v) ∧ d.isCmd = false ∧ (d.reserved x = true ∨
  formatOk k d x = false ∨ (0x040 ≤ d.base ∧ rangeOk k i d.base x = false)) ∧ (.registerWrite path page off v : Instr).wf = true := ⟨base,
  .bar0 0, pSERVO, SERVO.STEP_CTL.off, 2, (regK pSERVO SERVO.STEP_CTL.off), (regI pSERVO SERVO.STEP_CTL.off), (regD pSERVO
  SERVO.STEP_CTL.off), (regJ pSERVO SERVO.STEP_CTL.off), (regW pSERVO SERVO.STEP_CTL.off), 2, by decide +kernel⟩
theorem wit_register_accesses_5 : ∃ s : State, ∃ path : Path, ∃ page : Nat, ∃ off : Nat, ∃ v : Nat, ∃ k : Kind, ∃ i : Nat, ∃ d : RegDesc,
  ∃ j : Nat, regAt page off = some (k, i, d, j, 0) ∧ d.words = 1 ∧ d.fields.all (fun f => f.acc == .shd) = true ∧ (s.ctxMode page (ctxLane
  page off) = 0 → s.commitRefusal (s.agentOf path) page (ctxLane page off) [(regKey page off, BitVec.ofNat 32 v)] = none) ∧
  (.registerWrite path page off v : Instr).wf = true ∧ State.passes s path page off v = true ∧ valueOk page off v = true := ⟨mine 1 0,
  .bar0 0, (pCHAN 0), CHAN.LEVEL_CFG.off, 1, (regK (pCHAN 0) CHAN.LEVEL_CFG.off), (regI (pCHAN 0) CHAN.LEVEL_CFG.off), (regD (pCHAN 0)
  CHAN.LEVEL_CFG.off), (regJ (pCHAN 0) CHAN.LEVEL_CFG.off), by decide +kernel⟩
theorem wit_register_accesses_6 : ∃ s : State, ∃ path : Path, ∃ page : Nat, ∃ off : Nat, ∃ v : Nat, ∃ k : Kind, ∃ i : Nat, ∃ d : RegDesc,
  ∃ j : Nat, regAt page off = some (k, i, d, j, 0) ∧ d.words = 1 ∧ perWindow k d.base = true ∧ (.registerWrite path page off v : Instr).wf
  = true ∧ State.passes s path page off v = true ∧ valueOk page off v = true := ⟨base, .bar0 0, (pQUAD 0), QUAD.VCT_SEL.off, 0, (regK
  (pQUAD 0) QUAD.VCT_SEL.off), (regI (pQUAD 0) QUAD.VCT_SEL.off), (regD (pQUAD 0) QUAD.VCT_SEL.off), (regJ (pQUAD 0) QUAD.VCT_SEL.off),
  by decide +kernel⟩
theorem wit_register_accesses_7 : ∃ s : State, ∃ path : Path, ∃ page : Nat, ∃ off : Nat, ∃ v : Nat, s.reaches path page = true ∧
  (pageBlock page).isSome = true ∧ off ≠ 0x02C ∧ s.barred path = false ∧ (0x800 ≤ off ∨ regAt page off = none) ∧ (.registerWrite path page
  off v : Instr).wf = true := ⟨base, .bar0 0, pSERVO, 0xFFC, 2 ^ 32 - 1, by decide +kernel⟩
theorem wit_register_accesses_8 : ∃ s : State, ∃ path : Path, ∃ page : Nat, ∃ off : Nat, ∃ v : Nat, s.reaches path page = true ∧
  (pageBlock page).isSome = true ∧ off ≠ 0x02C ∧ s.barred path = true ∧ (.registerWrite path page off v : Instr).wf = true :=
  ⟨base.putFlag pOWN (OWN.WINDOW.READ_ONLY 0) true, .bar0 0, pSERVO, 0xFFC, 0, by decide +kernel⟩
theorem wit_register_accesses_9 : ∃ s : State, ∃ path : Path, ∃ page : Nat, ∃ off : Nat, ∃ v : Nat, (s.reaches path page = false ∨
  (pageBlock page).isNone = true ∨ off = 0x02C) ∧ (.registerWrite path page off v : Instr).wf = true := ⟨base, .bar0 0, pSERVO, 0x02C, 0,
  by decide +kernel⟩
theorem wit_register_accesses_10 : ∃ s : State, ∃ path : Path, ∃ page : Nat, ∃ off : Nat, s.reaches path page = true ∧ (.latchingRead path
  page off : Instr).wf = true := ⟨base, .bar0 0, 255, 0xFFC, by decide +kernel⟩
theorem wit_register_accesses_11 : ∃ s : State, ∃ path : Path, ∃ page : Nat, ∃ off : Nat, s.reaches path page = true ∧ (pageBlock
  page).isSome = true ∧ (off = 0x00C ∨ off = 0x01C) ∧ (.latchingRead path page off : Instr).wf = true := ⟨base, .bar0 0, pSERVO, 0x01C,
  by decide +kernel⟩
theorem wit_register_accesses_12 : ∃ s : State, ∃ path : Path, ∃ page : Nat, ∃ off : Nat, s.reaches path page = true ∧ regAt page (off %
  0x800) = none ∧ (.latchingRead path page off : Instr).wf = true := ⟨base, .bar0 0, pSERVO, 0xFFC, by decide +kernel⟩
theorem wit_register_accesses_13 : ∃ s : State, ∃ path : Path, ∃ page : Nat, ∃ off : Nat, ∃ k : Kind, ∃ i : Nat, ∃ d : RegDesc, ∃ j : Nat,
  ∃ w : Nat, s.reaches path page = true ∧ regAt page (off % 0x800) = some (k, i, d, j, w) ∧ (¬(page = pEAVE ∧ (d.base = EAVE.UTC_DATE.off
  ∨ d.base = EAVE.UTC_TIME.off))) ∧ d.words = 1 ∧ off < 0x800 ∧ (.latchingRead path page off : Instr).wf = true := ⟨base, .bar0 0, pSERVO,
  SERVO.STEP_CTL.off, (regK pSERVO SERVO.STEP_CTL.off), (regI pSERVO SERVO.STEP_CTL.off), (regD pSERVO SERVO.STEP_CTL.off), (regJ pSERVO
  SERVO.STEP_CTL.off), (regW pSERVO SERVO.STEP_CTL.off), by decide +kernel⟩
theorem wit_register_accesses_14 : ∃ s : State, ∃ path : Path, ∃ page : Nat, ∃ off : Nat, ∃ k : Kind, ∃ i : Nat, ∃ d : RegDesc, ∃ j : Nat,
  ∃ w : Nat, s.reaches path page = true ∧ regAt page (off % 0x800) = some (k, i, d, j, w) ∧ (¬(page = pEAVE ∧ (d.base = EAVE.UTC_DATE.off
  ∨ d.base = EAVE.UTC_TIME.off))) ∧ d.words = 1 ∧ 0x800 ≤ off ∧ s.host.frozen = none ∧ (.latchingRead path page off : Instr).wf = true :=
  ⟨base, .bar0 0, pSERVO, (0x800 + SERVO.STEP_CTL.off), (regK pSERVO SERVO.STEP_CTL.off), (regI pSERVO SERVO.STEP_CTL.off), (regD pSERVO
  SERVO.STEP_CTL.off), (regJ pSERVO SERVO.STEP_CTL.off), (regW pSERVO SERVO.STEP_CTL.off), by decide +kernel⟩
theorem wit_register_accesses_15 : ∃ s : State, ∃ path : Path, ∃ page : Nat, ∃ off : Nat, ∃ k : Kind, ∃ i : Nat, ∃ d : RegDesc, ∃ j : Nat,
  ∃ w : Nat, s.reaches path page = true ∧ regAt page (off % 0x800) = some (k, i, d, j, w) ∧ (¬(page = pEAVE ∧ (d.base = EAVE.UTC_DATE.off
  ∨ d.base = EAVE.UTC_TIME.off))) ∧ 1 < d.words ∧ w = 0 ∧ off < 0x800 ∧ (.latchingRead path page off : Instr).wf = true := ⟨base, .bar0 0,
  pSERVO, SERVO.STEP_SPAN.off, (regK pSERVO SERVO.STEP_SPAN.off), (regI pSERVO SERVO.STEP_SPAN.off), (regD pSERVO SERVO.STEP_SPAN.off),
  (regJ pSERVO SERVO.STEP_SPAN.off), (regW pSERVO SERVO.STEP_SPAN.off), by decide +kernel⟩
theorem wit_register_accesses_16 : ∃ s : State, ∃ path : Path, ∃ page : Nat, ∃ off : Nat, ∃ k : Kind, ∃ i : Nat, ∃ d : RegDesc, ∃ j : Nat,
  ∃ w : Nat, ∃ l : List Word, s.reaches path page = true ∧ regAt page (off % 0x800) = some (k, i, d, j, w) ∧ (¬(page = pEAVE ∧ (d.base =
  EAVE.UTC_DATE.off ∨ d.base = EAVE.UTC_TIME.off))) ∧ 1 < d.words ∧ w ≠ 0 ∧ s.latched path (regKey page (off - 4 * w)) = some l ∧
  (.latchingRead path page off : Instr).wf = true :=
  ⟨{ base with host := { base.host with latches := [((.bar0 0, regKey pSERVO SERVO.STEP_SPAN.off), [1, 2, 3])] } }, .bar0 0, pSERVO,
  (SERVO.STEP_SPAN.off + 8), (regK pSERVO (SERVO.STEP_SPAN.off + 8)), (regI pSERVO (SERVO.STEP_SPAN.off + 8)), (regD pSERVO
  (SERVO.STEP_SPAN.off + 8)), (regJ pSERVO (SERVO.STEP_SPAN.off + 8)), (regW pSERVO (SERVO.STEP_SPAN.off + 8)), ([1, 2, 3] : List Word),
  by decide +kernel⟩
theorem wit_register_accesses_17 : ∃ s : State, ∃ w : Nat, ∃ page : Nat, ∃ off : Nat, ∃ v : Nat, ∃ addr, (Instr.spiTransaction 2 addr [v]
  0).wf = true ∧ s.power.good = true ∧ s.stage ≠ 0 ∧ page < 256 ∧ off < 4096 ∧ off % 4 = 0 ∧ w < 16 ∧ addr = w * 2 ^ 28 + page * 4096 +
  off := ⟨base.put pOWN (OWN.WINDOW.AGENT 15) 2, 15, pSERVO, 0xFFC, 2 ^ 32 - 1, 15 * 2 ^ 28 + pSERVO * 4096 + 0xFFC, by decide +kernel⟩
theorem wit_register_accesses_18 : ∃ s : State, ∃ w : Nat, ∃ page : Nat, ∃ off : Nat, ∃ v : Nat, ∃ addr, (Instr.spiTransaction 2 addr [v]
  0).wf = true ∧ s.power.good = true ∧ s.stage ≠ 0 ∧ page < 256 ∧ off < 4096 ∧ off % 4 = 0 ∧ w < 16 ∧ addr = w * 2 ^ 28 + page * 4096 +
  off ∧ off = 0x01C ∧ s.passes (.spi w) page 0x01C v = true ∧ valueOk page 0x01C v = true := ⟨base.put pOWN (OWN.WINDOW.AGENT 15) 2, 15,
  pSERVO, 0x01C, 2 ^ 32 - 1, 15 * 2 ^ 28 + pSERVO * 4096 + 0x01C, by decide +kernel⟩
theorem wit_register_accesses_19 : ∃ s : State, ∃ w : Nat, ∃ page : Nat, ∃ off : Nat, ∃ v : Nat, ∃ addr, ∃ x, (Instr.spiTransaction 2 addr
  [v] 0).wf = true ∧ s.power.good = true ∧ s.stage ≠ 0 ∧ page < 256 ∧ off < 4096 ∧ off % 4 = 0 ∧ w < 16 ∧ addr = w * 2 ^ 28 + page * 4096
  + off ∧ x < 2 ^ 32 ∧ page * 4096 + off + 4 < 2 ^ 20 := ⟨base.put pOWN (OWN.WINDOW.AGENT 15) 2, 15, pSERVO, SERVO.BW.off, 2 ^ 32 - 1, 15
  * 2 ^ 28 + pSERVO * 4096 + SERVO.BW.off, 2 ^ 32 - 1, by decide +kernel⟩
theorem wit_register_accesses_20 : ∃ s : State, ∃ addr, ∃ n, (Instr.spiTransaction 0x0B addr [] n).wf = true ∧ s.power.good = true ∧
  s.stage = 0 := ⟨base.put pDEV DEV.STATUS.STAGE 0, 2 ^ 32 - 4, 2, by decide +kernel⟩
theorem wit_register_accesses_21 : ∃ s : State, ∃ addr, ∃ n, (Instr.spiTransaction 0x0B addr [] n).wf = true ∧ s.power.good = true ∧
  s.stage ≠ 0 ∧ spiAddrOk addr = true := ⟨base, 2 ^ 20 - 4, 4, by decide +kernel⟩
theorem wit_register_accesses_22 : ∃ s : State, ∃ w : Nat, ∃ page : Nat, ∃ off : Nat, ∃ addr, ∃ n, (Instr.spiTransaction 0x0B addr []
  n).wf = true ∧ s.power.good = true ∧ s.stage ≠ 0 ∧ n = 1 ∧ page < 256 ∧ off < 4096 ∧ off % 4 = 0 ∧ w < 16 ∧ addr = w * 2 ^ 28 + page *
  4096 + off := ⟨base.put pOWN (OWN.WINDOW.AGENT 15) 2, 15, pSERVO, 0xFFC, 15 * 2 ^ 28 + pSERVO * 4096 + 0xFFC, 1, by decide +kernel⟩
theorem wit_register_accesses_23 : ∃ s : State, ∃ w : Nat, ∃ addr, ∃ n, ∃ a, (Instr.spiTransaction 0x0B addr [] n).wf = true ∧
  s.power.good = true ∧ s.stage ≠ 0 ∧ n = 1 ∧ a < 2 ^ 26 ∧ a % 4 = 0 ∧ w < 16 ∧ addr = w * 2 ^ 28 + 2 ^ 27 + a := ⟨base, 15, 15 * 2 ^ 28 +
  2 ^ 27 + (courseBase + 0x20000), 1, courseBase + 0x20000, by decide +kernel⟩
theorem wit_register_accesses_24 : ∃ s : State, ∃ addr, ∃ data : List Nat, ∃ n, (Instr.spiTransaction 2 addr data n).wf = true ∧ s.stage =
  0 := ⟨base.put pDEV DEV.STATUS.STAGE 0, 0, [7], 0, by decide +kernel⟩
theorem wit_register_accesses_25 : ∃ off : Nat, ∃ v : Nat, (Instr.i2cTransaction off (leDigits 8 4 v) 0).wf = true ∧ v < 2 ^ 32 ∧ off % 4
  = 0 := ⟨0x01C, 2 ^ 32 - 1, by decide +kernel⟩
theorem wit_register_accesses_26 : ∃ s : State, ∃ off : Nat, ∃ v : Nat, (Instr.i2cTransaction off (leDigits 8 4 v) 0).wf = true ∧ v < 2 ^
  32 ∧ off % 4 = 0 ∧ off = 0x01C ∧ s.passes .i2c pEAVE 0x01C v = true ∧ valueOk pEAVE 0x01C v = true := ⟨base.put pEAVE
  EAVE.I2C_CFG.I2C_AGENT 2, 0x01C, 2 ^ 32 - 1, by decide +kernel⟩
theorem wit_register_accesses_27 : ∃ off : Nat, (Instr.i2cTransaction off [] 4).wf = true ∧ off % 4 = 0 := ⟨0x7FC, by decide +kernel⟩
theorem wit_register_accesses_28 : ∃ s : State, ∃ addr : Nat, ∃ size : Nat, ∃ isRead : Bool, (Instr.badAccess addr size isRead).wf = true
  ∧ s.pcieUp = true ∧ s.stage ≠ 0 ∧ (¬((size = 4 ∨ size = 8) ∧ addr % size = 0)) := ⟨base, 2, 4, false, by decide +kernel⟩
theorem wit_foreign_writes_are_denied_0 : ∃ s : State, ∃ path : Path, ∃ page : Nat, ∃ off : Nat, ∃ v : Nat, ∃ k : Kind, ∃ i : Nat, ∃ d :
  RegDesc, ∃ j : Nat, ∃ w : Nat, regAt page off = some (k, i, d, j, w) ∧ (k ∈ [.dev, .dir, .refsel, .servo, .apllm, .aplla, .tsc, .domain,
  .flash, .course, .rdg, .eth, .sync] ∧ s.pageOwner page ≠ 0 ∨ k ∈ [.chan, .aux, .cal, .seq, .phase]) ∧ (s.pageOwner page ≠ s.agentOf path
  ∨ s.pageOwner page = 0) ∧ (Instr.registerWrite path page off v).wf = true ∧ s.reaches path page = true ∧ s.barred path = false ∧ s.stage
  ≠ 0 ∧ 0x040 ≤ off ∧ off < 0x800 ∧ takesWrites path page off = true ∧ path ≠ .i2c := ⟨base.setOwner 15 pSERVO 2, .bar0 0, pSERVO,
  SERVO.STEP_CTL.off, 0, (regK pSERVO SERVO.STEP_CTL.off), (regI pSERVO SERVO.STEP_CTL.off), (regD pSERVO SERVO.STEP_CTL.off), (regJ
  pSERVO SERVO.STEP_CTL.off), (regW pSERVO SERVO.STEP_CTL.off), by decide +kernel⟩
theorem wit_commits_0 : ∃ s : State, ∃ path : Path, ∃ page : Nat, ∃ lane : Nat, ∃ v : Nat, bitsOf v 1 0 = 1 ∧ bitOf v 5 = false ∧ 2 ≤
  s.stage ∧ (s.put page ⟨ctxOff page lane, 1, 0⟩ 1).commitRefusal (s.agentOf path) page lane (s.shadowWords page lane) = none ∧ (.go path
  page lane v : Instr).wf = true ∧ State.passes s path page (ctxOff page lane) (setBit v 4) = true ∧ valueOk page (ctxOff page lane)
  (setBit v 4) = true := ⟨base, .bar0 0, pSERVO, 0, 1, by decide +kernel⟩
theorem wit_commits_1 : ∃ s : State, ∃ path : Path, ∃ page : Nat, ∃ lane : Nat, ∃ v : Nat, bitsOf v 1 0 ≠ 3 ∧ bitOf v 4 = false ∧
  (.commitAbort path page lane v : Instr).wf = true ∧ State.passes s path page (ctxOff page lane) (setBit v 5) = true ∧ valueOk page
  (ctxOff page lane) (setBit v 5) = true := ⟨base, .bar0 0, pSERVO, 0, 2, by decide +kernel⟩
theorem wit_commits_2 : ∃ s : State, ∃ path : Path, ∃ page : Nat, ∃ lane : Nat, ∃ v : Nat, bitsOf v 1 0 ≠ 3 ∧ bitOf v 4 = false ∧ bitOf v
  5 = false ∧ (.commitModeChange path page lane v : Instr).wf = true ∧ State.passes s path page (ctxOff page lane) v = true ∧ valueOk page
  (ctxOff page lane) v = true := ⟨base, .bar0 0, pSERVO, 0, 2, by decide +kernel⟩
theorem wit_commits_3 : ∃ s : State, ∃ q : Nat, ∃ lane : Nat, (∀ e ∈ s.host.shadow, ∃ p k i d j w, regAt p (e.1 % 4096) = some (k, i, d,
  j, w) ∧ e.1 = regKey p (e.1 % 4096) ∧ d.shd = true) ∧ q < 12 ∧ lane < 4 ∧ s.commitDue (pQUAD q) lane = true ∧ s.host.immed = [] :=
  ⟨{ base with host := { base.host with goNext := [(pQUAD 0, 3, 39999999)], shadow := [(regKey (pQUAD 0) (QUAD.BOARD_DELAY.off 3), 7)] } },
  0, 3, fun e he => (List.mem_singleton.1 he).symm ▸ ⟨pQUAD 0, _, _, _, _, _, rfl, rfl, rfl⟩, by decide +kernel⟩
theorem wit_commits_4 : ∃ s : State, ∃ path : Path, ∃ v : Nat, 2 ≤ s.stage ∧ (∀ g, g < 16 → bitOf v g = true → s.cgArmed g = false →
  s.atLeastNs (s.cgInstant g) 256 = true) ∧ (.cgArm path v : Instr).wf = true ∧ State.passes s path pDEV DEV.CG_ARM.off v = true ∧ valueOk
  pDEV DEV.CG_ARM.off v = true := ⟨base.put pDEV (DEV.CG_INSTANT.INSTANT 15) (instantBits (base.next32.natAbs + 2000000000)), .bar0 0,
  0x8000, by decide +kernel⟩
theorem wit_commits_5 : ∃ s : State, ∃ path : Path, ∃ v : Nat, (.cgDisarm path v : Instr).wf = true ∧ State.passes s path pDEV
  DEV.CG_DISARM.off v = true ∧ valueOk pDEV DEV.CG_DISARM.off v = true := ⟨base, .bar0 0, 0x8000, by decide +kernel⟩
theorem wit_commits_6 : ∃ s : State, ∃ g, g < 16 ∧ s.cgDue g = true ∧ s.host.goGroup = [] := ⟨base.put pDEV DEV.CG_ARM.ARMED 0x8000, 15,
  by decide +kernel⟩
theorem wit_ownership_commands_0 : ∃ s : State, ∃ path : Path, ∃ page, s.agentOf path ≠ 0 ∧ s.agentOf path < 0xFFFF ∧ page ≠ pOWN ∧
  s.pageOwner page = 0 ∧ (.ownerWrite path page (s.agentOf path * 65536) : Instr).wf = true ∧ State.passes s path page 0x00C (s.agentOf
  path * 65536) = true ∧ valueOk page 0x00C (s.agentOf path * 65536) = true := ⟨base, .bar0 0, pSERVO, by decide +kernel⟩
theorem wit_ownership_commands_1 : ∃ s : State, ∃ path : Path, ∃ res : Nat, s.agentOf path ≠ 0 ∧ s.agentOf path < 0xFFFF ∧ res ≠ 8 ∧
  claimNames res (s.claimArg path).1 (s.claimArg path).2 = true ∧ s.resOwner res (s.claimArg path).1 = 0 ∧ (.claim path res : Instr).wf =
  true ∧ State.passes s path pOWN OWN.CLAIM_CMD.off (packRec [(8, 8, res), (0, 8, 1)]) = true ∧ valueOk pOWN OWN.CLAIM_CMD.off (packRec
  [(8, 8, res), (0, 8, 1)]) = true := ⟨base, .bar0 0, 5, by decide +kernel⟩
theorem wit_ownership_commands_2 : ∃ s : State, ∃ path : Path, ∃ res : Nat, s.agentOf path ≠ 0 ∧ s.agentOf path < 0xFFFF ∧ res ≠ 8 ∧
  claimNames res (s.claimArg path).1 (s.claimArg path).2 = true ∧ s.resOwner res (s.claimArg path).1 = s.agentOf path ∧ (.release path res
  : Instr).wf = true ∧ State.passes s path pOWN OWN.CLAIM_CMD.off (packRec [(8, 8, res), (0, 8, 2)]) = true ∧ valueOk pOWN
  OWN.CLAIM_CMD.off (packRec [(8, 8, res), (0, 8, 2)]) = true := ⟨mine 5 0, .bar0 0, 5, by decide +kernel⟩
theorem wit_ownership_commands_3 : ∃ s : State, ∃ path : Path, ∃ res : Nat, ∃ agent, s.agentOf path ≠ 0 ∧ s.agentOf path < 0xFFFF ∧ res ≠
  8 ∧ resExists res (s.claimArg path).1 = true ∧ s.resOwner res (s.claimArg path).1 < 65536 ∧ (.query path res agent : Instr).wf = true ∧
  State.passes s path pOWN OWN.CLAIM_CMD.off (packRec [(16, 16, agent), (8, 8, res), (0, 8, 3)]) = true ∧ valueOk pOWN OWN.CLAIM_CMD.off
  (packRec [(16, 16, agent), (8, 8, res), (0, 8, 3)]) = true := ⟨base, .bar0 0, 5, 0, by decide +kernel⟩
theorem wit_ownership_commands_4 : ∃ s : State, ∃ path : Path, ∃ res : Nat, ∃ agent, s.agentOf path ≠ 0 ∧ s.agentOf path < 0xFFFF ∧
  s.adminOf path = true ∧ agent ≠ 0 ∧ agent < 0xFFFF ∧ (.forceRelease path res agent : Instr).wf = true ∧ State.passes s path pOWN
  OWN.CLAIM_CMD.off (packRec [(16, 16, agent), (8, 8, res), (0, 8, 4)]) = true ∧ valueOk pOWN OWN.CLAIM_CMD.off (packRec [(16, 16, agent),
  (8, 8, res), (0, 8, 4)]) = true := ⟨base, .bar0 0, 5, 2, by decide +kernel⟩
theorem wit_windows_and_leases_0 : ∃ s : State, ∃ path : Path, ∃ w : Nat, ∃ v : Nat, w < 16 ∧ bindable (bitsOf v 31 16) = true ∧
  s.boundElsewhere (bitsOf v 31 16) w = false ∧ (.windowBind path (0x040 + 4 * w) v : Instr).wf = true ∧ State.passes s path pOWN (0x040 +
  4 * w) v = true ∧ valueOk pOWN (0x040 + 4 * w) v = true := ⟨base, .bar0 0, 15, 0x20001, by decide +kernel⟩
theorem wit_windows_and_leases_1 : ∃ s : State, ∃ path : Path, ∃ w : Nat, ∃ v : Nat, w < 16 ∧ bindable (bitsOf v 31 16) = true ∧
  (.windowBind path 0x080 v : Instr).wf = true ∧ State.passes s path pOWN 0x080 v = true ∧ valueOk pOWN 0x080 v = true := ⟨base, .bar0 0,
  0, 0x20000, by decide +kernel⟩
theorem wit_windows_and_leases_2 : ∃ s : State, ∃ path : Path, ∃ w : Nat, ∃ v : Nat, w < 16 ∧ (.windowBind path 0x084 v : Instr).wf = true
  ∧ State.passes s path pOWN 0x084 v = true ∧ valueOk pOWN 0x084 v = true := ⟨base, .bar0 0, 0, 3, by decide +kernel⟩
theorem wit_windows_and_leases_3 : ∃ s : State, ∃ path : Path, ∃ w : Nat, ∃ v : Nat, w < 16 ∧ 1000 ≤ v ∧ v ≤ 60000000 ∧ (.leasePeriodWrite
  path w v : Instr).wf = true ∧ State.passes s path pOWN (OWN.LEASE_PERIOD.off w) v = true ∧ valueOk pOWN (OWN.LEASE_PERIOD.off w) v =
  true := ⟨base, .bar0 0, 15, 1000, by decide +kernel⟩
theorem wit_windows_and_leases_4 : ∃ s : State, ∃ path : Path, ∃ w : Nat, w < 16 ∧ (.leasePeriodWrite path w 0 : Instr).wf = true ∧
  State.passes s path pOWN (OWN.LEASE_PERIOD.off w) 0 = true ∧ valueOk pOWN (OWN.LEASE_PERIOD.off w) 0 = true := ⟨base, .bar0 0, 0,
  by decide +kernel⟩
theorem wit_windows_and_leases_5 : ∃ s : State, ∃ path : Path, ∃ w : Nat, ∃ v : Nat, w < 16 ∧ s.sound = true ∧ s.get pOWN
  (OWN.LEASE_PERIOD.PERIOD_US w) ≠ 0 ∧ (.kick path w v : Instr).wf = true ∧ State.passes s path pOWN (OWN.LEASE_CTL.off w) (setBit v 8) =
  true ∧ valueOk pOWN (OWN.LEASE_CTL.off w) (setBit v 8) = true := ⟨(base |>.put pOWN (OWN.LEASE_PERIOD.PERIOD_US 0) 1), .bar0 0, 0, 0,
  by decide +kernel⟩
theorem wit_windows_and_leases_6 : ∃ s : State, ∃ w : Nat, w < 16 ∧ s.leaseDue w = true ∧ s.flag pOWN (OWN.LEASE_CTL.ORPHAN w) = false :=
  ⟨(base.putFlag pOWN (OWN.LEASE_CTL.ARMED 0) true |>.putFlag pOWN (OWN.LEASE_CTL.ORPHAN 0) false), 0, by decide +kernel⟩
theorem wit_windows_and_leases_7 : ∃ s : State, ∃ w : Nat, w < 16 ∧ s.leaseDue w = true ∧ s.flag pOWN (OWN.LEASE_CTL.ORPHAN w) = true ∧
  s.get pOWN (OWN.WINDOW.AGENT w) ≠ 0 := ⟨(base.putFlag pOWN (OWN.LEASE_CTL.ARMED 0) true |>.putFlag pOWN (OWN.LEASE_CTL.ORPHAN 0) true
  |>.put pOWN (OWN.WINDOW.AGENT 0) 1), 0, by decide +kernel⟩
theorem wit_rings_0 : ∃ s : State, ∃ path : Path, ∃ r : Nat, ∃ v : Nat, s.sound = true ∧ r < 32 ∧ s.ringOn r = false ∧ s.flag pDEV
  DEV.STATUS.HOST_SEL = false ∧ s.bindRival r (s.ringKind r) (s.ringBind r) = none ∧ (.ringEnable path r v : Instr).wf = true ∧
  State.passes s path pHOSTQ (HOSTQ.RING_CTRL.off r) (setBit v 31) = true ∧ valueOk pHOSTQ (HOSTQ.RING_CTRL.off r) (setBit v 31) = true :=
  ⟨(mine 6 31 |>.putFlag pDEV DEV.STATUS.HOST_SEL false), .bar0 0, 31, 0, by decide +kernel⟩
theorem wit_rings_1 : ∃ s : State, ∃ path : Path, ∃ r : Nat, ∃ v : Nat, s.sound = true ∧ r < 32 ∧ s.ringOn r = true ∧ (.ringDisable path r
  v : Instr).wf = true ∧ State.passes s path pHOSTQ (HOSTQ.RING_CTRL.off r) (clrBit v 31) = true ∧ valueOk pHOSTQ (HOSTQ.RING_CTRL.off r)
  (clrBit v 31) = true := ⟨(mine 6 31).putFlag pHOSTQ (HOSTQ.RING_CTRL.ENABLE 31) true, .bar0 0, 31, 0, by decide +kernel⟩
theorem wit_rings_2 : ∃ s : State, ∃ path : Path, ∃ r : Nat, ∃ v : Nat, s.sound = true ∧ r < 32 ∧ ringCfgOk v = true ∧ s.ringKind r ≠ 4 ∧
  bitsOf v 31 28 ≠ 4 ∧ s.bindRival r (bitsOf v 31 28) (bitsOf v 27 20) = none ∧ (.ringCfgWrite path r v : Instr).wf = true ∧ State.passes
  s path pHOSTQ (HOSTQ.RING_CFG.off r) v = true ∧ valueOk pHOSTQ (HOSTQ.RING_CFG.off r) v = true := ⟨mine 6 31, .bar0 0, 31, 0x00040006,
  by decide +kernel⟩
theorem wit_rings_3 : ∃ s : State, ∃ path : Path, ∃ r : Nat, ∃ v : Nat, s.sound = true ∧ r < 32 ∧ s.bellOk r v = true ∧ s.ringKind r ≤ 2 ∧
  (.doorbell path r v : Instr).wf = true ∧ State.passes s path pHOSTQ (HOSTQ.DOORBELL.off r) v = true ∧ valueOk pHOSTQ (HOSTQ.DOORBELL.off
  r) v = true := ⟨mine 6 0, .bar0 0, 0, 0, by decide +kernel⟩
theorem wit_rings_4 : ∃ s : State, ∃ path : Path, ∃ r : Nat, ∃ v : Nat, s.sound = true ∧ r < 32 ∧ s.bellOk r v = true ∧ 3 ≤ s.ringKind r ∧
  (.doorbell path r v : Instr).wf = true ∧ State.passes s path pHOSTQ (HOSTQ.DOORBELL.off r) v = true ∧ valueOk pHOSTQ (HOSTQ.DOORBELL.off
  r) v = true := ⟨(mine 6 0).put pHOSTQ (HOSTQ.RING_CFG.KIND 0) 3, .bar0 0, 0, 0, by decide +kernel⟩
theorem wit_rings_5 : ∃ s : State, ∃ r : Nat, r < 32 ∧ s.ringOn r = true ∧ s.ringStopped r = false := ⟨base.putFlag pHOSTQ
  (HOSTQ.RING_CTRL.ENABLE 31) true, 31, by decide +kernel⟩
theorem wit_rings_6 : ∃ s : State, ∃ p, p < 2 ∧ s.flag (pETH p) ETH.TXR_CTRL.ENABLE = true ∧ s.flag (pETH p) ETH.TXR_CTRL.STOPPED = false
  := ⟨(base |>.putFlag (pETH 0) ETH.TXR_CTRL.ENABLE true |>.putFlag (pETH 0) ETH.TXR_CTRL.STOPPED false), 0, by decide +kernel⟩
theorem wit_rings_7 : ∃ s : State, ∃ p, p < 2 ∧ s.rxRuns p = true := ⟨base.putFlag (pETH 1) ETH.RXR_CTRL.ENABLE true, 1,
  by decide +kernel⟩
theorem wit_rings_8 : ∃ s : State, ∃ r : Nat, ∃ v, v = s.get pHOSTQ (HOSTQ.RING_CFG.VECTOR r) ∧ r < 32 ∧ s.pcieUp = true ∧ s.modExpired r
  = true := ⟨{ base with msixOwed := [0], host := { base.host with rings := base.host.rings.set 0 { pend := 1 } } }.put pHOSTQ
  (HOSTQ.RING_CFG.VECTOR 0) 0, 0, 0, by decide +kernel⟩
theorem wit_rings_10 : ∃ s : State, s.host.linkUp = true ∧ s.host.perst = false := ⟨base, by decide +kernel⟩
theorem wit_rings_11 : ∃ s : State, ∃ req : ConfigReq, (Instr.configurationRequest req).wf = true ∧ s.host.linkUp = true ∧ s.host.perst =
  false ∧ s.stage = 0 := ⟨(base.put pDEV DEV.STATUS.STAGE 0), (⟨1, .other⟩ : ConfigReq), by decide +kernel⟩
theorem wit_rings_12 : ∃ s : State, ∃ req : ConfigReq, (Instr.configurationRequest req).wf = true ∧ s.host.linkUp = true ∧ s.host.perst =
  false ∧ s.stage ≠ 0 ∧ req.kind = .other := ⟨base, (⟨1, .other⟩ : ConfigReq), by decide +kernel⟩
theorem wit_rings_13 : ∃ s : State, ∃ req : ConfigReq, (Instr.configurationRequest req).wf = true ∧ s.host.linkUp = true ∧ s.host.perst =
  false ∧ s.stage ≠ 0 ∧ req.kind = .identity := ⟨base, (⟨1, .identity⟩ : ConfigReq), by decide +kernel⟩
theorem wit_rings_14 : ∃ s : State, ∃ req : ConfigReq, (Instr.configurationRequest req).wf = true ∧ s.host.linkUp = true ∧ s.host.perst =
  false ∧ s.stage ≠ 0 ∧ req.kind = .power true := ⟨base, (⟨1, .power true⟩ : ConfigReq), by decide +kernel⟩
theorem wit_rings_15 : ∃ s : State, ∃ req : ConfigReq, (Instr.configurationRequest req).wf = true ∧ s.host.linkUp = true ∧ s.host.perst =
  false ∧ s.stage ≠ 0 ∧ req.kind = .power false := ⟨base, (⟨1, .power false⟩ : ConfigReq), by decide +kernel⟩
theorem wit_rings_16 : ∃ s : State, ∃ req : ConfigReq, ∃ v, ∃ m : Bool, (Instr.configurationRequest req).wf = true ∧ s.host.linkUp = true
  ∧ s.host.perst = false ∧ s.stage ≠ 0 ∧ req.kind = .vector v m := ⟨base, (⟨1, .vector 63 true⟩ : ConfigReq), 63, true, by decide +kernel⟩
theorem wit_command_elements_0 : ∃ s : State, ∃ r : Nat, ∃ tag : Nat, ∃ page : Nat, ∃ v : Nat, s.sound = true ∧ r < 32 ∧ s.commandReady r
  = true ∧ s.ringBind r < 32 ∧ page ≠ pHOSTQ ∧ s.passes (.ring r) page 0x01C v = true ∧ valueOk page 0x01C v = true ∧ (.commandWrite32 r
  tag page 0x01C v : Instr).wf = true := ⟨((mine 6 31).put pHOSTQ (HOSTQ.RING_CFG.KIND 31) 2 |>.putFlag pHOSTQ (HOSTQ.RING_CTRL.ENABLE 31)
  true |>.put pHOSTQ (HOSTQ.DOORBELL.HOST_IDX 31) 1 |>.put pHOSTQ (HOSTQ.RING_CFG.KIND 0) 3 |>.putFlag pHOSTQ (HOSTQ.RING_CTRL.ENABLE 0)
  true |>.put pHOSTQ (HOSTQ.RING_CFG.LOG2_ENTRIES 0) 6), 31, 0, pSERVO, 0, by decide +kernel⟩
theorem wit_command_elements_1 : ∃ s : State, ∃ r : Nat, ∃ tag : Nat, ∃ page : Nat, ∃ off : Nat, ∃ v : Nat, s.sound = true ∧ r < 32 ∧
  s.commandReady r = true ∧ s.ringBind r < 32 ∧ page ≠ pHOSTQ ∧ page < 256 ∧ off % 4 = 0 ∧ (.commandWrite32 r tag page off v : Instr).wf =
  true := ⟨((mine 6 31).put pHOSTQ (HOSTQ.RING_CFG.KIND 31) 2 |>.putFlag pHOSTQ (HOSTQ.RING_CTRL.ENABLE 31) true |>.put pHOSTQ
  (HOSTQ.DOORBELL.HOST_IDX 31) 1 |>.put pHOSTQ (HOSTQ.RING_CFG.KIND 0) 3 |>.putFlag pHOSTQ (HOSTQ.RING_CTRL.ENABLE 0) true |>.put pHOSTQ
  (HOSTQ.RING_CFG.LOG2_ENTRIES 0) 6), 31, 0, pSERVO, 0, 0, by decide +kernel⟩
theorem wit_command_elements_2 : ∃ s : State, ∃ r : Nat, ∃ tag : Nat, ∃ page : Nat, ∃ off : Nat, s.sound = true ∧ r < 32 ∧ s.commandReady
  r = true ∧ s.ringBind r < 32 ∧ page ≠ pHOSTQ ∧ (.commandRead32 r tag page off : Instr).wf = true := ⟨((mine 6 31).put pHOSTQ
  (HOSTQ.RING_CFG.KIND 31) 2 |>.putFlag pHOSTQ (HOSTQ.RING_CTRL.ENABLE 31) true |>.put pHOSTQ (HOSTQ.DOORBELL.HOST_IDX 31) 1 |>.put pHOSTQ
  (HOSTQ.RING_CFG.KIND 0) 3 |>.putFlag pHOSTQ (HOSTQ.RING_CTRL.ENABLE 0) true |>.put pHOSTQ (HOSTQ.RING_CFG.LOG2_ENTRIES 0) 6), 31, 0,
  pAUX 0, 0, by decide +kernel⟩
theorem wit_command_elements_3 : ∃ s : State, ∃ r : Nat, ∃ tag : Nat, ∃ page : Nat, ∃ off : Nat, ∃ v : Nat, ∃ n, s.sound = true ∧ r < 32 ∧
  s.commandReady r = true ∧ s.ringBind r < 32 ∧ page ≠ pHOSTQ ∧ pageBlock page = some (.aux, n) ∧ (.commandWrite128 r tag page off v :
  Instr).wf = true := ⟨((mine 6 31).put pHOSTQ (HOSTQ.RING_CFG.KIND 31) 2 |>.putFlag pHOSTQ (HOSTQ.RING_CTRL.ENABLE 31) true |>.put pHOSTQ
  (HOSTQ.DOORBELL.HOST_IDX 31) 1 |>.put pHOSTQ (HOSTQ.RING_CFG.KIND 0) 3 |>.putFlag pHOSTQ (HOSTQ.RING_CTRL.ENABLE 0) true |>.put pHOSTQ
  (HOSTQ.RING_CFG.LOG2_ENTRIES 0) 6), 31, 0, pAUX 0, 0, 0, 0, by decide +kernel⟩
theorem wit_command_elements_4 : ∃ s : State, ∃ r : Nat, ∃ tag : Nat, ∃ page : Nat, ∃ off : Nat, ∃ n, s.sound = true ∧ r < 32 ∧
  s.commandReady r = true ∧ s.ringBind r < 32 ∧ page ≠ pHOSTQ ∧ pageBlock page = some (.aux, n) ∧ (.commandRead128 r tag page off :
  Instr).wf = true := ⟨((mine 6 31).put pHOSTQ (HOSTQ.RING_CFG.KIND 31) 2 |>.putFlag pHOSTQ (HOSTQ.RING_CTRL.ENABLE 31) true |>.put pHOSTQ
  (HOSTQ.DOORBELL.HOST_IDX 31) 1 |>.put pHOSTQ (HOSTQ.RING_CFG.KIND 0) 3 |>.putFlag pHOSTQ (HOSTQ.RING_CTRL.ENABLE 0) true |>.put pHOSTQ
  (HOSTQ.RING_CFG.LOG2_ENTRIES 0) 6), 31, 0, pAUX 0, 0, 0, by decide +kernel⟩
theorem wit_command_elements_5 : ∃ s : State, ∃ r : Nat, ∃ tag : Nat, ∃ page : Nat, s.sound = true ∧ r < 32 ∧ s.commandReady r = true ∧
  s.ringBind r < 32 ∧ page ≠ pHOSTQ ∧ (.fence r tag : Instr).wf = true := ⟨((mine 6 31).put pHOSTQ (HOSTQ.RING_CFG.KIND 31) 2 |>.putFlag
  pHOSTQ (HOSTQ.RING_CTRL.ENABLE 31) true |>.put pHOSTQ (HOSTQ.DOORBELL.HOST_IDX 31) 1 |>.put pHOSTQ (HOSTQ.RING_CFG.KIND 0) 3 |>.putFlag
  pHOSTQ (HOSTQ.RING_CTRL.ENABLE 0) true |>.put pHOSTQ (HOSTQ.RING_CFG.LOG2_ENTRIES 0) 6), 31, 0, pSERVO, by decide +kernel⟩
theorem wit_command_elements_6 : ∃ s : State, ∃ r : Nat, ∃ tag : Nat, ∃ page : Nat, s.sound = true ∧ r < 32 ∧ s.commandReady r = true ∧
  s.ringBind r < 32 ∧ page ≠ pHOSTQ ∧ (.leaseKick r tag : Instr).wf = true := ⟨((mine 6 31).put pHOSTQ (HOSTQ.RING_CFG.KIND 31) 2
  |>.putFlag pHOSTQ (HOSTQ.RING_CTRL.ENABLE 31) true |>.put pHOSTQ (HOSTQ.DOORBELL.HOST_IDX 31) 1 |>.put pHOSTQ (HOSTQ.RING_CFG.KIND 0) 3
  |>.putFlag pHOSTQ (HOSTQ.RING_CTRL.ENABLE 0) true |>.put pHOSTQ (HOSTQ.RING_CFG.LOG2_ENTRIES 0) 6), 31, 0, pSERVO, by decide +kernel⟩
theorem wit_command_elements_7 : ∃ s : State, ∃ r : Nat, ∃ tag : Nat, ∃ page : Nat, s.sound = true ∧ r < 32 ∧ s.commandReady r = true ∧
  s.ringBind r < 32 ∧ page ≠ pHOSTQ ∧ (.commandNop r tag : Instr).wf = true := ⟨((mine 6 31).put pHOSTQ (HOSTQ.RING_CFG.KIND 31) 2
  |>.putFlag pHOSTQ (HOSTQ.RING_CTRL.ENABLE 31) true |>.put pHOSTQ (HOSTQ.DOORBELL.HOST_IDX 31) 1 |>.put pHOSTQ (HOSTQ.RING_CFG.KIND 0) 3
  |>.putFlag pHOSTQ (HOSTQ.RING_CTRL.ENABLE 0) true |>.put pHOSTQ (HOSTQ.RING_CFG.LOG2_ENTRIES 0) 6), 31, 0, pSERVO, by decide +kernel⟩
theorem wit_snapshots_0 : ∃ s : State, ∃ path : Path, s.host.frozen = none ∧ s.host.freezeNext = none ∧ (.freeze path : Instr).wf = true ∧
  State.passes s path pDEV DEV.SNAP_CTL.off 1 = true ∧ valueOk pDEV DEV.SNAP_CTL.off 1 = true := ⟨base, .bar0 0, by decide +kernel⟩
theorem wit_snapshots_1 : ∃ s : State, ∃ path : Path, s.get pDEV DEV.SNAP_CTL.HOLDER = s.agentOf path ∧ (.snapshotRelease path : Instr).wf
  = true ∧ State.passes s path pDEV DEV.SNAP_CTL.off 2 = true ∧ valueOk pDEV DEV.SNAP_CTL.off 2 = true := ⟨base.put pDEV
  DEV.SNAP_CTL.HOLDER 1, .bar0 0, by decide +kernel⟩
theorem wit_snapshots_2 : ∃ s : State, s.snapshotLate = true := ⟨{ base with host := { base.host with frozen := some [] } },
  by decide +kernel⟩
theorem wit_quad_commands_0 : ∃ s : State, ∃ path : Path, ∃ q : Nat, ∃ lane, s.sound = true ∧ 3 ≤ s.stage ∧ q < 12 ∧ (s.quad q).swap =
  none ∧ s.calHeld q = false ∧ (s.quad q).armNext = none ∧ s.spareReady q = true ∧ (.swapLane path q lane : Instr).wf = true ∧
  State.passes s path (pQUAD q) QUAD.SWAP_CMD.off (packRec [(8, 4, lane), (0, 8, 1)]) = true ∧ valueOk (pQUAD q) QUAD.SWAP_CMD.off
  (packRec [(8, 4, lane), (0, 8, 1)]) = true := ⟨spareUp, .bar0 0, 0, 3, by decide +kernel⟩
theorem wit_quad_commands_1 : ∃ s : State, ∃ path : Path, ∃ q : Nat, s.sound = true ∧ 3 ≤ s.stage ∧ q < 12 ∧ (s.quad q).swap = none ∧
  s.calHeld q = false ∧ s.spare q < 5 ∧ s.engState q (s.spare q) ≠ 4 ∧ s.inSweep q (s.spare q) = false ∧ (.resweepSpare path q : Instr).wf
  = true ∧ State.passes s path (pQUAD q) QUAD.SWAP_CMD.off 2 = true ∧ valueOk (pQUAD q) QUAD.SWAP_CMD.off 2 = true := ⟨base, .bar0 0, 0,
  by decide +kernel⟩
theorem wit_quad_commands_2 : ∃ s : State, ∃ path : Path, ∃ q : Nat, ∃ e, s.sound = true ∧ 3 ≤ s.stage ∧ q < 12 ∧ (s.quad q).swap = none ∧
  s.calHeld q = false ∧ e < 5 ∧ s.spare q = 7 ∧ s.engState q e = 5 ∧ (.retest path q e : Instr).wf = true ∧ State.passes s path (pQUAD q)
  QUAD.SWAP_CMD.off (packRec [(8, 4, e), (0, 8, 3)]) = true ∧ valueOk (pQUAD q) QUAD.SWAP_CMD.off (packRec [(8, 4, e), (0, 8, 3)]) = true
  := ⟨(base.put (pQUAD 0) QUAD.ENGINE_MAP.SPARE 7).setEngState 0 4 5, .bar0 0, 0, 4, by decide +kernel⟩
theorem wit_quad_commands_3 : ∃ s : State, ∃ path : Path, ∃ q : Nat, ∃ v, s.sound = true ∧ 3 ≤ s.stage ∧ q < 12 ∧ (s.quad q).swap = none ∧
  s.calHeld q = false ∧ bitOf v 31 = true ∧ s.flag pCAL CAL.LOOP_CFG.ENABLE = false ∧ s.flag (pTIN (bitsOf v 3 0)) TIN.CONTROL.ENABLE =
  true ∧ s.resOwner 1 (bitsOf v 21 16) = s.agentOf path ∧ s.resOwner 3 (bitsOf v 3 0) = s.agentOf path ∧ (.loopEnable path v : Instr).wf =
  true ∧ State.passes s path pCAL CAL.LOOP_CFG.off v = true ∧ valueOk pCAL CAL.LOOP_CFG.off v = true := ⟨(((mine 1 0).setOwner 3 0
  1).setOwner 9 0 1 |>.putFlag pCAL CAL.LOOP_CFG.ENABLE false |>.putFlag (pTIN (bitsOf (2 ^ 31) 3 0)) TIN.CONTROL.ENABLE true), .bar0 0,
  0, 2 ^ 31, by decide +kernel⟩
theorem wit_calibration_visit_0 : ∃ s : State, ∃ q : Nat, ∃ v : CalVisit, s.sound = true ∧ q < 12 ∧ s.visitOver q v.target = true ∧
  (.calVisitEnd q v : Instr).wf = true := ⟨(base.put (pQUAD 11) QUAD.CAL_STATE.TARGET 11).putFlag (pQUAD 11) QUAD.CAL_STATE.TDC_OK true,
  11, (⟨11, List.replicate 64 ⟨true, 0, 8⟩, 64⟩ : CalVisit), by decide +kernel⟩
theorem wit_sweeps_0 : ∃ s : State, ∃ q : Nat, ∃ e, s.sound = true ∧ q < 12 ∧ e < 5 ∧ s.sweepDue q e = true ∧ (.sweepStart q e : Instr).wf
  = true := ⟨base.putFlag (pQUAD 0) QUAD.CAL_STATE.TDC_OK true, 0, 0, by decide +kernel⟩
theorem wit_sweeps_1 : ∃ s : State, ∃ q : Nat, ∃ r : SweepResult, ∃ e, sweepAccepted r = true ∧ (.sweepDone q r : Instr).wf = true ∧
  s.sound = true ∧ q < 12 ∧ s.sweepOver q false = some e ∧ e < (s.quad q).engines.length := ⟨withQuad
  { sweeps := [(4, false)], slices := 150 }, 0, goodSweep, 4, good_sweep_accepted, sweep_done_wf_of _ good_sweep_wf, by decide +kernel⟩
theorem wit_sweeps_2 : ∃ s : State, ∃ q : Nat, ∃ r : SweepResult, ∃ e, sweepAccepted r = false ∧ (.sweepDone q r : Instr).wf = true ∧
  s.sound = true ∧ q < 12 ∧ s.sweepOver q false = some e ∧ e < (s.quad q).engines.length := ⟨withQuad
  { sweeps := [(4, false)], slices := 150 }, 0, badSweep, 4, sweep_refused_of_jitter badSweep (by decide), sweep_done_wf_of _
  bad_sweep_wf, by decide +kernel⟩
theorem wit_sweeps_3 : ∃ s : State, ∃ q : Nat, ∃ e, ∃ x, s.sound = true ∧ q < 12 ∧ e < 5 ∧ (s.engine q e).back = some x ∧
  (.tableSetExchange q e : Instr).wf = true := ⟨withQuad { engines := [{}, {}, {}, {}, { back := some freshSet }] }, 0, 4, freshSet,
  by decide +kernel⟩
theorem wit_sweeps_4 : ∃ s : State, ∃ q : Nat, ∃ r : SweepResult, ∃ e, sweepAccepted r = true ∧ (.retestDone q r : Instr).wf = true ∧
  s.sound = true ∧ q < 12 ∧ s.sweepOver q true = some e ∧ e < 5 ∧ e < (s.quad q).engines.length := ⟨withQuad
  { sweeps := [(4, true)], slices := 150 }, 0, goodSweep, 4, good_sweep_accepted, retest_done_wf_of _ good_sweep_wf, by decide +kernel⟩
theorem wit_sweeps_5 : ∃ s : State, ∃ q : Nat, ∃ r : SweepResult, ∃ e, sweepAccepted r = false ∧ (.retestDone q r : Instr).wf = true ∧
  s.sound = true ∧ q < 12 ∧ s.sweepOver q true = some e ∧ e < 5 ∧ e < (s.quad q).engines.length := ⟨withQuad
  { sweeps := [(4, true)], slices := 150 }, 0, badSweep, 4, sweep_refused_of_jitter badSweep (by decide), retest_done_wf_of _
  bad_sweep_wf, by decide +kernel⟩
theorem wit_swaps_0 : ∃ s : State, ∃ q : Nat, ∃ lane, ∃ reason, q < 12 ∧ s.armDue q = some (lane, reason) ∧ (.swapArm q lane reason :
  Instr).wf = true := ⟨spareUp { armNext := some (3, 2, 39999999) }, 0, 3, 2, by decide +kernel⟩
theorem wit_swaps_1 : ∃ s : State, ∃ q : Nat, ∃ w, ∃ m, q < 12 ∧ (s.quad q).swap = some w ∧ w.reason ≠ 2 ∧ (m.pairs < 16 ∨ w.b ≤
  s.clk.slot) ∧ (.swapVerify q m : Instr).wf = true := ⟨withQuad { swap := some (⟨3, 3, 4, 3, 0, 40000001, false, none⟩ : SwapSt) }, 0,
  (⟨3, 3, 4, 3, 0, 40000001, false, none⟩ : SwapSt), (⟨15, 0, false⟩ : SwapCheck), by decide +kernel⟩
theorem wit_swaps_2 : ∃ s : State, ∃ q : Nat, ∃ w, ∃ m, q < 12 ∧ (s.quad q).swap = some w ∧ w.reason ≠ 2 ∧ 16 ≤ m.pairs ∧ s.clk.slot < w.b
  ∧ m.diffFs.natAbs ≤ 2000 ∧ m.missing = false ∧ (.swapVerify q m : Instr).wf = true := ⟨withQuad
  { swap := some (⟨3, 3, 4, 3, 0, 40000001, false, none⟩ : SwapSt) }, 0, (⟨3, 3, 4, 3, 0, 40000001, false, none⟩ : SwapSt), (⟨16, 2000,
  false⟩ : SwapCheck), by decide +kernel⟩
theorem wit_swaps_3 : ∃ s : State, ∃ q : Nat, ∃ w, ∃ m, q < 12 ∧ (s.quad q).swap = some w ∧ w.reason ≠ 2 ∧ 16 ≤ m.pairs ∧ s.clk.slot < w.b
  ∧ (2000 < m.diffFs.natAbs ∨ m.missing = true) ∧ (.swapVerify q m : Instr).wf = true := ⟨withQuad
  { swap := some (⟨3, 3, 4, 3, 0, 40000001, false, none⟩ : SwapSt) }, 0, (⟨3, 3, 4, 3, 0, 40000001, false, none⟩ : SwapSt), (⟨16, -2001,
  false⟩ : SwapCheck), by decide +kernel⟩
theorem wit_swaps_4 : ∃ s : State, ∃ q : Nat, ∃ w, q < 12 ∧ (s.quad q).swap = some w ∧ w.switched = none ∧ w.b ≤ s.clk.slot ∧ (.swapSwitch
  q : Instr).wf = true := ⟨withQuad { swap := some (⟨3, 3, 4, 3, 0, 40000000, true, none⟩ : SwapSt) }, 0, (⟨3, 3, 4, 3, 0, 40000000, true,
  none⟩ : SwapSt), by decide +kernel⟩
theorem wit_swaps_5 : ∃ s : State, ∃ q : Nat, ∃ w, ∃ sl, q < 12 ∧ (s.quad q).swap = some w ∧ w.switched = some sl ∧ w.b + 1 ≤ s.clk.slot ∧
  w.reason ≠ 2 ∧ s.engState q w.old ≠ 5 ∧ w.lane < 4 ∧ w.new < 5 ∧ w.old < 5 ∧ w.new ≠ w.old ∧ (.swapDone q : Instr).wf = true :=
  ⟨withQuad { swap := some (⟨3, 3, 4, 3, 0, 39999999, true, (some 40000000)⟩ : SwapSt) }, 0, (⟨3, 3, 4, 3, 0, 39999999, true, (some
  40000000)⟩ : SwapSt), 40000000, by decide +kernel⟩
theorem wit_swaps_6 : ∃ s : State, ∃ q : Nat, ∃ l, ∃ rest, q < 12 ∧ (s.quad q).failedLanes.reverse = l :: rest ∧ l < 4 ∧ s.remapDue q =
  true ∧ (.failedLaneRemap q : Instr).wf = true := ⟨spareUp { failedLanes := [3] }, 0, 3, ([] : List Nat), by decide +kernel⟩
theorem wit_engine_faults_0 : ∃ s : State, ∃ q : Nat, s.sound = true ∧ s.power.good = true ∧ q < 12 ∧ (.tdcFault q : Instr).wf = true :=
  ⟨base, 11, by decide +kernel⟩
theorem wit_engine_faults_1 : ∃ s : State, ∃ q : Nat, ∃ e, s.sound = true ∧ s.power.good = true ∧ q < 12 ∧ (.engineTableEcc q e false :
  Instr).wf = true := ⟨base, 0, 4, by decide +kernel⟩
theorem wit_engine_faults_2 : ∃ s : State, ∃ q : Nat, ∃ e, s.sound = true ∧ s.power.good = true ∧ q < 12 ∧ s.trackStopped q = false ∧
  (.engineTableEcc q e true : Instr).wf = true := ⟨(base.putFlag (pQUAD 0) QUAD.CAL_CTL.TRACK_ENABLE true).putFlag (pQUAD 0)
  QUAD.CAL_STATE.TDC_OK true, 0, 4, by decide +kernel⟩
theorem wit_engine_faults_3 : ∃ s : State, ∃ q : Nat, ∃ e, s.sound = true ∧ s.power.good = true ∧ q < 12 ∧ s.trackStopped q = true ∧
  (.engineTableEcc q e true : Instr).wf = true := ⟨base.putFlag (pQUAD 0) QUAD.CAL_CTL.TRACK_ENABLE false, 0, 4, by decide +kernel⟩
theorem wit_engine_faults_4 : ∃ s : State, ∃ q : Nat, ∃ page, ∃ bit, ∃ c, s.sound = true ∧ s.power.good = true ∧ q < 12 ∧ pageBlock page =
  some (.chan, c) ∧ (.driverFault page bit : Instr).wf = true := ⟨base, 0, (pCHAN 47), 1, 47, by decide +kernel⟩
theorem wit_engine_faults_5 : ∃ s : State, ∃ q : Nat, ∃ page, ∃ bit, ∃ n, s.sound = true ∧ s.power.good = true ∧ q < 12 ∧ pageBlock page =
  some (.aux, n) ∧ (.driverFault page bit : Instr).wf = true := ⟨base, 0, (pAUX 7), 0, 7, by decide +kernel⟩
theorem wit_engine_faults_6 : ∃ s : State, ∃ q : Nat, ∃ bit, s.sound = true ∧ s.power.good = true ∧ q < 12 ∧ (.driverFault pSYNC bit :
  Instr).wf = true := ⟨base, 0, 0, by decide +kernel⟩
theorem wit_edges_of_alane_0 : ∃ s : State, ∃ c : Nat, ∃ e : Edge, ∃ rest : List Edge, ∃ high : Bool, c < 48 ∧ (s.chan c).wait = e :: rest
  ∧ (s.chan c).clk32 = none ∧ (s.chan c).responses = [] ∧ (s.chan c).seqBuf = [] ∧ s.overlapDue c = false ∧ e.role = .single ∧ e.codes =
  none ∧ e.kind ≠ .on ∧ edgeLevel e (s.chan c).nextLevel = some high ∧ (¬(high = (s.chan c).nextLevel ∧ (s.chan c).nextDriven = true)) ∧
  s.now32 + 229376 * fine ≤ s.placementTarget c (s.edgeEngine c e) (s.rising c high) e.t32 ∧ s.placementTarget c (s.edgeEngine c e)
  (s.rising c high) e.t32 ≤ s.now32 + horizon32 ∧ spacingOk (s.chan c) (e.origin == .clock || e.origin == .cal) (s.codes c e high
  (s.edgeEngine c e) (s.chan c).dither).1 = true ∧ (.edgeIssue c : Instr).wf = true := ⟨withChan { wait := [anEdge] }, 0, anEdge, ([] :
  List Edge), true, by decide +kernel⟩
theorem wit_edges_of_alane_1 : ∃ s : State, ∃ c : Nat, ∃ i : Issued, ∃ rest : List Issued, ∃ h : Bool, (∀ p, (s.chan c).lastPos = some p →
  p + minSpacing ≤ i.pos ∧ posSlot p ≠ posSlot i.pos) ∧ c < 48 ∧ (s.chan c).issued = i :: rest ∧ i.high = some h ∧ i.edge.kind ≠ .on ∧
  s.launchDue c = true ∧ i.teb < 2 ^ 32 ∧ (.edgeLaunch c : Instr).wf = true := ⟨withChan { issued := [anIssued] }, 0, anIssued, ([] : List
  Issued), true, none_holds (by decide +kernel), by decide +kernel⟩
theorem wit_edges_of_alane_2 : ∃ s : State, ∃ c : Nat, ∃ i : Issued, ∃ rest : List Issued, ∃ h : Bool, ∃ p, c < 48 ∧ (s.chan c).issued = i
  :: rest ∧ i.high = some h ∧ i.edge.kind ≠ .on ∧ s.launchDue c = true ∧ (s.chan c).lastPos = some p ∧ i.pos < p + minSpacing ∧
  (.edgeLaunch c : Instr).wf = true := ⟨withChan { issued := [anIssued], lastPos := some (t0 + 1000 - 19660) }, 0, anIssued, ([] : List
  Issued), true, (t0 + 1000 - 19660), by decide +kernel⟩
theorem wit_channels_and_lines_0 : ∃ s : State, ∃ path : Path, ∃ c : Nat, s.sound = true ∧ c < 48 ∧ (.channelFlush path c : Instr).wf =
  true ∧ State.passes s path (pCHAN c) 0x014 (s.controlWith (pCHAN c) 0) = true ∧ valueOk (pCHAN c) 0x014 (s.controlWith (pCHAN c) 0) =
  true := ⟨mine 1 47, .bar0 0, 47, by decide +kernel⟩
theorem wit_channels_and_lines_1 : ∃ s : State, ∃ path : Path, ∃ c : Nat, s.sound = true ∧ c < 48 ∧ (s.chan c).safe.all (fun x =>
  s.causeCleared c x) = true ∧ (.channelSafeExit path c : Instr).wf = true ∧ State.passes s path (pCHAN c) 0x014 (s.controlWith (pCHAN c)
  30) = true ∧ valueOk (pCHAN c) 0x014 (s.controlWith (pCHAN c) 30) = true := ⟨mine 1 0, .bar0 0, 0, by decide +kernel⟩
theorem wit_channels_and_lines_2 : ∃ s : State, ∃ path : Path, ∃ n : Nat, ∃ v : Nat, s.sound = true ∧ n < 64 ∧ bitOf v 31 = false ∧ s.flag
  pTRIG (TRIG.TL_SRC.ENABLE n) = false ∧ (.tlSrcWrite path n v : Instr).wf = true ∧ State.passes s path pTRIG (TRIG.TL_SRC.off n) v = true
  ∧ valueOk pTRIG (TRIG.TL_SRC.off n) v = true := ⟨(mine 4 63 |>.putFlag pTRIG (TRIG.TL_SRC.ENABLE 63) false), .bar0 0, 63, 0x10000,
  by decide +kernel⟩
theorem wit_channels_and_lines_3 : ∃ s : State, ∃ path : Path, ∃ n : Nat, ∃ v : Nat, s.sound = true ∧ n < 64 ∧ bitOf v 31 = true ∧ s.flag
  pTRIG (TRIG.TL_SRC.ENABLE n) = false ∧ bitsOf v 3 0 ≠ 1 ∧ (.tlSrcWrite path n v : Instr).wf = true ∧ State.passes s path pTRIG
  (TRIG.TL_SRC.off n) v = true ∧ valueOk pTRIG (TRIG.TL_SRC.off n) v = true := ⟨(mine 4 63 |>.putFlag pTRIG (TRIG.TL_SRC.ENABLE 63)
  false), .bar0 0, 63, 0x80010002, by decide +kernel⟩
theorem wit_channels_and_lines_4 : ∃ s : State, ∃ path : Path, ∃ n : Nat, ∃ v : Nat, s.sound = true ∧ n < 64 ∧ (.tlShapeWrite path n v :
  Instr).wf = true ∧ State.passes s path pTRIG (TRIG.TL_SHAPE.off n) v = true ∧ valueOk pTRIG (TRIG.TL_SHAPE.off n) v = true := ⟨mine 4
  63, .bar0 0, 63, 0x10000, by decide +kernel⟩
theorem wit_channels_and_lines_5 : ∃ s : State, ∃ path : Path, ∃ n : Nat, s.sound = true ∧ n < 64 ∧ 2 ≤ s.stage ∧ s.get pTRIG
  (TRIG.TL_SRC.KIND n) = 7 ∧ (.fireNow path n : Instr).wf = true ∧ State.passes s path pTRIG TRIG.HOST_FIRE.off (packRec [(8, 6, n), (0,
  8, 1)]) = true ∧ valueOk pTRIG TRIG.HOST_FIRE.off (packRec [(8, 6, n), (0, 8, 1)]) = true := ⟨(mine 4 63 |>.put pTRIG (TRIG.TL_SRC.KIND
  63) 7), .bar0 0, 63, by decide +kernel⟩
theorem wit_channels_and_lines_6 : ∃ s : State, ∃ path : Path, ∃ n : Nat, s.sound = true ∧ n < 64 ∧ 2 ≤ s.stage ∧ s.get pTRIG
  (TRIG.TL_SRC.KIND n) = 7 ∧ s.atLeastNs (s.getInst pTRIG TRIG.HOST_FIRE_AT.INSTANT) 256 = true ∧ (.fireAt path n : Instr).wf = true ∧
  State.passes s path pTRIG TRIG.HOST_FIRE.off (packRec [(8, 6, n), (0, 8, 2)]) = true ∧ valueOk pTRIG TRIG.HOST_FIRE.off (packRec [(8, 6,
  n), (0, 8, 2)]) = true := ⟨((mine 4 63).put pTRIG TRIG.HOST_FIRE_AT.INSTANT (instantBits (t0 + 2000000000).toNat) |>.put pTRIG
  (TRIG.TL_SRC.KIND 63) 7), .bar0 0, 63, by decide +kernel⟩
theorem wit_channels_and_lines_7 : ∃ s : State, ∃ e : LineEvent, s.sound = true ∧ e ∈ s.lineEvents ∧ (.triggerLineEvent e : Instr).wf =
  true := ⟨{ base with lineEvents := [⟨.host 63, 5, 0⟩] }, (⟨.host 63, 5, 0⟩ : LineEvent), by decide +kernel⟩
theorem wit_sequencer_commands_0 : ∃ s : State, ∃ path : Path, ∃ q : Nat, s.sound = true ∧ q < 4 ∧ s.flag (pSEQ q) SEQ.CONTROL.ENABLE =
  true ∧ (s.seqState q = 0 ∨ s.seqState q = 4) ∧ s.get (pSEQ q) SEQ.QUAD_MASK.QUADS ≠ 0 ∧ 2 ≤ s.stage ∧ s.courseCheck (s.seqOwner q)
  (s.get (pSEQ q) SEQ.START_COURSE.COURSE) = 0 ∧ (s.get (pSEQ q) SEQ.START_CFG.START_MODE ≠ 0 → 1100 * (suNs : Int) ≤ s.getSpan (pSEQ q)
  SEQ.START_DELAY.SPAN ∧ s.getSpan (pSEQ q) SEQ.START_DELAY.SPAN ≤ 1000 * (suSec : Int)) ∧ (s.get (pSEQ q) SEQ.START_CFG.START_MODE = 0 →
  s.atLeastNs (s.getInst (pSEQ q) SEQ.START_AT.INSTANT) 256 = true) ∧ (.start path q : Instr).wf = true ∧ State.passes s path (pSEQ q)
  SEQ.CMD.off 1 = true ∧ valueOk (pSEQ q) SEQ.CMD.off 1 = true := ⟨((withSeq {} 0).put (pSEQ 0) SEQ.START_AT.INSTANT (instantBits (t0 +
  2000000000).toNat) |>.putFlag (pSEQ 0) SEQ.CONTROL.ENABLE true |>.put (pSEQ 0) SEQ.QUAD_MASK.QUADS 1), .bar0 0, 0, by decide +kernel⟩
theorem wit_sequencer_commands_1 : ∃ s : State, ∃ path : Path, ∃ q : Nat, s.sound = true ∧ q < 4 ∧ s.seqState q ≠ 0 ∧ s.seqState q ≠ 4 ∧
  (.stopAtEnd path q : Instr).wf = true ∧ State.passes s path (pSEQ q) SEQ.CMD.off 2 = true ∧ valueOk (pSEQ q) SEQ.CMD.off 2 = true :=
  ⟨withSeq {} 1, .bar0 0, 0, by decide +kernel⟩
theorem wit_sequencer_commands_2 : ∃ s : State, ∃ path : Path, ∃ q : Nat, s.sound = true ∧ q < 4 ∧ s.seqState q = 3 ∧ (.stopNow path q :
  Instr).wf = true ∧ State.passes s path (pSEQ q) SEQ.CMD.off 3 = true ∧ valueOk (pSEQ q) SEQ.CMD.off 3 = true := ⟨(withSeq {} 3 |>.put
  (pSEQ 0) SEQ.STATUS.STATE 3), .bar0 0, 0, by decide +kernel⟩
theorem wit_sequencer_commands_3 : ∃ s : State, ∃ path : Path, ∃ q : Nat, s.sound = true ∧ q < 4 ∧ (s.seqState q = 1 ∨ s.seqState q = 2) ∧
  (s.seq q).endsBy (s.instantOfSlot (s.clk.slot + 205)) = false ∧ (.stopNow path q : Instr).wf = true ∧ State.passes s path (pSEQ q)
  SEQ.CMD.off 3 = true ∧ valueOk (pSEQ q) SEQ.CMD.off 3 = true := ⟨withSeq {} 1, .bar0 0, 0, by decide +kernel⟩
theorem wit_sequencer_commands_4 : ∃ s : State, ∃ path : Path, ∃ q : Nat, s.sound = true ∧ q < 4 ∧ s.seqState q = 3 ∧ (s.seq q).request =
  none ∧ (.jump path q : Instr).wf = true ∧ State.passes s path (pSEQ q) SEQ.CMD.off 4 = true ∧ valueOk (pSEQ q) SEQ.CMD.off 4 = true :=
  ⟨(withSeq {} 3 |>.put (pSEQ 0) SEQ.STATUS.STATE 3), .bar0 0, 0, by decide +kernel⟩
theorem wit_sequencer_commands_5 : ∃ s : State, ∃ path : Path, ∃ q : Nat, ∃ o, s.sound = true ∧ q < 4 ∧ s.seqState q = 2 ∧ (s.seq
  q).request = none ∧ (s.seq q).cur = some o ∧ o.course.jumpCond ≠ 2 ∧ (.jump path q : Instr).wf = true ∧ State.passes s path (pSEQ q)
  SEQ.CMD.off 4 = true ∧ valueOk (pSEQ q) SEQ.CMD.off 4 = true := ⟨(withSeq { cur := some (anOcc t0) } 2 |>.put (pSEQ 0) SEQ.STATUS.STATE
  2), .bar0 0, 0, anOcc t0, by decide +kernel⟩
theorem wit_sequencer_commands_6 : ∃ s : State, ∃ path : Path, ∃ q : Nat, s.sound = true ∧ q < 4 ∧ (.clearRequest path q : Instr).wf =
  true ∧ State.passes s path (pSEQ q) SEQ.CMD.off 5 = true ∧ valueOk (pSEQ q) SEQ.CMD.off 5 = true := ⟨withSeq {} 2, .bar0 0, 0,
  by decide +kernel⟩
theorem wit_sequencer_commands_7 : ∃ s : State, ∃ path : Path, ∃ q : Nat, s.sound = true ∧ q < 4 ∧ s.seqState q = 1 ∧ (.disarm path q :
  Instr).wf = true ∧ State.passes s path (pSEQ q) SEQ.CMD.off 6 = true ∧ valueOk (pSEQ q) SEQ.CMD.off 6 = true := ⟨(withSeq {} 1 |>.put
  (pSEQ 0) SEQ.STATUS.STATE 1), .bar0 0, 0, by decide +kernel⟩
theorem wit_refills_0 : ∃ s : State, ∃ path : Path, ∃ q, s.sound = true ∧ q < 4 ∧ s.inRanges (s.agentOf path) (s.get (pSEQ q)
  SEQ.REFILL_ARG.COURSE) = true ∧ s.get (pSEQ q) SEQ.REFILL_ARG.QUAD ∈ s.seqQuads q ∧ s.courseCheck (s.seqOwner q) (s.get (pSEQ q)
  SEQ.REFILL_ARG.COURSE) = 0 ∧ s.get (pSEQ q) SEQ.REFILL_ADDR.ADDR % 64 = 0 ∧ s.hostSpi = false ∧ s.rangeActive q (s.course (s.get (pSEQ
  q) SEQ.REFILL_ARG.COURSE)).base (s.course (s.get (pSEQ q) SEQ.REFILL_ARG.COURSE)).len = false ∧ (s.seq q).refills.length < 16 ∧
  (.refillSubmit path q : Instr).wf = true ∧ State.passes s path (pSEQ q) SEQ.REFILL_CMD.off 1 = true ∧ valueOk (pSEQ q)
  SEQ.REFILL_CMD.off 1 = true := ⟨withSeq {} 0, .bar0 0, 0, by decide +kernel⟩
theorem wit_refills_1 : ∃ s : State, ∃ path : Path, ∃ q, s.sound = true ∧ q < 4 ∧ (.refillFlush path q : Instr).wf = true ∧ State.passes s
  path (pSEQ q) SEQ.REFILL_CMD.off 2 = true ∧ valueOk (pSEQ q) SEQ.REFILL_CMD.off 2 = true := ⟨withSeq { refills := [aRefill, aRefill] }
  0, .bar0 0, 0, by decide +kernel⟩
theorem wit_refills_2 : ∃ s : State, ∃ path : Path, s.sound = true ∧ s.get pCOURSE COURSE.READY_ARG.FIRST + s.get pCOURSE
  COURSE.READY_ARG.COUNT ≤ 4096 ∧ s.agentOf path ≠ 0 ∧ (∃ r ∈ s.host.ranges, r.2.2 = s.agentOf path ∧ r.1 ≤ s.get pCOURSE
  COURSE.READY_ARG.FIRST ∧ s.get pCOURSE COURSE.READY_ARG.FIRST + s.get pCOURSE COURSE.READY_ARG.COUNT ≤ r.1 + r.2.1) ∧ (∀ c ∈
  s.namedCourses, ∀ q, q < 4 → ∀ r ∈ (s.seq q).refills, r.course ≠ c) ∧ (.readySet path : Instr).wf = true ∧ State.passes s path pCOURSE
  COURSE.READY_CMD.off 1 = true ∧ valueOk pCOURSE COURSE.READY_CMD.off 1 = true := ⟨(withCourse).put pCOURSE COURSE.READY_ARG.COUNT 1,
  .bar0 0, by decide +kernel⟩
theorem wit_refills_3 : ∃ s : State, ∃ path : Path, s.sound = true ∧ s.get pCOURSE COURSE.READY_ARG.FIRST + s.get pCOURSE
  COURSE.READY_ARG.COUNT ≤ 4096 ∧ s.agentOf path ≠ 0 ∧ (∃ r ∈ s.host.ranges, r.2.2 = s.agentOf path ∧ r.1 ≤ s.get pCOURSE
  COURSE.READY_ARG.FIRST ∧ s.get pCOURSE COURSE.READY_ARG.FIRST + s.get pCOURSE COURSE.READY_ARG.COUNT ≤ r.1 + r.2.1) ∧ (.readyClear path
  : Instr).wf = true ∧ State.passes s path pCOURSE COURSE.READY_CMD.off 2 = true ∧ valueOk pCOURSE COURSE.READY_CMD.off 2 = true :=
  ⟨(withCourse).put pCOURSE COURSE.READY_ARG.COUNT 4096, .bar0 0, by decide +kernel⟩
theorem wit_refills_4 : ∃ s : State, ∃ path : Path, s.sound = true ∧ s.get pCOURSE COURSE.READY_ARG.FIRST + s.get pCOURSE
  COURSE.READY_ARG.COUNT ≤ 4096 ∧ s.agentOf path ≠ 0 ∧ (∃ r ∈ s.host.ranges, r.2.2 = s.agentOf path ∧ r.1 ≤ s.get pCOURSE
  COURSE.READY_ARG.FIRST ∧ s.get pCOURSE COURSE.READY_ARG.FIRST + s.get pCOURSE COURSE.READY_ARG.COUNT ≤ r.1 + r.2.1) ∧ (∀ c ∈
  s.namedCourses, s.courseCheck (s.agentOf path) c = 0) ∧ (.validate path : Instr).wf = true ∧ State.passes s path pCOURSE
  COURSE.READY_CMD.off 3 = true ∧ valueOk pCOURSE COURSE.READY_CMD.off 3 = true := ⟨(withCourse).put pCOURSE COURSE.READY_ARG.COUNT 1,
  .bar0 0, by decide +kernel⟩
theorem wit_refills_5 : ∃ s : State, ∃ path : Path, ∃ c, s.sound = true ∧ s.get pCOURSE COURSE.READY_ARG.FIRST + s.get pCOURSE
  COURSE.READY_ARG.COUNT ≤ 4096 ∧ s.agentOf path ≠ 0 ∧ (∃ r ∈ s.host.ranges, r.2.2 = s.agentOf path ∧ r.1 ≤ s.get pCOURSE
  COURSE.READY_ARG.FIRST ∧ s.get pCOURSE COURSE.READY_ARG.FIRST + s.get pCOURSE COURSE.READY_ARG.COUNT ≤ r.1 + r.2.1) ∧
  s.namedCourses.find? (fun k => s.courseCheck (s.agentOf path) k != 0) = some c ∧ s.passes path pCOURSE COURSE.READY_CMD.off 3 = true ∧
  (.validate path : Instr).wf = true := ⟨((withCourse).put pCOURSE COURSE.READY_ARG.COUNT 1).put pCOURSE COURSE.READY_ARG.FIRST 4095,
  .bar0 0, 4095, by decide +kernel⟩
theorem wit_refills_6 : ∃ s : State, ∃ q, ∃ r : Refill, ∃ rest : List Refill, ∃ bytes, s.sound = true ∧ q < 4 ∧ (s.seq q).refills = r ::
  rest ∧ s.pcieUp = true ∧ bytes.length = 64 * r.len ∧ r.quad < 12 ∧ r.base + r.len ≤ 65536 ∧ s.rangeActive q r.base r.len = false ∧
  (.refillDone q bytes : Instr).wf = true := ⟨withSeq { refills := [aRefill] } 0, 0, aRefill, ([] : List Refill), (List.replicate 64 7),
  by decide +kernel⟩
theorem wit_refills_7 : ∃ s : State, ∃ q, ∃ r : Refill, ∃ rest : List Refill, s.sound = true ∧ q < 4 ∧ (s.seq q).refills = r :: rest ∧
  (.refillDmaError q : Instr).wf = true := ⟨withSeq { refills := [aRefill] } 0, 0, aRefill, ([] : List Refill), by decide +kernel⟩
theorem wit_playback_0 : ∃ s : State, ∃ q, ∃ o, ∃ reason, s.sound = true ∧ q < 4 ∧ s.decideDue q = true ∧ (s.seq q).cur = some o ∧
  s.seqChoose q o = .stop reason ∧ (.seqDecision q : Instr).wf = true := ⟨withSeq
  { cur := some endingOcc, started := true, stopAtEnd := some 39999999 } 2, 0, endingOcc, 1, by decide +kernel⟩
theorem wit_playback_1 : ∃ s : State, ∃ q, ∃ o, ∃ c, ∃ via, s.sound = true ∧ q < 4 ∧ s.decideDue q = true ∧ (s.seq q).cur = some o ∧
  s.seqChoose q o = .go c via ∧ s.courseCheck (s.seqOwner q) c = 0 ∧ (c = o.course.id ∨ s.readyBefore c = true) ∧ (.seqDecision q :
  Instr).wf = true := ⟨withSeq { cur := some endingOcc, started := true } 2, 0, endingOcc, 0, (.again false : SeqVia), by decide +kernel⟩
theorem wit_playback_2 : ∃ s : State, ∃ q, ∃ n, ∃ rest, s.sound = true ∧ q < 4 ∧ s.parkDue q = false ∧ s.startDue q false = true ∧ (s.seq
  q).started = true ∧ (s.seq q).chain = n :: rest ∧ (s.seq q).request = none ∧ (.seqOccurrenceStart q : Instr).wf = true := ⟨withSeq
  { cur := some endedOcc, started := true, chain := [anOcc t0 .next] } 2, 0, anOcc t0 .next, ([] : List SeqOcc), by decide +kernel⟩
theorem wit_playback_3 : ∃ s : State, ∃ q, ∃ o, s.sound = true ∧ q < 4 ∧ s.parkDue q = true ∧ (s.seq q).cur = some o ∧
  (.seqOccurrenceStart q : Instr).wf = true := ⟨withSeq { cur := some endedOcc, started := true, park := true } 2, 0, endedOcc,
  by decide +kernel⟩
theorem wit_playback_4 : ∃ s : State, ∃ q, ∃ n, ∃ rest, s.sound = true ∧ q < 4 ∧ s.startDue q true = true ∧ (s.seq q).chain = n :: rest ∧
  (s.seq q).request = none ∧ (.seqCut q : Instr).wf = true := ⟨withSeq
  { cur := some endedOcc, started := true, chain := [anOcc t0 (.cut false)] } 2, 0, anOcc t0 (.cut false), ([] : List SeqOcc),
  by decide +kernel⟩
theorem wit_playback_5 : ∃ s : State, ∃ q, ∃ n, ∃ rest, s.sound = true ∧ q < 4 ∧ s.resumeDue q = true ∧ (s.seq q).started = true ∧ (s.seq
  q).chain = n :: rest ∧ (s.seq q).request = none ∧ (.seqParkResume q : Instr).wf = true := ⟨withSeq
  { started := true, fetched := true, resumeSlot := some 40000000, chain := [anOcc t0 .next] } 3, 0, anOcc t0 .next, ([] : List SeqOcc),
  by decide +kernel⟩
theorem wit_playback_6 : ∃ s : State, ∃ q, ∃ u, ∃ reason, s.sound = true ∧ q < 4 ∧ (s.seq q).ends = some (u, reason) ∧ s.stopDue q = true
  ∧ (.seqStop q : Instr).wf = true := ⟨withSeq { stop := some (t0, 1) } 2, 0, t0, 1, by decide +kernel⟩
theorem wit_records_0 : ∃ s : State, ∃ q, ∃ d : Nat, ∃ i : Nat, ∃ v : Nat, ∃ o : SeqOcc, s.sound = true ∧ q < 4 ∧ s.seqQuads q = [d] ∧
  s.bankNext q d = some (i, o, v) ∧ d < o.banks.length ∧ (o.banks.getD d {}).lanes.length = 4 ∧ recReserved v = false ∧ recOffset v <
  o.course.duration ∧ (o.banks.getD d {}).lanes.getD (recLane v) 0 ≤ recOffset v ∧ o.start + 8 * (recOffset v : Int) < o.stop ∧ (s.seq
  q).endsBy (o.start + 8 * (recOffset v : Int)) = false ∧ s.seqPlays (4 * d + recLane v) = true ∧ (s.seq q).lateBefore ≤ (o.start + 8 *
  (recOffset v : Int)) * fine ∧ (∀ h, s.now32 + 40 * suNs * fine ≤ s.placementTarget (4 * d + recLane v) (s.laneEngine d (recLane v))
  (s.rising (4 * d + recLane v) h) ((o.start + 8 * (recOffset v : Int)) * fine)) ∧ recOp v = 0 ∧ (.edgeHi q : Instr).wf = true :=
  ⟨(withRecord 0x0C 5).putFlag (pCHAN 3) CHAN.CONTROL.ENABLE true |>.put (pCHAN 3) CHAN.MODE_CFG.MODE 5, 0, 0, 0, 0x0C * 2 ^ 56 + 5, anOcc
  (t0 + 5000000), by decide +kernel⟩
theorem wit_records_1 : ∃ s : State, ∃ q, ∃ d : Nat, ∃ i : Nat, ∃ v : Nat, ∃ o : SeqOcc, s.sound = true ∧ q < 4 ∧ s.seqQuads q = [d] ∧
  s.bankNext q d = some (i, o, v) ∧ d < o.banks.length ∧ (o.banks.getD d {}).lanes.length = 4 ∧ recReserved v = false ∧ recOffset v <
  o.course.duration ∧ (o.banks.getD d {}).lanes.getD (recLane v) 0 ≤ recOffset v ∧ o.start + 8 * (recOffset v : Int) < o.stop ∧ (s.seq
  q).endsBy (o.start + 8 * (recOffset v : Int)) = false ∧ s.seqPlays (4 * d + recLane v) = true ∧ (s.seq q).lateBefore ≤ (o.start + 8 *
  (recOffset v : Int)) * fine ∧ (∀ h, s.now32 + 40 * suNs * fine ≤ s.placementTarget (4 * d + recLane v) (s.laneEngine d (recLane v))
  (s.rising (4 * d + recLane v) h) ((o.start + 8 * (recOffset v : Int)) * fine)) ∧ recOp v = 1 ∧ (.edgeLo q : Instr).wf = true :=
  ⟨(withRecord 0x20 5).putFlag (pCHAN 0) CHAN.CONTROL.ENABLE true |>.put (pCHAN 0) CHAN.MODE_CFG.MODE 5, 0, 0, 0, 0x20 * 2 ^ 56 + 5, anOcc
  (t0 + 5000000), by decide +kernel⟩
theorem wit_records_2 : ∃ s : State, ∃ q, ∃ d : Nat, ∃ i : Nat, ∃ v : Nat, ∃ o : SeqOcc, s.sound = true ∧ q < 4 ∧ s.seqQuads q = [d] ∧
  s.bankNext q d = some (i, o, v) ∧ d < o.banks.length ∧ (o.banks.getD d {}).lanes.length = 4 ∧ recReserved v = false ∧ recOffset v <
  o.course.duration ∧ (o.banks.getD d {}).lanes.getD (recLane v) 0 ≤ recOffset v ∧ o.start + 8 * (recOffset v : Int) < o.stop ∧ (s.seq
  q).endsBy (o.start + 8 * (recOffset v : Int)) = false ∧ s.seqPlays (4 * d + recLane v) = true ∧ (s.seq q).lateBefore ≤ (o.start + 8 *
  (recOffset v : Int)) * fine ∧ (∀ h, s.now32 + 40 * suNs * fine ≤ s.placementTarget (4 * d + recLane v) (s.laneEngine d (recLane v))
  (s.rising (4 * d + recLane v) h) ((o.start + 8 * (recOffset v : Int)) * fine)) ∧ recOp v = 2 ∧ (.toggle q : Instr).wf = true :=
  ⟨(withRecord 0x40 5).putFlag (pCHAN 0) CHAN.CONTROL.ENABLE true |>.put (pCHAN 0) CHAN.MODE_CFG.MODE 5, 0, 0, 0, 0x40 * 2 ^ 56 + 5, anOcc
  (t0 + 5000000), by decide +kernel⟩
theorem wit_records_3 : ∃ s : State, ∃ q, ∃ d : Nat, ∃ i : Nat, ∃ v : Nat, ∃ o : SeqOcc, s.sound = true ∧ q < 4 ∧ s.seqQuads q = [d] ∧
  s.bankNext q d = some (i, o, v) ∧ d < o.banks.length ∧ (o.banks.getD d {}).lanes.length = 4 ∧ recReserved v = false ∧ recOffset v <
  o.course.duration ∧ (o.banks.getD d {}).lanes.getD (recLane v) 0 ≤ recOffset v ∧ o.start + 8 * (recOffset v : Int) < o.stop ∧ (s.seq
  q).endsBy (o.start + 8 * (recOffset v : Int)) = false ∧ s.seqPlays (4 * d + recLane v) = true ∧ (s.seq q).lateBefore ≤ (o.start + 8 *
  (recOffset v : Int)) * fine ∧ recOp v = 3 ∧ s.markDue q = none ∧ (.mark q : Instr).wf = true := ⟨(withRecord 0x60 5).putFlag (pCHAN 0)
  CHAN.CONTROL.ENABLE true |>.put (pCHAN 0) CHAN.MODE_CFG.MODE 5, 0, 0, 0, 0x60 * 2 ^ 56 + 5, anOcc (t0 + 5000000), by decide +kernel⟩
theorem wit_records_4 : ∃ s : State, ∃ q, ∃ d : Nat, ∃ i : Nat, ∃ v : Nat, ∃ o : SeqOcc, ∃ c : Instr, s.sound = true ∧ q < 4 ∧ s.seqQuads
  q = [d] ∧ s.bankNext q d = some (i, o, v) ∧ d < o.banks.length ∧ (o.banks.getD d {}).lanes.length = 4 ∧ recReserved v = false ∧
  recOffset v < o.course.duration ∧ (o.banks.getD d {}).lanes.getD (recLane v) 0 ≤ recOffset v ∧ o.start + 8 * (recOffset v : Int) <
  o.stop ∧ (s.seq q).endsBy (o.start + 8 * (recOffset v : Int)) = false ∧ s.seqPlays (4 * d + recLane v) = true ∧ (o.start + 8 *
  (recOffset v : Int)) * fine < (s.seq q).lateBefore ∧ ((recOp v = 0 ∧ c = .edgeHi q) ∨ (recOp v = 1 ∧ c = .edgeLo q) ∨ (recOp v = 2 ∧ c =
  .toggle q) ∨ (recOp v = 3 ∧ s.markDue q = none ∧ c = .mark q)) ∧ (c : Instr).wf = true := ⟨(withRecord 0x0C 5
  { lateBefore := (t0 + 20000000) * fine }).putFlag (pCHAN 3) CHAN.CONTROL.ENABLE true |>.put (pCHAN 3) CHAN.MODE_CFG.MODE 5, 0, 0, 0,
  0x0C * 2 ^ 56 + 5, anOcc (t0 + 5000000), (.edgeHi 0 : Instr), by decide +kernel⟩
theorem wit_records_5 : ∃ s : State, ∃ q, ∃ d : Nat, ∃ i : Nat, ∃ v : Nat, ∃ o : SeqOcc, ∃ c : Instr, s.sound = true ∧ q < 4 ∧ s.seqQuads
  q = [d] ∧ s.bankNext q d = some (i, o, v) ∧ d < o.banks.length ∧ (o.banks.getD d {}).lanes.length = 4 ∧ s.seqPlays (4 * d + recLane v) =
  false ∧ ((recOp v = 0 ∧ c = .edgeHi q) ∨ (recOp v = 1 ∧ c = .edgeLo q) ∨ (recOp v = 2 ∧ c = .toggle q) ∨ (recOp v = 3 ∧ s.markDue q =
  none ∧ c = .mark q)) ∧ (c : Instr).wf = true := ⟨(withRecord 0x0C 5), 0, 0, 0, 0x0C * 2 ^ 56 + 5, anOcc (t0 + 5000000), (.edgeHi 0 :
  Instr), by decide +kernel⟩
theorem wit_records_6 : ∃ s : State, ∃ q, ∃ d : Nat, ∃ i : Nat, ∃ v : Nat, ∃ o : SeqOcc, s.sound = true ∧ q < 4 ∧ s.seqQuads q = [d] ∧
  s.bankNext q d = some (i, o, v) ∧ d < o.banks.length ∧ (o.banks.getD d {}).lanes.length = 4 ∧ recOp v = 4 ∧ recReserved v = false ∧
  (.recordNop q : Instr).wf = true := ⟨(withRecord 0x80 5).putFlag (pCHAN 0) CHAN.CONTROL.ENABLE true |>.put (pCHAN 0) CHAN.MODE_CFG.MODE
  5, 0, 0, 0, 0x80 * 2 ^ 56 + 5, anOcc (t0 + 5000000), by decide +kernel⟩
theorem wit_records_7 : ∃ s : State, ∃ q, ∃ d : Nat, ∃ i : Nat, ∃ v : Nat, ∃ o : SeqOcc, s.sound = true ∧ q < 4 ∧ s.seqQuads q = [d] ∧
  s.bankNext q d = some (i, o, v) ∧ d < o.banks.length ∧ (o.banks.getD d {}).lanes.length = 4 ∧ recOp v = 5 ∧ recReserved v = false ∧
  (.recordEnd q : Instr).wf = true := ⟨(withRecord 0xA0 5).putFlag (pCHAN 0) CHAN.CONTROL.ENABLE true |>.put (pCHAN 0) CHAN.MODE_CFG.MODE
  5, 0, 0, 0, 0xA0 * 2 ^ 56 + 5, anOcc (t0 + 5000000), by decide +kernel⟩
theorem wit_records_8 : ∃ s : State, ∃ q, ∃ d : Nat, ∃ i : Nat, ∃ v : Nat, ∃ o : SeqOcc, ∃ c : Instr, s.sound = true ∧ q < 4 ∧ s.seqQuads
  q = [d] ∧ s.bankNext q d = some (i, o, v) ∧ d < o.banks.length ∧ (o.banks.getD d {}).lanes.length = 4 ∧ ((recReserved v = true ∧ recOp v
  = 0 ∧ s.seqPlays (4 * d + recLane v) = true ∧ c = .edgeHi q) ∨ (5 < recOp v ∧ c = .recordNop q)) ∧ (c : Instr).wf = true := ⟨(withRecord
  0x1C 5).putFlag (pCHAN 3) CHAN.CONTROL.ENABLE true |>.put (pCHAN 3) CHAN.MODE_CFG.MODE 5, 0, 0, 0, 0x1C * 2 ^ 56 + 5, anOcc (t0 +
  5000000), (.edgeHi 0 : Instr), by decide +kernel⟩
theorem wit_records_9 : ∃ s : State, ∃ bad : Bool, ∃ d, ∃ g, ∃ q, s.seqOfQuad d = some q ∧ (.bankEcc d g bad : Instr).wf = true :=
  ⟨withSeq {} 2, true, 0, 2 ^ 17 - 1, 0, by decide +kernel⟩
theorem wit_records_10 : ∃ bad : Bool, ∃ c, (.courseTableEcc c bad : Instr).wf = true := ⟨false, 4095, by decide +kernel⟩
theorem wit_sync_pins_0 : ∃ s : State, ∃ u : Nat, ∃ rising : Bool, ∃ growth, (∀ p, s.sync.inLast = some p → p + 81920 ≤ (u : Int)) ∧
  s.syncTakes rising = true ∧ 2 ≤ s.stage ∧ s.flag pSYNC SYNC.STATUS.IN_UNRESOLVED = false ∧ s.sync.inLevel ≠ some rising ∧ (.syncInEvent
  u rising growth : Instr).wf = true := ⟨({ base with sync := { inLevel := some false } } |>.put pSYNC SYNC.SYNC_IN_CFG.SENSE 1 |>.putFlag
  pSYNC SYNC.SYNC_IN_CFG.ENABLE true |>.putFlag pSYNC SYNC.STATUS.IN_UNRESOLVED false), 0, true, 3, none_holds (by decide +kernel),
  by decide +kernel⟩
theorem wit_sync_pins_1 : ∃ s : State, ∃ u : Nat, ∃ rising : Bool, ∃ growth, (s.flag pSYNC SYNC.STATUS.IN_UNRESOLVED = true ∨
  s.sync.inLevel = some rising) ∧ (.syncInEvent u rising growth : Instr).wf = true := ⟨base.putFlag pSYNC SYNC.STATUS.IN_UNRESOLVED true,
  0, true, 0, by decide +kernel⟩
theorem wit_sync_pins_2 : ∃ s : State, ∃ u : Nat, (u : Int) ∈ s.sync.marks ∧ s.flag pSYNC SYNC.SYNC_OUT_CFG.ENABLE = true ∧ s.gutter.safe
  = false ∧ ((u : Int) ≥ s.sync.outEnd + minSpacing ∨ s.sync.outEnd = 0) ∧ (.syncOutPulse u : Instr).wf = true :=
  ⟨({ base with sync := { marks := [t0] } } |>.putFlag pSYNC SYNC.SYNC_OUT_CFG.ENABLE true), t0.toNat, by decide +kernel⟩
theorem wit_sync_pins_3 : ∃ s : State, ∃ sec : Nat, s.clk.seeded = true ∧ sec = s.nowSecond ∧ s.sync.second ≠ sec ∧ s.flag pSYNC
  SYNC.PPS_CFG.ENABLE = true ∧ s.gutter.safe = false ∧ (.ppsPulse sec : Instr).wf = true :=
  ⟨({ base with clk := { base.clk with tclk := 1600000000 } } |>.putFlag pSYNC SYNC.PPS_CFG.ENABLE true), 1, by decide +kernel⟩
theorem wit_scheduler_commands_0 : ∃ s : State, ∃ path : Path, ∃ q : Nat, s.sound = true ∧ q < 16 ∧ s.queueOwner q ≠ 0 ∧ s.ringFor 1 q =
  none ∧ s.flag pSCHED (SCHED.Q_CFG.ENABLE q) = true ∧ (s.queue q).actions.length < 512 ∧ s.actionCheck q (s.winNat path pSCHED
  SCHED.SUBMIT_BUF.off 8) = .ok ∧ (.submit path q : Instr).wf = true ∧ State.passes s path pSCHED SCHED.SUBMIT_CMD.off (packRec [(8, 4,
  q), (0, 8, 1)]) = true ∧ valueOk pSCHED SCHED.SUBMIT_CMD.off (packRec [(8, 4, q), (0, 8, 1)]) = true := ⟨((mine 5 15).putFlag pSCHED
  (SCHED.Q_CFG.ENABLE 15) true |>.putFlag pSCHED (SCHED.Q_CFG.ENABLE 15) true), .bar0 0, 15, by decide +kernel⟩
theorem wit_scheduler_commands_1 : ∃ s : State, ∃ path : Path, ∃ q : Nat, s.sound = true ∧ q < 16 ∧ (.flush path q : Instr).wf = true ∧
  State.passes s path pSCHED SCHED.SUBMIT_CMD.off (packRec [(8, 4, q), (0, 8, 2)]) = true ∧ valueOk pSCHED SCHED.SUBMIT_CMD.off (packRec
  [(8, 4, q), (0, 8, 2)]) = true := ⟨mine 5 15, .bar0 0, 15, by decide +kernel⟩
theorem wit_scheduler_commands_2 : ∃ s : State, ∃ path : Path, ∃ q : Nat, s.sound = true ∧ q < 16 ∧ s.agentOf path ∉ s.host.orphaned ∧
  (.queueSafeExit path : Instr).wf = true ∧ State.passes s path pSCHED 0x014 (s.controlWith pSCHED 30) = true ∧ valueOk pSCHED 0x014
  (s.controlWith pSCHED 30) = true := ⟨base, .bar0 0, 0, by decide +kernel⟩
theorem wit_scheduler_commands_3 : ∃ s : State, ∃ path : Path, ∃ q : Nat, ∃ n, ∃ v, s.sound = true ∧ q < 16 ∧ n < 8 ∧ bitOf v 31 = true ∧
  s.flag pSCHED (SCHED.TICK_CFG.ENABLE n) = false ∧ 2 ≤ s.stage ∧ s.tickPeriod n ≠ 0 ∧ (.tickEnable path n v : Instr).wf = true ∧
  State.passes s path pSCHED (SCHED.TICK_CFG.off n) v = true ∧ valueOk pSCHED (SCHED.TICK_CFG.off n) v = true := ⟨((mine 11 7).put pSCHED
  (SCHED.TICK_PERIOD.SPAN 7) (spanBits 100000000) |>.putFlag pSCHED (SCHED.TICK_CFG.ENABLE 7) false), .bar0 0, 0, 7, 2 ^ 31,
  by decide +kernel⟩
theorem wit_scheduler_events_0 : ∃ s : State, ∃ r, ∃ a, ∃ q, s.sound = true ∧ r < 32 ∧ q = s.get pHOSTQ (HOSTQ.RING_CFG.BIND r) ∧ q < 16 ∧
  s.ringOn r = true ∧ s.ringStopped r = false ∧ s.ringKind r = 1 ∧ s.hostSpi = false ∧ s.get pHOSTQ (HOSTQ.DEV_IDX.DEV_IDX r) ≠ s.get
  pHOSTQ (HOSTQ.DOORBELL.HOST_IDX r) ∧ s.flag pSCHED (SCHED.Q_CFG.ENABLE q) = true ∧ (s.queue q).actions.length < 512 ∧ s.actionCheck q a
  = .ok ∧ (.actionAccept r a : Instr).wf = true := ⟨(base.put pHOSTQ (HOSTQ.RING_CFG.KIND 31) 1 |>.putFlag pHOSTQ (HOSTQ.RING_CTRL.ENABLE
  31) true |>.put pHOSTQ (HOSTQ.DOORBELL.HOST_IDX 31) 1 |>.putFlag pSCHED (SCHED.Q_CFG.ENABLE 0) true |>.setOwner 5 0 1 |>.putFlag pSCHED
  (SCHED.Q_CFG.ENABLE 0) true), 31, 0, 0, by decide +kernel⟩
theorem wit_scheduler_events_1 : ∃ s : State, ∃ q, ∃ a, ∃ u, s.sound = true ∧ earliestHead s.readyHeads = some (q, a, u) ∧
  s.sched.lastSlot ≠ some s.clk.slot ∧ s.atLeastNs u 256 = true ∧ a.tebLimit = 0xFFFFFFFF ∧ (.actionDispatch : Instr).wf = true :=
  ⟨withQueue (aDisp 0 0 (t0 + 60000000)).action, 0, (aDisp 0 0 (t0 + 60000000)).action, (t0 + 60000000), by decide +kernel⟩
theorem wit_scheduler_events_2 : ∃ s : State, ∃ n, s.sound = true ∧ n < 8 ∧ s.tickDue n = true ∧ (.tickDelivery n : Instr).wf = true :=
  ⟨base.putFlag pSCHED (SCHED.TICK_CFG.ENABLE 7) true, 7, by decide +kernel⟩
theorem wit_scheduler_events_3 : ∃ s : State, ∃ q, s.sound = true ∧ q < 16 ∧ (.queueEcc q false : Instr).wf = true := ⟨base, 15,
  by decide +kernel⟩
theorem wit_scheduler_events_4 : ∃ s : State, ∃ q, s.sound = true ∧ q < 16 ∧ (.queueEcc q true : Instr).wf = true := ⟨base, 15,
  by decide +kernel⟩
theorem wit_actions_take_effect_0 : ∃ s : State, ∃ d : Disp, s.sound = true ∧ d.action.target < 48 ∧ d.handed = false ∧ s.resOwner 1
  d.action.target = s.queueOwner d.action.queue ∧ s.chanMode d.action.target = 6 ∧ (s.chan d.action.target).safe = [] ∧ (s.chan
  d.action.target).entry32 ≤ d.t * fine ∧ s.dispatchedOf 0x01 = some d ∧ (.chanHi : Instr).wf = true := ⟨withDisp (aDisp 1 47) (mine 1 47
  |>.put (pCHAN 47) CHAN.MODE_CFG.MODE 6 |>.putFlag (pCHAN 47) CHAN.CONTROL.ENABLE true), (aDisp 1 47), by decide +kernel⟩
theorem wit_actions_take_effect_1 : ∃ s : State, ∃ d : Disp, s.sound = true ∧ d.action.target < 48 ∧ d.handed = false ∧ s.resOwner 1
  d.action.target = s.queueOwner d.action.queue ∧ s.chanMode d.action.target = 6 ∧ (s.chan d.action.target).safe = [] ∧ (s.chan
  d.action.target).entry32 ≤ d.t * fine ∧ s.dispatchedOf 0x02 = some d ∧ (.chanLo : Instr).wf = true := ⟨withDisp (aDisp 2 47) (mine 1 47
  |>.put (pCHAN 47) CHAN.MODE_CFG.MODE 6 |>.putFlag (pCHAN 47) CHAN.CONTROL.ENABLE true), (aDisp 2 47), by decide +kernel⟩
theorem wit_actions_take_effect_2 : ∃ s : State, ∃ d : Disp, s.sound = true ∧ d.action.target < 48 ∧ d.handed = false ∧ s.resOwner 1
  d.action.target = s.queueOwner d.action.queue ∧ s.chanMode d.action.target = 6 ∧ (s.chan d.action.target).safe = [] ∧ (s.chan
  d.action.target).entry32 ≤ d.t * fine ∧ s.dispatchedOf 0x03 = some d ∧ (.chanToggle : Instr).wf = true := ⟨withDisp (aDisp 3 47) (mine 1
  47 |>.put (pCHAN 47) CHAN.MODE_CFG.MODE 6 |>.putFlag (pCHAN 47) CHAN.CONTROL.ENABLE true), (aDisp 3 47), by decide +kernel⟩
theorem wit_actions_take_effect_3 : ∃ s : State, ∃ d : Disp, s.sound = true ∧ d.action.target < 48 ∧ d.handed = false ∧ s.resOwner 1
  d.action.target = s.queueOwner d.action.queue ∧ s.chanMode d.action.target = 6 ∧ (s.chan d.action.target).safe = [] ∧ (s.chan
  d.action.target).entry32 ≤ d.t * fine ∧ s.dispatchedOf 0x04 = some d ∧ (.chanPulse : Instr).wf = true := ⟨withDisp (aDisp 4 47 t0 2458)
  (mine 1 47 |>.put (pCHAN 47) CHAN.MODE_CFG.MODE 6 |>.putFlag (pCHAN 47) CHAN.CONTROL.ENABLE true), (aDisp 4 47 t0 2458),
  by decide +kernel⟩
theorem wit_actions_take_effect_4 : ∃ s : State, ∃ d : Disp, ∃ c : Instr, ∃ op, s.sound = true ∧ d.action.target < 48 ∧ (c, op) ∈
  [(Instr.chanHi, 1), (.chanLo, 2), (.chanToggle, 3), (.chanPulse, 4)] ∧ s.dispatchedOf op = some d ∧ d.handed = true ∧ (c : Instr).wf =
  true := ⟨withDisp { (aDisp 1 47) with handed := true }, { (aDisp 1 47) with handed := true }, (.chanHi : Instr), 1, by decide +kernel⟩
theorem wit_actions_take_effect_5 : ∃ s : State, ∃ d : Disp, s.sound = true ∧ d.handed = false ∧ d.action.target < 64 ∧ s.dispatchedOf
  0x10 = some d ∧ s.resOwner 4 d.action.target = s.queueOwner d.action.queue ∧ s.get pTRIG (TRIG.TL_SRC.KIND d.action.target) = 3 ∧ s.get
  pTRIG (TRIG.TL_SRC.INDEX d.action.target) = d.action.queue ∧ (.fireLine : Instr).wf = true := ⟨((withDisp (aDisp 0x10 63) (mine 4
  63)).put pTRIG (TRIG.TL_SRC.KIND 63) 3 |>.put pTRIG (TRIG.TL_SRC.KIND (aDisp 0x10 63).action.target) 3), (aDisp 0x10 63),
  by decide +kernel⟩
theorem wit_actions_take_effect_6 : ∃ s : State, ∃ d : Disp, s.sound = true ∧ d.handed = false ∧ d.action.target < 4 ∧ s.resOwner 10
  d.action.target = s.queueOwner d.action.queue ∧ s.dispatchedOf 0x20 = some d ∧ s.flag (pSEQ d.action.target) SEQ.CONTROL.ENABLE = true ∧
  (s.seqState d.action.target = 0 ∨ s.seqState d.action.target = 4) ∧ s.get (pSEQ d.action.target) SEQ.QUAD_MASK.QUADS ≠ 0 ∧ 2 ≤ s.stage ∧
  s.courseCheck (s.seqOwner d.action.target) d.action.param = 0 ∧ s.atLeastNs d.t 256 = true ∧ (.seqStart : Instr).wf = true := ⟨(withDisp
  (aDisp 0x20 0 (t0 + 2000000000)) (withSeq {} 0) |>.putFlag (pSEQ (aDisp 0x20 0 (t0 + 2000000000)).action.target) SEQ.CONTROL.ENABLE true
  |>.put (pSEQ (aDisp 0x20 0 (t0 + 2000000000)).action.target) SEQ.QUAD_MASK.QUADS 1), (aDisp 0x20 0 (t0 + 2000000000)),
  by decide +kernel⟩
theorem wit_actions_take_effect_7 : ∃ s : State, ∃ d : Disp, s.sound = true ∧ d.handed = false ∧ d.action.target < 4 ∧ s.resOwner 10
  d.action.target = s.queueOwner d.action.queue ∧ s.dispatchedOf 0x21 = some d ∧ s.seqState d.action.target = 3 ∧ (s.seq
  d.action.target).request = none ∧ (.seqJump : Instr).wf = true := ⟨withDisp (aDisp 0x21 0) (withSeq {} 3), (aDisp 0x21 0),
  by decide +kernel⟩
theorem wit_actions_take_effect_8 : ∃ s : State, ∃ d : Disp, s.sound = true ∧ d.handed = false ∧ d.action.target < 4 ∧ s.resOwner 10
  d.action.target = s.queueOwner d.action.queue ∧ s.dispatchedOf 0x22 = some d ∧ s.seqState d.action.target ≠ 0 ∧ s.seqState
  d.action.target ≠ 4 ∧ (.seqStopAtEnd : Instr).wf = true := ⟨withDisp (aDisp 0x22 0) (withSeq {} 1), (aDisp 0x22 0), by decide +kernel⟩
theorem wit_actions_take_effect_9 : ∃ s : State, ∃ d : Disp, s.sound = true ∧ d.handed = false ∧ d.action.target < 4 ∧ s.resOwner 10
  d.action.target = s.queueOwner d.action.queue ∧ s.dispatchedOf 0x23 = some d ∧ s.seqState d.action.target = 2 ∧ (s.seq
  d.action.target).endsBy (s.instantOfSlot (s.clk.slot + 205)) = false ∧ (.seqStopNow : Instr).wf = true := ⟨withDisp (aDisp 0x23 0)
  (withSeq {} 2), (aDisp 0x23 0), by decide +kernel⟩
theorem wit_actions_take_effect_10 : ∃ s : State, ∃ d : Disp, s.sound = true ∧ d.handed = false ∧ d.action.target < 16 ∧ s.dispatchedOf
  0x30 = some d ∧ s.pageOwner pTDC = s.queueOwner d.action.queue ∧ s.get pTDC (TDC.MS_CFG.ARM_KIND d.action.target) = 0 ∧ s.get pTDC
  (TDC.MS_CFG.START_KIND d.action.target) ≠ 2 ∧ s.sessState d.action.target = 1 ∧ (.measArm : Instr).wf = true := ⟨(withDisp (aDisp 0x30
  15) ((mine 15 pTDC).put pTDC (TDC.MS_STATE.STATE 15) 1) |>.put pTDC (TDC.MS_CFG.ARM_KIND (aDisp 0x30 15).action.target) 0), (aDisp 0x30
  15), by decide +kernel⟩
theorem wit_actions_take_effect_11 : ∃ s : State, ∃ d : Disp, s.sound = true ∧ d.handed = false ∧ s.dispatchedOf 0x40 = some d ∧
  d.action.regOff = 0x01C ∧ d.action.target ≠ pHOSTQ ∧ d.action.target < 256 ∧ d.action.param < 2 ^ 32 ∧ s.targetDenied d.action.queue
  d.action = none ∧ s.passes (.queue d.action.queue) d.action.target 0x01C d.action.param = true ∧ valueOk d.action.target 0x01C
  d.action.param = true ∧ (.regWrite32 : Instr).wf = true := ⟨(withDisp (aDisp 0x40 pSERVO t0 (2 ^ 32 - 1) 0x01C)).setOwner 15 pSERVO 1,
  (aDisp 0x40 pSERVO t0 (2 ^ 32 - 1) 0x01C), by decide +kernel⟩
theorem wit_actions_take_effect_12 : ∃ s : State, ∃ d : Disp, s.sound = true ∧ d.handed = false ∧ s.dispatchedOf 0x50 = some d ∧ (.notify
  : Instr).wf = true := ⟨withDisp (aDisp 0x50 0), (aDisp 0x50 0), by decide +kernel⟩
theorem wit_actions_take_effect_13 : ∃ s : State, ∃ d : Disp, s.sound = true ∧ d.handed = false ∧ s.dispatchedOf 0x00 = some d ∧
  (.actionNop : Instr).wf = true := ⟨withDisp (aDisp 0 0), (aDisp 0 0), by decide +kernel⟩
theorem wit_phase_trackers_0 : ∃ s : State, ∃ path : Path, ∃ k : Nat, ∃ v, s.sound = true ∧ k < 4 ∧ bitOf v 31 = true ∧ bitOf v 30 = false
  ∧ bitOf v 0 = false ∧ s.flag (pPHASE k) PHASE.CONTROL.ENABLE = false ∧ 2 ≤ s.stage ∧ (s.takePlace (s.get (pPHASE k)
  PHASE.SRC_CFG.SRC_TIN) 3 k).isSome = true ∧ (.phaseEnable path k v : Instr).wf = true ∧ State.passes s path (pPHASE k) 0x014 v = true ∧
  valueOk (pPHASE k) 0x014 v = true := ⟨(mine 12 3 |>.putFlag (pPHASE 3) PHASE.CONTROL.ENABLE false), .bar0 0, 3, 2 ^ 31,
  by decide +kernel⟩
theorem wit_phase_trackers_1 : ∃ s : State, ∃ path : Path, ∃ k : Nat, s.sound = true ∧ k < 4 ∧ s.phaseState k ≠ 0 ∧ (.restart path k :
  Instr).wf = true ∧ State.passes s path (pPHASE k) 0x014 (s.controlWith (pPHASE k) 0) = true ∧ valueOk (pPHASE k) 0x014 (s.controlWith
  (pPHASE k) 0) = true := ⟨(mine 12 3).put (pPHASE 3) PHASE.STATUS.STATE 1, .bar0 0, 3, by decide +kernel⟩
theorem wit_phase_trackers_2 : ∃ s : State, ∃ k : Nat, s.sound = true ∧ k < 4 ∧ s.phaseLost k = true ∧ (.phaseSourceLost k : Instr).wf =
  true := ⟨withFit { lastStamp := some 0 }, 3, by decide +kernel⟩
theorem wit_phase_trackers_3 : ∃ s : State, ∃ k : Nat, ∃ q, ∃ a, ∃ rest, ∃ u, ∃ b, s.sound = true ∧ k < 4 ∧ (List.range 16).find? (fun q
  => s.convertDue q && s.get pSCHED (SCHED.Q_CFG.BASE_INDEX q) == k) = some q ∧ (s.queue q).actions = a :: rest ∧ s.predictPhase
  a.baseIndex a.phase = some (u, b) ∧ a.tebLimit = 0xFFFFFFFF ∧ (.phaseConvert k : Instr).wf = true :=
  ⟨{ withFit with sched := { queues := base.sched.queues.set 0 { actions := [({ (aDisp 0 0).action with base := 1, baseIndex := 3, at_ := none } : Action)] } } }
  |>.putFlag pSCHED (SCHED.Q_CFG.ENABLE 0) true |>.put pSCHED (SCHED.Q_CFG.BASE_INDEX 0) 3 |>.put (pPHASE 3) PHASE.CONV_LEAD.LEAD_NS 100,
  3, 0, ({ (aDisp 0 0).action with base := 1, baseIndex := 3, at_ := none } : Action), ([] : List Action), t0 + 1000,
  ((({ withFit with sched := { queues := base.sched.queues.set 0 { actions := [({ (aDisp 0 0).action with base := 1, baseIndex := 3, at_ := none } : Action)] } } }
  |>.putFlag pSCHED (SCHED.Q_CFG.ENABLE 0) true |>.put pSCHED (SCHED.Q_CFG.BASE_INDEX 0) 3 |>.put (pPHASE 3) PHASE.CONV_LEAD.LEAD_NS
  100).predictPhase 3 0).getD (0, 0)).2, by decide +kernel⟩
theorem wit_phase_trackers_4 : ∃ s : State, ∃ k : Nat, ∃ turn, ∃ u, s.sound = true ∧ k < 4 ∧ (List.range 16).find? (fun q => s.convertDue
  q && s.get pSCHED (SCHED.Q_CFG.BASE_INDEX q) == k) = none ∧ s.phaseEventDue k = some (turn, u) ∧ (.phaseConvert k : Instr).wf = true :=
  ⟨withFit, 3, ((withFit.phaseEventDue 3).getD (0, 0)).1, ((withFit.phaseEventDue 3).getD (0, 0)).2, by decide +kernel⟩
theorem wit_inputs_and_stamps_0 : ∃ s : State, ∃ i : Nat, ∃ high, s.sound = true ∧ i < 16 ∧ s.flag (pTIN i) TIN.CONTROL.ENABLE = true ∧
  s.unresolved i = true ∧ (s.tin i).unresolvedAt + 4 ≤ s.clk.slot ∧ (s.looped i = true → high = s.loopLevel) ∧ (.inputResolved i high :
  Instr).wf = true := ⟨(base.putFlag (pTIN 15) TIN.STATUS.LEVEL_UNRESOLVED true |>.putFlag (pTIN 15) TIN.CONTROL.ENABLE true), 15, true,
  by decide +kernel⟩
theorem wit_inputs_and_stamps_1 : ∃ s : State, ∃ i : Nat, ∃ x : Crossing, (∀ p, (s.tin i).lastPos = some p → p + s.captureSpacing i ≤
  x.pos) ∧ (∀ p, (s.core i (s.nextCore i x.pos)).injected = some p → x.pos < p ∨ p + 163840 ≤ x.pos) ∧ s.sound = true ∧ i < 16 ∧ s.flag
  (pTIN i) TIN.CONTROL.ENABLE = true ∧ (s.looped i = true → (s.tin i).loopIn.head? = some x) ∧ s.unresolved i = false ∧ s.flag (pTIN i)
  TIN.STATUS.LEVEL = (!x.rising) ∧ bitOf (s.get (pTIN i) TIN.IN_CFG.SLOPE) (if x.rising then 0 else 1) = true ∧ (s.tin i).prescale = 0 ∧
  (s.goodCores i).isEmpty = false ∧ (.inputCrossing i x : Instr).wf = true := ⟨(((withTin { lastPos := some 0 }).put (pTIN 15)
  TIN.IN_CFG.SLOPE 1).putFlag (pTIN 15) TIN.STATUS.LEVEL_UNRESOLVED false |>.putFlag (pTIN 15) TIN.CONTROL.ENABLE true), 15, (⟨true,
  81920⟩ : Crossing), some_holds 0 (by decide +kernel) (by decide +kernel), none_holds (by decide +kernel), by decide +kernel⟩
theorem wit_inputs_and_stamps_2 : ∃ s : State, ∃ i : Nat, ∃ x : Crossing, ∃ p, s.sound = true ∧ i < 16 ∧ s.flag (pTIN i)
  TIN.CONTROL.ENABLE = true ∧ (s.looped i = true → (s.tin i).loopIn.head? = some x) ∧ s.unresolved i = false ∧ s.flag (pTIN i)
  TIN.STATUS.LEVEL = (!x.rising) ∧ bitOf (s.get (pTIN i) TIN.IN_CFG.SLOPE) (if x.rising then 0 else 1) = true ∧ (s.tin i).prescale = 0 ∧
  (s.goodCores i).isEmpty = false ∧ (s.tin i).lastPos = some p ∧ x.pos < p + s.captureSpacing i ∧ (.inputCrossing i x : Instr).wf = true
  := ⟨(((withTin { lastPos := some 0 }).put (pTIN 15) TIN.IN_CFG.SLOPE 1).putFlag (pTIN 15) TIN.STATUS.LEVEL_UNRESOLVED false |>.putFlag
  (pTIN 15) TIN.CONTROL.ENABLE true), 15, (⟨true, 81919⟩ : Crossing), 0, by decide +kernel⟩
theorem wit_inputs_and_stamps_3 : ∃ s : State, ∃ i : Nat, ∃ c : Conversion, ∃ a : Capture, ∃ rest : List Capture, s.sound = true ∧ i < 16
  ∧ (s.tin i).captures = a :: rest ∧ 0 < c.code ∧ c.code < 1023 ∧ a.looped = false ∧ (s.tin i).fifo.length < 1024 ∧ (s.stampInstant i a
  c).1 < 2 ^ 64 * suSec ∧ (.stampReady i c : Instr).wf = true := ⟨withTin { captures := [aCapture] }, 15, (⟨320000000, 15, 1022⟩ :
  Conversion), aCapture, ([] : List Capture), by decide +kernel⟩
theorem wit_inputs_and_stamps_4 : ∃ s : State, ∃ i : Nat, ∃ st : Stamp, ∃ rest : List Stamp, s.sound = true ∧ i < 16 ∧ (s.tin i).fifo = st
  :: rest ∧ (s.tin i).handoutSlot ≠ some s.clk.slot ∧ (.fifoHandout i : Instr).wf = true := ⟨withTin { fifo := [aStamp] }, 15, aStamp, ([]
  : List Stamp), by decide +kernel⟩
theorem wit_inputs_and_stamps_5 : ∃ s : State, ∃ i : Nat, ∃ st : Stamp, ∃ rest : List Stamp, ∃ g : Nat, ∃ w : GateWin, (∀ c, w.closedAt =
  some c → st.flat < c) ∧ s.sound = true ∧ i < 16 ∧ (s.tin i).fifo = st :: rest ∧ (s.tin i).handoutSlot ≠ some s.clk.slot ∧ s.subscribers
  i = [(4, 16 + g)] ∧ g < 8 ∧ s.gate g = [w] ∧ bitOf (s.get pTDC (TDC.FG_CFG.SENSE g)) (senseBit st.rising) = true ∧ w.g ≤ st.flat ∧
  st.flat < w.g + w.l ∧ (.fifoHandout i : Instr).wf = true := ⟨((withMeas { gates := [[], [], [], [], [], [], [], [aWin]] } (withTin
  { fifo := [aStamp] })).put pTDC (TDC.FG_CFG.SENSE 7) 1).put (pTIN 15) (TIN.SUB_INFO.KIND 0) 4 |>.put (pTIN 15) (TIN.SUB_INFO.INDEX 0) 23
  |>.putFlag (pTIN 15) (TIN.SUB_INFO.VALID 0) true, 15, aStamp, ([] : List Stamp), 7, aWin, none_holds (by decide +kernel),
  by decide +kernel⟩
theorem wit_core_calibration_0 : ∃ s : State, ∃ i : Nat, ∃ k : Nat, ∃ code, s.sound = true ∧ i < 16 ∧ k < (s.tin i).cores.length ∧
  s.injDue i = true ∧ k = s.injCore i ∧ (s.core i k).badPulses < 15 ∧ (s.core i k).injCount % 8 ≠ 7 ∧ (s.core i k).events < 1048576 ∧
  ((s.core i k).hist = [] ∨ (s.core i k).hist.length = 1024) ∧ (.injectedEvent i k false code : Instr).wf = true := ⟨withTin
  { injCount := 1, cores := [{}, { injCount := 1 }] }, 15, 1, 1023, by decide +kernel⟩
theorem wit_core_calibration_1 : ∃ s : State, ∃ i : Nat, ∃ k : Nat, ∃ code, s.sound = true ∧ i < 16 ∧ k < (s.tin i).cores.length ∧
  s.injDue i = true ∧ k = s.injCore i ∧ (s.core i k).badPulses < 15 ∧ (s.core i k).injCount % 8 = 7 ∧ (.injectedEvent i k true code :
  Instr).wf = true := ⟨withTin { injCount := 1, cores := [{}, { injCount := 7 }] }, 15, 1, 1023, by decide +kernel⟩
theorem wit_core_calibration_2 : ∃ s : State, ∃ i : Nat, ∃ k : Nat, ∃ r : TableResult, s.sound = true ∧ i < 16 ∧ k < (s.tin
  i).cores.length ∧ 2 ≤ s.stage ∧ (s.core i k).failed = false ∧ 1048576 ≤ (s.core i k).events ∧ tableAccepted (s.core i k) r = true ∧
  (.inputTableDone i k r : Instr).wf = true := ⟨withTin { cores := [{}, { events := 1048576, hist := List.replicate 1024 100 }] }, 15, 1,
  goodTable, by decide +kernel⟩
theorem wit_core_calibration_3 : ∃ s : State, ∃ i : Nat, ∃ k : Nat, ∃ r : TableResult, s.sound = true ∧ i < 16 ∧ k < (s.tin
  i).cores.length ∧ 2 ≤ s.stage ∧ (s.core i k).failed = false ∧ 1048576 ≤ (s.core i k).events ∧ tableAccepted (s.core i k) r = false ∧
  (s.core i k).fails < 2 ∧ (.inputTableDone i k r : Instr).wf = true := ⟨withTin { cores := [{}, { events := 1048576, fails := 1 }] }, 15,
  1, goodTable, by decide +kernel⟩
theorem wit_core_calibration_4 : ∃ s : State, ∃ i : Nat, ∃ k : Nat, ∃ r : TableResult, s.sound = true ∧ i < 16 ∧ k < (s.tin
  i).cores.length ∧ 2 ≤ s.stage ∧ (s.core i k).failed = false ∧ 1048576 ≤ (s.core i k).events ∧ tableAccepted (s.core i k) r = false ∧
  (s.core i k).fails = 2 ∧ (.inputTableDone i k r : Instr).wf = true := ⟨withTin { cores := [{}, { events := 1048576, fails := 2 }] }, 15,
  1, goodTable, by decide +kernel⟩
theorem wit_core_calibration_5 : ∃ s : State, ∃ i : Nat, ∃ k : Nat, ∃ j : Nat, ∃ r : TableResult, s.sound = true ∧ i < 16 ∧ k < (s.tin
  i).cores.length ∧ 16 ≤ j ∧ j < 25 ∧ k < 2 ∧ 2 ≤ s.stage ∧ s.heldAt2 = false ∧ s.power.ports.length = 18 ∧ (s.portCore (2 * (j - 16) +
  k)).failed = false ∧ r.maxErrFs ≤ 2000 ∧ r.rmsFs ≤ 1200 ∧ (.inputTableDone j k r : Instr).wf = true := ⟨base, 15, 1, 16, goodTable,
  by decide +kernel⟩
theorem wit_core_calibration_6 : ∃ s : State, ∃ i : Nat, ∃ k : Nat, s.sound = true ∧ i < 16 ∧ k < (s.tin i).cores.length ∧ s.staleDue i k
  = true ∧ (.calStale i k : Instr).wf = true := ⟨withTin { cores := [{}, { front := some ⟨[], [], 0⟩, temp := -17 }] }, 15, 1,
  by decide +kernel⟩
theorem wit_core_calibration_7 : ∃ s : State, ∃ i : Nat, ∃ k : Nat, ∃ path, s.sound = true ∧ i < 16 ∧ k < (s.tin i).cores.length ∧ (.recal
  path i : Instr).wf = true ∧ State.passes s path (pTIN i) 0x014 (s.controlWith (pTIN i) 0) = true ∧ valueOk (pTIN i) 0x014 (s.controlWith
  (pTIN i) 0) = true := ⟨mine 3 15, 15, 1, .bar0 0, by decide +kernel⟩
theorem wit_core_calibration_8 : ∃ s : State, ∃ i : Nat, ∃ k : Nat, s.sound = true ∧ i < 16 ∧ k < (s.tin i).cores.length ∧ s.power.good =
  true ∧ (.inputTableEcc i k false : Instr).wf = true := ⟨base, 15, 1, by decide +kernel⟩
theorem wit_core_calibration_9 : ∃ s : State, ∃ i : Nat, ∃ k : Nat, s.sound = true ∧ i < 16 ∧ k < (s.tin i).cores.length ∧ s.power.good =
  true ∧ (.inputTableEcc i k true : Instr).wf = true := ⟨base, 15, 1, by decide +kernel⟩
theorem wit_sessions_0 : ∃ s : State, ∃ path : Path, ∃ k : Nat, ∃ v, s.sound = true ∧ k < 16 ∧ bitOf v 31 = true ∧ s.flag pTDC
  (TDC.MS_CFG.ENABLE k) = false ∧ 2 ≤ s.stage ∧ s.get pTDC (TDC.MS_STOPS.STOP_MASK k) ≠ 0 ∧ (s.get pTDC (TDC.MS_PRE.PRE_WINDOW_NS k) = 0 ∨
  bitsOf v 29 28 ≠ 2) ∧ (bitsOf v 29 28 = 0 → bitsOf v 5 0 < 16) ∧ bitsOf v 15 14 ≠ 3 ∧ (bitsOf v 15 14 = 2 → bitsOf v 13 8 < 8) ∧ (∀ i, i
  < 16 → bitOf (s.get pTDC (TDC.MS_STOPS.STOP_MASK k)) i = true ∨ (bitsOf v 29 28 = 0 ∧ bitsOf v 5 0 = i) → (s.takePlace i 4 k).isSome =
  true) ∧ (.sessionEnable path k v : Instr).wf = true ∧ State.passes s path pTDC (TDC.MS_CFG.off k) v = true ∧ valueOk pTDC
  (TDC.MS_CFG.off k) v = true := ⟨(base |>.putFlag pTDC (TDC.MS_CFG.ENABLE 15) false |>.put pTDC (TDC.MS_STOPS.STOP_MASK 15) 1), .bar0 0,
  15, 2 ^ 31 + 0x05010000, by decide +kernel⟩
theorem wit_sessions_1 : ∃ s : State, ∃ path : Path, ∃ k : Nat, s.sound = true ∧ k < 16 ∧ s.get pTDC (TDC.MS_CFG.ARM_KIND k) = 0 ∧
  s.sessState k = 1 ∧ s.get pTDC (TDC.MS_CFG.START_KIND k) ≠ 2 ∧ s.now < 2 ^ 64 * suSec ∧ (.arm path k : Instr).wf = true ∧ State.passes s
  path pTDC TDC.SESSION_CMD.off (packRec [(8, 5, k), (0, 8, 1)]) = true ∧ valueOk pTDC TDC.SESSION_CMD.off (packRec [(8, 5, k), (0, 8,
  1)]) = true := ⟨(base |>.put pTDC (TDC.MS_CFG.ARM_KIND 15) 0 |>.put pTDC (TDC.MS_STATE.STATE 15) 1), .bar0 0, 15, by decide +kernel⟩
theorem wit_sessions_2 : ∃ s : State, ∃ path : Path, ∃ k : Nat, s.sound = true ∧ k < 16 ∧ s.sessState k = 3 ∧ s.get pTDC
  (TDC.MS_CFG.ARM_KIND k) ≠ 3 ∧ (.sessionAbort path k : Instr).wf = true ∧ State.passes s path pTDC TDC.SESSION_CMD.off (packRec [(8, 5,
  k), (0, 8, 2)]) = true ∧ valueOk pTDC TDC.SESSION_CMD.off (packRec [(8, 5, k), (0, 8, 2)]) = true := ⟨(base |>.put pTDC
  (TDC.MS_STATE.STATE 15) 3), .bar0 0, 15, by decide +kernel⟩
theorem wit_sessions_3 : ∃ s : State, ∃ k : Nat, s.sound = true ∧ k < 16 ∧ s.timeoutDue k = true ∧ (s.sess k).queue = [] ∧ s.get pTDC
  (TDC.MS_CFG.ARM_KIND k) ≠ 3 ∧ (.sessionTimeout k : Instr).wf = true := ⟨base.put pTDC (TDC.MS_TIMEOUT.TIMEOUT_NS 15) 100 |>.put pTDC
  (TDC.MS_STATE.STATE 15) 3, 15, by decide +kernel⟩
theorem wit_sessions_4 : ∃ s : State, ∃ k : Nat, ∃ i : Nat, ∃ st : Stamp, ∃ rest : List Stamp, s.sound = true ∧ k < 16 ∧ i < 16 ∧
  s.meas.intake.getD i [] = st :: rest ∧ s.meas.drainSlot.getD i 0 ≤ s.clk.slot ∧ (.intakeDrain i : Instr).wf = true := ⟨withMeas
  { intake := (List.replicate 16 []).set 15 [aStamp] }, 15, 15, aStamp, ([] : List Stamp), by decide +kernel⟩
theorem wit_gates_and_streams_0 : ∃ s : State, ∃ path : Path, ∃ g : Nat, ∃ v, s.sound = true ∧ g < 8 ∧ bitOf v 31 = true ∧ s.flag pTDC
  (TDC.FG_CFG.ENABLE g) = false ∧ 2 ≤ s.stage ∧ bitsOf v 29 28 ≠ 1 ∧ (s.takePlace (bitsOf v 3 0) 4 (16 + g)).isSome = true ∧ (.gateEnable
  path g v : Instr).wf = true ∧ State.passes s path pTDC (TDC.FG_CFG.off g) v = true ∧ valueOk pTDC (TDC.FG_CFG.off g) v = true := ⟨(base
  |>.putFlag pTDC (TDC.FG_CFG.ENABLE 7) false), .bar0 0, 7, 2 ^ 31 + 0x04000000 + 15, by decide +kernel⟩
theorem wit_gates_and_streams_1 : ∃ s : State, ∃ path : Path, ∃ g : Nat, s.sound = true ∧ g < 8 ∧ s.flag pTDC (TDC.FG_CFG.ENABLE g) = true
  ∧ s.get pTDC (TDC.FG_CFG.GATE_KIND g) = 0 ∧ s.gateBusy g (s.flat s.now) = false ∧ (.gateStart path g : Instr).wf = true ∧ State.passes s
  path pTDC TDC.SESSION_CMD.off (packRec [(8, 5, 16 + g), (0, 8, 3)]) = true ∧ valueOk pTDC TDC.SESSION_CMD.off (packRec [(8, 5, 16 + g),
  (0, 8, 3)]) = true := ⟨(base |>.putFlag pTDC (TDC.FG_CFG.ENABLE 7) true |>.put pTDC (TDC.FG_CFG.GATE_KIND 7) 0), .bar0 0, 7,
  by decide +kernel⟩
theorem wit_gates_and_streams_2 : ∃ s : State, ∃ path : Path, ∃ g : Nat, s.sound = true ∧ g < 8 ∧ (.sessionAbort path (16 + g) : Instr).wf
  = true ∧ State.passes s path pTDC TDC.SESSION_CMD.off (packRec [(8, 5, 16 + g), (0, 8, 2)]) = true ∧ valueOk pTDC TDC.SESSION_CMD.off
  (packRec [(8, 5, 16 + g), (0, 8, 2)]) = true := ⟨withMeas { gates := [[], [], [], [], [], [], [], [aWin]] }, .bar0 0, 7,
  by decide +kernel⟩
theorem wit_gates_and_streams_3 : ∃ s : State, ∃ g : Nat, ∃ w : GateWin, s.sound = true ∧ g < 8 ∧ s.gateEnded g = some w ∧ (.gateEnd g :
  Instr).wf = true := ⟨withMeas { gates := [[], [], [], [], [], [], [], [aWin]] }
  { base with clk := { base.clk with tclk := 320000640 } }, 7, aWin, by decide +kernel⟩
theorem wit_gates_and_streams_4 : ∃ s : State, ∃ g : Nat, ∃ m, ∃ n, s.sound = true ∧ g < 8 ∧ (.tdcEngineEcc m n : Instr).wf = true :=
  ⟨base, 7, 65535, 255, by decide +kernel⟩
theorem wit_gates_and_streams_5 : ∃ s : State, ∃ k : Nat, ∃ r : Nat, s.sound = true ∧ k < 4 ∧ s.ringFor 4 k = some r ∧ s.ringStopped r =
  false ∧ s.periodicDue k = true ∧ s.streamRoom k r < 2 ∧ (.streamPeriodicBase k : Instr).wf = true := ⟨(withStream
  { live := true, base := -(10 ^ 15) }).put pHOSTQ (HOSTQ.DEV_IDX.DEV_IDX 0) 1023, 3, 0, by decide +kernel⟩
theorem wit_gates_and_streams_6 : ∃ s : State, ∃ k : Nat, ∃ r : Nat, s.sound = true ∧ k < 4 ∧ s.ringFor 4 k = some r ∧ s.ringStopped r =
  false ∧ s.periodicDue k = true ∧ 2 ≤ s.streamRoom k r ∧ (.streamPeriodicBase k : Instr).wf = true := ⟨withStream
  { live := true, base := -(10 ^ 15) }, 3, 0, by decide +kernel⟩
theorem wit_gates_and_streams_7 : ∃ s : State, ∃ k : Nat, ∃ r : Nat, s.sound = true ∧ k < 4 ∧ s.ringFor 4 k = some r ∧ s.ringStopped r =
  false ∧ (s.stream k).batch ≠ [] ∧ (.streamBatchWrite k : Instr).wf = true := ⟨withStream { batch := [⟨0, false, 0, false⟩] }, 3, 0,
  by decide +kernel⟩
theorem wit_gates_and_streams_8 : ∃ s : State, ∃ k : Nat, ∃ r : Nat, s.sound = true ∧ k < 4 ∧ s.ringFor 4 k = some r ∧ s.ringStopped r =
  false ∧ s.resumeStreamDue k = true ∧ (.streamResume k : Instr).wf = true := ⟨(withStream {}).putFlag pTDC (TDC.ST_STATE.SUSPENDED 3)
  true, 3, 0, by decide +kernel⟩
theorem wit_timescale_changes_0 : ∃ s : State, ∃ n, ∃ y : Int, s.sound = true ∧ s.clk.yNext = some (n, y) ∧ n < s.clk.slot ∧
  (.yTakesEffect : Instr).wf = true := ⟨{ base with clk := { base.clk with yNext := some (39999999, 5) } }, 39999999, (5 : Int),
  by decide +kernel⟩
theorem wit_timescale_changes_1 : ∃ s : State, ∃ r, s.sound = true ∧ s.clk.stepNext = some r ∧ s.clk.seeded = true ∧ r.slot < s.clk.slot ∧
  (.timescaleStep : Instr).wf = true := ⟨{ base with clk := { base.clk with stepNext := some ⟨39999999, -5, none⟩ } }, (⟨39999999, -5,
  none⟩ : StepReq), by decide +kernel⟩
theorem wit_timescale_changes_2 : ∃ s : State, s.sound = true ∧ s.seedDue = true ∧ (.timescaleSeed : Instr).wf = true :=
  ⟨{ base with clk := { base.clk with seeded := false }, eave := { base.eave with edges := 1 } } |>.putFlag pAPLL_M APLL_M.STATUS.LOCKED
  true, by decide +kernel⟩
theorem wit_timescale_changes_3 : ∃ s : State, s.sound = true ∧ s.leapDue = true ∧ (.leapApply : Instr).wf = true := ⟨base.put pTSC
  TSC.LEAP_CFG.LEAP_PENDING 1, by decide +kernel⟩
theorem wit_timescale_changes_4 : ∃ s : State, s.sound = true ∧ s.below ≠ s.flag pTSC TSC.STATUS.BELOW_THRESH ∧ (.threshCrossing :
  Instr).wf = true := ⟨{ base with teb := { seed := some 1 } } |>.put pTSC TSC.STATUS.BASIS 1 |>.put pTSC TSC.TRACE_THRESH.PS (2 ^ 32 -
  1), by decide +kernel⟩
theorem wit_timescale_changes_5 : ∃ s : State, s.sound = true ∧ s.reportDue = true ∧ (.tebReport : Instr).wf = true :=
  ⟨{ base with teb := { lastReport := -1 } } |>.putFlag pTSC TSC.REPORT_CFG.REPORT_EN true, by decide +kernel⟩
theorem wit_timescale_changes_6 : ∃ s : State, s.sound = true ∧ s.traceDue = true ∧ (.traceExpiry : Instr).wf = true :=
  ⟨{ base with clk := { base.clk with anchorT32 := 86400 * 2 * suSec * fine } } |>.wr pDOMAIN 0x400 0x100 |>.wr pDOMAIN 0x410 1 |>.wr
  pDOMAIN 0x418 1, by decide +kernel⟩
theorem wit_timescale_changes_7 : ∃ s : State, s.sound = true ∧ (.busEcc : Instr).wf = true := ⟨base, by decide +kernel⟩
theorem wit_lock_and_crystal_0 : ∃ s : State, ∃ c : Nat, s.sound = true ∧ s.stage ≠ 0 ∧ s.power.recovery = false ∧ ((c : Int) -
  65536).natAbs ≤ 2 ∧ (.apllLockWindow false c : Instr).wf = true := ⟨base, 65538, by decide +kernel⟩
theorem wit_lock_and_crystal_1 : ∃ s : State, ∃ c : Nat, s.sound = true ∧ s.stage ≠ 0 ∧ s.power.recovery = false ∧ 2 < ((c : Int) -
  65536).natAbs ∧ s.flag pAPLL_M APLL_M.STATUS.LOCKED = true ∧ (.apllLockWindow false c : Instr).wf = true := ⟨(base.putFlag pAPLL_M
  APLL_M.STATUS.LOCKED true |>.putFlag pAPLL_M APLL_M.STATUS.LOCKED true), 65539, by decide +kernel⟩
theorem wit_lock_and_crystal_2 : ∃ s : State, s.sound = true ∧ s.stage ≠ 0 ∧ s.power.recovery = false ∧ s.flag pAPLL_M
  APLL_M.STATUS.LOCKED = true ∧ (.xtalFault : Instr).wf = true := ⟨(base.putFlag pAPLL_M APLL_M.STATUS.LOCKED true |>.putFlag pAPLL_M
  APLL_M.STATUS.LOCKED true), by decide +kernel⟩
theorem wit_lock_and_crystal_3 : ∃ s : State, ∃ m, s.sound = true ∧ s.get pSERVO SERVO.SERVO_CFG.MODE ≠ 1 ∧ (.xoUpdate m : Instr).wf =
  true := ⟨base, (⟨-1, 65535, 400⟩ : XoMeasure), by decide +kernel⟩
theorem wit_lock_and_crystal_4 : ∃ s : State, s.sound = true ∧ s.ovenStableDue = true ∧ (.ovenStable : Instr).wf = true :=
  ⟨{ base with xo := { bandSince := some 0 }, clk := { base.clk with slot := 12000000000 } } |>.put pXO XO.STATUS.OVEN 1,
  by decide +kernel⟩
theorem wit_lock_and_crystal_5 : ∃ s : State, s.sound = true ∧ (.ovenFault : Instr).wf = true := ⟨base, by decide +kernel⟩
theorem wit_lock_and_crystal_6 : ∃ s : State, ∃ f, s.sound = true ∧ s.fitDue = true ∧ (.ageingFit f : Instr).wf = true :=
  ⟨{ base with xo := { fitTicks := 864000 } } |>.put pSERVO SERVO.STATUS.STATE 2 |>.putFlag pXO XO.FIT_CTL.FIT_ENABLE true, (⟨0, 1, 2, -3,
  2 ^ 30 - 1⟩ : AgeFit), by decide +kernel⟩
theorem wit_reference_commands_0 : ∃ s : State, ∃ path : Path, ∃ k : Nat, ∃ v, s.sound = true ∧ k < 8 ∧ bitOf v 31 = true ∧ s.refEnabled k
  = false ∧ s.get pREFSEL (REFSEL.REF_UNC.UNC_PS k) ≠ tebUnknown ∧ (bitsOf v 19 16 = 4 ∨ (bitsOf v 19 16 = 1 ∧ (s.takePlace (bitsOf v 7 0)
  5 k).isSome = true)) ∧ (.refEnable path k v : Instr).wf = true ∧ State.passes s path pREFSEL (REFSEL.REF_CFG.off k) v = true ∧ valueOk
  pREFSEL (REFSEL.REF_CFG.off k) v = true := ⟨base.put pREFSEL (REFSEL.REF_UNC.UNC_PS 7) 0, .bar0 0, 7, 2 ^ 31 + 0x40000,
  by decide +kernel⟩
theorem wit_reference_commands_1 : ∃ s : State, ∃ path : Path, ∃ k : Nat, s.sound = true ∧ k < 8 ∧ s.refKind k = 4 ∧ s.refEnabled k = true
  ∧ (s.getInst pREFSEL REFSEL.PTP_OBS_AT.INSTANT : Int) ≤ s.now ∧ s.now ≤ s.getInst pREFSEL REFSEL.PTP_OBS_AT.INSTANT + suSec ∧ s.get
  pREFSEL REFSEL.PTP_OBS_TEB.TEB_PS ≠ tebUnknown ∧ 3 ≤ s.stage ∧ (.push path k : Instr).wf = true ∧ State.passes s path pREFSEL
  REFSEL.PTP_OBS_CMD.off (packRec [(8, 3, k), (0, 8, 1)]) = true ∧ valueOk pREFSEL REFSEL.PTP_OBS_CMD.off (packRec [(8, 3, k), (0, 8, 1)])
  = true := ⟨(withRef {} 2 4).put pREFSEL REFSEL.PTP_OBS_AT.INSTANT (instantBits t0.toNat) |>.put pREFSEL REFSEL.PTP_OBS_TEB.TEB_PS 5,
  .bar0 0, 7, by decide +kernel⟩
theorem wit_reference_commands_2 : ∃ s : State, ∃ path : Path, ∃ k : Nat, s.sound = true ∧ k < 8 ∧ s.conflictRef = some k ∧ s.refState k =
  3 ∧ s.get pSERVO SERVO.SERVO_CFG.MODE = 0 ∧ s.servoRuns = true ∧ (.acceptSlew path k : Instr).wf = true ∧ State.passes s path pREFSEL
  REFSEL.SEL_CMD.off (packRec [(8, 3, k), (0, 8, 1)]) = true ∧ valueOk pREFSEL REFSEL.SEL_CMD.off (packRec [(8, 3, k), (0, 8, 1)]) = true
  := ⟨((conflict (withRef {} 3 3)).putFlag pAPLL_M APLL_M.STATUS.LOCKED true |>.put pREFSEL (REFSEL.REF_STATE.STATE 7) 3 |>.put pSERVO
  SERVO.SERVO_CFG.MODE 0), .bar0 0, 7, by decide +kernel⟩
theorem wit_reference_commands_3 : ∃ s : State, ∃ path : Path, ∃ k : Nat, s.sound = true ∧ k < 8 ∧ s.conflictRef = some k ∧ s.refState k =
  3 ∧ s.get pSERVO SERVO.SERVO_CFG.MODE = 0 ∧ s.servoRuns = true ∧ s.flag pSERVO SERVO.STEP_CTL.STEP_ENABLE = true ∧ s.clk.stepNext = none
  ∧ 0 ≤ s.now + s.meanTheta k ∧ s.now + s.meanTheta k < instantLimit ∧ (.acceptStep path k : Instr).wf = true ∧ State.passes s path
  pREFSEL REFSEL.SEL_CMD.off (packRec [(8, 3, k), (0, 8, 2)]) = true ∧ valueOk pREFSEL REFSEL.SEL_CMD.off (packRec [(8, 3, k), (0, 8, 2)])
  = true := ⟨(((conflict (withRef { hist := [anObs 5] } 3 3)).putFlag pSERVO SERVO.STEP_CTL.STEP_ENABLE true).putFlag pAPLL_M
  APLL_M.STATUS.LOCKED true |>.put pREFSEL (REFSEL.REF_STATE.STATE 7) 3 |>.put pSERVO SERVO.SERVO_CFG.MODE 0 |>.putFlag pSERVO
  SERVO.STEP_CTL.STEP_ENABLE true), .bar0 0, 7, by decide +kernel⟩
theorem wit_reference_commands_4 : ∃ s : State, ∃ path : Path, ∃ k : Nat, s.sound = true ∧ k < 8 ∧ s.conflictRef = some k ∧ (.reject path
  k : Instr).wf = true ∧ State.passes s path pREFSEL REFSEL.SEL_CMD.off (packRec [(8, 3, k), (0, 8, 3)]) = true ∧ valueOk pREFSEL
  REFSEL.SEL_CMD.off (packRec [(8, 3, k), (0, 8, 3)]) = true := ⟨conflict (withRef {} 3 3), .bar0 0, 7, by decide +kernel⟩
theorem wit_reference_commands_5 : ∃ s : State, ∃ path : Path, ∃ k : Nat, s.sound = true ∧ k < 8 ∧ s.refState k = 4 ∧ (.clearSuspect path
  k : Instr).wf = true ∧ State.passes s path pREFSEL REFSEL.SEL_CMD.off (packRec [(8, 3, k), (0, 8, 4)]) = true ∧ valueOk pREFSEL
  REFSEL.SEL_CMD.off (packRec [(8, 3, k), (0, 8, 4)]) = true := ⟨(withRef {} 4 3 |>.put pREFSEL (REFSEL.REF_STATE.STATE 7) 4), .bar0 0, 7,
  by decide +kernel⟩
theorem wit_reference_commands_6 : ∃ s : State, ∃ path : Path, ∃ k : Nat, s.sound = true ∧ k < 8 ∧ (s.refState k = 2 ∨ s.refState k = 3) ∧
  (.requalify path k : Instr).wf = true ∧ State.passes s path pREFSEL REFSEL.SEL_CMD.off (packRec [(8, 3, k), (0, 8, 5)]) = true ∧ valueOk
  pREFSEL REFSEL.SEL_CMD.off (packRec [(8, 3, k), (0, 8, 5)]) = true := ⟨withRef {} 3 3, .bar0 0, 7, by decide +kernel⟩
theorem wit_reference_commands_7 : ∃ s : State, ∃ path : Path, s.sound = true ∧ s.secValid = true ∧ s.timeClass s.secRef = true ∧ s.flag
  pREFSEL REFSEL.STATUS.VALID = true ∧ s.get pSERVO SERVO.SERVO_CFG.MODE = 0 ∧ s.servoRuns = true ∧ (.switch path : Instr).wf = true ∧
  State.passes s path pDOMAIN DOMAIN.DOM_CMD.off 1 = true ∧ valueOk pDOMAIN DOMAIN.DOM_CMD.off 1 = true := ⟨(((withRef {} 3 3).put pDOMAIN
  DOMAIN.DOM_CFG.SEC_REF 7 |>.putFlag pDOMAIN DOMAIN.CONTROL.ENABLE true).putFlag pAPLL_M APLL_M.STATUS.LOCKED true |>.putFlag pREFSEL
  REFSEL.STATUS.VALID true |>.put pSERVO SERVO.SERVO_CFG.MODE 0), .bar0 0, by decide +kernel⟩
theorem wit_reference_commands_8 : ∃ s : State, ∃ path : Path, s.sound = true ∧ s.flag pDOMAIN DOMAIN.PATH_EVENT.OPEN = true ∧
  (.pathAccept path : Instr).wf = true ∧ State.passes s path pDOMAIN DOMAIN.DOM_CMD.off 2 = true ∧ valueOk pDOMAIN DOMAIN.DOM_CMD.off 2 =
  true := ⟨(base |>.putFlag pDOMAIN DOMAIN.PATH_EVENT.OPEN true), .bar0 0, by decide +kernel⟩
theorem wit_reference_commands_9 : ∃ s : State, ∃ path : Path, s.sound = true ∧ s.flag pDOMAIN DOMAIN.PATH_EVENT.OPEN = true ∧ (.pathClear
  path : Instr).wf = true ∧ State.passes s path pDOMAIN DOMAIN.DOM_CMD.off 3 = true ∧ valueOk pDOMAIN DOMAIN.DOM_CMD.off 3 = true :=
  ⟨(base |>.putFlag pDOMAIN DOMAIN.PATH_EVENT.OPEN true), .bar0 0, by decide +kernel⟩
theorem wit_observations_0 : ∃ s : State, ∃ k : Nat, ∃ o, ∃ rest, s.sound = true ∧ 3 ≤ s.stage ∧ k < 8 ∧ s.refEnabled k = true ∧ (s.ref
  k).inbox = o :: rest ∧ s.refFrozen k = false ∧ o.path = none ∧ s.flag pDOMAIN DOMAIN.PATH_EVENT.OPEN = false ∧ s.refState k = 1 ∧ (s.ref
  k).hist = [] ∧ s.isSelected k = false ∧ (.refObservation k : Instr).wf = true := ⟨(withRef { inbox := [anObs] } 1 3 |>.putFlag pDOMAIN
  DOMAIN.PATH_EVENT.OPEN false |>.put pREFSEL (REFSEL.REF_STATE.STATE 7) 1), 7, anObs, ([] : List Obs), by decide +kernel⟩
theorem wit_observations_1 : ∃ s : State, ∃ k : Nat, ∃ o, ∃ rest, s.sound = true ∧ 3 ≤ s.stage ∧ k < 8 ∧ s.refEnabled k = true ∧ (s.ref
  k).inbox = o :: rest ∧ s.refFrozen k = false ∧ o.path = none ∧ s.flag pDOMAIN DOMAIN.PATH_EVENT.OPEN = false ∧ s.refState k = 2 ∧
  s.phaseOk k ((s.ref k).hist.take 16) o = true ∧ s.freqOk k ((o :: (s.ref k).hist.take 16).take 16) = true ∧ 15 ≤ (s.ref k).passes ∧
  (s.ref k).dwellSlot + s.get pREFSEL (REFSEL.REF_QUAL.DWELL_S k) * 200000000 ≤ s.clk.slot ∧ s.get pSERVO SERVO.SERVO_CFG.MODE ≠ 0 ∧
  (.refObservation k : Instr).wf = true := ⟨((withRef { inbox := [anObs], hist := sixteen, passes := 15 } 2 3).put pREFSEL
  (REFSEL.REF_QUAL.DWELL_S 7) 0 |>.put pSERVO SERVO.SERVO_CFG.MODE 1 |>.putFlag pDOMAIN DOMAIN.PATH_EVENT.OPEN false |>.put pREFSEL
  (REFSEL.REF_STATE.STATE 7) 2 |>.put pSERVO SERVO.SERVO_CFG.MODE 1), 7, anObs, ([] : List Obs), by decide +kernel⟩
theorem wit_observations_2 : ∃ s : State, ∃ k : Nat, ∃ o, ∃ rest, s.sound = true ∧ 3 ≤ s.stage ∧ k < 8 ∧ s.refEnabled k = true ∧ (s.ref
  k).inbox = o :: rest ∧ s.refFrozen k = false ∧ o.path = none ∧ s.flag pDOMAIN DOMAIN.PATH_EVENT.OPEN = false ∧ s.refState k = 3 ∧
  s.phaseOk k ((s.ref k).hist.take 16) o = false ∧ (.refObservation k : Instr).wf = true := ⟨(withRef
  { inbox := [anObs (10 ^ 12)], hist := sixteen } 3 3 |>.putFlag pDOMAIN DOMAIN.PATH_EVENT.OPEN false |>.put pREFSEL
  (REFSEL.REF_STATE.STATE 7) 3), 7, anObs (10 ^ 12), ([] : List Obs), by decide +kernel⟩
theorem wit_observations_3 : ∃ s : State, ∃ k : Nat, s.sound = true ∧ 3 ≤ s.stage ∧ k < 8 ∧ s.refEnabled k = true ∧ s.presenceFailed k =
  true ∧ (.refPresenceFail k : Instr).wf = true := ⟨{ withRef {} 3 3 with clk := { base.clk with slot := 600000001 } }, 7,
  by decide +kernel⟩
theorem wit_servo_commands_0 : ∃ s : State, ∃ path : Path, ∃ v, s.sound = true ∧ 3 ≤ s.stage ∧ s.get pSERVO SERVO.SERVO_CFG.MODE ≠ bitsOf
  v 1 0 ∧ bitsOf v 1 0 = 1 ∧ s.servoState ≠ 4 ∧ (.servoModeWrite path v : Instr).wf = true ∧ State.passes s path pSERVO
  SERVO.SERVO_CFG.off v = true ∧ valueOk pSERVO SERVO.SERVO_CFG.off v = true := ⟨base, .bar0 0, 0xFF01, by decide +kernel⟩
theorem wit_servo_commands_1 : ∃ s : State, ∃ path : Path, ∃ v, s.sound = true ∧ 3 ≤ s.stage ∧ s.get pSERVO SERVO.SERVO_CFG.MODE ≠ bitsOf
  v 1 0 ∧ bitsOf v 1 0 = 2 ∧ s.servoState ≠ 3 ∧ (.servoModeWrite path v : Instr).wf = true ∧ State.passes s path pSERVO
  SERVO.SERVO_CFG.off v = true ∧ valueOk pSERVO SERVO.SERVO_CFG.off v = true := ⟨base, .bar0 0, 0x1002, by decide +kernel⟩
theorem wit_servo_commands_2 : ∃ s : State, ∃ path : Path, s.sound = true ∧ s.flag pSERVO SERVO.STEP_CTL.STEP_ENABLE = true ∧
  s.clk.stepNext = none ∧ s.getSpan pSERVO SERVO.STEP_SPAN.SPAN ≠ 0 ∧ 0 ≤ s.now + s.getSpan pSERVO SERVO.STEP_SPAN.SPAN ∧ s.now +
  s.getSpan pSERVO SERVO.STEP_SPAN.SPAN < instantLimit ∧ (.step path : Instr).wf = true ∧ State.passes s path pSERVO SERVO.STEP_CMD.off 1
  = true ∧ valueOk pSERVO SERVO.STEP_CMD.off 1 = true := ⟨(base.put pSERVO SERVO.STEP_SPAN.SPAN (spanBits 1) |>.putFlag pSERVO
  SERVO.STEP_CTL.STEP_ENABLE true), .bar0 0, by decide +kernel⟩
theorem wit_servo_commands_3 : ∃ s : State, ∃ path : Path, s.sound = true ∧ s.flag pSERVO SERVO.STEP_CTL.STEP_ENABLE = true ∧
  s.clk.stepNext = none ∧ s.flag pSERVO SERVO.STATUS.STEP_PROPOSED = true ∧ s.getSpan pSERVO SERVO.PROPOSED.SPAN ≠ 0 ∧ 0 ≤ s.now +
  s.getSpan pSERVO SERVO.PROPOSED.SPAN ∧ s.now + s.getSpan pSERVO SERVO.PROPOSED.SPAN < instantLimit ∧ (.stepProposed path : Instr).wf =
  true ∧ State.passes s path pSERVO SERVO.STEP_CMD.off 2 = true ∧ valueOk pSERVO SERVO.STEP_CMD.off 2 = true := ⟨(base.put pSERVO
  SERVO.PROPOSED.SPAN (spanBits (-1)) |>.putFlag pSERVO SERVO.STEP_CTL.STEP_ENABLE true |>.putFlag pSERVO SERVO.STATUS.STEP_PROPOSED
  true), .bar0 0, by decide +kernel⟩
theorem wit_servo_commands_4 : ∃ s : State, ∃ path : Path, s.sound = true ∧ s.flag pSERVO SERVO.STATUS.STEP_PROPOSED = true ∧
  (.slewProposed path : Instr).wf = true ∧ State.passes s path pSERVO SERVO.STEP_CMD.off 3 = true ∧ valueOk pSERVO SERVO.STEP_CMD.off 3 =
  true := ⟨(base |>.putFlag pSERVO SERVO.STATUS.STEP_PROPOSED true), .bar0 0, by decide +kernel⟩
theorem wit_servo_commands_5 : ∃ s : State, s.sound = true ∧ s.slewEndDue = true ∧ (.slewEnd : Instr).wf = true := ⟨base.putFlag pSERVO
  SERVO.STATUS.SLEWING true, by decide +kernel⟩
theorem wit_synthesizer_0 : ∃ s : State, ∃ path : Path, ∃ v, s.sound = true ∧ bitOf v 31 = true ∧ bitOf v 30 = false ∧ s.flag pAPLL_A
  APLL_A.CONTROL.ENABLE = false ∧ 2 ≤ s.stage ∧ s.flag pAPLL_A APLL_A.REF_CFG.REF_SRC = false ∧ s.pfdOk = true ∧ s.vcoOk s.targetN = true
  ∧ s.ceilUpTo s.targetN false = true ∧ (.apllAEnable path v : Instr).wf = true ∧ State.passes s path pAPLL_A 0x014 v = true ∧ valueOk
  pAPLL_A 0x014 v = true := ⟨((withApll 0 140).setOwner 15 pAPLL_A 1 |>.putFlag pAPLL_A APLL_A.CONTROL.ENABLE false |>.putFlag pAPLL_A
  APLL_A.REF_CFG.REF_SRC false), .bar0 0, 2 ^ 31, by decide +kernel⟩
theorem wit_synthesizer_1 : ∃ s : State, ∃ path : Path, s.sound = true ∧ (s.apllaState = 2 ∨ s.apllaState = 3) ∧ s.auxForeign = none ∧
  s.flag pAPLL_A APLL_A.SSC_CFG.SSC_EN = false ∧ s.vcoOk s.targetN = true ∧ within2 s.nNow s.targetN = true ∧ steepOk s.nNow s.targetN
  (s.get pAPLL_A APLL_A.RAMP_US.US) = true ∧ s.ceilUpTo (max s.nNow s.targetN) true = true ∧ (.freqCmdSet path : Instr).wf = true ∧
  State.passes s path pAPLL_A APLL_A.FREQ_CMD.off 1 = true ∧ valueOk pAPLL_A APLL_A.FREQ_CMD.off 1 = true := ⟨((withApll 2 140) |>.putFlag
  pAPLL_A APLL_A.SSC_CFG.SSC_EN false), .bar0 0, by decide +kernel⟩
theorem wit_synthesizer_2 : ∃ s : State, ∃ path : Path, s.sound = true ∧ (s.apllaState = 2 ∨ s.apllaState = 3) ∧ s.auxForeign = none ∧
  s.flag pAPLL_A APLL_A.SSC_CFG.SSC_EN = false ∧ s.vcoOk s.targetN = true ∧ within2 s.nNow s.targetN = false ∧ s.ceilUpTo (max s.nNow
  s.targetN) false = true ∧ s.bypassShort s.nNow s.targetN = false ∧ (.freqCmdSet path : Instr).wf = true ∧ State.passes s path pAPLL_A
  APLL_A.FREQ_CMD.off 1 = true ∧ valueOk pAPLL_A APLL_A.FREQ_CMD.off 1 = true := ⟨(withApll 2 150 |>.putFlag pAPLL_A APLL_A.SSC_CFG.SSC_EN
  false), .bar0 0, by decide +kernel⟩
theorem wit_synthesizer_3 : ∃ s : State, ∃ path : Path, s.sound = true ∧ (s.apllaState = 2 ∨ s.apllaState = 3) ∧ s.auxForeign = none ∧
  s.flag pAPLL_A APLL_A.SSC_CFG.SSC_EN = false ∧ (∀ k, k < s.get pAPLL_A APLL_A.PROFILE_CTL.LEN → within2 s.nNow (s.point k).1 = true ∧
  s.vcoOk (s.point k).1 = true) ∧ segmentsOk s.nNow ((List.range (s.get pAPLL_A APLL_A.PROFILE_CTL.LEN)).map s.point ++ (if s.get pAPLL_A
  APLL_A.PROFILE_CTL.LOOPS = 1 then [] else ((List.range (s.get pAPLL_A APLL_A.PROFILE_CTL.LEN)).map s.point).take 1)) = true ∧ s.ceilUpTo
  (((List.range (s.get pAPLL_A APLL_A.PROFILE_CTL.LEN)).map s.point).foldl (fun a p => max a p.1) s.nNow) true = true ∧ (.runProfile path
  : Instr).wf = true ∧ State.passes s path pAPLL_A APLL_A.FREQ_CMD.off 2 = true ∧ valueOk pAPLL_A APLL_A.FREQ_CMD.off 2 = true :=
  ⟨((withApll 2 140).put pAPLL_A APLL_A.PROFILE_CTL.LEN 1 |>.put pAPLL_A APLL_A.PROFILE_CTL.LOOPS 1 |>.put pAPLL_A
  (APLL_A.PROFILE_INT.N_INT 0) 140 |>.put pAPLL_A (APLL_A.PROFILE_US.US 0) 1 |>.putFlag pAPLL_A APLL_A.SSC_CFG.SSC_EN false), .bar0 0,
  by decide +kernel⟩
theorem wit_synthesizer_4 : ∃ s : State, ∃ path : Path, s.sound = true ∧ (s.apllaState = 2 ∨ s.apllaState = 3) ∧ s.auxForeign = none ∧
  (.relock path : Instr).wf = true ∧ State.passes s path pAPLL_A APLL_A.FREQ_CMD.off 4 = true ∧ valueOk pAPLL_A APLL_A.FREQ_CMD.off 4 =
  true := ⟨withApll 2 140, .bar0 0, by decide +kernel⟩
theorem wit_synthesizer_5 : ∃ s : State, ∃ path : Path, s.sound = true ∧ s.aplla.ramp ≠ none ∧ (.abortRamp path : Instr).wf = true ∧
  State.passes s path pAPLL_A APLL_A.FREQ_CMD.off 3 = true ∧ valueOk pAPLL_A APLL_A.FREQ_CMD.off 3 = true := ⟨withApll 3 140
  { ramp := some ⟨140 * 2 ^ 32, 141 * 2 ^ 32, 40000000, 10 ^ 6⟩ }, .bar0 0, by decide +kernel⟩
theorem wit_synthesizer_6 : ∃ s : State, ∃ c : Nat, s.sound = true ∧ s.aplla.refLost = false ∧ (s.apllaState = 1 ∨ s.apllaState = 4) ∧ ((c
  : Int) - (2 ^ s.get pAPLL_A APLL_A.LOCK_CFG.WINDOW_LOG2 : Nat)).natAbs ≤ s.get pAPLL_A APLL_A.LOCK_CFG.TOLERANCE ∧ s.get pAPLL_A
  APLL_A.LOCK_CFG.WINDOWS ≤ s.aplla.passes + 1 ∧ (.apllLockWindow true c : Instr).wf = true := ⟨(withApll 1 140 { passes := 3 }).put
  pAPLL_A APLL_A.LOCK_CFG.WINDOW_LOG2 16 |>.put pAPLL_A APLL_A.LOCK_CFG.TOLERANCE 2 |>.put pAPLL_A APLL_A.LOCK_CFG.WINDOWS 4, 65538,
  by decide +kernel⟩
theorem wit_synthesizer_7 : ∃ s : State, ∃ c : Nat, s.sound = true ∧ s.aplla.refLost = false ∧ (s.apllaState = 2 ∨ s.apllaState = 3) ∧
  s.get pAPLL_A APLL_A.LOCK_CFG.TOLERANCE < ((c : Int) - (2 ^ s.get pAPLL_A APLL_A.LOCK_CFG.WINDOW_LOG2 : Nat)).natAbs ∧ (.apllLockWindow
  true c : Instr).wf = true := ⟨withApll 2 140, 0, by decide +kernel⟩
theorem wit_synthesizer_8 : ∃ s : State, ∃ r, s.sound = true ∧ s.aplla.ramp = some r ∧ r.slot + r.us * 200 ≤ s.clk.slot ∧ s.aplla.profile
  = false ∧ (.rampEnd : Instr).wf = true := ⟨withApll 3 140 { ramp := some ⟨140 * 2 ^ 32, 141 * 2 ^ 32, 39999800, 1⟩ }, (⟨140 * 2 ^ 32,
  141 * 2 ^ 32, 39999800, 1⟩ : Ramp), by decide +kernel⟩
theorem wit_synthesizer_9 : ∃ s : State, ∃ r, s.sound = true ∧ s.aplla.ramp = some r ∧ r.slot + r.us * 200 ≤ s.clk.slot ∧ s.aplla.profile
  = true ∧ s.get pAPLL_A APLL_A.PROFILE_POS.POINT + 1 < s.aplla.points.length ∧ s.aplla.points.length ≤ 32 ∧ (.rampEnd : Instr).wf = true
  := ⟨withApll 3 140
  { ramp := some ⟨140 * 2 ^ 32, 141 * 2 ^ 32, 39999800, 1⟩, profile := true, points := [(140 * 2 ^ 32, 1), (141 * 2 ^ 32, 1)] }, (⟨140 * 2
  ^ 32, 141 * 2 ^ 32, 39999800, 1⟩ : Ramp), by decide +kernel⟩
theorem wit_synthesizer_10 : ∃ s : State, s.sound = true ∧ s.aplla.profileDone = true ∧ (.profileDone : Instr).wf = true := ⟨withApll 3
  140 { profileDone := true }, by decide +kernel⟩
theorem wit_synthesizer_11 : ∃ s : State, s.sound = true ∧ s.sscDue = true ∧ (.sscChange : Instr).wf = true := ⟨(withApll 2 140).putFlag
  pAPLL_A APLL_A.SSC_CFG.SSC_EN true, by decide +kernel⟩
theorem wit_aux_outputs_0 : ∃ s : State, ∃ path : Path, ∃ n : Nat, ∃ v, s.sound = true ∧ n < 8 ∧ bitOf v 31 = true ∧ bitOf v 30 = false ∧
  s.auxOn n = false ∧ 2 ≤ s.stage ∧ s.ceilings [n] = true ∧ (.auxEnable path n v : Instr).wf = true ∧ State.passes s path (pAUX n) 0x014 v
  = true ∧ valueOk (pAUX n) 0x014 v = true := ⟨(withApll 2 140).setOwner 7 7 1, .bar0 0, 7, 2 ^ 31, by decide +kernel⟩
theorem wit_aux_outputs_1 : ∃ s : State, ∃ n : Nat, s.sound = true ∧ n < 8 ∧ (s.aux n).running = true ∧ (s.aux n).bypass = false ∧ (s.aux
  n).endAt * 2 ^ 64 ≤ s.aplla.phase ∧ s.auxOn n = true ∧ s.apllaLocked = true ∧ (s.aux n).safe = [] ∧ (s.aux n).restart = false ∧ s.get
  (pAUX n) AUX.DIV.DIV ≠ 0 ∧ s.marksBy n (s.cycle32 (s.aux n).endAt) = [] ∧ (.auxPeriodEnd n : Instr).wf = true := ⟨(withAux
  { running := true } true |>.put (pAUX 7) AUX.DIV.DIV 1), 7, by decide +kernel⟩
theorem wit_aux_outputs_2 : ∃ s : State, ∃ n : Nat, s.sound = true ∧ n < 8 ∧ (s.aux n).running = true ∧ (s.aux n).bypass = false ∧ (s.aux
  n).endAt * 2 ^ 64 ≤ s.aplla.phase ∧ s.auxOn n = true ∧ s.apllaLocked = true ∧ (s.aux n).safe = [] ∧ (s.aux n).restart = true ∧
  (.auxPeriodEnd n : Instr).wf = true := ⟨withAux { running := true, restart := true } true, 7, by decide +kernel⟩
theorem wit_aux_outputs_3 : ∃ s : State, ∃ n : Nat, s.sound = true ∧ n < 8 ∧ (s.aux n).running = true ∧ (s.aux n).bypass = false ∧ (s.aux
  n).endAt * 2 ^ 64 ≤ s.aplla.phase ∧ s.auxOn n = false ∧ (.auxPeriodEnd n : Instr).wf = true := ⟨withAux { running := true } false, 7,
  by decide +kernel⟩
theorem wit_aux_outputs_4 : ∃ s : State, ∃ n : Nat, s.sound = true ∧ n < 8 ∧ (s.aux n).running = true ∧ (s.aux n).bypass = false ∧ (s.aux
  n).endAt * 2 ^ 64 ≤ s.aplla.phase ∧ s.auxOn n = true ∧ (s.aux n).safe = [] ∧ (s.apllaState = 1 ∨ s.apllaState = 4) ∧ (.auxPeriodEnd n :
  Instr).wf = true := ⟨withAux { running := true } true |>.put pAPLL_A APLL_A.STATUS.STATE 4, 7, by decide +kernel⟩
theorem wit_aux_outputs_5 : ∃ s : State, ∃ n : Nat, ∃ c, s.sound = true ∧ n < 8 ∧ (s.aux n).running = false ∧ (s.aux n).startAt = some c ∧
  c * 2 ^ 64 ≤ s.aplla.phase ∧ s.apllaLocked = true ∧ s.auxOn n = true ∧ (s.aux n).safe = [] ∧ s.marksBy n s.now32 = [] ∧ s.marksBy n
  (s.cycle32 c) = [] ∧ (.auxPeriodEnd n : Instr).wf = true := ⟨withAux { startAt := some 0 } true, 7, 0, by decide +kernel⟩
theorem wit_aux_outputs_6 : ∃ s : State, ∃ path : Path, ∃ n : Nat, s.sound = true ∧ n < 8 ∧ (s.aux n).safe ≠ [] ∧ (s.aux n).safe.all (fun
  x => s.causeCleared 0 x) = true ∧ (.auxSafeExit path n : Instr).wf = true ∧ State.passes s path (pAUX n) 0x014 (s.controlWith (pAUX n)
  30) = true ∧ valueOk (pAUX n) 0x014 (s.controlWith (pAUX n) 30) = true := ⟨(withAux { safe := [.forced] } true).setOwner 7 7 1, .bar0 0,
  7, by decide +kernel⟩
theorem wit_ridge_cells_0 : ∃ s : State, ∃ p : Nat, s.sound = true ∧ p < 6 ∧ s.cellDue p = true ∧ (.ridgeSlotTx p : Instr).wf = true :=
  ⟨withPort {} 3 0, 5, by decide +kernel⟩
theorem wit_ridge_cells_1 : ∃ s : State, ∃ p : Nat, s.sound = true ∧ p < 6 ∧ s.rdgOn p = true ∧ (s.link p = 0 ∨ s.link p = 1 ∨ s.link p =
  4) ∧ (.ridgeBlockLock p : Instr).wf = true := ⟨withPort {} 1 0, 5, by decide +kernel⟩
theorem wit_ridge_cells_2 : ∃ s : State, ∃ p : Nat, s.sound = true ∧ p < 6 ∧ s.hears p = true ∧ (.fillCellRx p : Instr).wf = true :=
  ⟨withPort { good := 71 } 2 0, 5, by decide +kernel⟩
theorem wit_ridge_cells_3 : ∃ s : State, ∃ p : Nat, s.sound = true ∧ p < 6 ∧ s.hears p = true ∧ (.cellDrop p true : Instr).wf = true :=
  ⟨withPort {} 3 0, 5, by decide +kernel⟩
theorem wit_ridge_cells_4 : ∃ s : State, ∃ p : Nat, s.sound = true ∧ p < 6 ∧ s.hears p = true ∧ (.cellDrop p false : Instr).wf = true :=
  ⟨withPort {} 3 0, 5, by decide +kernel⟩
theorem wit_ridge_cells_5 : ∃ s : State, ∃ p : Nat, s.sound = true ∧ p < 6 ∧ s.link p = 2 ∧ (.ridgeLinkLost p : Instr).wf = true :=
  ⟨withPort {} 2 0, 5, by decide +kernel⟩
theorem wit_ridge_cells_6 : ∃ s : State, ∃ p : Nat, s.sound = true ∧ p < 6 ∧ (s.link p = 1 ∨ s.link p = 4) ∧ (.ridgeLinkLost p : Instr).wf
  = true := ⟨withPort {} 1 0, 5, by decide +kernel⟩
theorem wit_ridge_cells_7 : ∃ s : State, ∃ p : Nat, s.sound = true ∧ p < 6 ∧ s.linkIsUp p = true ∧ (.ridgeLinkLost p : Instr).wf = true :=
  ⟨withPort { trigs := [aTrig] } 3 0, 5, by decide +kernel⟩
theorem wit_ridge_cells_8 : ∃ s : State, ∃ p : Nat, ∃ c : TimeCell, s.sound = true ∧ p < 6 ∧ s.linkIsUp p = true ∧ s.rdgOn p = true ∧
  c.domain = s.domainNum ∧ (.timeCellRx p c : Instr).wf = true := ⟨withPort {} 3 0, 5, aTime 0, by decide +kernel⟩
theorem wit_ridge_cells_9 : ∃ s : State, ∃ p : Nat, ∃ c : TimeCell, s.sound = true ∧ p < 6 ∧ s.hears p = true ∧ c.domain ≠ s.domainNum ∧
  (.timeCellRx p c : Instr).wf = true := ⟨withPort {} 3 0, 5, aTime 255, by decide +kernel⟩
theorem wit_ridge_cells_10 : ∃ s : State, ∃ p : Nat, s.sound = true ∧ p < 6 ∧ s.rdgObsDue p = true ∧ (.ridgeObsInterval p : Instr).wf =
  true := ⟨{ withPort {} 3 0 with clk := { base.clk with slot := 4000000000 } }, 5, by decide +kernel⟩
theorem wit_ridge_triggers_0 : ∃ s : State, ∃ path, (∀ k, s.ridge.lastIssue = some k → k + 200 ≤ s.clk.slot) ∧ s.sound = true ∧
  s.atLeastNs (s.getInst (pRDG 0) RDG.TRIG_ISSUE_AT.INSTANT) (s.get (pRDG 0) RDG.TRIG_LEAD.NS) = true ∧ (∃ p, p < 6 ∧ s.rdgOn p = true) ∧
  (.issue path 0 : Instr).wf = true ∧ State.passes s path (pRDG 0) RDG.TRIG_CMD.off 1 = true ∧ valueOk (pRDG 0) RDG.TRIG_CMD.off 1 = true
  := ⟨(withPort {} 3 0).put (pRDG 0) RDG.TRIG_ISSUE_AT.INSTANT (instantBits (t0 + 10 ^ 15).toNat) |>.setOwner 15 (pRDG 0) 1, .bar0 0,
  none_holds (by decide +kernel), by decide +kernel⟩
theorem wit_ridge_triggers_1 : ∃ s : State, ∃ p : Nat, ∃ c : TrigCell, s.sound = true ∧ p < 6 ∧ s.rdgOn p = true ∧ s.linkIsUp p = true ∧
  c.domain = s.domainNum ∧ c.upward = false ∧ s.rdgRole p = 1 ∧ c.src ≠ s.nodeId ∧ (c.src, c.seq) ∉ s.ridge.seen ∧ s.forMe c.scope c.dst =
  true ∧ s.atLeastNs c.execAt 1024 = true ∧ c.hops < 63 ∧ (.trigCellRx p c : Instr).wf = true := ⟨withPort {} 3 1, 5, aTrig,
  by decide +kernel⟩
theorem wit_ridge_triggers_2 : ∃ s : State, ∃ p : Nat, ∃ c : TrigCell, s.sound = true ∧ p < 6 ∧ s.rdgOn p = true ∧ s.linkIsUp p = true ∧
  c.domain = s.domainNum ∧ c.upward = false ∧ s.rdgRole p = 1 ∧ c.src ≠ s.nodeId ∧ (c.src, c.seq) ∉ s.ridge.seen ∧ s.forMe c.scope c.dst =
  true ∧ s.atLeastNs c.execAt 1024 = false ∧ s.downPorts = [] ∧ (.trigCellRx p c : Instr).wf = true := ⟨withPort {} 3 1, 5,
  ({ aTrig with execAt := t0.toNat } : TrigCell), by decide +kernel⟩
theorem wit_ridge_triggers_3 : ∃ s : State, ∃ p : Nat, ∃ c : TrigCell, s.sound = true ∧ p < 6 ∧ s.rdgOn p = true ∧ s.linkIsUp p = true ∧
  c.domain = s.domainNum ∧ c.upward = false ∧ s.rdgRole p = 1 ∧ c.src ≠ s.nodeId ∧ (c.src, c.seq) ∈ s.ridge.seen ∧ (.trigCellRx p c :
  Instr).wf = true := ⟨withPort {} 3 1 { seen := [(1, 0)] }, 5, aTrig, by decide +kernel⟩
theorem wit_remote_access_0 : ∃ s : State, ∃ path : Path, ∃ id : Nat, ∃ key : Nat, s.sound = true ∧ s.isRoot = true ∧ s.ridgeKey (s.flag
  (pRDG 0) RDG.MGMT_DST.KEY_SEL) = some (id, key) ∧ s.ridge.request = none ∧ s.get (pRDG 0) RDG.COUNTER.COUNTER % 2 ^ 32 ≠ 2 ^ 32 - 1 ∧
  (.mgmtRead32 path 0 : Instr).wf = true ∧ State.passes s path (pRDG 0) RDG.MGMT_CMD.off 1 = true ∧ valueOk (pRDG 0) RDG.MGMT_CMD.off 1 =
  true := ⟨aRoot, .bar0 0, 9, 0, by decide +kernel⟩
theorem wit_remote_access_1 : ∃ s : State, ∃ path : Path, ∃ id : Nat, ∃ key : Nat, s.sound = true ∧ s.isRoot = true ∧ s.ridgeKey (s.flag
  (pRDG 0) RDG.MGMT_DST.KEY_SEL) = some (id, key) ∧ s.ridge.request = none ∧ s.get (pRDG 0) RDG.COUNTER.COUNTER % 2 ^ 32 ≠ 2 ^ 32 - 1 ∧
  (.mgmtWrite32 path 0 : Instr).wf = true ∧ State.passes s path (pRDG 0) RDG.MGMT_CMD.off 2 = true ∧ valueOk (pRDG 0) RDG.MGMT_CMD.off 2 =
  true := ⟨aRoot, .bar0 0, 9, 0, by decide +kernel⟩
theorem wit_remote_access_2 : ∃ s : State, ∃ path : Path, ∃ id : Nat, ∃ key : Nat, s.sound = true ∧ s.isRoot = true ∧ s.ridgeKey (s.flag
  (pRDG 0) RDG.MGMT_DST.KEY_SEL) = some (id, key) ∧ s.ridge.request = none ∧ s.get (pRDG 0) RDG.COUNTER.COUNTER % 2 ^ 32 ≠ 2 ^ 32 - 1 ∧
  (.mgmtRead128 path 0 : Instr).wf = true ∧ State.passes s path (pRDG 0) RDG.MGMT_CMD.off 3 = true ∧ valueOk (pRDG 0) RDG.MGMT_CMD.off 3 =
  true := ⟨aRoot, .bar0 0, 9, 0, by decide +kernel⟩
theorem wit_remote_access_3 : ∃ s : State, ∃ path : Path, ∃ id : Nat, ∃ key : Nat, s.sound = true ∧ s.isRoot = true ∧ s.ridgeKey (s.flag
  (pRDG 0) RDG.MGMT_DST.KEY_SEL) = some (id, key) ∧ s.ridge.request = none ∧ s.get (pRDG 0) RDG.COUNTER.COUNTER % 2 ^ 32 ≠ 2 ^ 32 - 1 ∧
  (.mgmtWrite128 path 0 : Instr).wf = true ∧ State.passes s path (pRDG 0) RDG.MGMT_CMD.off 4 = true ∧ valueOk (pRDG 0) RDG.MGMT_CMD.off 4
  = true := ⟨aRoot, .bar0 0, 9, 0, by decide +kernel⟩
theorem wit_remote_access_4 : ∃ s : State, s.sound = true ∧ s.mgmtLate = true ∧ (.mgmtTimeout : Instr).wf = true := ⟨aRoot (some (0, 1,
  38000000)), by decide +kernel⟩
theorem wit_remote_access_5 : ∃ s : State, ∃ p : Nat, ∃ c : MgmtCell, ∃ key : Nat, ∃ op, ∃ k, s.sound = true ∧ p < 6 ∧ s.rdgOn p = true ∧
  s.linkIsUp p = true ∧ c.domain = s.domainNum ∧ s.tagKey { c with upward := true } = some key ∧ s.rdgRole p = 0 ∧ s.isRoot = true ∧
  s.ridge.request = some (c.counter, op, k) ∧ c.op = op + 128 ∧ (.mgmtResponseRx p c : Instr).wf = true := ⟨aRoot (some (0, 1, 0)), 5,
  aTagged 129 0 1 0 7 true, 0, 1, 0, by decide +kernel⟩
theorem wit_remote_access_6 : ∃ s : State, ∃ p : Nat, ∃ c : MgmtCell, s.sound = true ∧ p < 6 ∧ s.rdgOn p = true ∧ s.linkIsUp p = true ∧
  c.domain = s.domainNum ∧ s.rdgRole p = 1 ∧ c.scope = 0 ∧ c.dst = s.nodeId ∧ c.src ≠ s.nodeId ∧ s.downPorts = [] ∧ s.upPort = some p ∧
  s.tagKey { c with upward := false } = none ∧ (.mgmtRequestRx p c : Instr).wf = true := ⟨aNode, 5, aMgmt 1 0 1 0 7, by decide +kernel⟩
theorem wit_remote_access_7 : ∃ s : State, ∃ p : Nat, ∃ c : MgmtCell, ∃ key : Nat, s.sound = true ∧ p < 6 ∧ s.rdgOn p = true ∧ s.linkIsUp
  p = true ∧ c.domain = s.domainNum ∧ s.rdgRole p = 1 ∧ c.scope = 0 ∧ c.dst = s.nodeId ∧ c.src ≠ s.nodeId ∧ s.downPorts = [] ∧ s.upPort =
  some p ∧ s.tagKey { c with upward := false } = some key ∧ (∃ h, s.ridge.highest = some h ∧ c.counter ≤ h) ∧ (.mgmtRequestRx p c :
  Instr).wf = true := ⟨{ aNode with ridge := { aNode.ridge with highest := some 0 } }, 5, aTagged 1 0 1 0 7, 0, by decide +kernel⟩
theorem wit_remote_access_8 : ∃ s : State, ∃ p : Nat, ∃ c : MgmtCell, ∃ key : Nat, (∀ h, s.ridge.highest = some h → h < c.counter) ∧
  s.sound = true ∧ p < 6 ∧ s.rdgOn p = true ∧ s.linkIsUp p = true ∧ c.domain = s.domainNum ∧ s.rdgRole p = 1 ∧ c.scope = 0 ∧ c.dst =
  s.nodeId ∧ c.src ≠ s.nodeId ∧ s.downPorts = [] ∧ s.upPort = some p ∧ s.tagKey { c with upward := false } = some key ∧
  s.flash.settings.counterHi ≤ c.counter / 2 ^ 32 ∧ s.flag pOWN OWN.REMOTE_CTL.REMOTE_ENABLE = false ∧ (.mgmtRequestRx p c : Instr).wf =
  true := ⟨(aNode |>.putFlag pOWN OWN.REMOTE_CTL.REMOTE_ENABLE false), 5, aTagged 1 0 1 0 7, 0, none_holds (by decide +kernel),
  by decide +kernel⟩
theorem wit_remote_access_9 : ∃ s : State, ∃ p : Nat, ∃ c : MgmtCell, ∃ key : Nat, (∀ h, s.ridge.highest = some h → h < c.counter) ∧
  s.sound = true ∧ p < 6 ∧ s.rdgOn p = true ∧ s.linkIsUp p = true ∧ c.domain = s.domainNum ∧ s.rdgRole p = 1 ∧ c.scope = 0 ∧ c.dst =
  s.nodeId ∧ c.src ≠ s.nodeId ∧ s.downPorts = [] ∧ s.upPort = some p ∧ s.tagKey { c with upward := false } = some key ∧
  s.flash.settings.counterHi ≤ c.counter / 2 ^ 32 ∧ s.flag pOWN OWN.REMOTE_CTL.REMOTE_ENABLE = true ∧ c.op = 2 ∧ c.offset = 0x01C ∧
  s.passes .remote c.page 0x01C (c.data % 2 ^ 32) = true ∧ valueOk c.page 0x01C (c.data % 2 ^ 32) = true ∧ (.mgmtRequestRx p c : Instr).wf
  = true := ⟨(aNode.putFlag pOWN OWN.REMOTE_CTL.REMOTE_ENABLE true |>.putFlag pOWN OWN.REMOTE_CTL.REMOTE_ENABLE true), 5, aTagged 2 0 1
  pSERVO (2 ^ 32 - 1), 0, none_holds (by decide +kernel), by decide +kernel⟩
theorem wit_ethernet_ports_0 : ∃ s : State, ∃ p : Nat, ∃ path, ∃ v, s.sound = true ∧ p < 2 ∧ (v + 2 ^ 32 - s.get (pETH p)
  ETH.TXR_DEV_IDX.DEV_IDX) % 2 ^ 32 ≤ 2 ^ s.get (pETH p) ETH.TXR_CFG.LOG2_ENTRIES ∧ (.ethDoorbell path p false v : Instr).wf = true ∧
  State.passes s path (pETH p) ETH.TXR_DOORBELL.off v = true ∧ valueOk (pETH p) ETH.TXR_DOORBELL.off v = true := ⟨base, 1, .bar0 0, 64,
  by decide +kernel⟩
theorem wit_ethernet_ports_1 : ∃ s : State, ∃ p : Nat, ∃ path, ∃ v, s.sound = true ∧ p < 2 ∧ (v + 2 ^ 32 - s.get (pETH p)
  ETH.RXR_DEV_IDX.DEV_IDX) % 2 ^ 32 ≤ 2 ^ s.get (pETH p) ETH.RXR_CFG.LOG2_ENTRIES ∧ (.ethDoorbell path p true v : Instr).wf = true ∧
  State.passes s path (pETH p) ETH.RXR_DOORBELL.off v = true ∧ valueOk (pETH p) ETH.RXR_DOORBELL.off v = true := ⟨base, 1, .bar0 0, 64,
  by decide +kernel⟩
theorem wit_ethernet_ports_2 : ∃ s : State, ∃ p : Nat, ∃ f : TxFrame, s.sound = true ∧ p < 2 ∧ s.txReady p = true ∧ 60 ≤ f.length ∧
  f.length ≤ 9216 ∧ s.flag (pETH p) ETH.STATUS.LINK_UP = true ∧ f.oneStep = false ∧ f.tsReq = false ∧ (.ethFrameTx p f : Instr).wf = true
  := ⟨(ethUp.put (pETH 1) ETH.TXR_DOORBELL.HOST_IDX 1 |>.putFlag (pETH 1) ETH.STATUS.LINK_UP true), 1, (⟨0, 60, false, false,
  List.replicate 60 0, 0, 0⟩ : TxFrame), by decide +kernel⟩
theorem wit_ethernet_ports_3 : ∃ s : State, ∃ p : Nat, ∃ f : TxFrame, s.sound = true ∧ p < 2 ∧ s.txReady p = true ∧ s.flag (pETH p)
  ETH.STATUS.LINK_UP = false ∧ (.ethFrameTx p f : Instr).wf = true := ⟨(ethUp.put (pETH 1) ETH.TXR_DOORBELL.HOST_IDX 1 |>.putFlag (pETH 1)
  ETH.STATUS.LINK_UP false |>.putFlag (pETH 1) ETH.STATUS.LINK_UP false), 1, (⟨0, 60, false, false, List.replicate 60 0, 0, 0⟩ : TxFrame),
  by decide +kernel⟩
theorem wit_ethernet_ports_4 : ∃ s : State, ∃ p : Nat, ∃ e, ∃ pos, s.sound = true ∧ p < 2 ∧ (s.eth p).sent = [e] ∧ e.wants = true ∧
  s.txRuns p = true ∧ (.ethTxStamp p pos : Instr).wf = true := ⟨ethUp { sent := [⟨0, 60, 0, none, true⟩] }, 1, (⟨0, 60, 0, none, true⟩ :
  TxElem), 0, by decide +kernel⟩
theorem wit_ethernet_ports_5 : ∃ s : State, ∃ p : Nat, ∃ f : RxFrame, s.sound = true ∧ p < 2 ∧ s.flag (pETH p) ETH.CONTROL.ENABLE = true ∧
  s.flag (pETH p) ETH.STATUS.LINK_UP = true ∧ f.fcsOk = true ∧ s.ethPasses p f.bytes = true ∧ s.rxRuns p = true ∧ f.bytes.length ≤ s.get
  (pETH p) ETH.RXR_CFG.BUF_SIZE ∧ s.get (pETH p) ETH.RXR_DEV_IDX.DEV_IDX ≠ s.get (pETH p) ETH.RXR_DOORBELL.HOST_IDX ∧ (.ethFrameRx p f :
  Instr).wf = true := ⟨(ethUp.put (pETH 1) ETH.RXR_DOORBELL.HOST_IDX 1 |>.putFlag (pETH 1) ETH.CONTROL.ENABLE true |>.putFlag (pETH 1)
  ETH.STATUS.LINK_UP true), 1, (⟨List.replicate 60 0, true, 0, 0, 0⟩ : RxFrame), by decide +kernel⟩
theorem wit_ethernet_ports_6 : ∃ s : State, ∃ p : Nat, ∃ f : RxFrame, s.sound = true ∧ p < 2 ∧ s.flag (pETH p) ETH.CONTROL.ENABLE = true ∧
  s.flag (pETH p) ETH.STATUS.LINK_UP = true ∧ f.fcsOk = false ∧ (.ethFrameRx p f : Instr).wf = true := ⟨(ethUp |>.putFlag (pETH 1)
  ETH.CONTROL.ENABLE true |>.putFlag (pETH 1) ETH.STATUS.LINK_UP true), 1, (⟨List.replicate 60 0, false, 0, 0, 0⟩ : RxFrame),
  by decide +kernel⟩
theorem wit_ethernet_ports_7 : ∃ s : State, ∃ p : Nat, ∃ up, s.sound = true ∧ p < 2 ∧ s.flag (pETH p) ETH.CONTROL.ENABLE = true ∧ s.flag
  (pETH p) ETH.STATUS.LINK_UP ≠ up ∧ (.ethLinkChange p up : Instr).wf = true := ⟨(ethUp |>.putFlag (pETH 1) ETH.CONTROL.ENABLE true), 1,
  false, by decide +kernel⟩
theorem wit_calendar_0 : ∃ s : State, ∃ path : Path, s.sound = true ∧ (s.mainOn = false ∨ s.flag pEAVE EAVE.CAL_CFG.AUTO_SYNC = false) ∧
  s.eave.syncAt = none ∧ s.eave.syncLoad = false ∧ (.calCmdSet path : Instr).wf = true ∧ State.passes s path pEAVE EAVE.CAL_CMD.off 1 =
  true ∧ valueOk pEAVE EAVE.CAL_CMD.off 1 = true := ⟨base.putFlag pEAVE EAVE.CAL_CFG.AUTO_SYNC false, .bar0 0, by decide +kernel⟩
theorem wit_calendar_1 : ∃ s : State, ∃ path : Path, s.sound = true ∧ 2 ≤ s.stage ∧ s.tebTs s.now ≠ tebUnknown ∧ (.syncNow path :
  Instr).wf = true ∧ State.passes s path pEAVE EAVE.CAL_CMD.off 2 = true ∧ valueOk pEAVE EAVE.CAL_CMD.off 2 = true :=
  ⟨{ base with teb := { seed := some 1 } } |>.put pTSC TSC.STATUS.BASIS 1, .bar0 0, by decide +kernel⟩
theorem wit_calendar_2 : ∃ s : State, ∃ path : Path, s.sound = true ∧ (.invalidate path : Instr).wf = true ∧ State.passes s path pEAVE
  EAVE.CAL_CMD.off 3 = true ∧ valueOk pEAVE EAVE.CAL_CMD.off 3 = true := ⟨base, .bar0 0, by decide +kernel⟩
theorem wit_calendar_3 : ∃ s : State, ∃ sec, ∃ teb, s.sound = true ∧ s.eave.syncAt = some (sec, teb) ∧ s.eave.syncEdge < s.eave.edges ∧
  (.calendarSync : Instr).wf = true := ⟨{ base with eave := { base.eave with syncAt := some (2 ^ 64 - 1, 5), edges := 1 } }, 2 ^ 64 - 1,
  5, by decide +kernel⟩
theorem wit_calendar_4 : ∃ s : State, ∃ trim, s.sound = true ∧ s.flag pEAVE EAVE.CAL_CFG.AUTO_SYNC = true ∧ 2 ≤ s.stage ∧ trim ≠ 256 ∧
  (.trimRenew trim : Instr).wf = true := ⟨(base |>.putFlag pEAVE EAVE.CAL_CFG.AUTO_SYNC true), 255, by decide +kernel⟩
theorem wit_calendar_5 : ∃ s : State, s.sound = true ∧ s.eaveLeapDue = true ∧ (.eaveLeap : Instr).wf = true := ⟨base.putFlag pEAVE
  EAVE.STATUS.MAIN_ON false |>.put pEAVE EAVE.LEAP_CFG.LEAP_PENDING 1, by decide +kernel⟩
theorem wit_calendar_6 : ∃ s : State, s.sound = true ∧ s.alarmDue = true ∧ (.alarm : Instr).wf = true :=
  ⟨{ base with eave := { base.eave with alarmHit := true } } |>.put pEAVE EAVE.ALARM_AT.SECONDS 1 |>.wrN pEAVE EAVE.CAL_NOW.off 2 32768,
  by decide +kernel⟩
theorem wit_eave_power_0 : ∃ s : State, ∃ path : Path, s.sound = true ∧ (.pwrOn path : Instr).wf = true ∧ State.passes s path pEAVE
  EAVE.PWR_CMD.off 1 = true ∧ valueOk pEAVE EAVE.PWR_CMD.off 1 = true := ⟨base, .bar0 0, by decide +kernel⟩
theorem wit_eave_power_1 : ∃ s : State, ∃ path : Path, s.sound = true ∧ s.mainOn = false ∧ (.pwrOff path : Instr).wf = true ∧ State.passes
  s path pEAVE EAVE.PWR_CMD.off 2 = true ∧ valueOk pEAVE EAVE.PWR_CMD.off 2 = true := ⟨base.putFlag pEAVE EAVE.STATUS.MAIN_ON false, .bar0
  0, by decide +kernel⟩
theorem wit_eave_power_2 : ∃ s : State, ∃ path : Path, s.sound = true ∧ s.mainOn = true ∧ s.eave.downAt = none ∧ (.pwrOff path : Instr).wf
  = true ∧ State.passes s path pEAVE EAVE.PWR_CMD.off 2 = true ∧ valueOk pEAVE EAVE.PWR_CMD.off 2 = true := ⟨base, .bar0 0,
  by decide +kernel⟩
theorem wit_eave_power_3 : ∃ s : State, ∃ d, s.sound = true ∧ s.eave.downAt = some d ∧ d.1 ≤ s.eave.ticks ∧ (.pwrDownDelayExpiry :
  Instr).wf = true := ⟨{ base with eave := { base.eave with downAt := some (0, 1) } }, ((0, 1) : Nat × Nat), by decide +kernel⟩
theorem wit_eave_power_4 : ∃ s : State, ∃ path : Path, s.sound = true ∧ (.alertSet path : Instr).wf = true ∧ State.passes s path pEAVE
  EAVE.PWR_CMD.off 3 = true ∧ valueOk pEAVE EAVE.PWR_CMD.off 3 = true := ⟨base, .bar0 0, by decide +kernel⟩
theorem wit_eave_power_5 : ∃ s : State, ∃ path : Path, s.sound = true ∧ (.alertClr path : Instr).wf = true ∧ State.passes s path pEAVE
  EAVE.PWR_CMD.off 4 = true ∧ valueOk pEAVE EAVE.PWR_CMD.off 4 = true := ⟨base, .bar0 0, by decide +kernel⟩
theorem wit_eave_power_6 : ∃ s : State, ∃ b, s.sound = true ∧ bitOf (s.get pEAVE EAVE.PWR_CFG.WAKE_SENSE) (if b then 0 else 1) = true ∧
  (.wakeEdge b : Instr).wf = true := ⟨base.put pEAVE EAVE.PWR_CFG.WAKE_SENSE 1, true, by decide +kernel⟩
theorem wit_eave_power_7 : ∃ s : State, ∃ path : Path, s.sound = true ∧ (.logClear path : Instr).wf = true ∧ State.passes s path pEAVE
  EAVE.LOG_CMD.off 1 = true ∧ valueOk pEAVE EAVE.LOG_CMD.off 1 = true := ⟨base, .bar0 0, by decide +kernel⟩
theorem wit_eave_power_8 : ∃ s : State, ∃ b, s.sound = true ∧ s.flag pEAVE EAVE.STATUS.ON_VBAT ≠ b ∧ (.eaveSwitchover b : Instr).wf = true
  := ⟨base, true, by decide +kernel⟩
theorem wit_eave_power_9 : ∃ s : State, s.sound = true ∧ (.eavePor : Instr).wf = true := ⟨base, by decide +kernel⟩
theorem wit_eave_power_10 : ∃ s : State, s.sound = true ∧ (.xt32Fault : Instr).wf = true := ⟨base, by decide +kernel⟩
theorem wit_eave_power_11 : ∃ s : State, ∃ samples : List SourceLevels, s.sound = true ∧ s.eave.tickEdge + 2 ^ (s.get pEAVE
  EAVE.MON_TICK.TICK_SEL + 11) ≤ s.eave.edges ∧ (.monitorTick samples : Instr).wf = true :=
  ⟨{ base with eave := { base.eave with edges := 2 ^ 60 } }, (List.replicate 9 {} : List SourceLevels), by decide +kernel⟩
theorem wit_eave_power_12 : ∃ s : State, ∃ samples : List SourceLevels, s.sound = true ∧ s.eave.edges < s.eave.tickEdge + 2 ^ (s.get pEAVE
  EAVE.MON_TICK.TICK_SEL + 11) ∧ (.monitorTick samples : Instr).wf = true := ⟨base, (List.replicate 9 {} : List SourceLevels),
  by decide +kernel⟩
theorem wit_decision_program_0 : ∃ s : State, ∃ a, ∃ w, s.sound = true ∧ s.progDue = some (a, w) ∧ a < 63 ∧ bitsOf w 15 12 = 1 ∧ (.test :
  Instr).wf = true := ⟨withProg (1 * 4096), 62, 1 * 4096, by decide +kernel⟩
theorem wit_decision_program_1 : ∃ s : State, ∃ a, ∃ w, s.sound = true ∧ s.progDue = some (a, w) ∧ a < 63 ∧ bitsOf w 15 12 = 2 ∧ (.and :
  Instr).wf = true := ⟨withProg (2 * 4096), 62, 2 * 4096, by decide +kernel⟩
theorem wit_decision_program_2 : ∃ s : State, ∃ a, ∃ w, s.sound = true ∧ s.progDue = some (a, w) ∧ a < 63 ∧ bitsOf w 15 12 = 3 ∧ (.or :
  Instr).wf = true := ⟨withProg (3 * 4096), 62, 3 * 4096, by decide +kernel⟩
theorem wit_decision_program_3 : ∃ s : State, ∃ a, ∃ w, s.sound = true ∧ s.progDue = some (a, w) ∧ a < 63 ∧ bitsOf w 15 12 = 4 ∧ (.setf :
  Instr).wf = true := ⟨withProg (4 * 4096), 62, 4 * 4096, by decide +kernel⟩
theorem wit_decision_program_4 : ∃ s : State, ∃ a, ∃ w, s.sound = true ∧ s.progDue = some (a, w) ∧ a < 63 ∧ bitsOf w 15 12 = 5 ∧ (.jmp :
  Instr).wf = true := ⟨withProg (5 * 4096), 62, 5 * 4096, by decide +kernel⟩
theorem wit_decision_program_5 : ∃ s : State, ∃ a, ∃ w, s.sound = true ∧ s.progDue = some (a, w) ∧ a < 63 ∧ bitsOf w 15 12 = 6 ∧ (.cnt :
  Instr).wf = true := ⟨withProg (6 * 4096), 62, 6 * 4096, by decide +kernel⟩
theorem wit_decision_program_6 : ∃ s : State, ∃ a, ∃ w, s.sound = true ∧ s.progDue = some (a, w) ∧ a < 63 ∧ bitsOf w 15 12 = 7 ∧ (.cmp :
  Instr).wf = true := ⟨withProg (7 * 4096), 62, 7 * 4096, by decide +kernel⟩
theorem wit_decision_program_7 : ∃ s : State, ∃ a, ∃ w, s.sound = true ∧ s.progDue = some (a, w) ∧ a < 63 ∧ bitsOf w 15 12 = 8 ∧ bitsOf w
  2 0 = 0 ∧ (.outPwrOn : Instr).wf = true := ⟨withProg (0x8000 + 0), 62, 0x8000 + 0, by decide +kernel⟩
theorem wit_decision_program_8 : ∃ s : State, ∃ a, ∃ w, s.sound = true ∧ s.progDue = some (a, w) ∧ a < 63 ∧ bitsOf w 15 12 = 8 ∧ bitsOf w
  2 0 = 1 ∧ (.outPwrOff : Instr).wf = true := ⟨withProg (0x8000 + 1), 62, 0x8000 + 1, by decide +kernel⟩
theorem wit_decision_program_9 : ∃ s : State, ∃ a, ∃ w, s.sound = true ∧ s.progDue = some (a, w) ∧ a < 63 ∧ bitsOf w 15 12 = 8 ∧ bitsOf w
  2 0 = 2 ∧ (.outAlertSet : Instr).wf = true := ⟨withProg (0x8000 + 2), 62, 0x8000 + 2, by decide +kernel⟩
theorem wit_decision_program_10 : ∃ s : State, ∃ a, ∃ w, s.sound = true ∧ s.progDue = some (a, w) ∧ a < 63 ∧ bitsOf w 15 12 = 8 ∧ bitsOf w
  2 0 = 3 ∧ (.outAlertClr : Instr).wf = true := ⟨withProg (0x8000 + 3), 62, 0x8000 + 3, by decide +kernel⟩
theorem wit_decision_program_11 : ∃ s : State, ∃ a, ∃ w, s.sound = true ∧ s.progDue = some (a, w) ∧ a < 63 ∧ bitsOf w 15 12 = 9 ∧ (.log :
  Instr).wf = true := ⟨withProg 0x9000, 62, 0x9000, by decide +kernel⟩
theorem wit_decision_program_12 : ∃ s : State, ∃ a, ∃ w, s.sound = true ∧ s.progDue = some (a, w) ∧ a < 63 ∧ bitsOf w 15 12 = 10 ∧ (.clrl
  : Instr).wf = true := ⟨withProg 0xA0FF, 62, 0xA0FF, by decide +kernel⟩
theorem wit_decision_program_13 : ∃ s : State, ∃ a, ∃ w, s.sound = true ∧ s.progDue = some (a, w) ∧ a < 64 ∧ bitsOf w 15 12 = 0 ∧
  (.progEnd : Instr).wf = true := ⟨{ withProg 0 with eave := { base.eave with pc := some 63, edges := 2, progEdge := 1 } }, 63, 0,
  by decide +kernel⟩
theorem wit_decision_program_14 : ∃ s : State, s.sound = true ∧ (.programMemoryEcc : Instr).wf = true := ⟨base, by decide +kernel⟩
theorem wit_fault_collection_0 : ∃ s : State, ∃ w, s.sound = true ∧ s.distributed = false ∧ s.flag pGUTTER GUTTER.STATUS.SELF_FAULT =
  false ∧ worst (((List.range 128).filter (fun k => s.sampled.any (fun e => e.source == k))).map (fun k => s.report s.sampled k)) = some w
  ∧ s.flag pGUTTER GUTTER.FF_INFO.VALID = false ∧ (.faultCollect : Instr).wf = true := ⟨(withEvent 0 |>.putFlag pGUTTER
  GUTTER.STATUS.SELF_FAULT false |>.putFlag pGUTTER GUTTER.FF_INFO.VALID false), ((withEvent 0).report (withEvent 0).sampled 0),
  by decide +kernel⟩
theorem wit_fault_collection_1 : ∃ s : State, ∃ w, s.sound = true ∧ s.distributed = false ∧ s.flag pGUTTER GUTTER.STATUS.SELF_FAULT =
  false ∧ worst (((List.range 128).filter (fun k => s.sampled.any (fun e => e.source == k))).map (fun k => s.report s.sampled k)) = some w
  ∧ s.flag pGUTTER GUTTER.FF_INFO.VALID = true ∧ (.faultCollect : Instr).wf = true := ⟨(withEvent 0 |>.putFlag pGUTTER
  GUTTER.STATUS.SELF_FAULT false |>.putFlag pGUTTER GUTTER.FF_INFO.VALID true), ((withEvent 0).report (withEvent 0).sampled 0),
  by decide +kernel⟩
theorem wit_fault_collection_2 : ∃ s : State, ∃ e : FaultEvent, s.sound = true ∧ e ∈ s.sampled ∧ e.line = true ∧ e.source < 128 ∧
  s.distributed = false ∧ s.flag pGUTTER GUTTER.STATUS.SELF_FAULT = true ∧ (.faultCollect : Instr).wf = true :=
  ⟨({ base with faultEvents := [⟨pTIN 0, 0, false, true, 16, 39999999⟩] } |>.putFlag pGUTTER GUTTER.STATUS.MODE false |>.putFlag pGUTTER
  GUTTER.STATUS.SELF_FAULT true |>.putFlag pGUTTER GUTTER.STATUS.SELF_FAULT true), (⟨pTIN 0, 0, false, true, 16, 39999999⟩ : FaultEvent),
  by decide +kernel⟩
theorem wit_fault_collection_3 : ∃ s : State, ∃ p : PairReading, s.sound = true ∧ s.power.good = true ∧ s.distributed = false ∧ (sourceSev
  p.source).isSome = true ∧ (.lineFault p : Instr).wf = true := ⟨base.putFlag pGUTTER GUTTER.STATUS.MODE false, (⟨0, true⟩ : PairReading),
  by decide +kernel⟩
theorem wit_fault_collection_4 : ∃ s : State, s.sound = true ∧ (.injectionHoldEnd : Instr).wf = true := ⟨base, by decide +kernel⟩
theorem wit_die_faults_0 : ∃ s : State, ∃ rail, s.sound = true ∧ s.power.good = true ∧ rail < 5 ∧ (.supplyOutOfRange rail : Instr).wf =
  true := ⟨base, 4, by decide +kernel⟩
theorem wit_die_faults_1 : ∃ s : State, s.sound = true ∧ s.power.good = true ∧ (.dieHot : Instr).wf = true := ⟨base, by decide +kernel⟩
theorem wit_die_faults_2 : ∃ s : State, s.sound = true ∧ s.power.good = true ∧ (.dieCritical : Instr).wf = true := ⟨base,
  by decide +kernel⟩
theorem wit_die_faults_3 : ∃ s : State, s.sound = true ∧ s.power.good = true ∧ (.sclkMonitor : Instr).wf = true := ⟨base,
  by decide +kernel⟩
theorem wit_die_faults_4 : ∃ s : State, s.sound = true ∧ s.power.good = true ∧ (.sramUncorr : Instr).wf = true := ⟨base,
  by decide +kernel⟩
theorem wit_die_faults_5 : ∃ s : State, s.sound = true ∧ s.flash.restart = none ∧ s.stage ≠ 0 ∧ (s.flash.trial = none ∨ s.get pFLASH
  FLASH.TRIAL_STATE.BOOTS_LEFT ≠ 0) ∧ (.mgmtWatchdogMiss : Instr).wf = true := ⟨base, by decide +kernel⟩
theorem wit_die_faults_6 : ∃ s : State, s.sound = true ∧ s.flash.restart = none ∧ s.stage ≠ 0 ∧ s.flash.trial.isSome = true ∧ s.get pFLASH
  FLASH.TRIAL_STATE.BOOTS_LEFT = 0 ∧ (.mgmtWatchdogMiss : Instr).wf = true := ⟨({ base with flash := { trial := some (aTrial 5) } } |>.put
  pFLASH FLASH.TRIAL_STATE.BOOTS_LEFT 0), by decide +kernel⟩
theorem wit_die_faults_7 : ∃ s : State, s.sound = true ∧ (s.flash.restart.isSome = true ∨ s.stage = 0) ∧ (.mgmtWatchdogMiss : Instr).wf =
  true := ⟨{ base with flash := { restart := some (0, .activate) } }, by decide +kernel⟩
theorem wit_die_faults_8 : ∃ s : State, s.sound = true ∧ s.restartLate = true ∧ (.restartTimeout : Instr).wf = true :=
  ⟨{ base with flash := { restart := some (0, .activate) }, clk := { base.clk with slot := 1000000001 } }, by decide +kernel⟩
theorem wit_die_faults_9 : ∃ s : State, s.sound = true ∧ s.stage ≠ 0 ∧ (.pairSenseFault : Instr).wf = true := ⟨base, by decide +kernel⟩
theorem wit_die_faults_10 : ∃ s : State, ∃ u : Bool, s.sound = true ∧ s.power.good = false ∧ (.gutterStorageEcc u : Instr).wf = true :=
  ⟨State.reset, true, by decide +kernel⟩
theorem wit_die_faults_11 : ∃ s : State, s.sound = true ∧ s.power.good = true ∧ (.gutterStorageEcc false : Instr).wf = true := ⟨base,
  by decide +kernel⟩
theorem wit_die_faults_12 : ∃ s : State, s.sound = true ∧ s.power.good = true ∧ (.gutterStorageEcc true : Instr).wf = true := ⟨base,
  by decide +kernel⟩
theorem wit_fault_commands_0 : ∃ s : State, ∃ path : Path, ∃ page, ∃ v, ∃ x, s.sound = true ∧ pageBlock page = some x ∧ (s.distributed =
  true ∨ s.flag pGUTTER GUTTER.GUT_CFG.INJ_ENABLE = true) ∧ (.errInject path page v : Instr).wf = true ∧ State.passes s path page 0x028 v
  = true ∧ valueOk page 0x028 v = true := ⟨base.putFlag pGUTTER GUTTER.GUT_CFG.INJ_ENABLE true, .bar0 0, pSERVO, 2 ^ 32 - 1, ((pageBlock
  pSERVO).getD (.dev, 0)), by decide +kernel⟩
theorem wit_fault_commands_1 : ∃ s : State, ∃ path : Path, ∃ k, ∃ line, s.sound = true ∧ s.distributed = false ∧ s.flag pGUTTER
  GUTTER.GUT_CFG.INJ_ENABLE = true ∧ (sourceSev k).isSome = true ∧ (.inject path k line : Instr).wf = true ∧ State.passes s path pGUTTER
  GUTTER.GUTTER_CMD.off (packRec [(30, 1, b2n line), (16, 7, k), (0, 8, 4)]) = true ∧ valueOk pGUTTER GUTTER.GUTTER_CMD.off (packRec [(30,
  1, b2n line), (16, 7, k), (0, 8, 4)]) = true := ⟨(base.putFlag pGUTTER GUTTER.STATUS.MODE false |>.putFlag pGUTTER
  GUTTER.GUT_CFG.INJ_ENABLE true), .bar0 0, 0, true, by decide +kernel⟩
theorem wit_fault_commands_2 : ∃ s : State, ∃ path : Path, s.sound = true ∧ s.distributed = false ∧ s.gutter.safe = false ∧ (∀ k ∈
  s.activeSources, s.severity k < 2) ∧ (.clearPair path : Instr).wf = true ∧ State.passes s path pGUTTER GUTTER.GUTTER_CMD.off 1 = true ∧
  valueOk pGUTTER GUTTER.GUTTER_CMD.off 1 = true := ⟨base.putFlag pGUTTER GUTTER.STATUS.MODE false, .bar0 0, by decide +kernel⟩
theorem wit_fault_commands_3 : ∃ s : State, ∃ path : Path, s.sound = true ∧ s.gutter.safe = false ∧ (.enterSafe path : Instr).wf = true ∧
  State.passes s path pGUTTER GUTTER.GUTTER_CMD.off 2 = true ∧ valueOk pGUTTER GUTTER.GUTTER_CMD.off 2 = true := ⟨base, .bar0 0,
  by decide +kernel⟩
theorem wit_fault_commands_4 : ∃ s : State, ∃ path : Path, s.sound = true ∧ s.gutter.safe = true ∧ bitOf (s.rd pGUTTER
  GUTTER.SAFE_CAUSE.off).toNat 29 = true ∧ s.flag pGUTTER GUTTER.STATUS.SELF_FAULT = false ∧ (∀ k ∈ s.activeSources, s.severity k ≠ 3) ∧
  (.deviceSafeExit path : Instr).wf = true ∧ State.passes s path pGUTTER 0x014 (s.controlWith pGUTTER 30) = true ∧ valueOk pGUTTER 0x014
  (s.controlWith pGUTTER 30) = true := ⟨({ base with gutter := { safe := true } } |>.wr pGUTTER GUTTER.SAFE_CAUSE.off 0x20000000
  |>.putFlag pGUTTER GUTTER.STATUS.SELF_FAULT false), .bar0 0, by decide +kernel⟩
theorem wit_fault_commands_5 : ∃ s : State, ∃ path : Path, s.sound = true ∧ s.distributed = false ∧ (.reinit path : Instr).wf = true ∧
  State.passes s path pGUTTER GUTTER.GUTTER_CMD.off 3 = true ∧ valueOk pGUTTER GUTTER.GUTTER_CMD.off 3 = true := ⟨base.putFlag pGUTTER
  GUTTER.STATUS.MODE false, .bar0 0, by decide +kernel⟩
theorem wit_fault_commands_6 : ∃ s : State, ∃ path : Path, s.sound = true ∧ (.firstFaultClear path : Instr).wf = true ∧ State.passes s
  path pGUTTER GUTTER.FF_INFO.off (2 ^ 31) = true ∧ valueOk pGUTTER GUTTER.FF_INFO.off (2 ^ 31) = true := ⟨base, .bar0 0,
  by decide +kernel⟩
theorem wit_resets_and_stages_0 : ∃ s : State, ∃ rail, s.sound = true ∧ (.supplyBelowThreshold rail : Instr).wf = true := ⟨base, 4,
  by decide +kernel⟩
theorem wit_resets_and_stages_1 : ∃ s : State, s.sound = true ∧ (.resetNLow : Instr).wf = true := ⟨base, by decide +kernel⟩
theorem wit_resets_and_stages_2 : ∃ s : State, ∃ straps, s.sound = true ∧ s.power.good = false ∧ (.suppliesGood straps : Instr).wf = true
  := ⟨State.reset, (⟨true, true, true⟩ : Straps), by decide +kernel⟩
theorem wit_resets_and_stages_3 : ∃ s : State, ∃ path, s.sound = true ∧ s.adminOf path = true ∧ s.power.resetAt = none ∧ (.deviceReset
  path : Instr).wf = true ∧ State.passes s path pDEV DEV.RESET_CMD.off 1 = true ∧ valueOk pDEV DEV.RESET_CMD.off 1 = true := ⟨base, .bar0
  0, by decide +kernel⟩
theorem wit_resets_and_stages_4 : ∃ s : State, ∃ b, s.sound = true ∧ s.stage1Due = true ∧ (.stage1Entry b : Instr).wf = true := ⟨before 0,
  ({ images := true, calOk := true, fallen := [], made := [], terms := [], forms := [] } : BootData), by decide +kernel⟩
theorem wit_resets_and_stages_5 : ∃ s : State, s.sound = true ∧ s.stage2Due = true ∧ (.stage2Entry : Instr).wf = true := ⟨before 1,
  by decide +kernel⟩
theorem wit_resets_and_stages_6 : ∃ s : State, s.sound = true ∧ s.stage3Due = true ∧ (.stage3Entry : Instr).wf = true :=
  ⟨{ before 2 with quads := List.replicate 12 { engines := List.replicate 5 { front := some freshSet } }, tins := List.replicate 16 { cores := [{ failed := true }, { failed := true }] }, power := { base.power with ports := List.replicate 18 { set := true } } },
  by decide +kernel⟩
theorem wit_resets_and_stages_7 : ∃ s : State, s.sound = true ∧ s.linkDue = true ∧ (.pcieLinkTraining : Instr).wf = true :=
  ⟨{ base with host := {} }, by decide +kernel⟩
theorem wit_resets_and_stages_8 : ∃ s : State, ∃ ir, s.sound = true ∧ s.stage = 0 ∧ (.boundaryScan ir : Instr).wf = true := ⟨State.reset,
  255, by decide +kernel⟩
theorem wit_resets_and_stages_9 : ∃ s : State, s.sound = true ∧ s.stage ≠ 0 ∧ (.boundaryScan 1 : Instr).wf = true := ⟨base,
  by decide +kernel⟩
theorem wit_resets_and_stages_10 : ∃ s : State, ∃ ir, s.sound = true ∧ s.stage ≠ 0 ∧ ir ≠ 1 ∧ (.boundaryScan ir : Instr).wf = true :=
  ⟨base, 255, by decide +kernel⟩
theorem wit_downloads_0 : ∃ s : State, ∃ path : Path, s.sound = true ∧ s.flash.restart = none ∧ s.stagingState ≠ 3 ∧ s.flash.copy = none ∧
  s.flRecovery = false ∧ (.begin path : Instr).wf = true ∧ State.passes s path pFLASH FLASH.FL_CMD.off 1 = true ∧ valueOk pFLASH
  FLASH.FL_CMD.off 1 = true := ⟨base, .bar0 0, by decide +kernel⟩
theorem wit_downloads_1 : ∃ s : State, ∃ path : Path, ∃ o, ∃ l, s.sound = true ∧ s.flash.restart = none ∧ s.stagingState = 1 ∧
  s.flash.busyUntil ≤ s.clk.slot ∧ s.flRecovery = false ∧ o = s.get pFLASH FLASH.FL_OFFSET.OFFSET ∧ l = s.get pFLASH FLASH.FL_LENGTH.BYTES
  ∧ o = s.get pFLASH FLASH.DOWNLOAD_COUNT.BYTES ∧ o + l ≤ 0x800000 ∧ 4 ≤ l ∧ l ≤ 512 ∧ l % 4 = 0 ∧ (.writeWindow path : Instr).wf = true ∧
  State.passes s path pFLASH FLASH.FL_CMD.off 2 = true ∧ valueOk pFLASH FLASH.FL_CMD.off 2 = true := ⟨(base.put pFLASH
  FLASH.FL_LENGTH.BYTES 512 |>.put pFLASH FLASH.STATUS.STAGING_STATE 1), .bar0 0, (base.put pFLASH FLASH.FL_LENGTH.BYTES 512 |>.put pFLASH
  FLASH.STATUS.STAGING_STATE 1).get pFLASH FLASH.FL_OFFSET.OFFSET, (base.put pFLASH FLASH.FL_LENGTH.BYTES 512 |>.put pFLASH
  FLASH.STATUS.STAGING_STATE 1).get pFLASH FLASH.FL_LENGTH.BYTES, by decide +kernel⟩
theorem wit_downloads_2 : ∃ s : State, ∃ path : Path, ∃ o, ∃ l, ∃ bytes, s.sound = true ∧ s.flash.restart = none ∧ s.stagingState = 1 ∧
  s.flash.busyUntil ≤ s.clk.slot ∧ s.flRecovery = false ∧ o = s.get pFLASH FLASH.FL_OFFSET.OFFSET ∧ l = s.get pFLASH FLASH.FL_LENGTH.BYTES
  ∧ o = s.get pFLASH FLASH.DOWNLOAD_COUNT.BYTES ∧ o + l ≤ 0x800000 ∧ bytes.length = l ∧ 0 < l ∧ l % 64 = 0 ∧ s.get pFLASH
  FLASH.FL_HOST_ADDR.ADDR % 64 = 0 ∧ s.hostSpi = false ∧ (.dmaWrite path bytes : Instr).wf = true ∧ State.passes s path pFLASH
  FLASH.FL_CMD.off 3 = true ∧ valueOk pFLASH FLASH.FL_CMD.off 3 = true := ⟨(base.put pFLASH FLASH.FL_LENGTH.BYTES 64 |>.put pFLASH
  FLASH.STATUS.STAGING_STATE 1), .bar0 0, (base.put pFLASH FLASH.FL_LENGTH.BYTES 64 |>.put pFLASH FLASH.STATUS.STAGING_STATE 1).get pFLASH
  FLASH.FL_OFFSET.OFFSET, (base.put pFLASH FLASH.FL_LENGTH.BYTES 64 |>.put pFLASH FLASH.STATUS.STAGING_STATE 1).get pFLASH
  FLASH.FL_LENGTH.BYTES, (List.replicate 64 7), by decide +kernel⟩
theorem wit_downloads_3 : ∃ s : State, ∃ path : Path, ∃ v, s.sound = true ∧ s.flash.restart = none ∧ s.stagingState = 1 ∧
  s.flash.busyUntil ≤ s.clk.slot ∧ s.flRecovery = false ∧ s.finishOk = true ∧ (.finish path v : Instr).wf = true ∧ State.passes s path
  pFLASH FLASH.FL_CMD.off 4 = true ∧ valueOk pFLASH FLASH.FL_CMD.off 4 = true := ⟨(staged 5 |>.put pFLASH FLASH.STATUS.STAGING_STATE 1),
  .bar0 0, ({ ok := true, words := [], oven := 0, terms := [], forms := [], migrates := true, handover := true } : VerifyResult),
  by decide +kernel⟩
theorem wit_downloads_4 : ∃ s : State, ∃ path : Path, s.sound = true ∧ s.flash.restart = none ∧ s.stagingState ≠ 3 ∧ s.flash.copy = none ∧
  (.flAbort path : Instr).wf = true ∧ State.passes s path pFLASH FLASH.FL_CMD.off 9 = true ∧ valueOk pFLASH FLASH.FL_CMD.off 9 = true :=
  ⟨base, .bar0 0, by decide +kernel⟩
theorem wit_downloads_5 : ∃ s : State, ∃ since, ∃ from_, s.sound = true ∧ s.flash.restart = none ∧ s.flash.dma = some (since, from_) ∧
  s.clk.slot < s.flash.busyUntil ∧ (.flashDmaError : Instr).wf = true :=
  ⟨{ base with flash := { dma := some (0, 0), busyUntil := 40000001 } }, 0, 0, by decide +kernel⟩
theorem wit_update_commands_0 : ∃ s : State, ∃ path : Path, s.sound = true ∧ s.flash.restart = none ∧ s.activation false = none ∧
  (.activate path : Instr).wf = true ∧ State.passes s path pFLASH FLASH.FL_CMD.off 5 = true ∧ valueOk pFLASH FLASH.FL_CMD.off 5 = true :=
  ⟨staged 5, .bar0 0, by decide +kernel⟩
theorem wit_update_commands_1 : ∃ s : State, ∃ path : Path, s.sound = true ∧ s.flash.restart = none ∧ s.activation true = none ∧
  (.activateAtReset path : Instr).wf = true ∧ State.passes s path pFLASH FLASH.FL_CMD.off 6 = true ∧ valueOk pFLASH FLASH.FL_CMD.off 6 =
  true := ⟨staged 5, .bar0 0, by decide +kernel⟩
theorem wit_update_commands_2 : ∃ s : State, ∃ path : Path, ∃ x, s.sound = true ∧ s.flash.restart = none ∧ s.flash.trial = some x ∧ s.flag
  pFLASH FLASH.TRIAL_STATE.HEALTHY = true ∧ s.flRecovery = false ∧ (s.activeImage x.component).isSome = true ∧ (.confirm path : Instr).wf
  = true ∧ State.passes s path pFLASH FLASH.FL_CMD.off 7 = true ∧ valueOk pFLASH FLASH.FL_CMD.off 7 = true := ⟨(onTrial |>.putFlag pFLASH
  FLASH.TRIAL_STATE.HEALTHY true), .bar0 0, aTrial 5, by decide +kernel⟩
theorem wit_update_commands_3 : ∃ s : State, ∃ path : Path, ∃ x, s.sound = true ∧ s.flash.restart = none ∧ s.flash.trial = some x ∧
  (.revert path : Instr).wf = true ∧ State.passes s path pFLASH FLASH.FL_CMD.off 8 = true ∧ valueOk pFLASH FLASH.FL_CMD.off 8 = true :=
  ⟨onTrial, .bar0 0, aTrial 5, by decide +kernel⟩
theorem wit_update_commands_4 : ∃ s : State, ∃ path : Path, ∃ l, s.sound = true ∧ s.flash.restart = none ∧ s.flRecovery = false ∧
  s.stagingState = 2 ∧ s.stagedHdr.component = 6 ∧ s.stagedVerify = true ∧ manifestOf s.flash.checked.words = some l ∧ (.loadManifest path
  : Instr).wf = true ∧ State.passes s path pFLASH FLASH.FL_CMD.off 10 = true ∧ valueOk pFLASH FLASH.FL_CMD.off 10 = true := ⟨(staged 6
  { checked := { ok := true, words := [1, 0, 5, 0, 64, 0, 0, 0, 0, 0, 0, 0, 0, 0, 0, 0, 0, 0], oven := 0, terms := [], forms := [], migrates := false, handover := false } }
  |>.put pFLASH FLASH.STATUS.STAGING_STATE 2), .bar0 0, ((manifestOf [1, 0, 5, 0, 64, 0, 0, 0, 0, 0, 0, 0, 0, 0, 0, 0, 0, 0]).getD []),
  by decide +kernel⟩
theorem wit_update_commands_5 : ∃ s : State, ∃ path : Path, s.sound = true ∧ s.flash.restart = none ∧ (.clearManifest path : Instr).wf =
  true ∧ State.passes s path pFLASH FLASH.FL_CMD.off 11 = true ∧ valueOk pFLASH FLASH.FL_CMD.off 11 = true := ⟨base, .bar0 0,
  by decide +kernel⟩
theorem wit_update_commands_6 : ∃ s : State, ∃ path : Path, s.sound = true ∧ s.flash.restart = none ∧ s.get pFLASH FLASH.FL_OFFSET.OFFSET
  < 24576 ∧ (.readLog path : Instr).wf = true ∧ State.passes s path pFLASH FLASH.FL_CMD.off 12 = true ∧ valueOk pFLASH FLASH.FL_CMD.off 12
  = true := ⟨base.put pFLASH FLASH.FL_OFFSET.OFFSET 24575, .bar0 0, by decide +kernel⟩
theorem wit_update_commands_7 : ∃ s : State, ∃ path : Path, s.sound = true ∧ s.flash.restart = none ∧ s.flRecovery = false ∧
  s.stagingState = 2 ∧ s.stagedHdr.component = 7 ∧ s.enrolled = true ∧ s.stagedVerify = true ∧ s.flag pFLASH FLASH.STATUS.REDUCED = false
  ∧ (.installKey path : Instr).wf = true ∧ State.passes s path pFLASH FLASH.FL_CMD.off 13 = true ∧ valueOk pFLASH FLASH.FL_CMD.off 13 =
  true :=
  ⟨(({ staged 7 with flash := { (staged 7).flash with ownerKey := some 5, staging := (image 7).set 9 (9, 1), checked := { ok := true, words := [0], oven := 0, terms := [], forms := [], migrates := false, handover := false, owner := 5 } } }).putFlag
  pFLASH FLASH.OTP_INFO.OWNER_ENROLLED true |>.put pFLASH FLASH.STATUS.STAGING_STATE 2 |>.putFlag pFLASH FLASH.STATUS.REDUCED false),
  .bar0 0, by decide +kernel⟩
theorem wit_update_commands_8 : ∃ s : State, ∃ path : Path, ∃ k, s.sound = true ∧ s.flash.restart = none ∧ path = .bar0 k ∧ s.adminOf path
  = true ∧ s.enrolled = false ∧ s.flash.trial = none ∧ (∀ i, i < 5 → (s.activeImage (i + 1)).elim true (fun h => h.ownerSigned && h.owner
  == leNat 32 ((List.range 12).map (fun k => s.get pFLASH (FLASH.DATA_WINDOW.WORD k)))) = true) ∧ (.ownerEnroll path : Instr).wf = true ∧
  State.passes s path pFLASH FLASH.FL_CMD.off 14 = true ∧ valueOk pFLASH FLASH.FL_CMD.off 14 = true := ⟨base, .bar0 0, 0,
  by decide +kernel⟩
theorem wit_trials_0 : ∃ s : State, ∃ since, s.sound = true ∧ s.flash.restart = some (since, .activate) ∧ s.flash.copyEnd = none ∧
  s.flash.verified = none ∧ s.stagedVerify = true ∧ s.failsFor s.stagedHdr false = [] ∧ s.flash.checked.handover = true ∧
  (.mgmtRestartDone : Instr).wf = true := ⟨staged 5
  { restart := some (0, .activate), checked := { ok := true, words := [], oven := 0, terms := [], forms := [], migrates := false, handover := true } },
  0, by decide +kernel⟩
theorem wit_trials_1 : ∃ s : State, ∃ since, s.sound = true ∧ s.flash.restart = some (since, .activate) ∧ s.flash.copyEnd = none ∧
  s.flash.verified = some true ∧ s.flash.checked.handover = true ∧ (.mgmtRestartDone : Instr).wf = true := ⟨staged 5
  { restart := some (0, .activate), verified := some true, checked := { ok := true, words := [], oven := 0, terms := [], forms := [], migrates := false, handover := true } },
  0, by decide +kernel⟩
theorem wit_trials_2 : ∃ s : State, ∃ since, s.sound = true ∧ s.flash.restart = some (since, .activate) ∧ s.flash.copyEnd = none ∧
  (s.flash.verified = some false ∨ (s.flash.verified = none ∧ s.stagedVerify = false)) ∧ s.flash.checked.handover = true ∧
  (.mgmtRestartDone : Instr).wf = true := ⟨staged 5
  { restart := some (0, .activate), verified := some false, checked := { ok := true, words := [], oven := 0, terms := [], forms := [], migrates := false, handover := true } },
  0, by decide +kernel⟩
theorem wit_trials_3 : ∃ s : State, ∃ since, s.sound = true ∧ s.flash.restart = some (since, .activate) ∧ s.flash.copyEnd = none ∧
  s.flash.checked.handover = false ∧ (.mgmtRestartDone : Instr).wf = true := ⟨{ base with flash := { restart := some (0, .activate) } },
  0, by decide +kernel⟩
theorem wit_trials_4 : ∃ s : State, ∃ c, ∃ done, ∃ retried : Bool, s.sound = true ∧ s.flash.copy = some (c, done, retried) ∧ done < s.get
  pFLASH FLASH.COPY_STATE.BLOCKS_TOTAL ∧ (.copyBlockDone true : Instr).wf = true := ⟨{ base with flash := { copy := some (5, 0, false) } }
  |>.put pFLASH FLASH.COPY_STATE.BLOCKS_TOTAL 1, 5, 0, false, by decide +kernel⟩
theorem wit_trials_5 : ∃ s : State, ∃ c, ∃ done, ∃ retried : Bool, s.sound = true ∧ s.flash.copy = some (c, done, retried) ∧ done < s.get
  pFLASH FLASH.COPY_STATE.BLOCKS_TOTAL ∧ retried = false ∧ (.copyBlockDone false : Instr).wf = true :=
  ⟨{ base with flash := { copy := some (5, 0, false) } } |>.put pFLASH FLASH.COPY_STATE.BLOCKS_TOTAL 1, 5, 0, false, by decide +kernel⟩
theorem wit_trials_6 : ∃ s : State, ∃ c, ∃ done, ∃ retried : Bool, s.sound = true ∧ s.flash.copy = some (c, done, retried) ∧ done < s.get
  pFLASH FLASH.COPY_STATE.BLOCKS_TOTAL ∧ retried = true ∧ (.copyBlockDone false : Instr).wf = true :=
  ⟨{ base with flash := { copy := some (5, 0, true), trial := some (aTrial 5 false), slots := List.replicate 5 (some (aHdr 5), none) } }
  |>.put pFLASH FLASH.COPY_STATE.BLOCKS_TOTAL 1, 5, 0, true, by decide +kernel⟩
theorem wit_trials_7 : ∃ s : State, ∃ c, ∃ done, ∃ retried : Bool, s.sound = true ∧ s.flash.copy = some (c, done, retried) ∧ s.get pFLASH
  FLASH.COPY_STATE.BLOCKS_TOTAL ≤ done ∧ s.flash.trial.isSome = true ∧ 1 ≤ c ∧ c ≤ 5 ∧ s.flash.slots.length = 5 ∧ s.flash.active.length =
  5 ∧ s.activeSlot c ≤ 1 ∧ (.copyDone true : Instr).wf = true :=
  ⟨{ base with flash := { copy := some (5, 16, false), trial := some (aTrial 5 false), slots := List.replicate 5 (some (aHdr 5), none) } }
  |>.put pFLASH FLASH.COPY_STATE.BLOCKS_TOTAL 16, 5, 16, false, by decide +kernel⟩
theorem wit_trials_8 : ∃ s : State, ∃ c, ∃ done, ∃ retried : Bool, s.sound = true ∧ s.flash.copy = some (c, done, retried) ∧ s.get pFLASH
  FLASH.COPY_STATE.BLOCKS_TOTAL ≤ done ∧ s.flash.trial = none ∧ (.copyDone true : Instr).wf = true :=
  ⟨{ base with flash := { copy := some (5, 16, false) } } |>.put pFLASH FLASH.COPY_STATE.BLOCKS_TOTAL 16, 5, 16, false, by decide +kernel⟩
theorem wit_trials_9 : ∃ s : State, ∃ c, ∃ done, ∃ retried : Bool, s.sound = true ∧ s.flash.copy = some (c, done, retried) ∧ s.get pFLASH
  FLASH.COPY_STATE.BLOCKS_TOTAL ≤ done ∧ s.flash.trial.isSome = true ∧ (.copyDone false : Instr).wf = true :=
  ⟨{ base with flash := { copy := some (5, 16, false), trial := some (aTrial 5 false), slots := List.replicate 5 (some (aHdr 5), none) } }
  |>.put pFLASH FLASH.COPY_STATE.BLOCKS_TOTAL 16, 5, 16, false, by decide +kernel⟩
theorem wit_trials_10 : ∃ s : State, ∃ u : BankUnit, s.sound = true ∧ (u ∉ s.flash.swaps ∨ s.bankReady u = false) ∧ (.microcodeBankSwap u
  : Instr).wf = true := ⟨base, (.eth 1 : BankUnit), by decide +kernel⟩
theorem wit_trials_11 : ∃ s : State, ∃ u : BankUnit, s.sound = true ∧ u ∈ s.flash.swaps ∧ s.bankReady u = true ∧ s.flash.banks.length = 9
  ∧ bankIndex u < 9 ∧ (.microcodeBankSwap u : Instr).wf = true := ⟨{ base with flash := { swaps := [.eth 1] } }, (.eth 1 : BankUnit),
  by decide +kernel⟩
theorem wit_trials_12 : ∃ s : State, ∃ x : Trial, s.sound = true ∧ s.flash.trial = some x ∧ s.healthyNow x = true ∧ s.flag pFLASH
  FLASH.FL_CONFIG.CONFIRM_POLICY = true ∧ (.trialHealthy : Instr).wf = true := ⟨(onTrial |>.putFlag pFLASH FLASH.FL_CONFIG.CONFIRM_POLICY
  true), aTrial 5, by decide +kernel⟩
theorem wit_trials_13 : ∃ s : State, ∃ x : Trial, s.sound = true ∧ s.flash.trial = some x ∧ s.windowDue = true ∧ (.trialWindowExpiry :
  Instr).wf = true := ⟨{ onTrial with clk := { base.clk with slot := 120000000000 } }, aTrial 5, by decide +kernel⟩
theorem wit_endpoint_stops_0 : ∃ s : State, ∃ c : Instr, s.sound = true ∧ (c = .perstNAssert ∨ c = .d3hotEntry) := ⟨base, .perstNAssert,
  by decide +kernel⟩
theorem wit_steps_of_the_servo_0 : ∃ s : State, ∃ path, s.sound = true ∧ s.passes path pSERVO SERVO.STEP_CMD.off 1 = true ∧ (Instr.step
  path).wf = true ∧ s.flag pSERVO SERVO.STEP_CTL.STEP_ENABLE = false := ⟨(base |>.putFlag pSERVO SERVO.STEP_CTL.STEP_ENABLE false), .bar0
  0, by decide +kernel⟩
theorem wit_steps_of_the_servo_1 : ∃ s : State, ∃ path, s.sound = true ∧ s.passes path pSERVO SERVO.STEP_CMD.off 1 = true ∧ (Instr.step
  path).wf = true ∧ s.flag pSERVO SERVO.STEP_CTL.STEP_ENABLE = true ∧ s.getSpan pSERVO SERVO.STEP_SPAN.SPAN = 0 := ⟨(base |>.putFlag
  pSERVO SERVO.STEP_CTL.STEP_ENABLE true), .bar0 0, by decide +kernel⟩
theorem wit_steps_of_the_servo_2 : ∃ s : State, ∃ path, s.sound = true ∧ s.passes path pSERVO SERVO.STEP_CMD.off 2 = true ∧
  (Instr.stepProposed path).wf = true ∧ (s.flag pSERVO SERVO.STEP_CTL.STEP_ENABLE = false ∨ s.flag pSERVO SERVO.STATUS.STEP_PROPOSED =
  false) := ⟨base, .bar0 0, by decide +kernel⟩
theorem wit_steps_of_the_servo_3 : ∃ s : State, ∃ path, s.sound = true ∧ s.passes path pSERVO SERVO.STEP_CMD.off 2 = true ∧
  (Instr.stepProposed path).wf = true ∧ s.flag pSERVO SERVO.STEP_CTL.STEP_ENABLE = true ∧ s.flag pSERVO SERVO.STATUS.STEP_PROPOSED = true
  ∧ s.getSpan pSERVO SERVO.PROPOSED.SPAN = 0 := ⟨(base |>.putFlag pSERVO SERVO.STEP_CTL.STEP_ENABLE true |>.putFlag pSERVO
  SERVO.STATUS.STEP_PROPOSED true), .bar0 0, by decide +kernel⟩
theorem wit_steps_of_the_servo_4 : ∃ s : State, ∃ path, s.sound = true ∧ s.passes path pSERVO SERVO.STEP_CMD.off 3 = true ∧
  (Instr.slewProposed path).wf = true ∧ s.flag pSERVO SERVO.STATUS.STEP_PROPOSED = false := ⟨(base |>.putFlag pSERVO
  SERVO.STATUS.STEP_PROPOSED false), .bar0 0, by decide +kernel⟩
theorem wit_steps_of_the_servo_5 : ∃ s : State, ∃ path, s.sound = true ∧ s.flag pSERVO SERVO.STEP_CTL.STEP_ENABLE = true ∧ s.clk.stepNext
  = none ∧ s.getSpan pSERVO SERVO.STEP_SPAN.SPAN ≠ 0 ∧ 0 ≤ s.now + s.getSpan pSERVO SERVO.STEP_SPAN.SPAN ∧ s.now + s.getSpan pSERVO
  SERVO.STEP_SPAN.SPAN < instantLimit ∧ (.step path : Instr).wf = true ∧ State.passes s path pSERVO SERVO.STEP_CMD.off 1 = true ∧ valueOk
  pSERVO SERVO.STEP_CMD.off 1 = true := ⟨(base.put pSERVO SERVO.STEP_SPAN.SPAN (spanBits 1) |>.putFlag pSERVO SERVO.STEP_CTL.STEP_ENABLE
  true), .bar0 0, by decide +kernel⟩
theorem wit_steps_of_the_servo_6 : ∃ s : State, ∃ r, s.sound = true ∧ s.clk.stepNext = some r ∧ s.clk.seeded = true ∧ r.slot < s.clk.slot
  ∧ (r.adopts = none ∨ s.servoState = 0) ∧ (.timescaleStep : Instr).wf = true :=
  ⟨{ base with clk := { base.clk with stepNext := some ⟨39999999, -5, none⟩ } }, (⟨39999999, -5, none⟩ : StepReq), by decide +kernel⟩
theorem wit_confirmation_0 : ∃ s : State, ∃ path, s.sound = true ∧ s.passes path pFLASH FLASH.FL_CMD.off 7 = true ∧ (Instr.confirm
  path).wf = true ∧ s.flash.restart = none ∧ (s.flash.trial = none ∨ s.flag pFLASH FLASH.TRIAL_STATE.HEALTHY = false) := ⟨onTrial, .bar0
  0, by decide +kernel⟩
theorem wit_confirmation_1 : ∃ s : State, ∃ x : Trial, ∃ h : ImageHdr, s.sound = true ∧ s.flash.trial = some x ∧ s.activeImage x.component
  = some h ∧ h.component = x.component ∧ 1 ≤ x.component ∧ x.component ≤ 5 ∧ h.secVer ≤ 64 ∧ s.flash.manifest.length ≤ 8 ∧ s.healthyNow x
  = true ∧ s.flag pFLASH FLASH.FL_CONFIG.CONFIRM_POLICY = true ∧ (.trialHealthy : Instr).wf = true := ⟨(onTrial |>.putFlag pFLASH
  FLASH.FL_CONFIG.CONFIRM_POLICY true), aTrial 5, aHdr 5, by decide +kernel⟩
theorem wit_confirmation_2 : ∃ s : State, ∃ x : Trial, ∃ h : ImageHdr, s.sound = true ∧ s.flash.trial = some x ∧ s.activeImage x.component
  = some h ∧ h.component = x.component ∧ 1 ≤ x.component ∧ x.component ≤ 5 ∧ h.secVer ≤ 64 ∧ s.flash.manifest.length ≤ 8 ∧ s.healthyNow x
  = true ∧ s.flag pFLASH FLASH.FL_CONFIG.CONFIRM_POLICY = false ∧ (.trialHealthy : Instr).wf = true := ⟨(onTrial |>.putFlag pFLASH
  FLASH.FL_CONFIG.CONFIRM_POLICY false), aTrial 5, aHdr 5, by decide +kernel⟩
theorem wit_confirmation_3 : ∃ s : State, ∃ x : Trial, ∃ h : ImageHdr, ∃ path, s.sound = true ∧ s.flash.trial = some x ∧ s.activeImage
  x.component = some h ∧ h.component = x.component ∧ 1 ≤ x.component ∧ x.component ≤ 5 ∧ h.secVer ≤ 64 ∧ s.flash.manifest.length ≤ 8 ∧
  s.flash.restart = none ∧ s.flag pFLASH FLASH.TRIAL_STATE.HEALTHY = true ∧ s.flRecovery = false ∧ (.confirm path : Instr).wf = true ∧
  State.passes s path pFLASH FLASH.FL_CMD.off 7 = true ∧ valueOk pFLASH FLASH.FL_CMD.off 7 = true := ⟨(onTrial |>.putFlag pFLASH
  FLASH.TRIAL_STATE.HEALTHY true), aTrial 5, aHdr 5, .bar0 0, by decide +kernel⟩

end Sys2Proof.Tests
end

section
/-! PROOFS. The form of a state is an invariant (O4): every row keeps it, and so does an empty queue. -/

namespace Sys2Proof.Machine

/-- Every command keeps the form: the meaning of each row does. -/
theorem exec_sound {s t : State} (hs : s.sound = true) : ∀ c : Instr, exec c s = .next t → t.sound = true
  | .registerWrite .., h => execRegisterWrite_sound hs _ _ _ _ t h
  | .stagedWordWrite .., h => execStagedWordWrite_sound hs _ _ _ _ t h
  | .latchingRead .., h => execLatchingRead_sound hs _ _ _ t h
  | .badAccess .., h => execBadAccess_sound hs _ _ _ t h
  | .bar2Write .., h => execBar2Write_sound hs _ _ t h
  | .spiTransaction .., h => execSpiTransaction_sound hs _ _ _ _ t h
  | .i2cTransaction .., h => execI2cTransaction_sound hs _ _ _ t h
  | .go .., h => execGo_sound hs _ _ _ _ t h
  | .commitAbort .., h => execCommitAbort_sound hs _ _ _ _ t h
  | .commitModeChange .., h => execCommitModeChange_sound hs _ _ _ _ t h
  | .shadowCommit .., h => execShadowCommit_sound hs _ _ t h
  | .cgArm .., h => execCgArm_sound hs _ _ t h
  | .cgDisarm .., h => execCgDisarm_sound hs _ _ t h
  | .cgFire .., h => execCgFire_sound hs _ t h
  | .windowBind .., h => execWindowBind_sound hs _ _ _ t h
  | .ownerWrite .., h => execOwnerWrite_sound hs _ _ _ t h
  | .claim .., h => execClaim_sound hs _ _ t h
  | .release .., h => execRelease_sound hs _ _ t h
  | .query .., h => execQuery_sound hs _ _ _ t h
  | .forceRelease .., h => execForceRelease_sound hs _ _ _ t h
  | .leasePeriodWrite .., h => execLeasePeriodWrite_sound hs _ _ _ t h
  | .kick .., h => execKick_sound hs _ _ _ t h
  | .leaseExpiry .., h => execLeaseExpiry_sound hs _ t h
  | .ringEnable .., h => execRingEnable_sound hs _ _ _ t h
  | .ringDisable .., h => execRingDisable_sound hs _ _ _ t h
  | .ringCfgWrite .., h => execRingCfgWrite_sound hs _ _ _ t h
  | .doorbell .., h => execDoorbell_sound hs _ _ _ t h
  | .ringDmaError .., h => execRingDmaError_sound hs _ t h
  | .commandWrite32 .., h => execCommandWrite32_sound hs _ _ _ _ _ t h
  | .commandRead32 .., h => execCommandRead32_sound hs _ _ _ _ t h
  | .commandWrite128 .., h => execCommandWrite128_sound hs _ _ _ _ _ t h
  | .commandRead128 .., h => execCommandRead128_sound hs _ _ _ _ t h
  | .fence .., h => execFence_sound hs _ _ t h
  | .leaseKick .., h => execLeaseKick_sound hs _ _ t h
  | .commandNop .., h => execCommandNop_sound hs _ _ t h
  | .modTimeExpiry .., h => execModTimeExpiry_sound hs _ t h
  | .freeze .., h => execFreeze_sound hs _ t h
  | .snapshotRelease .., h => execSnapshotRelease_sound hs _ t h
  | .edgeIssue .., h => execEdgeIssue_sound hs _ t h
  | .edgeLaunch .., h => execEdgeLaunch_sound hs _ t h
  | .calVisitEnd .., h => execCalVisitEnd_sound hs _ _ t h
  | .sweepStart .., h => execSweepStart_sound hs _ _ t h
  | .sweepDone .., h => execSweepDone_sound hs _ _ t h
  | .tableSetExchange .., h => execTableSetExchange_sound hs _ _ t h
  | .swapArm .., h => execSwapArm_sound hs _ _ _ t h
  | .swapVerify .., h => execSwapVerify_sound hs _ _ t h
  | .swapSwitch .., h => execSwapSwitch_sound hs _ t h
  | .swapDone .., h => execSwapDone_sound hs _ t h
  | .failedLaneRemap .., h => execFailedLaneRemap_sound hs _ t h
  | .swapLane .., h => execSwapLane_sound hs _ _ _ t h
  | .resweepSpare .., h => execResweepSpare_sound hs _ _ t h
  | .retest .., h => execRetest_sound hs _ _ _ t h
  | .retestDone .., h => execRetestDone_sound hs _ _ t h
  | .tdcFault .., h => execTdcFault_sound hs _ t h
  | .engineTableEcc .., h => execEngineTableEcc_sound hs _ _ _ t h
  | .driverFault .., h => execDriverFault_sound hs _ _ t h
  | .loopEnable .., h => execLoopEnable_sound hs _ _ t h
  | .channelFlush .., h => execChannelFlush_sound hs _ _ t h
  | .channelSafeExit .., h => execChannelSafeExit_sound hs _ _ t h
  | .triggerLineEvent .., h => execTriggerLineEvent_sound hs _ t h
  | .tlSrcWrite .., h => execTlSrcWrite_sound hs _ _ _ t h
  | .tlShapeWrite .., h => execTlShapeWrite_sound hs _ _ _ t h
  | .fireNow .., h => execFireNow_sound hs _ _ t h
  | .fireAt .., h => execFireAt_sound hs _ _ t h
  | .start .., h => execStart_sound hs _ _ t h
  | .stopAtEnd .., h => execStopAtEnd_sound hs _ _ t h
  | .stopNow .., h => execStopNow_sound hs _ _ t h
  | .jump .., h => execJump_sound hs _ _ t h
  | .clearRequest .., h => execClearRequest_sound hs _ _ t h
  | .disarm .., h => execDisarm_sound hs _ _ t h
  | .seqDecision .., h => execSeqDecision_sound hs _ t h
  | .seqOccurrenceStart .., h => execSeqOccurrenceStart_sound hs _ t h
  | .seqCut .., h => execSeqCut_sound hs _ t h
  | .seqParkResume .., h => execSeqParkResume_sound hs _ t h
  | .seqStop .., h => execSeqStop_sound hs _ t h
  | .edgeHi .., h => execEdgeHi_sound hs _ t h
  | .edgeLo .., h => execEdgeLo_sound hs _ t h
  | .toggle .., h => execToggle_sound hs _ t h
  | .mark .., h => execMark_sound hs _ t h
  | .recordNop .., h => execRecordNop_sound hs _ t h
  | .recordEnd .., h => execRecordEnd_sound hs _ t h
  | .bankEcc .., h => execBankEcc_sound hs _ _ _ t h
  | .courseTableEcc .., h => execCourseTableEcc_sound hs _ _ t h
  | .refillSubmit .., h => execRefillSubmit_sound hs _ _ t h
  | .refillFlush .., h => execRefillFlush_sound hs _ _ t h
  | .refillDone .., h => execRefillDone_sound hs _ _ t h
  | .refillDmaError .., h => execRefillDmaError_sound hs _ t h
  | .readySet .., h => execReadySet_sound hs _ t h
  | .readyClear .., h => execReadyClear_sound hs _ t h
  | .validate .., h => execValidate_sound hs _ t h
  | .syncInEvent .., h => execSyncInEvent_sound hs _ _ _ t h
  | .syncOutPulse .., h => execSyncOutPulse_sound hs _ t h
  | .ppsPulse .., h => execPpsPulse_sound hs _ t h
  | .actionAccept .., h => execActionAccept_sound hs _ _ t h
  | .submit .., h => execSubmit_sound hs _ _ t h
  | .flush .., h => execFlush_sound hs _ _ t h
  | .queueSafeExit .., h => execQueueSafeExit_sound hs _ t h
  | .queueEcc .., h => execQueueEcc_sound hs _ _ t h
  | .tickEnable .., h => execTickEnable_sound hs _ _ _ t h
  | .tickDelivery .., h => execTickDelivery_sound hs _ t h
  | .phaseEnable .., h => execPhaseEnable_sound hs _ _ _ t h
  | .restart .., h => execRestart_sound hs _ _ t h
  | .phaseSourceLost .., h => execPhaseSourceLost_sound hs _ t h
  | .phaseConvert .., h => execPhaseConvert_sound hs _ t h
  | .inputCrossing .., h => execInputCrossing_sound hs _ _ t h
  | .inputResolved .., h => execInputResolved_sound hs _ _ t h
  | .stampReady .., h => execStampReady_sound hs _ _ t h
  | .fifoHandout .., h => execFifoHandout_sound hs _ t h
  | .injectedEvent .., h => execInjectedEvent_sound hs _ _ _ _ t h
  | .inputTableDone .., h => execInputTableDone_sound hs _ _ _ t h
  | .calStale .., h => execCalStale_sound hs _ _ t h
  | .recal .., h => execRecal_sound hs _ _ t h
  | .inputTableEcc .., h => execInputTableEcc_sound hs _ _ _ t h
  | .sessionEnable .., h => execSessionEnable_sound hs _ _ _ t h
  | .gateEnable .., h => execGateEnable_sound hs _ _ _ t h
  | .arm .., h => execArm_sound hs _ _ t h
  | .sessionAbort .., h => execSessionAbort_sound hs _ _ t h
  | .gateStart .., h => execGateStart_sound hs _ _ t h
  | .intakeDrain .., h => execIntakeDrain_sound hs _ t h
  | .sessionTimeout .., h => execSessionTimeout_sound hs _ t h
  | .gateEnd .., h => execGateEnd_sound hs _ t h
  | .tdcEngineEcc .., h => execTdcEngineEcc_sound hs _ _ t h
  | .streamPeriodicBase .., h => execStreamPeriodicBase_sound hs _ t h
  | .streamBatchWrite .., h => execStreamBatchWrite_sound hs _ t h
  | .streamResume .., h => execStreamResume_sound hs _ t h
  | .apllLockWindow .., h => execApllLockWindow_sound hs _ _ t h
  | .xoUpdate .., h => execXoUpdate_sound hs _ t h
  | .ageingFit .., h => execAgeingFit_sound hs _ t h
  | .refEnable .., h => execRefEnable_sound hs _ _ _ t h
  | .refObservation .., h => execRefObservation_sound hs _ t h
  | .refPresenceFail .., h => execRefPresenceFail_sound hs _ t h
  | .push .., h => execPush_sound hs _ _ t h
  | .acceptSlew .., h => execAcceptSlew_sound hs _ _ t h
  | .acceptStep .., h => execAcceptStep_sound hs _ _ t h
  | .reject .., h => execReject_sound hs _ _ t h
  | .clearSuspect .., h => execClearSuspect_sound hs _ _ t h
  | .requalify .., h => execRequalify_sound hs _ _ t h
  | .servoModeWrite .., h => execServoModeWrite_sound hs _ _ t h
  | .step .., h => execStep_sound hs _ t h
  | .stepProposed .., h => execStepProposed_sound hs _ t h
  | .slewProposed .., h => execSlewProposed_sound hs _ t h
  | .apllAEnable .., h => execApllAEnable_sound hs _ _ t h
  | .freqCmdSet .., h => execFreqCmdSet_sound hs _ t h
  | .runProfile .., h => execRunProfile_sound hs _ t h
  | .abortRamp .., h => execAbortRamp_sound hs _ t h
  | .relock .., h => execRelock_sound hs _ t h
  | .auxEnable .., h => execAuxEnable_sound hs _ _ _ t h
  | .auxPeriodEnd .., h => execAuxPeriodEnd_sound hs _ t h
  | .auxSafeExit .., h => execAuxSafeExit_sound hs _ _ t h
  | .switch .., h => execSwitch_sound hs _ t h
  | .pathAccept .., h => execPathAccept_sound hs _ t h
  | .pathClear .., h => execPathClear_sound hs _ t h
  | .ridgeSlotTx .., h => execRidgeSlotTx_sound hs _ t h
  | .ridgeBlockLock .., h => execRidgeBlockLock_sound hs _ t h
  | .timeCellRx .., h => execTimeCellRx_sound hs _ _ t h
  | .trigCellRx .., h => execTrigCellRx_sound hs _ _ t h
  | .mgmtRequestRx .., h => execMgmtRequestRx_sound hs _ _ t h
  | .mgmtResponseRx .., h => execMgmtResponseRx_sound hs _ _ t h
  | .fillCellRx .., h => execFillCellRx_sound hs _ t h
  | .ridgeLinkLost .., h => execRidgeLinkLost_sound hs _ t h
  | .ridgeObsInterval .., h => execRidgeObsInterval_sound hs _ t h
  | .issue .., h => execIssue_sound hs _ _ t h
  | .mgmtRead32 .., h => execMgmtRead32_sound hs _ _ t h
  | .mgmtWrite32 .., h => execMgmtWrite32_sound hs _ _ t h
  | .mgmtRead128 .., h => execMgmtRead128_sound hs _ _ t h
  | .mgmtWrite128 .., h => execMgmtWrite128_sound hs _ _ t h
  | .ethDoorbell .., h => execEthDoorbell_sound hs _ _ _ _ t h
  | .ethFrameTx .., h => execEthFrameTx_sound hs _ _ t h
  | .ethFrameRx .., h => execEthFrameRx_sound hs _ _ t h
  | .ethTxStamp .., h => execEthTxStamp_sound hs _ _ t h
  | .ethLinkChange .., h => execEthLinkChange_sound hs _ _ t h
  | .eaveSwitchover .., h => execEaveSwitchover_sound hs _ t h
  | .calCmdSet .., h => execCalCmdSet_sound hs _ t h
  | .syncNow .., h => execSyncNow_sound hs _ t h
  | .invalidate .., h => execInvalidate_sound hs _ t h
  | .trimRenew .., h => execTrimRenew_sound hs _ t h
  | .monitorTick .., h => execMonitorTick_sound hs _ t h
  | .pwrOn .., h => execPwrOn_sound hs _ t h
  | .pwrOff .., h => execPwrOff_sound hs _ t h
  | .alertSet .., h => execAlertSet_sound hs _ t h
  | .alertClr .., h => execAlertClr_sound hs _ t h
  | .wakeEdge .., h => execWakeEdge_sound hs _ t h
  | .logClear .., h => execLogClear_sound hs _ t h
  | .lineFault .., h => execLineFault_sound hs _ t h
  | .errInject .., h => execErrInject_sound hs _ _ _ t h
  | .inject .., h => execInject_sound hs _ _ _ t h
  | .clearPair .., h => execClearPair_sound hs _ t h
  | .enterSafe .., h => execEnterSafe_sound hs _ t h
  | .reinit .., h => execReinit_sound hs _ t h
  | .deviceSafeExit .., h => execDeviceSafeExit_sound hs _ t h
  | .firstFaultClear .., h => execFirstFaultClear_sound hs _ t h
  | .gutterStorageEcc .., h => execGutterStorageEcc_sound hs _ t h
  | .suppliesGood .., h => execSuppliesGood_sound hs _ t h
  | .supplyBelowThreshold .., h => execSupplyBelowThreshold_sound hs _ t h
  | .supplyOutOfRange .., h => execSupplyOutOfRange_sound hs _ t h
  | .deviceReset .., h => execDeviceReset_sound hs _ t h
  | .stage1Entry .., h => execStage1Entry_sound hs _ t h
  | .begin .., h => execBegin_sound hs _ t h
  | .writeWindow .., h => execWriteWindow_sound hs _ t h
  | .dmaWrite .., h => execDmaWrite_sound hs _ _ t h
  | .finish .., h => execFinish_sound hs _ _ t h
  | .activate .., h => execActivate_sound hs _ t h
  | .activateAtReset .., h => execActivateAtReset_sound hs _ t h
  | .confirm .., h => execConfirm_sound hs _ t h
  | .revert .., h => execRevert_sound hs _ t h
  | .flAbort .., h => execFlAbort_sound hs _ t h
  | .loadManifest .., h => execLoadManifest_sound hs _ t h
  | .clearManifest .., h => execClearManifest_sound hs _ t h
  | .readLog .., h => execReadLog_sound hs _ t h
  | .installKey .., h => execInstallKey_sound hs _ t h
  | .ownerEnroll .., h => execOwnerEnroll_sound hs _ t h
  | .copyBlockDone .., h => execCopyBlockDone_sound hs _ t h
  | .copyDone .., h => execCopyDone_sound hs _ t h
  | .microcodeBankSwap .., h => execMicrocodeBankSwap_sound hs _ t h
  | .cellDrop .., h => execCellDrop_sound hs _ _ t h
  | .configurationRequest .., h => execConfigurationRequest_sound hs _ t h
  | .boundaryScan .., h => execBoundaryScan_sound hs _ t h
  | .perstNAssert, h => execPerstNAssert_sound hs t h
  | .d3hotEntry, h => execD3hotEntry_sound hs t h
  | .yTakesEffect, h => execYTakesEffect_sound hs t h
  | .timescaleStep, h => execTimescaleStep_sound hs t h
  | .leapApply, h => execLeapApply_sound hs t h
  | .snapshotTimeout, h => execSnapshotTimeout_sound hs t h
  | .busEcc, h => execBusEcc_sound hs t h
  | .actionDispatch, h => execActionDispatch_sound hs t h
  | .actionNop, h => execActionNop_sound hs t h
  | .chanHi, h => execChanHi_sound hs t h
  | .chanLo, h => execChanLo_sound hs t h
  | .chanToggle, h => execChanToggle_sound hs t h
  | .chanPulse, h => execChanPulse_sound hs t h
  | .fireLine, h => execFireLine_sound hs t h
  | .seqStart, h => execSeqStart_sound hs t h
  | .seqJump, h => execSeqJump_sound hs t h
  | .seqStopAtEnd, h => execSeqStopAtEnd_sound hs t h
  | .seqStopNow, h => execSeqStopNow_sound hs t h
  | .measArm, h => execMeasArm_sound hs t h
  | .regWrite32, h => execRegWrite32_sound hs t h
  | .notify, h => execNotify_sound hs t h
  | .timescaleSeed, h => execTimescaleSeed_sound hs t h
  | .ovenStable, h => execOvenStable_sound hs t h
  | .ovenFault, h => execOvenFault_sound hs t h
  | .xtalFault, h => execXtalFault_sound hs t h
  | .slewEnd, h => execSlewEnd_sound hs t h
  | .rampEnd, h => execRampEnd_sound hs t h
  | .profileDone, h => execProfileDone_sound hs t h
  | .sscChange, h => execSscChange_sound hs t h
  | .threshCrossing, h => execThreshCrossing_sound hs t h
  | .tebReport, h => execTebReport_sound hs t h
  | .traceExpiry, h => execTraceExpiry_sound hs t h
  | .mgmtTimeout, h => execMgmtTimeout_sound hs t h
  | .eavePor, h => execEavePor_sound hs t h
  | .xt32Fault, h => execXt32Fault_sound hs t h
  | .eaveLeap, h => execEaveLeap_sound hs t h
  | .calendarSync, h => execCalendarSync_sound hs t h
  | .test, h => execTest_sound hs t h
  | .and, h => execAnd_sound hs t h
  | .or, h => execOr_sound hs t h
  | .setf, h => execSetf_sound hs t h
  | .jmp, h => execJmp_sound hs t h
  | .cnt, h => execCnt_sound hs t h
  | .cmp, h => execCmp_sound hs t h
  | .outPwrOn, h => execOutPwrOn_sound hs t h
  | .outPwrOff, h => execOutPwrOff_sound hs t h
  | .outAlertSet, h => execOutAlertSet_sound hs t h
  | .outAlertClr, h => execOutAlertClr_sound hs t h
  | .log, h => execLog_sound hs t h
  | .clrl, h => execClrl_sound hs t h
  | .progEnd, h => execProgEnd_sound hs t h
  | .programMemoryEcc, h => execProgramMemoryEcc_sound hs t h
  | .pwrDownDelayExpiry, h => execPwrDownDelayExpiry_sound hs t h
  | .alarm, h => execAlarm_sound hs t h
  | .faultCollect, h => execFaultCollect_sound hs t h
  | .injectionHoldEnd, h => execInjectionHoldEnd_sound hs t h
  | .pairSenseFault, h => execPairSenseFault_sound hs t h
  | .resetNLow, h => execResetNLow_sound hs t h
  | .dieHot, h => execDieHot_sound hs t h
  | .dieCritical, h => execDieCritical_sound hs t h
  | .sclkMonitor, h => execSclkMonitor_sound hs t h
  | .mgmtWatchdogMiss, h => execMgmtWatchdogMiss_sound hs t h
  | .stage2Entry, h => execStage2Entry_sound hs t h
  | .stage3Entry, h => execStage3Entry_sound hs t h
  | .pcieLinkTraining, h => execPcieLinkTraining_sound hs t h
  | .flashDmaError, h => execFlashDmaError_sound hs t h
  | .mgmtRestartDone, h => execMgmtRestartDone_sound hs t h
  | .restartTimeout, h => execRestartTimeout_sound hs t h
  | .trialHealthy, h => execTrialHealthy_sound hs t h
  | .trialWindowExpiry, h => execTrialWindowExpiry_sound hs t h
  | .sramUncorr, h => execSramUncorr_sound hs t h

/-- Settles O4: a command runs on the state without it in the queue, whose form is the same, and keeps the form; an empty queue does too. -/
theorem everyStepKeepsTheForm : Obligations.EveryStepKeepsTheForm := by
  intro s t hs hstep
  unfold step at hstep
  split at hstep
  · next c rest _ =>
    have hrest : State.sound { s with pending := rest } = true := State.sound_mk.2 (State.sound_parts hs)
    exact exec_sound hrest c hstep
  · exact State.emptyQueue_sound hs t hstep

end Sys2Proof.Machine
end

section
/-! SUPPORT. What a command that completes answers; reads of registers through operations that touch one page: counters, interrupt causes,
faults, and the three ways to lose a byte of a BAR2 write. -/

namespace Sys2Proof.Machine

/-! ### What a command that runs answers -/

/-- What is said of a command that completes is said of the state it answers. -/
theorem Completes.of_exec {c : Instr} {s u : State} {P : State → Prop} (h : exec c s = .next u) (hP : P u) : Completes c s P := ⟨u, h, hP⟩

/-! ### Reads see the register file alone -/

theorem State.rd_of_regs {s t : State} (h : t.regs = s.regs) (p o : Nat) : t.rd p o = s.rd p o := by simp only [State.rd, h]

/-- A field lies in one word, inside its page. -/
abbrev OneWord (f : Fld) : Prop := f.lo ≤ f.hi ∧ f.hi < 32 ∧ f.off < 4096

/-- The words of a page read the same in two states. -/
def SamePage (p : Nat) (s t : State) : Prop := ∀ o, o < 4096 → t.rd p o = s.rd p o

namespace SamePage
variable {p : Nat} {s t u : State}

theorem of_regs (h : t.regs = s.regs) : SamePage p s t := fun o _ => State.rd_of_regs h p o

theorem refl : SamePage p s s := of_regs rfl

theorem trans (h : SamePage p s t) (h' : SamePage p t u) : SamePage p s u := fun o ho => (h' o ho).trans (h o ho)

/-- A field of one word of the page reads the same. -/
theorem get_eq (h : SamePage p s t) {f : Fld} (hf : OneWord f) : t.get p f = s.get p f := by
  simp only [State.get, hf.2.1, if_true, h f.off hf.2.2]

theorem irqSet_eq (h : SamePage p s t) (bit : Nat) : t.irqSet p bit = s.irqSet p bit := by
  simp only [State.irqSet, h 0x018 (by decide)]

theorem errSet_eq (h : SamePage p s t) (bit : Nat) : t.errSet p bit = s.errSet p bit := by
  simp only [State.errSet, h 0x024 (by decide)]

theorem wr {q o : Nat} (v : Word) (ho : o < 4096) (hq : p ≠ q) : SamePage p s (s.wr q o v) :=
  fun _ hr => State.rd_wr_page _ _ _ _ _ _ ho hr hq

theorem put {q : Nat} {f : Fld} (v : Nat) (hf : OneWord f) (hq : p ≠ q) : SamePage p s (s.put q f v) := by
  simp only [State.put, hf.2.1, if_true]
  exact wr _ hf.2.2 hq

theorem onlyIf (c : Bool) {f : State → State} (h : SamePage p s (f s)) : SamePage p s (s.onlyIf c f) := by
  unfold State.onlyIf
  split
  · exact h
  · exact refl

theorem forEach {α : Type} (l : List α) (f : α → State → State) (h : ∀ a ∈ l, ∀ u, SamePage p u (f a u)) :
    SamePage p s (s.forEach l f) := by
  induction l generalizing s with
  | nil => exact refl
  | cons a l ih => exact (h a (by simp) s).trans (ih (fun b hb => h b (by simp [hb])))

end SamePage

/-- A loop over pages, each turn on its own page: a page reads as its turn leaves it. -/
theorem samePage_forEach_turn {l : List Nat} (hn : l.Nodup) {q : Nat} (hq : q ∈ l) (page : Nat → Nat) (f : Nat → State → State)
    (h : ∀ n u, n ≠ q → SamePage (page q) u (f n u)) (s : State) :
    ∃ u, SamePage (page q) s u ∧ SamePage (page q) (f q u) (s.forEach l f) := by
  obtain ⟨before, after, rfl⟩ := List.append_of_mem hq
  have hnot : q ∉ before ∧ q ∉ after := by
    have := List.nodup_middle.1 hn
    simpa [not_or] using (List.nodup_cons.1 this).1
  refine ⟨s.forEach before f, SamePage.forEach _ _ (fun n hb u => h n u (by rintro rfl; exact hnot.1 hb)), ?_⟩
  have hsplit : s.forEach (before ++ q :: after) f = (f q (s.forEach before f)).forEach after f := by simp [State.forEach]
  rw [hsplit]
  exact SamePage.forEach _ _ (fun n ha u => h n u (by rintro rfl; exact hnot.2 ha))

/-! ### Counters, causes and faults -/

/-- A counter that saturates reads one higher, or its highest value. -/
theorem State.get_incSat_self (s : State) (p : Nat) {f : Fld} (n : Nat) (hf : OneWord f) :
    (s.incSat p f n).get p f = min (s.get p f + n) (2 ^ (f.hi + 1 - f.lo) - 1) := by
  unfold State.incSat
  rw [State.get_put_self _ _ _ _ hf.1 hf.2.1]
  exact Nat.mod_eq_of_lt (lt_of_le_of_lt (Nat.min_le_right _ _) (Nat.sub_lt (Nat.two_pow_pos _) Nat.one_pos))

theorem State.sendMsix_regs (s : State) (v : Nat) : (s.sendMsix v).regs = s.regs := by
  unfold State.sendMsix
  split <;> rfl

/-- An interrupt cause is a bit of IRQ_STATUS; its message is no register. -/
theorem State.irq_regs (s : State) (p bit : Nat) :
    (s.irq p bit).regs = (s.wr p 0x018 (BitVec.ofNat 32 (setBit (s.rd p 0x018).toNat bit))).regs := by
  unfold State.irq
  dsimp only
  split
  · exact State.sendMsix_regs _ _
  · rfl

/-- A fault is a bit of ERR_STATUS; its event and its message are no registers. -/
theorem State.err_regs (s : State) (p bit : Nat) :
    (s.err p bit).regs = (s.wr p 0x024 (BitVec.ofNat 32 (setBit (s.rd p 0x024).toNat bit))).regs := by
  unfold State.err
  extract_lets v s1 s2
  have h2 : s2.regs = s1.regs := by
    simp only [s2]
    split <;> rfl
  split
  · exact (State.sendMsix_regs _ _).trans h2
  · exact h2

theorem bitOf_word_setBit (w : Word) (bit : Nat) (h : bit < 32) : bitOf (BitVec.ofNat 32 (setBit w.toNat bit)).toNat bit = true := by
  rw [BitVec.toNat_ofNat, bitOf_eq_testBit, Nat.testBit_mod_two_pow, testBit_setBit]
  simp [h]

theorem State.irqSet_irq_self (s : State) (p bit : Nat) (h : bit < 32) : (s.irq p bit).irqSet p bit = true := by
  unfold State.irqSet
  rw [State.rd_of_regs (s.irq_regs p bit), State.rd_wr_self]
  exact bitOf_word_setBit _ _ h

theorem State.errSet_err_self (s : State) (p bit : Nat) (h : bit < 32) : (s.err p bit).errSet p bit = true := by
  unfold State.errSet
  rw [State.rd_of_regs (s.err_regs p bit), State.rd_wr_self]
  exact bitOf_word_setBit _ _ h

theorem State.rd_irq_off (s : State) (p bit o : Nat) (h : o ≠ 0x018) : (s.irq p bit).rd p o = s.rd p o :=
  (State.rd_of_regs (s.irq_regs p bit) p o).trans (State.rd_wr_off _ _ _ _ _ h)

theorem State.rd_err_off (s : State) (p bit o : Nat) (h : o ≠ 0x024) : (s.err p bit).rd p o = s.rd p o :=
  (State.rd_of_regs (s.err_regs p bit) p o).trans (State.rd_wr_off _ _ _ _ _ h)

theorem State.get_irq_off (s : State) (p bit : Nat) {f : Fld} (hf : OneWord f) (h : f.off ≠ 0x018) : (s.irq p bit).get p f = s.get p f := by
  simp only [State.get, hf.2.1, if_true, State.rd_irq_off _ _ _ _ h]

theorem State.get_err_off (s : State) (p bit : Nat) {f : Fld} (hf : OneWord f) (h : f.off ≠ 0x024) : (s.err p bit).get p f = s.get p f := by
  simp only [State.get, hf.2.1, if_true, State.rd_err_off _ _ _ _ h]

theorem SamePage.irq {p q : Nat} {s : State} (bit : Nat) (hq : p ≠ q) : SamePage p s (s.irq q bit) :=
  fun o ho => (State.rd_of_regs (s.irq_regs q bit) p o).trans (SamePage.wr _ (by decide) hq o ho)

theorem SamePage.err {p q : Nat} {s : State} (bit : Nat) (hq : p ≠ q) : SamePage p s (s.err q bit) :=
  fun o ho => (State.rd_of_regs (s.err_regs q bit) p o).trans (SamePage.wr _ (by decide) hq o ho)

theorem SamePage.incSat {p q : Nat} {s : State} {f : Fld} (n : Nat) (hf : OneWord f) (hq : p ≠ q) : SamePage p s (s.incSat q f n) :=
  SamePage.put _ hf hq

/-! ### The three ways to lose a byte of a BAR2 write (R48, R122) -/

theorem State.bar2Drop_errSet (s : State) : s.bar2Drop.errSet pHOSTQ 1 = true := by
  have h := State.rd_wr_off (s.err pHOSTQ 1) pHOSTQ HOSTQ.BAR2_DROP_COUNT.off 0x024
  unfold State.bar2Drop State.errSet State.incSat State.put
  simp only [show (31 : Nat) < 32 by decide, if_true]
  rw [h _ (by decide)]
  exact State.errSet_err_self _ _ _ (by decide)

theorem State.bar2Drop_count (s : State) : s.bar2Drop.get pHOSTQ HOSTQ.BAR2_DROP_COUNT.COUNT =
    min (s.get pHOSTQ HOSTQ.BAR2_DROP_COUNT.COUNT + 1) (2 ^ 32 - 1) := by
  rw [← State.get_err_off s pHOSTQ 1 (f := HOSTQ.BAR2_DROP_COUNT.COUNT) (by decide) (by decide)]
  exact State.get_incSat_self _ _ _ (by decide)

theorem SamePage.bar2Drop {p : Nat} {s : State} (hp : p ≠ pHOSTQ) : SamePage p s s.bar2Drop :=
  (SamePage.err 1 hp).trans (SamePage.incSat _ (by decide) hp)

/-- The shape of the drops of R122: the first one is noted, each is counted, and the cause is raised. -/
def State.notedDrop (s : State) (p : Nat) (valid note count : Fld) (v bit : Nat) : State :=
  ((s.onlyIf (!s.flag p valid) (fun s => (s.put p note v).putFlag p valid true)).incSat p count).irq p bit

theorem State.activeDrop_eq (s : State) (q a : Nat) : s.activeDrop q a =
    s.notedDrop (pSEQ q) SEQ.FIRST_DROP_ADDR.VALID SEQ.FIRST_DROP_ADDR.OFFSET SEQ.ACTIVE_WRITE_DROPS.COUNT a 6 := rfl

theorem State.courseDrop_eq (s : State) (c : Nat) : s.courseDrop c =
    s.notedDrop pCOURSE COURSE.FIRST_COURSE_DROP.VALID COURSE.FIRST_COURSE_DROP.COURSE COURSE.COURSE_WRITE_DROPS.COUNT c 0 := rfl

section
variable {s : State} {p v bit : Nat} {valid note count : Fld}

theorem State.notedDrop_irqSet (hbit : bit < 32) : (s.notedDrop p valid note count v bit).irqSet p bit = true :=
  State.irqSet_irq_self _ _ _ hbit

theorem State.notedDrop_count (hc : OneWord count) (hn : OneWord note) (hv : OneWord valid) (hirq : count.off ≠ 0x018)
    (hcn : count.off ≠ note.off) (hcv : count.off ≠ valid.off) :
    (s.notedDrop p valid note count v bit).get p count = min (s.get p count + 1) (2 ^ (count.hi + 1 - count.lo) - 1) := by
  have hnoted : (s.onlyIf (!s.flag p valid) (fun s => (s.put p note v).putFlag p valid true)).get p count = s.get p count := by
    unfold State.onlyIf
    split
    · exact (State.get_put_off _ _ _ _ _ _ hv.2.1 hc.2.1 hv.2.2 hc.2.2 (.inr hcv)).trans
        (State.get_put_off _ _ _ _ _ _ hn.2.1 hc.2.1 hn.2.2 hc.2.2 (.inr hcn))
    · rfl
  unfold State.notedDrop
  rw [State.get_irq_off _ _ _ hc hirq, State.get_incSat_self _ _ _ hc, hnoted]

theorem SamePage.notedDrop {q : Nat} (hc : OneWord count) (hn : OneWord note) (hv : OneWord valid) (hq : q ≠ p) :
    SamePage q s (s.notedDrop p valid note count v bit) :=
  ((SamePage.onlyIf _ ((SamePage.put _ hn hq).trans (SamePage.put _ hv hq))).trans (SamePage.incSat _ hc hq)).trans (SamePage.irq _ hq)

end

theorem State.activeDrop_irqSet (s : State) (q a : Nat) : (s.activeDrop q a).irqSet (pSEQ q) 6 = true :=
  State.notedDrop_irqSet (by decide)

theorem State.activeDrop_count (s : State) (q a : Nat) : (s.activeDrop q a).get (pSEQ q) SEQ.ACTIVE_WRITE_DROPS.COUNT =
    min (s.get (pSEQ q) SEQ.ACTIVE_WRITE_DROPS.COUNT + 1) (2 ^ 32 - 1) :=
  State.notedDrop_count (by decide) (by decide) (by decide) (by decide) (by decide) (by decide)

theorem SamePage.activeDrop {p q : Nat} {s : State} (a : Nat) (hp : p ≠ pSEQ q) : SamePage p s (s.activeDrop q a) :=
  SamePage.notedDrop (by decide) (by decide) (by decide) hp

theorem State.courseDrop_irqSet (s : State) (c : Nat) : (s.courseDrop c).irqSet pCOURSE 0 = true := State.notedDrop_irqSet (by decide)

theorem State.courseDrop_count (s : State) (c : Nat) : (s.courseDrop c).get pCOURSE COURSE.COURSE_WRITE_DROPS.COUNT =
    min (s.get pCOURSE COURSE.COURSE_WRITE_DROPS.COUNT + 1) (2 ^ 32 - 1) :=
  State.notedDrop_count (by decide) (by decide) (by decide) (by decide) (by decide) (by decide)

theorem SamePage.courseDrop {p : Nat} {s : State} (c : Nat) (hp : p ≠ pCOURSE) : SamePage p s (s.courseDrop c) :=
  SamePage.notedDrop (by decide) (by decide) (by decide) hp

end Sys2Proof.Machine
end

section
/-! PROOFS. A write into BAR2 (O7): the fate of a byte, the aligned parts of a write, and what the write leaves in the bytes and the counters. -/

namespace Sys2Proof.Machine

/-! ### What becomes of a byte -/

section
variable {s : State}

/-- Bytes of one aligned unit of 32 meet one fate. -/
theorem State.bar2Fate_of_same_unit {a b : Nat} (h : a / 32 = b / 32) : s.bar2Fate a = s.bar2Fate b := by
  unfold State.bar2Fate courseBase bankBytes
  by_cases hb : b < 0x3000000
  · simp only [hb, show a < 0x3000000 by omega, if_true, show a / 0x400000 = b / 0x400000 by omega,
      show a % 0x400000 / 64 = b % 0x400000 / 64 by omega]
  · simp only [hb, show ¬ a < 0x3000000 by omega, if_false, show (a - 0x3000000) / 32 = (b - 0x3000000) / 32 by omega,
      show a < 0x3000000 + 0x20000 ↔ b < 0x3000000 + 0x20000 by omega]

theorem State.bar2Fate_pattern_stored {a q : Nat} (ha : a < courseBase) (hq : s.seqOfQuad (a / bankBytes) = some q)
    (hagent : s.get pOWN OWN.BAR2_AGENT.AGENT ≠ 0) (howner : s.seqOwner q = s.get pOWN OWN.BAR2_AGENT.AGENT)
    (hidle : s.rangeActive q (a % bankBytes / 64) 1 = false) : s.bar2Fate a = .stored := by
  simp [State.bar2Fate, ha, hq, hagent, howner, hidle]

theorem State.bar2Fate_course_stored {a : Nat} (ha : courseBase ≤ a) (htop : a < courseBase + 0x20000)
    (howner : s.inRanges (s.get pOWN OWN.BAR2_AGENT.AGENT) ((a - courseBase) / 32) = true)
    (hidle : s.courseActive ((a - courseBase) / 32) = false) : s.bar2Fate a = .stored := by
  simp [State.bar2Fate, Nat.not_lt.2 ha, htop, howner, hidle]

theorem State.bar2Fate_pattern_dropped {a : Nat} (ha : a < courseBase)
    (h : s.seqOfQuad (a / bankBytes) = none ∨ s.get pOWN OWN.BAR2_AGENT.AGENT = 0 ∨
      ∃ q, s.seqOfQuad (a / bankBytes) = some q ∧ s.seqOwner q ≠ s.get pOWN OWN.BAR2_AGENT.AGENT) : s.bar2Fate a = .dropped := by
  cases hq : s.seqOfQuad (a / bankBytes) with
  | none => simp [State.bar2Fate, ha, hq]
  | some q =>
    have hforeign : s.get pOWN OWN.BAR2_AGENT.AGENT = 0 ∨ s.seqOwner q ≠ s.get pOWN OWN.BAR2_AGENT.AGENT := by simpa [hq] using h
    simp [State.bar2Fate, ha, hq, hforeign]

end

/-! ### The parts of a write -/

section
variable {a x : Nat} {bytes : List Nat} {p : Nat × List Nat}

theorem bar2Part_bounds (h : p ∈ bar2Parts a bytes) :
    a ≤ p.1 ∧ 0 < p.2.length ∧ p.1 + p.2.length ≤ a + bytes.length ∧ (p.1 + p.2.length - 1) / 32 = p.1 / 32 := by
  simp only [bar2Parts, List.mem_filterMap, Option.ite_none_right_eq_some, Option.some.injEq] at h
  obtain ⟨k, -, hlt, rfl⟩ := h
  simp only [List.length_take, List.length_drop]
  omega

/-- A part carries the bytes of the write that stand at its place. -/
theorem bar2Part_getD (h : p ∈ bar2Parts a bytes) {k : Nat} (hk : k < p.2.length) : p.2.getD k 0 = bytes.getD (p.1 + k - a) 0 := by
  simp only [bar2Parts, List.mem_filterMap, Option.ite_none_right_eq_some, Option.some.injEq] at h
  obtain ⟨n, -, hlt, rfl⟩ := h
  simp only [List.length_take, List.length_drop] at hk
  simp only [List.getD_eq_getElem?_getD, List.getElem?_take, List.getElem?_drop]
  rw [if_pos (by omega), show max a (32 * (a / 32 + n)) + k - a = max a (32 * (a / 32 + n)) - a + k by omega]

/-- Every byte of the write stands in a part. -/
theorem exists_bar2Part (ha : a ≤ x) (hx : x < a + bytes.length) : ∃ p ∈ bar2Parts a bytes, p.1 ≤ x ∧ x < p.1 + p.2.length := by
  have hunit : max a (32 * (a / 32 + (x / 32 - a / 32))) < min (a + bytes.length) (32 * (a / 32 + (x / 32 - a / 32) + 1)) := by omega
  refine ⟨_, List.mem_filterMap.2 ⟨x / 32 - a / 32, List.mem_range.2 (by omega), if_pos hunit⟩, by dsimp only; omega, ?_⟩
  simp only [List.length_take, List.length_drop]
  omega

/-- A byte of a part meets the part's fate. -/
theorem bar2Part_fate {s : State} (h : p ∈ bar2Parts a bytes) (hle : p.1 ≤ x) (hlt : x < p.1 + p.2.length) : s.bar2Fate p.1 = s.bar2Fate x := by
  obtain ⟨-, -, -, hunit⟩ := bar2Part_bounds h
  exact State.bar2Fate_of_same_unit (by omega)

/-- The fates of the parts are those of the bytes. -/
theorem exists_bar2Part_fate_iff {s : State} {F : Bar2Fate} :
    (∃ p ∈ bar2Parts a bytes, s.bar2Fate p.1 = F) ↔ ∃ k, k < bytes.length ∧ s.bar2Fate (a + k) = F := by
  constructor
  · rintro ⟨p, hp, hF⟩
    obtain ⟨hle, hpos, hend, -⟩ := bar2Part_bounds hp
    exact ⟨p.1 - a, by omega, by rwa [Nat.add_sub_cancel' hle]⟩
  · rintro ⟨k, hk, hF⟩
    obtain ⟨p, hp, hle, hlt⟩ := exists_bar2Part (x := a + k) (Nat.le_add_right a k) (Nat.add_lt_add_left hk a)
    exact ⟨p, hp, (bar2Part_fate hp hle hlt).trans hF⟩

end

/-! ### The write in its four stages -/

theorem State.bar2Store_regs (s : State) (a : Nat) (l : List Nat) : (s.bar2Store a l).regs = s.regs := by
  unfold State.bar2Store
  dsimp only
  split <;> exact s.memStore_regs a l

theorem State.bar2Store_memByte (s : State) (a : Nat) (l : List Nat) (x : Nat) : (s.bar2Store a l).memByte x = (s.memStore a l).memByte x := by
  unfold State.bar2Store
  dsimp only
  split <;> rfl

/-- The parts of a write that the state `s` takes are stored in `u`. -/
def State.takeParts (s u : State) (l : List (Nat × List Nat)) : State :=
  u.forEach l (fun p u => if s.bar2Fate p.1 = .stored then u.bar2Store p.1 p.2 else u)

/-- The course whose entry is in play, for a byte that is lost for that. -/
def Bar2Fate.lostEntry : Bar2Fate → Option Nat
  | .entry c => some c
  | _ => none

/-- A sequencer counts the parts that are lost in its active ranges, by the first of them. -/
def State.countActive (s : State) (l : List (Nat × List Nat)) (q : Nat) (u : State) : State :=
  match l.find? (fun p => s.bar2Fate p.1 == .active q) with | some p => u.activeDrop q p.1 | none => u

/-- COURSE counts the parts that are lost in entries in play, by the first of them. -/
def State.countEntry (s : State) (l : List (Nat × List Nat)) (u : State) : State :=
  match l.findSome? (fun p => (s.bar2Fate p.1).lostEntry) with | some c => u.courseDrop c | none => u

theorem State.bar2Write_eq (s : State) (a : Nat) (bytes : List Nat) : s.bar2Write a bytes =
    s.countEntry (bar2Parts a bytes) (((s.takeParts s (bar2Parts a bytes)).onlyIf
      ((bar2Parts a bytes).any (fun p => s.bar2Fate p.1 == .dropped)) State.bar2Drop).forEach (List.range 4)
        (s.countActive (bar2Parts a bytes))) := rfl

theorem pSEQ_ne {p q : Nat} (hp : p < 0x78 ∨ 0x7c ≤ p) (hq : q < 4) : pSEQ q ≠ p := by
  simp only [pSEQ]; omega

theorem pSEQ_ne_pSEQ {q r : Nat} (h : q ≠ r) : pSEQ q ≠ pSEQ r := by
  simp only [pSEQ]; omega

section
variable {s u : State} {l : List (Nat × List Nat)} {x : Nat}

theorem State.takeParts_cons (p : Nat × List Nat) :
    s.takeParts u (p :: l) = s.takeParts (if s.bar2Fate p.1 = .stored then u.bar2Store p.1 p.2 else u) l := rfl

theorem State.takeParts_regs : (s.takeParts u l).regs = u.regs := by
  refine foldl_keeps (fun v : State => v.regs = u.regs) _ (fun v p hv => ?_) l u rfl
  dsimp only
  split
  · exact (State.bar2Store_regs _ _ _).trans hv
  · exact hv

/-- A byte that no part stored covers stands. -/
theorem State.takeParts_memByte_out (h : ∀ p ∈ l, s.bar2Fate p.1 = .stored → x < p.1 ∨ p.1 + p.2.length ≤ x) :
    (s.takeParts u l).memByte x = u.memByte x := by
  induction l generalizing u with
  | nil => rfl
  | cons p l ih =>
    rw [State.takeParts_cons, ih (fun r hr => h r (by simp [hr]))]
    split
    · next hp => exact (u.bar2Store_memByte _ _ _).trans (u.memByte_memStore_out _ _ _ (h p (by simp) hp))
    · rfl

/-- A byte that a part stored covers reads what the parts say of its place. -/
theorem State.takeParts_memByte_in {f : Nat → Nat} (hf : ∀ p ∈ l, ∀ k, k < p.2.length → p.2.getD k 0 = f (p.1 + k))
    (htop : ∀ p ∈ l, p.1 + p.2.length ≤ 67108864)
    (hx : ∃ p ∈ l, s.bar2Fate p.1 = .stored ∧ p.1 ≤ x ∧ x < p.1 + p.2.length) : (s.takeParts u l).memByte x = f x % 256 := by
  induction l generalizing u with
  | nil => simp at hx
  | cons p l ih =>
    rw [State.takeParts_cons]
    by_cases hlater : ∃ r ∈ l, s.bar2Fate r.1 = .stored ∧ r.1 ≤ x ∧ x < r.1 + r.2.length
    · exact ih (fun r hr => hf r (by simp [hr])) (fun r hr => htop r (by simp [hr])) hlater
    · obtain ⟨hp, hle, hlt⟩ : s.bar2Fate p.1 = .stored ∧ p.1 ≤ x ∧ x < p.1 + p.2.length := by
        obtain ⟨r, hr, hrx⟩ := hx
        rcases List.mem_cons.1 hr with rfl | hr
        · exact hrx
        · exact absurd ⟨r, hr, hrx⟩ hlater
      have hrest : ∀ r ∈ l, s.bar2Fate r.1 = .stored → x < r.1 ∨ r.1 + r.2.length ≤ x := by
        intro r hr hs
        by_contra hcov
        exact hlater ⟨r, hr, hs, by omega, by omega⟩
      obtain ⟨k, rfl⟩ := Nat.exists_eq_add_of_le hle
      have hk : k < p.2.length := by omega
      rw [State.takeParts_memByte_out hrest, if_pos hp, State.bar2Store_memByte,
        State.memByte_memStore_in _ _ _ _ hk (htop p (by simp)), hf p (by simp) k hk]

theorem State.countActive_samePage {page q : Nat} (h : page ≠ pSEQ q) : SamePage page u (s.countActive l q u) := by
  unfold State.countActive
  split
  · exact SamePage.activeDrop _ h
  · exact SamePage.refl

theorem State.countEntry_samePage {page : Nat} (h : page ≠ pCOURSE) : SamePage page u (s.countEntry l u) := by
  unfold State.countEntry
  split
  · exact SamePage.courseDrop _ h
  · exact SamePage.refl

/-- The counts of what is lost leave the bytes of BAR2. -/
theorem State.counts_holds {B : List Host.Cell} {L : List Instr} (c : Bool) (hu : u.holds B L) :
    (s.countEntry l ((u.onlyIf c State.bar2Drop).forEach (List.range 4) (s.countActive l))).holds B L := by
  have hdropped : (u.onlyIf c State.bar2Drop).holds B L := State.onlyIf_holds hu _ _ (fun _ h => State.bar2Drop_holds h)
  have hactive : ((u.onlyIf c State.bar2Drop).forEach (List.range 4) (s.countActive l)).holds B L := by
    refine State.forEach_holds hdropped _ _ (fun q v hv => ?_)
    unfold State.countActive
    split
    · exact State.activeDrop_holds hv _ _
    · exact hv
  unfold State.countEntry
  split
  · exact State.courseDrop_holds hactive _
  · exact hactive

end

/-! ### What a write into BAR2 leaves -/

section
variable {s : State} {a : Nat} {bytes : List Nat}

theorem State.bar2Write_memByte (x : Nat) : (s.bar2Write a bytes).memByte x = (s.takeParts s (bar2Parts a bytes)).memByte x := by
  rw [State.bar2Write_eq]
  simp only [State.memByte, (State.counts_holds _ (State.holds_self _)).1]

/-- A byte that is stored reads back. -/
theorem State.bar2Write_memByte_stored (htop : a + bytes.length ≤ 67108864) (hbyte : ∀ b ∈ bytes, b < 256) {k : Nat} (hk : k < bytes.length)
    (hfate : s.bar2Fate (a + k) = .stored) : (s.bar2Write a bytes).memByte (a + k) = bytes.getD k 0 := by
  obtain ⟨p, hp, hle, hlt⟩ := exists_bar2Part (x := a + k) (Nat.le_add_right a k) (Nat.add_lt_add_left hk a)
  have hsmall : bytes.getD k 0 < 256 := by
    rw [List.getD_eq_getElem _ _ hk]
    exact hbyte _ (List.getElem_mem hk)
  rw [State.bar2Write_memByte, State.takeParts_memByte_in (f := fun x => bytes.getD (x - a) 0) (fun p hp k hk => bar2Part_getD hp hk)
    (fun p hp => (bar2Part_bounds hp).2.2.1.trans htop) ⟨p, hp, (bar2Part_fate hp hle hlt).trans hfate, hle, hlt⟩, Nat.add_sub_cancel_left,
    Nat.mod_eq_of_lt hsmall]

/-- A byte outside the write, or lost, stands. -/
theorem State.bar2Write_memByte_stands {x : Nat} (h : x < a ∨ a + bytes.length ≤ x ∨ s.bar2Fate x ≠ .stored) :
    (s.bar2Write a bytes).memByte x = s.memByte x := by
  rw [State.bar2Write_memByte]
  refine State.takeParts_memByte_out (fun p hp hstored => ?_)
  obtain ⟨hle, hpos, hend, -⟩ := bar2Part_bounds hp
  by_contra hcov
  have hfate := bar2Part_fate (s := s) (x := x) hp (by omega) (by omega)
  rcases h with h | h | h
  · omega
  · omega
  · exact h (hfate.symm.trans hstored)

/-- A write of which nothing is lost leaves the registers. -/
theorem State.bar2Write_regs (h : ∀ k, k < bytes.length → s.bar2Fate (a + k) = .stored) : (s.bar2Write a bytes).regs = s.regs := by
  have hparts : ∀ p ∈ bar2Parts a bytes, s.bar2Fate p.1 = .stored := by
    intro p hp
    obtain ⟨hle, hpos, hend, -⟩ := bar2Part_bounds hp
    have := h (p.1 - a) (by omega)
    rwa [Nat.add_sub_cancel' hle] at this
  have hdropped : (bar2Parts a bytes).any (fun p => s.bar2Fate p.1 == .dropped) = false := by
    rw [List.any_eq_false]
    intro p hp
    simp [hparts p hp]
  have hactive : ∀ q u, s.countActive (bar2Parts a bytes) q u = u := by
    intro q u
    have hnone : (bar2Parts a bytes).find? (fun p => s.bar2Fate p.1 == .active q) = none := by
      rw [List.find?_eq_none]
      intro p hp
      simp [hparts p hp]
    rw [State.countActive, hnone]
  have hentry : (bar2Parts a bytes).findSome? (fun p => (s.bar2Fate p.1).lostEntry) = none := by
    rw [List.findSome?_eq_none_iff]
    intro p hp
    simp [hparts p hp, Bar2Fate.lostEntry]
  have hkeep : ∀ u : State, u.forEach (List.range 4) (s.countActive (bar2Parts a bytes)) = u := fun u =>
    foldl_keeps (fun v : State => v = u) _ (fun v q hv => (hactive q v).trans hv) _ u rfl
  rw [State.bar2Write_eq, State.countEntry, hentry, hkeep, hdropped]
  exact State.takeParts_regs

/-- What is dropped for its address or its agent raises BAR2_DROP of HOSTQ and is counted there, once for the write (R48, log 98). -/
theorem State.bar2Write_dropped (h : ∃ k, k < bytes.length ∧ s.bar2Fate (a + k) = .dropped) :
    (s.bar2Write a bytes).errSet pHOSTQ 1 = true ∧ (s.bar2Write a bytes).get pHOSTQ HOSTQ.BAR2_DROP_COUNT.COUNT =
      min (s.get pHOSTQ HOSTQ.BAR2_DROP_COUNT.COUNT + 1) (2 ^ 32 - 1) := by
  have hany : (bar2Parts a bytes).any (fun p => s.bar2Fate p.1 == .dropped) = true := by
    simpa using exists_bar2Part_fate_iff.2 h
  have hpage : SamePage pHOSTQ (s.takeParts s (bar2Parts a bytes)).bar2Drop (s.bar2Write a bytes) := by
    rw [State.bar2Write_eq, hany]
    exact (SamePage.forEach _ _ (fun q hq u => State.countActive_samePage (pSEQ_ne (by decide) (List.mem_range.1 hq)).symm)).trans
      (State.countEntry_samePage (by decide))
  constructor
  · rw [hpage.errSet_eq, State.bar2Drop_errSet]
  · rw [hpage.get_eq (by decide), State.bar2Drop_count, (SamePage.of_regs State.takeParts_regs).get_eq (by decide)]

/-- What a sequencer's active ranges turn away raises its cause and is counted in its page, once for the write (R122, log 98). -/
theorem State.bar2Write_active {q : Nat} (hq : q < 4) (h : ∃ k, k < bytes.length ∧ s.bar2Fate (a + k) = .active q) :
    (s.bar2Write a bytes).irqSet (pSEQ q) 6 = true ∧ (s.bar2Write a bytes).get (pSEQ q) SEQ.ACTIVE_WRITE_DROPS.COUNT =
      min (s.get (pSEQ q) SEQ.ACTIVE_WRITE_DROPS.COUNT + 1) (2 ^ 32 - 1) := by
  obtain ⟨p, hp⟩ : ∃ p, (bar2Parts a bytes).find? (fun p => s.bar2Fate p.1 == .active q) = some p := by
    rw [← Option.isSome_iff_exists, List.find?_isSome]
    simpa using exists_bar2Part_fate_iff.2 h
  obtain ⟨u, hbefore, hafter⟩ := samePage_forEach_turn (List.nodup_range (n := 4)) (List.mem_range.2 hq) pSEQ
    (s.countActive (bar2Parts a bytes)) (fun n u hn => State.countActive_samePage (pSEQ_ne_pSEQ hn.symm))
    ((s.takeParts s (bar2Parts a bytes)).onlyIf ((bar2Parts a bytes).any (fun p => s.bar2Fate p.1 == .dropped)) State.bar2Drop)
  rw [State.countActive, hp] at hafter
  have hfrom : SamePage (pSEQ q) s u :=
    ((SamePage.of_regs State.takeParts_regs).trans (SamePage.onlyIf _ (SamePage.bar2Drop (pSEQ_ne (by decide) hq)))).trans hbefore
  have hto : SamePage (pSEQ q) (u.activeDrop q p.1) (s.bar2Write a bytes) := by
    rw [State.bar2Write_eq]
    exact hafter.trans (State.countEntry_samePage (pSEQ_ne (by decide) hq))
  constructor
  · rw [hto.irqSet_eq, State.activeDrop_irqSet]
  · rw [hto.get_eq (by decide), State.activeDrop_count, hfrom.get_eq (by decide)]

/-- What entries in play turn away raises the cause of COURSE and is counted there, once for the write (R122, log 98). -/
theorem State.bar2Write_entry (h : ∃ k c, k < bytes.length ∧ s.bar2Fate (a + k) = .entry c) :
    (s.bar2Write a bytes).irqSet pCOURSE 0 = true ∧ (s.bar2Write a bytes).get pCOURSE COURSE.COURSE_WRITE_DROPS.COUNT =
      min (s.get pCOURSE COURSE.COURSE_WRITE_DROPS.COUNT + 1) (2 ^ 32 - 1) := by
  obtain ⟨k, c, hk, hfate⟩ := h
  obtain ⟨p, hp, hpc⟩ := exists_bar2Part_fate_iff.2 ⟨k, hk, hfate⟩
  obtain ⟨e, he⟩ : ∃ e, (bar2Parts a bytes).findSome? (fun p => (s.bar2Fate p.1).lostEntry) = some e := by
    rw [← Option.isSome_iff_exists, List.findSome?_isSome_iff]
    exact ⟨p, hp, by simp [hpc, Bar2Fate.lostEntry]⟩
  obtain ⟨u, hu, hwrite⟩ : ∃ u, SamePage pCOURSE s u ∧ s.bar2Write a bytes = u.courseDrop e := by
    refine ⟨_, ?_, by rw [State.bar2Write_eq, State.countEntry, he]⟩
    exact ((SamePage.of_regs State.takeParts_regs).trans (SamePage.onlyIf _ (SamePage.bar2Drop (by decide)))).trans
      (SamePage.forEach _ _ (fun q hq u => State.countActive_samePage (pSEQ_ne (by decide) (List.mem_range.1 hq)).symm))
  rw [hwrite]
  exact ⟨State.courseDrop_irqSet _ _, by rw [State.courseDrop_count, hu.get_eq (by decide)]⟩

end

/-- BAR2_WRITE while the endpoint is up, from Stage 1 on, answers the write. -/
theorem exec_bar2Write_of_up {s : State} {off : Nat} {bytes : List Nat} (hwf : (Instr.bar2Write off bytes).wf = true) (hup : s.pcieUp = true)
    (hstage : s.stage ≠ 0) : exec (.bar2Write off bytes) s = .next (s.bar2Write off bytes) :=
  (guarded_of_wf s _ hwf).trans (congrArg _ (if_pos ⟨hup, hstage⟩))

/-- Settles O7: a write falls into aligned parts of 32 bytes, every byte of a part meets the part's fate, parts that are stored agree with
the write, and what is lost touches one register page for each reason. -/
theorem bar2WriteStoresItsBytes : Obligations.Bar2WriteStoresItsBytes := by
  intro s off bytes hwf hup hstage agent hagent
  subst hagent
  have hrun := exec_bar2Write_of_up hwf hup hstage
  obtain ⟨htop, hbyte⟩ : off + bytes.length ≤ 67108864 ∧ ∀ b ∈ bytes, b < 256 := by
    simp only [Instr.wf, Bool.and_eq_true, decide_eq_true_eq, List.all_eq_true] at hwf
    exact ⟨hwf.1.2, hwf.2⟩
  refine ⟨fun hall => .of_exec hrun ?_, .of_exec hrun ?_, fun hlow hall => .of_exec hrun ?_⟩
  · have hstored : ∀ k, k < bytes.length → s.bar2Fate (off + k) = .stored := by
      intro k hk
      rcases hall k hk with ⟨hlow, q, hq, hne, howner, hidle⟩ | ⟨hbase, hend, howner, hidle⟩
      · exact State.bar2Fate_pattern_stored hlow hq hne howner hidle
      · exact State.bar2Fate_course_stored hbase hend howner hidle
    refine ⟨fun k hk => State.bar2Write_memByte_stored htop hbyte hk (hstored k hk), fun x hx => ?_, fun p o _ _ => ?_⟩
    · exact State.bar2Write_memByte_stands (hx.imp_right .inl)
    · exact State.rd_of_regs (State.bar2Write_regs hstored) p o
  · exact ⟨fun k hk hfate => State.bar2Write_memByte_stored htop hbyte hk hfate, fun x hx => State.bar2Write_memByte_stands hx,
      State.bar2Write_dropped, fun q hq => State.bar2Write_active hq, State.bar2Write_entry⟩
  · intro x
    refine State.bar2Write_memByte_stands ?_
    by_cases hin : off ≤ x ∧ x < off + bytes.length
    · obtain ⟨k, rfl⟩ := Nat.exists_eq_add_of_le hin.1
      have hk : k < bytes.length := by omega
      exact .inr (.inr (by rw [State.bar2Fate_pattern_dropped (by omega) (hall k hk)]; decide))
    · omega

end Sys2Proof.Machine
end

section
/-! PROOFS. Entry to Stage 1 (O53). -/

namespace Sys2Proof.Machine

/-- STAGE1_ENTRY that is due answers the entry to Stage 1. -/
theorem exec_stage1Entry_of_due {s : State} {b : BootData} (hwf : (Instr.stage1Entry b).wf = true) (hdue : s.stage1Due = true) :
    exec (.stage1Entry b) s = .next (s.stage1 b) :=
  (guarded_of_wf s _ hwf).trans (congrArg _ (if_pos hdue))

/-- A start with images and CALDATA in order, and nothing to take from OTP. -/
def plainBoot : BootData := { images := true, calOk := true, fallen := [], made := [], terms := [], forms := [] }

/-- A trial of CALDATA whose kept terms name DEV.STATUS. A trial that `beginTrial` forms keeps words of factory terms alone, but the form of a
state (`State.sound`) says nothing of the terms that a trial keeps. -/
def strayTrial : Trial :=
  { component := 4, prev := 0, copied := false, swapped := true, start := 0, mainStart := 0, ticked := true, cells := [], migrated := true,
    oldTerms := [(pDEV, DEV.STATUS.off, 0)], oldFactory := [], oldForms := [], schemaWas := 0, units := [], listed := false }

/-- The core 180 ms after V, in a restart by which `strayTrial` falls back. -/
def strayFallback : State :=
  { State.reset with
    clk := { slot := 36000000 }
    power := { good := true }
    flash := { trial := some strayTrial, restart := some (0, .fallback 3) } }

/-- The fallback puts the kept terms back after the stage has been entered, and STAGE reads 0 again. -/
theorem strayFallback_stage1_stage : (strayFallback.stage1 plainBoot).stage = 0 := by decide +kernel

/-- Refutes O53, by its clause of STAGE1_ENTRY: at the entry a trial of CALDATA that falls back puts back the words that it kept, and of a
sound state these may be any words, DEV.STATUS too; then the state answered does not stand at Stage 1. -/
theorem not_resetsAndStages : ¬ Obligations.ResetsAndStages := by
  intro h
  obtain ⟨-, -, -, -, hstage1, -⟩ := h strayFallback (by decide +kernel)
  have hdue : strayFallback.stage1Due = true := by decide +kernel
  have hwf : (Instr.stage1Entry plainBoot).wf = true := by decide
  obtain ⟨t, ht, hstage, -⟩ := hstage1 plainBoot hdue hwf
  have hanswer : t = strayFallback.stage1 plainBoot := (Host.Outcome.next.inj ((exec_stage1Entry_of_due hwf hdue).symm.trans ht)).symm
  rw [hanswer, strayFallback_stage1_stage] at hstage
  exact absurd hstage (by decide)

end Sys2Proof.Machine
end

section
/-! PROOFS. Accesses of registers (O8). -/

namespace Sys2Proof.Machine

/-- LATCHING_READ answers the state that the read of the host leaves, with the word read returned to its path. -/
theorem exec_latchingRead_of_some {s : State} {path : Path} {page off x : Nat} (hwf : (Instr.latchingRead path page off).wf = true)
    (hx : (s.hostRead path page off).1 = some x) :
    exec (.latchingRead path page off) s = .next ((s.hostRead path page off).2.emit (.readData path page off x)) := by
  change execLatchingRead path page off s = _
  unfold execLatchingRead
  rw [guarded_of_wf s _ hwf]
  simp only [hx]

/-- The state after the first power-on reset, with entry 0 of the log of the Eave marked as one whose ECC fails. -/
def badLogEntry : State := { State.reset with eave := { State.reset.eave with logBad := [0] } }

/-- Refutes O8, by its clause that a read changes no register: the read of an entry of the log whose ECC fails sets SRAM_ECC in ERR_STATUS of
EAVE (R291). -/
theorem not_registerAccesses : ¬ Obligations.RegisterAccesses := by
  intro h
  obtain ⟨-, hread, -⟩ := h
  obtain ⟨hkeeps, -⟩ := hread badLogEntry .i2c pEAVE (EAVE.LOG.off 0) (by decide)
  have hwf : (Instr.latchingRead .i2c pEAVE (EAVE.LOG.off 0)).wf = true := by decide
  obtain ⟨t, ht, -, hregs, -⟩ := hkeeps hwf
  have hword : (badLogEntry.hostRead .i2c pEAVE (EAVE.LOG.off 0)).1 = some 0 := by decide +kernel
  have herr : t.rd pEAVE 0x024 = badLogEntry.rd pEAVE 0x024 := hregs _ _ (by decide) (by decide)
  rw [← Host.Outcome.next.inj ((exec_latchingRead_of_some hwf hword).symm.trans ht)] at herr
  exact absurd herr (by decide +kernel)

end Sys2Proof.Machine
end

section
/-! SUPPORT. The clock under the operations of the model. An operation that leaves the whole clock has a lemma `…_clk`. Where one may ask for a
new y or a step, or renews the mapping, its lemma `…_timeline` says that the present edge keeps its slot, its count and its instant. A
combinator asks of its function `f` that `f a u = v` gives `v` the clock of `u`. -/

namespace Sys2Proof.Machine

/-- What is kept of the clock at the present edge: the slot, the count, and the Device Timescale at that count. -/
def ClockSt.timeline (c : ClockSt) : Nat × Nat × Int := (c.slot, c.tclk, tsAtCount32 c c.tclk)

/-- Whether an outcome that answers a next state keeps the timeline of the state before. -/
def KeepsTime (s : State) (o : Host.Outcome State Fault Refusal) : Prop := ∀ t, o = .next t → t.clk.timeline = s.clk.timeline

/-! ### Choices, loops and rows -/

@[simp] theorem clk_ite {c : Prop} {_ : Decidable c} (s t : State) : (if c then s else t).clk = if c then s.clk else t.clk := apply_ite ..

@[simp] theorem clk_fst_ite {α : Type} {c : Prop} {_ : Decidable c} (x y : State × α) :
    (if c then x else y).1.clk = if c then x.1.clk else y.1.clk := by split <;> rfl

@[simp] theorem clk_snd_ite {α : Type} {c : Prop} {_ : Decidable c} (x y : α × State) :
    (if c then x else y).2.clk = if c then x.2.clk else y.2.clk := by split <;> rfl

@[simp] theorem timeline_ite {c : Prop} {_ : Decidable c} (x y : ClockSt) :
    (if c then x else y).timeline = if c then x.timeline else y.timeline := apply_ite ..

theorem clk_of_ite {c : Prop} {_ : Decidable c} {s t : State} {k : ClockSt} (hs : s.clk = k) (ht : t.clk = k) :
    (if c then s else t).clk = k := by
  split <;> assumption

theorem clk_fst_of_ite {α : Type} {c : Prop} {_ : Decidable c} {x y : State × α} {k : ClockSt} (hx : x.1.clk = k) (hy : y.1.clk = k) :
    (if c then x else y).1.clk = k := by
  split <;> assumption

theorem guarded_keepsTime {i : Instr} {s : State} {k : State → State} (hk : (k s).clk.timeline = s.clk.timeline) : KeepsTime s (guarded i s k) := by
  intro t h
  rw [guarded_next h]
  split
  · exact hk
  · rfl

@[simp] theorem State.wrN_clk (s : State) (p o n v : Nat) : (s.wrN p o n v).clk = s.clk := by
  induction n generalizing s o v with
  | zero => rfl
  | succ n ih => exact ih _ _ _

@[simp] theorem State.forEach_clk {α : Type} (s : State) (l : List α) (f : α → State → State) (hf : ∀ a u v, f a u = v → v.clk = u.clk) :
    (s.forEach l f).clk = s.clk :=
  foldl_keeps (fun u : State => u.clk = s.clk) _ (fun u a hu => (hf a u _ rfl).trans hu) l s rfl

@[simp] theorem State.forEach_timeline {α : Type} (s : State) (l : List α) (f : α → State → State)
    (hf : ∀ a u v, f a u = v → v.clk.timeline = u.clk.timeline) : (s.forEach l f).clk.timeline = s.clk.timeline :=
  foldl_keeps (fun u : State => u.clk.timeline = s.clk.timeline) _ (fun u a hu => (hf a u _ rfl).trans hu) l s rfl

@[simp] theorem State.onlyIf_clk (s : State) (c : Bool) (f : State → State) (hf : ∀ u v, f u = v → v.clk = u.clk) : (s.onlyIf c f).clk = s.clk := by
  unfold State.onlyIf
  split
  · exact hf _ _ rfl
  · rfl

@[simp] theorem State.onlyIf_timeline (s : State) (c : Bool) (f : State → State) (hf : ∀ u v, f u = v → v.clk.timeline = u.clk.timeline) :
    (s.onlyIf c f).clk.timeline = s.clk.timeline := by
  unfold State.onlyIf
  split
  · exact hf _ _ rfl
  · rfl

@[simp] theorem State.inCore_clk (s : State) (f : State → State) (hf : ∀ u v, f u = v → v.clk = u.clk) : (s.inCore f).clk = s.clk :=
  State.onlyIf_clk _ _ _ hf

@[simp] theorem State.inCore_timeline (s : State) (f : State → State) (hf : ∀ u v, f u = v → v.clk.timeline = u.clk.timeline) :
    (s.inCore f).clk.timeline = s.clk.timeline :=
  State.onlyIf_timeline _ _ _ hf

end Sys2Proof.Machine
end

section
/-! SUPPORT. The clock under the operations of the model: registers, flags, rings and loops. -/

namespace Sys2Proof.Machine

/-! ### Ops -/

@[simp] theorem State.putFlag_clk (s : State) (p : Nat) (f : Fld) (b : Bool) : (s.putFlag p f b).clk = s.clk := by simp [State.putFlag]

@[simp] theorem State.putI_clk (s : State) (p : Nat) (f : Fld) (v : Int) : (s.putI p f v).clk = s.clk := by simp [State.putI]

@[simp] theorem State.incSat_clk (s : State) (p : Nat) (f : Fld) (n : Nat) : (s.incSat p f n).clk = s.clk := by simp [State.incSat]

@[simp] theorem State.incWrap_clk (s : State) (p : Nat) (f : Fld) (n : Nat) : (s.incWrap p f n).clk = s.clk := by simp [State.incWrap]

@[simp] theorem State.free_clk (s : State) : (s.free).2.clk = s.clk := by simp [State.free]

/-! ### Operands -/

@[simp] theorem State.putInst_clk (s : State) (p : Nat) (f : Fld) (t : Int) : (s.putInst p f t).clk = s.clk := by simp [State.putInst]

@[simp] theorem State.putSpan_clk (s : State) (p : Nat) (f : Fld) (i : Int) : (s.putSpan p f i).clk = s.clk := by simp [State.putSpan]

@[simp] theorem accept_clk (s : State) : (accept s).1.clk = s.clk := by simp [accept]

@[simp] theorem refuse_clk (s : State) (r : Res) : (refuse s r).1.clk = s.clk := by simp [refuse]

@[simp] theorem State.setOwner_clk (s : State) (code idx agent : Nat) : (s.setOwner code idx agent).clk = s.clk := by
  unfold State.setOwner
  split <;> simp

/-! ### Flags -/

@[simp] theorem State.sendMsix_clk (s : State) (v : Nat) : (s.sendMsix v).clk = s.clk := by simp [State.sendMsix]

@[simp] theorem State.resend_clk (s : State) (v : Nat) : (s.resend v).clk = s.clk := by simp [State.resend]

@[simp] theorem State.irq_clk (s : State) (p bit : Nat) : (s.irq p bit).clk = s.clk := by simp [State.irq]

@[simp] theorem State.err_clk (s : State) (p bit : Nat) : (s.err p bit).clk = s.clk := by
  unfold State.err
  split <;> simp

@[simp] theorem State.ringPut_clk (s : State) (r elem : Nat) : (s.ringPut r elem).clk = s.clk := by simp [State.ringPut]

@[simp] theorem State.ringWriteback_clk (s : State) (r : Nat) : (s.ringWriteback r).clk = s.clk := by simp [State.ringWriteback]

@[simp] theorem State.ringNotify_clk (s : State) (r : Nat) : (s.ringNotify r).clk = s.clk := by simp [State.ringNotify]

@[simp] theorem State.ringRecord_clk (s : State) (r : Nat) (rec : List Nat) : (s.ringRecord r rec).clk = s.clk := by simp [State.ringRecord]

@[simp] theorem State.ringDrain_clk (s : State) (k r : Nat) : (State.ringDrain k r s).clk = s.clk := by
  induction k generalizing s with
  | zero => rfl
  | succ k ih => unfold State.ringDrain; (repeat' split) <;> simp [ih]

@[simp] theorem State.event_clk (s : State) (cls : Nat) (rec : List Nat) : (s.event cls rec).clk = s.clk := by
  unfold State.event
  split <;> simp

/-! ### Place -/

@[simp] theorem State.putTerms_clk (s : State) (l : List (Nat × Nat × Nat)) : (s.putTerms l).clk = s.clk := by
  simp [State.putTerms]

@[simp] theorem State.putForm_clk (s : State) (p : Nat) (rise fall : Fld) (t : Option FormTerm) : (s.putForm p rise fall t).clk = s.clk := by
  unfold State.putForm
  split <;> simp

@[simp] theorem State.laneForm_clk (s : State) (c : Nat) : (s.laneForm c).clk = s.clk := by simp [State.laneForm]

@[simp] theorem State.loopForm_clk (s : State) : s.loopForm.clk = s.clk := by simp [State.loopForm]

@[simp] theorem State.inputForm_clk (s : State) (i : Nat) : (s.inputForm i).clk = s.clk := by simp [State.inputForm]

@[simp] theorem State.putForms_clk (s : State) : s.putForms.clk = s.clk := by simp [State.putForms]

/-! ### Apll -/

@[simp] theorem State.apllaSlot_clk (s : State) : s.apllaSlot.clk = s.clk := by simp [State.apllaSlot]

@[simp] theorem State.apllaUnlock_clk (s : State) : s.apllaUnlock.clk = s.clk := by simp [State.apllaUnlock]

@[simp] theorem State.apllaRefGone_clk (s : State) (c : Nat) : (s.apllaRefGone c).clk = s.clk := by simp [State.apllaRefGone]

end Sys2Proof.Machine
end

section
/-! SUPPORT. The clock under the operations of the model: channels, quads and lines. -/

namespace Sys2Proof.Machine

/-! ### Chan -/

@[simp] theorem State.queueEdge_clk (s : State) (c : Nat) (e : Edge) : (s.queueEdge c e).clk = s.clk := by simp [State.queueEdge]

@[simp] theorem State.desync_clk (s : State) (c : Nat) (e : Edge) : (s.desync c e).clk = s.clk := by simp [State.desync]

@[simp] theorem State.copyToMirrors_clk (s : State) (c : Nat) (e : Edge) (high : Bool) : (s.copyToMirrors c e high).clk = s.clk := by
  simp [State.copyToMirrors]

@[simp] theorem State.pushEdge_clk (s : State) (c : Nat) (e : Edge) : (s.pushEdge c e).clk = s.clk := by
  unfold State.pushEdge
  dsimp only
  (repeat' split) <;> simp

@[simp] theorem State.pushPulseFrom_clk (s : State) (c : Nat) (i : Bool) (t32 width32 : Int) (origin : EdgeOrigin) (lead trail : EdgeBasis) :
    (s.pushPulseFrom c i t32 width32 origin lead trail).clk = s.clk := by simp [State.pushPulseFrom]

@[simp] theorem State.pushPulse_clk (s : State) (c : Nat) (t32 width32 : Int) (origin : EdgeOrigin) (basis : EdgeBasis) :
    (s.pushPulse c t32 width32 origin basis).clk = s.clk := by simp [State.pushPulse]

@[simp] theorem State.calTurn_clk (s : State) (c : Nat) : (s.calTurn c).clk = s.clk := by
  unfold State.calTurn
  split <;> simp

@[simp] theorem State.nextClock_clk (s : State) (c : Nat) : (s.nextClock c).clk = s.clk := by
  unfold State.nextClock
  dsimp only
  split <;> simp

@[simp] theorem State.mirrorGrid_clk (s : State) (m : Nat) (lim : Int) : (s.mirrorGrid m lim).clk = s.clk := by
  unfold State.mirrorGrid
  dsimp only
  split <;> simp

@[simp] theorem State.mirrorStop_clk (s : State) (m : Nat) (end32 : Int) : (s.mirrorStop m end32).clk = s.clk := by
  unfold State.mirrorStop
  split
  · rfl
  · refine (State.setChan_clk ..).trans (State.forEach_clk _ _ _ fun _ u v hv => ?_)
    rw [← hv]
    split
    · split <;> simp
    · rfl

@[simp] theorem State.mirrorsStop_clk (s : State) (c : Nat) : (s.mirrorsStop c).clk = s.clk := by
  unfold State.mirrorsStop
  split <;> simp

@[simp] theorem State.mirrorsStart_clk (s : State) (c : Nat) : (s.mirrorsStart c).clk = s.clk := by simp [State.mirrorsStart]

@[simp] theorem State.startGrid_clk (s : State) (c : Nat) (lim : Int) : (s.startGrid c lim).clk = s.clk := by
  unfold State.startGrid
  split <;> simp

@[simp] theorem State.restEdge_clk (s : State) (c : Nat) (t32 : Int) : (s.restEdge c t32).clk = s.clk := by
  unfold State.restEdge
  split <;> simp

@[simp] theorem State.schedLost_clk (s : State) (c : Nat) : (s.schedLost c).clk = s.clk := by simp [State.schedLost]

@[simp] theorem State.schedMove_clk (s : State) (c : Nat) (t32 d32 : Int) : (s.schedMove c t32 d32).clk = s.clk := by simp [State.schedMove]

@[simp] theorem State.chanEntry_clk (s0 : State) (c ahead : Nat) : (s0.chanEntry c ahead).clk = s0.clk := by simp [State.chanEntry]

@[simp] theorem State.chanSettle_clk (s old : State) (c : Nat) : (s.chanSettle c old).clk = s.clk := by
  unfold State.chanSettle
  extract_lets ch lim turn cal s1 s2
  have h1 : s1.clk = s.clk := State.setChan_clk ..
  have h2 : s2.clk = s.clk := by
    refine (State.onlyIf_clk _ _ _ fun u v hv => ?_).trans h1
    rw [← hv]
    exact State.forEach_clk _ _ _ fun _ _ _ hv => hv ▸ State.setChan_clk ..
  clear_value s2
  (repeat' split) <;> simp [h2]

@[simp] theorem State.chanCommit_clk (s old : State) (c : Nat) (modeWritten : Bool) (ahead : Nat) :
    (s.chanCommit c old modeWritten ahead).clk = s.clk := by simp [State.chanCommit]

@[simp] theorem State.loopBack_clk (s : State) (c : Nat) (rising : Bool) (pos : Int) : (s.loopBack c rising pos).clk = s.clk := by
  simp [State.loopBack]

@[simp] theorem State.chanSafe_clk (s0 : State) (c : Nat) (cause : SafeCause) : (s0.chanSafe c cause).clk = s0.clk := by simp [State.chanSafe]

@[simp] theorem State.chanSafeExit_clk (s : State) (c : Nat) : (s.chanSafeExit c).clk = s.clk := by simp [State.chanSafeExit]

@[simp] theorem State.ignoreEvent_clk (s : State) (c : Nat) : (s.ignoreEvent c).clk = s.clk := by simp [State.ignoreEvent]

@[simp] theorem State.acceptEvent_clk (s : State) (c t teb : Nat) (set : ChanSettings) : (s.acceptEvent c t teb set).clk = s.clk := by
  simp [State.acceptEvent]

@[simp] theorem State.cancelResponses_clk (s : State) (c : Nat) : (s.cancelResponses c).clk = s.clk := by simp [State.cancelResponses]

@[simp] theorem State.answer_clk (s : State) (c n t teb : Nat) : (s.answer c n t teb).clk = s.clk := by
  unfold State.answer
  dsimp only
  (repeat' split) <;> simp

@[simp] theorem State.setResp_clk (s : State) (c : Nat) (r : Resp) : (s.setResp c r).clk = s.clk := by simp [State.setResp]

@[simp] theorem State.settleResponses_clk (s : State) (c : Nat) : (s.settleResponses c).clk = s.clk := by simp [State.settleResponses]

@[simp] theorem State.nextPulse_clk (s : State) (c : Nat) : (s.nextPulse c).clk = s.clk := by
  unfold State.nextPulse
  split <;> simp

@[simp] theorem State.seqPromote_clk (s : State) (c : Nat) : (s.seqPromote c).clk = s.clk := by simp [State.seqPromote]

@[simp] theorem State.chanExpand_clk (s : State) (c : Nat) : (s.chanExpand c).clk = s.clk := by simp [State.chanExpand]

@[simp] theorem State.spacingDrop_clk (s : State) (c n : Nat) : (s.spacingDrop c n).clk = s.clk := by simp [State.spacingDrop]

@[simp] theorem State.respEdgeDone_clk (s : State) (c : Nat) (o : EdgeOrigin) : (s.respEdgeDone c o).clk = s.clk := by
  unfold State.respEdgeDone
  split <;> simp

@[simp] theorem State.unwait_clk (s : State) (c : Nat) (e : Edge) : (s.unwait c e).clk = s.clk := by simp [State.unwait]

@[simp] theorem State.dropWithTrail_clk (s : State) (c : Nat) (e : Edge) : (s.dropWithTrail c e).clk = s.clk := by
  unfold State.dropWithTrail
  dsimp only
  (repeat' split) <;> simp

@[simp] theorem State.issueAt_clk (s : State) (c : Nat) (e : Edge) (high : Option Bool) (engine : Nat) (pos : Int) (dither : Option Int) :
    (s.issueAt c e high engine pos dither).clk = s.clk := by simp [State.issueAt]

@[simp] theorem State.issuePulse_clk (s : State) (c : Nat) (e t : Edge) (high : Bool) (engine : Nat) : (s.issuePulse c e t high engine).clk = s.clk := by
  simp [State.issuePulse]

@[simp] theorem State.issueSingle_clk (s : State) (c : Nat) (e : Edge) (high : Bool) (engine : Nat) : (s.issueSingle c e high engine).clk = s.clk := by
  simp [State.issueSingle]

@[simp] theorem State.issueCodes_clk (s : State) (c : Nat) (e : Edge) (high : Bool) (k : Nat × Int) : (s.issueCodes c e high k).clk = s.clk := by
  simp [State.issueCodes]

@[simp] theorem State.lateEdge_clk (s : State) (c : Nat) (e : Edge) (high : Bool) (engine : Nat) : (s.lateEdge c e high engine).clk = s.clk := by
  unfold State.lateEdge
  split <;> simp

@[simp] theorem State.issueNext_clk (s0 : State) (c : Nat) : (s0.issueNext c).clk = s0.clk := by
  unfold State.issueNext
  dsimp only
  (repeat' split) <;> simp

theorem execEdgeIssue_keepsTime (s : State) (c : Nat) : KeepsTime s (execEdgeIssue c s) := guarded_keepsTime (by simp)

@[simp] theorem State.countLaunch_clk (s : State) (c : Nat) (i : Issued) : (s.countLaunch c i).clk = s.clk := by simp [State.countLaunch]

@[simp] theorem State.emitEdge_clk (s : State) (c : Nat) (i : Issued) (h sameSlot : Bool) : (s.emitEdge c i h sameSlot).clk = s.clk := by
  simp [State.emitEdge]

@[simp] theorem State.launch_clk (s : State) (c : Nat) : (s.launch c).clk = s.clk := by
  unfold State.launch
  dsimp only
  (repeat' split) <;> simp

theorem execEdgeLaunch_keepsTime (s : State) (c : Nat) : KeepsTime s (execEdgeLaunch c s) := guarded_keepsTime (by simp)

@[simp] theorem State.chanStep_clk (s : State) (d32 : Int) (c : Nat) : (s.chanStep d32 c).clk = s.clk := by
  unfold State.chanStep
  dsimp only
  split <;> simp

@[simp] theorem State.chanSeqMove_clk (s : State) (d32 e32 : Int) (c : Nat) : (s.chanSeqMove d32 e32 c).clk = s.clk := by simp [State.chanSeqMove]

@[simp] theorem State.chanFlush_clk (s : State) (c : Nat) : (s.chanFlush c).clk = s.clk := by simp [State.chanFlush]

/-! ### Quad -/

@[simp] theorem State.setEngState_clk (s : State) (q e v : Nat) : (s.setEngState q e v).clk = s.clk := by simp [State.setEngState]

@[simp] theorem State.mapLane_clk (s : State) (q l e : Nat) : (s.mapLane q l e).clk = s.clk := by simp [State.mapLane]

@[simp] theorem State.setEngine_clk (s : State) (q e : Nat) (x : EngineSt) : (s.setEngine q e x).clk = s.clk := by simp [State.setEngine]

@[simp] theorem State.refreshBounds_clk (s : State) (q : Nat) : (s.refreshBounds q).clk = s.clk := by simp [State.refreshBounds]

@[simp] theorem State.refreshSpare_clk (s : State) (q : Nat) : (s.refreshSpare q).clk = s.clk := by
  unfold State.refreshSpare
  dsimp only
  (repeat' split) <;> simp

@[simp] theorem State.needSweep_clk (s : State) (q e : Nat) : (s.needSweep q e).clk = s.clk := by simp [State.needSweep]

@[simp] theorem State.refreshDeferred_clk (s : State) (q : Nat) : (s.refreshDeferred q).clk = s.clk := by simp [State.refreshDeferred]

@[simp] theorem State.refreshSettled_clk (s : State) : s.refreshSettled.clk = s.clk := by simp [State.refreshSettled]

@[simp] theorem State.defer_clk (s : State) (q l reason : Nat) : (s.defer q l reason).clk = s.clk := by simp [State.defer]

@[simp] theorem State.armSwap_clk (s : State) (q l reason : Nat) : (s.armSwap q l reason).clk = s.clk := by simp [State.armSwap]

@[simp] theorem State.setDegraded_clk (s : State) (q l : Nat) (b : Bool) : (s.setDegraded q l b).clk = s.clk := by simp [State.setDegraded]

@[simp] theorem State.recordSwap_clk (s : State) (q outcome reason new old lane : Nat) : (s.recordSwap q outcome reason new old lane).clk = s.clk := by
  simp [State.recordSwap]

@[simp] theorem State.abandonSwap_clk (s : State) (q spareState : Nat) : (s.abandonSwap q spareState).clk = s.clk := by
  unfold State.abandonSwap
  split <;> simp

@[simp] theorem State.driftCause_clk (s : State) (q l : Nat) (m : Nat × Nat) : (s.driftCause q l m).clk = s.clk := by simp [State.driftCause]

@[simp] theorem State.failNoSpare_clk (s : State) (q l : Nat) : (s.failNoSpare q l).clk = s.clk := by simp [State.failNoSpare]

@[simp] theorem State.yieldArmed_clk (s : State) (q l reason : Nat) : (s.yieldArmed q l reason).clk = s.clk := by simp [State.yieldArmed]

@[simp] theorem State.laneFailed_clk (s : State) (q l : Nat) (ready : Bool) : (s.laneFailed q l ready).clk = s.clk := by
  unfold State.laneFailed
  split <;> simp

@[simp] theorem State.loseSwap_clk (s : State) (q spareState : Nat) : (s.loseSwap q spareState).clk = s.clk := by simp [State.loseSwap]

@[simp] theorem State.spareFailed_clk (s : State) (q : Nat) : (s.spareFailed q).clk = s.clk := by simp [State.spareFailed]

@[simp] theorem State.engineFailed_clk (s : State) (q e : Nat) : (s.engineFailed q e).clk = s.clk := by
  unfold State.engineFailed
  split <;> simp

@[simp] theorem State.trackTerm_clk (s : State) (q : Nat) (f : Fld) (errs : List CalEdge) : (s.trackTerm q f errs).clk = s.clk := by
  simp [State.trackTerm]

@[simp] theorem State.putResid_clk (s : State) (q e : Nat) (es : List CalEdge) : (s.putResid q e es).clk = s.clk := by simp [State.putResid]

@[simp] theorem State.visitEngine_clk (s : State) (q : Nat) (v : CalVisit) : (s.visitEngine q v).clk = s.clk := by
  unfold State.visitEngine
  dsimp only
  (repeat' split) <;> simp

@[simp] theorem State.visitLane_clk (s : State) (q l : Nat) (v : CalVisit) : (s.visitLane q l v).clk = s.clk := by simp [State.visitLane]

@[simp] theorem State.calVisit_clk (s : State) (q : Nat) (v : CalVisit) : (s.calVisit q v).clk = s.clk := by simp [State.calVisit]

theorem execCalVisitEnd_keepsTime (s : State) (q : Nat) (v : CalVisit) : KeepsTime s (execCalVisitEnd q v s) := guarded_keepsTime (by simp)

@[simp] theorem State.showSweep_clk (s : State) (q : Nat) : (s.showSweep q).clk = s.clk := by
  unfold State.showSweep
  split <;> simp

@[simp] theorem State.beginSweep_clk (s : State) (q e : Nat) (retest : Bool) : (s.beginSweep q e retest).clk = s.clk := by simp [State.beginSweep]

@[simp] theorem State.dropSweeps_clk (s : State) (q : Nat) : (s.dropSweeps q).clk = s.clk := by simp [State.dropSweeps]

theorem execSweepStart_keepsTime (s : State) (q e : Nat) : KeepsTime s (execSweepStart q e s) := guarded_keepsTime (by simp)

@[simp] theorem State.endSweep_clk (s : State) (q : Nat) : (s.endSweep q).clk = s.clk := by simp [State.endSweep]

@[simp] theorem State.serveDeferred_clk (s : State) (q : Nat) : (s.serveDeferred q).clk = s.clk := by
  unfold State.serveDeferred
  (repeat' split) <;> simp

@[simp] theorem State.sweepEnd_clk (s : State) (q : Nat) (r : SweepResult) : (s.sweepEnd q r).clk = s.clk := by
  unfold State.sweepEnd
  split <;> simp

theorem execSweepDone_keepsTime (s : State) (q : Nat) (r : SweepResult) : KeepsTime s (execSweepDone q r s) := guarded_keepsTime (by simp)

@[simp] theorem State.exchangeSets_clk (s : State) (q e : Nat) : (s.exchangeSets q e).clk = s.clk := by
  unfold State.exchangeSets
  split <;> simp

theorem execTableSetExchange_keepsTime (s : State) (q e : Nat) : KeepsTime s (execTableSetExchange q e s) := guarded_keepsTime (by simp)

@[simp] theorem State.retestEnd_clk (s : State) (q : Nat) (r : SweepResult) : (s.retestEnd q r).clk = s.clk := by
  unfold State.retestEnd
  split <;> simp

theorem execRetestDone_keepsTime (s : State) (q : Nat) (r : SweepResult) : KeepsTime s (execRetestDone q r s) := guarded_keepsTime (by simp)

@[simp] theorem State.swapBegin_clk (s : State) (q l reason : Nat) : (s.swapBegin q l reason).clk = s.clk := by simp [State.swapBegin]

theorem execSwapArm_keepsTime (s : State) (q lane reason : Nat) : KeepsTime s (execSwapArm q lane reason s) := guarded_keepsTime (by simp)

@[simp] theorem State.swapCheck_clk (s : State) (q : Nat) (m : SwapCheck) : (s.swapCheck q m).clk = s.clk := by
  unfold State.swapCheck
  split <;> simp

theorem execSwapVerify_keepsTime (s : State) (q : Nat) (m : SwapCheck) : KeepsTime s (execSwapVerify q m s) := guarded_keepsTime (by simp)

@[simp] theorem State.swapOver_clk (s : State) (q : Nat) : (s.swapOver q).clk = s.clk := by
  unfold State.swapOver
  split <;> simp

theorem execSwapSwitch_keepsTime (s : State) (q : Nat) : KeepsTime s (execSwapSwitch q s) := guarded_keepsTime (by simp)

@[simp] theorem State.swapFinish_clk (s : State) (q : Nat) : (s.swapFinish q).clk = s.clk := by
  unfold State.swapFinish
  dsimp only
  (repeat' split) <;> simp

theorem execSwapDone_keepsTime (s : State) (q : Nat) : KeepsTime s (execSwapDone q s) := guarded_keepsTime (by simp)

@[simp] theorem State.remapLane_clk (s : State) (q : Nat) : (s.remapLane q).clk = s.clk := by
  unfold State.remapLane
  split <;> simp

theorem execFailedLaneRemap_keepsTime (s : State) (q : Nat) : KeepsTime s (execFailedLaneRemap q s) := guarded_keepsTime (by simp)

@[simp] theorem State.cmdSwapLane_clk (s : State) (q lane : Nat) : (s.cmdSwapLane q lane).1.clk = s.clk := by simp [State.cmdSwapLane]

@[simp] theorem State.cmdResweep_clk (s : State) (q : Nat) : (s.cmdResweep q).1.clk = s.clk := by simp [State.cmdResweep]

@[simp] theorem State.cmdRetest_clk (s : State) (q e : Nat) : (s.cmdRetest q e).1.clk = s.clk := by simp [State.cmdRetest]

@[simp] theorem State.swapCmd_clk (s : State) (q v : Nat) : (s.swapCmd q v).1.clk = s.clk := by
  unfold State.swapCmd
  split <;> simp

theorem execTdcFault_keepsTime (s : State) (q : Nat) : KeepsTime s (execTdcFault q s) := guarded_keepsTime (by simp)

theorem execEngineTableEcc_keepsTime (s : State) (q e : Nat) (uncorrectable : Bool) : KeepsTime s (execEngineTableEcc q e uncorrectable s) :=
  guarded_keepsTime (by simp)

theorem execDriverFault_keepsTime (s : State) (page bit : Nat) : KeepsTime s (execDriverFault page bit s) := guarded_keepsTime (by split <;> simp)

/-! ### Trig -/

@[simp] theorem State.lineStages_clk (s : State) (n : Nat) (e : LineEvent) : (s.lineStages n e).1.clk = s.clk := by simp [State.lineStages]

@[simp] theorem State.restartDivider_clk (s : State) (n : Nat) : (s.restartDivider n).clk = s.clk := by simp [State.restartDivider]

@[simp] theorem State.hostFire_clk (s : State) (v : Nat) : (s.hostFire v).1.clk = s.clk := by simp [State.hostFire]

@[simp] theorem State.hostFiresDue_clk (s : State) : s.hostFiresDue.clk = s.clk := by
  refine State.forEach_clk _ _ _ fun n u v hv => ?_
  rw [← hv]
  refine clk_of_ite rfl ((State.forEach_clk _ _ _ fun _ _ _ hw => ?_).trans (State.setLine_clk ..))
  rw [← hw, State.post_clk]

theorem execBusEcc_keepsTime (s : State) : KeepsTime s (execBusEcc s) := guarded_keepsTime (by simp)

end Sys2Proof.Machine
end

section
/-! SUPPORT. The clock under the operations of the model: sequencers, SYNC, phase trackers and the scheduler. -/

namespace Sys2Proof.Machine

/-! ### Bar2 -/

@[simp] theorem State.putReady_clk (s : State) (c : Nat) (b : Bool) : (s.putReady c b).clk = s.clk := by simp [State.putReady]

/-! ### Seq -/

@[simp] theorem State.seqRecord_clk (s : State) (q kind : Nat) (t : Int) (data other course : Nat) :
    (s.seqRecord q kind t data other course).clk = s.clk := by simp [State.seqRecord]

@[simp] theorem State.seqPutState_clk (s : State) (q st reason : Nat) (t : Int) : (s.seqPutState q st reason t).clk = s.clk := by
  simp [State.seqPutState]

@[simp] theorem State.bufferRec_clk (s : State) (c : Nat) (r : SeqRec) : (s.bufferRec c r).clk = s.clk := by simp [State.bufferRec]

@[simp] theorem State.seqIdle_clk (s : State) (q : Nat) (t : Int) : (s.seqIdle q t).clk = s.clk := by simp [State.seqIdle]

@[simp] theorem State.seqDropFrom_clk (s : State) (q : Nat) (t : Int) : (s.seqDropFrom q t).clk = s.clk := by
  refine (State.setSeq_clk ..).trans (State.forEach_clk _ _ _ fun c u v hv => ?_)
  rw [← hv]
  refine (State.forEach_clk _ _ _ fun _ _ _ hw => ?_).trans (State.setChan_clk ..)
  rw [← hw, State.setChan_clk]

@[simp] theorem State.loopBump_clk (s : State) (q c : Nat) : (s.loopBump q c).clk = s.clk := by
  unfold State.loopBump
  (repeat' split) <;> simp

@[simp] theorem State.loopClear_clk (s : State) (q k : Nat) : (s.loopClear q k).clk = s.clk := by simp [State.loopClear]

@[simp] theorem State.loopDrop_clk (s : State) (q c : Nat) : (s.loopDrop q c).clk = s.clk := by
  unfold State.loopDrop
  split <;> simp

@[simp] theorem State.loopDropAll_clk (s : State) (q : Nat) : (s.loopDropAll q).clk = s.clk := by simp [State.loopDropAll]

@[simp] theorem State.seqMarkTl_clk (s : State) (q : Nat) (o : SeqOcc) : (s.seqMarkTl q o).clk = s.clk := by simp [State.seqMarkTl]

@[simp] theorem State.showSuccessor_clk (s : State) (q : Nat) : (s.showSuccessor q).clk = s.clk := by
  unfold State.showSuccessor
  split <;> simp

@[simp] theorem State.clearRequest_clk (s : State) (q : Nat) : (s.clearRequest q).clk = s.clk := by simp [State.clearRequest]

@[simp] theorem State.seqStopAt_clk (s : State) (q : Nat) (t : Int) (reason : Nat) : (s.seqStopAt q t reason).clk = s.clk := by
  simp [State.seqStopAt]

@[simp] theorem State.seqStop_clk (s : State) (q : Nat) (t : Int) (reason : Nat) : (s.seqStop q t reason).clk = s.clk := by simp [State.seqStop]

@[simp] theorem State.seqBadCourse_clk (s : State) (q : Nat) (t : Int) : (s.seqBadCourse q t).clk = s.clk := by simp [State.seqBadCourse]

@[simp] theorem State.markReady_clk (s : State) (c : Nat) : (s.markReady c).clk = s.clk := by simp [State.markReady]

@[simp] theorem State.seqUnderrun_clk (s : State) (q : Nat) (o : SeqOcc) (succ : Nat) (via : SeqVia) : (s.seqUnderrun q o succ via).clk = s.clk := by
  unfold State.seqUnderrun
  dsimp only
  (repeat' split) <;> simp

@[simp] theorem State.seqDecide_clk (s : State) (q : Nat) : (s.seqDecide q).clk = s.clk := by
  unfold State.seqDecide
  dsimp only
  (repeat' split) <;> simp

@[simp] theorem State.decideBy_clk (s : State) (q : Nat) (r32 : Int) : (s.decideBy q r32).clk = s.clk := by simp [State.decideBy]

@[simp] theorem State.deferRequest_clk (s : State) (q : Nat) : (s.deferRequest q).clk = s.clk := by simp [State.deferRequest]

@[simp] theorem State.takeCut_clk (s : State) (q : Nat) (r32 : Int) : (s.takeCut q r32).clk = s.clk := by
  unfold State.takeCut
  dsimp only
  (repeat' split) <;> simp

@[simp] theorem State.considerRequest_clk (s : State) (q : Nat) (r32 : Int) : (s.considerRequest q r32).clk = s.clk := by
  unfold State.considerRequest
  split <;> simp

@[simp] theorem State.seqRequest_clk (s : State) (q : Nat) (r32 : Int) : (s.seqRequest q r32).clk = s.clk := by simp [State.seqRequest]

@[simp] theorem State.setReady_clk (s : State) (c : Nat) : (s.setReady c).clk = s.clk := by
  refine (State.forEach_clk _ _ _ fun q u v hv => ?_).trans (State.markReady_clk ..)
  rw [← hv]
  extract_lets x s1
  have h1 : s1.clk = u.clk := by
    simp only [s1]
    (repeat' split) <;> simp
  clear_value s1
  (repeat' split) <;> simp [h1]

@[simp] theorem State.seqFirstFetch_clk (s : State) (q : Nat) : (s.seqFirstFetch q).clk = s.clk := by
  unfold State.seqFirstFetch
  split <;> simp

@[simp] theorem State.seqParkFetch_clk (s : State) (q : Nat) : (s.seqParkFetch q).clk = s.clk := by
  unfold State.seqParkFetch
  dsimp only
  split <;> simp

theorem execSeqDecision_keepsTime (s : State) (q : Nat) : KeepsTime s (execSeqDecision q s) := guarded_keepsTime (by simp)

@[simp] theorem State.jumpTaken_clk (s : State) (q : Nat) (t : Int) (data course target : Nat) : (s.jumpTaken q t data course target).clk = s.clk := by
  simp [State.jumpTaken]

@[simp] theorem State.seqCounters_clk (s : State) (q c : Nat) (n : SeqOcc) : (s.seqCounters q c n).clk = s.clk := by
  unfold State.seqCounters
  split <;> simp

@[simp] theorem State.seqMarkers_clk (s : State) (q : Nat) (o : SeqOcc) : (s.seqMarkers q o).clk = s.clk := by simp [State.seqMarkers]

@[simp] theorem State.consumeReady_clk (s : State) (p : Course) (next : Nat) : (s.consumeReady p next).clk = s.clk := by simp [State.consumeReady]

@[simp] theorem State.seqBegin_clk (s : State) (q : Nat) (n : SeqOcc) (rest : List SeqOcc) : (s.seqBegin q n rest).clk = s.clk := by
  unfold State.seqBegin
  dsimp only
  (repeat' split) <;> simp

@[simp] theorem State.seqPark_clk (s : State) (q : Nat) (b : Int) : (s.seqPark q b).clk = s.clk := by
  unfold State.seqPark
  split <;> simp

@[simp] theorem State.seqAdvance_clk (s : State) (q : Nat) : (s.seqAdvance q).clk = s.clk := by
  unfold State.seqAdvance
  dsimp only
  (repeat' split) <;> simp

theorem execSeqOccurrenceStart_keepsTime (s : State) (q : Nat) : KeepsTime s (execSeqOccurrenceStart q s) := guarded_keepsTime (by simp)

theorem execSeqCut_keepsTime (s : State) (q : Nat) : KeepsTime s (execSeqCut q s) := guarded_keepsTime (by simp)

theorem execSeqParkResume_keepsTime (s : State) (q : Nat) : KeepsTime s (execSeqParkResume q s) := guarded_keepsTime (by simp)

theorem execSeqStop_keepsTime (s : State) (q : Nat) : KeepsTime s (execSeqStop q s) := guarded_keepsTime (by split <;> simp)

@[simp] theorem State.putBank_clk (s : State) (q d i : Nat) (b : SeqBank) : (s.putBank q d i b).clk = s.clk := by simp [State.putBank]

@[simp] theorem State.recordError_clk (s : State) (q : Nat) : (s.recordError q).clk = s.clk := by simp [State.recordError]

@[simp] theorem State.playRecord_clk (s : State) (q d v : Nat) (o : SeqOcc) : (s.playRecord q d v o).clk = s.clk := by simp [State.playRecord]

@[simp] theorem State.consumeRecord_clk (s : State) (q d i : Nat) (o : SeqOcc) (v : Nat) : (s.consumeRecord q d i o v).clk = s.clk := by
  simp [State.consumeRecord]

@[simp] theorem State.playOp_clk (s : State) (q op : Nat) : (s.playOp q op).clk = s.clk := by
  unfold State.playOp
  split <;> simp

theorem execEdgeHi_keepsTime (s : State) (q : Nat) : KeepsTime s (execEdgeHi q s) := guarded_keepsTime (by simp)

theorem execEdgeLo_keepsTime (s : State) (q : Nat) : KeepsTime s (execEdgeLo q s) := guarded_keepsTime (by simp)

theorem execToggle_keepsTime (s : State) (q : Nat) : KeepsTime s (execToggle q s) := guarded_keepsTime (by simp)

theorem execMark_keepsTime (s : State) (q : Nat) : KeepsTime s (execMark q s) := guarded_keepsTime (by split <;> simp)

theorem execRecordNop_keepsTime (s : State) (q : Nat) : KeepsTime s (execRecordNop q s) := guarded_keepsTime (by simp)

theorem execRecordEnd_keepsTime (s : State) (q : Nat) : KeepsTime s (execRecordEnd q s) := guarded_keepsTime (by simp)

theorem execBankEcc_keepsTime (s : State) (q granule : Nat) (uncorrectable : Bool) : KeepsTime s (execBankEcc q granule uncorrectable s) := by
  refine guarded_keepsTime (State.inCore_timeline _ _ fun u v hv => ?_)
  rw [← hv]
  extract_lets src s1
  have h1 : s1.clk = u.clk := by simp [s1, src]
  clear_value s1
  split <;> simp [h1]

theorem execCourseTableEcc_keepsTime (s : State) (c : Nat) (uncorrectable : Bool) : KeepsTime s (execCourseTableEcc c uncorrectable s) :=
  guarded_keepsTime (by simp)

@[simp] theorem State.activeDrop_clk (s : State) (q a : Nat) : (s.activeDrop q a).clk = s.clk := by simp [State.activeDrop]

@[simp] theorem State.courseDrop_clk (s : State) (c : Nat) : (s.courseDrop c).clk = s.clk := by simp [State.courseDrop]

@[simp] theorem State.bar2Drop_clk (s : State) : s.bar2Drop.clk = s.clk := by simp [State.bar2Drop]

@[simp] theorem State.refillShow_clk (s : State) (q : Nat) : (s.refillShow q).clk = s.clk := by simp [State.refillShow]

@[simp] theorem State.refillEnded_clk (s : State) (q : Nat) (r : Refill) (failed set : Bool) : (s.refillEnded q r failed set).clk = s.clk := by
  simp [State.refillEnded]

@[simp] theorem State.refillSubmit_clk (s : State) (agent q : Nat) : (s.refillSubmit agent q).1.clk = s.clk := by simp [State.refillSubmit]

@[simp] theorem State.refillFlush_clk (s : State) (q : Nat) : (s.refillFlush q).1.clk = s.clk := by simp [State.refillFlush]

@[simp] theorem State.refillError_clk (s : State) (q : Nat) : (s.refillError q).clk = s.clk := by simp [State.refillError]

theorem execRefillDmaError_keepsTime (s : State) (q : Nat) : KeepsTime s (execRefillDmaError q s) := guarded_keepsTime (by simp)

@[simp] theorem State.seqStartAt_clk (s : State) (q mode c : Nat) (s0 : Int) : (s.seqStartAt q mode c s0).1.clk = s.clk := by
  unfold State.seqStartAt
  split <;> simp

@[simp] theorem State.seqStart_clk (s : State) (q : Nat) : (s.seqStart q).1.clk = s.clk := by simp [State.seqStart]

@[simp] theorem State.seqTriggered_clk (s : State) (q t teb : Nat) : (s.seqTriggered q t teb).clk = s.clk := by
  unfold State.seqTriggered
  dsimp only
  split <;> simp

@[simp] theorem State.seqStopEnd_clk (s : State) (q : Nat) : (s.seqStopEnd q).1.clk = s.clk := by simp [State.seqStopEnd]

@[simp] theorem State.seqHaltFrom_clk (s : State) (q : Nat) (t : Int) : (s.seqHaltFrom q t).clk = s.clk := by simp [State.seqHaltFrom]

@[simp] theorem State.seqStopParked_clk (s : State) (q reason : Nat) : (s.seqStopParked q reason).clk = s.clk := by simp [State.seqStopParked]

@[simp] theorem State.seqStopNow_clk (s : State) (q : Nat) : (s.seqStopNow q).1.clk = s.clk := by
  unfold State.seqStopNow
  split <;> simp

@[simp] theorem State.seqJump_clk (s : State) (q : Nat) : (s.seqJump q).1.clk = s.clk := by simp [State.seqJump]

@[simp] theorem State.seqClear_clk (s : State) (q : Nat) : (s.seqClear q).1.clk = s.clk := by simp [State.seqClear]

@[simp] theorem State.seqDisarm_clk (s : State) (q : Nat) : (s.seqDisarm q).1.clk = s.clk := by simp [State.seqDisarm]

@[simp] theorem State.seqCmd_clk (s : State) (q v : Nat) : (s.seqCmd q v).1.clk = s.clk := by
  unfold State.seqCmd
  split <;> simp

@[simp] theorem State.refillCmd_clk (s : State) (agent q v : Nat) : (s.refillCmd agent q v).1.clk = s.clk := by
  unfold State.refillCmd
  split <;> simp

@[simp] theorem State.seqOrphan_clk (s : State) (q : Nat) : (s.seqOrphan q).clk = s.clk := by
  unfold State.seqOrphan
  dsimp only
  (repeat' split) <;> simp

@[simp] theorem State.seqDeviceSafe_clk (s : State) (q : Nat) : (s.seqDeviceSafe q).clk = s.clk := by simp [State.seqDeviceSafe]

@[simp] theorem State.seqStep_clk (s : State) (q : Nat) (d : Int) : (s.seqStep q d).clk = s.clk := by
  unfold State.seqStep
  dsimp only
  (repeat' split) <;> simp

@[simp] theorem State.readySetCmd_clk (s : State) : (s.readySetCmd).1.clk = s.clk := by simp [State.readySetCmd]

@[simp] theorem State.readyClearCmd_clk (s : State) : (s.readyClearCmd).1.clk = s.clk := by simp [State.readyClearCmd]

@[simp] theorem State.validateCmd_clk (s : State) (agent : Nat) : (s.validateCmd agent).1.clk = s.clk := by
  unfold State.validateCmd
  split <;> simp

@[simp] theorem State.readyCmd_clk (s : State) (agent v : Nat) : (s.readyCmd agent v).1.clk = s.clk := by
  unfold State.readyCmd
  dsimp only
  (repeat' split) <;> simp

/-! ### Sync -/

@[simp] theorem State.syncUnresolve_clk (s : State) : s.syncUnresolve.clk = s.clk := by simp [State.syncUnresolve]

@[simp] theorem State.syncSlot_clk (s : State) : s.syncSlot.clk = s.clk := by simp [State.syncSlot]

@[simp] theorem State.syncIn_clk (s : State) (t growth : Nat) : (s.syncIn t growth).clk = s.clk := by simp [State.syncIn]

@[simp] theorem State.syncCross_clk (s : State) (t : Nat) (rising : Bool) (growth : Nat) : (s.syncCross t rising growth).clk = s.clk := by
  simp [State.syncCross]

theorem execSyncInEvent_keepsTime (s : State) (t : Nat) (rising : Bool) (growth : Nat) : KeepsTime s (execSyncInEvent t rising growth s) :=
  guarded_keepsTime (by simp)

@[simp] theorem State.syncOut_clk (s : State) (t : Int) : (s.syncOut t).clk = s.clk := by simp [State.syncOut]

theorem execSyncOutPulse_keepsTime (s : State) (t : Nat) : KeepsTime s (execSyncOutPulse t s) := guarded_keepsTime (by simp)

theorem execPpsPulse_keepsTime (s : State) (sec : Nat) : KeepsTime s (execPpsPulse sec s) := guarded_keepsTime (by simp)

@[simp] theorem State.syncStep_clk (s : State) (d : Int) : (s.syncStep d).clk = s.clk := by simp [State.syncStep]

/-! ### Phase -/

@[simp] theorem State.showFit_clk (s : State) (t : Nat) (f : PhaseFit) : (s.showFit t f).clk = s.clk := by simp [State.showFit]

@[simp] theorem State.refreshFit_clk (s : State) (t : Nat) : (s.refreshFit t).clk = s.clk := by
  unfold State.refreshFit
  split <;> simp

@[simp] theorem State.phaseAccept_clk (s : State) (t : Nat) (j at_ : Int) : (s.phaseAccept t j at_).clk = s.clk := by
  unfold State.phaseAccept
  dsimp only
  split <;> simp

@[simp] theorem State.putPhaseState_clk (s : State) (t st : Nat) : (s.putPhaseState t st).clk = s.clk := by simp [State.putPhaseState]

@[simp] theorem State.reacquire_clk (s : State) (t : Nat) (j : Int) : (s.reacquire t j).clk = s.clk := by simp [State.reacquire]

@[simp] theorem State.phaseAcquire_clk (s : State) (t : Nat) (at_ : Int) : (s.phaseAcquire t at_).clk = s.clk := by simp [State.phaseAcquire]

@[simp] theorem State.phaseSlip_clk (s : State) (t : Nat) (j e at_ : Int) : (s.phaseSlip t j e at_).clk = s.clk := by
  refine clk_of_ite ((State.putPhaseState_clk ..).trans ((State.setPhase_clk ..).trans ?_))
    ((State.phaseAccept_clk ..).trans ((State.reacquire_clk ..).trans ?_))
  all_goals rw [State.irq_clk, State.putInst_clk, State.put_clk, State.incSat_clk]

@[simp] theorem State.phaseTrack_clk (s : State) (t : Nat) (at_ : Int) : (s.phaseTrack t at_).clk = s.clk := by
  unfold State.phaseTrack
  split <;> simp

@[simp] theorem State.phaseStamp_clk (s : State) (t : Nat) (at_ : Int) : (s.phaseStamp t at_).clk = s.clk := by
  unfold State.phaseStamp
  split <;> simp

theorem execPhaseSourceLost_keepsTime (s : State) (t : Nat) : KeepsTime s (execPhaseSourceLost t s) := guarded_keepsTime (by simp)

@[simp] theorem State.phaseRestart_clk (s : State) (t : Nat) : (s.phaseRestart t).clk = s.clk := by simp [State.phaseRestart]

@[simp] theorem State.phaseStart_clk (s : State) (t : Nat) : (s.phaseStart t).clk = s.clk := by simp [State.phaseStart]

@[simp] theorem State.phaseStop_clk (s : State) (t : Nat) : (s.phaseStop t).clk = s.clk := by simp [State.phaseStop]

@[simp] theorem State.phaseStep_clk (s : State) (t : Nat) (d : Int) : (s.phaseStep t d).clk = s.clk := by simp [State.phaseStep]

@[simp] theorem State.phaseEvent_clk (s : State) (t : Nat) : (s.phaseEvent t).clk = s.clk := by
  unfold State.phaseEvent
  split <;> simp

/-! ### Sched -/

@[simp] theorem State.tickStart_clk (s : State) (n : Nat) : (s.tickStart n).clk = s.clk := by simp [State.tickStart]

@[simp] theorem State.tickDeliver_clk (s : State) (n : Nat) : (s.tickDeliver n).clk = s.clk := by simp [State.tickDeliver]

theorem execTickDelivery_keepsTime (s : State) (n : Nat) : KeepsTime s (execTickDelivery n s) := guarded_keepsTime (by simp)

@[simp] theorem State.tickStep_clk (s : State) (n : Nat) (now32 : Int) : (s.tickStep n now32).clk = s.clk := by simp [State.tickStep]

@[simp] theorem State.schedLog_clk (s : State) (a : Action) (actual : Int) (outcome result gate : Nat) :
    (s.schedLog a actual outcome result gate).clk = s.clk := by simp [State.schedLog]

@[simp] theorem State.gateValue_clk (s : State) (gate : Option Nat) (actual : Int) (executed : Bool) :
    (s.gateValue gate actual executed).2.clk = s.clk := by
  unfold State.gateValue
  split <;> simp

@[simp] theorem State.logDropped_clk (s : State) (a : Action) (outcome result : Nat) : (s.logDropped a outcome result).clk = s.clk := by
  simp [State.logDropped]

@[simp] theorem State.offer_clk (s : State) (q idx v : Nat) : (s.offer q idx v).1.clk = s.clk := by
  unfold State.offer
  split <;> simp

theorem execActionAccept_keepsTime (s : State) (r a : Nat) : KeepsTime s (execActionAccept r a s) := guarded_keepsTime (by simp)

@[simp] theorem State.submit_clk (s : State) (q action : Nat) : (s.submit q action).1.clk = s.clk := by simp [State.submit]

@[simp] theorem State.discardAll_clk (s : State) (q : Nat) : (s.discardAll q).clk = s.clk := by simp [State.discardAll]

theorem execQueueEcc_keepsTime (s : State) (q : Nat) (uncorrectable : Bool) : KeepsTime s (execQueueEcc q uncorrectable s) := by
  refine guarded_keepsTime (State.inCore_timeline _ _ fun u v hv => ?_)
  rw [← hv]
  (repeat' split) <;> simp

@[simp] theorem State.setHead_clk (s : State) (q : Nat) (a : Action) : (s.setHead q a).clk = s.clk := by simp [State.setHead]

@[simp] theorem State.popHead_clk (s : State) (q : Nat) : (s.popHead q).clk = s.clk := by simp [State.popHead]

@[simp] theorem State.boundFail_clk (s : State) : s.boundFail.clk = s.clk := by simp [State.boundFail]

@[simp] theorem State.boundNext_clk (s : State) (q : Nat) (a : Action) (v : Nat) : (s.boundNext q a v).clk = s.clk := by simp [State.boundNext]

@[simp] theorem State.convertHead_clk (s : State) (q : Nat) : (s.convertHead q).clk = s.clk := by
  unfold State.convertHead
  dsimp only
  (repeat' split) <;> simp

theorem execPhaseConvert_keepsTime (s : State) (t : Nat) : KeepsTime s (execPhaseConvert t s) := guarded_keepsTime (by split <;> simp)

@[simp] theorem State.lastLate_clk (s : State) (q : Nat) (a : Action) (actual : Int) (outcome : Nat) : (s.lastLate q a actual outcome).clk = s.clk := by
  simp [State.lastLate]

@[simp] theorem State.lateAction_clk (s : State) (q : Nat) (a : Action) (actual : Int) (outcome : Nat) :
    (s.lateAction q a actual outcome).clk = s.clk := by simp [State.lateAction]

@[simp] theorem State.handOver_clk (s : State) (q : Nat) (a : Action) (t : Int) (outcome : Nat) : (s.handOver q a t outcome).clk = s.clk := by
  unfold State.handOver
  dsimp only
  (repeat' split) <;> simp

@[simp] theorem State.dispatch_clk (s0 : State) : (s0.dispatch).clk = s0.clk := by
  unfold State.dispatch
  dsimp only
  (repeat' split) <;> simp

@[simp] theorem State.flushQueue_clk (s : State) (q : Nat) : (s.flushQueue q).clk = s.clk := by simp [State.flushQueue]

theorem execActionDispatch_keepsTime (s : State) : KeepsTime s (execActionDispatch s) := guarded_keepsTime (by simp)

@[simp] theorem State.dropDispatched_clk (s : State) (d : Disp) : (s.dropDispatched d).clk = s.clk := by simp [State.dropDispatched]

@[simp] theorem State.executed_clk (s : State) (d : Disp) : (s.executed d).clk = s.clk := by simp [State.executed]

@[simp] theorem State.targetState_clk (s : State) (d : Disp) (result : Nat) : (s.targetState d result).clk = s.clk := by simp [State.targetState]

@[simp] theorem State.keepHanded_clk (s : State) (d : Disp) : (s.keepHanded d).clk = s.clk := by simp [State.keepHanded]

@[simp] theorem State.runAction_clk (s : State) (op : Nat) (f : Disp → State → State × Verdict) (hf : ∀ d u v, f d u = v → v.1.clk = u.clk) :
    (s.runAction op f).clk = s.clk := by
  unfold State.runAction
  split
  · rfl
  · next d _ =>
    have h : (f d (s.dropDispatched d)).1.clk = s.clk := (hf d _ _ rfl).trans (by simp)
    dsimp only
    (repeat' split) <;> simp_all
@[simp] theorem State.runAction_timeline (s : State) (op : Nat) (f : Disp → State → State × Verdict)
    (hf : ∀ d u v, f d u = v → v.1.clk.timeline = u.clk.timeline) : (s.runAction op f).clk.timeline = s.clk.timeline := by
  unfold State.runAction
  split
  · rfl
  · next d _ =>
    have h : (f d (s.dropDispatched d)).1.clk.timeline = s.clk.timeline := (hf d _ _ rfl).trans (by simp)
    dsimp only
    (repeat' split) <;> simp_all

@[simp] theorem State.chanAction_clk (s : State) (d : Disp) (k : Option EdgeKind) : (State.chanAction d k s).1.clk = s.clk := by
  unfold State.chanAction
  split <;> simp

theorem execActionNop_keepsTime (s : State) : KeepsTime s (execActionNop s) := guarded_keepsTime (by simp)

theorem execChanHi_keepsTime (s : State) : KeepsTime s (execChanHi s) := guarded_keepsTime (by simp)

theorem execChanLo_keepsTime (s : State) : KeepsTime s (execChanLo s) := guarded_keepsTime (by simp)

theorem execChanToggle_keepsTime (s : State) : KeepsTime s (execChanToggle s) := guarded_keepsTime (by simp)

theorem execChanPulse_keepsTime (s : State) : KeepsTime s (execChanPulse s) := guarded_keepsTime (by simp)

theorem execFireLine_keepsTime (s : State) : KeepsTime s (execFireLine s) := guarded_keepsTime (by simp)

theorem execSeqStart_keepsTime (s : State) : KeepsTime s (execSeqStart s) := guarded_keepsTime (by simp)

theorem execSeqJump_keepsTime (s : State) : KeepsTime s (execSeqJump s) := guarded_keepsTime (by simp)

theorem execSeqStopAtEnd_keepsTime (s : State) : KeepsTime s (execSeqStopAtEnd s) := guarded_keepsTime (by simp)

theorem execSeqStopNow_keepsTime (s : State) : KeepsTime s (execSeqStopNow s) := guarded_keepsTime (by simp)

theorem execNotify_keepsTime (s : State) : KeepsTime s (execNotify s) := guarded_keepsTime (by simp)

@[simp] theorem State.schedSafeExit_clk (s : State) (agent : Nat) : (s.schedSafeExit agent).1.clk = s.clk := by simp [State.schedSafeExit]

@[simp] theorem State.schedStep_clk (s : State) (d : Int) : (s.schedStep d).clk = s.clk := by simp [State.schedStep]

end Sys2Proof.Machine
end

section
/-! SUPPORT. The clock under the operations of the model: inputs and measurement. -/

namespace Sys2Proof.Machine

/-! ### Tin -/

@[simp] theorem State.setCore_clk (s : State) (i k : Nat) (x : CoreSt) : (s.setCore i k x).clk = s.clk := by simp [State.setCore]

@[simp] theorem State.showSubs_clk (s : State) (i : Nat) : (s.showSubs i).clk = s.clk := by simp [State.showSubs]

theorem State.takePlace_clk {s t : State} {i kind idx : Nat} (h : s.takePlace i kind idx = some t) : t.clk = s.clk := by
  unfold State.takePlace at h
  split at h
  · cases h
  · cases h; simp

@[simp] theorem State.freePlace_clk (s : State) (i kind idx : Nat) : (s.freePlace i kind idx).clk = s.clk := by
  unfold State.freePlace
  split <;> simp

theorem State.takePlaces_clk {s t : State} {kind idx : Nat} {l : List Nat} (h : s.takePlaces kind idx l = .ok t) : t.clk = s.clk := by
  induction l generalizing s with
  | nil => cases h; rfl
  | cons i l ih =>
    unfold State.takePlaces at h
    split at h
    · next u hu => exact (ih h).trans (State.takePlace_clk hu)
    · cases h

@[simp] theorem State.freePlaces_clk (s : State) (kind idx : Nat) (is : List Nat) : (s.freePlaces kind idx is).clk = s.clk := by
  simp [State.freePlaces]

@[simp] theorem State.refreshInput_clk (s : State) (i : Nat) : (s.refreshInput i).clk = s.clk := by simp [State.refreshInput]

@[simp] theorem State.loopStamp_clk (s : State) : s.loopStamp.clk = s.clk := by simp [State.loopStamp]

@[simp] theorem State.unresolve_clk (s : State) (i ahead : Nat) : (s.unresolve i ahead).clk = s.clk := by simp [State.unresolve]

theorem execInputResolved_keepsTime (s : State) (i : Nat) (high : Bool) : KeepsTime s (execInputResolved i high s) := guarded_keepsTime (by simp)

@[simp] theorem State.noteRecent_clk (s : State) (i : Nat) (st : Stamp) (w : RecentWhat) : (s.noteRecent i st w).clk = s.clk := by
  simp [State.noteRecent]

@[simp] theorem State.measLost_clk (s0 : State) (i : Nat) (rising fifo : Bool) (u_ : Int) : (s0.measLost i rising fifo u_).clk = s0.clk := by
  simp [State.measLost]

@[simp] theorem State.captureCrossing_clk (s : State) (i : Nat) (x : Crossing) : (s.captureCrossing i x).clk = s.clk := by
  simp [State.captureCrossing]

@[simp] theorem State.crossing_clk (s : State) (i : Nat) (x : Crossing) : (s.crossing i x).clk = s.clk := by simp [State.crossing]

theorem execInputCrossing_keepsTime (s : State) (i : Nat) (x : Crossing) : KeepsTime s (execInputCrossing i x s) := guarded_keepsTime (by simp)

@[simp] theorem State.keepTerms_clk (s : State) (i : Nat) : (s.keepTerms i).clk = s.clk := by simp [State.keepTerms]

@[simp] theorem State.fifoEnter_clk (s : State) (i : Nat) (st : Stamp) : (s.fifoEnter i st).clk = s.clk := by simp [State.fifoEnter]

@[simp] theorem State.countEvent_clk (s : State) (i k code : Nat) : (s.countEvent i k code).clk = s.clk := by
  unfold State.countEvent
  extract_lets c h
  split
  · rfl
  · simp only [State.put_clk, State.setCore_clk]

@[simp] theorem State.stampReady_clk (s : State) (i : Nat) (c : Conversion) : (s.stampReady i c).clk = s.clk := by
  unfold State.stampReady
  split <;> simp

theorem execStampReady_keepsTime (s : State) (i : Nat) (c : Conversion) : KeepsTime s (execStampReady i c s) := guarded_keepsTime (by simp)

@[simp] theorem State.coreFail_clk (s : State) (i k : Nat) : (s.coreFail i k).clk = s.clk := by simp [State.coreFail]

@[simp] theorem State.injectInto_clk (s : State) (i k : Nat) (pulse : Bool) (code : Nat) : (s.injectInto i k pulse code).clk = s.clk := by
  simp [State.injectInto]

theorem execInjectedEvent_keepsTime (s : State) (i core : Nat) (pulse : Bool) (code : Nat) : KeepsTime s (execInjectedEvent i core pulse code s) :=
  guarded_keepsTime (by simp)

@[simp] theorem State.refreshTinSettled_clk (s : State) : s.refreshTinSettled.clk = s.clk := by simp [State.refreshTinSettled]

@[simp] theorem State.acceptTable_clk (s : State) (i k : Nat) (r : TableResult) : (s.acceptTable i k r).clk = s.clk := by simp [State.acceptTable]

@[simp] theorem State.tableDone_clk (s : State) (i k : Nat) (r : TableResult) : (s.tableDone i k r).clk = s.clk := by simp [State.tableDone]

theorem execCalStale_keepsTime (s : State) (i core : Nat) : KeepsTime s (execCalStale i core s) := guarded_keepsTime (by simp)

@[simp] theorem State.recal_clk (s : State) (i : Nat) : (s.recal i).clk = s.clk := by simp [State.recal]

theorem execInputTableEcc_keepsTime (s : State) (i core : Nat) (uncorrectable : Bool) : KeepsTime s (execInputTableEcc i core uncorrectable s) :=
  guarded_keepsTime (by simp)

@[simp] theorem State.tinCommit_clk (s old : State) (i : Nat) : (s.tinCommit i old).clk = s.clk := by simp [State.tinCommit]

/-! ### Meas -/

@[simp] theorem State.putSessState_clk (s : State) (k st : Nat) : (s.putSessState k st).clk = s.clk := by simp [State.putSessState]

@[simp] theorem State.putResult_clk (s : State) (n seq : Nat) (elems : List Nat) : (s.putResult n seq elems).clk = s.clk := by
  simp [State.putResult]

@[simp] theorem State.earlyStops_clk (s : State) (k n : Nat) : (s.earlyStops k n).clk = s.clk := by simp [State.earlyStops]

@[simp] theorem State.armOnly_clk (s : State) (k : Nat) (a : Int) : (s.armOnly k a).clk = s.clk := by simp [State.armOnly]

@[simp] theorem State.endSession_clk (s : State) (k : Nat) (timeout aborted : Bool) (endAt : Int) :
    (s.endSession k timeout aborted endAt).clk = s.clk := by simp [State.endSession]

@[simp] theorem State.takeWaiting_clk (s : State) (k : Nat) (at_ : Int) (teb cal : Nat) : (s.takeWaiting k at_ teb cal).clk = s.clk := by
  simp [State.takeWaiting]

@[simp] theorem State.armSession_clk (s : State) (k : Nat) (a : Int) : (s.armSession k a).clk = s.clk := by simp [State.armSession]

@[simp] theorem State.closeSession_clk (s : State) (k : Nat) (timeout : Bool) (endAt : Int) : (s.closeSession k timeout endAt).clk = s.clk := by
  simp [State.closeSession]

@[simp] theorem State.takeStop_clk (s : State) (k : Nat) (x : Stop) : (s.takeStop k x).clk = s.clk := by simp [State.takeStop]

@[simp] theorem State.startSession_clk (s : State) (k : Nat) (at_ : Int) (teb cal : Nat) : (s.startSession k at_ teb cal).clk = s.clk := by
  simp [State.startSession]

@[simp] theorem State.sessionStamp_clk (s : State) (k : Nat) (y : Stop) (teb cal : Nat) : (s.sessionStamp k y teb cal).clk = s.clk := by
  simp [State.sessionStamp]

@[simp] theorem State.sessEvent_clk (s : State) (k : Nat) (e : SessEvent) : (s.sessEvent k e).clk = s.clk := by
  unfold State.sessEvent
  split <;> simp

@[simp] theorem State.sessTake_clk (s : State) (k n : Nat) : (s.sessTake k n).clk = s.clk := by
  induction n generalizing s with
  | zero => rfl
  | succ n ih => unfold State.sessTake; (repeat' split) <;> simp [ih]

@[simp] theorem State.sessRun_clk (s : State) (k : Nat) : (s.sessRun k).clk = s.clk := by simp [State.sessRun]

@[simp] theorem State.measSlot_clk (s : State) : s.measSlot.clk = s.clk := by simp [State.measSlot]

@[simp] theorem State.toSession_clk (s : State) (k : Nat) (e : SessEvent) : (s.toSession k e).clk = s.clk := by simp [State.toSession]

@[simp] theorem State.drain_clk (s : State) (i : Nat) : (s.drain i).clk = s.clk := by
  unfold State.drain
  split <;> simp

theorem execIntakeDrain_keepsTime (s : State) (i : Nat) : KeepsTime s (execIntakeDrain i s) := guarded_keepsTime (by simp)

@[simp] theorem State.intakePut_clk (s : State) (i : Nat) (st : Stamp) : (s.intakePut i st).clk = s.clk := by simp [State.intakePut]

@[simp] theorem State.intakeEnter_clk (s : State) (i : Nat) (st : Stamp) : (s.intakeEnter i st).clk = s.clk := by simp [State.intakeEnter]

@[simp] theorem State.replayOne_clk (s : State) (k i : Nat) (r : Recent) : (s.replayOne k i r).clk = s.clk := by
  unfold State.replayOne
  split <;> simp

@[simp] theorem State.replay_clk (s : State) (k : Nat) (a : Int) : (s.replay k a).clk = s.clk := by simp [State.replay]

theorem execSessionTimeout_keepsTime (s : State) (k : Nat) : KeepsTime s (execSessionTimeout k s) := guarded_keepsTime (by simp)

@[simp] theorem State.enableSession_clk (s : State) (k : Nat) : (s.enableSession k).1.clk = s.clk := by
  unfold State.enableSession
  dsimp only
  split
  · simp
  · split
    · simp
    · split
      · rfl
      · next h => split <;> simp [State.takePlaces_clk h]

@[simp] theorem State.abortSession_clk (s : State) (k : Nat) : (s.abortSession k).clk = s.clk := by simp [State.abortSession]

@[simp] theorem State.disableSession_clk (s : State) (k : Nat) : (s.disableSession k).clk = s.clk := by simp [State.disableSession]

@[simp] theorem State.openGate_clk (s : State) (g : Nat) (at_ l : Int) (fixed : Bool) : (s.openGate g at_ l fixed).clk = s.clk := by
  simp [State.openGate]

@[simp] theorem State.gateStamp_clk (s : State) (st : Stamp) (g : Nat) : (s.gateStamp st g).clk = s.clk := by simp [State.gateStamp]

@[simp] theorem State.finishGate_clk (s : State) (g : Nat) (w : GateWin) : (s.finishGate g w).clk = s.clk := by simp [State.finishGate]

theorem execGateEnd_keepsTime (s : State) (g : Nat) : KeepsTime s (execGateEnd g s) := guarded_keepsTime (by split <;> simp)

@[simp] theorem State.enableGate_clk (s : State) (g : Nat) : (s.enableGate g).1.clk = s.clk := by
  unfold State.enableGate
  dsimp only
  split
  · simp
  · split
    · simp
    · split
      · next h => simp [State.takePlace_clk h]
      · rfl

@[simp] theorem State.disableGate_clk (s : State) (g : Nat) : (s.disableGate g).clk = s.clk := by simp [State.disableGate]

@[simp] theorem State.cmdArm_clk (s : State) (k : Nat) : (s.cmdArm k).1.clk = s.clk := by simp [State.cmdArm]

@[simp] theorem State.cmdAbort_clk (s : State) (k : Nat) : (s.cmdAbort k).1.clk = s.clk := by simp [State.cmdAbort]

@[simp] theorem State.cmdGateStart_clk (s : State) (k : Nat) : (s.cmdGateStart k).1.clk = s.clk := by simp [State.cmdGateStart]

@[simp] theorem State.sessionCmd_clk (s : State) (v : Nat) : (s.sessionCmd v).1.clk = s.clk := by
  unfold State.sessionCmd
  split <;> simp

theorem execMeasArm_keepsTime (s : State) : KeepsTime s (execMeasArm s) := guarded_keepsTime (by simp)

theorem execTdcEngineEcc_keepsTime (s : State) (sessions gates : Nat) : KeepsTime s (execTdcEngineEcc sessions gates s) :=
  guarded_keepsTime (by simp)

@[simp] theorem State.lineToMeas_clk (s : State) (n : Nat) (e : LineEvent) : (s.lineToMeas n e).clk = s.clk := by simp [State.lineToMeas]

@[simp] theorem State.tickToMeas_clk (s : State) (n t : Nat) : (s.tickToMeas n t).clk = s.clk := by simp [State.tickToMeas]

@[simp] theorem State.measStep_clk (s : State) (d : Int) : (s.measStep d).clk = s.clk := by simp [State.measStep]

@[simp] theorem State.streamAppend_clk (s : State) (k w : Nat) (stamp : Bool) (second : optParam Bool Bool.false) :
    (s.streamAppend k w stamp second).clk = s.clk := by simp [State.streamAppend]

@[simp] theorem State.streamBase_clk (s : State) (k reason gen : Nat) : (s.streamBase k reason gen).clk = s.clk := by simp [State.streamBase]

@[simp] theorem State.streamStart_clk (s : State) (k : Nat) : (s.streamStart k).clk = s.clk := by simp [State.streamStart]

@[simp] theorem State.streamLose_clk (s : State) (k n : Nat) : (s.streamLose k n).clk = s.clk := by simp [State.streamLose]

@[simp] theorem State.streamSuspend_clk (s : State) (k : Nat) : (s.streamSuspend k).clk = s.clk := by simp [State.streamSuspend]

@[simp] theorem State.streamRecord_clk (s : State) (k r w : Nat) (stamp : Bool) : (s.streamRecord k r w stamp).1.clk = s.clk := by
  simp [State.streamRecord]

@[simp] theorem State.streamBaseIn_clk (s : State) (k r reason gen : Nat) : (s.streamBaseIn k r reason gen).1.clk = s.clk := by
  simp [State.streamBaseIn]

@[simp] theorem State.streamHold_clk (s : State) (k r : Nat) (st : Stamp) : (s.streamHold k r st).clk = s.clk := by simp [State.streamHold]

@[simp] theorem State.streamStamp_clk (s : State) (k r : Nat) (st : Stamp) : (s.streamStamp k r st).clk = s.clk := by simp [State.streamStamp]

theorem execStreamPeriodicBase_keepsTime (s : State) (k : Nat) : KeepsTime s (execStreamPeriodicBase k s) := guarded_keepsTime (by split <;> simp)

@[simp] theorem State.streamWrite_clk (s : State) (k r : Nat) : (s.streamWrite k r).clk = s.clk := by simp [State.streamWrite]

theorem execStreamBatchWrite_keepsTime (s : State) (k : Nat) : KeepsTime s (execStreamBatchWrite k s) := guarded_keepsTime (by split <;> simp)

theorem execStreamResume_keepsTime (s : State) (k : Nat) : KeepsTime s (execStreamResume k s) := guarded_keepsTime (by simp)

end Sys2Proof.Machine
end

section
/-! SUPPORT. The clock under the operations of the model: the servo, the references and the auxiliary outputs. -/

namespace Sys2Proof.Machine

/-! ### Servo -/

@[simp] theorem State.openUnit_clk (s : State) (num : Int) (den : Nat) : (s.openUnit num den).2.clk = s.clk := by simp [State.openUnit]

@[simp] theorem State.tscEvent_clk (s : State) (kind data : Nat) : (s.tscEvent kind data).clk = s.clk := by simp [State.tscEvent]

@[simp] theorem State.enterStage_clk (s : State) (k : Nat) : (s.enterStage k).clk = s.clk := by simp [State.enterStage]

@[simp] theorem State.refreshStage_clk (s : State) : s.refreshStage.clk = s.clk := by simp [State.refreshStage]

@[simp] theorem State.setBasis_clk (s : State) (b : Nat) : (s.setBasis b).clk = s.clk := by simp [State.setBasis]

@[simp] theorem State.formY_timeline (s : State) : s.formY.clk.timeline = s.clk.timeline := by
  unfold State.formY
  extract_lets sum y s1 s2
  have h2 : s2.clk = s.clk := by simp [s2, s1]
  clear_value s2
  split
  · rfl
  · rw [← h2]; rfl

@[simp] theorem State.yAge_clk (s : State) : (s.yAge).2.clk = s.clk := by simp [State.yAge]

@[simp] theorem State.yTc_clk (s : State) (temp : Int) : (s.yTc temp).2.clk = s.clk := by simp [State.yTc]

@[simp] theorem State.putXo_clk (s : State) (tc age : Int) : (s.putXo tc age).clk = s.clk := by simp [State.putXo]

@[simp] theorem State.dieMoved_clk (s : State) : s.dieMoved.clk = s.clk := by simp [State.dieMoved]

@[simp] theorem State.fitTick_clk (s : State) : s.fitTick.clk = s.clk := by simp [State.fitTick]

@[simp] theorem State.readMeans_clk (s : State) : s.readMeans.clk = s.clk := by simp [State.readMeans]

@[simp] theorem State.xoUpdate_timeline (s : State) (m : XoMeasure) : (s.xoUpdate m).clk.timeline = s.clk.timeline := by simp [State.xoUpdate]

theorem execXoUpdate_keepsTime (s : State) (m : XoMeasure) : KeepsTime s (execXoUpdate m s) := guarded_keepsTime (by simp)

theorem execOvenStable_keepsTime (s : State) : KeepsTime s (execOvenStable s) := guarded_keepsTime (by simp)

theorem execOvenFault_keepsTime (s : State) : KeepsTime s (execOvenFault s) := guarded_keepsTime (by simp)

@[simp] theorem State.ageingFit_timeline (s : State) (f : AgeFit) : (s.ageingFit f).clk.timeline = s.clk.timeline := by simp [State.ageingFit]

theorem execAgeingFit_keepsTime (s : State) (f : AgeFit) : KeepsTime s (execAgeingFit f s) := guarded_keepsTime (by simp)

@[simp] theorem State.fitReset_clk (s : State) : s.fitReset.clk = s.clk := by simp [State.fitReset]

@[simp] theorem State.setServoState_clk (s : State) (st : Nat) : (s.setServoState st).clk = s.clk := by simp [State.setServoState]

@[simp] theorem State.cancelSlew_clk (s : State) : s.cancelSlew.clk = s.clk := by simp [State.cancelSlew]

@[simp] theorem State.startSlew_clk (s : State) (th : Int) : (s.startSlew th).clk = s.clk := by simp [State.startSlew]

@[simp] theorem State.composeRef_clk (s : State) (k : Nat) : (s.composeRef k).clk = s.clk := by simp [State.composeRef]

@[simp] theorem State.meanError_clk (s : State) (vs : List Int) : (s.meanError vs).2.clk = s.clk := by simp [State.meanError]

@[simp] theorem State.putHold0_clk (s : State) (b : Option Nat) : (s.putHold0 b).clk = s.clk := by simp [State.putHold0]

@[simp] theorem State.enterHoldover_timeline (s : State) (byMode : Bool) : (s.enterHoldover byMode).clk.timeline = s.clk.timeline := by
  have enter (u : State) (x : ServoSt) (y : TebSt) (b : Bool) (n : Nat) (h : u.clk = s.clk) :
      (((({ u with servo := x, teb := y } : State).setServoState 3).onlyIf b fun s => s.err pSERVO 0).setBasis n).formY.clk.timeline
        = s.clk.timeline := by
    rw [State.formY_timeline, State.setBasis_clk, State.onlyIf_clk _ _ _ fun _ _ hv => hv ▸ State.err_clk .., State.setServoState_clk, ← h]
  refine enter _ _ _ _ _ ?_
  rw [State.putFlag_clk, State.putFlag_clk, State.putI_clk, State.putHold0_clk, State.put_clk, State.putInst_clk, State.cancelSlew_clk,
    State.meanError_clk]
  split
  · rfl
  · exact State.openUnit_clk ..

@[simp] theorem State.adoptBase_clk (s : State) (k : Nat) (o : Option Obs) : (s.adoptBase k o).clk = s.clk := by simp [State.adoptBase]

@[simp] theorem State.keepFloor_clk (s : State) : s.keepFloor.clk = s.clk := by simp [State.keepFloor]

@[simp] theorem State.adoptSlew_timeline (s : State) (k : Nat) (th : Int) (b : Nat) : (s.adoptSlew k th b).clk.timeline = s.clk.timeline := by
  simp [State.adoptSlew]

@[simp] theorem State.adoptFreq_timeline (s : State) (k : Nat) : (s.adoptFreq k).clk.timeline = s.clk.timeline := by
  have adopt (u : State) (x : ServoSt) (h : u.clk = s.clk) : ({ u with servo := x } : State).formY.clk.timeline = s.clk.timeline := by
    rw [State.formY_timeline, ← h]
  refine adopt _ _ ?_
  rw [State.setRef_clk, State.adoptBase_clk, State.cancelSlew_clk, State.keepFloor_clk]

@[simp] theorem State.adoptStepped_timeline (s : State) (k : Nat) : (s.adoptStepped k).clk.timeline = s.clk.timeline := by simp [State.adoptStepped]

@[simp] theorem State.askStep_timeline (s : State) (d : Int) (adopts : Option Nat) : (s.askStep d adopts).clk.timeline = s.clk.timeline := rfl

@[simp] theorem State.lockCheck_clk (s : State) (k : Nat) : (s.lockCheck k).clk = s.clk := by simp [State.lockCheck]

@[simp] theorem State.loop_clk (s : State) (e : Int) (dt : Nat) : (s.loop e dt).clk = s.clk := by simp [State.loop]

@[simp] theorem State.useObs_timeline (s : State) (k : Nat) (o : Obs) : (s.useObs k o).clk.timeline = s.clk.timeline := by simp [State.useObs]

theorem execSlewEnd_keepsTime (s : State) : KeepsTime s (execSlewEnd s) := guarded_keepsTime (by dsimp only; (repeat' split) <;> simp)

@[simp] theorem State.cmdStep_timeline (s : State) : (s.cmdStep).1.clk.timeline = s.clk.timeline := by simp [State.cmdStep]

@[simp] theorem State.cmdStepProposed_timeline (s : State) : (s.cmdStepProposed).1.clk.timeline = s.clk.timeline := by simp [State.cmdStepProposed]

@[simp] theorem State.cmdSlewProposed_timeline (s : State) : (s.cmdSlewProposed).1.clk.timeline = s.clk.timeline := by simp [State.cmdSlewProposed]

@[simp] theorem State.stepCmd_timeline (s : State) (v : Nat) : (s.stepCmd v).1.clk.timeline = s.clk.timeline := by
  unfold State.stepCmd
  split <;> simp

@[simp] theorem State.freerun_timeline (s : State) : s.freerun.clk.timeline = s.clk.timeline := by simp [State.freerun]

@[simp] theorem State.enterManual_clk (s : State) : s.enterManual.clk = s.clk := by simp [State.enterManual]

@[simp] theorem State.writeY_timeline (s : State) (v : Nat) : (s.writeY v).1.clk.timeline = s.clk.timeline := by
  unfold State.writeY
  extract_lets y
  split
  · simp
  · split
    · simp
    · rw [accept_clk, State.putI_clk]; rfl

/-! ### Refsel -/

@[simp] theorem State.putRefState_clk (s : State) (k st : Nat) : (s.putRefState k st).clk = s.clk := by simp [State.putRefState]

@[simp] theorem State.putSelected_clk (s : State) (k : Nat) : (s.putSelected k).clk = s.clk := by simp [State.putSelected]

@[simp] theorem State.clearConflict_clk (s : State) : s.clearConflict.clk = s.clk := by simp [State.clearConflict]

@[simp] theorem State.makeSuspect_clk (s : State) (k : Nat) : (s.makeSuspect k).clk = s.clk := by simp [State.makeSuspect]

@[simp] theorem State.acquire_timeline (s : State) (k : Nat) : (s.acquire k).clk.timeline = s.clk.timeline := by
  unfold State.acquire
  split <;> simp

@[simp] theorem State.raiseConflict_clk (s : State) (k : Nat) : (s.raiseConflict k).clk = s.clk := by simp [State.raiseConflict]

@[simp] theorem State.deselect_timeline (s : State) : s.deselect.clk.timeline = s.clk.timeline := by
  unfold State.deselect
  dsimp only
  (repeat' split) <;> simp

@[simp] theorem State.exchange_clk (s : State) (old new : Nat) : (s.exchange old new).clk = s.clk := by simp [State.exchange]

@[simp] theorem State.adopt_timeline (s : State) (k : Nat) (a : Adoption) : (s.adopt k a).clk.timeline = s.clk.timeline := by
  unfold State.adopt
  split <;> simp

@[simp] theorem State.reselectWith_timeline (s : State) (F : State → Nat) (n : Nat) (skip : List Nat) :
    (State.reselectWith F n skip s).clk.timeline = s.clk.timeline := by
  induction n generalizing s skip with
  | zero => rfl
  | succ n ih =>
    unfold State.reselectWith
    split
    · split <;> simp
    · extract_lets auto old switched s1
      have hs : ∀ t, (switched t).clk = t.clk := fun t => by simp [switched]
      clear_value switched
      (repeat' split) <;> simp [hs, ih]
      simp only [s1]
      split <;> simp

@[simp] theorem State.reselect_timeline (s : State) : s.reselect.clk.timeline = s.clk.timeline := by simp [State.reselect]

@[simp] theorem State.refreshDomain_clk (s : State) : s.refreshDomain.clk = s.clk := by simp [State.refreshDomain]

@[simp] theorem State.judgeDiff_clk (s : State) : s.judgeDiff.clk = s.clk := by simp [State.judgeDiff]

@[simp] theorem State.putVerdict_clk (s : State) (v : Nat) : (s.putVerdict v).clk = s.clk := by simp [State.putVerdict]

@[simp] theorem State.declarePath_timeline (s : State) (k : Nat) : (s.declarePath k).clk.timeline = s.clk.timeline := by simp [State.declarePath]

@[simp] theorem State.pathWatch_timeline (s : State) (k : Nat) (o : Obs) : (s.pathWatch k o).1.clk.timeline = s.clk.timeline := by
  unfold State.pathWatch
  split <;> simp

@[simp] theorem State.unfreeze_clk (s : State) (k : Nat) (keep : Bool) : (s.unfreeze k keep).clk = s.clk := by simp [State.unfreeze]

@[simp] theorem State.closePath_timeline (s : State) (v : Nat) : (s.closePath v).clk.timeline = s.clk.timeline := by simp [State.closePath]

@[simp] theorem State.pathVerdict_timeline (s : State) (j : Nat) : (s.pathVerdict j).clk.timeline = s.clk.timeline := by simp [State.pathVerdict]

@[simp] theorem State.queueObs_clk (s : State) (k : Nat) (o : Obs) : (s.queueObs k o).clk = s.clk := by simp [State.queueObs]

@[simp] theorem State.refStamp_clk (s : State) (k i : Nat) (st : Stamp) : (s.refStamp k i st).clk = s.clk := by
  unfold State.refStamp
  dsimp only
  (repeat' split) <;> simp

@[simp] theorem State.showSlope_clk (s : State) (k : Nat) (w : List Obs) : (s.showSlope k w).clk = s.clk := by simp [State.showSlope]

@[simp] theorem State.restartDwell_clk (s : State) (k : Nat) : (s.restartDwell k).clk = s.clk := by simp [State.restartDwell]

@[simp] theorem State.failObs_timeline (s : State) (k : Nat) (o : Obs) (check : Nat) : (s.failObs k o check).clk.timeline = s.clk.timeline := by
  simp [State.failObs]

@[simp] theorem State.passObs_timeline (s : State) (k : Nat) (o : Obs) : (s.passObs k o).clk.timeline = s.clk.timeline := by simp [State.passObs]

@[simp] theorem State.seeObs_clk (s : State) (k : Nat) (o : Obs) : (s.seeObs k o).clk = s.clk := by simp [State.seeObs]

@[simp] theorem State.testObs_timeline (s : State) (k : Nat) (o : Obs) : (s.testObs k o).clk.timeline = s.clk.timeline := by simp [State.testObs]

@[simp] theorem State.domainObs_timeline (s : State) (k : Nat) : (s.domainObs k).clk.timeline = s.clk.timeline := by simp [State.domainObs]

theorem execRefObservation_keepsTime (s : State) (k : Nat) : KeepsTime s (execRefObservation k s) := guarded_keepsTime (by split <;> simp)

@[simp] theorem State.loseRef_timeline (s : State) (k : Nat) : (s.loseRef k).clk.timeline = s.clk.timeline := by simp [State.loseRef]

theorem execRefPresenceFail_keepsTime (s : State) (k : Nat) : KeepsTime s (execRefPresenceFail k s) := guarded_keepsTime (by simp)

@[simp] theorem State.resetRef_clk (s : State) (k st : Nat) : (s.resetRef k st).clk = s.clk := by simp [State.resetRef]

@[simp] theorem State.enableRef_clk (s : State) (k : Nat) (upstream : Bool) : (s.enableRef k upstream).1.clk = s.clk := by
  unfold State.enableRef
  dsimp only
  split
  · simp
  · split
    · simp
    · split
      · split
        · rfl
        · next h => simp [State.takePlace_clk h]
      · simp

@[simp] theorem State.disableRef_timeline (s : State) (k : Nat) : (s.disableRef k).clk.timeline = s.clk.timeline := by simp [State.disableRef]

@[simp] theorem State.refChanged_timeline (s : State) (k : Nat) : (s.refChanged k).clk.timeline = s.clk.timeline := by simp [State.refChanged]

@[simp] theorem State.cmdAccept_timeline (s : State) (k : Nat) (step : Bool) : (s.cmdAccept k step).1.clk.timeline = s.clk.timeline := by
  simp [State.cmdAccept]

@[simp] theorem State.cmdReject_timeline (s : State) (k : Nat) : (s.cmdReject k).1.clk.timeline = s.clk.timeline := by simp [State.cmdReject]

@[simp] theorem State.cmdClearSuspect_clk (s : State) (k : Nat) : (s.cmdClearSuspect k).1.clk = s.clk := by simp [State.cmdClearSuspect]

@[simp] theorem State.cmdRequalify_timeline (s : State) (k : Nat) : (s.cmdRequalify k).1.clk.timeline = s.clk.timeline := by
  simp [State.cmdRequalify]

@[simp] theorem State.selCmd_timeline (s : State) (v : Nat) : (s.selCmd v).1.clk.timeline = s.clk.timeline := by
  unfold State.selCmd
  split <;> simp

@[simp] theorem State.cmdPush_clk (s : State) (v : Nat) : (s.cmdPush v).1.clk = s.clk := by simp [State.cmdPush]

@[simp] theorem State.servoMode_timeline (s : State) : s.servoMode.clk.timeline = s.clk.timeline := by
  unfold State.servoMode
  dsimp only
  (repeat' split) <;> simp

@[simp] theorem State.cmdSwitch_timeline (s : State) : (s.cmdSwitch).1.clk.timeline = s.clk.timeline := by simp [State.cmdSwitch]

@[simp] theorem State.domCmd_timeline (s : State) (v : Nat) : (s.domCmd v).1.clk.timeline = s.clk.timeline := by
  unfold State.domCmd
  split <;> simp

@[simp] theorem State.refStep_clk (s : State) (d : Int) (k : Nat) : (s.refStep d k).clk = s.clk := by simp [State.refStep]

/-! ### AuxOut -/

@[simp] theorem State.auxPin_clk (s : State) (n : Nat) (running : Bool) : (s.auxPin n running).clk = s.clk := by simp [State.auxPin]

@[simp] theorem State.startRamp_clk (s : State) (target us : Nat) : (s.startRamp target us).clk = s.clk := by simp [State.startRamp]

@[simp] theorem State.startRelock_clk (s : State) (n : Nat) : (s.startRelock n).clk = s.clk := by simp [State.startRelock]

@[simp] theorem State.cmdSet_clk (s : State) : (s.cmdSet).1.clk = s.clk := by
  unfold State.cmdSet
  split <;> simp

@[simp] theorem State.cmdRunProfile_clk (s : State) : (s.cmdRunProfile).1.clk = s.clk := by
  unfold State.cmdRunProfile
  dsimp only
  split <;> simp

@[simp] theorem State.cmdAbortRamp_clk (s : State) : (s.cmdAbortRamp).1.clk = s.clk := by simp [State.cmdAbortRamp]

@[simp] theorem State.cmdRelock_clk (s : State) : (s.cmdRelock).1.clk = s.clk := by
  unfold State.cmdRelock
  split <;> simp

@[simp] theorem State.freqCmd_clk (s : State) (v : Nat) : (s.freqCmd v).1.clk = s.clk := by
  unfold State.freqCmd
  split <;> simp

@[simp] theorem State.toPoint_clk (s : State) (k : Nat) : (s.toPoint k).clk = s.clk := by simp [State.toPoint]

@[simp] theorem State.rampEnd_clk (s : State) : s.rampEnd.clk = s.clk := by simp [State.rampEnd]

theorem execRampEnd_keepsTime (s : State) : KeepsTime s (execRampEnd s) := guarded_keepsTime (by simp)

theorem execProfileDone_keepsTime (s : State) : KeepsTime s (execProfileDone s) := guarded_keepsTime (by simp)

theorem execSscChange_keepsTime (s : State) : KeepsTime s (execSscChange s) := guarded_keepsTime (by simp)

@[simp] theorem State.auxArm_clk (s : State) (n : Nat) : (s.auxArm n).clk = s.clk := by simp [State.auxArm]

@[simp] theorem State.dropMarks_clk (s : State) (n : Nat) (t32 : Int) : (s.dropMarks n t32).clk = s.clk := by simp [State.dropMarks]

@[simp] theorem State.loseMarks_clk (s : State) (n : Nat) : (s.loseMarks n).clk = s.clk := by simp [State.loseMarks]

@[simp] theorem State.auxLocked_clk (s : State) (n phase : Nat) : (s.auxLocked n phase).clk = s.clk := by simp [State.auxLocked]

@[simp] theorem State.apllaLockDeclared_clk (s : State) : s.apllaLockDeclared.clk = s.clk := by simp [State.apllaLockDeclared]

@[simp] theorem State.apllaWindow_clk (s : State) (count : Nat) : (s.apllaWindow count).clk = s.clk := by simp [State.apllaWindow]

@[simp] theorem State.takeMarks_clk (s : State) (n c : Nat) : (s.takeMarks n c).clk = s.clk := by simp [State.takeMarks]

@[simp] theorem State.auxStop_clk (s : State) (n : Nat) : (s.auxStop n).clk = s.clk := by simp [State.auxStop]

@[simp] theorem State.auxUnlocked_clk (s : State) (n : Nat) : (s.auxUnlocked n).clk = s.clk := by simp [State.auxUnlocked]

@[simp] theorem State.auxPeriod_clk (s : State) (n : Nat) : (s.auxPeriod n).clk = s.clk := by simp [State.auxPeriod]

@[simp] theorem State.bypassPeriod_clk (s : State) (n : Nat) : (s.bypassPeriod n).clk = s.clk := by simp [State.bypassPeriod]

@[simp] theorem State.auxBegin_clk (s : State) (n c : Nat) : (s.auxBegin n c).clk = s.clk := by simp [State.auxBegin]

@[simp] theorem State.auxIdle_clk (s : State) (n : Nat) : (s.auxIdle n).clk = s.clk := by
  unfold State.auxIdle
  dsimp only
  (repeat' split) <;> simp

theorem execAuxPeriodEnd_keepsTime (s : State) (n : Nat) : KeepsTime s (execAuxPeriodEnd n s) := guarded_keepsTime (by simp)

@[simp] theorem State.auxSafe_clk (s : State) (n : Nat) (cause : SafeCause) : (s.auxSafe n cause).clk = s.clk := by simp [State.auxSafe]

@[simp] theorem State.auxSafeLeave_clk (s : State) (n : Nat) : (s.auxSafeLeave n).clk = s.clk := by simp [State.auxSafeLeave]

@[simp] theorem State.apllaStart_clk (s : State) : (s.apllaStart).1.clk = s.clk := by simp [State.apllaStart]

@[simp] theorem State.apllaStop_clk (s : State) : s.apllaStop.clk = s.clk := by simp [State.apllaStop]

@[simp] theorem State.auxStart_clk (s : State) (n : Nat) : (s.auxStart n).1.clk = s.clk := by simp [State.auxStart]

end Sys2Proof.Machine
end

section
/-! SUPPORT. The clock under the operations of the model: the Eave, the clock, the gutter and Ridge. -/

namespace Sys2Proof.Machine

/-! ### Eave -/

@[simp] theorem State.eaveLog_clk (s : State) (code data : Nat) : (s.eaveLog code data).clk = s.clk := by simp [State.eaveLog]

@[simp] theorem State.eaveLogClear_clk (s : State) : s.eaveLogClear.clk = s.clk := by simp [State.eaveLogClear]

@[simp] theorem State.setPwr_clk (s : State) (high : Bool) (cause : Nat) : (s.setPwr high cause).clk = s.clk := by simp [State.setPwr]

@[simp] theorem State.cancelDown_clk (s : State) : s.cancelDown.clk = s.clk := by simp [State.cancelDown]

@[simp] theorem State.pwrOnNow_clk (s : State) (cause : Nat) : (s.pwrOnNow cause).clk = s.clk := by simp [State.pwrOnNow]

@[simp] theorem State.pwrOffDelayed_clk (s : State) (cause : Nat) : (s.pwrOffDelayed cause).clk = s.clk := by simp [State.pwrOffDelayed]

@[simp] theorem State.pwrOffNow_clk (s : State) (cause : Nat) : (s.pwrOffNow cause).clk = s.clk := by simp [State.pwrOffNow]

@[simp] theorem State.setAlert_clk (s : State) (on : Bool) : (s.setAlert on).clk = s.clk := by simp [State.setAlert]

@[simp] theorem State.eaveWait_clk (s : State) (c : EaveCmd) : (s.eaveWait c).clk = s.clk := by simp [State.eaveWait]

theorem execPwrDownDelayExpiry_keepsTime (s : State) : KeepsTime s (execPwrDownDelayExpiry s) := guarded_keepsTime (by split <;> simp)

@[simp] theorem State.setCalUnc_clk (s : State) (ns : Nat) : (s.setCalUnc ns).clk = s.clk := by simp [State.setCalUnc]

@[simp] theorem State.loadCal_clk (s : State) (t32 : Int) : (s.loadCal t32).clk = s.clk := by simp [State.loadCal]

@[simp] theorem State.eaveCmd_clk (s : State) (c : EaveCmd) : (s.eaveCmd c).clk = s.clk := by
  unfold State.eaveCmd
  split <;> simp

@[simp] theorem State.countEdge_clk (s : State) : s.countEdge.clk = s.clk := by simp [State.countEdge]

@[simp] theorem State.eaveTick_clk (s : State) : s.eaveTick.clk = s.clk := by simp [State.eaveTick]

@[simp] theorem State.copyLeap_clk (s : State) : s.copyLeap.clk = s.clk := by simp [State.copyLeap]

@[simp] theorem State.loadLeap_clk (s : State) : s.loadLeap.clk = s.clk := by simp [State.loadLeap]

theorem execEaveLeap_keepsTime (s : State) : KeepsTime s (execEaveLeap s) := guarded_keepsTime (by simp)

@[simp] theorem State.eaveSecond_clk (s : State) : s.eaveSecond.clk = s.clk := by simp [State.eaveSecond]

@[simp] theorem State.calendarSync_clk (s : State) : s.calendarSync.clk = s.clk := by
  unfold State.calendarSync
  split <;> simp

theorem execCalendarSync_keepsTime (s : State) : KeepsTime s (execCalendarSync s) := guarded_keepsTime (by simp)

theorem execTrimRenew_keepsTime (s : State) (trim : Nat) : KeepsTime s (execTrimRenew trim s) := guarded_keepsTime (by simp)

theorem execEaveSwitchover_keepsTime (s : State) (toVbat : Bool) : KeepsTime s (execEaveSwitchover toVbat s) := guarded_keepsTime (by simp)

@[simp] theorem State.eavePor_clk (s : State) : s.eavePor.clk = s.clk := by simp [State.eavePor]

theorem execEavePor_keepsTime (s : State) : KeepsTime s (execEavePor s) := guarded_keepsTime (by simp)

theorem execXt32Fault_keepsTime (s : State) : KeepsTime s (execXt32Fault s) := guarded_keepsTime (by simp)

@[simp] theorem State.monitorSample_clk (s : State) (k : Nat) (x : SourceLevels) : (s.monitorSample k x).clk = s.clk := by
  simp [State.monitorSample]

@[simp] theorem State.monitorTick_clk (s : State) (samples : List SourceLevels) : (s.monitorTick samples).clk = s.clk := by simp [State.monitorTick]

theorem execMonitorTick_keepsTime (s : State) (samples : List SourceLevels) : KeepsTime s (execMonitorTick samples s) := guarded_keepsTime (by simp)

@[simp] theorem State.progEnd_clk (s : State) (a : Nat) : (s.progEnd a).clk = s.clk := by simp [State.progEnd]

@[simp] theorem State.progGoto_clk (s : State) (a b : Nat) : (s.progGoto a b).clk = s.clk := by simp [State.progGoto]

@[simp] theorem State.progRun_clk (s : State) (op : Nat) (f : Nat → State → State) (hf : ∀ a u v, f a u = v → v.clk = u.clk) :
    (s.progRun op f).clk = s.clk := by
  unfold State.progRun
  split
  · split
    · exact (State.progGoto_clk ..).trans (hf _ _ _ rfl)
    · rfl
  · rfl

@[simp] theorem State.putC_clk (s : State) (b : Bool) : (s.putC b).clk = s.clk := by simp [State.putC]

theorem execTest_keepsTime (s : State) : KeepsTime s (execTest s) := guarded_keepsTime (by simp)

theorem execAnd_keepsTime (s : State) : KeepsTime s (execAnd s) := guarded_keepsTime (by simp)

theorem execOr_keepsTime (s : State) : KeepsTime s (execOr s) := guarded_keepsTime (by simp)

theorem execSetf_keepsTime (s : State) : KeepsTime s (execSetf s) := guarded_keepsTime (by simp)

theorem execJmp_keepsTime (s : State) : KeepsTime s (execJmp s) := guarded_keepsTime (by split <;> simp)

theorem execCnt_keepsTime (s : State) : KeepsTime s (execCnt s) := guarded_keepsTime (by simp)

theorem execCmp_keepsTime (s : State) : KeepsTime s (execCmp s) := guarded_keepsTime (by simp)

@[simp] theorem State.progOut_clk (s : State) (action : Nat) (f : State → State) (hf : ∀ u v, f u = v → v.clk = u.clk) :
    (s.progOut action f).clk = s.clk := by
  unfold State.progOut
  split
  · split
    · refine State.progRun_clk _ _ _ fun _ u v hv => ?_
      rw [← hv]
      exact clk_of_ite (hf _ _ rfl) rfl
    · rfl
  · rfl

theorem execOutPwrOn_keepsTime (s : State) : KeepsTime s (execOutPwrOn s) := guarded_keepsTime (by simp)

theorem execOutPwrOff_keepsTime (s : State) : KeepsTime s (execOutPwrOff s) := guarded_keepsTime (by simp)

theorem execOutAlertSet_keepsTime (s : State) : KeepsTime s (execOutAlertSet s) := guarded_keepsTime (by simp)

theorem execOutAlertClr_keepsTime (s : State) : KeepsTime s (execOutAlertClr s) := guarded_keepsTime (by simp)

theorem execLog_keepsTime (s : State) : KeepsTime s (execLog s) := guarded_keepsTime (by simp)

theorem execClrl_keepsTime (s : State) : KeepsTime s (execClrl s) := guarded_keepsTime (by simp)

theorem execProgEnd_keepsTime (s : State) : KeepsTime s (execProgEnd s) := guarded_keepsTime (by split <;> simp)

theorem execProgramMemoryEcc_keepsTime (s : State) : KeepsTime s (execProgramMemoryEcc s) := guarded_keepsTime (by simp)

theorem execWakeEdge_keepsTime (s : State) (rising : Bool) : KeepsTime s (execWakeEdge rising s) := guarded_keepsTime (by simp)

theorem execAlarm_keepsTime (s : State) : KeepsTime s (execAlarm s) := guarded_keepsTime (by simp)

@[simp] theorem State.calSet_clk (s : State) (p : Path) : (s.calSet p).1.clk = s.clk := by simp [State.calSet]

@[simp] theorem State.calSyncNow_clk (s : State) : (s.calSyncNow).1.clk = s.clk := by simp [State.calSyncNow]

@[simp] theorem State.calInvalidate_clk (s : State) : (s.calInvalidate).1.clk = s.clk := by simp [State.calInvalidate]

@[simp] theorem State.calCmd_clk (s : State) (p : Path) (v : Nat) : (s.calCmd p v).1.clk = s.clk := by
  unfold State.calCmd
  split <;> simp

@[simp] theorem State.cmdPwrOn_clk (s : State) (p : Path) : (s.cmdPwrOn p).1.clk = s.clk := by simp [State.cmdPwrOn]

@[simp] theorem State.cmdPwrOff_clk (s : State) (p : Path) : (s.cmdPwrOff p).1.clk = s.clk := by simp [State.cmdPwrOff]

@[simp] theorem State.pwrCmd_clk (s : State) (p : Path) (v : Nat) : (s.pwrCmd p v).1.clk = s.clk := by
  unfold State.pwrCmd
  split <;> simp

@[simp] theorem State.eaveLogCmd_clk (s : State) (v : Nat) : (s.eaveLogCmd v).1.clk = s.clk := by simp [State.eaveLogCmd]

@[simp] theorem State.progCtl_clk (s : State) (v : Nat) : (s.progCtl v).1.clk = s.clk := by simp [State.progCtl]

/-! ### Clock -/

@[simp] theorem State.showAnchor_clk (s : State) : s.showAnchor.clk = s.clk := by simp [State.showAnchor]

@[simp] theorem State.yEffect_timeline (s : State) (y : Int) : (s.yEffect y).clk.timeline = s.clk.timeline := by
  unfold State.yEffect
  simp only [State.showAnchor_clk, State.putI_clk, ClockSt.timeline, ClockSt.keepMapping, State.now32, tsAtCount32, tsAtRaw32, tsAfter32]
  split <;> simp [roundEven]

theorem execYTakesEffect_keepsTime (s : State) : KeepsTime s (execYTakesEffect s) := guarded_keepsTime (by split <;> simp)

@[simp] theorem State.logStep_clk (s : State) (d : Int) : (s.logStep d).clk = s.clk := by simp [State.logStep]

@[simp] theorem State.reportRestart_clk (s : State) : s.reportRestart.clk = s.clk := by simp [State.reportRestart]

@[simp] theorem State.moveMarks_clk (s : State) (d : Int) : (s.moveMarks d).clk = s.clk := by simp [State.moveMarks]

@[simp] theorem State.stepBound_clk (s : State) (d : Int) (rest : Nat) : (s.stepBound d rest).clk = s.clk := by simp [State.stepBound]

@[simp] theorem State.stepAfter_timeline (s : State) (d : Int) (rest : Nat) (adopts : Option Nat) :
    (s.stepAfter d rest adopts).clk.timeline = s.clk.timeline := by
  unfold State.stepAfter
  split <;> simp

theorem execLeapApply_keepsTime (s : State) : KeepsTime s (execLeapApply s) := guarded_keepsTime (by simp)

@[simp] theorem State.restartCalibration_clk (s : State) : s.restartCalibration.clk = s.clk := by simp [State.restartCalibration]

@[simp] theorem State.apllmLost_timeline (s : State) : s.apllmLost.clk.timeline = s.clk.timeline := by simp [State.apllmLost]

@[simp] theorem State.apllmLocked_timeline (s : State) : s.apllmLocked.clk.timeline = s.clk.timeline := rfl

@[simp] theorem State.apllmWindow_timeline (s : State) (count : Nat) : (s.apllmWindow count).clk.timeline = s.clk.timeline := by
  simp [State.apllmWindow]

theorem execApllLockWindow_keepsTime (s : State) (a : Bool) (count : Nat) : KeepsTime s (execApllLockWindow a count s) :=
  guarded_keepsTime (by simp)

theorem execXtalFault_keepsTime (s : State) : KeepsTime s (execXtalFault s) := guarded_keepsTime (by simp)

theorem execThreshCrossing_keepsTime (s : State) : KeepsTime s (execThreshCrossing s) := guarded_keepsTime (by simp)

theorem execTebReport_keepsTime (s : State) : KeepsTime s (execTebReport s) := guarded_keepsTime (by simp)

theorem execTraceExpiry_keepsTime (s : State) : KeepsTime s (execTraceExpiry s) := guarded_keepsTime (by simp)

/-! ### Gutter -/

@[simp] theorem State.keepCfg_clk (s : State) (k : Nat) : (s.keepCfg k).clk = s.clk := by simp [State.keepCfg]

@[simp] theorem State.showPair_clk (s old : State) : (s.showPair old).clk = s.clk := by
  unfold State.showPair
  split <;> simp

@[simp] theorem State.reactSafe_clk (s : State) (k page : Nat) : (s.reactSafe k page).clk = s.clk := by
  unfold State.reactSafe
  split <;> simp

@[simp] theorem State.deviceSafe_clk (s : State) (cause : Nat) : (s.deviceSafe cause).clk = s.clk := by simp [State.deviceSafe]

@[simp] theorem State.logReport_clk (s : State) (first : Option Nat) (r : Report) : (s.logReport first r).clk = s.clk := by simp [State.logReport]

@[simp] theorem State.fillFirst_clk (s : State) (rs : List Report) (w : Report) : (s.fillFirst rs w).clk = s.clk := by simp [State.fillFirst]

@[simp] theorem State.mapLines_clk (s : State) (ks : List Nat) : (s.mapLines ks).clk = s.clk := by simp [State.mapLines]

@[simp] theorem State.collect_clk (s : State) (evs : List FaultEvent) : (s.collect evs).clk = s.clk := by
  unfold State.collect
  dsimp only
  (repeat' split) <;> simp

@[simp] theorem State.collectOwn_clk (s : State) (evs : List FaultEvent) : (s.collectOwn evs).clk = s.clk := by
  unfold State.collectOwn
  split <;> simp

theorem execFaultCollect_keepsTime (s : State) : KeepsTime s (execFaultCollect s) := guarded_keepsTime (by simp)

theorem execLineFault_keepsTime (s : State) (p : PairReading) : KeepsTime s (execLineFault p s) := guarded_keepsTime (by simp)

@[simp] theorem State.errInject_clk (s : State) (page v : Nat) : (s.errInject page v).1.clk = s.clk := by simp [State.errInject]

@[simp] theorem State.inject_clk (s : State) (k : Nat) (line : Bool) : (s.inject k line).1.clk = s.clk := by simp [State.inject]

theorem execInjectionHoldEnd_keepsTime (s : State) : KeepsTime s (execInjectionHoldEnd s) := guarded_keepsTime (by simp)

@[simp] theorem State.clearPair_clk (s : State) : (s.clearPair).1.clk = s.clk := by simp [State.clearPair]

@[simp] theorem State.enterSafe_clk (s : State) : (s.enterSafe).1.clk = s.clk := by simp [State.enterSafe]

@[simp] theorem State.clearFirst_clk (s : State) : s.clearFirst.clk = s.clk := by simp [State.clearFirst]

@[simp] theorem State.reinit_clk (s : State) : (s.reinit).1.clk = s.clk := by simp [State.reinit]

@[simp] theorem State.gutterCmd_clk (s : State) (v : Nat) : (s.gutterCmd v).1.clk = s.clk := by
  unfold State.gutterCmd
  split <;> simp

@[simp] theorem State.deviceSafeExit_clk (s : State) : (s.deviceSafeExit).1.clk = s.clk := by simp [State.deviceSafeExit]

theorem execGutterStorageEcc_keepsTime (s : State) (uncorrectable : Bool) : KeepsTime s (execGutterStorageEcc uncorrectable s) :=
  guarded_keepsTime (by simp)

theorem execPairSenseFault_keepsTime (s : State) : KeepsTime s (execPairSenseFault s) := guarded_keepsTime (by simp)

/-! ### Ridge -/

@[simp] theorem State.rdgEnable_clk (s : State) (p : Nat) (on : Bool) : (s.rdgEnable p on).1.clk = s.clk := by
  unfold State.rdgEnable
  split
  · split
    · rw [refuse_clk]
    · rw [accept_clk, State.setRdg_clk, State.put_clk, State.putFlag_clk]
  · split
    · rw [accept_clk, State.setRdg_clk, State.putFlag_clk, State.putFlag_clk, State.put_clk, State.putFlag_clk]
    · rw [accept_clk]

@[simp] theorem State.portCfg_clk (s : State) (p v : Nat) : (s.portCfg p v).1.clk = s.clk := by
  unfold State.portCfg
  dsimp only
  (repeat' split) <;> simp

@[simp] theorem State.rootStart_clk (s : State) : s.rootStart.clk = s.clk := by simp [State.rootStart]

@[simp] theorem State.nodeCfg_clk (s : State) (v : Nat) : (s.nodeCfg v).1.clk = s.clk := by simp [State.nodeCfg]

@[simp] theorem State.onWire_clk (s : State) (p bits : Nat) : (s.onWire p bits).clk = s.clk := by simp [State.onWire]

@[simp] theorem State.sendCell_clk (s : State) (p : Nat) : (s.sendCell p).clk = s.clk := by
  unfold State.sendCell
  dsimp only
  (repeat' split) <;> simp

theorem execRidgeSlotTx_keepsTime (s : State) (p : Nat) : KeepsTime s (execRidgeSlotTx p s) := guarded_keepsTime (by simp)

theorem execRidgeBlockLock_keepsTime (s : State) (p : Nat) : KeepsTime s (execRidgeBlockLock p s) := guarded_keepsTime (by simp)

@[simp] theorem State.promote_clk (s : State) (p : Nat) : (s.promote p).clk = s.clk := by
  unfold State.promote
  dsimp only
  (repeat' split) <;> simp

@[simp] theorem State.linkLost_timeline (s : State) (p : Nat) : (s.linkLost p).clk.timeline = s.clk.timeline := by
  refine (State.forEach_timeline _ _ _ fun k u v hv => ?_).trans (congrArg ClockSt.timeline ?_)
  · rw [← hv]
    split
    · exact State.loseRef_timeline ..
    · rfl
  · rw [State.irq_clk, State.err_clk, State.promote_clk, State.setRdg_clk, State.incSat_clk, State.putInst_clk, State.put_clk]

theorem execRidgeLinkLost_keepsTime (s : State) (p : Nat) : KeepsTime s (execRidgeLinkLost p s) := guarded_keepsTime (by simp)

@[simp] theorem State.cellPassed_clk (s : State) (p : Nat) : (s.cellPassed p).clk = s.clk := by simp [State.cellPassed]

@[simp] theorem State.cellFailed_clk (s : State) (p : Nat) (crc : Bool) : (s.cellFailed p crc).clk = s.clk := by simp [State.cellFailed]

theorem execCellDrop_keepsTime (s : State) (p : Nat) (crc : Bool) : KeepsTime s (execCellDrop p crc s) := guarded_keepsTime (by simp)

theorem execFillCellRx_keepsTime (s : State) (p : Nat) : KeepsTime s (execFillCellRx p s) := guarded_keepsTime (by simp)

@[simp] theorem State.receive_clk (s : State) (p domain : Nat) (roleOk : Bool) (f : State → State) (hf : ∀ u v, f u = v → v.clk = u.clk) :
    (s.receive p domain roleOk f).clk = s.clk := by
  unfold State.receive
  refine clk_of_ite rfl (clk_of_ite (State.cellFailed_clk ..) (clk_of_ite ((hf _ _ rfl).trans ?_) ?_)) <;> exact State.cellPassed_clk ..
@[simp] theorem State.receive_timeline (s : State) (p domain : Nat) (roleOk : Bool) (f : State → State)
    (hf : ∀ u v, f u = v → v.clk.timeline = u.clk.timeline) : (s.receive p domain roleOk f).clk.timeline = s.clk.timeline := by
  unfold State.receive
  dsimp only
  repeat' split
  · rfl
  · simp
  · rw [hf _ _ rfl, State.cellPassed_clk]
  · simp

@[simp] theorem State.followUtc_clk (s : State) (p : Nat) (c : TimeCell) : (s.followUtc p c).clk = s.clk := by simp [State.followUtc]

@[simp] theorem State.utcSlot_clk (s : State) : s.utcSlot.clk = s.clk := by
  unfold State.utcSlot
  split <;> simp

@[simp] theorem State.timeRx_clk (s : State) (p : Nat) (c : TimeCell) : (s.timeRx p c).clk = s.clk := by simp [State.timeRx]

theorem execTimeCellRx_keepsTime (s : State) (p : Nat) (c : TimeCell) : KeepsTime s (execTimeCellRx p c s) := guarded_keepsTime (by simp)

@[simp] theorem State.rdgObs_clk (s : State) (p : Nat) : (s.rdgObs p).clk = s.clk := by
  unfold State.rdgObs
  dsimp only
  split <;> simp

theorem execRidgeObsInterval_keepsTime (s : State) (p : Nat) : KeepsTime s (execRidgeObsInterval p s) := guarded_keepsTime (by simp)

@[simp] theorem State.queueTrig_clk (s : State) (p : Nat) (c : TrigCell) : (s.queueTrig p c).clk = s.clk := by simp [State.queueTrig]

@[simp] theorem State.queueMgmt_clk (s : State) (p : Nat) (c : MgmtCell) : (s.queueMgmt p c).clk = s.clk := by simp [State.queueMgmt]

@[simp] theorem State.ridgeLoop_clk (s : State) (p : Nat) : (s.ridgeLoop p).clk = s.clk := by simp [State.ridgeLoop]

@[simp] theorem State.remember_clk (s : State) (src seq : Nat) : (s.remember src seq).clk = s.clk := by simp [State.remember]

@[simp] theorem State.deliverTrig_clk (s : State) (p : Nat) (c : TrigCell) : (s.deliverTrig p c).clk = s.clk := by simp [State.deliverTrig]

@[simp] theorem State.trigRx_clk (s : State) (p : Nat) (c : TrigCell) : (s.trigRx p c).clk = s.clk := by simp [State.trigRx]

theorem execTrigCellRx_keepsTime (s : State) (p : Nat) (c : TrigCell) : KeepsTime s (execTrigCellRx p c s) := guarded_keepsTime (by simp)

@[simp] theorem State.issueTrig_clk (s : State) : (s.issueTrig).1.clk = s.clk := by simp [State.issueTrig]

@[simp] theorem State.trigCmd_clk (s : State) (v : Nat) : (s.trigCmd v).1.clk = s.clk := by simp [State.trigCmd]

@[simp] theorem State.mgmtCmd_clk (s : State) (v : Nat) : (s.mgmtCmd v).1.clk = s.clk := by
  have ask (u : State) (x : RidgeSt) (h : u.clk = s.clk) : (accept ({ u with ridge := x } : State)).1.clk = s.clk := (accept_clk _).trans h
  refine clk_fst_of_ite rfl ?_
  split
  · rfl
  · refine clk_fst_of_ite rfl (ask _ _ ?_)
    rw [State.wr_clk, State.put_clk, State.forEach_clk]
    intro _ _ _ hv
    rw [← hv, State.queueMgmt_clk]

@[simp] theorem State.authFail_clk (s : State) (p : Nat) (bad : Bool) : (s.authFail p bad).clk = s.clk := by simp [State.authFail]

@[simp] theorem State.forwardMgmt_clk (s : State) (p : Nat) (c : MgmtCell) : (s.forwardMgmt p c).clk = s.clk := by simp [State.forwardMgmt]

@[simp] theorem State.mgmtAnswer_clk (s : State) (p : Nat) (c : MgmtCell) : (s.mgmtAnswer p c).clk = s.clk := by
  unfold State.mgmtAnswer
  dsimp only
  (repeat' split) <;> simp

theorem execMgmtResponseRx_keepsTime (s : State) (p : Nat) (c : MgmtCell) : KeepsTime s (execMgmtResponseRx p c s) := guarded_keepsTime (by simp)

theorem execMgmtTimeout_keepsTime (s : State) : KeepsTime s (execMgmtTimeout s) := guarded_keepsTime (by simp)

end Sys2Proof.Machine
end

section
/-! SUPPORT. The clock under the operations of the model: flash, bring-up and Ethernet. -/

namespace Sys2Proof.Machine

/-! ### Flash -/

@[simp] theorem State.stageBytes_clk (s : State) (a : Nat) (bytes : List Nat) : (s.stageBytes a bytes).clk = s.clk := by simp [State.stageBytes]

@[simp] theorem State.setImage_clk (s : State) (c slot : Nat) (h : Option ImageHdr) : (s.setImage c slot h).clk = s.clk := by simp [State.setImage]

@[simp] theorem State.setActive_clk (s : State) (c slot : Nat) : (s.setActive c slot).clk = s.clk := by simp [State.setActive]

@[simp] theorem State.setOther_clk (s : State) (c : Nat) (ok : Bool) : (s.setOther c ok).clk = s.clk := by simp [State.setOther]

@[simp] theorem State.showImages_clk (s : State) : s.showImages.clk = s.clk := by simp [State.showImages]

@[simp] theorem State.showUnmet_clk (s : State) (u_ : Unmet) : (s.showUnmet u_).clk = s.clk := by simp [State.showUnmet]

@[simp] theorem State.flashLog_clk (s : State) (code c version data : Nat) : (s.flashLog code c version data).clk = s.clk := by
  simp [State.flashLog]

@[simp] theorem State.emptyStaging_clk (s : State) : s.emptyStaging.clk = s.clk := by simp [State.emptyStaging]

@[simp] theorem State.writeBoot_clk (s : State) : s.writeBoot.clk = s.clk := by simp [State.writeBoot]

@[simp] theorem State.olderBoot_clk (s : State) : s.olderBoot.clk = s.clk := by simp [State.olderBoot]

@[simp] theorem State.outcome_clk (s : State) (c reason : Nat) : (s.outcome c reason).clk = s.clk := by simp [State.outcome]

@[simp] theorem State.raiseCounter_clk (s : State) (h : ImageHdr) : (s.raiseCounter h).clk = s.clk := by
  unfold State.raiseCounter
  dsimp only
  split <;> simp

@[simp] theorem State.useFactory_clk (s : State) (words terms : List (Nat × Nat × Nat)) (forms : List FormTerm) :
    (s.useFactory words terms forms).clk = s.clk := by simp [State.useFactory]

@[simp] theorem State.loadFactory_clk (s : State) (terms : List (Nat × Nat × Nat)) (forms : List FormTerm) :
    (s.loadFactory terms forms).2.clk = s.clk := by simp [State.loadFactory]

@[simp] theorem State.putCopy_clk (s : State) (one : Bool) (c : SettingsCopy) : (s.putCopy one c).clk = s.clk := by simp [State.putCopy]

@[simp] theorem State.writeCopy_clk (s : State) (one : Bool) (schema : Nat) (k : Settings) : (s.writeCopy one schema k).clk = s.clk := by
  simp [State.writeCopy]

@[simp] theorem State.writeStore_clk (s : State) : s.writeStore.clk = s.clk := by
  unfold State.writeStore
  dsimp only
  split <;> simp

@[simp] theorem State.tearStore_clk (s : State) : s.tearStore.clk = s.clk := by simp [State.tearStore]

@[simp] theorem State.showSchema_clk (s : State) (schema : Nat) : (s.showSchema schema).clk = s.clk := by simp [State.showSchema]

@[simp] theorem State.showKeys_clk (s : State) : s.showKeys.clk = s.clk := by simp [State.showKeys]

@[simp] theorem State.showSettings_clk (s : State) : s.showSettings.clk = s.clk := by
  refine (State.showKeys_clk _).trans ?_
  rw [State.wr_clk, State.wr_clk, State.forEach_clk]
  intro _ _ _ hv
  rw [← hv, State.wr_clk]

@[simp] theorem State.mainReads_clk (s : State) (h : ImageHdr) (migrates : Bool) : (s.mainReads h migrates).clk = s.clk := by
  unfold State.mainReads
  split <;> simp

@[simp] theorem State.mainHasStore_clk (s : State) (h : ImageHdr) (migrates : Bool) : (s.mainHasStore h migrates).clk = s.clk := by
  simp [State.mainHasStore]

@[simp] theorem State.restoreSettings_clk (s : State) (migrates : Bool) : (s.restoreSettings migrates).clk = s.clk := by
  unfold State.restoreSettings
  split <;> simp

@[simp] theorem State.beginRestart_clk (s : State) (why : RestartWhy) : (s.beginRestart why).clk = s.clk := by simp [State.beginRestart]

@[simp] theorem State.handoverLost_clk (s : State) : s.handoverLost.clk = s.clk := by
  have log (u : State) (n : Nat) (h : u.clk = s.clk) : (((if u.isRoot then u.rootStart else u).flashLog 8 1 n 0).err pFLASH 0).clk = s.clk := by
    rw [State.err_clk, State.flashLog_clk]
    exact clk_of_ite ((State.rootStart_clk _).trans h) h
  have forget (u : State) (x : RidgeSt) (b : Bool) (f : State → State) (h : u.clk = s.clk) (hf : ∀ v w, f v = w → w.clk = v.clk) :
      (({ u with ridge := x } : State).onlyIf b f).clk = s.clk := (State.onlyIf_clk _ _ _ hf).trans h
  have read (x : FlashSt) : ({ s with flash := x } : State).readMeans.clk = s.clk := State.readMeans_clk _
  refine log _ _ (forget _ _ _ _ (read _) fun v w hw => ?_)
  rw [← hw, State.irq_clk, State.putFlag_clk, State.put_clk]

@[simp] theorem State.queueSwaps_clk (s : State) (us : List BankUnit) : (s.queueSwaps us).clk = s.clk := by simp [State.queueSwaps]

@[simp] theorem State.trialOver_clk (s : State) : s.trialOver.clk = s.clk := by simp [State.trialOver]

@[simp] theorem State.confirmTrial_clk (s : State) (t : Trial) : (s.confirmTrial t).clk = s.clk := by
  unfold State.confirmTrial
  split
  · rfl
  · have advance (u : State) (x : FlashSt) (n : Nat) (c d : Prop) [Decidable c] [Decidable d] (h : u.clk = s.clk) :
        (if c then u else if d then { (u.wr pFLASH FLASH.MANIFEST_STATE.off 0).putFlag pFLASH FLASH.STATUS.MANIFEST_ACTIVE false with flash := x }
          else u.put pFLASH FLASH.MANIFEST_STATE.NEXT_INDEX n : State).showImages.clk = s.clk := by
      rw [State.showImages_clk]
      exact clk_of_ite h (clk_of_ite ((State.putFlag_clk ..).trans h) ((State.put_clk ..).trans h))
    refine advance _ _ _ _ _ ?_
    rw [State.outcome_clk, State.flashLog_clk, State.irq_clk, State.raiseCounter_clk, State.trialOver_clk]

@[simp] theorem State.beginFallback_clk (s : State) (reason : Nat) : (s.beginFallback reason).clk = s.clk := by
  unfold State.beginFallback
  split <;> simp

@[simp] theorem State.endFallback_clk (s : State) (t : Trial) (reason : Nat) : (s.endFallback t reason).clk = s.clk := by simp [State.endFallback]

theorem State.store_clk {s t : State} {f : Settings → Settings} (h : s.store f = some t) : t.clk = s.clk := by
  unfold State.store at h
  split at h
  · cases h
  · cases h; rfl

@[simp] theorem State.store_getD_clk (s : State) (f : Settings → Settings) : ((s.store f).getD s).clk = s.clk := by
  cases h : s.store f with
  | none => rfl
  | some t => exact State.store_clk h

@[simp] theorem State.startMain_clk (s : State) (h : ImageHdr) : (s.startMain h).clk = s.clk := by simp [State.startMain]

@[simp] theorem State.beginCopy_clk (s : State) : s.beginCopy.clk = s.clk := by simp [State.beginCopy]

@[simp] theorem State.loaderVerifies_clk (s : State) (atReset : Bool) : (s.loaderVerifies atReset).clk = s.clk := by simp [State.loaderVerifies]

@[simp] theorem State.copyVerified_clk (s : State) (c : Nat) : (s.copyVerified c).clk = s.clk := by simp [State.copyVerified]

@[simp] theorem State.beginTrial_clk (s : State) : s.beginTrial.clk = s.clk := by
  unfold State.beginTrial
  split <;> simp

@[simp] theorem State.verifyFailed_clk (s : State) : s.verifyFailed.clk = s.clk := by simp [State.verifyFailed]

@[simp] theorem State.startCandidate_clk (s : State) (atReset : Bool) : (s.startCandidate atReset).clk = s.clk := by simp [State.startCandidate]

@[simp] theorem State.restartOnTrial_clk (s : State) (why : RestartWhy) : (s.restartOnTrial why).clk = s.clk := by simp [State.restartOnTrial]

@[simp] theorem State.trialBoot_clk (s : State) : s.trialBoot.clk = s.clk := by
  unfold State.trialBoot
  split <;> simp

@[simp] theorem State.mainStarted_clk (s : State) (byLoader : Bool) : (s.mainStarted byLoader).clk = s.clk := by simp [State.mainStarted]

@[simp] theorem State.restartDone_clk (s : State) : s.restartDone.clk = s.clk := by
  unfold State.restartDone
  dsimp only
  (repeat' split) <;> simp

theorem execMgmtRestartDone_keepsTime (s : State) : KeepsTime s (execMgmtRestartDone s) := guarded_keepsTime (by simp)

@[simp] theorem State.flashSlot_clk (s : State) : s.flashSlot.clk = s.clk := by
  unfold State.flashSlot
  dsimp only
  split <;> simp

theorem execRestartTimeout_keepsTime (s : State) : KeepsTime s (execRestartTimeout s) := guarded_keepsTime (by simp)

theorem execMgmtWatchdogMiss_keepsTime (s : State) : KeepsTime s (execMgmtWatchdogMiss s) := guarded_keepsTime (by simp)

@[simp] theorem State.copyFails_clk (s : State) : s.copyFails.clk = s.clk := by simp [State.copyFails]

theorem execCopyBlockDone_keepsTime (s : State) (ok : Bool) : KeepsTime s (execCopyBlockDone ok s) := guarded_keepsTime (by split <;> simp)

@[simp] theorem State.copyEnds_clk (s : State) (c : Nat) : (s.copyEnds c).clk = s.clk := by simp [State.copyEnds]

theorem execCopyDone_keepsTime (s : State) (ok : Bool) : KeepsTime s (execCopyDone ok s) := guarded_keepsTime (by split <;> simp)

@[simp] theorem State.bankSwap_clk (s : State) (u_ : BankUnit) : (s.bankSwap u_).clk = s.clk := by simp [State.bankSwap]

theorem execMicrocodeBankSwap_keepsTime (s : State) (u_ : BankUnit) : KeepsTime s (execMicrocodeBankSwap u_ s) := guarded_keepsTime (by simp)

theorem execTrialHealthy_keepsTime (s : State) : KeepsTime s (execTrialHealthy s) := guarded_keepsTime (by split <;> simp)

theorem execTrialWindowExpiry_keepsTime (s : State) : KeepsTime s (execTrialWindowExpiry s) := guarded_keepsTime (by simp)

@[simp] theorem State.flBegin_clk (s : State) : (s.flBegin).1.clk = s.clk := by simp [State.flBegin]

@[simp] theorem State.flWrite_clk (s : State) (bytes : List Nat) (dma : Bool) : (s.flWrite bytes dma).1.clk = s.clk := by simp [State.flWrite]

@[simp] theorem State.flWriteWindow_clk (s : State) : (s.flWriteWindow).1.clk = s.clk := by simp [State.flWriteWindow]

@[simp] theorem State.flDmaWrite_clk (s : State) (bytes : List Nat) : (s.flDmaWrite bytes).1.clk = s.clk := by simp [State.flDmaWrite]

@[simp] theorem State.flashDmaFails_clk (s : State) : s.flashDmaFails.clk = s.clk := by
  unfold State.flashDmaFails
  split <;> simp

theorem execFlashDmaError_keepsTime (s : State) : KeepsTime s (execFlashDmaError s) := guarded_keepsTime (by simp)

@[simp] theorem State.flRecover_clk (s : State) (c slot : Nat) : (s.flRecover c slot).1.clk = s.clk := by
  unfold State.flRecover
  dsimp only
  (repeat' split) <;> simp

@[simp] theorem State.flFinish_clk (s : State) (v : VerifyResult) : (s.flFinish v).1.clk = s.clk := by
  unfold State.flFinish
  dsimp only
  (repeat' split) <;> simp

theorem State.activation_clk {s t : State} {atReset : Bool} {r : Res} (h : s.activation atReset = some (r, t)) : t.clk = s.clk := by
  unfold State.activation at h
  dsimp only at h
  repeat' split at h
  all_goals simp only [Option.some.injEq, Prod.mk.injEq, reduceCtorEq] at h
  all_goals obtain ⟨-, rfl⟩ := h; simp

@[simp] theorem State.flActivate_clk (s : State) : s.flActivate.1.clk = s.clk := by
  unfold State.flActivate
  split
  · next h => exact State.activation_clk h
  · simp

@[simp] theorem State.flActivateAtReset_clk (s : State) : s.flActivateAtReset.1.clk = s.clk := by
  unfold State.flActivateAtReset
  split
  · next h => exact State.activation_clk h
  · simp

@[simp] theorem State.flConfirm_clk (s : State) : (s.flConfirm).1.clk = s.clk := by
  unfold State.flConfirm
  split <;> simp

@[simp] theorem State.flRevert_clk (s : State) : (s.flRevert).1.clk = s.clk := by simp [State.flRevert]

@[simp] theorem State.flAbort_clk (s : State) : (s.flAbort).1.clk = s.clk := by simp [State.flAbort]

@[simp] theorem State.unlist_clk (s : State) : s.unlist.clk = s.clk := by simp [State.unlist]

@[simp] theorem State.flLoadManifest_clk (s : State) : (s.flLoadManifest).1.clk = s.clk := by
  unfold State.flLoadManifest
  dsimp only
  (repeat' split) <;> simp

@[simp] theorem State.flClearManifest_clk (s : State) : (s.flClearManifest).1.clk = s.clk := by simp [State.flClearManifest]

@[simp] theorem State.flReadLog_clk (s : State) : (s.flReadLog).1.clk = s.clk := by simp [State.flReadLog]

@[simp] theorem State.flInstallKey_clk (s : State) : s.flInstallKey.1.clk = s.clk := by
  unfold State.flInstallKey
  dsimp only
  split
  · simp
  · split
    · simp
    · split
      · simp
      · next h => simp [State.store_clk h]

@[simp] theorem State.flOwnerEnroll_clk (s : State) (admin : Bool) : (s.flOwnerEnroll admin).1.clk = s.clk := by
  have enroll (u : State) (x : FlashSt) (f : Nat → State → State) (h : u.clk = s.clk) (hf : ∀ i v w, f i v = w → w.clk = v.clk) :
      (accept (((({ u with flash := x } : State).forEach (List.range 5) f).flashLog 11 0 0 0).showImages)).1.clk = s.clk := by
    rw [accept_clk, State.showImages_clk, State.flashLog_clk, State.forEach_clk _ _ _ hf, ← h]
  refine clk_fst_of_ite rfl (clk_fst_of_ite rfl (enroll _ _ _ (State.putFlag_clk ..) fun i v w hw => ?_))
  rw [← hw]
  split
  · exact clk_of_ite rfl (State.setOther_clk ..)
  · rfl

@[simp] theorem State.flDo_clk (s : State) (admin : Bool) (code : Nat) (bytes : List Nat) (v : VerifyResult) :
    (s.flDo admin code bytes v).1.clk = s.clk := by
  unfold State.flDo
  split <;> simp

@[simp] theorem State.flCmd_clk (s : State) (admin : Bool) (code : Nat) (bytes : List Nat) (v : VerifyResult) :
    (s.flCmd admin code bytes v).1.clk = s.clk := by simp [State.flCmd]

@[simp] theorem State.firstImages_clk (s : State) (made : List (Nat × Nat × ImageHdr)) : (s.firstImages made).clk = s.clk := by
  simp [State.firstImages]

@[simp] theorem State.fallenBack_clk (s : State) (c : Nat) : (s.fallenBack c).clk = s.clk := by simp [State.fallenBack]

@[simp] theorem State.trialAtStart_clk (s : State) (t : Trial) : (s.trialAtStart t).clk = s.clk := by simp [State.trialAtStart]

@[simp] theorem State.flashStart_clk (s : State) (b : BootData) : (s.flashStart b).clk = s.clk := by
  unfold State.flashStart
  dsimp only
  (repeat' split) <;> simp

/-! ### Bringup -/

@[simp] theorem State.devFault_clk (s : State) (bit : Nat) : (s.devFault bit).clk = s.clk := by simp [State.devFault]

theorem execSupplyOutOfRange_keepsTime (s : State) (rail : Nat) : KeepsTime s (execSupplyOutOfRange rail s) := guarded_keepsTime (by simp)

theorem execDieHot_keepsTime (s : State) : KeepsTime s (execDieHot s) := guarded_keepsTime (by simp)

theorem execDieCritical_keepsTime (s : State) : KeepsTime s (execDieCritical s) := guarded_keepsTime (by simp)

theorem execSclkMonitor_keepsTime (s : State) : KeepsTime s (execSclkMonitor s) := guarded_keepsTime (by simp)

theorem execSramUncorr_keepsTime (s : State) : KeepsTime s (execSramUncorr s) := guarded_keepsTime (by simp)

@[simp] theorem State.deviceResetCmd_clk (s : State) (allowed : Bool) (v : Nat) : (s.deviceResetCmd allowed v).1.clk = s.clk := by
  simp [State.deviceResetCmd]

@[simp] theorem State.takeOtp_clk (s : State) (t : Nat × Nat × Nat) : (s.takeOtp t).clk = s.clk := by simp [State.takeOtp]

@[simp] theorem State.stage1_clk (s : State) (b : BootData) : (s.stage1 b).clk = s.clk := by simp [State.stage1]

theorem execStage1Entry_keepsTime (s : State) (b : BootData) : KeepsTime s (execStage1Entry b s) := guarded_keepsTime (by simp)

@[simp] theorem State.stage2_clk (s : State) : s.stage2.clk = s.clk := by simp [State.stage2]

theorem execStage2Entry_keepsTime (s : State) : KeepsTime s (execStage2Entry s) := guarded_keepsTime (by simp)

@[simp] theorem State.portTable_clk (s : State) (i k : Nat) (r : TableResult) : (s.portTable i k r).clk = s.clk := by simp [State.portTable]

theorem execInputTableDone_keepsTime (s : State) (i core : Nat) (r : TableResult) : KeepsTime s (execInputTableDone i core r s) :=
  guarded_keepsTime (by simp)

@[simp] theorem State.stage3_timeline (s : State) : s.stage3.clk.timeline = s.clk.timeline := by simp [State.stage3]

theorem execStage3Entry_keepsTime (s : State) : KeepsTime s (execStage3Entry s) := guarded_keepsTime (by simp)

theorem execPcieLinkTraining_keepsTime (s : State) : KeepsTime s (execPcieLinkTraining s) := guarded_keepsTime (by simp)

theorem execBoundaryScan_keepsTime (s : State) (ir : Nat) : KeepsTime s (execBoundaryScan ir s) := guarded_keepsTime (by simp)

/-! ### Eth -/

@[simp] theorem State.txWriteBack_clk (s : State) (n p : Nat) : (State.txWriteBack n p s).clk = s.clk := by
  induction n generalizing s with
  | zero => rfl
  | succ n ih => unfold State.txWriteBack; (repeat' split) <;> simp [ih]

@[simp] theorem State.txTake_clk (s : State) (p : Nat) (e : TxElem) : (s.txTake p e).clk = s.clk := by simp [State.txTake]

@[simp] theorem State.txSend_clk (s : State) (p : Nat) (f : TxFrame) : (s.txSend p f).clk = s.clk := by simp [State.txSend]

theorem execEthFrameTx_keepsTime (s : State) (p : Nat) (f : TxFrame) : KeepsTime s (execEthFrameTx p f s) := guarded_keepsTime (by simp)

theorem execEthTxStamp_keepsTime (s : State) (p t : Nat) : KeepsTime s (execEthTxStamp p t s) := guarded_keepsTime (by simp)

@[simp] theorem State.rxWrite_clk (s : State) (p : Nat) (f : RxFrame) : (s.rxWrite p f).clk = s.clk := by simp [State.rxWrite]

theorem execEthFrameRx_keepsTime (s : State) (p : Nat) (f : RxFrame) : KeepsTime s (execEthFrameRx p f s) := guarded_keepsTime (by simp)

@[simp] theorem State.ethLink_clk (s : State) (p : Nat) (up : Bool) : (s.ethLink p up).clk = s.clk := by simp [State.ethLink]

theorem execEthLinkChange_keepsTime (s : State) (p : Nat) (up : Bool) : KeepsTime s (execEthLinkChange p up s) := guarded_keepsTime (by simp)

@[simp] theorem State.ethEnable_clk (s : State) (p : Nat) (on : Bool) : (s.ethEnable p on).1.clk = s.clk := by simp [State.ethEnable]

@[simp] theorem State.ethRingCtrl_clk (s : State) (p : Nat) (rx on : Bool) : (s.ethRingCtrl p rx on).1.clk = s.clk := by simp [State.ethRingCtrl]

@[simp] theorem State.ethStop_clk (s : State) (p : Nat) (rx : Bool) : (s.ethStop p rx).clk = s.clk := by simp [State.ethStop]

@[simp] theorem State.ethBell_clk (s : State) (p : Nat) (rx : Bool) (v : Nat) : (s.ethBell p rx v).1.clk = s.clk := by simp [State.ethBell]

end Sys2Proof.Machine
end

section
/-! SUPPORT. The clock under the operations of the model: accesses. -/

namespace Sys2Proof.Machine

/-! ### View -/

@[simp] theorem State.putWin_clk (s : State) (path : Path) (p o n v : Nat) : (s.putWin path p o n v).clk = s.clk := by simp [State.putWin]

@[simp] theorem State.latch_clk (s : State) (path : Path) (key : Nat) (words : List Nat) : (s.latch path key words).clk = s.clk := by
  simp [State.latch]

@[simp] theorem State.readLog_clk (s : State) (p off : Nat) : (s.readLog p off).clk = s.clk := by simp [State.readLog]

@[simp] theorem State.latchSingle_clk (s : State) (path : Path) (p off : Nat) : (s.latchSingle path p off).clk = s.clk := by
  unfold State.latchSingle
  split <;> simp

@[simp] theorem State.readWord_clk (s : State) (path : Path) (p off : Nat) : (s.readWord path p off).2.clk = s.clk := by
  unfold State.readWord
  dsimp only
  (repeat' split) <;> simp

/-! ### Access -/

@[simp] theorem State.stage__clk (s : State) (path : Path) (key v : Nat) : (s.stage_ path key v).clk = s.clk := by simp [State.stage_]

@[simp] theorem State.unstage_clk (s : State) (path : Path) (p base n : Nat) : (s.unstage path p base n).clk = s.clk := by simp [State.unstage]

@[simp] theorem State.put__clk (s : State) (c : WCtx) (d : RegDesc) : (s.put_ c d).clk = s.clk := by simp [State.put_]

@[simp] theorem State.plain_clk (s : State) (c : WCtx) (d : RegDesc) : (s.plain c d).1.clk = s.clk := by simp [State.plain]

@[simp] theorem State.ranged_clk (s : State) (c : WCtx) (d : RegDesc) (ok : Bool) : (s.ranged c d ok).1.clk = s.clk := by simp [State.ranged]

@[simp] theorem State.after_clk (s : State) (c : WCtx) (d : RegDesc) (f : State → State) (hf : ∀ u v, f u = v → v.clk = u.clk) :
    (s.after c d f).1.clk = s.clk :=
  (accept_clk _).trans ((hf _ _ rfl).trans (State.put__clk ..))
@[simp] theorem State.after_timeline (s : State) (c : WCtx) (d : RegDesc) (f : State → State) (hf : ∀ u v, f u = v → v.clk.timeline = u.clk.timeline) :
    (s.after c d f).1.clk.timeline = s.clk.timeline := by
  unfold State.after
  rw [accept_clk, hf _ _ rfl, State.put__clk]

@[simp] theorem State.lastCmd_clk (s : State) (path : Path) (p off agent code : Nat) (v : Verdict) : (s.lastCmd path p off agent code v).clk = s.clk := by
  simp [State.lastCmd]

@[simp] theorem State.noteCmd_clk (s : State) (path : Path) (p off v : Nat) : (s.noteCmd path p off v).clk = s.clk := by simp [State.noteCmd]

/-! ### Commit -/

@[simp] theorem State.putWords_clk (s : State) (l : List (Nat × Word)) : (s.putWords l).clk = s.clk := by
  simp [State.putWords]

@[simp] theorem State.calHook_clk (s old : State) (q : Nat) : (s.calHook old q).clk = s.clk := by simp [State.calHook]

@[simp] theorem State.committed_clk (s old : State) (p : Nat) (words : List (Nat × Word)) : (s.committed old p words).clk = s.clk := by
  unfold State.committed
  split <;> simp

@[simp] theorem State.bumpCommit_clk (s : State) (p lane n : Nat) : (s.bumpCommit p lane n).clk = s.clk := by simp [State.bumpCommit]

@[simp] theorem State.dropShadows_clk (s : State) (p lane : Nat) : (s.dropShadows p lane).clk = s.clk := by simp [State.dropShadows]

@[simp] theorem State.abortShadows_clk (s : State) (p lane : Nat) : (s.abortShadows p lane).clk = s.clk := by simp [State.abortShadows]

@[simp] theorem State.shadowCommit_clk (s : State) (p lane : Nat) : (s.shadowCommit p lane).clk = s.clk := by simp [State.shadowCommit]

theorem execShadowCommit_keepsTime (s : State) (page lane : Nat) : KeepsTime s (execShadowCommit page lane s) := guarded_keepsTime (by simp)

@[simp] theorem State.writeShd_clk (s : State) (c : WCtx) (d : RegDesc) : (s.writeShd c d).1.clk = s.clk := by
  unfold State.writeShd
  dsimp only
  (repeat' split) <;> simp

@[simp] theorem State.commitGo_clk (s : State) (agent p lane mode : Nat) : (s.commitGo agent p lane mode).1.clk = s.clk := by
  unfold State.commitGo
  dsimp only
  (repeat' split) <;> simp

@[simp] theorem State.writeCommitCtl_clk (s : State) (c : WCtx) (lane : Nat) : (s.writeCommitCtl c lane).1.clk = s.clk := by
  simp [State.writeCommitCtl]

@[simp] theorem State.writeCgArm_clk (s : State) (v : Nat) : (s.writeCgArm v).1.clk = s.clk := by simp [State.writeCgArm]

@[simp] theorem State.writeCgDisarm_clk (s : State) (v : Nat) : (s.writeCgDisarm v).1.clk = s.clk := by simp [State.writeCgDisarm]

@[simp] theorem State.cgFire_clk (s : State) : s.cgFire.clk = s.clk := by simp [State.cgFire]

theorem execCgFire_keepsTime (s : State) (g : Nat) : KeepsTime s (execCgFire g s) := guarded_keepsTime (by simp)

/-! ### Own -/

@[simp] theorem State.loopOff_clk (s : State) : s.loopOff.clk = s.clk := by simp [State.loopOff]

@[simp] theorem State.dropKind_clk (s : State) (kind : Nat) : (s.dropKind kind).clk = s.clk := by simp [State.dropKind]

@[simp] theorem State.freed_clk (s : State) (code idx : Nat) : (s.freed code idx).clk = s.clk := by simp [State.freed]

@[simp] theorem State.releaseRes_clk (s : State) (code idx : Nat) : (s.releaseRes code idx).clk = s.clk := by simp [State.releaseRes]

@[simp] theorem State.writeOwner_clk (s : State) (c : WCtx) : (s.writeOwner c).1.clk = s.clk := by simp [State.writeOwner]

@[simp] theorem State.setRanges_clk (s : State) (l : List (Nat × Nat × Nat)) : (s.setRanges l).clk = s.clk := by simp [State.setRanges]

@[simp] theorem State.cmdClaim_clk (s : State) (agent code : Nat) (arg : Nat × Nat) : (s.cmdClaim agent code arg).1.clk = s.clk := by
  unfold State.cmdClaim
  dsimp only
  (repeat' split) <;> simp

@[simp] theorem State.cmdRelease_clk (s : State) (agent code : Nat) (arg : Nat × Nat) : (s.cmdRelease agent code arg).1.clk = s.clk := by
  unfold State.cmdRelease
  dsimp only
  (repeat' split) <;> simp

@[simp] theorem State.cmdQuery_clk (s : State) (code : Nat) (arg : Nat × Nat) : (s.cmdQuery code arg).1.clk = s.clk := by simp [State.cmdQuery]

@[simp] theorem State.writeWindow_clk (s : State) (c : WCtx) (d : RegDesc) (w : Nat) : (s.writeWindow c d w).1.clk = s.clk := by
  simp [State.writeWindow]

@[simp] theorem State.kickLease_clk (s : State) (w : Nat) : (s.kickLease w).clk = s.clk := by simp [State.kickLease]

@[simp] theorem State.writeLease_clk (s : State) (c : WCtx) (d : RegDesc) (w : Nat) : (s.writeLease c d w).1.clk = s.clk := by
  simp [State.writeLease]

@[simp] theorem State.writePeriod_clk (s : State) (c : WCtx) (d : RegDesc) (w : Nat) : (s.writePeriod c d w).1.clk = s.clk := by
  simp [State.writePeriod]

@[simp] theorem State.leaseRenew_clk (s : State) (agent : Nat) : (s.leaseRenew agent).clk = s.clk := by simp [State.leaseRenew]

@[simp] theorem State.ringStop_clk (s : State) (r : Nat) : (s.ringStop r).clk = s.clk := by simp [State.ringStop]

@[simp] theorem State.ringsStop_clk (s : State) (rs : List Nat) : (s.ringsStop rs).clk = s.clk := by simp [State.ringsStop]

@[simp] theorem State.orphanSafe_clk (s : State) (a : Nat) : (s.orphanSafe a).clk = s.clk := by simp [State.orphanSafe]

@[simp] theorem State.leaseExpire_clk (s : State) (w : Nat) : (s.leaseExpire w).clk = s.clk := by simp [State.leaseExpire]

theorem execLeaseExpiry_keepsTime (s : State) (w : Nat) : KeepsTime s (execLeaseExpiry w s) := guarded_keepsTime (by simp)

/-! ### Rings -/

@[simp] theorem State.writeRingCfg_clk (s : State) (c : WCtx) (d : RegDesc) (r : Nat) : (s.writeRingCfg c d r).1.clk = s.clk := by
  unfold State.writeRingCfg
  extract_lets kind b held s1
  have h1 : s1.clk = s.clk := by simp [s1]
  clear_value s1
  split
  · simp
  · split
    · rfl
    · split
      · simp
      · split
        · split
          · next h => simp [State.takePlace_clk h, h1]
          · rfl
        · simp [h1]

@[simp] theorem State.ringStart_clk (s : State) (r : Nat) : (s.ringStart r).clk = s.clk := by simp [State.ringStart]

@[simp] theorem State.ringRelease_clk (s : State) (r : Nat) : (s.ringRelease r).clk = s.clk := by simp [State.ringRelease]

@[simp] theorem State.writeRingCtrl_clk (s : State) (c : WCtx) (d : RegDesc) (r : Nat) : (s.writeRingCtrl c d r).1.clk = s.clk := by
  unfold State.writeRingCtrl
  dsimp only
  (repeat' split) <;> simp

@[simp] theorem State.writeBell_clk (s : State) (c : WCtx) (d : RegDesc) (r : Nat) : (s.writeBell c d r).1.clk = s.clk := by simp [State.writeBell]

@[simp] theorem State.ethDmaFails_clk (s : State) (p : Nat) (rx : Bool) : (s.ethDmaFails p rx).clk = s.clk := by simp [State.ethDmaFails]

theorem execRingDmaError_keepsTime (s : State) (r : Nat) : KeepsTime s (execRingDmaError r s) := guarded_keepsTime (by simp)

theorem execModTimeExpiry_keepsTime (s : State) (r : Nat) : KeepsTime s (execModTimeExpiry r s) := guarded_keepsTime (by simp)

@[simp] theorem State.endpointDown_clk (s : State) : s.endpointDown.clk = s.clk := by simp [State.endpointDown]

theorem execPerstNAssert_keepsTime (s : State) : KeepsTime s (execPerstNAssert s) := guarded_keepsTime (by simp)

@[simp] theorem State.maskVector_clk (s : State) (v : Nat) (masked : Bool) : (s.maskVector v masked).clk = s.clk := by simp [State.maskVector]

@[simp] theorem State.endpointPower_clk (s : State) (d3hot : Bool) : (s.endpointPower d3hot).clk = s.clk := by simp [State.endpointPower]

theorem execD3hotEntry_keepsTime (s : State) : KeepsTime s (execD3hotEntry s) := guarded_keepsTime (by simp)

@[simp] theorem State.configure_clk (s : State) (r : ConfigReq) : (s.configure r).clk = s.clk := by
  unfold State.configure
  split <;> simp

theorem execConfigurationRequest_keepsTime (s : State) (tag : ConfigReq) : KeepsTime s (execConfigurationRequest tag s) :=
  guarded_keepsTime (by simp)

/-! ### Pages -/

@[simp] theorem State.keep_clk (s : State) (r : State × Verdict) (hr : r.1.clk = s.clk) : (s.keep r).1.clk = s.clk := by
  unfold State.keep; simp [hr]
@[simp] theorem State.keep_timeline (s : State) (r : State × Verdict) (hr : r.1.clk.timeline = s.clk.timeline) :
    (s.keep r).1.clk.timeline = s.clk.timeline := by
  unfold State.keep; split <;> simp [hr]

@[simp] theorem State.both_clk (s : State) (r : State × Verdict) (f : State → State × Verdict) (hr : r.1.clk = s.clk)
    (hf : ∀ u v, f u = v → v.1.clk = u.clk) : (s.both r f).1.clk = s.clk := by
  unfold State.both
  split
  · exact State.keep_clk _ _ ((hf _ _ rfl).trans hr)
  · rfl

@[simp] theorem State.asked_clk (s : State) (b : Bool) (f : State → State × Verdict) (hf : ∀ u v, f u = v → v.1.clk = u.clk) :
    (s.asked b f).1.clk = s.clk :=
  clk_fst_of_ite (hf _ _ rfl) (accept_clk _)

@[simp] theorem State.sendNew_clk (s old : State) (v : Nat) : (s.sendNew old v).clk = s.clk := by simp [State.sendNew]

@[simp] theorem State.errCleared_clk (s old : State) (p v : Nat) : (s.errCleared old p v).clk = s.clk := by
  unfold State.errCleared
  dsimp only
  split <;> simp

@[simp] theorem State.chanEnable_clk (s : State) (agent c : Nat) (on : Bool) : (s.chanEnable agent c on).1.clk = s.clk := by
  unfold State.chanEnable
  dsimp only
  (repeat' split) <;> simp

@[simp] theorem State.phaseEnable_clk (s : State) (t : Nat) (on : Bool) : (s.phaseEnable t on).1.clk = s.clk := by
  unfold State.phaseEnable
  dsimp only
  split
  · simp
  · split
    · simp
    · split
      · next h => simp [State.takePlace_clk h]
      · rfl

@[simp] theorem State.setEnable_clk (s : State) (c : WCtx) (k : Kind) (on : Bool) : (s.setEnable c k on).1.clk = s.clk := by
  unfold State.setEnable
  split <;> simp

@[simp] theorem State.safeExit_clk (s : State) (c : WCtx) (k : Kind) : (s.safeExit c k).1.clk = s.clk := by
  unfold State.safeExit
  split <;> simp

@[simp] theorem State.controlBit_clk (s : State) (c : WCtx) (k : Kind) : (s.controlBit c k).1.clk = s.clk := by
  unfold State.controlBit
  split <;> simp

@[simp] theorem State.writeControl_clk (s : State) (c : WCtx) (k : Kind) : (s.writeControl c k).1.clk = s.clk := by
  refine State.both_clk _ _ _ (State.asked_clk _ _ _ fun u v hv => hv ▸ State.setEnable_clk ..) fun u v hv => ?_
  rw [← hv]
  refine State.both_clk _ _ _ (State.asked_clk _ _ _ fun u v hv => hv ▸ State.safeExit_clk ..) fun u v hv => ?_
  rw [← hv]
  exact State.asked_clk _ _ _ fun u v hv => hv ▸ State.controlBit_clk ..

@[simp] theorem State.writeHeader_clk (s : State) (c : WCtx) (k : Kind) (d : RegDesc) : (s.writeHeader c k d).1.clk = s.clk := by
  simp [State.writeHeader]

/-! ### Bodies -/

@[simp] theorem State.thaw_clk (s : State) : s.thaw.clk = s.clk := by simp [State.thaw]

@[simp] theorem State.writeSnap_clk (s : State) (c : WCtx) (d : RegDesc) : (s.writeSnap c d).1.clk = s.clk := by simp [State.writeSnap]

@[simp] theorem State.writeDev_clk (s : State) (c : WCtx) (d : RegDesc) : (s.writeDev c d).1.clk = s.clk := by
  unfold State.writeDev
  split
  · split <;> simp
  · split
    · simp
    · split
      · simp
      · split
        · simp
        · split
          · split
            · next h =>
              refine (State.after_clk _ _ _ _ fun u v hv => ?_).trans (State.store_clk h)
              simp [← hv]
            · simp
          · split <;> simp

@[simp] theorem State.claimCmd_timeline (s : State) (c : WCtx) (force : State → Nat → State)
    (hforce : ∀ s a, (force s a).clk.timeline = s.clk.timeline) : (s.claimCmd c force).1.clk.timeline = s.clk.timeline := by
  unfold State.claimCmd
  dsimp only
  (repeat' split) <;> simp [hforce]

@[simp] theorem State.writeOwn_timeline (s : State) (c : WCtx) (d : RegDesc) (j : Nat) (force : State → Nat → State)
    (hforce : ∀ s a, (force s a).clk.timeline = s.clk.timeline) : (s.writeOwn c d j force).1.clk.timeline = s.clk.timeline := by
  unfold State.writeOwn
  (repeat' split) <;> simp [hforce]

@[simp] theorem State.writeCal_clk (s : State) (c : WCtx) (d : RegDesc) : (s.writeCal c d).1.clk = s.clk := by simp [State.writeCal]

@[simp] theorem State.writeChan_clk (s : State) (c : WCtx) (d : RegDesc) : (s.writeChan c d).1.clk = s.clk := by simp [State.writeChan]

@[simp] theorem State.writePhase_clk (s : State) (c : WCtx) (d : RegDesc) : (s.writePhase c d).1.clk = s.clk := by simp [State.writePhase]

@[simp] theorem State.writeSrc_clk (s : State) (c : WCtx) (d : RegDesc) (n : Nat) : (s.writeSrc c d n).1.clk = s.clk := by
  have restart (u : State) : (u.after c d fun s => s.restartDivider n).1.clk = u.clk :=
    State.after_clk _ _ _ _ fun _ _ hv => hv ▸ State.restartDivider_clk ..
  unfold State.writeSrc
  dsimp only
  split
  · split
    · split
      · next h => exact (restart _).trans (State.takePlace_clk h)
      · rfl
    · exact restart _
  · split <;> simp

@[simp] theorem State.writeTrig_clk (s : State) (c : WCtx) (d : RegDesc) (j : Nat) : (s.writeTrig c d j).1.clk = s.clk := by simp [State.writeTrig]

@[simp] theorem State.writeSync_clk (s : State) (c : WCtx) (d : RegDesc) : (s.writeSync c d).1.clk = s.clk := by simp [State.writeSync]

@[simp] theorem State.writeMask_clk (s : State) (c : WCtx) (d : RegDesc) : (s.writeMask c d).1.clk = s.clk := by
  unfold State.writeMask
  split <;> simp

@[simp] theorem State.writeSeq_clk (s : State) (c : WCtx) (d : RegDesc) : (s.writeSeq c d).1.clk = s.clk := by simp [State.writeSeq]

@[simp] theorem State.writeCourse_clk (s : State) (c : WCtx) (d : RegDesc) : (s.writeCourse c d).1.clk = s.clk := by simp [State.writeCourse]

@[simp] theorem State.writeQueue_clk (s : State) (c : WCtx) (d : RegDesc) (q : Nat) : (s.writeQueue c d q).1.clk = s.clk := by
  simp [State.writeQueue]

@[simp] theorem State.writeTick_clk (s : State) (c : WCtx) (d : RegDesc) (n : Nat) : (s.writeTick c d n).1.clk = s.clk := by simp [State.writeTick]

@[simp] theorem State.submitCmd_clk (s : State) (c : WCtx) : (s.submitCmd c).1.clk = s.clk := by
  unfold State.submitCmd
  split <;> simp

@[simp] theorem State.writeSched_clk (s : State) (c : WCtx) (d : RegDesc) (j : Nat) : (s.writeSched c d j).1.clk = s.clk := by
  simp [State.writeSched]

@[simp] theorem State.writeTdc_clk (s : State) (c : WCtx) (d : RegDesc) (j : Nat) : (s.writeTdc c d j).1.clk = s.clk := by simp [State.writeTdc]

@[simp] theorem State.writeRef_timeline (s : State) (c : WCtx) (d : RegDesc) (k : Nat) : (s.writeRef c d k).1.clk.timeline = s.clk.timeline := by
  unfold State.writeRef
  dsimp only
  (repeat' split) <;> simp

@[simp] theorem State.writeRefsel_timeline (s : State) (c : WCtx) (d : RegDesc) (j : Nat) : (s.writeRefsel c d j).1.clk.timeline = s.clk.timeline := by
  unfold State.writeRefsel
  (repeat' split) <;> simp

@[simp] theorem State.writeServo_timeline (s : State) (c : WCtx) (d : RegDesc) : (s.writeServo c d).1.clk.timeline = s.clk.timeline := by
  unfold State.writeServo
  (repeat' split) <;> simp

@[simp] theorem State.writeApllA_clk (s : State) (c : WCtx) (d : RegDesc) : (s.writeApllA c d).1.clk = s.clk := by simp [State.writeApllA]

@[simp] theorem State.writeAux_clk (s : State) (c : WCtx) (d : RegDesc) : (s.writeAux c d).1.clk = s.clk := by simp [State.writeAux]

@[simp] theorem State.writeTsc_clk (s : State) (c : WCtx) (d : RegDesc) : (s.writeTsc c d).1.clk = s.clk := by
  unfold State.writeTsc
  dsimp only
  (repeat' split) <;> simp

@[simp] theorem State.writeDomain_timeline (s : State) (c : WCtx) (d : RegDesc) : (s.writeDomain c d).1.clk.timeline = s.clk.timeline := by
  simp [State.writeDomain]

@[simp] theorem State.writeEave_clk (s : State) (c : WCtx) (d : RegDesc) : (s.writeEave c d).1.clk = s.clk := by
  unfold State.writeEave
  dsimp only
  (repeat' split) <;> simp

@[simp] theorem State.writeGutter_clk (s : State) (c : WCtx) (d : RegDesc) (j : Nat) : (s.writeGutter c d j).1.clk = s.clk := by
  simp [State.writeGutter]

@[simp] theorem State.freeList_clk (s : State) (n : Nat) : (s.freeList n).2.clk = s.clk := by simp [State.freeList]

@[simp] theorem State.writeFlash_clk (s : State) (c : WCtx) (d : RegDesc) (bytes : Option (List Nat)) (v : Option VerifyResult) :
    (s.writeFlash c d bytes v).1.clk = s.clk := by
  unfold State.writeFlash
  split
  · simp
  · repeat' split
    case _ h => simp [State.store_clk h]
    all_goals simp

@[simp] theorem State.writeHostq_clk (s : State) (c : WCtx) (d : RegDesc) (r : Nat) : (s.writeHostq c d r).1.clk = s.clk := by
  simp [State.writeHostq]

@[simp] theorem State.writeRdg_clk (s : State) (c : WCtx) (d : RegDesc) : (s.writeRdg c d).1.clk = s.clk := by simp [State.writeRdg]

@[simp] theorem State.writeEth_clk (s : State) (c : WCtx) (d : RegDesc) : (s.writeEth c d).1.clk = s.clk := by simp [State.writeEth]

@[simp] theorem State.writeXo_clk (s : State) (c : WCtx) (d : RegDesc) : (s.writeXo c d).1.clk = s.clk := by simp [State.writeXo]

@[simp] theorem State.writeBody_timeline (s : State) (c : WCtx) (k : Kind) (d : RegDesc) (j : Nat) (x : Extra)
    (hx : ∀ s a, (x.force s a).clk.timeline = s.clk.timeline) : (s.writeBody c k d j x).1.clk.timeline = s.clk.timeline := by
  unfold State.writeBody
  (repeat' split) <;> simp [hx]

@[simp] theorem State.writeReg_timeline (s : State) (c : WCtx) (k : Kind) (d : RegDesc) (j : Nat) (x : Extra)
    (hx : ∀ s a, (x.force s a).clk.timeline = s.clk.timeline) : (s.writeReg c k d j x).1.clk.timeline = s.clk.timeline := by
  unfold State.writeReg
  (repeat' split) <;> simp [hx]

/-! ### Release -/

@[simp] theorem State.resetReg_clk (s : State) (p : Nat) (d : RegDesc) (j : Nat) : (s.resetReg p d j).clk = s.clk := by simp [State.resetReg]

@[simp] theorem State.resetRegs_clk (s : State) (p : Nat) (sel : Nat → Nat → Bool) : (s.resetRegs p sel).clk = s.clk := by
  unfold State.resetRegs
  split <;> simp

@[simp] theorem State.seqForced_clk (s : State) (q : Nat) : (s.seqForced q).clk = s.clk := by simp [State.seqForced]

@[simp] theorem State.measForced_clk (s : State) : s.measForced.clk = s.clk := by simp [State.measForced]

@[simp] theorem State.pageForced_timeline (s : State) (agent p : Nat) : (s.pageForced agent p).clk.timeline = s.clk.timeline := by
  unfold State.pageForced
  dsimp only
  (repeat' split) <;> simp

@[simp] theorem State.dropWrites_clk (s : State) (p lane : Nat) : (s.dropWrites p lane).clk = s.clk := by simp [State.dropWrites]

@[simp] theorem State.pageReset_timeline (s : State) (agent p : Nat) : (s.pageReset agent p).clk.timeline = s.clk.timeline := by
  unfold State.pageReset
  dsimp only
  split <;> simp

@[simp] theorem State.lineReset_clk (s : State) (n : Nat) : (s.lineReset n).clk = s.clk := by simp [State.lineReset]

@[simp] theorem State.tickReset_clk (s : State) (n : Nat) : (s.tickReset n).clk = s.clk := by simp [State.tickReset]

@[simp] theorem State.chanReset_clk (s : State) (c : Nat) : (s.chanReset c).clk = s.clk := by simp [State.chanReset]

@[simp] theorem State.chanForced_clk (s : State) (c : Nat) : (s.chanForced c).clk = s.clk := by simp [State.chanForced]

@[simp] theorem State.ringReset_clk (s : State) (r : Nat) : (s.ringReset r).clk = s.clk := by simp [State.ringReset]

@[simp] theorem State.queueReset_clk (s : State) (q : Nat) : (s.queueReset q).clk = s.clk := by simp [State.queueReset]

@[simp] theorem State.forceRelease_timeline (s : State) (a : Nat) : (s.forceRelease a).clk.timeline = s.clk.timeline := by simp [State.forceRelease]

/-! ### Host -/

@[simp] theorem State.writeWord_timeline (s : State) (path : Path) (page off v : Nat) (k : Kind) (i : Nat) (d : RegDesc) (j w : Nat) (x : Extra)
    (hx : ∀ s a, (x.force s a).clk.timeline = s.clk.timeline) : (s.writeWord path page off v k i d j w x).1.clk.timeline = s.clk.timeline := by
  unfold State.writeWord
  dsimp only
  (repeat' split) <;> simp [hx]

@[simp] theorem State.judge__timeline (s : State) (path : Path) (page off v : Nat) (x : Extra)
    (hx : ∀ s a, (x.force s a).clk.timeline = s.clk.timeline) : (s.judge_ path page off v x).1.clk.timeline = s.clk.timeline := by
  unfold State.judge_
  (repeat' split) <;> simp [hx]

@[simp] theorem State.noteAt_clk (s : State) (path : Path) (page off v : Nat) : (s.noteAt path page off v).clk = s.clk := by
  unfold State.noteAt
  split <;> simp

@[simp] theorem State.hostWrite__timeline (s : State) (path : Path) (page off v : Nat) (x : Extra)
    (hx : ∀ s a, (x.force s a).clk.timeline = s.clk.timeline) : (s.hostWrite_ path page off v x).1.clk.timeline = s.clk.timeline := by
  unfold State.hostWrite_
  (repeat' split) <;> simp [hx]

@[simp] theorem State.hostWrite_timeline (s : State) (path : Path) (page off v : Nat) :
    (s.hostWrite path page off v).1.clk.timeline = s.clk.timeline := by simp [State.hostWrite]

@[simp] theorem State.wrote_timeline (s : State) (path : Path) (page off v : Nat) : (s.wrote path page off v).clk.timeline = s.clk.timeline := by
  simp [State.wrote]

@[simp] theorem State.hostRead_clk (s : State) (path : Path) (page off : Nat) : (s.hostRead path page off).2.clk = s.clk := by
  unfold State.hostRead
  dsimp only
  (repeat' split) <;> simp

@[simp] theorem State.readWords_clk (s : State) (path : Path) (page : Nat) (l : List Nat) : (s.readWords path page l).2.clk = s.clk := by
  induction l generalizing s with
  | nil => rfl
  | cons o l ih => exact (ih _).trans (State.hostRead_clk ..)

@[simp] theorem State.writeWords_timeline (s : State) (path : Path) (page : Nat) (l : List (Nat × Nat)) :
    (s.writeWords path page l).1.clk.timeline = s.clk.timeline := by
  induction l generalizing s with
  | nil => rfl
  | cons e l ih =>
    have h1 : (s.hostWrite path page e.1 e.2).1.clk.timeline = s.clk.timeline := by simp
    unfold State.writeWords
    dsimp only
    repeat' split
    all_goals simp only [ih, h1]

@[simp] theorem State.badAccess_clk (s : State) (addr size : Nat) (isRead : Bool) : (s.badAccess addr size isRead).clk = s.clk := by
  simp [State.badAccess]

@[simp] theorem State.spiRead_clk (s : State) (addr n : Nat) : (s.spiRead addr n).2.clk = s.clk := by
  refine foldl_keeps (fun a : List Nat × State => a.2.clk = s.clk) _ (fun a k h => ?_) _ _ rfl
  dsimp only
  (repeat' split) <;> simp [h]

@[simp] theorem State.i2c_timeline (s : State) (off : Nat) (data : List Nat) (nread : Nat) : (s.i2c off data nread).clk.timeline = s.clk.timeline := by
  simp [State.i2c]

@[simp] theorem State.complete_clk (s : State) (r tag op off data : Nat) (v : Verdict) : (s.complete r tag op off data v).clk = s.clk := by
  simp [State.complete]

@[simp] theorem State.commandRun_clk (s : State) (r tag op off : Nat) (f : State → State × Nat × Verdict) (hf : ∀ u v, f u = v → v.1.clk = u.clk) :
    (s.commandRun r tag op off f).clk = s.clk :=
  clk_of_ite ((State.complete_clk ..).trans (hf _ _ rfl)) rfl
@[simp] theorem State.commandRun_timeline (s : State) (r tag op off : Nat) (f : State → State × Nat × Verdict)
    (hf : ∀ u v, f u = v → v.1.clk.timeline = u.clk.timeline) : (s.commandRun r tag op off f).clk.timeline = s.clk.timeline := by
  unfold State.commandRun
  split
  · rw [State.complete_clk, hf _ _ rfl]
  · rfl

end Sys2Proof.Machine
end

section
/-! SUPPORT. The clock under the operations of the model: the rows of the host, remote access and what is delivered in a slot. -/

namespace Sys2Proof.Machine

/-! ### Rows -/

theorem execRegisterWrite_keepsTime (s : State) (path : Path) (page off v : Nat) : KeepsTime s (execRegisterWrite path page off v s) :=
  guarded_keepsTime (by simp)

theorem execStagedWordWrite_keepsTime (s : State) (path : Path) (page off v : Nat) : KeepsTime s (execStagedWordWrite path page off v s) :=
  guarded_keepsTime (by simp)

theorem execLatchingRead_keepsTime (s : State) (path : Path) (page off : Nat) : KeepsTime s (execLatchingRead path page off s) :=
  guarded_keepsTime (by dsimp only; split <;> simp)

theorem execBadAccess_keepsTime (s : State) (addr size : Nat) (isRead : Bool) : KeepsTime s (execBadAccess addr size isRead s) :=
  guarded_keepsTime (by simp)

theorem execI2cTransaction_keepsTime (s : State) (off : Nat) (data : List Nat) (nread : Nat) : KeepsTime s (execI2cTransaction off data nread s) :=
  guarded_keepsTime (by simp)

theorem execCommandWrite32_keepsTime (s : State) (r tag page off v : Nat) : KeepsTime s (execCommandWrite32 r tag page off v s) :=
  guarded_keepsTime (by simp)

theorem execCommandRead32_keepsTime (s : State) (r tag page off : Nat) : KeepsTime s (execCommandRead32 r tag page off s) :=
  guarded_keepsTime (by simp)

theorem execCommandWrite128_keepsTime (s : State) (r tag page off v : Nat) : KeepsTime s (execCommandWrite128 r tag page off v s) :=
  guarded_keepsTime (by simp)

theorem execCommandRead128_keepsTime (s : State) (r tag page off : Nat) : KeepsTime s (execCommandRead128 r tag page off s) :=
  guarded_keepsTime (by simp)

theorem execFence_keepsTime (s : State) (r tag : Nat) : KeepsTime s (execFence r tag s) := guarded_keepsTime (by simp)

theorem execLeaseKick_keepsTime (s : State) (r tag : Nat) : KeepsTime s (execLeaseKick r tag s) := guarded_keepsTime (by simp)

theorem execCommandNop_keepsTime (s : State) (r tag : Nat) : KeepsTime s (execCommandNop r tag s) := guarded_keepsTime (by simp)

theorem execGo_keepsTime (s : State) (path : Path) (page lane v : Nat) : KeepsTime s (execGo path page lane v s) := guarded_keepsTime (by simp)

theorem execCommitAbort_keepsTime (s : State) (path : Path) (page lane v : Nat) : KeepsTime s (execCommitAbort path page lane v s) :=
  guarded_keepsTime (by simp)

theorem execCommitModeChange_keepsTime (s : State) (path : Path) (page lane v : Nat) : KeepsTime s (execCommitModeChange path page lane v s) :=
  guarded_keepsTime (by simp)

theorem execCgArm_keepsTime (s : State) (path : Path) (v : Nat) : KeepsTime s (execCgArm path v s) := guarded_keepsTime (by simp)

theorem execCgDisarm_keepsTime (s : State) (path : Path) (v : Nat) : KeepsTime s (execCgDisarm path v s) := guarded_keepsTime (by simp)

theorem execWindowBind_keepsTime (s : State) (path : Path) (off v : Nat) : KeepsTime s (execWindowBind path off v s) := guarded_keepsTime (by simp)

theorem execOwnerWrite_keepsTime (s : State) (path : Path) (page v : Nat) : KeepsTime s (execOwnerWrite path page v s) :=
  guarded_keepsTime (by simp)

theorem execClaim_keepsTime (s : State) (path : Path) (res : Nat) : KeepsTime s (execClaim path res s) := guarded_keepsTime (by simp)

theorem execRelease_keepsTime (s : State) (path : Path) (res : Nat) : KeepsTime s (execRelease path res s) := guarded_keepsTime (by simp)

theorem execQuery_keepsTime (s : State) (path : Path) (res agent : Nat) : KeepsTime s (execQuery path res agent s) := guarded_keepsTime (by simp)

theorem execForceRelease_keepsTime (s : State) (path : Path) (res agent : Nat) : KeepsTime s (execForceRelease path res agent s) :=
  guarded_keepsTime (by simp)

theorem execLeasePeriodWrite_keepsTime (s : State) (path : Path) (w v : Nat) : KeepsTime s (execLeasePeriodWrite path w v s) :=
  guarded_keepsTime (by simp)

theorem execKick_keepsTime (s : State) (path : Path) (w v : Nat) : KeepsTime s (execKick path w v s) := guarded_keepsTime (by simp)

theorem execRingEnable_keepsTime (s : State) (path : Path) (r v : Nat) : KeepsTime s (execRingEnable path r v s) := guarded_keepsTime (by simp)

theorem execRingDisable_keepsTime (s : State) (path : Path) (r v : Nat) : KeepsTime s (execRingDisable path r v s) := guarded_keepsTime (by simp)

theorem execRingCfgWrite_keepsTime (s : State) (path : Path) (r v : Nat) : KeepsTime s (execRingCfgWrite path r v s) := guarded_keepsTime (by simp)

theorem execDoorbell_keepsTime (s : State) (path : Path) (r v : Nat) : KeepsTime s (execDoorbell path r v s) := guarded_keepsTime (by simp)

theorem execFreeze_keepsTime (s : State) (path : Path) : KeepsTime s (execFreeze path s) := guarded_keepsTime (by simp)

theorem execSnapshotRelease_keepsTime (s : State) (path : Path) : KeepsTime s (execSnapshotRelease path s) := guarded_keepsTime (by simp)

theorem execSwapLane_keepsTime (s : State) (path : Path) (q lane : Nat) : KeepsTime s (execSwapLane path q lane s) := guarded_keepsTime (by simp)

theorem execResweepSpare_keepsTime (s : State) (path : Path) (q : Nat) : KeepsTime s (execResweepSpare path q s) := guarded_keepsTime (by simp)

theorem execRetest_keepsTime (s : State) (path : Path) (q e : Nat) : KeepsTime s (execRetest path q e s) := guarded_keepsTime (by simp)

theorem execLoopEnable_keepsTime (s : State) (path : Path) (v : Nat) : KeepsTime s (execLoopEnable path v s) := guarded_keepsTime (by simp)

theorem execChannelFlush_keepsTime (s : State) (path : Path) (c : Nat) : KeepsTime s (execChannelFlush path c s) := guarded_keepsTime (by simp)

theorem execChannelSafeExit_keepsTime (s : State) (path : Path) (c : Nat) : KeepsTime s (execChannelSafeExit path c s) :=
  guarded_keepsTime (by simp)

theorem execTlSrcWrite_keepsTime (s : State) (path : Path) (n v : Nat) : KeepsTime s (execTlSrcWrite path n v s) := guarded_keepsTime (by simp)

theorem execTlShapeWrite_keepsTime (s : State) (path : Path) (n v : Nat) : KeepsTime s (execTlShapeWrite path n v s) := guarded_keepsTime (by simp)

theorem execFireNow_keepsTime (s : State) (path : Path) (n : Nat) : KeepsTime s (execFireNow path n s) := guarded_keepsTime (by simp)

theorem execFireAt_keepsTime (s : State) (path : Path) (n : Nat) : KeepsTime s (execFireAt path n s) := guarded_keepsTime (by simp)

theorem execStart_keepsTime (s : State) (path : Path) (q : Nat) : KeepsTime s (execStart path q s) := guarded_keepsTime (by simp)

theorem execStopAtEnd_keepsTime (s : State) (path : Path) (q : Nat) : KeepsTime s (execStopAtEnd path q s) := guarded_keepsTime (by simp)

theorem execStopNow_keepsTime (s : State) (path : Path) (q : Nat) : KeepsTime s (execStopNow path q s) := guarded_keepsTime (by simp)

theorem execJump_keepsTime (s : State) (path : Path) (q : Nat) : KeepsTime s (execJump path q s) := guarded_keepsTime (by simp)

theorem execClearRequest_keepsTime (s : State) (path : Path) (q : Nat) : KeepsTime s (execClearRequest path q s) := guarded_keepsTime (by simp)

theorem execDisarm_keepsTime (s : State) (path : Path) (q : Nat) : KeepsTime s (execDisarm path q s) := guarded_keepsTime (by simp)

theorem execRefillSubmit_keepsTime (s : State) (path : Path) (q : Nat) : KeepsTime s (execRefillSubmit path q s) := guarded_keepsTime (by simp)

theorem execRefillFlush_keepsTime (s : State) (path : Path) (q : Nat) : KeepsTime s (execRefillFlush path q s) := guarded_keepsTime (by simp)

theorem execReadySet_keepsTime (s : State) (path : Path) : KeepsTime s (execReadySet path s) := guarded_keepsTime (by simp)

theorem execReadyClear_keepsTime (s : State) (path : Path) : KeepsTime s (execReadyClear path s) := guarded_keepsTime (by simp)

theorem execValidate_keepsTime (s : State) (path : Path) : KeepsTime s (execValidate path s) := guarded_keepsTime (by simp)

theorem execSubmit_keepsTime (s : State) (path : Path) (q : Nat) : KeepsTime s (execSubmit path q s) := guarded_keepsTime (by simp)

theorem execFlush_keepsTime (s : State) (path : Path) (q : Nat) : KeepsTime s (execFlush path q s) := guarded_keepsTime (by simp)

theorem execQueueSafeExit_keepsTime (s : State) (path : Path) : KeepsTime s (execQueueSafeExit path s) := guarded_keepsTime (by simp)

theorem execTickEnable_keepsTime (s : State) (path : Path) (n v : Nat) : KeepsTime s (execTickEnable path n v s) := guarded_keepsTime (by simp)

theorem execPhaseEnable_keepsTime (s : State) (path : Path) (t v : Nat) : KeepsTime s (execPhaseEnable path t v s) := guarded_keepsTime (by simp)

theorem execRestart_keepsTime (s : State) (path : Path) (t : Nat) : KeepsTime s (execRestart path t s) := guarded_keepsTime (by simp)

theorem execRecal_keepsTime (s : State) (path : Path) (i : Nat) : KeepsTime s (execRecal path i s) := guarded_keepsTime (by simp)

theorem execSessionEnable_keepsTime (s : State) (path : Path) (k v : Nat) : KeepsTime s (execSessionEnable path k v s) :=
  guarded_keepsTime (by simp)

theorem execGateEnable_keepsTime (s : State) (path : Path) (g v : Nat) : KeepsTime s (execGateEnable path g v s) := guarded_keepsTime (by simp)

theorem execArm_keepsTime (s : State) (path : Path) (k : Nat) : KeepsTime s (execArm path k s) := guarded_keepsTime (by simp)

theorem execSessionAbort_keepsTime (s : State) (path : Path) (k : Nat) : KeepsTime s (execSessionAbort path k s) := guarded_keepsTime (by simp)

theorem execGateStart_keepsTime (s : State) (path : Path) (g : Nat) : KeepsTime s (execGateStart path g s) := guarded_keepsTime (by simp)

theorem execRefEnable_keepsTime (s : State) (path : Path) (k v : Nat) : KeepsTime s (execRefEnable path k v s) := guarded_keepsTime (by simp)

theorem execPush_keepsTime (s : State) (path : Path) (k : Nat) : KeepsTime s (execPush path k s) := guarded_keepsTime (by simp)

theorem execAcceptSlew_keepsTime (s : State) (path : Path) (k : Nat) : KeepsTime s (execAcceptSlew path k s) := guarded_keepsTime (by simp)

theorem execAcceptStep_keepsTime (s : State) (path : Path) (k : Nat) : KeepsTime s (execAcceptStep path k s) := guarded_keepsTime (by simp)

theorem execReject_keepsTime (s : State) (path : Path) (k : Nat) : KeepsTime s (execReject path k s) := guarded_keepsTime (by simp)

theorem execClearSuspect_keepsTime (s : State) (path : Path) (k : Nat) : KeepsTime s (execClearSuspect path k s) := guarded_keepsTime (by simp)

theorem execRequalify_keepsTime (s : State) (path : Path) (k : Nat) : KeepsTime s (execRequalify path k s) := guarded_keepsTime (by simp)

theorem execServoModeWrite_keepsTime (s : State) (path : Path) (v : Nat) : KeepsTime s (execServoModeWrite path v s) := guarded_keepsTime (by simp)

theorem execStep_keepsTime (s : State) (path : Path) : KeepsTime s (execStep path s) := guarded_keepsTime (by simp)

theorem execStepProposed_keepsTime (s : State) (path : Path) : KeepsTime s (execStepProposed path s) := guarded_keepsTime (by simp)

theorem execSlewProposed_keepsTime (s : State) (path : Path) : KeepsTime s (execSlewProposed path s) := guarded_keepsTime (by simp)

theorem execApllAEnable_keepsTime (s : State) (path : Path) (v : Nat) : KeepsTime s (execApllAEnable path v s) := guarded_keepsTime (by simp)

theorem execFreqCmdSet_keepsTime (s : State) (path : Path) : KeepsTime s (execFreqCmdSet path s) := guarded_keepsTime (by simp)

theorem execRunProfile_keepsTime (s : State) (path : Path) : KeepsTime s (execRunProfile path s) := guarded_keepsTime (by simp)

theorem execAbortRamp_keepsTime (s : State) (path : Path) : KeepsTime s (execAbortRamp path s) := guarded_keepsTime (by simp)

theorem execRelock_keepsTime (s : State) (path : Path) : KeepsTime s (execRelock path s) := guarded_keepsTime (by simp)

theorem execAuxEnable_keepsTime (s : State) (path : Path) (n v : Nat) : KeepsTime s (execAuxEnable path n v s) := guarded_keepsTime (by simp)

theorem execAuxSafeExit_keepsTime (s : State) (path : Path) (n : Nat) : KeepsTime s (execAuxSafeExit path n s) := guarded_keepsTime (by simp)

theorem execSwitch_keepsTime (s : State) (path : Path) : KeepsTime s (execSwitch path s) := guarded_keepsTime (by simp)

theorem execPathAccept_keepsTime (s : State) (path : Path) : KeepsTime s (execPathAccept path s) := guarded_keepsTime (by simp)

theorem execPathClear_keepsTime (s : State) (path : Path) : KeepsTime s (execPathClear path s) := guarded_keepsTime (by simp)

theorem execIssue_keepsTime (s : State) (path : Path) (p : Nat) : KeepsTime s (execIssue path p s) := guarded_keepsTime (by simp)

theorem execMgmtRead32_keepsTime (s : State) (path : Path) (p : Nat) : KeepsTime s (execMgmtRead32 path p s) := guarded_keepsTime (by simp)

theorem execMgmtWrite32_keepsTime (s : State) (path : Path) (p : Nat) : KeepsTime s (execMgmtWrite32 path p s) := guarded_keepsTime (by simp)

theorem execMgmtRead128_keepsTime (s : State) (path : Path) (p : Nat) : KeepsTime s (execMgmtRead128 path p s) := guarded_keepsTime (by simp)

theorem execMgmtWrite128_keepsTime (s : State) (path : Path) (p : Nat) : KeepsTime s (execMgmtWrite128 path p s) := guarded_keepsTime (by simp)

theorem execEthDoorbell_keepsTime (s : State) (path : Path) (p : Nat) (rx : Bool) (v : Nat) : KeepsTime s (execEthDoorbell path p rx v s) :=
  guarded_keepsTime (by simp)

theorem execCalCmdSet_keepsTime (s : State) (path : Path) : KeepsTime s (execCalCmdSet path s) := guarded_keepsTime (by simp)

theorem execSyncNow_keepsTime (s : State) (path : Path) : KeepsTime s (execSyncNow path s) := guarded_keepsTime (by simp)

theorem execInvalidate_keepsTime (s : State) (path : Path) : KeepsTime s (execInvalidate path s) := guarded_keepsTime (by simp)

theorem execPwrOn_keepsTime (s : State) (path : Path) : KeepsTime s (execPwrOn path s) := guarded_keepsTime (by simp)

theorem execPwrOff_keepsTime (s : State) (path : Path) : KeepsTime s (execPwrOff path s) := guarded_keepsTime (by simp)

theorem execAlertSet_keepsTime (s : State) (path : Path) : KeepsTime s (execAlertSet path s) := guarded_keepsTime (by simp)

theorem execAlertClr_keepsTime (s : State) (path : Path) : KeepsTime s (execAlertClr path s) := guarded_keepsTime (by simp)

theorem execLogClear_keepsTime (s : State) (path : Path) : KeepsTime s (execLogClear path s) := guarded_keepsTime (by simp)

theorem execErrInject_keepsTime (s : State) (path : Path) (page v : Nat) : KeepsTime s (execErrInject path page v s) := guarded_keepsTime (by simp)

theorem execInject_keepsTime (s : State) (path : Path) (k : Nat) (line : Bool) : KeepsTime s (execInject path k line s) :=
  guarded_keepsTime (by simp)

theorem execClearPair_keepsTime (s : State) (path : Path) : KeepsTime s (execClearPair path s) := guarded_keepsTime (by simp)

theorem execEnterSafe_keepsTime (s : State) (path : Path) : KeepsTime s (execEnterSafe path s) := guarded_keepsTime (by simp)

theorem execReinit_keepsTime (s : State) (path : Path) : KeepsTime s (execReinit path s) := guarded_keepsTime (by simp)

theorem execDeviceSafeExit_keepsTime (s : State) (path : Path) : KeepsTime s (execDeviceSafeExit path s) := guarded_keepsTime (by simp)

theorem execFirstFaultClear_keepsTime (s : State) (path : Path) : KeepsTime s (execFirstFaultClear path s) := guarded_keepsTime (by simp)

theorem execDeviceReset_keepsTime (s : State) (path : Path) : KeepsTime s (execDeviceReset path s) := guarded_keepsTime (by simp)

theorem execBegin_keepsTime (s : State) (path : Path) : KeepsTime s (execBegin path s) := guarded_keepsTime (by simp)

theorem execWriteWindow_keepsTime (s : State) (path : Path) : KeepsTime s (execWriteWindow path s) := guarded_keepsTime (by simp)

theorem execActivate_keepsTime (s : State) (path : Path) : KeepsTime s (execActivate path s) := guarded_keepsTime (by simp)

theorem execActivateAtReset_keepsTime (s : State) (path : Path) : KeepsTime s (execActivateAtReset path s) := guarded_keepsTime (by simp)

theorem execConfirm_keepsTime (s : State) (path : Path) : KeepsTime s (execConfirm path s) := guarded_keepsTime (by simp)

theorem execRevert_keepsTime (s : State) (path : Path) : KeepsTime s (execRevert path s) := guarded_keepsTime (by simp)

theorem execFlAbort_keepsTime (s : State) (path : Path) : KeepsTime s (execFlAbort path s) := guarded_keepsTime (by simp)

theorem execLoadManifest_keepsTime (s : State) (path : Path) : KeepsTime s (execLoadManifest path s) := guarded_keepsTime (by simp)

theorem execClearManifest_keepsTime (s : State) (path : Path) : KeepsTime s (execClearManifest path s) := guarded_keepsTime (by simp)

theorem execReadLog_keepsTime (s : State) (path : Path) : KeepsTime s (execReadLog path s) := guarded_keepsTime (by simp)

theorem execInstallKey_keepsTime (s : State) (path : Path) : KeepsTime s (execInstallKey path s) := guarded_keepsTime (by simp)

theorem execOwnerEnroll_keepsTime (s : State) (path : Path) : KeepsTime s (execOwnerEnroll path s) := guarded_keepsTime (by simp)

@[simp] theorem State.flashWrote_timeline (s : State) (path : Path) (code : Nat) (bytes : Option (List Nat)) (v : Option VerifyResult) :
    (s.flashWrote path code bytes v).clk.timeline = s.clk.timeline := by simp [State.flashWrote]

theorem execDmaWrite_keepsTime (s : State) (path : Path) (bytes : List Nat) : KeepsTime s (execDmaWrite path bytes s) := guarded_keepsTime (by simp)

theorem execFinish_keepsTime (s : State) (path : Path) (v : VerifyResult) : KeepsTime s (execFinish path v s) := guarded_keepsTime (by simp)

/-! ### Remote -/

@[simp] theorem State.mgmtAccess_timeline (s : State) (c : MgmtCell) : (s.mgmtAccess c).1.clk.timeline = s.clk.timeline := by
  simp [State.mgmtAccess]

@[simp] theorem State.keepCounter_clk (s : State) (n : Nat) : (s.keepCounter n).clk = s.clk := by simp [State.keepCounter]

@[simp] theorem State.mgmtReply_clk (s : State) (c : MgmtCell) (key : Nat) (v : Verdict) (data : Nat) : (s.mgmtReply c key v data).clk = s.clk := by
  unfold State.mgmtReply
  split <;> simp

@[simp] theorem State.mgmtServe_timeline (s : State) (p : Nat) (c : MgmtCell) : (s.mgmtServe p c).clk.timeline = s.clk.timeline := by
  unfold State.mgmtServe
  split <;> simp

@[simp] theorem State.mgmtRx_timeline (s : State) (p : Nat) (c : MgmtCell) : (s.mgmtRx p c).clk.timeline = s.clk.timeline := by simp [State.mgmtRx]

theorem execMgmtRequestRx_keepsTime (s : State) (p : Nat) (c : MgmtCell) : KeepsTime s (execMgmtRequestRx p c s) := guarded_keepsTime (by simp)

/-! ### Deliver -/

@[simp] theorem State.lineToSeq_clk (s : State) (n t teb q : Nat) : (s.lineToSeq n t teb q).clk = s.clk := by simp [State.lineToSeq]

@[simp] theorem State.lineEvent_clk (s : State) (e : LineEvent) (n : Nat) : (s.lineEvent e n).clk = s.clk := by simp [State.lineEvent]

@[simp] theorem State.deliverEvent_clk (s : State) (e : LineEvent) : (s.deliverEvent e).clk = s.clk := by
  unfold State.deliverEvent
  dsimp only
  (repeat' split) <;> simp

theorem execTriggerLineEvent_keepsTime (s : State) (e : LineEvent) : KeepsTime s (execTriggerLineEvent e s) := guarded_keepsTime (by simp)

@[simp] theorem State.subscriberStamp_clk (s : State) (i : Nat) (st : Stamp) (sub : Nat × Nat) : (s.subscriberStamp i st sub).clk = s.clk := by
  unfold State.subscriberStamp
  split <;> simp

@[simp] theorem State.handout_clk (s : State) (i : Nat) : (s.handout i).clk = s.clk := by
  unfold State.handout
  split <;> simp

theorem execFifoHandout_keepsTime (s : State) (i : Nat) : KeepsTime s (execFifoHandout i s) := guarded_keepsTime (by simp)

@[simp] theorem State.queueWrite_timeline (s : State) (d : Disp) : (s.queueWrite d).1.clk.timeline = s.clk.timeline := by simp [State.queueWrite]

theorem execRegWrite32_keepsTime (s : State) : KeepsTime s (execRegWrite32 s) := guarded_keepsTime (by simp)

theorem execSnapshotTimeout_keepsTime (s : State) : KeepsTime s (execSnapshotTimeout s) := guarded_keepsTime (by simp)

/-! ### Due -/

@[simp] theorem State.freezeEdge_clk (s : State) : s.freezeEdge.clk = s.clk := by
  unfold State.freezeEdge
  split <;> simp

@[simp] theorem State.quadSlot_clk (s : State) (q : Nat) : (s.quadSlot q).clk = s.clk := by
  unfold State.quadSlot
  split <;> simp

end Sys2Proof.Machine
end

section
/-! SUPPORT. The clock under the operations of the model: stores into BAR2, SPI and refills. -/

namespace Sys2Proof.Machine

@[simp] theorem State.memStore_clk (s : State) (a : Nat) (bytes : List Nat) : (s.memStore a bytes).clk = s.clk := by
  induction bytes generalizing s a with
  | nil => rfl
  | cons b bs ih => exact (ih _ _).trans (by simp [State.memPut])

@[simp] theorem State.bar2Store_clk (s : State) (a : Nat) (bytes : List Nat) : (s.bar2Store a bytes).clk = s.clk := by
  simp [State.bar2Store]

@[simp] theorem State.bar2Write_clk (s : State) (a : Nat) (bytes : List Nat) : (s.bar2Write a bytes).clk = s.clk := by
  have counted (u : State) (f : Nat → Option (Nat × List Nat)) :
      (u.forEach (List.range 4) fun q v => match f q with | some p => v.activeDrop q p.1 | none => v).clk = u.clk := by
    refine State.forEach_clk _ _ _ fun q v w hw => ?_
    rw [← hw]
    split <;> simp
  unfold State.bar2Write
  dsimp only
  split
  · rw [State.courseDrop_clk]
    refine (counted _ _).trans ?_
    simp
  · refine (counted _ _).trans ?_
    simp

@[simp] theorem State.spiWrite_timeline (s : State) (addr : Nat) (data : List Nat) : (s.spiWrite addr data).clk.timeline = s.clk.timeline := by
  refine State.forEach_timeline _ _ _ fun e u v hv => ?_
  rw [← hv]
  dsimp only
  (repeat' split) <;> simp

@[simp] theorem State.spi_timeline (s : State) (cmd addr : Nat) (data : List Nat) (nread : Nat) :
    (s.spi cmd addr data nread).clk.timeline = s.clk.timeline := by
  unfold State.spi
  (repeat' split) <;> simp

@[simp] theorem State.refillFinish_clk (s : State) (q : Nat) (bytes : List Nat) : (s.refillFinish q bytes).clk = s.clk := by
  unfold State.refillFinish
  (repeat' split) <;> simp

theorem execBar2Write_keepsTime (s : State) (off : Nat) (bytes : List Nat) : KeepsTime s (execBar2Write off bytes s) :=
  guarded_keepsTime (by simp)

theorem execSpiTransaction_keepsTime (s : State) (cmd addr : Nat) (data : List Nat) (nread : Nat) :
    KeepsTime s (execSpiTransaction cmd addr data nread s) := guarded_keepsTime (by simp)

theorem execRefillDone_keepsTime (s : State) (q : Nat) (bytes : List Nat) : KeepsTime s (execRefillDone q bytes s) :=
  guarded_keepsTime (by simp)

end Sys2Proof.Machine
end

section
/-! PROOFS. Only steps move the timescale (O57). -/

namespace Sys2Proof.Machine

/-- The rows that move the Device Timescale, or the clock below it: a step, the seeding, the start of the supplies, and a reset. -/
def Instr.movesTime : Instr → Bool
  | .timescaleStep => true
  | .timescaleSeed => true
  | .resetNLow => true
  | .supplyBelowThreshold _ => true
  | .suppliesGood _ => true
  | _ => false

/-- Every other row keeps the timeline: the meaning of each does. -/
theorem exec_keepsTime (s : State) : ∀ c : Instr, Instr.movesTime c = false → KeepsTime s (exec c s)
  | .registerWrite .., _ => execRegisterWrite_keepsTime s _ _ _ _
  | .stagedWordWrite .., _ => execStagedWordWrite_keepsTime s _ _ _ _
  | .latchingRead .., _ => execLatchingRead_keepsTime s _ _ _
  | .badAccess .., _ => execBadAccess_keepsTime s _ _ _
  | .bar2Write .., _ => execBar2Write_keepsTime s _ _
  | .spiTransaction .., _ => execSpiTransaction_keepsTime s _ _ _ _
  | .i2cTransaction .., _ => execI2cTransaction_keepsTime s _ _ _
  | .go .., _ => execGo_keepsTime s _ _ _ _
  | .commitAbort .., _ => execCommitAbort_keepsTime s _ _ _ _
  | .commitModeChange .., _ => execCommitModeChange_keepsTime s _ _ _ _
  | .shadowCommit .., _ => execShadowCommit_keepsTime s _ _
  | .cgArm .., _ => execCgArm_keepsTime s _ _
  | .cgDisarm .., _ => execCgDisarm_keepsTime s _ _
  | .cgFire .., _ => execCgFire_keepsTime s _
  | .windowBind .., _ => execWindowBind_keepsTime s _ _ _
  | .ownerWrite .., _ => execOwnerWrite_keepsTime s _ _ _
  | .claim .., _ => execClaim_keepsTime s _ _
  | .release .., _ => execRelease_keepsTime s _ _
  | .query .., _ => execQuery_keepsTime s _ _ _
  | .forceRelease .., _ => execForceRelease_keepsTime s _ _ _
  | .leasePeriodWrite .., _ => execLeasePeriodWrite_keepsTime s _ _ _
  | .kick .., _ => execKick_keepsTime s _ _ _
  | .leaseExpiry .., _ => execLeaseExpiry_keepsTime s _
  | .ringEnable .., _ => execRingEnable_keepsTime s _ _ _
  | .ringDisable .., _ => execRingDisable_keepsTime s _ _ _
  | .ringCfgWrite .., _ => execRingCfgWrite_keepsTime s _ _ _
  | .doorbell .., _ => execDoorbell_keepsTime s _ _ _
  | .ringDmaError .., _ => execRingDmaError_keepsTime s _
  | .commandWrite32 .., _ => execCommandWrite32_keepsTime s _ _ _ _ _
  | .commandRead32 .., _ => execCommandRead32_keepsTime s _ _ _ _
  | .commandWrite128 .., _ => execCommandWrite128_keepsTime s _ _ _ _ _
  | .commandRead128 .., _ => execCommandRead128_keepsTime s _ _ _ _
  | .fence .., _ => execFence_keepsTime s _ _
  | .leaseKick .., _ => execLeaseKick_keepsTime s _ _
  | .commandNop .., _ => execCommandNop_keepsTime s _ _
  | .modTimeExpiry .., _ => execModTimeExpiry_keepsTime s _
  | .freeze .., _ => execFreeze_keepsTime s _
  | .snapshotRelease .., _ => execSnapshotRelease_keepsTime s _
  | .edgeIssue .., _ => execEdgeIssue_keepsTime s _
  | .edgeLaunch .., _ => execEdgeLaunch_keepsTime s _
  | .calVisitEnd .., _ => execCalVisitEnd_keepsTime s _ _
  | .sweepStart .., _ => execSweepStart_keepsTime s _ _
  | .sweepDone .., _ => execSweepDone_keepsTime s _ _
  | .tableSetExchange .., _ => execTableSetExchange_keepsTime s _ _
  | .swapArm .., _ => execSwapArm_keepsTime s _ _ _
  | .swapVerify .., _ => execSwapVerify_keepsTime s _ _
  | .swapSwitch .., _ => execSwapSwitch_keepsTime s _
  | .swapDone .., _ => execSwapDone_keepsTime s _
  | .failedLaneRemap .., _ => execFailedLaneRemap_keepsTime s _
  | .swapLane .., _ => execSwapLane_keepsTime s _ _ _
  | .resweepSpare .., _ => execResweepSpare_keepsTime s _ _
  | .retest .., _ => execRetest_keepsTime s _ _ _
  | .retestDone .., _ => execRetestDone_keepsTime s _ _
  | .tdcFault .., _ => execTdcFault_keepsTime s _
  | .engineTableEcc .., _ => execEngineTableEcc_keepsTime s _ _ _
  | .driverFault .., _ => execDriverFault_keepsTime s _ _
  | .loopEnable .., _ => execLoopEnable_keepsTime s _ _
  | .channelFlush .., _ => execChannelFlush_keepsTime s _ _
  | .channelSafeExit .., _ => execChannelSafeExit_keepsTime s _ _
  | .triggerLineEvent .., _ => execTriggerLineEvent_keepsTime s _
  | .tlSrcWrite .., _ => execTlSrcWrite_keepsTime s _ _ _
  | .tlShapeWrite .., _ => execTlShapeWrite_keepsTime s _ _ _
  | .fireNow .., _ => execFireNow_keepsTime s _ _
  | .fireAt .., _ => execFireAt_keepsTime s _ _
  | .start .., _ => execStart_keepsTime s _ _
  | .stopAtEnd .., _ => execStopAtEnd_keepsTime s _ _
  | .stopNow .., _ => execStopNow_keepsTime s _ _
  | .jump .., _ => execJump_keepsTime s _ _
  | .clearRequest .., _ => execClearRequest_keepsTime s _ _
  | .disarm .., _ => execDisarm_keepsTime s _ _
  | .seqDecision .., _ => execSeqDecision_keepsTime s _
  | .seqOccurrenceStart .., _ => execSeqOccurrenceStart_keepsTime s _
  | .seqCut .., _ => execSeqCut_keepsTime s _
  | .seqParkResume .., _ => execSeqParkResume_keepsTime s _
  | .seqStop .., _ => execSeqStop_keepsTime s _
  | .edgeHi .., _ => execEdgeHi_keepsTime s _
  | .edgeLo .., _ => execEdgeLo_keepsTime s _
  | .toggle .., _ => execToggle_keepsTime s _
  | .mark .., _ => execMark_keepsTime s _
  | .recordNop .., _ => execRecordNop_keepsTime s _
  | .recordEnd .., _ => execRecordEnd_keepsTime s _
  | .bankEcc .., _ => execBankEcc_keepsTime s _ _ _
  | .courseTableEcc .., _ => execCourseTableEcc_keepsTime s _ _
  | .refillSubmit .., _ => execRefillSubmit_keepsTime s _ _
  | .refillFlush .., _ => execRefillFlush_keepsTime s _ _
  | .refillDone .., _ => execRefillDone_keepsTime s _ _
  | .refillDmaError .., _ => execRefillDmaError_keepsTime s _
  | .readySet .., _ => execReadySet_keepsTime s _
  | .readyClear .., _ => execReadyClear_keepsTime s _
  | .validate .., _ => execValidate_keepsTime s _
  | .syncInEvent .., _ => execSyncInEvent_keepsTime s _ _ _
  | .syncOutPulse .., _ => execSyncOutPulse_keepsTime s _
  | .ppsPulse .., _ => execPpsPulse_keepsTime s _
  | .actionAccept .., _ => execActionAccept_keepsTime s _ _
  | .submit .., _ => execSubmit_keepsTime s _ _
  | .flush .., _ => execFlush_keepsTime s _ _
  | .queueSafeExit .., _ => execQueueSafeExit_keepsTime s _
  | .queueEcc .., _ => execQueueEcc_keepsTime s _ _
  | .tickEnable .., _ => execTickEnable_keepsTime s _ _ _
  | .tickDelivery .., _ => execTickDelivery_keepsTime s _
  | .phaseEnable .., _ => execPhaseEnable_keepsTime s _ _ _
  | .restart .., _ => execRestart_keepsTime s _ _
  | .phaseSourceLost .., _ => execPhaseSourceLost_keepsTime s _
  | .phaseConvert .., _ => execPhaseConvert_keepsTime s _
  | .inputCrossing .., _ => execInputCrossing_keepsTime s _ _
  | .inputResolved .., _ => execInputResolved_keepsTime s _ _
  | .stampReady .., _ => execStampReady_keepsTime s _ _
  | .fifoHandout .., _ => execFifoHandout_keepsTime s _
  | .injectedEvent .., _ => execInjectedEvent_keepsTime s _ _ _ _
  | .inputTableDone .., _ => execInputTableDone_keepsTime s _ _ _
  | .calStale .., _ => execCalStale_keepsTime s _ _
  | .recal .., _ => execRecal_keepsTime s _ _
  | .inputTableEcc .., _ => execInputTableEcc_keepsTime s _ _ _
  | .sessionEnable .., _ => execSessionEnable_keepsTime s _ _ _
  | .gateEnable .., _ => execGateEnable_keepsTime s _ _ _
  | .arm .., _ => execArm_keepsTime s _ _
  | .sessionAbort .., _ => execSessionAbort_keepsTime s _ _
  | .gateStart .., _ => execGateStart_keepsTime s _ _
  | .intakeDrain .., _ => execIntakeDrain_keepsTime s _
  | .sessionTimeout .., _ => execSessionTimeout_keepsTime s _
  | .gateEnd .., _ => execGateEnd_keepsTime s _
  | .tdcEngineEcc .., _ => execTdcEngineEcc_keepsTime s _ _
  | .streamPeriodicBase .., _ => execStreamPeriodicBase_keepsTime s _
  | .streamBatchWrite .., _ => execStreamBatchWrite_keepsTime s _
  | .streamResume .., _ => execStreamResume_keepsTime s _
  | .apllLockWindow .., _ => execApllLockWindow_keepsTime s _ _
  | .xoUpdate .., _ => execXoUpdate_keepsTime s _
  | .ageingFit .., _ => execAgeingFit_keepsTime s _
  | .refEnable .., _ => execRefEnable_keepsTime s _ _ _
  | .refObservation .., _ => execRefObservation_keepsTime s _
  | .refPresenceFail .., _ => execRefPresenceFail_keepsTime s _
  | .push .., _ => execPush_keepsTime s _ _
  | .acceptSlew .., _ => execAcceptSlew_keepsTime s _ _
  | .acceptStep .., _ => execAcceptStep_keepsTime s _ _
  | .reject .., _ => execReject_keepsTime s _ _
  | .clearSuspect .., _ => execClearSuspect_keepsTime s _ _
  | .requalify .., _ => execRequalify_keepsTime s _ _
  | .servoModeWrite .., _ => execServoModeWrite_keepsTime s _ _
  | .step .., _ => execStep_keepsTime s _
  | .stepProposed .., _ => execStepProposed_keepsTime s _
  | .slewProposed .., _ => execSlewProposed_keepsTime s _
  | .apllAEnable .., _ => execApllAEnable_keepsTime s _ _
  | .freqCmdSet .., _ => execFreqCmdSet_keepsTime s _
  | .runProfile .., _ => execRunProfile_keepsTime s _
  | .abortRamp .., _ => execAbortRamp_keepsTime s _
  | .relock .., _ => execRelock_keepsTime s _
  | .auxEnable .., _ => execAuxEnable_keepsTime s _ _ _
  | .auxPeriodEnd .., _ => execAuxPeriodEnd_keepsTime s _
  | .auxSafeExit .., _ => execAuxSafeExit_keepsTime s _ _
  | .switch .., _ => execSwitch_keepsTime s _
  | .pathAccept .., _ => execPathAccept_keepsTime s _
  | .pathClear .., _ => execPathClear_keepsTime s _
  | .ridgeSlotTx .., _ => execRidgeSlotTx_keepsTime s _
  | .ridgeBlockLock .., _ => execRidgeBlockLock_keepsTime s _
  | .timeCellRx .., _ => execTimeCellRx_keepsTime s _ _
  | .trigCellRx .., _ => execTrigCellRx_keepsTime s _ _
  | .mgmtRequestRx .., _ => execMgmtRequestRx_keepsTime s _ _
  | .mgmtResponseRx .., _ => execMgmtResponseRx_keepsTime s _ _
  | .fillCellRx .., _ => execFillCellRx_keepsTime s _
  | .ridgeLinkLost .., _ => execRidgeLinkLost_keepsTime s _
  | .ridgeObsInterval .., _ => execRidgeObsInterval_keepsTime s _
  | .issue .., _ => execIssue_keepsTime s _ _
  | .mgmtRead32 .., _ => execMgmtRead32_keepsTime s _ _
  | .mgmtWrite32 .., _ => execMgmtWrite32_keepsTime s _ _
  | .mgmtRead128 .., _ => execMgmtRead128_keepsTime s _ _
  | .mgmtWrite128 .., _ => execMgmtWrite128_keepsTime s _ _
  | .ethDoorbell .., _ => execEthDoorbell_keepsTime s _ _ _ _
  | .ethFrameTx .., _ => execEthFrameTx_keepsTime s _ _
  | .ethFrameRx .., _ => execEthFrameRx_keepsTime s _ _
  | .ethTxStamp .., _ => execEthTxStamp_keepsTime s _ _
  | .ethLinkChange .., _ => execEthLinkChange_keepsTime s _ _
  | .eaveSwitchover .., _ => execEaveSwitchover_keepsTime s _
  | .calCmdSet .., _ => execCalCmdSet_keepsTime s _
  | .syncNow .., _ => execSyncNow_keepsTime s _
  | .invalidate .., _ => execInvalidate_keepsTime s _
  | .trimRenew .., _ => execTrimRenew_keepsTime s _
  | .monitorTick .., _ => execMonitorTick_keepsTime s _
  | .pwrOn .., _ => execPwrOn_keepsTime s _
  | .pwrOff .., _ => execPwrOff_keepsTime s _
  | .alertSet .., _ => execAlertSet_keepsTime s _
  | .alertClr .., _ => execAlertClr_keepsTime s _
  | .wakeEdge .., _ => execWakeEdge_keepsTime s _
  | .logClear .., _ => execLogClear_keepsTime s _
  | .lineFault .., _ => execLineFault_keepsTime s _
  | .errInject .., _ => execErrInject_keepsTime s _ _ _
  | .inject .., _ => execInject_keepsTime s _ _ _
  | .clearPair .., _ => execClearPair_keepsTime s _
  | .enterSafe .., _ => execEnterSafe_keepsTime s _
  | .reinit .., _ => execReinit_keepsTime s _
  | .deviceSafeExit .., _ => execDeviceSafeExit_keepsTime s _
  | .firstFaultClear .., _ => execFirstFaultClear_keepsTime s _
  | .gutterStorageEcc .., _ => execGutterStorageEcc_keepsTime s _
  | .suppliesGood .., h => Bool.noConfusion h
  | .supplyBelowThreshold .., h => Bool.noConfusion h
  | .supplyOutOfRange .., _ => execSupplyOutOfRange_keepsTime s _
  | .deviceReset .., _ => execDeviceReset_keepsTime s _
  | .stage1Entry .., _ => execStage1Entry_keepsTime s _
  | .begin .., _ => execBegin_keepsTime s _
  | .writeWindow .., _ => execWriteWindow_keepsTime s _
  | .dmaWrite .., _ => execDmaWrite_keepsTime s _ _
  | .finish .., _ => execFinish_keepsTime s _ _
  | .activate .., _ => execActivate_keepsTime s _
  | .activateAtReset .., _ => execActivateAtReset_keepsTime s _
  | .confirm .., _ => execConfirm_keepsTime s _
  | .revert .., _ => execRevert_keepsTime s _
  | .flAbort .., _ => execFlAbort_keepsTime s _
  | .loadManifest .., _ => execLoadManifest_keepsTime s _
  | .clearManifest .., _ => execClearManifest_keepsTime s _
  | .readLog .., _ => execReadLog_keepsTime s _
  | .installKey .., _ => execInstallKey_keepsTime s _
  | .ownerEnroll .., _ => execOwnerEnroll_keepsTime s _
  | .copyBlockDone .., _ => execCopyBlockDone_keepsTime s _
  | .copyDone .., _ => execCopyDone_keepsTime s _
  | .microcodeBankSwap .., _ => execMicrocodeBankSwap_keepsTime s _
  | .cellDrop .., _ => execCellDrop_keepsTime s _ _
  | .configurationRequest .., _ => execConfigurationRequest_keepsTime s _
  | .boundaryScan .., _ => execBoundaryScan_keepsTime s _
  | .perstNAssert, _ => execPerstNAssert_keepsTime s
  | .d3hotEntry, _ => execD3hotEntry_keepsTime s
  | .yTakesEffect, _ => execYTakesEffect_keepsTime s
  | .timescaleStep, h => Bool.noConfusion h
  | .leapApply, _ => execLeapApply_keepsTime s
  | .snapshotTimeout, _ => execSnapshotTimeout_keepsTime s
  | .busEcc, _ => execBusEcc_keepsTime s
  | .actionDispatch, _ => execActionDispatch_keepsTime s
  | .actionNop, _ => execActionNop_keepsTime s
  | .chanHi, _ => execChanHi_keepsTime s
  | .chanLo, _ => execChanLo_keepsTime s
  | .chanToggle, _ => execChanToggle_keepsTime s
  | .chanPulse, _ => execChanPulse_keepsTime s
  | .fireLine, _ => execFireLine_keepsTime s
  | .seqStart, _ => execSeqStart_keepsTime s
  | .seqJump, _ => execSeqJump_keepsTime s
  | .seqStopAtEnd, _ => execSeqStopAtEnd_keepsTime s
  | .seqStopNow, _ => execSeqStopNow_keepsTime s
  | .measArm, _ => execMeasArm_keepsTime s
  | .regWrite32, _ => execRegWrite32_keepsTime s
  | .notify, _ => execNotify_keepsTime s
  | .timescaleSeed, h => Bool.noConfusion h
  | .ovenStable, _ => execOvenStable_keepsTime s
  | .ovenFault, _ => execOvenFault_keepsTime s
  | .xtalFault, _ => execXtalFault_keepsTime s
  | .slewEnd, _ => execSlewEnd_keepsTime s
  | .rampEnd, _ => execRampEnd_keepsTime s
  | .profileDone, _ => execProfileDone_keepsTime s
  | .sscChange, _ => execSscChange_keepsTime s
  | .threshCrossing, _ => execThreshCrossing_keepsTime s
  | .tebReport, _ => execTebReport_keepsTime s
  | .traceExpiry, _ => execTraceExpiry_keepsTime s
  | .mgmtTimeout, _ => execMgmtTimeout_keepsTime s
  | .eavePor, _ => execEavePor_keepsTime s
  | .xt32Fault, _ => execXt32Fault_keepsTime s
  | .eaveLeap, _ => execEaveLeap_keepsTime s
  | .calendarSync, _ => execCalendarSync_keepsTime s
  | .test, _ => execTest_keepsTime s
  | .and, _ => execAnd_keepsTime s
  | .or, _ => execOr_keepsTime s
  | .setf, _ => execSetf_keepsTime s
  | .jmp, _ => execJmp_keepsTime s
  | .cnt, _ => execCnt_keepsTime s
  | .cmp, _ => execCmp_keepsTime s
  | .outPwrOn, _ => execOutPwrOn_keepsTime s
  | .outPwrOff, _ => execOutPwrOff_keepsTime s
  | .outAlertSet, _ => execOutAlertSet_keepsTime s
  | .outAlertClr, _ => execOutAlertClr_keepsTime s
  | .log, _ => execLog_keepsTime s
  | .clrl, _ => execClrl_keepsTime s
  | .progEnd, _ => execProgEnd_keepsTime s
  | .programMemoryEcc, _ => execProgramMemoryEcc_keepsTime s
  | .pwrDownDelayExpiry, _ => execPwrDownDelayExpiry_keepsTime s
  | .alarm, _ => execAlarm_keepsTime s
  | .faultCollect, _ => execFaultCollect_keepsTime s
  | .injectionHoldEnd, _ => execInjectionHoldEnd_keepsTime s
  | .pairSenseFault, _ => execPairSenseFault_keepsTime s
  | .resetNLow, h => Bool.noConfusion h
  | .dieHot, _ => execDieHot_keepsTime s
  | .dieCritical, _ => execDieCritical_keepsTime s
  | .sclkMonitor, _ => execSclkMonitor_keepsTime s
  | .mgmtWatchdogMiss, _ => execMgmtWatchdogMiss_keepsTime s
  | .stage2Entry, _ => execStage2Entry_keepsTime s
  | .stage3Entry, _ => execStage3Entry_keepsTime s
  | .pcieLinkTraining, _ => execPcieLinkTraining_keepsTime s
  | .flashDmaError, _ => execFlashDmaError_keepsTime s
  | .mgmtRestartDone, _ => execMgmtRestartDone_keepsTime s
  | .restartTimeout, _ => execRestartTimeout_keepsTime s
  | .trialHealthy, _ => execTrialHealthy_keepsTime s
  | .trialWindowExpiry, _ => execTrialWindowExpiry_keepsTime s
  | .sramUncorr, _ => execSramUncorr_keepsTime s

theorem State.now32_eq_timeline (s : State) : s.now32 = s.clk.timeline.2.2 := rfl

/-- Settles O57: every row but those named keeps the timeline of the present edge. A new y moves no instant of its own edge, since the mapping
is anchored there anew. -/
theorem onlyStepsMoveTheTimescale : Obligations.OnlyStepsMoveTheTimescale := by
  intro c s t h hstep hseed hreset hsupply hgood
  have hstays : Instr.movesTime c = false := by
    unfold Instr.movesTime
    split <;> simp_all
  rw [State.now32_eq_timeline, State.now32_eq_timeline, exec_keepsTime s c hstays t h]

end Sys2Proof.Machine
end

section
/-! SUPPORT. The tick of the Eave leaves the supplies. -/

namespace Sys2Proof.Machine

@[simp] theorem power_ite {c : Prop} {_ : Decidable c} (s t : State) : (if c then s else t).power = if c then s.power else t.power := apply_ite ..

@[simp] theorem State.putFlag_power (s : State) (p : Nat) (f : Fld) (b : Bool) : (s.putFlag p f b).power = s.power := by simp [State.putFlag]

@[simp] theorem State.wrN_power (s : State) (p o n v : Nat) : (s.wrN p o n v).power = s.power := by
  induction n generalizing s o v with
  | zero => rfl
  | succ n ih => exact ih _ _ _

@[simp] theorem State.irq_power (s : State) (p bit : Nat) : (s.irq p bit).power = s.power := by
  unfold State.irq State.sendMsix
  dsimp only
  (repeat' split) <;> simp

@[simp] theorem State.eaveLog_power (s : State) (code data : Nat) : (s.eaveLog code data).power = s.power := by simp [State.eaveLog]

@[simp] theorem State.setPwr_power (s : State) (high : Bool) (cause : Nat) : (s.setPwr high cause).power = s.power := by simp [State.setPwr]

@[simp] theorem State.pwrOffNow_power (s : State) (cause : Nat) : (s.pwrOffNow cause).power = s.power := by
  simp [State.pwrOffNow, State.pwrOffDelayed]

@[simp] theorem State.eaveCmd_power (s : State) (c : EaveCmd) : (s.eaveCmd c).power = s.power := by
  cases c <;> simp [State.eaveCmd, State.setCalUnc]

@[simp] theorem State.countEdge_power (s : State) : s.countEdge.power = s.power :=
  (foldl_keeps (fun u : State => u.power = s.power) _ (fun u c hu => (State.eaveCmd_power u c).trans hu) s.eave.cmds _ (by simp [State.loadCal]))

@[simp] theorem State.eaveTick_power (s : State) : s.eaveTick.power = s.power := by simp [State.eaveTick]

@[simp] theorem State.apllaSlot_power (s : State) : s.apllaSlot.power = s.power := by simp [State.apllaSlot]

end Sys2Proof.Machine
end

section
/-! PROOFS. What an empty queue brings (O2). -/

namespace Sys2Proof.Machine

/-! ### One slot -/

/-- A reset that is due is so by the supplies and the clock alone. -/
theorem State.resetDue_congr {s t : State} (hp : s.power = t.power) (hc : s.clk = t.clk) : s.resetDue = t.resetDue := by
  simp only [State.resetDue, hp, hc]

theorem State.clockEdge_clk_congr {s t : State} (hc : s.clk = t.clk) : s.clockEdge.clk = t.clockEdge.clk := by
  simp only [State.clockEdge, State.now32, hc]

/-- The Eave's tick and the clock's edge answer the same reset in either order. -/
theorem State.resetDue_clockEdge_eaveTick (s : State) : s.apllaSlot.clockEdge.eaveTick.resetDue = s.eaveTick.apllaSlot.clockEdge.resetDue := by
  have hpower : s.apllaSlot.clockEdge.power = s.apllaSlot.power := rfl
  have hpower' : s.eaveTick.apllaSlot.clockEdge.power = s.eaveTick.apllaSlot.power := rfl
  refine State.resetDue_congr ?_ ?_
  · rw [State.eaveTick_power, hpower, hpower', State.apllaSlot_power, State.apllaSlot_power, State.eaveTick_power]
  · rw [State.eaveTick_clk]
    exact State.clockEdge_clk_congr (by simp)

/-- A slot of the core in which no reset is due. -/
def State.openSlot (s : State) : State :=
  (s.apllaSlot.clockEdge.eaveTick.freezeEdge.eaveSecond.hostFiresDue.measSlot.syncSlot.utcSlot.flashSlot).forEach (List.range 12) fun q s => s.quadSlot q

theorem State.coreSlot_of_no_reset {s : State} (h : s.eaveTick.apllaSlot.clockEdge.resetDue = false) : s.coreSlot = s.openSlot := by
  unfold State.coreSlot
  simp only [s.resetDue_clockEdge_eaveTick, h]
  rfl

/-- What such a slot does to the clock is its edge. -/
theorem State.openSlot_clk (s : State) : s.openSlot.clk = s.apllaSlot.clockEdge.clk := by
  refine (State.forEach_clk _ _ _ fun q u v hv => hv ▸ State.quadSlot_clk ..).trans ?_
  rw [State.flashSlot_clk, State.utcSlot_clk, State.syncSlot_clk, State.measSlot_clk, State.hostFiresDue_clk, State.eaveSecond_clk,
    State.freezeEdge_clk, State.eaveTick_clk]

/-- Such a slot leaves BAR2 and the queue. -/
theorem State.openSlot_holds {B : List Host.Cell} {L : List Instr} {s : State} (hs : s.holds B L) : s.openSlot.holds B L := by
  have hedge := State.eaveTick_holds (State.clockEdge_holds (State.apllaSlot_holds hs))
  have hhost := State.hostFiresDue_holds (State.eaveSecond_holds (State.freezeEdge_holds hedge))
  have hrest := State.flashSlot_holds (State.utcSlot_holds (State.syncSlot_holds (State.measSlot_holds hhost)))
  exact State.forEach_holds hrest _ _ fun q u hu => State.quadSlot_holds hu q

/-! ### The empty queue -/

theorem step_of_empty {s : State} (h : s.pending = []) : step s = s.emptyQueue := by
  unfold step
  simp only [h]

theorem State.emptyQueue_of_due {s : State} (h : s.due ≠ []) : s.emptyQueue = .next { s with pending := s.due } := by
  unfold State.emptyQueue
  split
  · next hnone => exact absurd hnone h
  · rfl

theorem State.emptyQueue_of_not_due {s : State} (h : s.due = []) : s.emptyQueue = s.passSlot := by
  unfold State.emptyQueue
  simp only [h]

/-- Settles O2: what is due enters the queue; a slot that passes moves the slot by one and the count by eight, and after its edge nothing
touches the clock or the queue. -/
theorem emptyQueueBringsWhatIsDue : Obligations.EmptyQueueBringsWhatIsDue := by
  intro s hempty
  rw [step_of_empty hempty]
  refine ⟨State.emptyQueue_of_due, fun hnone hrun hwrap => ?_, fun hnone hgood hreset hroom => ?_⟩
  · rw [State.emptyQueue_of_not_due hnone]
    exact if_pos ⟨hrun, hwrap⟩
  · have hpass : s.passSlot = .next s.openSlot := by
      unfold State.passSlot
      rw [if_neg (fun h => Nat.not_le.2 hroom h.2), if_pos hgood, State.coreSlot_of_no_reset hreset]
    have hclk := s.openSlot_clk
    refine ⟨s.openSlot, (State.emptyQueue_of_not_due hnone).trans hpass, ?_, ?_, (State.openSlot_holds (State.holds_self s)).2.trans hempty⟩
    · rw [hclk]
      simp [State.clockEdge]
    · rw [hclk]
      simp [State.clockEdge]

end Sys2Proof.Machine
end

section
/-! SUPPORT. Bits of masks: a bit cleared, a bit of two masks together, the bits that a list sets. -/

namespace Sys2Proof.Machine

theorem sub_and_eq_ldiff (a b : Nat) : a - (a &&& b) = Nat.ldiff a b := by
  induction a using Nat.binaryRec generalizing b with
  | zero => exact Nat.eq_of_testBit_eq fun i => by simp [Nat.testBit_ldiff]
  | bit x m ih =>
    obtain ⟨y, n, rfl⟩ : ∃ y n, b = Nat.bit y n := ⟨b.bodd, b.div2, (Nat.bit_bodd_div2 b).symm⟩
    have hle : m &&& n ≤ m := Nat.and_le_left
    rw [Nat.land_bit, Nat.ldiff_bit, ← ih n]
    cases x <;> cases y <;> simp [Nat.bit_val] <;> omega

theorem bitOf_clearBits (a b i : Nat) : bitOf (clearBits a b) i = (bitOf a i && !bitOf b i) := by
  have h : clearBits a b = Nat.ldiff a b := sub_and_eq_ldiff a b
  rw [h, bitOf_eq_testBit, bitOf_eq_testBit, bitOf_eq_testBit, Nat.testBit_ldiff]

theorem bitOf_lor (a b i : Nat) : bitOf (Nat.lor a b) i = (bitOf a i || bitOf b i) := by
  rw [bitOf_eq_testBit, bitOf_eq_testBit, bitOf_eq_testBit]
  exact Nat.testBit_or a b i

theorem bitOf_mod (n : Nat) {i w : Nat} (h : i < w) : bitOf (n % 2 ^ w) i = bitOf n i := by
  rw [bitOf_eq_testBit, bitOf_eq_testBit, Nat.testBit_mod_two_pow]
  simp [h]

theorem bitOf_bitsOf (n : Nat) {hi lo i : Nat} (h : i < hi + 1 - lo) : bitOf (bitsOf n hi lo) i = bitOf n (lo + i) := by
  rw [bitOf_eq_testBit, bitOf_eq_testBit, testBit_bitsOf]
  simp [h]

theorem bitOf_putBits_ne (n : Nat) {hi lo i : Nat} (v : Nat) (h : lo ≤ hi) (hi' : i < lo ∨ hi < i) : bitOf (putBits n hi lo v) i = bitOf n i := by
  rw [bitOf_eq_testBit, bitOf_eq_testBit, testBit_putBits _ _ _ _ _ h]
  rcases hi' with h' | h'
  · simp [h']
  · simp [Nat.not_lt.2 (h.trans h'.le), Nat.not_le.2 h']

theorem bitOf_foldl_setBit (l : List Nat) (n i : Nat) : bitOf (l.foldl setBit n) i = (bitOf n i || decide (i ∈ l)) := by
  induction l generalizing n with
  | nil => simp
  | cons k l ih =>
    rw [List.foldl_cons, ih, bitOf_eq_testBit, bitOf_eq_testBit, testBit_setBit]
    by_cases h : i = k <;> simp [h]

theorem bitsOf_setBit_ne (n : Nat) {k hi lo : Nat} (h : hi < k ∨ k < lo) : bitsOf (setBit n k) hi lo = bitsOf n hi lo := by
  rw [setBit_eq_putBits]
  exact bitsOf_putBits_ne _ _ _ _ _ _ (Nat.le_refl k) (by omega)

end Sys2Proof.Machine
end

section
/-! SUPPORT. A write of a register of one word that passes and is accepted: what the registers, the shadows and LAST_CMD show then. -/

namespace Sys2Proof.Machine

/-! ### Registers apart -/

theorem State.rd_put_ne (s : State) {p q r : Nat} {f : Fld} (v : Nat) (hf : OneWord f) (hr : r < 4096) (h : q ≠ p ∨ r ≠ f.off) :
    (s.put p f v).rd q r = s.rd q r := by
  simp only [State.put, hf.2.1, if_true]
  exact State.rd_wr_ne _ _ _ _ _ _ hf.2.2 hr h

/-- A word after a field of it has been put. -/
theorem State.rd_put_self (s : State) (p : Nat) {f : Fld} (v : Nat) (hf : OneWord f) :
    ((s.put p f v).rd p f.off).toNat = putBits (s.rd p f.off).toNat f.hi f.lo v % 2 ^ 32 := by
  simp only [State.put, hf.2.1, if_true, State.rd_wr_self, BitVec.toNat_ofNat]

/-- A bit outside the field that is put stands. -/
theorem State.bitOf_rd_put (s : State) (p : Nat) {f : Fld} (v : Nat) {i : Nat} (hf : OneWord f) (hi : i < 32) (h : i < f.lo ∨ f.hi < i) :
    bitOf ((s.put p f v).rd p f.off).toNat i = bitOf (s.rd p f.off).toNat i := by
  rw [State.rd_put_self _ _ _ hf, bitOf_mod _ hi, bitOf_putBits_ne _ _ hf.1 h]

/-! ### The report of an accepted write -/

/-- The state after an accepted write of a word at `off`: what was staged is used up, and LAST_CMD reports OK. -/
def State.reported (t : State) (path : Path) (page off base agent : Nat) : State :=
  (t.unstage path page base 1).lastCmd path page off agent 0 ⟨.ok, none⟩

section
variable (t : State) (path : Path) (page off base agent : Nat)

theorem State.reported_regs : ∃ w : Nat, (t.reported path page off base agent).regs = (t.wr page 0x02C (BitVec.ofNat 32 w)).regs ∧
    bitsOf w 15 12 = 0 := by
  unfold State.reported State.lastCmd
  simp only [reduceCtorEq, or_self, false_and, if_false]
  refine ⟨_, rfl, ?_⟩
  simp only [packRec, List.foldl, bitsOf, Res.code]
  omega

theorem State.reported_result : (t.reported path page off base agent).result page = 0 := by
  obtain ⟨w, hregs, hw⟩ := t.reported_regs path page off base agent
  rw [State.result, State.rd_of_regs hregs, State.rd_wr_self, BitVec.toNat_ofNat, bitsOf_mod _ _ _ _ (by decide), hw]

theorem State.rd_reported {p o : Nat} (ho : o < 4096) (h : p ≠ page ∨ o ≠ 0x02C) : (t.reported path page off base agent).rd p o = t.rd p o := by
  obtain ⟨w, hregs, -⟩ := t.reported_regs path page off base agent
  rw [State.rd_of_regs hregs]
  exact State.rd_wr_ne _ _ _ _ _ _ (by decide) ho h

theorem State.reported_shadow : (t.reported path page off base agent).host.shadow = t.host.shadow := by
  simp [State.reported, State.lastCmd, State.unstage]

theorem State.reported_goNext : (t.reported path page off base agent).host.goNext = t.host.goNext := by
  simp [State.reported, State.lastCmd, State.unstage]

theorem State.reported_goGroup : (t.reported path page off base agent).host.goGroup = t.host.goGroup := by
  simp [State.reported, State.lastCmd, State.unstage]

theorem State.reported_holds {B : List Host.Cell} {L : List Instr} (ht : t.holds B L) : (t.reported path page off base agent).holds B L :=
  State.lastCmd_holds (State.unstage_holds ht _ _ _ _) _ _ _ _ _ _

end

/-- A field of one word reads through the report of a write that is not of LAST_CMD. -/
theorem State.get_reported (t : State) (path : Path) (page off base agent : Nat) {p : Nat} {f : Fld} (hf : OneWord f)
    (h : p ≠ page ∨ f.off ≠ 0x02C) : (t.reported path page off base agent).get p f = t.get p f := by
  simp only [State.get, hf.2.1, if_true, State.rd_reported _ _ _ _ _ _ hf.2.2 h]

/-- A state that holds the bytes of BAR2 of another reads them as it does. -/
theorem KeepsMemory.of_holds {s t : State} {L : List Instr} (h : t.holds s.bar2 L) : KeepsMemory s t := fun a => by
  simp only [State.memByte, h.1]

/-! ### From the write to its report -/

/-- The context of a write of a whole register. -/
def State.wctx (s : State) (path : Path) (page i : Nat) (d : RegDesc) (j v : Nat) : WCtx :=
  ⟨path, s.agentOf path, s.adminOf path, page, i, d.at_ j, v⟩

section
variable {s t : State} {path : Path} {page off v i j : Nat} {k : Kind} {d : RegDesc}

/-- A write that passes is judged by its value alone. -/
theorem State.judge_of_passes (hreg : regAt page off = some (k, i, d, j, 0)) (hwords : d.words = 1) (hpass : s.passes path page off v = true)
    (x : Extra) (hw : s.writeReg (s.wctx path page i d j v) k d j x = accept t) :
    s.judge_ path page off v x = (t.unstage path page (d.at_ j) 1, ⟨.ok, none⟩) := by
  simp only [State.passes, hreg, hwords, Bool.and_eq_true, Bool.not_eq_true', decide_eq_true_eq, Option.isNone_iff_eq_none, if_true] at hpass
  obtain ⟨⟨⟨⟨-, -⟩, hbar⟩, hlow, haligned, -⟩, ⟨⟨⟨hrefuses, hinert⟩, hdenies⟩, hlocked⟩, hbusy⟩ := hpass
  have hoff : ¬(0x800 ≤ off ∨ off % 4 ≠ 0) := by omega
  have hmeaning : s.writeReg ⟨path, s.agentOf path, s.adminOf path, page, i, d.at_ j, v⟩ k d j x = accept t := hw
  have hword : s.writeWord path page off v k i d j 0 x = (t.unstage path page (d.at_ j) 1, ⟨.ok, none⟩) := by
    unfold State.writeWord
    simp only [hwords, if_true, hinert, hdenies, hlocked, hbusy, hmeaning, Nat.zero_add, beq_self_eq_true, Bool.not_true, Bool.false_eq_true,
      if_false, accept]
  simp only [State.judge_, hbar, hoff, hreg, hrefuses, hword, Bool.false_eq_true, if_false]

/-- A write that passes and is accepted leaves what the register's meaning leaves, reported as OK. -/
theorem State.wrote_of_accepted (hreg : regAt page off = some (k, i, d, j, 0)) (hwords : d.words = 1) (hcmd : d.isCmd = false)
    (hpass : s.passes path page off v = true)
    (hw : ∀ x, s.writeReg (s.wctx path page i d j v) k d j x = accept t) :
    s.wrote path page off v = t.reported path page off (d.at_ j) (s.agentOf path) := by
  have hsome := hpass
  simp only [State.passes, Bool.and_eq_true, decide_eq_true_eq] at hsome
  obtain ⟨⟨⟨⟨hreach, hblock⟩, -⟩, hlow, -, hlast⟩, -⟩ := hsome
  have hgone : ¬((pageBlock page).isNone = true ∨ off = 0x02C) := by
    simpa [hlast, Option.isNone_iff_eq_none, Option.isSome_iff_ne_none] using hblock
  have hcode : codeAt page off v = 0 := by simp [codeAt, hreg, RegDesc.codeOf, hcmd]
  have hnote : ∀ u : State, u.noteAt path page off v = u := fun u => by simp [State.noteAt, hreg, hcmd]
  simp only [State.wrote, State.hostWrite, State.hostWrite_, hreach, Bool.not_true, Bool.false_eq_true, if_false, hgone,
    State.judge_of_passes hreg hwords hpass _ (hw _), hnote, hcode]
  rfl

end

/-- A command that writes a register is accepted once its write is. -/
theorem Accepts.of_wrote {c : Instr} {s t : State} {path : Path} {page off base v : Nat} {P : State → Prop}
    (hexec : c.wf = true → exec c s = .next (s.wrote path page off v))
    (hw : s.passes path page off v = true → valueOk page off v = true → s.wrote path page off v = t.reported path page off base (s.agentOf path))
    (hP : s.passes path page off v = true → P (t.reported path page off base (s.agentOf path))) : Accepts c s path page off v P := by
  intro hwf hpass hval
  refine .of_exec (hexec hwf) ?_
  rw [hw hpass hval]
  exact ⟨State.reported_result .., hP hpass⟩

end Sys2Proof.Machine
end

section
/-! SUPPORT. COMMIT_CTL of a commit context (O10): where it stands in the tables, and what a write of it does. -/

namespace Sys2Proof.Machine

/-! ### The register -/

/-- The fields of COMMIT_CTL. -/
def commitCtlFields : List FieldDesc := [⟨9, 9, .ro, 0⟩, ⟨8, 8, .ro, 0⟩, ⟨5, 5, .w1s, 0⟩, ⟨4, 4, .w1s, 0⟩, ⟨1, 0, .rw, 0⟩]

/-- COMMIT_CTL of a header. -/
def headerCommitCtl : RegDesc := ⟨0x030, 0, 1, 1, commitCtlFields⟩

/-- LANE_COMMIT_CTL of a QUAD page. -/
def laneCommitCtl : RegDesc := ⟨QUAD.LANE_COMMIT_CTL.off 0, 0x10, 4, 1, commitCtlFields⟩

theorem findReg_headerCommitCtl {k : Kind} (hk : k ≠ .quad) : findReg (kindRegs k) 0x030 = some (headerCommitCtl, 0, 0) := by
  cases k with
  | quad => exact absurd rfl hk
  | _ => rfl

theorem findReg_laneCommitCtl {lane : Nat} (h : lane < 4) : findReg (kindRegs .quad) (0x180 + 0x10 * lane) = some (laneCommitCtl, lane, 0) := by
  interval_cases lane <;> rfl

/-- A page of a quad is one of 16 to 27. -/
theorem pageBlock_quad {p : Nat} (h : 16 ≤ p ∧ p < 28) : pageBlock p = some (.quad, p - 16) := by
  obtain ⟨hlo, hhi⟩ := h
  interval_cases p <;> rfl

theorem pageBlock_pQUAD {q : Nat} (h : q < 12) : pageBlock (pQUAD q) = some (.quad, q) := by
  interval_cases q <;> rfl

theorem ctxOff_quad {p i lane : Nat} (h : pageBlock p = some (.quad, i)) : ctxOff p lane = 0x180 + 0x10 * lane := by
  simp only [ctxOff, h]

theorem ctxOff_header {p i lane : Nat} {k : Kind} (h : pageBlock p = some (k, i)) (hk : k ≠ .quad) : ctxOff p lane = 0x030 := by
  unfold ctxOff
  split
  · next hq => exact absurd (congrArg (·.1) (Option.some.inj (h.symm.trans hq))) hk
  · rfl

/-- The offsets of a context's commit registers lie inside a page, apart from LAST_CMD and from each other. -/
theorem ctxOff_bounds {p lane : Nat} (h : lane < 4) : 0x030 ≤ ctxOff p lane ∧ ctxOff p lane + 8 < 4096 := by
  unfold ctxOff
  split <;> omega

/-! ### A write of it -/

section
variable {s t : State} {path : Path} {page lane v : Nat}

/-- An accepted value of COMMIT_CTL reaches its meaning. -/
theorem State.writeReg_headerCommitCtl (c : WCtx) (k : Kind) (j : Nat) (x : Extra) (hres : headerCommitCtl.reserved c.v = false)
    (hfmt : formatOk k headerCommitCtl c.v = true) : s.writeReg c k headerCommitCtl j x = s.writeCommitCtl c 0 := by
  have hbase : headerCommitCtl.base < 0x040 := by decide
  simp only [State.writeReg, hres, hfmt, hbase, Bool.not_true, Bool.false_eq_true, or_self, if_false, if_true, State.writeHeader]
  simp [headerCommitCtl]

theorem State.writeReg_laneCommitCtl (c : WCtx) (j : Nat) (x : Extra) (hres : laneCommitCtl.reserved c.v = false)
    (hfmt : formatOk .quad laneCommitCtl c.v = true) (hrange : rangeOk .quad c.inst laneCommitCtl.base c.v = true) :
    s.writeReg c .quad laneCommitCtl j x = s.writeCommitCtl c j := by
  have hbase : ¬laneCommitCtl.base < 0x040 := by decide
  have hwin : perWindow .quad laneCommitCtl.base = false := by decide
  have hshd : laneCommitCtl.shd = false := by decide
  simp only [State.writeReg, hres, hfmt, hbase, hrange, Bool.not_true, Bool.false_eq_true, or_self, if_false, State.writeBody, hwin, hshd]
  simp [laneCommitCtl]

/-- A write of COMMIT_CTL that passes and whose value is valid leaves what it means, reported as OK. -/
theorem State.wrote_commitCtl (hlane : laneOk page lane = true)
    (hctl : ∀ c : WCtx, c.page = page → c.agent = s.agentOf path → c.v = v → s.writeCommitCtl c lane = accept t)
    (hpass : s.passes path page (ctxOff page lane) v = true) (hval : valueOk page (ctxOff page lane) v = true) :
    s.wrote path page (ctxOff page lane) v = t.reported path page (ctxOff page lane) (ctxOff page lane) (s.agentOf path) := by
  simp only [laneOk, Bool.and_eq_true, Bool.or_eq_true, decide_eq_true_eq, beq_iff_eq] at hlane
  obtain ⟨hlt, hwhere⟩ := hlane
  rcases hblock : pageBlock page with _ | ⟨k, i⟩
  · simp [valueOk, regAt, hblock] at hval
  · by_cases hk : k = .quad
    · subst hk
      have hoff := ctxOff_quad (lane := lane) hblock
      have hreg : regAt page (0x180 + 0x10 * lane) = some (.quad, i, laneCommitCtl, lane, 0) := by
        simp only [regAt, hblock, show 0x180 + 0x10 * lane - (0x180 + 0x10 * lane) % 4 = 0x180 + 0x10 * lane by omega, findReg_laneCommitCtl hlt]
      rw [hoff] at hpass hval ⊢
      have hbase : ¬laneCommitCtl.base < 0x040 := by decide
      simp only [valueOk, hreg, hbase, Bool.and_eq_true, Bool.or_eq_true, Bool.not_eq_true', decide_eq_true_eq, false_or] at hval
      obtain ⟨⟨⟨-, hres⟩, hfmt⟩, hrange⟩ := hval
      have hat : laneCommitCtl.at_ lane = 0x180 + 0x10 * lane := rfl
      rw [← hat]
      rw [← hat] at hpass hreg
      exact State.wrote_of_accepted hreg (by decide) (by decide) hpass fun x =>
        (State.writeReg_laneCommitCtl (s.wctx path page i laneCommitCtl lane v) lane x hres hfmt hrange).trans (hctl _ rfl rfl rfl)
    · have hzero : lane = 0 := by
        rcases hwhere with h | h
        · exact h
        · exact absurd (congrArg (·.1) (Option.some.inj (hblock.symm.trans (pageBlock_quad h)))) hk
      subst hzero
      have hoff := ctxOff_header (lane := 0) hblock hk
      have hreg : regAt page 0x030 = some (k, i, headerCommitCtl, 0, 0) := by
        simp only [regAt, hblock, Nat.reduceMod, Nat.sub_zero, findReg_headerCommitCtl hk]
      rw [hoff] at hpass hval ⊢
      simp only [valueOk, hreg, Bool.and_eq_true, Bool.not_eq_true'] at hval
      obtain ⟨⟨⟨-, hres⟩, hfmt⟩, -⟩ := hval
      have hat : headerCommitCtl.at_ 0 = 0x030 := rfl
      have hwrote := State.wrote_of_accepted (t := t) hreg (by decide) (by decide) hpass fun x =>
        (State.writeReg_headerCommitCtl (s.wctx path page i headerCommitCtl 0 v) k 0 x hres hfmt).trans (hctl _ rfl rfl rfl)
      rwa [hat] at hwrote

end

end Sys2Proof.Machine
end

section
/-! SUPPORT. What a write of COMMIT_CTL leaves (O10): GO under MODE NEXT, ABORT, and a MODE by itself. -/

namespace Sys2Proof.Machine

/-- COMMIT_SEQ and SHADOW_WRITES stand at another word of the page than COMMIT_CTL. -/
theorem oneWord_ctxOff {page lane hi lo : Nat} (hlane : laneOk page lane = true) (h : lo ≤ hi ∧ hi < 32) :
    OneWord ⟨ctxOff page lane, hi, lo⟩ ∧ OneWord ⟨ctxOff page lane + 8, hi, lo⟩ := by
  simp only [laneOk, Bool.and_eq_true, decide_eq_true_eq] at hlane
  have hoff := ctxOff_bounds (p := page) hlane.1
  exact ⟨⟨h.1, h.2, by show ctxOff page lane < 4096; omega⟩, ⟨h.1, h.2, by show ctxOff page lane + 8 < 4096; omega⟩⟩

theorem ctxOff_ne_lastCmd {page lane : Nat} (hlane : laneOk page lane = true) : ctxOff page lane ≠ 0x02C ∧ ctxOff page lane + 8 ≠ 0x02C := by
  simp only [laneOk, Bool.and_eq_true, decide_eq_true_eq] at hlane
  have hoff := ctxOff_bounds (p := page) hlane.1
  omega

/-- The stage shows in a word that no context's COMMIT_CTL is. -/
theorem State.stage_putMode (s : State) {page lane : Nat} (v : Nat) (hlane : laneOk page lane = true) :
    (s.put page ⟨ctxOff page lane, 1, 0⟩ v).stage = s.stage := by
  have hfield := (oneWord_ctxOff (page := page) (hi := 1) (lo := 0) hlane (by decide)).1
  refine State.get_put_off _ _ _ _ _ _ hfield.2.1 (by decide) hfield.2.2 (by decide) ?_
  by_cases h : page = pDEV
  · subst h
    exact .inr (show 0x10 ≠ 0x030 by decide)
  · exact .inl (Ne.symm h)

/-- A bit that has been put reads as its value. -/
theorem State.bitOf_rd_put_bit (s : State) (p : Nat) {off i v : Nat} (hf : OneWord ⟨off, i, i⟩) :
    bitOf ((s.put p ⟨off, i, i⟩ v).rd p off).toNat i = bitOf v 0 := by
  have hi : i < 32 := hf.2.1
  show bitOf ((s.put p ⟨off, i, i⟩ v).rd p (Fld.off ⟨off, i, i⟩)).toNat i = bitOf v 0
  rw [State.rd_put_self _ _ _ hf, bitOf_mod _ hi, bitOf_eq_testBit, testBit_putBits _ _ _ _ _ (Nat.le_refl i), bitOf_eq_testBit]
  simp

/-- The state in which a commit of a context waits for the next SCLK edge. -/
def State.queueGo (s : State) (page lane : Nat) : State :=
  { s with host := { s.host with goNext := s.host.goNext ++ [(page, lane, s.clk.slot)] } }

theorem State.queueGo_holds {s : State} {B : List Host.Cell} {L : List Instr} (hs : s.holds B L) (page lane : Nat) :
    (s.queueGo page lane).holds B L := hs

/-- The state after a GO under MODE NEXT: MODE set, the commit queued, PENDING set. -/
def State.goQueued (s : State) (page lane : Nat) : State :=
  ((s.put page ⟨ctxOff page lane, 1, 0⟩ 1).queueGo page lane).put page ⟨ctxOff page lane, 8, 8⟩ 1

section
variable {s : State} {c : WCtx} {page lane : Nat}

theorem State.writeCommitCtl_go (hpage : c.page = page) (hlane : laneOk page lane = true) (hmode : bitsOf c.v 1 0 = 1)
    (hgo : bitOf c.v 4 = true) (habort : bitOf c.v 5 = false) (hstage : 2 ≤ s.stage)
    (hfree : (s.put page ⟨ctxOff page lane, 1, 0⟩ 1).commitRefusal c.agent page lane (s.shadowWords page lane) = none) :
    s.writeCommitCtl c lane = accept (s.goQueued page lane) := by
  subst hpage
  have hwords : (s.put c.page ⟨ctxOff c.page lane, 1, 0⟩ 1).shadowWords c.page lane = s.shadowWords c.page lane := by
    simp only [State.shadowWords, State.put_host]
  have hlow : ¬(s.put c.page ⟨ctxOff c.page lane, 1, 0⟩ 1).stage < 2 := by
    rw [State.stage_putMode _ _ hlane]
    omega
  simp only [State.writeCommitCtl, hmode, hgo, habort, State.commitGo, hwords, hfree, hlow]
  rfl

theorem State.writeCommitCtl_abort (hpage : c.page = page) (hmode : bitsOf c.v 1 0 ≠ 3) (hgo : bitOf c.v 4 = false) (habort : bitOf c.v 5 = true) :
    s.writeCommitCtl c lane = accept ((s.abortShadows page lane).put page ⟨ctxOff page lane, 1, 0⟩ (bitsOf c.v 1 0)) := by
  subst hpage
  simp [State.writeCommitCtl, hmode, hgo, habort]

theorem State.writeCommitCtl_mode (hpage : c.page = page) (hmode : bitsOf c.v 1 0 ≠ 3) (hgo : bitOf c.v 4 = false) (habort : bitOf c.v 5 = false) :
    s.writeCommitCtl c lane = accept (s.put page ⟨ctxOff page lane, 1, 0⟩ (bitsOf c.v 1 0)) := by
  subst hpage
  simp [State.writeCommitCtl, hmode, hgo, habort]

end

/-! ### What the three leave -/

section
variable (s : State) {page lane : Nat} (hlane : laneOk page lane = true)
include hlane

theorem State.goQueued_pending : (s.goQueued page lane).pendingCtx page lane = true := by
  have hfield := (oneWord_ctxOff (hi := 8) (lo := 8) hlane (by decide)).1
  unfold State.goQueued State.pendingCtx
  exact State.bitOf_rd_put_bit _ _ hfield

theorem State.rd_goQueued {p o : Nat} (ho : o < 4096) (h : p ≠ page ∨ o ≠ ctxOff page lane) : (s.goQueued page lane).rd p o = s.rd p o := by
  unfold State.goQueued
  rw [State.rd_put_ne _ _ (oneWord_ctxOff hlane (by decide)).1 ho h]
  exact State.rd_put_ne _ _ (oneWord_ctxOff hlane (by decide)).1 ho h

omit hlane in
theorem State.goQueued_goNext : (s.goQueued page lane).host.goNext = s.host.goNext ++ [(page, lane, s.clk.slot)] := by
  simp only [State.goQueued, State.queueGo, State.put_host, State.put_clk]

omit hlane in
theorem State.goQueued_shadow : (s.goQueued page lane).host.shadow = s.host.shadow := by
  simp only [State.goQueued, State.queueGo, State.put_host]

omit hlane in
theorem State.goQueued_holds : (s.goQueued page lane).holds s.bar2 s.pending :=
  State.put_holds (State.queueGo_holds (State.put_holds s.holds_self _ _ _) _ _) _ _ _

theorem State.rd_dropShadows {p o : Nat} (ho : o < 4096) (h : p ≠ page ∨ o ≠ ctxOff page lane ∧ o ≠ ctxOff page lane + 8) :
    (s.dropShadows page lane).rd p o = s.rd p o := by
  unfold State.dropShadows
  rw [State.rd_put_ne _ _ (oneWord_ctxOff hlane (by decide)).2 ho (h.imp_right And.right),
    State.rd_put_ne _ _ (oneWord_ctxOff hlane (by decide)).1 ho (h.imp_right And.left)]
  rfl

omit hlane in
theorem State.dropShadows_shadowWords : (s.dropShadows page lane).shadowWords page lane = [] := by
  simp only [State.dropShadows, State.shadowWords, State.put_host, List.filter_filter, Bool.and_not_self, List.filter_false]

theorem State.dropShadows_pending : (s.dropShadows page lane).pendingCtx page lane = false := by
  have hfield := oneWord_ctxOff (page := page) hlane (hi := 8) (lo := 8) (by decide)
  unfold State.dropShadows State.pendingCtx
  rw [State.rd_put_ne _ _ (oneWord_ctxOff hlane (by decide)).2 hfield.1.2.2 (.inr (by simp))]
  exact State.bitOf_rd_put_bit _ _ hfield.1

theorem State.dropShadows_writes : (s.dropShadows page lane).get page ⟨ctxOff page lane + 8, 31, 16⟩ = 0 := by
  unfold State.dropShadows
  have hfield := (oneWord_ctxOff (page := page) hlane (hi := 31) (lo := 16) (by decide)).2
  rw [State.get_put_self _ _ _ _ hfield.1 hfield.2.1]
  exact Nat.zero_mod _

end

end Sys2Proof.Machine
end

section
/-! PROOFS. The commands of COMMIT_CTL (O10): GO under MODE NEXT, ABORT, and a MODE by itself. -/

namespace Sys2Proof.Machine

/-- What the report of a write of COMMIT_CTL leaves in the registers. -/
theorem State.rd_reported_commitCtl {s t : State} {path : Path} {page lane agent p o : Nat} (ho : o < 4096) (hlast : (p, o) ≠ (page, 0x02C))
    (h : t.rd p o = s.rd p o) : (t.reported path page (ctxOff page lane) (ctxOff page lane) agent).rd p o = s.rd p o := by
  rw [State.rd_reported _ _ _ _ _ _ ho (by simpa [Prod.ext_iff, imp_iff_not_or] using hlast), h]

/-- COMMIT_CTL after the report of its write. -/
theorem State.commitCtl_reported (t : State) (path : Path) (agent : Nat) {page lane : Nat} (hlane : laneOk page lane = true) :
    (t.reported path page (ctxOff page lane) (ctxOff page lane) agent).rd page (ctxOff page lane) = t.rd page (ctxOff page lane) :=
  State.rd_reported _ _ _ _ _ _ (oneWord_ctxOff (hi := 8) (lo := 8) hlane (by decide)).1.2.2 (.inr (ctxOff_ne_lastCmd hlane).1)

section
variable {s : State} {path : Path} {page lane v : Nat}

theorem accepts_go (hmode : bitsOf v 1 0 = 1) (habort : bitOf v 5 = false) (hstage : 2 ≤ s.stage)
    (hfree : (s.put page ⟨ctxOff page lane, 1, 0⟩ 1).commitRefusal (s.agentOf path) page lane (s.shadowWords page lane) = none) :
    Accepts (.go path page lane v) s path page (ctxOff page lane) (setBit v 4) (fun t => t.pendingCtx page lane = true ∧
      (page, lane, s.clk.slot) ∈ t.host.goNext ∧ t.host.shadow = s.host.shadow ∧
      KeepsRegs s t [(page, ctxOff page lane), (page, 0x02C)] ∧ KeepsMemory s t) := by
  intro hwf
  have hlane : laneOk page lane = true := by simp only [Instr.wf, Bool.and_eq_true] at hwf; exact hwf.1.2
  refine Accepts.of_wrote (base := ctxOff page lane) (t := s.goQueued page lane)
    (fun h => guarded_of_wf s (fun s => s.wrote path page (ctxOff page lane) (setBit v 4)) h)
    (fun hpass hval => State.wrote_commitCtl hlane (fun c hpage hagent hv => ?_) hpass hval) (fun _ => ?_) hwf
  · refine State.writeCommitCtl_go hpage hlane ?_ ?_ ?_ hstage (hagent ▸ hfree)
    · rw [hv, bitsOf_setBit_ne _ (.inl (by decide)), hmode]
    · rw [hv, bitOf_setBit_self]
    · rw [hv, bitOf_setBit_ne _ _ _ (by decide), habort]
  · refine ⟨?_, ?_, ?_, fun p o ho hnot => ?_, .of_holds (State.reported_holds _ _ _ _ _ _ s.goQueued_holds)⟩
    · rw [State.pendingCtx, State.commitCtl_reported _ _ _ hlane]
      exact State.goQueued_pending s hlane
    · rw [State.reported_goNext, State.goQueued_goNext]
      simp
    · rw [State.reported_shadow, State.goQueued_shadow]
    · simp only [List.mem_cons, List.not_mem_nil, or_false, not_or] at hnot
      exact State.rd_reported_commitCtl ho hnot.2 (State.rd_goQueued s hlane ho (by simpa [Prod.ext_iff, imp_iff_not_or] using hnot.1))

theorem accepts_commitAbort (hmode : bitsOf v 1 0 ≠ 3) (hgo : bitOf v 4 = false) :
    Accepts (.commitAbort path page lane v) s path page (ctxOff page lane) (setBit v 5) (fun t => t.pendingCtx page lane = false ∧
      t.shadowWords page lane = [] ∧ t.get page ⟨ctxOff page lane + 8, 31, 16⟩ = 0 ∧
      KeepsRegs s t [(page, ctxOff page lane), (page, ctxOff page lane + 8), (page, 0x02C)] ∧ KeepsMemory s t) := by
  intro hwf
  have hlane : laneOk page lane = true := by simp only [Instr.wf, Bool.and_eq_true] at hwf; exact hwf.1.2
  have hfield := (oneWord_ctxOff (page := page) (hi := 1) (lo := 0) hlane (by decide)).1
  refine Accepts.of_wrote (base := ctxOff page lane) (t := (s.abortShadows page lane).put page ⟨ctxOff page lane, 1, 0⟩ (bitsOf v 1 0))
    (fun h => guarded_of_wf s (fun s => s.wrote path page (ctxOff page lane) (setBit v 5)) h)
    (fun hpass hval => State.wrote_commitCtl hlane (fun c hpage _ hv => ?_) hpass hval) (fun _ => ?_) hwf
  · have hsame : bitsOf (setBit v 5) 1 0 = bitsOf v 1 0 := bitsOf_setBit_ne _ (.inl (by decide))
    rw [← hsame, ← hv]
    refine State.writeCommitCtl_abort hpage ?_ ?_ ?_
    · rwa [hv, hsame]
    · rw [hv, bitOf_setBit_ne _ _ _ (by decide), hgo]
    · rw [hv, bitOf_setBit_self]
  · refine ⟨?_, ?_, ?_, fun p o ho hnot => ?_,
      .of_holds (State.reported_holds _ _ _ _ _ _ (State.put_holds (State.abortShadows_holds s.holds_self _ _) _ _ _))⟩
    · rw [State.pendingCtx, State.commitCtl_reported _ _ _ hlane]
      exact (State.bitOf_rd_put _ _ _ hfield (by decide) (.inr (Nat.lt_of_sub_eq_succ rfl))).trans (State.dropShadows_pending s hlane)
    · rw [State.shadowWords, State.reported_shadow, State.put_host]
      exact State.dropShadows_shadowWords s
    · have hwrites := (oneWord_ctxOff (page := page) (hi := 31) (lo := 16) hlane (by decide)).2
      have hapart : ctxOff page lane + 8 ≠ ctxOff page lane := by omega
      rw [State.get_reported _ _ _ _ _ _ hwrites (.inr (ctxOff_ne_lastCmd hlane).2),
        State.get_put_off _ _ _ _ _ _ hfield.2.1 hwrites.2.1 hfield.2.2 hwrites.2.2 (.inr hapart)]
      exact State.dropShadows_writes s hlane
    · simp only [List.mem_cons, List.not_mem_nil, or_false, not_or] at hnot
      obtain ⟨hctl, hwrites, hlast⟩ := hnot
      simp only [Prod.mk.injEq, not_and_or] at hctl hwrites
      refine State.rd_reported_commitCtl ho hlast ((State.rd_put_ne _ _ hfield ho hctl).trans (State.rd_dropShadows s hlane ho ?_))
      tauto

theorem accepts_commitModeChange (hmode : bitsOf v 1 0 ≠ 3) (hgo : bitOf v 4 = false) (habort : bitOf v 5 = false) :
    Accepts (.commitModeChange path page lane v) s path page (ctxOff page lane) v (fun t => t.ctxMode page lane = bitsOf v 1 0 ∧
      t.host.shadow = s.host.shadow ∧ KeepsRegs s t [(page, ctxOff page lane), (page, 0x02C)] ∧ KeepsMemory s t) := by
  intro hwf
  have hlane : laneOk page lane = true := by simp only [Instr.wf, Bool.and_eq_true] at hwf; exact hwf.1.2
  have hfield := (oneWord_ctxOff (page := page) (hi := 1) (lo := 0) hlane (by decide)).1
  refine Accepts.of_wrote (base := ctxOff page lane) (t := s.put page ⟨ctxOff page lane, 1, 0⟩ (bitsOf v 1 0))
    (fun h => guarded_of_wf s (fun s => s.wrote path page (ctxOff page lane) v) h)
    (fun hpass hval => State.wrote_commitCtl hlane (fun c hpage _ hv => ?_) hpass hval) (fun _ => ?_) hwf
  · subst hv
    exact State.writeCommitCtl_mode hpage hmode hgo habort
  · refine ⟨?_, ?_, fun p o ho hnot => ?_, .of_holds (State.reported_holds _ _ _ _ _ _ (State.put_holds s.holds_self _ _ _))⟩
    · rw [State.ctxMode, State.commitCtl_reported _ _ _ hlane, State.rd_put_self _ _ _ hfield, bitsOf_mod _ _ _ _ (by decide)]
      exact (bitsOf_putBits_self _ _ _ _ hfield.1).trans (Nat.mod_mod _ _)
    · rw [State.reported_shadow, State.put_host]
    · simp only [List.mem_cons, List.not_mem_nil, or_false, not_or] at hnot
      exact State.rd_reported_commitCtl ho hnot.2 (State.rd_put_ne _ _ hfield ho (by simpa [Prod.ext_iff, imp_iff_not_or] using hnot.1))

end

end Sys2Proof.Machine
end

section
/-! SUPPORT. Commit groups (O10): what arming, disarming and firing do to the registers of DEV. -/

namespace Sys2Proof.Machine

/-! ### The registers -/

/-- CG_ARM and CG_DISARM, which hold one bit for each group. -/
def cgRegister (off : Nat) : RegDesc := ⟨off, 0, 1, 1, [⟨15, 0, .w1s, 0⟩]⟩

theorem regAt_cgArm : regAt pDEV DEV.CG_ARM.off = some (.dev, 0, cgRegister DEV.CG_ARM.off, 0, 0) := rfl

theorem regAt_cgDisarm : regAt pDEV DEV.CG_DISARM.off = some (.dev, 0, cgRegister DEV.CG_DISARM.off, 0, 0) := rfl

section
variable {s t : State} {path : Path} {off v : Nat}

/-- A write of CG_ARM or CG_DISARM that passes and whose value is valid leaves what it means, reported as OK. -/
theorem State.wrote_cgRegister (hreg : regAt pDEV off = some (.dev, 0, cgRegister off, 0, 0)) (hoff : 0x040 ≤ off)
    (hmeaning : ∀ c : WCtx, c.v = v → s.writeDev c (cgRegister off) = accept t) (hpass : s.passes path pDEV off v = true)
    (hval : valueOk pDEV off v = true) : s.wrote path pDEV off v = t.reported path pDEV off off (s.agentOf path) := by
  have hbase : ¬(cgRegister off).base < 0x040 := Nat.not_lt.2 hoff
  simp only [valueOk, hreg, hbase, Bool.and_eq_true, Bool.or_eq_true, Bool.not_eq_true', decide_eq_true_eq, false_or] at hval
  obtain ⟨⟨⟨-, hres⟩, hfmt⟩, hrange⟩ := hval
  have hat : (cgRegister off).at_ 0 = off := rfl
  suffices h : ∀ x, s.writeReg (s.wctx path pDEV 0 (cgRegister off) 0 v) .dev (cgRegister off) 0 x = accept t by
    rw [State.wrote_of_accepted hreg rfl rfl hpass h, hat]
  intro x
  have hshd : (cgRegister off).shd = false := rfl
  have hinst : (s.wctx path pDEV 0 (cgRegister off) 0 v).inst = 0 := rfl
  have hv : (s.wctx path pDEV 0 (cgRegister off) 0 v).v = v := rfl
  simp only [State.writeReg, hv, hres, hfmt, hbase, hinst, hrange, State.writeBody, perWindow, hshd, Bool.false_eq_true, or_self, if_false,
    Bool.not_true]
  exact hmeaning _ rfl

end

/-! ### Arming and disarming -/

section
variable {s : State} {v : Nat}

/-- Groups that are named and not armed yet lie far enough ahead. -/
theorem State.writeCgArm_of_ahead (hstage : 2 ≤ s.stage)
    (hahead : ∀ g, g < 16 → bitOf v g = true → s.cgArmed g = false → s.atLeastNs (s.cgInstant g) 256 = true) :
    s.writeCgArm v = accept (s.put pDEV DEV.CG_ARM.ARMED (Nat.lor (s.get pDEV DEV.CG_ARM.ARMED) v)) := by
  have hfresh : ((bitList 16 v).filter (fun g => !s.cgArmed g)).any (fun g => !s.atLeastNs (s.cgInstant g) 256) = false := by
    simp only [bitList, List.any_eq_false, List.mem_filter, List.mem_range, Bool.not_eq_true', and_imp, Bool.not_eq_false]
    intro g hg hnamed hdisarmed
    simpa using hahead g hg hnamed hdisarmed
  have hlow : ¬s.stage < 2 := by omega
  simp only [State.writeCgArm, hfresh, hlow, false_and, if_false, Bool.false_eq_true]

/-- A group is armed if its bit of ARMED has been put. -/
theorem State.cgArmed_put (s : State) (m : Nat) {g : Nat} (hg : g < 16) : (s.put pDEV DEV.CG_ARM.ARMED m).cgArmed g = bitOf m g := by
  rw [State.cgArmed, State.get_put_self _ _ _ _ (by decide) (by decide)]
  exact bitOf_mod m hg

end

end Sys2Proof.Machine
end

section
/-! PROOFS. The commands of the commit groups (O10). -/

namespace Sys2Proof.Machine

section
variable {s : State} {path : Path} {v : Nat}

/-- What a put of ARMED leaves after its report. -/
theorem State.rd_reported_cgArm {agent off p o : Nat} (m : Nat) (ho : o < 4096) (harm : (p, o) ≠ (pDEV, DEV.CG_ARM.off))
    (hlast : (p, o) ≠ (pDEV, 0x02C)) : ((s.put pDEV DEV.CG_ARM.ARMED m).reported path pDEV off off agent).rd p o = s.rd p o := by
  simp only [ne_eq, Prod.mk.injEq, not_and_or] at harm hlast
  rw [State.rd_reported _ _ _ _ _ _ ho hlast, State.rd_put_ne _ _ (by decide) ho harm]

theorem State.cgArmed_reported (t : State) (agent off g : Nat) : (t.reported path pDEV off off agent).cgArmed g = t.cgArmed g := by
  rw [State.cgArmed, State.get_reported _ _ _ _ _ _ (by decide) (.inr (by decide)), State.cgArmed]

theorem accepts_cgArm (hstage : 2 ≤ s.stage)
    (hahead : ∀ g, g < 16 → bitOf v g = true → s.cgArmed g = false → s.atLeastNs (s.cgInstant g) 256 = true) :
    Accepts (.cgArm path v) s path pDEV DEV.CG_ARM.off v (fun t =>
      (∀ g, g < 16 → t.cgArmed g = (s.cgArmed g || bitOf v g)) ∧ KeepsRegs s t [(pDEV, DEV.CG_ARM.off), (pDEV, 0x02C)] ∧ KeepsMemory s t) := by
  refine Accepts.of_wrote (base := DEV.CG_ARM.off) (t := s.put pDEV DEV.CG_ARM.ARMED (Nat.lor (s.get pDEV DEV.CG_ARM.ARMED) v))
    (fun h => guarded_of_wf s (fun s => s.wrote path pDEV DEV.CG_ARM.off v) h)
    (State.wrote_cgRegister regAt_cgArm (by decide) fun c hv => ?_) (fun _ => ⟨fun g hg => ?_, fun p o ho hnot => ?_, ?_⟩)
  · have hmeaning : s.writeDev c (cgRegister DEV.CG_ARM.off) = s.keep (s.writeCgArm c.v) := rfl
    rw [hmeaning, hv, State.writeCgArm_of_ahead hstage hahead]
    rfl
  · rw [State.cgArmed_reported, State.cgArmed_put _ _ hg, bitOf_lor]
    rfl
  · simp only [List.mem_cons, List.not_mem_nil, or_false, not_or] at hnot
    exact State.rd_reported_cgArm _ ho hnot.1 hnot.2
  · exact .of_holds (State.reported_holds _ _ _ _ _ _ (State.put_holds s.holds_self _ _ _))

theorem accepts_cgDisarm : Accepts (.cgDisarm path v) s path pDEV DEV.CG_DISARM.off v (fun t =>
    (∀ g, g < 16 → t.cgArmed g = (s.cgArmed g && !bitOf v g)) ∧ t.host.goGroup = s.host.goGroup ∧
    KeepsRegs s t [(pDEV, DEV.CG_ARM.off), (pDEV, DEV.CG_DISARM.off), (pDEV, 0x02C)] ∧ KeepsMemory s t) := by
  refine Accepts.of_wrote (base := DEV.CG_DISARM.off)
    (t := s.put pDEV DEV.CG_ARM.ARMED (clearBits (s.get pDEV DEV.CG_ARM.ARMED) (bitsOf v 15 0)))
    (fun h => guarded_of_wf s (fun s => s.wrote path pDEV DEV.CG_DISARM.off v) h)
    (State.wrote_cgRegister regAt_cgDisarm (by decide) fun c hv => hv ▸ rfl)
    (fun _ => ⟨fun g hg => ?_, ?_, fun p o ho hnot => ?_, ?_⟩)
  · rw [State.cgArmed_reported, State.cgArmed_put _ _ hg, bitOf_clearBits, bitOf_bitsOf _ hg, Nat.zero_add]
    rfl
  · rw [State.reported_goGroup, State.put_host]
  · simp only [List.mem_cons, List.not_mem_nil, or_false, not_or] at hnot
    exact State.rd_reported_cgArm _ ho hnot.1 hnot.2.2
  · exact .of_holds (State.reported_holds _ _ _ _ _ _ (State.put_holds s.holds_self _ _ _))

end

/-- The mask of the groups that are due. -/
theorem bitOf_dueMask (s : State) {g : Nat} (hg : g < 16) (hdue : s.cgDue g = true) :
    bitOf (((List.range 16).filter (fun g => s.cgDue g)).foldl setBit 0) g = true := by
  rw [bitOf_foldl_setBit]
  simp [hg, hdue]

/-- With no context pending on a group, firing changes the words of the groups alone. -/
theorem completes_cgFire {s : State} {g : Nat} (hg : g < 16) (hdue : s.cgDue g = true) (hnone : s.host.goGroup = []) :
    Completes (.cgFire g) s (fun t => t.cgArmed g = false ∧ bitOf (t.get pDEV DEV.CG_FIRED.FIRED) g = true ∧
      KeepsRegs s t [(pDEV, DEV.CG_ARM.off), (pDEV, DEV.CG_FIRED.off), (pDEV, DEV.CG_LATE.off)] ∧ KeepsMemory s t) := by
  have hwf : (Instr.cgFire g).wf = true := by simpa [Instr.wf] using hg
  refine .of_exec (guarded_of_wf s (fun s => if s.cgDue g then s.cgFire else s) hwf) ?_
  simp only [hdue, if_true, State.cgFire, hnone, List.filter_nil, List.flatMap_nil, State.putWords, State.forEach, List.foldl_nil]
  have hmask := bitOf_dueMask s hg hdue
  refine ⟨?_, ?_, fun p o ho hnot => ?_, .of_holds (State.put_holds (State.put_holds (State.put_holds s.holds_self _ _ _) _ _ _) _ _ _)⟩
  · rw [State.cgArmed, State.get_put_off _ _ _ _ _ _ (by decide) (by decide) (by decide) (by decide) (by decide),
      State.get_put_off _ _ _ _ _ _ (by decide) (by decide) (by decide) (by decide) (by decide)]
    refine (State.cgArmed_put s _ hg).trans ?_
    rw [bitOf_clearBits, hmask, Bool.not_true, Bool.and_false]
  · rw [State.get_put_off _ _ _ _ _ _ (by decide) (by decide) (by decide) (by decide) (by decide),
      State.get_put_self _ _ _ _ (by decide) (by decide)]
    refine (bitOf_mod _ hg).trans ?_
    rw [bitOf_lor, hmask, Bool.or_true]
  · simp only [List.mem_cons, List.not_mem_nil, or_false, not_or, Prod.mk.injEq, not_and_or] at hnot
    obtain ⟨harm, hfired, hlate⟩ := hnot
    rw [State.rd_put_ne _ _ (by decide) ho hlate, State.rd_put_ne _ _ (by decide) ho hfired, State.rd_put_ne _ _ (by decide) ho harm]

end Sys2Proof.Machine
end

section
/-! SUPPORT. The commit of a lane's context in a QUAD page (O10): where its shadow words stand, and what writing them leaves. -/

namespace Sys2Proof.Machine

/-! ### Steps that keep a part of the state -/

/-- What every step of a list keeps, all of them keep. -/
theorem State.forEach_same {α β : Type} (g : State → β) (l : List α) (f : α → State → State) (h : ∀ a ∈ l, ∀ u, g (f a u) = g u) (s : State) :
    g (s.forEach l f) = g s := by
  induction l generalizing s with
  | nil => rfl
  | cons a l ih => exact (ih (fun b hb => h b (List.mem_cons_of_mem _ hb)) (f a s)).trans (h a List.mem_cons_self s)

/-! ### The words of a list -/

theorem regKey_div_mod (key : Nat) : regKey (key / 4096) (key % 4096) = key := by
  unfold regKey
  omega

theorem State.putWords_host (s : State) (l : List (Nat × Word)) : (s.putWords l).host = s.host :=
  State.forEach_same (·.host) l (fun e s => s.wr (e.1 / 4096) (e.1 % 4096) e.2) (fun _ _ _ => rfl) s

/-- A word that is not listed stands. -/
theorem State.rd_putWords_of_notMem (s : State) {l : List (Nat × Word)} {p o : Nat} (h : regKey p o ∉ l.map (·.1)) :
    (s.putWords l).rd p o = s.rd p o := by
  refine State.forEach_same (·.rd p o) _ _ (fun e he u => State.rd_wr_of_ne _ _ _ _ _ _ fun hkey => h ?_) s
  rw [hkey, regKey_div_mod]
  exact List.mem_map_of_mem he

/-- Of words with keys of their own each one reads back. -/
theorem State.rd_putWords (s : State) {l : List (Nat × Word)} (hkeys : (l.map (·.1)).Nodup) {e : Nat × Word} (he : e ∈ l) :
    (s.putWords l).rd (e.1 / 4096) (e.1 % 4096) = e.2 := by
  induction l generalizing s with
  | nil => simp at he
  | cons a l ih =>
    rw [List.map_cons, List.nodup_cons] at hkeys
    rcases List.mem_cons.1 he with rfl | hmem
    · refine (State.rd_putWords_of_notMem (s.wr (e.1 / 4096) (e.1 % 4096) e.2) ?_).trans (State.rd_wr_self ..)
      rw [regKey_div_mod]
      exact hkeys.1
    · exact ih (s.wr (a.1 / 4096) (a.1 % 4096) a.2) hkeys.2 hmem

/-! ### The shadowed registers of a quad -/

/-- What a search finds is in the list, at the offset searched. -/
theorem findReg_mem {l : List RegDesc} {o j w : Nat} {d : RegDesc} (h : findReg l o = some (d, j, w)) : d ∈ l ∧ d.hit o = some (j, w) := by
  induction l with
  | nil => simp [findReg] at h
  | cons a l ih =>
    rw [findReg] at h
    split at h
    · next hhit =>
      simp only [Option.some.injEq, Prod.mk.injEq] at h
      obtain ⟨rfl, rfl, rfl⟩ := h
      exact ⟨List.mem_cons_self, hhit⟩
    · exact (ih h).imp_left (List.mem_cons_of_mem _)

/-- The offsets that a register held several times covers. -/
theorem RegDesc.hit_bounds {d : RegDesc} {o j w : Nat} (h : d.hit o = some (j, w)) (hstride : d.stride ≠ 0) :
    d.base ≤ o ∧ o < d.base + d.stride * d.count := by
  unfold RegDesc.hit at h
  split at h
  · simp at h
  · next hbase =>
    simp only [Option.ite_none_right_eq_some] at h
    have hlt := (Nat.div_lt_iff_lt_mul (Nat.pos_of_ne_zero hstride)).1 h.1.1
    rw [Nat.mul_comm] at hlt
    omega

/-- The shadowed registers of a quad lie between its bounds and the commit registers of its lanes. -/
theorem quadRegs_shd_bounds : ∀ d ∈ kindRegs .quad, d.shd = true → d.stride ≠ 0 ∧ 0x100 ≤ d.base ∧ d.base + d.stride * d.count ≤ 0x180 := by
  decide

theorem regAt_quad_shd {q o : Nat} (hq : q < 12) {k : Kind} {i j w : Nat} {d : RegDesc} (hreg : regAt (pQUAD q) o = some (k, i, d, j, w))
    (hshd : d.shd = true) : 0x100 ≤ o ∧ o < 0x180 := by
  simp only [regAt, pageBlock_pQUAD hq] at hreg
  split at hreg
  · simp at hreg
  · next r hfind =>
    simp only [Option.some.injEq, Prod.mk.injEq] at hreg
    obtain ⟨-, -, rfl, -, -⟩ := hreg
    obtain ⟨hmem, hhit⟩ := findReg_mem hfind
    obtain ⟨hstride, hlow, hhigh⟩ := quadRegs_shd_bounds _ hmem hshd
    obtain ⟨hlo, hhi⟩ := RegDesc.hit_bounds hhit hstride
    omega

/-! ### What a commit of a lane's context leaves -/

/-- Renewing the bounds of a quad changes the words of its bounds alone. -/
theorem State.rd_refreshBounds (s : State) {q p o : Nat} (ho : o < 4096) (h : o < 0xE0 ∨ 0xF0 ≤ o) : (s.refreshBounds q).rd p o = s.rd p o := by
  refine State.forEach_same (·.rd p o) _ _ (fun l hl u => State.rd_put_ne _ _ ⟨Nat.zero_le _, Nat.lt_of_sub_eq_succ rfl, ?_⟩ ho (.inr ?_)) s
  · have := List.mem_range.1 hl
    show 0xE0 + 0x4 * l < 4096
    omega
  · have := List.mem_range.1 hl
    show o ≠ 0xE0 + 0x4 * l
    omega

theorem State.refreshBounds_host (s : State) (q : Nat) : (s.refreshBounds q).host = s.host :=
  State.forEach_same (·.host) _ _ (fun _ _ _ => State.put_host _ _ _ _) s

/-- The words of a commit have become effective and its shadows are gone. -/
def State.shadowsPut (s : State) (p lane : Nat) : State := (s.putWords (s.shadowWords p lane)).dropShadows p lane

/-- With no IMMEDIATE write waiting, a due commit of a lane's context is that of the shadows of a GO. -/
theorem State.shadowCommit_of_go {s : State} {q lane : Nat} (hq : q < 12) (hdue : s.commitDue (pQUAD q) lane = true) (hnone : s.host.immed = []) :
    s.shadowCommit (pQUAD q) lane = ((s.shadowsPut (pQUAD q) lane).refreshBounds q).bumpCommit (pQUAD q) lane 1 := by
  simp only [State.commitDue, hnone, List.any_nil, Bool.false_or, Bool.and_eq_true] at hdue
  have hhost : { s.host with immed := [] } = (s.putWords (s.shadowWords (pQUAD q) lane)).host := by
    rw [State.putWords_host, ← hnone]
  simp only [State.shadowCommit, hnone, List.filter_nil, List.map_nil, List.nil_append, hdue.2, if_true, hhost, State.committed,
    pageBlock_pQUAD hq]
  rfl

section
variable {s : State} {q lane : Nat}

/-- The keys of the shadows name shadowed registers. -/
def State.shadowsNamed (s : State) : Prop :=
  ∀ e ∈ s.host.shadow, ∃ p k i d j w, regAt p (e.1 % 4096) = some (k, i, d, j, w) ∧ e.1 = regKey p (e.1 % 4096) ∧ d.shd = true

theorem State.shadowWords_bounds (hnamed : s.shadowsNamed) (hq : q < 12) {e : Nat × Word} (he : e ∈ s.shadowWords (pQUAD q) lane) :
    e.1 / 4096 = pQUAD q ∧ 0x100 ≤ e.1 % 4096 ∧ e.1 % 4096 < 0x180 := by
  obtain ⟨hmem, hctx⟩ := List.mem_filter.1 he
  simp only [inCtx, Bool.and_eq_true, beq_iff_eq] at hctx
  obtain ⟨hpage, -⟩ := hctx
  obtain ⟨p, k, i, d, j, w, hreg, hkey, hshd⟩ := hnamed e hmem
  have hp : p = pQUAD q := by
    unfold regKey at hkey
    omega
  subst hp
  exact ⟨hpage, regAt_quad_shd hq hreg hshd⟩

variable (hnamed : s.shadowsNamed) (hq : q < 12) (hlane : laneOk (pQUAD q) lane = true)
include hq hlane

theorem State.rd_refreshBounds_commit (u : State) :
    (u.refreshBounds q).rd (pQUAD q) (ctxOff (pQUAD q) lane) = u.rd (pQUAD q) (ctxOff (pQUAD q) lane) ∧
    (u.refreshBounds q).rd (pQUAD q) (ctxOff (pQUAD q) lane + 8) = u.rd (pQUAD q) (ctxOff (pQUAD q) lane + 8) := by
  have hoff := ctxOff_quad (lane := lane) (pageBlock_pQUAD hq)
  obtain ⟨hctl, hseq⟩ := oneWord_ctxOff (hi := 8) (lo := 8) hlane (by decide)
  exact ⟨State.rd_refreshBounds u hctl.2.2 (.inr (by omega)), State.rd_refreshBounds u hseq.2.2 (.inr (by omega))⟩

include hnamed

/-- A shadow word of a context with keys of their own is effective after the commit. -/
theorem State.rd_shadowsPut (hkeys : ((s.shadowWords (pQUAD q) lane).map (·.1)).Nodup) {e : Nat × Word} (he : e ∈ s.shadowWords (pQUAD q) lane) :
    (s.shadowsPut (pQUAD q) lane).rd (pQUAD q) (e.1 % 4096) = e.2 := by
  obtain ⟨hpage, -, hhigh⟩ := State.shadowWords_bounds hnamed hq he
  have hoff := ctxOff_quad (lane := lane) (pageBlock_pQUAD hq)
  rw [State.shadowsPut, State.rd_dropShadows _ hlane (by omega) (.inr (by omega))]
  simpa only [hpage] using State.rd_putWords s hkeys he

/-- COMMIT_SEQ is as before until the commit advances it. -/
theorem State.shadowsPut_seq :
    (s.shadowsPut (pQUAD q) lane).get (pQUAD q) ⟨ctxOff (pQUAD q) lane + 8, 15, 0⟩ = s.get (pQUAD q) ⟨ctxOff (pQUAD q) lane + 8, 15, 0⟩ := by
  have hoff := ctxOff_quad (lane := lane) (pageBlock_pQUAD hq)
  have hctl := (oneWord_ctxOff (hi := 8) (lo := 8) hlane (by decide)).1
  have hseq := (oneWord_ctxOff (hi := 15) (lo := 0) hlane (by decide)).2
  have hwrites := (oneWord_ctxOff (hi := 31) (lo := 16) hlane (by decide)).2
  have hapart : ctxOff (pQUAD q) lane + 8 ≠ ctxOff (pQUAD q) lane := by omega
  have hkey : regKey (pQUAD q) (ctxOff (pQUAD q) lane + 8) ∉ (s.shadowWords (pQUAD q) lane).map (·.1) := by
    intro hmem
    obtain ⟨e, he, hkey⟩ := List.mem_map.1 hmem
    obtain ⟨-, -, hhigh⟩ := State.shadowWords_bounds hnamed hq he
    have hin := hseq.2.2
    simp only [regKey] at hkey
    simp only at hin
    omega
  rw [State.shadowsPut, State.dropShadows,
    State.get_put_apart _ _ _ _ _ hwrites.1 hwrites.2.1 hseq.2.1 rfl (.inl (Nat.lt_of_sub_eq_succ rfl)),
    State.get_put_off _ _ _ _ _ _ hctl.2.1 hseq.2.1 hctl.2.2 hseq.2.2 (.inr hapart)]
  simp only [State.get]
  rw [← State.rd_putWords_of_notMem s hkey]
  rfl

end

end Sys2Proof.Machine
end

section
/-! PROOFS. The commit of a lane's context, and the settling of O10. -/

namespace Sys2Proof.Machine

theorem completes_shadowCommit {s : State} {q lane : Nat} (hq : q < 12) (hlt : lane < 4) (hdue : s.commitDue (pQUAD q) lane = true)
    (hnone : s.host.immed = []) (hnamed : s.shadowsNamed) :
    Completes (.shadowCommit (pQUAD q) lane) s (fun t => t.pendingCtx (pQUAD q) lane = false ∧ t.shadowWords (pQUAD q) lane = [] ∧
      (((s.shadowWords (pQUAD q) lane).map (·.1)).Nodup → ∀ e ∈ s.shadowWords (pQUAD q) lane, t.rd (pQUAD q) (e.1 % 4096) = e.2) ∧
      t.get (pQUAD q) ⟨ctxOff (pQUAD q) lane + 8, 15, 0⟩ = (s.get (pQUAD q) ⟨ctxOff (pQUAD q) lane + 8, 15, 0⟩ + 1) % 65536 ∧
      t.get (pQUAD q) ⟨ctxOff (pQUAD q) lane + 8, 31, 16⟩ = 0 ∧ KeepsMemory s t) := by
  have hlane : laneOk (pQUAD q) lane = true := by simp [laneOk, hlt, pQUAD]; omega
  have hwf : (Instr.shadowCommit (pQUAD q) lane).wf = true := by simp [Instr.wf, hlane, pQUAD]; omega
  have hoff := ctxOff_quad (lane := lane) (pageBlock_pQUAD hq)
  have hctl := (oneWord_ctxOff (hi := 8) (lo := 8) hlane (by decide)).1
  have hseq := (oneWord_ctxOff (hi := 15) (lo := 0) hlane (by decide)).2
  have hwrites := (oneWord_ctxOff (hi := 31) (lo := 16) hlane (by decide)).2
  obtain ⟨hboundsCtl, hboundsSeq⟩ := State.rd_refreshBounds_commit hq hlane (s.shadowsPut (pQUAD q) lane)
  refine .of_exec (guarded_of_wf s (fun s => if s.commitDue (pQUAD q) lane then s.shadowCommit (pQUAD q) lane else s) hwf) ?_
  simp only [hdue, if_true, State.shadowCommit_of_go hq hdue hnone]
  refine ⟨?_, ?_, fun hkeys e he => ?_, ?_, ?_, .of_holds (State.bumpCommit_holds (State.refreshBounds_holds
    (State.dropShadows_holds (State.putWords_holds s.holds_self _) _ _) _) _ _ _)⟩
  · rw [State.pendingCtx, State.bumpCommit, State.incWrap, State.rd_put_ne _ _ hseq hctl.2.2 (.inr (by simp)), hboundsCtl]
    exact State.dropShadows_pending _ hlane
  · rw [State.shadowWords, State.bumpCommit, State.incWrap, State.put_host, State.refreshBounds_host]
    exact State.dropShadows_shadowWords _
  · obtain ⟨-, hlow, hhigh⟩ := State.shadowWords_bounds hnamed hq he
    have hapart : e.1 % 4096 ≠ ctxOff (pQUAD q) lane + 8 := by omega
    rw [State.bumpCommit, State.incWrap, State.rd_put_ne _ _ hseq (by omega) (.inr hapart), State.rd_refreshBounds _ (by omega) (.inr (by omega))]
    exact State.rd_shadowsPut hnamed hq hlane hkeys he
  · rw [State.bumpCommit, State.incWrap, State.get_put_self _ _ _ _ hseq.1 hseq.2.1, ← State.shadowsPut_seq hnamed hq hlane]
    simp only [State.get, hboundsSeq]
    exact Nat.mod_mod _ _
  · rw [State.bumpCommit, State.incWrap,
      State.get_put_apart _ _ _ _ _ hseq.1 hseq.2.1 hwrites.2.1 rfl (.inr (Nat.lt_of_sub_eq_succ rfl))]
    simp only [State.get, hboundsSeq]
    exact State.dropShadows_writes _ hlane

/-- Settles O10: a command that writes COMMIT_CTL, CG_ARM or CG_DISARM leaves what the register means, reported as OK; the commit of a lane's
context writes its shadow words, none of which is a commit register; a group's firing touches the words of the groups alone. -/
theorem commits : Obligations.Commits := by
  unfold Obligations.Commits
  refine ⟨fun s path page lane v => ⟨accepts_go, accepts_commitAbort, accepts_commitModeChange⟩, ?_,
    fun s path v => ⟨accepts_cgArm, accepts_cgDisarm, ?_⟩⟩
  · exact fun s q hq lane hlane hdue hnone hnamed => completes_shadowCommit hq hlane hdue hnone hnamed
  · exact fun g hg hdue hnone => completes_cgFire hg hdue hnone

end Sys2Proof.Machine
end

section
/-! PROOFS. Every command answers a state, and which commands leave BAR2 and the queue of waiting commands (O1, O5, O6). -/

namespace Sys2Proof.Machine

/-- Settles O1: a queue that holds a command is not empty, and the step takes its front. -/
theorem stepRunsTheFrontCommand : Obligations.StepRunsTheFrontCommand := by
  intro s c rest hqueue
  unfold step
  rw [hqueue]

/-- The meaning of each row is guarded by the ranges of its operands, and a guarded meaning answers a state. -/
theorem exec_answers (c : Instr) (s : State) : ∃ t, exec c s = .next t := by
  cases c <;> exact ⟨_, rfl⟩

/-- A row that cannot store leaves BAR2 and the queue: the meaning of each does. -/
theorem exec_holds {B : List Host.Cell} {L : List Instr} {s t : State} (hs : s.holds B L) :
    ∀ c : Instr, mayStore c = false → exec c s = .next t → t.holds B L
  | .registerWrite .., _, h => execRegisterWrite_holds hs _ _ _ _ t h
  | .stagedWordWrite .., _, h => execStagedWordWrite_holds hs _ _ _ _ t h
  | .latchingRead .., _, h => execLatchingRead_holds hs _ _ _ t h
  | .badAccess .., _, h => execBadAccess_holds hs _ _ _ t h
  | .bar2Write .., hkeeps, _ => Bool.noConfusion hkeeps
  | .spiTransaction .., hkeeps, _ => Bool.noConfusion hkeeps
  | .i2cTransaction .., _, h => execI2cTransaction_holds hs _ _ _ t h
  | .go .., _, h => execGo_holds hs _ _ _ _ t h
  | .commitAbort .., _, h => execCommitAbort_holds hs _ _ _ _ t h
  | .commitModeChange .., _, h => execCommitModeChange_holds hs _ _ _ _ t h
  | .shadowCommit .., _, h => execShadowCommit_holds hs _ _ t h
  | .cgArm .., _, h => execCgArm_holds hs _ _ t h
  | .cgDisarm .., _, h => execCgDisarm_holds hs _ _ t h
  | .cgFire .., _, h => execCgFire_holds hs _ t h
  | .windowBind .., _, h => execWindowBind_holds hs _ _ _ t h
  | .ownerWrite .., _, h => execOwnerWrite_holds hs _ _ _ t h
  | .claim .., _, h => execClaim_holds hs _ _ t h
  | .release .., _, h => execRelease_holds hs _ _ t h
  | .query .., _, h => execQuery_holds hs _ _ _ t h
  | .forceRelease .., _, h => execForceRelease_holds hs _ _ _ t h
  | .leasePeriodWrite .., _, h => execLeasePeriodWrite_holds hs _ _ _ t h
  | .kick .., _, h => execKick_holds hs _ _ _ t h
  | .leaseExpiry .., _, h => execLeaseExpiry_holds hs _ t h
  | .ringEnable .., _, h => execRingEnable_holds hs _ _ _ t h
  | .ringDisable .., _, h => execRingDisable_holds hs _ _ _ t h
  | .ringCfgWrite .., _, h => execRingCfgWrite_holds hs _ _ _ t h
  | .doorbell .., _, h => execDoorbell_holds hs _ _ _ t h
  | .ringDmaError .., _, h => execRingDmaError_holds hs _ t h
  | .commandWrite32 .., _, h => execCommandWrite32_holds hs _ _ _ _ _ t h
  | .commandRead32 .., _, h => execCommandRead32_holds hs _ _ _ _ t h
  | .commandWrite128 .., _, h => execCommandWrite128_holds hs _ _ _ _ _ t h
  | .commandRead128 .., _, h => execCommandRead128_holds hs _ _ _ _ t h
  | .fence .., _, h => execFence_holds hs _ _ t h
  | .leaseKick .., _, h => execLeaseKick_holds hs _ _ t h
  | .commandNop .., _, h => execCommandNop_holds hs _ _ t h
  | .modTimeExpiry .., _, h => execModTimeExpiry_holds hs _ t h
  | .freeze .., _, h => execFreeze_holds hs _ t h
  | .snapshotRelease .., _, h => execSnapshotRelease_holds hs _ t h
  | .edgeIssue .., _, h => execEdgeIssue_holds hs _ t h
  | .edgeLaunch .., _, h => execEdgeLaunch_holds hs _ t h
  | .calVisitEnd .., _, h => execCalVisitEnd_holds hs _ _ t h
  | .sweepStart .., _, h => execSweepStart_holds hs _ _ t h
  | .sweepDone .., _, h => execSweepDone_holds hs _ _ t h
  | .tableSetExchange .., _, h => execTableSetExchange_holds hs _ _ t h
  | .swapArm .., _, h => execSwapArm_holds hs _ _ _ t h
  | .swapVerify .., _, h => execSwapVerify_holds hs _ _ t h
  | .swapSwitch .., _, h => execSwapSwitch_holds hs _ t h
  | .swapDone .., _, h => execSwapDone_holds hs _ t h
  | .failedLaneRemap .., _, h => execFailedLaneRemap_holds hs _ t h
  | .swapLane .., _, h => execSwapLane_holds hs _ _ _ t h
  | .resweepSpare .., _, h => execResweepSpare_holds hs _ _ t h
  | .retest .., _, h => execRetest_holds hs _ _ _ t h
  | .retestDone .., _, h => execRetestDone_holds hs _ _ t h
  | .tdcFault .., _, h => execTdcFault_holds hs _ t h
  | .engineTableEcc .., _, h => execEngineTableEcc_holds hs _ _ _ t h
  | .driverFault .., _, h => execDriverFault_holds hs _ _ t h
  | .loopEnable .., _, h => execLoopEnable_holds hs _ _ t h
  | .channelFlush .., _, h => execChannelFlush_holds hs _ _ t h
  | .channelSafeExit .., _, h => execChannelSafeExit_holds hs _ _ t h
  | .triggerLineEvent .., _, h => execTriggerLineEvent_holds hs _ t h
  | .tlSrcWrite .., _, h => execTlSrcWrite_holds hs _ _ _ t h
  | .tlShapeWrite .., _, h => execTlShapeWrite_holds hs _ _ _ t h
  | .fireNow .., _, h => execFireNow_holds hs _ _ t h
  | .fireAt .., _, h => execFireAt_holds hs _ _ t h
  | .start .., _, h => execStart_holds hs _ _ t h
  | .stopAtEnd .., _, h => execStopAtEnd_holds hs _ _ t h
  | .stopNow .., _, h => execStopNow_holds hs _ _ t h
  | .jump .., _, h => execJump_holds hs _ _ t h
  | .clearRequest .., _, h => execClearRequest_holds hs _ _ t h
  | .disarm .., _, h => execDisarm_holds hs _ _ t h
  | .seqDecision .., _, h => execSeqDecision_holds hs _ t h
  | .seqOccurrenceStart .., _, h => execSeqOccurrenceStart_holds hs _ t h
  | .seqCut .., _, h => execSeqCut_holds hs _ t h
  | .seqParkResume .., _, h => execSeqParkResume_holds hs _ t h
  | .seqStop .., _, h => execSeqStop_holds hs _ t h
  | .edgeHi .., _, h => execEdgeHi_holds hs _ t h
  | .edgeLo .., _, h => execEdgeLo_holds hs _ t h
  | .toggle .., _, h => execToggle_holds hs _ t h
  | .mark .., _, h => execMark_holds hs _ t h
  | .recordNop .., _, h => execRecordNop_holds hs _ t h
  | .recordEnd .., _, h => execRecordEnd_holds hs _ t h
  | .bankEcc .., _, h => execBankEcc_holds hs _ _ _ t h
  | .courseTableEcc .., _, h => execCourseTableEcc_holds hs _ _ t h
  | .refillSubmit .., _, h => execRefillSubmit_holds hs _ _ t h
  | .refillFlush .., _, h => execRefillFlush_holds hs _ _ t h
  | .refillDone .., hkeeps, _ => Bool.noConfusion hkeeps
  | .refillDmaError .., _, h => execRefillDmaError_holds hs _ t h
  | .readySet .., _, h => execReadySet_holds hs _ t h
  | .readyClear .., _, h => execReadyClear_holds hs _ t h
  | .validate .., _, h => execValidate_holds hs _ t h
  | .syncInEvent .., _, h => execSyncInEvent_holds hs _ _ _ t h
  | .syncOutPulse .., _, h => execSyncOutPulse_holds hs _ t h
  | .ppsPulse .., _, h => execPpsPulse_holds hs _ t h
  | .actionAccept .., _, h => execActionAccept_holds hs _ _ t h
  | .submit .., _, h => execSubmit_holds hs _ _ t h
  | .flush .., _, h => execFlush_holds hs _ _ t h
  | .queueSafeExit .., _, h => execQueueSafeExit_holds hs _ t h
  | .queueEcc .., _, h => execQueueEcc_holds hs _ _ t h
  | .tickEnable .., _, h => execTickEnable_holds hs _ _ _ t h
  | .tickDelivery .., _, h => execTickDelivery_holds hs _ t h
  | .phaseEnable .., _, h => execPhaseEnable_holds hs _ _ _ t h
  | .restart .., _, h => execRestart_holds hs _ _ t h
  | .phaseSourceLost .., _, h => execPhaseSourceLost_holds hs _ t h
  | .phaseConvert .., _, h => execPhaseConvert_holds hs _ t h
  | .inputCrossing .., _, h => execInputCrossing_holds hs _ _ t h
  | .inputResolved .., _, h => execInputResolved_holds hs _ _ t h
  | .stampReady .., _, h => execStampReady_holds hs _ _ t h
  | .fifoHandout .., _, h => execFifoHandout_holds hs _ t h
  | .injectedEvent .., _, h => execInjectedEvent_holds hs _ _ _ _ t h
  | .inputTableDone .., _, h => execInputTableDone_holds hs _ _ _ t h
  | .calStale .., _, h => execCalStale_holds hs _ _ t h
  | .recal .., _, h => execRecal_holds hs _ _ t h
  | .inputTableEcc .., _, h => execInputTableEcc_holds hs _ _ _ t h
  | .sessionEnable .., _, h => execSessionEnable_holds hs _ _ _ t h
  | .gateEnable .., _, h => execGateEnable_holds hs _ _ _ t h
  | .arm .., _, h => execArm_holds hs _ _ t h
  | .sessionAbort .., _, h => execSessionAbort_holds hs _ _ t h
  | .gateStart .., _, h => execGateStart_holds hs _ _ t h
  | .intakeDrain .., _, h => execIntakeDrain_holds hs _ t h
  | .sessionTimeout .., _, h => execSessionTimeout_holds hs _ t h
  | .gateEnd .., _, h => execGateEnd_holds hs _ t h
  | .tdcEngineEcc .., _, h => execTdcEngineEcc_holds hs _ _ t h
  | .streamPeriodicBase .., _, h => execStreamPeriodicBase_holds hs _ t h
  | .streamBatchWrite .., _, h => execStreamBatchWrite_holds hs _ t h
  | .streamResume .., _, h => execStreamResume_holds hs _ t h
  | .apllLockWindow .., _, h => execApllLockWindow_holds hs _ _ t h
  | .xoUpdate .., _, h => execXoUpdate_holds hs _ t h
  | .ageingFit .., _, h => execAgeingFit_holds hs _ t h
  | .refEnable .., _, h => execRefEnable_holds hs _ _ _ t h
  | .refObservation .., _, h => execRefObservation_holds hs _ t h
  | .refPresenceFail .., _, h => execRefPresenceFail_holds hs _ t h
  | .push .., _, h => execPush_holds hs _ _ t h
  | .acceptSlew .., _, h => execAcceptSlew_holds hs _ _ t h
  | .acceptStep .., _, h => execAcceptStep_holds hs _ _ t h
  | .reject .., _, h => execReject_holds hs _ _ t h
  | .clearSuspect .., _, h => execClearSuspect_holds hs _ _ t h
  | .requalify .., _, h => execRequalify_holds hs _ _ t h
  | .servoModeWrite .., _, h => execServoModeWrite_holds hs _ _ t h
  | .step .., _, h => execStep_holds hs _ t h
  | .stepProposed .., _, h => execStepProposed_holds hs _ t h
  | .slewProposed .., _, h => execSlewProposed_holds hs _ t h
  | .apllAEnable .., _, h => execApllAEnable_holds hs _ _ t h
  | .freqCmdSet .., _, h => execFreqCmdSet_holds hs _ t h
  | .runProfile .., _, h => execRunProfile_holds hs _ t h
  | .abortRamp .., _, h => execAbortRamp_holds hs _ t h
  | .relock .., _, h => execRelock_holds hs _ t h
  | .auxEnable .., _, h => execAuxEnable_holds hs _ _ _ t h
  | .auxPeriodEnd .., _, h => execAuxPeriodEnd_holds hs _ t h
  | .auxSafeExit .., _, h => execAuxSafeExit_holds hs _ _ t h
  | .switch .., _, h => execSwitch_holds hs _ t h
  | .pathAccept .., _, h => execPathAccept_holds hs _ t h
  | .pathClear .., _, h => execPathClear_holds hs _ t h
  | .ridgeSlotTx .., _, h => execRidgeSlotTx_holds hs _ t h
  | .ridgeBlockLock .., _, h => execRidgeBlockLock_holds hs _ t h
  | .timeCellRx .., _, h => execTimeCellRx_holds hs _ _ t h
  | .trigCellRx .., _, h => execTrigCellRx_holds hs _ _ t h
  | .mgmtRequestRx .., _, h => execMgmtRequestRx_holds hs _ _ t h
  | .mgmtResponseRx .., _, h => execMgmtResponseRx_holds hs _ _ t h
  | .fillCellRx .., _, h => execFillCellRx_holds hs _ t h
  | .ridgeLinkLost .., _, h => execRidgeLinkLost_holds hs _ t h
  | .ridgeObsInterval .., _, h => execRidgeObsInterval_holds hs _ t h
  | .issue .., _, h => execIssue_holds hs _ _ t h
  | .mgmtRead32 .., _, h => execMgmtRead32_holds hs _ _ t h
  | .mgmtWrite32 .., _, h => execMgmtWrite32_holds hs _ _ t h
  | .mgmtRead128 .., _, h => execMgmtRead128_holds hs _ _ t h
  | .mgmtWrite128 .., _, h => execMgmtWrite128_holds hs _ _ t h
  | .ethDoorbell .., _, h => execEthDoorbell_holds hs _ _ _ _ t h
  | .ethFrameTx .., _, h => execEthFrameTx_holds hs _ _ t h
  | .ethFrameRx .., _, h => execEthFrameRx_holds hs _ _ t h
  | .ethTxStamp .., _, h => execEthTxStamp_holds hs _ _ t h
  | .ethLinkChange .., _, h => execEthLinkChange_holds hs _ _ t h
  | .eaveSwitchover .., _, h => execEaveSwitchover_holds hs _ t h
  | .calCmdSet .., _, h => execCalCmdSet_holds hs _ t h
  | .syncNow .., _, h => execSyncNow_holds hs _ t h
  | .invalidate .., _, h => execInvalidate_holds hs _ t h
  | .trimRenew .., _, h => execTrimRenew_holds hs _ t h
  | .monitorTick .., _, h => execMonitorTick_holds hs _ t h
  | .pwrOn .., _, h => execPwrOn_holds hs _ t h
  | .pwrOff .., _, h => execPwrOff_holds hs _ t h
  | .alertSet .., _, h => execAlertSet_holds hs _ t h
  | .alertClr .., _, h => execAlertClr_holds hs _ t h
  | .wakeEdge .., _, h => execWakeEdge_holds hs _ t h
  | .logClear .., _, h => execLogClear_holds hs _ t h
  | .lineFault .., _, h => execLineFault_holds hs _ t h
  | .errInject .., _, h => execErrInject_holds hs _ _ _ t h
  | .inject .., _, h => execInject_holds hs _ _ _ t h
  | .clearPair .., _, h => execClearPair_holds hs _ t h
  | .enterSafe .., _, h => execEnterSafe_holds hs _ t h
  | .reinit .., _, h => execReinit_holds hs _ t h
  | .deviceSafeExit .., _, h => execDeviceSafeExit_holds hs _ t h
  | .firstFaultClear .., _, h => execFirstFaultClear_holds hs _ t h
  | .gutterStorageEcc .., _, h => execGutterStorageEcc_holds hs _ t h
  | .suppliesGood .., _, h => execSuppliesGood_holds hs _ t h
  | .supplyBelowThreshold .., hkeeps, _ => Bool.noConfusion hkeeps
  | .supplyOutOfRange .., _, h => execSupplyOutOfRange_holds hs _ t h
  | .deviceReset .., _, h => execDeviceReset_holds hs _ t h
  | .stage1Entry .., _, h => execStage1Entry_holds hs _ t h
  | .begin .., _, h => execBegin_holds hs _ t h
  | .writeWindow .., _, h => execWriteWindow_holds hs _ t h
  | .dmaWrite .., _, h => execDmaWrite_holds hs _ _ t h
  | .finish .., _, h => execFinish_holds hs _ _ t h
  | .activate .., _, h => execActivate_holds hs _ t h
  | .activateAtReset .., _, h => execActivateAtReset_holds hs _ t h
  | .confirm .., _, h => execConfirm_holds hs _ t h
  | .revert .., _, h => execRevert_holds hs _ t h
  | .flAbort .., _, h => execFlAbort_holds hs _ t h
  | .loadManifest .., _, h => execLoadManifest_holds hs _ t h
  | .clearManifest .., _, h => execClearManifest_holds hs _ t h
  | .readLog .., _, h => execReadLog_holds hs _ t h
  | .installKey .., _, h => execInstallKey_holds hs _ t h
  | .ownerEnroll .., _, h => execOwnerEnroll_holds hs _ t h
  | .copyBlockDone .., _, h => execCopyBlockDone_holds hs _ t h
  | .copyDone .., _, h => execCopyDone_holds hs _ t h
  | .microcodeBankSwap .., _, h => execMicrocodeBankSwap_holds hs _ t h
  | .cellDrop .., _, h => execCellDrop_holds hs _ _ t h
  | .configurationRequest .., _, h => execConfigurationRequest_holds hs _ t h
  | .boundaryScan .., _, h => execBoundaryScan_holds hs _ t h
  | .perstNAssert, _, h => execPerstNAssert_holds hs t h
  | .d3hotEntry, _, h => execD3hotEntry_holds hs t h
  | .yTakesEffect, _, h => execYTakesEffect_holds hs t h
  | .timescaleStep, _, h => execTimescaleStep_holds hs t h
  | .leapApply, _, h => execLeapApply_holds hs t h
  | .snapshotTimeout, _, h => execSnapshotTimeout_holds hs t h
  | .busEcc, _, h => execBusEcc_holds hs t h
  | .actionDispatch, _, h => execActionDispatch_holds hs t h
  | .actionNop, _, h => execActionNop_holds hs t h
  | .chanHi, _, h => execChanHi_holds hs t h
  | .chanLo, _, h => execChanLo_holds hs t h
  | .chanToggle, _, h => execChanToggle_holds hs t h
  | .chanPulse, _, h => execChanPulse_holds hs t h
  | .fireLine, _, h => execFireLine_holds hs t h
  | .seqStart, _, h => execSeqStart_holds hs t h
  | .seqJump, _, h => execSeqJump_holds hs t h
  | .seqStopAtEnd, _, h => execSeqStopAtEnd_holds hs t h
  | .seqStopNow, _, h => execSeqStopNow_holds hs t h
  | .measArm, _, h => execMeasArm_holds hs t h
  | .regWrite32, _, h => execRegWrite32_holds hs t h
  | .notify, _, h => execNotify_holds hs t h
  | .timescaleSeed, _, h => execTimescaleSeed_holds hs t h
  | .ovenStable, _, h => execOvenStable_holds hs t h
  | .ovenFault, _, h => execOvenFault_holds hs t h
  | .xtalFault, _, h => execXtalFault_holds hs t h
  | .slewEnd, _, h => execSlewEnd_holds hs t h
  | .rampEnd, _, h => execRampEnd_holds hs t h
  | .profileDone, _, h => execProfileDone_holds hs t h
  | .sscChange, _, h => execSscChange_holds hs t h
  | .threshCrossing, _, h => execThreshCrossing_holds hs t h
  | .tebReport, _, h => execTebReport_holds hs t h
  | .traceExpiry, _, h => execTraceExpiry_holds hs t h
  | .mgmtTimeout, _, h => execMgmtTimeout_holds hs t h
  | .eavePor, _, h => execEavePor_holds hs t h
  | .xt32Fault, _, h => execXt32Fault_holds hs t h
  | .eaveLeap, _, h => execEaveLeap_holds hs t h
  | .calendarSync, _, h => execCalendarSync_holds hs t h
  | .test, _, h => execTest_holds hs t h
  | .and, _, h => execAnd_holds hs t h
  | .or, _, h => execOr_holds hs t h
  | .setf, _, h => execSetf_holds hs t h
  | .jmp, _, h => execJmp_holds hs t h
  | .cnt, _, h => execCnt_holds hs t h
  | .cmp, _, h => execCmp_holds hs t h
  | .outPwrOn, _, h => execOutPwrOn_holds hs t h
  | .outPwrOff, _, h => execOutPwrOff_holds hs t h
  | .outAlertSet, _, h => execOutAlertSet_holds hs t h
  | .outAlertClr, _, h => execOutAlertClr_holds hs t h
  | .log, _, h => execLog_holds hs t h
  | .clrl, _, h => execClrl_holds hs t h
  | .progEnd, _, h => execProgEnd_holds hs t h
  | .programMemoryEcc, _, h => execProgramMemoryEcc_holds hs t h
  | .pwrDownDelayExpiry, _, h => execPwrDownDelayExpiry_holds hs t h
  | .alarm, _, h => execAlarm_holds hs t h
  | .faultCollect, _, h => execFaultCollect_holds hs t h
  | .injectionHoldEnd, _, h => execInjectionHoldEnd_holds hs t h
  | .pairSenseFault, _, h => execPairSenseFault_holds hs t h
  | .resetNLow, hkeeps, _ => absurd hkeeps (by decide)
  | .dieHot, _, h => execDieHot_holds hs t h
  | .dieCritical, _, h => execDieCritical_holds hs t h
  | .sclkMonitor, _, h => execSclkMonitor_holds hs t h
  | .mgmtWatchdogMiss, _, h => execMgmtWatchdogMiss_holds hs t h
  | .stage2Entry, _, h => execStage2Entry_holds hs t h
  | .stage3Entry, _, h => execStage3Entry_holds hs t h
  | .pcieLinkTraining, _, h => execPcieLinkTraining_holds hs t h
  | .flashDmaError, _, h => execFlashDmaError_holds hs t h
  | .mgmtRestartDone, _, h => execMgmtRestartDone_holds hs t h
  | .restartTimeout, _, h => execRestartTimeout_holds hs t h
  | .trialHealthy, _, h => execTrialHealthy_holds hs t h
  | .trialWindowExpiry, _, h => execTrialWindowExpiry_holds hs t h
  | .sramUncorr, _, h => execSramUncorr_holds hs t h

/-- A guarded meaning that keeps the queue keeps it on every operand. -/
theorem guarded_pending {i : Instr} {s t : State} {k : State → State} (hk : (k s).pending = s.pending) (h : guarded i s k = .next t) :
    t.pending = s.pending := by
  rw [guarded_next h]
  split
  · exact hk
  · rfl

/-- The rows that may store into BAR2 keep the queue too. -/
theorem exec_pending_of_mayStore {s t : State} : ∀ c : Instr, mayStore c = true → exec c s = .next t → t.pending = s.pending
  | .bar2Write off bytes, _, h => by
    refine guarded_pending (k := fun s => if s.pcieUp ∧ s.stage ≠ 0 then s.bar2Write off bytes else s) ?_ h
    rw [apply_ite State.pending, State.bar2Write_pending, ite_self]
  | .refillDone q bytes, _, h => by
    refine guarded_pending (k := fun s => if s.pcieUp then s.refillFinish q bytes else s) ?_ h
    rw [apply_ite State.pending, State.refillFinish_pending, ite_self]
  | .spiTransaction cmd addr data nread, _, h => guarded_pending (k := fun s => s.spi cmd addr data nread) (State.spi_pending s cmd addr data nread) h
  | .supplyBelowThreshold _, _, h => guarded_pending (k := fun s => s.coreReset 0) (State.coreReset_pending s 0) h
  | .resetNLow, _, h => guarded_pending (k := fun s => s.coreReset 1) (State.coreReset_pending s 1) h

/-- Settles O5: every meaning is guarded and so answers a state; the rows that cannot store keep BAR2 and the queue together, and the five others
keep the queue. -/
theorem commandsLeaveTheQueue : Obligations.CommandsLeaveTheQueue := by
  intro c s
  obtain ⟨t, h⟩ := exec_answers c s
  refine ⟨t, h, ?_⟩
  cases hc : mayStore c with
  | false => exact (exec_holds s.holds_self c hc h).2
  | true => exact exec_pending_of_mayStore c hc h

/-- Settles O6: a row that cannot store answers a state that holds the same BAR2. -/
theorem otherCommandsLeaveBar2 : Obligations.OtherCommandsLeaveBar2 :=
  fun c _ _ hc h => .of_holds (exec_holds (State.holds_self _) c hc h)

end Sys2Proof.Machine
end

section
/-! PROOFS. Elements of COMMAND rings (O14), and what stops with the endpoint (O58). -/

namespace Sys2Proof.Machine

/-! ### A read that is no pure read -/

/-- A core at Stage 1 with a COMMAND ring 0 that holds one element and answers into ring 1, and with entry 0 of the log of the Eave marked as one
whose ECC fails. -/
def badLogCommand : State :=
  ((((((({ State.reset with eave := { State.reset.eave with logBad := [0] } }.put pDEV DEV.STATUS.STAGE 1).put pHOSTQ (HOSTQ.RING_CFG.KIND 0) 2).put
    pHOSTQ (HOSTQ.RING_CFG.BIND 0) 1).put pHOSTQ (HOSTQ.RING_CTRL.ENABLE 0) 1).put pHOSTQ (HOSTQ.DOORBELL.HOST_IDX 0) 1).put
    pHOSTQ (HOSTQ.RING_CFG.KIND 1) 3).put pHOSTQ (HOSTQ.RING_CTRL.ENABLE 1) 1)

theorem badLogCommand_ready : badLogCommand.commandReady 0 = true := by decide +kernel

/-- COMMAND_READ32 whose element executes answers the state that the read leaves, with the element completed. -/
theorem exec_commandRead32_of_ready {s : State} {r tag page off : Nat} (hwf : (Instr.commandRead32 r tag page off).wf = true)
    (hready : s.commandReady r = true) : exec (.commandRead32 r tag page off) s =
      .next ((s.hostRead (.ring r) page off).2.complete r tag 2 off ((s.hostRead (.ring r) page off).1.getD 0) ⟨.ok, none⟩) := by
  refine (guarded_of_wf s (fun s => s.commandRun r tag 2 off fun s =>
    ((s.hostRead (.ring r) page off).2, (s.hostRead (.ring r) page off).1.getD 0, ⟨.ok, none⟩)) hwf).trans (congrArg _ ?_)
  exact if_pos hready

/-- Refutes O14, by its clause that a read changes no page but HOSTQ: the read of an entry of the log whose ECC fails sets SRAM_ECC in ERR_STATUS
of EAVE (R291). -/
theorem not_commandElements : ¬ Obligations.CommandElements := by
  intro h
  obtain ⟨-, -, hread, -⟩ := h badLogCommand (by decide +kernel) 0 (by decide) badLogCommand_ready (by decide +kernel) 0 pEAVE (EAVE.LOG.off 0) 0
    (by decide)
  have hwf : (Instr.commandRead32 0 0 pEAVE (EAVE.LOG.off 0)).wf = true := by decide
  obtain ⟨t, ht, -, hpages, -⟩ := hread hwf
  have herr : t.rd pEAVE 0x024 = badLogCommand.rd pEAVE 0x024 := hpages _ _ (by decide) (by decide)
  rw [← Host.Outcome.next.inj ((exec_commandRead32_of_ready hwf badLogCommand_ready).symm.trans ht)] at herr
  exact absurd herr (by decide +kernel)

/-! ### A ring that runs without a link -/

/-- The state after the first power-on reset, with ring 0 of HOSTQ enabled: there is no link yet. -/
def linklessRing : State := State.reset.put pHOSTQ (HOSTQ.RING_CTRL.ENABLE 0) 1

/-- Without a link nothing asks for D3hot. -/
theorem exec_d3hotEntry_of_no_link {s : State} (h : s.host.linkUp = false) : exec .d3hotEntry s = .next s := by
  refine (guarded_of_wf s (fun s => if s.host.linkUp ∧ !s.host.perst then s.endpointPower true else s) rfl).trans (congrArg _ ?_)
  simp [h]

/-- Refutes O58, by its clause that every enabled ring stops: without a link D3HOT_ENTRY changes nothing, and a ring enabled before the link is
trained (over SPI, R32) runs on. -/
theorem not_endpointStops : ¬ Obligations.EndpointStops := by
  intro h
  obtain ⟨t, ht, -, hrings, -⟩ := h linklessRing (by decide +kernel) .d3hotEntry (.inr rfl)
  have hsame : linklessRing = t := Host.Outcome.next.inj ((exec_d3hotEntry_of_no_link (by decide +kernel)).symm.trans ht)
  obtain ⟨hstops, -⟩ := hrings 0 (by decide)
  have hstopped : linklessRing.ringStopped 0 = true := hsame ▸ hstops (by decide +kernel)
  exact absurd hstopped (by decide +kernel)

end Sys2Proof.Machine
end

section
/-! SUPPORT. A write of a register of a page's body that holds one word and starts no command: what its block's meaning leaves is reported. -/

namespace Sys2Proof.Machine

section
variable {s t : State} {path : Path} {page off v i j : Nat} {k : Kind} {d : RegDesc}

/-- A valid value of a register of a page's body reaches the meaning of its block. -/
theorem State.writeReg_of_body {c : WCtx} (x : Extra) (hbase : 0x040 ≤ d.base) (hres : d.reserved c.v = false) (hfmt : formatOk k d c.v = true)
    (hrange : rangeOk k c.inst d.base c.v = true) : s.writeReg c k d j x = s.writeBody c k d j x := by
  simp only [State.writeReg, hres, hfmt, hrange, Nat.not_lt.2 hbase, Bool.not_true, Bool.false_eq_true, or_self, if_false]

/-- What `valueOk` says of a register of a page's body. -/
theorem valueOk_body (hreg : regAt page off = some (k, i, d, j, 0)) (hbase : 0x040 ≤ d.base) (hval : valueOk page off v = true) :
    d.reserved v = false ∧ formatOk k d v = true ∧ rangeOk k i d.base v = true := by
  simp only [valueOk, hreg, Nat.not_lt.2 hbase, Bool.and_eq_true, Bool.or_eq_true, Bool.not_eq_true', decide_eq_true_eq, false_or] at hval
  obtain ⟨⟨⟨-, hres⟩, hfmt⟩, hrange⟩ := hval
  exact ⟨hres, hfmt, hrange⟩

/-- A command that writes such a register is accepted where the meaning of the block accepts the value. -/
theorem Accepts.of_body {c : Instr} {P : State → Prop} (hexec : c.wf = true → exec c s = .next (s.wrote path page off v))
    (hreg : regAt page off = some (k, i, d, j, 0)) (hwords : d.words = 1) (hcmd : d.isCmd = false) (hbase : 0x040 ≤ d.base)
    (hmeaning : ∀ x, s.writeBody (s.wctx path page i d j v) k d j x = accept t) (hP : P (t.reported path page off (d.at_ j) (s.agentOf path))) :
    Accepts c s path page off v P := by
  refine Accepts.of_wrote (t := t) (base := d.at_ j) hexec (fun hpass hval => ?_) fun _ => hP
  obtain ⟨hres, hfmt, hrange⟩ := valueOk_body hreg hbase hval
  exact State.wrote_of_accepted hreg hwords hcmd hpass fun x => (State.writeReg_of_body x hbase hres hfmt hrange).trans (hmeaning x)

/-- Putting a value to the fields of a register of one word puts that word. -/
theorem State.putFields_eq_wr (s : State) (c : WCtx) (hwords : d.words = 1) :
    s.put_ c d = s.wr c.page c.off (BitVec.ofNat 32 (d.merge (s.present c d) c.v)) := by
  simp only [State.put_, hwords, State.wrN]

theorem State.putFields_host (s : State) (c : WCtx) (hwords : d.words = 1) : (s.put_ c d).host = s.host := by
  rw [State.putFields_eq_wr s c hwords, State.wr_host]

theorem State.putFields_clk (s : State) (c : WCtx) (hwords : d.words = 1) : (s.put_ c d).clk = s.clk := by
  rw [State.putFields_eq_wr s c hwords, State.wr_clk]

/-- Putting the fields of a register of one word keeps every other word. -/
theorem State.putFields_keepsRegs (s : State) (c : WCtx) (hwords : d.words = 1) (hpage : c.page = page) (hoff : c.off = off) (hlt : off < 4096) :
    KeepsRegs s (s.put_ c d) [(page, off)] := by
  intro p o ho hnot
  subst hpage hoff
  rw [State.putFields_eq_wr s c hwords]
  exact State.rd_wr_ne _ _ _ _ _ _ hlt ho (by simpa [Prod.ext_iff, imp_iff_not_or] using hnot)

theorem KeepsRegs.of_regs {u : State} {l : List (Nat × Nat)} (h : KeepsRegs s t l) (hregs : u.regs = t.regs) : KeepsRegs s u l :=
  fun p o ho hnot => (State.rd_of_regs hregs p o).trans (h p o ho hnot)

theorem KeepsRegs.trans {u : State} {l : List (Nat × Nat)} (h : KeepsRegs s t l) (h' : KeepsRegs t u l) : KeepsRegs s u l :=
  fun p o ho hnot => (h' p o ho hnot).trans (h p o ho hnot)

/-- What the report of a write of a word keeps of the registers, where its meaning keeps all but that word. -/
theorem KeepsRegs.of_reported (base agent : Nat) (h : KeepsRegs s t [(page, off)]) :
    KeepsRegs s (t.reported path page off base agent) [(page, off), (page, 0x02C)] := by
  intro p o ho hnot
  simp only [List.mem_cons, List.not_mem_nil, or_false, not_or] at hnot
  rw [State.rd_reported _ _ _ _ _ _ ho (by simpa [Prod.ext_iff, imp_iff_not_or] using hnot.2)]
  exact h p o ho (by simpa using hnot.1)

end

/-! ### The host records that a report leaves -/

section
variable (t : State) (path : Path) (page off base agent : Nat)

theorem State.reported_frozen : (t.reported path page off base agent).host.frozen = t.host.frozen := by
  simp [State.reported, State.lastCmd, State.unstage]

theorem State.reported_freezeNext : (t.reported path page off base agent).host.freezeNext = t.host.freezeNext := by
  simp [State.reported, State.lastCmd, State.unstage]

end

end Sys2Proof.Machine
end

section
/-! PROOFS. Snapshots (O15). -/

namespace Sys2Proof.Machine

/-- SNAP_CTL. -/
def snapCtl : RegDesc := ⟨DEV.SNAP_CTL.off, 0, 1, 1, [⟨31, 16, .ro, 0⟩, ⟨9, 9, .w1c, 0⟩, ⟨8, 8, .ro, 0⟩, ⟨1, 1, .w1s, 0⟩, ⟨0, 0, .w1s, 0⟩]⟩

theorem regAt_snapCtl : regAt pDEV DEV.SNAP_CTL.off = some (.dev, 0, snapCtl, 0, 0) := rfl

theorem State.writeBody_snapCtl (s : State) (c : WCtx) (x : Extra) : s.writeBody c .dev snapCtl 0 x = s.writeSnap c snapCtl := rfl

/-- The state in which a snapshot waits for the next SCLK edge. -/
def State.askFreeze (s : State) (agent : Nat) : State := { s with host := { s.host with freezeNext := some (agent, s.clk.slot) } }

section
variable {s : State} {c : WCtx}

theorem State.writeSnap_freeze (hv : c.v = 1) (hfrozen : s.host.frozen = none) (hnext : s.host.freezeNext = none) :
    s.writeSnap c snapCtl = accept ((s.put_ c snapCtl).askFreeze c.agent) := by
  have hbits : bitOf 1 0 = true ∧ bitOf 1 1 = false := by decide
  simp [State.writeSnap, hv, hfrozen, hnext, hbits, State.onlyIf, State.askFreeze]

theorem State.writeSnap_release (hv : c.v = 2) (hholder : s.get pDEV DEV.SNAP_CTL.HOLDER = c.agent) :
    s.writeSnap c snapCtl = accept (s.put_ c snapCtl).thaw := by
  have hbits : bitOf 2 0 = false ∧ bitOf 2 1 = true := by decide
  simp [State.writeSnap, hv, hholder, hbits, State.onlyIf]

end

/-! ### The end of a snapshot -/

section
variable (s : State)

theorem State.thaw_frozen : s.thaw.host.frozen = none := by simp only [State.thaw, State.putFlag_eq, State.put_host]

theorem State.thaw_flag : s.thaw.flag pDEV DEV.SNAP_CTL.FROZEN = false := by
  unfold State.thaw
  rw [State.flag, State.get_put_apart _ _ _ _ _ (by decide) (by decide) (by decide) (by decide) (by decide), State.putFlag_eq,
    State.get_put_self _ _ _ _ (by decide) (by decide)]
  rfl

theorem State.thaw_holder : s.thaw.get pDEV DEV.SNAP_CTL.HOLDER = 0 := State.get_put_self _ _ _ _ (by decide) (by decide)

theorem State.rd_thaw {p o : Nat} (ho : o < 4096) (h : (p, o) ≠ (pDEV, DEV.SNAP_CTL.off)) : s.thaw.rd p o = s.rd p o := by
  simp only [ne_eq, Prod.mk.injEq, not_and_or] at h
  unfold State.thaw
  rw [State.rd_put_ne _ _ (by decide) ho h, State.putFlag_eq, State.rd_put_ne _ _ (by decide) ho h]
  rfl

theorem State.thaw_keepsRegs : KeepsRegs s s.thaw [(pDEV, DEV.SNAP_CTL.off)] := fun _ _ ho hnot => s.rd_thaw ho (by simpa using hnot)

end

theorem accepts_freeze {s : State} {path : Path} (hfrozen : s.host.frozen = none) (hnext : s.host.freezeNext = none) :
    Accepts (.freeze path) s path pDEV DEV.SNAP_CTL.off 1 (fun t => t.host.freezeNext = some (s.agentOf path, s.clk.slot) ∧
      KeepsRegs s t [(pDEV, DEV.SNAP_CTL.off), (pDEV, 0x02C)] ∧ KeepsMemory s t) := by
  refine Accepts.of_body (fun h => guarded_of_wf s (fun s => s.wrote path pDEV DEV.SNAP_CTL.off 1) h) regAt_snapCtl rfl rfl (by decide)
    (fun x => State.writeSnap_freeze rfl hfrozen hnext) ⟨?_, .of_reported _ _ (.of_regs (s.putFields_keepsRegs _ rfl rfl rfl (by decide)) rfl), ?_⟩
  · rw [State.reported_freezeNext, State.askFreeze, State.putFields_clk _ _ rfl]
    rfl
  · exact .of_holds (State.reported_holds _ _ _ _ _ _ (State.put__holds s.holds_self _ _))

theorem accepts_snapshotRelease {s : State} {path : Path} (hholder : s.get pDEV DEV.SNAP_CTL.HOLDER = s.agentOf path) :
    Accepts (.snapshotRelease path) s path pDEV DEV.SNAP_CTL.off 2 (fun t => t.host.frozen = none ∧
      t.flag pDEV DEV.SNAP_CTL.FROZEN = false ∧ t.get pDEV DEV.SNAP_CTL.HOLDER = 0 ∧
      KeepsRegs s t [(pDEV, DEV.SNAP_CTL.off), (pDEV, 0x02C)] ∧ KeepsMemory s t) := by
  refine Accepts.of_body (fun h => guarded_of_wf s (fun s => s.wrote path pDEV DEV.SNAP_CTL.off 2) h) regAt_snapCtl rfl rfl (by decide)
    (fun x => State.writeSnap_release rfl hholder) ⟨?_, ?_, ?_, .of_reported _ _ (.trans (s.putFields_keepsRegs _ rfl rfl rfl (by decide)) (State.thaw_keepsRegs _)), ?_⟩
  · rw [State.reported_frozen, State.thaw_frozen]
  · rw [State.flag, State.get_reported _ _ _ _ _ _ (by decide) (.inr (by decide))]
    exact State.thaw_flag _
  · rw [State.get_reported _ _ _ _ _ _ (by decide) (.inr (by decide)), State.thaw_holder]
  · exact .of_holds (State.reported_holds _ _ _ _ _ _ (State.thaw_holds (State.put__holds s.holds_self _ _)))

theorem completes_snapshotTimeout {s : State} (hlate : s.snapshotLate = true) :
    Completes .snapshotTimeout s (fun t => t.host.frozen = none ∧ t.flag pDEV DEV.SNAP_CTL.FROZEN = false ∧
      t.flag pDEV DEV.SNAP_CTL.TIMED_OUT = true ∧ KeepsRegs s t [(pDEV, DEV.SNAP_CTL.off)] ∧ KeepsMemory s t) := by
  refine .of_exec (guarded_of_wf s (fun s => if s.snapshotLate then s.thaw.putFlag pDEV DEV.SNAP_CTL.TIMED_OUT true else s) rfl) ?_
  rw [if_pos hlate, State.putFlag_eq]
  refine ⟨?_, ?_, ?_, fun p o ho hnot => ?_, .of_holds (State.put_holds (State.thaw_holds s.holds_self) _ _ _)⟩
  · rw [State.put_host, State.thaw_frozen]
  · rw [State.flag, State.get_put_apart _ _ _ _ _ (by decide) (by decide) (by decide) (by decide) (by decide)]
    exact s.thaw_flag
  · rw [State.flag, State.get_put_self _ _ _ _ (by decide) (by decide)]
    rfl
  · rw [List.mem_singleton] at hnot
    rw [State.rd_put_ne _ _ (by decide) ho (by simpa [Prod.ext_iff, imp_iff_not_or] using hnot), State.rd_thaw _ ho hnot]

/-- Settles O15: a write of SNAP_CTL asks for the freeze, or ends the snapshot of its holder; a snapshot held too long ends by itself. -/
theorem snapshots : Obligations.Snapshots :=
  fun _ _ => ⟨accepts_freeze, accepts_snapshotRelease, completes_snapshotTimeout⟩

end Sys2Proof.Machine
end

section
/-! SUPPORT. A write that is judged, whatever its verdict: what LAST_CMD, the CMD registers and the conflict registers of OWN show then (R38, R40,
R45). -/

namespace Sys2Proof.Machine

/-! ### The report of a verdict -/

section
variable (s : State) (path : Path) (p off agent code : Nat) (r : Verdict)

/-- The word that LAST_CMD takes: the result, its detail, and more. -/
theorem lastCmdWord_bits (a b c d : Nat) : bitsOf (packRec [(16, 16, a), (12, 4, b), (8, 4, c), (0, 8, d)]) 15 12 = b % 16 ∧
    bitsOf (packRec [(16, 16, a), (12, 4, b), (8, 4, c), (0, 8, d)]) 31 16 = a % 65536 := by
  simp only [packRec, List.foldl, bitsOf]
  omega

theorem Res.code_lt (r : Res) : r.code < 16 := by cases r <;> decide

theorem State.lastCmd_shows : (s.lastCmd path p off agent code r).result p = r.res.code ∧
    (s.lastCmd path p off agent code r).detail p = r.detailOf off % 65536 := by
  suffices h : ∃ n m, (s.lastCmd path p off agent code r).rd p 0x02C =
      BitVec.ofNat 32 (packRec [(16, 16, r.detailOf off), (12, 4, r.res.code), (8, 4, n), (0, 8, m)]) by
    obtain ⟨n, m, hword⟩ := h
    obtain ⟨hres, hdetail⟩ := lastCmdWord_bits (r.detailOf off) r.res.code n m
    rw [State.result, State.detail, hword, BitVec.toNat_ofNat, bitsOf_mod _ _ _ _ (by decide), bitsOf_mod _ _ _ _ (by decide), hres, hdetail]
    exact ⟨Nat.mod_eq_of_lt r.res.code_lt, rfl⟩
  unfold State.lastCmd
  extract_lets key old w _ _ s1
  refine ⟨(bitsOf old 11 8 + 1) % 16, code, ?_⟩
  have hword : s1.rd p 0x02C = BitVec.ofNat 32 w := State.rd_wr_self _ _ _ _
  split
  · rw [State.rd_wr_ne _ _ _ _ _ _ (by decide) (by decide) (.inr (by decide)),
      State.rd_wr_ne _ _ _ _ _ _ (by decide) (by decide) (.inr (by decide)), State.incSat, State.rd_put_ne _ _ (by decide) (by decide) (.inr (by decide))]
    exact hword
  · exact hword

/-- A report touches LAST_CMD of the page and the conflict registers of OWN. -/
theorem State.lastCmd_keepsRegs : KeepsRegs s (s.lastCmd path p off agent code r) [(p, 0x02C), (pOWN, 0x200), (pOWN, 0x204), (pOWN, 0x208)] := by
  intro q o ho hnot
  simp only [List.mem_cons, Prod.mk.injEq, List.not_mem_nil, or_false, not_or, not_and_or] at hnot
  obtain ⟨hlast, hcount, hwho, hwhere⟩ := hnot
  unfold State.lastCmd
  extract_lets key old w _ _ s1
  have hword : s1.rd q o = s.rd q o := State.rd_wr_ne _ _ _ _ _ _ (by decide) ho hlast
  split
  · rw [State.rd_wr_ne _ _ _ _ _ _ (by decide) ho hwhere, State.rd_wr_ne _ _ _ _ _ _ (by decide) ho hwho, State.incSat,
      State.rd_put_ne _ _ (by decide) ho hcount]
    exact hword
  · exact hword

end

/-! ### What a CMD register shows -/

section
variable {s t : State} {path : Path} {page off v i j w : Nat} {k : Kind} {d : RegDesc} {r : Verdict}

theorem State.noteAt_keepsRegs (s : State) (path : Path) (page v : Nat) (hoff : off < 4096) :
    KeepsRegs s (s.noteAt path page off v) [(page, off)] := by
  intro p o ho hnot
  simp only [List.mem_singleton, Prod.mk.injEq, not_and_or] at hnot
  unfold State.noteAt
  split
  · split
    · exact State.rd_wr_ne _ _ _ _ _ _ hoff ho hnot
    · rfl
  · rfl

/-- A register that starts no command is not noted. -/
theorem State.noteAt_of_plain (s : State) (path : Path) (v : Nat) (hreg : regAt page off = some (k, i, d, j, w)) (hcmd : d.isCmd = false) :
    s.noteAt path page off v = s := by
  simp [State.noteAt, hreg, hcmd]

/-! ### From the judgement to the report -/

/-- A write of a word that is there leaves what its judgement leaves, noted and reported. -/
theorem State.wrote_of_judged (hreach : s.reaches path page = true) (hblock : (pageBlock page).isSome = true) (hlast : off ≠ 0x02C)
    (hjudge : ∀ x, s.judge_ path page off v x = (t, r)) :
    s.wrote path page off v = (t.noteAt path page off v).lastCmd path page off (s.agentOf path) (codeAt page off v) r := by
  have hthere : ¬((pageBlock page).isNone = true ∨ off = 0x02C) := by
    simpa [hlast, Option.isNone_iff_eq_none, Option.isSome_iff_ne_none] using hblock
  simp only [State.wrote, State.hostWrite, State.hostWrite_, hreach, Bool.not_true, Bool.false_eq_true, if_false, hthere, hjudge]

/-- The block of a register is that of its page. -/
theorem pageBlock_of_regAt (hreg : regAt page off = some (k, i, d, j, w)) : pageBlock page = some (k, i) := by
  simp only [regAt] at hreg
  split at hreg
  · simp at hreg
  · next b hb =>
    split at hreg
    · simp at hreg
    · simp only [Option.some.injEq, Prod.mk.injEq] at hreg
      obtain ⟨rfl, rfl, -⟩ := hreg
      exact hb

/-- A word whose write its owner alone may make is refused to every other writer, before its value is judged. -/
theorem State.judge_of_denied (hreg : regAt page off = some (k, i, d, j, w)) (hbar : s.barred path = false) (hlow : off < 0x800)
    (haligned : off % 4 = 0) (htakes : takesWrites path page off = true) (hkind : k ≠ .gutter)
    (hdenies : ∀ c : WCtx, c.path = path → c.agent = s.agentOf path → c.page = page → s.denies c k d.base j = some r) (x : Extra) :
    s.judge_ path page off v x = (s, r) := by
  have hoff : ¬(0x800 ≤ off ∨ off % 4 ≠ 0) := by omega
  have hrefuses : refusesWrites path k i d = false := by simpa [takesWrites, hreg] using htakes
  have hinert : ∀ n, s.inert k d n = false := fun n => by simp [State.inert, hkind]
  simp only [State.judge_, hbar, hoff, hreg, hrefuses, State.writeWord, hinert, Bool.false_eq_true, if_false]
  rw [hdenies _ rfl rfl rfl]

end

end Sys2Proof.Machine
end

section
/-! PROOFS. Writes to pages of other agents (O9). -/

namespace Sys2Proof.Machine

/-- OWNER is the register at 0x00C of every page, and no other register stands at that base. -/
theorem owner_of_base {k : Kind} : ∀ d ∈ kindRegs k, d.base = 0x00C → d.stride = 0 ∧ d.words = 1 := by
  cases k <;> decide

/-- A register of a page's body is not OWNER. -/
theorem base_ne_owner {page off i j w : Nat} {k : Kind} {d : RegDesc} (hreg : regAt page off = some (k, i, d, j, w)) (hbody : 0x040 ≤ off) :
    d.base ≠ 0x00C := by
  intro hbase
  simp only [regAt] at hreg
  split at hreg
  · simp at hreg
  · split at hreg
    · simp at hreg
    · next r hfind =>
      simp only [Option.some.injEq, Prod.mk.injEq] at hreg
      obtain ⟨-, -, rfl, -, -⟩ := hreg
      obtain ⟨hmem, hhit⟩ := findReg_mem hfind
      obtain ⟨hstride, hwords⟩ := owner_of_base _ hmem hbase
      simp only [RegDesc.hit, hbase, hstride, hwords, if_true] at hhit
      split at hhit
      · simp at hhit
      · simp only [Option.ite_none_right_eq_some] at hhit
        omega

section
variable {s : State} {c : WCtx} {k : Kind} {base j : Nat}

/-- The blocks whose pages only their owner writes while they have one. -/
def pagedKinds : List Kind := [.dev, .dir, .refsel, .servo, .apllm, .aplla, .tsc, .domain, .flash, .course, .rdg, .eth, .sync]

/-- The blocks whose pages their owner alone writes. -/
def heldKinds : List Kind := [.chan, .aux, .cal, .seq, .phase]

theorem State.governs_paged (hk : k ∈ pagedKinds) (hbase : base ≠ 0x00C) : s.governs c k base j = .page (s.pageOwner c.page) := by
  simp only [pagedKinds, List.mem_cons, List.not_mem_nil, or_false] at hk
  rcases hk with rfl | rfl | rfl | rfl | rfl | rfl | rfl | rfl | rfl | rfl | rfl | rfl | rfl <;> exact if_neg hbase

theorem State.governs_held (hk : k ∈ heldKinds) (hbase : base ≠ 0x00C) : s.governs c k base j = .held (s.pageOwner c.page) := by
  simp only [heldKinds, List.mem_cons, List.not_mem_nil, or_false] at hk
  rcases hk with rfl | rfl | rfl | rfl | rfl <;> exact if_neg hbase

/-- A page that another agent owns, or that its owner alone writes, denies the writer and names its owner. -/
theorem State.denies_foreign (hk : k ∈ pagedKinds ∧ s.pageOwner c.page ≠ 0 ∨ k ∈ heldKinds)
    (hforeign : s.pageOwner c.page ≠ c.agent ∨ s.pageOwner c.page = 0) (hpath : c.path ≠ .i2c) (hbase : base ≠ 0x00C) :
    s.denies c k base j = some ⟨.denied, some (s.pageOwner c.page)⟩ := by
  have hi2c : ¬(c.path = .i2c ∧ (!s.mainOn) = true) := fun h => hpath h.1
  rw [State.denies, if_neg hi2c]
  rcases hk with ⟨hk, howned⟩ | hk
  · rw [State.governs_paged hk hbase]
    exact if_neg (by tauto)
  · rw [State.governs_held hk hbase]
    exact if_neg (by tauto)

end

theorem State.pageOwner_lt (s : State) (p : Nat) : s.pageOwner p < 65536 := Nat.mod_lt _ (by decide)

/-- Settles O9: a page of another agent denies the write before its value is judged, so that only the report, and what a CMD register shows of the
command refused, change a register. -/
theorem foreignWritesAreDenied : Obligations.ForeignWritesAreDenied := by
  intro s path page off v k i d j w hreg hkind hforeign hwf hreach hbar _ hbody hlow htakes hpath
  have haligned : off % 4 = 0 := by
    simp only [Instr.wf, Bool.and_eq_true, decide_eq_true_eq] at hwf
    exact hwf.1.2
  have hpaged : k ∈ pagedKinds ∧ s.pageOwner page ≠ 0 ∨ k ∈ heldKinds := hkind
  have hgutter : k ≠ .gutter := by
    rintro rfl
    exact absurd hpaged (by simp [pagedKinds, heldKinds])
  have hjudge := fun x => State.judge_of_denied (v := v) hreg hbar hlow haligned htakes hgutter (fun c hcpath hcagent hcpage =>
    hcpage ▸ State.denies_foreign (hcpage ▸ hpaged) (by rwa [hcpage, hcagent]) (hcpath ▸ hpath) (base_ne_owner hreg hbody)) x
  refine .of_exec (guarded_of_wf s (fun s => s.wrote path page off v) hwf) ?_
  obtain ⟨hresult, hdetail⟩ := State.lastCmd_shows (s.noteAt path page off v) path page off (s.agentOf path) (codeAt page off v)
    ⟨.denied, some (s.pageOwner page)⟩
  have hreport := State.lastCmd_keepsRegs (s.noteAt path page off v) path page off (s.agentOf path) (codeAt page off v)
    ⟨.denied, some (s.pageOwner page)⟩
  have hwrote := State.wrote_of_judged hreach (by rw [pageBlock_of_regAt hreg]; rfl) (by omega) hjudge
  refine ⟨hwrote ▸ hresult, ?_, fun p o ho hnot => ?_, fun hcmd => ?_, .of_holds (State.wrote_holds s.holds_self _ _ _ _)⟩
  · rw [hwrote, hdetail]
    exact Nat.mod_eq_of_lt (s.pageOwner_lt page)
  · simp only [List.mem_cons, not_or] at hnot
    obtain ⟨hword, hrest⟩ := hnot
    rw [hwrote, hreport p o ho (by simpa using hrest)]
    exact State.noteAt_keepsRegs s path page v (by omega) p o ho (by simpa using hword)
  · have hown : page ≠ pOWN := by
      rintro rfl
      obtain ⟨rfl, rfl⟩ : Kind.own = k ∧ 0 = i := by simpa [pageBlock] using pageBlock_of_regAt hreg
      exact absurd hpaged (by simp [pagedKinds, heldKinds])
    rw [hwrote, hreport page off (by omega) (by simp; omega), State.noteAt_of_plain s path v hreg hcmd]

end Sys2Proof.Machine
end

section
/-! SUPPORT. The fields of a register after a write of it (R38), and operations after which all but a few register words stand. -/

namespace Sys2Proof.Machine

/-! ### The fields of a register after a write -/

/-- What a field takes of a value written over an old one, by its access type. -/
def FieldDesc.taken (f : FieldDesc) (old v : Nat) : Nat :=
  match f.acc with
  | .ro => bitsOf old f.hi f.lo
  | .w1s => bitsOf old f.hi f.lo
  | .w1c => clearBits (bitsOf old f.hi f.lo) (bitsOf v f.hi f.lo)
  | _ => bitsOf v f.hi f.lo

/-- The fields of a register have their bits in order and lie apart. -/
def FieldsApart (l : List FieldDesc) : Prop := (∀ f ∈ l, f.lo ≤ f.hi) ∧ l.Pairwise fun f g => f.hi < g.lo ∨ g.hi < f.lo

theorem bitsOf_foldl_putBits_apart {l : List FieldDesc} (x : FieldDesc → Nat) (hi lo n : Nat) (hbits : ∀ f ∈ l, f.lo ≤ f.hi)
    (hapart : ∀ f ∈ l, hi < f.lo ∨ f.hi < lo) : bitsOf (l.foldl (fun n f => putBits n f.hi f.lo (x f)) n) hi lo = bitsOf n hi lo := by
  induction l generalizing n with
  | nil => rfl
  | cons f l ih =>
    rw [List.foldl_cons, ih _ (fun g hg => hbits g (List.mem_cons_of_mem _ hg)) (fun g hg => hapart g (List.mem_cons_of_mem _ hg))]
    exact bitsOf_putBits_ne _ _ _ _ _ _ (hbits f List.mem_cons_self) (hapart f List.mem_cons_self)

/-- Of fields that lie apart each one reads what it was put to. -/
theorem bitsOf_foldl_putBits {l : List FieldDesc} (x : FieldDesc → Nat) (hl : FieldsApart l) {f : FieldDesc} (hf : f ∈ l) (n : Nat) :
    bitsOf (l.foldl (fun n f => putBits n f.hi f.lo (x f)) n) f.hi f.lo = x f % 2 ^ (f.hi + 1 - f.lo) := by
  induction l generalizing n with
  | nil => simp at hf
  | cons g l ih =>
    obtain ⟨hbits, hpair⟩ := hl
    obtain ⟨hhead, htail⟩ := List.pairwise_cons.1 hpair
    have hrest : ∀ f ∈ l, f.lo ≤ f.hi := fun f hf => hbits f (List.mem_cons_of_mem _ hf)
    rcases List.mem_cons.1 hf with rfl | hmem
    · rw [List.foldl_cons, bitsOf_foldl_putBits_apart x _ _ _ hrest (hhead ·)]
      exact bitsOf_putBits_self _ _ _ _ (hbits _ List.mem_cons_self)
    · exact ih ⟨hrest, htail⟩ hmem _

theorem RegDesc.merge_eq (d : RegDesc) (old v : Nat) : d.merge old v = d.fields.foldl (fun n f => putBits n f.hi f.lo (f.taken old v)) 0 := rfl

/-- A field of a register of one word that takes what is written reads it after the write. -/
theorem State.get_putFields {s : State} {c : WCtx} {d : RegDesc} (hwords : d.words = 1) (hl : FieldsApart d.fields) {f : FieldDesc}
    (hf : f ∈ d.fields) (hhi : f.hi < 32) (hacc : f.acc = .rw ∨ f.acc = .rwl) :
    (s.put_ c d).get c.page ⟨c.off, f.hi, f.lo⟩ = bitsOf c.v f.hi f.lo := by
  have htaken : f.taken (s.present c d) c.v = bitsOf c.v f.hi f.lo := by rcases hacc with h | h <;> simp [FieldDesc.taken, h]
  rw [State.putFields_eq_wr s c hwords]
  simp only [State.get, hhi, if_true, State.rd_wr_self, BitVec.toNat_ofNat]
  rw [bitsOf_mod _ _ _ _ hhi, RegDesc.merge_eq, bitsOf_foldl_putBits _ hl hf, htaken]
  exact Nat.mod_eq_of_lt (bitsOf_lt _ _ _)

/-! ### What stands -/

section
variable {s t u : State} {l m : List (Nat × Nat)}

theorem KeepsRegs.refl : KeepsRegs s s l := fun _ _ _ _ => rfl

theorem KeepsRegs.mono (h : KeepsRegs s t l) (hsub : ∀ e ∈ l, e ∈ m) : KeepsRegs s t m := fun p o ho hnot => h p o ho fun hmem => hnot (hsub _ hmem)

theorem KeepsRegs.of_same (hregs : t.regs = s.regs) : KeepsRegs s t l := KeepsRegs.refl.of_regs hregs

theorem KeepsRegs.put (p : Nat) {f : Fld} (v : Nat) (hf : OneWord f) : KeepsRegs s (s.put p f v) [(p, f.off)] := fun _ _ ho hnot =>
  State.rd_put_ne _ _ hf ho (by simpa [Prod.ext_iff, imp_iff_not_or] using hnot)

theorem KeepsRegs.forEach {α : Type} (l' : List α) (f : α → State → State) (h : ∀ a u, KeepsRegs u (f a u) l) : KeepsRegs s (s.forEach l' f) l := by
  induction l' generalizing s with
  | nil => exact refl
  | cons a l' ih => exact (h a s).trans ih

/-- Where only words of one page change, all other pages stand. -/
theorem KeepsRegs.keepsPages {p : Nat} (h : KeepsRegs s t l) (hl : ∀ e ∈ l, e.1 = p) : KeepsPages s t [p] := fun q o ho hq =>
  h q o ho fun hmem => hq (List.mem_singleton.2 (hl _ hmem))

/-- A field of one word that is not among those changed reads the same. -/
theorem KeepsRegs.get_eq (h : KeepsRegs s t l) {p : Nat} {f : Fld} (hf : OneWord f) (hnot : (p, f.off) ∉ l) : t.get p f = s.get p f := by
  simp only [State.get, hf.2.1, if_true, h p f.off hf.2.2 hnot]

theorem KeepsRegs.err (p bit : Nat) : KeepsRegs s (s.err p bit) [(p, 0x024)] := fun q o ho hnot =>
  (State.rd_of_regs (s.err_regs p bit) q o).trans
    (State.rd_wr_ne _ _ _ _ _ _ (by decide) ho (by simpa [Prod.ext_iff, imp_iff_not_or] using hnot))

/-- A field of one word stands when a field of another word is put. -/
theorem State.get_put_ne {p q : Nat} {f g : Fld} (v : Nat) (hf : OneWord f) (hg : OneWord g) (h : q ≠ p ∨ g.off ≠ f.off) :
    (s.put p f v).get q g = s.get q g := State.get_put_off _ _ _ _ _ _ hf.2.1 hg.2.1 hf.2.2 hg.2.2 h

/-- A put to a page changes no word of a page before it, wherever its field lies. -/
theorem State.rd_put_of_page_lt (s : State) {p q o : Nat} (f : Fld) (v : Nat) (ho : o < 4096) (h : q < p) : (s.put p f v).rd q o = s.rd q o := by
  have hkey : ∀ r, regKey q o ≠ regKey p r := fun r => by unfold regKey; omega
  unfold State.put
  split
  · exact State.rd_wr_of_ne _ _ _ _ _ _ (hkey _)
  · exact State.rd_wrN_of_lt _ _ _ _ _ _ _ fun _ _ => hkey _

end

end Sys2Proof.Machine
end

section
/-! SUPPORT. The rings of HOSTQ (R49 to R55): where their registers stand, and what the operations on a ring leave of the registers. -/

namespace Sys2Proof.Machine

/-! ### The registers of a ring -/

/-- RING_CFG, RING_CTRL and DOORBELL. -/
def ringCfg : RegDesc := ⟨HOSTQ.RING_CFG.off 0, 0x20, 32, 1, [⟨31, 28, .rwl, 0⟩, ⟨27, 20, .rwl, 0⟩, ⟨19, 18, .rwl, 0⟩, ⟨15, 10, .rw, 0⟩, ⟨4, 0, .rwl, 6⟩]⟩
def ringCtrl : RegDesc := ⟨HOSTQ.RING_CTRL.off 0, 0x20, 32, 1, [⟨31, 31, .rw, 0⟩, ⟨30, 30, .ro, 0⟩, ⟨23, 16, .rw, 0⟩, ⟨15, 0, .rw, 0⟩]⟩
def ringDoorbell : RegDesc := ⟨HOSTQ.DOORBELL.off 0, 0x20, 32, 1, [⟨31, 0, .rw, 0⟩]⟩

section
variable {r : Nat} (hr : r < 32)
include hr

theorem regAt_ringCfg : regAt pHOSTQ (HOSTQ.RING_CFG.off r) = some (.hostq, 0, ringCfg, r, 0) := by
  interval_cases r <;> rfl

theorem regAt_ringCtrl : regAt pHOSTQ (HOSTQ.RING_CTRL.off r) = some (.hostq, 0, ringCtrl, r, 0) := by
  interval_cases r <;> rfl

theorem regAt_ringDoorbell : regAt pHOSTQ (HOSTQ.DOORBELL.off r) = some (.hostq, 0, ringDoorbell, r, 0) := by
  interval_cases r <;> rfl

/-- The fields of a ring's registers lie in one word each. -/
theorem oneWord_ring {base hi lo : Nat} (hbase : base < 0x60) (h : lo ≤ hi ∧ hi < 32) : OneWord ⟨base + 0x20 * r, hi, lo⟩ :=
  ⟨h.1, h.2, show base + 0x20 * r < 4096 by omega⟩

theorem oneWord_ringLost : OneWord (HOSTQ.RING_LOST.LOST r) :=
  ⟨Nat.zero_le _, Nat.lt_of_sub_eq_succ rfl, show 0x440 + 0x4 * r < 4096 by omega⟩

end

theorem ringOff_ne (r : Nat) {a b : Nat} (h : a ≠ b) : a + 0x20 * r ≠ b + 0x20 * r := by omega

theorem ringOff_ne_lost {r a : Nat} (hr : r < 32) (ha : a < 0x60) : a + 0x20 * r ≠ 0x440 + 0x4 * r := by omega

/-! ### Operations on a ring -/

section
variable (s : State) (r : Nat)

theorem State.ringWriteback_regs : (s.ringWriteback r).regs = s.regs := by
  unfold State.ringWriteback
  split <;> rfl

theorem State.ringNotify_regs : (s.ringNotify r).regs = s.regs := by
  unfold State.ringNotify
  extract_lets v was x s1
  have h1 : s1.regs = s.regs := rfl
  repeat' split
  all_goals first
    | exact (State.sendMsix_regs _ _).trans h1
    | exact h1

theorem State.resend_regs (v : Nat) : (s.resend v).regs = s.regs := by
  unfold State.resend
  split
  · exact State.sendMsix_regs _ _
  · split <;> rfl

theorem State.sendNew_regs (old : State) (v : Nat) : (s.sendNew old v).regs = s.regs := by
  unfold State.sendNew
  split
  · exact State.sendMsix_regs _ _
  · rfl

variable {r} (hr : r < 32)
include hr

theorem State.ringPut_keepsRegs (elem : Nat) : KeepsRegs s (s.ringPut r elem) [(pHOSTQ, HOSTQ.DEV_IDX.off r)] := by
  unfold State.ringPut State.incWrap
  exact (KeepsRegs.of_same rfl).trans (.put pHOSTQ _ (oneWord_ring hr (by decide) (by decide)))

/-- Records that are written change DEV_IDX of their ring alone. -/
theorem State.ringDrain_keepsRegs (k : Nat) : KeepsRegs s (State.ringDrain k r s) [(pHOSTQ, HOSTQ.DEV_IDX.off r)] := by
  induction k generalizing s with
  | zero => exact .refl
  | succ k ih =>
    unfold State.ringDrain
    split
    · exact .refl
    · next rec rest _ =>
      split
      · exact .refl
      · have hput := (KeepsRegs.of_same rfl : KeepsRegs s (s.setRing r { s.ring r with held := rest }) _).trans
          (.forEach rec (fun e s => s.ringPut r e) fun e u => u.ringPut_keepsRegs hr e)
        exact ((hput.of_regs (State.ringWriteback_regs _ _)).of_regs (State.ringNotify_regs _ _)).trans (ih _)

end

/-! ### A ring that starts (R49, R53, R195) -/

/-- A ring with both indices at zero and nothing held. -/
def State.ringCleared (s : State) (r lost : Nat) (stopped : Bool) : State :=
  ((((s.setRing r { s.ring r with held := [], pend := 0 }).put pHOSTQ (HOSTQ.DOORBELL.HOST_IDX r) 0).put pHOSTQ (HOSTQ.DEV_IDX.DEV_IDX r) 0).put pHOSTQ
    (HOSTQ.RING_LOST.LOST r) lost).putFlag pHOSTQ (HOSTQ.RING_CTRL.STOPPED r) stopped

/-- A ring starts cleared; with a stream ring the stream begins. -/
theorem State.ringStart_cases (s : State) (r : Nat) : ∃ lost stopped, s.ringKind r ≠ 4 ∧ s.ringStart r = s.ringCleared r lost stopped ∨
    s.ringKind r = 4 ∧ ∃ k n, s.ringStart r = ((s.ringCleared r lost stopped).streamLose k n).streamStart k := by
  by_cases hkind : s.ringKind r = 4
  · refine ⟨(s.ring r).held.length + streamRecords (s.stream (s.ringBind r)).batch, s.host.perst || s.host.d3hot, .inr ⟨hkind, s.ringBind r,
      ((s.stream (s.ringBind r)).batch.filter (·.stamp)).length, ?_⟩⟩
    simp only [State.ringStart, hkind, beq_self_eq_true, if_true]
    rfl
  · refine ⟨(s.ring r).held.length + streamRecords [], s.host.perst || s.host.d3hot, .inl ⟨hkind, ?_⟩⟩
    simp only [State.ringStart, beq_eq_false_iff_ne.2 hkind, Bool.false_eq_true, if_false]
    rfl

theorem State.streamBase_regs (s : State) (k reason gen : Nat) : (s.streamBase k reason gen).regs = s.regs := rfl

/-- The beginning of a stream changes no word of a page before TDC. -/
theorem State.rd_streamBegun (s : State) (k n : Nat) {p o : Nat} (hp : p < pTDC) (ho : o < 4096) :
    ((s.streamLose k n).streamStart k).rd p o = s.rd p o := by
  unfold State.streamStart
  extract_lets t
  rw [State.rd_of_regs (State.streamBase_regs _ _ _ _), State.putFlag_eq, State.rd_put_of_page_lt _ _ _ ho hp]
  exact State.rd_put_of_page_lt _ _ _ ho hp

section
variable (s : State) {r : Nat} (hr : r < 32) (lost : Nat) (stopped : Bool)
include hr

theorem State.ringCleared_shows : (s.ringCleared r lost stopped).ringOn r = s.ringOn r ∧
    (s.ringCleared r lost stopped).get pHOSTQ (HOSTQ.DOORBELL.HOST_IDX r) = 0 ∧
    (s.ringCleared r lost stopped).get pHOSTQ (HOSTQ.DEV_IDX.DEV_IDX r) = 0 := by
  have hon : OneWord (HOSTQ.RING_CTRL.ENABLE r) := oneWord_ring hr (by decide) (by decide)
  have hstop : OneWord (HOSTQ.RING_CTRL.STOPPED r) := oneWord_ring hr (by decide) (by decide)
  have hhost : OneWord (HOSTQ.DOORBELL.HOST_IDX r) := oneWord_ring hr (by decide) (by decide)
  have hdev : OneWord (HOSTQ.DEV_IDX.DEV_IDX r) := oneWord_ring hr (by decide) (by decide)
  have hlost := oneWord_ringLost hr
  have hctlLost : HOSTQ.RING_CTRL.off r ≠ HOSTQ.RING_LOST.off r := ringOff_ne_lost hr (by decide)
  have hctlDev : HOSTQ.RING_CTRL.off r ≠ HOSTQ.DEV_IDX.off r := ringOff_ne r (by decide)
  have hctlHost : HOSTQ.RING_CTRL.off r ≠ HOSTQ.DOORBELL.off r := ringOff_ne r (by decide)
  have hhostLost : HOSTQ.DOORBELL.off r ≠ HOSTQ.RING_LOST.off r := ringOff_ne_lost hr (by decide)
  have hhostDev : HOSTQ.DOORBELL.off r ≠ HOSTQ.DEV_IDX.off r := ringOff_ne r (by decide)
  have hdevLost : HOSTQ.DEV_IDX.off r ≠ HOSTQ.RING_LOST.off r := ringOff_ne_lost hr (by decide)
  unfold State.ringCleared
  rw [State.putFlag_eq]
  refine ⟨?_, ?_, ?_⟩
  · rw [State.ringOn, State.flag, State.get_put_apart _ _ _ _ _ hstop.1 hstop.2.1 hon.2.1 (by rfl) (.inr (Nat.lt_succ_self 30)),
      State.get_put_ne _ hlost hon (.inr hctlLost), State.get_put_ne _ hdev hon (.inr hctlDev), State.get_put_ne _ hhost hon (.inr hctlHost)]
    rfl
  · rw [State.get_put_ne _ hstop hhost (.inr hctlHost.symm), State.get_put_ne _ hlost hhost (.inr hhostLost),
      State.get_put_ne _ hdev hhost (.inr hhostDev), State.get_put_self _ _ _ _ hhost.1 hhost.2.1]
    exact Nat.zero_mod _
  · rw [State.get_put_ne _ hstop hdev (.inr hctlDev.symm), State.get_put_ne _ hlost hdev (.inr hdevLost),
      State.get_put_self _ _ _ _ hdev.1 hdev.2.1]
    exact Nat.zero_mod _

end

theorem State.ringCleared_held {s : State} {r : Nat} (hr : r < s.host.rings.length) (lost : Nat) (stopped : Bool) :
    ((s.ringCleared r lost stopped).ring r).held = [] := by
  have hhost : (s.ringCleared r lost stopped).host = (s.setRing r { s.ring r with held := [], pend := 0 }).host := by
    simp only [State.ringCleared, State.putFlag_eq, State.put_host]
  rw [State.ring, hhost, ← State.ring, State.ring_setRing _ _ _ hr]

end Sys2Proof.Machine
end

section
/-! PROOFS. The commands of the rings of HOSTQ (O13): enabling, disabling, configuration and doorbells. -/

namespace Sys2Proof.Machine

/-! ### Bits -/

theorem bitsOf_single (n k : Nat) : bitsOf n k k = b2n (bitOf n k) := by
  have hlt : n / 2 ^ k % 2 < 2 := Nat.mod_lt _ (by decide)
  simp only [bitsOf, bitOf, b2n, Nat.add_sub_cancel_left, Nat.pow_one, beq_iff_eq]
  split <;> omega

theorem bitOf_clrBit_self (n k : Nat) : bitOf (clrBit n k) k = false := by
  unfold clrBit
  split
  · next hset =>
    have hdiv : (n - 2 ^ k) / 2 ^ k = n / 2 ^ k - 1 := by simpa using Nat.sub_mul_div n (2 ^ k) 1
    simp only [bitOf, beq_iff_eq] at hset
    simp only [bitOf, hdiv, beq_eq_false_iff_ne]
    omega
  · next hclear => simpa using hclear

/-! ### The fields of a ring's registers -/

theorem ringCfg_apart : FieldsApart ringCfg.fields := by simp [FieldsApart, ringCfg]

theorem ringCtrl_apart : FieldsApart ringCtrl.fields := by simp [FieldsApart, ringCtrl]

theorem ringDoorbell_apart : FieldsApart ringDoorbell.fields := by simp [FieldsApart, ringDoorbell]

/-! ### What a report leaves of a ring -/

theorem State.reported_ring (t : State) (path : Path) (page off base agent r : Nat) : (t.reported path page off base agent).ring r = t.ring r := by
  simp [State.reported, State.lastCmd, State.unstage, State.ring]

/-- The fields of a ring's registers read through the report of a write. -/
theorem State.get_ring_reported (t : State) (path : Path) {r : Nat} (hr : r < 32) (off base' agent : Nat) {base hi lo : Nat} (hbase : base < 0x60)
    (hlow : 0x40 ≤ base) (h : lo ≤ hi ∧ hi < 32) :
    (t.reported path pHOSTQ off base' agent).get pHOSTQ ⟨base + 0x20 * r, hi, lo⟩ = t.get pHOSTQ ⟨base + 0x20 * r, hi, lo⟩ :=
  State.get_reported _ _ _ _ _ _ (oneWord_ring hr hbase h) (.inr (show base + 0x20 * r ≠ 0x02C by omega))

/-- The report of a write changes no other page. -/
theorem KeepsPages.of_reported {s t : State} {path : Path} {page off : Nat} (base agent : Nat) (h : KeepsPages s t [page]) :
    KeepsPages s (t.reported path page off base agent) [page] := fun p o ho hp =>
  (State.rd_reported _ _ _ _ _ _ ho (.inl (by simpa using hp))).trans (h p o ho hp)

section
variable {s : State} {path : Path} {r : Nat} (hr : r < 32) {v : Nat}
include hr

/-- A ring that was enabled and starts is enabled with both indices at zero, and without a stream holds nothing. -/
theorem State.ringStart_shows {t : State} (hlen : r < t.host.rings.length) (hon : t.ringOn r = true) (hkind : t.ringKind r = s.ringKind r) :
    (t.ringStart r).ringOn r = true ∧ (t.ringStart r).get pHOSTQ (HOSTQ.DOORBELL.HOST_IDX r) = 0 ∧
    (s.ringKind r ≠ 4 → (t.ringStart r).get pHOSTQ (HOSTQ.DEV_IDX.DEV_IDX r) = 0 ∧ ((t.ringStart r).ring r).held = []) := by
  obtain ⟨lost, stopped, ⟨-, heq⟩ | ⟨hstream, k, n, heq⟩⟩ := t.ringStart_cases r
  all_goals obtain ⟨hon', hhost, hdev⟩ := t.ringCleared_shows hr lost stopped
  · rw [heq]
    exact ⟨hon'.trans hon, hhost, fun _ => ⟨hdev, State.ringCleared_held hlen lost stopped⟩⟩
  · have hbegun : ∀ {base hi lo}, base < 0x60 → lo ≤ hi ∧ hi < 32 → (t.ringStart r).get pHOSTQ ⟨base + 0x20 * r, hi, lo⟩ =
        (t.ringCleared r lost stopped).get pHOSTQ ⟨base + 0x20 * r, hi, lo⟩ := fun hbase h => by
      have hword := oneWord_ring hr hbase h
      simp only [State.get, hword.2.1, if_true, heq, State.rd_streamBegun _ k n (by decide : pHOSTQ < pTDC) hword.2.2]
    refine ⟨?_, (hbegun (by decide) (by decide)).trans hhost, fun hne => absurd (hkind ▸ hstream) hne⟩
    rw [State.ringOn, State.flag, hbegun (by decide) (by decide)]
    exact hon'.trans hon

omit hr in
/-- The context of a write of a register of a ring. -/
def State.ringCtx (s : State) (path : Path) (d : RegDesc) (r v : Nat) : WCtx := s.wctx path pHOSTQ 0 d r v

omit hr in
/-- A field of a ring's register that takes what is written reads it. -/
theorem State.get_ring_put {d : RegDesc} (hwords : d.words = 1) (hl : FieldsApart d.fields) {f : FieldDesc} (hf : f ∈ d.fields) (hhi : f.hi < 32)
    (hacc : f.acc = .rw ∨ f.acc = .rwl) : (s.put_ (s.ringCtx path d r v) d).get pHOSTQ ⟨d.at_ r, f.hi, f.lo⟩ = bitsOf v f.hi f.lo :=
  State.get_putFields (c := s.ringCtx path d r v) hwords hl hf hhi hacc

theorem State.ring_put_keepsRegs (s : State) (path : Path) (d : RegDesc) (v : Nat) (hwords : d.words = 1) (hstride : d.stride = 0x20) (hbase : d.base < 0x60) :
    KeepsRegs s (s.put_ (s.ringCtx path d r v) d) [(pHOSTQ, d.at_ r)] :=
  s.putFields_keepsRegs _ hwords rfl rfl (by simp only [RegDesc.at_, hstride]; omega)

theorem accepts_ringEnable (hs : s.sound = true) (hoff : s.ringOn r = false) (hsel : s.flag pDEV DEV.STATUS.HOST_SEL = false)
    (hfree : s.bindRival r (s.ringKind r) (s.ringBind r) = none) :
    Accepts (.ringEnable path r v) s path pHOSTQ (HOSTQ.RING_CTRL.off r) (setBit v 31) (fun t => t.ringOn r = true ∧
      t.get pHOSTQ (HOSTQ.DOORBELL.HOST_IDX r) = 0 ∧
      (s.ringKind r ≠ 4 → t.get pHOSTQ (HOSTQ.DEV_IDX.DEV_IDX r) = 0 ∧ (t.ring r).held = []) ∧ KeepsMemory s t) := by
  have hmeaning : ∀ x, s.writeBody (s.ringCtx path ringCtrl r (setBit v 31)) .hostq ringCtrl r x =
      accept ((s.put_ (s.ringCtx path ringCtrl r (setBit v 31)) ringCtrl).ringStart r) := by
    intro x
    have hon : bitOf (s.ringCtx path ringCtrl r (setBit v 31)).v 31 = true := bitOf_setBit_self _ _
    show s.keep (s.writeRingCtrl _ ringCtrl r) = _
    simp only [State.writeRingCtrl, hon, hoff, hsel, hfree]
    rfl
  have hmem := State.ringStart_holds (State.put__holds s.holds_self (s.ringCtx path ringCtrl r (setBit v 31)) ringCtrl) r
  have hon : (s.put_ (s.ringCtx path ringCtrl r (setBit v 31)) ringCtrl).ringOn r = true := by
    have hget := State.get_ring_put (s := s) (path := path) (r := r) (v := setBit v 31) (d := ringCtrl) rfl ringCtrl_apart
      (f := ⟨31, 31, .rw, 0⟩) (by decide) (by decide) (.inl rfl)
    rw [bitsOf_single, bitOf_setBit_self] at hget
    exact bne_iff_ne.2 (hget.trans_ne (by decide))
  have hkind : (s.put_ (s.ringCtx path ringCtrl r (setBit v 31)) ringCtrl).ringKind r = s.ringKind r :=
    (s.ring_put_keepsRegs hr path ringCtrl (setBit v 31) rfl rfl (by decide)).get_eq (oneWord_ring hr (by decide) (by decide)) (by
      simp [RegDesc.at_, ringCtrl])
  have hlen : r < (s.put_ (s.ringCtx path ringCtrl r (setBit v 31)) ringCtrl).host.rings.length := by
    rw [State.putFields_host _ _ rfl, (State.sound_parts hs).2.2.2.1]
    exact hr
  refine Accepts.of_body (fun h => guarded_of_wf s (fun s => s.wrote path pHOSTQ (HOSTQ.RING_CTRL.off r) (setBit v 31)) h) (regAt_ringCtrl hr) rfl rfl
    (by decide) hmeaning (And.imp_right (And.imp_right fun h => ⟨h,
      .of_holds (State.reported_holds _ _ _ _ _ _ hmem)⟩) ?_)
  simp only [State.ringOn, State.flag, State.reported_ring]
  rw [State.get_ring_reported _ _ hr _ _ _ (by decide) (by decide) (by decide), State.get_ring_reported _ _ hr _ _ _ (by decide) (by decide) (by decide),
    State.get_ring_reported _ _ hr _ _ _ (by decide) (by decide) (by decide)]
  exact State.ringStart_shows hr hlen hon hkind

theorem accepts_ringDisable (hon : s.ringOn r = true) :
    Accepts (.ringDisable path r v) s path pHOSTQ (HOSTQ.RING_CTRL.off r) (clrBit v 31) (fun t => t.ringOn r = false ∧ t.ringStopped r = true ∧
      KeepsRegs s t [(pHOSTQ, HOSTQ.RING_CTRL.off r), (pHOSTQ, 0x02C)] ∧ KeepsMemory s t) := by
  have hoff : bitOf (s.ringCtx path ringCtrl r (clrBit v 31)).v 31 = false := bitOf_clrBit_self _ _
  have hmeaning : ∀ x, s.writeBody (s.ringCtx path ringCtrl r (clrBit v 31)) .hostq ringCtrl r x =
      accept ((s.put_ (s.ringCtx path ringCtrl r (clrBit v 31)) ringCtrl).ringStop r) := by
    intro x
    show s.keep (s.writeRingCtrl _ ringCtrl r) = _
    simp only [State.writeRingCtrl, hoff, hon]
    rfl
  have henable : OneWord (HOSTQ.RING_CTRL.ENABLE r) := oneWord_ring hr (by decide) (by decide)
  have hstop : OneWord (HOSTQ.RING_CTRL.STOPPED r) := oneWord_ring hr (by decide) (by decide)
  refine Accepts.of_body (fun h => guarded_of_wf s (fun s => s.wrote path pHOSTQ (HOSTQ.RING_CTRL.off r) (clrBit v 31)) h) (regAt_ringCtrl hr) rfl rfl
    (by decide) hmeaning ⟨?_, ?_, .of_reported _ _ ((s.ring_put_keepsRegs hr path ringCtrl (clrBit v 31) rfl rfl (by decide)).trans ?_),
      .of_holds (State.reported_holds _ _ _ _ _ _ (State.ringStop_holds (State.put__holds s.holds_self _ _) r))⟩
  · rw [State.ringOn, State.flag, State.get_ring_reported _ _ hr _ _ _ (by decide) (by decide) (by decide), State.ringStop, State.putFlag_eq]
    rw [State.get_put_apart _ _ _ _ _ hstop.1 hstop.2.1 henable.2.1 (by rfl) (.inr (Nat.lt_succ_self 30))]
    have hget := State.get_ring_put (s := s) (path := path) (r := r) (v := clrBit v 31) (d := ringCtrl) rfl ringCtrl_apart
      (f := ⟨31, 31, .rw, 0⟩) (by decide) (by decide) (.inl rfl)
    rw [bitsOf_single, bitOf_clrBit_self] at hget
    exact bne_eq_false_iff_eq.2 hget
  · rw [State.ringStopped, State.flag, State.get_ring_reported _ _ hr _ _ _ (by decide) (by decide) (by decide), State.ringStop, State.putFlag_eq]
    rw [State.get_put_self _ _ _ _ hstop.1 hstop.2.1]
    rfl
  · exact KeepsRegs.put pHOSTQ _ hstop

theorem accepts_ringCfgWrite (hcfg : ringCfgOk v = true) (hold : s.ringKind r ≠ 4) (hnew : bitsOf v 31 28 ≠ 4)
    (hfree : s.bindRival r (bitsOf v 31 28) (bitsOf v 27 20) = none) :
    Accepts (.ringCfgWrite path r v) s path pHOSTQ (HOSTQ.RING_CFG.off r) v (fun t => t.ringKind r = bitsOf v 31 28 ∧ t.ringBind r = bitsOf v 27 20 ∧
      KeepsRegs s t [(pHOSTQ, HOSTQ.RING_CFG.off r), (pHOSTQ, 0x02C)] ∧ KeepsMemory s t) := by
  have hmeaning : ∀ x, s.writeBody (s.ringCtx path ringCfg r v) .hostq ringCfg r x =
      accept ((s.put_ (s.ringCtx path ringCfg r v) ringCfg).sendNew s (bitsOf v 15 10)) := by
    intro x
    have hcfg' : ringCfgOk (s.ringCtx path ringCfg r v).v = true := hcfg
    have hput : s.writeRingCfg (s.ringCtx path ringCfg r v) ringCfg r = s.plain (s.ringCtx path ringCfg r v) ringCfg := by
      have hfree' : s.bindRival r (bitsOf (s.ringCtx path ringCfg r v).v 31 28) (bitsOf (s.ringCtx path ringCfg r v).v 27 20) = none := hfree
      have hnew' : bitsOf (s.ringCtx path ringCfg r v).v 31 28 ≠ 4 := hnew
      simp only [State.writeRingCfg, hcfg', hfree', hold, hnew', beq_eq_false_iff_ne.2 hold, Bool.false_and, Bool.not_true, Bool.false_eq_true, if_false]
    show (if (s.writeRingCfg _ ringCfg r).2.res = .ok then _ else _) = _
    rw [hput]
    rfl
  have hfield : ∀ hi lo, lo ≤ hi ∧ hi < 32 → ⟨hi, lo, .rwl, 0⟩ ∈ ringCfg.fields →
      (((s.put_ (s.ringCtx path ringCfg r v) ringCfg).sendNew s (bitsOf v 15 10)).reported path pHOSTQ (HOSTQ.RING_CFG.off r) (ringCfg.at_ r)
        (s.agentOf path)).get pHOSTQ ⟨0x50 + 0x20 * r, hi, lo⟩ = bitsOf v hi lo := by
    intro hi lo horder hf
    have hword : OneWord ⟨0x50 + 0x20 * r, hi, lo⟩ := oneWord_ring hr (by decide) horder
    rw [State.get_ring_reported _ _ hr _ _ _ (by decide) (by decide) horder,
      (KeepsRegs.of_same (State.sendNew_regs _ _ _) : KeepsRegs _ _ []).get_eq hword List.not_mem_nil]
    exact State.get_ring_put (d := ringCfg) (f := ⟨hi, lo, .rwl, 0⟩) rfl ringCfg_apart hf horder.2 (.inr rfl)
  have hkeep : KeepsRegs s ((s.put_ (s.ringCtx path ringCfg r v) ringCfg).sendNew s (bitsOf v 15 10)) [(pHOSTQ, HOSTQ.RING_CFG.off r)] :=
    (s.ring_put_keepsRegs hr path ringCfg v rfl rfl (by decide)).of_regs (State.sendNew_regs _ _ _)
  exact Accepts.of_body (fun h => guarded_of_wf s (fun s => s.wrote path pHOSTQ (HOSTQ.RING_CFG.off r) v) h) (regAt_ringCfg hr) rfl rfl
    (by decide) hmeaning ⟨hfield 31 28 (by decide) (by decide), hfield 27 20 (by decide) (by decide), .of_reported _ _ hkeep,
      .of_holds (State.reported_holds _ _ _ _ _ _ (State.sendNew_holds (State.put__holds s.holds_self _ _) s.holds_self _))⟩

/-! ### Doorbells -/

omit hr in
theorem State.get_hostIdx_put (hv : v < 2 ^ 32) :
    (s.put_ (s.ringCtx path ringDoorbell r v) ringDoorbell).get pHOSTQ (HOSTQ.DOORBELL.HOST_IDX r) = v :=
  (State.get_ring_put (d := ringDoorbell) rfl ringDoorbell_apart (f := ⟨31, 0, .rw, 0⟩) (by decide) (by decide) (.inl rfl)).trans
    ((congrArg (· % 2 ^ 32) (Nat.div_one v)).trans (Nat.mod_eq_of_lt hv))

omit hr in
/-- The value of a doorbell is a word. -/
theorem lt_of_doorbell_wf (hwf : (Instr.doorbell path r v).wf = true) : v < 2 ^ 32 := by
  simp only [Instr.wf, Bool.and_eq_true, decide_eq_true_eq] at hwf
  exact hwf.2

omit hr in
/-- What a doorbell of a ring of records leaves: what is held is written while there is room. -/
def State.rung (s : State) (r : Nat) : State :=
  ((s.setRing r { s.ring r with pend := 0 }).ringDrain 64 r).resend (s.get pHOSTQ (HOSTQ.RING_CFG.VECTOR r))

omit hr in
theorem State.rung_holds {B : List Host.Cell} {L : List Instr} {t : State} (ht : t.holds B L) (r : Nat) : (t.rung r).holds B L :=
  State.resend_holds (State.ringDrain_holds (State.setRing_holds ht _ _) _ _) _

theorem State.rung_keepsRegs (t : State) : KeepsRegs t (t.rung r) [(pHOSTQ, HOSTQ.DEV_IDX.off r)] :=
  ((KeepsRegs.of_same rfl : KeepsRegs t (t.setRing r { t.ring r with pend := 0 }) _).trans (State.ringDrain_keepsRegs _ hr 64)).of_regs
    (State.resend_regs _ _)

theorem accepts_doorbell (hbell : s.bellOk r v = true) (hkind : s.ringKind r ≤ 2) :
    Accepts (.doorbell path r v) s path pHOSTQ (HOSTQ.DOORBELL.off r) v (fun t => t.get pHOSTQ (HOSTQ.DOORBELL.HOST_IDX r) = v ∧
      KeepsRegs s t [(pHOSTQ, HOSTQ.DOORBELL.off r), (pHOSTQ, 0x02C)] ∧ KeepsMemory s t) := by
  intro hwf
  have hmeaning : ∀ x, s.writeBody (s.ringCtx path ringDoorbell r v) .hostq ringDoorbell r x =
      accept (s.put_ (s.ringCtx path ringDoorbell r v) ringDoorbell) := by
    intro x
    have hbell' : s.bellOk r (s.ringCtx path ringDoorbell r v).v = true := hbell
    have hkind' : s.ringKind r = 1 ∨ s.ringKind r = 2 ∨ s.ringKind r = 0 := by omega
    show s.keep (s.writeBell _ ringDoorbell r) = _
    simp only [State.writeBell, hbell', hkind', Bool.not_true, Bool.false_eq_true, if_false, if_true]
    rfl
  exact Accepts.of_body (fun h => guarded_of_wf s (fun s => s.wrote path pHOSTQ (HOSTQ.DOORBELL.off r) v) h) (regAt_ringDoorbell hr) rfl rfl
    (by decide) hmeaning ⟨(State.get_ring_reported _ _ hr _ _ _ (by decide) (by decide) (by decide)).trans (State.get_hostIdx_put (lt_of_doorbell_wf hwf)),
      .of_reported _ _ (s.ring_put_keepsRegs hr path ringDoorbell v rfl rfl (by decide)),
      .of_holds (State.reported_holds _ _ _ _ _ _ (State.put__holds s.holds_self _ _))⟩ hwf

theorem accepts_doorbell_drains (hbell : s.bellOk r v = true) (hkind : 3 ≤ s.ringKind r) :
    Accepts (.doorbell path r v) s path pHOSTQ (HOSTQ.DOORBELL.off r) v (fun t => t.get pHOSTQ (HOSTQ.DOORBELL.HOST_IDX r) = v ∧
      KeepsPages s t [pHOSTQ] ∧ KeepsMemory s t) := by
  intro hwf
  have hmeaning : ∀ x, s.writeBody (s.ringCtx path ringDoorbell r v) .hostq ringDoorbell r x =
      accept ((s.put_ (s.ringCtx path ringDoorbell r v) ringDoorbell).rung r) := by
    intro x
    have hbell' : s.bellOk r (s.ringCtx path ringDoorbell r v).v = true := hbell
    have hkind' : ¬ (s.ringKind r = 1 ∨ s.ringKind r = 2 ∨ s.ringKind r = 0) := by omega
    show s.keep (s.writeBell _ ringDoorbell r) = _
    simp only [State.writeBell, hbell', hkind', Bool.not_true, Bool.false_eq_true, if_false]
    rfl
  have hkeep := State.rung_keepsRegs hr (s.put_ (s.ringCtx path ringDoorbell r v) ringDoorbell)
  have hidx : ((s.put_ (s.ringCtx path ringDoorbell r v) ringDoorbell).rung r).get pHOSTQ (HOSTQ.DOORBELL.HOST_IDX r) = v :=
    (hkeep.get_eq (oneWord_ring hr (by decide) (by decide)) (by simp)).trans (State.get_hostIdx_put (lt_of_doorbell_wf hwf))
  have hpage : KeepsPages s ((s.put_ (s.ringCtx path ringDoorbell r v) ringDoorbell).rung r) [pHOSTQ] :=
    (((s.ring_put_keepsRegs hr path ringDoorbell v rfl rfl (by decide)).mono (m := [(pHOSTQ, ringDoorbell.at_ r), (pHOSTQ, HOSTQ.DEV_IDX.off r)])
      (by simp)).trans (hkeep.mono (by simp))).keepsPages (by simp)
  exact Accepts.of_body (fun h => guarded_of_wf s (fun s => s.wrote path pHOSTQ (HOSTQ.DOORBELL.off r) v) h) (regAt_ringDoorbell hr) rfl rfl
    (by decide) hmeaning ⟨(State.get_ring_reported _ _ hr _ _ _ (by decide) (by decide) (by decide)).trans hidx, .of_reported _ _ hpage,
      .of_holds (State.reported_holds _ _ _ _ _ _ (State.rung_holds (State.put__holds s.holds_self _ _) r))⟩
    hwf

end

end Sys2Proof.Machine
end

section
/-! PROOFS. What stops a ring, the messages of a vector, and configuration requests; the rings (O13). -/

namespace Sys2Proof.Machine

/-! ### A failed access of a ring -/

section
variable {s : State}

/-- A ring's page after a flag of it is set and a fault of it raised. -/
theorem State.flag_putFlag_err (p bit : Nat) {f : Fld} (hf : OneWord f) (hbit : f.hi = f.lo) (hoff : f.off ≠ 0x024) :
    ((s.putFlag p f true).err p bit).flag p f = true := by
  have hwidth : f.hi + 1 - f.lo = 1 := by omega
  rw [State.flag, State.get_err_off _ _ _ hf hoff, State.putFlag_eq, State.get_put_self _ _ _ _ hf.1 hf.2.1, hwidth]
  rfl

theorem State.putFlag_err_keepsRegs (p bit : Nat) {f : Fld} (hf : OneWord f) :
    KeepsRegs s ((s.putFlag p f true).err p bit) [(p, f.off), (p, 0x024)] := by
  rw [State.putFlag_eq]
  exact ((KeepsRegs.put p 1 hf).mono (by simp)).trans ((KeepsRegs.err p bit).mono (by simp))

theorem State.putFlag_err_holds (p bit : Nat) (f : Fld) : ((s.putFlag p f true).err p bit).holds s.bar2 s.pending :=
  State.err_holds (State.putFlag_holds s.holds_self p f true) p bit

theorem exec_ringDmaError {r : Nat} (hr : r < 36) : exec (.ringDmaError r) s = .next (if 32 ≤ r then s.ethDmaFails ((r - 32) / 2) (r % 2 == 1)
    else if s.ringOn r ∧ !s.ringStopped r then (s.ringStop r).err pHOSTQ 2 else s) :=
  guarded_of_wf s (fun s => if 32 ≤ r then s.ethDmaFails ((r - 32) / 2) (r % 2 == 1)
    else if s.ringOn r ∧ !s.ringStopped r then (s.ringStop r).err pHOSTQ 2 else s) (decide_eq_true hr)

theorem completes_ringDmaError {r : Nat} (hr : r < 32) (hon : s.ringOn r = true) (hruns : s.ringStopped r = false) :
    Completes (.ringDmaError r) s (fun t => t.ringStopped r = true ∧ t.errSet pHOSTQ 2 = true ∧
      KeepsRegs s t [(pHOSTQ, HOSTQ.RING_CTRL.off r), (pHOSTQ, 0x024)] ∧ KeepsMemory s t) := by
  have hword : OneWord (HOSTQ.RING_CTRL.STOPPED r) := oneWord_ring hr (by decide) (by decide)
  have hexec : exec (.ringDmaError r) s = .next ((s.ringStop r).err pHOSTQ 2) := by
    rw [exec_ringDmaError (by omega)]
    simp only [Nat.not_le.2 hr, if_false, hon, hruns, Bool.not_false, and_self, if_true]
  exact .of_exec hexec ⟨State.flag_putFlag_err _ 2 hword rfl (show 0x54 + 0x20 * r ≠ 0x024 by omega), State.errSet_err_self _ _ _ (by decide),
    State.putFlag_err_keepsRegs _ 2 hword, .of_holds (State.putFlag_err_holds _ _ _)⟩

/-- What stops a ring of an Ethernet port stays on its page. -/
theorem completes_ethDmaError {i p : Nat} {f : Fld} (hf : OneWord f) (hbit : f.hi = f.lo) (hoff : f.off ≠ 0x024)
    (hexec : exec (.ringDmaError i) s = .next ((s.putFlag (pETH p) f true).err (pETH p) 1)) :
    Completes (.ringDmaError i) s (fun t => t.flag (pETH p) f = true ∧ t.errSet (pETH p) 1 = true ∧ KeepsPages s t [pETH p] ∧ KeepsMemory s t) :=
  .of_exec hexec ⟨State.flag_putFlag_err _ 1 hf hbit hoff, State.errSet_err_self _ _ _ (by decide),
    (State.putFlag_err_keepsRegs _ 1 hf).keepsPages (by simp), .of_holds (State.putFlag_err_holds _ _ _)⟩

theorem completes_txDmaError {p : Nat} (hp : p < 2) (hon : s.flag (pETH p) ETH.TXR_CTRL.ENABLE = true)
    (hruns : s.flag (pETH p) ETH.TXR_CTRL.STOPPED = false) :
    Completes (.ringDmaError (32 + 2 * p)) s (fun t => t.flag (pETH p) ETH.TXR_CTRL.STOPPED = true ∧ t.errSet (pETH p) 1 = true ∧
      KeepsPages s t [pETH p] ∧ KeepsMemory s t) := by
  have hport : (32 + 2 * p - 32) / 2 = p ∧ (32 + 2 * p) % 2 = 0 := by omega
  refine completes_ethDmaError (by decide) rfl (by decide) ((exec_ringDmaError (by omega)).trans (congrArg _ ?_))
  simp [hport.2, State.ethDmaFails, State.ethStop, hon, hruns]

theorem completes_rxDmaError {p : Nat} (hp : p < 2) (hruns : s.rxRuns p = true) :
    Completes (.ringDmaError (33 + 2 * p)) s (fun t => t.flag (pETH p) ETH.RXR_CTRL.STOPPED = true ∧ t.errSet (pETH p) 1 = true ∧
      KeepsPages s t [pETH p] ∧ KeepsMemory s t) := by
  have hport : (33 + 2 * p - 32) / 2 = p ∧ (33 + 2 * p) % 2 = 1 := by omega
  have hon : s.flag (pETH p) ETH.RXR_CTRL.ENABLE = true := (Bool.and_eq_true_iff.1 hruns).1
  refine completes_ethDmaError (by decide) rfl (by decide) ((exec_ringDmaError (by omega)).trans (congrArg _ ?_))
  simp [hport.1, hport.2, State.ethDmaFails, State.ethStop, hon, hruns, show 32 ≤ 33 + 2 * p by omega]

/-! ### Messages -/

theorem completes_modTimeExpiry {r : Nat} (hr : r < 32) (hup : s.pcieUp = true) (hexp : s.modExpired r = true) :
    Completes (.modTimeExpiry r) s (fun t =>
      (if s.get pHOSTQ (HOSTQ.RING_CFG.VECTOR r) ∈ s.host.vecMasked then
        t.out = s.out ∧ s.get pHOSTQ (HOSTQ.RING_CFG.VECTOR r) ∈ t.host.vecPending
      else t.out = .msix (s.get pHOSTQ (HOSTQ.RING_CFG.VECTOR r)) :: s.out) ∧
      s.get pHOSTQ (HOSTQ.RING_CFG.VECTOR r) ∉ t.msixOwed ∧ KeepsRegs s t [] ∧ KeepsMemory s t) := by
  have hwf : (Instr.modTimeExpiry r).wf = true := decide_eq_true hr
  refine .of_exec ((guarded_of_wf s _ hwf).trans (congrArg _ (if_pos hexp)))
    ⟨?_, ?_, .of_same (State.sendMsix_regs _ _), .of_holds (State.sendMsix_holds s.holds_self _)⟩
  · split <;> simp_all [State.sendMsix]
  · simp [State.sendMsix, hup]

/-! ### The endpoint -/

/-- The endpoint in reset, from a slot on. -/
def State.linkReset (d : State) (slot : Nat) : State :=
  { d with host := { d.host with perst := true, linkUp := false, d3hot := false, perstReleased := slot, vecMasked := [], vecPending := [] } }

theorem State.linkReset_shows (d : State) (slot : Nat) :
    (d.linkReset slot).host.perst = true ∧ (d.linkReset slot).host.linkUp = false ∧ (d.linkReset slot).host.d3hot = false := ⟨rfl, rfl, rfl⟩

theorem State.linkReset_holds {B : List Host.Cell} {L : List Instr} {d : State} (hd : d.holds B L) (slot : Nat) : (d.linkReset slot).holds B L := hd

theorem exec_perstNAssert : exec .perstNAssert s = .next (s.endpointDown.linkReset s.clk.slot) :=
  guarded_of_wf s (fun s => s.endpointDown.linkReset s.clk.slot) rfl

theorem completes_perstNAssert :
    Completes .perstNAssert s (fun t => t.host.perst = true ∧ t.host.linkUp = false ∧ t.host.d3hot = false ∧ KeepsMemory s t) := by
  obtain ⟨hperst, hlink, hd3⟩ := s.endpointDown.linkReset_shows s.clk.slot
  exact .of_exec exec_perstNAssert ⟨hperst, hlink, hd3, .of_holds (State.linkReset_holds (State.endpointDown_holds s.holds_self) _)⟩

/-- In D3hot the endpoint reaches no host memory. -/
theorem State.endpointPower_d3hot (s : State) : (s.endpointPower true).host.d3hot = true ∧ (s.endpointPower true).pcieUp = false := by
  simp [State.endpointPower, State.pcieUp]

theorem completes_d3hotEntry (hlink : s.host.linkUp = true) (hperst : s.host.perst = false) :
    Completes .d3hotEntry s (fun t => t.host.d3hot = true ∧ t.pcieUp = false ∧ KeepsMemory s t) := by
  obtain ⟨hd3, hdown⟩ := s.endpointPower_d3hot
  exact .of_exec ((guarded_of_wf s _ rfl).trans (congrArg _ (if_pos ⟨hlink, by simp [hperst]⟩)))
    ⟨hd3, hdown, .of_holds (State.endpointPower_holds s.holds_self _)⟩

/-! ### Configuration requests -/

section
variable {req : ConfigReq} (hwf : (Instr.configurationRequest req).wf = true) (hlink : s.host.linkUp = true) (hperst : s.host.perst = false)
include hwf hlink hperst

theorem exec_configurationRequest : exec (.configurationRequest req) s =
    .next ((s.onlyIf (decide (1 ≤ s.stage)) (fun s => s.configure req)).emit (.config req.tag (decide (s.stage < 1)))) :=
  (guarded_of_wf s _ hwf).trans (congrArg _ (if_pos ⟨hlink, by simp [hperst]⟩))

/-- Before Stage 1 a request is answered with retry status alone. -/
theorem exec_configurationRequest_early (hstage : s.stage = 0) :
    exec (.configurationRequest req) s = .next (s.emit (.config req.tag true)) := by
  rw [exec_configurationRequest hwf hlink hperst, hstage]
  rfl

/-- From Stage 1 on the request is carried out and answered. -/
theorem exec_configurationRequest_late (hstage : s.stage ≠ 0) :
    exec (.configurationRequest req) s = .next ((s.configure req).emit (.config req.tag false)) := by
  have hge : 1 ≤ s.stage := Nat.one_le_iff_ne_zero.2 hstage
  rw [exec_configurationRequest hwf hlink hperst, State.onlyIf, decide_eq_true hge, decide_eq_false (Nat.not_lt.2 hge)]
  rfl

end

/-- An answer changes nothing of the endpoint. -/
theorem State.pcieUp_emit (s : State) (o : Out) : (s.emit o).pcieUp = s.pcieUp := rfl

theorem State.host_emit (s : State) (o : Out) : (s.emit o).host = s.host := rfl

theorem State.maskVector_regs (s : State) (v : Nat) (m : Bool) : (s.maskVector v m).regs = s.regs := by
  unfold State.maskVector
  dsimp only
  split <;> rfl

theorem State.mem_vecMasked_maskVector (s : State) (v : Nat) (m : Bool) : v ∈ (s.maskVector v m).host.vecMasked ↔ m = true := by
  cases m <;> simp [State.maskVector]

/-- The message that waited for its vector goes when the mask is taken off. -/
theorem State.maskVector_sends {v : Nat} (hpend : v ∈ s.host.vecPending) (hup : s.pcieUp = true) :
    (s.maskVector v false).out = .msix v :: s.out ∧ v ∉ (s.maskVector v false).host.vecPending := by
  simp [State.maskVector, hpend, hup]

end

/-- Settles O13: a clause for each command on a ring, and one for each cause that stops a ring or sends a message. -/
theorem rings : Obligations.Rings := by
  refine ⟨fun s hs path r hr v => ⟨fun hoff hsel hfree => accepts_ringEnable hr hs hoff hsel hfree, fun hon => accepts_ringDisable hr hon,
    fun hcfg hold hnew hfree => accepts_ringCfgWrite hr hcfg hold hnew hfree, fun hbell hkind => accepts_doorbell hr hbell hkind,
    fun hbell hkind => accepts_doorbell_drains hr hbell hkind⟩, fun s r => ⟨fun hr => completes_ringDmaError hr, fun p hp => completes_txDmaError hp,
    fun p hp => completes_rxDmaError hp, fun v hv hr hup hexp => hv ▸ completes_modTimeExpiry hr hup hexp, completes_perstNAssert, completes_d3hotEntry,
    fun req hwf hlink hperst => ⟨fun hstage => ?_, fun hstage hkind => ?_, fun hstage hkind => ?_, fun hstage hkind => ?_, fun hstage hkind => ?_,
      fun v m hstage hkind => ?_⟩⟩⟩
  · exact .of_exec (exec_configurationRequest_early hwf hlink hperst hstage) rfl
  all_goals refine .of_exec (exec_configurationRequest_late hwf hlink hperst hstage) ?_
  all_goals simp only [State.configure, hkind]
  · rfl
  · rfl
  · rw [State.pcieUp_emit, State.host_emit]
    exact s.endpointPower_d3hot
  · exact ⟨rfl, rfl, .of_same rfl, .of_holds s.holds_self⟩
  · refine ⟨s.mem_vecMasked_maskVector v m, ?_, .of_same (s.maskVector_regs v m), .of_holds (State.maskVector_holds s.holds_self v m)⟩
    rintro rfl hpend hup
    obtain ⟨hout, hgone⟩ := State.maskVector_sends hpend hup
    exact ⟨congrArg _ hout, hgone⟩

end Sys2Proof.Machine
end

section
/-! SUPPORT. Who owns what (R42) under the operations of the model: an operation that gives and takes nothing has a lemma `…_owners`. A
combinator asks of its function `f` that `f a u = v` keeps in `v` the owners of `u`. -/

namespace Sys2Proof.Machine

/-- The OWNER words of the pages. -/
def ownerWords (l : List (Nat × Word)) (p : Nat) : Word := sparseGet regReset l (regKey p 0x00C)

/-- Who owns what stands (R42): the OWNER words of the pages, the owners of the resources without a page, and the ranges of courses. -/
@[simp] abbrev SameOwners (t s : State) : Prop :=
  ownerWords t.regs = ownerWords s.regs ∧ t.host.owners = s.host.owners ∧ t.host.ranges = s.host.ranges

/-! ### Choices -/

section
variable {c : Prop} {_ : Decidable c}

@[simp] theorem ownerWords_ite (s t : State) :
    ownerWords (if c then s else t).regs = if c then ownerWords s.regs else ownerWords t.regs := by split <;> rfl

@[simp] theorem owners_ite (s t : State) : (if c then s else t).host.owners = if c then s.host.owners else t.host.owners := by split <;> rfl

@[simp] theorem ranges_ite (s t : State) : (if c then s else t).host.ranges = if c then s.host.ranges else t.host.ranges := by split <;> rfl

@[simp] theorem ownerWords_fst_ite {α : Type} (x y : State × α) :
    ownerWords (if c then x else y).1.regs = if c then ownerWords x.1.regs else ownerWords y.1.regs := by split <;> rfl

@[simp] theorem owners_fst_ite {α : Type} (x y : State × α) :
    (if c then x else y).1.host.owners = if c then x.1.host.owners else y.1.host.owners := by split <;> rfl

@[simp] theorem ranges_fst_ite {α : Type} (x y : State × α) :
    (if c then x else y).1.host.ranges = if c then x.1.host.ranges else y.1.host.ranges := by split <;> rfl

@[simp] theorem ownerWords_snd_ite {α : Type} (x y : α × State) :
    ownerWords (if c then x else y).2.regs = if c then ownerWords x.2.regs else ownerWords y.2.regs := by split <;> rfl

@[simp] theorem owners_snd_ite {α : Type} (x y : α × State) :
    (if c then x else y).2.host.owners = if c then x.2.host.owners else y.2.host.owners := by split <;> rfl

@[simp] theorem ranges_snd_ite {α : Type} (x y : α × State) :
    (if c then x else y).2.host.ranges = if c then x.2.host.ranges else y.2.host.ranges := by split <;> rfl

end

/-! ### Registers and loops -/

@[simp] theorem State.wr_owners (s : State) (p : Nat) {o : Nat} (v : Word) (h : o % 4096 ≠ 0x00C) : SameOwners (s.wr p o v) s :=
  ⟨funext fun q => sparseGet_set_ne _ _ _ _ (by unfold regKey; omega), rfl, rfl⟩

theorem SameOwners.refl (s : State) : SameOwners s s := ⟨rfl, rfl, rfl⟩

theorem SameOwners.trans {s t u : State} (h : SameOwners u t) (h' : SameOwners t s) : SameOwners u s := by
  obtain ⟨hwords, hlist, hranges⟩ := h
  obtain ⟨hwords', hlist', hranges'⟩ := h'
  exact ⟨hwords.trans hwords', hlist.trans hlist', hranges.trans hranges'⟩

theorem SameOwners.words {s t : State} (h : SameOwners t s) : ownerWords t.regs = ownerWords s.regs := And.left h

theorem SameOwners.list {s t : State} (h : SameOwners t s) : t.host.owners = s.host.owners := And.left (And.right h)

theorem SameOwners.ranges {s t : State} (h : SameOwners t s) : t.host.ranges = s.host.ranges := And.right (And.right h)

@[simp] theorem State.wrN_owners (s : State) (p : Nat) {o n : Nat} (v : Nat) (h : ∀ k < n, (o + 4 * k) % 4096 ≠ 0x00C) :
    SameOwners (s.wrN p o n v) s := by
  induction n generalizing s o v with
  | zero => exact .refl s
  | succ n ih =>
    have hrest : ∀ k < n, (o + 4 + 4 * k) % 4096 ≠ 0x00C := fun k hk => by
      have := h (k + 1) (by omega)
      rwa [show o + 4 + 4 * k = o + 4 * (k + 1) by omega]
    exact (ih _ _ hrest).trans (s.wr_owners p _ (h 0 (by omega)))

/-- Where a field lies beside the OWNER words: it lies in one other word, or in four words from 0x010 of its page on. -/
@[simp] abbrev BesideOwner (x : Fld) : Prop := x.off % 4096 ≠ 0x00C ∧ (x.hi < 32 ∨ x.hi < 128 ∧ 0x010 ≤ x.off % 4096)

@[simp] theorem State.put_owners (s : State) (p : Nat) {x : Fld} (v : Nat) (h : BesideOwner x) : SameOwners (s.put p x v) s := by
  obtain ⟨hword, hwide⟩ := h
  unfold State.put
  split
  · exact s.wr_owners p _ hword
  · exact s.wrN_owners p _ fun k hk => by omega

@[simp] theorem State.forEach_owners {α : Type} (s : State) (l : List α) (f : α → State → State) (hf : ∀ a u v, f a u = v → SameOwners v u) :
    SameOwners (s.forEach l f) s :=
  foldl_keeps (fun u : State => SameOwners u s) _ (fun u a hu => (hf a u _ rfl).trans hu) l s (.refl s)

/-- A loop over a list keeps the rights where each of its elements does. -/
theorem State.forEach_owners_of_mem {α : Type} (s : State) (l : List α) (f : α → State → State) (hf : ∀ a ∈ l, ∀ u, SameOwners (f a u) u) :
    SameOwners (s.forEach l f) s := by
  unfold State.forEach
  induction l generalizing s with
  | nil => exact .refl s
  | cons a l ih => exact (ih _ fun b hb => hf b (List.mem_cons_of_mem _ hb)).trans (hf a List.mem_cons_self s)

/-! ### Records of the state -/

@[simp] theorem State.emit_owners (s : State) (x : Out) : SameOwners (s.emit x) s := ⟨rfl, rfl, rfl⟩

@[simp] theorem State.setQuad_owners (s : State) (k : Nat) (x : QuadSt) : SameOwners (s.setQuad k x) s := ⟨rfl, rfl, rfl⟩

@[simp] theorem State.setChan_owners (s : State) (k : Nat) (x : ChanSt) : SameOwners (s.setChan k x) s := ⟨rfl, rfl, rfl⟩

@[simp] theorem State.setLine_owners (s : State) (k : Nat) (x : LineSt) : SameOwners (s.setLine k x) s := ⟨rfl, rfl, rfl⟩

@[simp] theorem State.setRing_owners (s : State) (k : Nat) (x : RingSt) : SameOwners (s.setRing k x) s := ⟨rfl, rfl, rfl⟩

@[simp] theorem State.setSeq_owners (s : State) (k : Nat) (x : SeqSt) : SameOwners (s.setSeq k x) s := ⟨rfl, rfl, rfl⟩

@[simp] theorem State.setPhase_owners (s : State) (k : Nat) (x : PhaseSt) : SameOwners (s.setPhase k x) s := ⟨rfl, rfl, rfl⟩

@[simp] theorem State.setTin_owners (s : State) (k : Nat) (x : TinSt) : SameOwners (s.setTin k x) s := ⟨rfl, rfl, rfl⟩

@[simp] theorem State.setRef_owners (s : State) (k : Nat) (x : RefSt) : SameOwners (s.setRef k x) s := ⟨rfl, rfl, rfl⟩

@[simp] theorem State.setAux_owners (s : State) (k : Nat) (x : AuxSt) : SameOwners (s.setAux k x) s := ⟨rfl, rfl, rfl⟩

@[simp] theorem State.setEth_owners (s : State) (k : Nat) (x : EthSt) : SameOwners (s.setEth k x) s := ⟨rfl, rfl, rfl⟩

@[simp] theorem State.setQueue_owners (s : State) (k : Nat) (x : QueueSt) : SameOwners (s.setQueue k x) s := ⟨rfl, rfl, rfl⟩

@[simp] theorem State.setSess_owners (s : State) (k : Nat) (x : SessionSt) : SameOwners (s.setSess k x) s := ⟨rfl, rfl, rfl⟩

@[simp] theorem State.setGate_owners (s : State) (k : Nat) (x : List GateWin) : SameOwners (s.setGate k x) s := ⟨rfl, rfl, rfl⟩

@[simp] theorem State.setRdg_owners (s : State) (k : Nat) (x : RdgSt) : SameOwners (s.setRdg k x) s := ⟨rfl, rfl, rfl⟩

/-! ### Fields, outcomes, messages and rings -/

@[simp] theorem State.onlyIf_owners (s : State) (c : Bool) (f : State → State) (hf : ∀ u v, f u = v → SameOwners v u) : SameOwners (s.onlyIf c f) s := by
  unfold State.onlyIf
  split
  · exact hf _ _ rfl
  · exact .refl s

@[simp] theorem State.putFlag_owners (s : State) (p : Nat) {f : Fld} (b : Bool) (h : BesideOwner f) : SameOwners (s.putFlag p f b) s := State.put_owners _ _ _ h

@[simp] theorem State.putI_owners (s : State) (p : Nat) {f : Fld} (v : Int) (h : BesideOwner f) : SameOwners (s.putI p f v) s := State.put_owners _ _ _ h

@[simp] theorem State.incSat_owners (s : State) (p : Nat) {f : Fld} (n : Nat) (h : BesideOwner f) : SameOwners (s.incSat p f n) s := State.put_owners _ _ _ h

@[simp] theorem State.incWrap_owners (s : State) (p : Nat) {f : Fld} (n : Nat) (h : BesideOwner f) : SameOwners (s.incWrap p f n) s := State.put_owners _ _ _ h

@[simp] theorem State.free_owners (s : State) : SameOwners (s.free).2 s := by simp [State.free]

@[simp] theorem State.putInst_owners (s : State) (p : Nat) {f : Fld} (t : Int) (h : BesideOwner f) : SameOwners (s.putInst p f t) s := State.put_owners _ _ _ h

@[simp] theorem State.putSpan_owners (s : State) (p : Nat) {f : Fld} (i : Int) (h : BesideOwner f) : SameOwners (s.putSpan p f i) s := State.put_owners _ _ _ h

@[simp] theorem accept_owners (s : State) : SameOwners (accept s).1 s := by simp [accept]

@[simp] theorem refuse_owners (s : State) (r : Res) : SameOwners (refuse s r).1 s := by simp [refuse]

@[simp] theorem State.sendMsix_owners (s : State) (v : Nat) : SameOwners (s.sendMsix v) s := by simp [State.sendMsix]

@[simp] theorem State.irq_owners (s : State) (p bit : Nat) : SameOwners (s.irq p bit) s := by simp [State.irq]

@[simp] theorem State.err_owners (s : State) (p bit : Nat) : SameOwners (s.err p bit) s := by
  unfold State.err
  split <;> simp

@[simp] theorem State.ringPut_owners (s : State) (r elem : Nat) : SameOwners (s.ringPut r elem) s :=
  (State.incWrap_owners _ _ _ (by simp; omega)).trans (s.emit_owners _)

@[simp] theorem State.ringWriteback_owners (s : State) (r : Nat) : SameOwners (s.ringWriteback r) s := by simp [State.ringWriteback]

@[simp] theorem State.ringNotify_owners (s : State) (r : Nat) : SameOwners (s.ringNotify r) s := by simp [State.ringNotify]

@[simp] theorem State.ringRecord_owners (s : State) {r : Nat} (hr : r < 32) (rec : List Nat) : SameOwners (s.ringRecord r rec) s := by
  have hlost : BesideOwner (HOSTQ.RING_LOST.LOST r) := by simp; omega
  simp [State.ringRecord, State.incSat_owners _ _ _ hlost]

/-- The ring bound to an input, a queue or a class is one of the 32. -/
theorem State.ringFor_lt {s : State} {kind bind r : Nat} (h : s.ringFor kind bind = some r) : r < 32 :=
  List.mem_range.1 (List.mem_of_find?_eq_some h)

@[simp] theorem State.event_owners (s : State) (cls : Nat) (rec : List Nat) : SameOwners (s.event cls rec) s := by
  unfold State.event
  split
  · next hring => exact s.ringRecord_owners (State.ringFor_lt hring) rec
  · exact .refl s

/-! ### Terms, channels and sequencers -/

@[simp] theorem State.putForm_owners (s : State) (p : Nat) {rise fall : Fld} (t : Option FormTerm) (hrise : BesideOwner rise)
    (hfall : BesideOwner fall) : SameOwners (s.putForm p rise fall t) s := by
  unfold State.putForm
  split
  · exact (State.putI_owners _ _ _ hfall).trans (State.putI_owners _ _ _ hrise)
  · exact .refl s

@[simp] theorem State.laneForm_owners (s : State) (c : Nat) : SameOwners (s.laneForm c) s := by
  have hlane : chanLane c < 4 := Nat.mod_lt _ (by decide)
  exact State.putForm_owners _ _ _ (by simp; omega) (by simp; omega)

@[simp] theorem State.loopForm_owners (s : State) : SameOwners s.loopForm s := by simp [State.loopForm]

@[simp] theorem State.inputForm_owners (s : State) (i : Nat) : SameOwners (s.inputForm i) s := by simp [State.inputForm]

@[simp] theorem State.apllaUnlock_owners (s : State) : SameOwners s.apllaUnlock s := by simp [State.apllaUnlock]

@[simp] theorem State.apllaRefGone_owners (s : State) (c : Nat) : SameOwners (s.apllaRefGone c) s := by simp [State.apllaRefGone]

@[simp] theorem State.queueEdge_owners (s : State) (c : Nat) (e : Edge) : SameOwners (s.queueEdge c e) s := by simp [State.queueEdge]

@[simp] theorem State.desync_owners (s : State) (c : Nat) (e : Edge) : SameOwners (s.desync c e) s := by simp [State.desync]

@[simp] theorem State.copyToMirrors_owners (s : State) (c : Nat) (e : Edge) (high : Bool) : SameOwners (s.copyToMirrors c e high) s := by
  simp [State.copyToMirrors]

@[simp] theorem State.pushEdge_owners (s : State) (c : Nat) (e : Edge) : SameOwners (s.pushEdge c e) s := by
  unfold State.pushEdge
  dsimp only
  (repeat' split) <;> simp

@[simp] theorem State.pushPulseFrom_owners (s : State) (c : Nat) (i : Bool) (t32 width32 : Int) (origin : EdgeOrigin) (lead trail : EdgeBasis) :
    SameOwners (s.pushPulseFrom c i t32 width32 origin lead trail) s := by simp [State.pushPulseFrom]

@[simp] theorem State.pushPulse_owners (s : State) (c : Nat) (t32 width32 : Int) (origin : EdgeOrigin) (basis : EdgeBasis) :
    SameOwners (s.pushPulse c t32 width32 origin basis) s := by simp [State.pushPulse]

@[simp] theorem State.calTurn_owners (s : State) (c : Nat) : SameOwners (s.calTurn c) s := by
  unfold State.calTurn
  split <;> simp

@[simp] theorem State.nextClock_owners (s : State) (c : Nat) : SameOwners (s.nextClock c) s := by
  unfold State.nextClock
  dsimp only
  split <;> simp

@[simp] theorem State.mirrorGrid_owners (s : State) (m : Nat) (lim : Int) : SameOwners (s.mirrorGrid m lim) s := by
  unfold State.mirrorGrid
  dsimp only
  split <;> simp

@[simp] theorem State.mirrorStop_owners (s : State) (m : Nat) (end32 : Int) : SameOwners (s.mirrorStop m end32) s := by
  unfold State.mirrorStop
  split
  · exact .refl s
  · refine (State.setChan_owners ..).trans (State.forEach_owners _ _ _ fun _ u v hv => ?_)
    rw [← hv]
    split
    · split
      · exact State.nextClock_owners _ _
      · exact .refl u
    · exact .refl u

@[simp] theorem State.mirrorsStop_owners (s : State) (c : Nat) : SameOwners (s.mirrorsStop c) s := by
  unfold State.mirrorsStop
  split <;> simp

@[simp] theorem State.mirrorsStart_owners (s : State) (c : Nat) : SameOwners (s.mirrorsStart c) s := by simp [State.mirrorsStart]

@[simp] theorem State.startGrid_owners (s : State) (c : Nat) (lim : Int) : SameOwners (s.startGrid c lim) s := by
  unfold State.startGrid
  split <;> simp

@[simp] theorem State.restEdge_owners (s : State) (c : Nat) (t32 : Int) : SameOwners (s.restEdge c t32) s := by
  unfold State.restEdge
  split <;> simp

@[simp] theorem State.schedLost_owners (s : State) (c : Nat) : SameOwners (s.schedLost c) s := by simp [State.schedLost]

@[simp] theorem State.chanEntry_owners (s0 : State) (c ahead : Nat) : SameOwners (s0.chanEntry c ahead) s0 := by simp [State.chanEntry]

@[simp] theorem State.chanSettle_owners (s old : State) (c : Nat) : SameOwners (s.chanSettle c old) s := by
  unfold State.chanSettle
  extract_lets ch lim turn cal s1 s2
  have h1 : SameOwners s1 s := State.setChan_owners ..
  have h2 : SameOwners s2 s := by
    refine (State.onlyIf_owners _ _ _ fun u v hv => ?_).trans h1
    rw [← hv]
    exact State.forEach_owners _ _ _ fun _ _ _ hv => hv ▸ State.setChan_owners ..
  clear_value s2
  (repeat' split) <;> simp [h2]

@[simp] theorem State.chanCommit_owners (s old : State) (c : Nat) (modeWritten : Bool) (ahead : Nat) :
    SameOwners (s.chanCommit c old modeWritten ahead) s := by simp [State.chanCommit]

@[simp] theorem State.loopBack_owners (s : State) (c : Nat) (rising : Bool) (pos : Int) : SameOwners (s.loopBack c rising pos) s := by
  simp [State.loopBack]

@[simp] theorem State.chanSafe_owners (s0 : State) (c : Nat) (cause : SafeCause) : SameOwners (s0.chanSafe c cause) s0 := by simp [State.chanSafe]

@[simp] theorem State.setEngState_owners (s : State) (q e v : Nat) : SameOwners (s.setEngState q e v) s := by simp [State.setEngState]

@[simp] theorem State.refreshBounds_owners (s : State) (q : Nat) : SameOwners (s.refreshBounds q) s :=
  State.forEach_owners_of_mem _ _ _ fun l hl _ => State.put_owners _ _ _ (by
    have hlane := List.mem_range.1 hl
    simp
    omega)

@[simp] theorem State.seqRecord_owners (s : State) (q kind : Nat) (t : Int) (data other course : Nat) :
    SameOwners (s.seqRecord q kind t data other course) s := by simp [State.seqRecord]

@[simp] theorem State.seqPutState_owners (s : State) (q st reason : Nat) (t : Int) : SameOwners (s.seqPutState q st reason t) s := by
  simp [State.seqPutState]

@[simp] theorem State.seqDropFrom_owners (s : State) (q : Nat) (t : Int) : SameOwners (s.seqDropFrom q t) s :=
  (State.setSeq_owners ..).trans (State.forEach_owners_of_mem _ _ _ fun _ _ _ =>
    (State.forEach_owners_of_mem _ _ _ fun _ _ _ => State.setChan_owners ..).trans (State.setChan_owners ..))

@[simp] theorem State.loopClear_owners (s : State) (q : Nat) {k : Nat} (hk : k < 16) : SameOwners (s.loopClear q k) s :=
  (State.wr_owners _ _ _ (show (0x104 + 0x8 * k) % 4096 ≠ 0x00C by omega)).trans
    (State.wr_owners _ _ _ (show (0x100 + 0x8 * k) % 4096 ≠ 0x00C by omega))

@[simp] theorem State.loopDropAll_owners (s : State) (q : Nat) : SameOwners (s.loopDropAll q) s :=
  State.forEach_owners_of_mem _ _ _ fun _ hk _ => State.loopClear_owners _ _ (List.mem_range.1 hk)

@[simp] theorem State.showSuccessor_owners (s : State) (q : Nat) : SameOwners (s.showSuccessor q) s := by
  unfold State.showSuccessor
  split <;> simp

@[simp] theorem State.clearRequest_owners (s : State) (q : Nat) : SameOwners (s.clearRequest q) s := by simp [State.clearRequest]

@[simp] theorem State.seqStop_owners (s : State) (q : Nat) (t : Int) (reason : Nat) : SameOwners (s.seqStop q t reason) s := by
  unfold State.seqStop
  extract_lets s1 x s2 s3
  have h1 : SameOwners s1 s := (State.loopDropAll_owners ..).trans (State.clearRequest_owners ..)
  have h2 : SameOwners s2 s := (State.setSeq_owners ..).trans h1
  have h3 : SameOwners s3 s := (State.putInst_owners _ _ _ (by simp)).trans ((State.put_owners _ _ _ (by simp)).trans
    ((State.put_owners _ _ _ (by simp)).trans ((State.showSuccessor_owners ..).trans h2)))
  exact (State.irq_owners ..).trans ((State.seqPutState_owners ..).trans h3)

@[simp] theorem State.seqDeviceSafe_owners (s : State) (q : Nat) : SameOwners (s.seqDeviceSafe q) s := by simp [State.seqDeviceSafe]

/-! ### Phases, the scheduler and inputs -/

@[simp] theorem State.putPhaseState_owners (s : State) (t st : Nat) : SameOwners (s.putPhaseState t st) s := by simp [State.putPhaseState]

@[simp] theorem State.phaseStart_owners (s : State) (t : Nat) : SameOwners (s.phaseStart t) s := by simp [State.phaseStart]

@[simp] theorem State.phaseStop_owners (s : State) (t : Nat) : SameOwners (s.phaseStop t) s := by simp [State.phaseStop]

@[simp] theorem State.schedLog_owners (s : State) (a : Action) (actual : Int) (outcome result gate : Nat) :
    SameOwners (s.schedLog a actual outcome result gate) s := by simp [State.schedLog]

@[simp] theorem State.gateValue_owners (s : State) (gate : Option Nat) (actual : Int) (executed : Bool) :
    SameOwners (s.gateValue gate actual executed).2 s := by
  unfold State.gateValue
  split <;> simp

@[simp] theorem State.logDropped_owners (s : State) (a : Action) (outcome result : Nat) : SameOwners (s.logDropped a outcome result) s := by
  simp [State.logDropped]

@[simp] theorem State.discardAll_owners (s : State) (q : Nat) : SameOwners (s.discardAll q) s := by simp [State.discardAll]

@[simp] theorem State.setHead_owners (s : State) (q : Nat) (a : Action) : SameOwners (s.setHead q a) s := by simp [State.setHead]

@[simp] theorem State.popHead_owners (s : State) (q : Nat) : SameOwners (s.popHead q) s := by simp [State.popHead]

@[simp] theorem State.boundFail_owners (s : State) : SameOwners s.boundFail s := by simp [State.boundFail]

@[simp] theorem State.boundNext_owners (s : State) (q : Nat) (a : Action) (v : Nat) : SameOwners (s.boundNext q a v) s := by simp [State.boundNext]

@[simp] theorem State.lastLate_owners (s : State) (q : Nat) (a : Action) (actual : Int) (outcome : Nat) : SameOwners (s.lastLate q a actual outcome) s := by
  simp [State.lastLate]

@[simp] theorem State.lateAction_owners (s : State) {q : Nat} (hq : q < 16) (a : Action) (actual : Int) (outcome : Nat) :
    SameOwners (s.lateAction q a actual outcome) s := by
  have hlate : BesideOwner (SCHED.Q_LATE.COUNT q) := by simp; omega
  exact (State.lastLate_owners ..).trans (State.onlyIf_owners _ _ _ fun u v hv =>
    hv ▸ (State.irq_owners _ _ _).trans (State.incSat_owners u _ _ hlate))

@[simp] theorem State.handOver_owners (s : State) (q : Nat) (a : Action) (t : Int) (outcome : Nat) : SameOwners (s.handOver q a t outcome) s := by
  unfold State.handOver
  dsimp only
  (repeat' split) <;> simp

theorem earliestHead_mem {l : List (Nat × Action × Int)} {x : Nat × Action × Int} (h : earliestHead l = some x) : x ∈ l := by
  induction l with
  | nil => simp [earliestHead] at h
  | cons y l ih =>
    unfold earliestHead at h
    split at h
    · next g hg =>
      split at h
      · exact List.mem_cons_of_mem _ (ih (hg.trans h))
      · exact Option.some.inj h ▸ List.mem_cons_self
    · exact Option.some.inj h ▸ List.mem_cons_self

/-- The queue whose head is due is one of the 16. -/
theorem State.readyHeads_lt {s : State} {q : Nat} {a : Action} {t : Int} (h : (q, a, t) ∈ s.readyHeads) : q < 16 := by
  obtain ⟨x, hx, heq⟩ := List.mem_filterMap.1 h
  have hqueue : x = q := by grind
  exact hqueue ▸ List.mem_range.1 hx

@[simp] theorem State.dispatch_owners (s0 : State) : SameOwners (s0.dispatch) s0 := by
  unfold State.dispatch
  split
  · exact .refl s0
  · next q a t hhead =>
    have hq := State.readyHeads_lt (earliestHead_mem hhead)
    dsimp only
    (repeat' split) <;> simp [hq]

@[simp] theorem State.flushQueue_owners (s : State) (q : Nat) : SameOwners (s.flushQueue q) s := by
  have hwhen : BesideOwner (SCHED.Q_ORDER_REF.WHEN q) := by simp; omega
  exact (State.put_owners _ _ _ hwhen).trans ((State.discardAll_owners _ _).trans
    (State.onlyIf_owners _ _ _ fun u v hv => hv ▸ u.dispatch_owners))

@[simp] theorem State.showSubs_owners (s : State) (i : Nat) : SameOwners (s.showSubs i) s := by simp [State.showSubs]

/-- The places of an input are four. -/
theorem subInfo_beside (k hi lo : Nat) (h : hi < 32) : BesideOwner ⟨0xA0 + 0x8 * k, hi, lo⟩ := by
  simp
  omega

theorem State.takePlace_owners {s t : State} {i kind idx : Nat} (h : s.takePlace i kind idx = some t) : SameOwners t s := by
  unfold State.takePlace at h
  split at h
  · cases h
  · next k _ =>
    cases h
    exact (State.showSubs_owners _ _).trans ((State.putFlag_owners _ _ _ (subInfo_beside k _ _ (by decide))).trans
      ((State.put_owners _ _ _ (subInfo_beside k _ _ (by decide))).trans (State.put_owners _ _ _ (subInfo_beside k _ _ (by decide)))))

@[simp] theorem State.freePlace_owners (s : State) (i kind idx : Nat) : SameOwners (s.freePlace i kind idx) s := by
  unfold State.freePlace
  split
  · exact .refl s
  · next k _ => exact (State.showSubs_owners _ _).trans (State.wr_owners _ _ _ (show (0xA0 + 0x8 * k) % 4096 ≠ 0x00C by omega))

@[simp] theorem State.freePlaces_owners (s : State) (kind idx : Nat) (is : List Nat) : SameOwners (s.freePlaces kind idx is) s := by
  simp [State.freePlaces]

@[simp] theorem State.refreshInput_owners (s : State) (i : Nat) : SameOwners (s.refreshInput i) s := by simp [State.refreshInput]

@[simp] theorem State.unresolve_owners (s : State) (i ahead : Nat) : SameOwners (s.unresolve i ahead) s := by simp [State.unresolve]

@[simp] theorem State.keepTerms_owners (s : State) (i : Nat) : SameOwners (s.keepTerms i) s := by simp [State.keepTerms]

@[simp] theorem State.putSessState_owners (s : State) (k st : Nat) : SameOwners (s.putSessState k st) s :=
  State.put_owners _ _ _ (by simp; omega)

@[simp] theorem State.disableGate_owners (s : State) (g : Nat) : SameOwners (s.disableGate g) s := by simp [State.disableGate]

/-! ### The servo and its references -/

@[simp] theorem State.openUnit_owners (s : State) (num : Int) (den : Nat) : SameOwners (s.openUnit num den).2 s := by simp [State.openUnit]

@[simp] theorem State.tscEvent_owners (s : State) (kind data : Nat) : SameOwners (s.tscEvent kind data) s := by simp [State.tscEvent]

@[simp] theorem State.enterStage_owners (s : State) {k : Nat} (hk : k ≤ 4) : SameOwners (s.enterStage k) s := by
  have hat : BesideOwner (DEV.STAGE_AT.MS (k - 1)) := by simp; omega
  simp [State.enterStage, State.put_owners _ _ _ hat]

@[simp] theorem State.refreshStage_owners (s : State) : SameOwners s.refreshStage s := by
  unfold State.refreshStage
  split
  · exact .refl s
  · exact State.enterStage_owners _ (by split <;> omega)

@[simp] theorem State.setBasis_owners (s : State) (b : Nat) : SameOwners (s.setBasis b) s := by simp [State.setBasis]

@[simp] theorem State.setServoState_owners (s : State) (st : Nat) : SameOwners (s.setServoState st) s := by simp [State.setServoState]

@[simp] theorem State.cancelSlew_owners (s : State) : SameOwners s.cancelSlew s := by simp [State.cancelSlew]

theorem State.servo_owners (s : State) (x : ServoSt) : SameOwners { s with servo := x } s := ⟨rfl, rfl, rfl⟩

@[simp] theorem State.startSlew_owners (s : State) (th : Int) : SameOwners (s.startSlew th) s := by
  have hu := s.openUnit_owners ((s.get pSERVO SERVO.SLEW_MAX.PPB : Int) * 2 ^ 60) (10 ^ 9)
  unfold State.startSlew
  generalize s.openUnit ((s.get pSERVO SERVO.SLEW_MAX.PPB : Int) * 2 ^ 60) (10 ^ 9) = u at hu ⊢
  exact (State.servo_owners _ _).trans ((State.putI_owners _ _ _ (by simp)).trans ((State.putFlag_owners _ _ _ (by simp)).trans hu))

@[simp] theorem State.meanError_owners (s : State) (vs : List Int) : SameOwners (s.meanError vs).2 s := by simp [State.meanError]

@[simp] theorem State.putHold0_owners (s : State) (b : Option Nat) : SameOwners (s.putHold0 b) s := by simp [State.putHold0]

@[simp] theorem State.adoptBase_owners (s : State) (k : Nat) (o : Option Obs) : SameOwners (s.adoptBase k o) s := by simp [State.adoptBase]

@[simp] theorem State.keepFloor_owners (s : State) : SameOwners s.keepFloor s := by simp [State.keepFloor]

@[simp] theorem State.enterManual_owners (s : State) : SameOwners s.enterManual s := by simp [State.enterManual]

@[simp] theorem State.putRefState_owners (s : State) (k st : Nat) : SameOwners (s.putRefState k st) s := by
  have hstate : BesideOwner (REFSEL.REF_STATE.STATE k) := by simp; omega
  simp [State.putRefState, State.put_owners _ _ _ hstate]

@[simp] theorem State.putSelected_owners (s : State) (k : Nat) : SameOwners (s.putSelected k) s := by simp [State.putSelected]

@[simp] theorem State.clearConflict_owners (s : State) : SameOwners s.clearConflict s :=
  s.wr_owners pREFSEL 0 (o := REFSEL.CONFLICT_INFO.off) (by decide)

@[simp] theorem State.makeSuspect_owners (s : State) (k : Nat) : SameOwners (s.makeSuspect k) s := by simp [State.makeSuspect]

@[simp] theorem State.raiseConflict_owners (s : State) (k : Nat) : SameOwners (s.raiseConflict k) s := by simp [State.raiseConflict]

@[simp] theorem State.exchange_owners (s : State) (old new : Nat) : SameOwners (s.exchange old new) s := by simp [State.exchange]

@[simp] theorem State.refreshDomain_owners (s : State) : SameOwners s.refreshDomain s := by simp [State.refreshDomain]

@[simp] theorem State.resetRef_owners (s : State) (k st : Nat) : SameOwners (s.resetRef k st) s := by simp [State.resetRef]

/-! ### Enables, commits and resets -/

@[simp] theorem State.auxArm_owners (s : State) (n : Nat) : SameOwners (s.auxArm n) s := by simp [State.auxArm]

@[simp] theorem State.apllaStart_owners (s : State) : SameOwners (s.apllaStart).1 s := by simp [State.apllaStart]

@[simp] theorem State.apllaStop_owners (s : State) : SameOwners s.apllaStop s := by simp [State.apllaStop]

@[simp] theorem State.auxStart_owners (s : State) (n : Nat) : SameOwners (s.auxStart n).1 s := by simp [State.auxStart]

@[simp] theorem State.progCtl_owners (s : State) (v : Nat) : SameOwners (s.progCtl v).1 s := by simp [State.progCtl]

@[simp] theorem State.rdgEnable_owners (s : State) (p : Nat) (on : Bool) : SameOwners (s.rdgEnable p on).1 s := by
  unfold State.rdgEnable
  split
  · split
    · exact .refl s
    · exact (State.setRdg_owners ..).trans ((State.put_owners _ _ _ (by simp)).trans (State.putFlag_owners _ _ _ (by simp)))
  · split
    · exact (State.setRdg_owners ..).trans ((State.putFlag_owners _ _ _ (by simp)).trans ((State.putFlag_owners _ _ _ (by simp)).trans
        ((State.put_owners _ _ _ (by simp)).trans (State.putFlag_owners _ _ _ (by simp)))))
    · exact .refl s

@[simp] theorem State.ethLink_owners (s : State) (p : Nat) (up : Bool) : SameOwners (s.ethLink p up) s := by simp [State.ethLink]

@[simp] theorem State.ethEnable_owners (s : State) (p : Nat) (on : Bool) : SameOwners (s.ethEnable p on).1 s := by simp [State.ethEnable]

@[simp] theorem State.ethRingCtrl_owners (s : State) (p : Nat) (rx on : Bool) : SameOwners (s.ethRingCtrl p rx on).1 s := by
  unfold State.ethRingCtrl
  extract_lets g en st s1
  have hen : BesideOwner en := by cases rx <;> decide
  have hst : BesideOwner st := by cases rx <;> decide
  have h1 : SameOwners s1 s := (State.putFlag_owners _ _ _ hst).trans (State.putFlag_owners _ _ _ hen)
  split
  · split
    · exact .refl s
    · split
      · exact (State.put_owners _ _ _ (by simp)).trans ((State.put_owners _ _ _ (by simp)).trans h1)
      · exact (State.setEth_owners ..).trans ((State.put_owners _ _ _ (by simp)).trans ((State.put_owners _ _ _ (by simp)).trans h1))
  · split
    · exact (State.putFlag_owners _ _ _ hst).trans (State.putFlag_owners _ _ _ hen)
    · exact .refl s

@[simp] theorem State.calHook_owners (s old : State) (q : Nat) : SameOwners (s.calHook old q) s := by simp [State.calHook]

@[simp] theorem State.dropShadows_owners (s : State) (p : Nat) {lane : Nat} (h : lane < 4) : SameOwners (s.dropShadows p lane) s := by
  have hctl := ctxOff_bounds (p := p) h
  exact (State.put_owners _ _ _ (by simp; omega)).trans ((State.put_owners _ _ _ (by simp; omega)).trans ⟨rfl, rfl, rfl⟩)

@[simp] theorem State.loopOff_owners (s : State) : SameOwners s.loopOff s := by simp [State.loopOff]

@[simp] theorem State.dropKind_owners (s : State) (kind : Nat) : SameOwners (s.dropKind kind) s := by simp [State.dropKind]

@[simp] theorem State.freed_owners (s : State) (code idx : Nat) : SameOwners (s.freed code idx) s := by simp [State.freed]

@[simp] theorem State.ringStop_owners (s : State) (r : Nat) : SameOwners (s.ringStop r) s :=
  State.putFlag_owners _ _ _ (by simp; omega)

@[simp] theorem State.ringsStop_owners (s : State) (rs : List Nat) : SameOwners (s.ringsStop rs) s := by simp [State.ringsStop]

@[simp] theorem State.keep_owners (s : State) (r : State × Verdict) (hr : SameOwners r.1 s) : SameOwners (s.keep r).1 s := by
  unfold State.keep
  split
  · exact hr
  · exact .refl s

@[simp] theorem State.chanEnable_owners (s : State) (agent c : Nat) (on : Bool) : SameOwners (s.chanEnable agent c on).1 s := by
  unfold State.chanEnable
  dsimp only
  (repeat' split) <;> simp

@[simp] theorem State.phaseEnable_owners (s : State) (t : Nat) (on : Bool) : SameOwners (s.phaseEnable t on).1 s := by
  unfold State.phaseEnable
  dsimp only
  split
  · simp
  · split
    · simp
    · split
      · next h => simp [State.takePlace_owners h]
      · exact .refl s

@[simp] theorem State.setEnable_owners (s : State) (c : WCtx) (k : Kind) (on : Bool) : SameOwners (s.setEnable c k on).1 s := by
  unfold State.setEnable
  split <;> simp

@[simp] theorem State.resetReg_owners (s : State) (p : Nat) (d : RegDesc) (j : Nat) (h : ∀ k < d.words, (d.at_ j + 4 * k) % 4096 ≠ 0x00C) :
    SameOwners (s.resetReg p d j) s := State.wrN_owners _ _ _ h

/-- Where the words of a register lie beside the OWNER words. -/
def RegDesc.besideOwner (d : RegDesc) : Bool :=
  d.base == 0x00C || decide (d.base + 4 * d.words ≤ 0x00C) && decide (d.count ≤ 1) ||
    decide (0x010 ≤ d.base) && decide (d.base + d.stride * (max 1 d.count - 1) + 4 * d.words ≤ 4096)

/-- Every register but OWNER lies beside the OWNER words. -/
theorem kindRegs_besideOwner (k : Kind) : (kindRegs k).all RegDesc.besideOwner = true := by
  cases k <;> rfl

theorem RegDesc.at_ne_owner {d : RegDesc} (hd : d.besideOwner = true) (hbase : d.base ≠ 0x00C) {j k : Nat} (hj : j < max 1 d.count)
    (hk : k < d.words) : (d.at_ j + 4 * k) % 4096 ≠ 0x00C := by
  have hplace : d.stride * j ≤ d.stride * (max 1 d.count - 1) := Nat.mul_le_mul_left _ (by omega)
  simp only [RegDesc.besideOwner, Bool.or_eq_true, Bool.and_eq_true, beq_iff_eq, decide_eq_true_eq, hbase, false_or] at hd
  rcases hd with ⟨hlow, hone⟩ | ⟨hlow, hhigh⟩
  · have hfirst : j = 0 := by omega
    subst hfirst
    simp only [RegDesc.at_, Nat.mul_zero]
    omega
  · simp only [RegDesc.at_]
    omega

/-- A reset of registers of a page leaves its OWNER, where that is not selected. -/
@[simp] theorem State.resetRegs_owners (s : State) (p : Nat) (sel : Nat → Nat → Bool) (h : ∀ j, sel 0x00C j = false) :
    SameOwners (s.resetRegs p sel) s := by
  unfold State.resetRegs
  split
  · exact .refl s
  · next b _ =>
    refine State.forEach_owners_of_mem _ _ _ fun d hd _ => State.forEach_owners_of_mem _ _ _ fun j hj _ => State.resetReg_owners _ _ _ _ fun k hk => ?_
    obtain ⟨hj, hsel⟩ := List.mem_filter.1 hj
    have hbase : d.base ≠ 0x00C := fun heq => by simp [heq, h] at hsel
    exact RegDesc.at_ne_owner (List.all_eq_true.1 (kindRegs_besideOwner b.1) d hd) hbase (List.mem_range.1 hj) hk

@[simp] theorem State.seqForced_owners (s : State) (q : Nat) : SameOwners (s.seqForced q) s := by simp [State.seqForced]

@[simp] theorem State.measForced_owners (s : State) : SameOwners s.measForced s := by
  have hstops : ∀ k, BesideOwner (TDC.MS_STATE.STOPS k) := fun k => by simp; omega
  exact (State.forEach_owners_of_mem _ _ _ fun _ _ _ => State.disableGate_owners ..).trans
    (State.forEach_owners_of_mem _ _ _ fun k _ _ => (State.freePlaces_owners ..).trans ((State.put_owners _ _ _ (hstops k)).trans
      ((State.putSessState_owners ..).trans (State.setSess_owners ..))))

@[simp] theorem State.dropWrites_owners (s : State) (p : Nat) {lane : Nat} (h : lane < 4) : SameOwners (s.dropWrites p lane) s :=
  s.dropShadows_owners p h

/-- The enable bits of captures lie in one register of two words. -/
theorem captureEn_beside {n : Nat} (hn : n < 64) : BesideOwner ⟨TRIG.CAPTURE_EN.off, n, n⟩ :=
  ⟨(by decide : (0x90 : Nat) % 4096 ≠ 0x00C), .inr ⟨Nat.lt_trans hn (by decide : 64 < 128), (by decide : 0x010 ≤ (0x90 : Nat) % 4096)⟩⟩

@[simp] theorem State.lineReset_owners (s : State) {n : Nat} (hn : n < 64) : SameOwners (s.lineReset n) s := by
  unfold State.lineReset
  extract_lets s1
  have h1 : SameOwners s1 s := by
    simp only [s1]
    split
    · exact State.freePlace_owners ..
    · exact .refl s
  exact (State.setLine_owners ..).trans ((State.put_owners _ _ _ (captureEn_beside hn)).trans ((State.resetRegs_owners _ _ _ (fun _ => rfl)).trans h1))

@[simp] theorem State.tickReset_owners (s : State) (n : Nat) : SameOwners (s.tickReset n) s := by simp [State.tickReset]

@[simp] theorem State.chanReset_owners (s : State) (c : Nat) : SameOwners (s.chanReset c) s := by
  have hlane : chanLane c < 4 := Nat.mod_lt _ (by decide)
  simp [State.chanReset, hlane, keeps]

@[simp] theorem State.chanForced_owners (s : State) (c : Nat) : SameOwners (s.chanForced c) s := by simp [State.chanForced]

@[simp] theorem State.ringReset_owners (s : State) (r : Nat) : SameOwners (s.ringReset r) s := by simp [State.ringReset]

@[simp] theorem State.queueReset_owners (s : State) (q : Nat) : SameOwners (s.queueReset q) s := by simp [State.queueReset]

end Sys2Proof.Machine
end

section
/-! SUPPORT. Who owns what (R42) under the choice of a reference and the reset of a page. -/

namespace Sys2Proof.Machine

@[simp] theorem State.formY_owners (s : State) : SameOwners s.formY s := by
  unfold State.formY
  extract_lets sum y s1 s2
  have h2 : SameOwners s2 s := by simp [s2, s1]
  clear_value s2
  split
  · exact .refl s
  · exact h2

@[simp] theorem State.enterHoldover_owners (s : State) (byMode : Bool) : SameOwners (s.enterHoldover byMode) s := by
  have enter (u : State) (x : ServoSt) (y : TebSt) (b : Bool) (n : Nat) (h : SameOwners u s) :
      SameOwners (((({ u with servo := x, teb := y } : State).setServoState 3).onlyIf b fun s => s.err pSERVO 0).setBasis n).formY s :=
    (State.formY_owners _).trans ((State.setBasis_owners ..).trans ((State.onlyIf_owners _ _ _ fun _ _ hv => hv ▸ State.err_owners ..).trans
      ((State.setServoState_owners ..).trans h)))
  refine enter _ _ _ _ _ ?_
  refine (State.putFlag_owners _ _ _ (by simp)).trans ((State.putFlag_owners _ _ _ (by simp)).trans ((State.putI_owners _ _ _ (by simp)).trans
    ((State.putHold0_owners ..).trans ((State.put_owners _ _ _ (by simp)).trans ((State.putInst_owners _ _ _ (by simp)).trans
      ((State.cancelSlew_owners _).trans ((State.meanError_owners ..).trans ?_)))))))
  split
  · exact .refl s
  · exact State.openUnit_owners ..

theorem State.teb_owners (s : State) (x : TebSt) : SameOwners { s with teb := x } s := ⟨rfl, rfl, rfl⟩

@[simp] theorem State.freerun_owners (s : State) : SameOwners s.freerun s :=
  (State.formY_owners _).trans ((State.setServoState_owners ..).trans ((State.servo_owners ..).trans ((State.putFlag_owners _ _ _ (by simp)).trans
    ((State.putFlag_owners _ _ _ (by simp)).trans ((State.putI_owners _ _ _ (by simp)).trans s.cancelSlew_owners)))))

@[simp] theorem State.adoptSlew_owners (s : State) (k : Nat) (th : Int) (b : Nat) : SameOwners (s.adoptSlew k th b) s :=
  (State.formY_owners _).trans ((State.setBasis_owners ..).trans ((State.teb_owners ..).trans ((State.startSlew_owners ..).trans
    ((State.adoptBase_owners ..).trans ((State.cancelSlew_owners _).trans s.keepFloor_owners)))))

@[simp] theorem State.adoptFreq_owners (s : State) (k : Nat) : SameOwners (s.adoptFreq k) s :=
  (State.formY_owners _).trans ((State.servo_owners ..).trans ((State.setRef_owners ..).trans ((State.adoptBase_owners ..).trans
    ((State.cancelSlew_owners _).trans s.keepFloor_owners))))

@[simp] theorem State.acquire_owners (s : State) (k : Nat) : SameOwners (s.acquire k) s := by
  unfold State.acquire
  split <;> simp

@[simp] theorem State.askStep_owners (s : State) (d : Int) (adopts : Option Nat) : SameOwners (s.askStep d adopts) s := ⟨rfl, rfl, rfl⟩

@[simp] theorem State.deselect_owners (s : State) : SameOwners s.deselect s := by
  unfold State.deselect
  dsimp only
  (repeat' split) <;> simp

@[simp] theorem State.adopt_owners (s : State) (k : Nat) (a : Adoption) : SameOwners (s.adopt k a) s := by
  unfold State.adopt
  split <;> simp

@[simp] theorem State.reselectWith_owners (s : State) (F : State → Nat) (n : Nat) (skip : List Nat) :
    SameOwners (State.reselectWith F n skip s) s := by
  induction n generalizing s skip with
  | zero => exact .refl s
  | succ n ih =>
    unfold State.reselectWith
    split
    · split <;> simp
    · extract_lets auto old switched s1
      have hs : ∀ t, SameOwners (switched t) t := fun t => by simp [switched]
      have h1 : SameOwners s1 s := by
        simp only [s1]
        split <;> simp
      clear_value switched s1
      (repeat' split) <;> simp [hs, h1, ih]

@[simp] theorem State.reselect_owners (s : State) : SameOwners s.reselect s := by simp [State.reselect]

@[simp] theorem State.disableRef_owners (s : State) (k : Nat) : SameOwners (s.disableRef k) s := by
  have hfrozen : BesideOwner (REFSEL.REF_STATE.FROZEN k) := by simp; omega
  simp [State.disableRef, State.putFlag_owners _ _ _ hfrozen]

@[simp] theorem State.servoMode_owners (s : State) : SameOwners s.servoMode s := by
  unfold State.servoMode
  dsimp only
  (repeat' split) <;> simp

@[simp] theorem State.pageForced_owners (s : State) (agent p : Nat) : SameOwners (s.pageForced agent p) s := by
  have henable : ∀ n, BesideOwner (REFSEL.REF_CFG.ENABLE n) := fun n => by simp; omega
  unfold State.pageForced
  dsimp only
  (repeat' split) <;> simp [State.putFlag_owners _ _ _ (henable _)]

@[simp] theorem State.pageReset_owners (s : State) (agent p : Nat) : SameOwners (s.pageReset agent p) s := by
  unfold State.pageReset
  extract_lets s1
  have h1 : SameOwners s1 s := (State.resetRegs_owners _ _ _ fun _ => by split <;> rfl).trans (s.pageForced_owners agent p)
  clear_value s1
  split <;> simp [h1]

end Sys2Proof.Machine
end

section
/-! PROOFS. Ownership: OWNER_ID, CLAIM, RELEASE, QUERY and FORCE_RELEASE (O11). -/

namespace Sys2Proof.Machine

/-! ### Owners -/

/-- An owner is read from the OWNER words and the list of owners alone. -/
theorem State.pageOwner_of_owners {s t : State} (h : SameOwners t s) (p : Nat) : t.pageOwner p = s.pageOwner p := by
  exact congrArg (fun w : Word => bitsOf w.toNat 31 16) (congrFun h.words p)

theorem State.resOwner_of_owners {s t : State} (h : SameOwners t s) (code idx : Nat) : t.resOwner code idx = s.resOwner code idx := by
  unfold State.resOwner
  split
  · exact State.pageOwner_of_owners h _
  · rw [h.list]

/-- The OWNER word of an agent. -/
theorem bitsOf_ownerWord {agent : Nat} (h : agent < 65536) : bitsOf (BitVec.ofNat 32 (agent * 65536)).toNat 31 16 = agent := by
  rw [BitVec.toNat_ofNat, bitsOf]
  omega

theorem State.pageOwner_wr_self (s : State) (p : Nat) {agent : Nat} (h : agent < 65536) :
    (s.wr p 0x00C (BitVec.ofNat 32 (agent * 65536))).pageOwner p = agent := by
  rw [State.pageOwner, State.rd_wr_self, bitsOf_ownerWord h]

theorem State.pageOwner_wr_ne (s : State) {p q : Nat} (w : Word) (h : q ≠ p) : (s.wr p 0x00C w).pageOwner q = s.pageOwner q := by
  rw [State.pageOwner, State.rd_wr_ne _ _ _ _ _ _ (by decide) (by decide) (.inl h), State.pageOwner]

/-- The owner of a resource without a page, in a list of owners. -/
def ownerIn (l : List ((Nat × Nat) × Nat)) (r : Nat × Nat) : Nat :=
  match l.find? (fun o => o.1 == r) with | some o => o.2 | none => 0

theorem ownerIn_cons (o : (Nat × Nat) × Nat) (l : List ((Nat × Nat) × Nat)) (r : Nat × Nat) :
    ownerIn (o :: l) r = if o.1 = r then o.2 else ownerIn l r := by
  unfold ownerIn
  rw [List.find?_cons]
  cases h : o.1 == r with
  | true => simp [eq_of_beq h]
  | false => simp [ne_of_beq_false h]

theorem ownerIn_filter_self (l : List ((Nat × Nat) × Nat)) (r : Nat × Nat) : ownerIn (l.filter (fun o => o.1 ≠ r)) r = 0 := by
  induction l with
  | nil => rfl
  | cons o l ih => by_cases h : o.1 = r <;> simp_all [ownerIn_cons]

theorem ownerIn_filter_ne (l : List ((Nat × Nat) × Nat)) {r x : Nat × Nat} (hne : x ≠ r) :
    ownerIn (l.filter (fun o => o.1 ≠ r)) x = ownerIn l x := by
  induction l with
  | nil => rfl
  | cons o l ih =>
    by_cases h : o.1 = r
    · simp [h, ownerIn_cons, hne.symm, ← ih]
    · simp [h, ownerIn_cons, ← ih]

section
variable {s : State} {code idx : Nat}

theorem State.resOwner_of_page {p : Nat} (h : pageOfRes code idx = some p) : s.resOwner code idx = s.pageOwner p := by
  simp only [State.resOwner, h]

theorem State.resOwner_of_list (h : pageOfRes code idx = none) : s.resOwner code idx = ownerIn s.host.owners (code, idx) := by
  unfold State.resOwner
  rw [h]
  rfl

end

/-! ### What setOwner does -/

section
variable (s : State) (code idx : Nat)

theorem State.setOwner_of_page {p : Nat} (agent : Nat) (h : pageOfRes code idx = some p) :
    s.setOwner code idx agent = s.wr p 0x00C (BitVec.ofNat 32 (agent * 65536)) := by
  simp only [State.setOwner, h]

theorem State.setOwner_of_list (agent : Nat) (h : pageOfRes code idx = none) : (s.setOwner code idx agent).regs = s.regs ∧
    (s.setOwner code idx agent).host.owners =
      if agent = 0 then s.host.owners.filter (fun o => o.1 ≠ (code, idx))
      else ((code, idx), agent) :: s.host.owners.filter (fun o => o.1 ≠ (code, idx)) := by
  simp only [State.setOwner, h, and_self]

theorem State.resOwner_setOwner_self {agent : Nat} (h : agent < 65536) : (s.setOwner code idx agent).resOwner code idx = agent := by
  cases hpage : pageOfRes code idx with
  | some p => rw [State.resOwner_of_page hpage, State.setOwner_of_page _ _ _ _ hpage, State.pageOwner_wr_self _ _ h]
  | none =>
    rw [State.resOwner_of_list hpage, (s.setOwner_of_list code idx agent hpage).2]
    split
    · next hzero => rw [ownerIn_filter_self, hzero]
    · rw [ownerIn_cons, if_pos rfl]

/-- A resource that is freed changes no other's owner. -/
theorem State.resOwner_setOwner_zero (code' idx' : Nat) :
    (s.setOwner code idx 0).resOwner code' idx' = 0 ∨ (s.setOwner code idx 0).resOwner code' idx' = s.resOwner code' idx' := by
  cases hpage : pageOfRes code idx with
  | some p =>
    rw [State.setOwner_of_page _ _ _ _ hpage]
    cases hpage' : pageOfRes code' idx' with
    | some q =>
      rw [State.resOwner_of_page hpage', State.resOwner_of_page hpage']
      by_cases heq : q = p
      · exact .inl (heq ▸ s.pageOwner_wr_self q (agent := 0) (by decide))
      · exact .inr (s.pageOwner_wr_ne _ heq)
    | none => exact .inr (by rw [State.resOwner_of_list hpage', State.resOwner_of_list hpage', State.wr_host])
  | none =>
    obtain ⟨hregs, howners⟩ := s.setOwner_of_list code idx 0 hpage
    cases hpage' : pageOfRes code' idx' with
    | some q => exact .inr (by rw [State.resOwner_of_page hpage', State.resOwner_of_page hpage', State.pageOwner, State.rd_of_regs hregs, State.pageOwner])
    | none =>
      rw [State.resOwner_of_list hpage', State.resOwner_of_list hpage', howners, if_pos rfl]
      by_cases heq : (code', idx') = (code, idx)
      · exact .inl (heq ▸ ownerIn_filter_self _ _)
      · exact .inr (ownerIn_filter_ne _ heq)

theorem State.setOwner_ranges (agent : Nat) : (s.setOwner code idx agent).host.ranges = s.host.ranges := by
  cases hpage : pageOfRes code idx with
  | some p => rw [State.setOwner_of_page _ _ _ _ hpage, State.wr_host]
  | none => simp only [State.setOwner, hpage]

end

/-! ### What releaseRes does -/

section
variable (s : State) (code idx : Nat)

theorem State.resOwner_releaseRes_self : (s.releaseRes code idx).resOwner code idx = 0 :=
  State.resOwner_setOwner_self _ _ _ (by decide)

theorem State.resOwner_releaseRes (code' idx' : Nat) :
    (s.releaseRes code idx).resOwner code' idx' = 0 ∨ (s.releaseRes code idx).resOwner code' idx' = s.resOwner code' idx' :=
  ((s.freed code idx).resOwner_setOwner_zero code idx code' idx').imp_right fun h => h.trans (State.resOwner_of_owners (s.freed_owners code idx) _ _)

theorem State.releaseRes_ranges : (s.releaseRes code idx).host.ranges = s.host.ranges := by
  rw [State.releaseRes, State.setOwner_ranges, (State.freed_owners s code idx : SameOwners _ _).ranges]

/-- What a list of releases leaves: the resources listed are free, and the others are as they were. -/
theorem State.resOwner_releases (l : List (Nat × Nat)) :
    let t := s.forEach l (fun r s => s.releaseRes r.1 r.2)
    t.host.ranges = s.host.ranges ∧ (∀ c i, t.resOwner c i = 0 ∨ t.resOwner c i = s.resOwner c i) ∧ ∀ r ∈ l, t.resOwner r.1 r.2 = 0 := by
  induction l generalizing s with
  | nil => exact ⟨rfl, fun _ _ => .inr rfl, fun _ h => absurd h List.not_mem_nil⟩
  | cons r l ih =>
    obtain ⟨hranges, howners, hlisted⟩ := ih (s.releaseRes r.1 r.2)
    refine ⟨hranges.trans (s.releaseRes_ranges r.1 r.2), fun c i => ?_, fun x hx => ?_⟩
    · rcases howners c i with h | h
      · exact .inl h
      · exact (s.resOwner_releaseRes r.1 r.2 c i).imp h.trans h.trans
    · rcases List.mem_cons.1 hx with rfl | hmem
      · exact (howners x.1 x.2).elim id fun h => h.trans (s.resOwner_releaseRes_self x.1 x.2)
      · exact hlisted x hmem

end

/-! ### FORCE_RELEASE -/

/-- What an agent owns that FORCE_RELEASE frees: its resources with a code, and its pages without one. -/
def State.holdings (s : State) (agent : Nat) : List (Nat × Nat) :=
  [1, 3, 4, 5, 6, 7, 9, 10, 11, 12].flatMap (fun code => (s.ownedBy code agent).map (fun i => (code, i))) ++
    (s.pagesOf agent).map (fun p => (15, p))

/-- The pages are those before 0x91. -/
theorem pageBlock_of_ge {p : Nat} (h : 0x91 ≤ p) : pageBlock p = none := by
  unfold pageBlock
  repeat rw [if_neg (by omega)]

/-- Every resource that an agent owns, but for ranges of courses, is among its holdings. -/
theorem State.mem_holdings {s : State} {agent code i : Nat} (hcode : code ≠ 8) (hthere : resExists code i = true)
    (howner : s.resOwner code i = agent) : (code, i) ∈ s.holdings agent := by
  unfold State.holdings
  by_cases hpage : code = 15
  · subst hpage
    have hlt : i < 0x91 := by
      simp only [resExists, if_true, Bool.and_eq_true] at hthere
      obtain ⟨⟨hblock, -⟩, -⟩ := hthere
      by_contra hge
      simp [pageBlock_of_ge (Nat.le_of_not_lt hge)] at hblock
    exact List.mem_append_right _ (List.mem_map_of_mem (List.mem_filter.2 ⟨List.mem_range.2 hlt, by simp [hthere]; exact howner⟩))
  · have hlt : i < resCount code := by simpa [resExists, hpage] using hthere
    refine List.mem_append_left _ (List.mem_flatMap.2 ⟨code, ?_, List.mem_map_of_mem (List.mem_filter.2 ⟨List.mem_range.2 hlt, by simp [howner]⟩)⟩)
    unfold resCount at hlt
    split at hlt <;> simp_all

/-- FORCE_RELEASE resets what an agent owns, takes its ranges away and releases its holdings. -/
theorem State.forceRelease_eq (s : State) (agent : Nat) : ∃ u, SameOwners u s ∧
    s.forceRelease agent = (u.setRanges (s.host.ranges.filter (fun r => r.2.2 != agent))).forEach (s.holdings agent)
      (fun r s => s.releaseRes r.1 r.2) := by
  unfold State.forceRelease
  extract_lets rings chans queues lines ticks coded pages s1 s2 s3 s4 s5 s6 codes
  have hlines : ∀ n ∈ lines, n < 64 := fun n hn => List.mem_range.1 (List.mem_filter.1 hn).1
  have h1 : SameOwners s1 s := State.ringsStop_owners _ _
  have h2 : SameOwners s2 s := (State.forEach_owners_of_mem _ _ _ fun c _ u => u.chanForced_owners c).trans h1
  have h3 : SameOwners s3 s := (State.forEach_owners_of_mem _ _ _ fun r _ u => u.ringReset_owners r).trans
    ((State.forEach_owners_of_mem _ _ _ fun q _ u => u.queueReset_owners q).trans h2)
  have h4 : SameOwners s4 s := (State.forEach_owners_of_mem _ _ _ fun p _ u => u.pageReset_owners agent p).trans h3
  have h5 : SameOwners s5 s := (State.forEach_owners_of_mem _ _ _ fun n _ u => u.tickReset_owners n).trans
    ((State.forEach_owners_of_mem _ _ _ fun n hn u => u.lineReset_owners (hlines n hn)).trans h4)
  refine ⟨s5, h5, ?_⟩
  simp only [s6, h5.ranges]
  rfl

/-- FORCE_RELEASE leaves an agent nothing. -/
theorem State.forceRelease_leaves_nothing (s : State) {agent : Nat} (hagent : agent ≠ 0) :
    (∀ r ∈ (s.forceRelease agent).host.ranges, r.2.2 ≠ agent) ∧
    ∀ code i, code ≠ 8 → resExists code i = true → (s.forceRelease agent).resOwner code i ≠ agent := by
  obtain ⟨u, hu, heq⟩ := s.forceRelease_eq agent
  obtain ⟨hranges, howners, hlisted⟩ := (u.setRanges (s.host.ranges.filter (fun r => r.2.2 != agent))).resOwner_releases (s.holdings agent)
  rw [heq]
  refine ⟨fun r hr => ?_, fun code i hcode hthere howner => ?_⟩
  · rw [hranges] at hr
    simpa using (List.mem_filter.1 hr).2
  · have hheld : s.resOwner code i = agent := by
      rcases howners code i with h | h
      · exact absurd (howner.symm.trans h) hagent
      · exact (State.resOwner_of_owners hu code i).symm.trans (h.symm.trans howner)
    exact hagent (howner.symm.trans (hlisted (code, i) (State.mem_holdings hcode hthere hheld)))

/-! ### A command written to a CMD register -/

/-- What a host command leaves once its CMD register's meaning leaves `t` with a verdict: the register shows it and LAST_CMD reports it. -/
def State.commanded (t : State) (path : Path) (page off v agent : Nat) (r : Verdict) : State :=
  ((t.unstage path page off 1).noteAt path page off v).lastCmd path page off agent (codeAt page off v) r

section
variable (t : State) (path : Path) (page v agent : Nat) {off : Nat} (r : Verdict)

theorem State.noteAt_owners (s : State) (h : off % 4096 ≠ 0x00C) : SameOwners (s.noteAt path page off v) s := by
  unfold State.noteAt
  split
  · split
    · exact SameOwners.trans (t := s.wr page off _) ⟨rfl, rfl, rfl⟩ (s.wr_owners page _ h)
    · exact .refl s
  · exact .refl s

theorem State.lastCmd_owners (s : State) (off agent code : Nat) : SameOwners (s.lastCmd path page off agent code r) s := by
  unfold State.lastCmd
  extract_lets key old w _ _ s1
  have h1 : SameOwners s1 s := SameOwners.trans (t := s.wr page 0x02C _) ⟨rfl, rfl, rfl⟩ (s.wr_owners page _ (by decide))
  split
  · exact (State.wr_owners _ _ _ (by decide)).trans ((State.wr_owners _ _ _ (by decide)).trans ((State.incSat_owners _ _ _ (by simp)).trans h1))
  · exact h1

theorem State.commanded_owners (h : off % 4096 ≠ 0x00C) : SameOwners (t.commanded path page off v agent r) t :=
  (State.lastCmd_owners ..).trans ((State.noteAt_owners _ _ _ _ h).trans ⟨rfl, rfl, rfl⟩)

theorem State.commanded_holds {B : List Host.Cell} {L : List Instr} (ht : t.holds B L) (off : Nat) :
    (t.commanded path page off v agent r).holds B L :=
  State.lastCmd_holds (State.noteAt_holds (State.unstage_holds ht _ _ _ _) _ _ _ _) _ _ _ _ _ _

theorem State.lastCmd_keepsRegs_of_ok (s : State) (off agent code : Nat) (det : Option Nat) :
    KeepsRegs s (s.lastCmd path page off agent code ⟨.ok, det⟩) [(page, 0x02C)] := by
  intro p o ho hnot
  unfold State.lastCmd
  extract_lets key old w _ _ s1
  rw [if_neg (by simp)]
  exact State.rd_wr_ne _ _ _ _ _ _ (by decide) ho (by simpa [Prod.ext_iff, imp_iff_not_or] using hnot)

theorem State.commanded_keepsRegs (hoff : off < 4096) (det : Option Nat) :
    KeepsRegs t (t.commanded path page off v agent ⟨.ok, det⟩) [(page, off), (page, 0x02C)] :=
  ((KeepsRegs.of_same rfl : KeepsRegs t (t.unstage path page off 1) _).trans ((State.noteAt_keepsRegs _ path page v hoff).mono (by simp))).trans
    ((State.lastCmd_keepsRegs_of_ok path page _ off agent _ det).mono (by simp))

end

/-- A write of a register of one word that passes, and whose meaning accepts it with a detail, leaves that meaning noted and reported. -/
theorem State.wrote_of_verdict {s t : State} {path : Path} {page off v i j : Nat} {k : Kind} {d : RegDesc} {det : Option Nat}
    (hreg : regAt page off = some (k, i, d, j, 0)) (hwords : d.words = 1) (hat : d.at_ j = off) (hpass : s.passes path page off v = true)
    (hw : s.writeReg (s.wctx path page i d j v) k d j { force := fun s a => s.forceRelease a } = (t, ⟨.ok, det⟩)) :
    s.wrote path page off v = t.commanded path page off v (s.agentOf path) ⟨.ok, det⟩ := by
  simp only [State.passes, hreg, hwords, Bool.and_eq_true, Bool.not_eq_true', decide_eq_true_eq, Option.isNone_iff_eq_none, if_true] at hpass
  obtain ⟨⟨⟨⟨hreach, hblock⟩, hbar⟩, hlow, haligned, hlast⟩, ⟨⟨⟨hrefuses, hinert⟩, hdenies⟩, hlocked⟩, hbusy⟩ := hpass
  have hoff : ¬(0x800 ≤ off ∨ off % 4 ≠ 0) := by omega
  have hthere : ¬((pageBlock page).isNone = true ∨ off = 0x02C) := by
    simpa [hlast, Option.isNone_iff_eq_none, Option.isSome_iff_ne_none] using hblock
  have hmeaning : s.writeReg ⟨path, s.agentOf path, s.adminOf path, page, i, d.at_ j, v⟩ k d j { force := fun s a => s.forceRelease a } =
      (t, ⟨.ok, det⟩) := hw
  have hword : s.writeWord path page off v k i d j 0 { force := fun s a => s.forceRelease a } = (t.unstage path page (d.at_ j) 1, ⟨.ok, det⟩) := by
    unfold State.writeWord
    simp only [hwords, if_true, hinert, hdenies, hlocked, hbusy, hmeaning, Nat.zero_add, beq_self_eq_true, Bool.not_true, Bool.false_eq_true, if_false]
  rw [hat] at hword
  simp only [State.wrote, State.hostWrite, State.hostWrite_, hreach, Bool.not_true, Bool.false_eq_true, if_false, hthere, State.judge_, hbar, hoff,
    hreg, hrefuses, hword, State.commanded]

/-! ### CLAIM_CMD -/

/-- CLAIM_CMD. -/
def claimCmdReg : RegDesc := ⟨OWN.CLAIM_CMD.off, 0, 1, 1, [⟨31, 16, .cmd, 0⟩, ⟨15, 8, .cmd, 0⟩, ⟨7, 0, .cmd, 0⟩]⟩

theorem regAt_claimCmd : regAt pOWN OWN.CLAIM_CMD.off = some (.own, 0, claimCmdReg, 0, 0) := rfl

/-- The fields of the word that gives a command of CLAIM_CMD. -/
theorem claimWord_fields {agent res code : Nat} (hagent : agent < 65536) (hres : res < 256) (hcode : code < 256) :
    bitsOf (packRec [(16, 16, agent), (8, 8, res), (0, 8, code)]) 31 16 = agent ∧
    bitsOf (packRec [(16, 16, agent), (8, 8, res), (0, 8, code)]) 15 8 = res ∧
    bitsOf (packRec [(16, 16, agent), (8, 8, res), (0, 8, code)]) 7 0 = code := by
  simp only [packRec, List.foldl, bitsOf]
  omega

/-- Without an agent the word is that of agent 0. -/
theorem claimWord_of_no_agent (res code : Nat) : packRec [(8, 8, res), (0, 8, code)] = packRec [(16, 16, 0), (8, 8, res), (0, 8, code)] := by
  simp [packRec]

section
variable {c : Instr} {s t : State} {path : Path} {agent res code : Nat} {det : Option Nat} {P : State → Prop}

/-- A command of CLAIM_CMD is accepted where its meaning accepts it. -/
theorem Accepts.of_claimCmd (v : Nat) (hexec : c.wf = true → exec c s = .next (s.wrote path pOWN OWN.CLAIM_CMD.off v))
    (hmeaning : c.wf = true → s.claimCmd (s.wctx path pOWN 0 claimCmdReg 0 v) (fun s a => s.forceRelease a) = (t, ⟨.ok, det⟩))
    (hP : P (t.commanded path pOWN OWN.CLAIM_CMD.off v (s.agentOf path) ⟨.ok, det⟩)) : Accepts c s path pOWN OWN.CLAIM_CMD.off v P := by
  intro hwf hpass hval
  obtain ⟨hres, hfmt, hrange⟩ := valueOk_body regAt_claimCmd (by decide) hval
  refine .of_exec (hexec hwf) ?_
  rw [State.wrote_of_verdict regAt_claimCmd rfl rfl hpass ((State.writeReg_of_body _ (by decide) hres hfmt hrange).trans (hmeaning hwf))]
  exact ⟨(State.lastCmd_shows ..).1, hP⟩

end

section
variable {s : State} {path : Path} {res : Nat}

theorem res_lt_of_claim_wf (hwf : (Instr.claim path res).wf = true) : res < 256 := by
  simp only [Instr.wf, Bool.and_eq_true, decide_eq_true_eq] at hwf
  exact hwf.2

theorem accepts_claim (hagent : s.agentOf path < 65536) (hres : res ≠ 8) (hnames : claimNames res (s.claimArg path).1 (s.claimArg path).2 = true)
    (hfree : s.resOwner res (s.claimArg path).1 = 0) :
    Accepts (.claim path res) s path pOWN OWN.CLAIM_CMD.off (packRec [(8, 8, res), (0, 8, 1)]) (fun t =>
      t.resOwner res (s.claimArg path).1 = s.agentOf path ∧ KeepsMemory s t) := by
  rw [claimWord_of_no_agent]
  refine Accepts.of_claimCmd (t := s.setOwner res (s.claimArg path).1 (s.agentOf path)) (det := none) _
    (fun h => guarded_of_wf s (fun s => s.wrote path pOWN OWN.CLAIM_CMD.off (packRec [(16, 16, 0), (8, 8, res), (0, 8, 1)])) h) (fun hwf => ?_)
    ⟨?_, .of_holds (State.commanded_holds _ _ _ _ _ _ (State.setOwner_holds s.holds_self _ _ _) _)⟩
  · obtain ⟨-, hbits, hcode⟩ := claimWord_fields (agent := 0) (code := 1) (by decide) (res_lt_of_claim_wf hwf) (by decide)
    simp only [State.claimCmd, State.wctx, hbits, hcode, State.cmdClaim, hnames, hres, hfree, Bool.not_true, Bool.false_eq_true, if_false, if_true,
      accept]
  · rw [State.resOwner_of_owners (State.commanded_owners _ _ _ _ _ _ (by decide)), State.resOwner_setOwner_self _ _ _ hagent]

theorem accepts_release (hres : res ≠ 8) (hnames : claimNames res (s.claimArg path).1 (s.claimArg path).2 = true)
    (howner : s.resOwner res (s.claimArg path).1 = s.agentOf path) :
    Accepts (.release path res) s path pOWN OWN.CLAIM_CMD.off (packRec [(8, 8, res), (0, 8, 2)]) (fun t =>
      t.resOwner res (s.claimArg path).1 = 0 ∧ KeepsMemory s t) := by
  rw [claimWord_of_no_agent]
  refine Accepts.of_claimCmd (t := s.releaseRes res (s.claimArg path).1) (det := none) _
    (fun h => guarded_of_wf s (fun s => s.wrote path pOWN OWN.CLAIM_CMD.off (packRec [(16, 16, 0), (8, 8, res), (0, 8, 2)])) h) (fun hwf => ?_)
    ⟨?_, .of_holds (State.commanded_holds _ _ _ _ _ _ (State.releaseRes_holds s.holds_self _ _) _)⟩
  · obtain ⟨-, hbits, hcode⟩ := claimWord_fields (agent := 0) (code := 2) (by decide) (res_lt_of_claim_wf (path := path) hwf) (by decide)
    simp only [State.claimCmd, State.wctx, hbits, hcode, State.cmdRelease, hnames, hres, howner, Bool.not_true, Bool.false_eq_true, if_false, if_true,
      accept]
  · rw [State.resOwner_of_owners (State.commanded_owners _ _ _ _ _ _ (by decide)), State.resOwner_releaseRes_self]

/-- The operands of a command of CLAIM_CMD that names an agent. -/
theorem claimOperands_lt {agent : Nat} (hwf : (Instr.query path res agent).wf = true) : res < 256 ∧ agent < 65536 := by
  simp only [Instr.wf, Bool.and_eq_true, decide_eq_true_eq] at hwf
  obtain ⟨⟨-, hres⟩, hagent⟩ := hwf
  exact ⟨hres, hagent⟩

theorem accepts_query (agent : Nat) (hres : res ≠ 8) (hthere : resExists res (s.claimArg path).1 = true)
    (hlt : s.resOwner res (s.claimArg path).1 < 65536) :
    Accepts (.query path res agent) s path pOWN OWN.CLAIM_CMD.off (packRec [(16, 16, agent), (8, 8, res), (0, 8, 3)]) (fun t =>
      t.detail pOWN = s.resOwner res (s.claimArg path).1 ∧ KeepsRegs s t [(pOWN, OWN.CLAIM_CMD.off), (pOWN, 0x02C)] ∧ KeepsMemory s t) := by
  refine Accepts.of_claimCmd (t := s) (det := some (s.resOwner res (s.claimArg path).1)) _
    (fun h => guarded_of_wf s (fun s => s.wrote path pOWN OWN.CLAIM_CMD.off (packRec [(16, 16, agent), (8, 8, res), (0, 8, 3)])) h) (fun hwf => ?_)
    ⟨?_, State.commanded_keepsRegs _ _ _ _ _ (by decide) _, .of_holds (State.commanded_holds _ _ _ _ _ _ s.holds_self _)⟩
  · obtain ⟨hreslt, hagent⟩ := claimOperands_lt hwf
    obtain ⟨-, hbits, hcode⟩ := claimWord_fields (code := 3) hagent hreslt (by decide)
    simp only [State.claimCmd, State.wctx, hbits, hcode, State.cmdQuery, hres, hthere, Bool.not_true, Bool.false_eq_true, if_false]
  · exact (State.lastCmd_shows ..).2.trans (Nat.mod_eq_of_lt hlt)

theorem accepts_forceRelease {agent : Nat} (hadmin : s.adminOf path = true) (hzero : agent ≠ 0) (hlast : agent < 0xFFFF) :
    Accepts (.forceRelease path res agent) s path pOWN OWN.CLAIM_CMD.off (packRec [(16, 16, agent), (8, 8, res), (0, 8, 4)]) (fun t =>
      (∀ r ∈ t.host.ranges, r.2.2 ≠ agent) ∧
      (∀ code i, code ≠ 8 → resExists code i = true → t.resOwner code i ≠ agent) ∧ KeepsMemory s t) := by
  obtain ⟨hranges, howners⟩ := s.forceRelease_leaves_nothing hzero
  have hmem : (s.forceRelease agent).holds s.bar2 s.pending := State.forceRelease_holds s.holds_self _
  generalize hu : s.forceRelease agent = u at hranges howners hmem
  have howns := u.commanded_owners path pOWN (packRec [(16, 16, agent), (8, 8, res), (0, 8, 4)]) (s.agentOf path)
    (off := OWN.CLAIM_CMD.off) ⟨.ok, none⟩ (by decide)
  refine Accepts.of_claimCmd (t := u) (det := none) _
    (fun h => guarded_of_wf s (fun s => s.wrote path pOWN OWN.CLAIM_CMD.off (packRec [(16, 16, agent), (8, 8, res), (0, 8, 4)])) h) (fun hwf => ?_)
    ⟨fun r hr => hranges r (howns.ranges ▸ hr), fun code i hcode hthere => ?_, .of_holds (State.commanded_holds _ _ _ _ _ _ hmem _)⟩
  · obtain ⟨hreslt, hagent⟩ := claimOperands_lt (path := path) hwf
    obtain ⟨hwho, -, hcode⟩ := claimWord_fields (code := 4) hagent hreslt (by decide)
    have hnamed : ¬(agent = 0 ∨ agent = 0xFFFF) := by omega
    simp only [State.claimCmd, State.wctx, hwho, hcode, hadmin, hnamed, hu, Bool.not_true, Bool.false_eq_true, false_and, if_false, accept]
  · rw [State.resOwner_of_owners howns]
    exact howners code i hcode hthere

/-! ### OWNER -/

theorem findReg_owner (k : Kind) :
    ∃ d, findReg (kindRegs k) 0x00C = some (d, 0, 0) ∧ d.base = 0x00C ∧ d.stride = 0 ∧ d.words = 1 ∧ d.isCmd = false := by
  cases k <;> exact ⟨_, rfl, rfl, rfl, rfl, rfl⟩

/-- The resource that a page is, is that page's. -/
theorem pageOfRes_resOfPage {p : Nat} (h : p < 256) : pageOfRes (resOfPage p).1 (resOfPage p).2 = some p := by
  revert p
  decide +kernel

theorem exec_ownerWrite {page v : Nat} (hwf : (Instr.ownerWrite path page v).wf = true) :
    exec (.ownerWrite path page v) s = .next (s.wrote path page 0x00C v) :=
  guarded_of_wf s (fun s => s.wrote path page 0x00C v) hwf

theorem accepts_ownerWrite {page : Nat} (hzero : s.agentOf path ≠ 0) (hlt : s.agentOf path < 0xFFFF) (hpage : page ≠ pOWN)
    (hfree : s.pageOwner page = 0) :
    Accepts (.ownerWrite path page (s.agentOf path * 65536)) s path page 0x00C (s.agentOf path * 65536) (fun t =>
      t.pageOwner page = s.agentOf path ∧ KeepsRegs s t [(page, 0x00C), (page, 0x02C)] ∧ KeepsMemory s t) := by
  intro hwf hpass hval
  have hword : bitsOf (s.agentOf path * 65536) 31 16 = s.agentOf path := by
    rw [bitsOf]
    omega
  have hlow : page < 256 := by
    simp only [Instr.wf, Bool.and_eq_true, decide_eq_true_eq] at hwf
    obtain ⟨⟨-, hlow⟩, -⟩ := hwf
    exact hlow
  obtain ⟨⟨k, i⟩, hblock⟩ : ∃ b, pageBlock page = some b := by
    simp only [State.passes, Bool.and_eq_true] at hpass
    obtain ⟨⟨⟨⟨-, hthere⟩, -⟩, -⟩, -⟩ := hpass
    exact Option.isSome_iff_exists.1 hthere
  obtain ⟨d, hfind, hbase, hstride, hwords, hcmd⟩ := findReg_owner k
  have hreg : regAt page 0x00C = some (k, i, d, 0, 0) := by simp [regAt, hblock, hfind]
  have hat : d.at_ 0 = 0x00C := by simp [RegDesc.at_, hbase]
  have howner : ∀ x, s.writeReg (s.wctx path page i d 0 (s.agentOf path * 65536)) k d 0 x =
      accept (s.wr page 0x00C (BitVec.ofNat 32 (s.agentOf path * 65536))) := by
    intro x
    have hset := State.setOwner_of_page s _ _ (s.agentOf path) (pageOfRes_resOfPage hlow)
    simp only [valueOk, hreg, Bool.and_eq_true, Bool.not_eq_true'] at hval
    obtain ⟨⟨⟨-, hres⟩, hfmt⟩, -⟩ := hval
    have hrange : ¬(page = pOWN ∨ s.agentOf path = 0xFFFF) := by omega
    simp only [State.writeReg, State.wctx, hres, hfmt, hbase, State.writeHeader, State.writeOwner, hword, hrange, hfree, hzero, hset]
    simp
  have howned : (s.wr page 0x00C (BitVec.ofNat 32 (s.agentOf path * 65536))).pageOwner page = s.agentOf path := s.pageOwner_wr_self page (by omega)
  have hkeep : KeepsRegs s (s.wr page 0x00C (BitVec.ofNat 32 (s.agentOf path * 65536))) [(page, 0x00C)] := fun p o ho hnot =>
    State.rd_wr_ne _ _ _ _ _ _ (by decide) ho (by simpa [Prod.ext_iff, imp_iff_not_or] using hnot)
  refine .of_exec (exec_ownerWrite hwf) ?_
  rw [State.wrote_of_accepted hreg hwords hcmd hpass howner]
  refine ⟨State.reported_result .., ?_, .of_reported _ _ hkeep, .of_holds (State.reported_holds _ _ _ _ _ _ (State.wr_holds s.holds_self _ _ _))⟩
  rw [State.pageOwner, State.rd_reported _ _ _ _ _ _ (by decide) (.inr (by decide)), ← State.pageOwner, howned]

end

/-- Settles O11: OWNER_ID of a free page sets its OWNER word, CLAIM, RELEASE and QUERY set, free and report one owner, and FORCE_RELEASE resets
without changing an owner before it releases every holding of the agent. -/
theorem ownershipCommands : Obligations.OwnershipCommands := by
  intro s path res hzero hlt
  exact ⟨fun _ hpage hfree => accepts_ownerWrite hzero hlt hpage hfree,
    fun hres hnames hfree => accepts_claim (Nat.lt_trans hlt (by decide)) hres hnames hfree, fun hres hnames howner => accepts_release hres hnames howner,
    fun agent hres hthere howner => accepts_query agent hres hthere howner, fun _ hadmin hzero hlast => accepts_forceRelease hadmin hzero hlast⟩

end Sys2Proof.Machine
end

section
/-! SUPPORT. Registers of one page of which all words but a few stand, fields of several words, the records of quads and channels through
interrupt causes and faults, and values without reserved bits. -/

namespace Sys2Proof.Machine

/-! ### Words that stand -/

/-- Every register word stands but those of page `p` at the offsets listed. -/
def KeepsBut (p : Nat) (l : List Nat) (s t : State) : Prop := KeepsRegs s t (l.map fun o => (p, o))

namespace KeepsBut
variable {p : Nat} {l m : List Nat} {s t u : State}

theorem of_regs (h : t.regs = s.regs) : KeepsBut p l s t := KeepsRegs.of_same h

theorem refl : KeepsBut p l s s := KeepsRegs.refl

theorem mono (h : KeepsBut p l s t) (hsub : l ⊆ m) : KeepsBut p m s t :=
  KeepsRegs.mono h fun _ he => List.map_subset _ hsub he

theorem trans (h : KeepsBut p l s t) (h' : KeepsBut p m t u) : KeepsBut p (l ++ m) s u :=
  KeepsRegs.trans (h.mono (List.subset_append_left l m)) (h'.mono (List.subset_append_right l m))

/-- A step after which the registers are as they were adds nothing to the list. -/
theorem then_regs (h : KeepsBut p l s t) (hregs : u.regs = t.regs) : KeepsBut p l s u := KeepsRegs.of_regs h hregs

theorem put {f : Fld} (v : Nat) (hf : OneWord f) : KeepsBut p [f.off] s (s.put p f v) := KeepsRegs.put p v hf

theorem setQuad (q : Nat) (x : QuadSt) : KeepsBut p [] s (s.setQuad q x) := of_regs rfl

theorem setChan (c : Nat) (x : ChanSt) : KeepsBut p [] s (s.setChan c x) := of_regs rfl

theorem irq (bit : Nat) : KeepsBut p [0x018] s (s.irq p bit) := fun q o ho hnot =>
  (State.rd_of_regs (s.irq_regs p bit) q o).trans
    (State.rd_wr_ne _ _ _ _ _ _ (by decide) ho (by simpa [Prod.ext_iff, imp_iff_not_or] using hnot))

theorem err (bit : Nat) : KeepsBut p [0x024] s (s.err p bit) := KeepsRegs.err p bit

theorem ite {c : Prop} {_ : Decidable c} (ht : KeepsBut p l s t) (hu : KeepsBut p l s u) : KeepsBut p l s (if c then t else u) := by
  split
  · exact ht
  · exact hu

theorem onlyIf (c : Bool) {f : State → State} (h : KeepsBut p l s (f s)) : KeepsBut p l s (s.onlyIf c f) := ite h refl

theorem rd_eq (h : KeepsBut p l s t) {o : Nat} (ho : o < 4096) (hnot : o ∉ l) : t.rd p o = s.rd p o := h p o ho (by simpa using hnot)

theorem get_eq (h : KeepsBut p l s t) {f : Fld} (hf : OneWord f) (hnot : f.off ∉ l) : t.get p f = s.get p f :=
  KeepsRegs.get_eq h hf (by simpa using hnot)

theorem flag_eq (h : KeepsBut p l s t) {f : Fld} (hf : OneWord f) (hnot : f.off ∉ l) : t.flag p f = s.flag p f := by
  rw [State.flag, h.get_eq hf hnot, State.flag]

theorem irqSet_eq (h : KeepsBut p l s t) (bit : Nat) (hnot : 0x018 ∉ l) : t.irqSet p bit = s.irqSet p bit := by
  rw [State.irqSet, h.rd_eq (by decide) hnot, State.irqSet]

theorem keepsPages (h : KeepsBut p l s t) : KeepsPages s t [p] := KeepsRegs.keepsPages h fun e he => by
  obtain ⟨o, -, rfl⟩ := List.mem_map.1 he
  rfl

end KeepsBut

theorem KeepsPages.trans {s t u : State} {l : List Nat} (h : KeepsPages s t l) (h' : KeepsPages t u l) : KeepsPages s u l :=
  fun p o ho hnot => (h' p o ho hnot).trans (h p o ho hnot)

theorem KeepsPages.mono {s t : State} {l m : List Nat} (h : KeepsPages s t l) (hsub : l ⊆ m) : KeepsPages s t m :=
  fun p o ho hnot => h p o ho fun hmem => hnot (hsub hmem)

/-! ### Fields of several words -/

/-- The offsets of the words in which a field lies. -/
def fieldOffsets (f : Fld) : List Nat := (List.range (f.hi / 32 + 1)).map fun k => f.off + 4 * k

theorem State.rdN_of_words {s t : State} {p o n : Nat} (h : ∀ k < n, t.rd p (o + 4 * k) = s.rd p (o + 4 * k)) : t.rdN p o n = s.rdN p o n := by
  induction n generalizing o with
  | zero => rfl
  | succ n ih =>
    have hfirst : t.rd p o = s.rd p o := h 0 (Nat.succ_pos n)
    have hrest : t.rdN p (o + 4) n = s.rdN p (o + 4) n := ih fun k hk => by
      rw [show o + 4 + 4 * k = o + 4 * (k + 1) by ring]
      exact h (k + 1) (Nat.succ_lt_succ hk)
    simp only [State.rdN, hfirst, hrest]

theorem State.rdN_wrN_self (s : State) (p o n v : Nat) : (s.wrN p o n v).rdN p o n = v % 2 ^ (32 * n) := by
  induction n generalizing s o v with
  | zero => simp [State.rdN, Nat.mod_one]
  | succ n ih =>
    have hfirst : ((s.wr p o (BitVec.ofNat 32 v)).wrN p (o + 4) n (v / 2 ^ 32)).rd p o = BitVec.ofNat 32 v := by
      rw [State.rd_wrN_of_lt _ _ _ _ _ _ _ fun k _ => by unfold regKey; omega, State.rd_wr_self]
    rw [State.wrN, State.rdN, ih, hfirst, BitVec.toNat_ofNat, show 32 * (n + 1) = 32 + 32 * n by ring, Nat.pow_add, Nat.mod_mul]

/-- A field of several words reads what was put into it, modulo its width. -/
theorem State.get_put_wide (s : State) (p : Nat) {f : Fld} (v : Nat) (h : f.lo ≤ f.hi) (hwide : 32 ≤ f.hi) :
    (s.put p f v).get p f = v % 2 ^ (f.hi + 1 - f.lo) := by
  simp only [State.get, State.put, Nat.not_lt.2 hwide, if_false, State.rdN_wrN_self]
  rw [bitsOf_mod _ _ _ _ (by omega), bitsOf_putBits_self _ _ _ _ h]

namespace KeepsBut
variable {p : Nat} {l : List Nat} {s t : State}

theorem putWide {f : Fld} (v : Nat) (hwide : 32 ≤ f.hi) (hf : f.off + 4 * (f.hi / 32) < 4096) : KeepsBut p (fieldOffsets f) s (s.put p f v) := by
  intro q o ho hnot
  simp only [State.put, Nat.not_lt.2 hwide, if_false]
  refine State.rd_wrN_of_lt _ _ _ _ _ _ _ fun k hk hkey => hnot ?_
  obtain ⟨rfl, rfl⟩ := (regKey_inj ho (by omega)).1 hkey
  exact List.mem_map_of_mem (List.mem_map.2 ⟨k, List.mem_range.2 hk, rfl⟩)

/-- A field of several words none of which is among those changed reads the same. -/
theorem get_wide_eq (h : KeepsBut p l s t) {f : Fld} (hwide : 32 ≤ f.hi) (hf : f.off + 4 * (f.hi / 32) < 4096) (hnot : ∀ o ∈ fieldOffsets f, o ∉ l) :
    t.get p f = s.get p f := by
  have hwords : t.rdN p f.off (f.hi / 32 + 1) = s.rdN p f.off (f.hi / 32 + 1) :=
    State.rdN_of_words fun k hk => h.rd_eq (by omega) (hnot _ (List.mem_map.2 ⟨k, List.mem_range.2 hk, rfl⟩))
  simp only [State.get, Nat.not_lt.2 hwide, if_false, hwords]

end KeepsBut

/-! ### Flags and causes -/

/-- A field stands when another field of its word, apart from it, is put. -/
theorem State.get_put_sameWord (s : State) (p : Nat) {f g : Fld} (v : Nat)
    (h : f.lo ≤ f.hi ∧ f.hi < 32 ∧ g.hi < 32 ∧ g.off = f.off ∧ (g.hi < f.lo ∨ f.hi < g.lo)) : (s.put p f v).get p g = s.get p g := by
  obtain ⟨hf, hf32, hg32, hoff, hapart⟩ := h
  exact State.get_put_apart _ _ _ _ _ hf hf32 hg32 hoff hapart

theorem State.flag_putFlag_self (s : State) (p : Nat) {f : Fld} (b : Bool) (hf : OneWord f) : (s.putFlag p f b).flag p f = b := by
  obtain ⟨hle, hhi, -⟩ := hf
  have hwidth : 2 ≤ 2 ^ (f.hi + 1 - f.lo) := Nat.le_self_pow (by omega) 2
  rw [State.flag, State.putFlag_eq, State.get_put_self _ _ _ _ hle hhi, Nat.mod_eq_of_lt (lt_of_lt_of_le (by cases b <;> decide) hwidth)]
  cases b <;> rfl

/-- A cause that is set stands when another one is raised. -/
theorem State.irqSet_irq {s : State} {p bit : Nat} (other : Nat) (hbit : bit < 32) (h : s.irqSet p bit = true) :
    (s.irq p other).irqSet p bit = true := by
  rw [State.irqSet, bitOf_eq_testBit] at h ⊢
  rw [State.rd_of_regs (s.irq_regs p other), State.rd_wr_self, BitVec.toNat_ofNat, Nat.testBit_mod_two_pow, testBit_setBit, h]
  simp [hbit]

/-! ### Records through causes and faults -/

@[simp] theorem State.sendMsix_quads (s : State) (v : Nat) : (s.sendMsix v).quads = s.quads := by
  unfold State.sendMsix
  split <;> rfl

@[simp] theorem State.sendMsix_chans (s : State) (v : Nat) : (s.sendMsix v).chans = s.chans := by
  unfold State.sendMsix
  split <;> rfl

@[simp] theorem State.irq_quads (s : State) (p bit : Nat) : (s.irq p bit).quads = s.quads := by
  unfold State.irq
  dsimp only
  split
  · exact State.sendMsix_quads _ _
  · rfl

@[simp] theorem State.irq_chans (s : State) (p bit : Nat) : (s.irq p bit).chans = s.chans := by
  unfold State.irq
  dsimp only
  split
  · exact State.sendMsix_chans _ _
  · rfl

@[simp] theorem State.err_quads (s : State) (p bit : Nat) : (s.err p bit).quads = s.quads := by
  unfold State.err
  extract_lets v s1 s2
  have h2 : s2.quads = s.quads := by
    simp only [s2]
    split <;> rfl
  split
  · exact (State.sendMsix_quads _ _).trans h2
  · exact h2

theorem State.quad_of_quads {s t : State} (h : t.quads = s.quads) (q : Nat) : t.quad q = s.quad q := by rw [State.quad, h, State.quad]

theorem State.chan_of_chans {s t : State} (h : t.chans = s.chans) (c : Nat) : t.chan c = s.chan c := by rw [State.chan, h, State.chan]

/-- A part of a quad's record that an update leaves stands, whether the quad has a record or not. -/
theorem State.quad_setQuad_part {α : Type} (s : State) (q : Nat) (g : QuadSt → α) {x : QuadSt} (h : g x = g (s.quad q)) :
    g ((s.setQuad q x).quad q) = g (s.quad q) := by
  by_cases hq : q < s.quads.length
  · rw [State.quad_setQuad _ _ _ hq, h]
  · have hsame : (s.setQuad q x).quads = s.quads := List.set_eq_of_length_le (Nat.le_of_not_lt hq)
    rw [State.quad_of_quads hsame]

/-- A quad whose record is not the first one has its place in the list. -/
theorem State.quad_lt {s : State} {q : Nat} (h : s.quad q ≠ {}) : q < s.quads.length := by
  by_contra hlen
  exact h (List.getD_eq_default _ _ (Nat.le_of_not_lt hlen))

theorem State.chan_lt {s : State} {c : Nat} (h : s.chan c ≠ {}) : c < s.chans.length := by
  by_contra hlen
  exact h (List.getD_eq_default _ _ (Nat.le_of_not_lt hlen))

/-! ### A register all of whose fields take what is written -/

/-- What fields are written over: where each field takes the bits of `w`, the result has those bits in the fields and the bits that were there
outside them. -/
theorem testBit_foldl_putBits {l : List FieldDesc} (x : FieldDesc → Nat) (w i : Nat) (hbits : ∀ f ∈ l, f.lo ≤ f.hi)
    (hx : ∀ f ∈ l, f.lo ≤ i → i ≤ f.hi → (x f).testBit (i - f.lo) = w.testBit i) (n : Nat) :
    (l.foldl (fun n f => putBits n f.hi f.lo (x f)) n).testBit i = if ∃ f ∈ l, f.lo ≤ i ∧ i ≤ f.hi then w.testBit i else n.testBit i := by
  induction l generalizing n with
  | nil => simp
  | cons f l ih =>
    rw [List.foldl_cons, ih (fun g hg => hbits g (List.mem_cons_of_mem _ hg)) fun g hg => hx g (List.mem_cons_of_mem _ hg),
      testBit_putBits _ _ _ _ _ (hbits f List.mem_cons_self)]
    simp only [List.exists_mem_cons_iff]
    by_cases hl : ∃ g ∈ l, g.lo ≤ i ∧ i ≤ g.hi
    · simp only [hl, or_true, if_true]
    · by_cases hf : f.lo ≤ i ∧ i ≤ f.hi
      · simp only [hl, hf, or_false, and_self, if_true, if_false, Nat.not_lt.2 hf.1, hx f List.mem_cons_self hf.1 hf.2]
      · simp only [hl, hf, or_false, if_false]
        split
        · rfl
        · rw [if_neg (by omega)]

/-- A value without reserved bits, written to a register all of whose fields take it, is what the register then holds. -/
theorem RegDesc.merge_of_taken (d : RegDesc) (old v : Nat) (hbits : ∀ f ∈ d.fields, f.lo ≤ f.hi)
    (htaken : ∀ f ∈ d.fields, f.taken old v = bitsOf v f.hi f.lo) (hres : d.reserved v = false) : d.merge old v = v := by
  have hclear : d.fields.foldl (fun n f => putBits n f.hi f.lo 0) v = 0 := by simpa [RegDesc.reserved] using hres
  refine Nat.eq_of_testBit_eq fun i => ?_
  have houtside := testBit_foldl_putBits (fun _ => 0) 0 i hbits (fun _ _ _ _ => by simp) v
  rw [hclear] at houtside
  rw [RegDesc.merge_eq, testBit_foldl_putBits _ v i hbits]
  · split
    · rfl
    · next hnot =>
      rw [if_neg hnot] at houtside
      simpa using houtside
  · intro f hf hlo hhi
    rw [htaken f hf, testBit_bitsOf, Nat.add_sub_cancel' hlo]
    simp [show i - f.lo < f.hi + 1 - f.lo by omega]

theorem State.rd_putFields (s : State) {d : RegDesc} (c : WCtx) (hwords : d.words = 1) (hbits : ∀ f ∈ d.fields, f.lo ≤ f.hi)
    (htaken : ∀ f ∈ d.fields, f.taken (s.present c d) c.v = bitsOf c.v f.hi f.lo) (hres : d.reserved c.v = false) :
    (s.put_ c d).rd c.page c.off = BitVec.ofNat 32 c.v := by
  rw [State.putFields_eq_wr s c hwords, State.rd_wr_self, d.merge_of_taken _ _ hbits htaken hres]

end Sys2Proof.Machine
end

section
/-! SUPPORT. The operations on a quad (R71 to R79): what each leaves of the registers of its page and of its record. -/

namespace Sys2Proof.Machine

/-! ### Engine states and the map -/

section
variable {s t : State} {q : Nat} {l : List Nat}

theorem State.setEngState_keepsBut (s : State) (q e v : Nat) : KeepsBut (pQUAD q) [QUAD.ENGINE_STATE.off] s (s.setEngState q e v) :=
  KeepsBut.put (f := QUAD.ENGINE_STATE.STATE) _ (by decide)

@[simp] theorem State.setEngState_quads (s : State) (q e v : Nat) : (s.setEngState q e v).quads = s.quads := State.put_quads _ _ _ _

theorem State.mapLane_keepsBut (s : State) (q l e : Nat) : KeepsBut (pQUAD q) [QUAD.ENGINE_MAP.off] s (s.mapLane q l e) :=
  KeepsBut.put (f := QUAD.ENGINE_MAP.LANE_ENGINE) _ (by decide)

@[simp] theorem State.mapLane_quads (s : State) (q l e : Nat) : (s.mapLane q l e).quads = s.quads := State.put_quads _ _ _ _

theorem State.engState_of_keeps (h : KeepsBut (pQUAD q) l s t) (hnot : QUAD.ENGINE_STATE.off ∉ l) (e : Nat) : t.engState q e = s.engState q e := by
  rw [State.engState, h.get_eq (by decide) hnot, State.engState]

theorem State.spare_of_keeps (h : KeepsBut (pQUAD q) l s t) (hnot : QUAD.ENGINE_MAP.off ∉ l) : t.spare q = s.spare q := h.get_eq (by decide) hnot

theorem State.laneEngine_of_keeps (h : KeepsBut (pQUAD q) l s t) (hnot : QUAD.ENGINE_MAP.off ∉ l) (n : Nat) :
    t.laneEngine q n = s.laneEngine q n := by
  rw [State.laneEngine, h.get_eq (by decide) hnot, State.laneEngine]

theorem State.degraded_of_keeps (h : KeepsBut (pQUAD q) l s t) (hnot : QUAD.STATUS.off ∉ l) (n : Nat) : t.degraded q n = s.degraded q n := by
  rw [State.degraded, h.get_eq (by decide) hnot, State.degraded]

end

section
variable (s : State) (q : Nat)

theorem State.engState_setEngState_self {e v : Nat} (he : e < 5) (hv : v < 16) : (s.setEngState q e v).engState q e = v := by
  rw [State.engState, State.setEngState, State.get_put_self _ _ _ _ (by decide) (by decide), bitsOf_mod _ _ _ _ (by show 4 * e + 3 < 20; omega),
    bitsOf_putBits_self _ _ _ _ (by omega), show 4 * e + 3 + 1 - 4 * e = 4 by omega]
  exact Nat.mod_eq_of_lt hv

theorem State.engState_setEngState_ne {e e' : Nat} (v : Nat) (he : e' < 5) (hne : e' ≠ e) :
    (s.setEngState q e v).engState q e' = s.engState q e' := by
  rw [State.engState, State.setEngState, State.get_put_self _ _ _ _ (by decide) (by decide), bitsOf_mod _ _ _ _ (by show 4 * e' + 3 < 20; omega),
    bitsOf_putBits_ne _ _ _ _ _ _ (by omega) (by omega), State.engState]

theorem State.laneEngine_mapLane {l e : Nat} (hl : l < 4) (he : e < 8) : (s.mapLane q l e).laneEngine q l = e := by
  have hlow : ∀ n, bitsOf n (4 * l + 2) (4 * l) = bitsOf n (4 * l + 3) (4 * l) % 2 ^ 3 := fun n => by
    rw [bitsOf, bitsOf, show 4 * l + 2 + 1 - 4 * l = 3 by omega, show 4 * l + 3 + 1 - 4 * l = 4 by omega, Nat.mod_mod_of_dvd _ (by decide)]
  rw [State.laneEngine, State.mapLane, State.get_put_self _ _ _ _ (by decide) (by decide), hlow, bitsOf_mod _ _ _ _ (by show 4 * l + 3 < 16; omega),
    bitsOf_putBits_self _ _ _ _ (by omega), show 4 * l + 3 + 1 - 4 * l = 4 by omega]
  omega

theorem State.spare_put {e : Nat} (he : e < 8) : (s.put (pQUAD q) QUAD.ENGINE_MAP.SPARE e).spare q = e := by
  rw [State.spare, State.get_put_self _ _ _ _ (by decide) (by decide)]
  exact Nat.mod_eq_of_lt he

theorem State.laneEngine_put_spare (e n : Nat) : (s.put (pQUAD q) QUAD.ENGINE_MAP.SPARE e).laneEngine q n = s.laneEngine q n := by
  rw [State.laneEngine, State.get_put_sameWord _ _ _ (by decide), State.laneEngine]

/-! ### The outcome of a swap -/

theorem State.recordSwap_keepsBut (outcome reason new old lane : Nat) :
    KeepsBut (pQUAD q) [QUAD.LAST_SWAP.off] s (s.recordSwap q outcome reason new old lane) :=
  (((((KeepsBut.put (f := QUAD.LAST_SWAP.OUTCOME) _ (by decide)).trans (KeepsBut.put (f := QUAD.LAST_SWAP.REASON) _ (by decide))).trans
    (KeepsBut.put (f := QUAD.LAST_SWAP.NEW_ENGINE) _ (by decide))).trans (KeepsBut.put (f := QUAD.LAST_SWAP.OLD_ENGINE) _ (by decide))).trans
    (KeepsBut.put (f := QUAD.LAST_SWAP.LANE) _ (by decide))).mono (by decide)

@[simp] theorem State.recordSwap_quads (outcome reason new old lane : Nat) : (s.recordSwap q outcome reason new old lane).quads = s.quads := by
  simp [State.recordSwap]

/-- LAST_SWAP shows what was recorded, each field modulo its width. -/
theorem State.recordSwap_shows (outcome reason new old lane : Nat) :
    (s.recordSwap q outcome reason new old lane).get (pQUAD q) QUAD.LAST_SWAP.OUTCOME = outcome % 4 ∧
    (s.recordSwap q outcome reason new old lane).get (pQUAD q) QUAD.LAST_SWAP.NEW_ENGINE = new % 8 ∧
    (s.recordSwap q outcome reason new old lane).get (pQUAD q) QUAD.LAST_SWAP.OLD_ENGINE = old % 8 ∧
    (s.recordSwap q outcome reason new old lane).get (pQUAD q) QUAD.LAST_SWAP.LANE = lane % 4 := by
  unfold State.recordSwap
  refine ⟨?_, ?_, ?_, ?_⟩
  · rw [State.get_put_sameWord _ _ _ (by decide), State.get_put_sameWord _ _ _ (by decide), State.get_put_sameWord _ _ _ (by decide),
      State.get_put_sameWord _ _ _ (by decide), State.get_put_self _ _ _ _ (by decide) (by decide)]
    rfl
  · rw [State.get_put_sameWord _ _ _ (by decide), State.get_put_sameWord _ _ _ (by decide), State.get_put_self _ _ _ _ (by decide) (by decide)]
    rfl
  · rw [State.get_put_sameWord _ _ _ (by decide), State.get_put_self _ _ _ _ (by decide) (by decide)]
    rfl
  · rw [State.get_put_self _ _ _ _ (by decide) (by decide)]
    rfl

/-! ### STATUS -/

theorem State.refreshDeferred_keepsBut : KeepsBut (pQUAD q) [QUAD.STATUS.off] s (s.refreshDeferred q) :=
  KeepsBut.put (f := QUAD.STATUS.SWAP_DEFERRED) _ (by decide)

@[simp] theorem State.refreshDeferred_quads : (s.refreshDeferred q).quads = s.quads := State.put_quads _ _ _ _

theorem State.setDegraded_keepsBut (l : Nat) (b : Bool) :
    KeepsBut (pQUAD q) [QUAD.STATUS.off, QUAD.IRQ_STATUS.off, QUAD.ERR_STATUS.off] s (s.setDegraded q l b) :=
  KeepsBut.ite .refl (((KeepsBut.put (f := QUAD.STATUS.LANE_DEGRADED) _ (by decide)).trans (.irq 3)).trans (.onlyIf b (.err 1)))

@[simp] theorem State.setDegraded_quads (l : Nat) (b : Bool) : (s.setDegraded q l b).quads = s.quads := by
  unfold State.setDegraded State.onlyIf
  split
  · rfl
  · cases b <;> simp

/-- A lane that is no longer degraded: LANE_DEGRADED shows it, SWAP_IN_PROGRESS and the causes that were raised stand. -/
theorem State.setDegraded_false_shows {l : Nat} (hl : l < 4) : (s.setDegraded q l false).degraded q l = false ∧
    (s.setDegraded q l false).flag (pQUAD q) QUAD.STATUS.SWAP_IN_PROGRESS = s.flag (pQUAD q) QUAD.STATUS.SWAP_IN_PROGRESS ∧
    (s.irqSet (pQUAD q) 0 = true → (s.setDegraded q l false).irqSet (pQUAD q) 0 = true) := by
  unfold State.setDegraded
  split
  · next h => exact ⟨h, rfl, id⟩
  · have hirq := fun u : State => KeepsBut.irq (p := pQUAD q) (s := u) 3
    simp only [State.onlyIf, Bool.false_eq_true, if_false]
    refine ⟨?_, ?_, fun h => ?_⟩
    · rw [State.degraded_of_keeps (hirq _) (by decide), State.degraded, State.get_put_self _ _ _ _ (by decide) (by decide)]
      refine (bitOf_mod _ hl).trans ?_
      rw [bitOf_eq_testBit, testBit_putBits _ _ _ _ _ (Nat.le_refl l)]
      simp [b2n]
    · rw [State.flag, (hirq _).get_eq (by decide) (by decide), State.get_put_sameWord _ _ _ (by decide),
        State.flag]
    · refine State.irqSet_irq 3 (by decide) ?_
      rw [(KeepsBut.put (f := QUAD.STATUS.LANE_DEGRADED) _ (by decide)).irqSet_eq 0 (by decide)]
      exact h

/-! ### The bounds and the spare -/

theorem State.refreshBounds_keepsBut : KeepsBut (pQUAD q) [0xE0, 0xE4, 0xE8, 0xEC] s (s.refreshBounds q) := by
  simp only [State.refreshBounds, State.forEach, List.range, List.range.loop, List.foldl]
  exact ((((KeepsBut.put (f := QUAD.LANE_BOUND.BOUND_PS 0) _ (by decide)).trans (KeepsBut.put (f := QUAD.LANE_BOUND.BOUND_PS 1) _ (by decide))).trans
    (KeepsBut.put (f := QUAD.LANE_BOUND.BOUND_PS 2) _ (by decide))).trans (KeepsBut.put (f := QUAD.LANE_BOUND.BOUND_PS 3) _ (by decide)))

@[simp] theorem State.refreshBounds_quads : (s.refreshBounds q).quads = s.quads :=
  State.forEach_same (·.quads) _ _ (fun _ _ _ => State.put_quads _ _ _ _) s

/-- What is renewed for the spare: its own state, SWEEP_INFO and the slot at which it became ready, and last SPARE_READY. -/
theorem State.refreshSpare_cases : ∃ (u : State) (b : Bool), s.refreshSpare q = u.putFlag (pQUAD q) QUAD.STATUS.SPARE_READY b ∧
    KeepsBut (pQUAD q) [QUAD.ENGINE_STATE.off, QUAD.SWEEP_INFO.off] s u ∧
    (u.quads = s.quads ∨ u.quads = (s.setQuad q { s.quad q with readyAt := s.clk.slot }).quads) ∧
    (∀ e, e < 5 → e ≠ s.spare q → u.engState q e = s.engState q e) := by
  unfold State.refreshSpare
  extract_lets e st fresh ready s0 s1 s2
  split
  · exact ⟨s, false, rfl, .refl, .inl rfl, fun _ _ _ => rfl⟩
  · have hregs0 : s0.regs = s.regs := by
      simp only [s0, State.onlyIf]
      split <;> rfl
    have hquads0 : s0.quads = s.quads ∨ s0.quads = (s.setQuad q { s.quad q with readyAt := s.clk.slot }).quads := by
      simp only [s0, State.onlyIf]
      split
      · exact .inr rfl
      · exact .inl rfl
    have h0 : KeepsBut (pQUAD q) [] s s0 := .of_regs hregs0
    have h1 : KeepsBut (pQUAD q) [QUAD.ENGINE_STATE.off] s s1 :=
      KeepsBut.ite (h0.trans (s0.setEngState_keepsBut q e _)) .refl
    have hquads1 : s1.quads = s.quads ∨ s1.quads = (s.setQuad q { s.quad q with readyAt := s.clk.slot }).quads := by
      simp only [s1]
      split
      · simpa using hquads0
      · exact .inl rfl
    have hstate1 : ∀ i, i < 5 → i ≠ s.spare q → s1.engState q i = s.engState q i := fun i hi hne => by
      simp only [s1]
      split
      · rw [State.engState_setEngState_ne _ _ _ hi hne, State.engState_of_keeps h0 (by decide)]
      · rfl
    have h2 : KeepsBut (pQUAD q) [QUAD.SWEEP_INFO.off] s1 s2 := by
      simp only [s2]
      split
      · exact ((KeepsBut.put (f := QUAD.SWEEP_INFO.SWEEP_AGE_S) _ (by decide)).trans
          (KeepsBut.put (f := QUAD.SWEEP_INFO.SWEEP_TEMP) _ (by decide))).mono (by decide)
      · exact .refl
    have hquads2 : s2.quads = s1.quads := by
      simp only [s2]
      split
      · simp [State.putI_eq]
      · rfl
    exact ⟨s2, _, rfl, h1.trans h2, hquads2 ▸ hquads1, fun i hi hne => (State.engState_of_keeps h2 (by decide) i).trans (hstate1 i hi hne)⟩

theorem State.refreshSpare_keepsBut :
    KeepsBut (pQUAD q) [QUAD.ENGINE_STATE.off, QUAD.SWEEP_INFO.off, QUAD.STATUS.off] s (s.refreshSpare q) := by
  obtain ⟨u, b, heq, hu, -, -⟩ := s.refreshSpare_cases q
  rw [heq]
  exact hu.trans (KeepsBut.put (f := QUAD.STATUS.SPARE_READY) _ (by decide))

/-- A field of STATUS but SPARE_READY stands. -/
theorem State.refreshSpare_status {g : Fld} (hg : OneWord g) (hoff : g.off = QUAD.STATUS.off) (hapart : 1 < g.lo) :
    (s.refreshSpare q).get (pQUAD q) g = s.get (pQUAD q) g := by
  obtain ⟨u, b, heq, hu, -, -⟩ := s.refreshSpare_cases q
  rw [heq, State.putFlag_eq, State.get_put_sameWord _ _ _ ⟨by decide, by decide, hg.2.1, hoff, .inr hapart⟩, hu.get_eq hg (by rw [hoff]; decide)]

theorem State.refreshSpare_engState {e : Nat} (he : e < 5) (hne : e ≠ s.spare q) : (s.refreshSpare q).engState q e = s.engState q e := by
  obtain ⟨u, b, heq, -, -, hstate⟩ := s.refreshSpare_cases q
  rw [heq, State.putFlag_eq, State.engState_of_keeps (KeepsBut.put (f := QUAD.STATUS.SPARE_READY) _ (by decide)) (by decide), hstate e he hne]

/-- Of the record of the quad only the slot at which the spare became ready may change. -/
theorem State.refreshSpare_quad {α : Type} (g : QuadSt → α) (h : ∀ (x : QuadSt) n, g { x with readyAt := n } = g x) :
    g ((s.refreshSpare q).quad q) = g (s.quad q) := by
  obtain ⟨u, b, heq, -, hquads, -⟩ := s.refreshSpare_cases q
  rw [heq, State.putFlag_eq, State.quad_of_quads (State.put_quads _ _ _ _)]
  rcases hquads with hu | hu
  · rw [State.quad_of_quads hu]
  · rw [State.quad_of_quads hu]
    exact State.quad_setQuad_part _ _ _ (h _ _)

theorem State.needSweep_keepsBut (e : Nat) :
    KeepsBut (pQUAD q) [QUAD.ENGINE_STATE.off, QUAD.SWEEP_INFO.off, QUAD.STATUS.off] s (s.needSweep q e) :=
  (KeepsBut.setQuad q _).trans (State.refreshSpare_keepsBut _ q)

theorem State.needSweep_swap (e : Nat) : ((s.needSweep q e).quad q).swap = (s.quad q).swap :=
  (State.refreshSpare_quad _ q (·.swap) fun _ _ => rfl).trans (State.quad_setQuad_part s q (·.swap) rfl)

theorem State.needSweep_swapInProgress (e : Nat) :
    (s.needSweep q e).flag (pQUAD q) QUAD.STATUS.SWAP_IN_PROGRESS = s.flag (pQUAD q) QUAD.STATUS.SWAP_IN_PROGRESS := by
  rw [State.flag, State.needSweep, State.refreshSpare_status _ _ (by decide) rfl (by decide)]
  rfl

theorem State.needSweep_engState {e' : Nat} (e : Nat) (he : e' < 5) (hne : e' ≠ s.spare q) : (s.needSweep q e).engState q e' = s.engState q e' :=
  State.refreshSpare_engState _ q he hne

end

end Sys2Proof.Machine
end

section
/-! PROOFS. Swaps (O19): arming, verification and the switch. -/

namespace Sys2Proof.Machine

/-- What a command's effect leaves is said of the command. -/
theorem Runs.of_effect {c : Instr} {s : State} {P : State → Prop} (k : State → State) (hexec : exec c s = guarded c s k) (h : P (k s)) : Runs c s P :=
  fun hwf => .of_exec (hexec.trans (guarded_of_wf s k hwf)) h

section
variable {s : State} {q : Nat}

/-! ### Arming -/

theorem State.lt_of_swap {w : SwapSt} (h : (s.quad q).swap = some w) : q < s.quads.length := State.quad_lt fun hnone => by simp [hnone] at h

/-- A swap is due at its boundary when one waits, none is in progress and there is a spare. -/
theorem State.armDue_some {lane reason : Nat} (h : s.armDue q = some (lane, reason)) : q < s.quads.length ∧ s.spare q < 5 := by
  unfold State.armDue at h
  split at h
  · next harm =>
    simp only [Option.ite_none_right_eq_some] at h
    obtain ⟨⟨-, -, -, hspare⟩, -⟩ := h
    exact ⟨State.quad_lt fun hnone => by simp [hnone] at harm, hspare⟩
  · simp at h

theorem State.swapBegin_keepsBut (s : State) (q lane reason : Nat) :
    KeepsBut (pQUAD q) [QUAD.STATUS.off, QUAD.ENGINE_STATE.off] s (s.swapBegin q lane reason) :=
  ((((KeepsBut.setQuad q _).trans (KeepsBut.put (f := QUAD.STATUS.SWAP_IN_PROGRESS) _ (by decide))).trans
    (State.setEngState_keepsBut _ q _ 4)).trans (KeepsBut.put (f := QUAD.STATUS.SPARE_READY) _ (by decide))).mono (by decide)

theorem State.swapBegin_quad (hq : q < s.quads.length) (lane reason : Nat) : (s.swapBegin q lane reason).quad q =
    { s.quad q with
      swap := some ⟨lane, s.laneEngine q lane, s.spare q, reason, s.clk.slot, s.clk.slot + (if reason = 2 then 206 else 4000), false, none⟩
      armNext := none } := by
  unfold State.swapBegin
  rw [State.putFlag_eq, State.quad_of_quads (State.put_quads _ _ _ _), State.quad_of_quads (State.setEngState_quads _ _ _ _), State.putFlag_eq,
    State.quad_of_quads (State.put_quads _ _ _ _), State.quad_setQuad _ _ _ hq]

theorem State.swapBegin_shows (hspare : s.spare q < 5) (lane reason : Nat) : (s.swapBegin q lane reason).engState q (s.spare q) = 4 ∧
    (s.swapBegin q lane reason).flag (pQUAD q) QUAD.STATUS.SWAP_IN_PROGRESS = true := by
  unfold State.swapBegin
  refine ⟨?_, ?_⟩
  · rw [State.putFlag_eq, State.engState_of_keeps (KeepsBut.put (f := QUAD.STATUS.SPARE_READY) _ (by decide)) (by decide),
      State.engState_setEngState_self _ _ hspare (by decide)]
  · rw [State.putFlag_eq, State.flag, State.get_put_sameWord _ _ _ (by decide), (State.setEngState_keepsBut _ q _ 4).get_eq (by decide) (by decide)]
    exact State.flag_putFlag_self _ _ true (by decide)

theorem runs_swapArm {lane reason : Nat} (hdue : s.armDue q = some (lane, reason)) :
    Runs (.swapArm q lane reason) s (fun t => (t.quad q).armNext = none ∧ t.engState q (s.spare q) = 4 ∧
      t.flag (pQUAD q) QUAD.STATUS.SWAP_IN_PROGRESS = true ∧
      (∃ w, (t.quad q).swap = some w ∧ w.lane = lane ∧ w.old = s.laneEngine q lane ∧ w.new = s.spare q ∧ w.reason = reason ∧
        w.a = s.clk.slot ∧ w.b = s.clk.slot + (if reason = 2 then 206 else 4000) ∧ w.switched = none) ∧
      KeepsRegs s t [(pQUAD q, 0x010), (pQUAD q, QUAD.ENGINE_STATE.off)] ∧ KeepsMemory s t) := by
  obtain ⟨hq, hspare⟩ := State.armDue_some hdue
  obtain ⟨hstate, hflag⟩ := State.swapBegin_shows hspare lane reason
  refine .of_effect (fun s => if s.armDue q = some (lane, reason) then s.swapBegin q lane reason else s) rfl ?_
  simp only [if_pos hdue, State.swapBegin_quad hq]
  exact ⟨trivial, hstate, hflag, ⟨_, rfl, rfl, rfl, rfl, rfl, rfl, rfl, rfl⟩, s.swapBegin_keepsBut q lane reason,
    .of_holds (State.swapBegin_holds s.holds_self _ _ _)⟩

/-! ### Verification -/

section
variable {w : SwapSt} (hswap : (s.quad q).swap = some w) (spareState : Nat)
include hswap

theorem State.abandonSwap_eq : s.abandonSwap q spareState = ((((s.setQuad q { s.quad q with swap := none }).putFlag (pQUAD q)
    QUAD.STATUS.SWAP_IN_PROGRESS false).setEngState q w.new spareState).recordSwap q 2 w.reason w.old w.old w.lane).irq (pQUAD q) 1 := by
  simp only [State.abandonSwap, hswap]

theorem State.abandonSwap_keepsBut :
    KeepsBut (pQUAD q) [QUAD.STATUS.off, QUAD.ENGINE_STATE.off, QUAD.LAST_SWAP.off, QUAD.IRQ_STATUS.off] s (s.abandonSwap q spareState) := by
  rw [State.abandonSwap_eq hswap]
  exact (((((KeepsBut.setQuad q _).trans (KeepsBut.put (f := QUAD.STATUS.SWAP_IN_PROGRESS) _ (by decide))).trans
    (State.setEngState_keepsBut _ q _ _)).trans (State.recordSwap_keepsBut _ q _ _ _ _ _)).trans (KeepsBut.irq 1)).mono (by decide)

theorem State.abandonSwap_shows : ((s.abandonSwap q spareState).quad q).swap = none ∧
    (s.abandonSwap q spareState).get (pQUAD q) QUAD.LAST_SWAP.OUTCOME = 2 ∧ (s.abandonSwap q spareState).irqSet (pQUAD q) 1 = true := by
  rw [State.abandonSwap_eq hswap]
  refine ⟨?_, ?_, State.irqSet_irq_self _ _ _ (by decide)⟩
  · rw [State.quad_of_quads (State.irq_quads _ _ _), State.quad_of_quads (State.recordSwap_quads _ _ _ _ _ _ _),
      State.quad_of_quads (State.setEngState_quads _ _ _ _), State.putFlag_eq, State.quad_of_quads (State.put_quads _ _ _ _),
      State.quad_setQuad _ _ _ (State.lt_of_swap hswap)]
  · refine (State.get_irq_off _ _ _ (by decide) (by decide)).trans ?_
    obtain ⟨houtcome, -⟩ := State.recordSwap_shows _ q 2 w.reason w.old w.old w.lane
    exact houtcome

end

section
variable {w : SwapSt} {m : SwapCheck} (hswap : (s.quad q).swap = some w)
include hswap

/-- Fewer than 16 pairs, or the switch already due: the swap goes on as it is. -/
theorem runs_swapVerify_waits (hfew : m.pairs < 16 ∨ w.b ≤ s.clk.slot) :
    Runs (.swapVerify q m) s (fun t => (t.quad q).swap = some w ∧ KeepsRegs s t [] ∧ KeepsMemory s t) := by
  have hcheck : s.swapCheck q m = s := by
    simp only [State.swapCheck, hswap]
    rw [if_pos (by omega)]
  refine .of_effect (fun s => s.swapCheck q m) rfl ?_
  rw [hcheck]
  exact ⟨hswap, .refl, fun _ => rfl⟩

variable (hreason : w.reason ≠ 2) (hpairs : 16 ≤ m.pairs) (hbefore : s.clk.slot < w.b)
include hreason hpairs hbefore

theorem runs_swapVerify_verifies (hdiff : m.diffFs.natAbs ≤ 2000) (hall : m.missing = false) :
    Runs (.swapVerify q m) s (fun t => (t.quad q).swap = some { w with verified := true } ∧ KeepsRegs s t [] ∧ KeepsMemory s t) := by
  have hcheck : s.swapCheck q m = s.setQuad q { s.quad q with swap := some { w with verified := true } } := by
    simp only [State.swapCheck, hswap]
    rw [if_neg (by omega), if_pos ⟨hdiff, by rw [hall]; rfl⟩]
  refine .of_effect (fun s => s.swapCheck q m) rfl ?_
  rw [hcheck]
  exact ⟨by rw [State.quad_setQuad _ _ _ (State.lt_of_swap hswap)], .of_same rfl, fun _ => rfl⟩

theorem runs_swapVerify_abandons (hbad : 2000 < m.diffFs.natAbs ∨ m.missing = true) :
    Runs (.swapVerify q m) s (fun t => (t.quad q).swap = none ∧ t.get (pQUAD q) QUAD.LAST_SWAP.OUTCOME = 2 ∧
      t.irqSet (pQUAD q) 1 = true ∧ KeepsPages s t [pQUAD q] ∧ KeepsMemory s t) := by
  have hcheck : s.swapCheck q m = (s.abandonSwap q 2).needSweep q w.new := by
    simp only [State.swapCheck, hswap]
    rw [if_neg (by omega), if_neg (by rcases hbad with h | h <;> simp [h])]
  obtain ⟨hnone, houtcome, hirq⟩ := State.abandonSwap_shows hswap 2
  have hsweep := (s.abandonSwap q 2).needSweep_keepsBut q w.new
  refine .of_effect (fun s => s.swapCheck q m) rfl ?_
  rw [hcheck]
  exact ⟨(State.needSweep_swap _ _ _).trans hnone, (hsweep.get_eq (by decide) (by decide)).trans houtcome,
    (hsweep.irqSet_eq 1 (by decide)).trans hirq, ((State.abandonSwap_keepsBut hswap 2).trans hsweep).keepsPages,
    .of_holds (State.needSweep_holds (State.abandonSwap_holds s.holds_self _ _) _ _)⟩

end

/-! ### The switch -/

/-- An issued edge of a lane at the switch: from the switch point on it is the spare's, with its own codes. -/
def State.onSpare (s : State) (q l : Nat) (i : Issued) : Issued :=
  match i.alt with
  | some n =>
    if s.switchPoint q l ≤ s.muxPos (4 * q + l) i.engine (s.rising (4 * q + l) (i.high.getD false)) i.pos then
      { i with engine := n.1, pos := n.2.1, raw := n.2.2, alt := none }
    else i
  | none => i

/-- The issued edges of a lane at the switch. -/
def State.edgesSwitched (s : State) (q l : Nat) : State :=
  s.setChan (4 * q + l) { s.chan (4 * q + l) with issued := (s.chan (4 * q + l)).issued.map (s.onSpare q l) }

theorem State.swapOver_eq {w : SwapSt} (hswap : (s.quad q).swap = some w) (hnot : w.switched = none) (hdue : w.b ≤ s.clk.slot) :
    s.swapOver q = (s.edgesSwitched q w.lane).setQuad q { s.quad q with swap := some { w with switched := some s.slotNo } } := by
  have hgo : ¬(w.switched.isSome = true ∨ s.clk.slot < w.b) := by simp [hnot, hdue]
  simp only [State.swapOver, hswap, if_neg hgo]
  rfl

/-- An issued edge of the lane that reaches the multiplexer from the switch point on, and has codes of the spare, takes them. -/
theorem State.mem_edgesSwitched {l : Nat} {i : Issued} {n : Nat × Int × Int} (hi : i ∈ (s.chan (4 * q + l)).issued) (halt : i.alt = some n)
    (hpoint : s.switchPoint q l ≤ s.muxPos (4 * q + l) i.engine (s.rising (4 * q + l) (i.high.getD false)) i.pos) :
    { i with engine := n.1, pos := n.2.1, raw := n.2.2, alt := none } ∈ ((s.edgesSwitched q l).chan (4 * q + l)).issued := by
  have hc : 4 * q + l < s.chans.length := State.chan_lt fun hnone => by simp [hnone] at hi
  rw [State.edgesSwitched, State.chan_setChan _ _ _ hc]
  refine List.mem_map.2 ⟨i, hi, ?_⟩
  simp only [State.onSpare, halt, if_pos hpoint]

theorem runs_swapSwitch {w : SwapSt} (hswap : (s.quad q).swap = some w) (hnot : w.switched = none) (hdue : w.b ≤ s.clk.slot) :
    Runs (.swapSwitch q) s (fun t => (t.quad q).swap = some { w with switched := some s.slotNo } ∧
      (∀ i ∈ (s.chan (4 * q + w.lane)).issued, ∀ n, i.alt = some n →
        s.switchPoint q w.lane ≤ s.muxPos (4 * q + w.lane) i.engine (s.rising (4 * q + w.lane) (i.high.getD false)) i.pos →
        { i with engine := n.1, pos := n.2.1, raw := n.2.2, alt := none } ∈ (t.chan (4 * q + w.lane)).issued) ∧
      KeepsRegs s t [] ∧ KeepsMemory s t) := by
  refine .of_effect (fun s => s.swapOver q) rfl ?_
  rw [State.swapOver_eq hswap hnot hdue]
  exact ⟨by rw [State.quad_setQuad (s.edgesSwitched q w.lane) q _ (State.lt_of_swap hswap)],
    fun _ hi _ halt hpoint => State.mem_edgesSwitched hi halt hpoint, .of_same rfl, fun _ => rfl⟩

end

end Sys2Proof.Machine
end

section
/-! PROOFS. Swaps (O19): the end of a swap, and the lane that failed without a spare. -/

namespace Sys2Proof.Machine

/-! ### The end of a swap in its four stages -/

/-- The lane is mapped to the new engine, and the old one, which has not failed, is the spare. -/
def State.swapMapped (s : State) (q : Nat) (w : SwapSt) : State :=
  (((s.mapLane q w.lane w.new).put (pQUAD q) QUAD.ENGINE_MAP.SPARE w.old).setEngState q w.new 1).setEngState q w.old 2

/-- A swap that was made is logged, and counted in the field of its reason. -/
def State.swapLogged (s : State) (q reason new old lane slot : Nat) (count : Fld) : State :=
  ((s.recordSwap q 1 reason new old lane).put (pQUAD q) QUAD.LAST_SWAP_SLOT.SLOT slot).incSat (pQUAD q) count

/-- No swap is in progress, and the causes that waited for the lane are served. -/
def State.swapClosed (s : State) (q lane : Nat) : State :=
  ((s.setQuad q { s.quad q with swap := none, deferred := (s.quad q).deferred.filter (fun d => d.1 != lane) }).putFlag (pQUAD q)
    QUAD.STATUS.SWAP_IN_PROGRESS false).irq (pQUAD q) 0

/-- What follows from the new map is renewed. -/
def State.swapRenewed (s : State) (q lane old : Nat) : State :=
  (((s.setDegraded q lane false).refreshDeferred q).needSweep q old).refreshBounds q

theorem State.swapFinish_eq {s : State} {q sl : Nat} {w : SwapSt} (hswap : (s.quad q).swap = some w) (hswitched : w.switched = some sl)
    (hdue : w.b + 1 ≤ s.clk.slot) (hreason : w.reason ≠ 2) (hold : s.engState q w.old ≠ 5) : s.swapFinish q =
      (((s.swapMapped q w).swapLogged q w.reason w.new w.old w.lane sl QUAD.SWAP_COUNT.OTHER_SWAPS).swapClosed q w.lane).swapRenewed q w.lane
        w.old := by
  have hfailed : (w.reason == 2 || s.engState q w.old == 5) = false := by simp [hreason, hold]
  have hgo : ¬s.clk.slot < w.b + 1 := Nat.not_lt.2 hdue
  simp only [State.swapFinish, hswap, hswitched, if_neg hgo, hfailed, if_neg hreason, Bool.false_eq_true, if_false]
  rfl

section
variable (s : State) (q : Nat)

section
variable (w : SwapSt)

theorem State.swapMapped_keepsBut : KeepsBut (pQUAD q) [QUAD.ENGINE_MAP.off, QUAD.ENGINE_STATE.off] s (s.swapMapped q w) :=
  ((((s.mapLane_keepsBut q w.lane w.new).trans (KeepsBut.put (f := QUAD.ENGINE_MAP.SPARE) _ (by decide))).trans
    (State.setEngState_keepsBut _ q _ _)).trans (State.setEngState_keepsBut _ q _ _)).mono (by decide)

theorem State.swapMapped_shows (hlane : w.lane < 4) (hnew : w.new < 5) (hold : w.old < 5) (hne : w.new ≠ w.old) :
    (s.swapMapped q w).laneEngine q w.lane = w.new ∧ (s.swapMapped q w).spare q = w.old ∧ (s.swapMapped q w).engState q w.new = 1 := by
  have hstates := fun u : State => (u.setEngState_keepsBut q w.new 1).trans (State.setEngState_keepsBut _ q w.old 2)
  unfold State.swapMapped
  refine ⟨?_, ?_, ?_⟩
  · rw [State.laneEngine_of_keeps (hstates _) (by decide), State.laneEngine_put_spare, State.laneEngine_mapLane _ _ hlane (by omega)]
  · rw [State.spare_of_keeps (hstates _) (by decide), State.spare_put _ _ (by omega)]
  · rw [State.engState_setEngState_ne _ _ _ hnew hne, State.engState_setEngState_self _ _ hnew (by decide)]

theorem State.swapMapped_quads : (s.swapMapped q w).quads = s.quads := by
  simp [State.swapMapped]

end

section
variable (reason new old lane slot : Nat) {count : Fld} (hcount : OneWord count ∧ count.off = QUAD.SWAP_COUNT.off)
include hcount

theorem State.swapCounted_keepsBut : KeepsBut (pQUAD q) [QUAD.LAST_SWAP_SLOT.off, QUAD.LAST_SWAP_SLOT.off + 4, QUAD.SWAP_COUNT.off] s
    ((s.put (pQUAD q) QUAD.LAST_SWAP_SLOT.SLOT slot).incSat (pQUAD q) count) := by
  obtain ⟨hone, hoff⟩ := hcount
  have hput := (KeepsBut.putWide (p := pQUAD q) (s := s) (f := QUAD.LAST_SWAP_SLOT.SLOT) slot (by decide) (by decide)).trans
    (KeepsBut.put (f := count) (satAdd (count.hi + 1 - count.lo) ((s.put (pQUAD q) QUAD.LAST_SWAP_SLOT.SLOT slot).get (pQUAD q) count) 1) hone)
  rw [hoff] at hput
  exact hput.mono (by decide)

theorem State.swapLogged_keepsBut :
    KeepsBut (pQUAD q) [QUAD.LAST_SWAP.off, QUAD.LAST_SWAP_SLOT.off, QUAD.LAST_SWAP_SLOT.off + 4, QUAD.SWAP_COUNT.off] s
      (s.swapLogged q reason new old lane slot count) :=
  ((s.recordSwap_keepsBut q _ _ _ _ _).trans (State.swapCounted_keepsBut _ q slot hcount)).mono (by decide)

theorem State.swapLogged_shows {new old lane : Nat} (hlane : lane < 4) (hnew : new < 8) (hold : old < 8) :
    (s.swapLogged q reason new old lane slot count).get (pQUAD q) QUAD.LAST_SWAP.OUTCOME = 1 ∧
    (s.swapLogged q reason new old lane slot count).get (pQUAD q) QUAD.LAST_SWAP.NEW_ENGINE = new ∧
    (s.swapLogged q reason new old lane slot count).get (pQUAD q) QUAD.LAST_SWAP.OLD_ENGINE = old ∧
    (s.swapLogged q reason new old lane slot count).get (pQUAD q) QUAD.LAST_SWAP.LANE = lane ∧
    (s.swapLogged q reason new old lane slot count).get (pQUAD q) count = min (s.get (pQUAD q) count + 1) (2 ^ (count.hi + 1 - count.lo) - 1) := by
  have hcounted := State.swapCounted_keepsBut (s.recordSwap q 1 reason new old lane) q slot hcount
  obtain ⟨hone, hoff⟩ := hcount
  have hbefore := (s.recordSwap_keepsBut q 1 reason new old lane).trans
    (KeepsBut.putWide (f := QUAD.LAST_SWAP_SLOT.SLOT) slot (by decide) (by decide))
  obtain ⟨houtcome, hnew', hold', hlane'⟩ := s.recordSwap_shows q 1 reason new old lane
  unfold State.swapLogged
  refine ⟨?_, ?_, ?_, ?_, ?_⟩
  · exact (hcounted.get_eq (by decide) (by decide)).trans houtcome
  · exact (hcounted.get_eq (by decide) (by decide)).trans (hnew'.trans (Nat.mod_eq_of_lt hnew))
  · exact (hcounted.get_eq (by decide) (by decide)).trans (hold'.trans (Nat.mod_eq_of_lt hold))
  · exact (hcounted.get_eq (by decide) (by decide)).trans (hlane'.trans (Nat.mod_eq_of_lt hlane))
  · rw [State.get_incSat_self _ _ _ hone, hbefore.get_eq hone (by rw [hoff]; decide)]

omit hcount in
theorem State.swapLogged_quads (count : Fld) : (s.swapLogged q reason new old lane slot count).quads = s.quads := by
  simp [State.swapLogged, State.incSat]

end

theorem State.swapClosed_keepsBut (lane : Nat) : KeepsBut (pQUAD q) [QUAD.STATUS.off, QUAD.IRQ_STATUS.off] s (s.swapClosed q lane) :=
  ((KeepsBut.setQuad q _).trans (KeepsBut.put (f := QUAD.STATUS.SWAP_IN_PROGRESS) _ (by decide))).trans (KeepsBut.irq 0)

theorem State.swapClosed_shows (hq : q < s.quads.length) (lane : Nat) : ((s.swapClosed q lane).quad q).swap = none ∧
    (s.swapClosed q lane).flag (pQUAD q) QUAD.STATUS.SWAP_IN_PROGRESS = false ∧ (s.swapClosed q lane).irqSet (pQUAD q) 0 = true := by
  unfold State.swapClosed
  refine ⟨?_, ?_, State.irqSet_irq_self _ _ _ (by decide)⟩
  · rw [State.quad_of_quads (State.irq_quads _ _ _), State.putFlag_eq, State.quad_of_quads (State.put_quads _ _ _ _), State.quad_setQuad _ _ _ hq]
  · rw [(KeepsBut.irq 0).flag_eq (by decide) (by decide), State.flag_putFlag_self _ _ _ (by decide)]

theorem State.swapRenewed_keepsBut (lane old : Nat) :
    KeepsBut (pQUAD q) [QUAD.STATUS.off, QUAD.IRQ_STATUS.off, QUAD.ERR_STATUS.off, QUAD.ENGINE_STATE.off,
    QUAD.SWEEP_INFO.off, 0xE0, 0xE4, 0xE8, 0xEC] s (s.swapRenewed q lane old) :=
  ((((s.setDegraded_keepsBut q lane false).trans (State.refreshDeferred_keepsBut _ q)).trans (State.needSweep_keepsBut _ q old)).trans
    (State.refreshBounds_keepsBut _ q)).mono (by decide)

/-- The swap that is over, and what it has shown, stand. -/
theorem State.swapRenewed_shows {lane : Nat} (old : Nat) (hlane : lane < 4) :
    ((s.swapRenewed q lane old).quad q).swap = (s.quad q).swap ∧
    (s.swapRenewed q lane old).flag (pQUAD q) QUAD.STATUS.SWAP_IN_PROGRESS = s.flag (pQUAD q) QUAD.STATUS.SWAP_IN_PROGRESS ∧
    (s.irqSet (pQUAD q) 0 = true → (s.swapRenewed q lane old).irqSet (pQUAD q) 0 = true) ∧
    (∀ e, e < 5 → e ≠ s.spare q → (s.swapRenewed q lane old).engState q e = s.engState q e) := by
  obtain ⟨-, hflag, hirq⟩ := s.setDegraded_false_shows q hlane
  have hdeferred := (s.setDegraded q lane false).refreshDeferred_keepsBut q
  have hnow := (s.setDegraded_keepsBut q lane false).trans hdeferred
  have hbounds := fun u : State => u.refreshBounds_keepsBut q
  unfold State.swapRenewed
  refine ⟨?_, ?_, fun h => ?_, fun e he hne => ?_⟩
  · rw [State.quad_of_quads (State.refreshBounds_quads _ _), State.needSweep_swap, State.quad_of_quads (State.refreshDeferred_quads _ _),
      State.quad_of_quads (State.setDegraded_quads _ _ _ _)]
  · rw [(hbounds _).flag_eq (by decide) (by decide), State.needSweep_swapInProgress, State.flag, State.refreshDeferred, State.putFlag_eq,
      State.get_put_sameWord _ _ _ (by decide), ← State.flag, hflag]
  · rw [(hbounds _).irqSet_eq 0 (by decide), (State.needSweep_keepsBut _ q old).irqSet_eq 0 (by decide), hdeferred.irqSet_eq 0 (by decide)]
    exact hirq h
  · rw [State.engState_of_keeps (hbounds _) (by decide), State.needSweep_engState _ _ _ he (by rwa [State.spare_of_keeps hnow (by decide)]),
      State.engState_of_keeps hnow (by decide)]

end

theorem runs_swapDone {s : State} {q sl : Nat} {w : SwapSt} (hswap : (s.quad q).swap = some w) (hswitched : w.switched = some sl)
    (hdue : w.b + 1 ≤ s.clk.slot) (hreason : w.reason ≠ 2) (hrun : s.engState q w.old ≠ 5) (hlane : w.lane < 4) (hnew : w.new < 5)
    (hold : w.old < 5) (hne : w.new ≠ w.old) :
    Runs (.swapDone q) s (fun t => (t.quad q).swap = none ∧ t.laneEngine q w.lane = w.new ∧ t.spare q = w.old ∧
      t.engState q w.new = 1 ∧ t.get (pQUAD q) QUAD.LAST_SWAP.OUTCOME = 1 ∧ t.get (pQUAD q) QUAD.LAST_SWAP.NEW_ENGINE = w.new ∧
      t.get (pQUAD q) QUAD.LAST_SWAP.OLD_ENGINE = w.old ∧ t.get (pQUAD q) QUAD.LAST_SWAP.LANE = w.lane ∧
      t.flag (pQUAD q) QUAD.STATUS.SWAP_IN_PROGRESS = false ∧ t.irqSet (pQUAD q) 0 = true ∧
      t.get (pQUAD q) QUAD.SWAP_COUNT.OTHER_SWAPS = min (s.get (pQUAD q) QUAD.SWAP_COUNT.OTHER_SWAPS + 1) 65535 ∧
      KeepsPages s t [pQUAD q] ∧ KeepsMemory s t) := by
  have hmem : (s.swapFinish q).holds s.bar2 s.pending := State.swapFinish_holds s.holds_self _
  refine .of_effect (fun s => s.swapFinish q) rfl ?_
  rw [State.swapFinish_eq hswap hswitched hdue hreason hrun] at hmem ⊢
  have hq : q < ((s.swapMapped q w).swapLogged q w.reason w.new w.old w.lane sl QUAD.SWAP_COUNT.OTHER_SWAPS).quads.length := by
    rw [State.swapLogged_quads, State.swapMapped_quads]
    exact State.lt_of_swap hswap
  have hcount : OneWord QUAD.SWAP_COUNT.OTHER_SWAPS ∧ QUAD.SWAP_COUNT.OTHER_SWAPS.off = QUAD.SWAP_COUNT.off := by decide
  have h1 := s.swapMapped_keepsBut q w
  have h2 := (s.swapMapped q w).swapLogged_keepsBut q w.reason w.new w.old w.lane sl hcount
  have h3 := ((s.swapMapped q w).swapLogged q w.reason w.new w.old w.lane sl QUAD.SWAP_COUNT.OTHER_SWAPS).swapClosed_keepsBut q w.lane
  obtain ⟨hmap, hspare, hactive⟩ := s.swapMapped_shows q w hlane hnew hold hne
  obtain ⟨houtcome, hlogNew, hlogOld, hlogLane, hcounted⟩ := (s.swapMapped q w).swapLogged_shows q w.reason sl hcount hlane
    (by omega : w.new < 8) (by omega : w.old < 8)
  obtain ⟨hnone, hflag, hirq⟩ := State.swapClosed_shows _ q hq w.lane
  generalize hu1 : s.swapMapped q w = u1 at *
  generalize hu2 : u1.swapLogged q w.reason w.new w.old w.lane sl QUAD.SWAP_COUNT.OTHER_SWAPS = u2 at *
  generalize hu3 : u2.swapClosed q w.lane = u3 at *
  have h4 := u3.swapRenewed_keepsBut q w.lane w.old
  obtain ⟨hswap4, hflag4, hirq4, hstate4⟩ := u3.swapRenewed_shows q w.old hlane
  have h34 := h3.trans h4
  have h24 := h2.trans h34
  have hspare3 : u3.spare q = w.old := (State.spare_of_keeps (h2.trans h3) (by decide)).trans hspare
  refine ⟨hswap4.trans hnone, (State.laneEngine_of_keeps h24 (by decide) _).trans hmap, (State.spare_of_keeps h24 (by decide)).trans hspare, ?_,
    (h34.get_eq (by decide) (by decide)).trans houtcome, (h34.get_eq (by decide) (by decide)).trans hlogNew,
    (h34.get_eq (by decide) (by decide)).trans hlogOld, (h34.get_eq (by decide) (by decide)).trans hlogLane, hflag4.trans hflag, hirq4 hirq, ?_,
    (h1.trans h24).keepsPages, .of_holds hmem⟩
  · rw [hstate4 _ hnew (by rwa [hspare3]), State.engState_of_keeps (h2.trans h3) (by decide), hactive]
  · rw [h34.get_eq (by decide) (by decide), hcounted, h1.get_eq (by decide) (by decide)]
    rfl

/-! ### A lane that failed without a spare -/

/-- The lane is mapped to the spare, and no spare is left. -/
def State.laneRemapped (s : State) (q l e : Nat) : State :=
  ((s.mapLane q l e).put (pQUAD q) QUAD.ENGINE_MAP.SPARE 7).setEngState q e 1

/-- The lane waits no longer, and is no longer degraded. -/
def State.laneServed (s : State) (q l : Nat) : State :=
  ((s.setQuad q { s.quad q with
    failedLanes := (s.quad q).failedLanes.filter (· ≠ l)
    deferred := (s.quad q).deferred.filter (fun d => d.1 ≠ l) }).refreshDeferred q).setDegraded q l false

/-- The swap is announced, and what follows from the new map is renewed. -/
def State.remapAnnounced (s : State) (q : Nat) : State := ((s.irq (pQUAD q) 0).refreshSpare q).refreshBounds q

theorem State.remapLane_eq {s : State} {q l : Nat} {rest : List Nat} (hlanes : (s.quad q).failedLanes.reverse = l :: rest)
    (hdue : s.remapDue q = true) : s.remapLane q = ((((s.laneRemapped q l (s.spare q)).laneServed q l).swapLogged q 2 (s.spare q)
      (s.laneEngine q l) l s.slotNo QUAD.SWAP_COUNT.FAIL_SWAPS)).remapAnnounced q := by
  simp only [State.remapLane, hlanes, hdue, Bool.not_true, Bool.false_eq_true, if_false]
  rfl

section
variable (s : State) (q : Nat)

theorem State.laneRemapped_keepsBut (l e : Nat) : KeepsBut (pQUAD q) [QUAD.ENGINE_MAP.off, QUAD.ENGINE_STATE.off] s (s.laneRemapped q l e) :=
  (((s.mapLane_keepsBut q l e).trans (KeepsBut.put (f := QUAD.ENGINE_MAP.SPARE) _ (by decide))).trans (State.setEngState_keepsBut _ q _ _)).mono
    (by decide)

theorem State.laneRemapped_shows {l e : Nat} (hl : l < 4) (he : e < 5) :
    (s.laneRemapped q l e).laneEngine q l = e ∧ (s.laneRemapped q l e).spare q = 7 := by
  have hstate := fun u : State => u.setEngState_keepsBut q e 1
  unfold State.laneRemapped
  refine ⟨?_, ?_⟩
  · rw [State.laneEngine_of_keeps (hstate _) (by decide), State.laneEngine_put_spare, State.laneEngine_mapLane _ _ hl (by omega)]
  · rw [State.spare_of_keeps (hstate _) (by decide), State.spare_put _ _ (by decide)]

theorem State.laneRemapped_quads (l e : Nat) : (s.laneRemapped q l e).quads = s.quads := by
  simp [State.laneRemapped]

theorem State.laneServed_keepsBut (l : Nat) :
    KeepsBut (pQUAD q) [QUAD.STATUS.off, QUAD.IRQ_STATUS.off, QUAD.ERR_STATUS.off] s (s.laneServed q l) :=
  (((KeepsBut.setQuad q _).trans (State.refreshDeferred_keepsBut _ q)).trans (State.setDegraded_keepsBut _ q l false)).mono (by decide)

theorem State.laneServed_shows {l : Nat} (hq : q < s.quads.length) (hl : l < 4) : (s.laneServed q l).degraded q l = false ∧
    l ∉ ((s.laneServed q l).quad q).failedLanes := by
  unfold State.laneServed
  refine ⟨(State.setDegraded_false_shows _ q hl).1, ?_⟩
  rw [State.quad_of_quads (State.setDegraded_quads _ _ _ _), State.quad_of_quads (State.refreshDeferred_quads _ _), State.quad_setQuad _ _ _ hq]
  simp

theorem State.remapAnnounced_keepsBut : KeepsBut (pQUAD q) [QUAD.IRQ_STATUS.off, QUAD.ENGINE_STATE.off, QUAD.SWEEP_INFO.off, QUAD.STATUS.off,
    0xE0, 0xE4, 0xE8, 0xEC] s (s.remapAnnounced q) :=
  ((KeepsBut.irq 0).trans (State.refreshSpare_keepsBut _ q)).trans (State.refreshBounds_keepsBut _ q)

theorem State.remapAnnounced_shows (l : Nat) : (s.remapAnnounced q).irqSet (pQUAD q) 0 = true ∧
    (s.remapAnnounced q).degraded q l = s.degraded q l ∧ ((s.remapAnnounced q).quad q).failedLanes = (s.quad q).failedLanes := by
  have hbounds := fun u : State => u.refreshBounds_keepsBut q
  unfold State.remapAnnounced
  refine ⟨?_, ?_, ?_⟩
  · rw [(hbounds _).irqSet_eq 0 (by decide), (State.refreshSpare_keepsBut _ q).irqSet_eq 0 (by decide), State.irqSet_irq_self _ _ _ (by decide)]
  · rw [State.degraded_of_keeps (hbounds _) (by decide), State.degraded, State.refreshSpare_status _ _ (by decide) rfl (by decide), ← State.degraded,
      State.degraded_of_keeps (KeepsBut.irq 0) (by decide)]
  · rw [State.quad_of_quads (State.refreshBounds_quads _ _), State.refreshSpare_quad _ q (·.failedLanes) fun _ _ => rfl,
      State.quad_of_quads (State.irq_quads _ _ _)]

end

theorem State.spare_lt_of_remapDue {s : State} {q : Nat} (h : s.remapDue q = true) : s.spare q < 5 := by
  simp only [State.remapDue, Bool.and_eq_true] at h
  obtain ⟨⟨⟨⟨⟨⟨-, -⟩, hready⟩, -⟩, -⟩, -⟩, -⟩ := h
  simp only [State.spareReady, Bool.and_eq_true, decide_eq_true_eq] at hready
  exact hready.1.1

theorem runs_failedLaneRemap {s : State} {q l : Nat} {rest : List Nat} (hlanes : (s.quad q).failedLanes.reverse = l :: rest) (hl : l < 4)
    (hdue : s.remapDue q = true) :
    Runs (.failedLaneRemap q) s (fun t => t.laneEngine q l = s.spare q ∧ t.spare q = 7 ∧ l ∉ (t.quad q).failedLanes ∧
      t.degraded q l = false ∧ t.irqSet (pQUAD q) 0 = true ∧ KeepsPages s t [pQUAD q] ∧ KeepsMemory s t) := by
  have hmem : (s.remapLane q).holds s.bar2 s.pending := State.remapLane_holds s.holds_self _
  refine .of_effect (fun s => s.remapLane q) rfl ?_
  rw [State.remapLane_eq hlanes hdue] at hmem ⊢
  have hq : q < (s.laneRemapped q l (s.spare q)).quads.length := by
    rw [State.laneRemapped_quads]
    exact State.quad_lt fun hnone => by simp [hnone] at hlanes
  have h1 := s.laneRemapped_keepsBut q l (s.spare q)
  obtain ⟨hmap, hspare⟩ := s.laneRemapped_shows q hl (State.spare_lt_of_remapDue hdue)
  obtain ⟨hdegraded, hserved⟩ := State.laneServed_shows _ q hq hl
  generalize s.laneRemapped q l (s.spare q) = u1 at *
  have h2 := u1.laneServed_keepsBut q l
  generalize u1.laneServed q l = u2 at *
  have h3 := u2.swapLogged_keepsBut q 2 (s.spare q) (s.laneEngine q l) l s.slotNo (count := QUAD.SWAP_COUNT.FAIL_SWAPS) (by decide)
  have hquad3 := u2.swapLogged_quads q 2 (s.spare q) (s.laneEngine q l) l s.slotNo QUAD.SWAP_COUNT.FAIL_SWAPS
  generalize u2.swapLogged q 2 (s.spare q) (s.laneEngine q l) l s.slotNo QUAD.SWAP_COUNT.FAIL_SWAPS = u3 at *
  have h24 := (h2.trans h3).trans (u3.remapAnnounced_keepsBut q)
  obtain ⟨hirq, hdegraded4, hserved4⟩ := u3.remapAnnounced_shows q l
  refine ⟨(State.laneEngine_of_keeps h24 (by decide) _).trans hmap, (State.spare_of_keeps h24 (by decide)).trans hspare, ?_, ?_, hirq,
    (h1.trans h24).keepsPages, .of_holds hmem⟩
  · rwa [hserved4, State.quad_of_quads hquad3]
  · rw [hdegraded4, State.degraded_of_keeps h3 (by decide), hdegraded]

/-- Settles O19: arming and the switch set what they name; verification goes by the pairs and their difference; the end of a swap and the mapping
of a failed lane are taken stage by stage, each stage with the words that it changes. -/
theorem swaps : Obligations.Swaps := fun _ _ _ =>
  ⟨fun _ _ hdue => runs_swapArm hdue,
    fun _ _ hswap hreason => ⟨runs_swapVerify_waits hswap, runs_swapVerify_verifies hswap hreason, runs_swapVerify_abandons hswap hreason⟩,
    fun _ hswap hnot hdue => runs_swapSwitch hswap hnot hdue,
    fun _ _ hswap hswitched hdue hreason hrun hlane hnew hold hne => runs_swapDone hswap hswitched hdue hreason hrun hlane hnew hold hne,
    fun _ _ hlanes hl hdue => runs_failedLaneRemap hlanes hl hdue⟩

end Sys2Proof.Machine
end

section
/-! PROOFS. Edges of a lane (O21): issue and launch. -/

namespace Sys2Proof.Machine

/-! ### Issue -/

section
variable {s : State} {c : Nat}

/-- With no accumulator and no response pending there is no next pulse to form. -/
theorem State.chanExpand_of_idle (hclk : (s.chan c).clk32 = none) (hresp : (s.chan c).responses = []) : s.chanExpand c = s := by
  simp only [State.chanExpand, hclk, Option.isSome_none, Bool.false_eq_true, if_false, State.nextPulse, hresp, firstResp]
  split <;> rfl

/-- An edge whose codes are handed to its engine leaves the list of those that wait; the level that it makes is the next one. -/
theorem State.issueAt_shows (hc : c < s.chans.length) (e : Edge) (high : Option Bool) (engine : Nat) (pos : Int) (dither : Option Int) :
    ∃ i : Issued, (s.issueAt c e high engine pos dither).chan c = { s.chan c with
        wait := (s.chan c).wait.erase e, issued := (s.chan c).issued ++ [i]
        nextLevel := high.getD (s.chan c).nextLevel, nextDriven := high.isSome } ∧
      i.edge = e ∧ i.high = high ∧ i.engine = engine ∧ i.pos = pos ∧ i.raw = s.lineCode c engine pos := by
  unfold State.issueAt
  rw [State.chan_setChan _ _ _ hc]
  exact ⟨_, rfl, rfl, rfl, rfl, rfl, rfl⟩

section
variable {e : Edge} {rest : List Edge} {high : Bool} (hwait : (s.chan c).wait = e :: rest) (hclk : (s.chan c).clk32 = none)
  (hresp : (s.chan c).responses = []) (hover : s.overlapDue c = false) (hrole : e.role = .single) (hcodes : e.codes = none)
  (hlevel : edgeLevel e (s.chan c).nextLevel = some high)
include hwait hclk hresp hcodes hlevel

theorem State.issueDue_of_placed
    (hplaced : s.placementTarget c (s.edgeEngine c e) (s.rising c high) e.t32 ≤ s.now32 + horizon32) : s.issueDue c = true := by
  simp only [State.issueDue, State.chanExpand_of_idle hclk hresp, hwait, State.inHorizon, hcodes, hlevel, Option.getD_some, decide_eq_true hplaced,
    Bool.or_true]

include hover hrole

theorem State.issueNext_single (hkind : e.kind ≠ .on) (hmoves : ¬(high = (s.chan c).nextLevel ∧ (s.chan c).nextDriven = true))
    (hintime : s.now32 + 229376 * fine ≤ s.placementTarget c (s.edgeEngine c e) (s.rising c high) e.t32)
    (hspacing : spacingOk (s.chan c) (e.origin == .clock || e.origin == .cal) (s.codes c e high (s.edgeEngine c e) (s.chan c).dither).1 = true) :
    s.issueNext c = (s.setChan c { s.chan c with dither := (s.codes c e high (s.edgeEngine c e) (s.chan c).dither).2 }).issueAt c e (some high)
      (s.edgeEngine c e) (s.codes c e high (s.edgeEngine c e) (s.chan c).dither).1 (some (s.chan c).dither) := by
  simp only [State.issueNext, State.chanExpand_of_idle hclk hresp, hover, hwait, if_neg hkind, hlevel, if_neg hmoves, if_neg (Int.not_lt.2 hintime),
    hcodes, hrole, State.issueSingle, hspacing, Bool.false_eq_true, if_false, if_true]

theorem runs_edgeIssue (hseq : (s.chan c).seqBuf = []) (hkind : e.kind ≠ .on)
    (hmoves : ¬(high = (s.chan c).nextLevel ∧ (s.chan c).nextDriven = true))
    (hintime : s.now32 + 229376 * fine ≤ s.placementTarget c (s.edgeEngine c e) (s.rising c high) e.t32)
    (hplaced : s.placementTarget c (s.edgeEngine c e) (s.rising c high) e.t32 ≤ s.now32 + horizon32)
    (hspacing : spacingOk (s.chan c) (e.origin == .clock || e.origin == .cal) (s.codes c e high (s.edgeEngine c e) (s.chan c).dither).1 = true) :
    Runs (.edgeIssue c) s (fun t => (t.chan c).wait = rest ∧ (t.chan c).nextLevel = high ∧
      (∃ i : Issued, (t.chan c).issued = (s.chan c).issued ++ [i] ∧ i.edge = e ∧ i.high = some high ∧ i.engine = s.edgeEngine c e ∧
        i.pos = (s.codes c e high (s.edgeEngine c e) (s.chan c).dither).1 ∧ i.raw = s.lineCode c i.engine i.pos) ∧
      (t.chan c).dither = (s.codes c e high (s.edgeEngine c e) (s.chan c).dither).2 ∧ KeepsRegs s t [] ∧ KeepsMemory s t) := by
  have hbuf : s.seqBufDue c = false := by simp [State.seqBufDue, hseq]
  have hdue := State.issueDue_of_placed hwait hclk hresp hcodes hlevel hplaced
  have hc : c < s.chans.length := State.chan_lt fun hnone => by simp [hnone] at hwait
  refine .of_effect (fun s => if s.seqBufDue c then s.seqPromote c else if s.issueDue c then s.issueNext c else s) rfl ?_
  simp only [hbuf, hdue, Bool.false_eq_true, if_false, if_true]
  rw [State.issueNext_single hwait hclk hresp hover hrole hcodes hlevel hkind hmoves hintime hspacing]
  generalize s.codes c e high (s.edgeEngine c e) (s.chan c).dither = p
  obtain ⟨i, hchan, hedge, hhigh, hengine, hpos, hraw⟩ := State.issueAt_shows (s := s.setChan c { s.chan c with dither := p.2 })
    (by simpa [State.setChan] using hc) e (some high) (s.edgeEngine c e) p.1 (some (s.chan c).dither)
  rw [State.chan_setChan _ _ _ hc] at hchan
  rw [hchan]
  exact ⟨by simp [hwait], rfl, ⟨i, rfl, hedge, hhigh, hengine, hpos, by rw [hraw, hengine, hpos]; rfl⟩, rfl, .of_same rfl, fun _ => rfl⟩

end

end

/-! ### Launch -/

/-- A part of a channel's record that an update leaves stands, whether the channel has a record or not. -/
theorem State.chan_setChan_part {α : Type} (s : State) (c : Nat) (g : ChanSt → α) {x : ChanSt} (h : g x = g (s.chan c)) :
    g ((s.setChan c x).chan c) = g (s.chan c) := by
  by_cases hc : c < s.chans.length
  · rw [State.chan_setChan _ _ _ hc, h]
  · have hsame : (s.setChan c x).chans = s.chans := List.set_eq_of_length_le (Nat.le_of_not_lt hc)
    rw [State.chan_of_chans hsame]

section
variable (s : State) (c : Nat)

/-- Of the record of a channel only its responses see that an edge is gone. -/
theorem State.respEdgeDone_chan {α : Type} (o : EdgeOrigin) (g : ChanSt → α) (h : ∀ (x : ChanSt) r, g { x with responses := r } = g x) :
    g ((s.respEdgeDone c o).chan c) = g (s.chan c) := by
  unfold State.respEdgeDone
  split
  · exact (State.chan_setChan_part _ _ _ (h _ _)).trans (State.chan_setChan_part _ _ _ (h _ _))
  · rfl

theorem State.respEdgeDone_regs (o : EdgeOrigin) : (s.respEdgeDone c o).regs = s.regs := by
  unfold State.respEdgeDone
  split <;> rfl

theorem State.respEdgeDone_out (o : EdgeOrigin) : (s.respEdgeDone c o).out = s.out := by
  unfold State.respEdgeDone
  split <;> rfl

/-- The looped input alone sees what is looped back. -/
theorem State.loopBack_leaves (rising : Bool) (pos : Int) : (s.loopBack c rising pos).regs = s.regs ∧
    (s.loopBack c rising pos).chans = s.chans ∧ (s.loopBack c rising pos).out = s.out := by
  unfold State.loopBack
  split <;> exact ⟨rfl, rfl, rfl⟩

/-- LAST_EDGE, its bound and EDGE_COUNT after an edge. -/
def State.edgeShown (s : State) (c : Nat) (i : Issued) : State :=
  ((s.putInst (pCHAN c) CHAN.LAST_EDGE.INSTANT i.target).put (pCHAN c) CHAN.LAST_EDGE_TEB.TEB_PS i.teb).incWrap (pCHAN c) CHAN.EDGE_COUNT.COUNT

theorem State.edgeShown_leaves (i : Issued) : (s.edgeShown c i).chans = s.chans ∧ (s.edgeShown c i).out = s.out := by
  simp [State.edgeShown, State.putInst, State.incWrap]

theorem State.edgeShown_shows (i : Issued) (hteb : i.teb < 2 ^ 32) : KeepsPages s (s.edgeShown c i) [pCHAN c] ∧
    (s.edgeShown c i).get (pCHAN c) CHAN.EDGE_COUNT.COUNT = (s.get (pCHAN c) CHAN.EDGE_COUNT.COUNT + 1) % 2 ^ 64 ∧
    (s.edgeShown c i).get (pCHAN c) CHAN.LAST_EDGE_TEB.TEB_PS = i.teb := by
  have hinst : KeepsBut (pCHAN c) (fieldOffsets CHAN.LAST_EDGE.INSTANT) s (s.putInst (pCHAN c) CHAN.LAST_EDGE.INSTANT i.target) :=
    KeepsBut.putWide _ (by decide) (by decide)
  have hbefore := hinst.trans (KeepsBut.put (f := CHAN.LAST_EDGE_TEB.TEB_PS) i.teb (by decide))
  have hcount := fun (u : State) v => KeepsBut.putWide (p := pCHAN c) (s := u) (f := CHAN.EDGE_COUNT.COUNT) v (by decide) (by decide)
  unfold State.edgeShown State.incWrap
  refine ⟨(hbefore.trans (hcount _ _)).keepsPages, ?_, ?_⟩
  · rw [State.get_put_wide _ _ _ (by decide) (by decide), hbefore.get_wide_eq (by decide) (by decide) (by decide)]
    exact Nat.mod_mod _ _
  · rw [(hcount _ _).get_eq (by decide) (by decide), State.get_put_self _ _ _ _ (by decide) (by decide)]
    exact Nat.mod_eq_of_lt hteb

/-- What an emitted edge leaves before its registers show it: the pin at its level, and the edge among the outputs. -/
theorem State.emitEdge_eq (i : Issued) (h sameSlot : Bool) : ∃ (u : State) (n : Nat) (m : List Int),
    s.emitEdge c i h sameSlot = u.edgeShown c i ∧ u.regs = s.regs ∧
    u.chans = (s.setChan c { s.chan c with
      level := h, driven := true, lastPos := some i.pos, lastT32 := some i.edge.t32, slotEdges := n, muxed := m }).chans ∧
    u.out = .edge c i.engine i.pos (s.rising c h) i.raw :: s.out := by
  unfold State.emitEdge
  extract_lets ch mux s1 s2
  obtain ⟨hregs, hchans, hout⟩ := (s1.emit (.edge c i.engine i.pos (s.rising c h) i.raw)).loopBack_leaves c (s.rising c h)
    (s.ballPos c i.engine (s.rising c h) i.pos)
  exact ⟨s2.countLaunch c i, _, _, rfl, hregs, hchans, hout⟩

end

theorem oneWord_spacingDrops (c : Nat) : OneWord (QUAD.SPACING_DROPS.COUNT (chanLane c)) :=
  ⟨by simp, by simp, by unfold chanLane; simp only; omega⟩

/-- What the drop of an edge leaves of the registers: the count of the lane and its cause, and for the copy of a mirror the mirror's cause. -/
theorem State.edgeDropped_shows (s : State) (c : Nat) (e : Edge) :
    ((s.spacingDrop c 1).desync c e).get (pQUAD (chanQuad c)) (QUAD.SPACING_DROPS.COUNT (chanLane c)) =
      min (s.get (pQUAD (chanQuad c)) (QUAD.SPACING_DROPS.COUNT (chanLane c)) + 1) (2 ^ 32 - 1) ∧
    KeepsPages s ((s.spacingDrop c 1).desync c e) [pQUAD (chanQuad c), pCHAN c] ∧
    (e.isMirror = false → KeepsPages s ((s.spacingDrop c 1).desync c e) [pQUAD (chanQuad c)]) := by
  have hpage : pQUAD (chanQuad c) ≠ pCHAN c := by unfold pQUAD pCHAN chanQuad; omega
  have hword := oneWord_spacingDrops c
  have hoff : (QUAD.SPACING_DROPS.COUNT (chanLane c)).off ∉ [0x018] := by simp only [List.mem_singleton]; omega
  have hcause : SamePage (pQUAD (chanQuad c)) (s.spacingDrop c 1) ((s.spacingDrop c 1).desync c e) := SamePage.onlyIf _ (SamePage.irq 3 hpage)
  have hdrop : KeepsPages s (s.spacingDrop c 1) [pQUAD (chanQuad c)] :=
    ((KeepsBut.put (f := QUAD.SPACING_DROPS.COUNT (chanLane c)) _ hword).trans (KeepsBut.irq 4)).keepsPages
  have hmirror : KeepsPages (s.spacingDrop c 1) ((s.spacingDrop c 1).desync c e) [pCHAN c] := ((KeepsBut.irq 3).onlyIf e.isMirror).keepsPages
  refine ⟨?_, (hdrop.mono (by simp)).trans (hmirror.mono (by simp)), fun hno => ?_⟩
  · rw [hcause.get_eq hword, State.spacingDrop, (KeepsBut.irq 4).get_eq hword hoff, State.get_incSat_self _ _ _ hword]
    rfl
  · rwa [State.desync, State.onlyIf, hno]

theorem State.edgeDropped_chans (s : State) (c : Nat) (e : Edge) : ((s.spacingDrop c 1).desync c e).chans = s.chans := by
  have hdrop : (s.spacingDrop c 1).chans = s.chans := State.irq_chans _ _ _
  unfold State.desync State.onlyIf
  split
  · exact (State.irq_chans _ _ _).trans hdrop
  · exact hdrop

section
variable {s : State} {c : Nat} {i : Issued} {rest : List Issued} {h : Bool} (hissued : (s.chan c).issued = i :: rest) (hhigh : i.high = some h)
  (hkind : i.edge.kind ≠ .on)
include hissued hhigh hkind

/-- An edge in a slot of its own, 300 ps or more after the one before, is emitted. -/
theorem State.launch_emits (hapart : ∀ p, (s.chan c).lastPos = some p → p + minSpacing ≤ i.pos ∧ posSlot p ≠ posSlot i.pos) :
    s.launch c = ((s.setChan c { s.chan c with issued := rest }).emitEdge c i h false).respEdgeDone c i.edge.origin := by
  simp only [State.launch, hissued, hhigh, if_neg hkind]
  cases hlast : (s.chan c).lastPos with
  | none => simp
  | some p =>
    obtain ⟨hspacing, hslot⟩ := hapart p hlast
    simp [hspacing, beq_false_of_ne hslot]

/-- An edge closer than 300 ps to the one before is dropped and counted. -/
theorem State.launch_drops {p : Int} (hlast : (s.chan c).lastPos = some p) (hclose : i.pos < p + minSpacing) :
    s.launch c = (((s.setChan c { s.chan c with issued := rest }).spacingDrop c 1).desync c i.edge).respEdgeDone c i.edge.origin := by
  simp only [State.launch, hissued, hhigh, if_neg hkind, hlast, decide_eq_false (Int.not_le.2 hclose), Bool.false_and, Bool.false_eq_true, if_false]

section
variable (hdue : s.launchDue c = true)
include hdue

theorem runs_edgeLaunch_emits (hapart : ∀ p, (s.chan c).lastPos = some p → p + minSpacing ≤ i.pos ∧ posSlot p ≠ posSlot i.pos)
    (hteb : i.teb < 2 ^ 32) :
    Runs (.edgeLaunch c) s (fun t => (t.chan c).level = h ∧ (t.chan c).driven = true ∧ (t.chan c).lastPos = some i.pos ∧
      (t.chan c).issued = rest ∧ t.get (pCHAN c) CHAN.EDGE_COUNT.COUNT = (s.get (pCHAN c) CHAN.EDGE_COUNT.COUNT + 1) % 2 ^ 64 ∧
      t.get (pCHAN c) CHAN.LAST_EDGE_TEB.TEB_PS = i.teb ∧ .edge c i.engine i.pos (s.rising c h) i.raw ∈ t.out ∧
      KeepsPages s t [pCHAN c] ∧ KeepsMemory s t) := by
  have hmem : (s.launch c).holds s.bar2 s.pending := State.launch_holds s.holds_self _
  have hc : c < s.chans.length := State.chan_lt fun hnone => by simp [hnone] at hissued
  refine .of_effect (fun s => if s.launchDue c then s.launch c else s) rfl ?_
  simp only [hdue, if_true]
  rw [State.launch_emits hissued hhigh hkind hapart] at hmem ⊢
  obtain ⟨u, n, m, heq, hregs, hchans, hout⟩ := (s.setChan c { s.chan c with issued := rest }).emitEdge_eq c i h false
  rw [heq] at hmem ⊢
  obtain ⟨hpages, hcount, hbound⟩ := u.edgeShown_shows c i hteb
  obtain ⟨hshownChans, hshownOut⟩ := u.edgeShown_leaves c i
  have hu : KeepsBut (pCHAN c) [] s u := .of_regs hregs
  have hchan : (u.edgeShown c i).chan c = { s.chan c with
      issued := rest, level := h, driven := true, lastPos := some i.pos, lastT32 := some i.edge.t32, slotEdges := n, muxed := m } := by
    rw [State.chan_of_chans (hshownChans.trans hchans), State.chan_setChan _ _ _ (by simpa [State.setChan] using hc), State.chan_setChan _ _ _ hc]
  generalize u.edgeShown c i = t at *
  have hdone : KeepsBut (pCHAN c) [] t (t.respEdgeDone c i.edge.origin) := .of_regs (State.respEdgeDone_regs _ _ _)
  refine ⟨?_, ?_, ?_, ?_, ?_, ?_, ?_, fun p o ho hnot => ?_, .of_holds hmem⟩
  · rw [State.respEdgeDone_chan _ _ _ (·.level) fun _ _ => rfl, hchan]
  · rw [State.respEdgeDone_chan _ _ _ (·.driven) fun _ _ => rfl, hchan]
  · rw [State.respEdgeDone_chan _ _ _ (·.lastPos) fun _ _ => rfl, hchan]
  · rw [State.respEdgeDone_chan _ _ _ (·.issued) fun _ _ => rfl, hchan]
  · rw [hdone.get_wide_eq (by decide) (by decide) (by simp), hcount, hu.get_wide_eq (by decide) (by decide) (by simp)]
  · rw [hdone.get_eq (by decide) (by simp), hbound]
  · rw [State.respEdgeDone_out, hshownOut, hout]
    exact List.mem_cons_self
  · exact ((State.rd_of_regs (State.respEdgeDone_regs _ _ _) p o).trans (hpages p o ho hnot)).trans (State.rd_of_regs hregs p o)

theorem runs_edgeLaunch_drops {p : Int} (hlast : (s.chan c).lastPos = some p) (hclose : i.pos < p + minSpacing) :
    Runs (.edgeLaunch c) s (fun t => (t.chan c).level = (s.chan c).level ∧ (t.chan c).issued = rest ∧
      t.get (pQUAD (chanQuad c)) (QUAD.SPACING_DROPS.COUNT (chanLane c)) =
        min (s.get (pQUAD (chanQuad c)) (QUAD.SPACING_DROPS.COUNT (chanLane c)) + 1) (2 ^ 32 - 1) ∧
      KeepsPages s t [pQUAD (chanQuad c), pCHAN c] ∧ (i.edge.isMirror = false → KeepsPages s t [pQUAD (chanQuad c)]) ∧ KeepsMemory s t) := by
  have hmem : (s.launch c).holds s.bar2 s.pending := State.launch_holds s.holds_self _
  have hc : c < s.chans.length := State.chan_lt fun hnone => by simp [hnone] at hissued
  refine .of_effect (fun s => if s.launchDue c then s.launch c else s) rfl ?_
  simp only [hdue, if_true]
  rw [State.launch_drops hissued hhigh hkind hlast hclose] at hmem ⊢
  obtain ⟨hcount, hpages, hown⟩ := (s.setChan c { s.chan c with issued := rest }).edgeDropped_shows c i.edge
  have hchan := State.chan_of_chans ((s.setChan c { s.chan c with issued := rest }).edgeDropped_chans c i.edge) c
  rw [State.chan_setChan _ _ _ hc] at hchan
  generalize ((s.setChan c { s.chan c with issued := rest }).spacingDrop c 1).desync c i.edge = t at *
  have hregs : (t.respEdgeDone c i.edge.origin).regs = t.regs := State.respEdgeDone_regs _ _ _
  refine ⟨?_, ?_, ?_, ?_, fun hmirror => ?_, .of_holds hmem⟩
  · rw [State.respEdgeDone_chan _ _ _ (·.level) fun _ _ => rfl, hchan]
  · rw [State.respEdgeDone_chan _ _ _ (·.issued) fun _ _ => rfl, hchan]
  · rw [(KeepsRegs.of_same (l := []) hregs).get_eq (oneWord_spacingDrops c) (by simp), hcount]
    rfl
  · exact fun q o ho hnot => (State.rd_of_regs hregs q o).trans (hpages q o ho hnot)
  · exact fun q o ho hnot => (State.rd_of_regs hregs q o).trans (hown hmirror q o ho hnot)

end

end

/-- Settles O21: one lemma for the issue, and one each for an edge emitted and an edge dropped. -/
theorem edgesOfALane : Obligations.EdgesOfALane := by
  unfold Obligations.EdgesOfALane
  refine ⟨?issue, ?launch⟩
  case issue =>
    intro s c _ e rest high hwait hclk hresp hseq hover hrole hcodes hkind hlevel hmoves hintime hplaced hspacing
    exact runs_edgeIssue hwait hclk hresp hover hrole hcodes hlevel hseq hkind hmoves hintime hplaced hspacing
  case launch =>
    intro s c _ i rest h hissued hhigh hkind hdue
    exact ⟨runs_edgeLaunch_emits hissued hhigh hkind hdue, fun _ => runs_edgeLaunch_drops hissued hhigh hkind hdue⟩

end Sys2Proof.Machine
end

section
/-! PROOFS. Commands of a quad and the loopback (O16). -/

namespace Sys2Proof.Machine

/-! ### SWAP_CMD -/

/-- SWAP_CMD. -/
def swapCmdReg : RegDesc := ⟨QUAD.SWAP_CMD.off, 0, 1, 1, [⟨11, 8, .cmd, 0⟩, ⟨7, 0, .cmd, 0⟩]⟩

theorem regAt_swapCmd {q : Nat} (hq : q < 12) : regAt (pQUAD q) QUAD.SWAP_CMD.off = some (.quad, q, swapCmdReg, 0, 0) := by
  simp only [regAt, pageBlock_pQUAD hq]
  rfl

/-- The fields of the word that gives a command of SWAP_CMD. -/
theorem swapWord_fields {arg code : Nat} (harg : arg < 16) (hcode : code < 256) :
    bitsOf (packRec [(8, 4, arg), (0, 8, code)]) 11 8 = arg ∧ bitsOf (packRec [(8, 4, arg), (0, 8, code)]) 7 0 = code := by
  simp only [packRec, List.foldl, bitsOf]
  omega

section
variable (t : State) (path : Path) (page v agent off : Nat) (r : Verdict)

theorem State.lastCmd_quads (code : Nat) : (t.lastCmd path page off agent code r).quads = t.quads := by
  unfold State.lastCmd
  extract_lets key old w _ _ s1
  split
  · exact State.put_quads _ _ _ _
  · rfl

/-- The report of a command leaves the records of the quads. -/
theorem State.commanded_quads : (t.commanded path page off v agent r).quads = t.quads := by
  unfold State.commanded State.noteAt
  rw [State.lastCmd_quads]
  split
  · split <;> rfl
  · rfl

end

section
variable {c : Instr} {s t : State} {path : Path} {q v : Nat} {P : State → Prop}

/-- A command of SWAP_CMD is accepted where its meaning accepts it. -/
theorem Accepts.of_swapCmd (hq : q < 12) (hexec : exec c s = guarded c s fun s => s.wrote path (pQUAD q) QUAD.SWAP_CMD.off v)
    (hmeaning : c.wf = true → s.swapCmd q v = accept t)
    (hP : P (t.commanded path (pQUAD q) QUAD.SWAP_CMD.off v (s.agentOf path) ⟨.ok, none⟩)) : Accepts c s path (pQUAD q) QUAD.SWAP_CMD.off v P := by
  intro hwf hpass hval
  obtain ⟨hres, hfmt, hrange⟩ := valueOk_body (regAt_swapCmd hq) (by decide) hval
  refine .of_exec (hexec.trans (guarded_of_wf s _ hwf)) ?_
  rw [State.wrote_of_verdict (regAt_swapCmd hq) rfl rfl hpass ((State.writeReg_of_body _ (by decide) hres hfmt hrange).trans (hmeaning hwf))]
  exact ⟨(State.lastCmd_shows ..).1, hP⟩

/-- The registers that a command of SWAP_CMD leaves: its word, LAST_CMD and those its meaning changes. -/
theorem KeepsBut.commanded {l : List Nat} (h : KeepsBut (pQUAD q) l s t) (agent : Nat) :
    KeepsBut (pQUAD q) (l ++ [QUAD.SWAP_CMD.off, 0x02C]) s (t.commanded path (pQUAD q) QUAD.SWAP_CMD.off v agent ⟨.ok, none⟩) :=
  h.trans (t.commanded_keepsRegs path (pQUAD q) v agent (by decide) none)

end

/-! ### A sweep begun -/

section
variable (s : State) (q e : Nat) (retest : Bool)

theorem State.showSweep_keepsBut : KeepsBut (pQUAD q) [QUAD.CAL_STATE.off] s (s.showSweep q) := by
  unfold State.showSweep
  split
  · exact KeepsBut.put (f := QUAD.CAL_STATE.SWEEPING) _ (by decide)
  · exact ((KeepsBut.put (f := QUAD.CAL_STATE.SWEEPING) _ (by decide)).trans (KeepsBut.put (f := QUAD.CAL_STATE.SWEEP_ENGINE) _ (by decide))).mono
      (by decide)

theorem State.beginSweep_keepsBut : KeepsBut (pQUAD q) [QUAD.CAL_STATE.off] s (s.beginSweep q e retest) :=
  (KeepsBut.setQuad q _).trans (State.showSweep_keepsBut _ q)

theorem State.showSweep_quads : (s.showSweep q).quads = s.quads := by
  unfold State.showSweep
  split <;> simp [State.putFlag_eq]

theorem State.beginSweep_sweeps (hq : q < s.quads.length) : ((s.beginSweep q e retest).quad q).sweeps = (s.quad q).sweeps ++ [(e, retest)] := by
  unfold State.beginSweep
  rw [State.quad_of_quads (State.showSweep_quads _ q), State.quad_setQuad _ _ _ hq]

/-- CAL_STATE shows the sweep at the head of the list. -/
theorem State.showSweep_shows {w : Nat × Bool} {l : List (Nat × Bool)} (h : (s.quad q).sweeps = w :: l) :
    (s.showSweep q).flag (pQUAD q) QUAD.CAL_STATE.SWEEPING = true ∧
    (s.showSweep q).get (pQUAD q) QUAD.CAL_STATE.SWEEP_ENGINE = w.1 % 8 := by
  simp only [State.showSweep, h]
  refine ⟨?_, ?_⟩
  · rw [State.flag, State.get_put_sameWord _ _ _ (by decide)]
    exact State.flag_putFlag_self _ _ true (by decide)
  · rw [State.get_put_self _ _ _ _ (by decide) (by decide)]
    rfl

theorem State.beginSweep_shows (hq : q < s.quads.length) : (s.beginSweep q e retest).flag (pQUAD q) QUAD.CAL_STATE.SWEEPING = true ∧
    (e < 8 → (s.quad q).sweeps = [] → (s.beginSweep q e retest).get (pQUAD q) QUAD.CAL_STATE.SWEEP_ENGINE = e) := by
  obtain ⟨u, heq, hsweeps⟩ : ∃ u : State, s.beginSweep q e retest = u.showSweep q ∧ (u.quad q).sweeps = (s.quad q).sweeps ++ [(e, retest)] :=
    ⟨_, rfl, by rw [State.quad_setQuad _ _ _ hq]⟩
  rw [heq]
  cases hold : (s.quad q).sweeps with
  | nil =>
    obtain ⟨hflag, hengine⟩ := u.showSweep_shows q (hsweeps.trans (by rw [hold, List.nil_append]))
    exact ⟨hflag, fun he _ => hengine.trans (Nat.mod_eq_of_lt he)⟩
  | cons w l =>
    obtain ⟨hflag, -⟩ := u.showSweep_shows q (hsweeps.trans (by rw [hold, List.cons_append]))
    exact ⟨hflag, fun _ hnone => absurd hnone (List.cons_ne_nil _ _)⟩

end

/-! ### The commands -/

section
variable {s : State} {path : Path} {q : Nat} (hsound : s.sound = true) (hstage : 3 ≤ s.stage) (hq : q < 12) (hswap : (s.quad q).swap = none)
include hsound hstage hq hswap

theorem accepts_swapLane {lane : Nat} (hheld : s.calHeld q = false) (harm : (s.quad q).armNext = none) (hready : s.spareReady q = true) :
    Accepts (.swapLane path q lane) s path (pQUAD q) QUAD.SWAP_CMD.off (packRec [(8, 4, lane), (0, 8, 1)]) (fun t =>
      (t.quad q).armNext = some (lane, 3, s.clk.slot) ∧
      KeepsRegs s t [(pQUAD q, QUAD.SWAP_CMD.off), (pQUAD q, 0x010), (pQUAD q, 0x02C)] ∧ KeepsMemory s t) := by
  have harmed : KeepsBut (pQUAD q) [QUAD.STATUS.off] s (s.armSwap q lane 3) := (KeepsBut.setQuad q _).trans (State.refreshDeferred_keepsBut _ q)
  refine .of_swapCmd (t := s.armSwap q lane 3) hq rfl (fun hwf => ?_)
    ⟨?_, (harmed.commanded _).mono (m := [QUAD.SWAP_CMD.off, 0x010, 0x02C]) (by decide),
      .of_holds (State.commanded_holds _ _ _ _ _ _ (State.armSwap_holds s.holds_self _ _ _) _)⟩
  · have hlane : lane < 4 := by
      simp only [Instr.wf, Bool.and_eq_true, decide_eq_true_eq] at hwf
      exact hwf.2
    obtain ⟨harg, hcode⟩ := swapWord_fields (arg := lane) (code := 1) (by omega) (by decide)
    simp [State.swapCmd, hcode, harg, State.cmdSwapLane, Nat.not_le.2 hlane, Nat.not_lt.2 hstage, hswap, harm, hready, hheld]
  · rw [State.quad_of_quads (State.commanded_quads ..), State.armSwap, State.quad_of_quads (State.refreshDeferred_quads _ q),
      State.quad_setQuad _ _ _ (by rwa [State.sound_quads hsound])]

theorem accepts_resweepSpare (hheld : s.calHeld q = false) (hspare : s.spare q < 5) (hstate : s.engState q (s.spare q) ≠ 4)
    (hidle : s.inSweep q (s.spare q) = false) :
    Accepts (.resweepSpare path q) s path (pQUAD q) QUAD.SWAP_CMD.off 2 (fun t => t.flag (pQUAD q) QUAD.CAL_STATE.SWEEPING = true ∧
      (t.quad q).sweeps = (s.quad q).sweeps ++ [(s.spare q, false)] ∧
      ((s.quad q).sweeps = [] → t.get (pQUAD q) QUAD.CAL_STATE.SWEEP_ENGINE = s.spare q) ∧
      KeepsRegs s t [(pQUAD q, QUAD.SWAP_CMD.off), (pQUAD q, QUAD.CAL_STATE.off), (pQUAD q, 0x02C)] ∧ KeepsMemory s t) := by
  have hlen : q < s.quads.length := by rwa [State.sound_quads hsound]
  have hkeep := fun (u : State) agent => (KeepsBut.refl (p := pQUAD q) (l := []) (s := u)).commanded (path := path) (v := 2) agent
  obtain ⟨hflag, hengine⟩ := s.beginSweep_shows q (s.spare q) false hlen
  refine .of_swapCmd (t := s.beginSweep q (s.spare q) false) hq rfl (fun _ => ?_)
    ⟨?_, ?_, fun hnone => ?_, ((s.beginSweep_keepsBut q _ _).commanded _).mono (m := [QUAD.SWAP_CMD.off, QUAD.CAL_STATE.off, 0x02C]) (by decide),
      .of_holds (State.commanded_holds _ _ _ _ _ _ (State.beginSweep_holds s.holds_self _ _ _) _)⟩
  · simp [State.swapCmd, show bitsOf 2 7 0 = 2 from rfl, State.cmdResweep, Nat.not_le.2 hspare, Nat.not_lt.2 hstage, hswap, hstate, hidle, hheld]
  · rw [(hkeep _ _).flag_eq (by decide) (by decide), hflag]
  · rw [State.quad_of_quads (State.commanded_quads ..), State.beginSweep_sweeps _ _ _ _ hlen]
  · rw [(hkeep _ _).get_eq (by decide) (by decide), hengine (by omega) hnone]

theorem accepts_retest {e : Nat} (he : e < 5) (hspare : s.spare q = 7) (hfailed : s.engState q e = 5) :
    Accepts (.retest path q e) s path (pQUAD q) QUAD.SWAP_CMD.off (packRec [(8, 4, e), (0, 8, 3)]) (fun t =>
      t.flag (pQUAD q) QUAD.CAL_STATE.SWEEPING = true ∧ (t.quad q).sweeps = (s.quad q).sweeps ++ [(e, true)] ∧
      ((s.quad q).sweeps = [] → t.get (pQUAD q) QUAD.CAL_STATE.SWEEP_ENGINE = e) ∧ t.engState q e = 2 ∧
      KeepsRegs s t [(pQUAD q, QUAD.SWAP_CMD.off), (pQUAD q, QUAD.CAL_STATE.off), (pQUAD q, QUAD.ENGINE_STATE.off), (pQUAD q, 0x02C)] ∧
      KeepsMemory s t) := by
  have hquads := s.setEngState_quads q e 2
  have hlen : q < (s.setEngState q e 2).quads.length := by rwa [hquads, State.sound_quads hsound]
  have hkeep := fun (u : State) agent =>
    (KeepsBut.refl (p := pQUAD q) (l := []) (s := u)).commanded (path := path) (v := packRec [(8, 4, e), (0, 8, 3)]) agent
  obtain ⟨hflag, hengine⟩ := (s.setEngState q e 2).beginSweep_shows q e true hlen
  have hsweep := (s.setEngState q e 2).beginSweep_keepsBut q e true
  refine .of_swapCmd (t := (s.setEngState q e 2).beginSweep q e true) hq rfl (fun _ => ?_)
    ⟨?_, ?_, fun hnone => ?_, ?_, (((s.setEngState_keepsBut q e 2).trans hsweep).commanded _).mono
      (m := [QUAD.SWAP_CMD.off, QUAD.CAL_STATE.off, QUAD.ENGINE_STATE.off, 0x02C]) (by decide),
      .of_holds (State.commanded_holds _ _ _ _ _ _ (State.beginSweep_holds (State.setEngState_holds s.holds_self _ _ _) _ _ _) _)⟩
  · obtain ⟨harg, hcode⟩ := swapWord_fields (arg := e) (code := 3) (by omega) (by decide)
    simp [State.swapCmd, hcode, harg, State.cmdRetest, Nat.not_le.2 he, Nat.not_lt.2 hstage, hswap, hspare, hfailed]
  · rw [(hkeep _ _).flag_eq (by decide) (by decide), hflag]
  · rw [State.quad_of_quads (State.commanded_quads ..), State.beginSweep_sweeps _ _ _ _ hlen, State.quad_of_quads hquads]
  · rw [(hkeep _ _).get_eq (by decide) (by decide), hengine (by omega) (by rwa [State.quad_of_quads hquads])]
  · rw [State.engState_of_keeps (hkeep _ _) (by decide), State.engState_of_keeps hsweep (by decide),
      State.engState_setEngState_self _ _ he (by decide)]

end

/-! ### The loopback -/

/-- LOOP_CFG. -/
def loopCfgReg : RegDesc := ⟨CAL.LOOP_CFG.off, 0, 1, 1, [⟨31, 31, .rw, 0⟩, ⟨21, 16, .rw, 0⟩, ⟨3, 0, .rw, 0⟩]⟩

theorem regAt_loopCfg : regAt pCAL CAL.LOOP_CFG.off = some (.cal, 0, loopCfgReg, 0, 0) := rfl

theorem State.loopForm_keepsBut (s : State) : KeepsBut pCAL [CAL.LOOP_TERM_RISE.off, CAL.LOOP_TERM_FALL.off] s s.loopForm := by
  unfold State.loopForm State.putForm
  split
  · exact (KeepsBut.put (f := CAL.LOOP_TERM_RISE.TERM_SU) _ (by decide)).trans (KeepsBut.put (f := CAL.LOOP_TERM_FALL.TERM_SU) _ (by decide))
  · exact .refl

theorem State.unresolve_keepsBut (s : State) (i ahead : Nat) : KeepsBut (pTIN i) [TIN.STATUS.off] s (s.unresolve i ahead) :=
  (((KeepsBut.put (f := TIN.STATUS.LEVEL_UNRESOLVED) _ (by decide)).trans (KeepsBut.put (f := TIN.STATUS.LEVEL) _ (by decide))).then_regs rfl).mono
    (by decide)

/-- What a write of LOOP_CFG that enables the loopback leaves. -/
def State.loopOn (s : State) (i : Nat) : State := (s.loopForm.setTin i { s.tin i with loopIn := [] }).unresolve i 1

theorem State.loopOn_keepsPages (s : State) (i : Nat) : KeepsPages s (s.loopOn i) [pCAL, pTIN i] :=
  (s.loopForm_keepsBut.keepsPages.mono (by simp)).trans ((State.unresolve_keepsBut _ i 1).keepsPages.mono (by simp))

theorem State.loopOn_loopCfg (s : State) {i : Nat} (hi : i < 16) : (s.loopOn i).rd pCAL CAL.LOOP_CFG.off = s.rd pCAL CAL.LOOP_CFG.off :=
  ((State.unresolve_keepsBut _ i 1).keepsPages _ _ (by decide) (by simp [pCAL, pTIN]; omega)).trans
    (s.loopForm_keepsBut.rd_eq (by decide) (by decide))

theorem accepts_loopEnable {s : State} {path : Path} {v : Nat} (hstage : 3 ≤ s.stage) (hon : bitOf v 31 = true)
    (hoff : s.flag pCAL CAL.LOOP_CFG.ENABLE = false) (hinput : s.flag (pTIN (bitsOf v 3 0)) TIN.CONTROL.ENABLE = true)
    (hchan : s.resOwner 1 (bitsOf v 21 16) = s.agentOf path) (htin : s.resOwner 3 (bitsOf v 3 0) = s.agentOf path) :
    Accepts (.loopEnable path v) s path pCAL CAL.LOOP_CFG.off v (fun t => t.rd pCAL CAL.LOOP_CFG.off = BitVec.ofNat 32 v ∧
      KeepsPages s t [pCAL, pTIN (bitsOf v 3 0)] ∧ KeepsMemory s t) := by
  intro hwf hpass hval
  obtain ⟨hres, -⟩ := valueOk_body regAt_loopCfg (by decide) hval
  have hi : bitsOf v 3 0 < 16 := bitsOf_lt _ _ _
  let c := s.wctx path pCAL 0 loopCfgReg 0 v
  have hword : (s.put_ c loopCfgReg).rd pCAL CAL.LOOP_CFG.off = BitVec.ofNat 32 v :=
    State.rd_putFields s c rfl (by decide) (by simp [loopCfgReg, FieldDesc.taken]) hres
  have hput : KeepsPages s (s.put_ c loopCfgReg) [pCAL] :=
    KeepsRegs.keepsPages (l := [(pCAL, CAL.LOOP_CFG.off)]) (State.putFields_keepsRegs s c rfl rfl rfl (by decide)) (by simp)
  have hmem : ((s.put_ c loopCfgReg).loopOn (bitsOf v 3 0)).holds s.bar2 s.pending :=
    State.unresolve_holds (State.setTin_holds (State.loopForm_holds (State.put__holds s.holds_self _ _)) _ _) _ _
  refine Accepts.of_body (t := (s.put_ c loopCfgReg).loopOn (bitsOf v 3 0))
    (fun h => guarded_of_wf s (fun s => s.wrote path pCAL CAL.LOOP_CFG.off v) h) regAt_loopCfg rfl rfl (by decide)
    (fun x => ?_) ⟨?_, fun p o ho hnot => ?_, .of_holds (State.reported_holds _ _ _ _ _ _ hmem)⟩ hwf hpass hval
  · change s.writeCal c loopCfgReg = _
    have hlate : ¬s.stage < 2 := by omega
    simp only [State.writeCal, c, State.wctx, loopCfgReg, hon, hoff, hinput, hchan, htin, hlate, beq_self_eq_true,
      Bool.not_true, Bool.not_false, Bool.false_eq_true, ne_eq, not_true_eq_false, and_self, or_self, if_true, if_false]
    rfl
  · rw [State.rd_reported _ _ _ _ _ _ (by decide) (.inr (by decide)), State.loopOn_loopCfg _ hi, hword]
  · rw [State.rd_reported _ _ _ _ _ _ ho (.inl fun h => hnot (by simp [h]))]
    exact (hput.mono (by simp)).trans (State.loopOn_keepsPages _ _) p o ho hnot

/-- Settles O16: the commands of SWAP_CMD through what each does to the quad, and LOOP_ENABLE as a write of LOOP_CFG. -/
theorem quadCommands : Obligations.QuadCommands := by
  intro s hsound hstage path q hq hswap hheld
  exact ⟨fun _ => accepts_swapLane hsound hstage hq hswap hheld, accepts_resweepSpare hsound hstage hq hswap hheld,
    fun _ => accepts_retest hsound hstage hq hswap, fun _ => accepts_loopEnable hstage⟩

end Sys2Proof.Machine
end

section
/-! PROOFS. An action SEQ_START in device safe state (O30). -/

namespace Sys2Proof.Machine

/-- An action whose target turns it away is taken away and ends TARGET_STATE with the result of the refusal (R145). -/
theorem State.runAction_of_refused {s : State} {op : Nat} {f : Disp → State → State × Verdict} {d : Disp} {r : Res}
    (hd : s.dispatchedOf op = some d) (hhanded : d.handed = false) (howner : (s.dropDispatched d).targetDenied d.action.queue d.action = none)
    (hf : f d (s.dropDispatched d) = refuse (s.dropDispatched d) r) (hr : r ≠ .ok) :
    s.runAction op f = (s.dropDispatched d).targetState d r.code := by
  simp only [State.runAction, hd, hhanded, howner, Option.isNone_none, Bool.false_eq_true, if_true, if_false, hf, refuse]

/-- In device safe state every START is refused with STATE (R301). -/
theorem State.seqStartAt_of_deviceSafe {s : State} (h : s.gutter.safe = true) (q mode c : Nat) (s0 : Int) :
    s.seqStartAt q mode c s0 = refuse s .state :=
  if_pos (.inr (.inr (.inr (.inr h))))

/-- In device safe state an action SEQ_START of the owner of its sequencer ends TARGET_STATE. -/
theorem exec_seqStart_of_deviceSafe {s : State} {d : Disp} (hsafe : s.gutter.safe = true) (hd : s.dispatchedOf 0x20 = some d)
    (hhanded : d.handed = false) (howner : (s.dropDispatched d).targetDenied d.action.queue d.action = none) :
    exec .seqStart s = .next ((s.dropDispatched d).targetState d Res.state.code) := by
  have hrefused := State.seqStartAt_of_deviceSafe (s := s.dropDispatched d) hsafe d.action.target 0 d.action.param d.t
  refine (guarded_of_wf s (fun s => s.runAction 0x20 fun d s => s.seqStartAt d.action.target 0 d.action.param d.t) rfl).trans (congrArg _ ?_)
  exact State.runAction_of_refused hd hhanded howner hrefused (by decide)

/-- A SEQ_START of sequencer 0 by queue 0, its instant 1 s after the epoch, with course 0 as the first. -/
def startAction : Disp :=
  { action := { queue := 0, when_ := 0, param := 0, tebLimit := 0xFFFFFFFF, tag := 0, regOff := 0, target := 0, boundPolicy := 0, latePolicy := 0,
                baseIndex := 0, base := 0, op := 0x20, acceptIdx := 0, at_ := some suSec }
    t := suSec
    outcome := 0
    gate := none }

/-- A device at Stage 3 with `startAction` dispatched: agent 1 owns queue 0, sequencer 0, which is enabled with quad 0, and all courses, and
course 0 has a DURATION of 2^24 and 4 granules. -/
def readyToStart : State :=
  (((({ State.reset with
      power := { good := true }
      host := { ranges := [(0, 4096, 1)] }
      bar2 := [(courseBase + 3, 1), (courseBase + 10, 4)]
      sched := { dispatched := [startAction] } }.setOwner 5 0 1).setOwner 10 0 1).put pDEV DEV.STATUS.STAGE 3).putFlag (pSEQ 0)
    SEQ.CONTROL.ENABLE true).put (pSEQ 0) SEQ.QUAD_MASK.QUADS 1

/-- That device, in device safe state before its action takes effect. -/
def safeBeforeStart : State := { readyToStart with gutter := { safe := true } }

/-- Refutes O30, by its clause of SEQ_START, which does not ask that the device be out of device safe state: there R301 refuses every START with
STATE, and the sequencer is not armed. -/
theorem not_actionsTakeEffect : ¬ Obligations.ActionsTakeEffect := by
  intro h
  have hdue : safeBeforeStart.dispatchedOf 0x20 = some startAction := by decide +kernel
  obtain ⟨-, hseq, -⟩ := h.2 safeBeforeStart (by decide +kernel) startAction rfl
  obtain ⟨hstart, -⟩ := hseq (by decide) (by decide +kernel)
  obtain ⟨t, ht, harmed, -⟩ := hstart hdue (by decide +kernel) (by decide +kernel) (by decide +kernel) (by decide +kernel) (by decide +kernel)
    (by decide +kernel) rfl
  rw [← Host.Outcome.next.inj ((exec_seqStart_of_deviceSafe (by decide +kernel) hdue rfl (by decide +kernel)).symm.trans ht)] at harmed
  exact absurd harmed (by decide +kernel)

end Sys2Proof.Machine
end

section
/-! PROOFS. The commands of a sequencer (O23): START in device safe state. -/

namespace Sys2Proof.Machine

/-- The device of `safeBeforeStart` with window 0 bound to agent 1, which sets START_AT of sequencer 0 to 1 s after the epoch. -/
def hostBeforeStart : State := (safeBeforeStart.put pOWN (OWN.WINDOW.AGENT 0) 1).putInst (pSEQ 0) SEQ.START_AT.INSTANT suSec

/-- Refutes O23, by its clause of START, which does not ask that the device be out of device safe state: there R301 refuses START with STATE, and
LAST_CMD does not report OK. -/
theorem not_sequencerCommands : ¬ Obligations.SequencerCommands := by
  intro h
  have hrefused : (hostBeforeStart.wrote (.spi 0) (pSEQ 0) SEQ.CMD.off 1).result (pSEQ 0) = Res.state.code := by decide
  obtain ⟨hstart, -⟩ := h hostBeforeStart (by decide) (.spi 0) 0 (by decide)
  obtain ⟨t, ht, hok, -⟩ := hstart (by decide) (.inl (by decide)) (by decide) (by decide) (by decide)
    (fun hmode => absurd (by decide) hmode) (fun _ => by decide) rfl (by decide) (by decide)
  rw [← Host.Outcome.next.inj ht] at hok
  exact absurd (hrefused.symm.trans hok) (by decide)

end Sys2Proof.Machine
end

section
/-! PROOFS. The records of a bank (O26): memory errors in a core held in reset. -/

namespace Sys2Proof.Machine

/-- Refutes O26, by its clause of COURSE_TABLE_ECC, which does not ask that the supplies of the core be good: right after power-on they are not, the
core is held in reset (R311), and no error is counted. -/
theorem not_records : ¬ Obligations.Records := by
  intro h
  obtain ⟨-, hcourse⟩ := h.2 State.reset true
  obtain ⟨t, ht, herr, -⟩ := hcourse 0 rfl
  rw [← Host.Outcome.next.inj ht] at herr
  exact absurd herr (by decide)

end Sys2Proof.Machine
end

section
/-! PROOFS. SYNC (O27): a crossing of SYNC_IN while both cores of its interpolator have failed. -/

namespace Sys2Proof.Machine

/-- With both cores of its interpolator failed SYNC_IN captures no crossing (R131, R170). -/
theorem State.syncCross_inLast_of_faulty {s : State} (h : s.portFaulty 0 = true) (u : Nat) (rising : Bool) (growth : Nat) :
    (s.syncCross u rising growth).sync.inLast = s.sync.inLast := by
  simp only [State.syncCross, h, Bool.or_true, if_true]
  split
  · rfl
  · split
    · rfl
    · split <;> rfl

/-- A device at Stage 3 whose SYNC_IN, enabled for rising crossings and resolved, has lost both cores of its interpolator. -/
def syncInFaulty : State :=
  ((({ State.reset with
      power := { good := true, ports := { failed := true } :: { failed := true } :: List.replicate 16 {} } }.put pDEV DEV.STATUS.STAGE 3).putFlag
    pSYNC SYNC.SYNC_IN_CFG.ENABLE true).put pSYNC SYNC.SYNC_IN_CFG.SENSE 1).putFlag pSYNC SYNC.STATUS.IN_UNRESOLVED false

/-- Refutes O27, by its clause of a crossing that is counted, which does not ask that a core of the interpolator of SYNC_IN be in service: with both
failed none is captured. -/
theorem not_syncPins : ¬ Obligations.SyncPins := by
  intro h
  have hnone : syncInFaulty.sync.inLast = none := by decide
  obtain ⟨hcross, -⟩ := h syncInFaulty
  obtain ⟨t, ht, -, -, -, -, hlast, -⟩ := hcross 0 true 0 (by decide) (by decide) (by decide) (by decide)
    (fun _ hp => absurd (hnone.symm.trans hp) (Option.some_ne_none _).symm) rfl
  have hstands := State.syncCross_inLast_of_faulty (s := syncInFaulty) (by decide) 0 true 0
  rw [← Host.Outcome.next.inj ht] at hlast
  exact Option.some_ne_none _ ((hlast.symm.trans hstands).trans hnone)

end Sys2Proof.Machine
end

section
/-! PROOFS. Playback (O25): a park after a course whose number no Course entry has. -/

namespace Sys2Proof.Machine

/-- A course with CONSUME and the number `id`, all its other fields 0. -/
def consumedCourse (id : Nat) : Course := { courseOf id 0 with consume := true }

/-- The number of a course whose READY bit would stand 4 085 words after READY_0 of COURSE, at bit 31 of CONTROL of SCHED. -/
def strayCourse : Nat := 32 * 4085 + 31

/-- Sequencer 0 RUNNING at the end of the course `strayCourse`, about to park before course 0, in a device whose scheduler is enabled. -/
def strayBeforePark : State :=
  ({ State.reset with
      seqs := { started := true, park := true
                cur := some ⟨consumedCourse strayCourse, 0, .start, none, List.replicate 12 {}⟩
                chain := [⟨consumedCourse 0, 0, .next, none, List.replicate 12 {}⟩] } :: List.replicate 3 {} }.put (pSEQ 0)
    SEQ.STATUS.STATE 2).putFlag pSCHED SCHED.CONTROL.ENABLE true

/-- Refutes O25, by its clause of the park, which asks of the course that ends only that it is there: nothing holds its number below the 4 096 of
the Course table (R113), and the READY bit that CONSUME then clears (R121) lies outside the page COURSE. -/
theorem not_playback : ¬ Obligations.Playback := by
  intro h
  obtain ⟨-, -, -, hpark, -⟩ := h strayBeforePark (by decide) 0 (by decide)
  obtain ⟨t, ht, -, -, -, hpages, -⟩ := hpark _ (by decide) rfl rfl
  have hstands := hpages pSCHED SCHED.CONTROL.off (by decide) (by decide)
  rw [← Host.Outcome.next.inj ht] at hstands
  exact absurd hstands (by decide)

end Sys2Proof.Machine
end

section
/-! SUPPORT. Event records (R135), the records of the sequencers and the READY bits (R121): what the operations on each leave, and what reads after
them. -/

namespace Sys2Proof.Machine

/-! ### The records of the sequencers -/

theorem State.seq_of_seqs {s t : State} (h : t.seqs = s.seqs) (q : Nat) : t.seq q = s.seq q := by rw [State.seq, h, State.seq]

/-- A part of a sequencer's record that an update leaves stands in every record. -/
theorem State.seq_setSeq_part {α : Type} (s : State) {q : Nat} (g : SeqSt → α) {x : SeqSt} (h : g x = g (s.seq q)) (k : Nat) :
    g ((s.setSeq q x).seq k) = g (s.seq k) := by
  by_cases hk : k = q
  · subst hk
    by_cases hlen : k < s.seqs.length
    · rw [State.seq_setSeq _ _ _ hlen, h]
    · have hsame : (s.setSeq k x).seqs = s.seqs := List.set_eq_of_length_le (Nat.le_of_not_lt hlen)
      rw [State.seq_of_seqs hsame]
  · rw [State.seq_setSeq_ne _ _ _ _ hk]

@[simp] theorem State.sendMsix_seqs (s : State) (v : Nat) : (s.sendMsix v).seqs = s.seqs := by
  unfold State.sendMsix
  split <;> rfl

@[simp] theorem State.irq_seqs (s : State) (p bit : Nat) : (s.irq p bit).seqs = s.seqs := by
  unfold State.irq
  dsimp only
  split
  · exact State.sendMsix_seqs _ _
  · rfl

@[simp] theorem State.err_seqs (s : State) (p bit : Nat) : (s.err p bit).seqs = s.seqs := by
  unfold State.err
  extract_lets v s1 s2
  have h2 : s2.seqs = s.seqs := by
    simp only [s2]
    split <;> rfl
  split
  · exact (State.sendMsix_seqs _ _).trans h2
  · exact h2

theorem State.forEach_seqs {α : Type} (s : State) (l : List α) (f : α → State → State) (h : ∀ a u, (f a u).seqs = u.seqs) :
    (s.forEach l f).seqs = s.seqs :=
  foldl_keeps (fun u : State => u.seqs = s.seqs) _ (fun u a hu => (h a u).trans hu) _ _ rfl

@[simp] theorem State.ringPut_seqs (s : State) (r elem : Nat) : (s.ringPut r elem).seqs = s.seqs := by simp [State.ringPut, State.incWrap]

@[simp] theorem State.ringWriteback_seqs (s : State) (r : Nat) : (s.ringWriteback r).seqs = s.seqs := by
  unfold State.ringWriteback
  split <;> rfl

@[simp] theorem State.ringNotify_seqs (s : State) (r : Nat) : (s.ringNotify r).seqs = s.seqs := by
  unfold State.ringNotify
  extract_lets v was x s1
  have h1 : s1.seqs = s.seqs := rfl
  split
  · split
    · exact (State.sendMsix_seqs _ _).trans h1
    · exact h1
  · split
    · exact (State.sendMsix_seqs _ _).trans h1
    · exact h1

@[simp] theorem State.ringRecord_seqs (s : State) (r : Nat) (rec : List Nat) : (s.ringRecord r rec).seqs = s.seqs := by
  unfold State.ringRecord
  dsimp only
  split
  · split
    · rfl
    · exact State.put_seqs _ _ _ _
  · rw [State.ringNotify_seqs, State.ringWriteback_seqs]
    exact s.forEach_seqs rec _ fun e u => u.ringPut_seqs r e

@[simp] theorem State.seqRecord_seqs (s : State) (q kind : Nat) (t : Int) (data other course : Nat) :
    (s.seqRecord q kind t data other course).seqs = s.seqs := by
  unfold State.seqRecord State.event
  split
  · split
    · exact State.ringRecord_seqs _ _ _
    · rfl
  · rfl

theorem KeepsBut.setSeq {p : Nat} {s : State} (q : Nat) (x : SeqSt) : KeepsBut p [] s (s.setSeq q x) := .of_regs rfl

/-! ### Event records -/

theorem pSEQ_ne_pHOSTQ (q : Nat) : pSEQ q ≠ pHOSTQ := by
  unfold pSEQ pHOSTQ
  omega

theorem pCOURSE_ne_pSEQ {q : Nat} (hq : q < 4) : pCOURSE ≠ pSEQ q := by
  unfold pCOURSE pSEQ
  omega

theorem KeepsPages.of_regs {s t : State} {l : List Nat} (h : t.regs = s.regs) : KeepsPages s t l := fun p o _ _ => State.rd_of_regs h p o

/-- A record that goes to a ring, is held or is lost changes registers of HOSTQ alone. -/
theorem State.ringRecord_keepsPages (s : State) {r : Nat} (hr : r < 32) (rec : List Nat) : KeepsPages s (s.ringRecord r rec) [pHOSTQ] := by
  unfold State.ringRecord
  dsimp only
  split
  · split
    · exact .of_regs rfl
    · exact (KeepsRegs.put pHOSTQ _ (oneWord_ringLost hr)).keepsPages (by simp)
  · have hput := KeepsRegs.forEach (s := s) rec (fun e s => s.ringPut r e) fun e u => u.ringPut_keepsRegs hr e
    exact ((hput.of_regs (State.ringWriteback_regs _ _)).of_regs (State.ringNotify_regs _ _)).keepsPages (by simp)

theorem State.seqRecord_keepsPages (s : State) (q kind : Nat) (t : Int) (data other course : Nat) :
    KeepsPages s (s.seqRecord q kind t data other course) [pHOSTQ] := by
  unfold State.seqRecord State.event
  split
  · split
    · next hring => exact s.ringRecord_keepsPages (State.ringFor_lt hring) _
    · exact .of_regs rfl
  · exact .of_regs rfl

theorem KeepsPages.samePage {s t : State} {l : List Nat} (h : KeepsPages s t l) {p : Nat} (hp : p ∉ l) : SamePage p s t := fun o ho => h p o ho hp

theorem KeepsPages.refl {s : State} {l : List Nat} : KeepsPages s s l := .of_regs rfl

theorem KeepsPages.forEach {α : Type} {s : State} {l : List Nat} (l' : List α) (f : α → State → State) (h : ∀ a u, KeepsPages u (f a u) l) :
    KeepsPages s (s.forEach l' f) l := by
  induction l' generalizing s with
  | nil => exact .refl
  | cons a l' ih => exact (h a s).trans ih

/-! ### READY -/

/-- The READY bit of a course is a bit of one word of COURSE. -/
theorem oneWord_ready {c : Nat} (hc : c < 4096) : OneWord (COURSE.READY.READY (c / 32)) :=
  ⟨Nat.zero_le _, Nat.lt_of_sub_eq_succ rfl, show 0x40 + 0x4 * (c / 32) < 4096 by omega⟩

theorem State.putReady_keepsBut (s : State) {c : Nat} (hc : c < 4096) (b : Bool) :
    KeepsBut pCOURSE [COURSE.READY.off (c / 32)] s (s.putReady c b) := KeepsBut.put _ (oneWord_ready hc)

@[simp] theorem State.putReady_seqs (s : State) (c : Nat) (b : Bool) : (s.putReady c b).seqs = s.seqs := State.put_seqs _ _ _ _

theorem State.ready_of_samePage {s t : State} (h : SamePage pCOURSE s t) {c : Nat} (hc : c < 4096) : t.ready c = s.ready c := by
  rw [State.ready, h.get_eq (oneWord_ready hc), State.ready]

theorem State.ready_of_keeps {s t : State} {l : List (Nat × Nat)} (h : KeepsRegs s t l) {c : Nat} (hc : c < 4096)
    (hnot : (pCOURSE, COURSE.READY.off (c / 32)) ∉ l) : t.ready c = s.ready c := by
  rw [State.ready, h.get_eq (oneWord_ready hc) hnot, State.ready]

theorem bitOf_putBits_bit (n k i : Nat) (b : Bool) : bitOf (putBits n k k (b2n b)) i = if i = k then b else bitOf n i := by
  rw [bitOf_eq_testBit, testBit_putBits _ _ _ _ _ (Nat.le_refl k), bitOf_eq_testBit]
  rcases Nat.lt_trichotomy i k with h | rfl | h
  · simp [h, h.ne]
  · cases b <;> simp [b2n]
  · simp [Nat.not_lt.2 h.le, Nat.not_le.2 h, h.ne']

/-- READY of a course reads what was put to it; the READY of every other course stands. -/
theorem State.ready_putReady (s : State) {c k : Nat} (hc : c < 4096) (hk : k < 4096) (b : Bool) :
    (s.putReady c b).ready k = if k = c then b else s.ready k := by
  unfold State.putReady State.ready
  by_cases hword : k / 32 = c / 32
  · have hbit : k % 32 = c % 32 ↔ k = c := by omega
    rw [hword, State.get_put_self _ _ _ _ (Nat.zero_le _) (by simp)]
    refine (bitOf_mod (w := 32) _ (Nat.mod_lt _ (by decide))).trans ?_
    simp only [bitOf_putBits_bit, hbit]
  · rw [State.get_put_ne _ (oneWord_ready hc) (oneWord_ready hk) (.inr (by simp only; omega)), if_neg (by rintro rfl; exact hword rfl)]

end Sys2Proof.Machine
end

section
/-! SUPPORT. What the choices of playback (R115 to R121) leave: the page COURSE, the causes of a sequencer that are pending, and its refills. -/

namespace Sys2Proof.Machine

/-- The words of COURSE, the pending causes of every sequencer and the refills that wait stand. -/
def StandsInPlay (s t : State) : Prop :=
  SamePage pCOURSE s t ∧ (∀ q, q < 4 → ∀ bit, bit < 32 → s.irqSet (pSEQ q) bit = true → t.irqSet (pSEQ q) bit = true) ∧
    ∀ q, (t.seq q).refills = (s.seq q).refills

namespace StandsInPlay
variable {s t u : State}

theorem course (h : StandsInPlay s t) : SamePage pCOURSE s t := h.1

theorem irqSet (h : StandsInPlay s t) {q bit : Nat} (hq : q < 4) (hbit : bit < 32) : s.irqSet (pSEQ q) bit = true → t.irqSet (pSEQ q) bit = true :=
  h.2.1 q hq bit hbit

theorem refills (h : StandsInPlay s t) (q : Nat) : (t.seq q).refills = (s.seq q).refills := h.2.2 q

theorem trans (h : StandsInPlay s t) (h' : StandsInPlay t u) : StandsInPlay s u :=
  ⟨h.course.trans h'.course, fun _ hq _ hbit hset => h'.irqSet hq hbit (h.irqSet hq hbit hset), fun q => (h'.refills q).trans (h.refills q)⟩

theorem of_parts (hcourse : SamePage pCOURSE s t) (hcauses : ∀ q, q < 4 → t.rd (pSEQ q) 0x018 = s.rd (pSEQ q) 0x018) (hseqs : t.seqs = s.seqs) :
    StandsInPlay s t :=
  ⟨hcourse, fun q hq bit _ h => by rwa [State.irqSet, hcauses q hq], fun q => by rw [State.seq_of_seqs hseqs]⟩

theorem of_regs (hregs : t.regs = s.regs) (hseqs : t.seqs = s.seqs) : StandsInPlay s t :=
  .of_parts (.of_regs hregs) (fun _ _ => State.rd_of_regs hregs _ _) hseqs

theorem refl : StandsInPlay s s := of_regs rfl rfl

theorem ite {c : Prop} {_ : Decidable c} (ht : StandsInPlay s t) (hu : StandsInPlay s u) : StandsInPlay s (if c then t else u) := by
  split
  · exact ht
  · exact hu

theorem onlyIf (h : StandsInPlay s t) (c : Bool) {f : State → State} (hf : ∀ u, StandsInPlay s u → StandsInPlay s (f u)) :
    StandsInPlay s (t.onlyIf c f) := ite (hf t h) h

theorem forEach {α : Type} (h : StandsInPlay s t) (l : List α) (f : α → State → State)
    (hf : ∀ a ∈ l, ∀ u, StandsInPlay s u → StandsInPlay s (f a u)) : StandsInPlay s (t.forEach l f) := by
  induction l generalizing t with
  | nil => exact h
  | cons a l ih => exact ih (hf a List.mem_cons_self t h) fun b hb => hf b (List.mem_cons_of_mem a hb)

/-! ### Registers and records -/

theorem setChan (h : StandsInPlay s t) (c : Nat) (x : ChanSt) : StandsInPlay s (t.setChan c x) := h.trans (of_regs rfl rfl)

/-- The record of a sequencer changes, its refills do not. -/
theorem setSeq (h : StandsInPlay s t) (q : Nat) {x : SeqSt} (hx : x.refills = (t.seq q).refills) : StandsInPlay s (t.setSeq q x) :=
  ⟨h.course, h.2.1, fun k => (State.seq_setSeq_part t (·.refills) hx k).trans (h.refills k)⟩

theorem seqRecord (h : StandsInPlay s t) (q kind : Nat) (at_ : Int) (data other course : Nat) :
    StandsInPlay s (t.seqRecord q kind at_ data other course) :=
  have hpages := t.seqRecord_keepsPages q kind at_ data other course
  h.trans (.of_parts (hpages.samePage (by decide)) (fun _ _ => hpages _ _ (by decide) (by simpa using pSEQ_ne_pHOSTQ _)) (State.seqRecord_seqs ..))

section
variable (h : StandsInPlay s t) {q : Nat} (hq : q < 4)
include h hq

/-- A field of a sequencer's page but IRQ_STATUS is put. -/
theorem put {f : Fld} (v : Nat) (hf : OneWord f ∧ f.off ≠ 0x018) : StandsInPlay s (t.put (pSEQ q) f v) :=
  h.trans (.of_parts (.put _ hf.1 (pCOURSE_ne_pSEQ hq)) (fun _ _ => State.rd_put_ne _ _ hf.1 (by decide) (.inr hf.2.symm)) (State.put_seqs _ _ _ _))

theorem irq (bit : Nat) : StandsInPlay s (t.irq (pSEQ q) bit) := by
  refine h.trans ⟨.irq bit (pCOURSE_ne_pSEQ hq), fun k _ i hi hset => ?_, fun k => by rw [State.seq_of_seqs (State.irq_seqs _ _ _)]⟩
  by_cases hk : k = q
  · subst hk
    exact State.irqSet_irq bit hi hset
  · rwa [(SamePage.irq bit (by unfold pSEQ; omega)).irqSet_eq]

theorem err (bit : Nat) : StandsInPlay s (t.err (pSEQ q) bit) :=
  h.trans (.of_parts (.err bit (pCOURSE_ne_pSEQ hq)) (fun _ _ => KeepsRegs.err (pSEQ q) bit _ _ (by decide) (by simp)) (State.err_seqs _ _ _))

end

/-! ### Lanes and marks -/

section
variable (h : StandsInPlay s t) (q : Nat)
include h

theorem seqIdle (at_ : Int) : StandsInPlay s (t.seqIdle q at_) := h.forEach _ _ fun _ _ _ hu => hu.setChan _ _

theorem seqDropFrom (at_ : Int) : StandsInPlay s (t.seqDropFrom q at_) :=
  .setSeq (h.forEach _ _ fun _ _ _ hu => .forEach (hu.setChan _ _) _ _ fun _ _ _ hv => hv.setChan _ _) q (by rfl)

theorem seqMarkTl (o : SeqOcc) : StandsInPlay s (t.seqMarkTl q o) := .ite (h.trans (.of_regs rfl rfl)) h

end

/-! ### Choices -/

section
variable (h : StandsInPlay s t) {q : Nat} (hq : q < 4)
include h hq

theorem showSuccessor : StandsInPlay s (t.showSuccessor q) := by
  unfold State.showSuccessor
  split <;> exact .put (.put h hq _ (by decide)) hq _ (by decide)

theorem clearRequest : StandsInPlay s (t.clearRequest q) := by
  unfold State.clearRequest
  exact .put (.put (.put (.setSeq h q (by rfl)) hq _ (by decide)) hq _ (by decide)) hq _ (by decide)

theorem seqStopAt (at_ : Int) (reason : Nat) : StandsInPlay s (t.seqStopAt q at_ reason) := by
  unfold State.seqStopAt
  exact .showSuccessor (.seqIdle (.seqDropFrom (.setSeq h q (by rfl)) q at_) q at_) hq

theorem seqBadCourse (at_ : Int) : StandsInPlay s (t.seqBadCourse q at_) := .seqStopAt (h.err hq 0) hq at_ 4

theorem deferRequest : StandsInPlay s (t.deferRequest q) := .irq (.put h hq _ (by decide)) hq 4

/-- A successor that a request chose ends the request. -/
theorem clearChosen (via : SeqVia) : StandsInPlay s (match via with | .request _ => t.clearRequest q | _ => t) := by
  split
  · exact h.clearRequest hq
  · exact h

theorem seqUnderrun (o : SeqOcc) (succ : Nat) (via : SeqVia) : StandsInPlay s (t.seqUnderrun q o succ via) := by
  unfold State.seqUnderrun
  extract_lets b s1 s2
  have hnoted : StandsInPlay s s2 :=
    .seqRecord (.irq (.onlyIf (.put h hq _ (by decide)) _ fun _ hu =>
      .put (.put (.put hu hq _ (by decide)) hq _ (by decide)) hq _ (by decide)) hq 2) _ _ _ _ _ _
  split
  · exact .seqMarkTl (.showSuccessor (.setSeq hnoted q (by rfl)) hq) _ _
  · exact .showSuccessor (.seqIdle (.setSeq (hnoted.clearChosen hq via) q (by rfl)) _ _) hq
  · exact .seqStopAt hnoted hq _ _

theorem seqDecide : StandsInPlay s (t.seqDecide q) := by
  unfold State.seqDecide
  split
  · exact h
  · split
    · exact h.seqStopAt hq _ _
    · next c via _ =>
      exact .ite (h.seqBadCourse hq _) (.ite (h.seqUnderrun hq _ _ _)
        (.seqMarkTl (.showSuccessor (.setSeq (h.clearChosen hq via) q (by rfl)) hq) _ _))

theorem decideBy (r32 : Int) : StandsInPlay s (t.decideBy q r32) := h.onlyIf _ fun _ hu => hu.seqDecide hq

theorem takeCut (r32 : Int) : StandsInPlay s (t.takeCut q r32) := by
  unfold State.takeCut
  extract_lets x
  split
  · next o at_ second _ _ =>
    extract_lets taken k deferred s0 s1 s2
    have hcleared : StandsInPlay s s0 := .clearRequest (.ite (h.irq hq 4) h) hq
    have hdropped : StandsInPlay s s2 := by
      simp only [s2]
      split
      · exact .seqIdle (hcleared.seqDropFrom q at_) _ _
      · exact hcleared.seqDropFrom q at_
    exact .ite (h.deferRequest hq) (.ite (hcleared.seqBadCourse hq _)
      (.seqMarkTl (.showSuccessor (.setSeq hdropped q (by rfl)) hq) _ _))
  · exact h.deferRequest hq

end

end StandsInPlay

/-! ### READY set -/

/-- Once the READY bit of a course stands (R121), what the sequencers make of it leaves every READY bit, cause and refill. -/
theorem State.setReady_stands (s : State) (c : Nat) : StandsInPlay (s.markReady c) (s.setReady c) := by
  refine StandsInPlay.refl.forEach (List.range 4) _ fun q hmem u hu => ?_
  have hq := List.mem_range.1 hmem
  extract_lets x s1
  have hparked : StandsInPlay (s.markReady c) s1 := by
    simp only [s1]
    split
    · exact .ite (hu.setSeq q (by rfl)) hu
    · exact hu
  split
  · exact .ite (.takeCut (.decideBy (.put hparked hq _ (by decide)) hq _) hq _) hparked
  · exact hparked

section
variable (s : State) (c : Nat)

theorem State.markReady_regs : (s.markReady c).regs = s.regs ∨ (s.markReady c).regs = (s.putReady c true).regs := by
  unfold State.markReady
  split
  · exact .inl rfl
  · exact .inr rfl

/-- The READY bit of a course, whatever its number, is none of a page before COURSE. -/
theorem State.rd_markReady {p o : Nat} (hp : p < pCOURSE) (ho : o < 4096) : (s.markReady c).rd p o = s.rd p o := by
  rcases s.markReady_regs c with h | h
  · exact State.rd_of_regs h p o
  · rw [State.rd_of_regs h, State.putReady, State.rd_put_of_page_lt _ _ _ ho hp]

theorem State.markReady_seqs : (s.markReady c).seqs = s.seqs := by
  unfold State.markReady
  split
  · rfl
  · exact s.putReady_seqs c true

theorem State.setReady_refills (q : Nat) : ((s.setReady c).seq q).refills = (s.seq q).refills := by
  rw [(s.setReady_stands c).refills, State.seq_of_seqs (s.markReady_seqs c)]

theorem State.setReady_irqSet {q bit : Nat} (hq : q < 4) (hbit : bit < 32) (h : s.irqSet (pSEQ q) bit = true) :
    (s.setReady c).irqSet (pSEQ q) bit = true := by
  refine (s.setReady_stands c).irqSet hq hbit ?_
  rwa [State.irqSet, s.rd_markReady c (by unfold pSEQ pCOURSE; omega) (by decide)]

/-- READY of the course stands set, and so does the READY of every course that had it. -/
theorem State.ready_setReady {c k : Nat} (hc : c < 4096) (hk : k < 4096) (h : k = c ∨ s.ready k = true) : (s.setReady c).ready k = true := by
  rw [State.ready_of_samePage (s.setReady_stands c).course hk]
  unfold State.markReady
  split
  · next hready =>
    rcases h with rfl | h
    · exact hready
    · exact h
  · refine (s.ready_putReady hc hk true).trans ?_
    split
    · rfl
    · next hne => exact h.resolve_left hne

end

/-! ### READY of a list of courses -/

theorem State.ready_setReady_each {l : List Nat} (s : State) (hl : ∀ c ∈ l, c < 4096) {k : Nat} (hk : k < 4096)
    (h : k ∈ l ∨ s.ready k = true) : (s.forEach l fun c s => s.setReady c).ready k = true := by
  induction l generalizing s with
  | nil => simpa [State.forEach] using h
  | cons c l ih =>
    refine ih _ (fun x hx => hl x (List.mem_cons_of_mem c hx)) ?_
    rw [List.mem_cons, or_right_comm] at h
    exact h.symm.imp_right fun h => s.ready_setReady (hl c List.mem_cons_self) hk h

theorem State.ready_clear_each {l : List Nat} (s : State) (hl : ∀ c ∈ l, c < 4096) {k : Nat} (hk : k < 4096)
    (h : k ∈ l ∨ s.ready k = false) : (s.forEach l fun c s => s.putReady c false).ready k = false := by
  induction l generalizing s with
  | nil => simpa [State.forEach] using h
  | cons c l ih =>
    refine ih _ (fun x hx => hl x (List.mem_cons_of_mem c hx)) ?_
    rw [s.ready_putReady (hl c List.mem_cons_self) hk]
    rw [List.mem_cons] at h
    split
    · exact .inr rfl
    · next hne => exact h.imp_left fun h => h.resolve_left hne

theorem State.clear_each_keepsPages {l : List Nat} (s : State) (hl : ∀ c ∈ l, c < 4096) :
    KeepsPages s (s.forEach l fun c s => s.putReady c false) [pCOURSE] := by
  induction l generalizing s with
  | nil => exact .refl
  | cons c l ih =>
    exact (s.putReady_keepsBut (hl c List.mem_cons_self) false).keepsPages.trans (ih _ fun x hx => hl x (List.mem_cons_of_mem c hx))

end Sys2Proof.Machine
end

section
/-! SUPPORT. The operations on the refills of a sequencer (R123, R133): what each leaves. -/

namespace Sys2Proof.Machine

section
variable (s : State) (q : Nat)

theorem State.refillShow_keepsBut : KeepsBut (pSEQ q) [SEQ.REFILL_STATE.off] s (s.refillShow q) :=
  KeepsBut.put (f := SEQ.REFILL_STATE.QUEUED) _ (by decide)

@[simp] theorem State.refillShow_seqs : (s.refillShow q).seqs = s.seqs := State.put_seqs _ _ _ _

theorem State.refillShow_queued (h : (s.seq q).refills.length < 32) :
    (s.refillShow q).get (pSEQ q) SEQ.REFILL_STATE.QUEUED = (s.seq q).refills.length := by
  rw [State.refillShow, State.get_put_self _ _ _ _ (by decide) (by decide)]
  exact Nat.mod_eq_of_lt h

/-- What the end of a refill shows before its event record. -/
theorem State.refillEnded_keepsBut (r : Refill) (failed set : Bool) :
    ∃ u, KeepsBut (pSEQ q) [SEQ.REFILL_STATE.off, 0x018] s u ∧ KeepsPages u (s.refillEnded q r failed set) [pHOSTQ] :=
  ⟨_, (KeepsBut.put (f := SEQ.REFILL_STATE.DONE) _ (by decide)).trans (KeepsBut.irq 5), State.seqRecord_keepsPages _ _ _ _ _ _ _⟩

theorem State.refillEnded_keepsPages (r : Refill) (failed set : Bool) : KeepsPages s (s.refillEnded q r failed set) [pSEQ q, pHOSTQ] := by
  obtain ⟨u, hshown, hrecord⟩ := s.refillEnded_keepsBut q r failed set
  exact (hshown.keepsPages.mono (by simp)).trans (hrecord.mono (by simp))

theorem State.refillEnded_errSet (r : Refill) (failed set : Bool) (bit : Nat) :
    (s.refillEnded q r failed set).errSet (pSEQ q) bit = s.errSet (pSEQ q) bit := by
  obtain ⟨u, hshown, hrecord⟩ := s.refillEnded_keepsBut q r failed set
  rw [(hrecord.samePage (by simpa using pSEQ_ne_pHOSTQ q)).errSet_eq, State.errSet, hshown.rd_eq (by decide) (by decide), State.errSet]

@[simp] theorem State.refillEnded_seqs (r : Refill) (failed set : Bool) : (s.refillEnded q r failed set).seqs = s.seqs := by
  simp [State.refillEnded, State.incWrap]

theorem State.refillEnded_irqSet (r : Refill) (failed set : Bool) : (s.refillEnded q r failed set).irqSet (pSEQ q) 5 = true := by
  rw [State.refillEnded, ((State.seqRecord_keepsPages _ q 5 _ _ _ _).samePage (by simpa using pSEQ_ne_pHOSTQ q)).irqSet_eq]
  exact State.irqSet_irq_self _ _ _ (by decide)

end

/-! ### A DMA error -/

section
variable {s : State} {q : Nat}

/-- The queue of refills emptied by a DMA error. -/
def State.refillsAbandoned (s : State) (q : Nat) : State := ((s.setSeq q { s.seq q with refills := [] }).refillShow q).err (pSEQ q) 1

theorem State.refillsAbandoned_shows (hq : q < s.seqs.length) : ((s.refillsAbandoned q).seq q).refills = [] ∧
    (s.refillsAbandoned q).errSet (pSEQ q) 1 = true ∧ KeepsPages s (s.refillsAbandoned q) [pSEQ q] := by
  refine ⟨?_, State.errSet_err_self _ _ _ (by decide),
    (((KeepsBut.setSeq q _).trans (State.refillShow_keepsBut _ q)).trans (KeepsBut.err 1)).keepsPages⟩
  rw [State.refillsAbandoned, State.seq_of_seqs ((State.err_seqs _ _ _).trans (State.refillShow_seqs _ q)), State.seq_setSeq _ _ _ hq]

theorem State.refillError_eq (h : (s.seq q).refills ≠ []) : s.refillError q =
    (s.refillsAbandoned q).forEach (s.seq q).refills fun r s => s.refillEnded q r true false :=
  if_neg (by simpa using h)

theorem runs_refillDmaError (hq : q < s.seqs.length) (h : (s.seq q).refills ≠ []) :
    Runs (.refillDmaError q) s (fun t => (t.seq q).refills = [] ∧ t.errSet (pSEQ q) 1 = true ∧ KeepsPages s t [pSEQ q, pHOSTQ] ∧
      KeepsMemory s t) := by
  have hmem : (s.refillError q).holds s.bar2 s.pending := State.refillError_holds s.holds_self q
  obtain ⟨hrefills, herr, hpages⟩ := State.refillsAbandoned_shows hq
  refine .of_effect (fun s => s.refillError q) rfl ?_
  rw [State.refillError_eq h] at hmem ⊢
  refine ⟨?_, ?_, (hpages.mono (by simp)).trans (.forEach _ _ fun r u => u.refillEnded_keepsPages q r true false), .of_holds hmem⟩
  · rw [State.seq_of_seqs (State.forEach_seqs _ _ _ fun r u => u.refillEnded_seqs q r true false), hrefills]
  · exact foldl_keeps (fun u : State => u.errSet (pSEQ q) 1 = true) _ (fun u r hu => (u.refillEnded_errSet q r true false 1).trans hu) _ _ herr

end

/-! ### The end of a refill -/

section
variable {s : State} {q : Nat} {r : Refill} {rest : List Refill} {bytes : List Nat}

/-- The bytes of a refill stored in its bank, with new ECC for its granules. -/
def State.refillStored (s : State) (r : Refill) (bytes : List Nat) : State :=
  let s1 := s.memStore (r.quad * bankBytes + 64 * r.base) bytes
  { s1 with ecc := { s1.ecc with
    granules := s1.ecc.granules.filter (fun g => !(g.1 == r.quad && decide (r.base ≤ g.2) && decide (g.2 < r.base + r.len))) } }

/-- A refill that has ended, and the queue that goes on. -/
def State.refillShown (s : State) (q : Nat) (r : Refill) (rest : List Refill) (bytes : List Nat) : State :=
  (((s.refillStored r bytes).setSeq q { s.seq q with refills := rest }).refillShow q).refillEnded q r false (r.setReady && !r.tainted)

theorem State.refillStored_seqs : (s.refillStored r bytes).seqs = s.seqs := by
  obtain ⟨m, hm⟩ := s.memStore_eq (r.quad * bankBytes + 64 * r.base) bytes
  unfold State.refillStored
  rw [hm]

theorem State.refillFinish_eq (hr : (s.seq q).refills = r :: rest) (hlen : bytes.length = 64 * r.len)
    (hactive : s.rangeActive q r.base r.len = false) : s.refillFinish q bytes =
      if r.setReady && !r.tainted then (s.refillShown q r rest bytes).setReady r.course else s.refillShown q r rest bytes := by
  unfold State.refillFinish
  simp only [hr, hlen, hactive, ne_eq, not_true_eq_false, Bool.false_eq_true, if_false]
  unfold State.refillShown
  rw [← State.seq_of_seqs (State.refillStored_seqs (s := s) (r := r) (bytes := bytes)) q]
  rfl

/-- The bytes of BAR2 are those that the store left. -/
theorem State.refillFinish_memByte (hr : (s.seq q).refills = r :: rest) (hlen : bytes.length = 64 * r.len)
    (hactive : s.rangeActive q r.base r.len = false) (a : Nat) :
    (s.refillFinish q bytes).memByte a = (s.memStore (r.quad * bankBytes + 64 * r.base) bytes).memByte a := by
  have hstored : State.holds (s.refillStored r bytes).bar2 (s.refillStored r bytes).pending (s.refillFinish q bytes) := by
    rw [State.refillFinish_eq hr hlen hactive]
    have hshown : (s.refillShown q r rest bytes).holds (s.refillStored r bytes).bar2 (s.refillStored r bytes).pending :=
      State.refillEnded_holds (State.refillShow_holds (State.setSeq_holds (State.holds_self _) _ _) _) _ _ _ _
    exact holds_ite (State.setReady_holds hshown _) hshown
  exact KeepsMemory.of_holds hstored a

theorem runs_refillDone (hq : q < 4) (hseqs : s.seqs.length = 4) (hr : (s.seq q).refills = r :: rest) (hup : s.pcieUp = true)
    (hlen : bytes.length = 64 * r.len) (hquad : r.quad < 12) (hbase : r.base + r.len ≤ 65536) (hactive : s.rangeActive q r.base r.len = false) :
    Runs (.refillDone q bytes) s (fun t => (t.seq q).refills = rest ∧
      (∀ k, k < bytes.length → t.memByte (r.quad * bankBytes + 64 * r.base + k) = bytes.getD k 0) ∧
      (∀ a, a < r.quad * bankBytes + 64 * r.base ∨ r.quad * bankBytes + 64 * r.base + bytes.length ≤ a → t.memByte a = s.memByte a) ∧
      t.irqSet (pSEQ q) 5 = true) := by
  intro hwf
  have hbyte : ∀ b ∈ bytes, b < 256 := by
    simp only [Instr.wf, Bool.and_eq_true, List.all_eq_true, decide_eq_true_eq] at hwf
    exact hwf.2
  have hmem := State.refillFinish_memByte hr hlen hactive
  have hrefills : ((s.refillShown q r rest bytes).seq q).refills = rest := by
    unfold State.refillShown
    rw [State.seq_of_seqs ((State.refillEnded_seqs ..).trans (State.refillShow_seqs ..)),
      State.seq_setSeq _ _ _ (by rw [State.refillStored_seqs, hseqs]; exact hq)]
  have hirq : (s.refillShown q r rest bytes).irqSet (pSEQ q) 5 = true := State.refillEnded_irqSet ..
  have hexec : exec (.refillDone q bytes) s = .next (s.refillFinish q bytes) :=
    (guarded_of_wf s (fun s => if s.pcieUp then s.refillFinish q bytes else s) hwf).trans (by rw [if_pos hup])
  refine .of_exec hexec ⟨?_, ?_, ?_, ?_⟩
  · rw [State.refillFinish_eq hr hlen hactive]
    split
    · rw [State.setReady_refills, hrefills]
    · exact hrefills
  · intro k hk
    have htop : r.quad * bankBytes + 64 * r.base + bytes.length ≤ 67108864 := by
      unfold bankBytes
      omega
    rw [hmem, State.memByte_memStore_in _ _ _ _ hk htop, List.getD_eq_getElem _ _ hk]
    exact Nat.mod_eq_of_lt (hbyte _ (List.getElem_mem hk))
  · intro a ha
    rw [hmem, State.memByte_memStore_out _ _ _ _ ha]
  · rw [State.refillFinish_eq hr hlen hactive]
    split
    · exact State.setReady_irqSet _ _ hq (by decide) hirq
    · exact hirq

end

end Sys2Proof.Machine
end

section
/-! SUPPORT. Commands written to REFILL_CMD and READY_CMD (R133, R134): where the registers stand, and from the meaning of a command to its
report. -/

namespace Sys2Proof.Machine

/-! ### The registers -/

/-- REFILL_CMD and READY_CMD. -/
def refillCmdReg : RegDesc := ⟨SEQ.REFILL_CMD.off, 0, 1, 1, [⟨7, 0, .cmd, 0⟩]⟩
def readyCmdReg : RegDesc := ⟨COURSE.READY_CMD.off, 0, 1, 1, [⟨7, 0, .cmd, 0⟩]⟩

theorem regAt_refillCmd {q : Nat} (hq : q < 4) : regAt (pSEQ q) SEQ.REFILL_CMD.off = some (.seq, q, refillCmdReg, 0, 0) := by
  interval_cases q <;> rfl

theorem regAt_readyCmd : regAt pCOURSE COURSE.READY_CMD.off = some (.course, 0, readyCmdReg, 0, 0) := rfl

/-! ### From the meaning of a command to its report -/

section
variable (t : State) (path : Path) (page v agent off : Nat) (r : Verdict)

theorem State.lastCmd_seqs (code : Nat) : (t.lastCmd path page off agent code r).seqs = t.seqs := by
  unfold State.lastCmd
  extract_lets key old w _ _ s1
  split
  · exact State.put_seqs _ _ _ _
  · rfl

/-- The report of a command leaves the records of the sequencers. -/
theorem State.commanded_seqs : (t.commanded path page off v agent r).seqs = t.seqs := by
  unfold State.commanded State.noteAt
  rw [State.lastCmd_seqs]
  split
  · split <;> rfl
  · rfl

/-- The report of a verdict that names no other agent is LAST_CMD alone. -/
theorem State.lastCmd_keepsRegs_of_unnamed (code : Nat) (hconflict : r.res ≠ .conflict) (hdenied : r.res ≠ .denied) :
    KeepsRegs t (t.lastCmd path page off agent code r) [(page, 0x02C)] := by
  intro p o ho hnot
  unfold State.lastCmd
  extract_lets key old w _ _ s1
  rw [if_neg (by simp [hconflict, hdenied])]
  exact State.rd_wr_ne _ _ _ _ _ _ (by decide) ho (by simpa [Prod.ext_iff, imp_iff_not_or] using hnot)

end

section
variable {c : Instr} {s t : State} {path : Path} {page off v i : Nat} {k : Kind} {d : RegDesc} {r : Verdict} {P : State → Prop}

/-- A command of a CMD register of one word is accepted where its meaning accepts it. -/
theorem Accepts.of_command (hreg : regAt page off = some (k, i, d, 0, 0)) (hdesc : d.words = 1 ∧ d.at_ 0 = off ∧ 0x040 ≤ d.base)
    (hexec : exec c s = guarded c s fun s => s.wrote path page off v)
    (hmeaning : ∀ x, s.writeBody (s.wctx path page i d 0 v) k d 0 x = accept t)
    (hP : P (t.commanded path page off v (s.agentOf path) ⟨.ok, none⟩)) : Accepts c s path page off v P := by
  intro hwf hpass hval
  obtain ⟨hwords, hat, hbase⟩ := hdesc
  obtain ⟨hres, hfmt, hrange⟩ := valueOk_body hreg hbase hval
  refine .of_exec (hexec.trans (guarded_of_wf s _ hwf)) ?_
  rw [State.wrote_of_verdict hreg hwords hat hpass ((State.writeReg_of_body _ hbase hres hfmt hrange).trans (hmeaning _))]
  exact ⟨(State.lastCmd_shows ..).1, hP⟩

/-- A write that passes and whose meaning turns it away is judged by that verdict. -/
theorem State.judge_of_turnedAway (hreg : regAt page off = some (k, i, d, 0, 0)) (hwords : d.words = 1) (hpass : s.passes path page off v = true)
    (x : Extra) (hw : s.writeReg (s.wctx path page i d 0 v) k d 0 x = (t, r)) (hr : r.res ≠ .ok) : s.judge_ path page off v x = (t, r) := by
  simp only [State.passes, hreg, hwords, Bool.and_eq_true, Bool.not_eq_true', decide_eq_true_eq, Option.isNone_iff_eq_none, if_true] at hpass
  obtain ⟨⟨⟨⟨-, -⟩, hbar⟩, hlow, haligned, -⟩, ⟨⟨⟨hrefuses, hinert⟩, hdenies⟩, hlocked⟩, hbusy⟩ := hpass
  have hoff : ¬(0x800 ≤ off ∨ off % 4 ≠ 0) := by omega
  have hmeaning : s.writeReg ⟨path, s.agentOf path, s.adminOf path, page, i, d.at_ 0, v⟩ k d 0 x = (t, r) := hw
  have hword : s.writeWord path page off v k i d 0 0 x = (t, r) := by
    unfold State.writeWord
    simp only [hwords, if_true, hinert, hdenies, hlocked, hbusy, hmeaning, Nat.zero_add, beq_self_eq_true, Bool.not_true, Bool.false_eq_true,
      if_false, hr]
  simp only [State.judge_, hbar, hoff, hreg, hrefuses, hword, Bool.false_eq_true, if_false]

/-- What a command that is turned away leaves: what its meaning leaves, noted and reported with the verdict. -/
theorem State.wrote_of_turnedAway (hreg : regAt page off = some (k, i, d, 0, 0)) (hwords : d.words = 1) (hbase : 0x040 ≤ d.base)
    (hpass : s.passes path page off v = true) (hval : valueOk page off v = true)
    (hmeaning : ∀ x, s.writeBody (s.wctx path page i d 0 v) k d 0 x = (t, r)) (hr : r.res ≠ .ok) :
    s.wrote path page off v = (t.noteAt path page off v).lastCmd path page off (s.agentOf path) (codeAt page off v) r := by
  obtain ⟨hres, hfmt, hrange⟩ := valueOk_body hreg hbase hval
  have hthere := hpass
  simp only [State.passes, Bool.and_eq_true, decide_eq_true_eq] at hthere
  obtain ⟨⟨⟨⟨hreach, hblock⟩, -⟩, -, -, hlast⟩, -⟩ := hthere
  exact State.wrote_of_judged hreach hblock hlast fun x =>
    State.judge_of_turnedAway hreg hwords hpass x ((State.writeReg_of_body x hbase hres hfmt hrange).trans (hmeaning x)) hr

end

end Sys2Proof.Machine
end

section
/-! PROOFS. Refill and readiness (O24). -/

namespace Sys2Proof.Machine

/-! ### REFILL_CMD -/

section
variable {s : State} {path : Path} {q : Nat} (hq : q < 4) (hseqs : s.seqs.length = 4)

theorem State.get_refillCourse_lt (s : State) (q : Nat) : s.get (pSEQ q) SEQ.REFILL_ARG.COURSE < 4096 := bitsOf_lt _ _ _

/-- A command of REFILL_CMD has the meaning of its code. -/
theorem State.writeBody_refillCmd (v : Nat) (x : Extra) :
    s.writeBody (s.wctx path (pSEQ q) q refillCmdReg 0 v) .seq refillCmdReg 0 x = s.refillCmd (s.agentOf path) q v := rfl

/-- The state after an accepted SUBMIT. -/
def State.refillQueued (s : State) (q : Nat) (r : Refill) : State :=
  ((s.putReady r.course false).setSeq q { s.seq q with refills := (s.seq q).refills ++ [r] }).refillShow q

/-- The refill that REFILL_ARG and REFILL_ADDR name. -/
def State.refillNamed (s : State) (q : Nat) : Refill where
  course := s.get (pSEQ q) SEQ.REFILL_ARG.COURSE
  base := (s.course (s.get (pSEQ q) SEQ.REFILL_ARG.COURSE)).base
  len := (s.course (s.get (pSEQ q) SEQ.REFILL_ARG.COURSE)).len
  quad := s.get (pSEQ q) SEQ.REFILL_ARG.QUAD
  addr := s.get (pSEQ q) SEQ.REFILL_ADDR.ADDR
  setReady := s.flag (pSEQ q) SEQ.REFILL_ARG.SET_READY

section
include hq hseqs

theorem State.refillQueued_shows (r : Refill) (hcourse : r.course < 4096) (hroom : (s.seq q).refills.length < 16) :
    ((s.refillQueued q r).seq q).refills = (s.seq q).refills ++ [r] ∧ (s.refillQueued q r).ready r.course = false ∧
    (s.refillQueued q r).get (pSEQ q) SEQ.REFILL_STATE.QUEUED = (s.seq q).refills.length + 1 ∧
    KeepsPages s (s.refillQueued q r) [pSEQ q, pCOURSE] := by
  have hseq : (((s.putReady r.course false).setSeq q { s.seq q with refills := (s.seq q).refills ++ [r] }).seq q).refills =
      (s.seq q).refills ++ [r] := by
    rw [State.seq_setSeq _ _ _ (by rw [State.putReady_seqs, hseqs]; exact hq)]
  unfold State.refillQueued
  generalize hu : (s.putReady r.course false).setSeq q { s.seq q with refills := (s.seq q).refills ++ [r] } = u at hseq
  have hready : u.ready r.course = false := by
    rw [← hu]
    exact (s.ready_putReady hcourse hcourse false).trans (if_pos rfl)
  have hpages : KeepsPages s u [pCOURSE] := by
    rw [← hu]
    exact (s.putReady_keepsBut hcourse false).keepsPages
  have hshow := u.refillShow_keepsBut q
  refine ⟨?_, ?_, ?_, (hpages.mono (by simp)).trans (hshow.keepsPages.mono (by simp))⟩
  · rw [State.seq_of_seqs (u.refillShow_seqs q), hseq]
  · rw [State.ready_of_samePage (hshow.keepsPages.samePage (by simpa using pCOURSE_ne_pSEQ hq)) hcourse, hready]
  · rw [State.refillShow_queued _ _ (by rw [hseq, List.length_append]; simp; omega), hseq]
    simp

end

section
variable (hranges : s.inRanges (s.agentOf path) (s.get (pSEQ q) SEQ.REFILL_ARG.COURSE) = true)
  (hquad : s.get (pSEQ q) SEQ.REFILL_ARG.QUAD ∈ s.seqQuads q)
  (hcheck : s.courseCheck (s.seqOwner q) (s.get (pSEQ q) SEQ.REFILL_ARG.COURSE) = 0) (haddr : s.get (pSEQ q) SEQ.REFILL_ADDR.ADDR % 64 = 0)
  (hspi : s.hostSpi = false)
  (hactive : s.rangeActive q (s.course (s.get (pSEQ q) SEQ.REFILL_ARG.COURSE)).base (s.course (s.get (pSEQ q) SEQ.REFILL_ARG.COURSE)).len = false)
  (hroom : (s.seq q).refills.length < 16)
include hranges hquad hcheck haddr hspi hactive hroom

theorem State.refillSubmit_eq : s.refillSubmit (s.agentOf path) q = accept (s.refillQueued q (s.refillNamed q)) := by
  unfold State.refillSubmit State.refillQueued State.refillNamed
  simp only [hranges, List.contains_iff_mem.2 hquad, hcheck, haddr, hspi, hactive, Nat.not_le.2 hroom, State.seq_of_seqs (State.putReady_seqs _ _ _),
    Bool.not_true, Bool.false_eq_true, bne_self_eq_false, Bool.or_self, if_false]

include hq hseqs

theorem accepts_refillSubmit :
    Accepts (.refillSubmit path q) s path (pSEQ q) SEQ.REFILL_CMD.off 1 (fun t =>
      (t.seq q).refills.length = (s.seq q).refills.length + 1 ∧ t.ready (s.get (pSEQ q) SEQ.REFILL_ARG.COURSE) = false ∧
      t.get (pSEQ q) SEQ.REFILL_STATE.QUEUED = (s.seq q).refills.length + 1 ∧ KeepsPages s t [pSEQ q, pCOURSE] ∧ KeepsMemory s t) := by
  have hcourse := s.get_refillCourse_lt q
  have hmeaning := State.refillSubmit_eq hranges hquad hcheck haddr hspi hactive hroom
  obtain ⟨hrefills, hready, hqueued, hpages⟩ := State.refillQueued_shows hq hseqs (s.refillNamed q) hcourse hroom
  have hmem : (s.refillQueued q (s.refillNamed q)).holds s.bar2 s.pending :=
    State.refillShow_holds (State.setSeq_holds (State.putReady_holds s.holds_self _ _) _ _) _
  have hreport := (s.refillQueued q (s.refillNamed q)).commanded_keepsRegs path (pSEQ q) 1 (s.agentOf path) (off := SEQ.REFILL_CMD.off)
    (by decide) none
  have hreportPages := hreport.keepsPages (p := pSEQ q) (by simp)
  refine .of_command (regAt_refillCmd hq) (by decide) rfl (fun x => (State.writeBody_refillCmd 1 x).trans hmeaning)
    ⟨?_, ?_, ?_, hpages.trans (hreportPages.mono (by simp)), .of_holds (State.commanded_holds _ _ _ _ _ _ hmem _)⟩
  · rw [State.seq_of_seqs (State.commanded_seqs ..), hrefills, List.length_append]
    rfl
  · exact (State.ready_of_keeps hreport hcourse (by simp [pCOURSE_ne_pSEQ hq])).trans hready
  · rw [hreport.get_eq (by decide) (by simp), hqueued]

end

include hq hseqs

theorem accepts_refillFlush :
    Accepts (.refillFlush path q) s path (pSEQ q) SEQ.REFILL_CMD.off 2 (fun t => (t.seq q).refills = (s.seq q).refills.take 1 ∧
      KeepsRegs s t [(pSEQ q, SEQ.REFILL_CMD.off), (pSEQ q, SEQ.REFILL_STATE.off), (pSEQ q, 0x02C)] ∧ KeepsMemory s t) := by
  have hmem : (s.refillFlush q).1.holds s.bar2 s.pending := State.refillFlush_holds s.holds_self q
  have hkeep : KeepsBut (pSEQ q) [SEQ.REFILL_STATE.off] s (s.refillFlush q).1 := (KeepsBut.setSeq q _).trans (State.refillShow_keepsBut _ q)
  have hreport := (s.refillFlush q).1.commanded_keepsRegs path (pSEQ q) 2 (s.agentOf path) (off := SEQ.REFILL_CMD.off) (by decide) none
  refine .of_command (t := (s.refillFlush q).1) (regAt_refillCmd hq) (by decide) rfl (fun x => State.writeBody_refillCmd 2 x)
    ⟨?_, KeepsRegs.trans (hkeep.mono (m := [SEQ.REFILL_CMD.off, SEQ.REFILL_STATE.off, 0x02C]) (by decide)) (hreport.mono (by simp)),
      .of_holds (State.commanded_holds _ _ _ _ _ _ hmem _)⟩
  rw [State.seq_of_seqs (State.commanded_seqs ..), State.refillFlush, accept, State.seq_of_seqs (State.refillShow_seqs _ q),
    State.seq_setSeq _ _ _ (by rw [hseqs]; exact hq)]

end

/-! ### READY_CMD -/

section
variable {s : State} {path : Path}

/-- The READY words lie apart from READY_CMD and LAST_CMD. -/
theorem readyOff_notMem {c : Nat} (hc : c < 4096) : (pCOURSE, COURSE.READY.off (c / 32)) ∉ [(pCOURSE, COURSE.READY_CMD.off), (pCOURSE, 0x02C)] := by
  have hoff : ¬(0x40 + 0x4 * (c / 32) = 0x244 ∨ 0x40 + 0x4 * (c / 32) = 0x02C) := by omega
  simpa using hoff

/-- A command of READY_CMD has the meaning of its code. -/
theorem State.writeBody_readyCmd (v : Nat) (x : Extra) :
    s.writeBody (s.wctx path pCOURSE 0 readyCmdReg 0 v) .course readyCmdReg 0 x = s.readyCmd (s.agentOf path) v := rfl

/-- The course that VALIDATE finds is reported in VALIDATE_RESULT. -/
def State.courseFailed (s : State) (c check : Nat) : State :=
  ((s.put pCOURSE COURSE.VALIDATE_RESULT.COURSE c).put pCOURSE COURSE.VALIDATE_RESULT.CHECK check).putFlag pCOURSE COURSE.VALIDATE_RESULT.FAIL true

theorem State.courseFailed_shows (s : State) {c : Nat} (hc : c < 4096) (check : Nat) :
    (s.courseFailed c check).flag pCOURSE COURSE.VALIDATE_RESULT.FAIL = true ∧
    (s.courseFailed c check).get pCOURSE COURSE.VALIDATE_RESULT.COURSE = c ∧
    KeepsBut pCOURSE [COURSE.VALIDATE_RESULT.off] s (s.courseFailed c check) := by
  unfold State.courseFailed
  refine ⟨State.flag_putFlag_self _ _ true (by decide), ?_,
    (((KeepsBut.put (f := COURSE.VALIDATE_RESULT.COURSE) _ (by decide)).trans (KeepsBut.put (f := COURSE.VALIDATE_RESULT.CHECK) _ (by decide))).trans
      (KeepsBut.put (f := COURSE.VALIDATE_RESULT.FAIL) _ (by decide))).mono (by decide)⟩
  rw [State.putFlag_eq, State.get_put_sameWord _ _ _ (by decide), State.get_put_sameWord _ _ _ (by decide),
    State.get_put_self _ _ _ _ (by decide) (by decide)]
  exact Nat.mod_eq_of_lt hc

variable (hfit : s.get pCOURSE COURSE.READY_ARG.FIRST + s.get pCOURSE COURSE.READY_ARG.COUNT ≤ 4096)
include hfit

theorem State.namedCourses_lt {c : Nat} (hc : c ∈ s.namedCourses) : c < 4096 := by
  simp only [State.namedCourses, List.mem_map, List.mem_range] at hc
  obtain ⟨k, hk, rfl⟩ := hc
  omega

variable (hagent : s.agentOf path ≠ 0) (howned : ∃ r ∈ s.host.ranges, r.2.2 = s.agentOf path ∧
  r.1 ≤ s.get pCOURSE COURSE.READY_ARG.FIRST ∧ s.get pCOURSE COURSE.READY_ARG.FIRST + s.get pCOURSE COURSE.READY_ARG.COUNT ≤ r.1 + r.2.1)
include hagent howned

/-- The commands of READY_CMD where the courses named lie in a range of the writer (R134). -/
theorem State.readyCmd_of_owned : s.readyCmd (s.agentOf path) 1 = s.readySetCmd ∧ s.readyCmd (s.agentOf path) 2 = s.readyClearCmd ∧
    s.readyCmd (s.agentOf path) 3 = s.validateCmd (s.agentOf path) := by
  have hany : s.host.ranges.any (fun r => r.2.2 == s.agentOf path && decide (r.1 ≤ s.get pCOURSE COURSE.READY_ARG.FIRST) &&
      decide (s.get pCOURSE COURSE.READY_ARG.FIRST + s.get pCOURSE COURSE.READY_ARG.COUNT ≤ r.1 + r.2.1)) = true := by
    simpa only [List.any_eq_true, Bool.and_eq_true, beq_iff_eq, decide_eq_true_eq, and_assoc] using howned
  have hcode : bitsOf 1 7 0 = 1 ∧ bitsOf 2 7 0 = 2 ∧ bitsOf 3 7 0 = 3 := by decide
  simp [State.readyCmd, hany, hagent, hcode, Nat.not_lt.2 hfit]

theorem accepts_readySet (hfree : ∀ c ∈ s.namedCourses, ∀ q, q < 4 → ∀ r ∈ (s.seq q).refills, r.course ≠ c) :
    Accepts (.readySet path) s path pCOURSE COURSE.READY_CMD.off 1 (fun t => (∀ c ∈ s.namedCourses, t.ready c = true) ∧ KeepsMemory s t) := by
  obtain ⟨hset, -, -⟩ := State.readyCmd_of_owned hfit hagent howned
  have hnone : s.readySetCmd = accept (s.forEach s.namedCourses fun c s => s.setReady c) := if_neg fun hany => by
    simp only [List.any_eq_true, List.mem_range, beq_iff_eq] at hany
    obtain ⟨c, hc, q, hq, r, hr, hcourse⟩ := hany
    exact hfree c hc q hq r hr hcourse
  have hmem : (s.forEach s.namedCourses fun c s => s.setReady c).holds s.bar2 s.pending :=
    State.forEach_holds s.holds_self _ _ fun _ _ hu => State.setReady_holds hu _
  refine .of_command regAt_readyCmd (by decide) rfl (fun x => (State.writeBody_readyCmd 1 x).trans (hset.trans hnone))
    ⟨fun c hc => ?_, .of_holds (State.commanded_holds _ _ _ _ _ _ hmem _)⟩
  have hlt := State.namedCourses_lt hfit hc
  rw [State.ready_of_keeps (State.commanded_keepsRegs _ _ _ _ _ (by decide) none) hlt (readyOff_notMem hlt)]
  exact s.ready_setReady_each (fun _ => State.namedCourses_lt hfit) hlt (.inl hc)

theorem accepts_readyClear :
    Accepts (.readyClear path) s path pCOURSE COURSE.READY_CMD.off 2 (fun t => (∀ c ∈ s.namedCourses, t.ready c = false) ∧
      KeepsPages s t [pCOURSE] ∧ KeepsMemory s t) := by
  obtain ⟨-, hclear, -⟩ := State.readyCmd_of_owned hfit hagent howned
  have hmem : (s.forEach s.namedCourses fun c s => s.putReady c false).holds s.bar2 s.pending :=
    State.forEach_holds s.holds_self _ _ fun _ _ hu => State.putReady_holds hu _ _
  refine .of_command regAt_readyCmd (by decide) rfl (fun x => (State.writeBody_readyCmd 2 x).trans hclear)
    ⟨fun c hc => ?_, (s.clear_each_keepsPages fun _ => State.namedCourses_lt hfit).trans
      ((State.commanded_keepsRegs _ _ _ _ _ (by decide) none).keepsPages (by simp)), .of_holds (State.commanded_holds _ _ _ _ _ _ hmem _)⟩
  have hlt := State.namedCourses_lt hfit hc
  rw [State.ready_of_keeps (State.commanded_keepsRegs _ _ _ _ _ (by decide) none) hlt (readyOff_notMem hlt)]
  exact s.ready_clear_each (fun _ => State.namedCourses_lt hfit) hlt (.inl hc)

theorem accepts_validate (hgood : ∀ c ∈ s.namedCourses, s.courseCheck (s.agentOf path) c = 0) :
    Accepts (.validate path) s path pCOURSE COURSE.READY_CMD.off 3 (fun t => t.rd pCOURSE COURSE.VALIDATE_RESULT.off = 0 ∧
      KeepsRegs s t [(pCOURSE, COURSE.VALIDATE_RESULT.off), (pCOURSE, COURSE.READY_CMD.off), (pCOURSE, 0x02C)] ∧ KeepsMemory s t) := by
  obtain ⟨-, -, hvalidate⟩ := State.readyCmd_of_owned hfit hagent howned
  have hnone : s.namedCourses.find? (fun c => s.courseCheck (s.agentOf path) c != 0) = none := List.find?_eq_none.2 (by simpa using hgood)
  have haccept : s.validateCmd (s.agentOf path) = accept (s.wr pCOURSE COURSE.VALIDATE_RESULT.off 0) := by simp only [State.validateCmd, hnone]
  have hreport := (s.wr pCOURSE COURSE.VALIDATE_RESULT.off 0).commanded_keepsRegs path pCOURSE 3 (s.agentOf path) (off := COURSE.READY_CMD.off)
    (by decide) none
  have hwrite : KeepsRegs s (s.wr pCOURSE COURSE.VALIDATE_RESULT.off 0) [(pCOURSE, COURSE.VALIDATE_RESULT.off)] := fun p o ho hnot =>
    State.rd_wr_ne _ _ _ _ _ _ (by decide) ho (by simpa [Prod.ext_iff, imp_iff_not_or] using hnot)
  refine .of_command regAt_readyCmd (by decide) rfl (fun x => (State.writeBody_readyCmd 3 x).trans (hvalidate.trans haccept))
    ⟨?_, (hwrite.mono (by simp)).trans (hreport.mono (by simp)),
      .of_holds (State.commanded_holds _ _ _ _ _ _ (State.wr_holds s.holds_self _ _ _) _)⟩
  rw [hreport _ _ (by decide) (by decide), State.rd_wr_self]

theorem runs_validate_fails {c : Nat} (hfirst : s.namedCourses.find? (fun k => s.courseCheck (s.agentOf path) k != 0) = some c)
    (hpass : s.passes path pCOURSE COURSE.READY_CMD.off 3 = true) :
    Runs (.validate path) s (fun t => t.result pCOURSE = 2 ∧ t.flag pCOURSE COURSE.VALIDATE_RESULT.FAIL = true ∧
      t.get pCOURSE COURSE.VALIDATE_RESULT.COURSE = c ∧ KeepsPages s t [pCOURSE] ∧ KeepsMemory s t) := by
  obtain ⟨-, -, hvalidate⟩ := State.readyCmd_of_owned hfit hagent howned
  obtain ⟨hfail, hcourse, hkeep⟩ := s.courseFailed_shows (State.namedCourses_lt hfit (List.mem_of_find?_eq_some hfirst))
    (s.courseCheck (s.agentOf path) c)
  have hmem : (s.validateCmd (s.agentOf path)).1.holds s.bar2 s.pending := State.validateCmd_holds s.holds_self _
  have hturned : s.validateCmd (s.agentOf path) = (s.courseFailed c (s.courseCheck (s.agentOf path) c), ⟨.range, none⟩) := by
    simp only [State.validateCmd, hfirst]
    rfl
  rw [hturned] at hmem
  generalize s.courseFailed c (s.courseCheck (s.agentOf path) c) = u at *
  have hnoted := (u.noteAt_keepsRegs path pCOURSE 3 (off := COURSE.READY_CMD.off) (by decide)).mono
    (m := [(pCOURSE, COURSE.READY_CMD.off), (pCOURSE, 0x02C)]) (by simp)
  have hreport := hnoted.trans (((u.noteAt path pCOURSE COURSE.READY_CMD.off 3).lastCmd_keepsRegs_of_unnamed path pCOURSE (s.agentOf path)
    COURSE.READY_CMD.off ⟨.range, none⟩ (codeAt pCOURSE COURSE.READY_CMD.off 3) (by decide) (by decide)).mono (by simp))
  refine .of_effect (fun s => s.wrote path pCOURSE COURSE.READY_CMD.off 3) rfl ?_
  rw [State.wrote_of_turnedAway regAt_readyCmd rfl (by decide) hpass rfl
    (fun x => (State.writeBody_readyCmd 3 x).trans (hvalidate.trans hturned)) (by decide)]
  refine ⟨(State.lastCmd_shows ..).1, ?_, ?_, hkeep.keepsPages.trans (hreport.keepsPages (by simp)),
    .of_holds (State.lastCmd_holds (State.noteAt_holds hmem _ _ _ _) _ _ _ _ _ _)⟩
  · rw [State.flag, hreport.get_eq (by decide) (by decide)]
    exact hfail
  · rw [hreport.get_eq (by decide) (by decide), hcourse]

end

/-- Settles O24: each command through what its meaning leaves of the refills and of the READY words, the end of a refill through the bytes it stores
and what stands when READY is then set, and a DMA error through its loop over the queue. -/
theorem refills : Obligations.Refills := by
  unfold Obligations.Refills
  refine ⟨?commands, ?ends⟩
  case commands =>
    intro s hsound path
    have hseqs := State.sound_seqs hsound
    exact ⟨fun q hq => accepts_refillSubmit hq hseqs, fun q hq => accepts_refillFlush hq hseqs, fun hfit hagent howned =>
      ⟨accepts_readySet hfit hagent howned, accepts_readyClear hfit hagent howned, accepts_validate hfit hagent howned,
        fun _ => runs_validate_fails hfit hagent howned⟩⟩
  case ends =>
    intro s hsound q hq r rest hr
    have hseqs := State.sound_seqs hsound
    exact ⟨fun _ => runs_refillDone hq hseqs hr, runs_refillDmaError (by rwa [hseqs]) (by simp [hr])⟩

end Sys2Proof.Machine
end

section
/-! PROOFS. What happens in the scheduler by itself (O29): memory errors of a queue in a core held in reset. -/

namespace Sys2Proof.Machine

/-- Refutes O29, by its clause of a correctable error in a queue's memory, which does not ask that the supplies of the core be good: right after
power-on they are not, the core is held in reset (R311), and QUEUE_ECC sets no bit of ERR_STATUS. -/
theorem not_schedulerEvents : ¬ Obligations.SchedulerEvents := by
  intro h
  obtain ⟨-, -, -, hcorrected, -⟩ := h State.reset (by decide)
  obtain ⟨t, ht, herr, -⟩ := hcorrected 0 (by decide) rfl
  rw [← Host.Outcome.next.inj ht] at herr
  exact absurd herr (by decide)

end Sys2Proof.Machine
end

section
/-! SUPPORT. What reports change: registers, the host's records, messages, fault events and free values alone; and the pages that they touch. -/

namespace Sys2Proof.Machine

/-- The state differs at most in its registers and in what goes out to the host: outputs, rings and messages, fault events, free values. -/
def ReportsOnly (s t : State) : Prop :=
  ∃ regs host out faults owed uses,
    t = { s with regs := regs, host := host, out := out, faultEvents := faults, msixOwed := owed, freeUses := uses }

namespace ReportsOnly
variable {s t u : State}

theorem refl : ReportsOnly s s := ⟨_, _, _, _, _, _, rfl⟩

theorem trans (h : ReportsOnly s t) (h' : ReportsOnly t u) : ReportsOnly s u := by
  obtain ⟨_, _, _, _, _, _, rfl⟩ := h
  obtain ⟨_, _, _, _, _, _, rfl⟩ := h'
  exact ⟨_, _, _, _, _, _, rfl⟩

theorem sched (h : ReportsOnly s t) : t.sched = s.sched := by
  obtain ⟨_, _, _, _, _, _, rfl⟩ := h
  rfl

theorem phases (h : ReportsOnly s t) : t.phases = s.phases := by
  obtain ⟨_, _, _, _, _, _, rfl⟩ := h
  rfl

theorem queue (h : ReportsOnly s t) (q : Nat) : t.queue q = s.queue q := by rw [State.queue, h.sched, State.queue]

theorem phase (h : ReportsOnly s t) (k : Nat) : t.phase k = s.phase k := by rw [State.phase, h.phases, State.phase]

theorem forEach {α : Type} (l : List α) (f : α → State → State) (h : ∀ a u, ReportsOnly u (f a u)) : ReportsOnly s (s.forEach l f) :=
  foldl_keeps (ReportsOnly s) _ (fun u a hu => hu.trans (h a u)) _ _ refl

theorem put (p : Nat) (f : Fld) (v : Nat) : ReportsOnly s (s.put p f v) := ⟨_, _, _, _, _, _, s.put_eq p f v⟩

theorem setRing (r : Nat) (x : RingSt) : ReportsOnly s (s.setRing r x) := ⟨_, _, _, _, _, _, rfl⟩

theorem sendMsix (v : Nat) : ReportsOnly s (s.sendMsix v) := by
  unfold State.sendMsix
  split
  · exact ⟨_, _, _, _, _, _, rfl⟩
  · exact refl

theorem irq (p bit : Nat) : ReportsOnly s (s.irq p bit) := by
  unfold State.irq
  extract_lets v s1
  have h1 : ReportsOnly s s1 := ⟨_, _, _, _, _, _, rfl⟩
  split
  · exact h1.trans (sendMsix v)
  · exact h1

theorem err (p bit : Nat) : ReportsOnly s (s.err p bit) := by
  unfold State.err
  extract_lets v s1 s2
  have h2 : ReportsOnly s s2 := by
    simp only [s2]
    split <;> exact ⟨_, _, _, _, _, _, rfl⟩
  split
  · exact h2.trans (sendMsix v)
  · exact h2

theorem ringWriteback (r : Nat) : ReportsOnly s (s.ringWriteback r) := by
  unfold State.ringWriteback
  split
  · exact refl
  · exact ⟨_, _, _, _, _, _, rfl⟩

theorem emit (o : Out) : ReportsOnly s (s.emit o) := ⟨_, _, _, _, _, _, rfl⟩

theorem ringPut (r elem : Nat) : ReportsOnly s (s.ringPut r elem) := by
  unfold State.ringPut State.incWrap
  exact (emit _).trans (put ..)

theorem ringNotify (r : Nat) : ReportsOnly s (s.ringNotify r) := by
  unfold State.ringNotify
  extract_lets v was x s1
  have h1 : ReportsOnly s s1 := setRing ..
  split
  · split
    · exact h1.trans (sendMsix v)
    · exact h1
  · split
    · exact h1.trans (sendMsix v)
    · exact h1.trans ⟨_, _, _, _, _, _, rfl⟩

theorem ringRecord (r : Nat) (rec : List Nat) : ReportsOnly s (s.ringRecord r rec) := by
  unfold State.ringRecord
  dsimp only
  split
  · split
    · exact setRing ..
    · exact put ..
  · exact ((forEach rec _ fun e u => ringPut r e).trans (ringWriteback r)).trans (ringNotify r)

theorem event (cls : Nat) (rec : List Nat) : ReportsOnly s (s.event cls rec) := by
  unfold State.event
  split
  · exact ringRecord ..
  · exact refl

theorem unstage (path : Path) (p base n : Nat) : ReportsOnly s (s.unstage path p base n) := ⟨_, _, _, _, _, _, rfl⟩

theorem lastCmd (path : Path) (p off agent code : Nat) (v : Verdict) : ReportsOnly s (s.lastCmd path p off agent code v) := by
  unfold State.lastCmd
  extract_lets key old w _ _ s1
  have h1 : ReportsOnly s s1 := ⟨_, _, _, _, _, _, rfl⟩
  split
  · exact (h1.trans (put ..)).trans ⟨_, _, _, _, _, _, rfl⟩
  · exact h1

theorem noteAt (path : Path) (page off v : Nat) : ReportsOnly s (s.noteAt path page off v) := by
  unfold State.noteAt
  split
  · split
    · exact ⟨_, _, _, _, _, _, rfl⟩
    · exact refl
  · exact refl

theorem commanded (path : Path) (page off v agent : Nat) (r : Verdict) : ReportsOnly s (s.commanded path page off v agent r) :=
  ((unstage ..).trans (noteAt ..)).trans (lastCmd ..)

theorem reported (path : Path) (page off base agent : Nat) : ReportsOnly s (s.reported path page off base agent) :=
  (unstage ..).trans (lastCmd ..)

end ReportsOnly

/-! ### The pages that reports touch -/

namespace KeepsPages
variable {s t : State} {l : List Nat} {p : Nat}

theorem put {f : Fld} (v : Nat) (hf : f.off + 4 * (f.hi / 32) < 4096) (hp : p ∈ l) : KeepsPages s (s.put p f v) l := by
  intro q o ho hq
  have hpage : q ≠ p := fun h => hq (h ▸ hp)
  by_cases hwide : 32 ≤ f.hi
  · exact (KeepsBut.putWide v hwide hf).keepsPages q o ho (by simpa using hpage)
  · simp only [State.put, Nat.lt_of_not_le hwide, if_true]
    exact State.rd_wr_page _ _ _ _ _ _ (by omega) ho hpage

theorem irq (bit : Nat) (hp : p ∈ l) : KeepsPages s (s.irq p bit) l := (KeepsBut.irq bit).keepsPages.mono (by simpa using hp)

theorem onlyIf (c : Bool) {f : State → State} (h : KeepsPages s (f s) l) : KeepsPages s (s.onlyIf c f) l := by
  unfold State.onlyIf
  split
  · exact h
  · exact .refl

/-- A record in an EVENT ring changes HOSTQ alone. -/
theorem event (cls : Nat) (rec : List Nat) (hp : pHOSTQ ∈ l) : KeepsPages s (s.event cls rec) l := by
  unfold State.event
  split
  · next hring => exact (s.ringRecord_keepsPages (State.ringFor_lt hring) rec).mono (by simpa using hp)
  · exact .refl

end KeepsPages

/-- The report of a write changes LAST_CMD of its page alone. -/
theorem State.reported_keepsBut (s : State) (path : Path) (page off base agent : Nat) :
    KeepsBut page [0x02C] s (s.reported path page off base agent) := fun p o ho hnot =>
  State.rd_reported _ _ _ _ _ _ ho (by simpa [Prod.ext_iff, imp_iff_not_or] using hnot)

end Sys2Proof.Machine
end

section
/-! SUPPORT. The operations of the scheduler (R137 to R146): the log, late and gated heads, dispatch and the discarding of a queue. They change
registers of SCHED and HOSTQ alone. -/

namespace Sys2Proof.Machine

/-! ### The log -/

section
variable (s : State)

theorem State.schedLog_shows (a : Action) (actual : Int) (outcome result gate : Nat) :
    ReportsOnly s (s.schedLog a actual outcome result gate) ∧ KeepsPages s (s.schedLog a actual outcome result gate) [pSCHED, pHOSTQ] := by
  unfold State.schedLog
  split
  · exact ⟨.refl, .refl⟩
  · exact ⟨.event .., .event _ _ (by decide)⟩

theorem State.schedLog_keepsPages (a : Action) (actual : Int) (outcome result gate : Nat) :
    KeepsPages s (s.schedLog a actual outcome result gate) [pSCHED, pHOSTQ] := (s.schedLog_shows a actual outcome result gate).2

theorem State.gateValue_shows (gate : Option Nat) (actual : Int) (executed : Bool) :
    ReportsOnly s (s.gateValue gate actual executed).2 ∧ (s.gateValue gate actual executed).2.regs = s.regs := by
  unfold State.gateValue
  split
  · exact ⟨.refl, rfl⟩
  · split
    · exact ⟨.refl, rfl⟩
    · exact ⟨⟨_, _, _, _, _, _, rfl⟩, rfl⟩

theorem State.logDropped_reports (a : Action) (outcome result : Nat) : ReportsOnly s (s.logDropped a outcome result) :=
  (s.gateValue_shows a.gate 0 false).1.trans (State.schedLog_shows ..).1

theorem State.logDropped_keepsPages (a : Action) (outcome result : Nat) : KeepsPages s (s.logDropped a outcome result) [pSCHED, pHOSTQ] :=
  KeepsPages.trans (.of_regs (s.gateValue_shows a.gate 0 false).2) (State.schedLog_keepsPages _ _ _ _ _ _)

/-! ### Heads -/

theorem State.boundFail_keepsPages : KeepsPages s s.boundFail [pSCHED, pHOSTQ] :=
  (KeepsPages.put (f := SCHED.BOUND_FAIL_COUNT.COUNT) _ (by decide) (by decide)).trans (.irq 1 (by decide))

theorem State.boundNext_keepsPages (q : Nat) (a : Action) (v : Nat) : KeepsPages s (s.boundNext q a v) [pSCHED, pHOSTQ] :=
  (s.boundFail_keepsPages.trans (State.schedLog_keepsPages _ _ _ _ _ _)).trans (.of_regs rfl)

theorem State.lastLate_keepsPages (q : Nat) (a : Action) (actual : Int) (outcome : Nat) :
    KeepsPages s (s.lastLate q a actual outcome) [pSCHED, pHOSTQ] := by
  have hput : ∀ (u : State) (f : Fld) (v : Nat), f.off + 4 * (f.hi / 32) < 4096 → KeepsPages u (u.put pSCHED f v) [pSCHED, pHOSTQ] :=
    fun _ _ v hf => .put v hf (by decide)
  exact (((((hput _ _ _ (by decide)).trans (hput _ _ _ (by decide))).trans (hput _ _ _ (by decide))).trans (hput _ _ _ (by decide))).trans
    (hput _ _ _ (by decide))).trans (hput _ _ _ (by decide))

theorem State.lateAction_keepsPages {q : Nat} (hq : q < 16) (a : Action) (actual : Int) (outcome : Nat) :
    KeepsPages s (s.lateAction q a actual outcome) [pSCHED, pHOSTQ] := by
  have hcount : (SCHED.Q_LATE.COUNT q).off + 4 * ((SCHED.Q_LATE.COUNT q).hi / 32) < 4096 := by
    change 0x4C + 0x20 * q + 4 * (31 / 32) < 4096
    omega
  have hcounted : KeepsPages s ((s.incSat pSCHED (SCHED.Q_LATE.COUNT q)).irq pSCHED 0) [pSCHED, pHOSTQ] :=
    (KeepsPages.put (p := pSCHED) _ hcount (by decide)).trans (.irq 0 (by decide))
  exact (KeepsPages.onlyIf _ hcounted).trans (State.lastLate_keepsPages _ q a actual outcome)

/-! ### Dispatch -/

theorem State.handOver_keepsPages (q : Nat) (a : Action) (t : Int) (outcome : Nat) :
    KeepsPages s (s.handOver q a t outcome) [pSCHED, pHOSTQ] := by
  unfold State.handOver
  extract_lets gated v late out
  have hlate : ∀ (actual : Int) (o : Nat) (u : State), KeepsPages u (late actual o u) [pSCHED, pHOSTQ] := fun actual o u =>
    .onlyIf _ (u.lastLate_keepsPages q a actual o)
  have hout : ∀ o, KeepsPages s (out o) [pSCHED, pHOSTQ] := fun o =>
    (KeepsPages.trans (.of_regs rfl) (hlate t o (s.popHead q))).trans (.of_regs rfl)
  split
  · split <;> exact hout _
  · split
    · exact hout _
    · exact (hout 5).trans (State.boundFail_keepsPages _)
    · exact ((s.boundFail_keepsPages.trans (.of_regs rfl)).trans (State.schedLog_keepsPages (s.boundFail.popHead q) a 0 4 0 v)).trans (hlate 0 4 _)
    · exact (s.boundNext_keepsPages q a v).trans (hlate 0 9 _)

theorem State.dispatch_keepsPages : KeepsPages s s.dispatch [pSCHED, pHOSTQ] := by
  unfold State.dispatch
  split
  · exact .refl
  · next q a t hhead =>
    have hq := State.readyHeads_lt (earliestHead_mem hhead)
    extract_lets _ u lim
    have hu : KeepsPages s u [pSCHED, pHOSTQ] := .of_regs rfl
    clear_value u
    split
    · exact hu.trans (State.handOver_keepsPages _ _ _ _ _)
    · split
      · exact ((hu.trans (.of_regs rfl)).trans (State.lateAction_keepsPages (u.popHead q) hq a 0 3)).trans (State.logDropped_keepsPages _ _ _ _)
      · exact (hu.trans (u.lateAction_keepsPages hq a _ 1)).trans (State.handOver_keepsPages _ _ _ _ _)
      · have hput : ∀ (v : State) (x : SchedSt) (b : Action), KeepsPages v ({ v with sched := x }.setHead q b) [pSCHED, pHOSTQ] :=
          fun _ _ _ => .of_regs rfl
        exact (hu.trans (u.lateAction_keepsPages hq a _ 2)).trans (hput _ _ _)

/-! ### A queue discarded -/

/-- Discarding an action reports it, and leaves the queues. -/
theorem State.discard_reports (a : Action) : ReportsOnly s ((s.incSat pSCHED SCHED.DISCARDED_COUNT.COUNT).logDropped a 7 0) :=
  (ReportsOnly.put ..).trans (State.logDropped_reports ..)

theorem State.discard_keepsPages (a : Action) :
    KeepsPages s ((s.incSat pSCHED SCHED.DISCARDED_COUNT.COUNT).logDropped a 7 0) [pSCHED, pHOSTQ] :=
  (KeepsPages.put (p := pSCHED) (f := SCHED.DISCARDED_COUNT.COUNT) _ (by decide) (by decide)).trans (State.logDropped_keepsPages _ _ _ _)

theorem State.discardAll_shows {q : Nat} (hq : q < s.sched.queues.length) :
    ((s.discardAll q).queue q).actions = [] ∧ KeepsPages s (s.discardAll q) [pSCHED, pHOSTQ] := by
  unfold State.discardAll
  refine ⟨?_, KeepsPages.trans (.of_regs rfl) (.forEach _ _ fun a u => u.discard_keepsPages a)⟩
  rw [(ReportsOnly.forEach _ _ fun a u => u.discard_reports a).queue, State.queue_setQueue _ _ _ hq]

/-- A queue that is flushed is empty, whatever was dispatched from it in the same slot, and has no order reference (R137, R155). -/
theorem State.flushQueue_shows {s : State} (hsound : s.sound = true) {q : Nat} (hq : q < 16) : ((s.flushQueue q).queue q).actions = [] ∧
    (s.flushQueue q).get pSCHED (SCHED.Q_ORDER_REF.WHEN q) = 0 ∧ KeepsPages s (s.flushQueue q) [pSCHED, pHOSTQ] := by
  unfold State.flushQueue
  extract_lets s1
  have hlen : q < s1.sched.queues.length := by
    rw [State.sound_queues (State.onlyIf_sound hsound _ _ fun u hu => State.dispatch_sound hu)]
    exact hq
  have hdispatched : KeepsPages s s1 [pSCHED, pHOSTQ] := .onlyIf _ s.dispatch_keepsPages
  obtain ⟨hempty, hpages⟩ := s1.discardAll_shows hlen
  have hwhen : 0x50 + 0x20 * q + 4 * (127 / 32) < 4096 := by omega
  refine ⟨?_, State.get_put_wide (f := SCHED.Q_ORDER_REF.WHEN q) _ _ _ (Nat.zero_le _) (Nat.le_of_ble_eq_true rfl),
    (hdispatched.trans hpages).trans (.put _ hwhen (by decide))⟩
  rw [(ReportsOnly.put ..).queue, hempty]

end

end Sys2Proof.Machine
end

section
/-! SUPPORT. Writes of CONTROL of a page (R37): from the meaning of the parts of the word to its report. -/

namespace Sys2Proof.Machine

section
variable {c : Instr} {s t : State} {path : Path} {page v i : Nat} {k : Kind} {d : RegDesc} {P : State → Prop}

/-- A write of CONTROL whose three parts are accepted one after another is accepted. -/
theorem State.writeControl_of_parts {w : WCtx} {s1 s2 : State}
    (henable : s.asked (hasEnable k && bitOf w.v 31 != s.flag w.page ⟨0x014, 31, 31⟩) (fun s => s.setEnable w k (bitOf w.v 31)) = accept s1)
    (hexit : s1.asked (bitOf w.v 30) (fun s => s.safeExit w k) = accept s2)
    (hbit : s2.asked (bitOf w.v 0) (fun s => s.controlBit w k) = accept t) : s.writeControl w k = accept t := by
  simp only [State.writeControl, State.both, State.keep, henable, hexit, hbit, accept, if_true]

/-- A command that writes CONTROL is accepted where the word's parts are. -/
theorem Accepts.of_control (hexec : c.wf = true → exec c s = .next (s.wrote path page 0x014 v)) (hreg : regAt page 0x014 = some (k, i, d, 0, 0))
    (hdesc : d.words = 1 ∧ d.isCmd = false ∧ d.base = 0x014) (hmeaning : s.writeControl (s.wctx path page i d 0 v) k = accept t)
    (hP : P (t.reported path page 0x014 (d.at_ 0) (s.agentOf path))) : Accepts c s path page 0x014 v P := by
  obtain ⟨hwords, hcmd, hbase⟩ := hdesc
  refine Accepts.of_wrote hexec (fun hpass hval => ?_) fun _ => hP
  simp only [valueOk, hreg, Bool.and_eq_true, Bool.not_eq_true'] at hval
  obtain ⟨⟨⟨-, hres⟩, hfmt⟩, -⟩ := hval
  refine State.wrote_of_accepted hreg hwords hcmd hpass fun x => ?_
  have hvalid : ¬(d.reserved v = true ∨ (!formatOk k d v) = true) := by simp [hres, hfmt]
  have hheader : s.writeReg (s.wctx path page i d 0 v) k d 0 x = s.writeControl (s.wctx path page i d 0 v) k := by
    simp only [State.writeReg, State.writeHeader, State.wctx, hbase, hvalid, if_false, Nat.reduceLT, if_true, Nat.reduceEqDiff]
  exact hheader.trans hmeaning

end

/-- The word that sets one bit of CONTROL has that bit, and ENABLE as it stands. -/
theorem State.bitOf_controlWith (s : State) (page bit i : Nat) :
    bitOf (s.controlWith page bit) i = (decide (i = bit) || (decide (i = 31) && s.flag page ⟨0x014, 31, 31⟩)) := by
  have hput := bitOf_putBits_bit (if s.flag page ⟨0x014, 31, 31⟩ then 2 ^ 31 else 0) bit i true
  have henable : bitOf (2 ^ 31) i = decide (i = 31) := by
    rw [bitOf_eq_testBit, Nat.testBit_two_pow]
    exact decide_eq_decide.2 eq_comm
  refine hput.trans ?_
  by_cases hi : i = bit
  · simp [hi]
  · rw [if_neg hi]
    split
    · next hon => simp only [henable, hi, hon, decide_false, Bool.false_or, Bool.and_true]
    · next hoff => simp [bitOf, hi, hoff]

end Sys2Proof.Machine
end

section
/-! PROOFS. The commands of the scheduler (O28). -/

namespace Sys2Proof.Machine

/-! ### SUBMIT_CMD -/

/-- SUBMIT_CMD. -/
def submitCmdReg : RegDesc := ⟨SCHED.SUBMIT_CMD.off, 0, 1, 1, [⟨11, 8, .cmd, 0⟩, ⟨7, 0, .cmd, 0⟩]⟩

theorem regAt_submitCmd : regAt pSCHED SCHED.SUBMIT_CMD.off = some (.sched, 0, submitCmdReg, 0, 0) := rfl

/-- The words of Q_ORDER_REF lie apart from SUBMIT_CMD and LAST_CMD. -/
theorem orderRef_notMem {q o : Nat} (ho : o ∈ fieldOffsets (SCHED.Q_ORDER_REF.WHEN q)) : o ∉ [SCHED.SUBMIT_CMD.off, 0x02C] := by
  obtain ⟨k, hk, rfl⟩ := List.mem_map.1 ho
  have hword : k < 127 / 32 + 1 := List.mem_range.1 hk
  have hoff : ¬(0x50 + 0x20 * q + 4 * k = 0x2A0 ∨ 0x50 + 0x20 * q + 4 * k = 0x02C) := by omega
  simpa using hoff

section
variable {s : State} {path : Path} {q : Nat}

theorem oneWord_accepted (hq : q < 16) : OneWord (SCHED.Q_ACCEPTED.COUNT q) :=
  ⟨Nat.zero_le _, Nat.le_of_ble_eq_true rfl, show 0x48 + 0x20 * q < 4096 by omega⟩

/-- The action that a queue takes from the element `v`. -/
def State.actionTaken (s : State) (q idx v : Nat) : Action :=
  { actionOf q idx v with
    requested := (s.actionInstant (actionOf q idx v) v).1
    at_ := (s.actionInstant (actionOf q idx v) v).1
    period := (s.actionInstant (actionOf q idx v) v).2 }

/-- The queue with that action at its end, and the order reference that it leaves. -/
def State.taken (s : State) (q idx v : Nat) : State :=
  let w := if (actionOf q idx v).base = 0 then bitsOf v 255 128 else (actionOf q idx v).when_
  ((s.setQueue q { s.queue q with actions := (s.queue q).actions ++ [s.actionTaken q idx v], orderRef := some w }).incWrap pSCHED
    (SCHED.Q_ACCEPTED.COUNT q)).put pSCHED (SCHED.Q_ORDER_REF.WHEN q) w

theorem State.offer_of_ok {idx v : Nat} (h : s.actionCheck q v = .ok) : s.offer q idx v = (s.taken q idx v, .ok) := by
  unfold State.offer State.taken State.actionTaken
  dsimp only
  rw [h]

theorem State.taken_holds {B : List Host.Cell} {L : List Instr} (hs : s.holds B L) (idx v : Nat) : (s.taken q idx v).holds B L :=
  State.put_holds (State.incWrap_holds (State.setQueue_holds hs _ _) _ _ _) _ _ _

variable (hq : q < 16)
include hq

/-- An accepted action stands at the end of its queue and is counted (R137). -/
theorem State.taken_shows (hlen : q < s.sched.queues.length) (idx v : Nat) :
    ((s.taken q idx v).queue q).actions = (s.queue q).actions ++ [s.actionTaken q idx v] ∧
    (s.taken q idx v).get pSCHED (SCHED.Q_ACCEPTED.COUNT q) = (s.get pSCHED (SCHED.Q_ACCEPTED.COUNT q) + 1) % 2 ^ 32 ∧
    KeepsPages s (s.taken q idx v) [pSCHED] := by
  have hcount := oneWord_accepted hq
  have hwhen : 0x50 + 0x20 * q + 4 * (127 / 32) < 4096 := by omega
  have hapart : (SCHED.Q_ACCEPTED.COUNT q).off ∉ fieldOffsets (SCHED.Q_ORDER_REF.WHEN q) := fun hmem => by
    obtain ⟨k, -, hk⟩ := List.mem_map.1 hmem
    have hoff : 0x50 + 0x20 * q + 4 * k = 0x48 + 0x20 * q := hk
    omega
  unfold State.taken
  extract_lets w
  generalize hx : ({ s.queue q with actions := (s.queue q).actions ++ [s.actionTaken q idx v], orderRef := some w } : QueueSt) = x
  have hcounted : KeepsPages (s.setQueue q x) ((s.setQueue q x).incWrap pSCHED (SCHED.Q_ACCEPTED.COUNT q)) [pSCHED] :=
    .put (p := pSCHED) _ (by simpa using hcount.2.2) (by simp)
  have hreports : ReportsOnly (s.setQueue q x) ((s.setQueue q x).incWrap pSCHED (SCHED.Q_ACCEPTED.COUNT q)) := .put ..
  have hvalue : ((s.setQueue q x).incWrap pSCHED (SCHED.Q_ACCEPTED.COUNT q)).get pSCHED (SCHED.Q_ACCEPTED.COUNT q) =
      ((s.setQueue q x).get pSCHED (SCHED.Q_ACCEPTED.COUNT q) + 1) % 2 ^ 32 :=
    (State.get_put_self _ _ _ _ hcount.1 hcount.2.1).trans (Nat.mod_mod _ _)
  have hset : KeepsPages s (s.setQueue q x) [pSCHED] := .of_regs (State.setQueue_regs ..)
  have hsame : (s.setQueue q x).get pSCHED (SCHED.Q_ACCEPTED.COUNT q) = s.get pSCHED (SCHED.Q_ACCEPTED.COUNT q) :=
    (KeepsRegs.of_same (l := []) (State.setQueue_regs ..)).get_eq hcount (by simp)
  have hactions : ((s.setQueue q x).incWrap pSCHED (SCHED.Q_ACCEPTED.COUNT q)).queue q = x := by
    rw [hreports.queue, State.queue_setQueue _ _ _ hlen]
  generalize (s.setQueue q x).incWrap pSCHED (SCHED.Q_ACCEPTED.COUNT q) = u at *
  refine ⟨?_, ?_, (hset.trans hcounted).trans (.put _ hwhen (by simp))⟩
  · rw [(ReportsOnly.put ..).queue, hactions, ← hx]
  · rw [(KeepsBut.putWide w (Nat.le_of_ble_eq_true rfl) hwhen).get_eq hcount hapart, hvalue, hsame]

/-- A word of SUBMIT_CMD means the command of its code, for the queue it names. -/
theorem State.submitCmd_submit (x : Extra) :
    s.writeBody (s.wctx path pSCHED 0 submitCmdReg 0 (packRec [(8, 4, q), (0, 8, 1)])) .sched submitCmdReg 0 x =
    s.submit q (s.winNat path pSCHED SCHED.SUBMIT_BUF.off 8) := by
  obtain ⟨hqueue, hcode⟩ := swapWord_fields (code := 1) hq (by decide)
  change s.submitCmd _ = _
  simp only [State.submitCmd, State.wctx, hqueue, hcode]

theorem State.submitCmd_flush (x : Extra) :
    s.writeBody (s.wctx path pSCHED 0 submitCmdReg 0 (packRec [(8, 4, q), (0, 8, 2)])) .sched submitCmdReg 0 x =
    accept (s.flushQueue q) := by
  obtain ⟨hqueue, hcode⟩ := swapWord_fields (code := 2) hq (by decide)
  change s.submitCmd _ = _
  simp only [State.submitCmd, State.wctx, hqueue, hcode]

variable (hsound : s.sound = true)
include hsound

theorem accepts_submit (howner : s.queueOwner q ≠ 0) (hring : s.ringFor 1 q = none) (hon : s.flag pSCHED (SCHED.Q_CFG.ENABLE q) = true)
    (hroom : (s.queue q).actions.length < 512) (hcheck : s.actionCheck q (s.winNat path pSCHED SCHED.SUBMIT_BUF.off 8) = .ok) :
    Accepts (.submit path q) s path pSCHED SCHED.SUBMIT_CMD.off (packRec [(8, 4, q), (0, 8, 1)]) (fun t =>
      (∃ a : Action, (t.queue q).actions = (s.queue q).actions ++ [a] ∧ a.op = bitsOf (s.winNat path pSCHED SCHED.SUBMIT_BUF.off 8) 7 0 ∧
        a.target = bitsOf (s.winNat path pSCHED SCHED.SUBMIT_BUF.off 8) 35 28 ∧ a.queue = q) ∧
      t.get pSCHED (SCHED.Q_ACCEPTED.COUNT q) = (s.get pSCHED (SCHED.Q_ACCEPTED.COUNT q) + 1) % 2 ^ 32 ∧ KeepsPages s t [pSCHED] ∧
      KeepsMemory s t) := by
  generalize hv : s.winNat path pSCHED SCHED.SUBMIT_BUF.off 8 = v at hcheck ⊢
  have hsubmit : s.submit q v = accept (s.taken q 0xFFFFFFFF v) := by
    simp only [State.submit, howner, hring, hon, Nat.not_le.2 hroom, State.offer_of_ok hcheck, Option.isSome_none, Bool.not_true, Bool.or_self,
      Bool.false_eq_true, reduceCtorEq, if_false]
    rfl
  obtain ⟨hactions, hcount, hpages⟩ := State.taken_shows hq (by rwa [State.sound_queues hsound]) 0xFFFFFFFF v
  have hreport := (s.taken q 0xFFFFFFFF v).commanded_keepsRegs path pSCHED (packRec [(8, 4, q), (0, 8, 1)]) (s.agentOf path)
    (off := SCHED.SUBMIT_CMD.off) (by decide) none
  have hnot : (pSCHED, 0x48 + 0x20 * q) ∉ [(pSCHED, SCHED.SUBMIT_CMD.off), (pSCHED, 0x02C)] := by
    have hoff : ¬(0x48 + 0x20 * q = 0x2A0 ∨ 0x48 + 0x20 * q = 0x02C) := by omega
    simpa using hoff
  refine .of_command regAt_submitCmd (by decide) rfl
    (fun x => (State.submitCmd_submit hq x).trans ((congrArg (s.submit q) hv).trans hsubmit))
    ⟨⟨s.actionTaken q 0xFFFFFFFF v, ?_, rfl, rfl, rfl⟩, ?_, hpages.trans (hreport.keepsPages (by simp)),
      .of_holds (State.commanded_holds _ _ _ _ _ _ (State.taken_holds s.holds_self _ _) _)⟩
  · rw [(ReportsOnly.commanded ..).queue, hactions]
  · rw [hreport.get_eq (oneWord_accepted hq) hnot, hcount]

theorem accepts_flush :
    Accepts (.flush path q) s path pSCHED SCHED.SUBMIT_CMD.off (packRec [(8, 4, q), (0, 8, 2)]) (fun t => (t.queue q).actions = [] ∧
      t.get pSCHED (SCHED.Q_ORDER_REF.WHEN q) = 0 ∧ KeepsPages s t [pSCHED, pHOSTQ] ∧ KeepsMemory s t) := by
  obtain ⟨hempty, hwhen, hpages⟩ := State.flushQueue_shows hsound hq
  have hreport : KeepsBut pSCHED [SCHED.SUBMIT_CMD.off, 0x02C] (s.flushQueue q) _ := (s.flushQueue q).commanded_keepsRegs path pSCHED
    (packRec [(8, 4, q), (0, 8, 2)]) (s.agentOf path) (by decide) none
  refine .of_command regAt_submitCmd (by decide) rfl (State.submitCmd_flush hq)
    ⟨?_, ?_, hpages.trans (hreport.keepsPages.mono (by simp)),
      .of_holds (State.commanded_holds _ _ _ _ _ _ (State.flushQueue_holds s.holds_self _) _)⟩
  · rw [(ReportsOnly.commanded ..).queue, hempty]
  · rw [hreport.get_wide_eq (Nat.le_of_ble_eq_true rfl) (show 0x50 + 0x20 * q + 4 * (127 / 32) < 4096 by omega) fun o ho => orderRef_notMem ho,
      hwhen]

end

/-! ### SAFE_EXIT -/

/-- CONTROL of SCHED. -/
def schedControl : RegDesc := ⟨SCHED.CONTROL.off, 0, 1, 1, [⟨31, 31, .rw, 1⟩, ⟨30, 30, .w1s, 0⟩]⟩

theorem regAt_schedControl : regAt pSCHED 0x014 = some (.sched, 0, schedControl, 0, 0) := rfl

/-- An agent that is no orphan leaves the orphan SAFE state of its queues (R143). -/
theorem State.schedSafeExit_accepts {s : State} {agent : Nat} (h : agent ∉ s.host.orphaned) :
    ∃ t, s.schedSafeExit agent = accept t ∧ agent ∉ t.sched.held ∧ t.regs = s.regs := by
  by_cases hheld : s.sched.held.contains agent = true
  · have horphan : s.host.orphaned.contains agent = false := by simpa using h
    refine ⟨{ s with sched := { s.sched with held := s.sched.held.filter (· ≠ agent) } }, ?_, by simp, rfl⟩
    simp only [State.schedSafeExit, hheld, horphan, Bool.not_true, Bool.false_eq_true, if_false]
  · refine ⟨s, ?_, by simpa using hheld, rfl⟩
    simp only [State.schedSafeExit, hheld, Bool.not_false, if_true]

theorem accepts_queueSafeExit {s : State} {path : Path} (h : s.agentOf path ∉ s.host.orphaned) :
    Accepts (.queueSafeExit path) s path pSCHED 0x014 (s.controlWith pSCHED 30) (fun t => s.agentOf path ∉ t.sched.held ∧
      KeepsRegs s t [(pSCHED, 0x02C)] ∧ KeepsMemory s t) := by
  obtain ⟨t, hexit, hreleased, hregs⟩ := State.schedSafeExit_accepts h
  have hmem : t.holds s.bar2 s.pending := by
    have hholds := State.schedSafeExit_holds s.holds_self (s.agentOf path)
    rwa [hexit] at hholds
  have hmeaning : s.writeControl (s.wctx path pSCHED 0 schedControl 0 (s.controlWith pSCHED 30)) .sched = accept t := by
    refine State.writeControl_of_parts (s1 := s) (s2 := t) (by simp [State.asked, hasEnable]) ?_ ?_
    · simp only [State.wctx, State.asked, s.bitOf_controlWith, decide_true, Bool.true_or, if_true, State.safeExit, hexit, State.keep, accept]
    · simp [State.wctx, State.asked, s.bitOf_controlWith]
  refine .of_control (fun hwf => guarded_of_wf s (fun s => s.wrote path pSCHED 0x014 (s.controlWith pSCHED 30)) hwf) regAt_schedControl
    (by decide) hmeaning ⟨?_, ?_, .of_holds (State.reported_holds _ _ _ _ _ _ hmem)⟩
  · rw [(ReportsOnly.reported ..).sched]
    exact hreleased
  · exact (KeepsRegs.of_same hregs).trans (t.reported_keepsBut path pSCHED _ _ _)

/-! ### TICK_CFG -/

/-- TICK_CFG. -/
def tickCfgReg : RegDesc := ⟨SCHED.TICK_CFG.off 0, 0x40, 8, 1, [⟨31, 31, .rw, 0⟩, ⟨15, 0, .rw, 0⟩]⟩

theorem tickCfg_apart : FieldsApart tickCfgReg.fields := ⟨by decide, by decide⟩

/-- The two words of TICK_NEXT. -/
theorem fieldOffsets_tickNext (n : Nat) : fieldOffsets (SCHED.TICK_NEXT.INDEX n) = [SCHED.TICK_NEXT.off n, SCHED.TICK_NEXT.off n + 4] := by
  unfold fieldOffsets
  simp [List.range_succ]

section
variable {s : State} {n : Nat} (hn : n < 8)
include hn

theorem regAt_tickCfg : regAt pSCHED (SCHED.TICK_CFG.off n) = some (.sched, 0, tickCfgReg, n, 0) := by
  interval_cases n <;> rfl

/-- TICK_CFG holds no part of ORIGIN and PERIOD: the first tick after an instant is the same with any other value of it. -/
theorem State.tickIndexFrom_of_keeps {t : State} (h : KeepsBut pSCHED [SCHED.TICK_CFG.off n] s t) (lim32 : Int) :
    t.tickIndexFrom n lim32 = s.tickIndexFrom n lim32 := by
  have hapart : ∀ base hi, 0x400 < base → ∀ o ∈ fieldOffsets ⟨base + 0x40 * n, hi, 0⟩, o ∉ [SCHED.TICK_CFG.off n] :=
    fun base hi hbase o ho => by
    obtain ⟨k, -, rfl⟩ := List.mem_map.1 ho
    have hoff : base + 0x40 * n + 4 * k ≠ 0x400 + 0x40 * n := by omega
    simpa using hoff
  have horigin : t.tickOrigin n = s.tickOrigin n := congrArg (fun v : Nat => ((instantOf v : Nat) : Int))
    (h.get_wide_eq (f := SCHED.TICK_ORIGIN.INSTANT n) (Nat.le_of_ble_eq_true rfl) (show 0x410 + 0x40 * n + 4 * (127 / 32) < 4096 by omega)
      (hapart _ _ (by decide)))
  have hperiod : t.tickPeriod n = s.tickPeriod n := congrArg spanOf
    (h.get_wide_eq (f := SCHED.TICK_PERIOD.SPAN n) (Nat.le_of_ble_eq_true rfl) (show 0x420 + 0x40 * n + 4 * (95 / 32) < 4096 by omega)
      (hapart _ _ (by decide)))
  simp only [State.tickIndexFrom, horigin, hperiod]

/-- A generator that starts shows its first tick, 1 024 ns ahead, and has fired none (R149). -/
theorem State.tickStart_shows (s : State) :
    (s.tickStart n).get pSCHED (SCHED.TICK_NEXT.INDEX n) = s.tickIndexFrom n (s.next32 + horizon32) % 2 ^ 64 ∧
    (s.tickStart n).get pSCHED (SCHED.TICK_FIRED.COUNT n) = 0 ∧
    KeepsBut pSCHED [SCHED.TICK_NEXT.off n, SCHED.TICK_NEXT.off n + 4, SCHED.TICK_FIRED.off n] s (s.tickStart n) := by
  have hfired : 0x438 + 0x40 * n < 4096 := by omega
  have hnext : 0x430 + 0x40 * n + 4 * (63 / 32) < 4096 := by omega
  let u := s.put pSCHED (SCHED.TICK_NEXT.INDEX n) (s.tickIndexFrom n (s.next32 + horizon32))
  have hwr : KeepsBut pSCHED [SCHED.TICK_FIRED.off n] u (s.tickStart n) := fun p o ho hnot =>
    State.rd_wr_ne _ _ _ _ _ _ hfired ho (by simpa [Prod.ext_iff, imp_iff_not_or] using hnot)
  have hput : KeepsBut pSCHED [SCHED.TICK_NEXT.off n, SCHED.TICK_NEXT.off n + 4] s u :=
    fieldOffsets_tickNext n ▸ KeepsBut.putWide (f := SCHED.TICK_NEXT.INDEX n) _ (Nat.le_of_ble_eq_true rfl) hnext
  refine ⟨?_, ?_, hput.trans hwr⟩
  · rw [hwr.get_wide_eq (f := SCHED.TICK_NEXT.INDEX n) (Nat.le_of_ble_eq_true rfl) hnext fun o ho => ?_]
    · exact State.get_put_wide (f := SCHED.TICK_NEXT.INDEX n) _ _ _ (Nat.zero_le _) (Nat.le_of_ble_eq_true rfl)
    · obtain ⟨k, hk, rfl⟩ := List.mem_map.1 ho
      have hword : k < 63 / 32 + 1 := List.mem_range.1 hk
      have hoff : 0x430 + 0x40 * n + 4 * k ≠ 0x438 + 0x40 * n := by omega
      simpa using hoff
  · have hrd : (s.tickStart n).rd pSCHED (SCHED.TICK_FIRED.off n) = 0 := State.rd_wr_self u _ _ _
    change bitsOf ((s.tickStart n).rd pSCHED (SCHED.TICK_FIRED.off n)).toNat 31 0 = 0
    rw [hrd]
    rfl

theorem accepts_tickEnable {path : Path} {v : Nat} (hon : bitOf v 31 = true) (hoff : s.flag pSCHED (SCHED.TICK_CFG.ENABLE n) = false)
    (hstage : 2 ≤ s.stage) (hperiod : s.tickPeriod n ≠ 0) :
    Accepts (.tickEnable path n v) s path pSCHED (SCHED.TICK_CFG.off n) v (fun t => t.flag pSCHED (SCHED.TICK_CFG.ENABLE n) = true ∧
      t.get pSCHED (SCHED.TICK_FIRED.COUNT n) = 0 ∧
      t.get pSCHED (SCHED.TICK_NEXT.INDEX n) = s.tickIndexFrom n (s.next32 + horizon32) % 2 ^ 64 ∧
      KeepsPages s t [pSCHED] ∧ KeepsMemory s t) := by
  let c := s.wctx path pSCHED 0 tickCfgReg n v
  let u := s.put_ c tickCfgReg
  have hcfg : 0x400 + 0x40 * n < 4096 := by omega
  have hput : KeepsBut pSCHED [SCHED.TICK_CFG.off n] s u := s.putFields_keepsRegs c rfl rfl rfl hcfg
  have henabled : u.flag pSCHED (SCHED.TICK_CFG.ENABLE n) = true := by
    have hget : u.get pSCHED (SCHED.TICK_CFG.ENABLE n) = bitsOf v 31 31 :=
      State.get_putFields (c := c) (f := ⟨31, 31, .rw, 0⟩) rfl tickCfg_apart (.head _) (by decide) (.inl rfl)
    rw [State.flag, hget, bitsOf_single, hon]
    rfl
  obtain ⟨hnext, hfired, hstart⟩ := State.tickStart_shows hn u
  have hreport := (u.tickStart n).reported_keepsBut path pSCHED (SCHED.TICK_CFG.off n) (tickCfgReg.at_ n) (s.agentOf path)
  have hlastCmd : ∀ base, 0x400 ≤ base → base + 0x40 * n ∉ [0x02C] := fun base hbase => by
    have hapart : base + 0x40 * n ≠ 0x02C := by omega
    simpa using hapart
  refine Accepts.of_body (t := u.tickStart n) (fun h => guarded_of_wf s (fun s => s.wrote path pSCHED (SCHED.TICK_CFG.off n) v) h) (regAt_tickCfg hn)
    rfl rfl (by decide) (fun x => ?_) ⟨?_, ?_, ?_, (hput.keepsPages.trans hstart.keepsPages).trans hreport.keepsPages,
      .of_holds (State.reported_holds _ _ _ _ _ _ (State.tickStart_holds (State.put__holds s.holds_self _ _) _))⟩
  · change s.writeTick c tickCfgReg n = accept (u.tickStart n)
    have hlate : ¬s.stage < 2 := by omega
    simp only [State.writeTick, c, State.wctx, hon, hoff, hperiod, hlate, Bool.not_false, and_self, if_true, if_false]
    rfl
  · have hapart : SCHED.TICK_CFG.off n ∉ [SCHED.TICK_NEXT.off n, SCHED.TICK_NEXT.off n + 4, SCHED.TICK_FIRED.off n] := by
      have hoff : ¬(0x400 + 0x40 * n = 0x430 + 0x40 * n ∨ 0x400 + 0x40 * n = 0x430 + 0x40 * n + 4 ∨ 0x400 + 0x40 * n = 0x438 + 0x40 * n) := by
        omega
      exact fun hmem => hoff (by simpa only [List.mem_cons, List.not_mem_nil, or_false] using hmem)
    rw [hreport.flag_eq ⟨Nat.le_refl _, Nat.le_of_ble_eq_true rfl, hcfg⟩ (hlastCmd _ (by decide)), hstart.flag_eq ⟨Nat.le_refl _,
      Nat.le_of_ble_eq_true rfl, hcfg⟩ hapart, henabled]
  · rw [hreport.get_eq ⟨Nat.zero_le _, Nat.le_of_ble_eq_true rfl, show 0x438 + 0x40 * n < 4096 by omega⟩ (hlastCmd _ (by decide)), hfired]
  · have hnow : u.next32 = s.next32 := by rw [State.next32, State.putFields_clk _ _ rfl, State.next32]
    rw [hreport.get_wide_eq (Nat.le_of_ble_eq_true rfl) (show 0x430 + 0x40 * n + 4 * (63 / 32) < 4096 by omega) fun o ho => ?_, hnext, hnow,
      State.tickIndexFrom_of_keeps hn hput]
    obtain ⟨k, -, rfl⟩ := List.mem_map.1 ho
    have hoff : 0x430 + 0x40 * n + 4 * k ≠ 0x02C := by omega
    simpa using hoff

end

/-- Settles O28: SUBMIT and FLUSH through what they leave of the queue, SAFE_EXIT as a write of CONTROL, and a tick generator through the registers
that its start puts. -/
theorem schedulerCommands : Obligations.SchedulerCommands := by
  intro s hsound path q hq
  exact ⟨accepts_submit hq hsound, accepts_flush hq hsound, accepts_queueSafeExit, fun n _ hn => accepts_tickEnable hn⟩

end Sys2Proof.Machine
end

section
/-! PROOFS. Phase trackers (O31): what ENABLE, RESTART and a lost source begin again, and the instants that conversions give. -/

namespace Sys2Proof.Machine

/-! ### Acquisition -/

/-- A tracker in acquisition, without history. -/
def State.acquiresAfresh (s : State) (k : Nat) : Prop := s.phaseState k = 1 ∧ (s.phase k).stamps = []

section
variable {s : State} {k : Nat}

/-- STATE is put, with the interrupt that the change raises (R151). -/
theorem State.putPhaseState_shows (s : State) (k : Nat) {st : Nat} (hst : st < 8) : (s.putPhaseState k st).phaseState k = st ∧
    ReportsOnly s (s.putPhaseState k st) ∧ KeepsBut (pPHASE k) [0x010, 0x018] s (s.putPhaseState k st) := by
  have hput : KeepsBut (pPHASE k) [0x010] s (s.put (pPHASE k) PHASE.STATUS.STATE st) := KeepsBut.put (f := PHASE.STATUS.STATE) st (by decide)
  have hstate : (s.put (pPHASE k) PHASE.STATUS.STATE st).phaseState k = st :=
    (State.get_put_self s (pPHASE k) PHASE.STATUS.STATE st (by decide) (by decide)).trans (Nat.mod_eq_of_lt hst)
  have hirq : ∀ bit, ((s.put (pPHASE k) PHASE.STATUS.STATE st).irq (pPHASE k) bit).phaseState k = st ∧
      ReportsOnly s ((s.put (pPHASE k) PHASE.STATUS.STATE st).irq (pPHASE k) bit) ∧
      KeepsBut (pPHASE k) [0x010, 0x018] s ((s.put (pPHASE k) PHASE.STATUS.STATE st).irq (pPHASE k) bit) := fun bit =>
    ⟨((KeepsBut.irq bit).get_eq (f := PHASE.STATUS.STATE) (by decide) (by decide)).trans hstate, (ReportsOnly.put ..).trans (.irq ..),
      hput.trans (.irq bit)⟩
  unfold State.putPhaseState
  extract_lets old s1
  split
  · exact hirq 0
  · split
    · exact hirq 4
    · exact ⟨hstate, .put .., hput.mono (by simp)⟩

/-- A tracker whose record holds no stamps and whose STATE is put to ACQUIRING begins acquisition with an empty history. -/
theorem State.acquiresAfresh_of_setPhase (hlen : k < s.phases.length) {x : PhaseSt} (hx : x.stamps = []) :
    ((s.setPhase k x).putPhaseState k 1).acquiresAfresh k ∧ KeepsBut (pPHASE k) [0x010, 0x018] s ((s.setPhase k x).putPhaseState k 1) := by
  obtain ⟨hstate, hreports, hkeep⟩ := (s.setPhase k x).putPhaseState_shows k (st := 1) (by decide)
  refine ⟨⟨hstate, ?_⟩, KeepsBut.trans (l := []) (.of_regs rfl) hkeep⟩
  rw [hreports.phase, State.phase_setPhase _ _ _ hlen, hx]

theorem State.reacquire_shows (hlen : k < s.phases.length) (j : Int) :
    (s.reacquire k j).acquiresAfresh k ∧ KeepsBut (pPHASE k) [0x010, 0x018] s (s.reacquire k j) :=
  State.acquiresAfresh_of_setPhase (x := { s.phase k with stamps := [], spacing := none, nextJ := j, slips := 0 }) hlen rfl

theorem State.phaseStart_shows (hlen : k < s.phases.length) :
    (s.phaseStart k).acquiresAfresh k ∧ KeepsBut (pPHASE k) [0x010, 0x018] s (s.phaseStart k) :=
  State.acquiresAfresh_of_setPhase (x := {}) hlen rfl

/-- The report of a write of a tracker's page leaves the tracker in acquisition. -/
theorem State.acquiresAfresh_reported (h : s.acquiresAfresh k) (path : Path) (off base agent : Nat) :
    (s.reported path (pPHASE k) off base agent).acquiresAfresh k := by
  obtain ⟨hstate, hstamps⟩ := h
  refine ⟨?_, ?_⟩
  · rw [State.phaseState, (s.reported_keepsBut path (pPHASE k) off base agent).get_eq (f := PHASE.STATUS.STATE) (by decide) (by decide)]
    exact hstate
  · rw [(ReportsOnly.reported ..).phase, hstamps]

end

/-! ### A place among the subscribers of an input -/

section
variable {s t : State} {i kind idx : Nat}

theorem State.takePlace_isSome (s : State) (i kind idx : Nat) :
    (s.takePlace i kind idx).isSome = ((List.range 4).find? fun j => (s.place i j).isNone).isSome := by
  unfold State.takePlace
  generalize ((List.range 4).find? fun j => (s.place i j).isNone) = free
  cases free with
  | none => simp only [Option.isSome_none]
  | some j => simp only [Option.isSome_some]

/-- Whether a place is free depends on the input's page alone. -/
theorem State.takePlace_isSome_of_samePage (h : SamePage (pTIN i) s t) : (t.takePlace i kind idx).isSome = (s.takePlace i kind idx).isSome := by
  have hplace : ∀ j ∈ List.range 4, (t.place i j).isNone = (s.place i j).isNone := fun j hj => by
    have hj4 : j < 4 := List.mem_range.1 hj
    have hget : ∀ hi lo, lo ≤ hi → hi < 32 → t.get (pTIN i) ⟨0xA0 + 0x8 * j, hi, lo⟩ = s.get (pTIN i) ⟨0xA0 + 0x8 * j, hi, lo⟩ :=
      fun hi lo hle h32 => h.get_eq ⟨hle, h32, show 0xA0 + 0x8 * j < 4096 by omega⟩
    have hplace : t.place i j = s.place i j := by
      unfold State.place State.flag
      rw [hget 31 31 (by decide) (by decide), hget 19 16 (by decide) (by decide), hget 7 0 (by decide) (by decide)]
    rw [hplace]
  rw [State.takePlace_isSome, State.takePlace_isSome, List.find?_congr hplace]

/-- Taking a place changes registers of the input's page alone. -/
theorem State.takePlace_shows (h : s.takePlace i kind idx = some t) : ReportsOnly s t ∧ KeepsPages s t [pTIN i] := by
  unfold State.takePlace at h
  split at h
  · cases h
  · next j hfree =>
    have hj : j < 4 := List.mem_range.1 (List.mem_of_find?_eq_some hfree)
    have hput : ∀ (u : State) (hi lo v : Nat), hi < 32 → KeepsPages u (u.put (pTIN i) ⟨0xA0 + 0x8 * j, hi, lo⟩ v) [pTIN i] :=
      fun u hi lo v hhi => .put v (show 0xA0 + 0x8 * j + 4 * (hi / 32) < 4096 by omega) (by simp)
    rw [← Option.some.inj h]
    exact ⟨(((ReportsOnly.put ..).trans (.put ..)).trans (.put ..)).trans (.put ..),
      (((hput _ _ _ _ (by decide)).trans (hput _ _ _ _ (by decide))).trans (hput _ _ _ _ (by decide))).trans
        (.put (f := TIN.STATUS.SUBSCRIBERS) _ (by decide) (by simp))⟩

end

/-! ### ENABLE and RESTART -/

/-- CONTROL of a tracker. -/
def phaseControl : RegDesc := ⟨PHASE.CONTROL.off, 0, 1, 1, [⟨31, 31, .rw, 0⟩, ⟨30, 30, .w1s, 0⟩, ⟨0, 0, .w1s, 0⟩]⟩

theorem State.phaseEnable_of_place {s t : State} {k : Nat} (hstage : 2 ≤ s.stage)
    (hplace : (s.putFlag (pPHASE k) ⟨0x014, 31, 31⟩ true).takePlace (s.get (pPHASE k) PHASE.SRC_CFG.SRC_TIN) 3 k = some t) :
    s.phaseEnable k true = accept (t.phaseStart k) := by
  have hlate : ¬s.stage < 2 := by omega
  simp only [State.phaseEnable, Bool.not_true, Bool.false_eq_true, if_false, hlate, hplace]

section
variable {s : State} {k : Nat} (hk : k < 4)
include hk

theorem regAt_phaseControl : regAt (pPHASE k) 0x014 = some (.phase, k, phaseControl, 0, 0) := by
  interval_cases k <;> rfl

variable {path : Path} (hsound : s.sound = true)
include hsound

/-- A tracker that is enabled takes a place of its input and begins acquisition (R150). -/
theorem State.phaseEnable_accepts (hstage : 2 ≤ s.stage) (hplace : (s.takePlace (s.get (pPHASE k) PHASE.SRC_CFG.SRC_TIN) 3 k).isSome = true) :
    ∃ t, s.phaseEnable k true = accept t ∧ t.acquiresAfresh k ∧ t.flag (pPHASE k) PHASE.CONTROL.ENABLE = true ∧
      KeepsPages s t [pPHASE k, pTIN (s.get (pPHASE k) PHASE.SRC_CFG.SRC_TIN)] := by
  have hi : s.get (pPHASE k) PHASE.SRC_CFG.SRC_TIN < 16 := bitsOf_lt _ 3 0
  generalize htin : s.get (pPHASE k) PHASE.SRC_CFG.SRC_TIN = i at *
  have hapart : pTIN i ≠ pPHASE k := show 0x60 + i ≠ 0x71 + k by omega
  have hput : KeepsBut (pPHASE k) [0x014] s (s.putFlag (pPHASE k) PHASE.CONTROL.ENABLE true) := KeepsBut.put _ (by decide)
  have hon := s.flag_putFlag_self (pPHASE k) (f := PHASE.CONTROL.ENABLE) true (by decide)
  have hphases : (s.putFlag (pPHASE k) PHASE.CONTROL.ENABLE true).phases = s.phases := (ReportsOnly.put ..).phases
  generalize hs1 : s.putFlag (pPHASE k) PHASE.CONTROL.ENABLE true = s1 at *
  have hfree : (s1.takePlace i 3 k).isSome = true := by
    rw [State.takePlace_isSome_of_samePage (hput.keepsPages.samePage (by simpa using hapart)), hplace]
  obtain ⟨s2, hs2⟩ := Option.isSome_iff_exists.1 hfree
  obtain ⟨hreports, htaken⟩ := State.takePlace_shows hs2
  have hlen : k < s2.phases.length := by rwa [hreports.phases, hphases, State.sound_phases hsound]
  obtain ⟨hacquires, hstart⟩ := State.phaseStart_shows hlen
  refine ⟨s2.phaseStart k, ?_, hacquires, ?_,
    ((hput.keepsPages.mono (by simp)).trans (htaken.mono (by simp))).trans (hstart.keepsPages.mono (by simp))⟩
  · rw [← hs1, ← htin] at hs2
    exact State.phaseEnable_of_place hstage hs2
  · rw [hstart.flag_eq (f := PHASE.CONTROL.ENABLE) (by decide) (by decide), State.flag,
      (htaken.samePage (p := pPHASE k) (by simpa using hapart.symm)).get_eq (f := PHASE.CONTROL.ENABLE) (by decide)]
    exact hon

theorem accepts_phaseEnable {v : Nat} (hon : bitOf v 31 = true) (hexit : bitOf v 30 = false) (hrestart : bitOf v 0 = false)
    (hoff : s.flag (pPHASE k) PHASE.CONTROL.ENABLE = false) (hstage : 2 ≤ s.stage)
    (hplace : (s.takePlace (s.get (pPHASE k) PHASE.SRC_CFG.SRC_TIN) 3 k).isSome = true) :
    Accepts (.phaseEnable path k v) s path (pPHASE k) 0x014 v (fun t => t.phaseState k = 1 ∧ (t.phase k).stamps = [] ∧
      t.flag (pPHASE k) PHASE.CONTROL.ENABLE = true ∧ KeepsPages s t [pPHASE k, pTIN (s.get (pPHASE k) PHASE.SRC_CFG.SRC_TIN)] ∧
      KeepsMemory s t) := by
  obtain ⟨t, henable, hacquires, hset, hpages⟩ := State.phaseEnable_accepts hk hsound hstage hplace
  have hmem : t.holds s.bar2 s.pending := by
    have hholds := State.phaseEnable_holds s.holds_self k true
    rwa [henable] at hholds
  have hmeaning : s.writeControl (s.wctx path (pPHASE k) k phaseControl 0 v) .phase = accept t :=
    State.writeControl_of_parts (s1 := t) (s2 := t) (by simpa [State.wctx, State.asked, State.setEnable, hasEnable, hon, hoff] using henable)
      (by simp [State.wctx, State.asked, hexit]) (by simp [State.wctx, State.asked, hrestart])
  have hreport := t.reported_keepsBut path (pPHASE k) 0x014 (phaseControl.at_ 0) (s.agentOf path)
  obtain ⟨hstate, hstamps⟩ := State.acquiresAfresh_reported hacquires path 0x014 (phaseControl.at_ 0) (s.agentOf path)
  exact .of_control (fun hwf => guarded_of_wf s (fun s => s.wrote path (pPHASE k) 0x014 v) hwf) (regAt_phaseControl hk) (by decide) hmeaning
    ⟨hstate, hstamps, (hreport.flag_eq (f := PHASE.CONTROL.ENABLE) (by decide) (by decide)).trans hset,
      hpages.trans (hreport.keepsPages.mono (by simp)), .of_holds (State.reported_holds _ _ _ _ _ _ hmem)⟩

theorem accepts_restart (hrunning : s.phaseState k ≠ 0) : Accepts (.restart path k) s path (pPHASE k) 0x014 (s.controlWith (pPHASE k) 0) (fun t =>
    t.phaseState k = 1 ∧ (t.phase k).stamps = [] ∧ KeepsPages s t [pPHASE k] ∧ KeepsMemory s t) := by
  obtain ⟨hacquires, hkeep⟩ := State.reacquire_shows (s := s) (k := k) (by rwa [State.sound_phases hsound]) (s.phase k).nextJ
  have hmem : (s.reacquire k (s.phase k).nextJ).holds s.bar2 s.pending := State.reacquire_holds s.holds_self _ _
  have hrestart : s.phaseRestart k = s.reacquire k (s.phase k).nextJ := if_neg hrunning
  generalize s.reacquire k (s.phase k).nextJ = t at *
  have henable : bitOf (s.controlWith (pPHASE k) 0) 31 = s.flag (pPHASE k) ⟨0x014, 31, 31⟩ := by simp [State.bitOf_controlWith]
  have hexit : bitOf (s.controlWith (pPHASE k) 0) 30 = false := by simp [State.bitOf_controlWith]
  have hbit : bitOf (s.controlWith (pPHASE k) 0) 0 = true := by simp [State.bitOf_controlWith]
  have hmeaning : s.writeControl (s.wctx path (pPHASE k) k phaseControl 0 (s.controlWith (pPHASE k) 0)) .phase = accept t := by
    refine State.writeControl_of_parts (s1 := s) (s2 := s) ?_ ?_ ?_
    · simp only [State.wctx, State.asked, henable, bne_self_eq_false, Bool.and_false, Bool.false_eq_true, if_false]
    · simp only [State.wctx, State.asked, hexit, Bool.false_eq_true, if_false]
    · simp only [State.wctx, State.asked, hbit, if_true, State.controlBit, hrestart]
  obtain ⟨hstate, hstamps⟩ := State.acquiresAfresh_reported hacquires path 0x014 (phaseControl.at_ 0) (s.agentOf path)
  exact .of_control (fun hwf => guarded_of_wf s (fun s => s.wrote path (pPHASE k) 0x014 (s.controlWith (pPHASE k) 0)) hwf)
    (regAt_phaseControl hk) (by decide) hmeaning
    ⟨hstate, hstamps, hkeep.keepsPages.trans (t.reported_keepsBut path (pPHASE k) _ _ _).keepsPages,
      .of_holds (State.reported_holds _ _ _ _ _ _ hmem)⟩

/-! ### A lost source -/

theorem runs_phaseSourceLost (hlost : s.phaseLost k = true) : Runs (.phaseSourceLost k) s (fun t => t.errSet (pPHASE k) 0 = true ∧
    t.phaseState k = 1 ∧ (t.phase k).stamps = [] ∧ KeepsPages s t [pPHASE k] ∧ KeepsMemory s t) := by
  have hlen : k < (s.err (pPHASE k) 0).phases.length := by rwa [(ReportsOnly.err ..).phases, State.sound_phases hsound]
  obtain ⟨⟨hstate, hstamps⟩, hkeep⟩ := State.reacquire_shows hlen (s.phase k).nextJ
  refine .of_effect _ rfl ?_
  rw [if_pos hlost]
  refine ⟨?_, hstate, hstamps, (KeepsBut.err 0).keepsPages.trans hkeep.keepsPages,
    .of_holds (State.reacquire_holds (State.err_holds s.holds_self _ _) _ _)⟩
  rw [State.errSet, hkeep.rd_eq (by decide) (by decide)]
  exact s.errSet_err_self (pPHASE k) 0 (by decide)

end

/-! ### Conversions -/

section
variable {s : State} {k : Nat}

/-- PHASE_CONVERT converts the head of the first queue that waits for the tracker, or else posts the tracker's event. -/
theorem exec_phaseConvert_of_head {q : Nat} (hwf : (Instr.phaseConvert k).wf = true)
    (hfind : (List.range 16).find? (fun q => s.convertDue q && s.get pSCHED (SCHED.Q_CFG.BASE_INDEX q) == k) = some q) :
    exec (.phaseConvert k) s = .next (s.convertHead q) := by
  change execPhaseConvert k s = _
  unfold execPhaseConvert
  rw [guarded_of_wf _ _ hwf]
  simp only [hfind]

theorem exec_phaseConvert_of_none (hwf : (Instr.phaseConvert k).wf = true)
    (hfind : (List.range 16).find? (fun q => s.convertDue q && s.get pSCHED (SCHED.Q_CFG.BASE_INDEX q) == k) = none) :
    exec (.phaseConvert k) s = .next (s.phaseEvent k) := by
  change execPhaseConvert k s = _
  unfold execPhaseConvert
  rw [guarded_of_wf _ _ hwf]
  simp only [hfind]

/-- A head with no bound on its TEB gets the predicted instant (R144, R152). -/
theorem State.convertHead_of_unbounded {q b : Nat} {u : Int} {a : Action} {rest : List Action} (hactions : (s.queue q).actions = a :: rest)
    (hpredict : s.predictPhase a.baseIndex a.phase = some (u, b)) (hlimit : a.tebLimit = 0xFFFFFFFF) :
    s.convertHead q = s.setHead q { a with at_ := some u, requested := some (a.requested.getD u), gate := none } := by
  unfold State.convertHead
  simp only [hactions, hpredict, gateOf, hlimit, if_true]

theorem State.setHead_actions {q : Nat} (hq : q < s.sched.queues.length) (a : Action) :
    ((s.setHead q a).queue q).actions = a :: (s.queue q).actions.drop 1 := by
  rw [State.setHead, State.queue_setQueue _ _ _ hq]

theorem runs_phaseConvert_head (hsound : s.sound = true) {q b : Nat} {a : Action} {rest : List Action} {u : Int}
    (hfind : (List.range 16).find? (fun q => s.convertDue q && s.get pSCHED (SCHED.Q_CFG.BASE_INDEX q) == k) = some q)
    (hactions : (s.queue q).actions = a :: rest) (hpredict : s.predictPhase a.baseIndex a.phase = some (u, b)) (hlimit : a.tebLimit = 0xFFFFFFFF) :
    Runs (.phaseConvert k) s (fun t => (∃ a' : Action, (t.queue q).actions = a' :: rest ∧ a'.at_ = some u ∧ a'.op = a.op) ∧ KeepsRegs s t [] ∧
      KeepsMemory s t) := by
  have hq : q < 16 := List.mem_range.1 (List.mem_of_find?_eq_some hfind)
  intro hwf
  refine .of_exec (exec_phaseConvert_of_head hwf hfind) ?_
  rw [State.convertHead_of_unbounded hactions hpredict hlimit]
  refine ⟨⟨{ a with at_ := some u, requested := some (a.requested.getD u), gate := none }, ?_, rfl, rfl⟩, .of_same rfl,
    .of_holds (State.setHead_holds s.holds_self _ _)⟩
  rw [State.setHead_actions (by rwa [State.sound_queues hsound]), hactions, List.drop_one, List.tail_cons]

theorem runs_phaseConvert_event (hsound : s.sound = true) (hk : k < 4) {turn u : Int}
    (hfind : (List.range 16).find? (fun q => s.convertDue q && s.get pSCHED (SCHED.Q_CFG.BASE_INDEX q) == k) = none)
    (hdue : s.phaseEventDue k = some (turn, u)) :
    Runs (.phaseConvert k) s (fun t => (t.phase k).lastTurn = some turn ∧
      (∃ e : LineEvent, t.lineEvents = s.lineEvents ++ [e] ∧ e.src = .tracker k ∧ e.t = u.toNat) ∧ KeepsRegs s t [] ∧ KeepsMemory s t) := by
  have hevent : s.phaseEvent k = (s.setPhase k { s.phase k with lastTurn := some turn }).post ⟨.tracker k, u.toNat, s.tebTs u⟩ := by
    simp only [State.phaseEvent, hdue]
  have hphase := s.phase_setPhase k { s.phase k with lastTurn := some turn } (by rwa [State.sound_phases hsound])
  have hmem : (s.phaseEvent k).holds s.bar2 s.pending := State.phaseEvent_holds s.holds_self _
  intro hwf
  refine .of_exec (exec_phaseConvert_of_none hwf hfind) ?_
  rw [hevent] at hmem ⊢
  exact ⟨congrArg PhaseSt.lastTurn hphase, ⟨⟨.tracker k, u.toNat, s.tebTs u⟩, rfl, rfl, rfl⟩, .of_same rfl, .of_holds hmem⟩

end

/-- Settles O31: ENABLE, RESTART and a lost source all come to a record without stamps under STATE ACQUIRING; a conversion changes one head, or one
tracker's last turn and the lines' events. -/
theorem phaseTrackers : Obligations.PhaseTrackers := by
  intro s hsound path k hk
  exact ⟨fun _ => accepts_phaseEnable hk hsound, accepts_restart hk hsound, runs_phaseSourceLost hk hsound,
    fun _ _ _ _ _ => runs_phaseConvert_head hsound, fun _ _ => runs_phaseConvert_event hsound hk⟩

end Sys2Proof.Machine
end
